-- ==== Sys2Proof/Word.lean ====
section
/-!
DEFINITION. The words of the XG-9600 (spec/00_scope.md, R7): 32-bit register words, bytes, and device time as a whole
number of 2^-32 ns, the resolution of the sub-nanosecond field of R317.
-/
namespace Sys2Proof

/-- A register word (R4). -/
abbrev Word := BitVec 32

/-- A byte. -/
abbrev Byte := BitVec 8

/-- Device time and spans of it, in units of 2^-32 ns (R317). -/
abbrev Time := Nat

namespace Time

/-- One nanosecond. -/
def nsU : Nat := 4294967296
/-- One microsecond. -/
def usU : Nat := 1000 * nsU
/-- One millisecond. -/
def msU : Nat := 1000000 * nsU
/-- One second. -/
def secU : Nat := 1000000000 * nsU

/-- The TAI second of an instant. -/
def secOf (t : Time) : Nat := t / secU
/-- The nanosecond within its second. -/
def nsOf (t : Time) : Nat := t % secU / nsU
/-- The sub-nanosecond fraction, in 2^-32 ns. -/
def subOf (t : Time) : Nat := t % nsU

end Time
end Sys2Proof
end

