-- ==== Sys2Proof/Syntax.lean ====
section
/-!
DEFINITION. The commands the block takes, one for each row of spec/opcode_table.json: host accesses, events on its pins, links and clocks,
and the turns its own units take. Operands carry what a command brings with it: register values, frames, the place it acts on, and the
outcomes of the world outside that a command reports (log entry 60).
-/
namespace Sys2Proof

inductive Instr where
  /-- ETH_FRAME_RECEIVED (R44). An Ethernet port finishes receiving a frame and applies the length checks and the filter steps before the FIFO. `bytes` are from the destination address through the FCS; `codeError` tells a PCS code or block error. -/
  | ethFrameReceived (port : Nat) (bytes : List Byte) (codeError : Bool)
  /-- PARSER_TURN (R55). The parser takes the next frame round-robin from a non-empty port FIFO and applies the parser steps. `uncorrectable` tells that the FIFO word read is uncorrectable (R460). -/
  | parserTurn (uncorrectable : Bool)
  /-- ETH_CFG_WRITE (R39). A write to ETH_CFG is checked, and a change of MODE or FEC restarts the port's PCS. -/
  | ethCfgWrite (port : Nat) (v : Word)
  /-- ETH_LINK_CHANGE (R37). A port's link comes up or drops, which changes LINK and raises EV_ETH_LINK. What the PCS shows; `slow` tells an SGMII partner that resolved to 10 or 100 Mb/s (R37). -/
  | ethLinkChange (port : Nat) (up : Bool) (anDone : Bool) (blockLock : Bool) (fecLock : Bool) (slow : Bool)
  /-- TCP_SEGMENT_RECEIVED (R71). The hardware TCP receiver takes a segment, discards repeats, holds out-of-order bytes and completes C37.118 frames. -/
  | tcpSegmentReceived
  /-- TCP_CONNECTION_OPEN (R69). A PMU TCP connection opens, and the firmware requests the configuration frame and turns data on. `next` is the first octet number expected. -/
  | tcpConnectionOpen (conn : Nat) (next : Nat)
  /-- TCP_RECONNECT_EXPIRY (R71). The back-off delay of a lost PMU connection expires and the connection is reopened. `ok` tells whether the attempt succeeds, `next` the first octet number expected. -/
  | tcpReconnectExpiry (conn : Nat) (ok : Bool) (next : Nat)
  /-- RGOOSE_LANE_WRITE (R76). At each lap time an R-GOOSE lane's record is written from the latest accepted message. -/
  | rgooseLaneWrite (lane : Nat) (lap : Nat)
  /-- LAP_OPEN (R86). At a lap's opening time the PFA opens the lap, zeroes its quality words and registers its deadline and finish line. -/
  | lapOpen (heat : Nat) (lap : Nat)
  /-- LAP_SKIP (R88). A lap still WAITING at its own lap time is skipped and its staged records are dropped. -/
  | lapSkip (heat : Nat) (lap : Nat)
  /-- DEADLINE_EXPIRY (R90). A lap's deadline timer expires and decides a GATHERING lap with cause DEADLINE. -/
  | deadlineExpiry (heat : Nat) (lap : Nat)
  /-- FINISH_LINE_EXPIRY (R104). A lap's finish line passes: staged records are dropped, a SETTLE token may be offered and the lap may close. -/
  | finishLineExpiry (heat : Nat) (lap : Nat)
  /-- RELEASE_PORT_GRANT (R96). The Starter's release port grants an entry, and the PFA issues the head token and journals its instant. -/
  | releasePortGrant
  /-- FENCE_CLEAR (R95). The ingress marks of the heat's port set pass the token instant, and the PFA substitutes or commits and then delivers the token. -/
  | fenceClear (heat : Nat) (lap : Nat)
  /-- WIN_CMD_FIXED (R111). A window command sets a fixed window and moves the deadlines of GATHERING laps. `v` is the command's VALUE. -/
  | winCmdFixed (v : Nat)
  /-- WIN_CMD_ADAPTIVE (R111). A window command returns the heat to the adaptive window. -/
  | winCmdAdaptive
  /-- WIN_CMD_SET_WMIN (R110). A window command sets WMIN_US of an enabled heat. `v` is the command's VALUE. -/
  | winCmdSetWmin (v : Nat)
  /-- WIN_CMD_SET_WMAX (R110). A window command sets WMAX_US of an enabled heat. `v` is the command's VALUE. -/
  | winCmdSetWmax (v : Nat)
  /-- TASK_PLACE (R222). Every two fabric cycles the Starter places the first placeable task of the highest non-empty level on an engine. -/
  | taskPlace
  /-- TASK_GATHER_DONE (R124). A task finishes copying its lap operands into local memory and reports gather done. `bad` lists lanes whose words are uncorrectable, `uncorrectable` a word of local memory. -/
  | taskGatherDone (inst : Nat) (lap : Nat) (seq : Nat) (bad : List Nat) (uncorrectable : Bool)
  /-- TASK_COMMIT (R224). A task finishes computing and commits its output block atomically, in AMEND_SEQ order. `uncorrectable` tells an uncorrectable word of local memory. -/
  | taskCommit (inst : Nat) (lap : Nat) (seq : Nat) (uncorrectable : Bool)
  /-- RESIDUE_MISMATCH (R129). A residue or parity checker finds a mismatch, which aborts the task and offers a retry. `unit` is 0 integer adder, 1 mantissa multiplier, 2 accumulator, 3 shifter parity, 4 integer multiplier, 5 exponent adder; `injected` tells the mismatch that PAC_RES_INJ armed. -/
  | residueMismatch (inst : Nat) (lap : Nat) (seq : Nat) (unit : Nat) (injected : Bool)
  /-- ENGINE_SUSPECT_EXPIRY (R132). A suspect engine whose mismatches are all older than 3,600 s returns to good health. -/
  | engineSuspectExpiry (engine : Nat)
  /-- PAC_ENG_CLR_GO (R133). A write to PAC_ENG_CLR starts the self-test of a quarantined engine. `v` is written to PAC_ENG_CLR. -/
  | pacEngClrGo (v : Word)
  /-- SELF_TEST_DONE (R133). An engine self-test ends; a pass clears the engine's record and a fail keeps it quarantined. -/
  | selfTestDone (pass : Bool)
  /-- RES_INJ_ARM (R151). Setting PAC_RES_INJ.ARM arms a residue corruption on the next operation of the chosen unit. `v` is written to PAC_RES_INJ. -/
  | resInjArm (v : Word)
  /-- INSTANCE_TIMER_EXPIRY (R217). An instance timer expires at a 1 µs tick and becomes a trigger token. `offset` is the timer's OFFSET in microseconds. -/
  | instanceTimerExpiry (heat : Nat) (lap : Nat) (offset : Nat)
  /-- HELD_PRODUCER_RESUME (R227). A producer held for want of a store entry goes on when an entry frees. `k` counts the producers that wait, the timers after the others. -/
  | heldProducerResume (k : Nat)
  /-- SRT_CFG_RSV_WRITE (R214). A write of SRT_CFG.RSV is checked, and when it takes effect refused tokens are offered again. `v` is written to SRT_CFG. -/
  | srtCfgRsvWrite (v : Word)
  /-- SRT_UNIT_ADMIN_WRITE (R229). A write of SRT_UNIT.ADMIN sets a unit's administrative state and recomputes its STATE. `v` is written to SRT_UNIT. -/
  | srtUnitAdminWrite (v : Word)
  /-- OSM_RUN_START (R160). Writing OSM_CTL.RUN := 1 requests a monitor start after the coverage checks. -/
  | osmRunStart
  /-- OSM_START_SAMPLE (R161). The monitor starts at the first qualifying sample after the RUN write and journals it. -/
  | osmStartSample
  /-- OSM_RUN_STOP (R161). Writing OSM_CTL.RUN := 0 stops the monitor after the sample in progress. -/
  | osmRunStop
  /-- ISL_SWAP_REQUEST (R207). Writing ISL_GRAPH.SWAP := 1 requests a graph swap. -/
  | islSwapRequest
  /-- ALM_THR_CMD_THR_A (R244). A threshold command sets THR_A of a running hurdle from a journaled first lap. -/
  | almThrCmdThrA
  /-- ALM_THR_CMD_HYS_A (R244). A threshold command sets HYS_A of a running hurdle. -/
  | almThrCmdHysA
  /-- ALM_THR_CMD_THR_B (R244). A threshold command sets THR_B of a running hurdle. -/
  | almThrCmdThrB
  /-- ALARM_RECORD_DRAIN (R246). Buffered alarm records, led by a LOSS record where needed, are written when ring space returns. -/
  | alarmRecordDrain
  /-- AOUT_LATCH_CLEAR (R247). A write to ALM_AOUT_CLR releases the latch of an output. `v` is written to ALM_AOUT_CLR. -/
  | aoutLatchClear (v : Word)
  /-- AOUT_FORCE_WRITE (R247). A change of an output's FORCE overrides its level and raises EV_ALM_AOUT_FORCE. `v` is written to ALM_AOUT_CFGk. -/
  | aoutForceWrite (k : Nat) (v : Word)
  /-- AOUT_MIN_ON_EXPIRY (R247). An output's minimum active time ends and the output may follow its level. -/
  | aoutMinOnExpiry (k : Nat)
  /-- GOOSE_RETRANSMIT (R251). A publication's retransmission interval expires and the message is resent with sqNum + 1. -/
  | gooseRetransmit (pub : Nat)
  /-- C37_CFG_PERIODIC (R256). A UDP client's 60 s interval expires and its configuration frame is sent. -/
  | c37CfgPeriodic (client : Nat)
  /-- EGRESS_TCP_ACCEPT (R256). A client's TCP connection is accepted on TCP_PORT. The handshake's outcome: the peer's address and port, its MSS, the first sequence numbers sent and received. -/
  | egressTcpAccept (conn : Nat) (port : Nat) (v6 : Bool) (addr : Nat) (peerPort : Nat) (mss : Nat) (iss : Nat) (rcv : Nat)
  /-- C37_CMD_TX_OFF (R256). A client command turns data transmission off. `tcp` tells whether it came over a connection; `sender` is that connection, or the peer's address. -/
  | c37CmdTxOff (tcp : Bool) (sender : Nat) (idcode : Nat)
  /-- C37_CMD_TX_ON (R256). A client command turns data transmission on and binds a TCP connection by IDCODE. -/
  | c37CmdTxOn (tcp : Bool) (sender : Nat) (idcode : Nat)
  /-- C37_CMD_SEND_HDR (R256). A client command requests the header frame. -/
  | c37CmdSendHdr (tcp : Bool) (sender : Nat) (idcode : Nat)
  /-- C37_CMD_SEND_CFG1 (R256). A client command requests a CFG-1 frame. -/
  | c37CmdSendCfg1 (tcp : Bool) (sender : Nat) (idcode : Nat)
  /-- C37_CMD_SEND_CFG2 (R256). A client command requests a CFG-2 frame. -/
  | c37CmdSendCfg2 (tcp : Bool) (sender : Nat) (idcode : Nat)
  /-- C37_CMD_SEND_CFG3 (R256). A client command requests a CFG-3 frame. -/
  | c37CmdSendCfg3 (tcp : Bool) (sender : Nat) (idcode : Nat)
  /-- C37_CMD_OTHER (R256). Any other client command is counted in EGR_C37_CMD_BAD and ignored. `cmd` is its CMD word. -/
  | c37CmdOther (cmd : Nat) (tcp : Bool) (sender : Nat) (idcode : Nat)
  /-- EGRESS_TCP_ACK_RECEIVED (R257). A client acknowledgement frees send-buffer space, and a third duplicate acknowledgement triggers a retransmission. -/
  | egressTcpAckReceived (conn : Nat) (ack : Nat)
  /-- EGRESS_TCP_RTO (R257). A client connection's retransmission timeout expires and data is resent from the buffer. -/
  | egressTcpRto (conn : Nat)
  /-- TX_FRAME_COMPLETE (R329). A frame's last bit leaves a port, and a time-stamp entry is appended when one was requested. `stamp` is its transmit time-stamp, taken at the end of the start frame delimiter (R327); `firmware` is the identifier of a Stride frame with a time-stamp request that left instead. -/
  | txFrameComplete (port : Nat) (stamp : Nat) (firmware : Nat)
  /-- LMF_GRP_WRITE (R264). A write to LMF_GRP starts or stops a modulator clock group, or is ignored while its chains run. -/
  | lmfGrpWrite (group : Nat) (v : Word)
  /-- CHANNEL_FAULT (R265). An SDD input held at one level for 4,096 edges marks the channel faulted. -/
  | channelFault (ch : Nat)
  /-- CHANNEL_FAULT_CLEAR (R265). 65,536 edges without a stuck run clear a channel's fault. -/
  | channelFaultClear (ch : Nat)
  /-- CAPTURE_STROBE (R267). Every 128 SDC edges the chains produce 80 kHz capture outputs. `bits` holds each channel's 128 bits since the last strobe, the oldest in bit 0; `half` places the edge half a tick on. -/
  | captureStrobe (half : Bool) (bits : List Nat)
  /-- PHASOR_STROBE (R267). Every 1,024 SDC edges the chains produce 10 kHz phasor outputs. As CAPTURE_STROBE's operands. -/
  | phasorStrobe (half : Bool) (bits : List Nat)
  /-- LMF_CH_RUN_START (R272). Writing RUN from 0 to 1 requests a chain start with response SEL. `v` is written to LMF_CH_CTL with RUN 1. -/
  | lmfChRunStart (ch : Nat) (v : Word)
  /-- LMF_CH_RUN_STOP (R272). Writing RUN := 0 requests a chain stop at the next phasor strobe. `v` is written to LMF_CH_CTL with RUN 0. -/
  | lmfChRunStop (ch : Nat) (v : Word)
  /-- LMF_SWITCH_REQUEST (R274). A RUN = 1 write to a running chain requests a switch of response, queued when a fade is in progress. `v` is written to LMF_CH_CTL with RUN 1. -/
  | lmfSwitchRequest (ch : Nat) (v : Word)
  /-- TRIGGER_EVAL_INSTANT (R287). At each eighth of a nominal cycle the cycle-based triggers are evaluated. `nom60` tells the nominal frequency whose instant it is. -/
  | triggerEvalInstant (nom60 : Bool)
  /-- ACQ_ARM (R283). Writing ARM in IDLE arms a capture group into its lowest free slot after the capacity checks. -/
  | acqArm (group : Nat)
  /-- ACQ_DISARM (R284). Writing DISARM aborts the group's record or ring and makes it IDLE. -/
  | acqDisarm (group : Nat)
  /-- ACQ_FORCE (R284). Writing FORCE acts as a trigger with CAUSE 0x0200. -/
  | acqForce (group : Nat)
  /-- CAPTURE_RECORD_END (R284). A record's end instant passes, the record completes, and the group re-arms or goes IDLE. -/
  | captureRecordEnd (group : Nat)
  /-- ACQ_SLOT_RELEASE (R290). Writing ACQ_SLOT_REL frees a DONE slot, and a FULL group arms into it. -/
  | acqSlotRelease (v : Word)
  /-- PLSI_LEVEL_CHANGE (R303). A pulse input changes level and its debounce starts, or a change that reverts is dropped as a glitch. -/
  | plsiLevelChange (input : Nat) (level : Bool)
  /-- PULSE_ACCEPT (R303). A level has stayed stable for DEB_US, and an edge of the selected polarity adds WEIGHT to the point. -/
  | pulseAccept (input : Nat)
  /-- NRG_SNAPSHOT_REQUEST (R305). Writing NRG_SNAP_CTL.GO requests an atomic snapshot of a point's totals. -/
  | nrgSnapshotRequest (point : Nat)
  /-- NRG_SNAPSHOT_COMPLETE (R305). The snapshot is complete, and the slot becomes HELD with READY = 1. -/
  | nrgSnapshotComplete
  /-- NRG_SNAPSHOT_RELEASE (R409). Writing the held SEQ to NRG_SNAP_REL frees the slot. -/
  | nrgSnapshotRelease (v : Word)
  /-- INTERVAL_CLOSE (R308). A metering interval closes once its end has passed and its laps are released, and its record is written. -/
  | intervalClose (point : Nat)
  /-- INTERVAL_RECORD_DRAIN (R309). Buffered interval records are written when ring space returns. -/
  | intervalRecordDrain
  /-- PULSE_OUTPUT_ENABLE (R310). Setting NRG_PO_CFG.EN takes the base value and starts a pulse output. `v` is written to NRG_PO_CFGk with EN 1. -/
  | pulseOutputEnable (k : Nat) (v : Word)
  /-- PULSE_OUTPUT_DISABLE (R311). Clearing NRG_PO_CFG.EN empties the queue, and a pulse in progress completes. `v` is written to NRG_PO_CFGk with EN 0. -/
  | pulseOutputDisable (k : Nat) (v : Word)
  /-- PULSE_OUTPUT_PHASE_END (R310). A pulse's active or inactive PW_MS period ends and the next pending pulse may start. -/
  | pulseOutputPhaseEnd (k : Nat)
  /-- PTP_MESSAGE_RECEIVED (R325). The Timekeeper processes a received PTP message for the best master clock algorithm, delay and offset. `stamp` is the hardware's stamp of its arrival. -/
  | ptpMessageReceived (stamp : Nat)
  /-- PTP_ANNOUNCE_TIMEOUT (R321). Announce receipt times out and the PTP source is lost. -/
  | ptpAnnounceTimeout (port : Nat)
  /-- PTP_TRANSMIT_TIMER (R326). A port's Sync, Announce, Pdelay or Delay_Req interval expires and the message is sent. `kind` is 0 Sync, 1 Announce, 2 Delay_Req or Pdelay_Req, as the port's state has it. -/
  | ptpTransmitTimer (port : Nat) (kind : Nat)
  /-- IRIG_FRAME_RECEIVED (R330). An IRIG-B frame is decoded, which yields an offset or counts an error. `form` is n of its form B00n, `symbols` the 100 symbols, `edge` the instant its reference bit rose. -/
  | irigFrameReceived (form : Nat) (symbols : List Nat) (edge : Nat)
  /-- IRIG_FRAME_MISSING (R321). An expected IRIG-B frame does not arrive, and the third in a row loses the source. -/
  | irigFrameMissing
  /-- PPS_IN_EDGE (R330). A PPS_IN edge marks a second and yields an offset, or is rejected outside the window. -/
  | ppsInEdge (rising : Bool) (edge : Nat)
  /-- PPS_WINDOW_MISSED (R321). No PPS_IN edge arrives in its window, and the third miss in a row loses the source. -/
  | ppsWindowMissed
  /-- SOURCE_QUALIFIED (R321). A source valid for QUAL_S seconds qualifies and may take the selection. -/
  | sourceQualified (source : Nat)
  /-- SYNC_LIMIT_CROSSING (R335). The error estimate passes SYNC_NS or a code bound, which clears SYNC or changes the time-quality code. -/
  | syncLimitCrossing
  /-- UNLOCK_INTERVAL_EXPIRY (R336). 10, 100 or 1,000 s after leaving LOCKED, UNLOCK advances. -/
  | unlockIntervalExpiry
  /-- TK_INC_FRAC_WRITE (R320). A write of TK_INC_FRAC sets a manual increment, or is refused. `v` is written to TK_INC_FRAC. -/
  | tkIncFracWrite (v : Word)
  /-- TK_CMD_STEP (R324). A host step command adds the signed offset to device time at the next tick, or is refused. `v` is written to TK_CMD. -/
  | tkCmdStep (v : Word)
  /-- LEAP_APPLY (R331). At the end of a UTC day with a pending leap, the offset in force changes by one. -/
  | leapApply
  /-- PPS_OUT_PULSE (R330). PPS_OUT rises before each whole second and falls after OUT_W_MS. -/
  | ppsOutPulse
  /-- MGT_FRAME_RECEIVED (R338). A management-port frame goes to the Stride cores, dated by firmware, and PTP on it is dropped. The firmware's
  date is `dated` ns after 20 µs before the frame's instant (log entry 82). -/
  | mgtFrameReceived (dated : Nat) (bytes : List Byte)
  /-- ETH_TXTS_POP (R329). A write to ETH_TXTS_POP removes the head time-stamp entry while the port's PTP is disabled. `v` is written to ETH_TXTS_POP. -/
  | ethTxtsPop (port : Nat) (v : Word)
  /-- ETH_TXTS_ID_READ (R329). A read of ETH_TXTS_ID latches the head entry's time-stamp. -/
  | ethTxtsIdRead (port : Nat)
  /-- TK_NOW_NS_READ (R319). A read of TK_NOW_NS latches the other device-time registers at the same tick. -/
  | tkNowNsRead
  /-- COUNTER_LO_READ (R81). A read of the low word of a wide counter latches its high word. The read of a port's RX_OCTETS_LO. -/
  | counterLoRead (port : Nat)
  /-- RC_REGISTER_READ (R5). A read of an RC field returns its value and clears it. A 32-bit read at a BAR0 offset. -/
  | rcRegisterRead (addr : Nat)
  /-- RXL_FRAME_RECEIVED (R348). A Rharix frame arrives on an RXL port or over UDP and passes the receive checks. `lane` 0 to 3 is an RXL port; any other lane is the oldest datagram handed on by the ports. -/
  | rxlFrameReceived (lane : Nat) (bytes : List Byte)
  /-- RXL_ACK_DELAY_EXPIRY (R350). An accepted frame unacknowledged for 2 µs on RXL or 500 µs on UDP causes an ACK frame. -/
  | rxlAckDelayExpiry (link : Nat)
  /-- RXL_RETRANSMIT_TIMEOUT (R350). The oldest unacknowledged frame waits RTO, all unacknowledged frames of the class are resent, and the link may fail. -/
  | rxlRetransmitTimeout (link : Nat) (cls : Nat)
  /-- CADENCE_SEND (R351). A link's or span's Cadence interval expires and a CADENCE frame is sent. `peer` tells an end-to-end CADENCE to device `n`, else link `n`. -/
  | cadenceSend (peer : Bool) (n : Nat)
  /-- PEER_LOSS_TIMEOUT (R351). No CADENCE from a peer within 3 intervals declares the peer lost. -/
  | peerLossTimeout (dev : Nat)
  /-- RXL_CADENCE_TIMEOUT (R353). No CADENCE from PEER_DEV within 3 ms marks the RXL port failed. -/
  | rxlCadenceTimeout (link : Nat)
  /-- RXL_LOCK_CHANGE (R353). An RXL port gains or loses lock, and link training restarts on a loss. -/
  | rxlLockChange (lane : Nat) (lock : Bool)
  /-- RXL_PORT_ENABLE (R342). Setting RXL_PORT.EN powers the port and starts link training. -/
  | rxlPortEnable (lane : Nat) (v : Word)
  /-- RXL_TRAINING_DONE (R342). Link training of an RXL port completes. -/
  | rxlTrainingDone (lane : Nat)
  /-- PART_WAIT_EXPIRY (R363). At lap time plus PART_WAIT_US the anchor combines with missing partials excluded. -/
  | partWaitExpiry (heat : Nat) (lap : Nat)
  /-- BATON_TOGGLE (R375). Every 1 ms the holder changes the level of RELAY_BATON_OUT. -/
  | batonToggle
  /-- BATON_EDGE_SEEN (R377). A holder sees an edge on RELAY_BATON_IN, releases its drivers and stops toggling and transmitting. -/
  | batonEdgeSeen
  /-- BATON_SILENCE_TIMEOUT (R376). A follower sees no baton edge for 3 ms and takes the baton, or withholds the take-over. -/
  | batonSilenceTimeout
  /-- BATON_WATCH_END (R378). A primary's 3 ms watch after GO ends, and it enters RACE or FOLLOW. -/
  | batonWatchEnd
  /-- DRIVER_ENABLE_DELAY (R377). 50 µs after its first edge the taker enables its AOUT and PLSO drivers. -/
  | driverEnableDelay
  /-- HEARTBEAT_MISSING (R375). The Stride heartbeat is missing for 2 ms and the holder stops toggling. -/
  | heartbeatMissing
  /-- HANDOVER_REQUEST (R383). Writing RLY_CTL.HANDOVER requests a planned release of the baton, or is refused. -/
  | handoverRequest
  /-- HANDOVER_RELEASE (R383). Every JOURNAL frame is acknowledged and the primary stops toggling. -/
  | handoverRelease
  /-- RESYNC_REQUEST (R374). Writing RLY_CTL.RESYNC asks the primary for a checkpoint at once. -/
  | resyncRequest
  /-- CHECKPOINT_LOAD (R374). An out-of-step follower loads a received checkpoint, or refuses it on a digest mismatch. -/
  | checkpointLoad
  /-- BAR0_BAD_ACCESS (R389). A BAR0 access of wrong size, alignment or range is refused and counted. `size` in octets. -/
  | bar0BadAccess (write : Bool) (addr : Nat) (size : Nat)
  /-- REGISTER_WRITE (R6). A write to a register with no row of its own sets or clears its fields under its access codes and checks. -/
  | registerWrite (addr : Nat) (v : Word)
  /-- SQ_TAIL_DOORBELL (R394). A write to an SQ tail doorbell advances the tail, or is ignored. -/
  | sqTailDoorbell (ring : Nat) (v : Word)
  /-- CQ_HEAD_DOORBELL (R394). A write to a CQ head doorbell frees entries, or is ignored. -/
  | cqHeadDoorbell (ring : Nat) (v : Word)
  /-- RING_ENABLE (R392). Setting a ring's EN from 0 to 1 zeroes its head and tail. `v` is written to the selected ring's configuration with EN 1. -/
  | ringEnable (cq : Bool) (v : Word)
  /-- RING_DISABLE (R392). Clearing an SQ's EN drops its unstarted descriptors. -/
  | ringDisable (cq : Bool)
  /-- DESCRIPTOR_FETCH (R395). A DMA channel takes the next descriptor round-robin from its SQs once the CQ has room. `words` are the descriptor's eight words, `list` the words of its scatter-gather list. -/
  | descriptorFetch (ch : Nat) (words : List Word) (list : List Word)
  /-- OP_NOP (R398). A NOP descriptor completes OK. -/
  | opNop (ch : Nat)
  /-- OP_TABLE_LOAD (R400). The table unit stores a TABLE_LOAD's entries after the permission and content checks. -/
  | opTableLoad (ch : Nat)
  /-- OP_TABLE_READ (R399). A TABLE_READ copies table entries to the host atomically with respect to loads. -/
  | opTableRead (ch : Nat)
  /-- OP_HEAT_ENABLE (R34). A HEAT_CTL enable makes its tests in order and allocates slots and timers, or fails with a status. -/
  | opHeatEnable (ch : Nat)
  /-- OP_HEAT_DISABLE (R32). A HEAT_CTL disable releases the heat's open laps at the disable instant and opens no further laps. -/
  | opHeatDisable (ch : Nat)
  /-- OP_MEM_READ (R398). A MEM_READ copies device DDR5 to the host. `uncorrectable` is the 64-byte burst of the DDR5 found uncorrectable, if any. -/
  | opMemRead (ch : Nat) (uncorrectable : Option Nat)
  /-- OP_STREAM_READ (R407). A STREAM_READ waits for and copies whole committed packets of a stream FIFO. -/
  | opStreamRead (ch : Nat)
  /-- OP_UNDEFINED (R398). A descriptor with an unlisted opcode completes with BAD_OPCODE. -/
  | opUndefined (ch : Nat)
  /-- DMA_READ_COMPLETION (R404). A read completion arrives, bytes are counted down, and a failed completion ends the descriptor with DMA_ERR or ERR_LAST. The next octets read from host memory, or that the read failed. -/
  | dmaReadCompletion (ch : Nat) (data : List Byte) (ok : Bool)
  /-- CQ_COALESCE_TIMEOUT (R397). COAL_US passes after a CQ's first uninterrupted entry and its vector is raised. -/
  | cqCoalesceTimeout (ring : Nat)
  /-- DMA_CH_STOP (R403). Writing DMA_CH_CTL.STOP stops a channel by disable at once, or starts an abort. -/
  | dmaChStop (ch : Nat)
  /-- DMA_ABORT_DONE (R403). An aborting channel finishes its burst, writes an ABORTED completion and stops. -/
  | dmaAbortDone (ch : Nat)
  /-- DMA_CH_START (R403). Writing DMA_CH_CTL.START lets a stopped channel leave STOPPED. -/
  | dmaChStart (ch : Nat)
  /-- STREAM_READ_IDLE_TIMEOUT (R407). IDLE_US passes with no new packet and a STREAM_READ completes. -/
  | streamReadIdleTimeout (ch : Nat)
  /-- STREAM_FIFO_FLUSH (R408). Writing HIF_SF_CTL.FLUSH empties a stream FIFO and completes any STREAM_READ with FLUSHED. -/
  | streamFifoFlush (fifo : Nat)
  /-- PCIE_LINK_DOWN (R391). A Function Level Reset, hot reset, link-down or PERST_N resets the host interface, rings, channels and stream FIFOs. -/
  | pcieLinkDown (flr : Bool) (rate : Nat) (width : Nat)
  /-- KEY_CMD_WRITE (R416). A WRITE stores a root key into the bank not in force and commits it. `host` tells a write by the host rather than by the Stride firmware. -/
  | keyCmdWrite (host : Bool) (slot : Nat) (mask : Nat)
  /-- KEY_CMD_ERASE (R417). An ERASE empties a root slot that is not in use. -/
  | keyCmdErase (host : Bool) (slot : Nat)
  /-- KEY_CMD_SET_NEXT (R422). SET_NEXT checks a path, derives a working key and writes the group's next entry. -/
  | keyCmdSetNext (host : Bool) (group : Nat)
  /-- KEY_CMD_ROLL (R422). ROLL makes a group's next entry current. -/
  | keyCmdRoll (host : Bool) (group : Nat)
  /-- KEY_CMD_CLEAR (R422). CLEAR empties both entries of a key group. -/
  | keyCmdClear (host : Bool) (group : Nat)
  /-- KEY_CMD_CLOSE_WINDOW (R415). OP 0xF closes the privilege window. -/
  | keyCmdCloseWindow (host : Bool)
  /-- KEY_UNLOCK (R415). A write of KEY_UNLOCK_LO compares the token and opens the window, or counts a failure and may lock out. -/
  | keyUnlock (lo : Word)
  /-- PRIV_WINDOW_EXPIRY (R415). The privilege window closes 10 s after it opened. -/
  | privWindowExpiry
  /-- ATTEST_REQUEST (R426). Setting KEY_ATT_CTL.GO requests an attestation response, or is refused. -/
  | attestRequest
  /-- ATTEST_READY (R426). The attestation response is complete and its slot becomes HELD. -/
  | attestReady
  /-- ATTEST_RELEASE (R409). Writing the held SEQ to KEY_ATT_REL frees the attestation slot. -/
  | attestRelease (v : Word)
  /-- TAMPER_ZEROISE (R427). TAMPER_N held low for 200 ns zeroises the key store and sets TAMPERED. TAMPER_N is low. -/
  | tamperZeroise
  /-- BOOT_DIGEST_EXTEND (R419). The boot ROM or firmware extends a boot-digest register with a measurement during WARMUP. -/
  | bootDigestExtend (bd : Nat) (message : List Byte)
  /-- SCB_FLUSH_WRITE (R435). Writing SCB_CTL.FLUSH starts a flush of the Scorebook buffer to flash. -/
  | scbFlushWrite
  /-- SCOREBOOK_FLUSH_DONE (R438). A flash program or erase of the Scorebook completes and is verified, or fails and skips its sector. -/
  | scorebookFlushDone (ok : Bool)
  /-- SCOREBOOK_LOOKUP (R440). A write to SCB_RD_SEQ starts a lookup of a Scorebook record. `seq` is written to SCB_RD_SEQ. -/
  | scorebookLookup (seq : Word)
  /-- SCOREBOOK_LOOKUP_DONE (R440). A Scorebook lookup completes with DONE and FOUND. -/
  | scorebookLookupDone
  /-- JOURNAL_DRAIN (R445). Journal entries are copied in JSEQ order into stream FIFO 0 as room allows, with a GAP packet after losses. -/
  | journalDrain (uncorrectable : Bool)
  /-- CHECKPOINT_START (R446). At a whole minute or a requested tick a START entry opens a copy-on-write checkpoint. -/
  | checkpointStart
  /-- JNL_CKPT_WRITE (R446). Writing JNL_CTL.CKPT requests a checkpoint at the next tick. -/
  | jnlCkptWrite
  /-- CHECKPOINT_END (R446). The checkpoint's STATE data are complete, and END is written and JNL_START updated. -/
  | checkpointEnd
  /-- RERUN_GO (R448). Writing JNL_CTL.RR_GO starts applying entries in RERUN from JNL_RR_FROM. -/
  | rerunGo
  /-- RERUN_STOP (R448). Writing JNL_CTL.RR_STOP stops a Rerun after the current entry. -/
  | rerunStop
  /-- RERUN_INPUT_WORD (R448). A write to JNL_IN supplies one word of a drained packet for a Rerun. -/
  | rerunInputWord (v : Word)
  /-- RERUN_APPLY_ENTRY (R449). The Rerun applies the next journal entry at its instant. -/
  | rerunApplyEntry (uncorrectable : Bool)
  /-- SCRUB_READ (R463). The scrubber reads the next word or burst and writes back a corrected one. The word as found: `kind` 0 clean, 1 correctable, 2 uncorrectable; `place` is where it lies as the model counts. -/
  | scrubRead (array : Nat) (bank : Nat) (index : Word) (kind : Nat) (place : Nat)
  /-- SCRUB_PERIOD_END (R463). A sweep period ends; a complete sweep is counted, or an incomplete one is counted late. `done` tells whether every array was swept; `array` is the one in progress. -/
  | scrubPeriodEnd (done : Bool) (array : Nat)
  /-- MERGE_ENTRY_TIMEOUT (R457). An incomplete merge-buffer entry open for 64 cycles becomes a read-modify-write. -/
  | mergeEntryTimeout (uncorrectable : Bool)
  /-- MEM_INJECT_ARM (R464). Setting MEM_INJ.ARM arms a flip mask for the next write to the chosen array. -/
  | memInjectArm (v : Word)
  /-- MEM_GROUP_CLEAR (R461). Writing MEM_GRP_CLR for a failed bank group clears it and returns its free blocks. -/
  | memGroupClear (v : Word)
  /-- BEACON_INSTANT (R473). At each multiple of BCN_MS a beacon is sent on the next channel, or dropped after dwell deferral. -/
  | beaconInstant
  /-- XCR_FRAME_RECEIVED (R472). A radio frame ends and passes the receive checks, is de-duplicated and queued for the host. `phr` is the PHR, `bytes` the frame with its FCS. -/
  | xcrFrameReceived (phr : Nat) (bytes : List Byte)
  /-- XCR_ACK_SEND (R478). 1 ms after an accepted frame with ACKREQ the coordinator sends an ACK. -/
  | xcrAckSend
  /-- XCR_ACK_TIMEOUT (R478). No ACK arrives within 5 ms and the frame is retried or fails. -/
  | xcrAckTimeout
  /-- XCR_TX_REQUEST (R474). Setting XCR_TX_CMD.GO requests a DATA or COMMAND transmission, or is refused. `v` is written to XCR_TX_CMD. -/
  | xcrTxRequest (v : Word)
  /-- XCR_LISTEN_SEND (R474). At a SYNCED sensor's listen instant the guarded preamble and frame are sent. `busy` counts the clear-channel assessments that find the channel busy. -/
  | xcrListenSend (busy : Nat)
  /-- XCR_WAKE_SEQUENCE (R477). A wake sequence to a LOST sensor starts once its pieces fit the dwell limits before the next beacon. `busy` as for XCR_LISTEN_SEND. -/
  | xcrWakeSequence (busy : Nat)
  /-- XCR_DEFERRED_SEND (R479). A transmission deferred by dwell goes out when the channel's airtime allows. `busy` as for XCR_LISTEN_SEND. -/
  | xcrDeferredSend (busy : Nat)
  /-- XCR_CHECKIN_MISSED (R475). CHK_S passes without a frame from a sensor, and the third miss makes it LOST. -/
  | xcrCheckinMissed (sensor : Nat)
  /-- XCVR_READBACK_TIMEOUT (R469). The transceiver does not answer an SPI read-back within 1 ms and XCVR_OK clears. `ok` tells a correct read-back before the time was over. -/
  | xcvrReadbackTimeout (ok : Bool)
  /-- XCR_RXQ_POP (R481). A write to XCR_RXQ_POP removes the head receive-queue entry. -/
  | xcrRxqPop
  /-- RESET_N_ASSERT (R487). RESET_N low puts the device into RESET. -/
  | resetNAssert
  /-- WARMUP_ENTRY (R487). RESET_N and PFW_N high for 1 ms move the device from RESET to WARMUP. -/
  | warmupEntry
  /-- WARMUP_COMPLETE (R490). The last warm-up step completes and WU_DONE is set. `fail` is the FCAUSE of a failed step, 0 for none. -/
  | warmupComplete (fail : Nat) (libVer : Word) (token : Nat)
  /-- PWR_GO_RACE (R487). PWR_CTL.GO with TARGET RACE leaves WARMUP for RACE or FOLLOW. -/
  | pwrGoRace
  /-- PWR_GO_RERUN (R487). PWR_CTL.GO with TARGET RERUN leaves WARMUP for RERUN. -/
  | pwrGoRerun
  /-- PWR_RESET_KEY (R489). A PWR_CTL write with RST_KEY 0xA5C3 resets the device. -/
  | pwrResetKey (key : Nat)
  /-- PFW_N_FALL (R493). PFW_N falls and the device enters HOLD, stops accumulation and starts the save. -/
  | pfwNFall
  /-- SAVE_WRITE_DONE (R492). The save image write and read-back complete and PWR_SAVE shows the outcome. `ok` tells that write and read-back are good, `us` the time they took. -/
  | saveWriteDone (ok : Bool) (us : Nat)
  /-- HOLD_END (R493). HOLD ends in RESET after PFW_N has been high for 10 ms, or 10 ms after a fatal save. -/
  | holdEnd
  /-- AUTO_RESTART_EXPIRY (R494). With AUTO_RESTART, RESET is left 100 ms after a fatal error. -/
  | autoRestartExpiry
  /-- WATCHDOG_EXPIRY (R494). The Stride watchdog expires after 100 ms without a heartbeat, a fatal error. -/
  | watchdogExpiry
  /-- CLOCK_LOSS (R491). Loss of REFCLK for 2 µs, or of root PLL lock, is a fatal error. -/
  | clockLoss
  /-- HEALTH_SAMPLE (R495). Every 1 ms the health monitors are sampled and threshold crossings are reported. Temperatures, voltages, process monitors. -/
  | healthSample (readings : List Nat)
  /-- HEALTH_SNAPSHOT_REQUEST (R497). HLT_SNAP_CTL.GO requests a health snapshot. -/
  | healthSnapshotRequest
  /-- HEALTH_SNAPSHOT_READY (R497). The health snapshot is complete and its slot is HELD. -/
  | healthSnapshotReady
  /-- HEALTH_SNAPSHOT_RELEASE (R409). Writing the held SEQ to HLT_SNAP_REL frees the health snapshot slot. -/
  | healthSnapshotRelease (v : Word)
  /-- CLK_TK_TICK (R317). At every CLK_TK tick device time adds the increment in force, and at each 1 µs tick SRT_REL_STALL_US counts a standing refused offer. -/
  | clkTkTick
  /-- PCIE_LINK_UP (R391). The PCIe link comes up, HIF_STAT.LINK_UP sets and EV_HIF_LINK is raised. -/
  | pcieLinkUp (rate : Nat) (width : Nat)
  /-- MAIN_POWER_LOSS (R418). Main power collapses without warning, which cuts off any key WRITE in progress and leaves the device unpowered with its outputs at bias. -/
  | mainPowerLoss
  /-- MAIN_POWER_UP (R500). Main power returns; the device comes up in RESET and clears the counters that are cleared only at power-up. -/
  | mainPowerUp
  /-- VBAT_LOSS (R413). VBAT is lost, so the key slots survive only while main power stays on. -/
  | vbatLoss
  /-- KEY_CMD_COMPLETE (R416). A key store command that set BUSY finishes: the WRITE commits its bank, SET_NEXT writes the next entry, and BUSY clears. -/
  | keyCmdComplete
  /-- WIN_CMD_COMPLETE (R119). A PFA window command finishes within 4 µs and PFA_WIN_STAT.BUSY clears. -/
  | winCmdComplete
  deriving DecidableEq, Repr

end Sys2Proof
end

