-- ==== Sys2Proof/Decode.lean ====
section
/-!
DEFINITION. No row of spec/opcode_table.json has bits: the block's commands are events and accesses, not words, so no word spells one.
-/
namespace Sys2Proof

/-- The command that a word of the table's bits spells: none, for every word. -/
def decodeTableWord (_nbits _w : Nat) : Option Instr := none

end Sys2Proof
end

