-- ==== Sys2Proof/Machine/NMap.lean ====
section
/-!
DEFINITION. Sparse data by number: a list of (key, value) pairs with strictly rising keys, the one canonical form of
every table, register file and keyed store of the model.
-/
namespace Sys2Proof.Machine

variable {β : Type}

/-- A sparse map from numbers. -/
abbrev NMap (β : Type) := List (Nat × β)

/-- The value held under a key, if one is. -/
def mget (m : NMap β) (k : Nat) : Option β :=
  match m with
  | [] => none
  | (a, v) :: r => if a = k then some v else mget r k

/-- The value held under a key, or the one an unlisted key reads as. -/
def mgetD (m : NMap β) (k : Nat) (dflt : β) : β := (mget m k).getD dflt

/-- Hold `v` under `k`, in rising order of the keys. -/
def mset (m : NMap β) (k : Nat) (v : β) : NMap β :=
  match m with
  | [] => [(k, v)]
  | (a, w) :: r => if k < a then (k, v) :: (a, w) :: r
                   else if k = a then (k, v) :: r
                   else (a, w) :: mset r k v

/-- Hold nothing under `k`. -/
def mdel (m : NMap β) (k : Nat) : NMap β :=
  match m with
  | [] => []
  | (a, w) :: r => if a = k then r else (a, w) :: mdel r k

/-- Replace what is held under `k`, taking an unlisted key as `dflt`. -/
def mmod (m : NMap β) (k : Nat) (dflt : β) (f : β → β) : NMap β := mset m k (f (mgetD m k dflt))

/-- Keys strictly rise. -/
def mwf (m : NMap β) : Bool :=
  match m with
  | [] => true
  | [_] => true
  | (a, _) :: (b, w) :: r => decide (a < b) && mwf ((b, w) :: r)

/-- The values held, in rising order of the keys. -/
def mvals (m : NMap β) : List β := m.map (·.2)

/-- The keys held, rising. -/
def mkeys (m : NMap β) : List Nat := m.map (·.1)

/-- A canonical map in which a value equal to `z` is not listed: writing `z` removes the entry. -/
def zset [DecidableEq β] (z : β) (m : NMap β) (k : Nat) (v : β) : NMap β := if v = z then mdel m k else mset m k v

/-- Replace the element at a position of a list; a position beyond the end changes nothing. -/
def lset (l : List β) (i : Nat) (v : β) : List β :=
  match l, i with
  | [], _ => []
  | _ :: r, 0 => v :: r
  | a :: r, i + 1 => a :: lset r i v

/-- Put an element in front of the first one it may stand before. -/
def insBy {α : Type} (le : α → α → Bool) (x : α) : List α → List α
  | [] => [x]
  | y :: r => if le x y then x :: y :: r else y :: insBy le x r
/-- Sort; elements that may stand either way keep their order. -/
def sortBy {α : Type} (le : α → α → Bool) (l : List α) : List α := l.foldr (insBy le) []

end Sys2Proof.Machine
end

