-- ==== Sys2Proof/Machine/State.lean ====
section
/-!
DEFINITION. The state of the XG-9600 as plain data: the register file, every block's state behind its registers, the
non-volatile stores, and the queue of commands that are waiting. Registers stand by their block (the 64 KiB range of
BAR0) and offset; those not listed in `regs` read as the reset
value of their fields (Machine/RegMap.lean); everything else has a field here.
-/
namespace Sys2Proof.Machine

/-! Outputs: what the device has sent outside (the model's own record, oldest first). -/

/-- One thing sent outside the device. -/
inductive Output where
  /-- A posted write to host memory (R396, R398), and whether it carries Relaxed Ordering (R387, R402). -/
  | hostWrite (relaxed : Bool) (addr : Nat) (data : List Byte)
  /-- A read of a byte of host memory, which no posted write before it is behind when it returns (R402). -/
  | hostRead (addr : Nat)
  /-- An MSI-X vector (R397). -/
  | msix (vec : Nat)
  /-- A frame queued on an Ethernet port, without FCS (R258); `alarm` tells the alarm queue from the stream queue. -/
  | ethFrame (port : Nat) (alarm : Bool) (bytes : List Byte)
  /-- A frame or message handed to the Stride firmware (R338, R65). -/
  | toStride (bytes : List Byte)
  /-- A management-port frame handed to the Stride firmware with its firmware-taken date (R338). -/
  | toStrideMgt (date : Time) (bytes : List Byte)
  /-- TCP payload sent to a peer from a port: on a PMU connection (R69, R72) or to an output client (R253, R257). -/
  | tcpSent (client : Bool) (conn : Nat) (port : Nat) (seq : Nat) (bytes : List Byte)
  /-- An acknowledgement on a PMU connection (R71, R72): connection, port, next sequence number expected, and the time stamp it echoes where
  the peer uses the option. -/
  | tcpAck (conn : Nat) (port : Nat) (next : Nat) (echo : Option Nat)
  /-- A frame sent on a Rharix lane (R348). -/
  | rxlFrame (lane : Nat) (bytes : List Byte)
  /-- A value written to a register of the transceiver over SPI, and the divider of its clock (R469). -/
  | xcvrWrite (div : Nat) (addr : Nat) (value : Nat)
  /-- A radio transmission on a channel (R470): octets of the PHY frame. -/
  | radio (chan : Nat) (bytes : List Byte)
  /-- A level driven on a named output pin: 0 AOUT, 1 PLSO, 2 RELAY_BATON_OUT, 3 PPS_OUT, 4 SDC. -/
  | pin (kind : Nat) (index : Nat) (level : Bool)
  /-- The pin is left high-impedance (R498, R510). -/
  | pinOff (kind : Nat) (index : Nat)
  deriving DecidableEq, Repr

/-! Scorebook and race journal (spec/16). -/

/-- A Scorebook record (Table 16.1). `first` is the instant of the first occurrence. -/
structure ScbRec where
  blk : Nat
  ev : Nat
  rep : Nat
  seq : Nat
  first : Time
  lost : Bool
  restored : Bool
  lastOfs : Nat
  d0 : Nat
  d1 : Nat
  d2 : Nat
  deriving DecidableEq, Repr

/-- The Scorebook (R431 to R440). -/
structure Scb where
  /-- The SRAM buffer, oldest first (R435). -/
  buf : List ScbRec
  /-- SEQ of the next record. -/
  next : Nat
  /-- Events not recorded since the buffer was last full (R436). -/
  lost : Nat
  /-- Records of the flush in progress, counted from the front of the buffer; 0 when none is. -/
  flushing : Nat
  /-- A flush asked for while one is in progress. -/
  flushAgain : Bool
  /-- The flash region by position 0 to 1,048,575 (R431), and the position written next. -/
  flash : NMap ScbRec
  wpos : Nat
  /-- A sector that could not be erased and is passed over when its turn comes (R438). -/
  skip : Option Nat
  /-- A lookup in progress and the record it found (R440). -/
  looking : Bool
  found : Option ScbRec
  deriving DecidableEq, Repr

/-- A packet of a stream FIFO (R406). -/
structure Packet where
  more : Bool
  kind : Nat
  payload : List Byte
  deriving DecidableEq, Repr

/-- A journal entry (R442): TYPE, AUX, JSEQ, instant and payload. -/
structure JEntry where
  typ : Nat
  aux : Nat
  jseq : Nat
  inst : Time
  payload : List Byte
  deriving DecidableEq, Repr

/-- An entry's place in the DDR5 ring: its first byte, counted from the ring's first use, and its length in bytes. -/
structure JPlace where
  entry : JEntry
  start : Nat
  len : Nat
  deriving DecidableEq, Repr

/-! Host interface and DMA (spec/14). -/

/-- A submission ring's indices (Table 14.17). -/
structure SqSt where
  head : Nat
  tail : Nat
  deriving DecidableEq, Repr

/-- A completion ring's indices, its entries written since the last interrupt and the first of these (R397). -/
structure CqSt where
  head : Nat
  tail : Nat
  since : Nat
  first : Option Time
  deriving DecidableEq, Repr

/-- A descriptor being executed: its rings, its eight words, and the pieces of host memory it covers as (address, bytes). -/
structure Xfer where
  sq : Nat
  cq : Nat
  words : List Word
  list : List (Nat × Nat)
  deriving DecidableEq, Repr

/-- DMA channel states (Table 14.20). -/
inductive ChState where
  | idle | running | stopped
  deriving DecidableEq, Repr

/-- A DMA channel: its state, descriptor in progress, bytes remaining, bytes accepted, the round-robin place, an abort
that waits for the current burst (R403), and a STREAM_READ's packets copied and the last copy (R407). -/
structure Chan where
  st : ChState
  cur : Option Xfer
  left : Nat
  got : List Byte
  rr : Nat
  aborting : Bool
  copied : Nat
  lastCopy : Option Time
  deriving DecidableEq, Repr

/-- A stream FIFO (R405): committed packets, oldest first. -/
structure SFifo where
  packets : List Packet
  deriving DecidableEq, Repr

/-- Result slot states (R409). -/
inductive SlotState where
  | free | busy | held
  deriving DecidableEq, Repr

/-- A result slot (R409): its state, SEQ and data words. -/
structure Slot where
  st : SlotState
  seq : Nat
  data : List Word
  deriving DecidableEq, Repr

/-- An entry of the MSI-X table of BAR4 (R388): the message's address and data, and its mask bit. -/
structure MsixEnt where
  addr : Nat
  data : Word
  masked : Bool
  deriving DecidableEq, Repr
/-- The host interface behind its registers. -/
structure Hif where
  sq : NMap SqSt
  cq : NMap CqSt
  ch : NMap Chan
  sf : NMap SFifo
  /-- The last second in which EV_HIF_DB was raised, by ring (SQ n as n, CQ n as 64 + n). -/
  dbSec : NMap Nat
  /-- BAR4 (R388): the MSI-X table's entries that have been written, by vector. -/
  msix : NMap MsixEnt
  deriving DecidableEq, Repr

/-! Interchange energy and pulses (spec/10). -/

/-- An open interval (R307, R308): its start, the UTC second of the boundary at its end, its increase in each accumulator, the directions
(true export) before its first sample and after its last, its reversals and samples, its first reversal, the marks UNSET and PARTIAL, the interval code
and the reporting rate (0 for a pulse point) it was opened with, and its missing samples counted so far. -/
structure Interval where
  start : Time
  bound : Nat
  adds : List Nat
  dirS : Bool
  dirE : Bool
  rev : Nat
  samples : Nat
  firstRev : Option Time
  unset : Bool
  isPartial : Bool
  code : Nat
  rate : Nat
  missed : Nat
  deriving DecidableEq, Repr

/-- A metering point's totals (R298): accumulators modulo 2^64 and remainders in Table 10.2 order, the direction (true export),
the open intervals, oldest first, and the instant of the last sample or pulse. -/
structure PointSt where
  acc : List Nat
  rem : List Nat
  dir : Option Bool
  ivs : List Interval
  last : Time
  deriving DecidableEq, Repr

/-- A point as saved in HOLD (R313). -/
abbrev PointSave := PointSt

/-- A pulse output (R310): base quotient, pulses pending, and the phase of the pulse in progress with its end. -/
inductive PulsePhase where
  | idle
  | active (until_ : Time)
  | inactive (until_ : Time)
  deriving DecidableEq, Repr

structure PulseSt where
  base : Nat
  pend : Nat
  phase : PulsePhase
  deriving DecidableEq, Repr

/-- A pulse output as saved in HOLD (R313): its pending pulses. -/
abbrev PulseSave := Nat

/-- A pulse input (R303): raw level, the raw edge being debounced, and the debounced level. -/
structure PulseIn where
  raw : Bool
  edge : Option Time
  level : Bool
  deriving DecidableEq, Repr

/-- The energy unit. Interval records waiting for ring space are sixteen words each (R309). -/
structure Nrg where
  points : NMap PointSt
  inputs : NMap PulseIn
  outputs : NMap PulseSt
  /-- The interval record buffer, records dropped since the last one written, and the drop episode. -/
  buf : List (List Word)
  lostBefore : Bool
  dropEp : Bool
  ovfSec : NMap Nat
  /-- The snapshot slot (R305). -/
  slot : Slot
  deriving DecidableEq, Repr

/-! Oscillation monitor (spec/05). FP32 values are held as their bit patterns. -/

/-- One OSCDEC signal's history (R156 to R158): last included value, consecutive excluded laps, dropped mark, included laps
of the refill, filter taps (newest first), mean, and the unwrapped previous angle. -/
structure OscSig where
  last : Word
  excl : Nat
  dropped : Bool
  refill : Nat
  taps : List Word
  mean : Option Word
  vprev : Option Word
  deriving DecidableEq, Repr

/-- A decimated sample of one OSCDEC instance (R158): sample number, its monitor signals, its branch signals (P, Q, F, L of
each branch in turn), the dropped marks, UNSETTLED, and when it arrived. -/
structure OscSample where
  inst : Nat
  k : Nat
  sigs : List Word
  brs : List Word
  sigDrop : List Bool
  brDrop : List Bool
  unsettled : Bool
  arr : Time
  deriving DecidableEq, Repr

/-- A candidate mode of an extraction (R167): its shape is over the components. -/
structure Mode_ where
  freq : Word
  damp : Word
  energy : Word
  shape : List (Word × Word)
  deriving DecidableEq, Repr

/-- A track (R168, R169): status 0 free, 1 tentative, 2 established. `hist` holds, newest first, the matches of the last 8 extractions
as (sample, freq, damp). -/
structure Track where
  status : Nat
  mode : Mode_
  miss : Nat
  run : Nat
  hist : List (Option (Nat × Word × Word))
  deriving DecidableEq, Repr

/-- A FODET detection (R175, R177). -/
structure FoDet where
  bin : Nat
  freq : Word
  amp : Word
  coh : Word
  peak : Word
  dom : Nat
  near : Option Nat
  deriving DecidableEq, Repr

/-- A FODET evaluation before its commit: its sample, whether the monitor was priming, its detections, and the signals and branches dropped at
its sample with the mark UNSETTLED. -/
structure FoEval where
  k : Nat
  priming : Bool
  dets : List FoDet
  nexcl : Nat
  unset : Bool
  deriving DecidableEq, Repr

/-- A DEFLOC instance's state (R178, R179): target kind and identity, the frequency tuned to, filter states of the branch signals, previous
filtered L, the history of w per branch (newest first), and samples since the retune. -/
structure DefSt where
  kind : Nat
  ident : Nat
  tuned : Word
  filt : List (List Word)
  lprev : List Word
  w : List (List Word)
  since : Nat
  deriving DecidableEq, Repr

/-- Monitor states and stop reasons (Table 5.13). -/
inductive OsmState where
  | stopped | priming | running | stopping
  deriving DecidableEq, Repr

/-- The oscillation monitor. -/
structure Osm where
  st : OsmState
  reason : Nat
  /-- The RUN write's instant while a start is awaited (R161); the start sample, the last sample absorbed and the next one. -/
  runAt : Option Time
  startK : Nat
  lastK : Nat
  next : Nat
  /-- What OSM_SAMPLE_HI and OSM_START_HI hold since their LO registers were last read (Tables 5.15, 5.16). -/
  sampleHi : Word
  startHi : Word
  /-- The sample at which PRIMING ended (R161). -/
  primedK : Option Nat
  /-- Contributors that have ended, with their last sample (R162). -/
  ended : NMap Nat
  /-- The input buffer (R163), samples a DEFLOC task still waits for included. -/
  inbuf : List OscSample
  /-- The latest sample's dropped signals and branches. -/
  sigDrop : Nat
  brDrop : Nat
  /-- Projection (R164): W and M by column, the block's samples since the last refresh, and the refreshes done. -/
  w : List (List Word)
  m : List (List Word)
  blockX : List (List Word)
  refreshes : Nat
  /-- Component vectors (newest first), C, the weighting factors and the warm start (R166, R167). -/
  ys : List (List Word)
  cov : List (List Word)
  lf : List (List Word)
  lp : List (List Word)
  warm : List (List Word)
  tracks : List Track
  /-- The track table as it stood after each extraction still needed (R178), newest first. -/
  extracts : List (Nat × List Track)
  /-- FODET: the components' history (newest first), segment spectra (newest first, by bin), previous candidates, evaluations not yet
  committed, slots, and the slots after each evaluation still needed (newest first). -/
  foY : List (List Word)
  foSeg : List (List (List (Word × Word)))
  foPrev : List Nat
  foPend : List FoEval
  foSlots : List (Option FoDet)
  foEvals : List (Nat × List (Option FoDet))
  defs : NMap DefSt
  /-- Extractions since start (R173). -/
  shapeSeq : Nat
  /-- A journaled stop that waits for its last sample (R118): the sample and the reason. -/
  stopAt : Option (Nat × Nat)
  sigDropSec : Option Nat
  ssoSec : NMap Nat
  deriving DecidableEq, Repr


/-! Island detection (spec/06). -/

/-- A graph bank (R189): VERSION, bus entries of 8 words, branch entries of 4 words; `valid` after a load without error. -/
structure Graph where
  valid : Bool
  version : Word
  buses : List (List Word)
  branches : List (List Word)
  deriving DecidableEq, Repr

/-- An ISLIN copy (R193): the records of the lanes either graph bank references. -/
structure IslCopy where
  lap : Nat
  lapTime : Time
  lanes : List (Nat × List (List Word))
  deriving DecidableEq, Repr

/-- The state of a branch end (R195). -/
inductive EndSt where
  | closed | opened | unknown
  deriving DecidableEq, Repr

/-- A held end: its state and the runs it has been held for. -/
structure HeldEnd where
  ref : Word
  st : EndSt
  runs : Nat
  deriving DecidableEq, Repr

/-- A bus's held measurement (R197): frequency and slip of its last included pair (`hasPair`), the runs since that pair, the last
included angle (`hasTheta`) with its lap time, and the runs since that angle. -/
structure HeldBus where
  ref : Word
  f : Word
  v : Word
  hasPair : Bool
  runs : Nat
  theta : Word
  tAt : Time
  hasTheta : Bool
  aruns : Nat
  deriving DecidableEq, Repr

/-- An island ID in use: its number, its buses, their BUS_KEYs, and the reference lap it was assigned at. -/
structure IslId where
  id : Nat
  buses : List Nat
  keys : List Nat
  since : Nat
  deriving DecidableEq, Repr

/-- The state ISLDET carries from RELEASE run to RELEASE run (R200, R202). Partitions are lists of bus lists. `retired` gives
the lap since which an ID has been free. -/
structure IslSt where
  started : Bool
  accepted : List (List Nat)
  pending : Option (List (List Nat))
  ids : List IslId
  retired : NMap Nat
  ends : NMap HeldEnd
  busv : NMap HeldBus
  /-- The bank the held values refer to. -/
  bank : Nat
  deriving DecidableEq, Repr

/-- The island unit. -/
structure Isl where
  banks : List Graph
  active : Nat
  /-- The bank in ACTIVE has been swapped in at least once. -/
  live : Bool
  /-- The bank before it had been live too, for laps before the swap lap. -/
  oldLive : Bool
  /-- SWAP is pending since this instant (R207); a journaled swap applies at this lap. -/
  swapAt : Option Time
  swapLap : Option Nat
  copies : NMap IslCopy
  /-- Maps written, the two buffers (empty until a map is written), and the laps of the last map and the last swap. -/
  mapSeq : Nat
  maps : List (List Byte)
  mapLap : Nat
  graphLap : Nat
  /-- What ISL_GRAPH_LAP_HI and ISL_MAP_LAP_HI hold since their LO registers were last read (Table 6.11). -/
  graphHi : Word
  mapHi : Word
  disSec : Option Nat
  ovfSec : Option Nat
  deriving DecidableEq, Repr

/-- A state operand (R138): AREAROCOF mode 1, OSCDEC, a mark of sample K for the monitor kernels, SSODET, ISLDET. -/
inductive KState where
  | rocof (means : List (List Word))
  | osc (sigs : List OscSig) (brs : List OscSig) (unset : Nat)
  | mark (k : Nat)
  | sso (amps : List (List Word))
  | isl (st : IslSt)
  deriving DecidableEq, Repr

/-- Another operand of a task (Table 7.1): the OSCDEC, OSCMON or FODET output of sample K, an ISLIN contribution,
a partial of an anchor combine (member, version, payload words), firmware. -/
inductive KData where
  | output (inst : Nat) (k : Nat)
  | contribution (heat : Nat) (lap : Nat)
  | part (member : Nat) (version : Nat) (words : List Word)
  | firmware
  deriving DecidableEq, Repr

/-! Lanes, heats, laps and the Photo-Finish Aligner (spec/01, spec/03). -/

/-- Lap states (Table 3.1). -/
inductive LapState where
  | waiting | gathering | due | fencing | released | closed
  deriving DecidableEq, Repr

/-- PFA token kinds (Table 3.2), and the other triggers a task can have: an instance timer, an anchor's combine and firmware. -/
inductive TokKind where
  | release | amend | settle | timer | combine | firmware
  deriving DecidableEq, Repr

/-- A PFA token (Table 3.2): heat, lap, kind, AMEND_SEQ and the flags of its kind; `relEarly` is EARLY of its lap's RELEASE token, which output
blocks copy (Table 4.3). -/
structure Tok where
  heat : Nat
  lap : Nat
  kind : TokKind
  seq : Nat
  cause : Nat
  early : Bool
  complete : Bool
  final : Bool
  late : Bool
  relEarly : Bool
  deriving DecidableEq, Repr

/-- A lap that holds state (R86 to R105). Instants are device times. -/
structure Lap where
  heat : Nat
  lap : Nat
  st : LapState
  /-- Release cause (Table 3.2). -/
  cause : Nat
  /-- The lanes of the lap, counted at its opening. -/
  lanes : List Nat
  /-- The tallies of R89. -/
  arrived : Nat
  wsum : Nat
  /-- Lanes whose record has arrived, and lanes whose record is substituted. -/
  here : List Nat
  subst : List Nat
  /-- Lanes one of whose frames has reached the PFA (R108). -/
  seen : List Nat
  deadline : Time
  finish : Time
  /-- The release instant T, once the token is issued. -/
  relT : Option Time
  /-- The token was queued or held before its issue (R98), and the lap is LATE. -/
  waited : Bool
  late : Bool
  /-- A token offered and not yet issued; a token issued whose fence has not cleared, with its fence instant. -/
  offered : Option TokKind
  fencing : Option (Tok × Time)
  /-- The last token issued: its AMEND_SEQ; a FINAL token has been issued; the last delivered token's gather is done. -/
  seq : Nat
  final : Bool
  gathered : Bool
  /-- EARLY of the RELEASE token, and the store entries reserved for the token in its fence. -/
  early : Bool
  need : Nat
  /-- The finish line has passed. -/
  past : Bool
  deriving DecidableEq, Repr

/-- A record held in the staging buffer (R101, R106). `early` is set for a WAITING lap's record. -/
structure Staged where
  heat : Nat
  lap : Nat
  lane : Nat
  arr : Time
  valid : Bool
  recs : List (List Word)
  early : Bool
  deriving DecidableEq, Repr

/-- An enabled heat, or a disabled one whose laps are still open (R30 to R32). -/
structure HeatRun where
  enabled : Bool
  enableAt : Time
  /-- The first lap (R31) and the next lap to become WAITING or be opened. -/
  firstLap : Nat
  nextLap : Nat
  skipped : List Nat
  /-- The port set (R94): ports 0 to 7, and 8 for the Rharix receive path. -/
  ports : List Nat
  /-- The delay list and its reservation (R216); and reservations of earlier enables whose timers have not all expired, as (list, entries, the
  order of the first timer after them). -/
  dlist : Nat
  dresv : Nat
  oldRes : List (Nat × Nat × Nat)
  /-- The estimate and window of the last opening (R107, R109, Tables 3.9 to 3.12). -/
  eh : Nat
  win : Nat
  clampHi : Bool
  clampLo : Bool
  lateRisk : Bool
  riskLaps : Nat
  maxShort : Nat
  /-- The last second of EV_PFA_AMEND_LOST (R104). -/
  lostSec : Option Nat
  deriving DecidableEq, Repr

/-- A heat's contiguous run of entries in the shared block-map table (R117): the place of the first, and the physical blocks by virtual block (R115,
R116); `old` where it is of an earlier enable whose laps are still open (R32). -/
structure BMap where
  heat : Nat
  place : Nat
  blocks : List Nat
  old : Bool
  deriving DecidableEq, Repr

/-- A lane's held copy (R23): its lap and its records. -/
structure HeldCopy where
  lap : Nat
  recs : List (List Word)
  deriving DecidableEq, Repr

/-- The Photo-Finish Aligner. -/
structure Pfa where
  /-- Heats in run by heat ID. -/
  heats : NMap HeatRun
  /-- Laps that hold state, by heat and lap sequence number. -/
  laps : NMap Lap
  /-- Grandstand records by heat, ring position, lane and record (R19, R86): 32 words each. -/
  gs : NMap (List Word)
  /-- Held copies by lane (R23). -/
  heldCopy : NMap HeldCopy
  stage : List Staged
  /-- The pending-release queue, the held tokens in the order offered, and the EV_PFA_PENDQ_FULL episode. -/
  pendq : List (Nat × Nat × TokKind)
  heldq : List (Nat × Nat × TokKind)
  fullEp : Bool
  /-- Latency estimates q by lane, in 2^-10 us, and lanes with an observation (R108). -/
  q : NMap Nat
  obs : List Nat
  /-- The last second of EV_PFA_STAGE_FULL. -/
  stageSec : Option Nat
  /-- The block-map table of 16,384 entries, by rising place of the heats' runs (R117). -/
  bmap : List BMap
  /-- Physical blocks in use, and those withdrawn with a failed bank group (R113, R461). -/
  usedBlocks : List Nat
  /-- A window command is in progress (R110). -/
  busy : Bool
  deriving DecidableEq, Repr

/-! Starter and Pacer engines (spec/04, spec/07). -/

/-- Timer kinds of the delay lists (R216): deadline, finish line, instance timer with its OFFSET_US. -/
inductive TimerKind where
  | deadline | finish
  | inst (offsetUs : Nat)
  deriving DecidableEq, Repr

/-- A timer: its delay list, its expiry in whole microseconds, its lap and its insertion order. `held` marks an instance
timer whose token waits for a store entry (R217). -/
structure Timer where
  list : Nat
  us : Nat
  kind : TimerKind
  heat : Nat
  lap : Nat
  order : Nat
  held : Bool
  deriving DecidableEq, Repr

/-- A matching-store entry (R212): its key, trigger, state operand, other operands, when it became ready, and a pin overridden already for its task
(R222). The self-test of engine e, a firmware task, has 4,096 + e for its instance. -/
structure Entry where
  inst : Nat
  lap : Nat
  seq : Nat
  trig : Option Tok
  /-- The scheduled instant of an instance timer (R217). -/
  tAt : Time
  hist : Option KState
  /-- Other operands: samples, outputs, contributions or partials, as the kernel's description names them. -/
  data : List KData
  ready : Option Time
  pinOver : Bool
  deriving DecidableEq, Repr

/-- An output block (Table 4.3): header fields and FP32 values. -/
structure Block where
  inst : Nat
  heat : Nat
  lap : Nat
  seq : Nat
  early : Bool
  complete : Bool
  final : Bool
  late : Bool
  unsettled : Bool
  fault : Bool
  nexcl : Nat
  vals : List Word
  deriving DecidableEq, Repr

/-- The phases of a task (R124, R224): a finished task may wait for a lower AMEND_SEQ of its instance and lap, or be held at its commit. -/
inductive Phase where
  | queued | gather | compute | commitWait | commitHeld
  deriving DecidableEq, Repr

/-- A task that has left the matching store, or waits in a ready queue: its entry, level, engine, gathered records by lane (R130), and the
marks of a failed retry (R131), of a retry and of a return (R129, R132), the engine it failed on, and a pin overridden already (R222). -/
structure Task where
  e : Entry
  prio : Nat
  phase : Phase
  eng : Nat
  gathered : Option (List (Nat × List (List Word)))
  fault : Bool
  retry : Bool
  returned : Bool
  failedEng : Nat
  overridden : Bool
  deriving DecidableEq, Repr

/-- A producer held for want of a store entry (Table 7.3). -/
inductive HeldProd where
  /-- An engine commit that would create an entry, or whose PARTIAL finds its send buffer full (R350). -/
  | commit (inst : Nat) (lap : Nat) (seq : Nat)
  /-- The class-1 frames of a link (R215, R350). -/
  | partialIn (link : Nat)
  /-- A combine that is due (R363). -/
  | combineIn (inst : Nat) (lap : Nat)
  /-- A firmware submission that waits in its Stride core: the number of its task. -/
  | stride (inst : Nat)
  /-- A decimated sample that was in the input buffer when the monitor started, which the firmware submits (R161, R163). -/
  | sample (inst : Nat) (k : Nat)
  deriving DecidableEq, Repr

/-- The Starter. -/
structure Srt where
  store : List Entry
  /-- Store entries reserved by granted tokens not yet delivered (R213). -/
  reserved : Nat
  /-- Ready queues by level (R219). -/
  queues : NMap (List Task)
  /-- Tasks held by engines (R221). -/
  flight : List Task
  timers : List Timer
  order : Nat
  /-- Timers expired in the present 1 us tick (R217). -/
  spent : Nat
  /-- An offer stands refused; the EV_SRT_REL_BLOCK and EV_SRT_STORE_FULL episodes (R226, R227). -/
  refused : Bool
  fullEp : Bool
  held : List HeldProd
  /-- Administrative states that differ from Table 7.5's reset, and the last STATE of each unit, by TYPE * 4096 + INDEX. -/
  admin : NMap Bool
  ustate : NMap Nat
  pinSec : NMap Nat
  slipSec : Option Nat
  /-- Home clusters fixed at the load of each instance (R222). -/
  home : NMap Nat
  deriving DecidableEq, Repr

/-- An engine's record (R129, R132). -/
structure Eng where
  mism : List Time
  quar : Bool
  lastSec : Nat
  suspect : Bool
  deriving DecidableEq, Repr

/-- The Pacer engines. -/
structure Pac where
  eng : NMap Eng
  /-- The engine whose self-test runs (R133). -/
  testing : Option Nat
  /-- The 2 MiB output store (R139) by 32-bit word; what no block has been written to reads 0 (log entry 79). -/
  outStore : NMap Word
  /-- The latest block of each instance, and of each instance and lap (R137). -/
  latest : NMap Block
  lapBlocks : NMap Block
  /-- State operands taken by the RELEASE runs, by instance and lap (R138), for the AMEND runs of the same lap. -/
  incoming : NMap KState
  /-- Re-issues that wait for a commit (R137): instance, heat, lap, LATE. -/
  reissue : List (Nat × Nat × Nat × Bool)
  gapSec : NMap Nat
  deriving DecidableEq, Repr

/-! Ingress (spec/02). -/

/-- A frame in a port FIFO (R53): its bytes without FCS, its arrival time and its received length L. -/
structure RxFrame where
  bytes : List Byte
  arr : Time
  len : Nat
  deriving DecidableEq, Repr

/-- A port's receive state: the FIFO, the last entry's arrival (R45), the overflow episode (R54), the 48-bit octet count and
its latch (R81). -/
structure PortRx where
  fifo : List RxFrame
  lastIn : Option Time
  ovfEp : Bool
  octets : Nat
  octLatch : Word
  deriving DecidableEq, Repr

/-- A PRP source of a pair's duplicate table (R51): MAC, and the (sequence number, arrival) pairs held. Sources stand in the order last seen. -/
structure PrpSrc where
  mac : Nat
  seen : List (Nat × Time)
  deriving DecidableEq, Repr

/-- An accepted R-GOOSE message (R73, R76): its position in its PDU, numbers, arrival, timeAllowedToLive, the octets of its data set and
whether its PDU passed authentication. -/
structure RGoose where
  pos : Nat
  stNum : Nat
  sqNum : Nat
  arr : Time
  ttlMs : Nat
  data : List Byte
  auth : Bool
  deriving DecidableEq, Repr

/-- A stream's run state: stale (R68), last SPDU number (R75), R-GOOSE messages accepted (newest first), last smpCnt, reassembly of CFG-3 (R65), and
the last seconds of EV_ING_AUTH and of a configuration request (R69). -/
structure StreamSt where
  stale : Bool
  spdu : Option Nat
  goose : List RGoose
  smpCnt : Option Nat
  reasm : List Byte
  reasmNext : Nat
  authSec : Option Nat
  askSec : Option Nat
  deriving DecidableEq, Repr

/-- A PMU TCP connection (R69, R71): state, the next expected sequence number, out-of-order bytes as (sequence number, bytes), the bytes of an
incomplete frame, the back-off delay in seconds and when it ends, the octets sent on it, the peer's time stamp to echo, once it has sent one,
and the local port it was opened from (R72). -/
structure TcpRx where
  isOpen : Bool
  next : Nat
  ooo : List (Nat × List Byte)
  partialFrame : List Byte
  delay : Nat
  retryAt : Option Time
  sent : Nat
  tsRecent : Option Nat
  local_ : Nat
  deriving DecidableEq, Repr

/-- A PTP message on its way to the Timekeeper: its port, its transport (0 Ethernet, 1 IPv4, 2 IPv6) and its octets. -/
structure PtpRx where
  port : Nat
  transport : Nat
  msg : List Byte
  deriving DecidableEq, Repr

/-- A sample of a sample store ring (R79, R271): its instant, smpCnt, values, invalid-channel mask and smpSynch 0. -/
structure Sample where
  tAt : Time
  cnt : Nat
  vals : List Word
  bad : Nat
  unsync : Bool
  arr : Time
  deriving DecidableEq, Repr

/-- Ingress. -/
structure Ing where
  ports : NMap PortRx
  /-- PRP duplicate tables by pair (R51). -/
  prp : NMap (List PrpSrc)
  /-- The port the parser looks at next (R55). -/
  rr : Nat
  streams : NMap StreamSt
  conns : NMap TcpRx
  /-- Segments handed to the TCP receiver, PTP messages to the Timekeeper, and Rharix datagrams, oldest first. -/
  tcpq : List (Nat × RxFrame)
  ptpq : List PtpRx
  rxlq : List (Nat × RxFrame)
  /-- Sample rings by stream (R79). -/
  rings : NMap (List Sample)
  /-- The last lap written of each R-GOOSE lane (R76). -/
  gooseLap : NMap Nat
  deriving DecidableEq, Repr
/-! Hurdles, alarms and egress (spec/08). -/

/-- A chain (R237). -/
structure Chain where
  active : Bool
  on : Nat
  off : Nat
  deriving DecidableEq, Repr

/-- A hurdle's run state (R236 to R244): its chains, the next lap of the cadence each evaluates, the blocks that wait for it
(R238), whether the window has been firm so far, the laps of unanswered PROVISIONAL raises and of every raise, CONF and the lap
that last changed it, and the thresholds commanded, newest first, as (first lap, THR_A, HYS_A, THR_B). -/
structure HurSt where
  p : Chain
  c : Chain
  provNext : Option Nat
  confNext : Option Nat
  pendP : List Block
  pendC : List Block
  firm : Bool
  prov : List Nat
  raised : List Nat
  conf : Bool
  confLap : Option Nat
  thr : List (Nat × Word × Word × Word)
  deriving DecidableEq, Repr

/-- A hardwired output behind FORCE (R247): active, cleared by the host since it became active, and the end of its minimum
active time; and the level last shown in ALM_AOUT. -/
structure AoutSt where
  act : Bool
  cleared : Bool
  minUntil : Time
  level : Bool
  deriving DecidableEq, Repr

/-- The hurdle unit. Alarm records that wait for ring space are sixteen words each (R246). -/
structure Alm where
  hur : NMap HurSt
  recSeq : Nat
  buf : List (List Word)
  lost : Nat
  lossEp : Bool
  aout : NMap AoutSt
  deriving DecidableEq, Repr

/-- A frame in a transmit queue (R258): its octets without FCS; the identifier of a time-stamp request (R329); the one-step
completion it asks for (R328: 1 Sync, 2 Pdelay_Resp received at `rx`) and where the PTP message starts; the client connection
whose segment it is; the publication it is built from at the start of transmission (R251). -/
structure TxItem where
  bytes : List Byte
  ident : Option Nat
  fix : Nat
  fixAt : Nat
  rx : Time
  seg : Option Nat
  goose : Option Nat
  deriving DecidableEq, Repr

/-- A port's transmitter: the frame in transmission and its queue (true alarm), and the two queues. -/
structure PortTx where
  cur : Option (TxItem × Bool)
  alarm : List TxItem
  stream : List TxItem
  deriving DecidableEq, Repr

/-- A GOOSE publication's run state (R251, R252): numbers, state member values and the time of their last change, the next transmission and its interval in ms, the SPDU number, and
when its numbers were last journaled. -/
structure GooseSt where
  stNum : Nat
  sqNum : Nat
  vals : List Nat
  tAt : Time
  nextAt : Option Time
  interval : Nat
  spdu : Nat
  jAt : Time
  deriving DecidableEq, Repr

/-- An output client's TCP connection (R256, R257): peer, device port, MSS, the entry it is bound to, the next sequence number to
send, the oldest unacknowledged one, duplicate acknowledgements, sent segments not yet acknowledged, segments not yet sent,
whether one waits in the stream queue, whether the oldest unacknowledged one is to be sent again, and the last transmission. -/
structure EgrConn where
  peer : List Byte
  peerPort : Nat
  port : Nat
  mss : Nat
  rcvNxt : Nat
  client : Option Nat
  sndNxt : Nat
  una : Nat
  dup : Nat
  sent : List (Nat × List Byte)
  unsent : List (List Byte)
  queued : Bool
  again : Bool
  lastTx : Time
  deriving DecidableEq, Repr

/-- An output client (R255, R256): transmitting, the next configuration frame, the last change of its configuration, the second of
the last EV_EGR_C37_DROP, and IP identifications used. -/
structure ClientSt where
  on : Bool
  cfgAt : Option Time
  changed : Option Time
  dropSec : Option Nat
  deriving DecidableEq, Repr

/-- Egress. -/
structure Egr where
  tx : NMap PortTx
  goose : NMap GooseSt
  conns : NMap EgrConn
  clients : NMap ClientSt
  ipId : Nat
  deriving DecidableEq, Repr

/-! Local inputs, filter chains and capture (spec/09). -/

/-- A sinc3 sample (R266): its value, taken from a bit of a faulted channel, and beyond 0.95. -/
structure SincS where
  val : Word
  bad : Bool
  ovr : Bool
  deriving DecidableEq, Repr

/-- A channel's chain behind LMF_CH_CTL and LMF_CH_STAT. The input: its present level, the edges it has held it, the edges since a run of
4,096, and faulted by R265. The chain: the last 190 modulator bits (newest first) with the marks of those taken while faulted, the last
sinc3 samples (newest first); a start, a stop and a switch that wait for their strobe (response, instant of the write), a queued
request; the fade's old response with its outputs so far on each path; outputs still UNSETTLED on each path; D of the last capture
output in ps. -/
structure LmfChan where
  level : Bool
  run : Nat
  good : Nat
  stuck : Bool
  bits : List (Bool × Bool)
  hist : List SincS
  start : Option (Nat × Time)
  stop : Bool
  switch : Option (Nat × Time)
  queued : Option Nat
  fade : Option (Nat × Nat × Nat)
  unsetPh : Nat
  unsetCap : Nat
  lastD : Option Nat
  ovrSec : Option Nat
  deriving DecidableEq, Repr

/-- The filter chains: capture strobes since the last phasor strobe, and the channels. -/
structure Lmf where
  phase : Nat
  chans : NMap LmfChan
  deriving DecidableEq, Repr

/-- A capture sample of a capture channel: its capture tag, value, marks, and a gap in the source before it. -/
structure CapS where
  tAt : Time
  val : Word
  unset : Bool
  inv : Bool
  gap : Bool
  deriving DecidableEq, Repr

/-- Group states (R284). -/
inductive GrpState where
  | idle | armed | triggered | stopping | full
  deriving DecidableEq, Repr

/-- A block written to a slot (Table 9.10): first and last capture tag. -/
structure CapBlock where
  first : Time
  last : Time
  deriving DecidableEq, Repr

/-- A capture group: state, slot, slots DONE; when it left IDLE; the block position written next and the blocks of the ring or record, oldest
first; the samples of each channel's block (newest first), by group channel index; the record's first trigger, start, end, CAUSE,
retriggers, header flags and the last second of EV_ACQ_TRIG_LOST. -/
structure CapGrp where
  st : GrpState
  slot : Nat
  done : List Nat
  since : Time
  wpos : Nat
  blocks : List CapBlock
  cur : NMap (List CapS)
  trigAt : Time
  start : Time
  stop : Time
  cause : Nat
  retrig : Nat
  short : Bool
  cont : Bool
  maskStop : Bool
  lostSec : Option Nat
  deriving DecidableEq, Repr

/-- The capture unit: groups; each capture channel's samples, newest first; persistence counts of triggers and masks; the last instant of
each evaluation grid (50 Hz, 60 Hz) evaluated; records completed; and bytes written in the last millisecond. -/
structure Acq where
  grps : NMap CapGrp
  hist : NMap (List CapS)
  trig : NMap Nat
  mask : NMap Nat
  evalAt : NMap Nat
  seq : Nat
  wrote : List (Time × Nat)
  deriving DecidableEq, Repr
/-! Timekeeper (spec/11). -/

/-- The contents of an Announce message that the best master clock algorithm uses (R325). `sender` is the port identity of its
sender, `rxAt` the tick of its reception, `inacc` the total time inaccuracy of a C37.238 profile TLV, in ns. -/
structure Announce where
  sender : Nat
  prio1 : Nat
  cls : Nat
  acc : Nat
  var : Nat
  prio2 : Nat
  gm : Nat
  steps : Nat
  utcOfs : Int
  utcValid : Bool
  leap : Nat
  timeSrc : Nat
  inacc : Option Nat
  rxAt : Nat
  deriving DecidableEq, Repr

/-- A foreign master: its latest Announce and the one before it. -/
structure Foreign where
  ann : Announce
  prevAt : Option Nat
  deriving DecidableEq, Repr

/-- A transmit time-stamp queue entry (R329). -/
structure TxStamp where
  ident : Nat
  stamp : Time
  deriving DecidableEq, Repr

/-- A port's PTP unit. Stamps are device times; corrections and delays are in 2^-32 ns. `syncRx` is a two-step Sync that waits for
its Follow_Up: sequence, receive stamp, correction. `dreq` and `preq` hold the request in progress: sequence and transmit stamp;
`presp` a Pdelay_Resp that waits for its follow-up: sequence, t4, t2, correction. `pend` are frames sent two-step, by identifier:
message kind, sequence, requester, receive stamp and the request's correction. -/
structure PtpPort where
  foreign : List Foreign
  syncRx : Option (Nat × Time × Int)
  lastSync : Option (Time × Int × Time)
  delay : Option Int
  dreq : Option (Nat × Option Time)
  preq : Option (Nat × Option Time)
  presp : Option (Nat × Time × Time × Int)
  seqSync : Nat
  seqAnn : Nat
  seqReq : Nat
  ident : Nat
  pend : NMap (Nat × Nat × Nat × Time × Int)
  txq : List TxStamp
  latchNs : Word
  latchSec : Word
  ovfSec : Option Nat
  deriving DecidableEq, Repr

/-- A time source (Table 11.1): the tick since which it is valid, whether it has qualified, consecutive misses, and its last
second or edge. -/
structure TkSrc where
  since : Option Nat
  qual : Bool
  miss : Nat
  last : Option Nat
  deriving DecidableEq, Repr

/-- The Timekeeper behind its registers. Ticks count CLK_TK cycles since RESET was left, so elapsed times do not move when device
time steps. -/
structure Tk where
  now : Time
  ticks : Nat
  /-- The increment in force, in 2^-32 ns, the integer last written to TK_INC_INT, and the last manual increment (R320). -/
  inc : Nat
  intW : Nat
  manual : Nat
  /-- The held frequency of R323, and the increments of the last 60 s as (first tick, increment), newest first (R322). -/
  held : Nat
  incLog : List (Nat × Nat)
  /-- A step to apply at the next tick, and its cause (R323, R324). -/
  step : Option (Int × Nat)
  /-- The sources by TK_CTL code. -/
  srcs : NMap TkSrc
  /-- ACQUIRING was entered from FREERUN. -/
  fromFree : Bool
  /-- The latest offset, and the tick since which it has stayed within LOCK_NS. -/
  ofs : Int
  inLimit : Option Nat
  /-- The tick at which LOCKED was last left, the tick of the loss and E then, in 2^-32 ns (R333, R335, R336). -/
  leftAt : Option Nat
  lossAt : Nat
  lossE : Option Nat
  /-- The source last followed, for timeSource (R326). -/
  followed : Nat
  /-- UTC (R331): what the PTP source last gave, the IRIG-B leap, and the end of the UTC day a pending leap applies to; a leap
  already applied is not taken from a source again until that source has withdrawn it. -/
  ptpUtc : Option (Int × Nat)
  irigLeap : Nat
  leapDay : Option Nat
  leapTaken : Bool
  /-- The last leap applied: the UTC second after it, the offset before it, and whether it was an insertion. -/
  lastLeap : Option (Nat × Int × Bool)
  /-- The host has written TK_UTC (R337). -/
  utcHost : Bool
  ports : NMap PtpPort
  /-- The port whose foreign master is the parent. -/
  parent : Option (Nat × Announce)
  irigTq : Nat
  ppsOut : Bool
  /-- The other words latched by a read of TK_NOW_NS (R319). -/
  latch : List Word
  deriving DecidableEq, Repr


/-! Rharix Link (spec/12). -/

/-- A frame apart from what each hop adds (R345, R352): type, HOPS, SRC_DEV, DST_DEV and payload. -/
structure RxlMsg where
  typ : Nat
  hops : Nat
  src : Nat
  dst : Nat
  payload : List Byte
  deriving DecidableEq, Repr

/-- A frame in a send buffer: its sequence number, the times it has been sent and the instant of the last one (R350). -/
structure RxlSent where
  seq : Nat
  msg : RxlMsg
  times : Nat
  last : Time
  deriving DecidableEq, Repr

/-- One sequence class of a link (R349, R350): NEXT and the accepted frames held in the window with their acceptance instants; the next
number to send and the send buffer; an accepted frame not yet acknowledged since this instant. -/
structure RxlClass where
  next : Nat
  win : NMap (RxlMsg × Time)
  send : Nat
  buf : List RxlSent
  owed : Option Time
  deriving DecidableEq, Repr

/-- A link (R344, R351, R353): its observed usability, this end's epoch and the epoch expected from the other end, the classes, the
instant of the last link CADENCE received and the mode it reported, consecutive ones on time, a frame that exceeded RETX_MAX, the link in
use, and the last CADENCE sent. -/
structure LinkSt where
  usable : Bool
  epoch : Nat
  rxEpoch : Nat
  c0 : RxlClass
  c1 : RxlClass
  cadAt : Option Time
  mode : Nat
  onTime : Nat
  failed : Bool
  up : Bool
  cadTx : Time
  deriving DecidableEq, Repr

/-- A peer (R351, R355): lost, the instant of its last CADENCE and its INTERVAL_MS, consecutive ones on time, its CREDITS and its
mode, and the last end-to-end CADENCE sent to it. -/
structure PeerSt where
  lost : Bool
  cadAt : Option Time
  interval : Nat
  onTime : Nat
  credits : Nat
  mode : Nat
  cadTx : Time
  deriving DecidableEq, Repr

/-- A lane of a spanning heat on this member (R356): the laps it is held for, as (first, last where known), oldest first; the instant it was
accepted by a pass, where it was; the device it was last passed to; and the device this one takes for the holder (R359). -/
structure HoldSt where
  ranges : List (Nat × Option Nat)
  since : Option Time
  passed : Option Nat
  view : Option Nat
  deriving DecidableEq, Repr

/-- A partial on its way to an anchor (R363): heat, instance, lap, member position, version, flags, the fragments present and their
number. -/
structure Part where
  heat : Nat
  inst : Nat
  lap : Nat
  member : Nat
  version : Nat
  flags : Nat
  nfrag : Nat
  frags : NMap (List Byte)
  deriving DecidableEq, Repr

/-- The combines of an instance and lap at the anchor (R363): the AMEND_SEQ of the next one, the versions used by the last, whether its
gather is still to end, and whether the finish line asks for one. -/
structure CombSt where
  seq : Nat
  used : NMap Nat
  busy : Bool
  due : Bool
  deriving DecidableEq, Repr

/-- The Rharix unit. `hold` is by lane, `comb` by instance and lap, `onAlt` the heats whose partials go to the alternate anchor; `passAcc` counts a
heat's passes not yet reported, with the first lap of the first of them. -/
structure Rxl where
  links : NMap LinkSt
  peers : NMap PeerSt
  hold : NMap HoldSt
  parts : List Part
  comb : NMap CombSt
  onAlt : List Nat
  passSec : NMap Nat
  passAcc : NMap (Nat × Nat)
  pinSec : Option Nat
  deriving DecidableEq, Repr

/-! Relay pair (spec/13). -/

/-- The relay pair behind its registers: the level of RELAY_BATON_OUT, the holder toggles, why it stopped, the tick of
the drivers' enabling and of the last edge seen, EV_RLY_NO_TAKE raised, a handover acted on; on a primary, the bytes of an entry not yet
handed to the relay lane and a checkpoint's transfer under way (log entry 94); on a follower, the entry being received (JSEQ, length,
bytes), entries received and not yet applied, a checkpoint's entries and its own digest at the checkpoint's start, and the last journaled
lap. The baton's times are counted in ticks, which no step of device time moves (R376, R378). -/
structure Rly where
  level : Bool
  toggling : Bool
  cause : Nat
  driveAt : Option Nat
  lastIn : Option Nat
  noTake : Bool
  handover : Bool
  inEntry : Option (Nat × Nat × List Byte)
  queue : List JEntry
  ckpt : List JEntry
  ownDig : Word
  lastLap : Nat
  lastFwd : Option Nat
  paced : Bool
  deriving DecidableEq, Repr
/-! Eoquel key store (spec/15). Keys are 32 bytes. -/

/-- A bank of a root slot (R413). -/
structure Bank where
  gen : Nat
  mask : Nat
  key : List Byte
  commit : Word
  deriving DecidableEq, Repr

/-- A root slot: banks A and B. -/
structure RootSlot where
  a : Bank
  b : Bank
  deriving DecidableEq, Repr

/-- A key group entry: its path (root, labels), KID and working key (R421). -/
structure KeyEntry where
  root : Nat
  labels : List Word
  kid : Word
  key : List Byte
  deriving DecidableEq, Repr

/-- A key group. -/
structure KeyGroup where
  cur : Option KeyEntry
  next : Option KeyEntry
  deriving DecidableEq, Repr

/-- A command in progress: a WRITE into a bank of a slot (true for B), or a SET_NEXT with the entry derived. -/
inductive KeyOp where
  | write (slot : Nat) (bankB : Bool)
  | setNext (group : Nat) (e : KeyEntry)
  deriving DecidableEq, Repr

/-- The key store. -/
structure Key where
  /-- Root slots and the TAMPERED bit, on VBAT, and VBAT's presence (R413, R427). -/
  slots : NMap RootSlot
  tampered : Bool
  /-- A zeroisation still to be reported, at the next WARMUP, and whether main power was present at it (R427). -/
  tamperOff : Option Nat
  vbat : Bool
  groups : NMap KeyGroup
  /-- Boot digests of 32 bytes (R419). -/
  bd : NMap (List Byte)
  /-- The privilege token, once set, and the tick at which the window opened (R415). -/
  token : Option Nat
  openedAt : Option Nat
  fails : Nat
  op : Option KeyOp
  /-- The attestation slot and the response being computed (R426). -/
  slot : Slot
  attPending : List Word
  nokeySec : NMap Nat
  deriving DecidableEq, Repr


/-! Memory integrity (spec/17). -/

/-- A codeword that is not clean (R456, R457, R464): 1 one bit flipped, 2 uncorrectable; `quiet` after an injection with NOCOUNT. -/
structure BadWord where
  kind : Nat
  quiet : Bool
  deriving DecidableEq, Repr

/-- An entry of a merge buffer (R457): its array, bank and 64-bit word, the bytes written as a mask, and the tick at which it opened. -/
structure MergeEnt where
  arr : Nat
  bank : Nat
  word : Nat
  mask : Nat
  since : Nat
  deriving DecidableEq, Repr

/-- Memory integrity. `bad` holds the words that are not clean, by array and place; `errs` the uncorrectable errors of each bank group
with their instants (R461); `counts` the CE and UE counts of each array; `lapUes` those of a follower's lap state (R373), uncapped; `ceSec` the second of the last EV_MEM_CE of each array; `merge`
the merge buffers' entries, oldest first; `sweepAt` the tick at which the scrubber's period began, and `sweepPos` where its sweep stands in each array
(R463). -/
structure Mem where
  bad : NMap BadWord
  errs : NMap (List Time)
  counts : NMap (Nat × Nat)
  lapUes : Nat
  ceSec : NMap Nat
  merge : List MergeEnt
  sweepAt : Nat
  sweepPos : NMap Nat
  deriving DecidableEq, Repr
/-! Cross-Country (spec/18). -/

/-- Sensor states as XCR_SENS_STAT codes them. -/
inductive XState where
  | disabled | synced | lost
  deriving DecidableEq, Repr

/-- A sensor (R475, R480): its state, the last frame accepted (its instant and SEQ), missed check-ins, and the instant the present check-in
period began. -/
structure XSensor where
  st : XState
  lastAt : Option Time
  lastSeq : Option Nat
  missed : Nat
  missAt : Time
  deriving DecidableEq, Repr

/-- Where the host's request stands: a listen instant (wake number, instant) of a sensor; the listen instants left of a broadcast, as phases of
one wake number; a wake sequence; the data frame behind a wake sequence that has gone out; an acknowledgement waited for until an instant. -/
inductive XPhase where
  | listen (n : Nat) (tL : Time)
  | cast (n : Nat) (left : List Nat)
  | wake
  | data
  | ack (until_ : Time)
  deriving DecidableEq, Repr

/-- The request in progress (R474 to R479). -/
structure XReq where
  typ : Nat
  ackReq : Bool
  dst : Nat
  seq : Nat
  payload : List Byte
  retries : Nat
  phase : XPhase
  deferred : Bool
  deriving DecidableEq, Repr

/-- An ACK to send (R478): sensor, SEQ, instant, and a deferral. -/
structure XAck where
  dst : Nat
  seq : Nat
  due : Time
  deferred : Bool
  deriving DecidableEq, Repr

/-- The radio's MAC: sensors, each channel's transmissions as (instant, airtime), the next SEQ, the latest beacon interval that is over, the
channel of the latest beacon, the channel that the transceiver has been set to, a deferred beacon, ACKs, the request in progress, the receive queue, its
overflow episode, and the last second of EV_XCR_DWELL by channel. -/
structure Xcr where
  sens : NMap XSensor
  air : NMap (List (Time × Time))
  seq : Nat
  bcn : Option Nat
  chan : Nat
  tuned : Option Nat
  bcnDue : Option Nat
  acks : List XAck
  req : Option XReq
  rxq : List (List Word)
  ovfEp : Bool
  dwellSec : NMap Nat
  deriving DecidableEq, Repr


/-! Modes, power, health (spec/19). -/

/-- The six modes (Table 19.1). -/
inductive Mode where
  | reset | warmup | race | follow | rerun | hold
  deriving DecidableEq, Repr

/-- The commit word of a save image: the CRC-32 of everything before it, 0 once the save has been taken, or another value (log entry 100). -/
inductive SaveCommit where
  | crc | zero | other
  deriving DecidableEq, Repr
/-- A save image in the save area (R492): the header's magic, generation, cause, entry time and length; the energy state and the pulse outputs; the
Scorebook records; and the commit word, written last. -/
structure SaveImage where
  magic : Word
  gen : Nat
  fatal : Bool
  entry : Time
  length : Nat
  points : NMap PointSave
  pulses : NMap PulseSave
  records : List ScbRec
  commit : SaveCommit
  deriving DecidableEq, Repr
def saveMagic : Word := 0x58565331#32
def saveLength : Nat := 168452
/-- The save is complete and its check passes. -/
def SaveImage.good (s : SaveImage) : Bool := decide (s.magic = saveMagic ∧ s.length = saveLength ∧ s.commit = .crc)

/-- Modes, power and health state behind the PWR and HLT registers. -/
structure Pwr where
  /-- The mode (R486). -/
  mode : Mode
  /-- Main power is present (R498). -/
  powered : Bool
  /-- The levels of RESET_N and PFW_N. -/
  resetN : Bool
  pfw : Bool
  /-- Warm-up complete (R490). -/
  wuDone : Bool
  /-- GO has been acted on and the watch of R378 runs since this tick. -/
  watchAt : Option Nat
  /-- HOLD: entry instant; a fatal error is its cause; the save has ended. -/
  holdAt : Option Time
  holdFatal : Bool
  saveEnded : Option Time
  /-- RESET is left by itself at this instant (R494). -/
  restartAt : Option Time
  /-- The save area (non-volatile, R492). -/
  save : Option SaveImage
  /-- Energy state of a restored save, waiting for RACE entry (R313). -/
  waiting : Option SaveImage
  /-- Health readings and the "reported outside" marks by monitor (R495), numbered TYPE * 256 + INDEX. -/
  reading : NMap Nat
  outside : NMap Bool
  /-- The health snapshot slot (R497). -/
  slot : Slot
  deriving DecidableEq, Repr

/-! The device and the machine's state. -/

/-- What a checkpoint holds (R447). -/
structure Snap where
  regs : NMap (NMap Word)
  tables : NMap (List Word)
  pfa : Pfa
  srt : Srt
  pac : Pac
  osm : Osm
  osmKept : Bool
  osmMem : List Host.Cell
  isl : Isl
  alm : Alm
  goose : NMap GooseSt
  nrg : Nrg
  streams : NMap StreamSt
  rings : NMap (List Sample)
  gooseLap : NMap Nat
  parts : List Part
  comb : NMap CombSt
  hold : NMap HoldSt
  onAlt : List Nat
  /-- The Timekeeper, and E at the start line (R333): UTC, SYNC and TQ of results follow from them. -/
  tk : Tk
  e : Option Nat
  deriving DecidableEq, Repr

/-- The race journal (R441 to R451): the next JSEQ, the entries the ring holds and its write position, the first entry not drained and how many of
its packets have been drained, a loss episode and what the next GAP packet names; a checkpoint asked for and the tick of a microsecond it is due at, the second of the last
start line, the open checkpoint (JSEQ of its START and what it holds), and the checkpoints written with their STATE bytes; a Rerun's time,
its next JSEQ, whether its checkpoint is loaded, a later checkpoint's entries, words of an
incomplete input packet, packets of an incomplete chain and complete entries that wait. -/
structure Jnl where
  next : Nat
  places : List JPlace
  wptr : Nat
  drained : Nat
  drainAt : Nat
  lostEp : Bool
  gap : Option (Nat × Nat)
  ckptAsk : Option Time
  lineAt : Option Nat
  ckpt : Option (Nat × Snap)
  snaps : List (List Byte × Snap)
  rrNow : Time
  rrNext : Nat
  rrLoaded : Bool
  rrCkpt : List JEntry
  inWords : List Word
  inChain : List Packet
  inQueue : List JEntry
  deriving DecidableEq, Repr

/-- The whole device. -/
structure Device where
  regs : NMap (NMap Word)
  tables : NMap (List Word)
  ddr : List Host.Cell
  tk : Tk
  pwr : Pwr
  scb : Scb
  jnl : Jnl
  hif : Hif
  /-- The pending-bit array of MSI-X (R388): vectors raised while their entry was masked. -/
  pba : NMap Bool
  ing : Ing
  pfa : Pfa
  srt : Srt
  pac : Pac
  osm : Osm
  isl : Isl
  alm : Alm
  egr : Egr
  lmf : Lmf
  acq : Acq
  nrg : Nrg
  rxl : Rxl
  rly : Rly
  key : Key
  mem : Mem
  xcr : Xcr
  out : List Output
  lastRead : Word
  /-- The upper word of the last 64-bit read (R389). -/
  readHi : Word
  /-- Words and bursts that the command in progress has met, by array and place: 0 partly written, 1 written whole, 2 read. Noted only while an
  injection is armed or a word is marked, and empty between commands (R456, R464). -/
  noted : List (Nat × Nat)
  free : Nat
  deriving DecidableEq, Repr


/-! The device right after it has left RESET: mode WARMUP (PWR_STAT.MODE reads 1). Registers not listed read their Reset column; the health
thresholds of the voltage and process monitors have a reset value of their own (R495). Where the spec gives no value, see the assumption log. -/

/-- The Timekeeper on leaving RESET (R318). -/
def tkInit : Tk :=
  { now := 0, ticks := 0, inc := 33554432000, intW := 7, manual := 33554432000, held := 33554432000, incLog := [(0, 33554432000)], step := none,
    srcs := [], fromFree := false, ofs := 0, inLimit := none, leftAt := none, lossAt := 0, lossE := none, followed := 0, ptpUtc := none,
    irigLeap := 0, leapDay := none, leapTaken := false, lastLeap := none, utcHost := false, ports := [], parent := none, irigTq := 15,
    ppsOut := false, latch := [] }
/-- A stopped monitor. -/
def osmInit : Osm :=
  { st := .stopped, reason := 0, runAt := none, startK := 0, lastK := 0, next := 0, sampleHi := 0#32, startHi := 0#32, primedK := none, ended := [], inbuf := [], sigDrop := 0,
    brDrop := 0, w := [], m := [], blockX := [], refreshes := 0, ys := [], cov := [], lf := [], lp := [], warm := [], tracks := [],
    extracts := [], foY := [], foSeg := [], foPrev := [], foPend := [], foSlots := [], foEvals := [], defs := [], shapeSeq := 0,
    stopAt := none, sigDropSec := none, ssoSec := [] }
def slotInit : Slot := ⟨.free, 0, []⟩
def graphInit : Graph := ⟨false, 0#32, [], []⟩
def islInit : Isl :=
  { banks := [graphInit, graphInit], active := 0, live := false, oldLive := false, swapAt := none, swapLap := none, copies := [],
    mapSeq := 0, maps := [[], []], mapLap := 0, graphLap := 0, graphHi := 0#32, mapHi := 0#32, disSec := none, ovfSec := none }
def pfaInit : Pfa :=
  { heats := [], laps := [], gs := [], heldCopy := [], stage := [], pendq := [], heldq := [], fullEp := false, q := [], obs := [],
    stageSec := none, bmap := [], usedBlocks := [], busy := false }
def srtInit : Srt :=
  { store := [], reserved := 0, queues := [], flight := [], timers := [], order := 0, spent := 0, refused := false, fullEp := false,
    held := [], admin := [], ustate := [], pinSec := [], slipSec := none, home := [] }
def pacInit : Pac := { eng := [], testing := none, outStore := [], latest := [], lapBlocks := [], incoming := [], reissue := [], gapSec := [] }
def almInit : Alm := { hur := [], recSeq := 0, buf := [], lost := 0, lossEp := false, aout := [] }
def nrgInit : Nrg :=
  { points := [], inputs := [], outputs := [], buf := [], lostBefore := false, dropEp := false, ovfSec := [], slot := slotInit }
def scbInit : Scb :=
  { buf := [], next := 0, lost := 0, flushing := 0, flushAgain := false, flash := [], wpos := 0, skip := none, looking := false, found := none }
def jnlInit : Jnl :=
  { next := 0, places := [], wptr := 0, drained := 0, drainAt := 0, lostEp := false, gap := none, ckptAsk := none, lineAt := none, ckpt := none,
    snaps := [], rrNow := 0, rrNext := 0, rrLoaded := false, rrCkpt := [], inWords := [], inChain := [], inQueue := [] }
def ingInit : Ing :=
  { ports := [], prp := [], rr := 0, streams := [], conns := [], tcpq := [], ptpq := [], rxlq := [], rings := [], gooseLap := [] }
def rlyInit : Rly :=
  { level := false, toggling := false, cause := 0, driveAt := none, lastIn := none, noTake := false, handover := false, inEntry := none,
    queue := [], ckpt := [], ownDig := 0#32, lastLap := 0, lastFwd := none, paced := false }
def keyInit : Key :=
  { slots := [], tampered := false, tamperOff := none, vbat := true, groups := [], bd := [], token := none, openedAt := none, fails := 0, op := none,
    slot := slotInit, attPending := [], nokeySec := [] }
def xcrInit : Xcr :=
  { sens := [], air := [], seq := 0, bcn := none, chan := 0, tuned := none, bcnDue := none, acks := [], req := none, rxq := [], ovfEp := false,
    dwellSec := [] }
def pwrInit : Pwr :=
  { mode := .warmup, powered := true, resetN := true, pfw := true, wuDone := false, watchAt := none, holdAt := none, holdFatal := false,
    saveEnded := none, restartAt := none, save := none, waiting := none, reading := [], outside := [],
    slot := slotInit }
/-- HLT_THR of the monitors of types 1 and 2, instances 0 to 31 of the selector: HI 0xFFFF, LO 0x0000 (Table 19.9). -/
def hltThrInit : NMap (NMap Word) :=
  [(1, ((List.range 32).map (fun i => (0x010108 + (256 + i) * 0x400000, 0xFFFF0000#32))) ++
       ((List.range 32).map (fun i => (0x010108 + (512 + i) * 0x400000, 0xFFFF0000#32))))]
/-- The whole device on leaving RESET. -/
def Device.reset : Device :=
  { regs := hltThrInit, tables := [], ddr := [], tk := tkInit, pwr := pwrInit, scb := scbInit, jnl := jnlInit,
    hif := { sq := [], cq := [], ch := [], sf := [], dbSec := [], msix := [] }, pba := [], ing := ingInit, pfa := pfaInit, srt := srtInit, pac := pacInit,
    osm := osmInit, isl := islInit, alm := almInit, egr := { tx := [], goose := [], conns := [], clients := [], ipId := 0 },
    lmf := { phase := 0, chans := [] },
    acq := { grps := [], hist := [], trig := [], mask := [], evalAt := [], seq := 0, wrote := [] }, nrg := nrgInit,
    rxl := { links := [], peers := [], hold := [], parts := [], comb := [], onAlt := [], passSec := [], passAcc := [], pinSec := none }, rly := rlyInit,
    key := keyInit, mem := { bad := [], errs := [], counts := [], lapUes := 0, ceSec := [], merge := [], sweepAt := 0, sweepPos := [] }, xcr := xcrInit, out := [],
    lastRead := 0#32, readHi := 0#32, noted := [], free := 0 }

/-! The machine. -/

/-- The block and the commands that wait for it, first in, first out. -/
structure State where
  dev : Device
  pending : List Instr
  deriving DecidableEq, Repr

/-- Reasons a step stops with a fault: none. No rule gives a command of the block an outcome that stops it, so this has no constructor (safe). -/
inductive Fault where
  deriving DecidableEq, Repr

/-- Reasons a command has no meaning. -/
inductive Refusal where
  /-- Raised by no arm of exec: the form in which one would reject a command by name (safe). -/
  | notModelled (mnemonic : String)
  deriving DecidableEq, Repr

/-- What a step answers. -/
abbrev Answer := Host.Outcome State Fault Refusal

/-- On leaving RESET, with no command waiting. -/
def State.reset : State := ⟨Device.reset, []⟩

end Sys2Proof.Machine
end

