-- ==== Sys2Proof/Config.lean ====
section
/-!
DEFINITION. What the spec leaves open, as constants with no body: nothing can prove a value of one. Each is named in
notes/assumptions/ with the rule that leaves it open.
-/
namespace Sys2Proof.Config

/-- A free 32-bit value, fresh at each place of use (log entry 3). -/
opaque freeWord : Nat → BitVec 32

/-- The MAC address the Stride firmware resolves for a peer reached from a port: port, address as a number (log entry 26). -/
opaque peerMac : Nat → Nat → BitVec 48

/-- The nonce of an AES-GMAC or AES-GCM session PDU, from its header octets: IEC 61850-90-5 fixes it, the spec does not (log entry 27). -/
opaque sessionNonce : List (BitVec 8) → BitVec 96

/-- The word index MEM_LAST_* shows for a place of an array: array, place (log entry 29). -/
opaque memIdx : Nat → Nat → BitVec 32

/-- A configuration or header frame as the Stride firmware builds it: command (3 header, 4 CFG-1, 5 CFG-2, 6 CFG-3), client entry, lane
entries, name area, SOC (log entry 32). -/
opaque c37Frame : Nat → List (BitVec 32) → List (List (BitVec 32)) → List (BitVec 8) → Nat → List (BitVec 8)

/-- The state datum of EV_EGR_C37_CONN: 0 opened, 1 closed, 2 transmission started, 3 stopped (log entry 33). -/
opaque connCode : Nat → BitVec 32

/-- The producer datum of EV_SRT_STORE_FULL: 0 release port, 1 engine commit, 2 instance timer, 3 Rharix receive path, 4 Stride core (log entry 34). -/
opaque prodCode : Nat → BitVec 32

/-! Filter coefficients that the library fixes and the spec does not give, and what R180 leaves open (log entry 38). -/

/-- OSCDEC's FIR coefficient `j` for a decimation D above 1 (R158). -/
opaque firCoef : Nat → Nat → BitVec 32
/-- The identity of a fixed target (R180), which the spec does not state. -/
opaque defFixIdent : BitVec 32

/-- SSODET's decimation filter: its factor and the coefficient's number (R181). -/
opaque ssoTaps : Nat → Nat → BitVec 32

/-- The taps of a ROM response (R268), whose passbands and stopbands the spec gives and whose coefficients it does not: code, then the
stages L1, L2, L3, L4, LC, LP in turn (log entry 40). -/
opaque romTaps : Nat → Nat → List (BitVec 32)
/-- The cause datum of EV_RXL_LINK: 0 in use, 1 lock lost, 2 no CADENCE, 3 RETX_MAX, 4 its unit or port (log entry 41). -/
opaque linkCause : Nat → BitVec 32

/-- A digital word of a GOOSE BIT STRING, from its octets, the number of unused bits first (R61): the spec does not say which bit goes where (log
entry 43). -/
opaque bitString : List (BitVec 8) → BitVec 16

/-- The third datum of EV_ISL_CHANGE, the IDs assigned and retired, which has no coding (log entry 75). -/
opaque islIds : List Nat → List Nat → BitVec 32
/-- The DDR5 address of a membership map's buffer, which the spec does not give (log entry 75). -/
opaque islMapAt : Nat → BitVec 37

/-- The unit datum of EV_PAC_MISMATCH for the integer multipliers (4) and the exponent adders (5), which no table codes (log entry 76). -/
opaque unitCode : Nat → BitVec 32

/-- The reason datum of EV_ING_AUTH: 0 algorithm, 1 key identifier, 2 tag (log entry 44). -/
opaque authReason : Nat → BitVec 32

/-- The bytes of a checkpoint, and what bytes from another device hold (log entry 48): the spec gives a checkpoint's contents, not its form. -/
opaque ckptEncode : Machine.Snap → List (BitVec 8)
opaque ckptDecode : List (BitVec 8) → Option Machine.Snap

/-- The cause data of EV_PWR_HOLD (whether the cause is fatal), EV_RLY_STEP (1 lag, 2 lane or JOURNAL frame, 3 digest, 4 memory) and
EV_RLY_RELEASE (0 none, else as R375 lists them), which have no coding (log entry 50). -/
opaque holdCause : Bool → BitVec 32
opaque stepCause : Nat → BitVec 32
opaque releaseCause : Nat → BitVec 32

/-- The detail datum of EV_PWR_FATAL: cause, and what failed as the model numbers it (log entry 50). -/
opaque fatalDetail : Nat → Nat → BitVec 32

/-- Octets the radio's PHY sends before a frame's own: its preamble, SFD and PHR (log entry 49). -/
opaque xcrHead : BitVec 16

/-- Whether a GiB of the device's DDR5 address space is populated (R398): the board decides (log entry 51). -/
opaque ddrPopulated : Nat → Bool

/-- Whether a DDR5 burst lies in channel 1 (log entry 29). -/
opaque ddrChannel : Nat → Bool

end Sys2Proof.Config
end

