-- ==== Sys2Proof/Machine/Flt.lean ====
section
/-!
DEFINITION. FP32 arithmetic exactly as spec/04 fixes it (R125): round to nearest, ties to even; subnormals in full; every NaN
result the canonical 0x7FC0_0000; fused multiply-add, division and square root correctly rounded; sine, cosine, atan2 and the
logarithms correctly rounded from rational enclosures refined until both ends round alike. Sums follow R126.
-/
namespace Sys2Proof.Machine

/-- The canonical quiet NaN (R125). -/
def fNaN : Word := 0x7FC00000#32
/-- Positive zero and one. -/
def fZero : Word := 0#32
def fOne : Word := 0x3F800000#32
/-- Infinities. -/
def fInf (neg : Bool) : Word := if neg then 0xFF800000#32 else 0x7F800000#32

/-- Fields of a pattern. -/
def fSign (a : Word) : Bool := a.toNat ≥ 2147483648
def fExp (a : Word) : Nat := a.toNat / 8388608 % 256
def fMan (a : Word) : Nat := a.toNat % 8388608
/-- Classes. -/
def fIsNaN (a : Word) : Bool := fExp a == 255 && fMan a != 0
def fIsInf (a : Word) : Bool := fExp a == 255 && fMan a == 0
def fFinite (a : Word) : Bool := fExp a != 255
def fIsZero (a : Word) : Bool := fExp a == 0 && fMan a == 0
/-- Sign flip and absolute value; a NaN becomes the canonical one. -/
def fNeg (a : Word) : Word := if fIsNaN a then fNaN else a ^^^ 0x80000000#32
def fAbs (a : Word) : Word := if fIsNaN a then fNaN else a &&& 0x7FFFFFFF#32

/-- The significand of a finite pattern: its value is the significand times 2^(exponent - 150), with 1 for exponent 0. -/
def fSig (a : Word) : Nat := if fExp a = 0 then fMan a else fMan a + 8388608
def fExpN (a : Word) : Nat := if fExp a = 0 then 1 else fExp a
/-- A finite pattern's value times 2^149, as a whole number. -/
def fInt (a : Word) : Int :=
  let m : Int := (fSig a : Int) * 2 ^ (fExpN a - 1)
  if fSign a then -m else m

/-- Floor of log2 of a positive number. -/
def ilog2 (n : Nat) : Nat := Nat.log2 n

/-- The quotient `n / d` rounded to nearest, ties to even. -/
def rneDiv (n d : Nat) : Nat :=
  let q := n / d
  let r := n % d
  if 2 * r < d then q else if 2 * r = d then (if q % 2 = 0 then q else q + 1) else q + 1

/-- The FP32 pattern nearest the magnitude `n / d`, in units of 2^-149 (`d` not 0), ties to even. -/
def roundMag (neg : Bool) (n d : Nat) : Word :=
  if n = 0 then (if neg then 0x80000000#32 else 0#32)
  else
    -- e: how far the quotient's 24 leading bits stand above the unit
    let q0 := n / d
    let e := if q0 = 0 then 0 else ilog2 q0 - 23
    let s := rneDiv n (d * 2 ^ e)
    -- s is at most 2^24
    let bits := if s < 8388608 then s else e * 8388608 + s
    let r := if bits ≥ 2139095040 then 2139095040 else bits
    BitVec.ofNat 32 (if neg then r + 2147483648 else r)

/-- An exact integer number of 2^-149 times 2^-k, rounded; `zneg` is the sign of an exact zero. -/
def roundInt (v : Int) (k : Nat) (zneg : Bool) : Word :=
  if v = 0 then (if zneg then 0x80000000#32 else 0#32) else roundMag (decide (v < 0)) v.natAbs (2 ^ k)

/-- An exact rational `n / d` (`d` positive) as FP32; zero is +0.0. -/
def ofRat (n : Int) (d : Nat) : Word := roundMag (decide (n < 0)) (n.natAbs * 2 ^ 149) d

/-- Addition (R125). -/
def fAdd (a b : Word) : Word :=
  if fIsNaN a || fIsNaN b then fNaN
  else if fIsInf a then (if fIsInf b && fSign a != fSign b then fNaN else a)
  else if fIsInf b then b
  else roundInt (fInt a + fInt b) 0 (fSign a && fSign b)

/-- Subtraction. -/
def fSub (a b : Word) : Word := if fIsNaN b then fNaN else fAdd a (fNeg b)

/-- Multiplication. -/
def fMul (a b : Word) : Word :=
  let s := fSign a != fSign b
  if fIsNaN a || fIsNaN b then fNaN
  else if fIsInf a || fIsInf b then (if fIsZero a || fIsZero b then fNaN else fInf s)
  else roundInt (fInt a * fInt b) 149 s

/-- Fused multiply-add `a * b + c`. -/
def fFma (a b c : Word) : Word :=
  let s := fSign a != fSign b
  if fIsNaN a || fIsNaN b || fIsNaN c then fNaN
  else if fIsInf a || fIsInf b then
    (if fIsZero a || fIsZero b then fNaN else if fIsInf c && fSign c != s then fNaN else fInf s)
  else if fIsInf c then c
  else roundInt (fInt a * fInt b + fInt c * 2 ^ 149) 149 (s && fSign c)

/-- Division. -/
def fDiv (a b : Word) : Word :=
  let s := fSign a != fSign b
  if fIsNaN a || fIsNaN b then fNaN
  else if fIsInf a then (if fIsInf b then fNaN else fInf s)
  else if fIsInf b then (if s then 0x80000000#32 else 0#32)
  else if fIsZero b then (if fIsZero a then fNaN else fInf s)
  else roundMag s ((fInt a).natAbs * 2 ^ 149) (fInt b).natAbs

/-- Square root, correctly rounded: the root of `m * 2^149` (in 2^-149 units), with sticky precision. -/
def fSqrt (a : Word) : Word :=
  if fIsNaN a then fNaN
  else if fIsZero a then a
  else if fSign a then fNaN
  else if fIsInf a then a
  else
    let n := (fInt a).natAbs * 2 ^ 149 * 2 ^ 80
    let r := Nat.sqrt n
    -- r is the root times 2^40; an inexact root is marked by an odd tail
    let v := 2 * r + (if r * r = n then 0 else 1)
    roundMag false v (2 ^ 41)

/-- Comparison of two patterns, false when either is NaN. -/
def fLt (a b : Word) : Bool :=
  if fIsNaN a || fIsNaN b then false
  else
    let key (x : Word) : Int := if fSign x then -((x.toNat % 2147483648 : Nat) : Int) else (x.toNat : Int)
    decide (key a < key b)
def fLe (a b : Word) : Bool := if fIsNaN a || fIsNaN b then false else !fLt b a
def fEq (a b : Word) : Bool := if fIsNaN a || fIsNaN b then false else !fLt a b && !fLt b a
/-- The larger and the smaller of two numbers. -/
def fMax (a b : Word) : Word := if fLt a b then b else a
def fMin (a b : Word) : Word := if fLt b a then b else a

/-- A whole number as FP32. -/
def fOfNat (n : Nat) : Word := ofRat n 1
def fOfInt (n : Int) : Word := ofRat n 1
/-- The floor of a finite FP32 value as a whole number. -/
def fFloor (a : Word) : Int := Int.fdiv (fInt a) (2 ^ 149)
/-- A finite FP32 value rounded to nearest even, as a whole number. -/
def fRne (a : Word) : Int :=
  let q : Int := (rneDiv (fInt a).natAbs (2 ^ 149) : Nat)
  if fSign a then -q else q

/-! Elementary functions (R125), in fixed point with `P` fraction bits and an error bound carried alongside. -/

/-- A scaled approximation: value `v / 2^p`, off by at most `err / 2^p`. -/
structure Apx where
  v : Int
  err : Nat
  deriving DecidableEq, Repr

/-- Fixed-point product rounded toward minus infinity (error below one unit). -/
def fxMul (p : Nat) (a b : Int) : Int := Int.fdiv (a * b) (2 ^ p)

/-- atan of `x / 2^p` for |x| at most 2^p / 2, by its series: `k` terms. The error is below 2 units a term. -/
def atanSeries (p : Nat) (x : Int) (k : Nat) : Int :=
  let x2 := fxMul p x x
  let rec go (n : Nat) (i : Nat) (t acc : Int) : Int :=
    match n with
    | 0 => acc
    | m + 1 =>
      let term := Int.fdiv t (2 * i + 1)
      go m (i + 1) (fxMul p t x2) (if i % 2 = 0 then acc + term else acc - term)
  go k 0 x 0

/-- pi times 2^p, by Machin's formula; off by fewer than 4 p units of the last place. -/
def piFx (p : Nat) : Int :=
  16 * atanSeries p (Int.fdiv (2 ^ p) 5) p - 4 * atanSeries p (Int.fdiv (2 ^ p) 239) p

/-- atan of a non-negative `x / 2^p`, reduced twice by `atan x = 2 atan (x / (1 + sqrt (1 + x^2)))`. -/
def atanFx (p : Nat) (x : Nat) : Int :=
  let half (y : Nat) : Nat := y * 2 ^ p / (2 ^ p + Nat.sqrt (2 ^ (2 * p) + y * y))
  4 * atanSeries p (half (half x) : Nat) p

/-- ln of `x / 2^p` for x between 2^p and 2^(p+1), as 2 atanh ((x - 1) / (x + 1)). -/
def lnFx (p : Nat) (x : Nat) : Int :=
  let z : Int := Int.fdiv (((x : Int) - 2 ^ p) * 2 ^ p) ((x : Int) + 2 ^ p)
  let z2 := fxMul p z z
  let rec go (n : Nat) (i : Nat) (t acc : Int) : Int :=
    match n with
    | 0 => acc
    | m + 1 => go m (i + 1) (fxMul p t z2) (acc + Int.fdiv t (2 * i + 1))
  2 * go p 0 z 0

/-- ln 2 times 2^p. -/
def ln2Fx (p : Nat) : Int := lnFx p (2 ^ (p + 1))

/-- sin of `x / 2^p` for small x, by its series. -/
def sinSeries (p : Nat) (x : Int) : Int :=
  let x2 := fxMul p x x
  let rec go (n : Nat) (i : Nat) (t acc : Int) : Int :=
    match n with
    | 0 => acc
    | m + 1 => go m (i + 2) (-(Int.fdiv (fxMul p t x2) ((i + 1) * (i + 2)))) (acc + t)
  go (p / 2 + 8) 1 x 0
/-- cos of `x / 2^p` for small x, by its series. -/
def cosSeries (p : Nat) (x : Int) : Int :=
  let x2 := fxMul p x x
  let rec go (n : Nat) (i : Nat) (t acc : Int) : Int :=
    match n with
    | 0 => acc
    | m + 1 => go m (i + 2) (-(Int.fdiv (fxMul p t x2) ((i + 1) * (i + 2)))) (acc + t)
  go (p / 2 + 8) 0 (2 ^ p) 0

/-- Round an approximation `v / 2^p` known to within `err / 2^p`: both ends must round alike. -/
def roundApx (p : Nat) (v : Int) (err : Nat) : Option Word :=
  let lo := ofRat (v - err) (2 ^ p)
  let hi := ofRat (v + err) (2 ^ p)
  if lo = hi ∧ ¬ (v - err ≤ 0 ∧ 0 ≤ v + err) then some lo else none

/-- Refine an approximation until it rounds: precision 80 more bits a turn. The last turn's value stands (a correctly
rounded result needs no more than these turns for FP32 arguments). -/
def refine (f : Nat → Int × Nat) : Nat → Nat → Word
  | 0, p => ofRat (f p).1 (2 ^ p)
  | n + 1, p =>
    match roundApx p (f p).1 (f p).2 with
    | some w => w
    | none => refine f n (p + 80)

/-- A finite value in fixed point, rounded toward minus infinity. -/
def fToFx (p : Nat) (a : Word) : Int := Int.fdiv (fInt a * 2 ^ p) (2 ^ 149)

/-- An argument reduced by whole turns: x - 2 pi n within [-pi, pi], as fixed point with an error bound. The working
precision exceeds the wanted one by the argument's own size. -/
def reduceTurn (p : Nat) (a : Word) : Int :=
  let g := p + 170
  let x := fToFx g a
  let tp := 2 * piFx g
  let n := Int.fdiv (2 * x + tp) (2 * tp)
  Int.fdiv (x - n * tp) (2 ^ 170)

/-- Sine (R125). Zero keeps its sign; an infinity gives NaN. -/
def fSin (a : Word) : Word :=
  if fIsNaN a || fIsInf a then fNaN
  else if fIsZero a then a
  else refine (fun p => (sinSeries p (reduceTurn p a), 64 * p)) 3 240
/-- Cosine. -/
def fCos (a : Word) : Word :=
  if fIsNaN a || fIsInf a then fNaN
  else if fIsZero a then fOne
  else refine (fun p => (cosSeries p (reduceTurn p a), 64 * p)) 3 240

/-- atan2 (R125): in (-pi, pi], with -pi returned as +pi and atan2(±0, ±0) as +0.0. -/
def fAtan2 (y x : Word) : Word :=
  if fIsNaN y || fIsNaN x then fNaN
  else if fIsZero y && fIsZero x then fZero
  else if fIsZero y then (if fSign x then ofRat (piFx 200) (2 ^ 200) else y)
  else
    -- Infinities stand for numbers beyond every finite one.
    let big : Nat := 2 ^ 2000
    let yn : Nat := if fIsInf y then (if fIsInf x then 1 else big) else if fIsInf x then 0 else (fInt y).natAbs
    let xn : Nat := if fIsInf x then (if fIsInf y then 1 else big) else if fIsInf y then 0 else (fInt x).natAbs
    let f (p : Nat) : Int × Nat :=
      let core : Int :=
        if yn ≤ xn then atanFx p (yn * 2 ^ p / max xn 1)
        else Int.fdiv (piFx p) 2 - atanFx p (xn * 2 ^ p / max yn 1)
      let t := if fSign x then piFx p - core else core
      (if fSign y then -t else t, 64 * p)
    if yn = 0 then (if fSign x then ofRat (piFx 200) (2 ^ 200) else (if fSign y then 0x80000000#32 else 0#32))
    else
      let r := refine f 3 240
      if fSign y && r = ofRat (-(piFx 200)) (2 ^ 200) then ofRat (piFx 200) (2 ^ 200) else r

/-- Natural logarithm of a positive finite pattern in fixed point, with its error bound. -/
def lnOf (p : Nat) (a : Word) : Int :=
  let n := (fInt a).natAbs
  let e := ilog2 n
  let m := n * 2 ^ p / 2 ^ e
  lnFx p m + ((e : Int) - 149) * ln2Fx p

/-- Natural logarithm (R125): of +0.0 minus infinity, of a negative number NaN. -/
def fLn (a : Word) : Word :=
  if fIsNaN a then fNaN
  else if fIsZero a then fInf true
  else if fSign a then fNaN
  else if fIsInf a then a
  else if a = fOne then fZero
  else refine (fun p => (lnOf p a, 1024 * p)) 3 240
/-- Base-10 logarithm. -/
def fLog10 (a : Word) : Word :=
  if fIsNaN a then fNaN
  else if fIsZero a then fInf true
  else if fSign a then fNaN
  else if fIsInf a then a
  else if a = fOne then fZero
  else
    -- An exact power of ten is exact.
    let exact := (List.range 40).find? (fun k => fOfNat (10 ^ k) = a && fInt a = (10 ^ k : Nat) * 2 ^ 149)
    match exact with
    | some k => fOfNat k
    | none =>
      refine (fun p =>
        let l10 := lnFx p (2 ^ p * 10 / 8) + 3 * ln2Fx p
        (Int.fdiv (lnOf p a * 2 ^ p) l10, 4096 * p)) 3 240

/-! Sums (R126). -/

/-- Add an element into its partial: fused when it carries a weight. -/
def partAdd (acc : Word) (wx : Option Word × Word) : Word :=
  match wx.1 with
  | some w => fFma w wx.2 acc
  | none => fAdd acc wx.2

/-- Partial `p` of the 16: elements with index congruent to p, ascending, from +0.0 (DESIGN CHOICE, log entry 38). -/
def partSum (xs : List (Option Word × Word)) (p : Nat) : Word :=
  (xs.zipIdx.filter (fun e => e.2 % 16 = p)).foldl (fun a e => partAdd a e.1) fZero

/-- Pair a level of the tree: an odd last result is carried up unchanged. -/
def pairUp : List Word → List Word
  | a :: b :: r => fAdd a b :: pairUp r
  | l => l
/-- The binary tree over a list, `fuel` levels at most. -/
def treeSum (fuel : Nat) (l : List Word) : Word :=
  match fuel, l with
  | _, [] => fZero
  | _, [a] => a
  | 0, a :: _ => a
  | n + 1, l => treeSum n (pairUp l)

/-- A sum of one chunk (R126). -/
def sum16 (xs : List (Option Word × Word)) : Word := treeSum 5 ((List.range 16).map (partSum xs))

/-- Split into chunks of `n`. -/
def chunks {α : Type} (n : Nat) (fuel : Nat) (l : List α) : List (List α) :=
  match fuel with
  | 0 => []
  | f + 1 => match l with
    | [] => []
    | _ => l.take n :: chunks n f (l.drop n)

/-- A sum split at fixed chunk boundaries (R126). -/
def sumChunks (n : Nat) (xs : List (Option Word × Word)) : Word :=
  treeSum 20 ((chunks n (xs.length + 1) xs).map sum16)

/-! Complex numbers as (re, im). -/

/-- Angle of a minus angle of b (ANGDIFF, spec/04). -/
def cAngDiff (a b : Word × Word) : Word :=
  let re := fFma a.1 b.1 (fMul a.2 b.2)
  let im := fFma a.2 b.1 (fNeg (fMul a.1 b.2))
  fAtan2 im re
/-- Magnitude: sqrt(fma(re, re, im * im)). -/
def cMag (a : Word × Word) : Word := fSqrt (fFma a.1 a.1 (fMul a.2 a.2))
/-- Complex multiply-add acc + k * x, its two products fused one within the other (DESIGN CHOICE, log entry 38). -/
def cMac (acc k x : Word × Word) : Word × Word :=
  (fFma k.1 x.1 (fFma (fNeg k.2) x.2 acc.1), fFma k.1 x.2 (fFma k.2 x.1 acc.2))
def cIsZero (a : Word × Word) : Bool := fIsZero a.1 && fIsZero a.2
def cIsNaN (a : Word × Word) : Bool := fIsNaN a.1 || fIsNaN a.2

/-- Wrap an angle into (-pi, pi] by the FP32 value of 2 pi. -/
def fTwoPi : Word := 0x40C90FDB#32
def fPi : Word := 0x40490FDB#32
def wrapAngle (a : Word) : Word :=
  if fIsNaN a || fIsInf a then fNaN
  else
    -- exact reduction: a - 2 pi n, n the whole number of turns, rounded once
    if fLe a fPi && fLt (fNeg fPi) a then a
    else ofRat (reduceTurn 200 a) (2 ^ 200)

end Sys2Proof.Machine
end

