-- ==== Sys2Proof/Machine/Rec.lean ====
section
/-!
DEFINITION. Bit fields of words, little-endian bytes, and the Grandstand record (spec/01, R13, R19 to R23): where each signal of
a lane stands, the quality word, signal references (R141) and the exclusion test of R136.
-/
namespace Sys2Proof.Machine

/-- Bits hi..lo of a word as a number. -/
def bx (w : Word) (hi lo : Nat) : Nat := w.toNat / 2 ^ lo % 2 ^ (hi - lo + 1)
/-- One bit. -/
def bit (w : Word) (i : Nat) : Bool := bx w i i = 1
/-- A word with bits hi..lo replaced. -/
def bset (w : Word) (hi lo : Nat) (v : Nat) : Word :=
  let m : Nat := (2 ^ (hi - lo + 1) - 1) * 2 ^ lo
  (w &&& ~~~(BitVec.ofNat 32 m)) ||| BitVec.ofNat 32 (v % 2 ^ (hi - lo + 1) * 2 ^ lo)
/-- A number as a word. -/
def w32 (n : Nat) : Word := BitVec.ofNat 32 n
/-- A condition as a bit. -/
def b2n (b : Bool) : Nat := if b then 1 else 0

/-- Word `i` of an entry; words beyond it read 0. -/
def wd (l : List Word) (i : Nat) : Word := l.getD i 0#32

/-- A word as four bytes, little-endian. -/
def le32 (w : Word) : List Byte :=
  [BitVec.ofNat 8 w.toNat, BitVec.ofNat 8 (w.toNat / 256), BitVec.ofNat 8 (w.toNat / 65536), BitVec.ofNat 8 (w.toNat / 16777216)]
/-- Words as bytes, little-endian. -/
def leBytes (ws : List Word) : List Byte := ws.flatMap le32
/-- Four bytes as a word, little-endian; missing bytes read 0. -/
def ofLe (b : List Byte) : Word :=
  w32 ((b.getD 0 0#8).toNat + 256 * (b.getD 1 0#8).toNat + 65536 * (b.getD 2 0#8).toNat + 16777216 * (b.getD 3 0#8).toNat)
/-- Bytes as words, little-endian. -/
def leWords (fuel : Nat) (b : List Byte) : List Word :=
  match fuel with
  | 0 => []
  | n + 1 => match b with
    | [] => []
    | _ => ofLe (b.take 4) :: leWords n (b.drop 4)
/-- A big-endian number of the bytes given. -/
def beNat (b : List Byte) : Nat := b.foldl (fun a x => a * 256 + x.toNat) 0
/-- `n` big-endian bytes of a number. -/
def beBytes (n : Nat) (v : Nat) : List Byte :=
  match n with
  | 0 => []
  | k + 1 => BitVec.ofNat 8 (v / 256 ^ k) :: beBytes k v
/-- `n` bytes from position `i`. -/
def slice {α : Type} (l : List α) (i n : Nat) : List α := (l.drop i).take n
/-- A halfword's sign. -/
def s16 (n : Nat) : Int := if n % 65536 ≥ 32768 then ((n % 65536 : Nat) : Int) - 65536 else ((n % 65536 : Nat) : Int)
def s32 (w : Word) : Int := if w.toNat ≥ 2147483648 then (w.toNat : Int) - 4294967296 else (w.toNat : Int)
/-- A whole number as a 32-bit two's-complement word. -/
def i32 (v : Int) : Word := BitVec.ofInt 32 v

/-! The record (Table 1.2). A lane's records of one lap are a list; record r is `recs.getD r []`. -/

/-- The record count of R12. -/
def recCountOf (nph nana ndig : Nat) : Nat :=
  max 1 (max ((nph + 11) / 12) (max ((ndig + 1) / 2) (if nana ≤ 1 then 1 else 1 + (nana - 1 + 2) / 3)))

/-- Word w of record r of a lane. -/
def recWord (recs : List (List Word)) (r w : Nat) : Word := wd (recs.getD r []) w
/-- Phasor k (R13). -/
def recPhasor (recs : List (List Word)) (k : Nat) : Word × Word :=
  (recWord recs (k / 12) (6 + 2 * (k % 12)), recWord recs (k / 12) (7 + 2 * (k % 12)))
/-- Frequency and ROCOF (record 0). -/
def recFreq (recs : List (List Word)) : Word := recWord recs 0 4
def recRocof (recs : List (List Word)) : Word := recWord recs 0 5
/-- The record and word of analog a (R13). -/
def anaPlace (a : Nat) : Nat × Nat :=
  if a = 0 then (0, 30) else (1 + (a - 1) / 3, if (a - 1) % 3 = 0 then 4 else if (a - 1) % 3 = 1 then 5 else 30)
def recAnalog (recs : List (List Word)) (a : Nat) : Word := recWord recs (anaPlace a).1 (anaPlace a).2
/-- Digital word d (R13). -/
def recDigital (recs : List (List Word)) (d : Nat) : Nat :=
  if d % 2 = 0 then bx (recWord recs (d / 2) 31) 15 0 else bx (recWord recs (d / 2) 31) 31 16
/-- The quality and record word of a lane's first record, and its quality bits (Table 1.5). -/
def recQR (recs : List (List Word)) : Word := recWord recs 0 2
def qVALID : Nat := 31
def qSYNC : Nat := 30
def qLATE : Nat := 25
def qAMENDED : Nat := 24
def qSUBST : Nat := 23
def qUNSETTLED : Nat := 22
def qAUTH_FAIL : Nat := 21
def qWIDE : Nat := 20
def qREMOTE : Nat := 19
/-- TQ of a quality and record word. -/
def qTQ (w : Word) : Nat := bx w 29 26
/-- A record has arrived (R23): its quality and record word is not zero and SUBSTITUTED is clear. -/
def recArrived (w : Word) : Bool := w != 0#32 && !bit w qSUBST

/-! Signal references (R141). -/
def refLane (r : Word) : Nat := bx r 13 0
def refKind (r : Word) : Nat := bx r 25 24
def refSlot (r : Word) : Nat := bx r 31 26

/-- A lane's gathered records; a lane that is not in the list has no record for the lap. -/
abbrev Gathered := List (Nat × List (List Word))
def gRecs (g : Gathered) (lane : Nat) : Option (List (List Word)) := (g.find? (fun e => e.1 = lane)).map (·.2)

/-- The exclusion settings of an instance (word 3 of Table 4.2). -/
structure ExclCfg where
  subst : Bool
  unsync : Bool
  tqMax : Nat
  deriving DecidableEq, Repr
def exclCfg (inst : List Word) : ExclCfg := ⟨bit (wd inst 3) 31, bit (wd inst 3) 30, bx (wd inst 3) 29 26⟩

/-- R136 on a quality and record word: the record's values are excluded. -/
def qExcluded (c : ExclCfg) (w : Word) : Bool :=
  !bit w qVALID || (c.subst && bit w qSUBST) || (c.unsync && !bit w qSYNC) || decide (qTQ w > c.tqMax)

/-- A referenced phasor, if it is included. -/
def inPhasor (c : ExclCfg) (g : Gathered) (ref : Word) : Option (Word × Word) :=
  match gRecs g (refLane ref) with
  | none => none
  | some recs =>
    let p := recPhasor recs (refSlot ref)
    if qExcluded c (recQR recs) || cIsNaN p then none else some p

/-- A referenced scalar (frequency or ROCOF), if it is included. -/
def inScalar (c : ExclCfg) (g : Gathered) (ref : Word) : Option Word :=
  match gRecs g (refLane ref) with
  | none => none
  | some recs =>
    let v := if refKind ref = 2 then recRocof recs else recFreq recs
    if qExcluded c (recQR recs) || fIsNaN v then none else some v

/-- Some included reference has UNSETTLED set (Table 4.3). -/
def refUnsettled (c : ExclCfg) (g : Gathered) (ref : Word) : Bool :=
  match gRecs g (refLane ref) with
  | none => false
  | some recs => !qExcluded c (recQR recs) && bit (recQR recs) qUNSETTLED

end Sys2Proof.Machine
end

