-- ==== Sys2Proof/Machine/RegMap.lean ====
section
/-!
DEFINITION. The BAR0 register map: every register table of the spec, with its fields, access codes and reset values
(R4, R5), every counter with its half-range bit (R81), and every event with its block and number (R433).
-/
namespace Sys2Proof.Machine

/-- Access codes (Table 0.4, R5). -/
inductive Acc where
  | ro | rw | wo | w1c | rc | w1s
  deriving DecidableEq, Repr

/-- One field of a register: its name, its bits and its reset value (R4). -/
structure Fld where
  name : String
  hi : Nat
  lo : Nat
  acc : Acc
  reset : Nat
  deriving DecidableEq, Repr

/-- One register, or a row of like registers. `sel` is the offset of the selecting register of a "selected" one; its
instances lie `0x40_0000` apart in the register file, beyond BAR0. -/
structure RegDef where
  name : String
  base : Nat
  count : Nat
  stride : Nat
  sel : Option Nat
  fields : List Fld
  deriving DecidableEq, Repr

/-- A field together with its register. -/
structure RF where
  reg : RegDef
  hi : Nat
  lo : Nat
  deriving DecidableEq, Repr

/-- One counter (R81): its offset, the step between its instances, its HALF and IE registers, its bit there, and its
half-range event (block, number). A counter without a half-range bit has `bit := none`. -/
structure Ctr where
  name : String
  base : Nat
  stride : Nat
  half : Nat
  ie : Nat
  bit : Option Nat
  blk : Nat
  ev : Nat
  deriving DecidableEq, Repr

/-- An event: its block, numbered as its bit in HIF_BLK_IRQ, and its number there (R433). -/
structure EvId where
  blk : Nat
  num : Nat
  deriving DecidableEq, Repr

/-- The step between the instances of a "selected" register in the register file. -/
def selStride : Nat := 0x400000

/-- Where instance `i` of a register is kept in the register file. -/
def RegDef.key (r : RegDef) (i : Nat) : Nat := if r.sel.isSome then r.base + i * selStride else r.base + i * r.stride

/-- The reset value of a register, from its fields. -/
def RegDef.reset (r : RegDef) : Word :=
  BitVec.ofNat 32 (r.fields.foldl (fun a f => a ||| (f.reset <<< f.lo)) 0)

def GBL_IDENT : RegDef := ⟨"GBL_IDENT", 0x000000, 1, 0x0, none, [⟨"MEMBER", 31, 24, .ro, 0x3⟩, ⟨"STEP_LETTER", 23, 20, .ro, 0x2⟩, ⟨"STEP_NUM", 19, 16, .ro, 0x1⟩, ⟨"ARCH_REV", 15, 8, .ro, 0x1⟩]⟩
def GBL_IDENT.MEMBER : RF := ⟨GBL_IDENT, 31, 24⟩
def GBL_IDENT.STEP_LETTER : RF := ⟨GBL_IDENT, 23, 20⟩
def GBL_IDENT.STEP_NUM : RF := ⟨GBL_IDENT, 19, 16⟩
def GBL_IDENT.ARCH_REV : RF := ⟨GBL_IDENT, 15, 8⟩
def PWR_STAT : RegDef := ⟨"PWR_STAT", 0x010000, 1, 0x0, none, [⟨"MODE", 31, 29, .ro, 0x1⟩, ⟨"WU_DONE", 28, 28, .ro, 0x0⟩, ⟨"FATAL", 27, 27, .ro, 0x0⟩, ⟨"FCAUSE", 26, 24, .ro, 0x0⟩, ⟨"PFW", 23, 23, .ro, 0x0⟩, ⟨"ERR", 22, 22, .w1c, 0x0⟩, ⟨"ECODE", 21, 19, .ro, 0x0⟩]⟩
def PWR_STAT.MODE : RF := ⟨PWR_STAT, 31, 29⟩
def PWR_STAT.WU_DONE : RF := ⟨PWR_STAT, 28, 28⟩
def PWR_STAT.FATAL : RF := ⟨PWR_STAT, 27, 27⟩
def PWR_STAT.FCAUSE : RF := ⟨PWR_STAT, 26, 24⟩
def PWR_STAT.PFW : RF := ⟨PWR_STAT, 23, 23⟩
def PWR_STAT.ERR : RF := ⟨PWR_STAT, 22, 22⟩
def PWR_STAT.ECODE : RF := ⟨PWR_STAT, 21, 19⟩
def PWR_CTL : RegDef := ⟨"PWR_CTL", 0x010004, 1, 0x0, none, [⟨"GO", 31, 31, .w1s, 0x0⟩, ⟨"TARGET", 30, 30, .rw, 0x0⟩, ⟨"RST_KEY", 15, 0, .wo, 0x0⟩]⟩
def PWR_CTL.GO : RF := ⟨PWR_CTL, 31, 31⟩
def PWR_CTL.TARGET : RF := ⟨PWR_CTL, 30, 30⟩
def PWR_CTL.RST_KEY : RF := ⟨PWR_CTL, 15, 0⟩
def PWR_CFG : RegDef := ⟨"PWR_CFG", 0x010008, 1, 0x0, none, [⟨"AUTO_RESTART", 31, 31, .rw, 0x0⟩]⟩
def PWR_CFG.AUTO_RESTART : RF := ⟨PWR_CFG, 31, 31⟩
def PWR_SAVE : RegDef := ⟨"PWR_SAVE", 0x01000C, 1, 0x0, none, [⟨"OK", 31, 31, .ro, 0x0⟩, ⟨"FOUND", 30, 30, .ro, 0x0⟩, ⟨"US", 11, 0, .ro, 0x0⟩]⟩
def PWR_SAVE.OK : RF := ⟨PWR_SAVE, 31, 31⟩
def PWR_SAVE.FOUND : RF := ⟨PWR_SAVE, 30, 30⟩
def PWR_SAVE.US : RF := ⟨PWR_SAVE, 11, 0⟩
def PWR_HALF : RegDef := ⟨"PWR_HALF", 0x010040, 1, 0x0, none, [⟨"CNT", 4, 0, .w1c, 0x0⟩]⟩
def PWR_HALF.CNT : RF := ⟨PWR_HALF, 4, 0⟩
def PWR_HALF_IE : RegDef := ⟨"PWR_HALF_IE", 0x010044, 1, 0x0, none, [⟨"CNT", 4, 0, .rw, 0x0⟩]⟩
def PWR_HALF_IE.CNT : RF := ⟨PWR_HALF_IE, 4, 0⟩
def HLT_SEL : RegDef := ⟨"HLT_SEL", 0x010100, 1, 0x0, none, [⟨"TYPE", 9, 8, .rw, 0x0⟩, ⟨"INDEX", 4, 0, .rw, 0x0⟩]⟩
def HLT_SEL.TYPE : RF := ⟨HLT_SEL, 9, 8⟩
def HLT_SEL.INDEX : RF := ⟨HLT_SEL, 4, 0⟩
def HLT_VAL : RegDef := ⟨"HLT_VAL", 0x010104, 1, 0x0, some 0x010100, [⟨"VALUE", 15, 0, .ro, 0x0⟩]⟩
def HLT_VAL.VALUE : RF := ⟨HLT_VAL, 15, 0⟩
def HLT_THR : RegDef := ⟨"HLT_THR", 0x010108, 1, 0x0, some 0x010100, [⟨"HI", 31, 16, .rw, 0x640⟩, ⟨"LO", 15, 0, .rw, 0xFD80⟩]⟩
def HLT_THR.HI : RF := ⟨HLT_THR, 31, 16⟩
def HLT_THR.LO : RF := ⟨HLT_THR, 15, 0⟩
def HLT_TRIP : RegDef := ⟨"HLT_TRIP", 0x01010C, 1, 0x0, some 0x010100, [⟨"TRIP", 15, 0, .rw, 0x730⟩]⟩
def HLT_TRIP.TRIP : RF := ⟨HLT_TRIP, 15, 0⟩
def HLT_SNAP_CTL : RegDef := ⟨"HLT_SNAP_CTL", 0x010110, 1, 0x0, none, [⟨"GO", 31, 31, .w1s, 0x0⟩]⟩
def HLT_SNAP_CTL.GO : RF := ⟨HLT_SNAP_CTL, 31, 31⟩
def HLT_SNAP_STAT : RegDef := ⟨"HLT_SNAP_STAT", 0x010114, 1, 0x0, none, [⟨"READY", 31, 31, .ro, 0x0⟩, ⟨"SEQ", 15, 0, .ro, 0x0⟩]⟩
def HLT_SNAP_STAT.READY : RF := ⟨HLT_SNAP_STAT, 31, 31⟩
def HLT_SNAP_STAT.SEQ : RF := ⟨HLT_SNAP_STAT, 15, 0⟩
def HLT_SNAP_REL : RegDef := ⟨"HLT_SNAP_REL", 0x010118, 1, 0x0, none, [⟨"SEQ", 15, 0, .wo, 0x0⟩]⟩
def HLT_SNAP_REL.SEQ : RF := ⟨HLT_SNAP_REL, 15, 0⟩
def HLT_SNAP_DATA : RegDef := ⟨"HLT_SNAP_DATA", 0x010200, 48, 0x4, none, [⟨"DATA", 31, 0, .ro, 0x0⟩]⟩
def HLT_SNAP_DATA.DATA : RF := ⟨HLT_SNAP_DATA, 31, 0⟩
def TK_CTL : RegDef := ⟨"TK_CTL", 0x020000, 1, 0x0, none, [⟨"MANUAL", 31, 31, .rw, 0x0⟩, ⟨"STEP_EN", 30, 30, .rw, 0x0⟩, ⟨"FIRST", 5, 4, .rw, 0x0⟩, ⟨"SECOND", 3, 2, .rw, 0x0⟩, ⟨"THIRD", 1, 0, .rw, 0x0⟩]⟩
def TK_CTL.MANUAL : RF := ⟨TK_CTL, 31, 31⟩
def TK_CTL.STEP_EN : RF := ⟨TK_CTL, 30, 30⟩
def TK_CTL.FIRST : RF := ⟨TK_CTL, 5, 4⟩
def TK_CTL.SECOND : RF := ⟨TK_CTL, 3, 2⟩
def TK_CTL.THIRD : RF := ⟨TK_CTL, 1, 0⟩
def TK_STAT : RegDef := ⟨"TK_STAT", 0x020004, 1, 0x0, none, [⟨"STATE", 31, 30, .ro, 0x0⟩, ⟨"SEL", 29, 28, .ro, 0x0⟩, ⟨"SYNC", 27, 27, .ro, 0x0⟩, ⟨"UNLOCK", 26, 25, .ro, 0x3⟩, ⟨"ERR", 24, 24, .w1c, 0x0⟩, ⟨"ECODE", 23, 21, .ro, 0x0⟩, ⟨"TQ", 15, 12, .ro, 0xF⟩]⟩
def TK_STAT.STATE : RF := ⟨TK_STAT, 31, 30⟩
def TK_STAT.SEL : RF := ⟨TK_STAT, 29, 28⟩
def TK_STAT.SYNC : RF := ⟨TK_STAT, 27, 27⟩
def TK_STAT.UNLOCK : RF := ⟨TK_STAT, 26, 25⟩
def TK_STAT.ERR : RF := ⟨TK_STAT, 24, 24⟩
def TK_STAT.ECODE : RF := ⟨TK_STAT, 23, 21⟩
def TK_STAT.TQ : RF := ⟨TK_STAT, 15, 12⟩
def TK_SERVO : RegDef := ⟨"TK_SERVO", 0x020008, 1, 0x0, none, [⟨"LOCK_S", 31, 24, .rw, 0xA⟩, ⟨"QUAL_S", 23, 16, .rw, 0xA⟩, ⟨"SLEW_PPB", 15, 0, .rw, 0xC350⟩]⟩
def TK_SERVO.LOCK_S : RF := ⟨TK_SERVO, 31, 24⟩
def TK_SERVO.QUAL_S : RF := ⟨TK_SERVO, 23, 16⟩
def TK_SERVO.SLEW_PPB : RF := ⟨TK_SERVO, 15, 0⟩
def TK_LIMITS : RegDef := ⟨"TK_LIMITS", 0x02000C, 1, 0x0, none, [⟨"LOCK_NS", 31, 16, .rw, 0x64⟩, ⟨"SYNC_NS", 15, 0, .rw, 0x3E8⟩]⟩
def TK_LIMITS.LOCK_NS : RF := ⟨TK_LIMITS, 31, 16⟩
def TK_LIMITS.SYNC_NS : RF := ⟨TK_LIMITS, 15, 0⟩
def TK_HOLD : RegDef := ⟨"TK_HOLD", 0x020010, 1, 0x0, none, [⟨"TQ0_NS", 31, 16, .rw, 0x3E8⟩, ⟨"HOLD_PPB", 15, 0, .rw, 0xA⟩]⟩
def TK_HOLD.TQ0_NS : RF := ⟨TK_HOLD, 31, 16⟩
def TK_HOLD.HOLD_PPB : RF := ⟨TK_HOLD, 15, 0⟩
def TK_STEP_THR : RegDef := ⟨"TK_STEP_THR", 0x020014, 1, 0x0, none, [⟨"STEP_NS", 31, 0, .rw, 0x186A0⟩]⟩
def TK_STEP_THR.STEP_NS : RF := ⟨TK_STEP_THR, 31, 0⟩
def TK_INC_INT : RegDef := ⟨"TK_INC_INT", 0x020018, 1, 0x0, none, [⟨"INT", 7, 0, .rw, 0x7⟩]⟩
def TK_INC_INT.INT : RF := ⟨TK_INC_INT, 7, 0⟩
def TK_INC_FRAC : RegDef := ⟨"TK_INC_FRAC", 0x02001C, 1, 0x0, none, [⟨"FRAC", 31, 0, .rw, 0xD0000000⟩]⟩
def TK_INC_FRAC.FRAC : RF := ⟨TK_INC_FRAC, 31, 0⟩
def TK_NOW_NS : RegDef := ⟨"TK_NOW_NS", 0x020020, 1, 0x0, none, [⟨"NS", 29, 0, .ro, 0x0⟩]⟩
def TK_NOW_NS.NS : RF := ⟨TK_NOW_NS, 29, 0⟩
def TK_NOW_SUB : RegDef := ⟨"TK_NOW_SUB", 0x020024, 1, 0x0, none, [⟨"SUB", 31, 0, .ro, 0x0⟩]⟩
def TK_NOW_SUB.SUB : RF := ⟨TK_NOW_SUB, 31, 0⟩
def TK_NOW_SEC_LO : RegDef := ⟨"TK_NOW_SEC_LO", 0x020028, 1, 0x0, none, [⟨"SEC", 31, 0, .ro, 0x0⟩]⟩
def TK_NOW_SEC_LO.SEC : RF := ⟨TK_NOW_SEC_LO, 31, 0⟩
def TK_NOW_SEC_HI : RegDef := ⟨"TK_NOW_SEC_HI", 0x02002C, 1, 0x0, none, [⟨"SEC", 15, 0, .ro, 0x0⟩]⟩
def TK_NOW_SEC_HI.SEC : RF := ⟨TK_NOW_SEC_HI, 15, 0⟩
def TK_OFS : RegDef := ⟨"TK_OFS", 0x020030, 1, 0x0, none, [⟨"OFS", 31, 0, .ro, 0x0⟩]⟩
def TK_OFS.OFS : RF := ⟨TK_OFS, 31, 0⟩
def TK_EST : RegDef := ⟨"TK_EST", 0x020034, 1, 0x0, none, [⟨"EST", 31, 0, .ro, 0xFFFFFFFF⟩]⟩
def TK_EST.EST : RF := ⟨TK_EST, 31, 0⟩
def TK_CMD : RegDef := ⟨"TK_CMD", 0x020040, 1, 0x0, none, [⟨"OP", 31, 28, .wo, 0x0⟩]⟩
def TK_CMD.OP : RF := ⟨TK_CMD, 31, 28⟩
def TK_STEP_SEC : RegDef := ⟨"TK_STEP_SEC", 0x020044, 1, 0x0, none, [⟨"SEC", 31, 0, .rw, 0x0⟩]⟩
def TK_STEP_SEC.SEC : RF := ⟨TK_STEP_SEC, 31, 0⟩
def TK_STEP_NS : RegDef := ⟨"TK_STEP_NS", 0x020048, 1, 0x0, none, [⟨"NS", 31, 0, .rw, 0x0⟩]⟩
def TK_STEP_NS.NS : RF := ⟨TK_STEP_NS, 31, 0⟩
def TK_UTC : RegDef := ⟨"TK_UTC", 0x020050, 1, 0x0, none, [⟨"LEAP", 31, 30, .rw, 0x0⟩, ⟨"OFFSET", 15, 0, .rw, 0x25⟩]⟩
def TK_UTC.LEAP : RF := ⟨TK_UTC, 31, 30⟩
def TK_UTC.OFFSET : RF := ⟨TK_UTC, 15, 0⟩
def TK_UTC_STAT : RegDef := ⟨"TK_UTC_STAT", 0x020054, 1, 0x0, none, [⟨"LEAP", 31, 30, .ro, 0x0⟩, ⟨"SRC", 29, 28, .ro, 0x0⟩, ⟨"OFFSET", 15, 0, .ro, 0x25⟩]⟩
def TK_UTC_STAT.LEAP : RF := ⟨TK_UTC_STAT, 31, 30⟩
def TK_UTC_STAT.SRC : RF := ⟨TK_UTC_STAT, 29, 28⟩
def TK_UTC_STAT.OFFSET : RF := ⟨TK_UTC_STAT, 15, 0⟩
def TK_PTP : RegDef := ⟨"TK_PTP", 0x020060, 1, 0x0, none, [⟨"PROFILE", 31, 30, .rw, 0x0⟩, ⟨"BC", 29, 29, .rw, 0x0⟩, ⟨"SLAVE_ONLY", 28, 28, .rw, 0x1⟩, ⟨"DOMAIN", 23, 16, .rw, 0x0⟩, ⟨"PRIO1", 15, 8, .rw, 0x80⟩, ⟨"PRIO2", 7, 0, .rw, 0x80⟩]⟩
def TK_PTP.PROFILE : RF := ⟨TK_PTP, 31, 30⟩
def TK_PTP.BC : RF := ⟨TK_PTP, 29, 29⟩
def TK_PTP.SLAVE_ONLY : RF := ⟨TK_PTP, 28, 28⟩
def TK_PTP.DOMAIN : RF := ⟨TK_PTP, 23, 16⟩
def TK_PTP.PRIO1 : RF := ⟨TK_PTP, 15, 8⟩
def TK_PTP.PRIO2 : RF := ⟨TK_PTP, 7, 0⟩
def TK_IRIG : RegDef := ⟨"TK_IRIG", 0x020064, 1, 0x0, none, [⟨"EN", 31, 31, .rw, 0x0⟩, ⟨"IEEE1344", 30, 30, .rw, 0x1⟩, ⟨"DLY_NS", 15, 0, .rw, 0x0⟩]⟩
def TK_IRIG.EN : RF := ⟨TK_IRIG, 31, 31⟩
def TK_IRIG.IEEE1344 : RF := ⟨TK_IRIG, 30, 30⟩
def TK_IRIG.DLY_NS : RF := ⟨TK_IRIG, 15, 0⟩
def TK_PPS : RegDef := ⟨"TK_PPS", 0x020068, 1, 0x0, none, [⟨"IN_EN", 31, 31, .rw, 0x0⟩, ⟨"IN_EDGE", 30, 30, .rw, 0x0⟩, ⟨"OUT_EN", 29, 29, .rw, 0x0⟩, ⟨"OUT_W_MS", 23, 16, .rw, 0x64⟩, ⟨"ACC_NS", 15, 0, .rw, 0x64⟩]⟩
def TK_PPS.IN_EN : RF := ⟨TK_PPS, 31, 31⟩
def TK_PPS.IN_EDGE : RF := ⟨TK_PPS, 30, 30⟩
def TK_PPS.OUT_EN : RF := ⟨TK_PPS, 29, 29⟩
def TK_PPS.OUT_W_MS : RF := ⟨TK_PPS, 23, 16⟩
def TK_PPS.ACC_NS : RF := ⟨TK_PPS, 15, 0⟩
def TK_DLY : RegDef := ⟨"TK_DLY", 0x02006C, 1, 0x0, none, [⟨"PPS_IN_DLY_NS", 31, 16, .rw, 0x0⟩, ⟨"PPS_OUT_ADV_NS", 15, 0, .rw, 0x0⟩]⟩
def TK_DLY.PPS_IN_DLY_NS : RF := ⟨TK_DLY, 31, 16⟩
def TK_DLY.PPS_OUT_ADV_NS : RF := ⟨TK_DLY, 15, 0⟩
def TK_HALF : RegDef := ⟨"TK_HALF", 0x020090, 1, 0x0, none, [⟨"CNT", 9, 0, .w1c, 0x0⟩]⟩
def TK_HALF.CNT : RF := ⟨TK_HALF, 9, 0⟩
def TK_HALF_IE : RegDef := ⟨"TK_HALF_IE", 0x020094, 1, 0x0, none, [⟨"CNT", 9, 0, .rw, 0x0⟩]⟩
def TK_HALF_IE.CNT : RF := ⟨TK_HALF_IE, 9, 0⟩
def ETH_CFG : RegDef := ⟨"ETH_CFG", 0x040000, 8, 0x2000, none, [⟨"MAXLEN", 29, 16, .rw, 0x5F2⟩, ⟨"PRP_EN", 12, 12, .rw, 0x0⟩, ⟨"STATION", 11, 11, .rw, 0x0⟩, ⟨"UNTAG_OK", 10, 10, .rw, 0x1⟩, ⟨"FEC", 9, 8, .rw, 0x0⟩, ⟨"MODE", 2, 0, .rw, 0x0⟩]⟩
def ETH_CFG.MAXLEN : RF := ⟨ETH_CFG, 29, 16⟩
def ETH_CFG.PRP_EN : RF := ⟨ETH_CFG, 12, 12⟩
def ETH_CFG.STATION : RF := ⟨ETH_CFG, 11, 11⟩
def ETH_CFG.UNTAG_OK : RF := ⟨ETH_CFG, 10, 10⟩
def ETH_CFG.FEC : RF := ⟨ETH_CFG, 9, 8⟩
def ETH_CFG.MODE : RF := ⟨ETH_CFG, 2, 0⟩
def ETH_STATUS : RegDef := ⟨"ETH_STATUS", 0x040004, 8, 0x2000, none, [⟨"CFG_ERR", 31, 31, .w1c, 0x0⟩, ⟨"PRP_MIS", 30, 30, .ro, 0x0⟩, ⟨"FEC_LOCK", 3, 3, .ro, 0x0⟩, ⟨"BLOCK_LOCK", 2, 2, .ro, 0x0⟩, ⟨"AN_DONE", 1, 1, .ro, 0x0⟩, ⟨"LINK", 0, 0, .ro, 0x0⟩]⟩
def ETH_STATUS.CFG_ERR : RF := ⟨ETH_STATUS, 31, 31⟩
def ETH_STATUS.PRP_MIS : RF := ⟨ETH_STATUS, 30, 30⟩
def ETH_STATUS.FEC_LOCK : RF := ⟨ETH_STATUS, 3, 3⟩
def ETH_STATUS.BLOCK_LOCK : RF := ⟨ETH_STATUS, 2, 2⟩
def ETH_STATUS.AN_DONE : RF := ⟨ETH_STATUS, 1, 1⟩
def ETH_STATUS.LINK : RF := ⟨ETH_STATUS, 0, 0⟩
def ETH_MAC_LO : RegDef := ⟨"ETH_MAC_LO", 0x040008, 8, 0x2000, none, [⟨"MAC_LO", 31, 0, .rw, 0x0⟩]⟩
def ETH_MAC_LO.MAC_LO : RF := ⟨ETH_MAC_LO, 31, 0⟩
def ETH_MAC_HI : RegDef := ⟨"ETH_MAC_HI", 0x04000C, 8, 0x2000, none, [⟨"MAC_HI", 15, 0, .rw, 0x0⟩]⟩
def ETH_MAC_HI.MAC_HI : RF := ⟨ETH_MAC_HI, 15, 0⟩
def ETH_FIFO : RegDef := ⟨"ETH_FIFO", 0x040010, 8, 0x2000, none, [⟨"HWM", 28, 16, .rc, 0x0⟩, ⟨"LEVEL", 12, 0, .ro, 0x0⟩]⟩
def ETH_FIFO.HWM : RF := ⟨ETH_FIFO, 28, 16⟩
def ETH_FIFO.LEVEL : RF := ⟨ETH_FIFO, 12, 0⟩
def ETH_HALF : RegDef := ⟨"ETH_HALF", 0x040014, 8, 0x2000, none, [⟨"OCTETS", 15, 15, .w1c, 0x0⟩, ⟨"CNT", 12, 0, .w1c, 0x0⟩]⟩
def ETH_HALF.OCTETS : RF := ⟨ETH_HALF, 15, 15⟩
def ETH_HALF.CNT : RF := ⟨ETH_HALF, 12, 0⟩
def ETH_HALF_IE : RegDef := ⟨"ETH_HALF_IE", 0x040018, 8, 0x2000, none, [⟨"OCTETS", 15, 15, .rw, 0x0⟩, ⟨"CNT", 12, 0, .rw, 0x0⟩]⟩
def ETH_HALF_IE.OCTETS : RF := ⟨ETH_HALF_IE, 15, 15⟩
def ETH_HALF_IE.CNT : RF := ⟨ETH_HALF_IE, 12, 0⟩
def ETH_TX_HALF : RegDef := ⟨"ETH_TX_HALF", 0x040800, 8, 0x2000, none, [⟨"CNT", 3, 0, .w1c, 0x0⟩]⟩
def ETH_TX_HALF.CNT : RF := ⟨ETH_TX_HALF, 3, 0⟩
def ETH_TX_HALF_IE : RegDef := ⟨"ETH_TX_HALF_IE", 0x040804, 8, 0x2000, none, [⟨"CNT", 3, 0, .rw, 0x0⟩]⟩
def ETH_TX_HALF_IE.CNT : RF := ⟨ETH_TX_HALF_IE, 3, 0⟩
def ETH_PTP_CFG : RegDef := ⟨"ETH_PTP_CFG", 0x041000, 8, 0x2000, none, [⟨"EN", 31, 31, .rw, 0x0⟩, ⟨"UDP", 30, 30, .rw, 0x0⟩, ⟨"P2P", 29, 29, .rw, 0x1⟩, ⟨"ONE_STEP", 28, 28, .rw, 0x1⟩, ⟨"MASTER_ONLY", 27, 27, .rw, 0x0⟩, ⟨"LOG_SYNC", 23, 16, .rw, 0x0⟩, ⟨"LOG_ANN", 15, 8, .rw, 0x0⟩, ⟨"LOG_PDELAY", 7, 0, .rw, 0x0⟩]⟩
def ETH_PTP_CFG.EN : RF := ⟨ETH_PTP_CFG, 31, 31⟩
def ETH_PTP_CFG.UDP : RF := ⟨ETH_PTP_CFG, 30, 30⟩
def ETH_PTP_CFG.P2P : RF := ⟨ETH_PTP_CFG, 29, 29⟩
def ETH_PTP_CFG.ONE_STEP : RF := ⟨ETH_PTP_CFG, 28, 28⟩
def ETH_PTP_CFG.MASTER_ONLY : RF := ⟨ETH_PTP_CFG, 27, 27⟩
def ETH_PTP_CFG.LOG_SYNC : RF := ⟨ETH_PTP_CFG, 23, 16⟩
def ETH_PTP_CFG.LOG_ANN : RF := ⟨ETH_PTP_CFG, 15, 8⟩
def ETH_PTP_CFG.LOG_PDELAY : RF := ⟨ETH_PTP_CFG, 7, 0⟩
def ETH_PTP_STAT : RegDef := ⟨"ETH_PTP_STAT", 0x041004, 8, 0x2000, none, [⟨"CFG_ERR", 31, 31, .w1c, 0x0⟩, ⟨"PSTATE", 30, 28, .ro, 0x0⟩]⟩
def ETH_PTP_STAT.CFG_ERR : RF := ⟨ETH_PTP_STAT, 31, 31⟩
def ETH_PTP_STAT.PSTATE : RF := ⟨ETH_PTP_STAT, 30, 28⟩
def ETH_PTP_DELAY : RegDef := ⟨"ETH_PTP_DELAY", 0x041008, 8, 0x2000, none, [⟨"DELAY", 31, 0, .ro, 0x0⟩]⟩
def ETH_PTP_DELAY.DELAY : RF := ⟨ETH_PTP_DELAY, 31, 0⟩
def ETH_PTP_LAT : RegDef := ⟨"ETH_PTP_LAT", 0x04100C, 8, 0x2000, none, [⟨"RX_ADJ", 31, 16, .rw, 0x0⟩, ⟨"TX_ADJ", 15, 0, .rw, 0x0⟩]⟩
def ETH_PTP_LAT.RX_ADJ : RF := ⟨ETH_PTP_LAT, 31, 16⟩
def ETH_PTP_LAT.TX_ADJ : RF := ⟨ETH_PTP_LAT, 15, 0⟩
def ETH_TXTS_STAT : RegDef := ⟨"ETH_TXTS_STAT", 0x041010, 8, 0x2000, none, [⟨"OVF", 31, 31, .w1c, 0x0⟩, ⟨"LEVEL", 4, 0, .ro, 0x0⟩]⟩
def ETH_TXTS_STAT.OVF : RF := ⟨ETH_TXTS_STAT, 31, 31⟩
def ETH_TXTS_STAT.LEVEL : RF := ⟨ETH_TXTS_STAT, 4, 0⟩
def ETH_TXTS_ID : RegDef := ⟨"ETH_TXTS_ID", 0x041014, 8, 0x2000, none, [⟨"VALID", 31, 31, .ro, 0x0⟩, ⟨"ID", 15, 0, .ro, 0x0⟩]⟩
def ETH_TXTS_ID.VALID : RF := ⟨ETH_TXTS_ID, 31, 31⟩
def ETH_TXTS_ID.ID : RF := ⟨ETH_TXTS_ID, 15, 0⟩
def ETH_TXTS_NS : RegDef := ⟨"ETH_TXTS_NS", 0x041018, 8, 0x2000, none, [⟨"NS", 29, 0, .ro, 0x0⟩]⟩
def ETH_TXTS_NS.NS : RF := ⟨ETH_TXTS_NS, 29, 0⟩
def ETH_TXTS_SEC : RegDef := ⟨"ETH_TXTS_SEC", 0x04101C, 8, 0x2000, none, [⟨"SEC", 31, 0, .ro, 0x0⟩]⟩
def ETH_TXTS_SEC.SEC : RF := ⟨ETH_TXTS_SEC, 31, 0⟩
def ETH_TXTS_POP : RegDef := ⟨"ETH_TXTS_POP", 0x041020, 8, 0x2000, none, [⟨"GO", 31, 31, .wo, 0x0⟩]⟩
def ETH_TXTS_POP.GO : RF := ⟨ETH_TXTS_POP, 31, 31⟩
def ING_L4PORT : RegDef := ⟨"ING_L4PORT", 0x060000, 1, 0x0, none, [⟨"TCP_PMU", 31, 16, .rw, 0x1268⟩, ⟨"UDP_C37", 15, 0, .rw, 0x1269⟩]⟩
def ING_L4PORT.TCP_PMU : RF := ⟨ING_L4PORT, 31, 16⟩
def ING_L4PORT.UDP_C37 : RF := ⟨ING_L4PORT, 15, 0⟩
def ING_SV_UNITS : RegDef := ⟨"ING_SV_UNITS", 0x060004, 1, 0x0, none, [⟨"USED", 8, 0, .ro, 0x0⟩]⟩
def ING_SV_UNITS.USED : RF := ⟨ING_SV_UNITS, 8, 0⟩
def ING_CFG_LAST : RegDef := ⟨"ING_CFG_LAST", 0x060008, 1, 0x0, none, [⟨"PEND", 31, 31, .w1c, 0x0⟩, ⟨"STREAM", 17, 0, .ro, 0x0⟩]⟩
def ING_CFG_LAST.PEND : RF := ⟨ING_CFG_LAST, 31, 31⟩
def ING_CFG_LAST.STREAM : RF := ⟨ING_CFG_LAST, 17, 0⟩
def ING_HALF : RegDef := ⟨"ING_HALF", 0x060010, 1, 0x0, none, [⟨"CNT", 17, 0, .w1c, 0x0⟩]⟩
def ING_HALF.CNT : RF := ⟨ING_HALF, 17, 0⟩
def ING_HALF_IE : RegDef := ⟨"ING_HALF_IE", 0x060014, 1, 0x0, none, [⟨"CNT", 17, 0, .rw, 0x0⟩]⟩
def ING_HALF_IE.CNT : RF := ⟨ING_HALF_IE, 17, 0⟩
def PFA_ADAPT : RegDef := ⟨"PFA_ADAPT", 0x080000, 1, 0x0, none, [⟨"INIT", 31, 31, .rw, 0x1⟩, ⟨"STEP", 23, 16, .rw, 0x10⟩, ⟨"MARGIN_US", 15, 0, .rw, 0x1F4⟩]⟩
def PFA_ADAPT.INIT : RF := ⟨PFA_ADAPT, 31, 31⟩
def PFA_ADAPT.STEP : RF := ⟨PFA_ADAPT, 23, 16⟩
def PFA_ADAPT.MARGIN_US : RF := ⟨PFA_ADAPT, 15, 0⟩
def PFA_HEAT_SEL : RegDef := ⟨"PFA_HEAT_SEL", 0x080010, 1, 0x0, none, [⟨"HEAT", 9, 0, .rw, 0x0⟩]⟩
def PFA_HEAT_SEL.HEAT : RF := ⟨PFA_HEAT_SEL, 9, 0⟩
def PFA_WIN_CMD : RegDef := ⟨"PFA_WIN_CMD", 0x080014, 1, 0x0, none, [⟨"OP", 31, 28, .wo, 0x0⟩, ⟨"VALUE_US", 23, 0, .wo, 0x0⟩]⟩
def PFA_WIN_CMD.OP : RF := ⟨PFA_WIN_CMD, 31, 28⟩
def PFA_WIN_CMD.VALUE_US : RF := ⟨PFA_WIN_CMD, 23, 0⟩
def PFA_WIN_STAT : RegDef := ⟨"PFA_WIN_STAT", 0x080018, 1, 0x0, none, [⟨"BUSY", 31, 31, .ro, 0x0⟩, ⟨"ERR", 30, 30, .w1c, 0x0⟩, ⟨"ECODE", 29, 27, .ro, 0x0⟩]⟩
def PFA_WIN_STAT.BUSY : RF := ⟨PFA_WIN_STAT, 31, 31⟩
def PFA_WIN_STAT.ERR : RF := ⟨PFA_WIN_STAT, 30, 30⟩
def PFA_WIN_STAT.ECODE : RF := ⟨PFA_WIN_STAT, 29, 27⟩
def PFA_HEAT_WIN : RegDef := ⟨"PFA_HEAT_WIN", 0x080020, 1, 0x0, some 0x080010, [⟨"FIXED", 31, 31, .ro, 0x0⟩, ⟨"CLAMP_HI", 30, 30, .ro, 0x0⟩, ⟨"CLAMP_LO", 29, 29, .ro, 0x0⟩, ⟨"LATE_RISK", 28, 28, .ro, 0x0⟩, ⟨"WIN_US", 23, 0, .ro, 0x0⟩]⟩
def PFA_HEAT_WIN.FIXED : RF := ⟨PFA_HEAT_WIN, 31, 31⟩
def PFA_HEAT_WIN.CLAMP_HI : RF := ⟨PFA_HEAT_WIN, 30, 30⟩
def PFA_HEAT_WIN.CLAMP_LO : RF := ⟨PFA_HEAT_WIN, 29, 29⟩
def PFA_HEAT_WIN.LATE_RISK : RF := ⟨PFA_HEAT_WIN, 28, 28⟩
def PFA_HEAT_WIN.WIN_US : RF := ⟨PFA_HEAT_WIN, 23, 0⟩
def PFA_HEAT_EST : RegDef := ⟨"PFA_HEAT_EST", 0x080024, 1, 0x0, some 0x080010, [⟨"EST_US", 23, 0, .ro, 0x0⟩]⟩
def PFA_HEAT_EST.EST_US : RF := ⟨PFA_HEAT_EST, 23, 0⟩
def PFA_HEAT_RISK : RegDef := ⟨"PFA_HEAT_RISK", 0x080028, 1, 0x0, some 0x080010, [⟨"LAPS", 31, 0, .ro, 0x0⟩]⟩
def PFA_HEAT_RISK.LAPS : RF := ⟨PFA_HEAT_RISK, 31, 0⟩
def PFA_HEAT_SHORT : RegDef := ⟨"PFA_HEAT_SHORT", 0x08002C, 1, 0x0, some 0x080010, [⟨"MAX_US", 23, 0, .rc, 0x0⟩]⟩
def PFA_HEAT_SHORT.MAX_US : RF := ⟨PFA_HEAT_SHORT, 23, 0⟩
def PFA_LANE_SEL : RegDef := ⟨"PFA_LANE_SEL", 0x080030, 1, 0x0, none, [⟨"LANE", 13, 0, .rw, 0x0⟩]⟩
def PFA_LANE_SEL.LANE : RF := ⟨PFA_LANE_SEL, 13, 0⟩
def PFA_LANE_EST : RegDef := ⟨"PFA_LANE_EST", 0x080034, 1, 0x0, some 0x080030, [⟨"OBS", 31, 31, .ro, 0x0⟩, ⟨"EST_US", 23, 0, .ro, 0x0⟩]⟩
def PFA_LANE_EST.OBS : RF := ⟨PFA_LANE_EST, 31, 31⟩
def PFA_LANE_EST.EST_US : RF := ⟨PFA_LANE_EST, 23, 0⟩
def PFA_PENDQ : RegDef := ⟨"PFA_PENDQ", 0x080040, 1, 0x0, none, [⟨"HWM", 29, 16, .rc, 0x0⟩, ⟨"LEVEL", 13, 0, .ro, 0x0⟩]⟩
def PFA_PENDQ.HWM : RF := ⟨PFA_PENDQ, 29, 16⟩
def PFA_PENDQ.LEVEL : RF := ⟨PFA_PENDQ, 13, 0⟩
def PFA_STAGE : RegDef := ⟨"PFA_STAGE", 0x080044, 1, 0x0, none, [⟨"HWM", 29, 16, .rc, 0x0⟩, ⟨"LEVEL", 13, 0, .ro, 0x0⟩]⟩
def PFA_STAGE.HWM : RF := ⟨PFA_STAGE, 29, 16⟩
def PFA_STAGE.LEVEL : RF := ⟨PFA_STAGE, 13, 0⟩
def PFA_HALF : RegDef := ⟨"PFA_HALF", 0x080050, 1, 0x0, none, [⟨"CNT", 23, 0, .w1c, 0x0⟩]⟩
def PFA_HALF.CNT : RF := ⟨PFA_HALF, 23, 0⟩
def PFA_HALF_IE : RegDef := ⟨"PFA_HALF_IE", 0x080054, 1, 0x0, none, [⟨"CNT", 23, 0, .rw, 0x0⟩]⟩
def PFA_HALF_IE.CNT : RF := ⟨PFA_HALF_IE, 23, 0⟩
def PFA_SLOT_FREE : RegDef := ⟨"PFA_SLOT_FREE", 0x080100, 1, 0x0, none, [⟨"FREE", 20, 0, .ro, 0x100000⟩]⟩
def PFA_SLOT_FREE.FREE : RF := ⟨PFA_SLOT_FREE, 20, 0⟩
def SRT_CFG : RegDef := ⟨"SRT_CFG", 0x0A0000, 1, 0x0, none, [⟨"RSV", 11, 0, .rw, 0x300⟩]⟩
def SRT_CFG.RSV : RF := ⟨SRT_CFG, 11, 0⟩
def SRT_STAT : RegDef := ⟨"SRT_STAT", 0x0A0004, 1, 0x0, none, [⟨"CFG_ERR", 31, 31, .w1c, 0x0⟩, ⟨"REL_BLOCK", 30, 30, .ro, 0x0⟩, ⟨"STORE_FULL", 29, 29, .ro, 0x0⟩, ⟨"CONT_NOW", 11, 0, .ro, 0x0⟩]⟩
def SRT_STAT.CFG_ERR : RF := ⟨SRT_STAT, 31, 31⟩
def SRT_STAT.REL_BLOCK : RF := ⟨SRT_STAT, 30, 30⟩
def SRT_STAT.STORE_FULL : RF := ⟨SRT_STAT, 29, 29⟩
def SRT_STAT.CONT_NOW : RF := ⟨SRT_STAT, 11, 0⟩
def SRT_STORE : RegDef := ⟨"SRT_STORE", 0x0A0008, 1, 0x0, none, [⟨"HWM", 28, 16, .rc, 0x0⟩, ⟨"LEVEL", 12, 0, .ro, 0x0⟩]⟩
def SRT_STORE.HWM : RF := ⟨SRT_STORE, 28, 16⟩
def SRT_STORE.LEVEL : RF := ⟨SRT_STORE, 12, 0⟩
def SRT_INFLIGHT : RegDef := ⟨"SRT_INFLIGHT", 0x0A000C, 1, 0x0, none, [⟨"HWM", 25, 16, .rc, 0x0⟩, ⟨"LEVEL", 9, 0, .ro, 0x0⟩]⟩
def SRT_INFLIGHT.HWM : RF := ⟨SRT_INFLIGHT, 25, 16⟩
def SRT_INFLIGHT.LEVEL : RF := ⟨SRT_INFLIGHT, 9, 0⟩
def SRT_RDYQ : RegDef := ⟨"SRT_RDYQ", 0x0A0010, 8, 0x4, none, [⟨"HWM", 25, 16, .rc, 0x0⟩, ⟨"LEVEL", 9, 0, .ro, 0x0⟩]⟩
def SRT_RDYQ.HWM : RF := ⟨SRT_RDYQ, 25, 16⟩
def SRT_RDYQ.LEVEL : RF := ⟨SRT_RDYQ, 9, 0⟩
def SRT_DLIST : RegDef := ⟨"SRT_DLIST", 0x0A0030, 8, 0x4, none, [⟨"RSVD", 27, 16, .ro, 0x0⟩, ⟨"USED", 11, 0, .ro, 0x0⟩]⟩
def SRT_DLIST.RSVD : RF := ⟨SRT_DLIST, 27, 16⟩
def SRT_DLIST.USED : RF := ⟨SRT_DLIST, 11, 0⟩
def SRT_PIN_SEL : RegDef := ⟨"SRT_PIN_SEL", 0x0A0050, 1, 0x0, none, [⟨"CLASS", 4, 0, .rw, 0x0⟩]⟩
def SRT_PIN_SEL.CLASS : RF := ⟨SRT_PIN_SEL, 4, 0⟩
def SRT_PIN : RegDef := ⟨"SRT_PIN", 0x0A0054, 1, 0x0, some 0x0A0050, [⟨"EN", 31, 31, .rw, 0x0⟩, ⟨"MASK", 15, 0, .rw, 0x0⟩]⟩
def SRT_PIN.EN : RF := ⟨SRT_PIN, 31, 31⟩
def SRT_PIN.MASK : RF := ⟨SRT_PIN, 15, 0⟩
def SRT_UNIT_SEL : RegDef := ⟨"SRT_UNIT_SEL", 0x0A0060, 1, 0x0, none, [⟨"TYPE", 18, 16, .rw, 0x0⟩, ⟨"INDEX", 11, 0, .rw, 0x0⟩]⟩
def SRT_UNIT_SEL.TYPE : RF := ⟨SRT_UNIT_SEL, 18, 16⟩
def SRT_UNIT_SEL.INDEX : RF := ⟨SRT_UNIT_SEL, 11, 0⟩
def SRT_UNIT : RegDef := ⟨"SRT_UNIT", 0x0A0064, 1, 0x0, some 0x0A0060, [⟨"ADMIN", 31, 31, .rw, 0x0⟩, ⟨"OBS", 30, 30, .ro, 0x0⟩, ⟨"STATE", 29, 28, .ro, 0x0⟩]⟩
def SRT_UNIT.ADMIN : RF := ⟨SRT_UNIT, 31, 31⟩
def SRT_UNIT.OBS : RF := ⟨SRT_UNIT, 30, 30⟩
def SRT_UNIT.STATE : RF := ⟨SRT_UNIT, 29, 28⟩
def SRT_HALF : RegDef := ⟨"SRT_HALF", 0x0A0070, 1, 0x0, none, [⟨"CNT", 17, 0, .w1c, 0x0⟩]⟩
def SRT_HALF.CNT : RF := ⟨SRT_HALF, 17, 0⟩
def SRT_HALF_IE : RegDef := ⟨"SRT_HALF_IE", 0x0A0074, 1, 0x0, none, [⟨"CNT", 17, 0, .rw, 0x0⟩]⟩
def SRT_HALF_IE.CNT : RF := ⟨SRT_HALF_IE, 17, 0⟩
def PAC_LIB_VER : RegDef := ⟨"PAC_LIB_VER", 0x0C0000, 1, 0x0, none, [⟨"MAJOR", 31, 24, .ro, 0x0⟩, ⟨"MINOR", 23, 16, .ro, 0x0⟩, ⟨"BUILD", 15, 0, .ro, 0x0⟩]⟩
def PAC_LIB_VER.MAJOR : RF := ⟨PAC_LIB_VER, 31, 24⟩
def PAC_LIB_VER.MINOR : RF := ⟨PAC_LIB_VER, 23, 16⟩
def PAC_LIB_VER.BUILD : RF := ⟨PAC_LIB_VER, 15, 0⟩
def PAC_ENG_SEL : RegDef := ⟨"PAC_ENG_SEL", 0x0C0010, 1, 0x0, none, [⟨"ENG", 7, 0, .rw, 0x0⟩]⟩
def PAC_ENG_SEL.ENG : RF := ⟨PAC_ENG_SEL, 7, 0⟩
def PAC_ENG_STAT : RegDef := ⟨"PAC_ENG_STAT", 0x0C0014, 1, 0x0, some 0x0C0010, [⟨"HEALTH", 31, 30, .ro, 0x0⟩, ⟨"MISMATCH", 27, 24, .ro, 0x0⟩, ⟨"TASKS", 19, 16, .ro, 0x0⟩]⟩
def PAC_ENG_STAT.HEALTH : RF := ⟨PAC_ENG_STAT, 31, 30⟩
def PAC_ENG_STAT.MISMATCH : RF := ⟨PAC_ENG_STAT, 27, 24⟩
def PAC_ENG_STAT.TASKS : RF := ⟨PAC_ENG_STAT, 19, 16⟩
def PAC_ENG_LAST : RegDef := ⟨"PAC_ENG_LAST", 0x0C0018, 1, 0x0, some 0x0C0010, [⟨"SEC", 31, 0, .ro, 0x0⟩]⟩
def PAC_ENG_LAST.SEC : RF := ⟨PAC_ENG_LAST, 31, 0⟩
def PAC_ENG_CLR : RegDef := ⟨"PAC_ENG_CLR", 0x0C001C, 1, 0x0, none, [⟨"GO", 31, 31, .wo, 0x0⟩, ⟨"ENG", 7, 0, .wo, 0x0⟩]⟩
def PAC_ENG_CLR.GO : RF := ⟨PAC_ENG_CLR, 31, 31⟩
def PAC_ENG_CLR.ENG : RF := ⟨PAC_ENG_CLR, 7, 0⟩
def PAC_CLR_STAT : RegDef := ⟨"PAC_CLR_STAT", 0x0C0020, 1, 0x0, none, [⟨"BUSY", 31, 31, .ro, 0x0⟩, ⟨"PASS", 30, 30, .ro, 0x0⟩, ⟨"ERR", 29, 29, .w1c, 0x0⟩, ⟨"ENG", 7, 0, .ro, 0x0⟩]⟩
def PAC_CLR_STAT.BUSY : RF := ⟨PAC_CLR_STAT, 31, 31⟩
def PAC_CLR_STAT.PASS : RF := ⟨PAC_CLR_STAT, 30, 30⟩
def PAC_CLR_STAT.ERR : RF := ⟨PAC_CLR_STAT, 29, 29⟩
def PAC_CLR_STAT.ENG : RF := ⟨PAC_CLR_STAT, 7, 0⟩
def PAC_SUSPECT : RegDef := ⟨"PAC_SUSPECT", 0x0C0030, 3, 0x4, none, [⟨"MAP", 31, 0, .ro, 0x0⟩]⟩
def PAC_SUSPECT.MAP : RF := ⟨PAC_SUSPECT, 31, 0⟩
def PAC_QUAR : RegDef := ⟨"PAC_QUAR", 0x0C0040, 3, 0x4, none, [⟨"MAP", 31, 0, .ro, 0x0⟩]⟩
def PAC_QUAR.MAP : RF := ⟨PAC_QUAR, 31, 0⟩
def PAC_RES_INJ : RegDef := ⟨"PAC_RES_INJ", 0x0C0050, 1, 0x0, none, [⟨"ARM", 31, 31, .w1s, 0x0⟩, ⟨"NOQ", 30, 30, .rw, 0x1⟩, ⟨"UNIT", 29, 28, .rw, 0x0⟩, ⟨"ENG", 7, 0, .rw, 0x0⟩]⟩
def PAC_RES_INJ.ARM : RF := ⟨PAC_RES_INJ, 31, 31⟩
def PAC_RES_INJ.NOQ : RF := ⟨PAC_RES_INJ, 30, 30⟩
def PAC_RES_INJ.UNIT : RF := ⟨PAC_RES_INJ, 29, 28⟩
def PAC_RES_INJ.ENG : RF := ⟨PAC_RES_INJ, 7, 0⟩
def PAC_HALF : RegDef := ⟨"PAC_HALF", 0x0C0060, 1, 0x0, none, [⟨"CNT", 11, 0, .w1c, 0x0⟩]⟩
def PAC_HALF.CNT : RF := ⟨PAC_HALF, 11, 0⟩
def PAC_HALF_IE : RegDef := ⟨"PAC_HALF_IE", 0x0C0064, 1, 0x0, none, [⟨"CNT", 11, 0, .rw, 0x0⟩]⟩
def PAC_HALF_IE.CNT : RF := ⟨PAC_HALF_IE, 11, 0⟩
def OSM_CTL : RegDef := ⟨"OSM_CTL", 0x0E0000, 1, 0x0, none, [⟨"RUN", 31, 31, .rw, 0x0⟩, ⟨"INST", 11, 0, .rw, 0x0⟩]⟩
def OSM_CTL.RUN : RF := ⟨OSM_CTL, 31, 31⟩
def OSM_CTL.INST : RF := ⟨OSM_CTL, 11, 0⟩
def OSM_STAT : RegDef := ⟨"OSM_STAT", 0x0E0004, 1, 0x0, none, [⟨"STATE", 31, 30, .ro, 0x0⟩, ⟨"REASON", 29, 27, .ro, 0x0⟩, ⟨"ERR", 26, 26, .w1c, 0x0⟩, ⟨"ECODE", 25, 23, .ro, 0x0⟩]⟩
def OSM_STAT.STATE : RF := ⟨OSM_STAT, 31, 30⟩
def OSM_STAT.REASON : RF := ⟨OSM_STAT, 29, 27⟩
def OSM_STAT.ERR : RF := ⟨OSM_STAT, 26, 26⟩
def OSM_STAT.ECODE : RF := ⟨OSM_STAT, 25, 23⟩
def OSM_DDR : RegDef := ⟨"OSM_DDR", 0x0E0008, 1, 0x0, none, [⟨"VALID", 31, 31, .rw, 0x0⟩, ⟨"BASE", 6, 0, .rw, 0x0⟩]⟩
def OSM_DDR.VALID : RF := ⟨OSM_DDR, 31, 31⟩
def OSM_DDR.BASE : RF := ⟨OSM_DDR, 6, 0⟩
def OSM_SAMPLE_LO : RegDef := ⟨"OSM_SAMPLE_LO", 0x0E0010, 1, 0x0, none, [⟨"K", 31, 0, .ro, 0x0⟩]⟩
def OSM_SAMPLE_LO.K : RF := ⟨OSM_SAMPLE_LO, 31, 0⟩
def OSM_SAMPLE_HI : RegDef := ⟨"OSM_SAMPLE_HI", 0x0E0014, 1, 0x0, none, [⟨"K", 31, 0, .ro, 0x0⟩]⟩
def OSM_SAMPLE_HI.K : RF := ⟨OSM_SAMPLE_HI, 31, 0⟩
def OSM_START_LO : RegDef := ⟨"OSM_START_LO", 0x0E0018, 1, 0x0, none, [⟨"K", 31, 0, .ro, 0x0⟩]⟩
def OSM_START_LO.K : RF := ⟨OSM_START_LO, 31, 0⟩
def OSM_START_HI : RegDef := ⟨"OSM_START_HI", 0x0E001C, 1, 0x0, none, [⟨"K", 31, 0, .ro, 0x0⟩]⟩
def OSM_START_HI.K : RF := ⟨OSM_START_HI, 31, 0⟩
def OSM_SHAPE : RegDef := ⟨"OSM_SHAPE", 0x0E0020, 1, 0x0, none, [⟨"BUF", 31, 31, .ro, 0x0⟩, ⟨"SEQ", 30, 0, .ro, 0x0⟩]⟩
def OSM_SHAPE.BUF : RF := ⟨OSM_SHAPE, 31, 31⟩
def OSM_SHAPE.SEQ : RF := ⟨OSM_SHAPE, 30, 0⟩
def OSM_INBUF : RegDef := ⟨"OSM_INBUF", 0x0E0024, 1, 0x0, none, [⟨"HWM", 24, 16, .rc, 0x0⟩, ⟨"LEVEL", 8, 0, .ro, 0x0⟩]⟩
def OSM_INBUF.HWM : RF := ⟨OSM_INBUF, 24, 16⟩
def OSM_INBUF.LEVEL : RF := ⟨OSM_INBUF, 8, 0⟩
def OSM_DROP : RegDef := ⟨"OSM_DROP", 0x0E0028, 1, 0x0, none, [⟨"BR_DROP", 28, 16, .ro, 0x0⟩, ⟨"SIG_DROP", 13, 0, .ro, 0x0⟩]⟩
def OSM_DROP.BR_DROP : RF := ⟨OSM_DROP, 28, 16⟩
def OSM_DROP.SIG_DROP : RF := ⟨OSM_DROP, 13, 0⟩
def OSM_HALF : RegDef := ⟨"OSM_HALF", 0x0E0030, 1, 0x0, none, [⟨"CNT", 14, 0, .w1c, 0x0⟩]⟩
def OSM_HALF.CNT : RF := ⟨OSM_HALF, 14, 0⟩
def OSM_HALF_IE : RegDef := ⟨"OSM_HALF_IE", 0x0E0034, 1, 0x0, none, [⟨"CNT", 14, 0, .rw, 0x0⟩]⟩
def OSM_HALF_IE.CNT : RF := ⟨OSM_HALF_IE, 14, 0⟩
def ISL_CTL : RegDef := ⟨"ISL_CTL", 0x0F0000, 1, 0x0, none, [⟨"INST", 11, 0, .rw, 0x0⟩]⟩
def ISL_CTL.INST : RF := ⟨ISL_CTL, 11, 0⟩
def ISL_GRAPH : RegDef := ⟨"ISL_GRAPH", 0x0F0004, 1, 0x0, none, [⟨"SWAP", 31, 31, .w1s, 0x0⟩, ⟨"ACTIVE", 30, 30, .ro, 0x0⟩, ⟨"VALID1", 29, 29, .ro, 0x0⟩, ⟨"VALID0", 28, 28, .ro, 0x0⟩, ⟨"LOAD_BANK", 27, 27, .ro, 0x1⟩]⟩
def ISL_GRAPH.SWAP : RF := ⟨ISL_GRAPH, 31, 31⟩
def ISL_GRAPH.ACTIVE : RF := ⟨ISL_GRAPH, 30, 30⟩
def ISL_GRAPH.VALID1 : RF := ⟨ISL_GRAPH, 29, 29⟩
def ISL_GRAPH.VALID0 : RF := ⟨ISL_GRAPH, 28, 28⟩
def ISL_GRAPH.LOAD_BANK : RF := ⟨ISL_GRAPH, 27, 27⟩
def ISL_STAT : RegDef := ⟨"ISL_STAT", 0x0F0008, 1, 0x0, none, [⟨"ERR", 31, 31, .w1c, 0x0⟩, ⟨"ECODE", 30, 28, .ro, 0x0⟩, ⟨"DISAGREE", 17, 17, .ro, 0x0⟩, ⟨"PENDING", 16, 16, .ro, 0x0⟩, ⟨"LIVE", 15, 0, .ro, 0x0⟩]⟩
def ISL_STAT.ERR : RF := ⟨ISL_STAT, 31, 31⟩
def ISL_STAT.ECODE : RF := ⟨ISL_STAT, 30, 28⟩
def ISL_STAT.DISAGREE : RF := ⟨ISL_STAT, 17, 17⟩
def ISL_STAT.PENDING : RF := ⟨ISL_STAT, 16, 16⟩
def ISL_STAT.LIVE : RF := ⟨ISL_STAT, 15, 0⟩
def ISL_GRAPH_BAD : RegDef := ⟨"ISL_GRAPH_BAD", 0x0F000C, 1, 0x0, none, [⟨"BRANCH", 31, 31, .ro, 0x0⟩, ⟨"INDEX", 16, 0, .ro, 0x0⟩]⟩
def ISL_GRAPH_BAD.BRANCH : RF := ⟨ISL_GRAPH_BAD, 31, 31⟩
def ISL_GRAPH_BAD.INDEX : RF := ⟨ISL_GRAPH_BAD, 16, 0⟩
def ISL_GRAPH_LAP_LO : RegDef := ⟨"ISL_GRAPH_LAP_LO", 0x0F0010, 1, 0x0, none, [⟨"LAPSEQ", 31, 0, .ro, 0x0⟩]⟩
def ISL_GRAPH_LAP_LO.LAPSEQ : RF := ⟨ISL_GRAPH_LAP_LO, 31, 0⟩
def ISL_GRAPH_LAP_HI : RegDef := ⟨"ISL_GRAPH_LAP_HI", 0x0F0014, 1, 0x0, none, [⟨"LAPSEQ", 31, 0, .ro, 0x0⟩]⟩
def ISL_GRAPH_LAP_HI.LAPSEQ : RF := ⟨ISL_GRAPH_LAP_HI, 31, 0⟩
def ISL_MAP_LAP_LO : RegDef := ⟨"ISL_MAP_LAP_LO", 0x0F0018, 1, 0x0, none, [⟨"LAPSEQ", 31, 0, .ro, 0x0⟩]⟩
def ISL_MAP_LAP_LO.LAPSEQ : RF := ⟨ISL_MAP_LAP_LO, 31, 0⟩
def ISL_MAP_LAP_HI : RegDef := ⟨"ISL_MAP_LAP_HI", 0x0F001C, 1, 0x0, none, [⟨"LAPSEQ", 31, 0, .ro, 0x0⟩]⟩
def ISL_MAP_LAP_HI.LAPSEQ : RF := ⟨ISL_MAP_LAP_HI, 31, 0⟩
def ISL_MAP : RegDef := ⟨"ISL_MAP", 0x0F0020, 1, 0x0, none, [⟨"BUF", 31, 31, .ro, 0x0⟩, ⟨"SEQ", 30, 0, .ro, 0x0⟩]⟩
def ISL_MAP.BUF : RF := ⟨ISL_MAP, 31, 31⟩
def ISL_MAP.SEQ : RF := ⟨ISL_MAP, 30, 0⟩
def ISL_HALF : RegDef := ⟨"ISL_HALF", 0x0F0030, 1, 0x0, none, [⟨"CNT", 12, 0, .w1c, 0x0⟩]⟩
def ISL_HALF.CNT : RF := ⟨ISL_HALF, 12, 0⟩
def ISL_HALF_IE : RegDef := ⟨"ISL_HALF_IE", 0x0F0034, 1, 0x0, none, [⟨"CNT", 12, 0, .rw, 0x0⟩]⟩
def ISL_HALF_IE.CNT : RF := ⟨ISL_HALF_IE, 12, 0⟩
def ALM_CFG : RegDef := ⟨"ALM_CFG", 0x100000, 1, 0x0, none, [⟨"EN", 31, 31, .rw, 0x0⟩, ⟨"RING", 5, 0, .rw, 0x0⟩]⟩
def ALM_CFG.EN : RF := ⟨ALM_CFG, 31, 31⟩
def ALM_CFG.RING : RF := ⟨ALM_CFG, 5, 0⟩
def ALM_STAT : RegDef := ⟨"ALM_STAT", 0x100004, 1, 0x0, none, [⟨"ERR", 31, 31, .w1c, 0x0⟩, ⟨"ECODE", 30, 28, .ro, 0x0⟩]⟩
def ALM_STAT.ERR : RF := ⟨ALM_STAT, 31, 31⟩
def ALM_STAT.ECODE : RF := ⟨ALM_STAT, 30, 28⟩
def ALM_HSEL : RegDef := ⟨"ALM_HSEL", 0x100008, 1, 0x0, none, [⟨"HURDLE", 12, 0, .rw, 0x0⟩]⟩
def ALM_HSEL.HURDLE : RF := ⟨ALM_HSEL, 12, 0⟩
def ALM_THR_VAL : RegDef := ⟨"ALM_THR_VAL", 0x10000C, 1, 0x0, none, [⟨"VALUE", 31, 0, .rw, 0x0⟩]⟩
def ALM_THR_VAL.VALUE : RF := ⟨ALM_THR_VAL, 31, 0⟩
def ALM_THR_CMD : RegDef := ⟨"ALM_THR_CMD", 0x100010, 1, 0x0, none, [⟨"OP", 31, 28, .wo, 0x0⟩]⟩
def ALM_THR_CMD.OP : RF := ⟨ALM_THR_CMD, 31, 28⟩
def ALM_HSTATE : RegDef := ⟨"ALM_HSTATE", 0x100014, 1, 0x0, some 0x100008, [⟨"P_ACT", 31, 31, .ro, 0x0⟩, ⟨"F_ACT", 30, 30, .ro, 0x0⟩, ⟨"CONF", 29, 29, .ro, 0x0⟩, ⟨"PROV_CNT", 23, 16, .ro, 0x0⟩, ⟨"ON_CNT", 15, 8, .ro, 0x0⟩, ⟨"OFF_CNT", 7, 0, .ro, 0x0⟩]⟩
def ALM_HSTATE.P_ACT : RF := ⟨ALM_HSTATE, 31, 31⟩
def ALM_HSTATE.F_ACT : RF := ⟨ALM_HSTATE, 30, 30⟩
def ALM_HSTATE.CONF : RF := ⟨ALM_HSTATE, 29, 29⟩
def ALM_HSTATE.PROV_CNT : RF := ⟨ALM_HSTATE, 23, 16⟩
def ALM_HSTATE.ON_CNT : RF := ⟨ALM_HSTATE, 15, 8⟩
def ALM_HSTATE.OFF_CNT : RF := ⟨ALM_HSTATE, 7, 0⟩
def ALM_PEND : RegDef := ⟨"ALM_PEND", 0x100018, 1, 0x0, none, [⟨"RSVD", 17, 0, .ro, 0x0⟩]⟩
def ALM_PEND.RSVD : RF := ⟨ALM_PEND, 17, 0⟩
def ALM_BUF : RegDef := ⟨"ALM_BUF", 0x10001C, 1, 0x0, none, [⟨"HWM", 29, 16, .rc, 0x0⟩, ⟨"LEVEL", 13, 0, .ro, 0x0⟩]⟩
def ALM_BUF.HWM : RF := ⟨ALM_BUF, 29, 16⟩
def ALM_BUF.LEVEL : RF := ⟨ALM_BUF, 13, 0⟩
def ALM_AOUT_CFG : RegDef := ⟨"ALM_AOUT_CFG", 0x100040, 16, 0x4, none, [⟨"FORCE", 31, 30, .rw, 0x0⟩, ⟨"ACT_ON", 29, 29, .rw, 0x0⟩, ⟨"POL", 28, 28, .rw, 0x1⟩, ⟨"LATCH", 27, 27, .rw, 0x0⟩, ⟨"MIN_ON_MS", 15, 0, .rw, 0x0⟩]⟩
def ALM_AOUT_CFG.FORCE : RF := ⟨ALM_AOUT_CFG, 31, 30⟩
def ALM_AOUT_CFG.ACT_ON : RF := ⟨ALM_AOUT_CFG, 29, 29⟩
def ALM_AOUT_CFG.POL : RF := ⟨ALM_AOUT_CFG, 28, 28⟩
def ALM_AOUT_CFG.LATCH : RF := ⟨ALM_AOUT_CFG, 27, 27⟩
def ALM_AOUT_CFG.MIN_ON_MS : RF := ⟨ALM_AOUT_CFG, 15, 0⟩
def ALM_AOUT : RegDef := ⟨"ALM_AOUT", 0x100080, 1, 0x0, none, [⟨"DRV_EN", 31, 31, .ro, 0x0⟩, ⟨"LEVEL", 15, 0, .ro, 0x0⟩]⟩
def ALM_AOUT.DRV_EN : RF := ⟨ALM_AOUT, 31, 31⟩
def ALM_AOUT.LEVEL : RF := ⟨ALM_AOUT, 15, 0⟩
def ALM_AOUT_CLR : RegDef := ⟨"ALM_AOUT_CLR", 0x100084, 1, 0x0, none, [⟨"CLR", 15, 0, .wo, 0x0⟩]⟩
def ALM_AOUT_CLR.CLR : RF := ⟨ALM_AOUT_CLR, 15, 0⟩
def ALM_HALF : RegDef := ⟨"ALM_HALF", 0x100090, 1, 0x0, none, [⟨"CNT", 9, 0, .w1c, 0x0⟩]⟩
def ALM_HALF.CNT : RF := ⟨ALM_HALF, 9, 0⟩
def ALM_HALF_IE : RegDef := ⟨"ALM_HALF_IE", 0x100094, 1, 0x0, none, [⟨"CNT", 9, 0, .rw, 0x0⟩]⟩
def ALM_HALF_IE.CNT : RF := ⟨ALM_HALF_IE, 9, 0⟩
def EGR_CFG : RegDef := ⟨"EGR_CFG", 0x110000, 1, 0x0, none, [⟨"TCP_PORT", 31, 16, .rw, 0x1268⟩, ⟨"UDP_SRC", 15, 0, .rw, 0x1269⟩]⟩
def EGR_CFG.TCP_PORT : RF := ⟨EGR_CFG, 31, 16⟩
def EGR_CFG.UDP_SRC : RF := ⟨EGR_CFG, 15, 0⟩
def EGR_ON_LO : RegDef := ⟨"EGR_ON_LO", 0x110008, 1, 0x0, none, [⟨"ON", 31, 0, .ro, 0x0⟩]⟩
def EGR_ON_LO.ON : RF := ⟨EGR_ON_LO, 31, 0⟩
def EGR_ON_HI : RegDef := ⟨"EGR_ON_HI", 0x11000C, 1, 0x0, none, [⟨"ON", 31, 0, .ro, 0x0⟩]⟩
def EGR_ON_HI.ON : RF := ⟨EGR_ON_HI, 31, 0⟩
def EGR_HALF : RegDef := ⟨"EGR_HALF", 0x110010, 1, 0x0, none, [⟨"CNT", 9, 0, .w1c, 0x0⟩]⟩
def EGR_HALF.CNT : RF := ⟨EGR_HALF, 9, 0⟩
def EGR_HALF_IE : RegDef := ⟨"EGR_HALF_IE", 0x110014, 1, 0x0, none, [⟨"CNT", 9, 0, .rw, 0x0⟩]⟩
def EGR_HALF_IE.CNT : RF := ⟨EGR_HALF_IE, 9, 0⟩
def LMF_GRP : RegDef := ⟨"LMF_GRP", 0x120000, 8, 0x4, none, [⟨"EN", 31, 31, .rw, 0x0⟩, ⟨"EDGE", 30, 30, .rw, 0x0⟩]⟩
def LMF_GRP.EN : RF := ⟨LMF_GRP, 31, 31⟩
def LMF_GRP.EDGE : RF := ⟨LMF_GRP, 30, 30⟩
def LMF_GSTAT : RegDef := ⟨"LMF_GSTAT", 0x120020, 1, 0x0, none, [⟨"CFG_ERR", 31, 31, .w1c, 0x0⟩]⟩
def LMF_GSTAT.CFG_ERR : RF := ⟨LMF_GSTAT, 31, 31⟩
def LMF_CH_CTL : RegDef := ⟨"LMF_CH_CTL", 0x120100, 64, 0x20, none, [⟨"RUN", 31, 31, .rw, 0x0⟩, ⟨"SEL", 3, 0, .rw, 0x0⟩]⟩
def LMF_CH_CTL.RUN : RF := ⟨LMF_CH_CTL, 31, 31⟩
def LMF_CH_CTL.SEL : RF := ⟨LMF_CH_CTL, 3, 0⟩
def LMF_CH_STAT : RegDef := ⟨"LMF_CH_STAT", 0x120104, 64, 0x20, none, [⟨"RUNNING", 31, 31, .ro, 0x0⟩, ⟨"FADING", 30, 30, .ro, 0x0⟩, ⟨"QUEUED", 29, 29, .ro, 0x0⟩, ⟨"RAM_OK", 28, 28, .ro, 0x0⟩, ⟨"FAULT", 27, 27, .ro, 0x0⟩, ⟨"ERR", 26, 26, .w1c, 0x0⟩, ⟨"ECODE", 25, 23, .ro, 0x0⟩, ⟨"ACTIVE", 19, 16, .ro, 0x0⟩, ⟨"QSEL", 15, 12, .ro, 0x0⟩, ⟨"UNSET", 8, 0, .ro, 0x0⟩]⟩
def LMF_CH_STAT.RUNNING : RF := ⟨LMF_CH_STAT, 31, 31⟩
def LMF_CH_STAT.FADING : RF := ⟨LMF_CH_STAT, 30, 30⟩
def LMF_CH_STAT.QUEUED : RF := ⟨LMF_CH_STAT, 29, 29⟩
def LMF_CH_STAT.RAM_OK : RF := ⟨LMF_CH_STAT, 28, 28⟩
def LMF_CH_STAT.FAULT : RF := ⟨LMF_CH_STAT, 27, 27⟩
def LMF_CH_STAT.ERR : RF := ⟨LMF_CH_STAT, 26, 26⟩
def LMF_CH_STAT.ECODE : RF := ⟨LMF_CH_STAT, 25, 23⟩
def LMF_CH_STAT.ACTIVE : RF := ⟨LMF_CH_STAT, 19, 16⟩
def LMF_CH_STAT.QSEL : RF := ⟨LMF_CH_STAT, 15, 12⟩
def LMF_CH_STAT.UNSET : RF := ⟨LMF_CH_STAT, 8, 0⟩
def LMF_CH_SCALE : RegDef := ⟨"LMF_CH_SCALE", 0x120108, 64, 0x20, none, [⟨"SCALE", 31, 0, .rw, 0x3F800000⟩]⟩
def LMF_CH_SCALE.SCALE : RF := ⟨LMF_CH_SCALE, 31, 0⟩
def LMF_CH_OFFSET : RegDef := ⟨"LMF_CH_OFFSET", 0x12010C, 64, 0x20, none, [⟨"OFFSET", 31, 0, .rw, 0x0⟩]⟩
def LMF_CH_OFFSET.OFFSET : RF := ⟨LMF_CH_OFFSET, 31, 0⟩
def LMF_CH_DLY : RegDef := ⟨"LMF_CH_DLY", 0x120110, 64, 0x20, none, [⟨"EXT_DLY_NS", 15, 0, .rw, 0x0⟩]⟩
def LMF_CH_DLY.EXT_DLY_NS : RF := ⟨LMF_CH_DLY, 15, 0⟩
def LMF_HALF : RegDef := ⟨"LMF_HALF", 0x120900, 1, 0x0, none, [⟨"CNT", 7, 0, .w1c, 0x0⟩]⟩
def LMF_HALF.CNT : RF := ⟨LMF_HALF, 7, 0⟩
def LMF_HALF_IE : RegDef := ⟨"LMF_HALF_IE", 0x120904, 1, 0x0, none, [⟨"CNT", 7, 0, .rw, 0x0⟩]⟩
def LMF_HALF_IE.CNT : RF := ⟨LMF_HALF_IE, 7, 0⟩
def ACQ_DDR : RegDef := ⟨"ACQ_DDR", 0x130000, 1, 0x0, none, [⟨"VALID", 31, 31, .rw, 0x0⟩, ⟨"SIZE", 11, 8, .rw, 0x1⟩, ⟨"BASE", 6, 0, .rw, 0x0⟩]⟩
def ACQ_DDR.VALID : RF := ⟨ACQ_DDR, 31, 31⟩
def ACQ_DDR.SIZE : RF := ⟨ACQ_DDR, 11, 8⟩
def ACQ_DDR.BASE : RF := ⟨ACQ_DDR, 6, 0⟩
def ACQ_STAT : RegDef := ⟨"ACQ_STAT", 0x130004, 1, 0x0, none, [⟨"ERR", 31, 31, .w1c, 0x0⟩, ⟨"ECODE", 30, 28, .ro, 0x0⟩]⟩
def ACQ_STAT.ERR : RF := ⟨ACQ_STAT, 31, 31⟩
def ACQ_STAT.ECODE : RF := ⟨ACQ_STAT, 30, 28⟩
def ACQ_BW : RegDef := ⟨"ACQ_BW", 0x130008, 1, 0x0, none, [⟨"HWM", 31, 16, .rc, 0x0⟩, ⟨"RATE", 15, 0, .ro, 0x0⟩]⟩
def ACQ_BW.HWM : RF := ⟨ACQ_BW, 31, 16⟩
def ACQ_BW.RATE : RF := ⟨ACQ_BW, 15, 0⟩
def ACQ_SLOT_REL : RegDef := ⟨"ACQ_SLOT_REL", 0x130010, 1, 0x0, none, [⟨"GO", 31, 31, .wo, 0x0⟩, ⟨"GRP", 10, 8, .wo, 0x0⟩, ⟨"SLOT", 3, 0, .wo, 0x0⟩]⟩
def ACQ_SLOT_REL.GO : RF := ⟨ACQ_SLOT_REL, 31, 31⟩
def ACQ_SLOT_REL.GRP : RF := ⟨ACQ_SLOT_REL, 10, 8⟩
def ACQ_SLOT_REL.SLOT : RF := ⟨ACQ_SLOT_REL, 3, 0⟩
def ACQ_HALF : RegDef := ⟨"ACQ_HALF", 0x130090, 1, 0x0, none, [⟨"CNT", 9, 0, .w1c, 0x0⟩]⟩
def ACQ_HALF.CNT : RF := ⟨ACQ_HALF, 9, 0⟩
def ACQ_HALF_IE : RegDef := ⟨"ACQ_HALF_IE", 0x130094, 1, 0x0, none, [⟨"CNT", 9, 0, .rw, 0x0⟩]⟩
def ACQ_HALF_IE.CNT : RF := ⟨ACQ_HALF_IE, 9, 0⟩
def ACQ_GRP_CTL : RegDef := ⟨"ACQ_GRP_CTL", 0x130100, 8, 0x10, none, [⟨"ARM", 31, 31, .w1s, 0x0⟩, ⟨"DISARM", 30, 30, .w1s, 0x0⟩, ⟨"FORCE", 29, 29, .w1s, 0x0⟩, ⟨"AUTO", 28, 28, .rw, 0x1⟩]⟩
def ACQ_GRP_CTL.ARM : RF := ⟨ACQ_GRP_CTL, 31, 31⟩
def ACQ_GRP_CTL.DISARM : RF := ⟨ACQ_GRP_CTL, 30, 30⟩
def ACQ_GRP_CTL.FORCE : RF := ⟨ACQ_GRP_CTL, 29, 29⟩
def ACQ_GRP_CTL.AUTO : RF := ⟨ACQ_GRP_CTL, 28, 28⟩
def ACQ_GRP_STAT : RegDef := ⟨"ACQ_GRP_STAT", 0x130104, 8, 0x10, none, [⟨"STATE", 31, 29, .ro, 0x0⟩, ⟨"CUR_SLOT", 27, 24, .ro, 0x0⟩, ⟨"FREE", 20, 16, .ro, 0x0⟩, ⟨"DONE", 15, 0, .ro, 0x0⟩]⟩
def ACQ_GRP_STAT.STATE : RF := ⟨ACQ_GRP_STAT, 31, 29⟩
def ACQ_GRP_STAT.CUR_SLOT : RF := ⟨ACQ_GRP_STAT, 27, 24⟩
def ACQ_GRP_STAT.FREE : RF := ⟨ACQ_GRP_STAT, 20, 16⟩
def ACQ_GRP_STAT.DONE : RF := ⟨ACQ_GRP_STAT, 15, 0⟩
def ACQ_GRP_CAP : RegDef := ⟨"ACQ_GRP_CAP", 0x130108, 8, 0x10, none, [⟨"CAP_MS", 23, 0, .ro, 0x0⟩]⟩
def ACQ_GRP_CAP.CAP_MS : RF := ⟨ACQ_GRP_CAP, 23, 0⟩
def NRG_CFG : RegDef := ⟨"NRG_CFG", 0x140000, 1, 0x0, none, [⟨"EN", 31, 31, .rw, 0x0⟩, ⟨"RING", 5, 0, .rw, 0x0⟩]⟩
def NRG_CFG.EN : RF := ⟨NRG_CFG, 31, 31⟩
def NRG_CFG.RING : RF := ⟨NRG_CFG, 5, 0⟩
def NRG_STAT : RegDef := ⟨"NRG_STAT", 0x140004, 1, 0x0, none, [⟨"ERR", 31, 31, .w1c, 0x0⟩, ⟨"ECODE", 30, 28, .ro, 0x0⟩, ⟨"RESTORED", 27, 27, .ro, 0x0⟩, ⟨"RESTORE_FAIL", 26, 26, .ro, 0x0⟩, ⟨"POINTS", 9, 0, .ro, 0x0⟩]⟩
def NRG_STAT.ERR : RF := ⟨NRG_STAT, 31, 31⟩
def NRG_STAT.ECODE : RF := ⟨NRG_STAT, 30, 28⟩
def NRG_STAT.RESTORED : RF := ⟨NRG_STAT, 27, 27⟩
def NRG_STAT.RESTORE_FAIL : RF := ⟨NRG_STAT, 26, 26⟩
def NRG_STAT.POINTS : RF := ⟨NRG_STAT, 9, 0⟩
def NRG_SNAP_CTL : RegDef := ⟨"NRG_SNAP_CTL", 0x140010, 1, 0x0, none, [⟨"GO", 31, 31, .wo, 0x0⟩, ⟨"POINT", 8, 0, .wo, 0x0⟩]⟩
def NRG_SNAP_CTL.GO : RF := ⟨NRG_SNAP_CTL, 31, 31⟩
def NRG_SNAP_CTL.POINT : RF := ⟨NRG_SNAP_CTL, 8, 0⟩
def NRG_SNAP_STAT : RegDef := ⟨"NRG_SNAP_STAT", 0x140014, 1, 0x0, none, [⟨"READY", 31, 31, .ro, 0x0⟩, ⟨"SEQ", 15, 0, .ro, 0x0⟩]⟩
def NRG_SNAP_STAT.READY : RF := ⟨NRG_SNAP_STAT, 31, 31⟩
def NRG_SNAP_STAT.SEQ : RF := ⟨NRG_SNAP_STAT, 15, 0⟩
def NRG_SNAP_REL : RegDef := ⟨"NRG_SNAP_REL", 0x140018, 1, 0x0, none, [⟨"SEQ", 15, 0, .wo, 0x0⟩]⟩
def NRG_SNAP_REL.SEQ : RF := ⟨NRG_SNAP_REL, 15, 0⟩
def NRG_SNAP_DATA : RegDef := ⟨"NRG_SNAP_DATA", 0x140020, 16, 0x4, none, [⟨"DATA", 31, 0, .ro, 0x0⟩]⟩
def NRG_SNAP_DATA.DATA : RF := ⟨NRG_SNAP_DATA, 31, 0⟩
def NRG_PI_CFG : RegDef := ⟨"NRG_PI_CFG", 0x140100, 32, 0x4, none, [⟨"EN", 31, 31, .rw, 0x0⟩, ⟨"EDGE", 30, 30, .rw, 0x0⟩, ⟨"DEB_US", 15, 0, .rw, 0x1388⟩]⟩
def NRG_PI_CFG.EN : RF := ⟨NRG_PI_CFG, 31, 31⟩
def NRG_PI_CFG.EDGE : RF := ⟨NRG_PI_CFG, 30, 30⟩
def NRG_PI_CFG.DEB_US : RF := ⟨NRG_PI_CFG, 15, 0⟩
def NRG_PI_LEVEL : RegDef := ⟨"NRG_PI_LEVEL", 0x140180, 1, 0x0, none, [⟨"LEVEL", 31, 0, .ro, 0x0⟩]⟩
def NRG_PI_LEVEL.LEVEL : RF := ⟨NRG_PI_LEVEL, 31, 0⟩
def NRG_PO_CFG : RegDef := ⟨"NRG_PO_CFG", 0x140200, 32, 0x8, none, [⟨"EN", 31, 31, .rw, 0x0⟩, ⟨"QTY", 30, 28, .rw, 0x0⟩, ⟨"PW_MS", 23, 16, .rw, 0x14⟩, ⟨"POINT", 8, 0, .rw, 0x0⟩]⟩
def NRG_PO_CFG.EN : RF := ⟨NRG_PO_CFG, 31, 31⟩
def NRG_PO_CFG.QTY : RF := ⟨NRG_PO_CFG, 30, 28⟩
def NRG_PO_CFG.PW_MS : RF := ⟨NRG_PO_CFG, 23, 16⟩
def NRG_PO_CFG.POINT : RF := ⟨NRG_PO_CFG, 8, 0⟩
def NRG_PO_Q : RegDef := ⟨"NRG_PO_Q", 0x140204, 32, 0x8, none, [⟨"PQ", 31, 0, .rw, 0x3B9ACA00⟩]⟩
def NRG_PO_Q.PQ : RF := ⟨NRG_PO_Q, 31, 0⟩
def NRG_PO_PEND : RegDef := ⟨"NRG_PO_PEND", 0x140300, 32, 0x4, none, [⟨"HWM", 31, 16, .rc, 0x0⟩, ⟨"PEND", 15, 0, .ro, 0x0⟩]⟩
def NRG_PO_PEND.HWM : RF := ⟨NRG_PO_PEND, 31, 16⟩
def NRG_PO_PEND.PEND : RF := ⟨NRG_PO_PEND, 15, 0⟩
def NRG_HALF : RegDef := ⟨"NRG_HALF", 0x140400, 1, 0x0, none, [⟨"CNT", 9, 0, .w1c, 0x0⟩]⟩
def NRG_HALF.CNT : RF := ⟨NRG_HALF, 9, 0⟩
def NRG_HALF_IE : RegDef := ⟨"NRG_HALF_IE", 0x140404, 1, 0x0, none, [⟨"CNT", 9, 0, .rw, 0x0⟩]⟩
def NRG_HALF_IE.CNT : RF := ⟨NRG_HALF_IE, 9, 0⟩
def RXL_DEV : RegDef := ⟨"RXL_DEV", 0x150000, 1, 0x0, none, [⟨"FED_ID", 31, 24, .rw, 0x0⟩, ⟨"DEV", 11, 0, .rw, 0x0⟩]⟩
def RXL_DEV.FED_ID : RF := ⟨RXL_DEV, 31, 24⟩
def RXL_DEV.DEV : RF := ⟨RXL_DEV, 11, 0⟩
def RXL_CREDITS : RegDef := ⟨"RXL_CREDITS", 0x150004, 1, 0x0, none, [⟨"CREDITS", 15, 0, .rw, 0x100⟩]⟩
def RXL_CREDITS.CREDITS : RF := ⟨RXL_CREDITS, 15, 0⟩
def RXL_UDP : RegDef := ⟨"RXL_UDP", 0x150008, 1, 0x0, none, [⟨"PORT", 15, 0, .rw, 0xB7A2⟩]⟩
def RXL_UDP.PORT : RF := ⟨RXL_UDP, 15, 0⟩
def RXL_TIMING : RegDef := ⟨"RXL_TIMING", 0x15000C, 1, 0x0, none, [⟨"RTO_RXL_US", 31, 24, .rw, 0x32⟩, ⟨"RETX_MAX", 23, 20, .rw, 0x8⟩, ⟨"RTO_UDP_MS", 15, 0, .rw, 0x14⟩]⟩
def RXL_TIMING.RTO_RXL_US : RF := ⟨RXL_TIMING, 31, 24⟩
def RXL_TIMING.RETX_MAX : RF := ⟨RXL_TIMING, 23, 20⟩
def RXL_TIMING.RTO_UDP_MS : RF := ⟨RXL_TIMING, 15, 0⟩
def RXL_PORT : RegDef := ⟨"RXL_PORT", 0x150010, 4, 0x4, none, [⟨"EN", 31, 31, .rw, 0x0⟩, ⟨"PEER_OK", 3, 3, .ro, 0x0⟩, ⟨"TRAINED", 2, 2, .ro, 0x0⟩, ⟨"FEC_LOCK", 1, 1, .ro, 0x0⟩, ⟨"LOCK", 0, 0, .ro, 0x0⟩]⟩
def RXL_PORT.EN : RF := ⟨RXL_PORT, 31, 31⟩
def RXL_PORT.PEER_OK : RF := ⟨RXL_PORT, 3, 3⟩
def RXL_PORT.TRAINED : RF := ⟨RXL_PORT, 2, 2⟩
def RXL_PORT.FEC_LOCK : RF := ⟨RXL_PORT, 1, 1⟩
def RXL_PORT.LOCK : RF := ⟨RXL_PORT, 0, 0⟩
def RXL_STAT : RegDef := ⟨"RXL_STAT", 0x150020, 1, 0x0, none, [⟨"ERR", 31, 31, .w1c, 0x0⟩, ⟨"ECODE", 30, 28, .ro, 0x0⟩, ⟨"PEERS", 12, 0, .ro, 0x0⟩]⟩
def RXL_STAT.ERR : RF := ⟨RXL_STAT, 31, 31⟩
def RXL_STAT.ECODE : RF := ⟨RXL_STAT, 30, 28⟩
def RXL_STAT.PEERS : RF := ⟨RXL_STAT, 12, 0⟩
def RXL_LINK_SEL : RegDef := ⟨"RXL_LINK_SEL", 0x150030, 1, 0x0, none, [⟨"LINK", 5, 0, .rw, 0x0⟩]⟩
def RXL_LINK_SEL.LINK : RF := ⟨RXL_LINK_SEL, 5, 0⟩
def RXL_LINK_STAT : RegDef := ⟨"RXL_LINK_STAT", 0x150034, 1, 0x0, some 0x150030, [⟨"USABLE", 31, 31, .ro, 0x0⟩, ⟨"RELAY", 30, 30, .ro, 0x0⟩, ⟨"EPOCH", 29, 18, .ro, 0x0⟩, ⟨"HELD0", 17, 9, .ro, 0x0⟩, ⟨"HELD1", 8, 0, .ro, 0x0⟩]⟩
def RXL_LINK_STAT.USABLE : RF := ⟨RXL_LINK_STAT, 31, 31⟩
def RXL_LINK_STAT.RELAY : RF := ⟨RXL_LINK_STAT, 30, 30⟩
def RXL_LINK_STAT.EPOCH : RF := ⟨RXL_LINK_STAT, 29, 18⟩
def RXL_LINK_STAT.HELD0 : RF := ⟨RXL_LINK_STAT, 17, 9⟩
def RXL_LINK_STAT.HELD1 : RF := ⟨RXL_LINK_STAT, 8, 0⟩
def RXL_HALF : RegDef := ⟨"RXL_HALF", 0x150050, 1, 0x0, none, [⟨"CNT", 23, 0, .w1c, 0x0⟩]⟩
def RXL_HALF.CNT : RF := ⟨RXL_HALF, 23, 0⟩
def RXL_HALF_IE : RegDef := ⟨"RXL_HALF_IE", 0x150054, 1, 0x0, none, [⟨"CNT", 23, 0, .rw, 0x0⟩]⟩
def RXL_HALF_IE.CNT : RF := ⟨RXL_HALF_IE, 23, 0⟩
def RLY_CFG : RegDef := ⟨"RLY_CFG", 0x160000, 1, 0x0, none, [⟨"EN", 31, 31, .rw, 0x0⟩, ⟨"ROLE", 30, 30, .rw, 0x0⟩, ⟨"TAKE_UNSYNC", 29, 29, .rw, 0x0⟩, ⟨"LANE", 25, 24, .rw, 0x0⟩, ⟨"LAG_MAX_MS", 15, 0, .rw, 0xC8⟩]⟩
def RLY_CFG.EN : RF := ⟨RLY_CFG, 31, 31⟩
def RLY_CFG.ROLE : RF := ⟨RLY_CFG, 30, 30⟩
def RLY_CFG.TAKE_UNSYNC : RF := ⟨RLY_CFG, 29, 29⟩
def RLY_CFG.LANE : RF := ⟨RLY_CFG, 25, 24⟩
def RLY_CFG.LAG_MAX_MS : RF := ⟨RLY_CFG, 15, 0⟩
def RLY_STAT : RegDef := ⟨"RLY_STAT", 0x160004, 1, 0x0, none, [⟨"HOLDER", 31, 31, .ro, 0x0⟩, ⟨"DRV_EN", 30, 30, .ro, 0x0⟩, ⟨"IN_STEP", 29, 29, .ro, 0x0⟩, ⟨"PEER_TOG", 28, 28, .ro, 0x0⟩, ⟨"ERR", 27, 27, .w1c, 0x0⟩, ⟨"ECODE", 26, 24, .ro, 0x0⟩]⟩
def RLY_STAT.HOLDER : RF := ⟨RLY_STAT, 31, 31⟩
def RLY_STAT.DRV_EN : RF := ⟨RLY_STAT, 30, 30⟩
def RLY_STAT.IN_STEP : RF := ⟨RLY_STAT, 29, 29⟩
def RLY_STAT.PEER_TOG : RF := ⟨RLY_STAT, 28, 28⟩
def RLY_STAT.ERR : RF := ⟨RLY_STAT, 27, 27⟩
def RLY_STAT.ECODE : RF := ⟨RLY_STAT, 26, 24⟩
def RLY_CTL : RegDef := ⟨"RLY_CTL", 0x160008, 1, 0x0, none, [⟨"HANDOVER", 31, 31, .w1s, 0x0⟩, ⟨"RESYNC", 30, 30, .w1s, 0x0⟩]⟩
def RLY_CTL.HANDOVER : RF := ⟨RLY_CTL, 31, 31⟩
def RLY_CTL.RESYNC : RF := ⟨RLY_CTL, 30, 30⟩
def RLY_LAG : RegDef := ⟨"RLY_LAG", 0x16000C, 1, 0x0, none, [⟨"HWM", 31, 16, .rc, 0x0⟩, ⟨"LAG", 15, 0, .ro, 0x0⟩]⟩
def RLY_LAG.HWM : RF := ⟨RLY_LAG, 31, 16⟩
def RLY_LAG.LAG : RF := ⟨RLY_LAG, 15, 0⟩
def RLY_DIGEST : RegDef := ⟨"RLY_DIGEST", 0x160010, 1, 0x0, none, [⟨"CRC", 31, 0, .ro, 0x0⟩]⟩
def RLY_DIGEST.CRC : RF := ⟨RLY_DIGEST, 31, 0⟩
def RLY_HALF : RegDef := ⟨"RLY_HALF", 0x160030, 1, 0x0, none, [⟨"CNT", 6, 0, .w1c, 0x0⟩]⟩
def RLY_HALF.CNT : RF := ⟨RLY_HALF, 6, 0⟩
def RLY_HALF_IE : RegDef := ⟨"RLY_HALF_IE", 0x160034, 1, 0x0, none, [⟨"CNT", 6, 0, .rw, 0x0⟩]⟩
def RLY_HALF_IE.CNT : RF := ⟨RLY_HALF_IE, 6, 0⟩
def HIF_CFG : RegDef := ⟨"HIF_CFG", 0x170000, 1, 0x0, none, [⟨"RO_EN", 31, 31, .rw, 0x0⟩, ⟨"BLK_VEC", 6, 0, .rw, 0x0⟩]⟩
def HIF_CFG.RO_EN : RF := ⟨HIF_CFG, 31, 31⟩
def HIF_CFG.BLK_VEC : RF := ⟨HIF_CFG, 6, 0⟩
def HIF_STAT : RegDef := ⟨"HIF_STAT", 0x170004, 1, 0x0, none, [⟨"DB_ERR", 31, 31, .w1c, 0x0⟩, ⟨"CFG_ERR", 30, 30, .w1c, 0x0⟩, ⟨"LINK_UP", 29, 29, .ro, 0x0⟩]⟩
def HIF_STAT.DB_ERR : RF := ⟨HIF_STAT, 31, 31⟩
def HIF_STAT.CFG_ERR : RF := ⟨HIF_STAT, 30, 30⟩
def HIF_STAT.LINK_UP : RF := ⟨HIF_STAT, 29, 29⟩
def HIF_BLK_IRQ : RegDef := ⟨"HIF_BLK_IRQ", 0x170008, 1, 0x0, none, [⟨"BLK", 21, 0, .ro, 0x0⟩]⟩
def HIF_BLK_IRQ.BLK : RF := ⟨HIF_BLK_IRQ, 21, 0⟩
def HIF_SQ_SEL : RegDef := ⟨"HIF_SQ_SEL", 0x170010, 1, 0x0, none, [⟨"RING", 5, 0, .rw, 0x0⟩]⟩
def HIF_SQ_SEL.RING : RF := ⟨HIF_SQ_SEL, 5, 0⟩
def HIF_SQ_BASE_LO : RegDef := ⟨"HIF_SQ_BASE_LO", 0x170014, 1, 0x0, some 0x170010, [⟨"ADDR", 31, 0, .rw, 0x0⟩]⟩
def HIF_SQ_BASE_LO.ADDR : RF := ⟨HIF_SQ_BASE_LO, 31, 0⟩
def HIF_SQ_BASE_HI : RegDef := ⟨"HIF_SQ_BASE_HI", 0x170018, 1, 0x0, some 0x170010, [⟨"ADDR", 31, 0, .rw, 0x0⟩]⟩
def HIF_SQ_BASE_HI.ADDR : RF := ⟨HIF_SQ_BASE_HI, 31, 0⟩
def HIF_SQ_CFG : RegDef := ⟨"HIF_SQ_CFG", 0x17001C, 1, 0x0, some 0x170010, [⟨"EN", 31, 31, .rw, 0x0⟩, ⟨"SIZE_LOG2", 20, 16, .rw, 0x6⟩, ⟨"CHAN", 12, 8, .rw, 0x0⟩, ⟨"CQ", 5, 0, .rw, 0x0⟩]⟩
def HIF_SQ_CFG.EN : RF := ⟨HIF_SQ_CFG, 31, 31⟩
def HIF_SQ_CFG.SIZE_LOG2 : RF := ⟨HIF_SQ_CFG, 20, 16⟩
def HIF_SQ_CFG.CHAN : RF := ⟨HIF_SQ_CFG, 12, 8⟩
def HIF_SQ_CFG.CQ : RF := ⟨HIF_SQ_CFG, 5, 0⟩
def HIF_SQ_STAT : RegDef := ⟨"HIF_SQ_STAT", 0x170020, 1, 0x0, some 0x170010, [⟨"HEAD", 31, 16, .ro, 0x0⟩, ⟨"TAIL", 15, 0, .ro, 0x0⟩]⟩
def HIF_SQ_STAT.HEAD : RF := ⟨HIF_SQ_STAT, 31, 16⟩
def HIF_SQ_STAT.TAIL : RF := ⟨HIF_SQ_STAT, 15, 0⟩
def HIF_CQ_SEL : RegDef := ⟨"HIF_CQ_SEL", 0x170030, 1, 0x0, none, [⟨"RING", 5, 0, .rw, 0x0⟩]⟩
def HIF_CQ_SEL.RING : RF := ⟨HIF_CQ_SEL, 5, 0⟩
def HIF_CQ_BASE_LO : RegDef := ⟨"HIF_CQ_BASE_LO", 0x170034, 1, 0x0, some 0x170030, [⟨"ADDR", 31, 0, .rw, 0x0⟩]⟩
def HIF_CQ_BASE_LO.ADDR : RF := ⟨HIF_CQ_BASE_LO, 31, 0⟩
def HIF_CQ_BASE_HI : RegDef := ⟨"HIF_CQ_BASE_HI", 0x170038, 1, 0x0, some 0x170030, [⟨"ADDR", 31, 0, .rw, 0x0⟩]⟩
def HIF_CQ_BASE_HI.ADDR : RF := ⟨HIF_CQ_BASE_HI, 31, 0⟩
def HIF_CQ_WB_LO : RegDef := ⟨"HIF_CQ_WB_LO", 0x17003C, 1, 0x0, some 0x170030, [⟨"ADDR", 31, 0, .rw, 0x0⟩]⟩
def HIF_CQ_WB_LO.ADDR : RF := ⟨HIF_CQ_WB_LO, 31, 0⟩
def HIF_CQ_WB_HI : RegDef := ⟨"HIF_CQ_WB_HI", 0x170040, 1, 0x0, some 0x170030, [⟨"ADDR", 31, 0, .rw, 0x0⟩]⟩
def HIF_CQ_WB_HI.ADDR : RF := ⟨HIF_CQ_WB_HI, 31, 0⟩
def HIF_CQ_CFG : RegDef := ⟨"HIF_CQ_CFG", 0x170044, 1, 0x0, some 0x170030, [⟨"EN", 31, 31, .rw, 0x0⟩, ⟨"CONTENT", 30, 29, .rw, 0x0⟩, ⟨"SIZE_LOG2", 28, 24, .rw, 0x6⟩, ⟨"VEC", 22, 16, .rw, 0x0⟩, ⟨"COAL_N", 15, 8, .rw, 0x0⟩, ⟨"COAL_US", 7, 0, .rw, 0x0⟩]⟩
def HIF_CQ_CFG.EN : RF := ⟨HIF_CQ_CFG, 31, 31⟩
def HIF_CQ_CFG.CONTENT : RF := ⟨HIF_CQ_CFG, 30, 29⟩
def HIF_CQ_CFG.SIZE_LOG2 : RF := ⟨HIF_CQ_CFG, 28, 24⟩
def HIF_CQ_CFG.VEC : RF := ⟨HIF_CQ_CFG, 22, 16⟩
def HIF_CQ_CFG.COAL_N : RF := ⟨HIF_CQ_CFG, 15, 8⟩
def HIF_CQ_CFG.COAL_US : RF := ⟨HIF_CQ_CFG, 7, 0⟩
def HIF_CQ_STAT : RegDef := ⟨"HIF_CQ_STAT", 0x170048, 1, 0x0, some 0x170030, [⟨"HEAD", 31, 16, .ro, 0x0⟩, ⟨"TAIL", 15, 0, .ro, 0x0⟩]⟩
def HIF_CQ_STAT.HEAD : RF := ⟨HIF_CQ_STAT, 31, 16⟩
def HIF_CQ_STAT.TAIL : RF := ⟨HIF_CQ_STAT, 15, 0⟩
def HIF_SF_SEL : RegDef := ⟨"HIF_SF_SEL", 0x170060, 1, 0x0, none, [⟨"FIFO", 1, 0, .rw, 0x0⟩]⟩
def HIF_SF_SEL.FIFO : RF := ⟨HIF_SF_SEL, 1, 0⟩
def HIF_SF_CFG : RegDef := ⟨"HIF_SF_CFG", 0x170064, 1, 0x0, some 0x170060, [⟨"EN", 31, 31, .rw, 0x0⟩, ⟨"IDLE_US", 15, 0, .rw, 0x3E8⟩]⟩
def HIF_SF_CFG.EN : RF := ⟨HIF_SF_CFG, 31, 31⟩
def HIF_SF_CFG.IDLE_US : RF := ⟨HIF_SF_CFG, 15, 0⟩
def HIF_SF_CTL : RegDef := ⟨"HIF_SF_CTL", 0x170068, 1, 0x0, some 0x170060, [⟨"FLUSH", 31, 31, .w1s, 0x0⟩]⟩
def HIF_SF_CTL.FLUSH : RF := ⟨HIF_SF_CTL, 31, 31⟩
def HIF_SF_STAT : RegDef := ⟨"HIF_SF_STAT", 0x17006C, 1, 0x0, some 0x170060, [⟨"EMPTY", 31, 31, .ro, 0x1⟩, ⟨"FULL", 30, 30, .ro, 0x0⟩, ⟨"HWM", 27, 16, .rc, 0x0⟩, ⟨"LEVEL", 11, 0, .ro, 0x0⟩]⟩
def HIF_SF_STAT.EMPTY : RF := ⟨HIF_SF_STAT, 31, 31⟩
def HIF_SF_STAT.FULL : RF := ⟨HIF_SF_STAT, 30, 30⟩
def HIF_SF_STAT.HWM : RF := ⟨HIF_SF_STAT, 27, 16⟩
def HIF_SF_STAT.LEVEL : RF := ⟨HIF_SF_STAT, 11, 0⟩
def HIF_HALF : RegDef := ⟨"HIF_HALF", 0x170090, 1, 0x0, none, [⟨"CNT", 9, 0, .w1c, 0x0⟩]⟩
def HIF_HALF.CNT : RF := ⟨HIF_HALF, 9, 0⟩
def HIF_HALF_IE : RegDef := ⟨"HIF_HALF_IE", 0x170094, 1, 0x0, none, [⟨"CNT", 9, 0, .rw, 0x0⟩]⟩
def HIF_HALF_IE.CNT : RF := ⟨HIF_HALF_IE, 9, 0⟩
def DMA_CH_CFG : RegDef := ⟨"DMA_CH_CFG", 0x170400, 32, 0x10, none, [⟨"STOP_MODE", 31, 31, .rw, 0x1⟩]⟩
def DMA_CH_CFG.STOP_MODE : RF := ⟨DMA_CH_CFG, 31, 31⟩
def DMA_CH_CTL : RegDef := ⟨"DMA_CH_CTL", 0x170404, 32, 0x10, none, [⟨"STOP", 31, 31, .w1s, 0x0⟩, ⟨"START", 30, 30, .w1s, 0x0⟩]⟩
def DMA_CH_CTL.STOP : RF := ⟨DMA_CH_CTL, 31, 31⟩
def DMA_CH_CTL.START : RF := ⟨DMA_CH_CTL, 30, 30⟩
def DMA_CH_STAT : RegDef := ⟨"DMA_CH_STAT", 0x170408, 32, 0x10, none, [⟨"STATE", 31, 30, .ro, 0x0⟩, ⟨"SQ", 21, 16, .ro, 0x0⟩, ⟨"TAG", 15, 0, .ro, 0x0⟩]⟩
def DMA_CH_STAT.STATE : RF := ⟨DMA_CH_STAT, 31, 30⟩
def DMA_CH_STAT.SQ : RF := ⟨DMA_CH_STAT, 21, 16⟩
def DMA_CH_STAT.TAG : RF := ⟨DMA_CH_STAT, 15, 0⟩
def DMA_CH_COUNT : RegDef := ⟨"DMA_CH_COUNT", 0x17040C, 32, 0x10, none, [⟨"COUNT", 31, 0, .ro, 0x0⟩]⟩
def DMA_CH_COUNT.COUNT : RF := ⟨DMA_CH_COUNT, 31, 0⟩
def KEY_STAT : RegDef := ⟨"KEY_STAT", 0x180000, 1, 0x0, none, [⟨"BUSY", 31, 31, .ro, 0x0⟩, ⟨"ERR", 30, 30, .w1c, 0x0⟩, ⟨"ECODE", 29, 27, .ro, 0x0⟩, ⟨"PRIV", 26, 26, .ro, 0x0⟩, ⟨"LOCKOUT", 25, 25, .ro, 0x0⟩, ⟨"TAMPERED", 24, 24, .w1c, 0x0⟩, ⟨"BD_LOCK", 23, 23, .ro, 0x0⟩, ⟨"SLOTS", 6, 0, .ro, 0x0⟩]⟩
def KEY_STAT.BUSY : RF := ⟨KEY_STAT, 31, 31⟩
def KEY_STAT.ERR : RF := ⟨KEY_STAT, 30, 30⟩
def KEY_STAT.ECODE : RF := ⟨KEY_STAT, 29, 27⟩
def KEY_STAT.PRIV : RF := ⟨KEY_STAT, 26, 26⟩
def KEY_STAT.LOCKOUT : RF := ⟨KEY_STAT, 25, 25⟩
def KEY_STAT.TAMPERED : RF := ⟨KEY_STAT, 24, 24⟩
def KEY_STAT.BD_LOCK : RF := ⟨KEY_STAT, 23, 23⟩
def KEY_STAT.SLOTS : RF := ⟨KEY_STAT, 6, 0⟩
def KEY_CMD : RegDef := ⟨"KEY_CMD", 0x180004, 1, 0x0, none, [⟨"OP", 31, 28, .wo, 0x0⟩, ⟨"SLOT", 27, 22, .wo, 0x0⟩, ⟨"BD_MASK", 21, 14, .wo, 0x0⟩, ⟨"GROUP", 9, 0, .wo, 0x0⟩]⟩
def KEY_CMD.OP : RF := ⟨KEY_CMD, 31, 28⟩
def KEY_CMD.SLOT : RF := ⟨KEY_CMD, 27, 22⟩
def KEY_CMD.BD_MASK : RF := ⟨KEY_CMD, 21, 14⟩
def KEY_CMD.GROUP : RF := ⟨KEY_CMD, 9, 0⟩
def KEY_UNLOCK_HI : RegDef := ⟨"KEY_UNLOCK_HI", 0x180008, 1, 0x0, none, [⟨"TOKEN", 31, 0, .wo, 0x0⟩]⟩
def KEY_UNLOCK_HI.TOKEN : RF := ⟨KEY_UNLOCK_HI, 31, 0⟩
def KEY_UNLOCK_LO : RegDef := ⟨"KEY_UNLOCK_LO", 0x18000C, 1, 0x0, none, [⟨"TOKEN", 31, 0, .wo, 0x0⟩]⟩
def KEY_UNLOCK_LO.TOKEN : RF := ⟨KEY_UNLOCK_LO, 31, 0⟩
def KEY_DATA : RegDef := ⟨"KEY_DATA", 0x180010, 8, 0x4, none, [⟨"DATA", 31, 0, .wo, 0x0⟩]⟩
def KEY_DATA.DATA : RF := ⟨KEY_DATA, 31, 0⟩
def KEY_PATH_ROOT : RegDef := ⟨"KEY_PATH_ROOT", 0x180030, 1, 0x0, none, [⟨"ROOT", 29, 24, .rw, 0x0⟩, ⟨"DEPTH", 18, 16, .rw, 0x0⟩]⟩
def KEY_PATH_ROOT.ROOT : RF := ⟨KEY_PATH_ROOT, 29, 24⟩
def KEY_PATH_ROOT.DEPTH : RF := ⟨KEY_PATH_ROOT, 18, 16⟩
def KEY_PATH_KID : RegDef := ⟨"KEY_PATH_KID", 0x180034, 1, 0x0, none, [⟨"KID", 31, 0, .rw, 0x0⟩]⟩
def KEY_PATH_KID.KID : RF := ⟨KEY_PATH_KID, 31, 0⟩
def KEY_PATH_L : RegDef := ⟨"KEY_PATH_L", 0x180038, 6, 0x4, none, [⟨"LABEL", 31, 0, .rw, 0x0⟩]⟩
def KEY_PATH_L.LABEL : RF := ⟨KEY_PATH_L, 31, 0⟩
def KEY_SLOT_SEL : RegDef := ⟨"KEY_SLOT_SEL", 0x180050, 1, 0x0, none, [⟨"SLOT", 5, 0, .rw, 0x0⟩]⟩
def KEY_SLOT_SEL.SLOT : RF := ⟨KEY_SLOT_SEL, 5, 0⟩
def KEY_SLOT_STAT : RegDef := ⟨"KEY_SLOT_STAT", 0x180054, 1, 0x0, some 0x180050, [⟨"VALID", 31, 31, .ro, 0x0⟩, ⟨"BANK", 30, 30, .ro, 0x0⟩, ⟨"IN_USE", 29, 29, .ro, 0x0⟩, ⟨"BD_MASK", 7, 0, .ro, 0x0⟩]⟩
def KEY_SLOT_STAT.VALID : RF := ⟨KEY_SLOT_STAT, 31, 31⟩
def KEY_SLOT_STAT.BANK : RF := ⟨KEY_SLOT_STAT, 30, 30⟩
def KEY_SLOT_STAT.IN_USE : RF := ⟨KEY_SLOT_STAT, 29, 29⟩
def KEY_SLOT_STAT.BD_MASK : RF := ⟨KEY_SLOT_STAT, 7, 0⟩
def KEY_SLOT_GEN : RegDef := ⟨"KEY_SLOT_GEN", 0x180058, 1, 0x0, some 0x180050, [⟨"GEN", 31, 0, .ro, 0x0⟩]⟩
def KEY_SLOT_GEN.GEN : RF := ⟨KEY_SLOT_GEN, 31, 0⟩
def KEY_GRP_SEL : RegDef := ⟨"KEY_GRP_SEL", 0x180060, 1, 0x0, none, [⟨"GROUP", 9, 0, .rw, 0x0⟩]⟩
def KEY_GRP_SEL.GROUP : RF := ⟨KEY_GRP_SEL, 9, 0⟩
def KEY_GRP_STAT : RegDef := ⟨"KEY_GRP_STAT", 0x180064, 1, 0x0, some 0x180060, [⟨"CUR_V", 31, 31, .ro, 0x0⟩, ⟨"NEXT_V", 30, 30, .ro, 0x0⟩, ⟨"CUR_ROOT", 21, 16, .ro, 0x0⟩, ⟨"NEXT_ROOT", 5, 0, .ro, 0x0⟩]⟩
def KEY_GRP_STAT.CUR_V : RF := ⟨KEY_GRP_STAT, 31, 31⟩
def KEY_GRP_STAT.NEXT_V : RF := ⟨KEY_GRP_STAT, 30, 30⟩
def KEY_GRP_STAT.CUR_ROOT : RF := ⟨KEY_GRP_STAT, 21, 16⟩
def KEY_GRP_STAT.NEXT_ROOT : RF := ⟨KEY_GRP_STAT, 5, 0⟩
def KEY_GRP_CUR_KID : RegDef := ⟨"KEY_GRP_CUR_KID", 0x180068, 1, 0x0, some 0x180060, [⟨"KID", 31, 0, .ro, 0x0⟩]⟩
def KEY_GRP_CUR_KID.KID : RF := ⟨KEY_GRP_CUR_KID, 31, 0⟩
def KEY_GRP_NEXT_KID : RegDef := ⟨"KEY_GRP_NEXT_KID", 0x18006C, 1, 0x0, some 0x180060, [⟨"KID", 31, 0, .ro, 0x0⟩]⟩
def KEY_GRP_NEXT_KID.KID : RF := ⟨KEY_GRP_NEXT_KID, 31, 0⟩
def KEY_BD_SEL : RegDef := ⟨"KEY_BD_SEL", 0x180070, 1, 0x0, none, [⟨"BD", 2, 0, .rw, 0x0⟩]⟩
def KEY_BD_SEL.BD : RF := ⟨KEY_BD_SEL, 2, 0⟩
def KEY_BD_DATA : RegDef := ⟨"KEY_BD_DATA", 0x180074, 8, 0x4, none, [⟨"DATA", 31, 0, .ro, 0x0⟩]⟩
def KEY_BD_DATA.DATA : RF := ⟨KEY_BD_DATA, 31, 0⟩
def KEY_ATT_CFG : RegDef := ⟨"KEY_ATT_CFG", 0x1800A0, 1, 0x0, none, [⟨"EN", 31, 31, .rw, 0x0⟩, ⟨"SLOT", 5, 0, .rw, 0x0⟩]⟩
def KEY_ATT_CFG.EN : RF := ⟨KEY_ATT_CFG, 31, 31⟩
def KEY_ATT_CFG.SLOT : RF := ⟨KEY_ATT_CFG, 5, 0⟩
def KEY_CHAL : RegDef := ⟨"KEY_CHAL", 0x1800A4, 4, 0x4, none, [⟨"CHAL", 31, 0, .rw, 0x0⟩]⟩
def KEY_CHAL.CHAL : RF := ⟨KEY_CHAL, 31, 0⟩
def KEY_ATT_CTL : RegDef := ⟨"KEY_ATT_CTL", 0x1800B4, 1, 0x0, none, [⟨"GO", 31, 31, .w1s, 0x0⟩]⟩
def KEY_ATT_CTL.GO : RF := ⟨KEY_ATT_CTL, 31, 31⟩
def KEY_ATT_STAT : RegDef := ⟨"KEY_ATT_STAT", 0x1800B8, 1, 0x0, none, [⟨"READY", 31, 31, .ro, 0x0⟩, ⟨"SEQ", 15, 0, .ro, 0x0⟩]⟩
def KEY_ATT_STAT.READY : RF := ⟨KEY_ATT_STAT, 31, 31⟩
def KEY_ATT_STAT.SEQ : RF := ⟨KEY_ATT_STAT, 15, 0⟩
def KEY_ATT_REL : RegDef := ⟨"KEY_ATT_REL", 0x1800BC, 1, 0x0, none, [⟨"SEQ", 15, 0, .wo, 0x0⟩]⟩
def KEY_ATT_REL.SEQ : RF := ⟨KEY_ATT_REL, 15, 0⟩
def KEY_ATT_RESP : RegDef := ⟨"KEY_ATT_RESP", 0x1800C0, 4, 0x4, none, [⟨"RESP", 31, 0, .ro, 0x0⟩]⟩
def KEY_ATT_RESP.RESP : RF := ⟨KEY_ATT_RESP, 31, 0⟩
def KEY_HALF : RegDef := ⟨"KEY_HALF", 0x1800E0, 1, 0x0, none, [⟨"CNT", 4, 0, .w1c, 0x0⟩]⟩
def KEY_HALF.CNT : RF := ⟨KEY_HALF, 4, 0⟩
def KEY_HALF_IE : RegDef := ⟨"KEY_HALF_IE", 0x1800E4, 1, 0x0, none, [⟨"CNT", 4, 0, .rw, 0x0⟩]⟩
def KEY_HALF_IE.CNT : RF := ⟨KEY_HALF_IE, 4, 0⟩
def SCB_STAT : RegDef := ⟨"SCB_STAT", 0x190000, 1, 0x0, none, [⟨"NOR_OK", 31, 31, .ro, 0x0⟩, ⟨"NOR_ERR", 30, 30, .w1c, 0x0⟩, ⟨"BUF", 11, 0, .ro, 0x0⟩]⟩
def SCB_STAT.NOR_OK : RF := ⟨SCB_STAT, 31, 31⟩
def SCB_STAT.NOR_ERR : RF := ⟨SCB_STAT, 30, 30⟩
def SCB_STAT.BUF : RF := ⟨SCB_STAT, 11, 0⟩
def SCB_CTL : RegDef := ⟨"SCB_CTL", 0x190004, 1, 0x0, none, [⟨"FLUSH", 31, 31, .w1s, 0x0⟩]⟩
def SCB_CTL.FLUSH : RF := ⟨SCB_CTL, 31, 31⟩
def SCB_NEXT : RegDef := ⟨"SCB_NEXT", 0x190008, 1, 0x0, none, [⟨"SEQ", 31, 0, .ro, 0x0⟩]⟩
def SCB_NEXT.SEQ : RF := ⟨SCB_NEXT, 31, 0⟩
def SCB_OLDEST : RegDef := ⟨"SCB_OLDEST", 0x19000C, 1, 0x0, none, [⟨"SEQ", 31, 0, .ro, 0x0⟩]⟩
def SCB_OLDEST.SEQ : RF := ⟨SCB_OLDEST, 31, 0⟩
def SCB_RD_SEQ : RegDef := ⟨"SCB_RD_SEQ", 0x190010, 1, 0x0, none, [⟨"SEQ", 31, 0, .rw, 0x0⟩]⟩
def SCB_RD_SEQ.SEQ : RF := ⟨SCB_RD_SEQ, 31, 0⟩
def SCB_RD_STAT : RegDef := ⟨"SCB_RD_STAT", 0x190014, 1, 0x0, none, [⟨"DONE", 31, 31, .ro, 0x0⟩, ⟨"FOUND", 30, 30, .ro, 0x0⟩]⟩
def SCB_RD_STAT.DONE : RF := ⟨SCB_RD_STAT, 31, 31⟩
def SCB_RD_STAT.FOUND : RF := ⟨SCB_RD_STAT, 30, 30⟩
def SCB_RD_DATA : RegDef := ⟨"SCB_RD_DATA", 0x190020, 8, 0x4, none, [⟨"DATA", 31, 0, .ro, 0x0⟩]⟩
def SCB_RD_DATA.DATA : RF := ⟨SCB_RD_DATA, 31, 0⟩
def SCB_HALF : RegDef := ⟨"SCB_HALF", 0x190080, 1, 0x0, none, [⟨"CNT", 8, 0, .w1c, 0x0⟩]⟩
def SCB_HALF.CNT : RF := ⟨SCB_HALF, 8, 0⟩
def SCB_HALF_IE : RegDef := ⟨"SCB_HALF_IE", 0x190084, 1, 0x0, none, [⟨"CNT", 8, 0, .rw, 0x0⟩]⟩
def SCB_HALF_IE.CNT : RF := ⟨SCB_HALF_IE, 8, 0⟩
def JNL_DDR : RegDef := ⟨"JNL_DDR", 0x190100, 1, 0x0, none, [⟨"VALID", 31, 31, .rw, 0x0⟩, ⟨"SIZE", 12, 8, .rw, 0x1⟩, ⟨"BASE", 6, 0, .rw, 0x0⟩]⟩
def JNL_DDR.VALID : RF := ⟨JNL_DDR, 31, 31⟩
def JNL_DDR.SIZE : RF := ⟨JNL_DDR, 12, 8⟩
def JNL_DDR.BASE : RF := ⟨JNL_DDR, 6, 0⟩
def JNL_CFG : RegDef := ⟨"JNL_CFG", 0x190104, 1, 0x0, none, [⟨"EN", 31, 31, .rw, 0x0⟩, ⟨"DRAIN", 30, 30, .rw, 0x1⟩, ⟨"OSM_SNAP", 29, 29, .rw, 0x0⟩, ⟨"RR_SRC", 28, 28, .rw, 0x0⟩]⟩
def JNL_CFG.EN : RF := ⟨JNL_CFG, 31, 31⟩
def JNL_CFG.DRAIN : RF := ⟨JNL_CFG, 30, 30⟩
def JNL_CFG.OSM_SNAP : RF := ⟨JNL_CFG, 29, 29⟩
def JNL_CFG.RR_SRC : RF := ⟨JNL_CFG, 28, 28⟩
def JNL_CTL : RegDef := ⟨"JNL_CTL", 0x190108, 1, 0x0, none, [⟨"CKPT", 31, 31, .w1s, 0x0⟩, ⟨"RR_GO", 30, 30, .w1s, 0x0⟩, ⟨"RR_STOP", 29, 29, .w1s, 0x0⟩]⟩
def JNL_CTL.CKPT : RF := ⟨JNL_CTL, 31, 31⟩
def JNL_CTL.RR_GO : RF := ⟨JNL_CTL, 30, 30⟩
def JNL_CTL.RR_STOP : RF := ⟨JNL_CTL, 29, 29⟩
def JNL_STAT : RegDef := ⟨"JNL_STAT", 0x19010C, 1, 0x0, none, [⟨"ERR", 31, 31, .w1c, 0x0⟩, ⟨"ECODE", 30, 28, .ro, 0x0⟩, ⟨"RR_STATE", 27, 26, .ro, 0x0⟩]⟩
def JNL_STAT.ERR : RF := ⟨JNL_STAT, 31, 31⟩
def JNL_STAT.ECODE : RF := ⟨JNL_STAT, 30, 28⟩
def JNL_STAT.RR_STATE : RF := ⟨JNL_STAT, 27, 26⟩
def JNL_NEXT : RegDef := ⟨"JNL_NEXT", 0x190110, 1, 0x0, none, [⟨"JSEQ", 31, 0, .ro, 0x0⟩]⟩
def JNL_NEXT.JSEQ : RF := ⟨JNL_NEXT, 31, 0⟩
def JNL_OLDEST : RegDef := ⟨"JNL_OLDEST", 0x190114, 1, 0x0, none, [⟨"JSEQ", 31, 0, .ro, 0x0⟩]⟩
def JNL_OLDEST.JSEQ : RF := ⟨JNL_OLDEST, 31, 0⟩
def JNL_START : RegDef := ⟨"JNL_START", 0x190118, 1, 0x0, none, [⟨"JSEQ", 31, 0, .ro, 0x0⟩]⟩
def JNL_START.JSEQ : RF := ⟨JNL_START, 31, 0⟩
def JNL_UNDRAINED : RegDef := ⟨"JNL_UNDRAINED", 0x19011C, 1, 0x0, none, [⟨"HWM", 31, 16, .rc, 0x0⟩, ⟨"LEVEL", 15, 0, .ro, 0x0⟩]⟩
def JNL_UNDRAINED.HWM : RF := ⟨JNL_UNDRAINED, 31, 16⟩
def JNL_UNDRAINED.LEVEL : RF := ⟨JNL_UNDRAINED, 15, 0⟩
def JNL_RR_FROM : RegDef := ⟨"JNL_RR_FROM", 0x190120, 1, 0x0, none, [⟨"JSEQ", 31, 0, .rw, 0x0⟩]⟩
def JNL_RR_FROM.JSEQ : RF := ⟨JNL_RR_FROM, 31, 0⟩
def JNL_RR_UNTIL : RegDef := ⟨"JNL_RR_UNTIL", 0x190124, 1, 0x0, none, [⟨"JSEQ", 31, 0, .rw, 0x0⟩]⟩
def JNL_RR_UNTIL.JSEQ : RF := ⟨JNL_RR_UNTIL, 31, 0⟩
def JNL_RR_POS : RegDef := ⟨"JNL_RR_POS", 0x190128, 1, 0x0, none, [⟨"JSEQ", 31, 0, .ro, 0x0⟩]⟩
def JNL_RR_POS.JSEQ : RF := ⟨JNL_RR_POS, 31, 0⟩
def JNL_IN : RegDef := ⟨"JNL_IN", 0x19012C, 1, 0x0, none, [⟨"DATA", 31, 0, .wo, 0x0⟩]⟩
def JNL_IN.DATA : RF := ⟨JNL_IN, 31, 0⟩
def MEM_CFG : RegDef := ⟨"MEM_CFG", 0x1A0000, 1, 0x0, none, [⟨"SCRUB_EN", 31, 31, .rw, 0x1⟩, ⟨"PERIOD_H", 7, 0, .rw, 0x18⟩]⟩
def MEM_CFG.SCRUB_EN : RF := ⟨MEM_CFG, 31, 31⟩
def MEM_CFG.PERIOD_H : RF := ⟨MEM_CFG, 7, 0⟩
def MEM_STAT : RegDef := ⟨"MEM_STAT", 0x1A0004, 1, 0x0, none, [⟨"FATAL", 31, 31, .ro, 0x0⟩, ⟨"ERR", 30, 30, .w1c, 0x0⟩, ⟨"ECODE", 29, 27, .ro, 0x0⟩, ⟨"GS_FAIL", 11, 0, .ro, 0x0⟩]⟩
def MEM_STAT.FATAL : RF := ⟨MEM_STAT, 31, 31⟩
def MEM_STAT.ERR : RF := ⟨MEM_STAT, 30, 30⟩
def MEM_STAT.ECODE : RF := ⟨MEM_STAT, 29, 27⟩
def MEM_STAT.GS_FAIL : RF := ⟨MEM_STAT, 11, 0⟩
def MEM_INJ : RegDef := ⟨"MEM_INJ", 0x1A0008, 1, 0x0, none, [⟨"ARM", 31, 31, .w1s, 0x0⟩, ⟨"NOCOUNT", 30, 30, .rw, 0x1⟩, ⟨"ARRAY", 4, 0, .rw, 0x0⟩]⟩
def MEM_INJ.ARM : RF := ⟨MEM_INJ, 31, 31⟩
def MEM_INJ.NOCOUNT : RF := ⟨MEM_INJ, 30, 30⟩
def MEM_INJ.ARRAY : RF := ⟨MEM_INJ, 4, 0⟩
def MEM_FLIPMASK0 : RegDef := ⟨"MEM_FLIPMASK0", 0x1A000C, 1, 0x0, none, [⟨"MASK", 31, 0, .rw, 0x0⟩]⟩
def MEM_FLIPMASK0.MASK : RF := ⟨MEM_FLIPMASK0, 31, 0⟩
def MEM_FLIPMASK1 : RegDef := ⟨"MEM_FLIPMASK1", 0x1A0010, 1, 0x0, none, [⟨"MASK", 31, 0, .rw, 0x0⟩]⟩
def MEM_FLIPMASK1.MASK : RF := ⟨MEM_FLIPMASK1, 31, 0⟩
def MEM_FLIPMASK2 : RegDef := ⟨"MEM_FLIPMASK2", 0x1A0014, 1, 0x0, none, [⟨"MASK", 7, 0, .rw, 0x0⟩]⟩
def MEM_FLIPMASK2.MASK : RF := ⟨MEM_FLIPMASK2, 7, 0⟩
def MEM_LAST_CE : RegDef := ⟨"MEM_LAST_CE", 0x1A0018, 1, 0x0, none, [⟨"ARRAY", 31, 27, .ro, 0x0⟩, ⟨"BANK", 15, 0, .ro, 0x0⟩]⟩
def MEM_LAST_CE.ARRAY : RF := ⟨MEM_LAST_CE, 31, 27⟩
def MEM_LAST_CE.BANK : RF := ⟨MEM_LAST_CE, 15, 0⟩
def MEM_LAST_CE_IDX : RegDef := ⟨"MEM_LAST_CE_IDX", 0x1A001C, 1, 0x0, none, [⟨"IDX", 31, 0, .ro, 0x0⟩]⟩
def MEM_LAST_CE_IDX.IDX : RF := ⟨MEM_LAST_CE_IDX, 31, 0⟩
def MEM_LAST_UE : RegDef := ⟨"MEM_LAST_UE", 0x1A0020, 1, 0x0, none, [⟨"ARRAY", 31, 27, .ro, 0x0⟩, ⟨"BANK", 15, 0, .ro, 0x0⟩]⟩
def MEM_LAST_UE.ARRAY : RF := ⟨MEM_LAST_UE, 31, 27⟩
def MEM_LAST_UE.BANK : RF := ⟨MEM_LAST_UE, 15, 0⟩
def MEM_LAST_UE_IDX : RegDef := ⟨"MEM_LAST_UE_IDX", 0x1A0024, 1, 0x0, none, [⟨"IDX", 31, 0, .ro, 0x0⟩]⟩
def MEM_LAST_UE_IDX.IDX : RF := ⟨MEM_LAST_UE_IDX, 31, 0⟩
def MEM_LAST_INJ : RegDef := ⟨"MEM_LAST_INJ", 0x1A0028, 1, 0x0, none, [⟨"ARRAY", 31, 27, .ro, 0x0⟩, ⟨"BANK", 15, 0, .ro, 0x0⟩]⟩
def MEM_LAST_INJ.ARRAY : RF := ⟨MEM_LAST_INJ, 31, 27⟩
def MEM_LAST_INJ.BANK : RF := ⟨MEM_LAST_INJ, 15, 0⟩
def MEM_LAST_INJ_IDX : RegDef := ⟨"MEM_LAST_INJ_IDX", 0x1A002C, 1, 0x0, none, [⟨"IDX", 31, 0, .ro, 0x0⟩]⟩
def MEM_LAST_INJ_IDX.IDX : RF := ⟨MEM_LAST_INJ_IDX, 31, 0⟩
def MEM_GRP_CLR : RegDef := ⟨"MEM_GRP_CLR", 0x1A0030, 1, 0x0, none, [⟨"GO", 31, 31, .wo, 0x0⟩, ⟨"GRP", 3, 0, .wo, 0x0⟩]⟩
def MEM_GRP_CLR.GO : RF := ⟨MEM_GRP_CLR, 31, 31⟩
def MEM_GRP_CLR.GRP : RF := ⟨MEM_GRP_CLR, 3, 0⟩
def MEM_ARR_SEL : RegDef := ⟨"MEM_ARR_SEL", 0x1A0034, 1, 0x0, none, [⟨"ARRAY", 4, 0, .rw, 0x0⟩]⟩
def MEM_ARR_SEL.ARRAY : RF := ⟨MEM_ARR_SEL, 4, 0⟩
def MEM_ARR_CNT : RegDef := ⟨"MEM_ARR_CNT", 0x1A0038, 1, 0x0, some 0x1A0034, [⟨"CE", 31, 16, .ro, 0x0⟩, ⟨"UE", 15, 0, .ro, 0x0⟩]⟩
def MEM_ARR_CNT.CE : RF := ⟨MEM_ARR_CNT, 31, 16⟩
def MEM_ARR_CNT.UE : RF := ⟨MEM_ARR_CNT, 15, 0⟩
def MEM_HALF : RegDef := ⟨"MEM_HALF", 0x1A0040, 1, 0x0, none, [⟨"CNT", 9, 0, .w1c, 0x0⟩]⟩
def MEM_HALF.CNT : RF := ⟨MEM_HALF, 9, 0⟩
def MEM_HALF_IE : RegDef := ⟨"MEM_HALF_IE", 0x1A0044, 1, 0x0, none, [⟨"CNT", 9, 0, .rw, 0x0⟩]⟩
def MEM_HALF_IE.CNT : RF := ⟨MEM_HALF_IE, 9, 0⟩
def XCR_CFG : RegDef := ⟨"XCR_CFG", 0x1B0000, 1, 0x0, none, [⟨"EN", 31, 31, .rw, 0x0⟩, ⟨"RATE", 29, 28, .rw, 0x0⟩, ⟨"NCH_M1", 27, 24, .rw, 0x0⟩, ⟨"PAN", 23, 16, .rw, 0x0⟩]⟩
def XCR_CFG.EN : RF := ⟨XCR_CFG, 31, 31⟩
def XCR_CFG.RATE : RF := ⟨XCR_CFG, 29, 28⟩
def XCR_CFG.NCH_M1 : RF := ⟨XCR_CFG, 27, 24⟩
def XCR_CFG.PAN : RF := ⟨XCR_CFG, 23, 16⟩
def XCR_TIMING : RegDef := ⟨"XCR_TIMING", 0x1B0004, 1, 0x0, none, [⟨"WAKE_MS", 31, 16, .rw, 0x3E8⟩, ⟨"BCN_MS", 15, 0, .rw, 0x2710⟩]⟩
def XCR_TIMING.WAKE_MS : RF := ⟨XCR_TIMING, 31, 16⟩
def XCR_TIMING.BCN_MS : RF := ⟨XCR_TIMING, 15, 0⟩
def XCR_GUARD : RegDef := ⟨"XCR_GUARD", 0x1B0008, 1, 0x0, none, [⟨"CHK_S", 31, 24, .rw, 0x3C⟩, ⟨"LP_MARGIN_MS", 23, 16, .rw, 0xA⟩, ⟨"GUARD_BASE_US", 15, 0, .rw, 0x7D0⟩]⟩
def XCR_GUARD.CHK_S : RF := ⟨XCR_GUARD, 31, 24⟩
def XCR_GUARD.LP_MARGIN_MS : RF := ⟨XCR_GUARD, 23, 16⟩
def XCR_GUARD.GUARD_BASE_US : RF := ⟨XCR_GUARD, 15, 0⟩
def XCR_DWELL : RegDef := ⟨"XCR_DWELL", 0x1B000C, 1, 0x0, none, [⟨"DWELL_MS", 31, 16, .rw, 0x190⟩, ⟨"WIN_S", 15, 0, .rw, 0x14⟩]⟩
def XCR_DWELL.DWELL_MS : RF := ⟨XCR_DWELL, 31, 16⟩
def XCR_DWELL.WIN_S : RF := ⟨XCR_DWELL, 15, 0⟩
def XCR_CH : RegDef := ⟨"XCR_CH", 0x1B0010, 16, 0x4, none, [⟨"USED_MS", 31, 16, .ro, 0x0⟩, ⟨"VALUE", 15, 0, .rw, 0x0⟩]⟩
def XCR_CH.USED_MS : RF := ⟨XCR_CH, 31, 16⟩
def XCR_CH.VALUE : RF := ⟨XCR_CH, 15, 0⟩
def XCR_XCVR : RegDef := ⟨"XCR_XCVR", 0x1B0050, 1, 0x0, none, [⟨"CH_ADDR", 31, 24, .rw, 0x0⟩, ⟨"SPI_DIV", 7, 0, .rw, 0x10⟩]⟩
def XCR_XCVR.CH_ADDR : RF := ⟨XCR_XCVR, 31, 24⟩
def XCR_XCVR.SPI_DIV : RF := ⟨XCR_XCVR, 7, 0⟩
def XCR_STAT : RegDef := ⟨"XCR_STAT", 0x1B0054, 1, 0x0, none, [⟨"ERR", 31, 31, .w1c, 0x0⟩, ⟨"ECODE", 30, 28, .ro, 0x0⟩, ⟨"XCVR_OK", 27, 27, .ro, 0x0⟩, ⟨"LOST", 26, 16, .ro, 0x0⟩, ⟨"SYNCED", 10, 0, .ro, 0x0⟩]⟩
def XCR_STAT.ERR : RF := ⟨XCR_STAT, 31, 31⟩
def XCR_STAT.ECODE : RF := ⟨XCR_STAT, 30, 28⟩
def XCR_STAT.XCVR_OK : RF := ⟨XCR_STAT, 27, 27⟩
def XCR_STAT.LOST : RF := ⟨XCR_STAT, 26, 16⟩
def XCR_STAT.SYNCED : RF := ⟨XCR_STAT, 10, 0⟩
def XCR_SENS_SEL : RegDef := ⟨"XCR_SENS_SEL", 0x1B0060, 1, 0x0, none, [⟨"SENSOR", 9, 0, .rw, 0x0⟩]⟩
def XCR_SENS_SEL.SENSOR : RF := ⟨XCR_SENS_SEL, 9, 0⟩
def XCR_SENS_CFG : RegDef := ⟨"XCR_SENS_CFG", 0x1B0064, 1, 0x0, some 0x1B0060, [⟨"EN", 31, 31, .rw, 0x0⟩, ⟨"LP_MODE", 30, 30, .rw, 0x0⟩, ⟨"DRIFT_PPM", 29, 24, .rw, 0x28⟩, ⟨"PHASE_MS", 13, 0, .rw, 0x0⟩]⟩
def XCR_SENS_CFG.EN : RF := ⟨XCR_SENS_CFG, 31, 31⟩
def XCR_SENS_CFG.LP_MODE : RF := ⟨XCR_SENS_CFG, 30, 30⟩
def XCR_SENS_CFG.DRIFT_PPM : RF := ⟨XCR_SENS_CFG, 29, 24⟩
def XCR_SENS_CFG.PHASE_MS : RF := ⟨XCR_SENS_CFG, 13, 0⟩
def XCR_SENS_STAT : RegDef := ⟨"XCR_SENS_STAT", 0x1B0068, 1, 0x0, some 0x1B0060, [⟨"STATE", 31, 30, .ro, 0x0⟩, ⟨"MISSED", 29, 28, .ro, 0x0⟩, ⟨"LAST_SEQ", 27, 20, .ro, 0x0⟩]⟩
def XCR_SENS_STAT.STATE : RF := ⟨XCR_SENS_STAT, 31, 30⟩
def XCR_SENS_STAT.MISSED : RF := ⟨XCR_SENS_STAT, 29, 28⟩
def XCR_SENS_STAT.LAST_SEQ : RF := ⟨XCR_SENS_STAT, 27, 20⟩
def XCR_SENS_LAST : RegDef := ⟨"XCR_SENS_LAST", 0x1B006C, 1, 0x0, some 0x1B0060, [⟨"SEC", 31, 0, .ro, 0x0⟩]⟩
def XCR_SENS_LAST.SEC : RF := ⟨XCR_SENS_LAST, 31, 0⟩
def XCR_TXBUF : RegDef := ⟨"XCR_TXBUF", 0x1B0080, 29, 0x4, none, [⟨"DATA", 31, 0, .wo, 0x0⟩]⟩
def XCR_TXBUF.DATA : RF := ⟨XCR_TXBUF, 31, 0⟩
def XCR_TX_CMD : RegDef := ⟨"XCR_TX_CMD", 0x1B00F4, 1, 0x0, none, [⟨"GO", 31, 31, .w1s, 0x0⟩, ⟨"TYPE", 30, 28, .rw, 0x2⟩, ⟨"ACKREQ", 27, 27, .rw, 0x1⟩, ⟨"DST", 26, 16, .rw, 0x0⟩, ⟨"LEN", 6, 0, .rw, 0x0⟩]⟩
def XCR_TX_CMD.GO : RF := ⟨XCR_TX_CMD, 31, 31⟩
def XCR_TX_CMD.TYPE : RF := ⟨XCR_TX_CMD, 30, 28⟩
def XCR_TX_CMD.ACKREQ : RF := ⟨XCR_TX_CMD, 27, 27⟩
def XCR_TX_CMD.DST : RF := ⟨XCR_TX_CMD, 26, 16⟩
def XCR_TX_CMD.LEN : RF := ⟨XCR_TX_CMD, 6, 0⟩
def XCR_TX_STAT : RegDef := ⟨"XCR_TX_STAT", 0x1B00F8, 1, 0x0, none, [⟨"BUSY", 31, 31, .ro, 0x0⟩, ⟨"DONE", 30, 30, .w1c, 0x0⟩, ⟨"RESULT", 29, 28, .ro, 0x0⟩, ⟨"SEQ", 7, 0, .ro, 0x0⟩]⟩
def XCR_TX_STAT.BUSY : RF := ⟨XCR_TX_STAT, 31, 31⟩
def XCR_TX_STAT.DONE : RF := ⟨XCR_TX_STAT, 30, 30⟩
def XCR_TX_STAT.RESULT : RF := ⟨XCR_TX_STAT, 29, 28⟩
def XCR_TX_STAT.SEQ : RF := ⟨XCR_TX_STAT, 7, 0⟩
def XCR_RXQ_STAT : RegDef := ⟨"XCR_RXQ_STAT", 0x1B0100, 1, 0x0, none, [⟨"VALID", 31, 31, .ro, 0x0⟩, ⟨"HWM", 25, 16, .rc, 0x0⟩, ⟨"LEVEL", 9, 0, .ro, 0x0⟩]⟩
def XCR_RXQ_STAT.VALID : RF := ⟨XCR_RXQ_STAT, 31, 31⟩
def XCR_RXQ_STAT.HWM : RF := ⟨XCR_RXQ_STAT, 25, 16⟩
def XCR_RXQ_STAT.LEVEL : RF := ⟨XCR_RXQ_STAT, 9, 0⟩
def XCR_RXQ_DATA : RegDef := ⟨"XCR_RXQ_DATA", 0x1B0104, 32, 0x4, none, [⟨"DATA", 31, 0, .ro, 0x0⟩]⟩
def XCR_RXQ_DATA.DATA : RF := ⟨XCR_RXQ_DATA, 31, 0⟩
def XCR_RXQ_POP : RegDef := ⟨"XCR_RXQ_POP", 0x1B0184, 1, 0x0, none, [⟨"GO", 31, 31, .wo, 0x0⟩]⟩
def XCR_RXQ_POP.GO : RF := ⟨XCR_RXQ_POP, 31, 31⟩
def XCR_HALF : RegDef := ⟨"XCR_HALF", 0x1B0190, 1, 0x0, none, [⟨"CNT", 14, 0, .w1c, 0x0⟩]⟩
def XCR_HALF.CNT : RF := ⟨XCR_HALF, 14, 0⟩
def XCR_HALF_IE : RegDef := ⟨"XCR_HALF_IE", 0x1B0194, 1, 0x0, none, [⟨"CNT", 14, 0, .rw, 0x0⟩]⟩
def XCR_HALF_IE.CNT : RF := ⟨XCR_HALF_IE, 14, 0⟩

/-- Every register of Tables 1.8 to 19.11. -/
def regMap0 : List RegDef := [GBL_IDENT, PWR_STAT, PWR_CTL, PWR_CFG, PWR_SAVE, PWR_HALF, PWR_HALF_IE, HLT_SEL, HLT_VAL, HLT_THR, HLT_TRIP, HLT_SNAP_CTL, HLT_SNAP_STAT, HLT_SNAP_REL, HLT_SNAP_DATA, TK_CTL, TK_STAT, TK_SERVO, TK_LIMITS, TK_HOLD, TK_STEP_THR, TK_INC_INT, TK_INC_FRAC, TK_NOW_NS, TK_NOW_SUB, TK_NOW_SEC_LO, TK_NOW_SEC_HI, TK_OFS, TK_EST, TK_CMD, TK_STEP_SEC, TK_STEP_NS, TK_UTC, TK_UTC_STAT, TK_PTP, TK_IRIG, TK_PPS, TK_DLY, TK_HALF, TK_HALF_IE]
def regMap1 : List RegDef := [ETH_CFG, ETH_STATUS, ETH_MAC_LO, ETH_MAC_HI, ETH_FIFO, ETH_HALF, ETH_HALF_IE, ETH_TX_HALF, ETH_TX_HALF_IE, ETH_PTP_CFG, ETH_PTP_STAT, ETH_PTP_DELAY, ETH_PTP_LAT, ETH_TXTS_STAT, ETH_TXTS_ID, ETH_TXTS_NS, ETH_TXTS_SEC, ETH_TXTS_POP, ING_L4PORT, ING_SV_UNITS, ING_CFG_LAST, ING_HALF, ING_HALF_IE, PFA_ADAPT, PFA_HEAT_SEL, PFA_WIN_CMD, PFA_WIN_STAT, PFA_HEAT_WIN, PFA_HEAT_EST, PFA_HEAT_RISK, PFA_HEAT_SHORT, PFA_LANE_SEL, PFA_LANE_EST, PFA_PENDQ, PFA_STAGE, PFA_HALF, PFA_HALF_IE, PFA_SLOT_FREE, SRT_CFG, SRT_STAT]
def regMap2 : List RegDef := [SRT_STORE, SRT_INFLIGHT, SRT_RDYQ, SRT_DLIST, SRT_PIN_SEL, SRT_PIN, SRT_UNIT_SEL, SRT_UNIT, SRT_HALF, SRT_HALF_IE, PAC_LIB_VER, PAC_ENG_SEL, PAC_ENG_STAT, PAC_ENG_LAST, PAC_ENG_CLR, PAC_CLR_STAT, PAC_SUSPECT, PAC_QUAR, PAC_RES_INJ, PAC_HALF, PAC_HALF_IE, OSM_CTL, OSM_STAT, OSM_DDR, OSM_SAMPLE_LO, OSM_SAMPLE_HI, OSM_START_LO, OSM_START_HI, OSM_SHAPE, OSM_INBUF, OSM_DROP, OSM_HALF, OSM_HALF_IE, ISL_CTL, ISL_GRAPH, ISL_STAT, ISL_GRAPH_BAD, ISL_GRAPH_LAP_LO, ISL_GRAPH_LAP_HI, ISL_MAP_LAP_LO]
def regMap3 : List RegDef := [ISL_MAP_LAP_HI, ISL_MAP, ISL_HALF, ISL_HALF_IE, ALM_CFG, ALM_STAT, ALM_HSEL, ALM_THR_VAL, ALM_THR_CMD, ALM_HSTATE, ALM_PEND, ALM_BUF, ALM_AOUT_CFG, ALM_AOUT, ALM_AOUT_CLR, ALM_HALF, ALM_HALF_IE, EGR_CFG, EGR_ON_LO, EGR_ON_HI, EGR_HALF, EGR_HALF_IE, LMF_GRP, LMF_GSTAT, LMF_CH_CTL, LMF_CH_STAT, LMF_CH_SCALE, LMF_CH_OFFSET, LMF_CH_DLY, LMF_HALF, LMF_HALF_IE, ACQ_DDR, ACQ_STAT, ACQ_BW, ACQ_SLOT_REL, ACQ_HALF, ACQ_HALF_IE, ACQ_GRP_CTL, ACQ_GRP_STAT, ACQ_GRP_CAP]
def regMap4 : List RegDef := [NRG_CFG, NRG_STAT, NRG_SNAP_CTL, NRG_SNAP_STAT, NRG_SNAP_REL, NRG_SNAP_DATA, NRG_PI_CFG, NRG_PI_LEVEL, NRG_PO_CFG, NRG_PO_Q, NRG_PO_PEND, NRG_HALF, NRG_HALF_IE, RXL_DEV, RXL_CREDITS, RXL_UDP, RXL_TIMING, RXL_PORT, RXL_STAT, RXL_LINK_SEL, RXL_LINK_STAT, RXL_HALF, RXL_HALF_IE, RLY_CFG, RLY_STAT, RLY_CTL, RLY_LAG, RLY_DIGEST, RLY_HALF, RLY_HALF_IE, HIF_CFG, HIF_STAT, HIF_BLK_IRQ, HIF_SQ_SEL, HIF_SQ_BASE_LO, HIF_SQ_BASE_HI, HIF_SQ_CFG, HIF_SQ_STAT, HIF_CQ_SEL, HIF_CQ_BASE_LO]
def regMap5 : List RegDef := [HIF_CQ_BASE_HI, HIF_CQ_WB_LO, HIF_CQ_WB_HI, HIF_CQ_CFG, HIF_CQ_STAT, HIF_SF_SEL, HIF_SF_CFG, HIF_SF_CTL, HIF_SF_STAT, HIF_HALF, HIF_HALF_IE, DMA_CH_CFG, DMA_CH_CTL, DMA_CH_STAT, DMA_CH_COUNT, KEY_STAT, KEY_CMD, KEY_UNLOCK_HI, KEY_UNLOCK_LO, KEY_DATA, KEY_PATH_ROOT, KEY_PATH_KID, KEY_PATH_L, KEY_SLOT_SEL, KEY_SLOT_STAT, KEY_SLOT_GEN, KEY_GRP_SEL, KEY_GRP_STAT, KEY_GRP_CUR_KID, KEY_GRP_NEXT_KID, KEY_BD_SEL, KEY_BD_DATA, KEY_ATT_CFG, KEY_CHAL, KEY_ATT_CTL, KEY_ATT_STAT, KEY_ATT_REL, KEY_ATT_RESP, KEY_HALF, KEY_HALF_IE]
def regMap6 : List RegDef := [SCB_STAT, SCB_CTL, SCB_NEXT, SCB_OLDEST, SCB_RD_SEQ, SCB_RD_STAT, SCB_RD_DATA, SCB_HALF, SCB_HALF_IE, JNL_DDR, JNL_CFG, JNL_CTL, JNL_STAT, JNL_NEXT, JNL_OLDEST, JNL_START, JNL_UNDRAINED, JNL_RR_FROM, JNL_RR_UNTIL, JNL_RR_POS, JNL_IN, MEM_CFG, MEM_STAT, MEM_INJ, MEM_FLIPMASK0, MEM_FLIPMASK1, MEM_FLIPMASK2, MEM_LAST_CE, MEM_LAST_CE_IDX, MEM_LAST_UE, MEM_LAST_UE_IDX, MEM_LAST_INJ, MEM_LAST_INJ_IDX, MEM_GRP_CLR, MEM_ARR_SEL, MEM_ARR_CNT, MEM_HALF, MEM_HALF_IE, XCR_CFG, XCR_TIMING]
def regMap7 : List RegDef := [XCR_GUARD, XCR_DWELL, XCR_CH, XCR_XCVR, XCR_STAT, XCR_SENS_SEL, XCR_SENS_CFG, XCR_SENS_STAT, XCR_SENS_LAST, XCR_TXBUF, XCR_TX_CMD, XCR_TX_STAT, XCR_RXQ_STAT, XCR_RXQ_DATA, XCR_RXQ_POP, XCR_HALF, XCR_HALF_IE]
def regMap : List RegDef := regMap0 ++ regMap1 ++ regMap2 ++ regMap3 ++ regMap4 ++ regMap5 ++ regMap6 ++ regMap7

/-! Counters (R81). -/

/-- Frames entered into the FIFO (Table 2.17). -/
def RX_FRAMES_OK : Ctr := ⟨"RX_FRAMES_OK", 0x040100, 0x2000, 0x040014, 0x040018, some 0, 3, 2⟩
/-- FCS errors (Table 2.17). -/
def RX_FCS_ERR : Ctr := ⟨"RX_FCS_ERR", 0x040104, 0x2000, 0x040014, 0x040018, some 1, 3, 2⟩
/-- Frames under 64 bytes (Table 2.17). -/
def RX_RUNT : Ctr := ⟨"RX_RUNT", 0x040108, 0x2000, 0x040014, 0x040018, some 2, 3, 2⟩
/-- Frames over MAXLEN (Table 2.17). -/
def RX_OVERSIZE : Ctr := ⟨"RX_OVERSIZE", 0x04010C, 0x2000, 0x040014, 0x040018, some 3, 3, 2⟩
/-- Frames with PCS errors (Table 2.17). -/
def RX_CODE_ERR : Ctr := ⟨"RX_CODE_ERR", 0x040110, 0x2000, 0x040014, 0x040018, some 4, 3, 2⟩
/-- Frames over the write limit (R45) (Table 2.17). -/
def RX_RATE_DROP : Ctr := ⟨"RX_RATE_DROP", 0x040114, 0x2000, 0x040014, 0x040018, some 5, 3, 2⟩
/-- Frames lost to a full FIFO (Table 2.17). -/
def RX_FIFO_OVF : Ctr := ⟨"RX_FIFO_OVF", 0x040118, 0x2000, 0x040014, 0x040018, some 6, 3, 2⟩
/-- PAUSE and PFC frames (Table 2.17). -/
def RX_PAUSE : Ctr := ⟨"RX_PAUSE", 0x04011C, 0x2000, 0x040014, 0x040018, some 7, 3, 2⟩
/-- Table 2.2, steps 1–2 (Table 2.17). -/
def RX_VLAN_DROP : Ctr := ⟨"RX_VLAN_DROP", 0x040120, 0x2000, 0x040014, 0x040018, some 8, 3, 2⟩
/-- Table 2.2, step 3 (Table 2.17). -/
def RX_ADDR_DROP : Ctr := ⟨"RX_ADDR_DROP", 0x040124, 0x2000, 0x040014, 0x040018, some 9, 3, 2⟩
/-- PRP duplicates discarded (Table 2.17). -/
def RX_PRP_DUP : Ctr := ⟨"RX_PRP_DUP", 0x040128, 0x2000, 0x040014, 0x040018, some 10, 3, 2⟩
/-- Trailer names the other LAN (Table 2.17). -/
def RX_PRP_WRONGLAN : Ctr := ⟨"RX_PRP_WRONGLAN", 0x04012C, 0x2000, 0x040014, 0x040018, some 11, 3, 2⟩
/-- Frames without a valid trailer on a PRP pair (Table 2.17). -/
def RX_PRP_NORCT : Ctr := ⟨"RX_PRP_NORCT", 0x040130, 0x2000, 0x040014, 0x040018, some 12, 3, 2⟩
/-- Frames taken from the FIFOs (Table 2.22). -/
def ING_FRAMES_IN : Ctr := ⟨"ING_FRAMES_IN", 0x060100, 0, 0x060010, 0x060014, some 0, 4, 0⟩
/-- Table 2.5, step 1 (Table 2.22). -/
def ING_ETYPE_DROP : Ctr := ⟨"ING_ETYPE_DROP", 0x060104, 0, 0x060010, 0x060014, some 1, 4, 0⟩
/-- Step 2 (Table 2.22). -/
def ING_IP_ERR : Ctr := ⟨"ING_IP_ERR", 0x060108, 0, 0x060010, 0x060014, some 2, 4, 0⟩
/-- Step 3 (Table 2.22). -/
def ING_IP_FRAG : Ctr := ⟨"ING_IP_FRAG", 0x06010C, 0, 0x060010, 0x060014, some 3, 4, 0⟩
/-- Step 4 (Table 2.22). -/
def ING_L4_ERR : Ctr := ⟨"ING_L4_ERR", 0x060110, 0, 0x060010, 0x060014, some 4, 4, 0⟩
/-- R66 (Table 2.22). -/
def ING_C37_ERR : Ctr := ⟨"ING_C37_ERR", 0x060114, 0, 0x060010, 0x060014, some 5, 4, 0⟩
/-- Table 2.8 (Table 2.22). -/
def ING_C37_TYPE : Ctr := ⟨"ING_C37_TYPE", 0x060118, 0, 0x060010, 0x060014, some 6, 4, 0⟩
/-- R78 (Table 2.22). -/
def ING_SV_ERR : Ctr := ⟨"ING_SV_ERR", 0x06011C, 0, 0x060010, 0x060014, some 7, 4, 0⟩
/-- R73 (Table 2.22). -/
def ING_A905_SESSION : Ctr := ⟨"ING_A905_SESSION", 0x060120, 0, 0x060010, 0x060014, some 8, 4, 0⟩
/-- R74 (Table 2.22). -/
def ING_A905_AUTH : Ctr := ⟨"ING_A905_AUTH", 0x060124, 0, 0x060010, 0x060014, some 9, 4, 0⟩
/-- R75 (Table 2.22). -/
def ING_A905_REPLAY : Ctr := ⟨"ING_A905_REPLAY", 0x060128, 0, 0x060010, 0x060014, some 10, 4, 0⟩
/-- Step 6 (Table 2.22). -/
def ING_NOSTREAM : Ctr := ⟨"ING_NOSTREAM", 0x06012C, 0, 0x060010, 0x060014, some 11, 4, 0⟩
/-- R68 (Table 2.22). -/
def ING_CFG_STALE : Ctr := ⟨"ING_CFG_STALE", 0x060130, 0, 0x060010, 0x060014, some 12, 4, 0⟩
/-- R18, R67 (Table 2.22). -/
def ING_OFF_GRID : Ctr := ⟨"ING_OFF_GRID", 0x060134, 0, 0x060010, 0x060014, some 13, 4, 0⟩
/-- R52 (Table 2.22). -/
def ING_DUP_LAP : Ctr := ⟨"ING_DUP_LAP", 0x060138, 0, 0x060010, 0x060014, some 14, 4, 0⟩
/-- R71, R76, R78 (Table 2.22). -/
def ING_REPEAT : Ctr := ⟨"ING_REPEAT", 0x06013C, 0, 0x060010, 0x060014, some 15, 4, 0⟩
/-- Lane arrivals delivered (R57) (Table 2.22). -/
def ING_LANES_WRITTEN : Ctr := ⟨"ING_LANES_WRITTEN", 0x060140, 0, 0x060010, 0x060014, some 16, 4, 0⟩
/-- Configuration and header frames journaled (Table 2.22). -/
def ING_CFG_FRAMES : Ctr := ⟨"ING_CFG_FRAMES", 0x060144, 0, 0x060010, 0x060014, some 17, 4, 0⟩
/-- Laps opened (R86) (Table 3.16). -/
def PFA_LAPS_OPENED : Ctr := ⟨"PFA_LAPS_OPENED", 0x080200, 0, 0x080050, 0x080054, some 0, 5, 7⟩
/-- Release tokens with CAUSE 0 (Table 3.16). -/
def PFA_REL_ALL : Ctr := ⟨"PFA_REL_ALL", 0x080204, 0, 0x080050, 0x080054, some 1, 5, 7⟩
/-- Release tokens with CAUSE 1 (Table 3.16). -/
def PFA_REL_QUORUM : Ctr := ⟨"PFA_REL_QUORUM", 0x080208, 0, 0x080050, 0x080054, some 2, 5, 7⟩
/-- Release tokens with CAUSE 2 (Table 3.16). -/
def PFA_REL_DEADLINE : Ctr := ⟨"PFA_REL_DEADLINE", 0x08020C, 0, 0x080050, 0x080054, some 3, 5, 7⟩
/-- Release tokens with CAUSE 3 (Table 3.16). -/
def PFA_REL_DISABLE : Ctr := ⟨"PFA_REL_DISABLE", 0x080210, 0, 0x080050, 0x080054, some 4, 5, 7⟩
/-- Tokens that entered the pending-release queue (R96) (Table 3.16). -/
def PFA_PENDQ_WAIT : Ctr := ⟨"PFA_PENDQ_WAIT", 0x080214, 0, 0x080050, 0x080054, some 5, 5, 7⟩
/-- Tokens held because the queue was full (R97) (Table 3.16). -/
def PFA_PENDQ_FULL : Ctr := ⟨"PFA_PENDQ_FULL", 0x080218, 0, 0x080050, 0x080054, some 6, 5, 7⟩
/-- Laps released LATE (R98) (Table 3.16). -/
def PFA_LATE_LAPS : Ctr := ⟨"PFA_LATE_LAPS", 0x08021C, 0, 0x080050, 0x080054, some 7, 5, 7⟩
/-- Laps skipped (R88) (Table 3.16). -/
def PFA_LAPS_SKIPPED : Ctr := ⟨"PFA_LAPS_SKIPPED", 0x080220, 0, 0x080050, 0x080054, some 8, 5, 7⟩
/-- Fences longer than 12 µs (R95) (Table 3.16). -/
def PFA_FENCE_SLOW : Ctr := ⟨"PFA_FENCE_SLOW", 0x080224, 0, 0x080050, 0x080054, some 9, 5, 7⟩
/-- Ordinary arrivals written (Table 3.16). -/
def PFA_RECORDS_WRITTEN : Ctr := ⟨"PFA_RECORDS_WRITTEN", 0x080228, 0, 0x080050, 0x080054, some 10, 5, 7⟩
/-- Lanes substituted at release (Table 3.16). -/
def PFA_SUBSTITUTED : Ctr := ⟨"PFA_SUBSTITUTED", 0x08022C, 0, 0x080050, 0x080054, some 11, 5, 7⟩
/-- Records staged as amendments (R101) (Table 3.16). -/
def PFA_AMEND_FRAMES : Ctr := ⟨"PFA_AMEND_FRAMES", 0x080230, 0, 0x080050, 0x080054, some 12, 5, 7⟩
/-- AMEND tokens delivered (R102) (Table 3.16). -/
def PFA_AMEND_TOKENS : Ctr := ⟨"PFA_AMEND_TOKENS", 0x080234, 0, 0x080050, 0x080054, some 13, 5, 7⟩
/-- Staged records dropped at the finish line (R104) (Table 3.16). -/
def PFA_AMEND_LOST : Ctr := ⟨"PFA_AMEND_LOST", 0x080238, 0, 0x080050, 0x080054, some 14, 5, 7⟩
/-- Frames refused at AMEND_SEQ 255 (Table 3.16). -/
def PFA_AMEND_CAP : Ctr := ⟨"PFA_AMEND_CAP", 0x08023C, 0, 0x080050, 0x080054, some 15, 5, 7⟩
/-- Frames refused with the staging buffer full (Table 3.16). -/
def PFA_STAGE_FULL : Ctr := ⟨"PFA_STAGE_FULL", 0x080240, 0, 0x080050, 0x080054, some 16, 5, 7⟩
/-- Post-release frames with AMEND_EN 0 (Table 3.16). -/
def PFA_POST_RELEASE : Ctr := ⟨"PFA_POST_RELEASE", 0x080244, 0, 0x080050, 0x080054, some 17, 5, 7⟩
/-- Frames at or after the finish line (Table 3.16). -/
def PFA_AFTER_FINISH : Ctr := ⟨"PFA_AFTER_FINISH", 0x080248, 0, 0x080050, 0x080054, some 18, 5, 7⟩
/-- Frames before the lap's opening time (Table 3.16). -/
def PFA_TOO_EARLY : Ctr := ⟨"PFA_TOO_EARLY", 0x08024C, 0, 0x080050, 0x080054, some 19, 5, 7⟩
/-- Frames for laps before a heat's first lap (R31) (Table 3.16). -/
def PFA_BEFORE_FIRST : Ctr := ⟨"PFA_BEFORE_FIRST", 0x080250, 0, 0x080050, 0x080054, some 20, 5, 7⟩
/-- Frames and staged records of skipped laps (Table 3.16). -/
def PFA_ON_SKIPPED : Ctr := ⟨"PFA_ON_SKIPPED", 0x080254, 0, 0x080050, 0x080054, some 21, 5, 7⟩
/-- SETTLE tokens delivered (Table 3.16). -/
def PFA_SETTLE_TOKENS : Ctr := ⟨"PFA_SETTLE_TOKENS", 0x080258, 0, 0x080050, 0x080054, some 22, 5, 7⟩
/-- Laps opened at late risk, all heats (Table 3.16). -/
def PFA_LATE_RISK_LAPS : Ctr := ⟨"PFA_LATE_RISK_LAPS", 0x08025C, 0, 0x080050, 0x080054, some 23, 5, 7⟩
/-- Output blocks committed by tasks (Table 4.18). -/
def PAC_TASKS_DONE : Ctr := ⟨"PAC_TASKS_DONE", 0x0C0100, 0, 0x0C0060, 0x0C0064, some 0, 7, 5⟩
/-- Tasks run on AMEND tokens (Table 4.18). -/
def PAC_TASK_AMEND : Ctr := ⟨"PAC_TASK_AMEND", 0x0C0104, 0, 0x0C0060, 0x0C0064, some 1, 7, 5⟩
/-- Blocks re-issued with FINAL (R137) (Table 4.18). -/
def PAC_SETTLE_OUT : Ctr := ⟨"PAC_SETTLE_OUT", 0x0C0108, 0, 0x0C0060, 0x0C0064, some 2, 7, 5⟩
/-- Residue mismatches (R128) (Table 4.18). -/
def PAC_RES_MISMATCH : Ctr := ⟨"PAC_RES_MISMATCH", 0x0C010C, 0, 0x0C0060, 0x0C0064, some 3, 7, 5⟩
/-- Shifter parity disagreements (Table 4.18). -/
def PAC_SHIFT_PARITY : Ctr := ⟨"PAC_SHIFT_PARITY", 0x0C0110, 0, 0x0C0060, 0x0C0064, some 4, 7, 5⟩
/-- Retries offered (R129, R132) (Table 4.18). -/
def PAC_RETRIES : Ctr := ⟨"PAC_RETRIES", 0x0C0114, 0, 0x0C0060, 0x0C0064, some 5, 7, 5⟩
/-- Blocks committed with FAULT (R131) (Table 4.18). -/
def PAC_RETRY_FAIL : Ctr := ⟨"PAC_RETRY_FAIL", 0x0C0118, 0, 0x0C0060, 0x0C0064, some 6, 7, 5⟩
/-- Engines quarantined (Table 4.18). -/
def PAC_QUAR_EVENTS : Ctr := ⟨"PAC_QUAR_EVENTS", 0x0C011C, 0, 0x0C0060, 0x0C0064, some 7, 7, 5⟩
/-- NaN values in committed blocks, FAULT blocks included (Table 4.18). -/
def PAC_OUT_NAN : Ctr := ⟨"PAC_OUT_NAN", 0x0C0120, 0, 0x0C0060, 0x0C0064, some 8, 7, 5⟩
/-- Records written by VPMU and LPMU (Table 4.18). -/
def PAC_VPMU_REC : Ctr := ⟨"PAC_VPMU_REC", 0x0C0124, 0, 0x0C0060, 0x0C0064, some 9, 7, 5⟩
/-- Such records with VALID clear (R148) (Table 4.18). -/
def PAC_VPMU_INVALID : Ctr := ⟨"PAC_VPMU_INVALID", 0x0C0128, 0, 0x0C0060, 0x0C0064, some 10, 7, 5⟩
/-- Injected mismatches (R151) (Table 4.18). -/
def PAC_INJ_HITS : Ctr := ⟨"PAC_INJ_HITS", 0x0C012C, 0, 0x0C0060, 0x0C0064, some 11, 7, 5⟩
/-- Samples absorbed by OSCMON (Table 5.21). -/
def OSM_SAMPLES : Ctr := ⟨"OSM_SAMPLES", 0x0E0100, 0, 0x0E0030, 0x0E0034, some 0, 8, 7⟩
/-- Extractions (Table 5.21). -/
def OSM_EXTRACTIONS : Ctr := ⟨"OSM_EXTRACTIONS", 0x0E0104, 0, 0x0E0030, 0x0E0034, some 1, 8, 7⟩
/-- Projection refreshes (Table 5.21). -/
def OSM_REFRESHES : Ctr := ⟨"OSM_REFRESHES", 0x0E0108, 0, 0x0E0030, 0x0E0034, some 2, 8, 7⟩
/-- Tentative tracks created (Table 5.21). -/
def OSM_TRACK_NEW : Ctr := ⟨"OSM_TRACK_NEW", 0x0E010C, 0, 0x0E0030, 0x0E0034, some 3, 8, 7⟩
/-- Tracks established (Table 5.21). -/
def OSM_TRACK_EST : Ctr := ⟨"OSM_TRACK_EST", 0x0E0110, 0, 0x0E0030, 0x0E0034, some 4, 8, 7⟩
/-- Tracks retired (Table 5.21). -/
def OSM_TRACK_RETIRED : Ctr := ⟨"OSM_TRACK_RETIRED", 0x0E0114, 0, 0x0E0030, 0x0E0034, some 5, 8, 7⟩
/-- Candidates refused with the table full (Table 5.21). -/
def OSM_TRACK_FULL : Ctr := ⟨"OSM_TRACK_FULL", 0x0E0118, 0, 0x0E0030, 0x0E0034, some 6, 8, 7⟩
/-- Signals or branches becoming dropped (Table 5.21). -/
def OSM_SIG_DROPS : Ctr := ⟨"OSM_SIG_DROPS", 0x0E011C, 0, 0x0E0030, 0x0E0034, some 7, 8, 7⟩
/-- FODET evaluations (Table 5.21). -/
def OSM_FO_EVALS : Ctr := ⟨"OSM_FO_EVALS", 0x0E0120, 0, 0x0E0030, 0x0E0034, some 8, 8, 7⟩
/-- Detections taking a slot (Table 5.21). -/
def OSM_FO_DETECT : Ctr := ⟨"OSM_FO_DETECT", 0x0E0124, 0, 0x0E0030, 0x0E0034, some 9, 8, 7⟩
/-- Detections beyond 16 (Table 5.21). -/
def OSM_FO_DROPPED : Ctr := ⟨"OSM_FO_DROPPED", 0x0E0128, 0, 0x0E0030, 0x0E0034, some 10, 8, 7⟩
/-- DEFLOC retunes (Table 5.21). -/
def OSM_DEF_RETUNE : Ctr := ⟨"OSM_DEF_RETUNE", 0x0E012C, 0, 0x0E0030, 0x0E0034, some 11, 8, 7⟩
/-- SSODET runs (Table 5.21). -/
def OSM_SSO_RUNS : Ctr := ⟨"OSM_SSO_RUNS", 0x0E0130, 0, 0x0E0030, 0x0E0034, some 12, 8, 7⟩
/-- SSODET channel windows lacking samples (Table 5.21). -/
def OSM_SSO_GAP : Ctr := ⟨"OSM_SSO_GAP", 0x0E0134, 0, 0x0E0030, 0x0E0034, some 13, 8, 7⟩
/-- OSCMON blocks later than the bounds of R174 (Table 5.21). -/
def OSM_LATE_OUT : Ctr := ⟨"OSM_LATE_OUT", 0x0E0138, 0, 0x0E0030, 0x0E0034, some 14, 8, 7⟩
/-- ISLDET runs (Table 6.14). -/
def ISL_RUNS : Ctr := ⟨"ISL_RUNS", 0x0F0100, 0, 0x0F0030, 0x0F0034, some 0, 9, 4⟩
/-- ISLIN runs (Table 6.14). -/
def ISLIN_RUNS : Ctr := ⟨"ISLIN_RUNS", 0x0F0104, 0, 0x0F0030, 0x0F0034, some 1, 9, 4⟩
/-- Changes accepted with the views agreeing (Table 6.14). -/
def ISL_ACCEPT_AGREE : Ctr := ⟨"ISL_ACCEPT_AGREE", 0x0F0108, 0, 0x0F0030, 0x0F0034, some 2, 9, 4⟩
/-- Changes accepted at a second run (Table 6.14). -/
def ISL_ACCEPT_PERSIST : Ctr := ⟨"ISL_ACCEPT_PERSIST", 0x0F010C, 0, 0x0F0030, 0x0F0034, some 3, 9, 4⟩
/-- Candidates dropped unaccepted (R200) (Table 6.14). -/
def ISL_PENDING_DROPPED : Ctr := ⟨"ISL_PENDING_DROPPED", 0x0F0110, 0, 0x0F0030, 0x0F0034, some 4, 9, 4⟩
/-- Runs at which the views disagree (Table 6.14). -/
def ISL_DISAGREE_LAPS : Ctr := ⟨"ISL_DISAGREE_LAPS", 0x0F0114, 0, 0x0F0030, 0x0F0034, some 5, 9, 4⟩
/-- Branch ends unknown, per run (R195) (Table 6.14). -/
def ISL_STATUS_UNKNOWN : Ctr := ⟨"ISL_STATUS_UNKNOWN", 0x0F0118, 0, 0x0F0030, 0x0F0034, some 6, 9, 4⟩
/-- Double-point pairs reading 0b11 (Table 6.14). -/
def ISL_STATUS_BAD : Ctr := ⟨"ISL_STATUS_BAD", 0x0F011C, 0, 0x0F0030, 0x0F0034, some 7, 9, 4⟩
/-- Members moved out of outlier groups (R198) (Table 6.14). -/
def ISL_OUTLIERS : Ctr := ⟨"ISL_OUTLIERS", 0x0F0120, 0, 0x0F0030, 0x0F0034, some 8, 9, 4⟩
/-- Unreported islands, per run (R203) (Table 6.14). -/
def ISL_UNREPORTED : Ctr := ⟨"ISL_UNREPORTED", 0x0F0124, 0, 0x0F0030, 0x0F0034, some 9, 9, 4⟩
/-- Contributions wholly excluded (R194) (Table 6.14). -/
def ISL_CONTRIB_MISSING : Ctr := ⟨"ISL_CONTRIB_MISSING", 0x0F0128, 0, 0x0F0030, 0x0F0034, some 10, 9, 4⟩
/-- Runs with no active graph (Table 6.14). -/
def ISL_NOGRAPH : Ctr := ⟨"ISL_NOGRAPH", 0x0F012C, 0, 0x0F0030, 0x0F0034, some 11, 9, 4⟩
/-- Swaps applied (Table 6.14). -/
def ISL_SWAPS : Ctr := ⟨"ISL_SWAPS", 0x0F0130, 0, 0x0F0030, 0x0F0034, some 12, 9, 4⟩
/-- Operands accepted into the matching store, one for each task that an operand serves: a RELEASE token that makes n tasks counts n (Table 7.16). -/
def SRT_TOKENS_IN : Ctr := ⟨"SRT_TOKENS_IN", 0x0A0100, 0, 0x0A0070, 0x0A0074, some 0, 6, 6⟩
/-- Tasks becoming ready (Table 7.16). -/
def SRT_TASKS_READY : Ctr := ⟨"SRT_TASKS_READY", 0x0A0104, 0, 0x0A0070, 0x0A0074, some 1, 6, 6⟩
/-- Placements, retries included (Table 7.16). -/
def SRT_TASKS_PLACED : Ctr := ⟨"SRT_TASKS_PLACED", 0x0A0108, 0, 0x0A0070, 0x0A0074, some 2, 6, 6⟩
/-- Tasks leaving flight by commit (Table 7.16). -/
def SRT_TASKS_DONE : Ctr := ⟨"SRT_TASKS_DONE", 0x0A010C, 0, 0x0A0070, 0x0A0074, some 3, 6, 6⟩
/-- Tokens refused at the release port (R225) (Table 7.16). -/
def SRT_REL_REFUSE : Ctr := ⟨"SRT_REL_REFUSE", 0x0A0110, 0, 0x0A0070, 0x0A0074, some 4, 6, 6⟩
/-- Ticks with a refused offer (R226) (Table 7.16). -/
def SRT_REL_STALL_US : Ctr := ⟨"SRT_REL_STALL_US", 0x0A0114, 0, 0x0A0070, 0x0A0074, some 5, 6, 6⟩
/-- Engine commits held for an entry (Table 7.16). -/
def SRT_ENG_HELD : Ctr := ⟨"SRT_ENG_HELD", 0x0A0118, 0, 0x0A0070, 0x0A0074, some 6, 6, 6⟩
/-- Firmware submissions held (Table 7.16). -/
def SRT_STRIDE_HELD : Ctr := ⟨"SRT_STRIDE_HELD", 0x0A011C, 0, 0x0A0070, 0x0A0074, some 7, 6, 6⟩
/-- Instance timers held (R217) (Table 7.16). -/
def SRT_TIMER_HELD : Ctr := ⟨"SRT_TIMER_HELD", 0x0A0120, 0, 0x0A0070, 0x0A0074, some 8, 6, 6⟩
/-- Rharix partials held (Table 7.16). -/
def SRT_PARTIAL_HELD : Ctr := ⟨"SRT_PARTIAL_HELD", 0x0A0124, 0, 0x0A0070, 0x0A0074, some 9, 6, 6⟩
/-- Tasks ready with their queue full (R219) (Table 7.16). -/
def SRT_RDYQ_FULL : Ctr := ⟨"SRT_RDYQ_FULL", 0x0A0128, 0, 0x0A0070, 0x0A0074, some 10, 6, 6⟩
/-- Timers expired (Table 7.16). -/
def SRT_TIMERS_EXPIRED : Ctr := ⟨"SRT_TIMERS_EXPIRED", 0x0A012C, 0, 0x0A0070, 0x0A0074, some 11, 6, 6⟩
/-- Timer carries, one for each timer at each tick to which it is carried (R217) (Table 7.16). -/
def SRT_TIMER_SLIP : Ctr := ⟨"SRT_TIMER_SLIP", 0x0A0130, 0, 0x0A0070, 0x0A0074, some 12, 6, 6⟩
/-- Commits held for AMEND_SEQ order (R224) (Table 7.16). -/
def SRT_COMMIT_HOLD : Ctr := ⟨"SRT_COMMIT_HOLD", 0x0A0134, 0, 0x0A0070, 0x0A0074, some 13, 6, 6⟩
/-- Pinned tasks placed off their pins (R222) (Table 7.16). -/
def SRT_PIN_OVERRIDE : Ctr := ⟨"SRT_PIN_OVERRIDE", 0x0A0138, 0, 0x0A0070, 0x0A0074, some 14, 6, 6⟩
/-- Tasks placed away from home (Table 7.16). -/
def SRT_AWAY : Ctr := ⟨"SRT_AWAY", 0x0A013C, 0, 0x0A0070, 0x0A0074, some 15, 6, 6⟩
/-- Retries placed (Table 7.16). -/
def SRT_RETRY_PLACED : Ctr := ⟨"SRT_RETRY_PLACED", 0x0A0140, 0, 0x0A0070, 0x0A0074, some 16, 6, 6⟩
/-- Transitions into CONTESTED (Table 7.16). -/
def SRT_CONTESTED : Ctr := ⟨"SRT_CONTESTED", 0x0A0144, 0, 0x0A0070, 0x0A0074, some 17, 6, 6⟩
/-- Chain evaluations (Table 8.20). -/
def ALM_EVALS : Ctr := ⟨"ALM_EVALS", 0x100100, 0, 0x100090, 0x100094, some 0, 10, 3⟩
/-- PROVISIONAL RAISE records (Table 8.20). -/
def ALM_RAISE_PROV : Ctr := ⟨"ALM_RAISE_PROV", 0x100104, 0, 0x100090, 0x100094, some 1, 10, 3⟩
/-- Firm RAISE records (Table 8.20). -/
def ALM_RAISE_FIRM : Ctr := ⟨"ALM_RAISE_FIRM", 0x100108, 0, 0x100090, 0x100094, some 2, 10, 3⟩
/-- CONFIRM records, FOUND included (Table 8.20). -/
def ALM_CONFIRM : Ctr := ⟨"ALM_CONFIRM", 0x10010C, 0, 0x100090, 0x100094, some 3, 10, 3⟩
/-- CONFIRM records with FOUND (Table 8.20). -/
def ALM_FOUND : Ctr := ⟨"ALM_FOUND", 0x100110, 0, 0x100090, 0x100094, some 4, 10, 3⟩
/-- RECALL records (Table 8.20). -/
def ALM_RECALL : Ctr := ⟨"ALM_RECALL", 0x100114, 0, 0x100090, 0x100094, some 5, 10, 3⟩
/-- CLEAR records (Table 8.20). -/
def ALM_CLEAR : Ctr := ⟨"ALM_CLEAR", 0x100118, 0, 0x100090, 0x100094, some 6, 10, 3⟩
/-- Evaluations decided by NANP (Table 8.20). -/
def ALM_NAN_LAPS : Ctr := ⟨"ALM_NAN_LAPS", 0x10011C, 0, 0x100090, 0x100094, some 7, 10, 3⟩
/-- Records dropped (R246) (Table 8.20). -/
def ALM_HOST_DROP : Ctr := ⟨"ALM_HOST_DROP", 0x100120, 0, 0x100090, 0x100094, some 8, 10, 3⟩
/-- Threshold commands applied (Table 8.20). -/
def ALM_THR_CMDS : Ctr := ⟨"ALM_THR_CMDS", 0x100124, 0, 0x100090, 0x100094, some 9, 10, 3⟩
/-- GOOSE and R-GOOSE messages sent (Table 8.20). -/
def EGR_GOOSE_TX : Ctr := ⟨"EGR_GOOSE_TX", 0x110100, 0, 0x110010, 0x110014, some 0, 11, 2⟩
/-- stNum changes (Table 8.20). -/
def EGR_GOOSE_ST : Ctr := ⟨"EGR_GOOSE_ST", 0x110104, 0, 0x110010, 0x110014, some 1, 11, 2⟩
/-- R-GOOSE messages signed or encrypted (Table 8.20). -/
def EGR_RGOOSE_SEC : Ctr := ⟨"EGR_RGOOSE_SEC", 0x110108, 0, 0x110010, 0x110014, some 2, 11, 2⟩
/-- C37.118 data frames sent (Table 8.20). -/
def EGR_C37_FRAMES : Ctr := ⟨"EGR_C37_FRAMES", 0x11010C, 0, 0x110010, 0x110014, some 3, 11, 2⟩
/-- TCP segments sent (Table 8.20). -/
def EGR_C37_SEGS : Ctr := ⟨"EGR_C37_SEGS", 0x110110, 0, 0x110010, 0x110014, some 4, 11, 2⟩
/-- Frames not sent (R257) (Table 8.20). -/
def EGR_C37_DROP : Ctr := ⟨"EGR_C37_DROP", 0x110114, 0, 0x110010, 0x110014, some 5, 11, 2⟩
/-- Commands honoured (Table 8.20). -/
def EGR_C37_CMD : Ctr := ⟨"EGR_C37_CMD", 0x110118, 0, 0x110010, 0x110014, some 6, 11, 2⟩
/-- Commands ignored (Table 8.20). -/
def EGR_C37_CMD_BAD : Ctr := ⟨"EGR_C37_CMD_BAD", 0x11011C, 0, 0x110010, 0x110014, some 7, 11, 2⟩
/-- TCP retransmissions (Table 8.20). -/
def EGR_TCP_RETX : Ctr := ⟨"EGR_TCP_RETX", 0x110120, 0, 0x110010, 0x110014, some 8, 11, 2⟩
/-- Configuration and header frames sent (Table 8.20). -/
def EGR_CFG_SENT : Ctr := ⟨"EGR_CFG_SENT", 0x110124, 0, 0x110010, 0x110014, some 9, 11, 2⟩
/-- Frames transmitted (Table 8.20). -/
def TX_FRAMES_OK : Ctr := ⟨"TX_FRAMES_OK", 0x040900, 0x2000, 0x040800, 0x040804, some 0, 3, 2⟩
/-- Frames from the alarm queue (Table 8.20). -/
def TX_ALARM_Q : Ctr := ⟨"TX_ALARM_Q", 0x040904, 0x2000, 0x040800, 0x040804, some 1, 3, 2⟩
/-- Frames from the stream queue (Table 8.20). -/
def TX_STREAM_Q : Ctr := ⟨"TX_STREAM_Q", 0x040908, 0x2000, 0x040800, 0x040804, some 2, 3, 2⟩
/-- TCP segments transmitted (Table 8.20). -/
def TX_SEGMENTS : Ctr := ⟨"TX_SEGMENTS", 0x04090C, 0x2000, 0x040800, 0x040804, some 3, 3, 2⟩
/-- Phasor outputs (Table 9.25). -/
def LMF_PH_OUT : Ctr := ⟨"LMF_PH_OUT", 0x120A00, 0, 0x120900, 0x120904, some 0, 12, 3⟩
/-- Capture outputs (Table 9.25). -/
def LMF_CAP_OUT : Ctr := ⟨"LMF_CAP_OUT", 0x120A04, 0, 0x120900, 0x120904, some 1, 12, 3⟩
/-- Cross-fades started (Table 9.25). -/
def LMF_FADES : Ctr := ⟨"LMF_FADES", 0x120A08, 0, 0x120900, 0x120904, some 2, 12, 3⟩
/-- Requests queued (Table 9.25). -/
def LMF_QUEUED : Ctr := ⟨"LMF_QUEUED", 0x120A0C, 0, 0x120900, 0x120904, some 3, 12, 3⟩
/-- Queued requests replaced (Table 9.25). -/
def LMF_REPLACED : Ctr := ⟨"LMF_REPLACED", 0x120A10, 0, 0x120900, 0x120904, some 4, 12, 3⟩
/-- Writes and loads rejected or ignored (R279) (Table 9.25). -/
def LMF_REJECTS : Ctr := ⟨"LMF_REJECTS", 0x120A14, 0, 0x120900, 0x120904, some 5, 12, 3⟩
/-- Outputs marked OVR (Table 9.25). -/
def LMF_OVR : Ctr := ⟨"LMF_OVR", 0x120A18, 0, 0x120900, 0x120904, some 6, 12, 3⟩
/-- Channels becoming faulted (Table 9.25). -/
def LMF_FAULTS : Ctr := ⟨"LMF_FAULTS", 0x120A1C, 0, 0x120900, 0x120904, some 7, 12, 3⟩
/-- Records completed (Table 9.25). -/
def ACQ_RECORDS : Ctr := ⟨"ACQ_RECORDS", 0x130200, 0, 0x130090, 0x130094, some 0, 13, 2⟩
/-- Records started by a trigger or FORCE (Table 9.25). -/
def ACQ_TRIGGERS : Ctr := ⟨"ACQ_TRIGGERS", 0x130204, 0, 0x130090, 0x130094, some 1, 13, 2⟩
/-- Retriggers (R285) (Table 9.25). -/
def ACQ_RETRIG : Ctr := ⟨"ACQ_RETRIG", 0x130208, 0, 0x130090, 0x130094, some 2, 13, 2⟩
/-- Ends set by a mask (Table 9.25). -/
def ACQ_MASK_STOPS : Ctr := ⟨"ACQ_MASK_STOPS", 0x13020C, 0, 0x130090, 0x130094, some 3, 13, 2⟩
/-- Triggers met in FULL (Table 9.25). -/
def ACQ_TRIG_LOST : Ctr := ⟨"ACQ_TRIG_LOST", 0x130210, 0, 0x130090, 0x130094, some 4, 13, 2⟩
/-- Records truncated (Table 9.25). -/
def ACQ_TRUNC : Ctr := ⟨"ACQ_TRUNC", 0x130214, 0, 0x130090, 0x130094, some 5, 13, 2⟩
/-- Records with PRE_SHORT (Table 9.25). -/
def ACQ_PRE_SHORT : Ctr := ⟨"ACQ_PRE_SHORT", 0x130218, 0, 0x130090, 0x130094, some 6, 13, 2⟩
/-- Blocks written (Table 9.25). -/
def ACQ_BLOCKS : Ctr := ⟨"ACQ_BLOCKS", 0x13021C, 0, 0x130090, 0x130094, some 7, 13, 2⟩
/-- Blocks started after a source gap (Table 9.25). -/
def ACQ_SRC_GAP : Ctr := ⟨"ACQ_SRC_GAP", 0x130220, 0, 0x130090, 0x130094, some 8, 13, 2⟩
/-- Header copies dropped (R290) (Table 9.25). -/
def ACQ_SUM_DROP : Ctr := ⟨"ACQ_SUM_DROP", 0x130224, 0, 0x130090, 0x130094, some 9, 13, 2⟩
/-- Lane samples accumulated (Table 10.16). -/
def NRG_SAMPLES : Ctr := ⟨"NRG_SAMPLES", 0x140500, 0, 0x140400, 0x140404, some 0, 14, 3⟩
/-- Missing samples (R299) (Table 10.16). -/
def NRG_MISSING : Ctr := ⟨"NRG_MISSING", 0x140504, 0, 0x140400, 0x140404, some 1, 14, 3⟩
/-- Reversals (R302) (Table 10.16). -/
def NRG_REVERSALS : Ctr := ⟨"NRG_REVERSALS", 0x140508, 0, 0x140400, 0x140404, some 2, 14, 3⟩
/-- Interval records written (Table 10.16). -/
def NRG_INTERVALS : Ctr := ⟨"NRG_INTERVALS", 0x14050C, 0, 0x140400, 0x140404, some 3, 14, 3⟩
/-- Interval records dropped (R309) (Table 10.16). -/
def NRG_INT_DROP : Ctr := ⟨"NRG_INT_DROP", 0x140510, 0, 0x140400, 0x140404, some 4, 14, 3⟩
/-- Pulses counted (Table 10.16). -/
def NRG_PLSI_PULSES : Ctr := ⟨"NRG_PLSI_PULSES", 0x140514, 0, 0x140400, 0x140404, some 5, 14, 3⟩
/-- Level changes dropped by debounce (Table 10.16). -/
def NRG_PLSI_GLITCH : Ctr := ⟨"NRG_PLSI_GLITCH", 0x140518, 0, 0x140400, 0x140404, some 6, 14, 3⟩
/-- Output pulses completed, driven or not (Table 10.16). -/
def NRG_PLSO_PULSES : Ctr := ⟨"NRG_PLSO_PULSES", 0x14051C, 0, 0x140400, 0x140404, some 7, 14, 3⟩
/-- Output pulses dropped (R310) (Table 10.16). -/
def NRG_PLSO_OVF : Ctr := ⟨"NRG_PLSO_OVF", 0x140520, 0, 0x140400, 0x140404, some 8, 14, 3⟩
/-- Snapshots taken (Table 10.16). -/
def NRG_SNAPS : Ctr := ⟨"NRG_SNAPS", 0x140524, 0, 0x140400, 0x140404, some 9, 14, 3⟩
/-- Steps applied (R323, R324) (Table 11.22). -/
def TK_STEPS : Ctr := ⟨"TK_STEPS", 0x020100, 0, 0x020090, 0x020094, some 0, 2, 5⟩
/-- Changes of selection (Table 11.22). -/
def TK_SRC_SWITCH : Ctr := ⟨"TK_SRC_SWITCH", 0x020104, 0, 0x020090, 0x020094, some 1, 2, 5⟩
/-- IRIG-B frames in error (Table 11.22). -/
def TK_IRIG_ERR : Ctr := ⟨"TK_IRIG_ERR", 0x020108, 0, 0x020090, 0x020094, some 2, 2, 5⟩
/-- PPS_IN edges outside the window (Table 11.22). -/
def TK_PPS_REJECT : Ctr := ⟨"TK_PPS_REJECT", 0x02010C, 0, 0x020090, 0x020094, some 3, 2, 5⟩
/-- PTP messages accepted, all ports (Table 11.22). -/
def TK_PTP_RX : Ctr := ⟨"TK_PTP_RX", 0x020110, 0, 0x020090, 0x020094, some 4, 2, 5⟩
/-- PTP messages sent, all ports (Table 11.22). -/
def TK_PTP_TX : Ctr := ⟨"TK_PTP_TX", 0x020114, 0, 0x020090, 0x020094, some 5, 2, 5⟩
/-- Unsupported or malformed PTP messages (Table 11.22). -/
def TK_PTP_RX_BAD : Ctr := ⟨"TK_PTP_RX_BAD", 0x020118, 0, 0x020090, 0x020094, some 6, 2, 5⟩
/-- Transmit time-stamp entries dropped, all ports (Table 11.22). -/
def TK_TXTS_DROP : Ctr := ⟨"TK_TXTS_DROP", 0x02011C, 0, 0x020090, 0x020094, some 7, 2, 5⟩
/-- Follow-up messages not sent (R329) (Table 11.22). -/
def TK_FU_MISSED : Ctr := ⟨"TK_FU_MISSED", 0x020120, 0, 0x020090, 0x020094, some 8, 2, 5⟩
/-- PTP messages on MGT0 and MGT1 (R338) (Table 11.22). -/
def TK_MGT_PTP_DROP : Ctr := ⟨"TK_MGT_PTP_DROP", 0x020124, 0, 0x020090, 0x020094, some 9, 2, 5⟩
/-- Frames sent, retransmissions included (Table 12.17). -/
def RXL_TX_FRAMES : Ctr := ⟨"RXL_TX_FRAMES", 0x150100, 0, 0x150050, 0x150054, some 0, 15, 5⟩
/-- Frames accepted (Table 12.17). -/
def RXL_RX_FRAMES : Ctr := ⟨"RXL_RX_FRAMES", 0x150104, 0, 0x150050, 0x150054, some 1, 15, 5⟩
/-- Table 12.4, step 2 (Table 12.17). -/
def RXL_RX_SIZE : Ctr := ⟨"RXL_RX_SIZE", 0x150108, 0, 0x150050, 0x150054, some 2, 15, 5⟩
/-- Step 3 (Table 12.17). -/
def RXL_RX_CRC : Ctr := ⟨"RXL_RX_CRC", 0x15010C, 0, 0x150050, 0x150054, some 3, 15, 5⟩
/-- Steps 4 and 6; R353 (Table 12.17). -/
def RXL_RX_HDR : Ctr := ⟨"RXL_RX_HDR", 0x150110, 0, 0x150050, 0x150054, some 4, 15, 5⟩
/-- Step 5 (Table 12.17). -/
def RXL_RX_AUTH : Ctr := ⟨"RXL_RX_AUTH", 0x150114, 0, 0x150050, 0x150054, some 5, 15, 5⟩
/-- Repeats (R349) (Table 12.17). -/
def RXL_RX_DUP : Ctr := ⟨"RXL_RX_DUP", 0x150118, 0, 0x150050, 0x150054, some 6, 15, 5⟩
/-- Frames outside the window (Table 12.17). -/
def RXL_RX_OOW : Ctr := ⟨"RXL_RX_OOW", 0x15011C, 0, 0x150050, 0x150054, some 7, 15, 5⟩
/-- Step 1 (Table 12.17). -/
def RXL_RX_NOLINK : Ctr := ⟨"RXL_RX_NOLINK", 0x150120, 0, 0x150050, 0x150054, some 8, 15, 5⟩
/-- R354, R360, R357 (Table 12.17). -/
def RXL_RX_NOTARGET : Ctr := ⟨"RXL_RX_NOTARGET", 0x150124, 0, 0x150050, 0x150054, some 9, 15, 5⟩
/-- Retransmissions (Table 12.17). -/
def RXL_RETX : Ctr := ⟨"RXL_RETX", 0x150128, 0, 0x150050, 0x150054, some 10, 15, 5⟩
/-- Frames discarded unsent or unacknowledged (Table 12.17). -/
def RXL_TX_ABANDON : Ctr := ⟨"RXL_TX_ABANDON", 0x15012C, 0, 0x150050, 0x150054, some 11, 15, 5⟩
/-- Frames forwarded (Table 12.17). -/
def RXL_FWD : Ctr := ⟨"RXL_FWD", 0x150130, 0, 0x150050, 0x150054, some 12, 15, 5⟩
/-- Frames out of hops (Table 12.17). -/
def RXL_HOPS_DROP : Ctr := ⟨"RXL_HOPS_DROP", 0x150134, 0, 0x150050, 0x150054, some 13, 15, 5⟩
/-- Frames without a usable route (Table 12.17). -/
def RXL_NOROUTE : Ctr := ⟨"RXL_NOROUTE", 0x150138, 0, 0x150050, 0x150054, some 14, 15, 5⟩
/-- Peers declared lost (Table 12.17). -/
def RXL_PEER_LOST : Ctr := ⟨"RXL_PEER_LOST", 0x15013C, 0, 0x150050, 0x150054, some 15, 15, 5⟩
/-- Passes sent (Table 12.17). -/
def RXL_PASS_SENT : Ctr := ⟨"RXL_PASS_SENT", 0x150140, 0, 0x150050, 0x150054, some 16, 15, 5⟩
/-- Passes accepted (Table 12.17). -/
def RXL_PASS_TAKEN : Ctr := ⟨"RXL_PASS_TAKEN", 0x150144, 0, 0x150050, 0x150054, some 17, 15, 5⟩
/-- Lanes taken without a pass (R359) (Table 12.17). -/
def RXL_TAKE_NOPASS : Ctr := ⟨"RXL_TAKE_NOPASS", 0x150148, 0, 0x150050, 0x150054, some 18, 15, 5⟩
/-- Pinned lanes hashed (R355) (Table 12.17). -/
def RXL_PIN_OVERRIDE : Ctr := ⟨"RXL_PIN_OVERRIDE", 0x15014C, 0, 0x150050, 0x150054, some 19, 15, 5⟩
/-- Partials missing at a combine (Table 12.17). -/
def RXL_PART_MISSING : Ctr := ⟨"RXL_PART_MISSING", 0x150150, 0, 0x150050, 0x150054, some 20, 15, 5⟩
/-- Elements reported by two members (Table 12.17). -/
def RXL_PART_DUP : Ctr := ⟨"RXL_PART_DUP", 0x150154, 0, 0x150050, 0x150054, some 21, 15, 5⟩
/-- Anchor combines (Table 12.17). -/
def RXL_COMBINES : Ctr := ⟨"RXL_COMBINES", 0x150158, 0, 0x150050, 0x150054, some 22, 15, 5⟩
/-- Anchor switches (R364) (Table 12.17). -/
def RXL_ANCHOR_SWITCH : Ctr := ⟨"RXL_ANCHOR_SWITCH", 0x15015C, 0, 0x150050, 0x150054, some 23, 15, 5⟩
/-- JOURNAL frames sent (Table 13.8). -/
def RLY_JNL_TX : Ctr := ⟨"RLY_JNL_TX", 0x160100, 0, 0x160030, 0x160034, some 0, 16, 5⟩
/-- JOURNAL frames accepted (Table 13.8). -/
def RLY_JNL_RX : Ctr := ⟨"RLY_JNL_RX", 0x160104, 0, 0x160030, 0x160034, some 1, 16, 5⟩
/-- Baton taken (R379) (Table 13.8). -/
def RLY_TAKEOVERS : Ctr := ⟨"RLY_TAKEOVERS", 0x160108, 0, 0x160030, 0x160034, some 2, 16, 5⟩
/-- Baton released (R377) (Table 13.8). -/
def RLY_RELEASES : Ctr := ⟨"RLY_RELEASES", 0x16010C, 0, 0x160030, 0x160034, some 3, 16, 5⟩
/-- Losses of step (R373) (Table 13.8). -/
def RLY_STEP_LOSS : Ctr := ⟨"RLY_STEP_LOSS", 0x160110, 0, 0x160030, 0x160034, some 4, 16, 5⟩
/-- Checkpoints loaded (Table 13.8). -/
def RLY_RESYNCS : Ctr := ⟨"RLY_RESYNCS", 0x160114, 0, 0x160030, 0x160034, some 5, 16, 5⟩
/-- Checkpoints refused on digest (Table 13.8). -/
def RLY_CFG_MISMATCH : Ctr := ⟨"RLY_CFG_MISMATCH", 0x160118, 0, 0x160030, 0x160034, some 6, 16, 5⟩
/-- Completions written (Table 14.21). -/
def HIF_DESC_DONE : Ctr := ⟨"HIF_DESC_DONE", 0x170100, 0, 0x170090, 0x170094, some 0, 17, 4⟩
/-- Completions with STATUS other than OK (Table 14.21). -/
def HIF_DESC_ERR : Ctr := ⟨"HIF_DESC_ERR", 0x170104, 0, 0x170090, 0x170094, some 1, 17, 4⟩
/-- Doorbell writes ignored (R394) (Table 14.21). -/
def HIF_DB_ERR : Ctr := ⟨"HIF_DB_ERR", 0x170108, 0, 0x170090, 0x170094, some 2, 17, 4⟩
/-- BAR0 accesses refused (R389) (Table 14.21). -/
def HIF_BAD_ACCESS : Ctr := ⟨"HIF_BAD_ACCESS", 0x17010C, 0, 0x170090, 0x170094, some 3, 17, 4⟩
/-- Link-downs (R391) (Table 14.21). -/
def HIF_LINK_DOWN : Ctr := ⟨"HIF_LINK_DOWN", 0x170110, 0, 0x170090, 0x170094, some 4, 17, 4⟩
/-- Alarm export copies dropped (R405) (Table 14.21). -/
def HIF_SF_DROP : Ctr := ⟨"HIF_SF_DROP", 0x170114, 0, 0x170090, 0x170094, some 5, 17, 4⟩
/-- Flushes (R408) (Table 14.21). -/
def HIF_SF_FLUSHES : Ctr := ⟨"HIF_SF_FLUSHES", 0x170118, 0, 0x170090, 0x170094, some 6, 17, 4⟩
/-- Releases with a wrong SEQ (R409) (Table 14.21). -/
def HIF_SLOT_REL_BAD : Ctr := ⟨"HIF_SLOT_REL_BAD", 0x17011C, 0, 0x170090, 0x170094, some 7, 17, 4⟩
/-- DMA_ERR and ERR_LAST completions (Table 14.21). -/
def DMA_ERR_CNT : Ctr := ⟨"DMA_ERR_CNT", 0x170120, 0, 0x170090, 0x170094, some 8, 17, 4⟩
/-- ERR_LAST completions (Table 14.21). -/
def DMA_ERR_LAST_CNT : Ctr := ⟨"DMA_ERR_LAST_CNT", 0x170124, 0, 0x170090, 0x170094, some 9, 17, 4⟩
/-- Stops by abort (Table 14.21). -/
def DMA_ABORTS : Ctr := ⟨"DMA_ABORTS", 0x170128, 0, 0x170090, 0x170094, none, 17, 4⟩
/-- Stops by disable (Table 14.21). -/
def DMA_DISABLES : Ctr := ⟨"DMA_DISABLES", 0x17012C, 0, 0x170090, 0x170094, none, 17, 4⟩
/-- Commands applied (Table 15.12). -/
def KEY_CMDS : Ctr := ⟨"KEY_CMDS", 0x180100, 0, 0x1800E0, 0x1800E4, some 0, 18, 5⟩
/-- ROLL commands applied (Table 15.12). -/
def KEY_ROLLS : Ctr := ⟨"KEY_ROLLS", 0x180104, 0, 0x1800E0, 0x1800E4, some 1, 18, 5⟩
/-- Failed unlocks (R415) (Table 15.12). -/
def KEY_PRIV_FAIL : Ctr := ⟨"KEY_PRIV_FAIL", 0x180108, 0, 0x1800E0, 0x1800E4, some 2, 18, 5⟩
/-- Messages not sent for want of a current key (R424) (Table 15.12). -/
def KEY_NOKEY : Ctr := ⟨"KEY_NOKEY", 0x18010C, 0, 0x1800E0, 0x1800E4, some 3, 18, 5⟩
/-- Attestation responses (Table 15.12). -/
def KEY_ATTESTS : Ctr := ⟨"KEY_ATTESTS", 0x180110, 0, 0x1800E0, 0x1800E4, some 4, 18, 5⟩
/-- Records started (Table 16.9). -/
def SCB_RECORDS : Ctr := ⟨"SCB_RECORDS", 0x190200, 0, 0x190080, 0x190084, some 0, 19, 5⟩
/-- Occurrences folded (R434) (Table 16.9). -/
def SCB_FOLDED : Ctr := ⟨"SCB_FOLDED", 0x190204, 0, 0x190080, 0x190084, some 1, 19, 5⟩
/-- Events not recorded (R436) (Table 16.9). -/
def SCB_LOST : Ctr := ⟨"SCB_LOST", 0x190208, 0, 0x190080, 0x190084, some 2, 19, 5⟩
/-- Flushes (Table 16.9). -/
def SCB_FLUSHES : Ctr := ⟨"SCB_FLUSHES", 0x19020C, 0, 0x190080, 0x190084, some 3, 19, 5⟩
/-- Sector erases (Table 16.9). -/
def SCB_ERASES : Ctr := ⟨"SCB_ERASES", 0x190210, 0, 0x190080, 0x190084, some 4, 19, 5⟩
/-- Entries written (Table 16.9). -/
def JNL_ENTRIES : Ctr := ⟨"JNL_ENTRIES", 0x190214, 0, 0x190080, 0x190084, some 5, 19, 5⟩
/-- Entries overwritten undrained (Table 16.9). -/
def JNL_LOST : Ctr := ⟨"JNL_LOST", 0x190218, 0, 0x190080, 0x190084, some 6, 19, 5⟩
/-- Checkpoints completed (Table 16.9). -/
def JNL_CKPTS : Ctr := ⟨"JNL_CKPTS", 0x19021C, 0, 0x190080, 0x190084, some 7, 19, 5⟩
/-- Entries applied in RERUN (Table 16.9). -/
def JNL_RR_APPLIED : Ctr := ⟨"JNL_RR_APPLIED", 0x190220, 0, 0x190080, 0x190084, some 8, 19, 5⟩
/-- SRAM correctable errors (Table 17.9). -/
def MEM_CE : Ctr := ⟨"MEM_CE", 0x1A0100, 0, 0x1A0040, 0x1A0044, some 0, 20, 5⟩
/-- SRAM uncorrectable reads (Table 17.9). -/
def MEM_UE : Ctr := ⟨"MEM_UE", 0x1A0104, 0, 0x1A0040, 0x1A0044, some 1, 20, 5⟩
/-- DDR5 corrected bursts (Table 17.9). -/
def MEM_CE_DDR : Ctr := ⟨"MEM_CE_DDR", 0x1A0108, 0, 0x1A0040, 0x1A0044, some 2, 20, 5⟩
/-- DDR5 uncorrectable bursts (Table 17.9). -/
def MEM_UE_DDR : Ctr := ⟨"MEM_UE_DDR", 0x1A010C, 0, 0x1A0040, 0x1A0044, some 3, 20, 5⟩
/-- Correcting write-backs (R456) (Table 17.9). -/
def MEM_WRITEBACK : Ctr := ⟨"MEM_WRITEBACK", 0x1A0110, 0, 0x1A0040, 0x1A0044, some 4, 20, 5⟩
/-- Narrow writes completed by merging (Table 17.9). -/
def MEM_MERGED : Ctr := ⟨"MEM_MERGED", 0x1A0114, 0, 0x1A0040, 0x1A0044, some 5, 20, 5⟩
/-- Read-modify-writes (Table 17.9). -/
def MEM_RMW : Ctr := ⟨"MEM_RMW", 0x1A0118, 0, 0x1A0040, 0x1A0044, some 6, 20, 5⟩
/-- Completed sweeps (Table 17.9). -/
def MEM_SCRUB_PASSES : Ctr := ⟨"MEM_SCRUB_PASSES", 0x1A011C, 0, 0x1A0040, 0x1A0044, some 7, 20, 5⟩
/-- Late sweeps (Table 17.9). -/
def MEM_SCRUB_LATE : Ctr := ⟨"MEM_SCRUB_LATE", 0x1A0120, 0, 0x1A0040, 0x1A0044, some 8, 20, 5⟩
/-- Injections applied (Table 17.9). -/
def MEM_INJ_HITS : Ctr := ⟨"MEM_INJ_HITS", 0x1A0124, 0, 0x1A0040, 0x1A0044, some 9, 20, 5⟩
/-- Frames sent (Table 18.10). -/
def XCR_TX_FRAMES : Ctr := ⟨"XCR_TX_FRAMES", 0x1B0200, 0, 0x1B0190, 0x1B0194, some 0, 21, 4⟩
/-- Frames accepted (Table 18.10). -/
def XCR_RX_FRAMES : Ctr := ⟨"XCR_RX_FRAMES", 0x1B0204, 0, 0x1B0190, 0x1B0194, some 1, 21, 4⟩
/-- Table 18.3 (Table 18.10). -/
def XCR_RX_SIZE : Ctr := ⟨"XCR_RX_SIZE", 0x1B0208, 0, 0x1B0190, 0x1B0194, some 2, 21, 4⟩
/-- Bad FCS (Table 18.10). -/
def XCR_RX_FCS : Ctr := ⟨"XCR_RX_FCS", 0x1B020C, 0, 0x1B0190, 0x1B0194, some 3, 21, 4⟩
/-- Bad header (Table 18.10). -/
def XCR_RX_HDR : Ctr := ⟨"XCR_RX_HDR", 0x1B0210, 0, 0x1B0190, 0x1B0194, some 4, 21, 4⟩
/-- Unknown source or destination (Table 18.10). -/
def XCR_RX_UNKNOWN : Ctr := ⟨"XCR_RX_UNKNOWN", 0x1B0214, 0, 0x1B0190, 0x1B0194, some 5, 21, 4⟩
/-- Repeats (R480) (Table 18.10). -/
def XCR_RX_DUP : Ctr := ⟨"XCR_RX_DUP", 0x1B0218, 0, 0x1B0190, 0x1B0194, some 6, 21, 4⟩
/-- Receive queue drops (R481) (Table 18.10). -/
def XCR_RXQ_DROP : Ctr := ⟨"XCR_RXQ_DROP", 0x1B021C, 0, 0x1B0190, 0x1B0194, some 7, 21, 4⟩
/-- Beacons sent (Table 18.10). -/
def XCR_BCN_SENT : Ctr := ⟨"XCR_BCN_SENT", 0x1B0220, 0, 0x1B0190, 0x1B0194, some 8, 21, 4⟩
/-- Beacons dropped (R479) (Table 18.10). -/
def XCR_BCN_SKIP : Ctr := ⟨"XCR_BCN_SKIP", 0x1B0224, 0, 0x1B0190, 0x1B0194, some 9, 21, 4⟩
/-- Transmissions deferred (Table 18.10). -/
def XCR_DWELL_DEFER : Ctr := ⟨"XCR_DWELL_DEFER", 0x1B0228, 0, 0x1B0190, 0x1B0194, some 10, 21, 4⟩
/-- Frames dropped after CCA (Table 18.10). -/
def XCR_CCA_FAIL : Ctr := ⟨"XCR_CCA_FAIL", 0x1B022C, 0, 0x1B0190, 0x1B0194, some 11, 21, 4⟩
/-- Retries (R478) (Table 18.10). -/
def XCR_RETRY : Ctr := ⟨"XCR_RETRY", 0x1B0230, 0, 0x1B0190, 0x1B0194, some 12, 21, 4⟩
/-- Sensors becoming LOST (Table 18.10). -/
def XCR_LOST : Ctr := ⟨"XCR_LOST", 0x1B0234, 0, 0x1B0190, 0x1B0194, some 13, 21, 4⟩
/-- Wake sequences sent (Table 18.10). -/
def XCR_LP_SENT : Ctr := ⟨"XCR_LP_SENT", 0x1B0238, 0, 0x1B0190, 0x1B0194, some 14, 21, 4⟩
/-- Entries to HOLD (Table 19.12). -/
def PWR_HOLDS : Ctr := ⟨"PWR_HOLDS", 0x010080, 0, 0x010040, 0x010044, some 0, 1, 8⟩
/-- Fatal errors (Table 19.12). -/
def PWR_FATALS : Ctr := ⟨"PWR_FATALS", 0x010084, 0, 0x010040, 0x010044, some 1, 1, 8⟩
/-- Saves not completed good (Table 19.12). -/
def PWR_SAVE_FAIL : Ctr := ⟨"PWR_SAVE_FAIL", 0x010088, 0, 0x010040, 0x010044, some 2, 1, 8⟩
/-- Automatic restarts (R494) (Table 19.12). -/
def PWR_RESTARTS : Ctr := ⟨"PWR_RESTARTS", 0x01008C, 0, 0x010040, 0x010044, some 3, 1, 8⟩
/-- Threshold crossings reported (Table 19.12). -/
def HLT_EVENTS : Ctr := ⟨"HLT_EVENTS", 0x010090, 0, 0x010040, 0x010044, some 4, 1, 8⟩
def ctrMap0 : List Ctr := [RX_FRAMES_OK, RX_FCS_ERR, RX_RUNT, RX_OVERSIZE, RX_CODE_ERR, RX_RATE_DROP, RX_FIFO_OVF, RX_PAUSE, RX_VLAN_DROP, RX_ADDR_DROP, RX_PRP_DUP, RX_PRP_WRONGLAN, RX_PRP_NORCT, ING_FRAMES_IN, ING_ETYPE_DROP, ING_IP_ERR, ING_IP_FRAG, ING_L4_ERR, ING_C37_ERR, ING_C37_TYPE, ING_SV_ERR, ING_A905_SESSION, ING_A905_AUTH, ING_A905_REPLAY, ING_NOSTREAM, ING_CFG_STALE, ING_OFF_GRID, ING_DUP_LAP, ING_REPEAT, ING_LANES_WRITTEN, ING_CFG_FRAMES, PFA_LAPS_OPENED, PFA_REL_ALL, PFA_REL_QUORUM, PFA_REL_DEADLINE, PFA_REL_DISABLE, PFA_PENDQ_WAIT, PFA_PENDQ_FULL, PFA_LATE_LAPS, PFA_LAPS_SKIPPED]
def ctrMap1 : List Ctr := [PFA_FENCE_SLOW, PFA_RECORDS_WRITTEN, PFA_SUBSTITUTED, PFA_AMEND_FRAMES, PFA_AMEND_TOKENS, PFA_AMEND_LOST, PFA_AMEND_CAP, PFA_STAGE_FULL, PFA_POST_RELEASE, PFA_AFTER_FINISH, PFA_TOO_EARLY, PFA_BEFORE_FIRST, PFA_ON_SKIPPED, PFA_SETTLE_TOKENS, PFA_LATE_RISK_LAPS, PAC_TASKS_DONE, PAC_TASK_AMEND, PAC_SETTLE_OUT, PAC_RES_MISMATCH, PAC_SHIFT_PARITY, PAC_RETRIES, PAC_RETRY_FAIL, PAC_QUAR_EVENTS, PAC_OUT_NAN, PAC_VPMU_REC, PAC_VPMU_INVALID, PAC_INJ_HITS, OSM_SAMPLES, OSM_EXTRACTIONS, OSM_REFRESHES, OSM_TRACK_NEW, OSM_TRACK_EST, OSM_TRACK_RETIRED, OSM_TRACK_FULL, OSM_SIG_DROPS, OSM_FO_EVALS, OSM_FO_DETECT, OSM_FO_DROPPED, OSM_DEF_RETUNE, OSM_SSO_RUNS]
def ctrMap2 : List Ctr := [OSM_SSO_GAP, OSM_LATE_OUT, ISL_RUNS, ISLIN_RUNS, ISL_ACCEPT_AGREE, ISL_ACCEPT_PERSIST, ISL_PENDING_DROPPED, ISL_DISAGREE_LAPS, ISL_STATUS_UNKNOWN, ISL_STATUS_BAD, ISL_OUTLIERS, ISL_UNREPORTED, ISL_CONTRIB_MISSING, ISL_NOGRAPH, ISL_SWAPS, SRT_TOKENS_IN, SRT_TASKS_READY, SRT_TASKS_PLACED, SRT_TASKS_DONE, SRT_REL_REFUSE, SRT_REL_STALL_US, SRT_ENG_HELD, SRT_STRIDE_HELD, SRT_TIMER_HELD, SRT_PARTIAL_HELD, SRT_RDYQ_FULL, SRT_TIMERS_EXPIRED, SRT_TIMER_SLIP, SRT_COMMIT_HOLD, SRT_PIN_OVERRIDE, SRT_AWAY, SRT_RETRY_PLACED, SRT_CONTESTED, ALM_EVALS, ALM_RAISE_PROV, ALM_RAISE_FIRM, ALM_CONFIRM, ALM_FOUND, ALM_RECALL, ALM_CLEAR]
def ctrMap3 : List Ctr := [ALM_NAN_LAPS, ALM_HOST_DROP, ALM_THR_CMDS, EGR_GOOSE_TX, EGR_GOOSE_ST, EGR_RGOOSE_SEC, EGR_C37_FRAMES, EGR_C37_SEGS, EGR_C37_DROP, EGR_C37_CMD, EGR_C37_CMD_BAD, EGR_TCP_RETX, EGR_CFG_SENT, TX_FRAMES_OK, TX_ALARM_Q, TX_STREAM_Q, TX_SEGMENTS, LMF_PH_OUT, LMF_CAP_OUT, LMF_FADES, LMF_QUEUED, LMF_REPLACED, LMF_REJECTS, LMF_OVR, LMF_FAULTS, ACQ_RECORDS, ACQ_TRIGGERS, ACQ_RETRIG, ACQ_MASK_STOPS, ACQ_TRIG_LOST, ACQ_TRUNC, ACQ_PRE_SHORT, ACQ_BLOCKS, ACQ_SRC_GAP, ACQ_SUM_DROP, NRG_SAMPLES, NRG_MISSING, NRG_REVERSALS, NRG_INTERVALS, NRG_INT_DROP]
def ctrMap4 : List Ctr := [NRG_PLSI_PULSES, NRG_PLSI_GLITCH, NRG_PLSO_PULSES, NRG_PLSO_OVF, NRG_SNAPS, TK_STEPS, TK_SRC_SWITCH, TK_IRIG_ERR, TK_PPS_REJECT, TK_PTP_RX, TK_PTP_TX, TK_PTP_RX_BAD, TK_TXTS_DROP, TK_FU_MISSED, TK_MGT_PTP_DROP, RXL_TX_FRAMES, RXL_RX_FRAMES, RXL_RX_SIZE, RXL_RX_CRC, RXL_RX_HDR, RXL_RX_AUTH, RXL_RX_DUP, RXL_RX_OOW, RXL_RX_NOLINK, RXL_RX_NOTARGET, RXL_RETX, RXL_TX_ABANDON, RXL_FWD, RXL_HOPS_DROP, RXL_NOROUTE, RXL_PEER_LOST, RXL_PASS_SENT, RXL_PASS_TAKEN, RXL_TAKE_NOPASS, RXL_PIN_OVERRIDE, RXL_PART_MISSING, RXL_PART_DUP, RXL_COMBINES, RXL_ANCHOR_SWITCH, RLY_JNL_TX]
def ctrMap5 : List Ctr := [RLY_JNL_RX, RLY_TAKEOVERS, RLY_RELEASES, RLY_STEP_LOSS, RLY_RESYNCS, RLY_CFG_MISMATCH, HIF_DESC_DONE, HIF_DESC_ERR, HIF_DB_ERR, HIF_BAD_ACCESS, HIF_LINK_DOWN, HIF_SF_DROP, HIF_SF_FLUSHES, HIF_SLOT_REL_BAD, DMA_ERR_CNT, DMA_ERR_LAST_CNT, DMA_ABORTS, DMA_DISABLES, KEY_CMDS, KEY_ROLLS, KEY_PRIV_FAIL, KEY_NOKEY, KEY_ATTESTS, SCB_RECORDS, SCB_FOLDED, SCB_LOST, SCB_FLUSHES, SCB_ERASES, JNL_ENTRIES, JNL_LOST, JNL_CKPTS, JNL_RR_APPLIED, MEM_CE, MEM_UE, MEM_CE_DDR, MEM_UE_DDR, MEM_WRITEBACK, MEM_MERGED, MEM_RMW, MEM_SCRUB_PASSES]
def ctrMap6 : List Ctr := [MEM_SCRUB_LATE, MEM_INJ_HITS, XCR_TX_FRAMES, XCR_RX_FRAMES, XCR_RX_SIZE, XCR_RX_FCS, XCR_RX_HDR, XCR_RX_UNKNOWN, XCR_RX_DUP, XCR_RXQ_DROP, XCR_BCN_SENT, XCR_BCN_SKIP, XCR_DWELL_DEFER, XCR_CCA_FAIL, XCR_RETRY, XCR_LOST, XCR_LP_SENT, PWR_HOLDS, PWR_FATALS, PWR_SAVE_FAIL, PWR_RESTARTS, HLT_EVENTS]
/-- Every counter of the spec but RX_OCTETS, which is 48 bits wide. -/
def ctrMap : List Ctr := ctrMap0 ++ ctrMap1 ++ ctrMap2 ++ ctrMap3 ++ ctrMap4 ++ ctrMap5 ++ ctrMap6

/-! Events (R433). -/

/-- LINK changes. Data: Port, new state (Table 2.23). -/
def EV_ETH_LINK : EvId := ⟨3, 0⟩
/-- First discard of an overflow episode (R54). Data: Port, LEVEL (Table 2.23). -/
def EV_ETH_FIFO_OVF : EvId := ⟨3, 1⟩
/-- An ETH_HALF bit is set. Data: Port, bit (Table 2.23). -/
def EV_ETH_CNT_HALF : EvId := ⟨3, 2⟩
/-- An ING_HALF bit is set. Data: Bit (Table 2.23). -/
def EV_ING_CNT_HALF : EvId := ⟨4, 0⟩
/-- A stream becomes stale. Data: Stream index, computed CRC-32 (Table 2.23). -/
def EV_ING_CFG_MISMATCH : EvId := ⟨4, 1⟩
/-- Authentication failure, at most once per second per stream. Data: Stream index, reason (Table 2.23). -/
def EV_ING_AUTH : EvId := ⟨4, 2⟩
/-- A TCP connection opens or closes. Data: Connection index, state (Table 2.23). -/
def EV_ING_TCP : EvId := ⟨4, 3⟩
/-- A heat becomes at late risk (R112). Data: Heat, WFIX_US, E_h (Table 3.17). -/
def EV_PFA_LATE_RISK : EvId := ⟨5, 0⟩
/-- A heat ceases to be at late risk. Data: Heat, WFIX_US, E_h (Table 3.17). -/
def EV_PFA_LATE_RISK_END : EvId := ⟨5, 1⟩
/-- First held token of an episode (R97). Data: Heat and lap of the held token (Table 3.17). -/
def EV_PFA_PENDQ_FULL : EvId := ⟨5, 2⟩
/-- A lap is skipped. Data: Heat, lap sequence number (Table 3.17). -/
def EV_PFA_SKIP : EvId := ⟨5, 3⟩
/-- First refusal in any second (R101). Data: Heat, lap, lane (Table 3.17). -/
def EV_PFA_STAGE_FULL : EvId := ⟨5, 4⟩
/-- Staged records dropped at a finish line, at most once per second per heat. Data: Heat, lap, record count (Table 3.17). -/
def EV_PFA_AMEND_LOST : EvId := ⟨5, 5⟩
/-- A heat with EARLY_EN = 1 is enabled with QUORUM above its total weight (R91). Data: Heat, QUORUM, total weight (Table 3.17). -/
def EV_PFA_QUORUM_UNREACHABLE : EvId := ⟨5, 6⟩
/-- A PFA_HALF bit is set. Data: Bit (Table 3.17). -/
def EV_PFA_CNT_HALF : EvId := ⟨5, 7⟩
/-- A residue mismatch or shifter parity disagreement occurs. Data: Engine, unit, instance, heat, lap sequence number (Table 4.19). -/
def EV_PAC_MISMATCH : EvId := ⟨7, 0⟩
/-- A task commits with FAULT. Data: Engine of the retry, instance, heat, lap sequence number (Table 4.19). -/
def EV_PAC_RETRY_FAIL : EvId := ⟨7, 1⟩
/-- An engine is quarantined (R132). Data: Engine, time of each of the 3 mismatches (Table 4.19). -/
def EV_PAC_QUARANTINE : EvId := ⟨7, 2⟩
/-- A self-test under R133 ends. Data: Engine, pass or fail (Table 4.19). -/
def EV_PAC_CLR_DONE : EvId := ⟨7, 3⟩
/-- A VPMU or LPMU window lacks samples, at most once per second per instance. Data: Instance, channel mask of incomplete channels (Table 4.19). -/
def EV_PAC_VPMU_GAP : EvId := ⟨7, 4⟩
/-- A PAC_HALF bit is set. Data: Bit (Table 4.19). -/
def EV_PAC_CNT_HALF : EvId := ⟨7, 5⟩
/-- The monitor starts. Data: Start sample K (Table 5.22). -/
def EV_OSM_START : EvId := ⟨8, 0⟩
/-- The monitor stops. Data: REASON, last sample K (Table 5.22). -/
def EV_OSM_STOP : EvId := ⟨8, 1⟩
/-- PRIMING ends. Data: Sample K (Table 5.22). -/
def EV_OSM_PRIMED : EvId := ⟨8, 2⟩
/-- A track is established or an established track retires. Data: Track ID, FREQ, DAMP, transition (Table 5.22). -/
def EV_OSM_TRACK : EvId := ⟨8, 3⟩
/-- A FODET slot is taken or freed. Data: Slot, FREQ, AMP (Table 5.22). -/
def EV_OSM_FO : EvId := ⟨8, 4⟩
/-- A signal or branch becomes dropped, at most once per second. Data: OSCDEC instance, index (Table 5.22). -/
def EV_OSM_SIG_DROP : EvId := ⟨8, 5⟩
/-- An SSODET window lacks samples, at most once per second per instance. Data: Instance, channel (Table 5.22). -/
def EV_OSM_SSO_GAP : EvId := ⟨8, 6⟩
/-- An OSM_HALF bit is set. Data: Bit (Table 5.22). -/
def EV_OSM_CNT_HALF : EvId := ⟨8, 7⟩
/-- A run's accepted partition differs from its state's. Data: Lap sequence number, COUNT, IDs assigned and retired, run kind (Table 6.15). -/
def EV_ISL_CHANGE : EvId := ⟨9, 0⟩
/-- The views begin to disagree, at most once per second. Data: Lap sequence number, T-island count, coherent group count (Table 6.15). -/
def EV_ISL_DISAGREE : EvId := ⟨9, 1⟩
/-- A swap is applied or refused. Data: Bank, VERSION, ECODE (Table 6.15). -/
def EV_ISL_GRAPH : EvId := ⟨9, 2⟩
/-- Islands are unreported, at most once per second. Data: COUNT (Table 6.15). -/
def EV_ISL_OVF : EvId := ⟨9, 3⟩
/-- An ISL_HALF bit is set. Data: Bit (Table 6.15). -/
def EV_ISL_CNT_HALF : EvId := ⟨9, 4⟩
/-- A refusal episode begins (R226). Data: Heat, lap sequence number, need, free entries (Table 7.17). -/
def EV_SRT_REL_BLOCK : EvId := ⟨6, 0⟩
/-- The store has no free entry (R227). Data: Producer held (Table 7.17). -/
def EV_SRT_STORE_FULL : EvId := ⟨6, 1⟩
/-- R222 places a pinned task off its pins, at most once per second per class. Data: Class, cluster used (Table 7.17). -/
def EV_SRT_PIN_OVERRIDE : EvId := ⟨6, 2⟩
/-- A unit enters CONTESTED. Data: TYPE, INDEX, ADMIN, OBS (Table 7.17). -/
def EV_SRT_CONTESTED : EvId := ⟨6, 3⟩
/-- A unit's STATE changes. Data: TYPE, INDEX, old and new STATE (Table 7.17). -/
def EV_SRT_UNIT : EvId := ⟨6, 4⟩
/-- Timers are carried past their tick, at most once per second. Data: List, count (Table 7.17). -/
def EV_SRT_TIMER_SLIP : EvId := ⟨6, 5⟩
/-- An SRT_HALF bit is set. Data: Bit (Table 7.17). -/
def EV_SRT_CNT_HALF : EvId := ⟨6, 6⟩
/-- Any record other than LOSS is emitted. Data: KIND, STATE, hurdle, lap sequence number, VALUE_A (Table 8.21). -/
def EV_ALM_STATE : EvId := ⟨10, 0⟩
/-- The first drop of an episode ending with a LOSS record. Data: Buffer level (Table 8.21). -/
def EV_ALM_HOST_LOSS : EvId := ⟨10, 1⟩
/-- FORCE of an output changes. Data: Output, old and new FORCE (Table 8.21). -/
def EV_ALM_AOUT_FORCE : EvId := ⟨10, 2⟩
/-- A client connection opens, closes, or starts or stops transmission. Data: Client, state (Table 8.21). -/
def EV_EGR_C37_CONN : EvId := ⟨11, 0⟩
/-- A frame is not sent, at most once per second per client. Data: Client, lap sequence number (Table 8.21). -/
def EV_EGR_C37_DROP : EvId := ⟨11, 1⟩
/-- A HALF bit is set. Data: Bit (Table 8.21). -/
def EV_ALM_CNT_HALF : EvId := ⟨10, 3⟩
/-- A HALF bit is set. Data: Bit (Table 8.21). -/
def EV_EGR_CNT_HALF : EvId := ⟨11, 2⟩
/-- A cross-fade starts. Data: Channel, old and new response (Table 9.26). -/
def EV_LMF_SWITCH : EvId := ⟨12, 0⟩
/-- A channel becomes faulted or recovers. Data: Channel, state (Table 9.26). -/
def EV_LMF_FAULT : EvId := ⟨12, 1⟩
/-- Outputs are marked OVR, at most once per second per channel. Data: Channel (Table 9.26). -/
def EV_LMF_OVR : EvId := ⟨12, 2⟩
/-- A record completes. Data: Group, slot, SEQ, flags (Table 9.26). -/
def EV_ACQ_DONE : EvId := ⟨13, 0⟩
/-- A trigger meets FULL, at most once per second per group. Data: Group, cause (Table 9.26). -/
def EV_ACQ_TRIG_LOST : EvId := ⟨13, 1⟩
/-- A HALF bit is set. Data: Bit (Table 9.26). -/
def EV_LMF_CNT_HALF : EvId := ⟨12, 3⟩
/-- A HALF bit is set. Data: Bit (Table 9.26). -/
def EV_ACQ_CNT_HALF : EvId := ⟨13, 2⟩
/-- The first interval record of an episode is dropped. Data: Point, buffer level (Table 10.17). -/
def EV_NRG_INT_DROP : EvId := ⟨14, 0⟩
/-- Output pulses are dropped, at most once per second per output. Data: Output, point (Table 10.17). -/
def EV_NRG_PLSO_OVF : EvId := ⟨14, 1⟩
/-- A saved state fails its check at RACE entry. Data: Failing item (Table 10.17). -/
def EV_NRG_RESTORE : EvId := ⟨14, 2⟩
/-- An NRG_HALF bit is set. Data: Bit (Table 10.17). -/
def EV_NRG_CNT_HALF : EvId := ⟨14, 3⟩
/-- STATE changes. Data: Old and new STATE, E (Table 11.23). -/
def EV_TK_STATE : EvId := ⟨2, 0⟩
/-- The selection changes. Data: Old and new source (Table 11.23). -/
def EV_TK_SRC : EvId := ⟨2, 1⟩
/-- A step is applied. Data: Step, seconds and nanoseconds; cause (Table 11.23). -/
def EV_TK_STEP : EvId := ⟨2, 2⟩
/-- A leap is applied. Data: New offset (Table 11.23). -/
def EV_TK_LEAP : EvId := ⟨2, 3⟩
/-- A transmit time-stamp entry is dropped, at most once per second per port. Data: Port, identifier (Table 11.23). -/
def EV_TK_TXTS_OVF : EvId := ⟨2, 4⟩
/-- A TK_HALF bit is set. Data: Bit (Table 11.23). -/
def EV_TK_CNT_HALF : EvId := ⟨2, 5⟩
/-- A link becomes usable or unusable. Data: Link, cause, EPOCH (Table 12.18). -/
def EV_RXL_LINK : EvId := ⟨15, 0⟩
/-- A peer is lost or returns. Data: Device, state (Table 12.18). -/
def EV_RXL_PEER : EvId := ⟨15, 1⟩
/-- Passes sent or accepted, at most once per second per heat. Data: Heat, count, first lap (Table 12.18). -/
def EV_RXL_PASS : EvId := ⟨15, 2⟩
/-- A pinned lane is hashed, at most once per second. Data: Lane ID, PIN_DEV (Table 12.18). -/
def EV_RXL_PIN_OVERRIDE : EvId := ⟨15, 3⟩
/-- Partials move to or from the alternate anchor. Data: Heat, device now combining (Table 12.18). -/
def EV_RXL_ANCHOR : EvId := ⟨15, 4⟩
/-- An RXL_HALF bit is set. Data: Bit (Table 12.18). -/
def EV_RXL_CNT_HALF : EvId := ⟨15, 5⟩
/-- The device takes the baton. Data: IN_STEP, last journaled lap (Table 13.9). -/
def EV_RLY_TAKEOVER : EvId := ⟨16, 0⟩
/-- The device releases the baton. Data: Cause under R375 (Table 13.9). -/
def EV_RLY_RELEASE : EvId := ⟨16, 1⟩
/-- IN_STEP becomes 0. Data: Cause under R373, lag (Table 13.9). -/
def EV_RLY_STEP : EvId := ⟨16, 2⟩
/-- A take-over is withheld (R376). Data: Lag (Table 13.9). -/
def EV_RLY_NO_TAKE : EvId := ⟨16, 3⟩
/-- A checkpoint is refused. Data: Own and received digest (Table 13.9). -/
def EV_RLY_CFG_MISMATCH : EvId := ⟨16, 4⟩
/-- An RLY_HALF bit is set. Data: Bit (Table 13.9). -/
def EV_RLY_CNT_HALF : EvId := ⟨16, 5⟩
/-- The PCIe link goes down or comes up. Data: State, rate, width (Table 14.22). -/
def EV_HIF_LINK : EvId := ⟨17, 0⟩
/-- A doorbell write is ignored, at most once per second per ring. Data: Ring, value (Table 14.22). -/
def EV_HIF_DB : EvId := ⟨17, 1⟩
/-- A read error ends a descriptor. Data: Channel, SQ, TAG, STATUS, DETAIL (Table 14.22). -/
def EV_DMA_ERR : EvId := ⟨17, 2⟩
/-- A channel stops. Data: Channel, STOP_MODE (Table 14.22). -/
def EV_DMA_STOP : EvId := ⟨17, 3⟩
/-- A HIF_HALF bit is set. Data: Bit (Table 14.22). -/
def EV_HIF_CNT_HALF : EvId := ⟨17, 4⟩
/-- A WRITE commits. Data: Slot, generation (Table 15.13). -/
def EV_KEY_COMMIT : EvId := ⟨18, 0⟩
/-- A ROLL is applied. Data: Group, new current KID (Table 15.13). -/
def EV_KEY_ROLL : EvId := ⟨18, 1⟩
/-- An unlock fails. Data: Failures since RESET (Table 15.13). -/
def EV_KEY_PRIV_FAIL : EvId := ⟨18, 2⟩
/-- A message is withheld, at most once per second per group. Data: Group, user (Table 15.13). -/
def EV_KEY_NOKEY : EvId := ⟨18, 3⟩
/-- Zeroisation occurs, or is found at WARMUP. Data: Main power present or absent (Table 15.13). -/
def EV_KEY_TAMPER : EvId := ⟨18, 4⟩
/-- A KEY_HALF bit is set. Data: Bit (Table 15.13). -/
def EV_KEY_CNT_HALF : EvId := ⟨18, 5⟩
/-- Space returns after lost events (R436, R437). Data: Count (Table 16.10). -/
def EV_SCB_LOST : EvId := ⟨19, 0⟩
/-- A program or erase fails. Data: Sector (Table 16.10). -/
def EV_SCB_NOR_ERR : EvId := ⟨19, 1⟩
/-- The first entry of an episode is overwritten undrained. Data: First lost JSEQ (Table 16.10). -/
def EV_JNL_OVERRUN : EvId := ⟨19, 2⟩
/-- A checkpoint completes. Data: START JSEQ, bytes (Table 16.10). -/
def EV_JNL_CKPT : EvId := ⟨19, 3⟩
/-- A Rerun stops. Data: ECODE, JNL_RR_POS (Table 16.10). -/
def EV_JNL_RERUN : EvId := ⟨19, 4⟩
/-- An SCB_HALF bit is set. Data: Bit (Table 16.10). -/
def EV_SCB_CNT_HALF : EvId := ⟨19, 5⟩
/-- Correctable errors occur, at most once per second per array. Data: ARRAY, BANK, IDX (Table 17.10). -/
def EV_MEM_CE : EvId := ⟨20, 0⟩
/-- An uncorrectable read occurs. Data: ARRAY, BANK, IDX (Table 17.10). -/
def EV_MEM_UE : EvId := ⟨20, 1⟩
/-- A bank group fails. Data: Group, times of its 3 errors (Table 17.10). -/
def EV_MEM_GRP_FAIL : EvId := ⟨20, 2⟩
/-- A fatal error occurs. Data: ARRAY, BANK, IDX (Table 17.10). -/
def EV_MEM_FATAL : EvId := ⟨20, 3⟩
/-- A sweep overruns its period. Data: Array in progress (Table 17.10). -/
def EV_MEM_SCRUB_LATE : EvId := ⟨20, 4⟩
/-- A MEM_HALF bit is set. Data: Bit (Table 17.10). -/
def EV_MEM_CNT_HALF : EvId := ⟨20, 5⟩
/-- A sensor becomes SYNCED or LOST. Data: Sensor, new state (Table 18.11). -/
def EV_XCR_SENSOR : EvId := ⟨21, 0⟩
/-- A transmission is deferred, at most once per second per channel. Data: Channel, USED_MS (Table 18.11). -/
def EV_XCR_DWELL : EvId := ⟨21, 1⟩
/-- The first drop of a receive-queue episode. Data: LEVEL (Table 18.11). -/
def EV_XCR_RXQ_OVF : EvId := ⟨21, 2⟩
/-- The transceiver stops or resumes answering. Data: XCVR_OK (Table 18.11). -/
def EV_XCR_XCVR : EvId := ⟨21, 3⟩
/-- An XCR_HALF bit is set. Data: Bit (Table 18.11). -/
def EV_XCR_CNT_HALF : EvId := ⟨21, 4⟩
/-- The mode changes. Data: Old and new MODE (Table 19.13). -/
def EV_PWR_MODE : EvId := ⟨1, 0⟩
/-- HOLD is entered. Data: Cause (Table 19.13). -/
def EV_PWR_HOLD : EvId := ⟨1, 1⟩
/-- A fatal error occurs. Data: FCAUSE, detail (Table 19.13). -/
def EV_PWR_FATAL : EvId := ⟨1, 2⟩
/-- A good save is found, or missing, at WARMUP. Data: FOUND (Table 19.13). -/
def EV_PWR_SAVE : EvId := ⟨1, 3⟩
/-- A reading leaves [LO, HI]. Data: INDEX, VALUE (Table 19.13). -/
def EV_HLT_TEMP : EvId := ⟨1, 4⟩
/-- A reading leaves [LO, HI]. Data: INDEX, VALUE (Table 19.13). -/
def EV_HLT_VOLT : EvId := ⟨1, 5⟩
/-- A reading leaves [LO, HI]. Data: INDEX, VALUE (Table 19.13). -/
def EV_HLT_PROC : EvId := ⟨1, 6⟩
/-- A trip occurs (R496). Data: INDEX, VALUE (Table 19.13). -/
def EV_HLT_TRIP : EvId := ⟨1, 7⟩
/-- A PWR_HALF bit is set. Data: Bit (Table 19.13). -/
def EV_PWR_CNT_HALF : EvId := ⟨1, 8⟩

/-- The HALF registers of each block, by the block's bit in HIF_BLK_IRQ (Table 14.3). -/
def halfRegs : List (Nat × RegDef × RegDef) := [(1, PWR_HALF, PWR_HALF_IE), (2, TK_HALF, TK_HALF_IE), (3, ETH_HALF, ETH_HALF_IE), (3, ETH_TX_HALF, ETH_TX_HALF_IE), (4, ING_HALF, ING_HALF_IE), (5, PFA_HALF, PFA_HALF_IE), (6, SRT_HALF, SRT_HALF_IE), (7, PAC_HALF, PAC_HALF_IE), (8, OSM_HALF, OSM_HALF_IE), (9, ISL_HALF, ISL_HALF_IE), (10, ALM_HALF, ALM_HALF_IE), (11, EGR_HALF, EGR_HALF_IE), (12, LMF_HALF, LMF_HALF_IE), (13, ACQ_HALF, ACQ_HALF_IE), (14, NRG_HALF, NRG_HALF_IE), (15, RXL_HALF, RXL_HALF_IE), (16, RLY_HALF, RLY_HALF_IE), (17, HIF_HALF, HIF_HALF_IE), (18, KEY_HALF, KEY_HALF_IE), (19, SCB_HALF, SCB_HALF_IE), (20, MEM_HALF, MEM_HALF_IE), (21, XCR_HALF, XCR_HALF_IE)]

end Sys2Proof.Machine
end

