-- ==== Sys2Proof/Machine/Ops.lean ====
section
/-!
DEFINITION. The shared operations over the device: registers and their fields (R4 to R6), outputs, interrupts (R397), counters
(R81), events and the Scorebook buffer (R432 to R436), DDR5, the race journal's writer (R441 to R445), completion rings
(R392 to R397), stream FIFOs (R405, R406), result slots (R409) and the configuration tables (R399).
-/
namespace Sys2Proof.Machine

/-! Registers. -/

/-- The registers of the 64 KiB range `b` of BAR0. -/
def Device.blkRegs (d : Device) (b : Nat) : NMap Word := mgetD d.regs b []
/-- Store a word among the registers of range `b`. -/
def Device.putReg (d : Device) (b a : Nat) (v : Word) : Device := { d with regs := mset d.regs b (mset (d.blkRegs b) a v) }
/-- Instance `i` of a register. -/
def Device.rg (d : Device) (r : RegDef) (i : Nat) : Word := mgetD (d.blkRegs (r.base / 65536)) (r.key i) r.reset
/-- Store instance `i` of a register. -/
def Device.wr (d : Device) (r : RegDef) (i : Nat) (v : Word) : Device := d.putReg (r.base / 65536) (r.key i) v
/-- A field of instance `i`. -/
def Device.f (d : Device) (x : RF) (i : Nat := 0) : Nat := bx (d.rg x.reg i) x.hi x.lo
/-- A one-bit field of instance `i`. -/
def Device.fb (d : Device) (x : RF) (i : Nat := 0) : Bool := d.f x i = 1
/-- Store a field of instance `i`. -/
def Device.setf (d : Device) (x : RF) (v : Nat) (i : Nat := 0) : Device := d.wr x.reg i (bset (d.rg x.reg i) x.hi x.lo v)
/-- Raise a high-water mark to a level. -/
def Device.hwm (d : Device) (x : RF) (v : Nat) (i : Nat := 0) : Device := if d.f x i < v then d.setf x v i else d
/-- Set an ERR bit and its ECODE. -/
def Device.err (d : Device) (e c : RF) (code : Nat) (i : Nat := 0) : Device := (d.setf e 1 i).setf c code i

/-- The time the device runs on: device time (R317), or in RERUN the Rerun's time (R449). -/
def Device.now (d : Device) : Time := if d.pwr.mode = .rerun then d.jnl.rrNow else d.tk.now
/-- The TAI second now. -/
def Device.sec (d : Device) : Nat := Time.secOf d.now

/-- Send something outside. -/
def Device.emit (d : Device) (o : Output) : Device := { d with out := d.out ++ [o] }
/-- Send to the host: only while the PCIe link is up. -/
def Device.toHost (d : Device) (o : Output) : Device := if d.fb HIF_STAT.LINK_UP then d.emit o else d

/-- The MSI-X entry of a vector; one that nothing has written is not masked (DESIGN CHOICE, log entry 95). -/
def Device.msixEnt (d : Device) (v : Nat) : MsixEnt := mgetD d.hif.msix v ⟨0, 0#32, false⟩
/-- Raise a vector: its message goes out, or its pending bit is set while its entry is masked (R388, R397). -/
def Device.vector (d : Device) (v : Nat) : Device :=
  if (d.msixEnt v).masked then { d with pba := mset d.pba v true } else d.toHost (.msix v)

/-- An enabled interrupt source is pending in block `k` (R397). -/
def Device.blkPending (d : Device) (k : Nat) : Bool :=
  halfRegs.any (fun e => e.1 = k && (List.range e.2.1.count).any (fun i => (d.rg e.2.1 i &&& d.rg e.2.2 i) != 0#32))

/-- Bring block `k`'s bit of HIF_BLK_IRQ up to date; a bit that becomes 1 raises BLK_VEC (R397). -/
def Device.irqRefresh (d : Device) (k : Nat) : Device :=
  let r := d.rg HIF_BLK_IRQ 0
  let p := d.blkPending k
  if p = bit r k then d
  else
    let d1 := d.wr HIF_BLK_IRQ 0 (bset r k k (b2n p))
    if p then d1.vector (d1.f HIF_CFG.BLK_VEC) else d1

/-! Events and counters. Raising an event counts in the Scorebook, whose own counters can raise EV_SCB_CNT_HALF: the recursion
is bounded by `fuel`, and four levels reach every case, since a counter whose top bit has just changed cannot change it again. -/

/-- An event that starts a flush at once (R435, R462, R496). -/
def isFaultEvent (e : EvId) (dat : List Nat) : Bool :=
  [EV_PAC_RETRY_FAIL, EV_PAC_QUARANTINE, EV_SRT_CONTESTED, EV_RLY_TAKEOVER, EV_RLY_RELEASE, EV_RLY_STEP, EV_KEY_TAMPER,
   EV_SCB_LOST, EV_JNL_OVERRUN, EV_MEM_UE, EV_MEM_GRP_FAIL, EV_MEM_FATAL, EV_PWR_HOLD, EV_PWR_FATAL, EV_HLT_TRIP].contains e
  || (e = EV_OSM_STOP && (dat.headD 0 = 1 || dat.headD 0 = 3))
  || (e = EV_TK_STATE && (dat.getD 1 0 = 0 || dat.getD 1 0 = 3))

/-- Count `n` in a counter (R81), reporting a change of its top bit through `rep`. -/
def countWith (rep : EvId → List Nat → Device → Device) (c : Ctr) (i n : Nat) (d : Device) : Device :=
  let a := c.base + i * c.stride
  let old := (mgetD (d.blkRegs (c.base / 65536)) a 0#32).toNat
  let new := (old + n) % 4294967296
  let d1 := d.putReg (c.base / 65536) a (w32 new)
  match c.bit with
  | none => d1
  | some b =>
    if decide (old ≥ 2147483648) = decide (new ≥ 2147483648) then d1
    else
      let h := c.half + i * c.stride
      let d2 := d1.putReg (c.base / 65536) h (bset (mgetD (d1.blkRegs (c.base / 65536)) h 0#32) b b 1)
      rep ⟨c.blk, c.ev⟩ (if c.stride = 0 then [b] else [i, b]) (d2.irqRefresh c.blk)

/-- Ask for a flush of the Scorebook buffer (R435). In HOLD the buffer goes to the save area and not to flash (R437). -/
def scbFlush (cnt : Device → Device) (d : Device) : Device :=
  if d.pwr.mode = .hold then d
  else if d.scb.flushing > 0 then { d with scb := { d.scb with flushAgain := true } }
  else if d.scb.buf.isEmpty then d
  else cnt { d with scb := { d.scb with flushing := d.scb.buf.length } }

/-- Datum `i` of an event, in 32 bits (R433). -/
def datum (dat : List Nat) (i : Nat) : Nat := dat.getD i 0 % 4294967296

/-- Whether an event folds into the newest record of the buffer (R434). -/
def foldsInto (r : ScbRec) (e : EvId) (dat : List Nat) (now : Time) : Bool :=
  r.blk = e.blk && r.ev = e.num && r.d0 = datum dat 0 && r.d1 = datum dat 1 && r.d2 = datum dat 2 &&
  decide ((now - r.first) / Time.usU ≤ 4294967295)

/-- The record an event starts (Table 16.1). -/
def scbRecord (d : Device) (e : EvId) (dat : List Nat) (lostBefore : Bool) : ScbRec :=
  { blk := e.blk, ev := e.num, rep := 0, seq := d.scb.next, first := d.tk.now, lost := lostBefore, restored := false,
    lastOfs := 0, d0 := datum dat 0, d1 := datum dat 1, d2 := datum dat 2 }

/-- Append a record to the buffer, taking its SEQ. -/
def scbPush (d : Device) (r : ScbRec) : Device :=
  { d with scb := { d.scb with buf := d.scb.buf ++ [r], next := (d.scb.next + 1) % 4294967296 } }

/-- No record follows EV_PWR_HOLD in HOLD (R493); changes of mode still enter (R487). -/
def Device.muted (d : Device) (e : EvId) : Bool := (d.pwr.mode = .hold || d.pwr.mode = .reset) && !([EV_PWR_MODE, EV_PWR_HOLD].contains e)
/-- The buffer holds as many records as start a flush, and none is under way (R435). -/
def Device.scbFull (d : Device) : Bool := decide (1536 ≤ d.scb.buf.length ∧ d.scb.flushing = 0)
/-- Raise an event: fold it, record it, or lose it (R432 to R436). A fault event starts a flush in each of these cases. -/
def raiseF (fuel : Nat) (e : EvId) (dat : List Nat) (d : Device) : Device :=
  match fuel with
  | 0 => d
  | n + 1 =>
    if d.muted e then d
    else
    let flush (x : Device) : Device :=
      if isFaultEvent e dat || x.scbFull then scbFlush (countWith (raiseF n) SCB_FLUSHES 0 1) x else x
    let fold := match d.scb.buf.getLast? with
      | some r => if foldsInto r e dat d.tk.now then some r else none
      | none => none
    match fold with
    | some r =>
      let r' := { r with rep := min (r.rep + 1) 65535, lastOfs := (d.tk.now - r.first) / Time.usU }
      flush (countWith (raiseF n) SCB_FOLDED 0 1 { d with scb := { d.scb with buf := d.scb.buf.dropLast ++ [r'] } })
    | none =>
      if d.scb.buf.length ≥ 2048 then
        flush (countWith (raiseF n) SCB_LOST 0 1 { d with scb := { d.scb with lost := d.scb.lost + 1 } })
      else flush (countWith (raiseF n) SCB_RECORDS 0 1 (scbPush d (scbRecord d e dat false)))

/-- Raise an event with its data, in the order of its table's Data column (R433). -/
def Device.raise (d : Device) (e : EvId) (dat : List Nat) : Device := raiseF 4 e dat d
/-- Count `n` in instance `i` of a counter (R81). -/
def Device.countN (d : Device) (c : Ctr) (n : Nat) (i : Nat := 0) : Device :=
  if n = 0 then d else countWith (raiseF 4) c i n d
/-- Count one. -/
def Device.count (d : Device) (c : Ctr) (i : Nat := 0) : Device := countWith (raiseF 4) c i 1 d
/-- Raise an event unless it was raised in the present second: `last` is the second of the last one. "At most once per second" is taken as once in
each TAI second (DESIGN CHOICE, log entry 87). -/
def Device.raiseSec (d : Device) (last : Option Nat) (e : EvId) (dat : List Nat) : Device :=
  if last = some d.sec then d else d.raise e dat

/-! Device DDR5 (R388, R398): bytes by address; an unlisted byte reads 0. -/

/-- One byte. -/
def ddrGet (m : List Host.Cell) (a : Nat) : Byte := mgetD m a 0#8
/-- Write bytes from an address up. -/
def ddrPut (m : List Host.Cell) (a : Nat) : List Byte → List Host.Cell
  | [] => m
  | b :: r => ddrPut (zset 0#8 m a b) (a + 1) r
/-- `n` bytes from an address up. -/
def ddrRead (m : List Host.Cell) (a n : Nat) : List Byte := (List.range n).map (fun i => ddrGet m (a + i))
/-- The canonical form of DDR5: addresses rise and no listed byte is 0. -/
def Memory.wf (m : List Host.Cell) : Bool := mwf m && m.all (fun c => c.2 != 0#8)
/-- The array of Table 17.1 that holds a burst. -/
def ddrArr (burst : Nat) : Nat := if Config.ddrChannel burst then 17 else 16
/-- The bursts of a range of bytes. -/
def burstsOf (a n : Nat) : List Nat := if n = 0 then [] else (List.range ((a + n - 1) / 64 - a / 64 + 1)).map (fun i => a / 64 + i)
/-- How memory integrity names a word. -/
def badKey (arr loc : Nat) : Nat := loc * 32 + arr
def Device.injArmed (d : Device) : Bool := d.fb MEM_INJ.ARM
/-- Memory integrity follows what is written: an injection is armed, or a word is marked. -/
def Device.watched (d : Device) : Bool := d.injArmed || !d.mem.bad.isEmpty
/-- Words of an array are written whole (R457, R464). -/
def Device.noteWrite (d : Device) (arr : Nat) (locs : List Nat) : List (Nat × Nat) :=
  if d.watched then d.noted ++ locs.map (fun l => (badKey arr l, 1)) else d.noted
/-- A word is read: what its reader finds is counted when the command ends (R456, R460). -/
def Device.noteRead (d : Device) (arr loc : Nat) : Device :=
  if d.mem.bad.isEmpty then d else { d with noted := d.noted ++ [(badKey arr loc, 2)] }
/-- The bursts that bytes from an address up touch: 1 written whole, 0 in part. -/
def Device.noteBursts (d : Device) (a n : Nat) : List (Nat × Nat) :=
  if d.watched then d.noted ++ (burstsOf a n).map (fun b => (badKey (ddrArr b) b, b2n (decide (a ≤ b * 64 ∧ b * 64 + 64 ≤ a + n)))) else d.noted
def Device.ddrWrite (d : Device) (a : Nat) (b : List Byte) : Device := { d with ddr := ddrPut d.ddr a b, noted := d.noteBursts a b.length }
/-- `n` bytes from an address up become 0. -/
def Device.ddrClear (d : Device) (a n : Nat) : Device := { d with ddr := d.ddr.filter (fun c => decide (c.1 < a ∨ a + n ≤ c.1)) }

/-- Bytes put back at the addresses they were taken from. -/
def Device.ddrCells (d : Device) (cs : List Host.Cell) : Device := { d with ddr := cs.foldl (fun m c => zset 0#8 m c.1 c.2) d.ddr }

/-! Packets and the race journal. -/

/-- The length word of a packet (R406). -/
def lenWord (p : Packet) : Word := w32 (2147483648 + b2n p.more * 1073741824 + p.kind % 16 * 16777216 + p.payload.length % 16777216)
/-- Pad to a multiple of 4. -/
def pad4 (b : List Byte) : List Byte := b ++ List.replicate ((4 - b.length % 4) % 4) 0#8
/-- A packet as it stands in memory. -/
def packetBytes (p : Packet) : List Byte := le32 (lenWord p) ++ pad4 p.payload
/-- The 20-byte entry header (Table 16.2). -/
def jHeader (e : JEntry) : List Byte :=
  leBytes [w32 (e.typ % 256 * 16777216 + e.aux % 16777216), w32 e.jseq, w32 (Time.secOf e.inst), w32 (Time.nsOf e.inst),
           w32 (Time.subOf e.inst)]
/-- The chain of packets of an entry (R443). -/
def jChain (e : JEntry) : List Packet :=
  let rest := chunks 16380 (e.payload.length + 1) (e.payload.drop 16360)
  let first : Packet := ⟨!rest.isEmpty, 0, jHeader e ++ e.payload.take 16360⟩
  first :: rest.zipIdx.map (fun c => ⟨decide (c.2 + 1 < rest.length), 1, c.1⟩)
/-- The ring's size and base in bytes (R441). -/
def Device.jSize (d : Device) : Nat := d.f JNL_DDR.SIZE * 1073741824
def Device.jBase (d : Device) : Nat := d.f JNL_DDR.BASE * 1073741824

/-- Write bytes into the journal ring from position `p`, wrapping at its end. -/
def jRingPut (d : Device) (p : Nat) : List Byte → Device
  | [] => d
  | b :: r => jRingPut (d.ddrWrite (d.jBase + p % (max d.jSize 1)) [b]) (p + 1) r

/-- A JSEQ is another or comes after it, in their arithmetic modulo 2^32 (R442): less than half the circle ahead of it. -/
def seqFrom (a b : Nat) : Bool := decide ((a + 4294967296 - b) % 4294967296 < 2147483648)
/-- A JSEQ comes after another. -/
def seqAfter (a b : Nat) : Bool := seqFrom a b && decide (a ≠ b)
/-- Bytes of entries not yet drained. -/
def Device.undrained (d : Device) : Nat :=
  ((d.jnl.places.filter (fun p => seqFrom p.entry.jseq d.jnl.drained)).map (·.len)).sum
/-- Their high-water mark, in MiB, where they are drained. -/
def Device.undrainedShow (d : Device) : Device :=
  if d.fb JNL_CFG.DRAIN then d.hwm JNL_UNDRAINED.HWM (min 65535 (d.undrained / 1048576)) else d

/-- The modes in which the device writes a journal of its own (DEDUCED, log entry 46): its configuration in WARMUP, and RACE. -/
def Device.journals (d : Device) : Bool := d.pwr.mode = .warmup || d.pwr.mode = .race

/-- Append an entry to the journal (R442, R445), unless it is off. Entries it overwrites are gone; those not yet drained are
counted lost. -/
def Device.journal (d : Device) (typ aux : Nat) (inst : Time) (payload : List Byte) : Device :=
  if !(d.fb JNL_CFG.EN && d.fb JNL_DDR.VALID && d.journals) then d
  else
    let e : JEntry := ⟨typ, aux, d.jnl.next, inst, payload⟩
    let bytes := (jChain e).flatMap packetBytes
    let stop := d.jnl.wptr + bytes.length
    let gone := d.jnl.places.filter (fun p => decide (p.start + d.jSize < stop))
    let kept := d.jnl.places.filter (fun p => !decide (p.start + d.jSize < stop))
    let lost := if d.fb JNL_CFG.DRAIN then gone.filter (fun p => seqFrom p.entry.jseq d.jnl.drained) else []
    let d1 := jRingPut d d.jnl.wptr bytes
    let j := { d1.jnl with next := (d.jnl.next + 1) % 4294967296, places := kept ++ [⟨e, d.jnl.wptr, bytes.length⟩], wptr := stop }
    let d2 := (({ d1 with jnl := j }).count JNL_ENTRIES).undrainedShow
    match lost with
    | [] => d2
    | l :: _ =>
      let g := match d2.jnl.gap with
        | some (a, n) => (a, n + lost.length)
        | none => (l.entry.jseq, lost.length)
      let d3 := { d2 with jnl := { d2.jnl with gap := some g, drained := (l.entry.jseq + lost.length) % 4294967296, drainAt := 0, lostEp := true } }
      let d4 := d3.countN JNL_LOST lost.length
      if d.jnl.lostEp then d4 else d4.raise EV_JNL_OVERRUN [l.entry.jseq]

/-- A journal payload of 32-bit words. -/
def Device.journalW (d : Device) (typ aux : Nat) (inst : Time) (ws : List Word) : Device := d.journal typ aux inst (leBytes ws)
/-- A 48-bit number as two words, low first. -/
def two (n : Nat) : List Word := [w32 n, w32 (n / 4294967296)]

/-! Completion rings. -/

/-- A CQ's indices and size. -/
def Device.cqSt (d : Device) (q : Nat) : CqSt := mgetD d.hif.cq q ⟨0, 0, 0, none⟩
def Device.cqSize (d : Device) (q : Nat) : Nat := 2 ^ d.f HIF_CQ_CFG.SIZE_LOG2 q
def Device.sqSt (d : Device) (q : Nat) : SqSt := mgetD d.hif.sq q ⟨0, 0⟩
def Device.sqSize (d : Device) (q : Nat) : Nat := 2 ^ d.f HIF_SQ_CFG.SIZE_LOG2 q
/-- Free entries of a CQ: one entry is always left empty (R393). -/
def Device.cqFree (d : Device) (q : Nat) : Nat :=
  let s := d.cqSize q
  s - 1 - ((d.cqSt q).tail + s - (d.cqSt q).head) % s
/-- A 64-bit address held in two registers. -/
def Device.addr64 (d : Device) (lo hi : RegDef) (i : Nat) : Nat := (d.rg lo i).toNat + (d.rg hi i).toNat * 4294967296

/-- Raise a CQ's vector: its count since the last interrupt starts again (R397). -/
def Device.cqVector (d : Device) (q : Nat) : Device :=
  ({ d with hif := { d.hif with cq := mset d.hif.cq q { d.cqSt q with since := 0, first := none } } }).vector (d.f HIF_CQ_CFG.VEC q)

/-- Write 16-byte entries into a CQ, then its tail, and raise the vector when it is due (R396, R397). -/
def Device.cqPost (d : Device) (q : Nat) (entries : List (List Word)) (force : Bool) : Device :=
  let base := d.addr64 HIF_CQ_BASE_LO HIF_CQ_BASE_HI q
  let t := (d.cqSt q).tail
  let s := d.cqSize q
  let d1 := entries.zipIdx.foldl (fun x e => x.toHost (.hostWrite false (base + 16 * ((t + e.2) % s)) (leBytes e.1))) d
  let t' := (t + entries.length) % s
  let c : CqSt := ⟨(d.cqSt q).head, t', (d.cqSt q).since + entries.length, some ((d.cqSt q).first.getD d.now)⟩
  let d2 := { d1 with hif := { d1.hif with cq := mset d1.hif.cq q c } }
  let d3 := d2.toHost (.hostWrite false (d.addr64 HIF_CQ_WB_LO HIF_CQ_WB_HI q) (le32 (w32 t')))
  let n := d.f HIF_CQ_CFG.COAL_N q
  if force || decide (n = 0) || decide (c.since ≥ n) then d3.cqVector q else d3

/-- Write a 64-byte record to a ring of a given CONTENT (1 alarm, 2 interval): four entries, or nothing where the ring has no
space for it (R392, R393). -/
def Device.cqRecord (d : Device) (q content : Nat) (ws : List Word) : Option Device :=
  if d.fb HIF_CQ_CFG.EN q && decide (d.f HIF_CQ_CFG.CONTENT q = content) && decide (d.cqFree q ≥ 4) then
    some (d.cqPost q (chunks 4 5 ws) false)
  else none

/-! Stream FIFOs. -/

def Device.sfSt (d : Device) (n : Nat) : List Packet := (mgetD d.hif.sf n ⟨[]⟩).packets
/-- Capacity in bytes (Table 14.10). -/
def sfCap (n : Nat) : Nat := if n = 0 then 2097152 else if n = 1 then 262144 else 65536
/-- The committed level in bytes. -/
def sfLevel (ps : List Packet) : Nat := (ps.map (fun p => (packetBytes p).length)).sum
/-- Commit a packet, if the FIFO is enabled and has room for it. -/
def Device.sfPush (d : Device) (n : Nat) (p : Packet) : Option Device :=
  let ps := d.sfSt n ++ [p]
  if d.fb HIF_SF_CFG.EN n && decide (sfLevel ps ≤ sfCap n) then
    some (({ d with hif := { d.hif with sf := mset d.hif.sf n ⟨ps⟩ } }).hwm HIF_SF_STAT.HWM (sfLevel ps / 1024) n)
  else none

/-! Result slots (R409). -/

/-- A request: in FREE the slot becomes BUSY and takes the next SEQ. -/
def slotRequest (s : Slot) : Option Slot := if s.st = .free then some ⟨.busy, (s.seq + 1) % 65536, []⟩ else none
/-- The result is complete. -/
def slotReady (s : Slot) (data : List Word) : Slot := ⟨.held, s.seq, data⟩
/-- A release with the slot's SEQ frees it and zeroes its data; one with any other value does nothing. -/
def slotRelease (s : Slot) (seq : Nat) : Option Slot := if seq = s.seq then some ⟨.free, s.seq, []⟩ else none
/-- Data word n as the host reads it: 0 until the slot is HELD. -/
def slotWord (s : Slot) (n : Nat) : Word := if s.st = .held then wd s.data n else 0#32

/-! Tables (R399). -/

/-- Words of an entry and the number of entries of each table (Table 14.8). -/
def tabWords (t : Nat) : Nat :=
  match t with
  | 0x03 | 0x07 | 0x0F | 0x11 | 0x14 | 0x15 => 4
  | 0x0A | 0x0B | 0x0D | 0x0E | 0x13 | 0x19 => 1
  | 0x10 => 256
  | 0x17 => 16
  | 0x1A => 36
  | _ => 8
def tabCount (t : Nat) : Nat :=
  match t with
  | 0x01 => 16384 | 0x02 => 1024 | 0x03 => 262144 | 0x04 => 272 | 0x05 => 2048 | 0x06 => 4096 | 0x07 => 262144
  | 0x08 => 8192 | 0x09 => 64 | 0x0A => 4096 | 0x0B => 16384 | 0x0C => 64 | 0x0D => 16384 | 0x0E => 262144
  | 0x0F => 262144 | 0x10 => 1 | 0x11 => 512 | 0x12 => 8 | 0x13 => 2048 | 0x14 => 128 | 0x15 => 64 | 0x16 => 512
  | 0x17 => 1 | 0x18 => 64 | 0x19 => 4096 | 0x1A => 1024
  | _ => 0
/-- Entry bytes: the 2-byte tables hold one halfword an entry, the 4-byte ones one word. -/
def tabBytes (t : Nat) : Nat := match t with | 0x0D | 0x13 | 0x19 => 2 | _ => 4 * tabWords t
/-- Where an entry is kept. -/
def tabKey (t idx pos : Nat) : Nat := t * 1099511627776 + idx * 4294967296 + pos
/-- An entry; an entry never stored reads as zeros (R34). -/
def Device.ent (d : Device) (t pos : Nat) (idx : Nat := 0) : List Word :=
  mgetD d.tables (tabKey t idx pos) (List.replicate (tabWords t) 0#32)
/-- A table's word, as memory integrity names it; and whether its entries are narrower than a word and so pass a merge buffer (R457). -/
def tabWordLoc (t w : Nat) : Nat := t * 4294967296 + w
def narrowTab (t : Nat) : Bool := decide (tabBytes t < 8)
/-- Store an entry. -/
def Device.setEnt (d : Device) (t pos : Nat) (e : List Word) (idx : Nat := 0) : Device :=
  { d with tables := mset d.tables (tabKey t idx pos) e,
           noted := if narrowTab t then d.noted
                    else d.noteWrite 12 ((List.range (tabBytes t / 8)).map (fun k => tabWordLoc (t + 256 * idx) (pos * (tabBytes t / 8) + k))) }
/-- The stored entries of a table as (position, entry), rising. -/
def Device.ents (d : Device) (t : Nat) (idx : Nat := 0) : List (Nat × List Word) :=
  d.tables.filterMap (fun e => if e.1 / 4294967296 = t * 256 + idx then some (e.1 % 4294967296, e.2) else none)

def tLane : Nat := 0x01
def tHeat : Nat := 0x02
def tSignal : Nat := 0x03
def tPort : Nat := 0x04
def tTcp : Nat := 0x05
def tInst : Nat := 0x06
def tParam : Nat := 0x07
def tHurdle : Nat := 0x08
def tPub : Nat := 0x09
def tMember : Nat := 0x0A
def tString : Nat := 0x0B
def tClient : Nat := 0x0C
def tClientLane : Nat := 0x0D
def tClientName : Nat := 0x0E
def tGraph : Nat := 0x0F
def tFilter : Nat := 0x10
def tCapChan : Nat := 0x11
def tCapGroup : Nat := 0x12
def tCapList : Nat := 0x13
def tTrigger : Nat := 0x14
def tMask : Nat := 0x15
def tPoint : Nat := 0x16
def tAccImage : Nat := 0x17
def tLink : Nat := 0x18
def tRoute : Nat := 0x19
def tSpan : Nat := 0x1A

/-- A parameter block: `len` units of 16 bytes from unit `ofs`, as words. -/
def Device.param (d : Device) (inst : List Word) : List Word :=
  (List.range (bx (wd inst 2) 31 18)).flatMap (fun i => d.ent tParam (bx (wd inst 2) 17 0 + i))

/-! Modes. -/

/-- The device measures: inputs are taken from its own ports, chains and links (Table 19.1). -/
def Device.racing (d : Device) : Bool := d.pwr.mode = .race
/-- The register interface runs: the device is powered and out of RESET. -/
def Device.alive (d : Device) : Bool := d.pwr.powered && d.pwr.mode ≠ .reset
/-- The measurement path runs, on its own inputs or on journaled ones. -/
def Device.measuring (d : Device) : Bool := d.pwr.mode = .race || d.pwr.mode = .follow || d.pwr.mode = .rerun
/-- Laps run: not in a follower that is out of step, which holds no lap state (R374). -/
def Device.lapsRun (d : Device) : Bool := d.measuring && (decide (d.pwr.mode ≠ .follow) || d.fb RLY_STAT.IN_STEP)

end Sys2Proof.Machine
end

