-- ==== Sys2Proof/Machine/Units.lean ====
section
/-!
DEFINITION. Unit states (R228, R229, Tables 7.5 and 7.6): administrative state and observed health of engines, clusters, Ethernet
ports, Rharix lanes and peers, and the events of a change (R233).
-/
namespace Sys2Proof.Machine

def uENGINE : Nat := 0
def uCLUSTER : Nat := 1
def uPORT : Nat := 2
def uLANE : Nat := 3
def uPEER : Nat := 4
/-- The number of units of a type; 0 for a reserved type. -/
def unitCount (t : Nat) : Nat := match t with | 0 => 96 | 1 => 12 | 2 => 8 | 3 => 4 | 4 => 4096 | _ => 0

def Device.unitAdmin (d : Device) (t i : Nat) : Bool := mgetD d.srt.admin (t * 4096 + i) (decide (t ≤ 1))
def engInit : Eng := ⟨[], false, 0, false⟩
def Device.eng (d : Device) (e : Nat) : Eng := mgetD d.pac.eng e engInit
def Device.grpFailed (d : Device) (g : Nat) : Bool := bit (d.rg MEM_STAT 0) g
def peerInit : PeerSt := ⟨true, none, 0, 0, 0, 0, 0⟩
def Device.peer (d : Device) (i : Nat) : PeerSt := mgetD d.rxl.peers i peerInit
def clsInit : RxlClass := ⟨0, [], 0, [], none⟩
def linkInit : LinkSt := ⟨false, 0, 0, clsInit, clsInit, none, 0, 0, false, false, 0⟩
def Device.link (d : Device) (i : Nat) : LinkSt := mgetD d.rxl.links i linkInit
/-! The pair (R369, R375). -/

def Device.paired (d : Device) : Bool := d.fb RLY_CFG.EN
def Device.holder (d : Device) : Bool := d.fb RLY_STAT.HOLDER
/-- The AOUT and PLSO drivers keep their last levels: in HOLD (R493), and while a holder of a pair has stopped toggling (R375). -/
def Device.driversKept (d : Device) : Bool := decide (d.pwr.mode = .hold) || (d.paired && d.holder && !d.rly.toggling)

/-- Observed health: usable (Table 7.5). -/
def Device.unitUsable (d : Device) (t i : Nat) : Bool :=
  match t with
  | 0 => !(d.eng i).quar && !d.grpFailed (i / 8)
  | 1 => !d.grpFailed i && (List.range 8).any (fun e => !(d.eng (8 * i + e)).quar)
  | 2 => d.fb ETH_STATUS.LINK i
  | 3 => (d.link i).usable
  | _ => !(d.peer i).lost
/-- STATE of Table 7.6. -/
def unitCode (admin usable : Bool) : Nat :=
  match admin, usable with
  | true, true => 0
  | false, false => 1
  | true, false => 2
  | false, true => 3
def Device.unitState (d : Device) (t i : Nat) : Nat := unitCode (d.unitAdmin t i) (d.unitUsable t i)
/-- The unit is ACTIVE, and so used (R229). -/
def Device.active (d : Device) (t i : Nat) : Bool := d.unitAdmin t i && d.unitUsable t i

/-- Bring a unit's shown STATE up to date, with its events (R229). At reset engines and clusters show ACTIVE, the others DOWN. -/
def Device.unitRefresh (d : Device) (t i : Nat) : Device :=
  let k := t * 4096 + i
  let old := mgetD d.srt.ustate k (if t ≤ 1 then 0 else 1)
  let new := d.unitState t i
  if new = old then d
  else
    let d1 := { d with srt := { d.srt with ustate := mset d.srt.ustate k new } }
    let d2 := if new ≥ 2 then
      (d1.count SRT_CONTESTED).raise EV_SRT_CONTESTED [t, i, b2n (d1.unitAdmin t i), b2n (d1.unitUsable t i)] else d1
    d2.raise EV_SRT_UNIT [t, i, old, new]
/-- Engines and their cluster together. -/
def Device.engRefresh (d : Device) (e : Nat) : Device := (d.unitRefresh 0 e).unitRefresh 1 (e / 8)
/-- A cluster and its engines together. -/
def Device.clusterRefresh (d : Device) (c : Nat) : Device :=
  (List.range 8).foldl (fun x e => x.unitRefresh 0 (8 * c + e)) (d.unitRefresh 1 c)
/-- SRT_STAT.CONT_NOW: units in a CONTESTED state. -/
def Device.contNow (d : Device) : Nat := (d.srt.ustate.filter (fun e => decide (e.2 ≥ 2))).length

end Sys2Proof.Machine
end

