-- ==== Sys2Proof/Machine/MemHook.lean ====
section
/-!
DEFINITION. What a read of a protected word does when its codeword is not clean (R455, R456, R460, R461): counts, MEM_LAST_CE and
MEM_LAST_UE, events, the write-back of a corrected word, and the failure of a Grandstand bank group. Where a word lies inside its
array is left open by the spec (log entry 29).
-/
namespace Sys2Proof.Machine


/-- The state of a word: 0 clean, 1 one bit flipped, 2 uncorrectable. -/
def Device.badAt (d : Device) (arr loc : Nat) : Nat := (mgetD d.mem.bad (badKey arr loc) ⟨0, false⟩).kind
def Device.setMem (d : Device) (m : Mem) : Device := { d with mem := m }
/-- DDR5 channels are arrays 0x10 and 0x11. -/
def isDdr (arr : Nat) : Bool := decide (arr ≥ 16)
def memWhere (arr bank : Nat) : Word := w32 (arr % 32 * 134217728 + bank % 65536)
def bump16 (n : Nat) : Nat := min 65535 (n + 1)

/-- A correctable error is read: counted, corrected and written back (R456, R458). -/
def Device.memCe (d : Device) (arr bank : Nat) (idx : Word) : Device :=
  let c := mgetD d.mem.counts arr (0, 0)
  let d1 := d.setMem { d.mem with counts := mset d.mem.counts arr (bump16 c.1, c.2) }
  let d2 := (d1.wr MEM_LAST_CE 0 (memWhere arr bank)).wr MEM_LAST_CE_IDX 0 idx
  let d3 := if isDdr arr then d2.count MEM_CE_DDR else (d2.count MEM_CE).count MEM_WRITEBACK
  let d4 := d3.raiseSec (mget d.mem.ceSec arr) EV_MEM_CE [arr, bank, idx.toNat]
  d4.setMem { d4.mem with ceSec := mset d4.mem.ceSec arr d4.sec }

/-- An uncorrectable error is recorded against a Grandstand bank group; the third within 3,600 s fails it and its cluster (R461). -/
def Device.grpError (d : Device) (g : Nat) : Device :=
  let es := (mgetD d.mem.errs g []).filter (fun t => decide (d.tk.now < t + 3600 * Time.secU))
  let es' := es ++ [d.tk.now]
  let d1 := d.setMem { d.mem with errs := mset d.mem.errs g es' }
  if es'.length ≥ 3 && !d1.grpFailed g then
    let d2 := d1.wr MEM_STAT 0 (bset (d1.rg MEM_STAT 0) g g 1)
    (d2.raise EV_MEM_GRP_FAIL (g :: es'.map Time.secOf)).clusterRefresh g
  else d1

/-- A burst lies in the OSM region (Table 5.6). -/
def Device.inOsmRegion (d : Device) (burst : Nat) : Bool := d.fb OSM_DDR.VALID && decide (burst / 16777216 = d.f OSM_DDR.BASE)
/-- An uncorrectable error has met the lap state that a follower holds (R373). -/
def Device.lapUe (d : Device) : Device := d.setMem { d.mem with lapUes := d.mem.lapUes + 1 }
/-- An uncorrectable word is read (R459, R460). -/
def Device.memUe (d : Device) (arr bank : Nat) (idx : Word) (quiet : Bool) : Device :=
  let c := mgetD d.mem.counts arr (0, 0)
  let d1 := d.setMem { d.mem with counts := mset d.mem.counts arr (c.1, bump16 c.2) }
  let d2 := (d1.wr MEM_LAST_UE 0 (memWhere arr bank)).wr MEM_LAST_UE_IDX 0 idx
  let d3 := (if isDdr arr then d2.count MEM_UE_DDR else d2.count MEM_UE).raise EV_MEM_UE [arr, bank, idx.toNat]
  let d4 := if arr ≤ 1 then d3.lapUe else d3
  if arr = 0 && !quiet then d4.grpError bank else d4
/-- The same of a burst, by its place. -/
def Device.burstUe (d : Device) (arr bank loc : Nat) (idx : Word) (quiet : Bool) : Device :=
  let d1 := d.memUe arr bank idx quiet
  if d1.inOsmRegion loc then d1.lapUe else d1

/-- A functional read of a word: nothing when it is clean. -/
def Device.memRead (d : Device) (arr loc bank : Nat) : Device :=
  match mget d.mem.bad (badKey arr loc) with
  | none => d
  | some b =>
    let idx := Config.memIdx arr loc
    if b.kind = 1 then (d.setMem { d.mem with bad := mdel d.mem.bad (badKey arr loc) }).memCe arr bank idx
    else if isDdr arr then d.burstUe arr bank loc idx b.quiet
    else d.memUe arr bank idx b.quiet
/-- A full write makes a word clean. -/
def Device.memClean (d : Device) (arr loc : Nat) : Device := d.setMem { d.mem with bad := mdel d.mem.bad (badKey arr loc) }
/-- Mark a word. -/
def Device.memMark (d : Device) (arr loc kind : Nat) (quiet : Bool) : Device :=
  d.setMem { d.mem with bad := mset d.mem.bad (badKey arr loc) ⟨kind, quiet⟩ }

end Sys2Proof.Machine
end

