-- ==== Sys2Proof/Machine/Heat.lean ====
section
/-!
DEFINITION. Lanes, heats and laps (spec/01): the fields of Tables 1.1, 1.6, 1.7 and 4.2, lap times (R15 to R17), the records of a lane
(R12, R13, R19 to R22), the Grandstand (R86, R115), held copies and substitution (R23), and the kernels' fixed properties (R137, R140).
-/
namespace Sys2Proof.Machine

/-! Rates and lap times. -/

/-- Laps per second of a RATE_CODE (Table 1.1); 0 for a reserved code. -/
def rateOf (c : Nat) : Nat := [10, 12, 15, 20, 25, 30, 50, 60, 100, 120, 200, 240].getD c 0
/-- The lap time of lap sequence number `n` as device time (R16, R17). -/
def lapTimeOf (rate n : Nat) : Time := n / rate * Time.secU + n % rate * 1000000000 * Time.nsU / rate
/-- The lap period in whole microseconds, rounded down. -/
def periodUs (rate : Nat) : Nat := 1000000 / rate

/-! Heat entries (Table 1.7). -/
def heRate (e : List Word) : Nat := rateOf (bx (wd e 0) 30 27)
def heNom60 (e : List Word) : Bool := bit (wd e 0) 26
def heEarly (e : List Word) : Bool := bit (wd e 0) 25
def heAmend (e : List Word) : Bool := bit (wd e 0) 24
def heFixed (e : List Word) : Bool := bit (wd e 0) 23
def hePrio (e : List Word) : Nat := bx (wd e 0) 22 20
def heSpan (e : List Word) : Bool := bit (wd e 0) 19
def heAnchor (e : List Word) : Nat := bx (wd e 0) 11 0
def heDepth (e : List Word) : Nat := bx (wd e 1) 8 0
def heWmin (e : List Word) : Nat := bx (wd e 2) 23 0
def heWmax (e : List Word) : Nat := bx (wd e 3) 23 0
def heWfix (e : List Word) : Nat := bx (wd e 4) 23 0
def heFinish (e : List Word) : Nat := bx (wd e 5) 23 0
def heQuorum (e : List Word) : Nat := bx (wd e 6) 21 0
/-- The stored heat entry. -/
def Device.heatE (d : Device) (h : Nat) : List Word := d.ent tHeat h
def Device.rate (d : Device) (h : Nat) : Nat := heRate (d.heatE h)
def Device.depth (d : Device) (h : Nat) : Nat := heDepth (d.heatE h)
def Device.lapT (d : Device) (h n : Nat) : Time := lapTimeOf (d.rate h) n
/-- The opening time of a lap (R86). -/
def Device.openT (d : Device) (h n : Nat) : Time := d.lapT h (n - 1)
/-- The finish line of a lap. -/
def Device.finishT (d : Device) (h n : Nat) : Time := d.lapT h n + heFinish (d.heatE h) * Time.usU

/-! Lane entries (Table 1.6). -/
def leEn (e : List Word) : Bool := bit (wd e 0) 31
def leCnt (e : List Word) : Nat := bx (wd e 0) 30 28
def leSrc (e : List Word) : Nat := bx (wd e 0) 27 24
def leId (e : List Word) : Nat := bx (wd e 0) 23 0
def leHeat (e : List Word) : Nat := bx (wd e 1) 31 22
def leSubst (e : List Word) : Nat := bx (wd e 1) 21 20
def leAuth (e : List Word) : Nat := bx (wd e 1) 19 18
def leWeight (e : List Word) : Nat := bx (wd e 1) 15 8
def leHold (e : List Word) : Nat := bx (wd e 1) 7 0
def leStream (e : List Word) : Nat := bx (wd e 2) 31 14
def leSub (e : List Word) : Nat := bx (wd e 2) 7 0
def leNph (e : List Word) : Nat := bx (wd e 3) 31 25
def leNana (e : List Word) : Nat := bx (wd e 3) 24 20
def leNdig (e : List Word) : Nat := bx (wd e 3) 19 16
def leSig (e : List Word) : Nat := bx (wd e 4) 19 0
def lePin (e : List Word) : Bool := bit (wd e 5) 31
def lePinDev (e : List Word) : Nat := bx (wd e 5) 11 0
def Device.laneE (d : Device) (l : Nat) : List Word := d.ent tLane l
/-- The enabled lanes of a heat, ascending. -/
def Device.heatLanes (d : Device) (h : Nat) : List Nat :=
  (d.ents tLane).filterMap (fun e => if leEn e.2 && decide (leHeat e.2 = h) then some e.1 else none)

/-! Instance entries (Table 4.2). -/
def ieEn (e : List Word) : Bool := bit (wd e 0) 31
def ieNoAmend (e : List Word) : Bool := bit (wd e 0) 30
def ieCode (e : List Word) : Nat := bx (wd e 0) 15 0
def ieHeat (e : List Word) : Nat := bx (wd e 1) 31 22
def ieClass (e : List Word) : Nat := bx (wd e 1) 21 17
def ieLen (e : List Word) : Nat := bx (wd e 2) 31 18
def ieOfs (e : List Word) : Nat := bx (wd e 2) 17 0
def ieNout (e : List Word) : Nat := bx (wd e 3) 15 0
def ieTrig (e : List Word) : Nat := bx (wd e 4) 31 30
def ieOffset (e : List Word) : Nat := bx (wd e 4) 23 0
def ieOut (e : List Word) : Nat := bx (wd e 5) 16 0
def Device.instE (d : Device) (i : Nat) : List Word := d.ent tInst i
/-- The enabled instances, ascending. -/
def Device.insts (d : Device) : List (Nat × List Word) := (d.ents tInst).filter (fun e => ieEn e.2)

/-! The kernel library: what each kernel is (Tables 4.4, 5.1, 6.1). -/
def kANGDIFF : Nat := 0x0101
def kCORRIDOR : Nat := 0x0102
def kAREAFREQ : Nat := 0x0103
def kAREAROCOF : Nat := 0x0104
def kVMAG : Nat := 0x0105
def kSEQCOMP : Nat := 0x0106
def kVPMU : Nat := 0x0110
def kLPMU : Nat := 0x0111
def kOSCDEC : Nat := 0x0201
def kOSCMON : Nat := 0x0202
def kFODET : Nat := 0x0203
def kDEFLOC : Nat := 0x0204
def kSSODET : Nat := 0x0210
def kISLIN : Nat := 0x0301
def kISLDET : Nat := 0x0302
def kISLSUM : Nat := 0x0303
/-- An operand-driven kernel (R137). -/
def kernDriven (k : Nat) : Bool := [kOSCMON, kFODET, kDEFLOC, kISLSUM].contains k
/-- A kernel that is driven by a timer (TRIG 0b01). -/
def kernTimer (k : Nat) : Bool := [kVPMU, kLPMU, kSSODET].contains k
/-- An amendable kernel (Tables 4.4, 5.1, 6.1). -/
def kernAmend (k : Nat) : Bool := decide (0x0101 ≤ k ∧ k ≤ 0x0106) || decide (k = kISLDET) || decide (k = kISLSUM)
/-- The instance runs on AMEND tokens (R137). -/
def ieAmends (e : List Word) : Bool := kernAmend (ieCode e) && !ieNoAmend e && !kernDriven (ieCode e) && decide (ieTrig e = 0)
/-! Spanning heats (Table 12.7, R361, R362). -/

/-- The partial-capable kernels (Table 12.8). -/
def partCapable (k : Nat) : Bool := [kCORRIDOR, kAREAFREQ, kAREAROCOF, kVMAG, kISLDET].contains k
def Device.spanE (d : Device) (h : Nat) : List Word := d.ent tSpan h
def seEn (e : List Word) : Bool := bit (wd e 0) 31
def seAltEn (e : List Word) : Bool := bit (wd e 0) 30
def seAlt (e : List Word) : Nat := bx (wd e 0) 29 24
def seAnchor (e : List Word) : Nat := bx (wd e 0) 21 16
def seNmem (e : List Word) : Nat := bx (wd e 0) 6 0
def seWait (e : List Word) : Nat := bx (wd e 1) 23 0
def seMirror (e : List Word) (k : Nat) : Bool := bit (wd e (2 + k / 32)) (k % 32)
def seDev (e : List Word) (k : Nat) : Nat := if k % 2 = 0 then bx (wd e (4 + k / 2)) 11 0 else bx (wd e (4 + k / 2)) 27 16
def seMembers (e : List Word) : List Nat := (List.range (min 64 (seNmem e))).map (seDev e)
def Device.self (d : Device) : Nat := d.f RXL_DEV.DEV
/-- The device's own span position. -/
def Device.selfPos (d : Device) (h : Nat) : Option Nat := (seMembers (d.spanE h)).findIdx? (fun x => x = d.self)
def Device.spans (d : Device) (h : Nat) : Bool := heSpan (d.heatE h)
/-- This device mirrors the heat: every device of a heat that does not span does. -/
def Device.mirrors (d : Device) (h : Nat) : Bool :=
  !d.spans h || (match d.selfPos h with | some k => seMirror (d.spanE h) k | none => false)
/-- The kernel runs on this device (R362). -/
def Device.runsHere (d : Device) (h k : Nat) : Bool := d.mirrors h || partCapable k
/-- On a spanning heat a partial-capable kernel commits no block of its own: its blocks come from the anchor's combines, whose tasks are
numbered from 256 up in the store (R362, R363). Its history passes through them. -/
def Device.combined (d : Device) (inst : Nat) : Bool :=
  let e := d.instE inst
  d.spans (ieHeat e) && partCapable (ieCode e) && decide (ieCode e ≠ kISLDET)
/-- The device that combines a heat's partials. -/
def Device.combDev (d : Device) (h : Nat) : Nat :=
  let e := d.spanE h
  seDev e (if d.rxl.onAlt.contains h then seAlt e else seAnchor e)
/-- The device holds a lane of a spanning heat for a lap (R356). -/
def Device.holds (d : Device) (lane n : Nat) : Bool :=
  match mget d.rxl.hold lane with
  | none => false
  | some x => x.ranges.any (fun r => decide (r.1 ≤ n) && (match r.2 with | some u => decide (n ≤ u) | none => true))
/-- The lanes of a lap (R89, R361). -/
def Device.lapLanes (d : Device) (h n : Nat) : List Nat :=
  if d.mirrors h then d.heatLanes h else (d.heatLanes h).filter (fun l => d.holds l n)

/-- The enabled instances of a heat that run on its RELEASE tokens (R137, R213, R362). -/
def Device.releaseInsts (d : Device) (h : Nat) : List Nat :=
  d.insts.filterMap (fun e =>
    if ieHeat e.2 = h ∧ ieTrig e.2 = 0 ∧ !kernDriven (ieCode e.2) ∧ d.runsHere h (ieCode e.2) then some e.1 else none)
def Device.amendInsts (d : Device) (h : Nat) : List Nat := (d.releaseInsts h).filter (fun i => ieAmends (d.instE i))
/-- The distinct OFFSET_US of a heat's timer instances, ascending by first instance. -/
def Device.offsets (d : Device) (h : Nat) : List Nat :=
  (d.insts.filterMap (fun e => if ieHeat e.2 = h ∧ ieTrig e.2 = 1 then some (ieOffset e.2) else none)).eraseDups

/-! Records. -/

/-- The values of a lane for one lap, converted. -/
structure LaneVals where
  freq : Word
  rocof : Word
  ph : List (Word × Word)
  ana : List Word
  dig : List Nat
  deriving DecidableEq, Repr

/-- NaN at every position within a lane's counts (R13). -/
def valsNaN (e : List Word) : LaneVals :=
  ⟨fNaN, fNaN, List.replicate (leNph e) (fNaN, fNaN), List.replicate (leNana e) fNaN, List.replicate (leNdig e) 0⟩

/-- One record of a lane (Tables 1.2 to 1.4, R13). -/
def mkRec (rate lap heat lane qual cnt src : Nat) (ofs : Int) (v : LaneVals) (r : Nat) : List Word :=
  let ana (k : Nat) : Word := v.ana.getD k 0#32
  [w32 (lap / rate), w32 (lap % rate * 16777216 + heat * 16384 + lane), w32 (qual * 65536 + r * 8192 + cnt * 1024 + src * 64), i32 ofs,
   if r = 0 then v.freq else ana (3 * r - 2), if r = 0 then v.rocof else ana (3 * r - 1)] ++
  (List.range 12).flatMap (fun j => let p := v.ph.getD (12 * r + j) (0#32, 0#32); [p.1, p.2]) ++
  [if r = 0 then ana 0 else ana (3 * r), w32 (v.dig.getD (2 * r) 0 + v.dig.getD (2 * r + 1) 0 * 65536)]

/-- A quality word's bit. -/
def qbit (b : Bool) (i : Nat) : Nat := b2n b * 2 ^ i
/-- Replace a quality bit (numbered as in word 2) in every record of a lane. -/
def setQual (recs : List (List Word)) (i : Nat) (b : Bool) : List (List Word) :=
  recs.map (fun r => lset r 2 (bset (wd r 2) i i (b2n b)))

/-- A lane's values by its counts (R13): NaN, or 0x0000 for a digital word, where the source supplies none below a count, and nothing beyond it. -/
def laneFit (e : List Word) (v : LaneVals) : LaneVals :=
  { v with ph := (List.range (leNph e)).map (fun k => v.ph.getD k (fNaN, fNaN)),
           ana := (List.range (leNana e)).map (fun k => v.ana.getD k fNaN), dig := v.dig.take (leNdig e) }
/-- The records of a lane for a lap: WIDE is set from the record count. -/
def Device.mkRecs (d : Device) (lane lap qual src : Nat) (ofs : Int) (v : LaneVals) : List (List Word) :=
  let e := d.laneE lane
  let q := qual + qbit (decide (leCnt e > 1)) 4
  (List.range (leCnt e)).map (mkRec (d.rate (leHeat e)) lap (leHeat e) lane q (leCnt e) src ofs (laneFit e v))

/-- ARR_OFS (R20): arrival minus lap time, rounded down to nanoseconds and saturated. -/
def arrOfs (arr lapT : Time) : Int := max (-2147483647) (min 2147483647 (((arr : Int) - lapT) / (Time.nsU : Int)))

/-! The Grandstand (R86). -/
def gsKey (h pos lane r : Nat) : Nat := ((h * 256 + pos) * 16384 + lane) * 8 + r
/-- The records of a lane at a ring position; none where no record has been placed since the opening. -/
def gsGet (p : Pfa) (h pos lane cnt : Nat) : Option (List (List Word)) :=
  match mget p.gs (gsKey h pos lane 0) with
  | none => none
  | some r0 => some (r0 :: (List.range (cnt - 1)).map (fun r => mgetD p.gs (gsKey h pos lane (r + 1)) []))
/-- Place a lane's records. -/
def gsPut (p : Pfa) (h pos lane : Nat) (recs : List (List Word)) : Pfa :=
  { p with gs := recs.zipIdx.foldl (fun g x => mset g (gsKey h pos lane x.2) x.1) p.gs }
/-- Zero the quality and record words of a ring position (R86): what stood there is no record any more. -/
def gsZero (p : Pfa) (h pos : Nat) : Pfa := { p with gs := p.gs.filter (fun e => decide (e.1 / 131072 ≠ h * 256 + pos)) }

def Device.setPfa (d : Device) (p : Pfa) : Device := { d with pfa := p }
/-- The records of a lane for a lap that holds its ring position. The heat and lane entries are those now stored, for laps still held after a disable
too (DESIGN CHOICE, log entry 86). -/
def Device.lapRecs (d : Device) (h n lane : Nat) : Option (List (List Word)) :=
  gsGet d.pfa h (n % d.depth h) lane (leCnt (d.laneE lane))

/-! Held copies (R23). -/

/-- Replace a lane's held copy by the records of a later lap, if they are valid and no substitute. -/
def holdCopy (p : Pfa) (lane n : Nat) (recs : List (List Word)) : Pfa :=
  let w := recQR recs
  if !bit w qVALID || bit w qSUBST then p
  else match mget p.heldCopy lane with
    | some c => if c.lap < n then { p with heldCopy := mset p.heldCopy lane ⟨n, recs⟩ } else p
    | none => { p with heldCopy := mset p.heldCopy lane ⟨n, recs⟩ }

/-- The values of a lane's records, back from their places. -/
def valsOf (e : List Word) (recs : List (List Word)) : LaneVals :=
  ⟨recFreq recs, recRocof recs, (List.range (leNph e)).map (recPhasor recs), (List.range (leNana e)).map (recAnalog recs),
   (List.range (leNdig e)).map (recDigital recs)⟩

/-- The substitute of a lane for a lap (R23). -/
def Device.substRecs (d : Device) (n lane : Nat) (late : Bool) : List (List Word) :=
  let e := d.laneE lane
  let base := qbit true 7 + qbit late 9
  let use := match mget d.pfa.heldCopy lane with
    | some c => if leSubst e = 1 ∧ n ≤ c.lap + leHold e then some c.recs else none
    | none => none
  match use with
  | some r =>
    let w := recQR r
    let q := base + qbit (bit w qVALID) 15 + qbit (bit w qSYNC) 14 + qTQ w * 1024 + qbit (bit w qUNSETTLED) 6 + qbit (bit w qAUTH_FAIL) 5 +
      qbit (bit w qREMOTE) 3
    d.mkRecs lane n q (leSrc e) 0 (valsOf e r)
  | none => d.mkRecs lane n (base + 15 * 1024) (leSrc e) 0 (valsNaN e)

/-! Where records lie (R113 to R116); no result depends on it. -/

/-- The virtual index of the first record of a lane (R115). -/
def Device.vBase (d : Device) (h lane : Nat) : Nat :=
  (((d.heatLanes h).filter (fun l => decide (l < lane))).map (fun l => d.depth h * leCnt (d.laneE l))).sum
/-- The bank group of a record. -/
def Device.recBank (d : Device) (h pos lane r : Nat) : Nat :=
  let v := d.vBase h lane + pos * leCnt (d.laneE lane) + r
  match d.pfa.bmap.find? (fun m => decide (m.heat = h) && !m.old) with
  | some m => m.blocks.getD (v / 64) 0 % 12
  | none => 0

/-! Reads of the Grandstand, by the 64-bit words its codes protect (R455). -/

/-- The place of a word of a record; and a record's quality word, a phasor's and a lane's frequency and ROCOF as (record, word). -/
def gsLoc (key w : Nat) : Nat := key * 16 + w
def wQual (r : Nat) : Nat × Nat := (r, 1)
def wRef (ref : Word) : Nat × Nat := if refKind ref = 0 then (refSlot ref / 12, 3 + refSlot ref % 12) else (0, 2)
/-- Every word of the records of a lane. -/
def Device.allWords (d : Device) (lane : Nat) : List (Nat × Nat) :=
  (List.range (leCnt (d.laneE lane))).flatMap (fun r => (List.range 16).map (fun w => (r, w)))
/-- The quality words of a lane's records. -/
def Device.qualWords (d : Device) (lane : Nat) : List (Nat × Nat) := (List.range (leCnt (d.laneE lane))).map wQual
/-- Places and bank groups of words of a lane's records for a lap. -/
def Device.gsLocs (d : Device) (h n lane : Nat) (ws : List (Nat × Nat)) : List (Nat × Nat) :=
  ws.map (fun w => (gsLoc (gsKey h (n % d.depth h) lane w.1) w.2, d.recBank h (n % d.depth h) lane w.1))
/-- One of the words is lost. -/
def Device.gsLost (d : Device) (h n lane : Nat) (ws : List (Nat × Nat)) : Bool :=
  !d.mem.bad.isEmpty && (d.gsLocs h n lane ws).any (fun p => decide (d.badAt 0 p.1 = 2))
/-- The words are read. -/
def Device.gsTouch (d : Device) (h n lane : Nat) (ws : List (Nat × Nat)) : Device :=
  if d.mem.bad.isEmpty then d else (d.gsLocs h n lane ws).foldl (fun x p => x.memRead 0 p.1 p.2) d

/-! Lap state. -/
def lapKey (h n : Nat) : Nat := h * 2 ^ 64 + n
def Device.lap? (d : Device) (h n : Nat) : Option Lap := mget d.pfa.laps (lapKey h n)
def Device.setLap (d : Device) (l : Lap) : Device := d.setPfa { d.pfa with laps := mset d.pfa.laps (lapKey l.heat l.lap) l }
def Device.delLap (d : Device) (h n : Nat) : Device := d.setPfa { d.pfa with laps := mdel d.pfa.laps (lapKey h n) }
def Device.run? (d : Device) (h : Nat) : Option HeatRun := mget d.pfa.heats h
def Device.setRun (d : Device) (h : Nat) (r : HeatRun) : Device := d.setPfa { d.pfa with heats := mset d.pfa.heats h r }
/-- The heat is enabled (EN reads 1). -/
def Device.heatOn (d : Device) (h : Nat) : Bool := match d.run? h with | some r => r.enabled | none => false
/-- Laps of a heat that hold state, rising. -/
def Device.lapsOf (d : Device) (h : Nat) : List Lap := (mvals d.pfa.laps).filter (fun l => l.heat = h)


/-! Tasks. -/

def ilKey (inst lap : Nat) : Nat := inst * 2 ^ 64 + lap
/-- Tasks not committed, queued or held by engines. -/
def Device.liveTasks (d : Device) : List Task := d.srt.flight ++ d.srt.queues.flatMap (fun q => q.2)
/-- The instance has a task of the lap that has not committed. -/
def Device.uncommitted (d : Device) (inst lap : Nat) : Bool :=
  d.srt.store.any (fun e => decide (e.inst = inst ∧ e.lap = lap) && e.trig.isSome) ||
  d.liveTasks.any (fun t => decide (t.e.inst = inst ∧ t.e.lap = lap))

end Sys2Proof.Machine
end

