-- ==== Sys2Proof/Machine/Phasor.lean ====
section
/-!
DEFINITION. The phasor family (spec/04, R136, R140 to R143): each kernel as a function of its parameter block and the gathered records.
The partial-capable ones go through element values, so that one device and an anchor compute alike (R362, R363).
-/
namespace Sys2Proof.Machine

/-- An element's value (Table 12.8): excluded under R136, UNSETTLED, V0 and V1. -/
structure Elem where
  excl : Bool
  unset : Bool
  v0 : Word
  v1 : Word
  deriving DecidableEq, Repr

/-- What a run yields: values, inputs excluded, an included input with UNSETTLED, the state it passes on. -/
structure KernRun where
  vals : List Word
  nexcl : Nat
  unset : Bool
  hist : Option KState
  deriving DecidableEq, Repr

/-! References. -/

def elemNone : Elem := ⟨true, false, fZero, fZero⟩
/-- A referenced scalar as an element. -/
def scalarElem (c : ExclCfg) (g : Gathered) (ref : Word) : Elem :=
  match inScalar c g ref with
  | some v => ⟨false, refUnsettled c g ref, v, fZero⟩
  | none => elemNone
/-- A referenced phasor as a unit phasor (CORRIDOR); one of magnitude zero has none, which +Inf stands for (DESIGN CHOICE, log entry 37). -/
def unitElem (c : ExclCfg) (g : Gathered) (ref : Word) : Elem :=
  match inPhasor c g ref with
  | none => elemNone
  | some p =>
    let m := cMag p
    if fIsZero m then ⟨false, false, fInf false, fInf false⟩ else ⟨false, refUnsettled c g ref, fDiv p.1 m, fDiv p.2 m⟩

/-! Parameter blocks. -/

/-- A corridor: MINW_A, MINW_B, side A and side B as (reference, weight). -/
structure Corr where
  minA : Word
  minB : Word
  a : List (Word × Word)
  b : List (Word × Word)
  deriving DecidableEq, Repr
/-- `n` entries of two words. -/
def pairsAt (p : List Word) (i n : Nat) : List (Word × Word) := (List.range n).map (fun k => (wd p (i + 2 * k), wd p (i + 2 * k + 1)))
def corrsAt (p : List Word) (n i : Nat) : List Corr :=
  match n with
  | 0 => []
  | k + 1 =>
    let na := bx (wd p i) 31 16
    let nb := bx (wd p i) 15 0
    ⟨wd p (i + 1), wd p (i + 2), pairsAt p (i + 4) na, pairsAt p (i + 4 + 2 * na) nb⟩ :: corrsAt p k (i + 4 + 2 * na + 2 * nb)
def corridors (p : List Word) : List Corr := corrsAt p (bx (wd p 0) 15 0) 4
/-- A group of AREAFREQ or AREAROCOF: MINW and its references with weights. -/
structure Grp where
  minw : Word
  refs : List (Word × Word)
  deriving DecidableEq, Repr
def grpsAt (p : List Word) (n i : Nat) : List Grp :=
  match n with
  | 0 => []
  | k + 1 => let m := (wd p i).toNat
             ⟨wd p (i + 1), pairsAt p (i + 4) m⟩ :: grpsAt p k (i + 4 + 2 * m)
def groups (p : List Word) : List Grp := grpsAt p (bx (wd p 0) 15 0) 4
def vmagEnts (p : List Word) : List (Word × Word) := pairsAt p 4 (bx (wd p 0) 15 0)
def angPairs (p : List Word) : List (Word × Word) := pairsAt p 4 (bx (wd p 0) 15 0)
def triplets (p : List Word) : List (Word × Word × Word) :=
  (List.range (bx (wd p 0) 15 0)).map (fun k => (wd p (4 + 3 * k), wd p (5 + 3 * k), wd p (6 + 3 * k)))

/-- Every signal reference of a phasor-family block, in block order. -/
def phasorRefs (code : Nat) (p : List Word) : List Word :=
  if code = kANGDIFF then (angPairs p).flatMap (fun x => [x.1, x.2])
  else if code = kCORRIDOR then (corridors p).flatMap (fun c => (c.a ++ c.b).map (·.1))
  else if code = kAREAFREQ ∨ code = kAREAROCOF then (groups p).flatMap (fun x => x.refs.map (·.1))
  else if code = kVMAG then (vmagEnts p).map (·.1)
  else if code = kSEQCOMP then (triplets p).flatMap (fun t => [t.1, t.2.1, t.2.2])
  else []

/-! Elements of the partial-capable kernels. -/

/-- The elements of a block, by element number, each with its lane. -/
def phasorElems (code : Nat) (p : List Word) (c : ExclCfg) (g : Gathered) : List (Nat × Elem) :=
  if code = kCORRIDOR then (phasorRefs code p).map (fun r => (refLane r, unitElem c g r))
  else if code = kVMAG then
    (vmagEnts p).map (fun e => (refLane e.1, match inPhasor c g e.1 with
      | some x => ⟨false, refUnsettled c g e.1, fMul (cMag x) e.2, fZero⟩
      | none => elemNone))
  else (phasorRefs code p).map (fun r => (refLane r, scalarElem c g r))

/-- CORRIDOR over elements. -/
def corrSide (side : List (Word × Word)) (es : List Elem) : Word × Word × Word × Bool :=
  let inc (e : Elem) : Bool := !e.excl && !fIsInf e.v0
  let xs := side.zip es
  let sum (f : Elem → Word) : Word := sum16 (xs.map (fun x => if inc x.2 then (some x.1.2, f x.2) else (none, fZero)))
  (sum (·.v0), sum (·.v1), sum16 (xs.map (fun x => (none, if inc x.2 then x.1.2 else fZero))), es.any inc)
def corrVals : List Corr → List Elem → List Word
  | [], _ => []
  | c :: r, es =>
    let a := corrSide c.a (es.take c.a.length)
    let b := corrSide c.b (slice es c.a.length c.b.length)
    let rest := es.drop (c.a.length + c.b.length)
    let v := if fLt a.2.2.1 c.minA || fLt b.2.2.1 c.minB || !a.2.2.2 || !b.2.2.2 || cIsZero (a.1, a.2.1) || cIsZero (b.1, b.2.1) then fNaN
      else cAngDiff (a.1, a.2.1) (b.1, b.2.1)
    v :: corrVals r rest

/-- Weighted mean and spread of a group (R142). -/
def grpMean (x : Grp) (es : List Elem) : Word × Word :=
  let xs := x.refs.zip es
  let inc := (es.filter (fun e => !e.excl)).map (·.v0)
  let den := sumChunks 1024 (xs.map (fun y => (none, if y.2.excl then fZero else y.1.2)))
  if fLt den x.minw || inc.isEmpty then (fNaN, fNaN)
  else
    let num := sumChunks 1024 (xs.map (fun y => if y.2.excl then (none, fZero) else (some y.1.2, y.2.v0)))
    (fDiv num den, fSub (inc.tail.foldl fMax (inc.headD fZero)) (inc.tail.foldl fMin (inc.headD fZero)))
def grpMeans : List Grp → List Elem → List (Word × Word)
  | [], _ => []
  | x :: r, es => grpMean x (es.take x.refs.length) :: grpMeans r (es.drop x.refs.length)

/-- c_k of R143, rounded once. -/
def slopeCoef (rate w k : Nat) : Word := ofRat ((rate : Int) * ((w : Int) - 1 - 2 * k) * 6) (w * (w * w - 1))
/-- The slope over the last W means, newest first; NaN while one is missing. -/
def slopeOf (rate w : Nat) (ms : List Word) : Word :=
  let l := ms.take w
  if l.length < w || l.any fIsNaN then fNaN else sum16 (l.zipIdx.map (fun e => (some (slopeCoef rate w e.2), e.1)))

/-- The values of a partial-capable kernel from its elements; `gap` missing laps lie before this one. -/
def elemVals (code : Nat) (p : List Word) (es : List Elem) (rate gap : Nat) (hist : Option KState) : List Word × Option KState :=
  if code = kCORRIDOR then (corrVals (corridors p) es, none)
  else if code = kVMAG then (es.map (fun e => if e.excl then fNaN else e.v0), none)
  else
    let ms := grpMeans (groups p) es
    if code = kAREAFREQ then (ms.flatMap (fun m => [m.1, m.2]), none)
    else if bx (wd p 1) 31 30 = 1 then
      let w := bx (wd p 1) 7 0
      let old := match hist with | some (.rocof h) => h | _ => []
      let new := ms.zipIdx.map (fun m => (m.1.1 :: (List.replicate gap fNaN ++ old.getD m.2 [])).take w)
      (new.map (slopeOf rate w), some (.rocof new))
    else (ms.map (·.1), none)

/-! ANGDIFF and SEQCOMP. -/

def angVal (c : ExclCfg) (g : Gathered) (x : Word × Word) : Word :=
  match inPhasor c g x.1, inPhasor c g x.2 with
  | some a, some b => if cIsZero a || cIsZero b then fNaN else cAngDiff a b
  | _, _ => fNaN
def alphaK : Word × Word := (0xBF000000#32, 0x3F5DB3D7#32)
def alpha2K : Word × Word := (0xBF000000#32, 0xBF5DB3D7#32)
def oneK : Word × Word := (fOne, fZero)
def third : Word := 0x3EAAAAAB#32
/-- (kA A + kB B + kC C) / 3, three complex multiply-adds in order. They start from +0, and the factor 1 is multiplied in as the others are (DESIGN
CHOICE, log entry 38). -/
def seqComp (ka kb kc a b c : Word × Word) : Word × Word :=
  let s := cMac (cMac (cMac (fZero, fZero) ka a) kb b) kc c
  (fMul s.1 third, fMul s.2 third)
def seqVals (c : ExclCfg) (g : Gathered) (t : Word × Word × Word) : List Word :=
  match inPhasor c g t.1, inPhasor c g t.2.1, inPhasor c g t.2.2 with
  | some x, some y, some z =>
    let v1 := seqComp oneK alphaK alpha2K x y z
    let v2 := seqComp oneK alpha2K alphaK x y z
    let v0 := seqComp oneK oneK oneK x y z
    [v1.1, v1.2, v2.1, v2.2, v0.1, v0.2, if fIsZero (cMag v1) then fNaN else fDiv (cMag v2) (cMag v1)]
  | _, _, _ => List.replicate 7 fNaN

/-- References excluded, and an included one with UNSETTLED. -/
def refExcluded (c : ExclCfg) (g : Gathered) (r : Word) : Bool :=
  if refKind r = 0 then (inPhasor c g r).isNone else (inScalar c g r).isNone
/-- A run of a phasor-family kernel (R136 to R143). -/
def phasorRun (code : Nat) (p : List Word) (c : ExclCfg) (g : Gathered) (rate gap : Nat) (hist : Option KState) : KernRun :=
  if code = kANGDIFF ∨ code = kSEQCOMP then
    let rs := phasorRefs code p
    ⟨if code = kANGDIFF then (angPairs p).map (angVal c g) else (triplets p).flatMap (seqVals c g),
     (rs.filter (refExcluded c g)).length, rs.any (fun r => !refExcluded c g r && refUnsettled c g r), none⟩
  else
    let es := (phasorElems code p c g).map (·.2)
    let v := elemVals code p es rate gap hist
    ⟨v.1, (es.filter (·.excl)).length, es.any (·.unset), v.2⟩

end Sys2Proof.Machine
end

