-- ==== Sys2Proof/Machine/LinAlg.lean ====
section
/-!
DEFINITION. FP32 linear algebra of the oscillation kernels (spec/05, R164 to R169, R175). Vectors are lists; a matrix is a list of columns, or
of rows where a name says so. Every sum is reduced as R126 prescribes. The rules name these methods and fix their sweeps and steps; the
order of operations within a formula, the order in which pairs of columns are rotated, and the test that deflates an eigenvalue are the
model's (DESIGN CHOICE, log entry 38).
-/
namespace Sys2Proof.Machine

/-! Vectors. -/

def dot (a b : List Word) : Word := sum16 ((a.zip b).map (fun x => (some x.1, x.2)))
def vScale (s : Word) (a : List Word) : List Word := a.map (fMul s)
/-- `y + s x`. -/
def vAxpy (s : Word) (x y : List Word) : List Word := List.zipWith (fun a b => fFma s a b) x y
def vNorm (a : List Word) : Word := fSqrt (dot a a)
/-- A vector divided by its length; a zero vector stays. -/
def vUnit (a : List Word) : List Word := let n := vNorm a; if fIsZero n then a else a.map (fun x => fDiv x n)
def vUnitAt (n i : Nat) : List Word := (List.range n).map (fun k => if k = i then fOne else fZero)
/-- Rows of a matrix of `n` rows held by column, and the converse. -/
def rowsOf (n : Nat) (cols : List (List Word)) : List (List Word) := (List.range n).map (fun i => cols.map (fun c => wd c i))
/-- Rows times a vector. -/
def rowsMul (rows : List (List Word)) (v : List Word) : List Word := rows.map (fun r => dot r v)
/-- A combination of vectors of length `n`. -/
def combine (n : Nat) (vs : List (List Word)) (cs : List Word) : List Word := rowsMul (rowsOf n vs) cs

/-! Complex numbers. -/

def cAdd (a b : Word × Word) : Word × Word := (fAdd a.1 b.1, fAdd a.2 b.2)
def cNeg (a : Word × Word) : Word × Word := (fNeg a.1, fNeg a.2)
def cMul (a b : Word × Word) : Word × Word := (fFma a.1 b.1 (fNeg (fMul a.2 b.2)), fFma a.1 b.2 (fMul a.2 b.1))
def cConj (a : Word × Word) : Word × Word := (a.1, fNeg a.2)
def cAbs2 (a : Word × Word) : Word := fFma a.1 a.1 (fMul a.2 a.2)
def cDiv (a b : Word × Word) : Word × Word := let n := cAbs2 b; let p := cMul a (cConj b); (fDiv p.1 n, fDiv p.2 n)
def cReal (a : Word) : Word × Word := (a, fZero)
/-- A sum of complex products. -/
def cDotC (a b : List (Word × Word)) : Word × Word :=
  let ps := (a.zip b).map (fun x => cMul x.1 x.2)
  (sum16 (ps.map (fun x => (none, x.1))), sum16 (ps.map (fun x => (none, x.2))))
/-- A real row times a complex vector. -/
def cDot (row : List Word) (v : List (Word × Word)) : Word × Word := (dot row (v.map (·.1)), dot row (v.map (·.2)))

/-! Modified Gram-Schmidt (R164). -/

/-- Remove from `v` its part along each vector of a basis in turn. -/
def mgsOff (basis : List (List Word)) (v : List Word) : List Word := basis.foldl (fun x q => vAxpy (fNeg (dot q x)) q x) v
/-- One pass, column by column. -/
def mgsPass (cols : List (List Word)) : List (List Word) := cols.foldl (fun qs v => qs ++ [vUnit (mgsOff qs v)]) []
/-- Applied twice. -/
def mgs2 (cols : List (List Word)) : List (List Word) := mgsPass (mgsPass cols)

/-! Triangular factors (R167, steps 1 and 2). -/

/-- The next row of a Cholesky factor from the rows before it and a row of the matrix. -/
def cholRow (ls : List (List Word)) (a : List Word) : List Word :=
  let r := ls.foldl (fun r l => r ++ [fDiv (fSub (wd a r.length) (dot r l)) (l.getLastD fOne)]) []
  r ++ [fSqrt (fSub (wd a r.length) (dot r r))]
/-- The Cholesky factor of a symmetric matrix, by row. -/
def cholesky (rows : List (List Word)) : List (List Word) := rows.foldl (fun ls a => ls ++ [cholRow ls a]) []
/-- `L x = b`, L by row. -/
def solveLower (ls : List (List Word)) (b : List Word) : List Word :=
  ls.foldl (fun x l => x ++ [fDiv (fSub (wd b x.length) (dot x l)) (l.getLastD fOne)]) []
/-- L times a vector. -/
def lowerMul (ls : List (List Word)) (x : List Word) : List Word := ls.map (fun l => dot l (x.take l.length))

/-! Block Golub-Kahan-Lanczos (R167, step 2). -/

/-- Orthonormalise a block against a basis and within itself, each twice: the new vectors, and by column the coefficients within the block. -/
def qrBlock (basis cols : List (List Word)) : List (List Word) × List (List Word) :=
  cols.foldl (fun (x : List (List Word) × List (List Word)) v =>
    let v1 := mgsOff basis (mgsOff basis v)
    let c1 := x.1.foldl (fun (y : List Word × List Word) q => let c := dot q y.1; (vAxpy (fNeg c) q y.1, y.2 ++ [c])) (v1, [])
    let c2 := x.1.foldl (fun (y : List Word × List Word) q => let c := dot q y.1; (vAxpy (fNeg c) q y.1, y.2 ++ [c])) (c1.1, [])
    (x.1 ++ [vUnit c2.1], x.2 ++ [List.zipWith fAdd c1.2 c2.2 ++ [vNorm c2.1]])) ([], [])
/-- The bases U and V and the block factors A_j and B_j: H V_j = U_(j-1) B_(j-1)^T + U_j A_j. -/
structure Gkl where
  us : List (List Word)
  vs : List (List Word)
  as : List (List (List Word))
  bs : List (List (List Word))
def gklSteps (n : Nat) (hRows hCols v : List (List Word)) (g : Gkl) : Gkl :=
  match n with
  | 0 => g
  | k + 1 =>
    let u := qrBlock g.us (v.map (rowsMul hRows))
    let vs := g.vs ++ v
    let w := qrBlock vs (u.1.map (rowsMul hCols))
    gklSteps k hRows hCols w.1 ⟨g.us ++ u.1, vs, g.as ++ [u.2], g.bs ++ [w.2]⟩
/-- The block bidiagonal of blocks of `b` vectors, by column. -/
def gklBidiag (b : Nat) (g : Gkl) : List (List Word) :=
  let n := g.as.length
  (List.range n).flatMap (fun j => (List.range b).map (fun c =>
    (List.range n).flatMap (fun i => (List.range b).map (fun r =>
      if i = j then wd ((g.as.getD j []).getD c []) r
      else if i + 1 = j then wd ((g.bs.getD i []).getD r []) c
      else fZero))))

/-! One-sided Jacobi (R167, step 3). -/

/-- The rotation that makes two columns orthogonal, from their squared lengths and their product: c and s. -/
def jacRot (a b g : Word) : Word × Word :=
  if fIsZero g then (fOne, fZero)
  else
    let z := fDiv (fSub b a) (fMul (fOfNat 2) g)
    let t := fDiv (if fSign z then fNeg fOne else fOne) (fAdd (fAbs z) (fSqrt (fFma z z fOne)))
    let c := fDiv fOne (fSqrt (fFma t t fOne))
    (c, fMul c t)
def rotPair (r : Word × Word) (x y : List Word) : List Word × List Word :=
  (List.zipWith (fun a b => fFma r.1 a (fNeg (fMul r.2 b))) x y, List.zipWith (fun a b => fFma r.2 a (fMul r.1 b)) x y)
/-- Every pair (p, q), p < q, in cyclic order by row. -/
def pairsUpTo (n : Nat) : List (Nat × Nat) := (List.range n).flatMap (fun p => (List.range (n - 1 - p)).map (fun k => (p, p + 1 + k)))
def jacSweep (x : List (List Word) × List (List Word)) : List (List Word) × List (List Word) :=
  (pairsUpTo x.1.length).foldl (fun y e =>
    let a := y.1.getD e.1 []
    let b := y.1.getD e.2 []
    let r := jacRot (dot a a) (dot b b) (dot a b)
    let g := rotPair r a b
    let v := rotPair r (y.2.getD e.1 []) (y.2.getD e.2 [])
    (lset (lset y.1 e.1 g.1) e.2 g.2, lset (lset y.2 e.1 v.1) e.2 v.2)) x
/-- Repeat a function. -/
def times {α : Type} (n : Nat) (f : α → α) (x : α) : α := match n with | 0 => x | k + 1 => times k f (f x)
/-- Singular triplets of a square matrix by column after `n` sweeps, the largest first: value, left and right vector. -/
def jacobiSvd (n : Nat) (cols : List (List Word)) : List (Word × List Word × List Word) :=
  let m := cols.length
  let r := times n jacSweep (cols, (List.range m).map (vUnitAt m))
  sortBy (fun a b => !fLt a.1 b.1) ((r.1.zip r.2).map (fun x => (vNorm x.1, vUnit x.1, x.2)))

/-! Householder least squares (R167, step 4). -/

/-- The reflection that turns a column onto its first axis: its vector, 2 over its squared length, and what the first element becomes. -/
def houseOf (a : List Word) : List Word × Word × Word :=
  let n := vNorm a
  let al := if fSign (a.headD fZero) then n else fNeg n
  let v := fSub (a.headD fZero) al :: a.tail
  let q := dot v v
  if fIsZero q then (v, fZero, a.headD fZero) else (v, fDiv (fOfNat 2) q, al)
def reflect (v : List Word) (b : Word) (x : List Word) : List Word := vAxpy (fNeg (fMul b (dot v x))) v x
/-- The rows of X, where the columns times X come nearest to the right sides. -/
def houseSolve (fuel : Nat) (cols rhs : List (List Word)) : List (List Word) :=
  match fuel, cols with
  | k + 1, a :: rest =>
    let h := houseOf a
    let rest1 := rest.map (reflect h.1 h.2.1)
    let rhs1 := rhs.map (reflect h.1 h.2.1)
    let xs := houseSolve k (rest1.map List.tail) (rhs1.map List.tail)
    let row := rest1.map (fun c => c.headD fZero)
    rhs1.zipIdx.map (fun e => fDiv (fSub (e.1.headD fZero) (dot row (xs.map (fun x => wd x e.2)))) h.2.2) :: xs
  | _, _ => []

/-! Hessenberg reduction and double-shift QR (R167, step 5). -/

/-- A matrix by row and the transformation accumulated, by row: A = Q T Q^T. -/
structure Schur where
  t : List (List Word)
  q : List (List Word)
def ent (m : List (List Word)) (i j : Nat) : Word := wd (m.getD i []) j
/-- Apply a reflection to the elements of a vector from place `o` up. -/
def reflectAt (o : Nat) (v : List Word) (b : Word) (x : List Word) : List Word :=
  x.take o ++ reflect v b (slice x o v.length) ++ x.drop (o + v.length)
/-- Transform by a reflection on the places from `o` up. -/
def schurReflect (n o : Nat) (v : List Word) (b : Word) (s : Schur) : Schur :=
  let left := rowsOf n ((rowsOf n s.t).map (reflectAt o v b))
  ⟨left.map (reflectAt o v b), s.q.map (reflectAt o v b)⟩
/-- Bring the columns from `lo` up to `hi - 2` to Hessenberg form. -/
def hessenberg (n lo hi : Nat) (s : Schur) : Schur :=
  (List.range (hi - 1 - lo)).foldl (fun x k =>
    let j := lo + k
    let h := houseOf ((List.range (hi - j)).map (fun i => ent x.t (j + 1 + i) j))
    let y := schurReflect n (j + 1) h.1 h.2.1 x
    { y with t := y.t.zipIdx.map (fun r => if j + 1 < r.2 ∧ r.2 ≤ hi then lset r.1 j fZero else r.1) }) s
/-- A subdiagonal element is negligible beside its neighbours on the diagonal. -/
def negligible (t : List (List Word)) (i : Nat) : Bool :=
  fLe (fAbs (ent t i (i - 1))) (fMul 0x34000000#32 (fAdd (fAbs (ent t i i)) (fAbs (ent t (i - 1) (i - 1)))))
/-- The first place of the block that ends at `hi`. -/
def blockStart (t : List (List Word)) : Nat → Nat
  | 0 => 0
  | k + 1 => if negligible t (k + 1) then k + 1 else blockStart t k
/-- A double-shift step on the block from `lo` to `hi`. -/
def francisStep (n lo hi : Nat) (s : Schur) : Schur :=
  let e (i j : Nat) : Word := ent s.t i j
  let tr := fAdd (e (hi - 1) (hi - 1)) (e hi hi)
  let dt := fFma (e (hi - 1) (hi - 1)) (e hi hi) (fNeg (fMul (e (hi - 1) hi) (e hi (hi - 1))))
  let x := fAdd (fFma (e lo lo) (fSub (e lo lo) tr) (fMul (e lo (lo + 1)) (e (lo + 1) lo))) dt
  let y := fMul (e (lo + 1) lo) (fSub (fAdd (e lo lo) (e (lo + 1) (lo + 1))) tr)
  let z := fMul (e (lo + 1) lo) (e (lo + 2) (lo + 1))
  let h := houseOf [x, y, z]
  hessenberg n lo hi (schurReflect n lo h.1 h.2.1 s)
/-- Blocks of the quasi-triangular form, from the last: first place and size. `steps` counts those of the present eigenvalue, at most 30. -/
def schurLoop (fuel n hi steps : Nat) (s : Schur) (bs : List (Nat × Nat)) : Schur × List (Nat × Nat) :=
  match fuel with
  | 0 => (s, bs)
  | k + 1 =>
    let lo := blockStart s.t hi
    let next (m : Nat) : Schur × List (Nat × Nat) :=
      if hi < m then (s, (hi + 1 - m, m) :: bs) else schurLoop k n (hi - m) 0 s ((hi + 1 - m, m) :: bs)
    if lo = hi ∨ (30 ≤ steps ∧ lo + 1 ≠ hi) then next 1
    else if lo + 1 = hi then next 2
    else schurLoop k n hi (steps + 1) (francisStep n lo hi s) bs
/-- The eigenvalues of a block: one or two. -/
def blockEigs (t : List (List Word)) (b : Nat × Nat) : List (Word × Word) :=
  if b.2 = 1 then [cReal (ent t b.1 b.1)]
  else
    let a := ent t b.1 b.1
    let d := ent t (b.1 + 1) (b.1 + 1)
    let h := fMul 0x3F000000#32 (fAdd a d)
    let g := fMul 0x3F000000#32 (fSub a d)
    let dis := fFma g g (fMul (ent t b.1 (b.1 + 1)) (ent t (b.1 + 1) b.1))
    if fSign dis && !fIsZero dis then let r := fSqrt (fNeg dis); [(h, r), (h, fNeg r)]
    else let r := fSqrt dis; [cReal (fAdd h r), cReal (fSub h r)]
/-- The rows of the quasi-triangular form above a vector's last places give its other elements, block by block upwards: `x` holds those from
`k` up. -/
def backSub (t : List (List Word)) (z : Word × Word) : List (Nat × Nat) → List (Word × Word) → List (Word × Word)
  | [], x => x
  | b :: r, x =>
    let rest (i : Nat) : Word × Word := cNeg (cDot ((t.getD i []).drop (b.1 + b.2)) x)
    let dz (i : Nat) : Word × Word := cAdd (cReal (ent t i i)) (cNeg z)
    if b.2 = 1 then backSub t z r (cDiv (rest b.1) (dz b.1) :: x)
    else
      let i := b.1
      let p := cReal (ent t i (i + 1))
      let q := cReal (ent t (i + 1) i)
      let det := cAdd (cMul (dz i) (dz (i + 1))) (cNeg (cMul p q))
      let x0 := cDiv (cAdd (cMul (rest i) (dz (i + 1))) (cNeg (cMul p (rest (i + 1))))) det
      let x1 := cDiv (cAdd (cMul (dz i) (rest (i + 1))) (cNeg (cMul q (rest i)))) det
      backSub t z r (x0 :: x1 :: x)
/-- The eigenvector of an eigenvalue of a block; `above` are the blocks before it, the nearest first. -/
def eigVec (n : Nat) (s : Schur) (above : List (Nat × Nat)) (b : Nat × Nat) (z : Word × Word) : List (Word × Word) :=
  let x0 := if b.2 = 1 then [cReal fOne] else [cReal (ent s.t b.1 (b.1 + 1)), cAdd z (cReal (fNeg (ent s.t b.1 b.1)))]
  let x := backSub s.t z above x0 ++ List.replicate (n - b.1 - b.2) (cReal fZero)
  s.q.map (fun r => cDot r x)
/-- Eigenvalues and eigenvectors of a square matrix by row. -/
def eigen (rows : List (List Word)) : List ((Word × Word) × List (Word × Word)) :=
  let n := rows.length
  let r := schurLoop (31 * n + 1) n (n - 1) 0 (hessenberg n 0 (n - 1) ⟨rows, (List.range n).map (vUnitAt n)⟩) []
  r.2.zipIdx.flatMap (fun b => (blockEigs r.1.t b.1).map (fun z => (z, eigVec n r.1 (r.2.take b.2).reverse b.1 z)))

/-! Complex systems. -/

/-- Solve a square system, each row with its right side last, by elimination with the largest pivot. -/
def cSolve (fuel : Nat) (rows : List (List (Word × Word))) : List (Word × Word) :=
  match fuel, rows with
  | k + 1, r :: rs =>
    let big := rs.zipIdx.foldl (fun (a : Word × Nat) x => let m := cAbs2 (x.1.headD (fZero, fZero)); if fLt a.1 m then (m, x.2 + 1) else a)
      (cAbs2 (r.headD (fZero, fZero)), 0)
    let p := (r :: rs).getD big.2 []
    let others := ((r :: rs).zipIdx.filter (fun x => x.2 ≠ big.2)).map (·.1)
    let h := p.headD (fOne, fZero)
    let xs := cSolve k (others.map (fun o => let f := cNeg (cDiv (o.headD (fZero, fZero)) h)
      List.zipWith (fun a b => cAdd b (cMul f a)) p.tail o.tail))
    cDiv (cAdd (p.getLastD (fZero, fZero)) (cNeg (cDotC p.tail.dropLast xs))) h :: xs
  | _, _ => []

/-! Hermitian matrices by cyclic Jacobi (R175, step 2). -/

/-- Columns of a Hermitian matrix, and the eigenvectors accumulated. -/
structure Herm where
  g : List (List (Word × Word))
  v : List (List (Word × Word))
def hEnt (m : List (List (Word × Word))) (i j : Nat) : Word × Word := (m.getD j []).getD i (fZero, fZero)
/-- Rotate two columns: x := c x - s conj(u) y, y := s u x + c y, for a unit number u. -/
def cRotPair (r u : Word × Word) (x y : List (Word × Word)) : List (Word × Word) × List (Word × Word) :=
  let sc (k : Word) (a : Word × Word) : Word × Word := (fMul k a.1, fMul k a.2)
  (List.zipWith (fun a b => cAdd (sc r.1 a) (cNeg (sc r.2 (cMul (cConj u) b)))) x y,
   List.zipWith (fun a b => cAdd (sc r.2 (cMul u a)) (sc r.1 b)) x y)
def cRowsOf (n : Nat) (m : List (List (Word × Word))) : List (List (Word × Word)) := (List.range n).map (fun i => m.map (fun c => c.getD i (fZero, fZero)))
def hermRotate (n : Nat) (h : Herm) (e : Nat × Nat) : Herm :=
  let w := hEnt h.g e.1 e.2
  let m := cMag w
  if fIsZero m then h
  else
    let u := (fDiv w.1 m, fDiv w.2 m)
    let r := jacRot (hEnt h.g e.1 e.1).1 (hEnt h.g e.2 e.2).1 m
    let two (u : Word × Word) (l : List (List (Word × Word))) : List (List (Word × Word)) :=
      let p := cRotPair r u (l.getD e.1 []) (l.getD e.2 [])
      lset (lset l e.1 p.1) e.2 p.2
    ⟨cRowsOf n (two (cConj u) (cRowsOf n (two u h.g))), two u h.v⟩
/-- The largest eigenvalue with its eigenvector, the lowest index on a tie, after `k` sweeps. -/
def hermTop (k : Nat) (g : List (List (Word × Word))) : Word × List (Word × Word) :=
  let n := g.length
  let h := times k (fun x => (pairsUpTo n).foldl (hermRotate n) x)
    ⟨g, (List.range n).map (fun i => (vUnitAt n i).map cReal)⟩
  (List.range n).foldl (fun (a : Word × List (Word × Word)) i =>
    let v := (hEnt h.g i i).1
    if fLt a.1 v then (v, h.v.getD i []) else a) (fNeg (fInf false), [])

end Sys2Proof.Machine
end

