-- ==== Sys2Proof/Machine/Spectrum.lean ====
section
/-!
DEFINITION. Windows, demodulation at each sample's own instant, and peaks (spec/04, R146, R147; spec/05, R175, R182; spec/09, R287). The rules
name the windows and the methods; the order of operations within a formula is the model's (DESIGN CHOICE, log entry 38).
-/
namespace Sys2Proof.Machine

def fHalf : Word := 0x3F000000#32
def fSqrt2 : Word := fSqrt (fOfNat 2)
/-- cos and sin of `n / den` turns. -/
def cisTurn (n : Int) (den : Nat) : Word × Word :=
  let a := fMul fTwoPi (ofRat (n % (den : Int)) den)
  (fCos a, fSin a)
def turnCos (n : Int) (den : Nat) : Word := (cisTurn n den).1

/-! Windows. `x / len` is the place of a sample, from -1 at a window's start to 1 at its end where it is centred, from 0 to 1 elsewhere. -/

/-- Triangular, of half length `h`, at a distance from its centre. -/
def wTriangular (h x : Nat) : Word := ofRat ((h : Int) - x) h
/-- Hamming. -/
def wHamming (h x : Nat) : Word := fFma (ofRat 46 100) (turnCos x (2 * h)) (ofRat 54 100)
/-- Hann over `n` places. -/
def wHann (n i : Nat) : Word := fFma (fNeg fHalf) (turnCos i n) fHalf
/-- 4-term Blackman-Harris. -/
def wBlackmanHarris (len x : Nat) : Word :=
  let t (k : Nat) (c : Int) : Word := fMul (ofRat c 100000) (turnCos (k * x) len)
  fSub (fAdd (fSub (ofRat 35875 100000) (t 1 48829)) (t 2 14128)) (t 3 1168)

/-! Demodulation. A windowed sample is its instant, its weight and its value. -/

/-- The sum of `weight * value * exp(-j 2 pi f tau)`, `f` in units of 1/`den` Hz. -/
def demod (f den : Nat) (l : List (Nat × Word × Word)) : Word × Word :=
  let ps := l.map (fun s => let z := cisTurn ((f * s.1 : Nat) : Int) (den * Time.secU); (fMul s.2.1 z.1, fNeg (fMul s.2.1 z.2), s.2.2))
  (sum16 (ps.map (fun p => (some p.1, p.2.2))), sum16 (ps.map (fun p => (some p.2.1, p.2.2))))
/-- The RMS phasor of a demodulated sum: times the square root of 2, divided by the sum of the weights. -/
def rmsPhasor (l : List (Nat × Word × Word)) (z : Word × Word) : Word × Word :=
  let w := sum16 (l.map (fun s => (none, s.2.1)))
  (fDiv (fMul fSqrt2 z.1) w, fDiv (fMul fSqrt2 z.2) w)
/-- Samples of a window centred on `t`, with their weights. -/
def windowed (w : Nat → Nat → Word) (h t : Nat) (l : List (Nat × Word)) : List (Nat × Word × Word) :=
  (l.filter (fun s => decide (t ≤ s.1 + h ∧ s.1 < t + h))).map (fun s => (s.1, w h (if s.1 < t then t - s.1 else s.1 - t), s.2))
/-- The window of a class (Table 4.7). -/
def pmWindow (m : Bool) : Nat → Nat → Word := if m then wHamming else wTriangular

/-- The gain of a window at an offset of `df` Hz from the demodulating frequency. -/
def windowGain (t : Nat) (df : Word) (l : List (Nat × Word × Word)) : Word :=
  let off (x : Nat) : Word := ofRat ((x : Int) - t) Time.secU
  fDiv (sum16 (l.map (fun s => (some s.2.1, fCos (fMul (fMul fTwoPi df) (off s.1)))))) (sum16 (l.map (fun s => (none, s.2.1))))
/-- A channel's phasor (R146): class, half length, nominal frequency, the measurement instant, the frequency deviation and the samples. -/
def pmuPhasor (m : Bool) (h nom t : Nat) (df : Word) (l : List (Nat × Word)) : Word × Word :=
  let ws := windowed (pmWindow m) h t l
  let z := rmsPhasor ws (demod nom 1 ws)
  let g := windowGain t df ws
  (fDiv z.1 g, fDiv z.2 g)
/-- Frequency deviation and ROCOF (R147) from the phases of three sub-windows 1/(8 x nominal) apart: `pos` makes one phasor of the channels'. -/
def pmuFreq (m : Bool) (h nom t : Nat) (pos : List (Word × Word) → Word × Word) (ls : List (List (Nat × Word))) : Word × Word :=
  let step := Time.secU / (8 * nom)
  let at_ (c : Nat) : Word × Word := pos (ls.map (fun l => demod nom 1 (windowed (pmWindow m) (h - step) c l)))
  let a := at_ (t - step)
  let b := at_ t
  let c := at_ (t + step)
  let r := fOfNat (8 * nom)
  let turn (x : Word) : Word := fDiv x fTwoPi
  (fMul (turn (cAngDiff c a)) (fOfNat (4 * nom)), fMul (fMul (turn (fSub (cAngDiff c b) (cAngDiff b a))) r) r)
/-- A phasor over one cycle of samples (R287). -/
def cycleDft (nom : Nat) (l : List (Nat × Word)) : Word × Word :=
  let ws := l.map (fun s => (s.1, fOne, s.2))
  rmsPhasor ws (demod nom 1 ws)

/-! Peaks. -/

/-- The offset, in bins, of the peak of a parabola through three neighbours. -/
def parabola (l c r : Word) : Word := fDiv (fMul fHalf (fSub l r)) (fAdd (fSub l (fMul (fOfNat 2) c)) r)
/-- The largest of a list, the first on a tie. -/
def peakOf {α : Type} (f : α → Word) (l : List α) : Option α :=
  l.foldl (fun (a : Option α) x => match a with
    | some y => if fLt (f y) (f x) then some x else a
    | none => some x) none
/-- The median of a list. -/
def median (l : List Word) : Word :=
  let s := sortBy (fun a b => fLe a b) l
  let n := s.length
  if n % 2 = 1 then wd s (n / 2) else fMul fHalf (fAdd (wd s (n / 2 - 1)) (wd s (n / 2)))

end Sys2Proof.Machine
end

