-- ==== Sys2Proof/Machine/Waveform.lean ====
section
/-!
DEFINITION. The sample store (R79, R271) and the kernels that read it: VPMU and LPMU (spec/04, R144 to R148) and SSODET (spec/05, R181 to
R183).
-/
namespace Sys2Proof.Machine

/-! The sample store. -/

/-- The ring of a local channel stands beside the stream rings. -/
def localRing (ch : Nat) : Nat := 1048576 + ch
def Device.ring (d : Device) (k : Nat) : List Sample := mgetD d.ing.rings k []
/-- Channels of a stream entry. -/
def stNch (e : List Word) : Nat := bx (wd e 1) 4 0
def svRate (s : List Word) : Nat := [4000, 4800, 14400].getD (bx (wd s 3) 15 14) 4000
/-- The number of a stream's sample: whole sample periods since the epoch. -/
def sampleNo (rate : Nat) (t : Time) : Nat := (t * rate + Time.secU / 2) / Time.secU
/-- For each instant the later-written sample of a local ring stands (R277): a sample whose tag a later one has stepped back to is gone. -/
def laterWritten (l : List Sample) : List Sample :=
  (l.foldr (fun s (a : List Sample × Option Time) => match a.2 with
    | some t => if s.tAt < t then (s :: a.1, some s.tAt) else a
    | none => ([s], some s.tAt)) ([], none)).1
/-- Samples whose arrival time precedes an instant (R444). -/
def arrivedBefore (by_ : Time) (l : List Sample) : List Sample := l.filter (fun s => decide (s.arr < by_))
/-- Samples with instants from `a` up to, not including, `b`. -/
def inWindow (a b : Time) (l : List Sample) : List Sample := l.filter (fun s => decide (a ≤ s.tAt ∧ s.tAt < b))
/-- A stream's window holds every sample. -/
def svComplete (rate : Nat) (a b : Time) (w : List Sample) : Bool :=
  let lo := (a * rate + Time.secU - 1) / Time.secU
  let hi := (b * rate + Time.secU - 1) / Time.secU
  (List.range (hi - lo)).all (fun i => w.any (fun s => sampleNo rate s.tAt = lo + i))
/-- No two neighbours are further apart than one and a half periods. -/
def gapless (per : Time) (w : List Sample) : Bool := (w.zip (w.drop 1)).all (fun x => decide (2 * x.2.tAt ≤ 2 * x.1.tAt + 3 * per))
/-- The window from `a` to `b` of a local ring holds every sample of a strobe every `per`. A strobe drifts against device time (R270), so that the
sample beside an end of the window decides whether one is missing there; where there is none, the period does. -/
def localComplete (per a b : Time) (l : List Sample) : Bool :=
  let w := inWindow a b l
  match w.head?, w.getLast? with
  | some x, some y =>
    gapless per w &&
      (decide (x.tAt < a + per) || ((l.filter (fun s => decide (s.tAt < a))).getLast?.map (fun s => gapless per [s, x])).getD false) &&
      (decide (b ≤ y.tAt + per) || ((l.find? (fun s => decide (b ≤ s.tAt))).map (fun s => gapless per [y, s])).getD false)
  | _, _ => false
/-- A channel's samples of a window as (instant, value). -/
def chanOf (c : Nat) (w : List Sample) : List (Nat × Word) := w.map (fun s => (s.tAt, wd s.vals c))
def chanBad (c : Nat) (w : List Sample) : Bool := w.any (fun s => s.bad.testBit c)

/-! VPMU and LPMU. -/

def pmNph (p : List Word) : Nat := bx (wd p 1) 31 27
def pmTrip (p : List Word) : Nat := bx (wd p 1) 26 24
def pmLane (p : List Word) : Nat := bx (wd p 1) 13 0
def pmMask (p : List Word) : Nat := bx (wd p 2) 15 0
def pmM (p : List Word) : Bool := bit (wd p 0) 31
def pmPos (p : List Word) : Bool := bit (wd p 0) 30
def pmFrq (p : List Word) : Nat := bx (wd p 0) 27 24
/-- The local channel of list position `k` of an LPMU block: 6 bits each, packed from word 2 bit 0 into words 2, 3 and 6. -/
def lpmuCh (p : List Word) (k : Nat) : Nat :=
  ((wd p 2).toNat + (wd p 3).toNat * 2 ^ 32 + (wd p 6).toNat * 2 ^ 64) / 2 ^ (6 * k) % 64
/-- The channels of triplet `t`. -/
def pmTriplet (p : List Word) (t : Nat) : List Nat :=
  let w := wd p (4 + t / 2)
  let o := 12 * (t % 2)
  (List.range 3).map (fun k => bx w (o + 4 * k + 3) (o + 4 * k))
/-- Half the window (Table 4.7). -/
def pmHalf (m : Bool) (nom rate : Nat) : Time := if m then max (Time.secU / nom) (2 * Time.secU / rate) else Time.secU / nom

/-- A channel's window: its samples, and whether each is there, valid, synchronised and settled. -/
structure PmChan where
  samples : List (Nat × Word)
  full : Bool
  valid : Bool
  sync : Bool
  unset : Bool
  auth : Bool
  deriving DecidableEq, Repr
/-- The mark of a sample whose PDU failed authentication (R74), beside the marks of invalid channels. -/
def sAUTH : Nat := 17
/-- Channel or list position `k` of an instance's window at lap time `t`, from the samples that arrived before `by_`. A
channel the stream does not carry lacks its samples. -/
def Device.pmChan (d : Device) (vpmu : Bool) (p : List Word) (nom rate : Nat) (t by_ : Time) (k : Nat) : PmChan :=
  let h := pmHalf (pmM p) nom rate
  if vpmu then
    let st := bx (wd p 0) 17 0
    let keep := leAuth (d.laneE (pmLane p)) = 1
    let w := inWindow (t - h) (t + h) ((arrivedBefore by_ (d.ring st)).filter (fun s => keep || !s.bad.testBit sAUTH))
    ⟨chanOf k w, decide (k < stNch (d.ent tSignal st)) && svComplete (svRate (d.ent tSignal st)) (t - h) (t + h) w, !chanBad k w, !w.any (·.unsync), false, w.any (fun s => s.bad.testBit sAUTH)⟩
  else
    let l := laterWritten (arrivedBefore by_ (d.ring (localRing (lpmuCh p k))))
    let w := inWindow (t - h) (t + h) l
    ⟨chanOf 0 w, localComplete (100 * Time.usU) (t - h) (t + h) l, !chanBad 0 w, true, w.any (·.unsync), false⟩

/-- A VPMU or LPMU run: the lane and its records, VALID, and the channels whose windows lack samples. -/
structure PmuRun where
  lane : Nat
  recs : List (List Word)
  valid : Bool
  gaps : Nat
  deriving DecidableEq, Repr

/-- A run for lap `n` at the scheduled instant `by_` (R144 to R148). -/
def Device.pmuRun (d : Device) (vpmu : Bool) (p : List Word) (h n : Nat) (by_ : Time) : PmuRun :=
  let nom := if heNom60 (d.heatE h) then 60 else 50
  let rate := d.rate h
  let t := d.lapT h n
  let m := pmM p
  let ch (k : Nat) : PmChan := d.pmChan vpmu p nom rate t by_ k
  let used := if vpmu then (List.range 16).filter (fun c => (pmMask p).testBit c) else List.range (pmNph p)
  let trips := (List.range (pmTrip p)).map (pmTriplet p)
  let src := if pmPos p then pmTriplet p 0 else [pmFrq p]
  let ok (c : PmChan) : Bool := c.full && c.valid
  let valid := src.all (fun k => ok (ch k))
  let hw := pmHalf m nom rate
  let one (l : List (Word × Word)) : Word × Word := match l with
    | [a, b, c] => seqComp oneK alphaK alpha2K a b c
    | _ => l.headD (fNaN, fNaN)
  let fr := if valid then pmuFreq m hw nom t one (src.map (fun k => (ch k).samples)) else (fNaN, fNaN)
  let ph (k : Nat) : Word × Word := if ok (ch k) then pmuPhasor m hw nom t fr.1 (ch k).samples else (fNaN, fNaN)
  let pos (l : List Nat) : Word × Word :=
    if l.all (fun k => ok (ch k)) then seqComp oneK alphaK alpha2K (ph (l.getD 0 0)) (ph (l.getD 1 0)) (ph (l.getD 2 0)) else (fNaN, fNaN)
  let all := (used ++ trips.flatten ++ src).eraseDups
  let sync := d.fb TK_STAT.SYNC && all.all (fun k => (ch k).sync)
  let lane := pmLane p
  let q := qbit valid 15 + qbit sync 14 + d.f TK_STAT.TQ * 1024 + qbit (all.any (fun k => (ch k).unset)) 6 + qbit (all.any (fun k => (ch k).auth)) 5
  ⟨lane, d.mkRecs lane n q (if vpmu then 9 else 8) (arrOfs d.now t) ⟨fr.1, fr.2, used.map ph ++ trips.map pos, [], []⟩, valid,
   ((all.filter (fun k => !(ch k).full)).map (fun k => 2 ^ k)).sum⟩

/-! SSODET. -/

def ssNch (p : List Word) : Nat := bx (wd p 0) 6 0
def ssWait (p : List Word) : Nat := bx (wd p 1) 23 0
def ssFloor (p : List Word) : Word := wd p 2
/-- Decimation by `k` to 400 samples a second: the linear-phase filter over 5 ms on both sides of a sample (R181). -/
def ssoDecim (k : Nat) (l : List Word) : Word := sum16 (l.zipIdx.map (fun x => (some (Config.ssoTaps k x.2), x.1)))
/-- The ring of a local channel's decimated samples. -/
def ssoRing (ch : Nat) : Nat := 2097152 + ch
/-- A sample has come into a local channel's ring: the decimated sample 5 ms before it, when 25 have passed since the one before; none across a
gap. The sample from which 25 are counted first is the model's choice (log entry 38). -/
def Device.ssoFeed (d : Device) (c : Nat) : Device :=
  let raw := (laterWritten (d.ring (localRing c))).reverse.take 101
  let old := d.ring (ssoRing c)
  match raw[50]?, raw.getLast?, raw.head? with
  | some m, some a, some b =>
    let due := match old.getLast? with
      | some o => decide (25 ≤ ((raw.drop 50).takeWhile (fun s => decide (o.tAt < s.tAt))).length) || decide (m.tAt ≤ o.tAt)
      | none => true
    if due && decide (raw.length = 101) && decide (a.tAt < b.tAt) && gapless (100 * Time.usU) raw.reverse then
      let s : Sample := ⟨m.tAt, m.cnt, [ssoDecim 25 (raw.reverse.map (fun x => wd x.vals 0))], b2n (chanBad 0 raw), raw.any (·.unsync), b.arr⟩
      { d with ing := { d.ing with rings := mset d.ing.rings (ssoRing c) ((old ++ [s]).drop (old.length - 1023)) } }
    else d
  | _, _, _ => d
/-- The decimated samples of a local channel. -/
def Device.ssoLocal (d : Device) (ch : Nat) (by_ : Time) : List Sample := laterWritten (arrivedBefore by_ (d.ring (ssoRing ch)))
/-- A channel's decimated samples for the window of 2 s that ends at `t`, where they are all there and valid: of a stream, every sample that a filter
of one of the 800 takes in. -/
def Device.ssoChan (d : Device) (p : List Word) (t by_ : Time) (c : Nat) : Option (List (Nat × Word)) :=
  let w := wd p (4 + c)
  let a := t - 2 * Time.secU
  let ch := bx w 5 0
  if bit w 31 then
    let l := d.ssoLocal ch by_
    let s := inWindow a t l
    if localComplete (2500 * Time.usU) a t l && !chanBad 0 s then some (chanOf 0 s) else none
  else
    let st := bx w 23 6
    let rate := svRate (d.ent tSignal st)
    let k := rate / 400
    let first := (a * 400 + Time.secU - 1) / Time.secU
    let count := (t * 400 + Time.secU - 1) / Time.secU - first
    let lo := first * k - 2 * k
    let need := (count + 3) * k + 1
    let l := (arrivedBefore by_ (d.ring st)).filter (fun s => decide (lo ≤ sampleNo rate s.tAt ∧ sampleNo rate s.tAt < lo + need))
    if (List.range need).all (fun i => l.any (fun s => sampleNo rate s.tAt = lo + i)) && !chanBad ch l then
      let val (n : Nat) : Word := match l.find? (fun s => decide (sampleNo rate s.tAt = n)) with | some s => wd s.vals ch | none => fNaN
      some ((List.range count).map (fun i =>
        ((first + i) * Time.secU / 400, ssoDecim k ((List.range (4 * k + 1)).map (fun j => val ((first + i) * k + j - 2 * k))))))
    else none
/-- An included local channel holds a sample with UNSETTLED. -/
def Device.ssoUnset (d : Device) (p : List Word) (t by_ : Time) : Bool :=
  (List.range (ssNch p)).any (fun c =>
    let w := wd p (4 + c)
    bit w 31 && (d.ssoChan p t by_ c).isSome && (inWindow (t - 2 * Time.secU) t (d.ssoLocal (bx w 5 0) by_)).any (·.unsync))
/-- The spectrum of a channel (R182): F_SSO, AMP and the fundamental's amplitude. Bins are half hertz. Amplitudes are those of the largest bins
(DESIGN CHOICE, log entry 38). -/
def ssoScan (nom t : Nat) (l : List (Nat × Word)) : Word × Word × Word :=
  let a := t - 2 * Time.secU
  let ws := l.map (fun s => (s.1, wBlackmanHarris (2 * Time.secU) (s.1 - a), s.2))
  let amp (b : Nat) : Word := cMag (rmsPhasor ws (demod b 2 ws))
  let at_ (b : Nat) : Word := fDiv (fAdd (fOfNat b) (parabola (fLn (amp (b - 1))) (fLn (amp b)) (fLn (amp (b + 1))))) (fOfNat 2)
  let f0 := (peakOf amp ((List.range 21).map (· + (2 * nom - 10)))).getD (2 * nom)
  let far (b : Nat) : Bool := fLt (ofRat 5 2) (fAbs (fSub (fDiv (fOfNat b) (fOfNat 2)) (at_ f0)))
  match peakOf amp (((List.range 81).map (· + 10)).filter far) with
  | some b => (at_ b, amp b, amp f0)
  | none => (fNaN, fNaN, amp f0)
/-- 20 log10(a / b). -/
def dB20 (a b : Word) : Word := fMul (fOfNat 20) (fLog10 (fDiv a b))
/-- A channel's four values and its AMP. -/
def ssoVals (nom t : Nat) (flr : Word) (prev : Option Word) (s : Option (List (Nat × Word))) : List Word × Word :=
  match s with
  | none => (List.replicate 4 fNaN, fNaN)
  | some l =>
    let r := ssoScan nom t l
    let rel := fDiv r.2.1 r.2.2
    let low := fLt rel flr
    ([if low then fNaN else r.1, r.2.1, rel, if low then fNaN else match prev with | some a => dB20 r.2.1 a | none => fNaN], r.2.1)
/-- An SSODET run: its values, the channels that lack samples, and the history passed on: AMP by channel of the runs of the last second, newest
first. Missing laps stand in it without values. -/
def Device.ssoRun (d : Device) (p : List Word) (h n gap : Nat) (by_ : Time) (hist : Option KState) : List Word × List Nat × KState :=
  let nom := if heNom60 (d.heatE h) then 60 else 50
  let t := d.lapT h n
  let nch := ssNch p
  let old := List.replicate gap (List.replicate nch fNaN) ++ (match hist with | some (.sso l) => l | _ => [])
  let prev := old[d.rate h - 1]?
  let ss := (List.range nch).map (d.ssoChan p t by_)
  let vs := ss.zipIdx.map (fun s => ssoVals nom t (ssFloor p) (prev.map (fun l => wd l s.2)) s.1)
  (vs.flatMap (·.1), ss.zipIdx.filterMap (fun s => if s.1.isNone then some s.2 else none),
   .sso ((vs.map (·.2) :: old).take (d.rate h)))

end Sys2Proof.Machine
end

