-- ==== Sys2Proof/Machine/Acq.lean ====
section
/-!
DEFINITION. The capture unit (spec/09, R282 to R291): groups, slots, triggers, masks, blocks and records.
-/
namespace Sys2Proof.Machine

def grpInit : CapGrp := ⟨.idle, 0, [], 0, 0, [], [], 0, 0, 0, 0, 0, false, false, false, none⟩
def Device.capGrp (d : Device) (g : Nat) : CapGrp := mgetD d.acq.grps g grpInit
def Device.setAcq (d : Device) (a : Acq) : Device := { d with acq := a }
def grpCode (s : GrpState) : Nat := match s with | .idle => 0 | .armed => 1 | .triggered => 2 | .stopping => 3 | .full => 4
/-- A record is being written. -/
def GrpState.recording (s : GrpState) : Bool := s = .triggered || s = .stopping
/-- Store a group and what ACQ_GRP_CTL and ACQ_GRP_STAT show of it. -/
def Device.setGrp (d : Device) (g : Nat) (x : CapGrp) : Device :=
  ((((d.setAcq { d.acq with grps := mset d.acq.grps g x }).setf ACQ_GRP_STAT.STATE (grpCode x.st) g).setf ACQ_GRP_STAT.CUR_SLOT x.slot g).setf
    ACQ_GRP_STAT.DONE (x.done.map (2 ^ ·)).sum g).setf ACQ_GRP_CTL.ARM (b2n (decide (x.st ≠ .idle))) g

/-! The tables (Tables 9.5 to 9.8). -/

def Device.gE (d : Device) (g : Nat) : List Word := d.ent tCapGroup g
def geEn (e : List Word) : Bool := bit (wd e 0) 31
def geBase (e : List Word) : Nat := bx (wd e 0) 26 16
def geNch (e : List Word) : Nat := bx (wd e 0) 8 0
def gePre (e : List Word) : Time := bx (wd e 1) 31 16 * Time.msU
def gePost (e : List Word) : Time := bx (wd e 1) 15 0 * Time.msU
def geMaxPost (e : List Word) : Time := bx (wd e 2) 31 16 * Time.msU
def geMaskPost (e : List Word) : Time := bx (wd e 2) 15 0 * Time.msU
def geSlotKib (e : List Word) : Nat := bx (wd e 3) 31 8
def geNslot (e : List Word) : Nat := bx (wd e 3) 4 0
def geArea (e : List Word) : Nat := bx (wd e 4) 12 0
/-- The capture channels of a group, in list order. -/
def Device.grpChans (d : Device) (g : Nat) : List Nat :=
  (List.range (geNch (d.gE g))).map (fun i => (wd (d.ent tCapList (geBase (d.gE g) + i)) 0).toNat)

def Device.ccE (d : Device) (c : Nat) : List Word := d.ent tCapChan c
def ccEn (e : List Word) : Bool := bit (wd e 0) 31
def ccSv (e : List Word) : Bool := bit (wd e 0) 30
def ccCh (e : List Word) : Nat := bx (wd e 0) 5 0
def ccStream (e : List Word) : Nat := bx (wd e 1) 17 0
def ccSkew (e : List Word) : Int := (wd e 2).toInt
/-- A capture channel's samples a second (R283). -/
def Device.ccRate (d : Device) (c : Nat) : Nat :=
  let e := d.ccE c
  if ccSv e then svRate (d.ent tSignal (ccStream e)) else 80000
/-- Bytes a second of a group (R283). -/
def Device.grpBytes (d : Device) (g : Nat) : Nat := ((d.grpChans g).map (fun c => d.ccRate c * 272 / 64)).sum
/-- CAP_MS (R283). -/
def Device.grpCap (d : Device) (g : Nat) : Nat := (geSlotKib (d.gE g) * 1024 - 4096) * 1000 / max (d.grpBytes g) 1 - 2
/-- A group's area in KiB from the start of the region: its first and the one after its last. -/
def grpArea (e : List Word) : Nat × Nat := (geArea e * 1024, geArea e * 1024 + geNslot e * geSlotKib e)
/-- The area leaves the region, or overlaps the area of another group in use (R283). -/
def Device.areaBad (d : Device) (g : Nat) : Bool :=
  let a := grpArea (d.gE g)
  decide (a.2 > d.f ACQ_DDR.SIZE * 1048576) ||
  (List.range 8).any (fun x => decide (x ≠ g) && geEn (d.gE x) && decide ((grpArea (d.gE x)).1 < a.2) && decide (a.1 < (grpArea (d.gE x)).2))
/-- DDR5 address of a slot (R290). -/
def Device.slotBase (d : Device) (g slot : Nat) : Nat :=
  d.f ACQ_DDR.BASE * 1073741824 + geArea (d.gE g) * 1048576 + slot * geSlotKib (d.gE g) * 1024
/-- Blocks a slot holds behind its header area. -/
def geRing (e : List Word) : Nat := (geSlotKib e * 1024 - 4096) / 272

/-- An ACQ write is ignored (Table 9.19). -/
def acqErr (code : Nat) (d : Device) : Device := d.err ACQ_STAT.ERR ACQ_STAT.ECODE code
/-- Free slots: neither DONE nor being written. -/
def Device.grpFree (d : Device) (g : Nat) : List Nat :=
  let x := d.capGrp g
  (List.range (geNslot (d.gE g))).filter (fun s => !x.done.contains s && !(decide (x.st ≠ .idle ∧ x.st ≠ .full) && x.slot == s))
/-- The next free slot in ascending order after `s`, wrapping. -/
def Device.grpNext (d : Device) (g s : Nat) : Option Nat :=
  let l := d.grpFree g
  match l.filter (fun t => decide (s < t)) with
  | t :: _ => some t
  | [] => l.head?

/-! Writing (R289, R291). -/

/-- ACQ_BW.RATE: bytes written in the last millisecond, in MB/s. -/
def Device.acqRate (d : Device) : Nat :=
  ((d.acq.wrote.filter (fun w => decide (d.tk.now < w.1 + Time.msU))).map (·.2)).sum / 1000
/-- A write of the capture unit to DDR5. -/
def acqWrite (a : Nat) (b : List Byte) (d : Device) : Device :=
  let d1 := d.ddrWrite a b
  let d2 := d1.setAcq { d1.acq with wrote := (d1.acq.wrote.filter (fun w => decide (d.tk.now < w.1 + Time.msU))) ++ [(d.tk.now, b.length)] }
  d2.hwm ACQ_BW.HWM (min d2.acqRate 65535)

/-- A sample word of a capture block, or none where the byte at `a` is of another part of the region: the block's address. -/
def Device.capWordAt (d : Device) (g a : Nat) : Option Nat :=
  let e := d.gE g
  let base := d.slotBase g 0
  let slot := geSlotKib e * 1024
  let o := (a - base) % max slot 1 - 4096
  let q := a - o % 272
  let w := o % 272 / 4
  if geEn e && decide (base ≤ a ∧ a < base + geNslot e * slot ∧ 4096 ≤ (a - base) % max slot 1 ∧ o < geRing e * 272 ∧ 4 ≤ w) &&
      decide (w < 4 + (ddrGet d.ddr q).toNat % 128) then some q else none
/-- An uncorrectable burst of the capture region: its samples are stored as NaN, and their blocks have INV set (R459). -/
def capBurst (burst : Nat) (d : Device) : Device :=
  (List.range 8).foldl (fun x g => (List.range 16).foldl (fun y i =>
    match d.capWordAt g (burst * 64 + 4 * i) with
    | some q => (y.ddrWrite (burst * 64 + 4 * i) (le32 fNaN)).ddrWrite (q + 2) [ddrGet y.ddr (q + 2) ||| 64#8]
    | none => y) x) d

/-- A time tag as seconds and nanoseconds. -/
def tagWords (t : Time) : List Word := [w32 (Time.secOf t), w32 (Time.nsOf t)]
/-- A capture block of samples, oldest first (Table 9.10). -/
def capBlock (gch : Nat) (l : List CapS) : List Word :=
  let a := (l.head?.map (·.tAt)).getD 0
  let b := (l.getLast?.map (·.tAt)).getD 0
  [w32 (gch * 16777216 + qbit (l.any (·.unset)) 23 + qbit (l.any (·.inv)) 22 + qbit ((l.head?.map (·.gap)).getD false) 21 + l.length)] ++
  tagWords a ++ [w32 ((b - a) / Time.nsU)] ++ l.map (fun s => if s.inv then fNaN else s.val) ++ List.replicate (64 - l.length) 0#32

/-- The record header (Table 9.9) of group `g`, with TRUNC and ABORT. -/
def Device.recHeader (d : Device) (g : Nat) (trunc abort : Bool) : List Word :=
  let x := d.capGrp g
  let s := (x.blocks.map (·.first)).foldl min ((x.blocks.head?.map (·.first)).getD x.start)
  let e := (x.blocks.map (·.last)).foldl max 0
  [w32 (qbit x.short 31 + qbit trunc 30 + qbit x.cont 29 + qbit x.maskStop 28 + qbit abort 27 + x.slot * 65536 + g * 8192),
   w32 (min x.retrig 255 * 16777216 + x.cause), w32 d.acq.seq] ++ tagWords x.trigAt ++ tagWords s ++ tagWords e ++
  [w32 x.blocks.length, w32 (geNch (d.gE g)), 0#32, 0#32, 0#32, 0#32, 0#32]
/-- The header area: the header, the capture channel indices, zeros. -/
def Device.headerArea (d : Device) (g : Nat) (hdr : List Word) : List Byte :=
  let b := leBytes hdr ++ (d.grpChans g).flatMap (fun c => leBytes [w32 c] |>.take 2)
  b ++ List.replicate (4096 - b.length) 0#8
/-- A record completes, in the order of R290. The group keeps its state. -/
def recFinish (g : Nat) (trunc abort : Bool) (d : Device) : Device :=
  let x := d.capGrp g
  let hdr := d.recHeader g trunc abort
  let d1 := acqWrite (d.slotBase g x.slot) (d.headerArea g hdr) d
  let d2 := (d1.setGrp g { x with done := x.slot :: x.done }).count ACQ_RECORDS
  let d3 := if x.short then d2.count ACQ_PRE_SHORT else d2
  let d4 := d3.raise EV_ACQ_DONE [g, x.slot, d.acq.seq, bx (wd hdr 0) 31 27]
  let d5 := d4.setAcq { d4.acq with seq := (d4.acq.seq + 1) % 4294967296 }
  match d5.sfPush 2 ⟨false, 0, leBytes hdr⟩ with
  | some r => r
  | none => d5.count ACQ_SUM_DROP

/-- ARMED into a slot, its ring empty. -/
def capArm (g slot : Nat) (d : Device) : Device :=
  d.setGrp g { d.capGrp g with st := .armed, slot := slot, wpos := 0, blocks := [], cur := [], short := false, cont := false, maskStop := false, retrig := 0 }
/-- After a record (R284): ARMED into the next free slot, FULL, or IDLE. -/
def capNext (g : Nat) (d : Device) : Device :=
  if d.fb ACQ_GRP_CTL.AUTO g then
    match d.grpNext g (d.capGrp g).slot with
    | some s => capArm g s d
    | none => d.setGrp g { d.capGrp g with st := .full, blocks := [], cur := [] }
  else d.setGrp g { d.capGrp g with st := .idle, blocks := [], cur := [] }
/-- A record whose next block would overwrite its own first one (R286): it ends, and may go on in a free slot. -/
def capTruncate (g : Nat) (d : Device) : Device :=
  let x := d.capGrp g
  let d1 := (recFinish g true false d).count ACQ_TRUNC
  match (if d1.fb ACQ_GRP_CTL.AUTO g then d1.grpNext g x.slot else none) with
  | some s => d1.setGrp g { d1.capGrp g with slot := s, wpos := 0, blocks := [], cont := true, cause := 0x300, short := false, retrig := 0 }
  | none => capNext g d1
/-- The place of a sample in the on-chip buffer, as memory integrity names it. -/
def capLoc (g gch : Nat) (s : CapS) : Nat := s.tAt * 16384 + gch * 8 + g
/-- The samples of a block as they are read from the on-chip buffer: one that is lost is stored as NaN with INV (Table 17.1, 0x06). -/
def Device.capRead (d : Device) (g gch : Nat) (l : List CapS) : List CapS :=
  if d.mem.bad.isEmpty then l
  else l.map (fun s => if (mgetD d.mem.bad (badKey 6 (capLoc g gch s)) ⟨0, false⟩).kind = 2 then { s with val := fNaN, inv := true } else s)
/-- Put a completed block (samples oldest first) into the group's slot (R284, R286, R289). -/
def capPut (g gch : Nat) (l0 : List CapS) (d0 : Device) : Device :=
  let l := d0.capRead g gch l0
  let d := l0.foldl (fun x s => x.noteRead 6 (capLoc g gch s)) d0
  let n := geRing (d.gE g)
  let d1 := if (d.capGrp g).st.recording && decide ((d.capGrp g).blocks.length ≥ n) then capTruncate g d else d
  let x := d1.capGrp g
  if x.st.recording || x.st = .armed then
    let d2 := acqWrite (d1.slotBase g x.slot + 4096 + 272 * x.wpos) (leBytes (capBlock gch l)) d1
    let bs := if x.blocks.length ≥ n then x.blocks.tail else x.blocks
    let b : CapBlock := ⟨(l.head?.map (·.tAt)).getD 0, (l.getLast?.map (·.tAt)).getD 0⟩
    let d3 := (d2.setGrp g { x with wpos := (x.wpos + 1) % max n 1, blocks := bs ++ [b] }).count ACQ_BLOCKS
    if (l.head?.map (·.gap)).getD false then d3.count ACQ_SRC_GAP else d3
  else d1
/-- Complete the open block of a channel, if it has samples. -/
def capFlush (g gch : Nat) (d : Device) : Device :=
  match mgetD (d.capGrp g).cur gch [] with
  | [] => d
  | l => capPut g gch l.reverse (d.setGrp g { d.capGrp g with cur := mdel (d.capGrp g).cur gch })
/-- Complete every open block: the record's end. -/
def capFlushAll (g : Nat) (d : Device) : Device := ((d.capGrp g).cur.map (·.1)).foldl (fun x c => capFlush g c x) d
/-- A sample of the group's channel `gch`: its block completes at 64 samples and at a gap. -/
def capSample (g gch : Nat) (s : CapS) (d : Device) : Device :=
  let d1 := if s.gap then capFlush g gch d else d
  let x := d1.capGrp g
  if x.st = .idle || x.st = .full then d1
  else
    let l := s :: mgetD x.cur gch []
    let d2 := d1.setGrp g { x with cur := mset x.cur gch l }
    if l.length ≥ 64 then capFlush g gch d2 else d2

/-! Triggers and masks (R284, R285, R287, R288). -/

/-- Start a record at `t`: its blocks are those of the ring that reach PRE_MS back. -/
def capStart (g : Nat) (t stop : Time) (st : GrpState) (cause : Nat) (isMask : Bool) (d : Device) : Device :=
  let x := d.capGrp g
  let a := t - gePre (d.gE g)
  let firsts := x.blocks.map (·.first) ++ x.cur.flatMap (fun c => c.2.map (·.tAt))
  d.setGrp g { x with
    st := st, blocks := x.blocks.dropWhile (fun b => decide (b.last < a)), trigAt := t, start := a, stop := stop, cause := cause,
    retrig := 0, short := !firsts.any (fun f => decide (f ≤ a)), cont := false, maskStop := isMask }
/-- A trigger of a group at instant `t` (R284, R285). -/
def capTrigger (g : Nat) (t : Time) (cause : Nat) (d : Device) : Device :=
  let x := d.capGrp g
  let e := d.gE g
  match x.st with
  | .idle => d
  | .stopping => d
  | .full =>
    let d1 := (d.count ACQ_TRIG_LOST).raiseSec x.lostSec EV_ACQ_TRIG_LOST [g, cause]
    d1.setGrp g { d1.capGrp g with lostSec := some d.sec }
  | .armed => (capStart g t (t + gePost e) .triggered cause false d).count ACQ_TRIGGERS
  | .triggered =>
    (d.setGrp g { x with stop := min (max x.stop (t + gePost e)) (x.trigAt + geMaxPost e), retrig := x.retrig + 1 }).count ACQ_RETRIG
/-- A mask violation of a group at instant `t`. -/
def capViolate (g : Nat) (t : Time) (mask : Nat) (d : Device) : Device :=
  let x := d.capGrp g
  let e := d.gE g
  match x.st with
  | .armed => (capStart g t (t + geMaskPost e) .stopping (0x100 + mask) true d).count ACQ_MASK_STOPS
  | .triggered => (d.setGrp g { x with stop := min x.stop (t + geMaskPost e), st := .stopping, maskStop := true }).count ACQ_MASK_STOPS
  | _ => d

def Device.capHist (d : Device) (c : Nat) : List CapS := mgetD d.acq.hist c []
/-- Settled and valid. -/
def CapS.good (s : CapS) : Bool := !s.unset && !s.inv
def trEn (e : List Word) : Bool := bit (wd e 0) 31
def trKind (e : List Word) : Nat := bx (wd e 0) 30 28
def tr60 (e : List Word) : Bool := bit (wd e 0) 27
def trMask (e : List Word) : Nat := bx (wd e 0) 23 16
def trPersist (e : List Word) : Nat := bx (wd e 0) 15 8
/-- The channels a trigger uses. -/
def trChans (e : List Word) : List Nat :=
  if trKind e ≥ 4 then [bx (wd e 1) 8 0, bx (wd e 1) 24 16, bx (wd e 2) 8 0] else [bx (wd e 1) 8 0]
/-- The groups of a GMASK that list these channels and are not IDLE. -/
def Device.grpsOf (d : Device) (gmask : Nat) (chans : List Nat) : List Nat :=
  (List.range 8).filter (fun g => gmask.testBit g && decide ((d.capGrp g).st ≠ .idle) && chans.all (fun c => (d.grpChans g).contains c))
/-- The count after an evaluation, and whether PERSIST is met at it. -/
def persist (old n : Nat) (v : Bool) : Nat × Bool := if v then (min (old + 1) (n + 1), decide (old + 1 = n)) else (0, false)
/-- An evaluation of trigger `t` at an instant gave `v`. -/
def trigEval (t : Nat) (at_ : Time) (v : Bool) (d : Device) : Device :=
  let e := d.ent tTrigger t
  let gs := d.grpsOf (trMask e) (trChans e)
  let r := persist (mgetD d.acq.trig t 0) (trPersist e) (v && !gs.isEmpty)
  let d1 := d.setAcq { d.acq with trig := mset d.acq.trig t r.1 }
  if r.2 then gs.foldl (fun x g => capTrigger g at_ t x) d1 else d1

/-- KIND 0b000 and 0b011 at the newest sample of channel `c`. -/
def Device.sampleTrue (d : Device) (e : List Word) (c : Nat) : Bool :=
  let l := d.capHist c
  match l with
  | [] => false
  | s :: _ =>
    if trKind e = 0 then s.good && fLt (wd e 3) (fAbs s.val)
    else
      let n := bx (wd e 2) 31 16
      match l[n]? with
      | none => false
      | some o => s.good && o.good && fLt (wd e 3) (fDiv (fMul (fAbs (fSub s.val o.val)) (fOfNat (d.ccRate c))) (fOfNat n))
/-- Samples whose capture tags lie in the nominal cycle before `t`, oldest first. -/
def Device.cycleOf (d : Device) (c : Nat) (nom : Nat) (t : Time) : List CapS :=
  ((d.capHist c).filter (fun s => decide (t - Time.secU / nom ≤ s.tAt ∧ s.tAt < t))).reverse
/-- The root mean square of a cycle. -/
def rmsOf (l : List CapS) : Word := fSqrt (fDiv (sum16 (l.map (fun s => (some s.val, s.val)))) (fOfNat l.length))
/-- The other kinds at evaluation instant `t`. -/
def Device.cycleTrue (d : Device) (e : List Word) (t : Time) : Bool :=
  let nom := if tr60 e then 60 else 50
  let ws := (trChans e).map (fun c => d.cycleOf c nom t)
  if !ws.all (fun w => !w.isEmpty && w.all (·.good)) then false
  else
    let thr := wd e 3
    match trKind e with
    | 1 => fLt thr (rmsOf (ws.headD []))
    | 2 => fLt (rmsOf (ws.headD [])) thr
    | k =>
      let ph := ws.map (fun w => cycleDft nom (w.map (fun s => (s.tAt, s.val))))
      let sq (b c : Word × Word) : Word := cMag (seqComp oneK b c (ph.getD 0 (fZero, fZero)) (ph.getD 1 (fZero, fZero)) (ph.getD 2 (fZero, fZero)))
      if k = 4 then fLt thr (sq alpha2K alphaK)
      else if k = 5 then fLt thr (sq oneK oneK)
      else
        -- as SEQCOMP, |V1| = 0 gives NaN, which exceeds nothing
        let v1 := sq alphaK alpha2K
        fLt thr (if fIsZero v1 then fNaN else fDiv (sq alpha2K alphaK) v1)

/-- The sample whose tag is nearest an instant; the earlier of two. -/
def nearestTag (l : List CapS) (t : Time) : Option CapS :=
  l.foldl (fun (a : Option CapS) s => match a with
    | none => some s
    | some b => if (s.tAt - t) + (t - s.tAt) ≤ (b.tAt - t) + (t - b.tAt) then some s else a) none
/-- Mask `m` at the newest sample of its channel (R288). -/
def maskEval (m : Nat) (d : Device) : Device :=
  let e := d.ent tMask m
  let c := bx (wd e 1) 8 0
  match d.capHist c with
  | [] => d
  | s :: rest =>
    let nom := if bit (wd e 0) 30 then 60 else 50
    let cyc := Time.secU / nom
    let gs := (d.grpsOf (trMask e) [c]).filter (fun g => decide ((d.capGrp g).since + cyc ≤ s.tAt))
    let w := d.cycleOf c nom s.tAt
    let settled := !w.isEmpty && w.all (·.good)
    let v := match nearestTag rest (s.tAt - cyc) with
      | some r => s.good && r.good && settled && fLt (fAdd (wd e 2) (fMul (wd e 3) (fAbs r.val))) (fAbs (fSub s.val r.val))
      | none => false
    let p := persist (mgetD d.acq.mask m 0) (trPersist e) (v && !gs.isEmpty)
    let d1 := d.setAcq { d.acq with mask := mset d.acq.mask m p.1 }
    if p.2 then gs.foldl (fun x g => capViolate g s.tAt m x) d1 else d1

/-- A sample of capture channel `c` at a source tag: it goes to the groups that record it, then its triggers and masks evaluate. -/
def acqSample (c : Nat) (t : Time) (v : Word) (unset inv gap : Bool) (d : Device) : Device :=
  let tag := ((t : Int) - ccSkew (d.ccE c) * Time.nsU).toNat
  let per := Time.secU / d.ccRate c
  let jump := match d.capHist c with
    | [] => false
    | p :: _ => decide (2 * (tag - p.tAt) < per ∨ 3 * per < 2 * (tag - p.tAt))
  let s : CapS := ⟨tag, v, unset, inv, gap || jump⟩
  let d1 := d.setAcq { d.acq with hist := mset d.acq.hist c ((s :: d.capHist c).take 2048) }
  let d2 := (List.range 8).foldl (fun x g => match (x.grpChans g).idxOf? c with
    | some k => if (x.capGrp g).st = .idle ∨ (x.capGrp g).st = .full then x else capSample g k s x
    | none => x) d1
  let d3 := (d2.ents tTrigger).foldl (fun x e =>
    if trEn e.2 && (trKind e.2 == 0 || trKind e.2 == 3) && decide (bx (wd e.2 1) 8 0 = c) then trigEval e.1 tag (x.sampleTrue e.2 c) x else x) d2
  (d3.ents tMask).foldl (fun x e => if trEn e.2 && decide (bx (wd e.2 1) 8 0 = c) then maskEval e.1 x else x) d3
/-- The capture channels of a source: a local channel's, or a stream channel's. -/
def Device.capOf (d : Device) (sv : Bool) (st ch : Nat) : List Nat :=
  (d.ents tCapChan).filterMap (fun e => if ccEn e.2 && (ccSv e.2 == sv) && decide (ccCh e.2 = ch ∧ (sv = false ∨ ccStream e.2 = st)) then some e.1 else none)
/-- A capture output of a local channel. -/
def acqLocal (ch : Nat) (t : Time) (v : Word) (unset inv gap : Bool) (d : Device) : Device :=
  (d.capOf false 0 ch).foldl (fun x c => acqSample c t v unset inv gap x) d
/-- A sample of a stream (R79). -/
def acqStream (st : Nat) (s : Sample) (d : Device) : Device :=
  s.vals.zipIdx.foldl (fun x v => (x.capOf true st v.2).foldl (fun y c => acqSample c s.tAt v.1 false (s.bad.testBit v.2) false y) x) d

/-! The commands. -/

/-- TRIGGER_EVAL_INSTANT: the present eighth of a nominal cycle, once (R287). -/
def triggerEvalInstant (nom60 : Bool) (d : Device) : Device :=
  let k := 8 * (if nom60 then 60 else 50)
  let n := d.tk.now * k / Time.secU
  if !d.measuring || decide (mget d.acq.evalAt (b2n nom60) = some n) then d
  else
    (d.ents tTrigger).foldl (fun x e =>
      if trEn e.2 && trKind e.2 != 0 && trKind e.2 != 3 && (tr60 e.2 == nom60) then
        trigEval e.1 (n * Time.secU / k) (x.cycleTrue e.2 (n * Time.secU / k)) x else x)
      (d.setAcq { d.acq with evalAt := mset d.acq.evalAt (b2n nom60) n })
/-- ACQ_ARM: R283 in its order, then ARMED into the lowest free slot. -/
def acqArm (g : Nat) (d : Device) : Device :=
  let e := d.gE g
  if (d.capGrp g).st ≠ .idle ∨ g ≥ 8 then d
  else if !d.fb ACQ_DDR.VALID then acqErr 2 d
  else if !geEn e then acqErr 3 d
  else if (gePre e + geMaxPost e) / Time.msU > d.grpCap g then acqErr 5 d
  else if d.areaBad g then acqErr 6 d
  else
    let d1 := (d.setf ACQ_GRP_CAP.CAP_MS (d.grpCap g) g).setGrp g { d.capGrp g with since := d.tk.now }
    match (d1.grpFree g).head? with
    | some s => capArm g s d1
    | none => d1.setGrp g { d1.capGrp g with st := .full, blocks := [], cur := [] }
/-- ACQ_DISARM (R284). -/
def acqDisarm (g : Nat) (d : Device) : Device :=
  let d1 := if (d.capGrp g).st.recording then
      let x := capFlushAll g d
      if (x.capGrp g).st.recording then recFinish g false true x else x
    else d
  if (d.capGrp g).st = .idle then d else d1.setGrp g { d1.capGrp g with st := .idle, blocks := [], cur := [] }
/-- ACQ_FORCE (R284). -/
def acqForce (g : Nat) (d : Device) : Device := capTrigger g d.tk.now 0x200 d
/-- CAPTURE_RECORD_END: the end of a record has passed. -/
def captureRecordEnd (g : Nat) (d : Device) : Device :=
  if (d.capGrp g).st.recording && decide ((d.capGrp g).stop ≤ d.tk.now) && d.measuring then
    let d1 := capFlushAll g d
    if (d1.capGrp g).st.recording then capNext g (recFinish g false false d1) else d1
  else d
/-- ACQ_SLOT_RELEASE: a write of ACQ_SLOT_REL (R290). -/
def acqSlotRelease (v : Word) (d : Device) : Device :=
  let g := bx v 10 8
  let s := bx v 3 0
  let x := d.capGrp g
  if !bit v 31 then d
  else if x.done.contains s then
    let d1 := d.setGrp g { x with done := x.done.filter (· ≠ s) }
    if x.st = .full then capArm g s d1 else d1
  else acqErr 4 d
/-- A write of ACQ_DDR (Table 9.18). -/
def acqDdrWrite (v : Word) (d : Device) : Device :=
  let n := bx v 11 8
  if (List.range 8).any (fun g => decide ((d.capGrp g).st ≠ .idle)) || decide (n = 0 ∨ 9 ≤ n) then acqErr 1 d
  else d.wr ACQ_DDR 0 (v &&& 0x80000F7F#32)
/-- A write of ACQ_GRP_CTL (Table 9.22). -/
def acqCtlWrite (g : Nat) (v : Word) (d : Device) : Device :=
  let d1 := d.setf ACQ_GRP_CTL.AUTO (bx v 28 28) g
  let d2 := if bit v 31 then acqArm g d1 else d1
  let d3 := if bit v 30 then acqDisarm g d2 else d2
  if bit v 29 then acqForce g d3 else d3
/-- Every group is IDLE (R282). -/
def Device.acqIdle (d : Device) : Bool := (List.range 8).all (fun g => decide ((d.capGrp g).st = .idle))

end Sys2Proof.Machine
end

