-- ==== Sys2Proof/Machine/IslKernel.lean ====
section
/-!
DEFINITION. The island kernel ISLDET as a function of its graph, its inputs and its state (spec/06, R194 to R206).
-/
namespace Sys2Proof.Machine

/-- A lane's input to a run: its records where it has them, their lap time, and whether the lap is new since the previous run (R194). -/
structure LaneIn where
  recs : Option (List (List Word))
  lapTime : Time
  fresh : Bool
  deriving DecidableEq, Repr

/-- The parameters of Table 6.2 and the exclusion settings. -/
structure IslCfg where
  hold : Nat
  minLanes : Nat
  gapF : Word
  gapV : Word
  vdead : Word
  nom60 : Bool
  excl : ExclCfg
  deriving DecidableEq, Repr

/-- What a run yields: the values of Table 6.5, the state, the map, and what it counts. -/
structure IslRun where
  vals : List Word
  st : IslSt
  map : List Byte
  count : Nat
  unreported : Nat
  nexcl : Nat
  unknown : Nat
  bad : Nat
  outliers : Nat
  changed : Bool
  disagree : Bool
  pending : Bool
  byAgree : Bool
  byPersist : Bool
  dropped : Bool
  /-- The IDs assigned and retired. -/
  assigned : List Nat
  retired : List Nat
  tcount : Nat
  gcount : Nat
  /-- The entries of a regional summary (R365). -/
  summary : List (List Word)
  deriving DecidableEq, Repr

/-- The lane a status reference names (Table 6.4). -/
def staMode (s : Word) : Nat := bx s 31 30
def staWord (s : Word) : Nat := bx s 27 24
def staPos (s : Word) : Nat := bx s 23 20
def staLane (s : Word) : Nat := bx s 13 0

/-- The records of an input, unless R136 excludes them. -/
def LaneIn.included (c : IslCfg) (l : LaneIn) : Option (List (List Word)) :=
  match l.recs with
  | some r => if qExcluded c.excl (recQR r) then none else some r
  | none => none
/-- An end's previous state: unknown once HOLD_LAPS runs have excluded it (R195). -/
def heldSt (c : IslCfg) (prev : Option HeldEnd) : EndSt :=
  match prev with
  | some h => if h.runs > c.hold then .unknown else h.st
  | none => .unknown
/-- One end's state (R195): its state, whether a pair read 0b11, and what is held on. -/
def endState (c : IslCfg) (ins : Nat → LaneIn) (prev : Option HeldEnd) (s : Word) : EndSt × Bool × Option HeldEnd :=
  let now (st : EndSt) : EndSt × Bool × Option HeldEnd := (st, false, some ⟨s, st, 0⟩)
  match staMode s with
  | 0 => (.closed, false, none)
  | 3 => (.opened, false, none)
  | m =>
    let l := ins (staLane s)
    match l.included c with
    | none =>
      let p := prev.map (fun h => if l.fresh then { h with runs := h.runs + 1 } else h)
      (heldSt c p, false, p)
    | some r =>
      let d := recDigital r (staWord s)
      if m = 1 then now (if decide (d / 2 ^ staPos s % 2 = 1) != bit s 29 then .closed else .opened)
      else
        match d / 2 ^ staPos s % 4 with
        | 1 => now .opened
        | 2 => now .closed
        | 3 => (.unknown, true, some ⟨s, .unknown, 0⟩)
        | _ => now (heldSt c prev)

/-- A bus's measurement at this run (R194, R197): what is held on, the pair used if the bus is a member, and whether this run's pair
was excluded. -/
def busMeas (c : IslCfg) (ins : Nat → LaneIn) (prev : Option HeldBus) (bus : List Word) :
    HeldBus × Option (Word × Word) × Bool :=
  let ref := wd bus 2
  let h0 : HeldBus := prev.getD ⟨ref, fNaN, fNaN, false, 0, fNaN, 0, false, 0⟩
  let fin (h : HeldBus) (ex : Bool) : HeldBus × Option (Word × Word) × Bool :=
    (h, if h.hasPair && decide (h.runs ≤ c.hold) then some (h.f, h.v) else none, ex)
  let l := ins (refLane ref)
  if !l.fresh then
    -- the angle stands for a bus that holds none yet, as at a swap
    let h1 := match h0.hasTheta, l.included c with
      | false, some r =>
        let p := recPhasor r (refSlot ref)
        if cIsNaN p then h0 else { h0 with theta := fAtan2 p.2 p.1, tAt := l.lapTime, hasTheta := true, aruns := 0 }
      | _, _ => h0
    fin h1 (decide (h0.runs > 0) || !h0.hasPair)
  else match l.included c with
    | none => fin { h0 with runs := h0.runs + 1, aruns := h0.aruns + 1 } true
    | some r =>
      let p := recPhasor r (refSlot ref)
      let f := recFreq r
      let fOk := !fIsNaN f
      let aOk := !cIsNaN p
      let theta := fAtan2 p.2 p.1
      let v := fDiv (wrapAngle (fSub theta h0.theta)) (fMul fTwoPi (ofRat ((l.lapTime : Int) - h0.tAt) Time.secU))
      let vOk := aOk && h0.hasTheta && decide (h0.aruns ≤ c.hold) && !fIsNaN v
      let h1 : HeldBus := if aOk then { h0 with theta := theta, tAt := l.lapTime, hasTheta := true, aruns := 0 }
                          else { h0 with aruns := h0.aruns + 1 }
      if fOk && vOk then fin { h1 with f := f, v := v, hasPair := true, runs := 0 } false
      else fin { h1 with runs := h1.runs + 1 } true

/-- The labels of the connected parts of `n` buses under edges: each label is the lowest bus of its part. -/
def labels (n : Nat) (edges : List (Nat × Nat)) : List Nat :=
  edges.foldl (fun ls e =>
    let a := ls.getD e.1 0
    let b := ls.getD e.2 0
    if a = b then ls else ls.map (fun x => if x = max a b then min a b else x)) (List.range n)

/-- Group indices by their label, by rising lowest index. -/
def groupBy (ls : List (Nat × Nat)) : List (List Nat) :=
  (ls.map (·.2)).dedup.map (fun l => (ls.filter (fun e => e.2 = l)).map (·.1))

/-- Parts in canonical order: each ascending, ordered by first element. -/
def canon (ps : List (List Nat)) : List (List Nat) :=
  (ps.filter (fun p => !p.isEmpty)).map (fun p => sortBy (fun a b => decide (a ≤ b)) p)
    |> sortBy (fun a b => decide (a.headD 0 ≤ b.headD 0))

/-- Sort by a value, ties by index, and cut where neighbours differ by more than the gap (R198). -/
def gapCut (gap : Word) (xs : List (Nat × Word)) : List (List Nat) :=
  let s := sortBy (fun a b => fLt a.2 b.2 || (!fLt b.2 a.2 && decide (a.1 ≤ b.1))) xs
  let rec go (l : List (Nat × Word)) (cur : List Nat) (last : Word) : List (List Nat) :=
    match l with
    | [] => [cur.reverse]
    | (i, v) :: r => if fLt gap (fSub v last) then cur.reverse :: go r [i] v else go r (i :: cur) v
  match s with
  | [] => []
  | (i, v) :: r => go r [i] v

/-- The coherent groups after outliers are joined, and the number of outliers (R198). -/
def coherent (c : IslCfg) (mem : List (Nat × Word × Word)) : List (List Nat) × Nat :=
  let fOf (b : Nat) : Word := ((mem.find? (fun e => e.1 = b)).map (·.2.1)).getD fNaN
  let vOf (b : Nat) : Word := ((mem.find? (fun e => e.1 = b)).map (·.2.2)).getD fNaN
  let g1 := gapCut c.gapF (mem.map (fun e => (e.1, e.2.1)))
  let gs := g1.flatMap (fun g => gapCut c.gapV (g.map (fun b => (b, vOf b))))
  let big := gs.filter (fun g => decide (g.length ≥ c.minLanes))
  if gs.isEmpty then ([], 0)
  else if big.isEmpty then ([mem.map (·.1)], 0)
  else
    let out := (gs.filter (fun g => decide (g.length < c.minLanes))).flatten
    -- distance of a bus to a group: the least difference of f
    let dist (b : Nat) (g : List Nat) : Word :=
      (g.map (fun m => fAbs (fSub (fOf m) (fOf b)))).foldl fMin (fInf false)
    let best (b : Nat) : Nat :=
      (big.zipIdx.foldl (fun acc e => if fLt (dist b e.1) acc.2 then (e.2, dist b e.1) else acc)
        ((0 : Nat), fInf false)).1
    (big.zipIdx.map (fun e => e.1 ++ out.filter (fun b => best b = e.2)), out.length)

/-- Assign the unmeasured buses of a T-island by breadth-first levels (R199), a level's buses in ascending index, each seeing those before it.
`asg` lists (bus, part). -/
def bfsAssign (fuel : Nat) (edges : List (Nat × Nat)) (todo : List Nat) (asg : List (Nat × Nat)) : List (Nat × Nat) :=
  match fuel with
  | 0 => asg
  | n + 1 =>
    let nbrs (b : Nat) : List Nat := edges.filterMap (fun e => if e.1 = b then some e.2 else if e.2 = b then some e.1 else none)
    let isIn (a : List (Nat × Nat)) (b : Nat) : Bool := a.any (fun e => e.1 = b)
    let pick (a : List (Nat × Nat)) (b : Nat) : Option Nat :=
      match (nbrs b).filter (isIn a) |> sortBy (fun a b => decide (a ≤ b)) with
      | [] => none
      | x :: _ => (a.find? (fun e => e.1 = x)).map (·.2)
    let lvl := todo.filter (fun b => (nbrs b).any (isIn asg))
    if lvl.isEmpty then asg
    else bfsAssign n edges (todo.filter (fun b => !lvl.contains b))
      (lvl.foldl (fun a b => match pick a b with | some p => a ++ [(b, p)] | none => a) asg)

/-- The candidate partition (R199) of live T-islands under the coherent groups. -/
def candidate (edges : List (Nat × Nat)) (live groups : List (List Nat)) : List (List Nat) :=
  canon (live.flatMap (fun t =>
    let parts := (groups.map (fun g => g.filter (fun b => t.contains b))).filter (fun p => !p.isEmpty)
    if parts.length ≤ 1 then [t]
    else
      let asg0 := parts.zipIdx.flatMap (fun e => e.1.map (fun b => (b, e.2)))
      let ins := edges.filter (fun e => t.contains e.1 && t.contains e.2)
      let asg := bfsAssign (t.length + 1) ins (t.filter (fun b => !asg0.any (fun e => e.1 = b))) asg0
      (List.range parts.length).map (fun i => (asg.filter (fun e => e.2 = i)).map (·.1))))

/-- The views agree (R199). -/
def viewsAgree (mem : List Nat) (tOf gOf : Nat → Nat) : Bool :=
  mem.all (fun a => mem.all (fun b => decide (tOf a = tOf b) == decide (gOf a = gOf b)))

/-- The stored energy of an island (R204). -/
def islEK (g : Graph) (isl : List Nat) : Word := sum16 (isl.map (fun b => (none, wd (g.buses.getD b []) 4)))
def busKey (g : Graph) (b : Nat) : Nat := (wd (g.buses.getD b []) 0).toNat
def lowKey (g : Graph) (isl : List Nat) : Nat := (isl.map (busKey g)).foldl min 4294967296

/-- Islands by stored energy descending, then more buses, then lowest BUS_KEY (R202, R203). -/
def byEnergy (g : Graph) (isls : List (List Nat)) : List (List Nat) :=
  isls |> sortBy (fun a b =>
    let ea := islEK g a
    let eb := islEK g b
    fLt eb ea || (!fLt ea eb && (decide (a.length > b.length) || (decide (a.length = b.length) && decide (lowKey g a ≤ lowKey g b)))))

/-- The order of a first acceptance: by stored energy descending, then lowest BUS_KEY (R202). -/
def firstOrder (g : Graph) (isls : List (List Nat)) : List (List Nat) :=
  isls |> sortBy (fun a b => fLt (islEK g b) (islEK g a) || (!fLt (islEK g a) (islEK g b) && decide (lowKey g a ≤ lowKey g b)))

/-- Assign the island IDs (R202), with the IDs assigned and retired. `old` are the previous islands. Islands that take a new ID beside previous
islands take it in the order of R203, which the rule does not fix (DESIGN CHOICE, log entry 75). -/
def assignIds (g : Graph) (lap : Nat) (reported : List (List Nat)) (old : List IslId) (retired : NMap Nat) :
    List IslId × NMap Nat × List Nat × List Nat :=
  let inherit (acc : List IslId × NMap Nat × List Nat) (o : IslId) : List IslId × NMap Nat × List Nat :=
    let shared (isl : List Nat) : List Nat := (isl.map (busKey g)).filter (fun k => o.keys.contains k)
    let best := reported.foldl (fun (b : Option (List Nat)) isl =>
      let s := shared isl
      if s.isEmpty then b
      else match b with
        | none => some isl
        | some x =>
          let sx := shared x
          if s.length > sx.length || (s.length = sx.length && s.foldl min 4294967296 < sx.foldl min 4294967296) then some isl
          else b) none
    match best with
    | some isl =>
      if acc.1.any (fun i => i.buses = isl) then (acc.1, mset acc.2.1 o.id lap, acc.2.2 ++ [o.id])
      else (acc.1 ++ [⟨o.id, isl, isl.map (busKey g), o.since⟩], acc.2.1, acc.2.2)
    | none => (acc.1, mset acc.2.1 o.id lap, acc.2.2 ++ [o.id])
  let kept := old.foldl inherit ([], retired, [])
  let fresh (acc : List IslId × NMap Nat × List Nat) (isl : List Nat) : List IslId × NMap Nat × List Nat :=
    if acc.1.any (fun i => i.buses = isl) then acc
    else
      let free := (List.range 64).filter (fun i => !acc.1.any (fun x => x.id = i))
      let rested := free.filter (fun i => match mget acc.2.1 i with
        | none => true
        | some l => decide (lap ≥ l + 16))
      match rested ++ free with
      | [] => acc
      | i :: _ => (acc.1 ++ [⟨i, isl, isl.map (busKey g), lap⟩], mdel acc.2.1 i, acc.2.2 ++ [i])
  let r := (if old.isEmpty then firstOrder g reported else byEnergy g reported).foldl fresh (kept.1, kept.2.1, [])
  (sortBy (fun a b => decide (a.id ≤ b.id)) r.1, r.2.1, r.2.2, kept.2.2)

/-- One run of ISLDET (R194 to R206). `fresh` marks the first run after a graph becomes active (R207). -/
def isldetRun (c : IslCfg) (g : Graph) (ins : Nat → LaneIn) (st : IslSt) (lap : Nat) (fresh release : Bool) : IslRun :=
  let n := g.buses.length
  let ends := (g.branches.zipIdx.flatMap (fun e => [(2 * e.2, wd e.1 1), (2 * e.2 + 1, wd e.1 2)]))
  let est := ends.map (fun e => (e.1, endState c ins (mget st.ends e.1) e.2))
  let endsNew : NMap HeldEnd := est.filterMap (fun e => e.2.2.2.map (fun h => (e.1, h)))
  let opened := (est.filter (fun e => e.2.1 = .opened)).map (fun e => e.1 / 2)
  let unknown := (est.filter (fun e => e.2.1 = .unknown)).length
  let bad := (est.filter (fun e => e.2.2.1)).length
  let edges := g.branches.zipIdx.filterMap (fun e =>
    if opened.contains e.2 then none else some (bx (wd e.1 0) 30 16, bx (wd e.1 0) 14 0))
  let lab := labels n edges
  let tOf (b : Nat) : Nat := lab.getD b 0
  let tIsl := groupBy ((List.range n).map (fun b => (b, tOf b)))
  -- measurements
  let meas := (List.range n).filter (fun b => bit (wd (g.buses.getD b []) 1) 31)
  let bm := meas.map (fun b => (b, busMeas c ins (mget st.busv b) (g.buses.getD b [])))
  let busNew : NMap HeldBus := bm.map (fun e => (e.1, e.2.1))
  let memAll := bm.filterMap (fun e => e.2.2.1.map (fun p => (e.1, p)))
  let volt (b : Nat) : Option Bool :=
    let bus := g.buses.getD b []
    match (ins (refLane (wd bus 2))).included c with
    | none => none
    | some r =>
      let p := recPhasor r (refSlot (wd bus 2))
      if cIsNaN p then none else some (fLt (cMag p) (fMul c.vdead (wd bus 3)))
  let isDark (t : List Nat) : Bool := !t.any (fun b => memAll.any (fun e => e.1 = b))
  let isDead (t : List Nat) : Bool :=
    let vs := (t.filter (fun b => memAll.any (fun e => e.1 = b))).filterMap volt
    !vs.isEmpty && vs.all id
  let dark := tIsl.filter isDark
  let dead := tIsl.filter (fun t => !isDark t && isDead t)
  let live := tIsl.filter (fun t => !isDark t && !isDead t)
  let mem := memAll.filter (fun e => live.any (fun t => t.contains e.1))
  -- members whose pair of this run is excluded (R205)
  let excluded := (bm.filter (fun e => e.2.2.2 && mem.any (fun m => m.1 = e.1))).length
  let coh := coherent c mem
  let gOf (b : Nat) : Nat := (coh.1.zipIdx.find? (fun e => e.1.contains b)).elim 0 (·.2)
  let agree := viewsAgree (mem.map (·.1)) tOf gOf
  let p := candidate edges live coh.1
  -- decision (R200)
  let dec : List (List Nat) × Option (List (List Nat)) × Bool × Bool :=
    if fresh || !st.started then (p, none, false, false)
    else if p = st.accepted then (st.accepted, none, false, false)
    else if agree then (p, none, true, false)
    else if st.pending = some p then (p, none, false, true)
    else (st.accepted, some p, false, false)
  let acc := dec.1
  let pend := dec.2.1
  let droppedPend := release && (match st.pending with
    | none => false
    | some q => fresh || (decide (acc ≠ q) && decide (pend ≠ some q)))
  -- identity (R202, R203)
  let ranked := byEnergy g acc
  let reported := ranked.take 64
  let rest := ranked.drop 64
  let ida := assignIds g lap reported st.ids st.retired
  let ids := ida.1
  -- per-island values (R204, R205): members stand in live T-islands (R197)
  let memOf (isl : List Nat) : List Nat := isl.filter (fun b => mem.any (fun e => e.1 = b))
  let fOf (b : Nat) : Option Word := (mem.find? (fun e => e.1 = b)).map (·.2.1)
  let rOf (b : Nat) : Option Word :=
    if !(mem.any (fun e => e.1 = b)) then none
    else match (ins (refLane (wd (g.buses.getD b []) 2))).included c with
      | none => none
      | some r => if fIsNaN (recRocof r) then none else some (recRocof r)
  let wmean (isl : List Nat) (val : Nat → Option Word) : Word :=
    let wOf (b : Nat) : Word := wd (g.buses.getD b []) 5
    let inc := isl.filter (fun b => (val b).isSome)
    if inc.isEmpty then fNaN
    else
      let sw := sum16 (isl.map (fun b => (none, if (val b).isSome then wOf b else fZero)))
      let eq := fIsZero sw
      let sw' := if eq then sum16 (isl.map (fun b => (none, if (val b).isSome then fOne else fZero))) else sw
      fDiv (sum16 (isl.map (fun b => match val b with
        | some x => (some (if eq then fOne else wOf b), x)
        | none => (none, fZero)))) sw'
  let f0 : Word := fOfNat (if c.nom60 then 60 else 50)
  let basis (isl : List Nat) : Nat :=
    let t := tOf (isl.headD 0)
    let others := acc.filter (fun x => x ≠ isl)
    let b1 := others.any (fun x => decide (tOf (x.headD 0) = t))
    let b0 := others.any (fun x => decide (tOf (x.headD 0) ≠ t) &&
      (memOf isl).any (fun a => (memOf x).any (fun b => decide (gOf a = gOf b))))
    b2n b0 + 2 * b2n b1
  let islVals (i : Nat) : List Word :=
    match ids.find? (fun x => x.id = i) with
    | none => [fZero, fZero, fZero, fZero, fNaN, fNaN, fNaN, fNaN, fNaN]
    | some x =>
      let ek := islEK g x.buses
      let rc := wmean x.buses rOf
      [fOne, fOfNat (basis x.buses), fOfNat x.buses.length, fOfNat (memOf x.buses).length, wmean x.buses fOf, rc,
       if fIsZero ek || fIsNaN rc then fNaN else fDiv (fMul (fMul (fOfNat 2) ek) rc) f0, ek,
       fOfNat (min (lap - x.since) 16777216)]
  let wsum (isl : List Nat) (val : Nat → Option Word) : Word :=
    sum16 (isl.map (fun b => match val b with | some x => (some (wd (g.buses.getD b []) 5), x) | none => (none, fZero)))
  let summ (x : IslId) : List Word :=
    [w32 (x.id + 256 * basis x.buses), islEK g x.buses,
     sum16 (x.buses.map (fun b => (none, if (fOf b).isSome then wd (g.buses.getD b []) 5 else fZero))),
     wsum x.buses fOf, wsum x.buses rOf, fOfNat x.buses.length, fOfNat (memOf x.buses).length, 0#32]
  let changed := decide (acc ≠ st.accepted) || !st.started
  let vals := [fOfNat acc.length, fOfNat dark.length, fOfNat dead.length, fOfNat rest.length, fOfNat (b2n changed),
    fOfNat (b2n pend.isSome), fOfNat (b2n (!agree)), fOfNat unknown] ++ (List.range 64).flatMap islVals
  let mapByte (b : Nat) : Byte :=
    if b ≥ n then 0xFF#8
    else match ids.find? (fun x => x.buses.contains b) with
      | some x => BitVec.ofNat 8 x.id
      | none => if rest.any (fun r => r.contains b) then 0x82#8
                else if dead.any (fun t => t.contains b) then 0x81#8
                else 0x80#8
  { vals := vals
    st := { started := true, accepted := acc, pending := pend, ids := ids, retired := ida.2.1, ends := endsNew, busv := busNew,
            bank := st.bank }
    map := (List.range 32768).map mapByte
    count := acc.length, unreported := rest.length, nexcl := excluded + unknown, unknown := unknown, bad := bad,
    outliers := coh.2, changed := changed, disagree := !agree, pending := pend.isSome, byAgree := dec.2.2.1,
    byPersist := dec.2.2.2, dropped := droppedPend, assigned := ida.2.2.1, retired := ida.2.2.2,
    tcount := tIsl.length, gcount := coh.1.length, summary := ids.map summ }

/-- Held values that a swap keeps, at the new places of their ends and buses: those whose references have not changed (R207). -/
def keepHeld (new : Graph) (st : IslSt) (bank : Nat) : IslSt :=
  { st with
    bank := bank
    ends := new.branches.zipIdx.flatMap (fun b => [(2 * b.2, wd b.1 1), (2 * b.2 + 1, wd b.1 2)]) |>.filterMap (fun e =>
      (st.ends.find? (fun h => h.2.ref = e.2)).map (fun h => (e.1, h.2)))
    busv := new.buses.zipIdx.filterMap (fun b =>
      if bit (wd b.1 1) 31 then (st.busv.find? (fun h => h.2.ref = wd b.1 2)).map (fun h => (b.2, h.2)) else none) }

end Sys2Proof.Machine
end

