-- ==== Sys2Proof/Machine/Ber.lean ====
section
/-!
DEFINITION. The BER forms of IEC 61850-8-1 and 9-2 (tag, length, value), and the session PDU of IEC 61850-90-5 as this model lays it
out (log entry 27): both stand outside the spec (R73, R78, R249).
-/
namespace Sys2Proof.Machine

/-- A length field. -/
def berLen (n : Nat) : List Byte :=
  if n < 128 then beBytes 1 n else if n < 256 then 0x81#8 :: beBytes 1 n else 0x82#8 :: beBytes 2 n
/-- A TLV with a one-octet tag. -/
def berTlv (tag : Nat) (v : List Byte) : List Byte := BitVec.ofNat 8 tag :: (berLen v.length ++ v)
/-- The shortest two's-complement form of an unsigned number below 2^32. -/
def berUInt (n : Nat) : List Byte :=
  beBytes (if n < 0x80 then 1 else if n < 0x8000 then 2 else if n < 0x800000 then 3 else if n < 0x80000000 then 4 else 5) n
def berBool (b : Bool) : List Byte := [if b then 1#8 else 0#8]
/-- Read one TLV: tag, value and what follows. -/
def berRead (b : List Byte) : Option (Nat × List Byte × List Byte) :=
  match b with
  | t :: l :: r =>
    let n := l.toNat
    if n < 128 then (if n ≤ r.length then some (t.toNat, r.take n, r.drop n) else none)
    else
      let k := n - 128
      if k = 0 ∨ k > 3 ∨ k > r.length then none
      else
        let m := beNat (r.take k)
        let s := r.drop k
        if m ≤ s.length then some (t.toNat, s.take m, s.drop m) else none
  | _ => none
/-- All TLVs of an octet string, or none where it is malformed. -/
def berAll (fuel : Nat) (b : List Byte) : Option (List (Nat × List Byte)) :=
  match fuel with
  | 0 => none
  | n + 1 => match b with
    | [] => some []
    | _ => match berRead b with
      | none => none
      | some (t, v, r) => (berAll n r).map (fun l => (t, v) :: l)
/-- The first value under a tag. -/
def berGet (l : List (Nat × List Byte)) (tag : Nat) : Option (List Byte) := (l.find? (fun e => e.1 = tag)).map (·.2)

/-! The session PDU. -/

def siTUNNEL : Nat := 0xA0
def siGOOSE : Nat := 0xA1
def siSV : Nat := 0xA2
/-- The MAC code of AUTH_ALG (Table 2.6) in the security header. -/
def macCode (alg : Nat) : Nat := match alg with | 1 => 1 | 2 => 2 | 3 => 4 | 4 => 5 | _ => 0
/-- Octets of an AUTH_ALG's tag. -/
def macLen (alg : Nat) : Nat := match alg with | 1 => 10 | 2 => 16 | 3 => 8 | 4 => 16 | _ => 0

/-- A payload element: type (0x81 GOOSE, 0x82 SV), simulation, APPID and APDU. -/
structure SpElem where
  typ : Nat
  sim : Bool
  appid : Nat
  apdu : List Byte
  deriving DecidableEq, Repr
/-- A session PDU: header octets from SI on, and its parts; `signed` is what the tag covers. -/
structure Spdu where
  si : Nat
  num : Nat
  enc : Nat
  mac : Nat
  kid : Nat
  hdr : List Byte
  elems : List SpElem
  signed : List Byte
  tag : List Byte
  deriving DecidableEq, Repr

def spElemBytes (e : SpElem) : List Byte :=
  [BitVec.ofNat 8 e.typ, if e.sim then 1#8 else 0#8] ++ beBytes 2 e.appid ++ beBytes 2 e.apdu.length ++ e.apdu
/-- The header from SI to the end of the key identifier. -/
def spHdr (si num enc mac kid payload : Nat) : List Byte :=
  [BitVec.ofNat 8 si, 24#8, 0x80#8, 22#8] ++ beBytes 4 (18 + payload) ++ beBytes 4 num ++ beBytes 2 2 ++ beBytes 4 0 ++ beBytes 2 0 ++
  beBytes 1 enc ++ beBytes 1 mac ++ beBytes 4 kid
/-- Read the elements of a payload. -/
def spElems (fuel : Nat) (b : List Byte) : Option (List SpElem) :=
  match fuel with
  | 0 => none
  | n + 1 => if b.isEmpty then some []
    else
      let len := beNat (slice b 4 2)
      if b.length < 6 + len then none
      else (spElems n (b.drop (6 + len))).map (fun l =>
        ⟨beNat (slice b 0 1), beNat (slice b 1 1) ≠ 0, beNat (slice b 2 2), slice b 6 len⟩ :: l)
/-- Read a session PDU, or none where its header is malformed (R73). -/
def spParse (b : List Byte) : Option Spdu :=
  let plen := beNat (slice b 28 4)
  let tail := b.drop (32 + plen)
  if b.length < 32 + plen || slice b 0 2 != [0x01#8, 0x40#8] || slice b 3 3 != [24#8, 0x80#8, 22#8] then none
  else if !(tail.isEmpty || (tail.headD 0#8 = 0x85#8 && decide (2 + (tail.getD 1 0#8).toNat = tail.length))) then none
  else (spElems (plen + 1) (slice b 32 plen)).map (fun es =>
    { si := beNat (slice b 2 1), num := beNat (slice b 10 4), enc := beNat (slice b 22 1), mac := beNat (slice b 23 1),
      kid := beNat (slice b 24 4), hdr := slice b 2 26, elems := es, signed := slice b 2 (30 + plen), tag := tail.drop 2 })

end Sys2Proof.Machine
end

