-- ==== Sys2Proof/Machine/Crypto.lean ====
section
/-!
DEFINITION. Checks and cryptography named by the spec: CRC-32 (IEEE 802.3) and CRC-CCITT, SHA-256, HMAC-SHA-256, the KDF of
R420, AES-128, and AES-128-GCM with GMAC as its tag over associated data alone. The algorithms are those of their standards
(log entry 22).
-/
namespace Sys2Proof.Machine

/-- CRC-32 of IEEE 802.3: initial value 0xFFFF_FFFF, final complement. -/
def crc32Step (c : Nat) (b : Byte) : Nat :=
  (List.range 8).foldl (fun x _ => if x % 2 = 1 then Nat.xor (x / 2) 0xEDB88320 else x / 2) (Nat.xor c b.toNat)
def crc32 (b : List Byte) : Nat := Nat.xor (b.foldl crc32Step 0xFFFFFFFF) 0xFFFFFFFF

/-- CRC-CCITT of C37.118: polynomial 0x1021, initial value 0xFFFF. -/
def crcCcittStep (c : Nat) (b : Byte) : Nat :=
  (List.range 8).foldl (fun x _ => if x ≥ 32768 then Nat.xor (x * 2 % 65536) 0x1021 else x * 2) (Nat.xor c (b.toNat * 256))
def crcCcitt (b : List Byte) : Nat := b.foldl crcCcittStep 0xFFFF

/-! SHA-256. -/

/-- The numbers below 312 that only 1 and themselves divide: the first 64 primes. -/
def shaPrimes : List Nat := (List.range 312).filter (fun n => decide (2 ≤ n) && (List.range n).all (fun m => decide (m < 2) || decide (n % m ≠ 0)))
/-- The first 32 bits of the fractional part of the `k`-th root of `n`: the root of `n` times 2^(32 k), found bit by bit, modulo 2^32. -/
def rootFraction (k n : Nat) : Word :=
  w32 ((List.range 37).foldr (fun i r => if (r + 2 ^ i) ^ k ≤ n * 2 ^ (32 * k) then r + 2 ^ i else r) 0)
/-- The round constants: cube roots of the first 64 primes. -/
def sha256K : List Word := shaPrimes.map (rootFraction 3)
/-- The initial hash: square roots of the first 8 primes. -/
def sha256Init : List Word := (shaPrimes.take 8).map (rootFraction 2)

/-- The message schedule, newest word first. -/
def shaSched (n : Nat) (w : List Word) : List Word :=
  match n with
  | 0 => w
  | k + 1 =>
    let a := wd w 14
    let b := wd w 1
    let s0 := a.rotateRight 7 ^^^ a.rotateRight 18 ^^^ (a >>> 3)
    let s1 := b.rotateRight 17 ^^^ b.rotateRight 19 ^^^ (b >>> 10)
    shaSched k ((wd w 15 + s0 + wd w 6 + s1) :: w)

/-- One round on a..h. -/
def shaRound (s : List Word) (kw : Word × Word) : List Word :=
  let a := wd s 0
  let e := wd s 4
  let t1 := wd s 7 + (e.rotateRight 6 ^^^ e.rotateRight 11 ^^^ e.rotateRight 25) + ((e &&& wd s 5) ^^^ (~~~e &&& wd s 6)) + kw.1 + kw.2
  let t2 := (a.rotateRight 2 ^^^ a.rotateRight 13 ^^^ a.rotateRight 22) + ((a &&& wd s 1) ^^^ (a &&& wd s 2) ^^^ (wd s 1 &&& wd s 2))
  [t1 + t2, a, wd s 1, wd s 2, wd s 3 + t1, e, wd s 5, wd s 6]

/-- One block of sixteen big-endian words. -/
def shaBlock (h : List Word) (m : List Word) : List Word :=
  let w := (shaSched 48 m.reverse).reverse
  let s := (sha256K.zip w).foldl shaRound h
  h.zipWith (· + ·) s

/-- Bytes as big-endian words, in blocks of sixteen. -/
def shaWords (b : List Byte) : List (List Word) :=
  (chunks 64 (b.length + 1) b).map (fun c => (List.range 16).map (fun i => w32 (beNat (slice c (4 * i) 4))))

def sha256 (b : List Byte) : List Byte :=
  let z := (119 - b.length % 64) % 64
  let p := b ++ [0x80#8] ++ List.replicate z 0#8 ++ beBytes 8 (8 * b.length)
  ((shaWords p).foldl shaBlock sha256Init).flatMap (fun w => beBytes 4 w.toNat)

def hmacSha256 (key msg : List Byte) : List Byte :=
  let k0 := if key.length > 64 then sha256 key else key
  let k := k0 ++ List.replicate (64 - k0.length) 0#8
  sha256 (k.map (· ^^^ 0x5c#8) ++ sha256 (k.map (· ^^^ 0x36#8) ++ msg))

/-- A child key (R420). -/
def kdfChild (parent : List Byte) (label : Word) (ctx : List Byte) : List Byte :=
  hmacSha256 parent (beBytes 4 1 ++ beBytes 4 label.toNat ++ [0#8] ++ ctx ++ beBytes 4 256)

/-! AES-128. -/

def xtime (a : Byte) : Byte := if a.toNat ≥ 128 then (a <<< 1) ^^^ 0x1b#8 else a <<< 1
/-- Product in GF(2^8). -/
def gmul (a b : Byte) : Byte :=
  ((List.range 8).foldl (fun (s : Byte × Byte) i => (if b.toNat / 2 ^ i % 2 = 1 then s.1 ^^^ s.2 else s.1, xtime s.2)) (0#8, a)).1
/-- The S-box: inverse as the 254th power, then the affine map. -/
def aesS (x : Byte) : Byte :=
  let x2 := gmul x x
  let x4 := gmul x2 x2
  let x8 := gmul x4 x4
  let x16 := gmul x8 x8
  let x32 := gmul x16 x16
  let x64 := gmul x32 x32
  let x128 := gmul x64 x64
  let i := gmul (gmul (gmul x2 x4) (gmul x8 x16)) (gmul (gmul x32 x64) x128)
  i ^^^ i.rotateLeft 1 ^^^ i.rotateLeft 2 ^^^ i.rotateLeft 3 ^^^ i.rotateLeft 4 ^^^ 0x63#8

def xorBytes (a b : List Byte) : List Byte := a.zipWith (· ^^^ ·) b
/-- Round keys, newest first. -/
def aesKeys (n : Nat) (rc : Byte) (ks : List (List Byte)) : List (List Byte) :=
  match n with
  | 0 => ks
  | k + 1 =>
    let p := ks.headD []
    let t := (slice p 13 3 ++ slice p 12 1).map aesS
    let t0 := (t.headD 0#8 ^^^ rc) :: t.drop 1
    let a := xorBytes (slice p 0 4) t0
    let b := xorBytes (slice p 4 4) a
    let c := xorBytes (slice p 8 4) b
    let d := xorBytes (slice p 12 4) c
    aesKeys k (xtime rc) ((a ++ b ++ c ++ d) :: ks)
def aesShift (s : List Byte) : List Byte := (List.range 16).map (fun i => s.getD ((i + 4 * (i % 4)) % 16) 0#8)
def aesMix (s : List Byte) : List Byte :=
  (List.range 4).flatMap (fun c =>
    let a := s.getD (4 * c) 0#8
    let b := s.getD (4 * c + 1) 0#8
    let e := s.getD (4 * c + 2) 0#8
    let f := s.getD (4 * c + 3) 0#8
    [xtime a ^^^ (xtime b ^^^ b) ^^^ e ^^^ f, a ^^^ xtime b ^^^ (xtime e ^^^ e) ^^^ f,
     a ^^^ b ^^^ xtime e ^^^ (xtime f ^^^ f), (xtime a ^^^ a) ^^^ b ^^^ e ^^^ xtime f])
/-- One AES-128 block. -/
def aes128 (key blk : List Byte) : List Byte :=
  let ks := (aesKeys 10 1#8 [key]).reverse
  let s := (slice ks 1 9).foldl (fun x k => xorBytes (aesMix (aesShift (x.map aesS))) k) (xorBytes blk (ks.headD []))
  xorBytes (aesShift (s.map aesS)) (ks.getLastD [])

/-! GCM. Blocks of GHASH are numbers whose most significant bit is the first. -/

def gf128 (x y : Nat) : Nat :=
  ((List.range 128).foldl (fun (s : Nat × Nat) i =>
    (if x / 2 ^ (127 - i) % 2 = 1 then Nat.xor s.1 s.2 else s.1,
     if s.2 % 2 = 1 then Nat.xor (s.2 / 2) (0xE1 * 2 ^ 120) else s.2 / 2)) (0, y)).1
def pad16 (b : List Byte) : List Byte := b ++ List.replicate ((16 - b.length % 16) % 16) 0#8
def ghash (h : Nat) (b : List Byte) : Nat :=
  (chunks 16 (b.length + 1) b).foldl (fun y c => gf128 (Nat.xor y (beNat c)) h) 0
/-- Counter-mode encryption from a 12-byte nonce, first counter 2. -/
def gcmCtr (key nonce : List Byte) (b : List Byte) : List Byte :=
  (chunks 16 (b.length + 1) b).zipIdx.flatMap (fun c => xorBytes c.1 (aes128 key (nonce ++ beBytes 4 (c.2 + 2))))
/-- The 16-byte tag over associated data and ciphertext. -/
def gcmTag (key nonce aad ct : List Byte) : List Byte :=
  let h := beNat (aes128 key (List.replicate 16 0#8))
  let y := ghash h (pad16 aad ++ pad16 ct ++ beBytes 8 (8 * aad.length) ++ beBytes 8 (8 * ct.length))
  xorBytes (beBytes 16 y) (aes128 key (nonce ++ beBytes 4 1))

end Sys2Proof.Machine
end

