-- ==== Sys2Proof/Machine/Keystore.lean ====
section
/-!
DEFINITION. The Eoquel key store (spec/15, R413 to R430): root slots and banks, the privilege window, key groups, boot digests,
attestation and zeroisation.
-/
namespace Sys2Proof.Machine

def zeroKey : List Byte := List.replicate 32 0#8
def bankZero : Bank := ⟨0, 0, zeroKey, 0#32⟩
def slotZero : RootSlot := ⟨bankZero, bankZero⟩
def Device.setKey (d : Device) (k : Key) : Device := { d with key := k }

def Device.bd (d : Device) (n : Nat) : List Byte := mgetD d.key.bd n zeroKey

/-- The commit word of a bank's contents: the CRC-32 over generation, BD_MASK and key (R413; log entry 23 for the byte order). -/
def bankCrc (b : Bank) : Word := w32 (crc32 (le32 (w32 b.gen) ++ beBytes 1 b.mask ++ b.key))
def committed (b : Bank) : Bool := b.commit = bankCrc b
/-- `a` is greater than `b` in serial arithmetic modulo 2^32. -/
def serialGt (a b : Nat) : Bool := let x := (a + 4294967296 - b % 4294967296) % 4294967296; decide (0 < x ∧ x < 2147483648)
/-- The bank in force: (it is B, the bank); none for an EMPTY slot (R414). -/
def inForce (s : RootSlot) : Option (Bool × Bank) :=
  match committed s.a, committed s.b with
  | true, true => if serialGt s.b.gen s.a.gen then some (true, s.b) else some (false, s.a)
  | true, false => some (false, s.a)
  | false, true => some (true, s.b)
  | false, false => none

/-- A root slot whose bank in force is lost: that bank counts as not committed (Table 17.1, 0x0A). -/
def slotBroken (s : RootSlot) : RootSlot :=
  let broken (b : Bank) : Bank := { b with commit := bankCrc b ^^^ 1#32 }
  match inForce s with
  | some (true, b) => { s with b := broken b }
  | some (false, a) => { s with a := broken a }
  | none => s
/-- The places of slots and key groups, as memory integrity names them. -/
def keyLoc (g : Nat) : Nat := 65536 + g
/-- A root slot, and a key group, as they read: a group that is lost is empty as after CLEAR (Table 17.1, 0x0A). -/
def Device.root (d : Device) (s : Nat) : RootSlot :=
  let r := mgetD d.key.slots s slotZero
  if d.badAt 10 s = 2 then slotBroken r else r
def Device.grp (d : Device) (g : Nat) : KeyGroup :=
  if d.badAt 10 (keyLoc g) = 2 then ⟨none, none⟩ else mgetD d.key.groups g ⟨none, none⟩
/-- A slot is in use (R417). -/
def Device.slotInUse (d : Device) (s : Nat) : Bool :=
  d.key.groups.any (fun g => (match g.2.cur with | some e => decide (e.root = s) | none => false) ||
                             (match g.2.next with | some e => decide (e.root = s) | none => false)) ||
  (d.fb KEY_ATT_CFG.EN && decide (d.f KEY_ATT_CFG.SLOT = s))

def Device.keyErr (d : Device) (c : Nat) : Device := d.err KEY_STAT.ERR KEY_STAT.ECODE c

/-- The checks every key command passes first: PFW_N, which closes the window too and so stands before it, privilege for the host, BUSY (R418,
R415, R422). -/
def Device.keyGate (d : Device) (host : Bool) (go : Device → Device) : Device :=
  if !d.alive then d
  else if d.pwr.mode = .hold || !d.pwr.pfw then d.keyErr 7
  else if host && !d.fb KEY_STAT.PRIV then d.keyErr 1
  else if d.fb KEY_STAT.BUSY then d.keyErr 4
  else go d

/-- KEY_DATA0 to 7 as a key (log entry 23). -/
def Device.keyData (d : Device) : List Byte := leBytes ((List.range 8).map (fun i => d.rg KEY_DATA i))

/-- WRITE, steps 1 to 4 (R416): the bank not in force loses its commit word and takes the new contents. -/
def keyWrite (slot mask : Nat) (d : Device) : Device :=
  let s := slot % 64
  if d.slotInUse s then d.keyErr 2
  else
    let r := d.root s
    let f := inForce r
    let intoB := match f with | some (b, _) => !b | none => false
    let gen := match f with | some (_, b) => (b.gen + 1) % 4294967296 | none => 1
    let bank : Bank := ⟨gen, mask % 256, d.keyData, 0#32⟩
    let r' : RootSlot := if intoB then { r with b := bank } else { r with a := bank }
    (d.setKey { d.key with slots := mset d.key.slots s r', op := some (.write s intoB) }).setf KEY_STAT.BUSY 1

/-- ERASE (R417). -/
def keyErase (slot : Nat) (d : Device) : Device :=
  let s := slot % 64
  if d.slotInUse s then d.keyErr 2
  else
    let r := d.root s
    (d.setKey { d.key with slots := mset d.key.slots s ⟨{ r.a with commit := 0#32, key := zeroKey }, { r.b with commit := 0#32, key := zeroKey }⟩ }).count KEY_CMDS

/-- The working key of a path (R420). -/
def Device.pathKey (d : Device) (bank : Bank) (labels : List Word) : List Byte :=
  let ctx := (List.range 8).flatMap (fun n => if bank.mask / 2 ^ n % 2 = 1 then d.bd n else [])
  (labels.zipIdx.foldl (fun k l => kdfChild k l.1 (if l.2 = 0 then ctx else [])) bank.key)

/-- KEY_PATH_ROOT keeps every bit written, so that SET_NEXT sees a reserved field that is not zero (R422); a read shows its fields alone. -/
def keyPathRootWrite (v : Word) (d : Device) : Device := d.wr KEY_PATH_ROOT 0 v
/-- SET_NEXT (R422). -/
def keySetNext (group : Nat) (d : Device) : Device :=
  let w := d.rg KEY_PATH_ROOT 0
  let depth := bx w 18 16
  let root := bx w 29 24
  match inForce (d.root root) with
  | none => d.keyErr 3
  | some (_, bank) =>
    if depth > 6 ∨ (w &&& 0xC0F8FFFF#32) ≠ 0#32 then d.keyErr 3
    else
      let ls := (List.range depth).map (fun i => d.rg KEY_PATH_L i)
      (d.setKey { d.key with op := some (.setNext (group % 1024) ⟨root, ls, d.rg KEY_PATH_KID 0, d.pathKey bank ls⟩) }).setf KEY_STAT.BUSY 1

/-- ROLL (R422). -/
def keyRoll (group : Nat) (d : Device) : Device :=
  let g := group % 1024
  match (d.grp g).next with
  | none => d.keyErr 3
  | some e =>
    (((d.setKey { d.key with groups := mset d.key.groups g ⟨some e, none⟩ }).count KEY_CMDS).count KEY_ROLLS).raise EV_KEY_ROLL [g, e.kid.toNat]

/-- CLEAR (R422). -/
def keyClear (group : Nat) (d : Device) : Device :=
  (d.setKey { d.key with groups := mdel d.key.groups (group % 1024) }).count KEY_CMDS

/-- Close the privilege window. -/
def Device.privClose (d : Device) : Device :=
  (d.setKey { d.key with openedAt := none }).setf KEY_STAT.PRIV 0
/-- OP 0xF (R415). -/
def keyCloseWindow (d : Device) : Device := d.privClose.count KEY_CMDS

/-- The command in progress finishes (R416, R422). -/
def keyComplete (d : Device) : Device :=
  match d.key.op with
  | none => d
  | some op =>
    let d0 := (d.setKey { d.key with op := none }).setf KEY_STAT.BUSY 0
    match op with
    | .write s intoB =>
      let r := d0.root s
      let r' : RootSlot := if intoB then { r with b := { r.b with commit := bankCrc r.b } } else { r with a := { r.a with commit := bankCrc r.a } }
      let d1 := d0.setKey { d0.key with slots := mset d0.key.slots s r' }
      let d2 := (List.range 8).foldl (fun x i => x.wr KEY_DATA i 0#32) d1
      (d2.count KEY_CMDS).raise EV_KEY_COMMIT [s, if intoB then r.b.gen else r.a.gen]
    | .setNext g e =>
      (d0.setKey { d0.key with groups := mset d0.key.groups g { d0.grp g with next := some e } }).count KEY_CMDS

/-- A write of KEY_CMD (Table 15.5). -/
def keyCmd (host : Bool) (v : Word) (d : Device) : Device :=
  d.keyGate host (fun x => match bx v 31 28 with
    | 1 => keyWrite (bx v 27 22) (bx v 21 14) x
    | 2 => keyErase (bx v 27 22) x
    | 3 => keySetNext (bx v 9 0) x
    | 4 => keyRoll (bx v 9 0) x
    | 5 => keyClear (bx v 9 0) x
    | 15 => keyCloseWindow x
    | _ => x.keyErr 6)

/-- A write of KEY_UNLOCK_LO compares the pair with the token (R415). -/
def keyUnlock (lo : Word) (d : Device) : Device :=
  if !d.alive then d
  else
    let t := (d.rg KEY_UNLOCK_HI 0).toNat * 4294967296 + lo.toNat
    let lock := d.fb KEY_STAT.LOCKOUT
    if !lock && d.key.token = some t then (d.setKey { d.key with openedAt := some d.tk.ticks }).setf KEY_STAT.PRIV 1
    else
      let n := d.key.fails + 1
      let d1 := ((d.setKey { d.key with fails := n }).count KEY_PRIV_FAIL).raise EV_KEY_PRIV_FAIL [n]
      let d2 := if n ≥ 3 then d1.setf KEY_STAT.LOCKOUT 1 else d1
      if lock then d2.keyErr 5 else d2

/-- The window closes 10 s after it opened (R415). -/
def privExpiry (d : Device) : Device :=
  match d.key.openedAt with
  | none => d
  | some t => if d.tk.ticks - t < 1280000000 then d else d.privClose

/-- KEY_ATT_CFG takes a write in the window only (R426). -/
def keyAttCfgWrite (v : Word) (d : Device) : Device :=
  if d.fb KEY_STAT.PRIV then d.wr KEY_ATT_CFG 0 (v &&& 0x8000003F#32) else d.keyErr 1
/-- A W1C write of KEY_STAT: TAMPERED clears only in the window (R427). -/
def keyStatWrite (v : Word) (d : Device) : Device :=
  let d1 := if bit v 30 then d.setf KEY_STAT.ERR 0 else d
  if bit v 24 then
    (if d1.fb KEY_STAT.PRIV then d1.setKey { d1.key with tampered := false } else d1.keyErr 1)
  else d1

/-- The attestation response (R426). -/
def Device.attResponse (d : Device) (key : List Byte) : List Byte :=
  (hmacSha256 key (beBytes 4 0x58415431 ++ leBytes ((List.range 4).map (fun i => d.rg KEY_CHAL i)) ++
    (List.range 8).flatMap d.bd ++ le32 (d.rg GBL_IDENT 0) ++ le32 (d.rg PAC_LIB_VER 0))).take 16
/-- KEY_ATT_CTL.GO (R426). -/
def attestRequest (d : Device) : Device :=
  if !d.alive then d
  else if d.key.slot.st ≠ .free then d.keyErr 4
  else if !d.fb KEY_ATT_CFG.EN || !d.fb KEY_STAT.BD_LOCK then d.keyErr 3
  else match inForce (d.root (d.f KEY_ATT_CFG.SLOT)), slotRequest d.key.slot with
    | some (_, b), some s => d.setKey { d.key with slot := s, attPending := leWords 4 (d.attResponse b.key) }
    | _, _ => d.keyErr 3
/-- The response is complete (R426, R409). -/
def attestReady (d : Device) : Device :=
  if d.key.slot.st ≠ .busy then d
  else (d.setKey { d.key with slot := slotReady d.key.slot d.key.attPending, attPending := [] }).count KEY_ATTESTS

/-- TAMPER_N has been low for 200 ns: zeroise (R427). A zeroisation that no record can report now, without main power, in RESET or in HOLD, is
reported at the next WARMUP. -/
def tamperZeroise (d : Device) : Device :=
  let k : Key := { d.key with slots := [], token := none, tampered := true, op := none }
  if !d.pwr.powered then d.setKey { k with tamperOff := some 0 }
  else
    let d1 := ((d.setKey { k with groups := [] }).setf KEY_STAT.BUSY 0).privClose
    let d2 := match d.key.op with
      | some (.write _ _) => (List.range 8).foldl (fun (x : Device) i => x.wr KEY_DATA i 0#32) d1
      | _ => d1
    if d2.muted EV_KEY_TAMPER then d2.setKey { d2.key with tamperOff := some 1 } else d2.raise EV_KEY_TAMPER [1]

/-- Extend boot digest `n` with a measurement during WARMUP (R419). -/
def bootExtend (n : Nat) (m : List Byte) (d : Device) : Device :=
  if d.pwr.mode ≠ .warmup || d.fb KEY_STAT.BD_LOCK || decide (n ≥ 8) then d
  else d.setKey { d.key with bd := mset d.key.bd n (sha256 (d.bd n ++ m)) }

/-- VBAT is lost: the slots live on while main power does (R413, R418). -/
def vbatLoss (d : Device) : Device :=
  if d.pwr.powered then d.setKey { d.key with vbat := false }
  else d.setKey { d.key with vbat := false, slots := [], tampered := false, tamperOff := none }

/-! Users of key groups (R423, R424). -/

/-- The current entry a sender uses, or none, counted and reported once a second per group: `user` 1 R-GOOSE, 2 Rharix. -/
def Device.sendKey (d : Device) (g user : Nat) : Option KeyEntry × Device :=
  let d0 := d.noteRead 10 (keyLoc g)
  match (d.grp g).cur with
  | some e => (some e, d0)
  | none =>
    let d1 := d0.count KEY_NOKEY
    let d2 := d1.raiseSec (mget d.key.nokeySec g) EV_KEY_NOKEY [g, user]
    (none, d2.setKey { d2.key with nokeySec := mset d2.key.nokeySec g d.sec })
/-- The entry a received session names by its key identifier (Table 15.3). -/
def Device.recvKey (d : Device) (g kid : Nat) : Option KeyEntry :=
  [(d.grp g).cur, (d.grp g).next].findSome? (fun e => match e with
    | some x => if x.kid.toNat = kid then some x else none
    | none => none)

/-! What the registers show. -/

def Device.keySlots (d : Device) : Nat := (d.key.slots.filter (fun s => (inForce s.2).isSome)).length
def Device.keySlotStat (d : Device) (s : Nat) : Word :=
  match inForce (d.root s) with
  | none => w32 (b2n (d.slotInUse s) * 536870912)
  | some (b, k) => w32 (2147483648 + b2n b * 1073741824 + b2n (d.slotInUse s) * 536870912 + k.mask)
def Device.keySlotGen (d : Device) (s : Nat) : Word :=
  match inForce (d.root s) with
  | none => 0#32
  | some (_, k) => w32 k.gen
def Device.keyGrpStat (d : Device) (g : Nat) : Word :=
  let r := d.grp g
  w32 (b2n r.cur.isSome * 2147483648 + b2n r.next.isSome * 1073741824 + (r.cur.map (·.root)).getD 0 * 65536 + (r.next.map (·.root)).getD 0)

end Sys2Proof.Machine
end

