-- ==== Sys2Proof/Machine/Frames.lean ====
section
/-!
DEFINITION. Ethernet, VLAN, IPv4, IPv6, UDP and TCP headers as frames carry them (R42, R46, R56, R257; the layouts themselves stand
outside the spec, log entry 24), and the port address tables (R48).
-/
namespace Sys2Proof.Machine

/-! Reading. -/

/-- An Ethernet header: addresses, the tag control field of the one tag it may have, EtherType, and where the payload starts. -/
structure EthHdr where
  dst : Nat
  src : Nat
  tag : Option Nat
  etype : Nat
  body : Nat
  deriving DecidableEq, Repr

/-- The header of a frame. A second tag or a 0x88A8 tag shows as the EtherType. -/
def ethParse (b : List Byte) : EthHdr :=
  let t := beNat (slice b 12 2)
  if t = 0x8100 then ⟨beNat (slice b 0 6), beNat (slice b 6 6), some (beNat (slice b 14 2)), beNat (slice b 16 2), 18⟩
  else ⟨beNat (slice b 0 6), beNat (slice b 6 6), none, t, 14⟩

/-- Sum of big-endian 16-bit words. -/
def octSum : List Byte → Nat
  | a :: b :: r => a.toNat * 256 + b.toNat + octSum r
  | [a] => a.toNat * 256
  | [] => 0
/-- Ones' complement sum folded to 16 bits. -/
def fold16 (n : Nat) : Nat :=
  let a := n % 65536 + n / 65536
  let b := a % 65536 + a / 65536
  b % 65536 + b / 65536
/-- The Internet checksum field over a sum. -/
def csum16 (n : Nat) : Nat := 65535 - fold16 n
/-- The pseudo-header sum of UDP and TCP. -/
def pseudoSum (src dst : List Byte) (proto len : Nat) : Nat := octSum src + octSum dst + proto + len / 65536 + len % 65536

/-! Port address tables (R48): entries 0 to 255 are addresses, 256 to 271 the VLAN bitmap. -/

/-- The octets of an address laid out as Table 2.3. -/
def addrOctets (e : List Word) : List Byte := (List.range 4).flatMap (fun i => beBytes 4 (wd e i).toNat)
def addrEn (e : List Word) : Bool := bit (wd e 4) 31
def addrType (e : List Word) : Nat := bx (wd e 4) 30 29
/-- An IP address of an entry: 4 octets, or 16 for IPv6. -/
def addrIp (e : List Word) : List Byte :=
  if addrType e = 1 ∨ (addrType e = 2 ∧ bit (wd e 4) 28) then addrOctets e else (addrOctets e).take 4
/-- The enabled address entries of a port. -/
def Device.portAddrs (d : Device) (p : Nat) : List (List Word) :=
  (d.ents tPort p).filterMap (fun e => if e.1 < 256 && addrEn e.2 then some e.2 else none)
/-- A VID is set in a port's VLAN bitmap. -/
def Device.vlanOk (d : Device) (p vid : Nat) : Bool :=
  bit (wd (d.ent tPort (256 + vid / 256) p) (vid % 256 / 32)) (vid % 32)
/-- The port MAC (Tables 2.13, 2.14). -/
def Device.portMac (d : Device) (p : Nat) : Nat := d.f ETH_MAC_HI.MAC_HI p * 4294967296 + (d.rg ETH_MAC_LO p).toNat
/-- The first enabled unicast address of a family: the source of what the port sends (DESIGN CHOICE, log entry 25). -/
def Device.portIp (d : Device) (p : Nat) (v6 : Bool) : List Byte :=
  match (d.portAddrs p).find? (fun e => addrType e = b2n v6) with
  | some e => addrIp e
  | none => List.replicate (if v6 then 16 else 4) 0#8

/-- The multicast MAC of an IP group. -/
def groupMac (ip : List Byte) : Nat :=
  if ip.length = 4 then 0x01005E000000 + beNat ip % 0x800000 else 0x333300000000 + beNat (ip.drop 12)
/-- The solicited-node multicast MAC and address of an IPv6 address. -/
def solicitedMac (ip : List Byte) : Nat := 0x3333FF000000 + beNat (ip.drop 13)
def solicitedIp (ip : List Byte) : Nat := 0xFF0200000000000000000001FF000000 + beNat (ip.drop 13)

/-! Building. Frames are without FCS, padded to 60 octets. -/

def padEth (b : List Byte) : List Byte := b ++ List.replicate (60 - b.length) 0#8
def ethBuild (dst src : Nat) (tag : Option Nat) (etype : Nat) (body : List Byte) : List Byte :=
  padEth (beBytes 6 dst ++ beBytes 6 src ++ (match tag with | some t => beBytes 2 0x8100 ++ beBytes 2 t | none => []) ++
    beBytes 2 etype ++ body)
/-- An IP packet: IPv4 with identification and DF, or IPv6; TTL or hop limit 64. -/
def ipBuild (src dst : List Byte) (proto ident : Nat) (body : List Byte) : List Byte :=
  if dst.length = 4 then
    let h := [0x45#8, 0#8] ++ beBytes 2 (20 + body.length) ++ beBytes 2 ident ++ beBytes 2 0x4000 ++ [64#8, BitVec.ofNat 8 proto]
    h ++ beBytes 2 (csum16 (octSum h + octSum src + octSum dst)) ++ src ++ dst ++ body
  else [0x60#8, 0#8, 0#8, 0#8] ++ beBytes 2 body.length ++ [BitVec.ofNat 8 proto, 64#8] ++ src ++ dst ++ body
/-- A UDP datagram; a computed checksum of 0 is sent as 0xFFFF. -/
def udpBuild (src dst : List Byte) (sport dport : Nat) (body : List Byte) : List Byte :=
  let h := beBytes 2 sport ++ beBytes 2 dport ++ beBytes 2 (8 + body.length)
  let c := csum16 (pseudoSum src dst 17 (8 + body.length) + octSum (h ++ [0#8, 0#8] ++ body))
  h ++ beBytes 2 (if c = 0 then 65535 else c) ++ body
/-- A TCP segment with ACK and PSH and no options. -/
def tcpBuild (src dst : List Byte) (sport dport seq ack win : Nat) (body : List Byte) : List Byte :=
  let h := beBytes 2 sport ++ beBytes 2 dport ++ beBytes 4 seq ++ beBytes 4 ack ++ [0x50#8, 0x18#8] ++ beBytes 2 win
  let c := csum16 (pseudoSum src dst 6 (20 + body.length) + octSum (h ++ [0#8, 0#8, 0#8, 0#8] ++ body))
  h ++ beBytes 2 c ++ [0#8, 0#8] ++ body
def ipEtype (ip : List Byte) : Nat := if ip.length = 4 then 0x0800 else 0x86DD

end Sys2Proof.Machine
end

