-- ==== Sys2Proof/Machine/TxQueue.lean ====
section
/-!
DEFINITION. The transmit queues of the ports (R258): two queues with strict priority, a frame in transmission, and what may be sent
in which mode (Table 19.1, R372, R230).
-/
namespace Sys2Proof.Machine

def portTxInit : PortTx := ⟨none, [], []⟩
def Device.ptx (d : Device) (p : Nat) : PortTx := mgetD d.egr.tx p portTxInit
def Device.setPtx (d : Device) (p : Nat) (x : PortTx) : Device := { d with egr := { d.egr with tx := mset d.egr.tx p x } }

/-- An item that carries a finished frame and nothing else. -/
def txPlain (bytes : List Byte) : TxItem := ⟨bytes, none, 0, 0, 0, none, none⟩

/-- The device transmits on its network ports: all traffic in RACE, PTP in FOLLOW too (Table 19.1, R372). -/
def Device.mayTx (d : Device) : Bool := d.pwr.mode = .race
def Device.mayPtp (d : Device) : Bool := d.pwr.mode = .race || d.pwr.mode = .follow

/-- Queue an item on a port that is ACTIVE (R230, R258): true for the alarm queue. A port that is not ACTIVE carries nothing. A
finished frame that finds the transmitter idle starts at once. -/
def Device.txPush (d : Device) (p : Nat) (alarm : Bool) (x : TxItem) : Device :=
  if !d.active uPORT p then d
  else
    let t := d.ptx p
    if t.cur.isNone && x.goose.isNone then d.setPtx p { t with cur := some (x, alarm) }
    else d.setPtx p (if alarm then { t with alarm := t.alarm ++ [x] } else { t with stream := t.stream ++ [x] })

/-- A port that is no longer ACTIVE sends none of the frames it has queued (R230, log entry 91); the one in transmission completes where the link is
up. A client's segment among those lost is to be sent again. -/
def Device.portQuiet (d : Device) (p : Nat) : Device :=
  if d.active uPORT p then d
  else
    let t := d.ptx p
    let cur := if d.fb ETH_STATUS.LINK p then t.cur else none
    let lost := (t.alarm ++ t.stream).filterMap (·.seg) ++ (match cur, t.cur with | none, some x => x.1.seg.toList | _, _ => [])
    let d1 := d.setPtx p ⟨cur, [], []⟩
    { d1 with egr := { d1.egr with conns := d1.egr.conns.map (fun c => if lost.contains c.1 then (c.1, { c.2 with queued := false, again := true }) else c) } }

/-- Transmission stops on every port: frames in progress and queued are not sent (R377, R493). -/
def Device.txStopAll (d : Device) : Device := { d with egr := { d.egr with tx := [] } }

/-- The lowest-numbered ACTIVE port of a mask (R72, R253, R344). -/
def Device.lowestPort (d : Device) (mask : Nat) : Option Nat :=
  (List.range 8).find? (fun p => mask / 2 ^ p % 2 = 1 && d.active uPORT p)

/-- The MAC a unicast peer is reached through from a port. The spec leaves address resolution to the firmware (log entry 26). -/
def Device.peerMac (_d : Device) (p : Nat) (ip : List Byte) : Nat := (Config.peerMac p (beNat ip)).toNat

/-- A UDP datagram from a port as a frame. -/
def Device.udpFrame (d : Device) (p dmac : Nat) (tag : Option Nat) (dst : List Byte) (sport dport : Nat) (body : List Byte) : List Byte :=
  let src := d.portIp p (decide (dst.length = 16))
  ethBuild dmac (d.portMac p) tag (ipEtype dst) (ipBuild src dst 17 0 (udpBuild src dst sport dport body))

end Sys2Proof.Machine
end

