-- ==== Sys2Proof/Machine/Timekeeper.lean ====
section
/-!
DEFINITION. The Timekeeper (spec/11, R317 to R341): device time and its ticks, sources and selection, states, offsets, steps,
time quality, UTC and leap seconds, IRIG-B, 1PPS, and the PTP clock. IEEE 1588 and IRIG-B message layouts stand outside the
spec (log entries 20 and 21).
-/
namespace Sys2Proof.Machine

/-- Ticks of CLK_TK in a second (R317). -/
def tkPerSec : Nat := 128000000
/-- The nominal increment, 7.8125 ns (R317). -/
def tkNominal : Nat := 33554432000
def stFREERUN : Nat := 0
def stACQUIRING : Nat := 1
def stLOCKED : Nat := 2
def stHOLDOVER : Nat := 3
def srcPTP : Nat := 1
def srcIRIG : Nat := 2
def srcPPS : Nat := 3
def tkPortInit : PtpPort := ⟨[], none, none, none, none, none, none, 0, 0, 0, 0, [], [], 0#32, 0#32, none⟩
def Device.setTk (d : Device) (t : Tk) : Device := { d with tk := t }
def Device.tkState (d : Device) : Nat := d.f TK_STAT.STATE
def Device.tkSrc (d : Device) (k : Nat) : TkSrc := mgetD d.tk.srcs k ⟨none, false, 0, none⟩
def Device.setSrc (d : Device) (k : Nat) (s : TkSrc) : Device := d.setTk { d.tk with srcs := mset d.tk.srcs k s }
def Device.ptp (d : Device) (p : Nat) : PtpPort := mgetD d.tk.ports p tkPortInit
def Device.setPtp (d : Device) (p : Nat) (x : PtpPort) : Device := d.setTk { d.tk with ports := mset d.tk.ports p x }
/-- Whole seconds counted in ticks. -/
def tkSecs (ticks : Nat) : Nat := ticks / tkPerSec

/-! The error estimate and time quality (R333 to R336). -/

/-- Bounds of IEEE 1588 clockAccuracy codes 0x17 to 0x30, in tenths of a ps (log entry 20). -/
def accBounds : List Nat :=
  [10, 25, 100, 250, 1000, 2500, 10000, 25000, 100000, 250000, 1000000, 2500000, 10000000, 25000000, 100000000, 250000000, 1000000000,
   2500000000, 10000000000, 25000000000, 100000000000, 250000000000, 1000000000000, 2500000000000, 10000000000000, 100000000000000]
/-- The bound of a code, in 2^-32 ns; none where it has none. -/
def accBound (c : Nat) : Option Nat :=
  if c < 0x17 ∨ c > 0x30 then none else some (accBounds.getD (c - 0x17) 0 * Time.nsU / 10000)
/-- The smallest code whose bound is at least E (R326). -/
def accCode (e : Option Nat) : Nat :=
  match e with
  | none => 0xFE
  | some v => match accBounds.findIdx? (fun b => decide (b * Time.nsU / 10000 ≥ v)) with
    | some i => 0x17 + i
    | none => 0x31
/-- The bound of an IEEE 1344 or C37.118 time-quality code c: 10^(c - 10) s; code 0 has no stated error. -/
def tqBound (c : Nat) : Option Nat :=
  if c = 0 then some 0 else if c ≤ 11 then some (Time.nsU * 10 ^ c / 10) else none

/-- E_src of the selected source (R333). -/
def Device.eSrc (d : Device) : Option Nat :=
  match d.f TK_STAT.SEL with
  | 1 => match d.tk.parent with
    | some (_, a) => match a.inacc with
      | some n => some (n * Time.nsU)
      | none => accBound a.acc
    | none => none
  | 2 => if d.fb TK_IRIG.IEEE1344 then tqBound d.tk.irigTq else some (1000 * Time.nsU)
  | 3 => some (d.f TK_PPS.ACC_NS * Time.nsU)
  | _ => none

/-- E in 2^-32 ns; none when unbounded (R333). -/
def Device.tkE (d : Device) : Option Nat :=
  match d.tkState with
  | 0 => none
  | 3 => d.tk.lossE.map (fun e => e + max 1 (d.f TK_HOLD.HOLD_PPB) * ((d.tk.ticks - d.tk.lossAt) * tkNominal) / 1000000000)
  | _ => d.eSrc.map (fun e => e + d.tk.ofs.natAbs)

/-- TK_EST: E in whole nanoseconds, rounded up. -/
def Device.tkEst (d : Device) : Nat :=
  match d.tkE with
  | none => 4294967295
  | some e => min 4294967295 ((e + Time.nsU - 1) / Time.nsU)

/-- The time-quality code (R334). -/
def Device.tkCode (d : Device) : Nat :=
  match d.tkE with
  | none => 15
  | some e =>
    if d.tkState = stLOCKED ∧ e ≤ d.f TK_HOLD.TQ0_NS * Time.nsU then 0
    else match (List.range 11).find? (fun i => decide (e * 10 ≤ Time.nsU * 10 ^ (i + 1))) with
      | some i => i + 1
      | none => 15

/-- UNLOCK (R336). -/
def Device.tkUnlock (d : Device) : Nat :=
  if d.tkState = stLOCKED then 0
  else match d.tk.leftAt with
    | none => 3
    | some t =>
      let s := tkSecs (d.tk.ticks - t)
      if s < 10 then 0 else if s < 100 then 1 else if s < 1000 then 2 else 3

/-- Bring SYNC and the time-quality code up to date (R334, R335). -/
def Device.tkRefresh (d : Device) : Device :=
  let keep := match d.tkE with
    | none => false
    | some e => d.fb TK_STAT.SYNC && decide (e ≤ d.f TK_LIMITS.SYNC_NS * Time.nsU)
  let sync := d.tkState = stLOCKED ∨ keep = true
  (d.setf TK_STAT.SYNC (b2n (decide sync))).setf TK_STAT.TQ d.tkCode

/-- TAI second, whole nanosecond and sub-nanosecond from a signed span: floor. -/
def floorNs (v : Int) : Int := v / (Time.nsU : Int)
/-- A number saturated to int32. -/
def satI32 (v : Int) : Int := max (-2147483648) (min 2147483647 v)

/-! UTC and leaps (R331, R332). -/

/-- The offset in force and where it came from: 1 PTP, 0 host. -/
def Device.utcOffset (d : Device) : Int × Nat :=
  match (if d.f TK_STAT.SEL = srcPTP then d.tk.ptpUtc else none) with
  | some (o, _) => (o, 1)
  | none => (s16 (d.f TK_UTC.OFFSET), 0)
/-- The pending leap in force (1 insert, 2 delete) and where it came from. -/
def Device.utcLeap (d : Device) : Nat × Nat :=
  if d.tk.leapTaken then (0, d.utcOffset.2)
  else match (if d.f TK_STAT.SEL = srcPTP then d.tk.ptpUtc else none) with
    | some (_, l) => (l, 1)
    | none =>
      if d.f TK_STAT.SEL = srcIRIG ∧ d.fb TK_IRIG.IEEE1344 = true ∧ d.tk.irigLeap ≠ 0 then (d.tk.irigLeap, 2)
      else (d.f TK_UTC.LEAP, 0)

/-- The UTC second count of a TAI second under an offset. -/
def utcSec (tai : Nat) (o : Int) : Nat := ((tai : Int) - o).toNat
/-- Note the UTC day a pending leap applies to, when it becomes pending (R331). -/
def Device.leapNote (d : Device) : Device :=
  if d.utcLeap.1 = 0 then d.setTk { d.tk with leapDay := none }
  else match d.tk.leapDay with
    | some _ => d
    | none => d.setTk { d.tk with leapDay := some ((utcSec (Time.secOf d.tk.now) d.utcOffset.1 / 86400 + 1) * 86400) }

/-- The offset after a leap. -/
def leapAfter (o : Int) (ins : Bool) : Int := if ins then o + 1 else o - 1
/-- The leap that bears on times near it: the UTC second at the start of the day after it, the offset before it, insertion. The last leap
applied keeps its TAI instant under whatever offset is in force (R332). -/
def Device.nearLeap (d : Device) : Option (Nat × Int × Bool) :=
  match d.tk.leapDay with
  | some e => some (e, d.utcOffset.1, d.utcLeap.1 = 1)
  | none => d.tk.lastLeap.map (fun l =>
      (((l.1 : Int) + leapAfter l.2.1 l.2.2 - d.utcOffset.1).toNat, if l.2.2 then d.utcOffset.1 - 1 else d.utcOffset.1 + 1, l.2.2))

/-- TAI seconds of a C37.118 second-of-century under the leap flags of FRACSEC (bit 2 deletion, bit 1 occurred, bit 0 pending),
or none where the flags leave it ambiguous (R67). -/
def Device.taiOfSoc (d : Device) (soc flags : Nat) : Option Nat :=
  match d.nearLeap with
  | none => some ((soc : Int) + d.utcOffset.1).toNat
  | some (e, o, ins) =>
    let after : Int := if ins then o + 1 else o - 1
    if soc ≥ e then some ((soc : Int) + after).toNat
    else if ins ∧ soc + 1 = e then
      if flags % 4 = 2 then some ((soc : Int) + o + 1).toNat
      else if flags % 4 = 1 then some ((soc : Int) + o).toNat
      else none
    else some ((soc : Int) + o).toNat

/-- Second-of-century and FRACSEC bits 30:28 of a TAI second in frames the device builds (R332). -/
def Device.socOf (d : Device) (tai : Nat) : Nat × Nat :=
  match d.nearLeap with
  | none => (utcSec tai d.utcOffset.1, 0)
  | some (e, o, ins) =>
    let after : Int := if ins then o + 1 else o - 1
    let first : Nat := ((e : Int) + after).toNat
    let del := if ins then 0 else 4
    if tai ≥ first then (utcSec tai after, if tai < first + 86400 then del + 2 else 0)
    else if ins ∧ tai + 1 = first then (e - 1, 2)
    else (utcSec tai o, if tai + 60 ≥ (if ins then first - 1 else first) then del + 1 else 0)

/-! The counter, its increment and its steps. -/

/-- Put an increment in force, keeping the log of the last 60 s. -/
def Device.setInc (d : Device) (i : Nat) : Device :=
  if i = d.tk.inc then d
  else d.setTk { d.tk with inc := i, incLog := (d.tk.ticks, i) :: d.tk.incLog }

/-- Sum of increments over ticks [from, to) of a log, newest first. -/
def incSum (log : List (Nat × Nat)) (from_ to_ : Nat) : Nat :=
  match log with
  | [] => 0
  | (t, i) :: r => i * (to_ - max t from_) + incSum r from_ (min to_ t)
/-- The mean increment over the last 60 s (R322). -/
def Device.meanInc (d : Device) : Nat :=
  let a := d.tk.ticks - 60 * tkPerSec
  if d.tk.ticks ≤ a then d.tk.inc else incSum d.tk.incLog a d.tk.ticks / (d.tk.ticks - a)

/-- Change STATE and raise EV_TK_STATE (R322). `e` is E before the change. -/
def Device.tkEnter (d : Device) (st : Nat) (e : Option Nat) : Device :=
  if st = d.tkState then d
  else
    let old := d.tkState
    let d1 := if old = stLOCKED then d.setTk { d.tk with leftAt := some d.tk.ticks } else d
    let d2 := d1.setTk { d1.tk with
      fromFree := if st = stACQUIRING then old = stFREERUN else d1.tk.fromFree, inLimit := none,
      lossE := if st = stHOLDOVER then e else d1.tk.lossE, lossAt := if st = stHOLDOVER then d1.tk.ticks else d1.tk.lossAt,
      followed := if st = stLOCKED then d1.f TK_STAT.SEL else d1.tk.followed }
    let d3 := if st = stHOLDOVER then (d2.setTk { d2.tk with held := d2.meanInc }).setInc d2.meanInc
      else if st = stFREERUN then d2.setInc d2.tk.held else d2
    let d4 := (d3.setf TK_STAT.STATE st).tkRefresh
    let d5 := d4.setf TK_STAT.UNLOCK d4.tkUnlock
    d5.raise EV_TK_STATE [old, st, d5.tkEst]

/-- The qualified source that stands earliest in TK_CTL; 0 is none (R321). -/
def Device.tkBest (d : Device) : Nat :=
  (([d.f TK_CTL.FIRST, d.f TK_CTL.SECOND, d.f TK_CTL.THIRD].find? (fun s => s ≠ 0 && (d.tkSrc s).qual))).getD 0

/-- Select the source and move between states accordingly (R321, R322). -/
def Device.tkSelect (d : Device) : Device :=
  let old := d.f TK_STAT.SEL
  let new := d.tkBest
  let e := d.tkE
  let d1 := if new = old then d
    else (((d.setf TK_STAT.SEL new).count TK_SRC_SWITCH).raise EV_TK_SRC [old, new])

  let d2 := if d1.fb TK_CTL.MANUAL then d1.tkEnter stFREERUN e
    else if new ≠ 0 then
      if d1.tkState = stFREERUN ∨ d1.tkState = stHOLDOVER ∨ (d1.tkState = stLOCKED ∧ new ≠ old) then d1.tkEnter stACQUIRING e
      else if new ≠ old then d1.setTk { d1.tk with inLimit := none } else d1
    else match d1.tkState with
      | 1 => d1.tkEnter (if d1.tk.fromFree then stFREERUN else stHOLDOVER) e
      | 2 => d1.tkEnter stHOLDOVER e
      | _ => d1
  d2.leapNote.tkRefresh

/-- A source becomes valid now, unless it is so already. -/
def Device.srcValid (d : Device) (k : Nat) : Device :=
  let s := d.tkSrc k
  d.setSrc k { s with since := some (s.since.getD d.tk.ticks) }
/-- A source is lost (R321). -/
def Device.srcLost (d : Device) (k : Nat) : Device := (d.setSrc k ⟨none, false, 0, none⟩).tkSelect

/-- An offset is measured on a source: step, slew and lock (R322, R323). -/
def Device.tkOffset (d : Device) (k : Nat) (o : Int) : Device :=
  if d.f TK_STAT.SEL ≠ k ∨ ¬ (d.tkState = stACQUIRING ∨ d.tkState = stLOCKED) then d
  else
    let d1 := (d.setTk { d.tk with ofs := o }).setf TK_OFS.OFS (i32 (satI32 (floorNs o))).toNat
    let lim := decide (o.natAbs ≤ d.f TK_LIMITS.LOCK_NS * Time.nsU)
    if decide (o.natAbs > d.f TK_STEP_THR.STEP_NS * Time.nsU) && (d.tk.fromFree && d.tkState = stACQUIRING || d.pwr.mode = .warmup || d.fb TK_CTL.STEP_EN)
    then (d1.setTk { d1.tk with step := some (-o, 0), inLimit := none }).tkRefresh
    else
      let bound := d.tk.held * d.f TK_SERVO.SLEW_PPB / 1000000000
      let free := (Config.freeWord d.free).toNat % (2 * bound + 1)
      let d2 := (d1.setTk { d1.tk with inLimit := if lim then some (d1.tk.inLimit.getD d1.tk.ticks) else none }).setInc (d.tk.held - bound + free)
      let d3 := { d2 with free := d2.free + 1 }
      match d3.tk.inLimit with
      | some t =>
        if d3.tkState = stACQUIRING ∧ d3.tk.ticks - t ≥ d3.f TK_SERVO.LOCK_S * tkPerSec then (d3.tkEnter stLOCKED d3.tkE).tkRefresh
        else d3.tkRefresh
      | none => d3.tkRefresh

/-- Device time has stepped by `v`: a leap that was pending applies to the day it is pending on now, but where a step of less than a day forward
has passed the end of its day, which applies it (R331, DEDUCED, log entry 92). -/
def Device.leapRenew (d : Device) (v : Int) : Device :=
  if 0 ≤ v ∧ v < (86400 * Time.secU : Nat) then d else (d.setTk { d.tk with leapDay := none }).leapNote
/-- Apply a step to device time at a tick boundary: counted, recorded and journaled (R323, R324). -/
def Device.tkStep (d : Device) (v : Int) (cause : Nat) : Device :=
  let s := v / (Time.secU : Int)
  let n := floorNs (v - s * (Time.secU : Int))
  let d1 := (d.setTk { d.tk with now := ((d.tk.now : Int) + v).toNat, step := none }).leapRenew v
  ((d1.count TK_STEPS).raise EV_TK_STEP [(i32 s).toNat, (i32 n).toNat, cause]).journalW 0x18 0 d1.now [i32 s, i32 n]

/-- Stride firmware takes the oldest entry with an identifier of its own, in its own time: whether it does so now is a free value (R329,
log entry 82). -/
def Device.strideTakes (d : Device) (p : Nat) : Device :=
  let x := d.ptp p
  if x.txq.isEmpty then d
  else
    let d1 := if bit (Config.freeWord d.free) 0 then d.setPtp p { x with txq := x.txq.drop 1 } else d
    { d1 with free := d1.free + 1 }

/-- One CLK_TK tick (R317), with the microsecond tick's count of a standing refused offer (R226) and the firmware's
reads of the transmit time-stamp queues. -/
def clkTkTick (d : Device) : Device :=
  if !d.alive then d
  else
    let old := d.tk.now
    let keep := 61 * tkPerSec
    let t := d.tk
    let log := t.incLog.takeWhile (fun e => decide (e.1 + keep > t.ticks))
    let rest := t.incLog.drop log.length
    let d1 := d.setTk { t with now := t.now + t.inc, ticks := t.ticks + 1, incLog := log ++ rest.take 1 }
    let d2 := match d1.tk.step with
      | some (v, c) => d1.tkStep v c
      | none => d1
    if d2.tk.now / Time.usU = old / Time.usU then d2
    else
      let d3 := (List.range 8).foldl (fun x p => x.strideTakes p) { d2 with srt := { d2.srt with spent := 0 } }
      if d3.srt.refused then d3.count SRT_REL_STALL_US else d3

/-! Register writes of the block (R320, R324, R325, R331). -/

/-- TK_CTL: a source named twice is refused; MANUAL puts the last manual increment in force. -/
def tkCtlWrite (v : Word) (d : Device) : Device :=
  let f := bx v 5 4
  let s := bx v 3 2
  let t := bx v 1 0
  if (f ≠ 0 ∧ (f = s ∨ f = t)) ∨ (s ≠ 0 ∧ s = t) then d.err TK_STAT.ERR TK_STAT.ECODE 1
  else
    let d1 := d.wr TK_CTL 0 (v &&& 0xC000003F#32)
    let d2 := if d1.fb TK_CTL.MANUAL && !d.fb TK_CTL.MANUAL then (d1.tkSelect).setInc d1.tk.manual else d1.tkSelect
    d2

/-- TK_INC_FRAC (R320). -/
def tkIncFracWrite (v : Word) (d : Device) : Device :=
  if !d.alive then d
  else if !d.fb TK_CTL.MANUAL || d.tk.intW ≠ 7 || decide (v.toNat < 0xCE000000) || decide (v.toNat > 0xD2000000) then
    d.err TK_STAT.ERR TK_STAT.ECODE 3
  else
    let i := d.tk.intW * 4294967296 + v.toNat
    ((d.wr TK_INC_FRAC 0 v).setTk { d.tk with manual := i, held := i }).setInc i

/-- TK_CMD (R324). -/
def tkCmdWrite (v : Word) (d : Device) : Device :=
  if !d.alive then d
  else if bx v 31 28 ≠ 1 then d.err TK_STAT.ERR TK_STAT.ECODE 4
  else
    let ns := s32 (d.rg TK_STEP_NS 0)
    let dv : Int := s32 (d.rg TK_STEP_SEC 0) * (Time.secU : Int) + ns * (Time.nsU : Int)
    let target : Int := (d.tk.now : Int) + d.tk.inc + dv
    if d.tkState = stACQUIRING ∨ d.tkState = stLOCKED ∨ ns.natAbs > 999999999 ∨ target < 0 ∨ target ≥ (2 ^ 48 * Time.secU : Nat)
    then d.err TK_STAT.ERR TK_STAT.ECODE 2
    else d.setTk { d.tk with step := some (dv, 1) }

/-- TK_UTC: LEAP 0b11 is reserved and the write ignored. -/
def tkUtcWrite (v : Word) (d : Device) : Device :=
  if bx v 31 30 = 3 then d
  else ((d.wr TK_UTC 0 (v &&& 0xC000FFFF#32)).setTk { d.tk with leapTaken := false, utcHost := true }).leapNote

/-- Some port has PTP enabled. -/
def Device.ptpAny (d : Device) : Bool := (List.range 8).any (fun p => d.fb ETH_PTP_CFG.EN p)
/-- The profile's domain (Table 11.3). -/
def profDomain (p : Nat) : Nat := if p = 1 then 254 else 0
/-- TK_PTP: refused while a port has PTP enabled; a new PROFILE loads its domain. -/
def tkPtpWrite (v : Word) (d : Device) : Device :=
  if d.ptpAny then d.err TK_STAT.ERR TK_STAT.ECODE 5
  else if bx v 31 30 = 3 then d
  else
    let w := v &&& 0xF0FFFFFF#32
    d.wr TK_PTP 0 (if bx v 31 30 = d.f TK_PTP.PROFILE then w else bset w 23 16 (profDomain (bx v 31 30)))

/-- An int8 field. -/
def s8 (n : Nat) : Int := if n % 256 ≥ 128 then ((n % 256 : Nat) : Int) - 256 else ((n % 256 : Nat) : Int)
/-- The transport, delay mechanism and ranges of a profile (Table 11.3). -/
def profOk (prof : Nat) (v : Word) : Bool :=
  let ls := s8 (bx v 23 16)
  let la := s8 (bx v 15 8)
  let lp := s8 (bx v 7 0)
  let e2e := prof = 2
  (bit v 30 = e2e) && (bit v 29 = !e2e) && decide (-4 ≤ ls ∧ ls ≤ 1) && decide (0 ≤ la ∧ la ≤ if e2e then 4 else 2) &&
  decide (0 ≤ lp ∧ lp ≤ if e2e then 5 else 1)

/-! PTP (R325 to R328). -/

/-- The clock identity (R325) and a port identity, as numbers of 64 and 80 bits. -/
def Device.clockId (d : Device) : Nat :=
  let m := (d.rg ETH_MAC_HI 0).toNat % 65536 * 4294967296 + (d.rg ETH_MAC_LO 0).toNat
  m / 16777216 * 1099511627776 + 0xFFFE * 16777216 + m % 16777216
def Device.portId (d : Device) (p : Nat) : Nat := d.clockId * 65536 + (p + 1)
def Device.pstate (d : Device) (p : Nat) : Nat := d.f ETH_PTP_STAT.PSTATE p
def psDISABLED : Nat := 0
def psLISTENING : Nat := 1
def psMASTER : Nat := 2
def psPASSIVE : Nat := 3
def psUNCAL : Nat := 4
def psSLAVE : Nat := 5

/-- The device's own clock class (R326). -/
def Device.ownClass (d : Device) : Nat :=
  match d.tkState with
  | 2 => 6
  | 3 => if d.fb TK_STAT.SYNC then 7 else 187
  | _ => 248
/-- The device's own timeSource (R326). -/
def Device.ownTimeSource (d : Device) : Nat :=
  if d.tkState = stFREERUN then 0xA0
  else match d.tk.followed with
    | 1 => 0x40 | 2 => 0x39 | 3 => 0x90 | _ => 0xA0
/-- The clock class of the device's own data set: a slave-only clock has class 255 (IEEE 1588), and a clock that follows PTP is no
grandmaster, so the classes of R326 do not stand for it (DEDUCED, log entry 81). -/
def Device.ownSetClass (d : Device) : Nat :=
  if d.fb TK_PTP.SLAVE_ONLY then 255 else if d.f TK_STAT.SEL = srcPTP then 248 else d.ownClass
/-- The device's own data set, as an Announce from itself. -/
def Device.ownData (d : Device) : Announce :=
  { sender := d.clockId * 65536, prio1 := d.f TK_PTP.PRIO1, cls := d.ownSetClass,
    acc := accCode d.tkE, var := 0xFFFF, prio2 := d.f TK_PTP.PRIO2, gm := d.clockId, steps := 0, utcOfs := d.utcOffset.1,
    utcValid := true, leap := d.utcLeap.1, timeSrc := d.ownTimeSource, inacc := none, rxAt := d.tk.ticks }

/-- Lexicographic comparison of equally long lists of numbers. -/
def lexLt : List Nat → List Nat → Bool
  | a :: r, b :: s => decide (a < b) || (a = b && lexLt r s)
  | _, _ => false
/-- Data set `a` is better than `b` (IEEE 1588-2019, data set comparison), received on ports with identities `pa` and `pb`. -/
def annBetter (a b : Announce) (pa pb : Nat) : Bool :=
  if a.gm ≠ b.gm then lexLt [a.prio1, a.cls, a.acc, a.var, a.prio2, a.gm] [b.prio1, b.cls, b.acc, b.var, b.prio2, b.gm]
  else lexLt [a.steps, a.sender, pa] [b.steps, b.sender, pb]
/-- The better data set `a` is better only by topology than `b`, received on a port with identity `pb` (IEEE 1588-2019): the same
grandmaster, at as many steps, or at one step less where the receiver of `b` is above its sender. -/
def annByTopology (a b : Announce) (pb : Nat) : Bool :=
  decide (a.gm = b.gm) && (decide (a.steps = b.steps) || (decide (a.steps + 1 = b.steps) && decide (b.sender < pb)))

/-- The announce interval of a port in ticks. -/
def Device.annTicks (d : Device) (p : Nat) : Nat := tkPerSec * 2 ^ d.f ETH_PTP_CFG.LOG_ANN p
/-- The best qualified foreign master of a port: two Announces within four intervals, none older than three (IEEE 1588). A
MASTER_ONLY port has none. -/
def Device.erBest (d : Device) (p : Nat) : Option Announce :=
  if !d.fb ETH_PTP_CFG.EN p || d.fb ETH_PTP_CFG.MASTER_ONLY p then none
  else ((d.ptp p).foreign.filterMap (fun f => match f.prevAt with
      | some t => if f.ann.rxAt - t ≤ 4 * d.annTicks p ∧ d.tk.ticks - f.ann.rxAt < 3 * d.annTicks p ∧ f.ann.steps < 255
                  then some f.ann else none
      | none => none)).foldl (fun b a => match b with
      | none => some a
      | some x => if annBetter a x 0 0 then some a else some x) none
/-- The best of all ports, with its port. -/
def Device.eBest (d : Device) : Option (Nat × Announce) :=
  (List.range 8).foldl (fun b p => match d.erBest p with
    | none => b
    | some a => match b with
      | none => some (p, a)
      | some (q, x) => if annBetter a x (d.portId p) (d.portId q) then some (p, a) else b) none

/-- The state a port takes by the state decision algorithm (IEEE 1588-2019), and by R325 for slave-only clocks. A listening port that hears no
master goes on listening. -/
def Device.bmcaState (d : Device) (best : Option (Nat × Announce)) (p : Nat) : Nat :=
  if !d.fb ETH_PTP_CFG.EN p then psDISABLED
  else
    let own := d.ownData
    let slave := if d.pstate p = psSLAVE ∧ (d.tk.parent.map (·.2.sender)) = (best.map (·.2.sender)) then psSLAVE else psUNCAL
    if d.fb TK_PTP.SLAVE_ONLY then
      match best with
      | some (q, _) => if q = p then slave else psLISTENING
      | none => psLISTENING
    else if d.pstate p = psLISTENING ∧ (d.erBest p).isNone then psLISTENING
    else match best with
      | none => psMASTER
      | some (q, a) =>
        if own.cls < 128 then
          match d.erBest p with
          | some x => if annBetter own x 0 0 then psMASTER else psPASSIVE
          | none => psMASTER
        else if annBetter own a 0 0 then psMASTER
        else if q = p then slave
        else match d.erBest p with
          | some x => if annByTopology a x (d.portId p) then psPASSIVE else psMASTER
          | none => psMASTER

/-- Run the best master clock algorithm: port states, the parent, the PTP source's validity and UTC (R321, R325, R331). -/
def Device.bmca (d : Device) : Device :=
  let best := d.eBest
  let sts := (List.range 8).map (fun p => d.bmcaState best p)
  let d1 := sts.zipIdx.foldl (fun x e => x.setf ETH_PTP_STAT.PSTATE e.1 e.2) d
  let par := match best with
    | some (q, a) => if sts.getD q 0 = psSLAVE ∨ sts.getD q 0 = psUNCAL then some (q, a) else none
    | none => none
  let utc := match par with
    | some (_, a) => if a.utcValid then some (a.utcOfs, a.leap) else none
    | none => none
  let clear := match utc with
    | some (_, 0) => false
    | _ => d1.tk.leapTaken
  let ok := match par with
    | some (q, a) => sts.getD q 0 = psSLAVE && decide (a.cls ≤ 7)
    | none => false
  -- the loss is taken with E as the parent left it (R333)
  let d2 := if ok then d1.srcValid srcPTP else if (d1.tkSrc srcPTP).since.isSome then d1.srcLost srcPTP else d1
  (d2.setTk { d2.tk with parent := par, ptpUtc := utc, leapTaken := clear }).leapNote.tkRefresh

/-- ETH_PTP_CFG: a configuration that breaks the profile is ignored as a whole (R325). -/
def ethPtpCfgWrite (p : Nat) (v : Word) (d : Device) : Device :=
  if !profOk (d.f TK_PTP.PROFILE) v then d.setf ETH_PTP_STAT.CFG_ERR 1 p
  else
    let was := d.fb ETH_PTP_CFG.EN p
    let d1 := d.wr ETH_PTP_CFG p (v &&& 0xF8FFFFFF#32)
    let x := d1.ptp p
    let d2 := if was = bit v 31 then d1
      else (d1.setPtp p { tkPortInit with txq := x.txq, latchNs := x.latchNs, latchSec := x.latchSec, ovfSec := x.ovfSec }).setf
        ETH_PTP_STAT.PSTATE (if bit v 31 then psLISTENING else psDISABLED) p
    d2.bmca

/-- A 1588 correction field as a signed span in 2^-32 ns. -/
def corrOf (m : List Byte) : Int :=
  let n := beNat (slice m 8 8)
  (if n ≥ 2 ^ 63 then (n : Int) - 2 ^ 64 else (n : Int)) * 65536
/-- A span as a correction field. -/
def corrBytes (v : Int) : List Byte := beBytes 8 ((v / 65536) % (2 ^ 64 : Int)).toNat
/-- A 10-octet timestamp as a device time. -/
def stampOf (b : List Byte) : Time := beNat (slice b 0 6) * Time.secU + beNat (slice b 6 4) * Time.nsU
def stampBytes (t : Time) : List Byte := beBytes 6 (Time.secOf t) ++ beBytes 4 (Time.nsOf t)

/-- A PTP message: the common header of IEEE 1588 and a body. -/
def Device.ptpMsg (d : Device) (p typ flags : Nat) (corr : Int) (seq log : Nat) (body : List Byte) : List Byte :=
  [BitVec.ofNat 8 typ, 0x12#8] ++ beBytes 2 (34 + body.length) ++ [BitVec.ofNat 8 (d.f TK_PTP.DOMAIN), 0#8] ++ beBytes 2 flags ++
  corrBytes corr ++ beBytes 4 0 ++ beBytes 8 d.clockId ++ beBytes 2 (p + 1) ++ beBytes 2 seq ++
  [BitVec.ofNat 8 (if typ = 0 then 0 else if typ = 1 then 1 else if typ = 8 then 2 else if typ = 9 then 3 else 5), BitVec.ofNat 8 log] ++ body
/-- Send a PTP message on a port's stream queue (R258), where the port is ACTIVE (R230): over Ethernet or IPv4 as ETH_PTP_CFG.UDP says, to the
address of its type, with a time-stamp request or a one-step completion where it asks for one. -/
def Device.ptpSend (d : Device) (p : Nat) (m : List Byte) (ident : Option Nat := none) (fix : Nat := 0) (rx : Time := 0) : Device :=
  if !d.mayPtp || !d.active uPORT p then d
  else
    let typ := beNat (slice m 0 1) % 16
    let peer := typ = 2 ∨ typ = 3 ∨ typ = 10
    let item (b : List Byte) (ofs : Nat) : TxItem := ⟨b, ident, fix, ofs, rx, none, none⟩
    let d1 :=
      if d.fb ETH_PTP_CFG.UDP p then
        let dst := beBytes 4 (if peer then 0xE000006B else 0xE0000181)
        let port := if typ < 8 then 319 else 320
        d.txPush p false (item (d.udpFrame p (groupMac dst) none dst port port m) 42)
      else
        d.txPush p false (item (ethBuild (if peer then 0x0180C200000E else 0x011B19000000) (d.portMac p) none 0x88F7 m) 14)
    d1.count TK_PTP_TX

/-- The TLVs of octets: type and whole TLV. -/
def ptpTlvs (fuel : Nat) (b : List Byte) : List (Nat × List Byte) :=
  match fuel with
  | 0 => []
  | n + 1 =>
    if b.length < 4 then []
    else let l := 4 + beNat (slice b 2 2); (beNat (slice b 0 2), b.take l) :: ptpTlvs n (b.drop l)
/-- The TLVs that follow a message's body of `n` octets, within messageLength. -/
def tlvsOf (m : List Byte) (n : Nat) : List (Nat × List Byte) := let t := (m.take (beNat (slice m 2 2))).drop n; ptpTlvs t.length t
/-- The total time inaccuracy of a C37.238 profile TLV (R333). -/
def profInacc (m : List Byte) : Option Nat :=
  ((tlvsOf m 64).find? (fun t => decide (t.1 = 3) && decide (beNat (slice t.2 4 6) = 0x1C129D000002))).map (fun t => beNat (slice t.2 16 4))
/-- An Announce as it stands in a message; `prof` where the profile accepts the profile TLV (Table 11.3). -/
def annOf (prof : Bool) (m : List Byte) (ticks : Nat) : Announce :=
  let fl := beNat (slice m 6 2)
  { sender := beNat (slice m 20 10), prio1 := beNat (slice m 47 1), cls := beNat (slice m 48 1), acc := beNat (slice m 49 1),
    var := beNat (slice m 50 2), prio2 := beNat (slice m 52 1), gm := beNat (slice m 53 8), steps := beNat (slice m 61 2),
    utcOfs := s16 (beNat (slice m 44 2)), utcValid := fl / 4 % 2 = 1, leap := if fl % 2 = 1 then 1 else if fl / 2 % 2 = 1 then 2 else 0,
    timeSrc := beNat (slice m 63 1), inacc := if prof then profInacc m else none, rxAt := ticks }
/-- The body of an Announce. -/
def annBody (a : Announce) : List Byte :=
  beBytes 10 0 ++ beBytes 2 ((a.utcOfs % 65536).toNat) ++ [0#8] ++ beBytes 1 a.prio1 ++ beBytes 1 a.cls ++ beBytes 1 a.acc ++
  beBytes 2 a.var ++ beBytes 1 a.prio2 ++ beBytes 8 a.gm ++ beBytes 2 a.steps ++ beBytes 1 a.timeSrc
/-- What the device announces: its own data, or as a boundary clock its parent's (R326). -/
def Device.announced (d : Device) : Announce :=
  match (if d.fb TK_PTP.BC then d.tk.parent else none) with
  | some (_, a) => { a with steps := a.steps + 1 }
  | none => { d.ownData with cls := d.ownClass }

/-- Enter an Announce in a port's foreign master list. -/
def foreignPut (l : List Foreign) (a : Announce) : List Foreign :=
  match l with
  | [] => [⟨a, none⟩]
  | f :: r => if f.ann.sender = a.sender then ⟨a, some f.ann.rxAt⟩ :: r else f :: foreignPut r a

/-- A Sync's offset is known: device time less origin, mean delay and corrections (R323). -/
def Device.ptpOffset (d : Device) (p : Nat) (origin : Time) (corr : Int) (rx : Time) : Device :=
  let x := d.ptp p
  let d1 := d.setPtp p { x with lastSync := some (origin, corr, rx) }
  match x.delay with
  | none => d1
  | some dl =>
    let o : Int := (rx : Int) - (origin : Int) - corr - dl
    let d2 := if d1.pstate p = psUNCAL then (d1.setf ETH_PTP_STAT.PSTATE psSLAVE p).bmca else d1
    d2.tkOffset srcPTP o

/-- A path or link delay is measured. -/
def Device.ptpDelay (d : Device) (p : Nat) (v : Int) : Device :=
  let x := d.ptp p
  (d.setPtp p { x with delay := some v }).setf ETH_PTP_DELAY.DELAY (i32 (satI32 (floorNs v))).toNat p

/-- Send a response to a Pdelay_Req (type 2) or Delay_Req (type 1) received at `rx`. -/
def Device.ptpRespond (d : Device) (p : Nat) (m : List Byte) (rx : Time) : Device :=
  let seq := beNat (slice m 30 2)
  let req := slice m 20 10
  if beNat (slice m 0 1) % 16 = 1 then
    d.ptpSend p (d.ptpMsg p 9 0 (corrOf m - (Time.subOf rx : Int)) seq (d.f ETH_PTP_CFG.LOG_PDELAY p) (stampBytes rx ++ req))
  else if d.fb ETH_PTP_CFG.ONE_STEP p then
    d.ptpSend p (d.ptpMsg p 3 0 (corrOf m) seq 0x7F (beBytes 10 0 ++ req)) none 2 rx
  else
    let x := d.ptp p
    let d1 := d.setPtp p { x with ident := (x.ident + 1) % 32768, pend := mset x.pend x.ident (3, seq, beNat req, rx, corrOf m) }
    d1.ptpSend p (d1.ptpMsg p 3 0x0200 0 seq 0x7F (stampBytes rx ++ req)) (some x.ident)

/-- A Pdelay exchange is complete: (t4 - t1) - (t3 - t2), halved (P2P). -/
def pdelayOf (t1 t4 t2 t3 : Time) (corr : Int) : Int := (((t4 : Int) - t1) - ((t3 : Int) - t2) - corr) / 2

/-- The least length of each supported message. -/
def ptpMinLen (typ : Nat) : Option Nat :=
  match typ with
  | 0 | 1 | 8 => some 44
  | 2 | 3 | 9 | 10 => some 54
  | 11 => some 64
  | _ => none

/-- A PTP message on an enabled port, whose event stamp is `st` (R325 to R328). -/
def Device.ptpTake (d : Device) (p : Nat) (m : List Byte) (st : Time) : Device :=
  let typ := beNat (slice m 0 1) % 16
  let fl := beNat (slice m 6 2)
  let two_ := fl / 512 % 2 = 1
  let sender := beNat (slice m 20 10)
  let seq := beNat (slice m 30 2)
  let x := d.ptp p
  let me := d.portId p
  let rx : Time := ((st : Int) - s16 (d.f ETH_PTP_LAT.RX_ADJ p) * (Time.nsU : Int)).toNat
  let fromParent := match d.tk.parent with
    | some (q, a) => decide (q = p) && decide (a.sender = sender)
    | none => false
  match typ with
  | 11 => if sender / 65536 = d.clockId then d else (d.setPtp p { x with foreign := foreignPut x.foreign (annOf (decide (d.f TK_PTP.PROFILE = 1)) m d.tk.ticks) }).bmca
  | 0 =>
    if !fromParent then d
    else if two_ then d.setPtp p { x with syncRx := some (seq, rx, corrOf m) }
    else d.ptpOffset p (stampOf (slice m 34 10)) (corrOf m) rx
  | 8 =>
    match x.syncRx with
    | some (s, r, c) =>
      if fromParent && s = seq then (d.setPtp p { x with syncRx := none }).ptpOffset p (stampOf (slice m 34 10)) (c + corrOf m) r
      else d
    | none => d
  | 1 => if d.pstate p = psMASTER then d.ptpRespond p m rx else d
  | 2 => d.ptpRespond p m rx
  | 9 =>
    match x.dreq, x.lastSync with
    | some (s, some t3), some (t1, c, t2) =>
      if fromParent && s = seq && beNat (slice m 44 10) = me then
        let t4 := stampOf (slice m 34 10)
        (d.setPtp p { x with dreq := none }).ptpDelay p ((((t2 : Int) - t1) + ((t4 : Int) - t3) - c - corrOf m) / 2)
      else d
    | _, _ => d
  | 3 =>
    match x.preq with
    | some (s, some t1) =>
      if s = seq && beNat (slice m 44 10) = me then
        if two_ then d.setPtp p { x with presp := some (seq, rx, stampOf (slice m 34 10), corrOf m) }
        else (d.setPtp p { x with preq := none }).ptpDelay p (pdelayOf t1 rx 0 0 (corrOf m))
      else d
    | _ => d
  | 10 =>
    match x.preq, x.presp with
    | some (_, some t1), some (s, t4, t2, c) =>
      if s = seq && beNat (slice m 44 10) = me then
        (d.setPtp p { x with preq := none, presp := none }).ptpDelay p (pdelayOf t1 t4 t2 (stampOf (slice m 34 10)) (c + corrOf m))
      else d
    | _, _ => d
  | _ => d

/-- The message is one the port's profile supports (Table 11.3): no alternate timescale TLV (type 0x0009) follows it. -/
def Device.ptpSupported (d : Device) (p tr : Nat) (m : List Byte) : Bool :=
  let typ := beNat (slice m 0 1) % 16
  let p2p := d.fb ETH_PTP_CFG.P2P p
  d.fb ETH_PTP_CFG.EN p && decide (tr = b2n (d.fb ETH_PTP_CFG.UDP p)) && decide (beNat (slice m 1 1) % 16 = 2) &&
  decide (beNat (slice m 2 2) ≤ m.length) &&
  (match ptpMinLen typ with
   | some n => decide (m.length ≥ n) && !(tlvsOf m n).any (fun t => t.1 = 9) && (if typ = 1 ∨ typ = 9 then !p2p else if typ = 2 ∨ typ = 3 ∨ typ = 10 then p2p else true)
   | none => false)

/-- The Timekeeper takes the oldest PTP message handed to it; `stamp` is the hardware's stamp of its arrival, before the board
correction of ETH_PTP_LAT (R325, R327). -/
def ptpMessageReceived (stamp : Nat) (d : Device) : Device :=
  match d.ing.ptpq with
  | [] => d
  | r :: rest =>
    let d1 := { d with ing := { d.ing with ptpq := rest } }
    if !d1.ptpSupported r.port r.transport r.msg then d1.count TK_PTP_RX_BAD
    else if beNat (slice r.msg 4 1) ≠ d1.f TK_PTP.DOMAIN then d1
    else (d1.count TK_PTP_RX).ptpTake r.port r.msg stamp

/-- No Announce has come within three intervals on a port: none at all, or none of its parent's (R321, R325). -/
def ptpAnnounceTimeout (p : Nat) (d : Device) : Device :=
  if !d.alive || !d.fb ETH_PTP_CFG.EN p then d
  else
    let x := d.ptp p
    let fresh (f : Foreign) : Bool := decide (d.tk.ticks - f.ann.rxAt < 3 * d.annTicks p)
    let orphan : Bool := match d.tk.parent with
      | some (q, a) => decide (q = p) && !x.foreign.any (fun f => fresh f && decide (f.ann.sender = a.sender))
      | none => false
    if x.foreign.any fresh then (if orphan then (d.setPtp p { x with foreign := x.foreign.filter fresh }).bmca else d)
    else
      let d1 := d.setPtp p { x with foreign := [] }
      let d2 := if d1.pstate p = psLISTENING ∧ !d1.fb TK_PTP.SLAVE_ONLY = true then d1.setf ETH_PTP_STAT.PSTATE psMASTER p else d1
      d2.bmca

/-- A port's interval expires and it sends: 0 Sync, 1 Announce, 2 Pdelay_Req or Delay_Req (R326, R328). -/
def ptpTransmit (p kind : Nat) (d : Device) : Device :=
  if !d.mayPtp || !d.fb ETH_PTP_CFG.EN p then d
  else
    let x := d.ptp p
    match kind with
    | 0 =>
      if d.pstate p ≠ psMASTER then d
      else if d.fb ETH_PTP_CFG.ONE_STEP p then
        (d.setPtp p { x with seqSync := (x.seqSync + 1) % 65536 }).ptpSend p
          (d.ptpMsg p 0 0 0 x.seqSync (d.f ETH_PTP_CFG.LOG_SYNC p) (beBytes 10 0)) none 1
      else
        (d.setPtp p { x with seqSync := (x.seqSync + 1) % 65536, ident := (x.ident + 1) % 32768,
                             pend := mset x.pend x.ident (0, x.seqSync, 0, 0, 0) }).ptpSend p
          (d.ptpMsg p 0 0x0200 0 x.seqSync (d.f ETH_PTP_CFG.LOG_SYNC p) (beBytes 10 0)) (some x.ident)
    | 1 =>
      if d.pstate p ≠ psMASTER then d
      else
        let a := d.announced
        let fl := (if a.leap = 1 then 1 else if a.leap = 2 then 2 else 0) + (if a.utcValid then 4 else 0) + 8 + 16 * b2n (decide (a.cls ≤ 7))
        (d.setPtp p { x with seqAnn := (x.seqAnn + 1) % 65536 }).ptpSend p
          (d.ptpMsg p 11 fl 0 x.seqAnn (d.f ETH_PTP_CFG.LOG_ANN p) (annBody a))
    | 2 =>
      let p2p := d.fb ETH_PTP_CFG.P2P p
      if !p2p && d.pstate p ≠ psSLAVE && d.pstate p ≠ psUNCAL then d
      else
        let st := some (x.seqReq, none)
        let x1 := { x with seqReq := (x.seqReq + 1) % 65536, ident := (x.ident + 1) % 32768,
                           pend := mset x.pend x.ident (if p2p then 2 else 1, x.seqReq, 0, 0, 0) }
        (d.setPtp p (if p2p then { x1 with preq := st, presp := none } else { x1 with dreq := st })).ptpSend p
          (d.ptpMsg p (if p2p then 2 else 1) 0 0 x.seqReq 0x7F (beBytes (if p2p then 20 else 10) 0)) (some x.ident)
    | _ => d

/-! The transmit time-stamp queue (R329). -/

/-- A transmit time-stamp corrected for the board (R327). -/
def Device.txAdjust (d : Device) (p : Nat) (stamp : Time) : Time := ((stamp : Int) + s16 (d.f ETH_PTP_LAT.TX_ADJ p) * (Time.nsU : Int)).toNat
/-- The PTP unit takes its own entry and acts on it (R328). -/
def Device.txPtpTake (d : Device) (p : Nat) (e : TxStamp) : Device :=
  let x := d.ptp p
  match mget x.pend e.ident with
  | none => d
  | some (typ, seq, req, rx, corr) =>
    let d1 := d.setPtp p { x with pend := mdel x.pend e.ident }
    match typ with
    | 0 => d1.ptpSend p (d1.ptpMsg p 8 0 (Time.subOf e.stamp) seq (d1.f ETH_PTP_CFG.LOG_SYNC p) (stampBytes e.stamp))
    | 3 => d1.ptpSend p (d1.ptpMsg p 10 0 (corr + (Time.subOf e.stamp : Int) - (Time.subOf rx : Int)) seq 0x7F (stampBytes e.stamp ++ beBytes 10 req))
    | 1 => match x.dreq with
      | some (s, _) => if s = seq then let y := d1.ptp p; d1.setPtp p { y with dreq := some (s, some e.stamp) } else d1
      | none => d1
    | _ => match x.preq with
      | some (s, _) => if s = seq then let y := d1.ptp p; d1.setPtp p { y with preq := some (s, some e.stamp) } else d1
      | none => d1

/-- A frame with a time-stamp request has left a port. `stamp` is its transmit time-stamp, taken at the end of its start frame delimiter
(R327). -/
def Device.txStamp (d : Device) (p ident : Nat) (stamp : Time) : Device :=
  let x := d.ptp p
  let e : TxStamp := ⟨ident, d.txAdjust p stamp⟩
  if x.txq.length ≥ 16 then
    let d1 := (d.setf ETH_TXTS_STAT.OVF 1 p).count TK_TXTS_DROP
    let d2 := (d1.raiseSec x.ovfSec EV_TK_TXTS_OVF [p, ident])
    let y := d2.ptp p
    let d3 := d2.setPtp p { y with ovfSec := some d2.sec, pend := if ident < 32768 then mdel y.pend ident else y.pend }
    match (if ident < 32768 then mget x.pend ident else none) with
    | some (0, _) => d3.count TK_FU_MISSED
    | some (3, _) => d3.count TK_FU_MISSED
    | _ => d3
  else if ident < 32768 then d.txPtpTake p e
  else d.setPtp p { x with txq := x.txq ++ [e] }

/-- A read of ETH_TXTS_ID latches the head's stamp (R329). -/
def txtsIdRead (p : Nat) (d : Device) : Device :=
  let x := d.ptp p
  match x.txq with
  | [] => { d with lastRead := 0#32 }
  | e :: _ => { (d.setPtp p { x with latchNs := w32 (Time.nsOf e.stamp), latchSec := w32 (Time.secOf e.stamp) }) with
                lastRead := w32 (2147483648 + e.ident) }
/-- A write to ETH_TXTS_POP, honoured while the port's PTP is disabled. -/
def txtsPop (p : Nat) (v : Word) (d : Device) : Device :=
  if !d.alive || !bit v 31 || d.fb ETH_PTP_CFG.EN p then d
  else
    let x := d.ptp p
    d.setPtp p { x with txq := x.txq.drop 1 }

/-- A read of TK_NOW_NS latches the rest of device time (R319), which runs on in RERUN too (R337). -/
def tkNowRead (d : Device) : Device :=
  let t := d.tk.now
  { (d.setTk { d.tk with latch := [w32 (Time.subOf t), w32 (Time.secOf t), w32 (Time.secOf t / 4294967296)] }) with
    lastRead := w32 (Time.nsOf t) }

/-! IRIG-B and 1PPS (R330). Symbols of a frame: 0, 1, and 2 for a position identifier (log entry 21). -/

/-- A BCD or binary field from listed bit positions with their weights. -/
def irigField (s : List Nat) (ps : List (Nat × Nat)) : Nat := (ps.map (fun p => (if s.getD p.1 0 = 1 then 1 else 0) * p.2)).sum
/-- Days from 1970-01-01 to 1 January of a year. -/
def daysToYear (y : Nat) : Nat := (y - 1970) * 365 + ((y - 1) / 4 - 492) - ((y - 1) / 100 - 19) + ((y - 1) / 400 - 4)
/-- The year nearest device time for a day of the year and second of the day. -/
def nearYear (nowUtc day sec : Nat) : Nat :=
  let y := 1970 + nowUtc / 31556952
  let t (k : Nat) : Int := ((daysToYear k + day - 1) * 86400 + sec : Nat)
  let dist (k : Nat) : Nat := (t k - (nowUtc : Int)).natAbs
  ([y - 1, y, y + 1].foldl (fun b k => if dist k < dist b then k else b) y)

/-- Whether the frame's markers, and with IEEE 1344 its parity, are right. -/
def irigOk (s : List Nat) (c1344 : Bool) : Bool :=
  decide (s.length = 100) &&
  (s.zipIdx.all (fun e => if e.2 = 0 ∨ e.2 % 10 = 9 then e.1 = 2 else decide (e.1 < 2))) &&
  (!c1344 || decide (((s.take 76).filter (· = 1)).length % 2 = 1))

/-- UTC seconds of a frame. -/
def irigUtc (form : Nat) (s : List Nat) (c1344 : Bool) (nowUtc : Nat) : Nat :=
  let sec := irigField s [(1, 1), (2, 2), (3, 4), (4, 8), (6, 10), (7, 20), (8, 40)]
  let mn := irigField s [(10, 1), (11, 2), (12, 4), (13, 8), (15, 10), (16, 20), (17, 40)]
  let hr := irigField s [(20, 1), (21, 2), (22, 4), (23, 8), (25, 10), (26, 20)]
  let day := irigField s [(30, 1), (31, 2), (32, 4), (33, 8), (35, 10), (36, 20), (37, 40), (38, 80), (40, 100), (41, 200)]
  let yr := irigField s [(50, 1), (51, 2), (52, 4), (53, 8), (55, 10), (56, 20), (57, 40), (58, 80)]
  let sod := hr * 3600 + mn * 60 + sec
  let year := if form ≥ 4 then 2000 + yr else nearYear nowUtc day sod
  let loc := (daysToYear year + day - 1) * 86400 + sod
  if c1344 then
    let half := irigField s [(65, 2), (66, 4), (67, 8), (68, 16), (70, 1)]
    if s.getD 64 0 = 1 then loc + half * 1800 else loc - half * 1800
  else loc

/-- A frame's second, kept as a number: twice its UTC second count, plus one where its seconds field reads 60, an inserted second. -/
def irigLabel (utc : Nat) (s : List Nat) : Nat :=
  2 * utc + b2n (decide (irigField s [(1, 1), (2, 2), (3, 4), (4, 8), (6, 10), (7, 20), (8, 40)] = 60))
/-- The second after one, past the leap in force (R321, R331). -/
def Device.irigNext (d : Device) (l : Nat) : Nat :=
  let u := l / 2 + 1
  if l % 2 = 1 then l - 1
  else match d.nearLeap with
    | some (e, _, true) => if u = e then 2 * e + 1 else 2 * u
    | some (e, _, false) => if u + 1 = e then 2 * e else 2 * u
    | none => 2 * u
/-- The TAI second of a frame's second, with the offset in force then (R330). -/
def Device.irigTai (d : Device) (l : Nat) : Int :=
  match d.nearLeap with
  | some (e, o, ins) => (l / 2 : Nat) + if e ≤ l / 2 ∧ l % 2 = 0 then leapAfter o ins else o
  | none => (l / 2 : Nat) + d.utcOffset.1
/-- A frame in error or missing: the third in a row loses the source (Table 11.1). -/
def Device.irigMiss (d : Device) : Device :=
  let s := d.tkSrc srcIRIG
  if s.miss + 1 ≥ 3 then (if s.since.isSome then d.srcLost srcIRIG else d.setSrc srcIRIG ⟨none, false, 0, none⟩)
  else d.setSrc srcIRIG { s with miss := s.miss + 1, last := s.last.map d.irigNext }

/-- An IRIG-B frame of form B00n whose reference bit rose at `edge` (R330, R331). -/
def irigFrame (form : Nat) (syms : List Nat) (edge : Nat) (d : Device) : Device :=
  if !d.alive || !d.fb TK_IRIG.EN then d
  else
    let c := d.fb TK_IRIG.IEEE1344
    if !irigOk syms c then (d.count TK_IRIG_ERR).irigMiss
    else
      let utc := irigLabel (irigUtc form syms c (utcSec (Time.secOf d.tk.now) d.utcOffset.1)) syms
      let tq := irigField syms [(71, 1), (72, 2), (73, 4), (74, 8)]
      let s := d.tkSrc srcIRIG
      if s.last.isSome ∧ s.last.map d.irigNext ≠ some utc then
        ((d.count TK_IRIG_ERR).irigMiss)
      else
        let leap := if c ∧ syms.getD 60 0 = 1 then (if syms.getD 61 0 = 1 then 2 else 1) else 0
        let keep (x : Device) : Device :=
          x.setTk { x.tk with irigTq := if c then tq else 0, irigLeap := leap, leapTaken := x.tk.leapTaken && leap ≠ 0 }
        -- the loss is taken with E as the last good code left it (R333)
        if c ∧ tq = 15 then keep (d.srcLost srcIRIG)
        else
          let d0 := keep d
          let d1 := d0.setSrc srcIRIG { s with miss := 0, last := some utc }
          let d2 := if s.last.isSome then d1.srcValid srcIRIG else d1
          let d3 := d2.leapNote
          let src : Int := d3.irigTai utc * (Time.secU : Int)
          let at_ : Int := (edge : Int) - (d.f TK_IRIG.DLY_NS * Time.nsU : Nat)
          d3.tkOffset srcIRIG (at_ - src)

/-- An expected IRIG-B frame did not arrive. With TK_IRIG.EN at 0 none is decoded, so a source that was valid is lost at the third. -/
def irigMissing (d : Device) : Device :=
  if !d.alive || (!d.fb TK_IRIG.EN && (d.tkSrc srcIRIG).last.isNone) then d else d.irigMiss

/-- The window of R330 and Table 11.1. -/
def ppsInWindow (last t : Time) : Bool :=
  decide (t + 10 * Time.usU ≥ last + Time.secU) && decide (t ≤ last + Time.secU + 10 * Time.usU)

/-- An edge of PPS_IN at `edge` (R330). -/
def ppsEdge (rising : Bool) (edge : Nat) (d : Device) : Device :=
  if !d.alive || !d.fb TK_PPS.IN_EN || (rising = d.fb TK_PPS.IN_EDGE) then d
  else
    let s := d.tkSrc srcPPS
    match s.last with
    | none => d.setSrc srcPPS { s with last := some edge, miss := 0 }
    | some l =>
      if !ppsInWindow l edge then d.count TK_PPS_REJECT
      else
        let d1 := (d.setSrc srcPPS { s with last := some edge, miss := 0 }).srcValid srcPPS
        let t : Int := (edge : Int) - (d.f TK_DLY.PPS_IN_DLY_NS * Time.nsU : Nat)
        let near : Int := (t + (Time.secU / 2 : Nat)) / (Time.secU : Int) * (Time.secU : Int)
        d1.tkOffset srcPPS (t - near)

/-- No edge came in the window: the third miss in a row loses the source, with TK_PPS.IN_EN at 0 too, where no edge is taken. -/
def ppsMissed (d : Device) : Device :=
  if !d.alive then d
  else
    let s := d.tkSrc srcPPS
    match s.last with
    | none => d
    | some l =>
      if s.miss + 1 ≥ 3 then (if s.since.isSome then d.srcLost srcPPS else d.setSrc srcPPS ⟨none, false, 0, none⟩)
      else d.setSrc srcPPS { s with miss := s.miss + 1, last := some (l + Time.secU) }

/-- PPS_OUT follows its window (R330). -/
def ppsOut (d : Device) : Device :=
  let lvl := d.alive && d.fb TK_PPS.OUT_EN && d.tkState ≠ stFREERUN &&
    decide ((d.tk.now + d.f TK_DLY.PPS_OUT_ADV_NS * Time.nsU) % Time.secU < d.f TK_PPS.OUT_W_MS * Time.msU)
  if lvl = d.tk.ppsOut then d else (d.setTk { d.tk with ppsOut := lvl }).emit (.pin 3 0 lvl)

/-- A source has been valid for QUAL_S seconds (R321). -/
def sourceQualified (k : Nat) (d : Device) : Device :=
  let s := d.tkSrc k
  match s.since with
  | none => d
  | some t =>
    if !d.alive || s.qual || decide (d.tk.ticks - t < d.f TK_SERVO.QUAL_S * tkPerSec) then d
    else (d.setSrc k { s with qual := true }).tkSelect

/-- E has passed SYNC_NS or a code bound (R334, R335). -/
def syncLimit (d : Device) : Device := if d.alive then d.tkRefresh else d
/-- UNLOCK advances (R336). -/
def unlockExpiry (d : Device) : Device := if d.alive then d.setf TK_STAT.UNLOCK d.tkUnlock else d

/-- The end of the UTC day of a pending leap (R331). -/
def leapApply (d : Device) : Device :=
  match d.tk.leapDay with
  | none => d
  | some e =>
    let ins := d.utcLeap.1 = 1
    let o := d.utcOffset.1
    let new : Int := leapAfter o ins
    if !d.alive || decide ((Time.secOf d.tk.now : Int) < (e : Int) + new) then d
    else
      let host : Int := s16 (d.f TK_UTC.OFFSET) + (if ins then 1 else -1)
      let d1 := (d.setf TK_UTC.LEAP 0).setf TK_UTC.OFFSET ((host % 65536).toNat)
      let d2 := d1.setTk { d1.tk with ptpUtc := d1.tk.ptpUtc.map (fun u => (if ins then u.1 + 1 else u.1 - 1, 0)), irigLeap := 0,
                                      leapDay := none, leapTaken := true, lastLeap := some (e, o, ins) }
      d2.raise EV_TK_LEAP [(i32 new).toNat]

/-! Time quality in GOOSE and R-GOOSE (R337). -/

/-- TimeAccuracy: the largest n with E ≤ 2^-n s, or 31 in FREERUN. -/
def Device.timeAccuracy (d : Device) : Nat :=
  match d.tkE with
  | none => 31
  | some e => ((List.range 25).reverse.find? (fun n => decide (e * 2 ^ n ≤ Time.secU))).getD 0
/-- The time-quality octet of an IEC 61850 UtcTime: LeapSecondsKnown, ClockFailure, ClockNotSynchronized, TimeAccuracy. -/
def Device.timeQuality (d : Device) : Nat :=
  b2n (d.utcOffset.2 = 1 || d.tk.utcHost) * 128 + b2n (d.tkState = stFREERUN) * 64 + b2n (!d.fb TK_STAT.SYNC) * 32 + d.timeAccuracy

/-- Whether a frame carries a PTP message: EtherType 0x88F7, or UDP to port 319 or 320 over IPv4 or IPv6. -/
def framePtp (b : List Byte) : Bool :=
  let h := ethParse b
  let k := b.drop h.body
  let udp (hdr proto : Nat) : Bool := decide (proto = 17) && [319, 320].contains (beNat (slice k (hdr + 2) 2))
  decide (h.etype = 0x88F7) || (decide (h.etype = 0x0800) && udp (4 * (beNat (slice k 0 1) % 16)) (beNat (slice k 9 1))) ||
  (decide (h.etype = 0x86DD) && udp 40 (beNat (slice k 6 1)))
/-- A management-port frame goes to the Stride cores with the date that the firmware takes, `dated` ns after 20 µs before the frame's
instant and so within 20 µs of it (log entry 82); PTP on it is dropped (R338). -/
def mgtFrame (dated : Nat) (bytes : List Byte) (d : Device) : Device :=
  if !d.alive then d
  else if framePtp bytes then d.count TK_MGT_PTP_DROP
  else d.emit (.toStrideMgt (d.tk.now + dated % 40001 * Time.nsU - 20 * Time.usU) bytes)

end Sys2Proof.Machine
end

