-- ==== Sys2Proof/Machine/Goose.lean ====
section
/-!
DEFINITION. GOOSE and R-GOOSE publications (R249 to R252, R424): member values, state changes, retransmission, and the message as it is
built when its transmission starts.
-/
namespace Sys2Proof.Machine

/-! Hurdle output levels (R240). -/
def chainInit : Chain := ⟨false, 0, 0⟩
def hurInit : HurSt := ⟨chainInit, chainInit, none, none, [], [], true, [], [], false, none, []⟩
def Device.hur (d : Device) (h : Nat) : HurSt := mgetD d.alm.hur h hurInit
def Device.hurConf (d : Device) (h : Nat) : Bool := (d.hur h).conf
def Device.hurProv (d : Device) (h : Nat) : Bool := !(d.hur h).prov.isEmpty

/-- Value `i` of an instance's latest block in the output store (R139); NaN where it has none. -/
def Device.outVal (d : Device) (inst i : Nat) : Word :=
  match mget d.pac.latest inst with
  | some b =>
    let w := 4 * ieOut (d.instE inst) + 4 + i
    if i < b.vals.length ∧ d.badAt 8 (w / 2) ≠ 2 then mgetD d.pac.outStore w fNaN else fNaN
  | none => fNaN

/-! Publications (Tables 8.6, 8.7). -/

def gooseInit : GooseSt := ⟨0, 0, [], 0, none, 0, 0, 0⟩
def Device.gooseSt (d : Device) (n : Nat) : GooseSt := mgetD d.egr.goose n gooseInit
def Device.setGoose (d : Device) (n : Nat) (g : GooseSt) : Device := { d with egr := { d.egr with goose := mset d.egr.goose n g } }
def pubEn (e : List Word) : Bool := bit (wd e 0) 31
def pubRouted (e : List Word) : Bool := bit (wd e 0) 30
def pubPorts (e : List Word) : Nat := bx (wd e 0) 23 16
/-- The member words of a publication. -/
def Device.pubMembers (d : Device) (e : List Word) : List Word :=
  (List.range (bx (wd e 0) 6 0)).map (fun i => wd (d.ent tMember (bx (wd e 6) 11 0 + i)) 0)
/-- A state member's value: 0, 1 or 2. -/
def Device.memberState (d : Device) (m : Word) : Nat :=
  let h := bx m 12 0
  match bx m 31 29 with
  | 0 => b2n (d.hurConf h)
  | 1 => b2n (d.hurConf h || d.hurProv h)
  | _ => if d.hurConf h then 2 else if d.hurProv h then 1 else 0
def Device.pubStates (d : Device) (e : List Word) : List Nat :=
  (d.pubMembers e).filterMap (fun m => if bx m 31 29 < 3 then some (d.memberState m) else none)

/-- A message of the publication waits in a queue and has not started (R251). -/
def Device.goosePending (d : Device) (n : Nat) : Bool :=
  (mvals d.egr.tx).any (fun t => t.alarm.any (fun x => x.goose = some n))
/-- The message that waits tells a new stNum: its place in the queue is marked so. -/
def Device.gooseFresh (d : Device) (n : Nat) : Bool :=
  (mvals d.egr.tx).any (fun t => t.alarm.any (fun x => decide (x.goose = some n) && decide (x.fix = 1)))
/-- The place of a publication's message in a queue: `new` for a message with a new stNum, else a retransmission. -/
def goosePlace (n : Nat) (new : Bool) : TxItem := ⟨[], none, b2n new, 0, 0, none, some n⟩
/-- Queue the publication's next message on its ports. A retransmission that waits gives way to a message with a new stNum, in its place
(DEDUCED, log entry 80). -/
def Device.gooseQueue (d : Device) (n : Nat) (e : List Word) (new : Bool) : Device :=
  (List.range 8).foldl (fun x p =>
    if pubPorts e / 2 ^ p % 2 = 1 then
      let t := x.ptx p
      if t.alarm.any (fun i => i.goose = some n) then
        x.setPtx p { t with alarm := t.alarm.map (fun i => if i.goose = some n then goosePlace n new else i) }
      else x.txPush p true (goosePlace n new)
    else x) d
/-- Journal stNum and the SPDU number (R371). -/
def Device.gooseJournal (d : Device) (n : Nat) : Device :=
  let g := d.gooseSt n
  (d.setGoose n { g with jAt := d.now }).journalW 0x19 0 d.now [w32 n, w32 g.stNum, w32 g.spdu]

/-- Start a new stNum with sqNum 0 and send at once (R251). -/
def Device.gooseNew (d : Device) (n : Nat) (e : List Word) (st : Nat) : Device :=
  let g := d.gooseSt n
  let rt := bx (wd e 2) 31 16
  let d1 := d.setGoose n { g with stNum := st % 4294967296, sqNum := 0, vals := d.pubStates e, tAt := d.now, interval := rt,
                                  nextAt := some (d.now + rt * Time.msU) }
  (d1.gooseJournal n).gooseQueue n e true

/-- Compare a publication's state members with what it last told, and act on a change (R251). Changes before a queued message with a new
stNum starts travel in it; a retransmission that waits makes no difference. Only the device that transmits advances stNum. -/
def Device.gooseCheckOne (d : Device) (n : Nat) : Device :=
  let e := d.ent tPub n
  let g := d.gooseSt n
  let v := d.pubStates e
  if !pubEn e || v = g.vals then d
  else if !d.mayTx then d.setGoose n { g with vals := v, tAt := d.now }
  else if d.gooseFresh n then d.setGoose n { g with vals := v, tAt := d.now }
  else (d.count EGR_GOOSE_ST).gooseNew n e (g.stNum + 1)

/-- Journal each publication's numbers once a second (R371). -/
def Device.gooseSecond (d : Device) : Device :=
  if !d.mayTx then d
  else (d.ents tPub).foldl (fun x e => if pubEn e.2 && decide ((x.gooseSt e.1).jAt + Time.secU ≤ x.now) then x.gooseJournal e.1 else x) d

/-! The message. -/

/-- A NUL-terminated string of the string area, the `k`th from STR_OFS (log entry 28). -/
def Device.strArea (d : Device) (ofs : Nat) : List Byte :=
  (List.range 1024).flatMap (fun i => le32 (wd (d.ent tString (ofs + i)) 0))
def takeStr (b : List Byte) : List Byte := (b.takeWhile (fun c => c != 0#8)).take 129
def dropStr (b : List Byte) : List Byte := (b.dropWhile (fun c => c != 0#8)).drop 1
/-- UtcTime of a device time (log entry 27). -/
def Device.utcTime (d : Device) (t : Time) : List Byte :=
  beBytes 4 (utcSec (Time.secOf t) d.utcOffset.1) ++ beBytes 3 (t % Time.secU * 16777216 / Time.secU) ++
  [BitVec.ofNat 8 d.timeQuality]
/-- A member as Data. -/
def Device.memberData (d : Device) (m : Word) : List Byte :=
  match bx m 31 29 with
  | 0 | 1 => berTlv 0x83 (berBool (d.memberState m = 1))
  | 2 => berTlv 0x86 (berUInt (d.memberState m))
  | _ => berTlv 0x87 (8#8 :: beBytes 4 (d.outVal (bx m 27 16) (bx m 15 0)).toNat)
/-- The IECGoosePdu of a publication now. -/
def Device.goosePdu (d : Device) (n : Nat) (e : List Word) : List Byte :=
  let g := d.gooseSt n
  let s := d.strArea (bx (wd e 7) 15 0)
  let ms := d.pubMembers e
  berTlv 0x61 (berTlv 0x80 (takeStr s) ++ berTlv 0x81 (berUInt (3 * g.interval)) ++ berTlv 0x82 (takeStr (dropStr s)) ++
    berTlv 0x83 (takeStr (dropStr (dropStr s))) ++ berTlv 0x84 (d.utcTime g.tAt) ++ berTlv 0x85 (berUInt g.stNum) ++
    berTlv 0x86 (berUInt g.sqNum) ++ berTlv 0x87 (berBool (bit (wd e 1) 0)) ++ berTlv 0x88 (berUInt (wd e 3).toNat) ++
    berTlv 0x89 (berBool false) ++ berTlv 0x8A (berUInt ms.length) ++ berTlv 0xAB (ms.flatMap d.memberData))

/-- The tag of AUTH_ALG over octets (R74, R252). -/
def authTag (alg : Nat) (key hdr b : List Byte) : List Byte :=
  if alg = 1 ∨ alg = 2 then (hmacSha256 key b).take (macLen alg)
  else (gcmTag (key.take 16) (beBytes 12 (Config.sessionNonce hdr).toNat) b []).take (macLen alg)

/-- The session PDU of an R-GOOSE message (R252), or none where its group has no key. -/
def Device.goosePduRouted (d : Device) (n : Nat) (e : List Word) : Option (List Byte) × Device :=
  let g := d.gooseSt n
  let sec := bx (wd e 4) 31 29
  let enc := bit (wd e 4) 28
  let elems := spElemBytes ⟨0x81, bit (wd e 1) 0, bx (wd e 1) 31 16, d.goosePdu n e⟩
  let d1 := d.setGoose n { g with spdu := (g.spdu + 1) % 4294967296 }
  let wrap (h p : List Byte) (tag : List Byte) : List Byte :=
    [0x01#8, 0x40#8] ++ h ++ beBytes 4 elems.length ++ p ++ (if tag.isEmpty then [] else 0x85#8 :: BitVec.ofNat 8 tag.length :: tag)
  if sec = 0 then (some (wrap (spHdr siGOOSE (d1.gooseSt n).spdu 0 0 0 elems.length) elems []), d1)
  else match d.sendKey (bx (wd e 4) 11 0) 1 with
    | (none, d2) => (none, d2)
    | (some k, d2) =>
      let h := spHdr siGOOSE (d1.gooseSt n).spdu (b2n enc) (macCode sec) k.kid.toNat elems.length
      let nonce := beBytes 12 (Config.sessionNonce h).toNat
      let d3 := (d2.setGoose n (d1.gooseSt n)).count EGR_RGOOSE_SEC
      if enc then
        let ct := gcmCtr (k.key.take 16) nonce elems
        (some (wrap h ct (gcmTag (k.key.take 16) nonce (h ++ beBytes 4 elems.length) ct)), d3)
      else (some (wrap h elems (authTag sec k.key h (h ++ beBytes 4 elems.length ++ elems))), d3)

/-- A publication's destination on a port: the entry DST of the port's address table. -/
def Device.pubDst (d : Device) (p : Nat) (e : List Word) : List Word := d.ent tPort (bx (wd e 5) 7 0) p
/-- The frame that carries a message on a port. -/
def Device.gooseFrame (d : Device) (p : Nat) (e : List Word) (pdu : List Byte) : List Byte :=
  let a := d.pubDst p e
  if pubRouted e then
    let ip := addrIp a
    d.udpFrame p (groupMac ip) none ip 102 102 pdu
  else
    let tag := if bit (wd e 0) 29 then some (bx (wd e 1) 3 1 * 8192 + bx (wd e 1) 15 4) else none
    ethBuild (beNat ((addrOctets a).take 6)) (d.portMac p) tag 0x88B8
      (beBytes 2 (bx (wd e 1) 31 16) ++ beBytes 2 (8 + pdu.length) ++ beBytes 2 (if bit (wd e 1) 0 then 0x8000 else 0) ++ beBytes 2 0 ++ pdu)

/-- Replace the waiting placeholders of a publication by the message, or drop them where it is not sent (R251, R424). -/
def Device.gooseFill (d : Device) (n : Nat) (e : List Word) (pdu : Option (List Byte)) : Device :=
  (mkeys d.egr.tx).foldl (fun x p =>
    let t := x.ptx p
    x.setPtx p { t with alarm := t.alarm.filterMap (fun i =>
      if i.goose = some n then pdu.map (fun b => txPlain (x.gooseFrame p e b)) else some i) }) d

/-- The message is built: its transmission is about to start (R251, R252). -/
def Device.gooseBuild (da : Device) (n : Nat) : Device :=
  let e := da.ent tPub n
  let d := ((da.pubMembers e).filter (fun m => decide (3 ≤ bx m 31 29))).foldl (fun (x : Device) m =>
    x.noteRead 8 ((4 * ieOut (x.instE (bx m 27 16)) + 4 + bx m 15 0) / 2)) da
  if pubRouted e then
    match d.goosePduRouted n e with
    | (none, d1) => d1.gooseFill n e none
    | (some b, d1) => (d1.gooseFill n e (some b)).count EGR_GOOSE_TX
  else (d.gooseFill n e (some (d.goosePdu n e))).count EGR_GOOSE_TX

/-- An idle transmitter starts the head of its alarm queue, building it first where it is a publication's message (R251, R258). -/
def txStartF (fuel p : Nat) (d : Device) : Device :=
  match fuel with
  | 0 => d
  | n + 1 =>
    let t := d.ptx p
    if t.cur.isSome then d
    else match t.alarm with
      | [] => (match t.stream with
        | [] => d
        | x :: r => d.setPtx p { t with cur := some (x, false), stream := r })
      | x :: r => match x.goose with
        | some k => txStartF n p (d.gooseBuild k)
        | none => d.setPtx p { t with cur := some (x, true), alarm := r }
def Device.txStart (d : Device) (p : Nat) : Device := txStartF ((d.ptx p).alarm.length + 1) p d
/-- Idle transmitters start. -/
def Device.gooseGo (d : Device) : Device := (List.range 8).foldl (fun x p => x.txStart p) d

/-- Every publication looks at its state members (R251). -/
def Device.gooseCheck (d : Device) : Device := ((mkeys (d.ents tPub)).foldl (fun x n => x.gooseCheckOne n) d).gooseGo

/-- A publication's retransmission interval expires (R251): sqNum + 1, and the next interval is twice as long up to MAX_RT_MS. -/
def gooseRetransmit (n : Nat) (d : Device) : Device :=
  let e := d.ent tPub n
  let g := d.gooseSt n
  match g.nextAt with
  | none => d
  | some t =>
    if !d.mayTx || !pubEn e || decide (d.now < t) then d
    else
      let i := min (2 * g.interval) (bx (wd e 2) 15 0)
      let late := d.goosePending n
      let d1 := d.setGoose n { g with sqNum := if late then g.sqNum else (g.sqNum + 1) % 4294967296, interval := i,
                                      nextAt := some (d.now + i * Time.msU) }
      if late then d1 else (d1.gooseQueue n e false).gooseGo


end Sys2Proof.Machine
end

