-- ==== Sys2Proof/Machine/Egress.lean ====
section
/-!
DEFINITION. Concentrated C37.118 output (R253 to R257) and the end of a transmission (R258, R329).
-/
namespace Sys2Proof.Machine

def Device.setEgr (d : Device) (e : Egr) : Device := { d with egr := e }
def clientInit : ClientSt := ⟨false, none, none, none⟩
def Device.client (d : Device) (c : Nat) : ClientSt := mgetD d.egr.clients c clientInit
def Device.setClient (d : Device) (c : Nat) (x : ClientSt) : Device := d.setEgr { d.egr with clients := mset d.egr.clients c x }
def Device.setConn (d : Device) (n : Nat) (x : EgrConn) : Device := d.setEgr { d.egr with conns := mset d.egr.conns n x }

/-! Client entries (Table 8.8). -/
def clPeer (e : List Word) : List Byte :=
  let b := (List.range 4).flatMap (fun i => beBytes 4 (wd e i).toNat)
  if bit (wd e 5) 29 then b else b.take 4
def clPort (e : List Word) : Nat := bx (wd e 4) 31 16
def clBase (e : List Word) : Nat := bx (wd e 4) 13 0
def clEn (e : List Word) : Bool := bit (wd e 5) 31
def clTcp (e : List Word) : Bool := bit (wd e 5) 30
def clVer1 (e : List Word) : Bool := bit (wd e 5) 28
def clAtFinal (e : List Word) : Bool := bit (wd e 5) 27
/-- CFG-3 is offered in frames of the 2011 version only (Table 8.8). -/
def clCfg3 (e : List Word) : Bool := bit (wd e 5) 26 && !clVer1 e
def clHeat (e : List Word) : Nat := bx (wd e 5) 25 16
def clId (e : List Word) : Nat := bx (wd e 5) 15 0
def clPorts (e : List Word) : Nat := bx (wd e 6) 23 16
def clLanes (e : List Word) : Nat := bx (wd e 6) 12 0
def clName (e : List Word) : Nat := bx (wd e 7) 19 0
def Device.clientE (d : Device) (c : Nat) : List Word := d.ent tClient c
/-- The lane list of a client. -/
def Device.clientList (d : Device) (e : List Word) : List Nat :=
  (List.range (clLanes e)).map (fun i => bx (wd (d.ent tClientLane (clBase e + i)) 0) 13 0)

/-- A client transmits or stops (EGR_ON_LO, EGR_ON_HI). -/
def Device.clientOn (d : Device) (c : Nat) (on : Bool) : Device :=
  let d1 := d.setClient c { d.client c with on := on }
  if c < 32 then d1.wr EGR_ON_LO 0 (bset (d1.rg EGR_ON_LO 0) c c (b2n on))
  else d1.wr EGR_ON_HI 0 (bset (d1.rg EGR_ON_HI 0) (c - 32) (c - 32) (b2n on))
def Device.connEvent (d : Device) (c what : Nat) : Device := d.raise EV_EGR_C37_CONN [c, (Config.connCode what).toNat]
/-- The configuration of the clients that `p` picks has changed (R255). -/
def Device.clientsChanged (d : Device) (p : List Word → Bool) : Device :=
  (d.ents tClient).foldl (fun x e => if p e.2 then x.setClient e.1 { x.client e.1 with changed := some x.now } else x) d

/-! The data frame (R254, R255). -/

/-- Bits 8:6 of STAT from a TQ. -/
def statTq (tq : Nat) : Nat := if tq ≤ 3 then 1 else if tq ≤ 8 then tq - 2 else 7
/-- The STAT word of a lane. -/
def Device.c37Stat (d : Device) (changed : Bool) (w : Word) : Nat :=
  let v := if bit w qSUBST then 2 else if bit w qVALID then 0 else 3
  v * 16384 + b2n (!bit w qSYNC) * 8192 + b2n changed * 1024 + b2n (bit w qAMENDED) * 512 + statTq (qTQ w) * 64 + d.tkUnlock * 16
/-- A word, big-endian. -/
def be32 (w : Word) : List Byte := beBytes 4 w.toNat
/-- The PMU block of a lane for a lap. -/
def Device.c37Block (d : Device) (changed : Bool) (h n lane : Nat) : List Byte :=
  let e := d.laneE lane
  let r := d.lapRecs h n lane
  let v := match r with | some x => valsOf e x | none => valsNaN e
  let w0 := match r with | some x => recQR x | none => 0#32
  let w := if d.gsLost h n lane (d.allWords lane) then bset w0 qVALID qVALID 0 else w0
  let nom := if heNom60 (d.heatE h) then 0x42700000#32 else 0x42480000#32
  beBytes 2 (d.c37Stat changed w) ++ v.ph.flatMap (fun p => be32 p.1 ++ be32 p.2) ++ be32 (fAdd nom v.freq) ++ be32 v.rocof ++
  v.ana.flatMap be32 ++ v.dig.flatMap (beBytes 2)
/-- The data frame of a client for a lap. -/
def Device.c37Data (d : Device) (c h n : Nat) : List Byte :=
  let e := d.clientE c
  let changed := match (d.client c).changed with | some t => decide (d.now < t + 60 * Time.secU) | none => false
  let body := (d.clientList e).flatMap (d.c37Block changed h n)
  let rate := d.rate h
  let s := d.socOf (n / rate)
  let frac := (2 * (n % rate) * 1000000 + rate) / (2 * rate)
  let b := [0xAA#8, if clVer1 e then 0x01#8 else 0x02#8] ++ beBytes 2 (16 + body.length) ++ beBytes 2 (clId e) ++ beBytes 4 s.1 ++
    beBytes 1 (s.2 * 16 + d.tkCode) ++ beBytes 3 frac ++ body
  b ++ beBytes 2 (crcCcitt b)

/-- The name area up to the last unit stored; units never stored read as zeros (R34). -/
def Device.nameArea (d : Device) : List Byte :=
  (List.range ((mkeys (d.ents tClientName)).foldl (fun n k => max n (k + 1)) 0)).flatMap (fun i => le32 (wd (d.ent tClientName i) 0))
/-- The configuration or header frame for a command (3 header, 4 CFG-1, 5 CFG-2, 6 CFG-3). -/
def Device.c37Cfg (d : Device) (c cmd : Nat) : List Byte :=
  let e := d.clientE c
  Config.c37Frame cmd e ((d.clientList e).map d.laneE) (d.nameArea.drop (clName e)) (d.socOf d.sec).1

/-! TCP segments (R257). -/

/-- Queue a segment's frame on port `p`. The connection's own address is that of the port which accepted it. -/
def Device.segSend (d : Device) (n p : Nat) (x : EgrConn) (seq : Nat) (b : List Byte) : Device :=
  let src := d.portIp x.port (decide (x.peer.length = 16))
  let tcp := tcpBuild src x.peer (d.f EGR_CFG.TCP_PORT) x.peerPort seq x.rcvNxt 65535 b
  let fr := ethBuild (d.peerMac p x.peer) (d.portMac p) none (ipEtype x.peer) (ipBuild src x.peer 6 (d.egr.ipId % 65536) tcp)
  let d1 := d.setEgr { d.egr with ipId := (d.egr.ipId + 1) % 65536 }
  (((d1.txPush p false { txPlain fr with seg := some n }).count EGR_C37_SEGS)).emit (.tcpSent true n p seq b)
/-- The port a connection's segments leave on: the lowest-numbered ACTIVE one of its client's PORTS (Table 8.8). -/
def Device.connPort (d : Device) (x : EgrConn) : Option Nat := x.client.bind (fun c => d.lowestPort (clPorts (d.clientE c)))
/-- The next segment of a connection queues, one at a time: one to be sent again first. -/
def Device.segNext (d : Device) (n : Nat) : Device :=
  match mget d.egr.conns n with
  | none => d
  | some x => match d.connPort x with
    | none => d
    | some p =>
      if x.queued || !d.mayTx then d
      else match x.again, x.sent, x.unsent with
        | true, s :: _, _ => ((d.setConn n { x with again := false, queued := true, lastTx := d.now }).segSend n p x s.1 s.2).count EGR_TCP_RETX
        | _, _, [] => d
        | _, _, b :: r =>
          (d.setConn n { x with unsent := r, sent := x.sent ++ [(x.sndNxt, b)], sndNxt := (x.sndNxt + b.length) % 4294967296, queued := true,
                                again := false, lastTx := d.now }).segSend n p x x.sndNxt b
/-- Bytes that a connection's send buffer holds. -/
def connHeld (x : EgrConn) : Nat := (x.sent.map (fun s => s.2.length)).sum + (x.unsent.map List.length).sum
/-- Put a frame into the send buffer, where it fits wholly. -/
def Device.connPut (d : Device) (n : Nat) (b : List Byte) : Option Device :=
  match mget d.egr.conns n with
  | none => none
  | some x =>
    if connHeld x + b.length > 262144 then none
    else some ((d.setConn n { x with unsent := x.unsent ++ chunks (max 1 (min x.mss 8960)) (b.length + 1) b }).segNext n)
/-- The oldest unacknowledged segment is to be sent again: at once, or after the segment of the connection that is queued. -/
def Device.connRetx (d : Device) (n : Nat) : Device :=
  match mget d.egr.conns n with
  | none => d
  | some x => (d.setConn n { x with again := true }).segNext n

/-! Sending to a client (R253, R256). -/

/-- The connection a TCP client is bound to. -/
def Device.connOf (d : Device) (c : Nat) : Option Nat := (d.egr.conns.find? (fun x => x.2.client = some c)).map (·.1)
/-- A frame of client `c` does not fit its send buffer (R257); `n` is the lap sequence number told. -/
def Device.clientDrop (d : Device) (c n : Nat) : Device :=
  let d1 := (d.count EGR_C37_DROP).raiseSec (d.client c).dropSec EV_EGR_C37_DROP [c, n]
  d1.setClient c { d1.client c with dropSec := some d1.sec }
/-- Send a frame to a client, and count it in `k`: nothing leaves where no port of the client's is ACTIVE, and a frame that does not fit is
dropped. -/
def Device.clientSend (d : Device) (c n : Nat) (k : Ctr) (b : List Byte) : Device :=
  let e := d.clientE c
  if clTcp e then
    match d.connOf c with
    | none => d
    | some i => match d.connPut i b with
      | some x => x.count k
      | none => d.clientDrop c n
  else match d.lowestPort (clPorts e) with
    | none => d
    | some p =>
      (d.txPush p false (txPlain (d.udpFrame p (d.peerMac p (clPeer e)) none (clPeer e) (d.f EGR_CFG.UDP_SRC) (clPort e) b))).count k
/-- A configuration or header frame, which belongs to no lap: a drop's event tells lap sequence number 0 (DESIGN CHOICE, log entry 80). -/
def Device.clientCfg (d : Device) (c cmd : Nat) : Device := d.clientSend c 0 EGR_CFG_SENT (d.c37Cfg c cmd)
/-- The configuration frame a UDP client gets by itself. -/
def Device.clientOwnCfg (d : Device) (c : Nat) : Device :=
  (d.setClient c { d.client c with cfgAt := some (d.now + 60 * Time.secU) }).clientCfg c (if clCfg3 (d.clientE c) then 6 else 5)
/-- A lap's data frame (R255, R257), which reads every word of its lanes' records. -/
def Device.clientData (d0 : Device) (c h n : Nat) : Device :=
  let d := (d0.clientList (d0.clientE c)).foldl (fun x l => x.gsTouch h n l (x.allWords l)) d0
  d.clientSend c n EGR_C37_FRAMES (d0.c37Data c h n)
/-- Data frames at a token's delivery: `release` for a RELEASE token, `final` where it carries FINAL. -/
def Device.clientLap (d : Device) (h n : Nat) (release final : Bool) : Device :=
  if !d.mayTx then d
  else (d.ents tClient).foldl (fun x e =>
    if clEn e.2 && decide (clHeat e.2 = h) && (x.client e.1).on && (if clAtFinal e.2 then final else release) then x.clientData e.1 h n else x) d

/-- A client entry has been stored (R255, R256): its configuration has changed, and a UDP client transmits from its enable. -/
def Device.clientLoaded (d : Device) (c : Nat) : Device :=
  let e := d.clientE c
  let was := (d.client c).on
  let d1 := d.setClient c { clientInit with changed := some d.now }
  let d2 := d1.setEgr { d1.egr with conns := d1.egr.conns.filter (fun x => decide (x.2.client ≠ some c)) }
  let d3 := d2.clientOn c (clEn e && !clTcp e)
  let d4 := if (d.connOf c).isSome then d3.connEvent c 1 else if was then d3.connEvent c 3 else d3
  if clEn e && !clTcp e then
    let d5 := d4.connEvent c 2
    if d5.mayTx then d5.clientOwnCfg c else d5
  else d4
/-- The device begins to transmit: UDP clients receive their configuration frame at once (R381, R256). -/
def Device.clientsStart (d : Device) : Device :=
  (d.ents tClient).foldl (fun x e => if clEn e.2 && !clTcp e.2 then x.clientOwnCfg e.1 else x) d
/-- The device ceases to transmit: client connections are gone. -/
def Device.clientsStop (d : Device) : Device :=
  let bound := d.egr.conns.filterMap (fun x => x.2.client)
  (bound.foldl (fun x c => (x.clientOn c false).connEvent c 1) d).setEgr { (bound.foldl (fun x c => (x.clientOn c false).connEvent c 1) d).egr with conns := [] }

/-! Commands. -/

/-- C37_CFG_PERIODIC. -/
def c37CfgPeriodic (c : Nat) (d : Device) : Device :=
  let e := d.clientE c
  match (d.client c).cfgAt with
  | none => d
  | some t => if !d.mayTx || !clEn e || clTcp e || decide (d.now < t) then d else d.clientOwnCfg c

/-- A peer's address from a number. -/
def peerBytes (v6 : Bool) (a : Nat) : List Byte := beBytes (if v6 then 16 else 4) a

/-- EGRESS_TCP_ACCEPT: from a client address that is in the table, on a port that may carry that client (R256, Table 8.8). -/
def egressTcpAccept (n port : Nat) (v6 : Bool) (addr peerPort mss iss rcv : Nat) (d : Device) : Device :=
  let ip := peerBytes v6 addr
  let known := (d.ents tClient).any (fun e => clEn e.2 && clTcp e.2 && decide (clPeer e.2 = ip) && (clPort e.2 = 0 || clPort e.2 = peerPort) &&
    (clPorts e.2).testBit port)
  if !d.mayTx || !d.active uPORT port || !known || (mget d.egr.conns n).isSome then d
  else d.setConn n ⟨ip, peerPort, port, mss, rcv, none, iss % 4294967296, iss % 4294967296, 0, [], [], false, false, d.now⟩

/-- The client a command is for: an existing binding, a binding by IDCODE of a TCP connection's first command, or the UDP entry of the
sender's address and IDCODE (R256). -/
def Device.cmdClient (d : Device) (tcp : Bool) (from_ idcode : Nat) : Option Nat × Device :=
  if tcp then
    match mget d.egr.conns from_ with
    | none => (none, d)
    | some x => match x.client with
      | some c => if clId (d.clientE c) = idcode then (some c, d) else (none, d)
      | none =>
        match (d.ents tClient).find? (fun e => clEn e.2 && clTcp e.2 && decide (clId e.2 = idcode) && decide (clPeer e.2 = x.peer) &&
            (clPort e.2 = 0 || clPort e.2 = x.peerPort) && (d.connOf e.1).isNone) with
        | some e => (some e.1, (d.setConn from_ { x with client := some e.1 }).connEvent e.1 0)
        | none => (none, d)
  else
    ((((d.ents tClient).find? (fun e => clEn e.2 && !clTcp e.2 && decide (clId e.2 = idcode) && decide (beNat (clPeer e.2) = from_))).map (·.1)), d)

/-- A client command: 1 off, 2 on, 3 header, 4 CFG-1, 5 CFG-2, 6 CFG-3, any other ignored. -/
def c37Cmd (cmd : Nat) (tcp : Bool) (from_ idcode : Nat) (d : Device) : Device :=
  if !d.mayTx then d
  else if cmd = 0 ∨ cmd > 6 then d.count EGR_C37_CMD_BAD
  else match d.cmdClient tcp from_ idcode with
    | (none, d1) => d1.count EGR_C37_CMD_BAD
    | (some c, d1) =>
      if cmd = 6 ∧ !clCfg3 (d1.clientE c) then d1.count EGR_C37_CMD_BAD
      else
        let d2 := d1.count EGR_C37_CMD
        match cmd with
        | 1 => if (d2.client c).on then (d2.clientOn c false).connEvent c 3 else d2
        | 2 => if (d2.client c).on then d2 else (d2.clientOn c true).connEvent c 2
        | k => d2.clientCfg c k

/-- EGRESS_TCP_ACK_RECEIVED. -/
def egressTcpAck (n ack : Nat) (d : Device) : Device :=
  match mget d.egr.conns n with
  | none => d
  | some x =>
    let adv := (ack + 4294967296 - x.una) % 4294967296
    let out := (x.sndNxt + 4294967296 - x.una) % 4294967296
    if adv = 0 then
      if x.sent.isEmpty then d
      else
        let d1 := d.setConn n { x with dup := x.dup + 1 }
        if x.dup + 1 = 3 then d1.connRetx n else d1
    else if adv ≤ out then
      let left := x.sent.filter (fun s => decide ((s.1 + s.2.length + 4294967296 - x.una) % 4294967296 > adv))
      (d.setConn n { x with una := ack % 4294967296, dup := 0, sent := left, again := false }).segNext n
    else d

/-- EGRESS_TCP_RTO: at least 200 ms after the last transmission. -/
def egressTcpRto (n : Nat) (d : Device) : Device :=
  match mget d.egr.conns n with
  | none => d
  | some x => if !d.mayTx || x.sent.isEmpty || decide (d.now < x.lastTx + 200 * Time.msU) then d else d.connRetx n

/-! The end of a transmission (R328, R329). -/

/-- Put octets in place. -/
def putAt (b : List Byte) (i : Nat) (v : List Byte) : List Byte := b.take i ++ v ++ b.drop (i + v.length)
/-- Complete a one-step message in flight (R328): a Sync gets its origin timestamp and the sub-nanosecond fraction as correction, a
Pdelay_Resp the turnaround; over UDP the checksum becomes 0. -/
def txFix (x : TxItem) (stamp : Time) : List Byte :=
  if x.fix = 0 then x.bytes
  else
    let m := x.bytes.drop x.fixAt
    let b1 := if x.fix = 1 then
        putAt (putAt x.bytes (x.fixAt + 34) (stampBytes stamp)) (x.fixAt + 8) (corrBytes (corrOf m + (Time.subOf stamp : Int)))
      else putAt x.bytes (x.fixAt + 8) (corrBytes (corrOf m + ((stamp : Int) - (x.rx : Int))))
    if x.fixAt = 42 then putAt b1 (x.fixAt - 2) [0#8, 0#8] else b1

/-- TX_FRAME_COMPLETE: the last bit of the frame in transmission has left port `p`; `stamp` is its transmit time-stamp, and `fw` is the identifier of a Stride frame
with a time-stamp request that left instead, on a port with no frame of the device's own in transmission. -/
def txFrameComplete (p stamp fw : Nat) (d : Device) : Device :=
  if !d.alive || decide (8 ≤ p) then d
  else match (d.ptx p).cur with
    | none => if fw < 32768 ∨ 65535 < fw ∨ !d.active uPORT p then d else (((d.count TX_FRAMES_OK p).count TX_STREAM_Q p).txStamp p fw stamp)
    | some (x, alarm) =>
      let d1 := (d.setPtx p { d.ptx p with cur := none }).emit (.ethFrame p alarm (txFix x (d.txAdjust p stamp)))
      let d2 := (d1.count TX_FRAMES_OK p).count (if alarm then TX_ALARM_Q else TX_STREAM_Q) p
      let d3 := d2.txStart p
      let d4 := match x.ident with | some i => d3.txStamp p i stamp | none => d3
      match x.seg with
      | none => d4
      | some n =>
        let d5 := d4.count TX_SEGMENTS p
        match mget d5.egr.conns n with
        | some c => (d5.setConn n { c with queued := false }).segNext n
        | none => d5

end Sys2Proof.Machine
end

