-- ==== Sys2Proof/Machine/Energy.lean ====
section
/-!
DEFINITION. Interchange energy and pulse I/O (spec/10): lane samples (R299 to R302), pulse inputs (R303), snapshots (R304, R305),
intervals and their records (R307 to R309), pulse outputs (R310, R311), presets and the restore (R312, R313).
-/
namespace Sys2Proof.Machine

def zero6 : List Nat := [0, 0, 0, 0, 0, 0]
def pointInit : PointSt := ⟨zero6, zero6, none, [], 0⟩
def Device.point (d : Device) (i : Nat) : PointSt := mgetD d.nrg.points i pointInit
def Device.setNrg (d : Device) (n : Nrg) : Device := { d with nrg := n }
def Device.setPoint (d : Device) (i : Nat) (p : PointSt) : Device := d.setNrg { d.nrg with points := mset d.nrg.points i p }
def Device.nrgErr (d : Device) (c : Nat) : Device := d.err NRG_STAT.ERR NRG_STAT.ECODE c

/-! Point entries (Table 10.1). -/
def peEn (e : List Word) : Bool := bit (wd e 0) 31
def peKind (e : List Word) : Nat := bx (wd e 0) 30 29
def peInv (e : List Word) : Bool := bit (wd e 0) 28
def peQuant (e : List Word) : Nat := bx (wd e 0) 27 25
def peInt (e : List Word) : Nat := bx (wd e 0) 24 22
def peLane (e : List Word) : Nat := refLane (wd e 1)
def pePlsi (e : List Word) : Nat := bx (wd e 1) 31 27
def peQty (e : List Word) : Nat := bx (wd e 1) 26 24
/-- Interval length in seconds. -/
def intSecs (c : Nat) : Nat := [60, 300, 600, 900, 1800, 3600].getD c 60

/-! Intervals (R307, R308). -/

/-- Device time of a UTC second under the offset and leap in force (R307). -/
def Device.timeOfUtc (d : Device) (u : Nat) : Time :=
  let tai : Int := match d.nearLeap with
    | some (e, o, ins) => if u ≥ e then (u : Int) + (if ins then o + 1 else o - 1) else (u : Int) + o
    | none => (u : Int) + d.utcOffset.1
  tai.toNat * Time.secU
/-- The UTC second of a device time. -/
def Device.utcOf (d : Device) (t : Time) : Nat :=
  match d.nearLeap with
  | some (e, o, ins) =>
    let after : Int := if ins then o + 1 else o - 1
    if (Time.secOf t : Int) ≥ (e : Int) + after then utcSec (Time.secOf t) after else min (e - 1) (utcSec (Time.secOf t) o)
  | none => utcSec (Time.secOf t) d.utcOffset.1
def Device.ivStop (d : Device) (iv : Interval) : Time := d.timeOfUtc iv.bound
def ivNew (start : Time) (bound : Nat) (dir isPartial : Bool) (code rate : Nat) : Interval :=
  ⟨start, bound, zero6, dir, dir, 0, 0, none, false, isPartial, code, rate, 0⟩
def ivNone : Interval := ivNew 0 0 false false 0 0
/-- The heat a lane point is fed from. -/
def Device.pointHeat (d : Device) (e : List Word) : Nat := leHeat (d.laneE (peLane e))
/-- The samples a second due to a point: none to a pulse point. -/
def Device.pointRate (d : Device) (e : List Word) : Nat := if peKind e = 3 then 0 else d.rate (d.pointHeat e)
/-- The interval that starts at a time and runs to the next boundary. -/
def Device.ivOpen (d : Device) (e : List Word) (t : Time) (dir isPartial : Bool) : Interval :=
  let l := intSecs (peInt e)
  ivNew t ((d.utcOf t / l + 1) * l) dir isPartial (peInt e) (d.pointRate e)
/-- The interval after one. -/
def Device.ivAfter (d : Device) (e : List Word) (iv : Interval) : Interval :=
  ivNew (d.ivStop iv) (iv.bound + intSecs (peInt e)) iv.dirE false (peInt e) (d.pointRate e)
/-- Append intervals until one holds `t`. -/
def ivExtend (fuel : Nat) (d : Device) (e : List Word) (t : Time) (ivs : List Interval) : List Interval :=
  match fuel, ivs.getLast? with
  | 0, _ => ivs
  | _, none => [d.ivOpen e t false false]
  | n + 1, some iv =>
    if t < d.ivStop iv then ivs
    else ivExtend n d e t (ivs ++ [d.ivAfter e iv])
/-- The position of the interval that holds `t`; a time before the first falls in the first. -/
def ivFind (d : Device) (t : Time) (ivs : List Interval) : Nat :=
  (ivs.zipIdx.find? (fun x => decide (t < d.ivStop x.1))).map (·.2) |>.getD (ivs.length - 1)
/-- Open the intervals up to one that holds `t`. -/
def Device.ivsTo (d : Device) (e : List Word) (t : Time) (p : PointSt) : PointSt :=
  let l := intSecs (peInt e) * Time.secU
  let from_ := match p.ivs.getLast? with | some iv => d.ivStop iv | none => t
  { p with ivs := ivExtend ((t - from_) / l + 2) d e t p.ivs }

/-- The least lap sequence number whose lap time is at or after `t`. -/
def lapAtOrAfter (rate : Nat) (t : Time) : Nat :=
  let k := t * rate / Time.secU
  if lapTimeOf rate k ≥ t then k else if lapTimeOf rate (k + 1) ≥ t then k + 1 else k + 2
/-- MISSING of an interval that ends at `stop` (R309). -/
def ivMissing (iv : Interval) (stop : Time) : Nat :=
  if iv.rate = 0 then 0 else lapAtOrAfter iv.rate stop - lapAtOrAfter iv.rate iv.start - iv.samples

/-! Interval records (R309, Table 10.4). -/

def ivRecord (point : Nat) (iv : Interval) (missing : Nat) (outage isPartial : Bool) : List Word :=
  [w32 (point * 8388608 + iv.code * 1048576 + b2n iv.dirS * 524288 + b2n iv.dirE * 262144 + b2n outage * 131072 +
     b2n (isPartial || iv.isPartial) * 65536 + b2n iv.unset * 32768),
   w32 (Time.secOf iv.start), w32 (min 4095 iv.rev * 1048576 + missing % 1048576),
   (match iv.firstRev with | some t => w32 ((t - iv.start) / Time.usU) | none => 0xFFFFFFFF#32)] ++
  (List.range 6).flatMap (fun q => two (iv.adds.getD q 0))

/-- Write a record to the ring, with LOST_BEFORE where records were dropped before it. -/
def Device.ivWrite (d : Device) (ws : List Word) : Option Device :=
  let w := if d.nrg.lostBefore then lset ws 0 (bset (wd ws 0) 14 14 1) else ws
  match d.cqRecord (d.f NRG_CFG.RING) 2 w with
  | none => none
  | some x => some ((x.setNrg { x.nrg with lostBefore := false, dropEp := false }).count NRG_INTERVALS)
/-- A record is dropped. -/
def Device.ivDrop (d : Device) (point : Nat) : Device :=
  let d1 := (d.setNrg { d.nrg with lostBefore := true, dropEp := true }).count NRG_INT_DROP
  if d.nrg.dropEp then d1 else d1.raise EV_NRG_INT_DROP [point, d.nrg.buf.length]
/-- Deliver a record, or let it wait (R309, R372). -/
def Device.ivDeliver (d : Device) (point : Nat) (ws : List Word) : Device :=
  if !d.fb NRG_CFG.EN || d.pwr.mode = .follow then d
  else
    let wait : Device := if d.nrg.buf.length ≥ 4096 then d.ivDrop point else d.setNrg { d.nrg with buf := d.nrg.buf ++ [ws] }
    if !d.nrg.buf.isEmpty then wait
    else match d.ivWrite ws with
      | some x => x
      | none => wait
def nrgDrainF (fuel : Nat) (d : Device) : Device :=
  match fuel with
  | 0 => d
  | n + 1 => match d.nrg.buf with
    | [] => d
    | r :: rest => if !d.fb NRG_CFG.EN || d.pwr.mode = .follow then d else match d.ivWrite r with
      | none => d
      | some x => nrgDrainF n (x.setNrg { x.nrg with buf := rest })
/-- INTERVAL_RECORD_DRAIN; in FOLLOW none is delivered (R372). -/
def intervalRecordDrain (d : Device) : Device := nrgDrainF d.nrg.buf.length d

/-- Every lap of a heat whose lap time lies in [S, E) has had its RELEASE delivered or was skipped (R308). -/
def Device.ivSettled (d : Device) (h : Nat) (s stop : Time) : Bool :=
  (d.lapsOf h).all (fun l => [LapState.released, LapState.closed].contains l.st ||
    decide (d.lapT h l.lap < s) || decide (stop ≤ d.lapT h l.lap))

/-- An interval ends at `stop`: its missing samples that no lap told of are counted (R299, R315), and its record is delivered. -/
def Device.ivEnd (d : Device) (i : Nat) (iv : Interval) (stop : Time) (outage isPartial : Bool) : Device :=
  let m := ivMissing iv stop
  (d.countN NRG_MISSING (m - iv.missed)).ivDeliver i (ivRecord i iv m outage isPartial)
/-- INTERVAL_CLOSE: the oldest open interval of a point closes when it may (R308). -/
def intervalClose (i : Nat) (d : Device) : Device :=
  let e := d.ent tPoint i
  let p := d.point i
  match p.ivs with
  | [] => d
  | iv :: rest =>
    let stop := d.ivStop iv
    if !peEn e || decide (d.now < stop) || (decide (peKind e ≠ 3) && !d.ivSettled (d.pointHeat e) iv.start stop) then d
    else
      let rest' := if rest.isEmpty then [d.ivAfter e iv] else rest
      (d.setPoint i { p with ivs := rest' }).ivEnd i iv stop false false

/-- Close every open interval of a point at once. -/
def Device.ivCloseAll (d : Device) (i : Nat) (outage isPartial : Bool) : Device :=
  let p := d.point i
  p.ivs.foldl (fun x iv => x.ivEnd i iv (min x.now (x.ivStop iv)) outage isPartial) (d.setPoint i { p with ivs := [] })

/-! Pulse outputs (R310, R311). -/

def pulseInit : PulseSt := ⟨0, 0, .idle⟩
def Device.pulse (d : Device) (k : Nat) : PulseSt := mgetD d.nrg.outputs k pulseInit
def Device.setPulse (d : Device) (k : Nat) (x : PulseSt) : Device := d.setNrg { d.nrg with outputs := mset d.nrg.outputs k x }
/-- Keep NRG_PO_PEND at the level of the queue. -/
def Device.poShow (d : Device) (k : Nat) : Device :=
  (d.setf NRG_PO_PEND.PEND (d.pulse k).pend k).hwm NRG_PO_PEND.HWM (d.pulse k).pend k
def Device.poDrive (d : Device) (k : Nat) (on : Bool) : Device :=
  if d.fb ALM_AOUT.DRV_EN && !d.driversKept then d.emit (.pin 1 k on) else d
/-- Start the next pending pulse of an idle output. -/
def Device.poStart (d : Device) (k : Nat) : Device :=
  let x := d.pulse k
  if x.phase = .idle ∧ x.pend > 0 then
    ((d.setPulse k { x with pend := x.pend - 1, phase := .active (d.now + d.f NRG_PO_CFG.PW_MS k * Time.msU) }).poShow k).poDrive k true
  else d
/-- Queue the pulses of an accumulator's increase. -/
def Device.poFeed (d : Device) (point qty : Nat) (k : Nat) : Device :=
  let pq := (d.rg NRG_PO_Q k).toNat
  if !d.fb NRG_PO_CFG.EN k || d.f NRG_PO_CFG.POINT k ≠ point || d.f NRG_PO_CFG.QTY k ≠ qty || pq = 0 then d
  else
    let x := d.pulse k
    let q := (d.point point).acc.getD qty 0 / pq
    let n := q - x.base
    let pend := min 65535 (x.pend + n)
    let dropped := x.pend + n - pend
    let d1 := (d.setPulse k { x with base := q, pend := pend }).poShow k
    let d2 := if dropped = 0 then d1
      else
        let d3 := (d1.countN NRG_PLSO_OVF dropped).raiseSec (mget d1.nrg.ovfSec k) EV_NRG_PLSO_OVF [k, point]
        d3.setNrg { d3.nrg with ovfSec := mset d3.nrg.ovfSec k d3.sec }
    d2.poStart k
/-- The base value of an output. -/
def Device.poBase (d : Device) (k : Nat) : Device :=
  let pq := (d.rg NRG_PO_Q k).toNat
  d.setPulse k { d.pulse k with base := if pq = 0 then 0 else (d.point (d.f NRG_PO_CFG.POINT k)).acc.getD (d.f NRG_PO_CFG.QTY k) 0 / pq }

/-- A write to NRG_PO_CFGk. -/
def poCfgWrite (k : Nat) (v : Word) (d : Device) : Device :=
  if d.fb NRG_PO_CFG.EN k then
    if bit v 31 then d.nrgErr 2
    else ((d.setf NRG_PO_CFG.EN 0 k).setPulse k { d.pulse k with pend := 0 }).poShow k
  else if bx v 23 16 = 0 then d.nrgErr 3
  else
    let d1 := d.wr NRG_PO_CFG k (v &&& 0xF0FF01FF#32)
    if bit v 31 then ((d1.poBase k).poShow k).poStart k else d1
/-- A write to NRG_PO_Qk. -/
def poQWrite (k : Nat) (v : Word) (d : Device) : Device := if d.fb NRG_PO_CFG.EN k then d.nrgErr 2 else d.wr NRG_PO_Q k v

/-- PULSE_OUTPUT_PHASE_END: the queue drains whether or not the device holds the baton (R311). -/
def pulsePhaseEnd (k : Nat) (d : Device) : Device :=
  let x := d.pulse k
  match x.phase with
  | .idle => d
  | .active t =>
    if d.now < t then d
    else ((d.setPulse k { x with phase := .inactive (t + d.f NRG_PO_CFG.PW_MS k * Time.msU) }).count NRG_PLSO_PULSES).poDrive k false
  | .inactive t => if d.now < t then d else (d.setPulse k { x with phase := .idle }).poStart k

/-! Accumulation. -/

/-- Add to an accumulator and to the interval at a position; pulse outputs follow (R301, R310). -/
def Device.nrgAdd (d : Device) (i iv q n : Nat) : Device :=
  if n = 0 then d
  else
    let p := d.point i
    let x := p.ivs.getD iv ivNone
    let p1 := { p with acc := lset p.acc q ((p.acc.getD q 0 + n) % 2 ^ 64),
                       ivs := lset p.ivs iv { x with adds := lset x.adds q ((x.adds.getD q 0 + n) % 2 ^ 64) } }
    (List.range 32).foldl (fun y k => y.poFeed i q k) (d.setPoint i p1)
/-- add(a, x) of R301 with divisor `dv`. -/
def Device.nrgAddPower (d : Device) (i iv q x dv : Nat) : Device :=
  let p := d.point i
  let r := p.rem.getD q 0 + x
  (d.setPoint i { p with rem := lset p.rem q (r % dv) }).nrgAdd i iv q (r / dv)

/-- v * conj(i), as ANGDIFF forms it (spec/04); and s + v * conj(i) with the same products fused in the same order (DEDUCED, log entry 78). -/
def cProdConj (v i : Word × Word) : Word × Word := (fFma v.1 i.1 (fMul v.2 i.2), fFma v.2 i.1 (fNeg (fMul v.1 i.2)))
def cMacConj (s v i : Word × Word) : Word × Word := (fFma v.1 i.1 (fFma v.2 i.2 s.1), fFma v.2 i.1 (fFma (fNeg v.1) i.2 s.2))
/-- The references a point uses. -/
def peUsed (e : List Word) : List Nat := if peKind e = 0 then [1, 2, 3, 4, 5, 6] else [1, 2]
/-- The words of its lane's records a point reads. -/
def peWords (e : List Word) : List (Nat × Nat) := let l := (peUsed e).map (fun k => wRef (wd e k)); (wQual 0 :: l.map (fun w => wQual w.1) ++ l).eraseDups
/-- Active and reactive power of a sample in microwatts (R300), or none where the sample is missing. -/
def nrgPower (e : List Word) (recs : List (List Word)) (nph : Nat) : Option (Int × Int) :=
  let w := recQR recs
  let ph (k : Nat) : Word × Word := let s := refSlot (wd e k); if s < nph then recPhasor recs s else (fNaN, fNaN)
  if bit w qSUBST || !bit w qVALID || (peUsed e).any (fun k => cIsNaN (ph k)) then none
  else
    let s0 := cProdConj (ph 1) (ph 2)
    let s := if peKind e = 0 then cMacConj (cMacConj s0 (ph 3) (ph 4)) (ph 5) (ph 6)
      else if peKind e = 1 then (fMul 0x40400000#32 s0.1, fMul 0x40400000#32 s0.2) else s0
    let re := if peInv e then fNeg s.1 else s.1
    let p := fMul re 0x447A0000#32
    let q := fMul s.2 0x447A0000#32
    let ok (x : Word) : Bool := fFinite x && decide (-(2 ^ 63) ≤ fRne x) && decide (fRne x < 2 ^ 63)
    if ok p && ok q then some (fRne p * 1000, fRne q * 1000) else none

/-- A lane sample that is not missing (R301, R302). -/
def Device.nrgTake (d : Device) (i : Nat) (e : List Word) (t : Time) (pw qw : Int) (unset : Bool) (rate : Nat) : Device :=
  let dv := 3600 * rate
  let p := d.ivsTo e t (d.point i)
  let k := ivFind d t p.ivs
  let iv := p.ivs.getD k ivNone
  let dir := if pw > 0 then some false else if pw < 0 then some true else p.dir
  let rev := p.dir.isSome && decide (dir ≠ p.dir)
  let iv1 := { iv with dirS := if iv.samples = 0 then p.dir.getD false else iv.dirS, dirE := dir.getD false, rev := iv.rev + b2n rev,
                       samples := iv.samples + 1, firstRev := if rev && iv.firstRev.isNone then some (max t iv.start) else iv.firstRev,
                       unset := iv.unset || unset }
  let d1 := d.setPoint i { p with dir := dir, ivs := lset p.ivs k iv1, last := t }
  let d2 := (if rev then d1.count NRG_REVERSALS else d1).count NRG_SAMPLES
  let d3 := match dir with
    | some x => d2.nrgAddPower i k (b2n x) pw.natAbs dv
    | none => d2
  if qw = 0 then d3
  else
    let quad := match dir.getD false, decide (0 < qw) with | false, true => 2 | true, true => 3 | true, false => 4 | false, false => 5
    d3.nrgAddPower i k quad qw.natAbs dv

/-- The enabled lane points fed from a heat. -/
def Device.heatPoints (d : Device) (h : Nat) : List (Nat × List Word) :=
  (d.ents tPoint).filter (fun e => peEn e.2 && decide (peKind e.2 ≠ 3) && decide (d.pointHeat e.2 = h))

/-- A missing sample of a point whose lap time is `t`: counted, in the interval that holds it too. -/
def Device.nrgMiss (d : Device) (i : Nat) (e : List Word) (t : Time) : Device :=
  let p := d.ivsTo e t (d.point i)
  let k := ivFind d t p.ivs
  let iv := p.ivs.getD k ivNone
  (d.setPoint i { p with ivs := lset p.ivs k { iv with missed := iv.missed + 1 } }).count NRG_MISSING
/-- The samples of a lap, at the delivery of its RELEASE token (R299). -/
def Device.energyLap (d : Device) (h n : Nat) : Device :=
  (d.heatPoints h).foldl (fun x e =>
    let lane := peLane e.2
    let lost := x.gsLost h n lane (peWords e.2)
    let x := x.gsTouch h n lane (peWords e.2)
    match (if lost then none else x.lapRecs h n lane) with
    | none => x.nrgMiss e.1 e.2 (x.lapT h n)
    | some recs => match nrgPower e.2 recs (leNph (x.laneE lane)) with
      | none => x.nrgMiss e.1 e.2 (x.lapT h n)
      | some (p, q) => x.nrgTake e.1 e.2 (x.lapT h n) p q (bit (recQR recs) qUNSETTLED) (x.rate h)) d
/-- A skipped lap gives each point a missing sample (R299). -/
def Device.energySkip (d : Device) (h n : Nat) : Device := (d.heatPoints h).foldl (fun x e => x.nrgMiss e.1 e.2 (x.lapT h n)) d

/-! Pulse inputs (R303). -/

def plsiInit : PulseIn := ⟨false, none, false⟩
def Device.plsi (d : Device) (i : Nat) : PulseIn := mgetD d.nrg.inputs i plsiInit
def Device.setPlsi (d : Device) (i : Nat) (x : PulseIn) : Device := d.setNrg { d.nrg with inputs := mset d.nrg.inputs i x }

/-- PLSI_LEVEL_CHANGE. -/
def plsiLevel (i : Nat) (lvl : Bool) (d : Device) : Device :=
  let x := d.plsi i
  if !d.alive || decide (32 ≤ i) || x.raw = lvl then d
  else if !d.fb NRG_PI_CFG.EN i then d.setPlsi i { x with raw := lvl }
  else if lvl = x.level then
    let d1 := d.setPlsi i { x with raw := lvl, edge := none }
    if x.edge.isSome then d1.count NRG_PLSI_GLITCH else d1
  else d.setPlsi i { x with raw := lvl, edge := some d.now }

/-- A pulse of an input counts at its instant (R303): also where a journal entry brings it. -/
def Device.plsiPulse (d : Device) (i : Nat) (t : Time) : Device :=
  match (d.ents tPoint).find? (fun e => peEn e.2 && decide (peKind e.2 = 3) && decide (pePlsi e.2 = i)) with
  | none => d
  | some (n, e) =>
    let p := d.ivsTo e t (d.point n)
    let k := ivFind d t p.ivs
    ((d.setPoint n { p with last := t }).nrgAdd n k (peQty e) (wd e 2).toNat).count NRG_PLSI_PULSES

/-- PULSE_ACCEPT: a level has been stable for DEB_US. -/
def pulseAccept (i : Nat) (d : Device) : Device :=
  let x := d.plsi i
  match x.edge with
  | none => d
  | some t0 =>
    let t := t0 + d.f NRG_PI_CFG.DEB_US i * Time.usU
    if !d.alive || !d.fb NRG_PI_CFG.EN i || decide (d.now < t) then d
    else
      let d1 := (d.setPlsi i { x with level := x.raw, edge := none }).wr NRG_PI_LEVEL 0 (bset (d.rg NRG_PI_LEVEL 0) i i (b2n x.raw))
      if x.raw ≠ d.fb NRG_PI_CFG.EDGE i && d.racing then (d1.journal 0x04 i t []).plsiPulse i t else d1

/-- A write to NRG_PI_CFGi. An input that is enabled at another level than its debounced one debounces from then. -/
def piCfgWrite (i : Nat) (v : Word) (d : Device) : Device :=
  let old := d.rg NRG_PI_CFG i
  if bx v 15 0 = 0 then d.nrgErr 3
  else if d.fb NRG_PI_CFG.EN i ∧ (bx v 30 30 ≠ bx old 30 30 ∨ bx v 15 0 ≠ bx old 15 0) then d.nrgErr 2
  else
    let d1 := d.wr NRG_PI_CFG i (v &&& 0xC000FFFF#32)
    let x := d1.plsi i
    if !bit v 31 then d1.setPlsi i { x with edge := none }
    else if bit old 31 || decide (x.raw = x.level) then d1
    else d1.setPlsi i { x with edge := some d1.now }

/-! Snapshots (R304, R305). -/

/-- The words of a snapshot (Table 10.11). -/
def Device.nrgSnap (d : Device) (i : Nat) : List Word :=
  let e := d.ent tPoint i
  let p := d.point i
  let q := 10 ^ (3 + peQuant e)
  [w32 (b2n (peEn e) * 2147483648 + i), w32 (Time.secOf p.last), w32 (Time.nsOf p.last), 0#32] ++
  (List.range 6).flatMap (fun k => let c := p.acc.getD k 0 / q; [w32 c, w32 (c / 2 ^ 48 % 65536 * 65536 + c / 4294967296 % 65536)])
/-- NRG_SNAPSHOT_REQUEST. -/
def nrgSnapRequest (i : Nat) (d : Device) : Device :=
  match slotRequest d.nrg.slot with
  | none => d.nrgErr 1
  | some s => d.setNrg { d.nrg with slot := { s with data := d.nrgSnap (i % 512) } }
/-- NRG_SNAPSHOT_COMPLETE. -/
def nrgSnapComplete (d : Device) : Device :=
  if d.nrg.slot.st = .busy then (d.setNrg { d.nrg with slot := slotReady d.nrg.slot d.nrg.slot.data }).count NRG_SNAPS else d
/-- NRG_SNAPSHOT_RELEASE. -/
def nrgSnapRelease (v : Word) (d : Device) : Device :=
  match slotRelease d.nrg.slot (bx v 15 0) with
  | none => d.count HIF_SLOT_REL_BAD
  | some s => d.setNrg { d.nrg with slot := s }

/-! Enabling, disabling, presets and the restore. -/

/-- Keep NRG_STAT.POINTS at the number of enabled points. -/
def Device.nrgPoints (d : Device) : Device := d.setf NRG_STAT.POINTS ((d.ents tPoint).filter (fun e => peEn e.2)).length
/-- A point entry has been stored over `old` (R296, R308). -/
def Device.pointLoaded (d : Device) (i : Nat) (old : List Word) : Device :=
  let e := d.ent tPoint i
  let d1 := if peEn old then d.ivCloseAll i false true else d
  let p := d1.point i
  (if peEn e then d1.setPoint i { p with ivs := [d1.ivOpen e d1.now (p.dir.getD false) true] } else d1).nrgPoints
/-- An accumulator image has been loaded (R312). An enabled output follows its accumulator's increase (R310). -/
def Device.pointPreset (d : Device) (i : Nat) (acc : List Nat) : Device :=
  let d1 := d.setPoint i { d.point i with acc := acc, rem := zero6, dir := none }
  (List.range 6).foldl (fun x q => (List.range 32).foldl (fun y k => y.poFeed i q k) x) d1

/-- Restore a good save at RACE entry, and close its open intervals with OUTAGE (R313). It holds every point and output: one that it does not list
was at zero. -/
def Device.energyRestore (d : Device) (s : SaveImage) : Device :=
  let d0 := (mkeys d.nrg.outputs).foldl (fun x p => (x.setPulse p ⟨0, 0, .idle⟩).poShow p) (d.setNrg { d.nrg with points := [] })
  let d1 := s.points.foldl (fun x p => (x.setPoint p.1 p.2).ivCloseAll p.1 true false) d0
  let d2 := s.pulses.foldl (fun x p => (x.setPulse p.1 ⟨0, p.2, .idle⟩).poShow p.1) d1
  let d3 := (d2.ents tPoint).foldl (fun x e =>
    if peEn e.2 then x.setPoint e.1 { x.point e.1 with ivs := [x.ivOpen e.2 x.now ((x.point e.1).dir.getD false) true] } else x) d2
  let d4 := (List.range 32).foldl (fun x k => if x.fb NRG_PO_CFG.EN k then (x.poBase k).poStart k else x) d3
  (d4.setf NRG_STAT.RESTORED 1).setf NRG_STAT.RESTORE_FAIL 0
/-- A save fails its check: every point comes up disabled (R313). Which item is named is left open. -/
def Device.energyRestoreFail (d : Device) : Device :=
  let d1 := (d.ents tPoint).foldl (fun x e => (x.setEnt tPoint e.1 (lset e.2 0 (bset (wd e.2 0) 31 31 0))).setPoint e.1 { x.point e.1 with ivs := [] }) d
  let d2 := ((d1.setf NRG_STAT.RESTORE_FAIL 1).setf NRG_STAT.RESTORED 0).nrgPoints
  ({ d2 with free := d2.free + 1 }).raise EV_NRG_RESTORE [(Config.freeWord d2.free).toNat]

end Sys2Proof.Machine
end

