-- ==== Sys2Proof/Machine/Hold.lean ====
section
/-!
DEFINITION. Changes of mode and the entry to HOLD (R486, R487, R493, R494).
-/
namespace Sys2Proof.Machine

/-- The coding of Table 19.1. -/
def modeCode (m : Mode) : Nat :=
  match m with
  | .reset => 0 | .warmup => 1 | .race => 2 | .follow => 3 | .rerun => 4 | .hold => 5

/-- Change the mode, with EV_PWR_MODE (R487). -/
def Device.setMode (d : Device) (m : Mode) : Device :=
  if m = d.pwr.mode then d
  else ({ d with pwr := { d.pwr with mode := m } }).raise EV_PWR_MODE [modeCode d.pwr.mode, modeCode m]

/-- The holder stops toggling (R375); causes: 1 handover, 2 heartbeat, 3 memory, 4 HOLD or RESET. -/
def Device.stopToggle (d : Device) (cause : Nat) : Device :=
  if d.rly.toggling then { d with rly := { d.rly with toggling := false, cause := cause } } else d

/-- Enter HOLD (R493): accumulation, journal, transmission and toggling stop, a key store command in progress completes (R418), the privilege
window closes (R415), and EV_PWR_HOLD is the last record. A flush under way ends, since the buffer now goes to the save area (R437). A device that is no pair's holds the baton only while in RACE (R378). -/
def Device.enterHold (d : Device) (fatal : Bool) : Device :=
  if d.pwr.mode = .reset ∨ d.pwr.mode = .hold then d
  else
    let d0 := ((keyComplete (d.stopToggle 4)).txStopAll).privClose
    let d1 := if d0.paired then d0 else d0.setf RLY_STAT.HOLDER 0
    let d2 := { d1 with pwr := { d1.pwr with holdAt := some d.tk.now, holdFatal := fatal, saveEnded := none },
                        scb := { d1.scb with flushing := 0, flushAgain := false } }
    ((d2.count PWR_HOLDS).setMode .hold).raise EV_PWR_HOLD [(Config.holdCause fatal).toNat]

/-- A fatal error (R494). Causes as FCAUSE codes them: 1 clock, 2 memory, 3 boot, 4 self-test, 5 health trip, 6 watchdog. -/
def Device.fatalError (d : Device) (cause detail : Nat) : Device :=
  if d.pwr.mode = .reset then d
  else
    let d1 := (d.setf PWR_STAT.FATAL 1).setf PWR_STAT.FCAUSE cause
    ((d1.count PWR_FATALS).raise EV_PWR_FATAL [cause, (Config.fatalDetail cause detail).toNat]).enterHold true

/-- A fatal memory error (R462). -/
def Device.memFatal (d : Device) (arr bank : Nat) (idx : Word) : Device :=
  (((d.setf MEM_STAT.FATAL 1).raise EV_MEM_FATAL [arr, bank, idx.toNat]).stopToggle 3).fatalError 2 arr

end Sys2Proof.Machine
end

