-- ==== Sys2Proof/Machine/Hurdles.lean ====
section
/-!
DEFINITION. Hurdles and alarms (spec/08): comparisons and persistence (R236, R237), the two chains (R238 to R241), alarm records and
their delivery (R245, R246), threshold commands (R244) and the hardwired outputs (R247, R248).
-/
namespace Sys2Proof.Machine

def Device.setHur (d : Device) (h : Nat) (x : HurSt) : Device := { d with alm := { d.alm with hur := mset d.alm.hur h x } }

/-! Hurdle entries (Table 8.1). -/
def huEn (e : List Word) : Bool := bit (wd e 0) 31
def huOpA (e : List Word) : Nat := bx (wd e 0) 30 28
def huOpB (e : List Word) : Nat := bx (wd e 0) 27 25
def huComb (e : List Word) : Nat := bx (wd e 0) 24 23
def huNanp (e : List Word) : Nat := bx (wd e 0) 22 21
def huSev (e : List Word) : Nat := bx (wd e 0) 20 18
def huInst (e : List Word) : Nat := bx (wd e 0) 11 0
def huValA (e : List Word) : Nat := bx (wd e 1) 31 16
def huValB (e : List Word) : Nat := bx (wd e 1) 15 0
def huOn (e : List Word) : Nat := bx (wd e 5) 15 8
def huOff (e : List Word) : Nat := bx (wd e 5) 7 0
def huMask (e : List Word) : Nat := bx (wd e 6) 31 16

/-- The thresholds of a hurdle for a lap (R244): THR_A, HYS_A, THR_B. -/
def thrAt (e : List Word) (h : HurSt) (lap : Nat) : Word × Word × Word :=
  match h.thr.find? (fun t => decide (t.1 ≤ lap)) with
  | some t => t.2
  | none => (wd e 2, wd e 3, wd e 4)

/-! Conditions (Table 8.2, R236). -/

/-- One comparison. -/
def cmpOp (op : Nat) (x t h : Word) (act : Bool) : Bool :=
  match op with
  | 0 => fLt (if act then fSub t h else t) x
  | 1 => fLt x (if act then fAdd t h else t)
  | 2 => fLt (if act then fSub t h else t) (fAbs x)
  | 3 => !fEq x t
  | _ => fEq x t

/-- Values A and B of a block; B is +0.0 where COMB does not use it. -/
def valA (e : List Word) (b : Block) : Word := b.vals.getD (huValA e) fNaN
def valB (e : List Word) (b : Block) : Word := if huComb e = 0 then 0#32 else b.vals.getD (huValB e) fNaN
/-- A value that is used is NaN. -/
def condNaN (e : List Word) (b : Block) : Bool := fIsNaN (valA e b) || fIsNaN (valB e b)
/-- The lap condition of a chain; none is hold. -/
def lapCond (e : List Word) (h : HurSt) (b : Block) (act : Bool) : Option Bool :=
  if condNaN e b then (match huNanp e with | 0 => some false | 1 => some true | _ => none)
  else
    let t := thrAt e h b.lap
    let a := cmpOp (huOpA e) (valA e b) t.1 t.2.1 act
    let c := cmpOp (huOpB e) (valB e b) t.2.2 0#32 act
    some (match huComb e with | 0 => a | 1 => a && c | _ => a || c)

/-- One lap of a chain (R237). -/
def chainStep (on off : Nat) (c : Option Bool) (x : Chain) : Chain :=
  match c with
  | none => x
  | some v =>
    if x.active then
      let n := if v then 0 else x.off + 1
      if n ≥ off then ⟨false, 0, n⟩ else ⟨true, x.on, n⟩
    else
      let n := if v then x.on + 1 else 0
      if n ≥ on then ⟨true, n, 0⟩ else ⟨false, n, x.off⟩

/-! Records (Table 8.4). -/

/-- What a record says beside its hurdle and block. -/
structure RecKind where
  kind : Nat
  state : Nat
  firm : Bool
  found : Bool
  raise : Nat
  deriving DecidableEq, Repr

/-- The sixteen words of a record. -/
def almRecord (h : Nat) (e : List Word) (b : Block) (k : RecKind) (now : Time) (seq : Nat) : List Word :=
  [w32 (k.kind * 268435456 + k.state * 67108864 + huSev e * 8388608 + b2n k.firm * 4194304 + b2n k.found * 2097152 + b2n b.early * 1048576 +
     b2n b.late * 524288 + b2n b.complete * 262144 + h),
   w32 b.lap, w32 (b.lap / 4294967296 % 65536 * 65536 + b.seq * 256), w32 k.raise, w32 (k.raise / 4294967296 % 65536 * 65536),
   w32 (b.inst * 1048576 + b.nexcl % 1048576), w32 (b.heat * 4194304), valA e b, valB e b, wd e 7, w32 (Time.secOf now), w32 (Time.nsOf now),
   w32 seq, 0#32, 0#32, 0#32]
/-- A LOSS record. -/
def lossRecord (now : Time) (seq lost : Nat) : List Word :=
  [w32 (5 * 268435456)] ++ List.replicate 9 0#32 ++ [w32 (Time.secOf now), w32 (Time.nsOf now), w32 seq, w32 lost, 0#32, 0#32]

def Device.setAlm (d : Device) (a : Alm) : Device := { d with alm := a }
/-- The level shown in ALM_BUF. -/
def Device.almLevel (d : Device) : Device := (d.setf ALM_BUF.LEVEL d.alm.buf.length).hwm ALM_BUF.HWM d.alm.buf.length
/-- The copy of a record in stream FIFO 1 (R405). -/
def Device.almCopy (d : Device) (ws : List Word) : Device :=
  match d.sfPush 1 ⟨false, 0, leBytes ws⟩ with
  | some x => x
  | none => d.count HIF_SF_DROP

/-- A record is dropped (R246, R263). -/
def Device.almDrop (d : Device) : Device :=
  let d1 := (d.setAlm { d.alm with lost := d.alm.lost + 1, lossEp := true }).count ALM_HOST_DROP
  if d.alm.lossEp then d1 else d1.raise EV_ALM_HOST_LOSS [d.alm.buf.length]
/-- Put a record into the buffer, or drop it (R246). -/
def Device.almBuffer (d : Device) (ws : List Word) : Device :=
  if d.alm.buf.length ≥ 8192 then d.almDrop else (d.setAlm { d.alm with buf := d.alm.buf ++ [ws] }).almLevel
/-- Deliver a record to the host's ring, or let it wait (R246, R372). -/
def Device.almDeliver (d : Device) (ws : List Word) : Device :=
  if !d.fb ALM_CFG.EN || d.pwr.mode = .follow then d
  else if !d.alm.buf.isEmpty then d.almBuffer ws
  else match d.cqRecord (d.f ALM_CFG.RING) 1 ws with
    | some x => x
    | none => d.almBuffer ws

/-- The sequence number of the next record. -/
def Device.almSeq (d : Device) : Device := d.setAlm { d.alm with recSeq := (d.alm.recSeq + 1) % 4294967296 }

/-- Where records have been dropped, a LOSS record takes their place at the end of the buffer (R246). -/
def Device.almLoss (d : Device) : Device :=
  if d.alm.lost = 0 then d
  else
    let l := lossRecord d.now d.alm.recSeq d.alm.lost
    let d1 := (d.almCopy l).almSeq
    d1.setAlm { d1.alm with buf := d1.alm.buf ++ [l], lost := 0, lossEp := false }
/-- Buffered records go to the ring as it takes them, but in FOLLOW, which writes none (R372); as soon as the buffer has space again, a LOSS record
takes the place of what was dropped behind it (R246, DEDUCED, log entry 30). -/
def almDrainF (fuel : Nat) (d : Device) : Device :=
  match fuel with
  | 0 => d
  | n + 1 =>
    match d.alm.buf with
    | [] => d
    | r :: rest =>
      if !d.fb ALM_CFG.EN || d.pwr.mode = .follow then d
      else match d.cqRecord (d.f ALM_CFG.RING) 1 r with
        | none => d
        | some d1 => almDrainF n (d1.setAlm { d1.alm with buf := rest }).almLoss.almLevel
/-- ALARM_RECORD_DRAIN. -/
def alarmRecordDrain (d : Device) : Device := almDrainF (d.alm.buf.length + 2) d

/-- The counter of a record. -/
def recCtr (k : RecKind) (d : Device) : Device :=
  match k.kind with
  | 1 => if k.firm then d.count ALM_RAISE_FIRM else d.count ALM_RAISE_PROV
  | 2 => if k.found then (d.count ALM_CONFIRM).count ALM_FOUND else d.count ALM_CONFIRM
  | 3 => d.count ALM_RECALL
  | _ => d.count ALM_CLEAR

/-- Emit a record (R239, R246): host ring, stream FIFO 1, Scorebook, and the level CONF (R240). -/
def Device.almEmit (d : Device) (h : Nat) (e : List Word) (b : Block) (k : RecKind) : Device :=
  let ws := almRecord h e b k d.now d.alm.recSeq
  let d1 := (recCtr k d).almSeq
  let d2 := (d1.almDeliver ws).almCopy ws
  let d3 := d2.raise EV_ALM_STATE [k.kind * 268435456 + k.state * 67108864 + h, b.lap, (valA e b).toNat]
  let x := d3.hur h
  let later := match x.confLap with | some l => decide (l < b.lap) | none => true
  if later && k.state = 2 then d3.setHur h { x with conf := true, confLap := some b.lap }
  else if later && k.kind = 4 then d3.setHur h { x with conf := false, confLap := some b.lap }
  else d3

/-! Hardwired outputs (R247). -/

def aoutInit : AoutSt := ⟨false, false, 0, false⟩
def Device.aoutSt (d : Device) (k : Nat) : AoutSt := mgetD d.alm.aout k aoutInit
/-- The OR over the hurdles of an output. -/
def Device.aoutLevel (d : Device) (k : Nat) : Bool :=
  (d.ents tHurdle).any (fun e => huEn e.2 && decide (huMask e.2 / 2 ^ k % 2 = 1) &&
    (d.hurConf e.1 || (d.fb ALM_AOUT_CFG.ACT_ON k && d.hurProv e.1)))
/-- The state after LATCH and MIN_ON_MS. -/
def aoutShape (lvl latch : Bool) (minOn : Nat) (now : Time) (a : AoutSt) : AoutSt :=
  if lvl && !a.act then { a with act := true, cleared := false, minUntil := now + minOn * Time.msU }
  else if !lvl && a.act && (!latch || a.cleared) && decide (a.minUntil ≤ now) then { a with act := false, cleared := false }
  else a
/-- The level after FORCE. -/
def aoutForced (force : Nat) (act : Bool) : Bool := match force with | 1 => false | 2 => true | _ => act
/-- The electrical level of an output. -/
def Device.aoutPin (d : Device) (k : Nat) : Bool := (d.aoutSt k).level = d.fb ALM_AOUT_CFG.POL k
/-- Drive an output, where its driver is enabled (R248). -/
def Device.aoutDrive (d : Device) (k : Nat) : Device := if d.fb ALM_AOUT.DRV_EN && !d.driversKept then d.emit (.pin 0 k (d.aoutPin k)) else d
/-- Recompute and shape one output; HOLD keeps the last levels (R493). -/
def Device.aoutOne (d : Device) (k : Nat) : Device :=
  let a := aoutShape (d.aoutLevel k) (d.fb ALM_AOUT_CFG.LATCH k) (d.f ALM_AOUT_CFG.MIN_ON_MS k) d.now (d.aoutSt k)
  let v := aoutForced (d.f ALM_AOUT_CFG.FORCE k) a.act
  let d1 := d.setAlm { d.alm with aout := mset d.alm.aout k { a with level := v } }
  if d.pwr.mode = .hold then d
  else if v = (d.aoutSt k).level then d1
  else (d1.wr ALM_AOUT 0 (bset (d1.rg ALM_AOUT 0) k k (b2n v))).aoutDrive k
def Device.aoutRefresh (d : Device) : Device := (List.range 16).foldl (fun x k => x.aoutOne k) d

/-- What follows the hurdles' levels: the hardwired outputs (R247) and the publications (R251). -/
def Device.levels (d : Device) : Device := d.aoutRefresh.gooseCheck

/-! Evaluation (R238, R239). -/

def Device.evalCount (d : Device) (e : List Word) (b : Block) : Device :=
  let d1 := d.count ALM_EVALS
  if condNaN e b then d1.count ALM_NAN_LAPS else d1

/-- The provisional chain evaluates a lap. -/
def Device.evalProv (d : Device) (h : Nat) (e : List Word) (b : Block) : Device :=
  let x := d.hur h
  let p := chainStep (huOn e) (huOff e) (lapCond e x b x.p.active) x.p
  let firm := if x.p.on = 0 then b.final else x.firm && b.final
  let rises := !x.p.active && p.active
  let x1 := { x with p := p, firm := firm, raised := if rises then b.lap :: x.raised else x.raised,
                     prov := if rises && !firm then b.lap :: x.prov else x.prov }
  let d1 := (d.evalCount e b).setHur h x1
  if !rises then d1 else (d1.almEmit h e b ⟨1, if firm then 2 else 1, firm, false, b.lap⟩).levels

/-- The confirmed chain evaluates a lap. -/
def Device.evalConf (d : Device) (h : Nat) (e : List Word) (b : Block) : Device :=
  let x := d.hur h
  let c := chainStep (huOn e) (huOff e) (lapCond e x b x.c.active) x.c
  let was := x.c.active
  let answered := x.prov.contains b.lap
  let d1 := (d.evalCount e b).setHur h { x with c := c, prov := x.prov.filter (fun l => decide (l ≠ b.lap)),
                                                raised := x.raised.filter (fun l => decide (l ≠ b.lap)) }
  let d2 := if answered then
      (if c.active then d1.almEmit h e b ⟨2, 2, false, false, b.lap⟩ else d1.almEmit h e b ⟨3, 3, false, false, b.lap⟩)
    else if !was && c.active && !x.raised.contains b.lap then d1.almEmit h e b ⟨2, 2, false, true, b.lap⟩
    else d1
  (if was && !c.active then d2.almEmit h e b ⟨4, 0, false, false, b.lap⟩ else d2).levels

/-- An instance whose blocks come one for each lap of its heat, so that a chain waits for the lap before (R238). The others commit in lap order,
each block FINAL. -/
def Device.lapDriven (d : Device) (inst : Nat) : Bool :=
  let e := d.instE inst
  decide (ieTrig e = 0) && kernAmend (ieCode e) && (d.runsHere (ieHeat e) (ieCode e) || decide (ieCode e = kISLSUM ∧ d.combDev (ieHeat e) = d.self))
/-- Its blocks come from the combines of a spanning heat (R363, R365). -/
def Device.combDriven (d : Device) (inst : Nat) : Bool := d.combined inst || decide (ieCode (d.instE inst) = kISLSUM)
/-- A lap of a combine-driven instance for which this device commits no further block: another device combines it, and so it is no lap of the
instance's cadence here (R238, R364). In RACE that is known once its finish line has passed and no combine is due; elsewhere when every
journaled one has come (DEDUCED, log entry 31). -/
def Device.combOver (d : Device) (inst l : Nat) : Bool :=
  let h := ieHeat (d.instE inst)
  let due := match mget d.rxl.comb (ilKey inst l) with | some c => c.due || c.busy | none => false
  let past := match d.lap? h l with | some x => x.past | none => (match d.run? h with | some r => decide (l < r.nextLap) | none => false)
  let settled := d.racing || decide (d.lapT h l + (heFinish (d.heatE h) + seWait (d.spanE h)) * Time.usU + Time.secU ≤ d.now)
  d.combDriven inst && past && settled && !due && !d.uncommitted inst l

/-- The block that stands for a skipped lap (R236). -/
def skipBlock (inst heat lap nout : Nat) : Block :=
  ⟨inst, heat, lap, 0, false, false, true, false, false, false, 0, List.replicate nout fNaN⟩

/-- A lap was skipped, and so gives the instance no block here. -/
def Device.wasSkipped (d : Device) (inst h n : Nat) : Bool :=
  (!d.combDriven inst || decide (d.combDev h = d.self)) && (match d.run? h with | some r => r.skipped.contains n | none => false)

/-- Evaluate waiting laps of both chains of a hurdle, in lap order, the provisional chain first. -/
def hurAdvance (fuel : Nat) (h : Nat) (d : Device) : Device :=
  match fuel with
  | 0 => d
  | n + 1 =>
    let e := d.ent tHurdle h
    let x := d.hur h
    let ie := d.instE (huInst e)
    let pass (m : Option Nat) : Option Nat := match m with | some l => if d.combOver (huInst e) l then some (l + 1) else none | none => none
    let at_ (m : Option Nat) (bs : List Block) : Option Block := match m with
      | none => none
      | some l => match bs.find? (fun b => b.lap = l) with
        | some b => some b
        | none => if d.wasSkipped (huInst e) (ieHeat ie) l then some (skipBlock (huInst e) (ieHeat ie) l (ieNout ie)) else none
    match at_ x.provNext x.pendP with
    | some b =>
      hurAdvance n h ((d.setHur h { x with provNext := some (b.lap + 1), pendP := x.pendP.filter (fun y => decide (y.lap ≠ b.lap)) }).evalProv h e b)
    | none => match at_ x.confNext x.pendC with
      | some b =>
        hurAdvance n h ((d.setHur h { x with confNext := some (b.lap + 1), pendC := x.pendC.filter (fun y => decide (y.lap ≠ b.lap)) }).evalConf h e b)
      | none => match pass x.provNext, pass x.confNext with
        | some l, _ => hurAdvance n h (d.setHur h { x with provNext := some l })
        | none, some l => hurAdvance n h (d.setHur h { x with confNext := some l })
        | none, none => d

/-- The number of evaluations that may be due. -/
def Device.hurFuel (d : Device) (h : Nat) : Nat :=
  let x := d.hur h
  let i := huInst (d.ent tHurdle h)
  let left (r : HeatRun) (m : Option Nat) : Nat := match m with | some l => r.nextLap - l | none => 0
  let sk := match d.run? (ieHeat (d.instE i)) with
    | some r => r.skipped.length + (if d.combDriven i then left r x.provNext + left r x.confNext else 0)
    | none => 0
  2 * (x.pendP.length + x.pendC.length + sk) + 4

/-- A lap has not been evaluated and does not wait. -/
def lapNew (next : Option Nat) (pend : List Block) (m : Nat) : Bool :=
  (match next with | some n => decide (n ≤ m) | none => false) && !pend.any (fun b => b.lap = m)

/-- A block reaches a hurdle (R238). -/
def Device.hurBlock (d : Device) (h : Nat) (b : Block) : Device :=
  let x := d.hur h
  if d.lapDriven b.inst then
    let p := if b.seq = 0 && lapNew x.provNext x.pendP b.lap then x.pendP ++ [b] else x.pendP
    let c := if b.final && lapNew x.confNext x.pendC b.lap then x.pendC ++ [b] else x.pendC
    let d1 := d.setHur h { x with pendP := p, pendC := c }
    hurAdvance (d1.hurFuel h) h d1
  else
    let e := d.ent tHurdle h
    let after (o : Option Nat) : Bool := match o with | some n => decide (n ≤ b.lap) | none => true
    let d1 := if b.seq = 0 && after x.provNext then (d.setHur h { x with provNext := some (b.lap + 1) }).evalProv h e b else d
    let y := d1.hur h
    if b.final && after y.confNext then (d1.setHur h { y with confNext := some (b.lap + 1) }).evalConf h e b else d1

/-! The hardwired outputs' commands (R247). -/

/-- AOUT_MIN_ON_EXPIRY. -/
def aoutMinOnExpiry (k : Nat) (d : Device) : Device := if d.alive && decide (k < 16) then d.aoutOne k else d
/-- A write to ALM_AOUT_CLR: it acts on an output that LATCH keeps active. -/
def aoutClr (v : Word) (d : Device) : Device :=
  (List.range 16).foldl (fun x k =>
    if bit v k && (x.aoutSt k).act && x.fb ALM_AOUT_CFG.LATCH k then
      (x.setAlm { x.alm with aout := mset x.alm.aout k { x.aoutSt k with cleared := true } }).aoutOne k
    else x) d
/-- A write to ALM_AOUT_CFGk; FORCE 0b11 makes the write ignored. -/
def aoutCfgWrite (k : Nat) (v : Word) (d : Device) : Device :=
  if bx v 31 30 = 3 then d
  else
    let old := d.f ALM_AOUT_CFG.FORCE k
    let pin := d.aoutPin k
    let d1 := d.wr ALM_AOUT_CFG k (v &&& 0xF800FFFF#32)
    let d2 := if bx v 31 30 = old then d1 else d1.raise EV_ALM_AOUT_FORCE [k, old, bx v 31 30]
    let lvl := (d2.aoutSt k).level
    let d3 := d2.aoutOne k
    if (d3.aoutSt k).level = lvl && d3.aoutPin k ≠ pin then d3.aoutDrive k else d3

/-! Blocks and commands. -/

/-- A block reaches the hurdle unit (R139): every hurdle that watches its instance. -/
def Device.hurdleBlock (d : Device) (b : Block) : Device :=
  let hs := (d.ents tHurdle).filterMap (fun e => if huEn e.2 ∧ huInst e.2 = b.inst then some e.1 else none)
  (hs.foldl (fun x h => x.hurBlock h b) d).gooseCheck

/-- A lap of a heat was skipped, or is over: hurdles that waited for it go on (R236, R238). -/
def Device.hurdleSkip (d : Device) (heat : Nat) : Device :=
  let hs := (d.ents tHurdle).filterMap (fun e =>
    if huEn e.2 ∧ ieHeat (d.instE (huInst e.2)) = heat ∧ d.lapDriven (huInst e.2) then some e.1 else none)
  hs.foldl (fun x h => hurAdvance (x.hurFuel h) h x) d

/-- The finish line of a lap of a spanning heat has passed. -/
def Device.hurdleFinish (d : Device) (heat : Nat) : Device := if d.spans heat then d.hurdleSkip heat else d

/-- A hurdle starts afresh: at its load (`none`) or when its heat is enabled with its first lap (R237). -/
def Device.hurRestart (d : Device) (h : Nat) (first : Option Nat) : Device :=
  let f := if d.lapDriven (huInst (d.ent tHurdle h)) then first else none
  d.setHur h { hurInit with provNext := f, confNext := f }
/-- The hurdles of a heat restart at its enable. -/
def Device.hurEnable (d : Device) (heat first : Nat) : Device :=
  let hs := (d.ents tHurdle).filterMap (fun e => if huEn e.2 ∧ ieHeat (d.instE (huInst e.2)) = heat then some e.1 else none)
  if hs.isEmpty then d else (hs.foldl (fun x h => x.hurRestart h (some first)) d).levels

/-- The pending-store reservation of an enabled hurdle (R243): the lap period is not rounded. -/
def Device.hurReserve (d : Device) (e : List Word) : Nat :=
  if !huEn e then 0
  else
    let ie := d.instE (huInst e)
    let he := d.heatE (ieHeat ie)
    if kernAmend (ieCode ie) ∧ ieTrig ie = 0 ∧ !ieNoAmend ie then heFinish he * heRate he / 1000000 + 2 else 2

def Device.almErr (d : Device) (c : Nat) : Device := d.err ALM_STAT.ERR ALM_STAT.ECODE c

/-- The first lap of a heat that opens after now: the oldest WAITING lap, or else the next one (R244). -/
def Device.firstUnopened (d : Device) (heat : Nat) : Nat :=
  match (d.lapsOf heat).find? (fun l => l.st = .waiting), d.run? heat with
  | some l, _ => l.lap
  | none, some r => r.nextLap
  | none, none => 0

/-- A threshold takes its value from a lap on (R244). -/
def Device.thrSet (d : Device) (h op : Nat) (v : Word) (first : Nat) : Device :=
  let e := d.ent tHurdle h
  let x := d.hur h
  let old : Nat × Word × Word × Word := (0, wd e 2, wd e 3, wd e 4)
  let e' := lset e (if op = 1 then 2 else if op = 2 then 3 else 4) v
  (d.setEnt tHurdle h e').setHur h { x with thr := (first, wd e' 2, wd e' 3, wd e' 4) :: (if x.thr.isEmpty then [old] else x.thr) }
/-- A threshold command (R244): OP 1 THR_A, 2 HYS_A, 3 THR_B. -/
def almThr (op : Nat) (d : Device) : Device :=
  let h := d.f ALM_HSEL.HURDLE
  let v := d.rg ALM_THR_VAL 0
  let e := d.ent tHurdle h
  if !huEn e then d.almErr 1
  else if op = 0 ∨ op > 3 then d.almErr 2
  else if !fFinite v then d.almErr 3
  else if op = 2 ∧ (fLt v 0#32 ∨ (!fIsZero v ∧ (huOpA e = 3 ∨ huOpA e = 4))) then d.almErr 4
  else
    let first := d.firstUnopened (ieHeat (d.instE (huInst e)))
    let d1 := d.thrSet h op v first
    (d1.count ALM_THR_CMDS).journalW 0x15 0 d1.now ([w32 h, w32 op, v] ++ two first)
/-- A write to ALM_THR_CMD. -/
def almThrCmdWrite (v : Word) (d : Device) : Device := almThr (bx v 31 28) d

end Sys2Proof.Machine
end

