-- ==== Sys2Proof/Machine/Oscdec.lean ====
section
/-!
DEFINITION. The decimation kernel OSCDEC as a function of its parameter block and the gathered records (spec/05, R155 to R159).
-/
namespace Sys2Proof.Machine

/-! The parameter block (Table 5.3). -/
def odOsr (p : List Word) : Nat := if bit (wd p 0) 31 then 30 else 25
def odNsig (p : List Word) : Nat := bx (wd p 0) 13 0
def odHold (p : List Word) : Nat := bx (wd p 1) 31 24
def odNbr (p : List Word) : Nat := bx (wd p 1) 12 0
def odMon (p : List Word) : Nat := bx (wd p 2) 13 0
def odDef (p : List Word) : Nat := bx (wd p 3) 11 0
/-- A signal entry: KIND, REF_A, REF_B, SCALE. -/
def odSigs (p : List Word) : List (Nat × Word × Word × Word) :=
  (List.range (odNsig p)).map (fun j => (bx (wd p (4 + 4 * j)) 31 28, wd p (5 + 4 * j), wd p (6 + 4 * j), wd p (7 + 4 * j)))
/-- A branch entry: FROM_AREA, TO_AREA, REF_V, REF_I. -/
def odBrs (p : List Word) : List (Nat × Nat × Word × Word) :=
  (List.range (odNbr p)).map (fun j =>
    let i := 4 + 4 * odNsig p + 4 * j
    (bx (wd p i) 31 26, bx (wd p i) 25 20, wd p (i + 1), wd p (i + 2)))
def odRefs (p : List Word) : List Word :=
  (odSigs p).flatMap (fun s => if s.1 ≥ 2 then [s.2.1, s.2.2.1] else [s.2.1]) ++ (odBrs p).flatMap (fun b => [b.2.2.1, b.2.2.2])

/-! Values of a lap (Table 5.2). -/

/-- 3 * 10^-6. -/
def threeMicro : Word := ofRat 3 1000000
def eightPi : Word := 0x41C90FDB#32
def odP (a b : Word × Word) : Word := fMul threeMicro (fFma a.1 b.1 (fMul a.2 b.2))
def odQ (a b : Word × Word) : Word := fMul threeMicro (fFma a.2 b.1 (fNeg (fMul a.1 b.2)))
/-- A signal's value; none where a reference is excluded. -/
def odValue (c : ExclCfg) (g : Gathered) (s : Nat × Word × Word × Word) : Option Word :=
  if s.1 = 0 then inScalar c g s.2.1
  else if s.1 = 1 then (inPhasor c g s.2.1).map cMag
  else match inPhasor c g s.2.1, inPhasor c g s.2.2.1 with
    | some a, some b => some (if s.1 = 2 then cAngDiff a b else if s.1 = 3 then odP a b else odQ a b)
    | _, _ => none
/-- The frequency reference of the lane that carries a phasor. -/
def freqRef (ref : Word) : Word := w32 (refLane ref + 16777216)
/-- A branch's P, Q, F and L; its four signals are excluded together. -/
def odBranch (c : ExclCfg) (g : Gathered) (b : Nat × Nat × Word × Word) : Option (List Word) :=
  match inPhasor c g b.2.2.1, inPhasor c g b.2.2.2, inScalar c g (freqRef b.2.2.1) with
  | some v, some i, some f => some [odP v i, odQ v i, f, fLn (cMag v)]
  | _, _, _ => none

/-! Histories (R157). -/

def oscNew (D : Nat) : OscSig := ⟨fZero, 0, true, 0, List.replicate (16 * D + 1) fZero, none, none⟩
def pushTap (D : Nat) (s : OscSig) (v : Word) : List Word := (v :: s.taps).take (16 * D + 1)
/-- One lap of a signal: an excluded value repeats the last included one; after HOLD_LAPS the signal is dropped; it returns when its filter
holds included values only. An angle beyond 8 pi starts the refill too. -/
def oscLap (D hold : Nat) (ang : Bool) (v : Option Word) (s : OscSig) : OscSig :=
  match v with
  | none =>
    { s with excl := s.excl + 1, dropped := s.dropped || decide (s.excl + 1 ≥ hold), refill := 0, taps := pushTap D s s.last }
  | some raw =>
    let x := match ang, s.vprev with
      | true, some p => fAdd p (wrapAngle (fSub raw p))
      | _, _ => raw
    let re := ang && fLt eightPi (fAbs x)
    let y := if re then wrapAngle x else x
    let back := s.dropped && decide (s.refill + 1 ≥ 16 * D + 1)
    { last := y, excl := 0, dropped := re || (s.dropped && !back), refill := if re || back then 0 else s.refill + 1, taps := pushTap D s y,
      mean := if back then none else s.mean, vprev := if ang then some y else none }
/-- The filter's output (R158). -/
def firOut (D : Nat) (taps : List Word) : Word :=
  if D = 1 then wd taps 8 else sum16 (taps.zipIdx.map (fun t => (some (Config.firCoef D t.2), t.1)))
/-- A monitor signal's emitted value, with its mean brought up to date. -/
def sigEmit (D osr : Nat) (scale : Word) (s : OscSig) : Word × OscSig :=
  if s.dropped then (fZero, s)
  else
    let x := firOut D s.taps
    let m := match s.mean with
      | none => x
      | some m => fAdd m (fDiv (fSub x m) (fOfNat (200 * osr)))
    (fMul scale (fSub x m), { s with mean := some m })
/-- A branch signal's. -/
def brEmit (D : Nat) (s : OscSig) : Word := if s.dropped then fZero else firOut D s.taps

/-- A signal or branch has become dropped. -/
def newDrops (a b : List OscSig) : List Nat :=
  (a.zip b).zipIdx.filterMap (fun x => if !x.1.1.dropped && x.1.2.dropped then some x.2 else none)

/-- What a run of OSCDEC yields: its samples, the entries that have become dropped, the signals and branches that are dropped after its lap, an
included input with UNSETTLED, and the state passed on. -/
structure OscRun where
  samples : List OscSample
  drops : List Nat
  nexcl : Nat
  unset : Bool
  hist : KState
  deriving DecidableEq, Repr

/-- The samples one lap emits: the lap whose measurement instant is 8/OSR after the sample's centre (R158). -/
def oscSample (inst D : Nat) (p : List Word) (n : Nat) (now : Time) (sigs brs : List OscSig) (unset : Nat) : Option OscSample × List OscSig :=
  if n % D ≠ 0 ∨ n / D < 8 then (none, sigs)
  else
    let es := (sigs.zip (odSigs p)).map (fun x => sigEmit D (odOsr p) x.2.2.2.2 x.1)
    (some ⟨inst, n / D - 8, es.map (·.1), brs.map (brEmit D), sigs.map (·.dropped),
      (List.range (odNbr p)).map (fun j => (brs.getD (4 * j) (oscNew D)).dropped), decide (unset > 0), now⟩, es.map (·.2))

/-- One lap of an instance; `g` is none for a missing lap, whose every input counts as excluded (R138). -/
def oscOne (inst D : Nat) (p : List Word) (c : ExclCfg) (n : Nat) (now : Time) (g : Option Gathered) (r : OscRun) : OscRun :=
  match r.hist with
  | .osc sigs brs us =>
    let hold := odHold p
    let gg := g.getD []
    let unset := (odRefs p).any (refUnsettled c gg)
    let us1 := if unset then 16 * D + 1 else us - 1
    let sigs1 := (sigs.zip (odSigs p)).map (fun x => oscLap D hold (decide (x.2.1 = 2)) (odValue c gg x.2) x.1)
    let brs1 := (odBrs p).zipIdx.flatMap (fun b => match odBranch c gg b.1 with
      | some vs => (List.range 4).map (fun k => oscLap D hold false (some (wd vs k)) (brs.getD (4 * b.2 + k) (oscNew D)))
      | none => (List.range 4).map (fun k => oscLap D hold false none (brs.getD (4 * b.2 + k) (oscNew D))))
    let heads (l : List OscSig) : List OscSig := (List.range (odNbr p)).map (fun j => l.getD (4 * j) (oscNew D))
    let smp := oscSample inst D p n now sigs1 brs1 us1
    ⟨r.samples ++ smp.1.toList,
     r.drops ++ newDrops sigs sigs1 ++ (newDrops (heads brs) (heads brs1)).map (· + odNsig p),
     (sigs1.filter (·.dropped)).length + ((heads brs1).filter (·.dropped)).length, unset, .osc smp.2 brs1 us1⟩
  | _ => r
/-- The state before an instance's first lap: everything is dropped until its filter is filled. -/
def oscInit (p : List Word) (D : Nat) : KState := .osc (List.replicate (odNsig p) (oscNew D)) (List.replicate (4 * odNbr p) (oscNew D)) 0
/-- A RELEASE run for lap `n` after `gap` missing laps. -/
def oscRun (inst : Nat) (p : List Word) (c : ExclCfg) (rate n gap : Nat) (now : Time) (g : Gathered) (hist : Option KState) : OscRun :=
  let D := max 1 (rate / odOsr p)
  let r0 : OscRun := ⟨[], [], 0, false, hist.getD (oscInit p D)⟩
  let r1 := (List.range gap).foldl (fun r i => oscOne inst D p c (n - gap + i) now none r) r0
  oscOne inst D p c n now (some g) r1

end Sys2Proof.Machine
end

