-- ==== Sys2Proof/Machine/OsmBase.lean ====
section
/-!
DEFINITION. What the oscillation monitor's tasks wait for (spec/05, R160 to R163, R178, Table 7.1): its instances, their blocks, and the
samples and outputs a task needs.
-/
namespace Sys2Proof.Machine

/-! Instances. -/

def Device.instsOf (d : Device) (code : Nat) : List (Nat × List Word) := d.insts.filter (fun e => decide (ieCode e.2 = code))
/-- The OSCDEC instances with their blocks. -/
def Device.oscs (d : Device) : List (Nat × List Word × List Word) := (d.instsOf kOSCDEC).map (fun e => (e.1, e.2, d.param e.2))
def Device.monP (d : Device) : List Word := d.param (d.instE (d.f OSM_CTL.INST))
def monN (p : List Word) : Nat := bx (wd p 0) 13 0
def monOsr (p : List Word) : Nat := if bit (wd p 1) 31 then 30 else 25
def monPc (p : List Word) : Nat := bx (wd p 1) 24 16
def monOrder (p : List Word) : Nat := bx (wd p 1) 7 0
def monTau (p : List Word) : Nat := bx (wd p 2) 15 0
def Device.fodet? (d : Device) : Option (Nat × List Word) := (d.instsOf kFODET).head?
def foLen (p : List Word) : Nat := 256 * 2 ^ bx (wd p 0) 1 0
def foAvg (p : List Word) : Nat := bx (wd p 1) 4 0
def dlNbr (p : List Word) : Nat := bx (wd p 0) 12 0
def dlBase (p : List Word) : Nat := bx (wd p 1) 11 0
def dlRank (p : List Word) : Nat := bx (wd p 2) 5 4
def dlWin (p : List Word) : Nat := bx (wd p 5) 15 0

/-- Laps of the reference heat per sample (R171), and the sample of a lap. -/
def Device.osmD (d : Device) (inst : Nat) : Nat := max 1 (d.rate (ieHeat (d.instE inst)) / monOsr d.monP)

/-! Samples. -/

/-- An OSCDEC instance emits sample `k`: its heat runs, or ran when it was emitted (R162). -/
def Device.emits (d : Device) (i : Nat) (e p : List Word) (k : Nat) : Bool :=
  match d.run? (ieHeat e) with
  | none => false
  | some r =>
    let D := max 1 (d.rate (ieHeat e) / odOsr p)
    let first := decide (r.firstLap ≤ (k + 8) * D)
    match mget d.osm.ended i with
    | some last => first && decide (k ≤ last)
    | none => first && r.enabled
/-- Sample `k` of an instance, once it is in the buffer. -/
def Device.piece? (d : Device) (i k : Nat) : Option OscSample := d.osm.inbuf.find? (fun s => decide (s.inst = i ∧ s.k = k))
/-- Every instance of a list that emits sample `k` has delivered it. -/
def Device.samplesIn (d : Device) (l : List (Nat × List Word × List Word)) (k : Nat) : Bool :=
  l.all (fun o => !d.emits o.1 o.2.1 o.2.2 k || (d.piece? o.1 k).isSome)
/-- The instances whose branches a DEFLOC instance references. -/
def Device.oscsFor (d : Device) (dp : List Word) : List (Nat × List Word × List Word) :=
  d.oscs.filter (fun o => decide (odDef o.2.2 < dlBase dp + dlNbr dp ∧ dlBase dp < odDef o.2.2 + odNbr o.2.2))

/-! Outputs a DEFLOC task waits for (R178). -/

/-- The latest extraction at or before `k - 16` since the start. -/
def Device.extractFor (d : Device) (k : Nat) : Option Nat :=
  if k < d.osm.startK + 23 then none else some (k - 16 - (k - 16 + 1) % 8)
/-- The latest FODET evaluation at or before `k - 16` since the start. -/
def Device.evalFor (d : Device) (k : Nat) : Option Nat :=
  match d.fodet? with
  | none => none
  | some e =>
    let half := foLen (d.param e.2) / 2
    if k < 16 then none
    else
      let v := (k - 15) / half * half
      if v < d.osm.startK + 1 then none else some (v - 1)
def Device.needOutputs (d : Device) (k : Nat) : List KData :=
  ((d.extractFor k).map (KData.output (d.f OSM_CTL.INST))).toList ++
  (match d.fodet?, d.evalFor k with | some e, some v => [KData.output e.1 v] | _, _ => [])
/-- The output has been committed. -/
def Device.hasOutput (d : Device) (o : KData) : Bool :=
  match o with
  | .output i k => (decide (i = d.f OSM_CTL.INST) && d.osm.extracts.any (fun e => decide (e.1 = k))) ||
      ((d.fodet?.map (·.1)) = some i && d.osm.foEvals.any (fun e => decide (e.1 = k)))
  | _ => false

/-- Operands of a monitor task: its samples, the state of the sample before, and the outputs it names. FODET evaluations come in order. -/
def Device.osmReady (d : Device) (e : Entry) : Bool :=
  let k := e.lap / d.osmD e.inst
  let ie := d.instE e.inst
  let state := e.hist.isSome || decide (k = d.osm.startK)
  if ieCode ie = kOSCMON then state && d.samplesIn d.oscs k
  else if ieCode ie = kDEFLOC then
    state && d.samplesIn (d.oscsFor (d.param ie)) k && (d.needOutputs k).all (fun o => e.data.contains o)
  else !e.data.isEmpty && (match d.osm.foPend with | v :: _ => decide (v.k = k) | [] => false)

end Sys2Proof.Machine
end

