-- ==== Sys2Proof/Machine/StarterCore.lean ====
section
/-!
DEFINITION. The Starter's stores (spec/07): the matching store and its operands (R212 to R215, R227), ready queues (R219), delay lists
(R216 to R218), homes (R222), and the histories that pass from lap to lap (R138).
-/
namespace Sys2Proof.Machine

def Device.setSrt (d : Device) (s : Srt) : Device := { d with srt := s }
def Device.setPac (d : Device) (p : Pac) : Device := { d with pac := p }
def Device.setOsm (d : Device) (o : Osm) : Device := { d with osm := o }
def Device.setIsl (d : Device) (i : Isl) : Device := { d with isl := i }

/-! The matching store. -/

/-- Entries in use, those a grant has reserved included (R213). -/
def Device.storeUsed (d : Device) : Nat := d.srt.store.length + d.srt.reserved
def Device.storeFree (d : Device) : Nat := 4096 - d.storeUsed
/-- The level of the store, and the EV_SRT_STORE_FULL episode (R227). `prod` is the producer that took the last entry. -/
def Device.storeShow (d : Device) (prod : Nat) : Device :=
  let u := d.storeUsed
  let d1 := (d.setf SRT_STORE.LEVEL u).hwm SRT_STORE.HWM u
  if !d1.srt.fullEp && decide (4096 ≤ u) then
    ((d1.setSrt { d1.srt with fullEp := true }).setf SRT_STAT.STORE_FULL 1).raise EV_SRT_STORE_FULL [(Config.prodCode prod).toNat]
  else if d1.srt.fullEp && decide (u < 3072) then (d1.setSrt { d1.srt with fullEp := false }).setf SRT_STAT.STORE_FULL 0
  else d1

/-- Keys of the per-lap maps of an instance. -/
def entIs (inst lap seq : Nat) (e : Entry) : Bool := decide (e.inst = inst ∧ e.lap = lap ∧ e.seq = seq)
def sameKey (a b : Entry) : Bool := entIs b.inst b.lap b.seq a
def Device.entry? (d : Device) (inst lap seq : Nat) : Option Entry := d.srt.store.find? (entIs inst lap seq)
def entNew (inst lap seq : Nat) : Entry := ⟨inst, lap, seq, none, 0, none, [], none, false⟩
/-- Replace an entry, or add it. -/
def Device.putEntry (d : Device) (e : Entry) : Device :=
  if d.srt.store.any (sameKey e) then d.setSrt { d.srt with store := d.srt.store.map (fun x => if sameKey e x then e else x) }
  else d.setSrt { d.srt with store := d.srt.store ++ [e] }
def Device.dropEntry (d : Device) (e : Entry) : Device :=
  d.setSrt { d.srt with store := d.srt.store.filter (fun x => !sameKey e x) }

/-! Ready queues (R219). -/

def Device.queue (d : Device) (l : Nat) : List Task := mgetD d.srt.queues l []
def Device.setQueue (d : Device) (l : Nat) (q : List Task) : Device :=
  ((d.setSrt { d.srt with queues := mset d.srt.queues l q }).setf SRT_RDYQ.LEVEL q.length l).hwm SRT_RDYQ.HWM q.length l
/-- A firmware task's number: those above the kernel instances (log entry 74). -/
def isFw (inst : Nat) : Bool := decide (4096 ≤ inst)
/-- The level of an instance's tasks, and of a firmware task (R219). -/
def Device.instPrio (d : Device) (inst : Nat) : Nat := if isFw inst then 7 else hePrio (d.heatE (ieHeat (d.instE inst)))
/-- The order of a queue: the instant of readiness, then instance and AMEND_SEQ (R219). -/
def readyKey (e : Entry) : List Nat := [e.ready.getD 0, e.inst, e.seq % 256]
/-- Put a ready task into a queue, behind the retries and returned tasks at its head. -/
def queuePut (t : Task) : List Task → List Task
  | [] => [t]
  | x :: r => if x.retry || x.returned || !lexLt (readyKey t.e) (readyKey x.e) then x :: queuePut t r else t :: x :: r
def taskNew (e : Entry) (prio : Nat) : Task := ⟨e, prio, .queued, 0, none, false, false, false, 0, e.pinOver⟩
/-- Entries of a level that are ready and wait for their queue, in readiness order. -/
def Device.waitReady (d : Device) (l : Nat) : List Entry :=
  (d.srt.store.filter (fun e => e.ready.isSome && decide (d.instPrio e.inst = l) && !(d.queue l).any (fun t => sameKey e t.e))) |> sortBy
    (fun a b => !lexLt (readyKey b) (readyKey a))
/-- Waiting entries join their queue as it has space. -/
def queueFill (fuel l : Nat) (d : Device) : Device :=
  match fuel with
  | 0 => d
  | n + 1 =>
    if (d.queue l).length ≥ 512 then d
    else match d.waitReady l with
      | [] => d
      | e :: _ => queueFill n l (d.setQueue l (queuePut (taskNew e l) (d.queue l)))
/-- A ready task joins its queue, or stays in its entry (R219). -/
def Device.queueJoin (d : Device) (e : Entry) : Device :=
  let l := d.instPrio e.inst
  if (d.queue l).length ≥ 512 then d.count SRT_RDYQ_FULL else d.setQueue l (queuePut (taskNew e l) (d.queue l))
/-- A retry or a returned task goes to the head of its level; in a full queue the last task that is neither leaves it (R219). -/
def Device.queueHead (d : Device) (t : Task) : Device :=
  let q := t :: d.queue t.prio
  if q.length ≤ 512 then d.setQueue t.prio q
  else
    let r := q.reverse
    let keep := r.takeWhile (fun x => x.retry || x.returned)
    match r.drop keep.length with
    | [] => d.setQueue t.prio q
    | x :: rest =>
      let d1 := d.setSrt { d.srt with store := d.srt.store.map (fun e => if sameKey e x.e then { e with pinOver := x.overridden } else e) }
      (d1.setQueue t.prio (rest.reverse ++ keep.reverse)).count SRT_RDYQ_FULL

/-! Histories (R138). -/

def Device.histSeq (d : Device) (inst : Nat) : Nat := if d.combined inst then 256 else 0

/-- AREAROCOF with a history: MODE 1 (R143). -/
def rocofHist (code : Nat) (p : List Word) : Bool := decide (code = kAREAROCOF) && decide (bx (wd p 1) 31 30 = 1)
/-- The instance carries a history from lap to lap. -/
def Device.hasHist (d : Device) (inst : Nat) : Bool :=
  let e := d.instE inst
  let k := ieCode e
  [kOSCDEC, kISLDET, kSSODET].contains k || rocofHist k (d.param e)
/-- A lap of the heat that has no run of its own: skipped, or before the first lap. Timer runs are not skipped. -/
def Device.lapMissing (d : Device) (inst n : Nat) : Bool :=
  let e := d.instE inst
  match d.run? (ieHeat e) with
  | none => true
  | some r => decide (n < r.firstLap) || (decide (ieTrig e = 0) && r.skipped.contains n)
/-- The consecutive missing laps directly before lap `n`, at most `fuel`. -/
def gapBefore (fuel : Nat) (d : Device) (inst n : Nat) : Nat :=
  match fuel with
  | 0 => 0
  | k + 1 => if n > 0 && d.lapMissing inst (n - 1) then gapBefore k d inst (n - 1) + 1 else 0
/-- The missing laps directly before lap `n` since its heat's first one: laps before an enable are none of a heat's laps (R31, R138). -/
def Device.gapOf (d : Device) (inst n : Nat) : Nat :=
  match d.run? (ieHeat (d.instE inst)) with
  | none => 0
  | some r => gapBefore (n - r.firstLap) d inst n
/-- Lap `n` is the first with a run: there is no earlier lap to wait for. -/
def Device.histFirst (d : Device) (inst n : Nat) : Bool :=
  match d.run? (ieHeat (d.instE inst)) with
  | none => true
  | some r => decide (n ≤ r.firstLap + gapBefore (n - r.firstLap) d inst n)
/-- The next lap after `n` that has a run of its own. -/
def nextRun (fuel : Nat) (d : Device) (inst n : Nat) : Nat :=
  match fuel with
  | 0 => n + 1
  | k + 1 => if d.lapMissing inst (n + 1) then nextRun k d inst (n + 1) else n + 1
def Device.nextRunLap (d : Device) (inst n : Nat) : Nat :=
  let fuel := match d.run? (ieHeat (d.instE inst)) with | some r => r.skipped.length + 1 | none => 1
  nextRun fuel d inst n
/-- The state operand of a lap, once it has arrived. -/
def Device.incoming? (d : Device) (inst n : Nat) : Option KState := mget d.pac.incoming (ilKey inst n)

/-! When a task is ready (Table 7.1). -/

/-- The lap of largest lap time at or before `t` (R193). -/
def lapAtOrBefore (rate : Nat) (t : Time) : Nat :=
  let n := (t + 1) * rate / Time.secU
  if lapTimeOf rate n ≤ t then n else n - 1
/-- What an ISLDET run takes from a contributor's heat: `some none` where every value counts as excluded (R194), `some (some copy)`
where the copy is there, `none` while it is awaited. -/
def Device.contribution (d : Device) (heat : Nat) (t : Time) : Option (Option IslCopy) :=
  match d.run? heat with
  | none => some none
  | some r =>
    let n := lapAtOrBefore (d.rate heat) t
    if !r.enabled || decide (n < r.firstLap) || r.skipped.contains n then some none
    else (mget d.isl.copies (lapKey heat n)).map some
/-- Heats of the enabled ISLIN instances (R193). -/
def Device.contributors (d : Device) : List Nat :=
  (d.insts.filterMap (fun e => if ieCode e.2 = kISLIN then some (ieHeat e.2) else none)).eraseDups
/-- The partials a combine names are complete (R363). -/
def Device.partsIn (d : Device) (e : Entry) : Bool :=
  e.data.all (fun x => match x with
    | .part m v _ => d.rxl.parts.any (fun p => decide (p.inst = e.inst ∧ p.lap = e.lap ∧ p.member = m ∧ p.version = v ∧ p.frags.length = p.nfrag))
    | _ => true)
/-- Every operand that applies to the task's kernel is present. -/
def Device.entryReady (d : Device) (e : Entry) : Bool :=
  let ie := d.instE e.inst
  if isFw e.inst then !e.data.isEmpty
  else if ieCode ie = kISLSUM then e.trig.isSome && d.partsIn e
  else if kernDriven (ieCode ie) then d.osmReady e
  else
    e.trig.isSome && d.partsIn e && (!d.hasHist e.inst || decide (e.seq < d.histSeq e.inst) || e.hist.isSome || d.histFirst e.inst e.lap) &&
    (decide (ieCode ie ≠ kISLDET) ||
      d.contributors.all (fun h => decide (h = ieHeat ie) || (d.contribution h (d.lapT (ieHeat ie) e.lap)).isSome))

/-- Look whether an entry has become ready (R212). -/
def Device.entryCheck (d : Device) (e : Entry) : Device :=
  if e.ready.isSome || !d.entryReady e then d
  else
    let e1 := { e with ready := some d.now }
    ((d.putEntry e1).count SRT_TASKS_READY).queueJoin e1
/-- Look at every entry that waits, by instance and AMEND_SEQ within what one event brings. -/
def Device.storeCheck (d : Device) : Device :=
  (sortBy (fun a b => !lexLt [b.inst, b.seq % 256, b.lap] [a.inst, a.seq % 256, a.lap]) (d.srt.store.filter (fun e => e.ready.isNone))).foldl
    (fun x e => x.entryCheck e) d

/-- Fill an entry, which this may create (R212). -/
def Device.entryFill (d : Device) (inst lap seq prod : Nat) (f : Entry → Entry) : Device :=
  let e := f ((d.entry? inst lap seq).getD (entNew inst lap seq))
  ((d.putEntry e).storeShow prod).entryCheck e
/-- An operand is accepted into an entry: one count for each task served. -/
def Device.operand (d : Device) (inst lap seq prod : Nat) (f : Entry → Entry) : Device :=
  (d.count SRT_TOKENS_IN).entryFill inst lap seq prod f
/-- The Stride cores submit a firmware task, or hold it where the store has no free entry (R212, R215, R227). -/
def Device.strideSubmit (d : Device) (inst : Nat) : Device :=
  if d.storeFree = 0 then (d.setSrt { d.srt with held := d.srt.held ++ [.stride inst] }).count SRT_STRIDE_HELD
  else d.operand inst 0 0 4 (fun e => { e with data := [.firmware] })
/-- A state operand reaches its lap (R138): it serves the RELEASE run, and AMEND runs that wait for it. -/
def Device.stateArrive (d : Device) (inst n : Nat) (st : KState) : Device :=
  let d1 := d.setPac { d.pac with incoming := mset d.pac.incoming (ilKey inst n) st }
  let amends := (d1.srt.store.filter (fun e => decide (e.inst = inst ∧ e.lap = n ∧ d.histSeq inst < e.seq))).map (·.seq)
  amends.foldl (fun x k => x.operand inst n k 1 (fun e => { e with hist := some st }))
    (d1.operand inst n (d.histSeq inst) 1 (fun e => { e with hist := some st }))
/-- A lap is skipped: its entries are free, and states that wait for it move on (R138). -/
def Device.stateSkip (d : Device) (heat n : Nat) : Device :=
  (d.releaseInsts heat).foldl (fun x i =>
    match x.entry? i n (x.histSeq i) with
    | none => x
    | some e =>
      let x0 := x.dropEntry e
      match x0.incoming? i n with
      | none => x0.storeShow 1
      | some st =>
        let m := x0.nextRunLap i n
        let x1 := x0.setPac { x0.pac with incoming := mset (mdel x0.pac.incoming (ilKey i n)) (ilKey i m) st }
        x1.entryFill i m (x1.histSeq i) 1 (fun e => { e with hist := some st })) d
/-- No run follows: states for laps that will not be opened are gone. -/
def Device.stateEnd (d : Device) (heat : Nat) : Device :=
  let r := (d.run? heat).map (·.nextLap)
  let is := d.insts.filterMap (fun e => if ieHeat e.2 = heat then some e.1 else none)
  let dead (i n : Nat) : Bool := is.contains i && decide (r.getD 0 ≤ n)
  let d1 := d.setPac { d.pac with incoming := d.pac.incoming.filter (fun e => !dead (e.1 / 2 ^ 64) (e.1 % 2 ^ 64)) }
  (d1.setSrt { d1.srt with store := d1.srt.store.filter (fun e => !(dead e.inst e.lap && e.trig.isNone && !kernDriven (ieCode (d.instE e.inst)))) }).storeShow 1

/-! Tasks of a token (R102, R137, R224). -/

/-- The task was made from a given token. -/
def ofToken (heat lap seq : Nat) (e : Entry) : Bool :=
  match e.trig with
  | some t => decide (t.heat = heat ∧ t.lap = lap ∧ t.seq = seq ∧ (t.kind = .release ∨ t.kind = .amend))
  | none => false
/-- Every task made from the token has reported gather done. -/
def Device.tokGathered (d : Device) (heat lap seq : Nat) : Bool :=
  !d.srt.store.any (ofToken heat lap seq) &&
  !d.srt.flight.any (fun t => ofToken heat lap seq t.e && t.gathered.isNone) &&
  !d.srt.queues.any (fun q => q.2.any (fun t => (t.retry || t.returned) && ofToken heat lap seq t.e && t.gathered.isNone))
def Device.inFlight (d : Device) : Device := (d.setf SRT_INFLIGHT.LEVEL d.srt.flight.length).hwm SRT_INFLIGHT.HWM d.srt.flight.length
def Device.setFlight (d : Device) (l : List Task) : Device := (d.setSrt { d.srt with flight := l }).inFlight
/-- A firmware task is over: it leaves the store, its queue, its engine or its core. -/
def Device.strideEnd (d : Device) (inst : Nat) : Device :=
  let s := d.srt
  let d1 := (d.setSrt { s with store := s.store.filter (fun e => decide (e.inst ≠ inst)), held := s.held.filter (fun x => decide (x ≠ HeldProd.stride inst)) }).storeShow 4
  let d2 := d1.setQueue 7 ((d1.queue 7).filter (fun t => decide (t.e.inst ≠ inst)))
  queueFill 512 7 (d2.setFlight (d2.srt.flight.filter (fun t => decide (t.e.inst ≠ inst))))

/-! Delay lists (R216, R217). -/

def Device.listUsed (d : Device) (l : Nat) : Device := d.setf SRT_DLIST.USED (d.srt.timers.filter (fun t => t.list = l)).length l
/-- Timers of a list come in the order of their expiry, then of their insertion. -/
def timerBefore (a b : Timer) : Bool := lexLt [a.us, a.list, a.order] [b.us, b.list, b.order]
def timerPut (t : Timer) : List Timer → List Timer
  | [] => [t]
  | a :: r => if timerBefore t a then t :: a :: r else a :: timerPut t r
def ceilUs (t : Time) : Nat := (t + Time.usU - 1) / Time.usU
/-- Register a timer in its heat's list. -/
def Device.addTimer (d : Device) (heat lap us : Nat) (k : TimerKind) : Device :=
  match d.run? heat with
  | none => d
  | some r => (d.setSrt { d.srt with timers := timerPut ⟨r.dlist, us, k, heat, lap, d.srt.order, false⟩ d.srt.timers,
                                     order := d.srt.order + 1 }).listUsed r.dlist
/-- Entries of a list are reserved no more. -/
def Device.unreserve (d : Device) (l n : Nat) : Device := d.setf SRT_DLIST.RSVD (d.f SRT_DLIST.RSVD l - n) l
/-- A disabled heat's reservation is freed with its last timer (R216), and that of an earlier enable with the last timer of its own. -/
def Device.timersGone (d : Device) (heat : Nat) : Device :=
  match d.run? heat with
  | none => d
  | some r =>
    let mine := d.srt.timers.filter (fun t => decide (t.heat = heat))
    let done (o : Nat × Nat × Nat) : Bool := !mine.any (fun t => decide (t.order < o.2.2))
    let off := !r.enabled && mine.isEmpty
    let d1 := (r.oldRes.filter done).foldl (fun x o => x.unreserve o.1 o.2.1)
      (d.setRun heat { r with oldRes := r.oldRes.filter (fun o => !done o), dresv := if off then 0 else r.dresv })
    if off then d1.unreserve r.dlist r.dresv else d1
def Device.dropTimer (d : Device) (t : Timer) : Device :=
  ((d.setSrt { d.srt with timers := d.srt.timers.filter (fun x => decide (x.order ≠ t.order)) }).listUsed t.list).timersGone t.heat
/-- The timer that expires next at this instant: the first due one that is not held, while fewer than 64 have expired in the present
microsecond (R217). -/
def Device.dueTimer (d : Device) : Option Timer :=
  if d.srt.spent ≥ 64 then none
  else match d.srt.timers.find? (fun t => !t.held) with
    | some t => if t.us * Time.usU ≤ d.now then some t else none
    | none => none
/-- It expires. -/
def Device.timerFire (d : Device) : Device := (d.setSrt { d.srt with spent := d.srt.spent + 1 }).count SRT_TIMERS_EXPIRED
/-- At a microsecond tick the due timers beyond the 64 of the tick before are carried (R217). -/
def Device.timerCarry (d : Device) (us : Nat) : Device :=
  let late := d.srt.timers.filter (fun t => !t.held && decide (t.us < us))
  if d.srt.spent < 64 || late.isEmpty then d
  else
    let d1 := d.countN SRT_TIMER_SLIP late.length
    let l := (late.headD ⟨0, 0, .deadline, 0, 0, 0, false⟩).list
    let d2 := d1.raiseSec d1.srt.slipSec EV_SRT_TIMER_SLIP [l, (late.filter (fun t => t.list = l)).length]
    d2.setSrt { d2.srt with slipSec := some d2.sec }

/-! Homes (R222). -/

/-- The first signal reference of a parameter block. -/
def firstRef (code : Nat) (p : List Word) : Option Word :=
  if code = kANGDIFF ∨ code = kVMAG ∨ code = kSEQCOMP then some (wd p 4)
  else if code = kCORRIDOR ∨ code = kAREAFREQ ∨ code = kAREAROCOF then some (wd p 8)
  else if code = kOSCDEC ∧ (bx (wd p 0) 13 0 ≠ 0 ∨ bx (wd p 1) 12 0 ≠ 0) then some (wd p 5)
  else none
/-- The home of an instance is fixed at its load. -/
def Device.setHome (d : Device) (inst : Nat) : Device :=
  let e := d.instE inst
  let m := mdel d.srt.home inst
  match (if ieEn e then firstRef (ieCode e) (d.param e) else none) with
  | none => d.setSrt { d.srt with home := m }
  | some r => d.setSrt { d.srt with home := mset m inst (leId (d.laneE (refLane r)) % 12) }

end Sys2Proof.Machine
end

