-- ==== Sys2Proof/Machine/Laps.lean ====
section
/-!
DEFINITION. What a lap holds (spec/03): ingress marks (R94), arrivals and staging (R101, R106), the latency estimator (R108), the wait
window (R107, R109, R112), substitution and commits (R23, R24), and the record of a decision (R442).
-/
namespace Sys2Proof.Machine

/-! Ingress marks (R94). Port 8 stands for the Rharix receive path. -/

def Device.mark (d : Device) (p : Nat) : Time :=
  let ts : List Time :=
    if p < 8 then
      ((match mget d.ing.ports p with | some x => x.fifo.map (·.arr) | none => []) ++
        (d.ing.tcpq.filter (fun x => x.1 = p)).map (·.2.arr))
    else
      d.ing.rxlq.map (·.2.arr) ++ d.rxl.links.flatMap (fun l => (l.2.c0.win ++ l.2.c1.win).map (·.2.2))
  ts.foldl min d.now
/-- The ingress mark of every port of the heat's port set has reached an instant. -/
def Device.marksPast (d : Device) (h : Nat) (t : Time) : Bool :=
  match d.run? h with
  | none => true
  | some r => r.ports.all (fun p => decide (t ≤ d.mark p))

/-! Records of laps. -/

/-- A record belongs to lap `n` (Tables 1.2, 1.3). -/
def recOfLap (recs : List (List Word)) (rate n : Nat) : Bool :=
  recWord recs 0 0 = w32 (n / rate) && decide (bx (recWord recs 0 1) 31 24 = n % rate)
/-- The lane's record for the lap has arrived, or is staged (R23, R52, R101). -/
def Device.laneArrived (d : Device) (h n lane : Nat) : Bool :=
  (match d.lapRecs h n lane with
   | some recs => recArrived (recQR recs) && recOfLap recs (d.rate h) n
   | none => false) || d.pfa.stage.any (fun s => decide (s.heat = h ∧ s.lap = n ∧ s.lane = lane))
/-- Place a lane's records for a lap. -/
def Device.putRecs (d : Device) (h n lane : Nat) (recs : List (List Word)) : Device := d.setPfa (gsPut d.pfa h (n % d.depth h) lane recs)
/-- A record as written or committed may become the held copy (R23). -/
def Device.holdRecs (d : Device) (lane n : Nat) (recs : List (List Word)) : Device := d.setPfa (holdCopy d.pfa lane n recs)

/-- The staging buffer's level. -/
def Device.stageShow (d : Device) : Device :=
  (d.setf PFA_STAGE.LEVEL d.pfa.stage.length).hwm PFA_STAGE.HWM d.pfa.stage.length
def Device.stageAdd (d : Device) (s : Staged) : Device := (d.setPfa { d.pfa with stage := d.pfa.stage ++ [s] }).stageShow
/-- Records of a lap leave the staging buffer. -/
def Device.stageDrop (d : Device) (f : Staged → Bool) : Device :=
  (d.setPfa { d.pfa with stage := d.pfa.stage.filter (fun s => !f s) }).stageShow
def stagedOf (h n : Nat) (early : Bool) (s : Staged) : Bool := decide (s.heat = h ∧ s.lap = n ∧ s.early = early)

/-! The estimator (R108). -/

def Device.latObserve (d : Device) (lane x : Nat) : Device :=
  let d1 := if d.pfa.obs.contains lane then d else d.setPfa { d.pfa with obs := d.pfa.obs ++ [lane] }
  let step := d.f PFA_ADAPT.STEP
  let q := mgetD d.pfa.q lane 0
  if step = 0 then d1
  else d1.setPfa { d1.pfa with q := mset d1.pfa.q lane (if x * 1024 > q then min (q + 999 * step) (2 ^ 34 - 1) else q - step) }
/-- A frame of a lane reaches the PFA: the first one for a lap that holds state is observed. -/
def Device.latFrame (d : Device) (h n lane : Nat) (recs : List (List Word)) : Device :=
  match d.lap? h n with
  | none => d
  | some l =>
    if l.seen.contains lane then d
    else
      let x := max 0 (min 16777215 (s32 (recWord recs 0 3) / 1000))
      (d.setLap { l with seen := l.seen ++ [lane] }).latObserve lane x.toNat

/-! The window (R107, R109, R112). -/

/-- The window in force for a heat, in microseconds. -/
def Device.window (d : Device) (h eh : Nat) : Nat :=
  let e := d.heatE h
  if heFixed e then heWfix e else min (heWmax e) (max (heWmin e) (eh + d.f PFA_ADAPT.MARGIN_US))
/-- E_h: over the lanes with a weight, or over all where none has one. -/
def Device.estimate (d : Device) (h : Nat) : Nat :=
  let ls := d.heatLanes h
  let ws := ls.filter (fun l => decide (leWeight (d.laneE l) ≠ 0))
  (((if ws.isEmpty then ls else ws).map (fun l => mgetD d.pfa.q l 0)).foldl max 0 + 1023) / 1024
/-- A lap's deadline, rounded up to the next microsecond tick. -/
def Device.deadlineUs (d : Device) (h n win : Nat) : Nat := ceilUs (d.lapT h n + win * Time.usU)
/-- The estimate, the clamps and late risk at a lap opening. -/
def Device.windowOpen (d : Device) (h : Nat) (r : HeatRun) : Device :=
  let e := d.heatE h
  let eh := d.estimate h
  let a := eh + d.f PFA_ADAPT.MARGIN_US
  let risk := heFixed e && decide (heWfix e < eh)
  let r1 := { r with eh := eh, win := d.window h eh, clampHi := decide (a > heWmax e), clampLo := decide (a < heWmin e), lateRisk := risk,
                     riskLaps := if risk then (r.riskLaps + 1) % 4294967296 else r.riskLaps,
                     maxShort := if risk then max r.maxShort (eh - heWfix e) else r.maxShort }
  let d1 := d.setRun h r1
  let d2 := if risk then d1.count PFA_LATE_RISK_LAPS else d1
  if risk && !r.lateRisk then d2.raise EV_PFA_LATE_RISK [h, heWfix e, eh]
  else if !risk && r.lateRisk then d2.raise EV_PFA_LATE_RISK_END [h, heWfix e, eh]
  else d2

/-! Substitution and commits. -/

/-- Every lane of the lap whose record has not arrived is substituted (R95); then LATE is set throughout (R98). -/
def Device.substLap (d : Device) (l : Lap) : Device :=
  let miss := l.lanes.filter (fun x => !l.here.contains x)
  let d1 := miss.foldl (fun x lane => (x.putRecs l.heat l.lap lane (x.substRecs l.lap lane l.late)).count PFA_SUBSTITUTED) d
  let d2 := d1.setLap { l with subst := miss }
  if !l.late then d2
  else l.here.foldl (fun x lane => match x.lapRecs l.heat l.lap lane with
    | some recs => x.putRecs l.heat l.lap lane (setQual recs qLATE true)
    | none => x) d2
/-- The staged records an AMEND covers are committed (R102, R24). -/
def Device.commitLap (d : Device) (l : Lap) (ta : Time) : Nat × Device :=
  let mine := d.pfa.stage.filter (fun s => stagedOf l.heat l.lap false s && decide (s.arr < ta))
  let d1 := mine.foldl (fun x s =>
    let recs := setQual (setQual s.recs qAMENDED true) qLATE (l.late || bit (recQR s.recs) qLATE)
    (x.putRecs l.heat l.lap s.lane recs).holdRecs s.lane l.lap recs) d
  let d2 := d1.stageDrop (fun s => stagedOf l.heat l.lap false s && decide (s.arr < ta))
  let lanes := mine.map (·.lane)
  (mine.length, d2.setLap { l with here := l.here ++ lanes.filter (fun x => !l.here.contains x),
                                   subst := l.subst.filter (fun x => !lanes.contains x) })
/-- Every lane of the lap has arrived and none is substituted (Table 3.2). -/
def lapComplete (l : Lap) : Bool := l.subst.isEmpty && l.lanes.all (fun x => l.here.contains x)

/-! Decisions in the journal (Table 16.3). The flags of Table 3.2 stand as in an output block's header, with CAUSE in the two low bits
(DESIGN CHOICE, log entry 35). -/

def kindCode (k : TokKind) : Nat := match k with | .release => 0 | .amend => 1 | _ => 2
def tokFlags (t : Tok) : Nat := b2n t.early * 128 + b2n t.complete * 64 + b2n t.final * 32 + b2n t.late * 16 + t.cause % 4
def Device.journalDecision (d : Device) (kind flags h n seq covered : Nat) (t : Time) : Device :=
  d.journalW 0x10 (kind * 1048576 + flags) t ([w32 h] ++ two n ++ [w32 seq, w32 covered])

end Sys2Proof.Machine
end

