-- ==== Sys2Proof/Machine/Tokens.lean ====
section
/-!
DEFINITION. PFA tokens (spec/03, R92 to R105): offers and the pending-release queue (R96, R97), grants (R213), the fence (R94, R95),
delivery into the matching store, re-issues (R137) and the publication of output blocks (R139).
-/
namespace Sys2Proof.Machine

/-! Output blocks. -/

/-- The header of an output block (Table 4.3). -/
def blockHeader (b : Block) : List Word :=
  [w32 b.lap,
   w32 (b.lap / 2 ^ 32 % 65536 * 65536 + b.seq % 256 * 256 + qbit b.early 7 + qbit b.complete 6 + qbit b.final 5 + qbit b.late 4 + qbit b.unsettled 3 +
     qbit b.fault 2),
   w32 (b.heat % 1024 * 1024), w32 (b.inst % 4096 * 1048576 + b.nexcl % 1048576)]
/-- The place of an instance's block in the output store, in words. -/
def Device.outWord (d : Device) (inst : Nat) : Nat := 4 * ieOut (d.instE inst)
/-- Write words into the output store. -/
def Device.outPut (d : Device) (a : Nat) (ws : List Word) : Device :=
  { d.setPac { d.pac with outStore := ws.zipIdx.foldl (fun m w => mset m (a + w.2) w.1) d.pac.outStore } with
    noted := d.noteWrite 8 ((List.range ((ws.length + 1) / 2)).map (fun i => a / 2 + i)) }
/-- A committed or re-issued block goes to the output store and to the hurdle unit (R139). -/
def Device.publish (d : Device) (b : Block) : Device :=
  let keep := (d.lap? b.heat b.lap).isSome || d.pac.reissue.any (fun r => decide (r.1 = b.inst ∧ r.2.2.1 = b.lap))
  let d1 := d.setPac { d.pac with latest := mset d.pac.latest b.inst b,
                                  lapBlocks := if keep then mset d.pac.lapBlocks (ilKey b.inst b.lap) b else d.pac.lapBlocks }
  (d1.outPut (d.outWord b.inst) (blockHeader b ++ b.vals)).hurdleBlock b
/-- Re-issue the latest block of a lap with FINAL, unless it carries FINAL (R137). -/
def Device.reissueNow (d : Device) (inst lap : Nat) : Device :=
  match mget d.pac.lapBlocks (ilKey inst lap) with
  | some b => if b.final then d else (d.count PAC_SETTLE_OUT).publish { b with final := true }
  | none => d
/-- Re-issue, or wait for the commit of a task of an earlier token. -/
def Device.reissue (d : Device) (inst h lap : Nat) (late : Bool) : Device :=
  if d.uncommitted inst lap then d.setPac { d.pac with reissue := d.pac.reissue ++ [(inst, h, lap, late)] } else d.reissueNow inst lap

/-! Closing (R88, R104). -/

/-- Runs leave the block-map table, and their blocks return to the free ones. -/
def Device.freeMaps (d : Device) (f : BMap → Bool) : Device :=
  let l := (d.pfa.bmap.filter f).flatMap (·.blocks)
  d.setPfa { d.pfa with bmap := d.pfa.bmap.filter (fun m => !f m), usedBlocks := d.pfa.usedBlocks.filter (fun b => !l.contains b) }
/-- A disabled heat's slots return when the finish line of its last open lap has passed (R32); so do those of an enable before the present
one. -/
def Device.heatDrain (d : Device) (h : Nat) : Device :=
  match d.run? h with
  | none => d
  | some r =>
    let late := (d.lapsOf h).filter (fun l => !l.past)
    let d1 := if late.any (fun l => decide (l.lap < r.firstLap)) then d else d.freeMaps (fun m => decide (m.heat = h) && m.old)
    if r.enabled || !late.isEmpty || !d.pfa.bmap.any (fun m => decide (m.heat = h) && !m.old) then d1
    else (d1.freeMaps (fun m => decide (m.heat = h))).stateEnd h
/-- Staged records of a lap are dropped at its finish line (R104). -/
def Device.amendLost (d : Device) (h n : Nat) (f : Staged → Bool) : Device :=
  let k := (d.pfa.stage.filter (fun s => stagedOf h n false s && f s)).length
  if k = 0 then d
  else
    let d1 := (d.stageDrop (fun s => stagedOf h n false s && f s)).countN PFA_AMEND_LOST k
    match d1.run? h with
    | none => d1
    | some r =>
      let d2 := d1.raiseSec r.lostSec EV_PFA_AMEND_LOST [h, n, k]
      d2.setRun h { r with lostSec := some d2.sec }
/-- The lap is CLOSED: it holds no state and its ring position is free. -/
def Device.closeLap (d : Device) (h n : Nat) : Device :=
  let d1 := (d.amendLost h n (fun _ => true)).delLap h n
  let is := d1.insts.filterMap (fun e => if ieHeat e.2 = h then some e.1 else none)
  let gone (k : Nat) : Bool := decide (k % 2 ^ 64 = n) && is.contains (k / 2 ^ 64)
  let wait (k : Nat) : Bool := d1.pac.reissue.any (fun r => decide (r.1 = k / 2 ^ 64 ∧ r.2.2.1 = n))
  (d1.setPac { d1.pac with lapBlocks := d1.pac.lapBlocks.filter (fun e => !gone e.1 || wait e.1),
                           incoming := d1.pac.incoming.filter (fun e => !gone e.1) }).heatDrain h
/-- CLOSED once its finish line has passed and its FINAL token has been delivered. -/
def Device.closeCheck (d : Device) (h n : Nat) : Device :=
  match d.lap? h n with
  | some l => if l.past && l.final && decide (l.st = .released) && l.fencing.isNone && l.offered.isNone then d.closeLap h n else d
  | none => d

/-! Grants (R213). -/

def Device.tokNeed (d : Device) (h : Nat) (k : TokKind) : Nat :=
  match k with
  | .release => (d.releaseInsts h).length
  | .amend => (d.amendInsts h).length
  | _ => 0
def Device.grantable (d : Device) (need : Nat) : Bool := decide (need = 0) || decide (need + d.f SRT_CFG.RSV ≤ d.storeFree)
/-- A grant reserves the entries and ends a refusal episode (R226). -/
def Device.granted (d : Device) (need : Nat) : Device :=
  let d1 := (d.setSrt { d.srt with reserved := d.srt.reserved + need, refused := false }).storeShow 0
  if d.srt.refused then d1.setf SRT_STAT.REL_BLOCK 0 else d1
/-- The port refuses a token, counted once for it (R225, R226). -/
def Device.relRefuse (d : Device) (h n need : Nat) : Device :=
  let d1 := d.count SRT_REL_REFUSE
  if d1.srt.refused then d1
  else ((d1.setSrt { d1.srt with refused := true }).setf SRT_STAT.REL_BLOCK 1).raise EV_SRT_REL_BLOCK [h, n, need, d1.storeFree]

/-! Delivery (R95, R137, R299, R255). -/

/-- A token makes its tasks; AMEND tasks take the history of the lap's RELEASE run (R138). -/
def Device.makeTasks (d : Device) (is : List Nat) (t : Tok) : Device :=
  is.foldl (fun x i => x.operand i t.lap t.seq 0 (fun e =>
    { e with trig := some t, hist := if t.kind = .amend then x.incoming? i t.lap else e.hist })) d
/-- Release a token's reservation and mark the lap. -/
def Device.delivered (d : Device) (l : Lap) (t : Tok) (tasks : Nat) : Device :=
  (d.setSrt { d.srt with reserved := d.srt.reserved - l.need }).setLap
    { l with st := .released, fencing := none, need := 0, gathered := decide (tasks = 0), final := l.final || t.final,
             early := if t.kind = .release then t.early else l.early }
/-- Deliver a RELEASE. -/
def Device.deliverRelease (d : Device) (l : Lap) (t : Tok) (covered : Nat) : Device :=
  let is := d.releaseInsts l.heat
  let d1 := (d.delivered l t is.length).journalDecision 0 (tokFlags t) l.heat l.lap 0 covered (l.relT.getD d.now)
  let d2 := d1.makeTasks is t
  (d2.energyLap l.heat l.lap).clientLap l.heat l.lap true t.final
/-- Deliver an AMEND. -/
def Device.deliverAmend (d : Device) (l : Lap) (t : Tok) (ta : Time) (covered : Nat) : Device :=
  let is := d.amendInsts l.heat
  let d1 := (d.delivered l t is.length).journalDecision 1 (tokFlags t) l.heat l.lap t.seq covered ta
  ((d1.makeTasks is t).count PFA_AMEND_TOKENS).clientLap l.heat l.lap false t.final
/-- Deliver a SETTLE: no task; blocks are re-issued with FINAL (R137). -/
def Device.deliverSettle (d : Device) (l : Lap) : Device :=
  let t : Tok := ⟨l.heat, l.lap, .settle, 0, 0, false, false, true, false, l.early⟩
  let d1 := (d.setLap { l with offered := none, final := true }).journalDecision 2 (tokFlags t) l.heat l.lap 0 0 d.now
  let d2 := (d1.count PFA_SETTLE_TOKENS).clientLap l.heat l.lap false true
  (((d2.amendInsts l.heat).filter (fun i => !d2.combined i)).foldl (fun x i => x.reissue i l.heat l.lap l.late) d2).closeCheck l.heat l.lap

/-! The pending-release queue (R96, R97). -/

def Device.pendShow (d : Device) : Device :=
  let n := d.pfa.pendq.length
  let d1 := (d.setf PFA_PENDQ.LEVEL n).hwm PFA_PENDQ.HWM n
  if d1.pfa.fullEp && decide (n < 512) then d1.setPfa { d1.pfa with fullEp := false } else d1
/-- A token joins the queue, or is held in its lap's state. -/
def Device.pendJoin (d : Device) (h n : Nat) (k : TokKind) : Device :=
  let d0 := match d.lap? h n with
    | some l => if k = TokKind.release then d.setLap { l with waited := true } else d
    | none => d
  if d0.pfa.heldq.isEmpty && decide (d0.pfa.pendq.length < 1024) then
    ((d0.setPfa { d0.pfa with pendq := d0.pfa.pendq ++ [(h, n, k)] }).count PFA_PENDQ_WAIT).pendShow
  else
    let d1 := (d0.setPfa { d0.pfa with heldq := d0.pfa.heldq ++ [(h, n, k)] }).count PFA_PENDQ_FULL
    if d1.pfa.fullEp then d1 else (d1.setPfa { d1.pfa with fullEp := true }).raise EV_PFA_PENDQ_FULL [h, n]
/-- Held tokens enter the queue as space frees. -/
def Device.pendRefill (d : Device) : Device :=
  match d.pfa.heldq with
  | [] => d
  | t :: r =>
    if d.pfa.pendq.length < 1024 then
      ((d.setPfa { d.pfa with pendq := d.pfa.pendq ++ [t], heldq := r }).count PFA_PENDQ_WAIT).pendShow
    else d

/-- The head token leaves the queue, and a held token enters the freed place. -/
def Device.pendPop (d : Device) (r : List (Nat × Nat × TokKind)) : Device := ((d.setPfa { d.pfa with pendq := r }).pendShow).pendRefill

/-- Which records an AMEND still to come may cover keep their place at the finish line (R104): a SETTLE is offered when none is. -/
def Device.settleWanted (d : Device) (h n : Nat) : Bool :=
  match d.lap? h n with
  | some l => d.racing && l.past && !l.final && decide (l.st = .released) && l.fencing.isNone && l.offered.isNone
  | none => false
/-- An AMEND is offered (R102): something is staged, and the latest token delivered is gathered. -/
def Device.amendWanted (d : Device) (h n : Nat) : Bool :=
  match d.lap? h n with
  | some l => d.racing && !l.past && !l.final && l.gathered && decide (l.st = .released) && l.fencing.isNone && l.offered.isNone &&
      decide (l.seq < 255) && d.pfa.stage.any (stagedOf h n false)
  | none => false
def Device.setOffered (d : Device) (h n : Nat) (k : TokKind) : Device :=
  match d.lap? h n with
  | some l => d.setLap { l with offered := some k }
  | none => d

/-- A granted AMEND or SETTLE: the SETTLE is delivered, the AMEND's fence is taken at its instant. -/
def Device.issueLater (d : Device) (l : Lap) (k : TokKind) (need : Nat) : Device :=
  match k with
  | .settle => (d.granted need).deliverSettle l
  | _ =>
    let fin := l.past || decide (l.finish ≤ d.now)
    let t : Tok := ⟨l.heat, l.lap, .amend, l.seq + 1, 0, false, false, fin, l.late, l.early⟩
    (d.granted need).setLap { l with offered := none, seq := l.seq + 1, fencing := some (t, d.now), need := need, final := l.final || fin }
/-- Offer an AMEND or SETTLE token (R96). -/
def Device.offerLater (d : Device) (h n : Nat) (k : TokKind) : Device :=
  let d0 := d.setOffered h n k
  let need := d0.tokNeed h k
  match d0.lap? h n with
  | none => d0
  | some l =>
    if !d0.pfa.pendq.isEmpty || !d0.pfa.heldq.isEmpty then d0.pendJoin h n k
    else if d0.grantable need then d0.issueLater l k need
    else (d0.relRefuse h n need).pendJoin h n k
/-- What a lap offers next, after a delivery, a gather or its finish line. -/
def Device.lapNext (d : Device) (h n : Nat) : Device :=
  if d.settleWanted h n then d.offerLater h n .settle
  else if d.amendWanted h n then d.offerLater h n .amend
  else d.closeCheck h n

/-! The fence (R94, R95). -/

/-- The place of a staged record, as memory integrity names it. -/
def stLoc (s : Staged) : Nat := (s.heat * 2 ^ 48 + s.lap) * 16384 + s.lane
/-- The staged records of a lap are read, and those that are lost are dropped (Table 17.1, 0x04). -/
def Device.stageRead (d : Device) (h n : Nat) : Device :=
  if d.mem.bad.isEmpty then d
  else
    let mine := d.pfa.stage.filter (fun s => decide (s.heat = h ∧ s.lap = n))
    let d1 := mine.foldl (fun x s => x.noteRead 4 (stLoc s)) d
    d1.stageDrop (fun s => mine.contains s && decide (d.badAt 4 (stLoc s) = 2))
/-- What the fence reads before it acts: the lap's staged records, and for a release the quality words of its lanes. A lane whose quality words are
lost has not arrived to the release test (Table 17.1, 0x00). -/
def Device.fenceRead (d : Device) (l : Lap) (k : TokKind) : Lap × Device :=
  if d.mem.bad.isEmpty then (l, d)
  else
    let d1 := d.stageRead l.heat l.lap
    if k = .release then
      let d2 := l.lanes.foldl (fun x ln => (x.gsLocs l.heat l.lap ln (x.qualWords ln)).foldl (fun y p => y.noteRead 0 p.1) x) d1
      ({ l with here := l.here.filter (fun x => !d.gsLost l.heat l.lap x (d.qualWords x)) }, d2)
    else (l, d1)
/-- The fence of a lap's token has cleared: substitution or commit, then delivery. -/
def Device.fenceDone (da : Device) (la : Lap) (t : Tok) (fi : Time) : Device :=
  let r := da.fenceRead la t.kind
  let l := r.1
  let d := r.2
  let amendEn := heAmend (d.heatE l.heat)
  let d1 := match t.kind with
    | .release =>
      let covered := (l.lanes.filter (fun x => l.here.contains x)).length
      let x := d.substLap l
      let l1 := (x.lap? l.heat l.lap).getD l
      let c := lapComplete l1
      let e := decide (t.cause = 1) && !c
      x.deliverRelease l1 { t with complete := c, early := e, relEarly := e, final := t.final || c || !amendEn } covered
    | _ =>
      let x := d.commitLap l fi
      let l1 := (x.2.lap? l.heat l.lap).getD l
      let c := lapComplete l1
      x.2.deliverAmend l1 { t with complete := c, final := t.final || c } fi x.1
  d1.lapNext l.heat l.lap
/-- A granted token is issued (R92, R102, R99). -/
def Device.issue (d : Device) (h n : Nat) (k : TokKind) : Device :=
  let need := d.tokNeed h k
  match d.lap? h n with
  | none => d
  | some l => match k with
    | .release =>
      let T := d.now
      let late := l.waited && decide (l.deadline < T)
      let fin := l.past || decide (l.finish ≤ T)
      let t : Tok := ⟨h, n, .release, 0, l.cause, false, false, fin, late, false⟩
      let l1 := { l with st := .fencing, offered := none, relT := some T, late := late, fencing := some (t, min T l.finish), need := need,
                         final := fin }
      let d1 := (d.granted need).setLap l1
      let d2 := match l.cause with
        | 0 => d1.count PFA_REL_ALL
        | 1 => d1.count PFA_REL_QUORUM
        | 2 => d1.count PFA_REL_DEADLINE
        | _ => d1.count PFA_REL_DISABLE
      let d3 := if late then d2.count PFA_LATE_LAPS else d2
      if l.cause = 0 then d3.fenceDone l1 t (min T l.finish) else d3
    | _ => d.issueLater l k need
/-- Offer a RELEASE token (R96). -/
def Device.offerRelease (d : Device) (h n : Nat) : Device :=
  let d0 := d.setOffered h n .release
  let need := d0.tokNeed h .release
  if !d0.pfa.pendq.isEmpty || !d0.pfa.heldq.isEmpty then d0.pendJoin h n .release
  else if d0.grantable need then d0.issue h n .release
  else (d0.relRefuse h n need).pendJoin h n .release
/-- The PFA issues head tokens while the port grants them; a token that comes to the head and is refused counts (R96, R213, R225). -/
def pendDrain (fuel : Nat) (fresh : Bool) (d : Device) : Device :=
  match fuel with
  | 0 => d
  | k + 1 =>
    let d0 := d.pendRefill
    match d0.pfa.pendq with
    | [] => d0
    | (h, n, t) :: r =>
      let need := d0.tokNeed h t
      if d0.grantable need then pendDrain k true ((d0.pendPop r).issue h n t)
      else if fresh then d0.relRefuse h n need
      else d0
/-- Waiting tokens are offered again (R213). -/
def Device.reoffer (d : Device) : Device := pendDrain (d.pfa.pendq.length + d.pfa.heldq.length + 2) false d
/-- RELEASE_PORT_GRANT: the port grants the head token an entry. -/
def releasePortGrant (d : Device) : Device :=
  if !d.racing then d
  else
    let d0 := d.pendRefill
    match d0.pfa.pendq with
    | [] => d0
    | (h, n, t) :: r =>
      if d0.grantable (d0.tokNeed h t) then
        let d1 := (d0.pendPop r).issue h n t
        match d1.pfa.pendq with
        | (h2, n2, t2) :: _ => if d1.grantable (d1.tokNeed h2 t2) then d1 else d1.relRefuse h2 n2 (d1.tokNeed h2 t2)
        | [] => d1
      else d0
/-- Decide a release (R90). -/
def Device.decideLap (d : Device) (h n cause : Nat) : Device :=
  match d.lap? h n with
  | some l => (d.setLap { l with st := .due, cause := cause }).offerRelease h n
  | none => d

/-- FENCE_CLEAR: the ingress marks have passed the fence instant of a lap's token. -/
def fenceClear (h n : Nat) (d : Device) : Device :=
  match d.lap? h n with
  | some l => match l.fencing with
    | some (t, fi) =>
      if !d.racing || !d.marksPast h fi then d
      else
        let from_ := if t.kind = .release then l.relT.getD fi else fi
        let d1 := if d.now > from_ + 12 * Time.usU then d.count PFA_FENCE_SLOW else d
        d1.fenceDone l t fi
    | none => d
  | none => d

end Sys2Proof.Machine
end

