-- ==== Sys2Proof/Machine/Pfa.lean ====
section
/-!
DEFINITION. The Photo-Finish Aligner's events (spec/03): arrivals (R89, R90, R106), lap openings and skips (R86, R88), deadlines and
finish lines (R90, R104), window commands (R110, R111), what a disable does to open laps (R32), and the journaled decisions (R118).
-/
namespace Sys2Proof.Machine

/-! Arrivals. -/

/-- An ordinary write (R90). Only in RACE does it decide a release (R118). -/
def Device.ordWrite (d : Device) (h n lane : Nat) (recs : List (List Word)) : Device :=
  match d.lap? h n with
  | none => d
  | some l =>
    let e := d.heatE h
    let l1 := { l with here := l.here ++ [lane], arrived := l.arrived + 1,
                       wsum := if bit (recQR recs) qVALID then l.wsum + leWeight (d.laneE lane) else l.wsum }
    let d1 := ((((d.putRecs h n lane recs).holdRecs lane n recs)).setLap l1).count PFA_RECORDS_WRITTEN
    if l1.st = .gathering ∧ d.racing then
      if l1.arrived = l1.lanes.length then d1.decideLap h n 0
      else if heEarly e ∧ heQuorum e ≤ l1.wsum then d1.decideLap h n 1
      else d1
    else d1

/-- The disposition of a record (R106, Tables 3.3 and 16.4), in the order of the table's rows. A lap whose opening time has passed and which
has not been opened yet takes its frames as a WAITING lap does (DEDUCED, log entry 89). -/
def Device.dispOf (d : Device) (h n : Nat) (arr : Time) : Nat :=
  let full := decide (d.pfa.stage.length ≥ 8192)
  let before : Bool := match d.run? h with | some r => decide (n < r.firstLap) | none => false
  match d.lap? h n with
  | some l =>
    if l.st = .gathering then 0
    else if before then 8
    else if l.st = .due ∧ (l.past ∨ l.finish ≤ d.now) ∧ l.finish ≤ arr then 10
    else if l.finish ≤ arr then 6
    else if arr < d.openT h n then 7
    else if l.st = .waiting then (if full then 4 else 2)
    else if l.st = .due then 0
    else
      let amend := if !heAmend (d.heatE h) then 3 else if full then 4 else if l.seq ≥ 255 then 5 else 1
      match l.st, l.fencing with
      | .fencing, some (_, fi) => if arr < fi then 0 else amend
      | _, _ => amend
  | none => match d.run? h with
    | none => 8
    | some r =>
      if before then 8
      else if r.skipped.contains n then 9
      else if n < r.nextLap then 6
      else if d.finishT h n ≤ arr then 6
      else if arr < d.openT h n ∨ d.now < d.openT h n ∨ !r.enabled then 7
      else if full then 4
      else 2

/-- What a disposition does. -/
def Device.applyDisp (d : Device) (code h n lane : Nat) (arr : Time) (recs : List (List Word)) : Device :=
  match code with
  | 0 => d.ordWrite h n lane recs
  | 1 => ((d.stageAdd ⟨h, n, lane, arr, bit (recQR recs) qVALID, recs, false⟩).count PFA_AMEND_FRAMES).lapNext h n
  | 2 => d.stageAdd ⟨h, n, lane, arr, bit (recQR recs) qVALID, recs, true⟩
  | 3 => d.count PFA_POST_RELEASE
  | 4 =>
    let d1 := (d.count PFA_STAGE_FULL).raiseSec d.pfa.stageSec EV_PFA_STAGE_FULL [h, n, lane]
    d1.setPfa { d1.pfa with stageSec := some d1.sec }
  | 5 => d.count PFA_AMEND_CAP
  | 7 => d.count PFA_TOO_EARLY
  | 8 => d.count PFA_BEFORE_FIRST
  | 9 => d.count PFA_ON_SKIPPED
  | _ => d.count PFA_AFTER_FINISH
/-- A converted lane reaches the PFA (R57). `disp` is a journaled disposition (R118); the answer is the one applied. -/
def Device.pfaArrive (d : Device) (lane n : Nat) (arr : Time) (recs : List (List Word)) (disp : Option Nat) : Nat × Device :=
  let h := leHeat (d.laneE lane)
  let code := disp.getD (d.dispOf h n arr)
  (code, (d.latFrame h n lane recs).applyDisp code h n lane arr recs)

/-! Openings and skips. -/

/-- The ring position of a lap is free (R88). -/
def Device.posFree (d : Device) (h n : Nat) : Bool :=
  !(d.lapsOf h).any (fun l => decide (l.st ≠ .waiting ∧ l.lap ≠ n ∧ l.lap % d.depth h = n % d.depth h))
def lapNew_ (h n : Nat) (finish : Time) : Lap :=
  ⟨h, n, .waiting, 0, [], 0, 0, [], [], [], 0, finish, none, false, false, none, none, 0, false, false, false, 0, false⟩
/-- Open a lap (R86): its words are zeroed, its lanes counted, its deadline and finish line registered, and its early records written. -/
def Device.openLap (d : Device) (h n : Nat) : Device :=
  match d.run? h with
  | none => d
  | some r =>
    let d1 := d.windowOpen h r
    let win := d1.window h (d1.estimate h)
    let dl := d1.deadlineUs h n win
    let fin := d1.finishT h n
    let l0 := (d1.lap? h n).getD (lapNew_ h n fin)
    let l1 := { l0 with st := .gathering, lanes := d1.lapLanes h n, deadline := dl * Time.usU, finish := fin }
    let d2 := ((d1.setPfa (gsZero d1.pfa h (n % d1.depth h))).setLap l1).count PFA_LAPS_OPENED
    let d3 := if d2.racing then d2.addTimer h n dl .deadline else d2
    let d4 := d3.addTimer h n (ceilUs fin) .finish
    let early := d4.pfa.stage.filter (stagedOf h n true)
    early.foldl (fun x s => x.ordWrite h n s.lane s.recs) (d4.stageDrop (stagedOf h n true))
/-- The instance timers of a lap, registered at its opening time: instances with one offset share a timer (R216). -/
def Device.lapTimers (d : Device) (h n : Nat) : Device :=
  (d.offsets h).foldl (fun x o => x.addTimer h n (ceilUs (x.lapT h n + o * Time.usU)) (.inst o)) d
/-- The heat's next lap: its timers, and its opening where its position is free. -/
def Device.openNext (d : Device) (h n : Nat) (r : HeatRun) : Device :=
  let d1 := (d.setRun h { r with nextLap := n + 1 }).lapTimers h n
  if d1.posFree h n then d1.openLap h n else d1.setLap (lapNew_ h n (d1.finishT h n))
/-- LAP_OPEN: the opening time of the heat's next lap, or the position of a WAITING lap has become free. -/
def lapOpen (h n : Nat) (d : Device) : Device :=
  match d.run? h with
  | none => d
  | some r =>
    if !d.lapsRun || !r.enabled || decide (r.firstLap = 0) then d
    else match d.lap? h n with
      | some l => if l.st = .waiting ∧ d.posFree h n then d.openLap h n else d
      | none =>
        if n ≠ r.nextLap ∨ d.now < d.openT h n then d
        else d.openNext h n r
/-- Skip a lap (R88). -/
def Device.skipLap (d : Device) (h n : Nat) (t : Time) : Device :=
  match d.run? h with
  | none => d
  | some r =>
    let k := (d.pfa.stage.filter (fun s => decide (s.heat = h ∧ s.lap = n))).length
    let d1 := (d.stageDrop (fun s => decide (s.heat = h ∧ s.lap = n))).countN PFA_ON_SKIPPED k
    let d2 := ((d1.delLap h n).setRun h { r with skipped := r.skipped ++ [n], nextLap := max r.nextLap (n + 1) }).journalDecision 3 0 h n 0 0 t
    let d3 := (d2.count PFA_LAPS_SKIPPED).raise EV_PFA_SKIP [h, n]
    ((((d3.stateSkip h n).storeCheck).energySkip h n).hurdleSkip h).reoffer
/-- LAP_SKIP: a lap is still WAITING at its own lap time. -/
def lapSkip (h n : Nat) (d : Device) : Device :=
  match d.lap? h n with
  | some l => if d.racing ∧ l.st = .waiting ∧ d.lapT h n ≤ d.now then d.skipLap h n d.now else d
  | none => d

/-! Deadlines and finish lines. -/

/-- The timer that is due is of a lap and kind. -/
def Device.dueIs (d : Device) (h n : Nat) (k : TimerKind) : Option Timer :=
  match d.dueTimer with
  | some t => if t.heat = h ∧ t.lap = n ∧ t.kind = k then some t else none
  | none => none
/-- DEADLINE_EXPIRY. -/
def deadlineExpiry (h n : Nat) (d : Device) : Device :=
  if !d.lapsRun then d
  else match d.dueIs h n .deadline with
    | none => d
    | some t =>
      let d1 := (d.timerFire).dropTimer t
      match d1.lap? h n with
      | some l => if l.st = .gathering ∧ d1.racing then d1.decideLap h n 2 else d1
      | none => d1
/-- The finish line of a lap passes (R104, R108). -/
def Device.finishLine (d : Device) (h n : Nat) : Device :=
  match d.lap? h n with
  | none => d
  | some l =>
    let none_ := l.lanes.filter (fun x => !l.seen.contains x)
    let d1 := none_.foldl (fun x lane => x.latObserve lane (heFinish (d.heatE h))) d
    let d2 := d1.setLap { l with past := true, seen := l.seen ++ none_ }
    let keep (s : Staged) : Bool := match l.fencing with
      | some (t, fi) => decide (t.kind = .amend) && decide (s.arr < fi)
      | none => decide (l.offered = some TokKind.amend)
    let d3 := if d2.racing ∧ (l.st = .released ∨ l.st = .fencing) then d2.amendLost h n (fun s => !keep s) else d2
    (d3.lapNext h n).heatDrain h
/-- FINISH_LINE_EXPIRY. -/
def finishLineExpiry (h n : Nat) (d : Device) : Device :=
  if !d.lapsRun then d
  else match d.dueIs h n .finish with
    | none => d
    | some t => ((d.timerFire).finishLine h n).dropTimer t

/-! Window commands (R110, R111). -/

def Device.winErr (d : Device) (c : Nat) : Device := d.err PFA_WIN_STAT.ERR PFA_WIN_STAT.ECODE c
/-- The heat entry after a command. -/
def winEntry (e : List Word) (op v : Nat) : List Word :=
  match op with
  | 1 => lset (lset e 4 (bset (wd e 4) 23 0 v)) 0 (bset (wd e 0) 23 23 1)
  | 2 => lset e 0 (bset (wd e 0) 23 23 0)
  | 3 => lset e 2 (bset (wd e 2) 23 0 v)
  | _ => lset e 3 (bset (wd e 3) 23 0 v)
/-- Give a GATHERING lap its new deadline, or decide it where that has passed. -/
def Device.newDeadline (d : Device) (h win : Nat) (l : Lap) : Device :=
  let dl := d.deadlineUs h l.lap win
  let d1 := d.setLap { l with deadline := dl * Time.usU }
  let d2 := (d1.srt.timers.filter (fun t => decide (t.heat = h ∧ t.lap = l.lap ∧ t.kind = .deadline))).foldl (fun x t => x.dropTimer t) d1
  if dl * Time.usU ≤ d2.now then d2.decideLap h l.lap 2 else d2.addTimer h l.lap dl .deadline
/-- A write to PFA_WIN_CMD. -/
def winCmd (op v : Nat) (d : Device) : Device :=
  if !d.alive then d
  else
    let h := d.f PFA_HEAT_SEL.HEAT
    let e := d.heatE h
    let e1 := winEntry e op v
    if d.pfa.busy then d.winErr 5
    else if !d.heatOn h then d.winErr 1
    else if op = 0 ∨ 4 < op then d.winErr 2
    else if heWmin e1 > heWmax e1 then d.winErr 4
    else if heWmax e1 ≥ heFinish e1 ∨ heWfix e1 ≥ heFinish e1 then d.winErr 3
    else
      let d1 := ((d.setEnt tHeat h e1).setPfa { d.pfa with busy := true }).setf PFA_WIN_STAT.BUSY 1
      let win := d1.window h (match d1.run? h with | some r => r.eh | none => 0)
      if d1.racing then ((d1.lapsOf h).filter (fun l => l.st = .gathering)).foldl (fun x l => x.newDeadline h win l) d1 else d1
/-- WIN_CMD_COMPLETE. -/
def winCmdComplete (d : Device) : Device :=
  if d.alive then (d.setPfa { d.pfa with busy := false }).setf PFA_WIN_STAT.BUSY 0 else d

/-! Enable and disable. -/

/-- The first lap whose opening time is at or after an instant (R31). -/
def firstLapAt (rate : Nat) (t : Time) : Nat := lapAtOrAfter rate t + 1
/-- An enabled heat begins to open laps: at its enable in a mode that measures, at RACE entry otherwise (DEDUCED, log entry 36). -/
def Device.heatStartAt (d : Device) (h : Nat) (t : Time) : Device :=
  match d.run? h with
  | none => d
  | some r =>
    let n := firstLapAt (d.rate h) t
    (d.setRun h { r with enableAt := t, firstLap := n, nextLap := n, skipped := [] }).hurEnable h n
def Device.heatStart (d : Device) (h : Nat) : Device := d.heatStartAt h d.now
/-- What a disable does to the laps of a heat (R32, R88). -/
def Device.heatStop (d : Device) (h : Nat) : Device :=
  match d.run? h with
  | none => d
  | some r =>
    let d1 := d.setRun h { r with enabled := false }
    let d2 := if d1.racing then
        (d1.lapsOf h).foldl (fun x l =>
          if l.st = .gathering then x.decideLap h l.lap 3 else if l.st = .waiting then x.skipLap h l.lap x.now else x) d1
      else d1
    let left (s : Staged) : Bool := decide (s.heat = h) && decide (r.nextLap ≤ s.lap)
    let d3 := (d2.stageDrop left).countN PFA_ON_SKIPPED (d2.pfa.stage.filter left).length
    ((((d3.heatDrain h).timersGone h).stateEnd h).storeCheck).reoffer

/-! Journaled decisions (R118). A record that no disposition came with (REMOTE) waits for its lap's release, whose instant decides what it is:
it stands in the staging buffer as an early record of a lap that gathers (DEDUCED, log entry 47). -/

/-- A record of a REMOTE entry in FOLLOW or RERUN. -/
def Device.followArrive (d : Device) (h n lane : Nat) (arr : Time) (recs : List (List Word)) : Device :=
  let gathers : Bool := match d.lap? h n with | some l => decide (l.st = .gathering) | none => false
  if gathers then (d.latFrame h n lane recs).stageAdd ⟨h, n, lane, arr, bit (recQR recs) qVALID, recs, true⟩
  else (d.pfaArrive lane n arr recs none).2
/-- Records that waited meet the release instant. -/
def Device.deferredIn (d : Device) (h n : Nat) : Device :=
  let l := d.pfa.stage.filter (stagedOf h n true)
  if l.isEmpty then d
  else l.foldl (fun x s => x.applyDisp (x.dispOf h n s.arr) h n s.lane s.arr s.recs) (d.stageDrop (stagedOf h n true))

/-! Journaled decisions (R118): the follower and a Rerun issue nothing themselves. -/

/-- Apply a DECISION entry: its kind, flags, lap and instant. -/
def Device.applyDecision (d : Device) (kind flags h n seq : Nat) (t : Time) : Device :=
  let fl (i : Nat) : Bool := decide (flags / 2 ^ i % 2 = 1)
  if kind = 3 then d.skipLap h n t
  else match d.lap? h n with
    | none => d
    | some l =>
      if kind = 0 then
        let fi := min t l.finish
        let tok : Tok := ⟨h, n, .release, 0, flags % 4, false, false, fl 5, fl 4, false⟩
        let need := d.tokNeed h .release
        let l1 := { l with st := .fencing, cause := flags % 4, relT := some t, late := fl 4, fencing := some (tok, fi), need := need }
        let d1 := (d.granted need).setLap l1
        let d2 := match flags % 4 with
          | 0 => d1.count PFA_REL_ALL
          | 1 => d1.count PFA_REL_QUORUM
          | 2 => d1.count PFA_REL_DEADLINE
          | _ => d1.count PFA_REL_DISABLE
        let d3 := (if fl 4 then d2.count PFA_LATE_LAPS else d2).deferredIn h n
        d3.fenceDone ((d3.lap? h n).getD l1) { tok with final := fl 5 && !fl 6 } fi
      else if kind = 1 then
        let tok : Tok := ⟨h, n, .amend, seq, 0, false, false, fl 5, l.late, l.early⟩
        let need := d.tokNeed h .amend
        let l1 := { l with seq := seq, fencing := some (tok, t), need := need }
        ((d.granted need).setLap l1).fenceDone l1 tok t
      else d.deliverSettle l

end Sys2Proof.Machine
end

