-- ==== Sys2Proof/Machine/Island.lean ====
section
/-!
DEFINITION. The island unit (spec/06): contributions (R193, R194), runs of ISLDET and what they count (R200 to R206), graph loads and
swaps (R189, R192, R207, R208), and ISLSUM (spec/12, R365).
-/
namespace Sys2Proof.Machine

/-! Graphs. -/

def graphNone : Graph := ⟨false, 0#32, [], []⟩
def Device.graph (d : Device) (b : Nat) : Graph := d.isl.banks.getD b graphNone
/-- Lanes a graph references. -/
def graphLanes (g : Graph) : List Nat :=
  (g.buses.filterMap (fun b => if bit (wd b 1) 31 then some (refLane (wd b 2)) else none)) ++
  (g.branches.flatMap (fun b => [wd b 1, wd b 2])).filterMap (fun s => if staMode s = 1 ∨ staMode s = 2 then some (staLane s) else none)
/-- Voltage references of the buses of either valid bank. -/
def Device.islRefs (d : Device) : List Word :=
  ((d.isl.banks.filter (·.valid)).flatMap (fun g => g.buses.filterMap (fun b => if bit (wd b 1) 31 then some (wd b 2) else none))).eraseDups
/-- Lanes that either valid bank references. -/
def Device.islLanes (d : Device) : List Nat := ((d.isl.banks.filter (·.valid)).flatMap graphLanes).eraseDups
def Device.islShow (d : Device) : Device :=
  (((d.setf ISL_GRAPH.ACTIVE d.isl.active).setf ISL_GRAPH.LOAD_BANK (1 - d.isl.active)).setf ISL_GRAPH.VALID0 (b2n (d.graph 0).valid)).setf
    ISL_GRAPH.VALID1 (b2n (d.graph 1).valid)
/-- The graph of a lap: the active one from its swap lap on, the one before it for earlier laps. -/
def Device.bankAt (d : Device) (n : Nat) : Option Nat :=
  if d.isl.live && decide (d.isl.graphLap ≤ n) then some d.isl.active
  else if d.isl.live && d.isl.oldLive then some (1 - d.isl.active)
  else none

/-- Checks of a graph load (R192), on its words: a header of 4, buses of 8, branches of 4. -/
def graphOk (ws : List Word) : Bool :=
  let nb := bx (wd ws 0) 15 0 + 1
  let nr := bx (wd ws 1) 15 0 + 1
  let buses := chunks 8 (nb + 1) (slice ws 4 (8 * nb))
  let brs := chunks 4 (nr + 1) (slice ws (4 + 8 * nb) (4 * nr))
  let staOk (s : Word) : Bool := bx s 28 28 = 0 && bx s 19 14 = 0 && (staMode s ≠ 2 || staPos s % 2 = 0)
  let nonneg (x : Word) : Bool := fFinite x && !(fSign x && !fIsZero x)
  decide (nb ≤ 32768) && bx (wd ws 0) 31 16 = 0 && bx (wd ws 1) 31 16 = 0 && wd ws 3 = 0#32 && decide (ws.length = 4 + 8 * nb + 4 * nr) &&
  decide ((buses.map (fun b => wd b 0)).eraseDups.length = nb) &&
  buses.all (fun b => bx (wd b 1) 30 0 = 0 && bx (wd b 2) 23 14 = 0 && wd b 6 = 0#32 && wd b 7 = 0#32 && nonneg (wd b 4) && nonneg (wd b 5) &&
    (!bit (wd b 1) 31 || (fFinite (wd b 3) && fLt fZero (wd b 3)))) &&
  brs.all (fun b =>
    let f := bx (wd b 0) 30 16
    let t := bx (wd b 0) 14 0
    bx (wd b 0) 31 31 = 0 && bx (wd b 0) 15 15 = 0 && decide (f < nb ∧ t < nb ∧ f ≠ t) && staOk (wd b 1) && staOk (wd b 2) && wd b 3 = 0#32)
def graphOf (ws : List Word) : Graph :=
  let nb := bx (wd ws 0) 15 0 + 1
  let nr := bx (wd ws 1) 15 0 + 1
  ⟨true, wd ws 2, chunks 8 (nb + 1) (slice ws 4 (8 * nb)), chunks 4 (nr + 1) (slice ws (4 + 8 * nb) (4 * nr))⟩
/-- A graph load into LOAD_BANK (R192): false where it completes with an error status, the bank then invalid. -/
def Device.graphLoad (d : Device) (ws : List Word) : Bool × Device :=
  let b := 1 - d.isl.active
  let ok := graphOk ws && !d.fb ISL_GRAPH.SWAP
  let g := if ok then graphOf ws else graphNone
  (ok, (d.setIsl { d.isl with banks := lset d.isl.banks b g }).islShow)

/-! Swaps (R207, R208). -/

/-- A reference's check against its lane: 0 passes. -/
def Device.refBad (d : Device) (refHeat : Nat) (lane : Nat) (ok : List Word → Bool) : Bool :=
  let e := d.laneE lane
  !leEn e || !(decide (leHeat e = refHeat) || d.contributors.contains (leHeat e)) || !ok e
/-- The first offending entry of a graph: (branch, index). -/
def Device.graphBad (d : Device) (refHeat : Nat) (g : Graph) : Option (Bool × Nat) :=
  let busBad (b : List Word) : Bool := bit (wd b 1) 31 && d.refBad refHeat (refLane (wd b 2)) (fun e => decide (refSlot (wd b 2) < leNph e))
  let staBad (s : Word) : Bool := (staMode s = 1 || staMode s = 2) && d.refBad refHeat (staLane s) (fun e => decide (staWord s < leNdig e))
  match g.buses.findIdx? busBad with
  | some i => some (false, i)
  | none => (g.branches.findIdx? (fun b => staBad (wd b 1) || staBad (wd b 2))).map (fun i => (true, i))
/-- A swap is refused (R208). -/
def Device.swapRefuse (d : Device) (code : Nat) : Device :=
  let b := 1 - d.isl.active
  ((((d.setIsl { d.isl with swapAt := none }).setf ISL_GRAPH.SWAP 0).err ISL_STAT.ERR ISL_STAT.ECODE code)).raise EV_ISL_GRAPH
    [b, (d.graph b).version.toNat, code]
/-- The checks of a swap: 0 passes. -/
def Device.swapCheck (d : Device) : Nat × Option (Bool × Nat) :=
  let e := d.instE (d.f ISL_CTL.INST)
  let b := 1 - d.isl.active
  if !ieEn e || ieCode e ≠ kISLDET then (1, none)
  else if !(d.graph b).valid then (2, none)
  else match d.graphBad (ieHeat e) (d.graph b) with
    | some x => (3, some x)
    | none => (0, none)
def Device.swapBad (d : Device) (r : Nat × Option (Bool × Nat)) : Device :=
  let d1 := match r.2 with
    | some (br, i) => (d.setf ISL_GRAPH_BAD.BRANCH (b2n br)).setf ISL_GRAPH_BAD.INDEX i
    | none => d
  d1.swapRefuse r.1
/-- ISL_SWAP_REQUEST: ISL_GRAPH.SWAP := 1. -/
def islSwapRequest (d : Device) : Device :=
  if !d.alive || d.fb ISL_GRAPH.SWAP then d
  else
    let d1 := d.setf ISL_GRAPH.SWAP 1
    let r := d1.swapCheck
    if r.1 ≠ 0 then d1.swapBad r else d1.setIsl { d1.isl with swapAt := some d1.now }
/-- The swap takes effect at a RELEASE run of lap `n`. -/
def Device.swapApply (d : Device) (n : Nat) : Device :=
  let b := 1 - d.isl.active
  let g := d.graph b
  let d1 := d.setIsl { d.isl with active := b, live := true, oldLive := d.isl.live, swapAt := none, swapLap := none, graphLap := n }
  let d2 := ((((d1.setf ISL_GRAPH.SWAP 0).islShow).wr ISL_GRAPH_LAP_LO 0 (w32 n)).count ISL_SWAPS).raise EV_ISL_GRAPH [b, g.version.toNat, 0]
  if d2.racing then d2.journalW 0x16 0 (d2.lapT (ieHeat (d2.instE (d2.f ISL_CTL.INST))) n) ([w32 b, g.version] ++ two n) else d2
/-- Before a RELEASE run of the reference heat's lap `n`: a pending swap whose request came before the lap opened is checked again and applied,
or refused. -/
def Device.swapAtRun (d : Device) (inst n : Nat) : Device :=
  if inst ≠ d.f ISL_CTL.INST then d
  else match d.isl.swapAt, d.isl.swapLap with
    | some t, _ =>
      if d.racing && decide (t < d.openT (ieHeat (d.instE inst)) n) then
        let r := d.swapCheck
        if r.1 ≠ 0 then d.swapBad r else d.swapApply n
      else d
    | none, some l => if !d.racing && decide (l ≤ n) then d.swapApply n else d
    | none, none => d

/-! ISLIN (R193). -/

/-- An ISLIN commit: the records of the lanes either valid bank references; copies older than 30 s are gone. -/
def Device.islinCommit (d : Device) (inst n : Nat) (g : Gathered) : Device :=
  let h := ieHeat (d.instE inst)
  let t := d.lapT h n
  let lanes := d.islLanes
  let c : IslCopy := ⟨n, t, g.filter (fun x => lanes.contains x.1)⟩
  let old := d.isl.copies.filter (fun x => decide (t ≤ x.2.lapTime + 30 * Time.secU))
  ((d.setIsl { d.isl with copies := mset old (lapKey h n) c }).count ISLIN_RUNS)

/-- The laps of the reference heat whose contribution from a heat is its lap `n`. -/
def Device.servedLaps (d : Device) (ref h n : Nat) : List Nat :=
  let a := lapAtOrBefore (d.rate ref) (d.lapT h n)
  ((List.range (d.rate ref / d.rate h + 3)).map (a + ·)).filter (fun m => decide (lapAtOrBefore (d.rate h) (d.lapT ref m) = n))
/-- The RELEASE token of a lap is still to be delivered. -/
def Device.releaseAhead (d : Device) (h n : Nat) : Bool :=
  match d.run? h with
  | none => false
  | some r => decide (r.firstLap ≠ 0 ∧ r.firstLap ≤ n) && !r.skipped.contains n && (match d.lap? h n with
    | some l => decide (l.st ≠ .released ∧ l.st ≠ .closed)
    | none => r.enabled && decide (r.nextLap ≤ n))
/-- An ISLIN copy is an operand of every ISLDET task it serves (R193, R212): those in the store, and the RELEASE runs still to come. -/
def Device.contribute (d : Device) (h n : Nat) : Device :=
  (d.insts.filter (fun e => decide (ieCode e.2 = kISLDET ∧ ieHeat e.2 ≠ h))).foldl (fun x e =>
    (x.servedLaps (ieHeat e.2) h n).foldl (fun y m =>
      let here := (y.srt.store.filter (fun s => decide (s.inst = e.1 ∧ s.lap = m) && s.ready.isNone)).map (·.seq)
      (if here.contains 0 || !y.releaseAhead (ieHeat e.2) m then here else here ++ [0]).foldl (fun z k =>
        z.operand e.1 m k 1 (fun s => { s with data := s.data ++ [.contribution h n] })) y) x) d

/-! ISLDET. -/

def islCfg (d : Device) (ie p : List Word) : IslCfg :=
  ⟨bx (wd p 0) 31 24, bx (wd p 0) 23 16, wd p 1, wd p 2, wd p 3, heNom60 (d.heatE (ieHeat ie)), exclCfg ie⟩
/-- Missing laps age what a state holds (R138, R195, R197). -/
def islAge (gap : Nat) (s : IslSt) : IslSt :=
  { s with ends := s.ends.map (fun e => (e.1, { e.2 with runs := e.2.runs + gap })),
           busv := s.busv.map (fun e => (e.1, { e.2 with runs := e.2.runs + gap, aruns := e.2.aruns + gap })) }
def islSt0 (bank : Nat) : IslSt := ⟨false, [], none, [], [], [], [], bank⟩
/-- A lane's input at lap `n` of the reference heat, the previous run being that of lap `prev`: a contribution of the same lap as then, a missing
one too, is not new data (R194). -/
def Device.islIn (d : Device) (refHeat n prev : Nat) (g : Gathered) (lane : Nat) : LaneIn :=
  let e := d.laneE lane
  let t := d.lapT refHeat n
  if !leEn e then ⟨none, t, true⟩
  else if leHeat e = refHeat then ⟨gRecs g lane, t, true⟩
  else
    let r := d.rate (leHeat e)
    let fresh := decide (lapAtOrBefore r t ≠ lapAtOrBefore r (d.lapT refHeat prev))
    match d.contribution (leHeat e) t with
    | some (some c) => ⟨(c.lanes.find? (fun x => x.1 = lane)).map (·.2), c.lapTime, fresh⟩
    | _ => ⟨none, t, fresh⟩
/-- Contributors whose every value is excluded at lap `n` (R194). -/
def Device.islMissing (d : Device) (refHeat n : Nat) : Nat :=
  (d.contributors.filter (fun h => decide (h ≠ refHeat) && (match d.contribution h (d.lapT refHeat n) with | some (some _) => false | _ => true))).length

/-- What an ISLDET run gives: its values, NEXCL, UNSETTLED, the state it passes on, and its summary with the map. -/
structure IslOut where
  vals : List Word
  nexcl : Nat
  unset : Bool
  hist : KState
  summary : List (List Word)
  map : List Byte
  deriving DecidableEq, Repr

/-- The counters, ISL_STAT and events of a run (R203, R205, R209 to R211). -/
def Device.islReport (d : Device) (n : Nat) (release : Bool) (r : IslRun) : Device :=
  let was := d.fb ISL_STAT.DISAGREE
  let d1 := ((d.setf ISL_STAT.DISAGREE (b2n r.disagree)).setf ISL_STAT.PENDING (b2n r.pending)).setf ISL_STAT.LIVE r.count
  let d2 := if r.byAgree then d1.count ISL_ACCEPT_AGREE else d1
  let d3 := if r.byPersist then d2.count ISL_ACCEPT_PERSIST else d2
  let d4 := if release && r.dropped then d3.count ISL_PENDING_DROPPED else d3
  let d5 := if r.disagree then d4.count ISL_DISAGREE_LAPS else d4
  let d6 := (((d5.countN ISL_STATUS_UNKNOWN r.unknown).countN ISL_STATUS_BAD r.bad).countN ISL_OUTLIERS r.outliers).countN ISL_UNREPORTED r.unreported
  let d7 := if r.changed then d6.raise EV_ISL_CHANGE [n, r.count, (Config.islIds r.assigned r.retired).toNat, b2n (!release)] else d6
  let d8 := if r.disagree && !was then
      let x := d7.raiseSec d7.isl.disSec EV_ISL_DISAGREE [n, r.tcount, r.gcount]
      x.setIsl { x.isl with disSec := some x.sec }
    else d7
  if r.unreported > 0 then
    let x := d8.raiseSec d8.isl.ovfSec EV_ISL_OVF [r.count]
    x.setIsl { x.isl with ovfSec := some x.sec }
  else d8
/-- A run whose bytes differ from the last map written writes buffer SEQ mod 2 (R206), where a host reads it by DMA (log entry 75). -/
def Device.mapWrite (d : Device) (n : Nat) (m : List Byte) : Device :=
  if d.isl.maps.getD (d.f ISL_MAP.BUF) [] = m then d
  else
    let b := d.isl.mapSeq % 2
    let seq := (d.isl.mapSeq + 1) % 2147483648
    let d1 := (d.setIsl { d.isl with mapSeq := seq, maps := lset d.isl.maps b m, mapLap := n }).ddrWrite (Config.islMapAt b).toNat m
    ((d1.setf ISL_MAP.BUF b).setf ISL_MAP.SEQ seq).wr ISL_MAP_LAP_LO 0 (w32 n)
/-- An ISLDET run commits (R200 to R207). -/
def Device.isldetCommit (d : Device) (inst n : Nat) (release : Bool) (g : Gathered) (hist : Option KState) : IslOut × Device :=
  let ie := d.instE inst
  let h := ieHeat ie
  let p := d.param ie
  let gap := d.gapOf inst n
  let d0 := (if release then d.swapAtRun inst n else d).count ISL_RUNS
  let st0 := match hist with | some (.isl s) => s | _ => islSt0 0
  match d0.bankAt n with
  | none => (⟨List.replicate 584 fNaN, 0, false, .isl st0, [], []⟩, (d0.countN ISL_CONTRIB_MISSING (d0.islMissing h n)).count ISL_NOGRAPH)
  | some b =>
    let gr := d0.graph b
    let aged := islAge gap st0
    let moved := st0.bank ≠ b || !st0.started
    let st1 := if moved then keepHeld gr aged b else aged
    let ins := d0.islIn h n (n - 1 - gap) g
    let cfg := islCfg d0 ie p
    let r := isldetRun cfg gr ins st1 n moved release
    let unset := (graphLanes gr).any (fun l => match (ins l).included cfg with
      | some x => bit (recQR x) qUNSETTLED
      | none => false)
    (⟨r.vals, r.nexcl, unset, .isl r.st, r.summary, r.map⟩,
     (((d0.countN ISL_CONTRIB_MISSING (d0.islMissing h n)).islReport n release r).mapWrite n r.map))

/-! ISLSUM (R365). -/

/-- The words of a regional summary after the PARTIAL header. `keys` are the boundary BUS_KEYs. -/
def islSummaryWords (g : Graph) (keys : List Word) (o : IslOut) : List Word :=
  let bytes := keys.map (fun k => match g.buses.findIdx? (fun b => wd b 0 = k) with | some i => o.map.getD i 0xFF#8 | none => 0xFF#8)
  let pad := bytes ++ List.replicate ((4 - bytes.length % 4) % 4) 0xFF#8
  w32 (o.summary.length + keys.length * 65536) :: o.summary.flatten ++ leWords (pad.length + 1) pad
/-- The boundary keys of an ISLSUM block. -/
def islKeys (p : List Word) : List Word := (List.range (bx (wd p 0) 11 0)).map (fun i => wd p (4 + i))
/-- A regional island of a combine: span position, entry, and the boundary keys it holds. -/
structure RegIsl where
  pos : Nat
  id : Nat
  entry : List Word
  keys : List Nat
  deriving DecidableEq, Repr
def regIslands (pos : Nat) (ws : List Word) : List RegIsl :=
  let n := bx (wd ws 0) 6 0
  let nk := bx (wd ws 0) 27 16
  let bytes := leBytes (ws.drop (1 + 8 * n))
  (chunks 8 (n + 1) (slice ws 1 (8 * n))).map (fun e =>
    ⟨pos, bx (wd e 0) 7 0, e, (List.range nk).filter (fun k => (bytes.getD k 0xFF#8).toNat = bx (wd e 0) 7 0)⟩)
/-- The values of a combine over summaries in ascending span position. -/
def islsumVals (nom60 : Bool) (parts : List (Nat × List Word)) : List Word :=
  let rs := parts.flatMap (fun p => regIslands p.1 p.2)
  let n := rs.length
  let edges := (List.range n).flatMap (fun i => (List.range n).filterMap (fun j =>
    if j < i ∧ ((rs[i]?.map (·.keys)).getD []).any (fun k => ((rs[j]?.map (·.keys)).getD []).contains k) then some (i, j) else none))
  let lab := labels n edges
  let glob := groupBy ((List.range n).map (fun i => (i, lab.getD i 0)))
  let el (i k : Nat) : Word := match rs[i]? with | some r => wd r.entry k | none => fZero
  let tot (is : List Nat) (k : Nat) : Word := sum16 (is.map (fun i => (none, el i k)))
  let ranked := sortBy (fun (a b : List Nat) => if fLt (tot b 1) (tot a 1) then true else if fLt (tot a 1) (tot b 1) then false
    else decide (a.headD 0 ≤ b.headD 0)) glob
  let f0 := fOfNat (if nom60 then 60 else 50)
  let one (is : List Nat) : List Word :=
    let ek := tot is 1
    let rc := fDiv (tot is 4) (tot is 2)
    [fOfNat is.length, tot is 5, fDiv (tot is 3) (tot is 2), rc,
     if fIsZero ek || fIsNaN rc then fNaN else fDiv (fMul (fMul (fOfNat 2) ek) rc) f0, ek]
  let vals := (ranked.take 64).flatMap one
  fOfNat glob.length :: vals ++ (List.range (64 - min 64 glob.length)).flatMap (fun _ => [fZero, fZero, fNaN, fNaN, fNaN, fNaN])

end Sys2Proof.Machine
end

