-- ==== Sys2Proof/Machine/OsmMath.lean ====
section
/-!
DEFINITION. The computations of the oscillation monitor as functions of what they read (spec/05): the projection's refresh (R164, R165),
covariance and extraction (R166, R167), what a track derives from its matches (R169), the forced-oscillation spectrum (R175) and DEFLOC's
resonator and slope (R179). Matrices of the covariance and of its factors hold the P used rows of each block (log entry 38).
-/
namespace Sys2Proof.Machine

/-! Projection. -/

/-- Each column signed so that its largest-magnitude element is positive, the lowest index on a tie. -/
def signColumn (c : List Word) : List Word :=
  let big := c.foldl (fun a x => if fLt (fAbs a) (fAbs x) then x else a) fZero
  if fSign big then c.map fNeg else c
/-- orth (R164). -/
def orth (cols : List (List Word)) : List (List Word) := (mgs2 cols).map signColumn
def popcount (n : Nat) : Nat := ((List.range 32).filter (fun i => n.testBit i)).length
/-- W at a start: the orthonormalised sign matrix, by column. -/
def osmW0 (n p : Nat) : List (List Word) :=
  orth ((List.range p).map (fun j => (List.range n).map (fun i => if popcount (i &&& (j + 1)) % 2 = 0 then fOne else fNeg fOne)))
/-- `m := BETA * m + a / (10 * OSR)`, `a` the sum over the block's samples, ascending, of `x * (x^T * W)`. -/
def osmMerge (m xs w : List (List Word)) (beta : Word) (osr : Nat) : List (List Word) :=
  let ys := xs.map (fun x => w.map (fun c => dot c x))
  let scale := fOfNat (10 * osr)
  m.zipIdx.map (fun c => c.1.zipIdx.map (fun e =>
    fFma beta e.1 (fDiv (sum16 ((xs.zip ys).map (fun s => (some (wd s.1 e.2), wd s.2 c.2)))) scale)))
/-- R on each block of a vector. -/
def blockRot (r : List (List Word)) (v : List Word) : List Word := (chunks r.length 25 v).flatMap (rowsMul r)
/-- `T C T^T`, T the block-diagonal of copies of R. -/
def osmRotate (c r : List (List Word)) : List (List Word) := (rowsOf c.length (c.map (blockRot r))).map (blockRot r)

/-! Covariance. -/

/-- The Hankel vector of the sample `i` places back, from the component vectors newest first. Samples before the start are zero. -/
def hankel (p : Nat) (ys : List (List Word)) (i : Nat) : List Word :=
  let y (j : Nat) : List Word := ys.getD (i + j) (List.replicate p fZero)
  (List.range 12).flatMap (fun j => y (11 - j)) ++ (List.range 12).flatMap (fun j => y (12 + j))
/-- `lambda^8 * C` plus the sum of `lambda^(K-k) * h_k * h_k^T`, `k` ascending. -/
def osmCov (p tau : Nat) (ys c : List (List Word)) : List (List Word) :=
  let lam := fSub fOne (fDiv fOne (fOfNat tau))
  let pow (n : Nat) : Word := times n (fMul lam) fOne
  let hs := ((List.range 8).map (fun i => (pow (7 - i), hankel p ys (7 - i))))
  let l8 := pow 8
  c.zipIdx.map (fun row =>
    let ws := hs.map (fun h => (fMul h.1 (wd h.2 row.2), h.2))
    row.1.zipIdx.map (fun e => fFma l8 e.1 (sum16 (ws.map (fun h => (some h.1, wd h.2 e.2))))))

/-! Extraction. -/

/-- The Cholesky factor of a block plus delta on its diagonal, delta 10^-6 of the trace divided by 4,608. -/
def osmChol (rows : List (List Word)) : List (List Word) :=
  let tr := sum16 (rows.zipIdx.map (fun r => (none, wd r.1 r.2)))
  let del := fDiv (fMul (ofRat 1 1000000) tr) (fOfNat 4608)
  cholesky (rows.zipIdx.map (fun r => lset r.1 r.2 (fAdd (wd r.1 r.2) del)))
/-- L_f and L_p. -/
def osmFactor (c : List (List Word)) : List (List Word) × List (List Word) :=
  let n := c.length / 2
  (osmChol ((c.take n).map (List.take n)), osmChol ((c.drop n).map (List.drop n)))
/-- `H := L_f^-1 C_fp L_p^-T`, by row. -/
def osmH (c lf lp : List (List Word)) : List (List Word) :=
  let n := lf.length
  let x := rowsOf n ((rowsOf n ((c.take n).map (List.drop n))).map (solveLower lf))
  x.map (solveLower lp)
/-- Singular triplets of H, the largest first, from the start block. -/
def osmTriplets (h start : List (List Word)) : List (Word × List Word × List Word) :=
  let n := h.length
  let g := gklSteps 8 h (rowsOf n h) start ⟨[], [], [], []⟩
  (jacobiSvd 8 (gklBidiag start.length g)).map (fun t => (t.1, combine n g.us t.2.1, combine n g.vs t.2.2))
/-- The start block: the warm start, or the first 32 identity columns. -/
def osmStart (p n : Nat) (warm : List (List Word)) : List (List Word) :=
  if warm.isEmpty then (List.range 32).map (fun i => if i < p then vUnitAt n i else List.replicate n fZero) else warm
/-- The variance of each modal coordinate: its row of the inverse of the eigenvector matrix, squared, times the singular values. -/
def modalVar (vecs : List (List (Word × Word))) (sv : List Word) (i : Nat) : Word :=
  let rows := vecs.zipIdx.map (fun v => v.1 ++ [cReal (if v.2 = i then fOne else fZero)])
  sum16 (((cSolve vecs.length rows).zip sv).map (fun x => (some (cAbs2 x.1), x.2)))
/-- What an extraction finds: every eigenvalue with Im z > 0 as a mode, and the next warm start. -/
structure Extraction where
  modes : List Mode_
  warm : List (List Word)
  deriving DecidableEq, Repr
/-- An extraction (R167): C, L_f, L_p, the start block, P, ORDER and OSR. -/
def osmExtract (p order osr : Nat) (c lf lp start : List (List Word)) : Extraction :=
  let ts := osmTriplets (osmH c lf lp) start
  let lead := ts.take order
  let gam := lead.map (fun t => (lowerMul lf t.2.1).map (fMul (fSqrt t.1)))
  let co := rowsOf p gam
  let a := houseSolve order (gam.map (List.take (11 * p))) (gam.map (List.drop p))
  let es := eigen a
  let tr0 := sum16 ((List.range p).map (fun j => (none, wd (c.getD (11 * p + j) []) (11 * p + j))))
  let mode (e : ((Word × Word) × List (Word × Word)) × Nat) : Mode_ :=
    let z := e.1.1
    let s := (fMul (fOfNat osr) (fLn (cMag z)), fMul (fOfNat osr) (fAtan2 z.2 z.1))
    let shape := co.map (fun r => cDot r e.1.2)
    let v := modalVar (es.map (·.2)) (lead.map (·.1)) e.2
    ⟨fDiv s.2 fTwoPi, fDiv (fNeg s.1) (cMag s), fDiv (fMul (fMul (fOfNat 2) v) (sum16 (shape.map (fun x => (none, cAbs2 x))))) tr0, shape⟩
  ⟨(es.zipIdx.filter (fun e => fLt fZero e.1.1.2)).map mode, (ts.take start.length).map (fun t => t.2.2)⟩

/-! Tracks. -/

/-- A sample standard deviation. -/
def stdDev (l : List Word) : Word :=
  let n := l.length
  let m := fDiv (sum16 (l.map (fun x => (none, x)))) (fOfNat n)
  fSqrt (fDiv (sum16 (l.map (fun x => let d := fSub x m; (some d, d)))) (fOfNat (n - 1)))
/-- The least-squares slope of values against whole numbers, times `num / den`. -/
def lsSlope (num den : Nat) (l : List (Nat × Word)) : Word :=
  let n : Int := l.length
  let s : Int := ((l.map (·.1)).sum : Nat)
  let q : Int := (l.map (fun x => (n * x.1 - s) * x.1)).sum
  if q ≤ 0 then fZero else sum16 (l.map (fun x => (some (ofRat ((n * x.1 - s) * num) (q.toNat * den)), x.2)))

/-! Forced oscillations. -/

/-- The bins searched: from FO_FMIN to 5 Hz. -/
def foBins (osr len : Nat) (fmin : Word) : List Nat :=
  (List.range (5 * len / osr + 1)).filter (fun b => fLe fmin (ofRat ((b * osr : Nat) : Int) len))
/-- The bins stored: 8 further on either side. The first and how many. -/
def foRange (osr len : Nat) (fmin : Word) : Nat × Nat := let b := foBins osr len fmin; (b.headD 8 - 8, b.length + 16)
/-- A segment spectrum: the Hann-windowed transform of the samples, newest first, for each bin stored. -/
def foSpectrum (p osr len : Nat) (fmin : Word) (ys : List (List Word)) : List (List (Word × Word)) :=
  let l := ((List.range len).map (fun i => ys.getD (len - 1 - i) (List.replicate p fZero))).zipIdx.map (fun y => (wHann len y.2, y.1))
  let r := foRange osr len fmin
  (List.range r.2).map (fun k =>
    let cs := l.zipIdx.map (fun y => let z := cisTurn (((r.1 + k) * y.2 : Nat) : Int) len; (fMul y.1.1 z.1, fNeg (fMul y.1.1 z.2)))
    (List.range p).map (fun i =>
      let xs := l.map (fun y => wd y.2 i)
      (sum16 ((cs.zip xs).map (fun x => (some x.1.1, x.2))), sum16 ((cs.zip xs).map (fun x => (some x.1.2, x.2))))))
/-- The Gram matrix of the segments' vectors at a bin, by column. -/
def foGram (vs : List (List (Word × Word))) : List (List (Word × Word)) := vs.map (fun t => vs.map (fun s => cDotC (s.map cConj) t))
/-- A bin of an evaluation: its number, COH, the decibels of its trace above the median around it, whether the trace is a local maximum, FREQ,
AMP and the dominant singular vector. -/
structure FoBin where
  bin : Nat
  coh : Word
  peak : Word
  top : Bool
  freq : Word
  amp : Word
  vec : List (Word × Word)
  deriving DecidableEq, Repr
/-- Steps 2 to 4 of R175 for each bin searched. -/
def foScan (osr len avg : Nat) (fmin : Word) (segs : List (List (List (Word × Word)))) : List FoBin :=
  let r := foRange osr len fmin
  let at_ (b : Nat) : List (List (Word × Word)) := segs.map (fun s => s.getD (b - r.1) [])
  let gram (b : Nat) : List (List (Word × Word)) := foGram (at_ b)
  let trace (b : Nat) : Word := sum16 ((gram b).zipIdx.map (fun c => (none, (c.1.getD c.2 (fZero, fZero)).1)))
  (foBins osr len fmin).map (fun b =>
    let t := trace b
    let e := hermTop 6 (gram b)
    let l := trace (b - 1)
    let u := trace (b + 1)
    let around := (List.range 6).flatMap (fun i => [trace (b - 3 - i), trace (b + 3 + i)])
    let off := parabola (fLn l) (fLn t) (fLn u)
    ⟨b, fDiv e.1 t, fMul (fOfNat 10) (fLog10 (fDiv t (median around))), fLt l t && fLt u t, fMul (fAdd (fOfNat b) off) (ofRat osr len),
     fMul (fSqrt (fDiv t (fOfNat avg))) (fDiv (fMul (fOfNat 2) fSqrt2) (fOfNat len)),
     (List.range ((at_ b).headD []).length).map (fun i => cDotC ((at_ b).map (fun s => s.getD i (fZero, fZero))) e.2)⟩)

/-! Source location. -/

/-- The resonator's b0, a1 and a2: bilinear transform, prewarped, centre `f` and -3 dB bandwidth `bw`. -/
def defCoef (f bw : Word) (osr : Nat) : Word × Word × Word :=
  let x := fDiv (fMul fPi bw) (fOfNat osr)
  let k := fDiv (fSin x) (fCos x)
  let d := fAdd fOne k
  (fDiv k d, fDiv (fMul (fOfNat 2) (fCos (fDiv (fMul fTwoPi f) (fOfNat osr)))) d, fDiv (fSub fOne k) d)
/-- One sample through the resonator, from its two delayed values: the output and the next two. -/
def defFilter (c : Word × Word × Word) (st : List Word) (x : Word) : Word × List Word :=
  let y := fFma c.1 x (wd st 0)
  (y, [fFma c.2.1 y (wd st 1), fNeg (fFma c.1 x (fMul c.2.2 y))])
/-- The least-squares slope of w, newest first, times OSR. -/
def defRate (osr : Nat) (w : List Word) : Word := lsSlope osr 1 (w.reverse.zipIdx.map (fun x => (x.2, x.1)))

end Sys2Proof.Machine
end

