-- ==== Sys2Proof/Machine/Osm.lean ====
section
/-!
DEFINITION. The oscillation monitor (spec/05): start and stop (R160 to R163), projection (R164, R165), covariance and extraction (R166,
R167), tracks (R168, R169), outputs (R171 to R173), forced oscillations (R175 to R177) and source location (R178 to R180).
-/
namespace Sys2Proof.Machine

/-! States (Table 5.13). -/

def osmStCode (s : OsmState) : Nat := match s with | .stopped => 0 | .priming => 1 | .running => 2 | .stopping => 3
def Device.osmState (d : Device) (s : OsmState) : Device := (d.setOsm { d.osm with st := s }).setf OSM_STAT.STATE (osmStCode s)
def Device.osmErr (d : Device) (c : Nat) : Device := d.err OSM_STAT.ERR OSM_STAT.ECODE c
/-- The monitor absorbs samples. -/
def Device.osmOn (d : Device) : Bool := decide (d.osm.st = .priming ∨ d.osm.st = .running)
/-- Samples that wait for OSCMON, and their level (R163). -/
def Device.osmWaiting (d : Device) : List Nat := ((d.osm.inbuf.filter (fun s => decide (d.osm.next ≤ s.k))).map (·.k)).eraseDups
def Device.osmLevel (d : Device) : Device :=
  (d.setf OSM_INBUF.LEVEL d.osmWaiting.length).hwm OSM_INBUF.HWM d.osmWaiting.length
def osmKernel (k : Nat) : Bool := [kOSCMON, kFODET, kDEFLOC].contains k
/-- MONITOR entries (Table 16.3): AUX 0 for a start, 1 for a stop (DESIGN CHOICE, log entry 39). -/
def Device.osmJournal (d : Device) (aux k reason : Nat) : Device := d.journalW 0x17 aux d.now (two k ++ [w32 (k / 2 ^ 64), w32 reason])

/-! The OSM region (Table 5.6). The spec gives the places of its parts; rows of 384 words for W and M, of 9,216 for C and of 4,608 for its
factors, blocks of 384, and the order within a sample and a segment are the model's (DESIGN CHOICE, log entry 38). -/

def Device.osmBase (d : Device) : Nat := d.f OSM_DDR.BASE * 1073741824
/-- The region's size, and what it holds. -/
def osmBytes : Nat := 0x22600000
def Device.osmCells (d : Device) : List Host.Cell := d.ddr.filter (fun c => decide (d.osmBase ≤ c.1 ∧ c.1 < d.osmBase + osmBytes))
/-- Write words at an offset of the region. -/
def Device.osmPut (d : Device) (o : Nat) (ws : List Word) : Device := d.ddrWrite (d.osmBase + o) (leBytes ws)
/-- Write a matrix whose rows and columns come in blocks of P, `width` words to a row. -/
def Device.putBlocks (d : Device) (o width p : Nat) (m : List (List Word)) : Device :=
  m.zipIdx.foldl (fun x r => (chunks p 25 r.1).zipIdx.foldl (fun y b =>
    y.osmPut (o + 4 * ((r.2 / p * 384 + r.2 % p) * width + b.2 * 384)) b.1) x) d
def Device.putCov (d : Device) : Device := d.putBlocks 0 9216 (monPc d.monP) d.osm.cov
def Device.putFactors (d : Device) : Device :=
  let p := monPc d.monP
  (d.putBlocks 0x14400000 4608 p d.osm.lf).putBlocks 0x19500000 4608 p d.osm.lp
/-- W and M, by row of signals. -/
def Device.putW (d : Device) : Device :=
  let put (o : Nat) (m : List (List Word)) (x : Device) : Device := (rowsOf (monN d.monP) m).zipIdx.foldl (fun y r => y.osmPut (o + 1536 * r.2) r.1) x
  put 0x1F200000 d.osm.m (put 0x1E600000 d.osm.w d)
/-- A sample stands in the input buffer: its signals by monitor index, its branches' P, Q, F and L by branch index. -/
def Device.putSample (d : Device) (s : OscSample) : Device :=
  let p := d.param (d.instE s.inst)
  let o := 0x1FE00000 + s.k % 256 * 98304
  (d.osmPut (o + 4 * odMon p) s.sigs).osmPut (o + 32768 + 16 * odDef p) s.brs
/-- FODET's segment spectra, each in the place of its evaluation. -/
def Device.putSegs (d : Device) (half k : Nat) : Device :=
  let e := (k + 1) / half
  d.osm.foSeg.zipIdx.foldl (fun x s => s.1.zipIdx.foldl (fun y b =>
    y.osmPut (0x21600000 + (e + 16 - s.2) % 16 * 1048576 + 3072 * b.2) (b.1.flatMap (fun z => [z.1, z.2]))) x) d

/-! Stop (R161 to R163). -/

/-- Tasks of the monitor's instances that no engine holds are gone. -/
def Device.osmDrop (d : Device) : Device :=
  let mine (e : Entry) : Bool := osmKernel (ieCode (d.instE e.inst))
  let waits (x : HeldProd) : Bool := match x with | .sample _ _ => true | _ => false
  let d1 := d.setSrt { d.srt with store := d.srt.store.filter (fun e => !mine e), held := d.srt.held.filter (fun x => !waits x) }
  let d2 := (List.range 8).foldl (fun x l => queueFill 512 l (x.setQueue l ((x.queue l).filter (fun t => !mine t.e)))) d1
  (d2.storeShow 1).reoffer
/-- The last sample has been absorbed: the stop is journaled and shown. -/
def Device.osmStopped (d : Device) : Device :=
  let last := d.osm.next - 1
  let d1 := ((d.osmJournal 1 last d.osm.reason).osmState .stopped).setf OSM_STAT.REASON d.osm.reason
  let live (s : OscSample) : Bool := d1.srt.flight.any (fun t => decide (ieCode (d1.instE t.e.inst) = kDEFLOC ∧ t.e.lap / d1.osmD t.e.inst = s.k))
  (((d1.osmDrop.setOsm { d1.osmDrop.osm with inbuf := d1.osm.inbuf.filter live }).setf OSM_INBUF.LEVEL 0)).raise
    EV_OSM_STOP [d.osm.reason, last]
/-- Stop after the sample in progress. -/
def Device.osmStop (d : Device) (reason : Nat) : Device :=
  if !d.osmOn then d.setOsm { d.osm with runAt := none }
  else
    let d1 := (d.setOsm { d.osm with reason := reason }).osmState .stopping
    if d1.srt.flight.any (fun t => decide (ieCode (d1.instE t.e.inst) = kOSCMON)) then d1 else d1.osmStopped
/-- Bursts that are lost have been read: one of the OSM region stops the monitor (R163, R459). -/
def Device.osmHit (d : Device) (bs : List Nat) : Device := if d.osmOn && bs.any d.inOsmRegion then d.osmStop 3 else d
/-- Every contributor has ended (R162). -/
def Device.osmAllEnded (d : Device) : Bool :=
  d.oscs.all (fun o => (mget d.osm.ended o.1).isSome || (match d.run? (ieHeat o.2.1) with | some r => !r.enabled | none => true))
/-- The last lap of a heat that is released: a skipped one never is (R32, R88). -/
def Device.lastRun (d : Device) (h : Nat) (r : HeatRun) : Nat :=
  let runs (n : Nat) : Bool := !r.skipped.contains n && (match d.lap? h n with | some l => decide (l.st ≠ .waiting) | none => true)
  (((List.range (min (r.nextLap - r.firstLap) (r.skipped.length + (d.lapsOf h).length + 1))).map (fun i => r.nextLap - 1 - i)).find? runs).getD (r.firstLap - 1)
/-- A heat is disabled: its OSCDEC instances end with the sample of its last lap; the reference heat or the last contributor stops the
monitor (R162), but in FOLLOW and RERUN, where the journaled stop does (R163, log entry 90). -/
def Device.osmHeatEnd (d : Device) (h : Nat) : Device :=
  if !d.osmOn then d
  else match d.run? h with
    | none => d
    | some r =>
      let mine := d.oscs.filter (fun o => decide (ieHeat o.2.1 = h) && (mget d.osm.ended o.1).isNone)
      let last (o : Nat × List Word × List Word) : Nat := d.lastRun h r / max 1 (d.rate h / odOsr o.2.2) - 8
      let d1 := d.setOsm { d.osm with ended := mine.foldl (fun m o => mset m o.1 (last o)) d.osm.ended }
      if !d1.racing then d1.storeCheck
      else if ieHeat (d1.instE (d1.f OSM_CTL.INST)) = h then d1.osmStop 2
      else if d1.osmAllEnded then d1.osmStop 4
      else d1.storeCheck

/-! Start (R160, R161). -/

/-- How many OSCDEC instances cover an index. -/
def coverN (base len : List Word → Nat) (l : List (List Word)) (i : Nat) : Nat :=
  (l.filter (fun p => decide (base p ≤ i ∧ i < base p + len p))).length
/-- ECODE of a refused start; 0 where it is accepted. -/
def Device.osmCheck (d : Device) (inst : Nat) : Nat :=
  let e := d.instE inst
  let p := d.param e
  let ps := d.oscs.map (·.2.2)
  let brs := ((d.instsOf kDEFLOC).map (fun x => let q := d.param x.2; dlBase q + dlNbr q)).foldl max 0
  if !ieEn e || ieCode e ≠ kOSCMON then 1
  else if (List.range (monN p)).any (fun i => coverN odMon odNsig ps i ≠ 1) || (List.range brs).any (fun i => coverN odDef odNbr ps i ≠ 1) then 2
  else if ps.any (fun q => odOsr q ≠ monOsr p) then 3
  else if !d.fb OSM_DDR.VALID then 4
  else 0
/-- OSM_RUN_START: RUN := 1 with the instance in OSM_CTL. -/
def osmRunStart (d : Device) : Device :=
  if !d.alive || decide (d.osm.st ≠ .stopped) || d.osm.runAt.isSome then d
  else
    let c := d.osmCheck (d.f OSM_CTL.INST)
    if c ≠ 0 then d.osmErr c
    else (d.setf OSM_CTL.RUN 1).setOsm { d.osm with runAt := some d.now, inbuf := [] }
/-- OSM_RUN_STOP: RUN := 0. -/
def osmRunStop (d : Device) : Device := if d.alive then (d.setf OSM_CTL.RUN 0).osmStop 0 else d
/-- A write to OSM_CTL: INST, then RUN. One that changes INST while the monitor is not stopped is ignored. -/
def osmCtlWrite (v : Word) (d : Device) : Device :=
  let i := bx v 11 0
  if i ≠ d.f OSM_CTL.INST ∧ d.osm.st ≠ .stopped then d.osmErr 5
  else if bit v 31 then osmRunStart (d.setf OSM_CTL.INST i)
  else osmRunStop (d.setf OSM_CTL.INST i)
/-- A write to OSM_DDR. -/
def osmDdrWrite (v : Word) (d : Device) : Device :=
  if d.osm.st ≠ .stopped then d.osmErr 5 else (d.setf OSM_DDR.VALID (bx v 31 31)).setf OSM_DDR.BASE (bx v 6 0)

/-- The first qualifying sample in the buffer after the RUN write: its number is a multiple of 8 and its centre lies at least 2/OSR later. -/
def osmQualifies (osr : Nat) (t : Time) (k : Nat) : Bool := decide (k % 8 = 0 ∧ t * osr + 2 * Time.secU ≤ k * Time.secU)
def Device.osmFirst (d : Device) : Option Nat :=
  match d.osm.runAt with
  | none => none
  | some t =>
    match (d.osm.inbuf.map (·.k)).filter (osmQualifies (monOsr d.monP) t) with
    | [] => none
    | k :: r => some (r.foldl min k)
def trackNew : Track := ⟨0, ⟨fNaN, fNaN, fNaN, []⟩, 0, 0, []⟩
/-- A start clears the covariance, the projection, the tracks and the detections, and the rest of the region with them; the samples that wait
stand in the input buffer (R163, Table 5.6). -/
def Device.osmClear (d : Device) (k : Nat) : Device :=
  let p := d.monP
  let n := 24 * monPc p
  let d1 := ((d.ddrClear d.osmBase osmBytes).setOsm { d.osm with
    st := .priming, runAt := none, startK := k, next := k, primedK := none, ended := [], stopAt := none, sigDrop := 0, brDrop := 0,
    inbuf := d.osm.inbuf.filter (fun s => decide (k ≤ s.k)), w := osmW0 (monN p) (monPc p),
    m := List.replicate (monPc p) (List.replicate (monN p) fZero), blockX := [], refreshes := 0, ys := [],
    cov := List.replicate n (List.replicate n fZero), lf := [], lp := [],
    warm := [], tracks := List.replicate 64 trackNew, extracts := [], foY := [], foSeg := [], foPrev := [], foPend := [],
    foSlots := List.replicate 16 none, foEvals := [], defs := [], shapeSeq := 0 }).putW
  d1.osm.inbuf.foldl (fun x s => x.putSample s) d1

/-! Samples on their way to tasks (R137, Table 7.1). -/

/-- A sample that has arrived serves the OSCMON task and the DEFLOC tasks that use it. A DEFLOC task takes with it the outputs that have been
committed already. -/
def Device.osmOperand (d : Device) (s : OscSample) : Device :=
  let mon := d.f OSM_CTL.INST
  let o := KData.output s.inst s.k
  let add (l : List KData) (e : Entry) : Entry := { e with data := e.data ++ l.filter (fun x => !e.data.contains x) }
  let d1 := d.operand mon (s.k * d.osmD mon) 0 1 (add [o])
  (d1.instsOf kDEFLOC).foldl (fun x e =>
    if (x.oscsFor (x.param e.2)).any (fun c => decide (c.1 = s.inst)) then
      let lap := s.k * x.osmD e.1
      let outs := (x.needOutputs s.k).filter x.hasOutput
      let new := match x.entry? e.1 lap 0 with | some n => outs.filter (fun y => !n.data.contains y) | none => outs
      (x.countN SRT_TOKENS_IN new.length).operand e.1 lap 0 1 (add (o :: new))
    else x) d1
/-- An output of OSCMON or FODET reaches the DEFLOC tasks that wait for it. -/
def Device.outOperand (d : Device) (o : KData) : Device :=
  (d.instsOf kDEFLOC).foldl (fun x e =>
    (x.srt.store.filter (fun n => decide (n.inst = e.1) && n.data.any (fun y => match y with | .output i _ => i ≠ x.f OSM_CTL.INST | _ => false) &&
        !n.data.contains o && (x.needOutputs (n.lap / x.osmD e.1)).contains o)).foldl
      (fun z n => z.operand e.1 n.lap 0 1 (fun y => { y with data := y.data ++ [o] })) x) d
/-- The state of sample `k` serves the task of the next one. -/
def Device.osmState_ (d : Device) (inst k : Nat) : Device :=
  if d.osmOn then d.operand inst ((k + 1) * d.osmD inst) 0 1 (fun e => { e with hist := some (.mark k) }) else d
/-- A sample of the buffer meets its tasks, or waits where it would need an entry that the store has not (R215). -/
def Device.osmOffer (d : Device) (s : OscSample) : Device :=
  let d1 := d.osmOperand s
  if d1.storeUsed ≤ 4096 ∨ d1.storeUsed ≤ d.storeUsed then d1
  else (d.setSrt { d.srt with held := d.srt.held ++ [.sample s.inst s.k] }).count SRT_STRIDE_HELD
/-- A sample that waits is tried again. -/
def Device.resumeSample (d : Device) (i k : Nat) : Device :=
  let d1 := d.setSrt { d.srt with held := d.srt.held.filter (fun x => decide (x ≠ HeldProd.sample i k)) }
  match d.piece? i k with
  | none => d1
  | some s =>
    let d2 := d1.osmOperand s
    if d2.storeUsed ≤ 4096 ∨ d2.storeUsed ≤ d1.storeUsed then d2 else d
/-- The monitor starts with sample `k`. -/
def Device.osmStartAt (d : Device) (k : Nat) : Device :=
  let d1 := (((d.osmClear k).osmState .priming).setf OSM_SHAPE.SEQ 0).setf OSM_SHAPE.BUF 0
  let d2 := ((d1.osmJournal 0 k 0).raise EV_OSM_START [k]).osmLevel
  d2.osm.inbuf.foldl (fun x s => x.osmOffer s) d2
/-- OSM_START_SAMPLE. -/
def osmStartSample (d : Device) : Device :=
  match d.osmFirst with
  | none => d
  | some k => if d.lapsRun then d.osmStartAt k else d
/-- A decimated sample arrives (R158, R163). One that follows the end of its contributor counts as dropped (R162). In FOLLOW and RERUN a full buffer
stops nothing: the journaled stop does (R163, log entry 90). -/
def Device.osmSample (d : Device) (s : OscSample) : Device :=
  let full := decide (d.osmWaiting.length ≥ 256) && !d.osmWaiting.contains s.k
  let late := match mget d.osm.ended s.inst with | some last => decide (last < s.k) | none => false
  match d.osm.runAt with
  | some t =>
    let osr := monOsr d.monP
    if full || decide (s.k * Time.secU < t * osr + 2 * Time.secU) || decide (d.osm.st ≠ .stopped) then d
    else ((d.setOsm { d.osm with inbuf := d.osm.inbuf ++ [s], next := 0 }).putSample s).osmLevel
  | none =>
    if d.osm.st = .stopped && !d.racing then d.setOsm { d.osm with inbuf := (d.osm.inbuf ++ [s]).drop (d.osm.inbuf.length - 511) }
    else if !d.osmOn || decide (s.k < d.osm.next) || late then d
    else if full && d.racing then d.osmStop 1
    else ((d.setOsm { d.osm with inbuf := d.osm.inbuf ++ [s] }).putSample s).osmLevel.osmOperand s

/-! The OSCMON run. -/

/-- The sample of every instance, where one is there: x and the dropped signals and branches. -/
structure OsmIn where
  x : List Word
  sigs : Nat
  brs : Nat
  unset : Bool
  arr : Time
  deriving DecidableEq, Repr
/-- From the OSCDEC instances of a list. -/
def Device.osmGather (d : Device) (os : List (Nat × List Word × List Word)) (k : Nat) : OsmIn :=
  let get (o : Nat × List Word × List Word) : Option OscSample := d.piece? o.1 k
  let at_ (i : Nat) : Word := match os.find? (fun o => decide (odMon o.2.2 ≤ i ∧ i < odMon o.2.2 + odNsig o.2.2)) with
    | some o => (match get o with | some s => wd s.sigs (i - odMon o.2.2) | none => fZero)
    | none => fZero
  ⟨(List.range (monN d.monP)).map at_,
   (os.map (fun o => match get o with | some s => (s.sigDrop.filter id).length | none => odNsig o.2.2)).sum,
   (os.map (fun o => match get o with | some s => (s.brDrop.filter id).length | none => odNbr o.2.2)).sum,
   os.any (fun o => match get o with | some s => s.unsettled | none => false),
   (os.map (fun o => match get o with | some s => s.arr | none => 0)).foldl max 0⟩

/-- MAC of two shapes (R168). -/
def mac (a b : List (Word × Word)) : Word :=
  let nrm (v : List (Word × Word)) : Word := sum16 (v.map (fun z => (none, fFma z.1 z.1 (fMul z.2 z.2))))
  let re := sum16 ((a.zip b).map (fun z => (none, fFma z.1.1 z.2.1 (fMul z.1.2 z.2.2))))
  let im := sum16 ((a.zip b).map (fun z => (none, fFma z.1.1 z.2.2 (fNeg (fMul z.1.2 z.2.1)))))
  fDiv (fFma re re (fMul im im)) (fMul (nrm a) (nrm b))

/-- OSCMON's tracking settings. -/
structure TrackCfg where
  fTol : Word
  zTol : Word
  macMin : Word
  missMax : Nat
  deriving DecidableEq, Repr
def trackCfg (p : List Word) : TrackCfg := ⟨wd p 4, wd p 5, wd p 6, bx (wd p 7) 7 0⟩
def trackDist (c : TrackCfg) (m t : Mode_) : Word :=
  fAdd (fDiv (fAbs (fSub m.freq t.freq)) c.fTol) (fDiv (fAbs (fSub m.damp t.damp)) c.zTol)
def fTwo : Word := 0x40000000#32
/-- Pairs (distance, track, candidate) that may match. -/
def trackPairs (c : TrackCfg) (ts : List Track) (cs : List Mode_) : List (Word × Nat × Nat) :=
  ts.zipIdx.flatMap (fun t => cs.zipIdx.filterMap (fun m =>
    let x := trackDist c m.1 t.1.mode
    if t.1.status > 0 && fLe x fTwo && fLe c.macMin (mac m.1.shape t.1.mode.shape) then some (x, t.2, m.2) else none))
/-- The pair of least distance; on a tie the lower track, then the candidate of higher energy. -/
def pairLess (cs : List Mode_) (a b : Word × Nat × Nat) : Bool :=
  if fLt a.1 b.1 then true
  else if fLt b.1 a.1 then false
  else if a.2.1 ≠ b.2.1 then decide (a.2.1 < b.2.1)
  else
    let e (i : Nat) : Word := (cs.getD i ⟨fZero, fZero, fZero, []⟩).energy
    fLt (e b.2.2) (e a.2.2)
/-- Matches as (track, candidate). -/
def trackMatch (fuel : Nat) (cs : List Mode_) (ps : List (Word × Nat × Nat)) : List (Nat × Nat) :=
  match fuel, ps with
  | 0, _ => []
  | _, [] => []
  | n + 1, p :: r =>
    let b := r.foldl (fun a x => if pairLess cs x a then x else a) p
    (b.2.1, b.2.2) :: trackMatch n cs (ps.filter (fun x => decide (x.2.1 ≠ b.2.1 ∧ x.2.2 ≠ b.2.2)))
/-- A track after an extraction at sample `k`. -/
def trackStep (c : TrackCfg) (k : Nat) (t : Track) (m : Option Mode_) : Track :=
  if t.status = 0 then t
  else match m with
    | some x =>
      { t with mode := x, miss := 0, run := t.run + 1, status := if t.status = 1 ∧ t.run + 1 ≥ 3 then 2 else t.status,
               hist := (some (k, x.freq, x.damp) :: t.hist).take 8 }
    | none =>
      { t with run := 0, miss := t.miss + 1, status := if t.miss + 1 ≥ c.missMax then 0 else t.status, hist := (none :: t.hist).take 8 }
/-- Candidates left over take the lowest free tracks, in descending energy; the number that find none. -/
def trackPlace (ts : List Track) : List Mode_ → List Track × Nat
  | [] => (ts, 0)
  | m :: r => match ts.findIdx? (fun t => t.status = 0) with
    | some i => trackPlace (lset ts i ⟨1, m, 0, 0, []⟩) r
    | none => (ts, (m :: r).length)
/-- The candidates of an extraction (R167, R168): from 0.01 to 5.0 Hz, the 64 of highest energy, in descending energy. -/
def osmCands (l : List Mode_) : List Mode_ :=
  (sortBy (fun a b => !fLt a.energy b.energy) (l.filter (fun c => fLe (ofRat 1 100) c.freq && fLe c.freq (ofRat 5 1)))).take 64
/-- The track table after an extraction, and the candidates refused. -/
def trackAll (c : TrackCfg) (k : Nat) (ts : List Track) (cs : List Mode_) : List Track × Nat :=
  let ms := trackMatch 64 cs (trackPairs c ts cs)
  let ts1 := ts.zipIdx.map (fun t => trackStep c k t.1 ((ms.find? (fun x => x.1 = t.2)).bind (fun x => cs[x.2]?)))
  trackPlace ts1 ((cs.zipIdx.filter (fun x => !ms.any (fun y => y.2 = x.2))).map (·.1))

/-- CONF of a track (R169). -/
def trackConf (c : TrackCfg) (t : Track) : Word :=
  let ms := t.hist.filterMap id
  let part (l : List Word) (tol : Word) : Word := fMax fZero (fSub fOne (fDiv (stdDev l) tol))
  if ms.length < 2 then fZero
  else fMul (fMul (fDiv (fOfNat ms.length) (fOfNat 8)) (part (ms.map (·.2.1)) c.fTol)) (part (ms.map (·.2.2)) c.zTol)
/-- A mode's shape in signal space, before scaling. -/
def signalShape (rows : List (List Word)) (m : List (Word × Word)) : List (Word × Word) := rows.map (fun r => cDot r m)
/-- The element of largest magnitude, the lowest index on a tie. -/
def domIndex (z : List (Word × Word)) : Nat :=
  (z.zipIdx.foldl (fun (a : Word × Nat) x => if fLt a.1 (cMag x.1) then (cMag x.1, x.2) else a) (fNeg fOne, 0)).2
/-- The values of one track (Table 5.5). -/
def trackVals (c : TrackCfg) (osr : Nat) (rows : List (List Word)) (t : Track) : List Word :=
  if t.status = 0 then fZero :: List.replicate 7 fNaN
  else [fOfNat t.status, t.mode.freq, t.mode.damp, t.mode.energy, trackConf c t, fOfNat (domIndex (signalShape rows t.mode.shape)), fOfNat t.miss,
        lsSlope (60 * osr) 1 ((t.hist.filterMap id).map (fun h => (h.1, h.2.2)))]
/-- The values of one band (R172). -/
def bandVals (c : TrackCfg) (ts : List Track) (fmin fmax cmin : Word) : List Word :=
  let ok (t : Track) : Bool := t.status = 2 && fLe fmin t.mode.freq && fLt t.mode.freq fmax && fLe cmin (trackConf c t)
  let best := if fIsZero fmin && fIsZero fmax then none
    else ts.zipIdx.foldl (fun (a : Option (Track × Nat)) x => if !ok x.1 then a
      else match a with
        | some y => if fLt x.1.mode.damp y.1.mode.damp then some x else a
        | none => some x) none
  match best with
  | some (t, i) => [t.mode.freq, t.mode.damp, t.mode.energy, trackConf c t, fOfNat i]
  | none => List.replicate 4 fNaN ++ [fNeg fOne]
def osmVals (p : List Word) (rows : List (List Word)) (ts : List Track) : List Word :=
  let c := trackCfg p
  (List.range 16).flatMap (fun b => bandVals c ts (wd p (12 + 4 * b)) (wd p (13 + 4 * b)) (wd p (14 + 4 * b))) ++
    ts.flatMap (trackVals c (monOsr p) rows)
/-- In PRIMING: every value NaN, STATUS 0 (R161). -/
def osmPrimVals : List Word := List.replicate 80 fNaN ++ (List.range 64).flatMap (fun _ => fZero :: List.replicate 7 fNaN)

/-- The shape buffer's bytes of one track (R173): the largest element is 1 + j0. -/
def shapeWords (n : Nat) (rows : List (List Word)) (t : Track) : List Word :=
  if t.status = 0 then List.replicate (2 * n) fNaN
  else
    let z := signalShape rows t.mode.shape
    let i := domIndex z
    let s := z.getD i (fOne, fZero)
    z.zipIdx.flatMap (fun x => let y := if x.2 = i then (fOne, fZero) else cDiv x.1 s; [y.1, y.2])
def Device.osmShapes (d : Device) (rows : List (List Word)) : Device :=
  let buf := d.osm.shapeSeq % 2
  let seq := (d.osm.shapeSeq + 1) % 2147483648
  let d1 := d.osm.tracks.zipIdx.foldl (fun x t => x.osmPut (0x22600000 + buf * 4194304 + t.2 * 65536) (shapeWords (monN d.monP) rows t.1)) d
  ((d1.setOsm { d1.osm with shapeSeq := seq }).setf OSM_SHAPE.BUF buf).setf OSM_SHAPE.SEQ seq

/-- Counters and events of the track table's changes (R168). -/
def Device.trackReport (d : Device) (old new : List Track) : Device :=
  (old.zip new).zipIdx.foldl (fun x e =>
    let a := e.1.1
    let b := e.1.2
    let say (y : Device) (t : Nat) : Device := y.raise EV_OSM_TRACK [e.2, a.mode.freq.toNat, a.mode.damp.toNat, t]
    if a.status = 1 ∧ b.status = 2 then ((x.count OSM_TRACK_EST).raise EV_OSM_TRACK [e.2, b.mode.freq.toNat, b.mode.damp.toNat, 0])
    else if a.status > 0 ∧ b.status = 0 then (if a.status = 2 then say (x.count OSM_TRACK_RETIRED) 1 else x.count OSM_TRACK_RETIRED)
    else if a.status = 0 ∧ b.status = 1 then x.count OSM_TRACK_NEW
    else x) d
/-- An extraction (R167 to R173) at sample `k`, after its covariance update. Answers the block's values. -/
def Device.osmExtraction (d : Device) (k : Nat) : List Word × Device :=
  let p := d.monP
  let rows := rowsOf (monN p) d.osm.w
  let pc := monPc p
  -- there are no factors before the first refresh
  let ex := if d.osm.lf.isEmpty then ⟨[], d.osm.warm⟩
    else osmExtract pc (monOrder p) (monOsr p) d.osm.cov d.osm.lf d.osm.lp (osmStart pc d.osm.lf.length d.osm.warm)
  let d1 := (d.setOsm { d.osm with warm := ex.warm }).count OSM_EXTRACTIONS
  let d2 := if d.osm.primedK.isNone then d1
    else
      -- a track retired and taken again in one extraction is reported as both
      let cs := osmCands ex.modes
      let c := trackCfg p
      let ms := trackMatch 64 cs (trackPairs c d1.osm.tracks cs)
      let mid := d1.osm.tracks.zipIdx.map (fun t => trackStep c k t.1 ((ms.find? (fun x => x.1 = t.2)).bind (fun x => cs[x.2]?)))
      let r := trackAll c k d1.osm.tracks cs
      (((d1.trackReport d1.osm.tracks mid).trackReport mid r.1).countN OSM_TRACK_FULL r.2).setOsm { d1.osm with tracks := r.1 }
  let d3 := (d2.setOsm { d2.osm with extracts := (k, d2.osm.tracks) :: d2.osm.extracts }).osmShapes rows
  (if d.osm.primedK.isNone then osmPrimVals else osmVals p rows d3.osm.tracks, d3)

/-! FODET (R175 to R177). -/

def foCoh (q : List Word) : Word := wd q 2
def foPeak (q : List Word) : Word := wd q 3
def foMin (q : List Word) : Word := wd q 4
def nearBy (bins : List Nat) (b : Nat) : Bool := bins.any (fun x => decide (x ≤ b + 1 ∧ b ≤ x + 1))
/-- The established track closest to a detection, within 2 bins. -/
def nearTrack (ts : List Track) (osr len : Nat) (f : Word) : Option Nat :=
  let lim := ofRat (2 * osr) len
  (ts.zipIdx.foldl (fun (a : Option (Word × Nat)) x =>
    let y := fAbs (fSub x.1.mode.freq f)
    if x.1.status = 2 && fLe y lim then
      match a with
      | some z => if fLt y z.1 then some (y, x.2) else a
      | none => some (y, x.2)
    else a) none).map (·.2)
/-- An evaluation at sample `k`: the segment spectrum is stored, and detections wait for FODET's commit. -/
def Device.foEvaluate (d : Device) (q : List Word) (k : Nat) : Device :=
  let osr := monOsr d.monP
  let len := foLen q
  let seg := foSpectrum (monPc d.monP) osr len (foMin q) d.osm.foY
  let segs := (seg :: d.osm.foSeg).take (foAvg q)
  let rows := rowsOf (monN d.monP) d.osm.w
  let cands := (foScan osr len (foAvg q) (foMin q) segs).filter (fun s => fLe (foCoh q) s.coh && fLe (foPeak q) s.peak && s.top)
  let dets := (cands.filter (fun s => nearBy d.osm.foPrev s.bin)).map (fun s => (⟨s.bin, s.freq, s.amp, s.coh, s.peak,
    domIndex (signalShape rows s.vec), nearTrack d.osm.tracks osr len s.freq⟩ : FoDet))
  let i := d.osmGather d.oscs k
  (d.setOsm { d.osm with foSeg := segs, foPrev := cands.map (·.bin),
                         foPend := d.osm.foPend ++ [⟨k, d.osm.primedK.isNone, dets, i.sigs + i.brs, i.unset⟩] }).putSegs (len / 2) k

/-- Slots after the detections of an evaluation that keep one; the detections that are new. -/
def foKeep (slots : List (Option FoDet)) (dets : List FoDet) : List (Option FoDet) × List FoDet :=
  slots.foldl (fun (a : List (Option FoDet) × List FoDet) s => match s with
    | none => (a.1 ++ [none], a.2)
    | some x => match a.2.find? (fun y => nearBy [x.bin] y.bin) with
      | some y => (a.1 ++ [some y], a.2.erase y)
      | none => (a.1 ++ [none], a.2)) ([], dets)
def foTake (slots : List (Option FoDet)) : List FoDet → List (Option FoDet)
  | [] => slots
  | x :: r => match slots.findIdx? (·.isNone) with
    | some i => foTake (lset slots i (some x)) r
    | none => slots
def slotVals (s : Option FoDet) : List Word :=
  match s with
  | none => List.replicate 4 fNaN ++ [fNeg fOne, fNaN]
  | some x => [x.freq, x.amp, x.coh, x.peak, match x.near with | some t => fOfNat t | none => fNeg fOne, fOfNat x.dom]
/-- FODET's commit: slots, counters, events and the block's values (R177). -/
def Device.foCommit (d : Device) : List Word × Device :=
  match d.osm.foPend with
  | [] => (List.replicate 99 fNaN, d)
  | v :: rest =>
    let d0 := (d.setOsm { d.osm with foPend := rest }).count OSM_FO_EVALS
    if v.priming then (List.replicate 99 fNaN, d0.setOsm { d0.osm with foEvals := (v.k, d0.osm.foSlots) :: d0.osm.foEvals })
    else
      let all := sortBy (fun a b => !fLt a.amp b.amp) v.dets
      let k := foKeep d0.osm.foSlots (all.take 16)
      let new := foTake k.1 k.2
      let gone := ((d0.osm.foSlots.zip k.1).zipIdx.filterMap (fun x => match x.1 with | (some y, none) => some (x.2, y) | _ => none))
      let came := ((k.1.zip new).zipIdx.filterMap (fun x => match x.1 with | (none, some y) => some (x.2, y) | _ => none))
      let say (x : Device) (e : Nat × FoDet) : Device := x.raise EV_OSM_FO [e.1, e.2.freq.toNat, e.2.amp.toNat]
      let d1 := came.foldl (fun x e => say (x.count OSM_FO_DETECT) e) (gone.foldl say d0)
      let d2 := (d1.countN OSM_FO_DROPPED (all.length - 16)).setOsm { d1.osm with foSlots := new, foEvals := (v.k, new) :: d1.osm.foEvals }
      (fOfNat all.length :: (match all with | x :: _ => [x.freq, x.amp] | [] => [fNaN, fNaN]) ++ new.flatMap slotVals, d2)

/-! The refresh (R164, R165). -/

def Device.osmRefresh (d : Device) (k : Nat) : Device :=
  let p := d.monP
  let m1 := osmMerge d.osm.m d.osm.blockX d.osm.w (wd p 3) (monOsr p)
  let w1 := orth m1
  -- R by row: row i holds w_new,i dot w_old,j
  let R := w1.map (fun a => d.osm.w.map (fun b => dot a b))
  let rot (y : List Word) : List Word := rowsMul R y
  let turn (t : Track) : Track := if t.status = 0 then t else { t with mode := { t.mode with shape := R.map (fun r => cDot r t.mode.shape) } }
  let cov1 := osmRotate d.osm.cov R
  let f := osmFactor cov1
  let n := d.osm.refreshes + 1
  let d1 := (d.setOsm { d.osm with
    w := w1, m := m1, blockX := [], refreshes := n, ys := d.osm.ys.map rot, foY := d.osm.foY.map rot, cov := cov1,
    lf := f.1, lp := f.2, foSeg := d.osm.foSeg.map (fun s => s.map (fun bin => R.map (fun r => cDot r bin))),
    tracks := d.osm.tracks.map turn }).count OSM_REFRESHES
  let half := match d1.fodet? with | some e => foLen (d1.param e.2) / 2 | none => 1
  let d1 := ((d1.putW.putCov).putFactors).putSegs half k
  if n = 3 then
    let d2 := d1.setOsm { d1.osm with primedK := some k }
    (if d2.osm.st = .priming then d2.osmState .running else d2).raise EV_OSM_PRIMED [k]
  else d1

/-- Samples and outputs that no task can want any more are gone. -/
def Device.osmPrune (d : Device) : Device :=
  let ks := (d.srt.store ++ d.liveTasks.map (·.e)).filterMap (fun e =>
    if ieCode (d.instE e.inst) = kDEFLOC then some (e.lap / d.osmD e.inst) else none)
  let m := ks.foldl min d.osm.next
  let cut {α : Type} (l : List (Nat × α)) : List (Nat × α) :=
    l.filter (fun e => decide (m ≤ e.1 + 16)) ++ (l.filter (fun e => decide (e.1 + 16 < m))).take 1
  (d.setOsm { d.osm with inbuf := d.osm.inbuf.filter (fun s => decide (m ≤ s.k)), extracts := cut d.osm.extracts,
                         foEvals := cut d.osm.foEvals }).osmLevel

/-- OSCMON absorbs sample `k`. Answers the block's values at an extraction. -/
def Device.osmAbsorb (d : Device) (k : Nat) : Option (List Word) × Device :=
  let p := d.monP
  let i := d.osmGather d.oscs k
  let y := d.osm.w.map (fun c => dot c i.x)
  let d1 := ((((d.setOsm { d.osm with
    blockX := d.osm.blockX ++ [i.x], ys := (y :: d.osm.ys).take 31, foY := (y :: d.osm.foY).take 1024,
    lastK := k, next := k + 1, sigDrop := i.sigs, brDrop := i.brs }).wr OSM_SAMPLE_LO 0 (w32 k)).count OSM_SAMPLES).setf OSM_DROP.SIG_DROP i.sigs).setf
    OSM_DROP.BR_DROP i.brs
  let d2 : Option (List Word) × Device :=
    if k % 8 = 7 then
      let r := (d1.setOsm { d1.osm with cov := osmCov (monPc p) (monTau p) d1.osm.ys d1.osm.cov }).putCov.osmExtraction k
      (some r.1, if d.now > i.arr + 171500 * Time.usU then r.2.count OSM_LATE_OUT else r.2)
    else (none, d1)
  let d3 := match d2.2.fodet? with
    | some e => let q := d2.2.param e.2
                if (k + 1) % (foLen q / 2) = 0 then d2.2.foEvaluate q k else d2.2
    | none => d2.2
  (d2.1, if (k + 1) % (10 * monOsr p) = 0 then d3.osmRefresh k else d3)
/-- A journaled stop (R118): at once where its last sample has been absorbed, else after that sample. -/
def Device.osmStopJ (d : Device) (k reason : Nat) : Device :=
  if d.osm.next ≤ k ∧ d.osmOn then d.setOsm { d.osm with stopAt := some (k, reason) } else d.osmStop reason
/-- What follows OSCMON's commit of sample `k`: a stop that waited, or the operands of the tasks that come next. -/
def Device.osmAfter (d : Device) (k : Nat) : Device :=
  let mon := d.f OSM_CTL.INST
  let due := match d.osm.stopAt with | some (m, _) => decide (m ≤ k) | none => false
  if d.osm.st = .stopping then d.osmStopped
  else if due then (d.setOsm { d.osm with reason := (d.osm.stopAt.map (·.2)).getD 0, stopAt := none }).osmStopped
  else
    let d1 := d.osmState_ mon k
    let d2 := if k % 8 = 7 then d1.outOperand (.output mon k) else d1
    let d3 := match d2.fodet? with
      | some e =>
        if (k + 1) % (foLen (d2.param e.2) / 2) = 0 then d2.operand e.1 (k * d2.osmD e.1) 0 1 (fun x => { x with data := x.data ++ [KData.output mon k] }) else d2
      | none => d2
    d3.osmPrune

/-! DEFLOC (R178 to R180). -/

/-- The target list: active detections by AMP, then established tracks of little damping. -/
def defTargets (slots : List (Option FoDet)) (ts : List Track) (zlow : Word) : List (Nat × Nat × Word) :=
  let fo := slots.zipIdx.filterMap (fun s => s.1.map (fun x => (x, s.2)))
  let tr := ts.zipIdx.filter (fun t => t.1.status = 2 && fLt t.1.mode.damp zlow)
  (sortBy (fun a b => !fLt a.1.amp b.1.amp) fo).map (fun x => (1, x.2, x.1.freq)) ++
    (sortBy (fun a b => !fLt b.1.mode.damp a.1.mode.damp) tr).map (fun x => (2, x.2, x.1.mode.freq))
def Device.defTarget (d : Device) (q : List Word) (k : Nat) : Option (Nat × Nat × Word) :=
  if bit (wd q 2) 0 then some (3, Config.defFixIdent.toNat, wd q 3)
  else
    let ts := match d.extractFor k with
      | some e => ((d.osm.extracts.find? (fun x => x.1 = e)).map (·.2)).getD []
      | none => []
    let fs := match d.evalFor k with
      | some v => ((d.osm.foEvals.find? (fun x => x.1 = v)).map (·.2)).getD []
      | none => []
    (defTargets fs ts (wd q 6))[dlRank q]?
/-- Global branch `g`: areas, dropped, and P, Q, F, L of sample `k`. -/
def Device.defBranch (d : Device) (k g : Nat) : Nat × Nat × Bool × List Word :=
  match d.oscs.find? (fun o => decide (odDef o.2.2 ≤ g ∧ g < odDef o.2.2 + odNbr o.2.2)) with
  | none => (0, 0, true, [])
  | some o =>
    let j := g - odDef o.2.2
    let b := (odBrs o.2.2).getD j (0, 0, 0#32, 0#32)
    match d.piece? o.1 k with
    | some s => (b.1, b.2.1, s.brDrop.getD j true, slice s.brs (4 * j) 4)
    | none => (b.1, b.2.1, true, [])
/-- w of a branch after a sample (R179). -/
def defW (osr : Nat) (y : List Word) (lprev w : Word) : Word :=
  let dw := fFma (fMul fTwoPi (wd y 0)) (fDiv (wd y 2) (fOfNat osr)) (fMul (wd y 1) (fSub (wd y 3) lprev))
  fAdd w dw
/-- A DEFLOC instance's state after a sample. -/
def defStep (q : List Word) (osr : Nat) (tgt : Option (Nat × Nat × Word)) (brs : List (Nat × Nat × Bool × List Word)) (s : DefSt) : DefSt × Bool :=
  match tgt with
  | none => (⟨0, 0, fZero, [], [], [], 0⟩, false)
  | some (kind, ident, f) =>
    let re := s.kind ≠ kind || s.ident ≠ ident || fLt (fDiv (wd q 4) (fOfNat 4)) (fAbs (fSub f s.tuned))
    let s0 : DefSt := if re then ⟨kind, ident, f, [], [], [], 0⟩ else s
    let c := defCoef s0.tuned (wd q 4) osr
    let one (n : Nat) (b : Nat × Nat × Bool × List Word) : List (Word × List Word) :=
      (List.range 4).map (fun j => defFilter c (s0.filt.getD (4 * n + j) [fZero, fZero]) (wd b.2.2.2 j))
    let ys := brs.zipIdx.map (fun b => one b.2 b.1)
    ({ s0 with filt := ys.flatMap (fun y => y.map (·.2)), lprev := ys.map (fun y => ((y.map (·.1)).getD 3 fZero)),
               w := ys.zipIdx.map (fun y =>
                 let old := s0.w.getD y.2 []
                 (defW osr (y.1.map (·.1)) (s0.lprev.getD y.2 fZero) (old.headD fZero) :: old).take (dlWin q)),
               since := s0.since + 1 }, re)
/-- The block's values (R180). -/
def defVals (q : List Word) (osr : Nat) (tgt : Option (Nat × Nat × Word)) (brs : List (Nat × Nat × Bool × List Word)) (s : DefSt) : List Word :=
  match tgt with
  | none => List.replicate (68 + brs.length) fNaN
  | some (kind, ident, f) =>
    if s.since < dlWin q then List.replicate (68 + brs.length) fNaN
    else
      let rates := (brs.zip s.w).map (fun x => if x.1.2.2.1 then fNaN else defRate osr x.2)
      let net := (List.range 64).map (fun a => sum16 ((brs.zip rates).map (fun x => (none,
        if x.1.2.2.1 || x.1.1 = x.1.2.1 then fZero else if x.1.1 = a then x.2 else if x.1.2.1 = a then fNeg x.2 else fZero))))
      let best := net.zipIdx.foldl (fun (a : Word × Nat) x => if fLt a.1 x.1 then x else a) (net.headD fZero, 0)
      let src := if fLt (wd q 7) best.1 then fOfNat best.2 else fNeg fOne
      [f, fOfNat kind, fOfNat ident, src] ++ net ++ rates
/-- DEFLOC's commit of sample `k`: its values, and the operand of the next sample. -/
def Device.defCommit (d : Device) (inst k : Nat) : List Word × Device :=
  let q := d.param (d.instE inst)
  let osr := monOsr d.monP
  let brs := (List.range (dlNbr q)).map (fun n => d.defBranch k (dlBase q + n))
  let tgt := d.defTarget q k
  let r := defStep q osr tgt brs (mgetD d.osm.defs inst ⟨0, 0, fZero, [], [], [], 0⟩)
  let d1 := d.setOsm { d.osm with defs := mset d.osm.defs inst r.1 }
  let prim := match d.osm.primedK with | some x => decide (k ≤ x) | none => true
  (if prim then List.replicate (68 + dlNbr q) fNaN else defVals q osr tgt brs r.1, if r.2 then d1.count OSM_DEF_RETUNE else d1)

end Sys2Proof.Machine
end

