-- ==== Sys2Proof/Machine/RxlLink.lean ====
section
/-!
DEFINITION. Rharix links (spec/12): the link and route tables (R344, R352), frames (R345 to R347), sending with acknowledgement (R350), and
the state of a link (R353).
-/
namespace Sys2Proof.Machine

/-! The tables. -/

def Device.linkE (d : Device) (l : Nat) : List Word := d.ent tLink l
def lkEn (e : List Word) : Bool := bit (wd e 4) 31
def lkV6 (e : List Word) : Bool := bit (wd e 4) 30
def lkAuth (e : List Word) : Bool := bit (wd e 4) 29
def lkPorts (e : List Word) : Nat := bx (wd e 4) 23 16
def lkKey (e : List Word) : Nat := bx (wd e 4) 11 0
def lkPeer (e : List Word) : Nat := bx (wd e 5) 11 0
def lkPort (e : List Word) : Nat := bx (wd e 6) 15 0
def lkAddr (e : List Word) : List Byte := if lkV6 e then addrOctets e else (addrOctets e).take 4
def Device.setRxl (d : Device) (r : Rxl) : Device := { d with rxl := r }
def Device.setLink (d : Device) (l : Nat) (x : LinkSt) : Device := d.setRxl { d.rxl with links := mset d.rxl.links l x }
def Device.setPeer (d : Device) (i : Nat) (x : PeerSt) : Device := d.setRxl { d.rxl with peers := mset d.rxl.peers i x }
/-- The relay lane (R369). -/
def Device.isRelay (d : Device) (l : Nat) : Bool := decide (l < 4) && d.fb RLY_CFG.EN && decide (d.f RLY_CFG.LANE = l)
def Device.linkUp (d : Device) (l : Nat) : Bool := (d.link l).up
/-- The device may send a type of frame on a link: all in RACE but for the relay lane's own (R344, R372); in FOLLOW only what R372 names. What a
follower so sends on a link with AUTH = 1 carries the tag that R346 asks of every frame (R425 says that a follower signs nothing: DESIGN CHOICE,
log entry 96). -/
def Device.rxlMay (d : Device) (l typ : Nat) : Bool :=
  let own := [0, 1, 5].contains typ
  match d.pwr.mode with
  | .race => if d.isRelay l then own else true
  | .follow => if d.isRelay l then own else decide (l < 4 ∧ typ = 1)
  | _ => false
/-- CADENCE intervals (R351). -/
def cadMs (l : Nat) : Nat := if l < 4 then 1 else 10

/-! Frames. -/

/-- The class of a frame type (Table 12.3), and whether it is sequenced. -/
def typCls (t : Nat) : Nat := if t = 4 then 1 else 0
def typSeq (t : Nat) : Bool := decide (2 ≤ t)
/-- The four header words (Table 12.2). -/
def rxlHeader (m : RxlMsg) (auth : Bool) (seq epoch ack0 ack1 fed : Nat) : List Word :=
  let len := 20 + m.payload.length + (if auth then 16 else 0)
  [w32 (0x10000000 + m.typ * 16777216 + typCls m.typ * 8388608 + b2n auth * 4194304 + len),
   w32 (seq * 65536 + m.hops * 4096 + epoch), w32 (ack0 * 65536 + ack1), w32 (m.src * 1048576 + m.dst * 256 + fed)]
/-- A frame on a link, with the acknowledgements as they stand; none where its key is missing (R346, R424). -/
def Device.rxlBytes (d : Device) (l seq : Nat) (m : RxlMsg) : Option (List Byte) × Device :=
  let e := d.linkE l
  let x := d.link l
  let body := leBytes (rxlHeader m (lkAuth e) seq x.epoch x.c0.next x.c1.next (d.f RXL_DEV.FED_ID)) ++ m.payload
  let close (b : List Byte) : List Byte := b ++ le32 (w32 (crc32 b))
  if lkAuth e then
    match d.sendKey (lkKey e) 2 with
    | (some k, d1) => (some (close (body ++ (hmacSha256 k.key body).take 16)), d1)
    | (none, d1) => (none, d1)
  else (some (close body), d)
/-- Put a frame on its link: an RXL port, or a UDP datagram in the stream queue of the lowest ACTIVE port (R343, R344). -/
def Device.rxlPut (d : Device) (l : Nat) (b : List Byte) : Device :=
  if l < 4 then d.emit (.rxlFrame l b)
  else
    let e := d.linkE l
    match d.lowestPort (lkPorts e) with
    | none => d
    | some p =>
      let own := d.f RXL_UDP.PORT
      d.txPush p false (txPlain (d.udpFrame p (d.peerMac p (lkAddr e)) none (lkAddr e) own (if lkPort e = 0 then own else lkPort e) b))
/-- Send a frame once: it acknowledges what has been accepted (R350). A UDP link with no ACTIVE port sends nothing. -/
def Device.rxlEmit (d : Device) (l seq : Nat) (m : RxlMsg) : Device :=
  if !d.rxlMay l m.typ then d
  else match d.rxlBytes l seq m with
    | (none, d1) => d1
    | (some b, d1) =>
      if 4 ≤ l ∧ (d1.lowestPort (lkPorts (d1.linkE l))).isNone then d1
      else
        let x := d1.link l
        let d2 := d1.setLink l { x with c0 := { x.c0 with owed := none }, c1 := { x.c1 with owed := none } }
        (d2.count RXL_TX_FRAMES).rxlPut l b

/-! Classes and their send buffers (R350). -/

def getCls (x : LinkSt) (c : Nat) : RxlClass := if c = 1 then x.c1 else x.c0
def setCls (x : LinkSt) (c : Nat) (y : RxlClass) : LinkSt := if c = 1 then { x with c1 := y } else { x with c0 := y }
/-- Room for `n` more frames of a class. -/
def Device.linkRoom (d : Device) (l c n : Nat) : Bool := decide ((getCls (d.link l) c).buf.length + n ≤ 256)
/-- A frame of a class 0 or 1 that finds its send buffer full is discarded (class 1 callers look first); a JOURNAL frame so lost is a loss
of step at the follower (R373). -/
def Device.rxlSend (d : Device) (l : Nat) (m : RxlMsg) : Device :=
  if !typSeq m.typ then d.rxlEmit l 0 m
  else if !d.rxlMay l m.typ then d
  else
    let c := typCls m.typ
    let x := d.link l
    let y := getCls x c
    if y.buf.length ≥ 256 then d.count RXL_TX_ABANDON
    else
      let y1 := { y with send := (y.send + 1) % 65536, buf := y.buf ++ [⟨y.send, m, 1, d.now⟩] }
      (d.setLink l (setCls x c y1)).rxlEmit l y.send m
/-- `s` lies below `ack` in arithmetic modulo 2^16. -/
def seqBelow (s ack : Nat) : Bool := let x := (ack + 65536 - s % 65536) % 65536; decide (0 < x ∧ x ≤ 32768)
/-- An acknowledgement releases frames. -/
def ackCls (y : RxlClass) (ack : Nat) : RxlClass := { y with buf := y.buf.filter (fun f => !seqBelow f.seq ack) }
/-- An ACK frame. -/
def Device.rxlAck (d : Device) (l : Nat) : Device := d.rxlEmit l 0 ⟨0, 8, d.self, lkPeer (d.linkE l), []⟩

/-! Routes (R352). -/

/-- The first usable link of PRIMARY and ALT for a device; a route that names the relay lane is not used. -/
def Device.routeTo (d : Device) (dev : Nat) : Option Nat :=
  let w := wd (d.ent tRoute dev) 0
  let ls := (if bit w 15 then [bx w 5 0] ++ (if bit w 14 then [bx w 13 8] else []) else [])
  ls.find? (fun l => d.linkUp l && !d.isRelay l)
/-- A link takes a frame to send: it may carry the type, and a sequenced frame finds room (R350). -/
def Device.linkTakes (d : Device) (l : Nat) (m : RxlMsg) : Bool :=
  d.rxlMay l m.typ && (!typSeq m.typ || d.linkRoom l (typCls m.typ) 1)
/-- Send a frame toward its destination. -/
def Device.rxlRoute (d : Device) (m : RxlMsg) : Device :=
  match d.routeTo m.dst with
  | some l => d.rxlSend l m
  | none => d.count RXL_NOROUTE
/-- A frame this device originates: HOPS 8. -/
def Device.rxlOwn (d : Device) (typ dst : Nat) (payload : List Byte) : Device := d.rxlRoute ⟨typ, 8, d.self, dst, payload⟩
/-- The largest payload a link admits (R347), in whole words. No register makes a port tag its datagrams, so none of the octets that a tag takes
are left out (DEDUCED, log entry 84). -/
def Device.linkMax (d : Device) (l : Nat) : Nat :=
  let e := d.linkE l
  if l < 4 then 8192
  else
    let lens := ((List.range 8).filter (fun p => (lkPorts e).testBit p)).map (fun p => d.f ETH_CFG.MAXLEN p)
    let udp := lens.foldl min 9216 - (if lkV6 e then 66 else 46)
    min 8192 ((udp - 20 - (if lkAuth e then 16 else 0)) / 4 * 4)
/-- The largest payload toward a device. -/
def Device.rxlMax (d : Device) (dev : Nat) : Nat := match d.routeTo dev with | none => 8192 | some l => d.linkMax l

/-! The state of a link (R353). -/

/-- What a link's state follows from: its entry, its observed usability, and its RXL unit or UDP port. -/
def Device.linkWant (d : Device) (l : Nat) : Bool :=
  let e := d.linkE l
  lkEn e && (d.link l).usable && (if l < 4 then d.unitAdmin uLANE l else (d.lowestPort (lkPorts e)).isSome)
/-- Bring a link's use up to date. One that becomes unusable discards its unacknowledged frames; one that returns takes the next epoch and
starts both sequence spaces again. -/
def Device.linkRefresh (d : Device) (l cause : Nat) : Device :=
  let x := d.link l
  let new := d.linkWant l
  if new = x.up then d
  else if new then
    let d1 := d.setLink l { x with up := true, epoch := (x.epoch + 1) % 4096, c0 := clsInit, c1 := clsInit }
    d1.raise EV_RXL_LINK [l, (Config.linkCause 0).toNat, (x.epoch + 1) % 4096]
  else
    let d1 := d.setLink l { x with up := false, c0 := { x.c0 with buf := [], owed := none }, c1 := { x.c1 with buf := [], owed := none } }
    (d1.countN RXL_TX_ABANDON (x.c0.buf.length + x.c1.buf.length)).raise EV_RXL_LINK [l, (Config.linkCause cause).toNat, x.epoch]
/-- A link's observed usability changes; of an RXL port it is the unit's health. -/
def Device.linkHealth (d : Device) (l : Nat) (ok : Bool) (cause : Nat) : Device :=
  let d1 := d.setLink l { d.link l with usable := ok }
  (if l < 4 then d1.unitRefresh uLANE l else d1).linkRefresh l cause
/-- A unit that links depend on has changed. -/
def Device.linksRefresh (d : Device) : Device := (List.range 64).foldl (fun x l => x.linkRefresh l 4) d

/-- RXL_RETRANSMIT_TIMEOUT: the oldest unacknowledged frame of a class has waited RTO. -/
def Device.rto (d : Device) (l : Nat) : Time :=
  if l < 4 then max 1 (d.f RXL_TIMING.RTO_RXL_US) * Time.usU else max 1 (d.f RXL_TIMING.RTO_UDP_MS) * Time.msU
def rxlRetransmit (l c : Nat) (d : Device) : Device :=
  match (getCls (d.link l) c).buf with
  | [] => d
  | f :: _ =>
    if d.now < f.last + d.rto l then d
    else if f.times ≥ max 1 (d.f RXL_TIMING.RETX_MAX) + 1 then
      (d.setLink l { d.link l with failed := true, onTime := 0 }).linkHealth l false 3
    else
      let x := d.link l
      let y := getCls x c
      let d1 := d.setLink l (setCls x c { y with buf := y.buf.map (fun g => { g with times := g.times + 1, last := d.now }) })
      y.buf.foldl (fun z g => (z.count RXL_RETX).rxlEmit l g.seq g.msg) d1
/-- RXL_ACK_DELAY_EXPIRY: an accepted frame has waited for its acknowledgement. -/
def rxlAckDelay (l : Nat) (d : Device) : Device :=
  let x := d.link l
  let lim := if l < 4 then 2 * Time.usU else 500 * Time.usU
  if [x.c0.owed, x.c1.owed].any (fun o => match o with | some t => decide (t + lim ≤ d.now) | none => false) then d.rxlAck l else d

/-! RXL ports (R342, R353). -/

/-- A write to RXL_PORT: EN from 0 to 1 starts training; a port without EN has no lock. -/
def rxlPortWrite (l : Nat) (v : Word) (d : Device) : Device :=
  let on := bit v 31
  let was := d.fb RXL_PORT.EN l
  let d1 := d.setf RXL_PORT.EN (b2n on) l
  if on = was then d1
  else
    let d2 := (((d1.setf RXL_PORT.TRAINED 0 l).setf RXL_PORT.FEC_LOCK 0 l).setf RXL_PORT.LOCK 0 l).setf RXL_PORT.PEER_OK 0 l
    if on then d2 else (d2.setLink l { d2.link l with onTime := 0 }).linkHealth l false 1
/-- RXL_TRAINING_DONE. -/
def rxlTrained (l : Nat) (d : Device) : Device := if d.fb RXL_PORT.EN l then d.setf RXL_PORT.TRAINED 1 l else d
/-- RXL_LOCK_CHANGE: a loss starts training again. -/
def rxlLock (l : Nat) (lock : Bool) (d : Device) : Device :=
  if !d.fb RXL_PORT.EN l || decide (d.fb RXL_PORT.LOCK l = lock) then d
  else if lock then (d.setf RXL_PORT.LOCK 1 l).setf RXL_PORT.FEC_LOCK 1 l
  else
    let d1 := ((d.setf RXL_PORT.LOCK 0 l).setf RXL_PORT.FEC_LOCK 0 l).setf RXL_PORT.TRAINED 0 l
    (d1.setLink l { d1.link l with onTime := 0 }).linkHealth l false 1

/-! Cadence (R351, R353). -/

/-- The payload of a CADENCE. -/
def Device.cadPayload (d : Device) (l : Nat) : List Byte :=
  leBytes [w32 (d.f RXL_CREDITS.CREDITS + cadMs l * 65536), w32 (Time.secOf d.now), w32 (Time.nsOf d.now), w32 (modeCode d.pwr.mode),
           0#32, 0#32, 0#32, 0#32]
/-- CADENCE_SEND on a link: its interval has passed. Every enabled link carries it, used or not. -/
def cadenceLink (l : Nat) (d : Device) : Device :=
  let e := d.linkE l
  let x := d.link l
  if !lkEn e || decide (d.now < x.cadTx + cadMs l * Time.msU) || (decide (l < 4) && !d.fb RXL_PORT.LOCK l) then d
  else (d.setLink l { x with cadTx := d.now }).rxlEmit l 0 ⟨1, 8, d.self, lkPeer e, d.cadPayload l⟩
/-- The members of the spans this device belongs to. -/
def Device.spanPeers (d : Device) : List Nat :=
  ((d.ents tSpan).flatMap (fun e => if seEn e.2 && (seMembers e.2).contains d.self then (seMembers e.2).filter (· ≠ d.self) else [])).eraseDups
/-- CADENCE_SEND end to end, at the interval of the first link of the route. -/
def cadencePeer (dev : Nat) (d : Device) : Device :=
  match d.routeTo dev with
  | none => d
  | some l =>
    let x := d.peer dev
    if !d.spanPeers.contains dev || decide (d.now < x.cadTx + cadMs l * Time.msU) then d
    else (d.setPeer dev { x with cadTx := d.now }).rxlOwn 1 dev (d.cadPayload l)
/-- RXL_CADENCE_TIMEOUT: no CADENCE from PEER_DEV within 3 ms, 3 intervals of a UDP link. -/
def rxlCadTimeout (l : Nat) (d : Device) : Device :=
  let x := d.link l
  match x.cadAt with
  | none => d
  | some t =>
    if d.now < t + 3 * cadMs l * Time.msU then d
    else ((if l < 4 then d.setf RXL_PORT.PEER_OK 0 l else d).setLink l { x with onTime := 0, cadAt := none }).linkHealth l false 2
/-- A peer is lost or has returned (R368); the state is coded as Table 7.6 codes it. -/
def Device.peerEvent (d : Device) (dev : Nat) : Device := (d.raise EV_RXL_PEER [dev, d.unitState uPEER dev]).unitRefresh uPEER dev
/-- PEER_LOSS_TIMEOUT (R351). -/
def peerLost (dev : Nat) (d : Device) : Device :=
  let x := d.peer dev
  match x.cadAt with
  | none => d
  | some t =>
    if x.lost || decide (d.now < t + 3 * x.interval * Time.msU) then d
    else (d.setPeer dev { x with lost := true, onTime := 0 }).count RXL_PEER_LOST |>.peerEvent dev
/-- A CADENCE of a peer has reached its destination. -/
def Device.peerCadence (d : Device) (dev credits interval mode : Nat) : Device :=
  let x := d.peer dev
  let ok := match x.cadAt with | some t => decide (d.now ≤ t + 3 * x.interval * Time.msU) | none => false
  let n := if ok then x.onTime + 1 else 1
  let back := x.lost && decide (n ≥ 3)
  let d1 := d.setPeer dev { x with lost := x.lost && !back, cadAt := some d.now, interval := interval, onTime := n, credits := credits, mode := mode }
  if back then d1.peerEvent dev else d1
/-- A link CADENCE has arrived: the link returns after lock and 3 consecutive ones on time. The other end's epoch is what it carries. -/
def Device.linkCadence (d : Device) (l epoch : Nat) : Device :=
  let x := d.link l
  let ok := match x.cadAt with | some t => decide (d.now ≤ t + 3 * cadMs l * Time.msU) | none => false
  let n := if ok then x.onTime + 1 else 1
  let y := { x with cadAt := some d.now, onTime := n, rxEpoch := epoch, failed := x.failed && decide (n < 3) }
  let y1 := if epoch = x.rxEpoch then y else { y with c0 := { y.c0 with next := 0, win := [] }, c1 := { y.c1 with next := 0, win := [] } }
  let d1 := (if l < 4 then d.setf RXL_PORT.PEER_OK 1 l else d).setLink l y1
  if !x.usable && decide (n ≥ 3) && (decide (4 ≤ l) || d.fb RXL_PORT.LOCK l) then d1.linkHealth l true 0 else d1

end Sys2Proof.Machine
end

