-- ==== Sys2Proof/Machine/Span.lean ====
section
/-!
DEFINITION. Spanning heats (spec/12): the owner of a lane (R355), holding, passing and taking lanes (R356, R359), records between members
(R354, R358), partials and the anchor's combines (R362 to R365).
-/
namespace Sys2Proof.Machine

/-! Owners (R355). -/

def mask64 (x : Nat) : Nat := x % 2 ^ 64
def mix64 (x : Nat) : Nat :=
  let z0 := mask64 (x + 0x9E3779B97F4A7C15)
  let z1 := mask64 ((Nat.xor z0 (z0 / 2 ^ 30)) * 0xBF58476D1CE4E5B9)
  let z2 := mask64 ((Nat.xor z1 (z1 / 2 ^ 27)) * 0x94D049BB133111EB)
  Nat.xor z2 (z2 / 2 ^ 31)
/-- The score of a device for a lane. -/
def ownScore (laneId dev credits : Nat) : Word :=
  let u := fMul (fAdd (fOfNat (mix64 (laneId * 4096 + dev) / 2 ^ 40)) 0x3F000000#32) 0x33800000#32
  fDiv (fOfNat credits) (fNeg (fLn u))
def Device.creditsOf (d : Device) (dev : Nat) : Nat := if dev = d.self then d.f RXL_CREDITS.CREDITS else (d.peer dev).credits
def Device.memberOk (d : Device) (dev : Nat) : Bool := decide (dev = d.self) || d.active uPEER dev
/-- The member of highest score, the first of two alike. -/
def Device.ownHash (d : Device) (h laneId : Nat) : Option Nat :=
  ((seMembers (d.spanE h)).foldl (fun (a : Option (Nat × Word)) dev =>
    if d.memberOk dev && decide (d.creditsOf dev > 0) then
      let sc := ownScore laneId dev (d.creditsOf dev)
      match a with
      | none => some (dev, sc)
      | some b => if fLt b.2 sc then some (dev, sc) else a
    else a) none).map (·.1)
/-- The owner of a lane, with what an override of its pin counts. -/
def Device.owner (d : Device) (h lane : Nat) : Option Nat × Device :=
  let e := d.laneE lane
  if lePin e && d.memberOk (lePinDev e) then (some (lePinDev e), d)
  else
    let o := d.ownHash h (leId e)
    if lePin e then
      let d1 := (d.count RXL_PIN_OVERRIDE).raiseSec d.rxl.pinSec EV_RXL_PIN_OVERRIDE [leId e, lePinDev e]
      (o, d1.setRxl { d1.rxl with pinSec := some d1.sec })
    else (o, d)

/-- The owner of a lane, without counting (R355). -/
def Device.ownerOf (d : Device) (h lane : Nat) : Option Nat :=
  let e := d.laneE lane
  if lePin e && d.memberOk (lePinDev e) then some (lePinDev e) else d.ownHash h (leId e)

/-! Holding (R356, R359). -/

def holdInit : HoldSt := ⟨[], none, none, none⟩
def Device.holdSt (d : Device) (lane : Nat) : HoldSt := mgetD d.rxl.hold lane holdInit
def Device.setHold (d : Device) (lane : Nat) (x : HoldSt) : Device := d.setRxl { d.rxl with hold := mset d.rxl.hold lane x }
/-- A pass of a heat is to be reported. -/
def Device.passCount (d : Device) (h first : Nat) : Device :=
  let a := mgetD d.rxl.passAcc h (0, first)
  d.setRxl { d.rxl with passAcc := mset d.rxl.passAcc h (a.1 + 1, a.2) }
/-- Passes of a heat are reported at most once a second, all those since the last report together (R356, R368, DEDUCED, log entry 93). -/
def Device.passEvent (d : Device) (h : Nat) : Device :=
  match mget d.rxl.passAcc h with
  | none => d
  | some (n, first) =>
    if mget d.rxl.passSec h = some d.sec then d
    else
      let d1 := d.raise EV_RXL_PASS [h, n, first]
      d1.setRxl { d1.rxl with passSec := mset d1.rxl.passSec h d1.sec, passAcc := mdel d1.rxl.passAcc h }
/-- PASS entries (Table 16.3): 0 sent, 1 taken, 2 taken without pass. -/
def Device.journalPass (d : Device) (h lane first kind : Nat) : Device :=
  d.journalW 0x12 0 (d.openT h first) ([w32 (leId (d.laneE lane))] ++ two first ++ [w32 kind])
/-- Hold a lane from lap `n`, `accepted` by a pass or taken; a lap already GATHERING takes it in. -/
def Device.holdFrom (d : Device) (h lane n : Nat) (accepted : Bool) : Device :=
  let x := d.holdSt lane
  let d1 := d.setHold lane { x with ranges := x.ranges ++ [(n, none)], since := if accepted then some d.now else none, view := some d.self }
  if d1.mirrors h then d1
  else (d1.lapsOf h).foldl (fun y l =>
    if l.st = .gathering ∧ n ≤ l.lap ∧ !l.lanes.contains lane then y.setLap { l with lanes := l.lanes ++ [lane] } else y) d1
/-- End the holding of a lane with lap `last`, passing it to a device `dev` where it is known, which `view` takes for the holder. -/
def Device.holdUntil (d : Device) (lane last : Nat) (dev view : Option Nat) : Device :=
  let x := d.holdSt lane
  d.setHold lane { x with ranges := x.ranges.map (fun r => if r.2.isNone then (r.1, some last) else r), passed := dev, view := view }
/-- A CONTROL PASS (Table 12.19). -/
def passPayload (laneId h n : Nat) : List Byte :=
  leBytes [w32 (0x10000000 + laneId), w32 (h * 4194304), w32 n, w32 (n / 4294967296)]
/-- The first lap whose opening time is at or after an instant. -/
def Device.firstOpen (d : Device) (h : Nat) (t : Time) : Nat := firstLapAt (d.rate h) t
/-- The holder's look at a lane at an opening: it passes the lane on, or keeps it. -/
def Device.lanePass (d : Device) (h lane : Nat) : Device :=
  let x := d.holdSt lane
  let o := d.owner h lane
  match o.1 with
  | none => o.2
  | some dev =>
    let fresh := match x.since with | some t => decide (d.now < t + Time.secU) | none => false
    if decide (dev = d.self) || fresh || !d.active uPEER dev then o.2
    else match o.2.routeTo dev with
      | none => o.2
      | some l =>
        let n := o.2.firstOpen h (d.now + 4 * cadMs l * Time.msU)
        let d1 := (o.2.holdUntil lane (n - 1) (some dev) (some dev)).rxlOwn 3 dev (passPayload (leId (d.laneE lane)) h n)
        ((d1.count RXL_PASS_SENT).journalPass h lane n 0).passCount h n
/-- Another member's look (R355, R359): a lane whose holder is lost, or that has had none since the heat's enable, is taken by its owner. While the
holder is there, a lane whose owner is a third member is on its way to that one, which is taken for the holder from now on (DEDUCED, log
entry 93). -/
def Device.laneTake (d : Device) (h lane n : Nat) : Device :=
  let x := d.holdSt lane
  let gone := match x.view with | some v => !d.memberOk v | none => true
  let o := d.owner h lane
  if !gone then (if o.1.isSome && o.1 ≠ some d.self && o.1 ≠ x.view then o.2.setHold lane { x with view := o.1 } else o.2)
  else
    let d1 := o.2.setHold lane { x with view := o.1.orElse (fun _ => x.view) }
    if o.1 = some d.self then
      let d2 := d1.holdFrom h lane n false
      (if x.view.isSome then d2.count RXL_TAKE_NOPASS else d2).journalPass h lane n 2
    else d1
/-- The lanes of a spanning heat at the opening of lap `n`. -/
def Device.spanOpen (d : Device) (h n : Nat) : Device :=
  if !d.spans h || !d.racing then d
  else ((d.heatLanes h).foldl (fun x lane =>
    if (x.holdSt lane).ranges.any (fun r => r.2.isNone) then x.lanePass h lane else x.laneTake h lane n) d).passEvent h
/-- A PASS is accepted (R356). -/
def Device.passTaken (d : Device) (h lane n : Nat) : Device :=
  ((((d.holdFrom h lane n true).count RXL_PASS_TAKEN).journalPass h lane n 1).passCount h n).passEvent h
/-- A journaled pass (R118), whose entry does not name the device a lane went to: the owner computed here stands for it. -/
def Device.applyPass (d : Device) (h lane n kind : Nat) : Device :=
  if kind = 0 then d.holdUntil lane (n - 1) none (d.ownerOf h lane) else d.holdFrom h lane n (decide (kind = 1))

/-! Records (R354, R358). -/

/-- An arrival: lane, lap, arrival time, records. -/
structure Arrival where
  lane : Nat
  lap : Nat
  arr : Time
  recs : List (List Word)
  deriving DecidableEq, Repr
/-- Records as a RECORD frame carries them: LANE_ID in place of the local indices. -/
def wireRecs (laneId : Nat) (recs : List (List Word)) : List Byte :=
  recs.flatMap (fun r => leBytes (lset r 1 (bset (wd r 1) 23 0 laneId)))
/-- Send records to a device, as many lanes to a frame as fit (R347). -/
def recFrames (fuel cap : Nat) (cur : List Byte) (l : List (List Byte)) : List (List Byte) :=
  match fuel with
  | 0 => []
  | n + 1 => match l with
    | [] => if cur.isEmpty then [] else [cur]
    | b :: r => if cur.length + b.length ≤ cap || cur.isEmpty then recFrames n cap (cur ++ b) r else cur :: recFrames n cap b r
def Device.sendRecs (d : Device) (dev : Nat) (l : List Arrival) : Device :=
  let bs := l.map (fun a => wireRecs (leId (d.laneE a.lane)) a.recs)
  (recFrames (bs.length + 1) (d.rxlMax dev) [] bs).foldl (fun x b => x.rxlOwn 2 dev b) d
/-- Where an arrival goes (R358): `none` for this device's PFA; or the device it is forwarded to, the one the lane was last passed to or else
its owner; or nowhere, where the lane is unowned (R355). -/
def Device.arrivalTo (d : Device) (a : Arrival) : Option (Option Nat) :=
  let h := leHeat (d.laneE a.lane)
  if !d.spans h || d.holds a.lane a.lap then none
  else match (match (d.holdSt a.lane).passed with | some p => some p | none => d.ownerOf h a.lane) with
    | some dev => if dev = d.self then none else some (some dev)
    | none => some none
/-- Deliver arrivals: those of lanes held elsewhere go to their holders, the others to the PFA, and those of held lanes to every other mirror
member, as OWNER_REMOTE records. Answers the dispositions: 0xB for each that this PFA does not take, an unowned lane's too (DESIGN CHOICE, log entry 84). `wrote` counts
each local one. -/
def Device.deliver (d : Device) (wrote : Bool) (l : List Arrival) : List Nat × Device :=
  let fwd := l.filterMap (fun a => (d.arrivalTo a).bind (fun t => t.map (fun dev => (dev, a))))
  let mir := l.flatMap (fun a =>
    let h := leHeat (d.laneE a.lane)
    if d.spans h && d.holds a.lane a.lap then
      ((seMembers (d.spanE h)).zipIdx.filter (fun m => seMirror (d.spanE h) m.2 && decide (m.1 ≠ d.self))).map
        (fun m => (m.1, { a with recs := setQual a.recs qREMOTE true }))
    else [])
  let out := fwd ++ mir
  let r := l.foldl (fun (x : List Nat × Device) a =>
    match d.arrivalTo a with
    | some _ => (x.1 ++ [11], x.2)
    | none =>
      let y := (if wrote then x.2.count ING_LANES_WRITTEN else x.2).pfaArrive a.lane a.lap a.arr a.recs none
      (x.1 ++ [y.1], y.2)) ([], d)
  (r.1, if !d.racing then r.2 else ((out.map (·.1)).eraseDups).foldl (fun x dev => x.sendRecs dev ((out.filter (fun o => o.1 = dev)).map (·.2))) r.2)

/-! Partials (R362 to R365). -/

/-- At a lap opening partials move to the alternate anchor, or back (R364). -/
def Device.anchorLook (d : Device) (h : Nat) : Device :=
  let e := d.spanE h
  let on := d.rxl.onAlt.contains h
  let want := seAltEn e && !d.memberOk (seDev e (seAnchor e))
  if !d.spans h || !d.racing || on == want then d
  else
    let d1 := (d.setRxl { d.rxl with onAlt := if want then h :: d.rxl.onAlt else d.rxl.onAlt.filter (· ≠ h) }).count RXL_ANCHOR_SWITCH
    d1.raise EV_RXL_ANCHOR [h, d1.combDev h]

def partIs (h inst lap mem ver : Nat) (p : Part) : Bool :=
  decide (p.heat = h ∧ p.inst = inst ∧ p.lap = lap ∧ p.member = mem ∧ p.version = ver)
def Part.full (p : Part) : Bool := decide (p.frags.length = p.nfrag)
/-- Payload bytes of a complete partial. -/
def Part.bytes (p : Part) : List Byte := p.frags.flatMap (·.2)
/-- Flags of a PARTIAL header, bits 7:3: EARLY, COMPLETE, FINAL, LATE, UNSETTLED. -/
def pEARLY (f : Nat) : Bool := f.testBit 4
def pCOMPLETE (f : Nat) : Bool := f.testBit 3
def pFINAL (f : Nat) : Bool := f.testBit 2
def pLATE (f : Nat) : Bool := f.testBit 1
def partFlags (early complete fin late unset : Bool) : Nat := qbit early 4 + qbit complete 3 + qbit fin 2 + qbit late 1 + qbit unset 0

def combInit : CombSt := ⟨0, [], false, false⟩
def Device.comb (d : Device) (inst lap : Nat) : CombSt := mgetD d.rxl.comb (ilKey inst lap) combInit
def Device.setComb (d : Device) (inst lap : Nat) (c : CombSt) : Device := d.setRxl { d.rxl with comb := mset d.rxl.comb (ilKey inst lap) c }
/-- The newest complete partial of each member for an instance and lap, by member. -/
def Device.newestParts (d : Device) (inst lap : Nat) : NMap Part :=
  (d.rxl.parts.filter (fun p => decide (p.inst = inst ∧ p.lap = lap) && p.full)).foldl (fun m p =>
    match mget m p.member with
    | some q => if q.version ≤ p.version then mset m p.member p else m
    | none => mset m p.member p) []
/-- Members whose partial a first combine waits for. -/
def Device.awaited (d : Device) (h : Nat) : List Nat :=
  (seMembers (d.spanE h)).zipIdx.filterMap (fun m => if d.memberOk m.1 then some m.2 else none)
/-- Make a combine from a set of partials: its token, journal entry and task. -/
def Device.combMake (d : Device) (h inst lap : Nat) (ps : NMap Part) (fin : Bool) : Device :=
  let c := d.comb inst lap
  let all (f : Nat → Bool) : Bool := ps.all (fun p => f p.2.flags)
  let any (f : Nat → Bool) : Bool := ps.any (fun p => f p.2.flags)
  let missing := seNmem (d.spanE h) - ps.length
  let t : Tok := ⟨h, lap, .combine, c.seq, 0, any pEARLY, decide (missing = 0) && all pCOMPLETE, fin, any pLATE, any pEARLY⟩
  let d1 := d.setComb inst lap { seq := c.seq + 1, used := ps.map (fun p => (p.1, p.2.version)), busy := true, due := false }
  let d2 := (d1.countN RXL_PART_MISSING missing).count RXL_COMBINES
  let mask := (ps.map (fun p => 2 ^ p.1)).sum
  let d3 := d2.journalW 0x11 (tokFlags t) d.now ([w32 h, w32 inst] ++ two lap ++ [w32 c.seq, w32 mask, w32 (mask / 4294967296)] ++ ps.map (fun p => w32 p.2.version))
  let data := ps.map (fun p => KData.part p.1 p.2.version [])
  d3.entryFill inst lap (256 + c.seq) 3 (fun e =>
    { e with trig := some t, data := data, hist := if c.seq = 0 then e.hist else d3.incoming? inst lap })
/-- Look whether a combine is due: the first with a partial of every ACTIVE member, or when `now_` says so; a later one for a newer version
or for the finish line, once the previous gather has ended, after one that carried FINAL too (R238). -/
def Device.combCheck (d : Device) (h inst lap : Nat) (now_ : Bool) : Device :=
  let c := d.comb inst lap
  let ps := d.newestParts inst lap
  let here := (d.awaited h).all (fun m => (mget ps m).isSome)
  let fin := c.due || (!ps.isEmpty && ps.all (fun p => pFINAL p.2.flags))
  let newer := ps.any (fun p => match mget c.used p.1 with | some v => decide (v < p.2.version) | none => true)
  let want := if c.seq = 0 then here || now_ || c.due else !c.busy && (newer || c.due)
  if !d.racing || !want || ps.isEmpty && !c.due && !now_ then d
  else if d.storeFree = 0 && (d.entry? inst lap (256 + c.seq)).isNone then
    if d.srt.held.contains (.combineIn inst lap) then d
    else (d.setSrt { d.srt with held := d.srt.held ++ [.combineIn inst lap] }).count SRT_PARTIAL_HELD
  else d.combMake h inst lap ps fin
/-- The combine instances of a heat: the partial-capable ones but ISLDET, and ISLSUM. -/
def Device.combInsts (d : Device) (h : Nat) : List Nat :=
  d.insts.filterMap (fun e => if ieHeat e.2 = h ∧ d.spans h ∧ (d.combined e.1 ∨ ieCode e.2 = kISLSUM) then some e.1 else none)
/-- This device combines an instance's lap: it is the combining device in its own view, or members that see the anchor lost have sent it partials
(R364). -/
def Device.combHere (d : Device) (h inst lap : Nat) : Bool :=
  decide (d.combDev h = d.self) || d.rxl.parts.any (fun p => decide (p.inst = inst ∧ p.lap = lap))
/-- PART_WAIT_EXPIRY: the combining device combines with what it has (R363). -/
def partWaitExpiry (h lap : Nat) (d : Device) : Device :=
  if !d.racing || !d.spans h || !d.heatOn h || decide (d.now < d.lapT h lap + seWait (d.spanE h) * Time.usU) ||
     (match d.run? h with | some r => decide (lap < r.firstLap) || r.skipped.contains lap | none => true) then d
  else (d.combInsts h).foldl (fun x i => if x.combHere h i lap && decide ((x.comb i lap).seq = 0) then x.combCheck h i lap true else x) d
/-- The combining device's finish line of a lap: a combine is due, which carries FINAL (R363). -/
def Device.combFinish (d : Device) (h lap : Nat) : Device :=
  if !d.racing || !d.spans h then d
  else (d.combInsts h).foldl (fun x i =>
    if x.combHere h i lap then (x.setComb i lap { x.comb i lap with due := true }).combCheck h i lap false else x) d
/-- A gather of a combine has ended. -/
def Device.combGathered (d : Device) (h inst lap : Nat) : Device :=
  (d.setComb inst lap { d.comb inst lap with busy := false }).combCheck h inst lap false
/-- A partial that has become complete is an operand of the combine it will serve, the next one of its lap (R212): none takes a version older than
one used. -/
def Device.partOperand (d : Device) (p : Part) : Device :=
  let c := d.comb p.inst p.lap
  let stale := match mget c.used p.member with | some v => decide (p.version ≤ v) | none => false
  if stale then d else d.operand p.inst p.lap (256 + c.seq) 3 id
/-- A fragment reaches the combining device. -/
def Device.partArrive (d : Device) (h inst lap mem ver flags frag nfrag : Nat) (b : List Byte) : Device :=
  let old := (d.rxl.parts.find? (partIs h inst lap mem ver)).getD ⟨h, inst, lap, mem, ver, flags, nfrag, []⟩
  let p := { old with frags := mset old.frags frag b }
  let d1 := d.setRxl { d.rxl with parts := d.rxl.parts.filter (fun x => !partIs h inst lap mem ver x) ++ [p] }
  if p.full then (((if old.full then d1 else d1.partOperand p)).combCheck h inst lap false).storeCheck else d1
/-- Partials and combines of laps that are over are gone, with the store entries no combine came to. -/
def Device.partPrune (d : Device) (h : Nat) : Device :=
  let live (i n : Nat) : Bool := (d.lap? h n).isSome || d.uncommitted i n ||
    decide (d.now < d.lapT h n + (heFinish (d.heatE h) + seWait (d.spanE h)) * Time.usU + Time.secU)
  let mine (k : Nat) : Bool := decide (ieHeat (d.instE (k / 2 ^ 64)) = h)
  let d1 := d.setRxl { d.rxl with parts := d.rxl.parts.filter (fun p => decide (p.heat ≠ h) || live p.inst p.lap),
                                  comb := d.rxl.comb.filter (fun c => !mine c.1 || live (c.1 / 2 ^ 64) (c.1 % 2 ^ 64)) }
  let stray (e : Entry) : Bool := decide (256 ≤ e.seq ∧ ieHeat (d.instE e.inst) = h) && e.trig.isNone && !isFw e.inst && !live e.inst e.lap
  if d1.srt.store.any stray then ((d1.setSrt { d1.srt with store := d1.srt.store.filter (fun e => !stray e) }).storeShow 3).reoffer else d1

/-- A PARTIAL payload (R363). -/
def partPayload (h inst lap ver flags frag nfrag pos : Nat) (b : List Byte) : List Byte :=
  leBytes [w32 lap, w32 (lap / 4294967296 % 65536 * 65536 + ver * 256 + flags * 8), w32 (h * 4194304 + inst * 1024),
           w32 (frag * 16777216 + nfrag * 65536 + pos)] ++ b
/-- A partial's bytes cut to a frame: whole element entries of 12 bytes, or a summary at words. -/
def Device.partCut (d : Device) (dev : Nat) (sum : Bool) (b : List Byte) : List (List Byte) :=
  let m := d.rxlMax dev - 16
  let n := if sum then m / 4 * 4 else m / 12 * 12
  match chunks (max n 12) (b.length + 1) b with
  | [] => [[]]
  | l => l
/-- Whether a partial can be sent now (R350): class 1 of the link toward the combining device has room. -/
def Device.partRoom (d : Device) (h : Nat) (sum : Bool) (b : List Byte) : Bool :=
  let dev := d.combDev h
  if dev = d.self then true
  else match d.routeTo dev with
    | some l => d.linkRoom l 1 (d.partCut dev sum b).length
    | none => true
/-- Send a partial to the combining device. -/
def Device.partSend (d : Device) (h inst lap ver flags : Nat) (sum : Bool) (b : List Byte) : Device :=
  let dev := d.combDev h
  let pos := (d.selfPos h).getD 0
  if dev = d.self then d.partArrive h inst lap pos ver flags 0 1 b
  else
    let cs := d.partCut dev sum b
    cs.zipIdx.foldl (fun x c => x.rxlOwn 4 dev (partPayload h inst lap ver flags c.2 cs.length pos c.1)) d

/-- A journaled combine (R363): its task waits for the same partials. -/
def Device.applyCombine (d : Device) (h inst lap seq flags : Nat) (used : NMap Nat) : Device :=
  let fl (i : Nat) : Bool := flags.testBit i
  let t : Tok := ⟨h, lap, .combine, seq, 0, fl 7, fl 6, fl 5, fl 4, fl 7⟩
  let d1 := d.setComb inst lap { seq := seq + 1, used := used, busy := false, due := false }
  let d2 := (d1.countN RXL_PART_MISSING (seNmem (d.spanE h) - used.length)).count RXL_COMBINES
  d2.entryFill inst lap (256 + seq) 3 (fun e =>
    { e with trig := some t, data := used.map (fun u => KData.part u.1 u.2 []), hist := if seq = 0 then e.hist else d2.incoming? inst lap })

end Sys2Proof.Machine
end

