-- ==== Sys2Proof/Machine/Engine.lean ====
section
/-!
DEFINITION. Tasks on the engines (spec/04, spec/07): placement (R220 to R222), gather, compute and commit (R124, R224), the runs of every
kernel and their output blocks (R137 to R139), residue mismatches, retries and quarantine (R129 to R133, R151), instance timers (R217), and the
producers held for want of a store entry (R215, R227).
-/
namespace Sys2Proof.Machine

/-! Placement (R222). -/

def Device.engTasks (d : Device) (e : Nat) : List Task := d.srt.flight.filter (fun t => t.eng = e)
/-- The engine may take a task: it is ACTIVE with fewer than 8, and no retry returns to it (R222). -/
def Device.engOpen (d : Device) (bar : Option Nat) (e : Nat) : Bool :=
  d.active uENGINE e && decide ((d.engTasks e).length < 8) && decide (bar ≠ some e)
def engsOf (c : Nat) : List Nat := (List.range 8).map (fun k => 8 * c + k)
/-- A retry has another ACTIVE cluster than the one it failed on. -/
def Device.otherCluster (d : Device) (t : Task) : Bool :=
  (List.range 12).any (fun c => decide (c ≠ t.failedEng / 8) && d.active uCLUSTER c)
/-- The engine a retry is kept from, where it has to stay in its cluster. -/
def Device.barred (d : Device) (t : Task) : Option Nat := if t.retry && !d.otherCluster t then some t.failedEng else none
def Device.taskClass (d : Device) (t : Task) : Nat := ieClass (d.instE t.e.inst)
def Device.pinned (d : Device) (t : Task) (c : Nat) : Bool := (d.f SRT_PIN.MASK (d.taskClass t)).testBit c
/-- A pin with an ACTIVE cluster holds; without one it is overridden. -/
def Device.pinHolds (d : Device) (t : Task) : Bool := (List.range 12).any (fun c => d.pinned t c && d.active uCLUSTER c)
def Device.pinEn (d : Device) (t : Task) : Bool := !isFw t.e.inst && d.fb SRT_PIN.EN (d.taskClass t)
def Device.overrides (d : Device) (t : Task) : Bool := d.pinEn t && !d.pinHolds t && !t.overridden
/-- Clusters a task may go to. -/
def Device.allowed (d : Device) (t : Task) : List Nat :=
  let bar := d.barred t
  (List.range 12).filter (fun c => d.active uCLUSTER c && (engsOf c).any (d.engOpen bar) &&
    !(t.retry && d.otherCluster t && decide (c = t.failedEng / 8)) && (!(d.pinEn t && d.pinHolds t) || d.pinned t c))
/-- Free engine slots of a cluster. -/
def Device.freeSlots (d : Device) (c : Nat) : Nat :=
  ((engsOf c).map (fun e => if d.active uENGINE e then 8 - (d.engTasks e).length else 0)).sum
/-- The first element of greatest measure. -/
def firstMax (f : Nat → Nat) (l : List Nat) : Option Nat :=
  l.foldl (fun a x => match a with | some b => if f b < f x then some x else a | none => some x) none
/-- Where a task goes: its cluster and engine. A self-test goes to the engine it tests (log entry 74). -/
def Device.choose (d : Device) (t : Task) : Option (Nat × Nat) :=
  if isFw t.e.inst then
    let e := t.e.inst - 4096
    if (d.engTasks e).length < 8 then some (e / 8, e) else none
  else
    let al := d.allowed t
    let c? := match mget d.srt.home t.e.inst with
      | some h => if al.contains h then some h else firstMax d.freeSlots al
      | none => firstMax d.freeSlots al
    match c? with
    | none => none
    | some c => (firstMax (fun e => 8 - (d.engTasks e).length) ((engsOf c).filter (d.engOpen (d.barred t)))).map (fun e => (c, e))
/-- Tasks looked at whose pins give way count once (R222). -/
def Device.markOver (d : Device) (l : Nat) (seen : List Task) : Device :=
  let hit (t : Task) : Bool := seen.any (fun x => sameKey x.e t.e) && d.overrides t
  let n := ((d.queue l).filter hit).length
  (d.setSrt { d.srt with queues := mset d.srt.queues l ((d.queue l).map (fun t => if hit t then { t with overridden := true } else t)) }).countN
    SRT_PIN_OVERRIDE n
/-- Put a task on an engine: its entry is free, and its level's waiting entries and the PFA's tokens are looked at again. -/
def Device.putOn (d : Device) (l : Nat) (t : Task) (c e : Nat) : Device :=
  let d1 := d.dropEntry t.e
  let d2 := (d1.setQueue l ((d1.queue l).filter (fun x => !sameKey x.e t.e))).storeShow 1
  let d3 := (queueFill 512 l d2).count SRT_TASKS_PLACED
  let d4 := if t.retry then d3.count SRT_RETRY_PLACED else d3
  let d5 := match mget d4.srt.home t.e.inst with | some h => if h ≠ c then d4.count SRT_AWAY else d4 | none => d4
  let d6 := if d.pinEn t && !d.pinHolds t then
      let k := d.taskClass t
      let x := d5.raiseSec (mget d5.srt.pinSec k) EV_SRT_PIN_OVERRIDE [k, c]
      x.setSrt { x.srt with pinSec := mset x.srt.pinSec k x.sec }
    else d5
  (d6.setFlight (d6.srt.flight ++ [{ t with phase := .gather, eng := e, overridden := t.overridden || (d.pinEn t && !d.pinHolds t) }])).reoffer
/-- Levels from `l - 1` down: the first task that can be placed is placed (R220). -/
def placeLevels (l : Nat) (d : Device) : Device :=
  match l with
  | 0 => d
  | k + 1 =>
    let q := d.queue k
    match q.findIdx? (fun t => (d.choose t).isSome) with
    | none => placeLevels k (d.markOver k q)
    | some i =>
      let d1 := d.markOver k (q.take (i + 1))
      match q[i]? with
      | none => d1
      | some t => match d.choose t with
        | some x => d1.putOn k t x.1 x.2
        | none => d1
/-- TASK_PLACE. -/
def taskPlace (d : Device) : Device := if d.lapsRun then placeLevels 8 d else d

/-! Gather (R124, R136, R444). -/

/-- What a task copies: words of records as (lane, record, word). -/
def Device.taskWords (d : Device) (t : Task) : List (Nat × Nat × Nat) :=
  let ie := d.instE t.e.inst
  let p := d.param ie
  let k := ieCode ie
  let ofRefs (l : List Word) : List (Nat × Nat × Nat) := l.map (fun r => (refLane r, wRef r))
  let all := if t.e.seq ≥ 256 then []
    else if k = kOSCDEC then ofRefs (odRefs p ++ (odBrs p).map (fun b => freqRef b.2.2.1))
    else if k = kISLIN ∨ k = kISLDET then
      ofRefs d.islRefs ++ d.islLanes.flatMap (fun l => (l, (0, 2)) :: (List.range ((leNdig (d.laneE l) + 1) / 2)).map (fun r => (l, r, 15)))
    else ofRefs (phasorRefs k p)
  (all.filter (fun x => leEn (d.laneE x.1) && decide (leHeat (d.laneE x.1) = ieHeat ie))).eraseDups
/-- A lane's words among them, each with its record's quality word. -/
def laneWords (ws : List (Nat × Nat × Nat)) (lane : Nat) : List (Nat × Nat) :=
  let l := (ws.filter (fun x => decide (x.1 = lane))).map (·.2)
  (wQual 0 :: l.map (fun w => wQual w.1) ++ l).eraseDups
/-- Records with only these words in them. -/
def keepWords (ws : List (Nat × Nat)) (recs : List (List Word)) : List (List Word) :=
  recs.zipIdx.map (fun r => r.1.zipIdx.map (fun w => if ws.contains (r.2, w.2 / 2) then w.1 else 0#32))
/-- Copy the quality words and the referenced signals of lanes, never whole records (R124): a lane with an uncorrectable word reads as if VALID
were clear (R460), so it is not among those copied. -/
def Device.gatherLanes (d : Device) (h n : Nat) (bad : List Nat) (ws : List (Nat × Nat × Nat)) : Gathered × Device :=
  (ws.map (·.1)).eraseDups.foldl (fun (x : Gathered × Device) lane =>
    let mine := laneWords ws lane
    let d1 := x.2.gsTouch h n lane mine
    if x.2.gsLost h n lane mine then (x.1, d1)
    else if bad.contains lane then
      (x.1, match x.2.gsLocs h n lane mine with | l :: _ => d1.memUe 0 l.2 (Config.memIdx 0 l.1) false | [] => d1)
    else match d1.lapRecs h n lane with
      | some recs => (x.1 ++ [(lane, keepWords mine recs)], d1)
      | none => (x.1, d1)) ([], d)
def isTask (inst lap seq : Nat) (t : Task) : Bool := entIs inst lap seq t.e && !isFw t.e.inst
def Device.task? (d : Device) (inst lap seq : Nat) : Option Task := d.srt.flight.find? (isTask inst lap seq)
def Device.putTask (d : Device) (t : Task) : Device :=
  d.setSrt { d.srt with flight := d.srt.flight.map (fun x => if sameKey x.e t.e then t else x) }
def Device.dropTask (d : Device) (t : Task) : Device :=
  (d.setSrt { d.srt with held := d.srt.held.filter (fun x => decide (x ≠ HeldProd.commit t.e.inst t.e.lap t.e.seq)) }).setFlight
    (d.srt.flight.filter (fun x => !sameKey x.e t.e))
/-- Where a task's operands lie in its engine's local memory. -/
def lmLoc (t : Task) : Nat := t.eng * 4294967296 + t.e.inst
/-- What follows when a task has gathered, or will not: its token's gather may be done (R102, R224), and an anchor's combine may follow. -/
def Device.gatherCheck (d : Device) (t : Task) : Device :=
  match t.e.trig with
  | none => d
  | some k =>
    if k.kind = .combine then d.combGathered k.heat t.e.inst k.lap
    else if k.kind = .release ∨ k.kind = .amend then
      match d.lap? k.heat k.lap with
      | some l =>
        if l.seq = k.seq ∧ !l.gathered ∧ l.fencing.isNone ∧ d.tokGathered k.heat k.lap k.seq then (d.setLap { l with gathered := true }).lapNext k.heat k.lap
        else d
      | none => d
    else d
/-- Streams and channels a timer kernel reads: the ports whose ingress marks must have passed its instant (R444). -/
def Device.timerPorts (d : Device) (ie : List Word) : List Nat :=
  let p := d.param ie
  let k := ieCode ie
  let sts := if k = kVPMU then [bx (wd p 0) 17 0]
    else if k = kSSODET then (List.range (ssNch p)).filterMap (fun c => if bit (wd p (4 + c)) 31 then none else some (bx (wd p (4 + c)) 23 6))
    else []
  (sts.flatMap (fun s => (List.range 8).filter (fun q => bit (wd (d.ent tSignal s) 0) (16 + q)))).eraseDups
def Device.samplesSettled (d : Device) (t : Task) : Bool :=
  (d.timerPorts (d.instE t.e.inst)).all (fun q => decide (t.e.tAt ≤ d.mark q)) || !d.racing

/-! Runs. -/

/-- What a run gives: the block's values, where it commits a block; NEXCL and UNSETTLED; the state it passes on; what it did to the device,
and what it does after its block has been published. -/
structure Ran where
  vals : Option (List Word)
  nexcl : Nat
  unset : Bool
  hist : Option KState
  dev : Device
  after : Device → Device

/-- A partial a run sends (R362, R365): the instance it names, its flags, whether it is a regional summary, and its bytes. -/
structure PartOut where
  inst : Nat
  flags : Nat
  sum : Bool
  bytes : List Byte

def elemBytes (e : Nat × Elem) : List Byte :=
  leBytes [w32 (b2n e.2.excl * 2147483648 + b2n e.2.unset * 1073741824 + e.1), e.2.v0, e.2.v1]
def elemOf (ws : List Word) : Nat × Elem := (bx (wd ws 0) 17 0, ⟨bit (wd ws 0) 31, bit (wd ws 0) 30, wd ws 1, wd ws 2⟩)
def Device.taskG (_d : Device) (t : Task) : Gathered := if t.fault then [] else t.gathered.getD []
def tokNone : Tok := ⟨0, 0, .timer, 0, 0, false, false, false, false, false⟩
def Task.tok (t : Task) : Tok := t.e.trig.getD tokNone
/-- FINAL of a run's block (R137). -/
def Device.finalOf (d : Device) (t : Task) : Bool :=
  if t.e.seq ≥ 256 then t.tok.final else !ieAmends (d.instE t.e.inst) || t.tok.final

/-- A member's partial of a partial-capable kernel but ISLDET: the elements whose lane it holds. -/
def Device.memberPart (d : Device) (t : Task) : PartOut :=
  let ie := d.instE t.e.inst
  let es := (phasorElems (ieCode ie) (d.param ie) (exclCfg ie) (d.taskG t)).zipIdx.filter (fun e => d.holds e.1.1 t.e.lap)
  let fl := partFlags t.tok.relEarly t.tok.complete (d.finalOf t) t.tok.late (es.any (fun e => e.1.2.unset))
  ⟨t.e.inst, fl, false, es.flatMap (fun e => elemBytes (e.2, e.1.2))⟩
/-- The ISLSUM instance of a heat. -/
def Device.islsum? (d : Device) (h : Nat) : Option Nat :=
  (d.insts.find? (fun e => decide (ieHeat e.2 = h ∧ ieCode e.2 = kISLSUM))).map (·.1)
/-- A regional summary. -/
def Device.islPart (d : Device) (t : Task) (o : IslOut) : Option PartOut :=
  let h := ieHeat (d.instE t.e.inst)
  match (if d.spans h && !t.fault then d.islsum? h else none) with
  | none => none
  | some s =>
    let ws := match d.bankAt t.e.lap with
      | some b => islSummaryWords (d.graph b) (islKeys (d.param (d.instE s))) o
      | none => islSummaryWords graphNone (islKeys (d.param (d.instE s))) o
    some ⟨s, partFlags t.tok.relEarly t.tok.complete (d.finalOf t) t.tok.late o.unset, true, leBytes ws⟩
/-- The partial a task would send at its commit. -/
def Device.partOf (d : Device) (t : Task) : Option PartOut :=
  let i := t.e.inst
  if d.combined i && decide (t.e.seq < 256) then some (d.memberPart t)
  else if ieCode (d.instE i) = kISLDET && d.spans (ieHeat (d.instE i)) then
    d.islPart t (d.isldetCommit i t.e.lap (decide (t.e.seq = 0)) (d.taskG t) t.e.hist).1
  else none
/-- It can be sent. -/
def Device.partReady (d : Device) (t : Task) : Bool :=
  match d.partOf t with
  | some p => d.partRoom (ieHeat (d.instE t.e.inst)) p.sum p.bytes
  | none => true
def Device.sendPart (d : Device) (t : Task) (p : PartOut) : Device :=
  d.partSend (ieHeat (d.instE t.e.inst)) p.inst t.e.lap t.e.seq p.flags p.sum p.bytes

/-- The partials a combine uses, in ascending member position. -/
def Device.usedParts (d : Device) (t : Task) : List Part :=
  t.e.data.filterMap (fun x => match x with
    | .part m v _ => d.rxl.parts.find? (fun p => decide (p.inst = t.e.inst ∧ p.lap = t.e.lap ∧ p.member = m ∧ p.version = v))
    | _ => none)
/-- Elements placed by index: the lowest member position stands; the number reported twice. -/
def placeElems (ps : List Part) : NMap Elem × Nat :=
  ps.foldl (fun m p => ((chunks 3 (p.bytes.length + 1) (leWords (p.bytes.length + 1) p.bytes)).map elemOf).foldl (fun (x : NMap Elem × Nat) e =>
    match mget x.1 e.1 with
    | some _ => (x.1, x.2 + 1)
    | none => (mset x.1 e.1 e.2, x.2)) m) ([], 0)
/-- A combine at the anchor (R363, R365). -/
def Device.runCombine (d : Device) (t : Task) : Ran :=
  let i := t.e.inst
  let ie := d.instE i
  let p := d.param ie
  let h := ieHeat ie
  let ps := d.usedParts t
  if ieCode ie = kISLSUM then
    ⟨some (islsumVals (heNom60 (d.heatE h)) (ps.map (fun x => (x.member, leWords (x.bytes.length + 1) x.bytes)))), 0,
     ps.any (fun x => x.flags.testBit 0), none, d, id⟩
  else
    let m := placeElems (if t.fault then [] else ps)
    let es := (List.range (phasorRefs (ieCode ie) p).length).map (fun k => mgetD m.1 k elemNone)
    let v := elemVals (ieCode ie) p es (d.rate h) (d.gapOf i t.e.lap) t.e.hist
    ⟨some v.1, (es.filter (·.excl)).length, es.any (fun e => !e.excl && e.unset), v.2, d.countN RXL_PART_DUP m.2, id⟩

/-- OSCDEC (R156 to R159). -/
def Device.runOscdec (d : Device) (t : Task) : Ran :=
  let i := t.e.inst
  let ie := d.instE i
  let n := t.e.lap
  let r := oscRun i (d.param ie) (exclCfg ie) (d.rate (ieHeat ie)) n (d.gapOf i n) d.now (d.taskG t) t.e.hist
  let d1 := match r.drops with
    | [] => d
    | x :: _ =>
      let y := (d.countN OSM_SIG_DROPS r.drops.length).raiseSec d.osm.sigDropSec EV_OSM_SIG_DROP [i, x]
      y.setOsm { y.osm with sigDropSec := some y.sec }
  ⟨if r.samples.isEmpty then none else some [], r.nexcl, r.unset, some r.hist, d1, fun x => r.samples.foldl (fun y s => y.osmSample s) x⟩
/-- OSCMON, FODET and DEFLOC (R164 to R180): what is dropped at their sample stands in NEXCL. -/
def Device.runOsm (d : Device) (t : Task) : Ran :=
  let i := t.e.inst
  let c := ieCode (d.instE i)
  let k := t.e.lap / d.osmD i
  let g := d.osmGather (if c = kDEFLOC then d.oscsFor (d.param (d.instE i)) else d.oscs) k
  if c = kOSCMON then
    let r := d.osmAbsorb k
    ⟨r.1, g.sigs + g.brs, g.unset, none, r.2, fun x => x.osmAfter k⟩
  else if c = kFODET then
    let v := d.osm.foPend.head?
    let r := d.foCommit
    ⟨some r.1, (v.map (·.nexcl)).getD 0, (v.map (·.unset)).getD false, none, r.2, fun x => (x.outOperand (.output i k)).osmPrune⟩
  else
    let r := d.defCommit i k
    ⟨some r.1, g.sigs + g.brs, g.unset, none, r.2, fun x => (x.osmState_ i k).osmPrune⟩
/-- VPMU and LPMU (R144 to R148): the record goes the way of an ordinary arrival. After a failed retry none is written. -/
def Device.runPmu (d : Device) (t : Task) : Ran :=
  let i := t.e.inst
  let ie := d.instE i
  let n := t.e.lap
  let vp := decide (ieCode ie = kVPMU)
  let r := d.pmuRun vp (d.param ie) (ieHeat ie) n t.e.tAt
  let unset := bit (recQR r.recs) qUNSETTLED
  if t.fault then ⟨some [], 0, false, none, d, id⟩
  else
    let d1 := d.count PAC_VPMU_REC
    let d2 := if r.valid then d1 else d1.count PAC_VPMU_INVALID
    let d3 := if r.gaps = 0 then d2 else
      let x := d2.raiseSec (mget d2.pac.gapSec i) EV_PAC_VPMU_GAP [i, r.gaps]
      x.setPac { x.pac with gapSec := mset x.pac.gapSec i x.sec }
    ⟨some [], 0, unset, none, d3, fun x => (x.deliver false [⟨r.lane, n, x.now, r.recs⟩]).2⟩
/-- SSODET (R181, R182). -/
def Device.runSso (d : Device) (t : Task) : Ran :=
  let i := t.e.inst
  let ie := d.instE i
  let n := t.e.lap
  let p := d.param ie
  let r := d.ssoRun p (ieHeat ie) n (d.gapOf i n) t.e.tAt t.e.hist
  let d1 := d.count OSM_SSO_RUNS
  let d2 := match r.2.1 with
    | [] => d1
    | c :: _ =>
      let x := (d1.countN OSM_SSO_GAP r.2.1.length).raiseSec (mget d1.osm.ssoSec i) EV_OSM_SSO_GAP [i, c]
      x.setOsm { x.osm with ssoSec := mset x.osm.ssoSec i x.sec }
  ⟨some r.1, 0, d.ssoUnset p (d.lapT (ieHeat ie) n) t.e.tAt, some r.2.2, d2, id⟩
/-- ISLDET (R195 to R206): after a failed retry only its history moves on. -/
def Device.runIsldet (d : Device) (t : Task) : Ran :=
  let i := t.e.inst
  let r := d.isldetCommit i t.e.lap (decide (t.e.seq = 0)) (d.taskG t) t.e.hist
  if t.fault then ⟨some [], 0, false, some r.1.hist, if t.e.seq = 0 then d.swapAtRun i t.e.lap else d, id⟩
  else ⟨some r.1.vals, r.1.nexcl, r.1.unset, some r.1.hist, r.2, fun x => match d.islPart t r.1 with | some p => x.sendPart t p | none => x⟩
/-- A phasor-family kernel on one device. -/
def Device.runPhasor (d : Device) (t : Task) : Ran :=
  let ie := d.instE t.e.inst
  let n := t.e.lap
  let r := phasorRun (ieCode ie) (d.param ie) (exclCfg ie) (d.taskG t) (d.rate (ieHeat ie)) (d.gapOf t.e.inst n) t.e.hist
  ⟨some r.vals, r.nexcl, r.unset, r.hist, d, id⟩
/-- The run of a task (R137, R140; Tables 4.4, 5.1, 6.1). -/
def Device.runTask (d : Device) (t : Task) : Ran :=
  let i := t.e.inst
  let k := ieCode (d.instE i)
  if t.e.seq ≥ 256 then d.runCombine t
  else if d.combined i then ⟨none, 0, false, none, d.sendPart t (d.memberPart t), id⟩
  else if k = kOSCDEC then d.runOscdec t
  else if k = kOSCMON ∨ k = kFODET ∨ k = kDEFLOC then d.runOsm t
  else if k = kVPMU ∨ k = kLPMU then d.runPmu t
  else if k = kSSODET then d.runSso t
  else if k = kISLIN then ⟨some [], 0, false, none, d.islinCommit i t.e.lap (d.taskG t),
    fun x => (x.contribute (ieHeat (d.instE i)) t.e.lap).storeCheck⟩
  else if k = kISLDET then d.runIsldet t
  else d.runPhasor t

/-! Commits (R139, R224). -/

/-- The output block of a run (Table 4.3). -/
def Device.blockOf (d : Device) (t : Task) (r : Ran) (vals : List Word) : Block :=
  let ie := d.instE t.e.inst
  let osm := osmKernel (ieCode ie)
  let nexcl := if t.fault then 0 else r.nexcl
  { inst := t.e.inst, heat := ieHeat ie, lap := t.e.lap, seq := t.e.seq % 256, early := t.tok.relEarly,
    complete := if osm then decide (r.nexcl = 0) else t.tok.complete, final := d.finalOf t, late := t.tok.late,
    unsettled := r.unset && !t.fault, fault := t.fault, nexcl := nexcl,
    vals := if t.fault then List.replicate (ieNout ie) fNaN else vals }
/-- Publish a run's block. -/
def Device.commitBlock (d : Device) (t : Task) (r : Ran) : Device :=
  match r.vals with
  | none => d
  | some vs =>
    let b := d.blockOf t r vs
    ((d.count PAC_TASKS_DONE).countN PAC_OUT_NAN (b.vals.filter fIsNaN).length).publish b
/-- A RELEASE run, or the first combine, passes its state to the next lap (R138, R363). -/
def Device.passState (d : Device) (t : Task) (r : Ran) : Device :=
  let i := t.e.inst
  match r.hist, d.run? (ieHeat (d.instE i)) with
  | some st, some x =>
    let m := d.nextRunLap i t.e.lap
    if t.e.seq = d.histSeq i && (x.enabled || decide (m < x.nextLap)) then d.stateArrive i m st else d
  | _, _ => d
/-- Re-issues that waited for this commit (R137). -/
def Device.reissueWaiting (d : Device) (inst lap : Nat) : Device :=
  let mine (r : Nat × Nat × Nat × Bool) : Bool := decide (r.1 = inst ∧ r.2.2.1 = lap)
  match d.pac.reissue.find? mine with
  | none => d
  | some r =>
    if d.uncommitted inst lap then d
    else
      let d1 := (d.setPac { d.pac with reissue := d.pac.reissue.filter (fun x => !mine x) }).reissueNow inst lap
      if (d1.lap? r.2.1 lap).isSome then d1 else d1.setPac { d1.pac with lapBlocks := mdel d1.pac.lapBlocks (ilKey inst lap) }
/-- The commit of a task in one step. -/
def Device.commitNow (d : Device) (t : Task) : Device :=
  let i := t.e.inst
  let h := ieHeat (d.instE i)
  let d0 := (d.dropTask t).count SRT_TASKS_DONE
  let d1 := if t.tok.kind = .amend then d0.count PAC_TASK_AMEND else d0
  let d2 := if t.fault then (d1.count PAC_RETRY_FAIL).raise EV_PAC_RETRY_FAIL [t.eng, i, h, t.e.lap] else d1
  let r := d2.runTask t
  let d3 := (r.dev).commitBlock t r
  ((r.after d3).passState t r).reissueWaiting i t.e.lap
/-- A task with a lower AMEND_SEQ of the same instance and lap has not committed (R224). -/
def Device.lowerLive (d : Device) (e : Entry) : Bool :=
  let low (x : Entry) : Bool := decide (x.inst = e.inst ∧ x.lap = e.lap ∧ x.seq < e.seq ∧ (256 ≤ x.seq ↔ 256 ≤ e.seq))
  d.srt.store.any (fun x => low x && x.trig.isSome) || d.liveTasks.any (fun t => low t.e)
/-- A commit that would need an entry the store has not, or room in a send buffer, waits with its slot (R215, R350). -/
def Device.commitFits (d : Device) (t : Task) : Bool :=
  let d1 := d.commitNow t
  (decide (d1.storeUsed ≤ 4096) || decide (d1.storeUsed ≤ d.storeUsed)) && d.partReady t
def Device.commitHold (d : Device) (t : Task) : Device :=
  (d.putTask { t with phase := .commitHeld }).setSrt
    { (d.putTask { t with phase := .commitHeld }).srt with held := d.srt.held ++ [.commit t.e.inst t.e.lap t.e.seq] } |>.count SRT_ENG_HELD
/-- Commit a task, then the tasks that waited for it. -/
def commitChain (fuel : Nat) (d : Device) (t : Task) : Device :=
  match fuel with
  | 0 => d
  | k + 1 =>
    if d.lowerLive t.e then (d.putTask { t with phase := .commitWait }).count SRT_COMMIT_HOLD
    else if !d.commitFits t then d.commitHold t
    else
      let d1 := d.commitNow t
      match d1.srt.flight.find? (fun x => decide (x.phase = .commitWait ∧ x.e.inst = t.e.inst ∧ x.e.lap = t.e.lap) && !d1.lowerLive x.e) with
      | some x => commitChain k d1 x
      | none => d1
/-- A finished task. -/
def Device.finishTask (d : Device) (t : Task) : Device := (commitChain 512 d t).gatherCheck t

/-! Mismatches (R129 to R133, R151). -/

def Device.setEng (d : Device) (e : Nat) (x : Eng) : Device := d.setPac { d.pac with eng := mset d.pac.eng e x }
/-- PAC_SUSPECT, PAC_QUAR and the unit states of an engine. -/
def Device.engShow (d : Device) (e : Nat) : Device :=
  let x := d.eng e
  let d1 := d.wr PAC_SUSPECT (e / 32) (bset (d.rg PAC_SUSPECT (e / 32)) (e % 32) (e % 32) (b2n (x.suspect && !x.quar)))
  (d1.wr PAC_QUAR (e / 32) (bset (d1.rg PAC_QUAR (e / 32)) (e % 32) (e % 32) (b2n x.quar))).engRefresh e
/-- Mismatches of an engine not older than 3,600 s. -/
def Device.recentMism (d : Device) (e : Nat) : List Time := (d.eng e).mism.filter (fun t => decide (d.tk.now ≤ t + 3600 * Time.secU))
/-- A mismatch is recorded against an engine; the third within 3,600 s quarantines it. -/
def Device.engMismatch (d : Device) (e : Nat) : Device :=
  let ms := d.recentMism e ++ [d.tk.now]
  let x := d.eng e
  let quar := x.quar || decide (ms.length ≥ 3)
  let d1 := (d.setEng e { x with mism := ms, quar := quar, suspect := true, lastSec := Time.secOf d.tk.now }).wr PAC_ENG_LAST e (w32 (Time.secOf d.tk.now))
  let d2 := if quar && !x.quar then
      (d1.count PAC_QUAR_EVENTS).raise EV_PAC_QUARANTINE (e :: (ms.drop (ms.length - 3)).map Time.secOf) else d1
  d2.engShow e
/-- A task leaves its engine without committing: it is retried with what it gathered, or gathers afresh (R129, R132). -/
def Device.retryTask (d : Device) (t : Task) : Device :=
  ((d.dropTask t).count PAC_RETRIES).queueHead { t with phase := .queued, retry := true, failedEng := t.eng }
def Device.moveTask (d : Device) (t : Task) : Device :=
  if t.gathered.isSome && decide (t.phase ≠ .gather) then d.retryTask t
  else (d.dropTask t).queueHead { t with phase := .queued, returned := true, failedEng := if t.retry then t.failedEng else t.eng }
/-- Tasks on engines observed failed are moved (R132, R230). -/
def Device.moveFailed (d : Device) : Device :=
  (d.srt.flight.reverse.filter (fun t => !d.unitUsable uENGINE t.eng && !isFw t.e.inst)).foldl (fun x t => x.moveTask t) d
/-- A mismatch aborts a task: a first one is retried, a retry fails (R129, R131). -/
def Device.abortTask (d : Device) (t : Task) : Device :=
  if t.retry then
    let t1 := { t with fault := true, phase := Phase.compute, gathered := some (t.gathered.getD []) }
    (d.putTask t1).finishTask t1
  else d.retryTask t
/-- A unit in EV_PAC_MISMATCH: the codes of Table 4.16; the two units it does not code have a free value (log entry 76). -/
def unitDatum (unit : Nat) : Nat := if unit < 4 then unit else (Config.unitCode unit).toNat
/-- RESIDUE_MISMATCH in a unit while the task runs: 0 integer adder, 1 mantissa multiplier, 2 accumulator, 3 shifter parity, 4 integer multiplier,
5 exponent adder (R128). `inj` tells the mismatch that PAC_RES_INJ armed, which reaches units 0 to 3. -/
def residueMismatch (inst lap seq unit : Nat) (inj : Bool) (d : Device) : Device :=
  match d.task? inst lap seq with
  | none => d
  | some t =>
    let armed := d.fb PAC_RES_INJ.ARM && decide (d.f PAC_RES_INJ.ENG = t.eng ∧ d.f PAC_RES_INJ.UNIT = unit)
    if !(t.phase = .gather ∨ t.phase = .compute) || decide (unit > 5) || (inj && !armed) then d
    else
      let d1 := if unit = 3 then d.count PAC_SHIFT_PARITY else d.count PAC_RES_MISMATCH
      let d2 := d1.raise EV_PAC_MISMATCH [t.eng, unitDatum unit, inst, ieHeat (d.instE inst), lap]
      let d3 := if inj then (d2.setf PAC_RES_INJ.ARM 0).count PAC_INJ_HITS else d2
      let d4 := if inj && d.fb PAC_RES_INJ.NOQ then d3 else d3.engMismatch t.eng
      (d4.abortTask t).moveFailed
/-- An uncorrectable word of local memory aborts the task as a mismatch does, uncounted in PAC_RES_MISMATCH (R460). -/
def Device.lmError (d : Device) (t : Task) (eng : Nat) (quiet : Bool) : Device :=
  let d1 := d.memUe 1 eng (Config.memIdx 1 (lmLoc { t with eng := eng })) quiet
  ((if quiet then d1 else d1.engMismatch eng).abortTask t).moveFailed

/-- TASK_GATHER_DONE. `bad` are lanes whose records are met with a natural uncorrectable error; `ue` the same in the local memory a retry
copies from. -/
def taskGatherDone (inst lap seq : Nat) (bad : List Nat) (ue : Bool) (d : Device) : Device :=
  match d.task? inst lap seq with
  | none => d
  | some t =>
    if t.phase ≠ .gather ∨ !d.lapsRun ∨ !d.samplesSettled t then d
    else match t.gathered with
      | some _ =>
        let src := lmLoc { t with eng := t.failedEng }
        if t.retry && (ue || decide (d.badAt 1 src = 2)) then
          ((d.memClean 1 src).lmError t t.failedEng (!ue && (mgetD d.mem.bad (badKey 1 src) ⟨0, false⟩).quiet))
        else (if t.retry then (d.memRead 1 src t.failedEng).memClean 1 (lmLoc t) else d).putTask { t with phase := .compute }
      | none =>
        let r := d.gatherLanes (ieHeat (d.instE inst)) lap bad (d.taskWords t)
        let t1 := { t with phase := Phase.compute, gathered := some r.1 }
        ((r.2.putTask t1).memClean 1 (lmLoc t)).gatherCheck t1
/-- TASK_COMMIT. `ue` tells an uncorrectable error of local memory met while the task computed: the operand word stays as found, so that the
retry's copy of it fails (R131). -/
def taskCommit (inst lap seq : Nat) (ue : Bool) (d : Device) : Device :=
  match d.task? inst lap seq with
  | none => d
  | some t =>
    if t.phase ≠ .compute ∨ !d.lapsRun then d
    else
      let b := mget d.mem.bad (badKey 1 (lmLoc t))
      let bad := match b with | some x => decide (x.kind = 2) | none => false
      let quiet := match b with | some x => x.quiet | none => false
      if ue || bad then (d.memMark 1 (lmLoc t) 2 (quiet && !ue)).lmError t t.eng (quiet && !ue)
      else ((d.memRead 1 (lmLoc t) t.eng).finishTask t).moveFailed
/-- ENGINE_SUSPECT_EXPIRY: every mismatch of a suspect engine is older than 3,600 s. -/
def engineSuspectExpiry (e : Nat) (d : Device) : Device :=
  let x := d.eng e
  if e ≥ 96 ∨ !x.suspect ∨ x.quar ∨ !(d.recentMism e).isEmpty then d else (d.setEng e { x with suspect := false, mism := [] }).engShow e
/-- A write of PAC_ENG_CLR. -/
def pacEngClr (v : Word) (d : Device) : Device :=
  let e := bx v 7 0
  if !d.alive || !bit v 31 then d
  else if e ≥ 96 ∨ !(d.eng e).quar ∨ d.fb PAC_CLR_STAT.BUSY then d.setf PAC_CLR_STAT.ERR 1
  else (((d.setPac { d.pac with testing := some e }).setf PAC_CLR_STAT.BUSY 1).setf PAC_CLR_STAT.ENG e).strideSubmit (4096 + e)
/-- SELF_TEST_DONE. -/
def selfTestDone (pass : Bool) (d : Device) : Device :=
  match d.pac.testing with
  | none => d
  | some e =>
    let d1 := (((d.setPac { d.pac with testing := none }).setf PAC_CLR_STAT.BUSY 0).setf PAC_CLR_STAT.PASS (b2n pass)).strideEnd (4096 + e)
    let d2 := if pass then (d1.setEng e { d1.eng e with mism := [], quar := false, suspect := false }).engShow e else d1
    (d2.raise EV_PAC_CLR_DONE [e, b2n pass]).reoffer
/-- A write of PAC_RES_INJ: ARM sets, the other fields are written. -/
def resInjWrite (v : Word) (d : Device) : Device :=
  if !d.alive then d
  else
    let arm := bit v 31 || d.fb PAC_RES_INJ.ARM
    d.wr PAC_RES_INJ 0 (bset (v &&& 0x700000FF#32) 31 31 (b2n arm))

/-! Instance timers and held producers (R215, R217, R227). -/

def Device.timerInsts (d : Device) (h off : Nat) : List Nat :=
  d.insts.filterMap (fun e => if ieHeat e.2 = h ∧ ieTrig e.2 = 1 ∧ ieOffset e.2 = off ∧ d.runsHere h (ieCode e.2) then some e.1 else none)
/-- The token of a timer makes its tasks, with its scheduled instant. -/
def Device.timerToken (d : Device) (t : Timer) (off : Nat) : Device :=
  let at_ := d.lapT t.heat t.lap + off * Time.usU
  (d.timerInsts t.heat off).foldl (fun x i => x.operand i t.lap 0 2 (fun e =>
    { e with trig := some { tokNone with heat := t.heat, lap := t.lap }, tAt := at_ })) d
/-- Entries the token would create. -/
def Device.timerNeed (d : Device) (t : Timer) (off : Nat) : Nat := ((d.timerInsts t.heat off).filter (fun i => (d.entry? i t.lap 0).isNone)).length
/-- INSTANCE_TIMER_EXPIRY. -/
def instanceTimerExpiry (h n off : Nat) (d : Device) : Device :=
  if !d.lapsRun then d
  else match d.dueIs h n (.inst off) with
    | none => d
    | some t =>
      let d1 := d.timerFire
      if d1.timerNeed t off ≤ d1.storeFree then (d1.timerToken t off).dropTimer t
      else (d1.setSrt { d1.srt with timers := d1.srt.timers.map (fun x => if x.order = t.order then { x with held := true } else x) }).count SRT_TIMER_HELD
def Device.resumeTimer (d : Device) (t : Timer) : Device :=
  match t.kind with
  | .inst off => if d.timerNeed t off ≤ d.storeFree then (d.timerToken t off).dropTimer t else d
  | _ => d
/-- A held commit goes on. -/
def Device.resumeCommit (d : Device) (inst lap seq : Nat) : Device :=
  match d.task? inst lap seq with
  | some t => if t.phase = .commitHeld ∧ d.commitFits t then (d.finishTask t).moveFailed else d
  | none => d
/-- A held combine is made. -/
def Device.resumeCombine (d : Device) (inst lap : Nat) : Device :=
  if d.storeFree = 0 then d
  else (d.setSrt { d.srt with held := d.srt.held.filter (fun x => decide (x ≠ HeldProd.combineIn inst lap)) }).combCheck (ieHeat (d.instE inst)) inst lap true

/-! Starter registers (R214, R229, Table 7.13). -/

/-- The store could not hold the RELEASE tasks of an enabled heat beside a reserve (R214). -/
def Device.rsvBad (d : Device) (rsv : Nat) : Bool :=
  decide (rsv > 2048) || d.pfa.heats.any (fun h => h.2.enabled && decide (d.tokNeed h.1 .release > 4096 - rsv))
/-- SRT_CFG_RSV_WRITE. -/
def srtCfgWrite (v : Word) (d : Device) : Device :=
  let rsv := bx v 11 0
  if !d.alive then d
  else if d.rsvBad rsv then d.setf SRT_STAT.CFG_ERR 1
  else (d.setf SRT_CFG.RSV rsv).reoffer
def srtPinWrite (v : Word) (d : Device) : Device :=
  if bit v 31 && (decide (bx v 15 12 ≠ 0) || decide (bx v 11 0 = 0)) then d.setf SRT_STAT.CFG_ERR 1
  else d.wr SRT_PIN (d.f SRT_PIN_SEL.CLASS) (v &&& 0x8000FFFF#32)
/-- SRT_UNIT_ADMIN_WRITE. -/
def srtUnitWrite (v : Word) (d : Device) : Device :=
  let t := d.f SRT_UNIT_SEL.TYPE
  let i := d.f SRT_UNIT_SEL.INDEX
  if !d.alive then d
  else if i ≥ unitCount t then d.setf SRT_STAT.CFG_ERR 1
  else
    let d1 := (d.setSrt { d.srt with admin := mset d.srt.admin (t * 4096 + i) (bit v 31) }).unitRefresh t i
    if t = uPORT then (d1.portQuiet i).linksRefresh else if t = uLANE then d1.linksRefresh else d1

/-! Lap events with what they bring on spanning heats (R355, R363, R364), and a disable with what it ends (R162). -/

/-- LAP_OPEN. -/
def lapOpenAll (h n : Nat) (d : Device) : Device :=
  match d.run? h with
  | none => d
  | some r =>
    if d.lapsRun && r.enabled && decide (r.firstLap ≠ 0) && (d.lap? h n).isNone && decide (n = r.nextLap) && decide (d.openT h n ≤ d.now) then
      lapOpen h n (((d.anchorLook h).spanOpen h n).partPrune h)
    else lapOpen h n d
/-- FINISH_LINE_EXPIRY. -/
def finishLineAll (h n : Nat) (d : Device) : Device :=
  if d.lapsRun && (d.dueIs h n .finish).isSome then ((finishLineExpiry h n d).combFinish h n).hurdleFinish h else d
/-- A heat's disable. -/
def Device.heatOff (d : Device) (h : Nat) : Device := ((d.heatStop h).osmHeatEnd h).storeCheck

end Sys2Proof.Machine
end

