-- ==== Sys2Proof/Machine/Convert.lean ====
section
/-!
DEFINITION. Streams and signals (spec/02): the fields of Tables 2.6 and 2.7 (R58, R61), the span of a lane's signal entries (R62), the mapping of
a time-stamp to a lap (R18), and the conversion of C37.118, GOOSE and SV values (R64, R70, R76, R79).
-/
namespace Sys2Proof.Machine

/-! Stream entries. -/
def stIs (e : List Word) : Bool := bx (wd e 0) 31 28 = 15
def stEn (e : List Word) : Bool := stIs e && bit (wd e 0) 15
def stProto (e : List Word) : Nat := bx (wd e 0) 27 24
def stPort (e : List Word) (p : Nat) : Bool := bit (wd e 0) (16 + p)
def stCfg3 (e : List Word) : Bool := bit (wd e 0) 14
def stFirst (e : List Word) : Nat := bx (wd e 0) 13 0
def stIdent (e : List Word) : Nat := bx (wd e 1) 31 16
def stCnt (e : List Word) : Nat := bx (wd e 1) 15 8
def stAlg (e : List Word) : Nat := bx (wd e 1) 7 5
def stMatch (e : List Word) : Nat := (wd e 2).toNat
def stBase (e : List Word) : Nat := bx (wd e 3) 23 0
def stConf (e : List Word) : Nat := bx (wd e 3) 31 16
def stKey (e : List Word) : Nat := bx (wd e 3) 11 0
/-- The enabled streams. -/
def Device.streams (d : Device) : List (Nat × List Word) := (d.ents tSignal).filter (fun e => stEn e.2)
def stLanes (e : List Word) : Bool := [0, 1, 3].contains (stProto e)
/-- The local indices of a stream's lanes, by SUB_IDX (R59). -/
def stLaneList (e : List Word) : List Nat := (List.range (stCnt e)).map (fun k => stFirst e + k)
/-- The enabled C37.118 or R-GOOSE stream whose range holds a lane (R62). -/
def Device.laneStream (d : Device) (lane : Nat) : Option (Nat × List Word) :=
  d.streams.find? (fun e => stLanes e.2 && decide (stFirst e.2 ≤ lane ∧ lane < stFirst e.2 + stCnt e.2))

/-! Signal entries. -/
def sgKind (e : List Word) : Nat := bx (wd e 0) 31 28
def sgFmt (e : List Word) : Nat := bx (wd e 0) 27 24
def sgSlot (e : List Word) : Nat := bx (wd e 0) 23 16
def sgPos (e : List Word) : Nat := bx (wd e 0) 15 0
def sgScale (e : List Word) : Word := wd e 1
def sgOfs (e : List Word) : Word := wd e 2
/-- The signal entries of a C37.118 lane: their number (R62). -/
def c37Span (e : List Word) : Nat := 3 + leNph e + leNana e + leNdig e
/-- The signal entries of an R-GOOSE lane: NDIG or more, one for each mapped member. The spec does not say where they end: here before the
first entry that is neither a digital word nor an unused position, and before another enabled lane's (DESIGN CHOICE, log entry 43). -/
def Device.gooseSpan (d : Device) (e : List Word) : Nat :=
  let base := leSig e
  let stops := (d.ents tLane).filterMap (fun x => if leEn x.2 && decide (base < leSig x.2) then some (leSig x.2) else none)
  let more := ((List.range 192).takeWhile (fun i =>
    let k := sgKind (d.ent tSignal (base + i))
    decide (k = 4 ∨ k = 14) && !stops.contains (base + i))).length
  max (leNdig e) more
/-- The signal entries of a lane. -/
def Device.laneSigs (d : Device) (base n : Nat) : List (List Word) := (List.range n).map (fun i => d.ent tSignal (base + i))

/-! Laps of a time-stamp. -/

/-- The lap of a rate nearest to `tai + frac / base` seconds, if within 25 us (R18). -/
def nearestLap (rate tai frac base : Nat) : Option Nat :=
  let b := max base 1
  let x := (tai * b + frac) * rate
  let n := (2 * x + b) / (2 * b)
  let dist := if x ≥ n * b then x - n * b else n * b - x
  if dist * 40000 ≤ b * rate then some n else none

/-! Conversion (R64). -/

/-- A big-endian field at a position, if it lies within the data. -/
def beAt (b : List Byte) (pos n : Nat) : Option Nat := if pos + n ≤ b.length then some (beNat (slice b pos n)) else none
def nanPh : Word × Word := (fNaN, fNaN)
/-- Rotate a phasor by OFFSET (R64): the complex product with (cos, sin) by two nested fused multiply-adds a part, from +0 (DESIGN CHOICE, log
entry 73). -/
def cRotate (ofs : Word) (p : Word × Word) : Word × Word :=
  if fIsZero ofs then p else cMac (fZero, fZero) (fCos ofs, fSin ofs) p
def cPolar (m a : Word) : Word × Word := (fMul m (fCos a), fMul m (fSin a))
def convPhasor (e : List Word) (b : List Byte) : Word × Word :=
  let p := sgPos e
  let sc := sgScale e
  let of_ := sgOfs e
  let w := if sgFmt e ≤ 1 then 2 else 4
  match beAt b p w, beAt b (p + w) w with
  | some x, some y =>
    match sgFmt e with
    | 0 => if x = 0x8000 ∨ y = 0x8000 then nanPh else cRotate of_ (fMul sc (fOfInt (s16 x)), fMul sc (fOfInt (s16 y)))
    | 1 => if y = 0x8000 then nanPh else cPolar (fMul sc (fOfNat x)) (fAdd (fMul (fOfInt (s16 y)) 0x38D1B717#32) of_)
    | 2 => cRotate of_ (fMul sc (w32 x), fMul sc (w32 y))
    | 3 => cPolar (fMul sc (w32 x)) (fAdd (w32 y) of_)
    | _ => nanPh
  | _, _ => nanPh
/-- SCALE x raw + OFFSET for a whole number, rounded once: an int32 raw value enters the fused multiply-add exactly, without a conversion to FP32
before it (DEDUCED, log entry 73). -/
def fmaInt (sc : Word) (raw : Int) (of_ : Word) : Word :=
  if fFinite sc && fFinite of_ then
    let v := fInt sc * raw + fInt of_
    roundInt v 0 (decide (raw < 0) != fSign sc && fSign of_)
  else fFma sc (fOfInt raw) of_
def convScalar (e : List Word) (b : List Byte) : Word :=
  match sgFmt e with
  | 4 => (match beAt b (sgPos e) 2 with | some x => if x = 0x8000 then fNaN else fFma (sgScale e) (fOfInt (s16 x)) (sgOfs e) | none => fNaN)
  | 5 => (match beAt b (sgPos e) 4 with | some x => fFma (sgScale e) (w32 x) (sgOfs e) | none => fNaN)
  | 7 => (match beAt b (sgPos e) 4 with | some x => fmaInt (sgScale e) (s32 (w32 x)) (sgOfs e) | none => fNaN)
  | _ => fNaN
/-- Place one signal of a C37.118 lane; one whose SLOT lies beyond the lane's count places nothing (R62). A digital entry of a GOOSE format (FMT
0x8, 0x9) places nothing here (DESIGN CHOICE, log entry 73). -/
def placeSig (b : List Byte) (v : LaneVals) (e : List Word) : LaneVals :=
  match sgKind e with
  | 0 => { v with ph := lset v.ph (sgSlot e) (convPhasor e b) }
  | 1 => { v with freq := convScalar e b }
  | 2 => { v with rocof := convScalar e b }
  | 3 => { v with ana := lset v.ana (sgSlot e) (convScalar e b) }
  | 4 => if sgFmt e = 6 then { v with dig := lset v.dig (sgSlot e) ((beAt b (sgPos e) 2).getD 0) } else v
  | _ => v
/-- The STAT word of a lane, where it can be read (R62). -/
def statWord (sigs : List (List Word)) (b : List Byte) : Option Nat :=
  match sigs with
  | e :: _ => if sgKind e = 6 then beAt b (sgPos e) 2 else none
  | [] => none
/-- A C37.118 lane's records for a lap (R64, R70, Table 2.9). `b` runs from the first byte after FRACSEC to the last before CHK. -/
def Device.c37Lane (d : Device) (lane n : Nat) (arr : Time) (srcTq : Nat) (b : List Byte) : List (List Word) :=
  let e := d.laneE lane
  let sigs := d.laneSigs (leSig e) (c37Span e)
  let v := sigs.foldl (placeSig b) (valsNaN e)
  let q := max srcTq d.tkCode * 1024 + (match statWord sigs b with
    | some s => qbit (decide (s / 16384 % 4 = 0)) 15 + qbit (!s.testBit 13) 14
    | none => 0)
  d.mkRecs lane n q (leSrc e) (arrOfs arr (d.lapT (leHeat e) n)) v

/-! GOOSE (R76). -/

/-- A member's contribution to the digital words: FMT 0x8 places a BOOLEAN's bit, FMT 0x9 a BIT STRING's word (log entry 43). A digital entry of
FMT 0x6, a C37.118 format, places nothing in an R-GOOSE lane (DESIGN CHOICE, log entry 73). -/
def placeMember (ms : List (Nat × List Byte)) (dig : List Nat) (e : List Word) : List Nat :=
  if sgKind e ≠ 4 then dig
  else match ms[sgPos e]?, sgFmt e with
    | some (0x83, v), 8 =>
      let w := sgSlot e % 16
      let b := sgSlot e / 16
      if beNat v ≠ 0 then lset dig w (Nat.lor (dig.getD w 0) (2 ^ b)) else dig
    | some (0x84, v), 9 => lset dig (sgSlot e) (Config.bitString v).toNat
    | _, _ => dig
/-- The fields of a GOOSE APDU: gocbRef, timeAllowedToLive, stNum, sqNum and the octets of its data set. -/
structure GooseApdu where
  ref : List Byte
  ttl : Nat
  stNum : Nat
  sqNum : Nat
  data : List Byte
  deriving DecidableEq, Repr
def gooseRead (b : List Byte) : Option GooseApdu :=
  match berRead b with
  | some (0x61, v, _) =>
    match berAll (v.length + 1) v with
    | some l =>
      match berGet l 0x80, berGet l 0x81, berGet l 0x85, berGet l 0x86, berGet l 0xAB with
      | some r, some t, some st, some sq, some da => some ⟨r, beNat t, beNat st, beNat sq, da⟩
      | _, _, _, _, _ => none
    | none => none
  | _ => none
/-- An R-GOOSE lane's records at its lap time from the latest message accepted before it (R76). -/
def Device.gooseLane (d : Device) (lane n : Nat) (m : Option RGoose) : List (List Word) :=
  let e := d.laneE lane
  let t := d.lapT (leHeat e) n
  let sigs := d.laneSigs (leSig e) (d.gooseSpan e)
  let v := valsNaN e
  let dig := match m with
    | some g => sigs.foldl (placeMember ((berAll (g.data.length + 1) g.data).getD [])) v.dig
    | none => v.dig
  let valid := match m with | some g => g.auth && decide (t ≤ g.arr + g.ttlMs * Time.msU) | none => false
  let fail := match m with | some g => !g.auth | none => false
  let q := qbit valid 15 + qbit (d.fb TK_STAT.SYNC) 14 + d.tkCode * 1024 + qbit fail 5
  d.mkRecs lane n q (leSrc e) 0 { v with dig := dig }

/-! Sampled values (R78, R79). -/

/-- An ASDU: svID, smpCnt, confRev, smpSynch, smpRate and smpMod where present, and the octets of its samples. -/
structure Asdu where
  svId : List Byte
  cnt : Nat
  conf : Nat
  synch : Nat
  rate : Option Nat
  data : List Byte
  deriving DecidableEq, Repr
def asduRead (b : List Byte) : Option Asdu :=
  match berAll (b.length + 1) b with
  | some l =>
    match berGet l 0x80, berGet l 0x82, berGet l 0x83, berGet l 0x85, berGet l 0x87 with
    | some i, some c, some cr, some sy, some da => some ⟨i, beNat c, beNat cr, beNat sy, (berGet l 0x86).map beNat, da⟩
    | _, _, _, _, _ => none
  | none => none
/-- The ASDUs of an SV APDU; one that is malformed shows as none. The APDU itself malformed, or with no ASDU or more than 8, is none. -/
def svRead (b : List Byte) : Option (List (Option Asdu)) :=
  match berRead b with
  | some (0x60, v, _) =>
    match berAll (v.length + 1) v with
    | some l =>
      match berGet l 0xA2 with
      | some s =>
        match berAll (s.length + 1) s with
        | some as_ => if as_.isEmpty || decide (8 < as_.length) then none else some (as_.map (fun a => if a.1 = 0x30 then asduRead a.2 else none))
        | none => none
      | none => none
    | none => none
  | _ => none
/-- smpRate agrees with a rate: samples each second, or each cycle of 50 or 60 Hz (PRESUMED, log entry 43). -/
def rateAgrees (r rate : Nat) : Bool := r = rate || r * 50 = rate || r * 60 = rate
/-- What R78 asks of an ASDU. -/
def asduOk (e : List Word) (a : Asdu) : Bool :=
  decide (crc32 a.svId = stMatch e) && decide (a.conf % 65536 = stConf e) &&
  (match a.rate with | some r => rateAgrees r (svRate e) | none => true) && decide (a.cnt < svRate e)
/-- The sample instant (R79): within 999 ms before the arrival time to 1 ms after it. Where both ends of the interval fit, one second apart, it
is the earlier one (DESIGN CHOICE, log entry 73). -/
def sampleAt (arr : Time) (cnt rate : Nat) : Time :=
  let f := cnt * Time.secU / rate
  let lo := arr - 999 * Time.msU
  (lo - f + Time.secU - 1) / Time.secU * Time.secU + f
/-- A member's octets: an INT32 and its quality, whose validity (bits 0 and 1, 01 invalid) and test (bit 11) count from the last bit (log entry 43). -/
def svMember (b : List Byte) (k : Nat) : Option (Int × Bool) :=
  if 8 * k + 8 ≤ b.length then
    let q := beNat (slice b (8 * k + 4) 4)
    some (s32 (w32 (beNat (slice b (8 * k) 4))), decide (q % 4 = 1) || q.testBit 11)
  else none
/-- A stream's sample from an ASDU: values and marks by channel. The member a channel entry's POS names is read as an INT32 and scaled whatever the
entry's KIND and FMT are (DESIGN CHOICE, log entry 73). -/
def Device.svSample (d : Device) (st : Nat) (a : Asdu) (arr : Time) (auth : Bool) : Sample :=
  let e := d.ent tSignal st
  let n := stNch e
  let cs := (d.laneSigs (st + 1) n).map (fun g => (g, svMember a.data (sgPos g)))
  let vals := cs.map (fun c => match c.2 with | some (v, _) => fmaInt (sgScale c.1) v (sgOfs c.1) | none => fNaN)
  let bad := (cs.zipIdx.map (fun c => match c.1.2 with | some (_, b) => qbit (b || !auth) c.2 | none => qbit (!auth) c.2)).sum
  ⟨sampleAt arr a.cnt (svRate e), a.cnt, vals, bad + qbit (!auth) sAUTH, decide (a.synch = 0), arr⟩

end Sys2Proof.Machine
end

