-- ==== Sys2Proof/Machine/Ports.lean ====
section
/-!
DEFINITION. The receive side of the Ethernet ports (spec/02, R36 to R54): frame lengths, the filter steps ahead of the FIFO, PRP, the
FIFO, ETH_CFG and the link.
-/
namespace Sys2Proof.Machine

def portRxInit : PortRx := ⟨[], none, false, 0, 0#32⟩
def Device.prx (d : Device) (p : Nat) : PortRx := mgetD d.ing.ports p portRxInit
def Device.setPrx (d : Device) (p : Nat) (x : PortRx) : Device := { d with ing := { d.ing with ports := mset d.ing.ports p x } }
/-- Ports take frames in RACE, and in FOLLOW up to step 8 of the parser (Table 19.1, R372). -/
def Device.listens (d : Device) : Bool := d.pwr.mode = .race || d.pwr.mode = .follow

/-! The FIFO (R53, R54, Table 2.15). -/
def fifoBytes (x : PortRx) : Nat := (x.fifo.map (fun f => f.bytes.length + 16)).sum
def fifoCap : Nat := 4194304
def Device.fifoShow (d : Device) (p : Nat) : Device :=
  let k := (fifoBytes (d.prx p) + 1023) / 1024
  (d.setf ETH_FIFO.LEVEL k p).hwm ETH_FIFO.HWM k p
/-- Count received octets in 48 bits; a change of bit 47 sets its half bit (R81). -/
def Device.rxOctets (d : Device) (p l : Nat) : Device :=
  let x := d.prx p
  let n := (x.octets + l) % 2 ^ 48
  let d1 := d.setPrx p { x with octets := n }
  if x.octets / 2 ^ 47 = n / 2 ^ 47 then d1
  else ((d1.setf ETH_HALF.OCTETS 1 p).irqRefresh 3).raise EV_ETH_CNT_HALF [p, 15]
/-- Write an accepted frame into the FIFO, or lose it for want of room or by the write limit of R45. -/
def Device.fifoWrite (d : Device) (p l : Nat) (b : List Byte) : Device :=
  let x := d.prx p
  let near := match x.lastIn with | some t => decide (d.now < t + 125 * Time.nsU) | none => false
  if near then d.count RX_RATE_DROP p
  else if fifoBytes x + b.length + 16 > fifoCap then
    let d1 := (d.count RX_FIFO_OVF p).setPrx p { x with ovfEp := true }
    if x.ovfEp then d1 else d1.raise EV_ETH_FIFO_OVF [p, d1.f ETH_FIFO.LEVEL p]
  else
    ((d.setPrx p { x with fifo := x.fifo ++ [⟨b, d.now, l⟩], lastIn := some d.now }).count RX_FRAMES_OK p).rxOctets p l |>.fifoShow p
/-- The parser takes the head of a FIFO; an overflow episode ends below half of its capacity. -/
def Device.fifoTake (d : Device) (p : Nat) : Device :=
  let x := d.prx p
  let y := { x with fifo := x.fifo.drop 1 }
  (d.setPrx p { y with ovfEp := y.ovfEp && decide (fifoCap / 2 ≤ fifoBytes y) }).fifoShow p

/-! Filter steps (Table 2.2). -/

/-- The FCS of a frame is good. -/
def fcsGood (b : List Byte) : Bool := decide (le32 (w32 (crc32 (b.take (b.length - 4)))) = b.drop (b.length - 4))
/-- A PAUSE or PFC frame (R41). -/
def isPause (b : List Byte) : Bool :=
  beNat (slice b 12 2) = 0x8808 && (beNat (slice b 14 2) = 0x0001 || beNat (slice b 14 2) = 0x0101)
/-- Steps 1 and 2. -/
def Device.vlanPass (d : Device) (p : Nat) (h : EthHdr) : Bool :=
  if h.etype = 0x88A8 ∨ (h.tag.isSome ∧ h.etype = 0x8100) then false
  else
    let vid := (h.tag.getD 0) % 4096
    if vid = 0 then d.fb ETH_CFG.UNTAG_OK p else decide (vid < 4095) && d.vlanOk p vid
/-- Step 3. -/
def Device.addrPass (d : Device) (p dst : Nat) : Bool :=
  decide (dst = d.portMac p ∨ dst = 0xFFFFFFFFFFFF ∨ dst = 0x333300000001) ||
  [0x011B19000000, 0x0180C200000E, 0x01005E000181, 0x01005E00006B].contains dst ||
  (d.portAddrs p).any (fun e => match addrType e with
    | 2 => decide (dst = groupMac (addrIp e))
    | 3 => decide (dst = beNat ((addrOctets e).take 6))
    | 1 => decide (dst = solicitedMac (addrIp e))
    | _ => false)

/-! PRP (R49 to R51). -/
def Device.prpRuns (d : Device) (p : Nat) : Bool := d.fb ETH_CFG.PRP_EN p && d.fb ETH_CFG.PRP_EN (if p % 2 = 0 then p + 1 else p - 1)
/-- A valid trailer of a frame without FCS: its sequence number and LAN (0 A, 1 B). The LSDU size counts from the EtherType to the end of the
trailer (DEDUCED, log entry 24). -/
def prpTrailer (b : List Byte) : Option (Nat × Nat) :=
  let n := b.length
  let w := beNat (slice b (n - 4) 2)
  let lan := w / 4096
  if n ≥ 20 ∧ beNat (slice b (n - 2) 2) = 0x88FB ∧ (lan = 0xA ∨ lan = 0xB) ∧ w % 4096 = n - ((ethParse b).body - 2) then
    some (beNat (slice b (n - 6) 2), lan - 0xA)
  else none
def prpWindow : Time := 400 * Time.msU
/-- Look a source and sequence number up in a pair's table and enter it: true for a duplicate. Full tables give up the source, or the
number, least recently seen. -/
def prpLook (tab : List PrpSrc) (mac seq : Nat) (t : Time) : Bool × List PrpSrc :=
  let old := tab.find? (fun s => s.mac = mac)
  let rest := tab.filter (fun s => s.mac ≠ mac)
  let seen : List (Nat × Time) := (match old with | some s => s.seen | none => []).filter (fun e => decide (t < e.2 + prpWindow))
  if seen.any (fun e => e.1 = seq) then (true, rest ++ [⟨mac, seen⟩])
  else
    let kept := if old.isNone && decide (rest.length ≥ 4096) then rest.drop 1 else rest
    (false, kept ++ [⟨mac, (if seen.length ≥ 1024 then seen.drop 1 else seen) ++ [(seq, t)]⟩])
/-- Step 4: the frame as it enters the FIFO, or none for a duplicate. -/
def Device.prpStep (d : Device) (p : Nat) (b : List Byte) : Option (List Byte) × Device :=
  if !d.prpRuns p then (some b, d)
  else match prpTrailer b with
    | none => (some b, d.count RX_PRP_NORCT p)
    | some (seq, lan) =>
      let r := prpLook (mgetD d.ing.prp (p / 2) []) (ethParse b).src seq d.now
      let d1 := { d with ing := { d.ing with prp := mset d.ing.prp (p / 2) r.2 } }
      if r.1 then (none, d1.count RX_PRP_DUP p)
      else (some (b.take (b.length - 6)), if lan = p % 2 then d1 else d1.count RX_PRP_WRONGLAN p)

/-- ETH_FRAME_RECEIVED: a port has received a frame, FCS included; `code` tells a PCS code or block error (R42 to R54). -/
def ethFrame (p : Nat) (b : List Byte) (code : Bool) (d : Device) : Device :=
  if p ≥ 8 ∨ !d.listens ∨ !d.fb ETH_STATUS.LINK p ∨ b.isEmpty then d
  else if code then d.count RX_CODE_ERR p
  else if b.length < 64 then d.count RX_RUNT p
  else if b.length > d.f ETH_CFG.MAXLEN p then d.count RX_OVERSIZE p
  else if !fcsGood b then d.count RX_FCS_ERR p
  else if isPause b then d.count RX_PAUSE p
  else
    let f := b.take (b.length - 4)
    let h := ethParse f
    if !d.vlanPass p h then d.count RX_VLAN_DROP p
    else if !d.addrPass p h.dst then d.count RX_ADDR_DROP p
    else match d.prpStep p f with
      | (none, d1) => d1
      | (some x, d1) => d1.fifoWrite p b.length x

/-! ETH_CFG and the link. -/

/-- PRP_MIS of a pair (R49). -/
def Device.prpShow (d : Device) (p : Nat) : Device :=
  let a := p / 2 * 2
  let mis := b2n (d.fb ETH_CFG.PRP_EN a != d.fb ETH_CFG.PRP_EN (a + 1))
  (d.setf ETH_STATUS.PRP_MIS mis a).setf ETH_STATUS.PRP_MIS mis (a + 1)
/-- LINK of a port. -/
def Device.linkSet (d : Device) (p : Nat) (up : Bool) : Device :=
  if d.fb ETH_STATUS.LINK p == up then d
  else ((((d.setf ETH_STATUS.LINK (b2n up) p).raise EV_ETH_LINK [p, b2n up]).unitRefresh uPORT p).portQuiet p).linksRefresh
/-- The fields and codes of ETH_CFG that a write may hold (R38, R43, Table 2.11). -/
def ethCfgOk (v : Word) : Bool :=
  let mode := bx v 2 0
  let fec := bx v 9 8
  decide (1518 ≤ bx v 29 16 ∧ bx v 29 16 ≤ 9216) && decide (mode ≤ 4) &&
  (match mode with | 0 => decide (fec ≠ 3) | 3 => decide (fec ≤ 1) | 4 => decide (fec ≠ 3) | _ => decide (fec = 0))
/-- ETH_CFG_WRITE. -/
def ethCfgWrite (p : Nat) (v : Word) (d : Device) : Device :=
  if p ≥ 8 ∨ !d.alive then d
  else if !ethCfgOk v then d.setf ETH_STATUS.CFG_ERR 1 p
  else
    let new := v &&& 0x3FFF1F07#32
    let restart := bx new 2 0 ≠ d.f ETH_CFG.MODE p ∨ bx new 9 8 ≠ d.f ETH_CFG.FEC p
    let d1 := (d.wr ETH_CFG p new).prpShow p
    if restart then
      (((d1.setf ETH_STATUS.FEC_LOCK 0 p).setf ETH_STATUS.BLOCK_LOCK 0 p).setf ETH_STATUS.AN_DONE 0 p).linkSet p false
    else d1
/-- ETH_LINK_CHANGE: what the PCS shows; `slow` tells an SGMII partner that resolved to 10 or 100 Mb/s (R37). -/
def ethLinkChange (p : Nat) (up anDone blockLock fecLock slow : Bool) (d : Device) : Device :=
  if p ≥ 8 ∨ !d.alive then d
  else
    let mode := d.f ETH_CFG.MODE p
    let on := decide (mode ≠ 0)
    let an := on && decide (mode ≤ 2) && anDone
    let fec := on && decide (d.f ETH_CFG.FEC p ≠ 0) && fecLock
    let d1 := ((d.setf ETH_STATUS.AN_DONE (b2n an) p).setf ETH_STATUS.BLOCK_LOCK (b2n (on && blockLock)) p).setf ETH_STATUS.FEC_LOCK (b2n fec) p
    d1.linkSet p (up && on && !(decide (mode = 2) && slow))

end Sys2Proof.Machine
end

