-- ==== Sys2Proof/Machine/Parser.lean ====
section
/-!
DEFINITION. The parser (spec/02, R55 to R79): the steps of Table 2.5, C37.118 over UDP and TCP, IEC 61850-90-5 and sampled values, and the
journal entries of accepted inputs. The same steps run on journaled frames (R372, R449).
-/
namespace Sys2Proof.Machine

/-- What the journal tells of a frame that is applied again: the dispositions of its lanes and AUTHF (Table 16.3). -/
structure JFrame where
  disps : List Nat
  authF : Bool
  deriving DecidableEq, Repr
/-- In FOLLOW a journaled frame counts nothing at steps 1 to 8: the own ports' frames do (R372). -/
def Device.countJ (d : Device) (js : Option JFrame) (c : Ctr) (n : Nat := 1) : Device :=
  if js.isSome && decide (d.pwr.mode = .follow) then d else d.countN c n
/-- A frame of the device's own ports writes nothing in FOLLOW. -/
def Device.counting (d : Device) (js : Option JFrame) : Bool := js.isNone && !d.racing

/-! Steps 1 to 4. -/

/-- An IP packet: source, destination, protocol, payload. -/
structure IpPkt where
  src : List Byte
  dst : List Byte
  proto : Nat
  body : List Byte
  deriving DecidableEq, Repr
inductive Parsed where
  | drop (c : Ctr)
  | arp
  | icmp (k : IpPkt)
  | ptp (transport : Nat) (msg : List Byte)
  | tcp (k : IpPkt)
  | c37 (b : List Byte)
  | a905 (b : List Byte)
  | rharix (b : List Byte)
  | sv (b : List Byte)

/-- Steps 2 and 3. -/
def ipParse (etype : Nat) (b : List Byte) : Except Ctr IpPkt :=
  if etype = 0x0800 then
    let ihl := beNat (slice b 0 1) % 16
    let total := beNat (slice b 2 2)
    let h := b.take (4 * ihl)
    if beNat (slice b 0 1) / 16 ≠ 4 ∨ ihl < 5 ∨ total > b.length ∨ total < 4 * ihl ∨ fold16 (octSum h) ≠ 65535 then .error ING_IP_ERR
    else if beNat (slice b 6 2) % 16384 ≠ 0 then .error ING_IP_FRAG
    else .ok ⟨slice b 12 4, slice b 16 4, beNat (slice b 9 1), slice b (4 * ihl) (total - 4 * ihl)⟩
  else
    let nh := beNat (slice b 6 1)
    if nh = 6 ∨ nh = 17 ∨ nh = 58 then .ok ⟨slice b 8 16, slice b 24 16, nh, slice b 40 (beNat (slice b 4 2))⟩
    else .error ING_IP_ERR
/-- The destination is in the port's address table. -/
def Device.ipMine (d : Device) (p : Nat) (ip : List Byte) : Bool :=
  (d.portAddrs p).any (fun e => decide (addrType e ≤ 2 ∧ addrIp e = ip))
/-- The checks of a UDP datagram. -/
def udpGood (k : IpPkt) : Bool :=
  let len := beNat (slice k.body 4 2)
  let sum := beNat (slice k.body 6 2)
  decide (8 ≤ k.body.length ∧ 8 ≤ len ∧ len ≤ k.body.length) &&
  (if sum = 0 then decide (k.dst.length = 4)
   else decide (fold16 (pseudoSum k.src k.dst 17 len + octSum (k.body.take len)) = 65535))
def ptpGroups : List Nat := [0xE0000181, 0xE000006B]
/-- Step 4. -/
def Device.l4Parse (d : Device) (p : Nat) (k : IpPkt) : Parsed :=
  let mine := d.ipMine p k.dst
  let v4 := decide (k.dst.length = 4)
  let dst := beNat k.dst
  if k.proto = (if v4 then 1 else 58) then
    if mine || (!v4 && (decide (dst = 0xFF020000000000000000000000000001) ||
        (d.portAddrs p).any (fun e => decide (addrType e = 1 ∧ dst = solicitedIp (addrIp e))))) then .icmp k
    else .drop ING_L4_ERR
  else if k.proto = 6 then (if mine then .tcp k else .drop ING_L4_ERR)
  else if k.proto ≠ 17 ∨ !udpGood k then .drop ING_L4_ERR
  else
    let dp := beNat (slice k.body 2 2)
    let b := slice k.body 8 (beNat (slice k.body 4 2) - 8)
    let ptp := decide (dp = 319 ∨ dp = 320)
    if !mine && !(ptp && v4 && ptpGroups.contains dst) then .drop ING_L4_ERR
    else if dp = d.f ING_L4PORT.UDP_C37 then .c37 b
    else if dp = 102 then .a905 b
    else if ptp then .ptp (if v4 then 1 else 2) b
    else if dp = d.f RXL_UDP.PORT then .rharix b
    else .drop ING_L4_ERR
/-- Steps 1 to 4 on a frame without FCS. -/
def Device.classify (d : Device) (p : Nat) (b : List Byte) : Parsed :=
  let h := ethParse b
  let body := b.drop h.body
  if h.etype = 0x0800 ∨ h.etype = 0x86DD then
    match ipParse h.etype body with
    | .error c => .drop c
    | .ok k => d.l4Parse p k
  else if h.etype = 0x88BA ∧ d.fb ETH_CFG.STATION p then .sv body
  else if h.etype = 0x88F7 then .ptp 0 body
  else if h.etype = 0x0806 then .arp
  else .drop ING_ETYPE_DROP

/-! Frames to the Stride cores: echo requests and neighbour solicitations are answered (R56; layouts by log entry 24). -/

def icmp6Sum (src dst b : List Byte) : Nat := csum16 (pseudoSum src dst 58 b.length + octSum b)
def putCsum (b : List Byte) (c : Nat) : List Byte := b.take 2 ++ beBytes 2 c ++ b.drop 4
/-- The answer to an ICMP or ICMPv6 message, as the sender's address and the body. -/
def Device.icmpAnswer (d : Device) (p : Nat) (k : IpPkt) : Option (List Byte × List Byte) :=
  let typ := beNat (slice k.body 0 1)
  if k.dst.length = 4 then
    if typ = 8 then
      let b := [0#8, 0#8, 0#8, 0#8] ++ k.body.drop 4
      some (k.dst, putCsum b (csum16 (octSum b)))
    else none
  else if typ = 128 ∧ d.ipMine p k.dst then
    let b := [129#8, 0#8, 0#8, 0#8] ++ k.body.drop 4
    some (k.dst, putCsum b (icmp6Sum k.dst k.src b))
  else if typ = 135 then
    let t := slice k.body 8 16
    if (d.portAddrs p).any (fun e => decide (addrType e = 1 ∧ addrIp e = t)) then
      let b := [136#8, 0#8, 0#8, 0#8, 0x60#8, 0#8, 0#8, 0#8] ++ t ++ [2#8, 1#8] ++ beBytes 6 (d.portMac p)
      some (t, putCsum b (icmp6Sum t k.src b))
    else none
  else none
def Device.strideIcmp (d : Device) (p : Nat) (frame : List Byte) (k : IpPkt) : Device :=
  let d1 := d.emit (.toStride frame)
  if !d1.mayTx then d1
  else match d1.icmpAnswer p k with
    | none => d1
    | some (src, b) =>
      let h := ethParse frame
      d1.txPush p false (txPlain (ethBuild h.src (d1.portMac p) h.tag (ipEtype src) (ipBuild src k.src k.proto 0 b)))

/-! The journal entries of inputs (Table 16.3). -/

/-- Dispositions as words of 4-bit codes, low nibble first. -/
def dispWords (l : List Nat) : List Word :=
  (chunks 8 (l.length + 1) l).map (fun c => w32 ((c.zipIdx.map (fun x => x.1 % 16 * 16 ^ x.2)).sum))
def Device.journalFrame (d : Device) (p : Nat) (tcp authF : Bool) (disps : List Nat) (arr : Time) (raw : List Byte) : Device :=
  d.journal 0x01 (p * 1048576 + b2n tcp * 524288 + b2n authF * 262144 + disps.length % 256) arr (leBytes (dispWords disps) ++ raw)

/-! C37.118 (R65 to R70). -/

def streamInit : StreamSt := ⟨false, none, [], none, [], 0, none, none⟩
def Device.strm (d : Device) (s : Nat) : StreamSt := mgetD d.ing.streams s streamInit
def Device.setStrm (d : Device) (s : Nat) (x : StreamSt) : Device := { d with ing := { d.ing with streams := mset d.ing.streams s x } }
def tcEn (e : List Word) : Bool := bit (wd e 5) 31
def tcPeer (e : List Word) : List Byte := if bit (wd e 5) 30 then addrOctets e else (addrOctets e).take 4
def tcPort (e : List Word) : Nat := bx (wd e 4) 31 16
def tcLocal (e : List Word) : Nat := bx (wd e 4) 15 0
def tcStream (e : List Word) : Nat := bx (wd e 5) 17 0
def tcPorts (e : List Word) : Nat := bx (wd e 6) 7 0
def tcpInit : TcpRx := ⟨false, 0, [], [], 1, none, 0, none, 0⟩
def Device.tcpConn (d : Device) (c : Nat) : TcpRx := mgetD d.ing.conns c tcpInit
def Device.setTcp (d : Device) (c : Nat) (x : TcpRx) : Device := { d with ing := { d.ing with conns := mset d.ing.conns c x } }

/-- The checks of R66 and Table 2.8, in order. -/
def c37Check (udp : Bool) (b : List Byte) : Option Ctr :=
  let size := beNat (slice b 2 2)
  let ver := beNat (slice b 1 1) % 16
  let typ := beNat (slice b 1 1) / 16
  if b.headD 0#8 ≠ 0xAA#8 ∨ size < 16 ∨ (udp ∧ size ≠ b.length) then some ING_C37_ERR
  else if crcCcitt (b.take (b.length - 2)) ≠ beNat (b.drop (b.length - 2)) then some ING_C37_ERR
  else if (ver ≠ 1 ∧ ver ≠ 2) ∨ typ > 5 ∨ (typ = 5 ∧ ver = 1) ∨ typ = 4 then some ING_C37_TYPE
  else none
/-- A command frame to a PMU: command word and IDCODE (R69). -/
def Device.c37Command (d : Device) (e : List Word) (cmd : Nat) : List Byte :=
  let s := d.socOf d.sec
  let h := [0xAA#8, 0x42#8] ++ beBytes 2 18 ++ beBytes 2 (stIdent e) ++ beBytes 4 s.1 ++
    beBytes 1 (s.2 * 16 + d.tkCode) ++ beBytes 3 (d.now % Time.secU * stBase e / Time.secU) ++ beBytes 2 cmd
  h ++ beBytes 2 (crcCcitt h)
/-- The port a PMU connection uses now: the lowest-numbered of its ports with link (R72). -/
def Device.tcpPortOf (d : Device) (c : Nat) : Option Nat := d.lowestPort (tcPorts (d.ent tTcp c))
/-- The firmware sends octets on a PMU connection, from the port it uses. -/
def Device.tcpSay (d : Device) (c : Nat) (b : List Byte) : Device :=
  let x := d.tcpConn c
  match d.tcpPortOf c with
  | some p => (d.setTcp c { x with sent := x.sent + b.length }).emit (.tcpSent false c p x.sent b)
  | none => d
/-- An acknowledgement of all received so far, with the time stamp to echo (R71). -/
def Device.tcpAckNow (d : Device) (c : Nat) : Device :=
  let x := d.tcpConn c
  match d.tcpPortOf c with
  | some p => d.emit (.tcpAck c p x.next x.tsRecent)
  | none => d
/-- The command for the configuration frame of the kind CFG3 chooses, then data on (R69). -/
def Device.tcpAsk (d : Device) (c : Nat) : Device :=
  let e := d.ent tSignal (tcStream (d.ent tTcp c))
  (d.tcpSay c (d.c37Command e (if stCfg3 e then 6 else 5))).tcpSay c (d.c37Command e 2)
/-- A data frame of a stream has STAT bit 10 set (R69): in its first block, whose STAT word leads the data, or in that of any enabled lane
of the stream, whatever its heat (DEDUCED, log entry 73). -/
def Device.asksCfg (d : Device) (e : List Word) (b : List Byte) : Bool :=
  let set (w : Option Nat) : Bool := match w with | some s => s.testBit 10 | none => false
  set (beAt b 0 2) || ((stLaneList e).filter (fun l => leEn (d.laneE l))).any (fun l => set (statWord (d.laneSigs (leSig (d.laneE l)) 1) b))
/-- After any such data frame on a TCP stream the configuration frame is asked for, at most once a second (R69). -/
def Device.askCfg (d : Device) (st : Nat) (e : List Word) (tcp : Option Nat) (b : List Byte) : Device :=
  match tcp with
  | none => d
  | some c =>
    let x := d.strm st
    if !d.asksCfg e b || decide (x.askSec = some d.sec) then d else (d.setStrm st { x with askSec := some d.sec }).tcpAsk c

/-- The fingerprint check (R68): every configuration frame that differs raises the event, on a stream that is stale already too (DEDUCED, log
entry 73). -/
def Device.cfgCheck (d : Device) (st : Nat) (e : List Word) (b : List Byte) : Device :=
  let c := crc32 b
  if c = stMatch e then d
  else
    let d1 := d.setStrm st { d.strm st with stale := true }
    ((d1.setf ING_CFG_LAST.STREAM st).setf ING_CFG_LAST.PEND 1).raise EV_ING_CFG_MISMATCH [st, c]
/-- A CFG-3 frame: whole, or one of a series that is put together again (R65; CONT_IDX by log entry 43). The CRC-32 of a series runs over the first
frame from the byte after FRACSEC, its CONT_IDX included, and over the later ones without theirs (DESIGN CHOICE, log entry 73). -/
def Device.cfg3Frame (d : Device) (st : Nat) (e : List Word) (b : List Byte) : Device :=
  let k := beNat (slice b 0 2)
  let x := d.strm st
  if k = 0 then d.cfgCheck st e b
  else if k = 1 then d.setStrm st { x with reasm := b, reasmNext := 2 }
  else if x.reasmNext = 0 ∨ (k ≠ 65535 ∧ k ≠ x.reasmNext) then d.setStrm st { x with reasm := [], reasmNext := 0 }
  else if k = 65535 then (d.setStrm st { x with reasm := [], reasmNext := 0 }).cfgCheck st e (x.reasm ++ b.drop 2)
  else d.setStrm st { x with reasm := x.reasm ++ b.drop 2, reasmNext := k + 1 }
/-- A configuration or header frame. -/
def Device.cfgFrame (d : Device) (p : Nat) (tcp : Option Nat) (st : Nat) (e : List Word) (typ : Nat) (arr : Time) (raw b : List Byte) (js : Option JFrame) : Device :=
  if d.counting js then d
  else
    let d1 := (d.count ING_CFG_FRAMES).journalFrame p tcp.isSome false [] arr raw
    if typ = 3 ∧ !stCfg3 e then d1.cfgCheck st e b
    else if typ = 5 ∧ stCfg3 e then d1.cfg3Frame st e b
    else d1

/-- The lanes a frame feeds: enabled, of an enabled heat, in SUB_IDX order. -/
def Device.fedLanes (d : Device) (e : List Word) : List Nat :=
  (stLaneList e).filter (fun l => leEn (d.laneE l) && d.heatOn (leHeat (d.laneE l)))
/-- Deliver converted lanes, or apply their journaled dispositions; answers the dispositions. -/
def Device.deliverJ (d : Device) (js : Option JFrame) (l : List Arrival) : List Nat × Device :=
  match js with
  | none => d.deliver true l
  | some j => (j.disps, l.zipIdx.foldl (fun x a =>
      match j.disps[a.2]? with
      | some 11 => x
      | c => ((x.count ING_LANES_WRITTEN).pfaArrive a.1.lane a.1.lap a.1.arr a.1.recs c).2) d)
/-- A data frame of a stream that is not stale: steps 8 and 9. -/
def Device.dataFrame (d : Device) (p : Nat) (tcp : Option Nat) (st : Nat) (e : List Word) (arr : Time) (raw f : List Byte) (js : Option JFrame) : Device :=
  let soc := beNat (slice f 6 4)
  let fs := beNat (slice f 10 4)
  let b := slice f 14 (f.length - 16)
  let tai := d.taiOfSoc soc (fs / 2 ^ 28 % 8)
  let fed := (d.fedLanes e).map (fun l => (l, tai.bind (fun t => nearestLap (d.rate (leHeat (d.laneE l))) t (fs % 16777216) (stBase e))))
  let on := fed.filterMap (fun x => x.2.map (fun n => (x.1, n)))
  let d1 := d.countJ js ING_OFF_GRID (fed.length - on.length)
  if on.isEmpty || d.counting js then d1
  else
    let new := on.filter (fun x => !d1.laneArrived (leHeat (d1.laneE x.1)) x.2 x.1)
    let d2 := d1.countJ js ING_DUP_LAP (on.length - new.length)
    let r := d2.deliverJ js (new.map (fun x => ⟨x.1, x.2, arr, d2.c37Lane x.1 x.2 arr (fs / 2 ^ 24 % 16) b⟩))
    if new.isEmpty then r.2 else r.2.journalFrame p tcp.isSome false r.1 arr raw
/-- Steps 5 to 9 for a C37.118 frame `f`; `raw` is what the journal keeps of it, `tcp` the connection it came over. -/
def Device.c37Frame (d : Device) (p : Nat) (tcp : Option Nat) (arr : Time) (raw f : List Byte) (js : Option JFrame) : Device :=
  match c37Check tcp.isNone f with
  | some c => d.countJ js c
  | none =>
    let id := beNat (slice f 4 2)
    let mine (s : Nat × List Word) : Bool := stPort s.2 p && decide (stIdent s.2 = id) && decide (stProto s.2 = b2n tcp.isSome) &&
      (match tcp with | some c => js.isSome || decide (tcStream (d.ent tTcp c) = s.1) | none => true)
    match d.streams.find? mine with
    | none => d.countJ js ING_NOSTREAM
    | some (st, e) =>
      let typ := beNat (slice f 1 1) / 16
      let b := slice f 14 (f.length - 16)
      if typ ≠ 0 then d.cfgFrame p tcp st e typ arr raw b js
      else
        let d1 := if (d.strm st).stale then d.countJ js ING_CFG_STALE else d.dataFrame p tcp st e arr raw f js
        if js.isSome || d.counting js then d1 else d1.askCfg st e tcp b

/-! IEC 61850-90-5 (R73 to R76). -/

/-- Why a PDU fails authentication, if it does (R74). -/
def Device.authFail (d : Device) (e : List Word) (s : Spdu) : Option Nat :=
  if stAlg e = 0 then none
  else if s.mac ≠ macCode (stAlg e) then some 0
  else match d.recvKey (stKey e) s.kid with
    | none => some 1
    | some k => if s.tag = authTag (stAlg e) k.key s.hdr s.signed then none else some 2
/-- Some lane keeps what fails authentication. -/
def Device.authKeep (d : Device) (st : Nat) (e : List Word) : Bool :=
  if stProto e = 3 then (stLaneList e).any (fun l => leEn (d.laneE l) && decide (leAuth (d.laneE l) = 1))
  else (d.ents tLane).any (fun x => leEn x.2 && decide (leSrc x.2 = 9 ∧ leStream x.2 = st ∧ leAuth x.2 = 1))
/-- Messages still needed: those of the last 2 s, and the one before of each position. -/
def goosePrune (now : Time) (l : List RGoose) : List RGoose :=
  l.zipIdx.filterMap (fun x =>
    if now < x.1.arr + 2 * Time.secU || !(l.take x.2).any (fun y => decide (y.pos = x.1.pos ∧ y.arr + 2 * Time.secU ≤ now)) then some x.1 else none)
/-- One APDU of an R-GOOSE PDU, whose lane takes it: true where it is accepted (R76). A message of the last one's stNum with a lower sqNum is
ignored without a count, and "higher" is taken in serial arithmetic modulo 2^32 (DESIGN CHOICE, log entry 73). -/
def Device.gooseApdu (d : Device) (st pos : Nat) (a : GooseApdu) (arr : Time) (ok : Bool) (js : Option JFrame) : Bool × Device :=
  let x := d.strm st
  let put : Bool × Device := (true, d.setStrm st { x with goose := goosePrune d.now (⟨pos, a.stNum, a.sqNum, arr, a.ttl, a.data, ok⟩ :: x.goose) })
  match x.goose.find? (fun g => g.pos = pos) with
  | none => put
  | some g =>
    if g.stNum ≠ a.stNum then put
    else if g.sqNum = a.sqNum then (false, d.countJ js ING_REPEAT)
    else if serialGt a.sqNum g.sqNum then put
    else (false, d)
/-- The APDUs of a PDU. The lane at an APDU's position acts on its own AUTH_POL: it discards what failed authentication, or keeps it (R74). A malformed
APDU at a later position is passed over without a count (DESIGN CHOICE, log entry 73). -/
def Device.goosePdus (d : Device) (st : Nat) (e : List Word) (s : Spdu) (arr : Time) (ok : Bool) (js : Option JFrame) : Bool × Device :=
  (s.elems.zipIdx.take (stCnt e)).foldl (fun (x : Bool × Device) a =>
    match gooseRead a.1.apdu with
    | some g =>
      if ok || decide (leAuth (d.laneE (stFirst e + a.2)) = 1) then
        let r := x.2.gooseApdu st a.2 g arr ok js
        (x.1 || r.1, r.2)
      else x
    | none => x) (false, d)

/-! Sampled values (R77 to R79). -/

/-- Write a sample into a stream's ring and to the capture unit. The ring's depth is not given: 32 s are kept, more than any reader looks back
(DESIGN CHOICE, log entry 73). -/
def Device.svWrite (d : Device) (st : Nat) (s : Sample) : Device :=
  let l := (d.ring st).filter (fun x => decide (s.tAt < x.tAt + 32 * Time.secU)) ++ [s]
  acqStream st s { d with ing := { d.ing with rings := mset d.ing.rings st l } }
/-- The SV entry (Table 16.3); bit 17 of the mask marks a PDU that failed authentication (DESIGN CHOICE, log entry 45). -/
def Device.journalSv (d : Device) (st : Nat) (s : Sample) : Device :=
  d.journalW 0x02 s.cnt s.arr ([w32 st, w32 (s.bad + qbit s.unsync 16)] ++ s.vals)
/-- One ASDU that has passed the checks of R78. -/
def Device.svAsdu (d : Device) (st : Nat) (arr : Time) (ok : Bool) (x : Asdu) : Device :=
  if !d.racing then d
  else if (d.strm st).smpCnt = some x.cnt then d.count ING_REPEAT
  else
    let s := d.svSample st x arr ok
    ((d.setStrm st { d.strm st with smpCnt := some x.cnt }).svWrite st s).journalSv st s
/-- The ASDUs of a frame or PDU that pass the checks of R78. -/
def svFit (e : List Word) (l : List (Option Asdu)) : List Asdu := l.filterMap (fun a => a.filter (asduOk e))
/-- The ASDUs of a frame or PDU of a stream, steps 5 and 6 of Table 2.5: each that fails R78 is counted, then the port is checked, once for all
that are left. -/
def Device.svAsdus (d : Device) (p st : Nat) (e : List Word) (arr : Time) (ok : Bool) (l : List (Option Asdu)) : Device :=
  let good := svFit e l
  let d1 := d.countN ING_SV_ERR (l.length - good.length)
  if stPort e p then good.foldl (fun x a => x.svAsdu st arr ok a) d1 else if good.isEmpty then d1 else d1.count ING_NOSTREAM
/-- ASDUs whose svID names no stream: the malformed ones are counted, and one frame without a stream where there are others. -/
def Device.svLost (d : Device) (l : List (Option Asdu)) : Device :=
  let d1 := d.countN ING_SV_ERR (l.countP (·.isNone))
  if l.all (·.isNone) then d1 else d1.count ING_NOSTREAM
/-- The enabled stream of a PROTO with an APPID and an svID or gocbRef. -/
def Device.keyStream (d : Device) (proto appid : Nat) (name : List Byte) : Option (Nat × List Word) :=
  d.streams.find? (fun s => decide (stProto s.2 = proto ∧ stIdent s.2 = appid ∧ stMatch s.2 = crc32 name))
/-- The stream of a PROTO and APPID that the ASDUs of a frame belong to: that of the first one whose svID names a stream (R73 says so of a 90-5
PDU; of a layer-2 frame DESIGN CHOICE, log entry 73). -/
def Device.svPick (d : Device) (proto appid : Nat) (l : List (Option Asdu)) : Option (Nat × List Word) :=
  l.findSome? (fun a => a.bind (fun x => d.keyStream proto appid x.svId))
/-- Layer-2 SV on a station port (R77). Where the APPID is an enabled stream's and no svID has its CRC-32, every ASDU is discarded under R78. A frame
that is malformed as a whole, or has no ASDU or more than 8, is counted once in ING_SV_ERR (DESIGN CHOICE, log entry 73). -/
def Device.svFrame (d : Device) (p : Nat) (arr : Time) (b : List Byte) : Device :=
  let len := beNat (slice b 2 2)
  let appid := beNat (slice b 0 2)
  match (if len < 8 then none else svRead (slice b 8 (len - 8))) with
  | none => d.count ING_SV_ERR
  | some l =>
    match d.svPick 4 appid l with
    | none =>
      if d.streams.any (fun s => decide (stProto s.2 = 4 ∧ stIdent s.2 = appid)) then d.countN ING_SV_ERR l.length else d.svLost l
    | some (st, e) => d.svAsdus p st e arr true l

/-- The session checks of R73. -/
def sessionOk (s : Spdu) : Bool :=
  decide (s.enc = 0) && !s.elems.isEmpty &&
  ((decide (s.si = siGOOSE) && s.elems.all (fun e => decide (e.typ = 0x81))) || (decide (s.si = siSV) && s.elems.all (fun e => decide (e.typ = 0x82))))
/-- A PDU whose stream is known: authentication and replay, the checks of its ASDUs, then PORTMASK, then its contents. An APDU of an R-SV PDU that is
malformed as a whole is counted once in ING_SV_ERR (DESIGN CHOICE, log entry 73). -/
def Device.a905Stream (da : Device) (p st : Nat) (e : List Word) (arr : Time) (raw : List Byte) (s : Spdu) (js : Option JFrame) : Device :=
  let fail := match js with
    | some j => if j.authF then some 0 else none
    | none => da.authFail e s
  let d := if js.isNone && decide (stAlg e ≠ 0) then da.noteRead 10 (keyLoc (stKey e)) else da
  let d1 := if js.isNone && fail.isSome then
      let x := d.strm st
      ((d.count ING_A905_AUTH).raiseSec x.authSec EV_ING_AUTH [st, (Config.authReason (fail.getD 0)).toNat]).setStrm st { x with authSec := some d.sec }
    else d
  let x := d1.strm st
  let replay := js.isNone && (match x.spdu with | some n => !serialGt s.num n | none => false)
  if replay then d1.count ING_A905_REPLAY
  else if fail.isSome && !d1.authKeep st e then d1
  else
    let d2 := if js.isNone && fail.isNone && decide (stAlg e ≠ 0) then d1.setStrm st { x with spdu := some s.num } else d1
    if stProto e = 2 then
      (if js.isSome then d2 else d2.svAsdus p st e arr fail.isNone (s.elems.flatMap (fun el => (svRead el.apdu).getD [none])))
    else if !stPort e p then d2.countJ js ING_NOSTREAM
    else if d2.counting js then d2
    else
      let r := d2.goosePdus st e s arr fail.isNone js
      if r.1 then r.2.journalFrame p false fail.isSome [] arr raw else r.2
/-- A session PDU on UDP port 102. Its stream is matched on the first APDU (R73): where that one is malformed the whole PDU goes, an R-GOOSE PDU counted
in ING_NOSTREAM, an R-SV PDU once in ING_SV_ERR (DESIGN CHOICE, log entry 73). -/
def Device.a905Frame (d : Device) (p : Nat) (arr : Time) (raw b : List Byte) (js : Option JFrame) : Device :=
  match spParse b with
  | none => d.countJ js ING_A905_SESSION
  | some s =>
    if !sessionOk s then d.countJ js ING_A905_SESSION
    else match s.elems with
      | [] => d
      | a :: _ =>
        if s.si = siGOOSE then
          match (gooseRead a.apdu).bind (fun g => d.keyStream 3 a.appid g.ref) with
          | none => d.countJ js ING_NOSTREAM
          | some (st, e) => d.a905Stream p st e arr raw s js
        else match svRead a.apdu with
          | none => d.countJ js ING_SV_ERR
          | some l => match d.svPick 2 a.appid l with
            | none => if js.isSome then d else d.svLost l
            | some (st, e) => d.a905Stream p st e arr raw s js

/-! A turn of the parser. -/

/-- The parser's work on a frame. -/
def Device.parse (d : Device) (p : Nat) (f : RxFrame) : Device :=
  match d.classify p f.bytes with
  | .drop c => d.count c
  | .arp => d.emit (.toStride f.bytes)
  | .icmp k => d.strideIcmp p f.bytes k
  | .ptp t m => { d with ing := { d.ing with ptpq := d.ing.ptpq ++ [⟨p, t, m⟩] } }
  | .tcp _ => { d with ing := { d.ing with tcpq := d.ing.tcpq ++ [(p, f)] } }
  | .rharix _ => { d with ing := { d.ing with rxlq := d.ing.rxlq ++ [(p, f)] } }
  | .c37 b => d.c37Frame p none f.arr f.bytes b none
  | .a905 b => d.a905Frame p f.arr f.bytes b none
  | .sv b => d.svFrame p f.arr b
/-- A journaled FRAME entry (R372, R449). -/
def Device.applyFrame (d : Device) (p : Nat) (tcp authF : Bool) (disps : List Nat) (arr : Time) (raw : List Byte) : Device :=
  let js : Option JFrame := some ⟨disps, authF⟩
  if tcp then d.c37Frame p (some 0) arr raw raw js
  else match d.classify p raw with
    | .c37 b => d.c37Frame p none arr raw b js
    | .a905 b => d.a905Frame p arr raw b js
    | _ => d

/-- Where a frame lies in the FIFO array, as memory integrity names it. -/
def fifoLoc (p : Nat) (f : RxFrame) : Nat := f.arr * 8 + p
/-- Read a frame from the FIFO array: false where it is lost to an uncorrectable error (R460). -/
def Device.fifoRead (d : Device) (p : Nat) (f : RxFrame) (ue : Bool) : Bool × Device :=
  let loc := fifoLoc p f
  let bad := d.badAt 3 loc == 2
  let d1 := if ue && !bad then d.memUe 3 p (Config.memIdx 3 loc) false else d.memRead 3 loc p
  (!(ue || bad), d1.memClean 3 loc)
/-- The frame the parser takes next: round-robin, empty FIFOs skipped. -/
def Device.nextFrame (d : Device) : Option (Nat × RxFrame) :=
  ((List.range 8).map (fun i => (d.ing.rr + i) % 8)).findSome? (fun p => (d.prx p).fifo.head?.map (fun f => (p, f)))
/-- PARSER_TURN (R55). `ue` tells an uncorrectable error met in reading the frame from the FIFO. -/
def parserTurn (ue : Bool) (d : Device) : Device :=
  if !d.listens then d
  else
    match d.nextFrame with
    | none => d
    | some (p, f) =>
      let d1 := d.fifoTake p
      let r := { d1 with ing := { d1.ing with rr := (p + 1) % 8 } }.fifoRead p f ue
      if r.1 then (r.2.count ING_FRAMES_IN).parse p f else r.2

/-! TCP (R69, R71, R72). -/

/-- The local port a PMU connection is opened from: LOCAL_PORT, or, where that is 0, one the device chooses (R72). The spec says no more of it: a
free value, but that no other open connection uses it (log entry 88). -/
def Device.tcpLocalPort (d : Device) (c : Nat) : Nat :=
  let own := tcLocal (d.ent tTcp c)
  let used := d.ing.conns.filterMap (fun x => if x.2.isOpen && x.1 != c then some x.2.local_ else none)
  let start := (Config.freeWord d.free).toNat
  if own ≠ 0 then own
  else ((List.range (used.length + 1)).map (fun i => 1 + (start + i) % 65535)).find? (fun p => !used.contains p) |>.getD 1
/-- A PMU connection opens at the sequence number the peer starts from. -/
def Device.tcpOpened (d : Device) (c next : Nat) : Device :=
  let d1 := d.setTcp c { tcpInit with isOpen := true, next := next % 4294967296, local_ := d.tcpLocalPort c }
  ({ d1 with free := d1.free + 1 }.raise EV_ING_TCP [c, (Config.connCode 0).toNat]).tcpAsk c
/-- A connection may be open: its entry is enabled and a port can carry it, in RACE. -/
def Device.tcpMay (d : Device) (c : Nat) : Bool :=
  let e := d.ent tTcp c
  d.racing && tcEn e && (d.tcpPortOf c).isSome && !(d.tcpConn c).isOpen
/-- TCP_CONNECTION_OPEN: the first opening of an enabled connection. -/
def tcpConnectionOpen (c next : Nat) (d : Device) : Device :=
  if d.tcpMay c && (d.tcpConn c).retryAt.isNone then d.tcpOpened c next else d
/-- TCP_RECONNECT_EXPIRY: the back-off delay is over, and the attempt succeeds or not. -/
def tcpReconnectExpiry (c : Nat) (ok : Bool) (next : Nat) (d : Device) : Device :=
  let x := d.tcpConn c
  match x.retryAt with
  | none => d
  | some t =>
    if d.now < t ∨ !d.racing ∨ !tcEn (d.ent tTcp c) then d
    else if ok && d.tcpMay c then d.tcpOpened c next
    else
      let n := min 32 (2 * x.delay)
      d.setTcp c { x with delay := n, retryAt := some (d.now + n * Time.secU) }
/-- A connection is lost: it is reopened after 1 s. -/
def Device.tcpLost (d : Device) (c : Nat) : Device :=
  (d.setTcp c { tcpInit with retryAt := some (d.now + Time.secU) }).raise EV_ING_TCP [c, (Config.connCode 1).toNat]
/-- Connections end without a new attempt: their entry changes, or the device leaves RACE. -/
def Device.tcpEnd (d : Device) (c : Nat) : Device :=
  if (d.tcpConn c).isOpen then (d.setTcp c tcpInit).raise EV_ING_TCP [c, (Config.connCode 1).toNat] else d.setTcp c tcpInit
def Device.tcpEndAll (d : Device) : Device := (mkeys d.ing.conns).foldl (fun x c => x.tcpEnd c) d

def seqOff (a next : Nat) : Nat := (a + 4294967296 - next % 4294967296) % 4294967296
/-- Every octet of a segment has been received, or is held. -/
def segSeen (x : TcpRx) (seq n : Nat) : Bool :=
  (List.range n).all (fun i =>
    let o := seqOff (seq + i) x.next
    decide (o ≥ 2147483648) || x.ooo.any (fun s => decide (seqOff (seq + i) s.1 < s.2.length)))
/-- The octets of a segment that are new: within the window of 64 KiB, neither received nor held, in runs by sequence number (R71). -/
def newRuns (x : TcpRx) (seq : Nat) : List Byte → List (Nat × List Byte)
  | [] => []
  | b :: r =>
    let s := seq % 4294967296
    let rest := newRuns x (s + 1) r
    if 65536 ≤ seqOff s x.next ∨ x.ooo.any (fun h => decide (seqOff s h.1 < h.2.length)) then rest
    else match rest with
      | (t, c) :: more => if t = (s + 1) % 4294967296 then (s, b :: c) :: more else (s, [b]) :: (t, c) :: more
      | [] => [(s, [b])]
/-- Move held octets that follow on into the stream. -/
def tcpDrain (fuel : Nat) (x : TcpRx) : TcpRx :=
  match fuel with
  | 0 => x
  | n + 1 =>
    match x.ooo.find? (fun s => decide (seqOff x.next s.1 < s.2.length)) with
    | none => { x with ooo := x.ooo.filter (fun s => decide (seqOff s.1 x.next < 65536)) }
    | some s =>
      let b := s.2.drop (seqOff x.next s.1)
      tcpDrain n { x with partialFrame := x.partialFrame ++ b, next := (x.next + b.length) % 4294967296, ooo := x.ooo.filter (fun y => y != s) }
/-- Take the new octets of a segment. -/
def tcpTake (x : TcpRx) (seq : Nat) (b : List Byte) : TcpRx :=
  let l := newRuns x seq b
  tcpDrain (x.ooo.length + l.length + 1) { x with ooo := x.ooo ++ l }
/-- The TSval of a TCP header's time-stamp option. `b` are the octets of the options. -/
def tcpStamp (fuel : Nat) (b : List Byte) : Option Nat :=
  match fuel with
  | 0 => none
  | n + 1 =>
    match b with
    | [] => none
    | k :: r =>
      if k = 0#8 then none
      else if k = 1#8 then tcpStamp n r
      else if k = 8#8 ∧ beNat (slice b 1 1) = 10 then (if b.length < 10 then none else some (beNat (slice b 2 4)))
      else tcpStamp n (b.drop (max 2 (beNat (slice b 1 1))))
/-- The stamp to echo after a segment: that of the latest segment which starts at or before the next number expected (DEDUCED, log entry 73). -/
def tcpEcho (x : TcpRx) (seq : Nat) (opts : List Byte) : TcpRx :=
  let o := seqOff seq x.next
  match tcpStamp 40 opts with
  | some t => if o = 0 ∨ 2147483648 ≤ o then { x with tsRecent := some t } else { x with tsRecent := some (x.tsRecent.getD t) }
  | none => x
/-- A connection after a segment's time stamp is noted. `seg` is the segment from its TCP header on. -/
def segEcho (x : TcpRx) (seg : List Byte) : TcpRx :=
  tcpEcho x (beNat (slice seg 4 4)) ((seg.take (beNat (slice seg 12 1) / 16 * 4)).drop 20)
/-- Whole frames at the front of the stream, by FRAMESIZE, and what is left. A FRAMESIZE below 16 ends the frame there: all that is held goes
with it (DESIGN CHOICE, log entry 43). -/
def c37Cut (fuel : Nat) (b : List Byte) : List (List Byte) × List Byte :=
  match fuel with
  | 0 => ([], b)
  | n + 1 =>
    let size := beNat (slice b 2 2)
    if b.length < 4 then ([], b)
    else if size < 16 then ([b], [])
    else if b.length < size then ([], b)
    else
      let r := c37Cut n (b.drop size)
      (b.take size :: r.1, r.2)
/-- A port carries a connection's segments: the one it uses (R72), or the other of its pair where PRP runs on it (R49). -/
def Device.tcpCarries (d : Device) (c p : Nat) : Bool :=
  match d.tcpPortOf c with
  | some q => decide (p = q) || (d.prpRuns q && decide (p / 2 = q / 2))
  | none => false
/-- The PMU connection a segment received on a port belongs to. -/
def Device.connFor (d : Device) (p : Nat) (k : IpPkt) : Option Nat :=
  ((d.ents tTcp).find? (fun e => tcEn e.2 && (d.tcpConn e.1).isOpen && d.tcpCarries e.1 p && decide (tcPeer e.2 = k.src) &&
    decide ((if tcPort e.2 = 0 then d.f ING_L4PORT.TCP_PMU else tcPort e.2) = beNat (slice k.body 0 2)) &&
    decide ((d.tcpConn e.1).local_ = beNat (slice k.body 2 2)))).map (·.1)
/-- A segment of an open connection. -/
def Device.tcpSegment (d : Device) (p c : Nat) (arr : Time) (seg : List Byte) : Device :=
  let seq := beNat (slice seg 4 4)
  let b := seg.drop (beNat (slice seg 12 1) / 16 * 4)
  let fl := beNat (slice seg 13 1)
  let x := segEcho (d.tcpConn c) seg
  if fl.testBit 2 then d.tcpLost c
  else
    let d1 := if b.isEmpty then d.setTcp c x
      else if segSeen x seq b.length then ((d.setTcp c x).count ING_REPEAT).tcpAckNow c
      else
        let y := tcpTake x seq b
        let r := c37Cut (y.partialFrame.length / 4 + 2) y.partialFrame
        let d2 := (d.setTcp c { y with partialFrame := r.2 }).tcpAckNow c
        r.1.foldl (fun z f => z.c37Frame p (some c) arr f f none) d2
    if fl.testBit 0 then d1.tcpLost c else d1
/-- TCP_SEGMENT_RECEIVED: the receiver takes the oldest segment handed to it. Segments of other connections, and those with a bad checksum, are
not its own. -/
def tcpSegmentReceived (d : Device) : Device :=
  match d.ing.tcpq with
  | [] => d
  | (p, f) :: rest =>
    let d1 := { d with ing := { d.ing with tcpq := rest } }
    match d1.classify p f.bytes with
    | .tcp k =>
      if fold16 (pseudoSum k.src k.dst 6 k.body.length + octSum k.body) ≠ 65535 then d1
      else match d1.connFor p k with
        | some c => d1.tcpSegment p c f.arr k.body
        | none => d1.emit (.toStride f.bytes)
    | _ => d1

/-! R-GOOSE lanes (R76, R444). -/

/-- Write an R-GOOSE lane's record for a lap. -/
def Device.gooseLaneWrite (d : Device) (lane n : Nat) : Device :=
  let e := d.laneE lane
  let h := leHeat e
  let t := d.lapT h n
  let d0 := { d with ing := { d.ing with gooseLap := mset d.ing.gooseLap lane n } }
  match d0.laneStream lane with
  | none => d0
  | some (st, s) =>
    let m := (d0.strm st).goose.find? (fun g => decide (g.pos = lane - stFirst s ∧ g.arr < t) && (g.auth || decide (leAuth e = 1)))
    if d0.laneArrived h n lane then d0.count ING_DUP_LAP
    else (d0.deliver true [⟨lane, n, t, d0.gooseLane lane n m⟩]).2
/-- A lap of an R-GOOSE lane that is due to be written: enabled, of an enabled heat, its lap time passed and not written yet. -/
def Device.gooseDue (d : Device) (lane n : Nat) : Bool :=
  let e := d.laneE lane
  let h := leHeat e
  leEn e && d.heatOn h && decide (d.lapT h n ≤ d.now) &&
  (match d.run? h with | some r => decide (r.enableAt ≤ d.lapT h n) | none => false) &&
  (match mget d.ing.gooseLap lane with | some k => decide (k < n) | none => true) &&
  (match d.laneStream lane with | some (_, s) => decide (stProto s = 3) | none => false)
/-- RGOOSE_LANE_WRITE, once the marks of the stream's ports have passed the lap time. -/
def rgooseLaneWrite (lane n : Nat) (d : Device) : Device :=
  let t := d.lapT (leHeat (d.laneE lane)) n
  let settled := match d.laneStream lane with
    | some (_, s) => (List.range 8).all (fun p => !stPort s p || decide (t ≤ d.mark p))
    | none => false
  if d.racing && d.gooseDue lane n && settled then d.gooseLaneWrite lane n else d

end Sys2Proof.Machine
end

