-- ==== Sys2Proof/Machine/EntryBits.lean ====
section
/-!
DEFINITION. The bits of a table entry that must be 0 (R519): those its format marks reserved and those it does not use, for every table of
Table 14.8.
-/
namespace Sys2Proof.Machine

/-- Every bit of a field is 0. -/
def clr (w : Word) (hi lo : Nat) : Bool := decide (bx w hi lo = 0)
/-- Every word of a list of positions is 0. -/
def zeros (e : List Word) (l : List Nat) : Bool := l.all (fun i => wd e i = 0#32)
/-- The words of an address that its kind does not use (Table 2.3): IPv4 uses word 0, a MAC 48 bits, IPv6 all. -/
def addrClear (e : List Word) (v6 mac : Bool) : Bool :=
  if v6 then true else if mac then clr (wd e 1) 15 0 && zeros e [2, 3] else zeros e [1, 2, 3]

/-- A lane entry (Table 1.6). -/
def laneClear (e : List Word) : Bool :=
  clr (wd e 1) 17 16 && clr (wd e 2) 13 8 && clr (wd e 3) 15 0 && clr (wd e 4) 31 20 && clr (wd e 5) 30 12 && zeros e [6, 7]
/-- A heat entry (Table 1.7). -/
def heatClear (e : List Word) : Bool :=
  clr (wd e 0) 18 12 && clr (wd e 1) 31 9 && [2, 3, 4, 5].all (fun i => clr (wd e i) 31 24) && clr (wd e 6) 31 22 && zeros e [7]
/-- A signal or stream entry (Tables 2.6, 2.7): CFG3 is of C37.118 only, and KEY_REF of 90-5. -/
def signalClear (e : List Word) : Bool :=
  if sgKind e ≠ 15 then zeros e [3]
  else if stProto e ≤ 1 then clr (wd e 3) 31 24
  else clr (wd e 0) 14 14 && clr (wd e 3) 13 12 && (decide (stProto e ≠ 4) || clr (wd e 3) 11 0)
/-- A port address entry (Table 2.3); the entries after the 256th are the VLAN bitmap. -/
def portClear (pos : Nat) (e : List Word) : Bool :=
  if pos ≥ 256 then true
  else
    let grp6 := decide (addrType e = 2) && bit (wd e 4) 28
    addrClear e (decide (addrType e = 1) || grp6) (decide (addrType e = 3)) && (decide (addrType e = 2) || clr (wd e 4) 28 28) &&
      clr (wd e 4) 27 0 && zeros e [5, 6, 7]
/-- A TCP connection entry (Table 2.10). -/
def tcpClear (e : List Word) : Bool := addrClear e (bit (wd e 5) 30) false && clr (wd e 5) 29 18 && clr (wd e 6) 31 8 && zeros e [7]
/-- A kernel instance entry (Table 4.2). -/
def instClear (e : List Word) : Bool :=
  clr (wd e 0) 29 16 && clr (wd e 1) 16 0 && clr (wd e 3) 25 16 && clr (wd e 4) 29 24 && clr (wd e 5) 31 17 && zeros e [6, 7]
/-- A hurdle entry (Table 8.1): with COMB 0b00 there is no value B, and VAL_B is 0. -/
def hurdleClear (e : List Word) : Bool :=
  clr (wd e 0) 17 12 && clr (wd e 5) 31 16 && clr (wd e 6) 15 0 && (decide (bx (wd e 0) 24 23 ≠ 0) || clr (wd e 1) 15 0)
/-- A publication entry (Table 8.6). -/
def pubClear (e : List Word) : Bool :=
  clr (wd e 0) 28 24 && clr (wd e 0) 15 7 && clr (wd e 4) 27 12 && clr (wd e 5) 31 8 && clr (wd e 6) 31 12 && clr (wd e 7) 31 16
/-- A member entry (Table 8.7): a state member names a hurdle in bits 12:0 and no instance. -/
def memberClear (e : List Word) : Bool := clr (wd e 0) 28 28 && (decide (3 ≤ bx (wd e 0) 31 29) || clr (wd e 0) 27 13)
/-- A client entry (Table 8.8). -/
def clientClear (e : List Word) : Bool :=
  addrClear e (bit (wd e 5) 29) false && clr (wd e 4) 15 14 && clr (wd e 6) 31 24 && clr (wd e 6) 15 13 && clr (wd e 7) 31 20
/-- A capture channel entry (Table 9.5): a local output names no stream. -/
def capChanClear (e : List Word) : Bool :=
  clr (wd e 0) 29 6 && clr (wd e 1) 31 18 && (bit (wd e 0) 30 || clr (wd e 1) 17 0) && zeros e [3]
/-- A capture group entry (Table 9.6). -/
def capGroupClear (e : List Word) : Bool :=
  clr (wd e 0) 30 27 && clr (wd e 0) 15 9 && clr (wd e 3) 7 5 && clr (wd e 4) 31 13 && zeros e [5, 6, 7]
/-- A trigger entry (Table 9.7): the KINDs of sequence components use CH_B and CH_C, that of a rate RATE_N. -/
def triggerClear (e : List Word) : Bool :=
  let kind := bx (wd e 0) 30 28
  clr (wd e 0) 26 24 && clr (wd e 0) 7 0 && clr (wd e 1) 31 25 && clr (wd e 1) 15 9 && clr (wd e 2) 15 9 &&
    (decide (4 ≤ kind) || (clr (wd e 1) 24 16 && clr (wd e 2) 8 0)) && (decide (kind = 3) || clr (wd e 2) 31 16)
/-- A mask entry (Table 9.8). -/
def maskClear (e : List Word) : Bool := clr (wd e 0) 29 24 && clr (wd e 0) 7 0 && clr (wd e 1) 31 9
/-- A metering point entry (Table 10.1): the words used follow from its KIND. -/
def pointClear (e : List Word) : Bool :=
  clr (wd e 0) 21 0 && zeros e [7] &&
  (if bx (wd e 0) 30 29 = 3 then clr (wd e 1) 23 0 && zeros e [3, 4, 5, 6]
   else if bx (wd e 0) 30 29 = 0 then [1, 2, 3, 4, 5, 6].all (fun i => clr (wd e i) 23 14)
   else [1, 2].all (fun i => clr (wd e i) 23 14) && zeros e [3, 4, 5, 6])
/-- A link entry (Table 12.1); the address of an RXL link is ignored. -/
def linkClear (pos : Nat) (e : List Word) : Bool :=
  (decide (pos < 4) || addrClear e (bit (wd e 4) 30) false) && clr (wd e 4) 28 24 && clr (wd e 4) 15 12 && clr (wd e 5) 31 12 &&
    clr (wd e 6) 31 16 && zeros e [7]
/-- A span entry (Table 12.7). -/
def spanClear (e : List Word) : Bool :=
  clr (wd e 0) 23 22 && clr (wd e 0) 15 7 && clr (wd e 1) 31 24 &&
    (List.range 32).all (fun i => clr (wd e (4 + i)) 31 28 && clr (wd e (4 + i)) 15 12)

/-- R519 for an entry of a table. The parameter store, the string area and the name area are exempt; a graph and a filter bank are checked whole
(R192, R278). -/
def entryClear (t pos : Nat) (e : List Word) : Bool :=
  match t with
  | 0x01 => laneClear e
  | 0x02 => heatClear e
  | 0x03 => signalClear e
  | 0x04 => portClear pos e
  | 0x05 => tcpClear e
  | 0x06 => instClear e
  | 0x08 => hurdleClear e
  | 0x09 => pubClear e
  | 0x0A => memberClear e
  | 0x0C => clientClear e
  | 0x0D => clr (wd e 0) 15 14
  | 0x11 => capChanClear e
  | 0x12 => capGroupClear e
  | 0x13 => clr (wd e 0) 15 9
  | 0x14 => triggerClear e
  | 0x15 => maskClear e
  | 0x16 => pointClear e
  | 0x17 => zeros e [12, 13, 14, 15]
  | 0x18 => linkClear pos e
  | 0x19 => clr (wd e 0) 7 6
  | 0x1A => spanClear e
  | _ => true

end Sys2Proof.Machine
end

