-- ==== Sys2Proof/Machine/InstCheck.lean ====
section
/-!
DEFINITION. The checks of a kernel instance at its load (R135): the parameter block of each kernel of the library, its length, its limits and its
references (R140 to R145, R154 to R160, R170, R176, R180, R183, R187, R188, R365).
-/
namespace Sys2Proof.Machine

/-- What a kernel's check finds: the length of its block in words and its output count where the block is sound. -/
structure KCheck where
  ok : Bool
  len : Nat
  nout : Nat
  deriving DecidableEq, Repr

def kBad : KCheck := ⟨false, 0, 0⟩

/-- A finite and positive number. -/
def fPos (x : Word) : Bool := fFinite x && fLt fZero x
/-- A number within two bounds. -/
def fIn (x a b : Word) : Bool := fLe a x && fLe x b
/-- A count within two bounds. -/
def within (n a b : Nat) : Bool := decide (a ≤ n ∧ n ≤ b)

/-- A signal reference (R141) of a kind to a lane of the heat: 0 phasor, 1 frequency, 2 ROCOF. -/
def Device.refOk (d : Device) (h kind : Nat) (r : Word) : Bool :=
  let e := d.laneE (refLane r)
  clr r 23 14 && decide (refKind r = kind) && decide (leHeat e = h) && (if kind = 0 then decide (refSlot r < leNph e) else decide (refSlot r = 0))
/-- The words of a block from a position. -/
def wFrom (p : List Word) (i n : Nat) : List Word := slice p i n
/-- The header of a phasor kernel: the element count, and words 1 to 3 unused from a word on. -/
def hdrOk (p : List Word) (max_ fromWord : Nat) : Bool :=
  clr (wd p 0) 31 16 && within (bx (wd p 0) 15 0) 1 max_ && (List.range 4).all (fun i => decide (i < fromWord) || wd p i = 0#32)

/-! The phasor family. -/

def Device.chkAngdiff (d : Device) (h : Nat) (p : List Word) : KCheck :=
  let n := bx (wd p 0) 15 0
  ⟨hdrOk p 1024 1 && (wFrom p 4 (2 * n)).all (d.refOk h 0), 4 + 2 * n, n⟩
/-- Entries of a reference and a weight or scale. -/
def Device.pairsOk (d : Device) (h kind : Nat) (l : List Word) : Bool :=
  (chunks 2 (l.length + 1) l).all (fun x => d.refOk h kind (wd x 0) && fPos (wd x 1))
def Device.chkVmag (d : Device) (h : Nat) (p : List Word) : KCheck :=
  let n := bx (wd p 0) 15 0
  ⟨hdrOk p 4096 1 && d.pairsOk h 0 (wFrom p 4 (2 * n)), 4 + 2 * n, n⟩
def Device.chkSeqcomp (d : Device) (h : Nat) (p : List Word) : KCheck :=
  let n := bx (wd p 0) 15 0
  ⟨hdrOk p 1024 1 && (wFrom p 4 (3 * n)).all (d.refOk h 0), 4 + 3 * n, 7 * n⟩
/-- The groups of CORRIDOR and of the area kernels: each a descriptor and its entries. Answers whether all are sound, the position after the
last, and the number of references. -/
def Device.chkGroups (d : Device) (h : Nat) (p : List Word) (desc : List Word → Option Nat) (kind : Nat) : Nat → Nat → Nat → Bool × Nat × Nat
  | 0, pos, refs => (true, pos, refs)
  | k + 1, pos, refs =>
    match desc (wFrom p pos 4) with
    | none => (false, pos, refs)
    | some n =>
      if d.pairsOk h kind (wFrom p (pos + 4) (2 * n)) then d.chkGroups h p desc kind k (pos + 4 + 2 * n) (refs + n) else (false, pos, refs)
/-- A corridor's descriptor gives its number of entries. -/
def corridorDesc (g : List Word) : Option Nat :=
  let a := bx (wd g 0) 31 16
  let b := bx (wd g 0) 15 0
  if within a 1 64 && within b 1 64 && fFinite (wd g 1) && fFinite (wd g 2) && wd g 3 = 0#32 then some (a + b) else none
/-- A group's descriptor. -/
def groupDesc (g : List Word) : Option Nat :=
  let n := (wd g 0).toNat
  if within n 1 4096 && fFinite (wd g 1) && wd g 2 = 0#32 && wd g 3 = 0#32 then some n else none
def Device.chkCorridor (d : Device) (h : Nat) (p : List Word) : KCheck :=
  let n := bx (wd p 0) 15 0
  if !hdrOk p 64 1 then kBad
  else
    let r := d.chkGroups h p corridorDesc 0 n 4 0
    ⟨r.1, r.2.1, n⟩
def Device.chkAreafreq (d : Device) (h : Nat) (p : List Word) : KCheck :=
  let n := bx (wd p 0) 15 0
  if !hdrOk p 64 1 then kBad
  else
    let r := d.chkGroups h p groupDesc 1 n 4 0
    ⟨r.1 && decide (r.2.2 ≤ 16384), r.2.1, 2 * n⟩
def Device.chkArearocof (d : Device) (h : Nat) (p : List Word) : KCheck :=
  let n := bx (wd p 0) 15 0
  let mode := bx (wd p 1) 31 30
  if !hdrOk p 64 2 || decide (mode ≥ 2) || !clr (wd p 1) 29 8 || (decide (mode = 1) && !within (bx (wd p 1) 7 0) 2 50) then kBad
  else
    let r := d.chkGroups h p groupDesc (if mode = 0 then 2 else 1) n 4 0
    ⟨r.1 && decide (r.2.2 ≤ 16384), r.2.1, n⟩

/-! Virtual and local PMUs. -/

/-- The reporting rates of Table 4.7. -/
def pmuRates (nom60 : Bool) : List Nat := if nom60 then [10, 12, 15, 20, 30, 60, 120] else [10, 25, 50, 100]
/-- OFFSET_US of an instance: its group delay and its wait, rounded up (R144). -/
def Device.pmuOffset (d : Device) (h : Nat) (p : List Word) (wait : Nat) : Nat :=
  let e := d.heatE h
  ceilUs (pmHalf (pmM p) (if heNom60 e then 60 else 50) (heRate e)) + wait
/-- A stored entry is an SV or R-SV stream (Table 2.6). -/
def Device.isSv (d : Device) (st : Nat) : Bool :=
  let e := d.ent tSignal st
  stIs e && decide (stProto e = 2 ∨ stProto e = 4)
/-- Enabled VPMU and LPMU instances other than the one loaded. -/
def Device.otherPmus (d : Device) (inst : Nat) : List (Nat × List Word) :=
  d.insts.filter (fun e => decide (e.1 ≠ inst) && decide (ieCode e.2 = kVPMU ∨ ieCode e.2 = kLPMU))
/-- What VPMU and LPMU share. -/
def Device.pmuOk (d : Device) (inst h : Nat) (e p : List Word) (src wait : Nat) : Bool :=
  let le := d.laneE (pmLane p)
  let he := d.heatE h
  clr (wd p 0) 29 28 && clr (wd p 0) 23 18 && clr (wd p 1) 23 14 && clr (wd p 4) 31 24 && clr (wd p 5) 31 24 &&
  within (pmNph p) 0 16 && within (pmTrip p) 0 4 && (!pmPos p || decide (1 ≤ pmTrip p)) &&
  decide (leSrc le = src) && decide (leHeat le = h) && decide (leNph le = pmNph p + pmTrip p) && decide (leNana le = 0) && decide (leNdig le = 0) &&
  (pmuRates (heNom60 he)).contains (heRate he) && decide (ieOffset e = d.pmuOffset h p wait) &&
  (d.otherPmus inst).all (fun x => decide (pmLane (d.param x.2) ≠ pmLane p))
def Device.chkVpmu (d : Device) (inst h : Nat) (e p : List Word) : KCheck :=
  let st := bx (wd p 0) 17 0
  ⟨d.pmuOk inst h e p 9 (bx (wd p 3) 23 0) && clr (wd p 2) 31 16 && clr (wd p 3) 31 24 && wd p 6 = 0#32 && wd p 7 = 0#32 &&
   decide (popcount (pmMask p) = pmNph p) && d.isSv st &&
   (d.otherPmus inst).all (fun x => decide (ieCode x.2 ≠ kVPMU) || decide (bx (wd (d.param x.2) 0) 17 0 ≠ st)), 8, 0⟩
def Device.chkLpmu (d : Device) (inst h : Nat) (e p : List Word) : KCheck :=
  ⟨d.pmuOk inst h e p 8 (bx (wd p 7) 23 0) && clr (wd p 0) 17 0 && clr (wd p 7) 31 24, 8, 0⟩

/-! The oscillation family. -/

/-- Enabled instances of a kernel other than the one loaded. -/
def Device.others (d : Device) (inst code : Nat) : List (Nat × List Word) := (d.instsOf code).filter (fun e => decide (e.1 ≠ inst))
/-- An OSCDEC signal: its references suit its kind (Table 5.2). -/
def Device.oscSigOk (d : Device) (h : Nat) (s : List Word) : Bool :=
  let k := bx (wd s 0) 31 28
  clr (wd s 0) 27 0 && within k 0 4 && fPos (wd s 3) &&
  (if k = 0 then d.refOk h 1 (wd s 1) && wd s 2 = 0#32
   else if k = 1 then d.refOk h 0 (wd s 1) && wd s 2 = 0#32
   else d.refOk h 0 (wd s 1) && d.refOk h 0 (wd s 2))
def Device.oscBrOk (d : Device) (h : Nat) (b : List Word) : Bool :=
  clr (wd b 0) 19 0 && d.refOk h 0 (wd b 1) && d.refOk h 0 (wd b 2) && wd b 3 = 0#32
def Device.chkOscdec (d : Device) (inst h : Nat) (p : List Word) : KCheck :=
  let ns := odNsig p
  let nb := odNbr p
  let oth := (d.others inst kOSCDEC).map (fun x => d.param x.2)
  let rate := d.rate h
  ⟨clr (wd p 0) 30 14 && clr (wd p 1) 23 13 && clr (wd p 2) 31 14 && clr (wd p 3) 31 12 && within ns 0 8192 && within nb 0 4096 &&
   within (odHold p) 1 255 && [1, 2, 4, 8].any (fun k => decide (rate = odOsr p * k)) &&
   (chunks 4 (ns + 1) (wFrom p 4 (4 * ns))).all (d.oscSigOk h) && (chunks 4 (nb + 1) (wFrom p (4 + 4 * ns) (4 * nb))).all (d.oscBrOk h) &&
   decide (oth.length < 64) && decide ((oth.map odNsig).sum + ns ≤ 8192) && decide ((oth.map odNbr).sum + nb ≤ 4096), 4 + 4 * (ns + nb), 0⟩
/-- HEAT is the heat of an enabled OSCDEC instance (R154). -/
def Device.refHeatOk (d : Device) (h : Nat) : Bool := d.oscs.any (fun x => decide (ieHeat x.2.1 = h))
def bandOk (p : List Word) (b : Nat) : Bool :=
  let lo := wd p (12 + 4 * b)
  let hi := wd p (13 + 4 * b)
  wd p (15 + 4 * b) = 0#32 && (fLt lo hi || (fIsZero lo && fIsZero hi))
def Device.chkOscmon (d : Device) (inst h : Nat) (p : List Word) : KCheck :=
  let pc := monPc p
  ⟨d.refHeatOk h && (d.others inst kOSCMON).isEmpty && clr (wd p 0) 31 14 && clr (wd p 1) 30 25 && clr (wd p 1) 15 8 && clr (wd p 2) 31 16 &&
   clr (wd p 7) 31 8 && zeros p [8, 9, 10, 11] && within (monN p) 16 8192 && within pc 16 384 && decide (pc % 16 = 0) &&
   within (monOrder p) 16 160 && decide (monOrder p % 2 = 0) && within (monTau p) 250 16384 &&
   fIn (wd p 3) (ofRat 1 2) (ofRat 99 100) && decide (pc ≤ monN p) && within (bx (wd p 7) 7 0) 1 255 && (List.range 16).all (bandOk p), 76, 592⟩
def Device.chkFodet (d : Device) (inst h : Nat) (p : List Word) : KCheck :=
  let osr := match d.oscs.find? (fun x => decide (ieHeat x.2.1 = h)) with | some x => odOsr x.2.2 | none => 25
  ⟨d.refHeatOk h && (d.others inst kFODET).isEmpty && clr (wd p 0) 31 2 && clr (wd p 1) 31 5 && zeros p [5, 6, 7] && decide (bx (wd p 0) 1 0 ≠ 3) &&
   within (foAvg p) 2 16 && fIn (foCoh p) fZero fOne && fIn (foMin p) (ofRat (9 * osr) (foLen p)) (ofRat 9 2), 8, 99⟩
def Device.chkDefloc (d : Device) (inst h : Nat) (p : List Word) : KCheck :=
  let nb := dlNbr p
  ⟨d.refHeatOk h && decide ((d.others inst kDEFLOC).length < 4) && clr (wd p 0) 31 13 && clr (wd p 1) 31 12 && clr (wd p 2) 31 6 && clr (wd p 2) 3 1 &&
   clr (wd p 5) 31 16 && within nb 1 4096 && (!bit (wd p 2) 0 || fIn (wd p 3) (ofRat 1 100) (fOfNat 5)) && fIn (wd p 4) (ofRat 1 100) (ofRat 1 2) &&
   within (dlWin p) 50 1500, 8, 68 + nb⟩
/-- The nominal frequency of a ROM response; the unclassed ones and the RAM bank have none (Table 9.1). -/
def respNom60 (code : Nat) : Option Bool := if 8 ≤ code then none else some ([2, 3, 6, 7].contains code)
/-- A channel of SSODET: a stream entry is SV or R-SV, its channel is one of its own, and the heat's nominal frequency is the one the source
serves: that of a stream's rate, where its rate is of one frequency (R77), and that of a running local channel's response (DEDUCED, log entry 77). -/
def Device.ssoChanOk (d : Device) (h : Nat) (w : Word) : Bool :=
  let st := d.ent tSignal (bx w 23 6)
  let n60 := heNom60 (d.heatE h)
  clr w 30 24 && (if bit w 31 then
      !d.fb LMF_CH_STAT.RUNNING (bx w 5 0) || (match respNom60 (d.f LMF_CH_STAT.ACTIVE (bx w 5 0)) with | some x => x == n60 | none => true)
    else d.isSv (bx w 23 6) && decide (bx w 5 0 < stNch st) &&
    (match bx (wd st 3) 15 14 with | 0 => !n60 | 1 => n60 | _ => true))
def Device.chkSsodet (d : Device) (h : Nat) (e p : List Word) : KCheck :=
  let n := ssNch p
  ⟨clr (wd p 0) 31 7 && clr (wd p 1) 31 24 && wd p 3 = 0#32 && within n 1 64 && decide (5000 + ssWait p ≤ ieOffset e) &&
   (wFrom p 4 n).all (d.ssoChanOk h), 4 + n, 4 * n⟩

/-! The island family. -/

def Device.chkIslin (d : Device) (inst h : Nat) (p : List Word) : KCheck :=
  let det := d.instE (bx (wd p 0) 11 0)
  let oth := d.others inst kISLIN
  ⟨clr (wd p 0) 31 12 && zeros p [1, 2, 3] && ieEn det && decide (ieCode det = kISLDET) && decide (ieHeat det ≠ h) && decide (oth.length < 7) &&
   oth.all (fun x => decide (ieHeat x.2 ≠ h)), 4, 0⟩
def Device.chkIsldet (d : Device) (inst : Nat) (p : List Word) : KCheck :=
  ⟨(d.others inst kISLDET).isEmpty && within (bx (wd p 0) 31 24) 1 255 && within (bx (wd p 0) 23 16) 1 255 && clr (wd p 0) 15 0 && zeros p [4, 5, 6, 7] &&
   fIn (wd p 1) (ofRat 1 100) (fOfNat 2) && fIn (wd p 2) (ofRat 1 100) (fOfNat 2) && fIn (wd p 3) (ofRat 1 20) (ofRat 4 5), 8, 584⟩
def Device.chkIslsum (d : Device) (inst h : Nat) (p : List Word) : KCheck :=
  ⟨(d.others inst kISLSUM).isEmpty && d.spans h && clr (wd p 0) 31 12 && zeros p [1, 2, 3], 4 + bx (wd p 0) 11 0, 385⟩

/-- The check of a kernel's block; a code outside the library fails. -/
def Device.kernCheck (d : Device) (inst : Nat) (e p : List Word) : KCheck :=
  let h := ieHeat e
  match ieCode e with
  | 0x0101 => d.chkAngdiff h p
  | 0x0102 => d.chkCorridor h p
  | 0x0103 => d.chkAreafreq h p
  | 0x0104 => d.chkArearocof h p
  | 0x0105 => d.chkVmag h p
  | 0x0106 => d.chkSeqcomp h p
  | 0x0110 => d.chkVpmu inst h e p
  | 0x0111 => d.chkLpmu inst h e p
  | 0x0201 => d.chkOscdec inst h p
  | 0x0202 => d.chkOscmon inst h p
  | 0x0203 => d.chkFodet inst h p
  | 0x0204 => d.chkDefloc inst h p
  | 0x0210 => d.chkSsodet h e p
  | 0x0301 => d.chkIslin inst h p
  | 0x0302 => d.chkIsldet inst p
  | 0x0303 => d.chkIslsum inst h p
  | _ => kBad

/-- The output block's place in the output store, in bytes (R135). -/
def outPlace (e : List Word) : Nat × Nat := (16 * ieOut e, 16 * ieOut e + 16 + 4 * ieNout e)
/-- The checks of R135 on an entry with EN = 1. -/
def Device.instOk (d : Device) (inst : Nat) (e : List Word) : Bool :=
  let p := d.param e
  let k := d.kernCheck inst e p
  let o := outPlace e
  decide (1 ≤ ieLen e) && decide (ieOfs e + ieLen e ≤ 262144) && k.ok && decide (ieLen e = (k.len + 3) / 4) && (p.drop k.len).all (· = 0#32) &&
  decide (ieTrig e = b2n (kernTimer (ieCode e))) && decide (ieNout e = k.nout) && decide (o.2 ≤ 2097152) &&
  d.insts.all (fun x => decide (x.1 = inst) || decide (o.2 ≤ (outPlace x.2).1) || decide ((outPlace x.2).2 ≤ o.1))

end Sys2Proof.Machine
end

