-- ==== Sys2Proof/Machine/Lmf.lean ====
section
/-!
DEFINITION. Modulator inputs and filter chains (spec/09, R264 to R281).
-/
namespace Sys2Proof.Machine

def chanInit : LmfChan := ⟨false, 0, 0, false, [], [], none, false, none, none, none, 0, 0, none, none⟩
def Device.chan (d : Device) (c : Nat) : LmfChan := mgetD d.lmf.chans c chanInit
def Device.setChan (d : Device) (c : Nat) (x : LmfChan) : Device := { d with lmf := { d.lmf with chans := mset d.lmf.chans c x } }
def Device.running (d : Device) (c : Nat) : Bool := d.fb LMF_CH_STAT.RUNNING c

/-! Responses (R268, R278). -/

/-- A RAM bank (Table 9.3). -/
def Device.ramBank (d : Device) (c : Nat) : List Word := d.ent tFilter 0 c
/-- The six stage lengths of a bank, in the order L1, L2, L3, L4, LC, LP. -/
def ramLens (b : List Word) : List Nat :=
  [bx (wd b 0) 30 24, bx (wd b 0) 21 16, bx (wd b 0) 13 8, bx (wd b 0) 5 0, bx (wd b 1) 13 8, bx (wd b 1) 5 0]
/-- The taps of a bank's stage: the halves, end tap to centre tap, mirrored. -/
def ramTaps (b : List Word) (stage : Nat) : List Word :=
  let ls := ramLens b
  let at_ := 4 + ((ls.take stage).map (fun l => (l + 1) / 2)).sum
  let half := (b.drop at_).take ((ls.getD stage 0 + 1) / 2)
  half ++ half.dropLast.reverse
/-- The taps of a response's stage. -/
def Device.taps (d : Device) (c code stage : Nat) : List Word :=
  if code = 15 then ramTaps (d.ramBank c) stage else Config.romTaps code stage
/-- D of the phasor path in ps: Table 9.1, or R278 for the RAM bank. -/
def Device.dPh (d : Device) (c code : Nat) : Nat :=
  if code = 15 then
    let l := ramLens (d.ramBank c)
    9228516 + ((l.getD 0 1 - 1) / 2 * 6250 + (l.getD 1 1 - 1) / 2 * 12500 + (l.getD 2 1 - 1) / 2 * 25000 + (l.getD 3 1 - 1) / 2 * 50000 +
      (l.getD 5 1 - 1) / 2 * 100000) * 1000
  else
    [1209228516, 1209228516, 1009228516, 1009228516, 2409228516, 2409228516, 2009228516, 2009228516, 1609228516, 1609228516, 1609228516,
     1609228516].getD code 0
/-- D of the capture path in ps. -/
def Device.dCap (d : Device) (c code : Nat) : Nat :=
  if code = 15 then
    let l := ramLens (d.ramBank c)
    9228516 + ((l.getD 0 1 - 1) / 2 * 6250 + (l.getD 4 1 - 1) / 2 * 12500) * 1000
  else
    [109228516, 609228516, 109228516, 609228516, 109228516, 609228516, 109228516, 609228516, 409228516, 109228516, 209228516,
     809228516].getD code 0
/-- N of a path: 256 + ceil(2 D / T). -/
def settleN (dly period : Nat) : Nat := 256 + (2 * dly + period - 1) / period
def Device.nPh (d : Device) (c code : Nat) : Nat := settleN (d.dPh c code) 100000000
def Device.nCap (d : Device) (c code : Nat) : Nat := settleN (d.dCap c code) 12500000

/-- The check of a bank (R278): lengths odd and in range, coefficients finite, CRC-32 right, reserved fields zero. -/
def ramCheck (b : List Word) : Bool :=
  let ls := ramLens b
  let n := (ls.map (fun l => (l + 1) / 2)).sum
  ls.zipIdx.all (fun l => decide (l.1 % 2 = 1 ∧ (if l.2 ≤ 3 then 3 else 1) ≤ l.1)) &&
  decide (wd b 0 &&& 0x80C0C0C0#32 = 0#32) && decide (wd b 1 &&& 0xFFFFC0C0#32 = 0#32) && decide (wd b 2 = 0#32) &&
  ((b.drop 4).take n).all fFinite && (b.drop (4 + n)).all (· == 0#32) && decide (w32 (crc32 (leBytes (b.drop 4))) = wd b 3)

/-! The filters (R266, R267). -/

def tri (n : Nat) : Nat := n * (n + 1) / 2
/-- The weight of the bit `j` edges old: three windows of 64 in turn. -/
def sincW (j : Nat) : Nat := tri (j + 1) + 3 * tri (j + 1 - 128) - 3 * tri (j + 1 - 64)
/-- A sinc3 sample of the last 190 bits: ones density 1 gives +1.0, density 0 gives -1.0. Bits before the start give nothing. -/
def sincOf (bits : List (Bool × Bool)) : SincS :=
  let v : Int := (bits.zipIdx.map (fun b => if b.1.1 then (sincW b.2 : Int) else -(sincW b.2 : Int))).sum
  let y := ofRat v 262144
  ⟨y, bits.any (·.2), fLt 0x3F733333#32 (fAbs y)⟩
/-- One output of a stage: the taps on the newest samples (newest first); samples before the start are 0. -/
def firOne (taps xs : List Word) : Word := sum16 (taps.zipIdx.map (fun t => (some t.1, xs.getD t.2 0#32)))
/-- `n` outputs, newest first, of a stage that takes one input in `step`. -/
def firMany (taps : List Word) (step n : Nat) (xs : List Word) : List Word := (List.range n).map (fun k => firOne taps (xs.drop (step * k)))
/-- A capture output's y from the sinc3 samples. -/
def Device.yCap (d : Device) (c code : Nat) (xs : List Word) : Word :=
  let tc := d.taps c code 4
  firOne tc (firMany (d.taps c code 0) 2 tc.length xs)
/-- Phasor path outputs wanted of stages L1, L2, L3 and L4. -/
def Device.phNeed (d : Device) (c code : Nat) : Nat × Nat × Nat × Nat :=
  let n4 := (d.taps c code 5).length
  let n3 := 2 * (n4 - 1) + (d.taps c code 3).length
  let n2 := 2 * (n3 - 1) + (d.taps c code 2).length
  (2 * (n2 - 1) + (d.taps c code 1).length, n2, n3, n4)
/-- A phasor output's y. -/
def Device.yPh (d : Device) (c code : Nat) (xs : List Word) : Word :=
  let n := d.phNeed c code
  let y1 := firMany (d.taps c code 0) 2 n.1 xs
  let y2 := firMany (d.taps c code 1) 2 n.2.1 y1
  let y3 := firMany (d.taps c code 2) 2 n.2.2.1 y2
  let y4 := firMany (d.taps c code 3) 2 n.2.2.2 y3
  firOne (d.taps c code 5) y4
/-- The sinc3 samples a path's output is computed from. -/
def Device.spanCap (d : Device) (c code : Nat) : Nat := (d.taps c code 0).length + 2 * ((d.taps c code 4).length - 1)
def Device.spanPh (d : Device) (c code : Nat) : Nat := (d.taps c code 0).length + 2 * ((d.phNeed c code).1 - 1)

/-- An output before its tag: value, FAULT mark, OVR mark. -/
structure FirOut where
  val : Word
  bad : Bool
  ovr : Bool
  deriving DecidableEq, Repr
/-- An output of a path (true phasor): the active response, or the blend of a fade at its output `k` (R275), then SCALE and OFFSET (R269). -/
def Device.pathOut (d : Device) (c : Nat) (ph : Bool) (fade : Option (Nat × Nat)) : FirOut :=
  let h := (d.chan c).hist
  let xs := h.map (·.val)
  let act := d.f LMF_CH_STAT.ACTIVE c
  let y (code : Nat) : Word := if ph then d.yPh c code xs else d.yCap c code xs
  let span (code : Nat) : Nat := if ph then d.spanPh c code else d.spanCap c code
  let n := match fade with | some (o, _) => max (span act) (span o) | none => span act
  let v := match fade with
    | some (o, k) => fFma (ofRat ((k : Int) + 1) 256) (fSub (y act) (y o)) (y o)
    | none => y act
  ⟨fFma (d.rg LMF_CH_SCALE c) v (d.rg LMF_CH_OFFSET c), (h.take n).any (·.bad), (h.take n).any (·.ovr)⟩

/-- A time tag in ns (R270): the edge less D (ps) and EXT_DLY_NS, to the nearest nanosecond. -/
def timeTag (edge : Time) (dps ext : Nat) : Nat := (edge * 1000 + Time.nsU * 500 - (dps + ext * 1000) * Time.nsU) / (1000 * Time.nsU)
/-- The time of an SDC edge, to half a CLK_TK tick: half a tick after the last one, or at it. -/
def Device.edgeTime (d : Device) (half : Bool) : Time := if half then d.tk.now + d.tk.inc / 2 else d.tk.now

/-! Modulator bits (R264, R265). -/

/-- One modulator bit of a channel; a running chain takes it into its window. -/
def chanBit (running : Bool) (x : LmfChan) (b : Bool) : LmfChan :=
  let run := if b = x.level then x.run + 1 else 1
  let good := if run ≥ 4096 then 0 else x.good + 1
  let stuck := decide (run ≥ 4096) || (x.stuck && decide (good < 65536))
  { x with level := b, run := run, good := good, stuck := stuck, bits := if running then ((b, stuck) :: x.bits).take 190 else x.bits }
/-- Sixty-four bits, oldest in bit 0, and the sinc3 sample after them. -/
def chanBits (running : Bool) (w : Nat) (x : LmfChan) : LmfChan :=
  let y := (List.range 64).foldl (fun a i => chanBit running a (w.testBit i)) x
  if running then { y with hist := (sincOf y.bits :: y.hist).take 2048 } else y
/-- The bits of one strobe, 128 of each channel, for the groups that are enabled. -/
def lmfBits (ws : List Nat) (d : Device) : Device :=
  let one (m : NMap LmfChan) (c : Nat) : NMap LmfChan :=
    if d.fb LMF_GRP.EN (c / 8) then
      let r := d.running c
      mset m c (chanBits r (ws.getD c 0 / 2 ^ 64) (chanBits r (ws.getD c 0 % 2 ^ 64) (mgetD m c chanInit)))
    else m
  { d with lmf := { d.lmf with chans := (List.range 64).foldl one d.lmf.chans } }

/-- CHANNEL_FAULT: the channel's input has become stuck (R265). -/
def channelFault (c : Nat) (d : Device) : Device :=
  if (d.chan c).stuck && !d.fb LMF_CH_STAT.FAULT c && decide (c < 64) then
    ((d.setf LMF_CH_STAT.FAULT 1 c).count LMF_FAULTS).raise EV_LMF_FAULT [c, 1]
  else d
/-- CHANNEL_FAULT_CLEAR: 65,536 edges have passed without such a run. -/
def channelFaultClear (c : Nat) (d : Device) : Device :=
  if !(d.chan c).stuck && d.fb LMF_CH_STAT.FAULT c then (d.setf LMF_CH_STAT.FAULT 0 c).raise EV_LMF_FAULT [c, 0] else d

/-! Starting, stopping and switching (R272 to R276). -/

/-- A write or load is rejected or ignored (R279). -/
def lmfErr (c code : Nat) (d : Device) : Device := (d.err LMF_CH_STAT.ERR LMF_CH_STAT.ECODE code c).count LMF_REJECTS
/-- A request made at `t` is due at a phasor strobe at `edge`. -/
def lmfDue (t edge : Time) : Bool := decide (t + 2 * Time.usU ≤ edge)
/-- A stop takes effect: a fade in progress and a queued request are discarded. -/
def chainStop (c : Nat) (d : Device) : Device :=
  let d1 := d.setChan c { d.chan c with stop := false, switch := none, queued := none, fade := none, unsetPh := 0, unsetCap := 0 }
  ((((d1.setf LMF_CH_STAT.RUNNING 0 c).setf LMF_CH_STAT.FADING 0 c).setf LMF_CH_STAT.QUEUED 0 c).setf LMF_CH_STAT.QSEL 0 c).setf
    LMF_CH_STAT.UNSET 0 c
/-- A start takes effect: all filter state is zero. -/
def chainStart (c code : Nat) (d : Device) : Device :=
  if code = 15 && !d.fb LMF_CH_STAT.RAM_OK c then lmfErr c 3 (d.setChan c { d.chan c with start := none })
  else
    let d1 := d.setChan c { d.chan c with
      start := none, bits := [], hist := [], fade := none, switch := none, queued := none, unsetPh := d.nPh c code, unsetCap := d.nCap c code,
      lastD := none }
    ((d1.setf LMF_CH_STAT.RUNNING 1 c).setf LMF_CH_STAT.ACTIVE code c).setf LMF_CH_STAT.UNSET (d.nPh c code) c
/-- A cross-fade starts; a request for the RAM bank is checked when it acts. -/
def fadeStart (c code : Nat) (edge : Time) (d : Device) : Device :=
  let old := d.f LMF_CH_STAT.ACTIVE c
  let d0 := d.setChan c { d.chan c with switch := none }
  if code = 15 && !d.fb LMF_CH_STAT.RAM_OK c then lmfErr c 3 d0
  else
    let d1 := d0.setChan c { d0.chan c with fade := some (old, 0, 0), unsetPh := d.nPh c code, unsetCap := d.nCap c code }
    let d2 := (((d1.setf LMF_CH_STAT.FADING 1 c).setf LMF_CH_STAT.ACTIVE code c).setf LMF_CH_STAT.UNSET (d.nPh c code) c).count LMF_FADES
    let d3 := d2.raise EV_LMF_SWITCH [c, old, code]
    if d3.racing then d3.journalW 0x1A 0 edge [w32 c, w32 old, w32 code] else d3
/-- What takes effect at a phasor strobe, before its outputs. -/
def chainApply (c : Nat) (edge : Time) (d : Device) : Device :=
  let d1 := if (d.chan c).stop then chainStop c d else d
  let d2 := match (d1.chan c).start with
    | some (code, t) => if lmfDue t edge && d1.fb LMF_GRP.EN (c / 8) then chainStart c code d1 else d1
    | none => d1
  match (d2.chan c).switch with
  | some (code, t) => if d2.running c && lmfDue t edge then fadeStart c code edge d2 else d2
  | none => d2

/-! Outputs. -/

/-- Count the outputs marked OVR; the event at most once a second a channel (R266). -/
def ovrMark (c : Nat) (d : Device) : Device :=
  let d1 := (d.count LMF_OVR).raiseSec (d.chan c).ovrSec EV_LMF_OVR [c]
  d1.setChan c { d1.chan c with ovrSec := some d.sec }
/-- A chain's capture output at a strobe. -/
def capOutput (c : Nat) (edge : Time) (d : Device) : Device :=
  let x := d.chan c
  let fk := match x.fade with | some (o, kc, _) => if kc < 256 then some (o, kc) else none | none => none
  let o := d.pathOut c false fk
  let dc := d.dCap c (d.f LMF_CH_STAT.ACTIVE c)
  let tag := timeTag edge dc (d.f LMF_CH_DLY.EXT_DLY_NS c) * Time.nsU
  let d1 := d.setChan c { x with
    fade := x.fade.map (fun f => (f.1, f.2.1 + 1, f.2.2)), unsetCap := x.unsetCap - 1, lastD := some dc }
  let d2 := d1.count LMF_CAP_OUT
  let d3 := if o.ovr then ovrMark c d2 else d2
  acqLocal c tag o.val (decide (x.unsetCap > 0)) (o.bad || o.ovr) (decide (x.lastD ≠ some dc)) d3
/-- A sample store entry (Table 9.2). The third of a local Sample's fields holds word 3. -/
def localEntry (s : Sample) : List Word :=
  [wd s.vals 0, w32 (qbit s.unsync 31 + qbit (s.bad.testBit 0) 30 + Time.nsOf s.tAt), w32 (Time.secOf s.tAt), w32 s.cnt]
/-- Write an entry into a channel's ring of 8,192 (R271), from which SSODET's decimated samples are made (R181). -/
def ringPut (c : Nat) (s : Sample) (d : Device) : Device :=
  let l := d.ring (localRing c) ++ [s]
  { d with ing := { d.ing with rings := mset d.ing.rings (localRing c) (l.drop (l.length - 8192)) } }.ssoFeed c
/-- A cross-fade has had its 256th phasor output (R276). -/
def fadeEnd (c : Nat) (d : Device) : Device :=
  let x := d.chan c
  let next := match x.queued with
    | some q => if q = d.f LMF_CH_STAT.ACTIVE c then none else some (q, 0)
    | none => none
  let d1 := d.setChan c { x with fade := none, queued := none, switch := next }
  ((d1.setf LMF_CH_STAT.FADING 0 c).setf LMF_CH_STAT.QUEUED 0 c).setf LMF_CH_STAT.QSEL 0 c
/-- A chain's phasor output at a strobe: the device, and the entry of the sample store. -/
def phOutput (c : Nat) (edge : Time) (d : Device) : Sample × Device :=
  let x := d.chan c
  let fk := match x.fade with | some (o, _, kp) => some (o, kp) | none => none
  let o := d.pathOut c true fk
  let act := d.f LMF_CH_STAT.ACTIVE c
  let tag := timeTag edge (d.dPh c act) (d.f LMF_CH_DLY.EXT_DLY_NS c) * Time.nsU
  let s : Sample := ⟨tag, qbit fk.isSome 31 + qbit o.ovr 30 + act * 16777216, [o.val], b2n (o.bad || o.ovr), decide (x.unsetPh > 0), d.tk.now⟩
  let d1 := d.setChan c { x with fade := x.fade.map (fun f => (f.1, f.2.1, f.2.2 + 1)), unsetPh := x.unsetPh - 1 }
  let d2 := (d1.setf LMF_CH_STAT.UNSET (x.unsetPh - 1) c).count LMF_PH_OUT
  let d3 := if o.ovr then ovrMark c d2 else d2
  let d4 := if (match fk with | some (_, k) => decide (k ≥ 255) | none => false) then fadeEnd c d3 else d3
  (s, if d4.racing then ringPut c s d4 else d4)

def Device.runningChans (d : Device) : List Nat := (List.range 64).filter (fun c => d.running c)
/-- Capture outputs of every running chain. -/
def capOutputs (edge : Time) (d : Device) : Device := d.runningChans.foldl (fun x c => capOutput c edge x) d
/-- Phasor outputs of every running chain, and their journal entry (R281). -/
def phOutputs (edge : Time) (d : Device) : Device :=
  let cs := d.runningChans
  let r := cs.foldl (fun (a : List Word × Device) c => let o := phOutput c edge a.2; (a.1 ++ localEntry o.1, o.2)) ([], d)
  if r.2.racing && !cs.isEmpty then
    r.2.journalW 0x03 0 edge ([w32 ((cs.filter (· < 32)).map (2 ^ ·)).sum, w32 ((cs.filter (32 ≤ ·)).map (fun c => 2 ^ (c - 32))).sum] ++ r.1)
  else r.2

/-! The commands. -/

/-- CAPTURE_STROBE: the 128 bits of each channel since the last strobe, oldest in bit 0; `half` places the edge half a tick on. Seven
capture strobes stand between two phasor strobes. -/
def captureStrobe (half : Bool) (ws : List Nat) (d : Device) : Device :=
  if !d.measuring || decide (d.lmf.phase ≥ 7) then d
  else
    let d1 := lmfBits ws d
    capOutputs (d.edgeTime half) { d1 with lmf := { d1.lmf with phase := d1.lmf.phase + 1 } }
/-- PHASOR_STROBE: each eighth strobe, which is also a capture strobe. -/
def phasorStrobe (half : Bool) (ws : List Nat) (d : Device) : Device :=
  if !d.measuring || decide (d.lmf.phase ≠ 7) then d
  else
    let edge := d.edgeTime half
    let d1 := lmfBits ws d
    let d2 := (List.range 64).foldl (fun x c => chainApply c edge x) { d1 with lmf := { d1.lmf with phase := 0 } }
    phOutputs edge (capOutputs edge d2)

/-- LMF_GRP_WRITE (R264). -/
def lmfGrpWrite (g : Nat) (v : Word) (d : Device) : Device :=
  let on := d.fb LMF_GRP.EN g
  let chg := (on && !bit v 31) || decide (bx v 30 30 ≠ d.f LMF_GRP.EDGE g)
  if chg && (List.range 8).any (fun i => d.running (8 * g + i)) then d.setf LMF_GSTAT.CFG_ERR 1
  else
    let d1 := d.wr LMF_GRP g (v &&& 0xC0000000#32)
    if on = bit v 31 then d1 else d1.emit (.pin 4 g (bit v 31))

/-- A write of RUN := 0 (R272). -/
def lmfRunStop (c : Nat) (v : Word) (d : Device) : Device :=
  let d1 := d.wr LMF_CH_CTL c (v &&& 0x0000000F#32)
  d1.setChan c { d1.chan c with start := none, stop := d.running c }
/-- A write of RUN that asks for a start (R272). -/
def lmfRunStart (c : Nat) (v : Word) (d : Device) : Device :=
  let sel := bx v 3 0
  if 12 ≤ sel ∧ sel ≤ 14 then lmfErr c 6 d
  else if !d.fb LMF_GRP.EN (c / 8) then lmfErr c 4 d
  else if sel = 15 ∧ !d.fb LMF_CH_STAT.RAM_OK c then lmfErr c 3 d
  else
    let d1 := d.wr LMF_CH_CTL c (v &&& 0x8000000F#32)
    d1.setChan c { d1.chan c with start := some (sel, match (d.chan c).start with | some (_, t) => t | none => d.tk.now) }
/-- A write of RUN = 1 to a running chain (R274, R276). -/
def lmfSwitch (c : Nat) (v : Word) (d : Device) : Device :=
  let sel := bx v 3 0
  let x := d.chan c
  if 12 ≤ sel ∧ sel ≤ 14 then lmfErr c 6 d
  else if d.fb LMF_CH_STAT.FADING c then
    let d1 := (d.wr LMF_CH_CTL c (v &&& 0x8000000F#32)).setChan c { x with queued := some sel }
    ((d1.setf LMF_CH_STAT.QUEUED 1 c).setf LMF_CH_STAT.QSEL sel c).count (if x.queued.isSome then LMF_REPLACED else LMF_QUEUED)
  else if sel = d.f LMF_CH_STAT.ACTIVE c then d.wr LMF_CH_CTL c (v &&& 0x8000000F#32)
  else if sel = 15 ∧ !d.fb LMF_CH_STAT.RAM_OK c then lmfErr c 3 d
  else (d.wr LMF_CH_CTL c (v &&& 0x8000000F#32)).setChan c { x with switch := some (sel, d.tk.now) }
/-- A write of LMF_CH_CTL: a stop, a start, or a switch request. -/
def lmfCtlWrite (c : Nat) (v : Word) (d : Device) : Device :=
  if !bit v 31 then lmfRunStop c v d
  else if d.running c && !(d.chan c).stop then lmfSwitch c v d
  else lmfRunStart c v d
/-- LMF_CH_SCALE, LMF_CH_OFFSET and LMF_CH_DLY: only while the chain is stopped (R279). -/
def lmfSetWrite (r : RegDef) (c : Nat) (v : Word) (d : Device) : Device := if d.running c then lmfErr c 2 d else d.wr r c v
/-- A load of a RAM bank (R278): its status, 0 OK, 3 REFUSED, 4 LOCKED. A bank that fails its check is not stored (R400). -/
def ramLoad (c : Nat) (b : List Word) (d : Device) : Nat × Device :=
  if d.running c then (4, lmfErr c 1 d)
  else if ramCheck b then (0, (d.setEnt tFilter 0 b c).setf LMF_CH_STAT.RAM_OK 1 c)
  else (3, lmfErr c 5 (d.setf LMF_CH_STAT.RAM_OK 0 c))

end Sys2Proof.Machine
end

