-- ==== Sys2Proof/Machine/EntryCheck.lean ====
section
/-!
DEFINITION. The write-permission rules (R520 step 1) and the own checks (step 3) of the tables of Table 14.8, entry by entry, and of the atomic tables
as wholes.
-/
namespace Sys2Proof.Machine

/-- An entry has been stored since RESET. -/
def Device.stored (d : Device) (t pos : Nat) (idx : Nat := 0) : Bool := (mget d.tables (tabKey t idx pos)).isSome

/-! Write permission. -/

/-- The span of signal entries of a lane (R62), from its first: none where no enabled stream's range holds the lane. -/
def Device.laneSpan (d : Device) (lane : Nat) (e : List Word) : Option Nat :=
  (d.laneStream lane).map (fun s => if stProto s.2 = 3 then d.gooseSpan e else c37Span e)
/-- A signal position lies in the span of a lane of an enabled heat, whether the lane is in use or not (R63, R29). -/
def Device.sigLocked (d : Device) (pos : Nat) : Bool :=
  (d.ents tLane).any (fun x =>
    d.heatOn (leHeat x.2) &&
    (match d.laneSpan x.1 x.2 with | some n => decide (leSig x.2 ≤ pos ∧ pos < leSig x.2 + n) | none => false))
/-- The heat of a stored instance entry is enabled; an entry never stored names none. -/
def Device.instHeatOn (d : Device) (i : Nat) : Bool := d.stored tInst i && d.heatOn (ieHeat (d.instE i))
/-- A kernel of the oscillation monitor, whose entries stand while it runs (R160). -/
def monKernel (k : Nat) : Bool := [kOSCDEC, kOSCMON, kFODET, kDEFLOC].contains k
/-- The write-permission rule of a table forbids this write. -/
def Device.entryLocked (d : Device) (t pos : Nat) (e : List Word) : Bool :=
  match t with
  | 0x01 => d.heatOn (leHeat e) || d.heatOn (leHeat (d.laneE pos))
  | 0x02 => d.heatOn pos
  | 0x03 => d.sigLocked pos
  | 0x06 => d.heatOn (ieHeat e) || d.instHeatOn pos ||
      (d.fb OSM_CTL.RUN && (monKernel (ieCode e) || (ieEn (d.instE pos) && monKernel (ieCode (d.instE pos)))))
  | 0x07 => d.insts.any (fun x => decide (ieOfs x.2 ≤ pos ∧ pos < ieOfs x.2 + ieLen x.2))
  | 0x08 => d.instHeatOn (huInst e) || (d.stored tHurdle pos && d.instHeatOn (huInst (d.ent tHurdle pos)))
  | 0x0C => d.heatOn (clHeat e) || (d.stored tClient pos && d.heatOn (clHeat (d.clientE pos)))
  | 0x11 | 0x12 | 0x13 | 0x14 | 0x15 => !d.acqIdle
  | 0x16 => peEn (d.ent tPoint pos) && peEn e
  | 0x18 => d.linkUp pos
  | _ => false

/-! Lanes, heats and streams. -/

/-- The signal entries of a span suit a lane (R62). -/
def Device.spanOk (d : Device) (e : List Word) (goose : Bool) : Bool :=
  let n := if goose then d.gooseSpan e else c37Span e
  decide (leSig e + n ≤ 262144) && (goose || decide (sgKind (d.ent tSignal (leSig e)) = 6)) &&
  (List.range n).all (fun i =>
    let s := d.ent tSignal (leSig e + i)
    match sgKind s with
    | 0 => decide (sgSlot s < leNph e)
    | 3 => decide (sgSlot s < leNana e)
    | 4 => if sgFmt s = 8 then decide (sgSlot s % 16 < leNdig e) else decide (sgSlot s < leNdig e)
    | _ => true)
/-- R28, R62, R355. -/
def Device.laneOk (d : Device) (pos : Nat) (e : List Word) : Bool :=
  decide (leNph e ≤ 64) && decide (leNana e ≤ 16) && decide (leNdig e ≤ 12) && decide (leCnt e = recCountOf (leNph e) (leNana e) (leNdig e)) &&
  decide (leSubst e ≤ 1) && decide (leAuth e ≤ 1) &&
  (match d.laneStream pos with | some s => d.spanOk e (stProto s.2 = 3) | none => true) &&
  (!(d.spans (leHeat e) && lePin e) || (seMembers (d.spanE (leHeat e))).contains (lePinDev e))
/-- R27. -/
def heatEntryOk (e : List Word) : Bool :=
  decide (bx (wd e 0) 30 27 ≤ 11) && within (heDepth e) 2 256 && decide (heWmin e ≤ heWmax e) && decide (heWmax e < heFinish e) &&
  decide (heWfix e < heFinish e) && decide (heFinish e ≤ (heDepth e - 1) * periodUs (heRate e))
/-- The class and key of a stream (R60). -/
def streamKey (e : List Word) : Nat × Nat × Nat := if stProto e ≤ 1 then (0, stIdent e, 0) else (stProto e, stIdent e, stMatch e)
/-- Capacity units of a stream (R77). -/
def svUnits (e : List Word) : Nat := if stProto e = 2 ∨ stProto e = 4 then (if bx (wd e 3) 15 14 = 2 then 4 else 1) else 0
/-- R60. -/
def Device.streamOk (d : Device) (pos : Nat) (e : List Word) : Bool :=
  let pr := stProto e
  let oth := d.streams.filter (fun s => decide (s.1 ≠ pos))
  decide (pr ≤ 4) && decide (stAlg e ≤ 4) && (decide (pr ≤ 1) || decide (bx (wd e 3) 15 14 ≠ 3)) && (decide (stAlg e = 0) || decide (pr = 2 ∨ pr = 3)) &&
  decide (stNch e ≤ 16) && (decide (1 < pr) || decide (stBase e ≠ 0)) &&
  (!stLanes e || (decide (stFirst e + stCnt e ≤ 16384) &&
    (List.range (stCnt e)).all (fun k =>
      let l := d.laneE (stFirst e + k)
      !leEn l || (decide (leStream l = if pr ≤ 1 then stIdent e else pos) && decide (leSub l = k) && d.spanOk l (pr = 3))))) &&
  oth.all (fun s => decide (streamKey s.2 ≠ streamKey e)) && decide (oth.length < 4096) && decide ((oth.map (fun s => svUnits s.2)).sum + svUnits e ≤ 256)
/-- R61. -/
def signalOk (e : List Word) : Bool :=
  match sgKind e with
  | 0 => decide (sgFmt e ≤ 3)
  | 1 | 2 | 3 => [4, 5, 7].contains (sgFmt e)
  | 4 => [6, 8, 9].contains (sgFmt e)
  | 6 => decide (sgFmt e = 6)
  | 14 => decide (sgFmt e ≤ 9)
  | _ => false

/-! Hurdles, egress. -/

/-- R235. -/
def Device.hurdleOk (d : Device) (pos : Nat) (e : List Word) : Bool :=
  let ie := d.instE (huInst e)
  let rest := (d.ents tHurdle).filter (fun x => decide (x.1 ≠ pos))
  decide (huOpA e ≤ 4) && decide (huOpB e ≤ 4) && decide (huComb e ≤ 2) && decide (huNanp e ≤ 2) && ieEn ie && decide (huValA e < ieNout ie) &&
  decide (huValB e < ieNout ie) && fFinite (wd e 2) && fFinite (wd e 4) && fFinite (wd e 3) && fLe fZero (wd e 3) &&
  (fIsZero (wd e 3) || decide (huOpA e ≤ 2)) && decide (huOn e ≠ 0) && decide (huOff e ≠ 0) &&
  decide ((rest.map (fun x => d.hurReserve x.2)).sum + d.hurReserve e ≤ 131072)
/-- A member of a publication names something that is there (R250). -/
def Device.memberOk_ (d : Device) (m : Word) : Bool :=
  match bx m 31 29 with
  | 0 | 1 | 2 => huEn (d.ent tHurdle (bx m 12 0))
  | 3 => ieEn (d.instE (bx m 27 16)) && decide (bx m 15 0 < ieNout (d.instE (bx m 27 16)))
  | _ => false
/-- The octets of a publication's session PDU, signature included: two of the transport, 26 of the session header, four of the payload
length and six before the APDU (R252). -/
def routedLen (sec : Nat) (enc : Bool) (pdu : Nat) : Nat :=
  let tag := if enc then 16 else macLen sec
  38 + pdu + (if sec = 0 then 0 else 2 + tag)
/-- A publication whose numbers take their longest encoding. -/
def Device.pubLongest (d : Device) (pos : Nat) (e : List Word) : List Byte :=
  (d.setGoose pos { gooseInit with stNum := 4294967295, sqNum := 4294967295, interval := bx (wd e 2) 15 0 }).goosePdu pos e
/-- The length on the wire, FCS included, of a publication's longest message on a port. -/
def Device.pubLen (d : Device) (pos p : Nat) (e : List Word) : Nat :=
  let m := d.pubLongest pos e
  let pdu := if pubRouted e then List.replicate (routedLen (bx (wd e 4) 31 29) (bit (wd e 4) 28) m.length) 0#8 else m
  4 + (d.gooseFrame p e pdu).length
/-- R250. -/
def Device.pubOk (d : Device) (pos : Nat) (e : List Word) : Bool :=
  let sec := bx (wd e 4) 31 29
  let n := bx (wd e 0) 6 0
  within n 1 64 && within (bx (wd e 2) 31 16) 1 1000 && within (bx (wd e 2) 15 0) (bx (wd e 2) 31 16) 60000 && decide (sec ≤ 4) &&
  (pubRouted e || (decide (sec = 0) && !bit (wd e 4) 28)) && (!bit (wd e 4) 28 || decide (sec = 4)) &&
  decide (bx (wd e 6) 11 0 + n ≤ 4096) && (d.pubMembers e).all d.memberOk_ &&
  (List.range 8).all (fun p => !(pubPorts e).testBit p || decide (d.pubLen pos p e ≤ d.f ETH_CFG.MAXLEN p))
/-- The length of a client's data frame (R254). -/
def Device.clientFrameLen (d : Device) (e : List Word) : Nat :=
  16 + ((d.clientList e).map (fun l =>
    let x := d.laneE l
    10 + 8 * leNph x + 4 * leNana x + 2 * leNdig x)).sum
/-- R254. -/
def Device.clientOk (d : Device) (e : List Word) : Bool :=
  let n := d.clientFrameLen e
  within (clLanes e) 1 4096 && decide (clBase e + clLanes e ≤ 16384) && (d.clientList e).all (fun l => decide (leHeat (d.laneE l) = clHeat e)) &&
  decide (n ≤ 65535) &&
  (clTcp e || (List.range 8).all (fun p => !(clPorts e).testBit p || decide (n + 46 ≤ d.f ETH_CFG.MAXLEN p)))

/-! Capture, energy, Rharix. -/

/-- Table 9.5. -/
def Device.capChanOk (d : Device) (e : List Word) : Bool :=
  decide (-1000000 ≤ ccSkew e ∧ ccSkew e ≤ 1000000) && (!ccSv e || (d.isSv (ccStream e) && decide (ccCh e ≤ 15)))
/-- Table 9.6. -/
def Device.capGroupOk (d : Device) (e : List Word) : Bool :=
  let l := (List.range (geNch e)).map (fun i => bx (wd (d.ent tCapList (geBase e + i)) 0) 8 0)
  within (geNch e) 1 256 && decide (geBase e + geNch e ≤ 2048) && decide (l.eraseDups.length = l.length) && decide (1 ≤ bx (wd e 1) 15 0) &&
  decide (bx (wd e 1) 15 0 ≤ bx (wd e 2) 31 16) && within (geSlotKib e) 64 4194303 && within (geNslot e) 1 16
/-- Table 9.7. -/
def triggerOk (e : List Word) : Bool :=
  decide (trKind e ≤ 6) && decide (1 ≤ trPersist e) && (decide (trKind e ≠ 3) || within (bx (wd e 2) 31 16) 1 1024) && fPos (wd e 3)
/-- Table 9.8. -/
def maskOk (e : List Word) : Bool := decide (1 ≤ trPersist e) && fLe fZero (wd e 2) && fLe fZero (wd e 3)
/-- R297. -/
def Device.pointOk (d : Device) (pos : Nat) (e : List Word) : Bool :=
  decide (peQuant e ≤ 6) && decide (peInt e ≤ 5) &&
  (if peKind e = 3 then
     decide (wd e 2 ≠ 0#32) && decide (peQty e ≤ 5) &&
     (d.ents tPoint).all (fun x => decide (x.1 = pos) || !peEn x.2 || decide (peKind x.2 ≠ 3) || decide (pePlsi x.2 ≠ pePlsi e))
   else
     let refs := (List.range (if peKind e = 0 then 6 else 2)).map (fun i => wd e (1 + i))
     refs.all (fun r => decide (refKind r = 0) && decide (refLane r = peLane e)) && decide (leSrc (d.laneE (peLane e)) = 8 ∨ leSrc (d.laneE (peLane e)) = 9))
/-- R344. -/
def Device.linkOk (d : Device) (pos : Nat) (e : List Word) : Bool :=
  decide (lkPeer e ≠ d.self) &&
  (decide (pos < 4) || (decide (lkPorts e ≠ 0) && (List.range 8).all (fun p => !(lkPorts e).testBit p || decide (874 ≤ d.f ETH_CFG.MAXLEN p))))
/-- R360. -/
def Device.spanEntryOk (d : Device) (pos : Nat) (e : List Word) : Bool :=
  let m := seMembers e
  within (seNmem e) 1 64 && decide (m.eraseDups.length = m.length) && m.contains d.self && decide (seAnchor e < seNmem e) &&
  decide (seDev e (seAnchor e) = heAnchor (d.heatE pos)) && (!seAltEn e || (decide (seAlt e < seNmem e) && decide (seAlt e ≠ seAnchor e)))

/-- The own checks of a table on an entry (R520 step 3): of an entry with an EN bit only while it is 1. -/
def Device.entryOk (d : Device) (t pos : Nat) (e : List Word) : Bool :=
  match t with
  | 0x01 => !leEn e || d.laneOk pos e
  | 0x02 => heatEntryOk e
  | 0x03 => if stIs e then !stEn e || d.streamOk pos e else signalOk e
  | 0x05 => !tcEn e || (stIs (d.ent tSignal (tcStream e)) && decide (stProto (d.ent tSignal (tcStream e)) = 1))
  | 0x06 => !ieEn e || d.instOk pos e
  | 0x08 => !huEn e || d.hurdleOk pos e
  | 0x09 => !pubEn e || d.pubOk pos e
  | 0x0C => !clEn e || d.clientOk e
  | 0x11 => !ccEn e || d.capChanOk e
  | 0x12 => !geEn e || d.capGroupOk e
  | 0x14 => !trEn e || triggerOk e
  | 0x15 => !trEn e || maskOk e
  | 0x16 => !peEn e || d.pointOk pos e
  | 0x18 => !lkEn e || d.linkOk pos e
  | 0x1A => !seEn e || d.spanEntryOk pos e
  | _ => true

/-- The status of one entry of a load (R520): 0 OK, 3 REFUSED, 4 LOCKED. -/
def Device.entryStatus (d : Device) (t pos : Nat) (e : List Word) : Nat :=
  if d.entryLocked t pos e then 4 else if !entryClear t pos e then 3 else if !d.entryOk t pos e then 3 else 0

end Sys2Proof.Machine
end

