-- ==== Sys2Proof/Machine/TableUnit.lean ====
section
/-!
DEFINITION. The table unit (R399 to R401, R519, R520): loads and reads of the tables, what a stored entry brings about, and heat control
(R30 to R34, R113 to R117, R214, R216, R360).
-/
namespace Sys2Proof.Machine

/-- What the table unit answers: STATUS and DETAIL (Table 14.7). -/
structure TabRes where
  status : Nat
  detail : Nat
  deriving DecidableEq, Repr

/-! What a stored entry brings about. -/

/-- A publication starts (R251): at its load or when the device begins to transmit. -/
def Device.gooseStart (d : Device) (n : Nat) : Device :=
  let e := d.ent tPub n
  let d1 := d.setGoose n { gooseInit with spdu := (d.gooseSt n).spdu }
  if pubEn e && d1.mayTx then (d1.gooseNew n e 1).gooseGo else d1
/-- An entry of the signal table has replaced another: a stream that was there, or is there now, starts afresh (R68), its last accepted SPDU
number included (DESIGN CHOICE, log entry 73). -/
def Device.signalStored (d : Device) (pos : Nat) (old e : List Word) : Device :=
  if stIs old || stIs e then d.setStrm pos streamInit else d
/-- After an entry has been stored. -/
def Device.entryStored (d : Device) (t pos : Nat) (old : List Word) : Device :=
  match t with
  | 0x01 => if old = d.laneE pos then d else d.clientsChanged (fun e => (d.clientList e).contains pos)
  | 0x03 => d.signalStored pos old (d.ent tSignal pos)
  | 0x05 => d.tcpEnd pos
  | 0x06 => d.setHome pos
  | 0x08 => (d.hurRestart pos none).levels
  | 0x09 => d.gooseStart pos
  | 0x0C => d.clientLoaded pos
  | 0x0D => if old = d.ent t pos then d else d.clientsChanged (fun e => decide (clBase e ≤ pos) && decide (pos < clBase e + clLanes e))
  | 0x0E => if old = d.ent t pos then d else d.clientsChanged (fun e => decide (clName e < 4 * pos + 4))
  | 0x16 => d.pointLoaded pos old
  | 0x18 => d.linkRefresh pos 4
  | _ => d
/-- The entry as it is kept: EN of a heat entry is a read-back. -/
def entryKept (t : Nat) (e : List Word) : List Word := if t = 0x02 then lset e 0 (bset (wd e 0) 31 31 0) else e
/-- Store an entry that has passed its tests. -/
def Device.storeEntry (d : Device) (t pos : Nat) (e : List Word) (idx : Nat) : Device :=
  (d.setEnt t pos (entryKept t e) idx).entryStored t pos (d.ent t pos idx)

/-! Loads. -/

/-- A load of a non-atomic table stores entries in ascending position up to the first that is refused or locked (R400). -/
def loadFrom (t first : Nat) : Nat → List (List Word) → Device → TabRes × Device
  | _, [], d => (⟨0, 0⟩, d)
  | k, e :: r, d =>
    match d.entryStatus t (first + k) e with
    | 0 => loadFrom t first (k + 1) r (d.storeEntry t (first + k) e 0)
    | s + 1 => (⟨s + 1, k⟩, d)
/-- Store all entries. -/
def Device.storeAll (d : Device) (t first idx : Nat) (es : List (List Word)) : Device :=
  es.zipIdx.foldl (fun x e => x.storeEntry t (first + e.2) e.1 idx) d
/-- The enabled groups keep their limits (R282). -/
def Device.groupsOk (d : Device) : Bool := (d.ents tCapGroup).all (fun e => !geEn e.2 || d.capGroupOk e.2)
/-- The capture tables: every entry or none. -/
def Device.capLoad (d : Device) (t first : Nat) (es : List (List Word)) : TabRes × Device :=
  let st := (es.zipIdx.map (fun e => d.entryStatus t (first + e.2) e.1)).find? (· ≠ 0)
  match st with
  | some s => (⟨s, 0⟩, d)
  | none =>
    let d1 := d.storeAll t first 0 es
    if t = tCapList && !d1.groupsOk then (⟨3, 0⟩, d) else (⟨0, 0⟩, d1)
/-- A port address table (R48). -/
def Device.portLoad (d : Device) (idx : Nat) (es : List (List Word)) : TabRes × Device :=
  let uni := (es.take 256).filter (fun e => addrEn e && decide (addrType e ≤ 1))
  if (es.zipIdx.all (fun e => entryClear tPort e.2 e.1)) && decide (uni.length ≤ 8) then (⟨0, 0⟩, d.storeAll tPort 0 idx es) else (⟨3, 0⟩, d)
/-- The accumulators of an image (R312). -/
def imageAcc (e : List Word) : List Nat := (List.range 6).map (fun k => (wd e (2 * k)).toNat + (wd e (2 * k + 1)).toNat * 4294967296)
/-- An accumulator image (R312). -/
def Device.imageLoad (d : Device) (point : Nat) (e : List Word) : TabRes × Device :=
  if peEn (d.ent tPoint point) then (⟨4, 0⟩, d)
  else if !entryClear tAccImage 0 e then (⟨3, 0⟩, d)
  else (⟨0, 0⟩, d.pointPreset point (imageAcc e))
/-- Execute a load of whole entries. -/
def Device.loadEntries (d : Device) (t idx first : Nat) (es : List (List Word)) : TabRes × Device :=
  match t with
  | 0x04 => d.portLoad idx es
  | 0x0F => let r := d.graphLoad es.flatten; (⟨if r.1 then 0 else 3, 0⟩, r.2)
  | 0x10 => let r := ramLoad idx (es.headD []) d; (⟨r.1, 0⟩, r.2)
  | 0x11 | 0x12 | 0x13 | 0x14 | 0x15 => d.capLoad t first es
  | 0x17 => d.imageLoad idx (es.headD [])
  | _ => loadFrom t first 0 es d
/-- The entries of `n` bytes of data: a 2-byte entry stands in the low half of its word. -/
def entriesOf (t : Nat) (b : List Byte) : List (List Word) :=
  let n := tabBytes t
  (chunks n (b.length + 1) (b.take (b.length / n * n))).map (fun c => leWords (c.length + 1) c)
/-- An entry's bytes. -/
def entryBytes (t : Nat) (e : List Word) : List Byte := (leBytes e).take (tabBytes t)
/-- The number of entries a load with this outcome has stored. -/
def storedCount (r : TabRes) (n : Nat) : Nat := if r.status = 0 then n else r.detail
/-- The modes in which the device writes its own configuration into the journal. -/
def Device.writesConfig (d : Device) : Bool := d.pwr.mode = .warmup || d.pwr.mode = .race
/-- A TABLE_LOAD of the entries that have arrived, by its descriptor words 1 to 3, with its CONFIG entry (Table 16.3). -/
def Device.tableLoad (d : Device) (w1 w2 w3 : Word) (es : List (List Word)) : TabRes × Device :=
  let t := bx w1 31 24
  let r := d.loadEntries t (bx w1 9 0) (bx w2 23 0) es
  let n := storedCount r.1 es.length
  if n = 0 || !d.writesConfig then r
  else (r.1, r.2.journal 0x14 0 r.2.now (leBytes [w1, w2, w3] ++ (es.take n).flatMap (entryBytes t)))

/-! Reads. -/

/-- A graph bank as it is loaded. -/
def graphWords (g : Graph) : List Word :=
  if g.valid then [w32 (g.buses.length - 1), w32 (g.branches.length - 1), g.version, 0#32] ++ g.buses.flatten ++ g.branches.flatten else []
/-- An entry as it reads back. -/
def Device.readEntry (d : Device) (t idx pos : Nat) : List Word :=
  match t with
  | 0x02 => let e := d.heatE pos; lset e 0 (bset (wd e 0) 31 31 (b2n (d.heatOn pos)))
  | 0x0F => (List.range 4).map (fun i => wd (graphWords (d.graph (1 - d.isl.active))) (4 * pos + i))
  | 0x17 => ((d.point idx).acc.flatMap two) ++ List.replicate 4 0#32
  | _ => d.ent t pos idx
/-- The data of a TABLE_READ. -/
def Device.tableRead (d : Device) (t idx first n : Nat) : List Byte :=
  (List.range n).flatMap (fun k => entryBytes t (d.readEntry t idx (first + k)))

/-! The descriptor's own tests (R398, Table 14.8): the word index of the first bad field. -/

/-- The number of values INDEX may take. -/
def tabIndexes (t : Nat) : Nat := match t with | 0x04 => 8 | 0x10 => 64 | 0x17 => 512 | _ => 1
/-- The COUNT a graph's header gives (R399); `es` are the entries of a load, or of the bank read. -/
def graphCount (hdr : List Word) : Nat := 1 + 2 * (bx (wd hdr 0) 15 0 + 1) + (bx (wd hdr 1) 15 0 + 1)
/-- Whether FIRST and COUNT suit a table. -/
def firstBad (t first : Nat) : Bool := if t = 0x0F then decide (first ≠ 0) else if t = 0x04 then decide (first ≠ 0) else decide (tabCount t ≤ first)
def countBad (t first n : Nat) : Bool :=
  if t = 0x0F then decide (n = 0) else if t = 0x04 then decide (n ≠ 272) else decide (n = 0 ∨ tabCount t < first + n)

/-! Heat control. -/

/-- Records a heat requires (R30). -/
def Device.heatNeed (d : Device) (h : Nat) : Nat := ((d.heatLanes h).map (fun l => leCnt (d.laneE l))).sum * d.depth h
/-- The blocks of a bank group (R113), and a free one of them; the free blocks of a failed group are withdrawn (R461). -/
def grpBlocks (g : Nat) : List Nat := (List.range (if g < 4 then 1366 else 1365)).map (fun k => 12 * k + g)
def Device.freeIn (d : Device) (used : List Nat) (g : Nat) : List Nat :=
  if d.grpFailed g then [] else (grpBlocks g).filter (fun b => !used.contains b)
/-- Free record slots (R114). -/
def Device.slotFree (d : Device) : Nat := ((List.range 12).map (fun g => (d.freeIn d.pfa.usedBlocks g).length)).sum * 64
/-- Entries a heat reserves in its delay list (R216). -/
def Device.timerNeedOf (d : Device) (h : Nat) : Nat :=
  let p := max 1 (periodUs (d.rate h))
  2 * (heFinish (d.heatE h) / p + 2) + ((d.offsets h).map (fun o => o / p + 2)).sum
/-- Unreserved entries of a list, and the list with most of them. -/
def Device.listFree (d : Device) (l : Nat) : Nat := 2048 - d.f SRT_DLIST.RSVD l
def Device.bestList (d : Device) : Nat := (firstMax d.listFree (List.range 8)).getD 0
/-- The tests of a heat enable, in the order of R34. -/
def Device.heatTests (d : Device) (h : Nat) : TabRes :=
  let tasks := d.tokNeed h .release
  if !d.stored tHeat h then ⟨2, 1⟩
  else if (d.heatLanes h).isEmpty then ⟨6, 0⟩
  else if d.spans h && !seEn (d.spanE h) then ⟨9, 0⟩
  else if d.heatNeed h > d.slotFree then ⟨5, d.heatNeed h⟩
  else if tasks > 4096 - d.f SRT_CFG.RSV then ⟨7, tasks⟩
  else if d.timerNeedOf h > d.listFree d.bestList then ⟨8, d.timerNeedOf h⟩
  else ⟨0, 0⟩

/-- A physical block for a virtual block (R116): of its bank group's free blocks the lowest-numbered (DESIGN CHOICE, log entry 86). -/
def Device.takeBlock (d : Device) (used : List Nat) (home : Nat) : Option Nat :=
  match (d.freeIn used home).head? with
  | some b => some b
  | none => (firstMax (fun g => (d.freeIn used g).length) (List.range 12)).bind (fun g => (d.freeIn used g).head?)
/-- The lane that owns a virtual index: lanes as (lane, records). -/
def ownerAt : List (Nat × Nat) → Nat → Nat
  | [], _ => 0
  | (l, n) :: r, v => if v < n then l else ownerAt r (v - n)
/-- The blocks of an enabling heat. -/
def Device.allocBlocks (d : Device) (h : Nat) : List Nat :=
  let ls := (d.heatLanes h).map (fun l => (l, d.depth h * leCnt (d.laneE l)))
  ((List.range ((d.heatNeed h + 63) / 64)).foldl (fun (a : List Nat × List Nat) k =>
    match d.takeBlock a.1 (leId (d.laneE (ownerAt ls (64 * k))) % 12) with
    | some b => (b :: a.1, a.2 ++ [b])
    | none => a) (d.pfa.usedBlocks, [])).2
/-- A place in the block-map table for a run of `n` entries, from `k` up, among the runs there by rising place (R117): the first that is long enough
(DESIGN CHOICE, log entry 86). -/
def mapGap (n k : Nat) : List BMap → Option Nat
  | [] => if k + n ≤ 16384 then some k else none
  | m :: r => if k + n ≤ m.place then some k else mapGap n (m.place + m.blocks.length) r
/-- Compaction: the runs keep their order and close up from `k` on; records do not move. -/
def mapCompact (k : Nat) : List BMap → List BMap
  | [] => []
  | m :: r => { m with place := k } :: mapCompact (k + m.blocks.length) r
/-- An enabling heat's entries join the table, compacted first where no contiguous run of places is long enough. The entries of an enable before
stand on until its laps are over. -/
def mapAdd (h : Nat) (bs : List Nat) (l : List BMap) : List BMap :=
  let l1 := l.map (fun m => if m.heat = h then { m with old := true } else m)
  let l2 := if (mapGap bs.length 0 l1).isSome then l1 else mapCompact 0 l1
  insBy (fun a b => decide (a.place ≤ b.place)) ⟨h, (mapGap bs.length 0 l2).getD 0, bs, false⟩ l2
/-- The port set of a heat (R94). -/
def Device.portSet (d : Device) (h : Nat) : List Nat :=
  let lanes := d.heatLanes h
  let feeds := d.streams.filter (fun s => stLanes s.2 && lanes.any (fun l => decide (stFirst s.2 ≤ l ∧ l < stFirst s.2 + stCnt s.2)))
  (List.range 8).filter (fun p => feeds.any (fun s => stPort s.2 p)) ++
    (if d.spans h && lanes.any (fun l => decide (d.ownerOf h l ≠ some d.self)) then [8] else [])
/-- The estimates of a heat's lanes start, and its held copies are gone (R108, R23). -/
def Device.estStart (d : Device) (h : Nat) : Device :=
  let e := d.heatE h
  let q0 := (if d.fb PFA_ADAPT.INIT then heWmax e else heWmin e) * 1024
  (d.heatLanes h).foldl (fun x l =>
    x.setPfa { x.pfa with q := mset x.pfa.q l q0, obs := x.pfa.obs.filter (· ≠ l), heldCopy := mdel x.pfa.heldCopy l }) d
/-- HEAT entries of the journal (Table 16.3): 1 enable, 2 disable. -/
def Device.journalHeat (d : Device) (h op : Nat) : Device :=
  if d.writesConfig then d.journalW 0x13 0 d.now [w32 h, w32 op] else d
/-- A heat takes its blocks, its list and its reservation, and runs. -/
def Device.heatTake (d : Device) (h : Nat) : Device :=
  let l := d.bestList
  let n := d.timerNeedOf h
  let bs := d.allocBlocks h
  let new : HeatRun := ⟨true, d.now, 0, 0, [], d.portSet h, l, n, [], 0, 0, false, false, false, 0, 0, none⟩
  let run := match d.run? h with
    | some r => { new with oldRes := r.oldRes ++ (if r.dresv = 0 then [] else [(r.dlist, r.dresv, d.srt.order)]), eh := r.eh, win := r.win,
                           clampHi := r.clampHi, clampLo := r.clampLo, maxShort := r.maxShort, lostSec := r.lostSec }
    | none => new
  let d1 := (d.setPfa { d.pfa with bmap := mapAdd h bs d.pfa.bmap, usedBlocks := d.pfa.usedBlocks ++ bs }).setRun h run
  (d1.setf SRT_DLIST.RSVD (d1.f SRT_DLIST.RSVD l + n) l).estStart h
/-- The early release of a heat whose lanes cannot reach its QUORUM (R121). -/
def Device.quorumCheck (d : Device) (h : Nat) : Device :=
  let e := d.heatE h
  let sum := ((d.heatLanes h).map (fun l => leWeight (d.laneE l))).sum
  if heEarly e && decide (sum < heQuorum e) then d.raise EV_PFA_QUORUM_UNREACHABLE [h, heQuorum e, sum] else d
/-- A HEAT_CTL enable (R34). -/
def Device.heatEnable (d : Device) (h : Nat) : TabRes × Device :=
  if d.heatOn h then (⟨0, 0⟩, d)
  else
    let r := d.heatTests h
    if r.status ≠ 0 then (r, d)
    else
      let d1 := ((d.heatTake h).quorumCheck h).journalHeat h 1
      (r, if d1.lapsRun then d1.heatStart h else d1)
/-- A HEAT_CTL disable (R32). -/
def Device.heatDisable (d : Device) (h : Nat) : Device := if d.heatOn h then (d.heatOff h).journalHeat h 2 else d

end Sys2Proof.Machine
end

