-- ==== Sys2Proof/Machine/JApply.lean ====
section
/-!
DEFINITION. Records and partials that arrive over Rharix (R354, R360, R363), and the application of a journal entry by a follower or a Rerun
(R118, R371, R372, R449).
-/
namespace Sys2Proof.Machine

/-! Records (R354). -/

/-- The records of a payload, those of one lane and lap together. -/
def groupRecs : List (List Word) → List (List (List Word))
  | [] => []
  | r :: rest => match groupRecs rest with
    | (a :: g) :: m => if wd a 0 = wd r 0 ∧ wd a 1 = wd r 1 then (r :: a :: g) :: m else [r] :: (a :: g) :: m
    | m => [r] :: m
/-- The second nearest to `now` whose low 32 bits are given. -/
def nearSec (now low : Nat) : Nat :=
  let b := now / 4294967296 * 4294967296 + low
  if now + 2147483648 < b ∧ 4294967296 ≤ b then b - 4294967296 else if b + 2147483648 < now then b + 4294967296 else b
/-- The enabled lane of an enabled spanning heat with a lane identifier. -/
def Device.spanLane (d : Device) (laneId : Nat) : Option (Nat × List Word) :=
  (d.ents tLane).find? (fun e => leEn e.2 && decide (leId e.2 = laneId) && d.heatOn (leHeat e.2) && d.spans (leHeat e.2))
/-- One lane's records for a lap, accepted at an instant: a holder's copy, marked OWNER_REMOTE, for a mirror member, or an arrival that has come to
another device first, which the holder takes and any other member forwards again (R358). Their SRC stays what the device that converted them wrote: code 10 of Table 1.4, Rharix
Link, is not put in its place (DESIGN CHOICE, log entry 73). -/
def Device.remoteLane (d : Device) (acc : Time) (g : List (List Word)) : Device :=
  let r := g.headD []
  match d.spanLane (bx (wd r 1) 23 0) with
  | none => d.countN RXL_RX_NOTARGET g.length
  | some (lane, e) =>
    let h := leHeat e
    let idx := bx (wd r 1) 31 24
    if d.rate h ≤ idx ∨ g.length ≠ leCnt e then d.countN RXL_RX_NOTARGET g.length
    else
      let n := nearSec (Time.secOf acc) (wd r 0).toNat * d.rate h + idx
      let held := d.holds lane n
      let copy := bit (recQR g) qREMOTE
      let recs := setQual (g.map (fun x => lset x 1 (w32 (idx * 16777216 + h * 16384 + lane)))) qREMOTE (copy && !held)
      if d.laneArrived h n lane then d.count ING_DUP_LAP
      else if !d.racing then (if held || copy && d.mirrors h then d.followArrive h n lane acc recs else d)
      else if copy && !held then (if d.mirrors h then (d.pfaArrive lane n acc recs none).2 else d)
      else (d.deliver false [⟨lane, n, acc, recs⟩]).2
/-- A RECORD payload. -/
def Device.remoteRecs (d : Device) (acc : Time) (b : List Byte) : Device :=
  (groupRecs ((chunks 128 (b.length + 1) b).map (fun c => leWords (c.length + 1) c))).foldl (fun x g => x.remoteLane acc g) d

/-! Partials and passes. -/

/-- A PARTIAL payload (R363), for an enabled instance of an enabled spanning heat. -/
def Device.partIn (d : Device) (b : List Byte) : Device :=
  let w := leWords 5 (b.take 16)
  let h := bx (wd w 2) 31 22
  let inst := bx (wd w 2) 21 10
  let lap := (wd w 0).toNat + bx (wd w 1) 31 16 * 4294967296
  let frag := bx (wd w 3) 31 24
  let nfrag := bx (wd w 3) 23 16
  let pos := bx (wd w 3) 5 0
  let e := d.instE inst
  if !d.heatOn h || !d.spans h || !ieEn e || decide (ieHeat e ≠ h) || decide (nfrag ≤ frag) || decide (seNmem (d.spanE h) ≤ pos) then
    d.count RXL_RX_NOTARGET
  else d.partArrive h inst lap pos (bx (wd w 1) 15 8) (bx (wd w 1) 7 3) frag nfrag (b.drop 16)
/-- A CONTROL payload (R357). -/
def Device.controlIn (d : Device) (b : List Byte) : Device :=
  let w := leWords 5 (b.take 16)
  let h := bx (wd w 1) 31 22
  match d.spanLane (bx (wd w 0) 23 0) with
  | none => d.count RXL_RX_NOTARGET
  | some (lane, e) =>
    if bx (wd w 0) 31 28 ≠ 1 ∨ leHeat e ≠ h then d.count RXL_RX_NOTARGET
    else d.passTaken h lane ((wd w 2).toNat + bx (wd w 3) 15 0 * 4294967296)

/-! Entries. -/

/-- Two words as a 48-bit number. -/
def unTwo (w : List Word) (i : Nat) : Nat := (wd w i).toNat + (wd w (i + 1)).toNat * 4294967296
/-- Laps that open by an instant are opened, up to lap `n`: the device's own openings may stand a little behind the journal. -/
def Device.openUpTo (d : Device) (h n : Nat) (t : Time) : Device :=
  match d.run? h with
  | none => d
  | some r =>
    if !r.enabled || decide (r.firstLap = 0) then d
    else (List.range (n + 1 - r.nextLap)).foldl (fun x i => match x.run? h with
      | some r' => if x.openT h (r.nextLap + i) ≤ t then x.openNext h (r.nextLap + i) r' else x
      | none => x) d
/-- R-GOOSE lanes of a heat whose lap time precedes an instant are written first (R76, R444). -/
def Device.gooseBefore (d : Device) (h : Nat) (t : Time) : Device :=
  let lanes := (d.heatLanes h).filter (fun l => match d.laneStream l with | some (_, s) => decide (stProto s = 3) | none => false)
  (d.lapsOf h).foldl (fun x l =>
    if x.lapT h l.lap < t then
      lanes.foldl (fun y lane =>
        let new := match mget y.ing.gooseLap lane with | some k => decide (k < l.lap) | none => true
        let on := match y.run? h with | some r => decide (r.enableAt ≤ y.lapT h l.lap) | none => false
        if new && on then y.gooseLaneWrite lane l.lap else y) x
    else x) d

/-- FRAME: the dispositions, then the parser's bytes. -/
def Device.jFrame (d : Device) (e : JEntry) : Device :=
  let n := e.aux % 256
  let k := (n + 7) / 8
  let ws := leWords (k + 1) (e.payload.take (4 * k))
  let disps := (List.range n).map (fun i => bx (wd ws (i / 8)) (4 * (i % 8) + 3) (4 * (i % 8)))
  d.applyFrame (e.aux / 1048576 % 16) (e.aux.testBit 19) (e.aux.testBit 18) disps e.inst (e.payload.drop (4 * k))
/-- SV: a sample of a stream. -/
def Device.jSv (d : Device) (e : JEntry) (w : List Word) : Device :=
  let st := bx (wd w 0) 17 0
  let m := (wd w 1).toNat
  d.svWrite st ⟨sampleAt e.inst e.aux (svRate (d.ent tSignal st)), e.aux, w.drop 2, m % 65536 + m / 131072 % 2 * 131072, m.testBit 16, e.inst⟩
/-- LOCAL: an entry of the sample store for each running chain. -/
def Device.jLocal (d : Device) (e : JEntry) (w : List Word) : Device :=
  let mask := unTwo w 0
  let cs := (List.range 64).filter (fun c => mask.testBit c)
  cs.zipIdx.foldl (fun x c =>
    let i := 2 + 4 * c.2
    let sec := nearSec (Time.secOf e.inst) (wd w (i + 2)).toNat
    let q := wd w (i + 1)
    ringPut c.1 ⟨sec * Time.secU + bx q 29 0 * Time.nsU, (wd w (i + 3)).toNat, [wd w i], b2n (bit q 30), bit q 31, e.inst⟩ x) d
/-- DECISION. -/
def Device.jDecision (d : Device) (e : JEntry) (w : List Word) : Device :=
  let h := (wd w 0).toNat
  let n := unTwo w 1
  let kind := e.aux / 1048576 % 16
  let d1 := (d.openUpTo h n e.inst).gooseBefore h e.inst
  let d2 := d1.applyDecision kind (e.aux % 256) h n (wd w 3).toNat e.inst
  if kind = 0 then { d2 with rly := { d2.rly with lastLap := n } } else d2
/-- COMBINE. -/
def Device.jCombine (d : Device) (e : JEntry) (w : List Word) : Device :=
  let mask := unTwo w 5
  let ms := (List.range 64).filter (fun k => mask.testBit k)
  d.applyCombine (wd w 0).toNat (wd w 1).toNat (unTwo w 2) (wd w 4).toNat (e.aux % 256) (ms.zipIdx.map (fun m => (m.1, (wd w (7 + m.2)).toNat)))
/-- PASS: the lane by its identifier. -/
def Device.jPass (d : Device) (w : List Word) : Device :=
  match (d.ents tLane).find? (fun e => leEn e.2 && decide (leId e.2 = (wd w 0).toNat)) with
  | some (lane, e) => d.applyPass (leHeat e) lane (unTwo w 1) (wd w 3).toNat
  | none => d
/-- HEAT: at the journaled instant. Laps this device has opened after a disable are not laps. -/
def Device.jHeat (d : Device) (e : JEntry) (w : List Word) : Device :=
  let h := (wd w 0).toNat
  if (wd w 1).toNat = 1 then
    let d1 := (d.heatEnable h).2
    if d1.lapsRun && d1.heatOn h && !d.heatOn h then d1.heatStartAt h e.inst else d1
  else
    let late := (d.lapsOf h).filter (fun l => decide (e.inst < d.openT h l.lap))
    let d1 := late.foldl (fun x l => (x.stageDrop (fun s => decide (s.heat = h ∧ s.lap = l.lap))).delLap h l.lap) d
    let d2 := match d1.run? h, late with
      | some r, l :: _ => d1.setRun h { r with nextLap := l.lap }
      | _, _ => d1
    d2.heatDisable h
/-- CONFIG: the descriptor's words, and the entries stored. -/
def Device.jConfig (d : Device) (e : JEntry) (w : List Word) : Device :=
  let t := bx (wd w 0) 31 24
  (d.loadEntries t (bx (wd w 0) 9 0) (bx (wd w 1) 23 0) (entriesOf t (e.payload.drop 12))).2
/-- GRAPH: the swap lap (R207). -/
def Device.jGraph (d : Device) (w : List Word) : Device :=
  d.setIsl { d.isl with swapAt := none, swapLap := some (unTwo w 2) }
/-- MONITOR. -/
def Device.jMonitor (d : Device) (e : JEntry) (w : List Word) : Device :=
  let k := unTwo w 0 + (wd w 2).toNat * 2 ^ 64
  if e.aux = 0 then (d.setf OSM_CTL.RUN 1).osmStartAt k else (d.setf OSM_CTL.RUN 0).osmStopJ k (wd w 3).toNat
/-- GOOSE: the numbers of a publication (R371, R381). -/
def Device.jGoose (d : Device) (w : List Word) : Device :=
  let n := (wd w 0).toNat
  d.setGoose n { d.gooseSt n with stNum := (wd w 1).toNat, spdu := (wd w 2).toNat }
/-- Apply an entry. STEP and SWITCH change nothing here: the device's own time and chains run on (R281, R449); START, STATE and END belong to
checkpoints. -/
def Device.applyEntry (d : Device) (e : JEntry) : Device :=
  let w := leWords (e.payload.length + 1) e.payload
  match e.typ with
  | 0x01 => d.jFrame e
  | 0x02 => d.jSv e w
  | 0x03 => d.jLocal e w
  | 0x04 => d.plsiPulse e.aux e.inst
  | 0x05 => d.remoteRecs e.inst e.payload
  | 0x06 => d.partIn e.payload
  | 0x10 => d.jDecision e w
  | 0x11 => d.jCombine e w
  | 0x12 => d.jPass w
  | 0x13 => d.jHeat e w
  | 0x14 => d.jConfig e w
  | 0x15 => (d.thrSet (wd w 0).toNat (wd w 1).toNat (wd w 2) (unTwo w 3)).count ALM_THR_CMDS
  | 0x16 => d.jGraph w
  | 0x17 => d.jMonitor e w
  | 0x19 => d.jGoose w
  | _ => d

/-! What a Rerun does between entries (R449): openings and timers that lie before the next entry's instant. -/

/-- The earliest opening of a heat's next lap. -/
def Device.nextOpening (d : Device) : Option (Time × Nat × Nat) :=
  d.pfa.heats.foldl (fun (a : Option (Time × Nat × Nat)) r =>
    if !r.2.enabled || decide (r.2.firstLap = 0) then a
    else
      let t := d.openT r.1 r.2.nextLap
      match a with
      | some b => if t < b.1 then some (t, r.1, r.2.nextLap) else a
      | none => some (t, r.1, r.2.nextLap)) none
/-- The earliest instant of a timer that does not wait for a store entry. -/
def Device.nextTimer (d : Device) : Option Time :=
  match (d.srt.timers.filter (fun t => !t.held)).map (fun t => t.us * Time.usU) with
  | [] => none
  | a :: r => some (r.foldl min a)
/-- WAITING laps whose position is free. -/
def Device.openWaiting (d : Device) : Device :=
  (mvals d.pfa.laps).foldl (fun x l => if l.st = .waiting then lapOpenAll l.heat l.lap x else x) d
/-- The timer that is due. -/
def Device.runTimer (d : Device) : Device :=
  match d.dueTimer with
  | none => d
  | some t => match t.kind with
    | .deadline => d
    | .finish => finishLineAll t.heat t.lap d
    | .inst off => instanceTimerExpiry t.heat t.lap off d
/-- Rerun time reaches an instant; it never moves back. -/
def Device.rrAt (d : Device) (t : Time) : Device :=
  { d with jnl := { d.jnl with rrNow := max d.jnl.rrNow t }, srt := { d.srt with spent := 0 } }
/-- Run what lies up to an instant, in order of time, openings first. -/
def rrAdvance (fuel : Nat) (t : Time) (d : Device) : Device :=
  match fuel with
  | 0 => d
  | n + 1 =>
    let op := d.nextOpening
    let tm := d.nextTimer
    let opFirst := match op, tm with
      | some a, some b => decide (a.1 ≤ b)
      | some _, none => true
      | none, _ => false
    match (if opFirst then op.map (·.1) else tm) with
    | none => d
    | some at_ =>
      if t < at_ then d
      else
        let d1 := d.rrAt at_
        let d2 := if opFirst then (match op with | some a => lapOpenAll a.2.1 a.2.2 d1 | none => d1) else d1.runTimer
        rrAdvance n t d2.openWaiting

end Sys2Proof.Machine
end

