-- ==== Sys2Proof/Machine/Snap.lean ====
section
/-!
DEFINITION. Checkpoints (R446, R447) and the configuration digest (R374): what a checkpoint holds, and the state a device has after it has
loaded one.
-/
namespace Sys2Proof.Machine

/-! The digest (R374): over the tables in the order of their numbers, INDEX and position, then the graph banks. -/

def digestOf (tables : NMap (List Word)) (banks : List Graph) : Word :=
  w32 (crc32 (tables.flatMap (fun e => entryBytes (e.1 / 1099511627776) e.2) ++
    (banks.filter (·.valid)).flatMap (fun g => leBytes (graphWords g))))
def Device.cfgDigest (d : Device) : Word := digestOf d.tables d.isl.banks

/-! Registers a result depends on. -/

/-- A counter or a half-range register. -/
def countsOnly (a : Nat) : Bool :=
  ctrMap.any (fun c => a = c.base || (decide (c.stride ≠ 0) && decide (c.base ≤ a) && decide ((a - c.base) % c.stride = 0) &&
    decide (a / 65536 = c.base / 65536))) ||
  halfRegs.any (fun h => decide (h.2.1.base ≤ a ∧ a < h.2.1.base + 8))
/-- The register, by its place in BAR0, is a setting or a state of the blocks whose results a checkpoint carries. Of the Timekeeper the increment
stays out: it is no result's. -/
def snapReg (a : Nat) : Bool :=
  let o := a % 4194304
  ([0x02, 0x06, 0x08, 0x0A, 0x0C, 0x0E, 0x0F, 0x10, 0x11, 0x14, 0x15].contains (o / 65536) && !countsOnly o &&
    !(List.range RXL_PORT.count).any (fun i => a = RXL_PORT.key i) && !([TK_INC_INT.key 0, TK_INC_FRAC.key 0].contains a)) ||
  (List.range 8).any (fun p => a = ETH_CFG.key p)

/-- Take a checkpoint. -/
def Device.takeSnap (d : Device) : Snap :=
  { regs := d.regs.map (fun b => (b.1, b.2.filter (fun r => snapReg r.1))), tables := d.tables, pfa := d.pfa, srt := d.srt, pac := d.pac, osm := d.osm,
    osmKept := d.fb JNL_CFG.OSM_SNAP, osmMem := if d.fb JNL_CFG.OSM_SNAP then d.osmCells else [], isl := d.isl, alm := d.alm, goose := d.egr.goose, nrg := d.nrg, streams := d.ing.streams,
    rings := d.ing.rings, gooseLap := d.ing.gooseLap, parts := d.rxl.parts, comb := d.rxl.comb, hold := d.rxl.hold, onAlt := d.rxl.onAlt, tk := d.tk, e := d.tkE }

/-! Loading. Decisions come from the journal from here on, so a token that the other device had offered or fenced is undone, and tasks that its
engines held are ready again. -/

/-- A lap as the journal will take it on. -/
def snapLap (l : Lap) : Lap :=
  if l.st = .due ∨ l.st = .fencing then
    { l with st := .gathering, cause := 0, relT := none, waited := false, late := false, offered := none, fencing := none, need := 0,
             final := false }
  else { l with offered := none, fencing := none, need := 0 }
def snapPfa (p : Pfa) : Pfa :=
  { p with laps := p.laps.map (fun l => (l.1, snapLap l.2)), pendq := [], heldq := [], fullEp := false, busy := false }
/-- Tasks in flight go back to the heads of their queues. -/
def snapQueues (s : Srt) : NMap (List Task) :=
  s.flight.reverse.foldl (fun q t => mmod q t.prio [] (fun l => { t with phase := .queued, eng := 0, gathered := none } :: l)) s.queues
def snapSrt (own s : Srt) : Srt :=
  { s with queues := snapQueues s, flight := [], reserved := 0, timers := s.timers.filter (fun t => decide (t.kind ≠ .deadline)), spent := 0,
           refused := false, held := [], admin := own.admin, ustate := own.ustate, pinSec := own.pinSec, slipSec := own.slipSec }
/-- The Timekeeper in a Rerun: the state of the other device's, whose ages go on from the start line, over this one's own time, sources and ports. -/
def snapTk (own s : Tk) (e : Option Nat) : Tk :=
  { s with now := own.now, ticks := own.ticks, inc := own.inc, intW := own.intW, manual := own.manual, held := own.held, incLog := own.incLog,
           step := none, srcs := own.srcs, inLimit := none, leftAt := s.leftAt.map (fun t => own.ticks - (s.ticks - t)), lossAt := own.ticks,
           lossE := e, ports := own.ports, ppsOut := own.ppsOut, latch := own.latch }
/-- The registers: those of the checkpoint, with this device's drivers; the Timekeeper's and ports' only in a Rerun, which takes no frames of its
own and whose results' UTC, SYNC and TQ are the other device's. -/
def snapRegs (rerun : Bool) (own s : NMap (NMap Word)) : NMap (NMap Word) :=
  let mine (a : Nat) : Bool := !snapReg a || (!rerun && decide (a % 4194304 / 65536 = 4 ∨ a % 4194304 / 65536 = 2))
  s.foldl (fun m b => b.2.foldl (fun m r => if mine r.1 then m else mmod m b.1 [] (fun x => mset x r.1 r.2)) m)
    (own.map (fun b => (b.1, b.2.filter (fun r => mine r.1))))
/-- Bring the levels shown in registers up to date. -/
def Device.showLevels (d : Device) : Device :=
  let d1 := (((d.stageShow).pendShow).storeShow 0).inFlight
  (List.range 8).foldl (fun x l => (x.setf SRT_RDYQ.LEVEL (x.queue l).length l).listUsed l) d1
/-- Load a checkpoint. -/
def Device.restore (d : Device) (s : Snap) (rerun : Bool) : Device :=
  let drv := d.f ALM_AOUT.DRV_EN
  let d1 : Device :=
    { d with
      regs := snapRegs rerun d.regs s.regs
      tables := s.tables
      pfa := snapPfa s.pfa
      srt := snapSrt d.srt s.srt
      pac := { s.pac with eng := d.pac.eng, testing := d.pac.testing }
      osm := if s.osmKept then s.osm else osmInit
      isl := s.isl
      alm := { s.alm with buf := d.alm.buf, lost := d.alm.lost, lossEp := d.alm.lossEp }
      egr := { d.egr with goose := s.goose }
      nrg := { s.nrg with inputs := d.nrg.inputs, slot := d.nrg.slot, buf := d.nrg.buf, lostBefore := d.nrg.lostBefore, dropEp := d.nrg.dropEp }
      ing := { d.ing with streams := s.streams, rings := s.rings, gooseLap := s.gooseLap }
      rxl := { d.rxl with parts := s.parts, comb := s.comb, hold := s.hold, onAlt := s.onAlt }
      tk := if rerun then snapTk d.tk s.tk s.e else d.tk }
  let d2 := if s.osmKept then (d1.ddrClear d1.osmBase osmBytes).ddrCells s.osmMem else ((d1.osmState .stopped).setf OSM_CTL.RUN 0).setf OSM_INBUF.LEVEL 0
  ((d2.setf ALM_AOUT.DRV_EN drv).setf PFA_WIN_STAT.BUSY 0).showLevels

/-- A checkpoint is asked for: it is due at the next microsecond tick (R446). -/
def Device.ckptRequest (d : Device) : Device := { d with jnl := { d.jnl with ckptAsk := some ((d.tk.now / Time.usU + 1) * Time.usU) } }
/-- The words of a START entry (Table 16.3). -/
def Device.startWords (d : Device) : List Word :=
  two d.sec ++ [d.rg GBL_IDENT 0, d.rg PAC_LIB_VER 0, w32 (b2n (d.fb JNL_CFG.OSM_SNAP))]

/-! Entries from their bytes (R406, R442, R443). -/

/-- The packets of a run of bytes; none where a length word or its packet is malformed. -/
def unpack (fuel : Nat) (b : List Byte) : Option (List Packet) :=
  match fuel with
  | 0 => none
  | n + 1 =>
    if b.isEmpty then some []
    else
      let w := ofLe (b.take 4)
      let len := bx w 23 0
      let all := 4 + (len + 3) / 4 * 4
      if b.length < all ∨ !bit w 31 ∨ len = 0 ∨ 16380 < len then none
      else (unpack n (b.drop all)).map (fun r => ⟨bit w 30, bx w 27 24, slice b 4 len⟩ :: r)
/-- The packets are one whole entry: the first of KIND 0, the others of KIND 1, MORE on all but the last. -/
def wholeChain (ps : List Packet) : Bool :=
  ps.zipIdx.all (fun p => decide (p.1.kind = (if p.2 = 0 then 0 else 1)) && p.1.more == decide (p.2 + 1 < ps.length))
/-- The entry of a chain; `near` is an instant close to it, which completes its second. -/
def entryOf (near : Time) (ps : List Packet) : Option JEntry :=
  let b := ps.flatMap (·.payload)
  let w := leWords 6 (b.take 20)
  if ps.isEmpty || !wholeChain ps || decide (b.length < 20) then none
  else some ⟨bx (wd w 0) 31 24, bx (wd w 0) 23 0, (wd w 1).toNat,
    nearSec (Time.secOf near) (wd w 2).toNat * Time.secU + bx (wd w 3) 29 0 * Time.nsU + (wd w 4).toNat, b.drop 20⟩

/-! A checkpoint's entries: START, STATE in order, END. -/

/-- The STATE bytes of a checkpoint's entries. -/
def ckptBytes (es : List JEntry) : List Byte := (es.filter (fun e => e.typ = 0x21)).flatMap (fun e => e.payload.drop 4)
/-- Each STATE entry stands at its byte offset, and END names the total and its CRC-32 (Table 16.3). -/
def ckptOk (es : List JEntry) : Bool :=
  let ofs := (es.filter (fun e => e.typ = 0x21)).foldl (fun (a : Bool × Nat) e =>
    (a.1 && decide ((ofLe (e.payload.take 4)).toNat = a.2), a.2 + (e.payload.length - 4))) (true, 0)
  match es.getLast? with
  | some e =>
    let w := leWords 3 (e.payload.take 8)
    decide (e.typ = 0x22) && ofs.1 && wd w 0 = w32 ofs.2 && wd w 1 = w32 (crc32 (ckptBytes es))
  | none => false
/-- A checkpoint's STATE data in entries of at most 16,000 bytes. -/
def stateChunks (b : List Byte) : List (List Byte) :=
  (chunks 16000 (b.length + 1) b).zipIdx.map (fun c => le32 (w32 (16000 * c.2)) ++ c.1)

end Sys2Proof.Machine
end

