-- ==== Sys2Proof/Machine/Relay.lean ====
section
/-!
DEFINITION. The relay pair (spec/13): execution in step (R371 to R374), the baton (R375 to R378), take-over (R379 to R381), and the entry
into RACE and FOLLOW (R378, R487).
-/
namespace Sys2Proof.Machine

def Device.setRly (d : Device) (r : Rly) : Device := { d with rly := r }
def Device.setPwr (d : Device) (p : Pwr) : Device := { d with pwr := p }
def Device.setJnl (d : Device) (j : Jnl) : Device := { d with jnl := j }
def Device.lane (d : Device) : Nat := d.f RLY_CFG.LANE
def Device.inStep (d : Device) : Bool := d.fb RLY_STAT.IN_STEP
/-- 3.000 ms and 50 us in ticks, which no step of device time moves (R376 to R378). -/
def batonWait : Nat := 384000
def driveWait : Nat := 6400

/-! Losing step (R373, R374). -/

/-- A follower that is out of step discards its lap state; its heats begin anew if it takes the baton without a checkpoint. -/
def Device.lapsDiscard (d : Device) : Device :=
  let run (r : HeatRun) : HeatRun := { r with firstLap := 0, nextLap := 0, skipped := [] }
  let p := d.pfa
  let d1 : Device :=
    { d with
      pfa := { p with heats := p.heats.map (fun h => (h.1, run h.2)), laps := [], gs := [], stage := [], pendq := [], heldq := [], fullEp := false }
      srt := { d.srt with store := [], reserved := 0, queues := [], flight := [], timers := [], refused := false, held := [] }
      pac := { d.pac with lapBlocks := [], incoming := [], reissue := [] }
      isl := { d.isl with copies := [] }
      rxl := { d.rxl with parts := [], comb := [], hold := [] }
      osm := osmInit
      ing := { d.ing with gooseLap := [] } }
  let d2 := (((d1.osmState .stopped).setf OSM_INBUF.LEVEL 0).setf SRT_STAT.REL_BLOCK 0).showLevels
  (mkeys d2.pfa.heats).foldl (fun x h => (x.heatDrain h).timersGone h) d2
/-- The follower loses step; causes: 1 lag, 2 relay lane, 3 digest, 4 memory. A checkpoint under way began while entries were still applied,
and is of no use any more: the next one is waited for (R374). -/
def Device.stepLoss (d : Device) (cause : Nat) : Device :=
  if !d.inStep then d
  else
    let d1 := ((d.setf RLY_STAT.IN_STEP 0).count RLY_STEP_LOSS).raise EV_RLY_STEP [(Config.stepCause cause).toNat, d.f RLY_LAG.LAG]
    (d1.setRly { d1.rly with ckpt := [], queue := [] }).lapsDiscard
/-- Entries are missing on the relay lane: a checkpoint under way and what waits behind it are of no use, and step is lost. -/
def Device.laneGap (d : Device) : Device := (d.setRly { d.rly with ckpt := [], queue := [] }).stepLoss 2
/-- The lag at the delivery of a RELEASE token. -/
def Device.lagCheck (d : Device) (t : Time) : Device :=
  let lag := min 65535 ((d.now - t) / (100 * Time.usU))
  let d1 := (d.setf RLY_LAG.LAG lag).hwm RLY_LAG.HWM lag
  if max 1 (d.f RLY_CFG.LAG_MAX_MS) * Time.msU < d.now - t then d1.stepLoss 1 else d1

/-! Journal entries at the follower. -/

/-- A RELEASE decision that applies to a lap the follower holds. -/
def Device.releases (d : Device) (e : JEntry) : Bool :=
  decide (e.typ = 0x10 ∧ e.aux / 1048576 % 16 = 0) &&
    (d.lap? (ofLe (e.payload.take 4)).toNat (unTwo (leWords 4 (e.payload.take 12)) 1)).isSome
/-- Apply an entry in step. -/
def Device.follow (d : Device) (e : JEntry) : Device :=
  let d1 := d.applyEntry e
  if decide (e.typ = 0x10 ∧ e.aux / 1048576 % 16 = 0) then d1.lagCheck e.inst else d1
/-- An entry has wholly arrived. -/
def Device.followEntry (d : Device) (e : JEntry) : Device :=
  match e.typ with
  | 0x20 => d.setRly { d.rly with ckpt := [e], ownDig := d.cfgDigest, queue := [] }
  | 0x21 | 0x22 => if d.rly.ckpt.isEmpty then d else d.setRly { d.rly with ckpt := d.rly.ckpt ++ [e] }
  | _ =>
    if d.inStep then d.follow e
    else if d.rly.ckpt.isEmpty then d
    else d.setRly { d.rly with queue := d.rly.queue ++ [e] }
/-- The bytes a JOURNAL frame adds to the entry being received; none where they do not continue it. -/
def entryGrow (cur : Option (Nat × Nat × List Byte)) (jseq ofs total : Nat) (b : List Byte) : Option (Nat × Nat × List Byte) :=
  match cur with
  | some (j, t, got) => if j = jseq ∧ t = total ∧ got.length = ofs then some (j, t, got ++ b) else none
  | none => if ofs = 0 then some (jseq, total, b) else none
/-- A JOURNAL payload (R371). One with no bytes asks for a checkpoint (R374). -/
def Device.journalIn (d : Device) (p : List Byte) : Device :=
  let w := leWords 5 (p.take 16)
  let b := p.drop 16
  let jseq := (wd w 0).toNat
  if d.racing then (if b.isEmpty then d.ckptRequest else d)
  else if d.pwr.mode ≠ .follow ∨ b.isEmpty then d
  else
    let next := match d.rly.lastFwd with | some k => decide (jseq = (k + 1) % 4294967296) | none => true
    let d1 := if d.rly.inEntry.isNone && !next then d.laneGap else d
    match entryGrow d1.rly.inEntry jseq (wd w 1).toNat (wd w 2).toNat b with
    | none => (d1.setRly { d1.rly with inEntry := none, lastFwd := none }).laneGap
    | some (j, t, got) =>
      if got.length < t then d1.setRly { d1.rly with inEntry := some (j, t, got) }
      else
        let d2 := d1.setRly { d1.rly with inEntry := none, lastFwd := some j }
        match (unpack (got.length + 1) got).bind (entryOf d2.now) with
        | some e => d2.followEntry e
        | none => d2.laneGap

/-- CHECKPOINT_LOAD: a whole checkpoint has arrived (R374). -/
def checkpointLoad (d : Device) : Device :=
  let es := d.rly.ckpt
  if d.pwr.mode ≠ .follow ∨ !(es.any (fun e => decide (e.typ = 0x22))) then d
  else
    let q := d.rly.queue
    let d0 := d.setRly { d.rly with ckpt := [], queue := [] }
    match (if ckptOk es then Config.ckptDecode (ckptBytes es) else none) with
    | none => d0
    | some s =>
      let dig := digestOf s.tables s.isl.banks
      if dig ≠ d.rly.ownDig then
        ((d0.count RLY_CFG_MISMATCH).raise EV_RLY_CFG_MISMATCH [d.rly.ownDig.toNat, dig.toNat]).stepLoss 3
      else if d0.inStep then d0
      else
        let d1 := ((d0.restore s false).setf RLY_STAT.IN_STEP 1).count RLY_RESYNCS
        q.foldl (fun x e => if x.inStep then x.follow e else x) d1

/-! Forwarding by the primary (R371). -/

/-- The next frame's entry: the one in progress, or the oldest not yet forwarded. -/
def Device.nextForward (d : Device) : Option (Nat × Nat × List Byte) :=
  match d.rly.inEntry with
  | some x => some x
  | none =>
    match d.jnl.places.find? (fun p => match d.rly.lastFwd with | some k => seqAfter p.entry.jseq k | none => true) with
    | some p => let b := (jChain p.entry).flatMap packetBytes; some (p.entry.jseq, b.length, b)
    | none => none
/-- An entry belongs to a checkpoint. -/
def Device.ckptEntry (d : Device) (j : Nat) : Bool :=
  d.jnl.places.any (fun p => decide (p.entry.jseq = j ∧ 0x20 ≤ p.entry.typ ∧ p.entry.typ ≤ 0x22))
/-- Forward. A frame that finds the class-0 send buffer full is discarded and counted (R350); but a checkpoint moves at the lane's own rate
(R374), so that from its START until nothing is left to forward a full buffer holds the next frame back (DESIGN CHOICE, log entry 94). -/
def pumpF (fuel : Nat) (d : Device) : Device :=
  match fuel with
  | 0 => d
  | n + 1 =>
    match d.nextForward with
    | none => d.setRly { d.rly with paced := false }
    | some (j, t, rest) =>
      let room := d.linkRoom d.lane 0 1
      let paced := d.rly.paced || d.ckptEntry j
      if paced && !room then d.setRly { d.rly with paced := true }
      else
        let left := rest.drop 8176
        let d1 := d.setRly { d.rly with inEntry := if left.isEmpty then none else some (j, t, left), lastFwd := if left.isEmpty then some j else d.rly.lastFwd, paced := paced }
        let pay := leBytes [w32 j, w32 (t - rest.length), w32 t, 0#32] ++ rest.take 8176
        let d2 := if room then d1.count RLY_JNL_TX else d1
        pumpF n (d2.rxlSend d.lane ⟨5, 8, d.self, lkPeer (d.linkE d.lane), pay⟩)
/-- Entries made from now on are the next to forward. -/
def Device.forwardFrom (d : Device) : Device :=
  d.setRly { d.rly with inEntry := none, lastFwd := some ((d.jnl.next + 4294967295) % 4294967296), paced := false }
/-- Ask the primary for a checkpoint, as soon as the relay lane carries the request. -/
def Device.askCheckpoint (d : Device) : Device :=
  if d.fb RLY_CTL.RESYNC && d.linkUp d.lane && d.linkRoom d.lane 0 1 then
    ((d.setf RLY_CTL.RESYNC 0).count RLY_JNL_TX).rxlSend d.lane ⟨5, 8, d.self, lkPeer (d.linkE d.lane), leBytes [0#32, 0#32, 0#32, 0#32]⟩
  else d
/-- After every command: entries made are forwarded; a follower's request goes out. -/
def Device.pump (d : Device) : Device :=
  if !d.paired then d
  else if d.racing then (if d.linkUp d.lane then pumpF 300 d else d.forwardFrom)
  else if d.pwr.mode = .follow then d.askCheckpoint
  else d

/-- What makes a follower lose step besides its own entries: the relay lane's failure, and memory errors (R373). -/
def Device.stepWatch (old d : Device) : Device :=
  if d.pwr.mode ≠ .follow ∨ !d.inStep then d
  else if old.linkUp d.lane && !d.linkUp d.lane then d.stepLoss 2
  else if old.mem.lapUes < d.mem.lapUes then d.stepLoss 4
  else d

/-! Drivers and the baton's line. -/

/-- RELAY_BATON_OUT changes. -/
def Device.batonLevel (d : Device) (l : Bool) : Device :=
  if d.rly.level = l then d else (d.setRly { d.rly with level := l }).emit (.pin 2 0 l)
/-- AOUT and PLSO drivers are enabled: every line takes its level (R248, R311). -/
def Device.driversOn (d : Device) : Device :=
  let d1 := ((d.setf ALM_AOUT.DRV_EN 1).setf RLY_STAT.DRV_EN 1).setRly { d.rly with driveAt := none }
  let d2 := (List.range 16).foldl (fun x k => x.aoutDrive k) d1
  (List.range 32).foldl (fun x k => if x.fb NRG_PO_CFG.EN k then
    x.poDrive k (match (x.pulse k).phase with | .active _ => true | _ => false) else x) d2
def Device.driversOff (d : Device) : Device :=
  ((d.setf ALM_AOUT.DRV_EN 0).setf RLY_STAT.DRV_EN 0).setRly { d.rly with driveAt := none }
/-- Take the baton: the first own edge, and the drivers 50 us later (R377, R378). -/
def Device.takeBaton (d : Device) : Device :=
  let d1 := d.batonLevel true
  (d1.setRly { d1.rly with toggling := true, cause := 0, driveAt := some (d1.tk.ticks + driveWait), handover := false }).setf RLY_STAT.HOLDER 1
/-- BATON_TOGGLE. -/
def batonToggle (d : Device) : Device := if d.rly.toggling && d.alive then d.batonLevel (!d.rly.level) else d
/-- DRIVER_ENABLE_DELAY. A holder that has stopped toggling leaves its drivers as they are (R375). -/
def driverEnable (d : Device) : Device :=
  match d.rly.driveAt with
  | some t => if d.holder && d.rly.toggling && decide (t ≤ d.tk.ticks) then d.driversOn else d
  | none => d
/-- HEARTBEAT_MISSING. -/
def heartbeatMissing (d : Device) : Device := if d.alive then d.stopToggle 2 else d

/-! Entering RACE and FOLLOW. -/

/-- Enter FOLLOW out of step: a restored save's energy state is discarded (R492), and the silence of R376 counts from here. -/
def Device.enterFollow (d : Device) : Device :=
  let d1 := (d.setMode .follow).setf RLY_STAT.IN_STEP 0
  let d2 := d1.setPwr { d1.pwr with waiting := none, watchAt := some d1.tk.ticks }
  d2.setRly { d2.rly with lastFwd := none, inEntry := none, queue := [], ckpt := [], noTake := false }
/-- A sensor becomes LOST: counted and reported (R475, R484, R485). -/
def Device.sensLost (d : Device) (s : Nat) : Device := (d.count XCR_LOST).raise EV_XCR_SENSOR [s, 2]
/-- Every enabled sensor starts LOST, and the transceiver comes out of sleep (R482). -/
def Device.sensorsLost (d : Device) : Device :=
  let was := (d.xcr.sens.filter (fun s => decide (s.2.st = .synced))).map (·.1)
  let lost (s : XSensor) : XSensor := if s.st = .disabled then s else { s with st := .lost, missed := 0, missAt := d.tk.now }
  let d1 : Device := { d with xcr := { d.xcr with sens := d.xcr.sens.map (fun s => (s.1, lost s.2)), tuned := none } }
  was.foldl (fun x s => x.sensLost s) d1
/-- Publications begin to transmit: a new one with stNum 1, one that the journal gave numbers with the jump of R381. -/
def Device.pubsStart (d : Device) (jump : Bool) : Device :=
  ((d.ents tPub).foldl (fun x e =>
    if !pubEn e.2 then x
    else if jump then
      let g := x.gooseSt e.1
      ((x.setGoose e.1 { g with spdu := (g.spdu + 65536) % 4294967296 }).count EGR_GOOSE_ST).gooseNew e.1 e.2 (g.stNum + 256)
    else x.gooseStart e.1) d).gooseGo
/-- What entry into RACE begins, after the mode has changed. -/
def Device.raceBegin (d : Device) : Device :=
  let d1 := match d.pwr.waiting with
    | some s => let x := d.setPwr { d.pwr with waiting := none }; if s.good then x.energyRestore s else x.energyRestoreFail
    | none => d.setf NRG_STAT.RESTORED 0
  let d2 := (mkeys d1.pfa.heats).foldl (fun x h => match x.run? h with
    | some r => if r.enabled && decide (r.firstLap = 0) then x.heatStart h else x
    | none => x) d1
  d2.sensorsLost.forwardFrom
/-- Enter RACE from WARMUP. -/
def Device.enterRace (d : Device) : Device :=
  let d1 := d.setMode .race
  (((d1.setPwr { d1.pwr with watchAt := none }).raceBegin).pubsStart false).clientsStart

/-! PWR_CTL.GO with TARGET RACE (R378, R487). -/

/-- The mode GO leads to. -/
def Device.goRace (d : Device) : Device :=
  if !d.paired then ((d.setf RLY_STAT.HOLDER 1).enterRace).driversOn
  else if d.fb RLY_CFG.ROLE then d.enterFollow
  else d.setPwr { d.pwr with watchAt := some d.tk.ticks }
/-- BATON_WATCH_END. -/
def batonWatchEnd (d : Device) : Device :=
  match d.pwr.watchAt with
  | none => d
  | some t =>
    if d.pwr.mode ≠ .warmup ∨ d.tk.ticks < t + batonWait then d
    else if (match d.rly.lastIn with | some e => decide (t ≤ e) | none => false) then ((d.enterFollow).setf RLY_CTL.RESYNC 1).askCheckpoint
    else (d.takeBaton).enterRace

/-! Release (R377). -/

/-- Links stop: what has not been acknowledged is not sent again. -/
def Device.linksStop (d : Device) : Device :=
  d.setRxl { d.rxl with links := d.rxl.links.map (fun l => (l.1, { l.2 with c0 := { l.2.c0 with buf := [], owed := none }, c1 := { l.2.c1 with buf := [], owed := none } })) }
/-- The holder has seen its partner's edge. -/
def Device.batonRelease (d : Device) : Device :=
  let d1 := (((d.driversOff).batonLevel false).setRly { d.rly with level := false, toggling := false, driveAt := none, handover := false }).setf RLY_STAT.HOLDER 0
  let d2 := (((d1.txStopAll).tcpEndAll).clientsStop).linksStop
  let d3 := ((d2.setf RLY_CTL.HANDOVER 0).count RLY_RELEASES).raise EV_RLY_RELEASE [(Config.releaseCause d.rly.cause).toNat]
  if d3.racing then (d3.enterFollow).lapsDiscard else d3
/-- BATON_EDGE_SEEN. -/
def batonEdge (d : Device) : Device :=
  if !d.alive || !d.paired then d
  else
    let d1 := d.setRly { d.rly with lastIn := some d.tk.ticks, noTake := false }
    if d1.holder then d1.batonRelease else d1

/-! Take-over (R376, R379, R381). -/

/-- The laps a new holder decides itself. -/
def Device.takeLap (d : Device) (h n : Nat) : Device :=
  let d0 := d.deferredIn h n
  match d0.lap? h n with
  | none => d0
  | some l =>
    if l.st = .gathering then
      if l.arrived = l.lanes.length then d0.decideLap h n 0
      else if heEarly (d0.heatE h) ∧ heQuorum (d0.heatE h) ≤ l.wsum then d0.decideLap h n 1
      else if l.deadline ≤ d0.now then d0.decideLap h n 2
      else d0.addTimer h n (ceilUs l.deadline) .deadline
    else d0.lapNext h n
/-- A gratuitous ARP, or an unsolicited neighbour advertisement, for an address of a port (R379). -/
def Device.announce (d : Device) (p : Nat) (ip : List Byte) : Device :=
  let mac := d.portMac p
  if ip.length = 4 then
    d.txPush p false (txPlain (ethBuild 0xFFFFFFFFFFFF mac none 0x0806
      (beBytes 2 1 ++ beBytes 2 0x0800 ++ [6#8, 4#8] ++ beBytes 2 1 ++ beBytes 6 mac ++ ip ++ beBytes 6 0 ++ ip)))
  else
    let all := beBytes 16 0xFF020000000000000000000000000001
    let m (c : Nat) : List Byte := [136#8, 0#8] ++ beBytes 2 c ++ beBytes 4 0x20000000 ++ ip ++ [2#8, 1#8] ++ beBytes 6 mac
    let body := m (csum16 (pseudoSum ip all 58 32 + octSum (m 0)))
    d.txPush p false (txPlain (ethBuild (groupMac all) mac none 0x86DD
      ([0x60#8, 0#8, 0#8, 0#8] ++ beBytes 2 32 ++ [58#8, 255#8] ++ ip ++ all ++ body)))
/-- For each unicast address of each port whose MODE is not disabled. -/
def Device.announceAll (d : Device) : Device :=
  (List.range 8).foldl (fun x p =>
    if x.f ETH_CFG.MODE p = 0 then x
    else ((x.portAddrs p).filter (fun e => decide (addrType e ≤ 1))).foldl (fun y e => y.announce p (addrIp e)) x) d
/-- The follower takes the baton. What has been accepted of the journal is applied first: a whole checkpoint that has not been loaded yet, and
the entries behind it. -/
def Device.takeOver (d : Device) : Device :=
  let d0 := checkpointLoad d.takeBaton
  let step := d0.f RLY_STAT.IN_STEP
  let lap := d0.rly.lastLap
  let d1 := (d0.setMode .race).setf RLY_STAT.IN_STEP 0
  let d2 := ((d1.setRly { d1.rly with queue := [], ckpt := [], noTake := false }).setPwr { d1.pwr with watchAt := none }).raceBegin
  let d3 := ((mkeys d2.pfa.laps).foldl (fun x k => x.takeLap (k / 2 ^ 64) (k % 2 ^ 64)) d2).openWaiting
  let d4 := ((d3.announceAll).pubsStart true).clientsStart
  (d4.count RLY_TAKEOVERS).raise EV_RLY_TAKEOVER [step, lap]
/-- No edge has been seen for 3.000 ms. -/
def Device.silent (d : Device) : Bool :=
  let a := match d.rly.lastIn with | some t => decide (t + batonWait ≤ d.tk.ticks) | none => true
  let b := match d.pwr.watchAt with | some t => decide (t + batonWait ≤ d.tk.ticks) | none => true
  a && b
/-- BATON_SILENCE_TIMEOUT. -/
def batonSilence (d : Device) : Device :=
  if d.pwr.mode ≠ .follow ∨ !d.paired ∨ !d.silent then d
  else if d.inStep || d.fb RLY_CFG.TAKE_UNSYNC then d.takeOver
  else if d.rly.noTake then d
  else (d.setRly { d.rly with noTake := true }).raise EV_RLY_NO_TAKE [d.f RLY_LAG.LAG]

/-! RLY_CTL (R374, R383) and RLY_CFG (R369). -/

def Device.rlyErr (d : Device) (c : Nat) : Device := d.err RLY_STAT.ERR RLY_STAT.ECODE c
/-- The relay lane's own CADENCE reports that the partner follows. -/
def Device.partnerFollows (d : Device) : Bool := d.paired && d.linkUp d.lane && decide ((d.link d.lane).mode = modeCode .follow)
/-- HANDOVER_REQUEST. -/
def handoverRequest (d : Device) : Device :=
  if !d.alive then d
  else if !d.holder || !d.partnerFollows then d.rlyErr 2
  else (d.setRly { d.rly with handover := true }).setf RLY_CTL.HANDOVER 1
/-- HANDOVER_RELEASE: every JOURNAL frame has been acknowledged. -/
def handoverRelease (d : Device) : Device :=
  if d.rly.handover && d.rly.toggling && (d.link d.lane).c0.buf.isEmpty && d.nextForward.isNone then
    ((d.setRly { d.rly with handover := false }).setf RLY_CTL.HANDOVER 0).stopToggle 1
  else d
/-- RESYNC_REQUEST. -/
def resyncRequest (d : Device) : Device :=
  if d.pwr.mode = .follow then (d.setf RLY_CTL.RESYNC 1).askCheckpoint else d
/-- A write to RLY_CFG. -/
def rlyCfgWrite (v : Word) (d : Device) : Device :=
  if d.pwr.mode = .warmup then
    (((((d.setf RLY_CFG.EN (bx v 31 31)).setf RLY_CFG.ROLE (bx v 30 30)).setf RLY_CFG.TAKE_UNSYNC (bx v 29 29)).setf RLY_CFG.LANE (bx v 25 24)).setf
      RLY_CFG.LAG_MAX_MS (bx v 15 0))
  else d.rlyErr 1
def rlyCtlWrite (v : Word) (d : Device) : Device :=
  let d1 := if bit v 31 then handoverRequest d else d
  if bit v 30 then resyncRequest d1 else d1

end Sys2Proof.Machine
end

