-- ==== Sys2Proof/Machine/RxlRecv.lean ====
section
/-!
DEFINITION. Receiving a Rharix frame: the checks of Table 12.4 (R348), the windows (R349, R350), forwarding (R352), what a delivered frame does,
and the resumption of producers that waited for a store entry (R215, R227).
-/
namespace Sys2Proof.Machine

/-! Steps 1 to 6. -/

/-- The fields of a received header (Table 12.2). -/
structure RxlHdr where
  ver : Nat
  typ : Nat
  cls : Nat
  auth : Bool
  rsv : Nat
  len : Nat
  seq : Nat
  hops : Nat
  epoch : Nat
  ack0 : Nat
  ack1 : Nat
  src : Nat
  dst : Nat
  fed : Nat
  deriving DecidableEq, Repr

def rxlHdrOf (b : List Byte) : RxlHdr :=
  let w := leWords 5 (b.take 16)
  ⟨bx (wd w 0) 31 28, bx (wd w 0) 27 24, bx (wd w 0) 23 23, bit (wd w 0) 22, bx (wd w 0) 21 14, bx (wd w 0) 13 0,
   bx (wd w 1) 31 16, bx (wd w 1) 15 12, bx (wd w 1) 11 0, bx (wd w 2) 31 16, bx (wd w 2) 15 0,
   bx (wd w 3) 31 20, bx (wd w 3) 19 8, bx (wd w 3) 7 0⟩
/-- Payload bytes of a frame of `n` bytes. -/
def payLen (h : RxlHdr) (n : Nat) : Nat := n - 20 - (if h.auth then 16 else 0)
/-- The payload length agrees with TYPE (Table 12.3); a reserved type has none to agree with. -/
def typLen (t p : Nat) : Bool :=
  match t with
  | 0 => decide (p = 0)
  | 1 => decide (p = 32)
  | 2 => decide (p % 128 = 0 ∧ 128 ≤ p ∧ p ≤ 8192)
  | 3 => decide (p = 16)
  | 4 | 5 => decide (16 ≤ p ∧ p ≤ 8192)
  | _ => true
/-- Step 2. -/
def rxlSizeOk (b : List Byte) : Bool :=
  let h := rxlHdrOf b
  let n := b.length
  decide (20 ≤ n ∧ n ≤ 8228 ∧ n % 4 = 0 ∧ n = h.len) && (!h.auth || decide (36 ≤ n)) && typLen h.typ (payLen h n)
/-- Step 4. -/
def Device.rxlHdrOk (d : Device) (h : RxlHdr) : Bool :=
  decide (h.ver = 1 ∧ h.typ < 6 ∧ h.cls = typCls h.typ ∧ h.rsv = 0 ∧ h.fed = d.f RXL_DEV.FED_ID)
/-- Step 5 (R346): the key of the link's group, or its next one. -/
def Device.rxlAuthOk (d : Device) (l : Nat) (h : RxlHdr) (b : List Byte) : Bool :=
  let e := d.linkE l
  if !lkAuth e then !h.auth
  else
    let m := b.take (b.length - 20)
    let tag := slice b (b.length - 20) 16
    let g := d.grp (lkKey e)
    h.auth && [g.cur, g.next].any (fun k => match k with | some x => decide ((hmacSha256 x.key m).take 16 = tag) | none => false)
/-- Step 6, and R353. -/
def Device.rxlLinkOk (d : Device) (l : Nat) (h : RxlHdr) : Bool :=
  if h.typ = 1 then decide (h.hops < 8) || decide (h.src = lkPeer (d.linkE l))
  else d.linkUp l && (!typSeq h.typ || decide (h.epoch = (d.link l).rxEpoch))
/-- Steps 2 to 6 in order: the counter of the one that fails. -/
def Device.rxlCheck (d : Device) (l : Nat) (b : List Byte) : Option Ctr :=
  let h := rxlHdrOf b
  if !rxlSizeOk b then some RXL_RX_SIZE
  else if le32 (w32 (crc32 (b.take (b.length - 4)))) ≠ b.drop (b.length - 4) then some RXL_RX_CRC
  else if !d.rxlHdrOk h then some RXL_RX_HDR
  else if !d.rxlAuthOk l h b then some RXL_RX_AUTH
  else if !d.rxlLinkOk l h then some RXL_RX_HDR
  else none

/-! Delivery. -/

/-- A payload cut to what a link admits (R347): records whole, those of one lane and lap together; a partial's entries whole, its fragments
numbered anew. A partial of several fragments has each cut into as many as the longest takes, so that their number stays one (DEDUCED, log
entry 84). Other payloads always fit. -/
def fwdCut (cap typ : Nat) (b : List Byte) : List (List Byte) :=
  let w := leWords 5 (b.take 16)
  let nfrag := bx (wd w 3) 23 16
  if typ = 2 ∧ cap < b.length then
    let g := groupRecs ((chunks 128 (b.length + 1) b).map (fun c => leWords (c.length + 1) c))
    recFrames (g.length + 1) cap [] (g.map (fun rs => rs.flatMap leBytes))
  else if typ = 4 ∧ (cap < b.length ∨ (cap < 8192 ∧ 1 < nfrag)) then
    let n := max 12 ((cap - 16) / 12 * 12)
    let cs := chunks n (b.length + 1) (b.drop 16)
    let r := if 1 < nfrag then 8175 / n + 1 else max 1 cs.length
    (List.range r).map (fun j =>
      leBytes [wd w 0, wd w 1, wd w 2, bset (bset (wd w 3) 31 24 (bx (wd w 3) 31 24 * r + j)) 23 16 (nfrag * r)] ++ cs.getD j [])
  else [b]
/-- Send on a frame for another device (R352): forwarded where a link takes it. -/
def Device.rxlForward (d : Device) (m : RxlMsg) : Device :=
  if m.hops = 0 then d.count RXL_HOPS_DROP
  else match d.routeTo m.dst with
    | none => d.count RXL_NOROUTE
    | some l =>
      (fwdCut (d.linkMax l) m.typ m.payload).foldl (fun x b =>
        let y : RxlMsg := { m with hops := m.hops - 1, payload := b }
        (if x.linkTakes l y then x.count RXL_FWD else x).rxlSend l y) d
/-- The Starter cannot take a PARTIAL that would make a combine (R215), or its next hop has no room for it. -/
def Device.partWaits (d : Device) (m : RxlMsg) : Bool :=
  if m.typ ≠ 4 then false
  else if m.dst ≠ d.self then (match d.routeTo m.dst with
    | some l => !d.linkRoom l 1 (fwdCut (d.linkMax l) m.typ m.payload).length
    | none => false)
  else
    let w := leWords 5 (m.payload.take 16)
    let inst := bx (wd w 2) 21 10
    let lap := (wd w 0).toNat + bx (wd w 1) 31 16 * 4294967296
    decide (d.storeFree = 0) && (d.entry? inst lap (256 + (d.comb inst lap).seq)).isNone
/-- A frame is delivered with its acceptance instant; what the journal records is recorded first (R442). -/
def Device.rxlDeliver (d : Device) (l : Nat) (m : RxlMsg) (acc : Time) : Device :=
  if m.dst ≠ d.self then d.rxlForward m
  else match m.typ with
    | 2 => if d.racing then (d.journal 0x05 m.src acc m.payload).remoteRecs acc m.payload else d
    | 3 => if d.racing then d.controlIn m.payload else d
    | 4 => if d.racing then (d.journal 0x06 m.src acc m.payload).partIn m.payload else d
    | 5 => if d.isRelay l then (d.count RLY_JNL_RX).journalIn m.payload else d
    | _ => d
/-- Deliver what stands in sequence in a window. -/
def windowRun (fuel l c : Nat) (d : Device) : Device :=
  match fuel with
  | 0 => d
  | n + 1 =>
    let x := d.link l
    let y := getCls x c
    match mget y.win y.next with
    | none => d
    | some (m, acc) =>
      if d.partWaits m then
        if d.srt.held.contains (.partialIn l) then d
        else (d.setSrt { d.srt with held := d.srt.held ++ [.partialIn l] }).count SRT_PARTIAL_HELD
      else
        let d1 := d.setLink l (setCls x c { y with next := (y.next + 1) % 65536, win := mdel y.win y.next })
        windowRun n l c (d1.rxlDeliver l m acc)
/-- Step 7: a sequenced frame (R349). -/
def Device.rxlSequence (d : Device) (l : Nat) (h : RxlHdr) (m : RxlMsg) : Device :=
  let x := d.link l
  let y := getCls x h.cls
  let ahead := (h.seq + 65536 - y.next) % 65536
  if ahead < 256 then
    let y1 := { y with win := if (mget y.win h.seq).isSome then y.win else mset y.win h.seq (m, d.now), owed := some (y.owed.getD d.now) }
    windowRun 257 l h.cls ((d.setLink l (setCls x h.cls y1)).count RXL_RX_FRAMES)
  else if 32768 ≤ ahead then (d.count RXL_RX_DUP).rxlAck l
  else (d.count RXL_RX_OOW).rxlAck l
/-- A CADENCE that has passed the checks (R351). -/
def Device.cadenceIn (d : Device) (l : Nat) (h : RxlHdr) (m : RxlMsg) : Device :=
  if m.dst ≠ d.self then d.rxlForward m
  else
    let w := leWords 9 m.payload
    let d1 := d.peerCadence m.src (bx (wd w 0) 15 0) (bx (wd w 0) 23 16) (bx (wd w 3) 2 0)
    if 8 ≤ h.hops ∧ m.src = lkPeer (d.linkE l) then
      (d1.setLink l { d1.link l with mode := bx (wd w 3) 2 0 }).linkCadence l h.epoch
    else d1
/-- A frame on a link. -/
def Device.rxlFrame (da : Device) (l : Nat) (b : List Byte) : Device :=
  let d := if lkAuth (da.linkE l) then da.noteRead 10 (keyLoc (lkKey (da.linkE l))) else da
  match da.rxlCheck l b with
  | some c => d.count c
  | none =>
    let h := rxlHdrOf b
    let m : RxlMsg := ⟨h.typ, h.hops, h.src, h.dst, slice b 16 (payLen h b.length)⟩
    let x := d.link l
    let d1 := d.setLink l { x with c0 := ackCls x.c0 h.ack0, c1 := ackCls x.c1 h.ack1 }
    match h.typ with
    | 0 => d1.count RXL_RX_FRAMES
    | 1 => (d1.count RXL_RX_FRAMES).cadenceIn l h m
    | _ => d1.rxlSequence l h m
/-- Step 1: the enabled UDP link of a datagram's source. -/
def Device.udpLink (d : Device) (src : List Byte) (port : Nat) : Option Nat :=
  ((d.ents tLink).find? (fun e => decide (4 ≤ e.1) && lkEn e.2 && decide (lkAddr e.2 = src) &&
    decide ((if lkPort e.2 = 0 then d.f RXL_UDP.PORT else lkPort e.2) = port))).map (·.1)
/-- A datagram as the parser left it. -/
def Device.rxlDatagram (d : Device) (f : List Byte) : Device :=
  let h := ethParse f
  match ipParse h.etype (f.drop h.body) with
  | .error _ => d
  | .ok k =>
    match d.udpLink k.src (beNat (slice k.body 0 2)) with
    | none => d.count RXL_RX_NOLINK
    | some l => d.rxlFrame l (slice k.body 8 (beNat (slice k.body 4 2) - 8))
/-- RXL_FRAME_RECEIVED: a frame on RXL port `lane` below 4, cut at 8,232 bytes; or the oldest datagram the parser handed over. -/
def rxlFrameReceived (lane : Nat) (b : List Byte) (d : Device) : Device :=
  if lane < 4 then
    if !d.listens || !d.fb RXL_PORT.LOCK lane || !lkEn (d.linkE lane) then d else d.rxlFrame lane (b.take 8232)
  else match d.ing.rxlq with
    | [] => d
    | f :: r =>
      let d1 : Device := { d with ing := { d.ing with rxlq := r } }
      if d.listens then d1.rxlDatagram f.2.bytes else d1

/-! HELD_PRODUCER_RESUME: producer `k` of those that wait, the timers after the others. -/

def heldResume (k : Nat) (d : Device) : Device :=
  if !d.lapsRun then d
  else match d.srt.held[k]? with
    | some (.commit i n s) => d.resumeCommit i n s
    | some (.combineIn i n) => d.resumeCombine i n
    | some (.sample i n) => d.resumeSample i n
    | some (.stride i) =>
      if d.storeFree = 0 then d else (d.setSrt { d.srt with held := d.srt.held.filter (fun x => decide (x ≠ HeldProd.stride i)) }).strideSubmit i
    | some (.partialIn l) =>
      let y := (d.link l).c1
      if (match mget y.win y.next with | some (m, _) => d.partWaits m | none => false) then d
      else windowRun 257 l 1 (d.setSrt { d.srt with held := d.srt.held.filter (fun x => decide (x ≠ HeldProd.partialIn l)) })
    | none => match (d.srt.timers.filter (·.held))[k - d.srt.held.length]? with
      | some t => d.resumeTimer t
      | none => d

end Sys2Proof.Machine
end

