-- ==== Sys2Proof/Machine/Journal.lean ====
section
/-!
DEFINITION. The Scorebook's flash (R435 to R440), the journal's drain (R445), start lines (R446, R447) and Rerun (R448 to R451).
-/
namespace Sys2Proof.Machine

def Device.setScb (d : Device) (s : Scb) : Device := { d with scb := s }

/-! The Scorebook. -/

/-- Positions of the flash region (R431): 8,192 sectors of 128 records. -/
def scbPositions : Nat := 1048576
/-- Erase a sector. -/
def scbErase (f : NMap ScbRec) (sector : Nat) : NMap ScbRec := f.filter (fun r => decide (r.1 / 128 ≠ sector))
/-- The first record of a sector erases the sector that follows ahead (R438). -/
def Device.scbAhead (d : Device) : Device :=
  let w := d.scb.wpos
  if w % 128 = 0 then (d.setScb { d.scb with flash := scbErase d.scb.flash ((w / 128 + 1) % 8192) }).count SCB_ERASES else d
/-- Go on at a position; a sector that could not be erased is passed over. -/
def Device.scbGoTo (d : Device) (p : Nat) : Device :=
  let w := p % scbPositions
  if w % 128 = 0 && decide (d.scb.skip = some (w / 128)) then d.setScb { d.scb with wpos := (w + 128) % scbPositions, skip := none }
  else d.setScb { d.scb with wpos := w }
/-- Program a record at the next position (R438). -/
def Device.scbProgram (d : Device) (r : ScbRec) : Device :=
  let d1 := d.scbAhead
  let w := d1.scb.wpos
  (d1.setScb { d1.scb with flash := mset d1.scb.flash w r }).scbGoTo (w + 1)
/-- A program or an erase has failed (R438): its sector is skipped. A failed program leaves the sector being written for the next one; a failed
erase ahead passes over the sector it was to erase, in place of which the one after that is erased. -/
def Device.scbSkip (d : Device) (erase : Bool) : Device :=
  let d1 := d.scbAhead
  let s := d1.scb.wpos / 128
  let d2 := if erase then
      (d1.setScb { d1.scb with skip := some ((s + 1) % 8192), flash := scbErase d1.scb.flash ((s + 2) % 8192) }).count SCB_ERASES
    else d1.scbGoTo ((s + 1) * 128)
  (d2.setf SCB_STAT.NOR_ERR 1).raise EV_SCB_NOR_ERR [if erase then (s + 1) % 8192 else s]
/-- Start a flush, if there is something to flush (R435). -/
def Device.scbStart (d : Device) : Device := scbFlush (fun x => x.count SCB_FLUSHES) d
/-- SCB_FLUSH_WRITE. -/
def scbFlushWrite (d : Device) : Device :=
  if !d.alive then d
  else
    let d1 := d.scbStart
    if d1.scb.flushing > 0 then d1.setf SCB_CTL.FLUSH 1 else d1
/-- Space has returned after events were lost: one record says how many (R436). -/
def Device.scbLost (d : Device) : Device :=
  if d.scb.lost = 0 ∨ 2048 ≤ d.scb.buf.length then d
  else
    let d1 := (scbPush d (scbRecord d EV_SCB_LOST [d.scb.lost] true)).count SCB_RECORDS
    (d1.setScb { d1.scb with lost := 0 }).scbStart
/-- A record of the buffer whose word is lost to memory is lost (Table 17.1). -/
def Device.scbBad (d : Device) (r : ScbRec) : Bool := decide (d.badAt 9 r.seq = 2)
/-- The first `n` records of the buffer are programmed; those lost to memory are counted lost. -/
def Device.scbOut (d : Device) (n : Nat) : Device :=
  let rs := d.scb.buf.take n
  let lost := (rs.filter d.scbBad).length
  let d1 := rs.foldl (fun x r => if x.scbBad r then x.memRead 9 r.seq 0 else (x.memRead 9 r.seq 0).scbProgram r) d
  let d2 := d1.setScb { d1.scb with buf := d1.scb.buf.drop n, flushing := d1.scb.flushing - n, lost := d1.scb.lost + lost }
  (d2.countN SCB_LOST lost).scbLost
/-- SCOREBOOK_FLUSH_DONE: the programming and its verification have ended, well or not (R438). Where a failure stands in the flush, and whether
a program or an erase failed, is left open (free value, log entry 97); what stands before it is programmed, and the flush goes on from it. What a
save holds goes to flash ahead of new records, so that nothing is programmed before warm-up is complete (R437). -/
def scbFlushDone (ok : Bool) (d : Device) : Device :=
  let n := d.scb.flushing
  if n = 0 ∨ (d.pwr.mode = .warmup ∧ !d.pwr.wuDone) then d
  else if !ok then
    let k := (Config.freeWord d.free).toNat % n
    let d1 := { d.scbOut k with free := d.free + 2 }
    d1.scbSkip (decide (d1.scb.wpos % 128 = 0) && bit (Config.freeWord (d.free + 1)) 0)
  else
    let d3 := d.scbOut n
    let d4 := d3.setScb { d3.scb with flushAgain := false }
    let d5 := if decide (d4.scb.flushing = 0) && (d.scb.flushAgain || d4.scbFull) then d4.scbStart else d4
    if d5.scb.flushing = 0 then d5.setf SCB_CTL.FLUSH 0 else d5
/-- SCOREBOOK_LOOKUP: a write to SCB_RD_SEQ. -/
def scbLookup (seq : Word) (d : Device) : Device :=
  if !d.alive then d
  else (((d.setScb { d.scb with looking := true, found := none }).wr SCB_RD_SEQ 0 seq).setf SCB_RD_STAT.DONE 0).setf SCB_RD_STAT.FOUND 0
/-- A record of the buffer is read: one whose word is lost leaves it, and is counted lost (Table 17.1, R436). -/
def Device.scbTouch (d : Device) (q : Nat) : Device :=
  match d.scb.buf.findIdx? (fun x => x.seq = q) with
  | none => d
  | some i =>
    let d1 := d.memRead 9 q 0
    if decide (d.badAt 9 q = 2) then
      (d1.setScb { d1.scb with buf := d1.scb.buf.eraseIdx i, lost := d1.scb.lost + 1,
                               flushing := if i < d1.scb.flushing then d1.scb.flushing - 1 else d1.scb.flushing }).count SCB_LOST |>.scbLost
    else d1
/-- SCOREBOOK_LOOKUP_DONE. -/
def scbLookupDone (d0 : Device) : Device :=
  if !d0.scb.looking then d0
  else
    let q := (d0.rg SCB_RD_SEQ 0).toNat
    let d := d0.scbTouch q
    let r := match d.scb.buf.find? (fun x => x.seq = q) with
      | some x => some x
      | none => (mvals d.scb.flash).find? (fun x => x.seq = q)
    ((d.setScb { d.scb with looking := false, found := r }).setf SCB_RD_STAT.DONE 1).setf SCB_RD_STAT.FOUND (b2n r.isSome)
/-- The oldest SEQ held: the first record from the position written next on, or the buffer's (SCB_OLDEST). -/
def Device.scbOldest (d : Device) : Nat :=
  let f := d.scb.flash
  match (f.filter (fun r => decide (d.scb.wpos ≤ r.1))).head?, f.head?, d.scb.buf.head? with
  | some r, _, _ => r.2.seq
  | none, some r, _ => r.2.seq
  | none, none, some r => r.seq
  | none, none, none => d.scb.next
/-- A record's words (Table 16.1). -/
def scbWords (r : ScbRec) : List Word :=
  [w32 (r.blk * 67108864 + r.ev * 65536 + r.rep), w32 r.seq, w32 (Time.secOf r.first),
   w32 (b2n r.lost * 2147483648 + b2n r.restored * 1073741824 + Time.nsOf r.first), w32 (if r.rep = 0 then 0 else r.lastOfs),
   w32 r.d0, w32 r.d1, w32 r.d2]

/-! DDR5 bursts as memory integrity names them (R458). -/


/-- Read bursts: marked ones count, and the first uncorrectable one is answered. -/
def Device.ddrCheck (d : Device) (a n : Nat) : Option Nat × Device :=
  if d.mem.bad.isEmpty then (none, d)
  else
    let bs := burstsOf a n
    (bs.find? (fun b => decide (d.badAt (ddrArr b) b = 2)), bs.foldl (fun x b => x.memRead (ddrArr b) b 0) d)
/-- A natural uncorrectable error in the burst that holds a byte. -/
def Device.ddrUe (d : Device) (a : Nat) : Device := d.burstUe (ddrArr (a / 64)) 0 (a / 64) (Config.memIdx (ddrArr (a / 64)) (a / 64)) false

/-! The drain (R445). -/

def Device.draining (d : Device) : Bool := d.alive && d.fb JNL_CFG.EN && d.fb JNL_CFG.DRAIN
def gapPacket (first n : Nat) : Packet := ⟨false, 15, leBytes [w32 first, w32 n]⟩
/-- The entry whose packet is drained next. -/
def Device.drainNext (d : Device) : Option JPlace := d.jnl.places.find? (fun p => seqFrom p.entry.jseq d.jnl.drained)
/-- The packet that names lost entries goes into the FIFO when it has room; the episode ends. -/
def Device.drainGap (d : Device) : Device :=
  match d.jnl.gap with
  | none => d
  | some (a, n) => match d.sfPush 0 (gapPacket a n) with
    | none => d
    | some x => x.setJnl { x.jnl with gap := none, lostEp := false }
/-- JOURNAL_DRAIN: the next packet is copied; `ue` tells a natural uncorrectable error in its entry's bytes (R459). -/
def journalDrain (ue : Bool) (d : Device) : Device :=
  if !d.draining then d
  else if d.jnl.gap.isSome then d.drainGap
  else match d.drainNext with
    | none => d
    | some p =>
      let a := d.jBase + p.start % max d.jSize 1
      let r := d.ddrCheck a p.len
      let past (j : Jnl) : Jnl := { j with drained := (p.entry.jseq + 1) % 4294967296, drainAt := 0 }
      if ue || r.1.isSome then
        let d1 := if r.1.isSome then r.2 else r.2.ddrUe a
        (d1.setJnl { past d1.jnl with gap := some (p.entry.jseq, 1) }).drainGap
      else
        let ps := jChain p.entry
        match r.2.sfPush 0 (ps.getD d.jnl.drainAt ⟨false, 0, []⟩) with
        | none => r.2
        | some x =>
          if d.jnl.drainAt + 1 < ps.length then x.setJnl { x.jnl with drainAt := d.jnl.drainAt + 1 } else x.setJnl (past x.jnl)

/-! Start lines. -/

/-- The journal is being written. -/
def Device.journaling (d : Device) : Bool := d.fb JNL_CFG.EN && d.fb JNL_DDR.VALID && d.journals
/-- CHECKPOINT_END. -/
def checkpointEnd (d : Device) : Device :=
  match d.jnl.ckpt with
  | none => d
  | some (j, s) =>
    if !d.journaling then d.setJnl { d.jnl with ckpt := none }
    else
      let b := Config.ckptEncode s
      let d1 := (stateChunks b).foldl (fun x c => x.journal 0x21 0 x.now c) d
      let d2 := d1.journalW 0x22 0 d1.now [w32 b.length, w32 (crc32 b)]
      let d3 := (d2.setJnl { d2.jnl with ckpt := none, snaps := (b, s) :: d2.jnl.snaps }).wr JNL_START 0 (w32 j)
      (d3.count JNL_CKPTS).raise EV_JNL_CKPT [j, b.length]
/-- JNL_CKPT_WRITE. -/
def jnlCkptWrite (d : Device) : Device := if d.journaling then d.ckptRequest.setf JNL_CTL.CKPT 1 else d
/-- The instant of a start line that is due: a whole minute, once, or the tick after a request (R446). -/
def Device.lineDue (d : Device) : Option Time :=
  if d.sec % 60 = 0 ∧ Time.nsOf d.now < 1000 ∧ d.jnl.lineAt ≠ some d.sec then some (d.sec * Time.secU)
  else match d.jnl.ckptAsk with
    | some t => if t ≤ d.now then some t else none
    | none => none
/-- CHECKPOINT_START. A checkpoint that is still open is closed first, since STATE entries name none (DEDUCED, log entry 98). -/
def checkpointStart (d : Device) : Device :=
  match d.lineDue with
  | none => d
  | some t =>
    if !d.journaling then d
    else
      let d0 := checkpointEnd d
      let j := d0.jnl.next
      let s := d0.takeSnap
      let ask := d.jnl.ckptAsk.filter (fun a => decide (d.now < a))
      let d1 := (d0.journalW 0x20 0 t d0.startWords).setf JNL_CTL.CKPT (b2n (ask.isSome && d.fb JNL_CTL.CKPT))
      d1.setJnl { d1.jnl with ckpt := some (j, s), ckptAsk := ask, lineAt := if t = d.sec * Time.secU then some d.sec else d1.jnl.lineAt }
/-- A write to JNL_DDR: the ring is assigned anew (R441). -/
def jnlDdrWrite (v : Word) (d : Device) : Device :=
  if d.fb JNL_CFG.EN || decide (bx v 12 8 = 0 ∨ 16 < bx v 12 8) then d.err JNL_STAT.ERR JNL_STAT.ECODE 1
  else (d.setJnl { d.jnl with places := [], wptr := 0, drained := d.jnl.next, drainAt := 0, gap := none, lostEp := false }).wr JNL_DDR 0 (v &&& 0x80001F7F#32)

/-! Rerun (R448 to R451). RR_STATE: 0 idle, 1 applying, 2 waiting for input, 3 stopped. A GAP packet and a malformed one wait in the queue as entries
of the types 256 and 257, which no journal has. -/

def Device.rrState (d : Device) : Nat := d.f JNL_STAT.RR_STATE
/-- A Rerun stops: with ERR where it stops on an error. -/
def Device.rrStop (d : Device) (code : Nat) : Device :=
  let d1 := d.setf JNL_STAT.RR_STATE 3
  let d2 := if code = 0 then d1 else d1.err JNL_STAT.ERR JNL_STAT.ECODE code
  d2.raise EV_JNL_RERUN [code, (d2.rg JNL_RR_POS 0).toNat]
/-- RERUN_GO. -/
def rerunGo (d : Device) : Device :=
  if d.pwr.mode ≠ .rerun then d
  else (d.setJnl { d.jnl with rrNow := 0, rrNext := (d.rg JNL_RR_FROM 0).toNat, rrLoaded := false, rrCkpt := [] }).setf JNL_STAT.RR_STATE 1
/-- RERUN_STOP. -/
def rerunStop (d : Device) : Device := if d.pwr.mode = .rerun ∧ (d.rrState = 1 ∨ d.rrState = 2) then d.rrStop 0 else d
def rrMark (typ : Nat) : JEntry := ⟨typ, 0, 0, 0, []⟩
/-- A packet of the input. -/
def Device.rrPacket (d : Device) (p : Packet) : Device :=
  let j := d.jnl
  if p.kind = 15 then d.setJnl { j with inWords := [], inChain := [], inQueue := j.inQueue ++ (if j.inChain.isEmpty then [] else [rrMark 257]) ++ [rrMark 256] }
  else
    let ps := j.inChain ++ [p]
    if p.more then d.setJnl { j with inWords := [], inChain := ps }
    else
      let e := (entryOf j.rrNow ps).getD (rrMark 257)
      d.setJnl { j with inWords := [], inChain := [], inQueue := j.inQueue ++ [e] }
/-- RERUN_INPUT_WORD: a write to JNL_IN. -/
def rerunInput (v : Word) (d : Device) : Device :=
  if d.pwr.mode ≠ .rerun ∨ !d.fb JNL_CFG.RR_SRC then d
  else
    let ws := d.jnl.inWords ++ [v]
    let h := wd ws 0
    let len := bx h 23 0
    let d1 : Device :=
      if !bit h 31 || decide (len = 0 ∨ 16380 < len) then
        d.setJnl { d.jnl with inWords := [], inChain := [], inQueue := d.jnl.inQueue ++ [rrMark 257] }
      else if ws.length < 1 + (len + 3) / 4 then d.setJnl { d.jnl with inWords := ws }
      else d.rrPacket ⟨bit h 30, bx h 27 24, (leBytes (ws.drop 1)).take len⟩
    if d1.rrState = 2 && !d1.jnl.inQueue.isEmpty then d1.setf JNL_STAT.RR_STATE 1 else d1
/-- The entries a Rerun may take now, from the next one on. -/
def Device.rrEntries (d : Device) : List JEntry :=
  if d.fb JNL_CFG.RR_SRC then d.jnl.inQueue else (d.jnl.places.map (·.entry)).filter (fun e => seqFrom e.jseq d.jnl.rrNext)
/-- An entry has been applied. -/
def Device.rrPass (d : Device) (e : JEntry) : Device :=
  let q := if d.fb JNL_CFG.RR_SRC then d.jnl.inQueue.drop 1 else d.jnl.inQueue
  ((d.setJnl { d.jnl with rrNext := (e.jseq + 1) % 4294967296, inQueue := q }).wr JNL_RR_POS 0 (w32 e.jseq)).count JNL_RR_APPLIED
/-- The state that bytes of a checkpoint hold: this device's own checkpoints are known. -/
def Device.ckptState (d : Device) (b : List Byte) : Option Snap :=
  match d.jnl.snaps.find? (fun s => s.1 = b) with
  | some s => some s.2
  | none => Config.ckptDecode b
/-- Entries from START through the first END. -/
def throughEnd : List JEntry → List JEntry
  | [] => []
  | e :: r => if e.typ = 0x22 then [e] else e :: throughEnd r
/-- Consecutive JSEQ from `j` on. -/
def seqRun (j : Nat) : List JEntry → Bool
  | [] => true
  | e :: r => decide (e.jseq = j % 4294967296) && seqRun (j + 1) r
/-- The ring's bursts that hold entries are read: marked ones count, and one that is uncorrectable is answered (R458, R459). -/
def Device.rrRead (d : Device) (es : List JEntry) : Bool × Device :=
  if d.fb JNL_CFG.RR_SRC then (false, d)
  else (d.jnl.places.filter (fun p => es.contains p.entry)).foldl (fun (a : Bool × Device) p =>
    let r := a.2.ddrCheck (a.2.jBase + p.start % max a.2.jSize 1) p.len
    (a.1 || r.1.isSome, r.2)) (false, d)
/-- Why a START fails, by its ECODE (R451). -/
def Device.startBad (d : Device) (e : JEntry) : Option Nat :=
  if e.typ ≠ 0x20 ∨ e.payload.length ≠ 20 then some 2
  else if wd (leWords 6 e.payload) 3 ≠ d.rg PAC_LIB_VER 0 then some 4
  else none
/-- The instant of START, whose payload gives its second in full (Table 16.3). -/
def startInst (e : JEntry) : Time := unTwo (leWords 6 e.payload) 0 * Time.secU + e.inst % Time.secU
/-- An entry's second is completed from Rerun time. -/
def Device.rrDate (d : Device) (e : JEntry) : JEntry :=
  { e with inst := nearSec (Time.secOf d.jnl.rrNow) (Time.secOf e.inst % 4294967296) * Time.secU + e.inst % Time.secU }
/-- A later checkpoint is checked as it passes (R451): its START, and at END its bytes; the answer is the ECODE it stops with. -/
def Device.rrLater (d : Device) (e : JEntry) : Option Nat × Device :=
  let es := d.jnl.rrCkpt
  match e.typ with
  | 0x20 => (d.startBad e, d.setJnl { d.jnl with rrCkpt := [e] })
  | 0x21 => (none, if es.isEmpty then d else d.setJnl { d.jnl with rrCkpt := es ++ [e] })
  | 0x22 => (if es.isEmpty || ckptOk (es ++ [e]) then none else some 2, d.setJnl { d.jnl with rrCkpt := [] })
  | _ => (none, d)
/-- Begin at START: its checks, and the checkpoint's state. -/
def Device.rrLoad (d0 : Device) (e : JEntry) (es : List JEntry) : Device :=
  let ck := throughEnd es
  let r := d0.rrRead ck
  let d := r.2
  match d.startBad e with
  | some c => d.rrStop c
  | none =>
  if r.1 then d.rrStop 3
  else if ck.any (fun x => decide (x.typ = 257)) then d.rrStop 2
  else if ck.any (fun x => decide (x.typ = 256)) || !seqRun e.jseq ck then d.rrStop 3
  else if !ck.any (fun x => decide (x.typ = 0x22)) then d.setf JNL_STAT.RR_STATE 2
  else match (if ckptOk ck then d.ckptState (ckptBytes ck) else none) with
    | none => d.rrStop 2
    | some s =>
      let d1 := d.setJnl { d.jnl with rrLoaded := true, rrNow := startInst e }
      ((d1.restore s true).rrPass e).setf JNL_STAT.RR_STATE 1
/-- A natural uncorrectable error in the burst that holds the first byte of an entry. -/
def Device.rrUe (d : Device) (e : JEntry) : Device :=
  match d.jnl.places.find? (fun p => p.entry = e) with
  | some p => d.ddrUe (d.jBase + p.start % max d.jSize 1)
  | none => d
/-- RERUN_APPLY_ENTRY: the next entry at its instant; `ue` tells a natural uncorrectable error in the ring (R459). -/
def rerunApply (ue : Bool) (d : Device) : Device :=
  if d.pwr.mode ≠ .rerun ∨ (d.rrState ≠ 1 ∧ d.rrState ≠ 2) then d
  else if d.jnl.rrNext = (d.rg JNL_RR_UNTIL 0).toNat then d.rrStop 0
  else match d.rrEntries with
    | [] => d.setf JNL_STAT.RR_STATE 2
    | e :: r =>
      if e.typ = 257 then d.rrStop 2
      else if e.typ = 256 then d.rrStop 3
      else if ue ∧ !d.fb JNL_CFG.RR_SRC then (d.rrUe e).rrStop 3
      else if !d.jnl.rrLoaded then
        if e.jseq = d.jnl.rrNext then d.rrLoad e (e :: r)
        else if d.fb JNL_CFG.RR_SRC then d.setJnl { d.jnl with inQueue := r }
        else d.rrStop 2
      else if e.jseq ≠ d.jnl.rrNext then d.rrStop 3
      else
        let rd := d.rrRead [e]
        let ck := rd.2.rrLater e
        if rd.1 then rd.2.rrStop 3
        else match ck.1 with
          | some c => ck.2.rrStop c
          | none =>
            let x := ck.2.rrDate e
            let t := x.inst
            let d1 := (rrAdvance ((t - d.jnl.rrNow) / Time.usU * 64 + 65536) t ck.2).rrAt t
            let d2 := (d1.applyEntry x).rrPass x
            if d2.rrEntries.isEmpty then d2.setf JNL_STAT.RR_STATE 2 else d2

end Sys2Proof.Machine
end

