-- ==== Sys2Proof/Machine/Merge.lean ====
section
/-!
DEFINITION. The merge buffers of narrow writes (R457), as the tables whose entries are 2 or 4 bytes feed them: the bank is taken as the table.
-/
namespace Sys2Proof.Machine

def tablesArr : Nat := 12

def sameWord (t w : Nat) (e : MergeEnt) : Bool := decide (e.arr = tablesArr ∧ e.bank = t ∧ e.word = w)
def Device.setMerge (d : Device) (m : List MergeEnt) : Device := d.setMem { d.mem with merge := m }
/-- An entry reaches the array. -/
def Device.mergeOut (d : Device) (e : MergeEnt) (how : Nat) : Device :=
  { d.setMerge (d.mem.merge.filter (· ≠ e)) with noted := if d.watched then d.noted ++ [(badKey e.arr (tabWordLoc e.bank e.word), how)] else d.noted }
/-- An incomplete entry becomes a read-modify-write: the word that it reads may be lost, and its poison then stays. -/
def Device.mergeFlush (d : Device) (e : MergeEnt) : Device :=
  let loc := tabWordLoc e.bank e.word
  ((d.mergeOut e 0).count MEM_RMW).memRead e.arr loc 0
/-- One narrow write: `mask` are the bytes of the word. -/
def Device.mergeWrite (d : Device) (t w mask : Nat) : Device :=
  match d.mem.merge.find? (sameWord t w) with
  | some e =>
    let m := e.mask ||| mask
    if m = 255 then (d.mergeOut e 1).count MEM_MERGED
    else d.setMerge (d.mem.merge.map (fun x => if x = e then { x with mask := m } else x))
  | none =>
    let mine := d.mem.merge.filter (fun e => decide (e.arr = tablesArr ∧ e.bank = t))
    let d1 := if 8 ≤ mine.length then (match mine.head? with | some e => d.mergeFlush e | none => d) else d
    d1.setMerge (d1.mem.merge ++ [⟨tablesArr, t, w, mask, d.tk.ticks⟩])
/-- The writes of `n` entries of a table from position `first` on. -/
def Device.mergeLoad (d : Device) (t first n : Nat) : Device :=
  if !narrowTab t then d
  else
    let sz := tabBytes t
    (List.range n).foldl (fun x k =>
      let a := (first + k) * sz
      x.mergeWrite t (a / 8) ((2 ^ sz - 1) * 2 ^ (a % 8))) d
/-- A read that touches pending entries waits until they have been written. -/
def Device.mergeReadT (d : Device) (t first n : Nat) : Device :=
  let sz := tabBytes t
  (d.mem.merge.filter (fun e => decide (e.arr = tablesArr ∧ e.bank = t ∧ first * sz / 8 ≤ e.word ∧ e.word * 8 < (first + n) * sz))).foldl
    (fun x e => x.mergeFlush e) d


end Sys2Proof.Machine
end

