-- ==== Sys2Proof/Machine/Host.lean ====
section
/-!
DEFINITION. The host interface (spec/14): doorbells and rings (R392 to R397), descriptors and completions (R398), DMA channels (R402 to R404), the
opcodes, stream FIFO reads and flushes (R405 to R408), and the PCIe link (R391).
-/
namespace Sys2Proof.Machine

def dmaInit : Chan := ⟨.idle, none, 0, [], 0, false, 0, none⟩
def Device.dch (d : Device) (c : Nat) : Chan := mgetD d.hif.ch c dmaInit
def Device.setHif (d : Device) (h : Hif) : Device := { d with hif := h }
def Device.setDch (d : Device) (c : Nat) (x : Chan) : Device := d.setHif { d.hif with ch := mset d.hif.ch c x }
def Device.setSf (d : Device) (n : Nat) (ps : List Packet) : Device := d.setHif { d.hif with sf := mset d.hif.sf n ⟨ps⟩ }
/-- A configuration write is ignored. -/
def Device.cfgErr (d : Device) : Device := d.setf HIF_STAT.CFG_ERR 1

/-! Doorbells (R394). `ring` numbers SQ n as n and CQ n as 64 + n. -/

def Device.dbBad (d : Device) (ring : Nat) (v : Word) : Device :=
  let d1 := (d.setf HIF_STAT.DB_ERR 1).count HIF_DB_ERR
  let d2 := d1.raiseSec (mget d.hif.dbSec ring) EV_HIF_DB [ring, v.toNat]
  d2.setHif { d2.hif with dbSec := mset d2.hif.dbSec ring d2.sec }
/-- A read of BAR2, at any offset, returns 0 (R394). No command is such a read. -/
def bar2Read (_offset : Nat) : Word := 0#32
/-- SQ_TAIL_DOORBELL. -/
def sqDoorbell (n : Nat) (v : Word) (d : Device) : Device :=
  let q := n % 64
  let t := bx v 15 0
  if !d.fb HIF_SQ_CFG.EN q || decide (d.sqSize q ≤ t) then d.dbBad q v
  else d.setHif { d.hif with sq := mset d.hif.sq q { d.sqSt q with tail := t } }
/-- CQ_HEAD_DOORBELL: the head may move up to the tail. -/
def cqDoorbell (n : Nat) (v : Word) (d : Device) : Device :=
  let q := n % 64
  let c := d.cqSt q
  let s := d.cqSize q
  let h := bx v 15 0
  if !d.fb HIF_CQ_CFG.EN q || decide (s ≤ h) || decide ((c.tail + s - c.head) % s < (h + s - c.head) % s) then d.dbBad (64 + q) v
  else d.setHif { d.hif with cq := mset d.hif.cq q { c with head := h } }

/-! Ring configuration (R392), on the selected ring. -/

def sizeOk (v : Word) (hi lo : Nat) : Bool := decide (6 ≤ bx v hi lo ∧ bx v hi lo ≤ 16)
/-- A write to HIF_SQ_CFG. -/
def sqCfgWrite (v : Word) (d : Device) : Device :=
  let q := d.f HIF_SQ_SEL.RING
  if d.fb HIF_SQ_CFG.EN q then (if bit v 31 then d.cfgErr else d.setf HIF_SQ_CFG.EN 0 q)
  else if !sizeOk v 20 16 then d.cfgErr
  else
    let d1 := d.wr HIF_SQ_CFG q (v &&& 0x801F1F3F#32)
    if bit v 31 then d1.setHif { d1.hif with sq := mset d1.hif.sq q ⟨0, 0⟩ } else d1
/-- A write to HIF_CQ_CFG. -/
def cqCfgWrite (v : Word) (d : Device) : Device :=
  let q := d.f HIF_CQ_SEL.RING
  if d.fb HIF_CQ_CFG.EN q then (if bit v 31 then d.cfgErr else d.setf HIF_CQ_CFG.EN 0 q)
  else if !sizeOk v 28 24 || decide (bx v 30 29 = 3) then d.cfgErr
  else
    let d1 := d.wr HIF_CQ_CFG q (v &&& 0xFF7FFFFF#32)
    if bit v 31 then d1.setHif { d1.hif with cq := mset d1.hif.cq q ⟨0, 0, 0, none⟩ } else d1
/-- A write to a base or write-back address register of a ring: `low` are the bits that must be 0. -/
def ringAddrWrite (cq : Bool) (r : RegDef) (low : Nat) (v : Word) (d : Device) : Device :=
  let q := if cq then d.f HIF_CQ_SEL.RING else d.f HIF_SQ_SEL.RING
  let en := if cq then d.fb HIF_CQ_CFG.EN q else d.fb HIF_SQ_CFG.EN q
  if en || decide (v.toNat % 2 ^ low ≠ 0) then d.cfgErr else d.wr r q v
/-- RING_ENABLE and RING_DISABLE: the configuration write that sets or clears EN. -/
def ringEnable (cq : Bool) (v : Word) (d : Device) : Device :=
  if cq then cqCfgWrite (bset v 31 31 1) d else sqCfgWrite (bset v 31 31 1) d
def ringDisable (cq : Bool) (d : Device) : Device := if cq then cqCfgWrite 0x06000000#32 d else sqCfgWrite 0x00060000#32 d

/-- CQ_COALESCE_TIMEOUT (R397). -/
def coalesceTimeout (n : Nat) (d : Device) : Device :=
  let q := n % 64
  let us := d.f HIF_CQ_CFG.COAL_US q
  match (d.cqSt q).first with
  | some t => if d.fb HIF_CQ_CFG.EN q && decide (us ≠ 0) && decide (t + us * Time.usU ≤ d.now) then d.cqVector q else d
  | none => d

/-! Completions (R396 to R398, R403). -/

/-- A channel stops (R403). -/
def Device.dmaStop (d : Device) (c : Nat) : Device :=
  let m := d.f DMA_CH_CFG.STOP_MODE c
  let d1 := (d.setDch c { d.dch c with st := .stopped, cur := none, got := [], aborting := false, copied := 0, lastCopy := none }).count
    (if m = 1 then DMA_ABORTS else DMA_DISABLES)
  (d1.setf DMA_CH_CTL.STOP 0 c).raise EV_DMA_STOP [c, m]
/-- Descriptors in progress whose completion goes to a CQ. -/
def Device.outstanding (d : Device) (q : Nat) : Nat :=
  ((mvals d.hif.ch).filter (fun c => match c.cur with | some x => decide (x.cq = q) | none => false)).length
/-- The channel is done with its descriptor. -/
def Device.dmaFree (d : Device) (c : Nat) : Device :=
  if (d.dch c).aborting then (d.setDch c { d.dch c with left := 0 }).dmaStop c
  else d.setDch c { d.dch c with st := .idle, cur := none, left := 0, got := [], copied := 0, lastCopy := none }
/-- Write a completion entry, and free the channel. -/
def Device.finish (d : Device) (c status residue detail : Nat) : Device :=
  match (d.dch c).cur with
  | none => d
  | some x =>
    let w := wd x.words 0
    let ent : List Word := [w32 (status % 256 * 16777216 + x.sq % 64 * 65536 + bx w 15 0), w32 residue, w32 detail, w32 ((d.sqSt x.sq).head % 65536)]
    let d1 := if d.fb HIF_CQ_CFG.EN x.cq then (d.cqPost x.cq [ent] (bit w 21 || decide (status = 12))).count HIF_DESC_DONE else d
    let d2 := if d.fb HIF_CQ_CFG.EN x.cq && decide (status ≠ 0) then d1.count HIF_DESC_ERR else d1
    d2.dmaFree c

/-! Descriptors. -/

def dOp (w : List Word) : Nat := bx (wd w 0) 31 24
def dSg (w : List Word) : Bool := bit (wd w 0) 22
def dSwap (w : List Word) : Nat := bx (wd w 0) 20 19
def dTable (w : List Word) : Nat := bx (wd w 1) 31 24
def dAddr (w : List Word) : Nat := (wd w 4).toNat + (wd w 5).toNat * 4294967296
def dLen (w : List Word) : Nat := (wd w 6).toNat
/-- The opcode moves data. -/
def dData (op : Nat) : Bool := [1, 2, 4, 5].contains op
/-- The elements of a scatter-gather list (R402): four words each. -/
def sgElems : Nat → List Word → List (Nat × Nat)
  | 0, _ => []
  | n + 1, ws =>
    let k := (wd ws 2).toNat
    ((wd ws 0).toNat + (wd ws 1).toNat * 4294967296, if k = 0 then 16777216 else k) :: sgElems n (ws.drop 4)
def sgBad (n : Nat) (ws : List Word) : Bool :=
  decide (ws.length < 4 * n) || (List.range n).any (fun i => decide ((wd ws (4 * i + 3)).toNat ≠ 0 ∨ 16777216 < (wd ws (4 * i + 2)).toNat))
/-- The pieces of host memory a descriptor covers. -/
def dPieces (w : List Word) (sg : List Word) : List (Nat × Nat) :=
  if !dData (dOp w) then [] else if dSg w then sgElems (min 256 (dLen w)) sg else [(dAddr w, dLen w)]
def pieceSum (ps : List (Nat × Nat)) : Nat := (ps.map (·.2)).sum
/-- Words 1 to 3 by opcode: the bad fields. -/
def dFieldBad (w : List Word) : List (Bool × Nat) :=
  let w1 := wd w 1
  let t := dTable w
  match dOp w with
  | 0 => [(decide (w1 ≠ 0), 1), (decide (wd w 2 ≠ 0), 2), (decide (wd w 3 ≠ 0), 3)]
  | 1 | 2 => [(decide (tabCount t = 0 ∧ t ≠ tGraph) || decide (bx w1 23 10 ≠ 0) || decide (tabIndexes t ≤ bx w1 9 0), 1),
              (decide (bx (wd w 2) 31 24 ≠ 0) || firstBad t (bx (wd w 2) 23 0), 2),
              (decide (bx (wd w 3) 31 24 ≠ 0) || countBad t (bx (wd w 2) 23 0) (bx (wd w 3) 23 0), 3)]
  | 3 => [(decide (bx w1 31 30 = 0 ∨ bx w1 31 30 = 3 ∨ bx w1 29 10 ≠ 0), 1), (decide (wd w 2 ≠ 0), 2), (decide (wd w 3 ≠ 0), 3)]
  | 4 => [(decide (bx (wd w 2) 31 5 ≠ 0), 2), (decide (wd w 3 ≠ 0), 3)]
  | _ => [(decide (bx w1 31 2 ≠ 0 ∨ bx w1 1 0 = 3), 1), (decide (wd w 2 ≠ 0), 2), (decide (wd w 3 ≠ 0), 3)]
/-- The word index of the first bad field of a descriptor with a listed opcode (Table 14.7). -/
def dBad (w : List Word) (sg : List Word) : Option Nat :=
  let op := dOp w
  let n := pieceSum (dPieces w sg)
  let stream := decide (op = 5)
  let list := dSg w && dData op && !stream
  let w0 := decide (bx (wd w 0) 18 16 ≠ 0) || (stream && (dSg w || decide (dSwap w ≠ 0))) || (dData op && decide (dSwap w ≠ 0 ∧ n % 4 ≠ 0))
  let w4 := list && (decide (dAddr w % 16 ≠ 0) || (decide (1 ≤ dLen w ∧ dLen w ≤ 256) && sgBad (dLen w) sg))
  let len := if op = 1 ∨ op = 2 then decide (n ≠ bx (wd w 3) 23 0 * tabBytes (dTable w)) else stream && decide (dLen w < 16384)
  let w6 := (list && decide (dLen w = 0 ∨ 256 < dLen w)) || len
  let all : List (Bool × Nat) := (w0, 0) :: (dFieldBad w ++ [(w4, 4), (w6, 6), (decide (wd w 7 ≠ 0), 7)])
  (all.find? (·.1)).map (·.2)

/-- A ring a channel may serve now: enabled, not empty, and its completion ring has room (R393). -/
def Device.sqReady (d : Device) (c q : Nat) : Bool :=
  let cq := d.f HIF_SQ_CFG.CQ q
  d.fb HIF_SQ_CFG.EN q && decide (d.f HIF_SQ_CFG.CHAN q = c) && decide ((d.sqSt q).head ≠ (d.sqSt q).tail) &&
    d.fb HIF_CQ_CFG.EN cq && decide (d.f HIF_CQ_CFG.CONTENT cq = 0) && decide (d.outstanding cq < d.cqFree cq)
/-- The next ring in round-robin order (R395). -/
def Device.nextSq (d : Device) (c : Nat) : Option Nat :=
  ((List.range 64).map (fun k => ((d.dch c).rr + 1 + k) % 64)).find? (d.sqReady c)
/-- DESCRIPTOR_FETCH: `words` and `sg` are what the fetch finds in host memory. -/
def descriptorFetch (ch : Nat) (words sg : List Word) (d : Device) : Device :=
  let c := ch % 32
  if !d.alive || !d.fb HIF_STAT.LINK_UP || (d.dch c).st ≠ .idle then d
  else match d.nextSq c with
    | none => d
    | some q =>
      let w := (List.range 8).map (wd words)
      let st := d.sqSt q
      let d1 := d.setHif { d.hif with sq := mset d.hif.sq q { st with head := (st.head + 1) % d.sqSize q } }
      let ps := dPieces w sg
      let x : Xfer := ⟨q, d.f HIF_SQ_CFG.CQ q, w, ps⟩
      let d2 := d1.setDch c { d1.dch c with st := .running, cur := some x, left := pieceSum ps, got := [], rr := q, copied := 0, lastCopy := none }
      if dOp w > 5 then d2
      else match dBad w sg with
        | some k => d2.finish c 2 (pieceSum ps) k
        | none => d2

/-! Data. -/

/-- SWAP on each 32-bit word (R403). Of a word that has not arrived whole, only bytes whose place is known stand: its first half-word keeps its
place unless half-words are swapped. -/
def swapBytes (m : Nat) : List Byte → List Byte
  | a :: b :: c :: e :: r => (match m with | 0 => [a, b, c, e] | 1 => [b, a, e, c] | 2 => [c, e, a, b] | _ => [e, c, b, a]) ++ swapBytes m r
  | a :: b :: r => match m with | 0 => a :: b :: r | 1 => [b, a] | _ => []
  | r => if m = 0 then r else []
/-- A write of data to host memory: it carries Relaxed Ordering while HIF_CFG.RO_EN is set (R387, R402). -/
def Device.dataWrite (d : Device) (a : Nat) (b : List Byte) : Device := d.toHost (.hostWrite (d.fb HIF_CFG.RO_EN) a b)
/-- Write bytes into the pieces of host memory. -/
def Device.hostPut (d : Device) : List (Nat × Nat) → List Byte → Device
  | [], _ => d
  | (a, n) :: r, b => if b.isEmpty then d else (d.dataWrite a (b.take n)).hostPut r (b.drop n)
/-- The address of the last of the first `n` bytes of the pieces. -/
def lastByte : List (Nat × Nat) → Nat → Option Nat
  | [], _ => none
  | (a, k) :: r, n => if n = 0 then none else if n ≤ k then some (a + n - 1) else lastByte r (n - k)
/-- BARRIER (R402): before a descriptor that has written `n` bytes completes, a read of the last of them returns. -/
def Device.barrier (d : Device) (x : Xfer) (n : Nat) : Device :=
  if bit (wd x.words 0) 23 then
    match lastByte x.list n with
    | some a => d.toHost (.hostRead a)
    | none => d
  else d
/-- The data of a device-to-host descriptor, which its completion follows. -/
def Device.dataPut (d : Device) (x : Xfer) (b : List Byte) : Device := (d.hostPut x.list b).barrier x b.length
/-- The descriptor a channel is executing, where its opcode is `op`. -/
def Device.xfer (d : Device) (c op : Nat) : Option Xfer :=
  match (d.dch c).cur with
  | some x => if (d.dch c).st = .running ∧ dOp x.words = op ∧ d.alive then some x else none
  | none => none

/-- OP_NOP. -/
def opNop (ch : Nat) (d : Device) : Device :=
  match d.xfer (ch % 32) 0 with
  | none => d
  | some _ => d.finish (ch % 32) 0 0 0
/-- OP_UNDEFINED. -/
def opUndefined (ch : Nat) (d : Device) : Device :=
  match (d.dch (ch % 32)).cur with
  | some x => if dOp x.words > 5 ∧ (d.dch (ch % 32)).st = .running ∧ d.alive then d.finish (ch % 32) 1 0 0 else d
  | none => d
/-- The loaded entries of the bytes that have arrived. -/
def xferEntries (x : Xfer) (got : List Byte) : List (List Word) := entriesOf (dTable x.words) (swapBytes (dSwap x.words) got)
/-- A table whose loads store every entry or none (Table 14.8). -/
def atomicTab (t : Nat) : Bool := [0x04, 0x0F, 0x10, 0x11, 0x12, 0x13, 0x14, 0x15, 0x17].contains t
/-- Run the table unit on the entries that have arrived; an atomic table takes them only when they are all there. -/
def Device.loadNow (d : Device) (x : Xfer) (es : List (List Word)) : TabRes × Device :=
  let n := bx (wd x.words 3) 23 0
  if es.isEmpty || (atomicTab (dTable x.words) && decide (es.length < n)) then (⟨0, 0⟩, d)
  else
    let r := d.tableLoad (wd x.words 1) (wd x.words 2) (wd x.words 3) es
    (r.1, r.2.mergeLoad (dTable x.words) (bx (wd x.words 2) 23 0) (storedCount r.1 es.length))
/-- OP_TABLE_LOAD: every byte has arrived. -/
def opTableLoad (ch : Nat) (d : Device) : Device :=
  let c := ch % 32
  match d.xfer c 1 with
  | none => d
  | some x =>
    if (d.dch c).left ≠ 0 then d
    else
      let es := xferEntries x (d.dch c).got
      if dTable x.words = tGraph ∧ es.length ≠ graphCount es.flatten then d.finish c 2 0 3
      else
        let r := d.loadNow x es
        r.2.finish c r.1.status 0 r.1.detail
/-- OP_TABLE_READ. -/
def opTableRead (ch : Nat) (d : Device) : Device :=
  let c := ch % 32
  match d.xfer c 2 with
  | none => d
  | some x =>
    let w := x.words
    let n := bx (wd w 3) 23 0
    if dTable w = tGraph ∧ n ≠ graphCount (graphWords (d.graph (1 - d.isl.active))) then d.finish c 2 (d.dch c).left 3
    else
      let b := d.tableRead (dTable w) (bx (wd w 1) 9 0) (bx (wd w 2) 23 0) n
      ((d.mergeReadT (dTable w) (bx (wd w 2) 23 0) n).dataPut x (swapBytes (dSwap w) b)).finish c 0 0 0
/-- OP_HEAT_ENABLE and OP_HEAT_DISABLE. -/
def opHeatEnable (ch : Nat) (d : Device) : Device :=
  let c := ch % 32
  match d.xfer c 3 with
  | none => d
  | some x => if bx (wd x.words 1) 31 30 ≠ 1 then d else
    let r := d.heatEnable (bx (wd x.words 1) 9 0)
    r.2.finish c r.1.status 0 r.1.detail
def opHeatDisable (ch : Nat) (d : Device) : Device :=
  let c := ch % 32
  match d.xfer c 3 with
  | none => d
  | some x => if bx (wd x.words 1) 31 30 ≠ 2 then d else (d.heatDisable (bx (wd x.words 1) 9 0)).finish c 0 0 0

/-- A read error ends a descriptor (R404): STATUS, RESIDUE and DETAIL. -/
def Device.dmaError (d : Device) (c status residue detail : Nat) : Device :=
  match (d.dch c).cur with
  | none => d
  | some x =>
    let d1 := d.count DMA_ERR_CNT
    let d2 := if status = 11 then d1.count DMA_ERR_LAST_CNT else d1
    (d2.raise EV_DMA_ERR [c, x.sq, bx (wd x.words 0) 15 0, status, detail]).finish c status residue detail
/-- OP_MEM_READ: `ue` is the burst of device DDR5 found uncorrectable, if any (R459). -/
def opMemRead (ch : Nat) (ue : Option Nat) (d : Device) : Device :=
  let c := ch % 32
  match d.xfer c 4 with
  | none => d
  | some x =>
    let w := x.words
    let a := (wd w 1).toNat + bx (wd w 2) 4 0 * 4294967296
    let n := (d.dch c).left
    if n ≠ 0 ∧ !((List.range ((a + n - 1) / 1073741824 - a / 1073741824 + 1)).all (fun i => Config.ddrPopulated (a / 1073741824 + i))) then
      d.finish c 13 n 0
    else
      let nat := ue.bind (fun b => if (burstsOf a n).contains b then some b else none)
      let r0 := d.ddrCheck a n
      let r := (r0.1, r0.2.osmHit (nat.toList ++ (burstsOf a n).filter (fun b => decide (d.badAt (ddrArr b) b = 2))))
      let bad := match nat, r.1 with | some p, some q => some (min p q) | some p, none => some p | none, o => o
      let data := swapBytes (dSwap w) (ddrRead d.ddr a n)
      match bad with
      | none => (r.2.dataPut x data).finish c 0 0 0
      | some b =>
        let d1 := if nat.isSome ∧ bad = nat ∧ r.1 ≠ nat then r.2.ddrUe (64 * b) else r.2
        let first := 64 * b - a
        let d2 := d1.dataPut x (data.take first)
        if a + n ≤ 64 * b + 64 then d2.dmaError c 11 0 first else d2.dmaError c 10 (n - first) first

/-- DMA_READ_COMPLETION: bytes of a TABLE_LOAD arrive; `ok` is false for a completion that fails, and then `data` are the bytes it carries or
covers. What has arrived whole before the failure is stored (R400, R404). -/
def dmaReadCompletion (ch : Nat) (data : List Byte) (ok : Bool) (d : Device) : Device :=
  let c := ch % 32
  match d.xfer c 1 with
  | none => d
  | some x =>
    let k := d.dch c
    let b := data.take k.left
    if b.isEmpty then d
    else if ok then d.setDch c { k with left := k.left - b.length, got := k.got ++ b }
    else
      let first := k.got.length
      let es := xferEntries x (k.got.take (first / tabBytes (dTable x.words) * tabBytes (dTable x.words)))
      let r := d.loadNow x es
      if r.1.status ≠ 0 then (r.2.setDch c { k with left := 0 }).finish c r.1.status 0 r.1.detail
      else if b.length = k.left then r.2.dmaError c 11 0 first
      else r.2.dmaError c 10 k.left first

/-! Stopping a channel (R403). -/

/-- DMA_CH_STOP. -/
def dmaChStop (ch : Nat) (d : Device) : Device :=
  let c := ch % 32
  let k := d.dch c
  match k.st with
  | .stopped => d
  | .idle => d.dmaStop c
  | .running =>
    if d.fb DMA_CH_CFG.STOP_MODE c then (d.setDch c { k with aborting := true }).setf DMA_CH_CTL.STOP 1 c
    else
      let part : Device := match k.cur with
        | none => d
        | some x => if decide (dOp x.words = 1) && !atomicTab (dTable x.words) then
            let es := xferEntries x k.got
            let m := (Config.freeWord (d.free + 1)).toNat % (es.length + 1)
            (d.loadNow x (es.take m)).2
          else d
      let d1 := { part with free := d.free + 2 }
      (d1.setDch c { d1.dch c with left := (Config.freeWord d.free).toNat }).dmaStop c
/-- DMA_ABORT_DONE: the burst is over. A descriptor that has moved its last byte, or moves none, ends with its own status. -/
def dmaAbortDone (ch : Nat) (d : Device) : Device :=
  let c := ch % 32
  let k := d.dch c
  match k.cur with
  | none => d
  | some x =>
    if !k.aborting then d
    else match dOp x.words with
      | 0 => opNop c d
      | 1 =>
        if k.left = 0 then opTableLoad c d
        else
          let r := d.loadNow x (xferEntries x (k.got.take (k.got.length / tabBytes (dTable x.words) * tabBytes (dTable x.words))))
          r.2.finish c 12 k.left 0
      | 2 | 4 | 5 => (d.barrier x k.copied).finish c 12 k.left 0
      | 3 => if bx (wd x.words 1) 31 30 = 1 then opHeatEnable c d else opHeatDisable c d
      | _ => opUndefined c d
/-- DMA_CH_START. -/
def dmaChStart (ch : Nat) (d : Device) : Device :=
  let c := ch % 32
  if (d.dch c).st = .stopped then d.setDch c { d.dch c with st := .idle } else d
/-- A write to DMA_CH_CTL. -/
def dmaCtlWrite (ch : Nat) (v : Word) (d : Device) : Device :=
  let d1 := if bit v 31 then dmaChStop ch d else d
  if bit v 30 then dmaChStart ch d1 else d1
/-- A write to DMA_CH_CFG. -/
def dmaCfgWrite (ch : Nat) (v : Word) (d : Device) : Device :=
  if (d.dch ch).st = .running then d.cfgErr else d.setf DMA_CH_CFG.STOP_MODE (b2n (bit v 31)) ch

/-! Stream FIFOs as they are read (R405 to R408, Table 17.1 row 0x07). A packet whose words are not clean is marked in its kind: 16 uncorrectable,
32 correctable. -/

/-- What a read of a packet gives: the packet as it is copied, or nothing where it is dropped. -/
def Device.sfTake (d : Device) (n : Nat) (p : Packet) : Option Packet × Device :=
  let clean : Packet := ⟨p.more, p.kind % 16, p.payload⟩
  if p.kind < 16 then (some clean, d)
  else if p.kind ≥ 32 then (some clean, d.memCe 7 n (Config.memIdx 7 n))
  else
    let d1 := d.memUe 7 n (Config.memIdx 7 n) false
    if n = 0 then
      let j := if p.kind % 16 = 0 then (wd (leWords 2 p.payload) 1).toNat else (Config.freeWord d1.free).toNat
      (some (gapPacket j 1), { d1 with free := d1.free + 1 })
    else (none, d1.count (if n = 1 then HIF_SF_DROP else ACQ_SUM_DROP))
/-- Copy packets while the next one fits (R407): `fuel` bounds them. -/
def Device.sfCopy (d : Device) (c n base len : Nat) : Nat → Device
  | 0 => d
  | fuel + 1 =>
    let k := d.dch c
    match d.sfSt n with
    | [] => d
    | p :: r =>
      let t := d.sfTake n p
      match t.1 with
      | none => (t.2.setSf n r).sfCopy c n base len fuel
      | some q =>
        let m := 4 + (pad4 q.payload).length
        if len < k.copied + m then d
        else
          let a := base + k.copied
          let d1 := ((t.2.setSf n r).dataWrite (a + 4) (pad4 q.payload)).dataWrite a (le32 (lenWord q))
          (d1.setDch c { k with copied := k.copied + m, left := len - (k.copied + m), lastCopy := some d.now }).sfCopy c n base len fuel
/-- A STREAM_READ completes: a zero word ends what has been copied, where room remains. -/
def Device.streamDone (d : Device) (c : Nat) (x : Xfer) (detail : Nat) : Device :=
  let k := d.dch c
  let d1 := if k.copied + 4 ≤ dLen x.words then (d.dataWrite (dAddr x.words + k.copied) (le32 0#32)).barrier x (k.copied + 4)
    else d.barrier x k.copied
  d1.finish c 0 (dLen x.words - k.copied) detail
/-- OP_STREAM_READ. -/
def opStreamRead (ch : Nat) (d : Device) : Device :=
  let c := ch % 32
  match d.xfer c 5 with
  | none => d
  | some x =>
    let n := bx (wd x.words 1) 1 0
    let d1 := d.sfCopy c n (dAddr x.words) (dLen x.words) ((d.sfSt n).length + 1)
    if (d1.dch c).copied ≠ 0 ∧ !(d1.sfSt n).isEmpty then d1.streamDone c x 0 else d1
/-- STREAM_READ_IDLE_TIMEOUT. -/
def streamIdle (ch : Nat) (d : Device) : Device :=
  let c := ch % 32
  match d.xfer c 5, (d.dch c).lastCopy with
  | some x, some t =>
    let n := bx (wd x.words 1) 1 0
    if (d.sfSt n).isEmpty && decide (t + max 1 (d.f HIF_SF_CFG.IDLE_US n) * Time.usU ≤ d.now) then d.streamDone c x 0 else d
  | _, _ => d
/-- The channel whose STREAM_READ reads a FIFO. -/
def Device.streamReader (d : Device) (n : Nat) : Option (Nat × Xfer) :=
  (List.range 32).findSome? (fun c => (d.xfer c 5).bind (fun x => if bx (wd x.words 1) 1 0 = n then some (c, x) else none))
/-- STREAM_FIFO_FLUSH. -/
def streamFlush (n : Nat) (d : Device) : Device :=
  if 2 < n then d
  else
    let d1 := ((d.setSf n []).count HIF_SF_FLUSHES).setf HIF_SF_CTL.FLUSH 0 n
    match d1.streamReader n with
    | some (c, x) => (d1.barrier x (d1.dch c).copied).finish c 0 (dLen x.words - (d1.dch c).copied) 2147483648
    | none => d1

/-! The PCIe link (R391, R412, R488). -/

/-- The set-up registers of HIF_ and DMA_ begin anew; their counters go on. -/
def hifRegsReset (m : NMap Word) : NMap Word := m.filter (fun e => decide (0x170100 ≤ e.1 ∧ e.1 < 0x170130) || decide (e.1 = 0x170008))
/-- The host interface begins anew. -/
def Device.hifReset (d : Device) : Device :=
  ({ d with regs := mset d.regs 0x17 (hifRegsReset (d.blkRegs 0x17)), hif := { sq := [], cq := [], ch := [], sf := [], dbSec := d.hif.dbSec, msix := [] }, pba := [] }).irqRefresh 17
/-- PCIE_LINK_DOWN: a Function Level Reset (`flr`) leaves the link up and is no link-down. -/
def pcieLinkDown (flr : Bool) (rate width : Nat) (d : Device) : Device :=
  let up := d.f HIF_STAT.LINK_UP
  let d1 := d.hifReset
  if flr then d1.setf HIF_STAT.LINK_UP up else (d1.count HIF_LINK_DOWN).raise EV_HIF_LINK [0, rate, width]
/-- PCIE_LINK_UP. -/
def pcieLinkUp (rate width : Nat) (d : Device) : Device :=
  if !d.alive || d.fb HIF_STAT.LINK_UP then d else (d.setf HIF_STAT.LINK_UP 1).raise EV_HIF_LINK [1, rate, width]

end Sys2Proof.Machine
end

