-- ==== Sys2Proof/Machine/Memory.lean ====
section
/-!
DEFINITION. Memory integrity (spec/17): the scrubber, the merge buffers' timeout, error injection, and what the readers of the arrays of
Table 17.1 do with a word that is not clean. Writes to the tables, the output store and DDR5 are noted as they are made; a write to another array is
seen as a difference between the device before and after a command (log entry 52).
-/
namespace Sys2Proof.Machine

/-! Places of words by array. -/

/-- Keys whose value differs, in a list that rises. -/
def changed {α : Type} [DecidableEq α] (old new : NMap α) : List Nat := (new.filter (fun e => mget old e.1 ≠ some e.2)).map (·.1)

def ringLoc (k : Nat) (s : Sample) : Nat := s.tAt * 1048576 + k
/-- Records of the alarm and interval buffers; 64-bit words of the output store lie below. -/
def almLoc (r : List Word) : Nat := 4294967296 + (wd r 1).toNat
def nrgLoc (r : List Word) : Nat := 8589934592 + ofLeSum r
where ofLeSum (r : List Word) : Nat := r.foldl (fun a w => a * 4294967296 + w.toNat) 0
/-- The words of an array that a command has noted as written, whole or in part. -/
def Device.notedIn (d : Device) (arr : Nat) : List Nat := (d.noted.filter (fun n => decide (n.1 % 32 = arr ∧ n.2 ≤ 1))).map (fun n => n.1 / 32)
/-- The samples that a capture group's open blocks have gained. -/
def capNew (old : Device) (e : Nat × CapGrp) : List Nat :=
  e.2.cur.flatMap (fun c => (c.2.take 1).filterMap (fun s =>
    if (mgetD (old.capGrp e.1).cur c.1 []).contains s then none else some (capLoc e.1 c.1 s)))
/-- The words of an array that a command has written. Kernel state lies behind the tables. Every command writes control state and the caches that
hold it (log entry 52). -/
def written (old new : Device) (arr : Nat) : List Nat :=
  match arr with
  | 0 => (changed old.pfa.gs new.pfa.gs).flatMap (fun k => (List.range 16).map (gsLoc k))
  | 1 => (new.srt.flight.filter (fun t => t.gathered.isSome && !old.srt.flight.contains t)).map lmLoc
  | 2 => [0]
  | 3 => new.ing.ports.flatMap (fun p => (p.2.fifo.filter (fun f =>
      !(match mget old.ing.ports p.1 with | some o => o.fifo.contains f | none => false))).map (fifoLoc p.1))
  | 4 => (new.pfa.stage.filter (fun s => !old.pfa.stage.contains s)).map stLoc
  | 5 => new.ing.rings.flatMap (fun r => (r.2.filter (fun s => !(mgetD old.ing.rings r.1 []).contains s)).map (ringLoc r.1))
  | 6 => new.acq.grps.flatMap (capNew old)
  | 7 => (List.range 3).filter (fun n => decide ((old.sfSt n).length < (new.sfSt n).length))
  | 8 => new.notedIn 8 ++ ((new.alm.buf.filter (fun r => !old.alm.buf.contains r)).map almLoc) ++
      ((new.nrg.buf.filter (fun r => !old.nrg.buf.contains r)).map nrgLoc)
  | 9 => (new.scb.buf.filter (fun r => !old.scb.buf.any (fun o => decide (o.seq = r.seq)))).map (·.seq)
  | 10 => changed old.key.slots new.key.slots ++ ((changed old.key.groups new.key.groups).map keyLoc)
  | 11 => if new.srt.store = old.srt.store ∧ new.srt.timers = old.srt.timers ∧ new.srt.queues = old.srt.queues ∧ new.pfa.pendq = old.pfa.pendq ∧
      new.alm.hur = old.alm.hur ∧ new.rxl.links = old.rxl.links then [] else [0]
  | 12 => new.notedIn 12 ++ (changed old.pac.incoming new.pac.incoming).map (· + 2 ^ 60)
  | 16 | 17 => new.notedIn arr
  | _ => []
/-- The bank of a word: the bank group in the Grandstand, the engine, the port, the FIFO (R460). -/
def Device.memBank (d : Device) (arr loc : Nat) : Nat :=
  match arr with
  | 0 => let k := loc / 128; d.recBank (k / 16384 / 256) (k / 16384 % 256) (k % 16384) (loc / 16 % 8)
  | 1 => loc / 4294967296
  | 3 => loc % 8
  | 6 => loc % 8
  | 7 => loc
  | _ => 0

/-! Injection (R464, R465). -/

def flips (n width : Nat) : Nat := ((List.range width).filter n.testBit).length
/-- What a flip mask makes of a codeword: 0 nothing, 1 one bit or one symbol, 2 uncorrectable. More than a code is sure to detect is left open
(free value). -/
def Device.flipKind (d : Device) (arr : Nat) : Nat :=
  let data := (d.rg MEM_FLIPMASK0 0).toNat + (d.rg MEM_FLIPMASK1 0).toNat * 4294967296
  let chk := d.f MEM_FLIPMASK2.MASK
  let n := if isDdr arr then ((List.range 8).filter (fun i => data / 256 ^ i % 256 ≠ 0)).length + b2n (chk ≠ 0) else flips data 64 + flips chk 8
  match n with
  | 0 => 0
  | 1 => 1
  | 2 => 2
  | _ => 1 + (Config.freeWord d.free).toNat % 2
/-- Samples of a ring place that count as invalid. -/
def Device.sampleKill (d : Device) (loc : Nat) : Device :=
  let kill (k : Nat) (s : Sample) : Sample := if ringLoc k s = loc then { s with bad := s.bad ||| 65535 } else s
  { d with ing := { d.ing with rings := d.ing.rings.map (fun r => (r.1, r.2.map (kill r.1))) } }

/-- The newest packet of a stream FIFO carries the mark. -/
def Device.packetMark (d : Device) (n kind : Nat) : Device :=
  match (d.sfSt n).getLast? with
  | some p => d.setSf n ((d.sfSt n).dropLast ++ [{ p with kind := p.kind % 16 + (if kind = 2 then 16 else 32) }])
  | none => d
/-- A word stands in its array with flipped bits, for its reader to find: samples of a ring count as invalid, and a packet carries its mark. -/
def Device.plant (d : Device) (arr loc kind : Nat) (quiet : Bool) : Device :=
  match arr with
  | 5 => let d1 := d.memMark 5 loc kind quiet; if kind = 2 then d1.sampleKill loc else d1
  | 7 => d.packetMark loc kind
  | _ => d.memMark arr loc kind quiet
/-- The injected pattern stands in a word. A double-bit flip in control state, a cache or a table is a fatal error (R465). -/
def Device.injectAt (d : Device) (arr loc kind : Nat) (quiet : Bool) : Device :=
  if kind = 0 then d
  else if kind = 2 ∧ (arr = 2 ∨ arr = 11 ∨ arr = 12) then
    ((d.plant arr loc 2 quiet).memUe arr 0 (Config.memIdx arr loc) quiet).memFatal arr 0 (Config.memIdx arr loc)
  else d.plant arr loc kind quiet
/-- An armed injection meets the first word of its array that a command has written. Which word of a record is written first is left open (free
value, log entry 29). -/
def Device.inject (d : Device) (old : Device) : Device :=
  let arr := d.f MEM_INJ.ARRAY
  match written old d arr with
  | [] => d
  | first :: _ =>
    let loc := if arr = 0 then first + (Config.freeWord (d.free + 1)).toNat % 16 else first
    let d1 := (d.setf MEM_INJ.ARM 0).count MEM_INJ_HITS
    let d2 := (d1.wr MEM_LAST_INJ 0 (memWhere arr (d.memBank arr loc))).wr MEM_LAST_INJ_IDX 0 (Config.memIdx arr loc)
    ({ d2 with free := d2.free + 2 }).injectAt arr loc (d.flipKind arr) (d.fb MEM_INJ.NOCOUNT)
/-- Words that have been written anew are clean: those of Table 17.1's arrays that a command is seen to write whole, and those noted so. -/
def Device.memRewritten (d : Device) (old : Device) : Device :=
  let gone (k : Nat) : Bool := ([0, 1, 4, 5].contains (k % 32) && (written old d (k % 32)).contains (k / 32)) || d.noted.contains (k, 1)
  d.setMem { d.mem with bad := d.mem.bad.filter (fun b => !gone b.1) }
/-- A key slot's or key group's word that is lost has been read: the stored bank loses its commit, and the group is emptied (Table 17.1, 0x0A). -/
def Device.keyLost (d : Device) (loc : Nat) : Device :=
  let k : Key := if keyLoc 0 ≤ loc then { d.key with groups := mdel d.key.groups (loc - keyLoc 0) }
                 else { d.key with slots := mset d.key.slots loc (d.root loc) }
  (d.setKey k).memClean 10 loc
/-- A marked word has been read. -/
def Device.memMet (d : Device) (old : Device) (k : Nat) : Device :=
  let arr := k % 32
  let loc := k / 32
  let lost := d.badAt arr loc = 2
  let d1 := d.memRead arr loc (old.memBank arr loc)
  if lost ∧ arr = 10 then d1.keyLost loc else if lost ∧ isDdr arr then d1.osmHit [loc] else d1
/-- The marked words that the command has read: those noted; bursts that it has written in part, which are read to be merged; and the key slots
where it was one of the key store. -/
def Device.memReads (d : Device) (old : Device) : List Nat :=
  let slots := !(decide (old.key = d.key) && decide (old.blkRegs 0x18 = d.blkRegs 0x18))
  (d.mem.bad.filter (fun b => (mget old.mem.bad b.1).isSome &&
    (d.noted.contains (b.1, 2) || (isDdr (b.1 % 32) && d.noted.contains (b.1, 0)) || (slots && decide (b.1 % 32 = 10 ∧ b.1 / 32 < keyLoc 0))))).map (·.1)
/-- An entry that the machine works from: enabled, or, where its format has no enable, not all zero. -/
def Device.entLive (d : Device) (t pos idx : Nat) : Bool :=
  let e := d.ent t pos idx
  match t with
  | 0x02 => d.heatOn pos
  | 0x05 | 0x0C => bit (wd e 5) 31
  | 0x18 => lkEn e
  | 0x01 | 0x06 | 0x08 | 0x09 | 0x11 | 0x12 | 0x14 | 0x15 | 0x16 | 0x1A => bit (wd e 0) 31
  | 0x03 => if stIs e then stEn e else e.any (· ≠ 0#32)
  | _ => e.any (· ≠ 0#32)
/-- A word of the tables, or of kernel state, that is in use. -/
def Device.tabLive (d : Device) (loc : Nat) : Bool :=
  if 2 ^ 60 ≤ loc then (mget d.pac.incoming (loc - 2 ^ 60)).isSome
  else
    let t := loc / 4294967296 % 256
    let a := loc % 4294967296 * 8
    let n := tabBytes t
    (List.range ((a + 7) / n + 1 - a / n)).any (fun i => d.entLive t (a / n + i) (loc / 4294967296 / 256))
/-- Control state, caches, and tables and kernel state in use are read by every command (log entry 52). A lost cache line is fetched again if it is
clean, which a free value tells; the others are fatal (Table 17.1, 0x02, 0x0B, 0x0C). -/
def Device.memUse (d : Device) (k : Nat) : Device :=
  let arr := k % 32
  let loc := k / 32
  if d.pwr.mode = .hold ∨ !(arr = 2 || arr = 11 || (arr = 12 && d.tabLive loc)) then d
  else
    let lost := d.badAt arr loc = 2
    let d1 := d.memRead arr loc 0
    if !lost then d1
    else if arr = 2 ∧ (Config.freeWord d1.free).toNat % 2 = 0 then { d1.memClean 2 loc with free := d1.free + 1 }
    else d1.memFatal arr 0 (Config.memIdx arr loc)
/-- What memory integrity adds to any command: the marked words that it has met are read, rewritten words are clean, and an armed injection
fires. -/
def Device.memPost (d : Device) (old : Device) : Device :=
  let d1 := if d.mem.bad.isEmpty then d
    else
      let x := (d.memReads old).foldl (fun (x : Device) k => x.memMet old k) d
      let y := (x.mem.bad.filter (fun b => (mget old.mem.bad b.1).isSome)).foldl (fun (x : Device) b => x.memUse b.1) x
      y.memRewritten old
  let d2 := if old.injArmed && d1.injArmed then d1.inject old else d1
  if d2.noted.isEmpty then d2 else { d2 with noted := [] }

/-! Readers. Each acts before the command that reads. -/


/-- The rings' marked words are read by a task that computes from samples (0x05), and the monitor's region by the monitor (R163, R459). -/
def Device.preCommit (d : Device) (inst : Nat) : Device :=
  if d.mem.bad.isEmpty then d
  else
    let k := ieCode (d.instE inst)
    if k = kVPMU ∨ k = kLPMU ∨ k = kSSODET then
      (d.mem.bad.filter (fun b => decide (b.1 % 32 = 5))).foldl (fun x b => x.memRead 5 (b.1 / 32) 0) d
    else if k = kOSCMON then
      let met := d.mem.bad.filter (fun b => isDdr (b.1 % 32) && d.inOsmRegion (b.1 / 32))
      (met.foldl (fun x b => x.memRead (b.1 % 32) (b.1 / 32) 0) d).osmHit ((met.filter (fun b => decide (b.2.kind = 2))).map (fun b => b.1 / 32))
    else d
/-- A buffered alarm record that is lost is dropped and counted as R246 says (0x08): a LOSS record stands ahead of the next record, with what had
been dropped behind the buffer at its end. -/
def Device.preAlarm (d : Device) : Device :=
  if d.mem.bad.isEmpty then d
  else
    let a := d.alm
    let lost (r : List Word) : Bool := decide (d.badAt 8 (almLoc r) = 2)
    let d1 := a.buf.foldl (fun x r => x.memRead 8 (almLoc r) 0) d
    if !a.buf.any lost then d1
    else
      let one (x : Device) (r : List Word) : Device :=
        if lost r then x.almDrop else let y := x.almLoss; y.setAlm { y.alm with buf := y.alm.buf ++ [r] }
      let d2 := a.buf.foldl one (d1.setAlm { d1.alm with buf := [], lost := 0, lossEp := false })
      (d2.setAlm { d2.alm with lost := d2.alm.lost + a.lost, lossEp := d2.alm.lossEp || a.lossEp }).almLoss.almLevel
/-- A buffered interval record that is lost is dropped and counted as R309 says (0x08). -/
def Device.preInterval (d : Device) : Device :=
  if d.mem.bad.isEmpty then d
  else
    let lost := d.nrg.buf.filter (fun r => decide (d.badAt 8 (nrgLoc r) = 2))
    let d1 := d.nrg.buf.foldl (fun x r => x.memRead 8 (nrgLoc r) 0) d
    lost.foldl (fun x r => x.ivDrop (bx (wd r 0) 31 23)) (d1.setNrg { d1.nrg with buf := d1.nrg.buf.filter (fun r => !lost.contains r) })
/-- A TABLE_READ that touches a poisoned word is a fatal error (R457, 0x0C). -/
def Device.preTableRead (d : Device) (ch : Nat) : Device :=
  if d.mem.bad.isEmpty then d
  else match d.xfer (ch % 32) 2 with
    | none => d
    | some x =>
      let t := dTable x.words
      let a := bx (wd x.words 2) 23 0 * tabBytes t
      let n := bx (wd x.words 3) 23 0 * tabBytes t
      let tt := t + 256 * bx (wd x.words 1) 9 0
      let ws := (List.range ((a + n + 7) / 8 - a / 8)).map (fun i => tabWordLoc tt (a / 8 + i))
      let d1 := (ws.filter (fun w => decide (d.badAt 12 w = 1))).foldl (fun x w => x.memRead 12 w 0) d
      match ws.find? (fun w => decide (d.badAt 12 w = 2)) with
      | some w => (d1.memRead 12 w 0).memFatal 12 0 (Config.memIdx 12 w)
      | none => d1

/-! Commands. -/

/-- Ticks of a sweep period (Table 17.2). -/
def Device.sweepTicks (d : Device) : Nat := max 1 (d.f MEM_CFG.PERIOD_H) * 3600 * tkPerSec
/-- How far along its array a word or burst stands. -/
def sweepPlace (bank : Nat) (idx : Word) : Nat := bank * 4294967296 + idx.toNat
/-- SCRUB_READ: a word or burst as the scrubber finds it: 0 clean, 1 correctable, 2 uncorrectable. `loc` is its place as the model names it. A sweep
goes through an array in ascending address, and repeats a read at most, so there is no read behind its place (R463). An uncorrectable word stays as
found and, with no reader waiting, counts toward no bank group (R460). A burst of the OSM region stops the monitor, and samples of the capture region
become NaN (R459). -/
def scrubRead (arr bank : Nat) (idx : Word) (kind loc : Nat) (da : Device) : Device :=
  if !da.alive || !da.fb MEM_CFG.SCRUB_EN || decide (17 < arr) || decide (13 ≤ arr ∧ arr ≤ 15) ||
      decide (sweepPlace bank idx < mgetD da.mem.sweepPos arr 0) then da
  else
    let d := da.setMem { da.mem with sweepPos := mset da.mem.sweepPos arr (sweepPlace bank idx) }
    let k := max kind (d.badAt arr loc)
    if k = 0 then d
    else if k = 1 then (d.memClean arr loc).memCe arr bank idx
    else
      let quiet := (mgetD d.mem.bad (badKey arr loc) ⟨0, false⟩).quiet
      if !isDdr arr then (d.memUe arr bank idx true).plant arr loc 2 quiet
      else
        let d1 := (d.burstUe arr bank loc idx true).memMark arr loc 2 quiet
        if d1.inOsmRegion loc then d1.osmHit [loc] else capBurst loc d1
/-- SCRUB_PERIOD_END: a sweep period of PERIOD_H hours has passed. `done` tells the sweep of all arrays complete, and the next begins; else it is late
and goes on from where it is, in array `arr` (R463). -/
def scrubPeriodEnd (done : Bool) (arr : Nat) (d : Device) : Device :=
  if !d.alive || !d.fb MEM_CFG.SCRUB_EN || decide (d.tk.ticks < d.mem.sweepAt + d.sweepTicks) then d
  else
    let d1 := d.setMem { d.mem with sweepAt := d.mem.sweepAt + d.sweepTicks, sweepPos := if done then [] else d.mem.sweepPos }
    if done then d1.count MEM_SCRUB_PASSES else (d1.count MEM_SCRUB_LATE).raise EV_MEM_SCRUB_LATE [arr]
/-- MERGE_ENTRY_TIMEOUT: the oldest entry open for 64 cycles of CLK_FAB, 16 ticks; `ue` tells that its read is uncorrectable, which leaves the word
poisoned (R457). -/
def mergeTimeout (ue : Bool) (d : Device) : Device :=
  match d.mem.merge.head? with
  | none => d
  | some e =>
    if d.tk.ticks < e.since + 16 then d
    else
      let d1 := d.mergeFlush e
      let loc := tabWordLoc e.bank e.word
      if ue && decide (d.badAt e.arr loc ≠ 2) then (d1.memUe e.arr e.bank (Config.memIdx e.arr loc) false).memMark e.arr loc 2 false else d1
/-- MEM_INJECT_ARM: a write to MEM_INJ. -/
def memInjWrite (v : Word) (d : Device) : Device :=
  let arm := d.fb MEM_INJ.ARM || bit v 31
  d.wr MEM_INJ 0 ((v &&& 0x4000001F#32) ||| (if arm then 0x80000000#32 else 0#32))
/-- MEM_GROUP_CLEAR: a write to MEM_GRP_CLR (R461). -/
def memGrpClear (v : Word) (d : Device) : Device :=
  let g := bx v 3 0
  if !bit v 31 then d
  else if 12 ≤ g ∨ !d.grpFailed g then d.err MEM_STAT.ERR MEM_STAT.ECODE 1
  else
    let d1 := d.setMem { d.mem with errs := mdel d.mem.errs g }
    (d1.wr MEM_STAT 0 (bset (d1.rg MEM_STAT 0) g g 0)).clusterRefresh g

end Sys2Proof.Machine
end

