-- ==== Sys2Proof/Machine/Power.lean ====
section
/-!
DEFINITION. Modes, power and health (spec/19): RESET, WARMUP and the GO command, HOLD and the save area, restarts, the loss and return of main
power, and the health monitors (R486 to R501).
-/
namespace Sys2Proof.Machine

/-! RESET (R487, R489, R498). -/

/-- The generation of the next save. -/
def Device.saveGen (d : Device) : Nat := match d.pwr.save with | some s => s.gen + 1 | none => 0
/-- The save of a HOLD that ends early never got its commit word. -/
def Device.saveCut (d : Device) : Device :=
  if d.pwr.mode = .hold ∧ d.pwr.saveEnded = none then
    let img : SaveImage := ⟨saveMagic, d.saveGen, d.pwr.holdFatal, d.pwr.holdAt.getD 0, saveLength, [], [], [], .other⟩
    ((d.setPwr { d.pwr with save := some img }).setf PWR_SAVE.OK 0).count PWR_SAVE_FAIL
  else d
/-- PPS_OUT and the modulator clocks are driven low (Table 19.6). -/
def Device.pinsLow (d : Device) : Device :=
  let d1 := d.emit (.pin 3 0 false)
  (List.range 8).foldl (fun x g => x.emit (.pin 4 g false)) d1
/-- RELAY_BATON_OUT is high-impedance (Table 19.6). -/
def Device.batonOff (d : Device) : Device := ({ d with rly := { d.rly with level := false } }).emit (.pinOff 2 0)
/-- Without power PPS_OUT and the modulator clocks are high-impedance too. -/
def Device.pinsOff (d : Device) : Device :=
  let d1 := d.emit (.pinOff 3 0)
  (List.range 8).foldl (fun x g => x.emit (.pinOff 4 g)) d1
/-- Enter RESET: drivers and transmitters off, links down; `pins` is what the other pins do. -/
def Device.intoReset (pins : Device → Device) (d : Device) : Device :=
  if d.pwr.mode = .reset then d
  else
    let d1 := pins ((((d.saveCut).stopToggle 4).driversOff).txStopAll).batonOff
    let d2 := (d1.setf RLY_STAT.HOLDER 0).hifReset
    d2.setMode .reset
def Device.toReset (d : Device) : Device := d.intoReset Device.pinsLow
/-- RESET_N_ASSERT. -/
def resetAssert (d : Device) : Device :=
  if !d.pwr.powered then d.setPwr { d.pwr with resetN := false }
  else
    let d1 := d.toReset
    d1.setPwr { d1.pwr with resetN := false, holdFatal := false, restartAt := none }

/-- Registers that live through RESET: the PWR counters (R500). -/
def pwrKept (m : NMap Word) : NMap Word := m.filter (fun e => decide (0x010080 ≤ e.1 ∧ e.1 < 0x0100A0))
/-- The device as WARMUP finds it: everything begins anew but what is kept outside the SRAM (R437, R490, R492, R500), the VBAT array and the pins. -/
def Device.fresh (d : Device) : Device :=
  let r := Device.reset
  let d1 : Device :=
    { r with
      regs := mset r.regs 1 ((pwrKept (d.blkRegs 1)).foldl (fun m e => mset m e.1 e.2) (mgetD r.regs 1 [])),
      scb := { r.scb with next := d.scb.next, flash := d.scb.flash, wpos := d.scb.wpos },
      key := { r.key with slots := d.key.slots, tampered := d.key.tampered, tamperOff := d.key.tamperOff, vbat := d.key.vbat },
      pwr := { r.pwr with mode := d.pwr.mode, powered := d.pwr.powered, resetN := d.pwr.resetN, pfw := d.pwr.pfw, save := d.pwr.save },
      out := d.out, free := d.free }
  (((d1.setf PWR_STAT.FATAL (d.f PWR_STAT.FATAL)).setf PWR_STAT.FCAUSE (d.f PWR_STAT.FCAUSE)).setf PWR_SAVE.OK (d.f PWR_SAVE.OK)).setf PWR_SAVE.US
    (d.f PWR_SAVE.US)
/-- WARMUP reports a zeroisation that has not been reported yet (R427). -/
def Device.tamperReport (d : Device) : Device :=
  match d.key.tamperOff with
  | some p => (d.setKey { d.key with tamperOff := none }).raise EV_KEY_TAMPER [p]
  | none => d
/-- RELAY_BATON_OUT is driven again, low until the device toggles it. -/
def Device.toWarmup (d : Device) : Device := (d.fresh.setMode .warmup).tamperReport.emit (.pin 2 0 false)
/-- WARMUP_ENTRY: RESET_N and PFW_N have been high for 1 ms. After a fatal error the device waits for its restart, or for RESET_N (DEDUCED, log entry
54); a restart that found PFW_N low comes now. -/
def warmupEntry (d : Device) : Device :=
  if !d.pwr.powered || d.pwr.mode ≠ .reset || d.pwr.holdFatal then d
  else
    let d1 := (d.setPwr { d.pwr with resetN := true, pfw := true }).toWarmup
    if d.pwr.restartAt.isSome then d1.count PWR_RESTARTS else d1
/-- AUTO_RESTART_EXPIRY: WARMUP follows while RESET_N and PFW_N are high, else as soon as they are (R487, R494). -/
def autoRestart (d : Device) : Device :=
  if !d.pwr.powered || d.pwr.mode ≠ .reset || d.pwr.restartAt.isNone then d
  else if d.pwr.resetN && d.pwr.pfw then (d.toWarmup).count PWR_RESTARTS
  else d.setPwr { d.pwr with holdFatal := false }

/-! WARMUP (R490 to R492). -/

/-- The nominal value of the rail a voltage monitor watches, in mV (Table 20.5). -/
def railMv (i : Nat) : Option Nat :=
  if i < 8 then some 750 else if i < 10 then some 800 else if i < 12 then some 900 else if i < 14 then some 1200 else if i < 18 then some 1100
  else if i < 20 then some 1800 else if i < 22 then some 3300 else if i = 22 then some 3000 else none
/-- The firmware sets each voltage monitor to its rail's nominal value ±5 % (R495); the spec gives monitor 23 no rail (free value). -/
def Device.railThr (d : Device) : Device :=
  let d1 := (List.range 24).foldl (fun x i =>
    match railMv i with
    | some v => x.wr HLT_THR (256 + i) (w32 ((v * 105 + 99) / 100 * 65536 + v * 95 / 100))
    | none => x.wr HLT_THR (256 + i) (Config.freeWord x.free)) d
  { d1 with free := d1.free + 1 }
/-- Step 7: the save area is read and checked; a good save is taken once, and its commit word becomes 0 (R437, R492). -/
def Device.saveTake (d : Device) : Device :=
  match d.pwr.save with
  | none => (d.setf PWR_SAVE.FOUND 0).raise EV_PWR_SAVE [0]
  | some s =>
    let taken := some { s with commit := .zero }
    if s.commit = .zero then (d.setf PWR_SAVE.FOUND 0).raise EV_PWR_SAVE [0]
    else if s.good then
      let rs := s.records.filter (fun r => !(mvals d.scb.flash).any (fun x => decide (x.seq = r.seq)))
      let d1 := rs.foldl (fun x r => x.scbProgram { r with restored := true }) d
      ((d1.setPwr { d1.pwr with save := taken, waiting := some s }).setf PWR_SAVE.FOUND 1).raise EV_PWR_SAVE [1]
    else
      let d1 := (d.setPwr { d.pwr with save := taken, waiting := some s }).setf PWR_SAVE.FOUND 0
      (d1.raise EV_PWR_SAVE [0]).raise EV_SCB_LOST [4294967295]
/-- WARMUP_COMPLETE: the firmware has finished with a kernel library version and a privilege token; `fail` is the cause of a failed step. -/
def warmupComplete (fail : Nat) (libVer : Word) (token : Nat) (d : Device) : Device :=
  if d.pwr.mode ≠ .warmup ∨ d.pwr.wuDone then d
  else if fail = 1 ∨ fail = 3 ∨ fail = 4 then d.fatalError fail 0
  else
    let d1 := ((d.wr PAC_LIB_VER 0 libVer).setf SCB_STAT.NOR_OK 1).railThr.saveTake
    let d2 := d1.setKey { d1.key with token := some (token % 18446744073709551616) }
    (d2.setPwr { d2.pwr with wuDone := true }).setf PWR_STAT.WU_DONE 1
def Device.pwrErr (d : Device) (code : Nat) : Device := d.err PWR_STAT.ERR PWR_STAT.ECODE code
/-- A GO may be acted on. -/
def Device.goOk (d : Device) : Bool := d.pwr.mode = .warmup && d.pwr.wuDone
/-- PWR_GO_RACE. -/
def pwrGoRace (d : Device) : Device := if d.goOk then (d.setf PWR_CTL.TARGET 0).goRace else d.pwrErr 1
/-- PWR_GO_RERUN: the energy state of a save is discarded (R492). -/
def pwrGoRerun (d : Device) : Device :=
  if d.goOk then ((d.setPwr { d.pwr with waiting := none, watchAt := none }).setf PWR_CTL.TARGET 1).setMode .rerun else d.pwrErr 1
/-- HOLD after a fatal error ends in a RESET that the device leaves by itself, where AUTO_RESTART is set (R494). -/
def Device.restartOf (d : Device) : Option Time :=
  if d.pwr.mode = .hold && d.pwr.holdFatal && d.fb PWR_CFG.AUTO_RESTART then some d.tk.now else none
/-- PWR_RESET_KEY: a key in RST_KEY. With no restart to wait for, RESET is left as ever (R487). -/
def pwrResetKey (key : Nat) (d : Device) : Device :=
  if key % 65536 = 0xA5C3 then
    if d.pwr.mode = .reset then d
    else
      let d1 := d.toReset
      d1.setPwr { d1.pwr with restartAt := d.restartOf, holdFatal := d.restartOf.isSome }
  else if key % 65536 = 0 then d else d.pwrErr 2
/-- A write to PWR_CTL: one with a wrong key is ignored whole (R489); else TARGET is stored whether or not a GO beside it is acted on (R5). -/
def pwrCtlWrite (v : Word) (d : Device) : Device :=
  if bx v 15 0 ≠ 0 then pwrResetKey (bx v 15 0) d
  else
    let d1 := d.setf PWR_CTL.TARGET (b2n (bit v 30))
    if bit v 31 then (if bit v 30 then pwrGoRerun d1 else pwrGoRace d1) else d1
/-- BD_LOCK is set at the exit from WARMUP (Table 19.3). -/
def Device.warmupExit (d old : Device) : Device :=
  if old.pwr.mode = .warmup ∧ d.pwr.mode ≠ .warmup ∧ d.pwr.mode ≠ .reset then d.setf KEY_STAT.BD_LOCK 1 else d

/-! HOLD (R492 to R494). -/

/-- PFW_N_FALL. -/
def pfwFall (d : Device) : Device :=
  let d1 := d.setPwr { d.pwr with pfw := false }
  if d.alive then d1.enterHold false else d1
/-- SAVE_WRITE_DONE: the write and its read-back check have ended after `us` microseconds. A HOLD that finds the energy state of an earlier save still
waiting for RACE entry saves that state on (R313). -/
def saveDone (ok : Bool) (us : Nat) (d : Device) : Device :=
  if d.pwr.mode ≠ .hold ∨ d.pwr.saveEnded ≠ none then d
  else
    let pulses := d.nrg.outputs.map (fun p => (p.1, p.2.pend))
    let nrg := match d.pwr.waiting with
      | some w => if w.good then (w.points, w.pulses) else (d.nrg.points, pulses)
      | none => (d.nrg.points, pulses)
    let img : SaveImage := ⟨saveMagic, d.saveGen, d.pwr.holdFatal, d.pwr.holdAt.getD 0, saveLength, nrg.1, nrg.2, d.scb.buf, if ok then .crc else .other⟩
    let d1 := ((d.setPwr { d.pwr with save := some img, saveEnded := some d.tk.now }).setf PWR_SAVE.OK (b2n ok)).setf PWR_SAVE.US (min 4095 us)
    if ok then d1 else d1.count PWR_SAVE_FAIL
/-- HOLD_END: 10 ms after the save, with PFW_N high or after a fatal error; the host's AUTO_RESTART then counts (R493, R494). -/
def holdEnd (d : Device) : Device :=
  match d.pwr.saveEnded with
  | none => d
  | some t =>
    if d.pwr.mode ≠ .hold ∨ d.tk.now < t + 10 * Time.msU then d
    else
      let d1 := d.toReset
      d1.setPwr { d1.pwr with pfw := d1.pwr.pfw || !d1.pwr.holdFatal, restartAt := d.restartOf }
/-- WATCHDOG_EXPIRY. -/
def watchdogExpiry (d : Device) : Device := d.fatalError 6 0
/-- CLOCK_LOSS. -/
def clockLoss (d : Device) : Device := d.fatalError 1 0
/-- MAIN_POWER_LOSS (R418, R498): a key WRITE in progress leaves its bank uncommitted. -/
def powerLoss (d : Device) : Device :=
  if !d.pwr.powered then d
  else
    let cut (s : RootSlot) (b : Bool) : RootSlot :=
      if b then { s with b := { s.b with commit := bankCrc s.b ^^^ 1#32 } } else { s with a := { s.a with commit := bankCrc s.a ^^^ 1#32 } }
    let slots := match d.key.op with
      | some (.write s b) => mset d.key.slots s (cut (d.root s) b)
      | _ => d.key.slots
    let keep := if d.key.vbat then slots else []
    let d1 := if d.pwr.mode = .reset then d.pinsOff else d.intoReset Device.pinsOff
    (d1.setPwr { d1.pwr with powered := false, resetN := false, pfw := false, restartAt := none, holdFatal := false }).setKey
      { d1.key with slots := keep, tampered := d1.key.tampered && d1.key.vbat, tamperOff := if d1.key.vbat then d1.key.tamperOff else none, op := none }
/-- MAIN_POWER_UP: the device comes up in RESET; what is cleared only at power-up is cleared (R500). -/
def powerUp (d : Device) : Device :=
  if d.pwr.powered then d
  else
    let d1 := d.fresh
    let d2 : Device := { d1 with regs := hltThrInit }
    (d2.setPwr { d2.pwr with mode := .reset, powered := true }).pinsLow

/-! Health monitors (R495 to R497). -/

/-- A monitor's number: TYPE * 256 + INDEX, of the 48 in the order of a snapshot. -/
def monOf (k : Nat) : Nat := if k < 16 then k else if k < 40 then 256 + (k - 16) else 512 + (k - 40)
/-- Monitors in the order of a snapshot (R497). -/
def monitors : List Nat := (List.range 48).map monOf
/-- A reading as its type codes it: temperatures are signed. -/
def monVal (m v : Nat) : Int := if m < 256 then s16 v else ((v % 65536 : Nat) : Int)
def monBack (m : Nat) : Int := if m < 256 then 32 else if m < 512 then 10 else 5
def monEvent (m : Nat) : EvId := if m < 256 then EV_HLT_TEMP else if m < 512 then EV_HLT_VOLT else EV_HLT_PROC
/-- One monitor's reading. -/
def Device.monSample (d : Device) (m v : Nat) : Device :=
  let x := monVal m v
  let lo := monVal m (d.f HLT_THR.LO m)
  let hi := monVal m (d.f HLT_THR.HI m)
  let was := mgetD d.pwr.outside m false
  let outNow := decide (x < lo ∨ hi < x)
  let inside := decide (lo + monBack m ≤ x ∧ x ≤ hi - monBack m)
  let d1 := d.setPwr { d.pwr with reading := mset d.pwr.reading m (v % 65536), outside := mset d.pwr.outside m (if was then !inside else outNow) }
  if outNow && !was && !d1.muted (monEvent m) then (d1.raise (monEvent m) [m % 256, v % 65536]).count HLT_EVENTS else d1
/-- HEALTH_SAMPLE: the 48 readings, temperatures first, then voltages, then process monitors. -/
def healthSample (readings : List Nat) (d : Device) : Device :=
  let d1 := (monitors.zip readings).foldl (fun x p => x.monSample p.1 p.2) d
  let hot := (List.range 16).filter (fun i => decide (monVal i (d1.f HLT_TRIP.TRIP i) ≤ monVal i (mgetD d1.pwr.reading i 0)) && decide (i < readings.length))
  match hot with
  | i :: _ => (hot.foldl (fun x k => x.raise EV_HLT_TRIP [k, mgetD d1.pwr.reading k 0]) d1).fatalError 5 i
  | [] => d1
/-- HEALTH_SNAPSHOT_REQUEST. -/
def snapRequest (d : Device) : Device :=
  match slotRequest d.pwr.slot with
  | some s => d.setPwr { d.pwr with slot := s }
  | none => d.pwrErr 3
/-- HEALTH_SNAPSHOT_READY. -/
def snapReady (d : Device) : Device :=
  if d.pwr.slot.st = .busy then
    d.setPwr { d.pwr with slot := slotReady d.pwr.slot (monitors.map (fun m => w32 (mgetD d.pwr.reading m 0))) }
  else d
/-- HEALTH_SNAPSHOT_RELEASE. -/
def snapRelease (v : Word) (d : Device) : Device :=
  match slotRelease d.pwr.slot (bx v 15 0) with
  | some s => d.setPwr { d.pwr with slot := s }
  | none => d.count HIF_SLOT_REL_BAD

end Sys2Proof.Machine
end

