-- ==== Sys2Proof/Machine/Radio.lean ====
section
/-!
DEFINITION. The Cross-Country radio (spec/18): beacons, listen instants and guards, wake sequences, acknowledgements and retries, the dwell
limit, received frames, and the receive queue (R469 to R485). Times are in 2^-32 ns; `busy` operands are the busy assessments of a clear-channel
assessment.
-/
namespace Sys2Proof.Machine

def Device.setXcr (d : Device) (x : Xcr) : Device := { d with xcr := x }
def Device.xcrErr (d : Device) (code : Nat) : Device := d.err XCR_STAT.ERR XCR_STAT.ECODE code
/-- The MAC runs (R482). -/
def Device.radioOn (d : Device) : Bool := d.racing && d.fb XCR_CFG.EN
/-- Channels in the list. -/
def Device.nch (d : Device) : Nat := d.f XCR_CFG.NCH_M1 + 1
/-- The time of one octet on the air. -/
def Device.octetT (d : Device) : Time := (if d.f XCR_CFG.RATE = 1 then 80000 else 160000) * Time.nsU
/-- The airtime of a frame of `n` octets, its FCS included (log entry 49). -/
def Device.airtime (d : Device) (n : Nat) : Time := (Config.xcrHead.toNat + n) * d.octetT
def Device.wakeT (d : Device) : Time := max 1 (d.f XCR_TIMING.WAKE_MS) * Time.msU
def Device.bcnT (d : Device) : Time := max 1 (d.f XCR_TIMING.BCN_MS) * Time.msU
def Device.guardBase (d : Device) : Time := d.f XCR_GUARD.GUARD_BASE_US * Time.usU
def Device.chkT (d : Device) : Time := max 1 (d.f XCR_GUARD.CHK_S) * Time.secU

/-! Dwell (R479). -/

def Device.winT (d : Device) : Time := max 1 (d.f XCR_DWELL.WIN_S) * Time.secU
/-- A channel's airtime over the window that ends at `t`: of a transmission that began before it, what lies within. -/
def Device.airUsed (d : Device) (ch : Nat) (t : Time) : Time :=
  ((mgetD d.xcr.air ch []).map (fun a => a.2 - (t - (a.1 + d.winT)))).sum
/-- A transmission of airtime `n` at `t` stays within the limit. -/
def Device.fits (d : Device) (ch : Nat) (t n : Time) : Bool := decide (d.airUsed ch t + n ≤ d.f XCR_DWELL.DWELL_MS * Time.msU)
def Device.airAdd (d : Device) (ch : Nat) (t n : Time) : Device :=
  let old := (mgetD d.xcr.air ch []).filter (fun a => decide (d.now < a.1 + a.2 + d.winT))
  d.setXcr { d.xcr with air := mset d.xcr.air ch (old ++ [(t, n)]) }
/-- A transmission is deferred. -/
def Device.defer (d : Device) (ch : Nat) : Device :=
  let d1 := (d.count XCR_DWELL_DEFER).raiseSec (mget d.xcr.dwellSec ch) EV_XCR_DWELL [ch, d.airUsed ch d.now / Time.msU]
  d1.setXcr { d1.xcr with dwellSec := mset d1.xcr.dwellSec ch d1.sec }

/-! Frames (R471). -/

/-- A frame with its FCS. -/
def Device.xcrFrame (d : Device) (typ seq dst : Nat) (ack : Bool) (payload : List Byte) : List Byte :=
  let h : List Byte := [BitVec.ofNat 8 (typ % 16 * 16 + 4 + b2n ack * 2), BitVec.ofNat 8 seq, BitVec.ofNat 8 dst, BitVec.ofNat 8 (dst / 256 % 8),
    0xFF#8, 0x07#8, BitVec.ofNat 8 (d.f XCR_CFG.PAN), 0#8]
  let b := h ++ payload
  b ++ le32 (w32 (crc32 b))
/-- The transceiver is set to a channel: its VALUE is written to its register CH_ADDR on a change (R469). -/
def Device.tune (d : Device) (ch : Nat) : Device :=
  if d.xcr.tuned = some ch then d
  else (d.setXcr { d.xcr with tuned := some ch }).emit (.xcvrWrite (max 1 (d.f XCR_XCVR.SPI_DIV)) (d.f XCR_XCVR.CH_ADDR) (d.f XCR_CH.VALUE ch))
/-- Octets go out on a channel. -/
def Device.onAir (d : Device) (ch : Nat) (b : List Byte) : Device := (d.tune ch).emit (.radio ch b)
/-- After its own transmissions the coordinator receives on the channel of its latest beacon (R470). -/
def Device.tuneBack (d : Device) : Device := d.tune d.xcr.chan
/-- A frame goes out on a channel at `t`. -/
def Device.xmit (d : Device) (ch : Nat) (t : Time) (b : List Byte) : Device :=
  ((d.airAdd ch t (d.airtime b.length)).count XCR_TX_FRAMES).onAir ch b
/-- The next SEQ of the coordinator. -/
def Device.nextSeq (d : Device) : Nat × Device := (d.xcr.seq, d.setXcr { d.xcr with seq := (d.xcr.seq + 1) % 256 })

/-! Beacons (R470, R473, R479). -/

def Device.beaconCh (d : Device) (k : Nat) : Nat := k % 65536 % d.nch
/-- The beacon of interval `k` is tried: sent, or deferred when the channel's airtime does not allow it. -/
def Device.beaconTry (d : Device) (k : Nat) (first : Bool) : Device :=
  let ch := d.beaconCh k
  let s := d.nextSeq
  let sfd := d.now + (Config.xcrHead.toNat - 2) * d.octetT
  let b := s.2.xcrFrame 0 s.1 0x7FE false (leBytes [w32 (Time.secOf sfd), w32 (Time.nsOf sfd), w32 (k % 65536)])
  if d.fits ch d.now (d.airtime b.length) then
    let d1 := (s.2.xmit ch d.now b).count XCR_BCN_SENT
    d1.setXcr { d1.xcr with bcnDue := none, chan := ch }
  else
    let d1 := if first then d.defer ch else d
    d1.setXcr { d1.xcr with bcnDue := some k }
/-- A deferred beacon whose time has passed is dropped. -/
def Device.beaconDrop (d : Device) (k : Nat) : Device :=
  if k * d.bcnT + d.guardBase < d.now then (d.setXcr { d.xcr with bcnDue := none }).count XCR_BCN_SKIP else d
/-- A beacon instant is now, within the tick of device time that reaches it, and its beacon has not been handled. -/
def Device.beaconNow (d : Device) : Bool :=
  let k := d.now / d.bcnT
  d.radioOn && decide (d.xcr.bcn ≠ some k) && decide (d.now < k * d.bcnT + d.tk.inc)
/-- A beacon is due: at its instant, or deferred and its channel's airtime now allows it. It goes before any other transmission (R479). -/
def Device.beaconFirst (d : Device) : Bool :=
  d.beaconNow || (match d.xcr.bcnDue with
    | some k => decide (d.now ≤ k * d.bcnT + d.guardBase) && d.fits (d.beaconCh k) d.now (d.airtime 24)
    | none => false)
/-- A beacon or an ACK is due, which go before the rest (R479). -/
def Device.ackFirst (d : Device) : Bool :=
  d.beaconFirst || d.xcr.acks.any (fun a => decide (a.due ≤ d.now ∧ d.now ≤ a.due + 2 * Time.msU) && d.fits d.xcr.chan d.now (d.airtime 12))
/-- BEACON_INSTANT: the instant of a beacon, a whole multiple of BCN_MS. -/
def beaconInstant (d : Device) : Device :=
  let k := d.now / d.bcnT
  if !d.beaconNow then d
  else
    let d1 := match d.xcr.bcnDue with
      | some _ => (d.setXcr { d.xcr with bcnDue := none }).count XCR_BCN_SKIP
      | none => d
    (d1.setXcr { d1.xcr with bcn := some k }).beaconTry k true

/-! Sensors (R473 to R475). -/

def xsInit (t : Time) : XSensor := ⟨.lost, none, none, 0, t⟩
def Device.sensEn (d : Device) (s : Nat) : Bool := d.fb XCR_SENS_CFG.EN s
def Device.sens (d : Device) (s : Nat) : XSensor := mgetD d.xcr.sens s ⟨.disabled, none, none, 0, 0⟩
def Device.setSens (d : Device) (s : Nat) (x : XSensor) : Device := d.setXcr { d.xcr with sens := mset d.xcr.sens s x }
def Device.phaseT (d : Device) (s : Nat) : Time := d.f XCR_SENS_CFG.PHASE_MS s * Time.msU
/-- The guard of a sensor for an instant (R474). -/
def Device.guardAt (d : Device) (s : Nat) (t : Time) : Time :=
  match (d.sens s).lastAt with
  | some l => d.guardBase + (t - l) * d.f XCR_SENS_CFG.DRIFT_PPM s / 1000000
  | none => d.guardBase
/-- The next listen instant of a sensor whose preamble can still begin, as (wake number, instant). -/
def Device.nextListen (d : Device) (s : Nat) : Option (Nat × Time) :=
  let w := d.wakeT
  let n0 := d.now / w
  (((List.range 4).map (fun i => (n0 + i, (n0 + i) * w + d.phaseT s))).find? (fun p => decide (d.now + d.guardAt s p.2 ≤ p.2))).bind (fun p =>
    if 2 * d.guardAt s p.2 < w then some p else none)
/-- How a sensor is addressed now: at its next suitable listen instant, or by a wake sequence. -/
def Device.xPlan (d : Device) (s : Nat) : XPhase :=
  if (d.sens s).st = .synced then (match d.nextListen s with | some p => .listen p.1 p.2 | none => .wake) else .wake

/-! The request in progress (R474 to R479). -/

/-- A request is finished with a RESULT. -/
def Device.reqEnd (d : Device) (result : Nat) : Device :=
  (((d.setXcr { d.xcr with req := none }).setf XCR_TX_STAT.BUSY 0).setf XCR_TX_STAT.DONE 1).setf XCR_TX_STAT.RESULT result
def Device.setReq (d : Device) (r : XReq) : Device := d.setXcr { d.xcr with req := some r }
/-- The length of a wake sequence's piece (R476). -/
def Device.pieceT (d : Device) : Time := (d.wakeT + d.f XCR_GUARD.LP_MARGIN_MS * Time.msU) / d.nch
/-- Plan a request anew; one whose pieces could never fit is refused (R477). -/
def Device.reqPlan (d : Device) (r : XReq) : Device :=
  match d.xPlan r.dst with
  | .wake => if d.f XCR_DWELL.DWELL_MS * Time.msU < d.pieceT then d.reqEnd 2 else d.setReq { r with phase := .wake }
  | p => d.setReq { r with phase := p }
/-- A request's sensor has become SYNCED or LOST: how it is addressed follows its state (R474, R476). -/
def Device.replan (d : Device) (s : Nat) : Device :=
  match d.xcr.req with
  | none => d
  | some r =>
    if r.dst ≠ s then d
    else match r.phase with
      | .wake | .listen _ _ => d.reqPlan r
      | _ => d
/-- A request's frame. -/
def Device.reqFrame (d : Device) (r : XReq) : List Byte := d.xcrFrame r.typ r.seq r.dst (r.ackReq && decide (r.dst < 1024)) r.payload
/-- The frame has been sent and ends at `t`. -/
def Device.reqSent (d : Device) (r : XReq) (t : Time) : Device :=
  if r.ackReq && decide (r.dst < 1024) then d.setReq { r with phase := .ack (t + 5 * Time.msU), deferred := false } else d.reqEnd 0
/-- A request is dropped after 8 busy assessments: RESULT has no code for it (free value). -/
def Device.ccaFail (d : Device) : Device :=
  let v := (Config.freeWord d.free).toNat % 4
  { (d.count XCR_CCA_FAIL).reqEnd v with free := d.free + 1 }
/-- A preamble of `2 * guard` and the frame on a channel. -/
def Device.guardedSend (d : Device) (ch : Nat) (t guard : Time) (b : List Byte) : Device :=
  let n := 2 * guard / d.octetT
  (((d.airAdd ch t (2 * guard)).onAir ch (List.replicate n 0x55#8)).xmit ch (t + 2 * guard) b).tuneBack
/-- Wake numbers' phases of the enabled sensors. -/
def Device.phases (d : Device) : List Nat :=
  ((List.range 1024).filter d.sensEn).foldl (fun l s => let p := d.f XCR_SENS_CFG.PHASE_MS s; if l.contains p then l else l ++ [p]) []
/-- The largest guard of the sensors that listen at a phase. -/
def Device.castGuard (d : Device) (p : Nat) (t : Time) : Time :=
  (((List.range 1024).filter (fun s => d.sensEn s && decide (d.f XCR_SENS_CFG.PHASE_MS s = p))).map (fun s => d.guardAt s t)).foldl max d.guardBase
/-- The phases at which the enabled sensors listen, in order. -/
def Device.castPhases (d : Device) : List Nat := d.phases.mergeSort (· ≤ ·)
/-- GO of XCR_TX_CMD, with the command's fields in `v` (R472, R474). -/
def txRequest (v : Word) (d : Device) : Device :=
  let typ := bx v 30 28
  let dst := bx v 26 16
  let len := bx v 6 0
  if d.fb XCR_TX_STAT.BUSY then d.xcrErr 3
  else if (typ ≠ 2 ∧ typ ≠ 4) ∨ len = 0 ∨ 115 < len ∨ (1024 ≤ dst ∧ dst ≠ 0x7FE) then d.xcrErr 2
  else if dst < 1024 ∧ !d.sensEn dst then (d.reqEnd 3)
  else
    let s := d.nextSeq
    let payload := (leBytes ((List.range 29).map (fun i => d.rg XCR_TXBUF i))).take len
    let d1 := (s.2.setf XCR_TX_STAT.BUSY 1).setf XCR_TX_STAT.SEQ s.1
    let r : XReq := ⟨typ, bit v 27, dst, s.1, payload, 0, .wake, false⟩
    if dst < 1024 then d1.reqPlan r
    else
      let ps := d1.castPhases
      if ps.isEmpty then d1.reqEnd 0 else d1.setReq { r with phase := .cast (d.now / d.wakeT + 1) ps }
/-- A write to XCR_TX_CMD. GO acts at once and reads 0 (DESIGN CHOICE, log entry 85). -/
def txCmdWrite (v : Word) (d : Device) : Device :=
  if bit v 31 && d.fb XCR_TX_STAT.BUSY then d.xcrErr 3
  else
    let d1 := d.wr XCR_TX_CMD 0 (v &&& 0x7FFF007F#32)
    if bit v 31 then txRequest v d1 else d1
/-- A transmission at a listen instant: `next` is what follows once it has been sent at its end. -/
def Device.listenTry (d : Device) (r : XReq) (n : Nat) (tL guard : Time) (busy : Nat) (next : Device → Time → Device) (again : Device → Device) : Device :=
  let ch := n % d.nch
  let b := d.reqFrame r
  if d.now + guard < tL then d
  else if tL < d.now then again d
  else if !d.fits ch d.now (2 * guard + d.airtime b.length) then again (if r.deferred then d else d.defer ch)
  else if 8 ≤ busy then d.ccaFail
  else next (d.guardedSend ch (tL - guard) guard b) (tL + guard + d.airtime b.length)
/-- XCR_LISTEN_SEND, behind beacons and ACKs that are due. A broadcast goes to the listen instants of one wake number: where one of them is missed, all
of a later wake number's (DEDUCED, log entry 99). -/
def listenSend (busy : Nat) (d : Device) : Device :=
  if !d.radioOn || d.ackFirst then d
  else match d.xcr.req with
    | none => d
    | some r => match r.phase with
      | .listen n tL =>
        if (d.sens r.dst).st ≠ .synced then d.reqPlan r
        else d.listenTry r n tL (d.guardAt r.dst tL) busy (fun x t => x.reqSent r t) (fun x => x.reqPlan { r with deferred := true })
      | .cast n (p :: rest) =>
        let tL := n * d.wakeT + p * Time.msU
        let follow := fun (x : Device) => if rest.isEmpty then x.reqEnd 0 else x.setReq { r with phase := .cast n rest, deferred := false }
        d.listenTry r n tL (d.castGuard p tL) busy (fun x _ => follow x)
          (fun x => x.setReq { r with phase := .cast (d.now / d.wakeT + 1) d.castPhases, deferred := true })
      | _ => d
/-- WAKE frames of one piece (R476): `dataAt` is when the data frame's preamble begins, on channel `dataCh`. -/
def Device.wakeFrames (d : Device) (ch dataCh : Nat) (dataAt : Time) : Nat → Time → Device
  | 0, _ => d
  | n + 1, t =>
    let s := d.nextSeq
    let stop := t + d.airtime 16
    let b := s.2.xcrFrame 5 s.1 0x7FE false (le32 (w32 (dataCh % 16 * 16777216 + (dataAt - stop) / Time.usU % 16777216)))
    ((s.2.count XCR_TX_FRAMES).onAir ch b).wakeFrames ch dataCh dataAt n stop
/-- One piece of a wake sequence. -/
def Device.wakePiece (d : Device) (lpFrames : Bool) (i : Nat) (t0 dataAt : Time) : Device :=
  let p := d.pieceT
  let t := t0 + i * p
  let d1 := d.airAdd i t p
  if lpFrames then d1.wakeFrames i (d.nch - 1) dataAt (p / max 1 (d.airtime 16)) t
  else d1.onAir i (List.replicate (p / d.octetT) 0x55#8)
/-- The data frame behind a wake sequence, on the last channel: sent, or deferred by itself when that channel's airtime does not allow it (R479;
DEDUCED, log entry 99). -/
def Device.wakeData (d : Device) (r : XReq) (t : Time) : Device :=
  let ch := d.nch - 1
  let b := d.reqFrame r
  if d.fits ch t (d.airtime b.length) then (d.xmit ch t b).tuneBack.reqSent r (t + d.airtime b.length)
  else ((if r.phase = .data then d else d.defer ch).setReq { r with phase := .data, deferred := true }).tuneBack
/-- XCR_WAKE_SEQUENCE, behind beacons and ACKs that are due. -/
def wakeSequence (busy : Nat) (d : Device) : Device :=
  if !d.radioOn || d.ackFirst then d
  else match d.xcr.req with
    | none => d
    | some r =>
      if r.phase ≠ .wake then d
      else
        let p := d.pieceT
        let n := d.nch
        let late := (List.range n).find? (fun i => !d.fits i (d.now + i * p) p)
        let bcn := (d.now / d.bcnT + 1) * d.bcnT
        match late with
        | some i => if r.deferred then d else (d.defer i).setReq { r with deferred := true }
        | none =>
          if bcn ≤ d.now + n * p + d.guardBase then d
          else if 8 ≤ busy then d.ccaFail
          else
            let dataAt := d.now + n * p
            let lp := d.fb XCR_SENS_CFG.LP_MODE r.dst
            let d1 := (List.range n).foldl (fun x i => x.wakePiece lp i d.now dataAt) d
            (d1.count XCR_LP_SENT).wakeData r dataAt
/-- XCR_ACK_TIMEOUT (R478). -/
def xcrAckTimeout (d : Device) : Device :=
  match d.xcr.req with
  | none => d
  | some r => match r.phase with
    | .ack t =>
      if d.now < t then d
      else if r.retries < 3 then (d.count XCR_RETRY).reqPlan { r with retries := r.retries + 1, deferred := false }
      else d.reqEnd 1
    | _ => d

/-! Acknowledgements the coordinator sends (R478, R479). -/

/-- An ACK that is due: sent, kept until 2 ms after its instant, or dropped. -/
def Device.ackTry (d : Device) (a : XAck) : Device :=
  let rest := d.xcr.acks.filter (· ≠ a)
  let ch := d.xcr.chan
  let b := d.xcrFrame 3 a.seq a.dst false []
  if a.due + 2 * Time.msU < d.now then d.setXcr { d.xcr with acks := rest }
  else if d.fits ch d.now (d.airtime b.length) then (d.setXcr { d.xcr with acks := rest }).xmit ch d.now b
  else
    let d1 := if a.deferred then d else d.defer ch
    d1.setXcr { d1.xcr with acks := d1.xcr.acks.map (fun x => if x = a then { x with deferred := true } else x) }
/-- XCR_ACK_SEND, behind a beacon that is due. -/
def xcrAckSend (d : Device) : Device :=
  if !d.radioOn || d.beaconFirst then d
  else match d.xcr.acks.find? (fun a => decide (a.due ≤ d.now)) with
    | some a => d.ackTry a
    | none => d
/-- XCR_DEFERRED_SEND: the first deferred transmission, in the order beacon, ACK, request. -/
def deferredSend (busy : Nat) (d : Device) : Device :=
  if !d.radioOn then d
  else match d.xcr.bcnDue, d.xcr.acks.find? (·.deferred), d.xcr.req with
    | some k, _, _ =>
      let d1 := d.beaconDrop k
      if d1.xcr.bcnDue = none then d1 else d1.beaconTry k false
    | none, some a, _ => d.ackTry a
    | none, none, some r =>
      if !r.deferred then d
      else match r.phase with
        | .wake => wakeSequence busy d
        | .listen _ _ | .cast _ _ => listenSend busy d
        | .data => if d.ackFirst then d else if 8 ≤ busy then d.ccaFail else d.wakeData r d.now
        | .ack _ => d
    | none, none, none => d

/-! Reception (R472, R475, R478, R480, R481). -/

/-- Payload lengths of Table 18.2. -/
def xLenOk (typ n : Nat) : Bool :=
  match typ with
  | 0 => decide (n = 12)
  | 1 => decide (n ≤ 115)
  | 2 | 4 => decide (1 ≤ n ∧ n ≤ 115)
  | 3 => decide (n = 0)
  | 5 => decide (n = 4)
  | _ => false
/-- Reserved bits and identity of a header. -/
def Device.xHeadOk (d : Device) (b : List Byte) (n : Nat) : Bool :=
  let at_ (i : Nat) : Nat := (b.getD i 0#8).toNat
  decide (at_ 0 / 4 % 4 = 1) && decide (at_ 0 % 2 = 0) && decide (at_ 6 = d.f XCR_CFG.PAN) && decide (at_ 3 < 8) && decide (at_ 5 < 8) &&
    decide (at_ 7 = 0) && xLenOk (at_ 0 / 16) n
/-- The entry of the receive queue for a frame with its SFD at `sfd`. -/
def rxqEntry (src typ seq : Nat) (p : List Byte) (sfd : Time) : List Word :=
  let tail := leWords 2 (p.drop 112)
  [w32 (src * 65536 + typ * 4096 + seq * 16), w32 ((wd tail 0).toNat % 16777216 * 256 + p.length), w32 (Time.secOf sfd), w32 (Time.nsOf sfd)] ++
    (List.range 28).map (fun i => wd (leWords 29 (p.take 112)) i)
/-- An entry goes into the receive queue. -/
def Device.rxqPush (d : Device) (e : List Word) : Device :=
  if 512 ≤ d.xcr.rxq.length then
    let d1 := d.count XCR_RXQ_DROP
    if d.xcr.ovfEp then d1 else (d1.setXcr { d1.xcr with ovfEp := true }).raise EV_XCR_RXQ_OVF [d.xcr.rxq.length]
  else (d.setXcr { d.xcr with rxq := d.xcr.rxq ++ [e] }).hwm XCR_RXQ_STAT.HWM (d.xcr.rxq.length + 1)
/-- An ACK is owed. -/
def Device.ackOwe (d : Device) (ack : Bool) (src seq : Nat) : Device :=
  if ack then d.setXcr { d.xcr with acks := d.xcr.acks ++ [⟨src, seq, d.now + Time.msU, false⟩] } else d
/-- A frame from a sensor has been accepted. -/
def Device.sensHeard (d : Device) (s seq : Nat) (sfd : Time) : Device :=
  let old := d.sens s
  let d1 := (d.setSens s ⟨.synced, some d.now, some seq, 0, d.now⟩).wr XCR_SENS_LAST s (w32 (Time.secOf sfd))
  if old.st = .synced then d1 else (d1.raise EV_XCR_SENSOR [s, 1]).replan s
/-- An ACK answers the request in progress. -/
def Device.ackHeard (d : Device) (s seq : Nat) : Device :=
  match d.xcr.req with
  | some r => match r.phase with
    | .ack _ => if r.dst = s ∧ r.seq = seq then d.reqEnd 0 else d
    | _ => d
  | none => d
/-- A frame whose header is right comes from a sensor. -/
def Device.xcrAccept (d : Device) (b : List Byte) (n : Nat) (sfd : Time) : Device :=
  let at_ (i : Nat) : Nat := (b.getD i 0#8).toNat
  let typ := at_ 0 / 16
  let ack := decide (at_ 0 / 2 % 2 = 1)
  let dst := at_ 2 + 256 * at_ 3
  let src := at_ 4 + 256 * at_ 5
  let seq := at_ 1
  if 1024 ≤ src ∨ !d.sensEn src ∨ (dst ≠ 0x7FF ∧ dst ≠ 0x7FE) then d.count XCR_RX_UNKNOWN
  else
    let s := d.sens src
    let data := decide (typ = 1 ∨ typ = 2)
    let recent : Bool := (match s.lastAt with | some t => decide (d.now ≤ t + 60 * Time.secU) | none => false)
    if data && recent && decide (s.lastSeq = some seq) then (d.count XCR_RX_DUP).ackOwe ack src seq
    else
      let d1 := ((d.count XCR_RX_FRAMES).sensHeard src seq sfd).ackOwe ack src seq
      let d2 := if typ = 3 then d1.ackHeard src seq else d1
      if data then d2.rxqPush (rxqEntry src typ seq ((b.drop 8).take n) sfd) else d2
/-- XCR_FRAME_RECEIVED: the PHR length and the octets of the PHY payload (Table 18.3). -/
def xcrFrameReceived (phr : Nat) (bytes : List Byte) (d : Device) : Device :=
  if !d.radioOn then d
  else if phr < 12 ∨ 127 < phr then d.count XCR_RX_SIZE
  else
    let b := (bytes ++ List.replicate 127 0#8).take phr
    let body := b.take (phr - 4)
    let sfd := d.now - (phr + 2) * d.octetT
    if b.drop (phr - 4) ≠ le32 (w32 (crc32 body)) then d.count XCR_RX_FCS
    else if !d.xHeadOk b (phr - 12) then d.count XCR_RX_HDR
    else d.xcrAccept b (phr - 12) sfd
/-- XCR_RXQ_POP. -/
def rxqPop (d : Device) : Device :=
  let q := d.xcr.rxq.drop 1
  d.setXcr { d.xcr with rxq := q, ovfEp := d.xcr.ovfEp && decide (256 ≤ q.length) }
/-- XCR_CHECKIN_MISSED (R475). -/
def checkinMissed (s : Nat) (d : Device) : Device :=
  let x := d.sens (s % 1024)
  if !d.radioOn || !d.sensEn (s % 1024) || decide (d.now < x.missAt + d.chkT) then d
  else
    let x1 := { x with missed := min 3 (x.missed + 1), missAt := x.missAt + d.chkT }
    if x.st = .synced ∧ x1.missed = 3 then
      ((d.setSens (s % 1024) { x1 with st := .lost }).sensLost (s % 1024)).replan (s % 1024)
    else d.setSens (s % 1024) x1
/-- XCVR_READBACK_TIMEOUT: the outcome of an SPI read-back (R469). -/
def xcvrReadback (ok : Bool) (d : Device) : Device :=
  if !d.radioOn || decide (d.fb XCR_STAT.XCVR_OK = ok) then d else (d.setf XCR_STAT.XCVR_OK (b2n ok)).raise EV_XCR_XCVR [b2n ok]

/-! Registers (R483). -/

/-- A write to XCR_CFG, XCR_TIMING, XCR_GUARD, XCR_DWELL, XCR_CHn or XCR_XCVR: only while EN = 0. -/
def xcrCfgWrite (r : RegDef) (i : Nat) (mask v : Word) (d : Device) : Device :=
  if d.fb XCR_CFG.EN || (decide (r.base = XCR_CFG.base) && decide (1 < bx v 29 28)) then d.xcrErr 1
  else (d.wr r i (v &&& mask)).setXcr { d.xcr with tuned := none }
/-- A write to XCR_SENS_CFG of the selected sensor. -/
def sensCfgWrite (v : Word) (d : Device) : Device :=
  let s := d.f XCR_SENS_SEL.SENSOR
  if d.sensEn s then
    if bit v 31 then d.xcrErr 4
    else
      let d1 := (d.setf XCR_SENS_CFG.EN 0 s).setXcr { d.xcr with sens := mdel d.xcr.sens s }
      match d1.xcr.req with
      | some r => if r.dst = s then d1.reqEnd 3 else d1
      | none => d1
  else
    let d1 := d.wr XCR_SENS_CFG s (v &&& 0xFF003FFF#32)
    if bit v 31 then (d1.setSens s (xsInit d1.now)).sensLost s else d1

end Sys2Proof.Machine
end

