-- ==== Sys2Proof/Machine/Registers.lean ====
section
/-!
DEFINITION. The registers as the host reads and writes them: access codes (R5, R6), BAR0 accesses (R389), what is computed when it is read, and
where a write goes that does more than set its field.
-/
namespace Sys2Proof.Machine

/-! Addresses (R389, R390). -/

/-- The register at a BAR0 offset, and its number in its row. -/
def findReg (a : Nat) : Option (RegDef × Nat) :=
  regMap.findSome? (fun r =>
    if r.base ≤ a ∧ (r.stride = 0 ∨ (a - r.base) % r.stride = 0) ∧ (if r.stride = 0 then a = r.base else (a - r.base) / r.stride < r.count) then
      some (r, if r.stride = 0 then 0 else (a - r.base) / r.stride)
    else none)
/-- The selected instance of a selected register, or the number in the row. -/
def Device.instOf (d : Device) (r : RegDef) (i : Nat) : Nat :=
  match r.sel with
  | some s => (mgetD (d.blkRegs (s / 65536)) s 0#32).toNat
  | none => i
/-- Even 64 KiB ranges from 0x02 on, 0x00, 0x01 and 0x0D to 0x0F hold blocks (Table 14.3): the block of an offset. -/
def blockOf (a : Nat) : Option Nat :=
  match a / 65536 with
  | 0x00 => some 0 | 0x01 => some 1 | 0x02 => some 2 | 0x04 => some 3 | 0x06 => some 4 | 0x08 => some 5 | 0x0A => some 6 | 0x0C => some 7
  | 0x0E => some 8 | 0x0F => some 9 | 0x10 => some 10 | 0x11 => some 11 | 0x12 => some 12 | 0x13 => some 13 | 0x14 => some 14 | 0x15 => some 15
  | 0x16 => some 16 | 0x17 => some 17 | 0x18 => some 18 | 0x19 => some 19 | 0x1A => some 20 | 0x1B => some 21
  | _ => none
/-- An access that BAR0 refuses: another size than 32 bits, another alignment, or a reserved range. A 64-bit read is two reads, each for itself. -/
def badAccess (a size : Nat) : Bool := decide (a % 4 ≠ 0 ∨ size ≠ 4) || (blockOf a).isNone
/-- A refused access counts; a read returns 0. -/
def Device.bar0Refuse (d : Device) (isWrite : Bool) : Device :=
  let d1 := d.count HIF_BAD_ACCESS
  if isWrite then d1 else { d1 with lastRead := 0#32 }

/-! Reads. -/

/-- The bits of a register that reads return: every field but WO ones. -/
def readMask (r : RegDef) : Nat := ((r.fields.filter (fun f => decide (f.acc ≠ .wo))).map (fun f => 2 ^ (f.hi + 1) - 2 ^ f.lo)).sum
/-- A word from (high bit, low bit, value) triples put into `v`. -/
def puts (v : Word) (fs : List (Nat × Nat × Nat)) : Word := fs.foldl (fun x f => bset x f.1 f.2.1 f.2.2) v

def Device.rdPwr (d : Device) (base i : Nat) (v : Word) : Word :=
  match base with
  | 0x010000 => puts v [(31, 29, modeCode d.pwr.mode), (23, 23, b2n d.pwr.pfw)]
  | 0x010104 => w32 (mgetD d.pwr.reading i 0)
  | 0x010114 => puts 0#32 [(31, 31, b2n (d.pwr.slot.st = .held)), (15, 0, d.pwr.slot.seq)]
  | 0x010200 => slotWord d.pwr.slot i
  | _ => v
def Device.rdTk (d : Device) (base : Nat) (v : Word) : Word :=
  match base with
  | 0x020020 => w32 (Time.nsOf d.tk.now)
  | 0x020024 => wd d.tk.latch 0
  | 0x020028 => wd d.tk.latch 1
  | 0x02002C => wd d.tk.latch 2
  | 0x020034 => w32 d.tkEst
  | 0x020054 =>
    let o := d.utcOffset
    let l := d.utcLeap
    puts (i32 o.1 &&& 0xFFFF#32) [(31, 30, l.1), (29, 28, if l.2 = 2 then 2 else o.2)]
  | _ => v
def Device.rdEth (d : Device) (base p : Nat) (v : Word) : Word :=
  let x := d.ptp p
  match base with
  | 0x041010 => bset v 4 0 x.txq.length
  | 0x041014 => match x.txq with | e :: _ => w32 (2147483648 + e.ident % 65536) | [] => 0#32
  | 0x041018 => x.latchNs
  | 0x04101C => x.latchSec
  | _ => v
def Device.rdPfa (d : Device) (base i : Nat) (v : Word) : Word :=
  let run := d.run? i
  match base with
  | 0x080020 => match run with
    | some r => puts 0#32 [(31, 31, b2n (heFixed (d.heatE i))), (30, 30, b2n r.clampHi), (29, 29, b2n r.clampLo), (28, 28, b2n r.lateRisk), (23, 0, r.win)]
    | none => bset 0#32 31 31 (b2n (heFixed (d.heatE i)))
  | 0x080024 => match run with | some r => w32 r.eh | none => 0#32
  | 0x080028 => match run with | some r => w32 r.riskLaps | none => 0#32
  | 0x08002C => match run with | some r => w32 r.maxShort | none => 0#32
  | 0x080034 => puts 0#32 [(31, 31, b2n (d.pfa.obs.contains i)), (23, 0, (mgetD d.pfa.q i 0 + 1023) / 1024)]
  | 0x080100 => w32 d.slotFree
  | _ => v
def Device.rdSrt (d : Device) (base i : Nat) (v : Word) : Word :=
  match base with
  | 0x0A0004 => bset v 11 0 (min 4095 d.contNow)
  | 0x0A0064 =>
    let t := i / 65536
    let u := i % 4096
    if unitCount t ≤ u then 0#32
    else puts 0#32 [(31, 31, b2n (d.unitAdmin t u)), (30, 30, b2n (d.unitUsable t u)), (29, 28, d.unitState t u)]
  | 0x0C0014 =>
    let e := d.eng i
    puts 0#32 [(31, 30, if e.quar then 2 else if e.suspect then 1 else 0), (27, 24, min 15 (d.recentMism i).length), (19, 16, (d.engTasks i).length)]
  | 0x0C0018 => w32 (d.eng i).lastSec
  | _ => v
def Device.rdOsm (d : Device) (base : Nat) (v : Word) : Word :=
  match base with
  | 0x0E0014 => d.osm.sampleHi
  | 0x0E0018 => w32 d.osm.startK
  | 0x0E001C => d.osm.startHi
  | 0x0F0014 => d.isl.graphHi
  | 0x0F001C => d.isl.mapHi
  | _ => v
def Device.rdAlm (d : Device) (base i : Nat) (v : Word) : Word :=
  match base with
  | 0x100014 => match mget d.alm.hur i with
    | some h => puts 0#32 [(31, 31, b2n h.p.active), (30, 30, b2n h.c.active), (29, 29, b2n h.conf), (23, 16, min 255 h.prov.length),
        (15, 8, min 255 h.c.on), (7, 0, min 255 h.c.off)]
    | none => 0#32
  | 0x100018 => w32 ((d.ents tHurdle).map (fun e => d.hurReserve e.2)).sum
  | 0x130008 => bset v 15 0 (min 65535 d.acqRate)
  | 0x130104 => bset v 20 16 (d.grpFree i).length
  | 0x140014 => puts 0#32 [(31, 31, b2n (d.nrg.slot.st = .held)), (15, 0, d.nrg.slot.seq)]
  | 0x140020 => slotWord d.nrg.slot i
  | _ => v
def Device.rdRxl (d : Device) (base i : Nat) (v : Word) : Word :=
  match base with
  | 0x150020 => bset v 12 0 (min 4095 ((List.range 4096).filter (d.active uPEER)).length)
  | 0x150034 =>
    let x := d.link i
    puts 0#32 [(31, 31, b2n x.up), (30, 30, b2n (d.isRelay i)), (29, 18, x.epoch), (17, 9, x.c0.win.length), (8, 0, x.c1.win.length)]
  | 0x160004 => bset v 28 28 (b2n (match d.rly.lastIn with | some t => decide (d.tk.ticks ≤ t + 384000) | none => false))
  | 0x160010 => d.cfgDigest
  | 0x060004 => w32 (d.streams.map (fun s => svUnits s.2)).sum
  | _ => v
def chCode (s : ChState) : Nat := match s with | .idle => 0 | .running => 1 | .stopped => 2
def Device.rdHif (d : Device) (base i : Nat) (v : Word) : Word :=
  match base with
  | 0x170020 => puts 0#32 [(31, 16, (d.sqSt i).head), (15, 0, (d.sqSt i).tail)]
  | 0x170048 => puts 0#32 [(31, 16, (d.cqSt i).head), (15, 0, (d.cqSt i).tail)]
  | 0x17006C =>
    let l := sfLevel (d.sfSt i)
    puts v [(31, 31, b2n (d.sfSt i).isEmpty), (30, 30, b2n (decide (sfCap i ≤ l))), (11, 0, l / 1024)]
  | 0x170408 => match (d.dch i).cur with
    | some x => puts 0#32 [(31, 30, chCode (d.dch i).st), (21, 16, x.sq), (15, 0, bx (wd x.words 0) 15 0)]
    | none => bset 0#32 31 30 (chCode (d.dch i).st)
  | 0x17040C => w32 (d.dch i).left
  | _ => v
def Device.rdKey (d : Device) (base i : Nat) (v : Word) : Word :=
  match base with
  | 0x180000 => puts v [(24, 24, b2n d.key.tampered), (6, 0, d.keySlots)]
  | 0x180054 => d.keySlotStat i
  | 0x180058 => d.keySlotGen i
  | 0x180064 => d.keyGrpStat i
  | 0x180068 => ((d.grp i).cur.map (·.kid)).getD 0#32
  | 0x18006C => ((d.grp i).next.map (·.kid)).getD 0#32
  | 0x180074 => wd (leWords 9 (d.bd (d.f KEY_BD_SEL.BD))) i
  | 0x1800B8 => puts 0#32 [(31, 31, b2n (d.key.slot.st = .held)), (15, 0, d.key.slot.seq)]
  | 0x1800C0 => slotWord d.key.slot i
  | _ => v
def Device.rdScb (d : Device) (base i : Nat) (v : Word) : Word :=
  match base with
  | 0x190000 => bset v 11 0 d.scb.buf.length
  | 0x190008 => w32 d.scb.next
  | 0x19000C => w32 d.scbOldest
  | 0x190020 => match d.scb.found with | some r => wd (scbWords r) i | none => 0#32
  | 0x190110 => w32 d.jnl.next
  | 0x190114 => match d.jnl.places with | p :: _ => w32 p.entry.jseq | [] => 0#32
  | 0x19011C => bset v 15 0 (min 65535 (d.undrained / 1048576))
  | 0x1A0038 => let c := mgetD d.mem.counts i (0, 0); puts 0#32 [(31, 16, c.1), (15, 0, c.2)]
  | _ => v
def Device.xcrCount (d : Device) (st : XState) : Nat := ((mvals d.xcr.sens).filter (fun s => decide (s.st = st))).length
def Device.rdXcr (d : Device) (base i : Nat) (v : Word) : Word :=
  match base with
  | 0x1B0010 => bset v 31 16 (min 65535 (d.airUsed i d.now / Time.msU))
  | 0x1B0054 => puts v [(26, 16, d.xcrCount .lost), (10, 0, d.xcrCount .synced)]
  | 0x1B0068 =>
    let s := d.sens i
    puts 0#32 [(31, 30, match s.st with | .disabled => 0 | .synced => 1 | .lost => 2), (29, 28, s.missed), (27, 20, s.lastSeq.getD 0)]
  | 0x1B0100 => puts v [(31, 31, b2n (!d.xcr.rxq.isEmpty)), (9, 0, d.xcr.rxq.length)]
  | 0x1B0104 => wd (d.xcr.rxq.headD []) i
  | _ => v
/-- What a register holds now, with the fields that are computed when it is read. -/
def Device.regNow (d : Device) (r : RegDef) (i : Nat) : Word :=
  let v := d.rg r i
  match r.base / 65536 with
  | 0x01 => d.rdPwr r.base i v
  | 0x02 => d.rdTk r.base v
  | 0x04 => d.rdEth r.base i v
  | 0x08 => d.rdPfa r.base i v
  | 0x0A | 0x0C => d.rdSrt r.base i v
  | 0x0E | 0x0F => d.rdOsm r.base v
  | 0x10 | 0x13 | 0x14 => d.rdAlm r.base i v
  | 0x06 | 0x15 | 0x16 => d.rdRxl r.base i v
  | 0x17 => d.rdHif r.base i v
  | 0x18 => d.rdKey r.base i v
  | 0x19 | 0x1A => d.rdScb r.base i v
  | 0x1B => d.rdXcr r.base i v
  | _ => v
/-- A counter at an offset, or a word of RX_OCTETS (R81, R82). -/
def Device.ctrNow (d : Device) (a : Nat) : Word :=
  if a / 65536 = 4 ∧ a % 0x2000 = 0x180 then w32 (d.prx (a % 65536 / 0x2000)).octets
  else if a / 65536 = 4 ∧ a % 0x2000 = 0x184 then (d.prx (a % 65536 / 0x2000)).octLatch &&& 0xFFFF#32
  else if ctrMap.any (fun c => decide (c.base ≤ a) && (if c.stride = 0 then decide (a = c.base) else decide ((a - c.base) % c.stride = 0 ∧ (a - c.base) / c.stride < 8))) then
    mgetD (d.blkRegs (a / 65536)) a 0#32
  else 0#32
/-- A read of a BAR0 offset, without its side effects. -/
def Device.readNow (d : Device) (a : Nat) : Word :=
  match findReg a with
  | some (r, i) => d.regNow r (d.instOf r i) &&& w32 (readMask r)
  | none => d.ctrNow a

/-- A read of RX_OCTETS_LO latches its high word (R81). -/
def octetsLatch (p : Nat) (d : Device) : Device :=
  let x := d.prx p
  { (d.setPrx p { x with octLatch := w32 (x.octets / 4294967296) }) with lastRead := w32 x.octets }
/-- COUNTER_LO_READ. -/
def counterLoRead (p : Nat) (d : Device) : Device := octetsLatch (p % 8) d
/-- The RC field of a register is cleared by the access that reads it (R5); its next change sets it again (log entry 53). -/
def Device.rcClear (d : Device) (r : RegDef) (i : Nat) : Device :=
  if r.base = 0x08002C then
    (match d.run? i with | some x => d.setRun i { x with maxShort := 0 } | none => d)
  else match r.fields.find? (fun f => decide (f.acc = .rc)) with
    | some f => d.wr r i (bset (d.rg r i) f.hi f.lo 0)
    | none => d
/-- A read of a sample or lap number's LO register latches its HI register (Tables 5.15, 5.16, 6.11). -/
def Device.hiLatch (d : Device) (base : Nat) : Device :=
  match base with
  | 0x0E0010 => d.setOsm { d.osm with sampleHi := w32 (d.osm.lastK / 4294967296) }
  | 0x0E0018 => d.setOsm { d.osm with startHi := w32 (d.osm.startK / 4294967296) }
  | 0x0F0010 => d.setIsl { d.isl with graphHi := w32 (d.isl.graphLap / 4294967296) }
  | 0x0F0018 => d.setIsl { d.isl with mapHi := w32 (d.isl.mapLap / 4294967296) }
  | _ => d
/-- RC_REGISTER_READ: a read of any register, with what reading it does. -/
def busRead (a : Nat) (d : Device) : Device :=
  if badAccess a 4 then d.bar0Refuse false
  else if a / 65536 = 4 ∧ a % 0x2000 = 0x180 then octetsLatch (a % 65536 / 0x2000) d
  else match findReg a with
    | none => { d with lastRead := d.ctrNow a }
    | some (r, i) =>
      let n := d.instOf r i
      match r.base with
      | 0x020020 => tkNowRead d
      | 0x041014 => txtsIdRead n d
      | _ => { ((d.rcClear r n).hiLatch r.base) with lastRead := d.readNow a }
/-- A 64-bit read: two 32-bit reads in ascending order (R389). -/
def busReadPair (a : Nat) (d : Device) : Device :=
  let d1 := busRead a d
  let d2 := busRead (a + 4) d1
  { d2 with lastRead := d1.lastRead, readHi := d2.lastRead }
/-- BAR0_BAD_ACCESS: an access with its size; a 64-bit read of aligned words is performed, whatever each of them is. -/
def bar0Bad (isWrite : Bool) (a size : Nat) (d : Device) : Device :=
  if !isWrite && decide (size = 8 ∧ a % 4 = 0) then busReadPair a d
  else if badAccess a size then d.bar0Refuse isWrite
  else d

/-! Writes. -/

/-- What a write leaves in one field (Table 0.4). -/
def accWrite (f : Fld) (old v : Word) : Word :=
  let o := bx old f.hi f.lo
  let n := bx v f.hi f.lo
  match f.acc with
  | .rw | .wo => bset old f.hi f.lo n
  | .w1c => bset old f.hi f.lo (o - (o &&& n))
  | .w1s => bset old f.hi f.lo (o ||| n)
  | .ro | .rc => old
/-- A write under the access codes alone. -/
def Device.plainWrite (d : Device) (r : RegDef) (i : Nat) (v : Word) : Device := d.wr r i (r.fields.foldl (fun x f => accWrite f x v) (d.rg r i))
/-- An attestation response is released (R409). -/
def attestRelease (v : Word) (d : Device) : Device :=
  match slotRelease d.key.slot (bx v 15 0) with
  | some s => d.setKey { d.key with slot := s }
  | none => d.count HIF_SLOT_REL_BAD
/-- RXL_DEV: only while no link is enabled. -/
def rxlDevWrite (v : Word) (d : Device) : Device :=
  if (d.ents tLink).any (fun e => lkEn e.2) then d.err RXL_STAT.ERR RXL_STAT.ECODE 1 else d.wr RXL_DEV 0 (v &&& 0xFF000FFF#32)
/-- RXL_LINK_SEL. The whole word is compared with 63 (Table 12.14), so that a reserved bit written as 1 is a value above 63 and not ignored
(DESIGN CHOICE, log entry 85). -/
def rxlSelWrite (v : Word) (d : Device) : Device :=
  if 63 < v.toNat then d.err RXL_STAT.ERR RXL_STAT.ECODE 2 else d.wr RXL_LINK_SEL 0 v
/-- TK_INC_INT takes effect with TK_INC_FRAC (R320). -/
def tkIncIntWrite (v : Word) (d : Device) : Device := (d.wr TK_INC_INT 0 (v &&& 0xFF#32)).setTk { d.tk with intW := bx v 7 0 }
/-- JNL_CTL. RR_GO and RR_STOP are taken at once and read 0; CKPT reads 1 until its START is written (DEDUCED, log entry 85). -/
def jnlCtlWrite (v : Word) (d : Device) : Device :=
  let d1 := if bit v 31 then jnlCkptWrite d else d
  let d2 := if bit v 30 then rerunGo d1 else d1
  if bit v 29 then rerunStop d2 else d2

/-- Blocks 0x01, 0x02 and 0x04. HLT_SNAP_CTL.GO is taken at once and reads 0 (DESIGN CHOICE, log entry 85). -/
def wrPwr (base i : Nat) (v : Word) (d : Device) : Option Device :=
  match base with
  | 0x010004 => some (pwrCtlWrite v d)
  | 0x010100 => if bx v 9 8 = 3 then some d else none
  | 0x010110 => some (if bit v 31 then snapRequest d else d)
  | 0x010118 => some (snapRelease v d)
  | 0x020000 => some (tkCtlWrite v d)
  | 0x020018 => some (tkIncIntWrite v d)
  | 0x02001C => some (tkIncFracWrite v d)
  | 0x020040 => some (tkCmdWrite v d)
  | 0x020050 => some (tkUtcWrite v d)
  | 0x020060 => some (tkPtpWrite v d)
  | 0x040000 => some (ethCfgWrite i v d)
  | 0x041000 => some (ethPtpCfgWrite i v d)
  | 0x041020 => some (txtsPop i v d)
  | _ => none
def wrPfa (base i : Nat) (v : Word) (d : Device) : Option Device :=
  match base with
  | 0x080014 => some (winCmd (bx v 31 28) (bx v 23 0) d)
  | 0x0A0000 => some (srtCfgWrite v d)
  | 0x0A0054 => some (srtPinWrite v d)
  | 0x0A0064 => some (srtUnitWrite v d)
  | 0x0C0010 => if 96 ≤ bx v 7 0 then some d else none
  | 0x0C001C => some (pacEngClr v d)
  | 0x0C0050 => some (resInjWrite v d)
  | 0x0E0000 => some (osmCtlWrite v d)
  | 0x0E0008 => some (osmDdrWrite v d)
  | 0x0F0004 => some (if bit v 31 then islSwapRequest d else d)
  | 0x100010 => some (almThrCmdWrite v d)
  | 0x100040 => some (aoutCfgWrite i v d)
  | 0x100084 => some (aoutClr v d)
  | _ => none
def wrLmf (base i : Nat) (v : Word) (d : Device) : Option Device :=
  match base with
  | 0x120000 => some (lmfGrpWrite i v d)
  | 0x120100 => some (lmfCtlWrite i v d)
  | 0x120108 => some (lmfSetWrite LMF_CH_SCALE i v d)
  | 0x12010C => some (lmfSetWrite LMF_CH_OFFSET i v d)
  | 0x120110 => some (lmfSetWrite LMF_CH_DLY i (v &&& 0xFFFF#32) d)
  | 0x130000 => some (acqDdrWrite v d)
  | 0x130010 => some (acqSlotRelease v d)
  | 0x130100 => some (acqCtlWrite i v d)
  | 0x140010 => some (if bit v 31 then nrgSnapRequest (bx v 8 0) d else d)
  | 0x140018 => some (nrgSnapRelease v d)
  | 0x140100 => some (piCfgWrite i v d)
  | 0x140200 => some (poCfgWrite i v d)
  | 0x140204 => some (poQWrite i v d)
  | 0x150000 => some (rxlDevWrite v d)
  | 0x150010 => some (rxlPortWrite i v d)
  | 0x150030 => some (rxlSelWrite v d)
  | 0x160000 => some (rlyCfgWrite v d)
  | 0x160008 => some (rlyCtlWrite v d)
  | _ => none
def wrHif (base i : Nat) (v : Word) (d : Device) : Option Device :=
  match base with
  | 0x170014 => some (ringAddrWrite false HIF_SQ_BASE_LO 12 v d)
  | 0x170018 => some (ringAddrWrite false HIF_SQ_BASE_HI 0 v d)
  | 0x17001C => some (sqCfgWrite v d)
  | 0x170034 => some (ringAddrWrite true HIF_CQ_BASE_LO 12 v d)
  | 0x170038 => some (ringAddrWrite true HIF_CQ_BASE_HI 0 v d)
  | 0x17003C => some (ringAddrWrite true HIF_CQ_WB_LO 4 v d)
  | 0x170040 => some (ringAddrWrite true HIF_CQ_WB_HI 0 v d)
  | 0x170044 => some (cqCfgWrite v d)
  | 0x170060 => if bx v 1 0 = 3 then some d.cfgErr else none
  | 0x170068 => some (if bit v 31 then streamFlush i d else d)
  | 0x170400 => some (dmaCfgWrite i v d)
  | 0x170404 => some (dmaCtlWrite i v d)
  | 0x180000 => some (keyStatWrite v d)
  | 0x180004 => some (keyCmd true v d)
  | 0x18000C => some (keyUnlock v d)
  | 0x180030 => some (keyPathRootWrite v d)
  | 0x1800A0 => some (keyAttCfgWrite v d)
  | 0x1800B4 => some (if bit v 31 then attestRequest d else d)
  | 0x1800BC => some (attestRelease v d)
  | _ => none
def wrScb (base i : Nat) (v : Word) (d : Device) : Option Device :=
  match base with
  | 0x190004 => some (if bit v 31 then scbFlushWrite d else d)
  | 0x190010 => some (scbLookup v d)
  | 0x190100 => some (jnlDdrWrite v d)
  | 0x190108 => some (jnlCtlWrite v d)
  | 0x19012C => some (rerunInput v d)
  | 0x1A0008 => some (memInjWrite v d)
  | 0x1A0030 => some (memGrpClear v d)
  | 0x1B0000 => some (xcrCfgWrite XCR_CFG 0 0xBFFF0000#32 v d)
  | 0x1B0004 => some (xcrCfgWrite XCR_TIMING 0 0xFFFFFFFF#32 v d)
  | 0x1B0008 => some (xcrCfgWrite XCR_GUARD 0 0xFFFFFFFF#32 v d)
  | 0x1B000C => some (xcrCfgWrite XCR_DWELL 0 0xFFFFFFFF#32 v d)
  | 0x1B0010 => some (xcrCfgWrite XCR_CH i 0x0000FFFF#32 v d)
  | 0x1B0050 => some (xcrCfgWrite XCR_XCVR 0 0xFF0000FF#32 v d)
  | 0x1B0064 => some (sensCfgWrite v d)
  | 0x1B00F4 => some (txCmdWrite v d)
  | 0x1B0184 => some (if bit v 31 then rxqPop d else d)
  | _ => none
/-- A write that does more than its access codes say; none where they say it all. -/
def specialWrite (base i : Nat) (v : Word) (d : Device) : Option Device :=
  let b := base / 65536
  if b ≤ 4 then wrPwr base i v d
  else if b ≤ 0x10 then wrPfa base i v d
  else if b ≤ 0x16 then wrLmf base i v d
  else if b ≤ 0x18 then wrHif base i v d
  else wrScb base i v d
/-- REGISTER_WRITE: a 32-bit write to a BAR0 offset (R389). -/
def busWrite (a : Nat) (v : Word) (d : Device) : Device :=
  if badAccess a 4 then d.bar0Refuse true
  else match findReg a with
    | none => d
    | some (r, i) =>
      let n := d.instOf r i
      match specialWrite r.base n v d with
      | some x => x
      | none => (d.plainWrite r n v).irqRefresh ((blockOf a).getD 0)

end Sys2Proof.Machine
end

