-- ==== Sys2Proof/Machine/Command.lean ====
section
/-!
DEFINITION. What every command shares: when the block acts on it at all (R486, R493, R498), and what follows any command: BD_LOCK, memory
integrity, a follower's step, tasks of an engine that has failed, and the journal's forwarding.
-/
namespace Sys2Proof.Machine

/-- What follows every command that leaves the device out of RESET; `old` is the device before it. -/
def Device.post (old d : Device) : Device :=
  if d.alive then ((Device.stepWatch old ((d.warmupExit old).memPost old)).moveFailed).pump else d

/-- A command that acts whatever the mode: an event of power, RESET_N, PFW_N, VBAT or TAMPER_N. -/
def onAny (f : Device → Device) (s : State) : Answer := .next { s with dev := Device.post s.dev (f s.dev) }
/-- A command that acts while the device is powered and out of RESET (Table 19.6). -/
def onAlive (f : Device → Device) (s : State) : Answer := if s.dev.alive then onAny f s else .next s
/-- The device is out of RESET and HOLD: its engines, Grandstand, SerDes and radio are clocked (R493). -/
def Device.awake (d : Device) : Bool := d.alive && decide (d.pwr.mode ≠ .hold)
/-- A command of a unit that HOLD gates off. -/
def onAwake (f : Device → Device) (s : State) : Answer := if s.dev.awake then onAny f s else .next s
/-- A command for a place that the unit has; there is no such event elsewhere (log entry 61). -/
def placed (b : Bool) (f : Device → Device) (d : Device) : Device := if b then f d else d

/-! Commands that choose among operations. -/

/-- C37_CMD_OTHER: a CMD word other than 1 to 6. -/
def c37CmdOther (cmd : Nat) (tcp : Bool) (sender idcode : Nat) (d : Device) : Device :=
  c37Cmd (if 1 ≤ cmd ∧ cmd ≤ 6 then 0 else cmd) tcp sender idcode d
/-- CADENCE_SEND, end to end or on a link. -/
def cadenceSend (peer : Bool) (n : Nat) (d : Device) : Device := if peer then cadencePeer n d else placed (n < 64) (cadenceLink n) d
/-- A key store command passes the gate of R415 and R416. -/
def keyGated (host : Bool) (f : Device → Device) (d : Device) : Device := d.keyGate host f
/-- The microsecond that the next tick begins, if it begins one. -/
def Device.nextUs (d : Device) : Option Nat :=
  let u := (d.tk.now + d.tk.inc) / Time.usU
  if u = d.tk.now / Time.usU then none else some u
/-- CLK_TK_TICK with what happens at its edge: timers carried to the next tick (R217), and the GOOSE state journaled each second (Table 16.3). -/
def tkTickAll (d : Device) : Device :=
  let d1 := match d.nextUs with
    | some u => if d.lapsRun && decide (d.pwr.mode ≠ .rerun) then d.timerCarry u else d
    | none => d
  (clkTkTick d1).gooseSecond

end Sys2Proof.Machine
end

