-- ==== Sys2Proof/Machine/CmdAir.lean ====
section
/-!
DEFINITION. The meanings of the commands of the radio (spec/18), one for each, over the operations of that unit.
-/
namespace Sys2Proof.Machine

/-- BEACON_INSTANT (R473). -/
def execBeaconInstant (s : State) : Answer := onAwake beaconInstant s
/-- XCR_FRAME_RECEIVED (R472). -/
def execXcrFrameReceived (phr : Nat) (bytes : List Byte) (s : State) : Answer := onAwake (xcrFrameReceived phr bytes) s
/-- XCR_ACK_SEND (R478). -/
def execXcrAckSend (s : State) : Answer := onAwake xcrAckSend s
/-- XCR_ACK_TIMEOUT (R478). -/
def execXcrAckTimeout (s : State) : Answer := onAwake xcrAckTimeout s
/-- XCR_TX_REQUEST: GO of XCR_TX_CMD with the command's fields (R474, R483). -/
def execXcrTxRequest (v : Word) (s : State) : Answer := onAlive (txCmdWrite (v ||| 0x80000000#32)) s
/-- XCR_LISTEN_SEND (R474). -/
def execXcrListenSend (busy : Nat) (s : State) : Answer := onAwake (listenSend busy) s
/-- XCR_WAKE_SEQUENCE (R477). -/
def execXcrWakeSequence (busy : Nat) (s : State) : Answer := onAwake (wakeSequence busy) s
/-- XCR_DEFERRED_SEND (R479). -/
def execXcrDeferredSend (busy : Nat) (s : State) : Answer := onAwake (deferredSend busy) s
/-- XCR_CHECKIN_MISSED (R475). -/
def execXcrCheckinMissed (sensor : Nat) (s : State) : Answer := onAwake (checkinMissed sensor) s
/-- XCVR_READBACK_TIMEOUT (R469). -/
def execXcvrReadbackTimeout (ok : Bool) (s : State) : Answer := onAlive (xcvrReadback ok) s
/-- XCR_RXQ_POP (R481). -/
def execXcrRxqPop (s : State) : Answer := onAlive rxqPop s

end Sys2Proof.Machine
end

