-- ==== Sys2Proof/Machine/CmdAligner.lean ====
section
/-!
DEFINITION. The meanings of the commands of the Photo-Finish Aligner (spec/03), one for each, over the operations of that unit.
-/
namespace Sys2Proof.Machine

/-- LAP_OPEN (R86). -/
def execLapOpen (heat : Nat) (lap : Nat) (s : State) : Answer := onAwake (fun d => lapOpenAll heat lap (d.stageRead heat lap)) s
/-- LAP_SKIP (R88). -/
def execLapSkip (heat : Nat) (lap : Nat) (s : State) : Answer := onAwake (lapSkip heat lap) s
/-- DEADLINE_EXPIRY (R90). -/
def execDeadlineExpiry (heat : Nat) (lap : Nat) (s : State) : Answer := onAwake (deadlineExpiry heat lap) s
/-- FINISH_LINE_EXPIRY (R104). -/
def execFinishLineExpiry (heat : Nat) (lap : Nat) (s : State) : Answer := onAwake (finishLineAll heat lap) s
/-- RELEASE_PORT_GRANT (R96). -/
def execReleasePortGrant (s : State) : Answer := onAwake releasePortGrant s
/-- FENCE_CLEAR (R95). -/
def execFenceClear (heat : Nat) (lap : Nat) (s : State) : Answer := onAwake (fenceClear heat lap) s
/-- WIN_CMD_FIXED (R111). -/
def execWinCmdFixed (v : Nat) (s : State) : Answer := onAlive (winCmd 1 v) s
/-- WIN_CMD_ADAPTIVE (R111). -/
def execWinCmdAdaptive (s : State) : Answer := onAlive (winCmd 2 0) s
/-- WIN_CMD_SET_WMIN (R110). -/
def execWinCmdSetWmin (v : Nat) (s : State) : Answer := onAlive (winCmd 3 v) s
/-- WIN_CMD_SET_WMAX (R110). -/
def execWinCmdSetWmax (v : Nat) (s : State) : Answer := onAlive (winCmd 4 v) s
/-- WIN_CMD_COMPLETE (R119). -/
def execWinCmdComplete (s : State) : Answer := onAlive winCmdComplete s

end Sys2Proof.Machine
end

