-- ==== Sys2Proof/Machine/CmdBus.lean ====
section
/-!
DEFINITION. The meanings of the commands of register accesses, rings and DMA (spec/14), one for each, over the operations of that unit.
-/
namespace Sys2Proof.Machine

/-- COUNTER_LO_READ (R81). -/
def execCounterLoRead (port : Nat) (s : State) : Answer := onAlive (counterLoRead port) s
/-- RC_REGISTER_READ (R5). -/
def execRcRegisterRead (addr : Nat) (s : State) : Answer := onAlive (busRead addr) s
/-- BAR0_BAD_ACCESS (R389). -/
def execBar0BadAccess (write : Bool) (addr : Nat) (size : Nat) (s : State) : Answer := onAlive (bar0Bad write addr size) s
/-- REGISTER_WRITE (R6). -/
def execRegisterWrite (addr : Nat) (v : Word) (s : State) : Answer := onAlive (busWrite addr v) s
/-- SQ_TAIL_DOORBELL (R394). -/
def execSqTailDoorbell (ring : Nat) (v : Word) (s : State) : Answer := onAlive (sqDoorbell ring v) s
/-- CQ_HEAD_DOORBELL (R394). -/
def execCqHeadDoorbell (ring : Nat) (v : Word) (s : State) : Answer := onAlive (cqDoorbell ring v) s
/-- RING_ENABLE (R392). -/
def execRingEnable (cq : Bool) (v : Word) (s : State) : Answer := onAlive (ringEnable cq v) s
/-- RING_DISABLE (R392). -/
def execRingDisable (cq : Bool) (s : State) : Answer := onAlive (ringDisable cq) s
/-- DESCRIPTOR_FETCH (R395). -/
def execDescriptorFetch (ch : Nat) (words : List Word) (list : List Word) (s : State) : Answer := onAwake (descriptorFetch ch words list) s
/-- OP_NOP (R398). -/
def execOpNop (ch : Nat) (s : State) : Answer := onAwake (opNop ch) s
/-- OP_TABLE_LOAD (R400). -/
def execOpTableLoad (ch : Nat) (s : State) : Answer := onAwake (opTableLoad ch) s
/-- OP_TABLE_READ (R399). -/
def execOpTableRead (ch : Nat) (s : State) : Answer := onAwake (fun d => opTableRead ch (d.preTableRead ch)) s
/-- OP_HEAT_ENABLE (R34). -/
def execOpHeatEnable (ch : Nat) (s : State) : Answer := onAwake (opHeatEnable ch) s
/-- OP_HEAT_DISABLE (R32). -/
def execOpHeatDisable (ch : Nat) (s : State) : Answer := onAwake (opHeatDisable ch) s
/-- OP_MEM_READ (R398). -/
def execOpMemRead (ch : Nat) (uncorrectable : Option Nat) (s : State) : Answer := onAwake (opMemRead ch uncorrectable) s
/-- OP_STREAM_READ (R407). -/
def execOpStreamRead (ch : Nat) (s : State) : Answer := onAwake (opStreamRead ch) s
/-- OP_UNDEFINED (R398). -/
def execOpUndefined (ch : Nat) (s : State) : Answer := onAwake (opUndefined ch) s
/-- DMA_READ_COMPLETION (R404). -/
def execDmaReadCompletion (ch : Nat) (data : List Byte) (ok : Bool) (s : State) : Answer := onAwake (dmaReadCompletion ch data ok) s
/-- CQ_COALESCE_TIMEOUT (R397). -/
def execCqCoalesceTimeout (ring : Nat) (s : State) : Answer := onAwake (coalesceTimeout ring) s
/-- DMA_CH_STOP (R403). -/
def execDmaChStop (ch : Nat) (s : State) : Answer := onAlive (dmaChStop ch) s
/-- DMA_ABORT_DONE (R403). -/
def execDmaAbortDone (ch : Nat) (s : State) : Answer := onAwake (dmaAbortDone ch) s
/-- DMA_CH_START (R403). -/
def execDmaChStart (ch : Nat) (s : State) : Answer := onAlive (dmaChStart ch) s
/-- STREAM_READ_IDLE_TIMEOUT (R407). -/
def execStreamReadIdleTimeout (ch : Nat) (s : State) : Answer := onAwake (streamIdle ch) s
/-- STREAM_FIFO_FLUSH (R408). -/
def execStreamFifoFlush (fifo : Nat) (s : State) : Answer := onAlive (placed (fifo < 3) (streamFlush fifo)) s
/-- PCIE_LINK_DOWN (R391). -/
def execPcieLinkDown (flr : Bool) (rate : Nat) (width : Nat) (s : State) : Answer := onAlive (pcieLinkDown flr rate width) s
/-- PCIE_LINK_UP (R391). -/
def execPcieLinkUp (rate : Nat) (width : Nat) (s : State) : Answer := onAlive (pcieLinkUp rate width) s

end Sys2Proof.Machine
end

