-- ==== Sys2Proof/Machine/CmdIngress.lean ====
section
/-!
DEFINITION. The meanings of the commands of stream ingress (spec/02), one for each, over the operations of that unit.
-/
namespace Sys2Proof.Machine

/-- ETH_FRAME_RECEIVED (R44). -/
def execEthFrameReceived (port : Nat) (bytes : List Byte) (codeError : Bool) (s : State) : Answer := onAwake (ethFrame port bytes codeError) s
/-- PARSER_TURN (R55). -/
def execParserTurn (uncorrectable : Bool) (s : State) : Answer := onAwake (parserTurn uncorrectable) s
/-- ETH_CFG_WRITE (R39). -/
def execEthCfgWrite (port : Nat) (v : Word) (s : State) : Answer := onAlive (ethCfgWrite port v) s
/-- ETH_LINK_CHANGE (R37). -/
def execEthLinkChange (port : Nat) (up : Bool) (anDone : Bool) (blockLock : Bool) (fecLock : Bool) (slow : Bool) (s : State) : Answer :=
  onAlive (ethLinkChange port up anDone blockLock fecLock slow) s
/-- TCP_SEGMENT_RECEIVED (R71). -/
def execTcpSegmentReceived (s : State) : Answer := onAwake tcpSegmentReceived s
/-- TCP_CONNECTION_OPEN (R69). -/
def execTcpConnectionOpen (conn : Nat) (next : Nat) (s : State) : Answer := onAwake (tcpConnectionOpen conn next) s
/-- TCP_RECONNECT_EXPIRY (R71). -/
def execTcpReconnectExpiry (conn : Nat) (ok : Bool) (next : Nat) (s : State) : Answer := onAwake (tcpReconnectExpiry conn ok next) s
/-- RGOOSE_LANE_WRITE (R76). -/
def execRgooseLaneWrite (lane : Nat) (lap : Nat) (s : State) : Answer := onAwake (rgooseLaneWrite lane lap) s

end Sys2Proof.Machine
end

