-- ==== Sys2Proof/Machine/CmdIntegrity.lean ====
section
/-!
DEFINITION. The meanings of the commands of memory integrity (spec/17), one for each, over the operations of that unit.
-/
namespace Sys2Proof.Machine

/-- SCRUB_READ (R463). -/
def execScrubRead (array : Nat) (bank : Nat) (index : Word) (kind : Nat) (place : Nat) (s : State) : Answer :=
  onAwake (scrubRead array bank index kind place) s
/-- SCRUB_PERIOD_END (R463). -/
def execScrubPeriodEnd (done : Bool) (array : Nat) (s : State) : Answer := onAwake (scrubPeriodEnd done array) s
/-- MERGE_ENTRY_TIMEOUT (R457). -/
def execMergeEntryTimeout (uncorrectable : Bool) (s : State) : Answer := onAlive (mergeTimeout uncorrectable) s
/-- MEM_INJECT_ARM (R464). -/
def execMemInjectArm (v : Word) (s : State) : Answer := onAlive (memInjWrite v) s
/-- MEM_GROUP_CLEAR (R461). -/
def execMemGroupClear (v : Word) (s : State) : Answer := onAlive (memGrpClear v) s

end Sys2Proof.Machine
end

