-- ==== Sys2Proof/Machine/CmdKeys.lean ====
section
/-!
DEFINITION. The meanings of the commands of the key store (spec/15), one for each, over the operations of that unit.
-/
namespace Sys2Proof.Machine

/-- KEY_CMD_WRITE (R416). -/
def execKeyCmdWrite (host : Bool) (slot : Nat) (mask : Nat) (s : State) : Answer := onAlive (keyGated host (keyWrite slot mask)) s
/-- KEY_CMD_ERASE (R417). -/
def execKeyCmdErase (host : Bool) (slot : Nat) (s : State) : Answer := onAlive (keyGated host (keyErase slot)) s
/-- KEY_CMD_SET_NEXT (R422). -/
def execKeyCmdSetNext (host : Bool) (group : Nat) (s : State) : Answer := onAlive (keyGated host (keySetNext group)) s
/-- KEY_CMD_ROLL (R422). -/
def execKeyCmdRoll (host : Bool) (group : Nat) (s : State) : Answer := onAlive (keyGated host (keyRoll group)) s
/-- KEY_CMD_CLEAR (R422). -/
def execKeyCmdClear (host : Bool) (group : Nat) (s : State) : Answer := onAlive (keyGated host (keyClear group)) s
/-- KEY_CMD_CLOSE_WINDOW (R415). -/
def execKeyCmdCloseWindow (host : Bool) (s : State) : Answer := onAlive (keyGated host keyCloseWindow) s
/-- KEY_UNLOCK (R415). -/
def execKeyUnlock (lo : Word) (s : State) : Answer := onAlive (keyUnlock lo) s
/-- PRIV_WINDOW_EXPIRY (R415). -/
def execPrivWindowExpiry (s : State) : Answer := onAlive privExpiry s
/-- ATTEST_REQUEST (R426). -/
def execAttestRequest (s : State) : Answer := onAlive attestRequest s
/-- ATTEST_READY (R426). -/
def execAttestReady (s : State) : Answer := onAlive attestReady s
/-- ATTEST_RELEASE (R409). -/
def execAttestRelease (v : Word) (s : State) : Answer := onAlive (attestRelease v) s
/-- TAMPER_ZEROISE (R427). -/
def execTamperZeroise (s : State) : Answer := onAny tamperZeroise s
/-- BOOT_DIGEST_EXTEND (R419). -/
def execBootDigestExtend (bd : Nat) (message : List Byte) (s : State) : Answer := onAlive (bootExtend bd message) s
/-- VBAT_LOSS (R413). -/
def execVbatLoss (s : State) : Answer := onAny vbatLoss s
/-- KEY_CMD_COMPLETE (R416). -/
def execKeyCmdComplete (s : State) : Answer := onAlive keyComplete s

end Sys2Proof.Machine
end

