-- ==== Sys2Proof/Machine/CmdLocal.lean ====
section
/-!
DEFINITION. The meanings of the commands of local inputs, filters and capture (spec/09), one for each, over the operations of that unit.
-/
namespace Sys2Proof.Machine

/-- LMF_GRP_WRITE (R264). -/
def execLmfGrpWrite (group : Nat) (v : Word) (s : State) : Answer := onAlive (placed (group < 8) (lmfGrpWrite group v)) s
/-- CHANNEL_FAULT (R265). -/
def execChannelFault (ch : Nat) (s : State) : Answer := onAlive (channelFault ch) s
/-- CHANNEL_FAULT_CLEAR (R265). -/
def execChannelFaultClear (ch : Nat) (s : State) : Answer := onAlive (placed (ch < 64) (channelFaultClear ch)) s
/-- CAPTURE_STROBE (R267). -/
def execCaptureStrobe (half : Bool) (bits : List Nat) (s : State) : Answer := onAwake (captureStrobe half bits) s
/-- PHASOR_STROBE (R267). -/
def execPhasorStrobe (half : Bool) (bits : List Nat) (s : State) : Answer := onAwake (phasorStrobe half bits) s
/-- LMF_CH_RUN_START (R272). -/
def execLmfChRunStart (ch : Nat) (v : Word) (s : State) : Answer := onAlive (placed (ch < 64) (lmfCtlWrite ch (v ||| 0x80000000#32))) s
/-- LMF_CH_RUN_STOP (R272). -/
def execLmfChRunStop (ch : Nat) (v : Word) (s : State) : Answer := onAlive (placed (ch < 64) (lmfCtlWrite ch (v &&& 0x7FFFFFFF#32))) s
/-- LMF_SWITCH_REQUEST (R274). -/
def execLmfSwitchRequest (ch : Nat) (v : Word) (s : State) : Answer := onAlive (placed (ch < 64) (lmfCtlWrite ch (v ||| 0x80000000#32))) s
/-- TRIGGER_EVAL_INSTANT (R287). -/
def execTriggerEvalInstant (nom60 : Bool) (s : State) : Answer := onAwake (triggerEvalInstant nom60) s
/-- ACQ_ARM (R283). -/
def execAcqArm (group : Nat) (s : State) : Answer := onAlive (acqArm group) s
/-- ACQ_DISARM (R284). -/
def execAcqDisarm (group : Nat) (s : State) : Answer := onAlive (placed (group < 8) (acqDisarm group)) s
/-- ACQ_FORCE (R284). -/
def execAcqForce (group : Nat) (s : State) : Answer := onAlive (placed (group < 8) (acqForce group)) s
/-- CAPTURE_RECORD_END (R284). -/
def execCaptureRecordEnd (group : Nat) (s : State) : Answer := onAwake (placed (group < 8) (captureRecordEnd group)) s
/-- ACQ_SLOT_RELEASE (R290). -/
def execAcqSlotRelease (v : Word) (s : State) : Answer := onAlive (acqSlotRelease v) s

end Sys2Proof.Machine
end

