-- ==== Sys2Proof/Machine/CmdLog.lean ====
section
/-!
DEFINITION. The meanings of the commands of Scorebook, journal and Rerun (spec/16), one for each, over the operations of that unit.
-/
namespace Sys2Proof.Machine

/-- SCB_FLUSH_WRITE (R435). -/
def execScbFlushWrite (s : State) : Answer := onAlive scbFlushWrite s
/-- SCOREBOOK_FLUSH_DONE (R438). -/
def execScorebookFlushDone (ok : Bool) (s : State) : Answer := onAlive (scbFlushDone ok) s
/-- SCOREBOOK_LOOKUP (R440). -/
def execScorebookLookup (seq : Word) (s : State) : Answer := onAlive (scbLookup seq) s
/-- SCOREBOOK_LOOKUP_DONE (R440). -/
def execScorebookLookupDone (s : State) : Answer := onAlive scbLookupDone s
/-- JOURNAL_DRAIN (R445). -/
def execJournalDrain (uncorrectable : Bool) (s : State) : Answer := onAwake (journalDrain uncorrectable) s
/-- CHECKPOINT_START (R446). -/
def execCheckpointStart (s : State) : Answer := onAwake checkpointStart s
/-- JNL_CKPT_WRITE (R446). -/
def execJnlCkptWrite (s : State) : Answer := onAlive jnlCkptWrite s
/-- CHECKPOINT_END (R446). -/
def execCheckpointEnd (s : State) : Answer := onAwake checkpointEnd s
/-- RERUN_GO (R448). -/
def execRerunGo (s : State) : Answer := onAlive rerunGo s
/-- RERUN_STOP (R448). -/
def execRerunStop (s : State) : Answer := onAlive rerunStop s
/-- RERUN_INPUT_WORD (R448). -/
def execRerunInputWord (v : Word) (s : State) : Answer := onAlive (rerunInput v) s
/-- RERUN_APPLY_ENTRY (R449). -/
def execRerunApplyEntry (uncorrectable : Bool) (s : State) : Answer := onAwake (rerunApply uncorrectable) s

end Sys2Proof.Machine
end

