-- ==== Sys2Proof/Machine/CmdMetering.lean ====
section
/-!
DEFINITION. The meanings of the commands of interchange energy (spec/10), one for each, over the operations of that unit.
-/
namespace Sys2Proof.Machine

/-- PLSI_LEVEL_CHANGE (R303). -/
def execPlsiLevelChange (input : Nat) (level : Bool) (s : State) : Answer := onAlive (plsiLevel input level) s
/-- PULSE_ACCEPT (R303). -/
def execPulseAccept (input : Nat) (s : State) : Answer := onAlive (placed (input < 32) (pulseAccept input)) s
/-- NRG_SNAPSHOT_REQUEST (R305). -/
def execNrgSnapshotRequest (point : Nat) (s : State) : Answer := onAlive (nrgSnapRequest point) s
/-- NRG_SNAPSHOT_COMPLETE (R305). -/
def execNrgSnapshotComplete (s : State) : Answer := onAlive nrgSnapComplete s
/-- NRG_SNAPSHOT_RELEASE (R409). -/
def execNrgSnapshotRelease (v : Word) (s : State) : Answer := onAlive (nrgSnapRelease v) s
/-- INTERVAL_CLOSE (R308). -/
def execIntervalClose (point : Nat) (s : State) : Answer := onAwake (placed (point < 512) (intervalClose point)) s
/-- INTERVAL_RECORD_DRAIN (R309). -/
def execIntervalRecordDrain (s : State) : Answer := onAwake (fun d => intervalRecordDrain d.preInterval) s
/-- PULSE_OUTPUT_ENABLE (R310). -/
def execPulseOutputEnable (k : Nat) (v : Word) (s : State) : Answer := onAlive (placed (k < 32) (poCfgWrite k (v ||| 0x80000000#32))) s
/-- PULSE_OUTPUT_DISABLE (R311). -/
def execPulseOutputDisable (k : Nat) (v : Word) (s : State) : Answer := onAlive (placed (k < 32) (poCfgWrite k (v &&& 0x7FFFFFFF#32))) s
/-- PULSE_OUTPUT_PHASE_END (R310). -/
def execPulseOutputPhaseEnd (k : Nat) (s : State) : Answer := onAwake (placed (k < 32) (pulsePhaseEnd k)) s

end Sys2Proof.Machine
end

