-- ==== Sys2Proof/Machine/CmdModes.lean ====
section
/-!
DEFINITION. The meanings of the commands of modes, power and health (spec/19), one for each, over the operations of that unit.
-/
namespace Sys2Proof.Machine

/-- RESET_N_ASSERT (R487). -/
def execResetNAssert (s : State) : Answer := onAny resetAssert s
/-- WARMUP_ENTRY (R487). -/
def execWarmupEntry (s : State) : Answer := onAny warmupEntry s
/-- WARMUP_COMPLETE (R490). -/
def execWarmupComplete (fail : Nat) (libVer : Word) (token : Nat) (s : State) : Answer := onAlive (warmupComplete fail libVer token) s
/-- PWR_GO_RACE (R487). -/
def execPwrGoRace (s : State) : Answer := onAlive pwrGoRace s
/-- PWR_GO_RERUN (R487). -/
def execPwrGoRerun (s : State) : Answer := onAlive pwrGoRerun s
/-- PWR_RESET_KEY (R489). -/
def execPwrResetKey (key : Nat) (s : State) : Answer := onAlive (pwrResetKey key) s
/-- PFW_N_FALL (R493). -/
def execPfwNFall (s : State) : Answer := onAny pfwFall s
/-- SAVE_WRITE_DONE (R492). -/
def execSaveWriteDone (ok : Bool) (us : Nat) (s : State) : Answer := onAlive (saveDone ok us) s
/-- HOLD_END (R493). -/
def execHoldEnd (s : State) : Answer := onAlive holdEnd s
/-- AUTO_RESTART_EXPIRY (R494). -/
def execAutoRestartExpiry (s : State) : Answer := onAny autoRestart s
/-- WATCHDOG_EXPIRY (R494). -/
def execWatchdogExpiry (s : State) : Answer := onAlive watchdogExpiry s
/-- CLOCK_LOSS (R491). -/
def execClockLoss (s : State) : Answer := onAlive clockLoss s
/-- HEALTH_SAMPLE (R495). -/
def execHealthSample (readings : List Nat) (s : State) : Answer := onAlive (healthSample readings) s
/-- HEALTH_SNAPSHOT_REQUEST (R497). -/
def execHealthSnapshotRequest (s : State) : Answer := onAlive snapRequest s
/-- HEALTH_SNAPSHOT_READY (R497). -/
def execHealthSnapshotReady (s : State) : Answer := onAlive snapReady s
/-- HEALTH_SNAPSHOT_RELEASE (R409). -/
def execHealthSnapshotRelease (v : Word) (s : State) : Answer := onAlive (snapRelease v) s
/-- MAIN_POWER_LOSS (R418). -/
def execMainPowerLoss (s : State) : Answer := onAny powerLoss s
/-- MAIN_POWER_UP (R500). -/
def execMainPowerUp (s : State) : Answer := onAny powerUp s

end Sys2Proof.Machine
end

