-- ==== Sys2Proof/Machine/CmdMonitor.lean ====
section
/-!
DEFINITION. The meanings of the commands of the oscillation monitor and island detection (spec/05, spec/06), one for each, over the operations of that unit.
-/
namespace Sys2Proof.Machine

/-- OSM_RUN_START (R160). -/
def execOsmRunStart (s : State) : Answer := onAlive osmRunStart s
/-- OSM_START_SAMPLE (R161). -/
def execOsmStartSample (s : State) : Answer := onAwake osmStartSample s
/-- OSM_RUN_STOP (R161). -/
def execOsmRunStop (s : State) : Answer := onAlive osmRunStop s
/-- ISL_SWAP_REQUEST (R207). -/
def execIslSwapRequest (s : State) : Answer := onAlive islSwapRequest s

end Sys2Proof.Machine
end

