-- ==== Sys2Proof/Machine/CmdOutputs.lean ====
section
/-!
DEFINITION. The meanings of the commands of alarms and egress (spec/08), one for each, over the operations of that unit.
-/
namespace Sys2Proof.Machine

/-- ALM_THR_CMD_THR_A (R244). -/
def execAlmThrCmdThrA (s : State) : Answer := onAlive (almThr 1) s
/-- ALM_THR_CMD_HYS_A (R244). -/
def execAlmThrCmdHysA (s : State) : Answer := onAlive (almThr 2) s
/-- ALM_THR_CMD_THR_B (R244). -/
def execAlmThrCmdThrB (s : State) : Answer := onAlive (almThr 3) s
/-- ALARM_RECORD_DRAIN (R246). -/
def execAlarmRecordDrain (s : State) : Answer := onAwake (fun d => alarmRecordDrain d.preAlarm) s
/-- AOUT_LATCH_CLEAR (R247). -/
def execAoutLatchClear (v : Word) (s : State) : Answer := onAlive (aoutClr v) s
/-- AOUT_FORCE_WRITE (R247). -/
def execAoutForceWrite (k : Nat) (v : Word) (s : State) : Answer := onAlive (placed (k < 16) (aoutCfgWrite k v)) s
/-- AOUT_MIN_ON_EXPIRY (R247). -/
def execAoutMinOnExpiry (k : Nat) (s : State) : Answer := onAwake (aoutMinOnExpiry k) s
/-- GOOSE_RETRANSMIT (R251). -/
def execGooseRetransmit (pub : Nat) (s : State) : Answer := onAwake (gooseRetransmit pub) s
/-- C37_CFG_PERIODIC (R256). -/
def execC37CfgPeriodic (client : Nat) (s : State) : Answer := onAwake (c37CfgPeriodic client) s
/-- EGRESS_TCP_ACCEPT (R256). -/
def execEgressTcpAccept (conn : Nat) (port : Nat) (v6 : Bool) (addr : Nat) (peerPort : Nat) (mss : Nat) (iss : Nat) (rcv : Nat) (s : State) : Answer :=
  onAwake (egressTcpAccept conn port v6 addr peerPort mss iss rcv) s
/-- C37_CMD_TX_OFF (R256). -/
def execC37CmdTxOff (tcp : Bool) (sender : Nat) (idcode : Nat) (s : State) : Answer := onAwake (c37Cmd 1 tcp sender idcode) s
/-- C37_CMD_TX_ON (R256). -/
def execC37CmdTxOn (tcp : Bool) (sender : Nat) (idcode : Nat) (s : State) : Answer := onAwake (c37Cmd 2 tcp sender idcode) s
/-- C37_CMD_SEND_HDR (R256). -/
def execC37CmdSendHdr (tcp : Bool) (sender : Nat) (idcode : Nat) (s : State) : Answer := onAwake (c37Cmd 3 tcp sender idcode) s
/-- C37_CMD_SEND_CFG1 (R256). -/
def execC37CmdSendCfg1 (tcp : Bool) (sender : Nat) (idcode : Nat) (s : State) : Answer := onAwake (c37Cmd 4 tcp sender idcode) s
/-- C37_CMD_SEND_CFG2 (R256). -/
def execC37CmdSendCfg2 (tcp : Bool) (sender : Nat) (idcode : Nat) (s : State) : Answer := onAwake (c37Cmd 5 tcp sender idcode) s
/-- C37_CMD_SEND_CFG3 (R256). -/
def execC37CmdSendCfg3 (tcp : Bool) (sender : Nat) (idcode : Nat) (s : State) : Answer := onAwake (c37Cmd 6 tcp sender idcode) s
/-- C37_CMD_OTHER (R256). -/
def execC37CmdOther (cmd : Nat) (tcp : Bool) (sender : Nat) (idcode : Nat) (s : State) : Answer := onAwake (c37CmdOther cmd tcp sender idcode) s
/-- EGRESS_TCP_ACK_RECEIVED (R257). -/
def execEgressTcpAckReceived (conn : Nat) (ack : Nat) (s : State) : Answer := onAwake (egressTcpAck conn ack) s
/-- EGRESS_TCP_RTO (R257). -/
def execEgressTcpRto (conn : Nat) (s : State) : Answer := onAwake (egressTcpRto conn) s
/-- TX_FRAME_COMPLETE (R329). -/
def execTxFrameComplete (port : Nat) (stamp : Nat) (firmware : Nat) (s : State) : Answer := onAwake (txFrameComplete port stamp firmware) s

end Sys2Proof.Machine
end

