-- ==== Sys2Proof/Machine/CmdPacer.lean ====
section
/-!
DEFINITION. The meanings of the commands of the Pacer and the Starter (spec/04, spec/07), one for each, over the operations of that unit.
-/
namespace Sys2Proof.Machine

/-- TASK_PLACE (R222). -/
def execTaskPlace (s : State) : Answer := onAwake taskPlace s
/-- TASK_GATHER_DONE (R124). -/
def execTaskGatherDone (inst : Nat) (lap : Nat) (seq : Nat) (bad : List Nat) (uncorrectable : Bool) (s : State) : Answer :=
  onAwake (taskGatherDone inst lap seq bad uncorrectable) s
/-- TASK_COMMIT (R224). -/
def execTaskCommit (inst : Nat) (lap : Nat) (seq : Nat) (uncorrectable : Bool) (s : State) : Answer :=
  onAwake (fun d => taskCommit inst lap seq uncorrectable (d.preCommit inst)) s
/-- RESIDUE_MISMATCH (R129). -/
def execResidueMismatch (inst : Nat) (lap : Nat) (seq : Nat) (unit : Nat) (injected : Bool) (s : State) : Answer :=
  onAwake (residueMismatch inst lap seq unit injected) s
/-- ENGINE_SUSPECT_EXPIRY (R132). -/
def execEngineSuspectExpiry (engine : Nat) (s : State) : Answer := onAwake (engineSuspectExpiry engine) s
/-- PAC_ENG_CLR_GO (R133). -/
def execPacEngClrGo (v : Word) (s : State) : Answer := onAlive (pacEngClr v) s
/-- SELF_TEST_DONE (R133). -/
def execSelfTestDone (pass : Bool) (s : State) : Answer := onAwake (selfTestDone pass) s
/-- RES_INJ_ARM (R151). -/
def execResInjArm (v : Word) (s : State) : Answer := onAlive (resInjWrite v) s
/-- INSTANCE_TIMER_EXPIRY (R217). -/
def execInstanceTimerExpiry (heat : Nat) (lap : Nat) (offset : Nat) (s : State) : Answer := onAwake (instanceTimerExpiry heat lap offset) s
/-- HELD_PRODUCER_RESUME (R227). -/
def execHeldProducerResume (k : Nat) (s : State) : Answer := onAwake (heldResume k) s
/-- SRT_CFG_RSV_WRITE (R214). -/
def execSrtCfgRsvWrite (v : Word) (s : State) : Answer := onAlive (srtCfgWrite v) s
/-- SRT_UNIT_ADMIN_WRITE (R229). -/
def execSrtUnitAdminWrite (v : Word) (s : State) : Answer := onAlive (srtUnitWrite v) s

end Sys2Proof.Machine
end

