-- ==== Sys2Proof/Machine/CmdPair.lean ====
section
/-!
DEFINITION. The meanings of the commands of the relay pair (spec/13), one for each, over the operations of that unit.
-/
namespace Sys2Proof.Machine

/-- BATON_TOGGLE (R375). -/
def execBatonToggle (s : State) : Answer := onAlive batonToggle s
/-- BATON_EDGE_SEEN (R377). -/
def execBatonEdgeSeen (s : State) : Answer := onAlive batonEdge s
/-- BATON_SILENCE_TIMEOUT (R376). -/
def execBatonSilenceTimeout (s : State) : Answer := onAlive batonSilence s
/-- BATON_WATCH_END (R378). -/
def execBatonWatchEnd (s : State) : Answer := onAlive batonWatchEnd s
/-- DRIVER_ENABLE_DELAY (R377). -/
def execDriverEnableDelay (s : State) : Answer := onAwake driverEnable s
/-- HEARTBEAT_MISSING (R375). -/
def execHeartbeatMissing (s : State) : Answer := onAlive heartbeatMissing s
/-- HANDOVER_REQUEST (R383). -/
def execHandoverRequest (s : State) : Answer := onAlive handoverRequest s
/-- HANDOVER_RELEASE (R383). -/
def execHandoverRelease (s : State) : Answer := onAlive handoverRelease s
/-- RESYNC_REQUEST (R374). -/
def execResyncRequest (s : State) : Answer := onAlive resyncRequest s
/-- CHECKPOINT_LOAD (R374). -/
def execCheckpointLoad (s : State) : Answer := onAwake checkpointLoad s

end Sys2Proof.Machine
end

