-- ==== Sys2Proof/Machine/CmdRharix.lean ====
section
/-!
DEFINITION. The meanings of the commands of Rharix federation (spec/12), one for each, over the operations of that unit.
-/
namespace Sys2Proof.Machine

/-- RXL_FRAME_RECEIVED (R348). -/
def execRxlFrameReceived (lane : Nat) (bytes : List Byte) (s : State) : Answer := onAwake (rxlFrameReceived lane bytes) s
/-- RXL_ACK_DELAY_EXPIRY (R350). -/
def execRxlAckDelayExpiry (link : Nat) (s : State) : Answer := onAwake (placed (link < 64) (rxlAckDelay link)) s
/-- RXL_RETRANSMIT_TIMEOUT (R350). -/
def execRxlRetransmitTimeout (link : Nat) (cls : Nat) (s : State) : Answer := onAwake (placed (link < 64) (rxlRetransmit link cls)) s
/-- CADENCE_SEND (R351). -/
def execCadenceSend (peer : Bool) (n : Nat) (s : State) : Answer := onAwake (cadenceSend peer n) s
/-- PEER_LOSS_TIMEOUT (R351). -/
def execPeerLossTimeout (dev : Nat) (s : State) : Answer := onAwake (peerLost dev) s
/-- RXL_CADENCE_TIMEOUT (R353). -/
def execRxlCadenceTimeout (link : Nat) (s : State) : Answer := onAwake (placed (link < 64) (rxlCadTimeout link)) s
/-- RXL_LOCK_CHANGE (R353). -/
def execRxlLockChange (lane : Nat) (lock : Bool) (s : State) : Answer := onAlive (placed (lane < 4) (rxlLock lane lock)) s
/-- RXL_PORT_ENABLE (R342). -/
def execRxlPortEnable (lane : Nat) (v : Word) (s : State) : Answer := onAlive (placed (lane < 4) (rxlPortWrite lane v)) s
/-- RXL_TRAINING_DONE (R342). -/
def execRxlTrainingDone (lane : Nat) (s : State) : Answer := onAlive (placed (lane < 4) (rxlTrained lane)) s
/-- PART_WAIT_EXPIRY (R363). -/
def execPartWaitExpiry (heat : Nat) (lap : Nat) (s : State) : Answer := onAwake (partWaitExpiry heat lap) s

end Sys2Proof.Machine
end

