-- ==== Sys2Proof/Machine/CmdTime.lean ====
section
/-!
DEFINITION. The meanings of the commands of the Timekeeper (spec/11), one for each, over the operations of that unit.
-/
namespace Sys2Proof.Machine

/-- PTP_MESSAGE_RECEIVED (R325). -/
def execPtpMessageReceived (stamp : Nat) (s : State) : Answer := onAwake (ptpMessageReceived stamp) s
/-- PTP_ANNOUNCE_TIMEOUT (R321). -/
def execPtpAnnounceTimeout (port : Nat) (s : State) : Answer := onAwake (placed (port < 8) (ptpAnnounceTimeout port)) s
/-- PTP_TRANSMIT_TIMER (R326). -/
def execPtpTransmitTimer (port : Nat) (kind : Nat) (s : State) : Answer := onAwake (placed (port < 8) (ptpTransmit port kind)) s
/-- IRIG_FRAME_RECEIVED (R330). -/
def execIrigFrameReceived (form : Nat) (symbols : List Nat) (edge : Nat) (s : State) : Answer := onAlive (irigFrame form symbols edge) s
/-- IRIG_FRAME_MISSING (R321). -/
def execIrigFrameMissing (s : State) : Answer := onAlive irigMissing s
/-- PPS_IN_EDGE (R330). -/
def execPpsInEdge (rising : Bool) (edge : Nat) (s : State) : Answer := onAlive (ppsEdge rising edge) s
/-- PPS_WINDOW_MISSED (R321). -/
def execPpsWindowMissed (s : State) : Answer := onAlive ppsMissed s
/-- SOURCE_QUALIFIED (R321). -/
def execSourceQualified (source : Nat) (s : State) : Answer := onAlive (placed (1 ≤ source ∧ source ≤ 3) (sourceQualified source)) s
/-- SYNC_LIMIT_CROSSING (R335). -/
def execSyncLimitCrossing (s : State) : Answer := onAlive syncLimit s
/-- UNLOCK_INTERVAL_EXPIRY (R336). -/
def execUnlockIntervalExpiry (s : State) : Answer := onAlive unlockExpiry s
/-- TK_INC_FRAC_WRITE (R320). -/
def execTkIncFracWrite (v : Word) (s : State) : Answer := onAlive (tkIncFracWrite v) s
/-- TK_CMD_STEP (R324). -/
def execTkCmdStep (v : Word) (s : State) : Answer := onAlive (tkCmdWrite v) s
/-- LEAP_APPLY (R331). -/
def execLeapApply (s : State) : Answer := onAlive leapApply s
/-- PPS_OUT_PULSE (R330). -/
def execPpsOutPulse (s : State) : Answer := onAlive ppsOut s
/-- MGT_FRAME_RECEIVED (R338). -/
def execMgtFrameReceived (dated : Nat) (bytes : List Byte) (s : State) : Answer := onAwake (mgtFrame dated bytes) s
/-- ETH_TXTS_POP (R329). -/
def execEthTxtsPop (port : Nat) (v : Word) (s : State) : Answer := onAlive (placed (port < 8) (txtsPop port v)) s
/-- ETH_TXTS_ID_READ (R329). -/
def execEthTxtsIdRead (port : Nat) (s : State) : Answer := onAlive (placed (port < 8) (txtsIdRead port)) s
/-- TK_NOW_NS_READ (R319). -/
def execTkNowNsRead (s : State) : Answer := onAlive tkNowRead s
/-- CLK_TK_TICK (R317). -/
def execClkTkTick (s : State) : Answer := onAlive tkTickAll s

end Sys2Proof.Machine
end

