-- ==== Sys2Proof/Machine/Dispatch.lean ====
section
/-!
DEFINITION. The dispatch of a command to its meaning.
-/
namespace Sys2Proof.Machine

def exec (i : Instr) (s : State) : Host.Outcome State Fault Refusal :=
  match i with
  | .ethFrameReceived port bytes codeError => Sys2Proof.Machine.execEthFrameReceived port bytes codeError s
  | .parserTurn uncorrectable => Sys2Proof.Machine.execParserTurn uncorrectable s
  | .ethCfgWrite port v => Sys2Proof.Machine.execEthCfgWrite port v s
  | .ethLinkChange port up anDone blockLock fecLock slow => Sys2Proof.Machine.execEthLinkChange port up anDone blockLock fecLock slow s
  | .tcpSegmentReceived => Sys2Proof.Machine.execTcpSegmentReceived s
  | .tcpConnectionOpen conn next => Sys2Proof.Machine.execTcpConnectionOpen conn next s
  | .tcpReconnectExpiry conn ok next => Sys2Proof.Machine.execTcpReconnectExpiry conn ok next s
  | .rgooseLaneWrite lane lap => Sys2Proof.Machine.execRgooseLaneWrite lane lap s
  | .lapOpen heat lap => Sys2Proof.Machine.execLapOpen heat lap s
  | .lapSkip heat lap => Sys2Proof.Machine.execLapSkip heat lap s
  | .deadlineExpiry heat lap => Sys2Proof.Machine.execDeadlineExpiry heat lap s
  | .finishLineExpiry heat lap => Sys2Proof.Machine.execFinishLineExpiry heat lap s
  | .releasePortGrant => Sys2Proof.Machine.execReleasePortGrant s
  | .fenceClear heat lap => Sys2Proof.Machine.execFenceClear heat lap s
  | .winCmdFixed v => Sys2Proof.Machine.execWinCmdFixed v s
  | .winCmdAdaptive => Sys2Proof.Machine.execWinCmdAdaptive s
  | .winCmdSetWmin v => Sys2Proof.Machine.execWinCmdSetWmin v s
  | .winCmdSetWmax v => Sys2Proof.Machine.execWinCmdSetWmax v s
  | .taskPlace => Sys2Proof.Machine.execTaskPlace s
  | .taskGatherDone inst lap seq bad uncorrectable => Sys2Proof.Machine.execTaskGatherDone inst lap seq bad uncorrectable s
  | .taskCommit inst lap seq uncorrectable => Sys2Proof.Machine.execTaskCommit inst lap seq uncorrectable s
  | .residueMismatch inst lap seq unit injected => Sys2Proof.Machine.execResidueMismatch inst lap seq unit injected s
  | .engineSuspectExpiry engine => Sys2Proof.Machine.execEngineSuspectExpiry engine s
  | .pacEngClrGo v => Sys2Proof.Machine.execPacEngClrGo v s
  | .selfTestDone pass => Sys2Proof.Machine.execSelfTestDone pass s
  | .resInjArm v => Sys2Proof.Machine.execResInjArm v s
  | .instanceTimerExpiry heat lap offset => Sys2Proof.Machine.execInstanceTimerExpiry heat lap offset s
  | .heldProducerResume k => Sys2Proof.Machine.execHeldProducerResume k s
  | .srtCfgRsvWrite v => Sys2Proof.Machine.execSrtCfgRsvWrite v s
  | .srtUnitAdminWrite v => Sys2Proof.Machine.execSrtUnitAdminWrite v s
  | .osmRunStart => Sys2Proof.Machine.execOsmRunStart s
  | .osmStartSample => Sys2Proof.Machine.execOsmStartSample s
  | .osmRunStop => Sys2Proof.Machine.execOsmRunStop s
  | .islSwapRequest => Sys2Proof.Machine.execIslSwapRequest s
  | .almThrCmdThrA => Sys2Proof.Machine.execAlmThrCmdThrA s
  | .almThrCmdHysA => Sys2Proof.Machine.execAlmThrCmdHysA s
  | .almThrCmdThrB => Sys2Proof.Machine.execAlmThrCmdThrB s
  | .alarmRecordDrain => Sys2Proof.Machine.execAlarmRecordDrain s
  | .aoutLatchClear v => Sys2Proof.Machine.execAoutLatchClear v s
  | .aoutForceWrite k v => Sys2Proof.Machine.execAoutForceWrite k v s
  | .aoutMinOnExpiry k => Sys2Proof.Machine.execAoutMinOnExpiry k s
  | .gooseRetransmit pub => Sys2Proof.Machine.execGooseRetransmit pub s
  | .c37CfgPeriodic client => Sys2Proof.Machine.execC37CfgPeriodic client s
  | .egressTcpAccept conn port v6 addr peerPort mss iss rcv => Sys2Proof.Machine.execEgressTcpAccept conn port v6 addr peerPort mss iss rcv s
  | .c37CmdTxOff tcp sender idcode => Sys2Proof.Machine.execC37CmdTxOff tcp sender idcode s
  | .c37CmdTxOn tcp sender idcode => Sys2Proof.Machine.execC37CmdTxOn tcp sender idcode s
  | .c37CmdSendHdr tcp sender idcode => Sys2Proof.Machine.execC37CmdSendHdr tcp sender idcode s
  | .c37CmdSendCfg1 tcp sender idcode => Sys2Proof.Machine.execC37CmdSendCfg1 tcp sender idcode s
  | .c37CmdSendCfg2 tcp sender idcode => Sys2Proof.Machine.execC37CmdSendCfg2 tcp sender idcode s
  | .c37CmdSendCfg3 tcp sender idcode => Sys2Proof.Machine.execC37CmdSendCfg3 tcp sender idcode s
  | .c37CmdOther cmd tcp sender idcode => Sys2Proof.Machine.execC37CmdOther cmd tcp sender idcode s
  | .egressTcpAckReceived conn ack => Sys2Proof.Machine.execEgressTcpAckReceived conn ack s
  | .egressTcpRto conn => Sys2Proof.Machine.execEgressTcpRto conn s
  | .txFrameComplete port stamp firmware => Sys2Proof.Machine.execTxFrameComplete port stamp firmware s
  | .lmfGrpWrite group v => Sys2Proof.Machine.execLmfGrpWrite group v s
  | .channelFault ch => Sys2Proof.Machine.execChannelFault ch s
  | .channelFaultClear ch => Sys2Proof.Machine.execChannelFaultClear ch s
  | .captureStrobe half bits => Sys2Proof.Machine.execCaptureStrobe half bits s
  | .phasorStrobe half bits => Sys2Proof.Machine.execPhasorStrobe half bits s
  | .lmfChRunStart ch v => Sys2Proof.Machine.execLmfChRunStart ch v s
  | .lmfChRunStop ch v => Sys2Proof.Machine.execLmfChRunStop ch v s
  | .lmfSwitchRequest ch v => Sys2Proof.Machine.execLmfSwitchRequest ch v s
  | .triggerEvalInstant nom60 => Sys2Proof.Machine.execTriggerEvalInstant nom60 s
  | .acqArm group => Sys2Proof.Machine.execAcqArm group s
  | .acqDisarm group => Sys2Proof.Machine.execAcqDisarm group s
  | .acqForce group => Sys2Proof.Machine.execAcqForce group s
  | .captureRecordEnd group => Sys2Proof.Machine.execCaptureRecordEnd group s
  | .acqSlotRelease v => Sys2Proof.Machine.execAcqSlotRelease v s
  | .plsiLevelChange input level => Sys2Proof.Machine.execPlsiLevelChange input level s
  | .pulseAccept input => Sys2Proof.Machine.execPulseAccept input s
  | .nrgSnapshotRequest point => Sys2Proof.Machine.execNrgSnapshotRequest point s
  | .nrgSnapshotComplete => Sys2Proof.Machine.execNrgSnapshotComplete s
  | .nrgSnapshotRelease v => Sys2Proof.Machine.execNrgSnapshotRelease v s
  | .intervalClose point => Sys2Proof.Machine.execIntervalClose point s
  | .intervalRecordDrain => Sys2Proof.Machine.execIntervalRecordDrain s
  | .pulseOutputEnable k v => Sys2Proof.Machine.execPulseOutputEnable k v s
  | .pulseOutputDisable k v => Sys2Proof.Machine.execPulseOutputDisable k v s
  | .pulseOutputPhaseEnd k => Sys2Proof.Machine.execPulseOutputPhaseEnd k s
  | .ptpMessageReceived stamp => Sys2Proof.Machine.execPtpMessageReceived stamp s
  | .ptpAnnounceTimeout port => Sys2Proof.Machine.execPtpAnnounceTimeout port s
  | .ptpTransmitTimer port kind => Sys2Proof.Machine.execPtpTransmitTimer port kind s
  | .irigFrameReceived form symbols edge => Sys2Proof.Machine.execIrigFrameReceived form symbols edge s
  | .irigFrameMissing => Sys2Proof.Machine.execIrigFrameMissing s
  | .ppsInEdge rising edge => Sys2Proof.Machine.execPpsInEdge rising edge s
  | .ppsWindowMissed => Sys2Proof.Machine.execPpsWindowMissed s
  | .sourceQualified source => Sys2Proof.Machine.execSourceQualified source s
  | .syncLimitCrossing => Sys2Proof.Machine.execSyncLimitCrossing s
  | .unlockIntervalExpiry => Sys2Proof.Machine.execUnlockIntervalExpiry s
  | .tkIncFracWrite v => Sys2Proof.Machine.execTkIncFracWrite v s
  | .tkCmdStep v => Sys2Proof.Machine.execTkCmdStep v s
  | .leapApply => Sys2Proof.Machine.execLeapApply s
  | .ppsOutPulse => Sys2Proof.Machine.execPpsOutPulse s
  | .mgtFrameReceived dated bytes => Sys2Proof.Machine.execMgtFrameReceived dated bytes s
  | .ethTxtsPop port v => Sys2Proof.Machine.execEthTxtsPop port v s
  | .ethTxtsIdRead port => Sys2Proof.Machine.execEthTxtsIdRead port s
  | .tkNowNsRead => Sys2Proof.Machine.execTkNowNsRead s
  | .counterLoRead port => Sys2Proof.Machine.execCounterLoRead port s
  | .rcRegisterRead addr => Sys2Proof.Machine.execRcRegisterRead addr s
  | .rxlFrameReceived lane bytes => Sys2Proof.Machine.execRxlFrameReceived lane bytes s
  | .rxlAckDelayExpiry link => Sys2Proof.Machine.execRxlAckDelayExpiry link s
  | .rxlRetransmitTimeout link cls => Sys2Proof.Machine.execRxlRetransmitTimeout link cls s
  | .cadenceSend peer n => Sys2Proof.Machine.execCadenceSend peer n s
  | .peerLossTimeout dev => Sys2Proof.Machine.execPeerLossTimeout dev s
  | .rxlCadenceTimeout link => Sys2Proof.Machine.execRxlCadenceTimeout link s
  | .rxlLockChange lane lock => Sys2Proof.Machine.execRxlLockChange lane lock s
  | .rxlPortEnable lane v => Sys2Proof.Machine.execRxlPortEnable lane v s
  | .rxlTrainingDone lane => Sys2Proof.Machine.execRxlTrainingDone lane s
  | .partWaitExpiry heat lap => Sys2Proof.Machine.execPartWaitExpiry heat lap s
  | .batonToggle => Sys2Proof.Machine.execBatonToggle s
  | .batonEdgeSeen => Sys2Proof.Machine.execBatonEdgeSeen s
  | .batonSilenceTimeout => Sys2Proof.Machine.execBatonSilenceTimeout s
  | .batonWatchEnd => Sys2Proof.Machine.execBatonWatchEnd s
  | .driverEnableDelay => Sys2Proof.Machine.execDriverEnableDelay s
  | .heartbeatMissing => Sys2Proof.Machine.execHeartbeatMissing s
  | .handoverRequest => Sys2Proof.Machine.execHandoverRequest s
  | .handoverRelease => Sys2Proof.Machine.execHandoverRelease s
  | .resyncRequest => Sys2Proof.Machine.execResyncRequest s
  | .checkpointLoad => Sys2Proof.Machine.execCheckpointLoad s
  | .bar0BadAccess write addr size => Sys2Proof.Machine.execBar0BadAccess write addr size s
  | .registerWrite addr v => Sys2Proof.Machine.execRegisterWrite addr v s
  | .sqTailDoorbell ring v => Sys2Proof.Machine.execSqTailDoorbell ring v s
  | .cqHeadDoorbell ring v => Sys2Proof.Machine.execCqHeadDoorbell ring v s
  | .ringEnable cq v => Sys2Proof.Machine.execRingEnable cq v s
  | .ringDisable cq => Sys2Proof.Machine.execRingDisable cq s
  | .descriptorFetch ch words list => Sys2Proof.Machine.execDescriptorFetch ch words list s
  | .opNop ch => Sys2Proof.Machine.execOpNop ch s
  | .opTableLoad ch => Sys2Proof.Machine.execOpTableLoad ch s
  | .opTableRead ch => Sys2Proof.Machine.execOpTableRead ch s
  | .opHeatEnable ch => Sys2Proof.Machine.execOpHeatEnable ch s
  | .opHeatDisable ch => Sys2Proof.Machine.execOpHeatDisable ch s
  | .opMemRead ch uncorrectable => Sys2Proof.Machine.execOpMemRead ch uncorrectable s
  | .opStreamRead ch => Sys2Proof.Machine.execOpStreamRead ch s
  | .opUndefined ch => Sys2Proof.Machine.execOpUndefined ch s
  | .dmaReadCompletion ch data ok => Sys2Proof.Machine.execDmaReadCompletion ch data ok s
  | .cqCoalesceTimeout ring => Sys2Proof.Machine.execCqCoalesceTimeout ring s
  | .dmaChStop ch => Sys2Proof.Machine.execDmaChStop ch s
  | .dmaAbortDone ch => Sys2Proof.Machine.execDmaAbortDone ch s
  | .dmaChStart ch => Sys2Proof.Machine.execDmaChStart ch s
  | .streamReadIdleTimeout ch => Sys2Proof.Machine.execStreamReadIdleTimeout ch s
  | .streamFifoFlush fifo => Sys2Proof.Machine.execStreamFifoFlush fifo s
  | .pcieLinkDown flr rate width => Sys2Proof.Machine.execPcieLinkDown flr rate width s
  | .keyCmdWrite host slot mask => Sys2Proof.Machine.execKeyCmdWrite host slot mask s
  | .keyCmdErase host slot => Sys2Proof.Machine.execKeyCmdErase host slot s
  | .keyCmdSetNext host group => Sys2Proof.Machine.execKeyCmdSetNext host group s
  | .keyCmdRoll host group => Sys2Proof.Machine.execKeyCmdRoll host group s
  | .keyCmdClear host group => Sys2Proof.Machine.execKeyCmdClear host group s
  | .keyCmdCloseWindow host => Sys2Proof.Machine.execKeyCmdCloseWindow host s
  | .keyUnlock lo => Sys2Proof.Machine.execKeyUnlock lo s
  | .privWindowExpiry => Sys2Proof.Machine.execPrivWindowExpiry s
  | .attestRequest => Sys2Proof.Machine.execAttestRequest s
  | .attestReady => Sys2Proof.Machine.execAttestReady s
  | .attestRelease v => Sys2Proof.Machine.execAttestRelease v s
  | .tamperZeroise => Sys2Proof.Machine.execTamperZeroise s
  | .bootDigestExtend bd message => Sys2Proof.Machine.execBootDigestExtend bd message s
  | .scbFlushWrite => Sys2Proof.Machine.execScbFlushWrite s
  | .scorebookFlushDone ok => Sys2Proof.Machine.execScorebookFlushDone ok s
  | .scorebookLookup seq => Sys2Proof.Machine.execScorebookLookup seq s
  | .scorebookLookupDone => Sys2Proof.Machine.execScorebookLookupDone s
  | .journalDrain uncorrectable => Sys2Proof.Machine.execJournalDrain uncorrectable s
  | .checkpointStart => Sys2Proof.Machine.execCheckpointStart s
  | .jnlCkptWrite => Sys2Proof.Machine.execJnlCkptWrite s
  | .checkpointEnd => Sys2Proof.Machine.execCheckpointEnd s
  | .rerunGo => Sys2Proof.Machine.execRerunGo s
  | .rerunStop => Sys2Proof.Machine.execRerunStop s
  | .rerunInputWord v => Sys2Proof.Machine.execRerunInputWord v s
  | .rerunApplyEntry uncorrectable => Sys2Proof.Machine.execRerunApplyEntry uncorrectable s
  | .scrubRead array bank index kind place => Sys2Proof.Machine.execScrubRead array bank index kind place s
  | .scrubPeriodEnd done array => Sys2Proof.Machine.execScrubPeriodEnd done array s
  | .mergeEntryTimeout uncorrectable => Sys2Proof.Machine.execMergeEntryTimeout uncorrectable s
  | .memInjectArm v => Sys2Proof.Machine.execMemInjectArm v s
  | .memGroupClear v => Sys2Proof.Machine.execMemGroupClear v s
  | .beaconInstant => Sys2Proof.Machine.execBeaconInstant s
  | .xcrFrameReceived phr bytes => Sys2Proof.Machine.execXcrFrameReceived phr bytes s
  | .xcrAckSend => Sys2Proof.Machine.execXcrAckSend s
  | .xcrAckTimeout => Sys2Proof.Machine.execXcrAckTimeout s
  | .xcrTxRequest v => Sys2Proof.Machine.execXcrTxRequest v s
  | .xcrListenSend busy => Sys2Proof.Machine.execXcrListenSend busy s
  | .xcrWakeSequence busy => Sys2Proof.Machine.execXcrWakeSequence busy s
  | .xcrDeferredSend busy => Sys2Proof.Machine.execXcrDeferredSend busy s
  | .xcrCheckinMissed sensor => Sys2Proof.Machine.execXcrCheckinMissed sensor s
  | .xcvrReadbackTimeout ok => Sys2Proof.Machine.execXcvrReadbackTimeout ok s
  | .xcrRxqPop => Sys2Proof.Machine.execXcrRxqPop s
  | .resetNAssert => Sys2Proof.Machine.execResetNAssert s
  | .warmupEntry => Sys2Proof.Machine.execWarmupEntry s
  | .warmupComplete fail libVer token => Sys2Proof.Machine.execWarmupComplete fail libVer token s
  | .pwrGoRace => Sys2Proof.Machine.execPwrGoRace s
  | .pwrGoRerun => Sys2Proof.Machine.execPwrGoRerun s
  | .pwrResetKey key => Sys2Proof.Machine.execPwrResetKey key s
  | .pfwNFall => Sys2Proof.Machine.execPfwNFall s
  | .saveWriteDone ok us => Sys2Proof.Machine.execSaveWriteDone ok us s
  | .holdEnd => Sys2Proof.Machine.execHoldEnd s
  | .autoRestartExpiry => Sys2Proof.Machine.execAutoRestartExpiry s
  | .watchdogExpiry => Sys2Proof.Machine.execWatchdogExpiry s
  | .clockLoss => Sys2Proof.Machine.execClockLoss s
  | .healthSample readings => Sys2Proof.Machine.execHealthSample readings s
  | .healthSnapshotRequest => Sys2Proof.Machine.execHealthSnapshotRequest s
  | .healthSnapshotReady => Sys2Proof.Machine.execHealthSnapshotReady s
  | .healthSnapshotRelease v => Sys2Proof.Machine.execHealthSnapshotRelease v s
  | .clkTkTick => Sys2Proof.Machine.execClkTkTick s
  | .pcieLinkUp rate width => Sys2Proof.Machine.execPcieLinkUp rate width s
  | .mainPowerLoss => Sys2Proof.Machine.execMainPowerLoss s
  | .mainPowerUp => Sys2Proof.Machine.execMainPowerUp s
  | .vbatLoss => Sys2Proof.Machine.execVbatLoss s
  | .keyCmdComplete => Sys2Proof.Machine.execKeyCmdComplete s
  | .winCmdComplete => Sys2Proof.Machine.execWinCmdComplete s

end Sys2Proof.Machine
end

