-- ==== Sys2Proof/Safety.lean ====
section
/-!
DEFINITION. The terms the statements use: a step that goes on, a command's own effect and what follows it, a quiet device, the value of a counter,
what an operation leaves alone, and terms of single units.
-/
namespace Sys2Proof.Machine

/-- A step that answers a next state. -/
def Goes (s : State) : Prop := ∃ t, step s = .next t

/-- A command goes on, and the device its own effect leaves, before what follows every command (Machine/Command), meets `p`. -/
def Effect (c : Instr) (s : State) (p : Device → Prop) : Prop := ∃ d, exec c s = .next { s with dev := Device.post s.dev d } ∧ p d

/-- A device on which nothing follows a command of its own accord: no partner, no task in an engine, no marked word, no armed injection and
nothing noted in its memories, and not a follower. -/
structure Device.Quiet (d : Device) : Prop where
  alone : d.paired = false
  idle : d.srt.flight = []
  clean : d.mem.bad = []
  unarmed : d.injArmed = false
  unnoted : d.noted = []
  leads : d.pwr.mode ≠ .follow

/-- A counter's value (R81). -/
def Device.ctr (d : Device) (c : Ctr) (i : Nat := 0) : Nat := (mgetD (d.blkRegs (c.base / 65536)) (c.base + i * c.stride) 0#32).toNat

/-! What an operation leaves alone. Events, their records, the interrupt bits and the outputs are always allowed: any operation may raise them. -/

/-- What an operation may touch: entry to HOLD, a change of mode as Table 19.2 lists it, main power, the tables, the root keys, the key groups,
the boot digests, device time, the bytes of DDR5, the journal, the value read back, and the units by the 64 KiB ranges of BAR0. -/
structure Eff where
  hold : Bool
  mode : Bool
  pow : Bool
  tab : Bool
  key : Bool
  grp : Bool
  bd : Bool
  now : Bool
  dd : Bool
  jnl : Bool
  rd : Bool
  unit : Nat → Bool

/-- An effect is allowed: a wrapper, so that a search for it looks at nothing else. -/
inductive Lets (b : Bool) : Prop where
  | intro (h : b = true)

/-- Nothing of that. -/
def Eff.none : Eff := ⟨false, false, false, false, false, false, false, false, false, false, false, fun _ => false⟩
/-- All but entry to HOLD and changes of mode. -/
def Eff.still : Eff := ⟨false, false, true, true, true, true, true, true, true, true, true, fun _ => true⟩
/-- The effects a frame can allow beside units. -/
inductive Touch where
  | hold | mode | pow | tab | key | grp | bd | now | dd | jnl | rd
  deriving DecidableEq, Repr
/-- The listed effects and units. -/
def Eff.of (l : List Touch) (u : List Nat) : Eff :=
  ⟨l.contains .hold, l.contains .mode, l.contains .pow, l.contains .tab, l.contains .key, l.contains .grp, l.contains .bd, l.contains .now,
   l.contains .dd, l.contains .jnl, l.contains .rd, fun b => u.contains b⟩
/-- Registers of a range may be written: those of a unit that may be touched, and the Scorebook's. -/
def Eff.may (e : Eff) (b : Nat) : Prop := Lets (e.unit b) ∨ b = 0x19

/-- Changes of mode (Table 19.2) but that from RESET to WARMUP, with WARMUP to FOLLOW or RACE in one. -/
def Moves (m n : Mode) : Prop :=
  match m, n with
  | .reset, _ => False
  | _, .reset => True
  | .hold, _ => False
  | _, .hold => True
  | .warmup, .race | .warmup, .follow | .warmup, .rerun | .follow, .race | .race, .follow => True
  | _, _ => False

/-- From the device `a` to the device `d`, nothing but what `e` names has been touched. -/
structure Calm (e : Eff) (a d : Device) : Prop where
  ddr : Memory.wf a.ddr = true → Memory.wf d.ddr = true
  mode : d.pwr.mode = a.pwr.mode ∨ (Lets e.hold ∧ a.pwr.mode ≠ .reset ∧ d.pwr.mode = .hold) ∨ (Lets e.mode ∧ Moves a.pwr.mode d.pwr.mode)
  blks : ∀ b, Lets (e.unit b) ∨ b = 0x17 ∨ b = 0x19 ∨ d.blkRegs b = a.blkRegs b
  hifRegs : Lets (e.unit 0x17) ∨ ∀ k, k ≠ HIF_BLK_IRQ.base → mget (d.blkRegs 0x17) k = mget (a.blkRegs 0x17) k
  pow : Lets e.pow ∨ d.pwr.powered = a.pwr.powered
  tables : Lets e.tab ∨ d.tables = a.tables
  slots : Lets e.key ∨ d.key.slots = a.key.slots
  groups : Lets e.grp ∨ d.key.groups = a.key.groups
  tampered : Lets e.key ∨ d.key.tampered = a.key.tampered
  bd : Lets e.bd ∨ d.key.bd = a.key.bd
  now : Lets e.now ∨ d.tk.now = a.tk.now
  cells : Lets e.dd ∨ d.ddr = a.ddr
  jnl : Lets e.jnl ∨ d.jnl = a.jnl
  rd : Lets e.rd ∨ d.lastRead = a.lastRead
  pwr : Lets (e.unit 0x01) ∨ d.pwr = a.pwr
  tk : Lets (e.unit 0x02) ∨ d.tk = a.tk
  ing : Lets (e.unit 0x04) ∨ d.ing = a.ing
  pfa : Lets (e.unit 0x08) ∨ d.pfa = a.pfa
  srt : Lets (e.unit 0x0A) ∨ d.srt = a.srt
  pac : Lets (e.unit 0x0C) ∨ d.pac = a.pac
  osm : Lets (e.unit 0x0E) ∨ d.osm = a.osm
  isl : Lets (e.unit 0x0F) ∨ d.isl = a.isl
  alm : Lets (e.unit 0x10) ∨ d.alm = a.alm
  egr : Lets (e.unit 0x11) ∨ d.egr = a.egr
  lmf : Lets (e.unit 0x12) ∨ d.lmf = a.lmf
  acq : Lets (e.unit 0x13) ∨ d.acq = a.acq
  nrg : Lets (e.unit 0x14) ∨ d.nrg = a.nrg
  rxl : Lets (e.unit 0x15) ∨ d.rxl = a.rxl
  rly : Lets (e.unit 0x16) ∨ d.rly = a.rly
  hif : Lets (e.unit 0x17) ∨ d.hif = a.hif
  keys : Lets (e.unit 0x18) ∨ d.key = a.key
  mem : Lets (e.unit 0x1A) ∨ d.mem = a.mem
  xcr : Lets (e.unit 0x1B) ∨ d.xcr = a.xcr

/-- Where a command goes on, either nothing happens, or its own effect, before what follows every command, leaves alone all but what is listed. -/
def Touches (c : Instr) (l : List Touch) (u : List Nat) : Prop :=
  ∀ s t, exec c s = .next t → t = s ∨ ∃ d, t = { s with dev := Device.post s.dev d } ∧ Calm (Eff.of l u) s.dev d
/-- The same, for a command that may touch every unit. -/
def TouchesUnits (c : Instr) (l : List Touch) : Prop :=
  ∀ s t, exec c s = .next t → t = s ∨ ∃ d, t = { s with dev := Device.post s.dev d } ∧ Calm { Eff.of l [] with unit := fun _ => true } s.dev d

/-! Terms of one unit's statements. -/

/-- The words of a completion entry (Table 14.5). -/
def Device.cplWords (d : Device) (x : Xfer) (status residue detail : Nat) : List Word :=
  [w32 (status % 256 * 16777216 + x.sq % 64 * 65536 + bx (wd x.words 0) 15 0), w32 residue, w32 detail, w32 ((d.sqSt x.sq).head % 65536)]
/-- A MEM_READ of a channel reaches a GiB of DDR5 that is not populated. -/
def Device.ddrAbsent (d : Device) (x : Xfer) (ch : Nat) : Prop := (d.dch ch).left ≠ 0 ∧
  ∃ i, ((wd x.words 1).toNat + bx (wd x.words 2) 4 0 * 4294967296) / 1073741824 ≤ i ∧
    i ≤ ((wd x.words 1).toNat + bx (wd x.words 2) 4 0 * 4294967296 + (d.dch ch).left - 1) / 1073741824 ∧ Config.ddrPopulated i = false
/-- A key store command passes the checks that precede it (R415, R418, R422). -/
def Device.keyReady (d : Device) (host : Bool) : Prop :=
  d.alive = true ∧ (host = true → d.fb KEY_STAT.PRIV = true) ∧ d.pwr.mode ≠ .hold ∧ d.pwr.pfw = true ∧ d.fb KEY_STAT.BUSY = false
/-- A key store command or request is refused: nothing of the store changes, and the code says why. -/
def keyRefused (s : State) (code : Nat) (d : Device) : Prop :=
  d.key = s.dev.key ∧ d.f KEY_STAT.ERR = 1 ∧ d.f KEY_STAT.ECODE = code
/-- A count that does not change its counter's top bit, so that it reports nothing (R81). -/
def Device.countsQuietly (d : Device) (c : Ctr) (i : Nat := 0) : Prop := (d.ctr c i + 1) % 2147483648 ≠ 0
/-- The commands that can change a root slot, a key group or the record of a zeroisation: those of the key store, the write of its command
register, the loss of a supply, WARMUP, and those that can enter HOLD, which completes a key store command in progress (R418). -/
def reachesKeys (c : Instr) : Bool :=
  match c with
  | .registerWrite _ _ | .keyCmdWrite _ _ _ | .keyCmdErase _ _ | .keyCmdRoll _ _ | .keyCmdClear _ _ | .keyCmdComplete | .tamperZeroise | .vbatLoss
  | .mainPowerLoss | .mainPowerUp | .warmupEntry | .autoRestartExpiry | .opTableRead _ | .warmupComplete _ _ _ | .pfwNFall | .watchdogExpiry
  | .clockLoss | .healthSample _ => true
  | _ => false
/-- The commands that act on a device that is unpowered or in RESET (Table 19.6): its supplies, RESET_N, PFW_N, VBAT and TAMPER_N. -/
def reachesDead (c : Instr) : Bool :=
  match c with
  | .tamperZeroise | .vbatLoss | .resetNAssert | .warmupEntry | .pfwNFall | .autoRestartExpiry | .mainPowerLoss | .mainPowerUp => true
  | _ => false

end Sys2Proof.Machine
end

