-- ==== Sys2Proof/Certificates/Slice0/Obligations.lean ====
section
/-!
DEFINITION. The statements for the provers. `Effect c s p` says that the command goes on and that its own effect, before what follows every
command, meets `p`; on a quiet device nothing follows (Safety).
-/
open Sys2Proof Sys2Proof.Machine

/-- A step is the front command on the rest of the queue, an empty queue idles, and every command goes on.
With a command at the front of the queue, step is exec of that command on the state with the queue's rest. With an empty queue step answers the same
state (the model's choice, log entry 62). For every command and state, exec answers a next state that differs in the device only: no command stops
the block and none touches the queue.
Rules: 04_register_interface. -/
def Obligations.StepRunsTheFrontCommand : Prop :=
  (∀ (s : State) (c : Instr) (rest : List Instr), s.pending = c :: rest → step s = exec c { s with pending := rest }) ∧
  (∀ s : State, s.pending = [] → step s = .next s) ∧
  (∀ (s : State) (c : Instr), ∃ d, exec c s = .next { s with dev := d })

/-- Reset: every register field holds its Reset column, HLT_THR its per-type value, counters 0, no command waits.
In State.reset every field of every register of the register map, at every instance, holds the value of its Reset column (R4); HLT_THR of the voltage
and process monitors holds the reset value of its table; the listed counters of every unit read 0; the queue and the tables are empty; the mode is
WARMUP and the device is alive; DDR5 and the key groups are in canonical form. That State.reset is the device on leaving RESET is log entry 64.
Rules: R4, R120, R152, R185. -/
def Obligations.ResetHoldsTheStatedValues : Prop :=
  (∀ r ∈ regMap, ∀ f ∈ r.fields, ∀ i, i < r.count → r.base ≠ 0x010108 → bx (State.reset.dev.rg r i) f.hi f.lo = f.reset) ∧
  (∀ i, i < 32 → State.reset.dev.rg HLT_THR (256 + i) = 0xFFFF0000#32 ∧ State.reset.dev.rg HLT_THR (512 + i) = 0xFFFF0000#32) ∧
  (∀ c ∈ [PWR_HOLDS, HLT_EVENTS, TK_STEPS, RX_RUNT, ING_FRAMES_IN, PFA_LAPS_OPENED, SRT_TASKS_PLACED, PAC_TASKS_DONE, ISL_RUNS, ALM_THR_CMDS, EGR_CFG_SENT,
    LMF_REJECTS, ACQ_RECORDS, NRG_SNAPS, RXL_TX_FRAMES, RLY_TAKEOVERS, HIF_BAD_ACCESS, KEY_CMDS, SCB_RECORDS, MEM_CE, XCR_RX_FRAMES], ∀ i, State.reset.dev.ctr c i = 0) ∧
  State.reset.pending = [] ∧ State.reset.dev.tables = [] ∧ State.reset.dev.pwr.mode = .warmup ∧ State.reset.dev.alive = true ∧
  Memory.wf State.reset.dev.ddr = true ∧ mwf State.reset.dev.key.groups = true

/-- Every step keeps DDR5 in its canonical form.
For every state whose DDR5 list is canonical (addresses strictly rising, no entry equal to what an unlisted address reads as), every step that
answers a next state leaves it canonical. The premise is the model's own invariant; that reset has it is a clause of ResetHoldsTheStatedValues. That
an unlisted byte reads 0 is the model's choice (log entry 65).
Rules: R388, R398. -/
def Obligations.StepKeepsMemoryCanonical : Prop :=
  ∀ s t : State, Memory.wf s.dev.ddr = true → step s = .next t → Memory.wf t.dev.ddr = true

/-- Every step keeps the mode or moves it as Table 19.2 lists; RESET is left only by WARMUP_ENTRY and AUTO_RESTART_EXPIRY.
For every state and every step: the mode is unchanged, or it moved between modes as the rows of Table 19.2 allow (any to RESET; WARMUP to RACE,
FOLLOW or RERUN; RACE to FOLLOW and back; any but RESET to HOLD), or it left RESET for WARMUP, in which case the front command was WARMUP_ENTRY or
AUTO_RESTART_EXPIRY (HOLD instead of WARMUP where an error that meets WARMUP's own memory writes is fatal in the same step).
Rules: R487. -/
def Obligations.StepMovesModeByTheTable : Prop :=
  ∀ s t : State, step s = .next t → t.dev.pwr.mode = s.dev.pwr.mode ∨ Moves s.dev.pwr.mode t.dev.pwr.mode ∨
  (s.dev.pwr.mode = .reset ∧ (t.dev.pwr.mode = .warmup ∨ t.dev.pwr.mode = .hold) ∧ ∃ rest, s.pending = .warmupEntry :: rest ∨ s.pending = .autoRestartExpiry :: rest)

/-- No command outside the key store's own, supply loss, WARMUP and entry to HOLD changes a root slot or key group by its own effect.
For every command that is not one of those that Safety.reachesKeys lists (the key store's commands, a write of a register, tamper, VBAT loss, loss or
return of main power, the two entries into WARMUP, and those that can enter HOLD, which completes a key store command in progress) and every state:
where it goes on, its own effect, before what follows every command, leaves the root slots, the key groups and the record of a zeroisation as they
were, or nothing happens at all.
Rules: R413, R418, R422. -/
def Obligations.OnlyKeyCommandsChangeKeys : Prop :=
  ∀ (c : Instr) (s t : State), reachesKeys c = false → exec c s = .next t → t = s ∨
  ∃ d, t = { s with dev := Device.post s.dev d } ∧ d.key.slots = s.dev.key.slots ∧ d.key.groups = s.dev.key.groups ∧ d.key.tampered = s.dev.key.tampered

/-- Device time changes only at a CLK_TK tick, and begins anew when power returns or RESET is left.
For every command but CLK_TK_TICK, MAIN_POWER_UP, WARMUP_ENTRY and AUTO_RESTART_EXPIRY and every state: where exec answers a next state, device time
is what it was.
Rules: R317. -/
def Obligations.TimeMovesOnlyAtATick : Prop :=
  ∀ (c : Instr) (s t : State), exec c s = .next t →
  c ≠ .clkTkTick → c ≠ .mainPowerUp → c ≠ .warmupEntry → c ≠ .autoRestartExpiry → t.dev.tk.now = s.dev.tk.now

/-- Unpowered or in RESET, only the supplies' and pins' own events act.
On a device that is unpowered or in RESET, every command but the loss and return of supplies, RESET_N, PFW_N, VBAT loss, TAMPER_N and the two entries
into WARMUP answers the same state.
Rules: R498. -/
def Obligations.DeadDeviceTakesNoCommand : Prop :=
  ∀ (c : Instr) (s : State), s.dev.alive = false → reachesDead c = false → exec c s = .next s

/-- The RST_KEY of PWR_CTL: 0xA5C3 resets at once, another non-zero key is ignored and sets ERR with ECODE 0b010.
On a device that is alive, the command PWR_RESET_KEY and a register write of PWR_CTL alike: RST_KEY 0xA5C3 leaves the device in RESET; any other
non-zero RST_KEY changes nothing but PWR_STAT.ERR, which is set, with ECODE 0b010.
Rules: R489. -/
def Obligations.ResetKeyActs : Prop :=
  ∀ s : State, s.dev.alive = true →
  (∀ key, key % 65536 = 0xA5C3 → Effect (.pwrResetKey key) s (fun d => d.pwr.mode = .reset)) ∧
  (∀ key, key % 65536 ≠ 0xA5C3 → key % 65536 ≠ 0 → Effect (.pwrResetKey key) s (fun d => d = s.dev.err PWR_STAT.ERR PWR_STAT.ECODE 2)) ∧
  (∀ v, bx v 15 0 = 0xA5C3 → Effect (.registerWrite 0x010004 v) s (fun d => d.pwr.mode = .reset)) ∧
  (∀ v, bx v 15 0 ≠ 0xA5C3 → bx v 15 0 ≠ 0 → Effect (.registerWrite 0x010004 v) s (fun d => d = s.dev.err PWR_STAT.ERR PWR_STAT.ECODE 2))

/-- ETH_CFG.MAXLEN: 1,518 to 9,216 is taken, a write outside is ignored as a whole and sets CFG_ERR, reset 1,522.
A write of ETH_CFG with MAXLEN below 1,518 or above 9,216 changes nothing but ETH_STATUS.CFG_ERR, which is set. A write with MAXLEN from 1,518 to
9,216 (and MODE and FEC of a legal combination, here 0) stores it. At reset MAXLEN is 1,522, which admits a tagged frame with a 1,500-byte payload
(14 + 4 + 1,500 + 4).
Rules: R43. -/
def Obligations.MaximumLengthWritesAct : Prop :=
  (∀ (s : State) (p : Nat) (v : Word), s.dev.alive = true → p < 8 →
    (bx v 29 16 < 1518 ∨ 9216 < bx v 29 16 → Effect (.ethCfgWrite p v) s (fun d => d = s.dev.setf ETH_STATUS.CFG_ERR 1 p)) ∧
    (1518 ≤ bx v 29 16 → bx v 29 16 ≤ 9216 → bx v 2 0 = 0 → bx v 9 8 = 0 → Effect (.ethCfgWrite p v) s (fun d => d.f ETH_CFG.MAXLEN p = bx v 29 16))) ∧
  (∀ p, p < 8 → State.reset.dev.f ETH_CFG.MAXLEN p = 1522)

/-- RESET_N, the entries into WARMUP and main power: what each leaves.
Where a gate is named (the device alive: powered and out of RESET; awake: also out of HOLD), it is a hypothesis. Every clause concludes that exec
answers a next state whose device, before what follows every command, has the listed content. RESET_N_ASSERT leaves RESET. WARMUP_ENTRY and
AUTO_RESTART_EXPIRY leave WARMUP with WU_DONE clear and the tables empty, WARMUP_ENTRY with the key groups gone and the root slots and save image
kept; a restart that finds RESET_N or PFW_N low waits for WARMUP_ENTRY. MAIN_POWER_LOSS leaves the device unpowered in RESET with the root slots kept
by VBAT, or gone without it, and RELAY_BATON_OUT and PPS_OUT high-impedance; MAIN_POWER_UP leaves RESET with the counters that live through RESET at 0.
Rules: R487, R494, R418, R500. -/
def Obligations.ResetAndPowerCommandsAct : Prop :=
  ∀ s : State,
  (s.dev.pwr.powered = true → s.dev.pwr.mode ≠ .reset →
    Effect .resetNAssert s (fun d => d.pwr.mode = .reset ∧ d.pwr.resetN = false ∧ d.pwr.restartAt = none)) ∧
  (s.dev.pwr.powered = true → s.dev.pwr.mode = .reset → s.dev.pwr.holdFatal = false →
    Effect .warmupEntry s (fun d => d.pwr.mode = .warmup ∧ d.pwr.wuDone = false ∧ d.pwr.resetN = true ∧ d.pwr.pfw = true ∧ d.tables = [] ∧
      d.key.groups = [] ∧ d.key.slots = s.dev.key.slots ∧ d.key.tampered = s.dev.key.tampered ∧ d.pwr.save = s.dev.pwr.save)) ∧
  (∀ t, s.dev.pwr.powered = true → s.dev.pwr.mode = .reset → s.dev.pwr.restartAt = some t → s.dev.pwr.resetN = true → s.dev.pwr.pfw = true →
    Effect .autoRestartExpiry s (fun d => d.pwr.mode = .warmup ∧ d.pwr.wuDone = false ∧ d.tables = [])) ∧
  (∀ t, s.dev.pwr.powered = true → s.dev.pwr.mode = .reset → s.dev.pwr.restartAt = some t → s.dev.pwr.resetN = false ∨ s.dev.pwr.pfw = false →
    Effect .autoRestartExpiry s (fun d => d = { s.dev with pwr := { s.dev.pwr with holdFatal := false } })) ∧
  (s.dev.pwr.powered = true → Effect .mainPowerLoss s (fun d => d.pwr.powered = false ∧ d.pwr.mode = .reset ∧ d.key.op = none ∧ .pinOff 3 0 ∈ d.out ∧
    (s.dev.pwr.mode ≠ .reset → .pinOff 2 0 ∈ d.out ∧ d.rly.level = false) ∧
    (s.dev.key.op = none → s.dev.key.vbat = true → d.key.slots = s.dev.key.slots) ∧ (s.dev.key.vbat = false → d.key.slots = [] ∧ d.key.tampered = false))) ∧
  (s.dev.pwr.powered = false → Effect .mainPowerUp s (fun d => d.pwr.powered = true ∧ d.pwr.mode = .reset ∧ d.tables = [] ∧ d.ctr PWR_HOLDS = 0 ∧
    d.ctr PWR_FATALS = 0 ∧ d.ctr PWR_SAVE_FAIL = 0 ∧ d.ctr PWR_RESTARTS = 0 ∧ d.ctr HLT_EVENTS = 0))

/-- WARMUP_COMPLETE and GO: completion, fatal failures, RACE, FOLLOW, RERUN, and GO refused.
Where a gate is named (the device alive: powered and out of RESET; awake: also out of HOLD), it is a hypothesis. Every clause concludes that exec
answers a next state whose device, before what follows every command, has the listed content. WARMUP_COMPLETE without failure sets WU_DONE and stores
the library version and the privilege token's low 64 bits; with a failure of step cause 1, 3 or 4 it enters HOLD with FATAL and FCAUSE. GO moves to
RACE alone, to FOLLOW on a paired device whose ROLE is follower, or to RERUN; before WU_DONE or outside WARMUP it only sets ERR with ECODE 1.
Rules: R490, R487. -/
def Obligations.WarmupAndGoCommandsAct : Prop :=
  ∀ s : State, s.dev.alive = true →
  (∀ lib token, s.dev.pwr.mode = .warmup → s.dev.pwr.wuDone = false → Effect (.warmupComplete 0 lib token) s (fun d => d.pwr.mode = .warmup ∧
    d.pwr.wuDone = true ∧ d.f PWR_STAT.WU_DONE = 1 ∧ d.rg PAC_LIB_VER 0 = lib ∧ d.key.token = some (token % 2 ^ 64))) ∧
  (∀ fail lib token, s.dev.pwr.mode = .warmup → s.dev.pwr.wuDone = false → fail = 1 ∨ fail = 3 ∨ fail = 4 →
    Effect (.warmupComplete fail lib token) s (fun d => d.pwr.mode = .hold ∧ d.f PWR_STAT.FATAL = 1 ∧ d.f PWR_STAT.FCAUSE = fail)) ∧
  (s.dev.pwr.mode = .warmup → s.dev.pwr.wuDone = true → s.dev.fb RLY_CFG.EN = false → Effect .pwrGoRace s (fun d => d.pwr.mode = .race)) ∧
  (s.dev.pwr.mode = .warmup → s.dev.pwr.wuDone = true → s.dev.fb RLY_CFG.EN = true → s.dev.fb RLY_CFG.ROLE = true →
    Effect .pwrGoRace s (fun d => d.pwr.mode = .follow)) ∧
  (s.dev.pwr.mode = .warmup → s.dev.pwr.wuDone = true → Effect .pwrGoRerun s (fun d => d.pwr.mode = .rerun ∧ d.pwr.waiting = none)) ∧
  (s.dev.pwr.mode ≠ .warmup ∨ s.dev.pwr.wuDone = false → ∀ c, c = .pwrGoRace ∨ c = .pwrGoRerun → Effect c s (fun d => d.pwr = s.dev.pwr ∧
    d.f PWR_STAT.ERR = 1 ∧ d.f PWR_STAT.ECODE = 1))

/-- PFW_N, the watchdog and clock loss enter HOLD, the save ends, and HOLD ends in RESET.
Where a gate is named (the device alive: powered and out of RESET; awake: also out of HOLD), it is a hypothesis. Every clause concludes that exec
answers a next state whose device, before what follows every command, has the listed content. PFW_N_FALL, WATCHDOG_EXPIRY and CLOCK_LOSS enter HOLD
outside HOLD (the latter two with FATAL and causes 6 and 1; the first stops the baton and closes the privilege window). SAVE_WRITE_DONE shows its
outcome and time and keeps the image, of the next generation, of the Scorebook records and the energy points, or of those of an earlier good save that
still wait for RACE (log entry 100). HOLD_END, 10 ms after the save, leaves RESET.
Rules: R493, R494, R491, R492. -/
def Obligations.HoldCommandsAct : Prop :=
  ∀ s : State, s.dev.alive = true →
  (s.dev.pwr.mode ≠ .hold → Effect .pfwNFall s (fun d => d.pwr.mode = .hold ∧ d.pwr.pfw = false ∧ d.pwr.holdFatal = false ∧
    d.pwr.holdAt = some s.dev.tk.now ∧ d.rly.toggling = false ∧ d.key.openedAt = none)) ∧
  (s.dev.pwr.mode ≠ .hold → Effect .watchdogExpiry s (fun d => d.pwr.mode = .hold ∧ d.pwr.holdFatal = true ∧ d.f PWR_STAT.FATAL = 1 ∧ d.f PWR_STAT.FCAUSE = 6)) ∧
  (s.dev.pwr.mode ≠ .hold → Effect .clockLoss s (fun d => d.pwr.mode = .hold ∧ d.pwr.holdFatal = true ∧ d.f PWR_STAT.FATAL = 1 ∧ d.f PWR_STAT.FCAUSE = 1)) ∧
  (∀ ok us, s.dev.pwr.mode = .hold → s.dev.pwr.saveEnded = none → Effect (.saveWriteDone ok us) s (fun d => d.f PWR_SAVE.OK = b2n ok ∧
    d.f PWR_SAVE.US = min 4095 us ∧ d.pwr.saveEnded = some s.dev.tk.now ∧
    ∃ i, d.pwr.save = some i ∧ i.good = ok ∧ i.fatal = s.dev.pwr.holdFatal ∧ i.records = s.dev.scb.buf ∧
      (∀ o, s.dev.pwr.save = some o → i.gen = o.gen + 1) ∧ ((∀ w, s.dev.pwr.waiting = some w → w.good = false) → i.points = s.dev.nrg.points) ∧
      (∀ w, s.dev.pwr.waiting = some w → w.good = true → i.points = w.points ∧ i.pulses = w.pulses))) ∧
  (∀ t, s.dev.pwr.mode = .hold → s.dev.pwr.saveEnded = some t → t + 10 * Time.msU ≤ s.dev.tk.now → Effect .holdEnd s (fun d => d.pwr.mode = .reset))

/-- Health samples and the health snapshot's slot: request, refusal, ready and release.
Where a gate is named (the device alive: powered and out of RESET; awake: also out of HOLD), it is a hypothesis. Every clause concludes that exec
answers a next state whose device, before what follows every command, has the listed content. HEALTH_SAMPLE stores all 48 readings.
HEALTH_SNAPSHOT_REQUEST takes a free slot with the next sequence number and is refused with ECODE 3 otherwise; HEALTH_SNAPSHOT_READY fills it with
the readings; HEALTH_SNAPSHOT_RELEASE with the right sequence number empties it.
Rules: R495, R497, R409. -/
def Obligations.HealthCommandsAct : Prop :=
  ∀ s : State, s.dev.alive = true →
  (∀ r : List Nat, r.length = 48 → Effect (.healthSample r) s (fun d => ∀ k, k < 48 → mgetD d.pwr.reading (monOf k) 0 = r.getD k 0 % 65536)) ∧
  (s.dev.pwr.slot.st = .free → Effect .healthSnapshotRequest s (fun d => d.pwr.slot.st = .busy ∧ d.pwr.slot.seq = (s.dev.pwr.slot.seq + 1) % 65536)) ∧
  (s.dev.pwr.slot.st ≠ .free → Effect .healthSnapshotRequest s (fun d => d.pwr = s.dev.pwr ∧ d.f PWR_STAT.ERR = 1 ∧ d.f PWR_STAT.ECODE = 3)) ∧
  (s.dev.pwr.slot.st = .busy → Effect .healthSnapshotReady s (fun d => d.pwr.slot.st = .held ∧ d.pwr.slot.seq = s.dev.pwr.slot.seq ∧
    ∀ k, k < 48 → slotWord d.pwr.slot k = w32 (mgetD s.dev.pwr.reading (monOf k) 0))) ∧
  (∀ v, s.dev.pwr.slot.st = .held → bx v 15 0 = s.dev.pwr.slot.seq → Effect (.healthSnapshotRelease v) s (fun d => d.pwr.slot.st = .free ∧
    ∀ k, slotWord d.pwr.slot k = 0#32))

/-- Register reads and writes: RX_OCTETS latch, RC fields, plain reads and writes, bad accesses.
Where a gate is named (the device alive: powered and out of RESET; awake: also out of HOLD), it is a hypothesis. Every clause concludes that exec
answers a next state whose device, before what follows every command, has the listed content. COUNTER_LO_READ answers the low word and latches the
high word. RC_REGISTER_READ of a register answers its value, clears its RC field, latches the high word of a sample or lap number whose low word it
reads, and changes nothing else. BAR0_BAD_ACCESS counts and a bad read answers 0; an aligned 64-bit read is two reads in ascending order, each counted
where it is refused. REGISTER_WRITE of a register without a side effect leaves each field as its access code says and every other register as it was.
Rules: R81, R5, R389, R6. -/
def Obligations.RegisterAccessesAct : Prop :=
  ∀ s : State, s.dev.alive = true →
  (∀ port, port < 8 → Effect (.counterLoRead port) s (fun d => d.lastRead = w32 (s.dev.prx port).octets ∧
    (d.prx port).octLatch = w32 ((s.dev.prx port).octets / 2 ^ 32))) ∧
  (∀ addr r i, badAccess addr 4 = false → ¬(addr / 65536 = 4 ∧ addr % 0x2000 = 0x180) → findReg addr = some (r, i) → r.base ≠ 0x020020 → r.base ≠ 0x041014 →
    Effect (.rcRegisterRead addr) s (fun d => d.lastRead = s.dev.readNow addr ∧
      (r.base ∉ [0x08002C, 0x0E0010, 0x0E0018, 0x0F0010, 0x0F0018] → (∀ f ∈ r.fields, f.acc ≠ .rc) → d = { s.dev with lastRead := s.dev.readNow addr }) ∧
      (∀ f, r.base ≠ 0x08002C → r.fields.find? (fun f => decide (f.acc = .rc)) = some f → d.rg r (s.dev.instOf r i) =
        bset (s.dev.rg r (s.dev.instOf r i)) f.hi f.lo 0) ∧
      (∀ x, r.base = 0x08002C → s.dev.run? (s.dev.instOf r i) = some x → ∃ y, d.run? (s.dev.instOf r i) = some y ∧ y.maxShort = 0) ∧
      (r.base = 0x0E0010 → d.osm.sampleHi = w32 (s.dev.osm.lastK / 4294967296)) ∧ (r.base = 0x0E0018 → d.osm.startHi = w32 (s.dev.osm.startK / 4294967296)) ∧
      (r.base = 0x0F0010 → d.isl.graphHi = w32 (s.dev.isl.graphLap / 4294967296)) ∧ (r.base = 0x0F0018 → d.isl.mapHi = w32 (s.dev.isl.mapLap / 4294967296)))) ∧
  (∀ w addr size, badAccess addr size = true → ¬(w = false ∧ size = 8 ∧ addr % 4 = 0) → Effect (.bar0BadAccess w addr size) s (fun d =>
    d.ctr HIF_BAD_ACCESS = (s.dev.ctr HIF_BAD_ACCESS + 1) % 2 ^ 32 ∧ (w = false → d.lastRead = 0#32) ∧ (w = true → d.lastRead = s.dev.lastRead))) ∧
  (∀ addr, addr % 4 = 0 → Effect (.bar0BadAccess false addr 8) s (fun d => d.lastRead = (busRead addr s.dev).lastRead ∧
    d.readHi = (busRead (addr + 4) (busRead addr s.dev)).lastRead ∧
    (badAccess addr 4 = true → badAccess (addr + 4) 4 = true → d.lastRead = 0#32 ∧ d.readHi = 0#32 ∧
      d.ctr HIF_BAD_ACCESS = (s.dev.ctr HIF_BAD_ACCESS + 2) % 2 ^ 32))) ∧
  (∀ addr v r i, badAccess addr 4 = false → findReg addr = some (r, i) → specialWrite r.base (s.dev.instOf r i) v s.dev = none →
    r.key (s.dev.instOf r i) ≠ HIF_BLK_IRQ.key 0 →
    Effect (.registerWrite addr v) s (fun d => d.rg r (s.dev.instOf r i) = r.fields.foldl (fun x f => accWrite f x v) (s.dev.rg r (s.dev.instOf r i)) ∧
      ∀ q j, q.key j ≠ r.key (s.dev.instOf r i) → q.key j ≠ HIF_BLK_IRQ.key 0 → d.rg q j = s.dev.rg q j))

/-- What a write leaves in one field follows its access code: RW, WO, W1C, W1S, RO, RC.
For every field within a word, every old value and every written value: a RW or WO field takes the written bits, a W1C bit is cleared where 1 is
written, a W1S bit is set where 1 is written, RO and RC fields keep the old word, and every field that does not overlap it is unchanged.
Rules: R5. -/
def Obligations.WritesFollowAccessCodes : Prop :=
  ∀ (f : Fld) (old v : Word), f.lo ≤ f.hi → f.hi < 32 →
  (f.acc = .rw ∨ f.acc = .wo → bx (accWrite f old v) f.hi f.lo = bx v f.hi f.lo) ∧
  (f.acc = .w1c → ∀ j, f.lo ≤ j → j ≤ f.hi → bit (accWrite f old v) j = (bit old j && !bit v j)) ∧
  (f.acc = .w1s → ∀ j, f.lo ≤ j → j ≤ f.hi → bit (accWrite f old v) j = (bit old j || bit v j)) ∧
  (f.acc = .ro ∨ f.acc = .rc → accWrite f old v = old) ∧
  (∀ hi lo, lo ≤ hi → hi < 32 → hi < f.lo ∨ f.hi < lo → bx (accWrite f old v) hi lo = bx old hi lo)

/-- Doorbells, ring enable and disable, coalescing, and the PCIe link down and up.
Where a gate is named (the device alive: powered and out of RESET; awake: also out of HOLD), it is a hypothesis. Every clause concludes that exec
answers a next state whose device, before what follows every command, has the listed content. SQ_TAIL_DOORBELL and CQ_HEAD_DOORBELL move their ring
within range, and a submission doorbell out of range or on a disabled ring only sets DB_ERR. RING_ENABLE of a disabled ring with legal sizes starts
it at 0; RING_DISABLE clears EN only. CQ_COALESCE_TIMEOUT sends the ring's vector, or sets its pending bit while it is masked, and restarts its count. PCIE_LINK_DOWN empties rings, channels and
stream FIFOs and keeps the tables; PCIE_LINK_UP sets LINK_UP.
Rules: R394, R392, R397, R391. -/
def Obligations.RingCommandsAct : Prop :=
  ∀ s : State, s.dev.alive = true →
  (∀ q v, q < 64 → s.dev.fb HIF_SQ_CFG.EN q = true → bx v 15 0 < s.dev.sqSize q → Effect (.sqTailDoorbell q v) s (fun d =>
    d.sqSt q = ⟨(s.dev.sqSt q).head, bx v 15 0⟩ ∧ ∀ p, p ≠ q → d.sqSt p = s.dev.sqSt p)) ∧
  (∀ q v, q < 64 → s.dev.fb HIF_SQ_CFG.EN q = false ∨ s.dev.sqSize q ≤ bx v 15 0 → Effect (.sqTailDoorbell q v) s (fun d =>
    d.f HIF_STAT.DB_ERR = 1 ∧ ∀ p, d.sqSt p = s.dev.sqSt p)) ∧
  (∀ q v, q < 64 → s.dev.fb HIF_CQ_CFG.EN q = true → bx v 15 0 < s.dev.cqSize q →
    (bx v 15 0 + s.dev.cqSize q - (s.dev.cqSt q).head) % s.dev.cqSize q ≤ ((s.dev.cqSt q).tail + s.dev.cqSize q - (s.dev.cqSt q).head) % s.dev.cqSize q →
    Effect (.cqHeadDoorbell q v) s (fun d => (d.cqSt q).head = bx v 15 0 ∧ (d.cqSt q).tail = (s.dev.cqSt q).tail ∧ ∀ p, p ≠ q → d.cqSt p = s.dev.cqSt p)) ∧
  (∀ v, s.dev.fb HIF_SQ_CFG.EN (s.dev.f HIF_SQ_SEL.RING) = false → sizeOk v 20 16 = true → Effect (.ringEnable false v) s (fun d =>
    d.fb HIF_SQ_CFG.EN (s.dev.f HIF_SQ_SEL.RING) = true ∧ d.sqSt (s.dev.f HIF_SQ_SEL.RING) = ⟨0, 0⟩)) ∧
  (∀ v, s.dev.fb HIF_CQ_CFG.EN (s.dev.f HIF_CQ_SEL.RING) = false → sizeOk v 28 24 = true → bx v 30 29 ≠ 3 → Effect (.ringEnable true v) s (fun d =>
    d.fb HIF_CQ_CFG.EN (s.dev.f HIF_CQ_SEL.RING) = true ∧ (d.cqSt (s.dev.f HIF_CQ_SEL.RING)).head = 0 ∧ (d.cqSt (s.dev.f HIF_CQ_SEL.RING)).tail = 0)) ∧
  (s.dev.fb HIF_SQ_CFG.EN (s.dev.f HIF_SQ_SEL.RING) = true → Effect (.ringDisable false) s (fun d => d.fb HIF_SQ_CFG.EN (s.dev.f HIF_SQ_SEL.RING) = false ∧ d.hif = s.dev.hif)) ∧
  (s.dev.fb HIF_CQ_CFG.EN (s.dev.f HIF_CQ_SEL.RING) = true → Effect (.ringDisable true) s (fun d => d.fb HIF_CQ_CFG.EN (s.dev.f HIF_CQ_SEL.RING) = false ∧ d.hif = s.dev.hif)) ∧
  (∀ q t, q < 64 → s.dev.awake = true → s.dev.fb HIF_STAT.LINK_UP = true → s.dev.fb HIF_CQ_CFG.EN q = true → s.dev.f HIF_CQ_CFG.COAL_US q ≠ 0 → (s.dev.cqSt q).first = some t →
    t + s.dev.f HIF_CQ_CFG.COAL_US q * Time.usU ≤ s.dev.now → Effect (.cqCoalesceTimeout q) s (fun d => (d.cqSt q).since = 0 ∧ (d.cqSt q).first = none ∧
      ((s.dev.msixEnt (s.dev.f HIF_CQ_CFG.VEC q)).masked = false → .msix (s.dev.f HIF_CQ_CFG.VEC q) ∈ d.out) ∧
      ((s.dev.msixEnt (s.dev.f HIF_CQ_CFG.VEC q)).masked = true → mgetD d.pba (s.dev.f HIF_CQ_CFG.VEC q) false = true))) ∧
  (∀ flr rate width, Effect (.pcieLinkDown flr rate width) s (fun d => d.hif.sq = [] ∧ d.hif.cq = [] ∧ d.hif.ch = [] ∧ d.hif.sf = [] ∧ d.tables = s.dev.tables ∧
    d.pfa = s.dev.pfa ∧ (flr = true → d.f HIF_STAT.LINK_UP = s.dev.f HIF_STAT.LINK_UP) ∧ (flr = false → d.f HIF_STAT.LINK_UP = 0))) ∧
  (∀ rate width, s.dev.fb HIF_STAT.LINK_UP = false → Effect (.pcieLinkUp rate width) s (fun d => d.f HIF_STAT.LINK_UP = 1))

/-- Finishing a descriptor writes its completion entry at the ring's tail and frees the channel.
Where a channel runs a descriptor whose completion ring is enabled and the link is up, finishing it with a status, residue and detail writes the
entry of Table 14.5 to the host at the ring's tail, moves the tail by one modulo the ring's size, and leaves the channel with no descriptor, idle, or
stopped where it was aborting.
Rules: R396, R398. -/
def Obligations.CompletionsReachTheHost : Prop :=
  ∀ (d : Device) (c : Nat) (x : Xfer) (status residue detail : Nat),
  (d.dch c).cur = some x → d.fb HIF_CQ_CFG.EN x.cq = true → d.fb HIF_STAT.LINK_UP = true →
  .hostWrite false (d.addr64 HIF_CQ_BASE_LO HIF_CQ_BASE_HI x.cq + 16 * ((d.cqSt x.cq).tail % d.cqSize x.cq)) (leBytes (d.cplWords x status residue detail)) ∈
    (d.finish c status residue detail).out ∧
  ((d.finish c status residue detail).cqSt x.cq).tail = ((d.cqSt x.cq).tail + 1) % d.cqSize x.cq ∧
  ((d.finish c status residue detail).dch c).cur = none ∧
  ((d.finish c status residue detail).dch c).st = (if (d.dch c).aborting then .stopped else .idle)

/-- Descriptors: fetch, NOP, undefined, table load and read, heat enable and disable, memory and stream read.
Where a gate is named (the device alive: powered and out of RESET; awake: also out of HOLD), it is a hypothesis. Every clause concludes that exec
answers a next state whose device, before what follows every command, has the listed content. DESCRIPTOR_FETCH of a well-formed descriptor makes it
the channel's, running. OP_NOP, OP_UNDEFINED, OP_TABLE_LOAD, OP_TABLE_READ, OP_HEAT_ENABLE, OP_HEAT_DISABLE and OP_MEM_READ finish with the status,
residue and detail their operation gives, OP_MEM_READ with status 13 where a byte is in memory that is not populated. OP_STREAM_READ of a FIFO's one
packet copies its length word and padded payload to the host, with Relaxed Ordering where RO_EN is set.
Rules: R395, R398, R400, R399, R34, R32, R407. -/
def Obligations.DescriptorCommandsAct : Prop :=
  ∀ s : State, s.dev.awake = true →
  (∀ ch q words list, ch < 32 → s.dev.fb HIF_STAT.LINK_UP = true → (s.dev.dch ch).st = .idle → s.dev.nextSq ch = some q → words.length = 8 →
    dOp words ≤ 5 → dBad words list = none → Effect (.descriptorFetch ch words list) s (fun d =>
      (d.dch ch).st = .running ∧ (d.dch ch).cur = some ⟨q, s.dev.f HIF_SQ_CFG.CQ q, words, dPieces words list⟩ ∧
      (d.dch ch).left = pieceSum (dPieces words list) ∧ (d.sqSt q).head = ((s.dev.sqSt q).head + 1) % s.dev.sqSize q)) ∧
  (∀ ch x, ch < 32 → s.dev.xfer ch 0 = some x → Effect (.opNop ch) s (fun d => d = s.dev.finish ch 0 0 0)) ∧
  (∀ ch x, ch < 32 → (s.dev.dch ch).cur = some x → (s.dev.dch ch).st = .running → 5 < dOp x.words → Effect (.opUndefined ch) s (fun d => d = s.dev.finish ch 1 0 0)) ∧
  (∀ ch x, ch < 32 → s.dev.xfer ch 1 = some x → (s.dev.dch ch).left = 0 → dTable x.words ≠ tGraph → Effect (.opTableLoad ch) s (fun d =>
    d = (s.dev.loadNow x (xferEntries x (s.dev.dch ch).got)).2.finish ch (s.dev.loadNow x (xferEntries x (s.dev.dch ch).got)).1.status 0
      (s.dev.loadNow x (xferEntries x (s.dev.dch ch).got)).1.detail)) ∧
  (∀ ch x, ch < 32 → s.dev.xfer ch 2 = some x → s.dev.mem.bad = [] → dTable x.words ≠ tGraph → Effect (.opTableRead ch) s (fun d => d =
    ((s.dev.mergeReadT (dTable x.words) (bx (wd x.words 2) 23 0) (bx (wd x.words 3) 23 0)).dataPut x (swapBytes (dSwap x.words)
      (s.dev.tableRead (dTable x.words) (bx (wd x.words 1) 9 0) (bx (wd x.words 2) 23 0) (bx (wd x.words 3) 23 0)))).finish ch 0 0 0)) ∧
  (∀ ch x, ch < 32 → s.dev.xfer ch 3 = some x → bx (wd x.words 1) 31 30 = 1 → Effect (.opHeatEnable ch) s (fun d =>
    d = (s.dev.heatEnable (bx (wd x.words 1) 9 0)).2.finish ch (s.dev.heatEnable (bx (wd x.words 1) 9 0)).1.status 0 (s.dev.heatEnable (bx (wd x.words 1) 9 0)).1.detail)) ∧
  (∀ ch x, ch < 32 → s.dev.xfer ch 3 = some x → bx (wd x.words 1) 31 30 = 2 → Effect (.opHeatDisable ch) s (fun d =>
    d = (s.dev.heatDisable (bx (wd x.words 1) 9 0)).finish ch 0 0 0)) ∧
  (∀ ch x, ch < 32 → s.dev.xfer ch 4 = some x → s.dev.mem.bad = [] →
    Effect (.opMemRead ch none) s (fun d =>
      (s.dev.ddrAbsent x ch → d = s.dev.finish ch 13 (s.dev.dch ch).left 0) ∧
      (¬ s.dev.ddrAbsent x ch → d = (s.dev.dataPut x (swapBytes (dSwap x.words)
        (ddrRead s.dev.ddr ((wd x.words 1).toNat + bx (wd x.words 2) 4 0 * 4294967296) (s.dev.dch ch).left))).finish ch 0 0 0))) ∧
  (∀ ch x p, ch < 32 → s.dev.xfer ch 5 = some x → s.dev.fb HIF_STAT.LINK_UP = true → s.dev.sfSt (bx (wd x.words 1) 1 0) = [p] → p.kind < 16 →
    (s.dev.dch ch).copied = 0 → 4 + (pad4 p.payload).length ≤ dLen x.words → Effect (.opStreamRead ch) s (fun d =>
      d.sfSt (bx (wd x.words 1) 1 0) = [] ∧ (d.dch ch).copied = 4 + (pad4 p.payload).length ∧
      .hostWrite (s.dev.fb HIF_CFG.RO_EN) (dAddr x.words + 4) (pad4 p.payload) ∈ d.out ∧
      .hostWrite (s.dev.fb HIF_CFG.RO_EN) (dAddr x.words) (le32 (lenWord p)) ∈ d.out))

/-- DMA channels: data arriving, stop in both modes, abort, start, the idle timeout, and a FIFO flush.
Where a gate is named (the device alive: powered and out of RESET; awake: also out of HOLD), it is a hypothesis. Every clause concludes that exec
answers a next state whose device, before what follows every command, has the listed content. DMA_READ_COMPLETION takes its bytes. DMA_CH_STOP stops
an idle channel and, with STOP_MODE 1, marks a running one aborting; DMA_ABORT_DONE finishes it with status 12 and the residue, behind its barrier. DMA_CH_START makes a
stopped channel idle. STREAM_READ_IDLE_TIMEOUT ends a stream read whose FIFO has stood empty for IDLE_US. STREAM_FIFO_FLUSH empties a FIFO that no
channel reads.
Rules: R404, R403, R407, R408. -/
def Obligations.DmaChannelCommandsAct : Prop :=
  ∀ s : State, s.dev.awake = true →
  (∀ ch x data, ch < 32 → s.dev.xfer ch 1 = some x → data ≠ [] → data.length ≤ (s.dev.dch ch).left → Effect (.dmaReadCompletion ch data true) s (fun d =>
    (d.dch ch).left = (s.dev.dch ch).left - data.length ∧ (d.dch ch).got = (s.dev.dch ch).got ++ data ∧ d.tables = s.dev.tables)) ∧
  (∀ ch, ch < 32 → (s.dev.dch ch).st = .idle → Effect (.dmaChStop ch) s (fun d => (d.dch ch).st = .stopped ∧ (d.dch ch).cur = none)) ∧
  (∀ ch, ch < 32 → (s.dev.dch ch).st = .running → s.dev.fb DMA_CH_CFG.STOP_MODE ch = true → Effect (.dmaChStop ch) s (fun d =>
    (d.dch ch).aborting = true ∧ (d.dch ch).st = .running ∧ (d.dch ch).cur = (s.dev.dch ch).cur)) ∧
  (∀ ch x, ch < 32 → (s.dev.dch ch).cur = some x → (s.dev.dch ch).aborting = true → dOp x.words = 2 ∨ dOp x.words = 4 ∨ dOp x.words = 5 →
    Effect (.dmaAbortDone ch) s (fun d => d = (s.dev.barrier x (s.dev.dch ch).copied).finish ch 12 (s.dev.dch ch).left 0)) ∧
  (∀ ch, ch < 32 → (s.dev.dch ch).st = .stopped → Effect (.dmaChStart ch) s (fun d => (d.dch ch).st = .idle)) ∧
  (∀ ch x t, ch < 32 → s.dev.xfer ch 5 = some x → (s.dev.dch ch).lastCopy = some t → s.dev.sfSt (bx (wd x.words 1) 1 0) = [] →
    t + max 1 (s.dev.f HIF_SF_CFG.IDLE_US (bx (wd x.words 1) 1 0)) * Time.usU ≤ s.dev.now → Effect (.streamReadIdleTimeout ch) s (fun d => d = s.dev.streamDone ch x 0)) ∧
  (∀ n, n < 3 → s.dev.streamReader n = none → Effect (.streamFifoFlush n) s (fun d => d.sfSt n = [] ∧ ∀ m, m ≠ n → d.sfSt m = s.dev.sfSt m))

/-- A table load stops at its first refused entry, and an entry's tests come in the order permission, reserved bits, own checks.
If the entries before one load, and that one is refused, the load answers its status and its position, and the device as the entries before it left
it. An entry that may not be written is refused with status 4; else one with reserved bits set with status 3; else its own checks decide between 0
and 3.
Rules: R400, R519, R520. -/
def Obligations.TableLoadsStopAtTheFirstRefusal : Prop :=
  (∀ (t first k : Nat) (a : List (List Word)) (e : List Word) (b : List (List Word)) (d d1 : Device) (n : Nat),
  loadFrom t first k a d = (⟨0, 0⟩, d1) → d1.entryStatus t (first + k + a.length) e = n + 1 →
    loadFrom t first k (a ++ e :: b) d = (⟨n + 1, k + a.length⟩, d1)) ∧
(∀ (d : Device) (t pos : Nat) (e : List Word),
  (d.entryLocked t pos e = true → d.entryStatus t pos e = 4) ∧
  (d.entryLocked t pos e = false → entryClear t pos e = false → d.entryStatus t pos e = 3) ∧
  (d.entryLocked t pos e = false → entryClear t pos e = true → d.entryStatus t pos e = if d.entryOk t pos e then 0 else 3))

/-- WRITE and ERASE of a root slot: the bank that is written, and slots in use refused.
Where a gate is named (the device alive: powered and out of RESET; awake: also out of HOLD), it is a hypothesis. Every clause concludes that exec
answers a next state whose device, before what follows every command, has the listed content. On a slot not in use, KEY_CMD_WRITE sets BUSY and
writes the data registers' key with the next generation into the bank that is not in force (bank A of an empty slot), and KEY_CMD_ERASE clears both
banks; no other slot changes (with no word of memory marked as in error). On a slot in use both are refused with ECODE 2.
Rules: R416, R417. -/
def Obligations.RootSlotCommandsAct : Prop :=
  ∀ (s : State) (host : Bool) (slot mask : Nat), slot < 64 → s.dev.keyReady host →
  (s.dev.mem.bad = [] → s.dev.slotInUse slot = false → Effect (.keyCmdWrite host slot mask) s (fun d => d.fb KEY_STAT.BUSY = true ∧
    (inForce (s.dev.root slot) = none → d.root slot = { s.dev.root slot with a := ⟨1, mask % 256, s.dev.keyData, 0#32⟩ } ∧ d.key.op = some (.write slot false)) ∧
    (∀ b, inForce (s.dev.root slot) = some (true, b) →
      d.root slot = { s.dev.root slot with a := ⟨(b.gen + 1) % 2 ^ 32, mask % 256, s.dev.keyData, 0#32⟩ } ∧ d.key.op = some (.write slot false)) ∧
    (∀ b, inForce (s.dev.root slot) = some (false, b) →
      d.root slot = { s.dev.root slot with b := ⟨(b.gen + 1) % 2 ^ 32, mask % 256, s.dev.keyData, 0#32⟩ } ∧ d.key.op = some (.write slot true)) ∧
    ∀ t, t ≠ slot → d.root t = s.dev.root t)) ∧
  (s.dev.mem.bad = [] → s.dev.slotInUse slot = false → Effect (.keyCmdErase host slot) s (fun d => (d.root slot).a.commit = 0#32 ∧ (d.root slot).b.commit = 0#32 ∧
    (d.root slot).a.key = zeroKey ∧ (d.root slot).b.key = zeroKey ∧ (∀ t, t ≠ slot → d.root t = s.dev.root t) ∧
    d.ctr KEY_CMDS = (s.dev.ctr KEY_CMDS + 1) % 2 ^ 32)) ∧
  (s.dev.slotInUse slot = true → ∀ c, c = .keyCmdWrite host slot mask ∨ c = .keyCmdErase host slot → Effect c s (keyRefused s 2))

/-- Key store commands are refused without privilege, in HOLD or with PFW_N low, and while BUSY.
Where a gate is named (the device alive: powered and out of RESET; awake: also out of HOLD), it is a hypothesis. Every clause concludes that exec
answers a next state whose device, before what follows every command, has the listed content. Each of the six key store commands is refused in HOLD or
with PFW_N low with ECODE 7; else from the host without PRIV with ECODE 1; else while BUSY with ECODE 4. A refusal changes nothing of the key store.
Rules: R415, R416, R418, R422. -/
def Obligations.KeyCommandGate : Prop :=
  ∀ (s : State) (host : Bool) (slot mask group : Nat) (c : Instr), s.dev.alive = true →
  c = .keyCmdWrite host slot mask ∨ c = .keyCmdErase host slot ∨ c = .keyCmdSetNext host group ∨ c = .keyCmdRoll host group ∨
    c = .keyCmdClear host group ∨ c = .keyCmdCloseWindow host →
  (s.dev.pwr.mode = .hold ∨ s.dev.pwr.pfw = false → Effect c s (keyRefused s 7)) ∧
  (host = true → s.dev.fb KEY_STAT.PRIV = false → s.dev.pwr.mode ≠ .hold → s.dev.pwr.pfw = true → Effect c s (keyRefused s 1)) ∧
  (host = false ∨ s.dev.fb KEY_STAT.PRIV = true → s.dev.pwr.mode ≠ .hold → s.dev.pwr.pfw = true → s.dev.fb KEY_STAT.BUSY = true → Effect c s (keyRefused s 4))

/-- KEY_CMD_COMPLETE commits a write or a SET_NEXT, and a written key is then in force with the next generation.
Where a gate is named (the device alive: powered and out of RESET; awake: also out of HOLD), it is a hypothesis. Every clause concludes that exec
answers a next state whose device, before what follows every command, has the listed content. With no word of memory marked as in error:
KEY_CMD_COMPLETE after a WRITE sets the bank's commit
to its CRC, clears the data registers and BUSY and changes no other slot; after a SET_NEXT it stores the derived key as the group's next. A WRITE and
its completion leave in force the bank that was not, holding the data registers' key and mask and the next generation.
Rules: R413, R414, R418, R419. -/
def Obligations.KeyCommandsComplete : Prop :=
  (∀ s : State, s.dev.alive = true → s.dev.mem.bad = [] →
  (∀ slot, s.dev.key.op = some (.write slot false) → Effect .keyCmdComplete s (fun d => d.key.op = none ∧ d.fb KEY_STAT.BUSY = false ∧
    d.root slot = { s.dev.root slot with a := { (s.dev.root slot).a with commit := bankCrc (s.dev.root slot).a } } ∧
    (∀ t, t ≠ slot → d.root t = s.dev.root t) ∧ (∀ i, i < 8 → d.rg KEY_DATA i = 0#32) ∧ d.key.groups = s.dev.key.groups)) ∧
  (∀ slot, s.dev.key.op = some (.write slot true) → Effect .keyCmdComplete s (fun d => d.key.op = none ∧ d.fb KEY_STAT.BUSY = false ∧
    d.root slot = { s.dev.root slot with b := { (s.dev.root slot).b with commit := bankCrc (s.dev.root slot).b } } ∧
    (∀ t, t ≠ slot → d.root t = s.dev.root t) ∧ (∀ i, i < 8 → d.rg KEY_DATA i = 0#32) ∧ d.key.groups = s.dev.key.groups)) ∧
  (∀ g e, s.dev.key.op = some (.setNext g e) → Effect .keyCmdComplete s (fun d => d.key.op = none ∧ d.fb KEY_STAT.BUSY = false ∧
    d.grp g = ⟨(s.dev.grp g).cur, some e⟩ ∧ (∀ h, h ≠ g → d.grp h = s.dev.grp h) ∧ d.key.slots = s.dev.key.slots))) ∧
(∀ (d : Device) (slot mask : Nat), slot < 64 → d.mem.bad = [] → d.slotInUse slot = false →
  ∃ b, inForce ((keyComplete (keyWrite slot mask d)).root slot) = some b ∧ b.2.key = d.keyData ∧ b.2.mask = mask % 256 ∧
    b.2.gen = (match inForce (d.root slot) with | none => 1 | some o => (o.2.gen + 1) % 2 ^ 32) ∧
    (∀ o, inForce (d.root slot) = some o → b.1 = !o.1))

/-- SET_NEXT, ROLL and CLEAR of a key group.
Where a gate is named (the device alive: powered and out of RESET; awake: also out of HOLD), it is a hypothesis. Every clause concludes that exec
answers a next state whose device, before what follows every command, has the listed content. KEY_CMD_SET_NEXT with a root in force and a legal path
starts the derivation of the path's key, else it is refused with ECODE 3. KEY_CMD_ROLL makes the next key current and leaves no next, or is refused
with ECODE 3 where there is none. KEY_CMD_CLEAR empties the group. No other group changes.
Rules: R422. -/
def Obligations.KeyGroupCommandsAct : Prop :=
  ∀ (s : State) (host : Bool) (g : Nat), g < 1024 → s.dev.keyReady host →
  (∀ o, inForce (s.dev.root (s.dev.f KEY_PATH_ROOT.ROOT)) = some o → s.dev.f KEY_PATH_ROOT.DEPTH ≤ 6 → (s.dev.rg KEY_PATH_ROOT 0 &&& 0xC0F8FFFF#32) = 0#32 →
    Effect (.keyCmdSetNext host g) s (fun d => d.fb KEY_STAT.BUSY = true ∧ d.key.groups = s.dev.key.groups ∧ ∃ e, d.key.op = some (.setNext g e) ∧
      e.root = s.dev.f KEY_PATH_ROOT.ROOT ∧ e.kid = s.dev.rg KEY_PATH_KID 0 ∧
      e.labels = (List.range (s.dev.f KEY_PATH_ROOT.DEPTH)).map (fun i => s.dev.rg KEY_PATH_L i) ∧ e.key = s.dev.pathKey o.2 e.labels)) ∧
  (inForce (s.dev.root (s.dev.f KEY_PATH_ROOT.ROOT)) = none ∨ s.dev.f KEY_PATH_ROOT.DEPTH = 7 ∨ (s.dev.rg KEY_PATH_ROOT 0 &&& 0xC0F8FFFF#32) ≠ 0#32 →
    Effect (.keyCmdSetNext host g) s (keyRefused s 3)) ∧
  (∀ e, (s.dev.grp g).next = some e → Effect (.keyCmdRoll host g) s (fun d => d.grp g = ⟨some e, none⟩ ∧ (∀ h, h ≠ g → d.grp h = s.dev.grp h) ∧
    d.ctr KEY_ROLLS = (s.dev.ctr KEY_ROLLS + 1) % 2 ^ 32 ∧ d.key.slots = s.dev.key.slots)) ∧
  ((s.dev.grp g).next = none → Effect (.keyCmdRoll host g) s (keyRefused s 3)) ∧
  (mwf s.dev.key.groups = true → Effect (.keyCmdClear host g) s (fun d => d.grp g = ⟨none, none⟩ ∧ (∀ h, h ≠ g → d.grp h = s.dev.grp h) ∧
    d.key.slots = s.dev.key.slots ∧ d.ctr KEY_CMDS = (s.dev.ctr KEY_CMDS + 1) % 2 ^ 32))

/-- Every step keeps the key groups in rising order without repeats.
For every state whose key groups stand in strictly rising order of their numbers, every step that answers a next state leaves them so: clearing a
group therefore leaves no key of it behind. That reset has it is a clause of ResetHoldsTheStatedValues.
Rules: R418, R423. -/
def Obligations.KeyGroupsStayCanonical : Prop :=
  ∀ s t : State, mwf s.dev.key.groups = true → step s = .next t → mwf t.dev.key.groups = true

/-- The privilege window opens by token, locks out and closes, and attestation fills its result slot.
Where a gate is named (the device alive: powered and out of RESET; awake: also out of HOLD), it is a hypothesis. Every clause concludes that exec
answers a next state whose device, before what follows every command, has the listed content. KEY_UNLOCK with the token and no lock-out opens the
window; any other attempt counts as a failure, the third locks out. KEY_CMD_CLOSE_WINDOW and PRIV_WINDOW_EXPIRY, after its 1,280,000,000 ticks, close
it. ATTEST_REQUEST with the slot free, attestation enabled, BD_LOCK and a key in force takes the slot, else it is refused with ECODE 4 or 3;
ATTEST_READY shows the response; ATTEST_RELEASE with the slot's number empties it, with any other it only counts.
Rules: R415, R426, R409. -/
def Obligations.WindowAndAttestationCommandsAct : Prop :=
  (∀ s : State, s.dev.alive = true →
  (∀ lo, s.dev.fb KEY_STAT.LOCKOUT = false → s.dev.key.token = some ((s.dev.rg KEY_UNLOCK_HI 0).toNat * 2 ^ 32 + lo.toNat) →
    Effect (.keyUnlock lo) s (fun d => d.fb KEY_STAT.PRIV = true ∧ d.key.openedAt = some s.dev.tk.ticks ∧ d.key.fails = s.dev.key.fails)) ∧
  (∀ lo, s.dev.fb KEY_STAT.LOCKOUT = true ∨ s.dev.key.token ≠ some ((s.dev.rg KEY_UNLOCK_HI 0).toNat * 2 ^ 32 + lo.toNat) →
    Effect (.keyUnlock lo) s (fun d => d.f KEY_STAT.PRIV = s.dev.f KEY_STAT.PRIV ∧ d.key = { s.dev.key with fails := s.dev.key.fails + 1 } ∧
      d.ctr KEY_PRIV_FAIL = (s.dev.ctr KEY_PRIV_FAIL + 1) % 2 ^ 32 ∧ (s.dev.key.fails + 1 ≥ 3 → d.fb KEY_STAT.LOCKOUT = true) ∧
      (s.dev.fb KEY_STAT.LOCKOUT = true → d.f KEY_STAT.ERR = 1 ∧ d.f KEY_STAT.ECODE = 5))) ∧
  (∀ host, s.dev.keyReady host → Effect (.keyCmdCloseWindow host) s (fun d => d.fb KEY_STAT.PRIV = false ∧ d.key = { s.dev.key with openedAt := none })) ∧
  (∀ t, s.dev.key.openedAt = some t → t + 1280000000 ≤ s.dev.tk.ticks → Effect .privWindowExpiry s (fun d => d.fb KEY_STAT.PRIV = false ∧
    d.key = { s.dev.key with openedAt := none }))) ∧
(∀ s : State, s.dev.alive = true →
  (∀ o, s.dev.key.slot.st = .free → s.dev.fb KEY_ATT_CFG.EN = true → s.dev.fb KEY_STAT.BD_LOCK = true → inForce (s.dev.root (s.dev.f KEY_ATT_CFG.SLOT)) = some o →
    Effect .attestRequest s (fun d => d.key.slot.st = .busy ∧ d.key.slot.seq = (s.dev.key.slot.seq + 1) % 65536 ∧
      d.key.attPending = leWords 4 (s.dev.attResponse o.2.key))) ∧
  (s.dev.key.slot.st ≠ .free → Effect .attestRequest s (keyRefused s 4)) ∧
  (s.dev.key.slot.st = .free → s.dev.fb KEY_ATT_CFG.EN = false ∨ s.dev.fb KEY_STAT.BD_LOCK = false ∨
    inForce (s.dev.root (s.dev.f KEY_ATT_CFG.SLOT)) = none → Effect .attestRequest s (keyRefused s 3)) ∧
  (s.dev.key.slot.st = .busy → Effect .attestReady s (fun d => d.key.slot.st = .held ∧ d.key.slot.seq = s.dev.key.slot.seq ∧
    (∀ n, n < 4 → slotWord d.key.slot n = wd s.dev.key.attPending n) ∧ d.ctr KEY_ATTESTS = (s.dev.ctr KEY_ATTESTS + 1) % 2 ^ 32)) ∧
  (∀ v, bx v 15 0 = s.dev.key.slot.seq → Effect (.attestRelease v) s (fun d => d.key.slot.st = .free ∧
    d.key.slot.seq = s.dev.key.slot.seq ∧ ∀ n, slotWord d.key.slot n = 0#32)) ∧
  (∀ v, bx v 15 0 ≠ s.dev.key.slot.seq → Effect (.attestRelease v) s (fun d => d.key = s.dev.key ∧
    d.ctr HIF_SLOT_REL_BAD = (s.dev.ctr HIF_SLOT_REL_BAD + 1) % 2 ^ 32)))

/-- TAMPER_N and the loss of VBAT zeroise, and boot digests extend only in WARMUP before BD_LOCK.
Where a gate is named (the device alive: powered and out of RESET; awake: also out of HOLD), it is a hypothesis. Every clause concludes that exec
answers a next state whose device, before what follows every command, has the listed content. TAMPER_ZEROISE leaves no slot, group, token, operation
or open window, powered or not, and no key of a WRITE under way; one that no record can report now is kept for WARMUP. VBAT_LOSS on a powered device only records that VBAT is gone; on an unpowered one the slots are gone.
BOOT_DIGEST_EXTEND in WARMUP before BD_LOCK replaces a digest with the SHA-256 of it and the measurement, and changes nothing otherwise.
Rules: R427, R419, R413. -/
def Obligations.ZeroisationAndDigestsAct : Prop :=
  ∀ s : State,
  (s.dev.pwr.powered = true → Effect .tamperZeroise s (fun d => d.key.slots = [] ∧ d.key.groups = [] ∧ d.key.token = none ∧ d.key.tampered = true ∧
    d.key.op = none ∧ d.key.openedAt = none ∧ d.fb KEY_STAT.PRIV = false ∧ d.fb KEY_STAT.BUSY = false ∧
    (∀ slot b, s.dev.key.op = some (.write slot b) → ∀ i, i < 8 → d.rg KEY_DATA i = 0#32) ∧
    (s.dev.pwr.mode = .reset ∨ s.dev.pwr.mode = .hold → d.key.tamperOff = some 1))) ∧
  (s.dev.pwr.powered = false → Effect .tamperZeroise s (fun d => d.key.slots = [] ∧ d.key.token = none ∧ d.key.tampered = true)) ∧
  (∀ n m, s.dev.alive = true → s.dev.pwr.mode = .warmup → s.dev.fb KEY_STAT.BD_LOCK = false → n < 8 → Effect (.bootDigestExtend n m) s (fun d =>
    d.bd n = sha256 (s.dev.bd n ++ m) ∧ ∀ k, k ≠ n → d.bd k = s.dev.bd k)) ∧
  (∀ n m, s.dev.alive = true → s.dev.pwr.mode ≠ .warmup ∨ s.dev.fb KEY_STAT.BD_LOCK = true → Effect (.bootDigestExtend n m) s (fun d => d = s.dev)) ∧
  (s.dev.pwr.powered = true → Effect .vbatLoss s (fun d => d.key = { s.dev.key with vbat := false })) ∧
  (s.dev.pwr.powered = false → Effect .vbatLoss s (fun d => d.key.vbat = false ∧ d.key.slots = [] ∧ d.key.tampered = false))

/-- An event folds into the newest record, starts a record, or is lost when the buffer is full; a flush starts at a fault event or a full buffer.
Where records are not muted (HOLD) and the count does not change a counter's top bit: an event equal to the newest record folds into it; else, with
fewer than 2,048 records, a record with the next SEQ is appended; else one more record is lost. Outside HOLD a flush is then under way where the
event is a fault event, folded or lost too, or the buffer holds 1,536 records or more; nothing else of the Scorebook changes.
Rules: R432, R434, R435, R436. -/
def Obligations.EventsAreRecordedOrFoldedOrLost : Prop :=
  ∀ (d : Device) (e : EvId) (dat : List Nat), d.muted e = false →
  (∀ r, d.scb.buf.getLast? = some r → foldsInto r e dat d.tk.now = true → d.countsQuietly SCB_FOLDED → d.countsQuietly SCB_FLUSHES →
    (d.raise e dat).scb.buf = d.scb.buf.dropLast ++ [{ r with rep := min (r.rep + 1) 65535, lastOfs := (d.tk.now - r.first) / Time.usU }] ∧
    (d.raise e dat).scb.next = d.scb.next ∧ (d.raise e dat).scb.lost = d.scb.lost ∧ (d.raise e dat).scb.flash = d.scb.flash ∧
    (d.pwr.mode ≠ .hold → isFaultEvent e dat = true ∨ 1536 ≤ d.scb.buf.length → (d.raise e dat).scb.flushing ≠ 0) ∧
    (isFaultEvent e dat = false → d.scb.buf.length < 1536 → (d.raise e dat).scb.flushing = d.scb.flushing)) ∧
  ((∀ r, d.scb.buf.getLast? = some r → foldsInto r e dat d.tk.now = false) → d.scb.buf.length < 2048 → d.countsQuietly SCB_RECORDS → d.countsQuietly SCB_FLUSHES →
    (d.raise e dat).scb.buf = d.scb.buf ++ [scbRecord d e dat false] ∧ (d.raise e dat).scb.next = (d.scb.next + 1) % 2 ^ 32 ∧
    (d.pwr.mode ≠ .hold → isFaultEvent e dat = true ∨ 1535 ≤ d.scb.buf.length → (d.raise e dat).scb.flushing ≠ 0) ∧
    (isFaultEvent e dat = false → d.scb.buf.length < 1535 → (d.raise e dat).scb.flushing = d.scb.flushing)) ∧
  ((∀ r, d.scb.buf.getLast? = some r → foldsInto r e dat d.tk.now = false) → 2048 ≤ d.scb.buf.length → d.countsQuietly SCB_LOST → d.countsQuietly SCB_FLUSHES →
    (d.raise e dat).scb.buf = d.scb.buf ∧ (d.raise e dat).scb.next = d.scb.next ∧ (d.raise e dat).scb.lost = d.scb.lost + 1 ∧
    (d.pwr.mode ≠ .hold → (d.raise e dat).scb.flushing ≠ 0))

/-- Scorebook: flush, its end, a failed write, and the look-up of a record by SEQ.
Where a gate is named (the device alive: powered and out of RESET; awake: also out of HOLD), it is a hypothesis. Every clause concludes that exec
answers a next state whose device, before what follows every command, has the listed content. SCB_FLUSH_WRITE starts a flush of what the buffer
holds, but in HOLD. SCOREBOOK_FLUSH_DONE, once warm-up is complete, with success moves the flushed records to flash in order; without, it programs
some of them (how many is open, log entry 97), sets NOR_ERR and moves to the next sector, or passes over the sector that it could not erase ahead.
SCOREBOOK_LOOKUP starts a look-up, and SCOREBOOK_LOOKUP_DONE ends it and, where no word of memory is marked as in error, shows FOUND for a record of
that SEQ in buffer or flash, and only then.
Rules: R435, R438, R440. -/
def Obligations.ScorebookCommandsAct : Prop :=
  ∀ s : State, s.dev.alive = true →
  (s.dev.pwr.mode ≠ .hold → s.dev.scb.buf ≠ [] → s.dev.scb.flushing = 0 → Effect .scbFlushWrite s (fun d => d.scb.flushing = s.dev.scb.buf.length ∧
    d.f SCB_CTL.FLUSH = 1)) ∧
  (s.dev.pwr.mode = .hold → s.dev.scb.flushing = 0 → Effect .scbFlushWrite s (fun d => d = s.dev)) ∧
  (s.dev.scb.flushing ≠ 0 → s.dev.scb.flushing ≤ 2048 → s.dev.scb.wpos < 1048576 → s.dev.mem.bad = [] → s.dev.scb.lost = 0 → s.dev.scb.flushAgain = false →
    s.dev.scb.skip = none → s.dev.scb.buf.length < s.dev.scb.flushing + 1536 → s.dev.pwr.mode ≠ .warmup ∨ s.dev.pwr.wuDone = true →
    s.dev.ctr SCB_ERASES + 2048 < 2147483648 → Effect (.scorebookFlushDone true) s (fun d => d.scb.buf = s.dev.scb.buf.drop s.dev.scb.flushing ∧
      d.scb.flushing = 0 ∧ d.f SCB_CTL.FLUSH = 0 ∧ (∀ i r, i < s.dev.scb.flushing → s.dev.scb.buf[i]? = some r → mget d.scb.flash ((s.dev.scb.wpos + i) % 1048576) = some r) ∧
      d.scb.wpos = (s.dev.scb.wpos + min s.dev.scb.flushing s.dev.scb.buf.length) % 1048576)) ∧
  (s.dev.scb.flushing ≠ 0 → s.dev.scb.flushing ≤ s.dev.scb.buf.length → s.dev.scb.flushing ≤ 2048 → s.dev.scb.wpos < 1048576 → s.dev.mem.bad = [] →
    s.dev.scb.lost = 0 → s.dev.scb.skip = none → s.dev.pwr.mode ≠ .warmup ∨ s.dev.pwr.wuDone = true → s.dev.ctr SCB_ERASES + 2048 < 2147483648 →
    Effect (.scorebookFlushDone false) s (fun d => d.f SCB_STAT.NOR_ERR = 1 ∧ ∃ k w, k < s.dev.scb.flushing ∧ w = (s.dev.scb.wpos + k) % 1048576 ∧
      (∀ i r, i < k → s.dev.scb.buf[i]? = some r → mget d.scb.flash ((s.dev.scb.wpos + i) % 1048576) = some r) ∧
      ((d.scb.wpos = (w / 128 + 1) * 128 % 1048576 ∧ d.scb.skip = none) ∨ (w % 128 = 0 ∧ d.scb.wpos = w ∧ d.scb.skip = some ((w / 128 + 1) % 8192))))) ∧
  (∀ ok, s.dev.pwr.mode = .warmup → s.dev.pwr.wuDone = false → Effect (.scorebookFlushDone ok) s (fun d => d = s.dev)) ∧
  (∀ q, Effect (.scorebookLookup q) s (fun d => d.rg SCB_RD_SEQ 0 = q ∧ d.f SCB_RD_STAT.DONE = 0 ∧ d.f SCB_RD_STAT.FOUND = 0 ∧ d.scb.looking = true ∧
    d.scb.found = none)) ∧
  (s.dev.scb.looking = true → Effect .scorebookLookupDone s (fun d => d.f SCB_RD_STAT.DONE = 1 ∧ d.scb.looking = false ∧
    d.f SCB_RD_STAT.FOUND = b2n d.scb.found.isSome ∧ (∀ r, s.dev.mem.bad = [] → d.scb.found = some r → r.seq = (s.dev.rg SCB_RD_SEQ 0).toNat ∧
      (r ∈ s.dev.scb.buf ∨ r ∈ mvals s.dev.scb.flash)) ∧
    (d.scb.found = none → s.dev.mem.bad = [] → ∀ r, r ∈ s.dev.scb.buf ∨ r ∈ mvals s.dev.scb.flash → r.seq ≠ (s.dev.rg SCB_RD_SEQ 0).toNat)))

/-- A journal entry takes the next JSEQ and stands at the write pointer of the ring and nowhere else.
With the journal enabled, its DDR5 area valid and the mode one that journals (log entry 46): an entry takes the next sequence number, is remembered
with its place, changes no byte outside the journal's area, and, where memory is canonical and the entry fits, its packets' bytes stand from the
write pointer on, around the ring.
Rules: R441, R442, R443, R444. -/
def Obligations.JournalEntriesStandInTheRing : Prop :=
  ∀ (d : Device) (typ aux : Nat) (inst : Time) (payload : List Byte),
  d.fb JNL_CFG.EN = true → d.fb JNL_DDR.VALID = true → d.journals = true →
  (d.journal typ aux inst payload).jnl.next = (d.jnl.next + 1) % 2 ^ 32 ∧
  (∃ p, (d.journal typ aux inst payload).jnl.places.getLast? = some p ∧ p.entry = ⟨typ, aux, d.jnl.next, inst, payload⟩ ∧ p.start = d.jnl.wptr) ∧
  (∀ a, a < d.jBase ∨ d.jBase + max 1 d.jSize ≤ a → ddrGet (d.journal typ aux inst payload).ddr a = ddrGet d.ddr a) ∧
  (Memory.wf d.ddr = true → ((jChain ⟨typ, aux, d.jnl.next, inst, payload⟩).flatMap packetBytes).length ≤ d.jSize →
    ∀ i b, ((jChain ⟨typ, aux, d.jnl.next, inst, payload⟩).flatMap packetBytes)[i]? = some b →
      ddrGet (d.journal typ aux inst payload).ddr (d.jBase + (d.jnl.wptr + i) % d.jSize) = b)

/-- The journal's drain, gap packets, and checkpoints asked for, started and ended.
Where a gate is named (the device alive: powered and out of RESET; awake: also out of HOLD), it is a hypothesis. Every clause concludes that exec
answers a next state whose device, before what follows every command, has the listed content. JOURNAL_DRAIN moves the next one-packet entry, or a gap
packet, into FIFO 0 while it has room. JNL_CKPT_WRITE asks for a checkpoint at the next microsecond; CHECKPOINT_START, at a minute or at the tick
asked for, closes a checkpoint that is open (log entry 98), makes the start line's entry with that instant and remembers the device; CHECKPOINT_END
makes the end entry with the image's length and CRC and shows the start line.
Rules: R445, R446. -/
def Obligations.JournalCommandsAct : Prop :=
  ∀ s : State, s.dev.awake = true →
  (∀ p k, s.dev.draining = true → s.dev.jnl.gap = none → s.dev.drainNext = some p → s.dev.mem.bad = [] → s.dev.jnl.drainAt = 0 → jChain p.entry = [k] →
    s.dev.fb HIF_SF_CFG.EN 0 = true → sfLevel (s.dev.sfSt 0 ++ [k]) ≤ sfCap 0 →
    Effect (.journalDrain false) s (fun d => d.sfSt 0 = s.dev.sfSt 0 ++ [k] ∧ d.jnl = { s.dev.jnl with drained := (p.entry.jseq + 1) % 2 ^ 32, drainAt := 0 })) ∧
  (∀ a n, s.dev.draining = true → s.dev.jnl.gap = some (a, n) → s.dev.fb HIF_SF_CFG.EN 0 = true → sfLevel (s.dev.sfSt 0 ++ [gapPacket a n]) ≤ sfCap 0 →
    Effect (.journalDrain false) s (fun d => d.sfSt 0 = s.dev.sfSt 0 ++ [gapPacket a n] ∧ d.jnl = { s.dev.jnl with gap := none, lostEp := false })) ∧
  (s.dev.journaling = true → Effect .jnlCkptWrite s (fun d => d.jnl = { s.dev.jnl with ckptAsk := some ((s.dev.tk.now / Time.usU + 1) * Time.usU) } ∧
    d.f JNL_CTL.CKPT = 1)) ∧
  (∀ t x, s.dev.journaling = true → x = checkpointEnd s.dev → (s.dev.sec % 60 = 0 ∧ Time.nsOf s.dev.now < 1000 ∧ s.dev.jnl.lineAt ≠ some s.dev.sec ∧
      t = s.dev.sec * Time.secU) ∨ ((s.dev.sec % 60 = 0 → 1000 ≤ Time.nsOf s.dev.now ∨ s.dev.jnl.lineAt = some s.dev.sec) ∧ s.dev.jnl.ckptAsk = some t ∧
      t ≤ s.dev.now) →
    Effect .checkpointStart s (fun d => d.jnl.ckpt = some (x.jnl.next, x.takeSnap) ∧ d.jnl.ckptAsk = s.dev.jnl.ckptAsk.filter (fun a => decide (s.dev.now < a)) ∧
      d.jnl.next = (x.jnl.next + 1) % 2 ^ 32 ∧ (s.dev.jnl.ckpt = none → x = s.dev) ∧
      ∃ p, d.jnl.places.getLast? = some p ∧ p.entry.typ = 0x20 ∧ p.entry.inst = t ∧ p.entry.jseq = x.jnl.next ∧ p.entry.payload = leBytes x.startWords)) ∧
  (∀ j sn, s.dev.journaling = true → s.dev.jnl.ckpt = some (j, sn) → Effect .checkpointEnd s (fun d => d.jnl.ckpt = none ∧
    (∃ p, d.jnl.places.getLast? = some p ∧ p.entry.typ = 0x22 ∧
      p.entry.payload = leBytes [w32 (Config.ckptEncode sn).length, w32 (crc32 (Config.ckptEncode sn))]) ∧ d.rg JNL_START 0 = w32 j))

/-- Rerun: GO, STOP, input words, starvation, the end, entries applied in order, and a gap.
Where a gate is named (the device alive: powered and out of RESET; awake: also out of HOLD), it is a hypothesis. Every clause concludes that exec
answers a next state whose device, before what follows every command, has the listed content. In RERUN: RERUN_GO starts at RR_FROM; RERUN_STOP stops;
RERUN_INPUT_WORD gathers a packet's words and queues it when whole; RERUN_APPLY_ENTRY waits where no entry stands, ends at RR_UNTIL, applies the next
entry in sequence and shows its place, and stops with ECODE 3 at a gap, and with its code at a later checkpoint that does not check. The last two
hold with no burst of the ring marked as in error.
Rules: R448, R449. -/
def Obligations.RerunCommandsAct : Prop :=
  ∀ s : State, s.dev.alive = true → s.dev.pwr.mode = .rerun →
  (Effect .rerunGo s (fun d => d.f JNL_STAT.RR_STATE = 1 ∧ d.jnl.rrNext = (s.dev.rg JNL_RR_FROM 0).toNat ∧ d.jnl.rrLoaded = false)) ∧
  (s.dev.f JNL_STAT.RR_STATE = 1 ∨ s.dev.f JNL_STAT.RR_STATE = 2 → Effect .rerunStop s (fun d => d.f JNL_STAT.RR_STATE = 3 ∧ d.jnl = s.dev.jnl ∧
    d.rg JNL_RR_POS 0 = s.dev.rg JNL_RR_POS 0)) ∧
  (∀ v, s.dev.fb JNL_CFG.RR_SRC = true → s.dev.f JNL_STAT.RR_STATE ≠ 2 → bit (wd (s.dev.jnl.inWords ++ [v]) 0) 31 = true →
    1 ≤ bx (wd (s.dev.jnl.inWords ++ [v]) 0) 23 0 → bx (wd (s.dev.jnl.inWords ++ [v]) 0) 23 0 ≤ 16380 →
    (s.dev.jnl.inWords ++ [v]).length < 1 + (bx (wd (s.dev.jnl.inWords ++ [v]) 0) 23 0 + 3) / 4 →
    Effect (.rerunInputWord v) s (fun d => d = { s.dev with jnl := { s.dev.jnl with inWords := s.dev.jnl.inWords ++ [v] } })) ∧
  (∀ v, s.dev.fb JNL_CFG.RR_SRC = true → s.dev.f JNL_STAT.RR_STATE ≠ 2 → bit (wd (s.dev.jnl.inWords ++ [v]) 0) 31 = true →
    1 ≤ bx (wd (s.dev.jnl.inWords ++ [v]) 0) 23 0 → bx (wd (s.dev.jnl.inWords ++ [v]) 0) 23 0 ≤ 16380 →
    bit (wd (s.dev.jnl.inWords ++ [v]) 0) 30 = false → bx (wd (s.dev.jnl.inWords ++ [v]) 0) 27 24 ≠ 15 →
    (s.dev.jnl.inWords ++ [v]).length = 1 + (bx (wd (s.dev.jnl.inWords ++ [v]) 0) 23 0 + 3) / 4 →
    Effect (.rerunInputWord v) s (fun d => d.jnl.inWords = [] ∧ d.jnl.inQueue.length = s.dev.jnl.inQueue.length + 1)) ∧
  (s.dev.f JNL_STAT.RR_STATE = 1 → s.dev.jnl.rrNext ≠ (s.dev.rg JNL_RR_UNTIL 0).toNat → s.dev.rrEntries = [] →
    Effect (.rerunApplyEntry false) s (fun d => d.f JNL_STAT.RR_STATE = 2 ∧ d.jnl = s.dev.jnl)) ∧
  (s.dev.f JNL_STAT.RR_STATE = 1 → s.dev.jnl.rrNext = (s.dev.rg JNL_RR_UNTIL 0).toNat →
    Effect (.rerunApplyEntry false) s (fun d => d.f JNL_STAT.RR_STATE = 3 ∧ d.jnl = s.dev.jnl)) ∧
  (∀ e r, s.dev.f JNL_STAT.RR_STATE = 1 → s.dev.jnl.rrNext ≠ (s.dev.rg JNL_RR_UNTIL 0).toNat → s.dev.rrEntries = e :: r → e.typ < 256 → s.dev.mem.bad = [] →
    s.dev.jnl.rrLoaded = true → e.jseq = s.dev.jnl.rrNext → (s.dev.rrLater e).1 = none → Effect (.rerunApplyEntry false) s (fun d =>
      d.rg JNL_RR_POS 0 = w32 e.jseq ∧ d.jnl.rrNext = (e.jseq + 1) % 2 ^ 32)) ∧
  (∀ e r c, s.dev.f JNL_STAT.RR_STATE = 1 → s.dev.jnl.rrNext ≠ (s.dev.rg JNL_RR_UNTIL 0).toNat → s.dev.rrEntries = e :: r → e.typ < 256 → s.dev.mem.bad = [] →
    s.dev.jnl.rrLoaded = true → e.jseq = s.dev.jnl.rrNext → (s.dev.rrLater e).1 = some c → Effect (.rerunApplyEntry false) s (fun d =>
      d.f JNL_STAT.RR_STATE = 3 ∧ d.f JNL_STAT.ERR = 1 ∧ d.f JNL_STAT.ECODE = c)) ∧
  (∀ e r, s.dev.f JNL_STAT.RR_STATE = 1 → s.dev.jnl.rrNext ≠ (s.dev.rg JNL_RR_UNTIL 0).toNat → s.dev.rrEntries = e :: r → e.typ < 256 →
    s.dev.jnl.rrLoaded = true → e.jseq ≠ s.dev.jnl.rrNext → Effect (.rerunApplyEntry false) s (fun d => d.f JNL_STAT.RR_STATE = 3 ∧
      d.f JNL_STAT.ERR = 1 ∧ d.f JNL_STAT.ECODE = 3))

/-- Scrub reads, scrub periods, merge timeouts, an armed injection, and the clearing of a failed bank group.
Where a gate is named (the device alive: powered and out of RESET; awake: also out of HOLD), it is a hypothesis. Every clause concludes that exec
answers a next state whose device, before what follows every command, has the listed content. SCRUB_READ of a clean word moves the sweep alone; of a
correctable one it counts, shows the place and writes it back; of an uncorrectable one it counts, shows the place and leaves it marked; there is none
behind the sweep's place. SCRUB_PERIOD_END, after PERIOD_H hours, counts a pass, whose sweep begins anew, or a late one. MERGE_ENTRY_TIMEOUT writes
the oldest merge entry after 64 cycles. MEM_INJECT_ARM arms. MEM_GROUP_CLEAR clears a failed group, else sets ECODE 1.
Rules: R463, R457, R464, R461. -/
def Obligations.IntegrityCommandsAct : Prop :=
  ∀ s : State, s.dev.alive = true →
  (∀ arr bank idx loc, s.dev.awake = true → s.dev.fb MEM_CFG.SCRUB_EN = true → arr ≤ 12 ∨ arr = 16 ∨ arr = 17 → s.dev.badAt arr loc = 0 →
    mgetD s.dev.mem.sweepPos arr 0 ≤ sweepPlace bank idx →
    Effect (.scrubRead arr bank idx 0 loc) s (fun d => d = { s.dev with mem := { s.dev.mem with sweepPos := mset s.dev.mem.sweepPos arr (sweepPlace bank idx) } })) ∧
  (∀ arr bank idx kind loc, s.dev.awake = true → sweepPlace bank idx < mgetD s.dev.mem.sweepPos arr 0 →
    Effect (.scrubRead arr bank idx kind loc) s (fun d => d = s.dev)) ∧
  (∀ arr bank idx loc, s.dev.awake = true → s.dev.fb MEM_CFG.SCRUB_EN = true → arr ≤ 12 → s.dev.badAt arr loc ≤ 1 →
    mgetD s.dev.mem.sweepPos arr 0 ≤ sweepPlace bank idx →
    Effect (.scrubRead arr bank idx 1 loc) s (fun d => d.mem.bad = mdel s.dev.mem.bad (badKey arr loc) ∧
      mgetD d.mem.counts arr (0, 0) = (min 65535 ((mgetD s.dev.mem.counts arr (0, 0)).1 + 1), (mgetD s.dev.mem.counts arr (0, 0)).2) ∧
      d.rg MEM_LAST_CE 0 = memWhere arr bank ∧ d.rg MEM_LAST_CE_IDX 0 = idx ∧ d.ctr MEM_CE = (s.dev.ctr MEM_CE + 1) % 2 ^ 32 ∧
      d.ctr MEM_WRITEBACK = (s.dev.ctr MEM_WRITEBACK + 1) % 2 ^ 32)) ∧
  (∀ arr bank idx loc, s.dev.awake = true → s.dev.fb MEM_CFG.SCRUB_EN = true → arr ≤ 12 → mgetD s.dev.mem.sweepPos arr 0 ≤ sweepPlace bank idx →
    Effect (.scrubRead arr bank idx 2 loc) s (fun d => (arr ≠ 7 → d.badAt arr loc = 2) ∧
      mgetD d.mem.counts arr (0, 0) = ((mgetD s.dev.mem.counts arr (0, 0)).1, min 65535 ((mgetD s.dev.mem.counts arr (0, 0)).2 + 1)) ∧
      d.rg MEM_LAST_UE 0 = memWhere arr bank ∧ d.rg MEM_LAST_UE_IDX 0 = idx ∧ d.ctr MEM_UE = (s.dev.ctr MEM_UE + 1) % 2 ^ 32)) ∧
  (∀ arr p, s.dev.awake = true → s.dev.fb MEM_CFG.SCRUB_EN = true → p = max 1 (s.dev.f MEM_CFG.PERIOD_H) * 3600 * tkPerSec → s.dev.mem.sweepAt + p ≤ s.dev.tk.ticks →
    Effect (.scrubPeriodEnd true arr) s (fun d => d.mem = { s.dev.mem with sweepAt := s.dev.mem.sweepAt + p, sweepPos := [] } ∧
      d.ctr MEM_SCRUB_PASSES = (s.dev.ctr MEM_SCRUB_PASSES + 1) % 2 ^ 32) ∧
    Effect (.scrubPeriodEnd false arr) s (fun d => d.mem = { s.dev.mem with sweepAt := s.dev.mem.sweepAt + p } ∧
      d.ctr MEM_SCRUB_LATE = (s.dev.ctr MEM_SCRUB_LATE + 1) % 2 ^ 32)) ∧
  (∀ done arr, s.dev.awake = true → s.dev.tk.ticks < s.dev.mem.sweepAt + max 1 (s.dev.f MEM_CFG.PERIOD_H) * 3600 * tkPerSec →
    Effect (.scrubPeriodEnd done arr) s (fun d => d = s.dev)) ∧
  (∀ e, s.dev.mem.merge.head? = some e → e.since + 16 ≤ s.dev.tk.ticks → s.dev.mem.bad = [] → Effect (.mergeEntryTimeout false) s (fun d =>
    d.mem = { s.dev.mem with merge := s.dev.mem.merge.filter (· ≠ e) } ∧ d.ctr MEM_RMW = (s.dev.ctr MEM_RMW + 1) % 2 ^ 32)) ∧
  (∀ e, s.dev.mem.merge.head? = some e → e.since + 16 ≤ s.dev.tk.ticks → s.dev.mem.bad = [] → Effect (.mergeEntryTimeout true) s (fun d =>
    d.mem.merge = s.dev.mem.merge.filter (· ≠ e) ∧ d.badAt e.arr (tabWordLoc e.bank e.word) = 2)) ∧
  (∀ v, bit v 31 = true → Effect (.memInjectArm v) s (fun d => d.fb MEM_INJ.ARM = true ∧ d.f MEM_INJ.NOCOUNT = bx v 30 30 ∧ d.f MEM_INJ.ARRAY = bx v 4 0 ∧
    d.mem = s.dev.mem)) ∧
  (∀ v, bit v 31 = true → bx v 3 0 < 12 → s.dev.grpFailed (bx v 3 0) = true → Effect (.memGroupClear v) s (fun d => d.grpFailed (bx v 3 0) = false ∧
    d.mem.errs = mdel s.dev.mem.errs (bx v 3 0))) ∧
  (∀ v, bit v 31 = true → 12 ≤ bx v 3 0 ∨ s.dev.grpFailed (bx v 3 0) = false → Effect (.memGroupClear v) s (fun d => d.mem = s.dev.mem ∧
    d.f MEM_STAT.ERR = 1 ∧ d.f MEM_STAT.ECODE = 1))

/-- A bank group fails at its third error within an hour, and an armed injection meets the next write to its array.
A working Grandstand bank group that has an error fails exactly when two earlier ones lie within the last hour, and remembers those within the hour.
With an injection armed and no other marked word: a command that writes no word of the array leaves it armed; one that does disarms it, counts a hit,
and shows the first written place, in a Grandstand record one of its 16 words, which the spec leaves open (log entry 29).
Rules: R458, R460, R461, R463. -/
def Obligations.MemoryErrorsHaveTheirEffect : Prop :=
  (∀ (d : Device) (g : Nat), g < 12 → d.grpFailed g = false →
  ((d.grpError g).grpFailed g = true ↔ 2 ≤ ((mgetD d.mem.errs g []).filter (fun t => decide (d.tk.now < t + 3600 * Time.secU))).length) ∧
  mgetD (d.grpError g).mem.errs g [] = (mgetD d.mem.errs g []).filter (fun t => decide (d.tk.now < t + 3600 * Time.secU)) ++ [d.tk.now]) ∧
(∀ old d : Device, old.injArmed = true → d.injArmed = true → d.mem.bad = [] →
  (written old d (d.f MEM_INJ.ARRAY) = [] → d.memPost old = { d with noted := [] }) ∧
  (∀ loc l, written old d (d.f MEM_INJ.ARRAY) = loc :: l → (d.memPost old).fb MEM_INJ.ARM = false ∧
    (d.memPost old).ctr MEM_INJ_HITS = (d.ctr MEM_INJ_HITS + 1) % 2 ^ 32 ∧
    ∃ i, i < 16 ∧ (d.f MEM_INJ.ARRAY ≠ 0 → i = 0) ∧
      (d.memPost old).rg MEM_LAST_INJ 0 = memWhere (d.f MEM_INJ.ARRAY) (d.memBank (d.f MEM_INJ.ARRAY) (loc + i)) ∧
      (d.memPost old).rg MEM_LAST_INJ_IDX 0 = Config.memIdx (d.f MEM_INJ.ARRAY) (loc + i)))

/-- The radio sends beacons, acknowledgements, listen sends and wake sequences, and takes or refuses requests.
Where a gate is named (the device alive: powered and out of RESET; awake: also out of HOLD), it is a hypothesis. Every clause concludes that exec
answers a next state whose device, before what follows every command, has the listed content. BEACON_INSTANT, in the tick of its instant, sends the
beacon of its interval on the interval's channel, or defers it for dwell; XCR_DEFERRED_SEND sends or skips it. XCR_ACK_SEND sends the acknowledgement
due. XCR_LISTEN_SEND and XCR_WAKE_SEQUENCE send the request and wait for its acknowledgement or end it, a listen of a sensor no longer SYNCED is
planned anew; none of the three acts while a beacon is due. XCR_ACK_TIMEOUT retries or ends it. XCR_TX_REQUEST stores its fields, takes a legal request
and refuses others with its codes; XCR_RXQ_POP drops the queue's front.
Rules: R473, R479, R478, R474, R477, R481. -/
def Obligations.RadioTransmissionsAct : Prop :=
  (∀ s : State, s.dev.awake = true → s.dev.radioOn = true →
  (∀ k ch, k = s.dev.now / s.dev.bcnT → ch = k % 65536 % s.dev.nch → s.dev.xcr.bcn ≠ some k → s.dev.now < k * s.dev.bcnT + s.dev.tk.inc →
    s.dev.xcr.bcnDue = none → s.dev.fits ch s.dev.now (s.dev.airtime 24) = true →
    Effect .beaconInstant s (fun d => d.xcr.bcn = some k ∧ d.xcr.chan = ch ∧ d.xcr.bcnDue = none ∧ d.xcr.seq = (s.dev.xcr.seq + 1) % 256 ∧
      d.ctr XCR_BCN_SENT = (s.dev.ctr XCR_BCN_SENT + 1) % 2 ^ 32 ∧ ∃ t, .radio ch (s.dev.xcrFrame 0 s.dev.xcr.seq 0x7FE false
        (leBytes [w32 (Time.secOf t), w32 (Time.nsOf t), w32 (k % 65536)])) ∈ d.out)) ∧
  (s.dev.now / s.dev.bcnT * s.dev.bcnT + s.dev.tk.inc ≤ s.dev.now → Effect .beaconInstant s (fun d => d = s.dev)) ∧
  (∀ k, k = s.dev.now / s.dev.bcnT → s.dev.xcr.bcn ≠ some k → s.dev.now < k * s.dev.bcnT + s.dev.tk.inc → s.dev.xcr.bcnDue = none → s.dev.fits (k % 65536 % s.dev.nch) s.dev.now (s.dev.airtime 24) = false →
    Effect .beaconInstant s (fun d => d.xcr.bcnDue = some k ∧ d.ctr XCR_DWELL_DEFER = (s.dev.ctr XCR_DWELL_DEFER + 1) % 2 ^ 32 ∧
      d.ctr XCR_BCN_SENT = s.dev.ctr XCR_BCN_SENT)) ∧
  (∀ k, s.dev.xcr.bcnDue = some k → k * s.dev.bcnT + s.dev.guardBase < s.dev.now → ∀ busy, Effect (.xcrDeferredSend busy) s (fun d =>
    d.xcr = { s.dev.xcr with bcnDue := none } ∧ d.ctr XCR_BCN_SKIP = (s.dev.ctr XCR_BCN_SKIP + 1) % 2 ^ 32)) ∧
  (∀ k ch, s.dev.xcr.bcnDue = some k → s.dev.now ≤ k * s.dev.bcnT + s.dev.guardBase → ch = k % 65536 % s.dev.nch → s.dev.fits ch s.dev.now (s.dev.airtime 24) = true →
    ∀ busy, Effect (.xcrDeferredSend busy) s (fun d => d.xcr.bcnDue = none ∧ d.xcr.chan = ch ∧ d.ctr XCR_BCN_SENT = (s.dev.ctr XCR_BCN_SENT + 1) % 2 ^ 32)) ∧
  (∀ a, s.dev.beaconFirst = false → s.dev.xcr.acks.find? (fun a => decide (a.due ≤ s.dev.now)) = some a → s.dev.now ≤ a.due + 2 * Time.msU →
    s.dev.fits s.dev.xcr.chan s.dev.now (s.dev.airtime 12) = true → Effect .xcrAckSend s (fun d =>
      .radio s.dev.xcr.chan (s.dev.xcrFrame 3 a.seq a.dst false []) ∈ d.out ∧ d.xcr.acks = s.dev.xcr.acks.filter (· ≠ a))) ∧
  (s.dev.beaconFirst = true → ∀ c busy, c = .xcrAckSend ∨ c = .xcrListenSend busy ∨ c = .xcrWakeSequence busy → Effect c s (fun d => d = s.dev)) ∧
  (∀ r n tL busy, s.dev.ackFirst = false → s.dev.xcr.req = some r → r.phase = .listen n tL → (s.dev.sens r.dst).st ≠ .synced →
    s.dev.pieceT ≤ s.dev.f XCR_DWELL.DWELL_MS * Time.msU → Effect (.xcrListenSend busy) s (fun d => d.xcr = { s.dev.xcr with req := some { r with phase := .wake } })) ∧
  (∀ r n tL busy, s.dev.ackFirst = false → s.dev.xcr.req = some r → r.phase = .listen n tL → (s.dev.sens r.dst).st = .synced → s.dev.now ≤ tL → tL ≤ s.dev.now + s.dev.guardAt r.dst tL →
    s.dev.fits (n % s.dev.nch) s.dev.now (2 * s.dev.guardAt r.dst tL + s.dev.airtime (s.dev.reqFrame r).length) = true → busy < 8 →
    Effect (.xcrListenSend busy) s (fun d => .radio (n % s.dev.nch) (s.dev.reqFrame r) ∈ d.out ∧
      (r.ackReq = true → r.dst < 1024 → ∃ t, d.xcr.req = some { r with phase := .ack t, deferred := false }) ∧
      (r.ackReq = false → d.xcr.req = none ∧ d.f XCR_TX_STAT.BUSY = 0 ∧ d.f XCR_TX_STAT.DONE = 1 ∧ d.f XCR_TX_STAT.RESULT = 0))) ∧
  (∀ r busy, s.dev.ackFirst = false → s.dev.xcr.req = some r → r.phase = .wake → busy < 8 →
    s.dev.now + s.dev.nch * s.dev.pieceT + s.dev.guardBase < (s.dev.now / s.dev.bcnT + 1) * s.dev.bcnT →
    (∀ i, i < s.dev.nch → s.dev.fits i (s.dev.now + i * s.dev.pieceT) (s.dev.pieceT + s.dev.airtime (s.dev.reqFrame r).length) = true) →
    Effect (.xcrWakeSequence busy) s (fun d => .radio (s.dev.nch - 1) (s.dev.reqFrame r) ∈ d.out ∧ d.ctr XCR_LP_SENT = (s.dev.ctr XCR_LP_SENT + 1) % 2 ^ 32 ∧
      (r.ackReq = true → r.dst < 1024 → ∃ t, d.xcr.req = some { r with phase := .ack t, deferred := false }))) ∧
  (∀ r t, s.dev.xcr.req = some r → r.phase = .ack t → t ≤ s.dev.now → 3 ≤ r.retries → Effect .xcrAckTimeout s (fun d => d.xcr.req = none ∧
    d.f XCR_TX_STAT.BUSY = 0 ∧ d.f XCR_TX_STAT.DONE = 1 ∧ d.f XCR_TX_STAT.RESULT = 1)) ∧
  (∀ r t, s.dev.xcr.req = some r → r.phase = .ack t → t ≤ s.dev.now → r.retries < 3 → s.dev.pieceT ≤ s.dev.f XCR_DWELL.DWELL_MS * Time.msU →
    Effect .xcrAckTimeout s (fun d => d.ctr XCR_RETRY = (s.dev.ctr XCR_RETRY + 1) % 2 ^ 32 ∧
      ∃ p, d.xcr.req = some { r with retries := r.retries + 1, deferred := false, phase := p }))) ∧
(∀ (s : State) (v : Word), s.dev.alive = true →
  (s.dev.fb XCR_TX_STAT.BUSY = false → bx v 30 28 = 2 ∨ bx v 30 28 = 4 → 1 ≤ bx v 6 0 → bx v 6 0 ≤ 115 → bx v 26 16 < 1024 → s.dev.sensEn (bx v 26 16) = true →
    (s.dev.sens (bx v 26 16)).st ≠ .synced → s.dev.pieceT ≤ s.dev.f XCR_DWELL.DWELL_MS * Time.msU → Effect (.xcrTxRequest v) s (fun d =>
      d.fb XCR_TX_STAT.BUSY = true ∧ d.xcr.seq = (s.dev.xcr.seq + 1) % 256 ∧ d.xcr.req = some ⟨bx v 30 28, bit v 27, bx v 26 16, s.dev.xcr.seq,
        (leBytes ((List.range 29).map (fun i => s.dev.rg XCR_TXBUF i))).take (bx v 6 0), 0, .wake, false⟩ ∧ d.rg XCR_TX_CMD 0 = v &&& 0x7FFF007F#32)) ∧
  (s.dev.fb XCR_TX_STAT.BUSY = true → Effect (.xcrTxRequest v) s (fun d => d.xcr = s.dev.xcr ∧ d.f XCR_STAT.ERR = 1 ∧ d.f XCR_STAT.ECODE = 3)) ∧
  (s.dev.fb XCR_TX_STAT.BUSY = false → (bx v 30 28 ≠ 2 ∧ bx v 30 28 ≠ 4) ∨ bx v 6 0 = 0 ∨ 115 < bx v 6 0 →
    Effect (.xcrTxRequest v) s (fun d => d.xcr = s.dev.xcr ∧ d.f XCR_STAT.ERR = 1 ∧ d.f XCR_STAT.ECODE = 2)) ∧
  (s.dev.fb XCR_TX_STAT.BUSY = false → bx v 30 28 = 2 ∨ bx v 30 28 = 4 → 1 ≤ bx v 6 0 → bx v 6 0 ≤ 115 → bx v 26 16 < 1024 → s.dev.sensEn (bx v 26 16) = false →
    Effect (.xcrTxRequest v) s (fun d => d.xcr.req = none ∧ d.f XCR_TX_STAT.DONE = 1 ∧ d.f XCR_TX_STAT.RESULT = 3)) ∧
  Effect .xcrRxqPop s (fun d => d.xcr.rxq = s.dev.xcr.rxq.drop 1))

/-- The radio's reception: size, FCS, a data frame of a known sensor, missed check-ins, and the transceiver.
Where a gate is named (the device alive: powered and out of RESET; awake: also out of HOLD), it is a hypothesis. Every clause concludes that exec
answers a next state whose device, before what follows every command, has the listed content. XCR_FRAME_RECEIVED drops and counts frames of a wrong
size or FCS; a DATA or alarm frame of an enabled sensor that is new makes the sensor SYNCED, queues it and owes an acknowledgement where asked.
XCR_CHECKIN_MISSED counts, and the third loses the sensor. XCVR_READBACK_TIMEOUT shows the transceiver's state.
Rules: R472, R475, R469. -/
def Obligations.RadioReceptionActs : Prop :=
  ∀ s : State, s.dev.awake = true → s.dev.radioOn = true →
  (∀ phr bytes, phr < 12 ∨ 127 < phr → Effect (.xcrFrameReceived phr bytes) s (fun d => d.xcr = s.dev.xcr ∧ d.ctr XCR_RX_SIZE = (s.dev.ctr XCR_RX_SIZE + 1) % 2 ^ 32)) ∧
  (∀ b, 12 ≤ b.length → b.length ≤ 127 → b.drop (b.length - 4) ≠ le32 (w32 (crc32 (b.take (b.length - 4)))) →
    Effect (.xcrFrameReceived b.length b) s (fun d => d.xcr = s.dev.xcr ∧ d.ctr XCR_RX_FCS = (s.dev.ctr XCR_RX_FCS + 1) % 2 ^ 32)) ∧
  (∀ b src, 12 ≤ b.length → b.length ≤ 127 → b.drop (b.length - 4) = le32 (w32 (crc32 (b.take (b.length - 4)))) → s.dev.xHeadOk b (b.length - 12) = true →
    src = (b.getD 4 0#8).toNat + 256 * (b.getD 5 0#8).toNat → src < 1024 → s.dev.sensEn src = true →
    (b.getD 2 0#8).toNat + 256 * (b.getD 3 0#8).toNat = 0x7FF → (b.getD 0 0#8).toNat / 16 = 1 ∨ (b.getD 0 0#8).toNat / 16 = 2 →
    (s.dev.sens src).lastSeq ≠ some (b.getD 1 0#8).toNat → s.dev.xcr.rxq.length < 512 →
    Effect (.xcrFrameReceived b.length b) s (fun d => (d.sens src).st = .synced ∧ (d.sens src).missed = 0 ∧ (d.sens src).lastSeq = some (b.getD 1 0#8).toNat ∧
      (d.sens src).lastAt = some s.dev.now ∧ d.ctr XCR_RX_FRAMES = (s.dev.ctr XCR_RX_FRAMES + 1) % 2 ^ 32 ∧
      d.xcr.rxq = s.dev.xcr.rxq ++ [rxqEntry src ((b.getD 0 0#8).toNat / 16) (b.getD 1 0#8).toNat ((b.drop 8).take (b.length - 12))
        (s.dev.now - (b.length + 2) * s.dev.octetT)] ∧
      d.xcr.acks = s.dev.xcr.acks ++ (if (b.getD 0 0#8).toNat / 2 % 2 = 1 then [⟨src, (b.getD 1 0#8).toNat, s.dev.now + Time.msU, false⟩] else []))) ∧
  (∀ k, k < 1024 → s.dev.sensEn k = true → (s.dev.sens k).missAt + s.dev.chkT ≤ s.dev.now → (s.dev.sens k).missed < 2 →
    Effect (.xcrCheckinMissed k) s (fun d => d.sens k = { s.dev.sens k with missed := (s.dev.sens k).missed + 1, missAt := (s.dev.sens k).missAt + s.dev.chkT } ∧
      ∀ j, j ≠ k → d.sens j = s.dev.sens j)) ∧
  (∀ k, k < 1024 → s.dev.sensEn k = true → (s.dev.sens k).missAt + s.dev.chkT ≤ s.dev.now → (s.dev.sens k).missed = 2 → (s.dev.sens k).st = .synced →
    Effect (.xcrCheckinMissed k) s (fun d => (d.sens k).st = .lost ∧ d.ctr XCR_LOST = (s.dev.ctr XCR_LOST + 1) % 2 ^ 32 ∧ ∀ j, j ≠ k → d.sens j = s.dev.sens j)) ∧
  (∀ ok, s.dev.fb XCR_STAT.XCVR_OK ≠ ok → Effect (.xcvrReadbackTimeout ok) s (fun d => d.fb XCR_STAT.XCVR_OK = ok ∧ d.xcr = s.dev.xcr))

/-- Pulse inputs debounce and book, pulse outputs enable, disable and shape.
Where a gate is named (the device alive: powered and out of RESET; awake: also out of HOLD), it is a hypothesis. Every clause concludes that exec
answers a next state whose device, before what follows every command, has the listed content. PLSI_LEVEL_CHANGE starts a debounce or ends a glitch, or
is only noted on a disabled input; PULSE_ACCEPT takes the level and on the counted edge books a pulse point's quantity. PULSE_OUTPUT_ENABLE stores the
configuration and the base count and starts a pulse that waits, refused with ECODE 2 where enabled; PULSE_OUTPUT_DISABLE drops pending pulses;
PULSE_OUTPUT_PHASE_END moves from active to inactive, to the next pulse, or to idle.
Rules: R303, R310, R311. -/
def Obligations.PulseCommandsAct : Prop :=
  (∀ s : State, s.dev.alive = true →
  (∀ i lvl, i < 32 → s.dev.fb NRG_PI_CFG.EN i = true → (s.dev.plsi i).raw ≠ lvl → (s.dev.plsi i).level ≠ lvl → Effect (.plsiLevelChange i lvl) s (fun d =>
    d.plsi i = { s.dev.plsi i with raw := lvl, edge := some s.dev.now } ∧ ∀ j, j ≠ i → d.plsi j = s.dev.plsi j)) ∧
  (∀ i lvl, i < 32 → s.dev.fb NRG_PI_CFG.EN i = true → (s.dev.plsi i).raw ≠ lvl → (s.dev.plsi i).level = lvl → (s.dev.plsi i).edge.isSome = true →
    Effect (.plsiLevelChange i lvl) s (fun d => d.plsi i = { s.dev.plsi i with raw := lvl, edge := none } ∧
      d.ctr NRG_PLSI_GLITCH = (s.dev.ctr NRG_PLSI_GLITCH + 1) % 2 ^ 32)) ∧
  (∀ i lvl, i < 32 → s.dev.fb NRG_PI_CFG.EN i = false → (s.dev.plsi i).raw ≠ lvl → Effect (.plsiLevelChange i lvl) s (fun d =>
    d.plsi i = { s.dev.plsi i with raw := lvl } ∧ ∀ j, j ≠ i → d.plsi j = s.dev.plsi j)) ∧
  (∀ i t0, i < 32 → s.dev.fb NRG_PI_CFG.EN i = true → (s.dev.plsi i).edge = some t0 → t0 + s.dev.f NRG_PI_CFG.DEB_US i * Time.usU ≤ s.dev.now →
    Effect (.pulseAccept i) s (fun d => (d.plsi i).level = (s.dev.plsi i).raw ∧ (d.plsi i).edge = none ∧ bit (d.rg NRG_PI_LEVEL 0) i = (s.dev.plsi i).raw ∧
      (s.dev.racing = true → (s.dev.plsi i).raw ≠ s.dev.fb NRG_PI_CFG.EDGE i → ∀ n e, (s.dev.ents tPoint).find? (fun e => peEn e.2 &&
        decide (peKind e.2 = 3) && decide (pePlsi e.2 = i)) = some (n, e) → (s.dev.point n).acc.length = 6 → peQty e < 6 → wd e 2 ≠ 0#32 →
          (d.point n).acc = lset (s.dev.point n).acc (peQty e) (((s.dev.point n).acc.getD (peQty e) 0 + (wd e 2).toNat) % 2 ^ 64))))) ∧
(∀ (s : State) (k : Nat), s.dev.alive = true → k < 32 →
  (∀ v, s.dev.fb NRG_PO_CFG.EN k = false → bx v 23 16 ≠ 0 → Effect (.pulseOutputEnable k v) s (fun d => d.fb NRG_PO_CFG.EN k = true ∧
    d.f NRG_PO_CFG.POINT k = bx v 8 0 ∧ d.f NRG_PO_CFG.QTY k = bx v 30 28 ∧ d.f NRG_PO_CFG.PW_MS k = bx v 23 16 ∧
    (d.pulse k).base = (if (s.dev.rg NRG_PO_Q k).toNat = 0 then 0 else (s.dev.point (bx v 8 0)).acc.getD (bx v 30 28) 0 / (s.dev.rg NRG_PO_Q k).toNat) ∧
    ((s.dev.pulse k).phase ≠ .idle ∨ (s.dev.pulse k).pend = 0 → (d.pulse k).pend = (s.dev.pulse k).pend ∧ (d.pulse k).phase = (s.dev.pulse k).phase) ∧
    ((s.dev.pulse k).phase = .idle → 0 < (s.dev.pulse k).pend → (d.pulse k).pend = (s.dev.pulse k).pend - 1 ∧
      (d.pulse k).phase = .active (s.dev.now + bx v 23 16 * Time.msU)))) ∧
  (∀ v, s.dev.fb NRG_PO_CFG.EN k = true → Effect (.pulseOutputEnable k v) s (fun d => d.nrg = s.dev.nrg ∧ d.f NRG_STAT.ERR = 1 ∧ d.f NRG_STAT.ECODE = 2)) ∧
  (∀ v, s.dev.fb NRG_PO_CFG.EN k = true → Effect (.pulseOutputDisable k v) s (fun d => d.fb NRG_PO_CFG.EN k = false ∧ (d.pulse k).pend = 0 ∧
    (d.pulse k).phase = (s.dev.pulse k).phase ∧ d.f NRG_PO_PEND.PEND k = 0)) ∧
  (∀ t, s.dev.awake = true → (s.dev.pulse k).phase = .active t → t ≤ s.dev.now → Effect (.pulseOutputPhaseEnd k) s (fun d =>
    d.pulse k = { s.dev.pulse k with phase := .inactive (t + s.dev.f NRG_PO_CFG.PW_MS k * Time.msU) } ∧
    d.ctr NRG_PLSO_PULSES = (s.dev.ctr NRG_PLSO_PULSES + 1) % 2 ^ 32)) ∧
  (∀ t, s.dev.awake = true → (s.dev.pulse k).phase = .inactive t → t ≤ s.dev.now → 0 < (s.dev.pulse k).pend →
    Effect (.pulseOutputPhaseEnd k) s (fun d =>
      d.pulse k = { s.dev.pulse k with pend := (s.dev.pulse k).pend - 1, phase := .active (s.dev.now + s.dev.f NRG_PO_CFG.PW_MS k * Time.msU) })) ∧
  (∀ t, s.dev.awake = true → (s.dev.pulse k).phase = .inactive t → t ≤ s.dev.now → (s.dev.pulse k).pend = 0 →
    Effect (.pulseOutputPhaseEnd k) s (fun d => d.pulse k = { s.dev.pulse k with phase := .idle })))

/-- Energy snapshots through their slot, the close of an interval, and the drain of an interval record.
Where a gate is named (the device alive: powered and out of RESET; awake: also out of HOLD), it is a hypothesis. Every clause concludes that exec
answers a next state whose device, before what follows every command, has the listed content. NRG_SNAPSHOT_REQUEST takes a free slot, else ECODE 1;
NRG_SNAPSHOT_COMPLETE shows the snapshot; NRG_SNAPSHOT_RELEASE empties the slot. INTERVAL_CLOSE of a settled interval opens the next, keeps the
registers and queues the interval's record. INTERVAL_RECORD_DRAIN moves one record to its completion ring, and none in FOLLOW.
Rules: R305, R409, R308, R309. -/
def Obligations.MeteringCommandsAct : Prop :=
  ∀ s : State, s.dev.alive = true →
  (∀ i, i < 512 → s.dev.nrg.slot.st = .free → Effect (.nrgSnapshotRequest i) s (fun d => d.nrg.slot.st = .busy ∧
    d.nrg.slot.seq = (s.dev.nrg.slot.seq + 1) % 65536 ∧ d.nrg.slot.data = s.dev.nrgSnap i ∧ ∀ n, slotWord d.nrg.slot n = 0#32)) ∧
  (∀ i, s.dev.nrg.slot.st ≠ .free → Effect (.nrgSnapshotRequest i) s (fun d => d.nrg = s.dev.nrg ∧ d.f NRG_STAT.ERR = 1 ∧ d.f NRG_STAT.ECODE = 1)) ∧
  (s.dev.nrg.slot.st = .busy → Effect .nrgSnapshotComplete s (fun d => d.nrg.slot.st = .held ∧ d.nrg.slot.seq = s.dev.nrg.slot.seq ∧
    (∀ n, slotWord d.nrg.slot n = wd s.dev.nrg.slot.data n) ∧ d.ctr NRG_SNAPS = (s.dev.ctr NRG_SNAPS + 1) % 2 ^ 32)) ∧
  (∀ v, s.dev.nrg.slot.st ≠ .free → bx v 15 0 = s.dev.nrg.slot.seq → Effect (.nrgSnapshotRelease v) s (fun d => d.nrg.slot.st = .free ∧
    ∀ n, slotWord d.nrg.slot n = 0#32)) ∧
  (∀ i iv rest, s.dev.awake = true → i < 512 → (s.dev.point i).ivs = iv :: rest → peEn (s.dev.ent tPoint i) = true →
    s.dev.ivStop iv ≤ s.dev.now → peKind (s.dev.ent tPoint i) = 3 ∨ s.dev.ivSettled (s.dev.pointHeat (s.dev.ent tPoint i)) iv.start (s.dev.ivStop iv) = true →
    Effect (.intervalClose i) s (fun d => (rest ≠ [] → (d.point i).ivs = rest) ∧
      (rest = [] → (d.point i).ivs = [s.dev.ivAfter (s.dev.ent tPoint i) iv]) ∧ (d.point i).acc = (s.dev.point i).acc ∧
      (s.dev.fb NRG_CFG.EN = true → s.dev.pwr.mode ≠ .follow → s.dev.nrg.buf ≠ [] → s.dev.nrg.buf.length < 4096 → d.nrg.buf = s.dev.nrg.buf ++
        [ivRecord i iv (ivMissing iv (s.dev.ivStop iv)) false false]))) ∧
  (s.dev.awake = true → s.dev.mem.bad = [] → s.dev.pwr.mode = .follow → Effect .intervalRecordDrain s (fun d => d = s.dev)) ∧
  (∀ r q, s.dev.awake = true → s.dev.mem.bad = [] → s.dev.pwr.mode ≠ .follow → s.dev.nrg.buf = [r] → r.length = 16 → s.dev.fb NRG_CFG.EN = true → q = s.dev.f NRG_CFG.RING →
    s.dev.fb HIF_CQ_CFG.EN q = true → s.dev.f HIF_CQ_CFG.CONTENT q = 2 → 4 ≤ s.dev.cqFree q → Effect .intervalRecordDrain s (fun d => d.nrg.buf = [] ∧
      d.nrg.lostBefore = false ∧ d.ctr NRG_INTERVALS = (s.dev.ctr NRG_INTERVALS + 1) % 2 ^ 32 ∧
      (d.cqSt q).tail = ((s.dev.cqSt q).tail + 4) % s.dev.cqSize q))

/-- Energy is booked exactly: register and remainder gain what the sample brings, and nothing else moves.
Below the wrap of the 64-bit register: after a sample of x in units of 1/dv, register times dv plus remainder has grown by exactly x, the remainder
stays below dv, every other quantity of the point and every other point is unchanged.
Rules: R299, R300, R301. -/
def Obligations.EnergyIsBookedExactly : Prop :=
  ∀ (d : Device) (i iv q x dv : Nat), 0 < dv → q < 6 → (d.point i).acc.length = 6 → (d.point i).rem.length = 6 →
  (d.point i).acc.getD q 0 + ((d.point i).rem.getD q 0 + x) / dv < 2 ^ 64 →
  ((d.nrgAddPower i iv q x dv).point i).acc.getD q 0 * dv + ((d.nrgAddPower i iv q x dv).point i).rem.getD q 0 =
    (d.point i).acc.getD q 0 * dv + (d.point i).rem.getD q 0 + x ∧
  ((d.nrgAddPower i iv q x dv).point i).rem.getD q 0 < dv ∧
  (∀ j, j ≠ q → ((d.nrgAddPower i iv q x dv).point i).acc.getD j 0 = (d.point i).acc.getD j 0 ∧
    ((d.nrgAddPower i iv q x dv).point i).rem.getD j 0 = (d.point i).rem.getD j 0) ∧
  (∀ j, j ≠ i → (d.nrgAddPower i iv q x dv).point j = d.point j)

/-- Device time: ticks, steps, reads, the increment, leap seconds and the PPS output.
Where a gate is named (the device alive: powered and out of RESET; awake: also out of HOLD), it is a hypothesis. Every clause concludes that exec
answers a next state whose device, before what follows every command, has the listed content. CLK_TK_TICK adds the increment and a pending step.
TK_NOW_NS_READ answers the nanoseconds and latches the rest. TK_INC_FRAC_WRITE in MANUAL takes an increment in range, else ECODE 3. TK_CMD_STEP
queues a legal step in FREERUN or HOLDOVER, else ECODE 2 or 4. LEAP_APPLY moves the UTC offset. PPS_OUT_PULSE raises and lowers the pin.
Rules: R317, R319, R320, R324, R331, R330. -/
def Obligations.DeviceTimeCommandsAct : Prop :=
  ∀ s : State, s.dev.alive = true →
  (s.dev.tk.step = none → Effect .clkTkTick s (fun d => d.tk.now = s.dev.tk.now + s.dev.tk.inc ∧ d.tk.ticks = s.dev.tk.ticks + 1 ∧
    d.ctr TK_STEPS = s.dev.ctr TK_STEPS)) ∧
  (∀ v c, s.dev.tk.step = some (v, c) → Effect .clkTkTick s (fun d => d.tk.now = (((s.dev.tk.now + s.dev.tk.inc : Nat) : Int) + v).toNat ∧
    d.tk.ticks = s.dev.tk.ticks + 1 ∧ d.tk.step = none ∧ d.ctr TK_STEPS = (s.dev.ctr TK_STEPS + 1) % 2 ^ 32)) ∧
  Effect .tkNowNsRead s (fun d => d.lastRead = w32 (Time.nsOf s.dev.tk.now) ∧ d.tk = { s.dev.tk with
    latch := [w32 (Time.subOf s.dev.tk.now), w32 (Time.secOf s.dev.tk.now), w32 (Time.secOf s.dev.tk.now / 4294967296)] }) ∧
  (∀ v, s.dev.fb TK_CTL.MANUAL = true → s.dev.tk.intW = 7 → 0xCE000000 ≤ v.toNat → v.toNat ≤ 0xD2000000 → Effect (.tkIncFracWrite v) s (fun d =>
    d.tk.inc = 7 * 2 ^ 32 + v.toNat ∧ d.tk.held = 7 * 2 ^ 32 + v.toNat ∧ d.tk.now = s.dev.tk.now ∧ d.rg TK_INC_FRAC 0 = v)) ∧
  (∀ v, s.dev.fb TK_CTL.MANUAL = false ∨ s.dev.tk.intW ≠ 7 ∨ v.toNat < 0xCE000000 ∨ 0xD2000000 < v.toNat → Effect (.tkIncFracWrite v) s (fun d =>
    d.tk = s.dev.tk ∧ d.f TK_STAT.ERR = 1 ∧ d.f TK_STAT.ECODE = 3)) ∧
  (∀ v dv, bx v 31 28 = 1 → s.dev.tkState = stFREERUN ∨ s.dev.tkState = stHOLDOVER → (s32 (s.dev.rg TK_STEP_NS 0)).natAbs ≤ 999999999 →
    dv = s32 (s.dev.rg TK_STEP_SEC 0) * (Time.secU : Int) + s32 (s.dev.rg TK_STEP_NS 0) * (Time.nsU : Int) →
    0 ≤ ((s.dev.tk.now + s.dev.tk.inc : Nat) : Int) + dv → ((s.dev.tk.now + s.dev.tk.inc : Nat) : Int) + dv < (2 ^ 48 * Time.secU : Nat) →
    Effect (.tkCmdStep v) s (fun d => d.tk = { s.dev.tk with step := some (dv, 1) })) ∧
  (∀ v, bx v 31 28 = 1 → s.dev.tkState = stACQUIRING ∨ s.dev.tkState = stLOCKED ∨ 999999999 < (s32 (s.dev.rg TK_STEP_NS 0)).natAbs →
    Effect (.tkCmdStep v) s (fun d => d.tk = s.dev.tk ∧ d.f TK_STAT.ERR = 1 ∧ d.f TK_STAT.ECODE = 2)) ∧
  (∀ v, bx v 31 28 ≠ 1 → Effect (.tkCmdStep v) s (fun d => d.tk = s.dev.tk ∧ d.f TK_STAT.ERR = 1 ∧ d.f TK_STAT.ECODE = 4)) ∧
  (∀ e, s.dev.tk.leapDay = some e → s.dev.utcLeap.1 = 1 → (e : Int) + s.dev.utcOffset.1 + 1 ≤ (Time.secOf s.dev.tk.now : Int) → Effect .leapApply s (fun d =>
    d.tk.leapDay = none ∧ d.tk.lastLeap = some (e, s.dev.utcOffset.1, true) ∧ d.f TK_UTC.LEAP = 0 ∧ d.f TK_UTC.OFFSET = (s.dev.f TK_UTC.OFFSET + 1) % 65536 ∧
    d.tk.now = s.dev.tk.now)) ∧
  (s.dev.fb TK_PPS.OUT_EN = true → s.dev.tkState ≠ stFREERUN → s.dev.tk.ppsOut = false →
    (s.dev.tk.now + s.dev.f TK_DLY.PPS_OUT_ADV_NS * Time.nsU) % Time.secU < s.dev.f TK_PPS.OUT_W_MS * Time.msU →
    Effect .ppsOutPulse s (fun d => d.tk.ppsOut = true ∧ .pin 3 0 true ∈ d.out)) ∧
  (s.dev.tk.ppsOut = true → s.dev.f TK_PPS.OUT_W_MS * Time.msU ≤ (s.dev.tk.now + s.dev.f TK_DLY.PPS_OUT_ADV_NS * Time.nsU) % Time.secU →
    Effect .ppsOutPulse s (fun d => d.tk.ppsOut = false ∧ .pin 3 0 false ∈ d.out))

/-- IRIG-B and PPS sources: frames and edges taken or rejected, misses, qualification, SYNC and UNLOCK.
Every clause concludes that exec answers a next state (the command's own effect d, then what follows every command) and what d holds, on a device that
is alive (powered and out of RESET). SOURCE_QUALIFIED after QUAL_S qualifies the source. IRIG_FRAME_RECEIVED, with TK_IRIG.EN, of a frame that is right
and in step is taken, with IEEE 1344 control functions or without; quality code 0xF loses the source; a frame in error or out of step counts an error
and a miss. IRIG_FRAME_MISSING is a miss and the third loses the source. PPS_IN_EDGE of the configured edge is the first, inside its window or
rejected, the other edge does nothing; PPS_WINDOW_MISSED is a miss and the third loses the source. SYNC_LIMIT_CROSSING shows the time quality and SYNC;
UNLOCK_INTERVAL_EXPIRY shows the decade since lock was lost. That an inserted second has a label of its own is log entry 21.
Rules: R321, R330, R335, R336. -/
def Obligations.TimeSourceCommandsAct : Prop :=
  ∀ s : State, s.dev.alive = true →
  (∀ k t, 1 ≤ k → k ≤ 3 → (s.dev.tkSrc k).since = some t → (s.dev.tkSrc k).qual = false → s.dev.f TK_SERVO.QUAL_S * tkPerSec ≤ s.dev.tk.ticks - t →
    ∃ d, Sys2Proof.Machine.exec (.sourceQualified k) s = .next { s with dev := Device.post s.dev d } ∧ d.tkSrc k = { s.dev.tkSrc k with qual := true } ∧ ∀ j, j ≠ k →
      d.tkSrc j = s.dev.tkSrc j) ∧
  (s.dev.fb TK_IRIG.EN = true ∨ (s.dev.tkSrc srcIRIG).last.isSome = true → (s.dev.tkSrc srcIRIG).miss < 2 →
    ∃ d, Sys2Proof.Machine.exec .irigFrameMissing s = .next { s with dev := Device.post s.dev d } ∧ (d.tkSrc srcIRIG).miss = (s.dev.tkSrc srcIRIG).miss + 1 ∧
      (d.tkSrc srcIRIG).since = (s.dev.tkSrc srcIRIG).since ∧ (d.tkSrc srcIRIG).qual = (s.dev.tkSrc srcIRIG).qual) ∧
  (s.dev.fb TK_IRIG.EN = true ∨ (s.dev.tkSrc srcIRIG).last.isSome = true → 2 ≤ (s.dev.tkSrc srcIRIG).miss →
    ∃ d, Sys2Proof.Machine.exec .irigFrameMissing s = .next { s with dev := Device.post s.dev d } ∧ d.tkSrc srcIRIG = ⟨none, false, 0, none⟩) ∧
  (∀ form syms edge, s.dev.fb TK_IRIG.EN = true → irigOk syms (s.dev.fb TK_IRIG.IEEE1344) = false → (s.dev.tkSrc srcIRIG).miss < 2 →
    ∃ d, Sys2Proof.Machine.exec (.irigFrameReceived form syms edge) s = .next { s with dev := Device.post s.dev d } ∧
      d.ctr TK_IRIG_ERR = (s.dev.ctr TK_IRIG_ERR + 1) % 2 ^ 32 ∧
      (d.tkSrc srcIRIG).miss = (s.dev.tkSrc srcIRIG).miss + 1) ∧
  (∀ form syms edge c l, s.dev.fb TK_IRIG.EN = true → c = s.dev.fb TK_IRIG.IEEE1344 → irigOk syms c = true →
    l = irigLabel (irigUtc form syms c (utcSec (Time.secOf s.dev.tk.now) s.dev.utcOffset.1)) syms →
    ((s.dev.tkSrc srcIRIG).last = none ∨ (s.dev.tkSrc srcIRIG).last.map s.dev.irigNext = some l →
      (c = true → irigField syms [(71, 1), (72, 2), (73, 4), (74, 8)] ≠ 15 →
      ∃ d, Sys2Proof.Machine.exec (.irigFrameReceived form syms edge) s = .next { s with dev := Device.post s.dev d } ∧ d.tkSrc srcIRIG = { s.dev.tkSrc srcIRIG with
          miss := 0, last := some l,
          since := if (s.dev.tkSrc srcIRIG).last.isSome then some ((s.dev.tkSrc srcIRIG).since.getD s.dev.tk.ticks) else (s.dev.tkSrc srcIRIG).since } ∧
        d.ctr TK_IRIG_ERR = s.dev.ctr TK_IRIG_ERR) ∧
      (c = false → ∃ d, Sys2Proof.Machine.exec (.irigFrameReceived form syms edge) s = .next { s with dev := Device.post s.dev d } ∧
        d.tkSrc srcIRIG = { s.dev.tkSrc srcIRIG with
          miss := 0, last := some l,
          since := if (s.dev.tkSrc srcIRIG).last.isSome then some ((s.dev.tkSrc srcIRIG).since.getD s.dev.tk.ticks) else (s.dev.tkSrc srcIRIG).since } ∧
        d.ctr TK_IRIG_ERR = s.dev.ctr TK_IRIG_ERR) ∧
      (c = true → irigField syms [(71, 1), (72, 2), (73, 4), (74, 8)] = 15 →
        ∃ d, Sys2Proof.Machine.exec (.irigFrameReceived form syms edge) s = .next { s with dev := Device.post s.dev d } ∧ d.tkSrc srcIRIG = ⟨none, false, 0, none⟩ ∧
          d.ctr TK_IRIG_ERR = s.dev.ctr TK_IRIG_ERR)) ∧
    ((s.dev.tkSrc srcIRIG).last.isSome = true → (s.dev.tkSrc srcIRIG).last.map s.dev.irigNext ≠ some l → (s.dev.tkSrc srcIRIG).miss < 2 →
      ∃ d, Sys2Proof.Machine.exec (.irigFrameReceived form syms edge) s = .next { s with dev := Device.post s.dev d } ∧
        d.ctr TK_IRIG_ERR = (s.dev.ctr TK_IRIG_ERR + 1) % 2 ^ 32 ∧
        (d.tkSrc srcIRIG).miss = (s.dev.tkSrc srcIRIG).miss + 1)) ∧
  (∀ up edge, s.dev.fb TK_PPS.IN_EN = true → s.dev.fb TK_PPS.IN_EDGE = !up → (s.dev.tkSrc srcPPS).last = none →
    ∃ d, Sys2Proof.Machine.exec (.ppsInEdge up edge) s = .next { s with dev := Device.post s.dev d } ∧
      d.tkSrc srcPPS = { s.dev.tkSrc srcPPS with miss := 0, last := some edge }) ∧
  (∀ up edge l, s.dev.fb TK_PPS.IN_EN = true → s.dev.fb TK_PPS.IN_EDGE = !up → (s.dev.tkSrc srcPPS).last = some l → ppsInWindow l edge = true →
    ∃ d, Sys2Proof.Machine.exec (.ppsInEdge up edge) s = .next { s with dev := Device.post s.dev d } ∧ d.tkSrc srcPPS = { s.dev.tkSrc srcPPS with
      since := some ((s.dev.tkSrc srcPPS).since.getD s.dev.tk.ticks), miss := 0, last := some edge }) ∧
  (∀ up edge l, s.dev.fb TK_PPS.IN_EN = true → s.dev.fb TK_PPS.IN_EDGE = !up → (s.dev.tkSrc srcPPS).last = some l → ppsInWindow l edge = false →
    ∃ d, Sys2Proof.Machine.exec (.ppsInEdge up edge) s = .next { s with dev := Device.post s.dev d } ∧ d.tk = s.dev.tk ∧
      d.ctr TK_PPS_REJECT = (s.dev.ctr TK_PPS_REJECT + 1) % 2 ^ 32) ∧
  (∀ up edge, s.dev.fb TK_PPS.IN_EN = false ∨ s.dev.fb TK_PPS.IN_EDGE = up →
    ∃ d, Sys2Proof.Machine.exec (.ppsInEdge up edge) s = .next { s with dev := Device.post s.dev d } ∧ d = s.dev) ∧
  (∀ l, (s.dev.tkSrc srcPPS).last = some l → (s.dev.tkSrc srcPPS).miss < 2 →
    ∃ d, Sys2Proof.Machine.exec .ppsWindowMissed s = .next { s with dev := Device.post s.dev d } ∧
      d.tkSrc srcPPS = { s.dev.tkSrc srcPPS with miss := (s.dev.tkSrc srcPPS).miss + 1, last := some (l + Time.secU) }) ∧
  (∀ l, (s.dev.tkSrc srcPPS).last = some l → 2 ≤ (s.dev.tkSrc srcPPS).miss →
    ∃ d, Sys2Proof.Machine.exec .ppsWindowMissed s = .next { s with dev := Device.post s.dev d } ∧ d.tkSrc srcPPS = ⟨none, false, 0, none⟩) ∧
  (∃ d, Sys2Proof.Machine.exec .syncLimitCrossing s = .next { s with dev := Device.post s.dev d } ∧ d.f TK_STAT.TQ = s.dev.tkCode ∧ (s.dev.tkState = stLOCKED →
    d.fb TK_STAT.SYNC = true) ∧
    (∀ e, s.dev.tkState ≠ stLOCKED → s.dev.tkE = some e → s.dev.f TK_LIMITS.SYNC_NS * Time.nsU < e → d.fb TK_STAT.SYNC = false)) ∧
  ∃ d, Sys2Proof.Machine.exec .unlockIntervalExpiry s = .next { s with dev := Device.post s.dev d } ∧ (s.dev.tkState = stLOCKED → d.f TK_STAT.UNLOCK = 0) ∧
    (s.dev.tkState ≠ stLOCKED → s.dev.tk.leftAt = none → d.f TK_STAT.UNLOCK = 3) ∧
    (∀ t, s.dev.tkState ≠ stLOCKED → s.dev.tk.leftAt = some t → d.f TK_STAT.UNLOCK =
      (if (s.dev.tk.ticks - t) / tkPerSec < 10 then 0 else if (s.dev.tk.ticks - t) / tkPerSec < 100 then 1
       else if (s.dev.tk.ticks - t) / tkPerSec < 1000 then 2 else 3))

/-- PTP messages received, timed out and sent, management frames, and the transmit time-stamp FIFO.
Every clause concludes that exec answers a next state (the command's own effect d, then what follows every command) and what d holds, on a device that
is awake (powered and out of RESET and HOLD). PTP_MESSAGE_RECEIVED takes the oldest message: it counts and ignores an unsupported one, ignores one of
another domain, enters an Announce into the foreign master list and keeps a two-step Sync of the parent for its Follow_Up. PTP_ANNOUNCE_TIMEOUT forgets
masters that are silent for three intervals, where none is heard any more or the parent is silent. PTP_TRANSMIT_TIMER sends Sync, Announce, Pdelay_Req and Delay_Req with rising sequence numbers in the port
states that send them, each counted where the port is ACTIVE. MGT_FRAME_RECEIVED drops PTP and hands the rest to the Stride with a date within 20 µs. ETH_TXTS_POP and ETH_TXTS_ID_READ read
the time-stamp FIFO; a pop while the port's PTP is enabled is ignored.
Rules: R325, R321, R326, R338, R329. -/
def Obligations.PtpCommandsAct : Prop :=
  ∀ s : State, s.dev.awake = true →
  (∀ stamp r rest, s.dev.ing.ptpq = r :: rest → s.dev.ptpSupported r.port r.transport r.msg = false →
    ∃ d, Sys2Proof.Machine.exec (.ptpMessageReceived stamp) s = .next { s with dev := Device.post s.dev d } ∧ d.ing.ptpq = rest ∧ d.tk = s.dev.tk ∧
      d.ctr TK_PTP_RX_BAD = (s.dev.ctr TK_PTP_RX_BAD + 1) % 2 ^ 32) ∧
  (∀ stamp r rest, s.dev.ing.ptpq = r :: rest → s.dev.ptpSupported r.port r.transport r.msg = true → beNat (slice r.msg 4 1) ≠ s.dev.f TK_PTP.DOMAIN →
    ∃ d, Sys2Proof.Machine.exec (.ptpMessageReceived stamp) s = .next { s with dev := Device.post s.dev d } ∧ d.ing.ptpq = rest ∧ d.tk = s.dev.tk ∧
      d.ctr TK_PTP_RX = s.dev.ctr TK_PTP_RX) ∧
  (∀ stamp r rest, s.dev.ing.ptpq = r :: rest → s.dev.ptpSupported r.port r.transport r.msg = true → beNat (slice r.msg 4 1) = s.dev.f TK_PTP.DOMAIN →
    beNat (slice r.msg 0 1) % 16 = 11 → beNat (slice r.msg 20 10) / 65536 ≠ s.dev.clockId →
    ∃ d, Sys2Proof.Machine.exec (.ptpMessageReceived stamp) s = .next { s with dev := Device.post s.dev d } ∧ d.ing.ptpq = rest ∧
      (d.ptp r.port).foreign = foreignPut (s.dev.ptp r.port).foreign (annOf (decide (s.dev.f TK_PTP.PROFILE = 1)) r.msg s.dev.tk.ticks) ∧
      d.ctr TK_PTP_RX = (s.dev.ctr TK_PTP_RX + 1) % 2 ^ 32) ∧
  (∀ stamp r rest a, s.dev.ing.ptpq = r :: rest → s.dev.ptpSupported r.port r.transport r.msg = true → beNat (slice r.msg 4 1) = s.dev.f TK_PTP.DOMAIN →
    beNat (slice r.msg 0 1) % 16 = 0 → beNat (slice r.msg 6 2) / 512 % 2 = 1 → s.dev.tk.parent = some (r.port, a) → a.sender = beNat (slice r.msg 20 10) →
    ∃ d, Sys2Proof.Machine.exec (.ptpMessageReceived stamp) s = .next { s with dev := Device.post s.dev d } ∧ d.ing.ptpq = rest ∧
      d.ctr TK_PTP_RX = (s.dev.ctr TK_PTP_RX + 1) % 2 ^ 32 ∧
      d.ptp r.port = { s.dev.ptp r.port with syncRx := some (beNat (slice r.msg 30 2),
        ((stamp : Int) - s16 (s.dev.f ETH_PTP_LAT.RX_ADJ r.port) * (Time.nsU : Int)).toNat, corrOf r.msg) }) ∧
  (∀ p, p < 8 → s.dev.fb ETH_PTP_CFG.EN p = true → (∀ f ∈ (s.dev.ptp p).foreign, 3 * s.dev.annTicks p ≤ s.dev.tk.ticks - f.ann.rxAt) →
    ∃ d, Sys2Proof.Machine.exec (.ptpAnnounceTimeout p) s = .next { s with dev := Device.post s.dev d } ∧ (d.ptp p).foreign = []) ∧
  (∀ p f, p < 8 → f ∈ (s.dev.ptp p).foreign → s.dev.tk.ticks - f.ann.rxAt < 3 * s.dev.annTicks p →
    (∀ q a, s.dev.tk.parent = some (q, a) → q = p → ∃ g ∈ (s.dev.ptp p).foreign, s.dev.tk.ticks - g.ann.rxAt < 3 * s.dev.annTicks p ∧ g.ann.sender = a.sender) →
    ∃ d, Sys2Proof.Machine.exec (.ptpAnnounceTimeout p) s = .next { s with dev := Device.post s.dev d } ∧ d = s.dev) ∧
  (∀ p a, p < 8 → s.dev.fb ETH_PTP_CFG.EN p = true → s.dev.tk.parent = some (p, a) →
    (∀ g ∈ (s.dev.ptp p).foreign, g.ann.sender = a.sender → 3 * s.dev.annTicks p ≤ s.dev.tk.ticks - g.ann.rxAt) →
    ∃ d, Sys2Proof.Machine.exec (.ptpAnnounceTimeout p) s = .next { s with dev := Device.post s.dev d } ∧
      (d.ptp p).foreign = (s.dev.ptp p).foreign.filter (fun f => decide (s.dev.tk.ticks - f.ann.rxAt < 3 * s.dev.annTicks p))) ∧
  (∀ p, p < 8 → s.dev.mayPtp = true → s.dev.fb ETH_PTP_CFG.EN p = true → s.dev.pstate p = psMASTER →
    ∃ d, Sys2Proof.Machine.exec (.ptpTransmitTimer p 0) s = .next { s with dev := Device.post s.dev d } ∧ (d.ptp p).seqSync = ((s.dev.ptp p).seqSync + 1) % 65536 ∧
      d.ctr TK_PTP_TX = (s.dev.ctr TK_PTP_TX + b2n (s.dev.active uPORT p)) % 2 ^ 32) ∧
  (∀ p, p < 8 → s.dev.mayPtp = true → s.dev.fb ETH_PTP_CFG.EN p = true → s.dev.pstate p = psMASTER →
    ∃ d, Sys2Proof.Machine.exec (.ptpTransmitTimer p 1) s = .next { s with dev := Device.post s.dev d } ∧
      d.ptp p = { s.dev.ptp p with seqAnn := ((s.dev.ptp p).seqAnn + 1) % 65536 } ∧
      d.ctr TK_PTP_TX = (s.dev.ctr TK_PTP_TX + b2n (s.dev.active uPORT p)) % 2 ^ 32) ∧
  (∀ p k, p < 8 → k < 2 → s.dev.pstate p ≠ psMASTER → ∃ d, Sys2Proof.Machine.exec (.ptpTransmitTimer p k) s = .next { s with dev := Device.post s.dev d } ∧ d = s.dev) ∧
  (∀ p, p < 8 → s.dev.mayPtp = true → s.dev.fb ETH_PTP_CFG.EN p = true → s.dev.fb ETH_PTP_CFG.P2P p = true →
    ∃ d, Sys2Proof.Machine.exec (.ptpTransmitTimer p 2) s = .next { s with dev := Device.post s.dev d } ∧ (d.ptp p).seqReq = ((s.dev.ptp p).seqReq + 1) % 65536 ∧
      (d.ptp p).preq = some ((s.dev.ptp p).seqReq, none) ∧
      d.ctr TK_PTP_TX = (s.dev.ctr TK_PTP_TX + b2n (s.dev.active uPORT p)) % 2 ^ 32) ∧
  (∀ p, p < 8 → s.dev.mayPtp = true → s.dev.fb ETH_PTP_CFG.EN p = true → s.dev.fb ETH_PTP_CFG.P2P p = false →
    s.dev.pstate p = psSLAVE ∨ s.dev.pstate p = psUNCAL →
    ∃ d, Sys2Proof.Machine.exec (.ptpTransmitTimer p 2) s = .next { s with dev := Device.post s.dev d } ∧ (d.ptp p).seqReq = ((s.dev.ptp p).seqReq + 1) % 65536 ∧
      (d.ptp p).dreq = some ((s.dev.ptp p).seqReq, none) ∧
      d.ctr TK_PTP_TX = (s.dev.ctr TK_PTP_TX + b2n (s.dev.active uPORT p)) % 2 ^ 32) ∧
  (∀ dated bytes, framePtp bytes = true → ∃ d, Sys2Proof.Machine.exec (.mgtFrameReceived dated bytes) s = .next { s with dev := Device.post s.dev d } ∧
    d.ctr TK_MGT_PTP_DROP = (s.dev.ctr TK_MGT_PTP_DROP + 1) % 2 ^ 32 ∧ d.tk = s.dev.tk) ∧
  (∀ dated bytes, framePtp bytes = false → ∃ d, Sys2Proof.Machine.exec (.mgtFrameReceived dated bytes) s = .next { s with dev := Device.post s.dev d } ∧
    d.ctr TK_MGT_PTP_DROP = s.dev.ctr TK_MGT_PTP_DROP ∧ d.tk = s.dev.tk ∧
    d.free = s.dev.free ∧
    ∃ date, d.out = s.dev.out ++ [.toStrideMgt date bytes] ∧ s.dev.tk.now ≤ date + 20 * Time.usU ∧ date ≤ s.dev.tk.now + 20 * Time.usU) ∧
  (∀ p v, p < 8 → bit v 31 = true → s.dev.fb ETH_PTP_CFG.EN p = false →
    ∃ d, Sys2Proof.Machine.exec (.ethTxtsPop p v) s = .next { s with dev := Device.post s.dev d } ∧ d.ptp p = { s.dev.ptp p with txq := (s.dev.ptp p).txq.drop 1 } ∧
      ∀ q, q ≠ p → d.ptp q = s.dev.ptp q) ∧
  (∀ p v, p < 8 → bit v 31 = false ∨ s.dev.fb ETH_PTP_CFG.EN p = true → ∃ d, Sys2Proof.Machine.exec (.ethTxtsPop p v) s = .next { s with dev := Device.post s.dev d } ∧
    d = s.dev) ∧
  (∀ p e rest, p < 8 → (s.dev.ptp p).txq = e :: rest →
    ∃ d, Sys2Proof.Machine.exec (.ethTxtsIdRead p) s = .next { s with dev := Device.post s.dev d } ∧ d.lastRead = w32 (2147483648 + e.ident) ∧
      d.ptp p = { s.dev.ptp p with latchNs := w32 (Time.nsOf e.stamp), latchSec := w32 (Time.secOf e.stamp) }) ∧
  (∀ p, p < 8 → (s.dev.ptp p).txq = [] → ∃ d, Sys2Proof.Machine.exec (.ethTxtsIdRead p) s = .next { s with dev := Device.post s.dev d } ∧ d = { s.dev with lastRead := 0#32 })

/-- Modulator groups and filter channels: group writes, faults, strobes, start, stop and switch.
Every clause concludes that exec answers a next state (the command's own effect d, then what follows every command) and what d holds, on a device that
is alive (powered and out of RESET). LMF_GRP_WRITE takes effect with its channels stopped, or where it neither clears EN nor changes EDGE, else it only
sets CFG_ERR. CHANNEL_FAULT and CHANNEL_FAULT_CLEAR show a fault and its end. CAPTURE_STROBE and PHASOR_STROBE, while the measurement path runs, take
each enabled channel's bits and advance the phase; the phasor strobe starts or stops what is due. LMF_CH_RUN_START, LMF_CH_RUN_STOP and
LMF_SWITCH_REQUEST ask for their change; a request is queued during a cross-fade, changes nothing for the response in force, and is rejected with ECODE
6 for a reserved response, 4 for a group that is not enabled and 3 for the RAM bank without RAM_OK.
Rules: R264, R265, R267, R272, R273, R274, R276, R279. -/
def Obligations.FilterCommandsAct : Prop :=
  ∀ s : State, s.dev.alive = true →
  (∀ g v, g < 8 → (∀ i, i < 8 → s.dev.running (8 * g + i) = false) ∨ ((s.dev.fb LMF_GRP.EN g = true → bit v 31 = true) ∧ bx v 30 30 = s.dev.f LMF_GRP.EDGE g) →
    ∃ d, Sys2Proof.Machine.exec (.lmfGrpWrite g v) s = .next { s with dev := Device.post s.dev d } ∧ d.rg LMF_GRP g = v &&& 0xC0000000#32 ∧ d.lmf = s.dev.lmf ∧
      (s.dev.fb LMF_GRP.EN g ≠ bit v 31 → .pin 4 g (bit v 31) ∈ d.out)) ∧
  (∀ g v i, g < 8 → i < 8 → s.dev.running (8 * g + i) = true → (s.dev.fb LMF_GRP.EN g = true ∧ bit v 31 = false) ∨ bx v 30 30 ≠ s.dev.f LMF_GRP.EDGE g →
    ∃ d, Sys2Proof.Machine.exec (.lmfGrpWrite g v) s = .next { s with dev := Device.post s.dev d } ∧ d.f LMF_GSTAT.CFG_ERR = 1 ∧ d.rg LMF_GRP g = s.dev.rg LMF_GRP g ∧
      d.lmf = s.dev.lmf) ∧
  (∀ c, c < 64 → (s.dev.chan c).stuck = true → s.dev.fb LMF_CH_STAT.FAULT c = false →
    ∃ d, Sys2Proof.Machine.exec (.channelFault c) s = .next { s with dev := Device.post s.dev d } ∧ d.fb LMF_CH_STAT.FAULT c = true ∧
      d.ctr LMF_FAULTS = (s.dev.ctr LMF_FAULTS + 1) % 2 ^ 32) ∧
  (∀ c, c < 64 → (s.dev.chan c).stuck = false → s.dev.fb LMF_CH_STAT.FAULT c = true →
    ∃ d, Sys2Proof.Machine.exec (.channelFaultClear c) s = .next { s with dev := Device.post s.dev d } ∧ d.fb LMF_CH_STAT.FAULT c = false ∧
      d.ctr LMF_FAULTS = s.dev.ctr LMF_FAULTS) ∧
  (∀ half ws, s.dev.measuring = true → s.dev.lmf.phase < 7 → ∃ d, Sys2Proof.Machine.exec (.captureStrobe half ws) s = .next { s with dev := Device.post s.dev d } ∧
    d.lmf.phase = s.dev.lmf.phase + 1 ∧
    d.ctr LMF_CAP_OUT = (s.dev.ctr LMF_CAP_OUT + s.dev.runningChans.length) % 2 ^ 32 ∧
    (∀ c, c < 64 → s.dev.running c = true → (d.chan c).unsetCap = (s.dev.chan c).unsetCap - 1) ∧
    (∀ c, c < 64 → s.dev.fb LMF_GRP.EN (c / 8) = true → (d.chan c).level = (ws.getD c 0).testBit 127)) ∧
  (∀ half ws, s.dev.measuring = true → s.dev.lmf.phase = 7 → ∃ d, Sys2Proof.Machine.exec (.phasorStrobe half ws) s = .next { s with dev := Device.post s.dev d } ∧
    d.lmf.phase = 0 ∧
    (∀ c, c < 64 → s.dev.fb LMF_GRP.EN (c / 8) = true → (d.chan c).level = (ws.getD c 0).testBit 127)) ∧
  (∀ half ws c code t, s.dev.measuring = true → s.dev.lmf.phase = 7 → c < 64 → code < 16 → (s.dev.chan c).stop = false →
    (s.dev.chan c).start = some (code, t) → lmfDue t (s.dev.edgeTime half) = true → s.dev.fb LMF_GRP.EN (c / 8) = true →
    code ≠ 15 ∨ s.dev.fb LMF_CH_STAT.RAM_OK c = true → ∃ d, Sys2Proof.Machine.exec (.phasorStrobe half ws) s = .next { s with dev := Device.post s.dev d } ∧
      d.lmf.phase = 0 ∧ (d.chan c).start = none ∧
      d.running c = true ∧ d.f LMF_CH_STAT.ACTIVE c = code ∧ (d.chan c).unsetPh = s.dev.nPh c code - 1) ∧
  (∀ half ws c, s.dev.measuring = true → s.dev.lmf.phase = 7 → c < 64 → (s.dev.chan c).stop = true → (s.dev.chan c).start = none →
    ∃ d, Sys2Proof.Machine.exec (.phasorStrobe half ws) s = .next { s with dev := Device.post s.dev d } ∧ d.lmf.phase = 0 ∧ d.running c = false ∧
      (d.chan c).stop = false ∧ d.fb LMF_CH_STAT.FADING c = false) ∧
  (∀ c v, c < 64 → s.dev.running c = false ∨ (s.dev.chan c).stop = true → ¬ (12 ≤ bx v 3 0 ∧ bx v 3 0 ≤ 14) →
    (s.dev.fb LMF_GRP.EN (c / 8) = true → bx v 3 0 ≠ 15 ∨ s.dev.fb LMF_CH_STAT.RAM_OK c = true →
      ∃ d, Sys2Proof.Machine.exec (.lmfChRunStart c v) s = .next { s with dev := Device.post s.dev d } ∧ 
      d.chan c = { s.dev.chan c with start := some (bx v 3 0, match (s.dev.chan c).start with | some q => q.2 | none => s.dev.tk.now) } ∧
      d.fb LMF_CH_CTL.RUN c = true ∧ d.f LMF_CH_CTL.SEL c = bx v 3 0 ∧ ∀ j, j ≠ c → d.chan j = s.dev.chan j) ∧
    (s.dev.fb LMF_GRP.EN (c / 8) = false → ∃ d, Sys2Proof.Machine.exec (.lmfChRunStart c v) s = .next { s with dev := Device.post s.dev d } ∧ d.lmf = s.dev.lmf ∧
      d.f LMF_CH_STAT.ERR c = 1 ∧ d.f LMF_CH_STAT.ECODE c = 4 ∧
      d.ctr LMF_REJECTS = (s.dev.ctr LMF_REJECTS + 1) % 2 ^ 32) ∧
    (s.dev.fb LMF_GRP.EN (c / 8) = true → bx v 3 0 = 15 → s.dev.fb LMF_CH_STAT.RAM_OK c = false →
      ∃ d, Sys2Proof.Machine.exec (.lmfChRunStart c v) s = .next { s with dev := Device.post s.dev d } ∧ d.lmf = s.dev.lmf ∧
      d.f LMF_CH_STAT.ERR c = 1 ∧ d.f LMF_CH_STAT.ECODE c = 3 ∧ d.ctr LMF_REJECTS = (s.dev.ctr LMF_REJECTS + 1) % 2 ^ 32)) ∧
  (∀ c v, c < 64 → 12 ≤ bx v 3 0 → bx v 3 0 ≤ 14 → ∀ i, i = Instr.lmfChRunStart c v ∨ i = Instr.lmfSwitchRequest c v →
    ∃ d, Sys2Proof.Machine.exec i s = .next { s with dev := Device.post s.dev d } ∧ d.lmf = s.dev.lmf ∧
    d.f LMF_CH_STAT.ERR c = 1 ∧ d.f LMF_CH_STAT.ECODE c = 6 ∧ d.ctr LMF_REJECTS = (s.dev.ctr LMF_REJECTS + 1) % 2 ^ 32) ∧
  (∀ c v, c < 64 → ∃ d, Sys2Proof.Machine.exec (.lmfChRunStop c v) s = .next { s with dev := Device.post s.dev d } ∧
    d.chan c = { s.dev.chan c with start := none, stop := s.dev.running c } ∧
    d.fb LMF_CH_CTL.RUN c = false ∧ d.running c = s.dev.running c ∧ ∀ j, j ≠ c → d.chan j = s.dev.chan j) ∧
  (∀ c v, c < 64 → s.dev.running c = true → (s.dev.chan c).stop = false → ¬ (12 ≤ bx v 3 0 ∧ bx v 3 0 ≤ 14) → s.dev.fb LMF_CH_STAT.FADING c = false →
    (bx v 3 0 ≠ s.dev.f LMF_CH_STAT.ACTIVE c → bx v 3 0 ≠ 15 ∨ s.dev.fb LMF_CH_STAT.RAM_OK c = true →
      ∃ d, Sys2Proof.Machine.exec (.lmfSwitchRequest c v) s = .next { s with dev := Device.post s.dev d } ∧ 
      d.chan c = { s.dev.chan c with switch := some (bx v 3 0, s.dev.tk.now) } ∧ d.f LMF_CH_CTL.SEL c = bx v 3 0) ∧
    (bx v 3 0 = s.dev.f LMF_CH_STAT.ACTIVE c → ∃ d, Sys2Proof.Machine.exec (.lmfSwitchRequest c v) s = .next { s with dev := Device.post s.dev d } ∧ d.lmf = s.dev.lmf ∧
      d.f LMF_CH_CTL.SEL c = bx v 3 0) ∧
    (bx v 3 0 ≠ s.dev.f LMF_CH_STAT.ACTIVE c → bx v 3 0 = 15 → s.dev.fb LMF_CH_STAT.RAM_OK c = false →
      ∃ d, Sys2Proof.Machine.exec (.lmfSwitchRequest c v) s = .next { s with dev := Device.post s.dev d } ∧ d.lmf = s.dev.lmf ∧
      d.f LMF_CH_STAT.ERR c = 1 ∧ d.f LMF_CH_STAT.ECODE c = 3 ∧ d.ctr LMF_REJECTS = (s.dev.ctr LMF_REJECTS + 1) % 2 ^ 32)) ∧
  (∀ c v, c < 64 → s.dev.running c = true → (s.dev.chan c).stop = false → ¬ (12 ≤ bx v 3 0 ∧ bx v 3 0 ≤ 14) → s.dev.fb LMF_CH_STAT.FADING c = true →
    ∃ d, Sys2Proof.Machine.exec (.lmfSwitchRequest c v) s = .next { s with dev := Device.post s.dev d } ∧ d.chan c = { s.dev.chan c with queued := some (bx v 3 0) } ∧
      d.fb LMF_CH_STAT.QUEUED c = true ∧
      d.f LMF_CH_STAT.QSEL c = bx v 3 0)

/-- Capture groups: arm, disarm, force, triggers, the end of a record, and slot release.
Every clause concludes that exec answers a next state (the command's own effect d, then what follows every command) and what d holds, on a device that
is alive (powered and out of RESET; awake, out of HOLD too, where named). ACQ_ARM of an idle group with a legal entry takes the lowest free slot or
waits FULL, and is refused with ECODE 2 without DDR5, 3 for an entry that is off, 5 beyond the group's capacity and 6 for a bad area. ACQ_DISARM ends
and does nothing in IDLE. ACQ_FORCE triggers, retriggers or counts a lost one. TRIGGER_EVAL_INSTANT evaluates once an instant and triggers at the
persistence of its trigger. CAPTURE_RECORD_END closes the record and rearms with AUTO. ACQ_SLOT_RELEASE frees a done slot, else ECODE 4.
Rules: R283, R284, R285, R287, R290. -/
def Obligations.CaptureCommandsAct : Prop :=
  ∀ (s : State) (g : Nat), s.dev.alive = true → g < 8 →
  (∀ t rest, (s.dev.capGrp g).st = .idle → s.dev.fb ACQ_DDR.VALID = true → geEn (s.dev.gE g) = true →
    (gePre (s.dev.gE g) + geMaxPost (s.dev.gE g)) / Time.msU ≤ s.dev.grpCap g → s.dev.areaBad g = false → s.dev.grpFree g = t :: rest →
    ∃ d, Sys2Proof.Machine.exec (.acqArm g) s = .next { s with dev := Device.post s.dev d } ∧ (d.capGrp g).st = .armed ∧ (d.capGrp g).slot = t ∧
      (d.capGrp g).blocks = [] ∧ (d.capGrp g).done = (s.dev.capGrp g).done) ∧
  ((s.dev.capGrp g).st = .idle → s.dev.fb ACQ_DDR.VALID = false → ∃ d, Sys2Proof.Machine.exec (.acqArm g) s = .next { s with dev := Device.post s.dev d } ∧
    d.acq = s.dev.acq ∧ d.f ACQ_STAT.ERR = 1 ∧ d.f ACQ_STAT.ECODE = 2) ∧
  ((s.dev.capGrp g).st = .idle → s.dev.fb ACQ_DDR.VALID = true → geEn (s.dev.gE g) = false →
    ∃ d, Sys2Proof.Machine.exec (.acqArm g) s = .next { s with dev := Device.post s.dev d } ∧ d.acq = s.dev.acq ∧ d.f ACQ_STAT.ERR = 1 ∧
    d.f ACQ_STAT.ECODE = 3) ∧
  ((s.dev.capGrp g).st = .idle → s.dev.fb ACQ_DDR.VALID = true → geEn (s.dev.gE g) = true →
    (s.dev.grpCap g < (gePre (s.dev.gE g) + geMaxPost (s.dev.gE g)) / Time.msU →
      ∃ d, Sys2Proof.Machine.exec (.acqArm g) s = .next { s with dev := Device.post s.dev d } ∧ d.acq = s.dev.acq ∧ d.f ACQ_STAT.ERR = 1 ∧
      d.f ACQ_STAT.ECODE = 5) ∧
    ((gePre (s.dev.gE g) + geMaxPost (s.dev.gE g)) / Time.msU ≤ s.dev.grpCap g → s.dev.areaBad g = true →
      ∃ d, Sys2Proof.Machine.exec (.acqArm g) s = .next { s with dev := Device.post s.dev d } ∧ d.acq = s.dev.acq ∧
      d.f ACQ_STAT.ERR = 1 ∧ d.f ACQ_STAT.ECODE = 6) ∧
    ((gePre (s.dev.gE g) + geMaxPost (s.dev.gE g)) / Time.msU ≤ s.dev.grpCap g → s.dev.areaBad g = false → s.dev.grpFree g = [] →
      ∃ d, Sys2Proof.Machine.exec (.acqArm g) s = .next { s with dev := Device.post s.dev d } ∧ (d.capGrp g).st = .full ∧ (d.capGrp g).done = (s.dev.capGrp g).done)) ∧
  ((s.dev.capGrp g).st ≠ .idle → ∃ d, Sys2Proof.Machine.exec (.acqArm g) s = .next { s with dev := Device.post s.dev d } ∧ d = s.dev) ∧
  ((s.dev.capGrp g).st = .idle → ∃ d, Sys2Proof.Machine.exec (.acqDisarm g) s = .next { s with dev := Device.post s.dev d } ∧ d = s.dev) ∧
  ((s.dev.capGrp g).st = .armed → ∃ d, Sys2Proof.Machine.exec (.acqDisarm g) s = .next { s with dev := Device.post s.dev d } ∧ (d.capGrp g).st = .idle ∧
    (d.capGrp g).done = (s.dev.capGrp g).done) ∧
  ((s.dev.capGrp g).st.recording = true → (s.dev.capGrp g).cur = [] → ∃ d, Sys2Proof.Machine.exec (.acqDisarm g) s = .next { s with dev := Device.post s.dev d } ∧
    (d.capGrp g).st = .idle ∧
    (d.capGrp g).done = (s.dev.capGrp g).slot :: (s.dev.capGrp g).done ∧ d.ctr ACQ_RECORDS = (s.dev.ctr ACQ_RECORDS + 1) % 2 ^ 32) ∧
  ((s.dev.capGrp g).st = .armed → ∃ d, Sys2Proof.Machine.exec (.acqForce g) s = .next { s with dev := Device.post s.dev d } ∧ (d.capGrp g).st = .triggered ∧
    (d.capGrp g).trigAt = s.dev.tk.now ∧
    (d.capGrp g).stop = s.dev.tk.now + gePost (s.dev.gE g) ∧ (d.capGrp g).cause = 0x200 ∧ d.ctr ACQ_TRIGGERS = (s.dev.ctr ACQ_TRIGGERS + 1) % 2 ^ 32) ∧
  ((s.dev.capGrp g).st = .triggered → ∃ d, Sys2Proof.Machine.exec (.acqForce g) s = .next { s with dev := Device.post s.dev d } ∧ (d.capGrp g).st = .triggered ∧
    (d.capGrp g).retrig = (s.dev.capGrp g).retrig + 1 ∧
    (d.capGrp g).stop = min (max (s.dev.capGrp g).stop (s.dev.tk.now + gePost (s.dev.gE g))) ((s.dev.capGrp g).trigAt + geMaxPost (s.dev.gE g)) ∧
    d.ctr ACQ_RETRIG = (s.dev.ctr ACQ_RETRIG + 1) % 2 ^ 32) ∧
  ((s.dev.capGrp g).st = .full → ∃ d, Sys2Proof.Machine.exec (.acqForce g) s = .next { s with dev := Device.post s.dev d } ∧ (d.capGrp g).st = .full ∧
    d.ctr ACQ_TRIG_LOST = (s.dev.ctr ACQ_TRIG_LOST + 1) % 2 ^ 32) ∧
  (s.dev.awake = true → s.dev.measuring = true → (s.dev.capGrp g).st.recording = true → (s.dev.capGrp g).stop ≤ s.dev.tk.now → (s.dev.capGrp g).cur = [] →
    ∃ d, Sys2Proof.Machine.exec (.captureRecordEnd g) s = .next { s with dev := Device.post s.dev d } ∧ (d.capGrp g).done = (s.dev.capGrp g).slot :: (s.dev.capGrp g).done ∧
      d.ctr ACQ_RECORDS = (s.dev.ctr ACQ_RECORDS + 1) % 2 ^ 32 ∧ (s.dev.fb ACQ_GRP_CTL.AUTO g = false → (d.capGrp g).st = .idle) ∧
      (s.dev.fb ACQ_GRP_CTL.AUTO g = true → (d.capGrp g).st = .armed ∨ (d.capGrp g).st = .full)) ∧
  (∀ v, bit v 31 = true → bx v 10 8 = g → (s.dev.capGrp g).done.contains (bx v 3 0) = true →
    ∃ d, Sys2Proof.Machine.exec (.acqSlotRelease v) s = .next { s with dev := Device.post s.dev d } ∧ (d.capGrp g).done = (s.dev.capGrp g).done.filter (· ≠ bx v 3 0) ∧
    ((s.dev.capGrp g).st = .full → (d.capGrp g).st = .armed ∧ (d.capGrp g).slot = bx v 3 0) ∧
    ((s.dev.capGrp g).st ≠ .full → (d.capGrp g).st = (s.dev.capGrp g).st)) ∧
  (∀ v, bit v 31 = true → bx v 10 8 = g → (s.dev.capGrp g).done.contains (bx v 3 0) = false →
    ∃ d, Sys2Proof.Machine.exec (.acqSlotRelease v) s = .next { s with dev := Device.post s.dev d } ∧ d.acq = s.dev.acq ∧ d.f ACQ_STAT.ERR = 1 ∧ d.f ACQ_STAT.ECODE = 4) ∧
  (∀ nom t n at_, s.dev.awake = true → s.dev.measuring = true → n = s.dev.tk.now * (8 * (if nom then 60 else 50)) / Time.secU →
    at_ = n * Time.secU / (8 * (if nom then 60 else 50)) → mget s.dev.acq.evalAt (b2n nom) ≠ some n → s.dev.ents tTrigger = [(t, s.dev.ent tTrigger t)] →
    trEn (s.dev.ent tTrigger t) = true → trKind (s.dev.ent tTrigger t) ≠ 0 → trKind (s.dev.ent tTrigger t) ≠ 3 → tr60 (s.dev.ent tTrigger t) = nom →
    s.dev.cycleTrue (s.dev.ent tTrigger t) at_ = true → s.dev.grpsOf (trMask (s.dev.ent tTrigger t)) (trChans (s.dev.ent tTrigger t)) = [g] →
    (s.dev.capGrp g).st = .armed → mgetD s.dev.acq.trig t 0 + 1 = trPersist (s.dev.ent tTrigger t) →
      ∃ d, Sys2Proof.Machine.exec (.triggerEvalInstant nom) s = .next { s with dev := Device.post s.dev d } ∧ (d.capGrp g).st = .triggered ∧ (d.capGrp g).trigAt = at_ ∧
      (d.capGrp g).cause = t ∧ (d.capGrp g).stop = at_ + gePost (s.dev.gE g)) ∧
  (∀ nom n, s.dev.awake = true → s.dev.measuring = true → n = s.dev.tk.now * (8 * (if nom then 60 else 50)) / Time.secU →
    mget s.dev.acq.evalAt (b2n nom) ≠ some n → (∀ e ∈ s.dev.ents tTrigger, trEn e.2 = false) →
    ∃ d, Sys2Proof.Machine.exec (.triggerEvalInstant nom) s = .next { s with dev := Device.post s.dev d } ∧
      d.acq = { s.dev.acq with evalAt := mset s.dev.acq.evalAt (b2n nom) n }) ∧
  (∀ v, bit v 31 = false → ∃ d, Sys2Proof.Machine.exec (.acqSlotRelease v) s = .next { s with dev := Device.post s.dev d } ∧ d = s.dev)

/-- Threshold commands, the drain of alarm records, and the alarm outputs.
Where a gate is named (the device alive: powered and out of RESET; awake: also out of HOLD), it is a hypothesis. Every clause concludes that exec
answers a next state whose device, before what follows every command, has the listed content. ALM_THR_CMD_* on an enabled hurdle with a finite legal
value stores it in the entry, for the laps not yet opened; else ECODE 1, 3 or 4. ALARM_RECORD_DRAIN moves one record to its ring, behind which a LOSS
record stands for those dropped, and none in FOLLOW. AOUT_LATCH_CLEAR of a latched output, AOUT_FORCE_WRITE and AOUT_MIN_ON_EXPIRY change the output's state as its configuration says; FORCE 3
is ignored.
Rules: R244, R246, R247. -/
def Obligations.AlarmCommandsAct : Prop :=
  ∀ s : State, s.dev.alive = true →
  (∀ (op : Nat) (c : Instr) (h : Nat) (e : List Word) (v : Word) (first : Nat),
    (op, c) ∈ [(1, Instr.almThrCmdThrA), (2, Instr.almThrCmdHysA), (3, Instr.almThrCmdThrB)] → h = s.dev.f ALM_HSEL.HURDLE → e = s.dev.ent tHurdle h →
    v = s.dev.rg ALM_THR_VAL 0 → first = s.dev.firstUnopened (ieHeat (s.dev.instE (huInst e))) →
    (huEn e = false → Effect c s (fun d => d.alm = s.dev.alm ∧ d.tables = s.dev.tables ∧ d.f ALM_STAT.ERR = 1 ∧ d.f ALM_STAT.ECODE = 1)) ∧
    (huEn e = true → fFinite v = false → Effect c s (fun d => d.alm = s.dev.alm ∧ d.tables = s.dev.tables ∧ d.f ALM_STAT.ERR = 1 ∧ d.f ALM_STAT.ECODE = 3)) ∧
    (huEn e = true → fFinite v = true → op = 2 → fLt v 0#32 = true ∨ (fIsZero v = false ∧ (huOpA e = 3 ∨ huOpA e = 4)) → Effect c s (fun d =>
      d.alm = s.dev.alm ∧ d.tables = s.dev.tables ∧ d.f ALM_STAT.ERR = 1 ∧ d.f ALM_STAT.ECODE = 4)) ∧
    (huEn e = true → fFinite v = true → (op = 2 → fLt v 0#32 = false ∧ (fIsZero v = true ∨ (huOpA e ≠ 3 ∧ huOpA e ≠ 4))) → Effect c s (fun d =>
      d.ent tHurdle h = lset e (op + 1) v ∧ d.ctr ALM_THR_CMDS = (s.dev.ctr ALM_THR_CMDS + 1) % 2 ^ 32 ∧
      (∀ lap, lap < first → thrAt e (d.hur h) lap = thrAt e (s.dev.hur h) lap) ∧
      (∀ lap, first ≤ lap → thrAt e (d.hur h) lap = (wd (lset e (op + 1) v) 2, wd (lset e (op + 1) v) 3, wd (lset e (op + 1) v) 4))))) ∧
  (s.dev.awake = true → s.dev.mem.bad = [] → s.dev.pwr.mode = .follow → Effect .alarmRecordDrain s (fun d => d = s.dev)) ∧
  (∀ r q, s.dev.awake = true → s.dev.mem.bad = [] → s.dev.pwr.mode ≠ .follow → s.dev.alm.buf = [r] → r.length = 16 → s.dev.fb ALM_CFG.EN = true → q = s.dev.f ALM_CFG.RING →
    s.dev.fb HIF_CQ_CFG.EN q = true → s.dev.f HIF_CQ_CFG.CONTENT q = 1 → 4 ≤ s.dev.cqFree q → Effect .alarmRecordDrain s (fun d => d.alm.lost = 0 ∧
      (s.dev.alm.lost = 0 → d.alm.buf = [] ∧ d.alm.recSeq = s.dev.alm.recSeq ∧ (d.cqSt q).tail = ((s.dev.cqSt q).tail + 4) % s.dev.cqSize q) ∧
      (s.dev.alm.lost ≠ 0 → d.alm.recSeq = (s.dev.alm.recSeq + 1) % 4294967296))) ∧
  (∀ v k, s.dev.pwr.mode ≠ .hold → k < 16 → bit v k = true → (s.dev.aoutSt k).act = true → s.dev.fb ALM_AOUT_CFG.LATCH k = true →
    s.dev.aoutLevel k = false → (s.dev.aoutSt k).minUntil ≤ s.dev.now →
    Effect (.aoutLatchClear v) s (fun d => (d.aoutSt k).act = false ∧ (d.aoutSt k).level = (s.dev.f ALM_AOUT_CFG.FORCE k == 2) ∧
      ∀ j, bit v j = false → d.aoutSt j = s.dev.aoutSt j)) ∧
  (∀ k v, s.dev.pwr.mode ≠ .hold → k < 16 → bx v 31 30 = 1 ∨ bx v 31 30 = 2 → Effect (.aoutForceWrite k v) s (fun d =>
    (d.aoutSt k).level = (bx v 31 30 == 2) ∧ d.rg ALM_AOUT_CFG k = v &&& 0xF800FFFF#32 ∧ ∀ j, j ≠ k → d.aoutSt j = s.dev.aoutSt j)) ∧
  (∀ k v, k < 16 → bx v 31 30 = 3 → Effect (.aoutForceWrite k v) s (fun d => d = s.dev)) ∧
  (∀ k, s.dev.awake = true → k < 16 → (s.dev.aoutSt k).act = true → s.dev.aoutLevel k = false → s.dev.fb ALM_AOUT_CFG.LATCH k = false →
    (s.dev.aoutSt k).minUntil ≤ s.dev.now → Effect (.aoutMinOnExpiry k) s (fun d => (d.aoutSt k).act = false ∧ ∀ j, j ≠ k → d.aoutSt j = s.dev.aoutSt j))

/-- C37.118 client commands: off, on, header and configuration requests, unknown ones, and the periodic CFG.
Where a gate is named (the device alive: powered and out of RESET; awake: also out of HOLD), it is a hypothesis. Every clause concludes that exec
answers a next state whose device, before what follows every command, has the listed content. In RACE: C37_CMD_TX_OFF and C37_CMD_TX_ON of a known
client stop and start its data; the SEND commands of a UDP client send the frame on its lowest ACTIVE port and count it, where it has one; a command of
no client or of another code only counts as bad; C37_CFG_PERIODIC sends a UDP client's configuration and sets the next minute.
Rules: R256. -/
def Obligations.ClientCommandsAct : Prop :=
  ∀ s : State, s.dev.awake = true → s.dev.pwr.mode = .race →
  (∀ (tcp : Bool) (from_ id c : Nat) (d1 : Device), s.dev.cmdClient tcp from_ id = (some c, d1) → (s.dev.client c).on = true →
    Effect (.c37CmdTxOff tcp from_ id) s (fun d => (d.client c).on = false ∧ d.ctr EGR_C37_CMD = (s.dev.ctr EGR_C37_CMD + 1) % 2 ^ 32)) ∧
  (∀ (tcp : Bool) (from_ id c : Nat) (d1 : Device), s.dev.cmdClient tcp from_ id = (some c, d1) → (s.dev.client c).on = false →
    Effect (.c37CmdTxOn tcp from_ id) s (fun d => (d.client c).on = true ∧ d.ctr EGR_C37_CMD = (s.dev.ctr EGR_C37_CMD + 1) % 2 ^ 32)) ∧
  (∀ (from_ id c : Nat) (d1 : Device) (i : Instr), s.dev.cmdClient false from_ id = (some c, d1) →
    i ∈ [Instr.c37CmdSendHdr false from_ id, .c37CmdSendCfg1 false from_ id, .c37CmdSendCfg2 false from_ id, .c37CmdSendCfg3 false from_ id] →
    clTcp (s.dev.clientE c) = false → (i = .c37CmdSendCfg3 false from_ id → clCfg3 (s.dev.clientE c) = true) → Effect i s (fun d =>
      d.ctr EGR_C37_CMD = (s.dev.ctr EGR_C37_CMD + 1) % 2 ^ 32 ∧
      (∀ p, s.dev.lowestPort (clPorts (s.dev.clientE c)) = some p → d.ctr EGR_CFG_SENT = (s.dev.ctr EGR_CFG_SENT + 1) % 2 ^ 32) ∧
      (s.dev.lowestPort (clPorts (s.dev.clientE c)) = none → d.ctr EGR_CFG_SENT = s.dev.ctr EGR_CFG_SENT))) ∧
  (∀ (tcp : Bool) (from_ id : Nat) (i : Instr), (s.dev.cmdClient tcp from_ id).1 = none →
    i ∈ [Instr.c37CmdTxOff tcp from_ id, .c37CmdTxOn tcp from_ id, .c37CmdSendHdr tcp from_ id, .c37CmdSendCfg1 tcp from_ id, .c37CmdSendCfg2 tcp from_ id,
      .c37CmdSendCfg3 tcp from_ id] → Effect i s (fun d => d.ctr EGR_C37_CMD_BAD = (s.dev.ctr EGR_C37_CMD_BAD + 1) % 2 ^ 32 ∧ d.egr = s.dev.egr)) ∧
  (∀ (cmd : Nat) (tcp : Bool) (from_ id : Nat), Effect (.c37CmdOther cmd tcp from_ id) s (fun d =>
    d.ctr EGR_C37_CMD_BAD = (s.dev.ctr EGR_C37_CMD_BAD + 1) % 2 ^ 32 ∧ d.egr = s.dev.egr)) ∧
  (∀ c t, (s.dev.client c).cfgAt = some t → t ≤ s.dev.tk.now → clEn (s.dev.clientE c) = true → clTcp (s.dev.clientE c) = false →
    Effect (.c37CfgPeriodic c) s (fun d => (d.client c).cfgAt = some (s.dev.tk.now + 60 * Time.secU) ∧
      (∀ p, s.dev.lowestPort (clPorts (s.dev.clientE c)) = some p → d.ctr EGR_CFG_SENT = (s.dev.ctr EGR_CFG_SENT + 1) % 2 ^ 32) ∧
      (s.dev.lowestPort (clPorts (s.dev.clientE c)) = none → d.ctr EGR_CFG_SENT = s.dev.ctr EGR_CFG_SENT)))

/-- GOOSE retransmission, TCP connections, acknowledgements and retransmission, and frames sent.
Where a gate is named (the device alive: powered and out of RESET; awake: also out of HOLD), it is a hypothesis. Every clause concludes that exec
answers a next state whose device, before what follows every command, has the listed content. GOOSE_RETRANSMIT advances sqNum and doubles the
interval up to its limit; while a message of the publication still waits, only the interval moves. EGRESS_TCP_ACCEPT opens a connection for a client
that is enabled, on a port of its PORTS; EGRESS_TCP_ACK_RECEIVED moves una, and the third duplicate retransmits; EGRESS_TCP_RTO retransmits: on the
client's lowest ACTIVE port at once, or after the segment that is queued. TX_FRAME_COMPLETE sends and counts the port's frame, a one-step message
completed with its stamp, and a firmware frame's time-stamp enters the FIFO.
Rules: R251, R256, R257, R329. -/
def Obligations.TransmissionCommandsAct : Prop :=
  ∀ s : State, s.dev.awake = true →
  (∀ n t, s.dev.pwr.mode = .race → pubEn (s.dev.ent tPub n) = true → (s.dev.gooseSt n).nextAt = some t → t ≤ s.dev.tk.now → s.dev.goosePending n = false →
    Effect (.gooseRetransmit n) s (fun d => (d.gooseSt n).sqNum = ((s.dev.gooseSt n).sqNum + 1) % 4294967296 ∧ (d.gooseSt n).stNum = (s.dev.gooseSt n).stNum ∧
      (d.gooseSt n).interval = min (2 * (s.dev.gooseSt n).interval) (bx (wd (s.dev.ent tPub n) 2) 15 0) ∧
      (d.gooseSt n).nextAt = some (s.dev.tk.now + min (2 * (s.dev.gooseSt n).interval) (bx (wd (s.dev.ent tPub n) 2) 15 0) * Time.msU))) ∧
  (∀ n t, s.dev.pwr.mode = .race → pubEn (s.dev.ent tPub n) = true → (s.dev.gooseSt n).nextAt = some t → t ≤ s.dev.tk.now → s.dev.goosePending n = true →
    Effect (.gooseRetransmit n) s (fun d => d.gooseSt n = { s.dev.gooseSt n with
      interval := min (2 * (s.dev.gooseSt n).interval) (bx (wd (s.dev.ent tPub n) 2) 15 0),
      nextAt := some (s.dev.tk.now + min (2 * (s.dev.gooseSt n).interval) (bx (wd (s.dev.ent tPub n) 2) 15 0) * Time.msU) })) ∧
  (∀ conn port v6 addr pport mss iss rcv e, s.dev.pwr.mode = .race → s.dev.active uPORT port = true → mget s.dev.egr.conns conn = none → e ∈ s.dev.ents tClient →
    clEn e.2 = true → clTcp e.2 = true → clPeer e.2 = peerBytes v6 addr → clPort e.2 = 0 ∨ clPort e.2 = pport → (clPorts e.2).testBit port = true →
    Effect (.egressTcpAccept conn port v6 addr pport mss iss rcv) s (fun d =>
      ∃ x, mget d.egr.conns conn = some x ∧ x.peer = peerBytes v6 addr ∧ x.peerPort = pport ∧ x.client = none ∧ x.una = iss % 4294967296 ∧
        x.sndNxt = iss % 4294967296 ∧ x.sent = [] ∧ x.unsent = [])) ∧
  (∀ conn ack x adv, mget s.dev.egr.conns conn = some x → adv = (ack + 4294967296 - x.una) % 4294967296 → 0 < adv →
    adv ≤ (x.sndNxt + 4294967296 - x.una) % 4294967296 → Effect (.egressTcpAckReceived conn ack) s (fun d =>
      ∃ y, mget d.egr.conns conn = some y ∧ y.una = ack % 4294967296 ∧ y.dup = 0)) ∧
  (∀ conn x b rest c, s.dev.pwr.mode = .race → mget s.dev.egr.conns conn = some x → x.sent = b :: rest →
    c = .egressTcpAckReceived conn x.una ∧ x.dup = 2 ∧ x.una < 4294967296 ∨ c = .egressTcpRto conn ∧ x.lastTx + 200 * Time.msU ≤ s.dev.tk.now →
    (∀ p, x.queued = false → s.dev.connPort x = some p → Effect c s (fun d => .tcpSent true conn p b.1 b.2 ∈ d.out ∧
      d.ctr EGR_TCP_RETX = (s.dev.ctr EGR_TCP_RETX + 1) % 2 ^ 32)) ∧
    (x.queued = true ∨ s.dev.connPort x = none → Effect c s (fun d => ∃ y, mget d.egr.conns conn = some y ∧ y.again = true ∧ y.sent = x.sent ∧
      d.ctr EGR_TCP_RETX = s.dev.ctr EGR_TCP_RETX))) ∧
  (∀ p stamp fw x alarm, p < 8 → (s.dev.ptx p).cur = some (x, alarm) → Effect (.txFrameComplete p stamp fw) s (fun d =>
    .ethFrame p alarm (txFix x (s.dev.txAdjust p stamp)) ∈ d.out ∧ d.ctr TX_FRAMES_OK p = (s.dev.ctr TX_FRAMES_OK p + 1) % 2 ^ 32)) ∧
  (∀ p stamp fw, p < 8 → (s.dev.ptx p).cur = none → 32768 ≤ fw → fw ≤ 65535 → s.dev.active uPORT p = true → (s.dev.ptp p).txq.length < 16 →
    Effect (.txFrameComplete p stamp fw) s (fun d => d.ctr TX_FRAMES_OK p = (s.dev.ctr TX_FRAMES_OK p + 1) % 2 ^ 32 ∧
      (d.ptp p).txq = (s.dev.ptp p).txq ++ [⟨fw, ((stamp : Int) + s16 (s.dev.f ETH_PTP_LAT.TX_ADJ p) * (Time.nsU : Int)).toNat⟩]))

/-- The oscillation monitor starts, primes and stops, and a graph swap is asked for or refused.
Where a gate is named (the device alive: powered and out of RESET; awake: also out of HOLD), it is a hypothesis. Every clause concludes that exec
answers a next state whose device, before what follows every command, has the listed content. OSM_RUN_START arms the monitor or sets its check's
code; OSM_START_SAMPLE primes it at the first sample; OSM_RUN_STOP stops it, waiting for its task in flight. ISL_SWAP_REQUEST arms a swap or is
refused with its code.
Rules: R160, R161, R207. -/
def Obligations.MonitorCommandsAct : Prop :=
  ∀ s : State, s.dev.alive = true →
  (s.dev.osm.st = .stopped → s.dev.osm.runAt = none → s.dev.osmCheck (s.dev.f OSM_CTL.INST) = 0 → Effect .osmRunStart s (fun d => d.fb OSM_CTL.RUN = true ∧
    d.osm.runAt = some s.dev.now ∧ d.osm.inbuf = [])) ∧
  (s.dev.osm.st = .stopped → s.dev.osm.runAt = none → s.dev.osmCheck (s.dev.f OSM_CTL.INST) ≠ 0 → Effect .osmRunStart s (fun d => d.osm = s.dev.osm ∧
    d.f OSM_STAT.ERR = 1 ∧ d.f OSM_STAT.ECODE = s.dev.osmCheck (s.dev.f OSM_CTL.INST))) ∧
  (∀ k, s.dev.awake = true → s.dev.lapsRun = true → s.dev.osmFirst = some k → Effect .osmStartSample s (fun d => d.osm.st = .priming ∧ d.osm.startK = k ∧
    d.osm.next = k ∧ d.osm.runAt = none ∧ d.osm.cov = List.replicate (24 * monPc s.dev.monP) (List.replicate (24 * monPc s.dev.monP) fZero) ∧
    d.osm.tracks = List.replicate 64 trackNew ∧ d.f OSM_STAT.STATE = 1)) ∧
  (s.dev.osmOn = true → (∀ t ∈ s.dev.srt.flight, ieCode (s.dev.instE t.e.inst) ≠ kOSCMON) → Effect .osmRunStop s (fun d => d.osm.st = .stopped ∧
    d.f OSM_STAT.STATE = 0 ∧ d.f OSM_STAT.REASON = 0 ∧ d.fb OSM_CTL.RUN = false)) ∧
  (∀ t ∈ s.dev.srt.flight, s.dev.osmOn = true → ieCode (s.dev.instE t.e.inst) = kOSCMON → Effect .osmRunStop s (fun d => d.osm.st = .stopping ∧
    d.f OSM_STAT.STATE = 3 ∧ d.fb OSM_CTL.RUN = false)) ∧
  (s.dev.osmOn = false → Effect .osmRunStop s (fun d => d.osm = { s.dev.osm with runAt := none } ∧ d.fb OSM_CTL.RUN = false)) ∧
  (s.dev.fb ISL_GRAPH.SWAP = false → s.dev.swapCheck.1 = 0 → Effect .islSwapRequest s (fun d => d.fb ISL_GRAPH.SWAP = true ∧
    d.isl = { s.dev.isl with swapAt := some s.dev.now })) ∧
  (s.dev.fb ISL_GRAPH.SWAP = false → s.dev.swapCheck.1 ≠ 0 → Effect .islSwapRequest s (fun d => d.fb ISL_GRAPH.SWAP = false ∧
    d.isl = { s.dev.isl with swapAt := none } ∧ d.f ISL_STAT.ERR = 1 ∧ d.f ISL_STAT.ECODE = s.dev.swapCheck.1))

/-- Tasks: placement, gather, commit, waiting commits and residue mismatches; a commit publishes its block.
Where a gate is named (the device alive: powered and out of RESET; awake: also out of HOLD), it is a hypothesis. Every clause concludes that exec
answers a next state whose device, before what follows every command, has the listed content. TASK_PLACE takes the first queued task that an engine
fits; TASK_GATHER_DONE moves it to compute; TASK_COMMIT waits behind a lower sequence or commits; RESIDUE_MISMATCH requeues it as a retry, counts,
and quarantines the engine at the third. A commit's block becomes the instance's latest, all NaN after a kernel fault, and is counted; a run without
values publishes nothing.
Rules: R222, R124, R224, R129. -/
def Obligations.TaskCommandsAct : Prop :=
  (∀ s : State, s.dev.awake = true → s.dev.lapsRun = true →
  (∀ k t rest c e, k < 8 → (∀ j, k < j → j < 8 → s.dev.queue j = []) → s.dev.queue k = t :: rest → s.dev.choose t = some (c, e) →
    Effect .taskPlace s (fun d => ∃ (x : Device) (u : Task), d = x.reoffer ∧ x.srt.flight = s.dev.srt.flight ++ [u] ∧ u.e = t.e ∧ u.eng = e ∧ u.phase = .gather ∧
      u.gathered = t.gathered ∧ x.ctr SRT_TASKS_PLACED = (s.dev.ctr SRT_TASKS_PLACED + 1) % 2 ^ 32)) ∧
  (∀ i n q t bad ue, s.dev.task? i n q = some t → t.phase = .gather → s.dev.samplesSettled t = true → t.gathered.isSome = true → t.retry = false →
    Effect (.taskGatherDone i n q bad ue) s (fun d => d.srt.flight = s.dev.srt.flight.map (fun x => if sameKey x.e t.e then { t with phase := .compute } else x))) ∧
  (∀ i n q t, s.dev.task? i n q = some t → t.phase = .gather → s.dev.samplesSettled t = true → t.gathered = none → s.dev.mem.bad = [] →
    Effect (.taskGatherDone i n q [] false) s (fun d => ∃ (x : Device) (u : Task), d = x.gatherCheck u ∧ u.e = t.e ∧ u.eng = t.eng ∧ u.phase = .compute ∧
      u.gathered = some (((s.dev.taskWords t).map (·.1)).eraseDups.filterMap (fun l => (s.dev.lapRecs (ieHeat (s.dev.instE i)) n l).map
        (fun r => (l, keepWords (laneWords (s.dev.taskWords t) l) r)))) ∧
      x.srt.flight = s.dev.srt.flight.map (fun y => if sameKey y.e t.e then u else y))) ∧
  (∀ i n q t, s.dev.task? i n q = some t → t.phase = .compute → s.dev.mem.bad = [] → s.dev.lowerLive t.e = true → (∀ k, t.e.trig = some k → k.kind = .timer) →
    (∀ u ∈ s.dev.srt.flight, s.dev.unitUsable uENGINE u.eng = true) → s.dev.unitUsable uENGINE t.eng = true → Effect (.taskCommit i n q false) s (fun d =>
      d.srt.flight = s.dev.srt.flight.map (fun x => if sameKey x.e t.e then { t with phase := .commitWait } else x) ∧
      d.ctr SRT_COMMIT_HOLD = (s.dev.ctr SRT_COMMIT_HOLD + 1) % 2 ^ 32)) ∧
  (∀ i n q t, s.dev.task? i n q = some t → t.phase = .compute → s.dev.mem.bad = [] → s.dev.lowerLive t.e = false → s.dev.commitFits t = true →
    (∀ u ∈ (s.dev.commitNow t).srt.flight, u.phase ≠ .commitWait) → Effect (.taskCommit i n q false) s (fun d =>
      d = ((s.dev.commitNow t).gatherCheck t).moveFailed)) ∧
  (∀ i n q t unit inj, s.dev.task? i n q = some t → t.phase = .gather ∨ t.phase = .compute → t.retry = false → t.eng < 96 → unit < 6 →
    (inj = true → s.dev.fb PAC_RES_INJ.ARM = true ∧ s.dev.f PAC_RES_INJ.ENG = t.eng ∧ s.dev.f PAC_RES_INJ.UNIT = unit ∧ s.dev.fb PAC_RES_INJ.NOQ = false) →
    Effect (.residueMismatch i n q unit inj) s (fun d =>
      (∃ u ∈ d.queue t.prio, u.e = t.e ∧ u.retry = true ∧ u.failedEng = t.eng ∧ u.gathered = t.gathered) ∧
      (d.eng t.eng).mism = s.dev.recentMism t.eng ++ [s.dev.tk.now] ∧ (2 ≤ (s.dev.recentMism t.eng).length → (d.eng t.eng).quar = true) ∧
      (unit ≠ 3 → d.ctr PAC_RES_MISMATCH = (s.dev.ctr PAC_RES_MISMATCH + 1) % 2 ^ 32) ∧
      (unit = 3 → d.ctr PAC_SHIFT_PARITY = (s.dev.ctr PAC_SHIFT_PARITY + 1) % 2 ^ 32) ∧
      (inj = true → d.fb PAC_RES_INJ.ARM = false ∧ d.ctr PAC_INJ_HITS = (s.dev.ctr PAC_INJ_HITS + 1) % 2 ^ 32)))) ∧
(∀ (d : Device) (t : Task) (r : Ran),
  (∀ vs, r.vals = some vs → mget (d.commitBlock t r).pac.latest t.e.inst = some (d.blockOf t r vs) ∧
    (d.commitBlock t r).ctr PAC_TASKS_DONE = (d.ctr PAC_TASKS_DONE + 1) % 2 ^ 32 ∧
    (t.fault = true → (d.blockOf t r vs).vals = List.replicate (ieNout (d.instE t.e.inst)) fNaN ∧ (d.blockOf t r vs).nexcl = 0) ∧
    (t.fault = false → (d.blockOf t r vs).vals = vs)) ∧
  (r.vals = none → d.commitBlock t r = d))

/-- Engines are suspected, tested and cleared; the Starter's timers, held producers, reserve and units.
Where a gate is named (the device alive: powered and out of RESET; awake: also out of HOLD), it is a hypothesis. Every clause concludes that exec
answers a next state whose device, before what follows every command, has the listed content. ENGINE_SUSPECT_EXPIRY clears suspicion; PAC_ENG_CLR_GO
starts the test of a quarantined engine, whose firmware task enters the store or is held by the Stride cores, else ERR; SELF_TEST_DONE clears or keeps
the quarantine; RES_INJ_ARM stores the injection.
INSTANCE_TIMER_EXPIRY makes its tasks where the store has room, else it is held; HELD_PRODUCER_RESUME continues a timer or a commit;
SRT_CFG_RSV_WRITE that would break an enabled heat only sets CFG_ERR, another stores RSV; SRT_UNIT_ADMIN_WRITE stores a unit's state, of no unit it
sets CFG_ERR.
Rules: R132, R133, R151, R217, R227, R214, R229. -/
def Obligations.EngineAndStarterCommandsAct : Prop :=
  (∀ s : State, s.dev.alive = true →
  (∀ e, s.dev.awake = true → e < 96 → (s.dev.eng e).suspect = true → (s.dev.eng e).quar = false → s.dev.recentMism e = [] → Effect (.engineSuspectExpiry e) s (fun d =>
    (d.eng e).suspect = false ∧ (d.eng e).mism = [] ∧ bit (d.rg PAC_SUSPECT (e / 32)) (e % 32) = false ∧ ∀ j, j ≠ e → d.eng j = s.dev.eng j)) ∧
  (∀ v, bit v 31 = true → bx v 7 0 < 96 → (s.dev.eng (bx v 7 0)).quar = true → s.dev.fb PAC_CLR_STAT.BUSY = false → Effect (.pacEngClrGo v) s (fun d =>
    d.pac.testing = some (bx v 7 0) ∧ d.fb PAC_CLR_STAT.BUSY = true ∧ (∀ j, d.eng j = s.dev.eng j) ∧
    (s.dev.storeFree = 0 → HeldProd.stride (4096 + bx v 7 0) ∈ d.srt.held ∧ d.ctr SRT_STRIDE_HELD = (s.dev.ctr SRT_STRIDE_HELD + 1) % 2 ^ 32) ∧
    (s.dev.storeFree ≠ 0 → ∃ e, d.entry? (4096 + bx v 7 0) 0 0 = some e ∧ e.data = [.firmware]))) ∧
  (∀ v, bit v 31 = true → 96 ≤ bx v 7 0 ∨ (s.dev.eng (bx v 7 0)).quar = false ∨ s.dev.fb PAC_CLR_STAT.BUSY = true → Effect (.pacEngClrGo v) s (fun d =>
    d.pac = s.dev.pac ∧ d.f PAC_CLR_STAT.ERR = 1)) ∧
  (∀ e, s.dev.awake = true → s.dev.pac.testing = some e → e < 96 → Effect (.selfTestDone true) s (fun d => ∃ x : Device, d = x.reoffer ∧ x.pac.testing = none ∧
    (x.eng e).quar = false ∧ (x.eng e).suspect = false ∧ (x.eng e).mism = [] ∧ x.fb PAC_CLR_STAT.BUSY = false ∧ x.fb PAC_CLR_STAT.PASS = true)) ∧
  (∀ e, s.dev.awake = true → s.dev.pac.testing = some e → Effect (.selfTestDone false) s (fun d => ∃ x : Device, d = x.reoffer ∧
    x.pac = { s.dev.pac with testing := none } ∧ x.fb PAC_CLR_STAT.BUSY = false ∧ x.fb PAC_CLR_STAT.PASS = false)) ∧
  (∀ v, Effect (.resInjArm v) s (fun d => d.fb PAC_RES_INJ.ARM = (bit v 31 || s.dev.fb PAC_RES_INJ.ARM) ∧ d.f PAC_RES_INJ.UNIT = bx v PAC_RES_INJ.UNIT.hi PAC_RES_INJ.UNIT.lo ∧
    d.f PAC_RES_INJ.ENG = bx v PAC_RES_INJ.ENG.hi PAC_RES_INJ.ENG.lo ∧ d.pac = s.dev.pac))) ∧
(∀ s : State, s.dev.alive = true →
  (∀ h n off t, s.dev.awake = true → s.dev.lapsRun = true → s.dev.dueIs h n (.inst off) = some t → s.dev.timerNeed t off ≤ s.dev.storeFree →
    Effect (.instanceTimerExpiry h n off) s (fun d => (∀ x ∈ d.srt.timers, x.order ≠ t.order) ∧ d.srt.spent = s.dev.srt.spent + 1 ∧
      (∀ i ∈ s.dev.timerInsts t.heat off, ∃ e, d.entry? i t.lap 0 = some e ∧ e.trig.isSome = true))) ∧
  (∀ h n off t, s.dev.awake = true → s.dev.lapsRun = true → s.dev.dueIs h n (.inst off) = some t → s.dev.storeFree < s.dev.timerNeed t off →
    Effect (.instanceTimerExpiry h n off) s (fun d => d.srt.store = s.dev.srt.store ∧ (∀ x ∈ d.srt.timers, x.order = t.order → x.held = true) ∧
      d.ctr SRT_TIMER_HELD = (s.dev.ctr SRT_TIMER_HELD + 1) % 2 ^ 32)) ∧
  (∀ k t off, s.dev.awake = true → s.dev.lapsRun = true → s.dev.srt.held = [] → (s.dev.srt.timers.filter (·.held))[k]? = some t → t.kind = .inst off →
    s.dev.timerNeed t off ≤ s.dev.storeFree → Effect (.heldProducerResume k) s (fun d => (∀ x ∈ d.srt.timers, x.order ≠ t.order) ∧
      ∀ i ∈ s.dev.timerInsts t.heat off, ∃ e, d.entry? i t.lap 0 = some e ∧ e.trig.isSome = true)) ∧
  (∀ k i n q t, s.dev.awake = true → s.dev.lapsRun = true → s.dev.srt.held[k]? = some (.commit i n q) → s.dev.task? i n q = some t → t.phase = .commitHeld →
    s.dev.commitFits t = true → Effect (.heldProducerResume k) s (fun d => d = (s.dev.finishTask t).moveFailed)) ∧
  (∀ v, s.dev.rsvBad (bx v 11 0) = true → Effect (.srtCfgRsvWrite v) s (fun d => d.f SRT_STAT.CFG_ERR = 1 ∧ d.f SRT_CFG.RSV = s.dev.f SRT_CFG.RSV ∧
    d.srt = s.dev.srt)) ∧
  (∀ v, s.dev.rsvBad (bx v 11 0) = false → Effect (.srtCfgRsvWrite v) s (fun d => ∃ x : Device, d = x.reoffer ∧ x.f SRT_CFG.RSV = bx v 11 0 ∧ x.srt = s.dev.srt ∧ x.pfa = s.dev.pfa)) ∧
  (∀ v t i, t = s.dev.f SRT_UNIT_SEL.TYPE → i = s.dev.f SRT_UNIT_SEL.INDEX → i < unitCount t → Effect (.srtUnitAdminWrite v) s (fun d =>
    d.unitAdmin t i = bit v 31 ∧ ∀ u j, u * 4096 + j ≠ t * 4096 + i → d.unitAdmin u j = s.dev.unitAdmin u j)) ∧
  (∀ v, unitCount (s.dev.f SRT_UNIT_SEL.TYPE) ≤ s.dev.f SRT_UNIT_SEL.INDEX → Effect (.srtUnitAdminWrite v) s (fun d => d.srt = s.dev.srt ∧
    d.f SRT_STAT.CFG_ERR = 1)))

/-- Laps open, wait, are skipped, meet deadlines and finish lines and fence; window commands act or are refused.
Where a gate is named (the device alive: powered and out of RESET; awake: also out of HOLD), it is a hypothesis. Every clause concludes that exec
answers a next state whose device, before what follows every command, has the listed content. LAP_OPEN opens a lap in its ring position or leaves it
WAITING; LAP_SKIP skips it; DEADLINE_EXPIRY offers its release, granted or pended; FINISH_LINE_EXPIRY closes or marks it; RELEASE_PORT_GRANT grants
the front of the queue; FENCE_CLEAR releases it with its tasks' triggers. WIN_CMD_* stores a legal window of an enabled heat, else ECODE 5 or 1;
WIN_CMD_COMPLETE ends it.
Rules: R86, R88, R90, R104, R96, R95, R111, R110, R119. -/
def Obligations.AlignerCommandsAct : Prop :=
  (∀ (s : State) (h n : Nat), s.dev.awake = true →
  (∀ r, s.dev.lapsRun = true → s.dev.mem.bad = [] → s.dev.spans h = false → s.dev.run? h = some r → r.enabled = true → r.firstLap ≠ 0 → n = r.nextLap → s.dev.lap? h n = none →
    s.dev.openT h n ≤ s.dev.now → s.dev.posFree h n = true → (∀ x ∈ s.dev.pfa.stage, stagedOf h n true x = false) → Effect (.lapOpen h n) s (fun d =>
      ∃ l r', d.lap? h n = some l ∧ l.st = .gathering ∧ l.here = [] ∧ l.finish = s.dev.finishT h n ∧ d.run? h = some r' ∧ r'.nextLap = n + 1 ∧
        d.ctr PFA_LAPS_OPENED = (s.dev.ctr PFA_LAPS_OPENED + 1) % 2 ^ 32)) ∧
  (∀ r, s.dev.lapsRun = true → s.dev.mem.bad = [] → s.dev.spans h = false → s.dev.run? h = some r → r.enabled = true → r.firstLap ≠ 0 → n = r.nextLap → s.dev.lap? h n = none →
    s.dev.openT h n ≤ s.dev.now → s.dev.posFree h n = false → Effect (.lapOpen h n) s (fun d => ∃ l, d.lap? h n = some l ∧ l.st = .waiting ∧
      d.ctr PFA_LAPS_OPENED = s.dev.ctr PFA_LAPS_OPENED)) ∧
  (∀ l r, s.dev.racing = true → s.dev.run? h = some r → s.dev.lap? h n = some l → l.heat = h → l.lap = n → l.st = .waiting → s.dev.lapT h n ≤ s.dev.tk.now → Effect (.lapSkip h n) s (fun d =>
    d.lap? h n = none ∧ (∃ r', d.run? h = some r' ∧ r'.skipped = r.skipped ++ [n] ∧ r'.nextLap = max r.nextLap (n + 1)) ∧
    d.ctr PFA_LAPS_SKIPPED = (s.dev.ctr PFA_LAPS_SKIPPED + 1) % 2 ^ 32)) ∧
  (∀ t l, s.dev.racing = true → s.dev.dueIs h n .deadline = some t → t.list < 8 → s.dev.heatOn h = true → s.dev.lap? h n = some l → l.heat = h → l.lap = n → l.st = .gathering → s.dev.pfa.pendq = [] → s.dev.pfa.heldq = [] →
    s.dev.grantable (s.dev.tokNeed h .release) = true → Effect (.deadlineExpiry h n) s (fun d => (∃ l' tok, d.lap? h n = some l' ∧ l'.st = .fencing ∧
      l'.cause = 2 ∧ l'.relT = some s.dev.tk.now ∧ l'.fencing = some (tok, min s.dev.tk.now l.finish) ∧ tok.kind = .release ∧ tok.cause = 2) ∧
      (∀ x ∈ d.srt.timers, x.order ≠ t.order) ∧ d.ctr PFA_REL_DEADLINE = (s.dev.ctr PFA_REL_DEADLINE + 1) % 2 ^ 32)) ∧
  (∀ t l, s.dev.racing = true → s.dev.dueIs h n .deadline = some t → t.list < 8 → s.dev.heatOn h = true → s.dev.lap? h n = some l → l.heat = h → l.lap = n → l.st = .gathering → s.dev.pfa.pendq = [] → s.dev.pfa.heldq = [] →
    s.dev.grantable (s.dev.tokNeed h .release) = false → Effect (.deadlineExpiry h n) s (fun d => (∃ l', d.lap? h n = some l' ∧ l'.st = .due ∧ l'.cause = 2 ∧
      l'.waited = true) ∧ d.pfa.pendq = [(h, n, .release)] ∧ d.srt.refused = true)) ∧
  (∀ t l, s.dev.lapsRun = true → s.dev.dueIs h n .finish = some t → s.dev.lap? h n = some l → l.heat = h → l.lap = n → l.st = .gathering → Effect (.finishLineExpiry h n) s (fun d =>
    (∃ l', d.lap? h n = some l' ∧ l'.st = .gathering ∧ l'.past = true) ∧ ∀ x ∈ d.srt.timers, x.order ≠ t.order)) ∧
  (∀ t l, s.dev.lapsRun = true → s.dev.dueIs h n .finish = some t → s.dev.lap? h n = some l → l.heat = h → l.lap = n → l.st = .released → l.final = true → l.fencing = none →
    l.offered = none → Effect (.finishLineExpiry h n) s (fun d => d.lap? h n = none ∧ ∀ x ∈ d.srt.timers, x.order ≠ t.order)) ∧
  (∀ l, s.dev.racing = true → s.dev.pfa.heldq = [] → s.dev.pfa.pendq = [(h, n, .release)] → s.dev.grantable (s.dev.tokNeed h .release) = true → s.dev.lap? h n = some l →
    l.heat = h → l.lap = n → l.cause ≠ 0 → Effect .releasePortGrant s (fun d => d.pfa.pendq = [] ∧ ∃ l' tok, d.lap? h n = some l' ∧ l'.st = .fencing ∧ l'.relT = some s.dev.tk.now ∧
      l'.need = s.dev.tokNeed h .release ∧ l'.fencing = some (tok, min s.dev.tk.now l.finish) ∧ tok.kind = .release ∧ tok.cause = l.cause)) ∧
  (∀ l tok fi, s.dev.racing = true → s.dev.mem.bad = [] → s.dev.lap? h n = some l → l.heat = h → l.lap = n → l.fencing = some (tok, fi) → tok.kind = .release → tok.heat = h → tok.lap = n →
    s.dev.marksPast h fi = true → Effect (.fenceClear h n) s (fun d => (∀ l', d.lap? h n = some l' → l'.st = .released) ∧
      ∀ i ∈ s.dev.releaseInsts h, ∃ e, d.entry? i n tok.seq = some e ∧ e.trig.isSome = true))) ∧
(∀ (s : State) (op v : Nat) (c : Instr), s.dev.alive = true →
  (op, c) ∈ [(1, Instr.winCmdFixed v), (2, .winCmdAdaptive), (3, .winCmdSetWmin v), (4, .winCmdSetWmax v)] →
  (s.dev.pfa.busy = false → s.dev.heatOn (s.dev.f PFA_HEAT_SEL.HEAT) = true →
    heWmin (winEntry (s.dev.heatE (s.dev.f PFA_HEAT_SEL.HEAT)) op (if op = 2 then 0 else v)) ≤ heWmax (winEntry (s.dev.heatE (s.dev.f PFA_HEAT_SEL.HEAT)) op (if op = 2 then 0 else v)) →
    heWmax (winEntry (s.dev.heatE (s.dev.f PFA_HEAT_SEL.HEAT)) op (if op = 2 then 0 else v)) < heFinish (winEntry (s.dev.heatE (s.dev.f PFA_HEAT_SEL.HEAT)) op (if op = 2 then 0 else v)) →
    heWfix (winEntry (s.dev.heatE (s.dev.f PFA_HEAT_SEL.HEAT)) op (if op = 2 then 0 else v)) < heFinish (winEntry (s.dev.heatE (s.dev.f PFA_HEAT_SEL.HEAT)) op (if op = 2 then 0 else v)) →
    Effect c s (fun d => d.heatE (s.dev.f PFA_HEAT_SEL.HEAT) = winEntry (s.dev.heatE (s.dev.f PFA_HEAT_SEL.HEAT)) op (if op = 2 then 0 else v) ∧
      d.pfa.busy = true ∧ d.fb PFA_WIN_STAT.BUSY = true ∧ (s.dev.racing = false → d.pfa = { s.dev.pfa with busy := true }))) ∧
  (s.dev.pfa.busy = true → Effect c s (fun d => d.pfa = s.dev.pfa ∧ d.tables = s.dev.tables ∧ d.f PFA_WIN_STAT.ERR = 1 ∧ d.f PFA_WIN_STAT.ECODE = 5)) ∧
  (s.dev.pfa.busy = false → s.dev.heatOn (s.dev.f PFA_HEAT_SEL.HEAT) = false → Effect c s (fun d => d.pfa = s.dev.pfa ∧ d.tables = s.dev.tables ∧
    d.f PFA_WIN_STAT.ERR = 1 ∧ d.f PFA_WIN_STAT.ECODE = 1)) ∧
  Effect .winCmdComplete s (fun d => d.pfa = { s.dev.pfa with busy := false } ∧ d.fb PFA_WIN_STAT.BUSY = false ∧ d.tables = s.dev.tables))

/-- An Ethernet port receives by Tables 2.1 and 2.2, ETH_CFG takes effect or is ignored, and the link changes.
Where a gate is named (the device alive: powered and out of RESET; awake: also out of HOLD), it is a hypothesis. Every clause concludes that exec
answers a next state whose device, before what follows every command, has the listed content. ETH_FRAME_RECEIVED drops and counts code errors, runts,
oversize and bad FCS, and stores a good frame that passes its filters, without its FCS, in the port's FIFO. ETH_CFG_WRITE of a legal value stores it
and drops the link where MODE or FEC change; an illegal one only sets CFG_ERR. ETH_LINK_CHANGE shows the link by the port's mode.
Rules: R44, R39, R37. -/
def Obligations.PortCommandsAct : Prop :=
  ∀ (s : State) (p : Nat), s.dev.alive = true → p < 8 →
  (∀ b code, s.dev.awake = true → s.dev.listens = true → s.dev.fb ETH_STATUS.LINK p = true → b ≠ [] →
    (code = true → Effect (.ethFrameReceived p b code) s (fun d => d.ing = s.dev.ing ∧ d.ctr RX_CODE_ERR p = (s.dev.ctr RX_CODE_ERR p + 1) % 2 ^ 32)) ∧
    (code = false → b.length < 64 → Effect (.ethFrameReceived p b code) s (fun d => d.ing = s.dev.ing ∧ d.ctr RX_RUNT p = (s.dev.ctr RX_RUNT p + 1) % 2 ^ 32)) ∧
    (code = false → 64 ≤ b.length → s.dev.f ETH_CFG.MAXLEN p < b.length → Effect (.ethFrameReceived p b code) s (fun d => d.ing = s.dev.ing ∧
      d.ctr RX_OVERSIZE p = (s.dev.ctr RX_OVERSIZE p + 1) % 2 ^ 32)) ∧
    (code = false → 64 ≤ b.length → b.length ≤ s.dev.f ETH_CFG.MAXLEN p → fcsGood b = false → Effect (.ethFrameReceived p b code) s (fun d =>
      d.ing = s.dev.ing ∧ d.ctr RX_FCS_ERR p = (s.dev.ctr RX_FCS_ERR p + 1) % 2 ^ 32)) ∧
    (code = false → 64 ≤ b.length → b.length ≤ s.dev.f ETH_CFG.MAXLEN p → fcsGood b = true → isPause b = false →
      s.dev.vlanPass p (ethParse (b.take (b.length - 4))) = true → s.dev.addrPass p (ethParse (b.take (b.length - 4))).dst = true → s.dev.prpRuns p = false →
      (s.dev.prx p).lastIn = none → fifoBytes (s.dev.prx p) + (b.take (b.length - 4)).length + 16 ≤ fifoCap → Effect (.ethFrameReceived p b code) s (fun d =>
        (d.prx p).fifo = (s.dev.prx p).fifo ++ [⟨b.take (b.length - 4), s.dev.tk.now, b.length⟩] ∧ (d.prx p).octets = ((s.dev.prx p).octets + b.length) % 2 ^ 48 ∧
        d.ctr RX_FRAMES_OK p = (s.dev.ctr RX_FRAMES_OK p + 1) % 2 ^ 32 ∧ ∀ q, q ≠ p → d.prx q = s.dev.prx q))) ∧
  (∀ v, ethCfgOk v = true → Effect (.ethCfgWrite p v) s (fun d => d.rg ETH_CFG p = v &&& 0x3FFF1F07#32 ∧
    (bx v 2 0 = s.dev.f ETH_CFG.MODE p → bx v 9 8 = s.dev.f ETH_CFG.FEC p → d.fb ETH_STATUS.LINK p = s.dev.fb ETH_STATUS.LINK p) ∧
    (bx v 2 0 ≠ s.dev.f ETH_CFG.MODE p ∨ bx v 9 8 ≠ s.dev.f ETH_CFG.FEC p → d.fb ETH_STATUS.LINK p = false ∧ d.fb ETH_STATUS.AN_DONE p = false))) ∧
  (∀ v, ethCfgOk v = false → Effect (.ethCfgWrite p v) s (fun d => d.f ETH_STATUS.CFG_ERR p = 1 ∧ d.rg ETH_CFG p = s.dev.rg ETH_CFG p)) ∧
  (∀ up an bl fl slow, Effect (.ethLinkChange p up an bl fl slow) s (fun d =>
    d.fb ETH_STATUS.LINK p = (up && decide (s.dev.f ETH_CFG.MODE p ≠ 0) && !(decide (s.dev.f ETH_CFG.MODE p = 2) && slow)) ∧
    d.fb ETH_STATUS.BLOCK_LOCK p = (decide (s.dev.f ETH_CFG.MODE p ≠ 0) && bl)))

/-- The parser's turn, TCP segments of PMU streams, connections and reconnection, and R-GOOSE lane writes.
Where a gate is named (the device alive: powered and out of RESET; awake: also out of HOLD), it is a hypothesis. Every clause concludes that exec
answers a next state whose device, before what follows every command, has the listed content. PARSER_TURN takes the next port's oldest frame, counts
it and handles it by its class. TCP_SEGMENT_RECEIVED on the port that carries its connection: with RST it closes for a second; in order it gives its
bytes and is acknowledged, with its time stamp echoed, on the connection's lowest port with link; seen again it is only acknowledged.
TCP_CONNECTION_OPEN opens; TCP_RECONNECT_EXPIRY opens or doubles the delay to 32 s. RGOOSE_LANE_WRITE writes a lane's held values at its lap, or
counts one that has arrived.
Rules: R55, R71, R69, R76. -/
def Obligations.StreamCommandsAct : Prop :=
  ∀ s : State, s.dev.awake = true →
  (∀ p f, s.dev.listens = true → s.dev.nextFrame = some (p, f) → s.dev.mem.bad = [] → Effect (.parserTurn false) s (fun d => ∃ x : Device, d = x.parse p f ∧
    (x.prx p).fifo = (s.dev.prx p).fifo.drop 1 ∧ x.ing.rr = (p + 1) % 8 ∧ x.ctr ING_FRAMES_IN = (s.dev.ctr ING_FRAMES_IN + 1) % 2 ^ 32 ∧
    x.tables = s.dev.tables ∧ x.pfa = s.dev.pfa ∧ (∀ c, s.dev.classify p f.bytes = .drop c → d = x.count c) ∧
    (∀ t m, s.dev.classify p f.bytes = .ptp t m → d.ing.ptpq = s.dev.ing.ptpq ++ [⟨p, t, m⟩]) ∧
    (∀ k, s.dev.classify p f.bytes = .tcp k → d.ing.tcpq = s.dev.ing.tcpq ++ [(p, f)]))) ∧
  (∀ p f rest k c, s.dev.ing.tcpq = (p, f) :: rest → s.dev.classify p f.bytes = .tcp k →
    fold16 (pseudoSum k.src k.dst 6 k.body.length + octSum k.body) = 65535 → s.dev.connFor p k = some c →
    ((beNat (slice k.body 13 1)).testBit 2 = true → Effect .tcpSegmentReceived s (fun d => d.ing.tcpq = rest ∧
      d.tcpConn c = { tcpInit with retryAt := some (s.dev.now + Time.secU) })) ∧
    (∀ b x y tail q, s.dev.tcpPortOf c = some q → x = segEcho (s.dev.tcpConn c) k.body → (beNat (slice k.body 13 1)).testBit 2 = false → (beNat (slice k.body 13 1)).testBit 0 = false →
      b = k.body.drop (beNat (slice k.body 12 1) / 16 * 4) → b ≠ [] → segSeen x (beNat (slice k.body 4 4)) b.length = false →
      y = tcpTake x (beNat (slice k.body 4 4)) b → c37Cut (y.partialFrame.length / 4 + 2) y.partialFrame = ([], tail) →
      Effect .tcpSegmentReceived s (fun d => d.ing.tcpq = rest ∧ d.tcpConn c = { y with partialFrame := tail } ∧ .tcpAck c q y.next y.tsRecent ∈ d.out)) ∧
    (∀ b x q, s.dev.tcpPortOf c = some q → x = segEcho (s.dev.tcpConn c) k.body → (beNat (slice k.body 13 1)).testBit 2 = false → (beNat (slice k.body 13 1)).testBit 0 = false →
      b = k.body.drop (beNat (slice k.body 12 1) / 16 * 4) → b ≠ [] → segSeen x (beNat (slice k.body 4 4)) b.length = true →
      Effect .tcpSegmentReceived s (fun d => d.ing.tcpq = rest ∧ d.tcpConn c = x ∧ .tcpAck c q x.next x.tsRecent ∈ d.out ∧
        d.ctr ING_REPEAT = (s.dev.ctr ING_REPEAT + 1) % 2 ^ 32))) ∧
  (∀ c next, s.dev.tcpMay c = true → (s.dev.tcpConn c).retryAt = none → Effect (.tcpConnectionOpen c next) s (fun d => (d.tcpConn c).isOpen = true ∧
    (d.tcpConn c).next = next % 4294967296 ∧ (d.tcpConn c).ooo = [] ∧ (d.tcpConn c).partialFrame = [])) ∧
  (∀ c next t, (s.dev.tcpConn c).retryAt = some t → t ≤ s.dev.tk.now → s.dev.tcpMay c = true → Effect (.tcpReconnectExpiry c true next) s (fun d =>
    (d.tcpConn c).isOpen = true ∧ (d.tcpConn c).next = next % 4294967296 ∧ (d.tcpConn c).retryAt = none)) ∧
  (∀ c next t, (s.dev.tcpConn c).retryAt = some t → t ≤ s.dev.tk.now → s.dev.racing = true → tcEn (s.dev.ent tTcp c) = true →
    Effect (.tcpReconnectExpiry c false next) s (fun d => d.tcpConn c = { s.dev.tcpConn c with
      delay := min 32 (2 * (s.dev.tcpConn c).delay), retryAt := some (s.dev.tk.now + min 32 (2 * (s.dev.tcpConn c).delay) * Time.secU) })) ∧
  (∀ lane n st e, s.dev.racing = true → s.dev.gooseDue lane n = true → s.dev.laneStream lane = some (st, e) →
    (∀ p, p < 8 → stPort e p = true → s.dev.lapT (leHeat (s.dev.laneE lane)) n ≤ s.dev.mark p) → s.dev.laneArrived (leHeat (s.dev.laneE lane)) n lane = true →
    Effect (.rgooseLaneWrite lane n) s (fun d => mget d.ing.gooseLap lane = some n ∧ d.pfa = s.dev.pfa ∧ d.ctr ING_DUP_LAP = (s.dev.ctr ING_DUP_LAP + 1) % 2 ^ 32)) ∧
  (∀ lane n st e, s.dev.racing = true → s.dev.gooseDue lane n = true → s.dev.laneStream lane = some (st, e) →
    (∀ p, p < 8 → stPort e p = true → s.dev.lapT (leHeat (s.dev.laneE lane)) n ≤ s.dev.mark p) → s.dev.laneArrived (leHeat (s.dev.laneE lane)) n lane = false →
    s.dev.spans (leHeat (s.dev.laneE lane)) = false → Effect (.rgooseLaneWrite lane n) s (fun d => ∃ (x : Device) (m : Option RGoose),
      m = (s.dev.strm st).goose.find? (fun g => decide (g.pos = lane - stFirst e ∧ g.arr < s.dev.lapT (leHeat (s.dev.laneE lane)) n) && (g.auth || decide (leAuth (s.dev.laneE lane) = 1))) ∧
      d = (x.pfaArrive lane n (s.dev.lapT (leHeat (s.dev.laneE lane)) n) (s.dev.gooseLane lane n m) none).2 ∧ mget x.ing.gooseLap lane = some n ∧ x.pfa = s.dev.pfa ∧
      x.ctr ING_LANES_WRITTEN = (s.dev.ctr ING_LANES_WRITTEN + 1) % 2 ^ 32))

/-- Rharix frames: checks, acknowledgements, CADENCE, the receive window, duplicates, and unknown links.
Where a gate is named (the device alive: powered and out of RESET; awake: also out of HOLD), it is a hypothesis. Every clause concludes that exec
answers a next state whose device, before what follows every command, has the listed content. On a locked port with an enabled link: a frame that
fails a check of Table 12.4 only counts in that check's counter; an ACK releases what it acknowledges; a CADENCE of the link's peer is noted with its
epoch; a sequenced frame ahead of sequence is held and owed an acknowledgement; one behind, or beyond the window, is counted and dropped. A datagram
of no link only counts.
Rules: R348, R349, R350, R351. -/
def Obligations.FramesOfFederationAct : Prop :=
  ∀ (s : State) (lane : Nat) (b : List Byte), s.dev.awake = true → s.dev.listens = true →
  (∀ c, lane < 4 → s.dev.fb RXL_PORT.LOCK lane = true → lkEn (s.dev.linkE lane) = true → s.dev.rxlCheck lane (b.take 8232) = some c →
    Effect (.rxlFrameReceived lane b) s (fun d => d.rxl = s.dev.rxl ∧ d.ctr c = (s.dev.ctr c + 1) % 2 ^ 32)) ∧
  (lane < 4 → s.dev.fb RXL_PORT.LOCK lane = true → lkEn (s.dev.linkE lane) = true → s.dev.rxlCheck lane (b.take 8232) = none →
    (rxlHdrOf (b.take 8232)).typ = 0 → Effect (.rxlFrameReceived lane b) s (fun d => d.ctr RXL_RX_FRAMES = (s.dev.ctr RXL_RX_FRAMES + 1) % 2 ^ 32 ∧
      d.link lane = { s.dev.link lane with c0 := ackCls (s.dev.link lane).c0 (rxlHdrOf (b.take 8232)).ack0, c1 := ackCls (s.dev.link lane).c1 (rxlHdrOf (b.take 8232)).ack1 })) ∧
  (lane < 4 → s.dev.fb RXL_PORT.LOCK lane = true → lkEn (s.dev.linkE lane) = true → s.dev.rxlCheck lane (b.take 8232) = none →
    (rxlHdrOf (b.take 8232)).typ = 1 → (rxlHdrOf (b.take 8232)).dst = s.dev.self → (rxlHdrOf (b.take 8232)).src = lkPeer (s.dev.linkE lane) →
    8 ≤ (rxlHdrOf (b.take 8232)).hops → Effect (.rxlFrameReceived lane b) s (fun d => d.ctr RXL_RX_FRAMES = (s.dev.ctr RXL_RX_FRAMES + 1) % 2 ^ 32 ∧
      (d.link lane).cadAt = some s.dev.now ∧ (d.link lane).rxEpoch = (rxlHdrOf (b.take 8232)).epoch ∧ d.fb RXL_PORT.PEER_OK lane = true ∧
      (d.peer (rxlHdrOf (b.take 8232)).src).cadAt = some s.dev.now)) ∧
  (∀ ahead, lane < 4 → s.dev.fb RXL_PORT.LOCK lane = true → lkEn (s.dev.linkE lane) = true → s.dev.rxlCheck lane (b.take 8232) = none →
    2 ≤ (rxlHdrOf (b.take 8232)).typ → ahead = ((rxlHdrOf (b.take 8232)).seq + 65536 - (getCls (s.dev.link lane) (rxlHdrOf (b.take 8232)).cls).next) % 65536 →
    (0 < ahead → ahead < 256 →
      mget (getCls (s.dev.link lane) (rxlHdrOf (b.take 8232)).cls).win (getCls (s.dev.link lane) (rxlHdrOf (b.take 8232)).cls).next = none →
      Effect (.rxlFrameReceived lane b) s (fun d => d.ctr RXL_RX_FRAMES = (s.dev.ctr RXL_RX_FRAMES + 1) % 2 ^ 32 ∧
      (mget (getCls (d.link lane) (rxlHdrOf (b.take 8232)).cls).win (rxlHdrOf (b.take 8232)).seq).isSome = true ∧
      (getCls (d.link lane) (rxlHdrOf (b.take 8232)).cls).owed.isSome = true ∧
      (getCls (d.link lane) (rxlHdrOf (b.take 8232)).cls).next = (getCls (s.dev.link lane) (rxlHdrOf (b.take 8232)).cls).next)) ∧
    (32768 ≤ ahead → Effect (.rxlFrameReceived lane b) s (fun d => d.ctr RXL_RX_DUP = (s.dev.ctr RXL_RX_DUP + 1) % 2 ^ 32 ∧
      d.ctr RXL_RX_FRAMES = s.dev.ctr RXL_RX_FRAMES)) ∧
    (256 ≤ ahead → ahead < 32768 → Effect (.rxlFrameReceived lane b) s (fun d => d.ctr RXL_RX_OOW = (s.dev.ctr RXL_RX_OOW + 1) % 2 ^ 32 ∧
      d.ctr RXL_RX_FRAMES = s.dev.ctr RXL_RX_FRAMES))) ∧
  (∀ f r k, 4 ≤ lane → s.dev.ing.rxlq = f :: r → ipParse (ethParse f.2.bytes).etype (f.2.bytes.drop (ethParse f.2.bytes).body) = .ok k →
    s.dev.udpLink k.src (beNat (slice k.body 0 2)) = none → Effect (.rxlFrameReceived lane b) s (fun d => d.ing = { s.dev.ing with rxlq := r } ∧
      d.rxl = s.dev.rxl ∧ d.ctr RXL_RX_NOLINK = (s.dev.ctr RXL_RX_NOLINK + 1) % 2 ^ 32))

/-- Rharix links: acknowledgement, retransmission, CADENCE, timeouts, ports, and a combine that waits no longer.
Where a gate is named (the device alive: powered and out of RESET; awake: also out of HOLD), it is a hypothesis. Every clause concludes that exec
answers a next state whose device, before what follows every command, has the listed content. RXL_ACK_DELAY_EXPIRY sends what is owed;
RXL_RETRANSMIT_TIMEOUT sends the buffer again, or at its limit fails the link; CADENCE_SEND on a link and end to end; RXL_CADENCE_TIMEOUT and
PEER_LOSS_TIMEOUT lose the link and the peer. A UDP link with no ACTIVE port sends and counts nothing. RXL_PORT_ENABLE, RXL_TRAINING_DONE and RXL_LOCK_CHANGE change the port. PART_WAIT_EXPIRY combines what
has come, or is held where no store entry is free.
Rules: R350, R351, R353, R342, R363. -/
def Obligations.LinkCommandsAct : Prop :=
  (∀ (s : State) (l : Nat), s.dev.alive = true → l < 64 →
  (∀ t, s.dev.awake = true → (s.dev.link l).c0.owed = some t ∨ (s.dev.link l).c1.owed = some t → t + (if l < 4 then 2 * Time.usU else 500 * Time.usU) ≤ s.dev.now →
    s.dev.rxlMay l 0 = true → lkAuth (s.dev.linkE l) = false → l < 4 ∨ (s.dev.lowestPort (lkPorts (s.dev.linkE l))).isSome = true → Effect (.rxlAckDelayExpiry l) s (fun d => (d.link l).c0.owed = none ∧ (d.link l).c1.owed = none ∧
      d.ctr RXL_TX_FRAMES = (s.dev.ctr RXL_TX_FRAMES + 1) % 2 ^ 32)) ∧
  (∀ c f r, s.dev.awake = true → (getCls (s.dev.link l) c).buf = f :: r → f.last + s.dev.rto l ≤ s.dev.now → f.times < max 1 (s.dev.f RXL_TIMING.RETX_MAX) + 1 →
    Effect (.rxlRetransmitTimeout l c) s (fun d => d.ctr RXL_RETX = (s.dev.ctr RXL_RETX + (f :: r).length) % 2 ^ 32 ∧
      (getCls (d.link l) c).buf = (f :: r).map (fun g => { g with times := g.times + 1, last := s.dev.now }))) ∧
  (∀ c f r, s.dev.awake = true → (getCls (s.dev.link l) c).buf = f :: r → f.last + s.dev.rto l ≤ s.dev.now → max 1 (s.dev.f RXL_TIMING.RETX_MAX) + 1 ≤ f.times →
    Effect (.rxlRetransmitTimeout l c) s (fun d => (d.link l).failed = true ∧ (d.link l).usable = false ∧ (d.link l).up = false)) ∧
  (s.dev.awake = true → lkEn (s.dev.linkE l) = true → (s.dev.link l).cadTx + cadMs l * Time.msU ≤ s.dev.now → 4 ≤ l ∨ s.dev.fb RXL_PORT.LOCK l = true →
    Effect (.cadenceSend false l) s (fun d => (d.link l).cadTx = s.dev.now ∧ (s.dev.rxlMay l 1 = true → lkAuth (s.dev.linkE l) = false →
      d.ctr RXL_TX_FRAMES = (s.dev.ctr RXL_TX_FRAMES + b2n (decide (l < 4) || (s.dev.lowestPort (lkPorts (s.dev.linkE l))).isSome)) % 2 ^ 32))) ∧
  (∀ dev, s.dev.awake = true → s.dev.routeTo dev = some l → s.dev.spanPeers.contains dev = true → (s.dev.peer dev).cadTx + cadMs l * Time.msU ≤ s.dev.now →
    Effect (.cadenceSend true dev) s (fun d => (d.peer dev).cadTx = s.dev.now ∧ (s.dev.rxlMay l 1 = true → lkAuth (s.dev.linkE l) = false →
      d.ctr RXL_TX_FRAMES = (s.dev.ctr RXL_TX_FRAMES + b2n (decide (l < 4) || (s.dev.lowestPort (lkPorts (s.dev.linkE l))).isSome)) % 2 ^ 32))) ∧
  (∀ t, s.dev.awake = true → (s.dev.link l).cadAt = some t → t + 3 * cadMs l * Time.msU ≤ s.dev.now → Effect (.rxlCadenceTimeout l) s (fun d =>
    (d.link l).cadAt = none ∧ (d.link l).onTime = 0 ∧ (d.link l).usable = false ∧ (d.link l).up = false ∧ (l < 4 → d.fb RXL_PORT.PEER_OK l = false))) ∧
  (∀ dev t, s.dev.awake = true → (s.dev.peer dev).cadAt = some t → (s.dev.peer dev).lost = false → t + 3 * (s.dev.peer dev).interval * Time.msU ≤ s.dev.now →
    Effect (.peerLossTimeout dev) s (fun d => (d.peer dev).lost = true ∧ (d.peer dev).onTime = 0 ∧ d.ctr RXL_PEER_LOST = (s.dev.ctr RXL_PEER_LOST + 1) % 2 ^ 32))) ∧
(∀ (s : State) (l : Nat), s.dev.alive = true → l < 4 →
  (∀ v, bit v 31 ≠ s.dev.fb RXL_PORT.EN l → Effect (.rxlPortEnable l v) s (fun d => d.fb RXL_PORT.EN l = bit v 31 ∧ d.fb RXL_PORT.TRAINED l = false ∧
    d.fb RXL_PORT.FEC_LOCK l = false ∧ d.fb RXL_PORT.LOCK l = false ∧ d.fb RXL_PORT.PEER_OK l = false ∧ (bit v 31 = false → (d.link l).usable = false))) ∧
  (∀ v, bit v 31 = s.dev.fb RXL_PORT.EN l → Effect (.rxlPortEnable l v) s (fun d => d.fb RXL_PORT.EN l = bit v 31 ∧ d.fb RXL_PORT.LOCK l = s.dev.fb RXL_PORT.LOCK l ∧
    d.rxl = s.dev.rxl)) ∧
  (s.dev.fb RXL_PORT.EN l = true → Effect (.rxlTrainingDone l) s (fun d => d.fb RXL_PORT.TRAINED l = true ∧ d.rxl = s.dev.rxl)) ∧
  (s.dev.fb RXL_PORT.EN l = true → s.dev.fb RXL_PORT.LOCK l = false → Effect (.rxlLockChange l true) s (fun d => d.fb RXL_PORT.LOCK l = true ∧
    d.fb RXL_PORT.FEC_LOCK l = true ∧ d.rxl = s.dev.rxl)) ∧
  (s.dev.fb RXL_PORT.EN l = true → s.dev.fb RXL_PORT.LOCK l = true → Effect (.rxlLockChange l false) s (fun d => d.fb RXL_PORT.LOCK l = false ∧
    d.fb RXL_PORT.FEC_LOCK l = false ∧ d.fb RXL_PORT.TRAINED l = false ∧ (d.link l).usable = false ∧ (d.link l).up = false ∧ (d.link l).onTime = 0))) ∧
(∀ (s : State) (h n i : Nat) (r : HeatRun), s.dev.awake = true → s.dev.racing = true → s.dev.spans h = true →
  s.dev.heatOn h = true → s.dev.combHere h i n = true → s.dev.lapT h n + seWait (s.dev.spanE h) * Time.usU ≤ s.dev.now → s.dev.run? h = some r → r.firstLap ≤ n →
  r.skipped.contains n = false → s.dev.combInsts h = [i] → (s.dev.comb i n).seq = 0 →
  (s.dev.storeFree ≠ 0 → Effect (.partWaitExpiry h n) s (fun d => (d.comb i n).seq = 1 ∧ (d.comb i n).busy = true ∧ (d.comb i n).due = false ∧
    (d.comb i n).used = (s.dev.newestParts i n).map (fun p => (p.1, p.2.version)) ∧ d.ctr RXL_COMBINES = (s.dev.ctr RXL_COMBINES + 1) % 2 ^ 32 ∧
    d.ctr RXL_PART_MISSING = (s.dev.ctr RXL_PART_MISSING + (seNmem (s.dev.spanE h) - (s.dev.newestParts i n).length)) % 2 ^ 32)) ∧
  (s.dev.storeFree = 0 → s.dev.entry? i n 256 = none → s.dev.srt.held.contains (.combineIn i n) = false → Effect (.partWaitExpiry h n) s (fun d =>
    d.srt.held = s.dev.srt.held ++ [.combineIn i n] ∧ d.rxl = s.dev.rxl ∧ d.ctr SRT_PARTIAL_HELD = (s.dev.ctr SRT_PARTIAL_HELD + 1) % 2 ^ 32)))

/-- The relay pair: the baton toggles, is released, taken and watched; hand-over, resync and checkpoint load.
Where a gate is named (the device alive: powered and out of RESET; awake: also out of HOLD), it is a hypothesis. Every clause concludes that exec
answers a next state whose device, before what follows every command, has the listed content. BATON_TOGGLE moves the line; BATON_EDGE_SEEN is noted,
and a holder releases; BATON_SILENCE_TIMEOUT, 384,000 ticks (3.000 ms) after the last edge, takes over in step (stated for a follower with no heat,
lap or whole checkpoint that waits), the drivers 6,400 ticks (50 us) later, or reports that it may not;
BATON_WATCH_END follows or races; DRIVER_ENABLE_DELAY, HEARTBEAT_MISSING, HANDOVER_REQUEST, HANDOVER_RELEASE, RESYNC_REQUEST and CHECKPOINT_LOAD as
spec/13 gives them. The decoding of a checkpoint is open (log entry 48): the clause holds for whatever it gives.
Rules: R375, R377, R376, R378, R383, R374. -/
def Obligations.PairCommandsAct : Prop :=
  (∀ s : State, s.dev.alive = true →
  (s.dev.rly.toggling = true → Effect .batonToggle s (fun d => d.rly = { s.dev.rly with level := !s.dev.rly.level } ∧
    d.out = s.dev.out ++ [.pin 2 0 (!s.dev.rly.level)])) ∧
  (s.dev.rly.toggling = false → Effect .batonToggle s (fun d => d = s.dev)) ∧
  (s.dev.paired = true → s.dev.holder = false → Effect .batonEdgeSeen s (fun d => d = { s.dev with rly := { s.dev.rly with lastIn := some s.dev.tk.ticks, noTake := false } })) ∧
  (s.dev.paired = true → s.dev.holder = true → Effect .batonEdgeSeen s (fun d => d.rly.lastIn = some s.dev.tk.ticks ∧ d.rly.toggling = false ∧ d.rly.level = false ∧
    d.rly.driveAt = none ∧ d.fb RLY_STAT.HOLDER = false ∧ d.fb RLY_STAT.DRV_EN = false ∧ d.fb RLY_CTL.HANDOVER = false ∧
    d.ctr RLY_RELEASES = (s.dev.ctr RLY_RELEASES + 1) % 2 ^ 32 ∧ d.egr.conns = [] ∧ (s.dev.racing = true → d.pwr.mode = .follow ∧ d.fb RLY_STAT.IN_STEP = false))) ∧
  (s.dev.pwr.mode = .follow → s.dev.paired = true → s.dev.silent = true → s.dev.inStep = true ∨ s.dev.fb RLY_CFG.TAKE_UNSYNC = true → s.dev.pwr.waiting = none →
    s.dev.rly.ckpt.any (fun e => decide (e.typ = 0x22)) = false →
    s.dev.pfa.heats = [] → s.dev.pfa.laps = [] → Effect .batonSilenceTimeout s (fun d => d.pwr.mode = .race ∧ d.rly.toggling = true ∧ d.rly.level = true ∧
      d.rly.driveAt = some (s.dev.tk.ticks + 6400) ∧ d.fb RLY_STAT.HOLDER = true ∧ d.fb RLY_STAT.IN_STEP = false ∧
      d.ctr RLY_TAKEOVERS = (s.dev.ctr RLY_TAKEOVERS + 1) % 2 ^ 32)) ∧
  (s.dev.pwr.mode = .follow → s.dev.paired = true → s.dev.silent = true → s.dev.inStep = false → s.dev.fb RLY_CFG.TAKE_UNSYNC = false →
    Effect .batonSilenceTimeout s (fun d => d.pwr = s.dev.pwr ∧ d.rly = { s.dev.rly with noTake := true })) ∧
  (∀ t, s.dev.pwr.mode = .warmup → s.dev.pwr.watchAt = some t → t + 384000 ≤ s.dev.tk.ticks →
    ((∃ e, s.dev.rly.lastIn = some e ∧ t ≤ e) → Effect .batonWatchEnd s (fun d => d.pwr.mode = .follow ∧ d.fb RLY_STAT.IN_STEP = false ∧
      d.rly.toggling = s.dev.rly.toggling ∧ d.pwr.watchAt = some s.dev.tk.ticks)) ∧
    ((∀ e, s.dev.rly.lastIn = some e → e < t) → s.dev.pwr.waiting = none → s.dev.pfa.heats = [] → Effect .batonWatchEnd s (fun d => d.pwr.mode = .race ∧
      d.rly.toggling = true ∧ d.rly.level = true ∧ d.rly.driveAt = some (s.dev.tk.ticks + 6400) ∧ d.fb RLY_STAT.HOLDER = true ∧ d.pwr.watchAt = none)))) ∧
(∀ s : State, s.dev.alive = true →
  (∀ t, s.dev.awake = true → s.dev.holder = true → s.dev.rly.toggling = true → s.dev.rly.driveAt = some t → t ≤ s.dev.tk.ticks → Effect .driverEnableDelay s (fun d =>
    d.rly = { s.dev.rly with driveAt := none } ∧ d.fb RLY_STAT.DRV_EN = true ∧ d.fb ALM_AOUT.DRV_EN = true)) ∧
  (s.dev.rly.toggling = true → Effect .heartbeatMissing s (fun d => d = { s.dev with rly := { s.dev.rly with toggling := false, cause := 2 } })) ∧
  (s.dev.awake = true → s.dev.holder = true → s.dev.rly.toggling = false → Effect .driverEnableDelay s (fun d => d = s.dev)) ∧
  (s.dev.holder = true → s.dev.paired = true → s.dev.linkUp s.dev.lane = true → (s.dev.link s.dev.lane).mode = modeCode .follow → Effect .handoverRequest s (fun d =>
    d.rly = { s.dev.rly with handover := true } ∧ d.fb RLY_CTL.HANDOVER = true)) ∧
  (s.dev.holder = false ∨ s.dev.paired = false ∨ s.dev.linkUp s.dev.lane = false ∨ (s.dev.link s.dev.lane).mode ≠ modeCode .follow → Effect .handoverRequest s (fun d =>
    d.rly = s.dev.rly ∧ d.f RLY_STAT.ERR = 1 ∧ d.f RLY_STAT.ECODE = 2)) ∧
  (s.dev.rly.handover = true → s.dev.rly.toggling = true → (s.dev.link s.dev.lane).c0.buf = [] → s.dev.nextForward = none → Effect .handoverRelease s (fun d =>
    d.rly = { s.dev.rly with handover := false, toggling := false, cause := 1 } ∧ d.fb RLY_CTL.HANDOVER = false)) ∧
  (s.dev.pwr.mode = .follow → s.dev.linkUp s.dev.lane = false ∨ s.dev.linkRoom s.dev.lane 0 1 = false → Effect .resyncRequest s (fun d => d.fb RLY_CTL.RESYNC = true ∧
    d.rly = s.dev.rly)) ∧
  (s.dev.pwr.mode = .follow → s.dev.linkUp s.dev.lane = true → s.dev.linkRoom s.dev.lane 0 1 = true → Effect .resyncRequest s (fun d => d.fb RLY_CTL.RESYNC = false ∧
    d.ctr RLY_JNL_TX = (s.dev.ctr RLY_JNL_TX + 1) % 2 ^ 32)) ∧
  (s.dev.pwr.mode = .follow → s.dev.rly.ckpt.any (fun e => decide (e.typ = 0x22)) = true → ckptOk s.dev.rly.ckpt = false → Effect .checkpointLoad s (fun d =>
    d = { s.dev with rly := { s.dev.rly with ckpt := [], queue := [] } })) ∧
  (s.dev.pwr.mode = .follow → s.dev.rly.ckpt.any (fun e => decide (e.typ = 0x22)) = true → ckptOk s.dev.rly.ckpt = true → s.dev.inStep = false → s.dev.rly.queue = [] →
    Effect .checkpointLoad s (fun d => match Config.ckptDecode (ckptBytes s.dev.rly.ckpt) with
      | none => d.inStep = false ∧ d.rly.ckpt = []
      | some x => if digestOf x.tables x.isl.banks = s.dev.rly.ownDig then d.inStep = true
          else d.inStep = false ∧ d.ctr RLY_CFG_MISMATCH = (s.dev.ctr RLY_CFG_MISMATCH + 1) % 2 ^ 32)))

/-- Frames of ingress, local inputs, interchange energy and the Timekeeper: what each command may touch.
For each command named: where it goes on, either nothing happens or its own effect, before what follows every command, leaves alone everything but
the listed things and the units listed by their 64 KiB range of BAR0: the mode, main power, tables, keys, key groups, boot digests, device time,
DDR5, the journal, the value read back, every register, counter and state of every other unit. Events, their records, interrupt bits and outputs are
always allowed.
Rules: R5, R80, R83, R281, R315, R341. -/
def Obligations.FieldCommandsLeaveTheRest : Prop :=
  ((∀ port bytes codeError, Touches (.ethFrameReceived port bytes codeError) [] [0x04]) ∧
  (∀ uncorrectable, TouchesUnits (.parserTurn uncorrectable) [.dd, .jnl]) ∧
  (∀ port v, Touches (.ethCfgWrite port v) [] [0x04, 0x0A, 0x11, 0x15]) ∧
  (∀ port up anDone blockLock fecLock slow, Touches (.ethLinkChange port up anDone blockLock fecLock slow) [] [0x04, 0x0A, 0x11, 0x15]) ∧
  (Touches .tcpSegmentReceived [.dd, .jnl] [0x04, 0x06, 0x08, 0x0A, 0x0C, 0x10, 0x11, 0x14, 0x15, 0x17, 0x18, 0x1A]) ∧
  (∀ conn next, Touches (.tcpConnectionOpen conn next) [] [0x04]) ∧
  (∀ conn ok next, Touches (.tcpReconnectExpiry conn ok next) [] [0x04]) ∧
  (∀ lane lap, Touches (.rgooseLaneWrite lane lap) [.dd, .jnl] [0x04, 0x06, 0x08, 0x0A, 0x0C, 0x10, 0x11, 0x14, 0x15, 0x17, 0x18, 0x1A])) ∧
((∀ group v, Touches (.lmfGrpWrite group v) [] [0x12]) ∧
  (∀ ch, Touches (.channelFault ch) [] [0x12]) ∧
  (∀ ch, Touches (.channelFaultClear ch) [] [0x12]) ∧
  (∀ half bits, Touches (.captureStrobe half bits) [.dd] [0x12, 0x13, 0x17]) ∧
  (∀ half bits, Touches (.phasorStrobe half bits) [.dd, .jnl] [0x04, 0x12, 0x13, 0x17]) ∧
  (∀ ch v, Touches (.lmfChRunStart ch v) [] [0x12]) ∧
  (∀ ch v, Touches (.lmfChRunStop ch v) [] [0x12]) ∧
  (∀ ch v, Touches (.lmfSwitchRequest ch v) [] [0x12]) ∧
  (∀ nom60, Touches (.triggerEvalInstant nom60) [] [0x13]) ∧
  (∀ group, Touches (.acqArm group) [] [0x13]) ∧
  (∀ group, Touches (.acqDisarm group) [.dd] [0x13, 0x17]) ∧
  (∀ group, Touches (.acqForce group) [] [0x13]) ∧
  (∀ group, Touches (.captureRecordEnd group) [.dd] [0x13, 0x17]) ∧
  (∀ v, Touches (.acqSlotRelease v) [] [0x13])) ∧
((∀ input level, Touches (.plsiLevelChange input level) [] [0x14]) ∧
  (∀ input, Touches (.pulseAccept input) [.dd, .jnl] [0x14]) ∧
  (∀ point, Touches (.nrgSnapshotRequest point) [] [0x14]) ∧
  (Touches .nrgSnapshotComplete [] [0x14]) ∧
  (∀ v, Touches (.nrgSnapshotRelease v) [] [0x14, 0x17]) ∧
  (∀ point, Touches (.intervalClose point) [] [0x14, 0x17]) ∧
  (Touches .intervalRecordDrain [] [0x0A, 0x14, 0x17, 0x1A]) ∧
  (∀ k v, Touches (.pulseOutputEnable k v) [] [0x14]) ∧
  (∀ k v, Touches (.pulseOutputDisable k v) [] [0x14]) ∧
  (∀ k, Touches (.pulseOutputPhaseEnd k) [] [0x14])) ∧
((∀ stamp, Touches (.ptpMessageReceived stamp) [] [0x02, 0x04, 0x11]) ∧
  (∀ port, Touches (.ptpAnnounceTimeout port) [] [0x02, 0x04]) ∧
  (∀ port kind, Touches (.ptpTransmitTimer port kind) [] [0x02, 0x11]) ∧
  (∀ form symbols edge, Touches (.irigFrameReceived form symbols edge) [] [0x02]) ∧
  (Touches .irigFrameMissing [] [0x02]) ∧
  (∀ rising edge, Touches (.ppsInEdge rising edge) [] [0x02]) ∧
  (Touches .ppsWindowMissed [] [0x02]) ∧
  (∀ source, Touches (.sourceQualified source) [] [0x02]) ∧
  (Touches .syncLimitCrossing [] [0x02]) ∧
  (Touches .unlockIntervalExpiry [] [0x02]) ∧
  (∀ v, Touches (.tkIncFracWrite v) [] [0x02]) ∧
  (∀ v, Touches (.tkCmdStep v) [] [0x02]) ∧
  (Touches .leapApply [] [0x02]) ∧
  (Touches .ppsOutPulse [] [0x02]) ∧
  (∀ dated bytes, Touches (.mgtFrameReceived dated bytes) [] [0x02]) ∧
  (∀ port v, Touches (.ethTxtsPop port v) [] [0x02]) ∧
  (∀ port, Touches (.ethTxtsIdRead port) [.rd] [0x02]) ∧
  (Touches .tkNowNsRead [.rd] [0x02]) ∧
  (Touches .clkTkTick [.now, .dd, .jnl] [0x02, 0x0A, 0x11]))

/-- Frames of the Aligner, Pacer, Starter, monitor, islands, Scorebook, journal, Rerun and memory integrity.
For each command named: where it goes on, either nothing happens or its own effect, before what follows every command, leaves alone everything but
the listed things and the units listed by their 64 KiB range of BAR0, as in FieldCommandsLeaveTheRest.
Rules: R119, R151, R184, R209, R231. -/
def Obligations.LapCommandsLeaveTheRest : Prop :=
  ((∀ heat lap, Touches (.lapOpen heat lap) [.dd, .jnl] [0x08, 0x0A, 0x0C, 0x10, 0x11, 0x14, 0x15, 0x17, 0x18, 0x1A]) ∧
  (∀ heat lap, Touches (.lapSkip heat lap) [.dd, .jnl] [0x08, 0x0A, 0x0C, 0x10, 0x11, 0x14, 0x17, 0x18, 0x1A]) ∧
  (∀ heat lap, Touches (.deadlineExpiry heat lap) [.dd, .jnl] [0x08, 0x0A, 0x0C, 0x10, 0x11, 0x14, 0x17, 0x18, 0x1A]) ∧
  (∀ heat lap, Touches (.finishLineExpiry heat lap) [.dd, .jnl] [0x08, 0x0A, 0x0C, 0x10, 0x11, 0x15, 0x17, 0x18, 0x1A]) ∧
  (Touches .releasePortGrant [.dd, .jnl] [0x08, 0x0A, 0x0C, 0x10, 0x11, 0x14, 0x17, 0x18, 0x1A]) ∧
  (∀ heat lap, Touches (.fenceClear heat lap) [.dd, .jnl] [0x08, 0x0A, 0x0C, 0x10, 0x11, 0x14, 0x17, 0x18, 0x1A]) ∧
  (∀ v, Touches (.winCmdFixed v) [.tab, .dd, .jnl] [0x08, 0x0A, 0x0C, 0x10, 0x11, 0x14, 0x17, 0x18, 0x1A]) ∧
  (Touches .winCmdAdaptive [.tab, .dd, .jnl] [0x08, 0x0A, 0x0C, 0x10, 0x11, 0x14, 0x17, 0x18, 0x1A]) ∧
  (∀ v, Touches (.winCmdSetWmin v) [.tab, .dd, .jnl] [0x08, 0x0A, 0x0C, 0x10, 0x11, 0x14, 0x17, 0x18, 0x1A]) ∧
  (∀ v, Touches (.winCmdSetWmax v) [.tab, .dd, .jnl] [0x08, 0x0A, 0x0C, 0x10, 0x11, 0x14, 0x17, 0x18, 0x1A]) ∧
  (Touches .winCmdComplete [] [0x08])) ∧
((Touches .taskPlace [.dd, .jnl] [0x08, 0x0A, 0x0C, 0x10, 0x11, 0x14, 0x17, 0x18, 0x1A]) ∧
  (∀ inst lap seq bad uncorrectable, Touches (.taskGatherDone inst lap seq bad uncorrectable) [.dd, .jnl] [0x06, 0x08, 0x0A, 0x0C, 0x0E, 0x0F, 0x10, 0x11, 0x14, 0x15, 0x17, 0x18, 0x1A]) ∧
  (∀ inst lap seq uncorrectable, Touches (.taskCommit inst lap seq uncorrectable) [.dd, .jnl] [0x06, 0x08, 0x0A, 0x0C, 0x0E, 0x0F, 0x10, 0x11, 0x14, 0x15, 0x17, 0x18, 0x1A]) ∧
  (∀ inst lap seq unit injected, Touches (.residueMismatch inst lap seq unit injected) [.dd, .jnl] [0x06, 0x08, 0x0A, 0x0C, 0x0E, 0x0F, 0x10, 0x11, 0x14, 0x15, 0x17, 0x18, 0x1A]) ∧
  (∀ engine, Touches (.engineSuspectExpiry engine) [] [0x0A, 0x0C]) ∧
  (∀ v, Touches (.pacEngClrGo v) [] [0x0A, 0x0C]) ∧
  (∀ pass, Touches (.selfTestDone pass) [.dd, .jnl] [0x08, 0x0A, 0x0C, 0x10, 0x11, 0x14, 0x17, 0x18, 0x1A]) ∧
  (∀ v, Touches (.resInjArm v) [] [0x0C]) ∧
  (∀ heat lap offset, Touches (.instanceTimerExpiry heat lap offset) [] [0x08, 0x0A]) ∧
  (∀ k, Touches (.heldProducerResume k) [.tab, .dd, .jnl] [0x04, 0x06, 0x08, 0x0A, 0x0C, 0x0E, 0x0F, 0x10, 0x11, 0x12, 0x13, 0x14, 0x15, 0x16, 0x17, 0x18, 0x1A]) ∧
  (∀ v, Touches (.srtCfgRsvWrite v) [.dd, .jnl] [0x08, 0x0A, 0x0C, 0x10, 0x11, 0x14, 0x17, 0x18, 0x1A]) ∧
  (∀ v, Touches (.srtUnitAdminWrite v) [] [0x0A, 0x11, 0x15])) ∧
((Touches .osmRunStart [] [0x0E]) ∧
  (Touches .osmStartSample [.dd, .jnl] [0x0A, 0x0E]) ∧
  (Touches .osmRunStop [.dd, .jnl] [0x08, 0x0A, 0x0C, 0x0E, 0x10, 0x11, 0x14, 0x17, 0x18, 0x1A]) ∧
  (Touches .islSwapRequest [] [0x0F])) ∧
((Touches .scbFlushWrite [] []) ∧
  (∀ ok, Touches (.scorebookFlushDone ok) [] [0x0A, 0x1A]) ∧
  (∀ seq, Touches (.scorebookLookup seq) [] []) ∧
  (Touches .scorebookLookupDone [] [0x0A, 0x1A]) ∧
  (∀ uncorrectable, Touches (.journalDrain uncorrectable) [.jnl] [0x0A, 0x17, 0x1A]) ∧
  (Touches .checkpointStart [.dd, .jnl] []) ∧
  (Touches .jnlCkptWrite [.jnl] []) ∧
  (Touches .checkpointEnd [.dd, .jnl] []) ∧
  (Touches .rerunGo [.jnl] []) ∧
  (Touches .rerunStop [] []) ∧
  (∀ v, Touches (.rerunInputWord v) [.jnl] []) ∧
  (∀ uncorrectable, TouchesUnits (.rerunApplyEntry uncorrectable) [.tab, .dd, .jnl])) ∧
((∀ array bank index kind place, Touches (.scrubRead array bank index kind place) [.dd, .jnl] [0x04, 0x08, 0x0A, 0x0C, 0x0E, 0x10, 0x11, 0x14, 0x17, 0x18, 0x1A]) ∧
  (∀ done array, Touches (.scrubPeriodEnd done array) [] [0x1A]) ∧
  (∀ uncorrectable, Touches (.mergeEntryTimeout uncorrectable) [] [0x0A, 0x1A]) ∧
  (∀ v, Touches (.memInjectArm v) [] [0x1A]) ∧
  (∀ v, Touches (.memGroupClear v) [] [0x0A, 0x1A]))

/-- Frames of alarms, egress, the radio, Rharix federation and the relay pair: what each command may touch.
For each command named: where it goes on, either nothing happens or its own effect, before what follows every command, leaves alone everything but
the listed things and the units listed by their 64 KiB range of BAR0, as in FieldCommandsLeaveTheRest.
Rules: R260, R367, R384. -/
def Obligations.OutputCommandsLeaveTheRest : Prop :=
  ((Touches .almThrCmdThrA [.tab, .dd, .jnl] [0x10]) ∧
  (Touches .almThrCmdHysA [.tab, .dd, .jnl] [0x10]) ∧
  (Touches .almThrCmdThrB [.tab, .dd, .jnl] [0x10]) ∧
  (Touches .alarmRecordDrain [] [0x0A, 0x10, 0x17, 0x1A]) ∧
  (∀ v, Touches (.aoutLatchClear v) [] [0x10]) ∧
  (∀ k v, Touches (.aoutForceWrite k v) [] [0x10]) ∧
  (∀ k, Touches (.aoutMinOnExpiry k) [] [0x10]) ∧
  (∀ pub, Touches (.gooseRetransmit pub) [] [0x11, 0x18]) ∧
  (∀ client, Touches (.c37CfgPeriodic client) [] [0x11]) ∧
  (∀ conn port v6 addr peerPort mss iss rcv, Touches (.egressTcpAccept conn port v6 addr peerPort mss iss rcv) [] [0x11]) ∧
  (∀ tcp sender idcode, Touches (.c37CmdTxOff tcp sender idcode) [] [0x11]) ∧
  (∀ tcp sender idcode, Touches (.c37CmdTxOn tcp sender idcode) [] [0x11]) ∧
  (∀ tcp sender idcode, Touches (.c37CmdSendHdr tcp sender idcode) [] [0x11]) ∧
  (∀ tcp sender idcode, Touches (.c37CmdSendCfg1 tcp sender idcode) [] [0x11]) ∧
  (∀ tcp sender idcode, Touches (.c37CmdSendCfg2 tcp sender idcode) [] [0x11]) ∧
  (∀ tcp sender idcode, Touches (.c37CmdSendCfg3 tcp sender idcode) [] [0x11]) ∧
  (∀ cmd tcp sender idcode, Touches (.c37CmdOther cmd tcp sender idcode) [] [0x11]) ∧
  (∀ conn ack, Touches (.egressTcpAckReceived conn ack) [] [0x11]) ∧
  (∀ conn, Touches (.egressTcpRto conn) [] [0x11]) ∧
  (∀ port stamp firmware, Touches (.txFrameComplete port stamp firmware) [] [0x02, 0x04, 0x11, 0x18])) ∧
((Touches .beaconInstant [] [0x1B]) ∧
  (∀ phr bytes, Touches (.xcrFrameReceived phr bytes) [] [0x1B]) ∧
  (Touches .xcrAckSend [] [0x1B]) ∧
  (Touches .xcrAckTimeout [] [0x1B]) ∧
  (∀ v, Touches (.xcrTxRequest v) [] [0x1B]) ∧
  (∀ busy, Touches (.xcrListenSend busy) [] [0x1B]) ∧
  (∀ busy, Touches (.xcrWakeSequence busy) [] [0x1B]) ∧
  (∀ busy, Touches (.xcrDeferredSend busy) [] [0x1B]) ∧
  (∀ sensor, Touches (.xcrCheckinMissed sensor) [] [0x1B]) ∧
  (∀ ok, Touches (.xcvrReadbackTimeout ok) [] [0x1B]) ∧
  (Touches .xcrRxqPop [] [0x1B])) ∧
((∀ lane bytes, TouchesUnits (.rxlFrameReceived lane bytes) [.tab, .dd, .jnl]) ∧
  (∀ link, Touches (.rxlAckDelayExpiry link) [] [0x11, 0x15, 0x18]) ∧
  (∀ link cls, Touches (.rxlRetransmitTimeout link cls) [] [0x0A, 0x11, 0x15, 0x18]) ∧
  (∀ peer n, Touches (.cadenceSend peer n) [] [0x11, 0x15, 0x18]) ∧
  (∀ dev, Touches (.peerLossTimeout dev) [] [0x0A, 0x15]) ∧
  (∀ link, Touches (.rxlCadenceTimeout link) [] [0x0A, 0x15]) ∧
  (∀ lane lock, Touches (.rxlLockChange lane lock) [] [0x0A, 0x15]) ∧
  (∀ lane v, Touches (.rxlPortEnable lane v) [] [0x0A, 0x15]) ∧
  (∀ lane, Touches (.rxlTrainingDone lane) [] [0x15]) ∧
  (∀ heat lap, Touches (.partWaitExpiry heat lap) [.dd, .jnl] [0x0A, 0x15])) ∧
((Touches .batonToggle [] [0x16]) ∧
  (Touches .batonEdgeSeen [.mode] [0x01, 0x04, 0x08, 0x0A, 0x0C, 0x0E, 0x0F, 0x10, 0x11, 0x15, 0x16]) ∧
  (TouchesUnits .batonSilenceTimeout [.mode, .tab, .dd, .jnl]) ∧
  (Touches .batonWatchEnd [.mode, .tab, .dd, .jnl] [0x01, 0x08, 0x10, 0x11, 0x14, 0x15, 0x16, 0x17, 0x18, 0x1B]) ∧
  (Touches .driverEnableDelay [] [0x10, 0x16]) ∧
  (Touches .heartbeatMissing [] [0x16]) ∧
  (Touches .handoverRequest [] [0x16]) ∧
  (Touches .handoverRelease [] [0x16]) ∧
  (Touches .resyncRequest [] [0x11, 0x15, 0x16, 0x18]) ∧
  (TouchesUnits .checkpointLoad [.tab, .dd, .jnl]))

/-- Frames of register accesses, rings, DMA, the key store, modes, power and health.
For each command named (the two entries into WARMUP, which leave nothing as it was, are not): where it goes on, either nothing happens or its own
effect, before what follows every command, leaves alone everything but the listed things and the units listed by their 64 KiB range of BAR0, as in
FieldCommandsLeaveTheRest.
Rules: R410, R428, R499. -/
def Obligations.HostCommandsLeaveTheRest : Prop :=
  ((∀ port, Touches (.counterLoRead port) [.rd] [0x04]) ∧
  (∀ addr, TouchesUnits (.rcRegisterRead addr) [.rd]) ∧
  (∀ write addr size, TouchesUnits (.bar0BadAccess write addr size) [.rd]) ∧
  (∀ addr v, TouchesUnits (.registerWrite addr v) [.mode, .tab, .key, .grp, .dd, .jnl, .rd]) ∧
  (∀ ring v, Touches (.sqTailDoorbell ring v) [] [0x17]) ∧
  (∀ ring v, Touches (.cqHeadDoorbell ring v) [] [0x17]) ∧
  (∀ cq v, Touches (.ringEnable cq v) [] [0x17]) ∧
  (∀ cq, Touches (.ringDisable cq) [] [0x17]) ∧
  (∀ ch words list, Touches (.descriptorFetch ch words list) [] [0x17]) ∧
  (∀ ch, Touches (.opNop ch) [] [0x17]) ∧
  (∀ ch, Touches (.opTableLoad ch) [.tab, .dd, .jnl] [0x04, 0x0A, 0x0F, 0x10, 0x11, 0x12, 0x14, 0x15, 0x17, 0x18, 0x1A]) ∧
  (∀ ch, Touches (.opTableRead ch) [.hold, .key, .grp] [0x01, 0x0A, 0x11, 0x16, 0x17, 0x18, 0x1A]) ∧
  (∀ ch, Touches (.opHeatEnable ch) [.dd, .jnl] [0x08, 0x0A, 0x10, 0x11, 0x17, 0x18]) ∧
  (∀ ch, Touches (.opHeatDisable ch) [.dd, .jnl] [0x08, 0x0A, 0x0C, 0x0E, 0x10, 0x11, 0x14, 0x17, 0x18, 0x1A]) ∧
  (∀ ch uncorrectable, Touches (.opMemRead ch uncorrectable) [.dd, .jnl] [0x08, 0x0A, 0x0C, 0x0E, 0x10, 0x11, 0x14, 0x17, 0x18, 0x1A]) ∧
  (∀ ch, Touches (.opStreamRead ch) [] [0x0A, 0x13, 0x17, 0x1A]) ∧
  (∀ ch, Touches (.opUndefined ch) [] [0x17]) ∧
  (∀ ch data ok, Touches (.dmaReadCompletion ch data ok) [.tab, .dd, .jnl] [0x04, 0x0A, 0x0F, 0x10, 0x11, 0x12, 0x14, 0x15, 0x17, 0x18, 0x1A]) ∧
  (∀ ring, Touches (.cqCoalesceTimeout ring) [] [0x17]) ∧
  (∀ ch, Touches (.dmaChStop ch) [.tab, .dd, .jnl] [0x04, 0x0A, 0x0F, 0x10, 0x11, 0x12, 0x14, 0x15, 0x17, 0x18, 0x1A]) ∧
  (∀ ch, Touches (.dmaAbortDone ch) [.tab, .dd, .jnl] [0x04, 0x08, 0x0A, 0x0C, 0x0E, 0x0F, 0x10, 0x11, 0x12, 0x14, 0x15, 0x17, 0x18, 0x1A]) ∧
  (∀ ch, Touches (.dmaChStart ch) [] [0x17]) ∧
  (∀ ch, Touches (.streamReadIdleTimeout ch) [] [0x17]) ∧
  (∀ fifo, Touches (.streamFifoFlush fifo) [] [0x17]) ∧
  (∀ flr rate width, Touches (.pcieLinkDown flr rate width) [] [0x17]) ∧
  (∀ rate width, Touches (.pcieLinkUp rate width) [] [0x17])) ∧
((∀ host slot mask, Touches (.keyCmdWrite host slot mask) [.key] [0x18]) ∧
  (∀ host slot, Touches (.keyCmdErase host slot) [.key] [0x18]) ∧
  (∀ host group, Touches (.keyCmdSetNext host group) [] [0x18]) ∧
  (∀ host group, Touches (.keyCmdRoll host group) [.grp] [0x18]) ∧
  (∀ host group, Touches (.keyCmdClear host group) [.grp] [0x18]) ∧
  (∀ host, Touches (.keyCmdCloseWindow host) [] [0x18]) ∧
  (∀ lo, Touches (.keyUnlock lo) [] [0x18]) ∧
  (Touches .privWindowExpiry [] [0x18]) ∧
  (Touches .attestRequest [] [0x18]) ∧
  (Touches .attestReady [] [0x18]) ∧
  (∀ v, Touches (.attestRelease v) [] [0x17, 0x18]) ∧
  (Touches .tamperZeroise [.key, .grp] [0x18]) ∧
  (∀ bd message, Touches (.bootDigestExtend bd message) [.bd] [0x18]) ∧
  (Touches .vbatLoss [.key] [0x18]) ∧
  (Touches .keyCmdComplete [.key, .grp] [0x18])) ∧
((Touches .resetNAssert [.mode] [0x01, 0x10, 0x11, 0x16, 0x17]) ∧
  (∀ fail libVer token, Touches (.warmupComplete fail libVer token) [.hold, .key, .grp] [0x01, 0x0C, 0x11, 0x16, 0x18]) ∧
  (Touches .pwrGoRace [.mode, .tab, .dd, .jnl] [0x01, 0x08, 0x10, 0x11, 0x14, 0x16, 0x17, 0x18, 0x1B]) ∧
  (Touches .pwrGoRerun [.mode] [0x01]) ∧
  (∀ key, Touches (.pwrResetKey key) [.mode] [0x01, 0x10, 0x11, 0x16, 0x17]) ∧
  (Touches .pfwNFall [.hold, .key, .grp] [0x01, 0x11, 0x16, 0x18]) ∧
  (∀ ok us, Touches (.saveWriteDone ok us) [] [0x01]) ∧
  (Touches .holdEnd [.mode] [0x01, 0x10, 0x11, 0x16, 0x17]) ∧
  (Touches .watchdogExpiry [.hold, .key, .grp] [0x01, 0x11, 0x16, 0x18]) ∧
  (Touches .clockLoss [.hold, .key, .grp] [0x01, 0x11, 0x16, 0x18]) ∧
  (∀ readings, Touches (.healthSample readings) [.hold, .key, .grp] [0x01, 0x11, 0x16, 0x18]) ∧
  (Touches .healthSnapshotRequest [] [0x01]) ∧
  (Touches .healthSnapshotReady [] [0x01]) ∧
  (∀ v, Touches (.healthSnapshotRelease v) [] [0x01, 0x17]) ∧
  (Touches .mainPowerLoss [.mode, .pow, .key] [0x01, 0x10, 0x11, 0x16, 0x17, 0x18]) ∧
  (TouchesUnits .mainPowerUp [.mode, .pow, .tab, .grp, .bd, .now, .dd, .jnl, .rd]))
end

