-- ==== Sys2Proof/Laws/Memory.lean ====
section
/-!
SUPPORT. The sparse maps and the DDR5 memory: reading back what was written, leaving the rest alone, and the canonical form.
-/
namespace Sys2Proof.Machine

set_option Elab.async false
variable {β : Type}

/-- Keys strictly rise, said of the list of keys. -/
theorem mwf_iff (m : NMap β) : mwf m = true ↔ m.Pairwise (fun x y => x.1 < y.1) := by
  induction m with
  | nil => simp [mwf]
  | cons x r ih =>
    cases r with
    | nil => simp [mwf]
    | cons y q =>
      simp only [mwf, Bool.and_eq_true, decide_eq_true_eq, ih, List.pairwise_cons, List.mem_cons]
      constructor
      · rintro ⟨h1, h2, h3⟩
        refine ⟨?_, h2, h3⟩
        rintro z (rfl | hz)
        · exact h1
        · exact Nat.lt_trans h1 (h2 z hz)
      · rintro ⟨h1, h2, h3⟩
        exact ⟨h1 y (.inl rfl), h2, h3⟩

theorem mem_mset {m : NMap β} {k : Nat} {v : β} {x : Nat × β} (h : x ∈ mset m k v) : x = (k, v) ∨ x ∈ m := by
  induction m with
  | nil => simp [mset] at h; exact .inl h
  | cons y r ih =>
    obtain ⟨b, w⟩ := y
    simp only [mset] at h
    split at h
    · simp at h; simp; tauto
    · split at h
      · simp at h; simp; tauto
      · simp at h
        rcases h with h | h
        · simp [h]
        · rcases ih h with h | h
          · exact .inl h
          · exact .inr (by simp [h])

theorem mem_mdel {m : NMap β} {k : Nat} {x : Nat × β} (h : x ∈ mdel m k) : x ∈ m := by
  induction m with
  | nil => simp [mdel] at h
  | cons y r ih =>
    obtain ⟨b, w⟩ := y
    simp only [mdel] at h
    split at h
    · simp [h]
    · simp at h
      rcases h with h | h
      · simp [h]
      · simp [ih h]

theorem mset_wf {m : NMap β} {k : Nat} {v : β} (h : mwf m = true) : mwf (mset m k v) = true := by
  rw [mwf_iff] at *
  induction m with
  | nil => simp [mset]
  | cons y r ih =>
    obtain ⟨b, w⟩ := y
    rw [List.pairwise_cons] at h
    simp only [mset]
    split
    · rename_i hk
      rw [List.pairwise_cons, List.pairwise_cons]
      refine ⟨?_, h⟩
      intro z hz
      rcases List.mem_cons.1 hz with rfl | hz
      · exact hk
      · exact Nat.lt_trans hk (h.1 z hz)
    · split
      · rename_i hk
        subst hk
        rw [List.pairwise_cons]
        exact ⟨fun z hz => h.1 z hz, h.2⟩
      · rename_i h1 h2
        rw [List.pairwise_cons]
        refine ⟨?_, ih h.2⟩
        intro z hz
        rcases mem_mset hz with rfl | hz
        · show b < k
          omega
        · exact h.1 z hz

theorem mdel_wf {m : NMap β} {k : Nat} (h : mwf m = true) : mwf (mdel m k) = true := by
  rw [mwf_iff] at *
  induction m with
  | nil => simp [mdel]
  | cons y r ih =>
    obtain ⟨b, w⟩ := y
    rw [List.pairwise_cons] at h
    simp only [mdel]
    split
    · exact h.2
    · rw [List.pairwise_cons]
      exact ⟨fun z hz => h.1 z (mem_mdel hz), ih h.2⟩

theorem mget_mset_self (m : NMap β) (k : Nat) (v : β) : mget (mset m k v) k = some v := by
  induction m with
  | nil => simp [mset, mget]
  | cons y r ih =>
    obtain ⟨b, w⟩ := y
    simp only [mset]
    split
    · simp [mget]
    · split
      · simp [mget]
      · rename_i h1 h2
        have : b ≠ k := fun h => h2 h.symm
        simp [mget, this, ih]

theorem mget_mset_other (m : NMap β) (k j : Nat) (v : β) (hj : j ≠ k) : mget (mset m k v) j = mget m j := by
  induction m with
  | nil => simp [mset, mget, Ne.symm hj]
  | cons y r ih =>
    obtain ⟨b, w⟩ := y
    simp only [mset]
    split
    · simp [mget, Ne.symm hj]
    · split
      · rename_i h1 h2
        subst h2
        simp [mget, Ne.symm hj]
      · simp only [mget]
        split
        · rfl
        · exact ih

@[simp] theorem mgetD_mset_self (m : NMap β) (k : Nat) (v d : β) : mgetD (mset m k v) k d = v := by simp [mgetD, mget_mset_self]
theorem mgetD_mset_other (m : NMap β) (k j : Nat) (v d : β) (h : j ≠ k) : mgetD (mset m k v) j d = mgetD m j d := by
  simp [mgetD, mget_mset_other m k j v h]

theorem mget_mdel_other (m : NMap β) (k j : Nat) (hj : j ≠ k) : mget (mdel m k) j = mget m j := by
  induction m with
  | nil => rfl
  | cons y r ih =>
    obtain ⟨b, w⟩ := y
    simp only [mdel]
    split
    · rename_i h
      subst h
      simp [mget, Ne.symm hj]
    · simp only [mget]
      split
      · rfl
      · exact ih

theorem mget_none {m : NMap β} {k : Nat} (h : ∀ x ∈ m, x.1 ≠ k) : mget m k = none := by
  induction m with
  | nil => rfl
  | cons y r ih =>
    obtain ⟨b, w⟩ := y
    simp only [mget]
    rw [if_neg (h (b, w) (by simp))]
    exact ih (fun x hx => h x (by simp [hx]))

theorem mget_mdel_self {m : NMap β} {k : Nat} (h : mwf m = true) : mget (mdel m k) k = none := by
  rw [mwf_iff] at h
  induction m with
  | nil => rfl
  | cons y r ih =>
    obtain ⟨b, w⟩ := y
    rw [List.pairwise_cons] at h
    simp only [mdel]
    split
    · rename_i hb
      subst hb
      exact mget_none (fun x hx => by have := h.1 x hx; simp at this; omega)
    · rename_i hb
      simp only [mget]
      rw [if_neg hb]
      exact ih h.2

theorem zset_mem [DecidableEq β] {z : β} {m : NMap β} {k : Nat} {v : β} (h : ∀ x ∈ m, x.2 ≠ z) : ∀ x ∈ zset z m k v, x.2 ≠ z := by
  intro x hx
  unfold zset at hx
  split at hx
  · exact h x (mem_mdel hx)
  · rename_i hv
    rcases mem_mset hx with rfl | hx
    · exact hv
    · exact h x hx

/-- A write of one byte keeps the canonical form. -/
theorem zset_wf {m : List Host.Cell} {k : Nat} {v : Byte} (h : Memory.wf m = true) : Memory.wf (zset 0#8 m k v) = true := by
  simp only [Memory.wf, Bool.and_eq_true, List.all_eq_true, bne_iff_ne] at *
  refine ⟨?_, zset_mem h.2⟩
  unfold zset
  split
  · exact mdel_wf h.1
  · exact mset_wf h.1

/-- A write of bytes keeps the canonical form. -/
theorem ddrPut_wf (b : List Byte) (m : List Host.Cell) (a : Nat) (h : Memory.wf m = true) : Memory.wf (ddrPut m a b) = true := by
  induction b generalizing m a with
  | nil => exact h
  | cons x r ih => exact ih _ _ (zset_wf h)

/-- Dropping bytes keeps the canonical form. -/
theorem ddrFilter_wf (f : Host.Cell → Bool) {m : List Host.Cell} (h : Memory.wf m = true) : Memory.wf (m.filter f) = true := by
  simp only [Memory.wf, Bool.and_eq_true, mwf_iff] at *
  exact ⟨h.1.filter _, List.all_eq_true.mpr (fun x hx => List.all_eq_true.mp h.2 x (List.mem_of_mem_filter hx))⟩
theorem ddrClear_wf {d : Device} (a n : Nat) (h : Memory.wf d.ddr = true) : Memory.wf (d.ddrClear a n).ddr = true := ddrFilter_wf _ h

theorem ddrCells_wf {d : Device} (cs : List Host.Cell) (h : Memory.wf d.ddr = true) : Memory.wf (d.ddrCells cs).ddr = true := by
  unfold Device.ddrCells
  generalize d.ddr = m at h
  induction cs generalizing m with
  | nil => exact h
  | cons c r ih => exact ih _ (zset_wf h)

theorem ddrGet_zset_self {m : List Host.Cell} {k : Nat} {v : Byte} (h : Memory.wf m = true) : ddrGet (zset 0#8 m k v) k = v := by
  simp only [Memory.wf, Bool.and_eq_true] at h
  unfold ddrGet zset mgetD
  split
  · rename_i hv
    rw [mget_mdel_self h.1]
    exact hv.symm
  · rw [mget_mset_self]
    rfl

theorem ddrGet_zset_other (m : List Host.Cell) (k j : Nat) (v : Byte) (hj : j ≠ k) : ddrGet (zset 0#8 m k v) j = ddrGet m j := by
  unfold ddrGet zset mgetD
  split
  · rw [mget_mdel_other m k j hj]
  · rw [mget_mset_other m k j v hj]

/-- A write of bytes leaves every other byte alone. -/
theorem ddrGet_put_other (b : List Byte) (m : List Host.Cell) (a j : Nat) (hj : j < a ∨ a + b.length ≤ j) : ddrGet (ddrPut m a b) j = ddrGet m j := by
  induction b generalizing m a with
  | nil => rfl
  | cons x r ih =>
    simp only [List.length_cons] at hj
    rw [ddrPut, ih (zset 0#8 m a x) (a + 1) (by omega), ddrGet_zset_other m a j x (by omega)]

/-- A byte reads back as it was written. -/
theorem ddrGet_put (b : List Byte) (m : List Host.Cell) (a i : Nat) (h : Memory.wf m = true) (hi : i < b.length) :
    ddrGet (ddrPut m a b) (a + i) = b[i] := by
  induction b generalizing m a i with
  | nil => simp at hi
  | cons x r ih =>
    cases i with
    | zero =>
      rw [ddrPut, ddrGet_put_other r _ _ _ (by omega)]
      exact ddrGet_zset_self h
    | succ i =>
      have := ih (zset 0#8 m a x) (a + 1) i (zset_wf h) (by simpa using hi)
      rw [ddrPut]
      simpa [Nat.add_assoc, Nat.add_comm 1 i] using this

end Sys2Proof.Machine
end

