-- ==== Sys2Proof/Laws/CalmBase.lean ====
section
/-!
SUPPORT. Calm, the relation of Safety that says what an operation leaves alone, is closed under composition: the lemmas from which each operation
gets one lemma that says once what it may touch.
-/
namespace Sys2Proof.Machine

set_option Elab.async false

theorem Calm.refl (e : Eff) (a : Device) : Calm e a a := by
  constructor
  case ddr => exact id
  case mode => exact .inl rfl
  case blks => exact fun _ => .inr (.inr (.inr rfl))
  case hifRegs => exact .inr (fun _ _ => rfl)
  all_goals exact .inr rfl

theorem or_trans {α : Type} {x : Prop} {p q r : α} : (x ∨ p = q) → (x ∨ q = r) → (x ∨ p = r) := by
  rintro (h | h) (k | k)
  · exact .inl h
  · exact .inl h
  · exact .inl k
  · exact .inr (h.trans k)

/-- A device that differs from a calm one only where it may. -/
theorem Calm.upd {e : Eff} {a d d' : Device} (h : Calm e a d)
    (h1 : d'.ddr = d.ddr := by rfl) (h2 : d'.pwr.mode = d.pwr.mode := by rfl) (h3 : (∀ b, Lets (e.unit b)) ∨ d'.regs = d.regs := by first | exact .inr rfl | exact .inl (by first | assumption | exact ⟨rfl⟩))
    (k0 : Lets e.pow ∨ d'.pwr.powered = d.pwr.powered := by first | exact .inr rfl | exact .inl (by first | assumption | exact ⟨rfl⟩))
    (k1 : Lets e.tab ∨ d'.tables = d.tables := by first | exact .inr rfl | exact .inl (by first | assumption | exact ⟨rfl⟩))
    (k2 : Lets e.key ∨ d'.key.slots = d.key.slots := by first | exact .inr rfl | exact .inl (by first | assumption | exact ⟨rfl⟩))
    (k3 : Lets e.grp ∨ d'.key.groups = d.key.groups := by first | exact .inr rfl | exact .inl (by first | assumption | exact ⟨rfl⟩))
    (k4 : Lets e.key ∨ d'.key.tampered = d.key.tampered := by first | exact .inr rfl | exact .inl (by first | assumption | exact ⟨rfl⟩))
    (k5 : Lets e.bd ∨ d'.key.bd = d.key.bd := by first | exact .inr rfl | exact .inl (by first | assumption | exact ⟨rfl⟩))
    (k6 : Lets e.now ∨ d'.tk.now = d.tk.now := by first | exact .inr rfl | exact .inl (by first | assumption | exact ⟨rfl⟩))
    (k8 : Lets e.jnl ∨ d'.jnl = d.jnl := by first | exact .inr rfl | exact .inl (by first | assumption | exact ⟨rfl⟩))
    (k9 : Lets e.rd ∨ d'.lastRead = d.lastRead := by first | exact .inr rfl | exact .inl (by first | assumption | exact ⟨rfl⟩))
    (k10 : Lets (e.unit 0x01) ∨ d'.pwr = d.pwr := by first | exact .inr rfl | exact .inl (by first | assumption | exact ⟨rfl⟩))
    (k11 : Lets (e.unit 0x02) ∨ d'.tk = d.tk := by first | exact .inr rfl | exact .inl (by first | assumption | exact ⟨rfl⟩))
    (k12 : Lets (e.unit 0x04) ∨ d'.ing = d.ing := by first | exact .inr rfl | exact .inl (by first | assumption | exact ⟨rfl⟩))
    (k13 : Lets (e.unit 0x08) ∨ d'.pfa = d.pfa := by first | exact .inr rfl | exact .inl (by first | assumption | exact ⟨rfl⟩))
    (k14 : Lets (e.unit 0x0A) ∨ d'.srt = d.srt := by first | exact .inr rfl | exact .inl (by first | assumption | exact ⟨rfl⟩))
    (k15 : Lets (e.unit 0x0C) ∨ d'.pac = d.pac := by first | exact .inr rfl | exact .inl (by first | assumption | exact ⟨rfl⟩))
    (k16 : Lets (e.unit 0x0E) ∨ d'.osm = d.osm := by first | exact .inr rfl | exact .inl (by first | assumption | exact ⟨rfl⟩))
    (k17 : Lets (e.unit 0x0F) ∨ d'.isl = d.isl := by first | exact .inr rfl | exact .inl (by first | assumption | exact ⟨rfl⟩))
    (k18 : Lets (e.unit 0x10) ∨ d'.alm = d.alm := by first | exact .inr rfl | exact .inl (by first | assumption | exact ⟨rfl⟩))
    (k19 : Lets (e.unit 0x11) ∨ d'.egr = d.egr := by first | exact .inr rfl | exact .inl (by first | assumption | exact ⟨rfl⟩))
    (k20 : Lets (e.unit 0x12) ∨ d'.lmf = d.lmf := by first | exact .inr rfl | exact .inl (by first | assumption | exact ⟨rfl⟩))
    (k21 : Lets (e.unit 0x13) ∨ d'.acq = d.acq := by first | exact .inr rfl | exact .inl (by first | assumption | exact ⟨rfl⟩))
    (k22 : Lets (e.unit 0x14) ∨ d'.nrg = d.nrg := by first | exact .inr rfl | exact .inl (by first | assumption | exact ⟨rfl⟩))
    (k23 : Lets (e.unit 0x15) ∨ d'.rxl = d.rxl := by first | exact .inr rfl | exact .inl (by first | assumption | exact ⟨rfl⟩))
    (k24 : Lets (e.unit 0x16) ∨ d'.rly = d.rly := by first | exact .inr rfl | exact .inl (by first | assumption | exact ⟨rfl⟩))
    (k25 : Lets (e.unit 0x17) ∨ d'.hif = d.hif := by first | exact .inr rfl | exact .inl (by first | assumption | exact ⟨rfl⟩))
    (k26 : Lets (e.unit 0x18) ∨ d'.key = d.key := by first | exact .inr rfl | exact .inl (by first | assumption | exact ⟨rfl⟩))
    (k27 : Lets (e.unit 0x1A) ∨ d'.mem = d.mem := by first | exact .inr rfl | exact .inl (by first | assumption | exact ⟨rfl⟩))
    (k28 : Lets (e.unit 0x1B) ∨ d'.xcr = d.xcr := by first | exact .inr rfl | exact .inl (by first | assumption | exact ⟨rfl⟩)) :
    Calm e a d' := by
  have hb : (∀ b, Lets (e.unit b)) ∨ ∀ b, d'.blkRegs b = d.blkRegs b := h3.imp id (fun h3 b => by unfold Device.blkRegs; rw [h3])
  refine ⟨by rw [h1]; exact h.ddr, by rw [h2]; exact h.mode, fun b => ?_, ?_, or_trans k0 h.pow, or_trans k1 h.tables, or_trans k2 h.slots, or_trans k3 h.groups, or_trans k4 h.tampered, or_trans k5 h.bd, or_trans k6 h.now, h.cells.imp id (fun x => h1.trans x), or_trans k8 h.jnl, or_trans k9 h.rd, or_trans k10 h.pwr, or_trans k11 h.tk, or_trans k12 h.ing, or_trans k13 h.pfa, or_trans k14 h.srt, or_trans k15 h.pac, or_trans k16 h.osm, or_trans k17 h.isl, or_trans k18 h.alm, or_trans k19 h.egr, or_trans k20 h.lmf, or_trans k21 h.acq, or_trans k22 h.nrg, or_trans k23 h.rxl, or_trans k24 h.rly, or_trans k25 h.hif, or_trans k26 h.keys, or_trans k27 h.mem, or_trans k28 h.xcr⟩
  · rcases hb with hb | hb
    · exact .inl (hb b)
    · rw [hb]; exact h.blks b
  · rcases hb with hb | hb
    · exact .inl (hb 0x17)
    · rw [hb]; exact h.hifRegs

theorem Calm.upd_ing {e : Eff} {a d : Device} {x : Ing} (h : Calm e a d) (hu : Lets (e.unit 0x04) := by first | assumption | exact ⟨rfl⟩) :
    Calm e a { d with ing := x } := h.upd
theorem Calm.upd_pfa {e : Eff} {a d : Device} {x : Pfa} (h : Calm e a d) (hu : Lets (e.unit 0x08) := by first | assumption | exact ⟨rfl⟩) :
    Calm e a { d with pfa := x } := h.upd
theorem Calm.upd_srt {e : Eff} {a d : Device} {x : Srt} (h : Calm e a d) (hu : Lets (e.unit 0x0A) := by first | assumption | exact ⟨rfl⟩) :
    Calm e a { d with srt := x } := h.upd
theorem Calm.upd_pac {e : Eff} {a d : Device} {x : Pac} (h : Calm e a d) (hu : Lets (e.unit 0x0C) := by first | assumption | exact ⟨rfl⟩) :
    Calm e a { d with pac := x } := h.upd
theorem Calm.upd_osm {e : Eff} {a d : Device} {x : Osm} (h : Calm e a d) (hu : Lets (e.unit 0x0E) := by first | assumption | exact ⟨rfl⟩) :
    Calm e a { d with osm := x } := h.upd
theorem Calm.upd_isl {e : Eff} {a d : Device} {x : Isl} (h : Calm e a d) (hu : Lets (e.unit 0x0F) := by first | assumption | exact ⟨rfl⟩) :
    Calm e a { d with isl := x } := h.upd
theorem Calm.upd_alm {e : Eff} {a d : Device} {x : Alm} (h : Calm e a d) (hu : Lets (e.unit 0x10) := by first | assumption | exact ⟨rfl⟩) :
    Calm e a { d with alm := x } := h.upd
theorem Calm.upd_egr {e : Eff} {a d : Device} {x : Egr} (h : Calm e a d) (hu : Lets (e.unit 0x11) := by first | assumption | exact ⟨rfl⟩) :
    Calm e a { d with egr := x } := h.upd
theorem Calm.upd_lmf {e : Eff} {a d : Device} {x : Lmf} (h : Calm e a d) (hu : Lets (e.unit 0x12) := by first | assumption | exact ⟨rfl⟩) :
    Calm e a { d with lmf := x } := h.upd
theorem Calm.upd_acq {e : Eff} {a d : Device} {x : Acq} (h : Calm e a d) (hu : Lets (e.unit 0x13) := by first | assumption | exact ⟨rfl⟩) :
    Calm e a { d with acq := x } := h.upd
theorem Calm.upd_nrg {e : Eff} {a d : Device} {x : Nrg} (h : Calm e a d) (hu : Lets (e.unit 0x14) := by first | assumption | exact ⟨rfl⟩) :
    Calm e a { d with nrg := x } := h.upd
theorem Calm.upd_rxl {e : Eff} {a d : Device} {x : Rxl} (h : Calm e a d) (hu : Lets (e.unit 0x15) := by first | assumption | exact ⟨rfl⟩) :
    Calm e a { d with rxl := x } := h.upd
theorem Calm.upd_rly {e : Eff} {a d : Device} {x : Rly} (h : Calm e a d) (hu : Lets (e.unit 0x16) := by first | assumption | exact ⟨rfl⟩) :
    Calm e a { d with rly := x } := h.upd
theorem Calm.upd_hif {e : Eff} {a d : Device} {x : Hif} (h : Calm e a d) (hu : Lets (e.unit 0x17) := by first | assumption | exact ⟨rfl⟩) :
    Calm e a { d with hif := x } := h.upd
theorem Calm.upd_mem {e : Eff} {a d : Device} {x : Mem} (h : Calm e a d) (hu : Lets (e.unit 0x1A) := by first | assumption | exact ⟨rfl⟩) :
    Calm e a { d with mem := x } := h.upd
theorem Calm.upd_xcr {e : Eff} {a d : Device} {x : Xcr} (h : Calm e a d) (hu : Lets (e.unit 0x1B) := by first | assumption | exact ⟨rfl⟩) :
    Calm e a { d with xcr := x } := h.upd
theorem Calm.upd_scb {e : Eff} {a d : Device} {x : Scb} (h : Calm e a d) : Calm e a { d with scb := x } := h.upd
theorem Calm.upd_out {e : Eff} {a d : Device} {x : List Output} (h : Calm e a d) : Calm e a { d with out := x } := h.upd
theorem Calm.upd_pba {e : Eff} {a d : Device} {x : NMap Bool} (h : Calm e a d) : Calm e a { d with pba := x } := h.upd
theorem Calm.upd_noted {e : Eff} {a d : Device} {x : List (Nat × Nat)} (h : Calm e a d) : Calm e a { d with noted := x } := h.upd
theorem Calm.upd_free {e : Eff} {a d : Device} {x : Nat} (h : Calm e a d) : Calm e a { d with free := x } := h.upd
theorem Calm.upd_tk {e : Eff} {a d : Device} {x : Tk} (h : Calm e a d) (hu : Lets (e.unit 0x02) := by first | assumption | exact ⟨rfl⟩)
    (hn : Lets e.now ∨ x.now = d.tk.now := by first | exact .inr rfl | exact .inl (by first | assumption | exact ⟨rfl⟩)) : Calm e a { d with tk := x } := h.upd (k6 := hn)
theorem Calm.upd_pwr {e : Eff} {a d : Device} {x : Pwr} (h : Calm e a d) (hm : x.mode = d.pwr.mode := by rfl) (hu : Lets (e.unit 0x01) := by first | assumption | exact ⟨rfl⟩)
    (hn : Lets e.pow ∨ x.powered = d.pwr.powered := by first | exact .inr rfl | exact .inl (by first | assumption | exact ⟨rfl⟩)) : Calm e a { d with pwr := x } := h.upd rfl hm (k0 := hn)
theorem Calm.upd_key {e : Eff} {a d : Device} {x : Key} (h : Calm e a d) (hu : Lets (e.unit 0x18) := by first | assumption | exact ⟨rfl⟩)
    (h1 : Lets e.key ∨ x.slots = d.key.slots := by first | exact .inr rfl | exact .inl (by first | assumption | exact ⟨rfl⟩)) (h2 : Lets e.grp ∨ x.groups = d.key.groups := by first | exact .inr rfl | exact .inl (by first | assumption | exact ⟨rfl⟩))
    (h3 : Lets e.key ∨ x.tampered = d.key.tampered := by first | exact .inr rfl | exact .inl (by first | assumption | exact ⟨rfl⟩)) (h4 : Lets e.bd ∨ x.bd = d.key.bd := by first | exact .inr rfl | exact .inl (by first | assumption | exact ⟨rfl⟩)) : Calm e a { d with key := x } := h.upd (k2 := h1) (k3 := h2) (k4 := h3) (k5 := h4)
theorem Calm.upd_jnl {e : Eff} {a d : Device} {x : Jnl} (h : Calm e a d) (hu : Lets e.jnl := by first | assumption | exact ⟨rfl⟩) : Calm e a { d with jnl := x } := h.upd

/-- A word stored among the registers of a range. -/
theorem Calm.putReg {e : Eff} {a d : Device} {b k : Nat} {v : Word} (h : Calm e a d)
    (hu : e.may b := by first | assumption | exact Or.inl (by assumption) | exact Or.inr rfl) : Calm e a (d.putReg b k v) := by
  have hne : ∀ c, c ≠ b → (d.putReg b k v).blkRegs c = d.blkRegs c := fun c hc => by
    unfold Device.blkRegs Device.putReg
    exact mgetD_mset_other _ _ _ _ _ hc
  refine ⟨h.ddr, h.mode, fun c => ?_, ?_, h.pow, h.tables, h.slots, h.groups, h.tampered, h.bd, h.now, h.cells, h.jnl, h.rd, h.pwr, h.tk, h.ing, h.pfa, h.srt, h.pac, h.osm, h.isl, h.alm, h.egr, h.lmf, h.acq, h.nrg, h.rxl, h.rly, h.hif, h.keys, h.mem, h.xcr⟩
  · by_cases hc : c = b
    · subst hc
      rcases hu with hu | hu
      · exact .inl hu
      · exact .inr (.inr (.inl hu))
    · rw [hne c hc]; exact h.blks c
  · rcases hu with hu | hu
    · by_cases hc : 0x17 = b
      · exact .inl (hc ▸ hu)
      · rw [hne _ hc]; exact h.hifRegs
    · rw [hne _ (by omega)]; exact h.hifRegs

/-- All registers of a range changed. -/
theorem Calm.setBlk {e : Eff} {a d : Device} {b : Nat} {m : NMap Word} (h : Calm e a d) (hu : Lets (e.unit b) := by first | assumption | exact ⟨rfl⟩) :
    Calm e a { d with regs := mset d.regs b m } := by
  have hne : ∀ c, c ≠ b → ({ d with regs := mset d.regs b m } : Device).blkRegs c = d.blkRegs c := fun c hc => mgetD_mset_other _ _ _ _ _ hc
  refine { h with blks := fun c => ?_, hifRegs := ?_ }
  · by_cases hc : c = b
    · exact .inl (hc ▸ hu)
    · rw [hne c hc]; exact h.blks c
  · by_cases hc : 0x17 = b
    · exact .inl (hc ▸ hu)
    · rw [hne _ hc]; exact h.hifRegs

/-- The interrupt bits of the blocks. -/
theorem Calm.blkIrq {e : Eff} {a d : Device} {v : Word} (h : Calm e a d) : Calm e a (d.putReg 0x17 HIF_BLK_IRQ.base v) := by
  have hne : ∀ c, c ≠ 0x17 → (d.putReg 0x17 HIF_BLK_IRQ.base v).blkRegs c = d.blkRegs c := fun c hc => by
    unfold Device.blkRegs Device.putReg
    exact mgetD_mset_other _ _ _ _ _ hc
  refine ⟨h.ddr, h.mode, fun c => ?_, ?_, h.pow, h.tables, h.slots, h.groups, h.tampered, h.bd, h.now, h.cells, h.jnl, h.rd, h.pwr, h.tk, h.ing, h.pfa, h.srt, h.pac, h.osm, h.isl, h.alm, h.egr, h.lmf, h.acq, h.nrg, h.rxl, h.rly, h.hif, h.keys, h.mem, h.xcr⟩
  · by_cases hc : c = 0x17
    · exact .inr (.inl hc)
    · rw [hne c hc]; exact h.blks c
  · refine h.hifRegs.imp id (fun hx k hk => ?_)
    rw [← hx k hk]
    unfold Device.putReg
    show mget (mgetD (mset d.regs 0x17 _) 0x17 []) k = _
    rw [mgetD_mset_self]
    exact mget_mset_other _ _ _ _ hk

theorem calm_foldl {α : Type} {e : Eff} {a d : Device} (f : Device → α → Device) (l : List α) (hf : ∀ x b, Calm e a x → Calm e a (f x b))
    (h : Calm e a d) : Calm e a (l.foldl f d) := by
  induction l generalizing d with
  | nil => exact h
  | cons b r ih => exact ih (hf d b h)

theorem calm_ite {e : Eff} {a x y : Device} (c : Prop) [Decidable c] (hx : Calm e a x) (hy : Calm e a y) : Calm e a (if c then x else y) := by
  split
  · exact hx
  · exact hy

/-- A fold over a pair whose second is the device. -/
theorem calm_foldl2 {α β : Type} {e : Eff} {a : Device} (f : β × Device → α → β × Device) (l : List α) (z : β × Device)
    (hf : ∀ x b, Calm e a x.2 → Calm e a (f x b).2) (h : Calm e a z.2) : Calm e a (l.foldl f z).2 := by
  induction l generalizing z with
  | nil => exact h
  | cons b r ih => exact ih (f z b) (hf z b h)

/-- The second of a pair that has been named. -/
theorem calm_snd {α : Type} {e : Eff} {a y : Device} {u : α} {p : α × Device} (hp : p = (u, y)) (h : Calm e a p.2) : Calm e a y := by
  rw [hp] at h; exact h

/-- An operation that neither enters HOLD nor changes the mode leaves the mode. -/
theorem Calm.mode_eq {a d : Device} (h : Calm Eff.still a d) : d.pwr.mode = a.pwr.mode := by
  rcases h.mode with hx | ⟨⟨hx⟩, _⟩ | ⟨⟨hx⟩, _⟩
  · exact hx
  · cases hx
  · cases hx

/-- A change of mode after changes of mode. -/
theorem Moves.trans {m n p : Mode} (h : Moves m n) (k : Moves n p) : p = m ∨ Moves m p := by
  cases m <;> cases n <;> cases p <;> simp_all [Moves]

/-- A device that differs by a change of mode. -/
theorem Calm.move {e : Eff} {a d d' : Device} (h : Calm e a d) (he : Lets e.mode) (hm : Moves d.pwr.mode d'.pwr.mode) (hp : Lets (e.unit 1))
    (hs : Calm e a { d' with pwr := { d'.pwr with mode := d.pwr.mode } }) :
    Calm e a d' := by
  refine ⟨hs.ddr, ?_, hs.blks, hs.hifRegs, hs.pow, hs.tables, hs.slots, hs.groups, hs.tampered, hs.bd, hs.now, hs.cells, hs.jnl, hs.rd, .inl hp, hs.tk, hs.ing, hs.pfa, hs.srt, hs.pac, hs.osm, hs.isl, hs.alm, hs.egr, hs.lmf, hs.acq, hs.nrg, hs.rxl, hs.rly, hs.hif, hs.keys, hs.mem, hs.xcr⟩
  rcases h.mode with hx | ⟨_, hx, hy⟩ | ⟨_, hx⟩
  · rw [hx] at hm; exact .inr (.inr ⟨he, hm⟩)
  · rw [hy] at hm
    refine .inr (.inr ⟨he, ?_⟩)
    revert hm hx
    cases a.pwr.mode <;> cases d'.pwr.mode <;> simp [Moves]
  · rcases hx.trans hm with hx | hx
    · exact .inl hx
    · exact .inr (.inr ⟨he, hx⟩)

end Sys2Proof.Machine
end

