-- ==== Sys2Proof/Laws/CalmGrounds.lean ====
section
/-!
SUPPORT. One lemma per operation of registers, units, memory marks, heats, transmit queues and time (Machine/Ops, Units, MemHook, Heat, TxQueue, Timekeeper): what the
operation may touch, in the terms of Calm.
-/
namespace Sys2Proof.Machine
set_option Elab.async false
/-! Ops. -/
theorem Device.putReg_calm {e : Eff} {a d : Device} {b k : Nat} {v : Word} (h : Calm e a d)
    (hu : e.may b := by first | assumption | exact Or.inl (by assumption) | exact Or.inr rfl | exact Or.inl ⟨rfl⟩ | (split <;> exact Or.inl (by assumption)) | exact Or.inl (‹∀ b, Lets (e.unit b)› _)) :
    Calm e a (d.putReg b k v) := Calm.putReg h hu
theorem Device.wr_calm {e : Eff} {a : Device} {d : Device} {p1 : RegDef} {p2 : ℕ} {p3 : Word} (h : Calm e a d)
    (m_p1 : e.may (p1.base / 65536) := by first | assumption | exact Or.inl (by assumption) | exact Or.inr rfl | exact Or.inl ⟨rfl⟩ | (split <;> exact Or.inl (by assumption)) | exact Or.inl (‹∀ b, Lets (e.unit b)› _)) : Calm e a (Device.wr d p1 p2 p3) := by
  unfold Device.wr
  refine Device.putReg_calm ?_
  assumption
theorem Device.setf_calm {e : Eff} {a : Device} {d : Device} {p1 : RF} {p2 : ℕ} {p3 : optParam ℕ 0} (h : Calm e a d)
    (m_p1 : e.may (p1.reg.base / 65536) := by first | assumption | exact Or.inl (by assumption) | exact Or.inr rfl | exact Or.inl ⟨rfl⟩ | (split <;> exact Or.inl (by assumption)) | exact Or.inl (‹∀ b, Lets (e.unit b)› _)) : Calm e a (Device.setf d p1 p2 p3) := by
  unfold Device.setf
  refine Device.wr_calm ?_
  assumption
theorem Device.hwm_calm {e : Eff} {a : Device} {d : Device} {p1 : RF} {p2 : ℕ} {p3 : optParam ℕ 0} (h : Calm e a d)
    (m_p1 : e.may (p1.reg.base / 65536) := by first | assumption | exact Or.inl (by assumption) | exact Or.inr rfl | exact Or.inl ⟨rfl⟩ | (split <;> exact Or.inl (by assumption)) | exact Or.inl (‹∀ b, Lets (e.unit b)› _)) : Calm e a (Device.hwm d p1 p2 p3) := by
  unfold Device.hwm
  split
  · refine Device.setf_calm ?_
    assumption
  · assumption
theorem Device.err_calm {e : Eff} {a : Device} {d : Device} {p1 : RF} {p2 : RF} {p3 : ℕ} {p4 : optParam ℕ 0} (h : Calm e a d)
    (m_p1 : e.may (p1.reg.base / 65536) := by first | assumption | exact Or.inl (by assumption) | exact Or.inr rfl | exact Or.inl ⟨rfl⟩ | (split <;> exact Or.inl (by assumption)) | exact Or.inl (‹∀ b, Lets (e.unit b)› _))
    (m_p2 : e.may (p2.reg.base / 65536) := by first | assumption | exact Or.inl (by assumption) | exact Or.inr rfl | exact Or.inl ⟨rfl⟩ | (split <;> exact Or.inl (by assumption)) | exact Or.inl (‹∀ b, Lets (e.unit b)› _)) : Calm e a (Device.err d p1 p2 p3 p4) := by
  unfold Device.err
  refine Device.setf_calm ?_
  refine Device.setf_calm ?_
  assumption
theorem Device.emit_calm {e : Eff} {a : Device} {d : Device} {p1 : Output} (h : Calm e a d) : Calm e a (Device.emit d p1) := by
  unfold Device.emit
  refine Calm.upd_out ?_
  assumption
theorem Device.toHost_calm {e : Eff} {a : Device} {d : Device} {p1 : Output} (h : Calm e a d) : Calm e a (Device.toHost d p1) := by
  unfold Device.toHost
  split
  · refine Device.emit_calm ?_
    assumption
  · assumption
theorem Device.vector_calm {e : Eff} {a : Device} {d : Device} {p1 : ℕ} (h : Calm e a d) : Calm e a (Device.vector d p1) := by
  unfold Device.vector
  split
  · exact Calm.upd_pba h
  · exact Device.toHost_calm h
theorem Device.irqRefresh_calm {e : Eff} {a d : Device} {k : Nat} (h : Calm e a d) : Calm e a (d.irqRefresh k) := by
  have h1 : ∀ v, Calm e a (d.wr HIF_BLK_IRQ 0 v) := fun v => h.blkIrq
  unfold Device.irqRefresh
  extract_lets r p d1
  split
  · exact h
  · split
    · exact Device.vector_calm (h1 _)
    · exact h1 _
theorem countWith_calm {e : Eff} {a d : Device} {rep : EvId → List Nat → Device → Device} {c : Ctr} {i n : Nat}
    (hr : ∀ ev l x, Calm e a x → Calm e a (rep ev l x)) (h : Calm e a d)
    (hu : e.may (c.base / 65536) := by first | assumption | exact Or.inl (by assumption) | exact Or.inr rfl | exact Or.inl ⟨rfl⟩ | (split <;> exact Or.inl (by assumption)) | exact Or.inl (‹∀ b, Lets (e.unit b)› _)) :
    Calm e a (countWith rep c i n d) := by
  unfold countWith
  extract_lets x1 x2 x3 d1
  have h1 : Calm e a d1 := Calm.putReg h hu
  split
  · exact h1
  · split
    · exact h1
    · apply hr
      refine Device.irqRefresh_calm ?_
      exact Calm.putReg h1 hu
theorem scbFlush_calm {e : Eff} {a d : Device} {cnt : Device → Device} (hc : ∀ x, Calm e a x → Calm e a (cnt x)) (h : Calm e a d) :
    Calm e a (scbFlush cnt d) := by
  unfold scbFlush
  split
  · exact h
  · split
    · exact h.upd
    · split
      · exact h
      · exact hc _ (h.upd)
theorem scbPush_calm {e : Eff} {a : Device} {d : Device} {p1 : ScbRec} (h : Calm e a d) : Calm e a (scbPush d p1) := by
  unfold scbPush
  refine Calm.upd_scb ?_
  assumption
theorem raiseF_calm {e : Eff} {a d : Device} {fuel : Nat} {ev : EvId} {dat : List Nat} (h : Calm e a d) : Calm e a (raiseF fuel ev dat d) := by
  induction fuel generalizing ev dat d with
  | zero => exact h
  | succ n ih =>
    have hc : ∀ c x, c.base / 65536 = 0x19 → Calm e a x → Calm e a (countWith (raiseF n) c 0 1 x) :=
      fun c x hb hx => countWith_calm (fun _ _ _ hy => ih hy) hx (.inr hb)
    have h2 : ∀ s, Calm e a { d with scb := s } := fun s => h.upd
    unfold raiseF
    split
    · exact h
    · extract_lets flush fold
      have hf : ∀ x, Calm e a x → Calm e a (flush x) := by
        intro x hx
        unfold flush
        split
        · exact scbFlush_calm (fun y hy => hc _ y rfl hy) hx
        · exact hx
      clear_value flush fold
      split
      · exact hf _ (hc _ _ rfl (h2 _))
      · split
        · exact hf _ (hc _ _ rfl (h2 _))
        · exact hf _ (hc _ _ rfl (scbPush_calm h))
theorem Device.raise_calm {e : Eff} {a : Device} {d : Device} {p1 : EvId} {p2 : List ℕ} (h : Calm e a d) : Calm e a (Device.raise d p1 p2) := by
  unfold Device.raise
  refine raiseF_calm ?_
  assumption
theorem Device.countN_calm {e : Eff} {a d : Device} {c : Ctr} {n i : Nat} (h : Calm e a d)
    (hu : e.may (c.base / 65536) := by first | assumption | exact Or.inl (by assumption) | exact Or.inr rfl | exact Or.inl ⟨rfl⟩ | (split <;> exact Or.inl (by assumption)) | exact Or.inl (‹∀ b, Lets (e.unit b)› _)) :
    Calm e a (d.countN c n i) := by
  unfold Device.countN
  split
  · exact h
  · exact countWith_calm (fun _ _ _ hx => raiseF_calm hx) h
theorem Device.count_calm {e : Eff} {a d : Device} {c : Ctr} {i : Nat} (h : Calm e a d)
    (hu : e.may (c.base / 65536) := by first | assumption | exact Or.inl (by assumption) | exact Or.inr rfl | exact Or.inl ⟨rfl⟩ | (split <;> exact Or.inl (by assumption)) | exact Or.inl (‹∀ b, Lets (e.unit b)› _)) :
    Calm e a (d.count c i) := by
  unfold Device.count
  exact countWith_calm (fun _ _ _ hx => raiseF_calm hx) h
theorem Device.raiseSec_calm {e : Eff} {a : Device} {d : Device} {p1 : Option ℕ} {p2 : EvId} {p3 : List ℕ} (h : Calm e a d) : Calm e a (Device.raiseSec d p1 p2 p3) := by
  unfold Device.raiseSec
  split
  · assumption
  · refine Device.raise_calm ?_
    assumption
theorem Device.ddrWrite_calm {e : Eff} {a d : Device} {p : Nat} {b : List Byte} (h : Calm e a d) (e_dd : Lets e.dd := by first | assumption | exact ⟨rfl⟩) : Calm e a (d.ddrWrite p b) :=
  { h with ddr := fun hw => ddrPut_wf b d.ddr p (h.ddr hw), cells := .inl (by assumption) }
theorem Device.ddrClear_calm {e : Eff} {a d : Device} {p n : Nat} (h : Calm e a d) (e_dd : Lets e.dd := by first | assumption | exact ⟨rfl⟩) : Calm e a (d.ddrClear p n) :=
  { h with ddr := fun hw => ddrClear_wf p n (h.ddr hw), cells := .inl (by assumption) }
theorem Device.ddrCells_calm {e : Eff} {a d : Device} {cs : List Host.Cell} (h : Calm e a d) (e_dd : Lets e.dd := by first | assumption | exact ⟨rfl⟩) : Calm e a (d.ddrCells cs) :=
  { h with ddr := fun hw => ddrCells_wf cs (h.ddr hw), cells := .inl (by assumption) }
theorem jRingPut_calm {e : Eff} {a : Device} {d : Device} {p1 : ℕ} {p2 : List Byte} (h : Calm e a d) (e_dd : Lets e.dd := by first | assumption | exact ⟨rfl⟩) : Calm e a (jRingPut d p1 p2) := by
  induction p2 generalizing d p1
  · unfold jRingPut
    assumption
  · rename_i hd tl ih
    unfold jRingPut
    apply ih
    refine Device.ddrWrite_calm ?_
    assumption
theorem Device.undrainedShow_calm {e : Eff} {a : Device} {d : Device} (h : Calm e a d) : Calm e a (Device.undrainedShow d) := by
  unfold Device.undrainedShow
  split
  · refine Device.hwm_calm ?_
    assumption
  · assumption
theorem Device.journal_calm {e : Eff} {a : Device} {d : Device} {p1 : ℕ} {p2 : ℕ} {p3 : Time} {p4 : List Byte} (h : Calm e a d) (e_dd : Lets e.dd := by first | assumption | exact ⟨rfl⟩) (e_jnl : Lets e.jnl := by first | assumption | exact ⟨rfl⟩) : Calm e a (Device.journal d p1 p2 p3 p4) := by
  unfold Device.journal
  split
  · assumption
  · extract_lets x5900 x5901 x5902 x5903 x5904 x5905 x5906 x5907 x5908 x5909 x5910
    clear_value x5900
    clear_value x5901
    clear_value x5902
    clear_value x5903
    clear_value x5904
    clear_value x5905
    have hx5906 : Calm e a x5906 := by
      unfold x5906
      refine jRingPut_calm ?_
      assumption
    clear_value x5906
    clear_value x5907
    clear_value x5908
    have hx5909 : Calm e a x5909 := by
      unfold x5909
      refine Device.undrainedShow_calm ?_
      refine Device.count_calm ?_
      refine Calm.upd_jnl ?_
      assumption
    clear_value x5909
    clear_value x5910
    split
    · assumption
    · extract_lets x5700 x5701 x5702
      clear_value x5700
      have hx5701 : Calm e a x5701 := by
        unfold x5701
        refine Calm.upd_jnl ?_
        assumption
      clear_value x5701
      have hx5702 : Calm e a x5702 := by
        unfold x5702
        refine Device.countN_calm ?_
        assumption
      clear_value x5702
      split
      · assumption
      · refine Device.raise_calm ?_
        assumption
theorem Device.journalW_calm {e : Eff} {a : Device} {d : Device} {p1 : ℕ} {p2 : ℕ} {p3 : Time} {p4 : List Word} (h : Calm e a d) (e_dd : Lets e.dd := by first | assumption | exact ⟨rfl⟩) (e_jnl : Lets e.jnl := by first | assumption | exact ⟨rfl⟩) : Calm e a (Device.journalW d p1 p2 p3 p4) := by
  unfold Device.journalW
  refine Device.journal_calm ?_
  assumption
theorem Device.cqVector_calm {e : Eff} {a : Device} {d : Device} {p1 : ℕ} (h : Calm e a d) (e_u23 : Lets (e.unit 23) := by first | assumption | exact ⟨rfl⟩) : Calm e a (Device.cqVector d p1) := by
  unfold Device.cqVector
  refine Device.vector_calm ?_
  refine Calm.upd_hif ?_
  assumption
theorem Device.cqPost_calm {e : Eff} {a : Device} {d : Device} {p1 : ℕ} {p2 : List (List Word)} {p3 : Bool} (h : Calm e a d) (e_u23 : Lets (e.unit 23) := by first | assumption | exact ⟨rfl⟩) : Calm e a (Device.cqPost d p1 p2 p3) := by
  unfold Device.cqPost
  extract_lets x6000 x6001 x6002 x6003 x6004 x6005 x6006 x6007 x6008 x6009
  clear_value x6000
  clear_value x6001
  clear_value x6002
  have hx6003 : Calm e a x6003 := by
    unfold x6003
    apply calm_foldl
    · intro v58
      intro v57
      intro w56
      refine Device.toHost_calm ?_
      assumption
    · assumption
  clear_value x6003
  clear_value x6004
  clear_value x6005
  clear_value x6006
  have hx6007 : Calm e a x6007 := by
    unfold x6007
    refine Calm.upd_hif ?_
    assumption
  clear_value x6007
  have hx6008 : Calm e a x6008 := by
    unfold x6008
    refine Device.toHost_calm ?_
    assumption
  clear_value x6008
  clear_value x6009
  split
  · refine Device.cqVector_calm ?_
    assumption
  · assumption
theorem Device.cqRecord_calm {e : Eff} {a d : Device} {q content : Nat} {ws : List Word} (h : Calm e a d) {x : Device}
    (hx : d.cqRecord q content ws = some x) (e_u23 : Lets (e.unit 23) := by first | assumption | exact ⟨rfl⟩) : Calm e a x := by
  unfold Device.cqRecord at hx
  split at hx
  · cases hx
    exact Device.cqPost_calm h
  · cases hx
theorem Device.sfPush_calm {e : Eff} {a d : Device} {n : Nat} {p : Packet} (h : Calm e a d) {x : Device} (hx : d.sfPush n p = some x) (e_u23 : Lets (e.unit 23) := by first | assumption | exact ⟨rfl⟩) :
    Calm e a x := by
  unfold Device.sfPush at hx
  extract_lets ps at hx
  split at hx
  · cases hx
    refine Device.hwm_calm ?_
    exact h.upd
  · cases hx
theorem Device.setEnt_calm {e : Eff} {a : Device} {d : Device} {p1 : ℕ} {p2 : ℕ} {p3 : List Word} {p4 : optParam ℕ 0} (h : Calm e a d) (e_tab : Lets e.tab := by first | assumption | exact ⟨rfl⟩) : Calm e a (Device.setEnt d p1 p2 p3 p4) := by
  unfold Device.setEnt
  refine Calm.upd (d := d) ?_
  assumption
/-! Units. -/
theorem Device.unitRefresh_calm {e : Eff} {a : Device} {d : Device} {p1 : ℕ} {p2 : ℕ} (h : Calm e a d) (e_u10 : Lets (e.unit 10) := by first | assumption | exact ⟨rfl⟩) : Calm e a (Device.unitRefresh d p1 p2) := by
  unfold Device.unitRefresh
  extract_lets x6000 x6001 x6002 x6003 x6004 x6005
  clear_value x6000
  clear_value x6001
  clear_value x6002
  clear_value x6003
  have hx6004 : Calm e a x6004 := by
    unfold x6004
    refine Calm.upd_srt ?_
    assumption
  clear_value x6004
  have hx6005 : Calm e a x6005 := by
    unfold x6005
    split
    · refine Device.raise_calm ?_
      refine Device.count_calm ?_
      assumption
    · assumption
  clear_value x6005
  split
  · assumption
  · refine Device.raise_calm ?_
    assumption
theorem Device.engRefresh_calm {e : Eff} {a : Device} {d : Device} {p1 : ℕ} (h : Calm e a d) (e_u10 : Lets (e.unit 10) := by first | assumption | exact ⟨rfl⟩) : Calm e a (Device.engRefresh d p1) := by
  unfold Device.engRefresh
  refine Device.unitRefresh_calm ?_
  refine Device.unitRefresh_calm ?_
  assumption
theorem Device.clusterRefresh_calm {e : Eff} {a : Device} {d : Device} {p1 : ℕ} (h : Calm e a d) (e_u10 : Lets (e.unit 10) := by first | assumption | exact ⟨rfl⟩) : Calm e a (Device.clusterRefresh d p1) := by
  unfold Device.clusterRefresh
  apply calm_foldl
  · intro v59
    intro v58
    intro w57
    refine Device.unitRefresh_calm ?_
    assumption
  · refine Device.unitRefresh_calm ?_
    assumption
/-! MemHook. -/
theorem Device.setMem_calm {e : Eff} {a : Device} {d : Device} {p1 : Mem} (h : Calm e a d) (e_u26 : Lets (e.unit 26) := by first | assumption | exact ⟨rfl⟩) : Calm e a (Device.setMem d p1) := by
  unfold Device.setMem
  refine Calm.upd_mem ?_
  assumption
theorem Device.memCe_calm {e : Eff} {a : Device} {d : Device} {p1 : ℕ} {p2 : ℕ} {p3 : Word} (h : Calm e a d) (e_u26 : Lets (e.unit 26) := by first | assumption | exact ⟨rfl⟩) : Calm e a (Device.memCe d p1 p2 p3) := by
  unfold Device.memCe
  extract_lets x6000 x6001 x6002 x6003 x6004 x6005 x6006
  clear_value x6000
  clear_value x6001
  have hx6002 : Calm e a x6002 := by
    unfold x6002
    refine Device.setMem_calm ?_
    assumption
  clear_value x6002
  have hx6003 : Calm e a x6003 := by
    unfold x6003
    refine Device.wr_calm ?_
    refine Device.wr_calm ?_
    assumption
  clear_value x6003
  have hx6004 : Calm e a x6004 := by
    unfold x6004
    split
    · refine Device.count_calm ?_
      assumption
    · refine Device.count_calm ?_
      refine Device.count_calm ?_
      assumption
  clear_value x6004
  have hx6005 : Calm e a x6005 := by
    unfold x6005
    refine Device.raiseSec_calm ?_
    assumption
  clear_value x6005
  clear_value x6006
  refine Device.setMem_calm ?_
  assumption
theorem Device.grpError_calm {e : Eff} {a : Device} {d : Device} {p1 : ℕ} (h : Calm e a d) (e_u10 : Lets (e.unit 10) := by first | assumption | exact ⟨rfl⟩) (e_u26 : Lets (e.unit 26) := by first | assumption | exact ⟨rfl⟩) : Calm e a (Device.grpError d p1) := by
  unfold Device.grpError
  extract_lets x6000 x6001 x6002 x6003 x6004
  clear_value x6000
  clear_value x6001
  clear_value x6002
  have hx6003 : Calm e a x6003 := by
    unfold x6003
    refine Device.setMem_calm ?_
    assumption
  clear_value x6003
  have hx6004 : Calm e a x6004 := by
    unfold x6004
    refine Device.wr_calm ?_
    assumption
  clear_value x6004
  split
  · refine Device.clusterRefresh_calm ?_
    refine Device.raise_calm ?_
    assumption
  · assumption
theorem Device.lapUe_calm {e : Eff} {a : Device} {d : Device} (h : Calm e a d) (e_u26 : Lets (e.unit 26) := by first | assumption | exact ⟨rfl⟩) : Calm e a (Device.lapUe d) := by
  unfold Device.lapUe
  refine Device.setMem_calm ?_
  assumption
theorem Device.memUe_calm {e : Eff} {a : Device} {d : Device} {p1 : ℕ} {p2 : ℕ} {p3 : Word} {p4 : Bool} (h : Calm e a d) (e_u10 : Lets (e.unit 10) := by first | assumption | exact ⟨rfl⟩) (e_u26 : Lets (e.unit 26) := by first | assumption | exact ⟨rfl⟩) : Calm e a (Device.memUe d p1 p2 p3 p4) := by
  unfold Device.memUe
  extract_lets x1 x2 x3 x4 x5 x6
  clear_value x1
  clear_value x2
  have hx3 : Calm e a x3 := by
    unfold x3
    refine Device.setMem_calm ?_
    assumption
  clear_value x3
  have hx4 : Calm e a x4 := by
    unfold x4
    refine Device.wr_calm ?_
    refine Device.wr_calm ?_
    assumption
  clear_value x4
  have hx5 : Calm e a x5 := by
    unfold x5
    refine Device.raise_calm ?_
    split
    · refine Device.count_calm ?_
      assumption
    · refine Device.count_calm ?_
      assumption
  clear_value x5
  have hx6 : Calm e a x6 := by
    unfold x6
    split
    · refine Device.lapUe_calm ?_
      assumption
    · assumption
  clear_value x6
  split
  · refine Device.grpError_calm ?_
    assumption
  · assumption
theorem Device.burstUe_calm {e : Eff} {a : Device} {d : Device} {p1 : ℕ} {p2 : ℕ} {p3 : ℕ} {p4 : Word} {p5 : Bool} (h : Calm e a d) (e_u10 : Lets (e.unit 10) := by first | assumption | exact ⟨rfl⟩) (e_u26 : Lets (e.unit 26) := by first | assumption | exact ⟨rfl⟩) : Calm e a (Device.burstUe d p1 p2 p3 p4 p5) := by
  unfold Device.burstUe
  extract_lets x1
  have hx1 : Calm e a x1 := by
    unfold x1
    refine Device.memUe_calm ?_
    assumption
  clear_value x1
  split
  · refine Device.lapUe_calm ?_
    assumption
  · assumption
theorem Device.memRead_calm {e : Eff} {a : Device} {d : Device} {p1 : ℕ} {p2 : ℕ} {p3 : ℕ} (h : Calm e a d) (e_u10 : Lets (e.unit 10) := by first | assumption | exact ⟨rfl⟩) (e_u26 : Lets (e.unit 26) := by first | assumption | exact ⟨rfl⟩) : Calm e a (Device.memRead d p1 p2 p3) := by
  unfold Device.memRead
  split
  · assumption
  · extract_lets x1 x2
    clear_value x1
    clear_value x2
    split
    · refine Device.memCe_calm ?_
      refine Device.setMem_calm ?_
      assumption
    · split
      · refine Device.burstUe_calm ?_
        assumption
      · refine Device.memUe_calm ?_
        assumption
theorem Device.memClean_calm {e : Eff} {a : Device} {d : Device} {p1 : ℕ} {p2 : ℕ} (h : Calm e a d) (e_u26 : Lets (e.unit 26) := by first | assumption | exact ⟨rfl⟩) : Calm e a (Device.memClean d p1 p2) := by
  unfold Device.memClean
  refine Device.setMem_calm ?_
  assumption
theorem Device.memMark_calm {e : Eff} {a : Device} {d : Device} {p1 : ℕ} {p2 : ℕ} {p3 : ℕ} {p4 : Bool} (h : Calm e a d) (e_u26 : Lets (e.unit 26) := by first | assumption | exact ⟨rfl⟩) : Calm e a (Device.memMark d p1 p2 p3 p4) := by
  unfold Device.memMark
  refine Device.setMem_calm ?_
  assumption
/-! Heat. -/
theorem Device.setPfa_calm {e : Eff} {a : Device} {d : Device} {p1 : Pfa} (h : Calm e a d) (e_u8 : Lets (e.unit 8) := by first | assumption | exact ⟨rfl⟩) : Calm e a (Device.setPfa d p1) := by
  unfold Device.setPfa
  refine Calm.upd_pfa ?_
  assumption
theorem Device.setLap_calm {e : Eff} {a : Device} {d : Device} {p1 : Lap} (h : Calm e a d) (e_u8 : Lets (e.unit 8) := by first | assumption | exact ⟨rfl⟩) : Calm e a (Device.setLap d p1) := by
  unfold Device.setLap
  refine Device.setPfa_calm ?_
  assumption
theorem Device.delLap_calm {e : Eff} {a : Device} {d : Device} {p1 : ℕ} {p2 : ℕ} (h : Calm e a d) (e_u8 : Lets (e.unit 8) := by first | assumption | exact ⟨rfl⟩) : Calm e a (Device.delLap d p1 p2) := by
  unfold Device.delLap
  refine Device.setPfa_calm ?_
  assumption
theorem Device.setRun_calm {e : Eff} {a : Device} {d : Device} {p1 : ℕ} {p2 : HeatRun} (h : Calm e a d) (e_u8 : Lets (e.unit 8) := by first | assumption | exact ⟨rfl⟩) : Calm e a (Device.setRun d p1 p2) := by
  unfold Device.setRun
  refine Device.setPfa_calm ?_
  assumption
/-! TxQueue. -/
theorem Device.setPtx_calm {e : Eff} {a : Device} {d : Device} {p1 : ℕ} {p2 : PortTx} (h : Calm e a d) (e_u17 : Lets (e.unit 17) := by first | assumption | exact ⟨rfl⟩) : Calm e a (Device.setPtx d p1 p2) := by
  unfold Device.setPtx
  refine Calm.upd_egr ?_
  assumption
theorem Device.txPush_calm {e : Eff} {a : Device} {d : Device} {p1 : ℕ} {p2 : Bool} {p3 : TxItem} (h : Calm e a d) (e_u17 : Lets (e.unit 17) := by first | assumption | exact ⟨rfl⟩) : Calm e a (Device.txPush d p1 p2 p3) := by
  unfold Device.txPush
  split
  · assumption
  · extract_lets x5900
    clear_value x5900
    split
    · refine Device.setPtx_calm ?_
      assumption
    · refine Device.setPtx_calm ?_
      assumption
theorem Device.txStopAll_calm {e : Eff} {a : Device} {d : Device} (h : Calm e a d) (e_u17 : Lets (e.unit 17) := by first | assumption | exact ⟨rfl⟩) : Calm e a (Device.txStopAll d) := by
  unfold Device.txStopAll
  refine Calm.upd_egr ?_
  assumption
/-! Timekeeper. -/
theorem Device.setSrc_calm {e : Eff} {a : Device} {d : Device} {p1 : ℕ} {p2 : TkSrc} (h : Calm e a d) (e_u2 : Lets (e.unit 2) := by first | assumption | exact ⟨rfl⟩) : Calm e a (Device.setSrc d p1 p2) := by
  unfold Device.setSrc
  unfold Device.setTk
  refine Calm.upd_tk ?_
  assumption
theorem Device.setPtp_calm {e : Eff} {a : Device} {d : Device} {p1 : ℕ} {p2 : PtpPort} (h : Calm e a d) (e_u2 : Lets (e.unit 2) := by first | assumption | exact ⟨rfl⟩) : Calm e a (Device.setPtp d p1 p2) := by
  unfold Device.setPtp
  unfold Device.setTk
  refine Calm.upd_tk ?_
  assumption
theorem Device.tkRefresh_calm {e : Eff} {a : Device} {d : Device} (h : Calm e a d) (e_u2 : Lets (e.unit 2) := by first | assumption | exact ⟨rfl⟩) : Calm e a (Device.tkRefresh d) := by
  unfold Device.tkRefresh
  extract_lets x6000 x6001
  refine Device.setf_calm ?_
  refine Device.setf_calm ?_
  assumption
theorem Device.leapNote_calm {e : Eff} {a : Device} {d : Device} (h : Calm e a d) (e_u2 : Lets (e.unit 2) := by first | assumption | exact ⟨rfl⟩) : Calm e a (Device.leapNote d) := by
  unfold Device.leapNote
  split
  · unfold Device.setTk
    refine Calm.upd_tk ?_
    assumption
  · split
    · assumption
    · unfold Device.setTk
      refine Calm.upd_tk ?_
      assumption
theorem Device.setInc_calm {e : Eff} {a : Device} {d : Device} {p1 : ℕ} (h : Calm e a d) (e_u2 : Lets (e.unit 2) := by first | assumption | exact ⟨rfl⟩) : Calm e a (Device.setInc d p1) := by
  unfold Device.setInc
  split
  · assumption
  · unfold Device.setTk
    refine Calm.upd_tk ?_
    assumption
theorem Device.tkEnter_calm {e : Eff} {a : Device} {d : Device} {p1 : ℕ} {p2 : Option ℕ} (h : Calm e a d) (e_u2 : Lets (e.unit 2) := by first | assumption | exact ⟨rfl⟩) : Calm e a (Device.tkEnter d p1 p2) := by
  unfold Device.tkEnter
  split
  · assumption
  · extract_lets x5900 x5901 x5902 x5903 x5904 x5905 x5906 x5907 x5908
    clear_value x5900
    have hx5902 : Calm e a x5902 := by
      unfold x5902
      split
      · unfold Device.setTk
        refine Calm.upd_tk ?_
        assumption
      · assumption
    clear_value x5902
    have hx5904 : Calm e a x5904 := by
      unfold x5904
      unfold Device.setTk
      refine Calm.upd_tk ?_
      assumption
    clear_value x5904
    have hx5906 : Calm e a x5906 := by
      unfold x5906
      split
      · refine Device.setInc_calm ?_
        unfold Device.setTk
        refine Calm.upd_tk ?_
        assumption
      · split
        · refine Device.setInc_calm ?_
          assumption
        · assumption
    clear_value x5906
    have hx5907 : Calm e a x5907 := by
      unfold x5907
      refine Device.tkRefresh_calm ?_
      refine Device.setf_calm ?_
      assumption
    clear_value x5907
    have hx5908 : Calm e a x5908 := by
      unfold x5908
      refine Device.setf_calm ?_
      assumption
    clear_value x5908
    refine Device.raise_calm ?_
    assumption
theorem Device.tkSelect_calm {e : Eff} {a : Device} {d : Device} (h : Calm e a d) (e_u2 : Lets (e.unit 2) := by first | assumption | exact ⟨rfl⟩) : Calm e a (Device.tkSelect d) := by
  unfold Device.tkSelect
  extract_lets x1 x2 x3 x4 x5 x6
  clear_value x1
  clear_value x2
  clear_value x3
  have hx4 : Calm e a x4 := by
    unfold x4
    split
    · assumption
    · refine Device.raise_calm ?_
      refine Device.count_calm ?_
      refine Device.setf_calm ?_
      assumption
  clear_value x4
  have hx6 : Calm e a x6 := by
    unfold x6
    split
    · refine Device.tkEnter_calm ?_
      assumption
    · split
      · split
        · refine Device.tkEnter_calm ?_
          assumption
        · split
          · unfold Device.setTk
            refine Calm.upd_tk ?_
            assumption
          · assumption
      · split
        · refine Device.tkEnter_calm ?_
          assumption
        · refine Device.tkEnter_calm ?_
          assumption
        · assumption
  clear_value x6
  refine Device.tkRefresh_calm ?_
  refine Device.leapNote_calm ?_
  assumption
theorem Device.srcValid_calm {e : Eff} {a : Device} {d : Device} {p1 : ℕ} (h : Calm e a d) (e_u2 : Lets (e.unit 2) := by first | assumption | exact ⟨rfl⟩) : Calm e a (Device.srcValid d p1) := by
  unfold Device.srcValid
  extract_lets x6000
  clear_value x6000
  refine Device.setSrc_calm ?_
  assumption
theorem Device.srcLost_calm {e : Eff} {a : Device} {d : Device} {p1 : ℕ} (h : Calm e a d) (e_u2 : Lets (e.unit 2) := by first | assumption | exact ⟨rfl⟩) : Calm e a (Device.srcLost d p1) := by
  unfold Device.srcLost
  refine Device.tkSelect_calm ?_
  refine Device.setSrc_calm ?_
  assumption
theorem Device.tkOffset_calm {e : Eff} {a : Device} {d : Device} {p1 : ℕ} {p2 : ℤ} (h : Calm e a d) (e_u2 : Lets (e.unit 2) := by first | assumption | exact ⟨rfl⟩) : Calm e a (Device.tkOffset d p1 p2) := by
  unfold Device.tkOffset
  split
  · assumption
  · extract_lets x5900 x5901 x5902 x5903 x5904 x5905 x5906 x5907
    have hx5901 : Calm e a x5901 := by
      unfold x5901
      refine Device.setf_calm ?_
      unfold Device.setTk
      refine Calm.upd_tk ?_
      assumption
    clear_value x5901
    clear_value x5902
    clear_value x5904
    clear_value x5905
    have hx5906 : Calm e a x5906 := by
      unfold x5906
      refine Device.setInc_calm ?_
      unfold Device.setTk
      refine Calm.upd_tk ?_
      assumption
    clear_value x5906
    have hx5907 : Calm e a x5907 := by
      unfold x5907
      refine Calm.upd_free ?_
      assumption
    clear_value x5907
    split
    · refine Device.tkRefresh_calm ?_
      unfold Device.setTk
      refine Calm.upd_tk ?_
      assumption
    · split
      · split
        · refine Device.tkRefresh_calm ?_
          refine Device.tkEnter_calm ?_
          assumption
        · refine Device.tkRefresh_calm ?_
          assumption
      · refine Device.tkRefresh_calm ?_
        assumption
theorem Device.leapRenew_calm {e : Eff} {a : Device} {d : Device} {p1 : ℤ} (h : Calm e a d) (e_u2 : Lets (e.unit 2) := by first | assumption | exact ⟨rfl⟩) : Calm e a (Device.leapRenew d p1) := by
  unfold Device.leapRenew
  split
  · assumption
  · refine Device.leapNote_calm ?_
    unfold Device.setTk
    refine Calm.upd_tk ?_
    assumption
theorem Device.tkStep_calm {e : Eff} {a : Device} {d : Device} {p1 : ℤ} {p2 : ℕ} (h : Calm e a d) (e_now : Lets e.now := by first | assumption | exact ⟨rfl⟩) (e_dd : Lets e.dd := by first | assumption | exact ⟨rfl⟩) (e_jnl : Lets e.jnl := by first | assumption | exact ⟨rfl⟩) (e_u2 : Lets (e.unit 2) := by first | assumption | exact ⟨rfl⟩) : Calm e a (Device.tkStep d p1 p2) := by
  unfold Device.tkStep
  extract_lets x1 x2 x3 x4
  clear_value x1
  clear_value x2
  have hx4 : Calm e a x4 := by
    unfold x4
    refine Device.leapRenew_calm ?_
    unfold Device.setTk
    refine Calm.upd_tk ?_
    assumption
  clear_value x4
  refine Device.journalW_calm ?_
  refine Device.raise_calm ?_
  refine Device.count_calm ?_
  assumption
theorem Device.strideTakes_calm {e : Eff} {a : Device} {d : Device} {p1 : ℕ} (h : Calm e a d) (e_u2 : Lets (e.unit 2) := by first | assumption | exact ⟨rfl⟩) : Calm e a (Device.strideTakes d p1) := by
  unfold Device.strideTakes
  extract_lets x1 x2
  clear_value x1
  have hx2 : Calm e a x2 := by
    unfold x2
    split
    · refine Device.setPtp_calm ?_
      assumption
    · assumption
  clear_value x2
  split
  · assumption
  · refine Calm.upd_free ?_
    assumption
theorem clkTkTick_calm {e : Eff} {a : Device} {d : Device} (h : Calm e a d) (e_now : Lets e.now := by first | assumption | exact ⟨rfl⟩) (e_dd : Lets e.dd := by first | assumption | exact ⟨rfl⟩) (e_jnl : Lets e.jnl := by first | assumption | exact ⟨rfl⟩) (e_u2 : Lets (e.unit 2) := by first | assumption | exact ⟨rfl⟩) (e_u10 : Lets (e.unit 10) := by first | assumption | exact ⟨rfl⟩) : Calm e a (clkTkTick d) := by
  unfold clkTkTick
  split
  · assumption
  · extract_lets x1 x2 x3 x4 x5 x6 x7 x8 x9
    clear_value x1
    clear_value x2
    clear_value x4
    clear_value x5
    have hx6 : Calm e a x6 := by
      unfold x6
      unfold Device.setTk
      refine Calm.upd_tk ?_
      assumption
    clear_value x6
    have hx7 : Calm e a x7 := by
      unfold x7
      split
      · refine Device.tkStep_calm ?_
        assumption
      · assumption
    clear_value x7
    clear_value x8
    have hx9 : Calm e a x9 := by
      unfold x9
      apply calm_foldl
      · intro v10
        intro v11
        intro v12
        refine Device.strideTakes_calm ?_
        assumption
      · refine Calm.upd_srt ?_
        assumption
    clear_value x9
    split
    · assumption
    · split
      · refine Device.count_calm ?_
        assumption
      · assumption
theorem tkCtlWrite_calm {e : Eff} {a : Device} {p0 : Word} {d : Device} (h : Calm e a d) (e_u2 : Lets (e.unit 2) := by first | assumption | exact ⟨rfl⟩) : Calm e a (tkCtlWrite p0 d) := by
  unfold tkCtlWrite
  extract_lets x6000 x6001 x6002 x6003 x6004
  clear_value x6000
  clear_value x6001
  clear_value x6002
  have hx6003 : Calm e a x6003 := by
    unfold x6003
    refine Device.wr_calm ?_
    assumption
  clear_value x6003
  have hx6004 : Calm e a x6004 := by
    unfold x6004
    split
    · refine Device.setInc_calm ?_
      refine Device.tkSelect_calm ?_
      assumption
    · refine Device.tkSelect_calm ?_
      assumption
  clear_value x6004
  split
  · refine Device.err_calm ?_
    assumption
  · assumption
theorem tkIncFracWrite_calm {e : Eff} {a : Device} {p0 : Word} {d : Device} (h : Calm e a d) (e_u2 : Lets (e.unit 2) := by first | assumption | exact ⟨rfl⟩) : Calm e a (tkIncFracWrite p0 d) := by
  unfold tkIncFracWrite
  split
  · assumption
  · split
    · refine Device.err_calm ?_
      assumption
    · extract_lets x1 x2
      clear_value x1
      refine Device.setInc_calm ?_
      unfold Device.setTk
      refine Calm.upd_tk ?_
      refine Device.wr_calm ?_
      assumption
theorem tkCmdWrite_calm {e : Eff} {a : Device} {p0 : Word} {d : Device} (h : Calm e a d) (e_u2 : Lets (e.unit 2) := by first | assumption | exact ⟨rfl⟩) : Calm e a (tkCmdWrite p0 d) := by
  unfold tkCmdWrite
  split
  · assumption
  · split
    · refine Device.err_calm ?_
      assumption
    · extract_lets x5800 x5801 x5802 x5803
      clear_value x5800
      clear_value x5801
      clear_value x5802
      split
      · refine Device.err_calm ?_
        assumption
      · unfold Device.setTk
        refine Calm.upd_tk ?_
        assumption
theorem tkUtcWrite_calm {e : Eff} {a : Device} {p0 : Word} {d : Device} (h : Calm e a d) (e_u2 : Lets (e.unit 2) := by first | assumption | exact ⟨rfl⟩) : Calm e a (tkUtcWrite p0 d) := by
  unfold tkUtcWrite
  split
  · assumption
  · refine Device.leapNote_calm ?_
    unfold Device.setTk
    refine Calm.upd_tk ?_
    refine Device.wr_calm ?_
    assumption
theorem tkPtpWrite_calm {e : Eff} {a : Device} {p0 : Word} {d : Device} (h : Calm e a d) (e_u2 : Lets (e.unit 2) := by first | assumption | exact ⟨rfl⟩) : Calm e a (tkPtpWrite p0 d) := by
  unfold tkPtpWrite
  split
  · refine Device.err_calm ?_
    assumption
  · split
    · assumption
    · extract_lets x5800
      clear_value x5800
      refine Device.wr_calm ?_
      assumption
theorem Device.bmca_calm {e : Eff} {a : Device} {d : Device} (h : Calm e a d) (e_u2 : Lets (e.unit 2) := by first | assumption | exact ⟨rfl⟩) (e_u4 : Lets (e.unit 4) := by first | assumption | exact ⟨rfl⟩) : Calm e a (Device.bmca d) := by
  unfold Device.bmca
  extract_lets x1 x2 x3 x4 x5 x6 x7 x8 x9
  clear_value x1
  clear_value x2
  have hx3 : Calm e a x3 := by
    unfold x3
    apply calm_foldl
    · intro v10
      intro v11
      intro v12
      refine Device.setf_calm ?_
      assumption
    · assumption
  clear_value x3
  clear_value x4
  clear_value x5
  clear_value x6
  clear_value x7
  have hx8 : Calm e a x8 := by
    unfold x8
    split
    · refine Device.srcValid_calm ?_
      assumption
    · split
      · refine Device.srcLost_calm ?_
        assumption
      · assumption
  clear_value x8
  refine Device.tkRefresh_calm ?_
  refine Device.leapNote_calm ?_
  unfold Device.setTk
  refine Calm.upd_tk ?_
  assumption
theorem ethPtpCfgWrite_calm {e : Eff} {a : Device} {p0 : ℕ} {p1 : Word} {d : Device} (h : Calm e a d) (e_u2 : Lets (e.unit 2) := by first | assumption | exact ⟨rfl⟩) (e_u4 : Lets (e.unit 4) := by first | assumption | exact ⟨rfl⟩) : Calm e a (ethPtpCfgWrite p0 p1 d) := by
  unfold ethPtpCfgWrite
  split
  · refine Device.setf_calm ?_
    assumption
  · extract_lets x5900 x5901 x5902 x5903 x5904
    clear_value x5900
    have hx5901 : Calm e a x5901 := by
      unfold x5901
      refine Device.wr_calm ?_
      assumption
    clear_value x5901
    clear_value x5902
    clear_value x5903
    have hx5904 : Calm e a x5904 := by
      unfold x5904
      split
      · assumption
      · refine Device.setf_calm ?_
        refine Device.setPtp_calm ?_
        assumption
    clear_value x5904
    refine Device.bmca_calm ?_
    assumption
theorem Device.ptpSend_calm {e : Eff} {a : Device} {d : Device} {p1 : ℕ} {p2 : List Byte} {p3 : optParam (Option ℕ) none} {p4 : optParam ℕ 0} {p5 : optParam Time 0} (h : Calm e a d) (e_u2 : Lets (e.unit 2) := by first | assumption | exact ⟨rfl⟩) (e_u17 : Lets (e.unit 17) := by first | assumption | exact ⟨rfl⟩) : Calm e a (Device.ptpSend d p1 p2 p3 p4 p5) := by
  unfold Device.ptpSend
  split
  · assumption
  · extract_lets x5900 x5901 x5902 x5903 x5904 x5905
    clear_value x5900
    clear_value x5903
    clear_value x5904
    have hx5905 : Calm e a x5905 := by
      unfold x5905
      split
      · refine Device.txPush_calm ?_
        assumption
      · refine Device.txPush_calm ?_
        assumption
    clear_value x5905
    refine Device.count_calm ?_
    assumption
theorem Device.ptpOffset_calm {e : Eff} {a : Device} {d : Device} {p1 : ℕ} {p2 : Time} {p3 : ℤ} {p4 : Time} (h : Calm e a d) (e_u2 : Lets (e.unit 2) := by first | assumption | exact ⟨rfl⟩) (e_u4 : Lets (e.unit 4) := by first | assumption | exact ⟨rfl⟩) : Calm e a (Device.ptpOffset d p1 p2 p3 p4) := by
  unfold Device.ptpOffset
  extract_lets x6000 x6001 x6002
  clear_value x6000
  have hx6001 : Calm e a x6001 := by
    unfold x6001
    refine Device.setPtp_calm ?_
    assumption
  clear_value x6001
  have hx6002 : Calm e a x6002 := by
    unfold x6002
    split
    · refine Device.bmca_calm ?_
      refine Device.setf_calm ?_
      assumption
    · assumption
  clear_value x6002
  split
  · assumption
  · extract_lets x5800
    clear_value x5800
    refine Device.tkOffset_calm ?_
    assumption
theorem Device.ptpDelay_calm {e : Eff} {a : Device} {d : Device} {p1 : ℕ} {p2 : ℤ} (h : Calm e a d) (e_u2 : Lets (e.unit 2) := by first | assumption | exact ⟨rfl⟩) (e_u4 : Lets (e.unit 4) := by first | assumption | exact ⟨rfl⟩) : Calm e a (Device.ptpDelay d p1 p2) := by
  unfold Device.ptpDelay
  extract_lets x6000
  clear_value x6000
  refine Device.setf_calm ?_
  refine Device.setPtp_calm ?_
  assumption
theorem Device.ptpRespond_calm {e : Eff} {a : Device} {d : Device} {p1 : ℕ} {p2 : List Byte} {p3 : Time} (h : Calm e a d) (e_u2 : Lets (e.unit 2) := by first | assumption | exact ⟨rfl⟩) (e_u17 : Lets (e.unit 17) := by first | assumption | exact ⟨rfl⟩) : Calm e a (Device.ptpRespond d p1 p2 p3) := by
  unfold Device.ptpRespond
  extract_lets x6000 x6001 x6002 x6003
  clear_value x6000
  clear_value x6001
  clear_value x6002
  have hx6003 : Calm e a x6003 := by
    unfold x6003
    refine Device.setPtp_calm ?_
    assumption
  clear_value x6003
  split
  · refine Device.ptpSend_calm ?_
    assumption
  · split
    · refine Device.ptpSend_calm ?_
      assumption
    · refine Device.ptpSend_calm ?_
      assumption
theorem Device.ptpTake_calm {e : Eff} {a : Device} {d : Device} {p1 : ℕ} {p2 : List Byte} {p3 : Time} (h : Calm e a d) (e_u2 : Lets (e.unit 2) := by first | assumption | exact ⟨rfl⟩) (e_u4 : Lets (e.unit 4) := by first | assumption | exact ⟨rfl⟩) (e_u17 : Lets (e.unit 17) := by first | assumption | exact ⟨rfl⟩) : Calm e a (Device.ptpTake d p1 p2 p3) := by
  unfold Device.ptpTake
  extract_lets x6000 x6001 x6002 x6003 x6004 x6005 x6006 x6007 x6008 x6009
  clear_value x6000
  clear_value x6001
  clear_value x6003
  clear_value x6004
  clear_value x6005
  clear_value x6006
  clear_value x6007
  clear_value x6008
  clear_value x6009
  split
  · split
    · assumption
    · refine Device.bmca_calm ?_
      refine Device.setPtp_calm ?_
      assumption
  · split
    · assumption
    · split
      · refine Device.setPtp_calm ?_
        assumption
      · refine Device.ptpOffset_calm ?_
        assumption
  · split
    · split
      · refine Device.ptpOffset_calm ?_
        refine Device.setPtp_calm ?_
        assumption
      · assumption
    · assumption
  · split
    · refine Device.ptpRespond_calm ?_
      assumption
    · assumption
  · refine Device.ptpRespond_calm ?_
    assumption
  · split
    · split
      · refine Device.ptpDelay_calm ?_
        refine Device.setPtp_calm ?_
        assumption
      · assumption
    · assumption
  · split
    · split
      · split
        · refine Device.setPtp_calm ?_
          assumption
        · refine Device.ptpDelay_calm ?_
          refine Device.setPtp_calm ?_
          assumption
      · assumption
    · assumption
  · split
    · split
      · refine Device.ptpDelay_calm ?_
        refine Device.setPtp_calm ?_
        assumption
      · assumption
    · assumption
  · assumption
theorem ptpMessageReceived_calm {e : Eff} {a : Device} {p0 : ℕ} {d : Device} (h : Calm e a d) (e_u2 : Lets (e.unit 2) := by first | assumption | exact ⟨rfl⟩) (e_u4 : Lets (e.unit 4) := by first | assumption | exact ⟨rfl⟩) (e_u17 : Lets (e.unit 17) := by first | assumption | exact ⟨rfl⟩) : Calm e a (ptpMessageReceived p0 d) := by
  unfold ptpMessageReceived
  split
  · assumption
  · extract_lets x5900 x5901
    clear_value x5900
    have hx5901 : Calm e a x5901 := by
      unfold x5901
      refine Calm.upd_ing ?_
      assumption
    clear_value x5901
    split
    · refine Device.count_calm ?_
      assumption
    · split
      · assumption
      · refine Device.ptpTake_calm ?_
        refine Device.count_calm ?_
        assumption
theorem ptpAnnounceTimeout_calm {e : Eff} {a : Device} {p0 : ℕ} {d : Device} (h : Calm e a d) (e_u2 : Lets (e.unit 2) := by first | assumption | exact ⟨rfl⟩) (e_u4 : Lets (e.unit 4) := by first | assumption | exact ⟨rfl⟩) : Calm e a (ptpAnnounceTimeout p0 d) := by
  unfold ptpAnnounceTimeout
  split
  · assumption
  · extract_lets x1 x2 x3 x4 x5
    clear_value x1
    clear_value x2
    clear_value x3
    have hx4 : Calm e a x4 := by
      unfold x4
      refine Device.setPtp_calm ?_
      assumption
    clear_value x4
    have hx5 : Calm e a x5 := by
      unfold x5
      split
      · refine Device.setf_calm ?_
        assumption
      · assumption
    clear_value x5
    split
    · split
      · refine Device.bmca_calm ?_
        refine Device.setPtp_calm ?_
        assumption
      · assumption
    · refine Device.bmca_calm ?_
      assumption
theorem ptpTransmit_calm {e : Eff} {a : Device} {p0 : ℕ} {p1 : ℕ} {d : Device} (h : Calm e a d) (e_u2 : Lets (e.unit 2) := by first | assumption | exact ⟨rfl⟩) (e_u17 : Lets (e.unit 17) := by first | assumption | exact ⟨rfl⟩) : Calm e a (ptpTransmit p0 p1 d) := by
  unfold ptpTransmit
  split
  · assumption
  · extract_lets x5900 x5901 x5902 x5903 x5904 x5905
    clear_value x5900
    clear_value x5901
    clear_value x5902
    clear_value x5903
    clear_value x5904
    clear_value x5905
    split
    · split
      · assumption
      · split
        · refine Device.ptpSend_calm ?_
          refine Device.setPtp_calm ?_
          assumption
        · refine Device.ptpSend_calm ?_
          refine Device.setPtp_calm ?_
          assumption
    · split
      · assumption
      · refine Device.ptpSend_calm ?_
        refine Device.setPtp_calm ?_
        assumption
    · split
      · assumption
      · refine Device.ptpSend_calm ?_
        refine Device.setPtp_calm ?_
        assumption
    · assumption
theorem Device.txPtpTake_calm {e : Eff} {a : Device} {d : Device} {p1 : ℕ} {p2 : TxStamp} (h : Calm e a d) (e_u2 : Lets (e.unit 2) := by first | assumption | exact ⟨rfl⟩) (e_u17 : Lets (e.unit 17) := by first | assumption | exact ⟨rfl⟩) : Calm e a (Device.txPtpTake d p1 p2) := by
  unfold Device.txPtpTake
  extract_lets x6000 x6001 x6002
  clear_value x6000
  have hx6001 : Calm e a x6001 := by
    unfold x6001
    refine Device.setPtp_calm ?_
    assumption
  clear_value x6001
  clear_value x6002
  split
  · assumption
  · split
    · refine Device.ptpSend_calm ?_
      assumption
    · refine Device.ptpSend_calm ?_
      assumption
    · split
      · split
        · refine Device.setPtp_calm ?_
          assumption
        · assumption
      · assumption
    · split
      · split
        · refine Device.setPtp_calm ?_
          assumption
        · assumption
      · assumption
theorem Device.txStamp_calm {e : Eff} {a : Device} {d : Device} {p1 : ℕ} {p2 : ℕ} {p3 : Time} (h : Calm e a d) (e_u2 : Lets (e.unit 2) := by first | assumption | exact ⟨rfl⟩) (e_u4 : Lets (e.unit 4) := by first | assumption | exact ⟨rfl⟩) (e_u17 : Lets (e.unit 17) := by first | assumption | exact ⟨rfl⟩) : Calm e a (Device.txStamp d p1 p2 p3) := by
  unfold Device.txStamp
  extract_lets x6000 x6001 x6002 x6003 x6004 x6005
  clear_value x6000
  clear_value x6001
  have hx6002 : Calm e a x6002 := by
    unfold x6002
    refine Device.count_calm ?_
    refine Device.setf_calm ?_
    assumption
  clear_value x6002
  have hx6003 : Calm e a x6003 := by
    unfold x6003
    refine Device.raiseSec_calm ?_
    assumption
  clear_value x6003
  clear_value x6004
  have hx6005 : Calm e a x6005 := by
    unfold x6005
    refine Device.setPtp_calm ?_
    assumption
  clear_value x6005
  split
  · split
    · refine Device.count_calm ?_
      assumption
    · refine Device.count_calm ?_
      assumption
    · assumption
  · split
    · refine Device.txPtpTake_calm ?_
      assumption
    · refine Device.setPtp_calm ?_
      assumption
theorem txtsIdRead_calm {e : Eff} {a : Device} {p0 : ℕ} {d : Device} (h : Calm e a d) (e_rd : Lets e.rd := by first | assumption | exact ⟨rfl⟩) (e_u2 : Lets (e.unit 2) := by first | assumption | exact ⟨rfl⟩) : Calm e a (txtsIdRead p0 d) := by
  unfold txtsIdRead
  extract_lets x6000
  clear_value x6000
  split
  · refine Calm.upd (d := d) ?_
    assumption
  · extract_lets x5800
    have hx5800 : Calm e a x5800 := by
      unfold x5800
      refine Device.setPtp_calm ?_
      assumption
    clear_value x5800
    refine Calm.upd (d := x5800) ?_
    assumption
theorem txtsPop_calm {e : Eff} {a : Device} {p0 : ℕ} {p1 : Word} {d : Device} (h : Calm e a d) (e_u2 : Lets (e.unit 2) := by first | assumption | exact ⟨rfl⟩) : Calm e a (txtsPop p0 p1 d) := by
  unfold txtsPop
  split
  · assumption
  · extract_lets x5900
    clear_value x5900
    refine Device.setPtp_calm ?_
    assumption
theorem tkNowRead_calm {e : Eff} {a : Device} {d : Device} (h : Calm e a d) (e_rd : Lets e.rd := by first | assumption | exact ⟨rfl⟩) (e_u2 : Lets (e.unit 2) := by first | assumption | exact ⟨rfl⟩) : Calm e a (tkNowRead d) := by
  unfold tkNowRead
  extract_lets x6000 x6001 x6002
  clear_value x6000
  have hx6002 : Calm e a x6002 := by
    unfold x6002
    unfold Device.setTk
    refine Calm.upd_tk ?_
    assumption
  clear_value x6002
  refine Calm.upd (d := x6002) ?_
  assumption
theorem Device.irigMiss_calm {e : Eff} {a : Device} {d : Device} (h : Calm e a d) (e_u2 : Lets (e.unit 2) := by first | assumption | exact ⟨rfl⟩) : Calm e a (Device.irigMiss d) := by
  unfold Device.irigMiss
  extract_lets x6000
  clear_value x6000
  split
  · split
    · refine Device.srcLost_calm ?_
      assumption
    · refine Device.setSrc_calm ?_
      assumption
  · refine Device.setSrc_calm ?_
    assumption
theorem irigFrame_calm {e : Eff} {a : Device} {p0 : ℕ} {p1 : List ℕ} {p2 : ℕ} {d : Device} (h : Calm e a d) (e_u2 : Lets (e.unit 2) := by first | assumption | exact ⟨rfl⟩) : Calm e a (irigFrame p0 p1 p2 d) := by
  unfold irigFrame
  split
  · assumption
  · extract_lets x1 x2 x3 x4 x5 x6 x7 x8 x9 x10 x11 x12
    clear_value x1
    clear_value x2
    clear_value x3
    clear_value x4
    clear_value x5
    have hx6 : ∀ q0, Calm e a q0 → Calm e a (x6 q0) := by
      intro v13 v14
      unfold x6
      unfold Device.setTk
      refine Calm.upd_tk ?_
      assumption
    clear_value x6
    have hx7 : Calm e a x7 := by
      unfold x7
      refine hx6 _ ?_
      assumption
    clear_value x7
    have hx8 : Calm e a x8 := by
      unfold x8
      refine Device.setSrc_calm ?_
      assumption
    clear_value x8
    have hx9 : Calm e a x9 := by
      unfold x9
      split
      · refine Device.srcValid_calm ?_
        assumption
      · assumption
    clear_value x9
    have hx10 : Calm e a x10 := by
      unfold x10
      refine Device.leapNote_calm ?_
      assumption
    clear_value x10
    clear_value x11
    clear_value x12
    split
    · refine Device.irigMiss_calm ?_
      refine Device.count_calm ?_
      assumption
    · split
      · refine Device.irigMiss_calm ?_
        refine Device.count_calm ?_
        assumption
      · split
        · refine hx6 _ ?_
          refine Device.srcLost_calm ?_
          assumption
        · refine Device.tkOffset_calm ?_
          assumption
theorem irigMissing_calm {e : Eff} {a : Device} {d : Device} (h : Calm e a d) (e_u2 : Lets (e.unit 2) := by first | assumption | exact ⟨rfl⟩) : Calm e a (irigMissing d) := by
  unfold irigMissing
  split
  · assumption
  · refine Device.irigMiss_calm ?_
    assumption
theorem ppsEdge_calm {e : Eff} {a d : Device} {r : Bool} {g : Nat} (h : Calm e a d) (e_u2 : Lets (e.unit 2) := by first | assumption | exact ⟨rfl⟩) : Calm e a (ppsEdge r g d) := by
  unfold ppsEdge
  split
  · exact h
  · dsimp only
    split
    · exact Device.setSrc_calm h
    · split
      · exact Device.count_calm h
      · exact Device.tkOffset_calm (Device.srcValid_calm (Device.setSrc_calm h))
theorem ppsMissed_calm {e : Eff} {a : Device} {d : Device} (h : Calm e a d) (e_u2 : Lets (e.unit 2) := by first | assumption | exact ⟨rfl⟩) : Calm e a (ppsMissed d) := by
  unfold ppsMissed
  split
  · assumption
  · extract_lets x5900
    clear_value x5900
    split
    · assumption
    · split
      · split
        · refine Device.srcLost_calm ?_
          assumption
        · refine Device.setSrc_calm ?_
          assumption
      · refine Device.setSrc_calm ?_
        assumption
theorem ppsOut_calm {e : Eff} {a : Device} {d : Device} (h : Calm e a d) (e_u2 : Lets (e.unit 2) := by first | assumption | exact ⟨rfl⟩) : Calm e a (ppsOut d) := by
  unfold ppsOut
  extract_lets x6000 x6001
  clear_value x6000
  split
  · assumption
  · refine Device.emit_calm ?_
    unfold Device.setTk
    refine Calm.upd_tk ?_
    assumption
theorem sourceQualified_calm {e : Eff} {a : Device} {p0 : ℕ} {d : Device} (h : Calm e a d) (e_u2 : Lets (e.unit 2) := by first | assumption | exact ⟨rfl⟩) : Calm e a (sourceQualified p0 d) := by
  unfold sourceQualified
  extract_lets x6000
  clear_value x6000
  split
  · assumption
  · split
    · assumption
    · refine Device.tkSelect_calm ?_
      refine Device.setSrc_calm ?_
      assumption
theorem syncLimit_calm {e : Eff} {a : Device} {d : Device} (h : Calm e a d) (e_u2 : Lets (e.unit 2) := by first | assumption | exact ⟨rfl⟩) : Calm e a (syncLimit d) := by
  unfold syncLimit
  split
  · refine Device.tkRefresh_calm ?_
    assumption
  · assumption
theorem unlockExpiry_calm {e : Eff} {a : Device} {d : Device} (h : Calm e a d) (e_u2 : Lets (e.unit 2) := by first | assumption | exact ⟨rfl⟩) : Calm e a (unlockExpiry d) := by
  unfold unlockExpiry
  split
  · refine Device.setf_calm ?_
    assumption
  · assumption
theorem leapApply_calm {e : Eff} {a : Device} {d : Device} (h : Calm e a d) (e_u2 : Lets (e.unit 2) := by first | assumption | exact ⟨rfl⟩) : Calm e a (leapApply d) := by
  unfold leapApply
  split
  · assumption
  · extract_lets x5900 x5901 x5902 x5903 x5904 x5905 x5906
    clear_value x5901
    clear_value x5902
    clear_value x5903
    have hx5904 : Calm e a x5904 := by
      unfold x5904
      refine Device.setf_calm ?_
      refine Device.setf_calm ?_
      assumption
    clear_value x5904
    have hx5906 : Calm e a x5906 := by
      unfold x5906
      unfold Device.setTk
      refine Calm.upd_tk ?_
      assumption
    clear_value x5906
    split
    · assumption
    · refine Device.raise_calm ?_
      assumption
theorem mgtFrame_calm {e : Eff} {a : Device} {n0 : Nat} {p0 : List Byte} {d : Device} (h : Calm e a d) (e_u2 : Lets (e.unit 2) := by first | assumption | exact ⟨rfl⟩) : Calm e a (mgtFrame n0 p0 d) := by
  unfold mgtFrame
  split
  · assumption
  · split
    · refine Device.count_calm ?_
      assumption
    · refine Device.emit_calm ?_
      assumption
end Sys2Proof.Machine
end

