-- ==== Sys2Proof/Laws/CalmOutputs.lean ====
section
/-!
SUPPORT. One lemma per operation of energy, the key store, publications, egress, HOLD and hurdles (Machine/Energy, Keystore, Goose, Egress, Hold, Hurdles): what the
operation may touch, in the terms of Calm.
-/
namespace Sys2Proof.Machine
set_option Elab.async false
/-! Energy. -/
theorem Device.setNrg_calm {e : Eff} {a : Device} {d : Device} {p1 : Nrg} (h : Calm e a d) (e_u20 : Lets (e.unit 20) := by first | assumption | exact ⟨rfl⟩) : Calm e a (Device.setNrg d p1) := by
  unfold Device.setNrg
  refine Calm.upd_nrg ?_
  assumption
theorem Device.setPoint_calm {e : Eff} {a : Device} {d : Device} {p1 : ℕ} {p2 : PointSt} (h : Calm e a d) (e_u20 : Lets (e.unit 20) := by first | assumption | exact ⟨rfl⟩) : Calm e a (Device.setPoint d p1 p2) := by
  unfold Device.setPoint
  refine Device.setNrg_calm ?_
  assumption
theorem Device.nrgErr_calm {e : Eff} {a : Device} {d : Device} {p1 : ℕ} (h : Calm e a d) (e_u20 : Lets (e.unit 20) := by first | assumption | exact ⟨rfl⟩) : Calm e a (Device.nrgErr d p1) := by
  unfold Device.nrgErr
  refine Device.err_calm ?_
  assumption
theorem Device.ivWrite_calm {e : Eff} {a d : Device} {ws : List Word} (h : Calm e a d) {x : Device} (hx : d.ivWrite ws = some x) (e_u20 : Lets (e.unit 20) := by first | assumption | exact ⟨rfl⟩) (e_u23 : Lets (e.unit 23) := by first | assumption | exact ⟨rfl⟩) :
    Calm e a x := by
  unfold Device.ivWrite at hx
  extract_lets w at hx
  split at hx
  · cases hx
  · rename_i y hy
    cases hx
    refine Device.count_calm ?_
    exact (Device.cqRecord_calm h hy).upd
theorem Device.ivDrop_calm {e : Eff} {a : Device} {d : Device} {p1 : ℕ} (h : Calm e a d) (e_u20 : Lets (e.unit 20) := by first | assumption | exact ⟨rfl⟩) : Calm e a (Device.ivDrop d p1) := by
  unfold Device.ivDrop
  extract_lets x1 x2
  clear_value x1
  have hx2 : Calm e a x2 := by
    unfold x2
    refine Device.count_calm ?_
    refine Device.setNrg_calm ?_
    assumption
  clear_value x2
  split
  · assumption
  · refine Device.raise_calm ?_
    assumption
theorem Device.ivDeliver_calm {e : Eff} {a : Device} {d : Device} {p1 : ℕ} {p2 : List Word} (h : Calm e a d) (e_u20 : Lets (e.unit 20) := by first | assumption | exact ⟨rfl⟩) (e_u23 : Lets (e.unit 23) := by first | assumption | exact ⟨rfl⟩) : Calm e a (Device.ivDeliver d p1 p2) := by
  unfold Device.ivDeliver
  split
  · assumption
  · extract_lets x1 x2
    clear_value x1
    have hx2 : Calm e a x2 := by
      unfold x2
      split
      · refine Device.ivDrop_calm ?_
        assumption
      · refine Device.setNrg_calm ?_
        assumption
    clear_value x2
    split
    · assumption
    · split
      · rename_i w3 w4 w5
        have hw4 : Calm e a w4 := Device.ivWrite_calm (by assumption) w5
        assumption
      · rename_i w6 w7
        assumption
theorem nrgDrainF_calm {e : Eff} {a : Device} {p0 : ℕ} {d : Device} (h : Calm e a d) (e_u20 : Lets (e.unit 20) := by first | assumption | exact ⟨rfl⟩) (e_u23 : Lets (e.unit 23) := by first | assumption | exact ⟨rfl⟩) : Calm e a (nrgDrainF p0 d) := by
  induction p0 generalizing d
  · unfold nrgDrainF
    assumption
  · rename_i n ih
    unfold nrgDrainF
    split
    · assumption
    · split
      · assumption
      · split
        · assumption
        · apply ih
          refine Device.setNrg_calm ?_
          refine Device.ivWrite_calm ?_ (by assumption)
          assumption
theorem intervalRecordDrain_calm {e : Eff} {a : Device} {d : Device} (h : Calm e a d) (e_u20 : Lets (e.unit 20) := by first | assumption | exact ⟨rfl⟩) (e_u23 : Lets (e.unit 23) := by first | assumption | exact ⟨rfl⟩) : Calm e a (intervalRecordDrain d) := by
  unfold intervalRecordDrain
  refine nrgDrainF_calm ?_
  assumption
theorem Device.ivEnd_calm {e : Eff} {a : Device} {d : Device} {p1 : ℕ} {p2 : Interval} {p3 : Time} {p4 : Bool} {p5 : Bool} (h : Calm e a d) (e_u20 : Lets (e.unit 20) := by first | assumption | exact ⟨rfl⟩) (e_u23 : Lets (e.unit 23) := by first | assumption | exact ⟨rfl⟩) : Calm e a (Device.ivEnd d p1 p2 p3 p4 p5) := by
  unfold Device.ivEnd
  extract_lets x1
  clear_value x1
  refine Device.ivDeliver_calm ?_
  refine Device.countN_calm ?_
  assumption
theorem intervalClose_calm {e : Eff} {a : Device} {p0 : ℕ} {d : Device} (h : Calm e a d) (e_u20 : Lets (e.unit 20) := by first | assumption | exact ⟨rfl⟩) (e_u23 : Lets (e.unit 23) := by first | assumption | exact ⟨rfl⟩) : Calm e a (intervalClose p0 d) := by
  unfold intervalClose
  extract_lets x1 x2
  clear_value x1
  clear_value x2
  split
  · assumption
  · extract_lets x3 x4
    clear_value x3
    clear_value x4
    split
    · assumption
    · refine Device.ivEnd_calm ?_
      refine Device.setPoint_calm ?_
      assumption
theorem Device.ivCloseAll_calm {e : Eff} {a : Device} {d : Device} {p1 : ℕ} {p2 : Bool} {p3 : Bool} (h : Calm e a d) (e_u20 : Lets (e.unit 20) := by first | assumption | exact ⟨rfl⟩) (e_u23 : Lets (e.unit 23) := by first | assumption | exact ⟨rfl⟩) : Calm e a (Device.ivCloseAll d p1 p2 p3) := by
  unfold Device.ivCloseAll
  extract_lets x1
  clear_value x1
  apply calm_foldl
  · intro v2
    intro v3
    intro v4
    refine Device.ivEnd_calm ?_
    assumption
  · refine Device.setPoint_calm ?_
    assumption
theorem Device.setPulse_calm {e : Eff} {a : Device} {d : Device} {p1 : ℕ} {p2 : PulseSt} (h : Calm e a d) (e_u20 : Lets (e.unit 20) := by first | assumption | exact ⟨rfl⟩) : Calm e a (Device.setPulse d p1 p2) := by
  unfold Device.setPulse
  refine Device.setNrg_calm ?_
  assumption
theorem Device.poShow_calm {e : Eff} {a : Device} {d : Device} {p1 : ℕ} (h : Calm e a d) (e_u20 : Lets (e.unit 20) := by first | assumption | exact ⟨rfl⟩) : Calm e a (Device.poShow d p1) := by
  unfold Device.poShow
  refine Device.hwm_calm ?_
  refine Device.setf_calm ?_
  assumption
theorem Device.poDrive_calm {e : Eff} {a : Device} {d : Device} {p1 : ℕ} {p2 : Bool} (h : Calm e a d) : Calm e a (Device.poDrive d p1 p2) := by
  unfold Device.poDrive
  split
  · refine Device.emit_calm ?_
    assumption
  · assumption
theorem Device.poStart_calm {e : Eff} {a : Device} {d : Device} {p1 : ℕ} (h : Calm e a d) (e_u20 : Lets (e.unit 20) := by first | assumption | exact ⟨rfl⟩) : Calm e a (Device.poStart d p1) := by
  unfold Device.poStart
  extract_lets x6000
  clear_value x6000
  split
  · refine Device.poDrive_calm ?_
    refine Device.poShow_calm ?_
    refine Device.setPulse_calm ?_
    assumption
  · assumption
theorem Device.poFeed_calm {e : Eff} {a : Device} {d : Device} {p1 : ℕ} {p2 : ℕ} {p3 : ℕ} (h : Calm e a d) (e_u20 : Lets (e.unit 20) := by first | assumption | exact ⟨rfl⟩) : Calm e a (Device.poFeed d p1 p2 p3) := by
  unfold Device.poFeed
  extract_lets x6000 x6001 x6002 x6003 x6004 x6005 x6006 x6007 x6008 x6009
  clear_value x6000
  clear_value x6001
  clear_value x6002
  clear_value x6003
  clear_value x6004
  clear_value x6005
  have hx6006 : Calm e a x6006 := by
    unfold x6006
    refine Device.poShow_calm ?_
    refine Device.setPulse_calm ?_
    assumption
  clear_value x6006
  have hx6007 : Calm e a x6007 := by
    unfold x6007
    refine Device.raiseSec_calm ?_
    refine Device.countN_calm ?_
    assumption
  clear_value x6007
  clear_value x6008
  have hx6009 : Calm e a x6009 := by
    unfold x6009
    split
    · assumption
    · refine Device.setNrg_calm ?_
      assumption
  clear_value x6009
  split
  · assumption
  · refine Device.poStart_calm ?_
    assumption
theorem Device.poBase_calm {e : Eff} {a : Device} {d : Device} {p1 : ℕ} (h : Calm e a d) (e_u20 : Lets (e.unit 20) := by first | assumption | exact ⟨rfl⟩) : Calm e a (Device.poBase d p1) := by
  unfold Device.poBase
  extract_lets x6000 x6001
  clear_value x6000
  clear_value x6001
  refine Device.setPulse_calm ?_
  assumption
theorem poCfgWrite_calm {e : Eff} {a : Device} {p0 : ℕ} {p1 : Word} {d : Device} (h : Calm e a d) (e_u20 : Lets (e.unit 20) := by first | assumption | exact ⟨rfl⟩) : Calm e a (poCfgWrite p0 p1 d) := by
  unfold poCfgWrite
  split
  · split
    · refine Device.nrgErr_calm ?_
      assumption
    · refine Device.poShow_calm ?_
      refine Device.setPulse_calm ?_
      refine Device.setf_calm ?_
      assumption
  · split
    · refine Device.nrgErr_calm ?_
      assumption
    · extract_lets x1
      have hx1 : Calm e a x1 := by
        unfold x1
        refine Device.wr_calm ?_
        assumption
      clear_value x1
      split
      · refine Device.poStart_calm ?_
        refine Device.poShow_calm ?_
        refine Device.poBase_calm ?_
        assumption
      · assumption
theorem poQWrite_calm {e : Eff} {a : Device} {p0 : ℕ} {p1 : Word} {d : Device} (h : Calm e a d) (e_u20 : Lets (e.unit 20) := by first | assumption | exact ⟨rfl⟩) : Calm e a (poQWrite p0 p1 d) := by
  unfold poQWrite
  split
  · refine Device.nrgErr_calm ?_
    assumption
  · refine Device.wr_calm ?_
    assumption
theorem pulsePhaseEnd_calm {e : Eff} {a : Device} {p0 : ℕ} {d : Device} (h : Calm e a d) (e_u20 : Lets (e.unit 20) := by first | assumption | exact ⟨rfl⟩) : Calm e a (pulsePhaseEnd p0 d) := by
  unfold pulsePhaseEnd
  extract_lets x1
  clear_value x1
  split
  · assumption
  · split
    · assumption
    · refine Device.poDrive_calm ?_
      refine Device.count_calm ?_
      refine Device.setPulse_calm ?_
      assumption
  · split
    · assumption
    · refine Device.poStart_calm ?_
      refine Device.setPulse_calm ?_
      assumption
theorem Device.nrgAdd_calm {e : Eff} {a : Device} {d : Device} {p1 : ℕ} {p2 : ℕ} {p3 : ℕ} {p4 : ℕ} (h : Calm e a d) (e_u20 : Lets (e.unit 20) := by first | assumption | exact ⟨rfl⟩) : Calm e a (Device.nrgAdd d p1 p2 p3 p4) := by
  unfold Device.nrgAdd
  split
  · assumption
  · extract_lets x5900 x5901 x5902
    clear_value x5900
    clear_value x5901
    clear_value x5902
    apply calm_foldl
    · intro v57
      intro v56
      intro w55
      refine Device.poFeed_calm ?_
      assumption
    · refine Device.setPoint_calm ?_
      assumption
theorem Device.nrgAddPower_calm {e : Eff} {a : Device} {d : Device} {p1 : ℕ} {p2 : ℕ} {p3 : ℕ} {p4 : ℕ} {p5 : ℕ} (h : Calm e a d) (e_u20 : Lets (e.unit 20) := by first | assumption | exact ⟨rfl⟩) : Calm e a (Device.nrgAddPower d p1 p2 p3 p4 p5) := by
  unfold Device.nrgAddPower
  extract_lets x6000 x6001
  clear_value x6000
  clear_value x6001
  refine Device.nrgAdd_calm ?_
  refine Device.setPoint_calm ?_
  assumption
theorem Device.nrgTake_calm {e : Eff} {a : Device} {d : Device} {p1 : ℕ} {p2 : List Word} {p3 : Time} {p4 : ℤ} {p5 : ℤ} {p6 : Bool} {p7 : ℕ} (h : Calm e a d) (e_u20 : Lets (e.unit 20) := by first | assumption | exact ⟨rfl⟩) : Calm e a (Device.nrgTake d p1 p2 p3 p4 p5 p6 p7) := by
  unfold Device.nrgTake
  extract_lets x6000 x6001 x6002 x6003 x6004 x6005 x6006 x6007 x6008 x6009 x6010
  clear_value x6000
  clear_value x6001
  clear_value x6002
  clear_value x6003
  clear_value x6004
  clear_value x6005
  clear_value x6006
  have hx6007 : Calm e a x6007 := by
    unfold x6007
    refine Device.setPoint_calm ?_
    assumption
  clear_value x6007
  have hx6008 : Calm e a x6008 := by
    unfold x6008
    refine Device.count_calm ?_
    split
    · refine Device.count_calm ?_
      assumption
    · assumption
  clear_value x6008
  have hx6009 : Calm e a x6009 := by
    unfold x6009
    split
    · refine Device.nrgAddPower_calm ?_
      assumption
    · assumption
  clear_value x6009
  clear_value x6010
  split
  · assumption
  · refine Device.nrgAddPower_calm ?_
    assumption
theorem Device.gsTouch_calm {e : Eff} {a : Device} {d : Device} {p1 : ℕ} {p2 : ℕ} {p3 : ℕ} {p4 : List (ℕ × ℕ)} (h : Calm e a d) (e_u10 : Lets (e.unit 10) := by first | assumption | exact ⟨rfl⟩) (e_u26 : Lets (e.unit 26) := by first | assumption | exact ⟨rfl⟩) : Calm e a (Device.gsTouch d p1 p2 p3 p4) := by
  unfold Device.gsTouch
  split
  · assumption
  · apply calm_foldl
    · intro v1
      intro v2
      intro v3
      refine Device.memRead_calm ?_
      assumption
    · assumption
theorem Device.nrgMiss_calm {e : Eff} {a : Device} {d : Device} {p1 : ℕ} {p2 : List Word} {p3 : Time} (h : Calm e a d) (e_u20 : Lets (e.unit 20) := by first | assumption | exact ⟨rfl⟩) : Calm e a (Device.nrgMiss d p1 p2 p3) := by
  unfold Device.nrgMiss
  extract_lets x1 x2 x3
  clear_value x1
  clear_value x2
  clear_value x3
  refine Device.count_calm ?_
  refine Device.setPoint_calm ?_
  assumption
theorem Device.energyLap_calm {e : Eff} {a : Device} {d : Device} {p1 : ℕ} {p2 : ℕ} (h : Calm e a d) (e_u10 : Lets (e.unit 10) := by first | assumption | exact ⟨rfl⟩) (e_u20 : Lets (e.unit 20) := by first | assumption | exact ⟨rfl⟩) (e_u26 : Lets (e.unit 26) := by first | assumption | exact ⟨rfl⟩) : Calm e a (Device.energyLap d p1 p2) := by
  unfold Device.energyLap
  apply calm_foldl
  · intro v1
    intro v2
    intro v3
    extract_lets x4 x5 x6
    clear_value x4
    clear_value x5
    have hx6 : Calm e a x6 := by
      unfold x6
      refine Device.gsTouch_calm ?_
      assumption
    clear_value x6
    split
    · refine Device.nrgMiss_calm ?_
      assumption
    · split
      · refine Device.nrgMiss_calm ?_
        assumption
      · refine Device.nrgTake_calm ?_
        assumption
  · assumption
theorem Device.energySkip_calm {e : Eff} {a : Device} {d : Device} {p1 : ℕ} {p2 : ℕ} (h : Calm e a d) (e_u20 : Lets (e.unit 20) := by first | assumption | exact ⟨rfl⟩) : Calm e a (Device.energySkip d p1 p2) := by
  unfold Device.energySkip
  apply calm_foldl
  · intro v1
    intro v2
    intro v3
    refine Device.nrgMiss_calm ?_
    assumption
  · assumption
theorem Device.setPlsi_calm {e : Eff} {a : Device} {d : Device} {p1 : ℕ} {p2 : PulseIn} (h : Calm e a d) (e_u20 : Lets (e.unit 20) := by first | assumption | exact ⟨rfl⟩) : Calm e a (Device.setPlsi d p1 p2) := by
  unfold Device.setPlsi
  refine Device.setNrg_calm ?_
  assumption
theorem plsiLevel_calm {e : Eff} {a : Device} {p0 : ℕ} {p1 : Bool} {d : Device} (h : Calm e a d) (e_u20 : Lets (e.unit 20) := by first | assumption | exact ⟨rfl⟩) : Calm e a (plsiLevel p0 p1 d) := by
  unfold plsiLevel
  extract_lets x1 x2
  clear_value x1
  have hx2 : Calm e a x2 := by
    unfold x2
    refine Device.setPlsi_calm ?_
    assumption
  clear_value x2
  split
  · assumption
  · split
    · refine Device.setPlsi_calm ?_
      assumption
    · split
      · split
        · refine Device.count_calm ?_
          assumption
        · assumption
      · refine Device.setPlsi_calm ?_
        assumption
theorem Device.plsiPulse_calm {e : Eff} {a : Device} {d : Device} {p1 : ℕ} {p2 : Time} (h : Calm e a d) (e_u20 : Lets (e.unit 20) := by first | assumption | exact ⟨rfl⟩) : Calm e a (Device.plsiPulse d p1 p2) := by
  unfold Device.plsiPulse
  split
  · assumption
  · extract_lets x5900 x5901
    clear_value x5900
    clear_value x5901
    refine Device.count_calm ?_
    refine Device.nrgAdd_calm ?_
    refine Device.setPoint_calm ?_
    assumption
theorem pulseAccept_calm {e : Eff} {a : Device} {p0 : ℕ} {d : Device} (h : Calm e a d) (e_dd : Lets e.dd := by first | assumption | exact ⟨rfl⟩) (e_jnl : Lets e.jnl := by first | assumption | exact ⟨rfl⟩) (e_u20 : Lets (e.unit 20) := by first | assumption | exact ⟨rfl⟩) : Calm e a (pulseAccept p0 d) := by
  unfold pulseAccept
  extract_lets x6000 x6001
  clear_value x6000
  have hx6001 : Calm e a x6001 := by
    unfold x6001
    refine Device.wr_calm ?_
    refine Device.setPlsi_calm ?_
    assumption
  clear_value x6001
  split
  · assumption
  · extract_lets x5800
    clear_value x5800
    split
    · assumption
    · split
      · refine Device.plsiPulse_calm ?_
        refine Device.journal_calm ?_
        assumption
      · assumption
theorem piCfgWrite_calm {e : Eff} {a : Device} {p0 : ℕ} {p1 : Word} {d : Device} (h : Calm e a d) (e_u20 : Lets (e.unit 20) := by first | assumption | exact ⟨rfl⟩) : Calm e a (piCfgWrite p0 p1 d) := by
  unfold piCfgWrite
  extract_lets x1 x2 x3
  clear_value x1
  have hx2 : Calm e a x2 := by
    unfold x2
    refine Device.wr_calm ?_
    assumption
  clear_value x2
  clear_value x3
  split
  · refine Device.nrgErr_calm ?_
    assumption
  · split
    · refine Device.nrgErr_calm ?_
      assumption
    · split
      · refine Device.setPlsi_calm ?_
        assumption
      · split
        · assumption
        · refine Device.setPlsi_calm ?_
          assumption
theorem nrgSnapRequest_calm {e : Eff} {a : Device} {p0 : ℕ} {d : Device} (h : Calm e a d) (e_u20 : Lets (e.unit 20) := by first | assumption | exact ⟨rfl⟩) : Calm e a (nrgSnapRequest p0 d) := by
  unfold nrgSnapRequest
  split
  · refine Device.nrgErr_calm ?_
    assumption
  · refine Device.setNrg_calm ?_
    assumption
theorem nrgSnapComplete_calm {e : Eff} {a : Device} {d : Device} (h : Calm e a d) (e_u20 : Lets (e.unit 20) := by first | assumption | exact ⟨rfl⟩) : Calm e a (nrgSnapComplete d) := by
  unfold nrgSnapComplete
  split
  · refine Device.count_calm ?_
    refine Device.setNrg_calm ?_
    assumption
  · assumption
theorem nrgSnapRelease_calm {e : Eff} {a : Device} {p0 : Word} {d : Device} (h : Calm e a d) (e_u20 : Lets (e.unit 20) := by first | assumption | exact ⟨rfl⟩) (e_u23 : Lets (e.unit 23) := by first | assumption | exact ⟨rfl⟩) : Calm e a (nrgSnapRelease p0 d) := by
  unfold nrgSnapRelease
  split
  · refine Device.count_calm ?_
    assumption
  · refine Device.setNrg_calm ?_
    assumption
theorem Device.nrgPoints_calm {e : Eff} {a : Device} {d : Device} (h : Calm e a d) (e_u20 : Lets (e.unit 20) := by first | assumption | exact ⟨rfl⟩) : Calm e a (Device.nrgPoints d) := by
  unfold Device.nrgPoints
  refine Device.setf_calm ?_
  assumption
theorem Device.pointLoaded_calm {e : Eff} {a : Device} {d : Device} {p1 : ℕ} {p2 : List Word} (h : Calm e a d) (e_u20 : Lets (e.unit 20) := by first | assumption | exact ⟨rfl⟩) (e_u23 : Lets (e.unit 23) := by first | assumption | exact ⟨rfl⟩) : Calm e a (Device.pointLoaded d p1 p2) := by
  unfold Device.pointLoaded
  extract_lets x6000 x6001 x6002
  clear_value x6000
  have hx6001 : Calm e a x6001 := by
    unfold x6001
    split
    · refine Device.ivCloseAll_calm ?_
      assumption
    · assumption
  clear_value x6001
  clear_value x6002
  refine Device.nrgPoints_calm ?_
  split
  · refine Device.setPoint_calm ?_
    assumption
  · assumption
theorem Device.pointPreset_calm {e : Eff} {a : Device} {d : Device} {p1 : ℕ} {p2 : List ℕ} (h : Calm e a d) (e_u20 : Lets (e.unit 20) := by first | assumption | exact ⟨rfl⟩) : Calm e a (Device.pointPreset d p1 p2) := by
  unfold Device.pointPreset
  extract_lets x1 x2
  clear_value x1
  have hx2 : Calm e a x2 := by
    unfold x2
    refine Device.setPoint_calm ?_
    assumption
  clear_value x2
  apply calm_foldl
  · intro v3
    intro v4
    intro v5
    apply calm_foldl
    · intro v6
      intro v7
      intro v8
      refine Device.poFeed_calm ?_
      assumption
    · assumption
  · assumption
theorem Device.energyRestore_calm {e : Eff} {a : Device} {d : Device} {p1 : SaveImage} (h : Calm e a d) (e_u20 : Lets (e.unit 20) := by first | assumption | exact ⟨rfl⟩) (e_u23 : Lets (e.unit 23) := by first | assumption | exact ⟨rfl⟩) : Calm e a (Device.energyRestore d p1) := by
  unfold Device.energyRestore
  extract_lets x1 x2 x3 x4 x5 x6
  clear_value x1
  have hx2 : Calm e a x2 := by
    unfold x2
    apply calm_foldl
    · intro v7
      intro v8
      intro v9
      refine Device.poShow_calm ?_
      refine Device.setPulse_calm ?_
      assumption
    · refine Device.setNrg_calm ?_
      assumption
  clear_value x2
  have hx3 : Calm e a x3 := by
    unfold x3
    apply calm_foldl
    · intro v10
      intro v11
      intro v12
      refine Device.ivCloseAll_calm ?_
      refine Device.setPoint_calm ?_
      assumption
    · assumption
  clear_value x3
  have hx4 : Calm e a x4 := by
    unfold x4
    apply calm_foldl
    · intro v13
      intro v14
      intro v15
      refine Device.poShow_calm ?_
      refine Device.setPulse_calm ?_
      assumption
    · assumption
  clear_value x4
  have hx5 : Calm e a x5 := by
    unfold x5
    apply calm_foldl
    · intro v16
      intro v17
      intro v18
      split
      · refine Device.setPoint_calm ?_
        assumption
      · assumption
    · assumption
  clear_value x5
  have hx6 : Calm e a x6 := by
    unfold x6
    apply calm_foldl
    · intro v19
      intro v20
      intro v21
      split
      · refine Device.poStart_calm ?_
        refine Device.poBase_calm ?_
        assumption
      · assumption
    · assumption
  clear_value x6
  refine Device.setf_calm ?_
  refine Device.setf_calm ?_
  assumption
theorem Device.energyRestoreFail_calm {e : Eff} {a : Device} {d : Device} (h : Calm e a d) (e_tab : Lets e.tab := by first | assumption | exact ⟨rfl⟩) (e_u20 : Lets (e.unit 20) := by first | assumption | exact ⟨rfl⟩) : Calm e a (Device.energyRestoreFail d) := by
  unfold Device.energyRestoreFail
  extract_lets x1 x2
  have hx1 : Calm e a x1 := by
    unfold x1
    apply calm_foldl
    · intro v3
      intro v4
      intro v5
      refine Device.setPoint_calm ?_
      refine Device.setEnt_calm ?_
      assumption
    · assumption
  clear_value x1
  have hx2 : Calm e a x2 := by
    unfold x2
    refine Device.nrgPoints_calm ?_
    refine Device.setf_calm ?_
    refine Device.setf_calm ?_
    assumption
  clear_value x2
  refine Device.raise_calm ?_
  refine Calm.upd_free ?_
  assumption
/-! Keystore. -/
theorem Device.keyErr_calm {e : Eff} {a : Device} {d : Device} {p1 : ℕ} (h : Calm e a d) (e_u24 : Lets (e.unit 24) := by first | assumption | exact ⟨rfl⟩) : Calm e a (Device.keyErr d p1) := by
  unfold Device.keyErr
  refine Device.err_calm ?_
  assumption
theorem Device.keyGate_calm {e : Eff} {a : Device} {d : Device} {p1 : Bool} {p2 : Device → Device} (gp2 : ∀ (y0 : Device), Sys2Proof.Machine.Calm e a y0 → Sys2Proof.Machine.Calm e a (p2 y0)) (h : Calm e a d) (e_u24 : Lets (e.unit 24) := by first | assumption | exact ⟨rfl⟩) : Calm e a (Device.keyGate d p1 p2) := by
  unfold Device.keyGate
  split
  · assumption
  · split
    · refine Device.keyErr_calm ?_
      assumption
    · split
      · refine Device.keyErr_calm ?_
        assumption
      · split
        · refine Device.keyErr_calm ?_
          assumption
        · apply gp2
          assumption
theorem keyWrite_calm {e : Eff} {a : Device} {p0 : ℕ} {p1 : ℕ} {d : Device} (h : Calm e a d) (e_key : Lets e.key := by first | assumption | exact ⟨rfl⟩) (e_u24 : Lets (e.unit 24) := by first | assumption | exact ⟨rfl⟩) : Calm e a (keyWrite p0 p1 d) := by
  unfold keyWrite
  extract_lets x6000 x6001 x6002 x6003 x6004 x6005 x6006 x6007
  clear_value x6000
  clear_value x6001
  clear_value x6002
  clear_value x6003
  clear_value x6004
  clear_value x6005
  clear_value x6006
  split
  · refine Device.keyErr_calm ?_
    assumption
  · refine Device.setf_calm ?_
    unfold Device.setKey
    refine Calm.upd_key ?_
    assumption
theorem keyErase_calm {e : Eff} {a : Device} {p0 : ℕ} {d : Device} (h : Calm e a d) (e_key : Lets e.key := by first | assumption | exact ⟨rfl⟩) (e_u24 : Lets (e.unit 24) := by first | assumption | exact ⟨rfl⟩) : Calm e a (keyErase p0 d) := by
  unfold keyErase
  extract_lets x6000 x6001 x6002 x6003 x6004
  clear_value x6000
  clear_value x6001
  clear_value x6003
  clear_value x6004
  split
  · refine Device.keyErr_calm ?_
    assumption
  · refine Device.count_calm ?_
    unfold Device.setKey
    refine Calm.upd_key ?_
    assumption
theorem keySetNext_calm {e : Eff} {a : Device} {p0 : ℕ} {d : Device} (h : Calm e a d) (e_u24 : Lets (e.unit 24) := by first | assumption | exact ⟨rfl⟩) : Calm e a (keySetNext p0 d) := by
  unfold keySetNext
  extract_lets x6000 x6001 x6002 x6003 x6004
  clear_value x6000
  clear_value x6001
  clear_value x6002
  clear_value x6003
  split
  · refine Device.keyErr_calm ?_
    assumption
  · split
    · refine Device.keyErr_calm ?_
      assumption
    · refine Device.setf_calm ?_
      unfold Device.setKey
      refine Calm.upd_key ?_
      assumption
theorem keyRoll_calm {e : Eff} {a : Device} {p0 : ℕ} {d : Device} (h : Calm e a d) (e_grp : Lets e.grp := by first | assumption | exact ⟨rfl⟩) (e_u24 : Lets (e.unit 24) := by first | assumption | exact ⟨rfl⟩) : Calm e a (keyRoll p0 d) := by
  unfold keyRoll
  extract_lets x6000 x6001
  clear_value x6000
  split
  · refine Device.keyErr_calm ?_
    assumption
  · refine Device.raise_calm ?_
    refine Device.count_calm ?_
    refine Device.count_calm ?_
    unfold Device.setKey
    refine Calm.upd_key ?_
    assumption
theorem keyClear_calm {e : Eff} {a : Device} {p0 : ℕ} {d : Device} (h : Calm e a d) (e_grp : Lets e.grp := by first | assumption | exact ⟨rfl⟩) (e_u24 : Lets (e.unit 24) := by first | assumption | exact ⟨rfl⟩) : Calm e a (keyClear p0 d) := by
  unfold keyClear
  refine Device.count_calm ?_
  unfold Device.setKey
  refine Calm.upd_key ?_
  assumption
theorem Device.privClose_calm {e : Eff} {a : Device} {d : Device} (h : Calm e a d) (e_u24 : Lets (e.unit 24) := by first | assumption | exact ⟨rfl⟩) : Calm e a (Device.privClose d) := by
  unfold Device.privClose
  refine Device.setf_calm ?_
  unfold Device.setKey
  refine Calm.upd_key ?_
  assumption
theorem keyCloseWindow_calm {e : Eff} {a : Device} {d : Device} (h : Calm e a d) (e_u24 : Lets (e.unit 24) := by first | assumption | exact ⟨rfl⟩) : Calm e a (keyCloseWindow d) := by
  unfold keyCloseWindow
  refine Device.count_calm ?_
  refine Device.privClose_calm ?_
  assumption
theorem keyComplete_calm {e : Eff} {a : Device} {d : Device} (h : Calm e a d) (e_key : Lets e.key := by first | assumption | exact ⟨rfl⟩) (e_grp : Lets e.grp := by first | assumption | exact ⟨rfl⟩) (e_u24 : Lets (e.unit 24) := by first | assumption | exact ⟨rfl⟩) : Calm e a (keyComplete d) := by
  unfold keyComplete
  split
  · assumption
  · extract_lets x5900 x5901 x5902
    have hx5901 : Calm e a x5901 := by
      unfold x5901
      refine Device.setf_calm ?_
      unfold Device.setKey
      refine Calm.upd_key ?_
      assumption
    clear_value x5901
    split
    · extract_lets x5700 x5701 x5702 x5703 x5704 x5705
      clear_value x5700
      clear_value x5701
      clear_value x5702
      clear_value x5703
      have hx5704 : Calm e a x5704 := by
        unfold x5704
        unfold Device.setKey
        refine Calm.upd_key ?_
        assumption
      clear_value x5704
      have hx5705 : Calm e a x5705 := by
        unfold x5705
        apply calm_foldl
        · intro v55
          intro v54
          intro w53
          refine Device.wr_calm ?_
          assumption
        · assumption
      clear_value x5705
      refine Device.raise_calm ?_
      refine Device.count_calm ?_
      assumption
    · refine Device.count_calm ?_
      unfold Device.setKey
      refine Calm.upd_key ?_
      assumption
theorem keyCmd_calm {e : Eff} {a : Device} {p0 : Bool} {p1 : Word} {d : Device} (h : Calm e a d) (e_key : Lets e.key := by first | assumption | exact ⟨rfl⟩) (e_grp : Lets e.grp := by first | assumption | exact ⟨rfl⟩) (e_u24 : Lets (e.unit 24) := by first | assumption | exact ⟨rfl⟩) : Calm e a (keyCmd p0 p1 d) := by
  unfold keyCmd
  refine Device.keyGate_calm ?_ ?_
  · intro v59
    intro w58
    split
    · refine keyWrite_calm ?_
      assumption
    · refine keyErase_calm ?_
      assumption
    · refine keySetNext_calm ?_
      assumption
    · refine keyRoll_calm ?_
      assumption
    · refine keyClear_calm ?_
      assumption
    · refine keyCloseWindow_calm ?_
      assumption
    · refine Device.keyErr_calm ?_
      assumption
  · assumption
theorem keyUnlock_calm {e : Eff} {a : Device} {p0 : Word} {d : Device} (h : Calm e a d) (e_u24 : Lets (e.unit 24) := by first | assumption | exact ⟨rfl⟩) : Calm e a (keyUnlock p0 d) := by
  unfold keyUnlock
  split
  · assumption
  · extract_lets x5900 x5901 x5902 x5903 x5904 x5905
    clear_value x5900
    clear_value x5901
    clear_value x5903
    have hx5904 : Calm e a x5904 := by
      unfold x5904
      refine Device.raise_calm ?_
      refine Device.count_calm ?_
      unfold Device.setKey
      refine Calm.upd_key ?_
      assumption
    clear_value x5904
    have hx5905 : Calm e a x5905 := by
      unfold x5905
      split
      · refine Device.setf_calm ?_
        assumption
      · assumption
    clear_value x5905
    split
    · refine Device.setf_calm ?_
      unfold Device.setKey
      refine Calm.upd_key ?_
      assumption
    · split
      · refine Device.keyErr_calm ?_
        assumption
      · assumption
theorem privExpiry_calm {e : Eff} {a : Device} {d : Device} (h : Calm e a d) (e_u24 : Lets (e.unit 24) := by first | assumption | exact ⟨rfl⟩) : Calm e a (privExpiry d) := by
  unfold privExpiry
  split
  · assumption
  · split
    · assumption
    · refine Device.privClose_calm ?_
      assumption
theorem keyAttCfgWrite_calm {e : Eff} {a : Device} {p0 : Word} {d : Device} (h : Calm e a d) (e_u24 : Lets (e.unit 24) := by first | assumption | exact ⟨rfl⟩) : Calm e a (keyAttCfgWrite p0 d) := by
  unfold keyAttCfgWrite
  split
  · refine Device.wr_calm ?_
    assumption
  · refine Device.keyErr_calm ?_
    assumption
theorem keyStatWrite_calm {e : Eff} {a : Device} {p0 : Word} {d : Device} (h : Calm e a d) (e_key : Lets e.key := by first | assumption | exact ⟨rfl⟩) (e_u24 : Lets (e.unit 24) := by first | assumption | exact ⟨rfl⟩) : Calm e a (keyStatWrite p0 d) := by
  unfold keyStatWrite
  extract_lets x6000 x6001
  have hx6000 : Calm e a x6000 := by
    unfold x6000
    split
    · refine Device.setf_calm ?_
      assumption
    · assumption
  clear_value x6000
  split
  · split
    · unfold Device.setKey
      refine Calm.upd_key ?_
      assumption
    · refine Device.keyErr_calm ?_
      assumption
  · assumption
theorem attestRequest_calm {e : Eff} {a : Device} {d : Device} (h : Calm e a d) (e_u24 : Lets (e.unit 24) := by first | assumption | exact ⟨rfl⟩) : Calm e a (attestRequest d) := by
  unfold attestRequest
  split
  · assumption
  · split
    · refine Device.keyErr_calm ?_
      assumption
    · split
      · refine Device.keyErr_calm ?_
        assumption
      · split
        · unfold Device.setKey
          refine Calm.upd_key ?_
          assumption
        · refine Device.keyErr_calm ?_
          assumption
theorem attestReady_calm {e : Eff} {a : Device} {d : Device} (h : Calm e a d) (e_u24 : Lets (e.unit 24) := by first | assumption | exact ⟨rfl⟩) : Calm e a (attestReady d) := by
  unfold attestReady
  split
  · assumption
  · refine Device.count_calm ?_
    unfold Device.setKey
    refine Calm.upd_key ?_
    assumption
theorem tamperZeroise_calm {e : Eff} {a : Device} {d : Device} (h : Calm e a d) (e_key : Lets e.key := by first | assumption | exact ⟨rfl⟩) (e_grp : Lets e.grp := by first | assumption | exact ⟨rfl⟩) (e_u24 : Lets (e.unit 24) := by first | assumption | exact ⟨rfl⟩) : Calm e a (tamperZeroise d) := by
  unfold tamperZeroise
  extract_lets x1 x2 x3 x4 x5
  have hx3 : Calm e a x3 := by
    unfold x3
    refine Device.privClose_calm ?_
    refine Device.setf_calm ?_
    unfold Device.setKey
    refine Calm.upd_key ?_
    assumption
  clear_value x3
  have hx4 : Calm e a x4 := by
    unfold x4
    split
    · apply calm_foldl
      · intro v6
        intro v7
        intro v8
        refine Device.wr_calm ?_
        assumption
      · assumption
    · assumption
  clear_value x4
  split
  · unfold Device.setKey
    refine Calm.upd_key ?_
    assumption
  · split
    · unfold Device.setKey
      refine Calm.upd_key ?_
      assumption
    · refine Device.raise_calm ?_
      assumption
theorem bootExtend_calm {e : Eff} {a : Device} {p0 : ℕ} {p1 : List Byte} {d : Device} (h : Calm e a d) (e_bd : Lets e.bd := by first | assumption | exact ⟨rfl⟩) (e_u24 : Lets (e.unit 24) := by first | assumption | exact ⟨rfl⟩) : Calm e a (bootExtend p0 p1 d) := by
  unfold bootExtend
  split
  · assumption
  · unfold Device.setKey
    refine Calm.upd_key ?_
    assumption
theorem vbatLoss_calm {e : Eff} {a : Device} {d : Device} (h : Calm e a d) (e_key : Lets e.key := by first | assumption | exact ⟨rfl⟩) (e_u24 : Lets (e.unit 24) := by first | assumption | exact ⟨rfl⟩) : Calm e a (vbatLoss d) := by
  unfold vbatLoss
  split
  · unfold Device.setKey
    refine Calm.upd_key ?_
    assumption
  · unfold Device.setKey
    refine Calm.upd_key ?_
    assumption
theorem Device.noteRead_calm {e : Eff} {a : Device} {d : Device} {p1 : ℕ} {p2 : ℕ} (h : Calm e a d) : Calm e a (Device.noteRead d p1 p2) := by
  unfold Device.noteRead
  split
  · assumption
  · refine Calm.upd_noted ?_
    assumption
theorem Device.sendKey_calm {e : Eff} {a : Device} {d : Device} {p1 : ℕ} {p2 : ℕ} (h : Calm e a d) (e_u24 : Lets (e.unit 24) := by first | assumption | exact ⟨rfl⟩) : Calm e a (Device.sendKey d p1 p2).2 := by
  unfold Device.sendKey
  extract_lets x1 x2 x3 x4
  have hx1 : Calm e a x1 := by
    unfold x1
    refine Device.noteRead_calm ?_
    assumption
  clear_value x1
  have hx2 : Calm e a x2 := by
    unfold x2
    refine Device.count_calm ?_
    assumption
  clear_value x2
  have hx3 : Calm e a x3 := by
    unfold x3
    refine Device.raiseSec_calm ?_
    assumption
  clear_value x3
  split
  · dsimp only
    assumption
  · dsimp only
    unfold Device.setKey
    refine Calm.upd_key ?_
    assumption
/-! Goose. -/
theorem Device.setGoose_calm {e : Eff} {a : Device} {d : Device} {p1 : ℕ} {p2 : GooseSt} (h : Calm e a d) (e_u17 : Lets (e.unit 17) := by first | assumption | exact ⟨rfl⟩) : Calm e a (Device.setGoose d p1 p2) := by
  unfold Device.setGoose
  refine Calm.upd_egr ?_
  assumption
theorem Device.gooseQueue_calm {e : Eff} {a : Device} {d : Device} {p1 : ℕ} {p2 : List Word} {p3 : Bool} (h : Calm e a d) (e_u17 : Lets (e.unit 17) := by first | assumption | exact ⟨rfl⟩) : Calm e a (Device.gooseQueue d p1 p2 p3) := by
  unfold Device.gooseQueue
  apply calm_foldl
  · intro v1
    intro v2
    intro v3
    split
    · extract_lets x4
      clear_value x4
      split
      · refine Device.setPtx_calm ?_
        assumption
      · refine Device.txPush_calm ?_
        assumption
    · assumption
  · assumption
theorem Device.gooseJournal_calm {e : Eff} {a : Device} {d : Device} {p1 : ℕ} (h : Calm e a d) (e_dd : Lets e.dd := by first | assumption | exact ⟨rfl⟩) (e_jnl : Lets e.jnl := by first | assumption | exact ⟨rfl⟩) (e_u17 : Lets (e.unit 17) := by first | assumption | exact ⟨rfl⟩) : Calm e a (Device.gooseJournal d p1) := by
  unfold Device.gooseJournal
  extract_lets x6000
  clear_value x6000
  refine Device.journalW_calm ?_
  refine Device.setGoose_calm ?_
  assumption
theorem Device.gooseNew_calm {e : Eff} {a : Device} {d : Device} {p1 : ℕ} {p2 : List Word} {p3 : ℕ} (h : Calm e a d) (e_dd : Lets e.dd := by first | assumption | exact ⟨rfl⟩) (e_jnl : Lets e.jnl := by first | assumption | exact ⟨rfl⟩) (e_u17 : Lets (e.unit 17) := by first | assumption | exact ⟨rfl⟩) : Calm e a (Device.gooseNew d p1 p2 p3) := by
  unfold Device.gooseNew
  extract_lets x6000 x6001 x6002
  clear_value x6000
  clear_value x6001
  have hx6002 : Calm e a x6002 := by
    unfold x6002
    refine Device.setGoose_calm ?_
    assumption
  clear_value x6002
  refine Device.gooseQueue_calm ?_
  refine Device.gooseJournal_calm ?_
  assumption
theorem Device.gooseCheckOne_calm {e : Eff} {a : Device} {d : Device} {p1 : ℕ} (h : Calm e a d) (e_dd : Lets e.dd := by first | assumption | exact ⟨rfl⟩) (e_jnl : Lets e.jnl := by first | assumption | exact ⟨rfl⟩) (e_u17 : Lets (e.unit 17) := by first | assumption | exact ⟨rfl⟩) : Calm e a (Device.gooseCheckOne d p1) := by
  unfold Device.gooseCheckOne
  extract_lets x6000 x6001 x6002
  clear_value x6000
  clear_value x6001
  clear_value x6002
  split
  · assumption
  · split
    · refine Device.setGoose_calm ?_
      assumption
    · split
      · refine Device.setGoose_calm ?_
        assumption
      · refine Device.gooseNew_calm ?_
        refine Device.count_calm ?_
        assumption
theorem Device.gooseSecond_calm {e : Eff} {a : Device} {d : Device} (h : Calm e a d) (e_dd : Lets e.dd := by first | assumption | exact ⟨rfl⟩) (e_jnl : Lets e.jnl := by first | assumption | exact ⟨rfl⟩) (e_u17 : Lets (e.unit 17) := by first | assumption | exact ⟨rfl⟩) : Calm e a (Device.gooseSecond d) := by
  unfold Device.gooseSecond
  split
  · assumption
  · apply calm_foldl
    · intro v58
      intro v57
      intro w56
      split
      · refine Device.gooseJournal_calm ?_
        assumption
      · assumption
    · assumption
theorem Device.goosePduRouted_calm {e : Eff} {a : Device} {d : Device} {p1 : ℕ} {p2 : List Word} (h : Calm e a d) (e_u17 : Lets (e.unit 17) := by first | assumption | exact ⟨rfl⟩) (e_u24 : Lets (e.unit 24) := by first | assumption | exact ⟨rfl⟩) : Calm e a (Device.goosePduRouted d p1 p2).2 := by
  unfold Device.goosePduRouted
  extract_lets x6000 x6001 x6002 x6003 x6004 x6005
  clear_value x6000
  clear_value x6001
  clear_value x6002
  clear_value x6003
  have hx6004 : Calm e a x6004 := by
    unfold x6004
    refine Device.setGoose_calm ?_
    assumption
  clear_value x6004
  split
  · dsimp only
    assumption
  · split
    · dsimp only
      refine calm_snd (by assumption) ?_
      refine Device.sendKey_calm ?_
      assumption
    · extract_lets x5700 x5701 x5702 x5703
      clear_value x5700
      clear_value x5701
      have hx5702 : Calm e a x5702 := by
        unfold x5702
        refine Device.count_calm ?_
        refine Device.setGoose_calm ?_
        refine calm_snd (by assumption) ?_
        refine Device.sendKey_calm ?_
        assumption
      clear_value x5702
      clear_value x5703
      split
      · dsimp only
        assumption
      · dsimp only
        assumption
theorem Device.gooseFill_calm {e : Eff} {a : Device} {d : Device} {p1 : ℕ} {p2 : List Word} {p3 : Option (List Byte)} (h : Calm e a d) (e_u17 : Lets (e.unit 17) := by first | assumption | exact ⟨rfl⟩) : Calm e a (Device.gooseFill d p1 p2 p3) := by
  unfold Device.gooseFill
  apply calm_foldl
  · intro v59
    intro v58
    intro w57
    extract_lets x5600
    clear_value x5600
    refine Device.setPtx_calm ?_
    assumption
  · assumption
theorem Device.gooseBuild_calm {e : Eff} {a : Device} {d : Device} {p1 : ℕ} (h : Calm e a d) (e_u17 : Lets (e.unit 17) := by first | assumption | exact ⟨rfl⟩) (e_u24 : Lets (e.unit 24) := by first | assumption | exact ⟨rfl⟩) : Calm e a (Device.gooseBuild d p1) := by
  unfold Device.gooseBuild
  extract_lets x1 x2
  clear_value x1
  have hx2 : Calm e a x2 := by
    unfold x2
    apply calm_foldl
    · intro v3
      intro v4
      intro v5
      refine Device.noteRead_calm ?_
      assumption
    · assumption
  clear_value x2
  split
  · split
    · rename_i w6 w7 w8
      have hw7 : Calm e a w7 := by
        refine calm_snd w8 ?_
        refine Device.goosePduRouted_calm ?_
        assumption
      refine Device.gooseFill_calm ?_
      assumption
    · rename_i w9 w10 w11 w12
      have hw11 : Calm e a w11 := by
        refine calm_snd w12 ?_
        refine Device.goosePduRouted_calm ?_
        assumption
      refine Device.count_calm ?_
      refine Device.gooseFill_calm ?_
      assumption
  · refine Device.count_calm ?_
    refine Device.gooseFill_calm ?_
    assumption
theorem txStartF_calm {e : Eff} {a : Device} {p0 : ℕ} {p1 : ℕ} {d : Device} (h : Calm e a d) (e_u17 : Lets (e.unit 17) := by first | assumption | exact ⟨rfl⟩) (e_u24 : Lets (e.unit 24) := by first | assumption | exact ⟨rfl⟩) : Calm e a (txStartF p0 p1 d) := by
  induction p0 generalizing p1 d
  · unfold txStartF
    assumption
  · rename_i n ih
    unfold txStartF
    extract_lets x6000
    clear_value x6000
    split
    · assumption
    · split
      · split
        · assumption
        · refine Device.setPtx_calm ?_
          assumption
      · split
        · apply ih
          refine Device.gooseBuild_calm ?_
          assumption
        · refine Device.setPtx_calm ?_
          assumption
theorem Device.txStart_calm {e : Eff} {a : Device} {d : Device} {p1 : ℕ} (h : Calm e a d) (e_u17 : Lets (e.unit 17) := by first | assumption | exact ⟨rfl⟩) (e_u24 : Lets (e.unit 24) := by first | assumption | exact ⟨rfl⟩) : Calm e a (Device.txStart d p1) := by
  unfold Device.txStart
  refine txStartF_calm ?_
  assumption
theorem Device.gooseGo_calm {e : Eff} {a : Device} {d : Device} (h : Calm e a d) (e_u17 : Lets (e.unit 17) := by first | assumption | exact ⟨rfl⟩) (e_u24 : Lets (e.unit 24) := by first | assumption | exact ⟨rfl⟩) : Calm e a (Device.gooseGo d) := by
  unfold Device.gooseGo
  apply calm_foldl
  · intro v59
    intro v58
    intro w57
    refine Device.txStart_calm ?_
    assumption
  · assumption
theorem Device.gooseCheck_calm {e : Eff} {a : Device} {d : Device} (h : Calm e a d) (e_dd : Lets e.dd := by first | assumption | exact ⟨rfl⟩) (e_jnl : Lets e.jnl := by first | assumption | exact ⟨rfl⟩) (e_u17 : Lets (e.unit 17) := by first | assumption | exact ⟨rfl⟩) (e_u24 : Lets (e.unit 24) := by first | assumption | exact ⟨rfl⟩) : Calm e a (Device.gooseCheck d) := by
  unfold Device.gooseCheck
  refine Device.gooseGo_calm ?_
  apply calm_foldl
  · intro v58
    intro v57
    intro w56
    refine Device.gooseCheckOne_calm ?_
    assumption
  · assumption
theorem gooseRetransmit_calm {e : Eff} {a : Device} {p0 : ℕ} {d : Device} (h : Calm e a d) (e_u17 : Lets (e.unit 17) := by first | assumption | exact ⟨rfl⟩) (e_u24 : Lets (e.unit 24) := by first | assumption | exact ⟨rfl⟩) : Calm e a (gooseRetransmit p0 d) := by
  unfold gooseRetransmit
  extract_lets x6000 x6001 x6002 x6003 x6004
  clear_value x6000
  clear_value x6001
  clear_value x6002
  clear_value x6003
  have hx6004 : Calm e a x6004 := by
    unfold x6004
    refine Device.setGoose_calm ?_
    assumption
  clear_value x6004
  split
  · assumption
  · split
    · assumption
    · split
      · assumption
      · refine Device.gooseGo_calm ?_
        refine Device.gooseQueue_calm ?_
        assumption
/-! Egress. -/
theorem Device.setEgr_calm {e : Eff} {a : Device} {d : Device} {p1 : Egr} (h : Calm e a d) (e_u17 : Lets (e.unit 17) := by first | assumption | exact ⟨rfl⟩) : Calm e a (Device.setEgr d p1) := by
  unfold Device.setEgr
  refine Calm.upd_egr ?_
  assumption
theorem Device.setClient_calm {e : Eff} {a : Device} {d : Device} {p1 : ℕ} {p2 : ClientSt} (h : Calm e a d) (e_u17 : Lets (e.unit 17) := by first | assumption | exact ⟨rfl⟩) : Calm e a (Device.setClient d p1 p2) := by
  unfold Device.setClient
  refine Device.setEgr_calm ?_
  assumption
theorem Device.setConn_calm {e : Eff} {a : Device} {d : Device} {p1 : ℕ} {p2 : EgrConn} (h : Calm e a d) (e_u17 : Lets (e.unit 17) := by first | assumption | exact ⟨rfl⟩) : Calm e a (Device.setConn d p1 p2) := by
  unfold Device.setConn
  refine Device.setEgr_calm ?_
  assumption
theorem Device.clientOn_calm {e : Eff} {a : Device} {d : Device} {p1 : ℕ} {p2 : Bool} (h : Calm e a d) (e_u17 : Lets (e.unit 17) := by first | assumption | exact ⟨rfl⟩) : Calm e a (Device.clientOn d p1 p2) := by
  unfold Device.clientOn
  extract_lets x6000 x6001
  clear_value x6000
  have hx6001 : Calm e a x6001 := by
    unfold x6001
    refine Device.setClient_calm ?_
    assumption
  clear_value x6001
  split
  · refine Device.wr_calm ?_
    assumption
  · refine Device.wr_calm ?_
    assumption
theorem Device.connEvent_calm {e : Eff} {a : Device} {d : Device} {p1 : ℕ} {p2 : ℕ} (h : Calm e a d) : Calm e a (Device.connEvent d p1 p2) := by
  unfold Device.connEvent
  refine Device.raise_calm ?_
  assumption
theorem Device.segSend_calm {e : Eff} {a : Device} {d : Device} {p1 : ℕ} {p2 : ℕ} {p3 : EgrConn} {p4 : ℕ} {p5 : List Byte} (h : Calm e a d) (e_u17 : Lets (e.unit 17) := by first | assumption | exact ⟨rfl⟩) : Calm e a (Device.segSend d p1 p2 p3 p4 p5) := by
  unfold Device.segSend
  extract_lets x1 x2 x3 x4 x5 x6
  clear_value x1
  clear_value x2
  clear_value x3
  clear_value x4
  have hx5 : Calm e a x5 := by
    unfold x5
    refine Device.setEgr_calm ?_
    assumption
  clear_value x5
  clear_value x6
  refine Device.emit_calm ?_
  refine Device.count_calm ?_
  refine Device.txPush_calm ?_
  assumption
theorem Device.segNext_calm {e : Eff} {a : Device} {d : Device} {p1 : ℕ} (h : Calm e a d) (e_u17 : Lets (e.unit 17) := by first | assumption | exact ⟨rfl⟩) : Calm e a (Device.segNext d p1) := by
  unfold Device.segNext
  split
  · assumption
  · split
    · assumption
    · split
      · assumption
      · split
        · refine Device.count_calm ?_
          refine Device.segSend_calm ?_
          refine Device.setConn_calm ?_
          assumption
        · assumption
        · refine Device.segSend_calm ?_
          refine Device.setConn_calm ?_
          assumption
theorem Device.connPut_calm {e : Eff} {a d : Device} {n : Nat} {b : List Byte} (h : Calm e a d) {x : Device} (hx : d.connPut n b = some x) (e_u17 : Lets (e.unit 17) := by first | assumption | exact ⟨rfl⟩) :
    Calm e a x := by
  unfold Device.connPut at hx
  split at hx
  · cases hx
  · split at hx
    · cases hx
    · cases hx
      exact Device.segNext_calm (Device.setConn_calm h)
theorem Device.connRetx_calm {e : Eff} {a : Device} {d : Device} {p1 : ℕ} (h : Calm e a d) (e_u17 : Lets (e.unit 17) := by first | assumption | exact ⟨rfl⟩) : Calm e a (Device.connRetx d p1) := by
  unfold Device.connRetx
  split
  · assumption
  · refine Device.segNext_calm ?_
    refine Device.setConn_calm ?_
    assumption
theorem Device.clientDrop_calm {e : Eff} {a : Device} {d : Device} {p1 : ℕ} {p2 : ℕ} (h : Calm e a d) (e_u17 : Lets (e.unit 17) := by first | assumption | exact ⟨rfl⟩) : Calm e a (Device.clientDrop d p1 p2) := by
  unfold Device.clientDrop
  extract_lets x1 x2
  have hx1 : Calm e a x1 := by
    unfold x1
    refine Device.raiseSec_calm ?_
    refine Device.count_calm ?_
    assumption
  clear_value x1
  clear_value x2
  refine Device.setClient_calm ?_
  assumption
theorem Device.clientSend_calm {e : Eff} {a : Device} {d : Device} {p1 : ℕ} {p2 : ℕ} {p3 : Ctr} {p4 : List Byte} (h : Calm e a d)
    (m_p3 : e.may (p3.base / 65536) := by first | assumption | exact Or.inl (by assumption) | exact Or.inr rfl | exact Or.inl ⟨rfl⟩ | (split <;> exact Or.inl (by assumption)) | exact Or.inl (‹∀ b, Lets (e.unit b)› _)) (e_u17 : Lets (e.unit 17) := by first | assumption | exact ⟨rfl⟩) : Calm e a (Device.clientSend d p1 p2 p3 p4) := by
  unfold Device.clientSend
  extract_lets x1
  clear_value x1
  split
  · split
    · assumption
    · split
      · rename_i w2 w3 w4
        have hw3 : Calm e a w3 := Device.connPut_calm (by assumption) w4
        refine Device.count_calm ?_
        assumption
      · rename_i w5 w6
        refine Device.clientDrop_calm ?_
        assumption
  · split
    · assumption
    · refine Device.count_calm ?_
      refine Device.txPush_calm ?_
      assumption
theorem Device.clientCfg_calm {e : Eff} {a : Device} {d : Device} {p1 : ℕ} {p2 : ℕ} (h : Calm e a d) (e_u17 : Lets (e.unit 17) := by first | assumption | exact ⟨rfl⟩) : Calm e a (Device.clientCfg d p1 p2) := by
  unfold Device.clientCfg
  refine Device.clientSend_calm ?_
  assumption
theorem Device.clientOwnCfg_calm {e : Eff} {a : Device} {d : Device} {p1 : ℕ} (h : Calm e a d) (e_u17 : Lets (e.unit 17) := by first | assumption | exact ⟨rfl⟩) : Calm e a (Device.clientOwnCfg d p1) := by
  unfold Device.clientOwnCfg
  refine Device.clientCfg_calm ?_
  refine Device.setClient_calm ?_
  assumption
theorem Device.clientData_calm {e : Eff} {a : Device} {d : Device} {p1 : ℕ} {p2 : ℕ} {p3 : ℕ} (h : Calm e a d) (e_u10 : Lets (e.unit 10) := by first | assumption | exact ⟨rfl⟩) (e_u17 : Lets (e.unit 17) := by first | assumption | exact ⟨rfl⟩) (e_u26 : Lets (e.unit 26) := by first | assumption | exact ⟨rfl⟩) : Calm e a (Device.clientData d p1 p2 p3) := by
  unfold Device.clientData
  extract_lets x1
  have hx1 : Calm e a x1 := by
    unfold x1
    apply calm_foldl
    · intro v2
      intro v3
      intro v4
      refine Device.gsTouch_calm ?_
      assumption
    · assumption
  clear_value x1
  refine Device.clientSend_calm ?_
  assumption
theorem Device.clientLap_calm {e : Eff} {a : Device} {d : Device} {p1 : ℕ} {p2 : ℕ} {p3 : Bool} {p4 : Bool} (h : Calm e a d) (e_u10 : Lets (e.unit 10) := by first | assumption | exact ⟨rfl⟩) (e_u17 : Lets (e.unit 17) := by first | assumption | exact ⟨rfl⟩) (e_u26 : Lets (e.unit 26) := by first | assumption | exact ⟨rfl⟩) : Calm e a (Device.clientLap d p1 p2 p3 p4) := by
  unfold Device.clientLap
  split
  · assumption
  · apply calm_foldl
    · intro v1
      intro v2
      intro v3
      split
      · split
        · refine Device.clientData_calm ?_
          assumption
        · assumption
      · split
        · refine Device.clientData_calm ?_
          assumption
        · assumption
    · assumption
theorem Device.clientLoaded_calm {e : Eff} {a : Device} {d : Device} {p1 : ℕ} (h : Calm e a d) (e_u17 : Lets (e.unit 17) := by first | assumption | exact ⟨rfl⟩) : Calm e a (Device.clientLoaded d p1) := by
  unfold Device.clientLoaded
  extract_lets x1 x2 x3 x4 x5 x6 x7 x8 x9
  clear_value x1
  clear_value x2
  clear_value x3
  have hx4 : Calm e a x4 := by
    unfold x4
    refine Device.setClient_calm ?_
    assumption
  clear_value x4
  clear_value x5
  have hx6 : Calm e a x6 := by
    unfold x6
    refine Device.setEgr_calm ?_
    assumption
  clear_value x6
  have hx7 : Calm e a x7 := by
    unfold x7
    refine Device.clientOn_calm ?_
    assumption
  clear_value x7
  have hx8 : Calm e a x8 := by
    unfold x8
    split
    · refine Device.connEvent_calm ?_
      assumption
    · split
      · refine Device.connEvent_calm ?_
        assumption
      · assumption
  clear_value x8
  have hx9 : Calm e a x9 := by
    unfold x9
    refine Device.connEvent_calm ?_
    assumption
  clear_value x9
  split
  · split
    · refine Device.clientOwnCfg_calm ?_
      assumption
    · assumption
  · assumption
theorem Device.clientsStart_calm {e : Eff} {a : Device} {d : Device} (h : Calm e a d) (e_u17 : Lets (e.unit 17) := by first | assumption | exact ⟨rfl⟩) : Calm e a (Device.clientsStart d) := by
  unfold Device.clientsStart
  apply calm_foldl
  · intro v59
    intro v58
    intro w57
    split
    · refine Device.clientOwnCfg_calm ?_
      assumption
    · assumption
  · assumption
theorem Device.clientsStop_calm {e : Eff} {a : Device} {d : Device} (h : Calm e a d) (e_u17 : Lets (e.unit 17) := by first | assumption | exact ⟨rfl⟩) : Calm e a (Device.clientsStop d) := by
  unfold Device.clientsStop
  extract_lets x6000 x6001
  clear_value x6000
  clear_value x6001
  refine Device.setEgr_calm ?_
  apply calm_foldl
  · intro v57
    intro v56
    intro w55
    refine Device.connEvent_calm ?_
    refine Device.clientOn_calm ?_
    assumption
  · assumption
theorem c37CfgPeriodic_calm {e : Eff} {a : Device} {p0 : ℕ} {d : Device} (h : Calm e a d) (e_u17 : Lets (e.unit 17) := by first | assumption | exact ⟨rfl⟩) : Calm e a (c37CfgPeriodic p0 d) := by
  unfold c37CfgPeriodic
  extract_lets x6000
  clear_value x6000
  split
  · assumption
  · split
    · assumption
    · refine Device.clientOwnCfg_calm ?_
      assumption
theorem egressTcpAccept_calm {e : Eff} {a : Device} {p0 : ℕ} {p1 : ℕ} {p2 : Bool} {p3 : ℕ} {p4 : ℕ} {p5 : ℕ} {p6 : ℕ} {p7 : ℕ} {d : Device} (h : Calm e a d) (e_u17 : Lets (e.unit 17) := by first | assumption | exact ⟨rfl⟩) : Calm e a (egressTcpAccept p0 p1 p2 p3 p4 p5 p6 p7 d) := by
  unfold egressTcpAccept
  extract_lets x6000 x6001
  clear_value x6000
  clear_value x6001
  split
  · assumption
  · refine Device.setConn_calm ?_
    assumption
theorem Device.cmdClient_calm {e : Eff} {a : Device} {d : Device} {p1 : Bool} {p2 : ℕ} {p3 : ℕ} (h : Calm e a d) (e_u17 : Lets (e.unit 17) := by first | assumption | exact ⟨rfl⟩) : Calm e a (Device.cmdClient d p1 p2 p3).2 := by
  unfold Device.cmdClient
  split
  · split
    · dsimp only
      assumption
    · split
      · split
        · dsimp only
          assumption
        · dsimp only
          assumption
      · split
        · dsimp only
          refine Device.connEvent_calm ?_
          refine Device.setConn_calm ?_
          assumption
        · dsimp only
          assumption
  · dsimp only
    assumption
theorem c37Cmd_calm {e : Eff} {a : Device} {p0 : ℕ} {p1 : Bool} {p2 : ℕ} {p3 : ℕ} {d : Device} (h : Calm e a d) (e_u17 : Lets (e.unit 17) := by first | assumption | exact ⟨rfl⟩) : Calm e a (c37Cmd p0 p1 p2 p3 d) := by
  unfold c37Cmd
  split
  · assumption
  · split
    · refine Device.count_calm ?_
      assumption
    · split
      · refine Device.count_calm ?_
        refine calm_snd (by assumption) ?_
        refine Device.cmdClient_calm ?_
        assumption
      · split
        · refine Device.count_calm ?_
          refine calm_snd (by assumption) ?_
          refine Device.cmdClient_calm ?_
          assumption
        · extract_lets x5600
          have hx5600 : Calm e a x5600 := by
            unfold x5600
            refine Device.count_calm ?_
            refine calm_snd (by assumption) ?_
            refine Device.cmdClient_calm ?_
            assumption
          clear_value x5600
          split
          · split
            · refine Device.connEvent_calm ?_
              refine Device.clientOn_calm ?_
              assumption
            · assumption
          · split
            · assumption
            · refine Device.connEvent_calm ?_
              refine Device.clientOn_calm ?_
              assumption
          · refine Device.clientCfg_calm ?_
            assumption
theorem egressTcpAck_calm {e : Eff} {a : Device} {p0 : ℕ} {p1 : ℕ} {d : Device} (h : Calm e a d) (e_u17 : Lets (e.unit 17) := by first | assumption | exact ⟨rfl⟩) : Calm e a (egressTcpAck p0 p1 d) := by
  unfold egressTcpAck
  split
  · assumption
  · extract_lets x5900 x5901 x5902 x5903
    clear_value x5900
    clear_value x5901
    have hx5902 : Calm e a x5902 := by
      unfold x5902
      refine Device.setConn_calm ?_
      assumption
    clear_value x5902
    clear_value x5903
    split
    · split
      · assumption
      · split
        · refine Device.connRetx_calm ?_
          assumption
        · assumption
    · split
      · refine Device.segNext_calm ?_
        refine Device.setConn_calm ?_
        assumption
      · assumption
theorem egressTcpRto_calm {e : Eff} {a : Device} {p0 : ℕ} {d : Device} (h : Calm e a d) (e_u17 : Lets (e.unit 17) := by first | assumption | exact ⟨rfl⟩) : Calm e a (egressTcpRto p0 d) := by
  unfold egressTcpRto
  split
  · assumption
  · split
    · assumption
    · refine Device.connRetx_calm ?_
      assumption
theorem txFrameComplete_calm {e : Eff} {a : Device} {p0 : ℕ} {p1 : ℕ} {p2 : ℕ} {d : Device} (h : Calm e a d) (e_u2 : Lets (e.unit 2) := by first | assumption | exact ⟨rfl⟩) (e_u4 : Lets (e.unit 4) := by first | assumption | exact ⟨rfl⟩) (e_u17 : Lets (e.unit 17) := by first | assumption | exact ⟨rfl⟩) (e_u24 : Lets (e.unit 24) := by first | assumption | exact ⟨rfl⟩) : Calm e a (txFrameComplete p0 p1 p2 d) := by
  unfold txFrameComplete
  split
  · assumption
  · split
    · split
      · assumption
      · refine Device.txStamp_calm ?_
        refine Device.count_calm ?_
        refine Device.count_calm ?_
        assumption
    · extract_lets x5800 x5801 x5802 x5803 x5804 x5805
      clear_value x5800
      have hx5801 : Calm e a x5801 := by
        unfold x5801
        refine Device.emit_calm ?_
        refine Device.setPtx_calm ?_
        assumption
      clear_value x5801
      have hx5802 : Calm e a x5802 := by
        unfold x5802
        refine Device.count_calm ?_
        refine Device.count_calm ?_
        assumption
      clear_value x5802
      have hx5803 : Calm e a x5803 := by
        unfold x5803
        refine Device.txStart_calm ?_
        assumption
      clear_value x5803
      have hx5804 : Calm e a x5804 := by
        unfold x5804
        split
        · refine Device.txStamp_calm ?_
          assumption
        · assumption
      clear_value x5804
      have hx5805 : Calm e a x5805 := by
        unfold x5805
        refine Device.count_calm ?_
        assumption
      clear_value x5805
      split
      · assumption
      · split
        · refine Device.segNext_calm ?_
          refine Device.setConn_calm ?_
          assumption
        · assumption
/-! Hold. -/
theorem Device.setMode_calm {e : Eff} {a d : Device} {m : Mode} (hm : Moves d.pwr.mode m) (h : Calm e a d) (e_mode : Lets e.mode := by first | assumption | exact ⟨rfl⟩) (e_u1 : Lets (e.unit 1) := by first | assumption | exact ⟨rfl⟩) :
    Calm e a (d.setMode m) := by
  unfold Device.setMode
  split
  · exact h
  · refine Device.raise_calm ?_
    exact h.move (by assumption) hm (by assumption) h.upd
theorem Device.stopToggle_calm {e : Eff} {a : Device} {d : Device} {p1 : ℕ} (h : Calm e a d) (e_u22 : Lets (e.unit 22) := by first | assumption | exact ⟨rfl⟩) : Calm e a (Device.stopToggle d p1) := by
  unfold Device.stopToggle
  split
  · refine Calm.upd_rly ?_
    assumption
  · assumption
theorem Device.enterHold_calm {e : Eff} {a d : Device} {f : Bool} (h : Calm e a d) (e_key : Lets e.key := by first | assumption | exact ⟨rfl⟩) (e_grp : Lets e.grp := by first | assumption | exact ⟨rfl⟩) (e_hold : Lets e.hold := by first | assumption | exact ⟨rfl⟩) (e_u1 : Lets (e.unit 1) := by first | assumption | exact ⟨rfl⟩) (e_u17 : Lets (e.unit 17) := by first | assumption | exact ⟨rfl⟩) (e_u22 : Lets (e.unit 22) := by first | assumption | exact ⟨rfl⟩) (e_u24 : Lets (e.unit 24) := by first | assumption | exact ⟨rfl⟩) : Calm e a (d.enterHold f) := by
  unfold Device.enterHold
  split
  · exact h
  · rename_i hd
    rw [not_or] at hd
    have kd {e : Eff} {a x : Device} (h : Calm e a x) (e_key : Lets e.key := by first | assumption | exact ⟨rfl⟩) (e_grp : Lets e.grp := by first | assumption | exact ⟨rfl⟩)
        (e_u17 : Lets (e.unit 17) := by first | assumption | exact ⟨rfl⟩) (e_u22 : Lets (e.unit 22) := by first | assumption | exact ⟨rfl⟩)
        (e_u24 : Lets (e.unit 24) := by first | assumption | exact ⟨rfl⟩) : Calm e a ((keyComplete (x.stopToggle 4)).txStopAll.privClose) :=
      Device.privClose_calm (Device.txStopAll_calm (keyComplete_calm (Device.stopToggle_calm h)))
    extract_lets d0 d1 src src2 d2
    have kc {e : Eff} {a : Device} (h : Calm e a d0) (e_u22 : Lets (e.unit 22) := by first | assumption | exact ⟨rfl⟩) : Calm e a d1 := by
      unfold d1
      split
      · exact h
      · exact Device.setf_calm h
    have k1 : Calm Eff.still d d1 := kc (kd (Calm.refl _ _))
    have k2 := Device.count_calm (c := PWR_HOLDS) (i := 0) (k1.upd (d' := d2))
    have c2 : Calm e a (d2.count PWR_HOLDS) :=
      Device.count_calm ((kc (kd h)).upd)
    have hm : (d2.count PWR_HOLDS).pwr.mode = d.pwr.mode := k2.mode_eq
    refine Device.raise_calm ?_
    unfold Device.setMode
    split
    · exact c2
    · refine Device.raise_calm ?_
      have c3 : Calm e a { d2.count PWR_HOLDS with pwr := { (d2.count PWR_HOLDS).pwr with mode := d.pwr.mode } } := c2.upd rfl hm.symm
      refine { c3 with mode := ?_, pwr := .inl (by assumption) }
      rcases h.mode with hx | ⟨_, _, hx⟩ | ⟨he, hx⟩
      · exact .inr (.inl ⟨by assumption, hx ▸ hd.1, rfl⟩)
      · exact absurd hx hd.2
      · refine .inr (.inr ⟨he, ?_⟩)
        have h1 := hd.1
        have h2 := hd.2
        revert hx h1 h2
        cases a.pwr.mode <;> cases d.pwr.mode <;> simp [Moves]
theorem Device.fatalError_calm {e : Eff} {a : Device} {d : Device} {p1 : ℕ} {p2 : ℕ} (h : Calm e a d) (e_hold : Lets e.hold := by first | assumption | exact ⟨rfl⟩) (e_key : Lets e.key := by first | assumption | exact ⟨rfl⟩) (e_grp : Lets e.grp := by first | assumption | exact ⟨rfl⟩) (e_u1 : Lets (e.unit 1) := by first | assumption | exact ⟨rfl⟩) (e_u17 : Lets (e.unit 17) := by first | assumption | exact ⟨rfl⟩) (e_u22 : Lets (e.unit 22) := by first | assumption | exact ⟨rfl⟩) (e_u24 : Lets (e.unit 24) := by first | assumption | exact ⟨rfl⟩) : Calm e a (Device.fatalError d p1 p2) := by
  unfold Device.fatalError
  split
  · assumption
  · extract_lets x1
    have hx1 : Calm e a x1 := by
      unfold x1
      refine Device.setf_calm ?_
      refine Device.setf_calm ?_
      assumption
    clear_value x1
    refine Device.enterHold_calm ?_
    refine Device.raise_calm ?_
    refine Device.count_calm ?_
    assumption
theorem Device.memFatal_calm {e : Eff} {a : Device} {d : Device} {p1 : ℕ} {p2 : ℕ} {p3 : Word} (h : Calm e a d) (e_hold : Lets e.hold := by first | assumption | exact ⟨rfl⟩) (e_key : Lets e.key := by first | assumption | exact ⟨rfl⟩) (e_grp : Lets e.grp := by first | assumption | exact ⟨rfl⟩) (e_u1 : Lets (e.unit 1) := by first | assumption | exact ⟨rfl⟩) (e_u17 : Lets (e.unit 17) := by first | assumption | exact ⟨rfl⟩) (e_u22 : Lets (e.unit 22) := by first | assumption | exact ⟨rfl⟩) (e_u24 : Lets (e.unit 24) := by first | assumption | exact ⟨rfl⟩) (e_u26 : Lets (e.unit 26) := by first | assumption | exact ⟨rfl⟩) : Calm e a (Device.memFatal d p1 p2 p3) := by
  unfold Device.memFatal
  refine Device.fatalError_calm ?_
  refine Device.stopToggle_calm ?_
  refine Device.raise_calm ?_
  refine Device.setf_calm ?_
  assumption
/-! Hurdles. -/
theorem Device.setHur_calm {e : Eff} {a : Device} {d : Device} {p1 : ℕ} {p2 : HurSt} (h : Calm e a d) (e_u16 : Lets (e.unit 16) := by first | assumption | exact ⟨rfl⟩) : Calm e a (Device.setHur d p1 p2) := by
  unfold Device.setHur
  refine Calm.upd_alm ?_
  assumption
theorem Device.setAlm_calm {e : Eff} {a : Device} {d : Device} {p1 : Alm} (h : Calm e a d) (e_u16 : Lets (e.unit 16) := by first | assumption | exact ⟨rfl⟩) : Calm e a (Device.setAlm d p1) := by
  unfold Device.setAlm
  refine Calm.upd_alm ?_
  assumption
theorem Device.almLevel_calm {e : Eff} {a : Device} {d : Device} (h : Calm e a d) (e_u16 : Lets (e.unit 16) := by first | assumption | exact ⟨rfl⟩) : Calm e a (Device.almLevel d) := by
  unfold Device.almLevel
  refine Device.hwm_calm ?_
  refine Device.setf_calm ?_
  assumption
theorem Device.almCopy_calm {e : Eff} {a : Device} {d : Device} {p1 : List Word} (h : Calm e a d) (e_u23 : Lets (e.unit 23) := by first | assumption | exact ⟨rfl⟩) : Calm e a (Device.almCopy d p1) := by
  unfold Device.almCopy
  split
  · refine Device.sfPush_calm ?_ (by assumption)
    assumption
  · refine Device.count_calm ?_
    assumption
theorem Device.almDrop_calm {e : Eff} {a : Device} {d : Device} (h : Calm e a d) (e_u16 : Lets (e.unit 16) := by first | assumption | exact ⟨rfl⟩) : Calm e a (Device.almDrop d) := by
  unfold Device.almDrop
  extract_lets x1 x2
  clear_value x1
  have hx2 : Calm e a x2 := by
    unfold x2
    refine Device.count_calm ?_
    refine Device.setAlm_calm ?_
    assumption
  clear_value x2
  split
  · assumption
  · refine Device.raise_calm ?_
    assumption
theorem Device.almBuffer_calm {e : Eff} {a : Device} {d : Device} {p1 : List Word} (h : Calm e a d) (e_u16 : Lets (e.unit 16) := by first | assumption | exact ⟨rfl⟩) : Calm e a (Device.almBuffer d p1) := by
  unfold Device.almBuffer
  split
  · refine Device.almDrop_calm ?_
    assumption
  · refine Device.almLevel_calm ?_
    refine Device.setAlm_calm ?_
    assumption
theorem Device.almDeliver_calm {e : Eff} {a : Device} {d : Device} {p1 : List Word} (h : Calm e a d) (e_u16 : Lets (e.unit 16) := by first | assumption | exact ⟨rfl⟩) (e_u23 : Lets (e.unit 23) := by first | assumption | exact ⟨rfl⟩) : Calm e a (Device.almDeliver d p1) := by
  unfold Device.almDeliver
  split
  · assumption
  · split
    · refine Device.almBuffer_calm ?_
      assumption
    · split
      · refine Device.cqRecord_calm ?_ (by assumption)
        assumption
      · refine Device.almBuffer_calm ?_
        assumption
theorem Device.almSeq_calm {e : Eff} {a : Device} {d : Device} (h : Calm e a d) (e_u16 : Lets (e.unit 16) := by first | assumption | exact ⟨rfl⟩) : Calm e a (Device.almSeq d) := by
  unfold Device.almSeq
  refine Device.setAlm_calm ?_
  assumption
theorem Device.almLoss_calm {e : Eff} {a : Device} {d : Device} (h : Calm e a d) (e_u16 : Lets (e.unit 16) := by first | assumption | exact ⟨rfl⟩) (e_u23 : Lets (e.unit 23) := by first | assumption | exact ⟨rfl⟩) : Calm e a (Device.almLoss d) := by
  unfold Device.almLoss
  split
  · assumption
  · extract_lets x1 x2 x3
    clear_value x1
    have hx2 : Calm e a x2 := by
      unfold x2
      refine Device.almSeq_calm ?_
      refine Device.almCopy_calm ?_
      assumption
    clear_value x2
    clear_value x3
    refine Device.setAlm_calm ?_
    assumption
theorem almDrainF_calm {e : Eff} {a : Device} {p0 : ℕ} {d : Device} (h : Calm e a d) (e_u16 : Lets (e.unit 16) := by first | assumption | exact ⟨rfl⟩) (e_u23 : Lets (e.unit 23) := by first | assumption | exact ⟨rfl⟩) : Calm e a (almDrainF p0 d) := by
  induction p0 generalizing d
  · unfold almDrainF
    assumption
  · rename_i n ih
    unfold almDrainF
    split
    · assumption
    · split
      · assumption
      · split
        · rename_i w1 w2
          assumption
        · rename_i w3 w4 w5
          have hw4 : Calm e a w4 := Device.cqRecord_calm (by assumption) w5
          apply ih
          refine Device.almLevel_calm ?_
          refine Device.almLoss_calm ?_
          refine Device.setAlm_calm ?_
          assumption
theorem alarmRecordDrain_calm {e : Eff} {a : Device} {d : Device} (h : Calm e a d) (e_u16 : Lets (e.unit 16) := by first | assumption | exact ⟨rfl⟩) (e_u23 : Lets (e.unit 23) := by first | assumption | exact ⟨rfl⟩) : Calm e a (alarmRecordDrain d) := by
  unfold alarmRecordDrain
  refine almDrainF_calm ?_
  assumption
theorem recCtr_calm {e : Eff} {a : Device} {p0 : RecKind} {d : Device} (h : Calm e a d) (e_u16 : Lets (e.unit 16) := by first | assumption | exact ⟨rfl⟩) : Calm e a (recCtr p0 d) := by
  unfold recCtr
  split
  · split
    · refine Device.count_calm ?_
      assumption
    · refine Device.count_calm ?_
      assumption
  · split
    · refine Device.count_calm ?_
      refine Device.count_calm ?_
      assumption
    · refine Device.count_calm ?_
      assumption
  · refine Device.count_calm ?_
    assumption
  · refine Device.count_calm ?_
    assumption
theorem Device.almEmit_calm {e : Eff} {a : Device} {d : Device} {p1 : ℕ} {p2 : List Word} {p3 : Block} {p4 : RecKind} (h : Calm e a d) (e_u16 : Lets (e.unit 16) := by first | assumption | exact ⟨rfl⟩) (e_u23 : Lets (e.unit 23) := by first | assumption | exact ⟨rfl⟩) : Calm e a (Device.almEmit d p1 p2 p3 p4) := by
  unfold Device.almEmit
  extract_lets x6000 x6001 x6002 x6003 x6004 x6005
  clear_value x6000
  have hx6001 : Calm e a x6001 := by
    unfold x6001
    refine Device.almSeq_calm ?_
    refine recCtr_calm ?_
    assumption
  clear_value x6001
  have hx6002 : Calm e a x6002 := by
    unfold x6002
    refine Device.almCopy_calm ?_
    refine Device.almDeliver_calm ?_
    assumption
  clear_value x6002
  have hx6003 : Calm e a x6003 := by
    unfold x6003
    refine Device.raise_calm ?_
    assumption
  clear_value x6003
  clear_value x6004
  clear_value x6005
  split
  · refine Device.setHur_calm ?_
    assumption
  · split
    · refine Device.setHur_calm ?_
      assumption
    · assumption
theorem Device.evalCount_calm {e : Eff} {a : Device} {d : Device} {p1 : List Word} {p2 : Block} (h : Calm e a d) (e_u16 : Lets (e.unit 16) := by first | assumption | exact ⟨rfl⟩) : Calm e a (Device.evalCount d p1 p2) := by
  unfold Device.evalCount
  extract_lets x6000
  have hx6000 : Calm e a x6000 := by
    unfold x6000
    refine Device.count_calm ?_
    assumption
  clear_value x6000
  split
  · refine Device.count_calm ?_
    assumption
  · assumption
theorem Device.aoutDrive_calm {e : Eff} {a : Device} {d : Device} {p1 : ℕ} (h : Calm e a d) : Calm e a (Device.aoutDrive d p1) := by
  unfold Device.aoutDrive
  split
  · refine Device.emit_calm ?_
    assumption
  · assumption
theorem Device.aoutOne_calm {e : Eff} {a : Device} {d : Device} {p1 : ℕ} (h : Calm e a d) (e_u16 : Lets (e.unit 16) := by first | assumption | exact ⟨rfl⟩) : Calm e a (Device.aoutOne d p1) := by
  unfold Device.aoutOne
  extract_lets x1 x2 x3 x4
  clear_value x1
  clear_value x2
  clear_value x3
  have hx4 : Calm e a x4 := by
    unfold x4
    refine Device.setAlm_calm ?_
    assumption
  clear_value x4
  split
  · assumption
  · split
    · assumption
    · refine Device.aoutDrive_calm ?_
      refine Device.wr_calm ?_
      assumption
theorem Device.aoutRefresh_calm {e : Eff} {a : Device} {d : Device} (h : Calm e a d) (e_u16 : Lets (e.unit 16) := by first | assumption | exact ⟨rfl⟩) : Calm e a (Device.aoutRefresh d) := by
  unfold Device.aoutRefresh
  apply calm_foldl
  · intro v1
    intro v2
    intro v3
    refine Device.aoutOne_calm ?_
    assumption
  · assumption
theorem Device.levels_calm {e : Eff} {a : Device} {d : Device} (h : Calm e a d) (e_dd : Lets e.dd := by first | assumption | exact ⟨rfl⟩) (e_jnl : Lets e.jnl := by first | assumption | exact ⟨rfl⟩) (e_u16 : Lets (e.unit 16) := by first | assumption | exact ⟨rfl⟩) (e_u17 : Lets (e.unit 17) := by first | assumption | exact ⟨rfl⟩) (e_u24 : Lets (e.unit 24) := by first | assumption | exact ⟨rfl⟩) : Calm e a (Device.levels d) := by
  unfold Device.levels
  refine Device.gooseCheck_calm ?_
  refine Device.aoutRefresh_calm ?_
  assumption
theorem Device.evalProv_calm {e : Eff} {a : Device} {d : Device} {p1 : ℕ} {p2 : List Word} {p3 : Block} (h : Calm e a d) (e_dd : Lets e.dd := by first | assumption | exact ⟨rfl⟩) (e_jnl : Lets e.jnl := by first | assumption | exact ⟨rfl⟩) (e_u16 : Lets (e.unit 16) := by first | assumption | exact ⟨rfl⟩) (e_u17 : Lets (e.unit 17) := by first | assumption | exact ⟨rfl⟩) (e_u23 : Lets (e.unit 23) := by first | assumption | exact ⟨rfl⟩) (e_u24 : Lets (e.unit 24) := by first | assumption | exact ⟨rfl⟩) : Calm e a (Device.evalProv d p1 p2 p3) := by
  unfold Device.evalProv
  extract_lets x1 x2 x3 x4 x5 x6
  clear_value x1
  clear_value x2
  clear_value x3
  clear_value x4
  clear_value x5
  have hx6 : Calm e a x6 := by
    unfold x6
    refine Device.setHur_calm ?_
    refine Device.evalCount_calm ?_
    assumption
  clear_value x6
  split
  · assumption
  · refine Device.levels_calm ?_
    refine Device.almEmit_calm ?_
    assumption
theorem Device.evalConf_calm {e : Eff} {a : Device} {d : Device} {p1 : ℕ} {p2 : List Word} {p3 : Block} (h : Calm e a d) (e_dd : Lets e.dd := by first | assumption | exact ⟨rfl⟩) (e_jnl : Lets e.jnl := by first | assumption | exact ⟨rfl⟩) (e_u16 : Lets (e.unit 16) := by first | assumption | exact ⟨rfl⟩) (e_u17 : Lets (e.unit 17) := by first | assumption | exact ⟨rfl⟩) (e_u23 : Lets (e.unit 23) := by first | assumption | exact ⟨rfl⟩) (e_u24 : Lets (e.unit 24) := by first | assumption | exact ⟨rfl⟩) : Calm e a (Device.evalConf d p1 p2 p3) := by
  unfold Device.evalConf
  extract_lets x1 x2 x3 x4 x5 x6
  clear_value x1
  clear_value x2
  clear_value x3
  clear_value x4
  have hx5 : Calm e a x5 := by
    unfold x5
    refine Device.setHur_calm ?_
    refine Device.evalCount_calm ?_
    assumption
  clear_value x5
  have hx6 : Calm e a x6 := by
    unfold x6
    split
    · split
      · refine Device.almEmit_calm ?_
        assumption
      · refine Device.almEmit_calm ?_
        assumption
    · split
      · refine Device.almEmit_calm ?_
        assumption
      · assumption
  clear_value x6
  refine Device.levels_calm ?_
  split
  · refine Device.almEmit_calm ?_
    assumption
  · assumption
theorem hurAdvance_calm {e : Eff} {a : Device} {p0 : ℕ} {p1 : ℕ} {d : Device} (h : Calm e a d) (e_dd : Lets e.dd := by first | assumption | exact ⟨rfl⟩) (e_jnl : Lets e.jnl := by first | assumption | exact ⟨rfl⟩) (e_u16 : Lets (e.unit 16) := by first | assumption | exact ⟨rfl⟩) (e_u17 : Lets (e.unit 17) := by first | assumption | exact ⟨rfl⟩) (e_u23 : Lets (e.unit 23) := by first | assumption | exact ⟨rfl⟩) (e_u24 : Lets (e.unit 24) := by first | assumption | exact ⟨rfl⟩) : Calm e a (hurAdvance p0 p1 d) := by
  induction p0 generalizing p1 d
  · unfold hurAdvance
    assumption
  · rename_i n ih
    unfold hurAdvance
    extract_lets x1 x2 x3 x4 x5
    clear_value x1
    clear_value x2
    clear_value x3
    clear_value x4
    clear_value x5
    split
    · apply ih
      refine Device.evalProv_calm ?_
      refine Device.setHur_calm ?_
      assumption
    · split
      · apply ih
        refine Device.evalConf_calm ?_
        refine Device.setHur_calm ?_
        assumption
      · split
        · apply ih
          refine Device.setHur_calm ?_
          assumption
        · apply ih
          refine Device.setHur_calm ?_
          assumption
        · assumption
theorem Device.hurBlock_calm {e : Eff} {a : Device} {d : Device} {p1 : ℕ} {p2 : Block} (h : Calm e a d) (e_dd : Lets e.dd := by first | assumption | exact ⟨rfl⟩) (e_jnl : Lets e.jnl := by first | assumption | exact ⟨rfl⟩) (e_u16 : Lets (e.unit 16) := by first | assumption | exact ⟨rfl⟩) (e_u17 : Lets (e.unit 17) := by first | assumption | exact ⟨rfl⟩) (e_u23 : Lets (e.unit 23) := by first | assumption | exact ⟨rfl⟩) (e_u24 : Lets (e.unit 24) := by first | assumption | exact ⟨rfl⟩) : Calm e a (Device.hurBlock d p1 p2) := by
  unfold Device.hurBlock
  extract_lets x1 x2 x3 x4 x5 x6 x7 x8
  clear_value x1
  clear_value x2
  clear_value x3
  have hx4 : Calm e a x4 := by
    unfold x4
    refine Device.setHur_calm ?_
    assumption
  clear_value x4
  clear_value x5
  clear_value x6
  have hx7 : Calm e a x7 := by
    unfold x7
    split
    · refine Device.evalProv_calm ?_
      refine Device.setHur_calm ?_
      assumption
    · assumption
  clear_value x7
  clear_value x8
  split
  · refine hurAdvance_calm ?_
    assumption
  · split
    · refine Device.evalConf_calm ?_
      refine Device.setHur_calm ?_
      assumption
    · assumption
theorem aoutMinOnExpiry_calm {e : Eff} {a : Device} {p0 : ℕ} {d : Device} (h : Calm e a d) (e_u16 : Lets (e.unit 16) := by first | assumption | exact ⟨rfl⟩) : Calm e a (aoutMinOnExpiry p0 d) := by
  unfold aoutMinOnExpiry
  split
  · refine Device.aoutOne_calm ?_
    assumption
  · assumption
theorem aoutClr_calm {e : Eff} {a : Device} {p0 : Word} {d : Device} (h : Calm e a d) (e_u16 : Lets (e.unit 16) := by first | assumption | exact ⟨rfl⟩) : Calm e a (aoutClr p0 d) := by
  unfold aoutClr
  apply calm_foldl
  · intro v59
    intro v58
    intro w57
    split
    · refine Device.aoutOne_calm ?_
      refine Device.setAlm_calm ?_
      assumption
    · assumption
  · assumption
theorem aoutCfgWrite_calm {e : Eff} {a : Device} {p0 : ℕ} {p1 : Word} {d : Device} (h : Calm e a d) (e_u16 : Lets (e.unit 16) := by first | assumption | exact ⟨rfl⟩) : Calm e a (aoutCfgWrite p0 p1 d) := by
  unfold aoutCfgWrite
  split
  · assumption
  · extract_lets x5900 x5901 x5902 x5903 x5904 x5905
    clear_value x5900
    clear_value x5901
    have hx5902 : Calm e a x5902 := by
      unfold x5902
      refine Device.wr_calm ?_
      assumption
    clear_value x5902
    have hx5903 : Calm e a x5903 := by
      unfold x5903
      split
      · assumption
      · refine Device.raise_calm ?_
        assumption
    clear_value x5903
    clear_value x5904
    have hx5905 : Calm e a x5905 := by
      unfold x5905
      refine Device.aoutOne_calm ?_
      assumption
    clear_value x5905
    split
    · refine Device.aoutDrive_calm ?_
      assumption
    · assumption
theorem Device.hurdleBlock_calm {e : Eff} {a : Device} {d : Device} {p1 : Block} (h : Calm e a d) (e_dd : Lets e.dd := by first | assumption | exact ⟨rfl⟩) (e_jnl : Lets e.jnl := by first | assumption | exact ⟨rfl⟩) (e_u16 : Lets (e.unit 16) := by first | assumption | exact ⟨rfl⟩) (e_u17 : Lets (e.unit 17) := by first | assumption | exact ⟨rfl⟩) (e_u23 : Lets (e.unit 23) := by first | assumption | exact ⟨rfl⟩) (e_u24 : Lets (e.unit 24) := by first | assumption | exact ⟨rfl⟩) : Calm e a (Device.hurdleBlock d p1) := by
  unfold Device.hurdleBlock
  extract_lets x1
  clear_value x1
  refine Device.gooseCheck_calm ?_
  apply calm_foldl
  · intro v2
    intro v3
    intro v4
    refine Device.hurBlock_calm ?_
    assumption
  · assumption
theorem Device.hurdleSkip_calm {e : Eff} {a : Device} {d : Device} {p1 : ℕ} (h : Calm e a d) (e_dd : Lets e.dd := by first | assumption | exact ⟨rfl⟩) (e_jnl : Lets e.jnl := by first | assumption | exact ⟨rfl⟩) (e_u16 : Lets (e.unit 16) := by first | assumption | exact ⟨rfl⟩) (e_u17 : Lets (e.unit 17) := by first | assumption | exact ⟨rfl⟩) (e_u23 : Lets (e.unit 23) := by first | assumption | exact ⟨rfl⟩) (e_u24 : Lets (e.unit 24) := by first | assumption | exact ⟨rfl⟩) : Calm e a (Device.hurdleSkip d p1) := by
  unfold Device.hurdleSkip
  extract_lets x1
  clear_value x1
  apply calm_foldl
  · intro v2
    intro v3
    intro v4
    refine hurAdvance_calm ?_
    assumption
  · assumption
theorem Device.hurRestart_calm {e : Eff} {a : Device} {d : Device} {p1 : ℕ} {p2 : Option ℕ} (h : Calm e a d) (e_u16 : Lets (e.unit 16) := by first | assumption | exact ⟨rfl⟩) : Calm e a (Device.hurRestart d p1 p2) := by
  unfold Device.hurRestart
  extract_lets x6000 x6001
  clear_value x6000
  clear_value x6001
  refine Device.setHur_calm ?_
  assumption
theorem Device.hurEnable_calm {e : Eff} {a : Device} {d : Device} {p1 : ℕ} {p2 : ℕ} (h : Calm e a d) (e_dd : Lets e.dd := by first | assumption | exact ⟨rfl⟩) (e_jnl : Lets e.jnl := by first | assumption | exact ⟨rfl⟩) (e_u16 : Lets (e.unit 16) := by first | assumption | exact ⟨rfl⟩) (e_u17 : Lets (e.unit 17) := by first | assumption | exact ⟨rfl⟩) (e_u24 : Lets (e.unit 24) := by first | assumption | exact ⟨rfl⟩) : Calm e a (Device.hurEnable d p1 p2) := by
  unfold Device.hurEnable
  extract_lets x6000
  clear_value x6000
  split
  · assumption
  · refine Device.gooseCheck_calm ?_
    refine Device.aoutRefresh_calm ?_
    apply calm_foldl
    · intro v55
      intro v54
      intro w53
      refine Device.hurRestart_calm ?_
      assumption
    · assumption
theorem Device.almErr_calm {e : Eff} {a : Device} {d : Device} {p1 : ℕ} (h : Calm e a d) (e_u16 : Lets (e.unit 16) := by first | assumption | exact ⟨rfl⟩) : Calm e a (Device.almErr d p1) := by
  unfold Device.almErr
  refine Device.err_calm ?_
  assumption
theorem Device.thrSet_calm {e : Eff} {a : Device} {d : Device} {p1 : ℕ} {p2 : ℕ} {p3 : Word} {p4 : ℕ} (h : Calm e a d) (e_tab : Lets e.tab := by first | assumption | exact ⟨rfl⟩) (e_u16 : Lets (e.unit 16) := by first | assumption | exact ⟨rfl⟩) : Calm e a (Device.thrSet d p1 p2 p3 p4) := by
  unfold Device.thrSet
  extract_lets x6000 x6001 x6002 x6003
  clear_value x6000
  clear_value x6001
  clear_value x6002
  clear_value x6003
  refine Device.setHur_calm ?_
  refine Device.setEnt_calm ?_
  assumption
theorem almThr_calm {e : Eff} {a : Device} {p0 : ℕ} {d : Device} (h : Calm e a d) (e_tab : Lets e.tab := by first | assumption | exact ⟨rfl⟩) (e_dd : Lets e.dd := by first | assumption | exact ⟨rfl⟩) (e_jnl : Lets e.jnl := by first | assumption | exact ⟨rfl⟩) (e_u16 : Lets (e.unit 16) := by first | assumption | exact ⟨rfl⟩) : Calm e a (almThr p0 d) := by
  unfold almThr
  extract_lets x6000 x6001 x6002 x6003 x6004
  clear_value x6000
  clear_value x6001
  clear_value x6002
  clear_value x6003
  have hx6004 : Calm e a x6004 := by
    unfold x6004
    refine Device.thrSet_calm ?_
    assumption
  clear_value x6004
  split
  · refine Device.almErr_calm ?_
    assumption
  · split
    · refine Device.almErr_calm ?_
      assumption
    · split
      · refine Device.almErr_calm ?_
        assumption
      · split
        · refine Device.almErr_calm ?_
          assumption
        · refine Device.journalW_calm ?_
          refine Device.count_calm ?_
          assumption
theorem almThrCmdWrite_calm {e : Eff} {a : Device} {p0 : Word} {d : Device} (h : Calm e a d) (e_tab : Lets e.tab := by first | assumption | exact ⟨rfl⟩) (e_dd : Lets e.dd := by first | assumption | exact ⟨rfl⟩) (e_jnl : Lets e.jnl := by first | assumption | exact ⟨rfl⟩) (e_u16 : Lets (e.unit 16) := by first | assumption | exact ⟨rfl⟩) : Calm e a (almThrCmdWrite p0 d) := by
  unfold almThrCmdWrite
  refine almThr_calm ?_
  assumption
end Sys2Proof.Machine
end

