-- ==== Sys2Proof/Laws/CalmLaps.lean ====
section
/-!
SUPPORT. One lemma per operation of tokens, laps, the fence and spans (Machine/StarterCore, RxlLink, Laps, Tokens, Pfa, Span): what the
operation may touch, in the terms of Calm.
-/
namespace Sys2Proof.Machine
set_option Elab.async false
/-! StarterCore. -/
theorem Device.setSrt_calm {e : Eff} {a : Device} {d : Device} {p1 : Srt} (h : Calm e a d) (e_u10 : Lets (e.unit 10) := by first | assumption | exact ⟨rfl⟩) : Calm e a (Device.setSrt d p1) := by
  unfold Device.setSrt
  refine Calm.upd_srt ?_
  assumption
theorem Device.setPac_calm {e : Eff} {a : Device} {d : Device} {p1 : Pac} (h : Calm e a d) (e_u12 : Lets (e.unit 12) := by first | assumption | exact ⟨rfl⟩) : Calm e a (Device.setPac d p1) := by
  unfold Device.setPac
  refine Calm.upd_pac ?_
  assumption
theorem Device.setOsm_calm {e : Eff} {a : Device} {d : Device} {p1 : Osm} (h : Calm e a d) (e_u14 : Lets (e.unit 14) := by first | assumption | exact ⟨rfl⟩) : Calm e a (Device.setOsm d p1) := by
  unfold Device.setOsm
  refine Calm.upd_osm ?_
  assumption
theorem Device.setIsl_calm {e : Eff} {a : Device} {d : Device} {p1 : Isl} (h : Calm e a d) (e_u15 : Lets (e.unit 15) := by first | assumption | exact ⟨rfl⟩) : Calm e a (Device.setIsl d p1) := by
  unfold Device.setIsl
  refine Calm.upd_isl ?_
  assumption
theorem Device.storeShow_calm {e : Eff} {a : Device} {d : Device} {p1 : ℕ} (h : Calm e a d) (e_u10 : Lets (e.unit 10) := by first | assumption | exact ⟨rfl⟩) : Calm e a (Device.storeShow d p1) := by
  unfold Device.storeShow
  extract_lets x6000 x6001 x6002
  clear_value x6000
  have hx6001 : Calm e a x6001 := by
    unfold x6001
    refine Device.hwm_calm ?_
    refine Device.setf_calm ?_
    assumption
  clear_value x6001
  clear_value x6002
  split
  · refine Device.raise_calm ?_
    refine Device.setf_calm ?_
    refine Device.setSrt_calm ?_
    assumption
  · split
    · refine Device.setf_calm ?_
      refine Device.setSrt_calm ?_
      assumption
    · assumption
theorem Device.putEntry_calm {e : Eff} {a : Device} {d : Device} {p1 : Entry} (h : Calm e a d) (e_u10 : Lets (e.unit 10) := by first | assumption | exact ⟨rfl⟩) : Calm e a (Device.putEntry d p1) := by
  unfold Device.putEntry
  split
  · refine Device.setSrt_calm ?_
    assumption
  · refine Device.setSrt_calm ?_
    assumption
theorem Device.dropEntry_calm {e : Eff} {a : Device} {d : Device} {p1 : Entry} (h : Calm e a d) (e_u10 : Lets (e.unit 10) := by first | assumption | exact ⟨rfl⟩) : Calm e a (Device.dropEntry d p1) := by
  unfold Device.dropEntry
  refine Device.setSrt_calm ?_
  assumption
theorem Device.setQueue_calm {e : Eff} {a : Device} {d : Device} {p1 : ℕ} {p2 : List Task} (h : Calm e a d) (e_u10 : Lets (e.unit 10) := by first | assumption | exact ⟨rfl⟩) : Calm e a (Device.setQueue d p1 p2) := by
  unfold Device.setQueue
  refine Device.hwm_calm ?_
  refine Device.setf_calm ?_
  refine Device.setSrt_calm ?_
  assumption
theorem queueFill_calm {e : Eff} {a : Device} {p0 : ℕ} {p1 : ℕ} {d : Device} (h : Calm e a d) (e_u10 : Lets (e.unit 10) := by first | assumption | exact ⟨rfl⟩) : Calm e a (queueFill p0 p1 d) := by
  induction p0 generalizing p1 d
  · unfold queueFill
    assumption
  · rename_i n ih
    unfold queueFill
    split
    · assumption
    · split
      · assumption
      · apply ih
        refine Device.setQueue_calm ?_
        assumption
theorem Device.queueJoin_calm {e : Eff} {a : Device} {d : Device} {p1 : Entry} (h : Calm e a d) (e_u10 : Lets (e.unit 10) := by first | assumption | exact ⟨rfl⟩) : Calm e a (Device.queueJoin d p1) := by
  unfold Device.queueJoin
  extract_lets x6000
  clear_value x6000
  split
  · refine Device.count_calm ?_
    assumption
  · refine Device.setQueue_calm ?_
    assumption
theorem Device.queueHead_calm {e : Eff} {a : Device} {d : Device} {p1 : Task} (h : Calm e a d) (e_u10 : Lets (e.unit 10) := by first | assumption | exact ⟨rfl⟩) : Calm e a (Device.queueHead d p1) := by
  unfold Device.queueHead
  extract_lets x1 x2 x3 x4
  clear_value x1
  clear_value x2
  clear_value x3
  clear_value x4
  split
  · refine Device.setQueue_calm ?_
    assumption
  · split
    · refine Device.setQueue_calm ?_
      assumption
    · extract_lets x5
      have hx5 : Calm e a x5 := by
        unfold x5
        refine Device.setSrt_calm ?_
        assumption
      clear_value x5
      refine Device.count_calm ?_
      refine Device.setQueue_calm ?_
      assumption
theorem Device.entryCheck_calm {e : Eff} {a : Device} {d : Device} {p1 : Entry} (h : Calm e a d) (e_u10 : Lets (e.unit 10) := by first | assumption | exact ⟨rfl⟩) : Calm e a (Device.entryCheck d p1) := by
  unfold Device.entryCheck
  split
  · assumption
  · extract_lets x5900
    clear_value x5900
    refine Device.queueJoin_calm ?_
    refine Device.count_calm ?_
    refine Device.putEntry_calm ?_
    assumption
theorem Device.storeCheck_calm {e : Eff} {a : Device} {d : Device} (h : Calm e a d) (e_u10 : Lets (e.unit 10) := by first | assumption | exact ⟨rfl⟩) : Calm e a (Device.storeCheck d) := by
  unfold Device.storeCheck
  apply calm_foldl
  · intro v59
    intro v58
    intro w57
    refine Device.entryCheck_calm ?_
    assumption
  · assumption
theorem Device.entryFill_calm {e : Eff} {a : Device} {d : Device} {p1 : ℕ} {p2 : ℕ} {p3 : ℕ} {p4 : ℕ} {p5 : Entry → Entry} (h : Calm e a d) (e_u10 : Lets (e.unit 10) := by first | assumption | exact ⟨rfl⟩) : Calm e a (Device.entryFill d p1 p2 p3 p4 p5) := by
  unfold Device.entryFill
  extract_lets x1
  clear_value x1
  refine Device.entryCheck_calm ?_
  refine Device.storeShow_calm ?_
  refine Device.putEntry_calm ?_
  assumption
theorem Device.operand_calm {e : Eff} {a : Device} {d : Device} {p1 : ℕ} {p2 : ℕ} {p3 : ℕ} {p4 : ℕ} {p5 : Entry → Entry} (h : Calm e a d) (e_u10 : Lets (e.unit 10) := by first | assumption | exact ⟨rfl⟩) : Calm e a (Device.operand d p1 p2 p3 p4 p5) := by
  unfold Device.operand
  refine Device.entryFill_calm ?_
  refine Device.count_calm ?_
  assumption
theorem Device.stateArrive_calm {e : Eff} {a : Device} {d : Device} {p1 : ℕ} {p2 : ℕ} {p3 : KState} (h : Calm e a d) (e_u10 : Lets (e.unit 10) := by first | assumption | exact ⟨rfl⟩) (e_u12 : Lets (e.unit 12) := by first | assumption | exact ⟨rfl⟩) : Calm e a (Device.stateArrive d p1 p2 p3) := by
  unfold Device.stateArrive
  extract_lets x6000 x6001 x6002
  clear_value x6000
  have hx6001 : Calm e a x6001 := by
    unfold x6001
    refine Device.setPac_calm ?_
    assumption
  clear_value x6001
  clear_value x6002
  apply calm_foldl
  · intro v58
    intro v57
    intro w56
    refine Device.operand_calm ?_
    assumption
  · refine Device.operand_calm ?_
    assumption
theorem Device.stateSkip_calm {e : Eff} {a : Device} {d : Device} {p1 : ℕ} {p2 : ℕ} (h : Calm e a d) (e_u10 : Lets (e.unit 10) := by first | assumption | exact ⟨rfl⟩) (e_u12 : Lets (e.unit 12) := by first | assumption | exact ⟨rfl⟩) : Calm e a (Device.stateSkip d p1 p2) := by
  unfold Device.stateSkip
  apply calm_foldl
  · intro v1
    intro v2
    intro v3
    split
    · assumption
    · extract_lets x4 x5 x6
      have hx4 : Calm e a x4 := by
        unfold x4
        refine Device.dropEntry_calm ?_
        assumption
      clear_value x4
      clear_value x5
      clear_value x6
      split
      · refine Device.storeShow_calm ?_
        assumption
      · extract_lets x7
        have hx7 : Calm e a x7 := by
          unfold x7
          refine Device.setPac_calm ?_
          assumption
        clear_value x7
        refine Device.entryFill_calm ?_
        assumption
  · assumption
theorem Device.stateEnd_calm {e : Eff} {a : Device} {d : Device} {p1 : ℕ} (h : Calm e a d) (e_u10 : Lets (e.unit 10) := by first | assumption | exact ⟨rfl⟩) (e_u12 : Lets (e.unit 12) := by first | assumption | exact ⟨rfl⟩) : Calm e a (Device.stateEnd d p1) := by
  unfold Device.stateEnd
  extract_lets x6000 x6001 x6002 x6003 x6004 x6005
  clear_value x6000
  clear_value x6001
  clear_value x6003
  have hx6004 : Calm e a x6004 := by
    unfold x6004
    refine Device.setPac_calm ?_
    assumption
  clear_value x6004
  clear_value x6005
  refine Device.storeShow_calm ?_
  refine Device.setSrt_calm ?_
  assumption
theorem Device.inFlight_calm {e : Eff} {a : Device} {d : Device} (h : Calm e a d) (e_u10 : Lets (e.unit 10) := by first | assumption | exact ⟨rfl⟩) : Calm e a (Device.inFlight d) := by
  unfold Device.inFlight
  refine Device.hwm_calm ?_
  refine Device.setf_calm ?_
  assumption
theorem Device.setFlight_calm {e : Eff} {a : Device} {d : Device} {p1 : List Task} (h : Calm e a d) (e_u10 : Lets (e.unit 10) := by first | assumption | exact ⟨rfl⟩) : Calm e a (Device.setFlight d p1) := by
  unfold Device.setFlight
  refine Device.inFlight_calm ?_
  refine Device.setSrt_calm ?_
  assumption
theorem Device.listUsed_calm {e : Eff} {a : Device} {d : Device} {p1 : ℕ} (h : Calm e a d) (e_u10 : Lets (e.unit 10) := by first | assumption | exact ⟨rfl⟩) : Calm e a (Device.listUsed d p1) := by
  unfold Device.listUsed
  refine Device.setf_calm ?_
  assumption
theorem Device.addTimer_calm {e : Eff} {a : Device} {d : Device} {p1 : ℕ} {p2 : ℕ} {p3 : ℕ} {p4 : TimerKind} (h : Calm e a d) (e_u10 : Lets (e.unit 10) := by first | assumption | exact ⟨rfl⟩) : Calm e a (Device.addTimer d p1 p2 p3 p4) := by
  unfold Device.addTimer
  split
  · assumption
  · refine Device.listUsed_calm ?_
    refine Device.setSrt_calm ?_
    assumption
theorem Device.unreserve_calm {e : Eff} {a : Device} {d : Device} {p1 : ℕ} {p2 : ℕ} (h : Calm e a d) (e_u10 : Lets (e.unit 10) := by first | assumption | exact ⟨rfl⟩) : Calm e a (Device.unreserve d p1 p2) := by
  unfold Device.unreserve
  refine Device.setf_calm ?_
  assumption
theorem Device.timersGone_calm {e : Eff} {a : Device} {d : Device} {p1 : ℕ} (h : Calm e a d) (e_u8 : Lets (e.unit 8) := by first | assumption | exact ⟨rfl⟩) (e_u10 : Lets (e.unit 10) := by first | assumption | exact ⟨rfl⟩) : Calm e a (Device.timersGone d p1) := by
  unfold Device.timersGone
  split
  · assumption
  · extract_lets x1 x2 x3 x4
    clear_value x1
    clear_value x2
    clear_value x3
    have hx4 : Calm e a x4 := by
      unfold x4
      apply calm_foldl
      · intro v5
        intro v6
        intro v7
        refine Device.unreserve_calm ?_
        assumption
      · refine Device.setRun_calm ?_
        assumption
    clear_value x4
    split
    · refine Device.unreserve_calm ?_
      assumption
    · assumption
theorem Device.dropTimer_calm {e : Eff} {a : Device} {d : Device} {p1 : Timer} (h : Calm e a d) (e_u8 : Lets (e.unit 8) := by first | assumption | exact ⟨rfl⟩) (e_u10 : Lets (e.unit 10) := by first | assumption | exact ⟨rfl⟩) : Calm e a (Device.dropTimer d p1) := by
  unfold Device.dropTimer
  refine Device.timersGone_calm ?_
  refine Device.listUsed_calm ?_
  refine Device.setSrt_calm ?_
  assumption
theorem Device.timerFire_calm {e : Eff} {a : Device} {d : Device} (h : Calm e a d) (e_u10 : Lets (e.unit 10) := by first | assumption | exact ⟨rfl⟩) : Calm e a (Device.timerFire d) := by
  unfold Device.timerFire
  refine Device.count_calm ?_
  refine Device.setSrt_calm ?_
  assumption
theorem Device.timerCarry_calm {e : Eff} {a : Device} {d : Device} {p1 : ℕ} (h : Calm e a d) (e_u10 : Lets (e.unit 10) := by first | assumption | exact ⟨rfl⟩) : Calm e a (Device.timerCarry d p1) := by
  unfold Device.timerCarry
  extract_lets x6000 x6001 x6002 x6003 x6004
  clear_value x6000
  have hx6001 : Calm e a x6001 := by
    unfold x6001
    refine Device.countN_calm ?_
    assumption
  clear_value x6001
  clear_value x6002
  have hx6003 : Calm e a x6003 := by
    unfold x6003
    refine Device.raiseSec_calm ?_
    assumption
  clear_value x6003
  clear_value x6004
  split
  · assumption
  · refine Device.setSrt_calm ?_
    assumption
theorem Device.setHome_calm {e : Eff} {a : Device} {d : Device} {p1 : ℕ} (h : Calm e a d) (e_u10 : Lets (e.unit 10) := by first | assumption | exact ⟨rfl⟩) : Calm e a (Device.setHome d p1) := by
  unfold Device.setHome
  extract_lets x6000 x6001 x6002
  clear_value x6000
  clear_value x6001
  clear_value x6002
  split
  · refine Device.setSrt_calm ?_
    assumption
  · refine Device.setSrt_calm ?_
    assumption
/-! RxlLink. -/
theorem Device.setRxl_calm {e : Eff} {a : Device} {d : Device} {p1 : Rxl} (h : Calm e a d) (e_u21 : Lets (e.unit 21) := by first | assumption | exact ⟨rfl⟩) : Calm e a (Device.setRxl d p1) := by
  unfold Device.setRxl
  refine Calm.upd_rxl ?_
  assumption
theorem Device.setLink_calm {e : Eff} {a : Device} {d : Device} {p1 : ℕ} {p2 : LinkSt} (h : Calm e a d) (e_u21 : Lets (e.unit 21) := by first | assumption | exact ⟨rfl⟩) : Calm e a (Device.setLink d p1 p2) := by
  unfold Device.setLink
  refine Device.setRxl_calm ?_
  assumption
theorem Device.setPeer_calm {e : Eff} {a : Device} {d : Device} {p1 : ℕ} {p2 : PeerSt} (h : Calm e a d) (e_u21 : Lets (e.unit 21) := by first | assumption | exact ⟨rfl⟩) : Calm e a (Device.setPeer d p1 p2) := by
  unfold Device.setPeer
  refine Device.setRxl_calm ?_
  assumption
theorem Device.rxlBytes_calm {e : Eff} {a : Device} {d : Device} {p1 : ℕ} {p2 : ℕ} {p3 : RxlMsg} (h : Calm e a d) (e_u24 : Lets (e.unit 24) := by first | assumption | exact ⟨rfl⟩) : Calm e a (Device.rxlBytes d p1 p2 p3).2 := by
  unfold Device.rxlBytes
  extract_lets x6000 x6001 x6002 x6003
  clear_value x6000
  clear_value x6001
  clear_value x6002
  split
  · split
    · dsimp only
      refine calm_snd (by assumption) ?_
      refine Device.sendKey_calm ?_
      assumption
    · dsimp only
      refine calm_snd (by assumption) ?_
      refine Device.sendKey_calm ?_
      assumption
  · dsimp only
    assumption
theorem Device.rxlPut_calm {e : Eff} {a : Device} {d : Device} {p1 : ℕ} {p2 : List Byte} (h : Calm e a d) (e_u17 : Lets (e.unit 17) := by first | assumption | exact ⟨rfl⟩) : Calm e a (Device.rxlPut d p1 p2) := by
  unfold Device.rxlPut
  split
  · refine Device.emit_calm ?_
    assumption
  · extract_lets x5900 x5901
    clear_value x5900
    clear_value x5901
    split
    · assumption
    · refine Device.txPush_calm ?_
      assumption
theorem Device.rxlEmit_calm {e : Eff} {a : Device} {d : Device} {p1 : ℕ} {p2 : ℕ} {p3 : RxlMsg} (h : Calm e a d) (e_u17 : Lets (e.unit 17) := by first | assumption | exact ⟨rfl⟩) (e_u21 : Lets (e.unit 21) := by first | assumption | exact ⟨rfl⟩) (e_u24 : Lets (e.unit 24) := by first | assumption | exact ⟨rfl⟩) : Calm e a (Device.rxlEmit d p1 p2 p3) := by
  unfold Device.rxlEmit
  split
  · assumption
  · split
    · rename_i w1 w2 w3
      have hw2 : Calm e a w2 := by
        refine calm_snd w3 ?_
        refine Device.rxlBytes_calm ?_
        assumption
      assumption
    · rename_i w4 w5 w6 w7
      have hw6 : Calm e a w6 := by
        refine calm_snd w7 ?_
        refine Device.rxlBytes_calm ?_
        assumption
      split
      · assumption
      · extract_lets x8 x9 x10 x11
        clear_value x8
        clear_value x9
        clear_value x10
        have hx11 : Calm e a x11 := by
          unfold x11
          refine Device.setLink_calm ?_
          assumption
        clear_value x11
        refine Device.rxlPut_calm ?_
        refine Device.count_calm ?_
        assumption
theorem Device.rxlSend_calm {e : Eff} {a : Device} {d : Device} {p1 : ℕ} {p2 : RxlMsg} (h : Calm e a d) (e_u17 : Lets (e.unit 17) := by first | assumption | exact ⟨rfl⟩) (e_u21 : Lets (e.unit 21) := by first | assumption | exact ⟨rfl⟩) (e_u24 : Lets (e.unit 24) := by first | assumption | exact ⟨rfl⟩) : Calm e a (Device.rxlSend d p1 p2) := by
  unfold Device.rxlSend
  split
  · refine Device.rxlEmit_calm ?_
    assumption
  · split
    · assumption
    · extract_lets x5800 x5801 x5802 x5803
      clear_value x5800
      clear_value x5801
      clear_value x5802
      clear_value x5803
      split
      · refine Device.count_calm ?_
        assumption
      · refine Device.rxlEmit_calm ?_
        refine Device.setLink_calm ?_
        assumption
theorem Device.rxlAck_calm {e : Eff} {a : Device} {d : Device} {p1 : ℕ} (h : Calm e a d) (e_u17 : Lets (e.unit 17) := by first | assumption | exact ⟨rfl⟩) (e_u21 : Lets (e.unit 21) := by first | assumption | exact ⟨rfl⟩) (e_u24 : Lets (e.unit 24) := by first | assumption | exact ⟨rfl⟩) : Calm e a (Device.rxlAck d p1) := by
  unfold Device.rxlAck
  refine Device.rxlEmit_calm ?_
  assumption
theorem Device.rxlRoute_calm {e : Eff} {a : Device} {d : Device} {p1 : RxlMsg} (h : Calm e a d) (e_u17 : Lets (e.unit 17) := by first | assumption | exact ⟨rfl⟩) (e_u21 : Lets (e.unit 21) := by first | assumption | exact ⟨rfl⟩) (e_u24 : Lets (e.unit 24) := by first | assumption | exact ⟨rfl⟩) : Calm e a (Device.rxlRoute d p1) := by
  unfold Device.rxlRoute
  split
  · refine Device.rxlSend_calm ?_
    assumption
  · refine Device.count_calm ?_
    assumption
theorem Device.rxlOwn_calm {e : Eff} {a : Device} {d : Device} {p1 : ℕ} {p2 : ℕ} {p3 : List Byte} (h : Calm e a d) (e_u17 : Lets (e.unit 17) := by first | assumption | exact ⟨rfl⟩) (e_u21 : Lets (e.unit 21) := by first | assumption | exact ⟨rfl⟩) (e_u24 : Lets (e.unit 24) := by first | assumption | exact ⟨rfl⟩) : Calm e a (Device.rxlOwn d p1 p2 p3) := by
  unfold Device.rxlOwn
  refine Device.rxlRoute_calm ?_
  assumption
theorem Device.linkRefresh_calm {e : Eff} {a : Device} {d : Device} {p1 : ℕ} {p2 : ℕ} (h : Calm e a d) (e_u21 : Lets (e.unit 21) := by first | assumption | exact ⟨rfl⟩) : Calm e a (Device.linkRefresh d p1 p2) := by
  unfold Device.linkRefresh
  extract_lets x6000 x6001 x6002 x6003 x6004 x6005
  clear_value x6000
  clear_value x6001
  have hx6002 : Calm e a x6002 := by
    unfold x6002
    refine Device.setLink_calm ?_
    assumption
  clear_value x6002
  clear_value x6003
  clear_value x6004
  have hx6005 : Calm e a x6005 := by
    unfold x6005
    refine Device.setLink_calm ?_
    assumption
  clear_value x6005
  split
  · assumption
  · split
    · refine Device.raise_calm ?_
      assumption
    · refine Device.raise_calm ?_
      refine Device.countN_calm ?_
      assumption
theorem Device.linkHealth_calm {e : Eff} {a : Device} {d : Device} {p1 : ℕ} {p2 : Bool} {p3 : ℕ} (h : Calm e a d) (e_u10 : Lets (e.unit 10) := by first | assumption | exact ⟨rfl⟩) (e_u21 : Lets (e.unit 21) := by first | assumption | exact ⟨rfl⟩) : Calm e a (Device.linkHealth d p1 p2 p3) := by
  unfold Device.linkHealth
  extract_lets x6000 x6001
  clear_value x6000
  have hx6001 : Calm e a x6001 := by
    unfold x6001
    refine Device.setLink_calm ?_
    assumption
  clear_value x6001
  refine Device.linkRefresh_calm ?_
  split
  · refine Device.unitRefresh_calm ?_
    assumption
  · assumption
theorem Device.linksRefresh_calm {e : Eff} {a : Device} {d : Device} (h : Calm e a d) (e_u21 : Lets (e.unit 21) := by first | assumption | exact ⟨rfl⟩) : Calm e a (Device.linksRefresh d) := by
  unfold Device.linksRefresh
  apply calm_foldl
  · intro v59
    intro v58
    intro w57
    refine Device.linkRefresh_calm ?_
    assumption
  · assumption
theorem rxlRetransmit_calm {e : Eff} {a : Device} {p0 : ℕ} {p1 : ℕ} {d : Device} (h : Calm e a d) (e_u10 : Lets (e.unit 10) := by first | assumption | exact ⟨rfl⟩) (e_u17 : Lets (e.unit 17) := by first | assumption | exact ⟨rfl⟩) (e_u21 : Lets (e.unit 21) := by first | assumption | exact ⟨rfl⟩) (e_u24 : Lets (e.unit 24) := by first | assumption | exact ⟨rfl⟩) : Calm e a (rxlRetransmit p0 p1 d) := by
  unfold rxlRetransmit
  split
  · assumption
  · split
    · assumption
    · split
      · refine Device.linkHealth_calm ?_
        refine Device.setLink_calm ?_
        assumption
      · extract_lets x5700 x5701 x5702
        clear_value x5700
        clear_value x5701
        have hx5702 : Calm e a x5702 := by
          unfold x5702
          refine Device.setLink_calm ?_
          assumption
        clear_value x5702
        apply calm_foldl
        · intro v55
          intro v54
          intro w53
          refine Device.rxlEmit_calm ?_
          refine Device.count_calm ?_
          assumption
        · assumption
theorem rxlAckDelay_calm {e : Eff} {a : Device} {p0 : ℕ} {d : Device} (h : Calm e a d) (e_u17 : Lets (e.unit 17) := by first | assumption | exact ⟨rfl⟩) (e_u21 : Lets (e.unit 21) := by first | assumption | exact ⟨rfl⟩) (e_u24 : Lets (e.unit 24) := by first | assumption | exact ⟨rfl⟩) : Calm e a (rxlAckDelay p0 d) := by
  unfold rxlAckDelay
  extract_lets x6000 x6001
  clear_value x6000
  clear_value x6001
  split
  · refine Device.rxlAck_calm ?_
    assumption
  · assumption
theorem rxlPortWrite_calm {e : Eff} {a : Device} {p0 : ℕ} {p1 : Word} {d : Device} (h : Calm e a d) (e_u10 : Lets (e.unit 10) := by first | assumption | exact ⟨rfl⟩) (e_u21 : Lets (e.unit 21) := by first | assumption | exact ⟨rfl⟩) : Calm e a (rxlPortWrite p0 p1 d) := by
  unfold rxlPortWrite
  extract_lets x6000 x6001 x6002 x6003 x6004
  clear_value x6000
  clear_value x6001
  have hx6002 : Calm e a x6002 := by
    unfold x6002
    refine Device.setf_calm ?_
    assumption
  clear_value x6002
  have hx6003 : Calm e a x6003 := by
    unfold x6003
    refine Device.setf_calm ?_
    refine Device.setf_calm ?_
    refine Device.setf_calm ?_
    refine Device.setf_calm ?_
    assumption
  clear_value x6003
  clear_value x6004
  split
  · assumption
  · split
    · assumption
    · refine Device.linkHealth_calm ?_
      refine Device.setLink_calm ?_
      assumption
theorem rxlTrained_calm {e : Eff} {a : Device} {p0 : ℕ} {d : Device} (h : Calm e a d) (e_u21 : Lets (e.unit 21) := by first | assumption | exact ⟨rfl⟩) : Calm e a (rxlTrained p0 d) := by
  unfold rxlTrained
  split
  · refine Device.setf_calm ?_
    assumption
  · assumption
theorem rxlLock_calm {e : Eff} {a : Device} {p0 : ℕ} {p1 : Bool} {d : Device} (h : Calm e a d) (e_u10 : Lets (e.unit 10) := by first | assumption | exact ⟨rfl⟩) (e_u21 : Lets (e.unit 21) := by first | assumption | exact ⟨rfl⟩) : Calm e a (rxlLock p0 p1 d) := by
  unfold rxlLock
  split
  · assumption
  · split
    · refine Device.setf_calm ?_
      refine Device.setf_calm ?_
      assumption
    · extract_lets x5800 x5801
      have hx5800 : Calm e a x5800 := by
        unfold x5800
        refine Device.setf_calm ?_
        refine Device.setf_calm ?_
        refine Device.setf_calm ?_
        assumption
      clear_value x5800
      clear_value x5801
      refine Device.linkHealth_calm ?_
      refine Device.setLink_calm ?_
      assumption
theorem cadenceLink_calm {e : Eff} {a : Device} {p0 : ℕ} {d : Device} (h : Calm e a d) (e_u17 : Lets (e.unit 17) := by first | assumption | exact ⟨rfl⟩) (e_u21 : Lets (e.unit 21) := by first | assumption | exact ⟨rfl⟩) (e_u24 : Lets (e.unit 24) := by first | assumption | exact ⟨rfl⟩) : Calm e a (cadenceLink p0 d) := by
  unfold cadenceLink
  extract_lets x6000 x6001
  clear_value x6000
  clear_value x6001
  split
  · assumption
  · refine Device.rxlEmit_calm ?_
    refine Device.setLink_calm ?_
    assumption
theorem cadencePeer_calm {e : Eff} {a : Device} {p0 : ℕ} {d : Device} (h : Calm e a d) (e_u17 : Lets (e.unit 17) := by first | assumption | exact ⟨rfl⟩) (e_u21 : Lets (e.unit 21) := by first | assumption | exact ⟨rfl⟩) (e_u24 : Lets (e.unit 24) := by first | assumption | exact ⟨rfl⟩) : Calm e a (cadencePeer p0 d) := by
  unfold cadencePeer
  split
  · assumption
  · extract_lets x5900
    clear_value x5900
    split
    · assumption
    · refine Device.rxlOwn_calm ?_
      refine Device.setPeer_calm ?_
      assumption
theorem rxlCadTimeout_calm {e : Eff} {a : Device} {p0 : ℕ} {d : Device} (h : Calm e a d) (e_u10 : Lets (e.unit 10) := by first | assumption | exact ⟨rfl⟩) (e_u21 : Lets (e.unit 21) := by first | assumption | exact ⟨rfl⟩) : Calm e a (rxlCadTimeout p0 d) := by
  unfold rxlCadTimeout
  extract_lets x6000
  clear_value x6000
  split
  · assumption
  · split
    · assumption
    · refine Device.linkHealth_calm ?_
      refine Device.setLink_calm ?_
      split
      · refine Device.setf_calm ?_
        assumption
      · assumption
theorem peerLost_calm {e : Eff} {a : Device} {p0 : ℕ} {d : Device} (h : Calm e a d) (e_u10 : Lets (e.unit 10) := by first | assumption | exact ⟨rfl⟩) (e_u21 : Lets (e.unit 21) := by first | assumption | exact ⟨rfl⟩) : Calm e a (peerLost p0 d) := by
  unfold peerLost
  extract_lets x6000
  clear_value x6000
  split
  · assumption
  · split
    · assumption
    · refine Device.unitRefresh_calm ?_
      refine Device.raise_calm ?_
      refine Device.count_calm ?_
      refine Device.setPeer_calm ?_
      assumption
theorem Device.peerCadence_calm {e : Eff} {a : Device} {d : Device} {p1 : ℕ} {p2 : ℕ} {p3 : ℕ} {p4 : ℕ} (h : Calm e a d) (e_u10 : Lets (e.unit 10) := by first | assumption | exact ⟨rfl⟩) (e_u21 : Lets (e.unit 21) := by first | assumption | exact ⟨rfl⟩) : Calm e a (Device.peerCadence d p1 p2 p3 p4) := by
  unfold Device.peerCadence
  extract_lets x6000 x6001 x6002 x6003 x6004
  clear_value x6003
  have hx6004 : Calm e a x6004 := by
    unfold x6004
    refine Device.setPeer_calm ?_
    assumption
  clear_value x6004
  split
  · refine Device.unitRefresh_calm ?_
    refine Device.raise_calm ?_
    assumption
  · assumption
theorem Device.linkCadence_calm {e : Eff} {a : Device} {d : Device} {p1 : ℕ} {p2 : ℕ} (h : Calm e a d) (e_u10 : Lets (e.unit 10) := by first | assumption | exact ⟨rfl⟩) (e_u21 : Lets (e.unit 21) := by first | assumption | exact ⟨rfl⟩) : Calm e a (Device.linkCadence d p1 p2) := by
  unfold Device.linkCadence
  extract_lets x6000 x6001 x6002 x6003 x6004 x6005 x6006 x6007
  clear_value x6003
  clear_value x6004
  clear_value x6005
  clear_value x6006
  have hx6007 : Calm e a x6007 := by
    unfold x6007
    refine Device.setLink_calm ?_
    split
    · refine Device.setf_calm ?_
      assumption
    · assumption
  clear_value x6007
  split
  · refine Device.linkHealth_calm ?_
    assumption
  · assumption
/-! Laps. -/
theorem Device.putRecs_calm {e : Eff} {a : Device} {d : Device} {p1 : ℕ} {p2 : ℕ} {p3 : ℕ} {p4 : List (List Word)} (h : Calm e a d) (e_u8 : Lets (e.unit 8) := by first | assumption | exact ⟨rfl⟩) : Calm e a (Device.putRecs d p1 p2 p3 p4) := by
  unfold Device.putRecs
  refine Device.setPfa_calm ?_
  assumption
theorem Device.holdRecs_calm {e : Eff} {a : Device} {d : Device} {p1 : ℕ} {p2 : ℕ} {p3 : List (List Word)} (h : Calm e a d) (e_u8 : Lets (e.unit 8) := by first | assumption | exact ⟨rfl⟩) : Calm e a (Device.holdRecs d p1 p2 p3) := by
  unfold Device.holdRecs
  refine Device.setPfa_calm ?_
  assumption
theorem Device.stageShow_calm {e : Eff} {a : Device} {d : Device} (h : Calm e a d) (e_u8 : Lets (e.unit 8) := by first | assumption | exact ⟨rfl⟩) : Calm e a (Device.stageShow d) := by
  unfold Device.stageShow
  refine Device.hwm_calm ?_
  refine Device.setf_calm ?_
  assumption
theorem Device.stageAdd_calm {e : Eff} {a : Device} {d : Device} {p1 : Staged} (h : Calm e a d) (e_u8 : Lets (e.unit 8) := by first | assumption | exact ⟨rfl⟩) : Calm e a (Device.stageAdd d p1) := by
  unfold Device.stageAdd
  refine Device.stageShow_calm ?_
  refine Device.setPfa_calm ?_
  assumption
theorem Device.stageDrop_calm {e : Eff} {a : Device} {d : Device} {p1 : Staged → Bool} (h : Calm e a d) (e_u8 : Lets (e.unit 8) := by first | assumption | exact ⟨rfl⟩) : Calm e a (Device.stageDrop d p1) := by
  unfold Device.stageDrop
  refine Device.stageShow_calm ?_
  refine Device.setPfa_calm ?_
  assumption
theorem Device.latObserve_calm {e : Eff} {a : Device} {d : Device} {p1 : ℕ} {p2 : ℕ} (h : Calm e a d) (e_u8 : Lets (e.unit 8) := by first | assumption | exact ⟨rfl⟩) : Calm e a (Device.latObserve d p1 p2) := by
  unfold Device.latObserve
  extract_lets x6000 x6001 x6002 x6003 x6004
  clear_value x6000
  have hx6001 : Calm e a x6001 := by
    unfold x6001
    split
    · assumption
    · refine Device.setPfa_calm ?_
      assumption
  clear_value x6001
  clear_value x6002
  clear_value x6003
  clear_value x6004
  split
  · assumption
  · refine Device.setPfa_calm ?_
    assumption
theorem Device.latFrame_calm {e : Eff} {a : Device} {d : Device} {p1 : ℕ} {p2 : ℕ} {p3 : ℕ} {p4 : List (List Word)} (h : Calm e a d) (e_u8 : Lets (e.unit 8) := by first | assumption | exact ⟨rfl⟩) : Calm e a (Device.latFrame d p1 p2 p3 p4) := by
  unfold Device.latFrame
  split
  · assumption
  · split
    · assumption
    · extract_lets x5800
      clear_value x5800
      refine Device.latObserve_calm ?_
      refine Device.setLap_calm ?_
      assumption
theorem Device.windowOpen_calm {e : Eff} {a : Device} {d : Device} {p1 : ℕ} {p2 : HeatRun} (h : Calm e a d) (e_u8 : Lets (e.unit 8) := by first | assumption | exact ⟨rfl⟩) : Calm e a (Device.windowOpen d p1 p2) := by
  unfold Device.windowOpen
  extract_lets x6000 x6001 x6002 x6003 x6004 x6005 x6006
  clear_value x6000
  clear_value x6001
  clear_value x6002
  clear_value x6003
  clear_value x6004
  have hx6005 : Calm e a x6005 := by
    unfold x6005
    refine Device.setRun_calm ?_
    assumption
  clear_value x6005
  have hx6006 : Calm e a x6006 := by
    unfold x6006
    split
    · refine Device.count_calm ?_
      assumption
    · assumption
  clear_value x6006
  split
  · refine Device.raise_calm ?_
    assumption
  · split
    · refine Device.raise_calm ?_
      assumption
    · assumption
theorem Device.substLap_calm {e : Eff} {a : Device} {d : Device} {p1 : Lap} (h : Calm e a d) (e_u8 : Lets (e.unit 8) := by first | assumption | exact ⟨rfl⟩) : Calm e a (Device.substLap d p1) := by
  unfold Device.substLap
  extract_lets x6000 x6001 x6002
  clear_value x6000
  have hx6001 : Calm e a x6001 := by
    unfold x6001
    apply calm_foldl
    · intro v58
      intro v57
      intro w56
      refine Device.count_calm ?_
      refine Device.putRecs_calm ?_
      assumption
    · assumption
  clear_value x6001
  have hx6002 : Calm e a x6002 := by
    unfold x6002
    refine Device.setLap_calm ?_
    assumption
  clear_value x6002
  split
  · assumption
  · apply calm_foldl
    · intro v57
      intro v56
      intro w55
      split
      · refine Device.putRecs_calm ?_
        assumption
      · assumption
    · assumption
theorem Device.commitLap_calm {e : Eff} {a : Device} {d : Device} {p1 : Lap} {p2 : Time} (h : Calm e a d) (e_u8 : Lets (e.unit 8) := by first | assumption | exact ⟨rfl⟩) : Calm e a (Device.commitLap d p1 p2).2 := by
  unfold Device.commitLap
  extract_lets x6000 x6001 x6002 x6003
  clear_value x6000
  have hx6001 : Calm e a x6001 := by
    unfold x6001
    apply calm_foldl
    · intro v58
      intro v57
      intro w56
      extract_lets x5500
      clear_value x5500
      refine Device.holdRecs_calm ?_
      refine Device.putRecs_calm ?_
      assumption
    · assumption
  clear_value x6001
  have hx6002 : Calm e a x6002 := by
    unfold x6002
    refine Device.stageDrop_calm ?_
    assumption
  clear_value x6002
  clear_value x6003
  dsimp only
  refine Device.setLap_calm ?_
  assumption
theorem Device.journalDecision_calm {e : Eff} {a : Device} {d : Device} {p1 : ℕ} {p2 : ℕ} {p3 : ℕ} {p4 : ℕ} {p5 : ℕ} {p6 : ℕ} {p7 : Time} (h : Calm e a d) (e_dd : Lets e.dd := by first | assumption | exact ⟨rfl⟩) (e_jnl : Lets e.jnl := by first | assumption | exact ⟨rfl⟩) : Calm e a (Device.journalDecision d p1 p2 p3 p4 p5 p6 p7) := by
  unfold Device.journalDecision
  refine Device.journalW_calm ?_
  assumption
/-! Tokens. -/
theorem Device.outPut_calm {e : Eff} {a : Device} {d : Device} {p1 : ℕ} {p2 : List Word} (h : Calm e a d) (e_u12 : Lets (e.unit 12) := by first | assumption | exact ⟨rfl⟩) : Calm e a (Device.outPut d p1 p2) := by
  unfold Device.outPut
  extract_lets x1 x2
  clear_value x1
  have hx2 : Calm e a x2 := by
    unfold x2
    refine Device.setPac_calm ?_
    assumption
  clear_value x2
  refine Calm.upd_noted ?_
  assumption
theorem Device.publish_calm {e : Eff} {a : Device} {d : Device} {p1 : Block} (h : Calm e a d) (e_dd : Lets e.dd := by first | assumption | exact ⟨rfl⟩) (e_jnl : Lets e.jnl := by first | assumption | exact ⟨rfl⟩) (e_u12 : Lets (e.unit 12) := by first | assumption | exact ⟨rfl⟩) (e_u16 : Lets (e.unit 16) := by first | assumption | exact ⟨rfl⟩) (e_u17 : Lets (e.unit 17) := by first | assumption | exact ⟨rfl⟩) (e_u23 : Lets (e.unit 23) := by first | assumption | exact ⟨rfl⟩) (e_u24 : Lets (e.unit 24) := by first | assumption | exact ⟨rfl⟩) : Calm e a (Device.publish d p1) := by
  unfold Device.publish
  extract_lets x1 x2 x3
  clear_value x1
  clear_value x2
  have hx3 : Calm e a x3 := by
    unfold x3
    refine Device.setPac_calm ?_
    assumption
  clear_value x3
  refine Device.hurdleBlock_calm ?_
  refine Device.outPut_calm ?_
  assumption
theorem Device.reissueNow_calm {e : Eff} {a : Device} {d : Device} {p1 : ℕ} {p2 : ℕ} (h : Calm e a d) (e_dd : Lets e.dd := by first | assumption | exact ⟨rfl⟩) (e_jnl : Lets e.jnl := by first | assumption | exact ⟨rfl⟩) (e_u12 : Lets (e.unit 12) := by first | assumption | exact ⟨rfl⟩) (e_u16 : Lets (e.unit 16) := by first | assumption | exact ⟨rfl⟩) (e_u17 : Lets (e.unit 17) := by first | assumption | exact ⟨rfl⟩) (e_u23 : Lets (e.unit 23) := by first | assumption | exact ⟨rfl⟩) (e_u24 : Lets (e.unit 24) := by first | assumption | exact ⟨rfl⟩) : Calm e a (Device.reissueNow d p1 p2) := by
  unfold Device.reissueNow
  split
  · split
    · assumption
    · refine Device.publish_calm ?_
      refine Device.count_calm ?_
      assumption
  · assumption
theorem Device.reissue_calm {e : Eff} {a : Device} {d : Device} {p1 : ℕ} {p2 : ℕ} {p3 : ℕ} {p4 : Bool} (h : Calm e a d) (e_dd : Lets e.dd := by first | assumption | exact ⟨rfl⟩) (e_jnl : Lets e.jnl := by first | assumption | exact ⟨rfl⟩) (e_u12 : Lets (e.unit 12) := by first | assumption | exact ⟨rfl⟩) (e_u16 : Lets (e.unit 16) := by first | assumption | exact ⟨rfl⟩) (e_u17 : Lets (e.unit 17) := by first | assumption | exact ⟨rfl⟩) (e_u23 : Lets (e.unit 23) := by first | assumption | exact ⟨rfl⟩) (e_u24 : Lets (e.unit 24) := by first | assumption | exact ⟨rfl⟩) : Calm e a (Device.reissue d p1 p2 p3 p4) := by
  unfold Device.reissue
  split
  · refine Device.setPac_calm ?_
    assumption
  · refine Device.reissueNow_calm ?_
    assumption
theorem Device.freeMaps_calm {e : Eff} {a : Device} {d : Device} {p1 : BMap → Bool} (h : Calm e a d) (e_u8 : Lets (e.unit 8) := by first | assumption | exact ⟨rfl⟩) : Calm e a (Device.freeMaps d p1) := by
  unfold Device.freeMaps
  extract_lets x1 x2
  clear_value x1
  clear_value x2
  refine Device.setPfa_calm ?_
  assumption
theorem Device.heatDrain_calm {e : Eff} {a : Device} {d : Device} {p1 : ℕ} (h : Calm e a d) (e_u8 : Lets (e.unit 8) := by first | assumption | exact ⟨rfl⟩) (e_u10 : Lets (e.unit 10) := by first | assumption | exact ⟨rfl⟩) (e_u12 : Lets (e.unit 12) := by first | assumption | exact ⟨rfl⟩) : Calm e a (Device.heatDrain d p1) := by
  unfold Device.heatDrain
  split
  · assumption
  · extract_lets x1 x2
    clear_value x1
    have hx2 : Calm e a x2 := by
      unfold x2
      split
      · assumption
      · refine Device.freeMaps_calm ?_
        assumption
    clear_value x2
    split
    · assumption
    · refine Device.stateEnd_calm ?_
      refine Device.freeMaps_calm ?_
      assumption
theorem Device.amendLost_calm {e : Eff} {a : Device} {d : Device} {p1 : ℕ} {p2 : ℕ} {p3 : Staged → Bool} (h : Calm e a d) (e_u8 : Lets (e.unit 8) := by first | assumption | exact ⟨rfl⟩) : Calm e a (Device.amendLost d p1 p2 p3) := by
  unfold Device.amendLost
  extract_lets x6000 x6001
  clear_value x6000
  have hx6001 : Calm e a x6001 := by
    unfold x6001
    refine Device.countN_calm ?_
    refine Device.stageDrop_calm ?_
    assumption
  clear_value x6001
  split
  · assumption
  · split
    · assumption
    · extract_lets x5700
      have hx5700 : Calm e a x5700 := by
        unfold x5700
        refine Device.raiseSec_calm ?_
        assumption
      clear_value x5700
      refine Device.setRun_calm ?_
      assumption
theorem Device.closeLap_calm {e : Eff} {a : Device} {d : Device} {p1 : ℕ} {p2 : ℕ} (h : Calm e a d) (e_u8 : Lets (e.unit 8) := by first | assumption | exact ⟨rfl⟩) (e_u10 : Lets (e.unit 10) := by first | assumption | exact ⟨rfl⟩) (e_u12 : Lets (e.unit 12) := by first | assumption | exact ⟨rfl⟩) : Calm e a (Device.closeLap d p1 p2) := by
  unfold Device.closeLap
  extract_lets x6000 x6001 x6002 x6003 x6004
  have hx6000 : Calm e a x6000 := by
    unfold x6000
    refine Device.delLap_calm ?_
    refine Device.amendLost_calm ?_
    assumption
  clear_value x6000
  clear_value x6001
  clear_value x6004
  refine Device.heatDrain_calm ?_
  refine Device.setPac_calm ?_
  assumption
theorem Device.closeCheck_calm {e : Eff} {a : Device} {d : Device} {p1 : ℕ} {p2 : ℕ} (h : Calm e a d) (e_u8 : Lets (e.unit 8) := by first | assumption | exact ⟨rfl⟩) (e_u10 : Lets (e.unit 10) := by first | assumption | exact ⟨rfl⟩) (e_u12 : Lets (e.unit 12) := by first | assumption | exact ⟨rfl⟩) : Calm e a (Device.closeCheck d p1 p2) := by
  unfold Device.closeCheck
  split
  · split
    · refine Device.closeLap_calm ?_
      assumption
    · assumption
  · assumption
theorem Device.granted_calm {e : Eff} {a : Device} {d : Device} {p1 : ℕ} (h : Calm e a d) (e_u10 : Lets (e.unit 10) := by first | assumption | exact ⟨rfl⟩) : Calm e a (Device.granted d p1) := by
  unfold Device.granted
  extract_lets x6000 x6001
  clear_value x6000
  have hx6001 : Calm e a x6001 := by
    unfold x6001
    refine Device.storeShow_calm ?_
    refine Device.setSrt_calm ?_
    assumption
  clear_value x6001
  split
  · refine Device.setf_calm ?_
    assumption
  · assumption
theorem Device.relRefuse_calm {e : Eff} {a : Device} {d : Device} {p1 : ℕ} {p2 : ℕ} {p3 : ℕ} (h : Calm e a d) (e_u10 : Lets (e.unit 10) := by first | assumption | exact ⟨rfl⟩) : Calm e a (Device.relRefuse d p1 p2 p3) := by
  unfold Device.relRefuse
  extract_lets x6000 x6001
  have hx6000 : Calm e a x6000 := by
    unfold x6000
    refine Device.count_calm ?_
    assumption
  clear_value x6000
  clear_value x6001
  split
  · assumption
  · refine Device.raise_calm ?_
    refine Device.setf_calm ?_
    refine Device.setSrt_calm ?_
    assumption
theorem Device.makeTasks_calm {e : Eff} {a : Device} {d : Device} {p1 : List ℕ} {p2 : Tok} (h : Calm e a d) (e_u10 : Lets (e.unit 10) := by first | assumption | exact ⟨rfl⟩) : Calm e a (Device.makeTasks d p1 p2) := by
  unfold Device.makeTasks
  apply calm_foldl
  · intro v59
    intro v58
    intro w57
    refine Device.operand_calm ?_
    assumption
  · assumption
theorem Device.delivered_calm {e : Eff} {a : Device} {d : Device} {p1 : Lap} {p2 : Tok} {p3 : ℕ} (h : Calm e a d) (e_u8 : Lets (e.unit 8) := by first | assumption | exact ⟨rfl⟩) (e_u10 : Lets (e.unit 10) := by first | assumption | exact ⟨rfl⟩) : Calm e a (Device.delivered d p1 p2 p3) := by
  unfold Device.delivered
  refine Device.setLap_calm ?_
  refine Device.setSrt_calm ?_
  assumption
theorem Device.deliverRelease_calm {e : Eff} {a : Device} {d : Device} {p1 : Lap} {p2 : Tok} {p3 : ℕ} (h : Calm e a d) (e_dd : Lets e.dd := by first | assumption | exact ⟨rfl⟩) (e_jnl : Lets e.jnl := by first | assumption | exact ⟨rfl⟩) (e_u8 : Lets (e.unit 8) := by first | assumption | exact ⟨rfl⟩) (e_u10 : Lets (e.unit 10) := by first | assumption | exact ⟨rfl⟩) (e_u17 : Lets (e.unit 17) := by first | assumption | exact ⟨rfl⟩) (e_u20 : Lets (e.unit 20) := by first | assumption | exact ⟨rfl⟩) (e_u26 : Lets (e.unit 26) := by first | assumption | exact ⟨rfl⟩) : Calm e a (Device.deliverRelease d p1 p2 p3) := by
  unfold Device.deliverRelease
  extract_lets x1 x2 x3
  clear_value x1
  have hx2 : Calm e a x2 := by
    unfold x2
    refine Device.journalDecision_calm ?_
    refine Device.delivered_calm ?_
    assumption
  clear_value x2
  have hx3 : Calm e a x3 := by
    unfold x3
    refine Device.makeTasks_calm ?_
    assumption
  clear_value x3
  refine Device.clientLap_calm ?_
  refine Device.energyLap_calm ?_
  assumption
theorem Device.deliverAmend_calm {e : Eff} {a : Device} {d : Device} {p1 : Lap} {p2 : Tok} {p3 : Time} {p4 : ℕ} (h : Calm e a d) (e_dd : Lets e.dd := by first | assumption | exact ⟨rfl⟩) (e_jnl : Lets e.jnl := by first | assumption | exact ⟨rfl⟩) (e_u8 : Lets (e.unit 8) := by first | assumption | exact ⟨rfl⟩) (e_u10 : Lets (e.unit 10) := by first | assumption | exact ⟨rfl⟩) (e_u17 : Lets (e.unit 17) := by first | assumption | exact ⟨rfl⟩) (e_u26 : Lets (e.unit 26) := by first | assumption | exact ⟨rfl⟩) : Calm e a (Device.deliverAmend d p1 p2 p3 p4) := by
  unfold Device.deliverAmend
  extract_lets x1 x2
  clear_value x1
  have hx2 : Calm e a x2 := by
    unfold x2
    refine Device.journalDecision_calm ?_
    refine Device.delivered_calm ?_
    assumption
  clear_value x2
  refine Device.clientLap_calm ?_
  refine Device.count_calm ?_
  refine Device.makeTasks_calm ?_
  assumption
theorem Device.deliverSettle_calm {e : Eff} {a : Device} {d : Device} {p1 : Lap} (h : Calm e a d) (e_dd : Lets e.dd := by first | assumption | exact ⟨rfl⟩) (e_jnl : Lets e.jnl := by first | assumption | exact ⟨rfl⟩) (e_u8 : Lets (e.unit 8) := by first | assumption | exact ⟨rfl⟩) (e_u10 : Lets (e.unit 10) := by first | assumption | exact ⟨rfl⟩) (e_u12 : Lets (e.unit 12) := by first | assumption | exact ⟨rfl⟩) (e_u16 : Lets (e.unit 16) := by first | assumption | exact ⟨rfl⟩) (e_u17 : Lets (e.unit 17) := by first | assumption | exact ⟨rfl⟩) (e_u23 : Lets (e.unit 23) := by first | assumption | exact ⟨rfl⟩) (e_u24 : Lets (e.unit 24) := by first | assumption | exact ⟨rfl⟩) (e_u26 : Lets (e.unit 26) := by first | assumption | exact ⟨rfl⟩) : Calm e a (Device.deliverSettle d p1) := by
  unfold Device.deliverSettle
  extract_lets x1 x2 x3
  clear_value x1
  have hx2 : Calm e a x2 := by
    unfold x2
    refine Device.journalDecision_calm ?_
    refine Device.setLap_calm ?_
    assumption
  clear_value x2
  have hx3 : Calm e a x3 := by
    unfold x3
    refine Device.clientLap_calm ?_
    refine Device.count_calm ?_
    assumption
  clear_value x3
  refine Device.closeCheck_calm ?_
  apply calm_foldl
  · intro v4
    intro v5
    intro v6
    refine Device.reissue_calm ?_
    assumption
  · assumption
theorem Device.pendShow_calm {e : Eff} {a : Device} {d : Device} (h : Calm e a d) (e_u8 : Lets (e.unit 8) := by first | assumption | exact ⟨rfl⟩) : Calm e a (Device.pendShow d) := by
  unfold Device.pendShow
  extract_lets x6000 x6001 x6002
  clear_value x6000
  have hx6001 : Calm e a x6001 := by
    unfold x6001
    refine Device.hwm_calm ?_
    refine Device.setf_calm ?_
    assumption
  clear_value x6001
  clear_value x6002
  split
  · refine Device.setPfa_calm ?_
    assumption
  · assumption
theorem Device.pendJoin_calm {e : Eff} {a : Device} {d : Device} {p1 : ℕ} {p2 : ℕ} {p3 : TokKind} (h : Calm e a d) (e_u8 : Lets (e.unit 8) := by first | assumption | exact ⟨rfl⟩) : Calm e a (Device.pendJoin d p1 p2 p3) := by
  unfold Device.pendJoin
  extract_lets x6000 x6001 x6002 x6003
  have hx6000 : Calm e a x6000 := by
    unfold x6000
    split
    · split
      · refine Device.setLap_calm ?_
        assumption
      · assumption
    · assumption
  clear_value x6001
  have hx6002 : Calm e a x6002 := by
    unfold x6002
    refine Device.count_calm ?_
    refine Device.setPfa_calm ?_
    assumption
  clear_value x6002
  clear_value x6003
  split
  · refine Device.pendShow_calm ?_
    refine Device.count_calm ?_
    refine Device.setPfa_calm ?_
    assumption
  · split
    · assumption
    · refine Device.raise_calm ?_
      refine Device.setPfa_calm ?_
      assumption
theorem Device.pendRefill_calm {e : Eff} {a : Device} {d : Device} (h : Calm e a d) (e_u8 : Lets (e.unit 8) := by first | assumption | exact ⟨rfl⟩) : Calm e a (Device.pendRefill d) := by
  unfold Device.pendRefill
  split
  · assumption
  · split
    · refine Device.pendShow_calm ?_
      refine Device.count_calm ?_
      refine Device.setPfa_calm ?_
      assumption
    · assumption
theorem Device.setOffered_calm {e : Eff} {a : Device} {d : Device} {p1 : ℕ} {p2 : ℕ} {p3 : TokKind} (h : Calm e a d) (e_u8 : Lets (e.unit 8) := by first | assumption | exact ⟨rfl⟩) : Calm e a (Device.setOffered d p1 p2 p3) := by
  unfold Device.setOffered
  split
  · refine Device.setLap_calm ?_
    assumption
  · assumption
theorem Device.issueLater_calm {e : Eff} {a : Device} {d : Device} {p1 : Lap} {p2 : TokKind} {p3 : ℕ} (h : Calm e a d) (e_dd : Lets e.dd := by first | assumption | exact ⟨rfl⟩) (e_jnl : Lets e.jnl := by first | assumption | exact ⟨rfl⟩) (e_u8 : Lets (e.unit 8) := by first | assumption | exact ⟨rfl⟩) (e_u10 : Lets (e.unit 10) := by first | assumption | exact ⟨rfl⟩) (e_u12 : Lets (e.unit 12) := by first | assumption | exact ⟨rfl⟩) (e_u16 : Lets (e.unit 16) := by first | assumption | exact ⟨rfl⟩) (e_u17 : Lets (e.unit 17) := by first | assumption | exact ⟨rfl⟩) (e_u23 : Lets (e.unit 23) := by first | assumption | exact ⟨rfl⟩) (e_u24 : Lets (e.unit 24) := by first | assumption | exact ⟨rfl⟩) (e_u26 : Lets (e.unit 26) := by first | assumption | exact ⟨rfl⟩) : Calm e a (Device.issueLater d p1 p2 p3) := by
  unfold Device.issueLater
  split
  · refine Device.deliverSettle_calm ?_
    refine Device.granted_calm ?_
    assumption
  · extract_lets x1 x2
    clear_value x1
    clear_value x2
    refine Device.setLap_calm ?_
    refine Device.granted_calm ?_
    assumption
theorem Device.offerLater_calm {e : Eff} {a : Device} {d : Device} {p1 : ℕ} {p2 : ℕ} {p3 : TokKind} (h : Calm e a d) (e_dd : Lets e.dd := by first | assumption | exact ⟨rfl⟩) (e_jnl : Lets e.jnl := by first | assumption | exact ⟨rfl⟩) (e_u8 : Lets (e.unit 8) := by first | assumption | exact ⟨rfl⟩) (e_u10 : Lets (e.unit 10) := by first | assumption | exact ⟨rfl⟩) (e_u12 : Lets (e.unit 12) := by first | assumption | exact ⟨rfl⟩) (e_u16 : Lets (e.unit 16) := by first | assumption | exact ⟨rfl⟩) (e_u17 : Lets (e.unit 17) := by first | assumption | exact ⟨rfl⟩) (e_u23 : Lets (e.unit 23) := by first | assumption | exact ⟨rfl⟩) (e_u24 : Lets (e.unit 24) := by first | assumption | exact ⟨rfl⟩) (e_u26 : Lets (e.unit 26) := by first | assumption | exact ⟨rfl⟩) : Calm e a (Device.offerLater d p1 p2 p3) := by
  unfold Device.offerLater
  extract_lets x1 x2
  have hx1 : Calm e a x1 := by
    unfold x1
    refine Device.setOffered_calm ?_
    assumption
  clear_value x1
  clear_value x2
  split
  · assumption
  · split
    · refine Device.pendJoin_calm ?_
      assumption
    · split
      · refine Device.issueLater_calm ?_
        assumption
      · refine Device.pendJoin_calm ?_
        refine Device.relRefuse_calm ?_
        assumption
theorem Device.lapNext_calm {e : Eff} {a : Device} {d : Device} {p1 : ℕ} {p2 : ℕ} (h : Calm e a d) (e_dd : Lets e.dd := by first | assumption | exact ⟨rfl⟩) (e_jnl : Lets e.jnl := by first | assumption | exact ⟨rfl⟩) (e_u8 : Lets (e.unit 8) := by first | assumption | exact ⟨rfl⟩) (e_u10 : Lets (e.unit 10) := by first | assumption | exact ⟨rfl⟩) (e_u12 : Lets (e.unit 12) := by first | assumption | exact ⟨rfl⟩) (e_u16 : Lets (e.unit 16) := by first | assumption | exact ⟨rfl⟩) (e_u17 : Lets (e.unit 17) := by first | assumption | exact ⟨rfl⟩) (e_u23 : Lets (e.unit 23) := by first | assumption | exact ⟨rfl⟩) (e_u24 : Lets (e.unit 24) := by first | assumption | exact ⟨rfl⟩) (e_u26 : Lets (e.unit 26) := by first | assumption | exact ⟨rfl⟩) : Calm e a (Device.lapNext d p1 p2) := by
  unfold Device.lapNext
  split
  · refine Device.offerLater_calm ?_
    assumption
  · split
    · refine Device.offerLater_calm ?_
      assumption
    · refine Device.closeCheck_calm ?_
      assumption
theorem Device.stageRead_calm {e : Eff} {a : Device} {d : Device} {p1 : ℕ} {p2 : ℕ} (h : Calm e a d) (e_u8 : Lets (e.unit 8) := by first | assumption | exact ⟨rfl⟩) : Calm e a (Device.stageRead d p1 p2) := by
  unfold Device.stageRead
  split
  · assumption
  · extract_lets x1 x2
    clear_value x1
    have hx2 : Calm e a x2 := by
      unfold x2
      apply calm_foldl
      · intro v3
        intro v4
        intro v5
        refine Device.noteRead_calm ?_
        assumption
      · assumption
    clear_value x2
    refine Device.stageDrop_calm ?_
    assumption
theorem Device.fenceRead_calm {e : Eff} {a : Device} {d : Device} {p1 : Lap} {p2 : TokKind} (h : Calm e a d) (e_u8 : Lets (e.unit 8) := by first | assumption | exact ⟨rfl⟩) : Calm e a (Device.fenceRead d p1 p2).2 := by
  unfold Device.fenceRead
  split
  · dsimp only
    assumption
  · extract_lets x1 x2
    have hx1 : Calm e a x1 := by
      unfold x1
      refine Device.stageRead_calm ?_
      assumption
    clear_value x1
    have hx2 : Calm e a x2 := by
      unfold x2
      apply calm_foldl
      · intro v3
        intro v4
        intro v5
        apply calm_foldl
        · intro v6
          intro v7
          intro v8
          refine Device.noteRead_calm ?_
          assumption
        · assumption
      · assumption
    clear_value x2
    split
    · dsimp only
      assumption
    · dsimp only
      assumption
theorem Device.fenceDone_calm {e : Eff} {a : Device} {d : Device} {p1 : Lap} {p2 : Tok} {p3 : Time} (h : Calm e a d) (e_dd : Lets e.dd := by first | assumption | exact ⟨rfl⟩) (e_jnl : Lets e.jnl := by first | assumption | exact ⟨rfl⟩) (e_u8 : Lets (e.unit 8) := by first | assumption | exact ⟨rfl⟩) (e_u10 : Lets (e.unit 10) := by first | assumption | exact ⟨rfl⟩) (e_u12 : Lets (e.unit 12) := by first | assumption | exact ⟨rfl⟩) (e_u16 : Lets (e.unit 16) := by first | assumption | exact ⟨rfl⟩) (e_u17 : Lets (e.unit 17) := by first | assumption | exact ⟨rfl⟩) (e_u20 : Lets (e.unit 20) := by first | assumption | exact ⟨rfl⟩) (e_u23 : Lets (e.unit 23) := by first | assumption | exact ⟨rfl⟩) (e_u24 : Lets (e.unit 24) := by first | assumption | exact ⟨rfl⟩) (e_u26 : Lets (e.unit 26) := by first | assumption | exact ⟨rfl⟩) : Calm e a (Device.fenceDone d p1 p2 p3) := by
  unfold Device.fenceDone
  extract_lets x1 x2 x3 x4 x5 x6 x7 x8 x9 x10 x11 x12 x13
  have hx1 : Calm e a x1.2 := by
    unfold x1
    refine Device.fenceRead_calm ?_
    assumption
  clear_value x1
  clear_value x2
  have hx3 : Calm e a x3 := by
    unfold x3
    assumption
  clear_value x3
  clear_value x4
  clear_value x5
  have hx6 : Calm e a x6 := by
    unfold x6
    refine Device.substLap_calm ?_
    assumption
  clear_value x6
  clear_value x7
  clear_value x8
  clear_value x9
  have hx10 : Calm e a x10.2 := by
    unfold x10
    refine Device.commitLap_calm ?_
    assumption
  clear_value x10
  clear_value x11
  clear_value x12
  have hx13 : Calm e a x13 := by
    unfold x13
    split
    · refine Device.deliverRelease_calm ?_
      assumption
    · refine Device.deliverAmend_calm ?_
      assumption
  clear_value x13
  refine Device.lapNext_calm ?_
  assumption
theorem Device.issue_calm {e : Eff} {a : Device} {d : Device} {p1 : ℕ} {p2 : ℕ} {p3 : TokKind} (h : Calm e a d) (e_dd : Lets e.dd := by first | assumption | exact ⟨rfl⟩) (e_jnl : Lets e.jnl := by first | assumption | exact ⟨rfl⟩) (e_u8 : Lets (e.unit 8) := by first | assumption | exact ⟨rfl⟩) (e_u10 : Lets (e.unit 10) := by first | assumption | exact ⟨rfl⟩) (e_u12 : Lets (e.unit 12) := by first | assumption | exact ⟨rfl⟩) (e_u16 : Lets (e.unit 16) := by first | assumption | exact ⟨rfl⟩) (e_u17 : Lets (e.unit 17) := by first | assumption | exact ⟨rfl⟩) (e_u20 : Lets (e.unit 20) := by first | assumption | exact ⟨rfl⟩) (e_u23 : Lets (e.unit 23) := by first | assumption | exact ⟨rfl⟩) (e_u24 : Lets (e.unit 24) := by first | assumption | exact ⟨rfl⟩) (e_u26 : Lets (e.unit 26) := by first | assumption | exact ⟨rfl⟩) : Calm e a (Device.issue d p1 p2 p3) := by
  unfold Device.issue
  extract_lets x1 x2
  clear_value x1
  clear_value x2
  split
  · assumption
  · split
    · extract_lets x3 x4 x5 x6 x7 x8 x9
      clear_value x3
      clear_value x4
      clear_value x5
      clear_value x6
      have hx7 : Calm e a x7 := by
        unfold x7
        refine Device.setLap_calm ?_
        refine Device.granted_calm ?_
        assumption
      clear_value x7
      have hx8 : Calm e a x8 := by
        unfold x8
        split
        · refine Device.count_calm ?_
          assumption
        · refine Device.count_calm ?_
          assumption
        · refine Device.count_calm ?_
          assumption
        · refine Device.count_calm ?_
          assumption
      clear_value x8
      have hx9 : Calm e a x9 := by
        unfold x9
        split
        · refine Device.count_calm ?_
          assumption
        · assumption
      clear_value x9
      split
      · refine Device.fenceDone_calm ?_
        assumption
      · assumption
    · refine Device.issueLater_calm ?_
      assumption
theorem Device.offerRelease_calm {e : Eff} {a : Device} {d : Device} {p1 : ℕ} {p2 : ℕ} (h : Calm e a d) (e_dd : Lets e.dd := by first | assumption | exact ⟨rfl⟩) (e_jnl : Lets e.jnl := by first | assumption | exact ⟨rfl⟩) (e_u8 : Lets (e.unit 8) := by first | assumption | exact ⟨rfl⟩) (e_u10 : Lets (e.unit 10) := by first | assumption | exact ⟨rfl⟩) (e_u12 : Lets (e.unit 12) := by first | assumption | exact ⟨rfl⟩) (e_u16 : Lets (e.unit 16) := by first | assumption | exact ⟨rfl⟩) (e_u17 : Lets (e.unit 17) := by first | assumption | exact ⟨rfl⟩) (e_u20 : Lets (e.unit 20) := by first | assumption | exact ⟨rfl⟩) (e_u23 : Lets (e.unit 23) := by first | assumption | exact ⟨rfl⟩) (e_u24 : Lets (e.unit 24) := by first | assumption | exact ⟨rfl⟩) (e_u26 : Lets (e.unit 26) := by first | assumption | exact ⟨rfl⟩) : Calm e a (Device.offerRelease d p1 p2) := by
  unfold Device.offerRelease
  extract_lets x1 x2
  have hx1 : Calm e a x1 := by
    unfold x1
    refine Device.setOffered_calm ?_
    assumption
  clear_value x1
  clear_value x2
  split
  · refine Device.pendJoin_calm ?_
    assumption
  · split
    · refine Device.issue_calm ?_
      assumption
    · refine Device.pendJoin_calm ?_
      refine Device.relRefuse_calm ?_
      assumption
theorem Device.pendPop_calm {e : Eff} {a : Device} {d : Device} {p1 : List (ℕ × ℕ × TokKind)} (h : Calm e a d) (e_u8 : Lets (e.unit 8) := by first | assumption | exact ⟨rfl⟩) : Calm e a (Device.pendPop d p1) := by
  unfold Device.pendPop
  refine Device.pendRefill_calm ?_
  refine Device.pendShow_calm ?_
  refine Device.setPfa_calm ?_
  assumption
theorem pendDrain_calm {e : Eff} {a : Device} {p0 : ℕ} {p1 : Bool} {d : Device} (h : Calm e a d) (e_dd : Lets e.dd := by first | assumption | exact ⟨rfl⟩) (e_jnl : Lets e.jnl := by first | assumption | exact ⟨rfl⟩) (e_u8 : Lets (e.unit 8) := by first | assumption | exact ⟨rfl⟩) (e_u10 : Lets (e.unit 10) := by first | assumption | exact ⟨rfl⟩) (e_u12 : Lets (e.unit 12) := by first | assumption | exact ⟨rfl⟩) (e_u16 : Lets (e.unit 16) := by first | assumption | exact ⟨rfl⟩) (e_u17 : Lets (e.unit 17) := by first | assumption | exact ⟨rfl⟩) (e_u20 : Lets (e.unit 20) := by first | assumption | exact ⟨rfl⟩) (e_u23 : Lets (e.unit 23) := by first | assumption | exact ⟨rfl⟩) (e_u24 : Lets (e.unit 24) := by first | assumption | exact ⟨rfl⟩) (e_u26 : Lets (e.unit 26) := by first | assumption | exact ⟨rfl⟩) : Calm e a (pendDrain p0 p1 d) := by
  induction p0 generalizing p1 d
  · unfold pendDrain
    assumption
  · rename_i n ih
    unfold pendDrain
    extract_lets x1
    have hx1 : Calm e a x1 := by
      unfold x1
      refine Device.pendRefill_calm ?_
      assumption
    clear_value x1
    split
    · assumption
    · extract_lets x2
      clear_value x2
      split
      · apply ih
        refine Device.issue_calm ?_
        refine Device.pendPop_calm ?_
        assumption
      · split
        · refine Device.relRefuse_calm ?_
          assumption
        · assumption
theorem Device.reoffer_calm {e : Eff} {a : Device} {d : Device} (h : Calm e a d) (e_dd : Lets e.dd := by first | assumption | exact ⟨rfl⟩) (e_jnl : Lets e.jnl := by first | assumption | exact ⟨rfl⟩) (e_u8 : Lets (e.unit 8) := by first | assumption | exact ⟨rfl⟩) (e_u10 : Lets (e.unit 10) := by first | assumption | exact ⟨rfl⟩) (e_u12 : Lets (e.unit 12) := by first | assumption | exact ⟨rfl⟩) (e_u16 : Lets (e.unit 16) := by first | assumption | exact ⟨rfl⟩) (e_u17 : Lets (e.unit 17) := by first | assumption | exact ⟨rfl⟩) (e_u20 : Lets (e.unit 20) := by first | assumption | exact ⟨rfl⟩) (e_u23 : Lets (e.unit 23) := by first | assumption | exact ⟨rfl⟩) (e_u24 : Lets (e.unit 24) := by first | assumption | exact ⟨rfl⟩) (e_u26 : Lets (e.unit 26) := by first | assumption | exact ⟨rfl⟩) : Calm e a (Device.reoffer d) := by
  unfold Device.reoffer
  refine pendDrain_calm ?_
  assumption
theorem releasePortGrant_calm {e : Eff} {a : Device} {d : Device} (h : Calm e a d) (e_dd : Lets e.dd := by first | assumption | exact ⟨rfl⟩) (e_jnl : Lets e.jnl := by first | assumption | exact ⟨rfl⟩) (e_u8 : Lets (e.unit 8) := by first | assumption | exact ⟨rfl⟩) (e_u10 : Lets (e.unit 10) := by first | assumption | exact ⟨rfl⟩) (e_u12 : Lets (e.unit 12) := by first | assumption | exact ⟨rfl⟩) (e_u16 : Lets (e.unit 16) := by first | assumption | exact ⟨rfl⟩) (e_u17 : Lets (e.unit 17) := by first | assumption | exact ⟨rfl⟩) (e_u20 : Lets (e.unit 20) := by first | assumption | exact ⟨rfl⟩) (e_u23 : Lets (e.unit 23) := by first | assumption | exact ⟨rfl⟩) (e_u24 : Lets (e.unit 24) := by first | assumption | exact ⟨rfl⟩) (e_u26 : Lets (e.unit 26) := by first | assumption | exact ⟨rfl⟩) : Calm e a (releasePortGrant d) := by
  unfold releasePortGrant
  split
  · assumption
  · extract_lets x1
    have hx1 : Calm e a x1 := by
      unfold x1
      refine Device.pendRefill_calm ?_
      assumption
    clear_value x1
    split
    · assumption
    · split
      · extract_lets x2
        have hx2 : Calm e a x2 := by
          unfold x2
          refine Device.issue_calm ?_
          refine Device.pendPop_calm ?_
          assumption
        clear_value x2
        split
        · split
          · assumption
          · refine Device.relRefuse_calm ?_
            assumption
        · assumption
      · assumption
theorem Device.decideLap_calm {e : Eff} {a : Device} {d : Device} {p1 : ℕ} {p2 : ℕ} {p3 : ℕ} (h : Calm e a d) (e_dd : Lets e.dd := by first | assumption | exact ⟨rfl⟩) (e_jnl : Lets e.jnl := by first | assumption | exact ⟨rfl⟩) (e_u8 : Lets (e.unit 8) := by first | assumption | exact ⟨rfl⟩) (e_u10 : Lets (e.unit 10) := by first | assumption | exact ⟨rfl⟩) (e_u12 : Lets (e.unit 12) := by first | assumption | exact ⟨rfl⟩) (e_u16 : Lets (e.unit 16) := by first | assumption | exact ⟨rfl⟩) (e_u17 : Lets (e.unit 17) := by first | assumption | exact ⟨rfl⟩) (e_u20 : Lets (e.unit 20) := by first | assumption | exact ⟨rfl⟩) (e_u23 : Lets (e.unit 23) := by first | assumption | exact ⟨rfl⟩) (e_u24 : Lets (e.unit 24) := by first | assumption | exact ⟨rfl⟩) (e_u26 : Lets (e.unit 26) := by first | assumption | exact ⟨rfl⟩) : Calm e a (Device.decideLap d p1 p2 p3) := by
  unfold Device.decideLap
  split
  · refine Device.offerRelease_calm ?_
    refine Device.setLap_calm ?_
    assumption
  · assumption
theorem fenceClear_calm {e : Eff} {a : Device} {p0 : ℕ} {p1 : ℕ} {d : Device} (h : Calm e a d) (e_dd : Lets e.dd := by first | assumption | exact ⟨rfl⟩) (e_jnl : Lets e.jnl := by first | assumption | exact ⟨rfl⟩) (e_u8 : Lets (e.unit 8) := by first | assumption | exact ⟨rfl⟩) (e_u10 : Lets (e.unit 10) := by first | assumption | exact ⟨rfl⟩) (e_u12 : Lets (e.unit 12) := by first | assumption | exact ⟨rfl⟩) (e_u16 : Lets (e.unit 16) := by first | assumption | exact ⟨rfl⟩) (e_u17 : Lets (e.unit 17) := by first | assumption | exact ⟨rfl⟩) (e_u20 : Lets (e.unit 20) := by first | assumption | exact ⟨rfl⟩) (e_u23 : Lets (e.unit 23) := by first | assumption | exact ⟨rfl⟩) (e_u24 : Lets (e.unit 24) := by first | assumption | exact ⟨rfl⟩) (e_u26 : Lets (e.unit 26) := by first | assumption | exact ⟨rfl⟩) : Calm e a (fenceClear p0 p1 d) := by
  unfold fenceClear
  split
  · split
    · split
      · assumption
      · extract_lets x1 x2
        clear_value x1
        have hx2 : Calm e a x2 := by
          unfold x2
          split
          · refine Device.count_calm ?_
            assumption
          · assumption
        clear_value x2
        refine Device.fenceDone_calm ?_
        assumption
    · assumption
  · assumption
/-! Pfa. -/
theorem Device.ordWrite_calm {e : Eff} {a : Device} {d : Device} {p1 : ℕ} {p2 : ℕ} {p3 : ℕ} {p4 : List (List Word)} (h : Calm e a d) (e_dd : Lets e.dd := by first | assumption | exact ⟨rfl⟩) (e_jnl : Lets e.jnl := by first | assumption | exact ⟨rfl⟩) (e_u8 : Lets (e.unit 8) := by first | assumption | exact ⟨rfl⟩) (e_u10 : Lets (e.unit 10) := by first | assumption | exact ⟨rfl⟩) (e_u12 : Lets (e.unit 12) := by first | assumption | exact ⟨rfl⟩) (e_u16 : Lets (e.unit 16) := by first | assumption | exact ⟨rfl⟩) (e_u17 : Lets (e.unit 17) := by first | assumption | exact ⟨rfl⟩) (e_u20 : Lets (e.unit 20) := by first | assumption | exact ⟨rfl⟩) (e_u23 : Lets (e.unit 23) := by first | assumption | exact ⟨rfl⟩) (e_u24 : Lets (e.unit 24) := by first | assumption | exact ⟨rfl⟩) (e_u26 : Lets (e.unit 26) := by first | assumption | exact ⟨rfl⟩) : Calm e a (Device.ordWrite d p1 p2 p3 p4) := by
  unfold Device.ordWrite
  split
  · assumption
  · extract_lets x1 x2 x3
    clear_value x1
    clear_value x2
    have hx3 : Calm e a x3 := by
      unfold x3
      refine Device.count_calm ?_
      refine Device.setLap_calm ?_
      refine Device.holdRecs_calm ?_
      refine Device.putRecs_calm ?_
      assumption
    clear_value x3
    split
    · split
      · refine Device.decideLap_calm ?_
        assumption
      · split
        · refine Device.decideLap_calm ?_
          assumption
        · assumption
    · assumption
theorem Device.applyDisp_calm {e : Eff} {a : Device} {d : Device} {p1 : ℕ} {p2 : ℕ} {p3 : ℕ} {p4 : ℕ} {p5 : Time} {p6 : List (List Word)} (h : Calm e a d) (e_dd : Lets e.dd := by first | assumption | exact ⟨rfl⟩) (e_jnl : Lets e.jnl := by first | assumption | exact ⟨rfl⟩) (e_u8 : Lets (e.unit 8) := by first | assumption | exact ⟨rfl⟩) (e_u10 : Lets (e.unit 10) := by first | assumption | exact ⟨rfl⟩) (e_u12 : Lets (e.unit 12) := by first | assumption | exact ⟨rfl⟩) (e_u16 : Lets (e.unit 16) := by first | assumption | exact ⟨rfl⟩) (e_u17 : Lets (e.unit 17) := by first | assumption | exact ⟨rfl⟩) (e_u20 : Lets (e.unit 20) := by first | assumption | exact ⟨rfl⟩) (e_u23 : Lets (e.unit 23) := by first | assumption | exact ⟨rfl⟩) (e_u24 : Lets (e.unit 24) := by first | assumption | exact ⟨rfl⟩) (e_u26 : Lets (e.unit 26) := by first | assumption | exact ⟨rfl⟩) : Calm e a (Device.applyDisp d p1 p2 p3 p4 p5 p6) := by
  unfold Device.applyDisp
  split
  · refine Device.ordWrite_calm ?_
    assumption
  · refine Device.lapNext_calm ?_
    refine Device.count_calm ?_
    refine Device.stageAdd_calm ?_
    assumption
  · refine Device.stageAdd_calm ?_
    assumption
  · refine Device.count_calm ?_
    assumption
  · extract_lets x1 x2
    have hx1 : Calm e a x1 := by
      unfold x1
      refine Device.raiseSec_calm ?_
      refine Device.count_calm ?_
      assumption
    clear_value x1
    clear_value x2
    refine Device.setPfa_calm ?_
    assumption
  · refine Device.count_calm ?_
    assumption
  · refine Device.count_calm ?_
    assumption
  · refine Device.count_calm ?_
    assumption
  · refine Device.count_calm ?_
    assumption
  · refine Device.count_calm ?_
    assumption
theorem Device.pfaArrive_calm {e : Eff} {a : Device} {d : Device} {p1 : ℕ} {p2 : ℕ} {p3 : Time} {p4 : List (List Word)} {p5 : Option ℕ} (h : Calm e a d) (e_dd : Lets e.dd := by first | assumption | exact ⟨rfl⟩) (e_jnl : Lets e.jnl := by first | assumption | exact ⟨rfl⟩) (e_u8 : Lets (e.unit 8) := by first | assumption | exact ⟨rfl⟩) (e_u10 : Lets (e.unit 10) := by first | assumption | exact ⟨rfl⟩) (e_u12 : Lets (e.unit 12) := by first | assumption | exact ⟨rfl⟩) (e_u16 : Lets (e.unit 16) := by first | assumption | exact ⟨rfl⟩) (e_u17 : Lets (e.unit 17) := by first | assumption | exact ⟨rfl⟩) (e_u20 : Lets (e.unit 20) := by first | assumption | exact ⟨rfl⟩) (e_u23 : Lets (e.unit 23) := by first | assumption | exact ⟨rfl⟩) (e_u24 : Lets (e.unit 24) := by first | assumption | exact ⟨rfl⟩) (e_u26 : Lets (e.unit 26) := by first | assumption | exact ⟨rfl⟩) : Calm e a (Device.pfaArrive d p1 p2 p3 p4 p5).2 := by
  unfold Device.pfaArrive
  extract_lets x1 x2
  clear_value x1
  clear_value x2
  dsimp only
  refine Device.applyDisp_calm ?_
  refine Device.latFrame_calm ?_
  assumption
theorem Device.openLap_calm {e : Eff} {a : Device} {d : Device} {p1 : ℕ} {p2 : ℕ} (h : Calm e a d) (e_dd : Lets e.dd := by first | assumption | exact ⟨rfl⟩) (e_jnl : Lets e.jnl := by first | assumption | exact ⟨rfl⟩) (e_u8 : Lets (e.unit 8) := by first | assumption | exact ⟨rfl⟩) (e_u10 : Lets (e.unit 10) := by first | assumption | exact ⟨rfl⟩) (e_u12 : Lets (e.unit 12) := by first | assumption | exact ⟨rfl⟩) (e_u16 : Lets (e.unit 16) := by first | assumption | exact ⟨rfl⟩) (e_u17 : Lets (e.unit 17) := by first | assumption | exact ⟨rfl⟩) (e_u20 : Lets (e.unit 20) := by first | assumption | exact ⟨rfl⟩) (e_u23 : Lets (e.unit 23) := by first | assumption | exact ⟨rfl⟩) (e_u24 : Lets (e.unit 24) := by first | assumption | exact ⟨rfl⟩) (e_u26 : Lets (e.unit 26) := by first | assumption | exact ⟨rfl⟩) : Calm e a (Device.openLap d p1 p2) := by
  unfold Device.openLap
  split
  · assumption
  · extract_lets x1 x2 x3 x4 x5 x6 x7 x8 x9 x10
    have hx1 : Calm e a x1 := by
      unfold x1
      refine Device.windowOpen_calm ?_
      assumption
    clear_value x1
    clear_value x2
    clear_value x3
    clear_value x4
    clear_value x5
    clear_value x6
    have hx7 : Calm e a x7 := by
      unfold x7
      refine Device.count_calm ?_
      refine Device.setLap_calm ?_
      refine Device.setPfa_calm ?_
      assumption
    clear_value x7
    have hx8 : Calm e a x8 := by
      unfold x8
      split
      · refine Device.addTimer_calm ?_
        assumption
      · assumption
    clear_value x8
    have hx9 : Calm e a x9 := by
      unfold x9
      refine Device.addTimer_calm ?_
      assumption
    clear_value x9
    clear_value x10
    apply calm_foldl
    · intro v11
      intro v12
      intro v13
      refine Device.ordWrite_calm ?_
      assumption
    · refine Device.stageDrop_calm ?_
      assumption
theorem Device.lapTimers_calm {e : Eff} {a : Device} {d : Device} {p1 : ℕ} {p2 : ℕ} (h : Calm e a d) (e_u10 : Lets (e.unit 10) := by first | assumption | exact ⟨rfl⟩) : Calm e a (Device.lapTimers d p1 p2) := by
  unfold Device.lapTimers
  apply calm_foldl
  · intro v59
    intro v58
    intro w57
    refine Device.addTimer_calm ?_
    assumption
  · assumption
theorem Device.openNext_calm {e : Eff} {a : Device} {d : Device} {p1 : ℕ} {p2 : ℕ} {p3 : HeatRun} (h : Calm e a d) (e_dd : Lets e.dd := by first | assumption | exact ⟨rfl⟩) (e_jnl : Lets e.jnl := by first | assumption | exact ⟨rfl⟩) (e_u8 : Lets (e.unit 8) := by first | assumption | exact ⟨rfl⟩) (e_u10 : Lets (e.unit 10) := by first | assumption | exact ⟨rfl⟩) (e_u12 : Lets (e.unit 12) := by first | assumption | exact ⟨rfl⟩) (e_u16 : Lets (e.unit 16) := by first | assumption | exact ⟨rfl⟩) (e_u17 : Lets (e.unit 17) := by first | assumption | exact ⟨rfl⟩) (e_u20 : Lets (e.unit 20) := by first | assumption | exact ⟨rfl⟩) (e_u23 : Lets (e.unit 23) := by first | assumption | exact ⟨rfl⟩) (e_u24 : Lets (e.unit 24) := by first | assumption | exact ⟨rfl⟩) (e_u26 : Lets (e.unit 26) := by first | assumption | exact ⟨rfl⟩) : Calm e a (Device.openNext d p1 p2 p3) := by
  unfold Device.openNext
  extract_lets x1
  have hx1 : Calm e a x1 := by
    unfold x1
    refine Device.lapTimers_calm ?_
    refine Device.setRun_calm ?_
    assumption
  clear_value x1
  split
  · refine Device.openLap_calm ?_
    assumption
  · refine Device.setLap_calm ?_
    assumption
theorem lapOpen_calm {e : Eff} {a : Device} {p0 : ℕ} {p1 : ℕ} {d : Device} (h : Calm e a d) (e_dd : Lets e.dd := by first | assumption | exact ⟨rfl⟩) (e_jnl : Lets e.jnl := by first | assumption | exact ⟨rfl⟩) (e_u8 : Lets (e.unit 8) := by first | assumption | exact ⟨rfl⟩) (e_u10 : Lets (e.unit 10) := by first | assumption | exact ⟨rfl⟩) (e_u12 : Lets (e.unit 12) := by first | assumption | exact ⟨rfl⟩) (e_u16 : Lets (e.unit 16) := by first | assumption | exact ⟨rfl⟩) (e_u17 : Lets (e.unit 17) := by first | assumption | exact ⟨rfl⟩) (e_u20 : Lets (e.unit 20) := by first | assumption | exact ⟨rfl⟩) (e_u23 : Lets (e.unit 23) := by first | assumption | exact ⟨rfl⟩) (e_u24 : Lets (e.unit 24) := by first | assumption | exact ⟨rfl⟩) (e_u26 : Lets (e.unit 26) := by first | assumption | exact ⟨rfl⟩) : Calm e a (lapOpen p0 p1 d) := by
  unfold lapOpen
  split
  · assumption
  · split
    · assumption
    · split
      · split
        · refine Device.openLap_calm ?_
          assumption
        · assumption
      · split
        · assumption
        · refine Device.openNext_calm ?_
          assumption
theorem Device.skipLap_calm {e : Eff} {a : Device} {d : Device} {p1 : ℕ} {p2 : ℕ} {p3 : Time} (h : Calm e a d) (e_dd : Lets e.dd := by first | assumption | exact ⟨rfl⟩) (e_jnl : Lets e.jnl := by first | assumption | exact ⟨rfl⟩) (e_u8 : Lets (e.unit 8) := by first | assumption | exact ⟨rfl⟩) (e_u10 : Lets (e.unit 10) := by first | assumption | exact ⟨rfl⟩) (e_u12 : Lets (e.unit 12) := by first | assumption | exact ⟨rfl⟩) (e_u16 : Lets (e.unit 16) := by first | assumption | exact ⟨rfl⟩) (e_u17 : Lets (e.unit 17) := by first | assumption | exact ⟨rfl⟩) (e_u20 : Lets (e.unit 20) := by first | assumption | exact ⟨rfl⟩) (e_u23 : Lets (e.unit 23) := by first | assumption | exact ⟨rfl⟩) (e_u24 : Lets (e.unit 24) := by first | assumption | exact ⟨rfl⟩) (e_u26 : Lets (e.unit 26) := by first | assumption | exact ⟨rfl⟩) : Calm e a (Device.skipLap d p1 p2 p3) := by
  unfold Device.skipLap
  split
  · assumption
  · extract_lets x1 x2 x3 x4
    clear_value x1
    have hx2 : Calm e a x2 := by
      unfold x2
      refine Device.countN_calm ?_
      refine Device.stageDrop_calm ?_
      assumption
    clear_value x2
    have hx3 : Calm e a x3 := by
      unfold x3
      refine Device.journalDecision_calm ?_
      refine Device.setRun_calm ?_
      refine Device.delLap_calm ?_
      assumption
    clear_value x3
    have hx4 : Calm e a x4 := by
      unfold x4
      refine Device.raise_calm ?_
      refine Device.count_calm ?_
      assumption
    clear_value x4
    refine Device.reoffer_calm ?_
    refine Device.hurdleSkip_calm ?_
    refine Device.energySkip_calm ?_
    refine Device.storeCheck_calm ?_
    refine Device.stateSkip_calm ?_
    assumption
theorem lapSkip_calm {e : Eff} {a : Device} {p0 : ℕ} {p1 : ℕ} {d : Device} (h : Calm e a d) (e_dd : Lets e.dd := by first | assumption | exact ⟨rfl⟩) (e_jnl : Lets e.jnl := by first | assumption | exact ⟨rfl⟩) (e_u8 : Lets (e.unit 8) := by first | assumption | exact ⟨rfl⟩) (e_u10 : Lets (e.unit 10) := by first | assumption | exact ⟨rfl⟩) (e_u12 : Lets (e.unit 12) := by first | assumption | exact ⟨rfl⟩) (e_u16 : Lets (e.unit 16) := by first | assumption | exact ⟨rfl⟩) (e_u17 : Lets (e.unit 17) := by first | assumption | exact ⟨rfl⟩) (e_u20 : Lets (e.unit 20) := by first | assumption | exact ⟨rfl⟩) (e_u23 : Lets (e.unit 23) := by first | assumption | exact ⟨rfl⟩) (e_u24 : Lets (e.unit 24) := by first | assumption | exact ⟨rfl⟩) (e_u26 : Lets (e.unit 26) := by first | assumption | exact ⟨rfl⟩) : Calm e a (lapSkip p0 p1 d) := by
  unfold lapSkip
  split
  · split
    · refine Device.skipLap_calm ?_
      assumption
    · assumption
  · assumption
theorem deadlineExpiry_calm {e : Eff} {a : Device} {p0 : ℕ} {p1 : ℕ} {d : Device} (h : Calm e a d) (e_dd : Lets e.dd := by first | assumption | exact ⟨rfl⟩) (e_jnl : Lets e.jnl := by first | assumption | exact ⟨rfl⟩) (e_u8 : Lets (e.unit 8) := by first | assumption | exact ⟨rfl⟩) (e_u10 : Lets (e.unit 10) := by first | assumption | exact ⟨rfl⟩) (e_u12 : Lets (e.unit 12) := by first | assumption | exact ⟨rfl⟩) (e_u16 : Lets (e.unit 16) := by first | assumption | exact ⟨rfl⟩) (e_u17 : Lets (e.unit 17) := by first | assumption | exact ⟨rfl⟩) (e_u20 : Lets (e.unit 20) := by first | assumption | exact ⟨rfl⟩) (e_u23 : Lets (e.unit 23) := by first | assumption | exact ⟨rfl⟩) (e_u24 : Lets (e.unit 24) := by first | assumption | exact ⟨rfl⟩) (e_u26 : Lets (e.unit 26) := by first | assumption | exact ⟨rfl⟩) : Calm e a (deadlineExpiry p0 p1 d) := by
  unfold deadlineExpiry
  split
  · assumption
  · split
    · assumption
    · extract_lets x1
      have hx1 : Calm e a x1 := by
        unfold x1
        refine Device.dropTimer_calm ?_
        refine Device.timerFire_calm ?_
        assumption
      clear_value x1
      split
      · split
        · refine Device.decideLap_calm ?_
          assumption
        · assumption
      · assumption
theorem Device.finishLine_calm {e : Eff} {a : Device} {d : Device} {p1 : ℕ} {p2 : ℕ} (h : Calm e a d) (e_dd : Lets e.dd := by first | assumption | exact ⟨rfl⟩) (e_jnl : Lets e.jnl := by first | assumption | exact ⟨rfl⟩) (e_u8 : Lets (e.unit 8) := by first | assumption | exact ⟨rfl⟩) (e_u10 : Lets (e.unit 10) := by first | assumption | exact ⟨rfl⟩) (e_u12 : Lets (e.unit 12) := by first | assumption | exact ⟨rfl⟩) (e_u16 : Lets (e.unit 16) := by first | assumption | exact ⟨rfl⟩) (e_u17 : Lets (e.unit 17) := by first | assumption | exact ⟨rfl⟩) (e_u23 : Lets (e.unit 23) := by first | assumption | exact ⟨rfl⟩) (e_u24 : Lets (e.unit 24) := by first | assumption | exact ⟨rfl⟩) (e_u26 : Lets (e.unit 26) := by first | assumption | exact ⟨rfl⟩) : Calm e a (Device.finishLine d p1 p2) := by
  unfold Device.finishLine
  split
  · assumption
  · extract_lets x1 x2 x3 x4 x5
    clear_value x1
    have hx2 : Calm e a x2 := by
      unfold x2
      apply calm_foldl
      · intro v6
        intro v7
        intro v8
        refine Device.latObserve_calm ?_
        assumption
      · assumption
    clear_value x2
    have hx3 : Calm e a x3 := by
      unfold x3
      refine Device.setLap_calm ?_
      assumption
    clear_value x3
    clear_value x4
    have hx5 : Calm e a x5 := by
      unfold x5
      split
      · refine Device.amendLost_calm ?_
        assumption
      · assumption
    clear_value x5
    refine Device.heatDrain_calm ?_
    refine Device.lapNext_calm ?_
    assumption
theorem finishLineExpiry_calm {e : Eff} {a : Device} {p0 : ℕ} {p1 : ℕ} {d : Device} (h : Calm e a d) (e_dd : Lets e.dd := by first | assumption | exact ⟨rfl⟩) (e_jnl : Lets e.jnl := by first | assumption | exact ⟨rfl⟩) (e_u8 : Lets (e.unit 8) := by first | assumption | exact ⟨rfl⟩) (e_u10 : Lets (e.unit 10) := by first | assumption | exact ⟨rfl⟩) (e_u12 : Lets (e.unit 12) := by first | assumption | exact ⟨rfl⟩) (e_u16 : Lets (e.unit 16) := by first | assumption | exact ⟨rfl⟩) (e_u17 : Lets (e.unit 17) := by first | assumption | exact ⟨rfl⟩) (e_u23 : Lets (e.unit 23) := by first | assumption | exact ⟨rfl⟩) (e_u24 : Lets (e.unit 24) := by first | assumption | exact ⟨rfl⟩) (e_u26 : Lets (e.unit 26) := by first | assumption | exact ⟨rfl⟩) : Calm e a (finishLineExpiry p0 p1 d) := by
  unfold finishLineExpiry
  split
  · assumption
  · split
    · assumption
    · refine Device.dropTimer_calm ?_
      refine Device.finishLine_calm ?_
      refine Device.timerFire_calm ?_
      assumption
theorem Device.winErr_calm {e : Eff} {a : Device} {d : Device} {p1 : ℕ} (h : Calm e a d) (e_u8 : Lets (e.unit 8) := by first | assumption | exact ⟨rfl⟩) : Calm e a (Device.winErr d p1) := by
  unfold Device.winErr
  refine Device.err_calm ?_
  assumption
theorem Device.newDeadline_calm {e : Eff} {a : Device} {d : Device} {p1 : ℕ} {p2 : ℕ} {p3 : Lap} (h : Calm e a d) (e_dd : Lets e.dd := by first | assumption | exact ⟨rfl⟩) (e_jnl : Lets e.jnl := by first | assumption | exact ⟨rfl⟩) (e_u8 : Lets (e.unit 8) := by first | assumption | exact ⟨rfl⟩) (e_u10 : Lets (e.unit 10) := by first | assumption | exact ⟨rfl⟩) (e_u12 : Lets (e.unit 12) := by first | assumption | exact ⟨rfl⟩) (e_u16 : Lets (e.unit 16) := by first | assumption | exact ⟨rfl⟩) (e_u17 : Lets (e.unit 17) := by first | assumption | exact ⟨rfl⟩) (e_u20 : Lets (e.unit 20) := by first | assumption | exact ⟨rfl⟩) (e_u23 : Lets (e.unit 23) := by first | assumption | exact ⟨rfl⟩) (e_u24 : Lets (e.unit 24) := by first | assumption | exact ⟨rfl⟩) (e_u26 : Lets (e.unit 26) := by first | assumption | exact ⟨rfl⟩) : Calm e a (Device.newDeadline d p1 p2 p3) := by
  unfold Device.newDeadline
  extract_lets x1 x2 x3
  clear_value x1
  have hx2 : Calm e a x2 := by
    unfold x2
    refine Device.setLap_calm ?_
    assumption
  clear_value x2
  have hx3 : Calm e a x3 := by
    unfold x3
    apply calm_foldl
    · intro v4
      intro v5
      intro v6
      refine Device.dropTimer_calm ?_
      assumption
    · assumption
  clear_value x3
  split
  · refine Device.decideLap_calm ?_
    assumption
  · refine Device.addTimer_calm ?_
    assumption
theorem winCmd_calm {e : Eff} {a : Device} {p0 : ℕ} {p1 : ℕ} {d : Device} (h : Calm e a d) (e_tab : Lets e.tab := by first | assumption | exact ⟨rfl⟩) (e_dd : Lets e.dd := by first | assumption | exact ⟨rfl⟩) (e_jnl : Lets e.jnl := by first | assumption | exact ⟨rfl⟩) (e_u8 : Lets (e.unit 8) := by first | assumption | exact ⟨rfl⟩) (e_u10 : Lets (e.unit 10) := by first | assumption | exact ⟨rfl⟩) (e_u12 : Lets (e.unit 12) := by first | assumption | exact ⟨rfl⟩) (e_u16 : Lets (e.unit 16) := by first | assumption | exact ⟨rfl⟩) (e_u17 : Lets (e.unit 17) := by first | assumption | exact ⟨rfl⟩) (e_u20 : Lets (e.unit 20) := by first | assumption | exact ⟨rfl⟩) (e_u23 : Lets (e.unit 23) := by first | assumption | exact ⟨rfl⟩) (e_u24 : Lets (e.unit 24) := by first | assumption | exact ⟨rfl⟩) (e_u26 : Lets (e.unit 26) := by first | assumption | exact ⟨rfl⟩) : Calm e a (winCmd p0 p1 d) := by
  unfold winCmd
  split
  · assumption
  · extract_lets x1 x2 x3 x4 x5 x6
    clear_value x1
    clear_value x2
    clear_value x3
    clear_value x4
    have hx5 : Calm e a x5 := by
      unfold x5
      refine Device.setf_calm ?_
      refine Device.setPfa_calm ?_
      refine Device.setEnt_calm ?_
      assumption
    clear_value x5
    clear_value x6
    split
    · refine Device.winErr_calm ?_
      assumption
    · split
      · refine Device.winErr_calm ?_
        assumption
      · split
        · refine Device.winErr_calm ?_
          assumption
        · split
          · refine Device.winErr_calm ?_
            assumption
          · split
            · refine Device.winErr_calm ?_
              assumption
            · split
              · apply calm_foldl
                · intro v7
                  intro v8
                  intro v9
                  refine Device.newDeadline_calm ?_
                  assumption
                · assumption
              · assumption
theorem winCmdComplete_calm {e : Eff} {a : Device} {d : Device} (h : Calm e a d) (e_u8 : Lets (e.unit 8) := by first | assumption | exact ⟨rfl⟩) : Calm e a (winCmdComplete d) := by
  unfold winCmdComplete
  split
  · refine Device.setf_calm ?_
    refine Device.setPfa_calm ?_
    assumption
  · assumption
theorem Device.heatStartAt_calm {e : Eff} {a : Device} {d : Device} {p1 : ℕ} {p2 : Time} (h : Calm e a d) (e_dd : Lets e.dd := by first | assumption | exact ⟨rfl⟩) (e_jnl : Lets e.jnl := by first | assumption | exact ⟨rfl⟩) (e_u8 : Lets (e.unit 8) := by first | assumption | exact ⟨rfl⟩) (e_u16 : Lets (e.unit 16) := by first | assumption | exact ⟨rfl⟩) (e_u17 : Lets (e.unit 17) := by first | assumption | exact ⟨rfl⟩) (e_u24 : Lets (e.unit 24) := by first | assumption | exact ⟨rfl⟩) : Calm e a (Device.heatStartAt d p1 p2) := by
  unfold Device.heatStartAt
  split
  · assumption
  · extract_lets x5900
    clear_value x5900
    refine Device.hurEnable_calm ?_
    refine Device.setRun_calm ?_
    assumption
theorem Device.heatStart_calm {e : Eff} {a : Device} {d : Device} {p1 : ℕ} (h : Calm e a d) (e_dd : Lets e.dd := by first | assumption | exact ⟨rfl⟩) (e_jnl : Lets e.jnl := by first | assumption | exact ⟨rfl⟩) (e_u8 : Lets (e.unit 8) := by first | assumption | exact ⟨rfl⟩) (e_u16 : Lets (e.unit 16) := by first | assumption | exact ⟨rfl⟩) (e_u17 : Lets (e.unit 17) := by first | assumption | exact ⟨rfl⟩) (e_u24 : Lets (e.unit 24) := by first | assumption | exact ⟨rfl⟩) : Calm e a (Device.heatStart d p1) := by
  unfold Device.heatStart
  refine Device.heatStartAt_calm ?_
  assumption
theorem Device.heatStop_calm {e : Eff} {a : Device} {d : Device} {p1 : ℕ} (h : Calm e a d) (e_dd : Lets e.dd := by first | assumption | exact ⟨rfl⟩) (e_jnl : Lets e.jnl := by first | assumption | exact ⟨rfl⟩) (e_u8 : Lets (e.unit 8) := by first | assumption | exact ⟨rfl⟩) (e_u10 : Lets (e.unit 10) := by first | assumption | exact ⟨rfl⟩) (e_u12 : Lets (e.unit 12) := by first | assumption | exact ⟨rfl⟩) (e_u16 : Lets (e.unit 16) := by first | assumption | exact ⟨rfl⟩) (e_u17 : Lets (e.unit 17) := by first | assumption | exact ⟨rfl⟩) (e_u20 : Lets (e.unit 20) := by first | assumption | exact ⟨rfl⟩) (e_u23 : Lets (e.unit 23) := by first | assumption | exact ⟨rfl⟩) (e_u24 : Lets (e.unit 24) := by first | assumption | exact ⟨rfl⟩) (e_u26 : Lets (e.unit 26) := by first | assumption | exact ⟨rfl⟩) : Calm e a (Device.heatStop d p1) := by
  unfold Device.heatStop
  split
  · assumption
  · extract_lets x1 x2 x3 x4
    have hx1 : Calm e a x1 := by
      unfold x1
      refine Device.setRun_calm ?_
      assumption
    clear_value x1
    have hx2 : Calm e a x2 := by
      unfold x2
      split
      · apply calm_foldl
        · intro v5
          intro v6
          intro v7
          split
          · refine Device.decideLap_calm ?_
            assumption
          · split
            · refine Device.skipLap_calm ?_
              assumption
            · assumption
        · assumption
      · assumption
    clear_value x2
    clear_value x3
    have hx4 : Calm e a x4 := by
      unfold x4
      refine Device.countN_calm ?_
      refine Device.stageDrop_calm ?_
      assumption
    clear_value x4
    refine Device.reoffer_calm ?_
    refine Device.storeCheck_calm ?_
    refine Device.stateEnd_calm ?_
    refine Device.timersGone_calm ?_
    refine Device.heatDrain_calm ?_
    assumption
theorem Device.followArrive_calm {e : Eff} {a : Device} {d : Device} {p1 : ℕ} {p2 : ℕ} {p3 : ℕ} {p4 : Time} {p5 : List (List Word)} (h : Calm e a d) (e_dd : Lets e.dd := by first | assumption | exact ⟨rfl⟩) (e_jnl : Lets e.jnl := by first | assumption | exact ⟨rfl⟩) (e_u8 : Lets (e.unit 8) := by first | assumption | exact ⟨rfl⟩) (e_u10 : Lets (e.unit 10) := by first | assumption | exact ⟨rfl⟩) (e_u12 : Lets (e.unit 12) := by first | assumption | exact ⟨rfl⟩) (e_u16 : Lets (e.unit 16) := by first | assumption | exact ⟨rfl⟩) (e_u17 : Lets (e.unit 17) := by first | assumption | exact ⟨rfl⟩) (e_u20 : Lets (e.unit 20) := by first | assumption | exact ⟨rfl⟩) (e_u23 : Lets (e.unit 23) := by first | assumption | exact ⟨rfl⟩) (e_u24 : Lets (e.unit 24) := by first | assumption | exact ⟨rfl⟩) (e_u26 : Lets (e.unit 26) := by first | assumption | exact ⟨rfl⟩) : Calm e a (Device.followArrive d p1 p2 p3 p4 p5) := by
  unfold Device.followArrive
  extract_lets x1
  clear_value x1
  split
  · refine Device.stageAdd_calm ?_
    refine Device.latFrame_calm ?_
    assumption
  · refine Device.pfaArrive_calm ?_
    assumption
theorem Device.deferredIn_calm {e : Eff} {a : Device} {d : Device} {p1 : ℕ} {p2 : ℕ} (h : Calm e a d) (e_dd : Lets e.dd := by first | assumption | exact ⟨rfl⟩) (e_jnl : Lets e.jnl := by first | assumption | exact ⟨rfl⟩) (e_u8 : Lets (e.unit 8) := by first | assumption | exact ⟨rfl⟩) (e_u10 : Lets (e.unit 10) := by first | assumption | exact ⟨rfl⟩) (e_u12 : Lets (e.unit 12) := by first | assumption | exact ⟨rfl⟩) (e_u16 : Lets (e.unit 16) := by first | assumption | exact ⟨rfl⟩) (e_u17 : Lets (e.unit 17) := by first | assumption | exact ⟨rfl⟩) (e_u20 : Lets (e.unit 20) := by first | assumption | exact ⟨rfl⟩) (e_u23 : Lets (e.unit 23) := by first | assumption | exact ⟨rfl⟩) (e_u24 : Lets (e.unit 24) := by first | assumption | exact ⟨rfl⟩) (e_u26 : Lets (e.unit 26) := by first | assumption | exact ⟨rfl⟩) : Calm e a (Device.deferredIn d p1 p2) := by
  unfold Device.deferredIn
  extract_lets x1
  clear_value x1
  split
  · assumption
  · apply calm_foldl
    · intro v2
      intro v3
      intro v4
      refine Device.applyDisp_calm ?_
      assumption
    · refine Device.stageDrop_calm ?_
      assumption
theorem Device.applyDecision_calm {e : Eff} {a : Device} {d : Device} {p1 : ℕ} {p2 : ℕ} {p3 : ℕ} {p4 : ℕ} {p5 : ℕ} {p6 : Time} (h : Calm e a d) (e_dd : Lets e.dd := by first | assumption | exact ⟨rfl⟩) (e_jnl : Lets e.jnl := by first | assumption | exact ⟨rfl⟩) (e_u8 : Lets (e.unit 8) := by first | assumption | exact ⟨rfl⟩) (e_u10 : Lets (e.unit 10) := by first | assumption | exact ⟨rfl⟩) (e_u12 : Lets (e.unit 12) := by first | assumption | exact ⟨rfl⟩) (e_u16 : Lets (e.unit 16) := by first | assumption | exact ⟨rfl⟩) (e_u17 : Lets (e.unit 17) := by first | assumption | exact ⟨rfl⟩) (e_u20 : Lets (e.unit 20) := by first | assumption | exact ⟨rfl⟩) (e_u23 : Lets (e.unit 23) := by first | assumption | exact ⟨rfl⟩) (e_u24 : Lets (e.unit 24) := by first | assumption | exact ⟨rfl⟩) (e_u26 : Lets (e.unit 26) := by first | assumption | exact ⟨rfl⟩) : Calm e a (Device.applyDecision d p1 p2 p3 p4 p5 p6) := by
  unfold Device.applyDecision
  extract_lets x1 x2 x3 x4
  clear_value x1
  clear_value x2
  clear_value x3
  clear_value x4
  split
  · refine Device.skipLap_calm ?_
    assumption
  · split
    · assumption
    · split
      · extract_lets x5 x6 x7 x8 x9
        clear_value x5
        clear_value x6
        have hx7 : Calm e a x7 := by
          unfold x7
          refine Device.setLap_calm ?_
          refine Device.granted_calm ?_
          assumption
        clear_value x7
        have hx8 : Calm e a x8 := by
          unfold x8
          split
          · refine Device.count_calm ?_
            assumption
          · refine Device.count_calm ?_
            assumption
          · refine Device.count_calm ?_
            assumption
          · refine Device.count_calm ?_
            assumption
        clear_value x8
        have hx9 : Calm e a x9 := by
          unfold x9
          refine Device.deferredIn_calm ?_
          split
          · refine Device.count_calm ?_
            assumption
          · assumption
        clear_value x9
        refine Device.fenceDone_calm ?_
        assumption
      · split
        · extract_lets x10 x11
          clear_value x10
          clear_value x11
          refine Device.fenceDone_calm ?_
          refine Device.setLap_calm ?_
          refine Device.granted_calm ?_
          assumption
        · refine Device.deliverSettle_calm ?_
          assumption
/-! Span. -/
theorem Device.owner_calm {e : Eff} {a : Device} {d : Device} {p1 : ℕ} {p2 : ℕ} (h : Calm e a d) (e_u21 : Lets (e.unit 21) := by first | assumption | exact ⟨rfl⟩) : Calm e a (Device.owner d p1 p2).2 := by
  unfold Device.owner
  extract_lets x6000 x6001 x6002 x6003
  clear_value x6000
  clear_value x6001
  have hx6002 : Calm e a x6002 := by
    unfold x6002
    refine Device.raiseSec_calm ?_
    refine Device.count_calm ?_
    assumption
  clear_value x6002
  clear_value x6003
  split
  · dsimp only
    assumption
  · split
    · dsimp only
      refine Device.setRxl_calm ?_
      assumption
    · dsimp only
      assumption
theorem Device.setHold_calm {e : Eff} {a : Device} {d : Device} {p1 : ℕ} {p2 : HoldSt} (h : Calm e a d) (e_u21 : Lets (e.unit 21) := by first | assumption | exact ⟨rfl⟩) : Calm e a (Device.setHold d p1 p2) := by
  unfold Device.setHold
  refine Device.setRxl_calm ?_
  assumption
theorem Device.passEvent_calm {e : Eff} {a : Device} {d : Device} {p1 : ℕ} (h : Calm e a d) (e_u21 : Lets (e.unit 21) := by first | assumption | exact ⟨rfl⟩) : Calm e a (Device.passEvent d p1) := by
  unfold Device.passEvent
  split
  · assumption
  · split
    · assumption
    · extract_lets x1 x2
      have hx1 : Calm e a x1 := by
        unfold x1
        refine Device.raise_calm ?_
        assumption
      clear_value x1
      clear_value x2
      refine Device.setRxl_calm ?_
      assumption
theorem Device.journalPass_calm {e : Eff} {a : Device} {d : Device} {p1 : ℕ} {p2 : ℕ} {p3 : ℕ} {p4 : ℕ} (h : Calm e a d) (e_dd : Lets e.dd := by first | assumption | exact ⟨rfl⟩) (e_jnl : Lets e.jnl := by first | assumption | exact ⟨rfl⟩) : Calm e a (Device.journalPass d p1 p2 p3 p4) := by
  unfold Device.journalPass
  refine Device.journalW_calm ?_
  assumption
theorem Device.holdFrom_calm {e : Eff} {a : Device} {d : Device} {p1 : ℕ} {p2 : ℕ} {p3 : ℕ} {p4 : Bool} (h : Calm e a d) (e_u8 : Lets (e.unit 8) := by first | assumption | exact ⟨rfl⟩) (e_u21 : Lets (e.unit 21) := by first | assumption | exact ⟨rfl⟩) : Calm e a (Device.holdFrom d p1 p2 p3 p4) := by
  unfold Device.holdFrom
  extract_lets x1 x2
  clear_value x1
  have hx2 : Calm e a x2 := by
    unfold x2
    refine Device.setHold_calm ?_
    assumption
  clear_value x2
  split
  · assumption
  · apply calm_foldl
    · intro v3
      intro v4
      intro v5
      split
      · refine Device.setLap_calm ?_
        assumption
      · assumption
    · assumption
theorem Device.holdUntil_calm {e : Eff} {a : Device} {d : Device} {p1 : ℕ} {p2 : ℕ} {p3 : Option ℕ} {p4 : Option ℕ} (h : Calm e a d) (e_u21 : Lets (e.unit 21) := by first | assumption | exact ⟨rfl⟩) : Calm e a (Device.holdUntil d p1 p2 p3 p4) := by
  unfold Device.holdUntil
  extract_lets x1
  clear_value x1
  refine Device.setHold_calm ?_
  assumption
theorem Device.passCount_calm {e : Eff} {a : Device} {d : Device} {p1 : ℕ} {p2 : ℕ} (h : Calm e a d) (e_u21 : Lets (e.unit 21) := by first | assumption | exact ⟨rfl⟩) : Calm e a (Device.passCount d p1 p2) := by
  unfold Device.passCount
  extract_lets x1 x2
  clear_value x1
  clear_value x2
  refine Device.setRxl_calm ?_
  assumption
theorem Device.lanePass_calm {e : Eff} {a : Device} {d : Device} {p1 : ℕ} {p2 : ℕ} (h : Calm e a d) (e_dd : Lets e.dd := by first | assumption | exact ⟨rfl⟩) (e_jnl : Lets e.jnl := by first | assumption | exact ⟨rfl⟩) (e_u17 : Lets (e.unit 17) := by first | assumption | exact ⟨rfl⟩) (e_u21 : Lets (e.unit 21) := by first | assumption | exact ⟨rfl⟩) (e_u24 : Lets (e.unit 24) := by first | assumption | exact ⟨rfl⟩) : Calm e a (Device.lanePass d p1 p2) := by
  unfold Device.lanePass
  extract_lets x1 x2 x3
  clear_value x1
  have hx2 : Calm e a x2.2 := by
    unfold x2
    refine Device.owner_calm ?_
    assumption
  clear_value x2
  clear_value x3
  split
  · assumption
  · split
    · assumption
    · split
      · assumption
      · extract_lets x4 x5
        clear_value x4
        have hx5 : Calm e a x5 := by
          unfold x5
          refine Device.rxlOwn_calm ?_
          refine Device.holdUntil_calm ?_
          assumption
        clear_value x5
        refine Device.passCount_calm ?_
        refine Device.journalPass_calm ?_
        refine Device.count_calm ?_
        assumption
theorem Device.laneTake_calm {e : Eff} {a : Device} {d : Device} {p1 : ℕ} {p2 : ℕ} {p3 : ℕ} (h : Calm e a d) (e_dd : Lets e.dd := by first | assumption | exact ⟨rfl⟩) (e_jnl : Lets e.jnl := by first | assumption | exact ⟨rfl⟩) (e_u8 : Lets (e.unit 8) := by first | assumption | exact ⟨rfl⟩) (e_u21 : Lets (e.unit 21) := by first | assumption | exact ⟨rfl⟩) : Calm e a (Device.laneTake d p1 p2 p3) := by
  unfold Device.laneTake
  extract_lets x1 x2 x3 x4 x5
  clear_value x1
  clear_value x2
  have hx3 : Calm e a x3.2 := by
    unfold x3
    refine Device.owner_calm ?_
    assumption
  clear_value x3
  have hx4 : Calm e a x4 := by
    unfold x4
    refine Device.setHold_calm ?_
    assumption
  clear_value x4
  have hx5 : Calm e a x5 := by
    unfold x5
    refine Device.holdFrom_calm ?_
    assumption
  clear_value x5
  split
  · split
    · refine Device.setHold_calm ?_
      assumption
    · assumption
  · split
    · refine Device.journalPass_calm ?_
      split
      · refine Device.count_calm ?_
        assumption
      · assumption
    · assumption
theorem Device.spanOpen_calm {e : Eff} {a : Device} {d : Device} {p1 : ℕ} {p2 : ℕ} (h : Calm e a d) (e_dd : Lets e.dd := by first | assumption | exact ⟨rfl⟩) (e_jnl : Lets e.jnl := by first | assumption | exact ⟨rfl⟩) (e_u8 : Lets (e.unit 8) := by first | assumption | exact ⟨rfl⟩) (e_u17 : Lets (e.unit 17) := by first | assumption | exact ⟨rfl⟩) (e_u21 : Lets (e.unit 21) := by first | assumption | exact ⟨rfl⟩) (e_u24 : Lets (e.unit 24) := by first | assumption | exact ⟨rfl⟩) : Calm e a (Device.spanOpen d p1 p2) := by
  unfold Device.spanOpen
  split
  · assumption
  · refine Device.passEvent_calm ?_
    apply calm_foldl
    · intro v1
      intro v2
      intro v3
      split
      · refine Device.lanePass_calm ?_
        assumption
      · refine Device.laneTake_calm ?_
        assumption
    · assumption
theorem Device.passTaken_calm {e : Eff} {a : Device} {d : Device} {p1 : ℕ} {p2 : ℕ} {p3 : ℕ} (h : Calm e a d) (e_dd : Lets e.dd := by first | assumption | exact ⟨rfl⟩) (e_jnl : Lets e.jnl := by first | assumption | exact ⟨rfl⟩) (e_u8 : Lets (e.unit 8) := by first | assumption | exact ⟨rfl⟩) (e_u21 : Lets (e.unit 21) := by first | assumption | exact ⟨rfl⟩) : Calm e a (Device.passTaken d p1 p2 p3) := by
  unfold Device.passTaken
  refine Device.passEvent_calm ?_
  refine Device.passCount_calm ?_
  refine Device.journalPass_calm ?_
  refine Device.count_calm ?_
  refine Device.holdFrom_calm ?_
  assumption
theorem Device.applyPass_calm {e : Eff} {a : Device} {d : Device} {p1 : ℕ} {p2 : ℕ} {p3 : ℕ} {p4 : ℕ} (h : Calm e a d) (e_u8 : Lets (e.unit 8) := by first | assumption | exact ⟨rfl⟩) (e_u21 : Lets (e.unit 21) := by first | assumption | exact ⟨rfl⟩) : Calm e a (Device.applyPass d p1 p2 p3 p4) := by
  unfold Device.applyPass
  split
  · refine Device.holdUntil_calm ?_
    assumption
  · refine Device.holdFrom_calm ?_
    assumption
theorem Device.sendRecs_calm {e : Eff} {a : Device} {d : Device} {p1 : ℕ} {p2 : List Arrival} (h : Calm e a d) (e_u17 : Lets (e.unit 17) := by first | assumption | exact ⟨rfl⟩) (e_u21 : Lets (e.unit 21) := by first | assumption | exact ⟨rfl⟩) (e_u24 : Lets (e.unit 24) := by first | assumption | exact ⟨rfl⟩) : Calm e a (Device.sendRecs d p1 p2) := by
  unfold Device.sendRecs
  extract_lets x6000
  clear_value x6000
  apply calm_foldl
  · intro v58
    intro v57
    intro w56
    refine Device.rxlOwn_calm ?_
    assumption
  · assumption
theorem Device.deliver_calm {e : Eff} {a : Device} {d : Device} {p1 : Bool} {p2 : List Arrival} (h : Calm e a d) (e_dd : Lets e.dd := by first | assumption | exact ⟨rfl⟩) (e_jnl : Lets e.jnl := by first | assumption | exact ⟨rfl⟩) (e_u6 : Lets (e.unit 6) := by first | assumption | exact ⟨rfl⟩) (e_u8 : Lets (e.unit 8) := by first | assumption | exact ⟨rfl⟩) (e_u10 : Lets (e.unit 10) := by first | assumption | exact ⟨rfl⟩) (e_u12 : Lets (e.unit 12) := by first | assumption | exact ⟨rfl⟩) (e_u16 : Lets (e.unit 16) := by first | assumption | exact ⟨rfl⟩) (e_u17 : Lets (e.unit 17) := by first | assumption | exact ⟨rfl⟩) (e_u20 : Lets (e.unit 20) := by first | assumption | exact ⟨rfl⟩) (e_u21 : Lets (e.unit 21) := by first | assumption | exact ⟨rfl⟩) (e_u23 : Lets (e.unit 23) := by first | assumption | exact ⟨rfl⟩) (e_u24 : Lets (e.unit 24) := by first | assumption | exact ⟨rfl⟩) (e_u26 : Lets (e.unit 26) := by first | assumption | exact ⟨rfl⟩) : Calm e a (Device.deliver d p1 p2).2 := by
  unfold Device.deliver
  extract_lets x1 x2 x3 x4
  clear_value x1
  clear_value x2
  clear_value x3
  have hx4 : Calm e a x4.2 := by
    unfold x4
    apply calm_foldl2
    · intro v5
      intro v6
      intro v7
      split
      · dsimp only
        assumption
      · extract_lets x8
        have hx8 : Calm e a x8.2 := by
          unfold x8
          refine Device.pfaArrive_calm ?_
          split
          · refine Device.count_calm ?_
            assumption
          · assumption
        clear_value x8
        dsimp only
        assumption
    · dsimp only
      assumption
  clear_value x4
  dsimp only
  split
  · assumption
  · apply calm_foldl
    · intro v9
      intro v10
      intro v11
      refine Device.sendRecs_calm ?_
      assumption
    · assumption
theorem Device.anchorLook_calm {e : Eff} {a : Device} {d : Device} {p1 : ℕ} (h : Calm e a d) (e_u21 : Lets (e.unit 21) := by first | assumption | exact ⟨rfl⟩) : Calm e a (Device.anchorLook d p1) := by
  unfold Device.anchorLook
  extract_lets x6000 x6001 x6002 x6003 x6004
  clear_value x6000
  clear_value x6001
  clear_value x6002
  clear_value x6003
  have hx6004 : Calm e a x6004 := by
    unfold x6004
    refine Device.count_calm ?_
    refine Device.setRxl_calm ?_
    assumption
  clear_value x6004
  split
  · assumption
  · refine Device.raise_calm ?_
    assumption
theorem Device.setComb_calm {e : Eff} {a : Device} {d : Device} {p1 : ℕ} {p2 : ℕ} {p3 : CombSt} (h : Calm e a d) (e_u21 : Lets (e.unit 21) := by first | assumption | exact ⟨rfl⟩) : Calm e a (Device.setComb d p1 p2 p3) := by
  unfold Device.setComb
  refine Device.setRxl_calm ?_
  assumption
theorem Device.combMake_calm {e : Eff} {a : Device} {d : Device} {p1 : ℕ} {p2 : ℕ} {p3 : ℕ} {p4 : NMap Part} {p5 : Bool} (h : Calm e a d) (e_dd : Lets e.dd := by first | assumption | exact ⟨rfl⟩) (e_jnl : Lets e.jnl := by first | assumption | exact ⟨rfl⟩) (e_u10 : Lets (e.unit 10) := by first | assumption | exact ⟨rfl⟩) (e_u21 : Lets (e.unit 21) := by first | assumption | exact ⟨rfl⟩) : Calm e a (Device.combMake d p1 p2 p3 p4 p5) := by
  unfold Device.combMake
  extract_lets x1 x2 x3 x4 x5 x6 x7 x8 x9 x10
  clear_value x1
  clear_value x2
  clear_value x3
  clear_value x4
  clear_value x5
  have hx6 : Calm e a x6 := by
    unfold x6
    refine Device.setComb_calm ?_
    assumption
  clear_value x6
  have hx7 : Calm e a x7 := by
    unfold x7
    refine Device.count_calm ?_
    refine Device.countN_calm ?_
    assumption
  clear_value x7
  clear_value x8
  have hx9 : Calm e a x9 := by
    unfold x9
    refine Device.journalW_calm ?_
    assumption
  clear_value x9
  clear_value x10
  refine Device.entryFill_calm ?_
  assumption
theorem Device.combCheck_calm {e : Eff} {a : Device} {d : Device} {p1 : ℕ} {p2 : ℕ} {p3 : ℕ} {p4 : Bool} (h : Calm e a d) (e_dd : Lets e.dd := by first | assumption | exact ⟨rfl⟩) (e_jnl : Lets e.jnl := by first | assumption | exact ⟨rfl⟩) (e_u10 : Lets (e.unit 10) := by first | assumption | exact ⟨rfl⟩) (e_u21 : Lets (e.unit 21) := by first | assumption | exact ⟨rfl⟩) : Calm e a (Device.combCheck d p1 p2 p3 p4) := by
  unfold Device.combCheck
  extract_lets x6000 x6001 x6002 x6003 x6004 x6005 x6006
  clear_value x6000
  clear_value x6001
  clear_value x6002
  clear_value x6003
  clear_value x6004
  clear_value x6005
  clear_value x6006
  split
  · assumption
  · split
    · split
      · assumption
      · refine Device.count_calm ?_
        refine Device.setSrt_calm ?_
        assumption
    · refine Device.combMake_calm ?_
      assumption
theorem partWaitExpiry_calm {e : Eff} {a : Device} {p0 : ℕ} {p1 : ℕ} {d : Device} (h : Calm e a d) (e_dd : Lets e.dd := by first | assumption | exact ⟨rfl⟩) (e_jnl : Lets e.jnl := by first | assumption | exact ⟨rfl⟩) (e_u10 : Lets (e.unit 10) := by first | assumption | exact ⟨rfl⟩) (e_u21 : Lets (e.unit 21) := by first | assumption | exact ⟨rfl⟩) : Calm e a (partWaitExpiry p0 p1 d) := by
  unfold partWaitExpiry
  split
  · split
    · assumption
    · apply calm_foldl
      · intro v57
        intro v56
        intro w55
        split
        · refine Device.combCheck_calm ?_
          assumption
        · assumption
      · assumption
  · split
    · assumption
    · apply calm_foldl
      · intro v57
        intro v56
        intro w55
        split
        · refine Device.combCheck_calm ?_
          assumption
        · assumption
      · assumption
theorem Device.combFinish_calm {e : Eff} {a : Device} {d : Device} {p1 : ℕ} {p2 : ℕ} (h : Calm e a d) (e_dd : Lets e.dd := by first | assumption | exact ⟨rfl⟩) (e_jnl : Lets e.jnl := by first | assumption | exact ⟨rfl⟩) (e_u10 : Lets (e.unit 10) := by first | assumption | exact ⟨rfl⟩) (e_u21 : Lets (e.unit 21) := by first | assumption | exact ⟨rfl⟩) : Calm e a (Device.combFinish d p1 p2) := by
  unfold Device.combFinish
  split
  · assumption
  · apply calm_foldl
    · intro v1
      intro v2
      intro v3
      split
      · refine Device.combCheck_calm ?_
        refine Device.setComb_calm ?_
        assumption
      · assumption
    · assumption
theorem Device.combGathered_calm {e : Eff} {a : Device} {d : Device} {p1 : ℕ} {p2 : ℕ} {p3 : ℕ} (h : Calm e a d) (e_dd : Lets e.dd := by first | assumption | exact ⟨rfl⟩) (e_jnl : Lets e.jnl := by first | assumption | exact ⟨rfl⟩) (e_u10 : Lets (e.unit 10) := by first | assumption | exact ⟨rfl⟩) (e_u21 : Lets (e.unit 21) := by first | assumption | exact ⟨rfl⟩) : Calm e a (Device.combGathered d p1 p2 p3) := by
  unfold Device.combGathered
  refine Device.combCheck_calm ?_
  refine Device.setComb_calm ?_
  assumption
theorem Device.partOperand_calm {e : Eff} {a : Device} {d : Device} {p1 : Part} (h : Calm e a d) (e_u10 : Lets (e.unit 10) := by first | assumption | exact ⟨rfl⟩) : Calm e a (Device.partOperand d p1) := by
  unfold Device.partOperand
  extract_lets x1 x2
  clear_value x1
  clear_value x2
  split
  · assumption
  · refine Device.operand_calm ?_
    assumption
theorem Device.partArrive_calm {e : Eff} {a : Device} {d : Device} {p1 : ℕ} {p2 : ℕ} {p3 : ℕ} {p4 : ℕ} {p5 : ℕ} {p6 : ℕ} {p7 : ℕ} {p8 : ℕ} {p9 : List Byte} (h : Calm e a d) (e_dd : Lets e.dd := by first | assumption | exact ⟨rfl⟩) (e_jnl : Lets e.jnl := by first | assumption | exact ⟨rfl⟩) (e_u10 : Lets (e.unit 10) := by first | assumption | exact ⟨rfl⟩) (e_u21 : Lets (e.unit 21) := by first | assumption | exact ⟨rfl⟩) : Calm e a (Device.partArrive d p1 p2 p3 p4 p5 p6 p7 p8 p9) := by
  unfold Device.partArrive
  extract_lets x1 x2 x3 x4
  clear_value x1
  clear_value x2
  clear_value x3
  have hx4 : Calm e a x4 := by
    unfold x4
    refine Device.setRxl_calm ?_
    assumption
  clear_value x4
  split
  · refine Device.storeCheck_calm ?_
    refine Device.combCheck_calm ?_
    split
    · assumption
    · refine Device.partOperand_calm ?_
      assumption
  · assumption
theorem Device.partPrune_calm {e : Eff} {a : Device} {d : Device} {p1 : ℕ} (h : Calm e a d) (e_dd : Lets e.dd := by first | assumption | exact ⟨rfl⟩) (e_jnl : Lets e.jnl := by first | assumption | exact ⟨rfl⟩) (e_u8 : Lets (e.unit 8) := by first | assumption | exact ⟨rfl⟩) (e_u10 : Lets (e.unit 10) := by first | assumption | exact ⟨rfl⟩) (e_u12 : Lets (e.unit 12) := by first | assumption | exact ⟨rfl⟩) (e_u16 : Lets (e.unit 16) := by first | assumption | exact ⟨rfl⟩) (e_u17 : Lets (e.unit 17) := by first | assumption | exact ⟨rfl⟩) (e_u20 : Lets (e.unit 20) := by first | assumption | exact ⟨rfl⟩) (e_u21 : Lets (e.unit 21) := by first | assumption | exact ⟨rfl⟩) (e_u23 : Lets (e.unit 23) := by first | assumption | exact ⟨rfl⟩) (e_u24 : Lets (e.unit 24) := by first | assumption | exact ⟨rfl⟩) (e_u26 : Lets (e.unit 26) := by first | assumption | exact ⟨rfl⟩) : Calm e a (Device.partPrune d p1) := by
  unfold Device.partPrune
  extract_lets x1 x2 x3 x4 x5 x6
  clear_value x1
  clear_value x2
  clear_value x3
  have hx4 : Calm e a x4 := by
    unfold x4
    refine Device.setRxl_calm ?_
    assumption
  clear_value x4
  clear_value x5
  clear_value x6
  split
  · refine Device.reoffer_calm ?_
    refine Device.storeShow_calm ?_
    refine Device.setSrt_calm ?_
    assumption
  · assumption
theorem Device.partSend_calm {e : Eff} {a : Device} {d : Device} {p1 : ℕ} {p2 : ℕ} {p3 : ℕ} {p4 : ℕ} {p5 : ℕ} {p6 : Bool} {p7 : List Byte} (h : Calm e a d) (e_dd : Lets e.dd := by first | assumption | exact ⟨rfl⟩) (e_jnl : Lets e.jnl := by first | assumption | exact ⟨rfl⟩) (e_u10 : Lets (e.unit 10) := by first | assumption | exact ⟨rfl⟩) (e_u17 : Lets (e.unit 17) := by first | assumption | exact ⟨rfl⟩) (e_u21 : Lets (e.unit 21) := by first | assumption | exact ⟨rfl⟩) (e_u24 : Lets (e.unit 24) := by first | assumption | exact ⟨rfl⟩) : Calm e a (Device.partSend d p1 p2 p3 p4 p5 p6 p7) := by
  unfold Device.partSend
  extract_lets x6000 x6001 x6002
  clear_value x6000
  clear_value x6001
  clear_value x6002
  split
  · refine Device.partArrive_calm ?_
    assumption
  · apply calm_foldl
    · intro v57
      intro v56
      intro w55
      refine Device.rxlOwn_calm ?_
      assumption
    · assumption
theorem Device.applyCombine_calm {e : Eff} {a : Device} {d : Device} {p1 : ℕ} {p2 : ℕ} {p3 : ℕ} {p4 : ℕ} {p5 : ℕ} {p6 : NMap ℕ} (h : Calm e a d) (e_u10 : Lets (e.unit 10) := by first | assumption | exact ⟨rfl⟩) (e_u21 : Lets (e.unit 21) := by first | assumption | exact ⟨rfl⟩) : Calm e a (Device.applyCombine d p1 p2 p3 p4 p5 p6) := by
  unfold Device.applyCombine
  extract_lets x1 x2 x3 x4
  clear_value x1
  clear_value x2
  have hx3 : Calm e a x3 := by
    unfold x3
    refine Device.setComb_calm ?_
    assumption
  clear_value x3
  have hx4 : Calm e a x4 := by
    unfold x4
    refine Device.count_calm ?_
    refine Device.countN_calm ?_
    assumption
  clear_value x4
  refine Device.entryFill_calm ?_
  assumption
end Sys2Proof.Machine
end

