-- ==== Sys2Proof/Laws/CalmEngines.lean ====
section
/-!
SUPPORT. One lemma per operation of the monitor, islands and the engines (Machine/Osm, Island, Engine): what the
operation may touch, in the terms of Calm.
-/
namespace Sys2Proof.Machine
set_option Elab.async false
/-! Osm. -/
theorem Device.osmState_calm {e : Eff} {a : Device} {d : Device} {p1 : OsmState} (h : Calm e a d) (e_u14 : Lets (e.unit 14) := by first | assumption | exact ⟨rfl⟩) : Calm e a (Device.osmState d p1) := by
  unfold Device.osmState
  refine Device.setf_calm ?_
  refine Device.setOsm_calm ?_
  assumption
theorem Device.osmErr_calm {e : Eff} {a : Device} {d : Device} {p1 : ℕ} (h : Calm e a d) (e_u14 : Lets (e.unit 14) := by first | assumption | exact ⟨rfl⟩) : Calm e a (Device.osmErr d p1) := by
  unfold Device.osmErr
  refine Device.err_calm ?_
  assumption
theorem Device.osmLevel_calm {e : Eff} {a : Device} {d : Device} (h : Calm e a d) (e_u14 : Lets (e.unit 14) := by first | assumption | exact ⟨rfl⟩) : Calm e a (Device.osmLevel d) := by
  unfold Device.osmLevel
  refine Device.hwm_calm ?_
  refine Device.setf_calm ?_
  assumption
theorem Device.osmJournal_calm {e : Eff} {a : Device} {d : Device} {p1 : ℕ} {p2 : ℕ} {p3 : ℕ} (h : Calm e a d) (e_dd : Lets e.dd := by first | assumption | exact ⟨rfl⟩) (e_jnl : Lets e.jnl := by first | assumption | exact ⟨rfl⟩) : Calm e a (Device.osmJournal d p1 p2 p3) := by
  unfold Device.osmJournal
  refine Device.journalW_calm ?_
  assumption
theorem Device.osmDrop_calm {e : Eff} {a : Device} {d : Device} (h : Calm e a d) (e_dd : Lets e.dd := by first | assumption | exact ⟨rfl⟩) (e_jnl : Lets e.jnl := by first | assumption | exact ⟨rfl⟩) (e_u8 : Lets (e.unit 8) := by first | assumption | exact ⟨rfl⟩) (e_u10 : Lets (e.unit 10) := by first | assumption | exact ⟨rfl⟩) (e_u12 : Lets (e.unit 12) := by first | assumption | exact ⟨rfl⟩) (e_u16 : Lets (e.unit 16) := by first | assumption | exact ⟨rfl⟩) (e_u17 : Lets (e.unit 17) := by first | assumption | exact ⟨rfl⟩) (e_u20 : Lets (e.unit 20) := by first | assumption | exact ⟨rfl⟩) (e_u23 : Lets (e.unit 23) := by first | assumption | exact ⟨rfl⟩) (e_u24 : Lets (e.unit 24) := by first | assumption | exact ⟨rfl⟩) (e_u26 : Lets (e.unit 26) := by first | assumption | exact ⟨rfl⟩) : Calm e a (Device.osmDrop d) := by
  unfold Device.osmDrop
  extract_lets x1 x2 x3 x4 x5
  clear_value x1
  clear_value x2
  clear_value x3
  have hx4 : Calm e a x4 := by
    unfold x4
    refine Device.setSrt_calm ?_
    assumption
  clear_value x4
  have hx5 : Calm e a x5 := by
    unfold x5
    apply calm_foldl
    · intro v6
      intro v7
      intro v8
      refine queueFill_calm ?_
      refine Device.setQueue_calm ?_
      assumption
    · assumption
  clear_value x5
  refine Device.reoffer_calm ?_
  refine Device.storeShow_calm ?_
  assumption
theorem Device.osmStopped_calm {e : Eff} {a : Device} {d : Device} (h : Calm e a d) (e_dd : Lets e.dd := by first | assumption | exact ⟨rfl⟩) (e_jnl : Lets e.jnl := by first | assumption | exact ⟨rfl⟩) (e_u8 : Lets (e.unit 8) := by first | assumption | exact ⟨rfl⟩) (e_u10 : Lets (e.unit 10) := by first | assumption | exact ⟨rfl⟩) (e_u12 : Lets (e.unit 12) := by first | assumption | exact ⟨rfl⟩) (e_u14 : Lets (e.unit 14) := by first | assumption | exact ⟨rfl⟩) (e_u16 : Lets (e.unit 16) := by first | assumption | exact ⟨rfl⟩) (e_u17 : Lets (e.unit 17) := by first | assumption | exact ⟨rfl⟩) (e_u20 : Lets (e.unit 20) := by first | assumption | exact ⟨rfl⟩) (e_u23 : Lets (e.unit 23) := by first | assumption | exact ⟨rfl⟩) (e_u24 : Lets (e.unit 24) := by first | assumption | exact ⟨rfl⟩) (e_u26 : Lets (e.unit 26) := by first | assumption | exact ⟨rfl⟩) : Calm e a (Device.osmStopped d) := by
  unfold Device.osmStopped
  extract_lets x1 x2 x3 x4
  clear_value x1
  have hx2 : Calm e a x2 := by
    unfold x2
    refine Device.setf_calm ?_
    refine Device.osmState_calm ?_
    refine Device.osmJournal_calm ?_
    assumption
  clear_value x2
  clear_value x3
  clear_value x4
  refine Device.raise_calm ?_
  refine Device.setf_calm ?_
  refine Device.setOsm_calm ?_
  refine Device.osmDrop_calm ?_
  assumption
theorem Device.osmStop_calm {e : Eff} {a : Device} {d : Device} {p1 : ℕ} (h : Calm e a d) (e_dd : Lets e.dd := by first | assumption | exact ⟨rfl⟩) (e_jnl : Lets e.jnl := by first | assumption | exact ⟨rfl⟩) (e_u8 : Lets (e.unit 8) := by first | assumption | exact ⟨rfl⟩) (e_u10 : Lets (e.unit 10) := by first | assumption | exact ⟨rfl⟩) (e_u12 : Lets (e.unit 12) := by first | assumption | exact ⟨rfl⟩) (e_u14 : Lets (e.unit 14) := by first | assumption | exact ⟨rfl⟩) (e_u16 : Lets (e.unit 16) := by first | assumption | exact ⟨rfl⟩) (e_u17 : Lets (e.unit 17) := by first | assumption | exact ⟨rfl⟩) (e_u20 : Lets (e.unit 20) := by first | assumption | exact ⟨rfl⟩) (e_u23 : Lets (e.unit 23) := by first | assumption | exact ⟨rfl⟩) (e_u24 : Lets (e.unit 24) := by first | assumption | exact ⟨rfl⟩) (e_u26 : Lets (e.unit 26) := by first | assumption | exact ⟨rfl⟩) : Calm e a (Device.osmStop d p1) := by
  unfold Device.osmStop
  split
  · refine Device.setOsm_calm ?_
    assumption
  · extract_lets x1 x2
    clear_value x1
    have hx2 : Calm e a x2 := by
      unfold x2
      refine Device.osmState_calm ?_
      refine Device.setOsm_calm ?_
      assumption
    clear_value x2
    split
    · assumption
    · refine Device.osmStopped_calm ?_
      assumption
theorem Device.osmHeatEnd_calm {e : Eff} {a : Device} {d : Device} {p1 : ℕ} (h : Calm e a d) (e_dd : Lets e.dd := by first | assumption | exact ⟨rfl⟩) (e_jnl : Lets e.jnl := by first | assumption | exact ⟨rfl⟩) (e_u8 : Lets (e.unit 8) := by first | assumption | exact ⟨rfl⟩) (e_u10 : Lets (e.unit 10) := by first | assumption | exact ⟨rfl⟩) (e_u12 : Lets (e.unit 12) := by first | assumption | exact ⟨rfl⟩) (e_u14 : Lets (e.unit 14) := by first | assumption | exact ⟨rfl⟩) (e_u16 : Lets (e.unit 16) := by first | assumption | exact ⟨rfl⟩) (e_u17 : Lets (e.unit 17) := by first | assumption | exact ⟨rfl⟩) (e_u20 : Lets (e.unit 20) := by first | assumption | exact ⟨rfl⟩) (e_u23 : Lets (e.unit 23) := by first | assumption | exact ⟨rfl⟩) (e_u24 : Lets (e.unit 24) := by first | assumption | exact ⟨rfl⟩) (e_u26 : Lets (e.unit 26) := by first | assumption | exact ⟨rfl⟩) : Calm e a (Device.osmHeatEnd d p1) := by
  unfold Device.osmHeatEnd
  split
  · assumption
  · split
    · assumption
    · extract_lets x1 x2 x3 x4
      clear_value x1
      clear_value x2
      clear_value x3
      have hx4 : Calm e a x4 := by
        unfold x4
        refine Device.setOsm_calm ?_
        assumption
      clear_value x4
      split
      · refine Device.storeCheck_calm ?_
        assumption
      · split
        · refine Device.osmStop_calm ?_
          assumption
        · split
          · refine Device.osmStop_calm ?_
            assumption
          · refine Device.storeCheck_calm ?_
            assumption
theorem osmRunStart_calm {e : Eff} {a : Device} {d : Device} (h : Calm e a d) (e_u14 : Lets (e.unit 14) := by first | assumption | exact ⟨rfl⟩) : Calm e a (osmRunStart d) := by
  unfold osmRunStart
  split
  · assumption
  · extract_lets x5900 x5901
    clear_value x5900
    clear_value x5901
    split
    · refine Device.osmErr_calm ?_
      assumption
    · refine Device.setOsm_calm ?_
      refine Device.setf_calm ?_
      assumption
theorem osmRunStop_calm {e : Eff} {a : Device} {d : Device} (h : Calm e a d) (e_dd : Lets e.dd := by first | assumption | exact ⟨rfl⟩) (e_jnl : Lets e.jnl := by first | assumption | exact ⟨rfl⟩) (e_u8 : Lets (e.unit 8) := by first | assumption | exact ⟨rfl⟩) (e_u10 : Lets (e.unit 10) := by first | assumption | exact ⟨rfl⟩) (e_u12 : Lets (e.unit 12) := by first | assumption | exact ⟨rfl⟩) (e_u14 : Lets (e.unit 14) := by first | assumption | exact ⟨rfl⟩) (e_u16 : Lets (e.unit 16) := by first | assumption | exact ⟨rfl⟩) (e_u17 : Lets (e.unit 17) := by first | assumption | exact ⟨rfl⟩) (e_u20 : Lets (e.unit 20) := by first | assumption | exact ⟨rfl⟩) (e_u23 : Lets (e.unit 23) := by first | assumption | exact ⟨rfl⟩) (e_u24 : Lets (e.unit 24) := by first | assumption | exact ⟨rfl⟩) (e_u26 : Lets (e.unit 26) := by first | assumption | exact ⟨rfl⟩) : Calm e a (osmRunStop d) := by
  unfold osmRunStop
  split
  · refine Device.osmStop_calm ?_
    refine Device.setf_calm ?_
    assumption
  · assumption
theorem osmCtlWrite_calm {e : Eff} {a : Device} {p0 : Word} {d : Device} (h : Calm e a d) (e_dd : Lets e.dd := by first | assumption | exact ⟨rfl⟩) (e_jnl : Lets e.jnl := by first | assumption | exact ⟨rfl⟩) (e_u8 : Lets (e.unit 8) := by first | assumption | exact ⟨rfl⟩) (e_u10 : Lets (e.unit 10) := by first | assumption | exact ⟨rfl⟩) (e_u12 : Lets (e.unit 12) := by first | assumption | exact ⟨rfl⟩) (e_u14 : Lets (e.unit 14) := by first | assumption | exact ⟨rfl⟩) (e_u16 : Lets (e.unit 16) := by first | assumption | exact ⟨rfl⟩) (e_u17 : Lets (e.unit 17) := by first | assumption | exact ⟨rfl⟩) (e_u20 : Lets (e.unit 20) := by first | assumption | exact ⟨rfl⟩) (e_u23 : Lets (e.unit 23) := by first | assumption | exact ⟨rfl⟩) (e_u24 : Lets (e.unit 24) := by first | assumption | exact ⟨rfl⟩) (e_u26 : Lets (e.unit 26) := by first | assumption | exact ⟨rfl⟩) : Calm e a (osmCtlWrite p0 d) := by
  unfold osmCtlWrite
  extract_lets x1
  clear_value x1
  split
  · refine Device.osmErr_calm ?_
    assumption
  · split
    · refine osmRunStart_calm ?_
      refine Device.setf_calm ?_
      assumption
    · refine osmRunStop_calm ?_
      refine Device.setf_calm ?_
      assumption
theorem osmDdrWrite_calm {e : Eff} {a : Device} {p0 : Word} {d : Device} (h : Calm e a d) (e_u14 : Lets (e.unit 14) := by first | assumption | exact ⟨rfl⟩) : Calm e a (osmDdrWrite p0 d) := by
  unfold osmDdrWrite
  split
  · refine Device.osmErr_calm ?_
    assumption
  · refine Device.setf_calm ?_
    refine Device.setf_calm ?_
    assumption
theorem Device.osmPut_calm {e : Eff} {a : Device} {d : Device} {p1 : ℕ} {p2 : List Word} (h : Calm e a d) (e_dd : Lets e.dd := by first | assumption | exact ⟨rfl⟩) : Calm e a (Device.osmPut d p1 p2) := by
  unfold Device.osmPut
  refine Device.ddrWrite_calm ?_
  assumption
theorem Device.putW_calm {e : Eff} {a : Device} {d : Device} (h : Calm e a d) (e_dd : Lets e.dd := by first | assumption | exact ⟨rfl⟩) : Calm e a (Device.putW d) := by
  unfold Device.putW
  extract_lets x1
  have hx1 : ∀ q0 q1 q2, Calm e a q2 → Calm e a (x1 q0 q1 q2) := by
    intro v2 v3 v4 v5
    unfold x1
    apply calm_foldl
    · intro v6
      intro v7
      intro v8
      refine Device.osmPut_calm ?_
      assumption
    · assumption
  clear_value x1
  refine hx1 _ _ _ ?_
  refine hx1 _ _ _ ?_
  assumption
theorem Device.putSample_calm {e : Eff} {a : Device} {d : Device} {p1 : OscSample} (h : Calm e a d) (e_dd : Lets e.dd := by first | assumption | exact ⟨rfl⟩) : Calm e a (Device.putSample d p1) := by
  unfold Device.putSample
  extract_lets x1 x2
  clear_value x1
  clear_value x2
  refine Device.osmPut_calm ?_
  refine Device.osmPut_calm ?_
  assumption
theorem Device.osmClear_calm {e : Eff} {a : Device} {d : Device} {p1 : ℕ} (h : Calm e a d) (e_dd : Lets e.dd := by first | assumption | exact ⟨rfl⟩) (e_u14 : Lets (e.unit 14) := by first | assumption | exact ⟨rfl⟩) : Calm e a (Device.osmClear d p1) := by
  unfold Device.osmClear
  extract_lets x1 x2 x3 x4
  clear_value x1
  clear_value x2
  clear_value x3
  have hx4 : Calm e a x4 := by
    unfold x4
    refine Device.putW_calm ?_
    refine Device.setOsm_calm ?_
    refine Device.ddrClear_calm ?_
    assumption
  clear_value x4
  apply calm_foldl
  · intro v5
    intro v6
    intro v7
    refine Device.putSample_calm ?_
    assumption
  · assumption
theorem Device.osmOperand_calm {e : Eff} {a : Device} {d : Device} {p1 : OscSample} (h : Calm e a d) (e_u10 : Lets (e.unit 10) := by first | assumption | exact ⟨rfl⟩) : Calm e a (Device.osmOperand d p1) := by
  unfold Device.osmOperand
  extract_lets x6000 x6001 x6002 x6003
  clear_value x6000
  clear_value x6001
  have hx6003 : Calm e a x6003 := by
    unfold x6003
    refine Device.operand_calm ?_
    assumption
  clear_value x6003
  apply calm_foldl
  · intro v58
    intro v57
    intro w56
    split
    · extract_lets x5400 x5401 x5402
      clear_value x5400
      clear_value x5401
      clear_value x5402
      refine Device.operand_calm ?_
      refine Device.countN_calm ?_
      assumption
    · assumption
  · assumption
theorem Device.outOperand_calm {e : Eff} {a : Device} {d : Device} {p1 : KData} (h : Calm e a d) (e_u10 : Lets (e.unit 10) := by first | assumption | exact ⟨rfl⟩) : Calm e a (Device.outOperand d p1) := by
  unfold Device.outOperand
  apply calm_foldl
  · intro v59
    intro v58
    intro w57
    apply calm_foldl
    · intro v55
      intro v54
      intro w53
      refine Device.operand_calm ?_
      assumption
    · assumption
  · assumption
theorem Device.osmState__calm {e : Eff} {a : Device} {d : Device} {p1 : ℕ} {p2 : ℕ} (h : Calm e a d) (e_u10 : Lets (e.unit 10) := by first | assumption | exact ⟨rfl⟩) : Calm e a (Device.osmState_ d p1 p2) := by
  unfold Device.osmState_
  split
  · refine Device.operand_calm ?_
    assumption
  · assumption
theorem Device.osmOffer_calm {e : Eff} {a : Device} {d : Device} {p1 : OscSample} (h : Calm e a d) (e_u10 : Lets (e.unit 10) := by first | assumption | exact ⟨rfl⟩) : Calm e a (Device.osmOffer d p1) := by
  unfold Device.osmOffer
  extract_lets x1 x2
  have hx1 : Calm e a x1 := by
    unfold x1
    refine Device.osmOperand_calm ?_
    assumption
  clear_value x1
  clear_value x2
  split
  · assumption
  · refine Device.count_calm ?_
    refine Device.setSrt_calm ?_
    assumption
theorem Device.osmStartAt_calm {e : Eff} {a : Device} {d : Device} {p1 : ℕ} (h : Calm e a d) (e_dd : Lets e.dd := by first | assumption | exact ⟨rfl⟩) (e_jnl : Lets e.jnl := by first | assumption | exact ⟨rfl⟩) (e_u10 : Lets (e.unit 10) := by first | assumption | exact ⟨rfl⟩) (e_u14 : Lets (e.unit 14) := by first | assumption | exact ⟨rfl⟩) : Calm e a (Device.osmStartAt d p1) := by
  unfold Device.osmStartAt
  extract_lets x1 x2
  have hx1 : Calm e a x1 := by
    unfold x1
    refine Device.setf_calm ?_
    refine Device.setf_calm ?_
    refine Device.osmState_calm ?_
    refine Device.osmClear_calm ?_
    assumption
  clear_value x1
  have hx2 : Calm e a x2 := by
    unfold x2
    refine Device.osmLevel_calm ?_
    refine Device.raise_calm ?_
    refine Device.osmJournal_calm ?_
    assumption
  clear_value x2
  apply calm_foldl
  · intro v3
    intro v4
    intro v5
    refine Device.osmOffer_calm ?_
    assumption
  · assumption
theorem osmStartSample_calm {e : Eff} {a : Device} {d : Device} (h : Calm e a d) (e_dd : Lets e.dd := by first | assumption | exact ⟨rfl⟩) (e_jnl : Lets e.jnl := by first | assumption | exact ⟨rfl⟩) (e_u10 : Lets (e.unit 10) := by first | assumption | exact ⟨rfl⟩) (e_u14 : Lets (e.unit 14) := by first | assumption | exact ⟨rfl⟩) : Calm e a (osmStartSample d) := by
  unfold osmStartSample
  split
  · assumption
  · split
    · refine Device.osmStartAt_calm ?_
      assumption
    · assumption
theorem Device.osmSample_calm {e : Eff} {a : Device} {d : Device} {p1 : OscSample} (h : Calm e a d) (e_dd : Lets e.dd := by first | assumption | exact ⟨rfl⟩) (e_jnl : Lets e.jnl := by first | assumption | exact ⟨rfl⟩) (e_u8 : Lets (e.unit 8) := by first | assumption | exact ⟨rfl⟩) (e_u10 : Lets (e.unit 10) := by first | assumption | exact ⟨rfl⟩) (e_u12 : Lets (e.unit 12) := by first | assumption | exact ⟨rfl⟩) (e_u14 : Lets (e.unit 14) := by first | assumption | exact ⟨rfl⟩) (e_u16 : Lets (e.unit 16) := by first | assumption | exact ⟨rfl⟩) (e_u17 : Lets (e.unit 17) := by first | assumption | exact ⟨rfl⟩) (e_u20 : Lets (e.unit 20) := by first | assumption | exact ⟨rfl⟩) (e_u23 : Lets (e.unit 23) := by first | assumption | exact ⟨rfl⟩) (e_u24 : Lets (e.unit 24) := by first | assumption | exact ⟨rfl⟩) (e_u26 : Lets (e.unit 26) := by first | assumption | exact ⟨rfl⟩) : Calm e a (Device.osmSample d p1) := by
  unfold Device.osmSample
  extract_lets x1 x2 x3
  clear_value x1
  clear_value x2
  clear_value x3
  split
  · split
    · assumption
    · refine Device.osmLevel_calm ?_
      refine Device.putSample_calm ?_
      refine Device.setOsm_calm ?_
      assumption
  · split
    · refine Device.setOsm_calm ?_
      assumption
    · split
      · assumption
      · split
        · refine Device.osmStop_calm ?_
          assumption
        · refine Device.osmOperand_calm ?_
          refine Device.osmLevel_calm ?_
          refine Device.putSample_calm ?_
          refine Device.setOsm_calm ?_
          assumption
theorem Device.osmShapes_calm {e : Eff} {a : Device} {d : Device} {p1 : List (List Word)} (h : Calm e a d) (e_dd : Lets e.dd := by first | assumption | exact ⟨rfl⟩) (e_u14 : Lets (e.unit 14) := by first | assumption | exact ⟨rfl⟩) : Calm e a (Device.osmShapes d p1) := by
  unfold Device.osmShapes
  extract_lets x6000 x6001 x6002 x6003
  clear_value x6000
  clear_value x6001
  have hx6002 : Calm e a x6002 := by
    unfold x6002
    apply calm_foldl
    · intro v58
      intro v57
      intro w56
      refine Device.ddrWrite_calm ?_
      assumption
    · assumption
  clear_value x6002
  clear_value x6003
  refine Device.setf_calm ?_
  refine Device.setf_calm ?_
  refine Device.setOsm_calm ?_
  assumption
theorem Device.trackReport_calm {e : Eff} {a : Device} {d : Device} {p1 : List Track} {p2 : List Track} (h : Calm e a d) (e_u14 : Lets (e.unit 14) := by first | assumption | exact ⟨rfl⟩) : Calm e a (Device.trackReport d p1 p2) := by
  unfold Device.trackReport
  apply calm_foldl
  · intro v59
    intro v58
    intro w57
    extract_lets x5600 x5601 x5602
    split
    · refine Device.raise_calm ?_
      refine Device.count_calm ?_
      assumption
    · split
      · split
        · unfold x5602
          refine Device.raise_calm ?_
          refine Device.count_calm ?_
          assumption
        · refine Device.count_calm ?_
          assumption
      · split
        · refine Device.count_calm ?_
          assumption
        · assumption
  · assumption
theorem Device.osmExtraction_calm {e : Eff} {a : Device} {d : Device} {p1 : ℕ} (h : Calm e a d) (e_dd : Lets e.dd := by first | assumption | exact ⟨rfl⟩) (e_u14 : Lets (e.unit 14) := by first | assumption | exact ⟨rfl⟩) : Calm e a (Device.osmExtraction d p1).2 := by
  unfold Device.osmExtraction
  extract_lets x1 x2 x3 x4 x5 x6 x7 x8 x9 x10 x11 x12 x13 x14 x15
  clear_value x1
  clear_value x2
  clear_value x3
  clear_value x4
  clear_value x5
  have hx6 : Calm e a x6 := by
    unfold x6
    refine Device.count_calm ?_
    refine Device.setOsm_calm ?_
    assumption
  clear_value x6
  clear_value x7
  clear_value x8
  clear_value x9
  clear_value x10
  clear_value x11
  clear_value x12
  have hx13 : Calm e a x13 := by
    unfold x13
    split
    · assumption
    · refine Device.setOsm_calm ?_
      refine Device.countN_calm ?_
      refine Device.trackReport_calm ?_
      refine Device.trackReport_calm ?_
      assumption
  clear_value x13
  clear_value x14
  have hx15 : Calm e a x15 := by
    unfold x15
    refine Device.osmShapes_calm ?_
    refine Device.setOsm_calm ?_
    assumption
  clear_value x15
  dsimp only
  assumption
theorem Device.putSegs_calm {e : Eff} {a : Device} {d : Device} {p1 : ℕ} {p2 : ℕ} (h : Calm e a d) (e_dd : Lets e.dd := by first | assumption | exact ⟨rfl⟩) : Calm e a (Device.putSegs d p1 p2) := by
  unfold Device.putSegs
  extract_lets x1
  clear_value x1
  apply calm_foldl
  · intro v2
    intro v3
    intro v4
    apply calm_foldl
    · intro v5
      intro v6
      intro v7
      refine Device.osmPut_calm ?_
      assumption
    · assumption
  · assumption
theorem Device.foEvaluate_calm {e : Eff} {a : Device} {d : Device} {p1 : List Word} {p2 : ℕ} (h : Calm e a d) (e_dd : Lets e.dd := by first | assumption | exact ⟨rfl⟩) (e_u14 : Lets (e.unit 14) := by first | assumption | exact ⟨rfl⟩) : Calm e a (Device.foEvaluate d p1 p2) := by
  unfold Device.foEvaluate
  extract_lets x1 x2 x3 x4 x5 x6 x7 x8 x9
  clear_value x1
  clear_value x2
  clear_value x3
  clear_value x4
  clear_value x5
  clear_value x6
  clear_value x7
  clear_value x8
  clear_value x9
  refine Device.putSegs_calm ?_
  refine Device.setOsm_calm ?_
  assumption
theorem Device.foCommit_calm {e : Eff} {a : Device} {d : Device} (h : Calm e a d) (e_u14 : Lets (e.unit 14) := by first | assumption | exact ⟨rfl⟩) : Calm e a (Device.foCommit d).2 := by
  unfold Device.foCommit
  split
  · dsimp only
    assumption
  · extract_lets x5900 x5901 x5902 x5903 x5904 x5905 x5906 x5907 x5908 x5909 x5910 x5911
    clear_value x5900
    have hx5901 : Calm e a x5901 := by
      unfold x5901
      refine Device.count_calm ?_
      refine Device.setOsm_calm ?_
      assumption
    clear_value x5901
    clear_value x5902
    clear_value x5903
    clear_value x5904
    clear_value x5905
    clear_value x5906
    clear_value x5907
    have hx5909 : Calm e a x5909 := by
      unfold x5909
      apply calm_foldl
      · intro v57
        intro v56
        intro w55
        unfold x5908
        refine Device.raise_calm ?_
        refine Device.count_calm ?_
        assumption
      · apply calm_foldl
        · intro v56
          intro v55
          intro w54
          unfold x5908
          refine Device.raise_calm ?_
          assumption
        · assumption
    clear_value x5909
    clear_value x5910
    have hx5911 : Calm e a x5911 := by
      unfold x5911
      refine Device.setOsm_calm ?_
      refine Device.countN_calm ?_
      assumption
    clear_value x5911
    split
    · dsimp only
      refine Device.setOsm_calm ?_
      assumption
    · split
      · dsimp only
        assumption
      · dsimp only
        assumption
theorem Device.putBlocks_calm {e : Eff} {a : Device} {d : Device} {p1 : ℕ} {p2 : ℕ} {p3 : ℕ} {p4 : List (List Word)} (h : Calm e a d) (e_dd : Lets e.dd := by first | assumption | exact ⟨rfl⟩) : Calm e a (Device.putBlocks d p1 p2 p3 p4) := by
  unfold Device.putBlocks
  apply calm_foldl
  · intro v1
    intro v2
    intro v3
    apply calm_foldl
    · intro v4
      intro v5
      intro v6
      refine Device.osmPut_calm ?_
      assumption
    · assumption
  · assumption
theorem Device.putFactors_calm {e : Eff} {a : Device} {d : Device} (h : Calm e a d) (e_dd : Lets e.dd := by first | assumption | exact ⟨rfl⟩) : Calm e a (Device.putFactors d) := by
  unfold Device.putFactors
  extract_lets x1
  clear_value x1
  refine Device.putBlocks_calm ?_
  refine Device.putBlocks_calm ?_
  assumption
theorem Device.putCov_calm {e : Eff} {a : Device} {d : Device} (h : Calm e a d) (e_dd : Lets e.dd := by first | assumption | exact ⟨rfl⟩) : Calm e a (Device.putCov d) := by
  unfold Device.putCov
  refine Device.putBlocks_calm ?_
  assumption
theorem Device.osmRefresh_calm {e : Eff} {a : Device} {d : Device} {p1 : ℕ} (h : Calm e a d) (e_dd : Lets e.dd := by first | assumption | exact ⟨rfl⟩) (e_u14 : Lets (e.unit 14) := by first | assumption | exact ⟨rfl⟩) : Calm e a (Device.osmRefresh d p1) := by
  unfold Device.osmRefresh
  extract_lets x1 x2 x3 x4 x5 x6 x7 x8 x9 x10 x11 x12 x13 x14 x15
  clear_value x1
  clear_value x2
  clear_value x3
  clear_value x4
  clear_value x5
  clear_value x6
  clear_value x7
  clear_value x8
  clear_value x9
  clear_value x10
  have hx11 : Calm e a x11 := by
    unfold x11
    refine Device.count_calm ?_
    refine Device.setOsm_calm ?_
    assumption
  clear_value x11
  clear_value x12
  have hx13 : Calm e a x13 := by
    unfold x13
    refine Device.putSegs_calm ?_
    refine Device.putFactors_calm ?_
    refine Device.putCov_calm ?_
    refine Device.putW_calm ?_
    assumption
  clear_value x13
  clear_value x14
  have hx15 : Calm e a x15 := by
    unfold x15
    refine Device.setOsm_calm ?_
    assumption
  clear_value x15
  split
  · refine Device.raise_calm ?_
    split
    · refine Device.osmState_calm ?_
      assumption
    · assumption
  · assumption
theorem Device.osmPrune_calm {e : Eff} {a : Device} {d : Device} (h : Calm e a d) (e_u14 : Lets (e.unit 14) := by first | assumption | exact ⟨rfl⟩) : Calm e a (Device.osmPrune d) := by
  unfold Device.osmPrune
  extract_lets x6000 x6001 x6002 x6003
  clear_value x6000
  clear_value x6001
  clear_value x6003
  refine Device.osmLevel_calm ?_
  refine Device.setOsm_calm ?_
  assumption
theorem Device.osmAbsorb_calm {e : Eff} {a : Device} {d : Device} {p1 : ℕ} (h : Calm e a d) (e_dd : Lets e.dd := by first | assumption | exact ⟨rfl⟩) (e_u14 : Lets (e.unit 14) := by first | assumption | exact ⟨rfl⟩) : Calm e a (Device.osmAbsorb d p1).2 := by
  unfold Device.osmAbsorb
  extract_lets x1 x2 x3 x4 x5 x6 x7 x8 x9
  clear_value x1
  clear_value x2
  clear_value x3
  clear_value x4
  have hx5 : Calm e a x5 := by
    unfold x5
    refine Device.setf_calm ?_
    refine Device.setf_calm ?_
    refine Device.count_calm ?_
    refine Device.wr_calm ?_
    refine Device.setOsm_calm ?_
    assumption
  clear_value x5
  clear_value x6
  have hx7 : Calm e a x7.2 := by
    unfold x7
    refine Device.osmExtraction_calm ?_
    refine Device.putCov_calm ?_
    refine Device.setOsm_calm ?_
    assumption
  clear_value x7
  have hx8 : Calm e a x8.2 := by
    unfold x8
    split
    · dsimp only
      split
      · refine Device.count_calm ?_
        assumption
      · assumption
    · dsimp only
      assumption
  clear_value x8
  have hx9 : Calm e a x9 := by
    unfold x9
    split
    · extract_lets x10
      clear_value x10
      split
      · refine Device.foEvaluate_calm ?_
        assumption
      · assumption
    · assumption
  clear_value x9
  dsimp only
  split
  · refine Device.osmRefresh_calm ?_
    assumption
  · assumption
theorem Device.osmStopJ_calm {e : Eff} {a : Device} {d : Device} {p1 : ℕ} {p2 : ℕ} (h : Calm e a d) (e_dd : Lets e.dd := by first | assumption | exact ⟨rfl⟩) (e_jnl : Lets e.jnl := by first | assumption | exact ⟨rfl⟩) (e_u8 : Lets (e.unit 8) := by first | assumption | exact ⟨rfl⟩) (e_u10 : Lets (e.unit 10) := by first | assumption | exact ⟨rfl⟩) (e_u12 : Lets (e.unit 12) := by first | assumption | exact ⟨rfl⟩) (e_u14 : Lets (e.unit 14) := by first | assumption | exact ⟨rfl⟩) (e_u16 : Lets (e.unit 16) := by first | assumption | exact ⟨rfl⟩) (e_u17 : Lets (e.unit 17) := by first | assumption | exact ⟨rfl⟩) (e_u20 : Lets (e.unit 20) := by first | assumption | exact ⟨rfl⟩) (e_u23 : Lets (e.unit 23) := by first | assumption | exact ⟨rfl⟩) (e_u24 : Lets (e.unit 24) := by first | assumption | exact ⟨rfl⟩) (e_u26 : Lets (e.unit 26) := by first | assumption | exact ⟨rfl⟩) : Calm e a (Device.osmStopJ d p1 p2) := by
  unfold Device.osmStopJ
  split
  · refine Device.setOsm_calm ?_
    assumption
  · refine Device.osmStop_calm ?_
    assumption
theorem Device.osmAfter_calm {e : Eff} {a : Device} {d : Device} {p1 : ℕ} (h : Calm e a d) (e_dd : Lets e.dd := by first | assumption | exact ⟨rfl⟩) (e_jnl : Lets e.jnl := by first | assumption | exact ⟨rfl⟩) (e_u8 : Lets (e.unit 8) := by first | assumption | exact ⟨rfl⟩) (e_u10 : Lets (e.unit 10) := by first | assumption | exact ⟨rfl⟩) (e_u12 : Lets (e.unit 12) := by first | assumption | exact ⟨rfl⟩) (e_u14 : Lets (e.unit 14) := by first | assumption | exact ⟨rfl⟩) (e_u16 : Lets (e.unit 16) := by first | assumption | exact ⟨rfl⟩) (e_u17 : Lets (e.unit 17) := by first | assumption | exact ⟨rfl⟩) (e_u20 : Lets (e.unit 20) := by first | assumption | exact ⟨rfl⟩) (e_u23 : Lets (e.unit 23) := by first | assumption | exact ⟨rfl⟩) (e_u24 : Lets (e.unit 24) := by first | assumption | exact ⟨rfl⟩) (e_u26 : Lets (e.unit 26) := by first | assumption | exact ⟨rfl⟩) : Calm e a (Device.osmAfter d p1) := by
  unfold Device.osmAfter
  extract_lets x1 x2 x3 x4 x5 x6
  clear_value x1
  clear_value x2
  clear_value x3
  have hx4 : Calm e a x4 := by
    unfold x4
    refine Device.osmState__calm ?_
    assumption
  clear_value x4
  have hx5 : Calm e a x5 := by
    unfold x5
    split
    · refine Device.outOperand_calm ?_
      assumption
    · assumption
  clear_value x5
  have hx6 : Calm e a x6 := by
    unfold x6
    split
    · split
      · refine Device.operand_calm ?_
        assumption
      · assumption
    · assumption
  clear_value x6
  split
  · refine Device.osmStopped_calm ?_
    assumption
  · split
    · refine Device.osmStopped_calm ?_
      refine Device.setOsm_calm ?_
      assumption
    · refine Device.osmPrune_calm ?_
      assumption
theorem Device.defCommit_calm {e : Eff} {a : Device} {d : Device} {p1 : ℕ} {p2 : ℕ} (h : Calm e a d) (e_u14 : Lets (e.unit 14) := by first | assumption | exact ⟨rfl⟩) : Calm e a (Device.defCommit d p1 p2).2 := by
  unfold Device.defCommit
  extract_lets x6000 x6001 x6002 x6003 x6004 x6005 x6006 x6007
  clear_value x6000
  clear_value x6001
  clear_value x6002
  clear_value x6003
  clear_value x6004
  clear_value x6005
  have hx6006 : Calm e a x6006 := by
    unfold x6006
    refine Device.setOsm_calm ?_
    assumption
  clear_value x6006
  clear_value x6007
  split
  · split
    · dsimp only
      refine Device.count_calm ?_
      assumption
    · dsimp only
      assumption
  · split
    · dsimp only
      refine Device.count_calm ?_
      assumption
    · dsimp only
      assumption
/-! Island. -/
theorem Device.islShow_calm {e : Eff} {a : Device} {d : Device} (h : Calm e a d) (e_u15 : Lets (e.unit 15) := by first | assumption | exact ⟨rfl⟩) : Calm e a (Device.islShow d) := by
  unfold Device.islShow
  refine Device.setf_calm ?_
  refine Device.setf_calm ?_
  refine Device.setf_calm ?_
  refine Device.setf_calm ?_
  assumption
theorem Device.graphLoad_calm {e : Eff} {a : Device} {d : Device} {p1 : List Word} (h : Calm e a d) (e_u15 : Lets (e.unit 15) := by first | assumption | exact ⟨rfl⟩) : Calm e a (Device.graphLoad d p1).2 := by
  unfold Device.graphLoad
  extract_lets x6000 x6001 x6002 x6003
  clear_value x6000
  clear_value x6001
  clear_value x6002
  clear_value x6003
  dsimp only
  refine Device.islShow_calm ?_
  refine Device.setIsl_calm ?_
  assumption
theorem Device.swapRefuse_calm {e : Eff} {a : Device} {d : Device} {p1 : ℕ} (h : Calm e a d) (e_u15 : Lets (e.unit 15) := by first | assumption | exact ⟨rfl⟩) : Calm e a (Device.swapRefuse d p1) := by
  unfold Device.swapRefuse
  extract_lets x6000 x6001
  clear_value x6000
  clear_value x6001
  refine Device.raise_calm ?_
  refine Device.err_calm ?_
  refine Device.setf_calm ?_
  refine Device.setIsl_calm ?_
  assumption
theorem Device.swapBad_calm {e : Eff} {a : Device} {d : Device} {p1 : ℕ × Option (Bool × ℕ)} (h : Calm e a d) (e_u15 : Lets (e.unit 15) := by first | assumption | exact ⟨rfl⟩) : Calm e a (Device.swapBad d p1) := by
  unfold Device.swapBad
  extract_lets x6000
  have hx6000 : Calm e a x6000 := by
    unfold x6000
    split
    · refine Device.setf_calm ?_
      refine Device.setf_calm ?_
      assumption
    · assumption
  clear_value x6000
  refine Device.swapRefuse_calm ?_
  assumption
theorem islSwapRequest_calm {e : Eff} {a : Device} {d : Device} (h : Calm e a d) (e_u15 : Lets (e.unit 15) := by first | assumption | exact ⟨rfl⟩) : Calm e a (islSwapRequest d) := by
  unfold islSwapRequest
  split
  · assumption
  · extract_lets x5900 x5901 x5902
    have hx5900 : Calm e a x5900 := by
      unfold x5900
      refine Device.setf_calm ?_
      assumption
    clear_value x5900
    clear_value x5901
    clear_value x5902
    split
    · refine Device.swapBad_calm ?_
      assumption
    · refine Device.setIsl_calm ?_
      assumption
theorem Device.swapApply_calm {e : Eff} {a : Device} {d : Device} {p1 : ℕ} (h : Calm e a d) (e_dd : Lets e.dd := by first | assumption | exact ⟨rfl⟩) (e_jnl : Lets e.jnl := by first | assumption | exact ⟨rfl⟩) (e_u15 : Lets (e.unit 15) := by first | assumption | exact ⟨rfl⟩) : Calm e a (Device.swapApply d p1) := by
  unfold Device.swapApply
  extract_lets x6000 x6001 x6002 x6003 x6004
  clear_value x6000
  clear_value x6001
  clear_value x6002
  have hx6003 : Calm e a x6003 := by
    unfold x6003
    refine Device.setIsl_calm ?_
    assumption
  clear_value x6003
  have hx6004 : Calm e a x6004 := by
    unfold x6004
    refine Device.raise_calm ?_
    refine Device.count_calm ?_
    refine Device.wr_calm ?_
    refine Device.islShow_calm ?_
    refine Device.setf_calm ?_
    assumption
  clear_value x6004
  split
  · refine Device.journalW_calm ?_
    assumption
  · assumption
theorem Device.swapAtRun_calm {e : Eff} {a : Device} {d : Device} {p1 : ℕ} {p2 : ℕ} (h : Calm e a d) (e_dd : Lets e.dd := by first | assumption | exact ⟨rfl⟩) (e_jnl : Lets e.jnl := by first | assumption | exact ⟨rfl⟩) (e_u15 : Lets (e.unit 15) := by first | assumption | exact ⟨rfl⟩) : Calm e a (Device.swapAtRun d p1 p2) := by
  unfold Device.swapAtRun
  split
  · assumption
  · split
    · split
      · extract_lets x5700
        clear_value x5700
        split
        · refine Device.swapBad_calm ?_
          assumption
        · refine Device.swapApply_calm ?_
          assumption
      · assumption
    · split
      · refine Device.swapApply_calm ?_
        assumption
      · assumption
    · assumption
theorem Device.islinCommit_calm {e : Eff} {a : Device} {d : Device} {p1 : ℕ} {p2 : ℕ} {p3 : Gathered} (h : Calm e a d) (e_u15 : Lets (e.unit 15) := by first | assumption | exact ⟨rfl⟩) : Calm e a (Device.islinCommit d p1 p2 p3) := by
  unfold Device.islinCommit
  extract_lets x6000 x6001 x6002 x6003 x6004 x6005
  clear_value x6000
  clear_value x6001
  clear_value x6002
  clear_value x6003
  clear_value x6004
  clear_value x6005
  refine Device.count_calm ?_
  refine Device.setIsl_calm ?_
  assumption
theorem Device.islReport_calm {e : Eff} {a : Device} {d : Device} {p1 : ℕ} {p2 : Bool} {p3 : IslRun} (h : Calm e a d) (e_u15 : Lets (e.unit 15) := by first | assumption | exact ⟨rfl⟩) : Calm e a (Device.islReport d p1 p2 p3) := by
  unfold Device.islReport
  extract_lets x6000 x6001 x6002 x6003 x6004 x6005 x6006 x6007 x6008 x6009 x6010 x6011 x6012
  clear_value x6000
  have hx6001 : Calm e a x6001 := by
    unfold x6001
    refine Device.setf_calm ?_
    refine Device.setf_calm ?_
    refine Device.setf_calm ?_
    assumption
  clear_value x6001
  have hx6002 : Calm e a x6002 := by
    unfold x6002
    split
    · refine Device.count_calm ?_
      assumption
    · assumption
  clear_value x6002
  have hx6003 : Calm e a x6003 := by
    unfold x6003
    split
    · refine Device.count_calm ?_
      assumption
    · assumption
  clear_value x6003
  have hx6004 : Calm e a x6004 := by
    unfold x6004
    split
    · refine Device.count_calm ?_
      assumption
    · assumption
  clear_value x6004
  have hx6005 : Calm e a x6005 := by
    unfold x6005
    split
    · refine Device.count_calm ?_
      assumption
    · assumption
  clear_value x6005
  have hx6006 : Calm e a x6006 := by
    unfold x6006
    refine Device.countN_calm ?_
    refine Device.countN_calm ?_
    refine Device.countN_calm ?_
    refine Device.countN_calm ?_
    assumption
  clear_value x6006
  have hx6007 : Calm e a x6007 := by
    unfold x6007
    split
    · refine Device.raise_calm ?_
      assumption
    · assumption
  clear_value x6007
  have hx6008 : Calm e a x6008 := by
    unfold x6008
    refine Device.raiseSec_calm ?_
    assumption
  clear_value x6008
  clear_value x6009
  have hx6010 : Calm e a x6010 := by
    unfold x6010
    split
    · refine Device.setIsl_calm ?_
      assumption
    · assumption
  clear_value x6010
  have hx6011 : Calm e a x6011 := by
    unfold x6011
    refine Device.raiseSec_calm ?_
    assumption
  clear_value x6011
  clear_value x6012
  split
  · refine Device.setIsl_calm ?_
    assumption
  · assumption
theorem Device.mapWrite_calm {e : Eff} {a : Device} {d : Device} {p1 : ℕ} {p2 : List Byte} (h : Calm e a d) (e_dd : Lets e.dd := by first | assumption | exact ⟨rfl⟩) (e_u15 : Lets (e.unit 15) := by first | assumption | exact ⟨rfl⟩) : Calm e a (Device.mapWrite d p1 p2) := by
  unfold Device.mapWrite
  split
  · assumption
  · extract_lets x1 x2 x3 x4
    clear_value x1
    clear_value x2
    clear_value x3
    have hx4 : Calm e a x4 := by
      unfold x4
      refine Device.ddrWrite_calm ?_
      refine Device.setIsl_calm ?_
      assumption
    clear_value x4
    refine Device.wr_calm ?_
    refine Device.setf_calm ?_
    refine Device.setf_calm ?_
    assumption
theorem Device.isldetCommit_calm {e : Eff} {a : Device} {d : Device} {p1 : ℕ} {p2 : ℕ} {p3 : Bool} {p4 : Gathered} {p5 : Option KState} (h : Calm e a d) (e_dd : Lets e.dd := by first | assumption | exact ⟨rfl⟩) (e_jnl : Lets e.jnl := by first | assumption | exact ⟨rfl⟩) (e_u15 : Lets (e.unit 15) := by first | assumption | exact ⟨rfl⟩) : Calm e a (Device.isldetCommit d p1 p2 p3 p4 p5).2 := by
  unfold Device.isldetCommit
  extract_lets x1 x2 x3 x4 x5 x6 x7 x8 x9
  clear_value x1
  clear_value x2
  clear_value x3
  clear_value x4
  have hx5 : Calm e a x5 := by
    unfold x5
    refine Device.count_calm ?_
    split
    · refine Device.swapAtRun_calm ?_
      assumption
    · assumption
  clear_value x5
  clear_value x6
  clear_value x7
  clear_value x8
  clear_value x9
  split
  · dsimp only
    refine Device.count_calm ?_
    refine Device.countN_calm ?_
    assumption
  · extract_lets x10 x11 x12 x13 x14
    clear_value x10
    clear_value x11
    clear_value x12
    clear_value x13
    clear_value x14
    dsimp only
    refine Device.mapWrite_calm ?_
    refine Device.islReport_calm ?_
    refine Device.countN_calm ?_
    assumption
/-! Engine. -/
theorem Device.markOver_calm {e : Eff} {a : Device} {d : Device} {p1 : ℕ} {p2 : List Task} (h : Calm e a d) (e_u10 : Lets (e.unit 10) := by first | assumption | exact ⟨rfl⟩) : Calm e a (Device.markOver d p1 p2) := by
  unfold Device.markOver
  extract_lets x6000 x6001 x6002
  clear_value x6001
  clear_value x6002
  refine Device.countN_calm ?_
  refine Device.setSrt_calm ?_
  assumption
theorem Device.putOn_calm {e : Eff} {a : Device} {d : Device} {p1 : ℕ} {p2 : Task} {p3 : ℕ} {p4 : ℕ} (h : Calm e a d) (e_dd : Lets e.dd := by first | assumption | exact ⟨rfl⟩) (e_jnl : Lets e.jnl := by first | assumption | exact ⟨rfl⟩) (e_u8 : Lets (e.unit 8) := by first | assumption | exact ⟨rfl⟩) (e_u10 : Lets (e.unit 10) := by first | assumption | exact ⟨rfl⟩) (e_u12 : Lets (e.unit 12) := by first | assumption | exact ⟨rfl⟩) (e_u16 : Lets (e.unit 16) := by first | assumption | exact ⟨rfl⟩) (e_u17 : Lets (e.unit 17) := by first | assumption | exact ⟨rfl⟩) (e_u20 : Lets (e.unit 20) := by first | assumption | exact ⟨rfl⟩) (e_u23 : Lets (e.unit 23) := by first | assumption | exact ⟨rfl⟩) (e_u24 : Lets (e.unit 24) := by first | assumption | exact ⟨rfl⟩) (e_u26 : Lets (e.unit 26) := by first | assumption | exact ⟨rfl⟩) : Calm e a (Device.putOn d p1 p2 p3 p4) := by
  unfold Device.putOn
  extract_lets x1 x2 x3 x4 x5 x6 x7 x8 x9
  have hx1 : Calm e a x1 := by
    unfold x1
    refine Device.dropEntry_calm ?_
    assumption
  clear_value x1
  have hx2 : Calm e a x2 := by
    unfold x2
    refine Device.storeShow_calm ?_
    refine Device.setQueue_calm ?_
    assumption
  clear_value x2
  have hx3 : Calm e a x3 := by
    unfold x3
    refine Device.count_calm ?_
    refine queueFill_calm ?_
    assumption
  clear_value x3
  have hx4 : Calm e a x4 := by
    unfold x4
    split
    · refine Device.count_calm ?_
      assumption
    · assumption
  clear_value x4
  have hx5 : Calm e a x5 := by
    unfold x5
    split
    · split
      · refine Device.count_calm ?_
        assumption
      · assumption
    · assumption
  clear_value x5
  clear_value x6
  have hx7 : Calm e a x7 := by
    unfold x7
    refine Device.raiseSec_calm ?_
    assumption
  clear_value x7
  clear_value x8
  have hx9 : Calm e a x9 := by
    unfold x9
    split
    · refine Device.setSrt_calm ?_
      assumption
    · assumption
  clear_value x9
  refine Device.reoffer_calm ?_
  refine Device.setFlight_calm ?_
  assumption
theorem placeLevels_calm {e : Eff} {a : Device} {p0 : ℕ} {d : Device} (h : Calm e a d) (e_dd : Lets e.dd := by first | assumption | exact ⟨rfl⟩) (e_jnl : Lets e.jnl := by first | assumption | exact ⟨rfl⟩) (e_u8 : Lets (e.unit 8) := by first | assumption | exact ⟨rfl⟩) (e_u10 : Lets (e.unit 10) := by first | assumption | exact ⟨rfl⟩) (e_u12 : Lets (e.unit 12) := by first | assumption | exact ⟨rfl⟩) (e_u16 : Lets (e.unit 16) := by first | assumption | exact ⟨rfl⟩) (e_u17 : Lets (e.unit 17) := by first | assumption | exact ⟨rfl⟩) (e_u20 : Lets (e.unit 20) := by first | assumption | exact ⟨rfl⟩) (e_u23 : Lets (e.unit 23) := by first | assumption | exact ⟨rfl⟩) (e_u24 : Lets (e.unit 24) := by first | assumption | exact ⟨rfl⟩) (e_u26 : Lets (e.unit 26) := by first | assumption | exact ⟨rfl⟩) : Calm e a (placeLevels p0 d) := by
  induction p0 generalizing d
  · unfold placeLevels
    assumption
  · rename_i n ih
    unfold placeLevels
    extract_lets x1
    clear_value x1
    split
    · apply ih
      refine Device.markOver_calm ?_
      assumption
    · extract_lets x2
      have hx2 : Calm e a x2 := by
        unfold x2
        refine Device.markOver_calm ?_
        assumption
      clear_value x2
      split
      · assumption
      · split
        · refine Device.putOn_calm ?_
          assumption
        · assumption
theorem taskPlace_calm {e : Eff} {a : Device} {d : Device} (h : Calm e a d) (e_dd : Lets e.dd := by first | assumption | exact ⟨rfl⟩) (e_jnl : Lets e.jnl := by first | assumption | exact ⟨rfl⟩) (e_u8 : Lets (e.unit 8) := by first | assumption | exact ⟨rfl⟩) (e_u10 : Lets (e.unit 10) := by first | assumption | exact ⟨rfl⟩) (e_u12 : Lets (e.unit 12) := by first | assumption | exact ⟨rfl⟩) (e_u16 : Lets (e.unit 16) := by first | assumption | exact ⟨rfl⟩) (e_u17 : Lets (e.unit 17) := by first | assumption | exact ⟨rfl⟩) (e_u20 : Lets (e.unit 20) := by first | assumption | exact ⟨rfl⟩) (e_u23 : Lets (e.unit 23) := by first | assumption | exact ⟨rfl⟩) (e_u24 : Lets (e.unit 24) := by first | assumption | exact ⟨rfl⟩) (e_u26 : Lets (e.unit 26) := by first | assumption | exact ⟨rfl⟩) : Calm e a (taskPlace d) := by
  unfold taskPlace
  split
  · refine placeLevels_calm ?_
    assumption
  · assumption
theorem Device.gatherLanes_calm {e : Eff} {a : Device} {d : Device} {p1 : ℕ} {p2 : ℕ} {p3 : List ℕ} {p4 : List (ℕ × ℕ × ℕ)} (h : Calm e a d) (e_u10 : Lets (e.unit 10) := by first | assumption | exact ⟨rfl⟩) (e_u26 : Lets (e.unit 26) := by first | assumption | exact ⟨rfl⟩) : Calm e a (Device.gatherLanes d p1 p2 p3 p4).2 := by
  unfold Device.gatherLanes
  apply calm_foldl2
  · intro v1
    intro v2
    intro v3
    extract_lets x4 x5
    clear_value x4
    have hx5 : Calm e a x5 := by
      unfold x5
      refine Device.gsTouch_calm ?_
      assumption
    clear_value x5
    split
    · dsimp only
      assumption
    · split
      · dsimp only
        split
        · refine Device.memUe_calm ?_
          assumption
        · assumption
      · split
        · dsimp only
          assumption
        · dsimp only
          assumption
  · dsimp only
    assumption
theorem Device.putTask_calm {e : Eff} {a : Device} {d : Device} {p1 : Task} (h : Calm e a d) (e_u10 : Lets (e.unit 10) := by first | assumption | exact ⟨rfl⟩) : Calm e a (Device.putTask d p1) := by
  unfold Device.putTask
  refine Device.setSrt_calm ?_
  assumption
theorem Device.dropTask_calm {e : Eff} {a : Device} {d : Device} {p1 : Task} (h : Calm e a d) (e_u10 : Lets (e.unit 10) := by first | assumption | exact ⟨rfl⟩) : Calm e a (Device.dropTask d p1) := by
  unfold Device.dropTask
  refine Device.setFlight_calm ?_
  refine Device.setSrt_calm ?_
  assumption
theorem Device.gatherCheck_calm {e : Eff} {a : Device} {d : Device} {p1 : Task} (h : Calm e a d) (e_dd : Lets e.dd := by first | assumption | exact ⟨rfl⟩) (e_jnl : Lets e.jnl := by first | assumption | exact ⟨rfl⟩) (e_u8 : Lets (e.unit 8) := by first | assumption | exact ⟨rfl⟩) (e_u10 : Lets (e.unit 10) := by first | assumption | exact ⟨rfl⟩) (e_u12 : Lets (e.unit 12) := by first | assumption | exact ⟨rfl⟩) (e_u16 : Lets (e.unit 16) := by first | assumption | exact ⟨rfl⟩) (e_u17 : Lets (e.unit 17) := by first | assumption | exact ⟨rfl⟩) (e_u21 : Lets (e.unit 21) := by first | assumption | exact ⟨rfl⟩) (e_u23 : Lets (e.unit 23) := by first | assumption | exact ⟨rfl⟩) (e_u24 : Lets (e.unit 24) := by first | assumption | exact ⟨rfl⟩) (e_u26 : Lets (e.unit 26) := by first | assumption | exact ⟨rfl⟩) : Calm e a (Device.gatherCheck d p1) := by
  unfold Device.gatherCheck
  split
  · assumption
  · split
    · refine Device.combGathered_calm ?_
      assumption
    · split
      · split
        · split
          · refine Device.lapNext_calm ?_
            refine Device.setLap_calm ?_
            assumption
          · assumption
        · assumption
      · assumption
theorem Device.sendPart_calm {e : Eff} {a : Device} {d : Device} {p1 : Task} {p2 : PartOut} (h : Calm e a d) (e_dd : Lets e.dd := by first | assumption | exact ⟨rfl⟩) (e_jnl : Lets e.jnl := by first | assumption | exact ⟨rfl⟩) (e_u10 : Lets (e.unit 10) := by first | assumption | exact ⟨rfl⟩) (e_u17 : Lets (e.unit 17) := by first | assumption | exact ⟨rfl⟩) (e_u21 : Lets (e.unit 21) := by first | assumption | exact ⟨rfl⟩) (e_u24 : Lets (e.unit 24) := by first | assumption | exact ⟨rfl⟩) : Calm e a (Device.sendPart d p1 p2) := by
  unfold Device.sendPart
  refine Device.partSend_calm ?_
  assumption
theorem Device.commitBlock_calm {e : Eff} {a : Device} {d : Device} {p1 : Task} {p2 : Ran} (h : Calm e a d) (e_dd : Lets e.dd := by first | assumption | exact ⟨rfl⟩) (e_jnl : Lets e.jnl := by first | assumption | exact ⟨rfl⟩) (e_u12 : Lets (e.unit 12) := by first | assumption | exact ⟨rfl⟩) (e_u16 : Lets (e.unit 16) := by first | assumption | exact ⟨rfl⟩) (e_u17 : Lets (e.unit 17) := by first | assumption | exact ⟨rfl⟩) (e_u23 : Lets (e.unit 23) := by first | assumption | exact ⟨rfl⟩) (e_u24 : Lets (e.unit 24) := by first | assumption | exact ⟨rfl⟩) : Calm e a (Device.commitBlock d p1 p2) := by
  unfold Device.commitBlock
  split
  · assumption
  · extract_lets x5900
    clear_value x5900
    refine Device.publish_calm ?_
    refine Device.countN_calm ?_
    refine Device.count_calm ?_
    assumption
theorem Device.passState_calm {e : Eff} {a : Device} {d : Device} {p1 : Task} {p2 : Ran} (h : Calm e a d) (e_u10 : Lets (e.unit 10) := by first | assumption | exact ⟨rfl⟩) (e_u12 : Lets (e.unit 12) := by first | assumption | exact ⟨rfl⟩) : Calm e a (Device.passState d p1 p2) := by
  unfold Device.passState
  extract_lets x6000 x6001
  clear_value x6000
  clear_value x6001
  split
  · split
    · refine Device.stateArrive_calm ?_
      assumption
    · assumption
  · assumption
theorem Device.reissueWaiting_calm {e : Eff} {a : Device} {d : Device} {p1 : ℕ} {p2 : ℕ} (h : Calm e a d) (e_dd : Lets e.dd := by first | assumption | exact ⟨rfl⟩) (e_jnl : Lets e.jnl := by first | assumption | exact ⟨rfl⟩) (e_u12 : Lets (e.unit 12) := by first | assumption | exact ⟨rfl⟩) (e_u16 : Lets (e.unit 16) := by first | assumption | exact ⟨rfl⟩) (e_u17 : Lets (e.unit 17) := by first | assumption | exact ⟨rfl⟩) (e_u23 : Lets (e.unit 23) := by first | assumption | exact ⟨rfl⟩) (e_u24 : Lets (e.unit 24) := by first | assumption | exact ⟨rfl⟩) : Calm e a (Device.reissueWaiting d p1 p2) := by
  unfold Device.reissueWaiting
  extract_lets x6000 x6001 x6002 x6003
  clear_value x6001
  have hx6002 : Calm e a x6002 := by
    unfold x6002
    refine Device.reissueNow_calm ?_
    refine Device.setPac_calm ?_
    assumption
  clear_value x6002
  clear_value x6003
  split
  · assumption
  · split
    · assumption
    · split
      · assumption
      · refine Device.setPac_calm ?_
        assumption
theorem Device.runOscdec_calm {e : Eff} {a d : Device} {t : Task} (h : Calm e a d) (e_dd : Lets e.dd := by first | assumption | exact ⟨rfl⟩) (e_jnl : Lets e.jnl := by first | assumption | exact ⟨rfl⟩) (e_u6 : Lets (e.unit 6) := by first | assumption | exact ⟨rfl⟩) (e_u8 : Lets (e.unit 8) := by first | assumption | exact ⟨rfl⟩) (e_u10 : Lets (e.unit 10) := by first | assumption | exact ⟨rfl⟩) (e_u12 : Lets (e.unit 12) := by first | assumption | exact ⟨rfl⟩) (e_u14 : Lets (e.unit 14) := by first | assumption | exact ⟨rfl⟩) (e_u15 : Lets (e.unit 15) := by first | assumption | exact ⟨rfl⟩) (e_u16 : Lets (e.unit 16) := by first | assumption | exact ⟨rfl⟩) (e_u17 : Lets (e.unit 17) := by first | assumption | exact ⟨rfl⟩) (e_u20 : Lets (e.unit 20) := by first | assumption | exact ⟨rfl⟩) (e_u21 : Lets (e.unit 21) := by first | assumption | exact ⟨rfl⟩) (e_u23 : Lets (e.unit 23) := by first | assumption | exact ⟨rfl⟩) (e_u24 : Lets (e.unit 24) := by first | assumption | exact ⟨rfl⟩) (e_u26 : Lets (e.unit 26) := by first | assumption | exact ⟨rfl⟩) :
    Calm e a (d.runOscdec t).dev ∧ ∀ x, Calm e a x → Calm e a ((d.runOscdec t).after x) := by
  unfold Device.runOscdec
  extract_lets i ie n r d1
  refine ⟨?_, fun x hx => ?_⟩
  · show Calm e a d1
    unfold d1
    split
    · exact h
    · exact Device.setOsm_calm (Device.raiseSec_calm (Device.countN_calm h))
  · exact calm_foldl _ _ (fun y b hy => Device.osmSample_calm hy) hx
theorem Device.runOsm_calm {e : Eff} {a d : Device} {t : Task} (h : Calm e a d) (e_dd : Lets e.dd := by first | assumption | exact ⟨rfl⟩) (e_jnl : Lets e.jnl := by first | assumption | exact ⟨rfl⟩) (e_u6 : Lets (e.unit 6) := by first | assumption | exact ⟨rfl⟩) (e_u8 : Lets (e.unit 8) := by first | assumption | exact ⟨rfl⟩) (e_u10 : Lets (e.unit 10) := by first | assumption | exact ⟨rfl⟩) (e_u12 : Lets (e.unit 12) := by first | assumption | exact ⟨rfl⟩) (e_u14 : Lets (e.unit 14) := by first | assumption | exact ⟨rfl⟩) (e_u15 : Lets (e.unit 15) := by first | assumption | exact ⟨rfl⟩) (e_u16 : Lets (e.unit 16) := by first | assumption | exact ⟨rfl⟩) (e_u17 : Lets (e.unit 17) := by first | assumption | exact ⟨rfl⟩) (e_u20 : Lets (e.unit 20) := by first | assumption | exact ⟨rfl⟩) (e_u21 : Lets (e.unit 21) := by first | assumption | exact ⟨rfl⟩) (e_u23 : Lets (e.unit 23) := by first | assumption | exact ⟨rfl⟩) (e_u24 : Lets (e.unit 24) := by first | assumption | exact ⟨rfl⟩) (e_u26 : Lets (e.unit 26) := by first | assumption | exact ⟨rfl⟩) :
    Calm e a (d.runOsm t).dev ∧ ∀ x, Calm e a x → Calm e a ((d.runOsm t).after x) := by
  unfold Device.runOsm
  extract_lets i c k g r v r2 r3
  split
  · exact ⟨Device.osmAbsorb_calm h, fun x hx => Device.osmAfter_calm hx⟩
  · split
    · exact ⟨Device.foCommit_calm h, fun x hx => Device.osmPrune_calm (Device.outOperand_calm hx)⟩
    · exact ⟨Device.defCommit_calm h, fun x hx => Device.osmPrune_calm (Device.osmState__calm hx)⟩
theorem Device.runPmu_calm {e : Eff} {a d : Device} {t : Task} (h : Calm e a d) (e_dd : Lets e.dd := by first | assumption | exact ⟨rfl⟩) (e_jnl : Lets e.jnl := by first | assumption | exact ⟨rfl⟩) (e_u6 : Lets (e.unit 6) := by first | assumption | exact ⟨rfl⟩) (e_u8 : Lets (e.unit 8) := by first | assumption | exact ⟨rfl⟩) (e_u10 : Lets (e.unit 10) := by first | assumption | exact ⟨rfl⟩) (e_u12 : Lets (e.unit 12) := by first | assumption | exact ⟨rfl⟩) (e_u14 : Lets (e.unit 14) := by first | assumption | exact ⟨rfl⟩) (e_u15 : Lets (e.unit 15) := by first | assumption | exact ⟨rfl⟩) (e_u16 : Lets (e.unit 16) := by first | assumption | exact ⟨rfl⟩) (e_u17 : Lets (e.unit 17) := by first | assumption | exact ⟨rfl⟩) (e_u20 : Lets (e.unit 20) := by first | assumption | exact ⟨rfl⟩) (e_u21 : Lets (e.unit 21) := by first | assumption | exact ⟨rfl⟩) (e_u23 : Lets (e.unit 23) := by first | assumption | exact ⟨rfl⟩) (e_u24 : Lets (e.unit 24) := by first | assumption | exact ⟨rfl⟩) (e_u26 : Lets (e.unit 26) := by first | assumption | exact ⟨rfl⟩) :
    Calm e a (d.runPmu t).dev ∧ ∀ x, Calm e a x → Calm e a ((d.runPmu t).after x) := by
  unfold Device.runPmu
  extract_lets i ie n vp r unset d1 d2
  have h1 : Calm e a d1 := Device.count_calm h
  have h2 : Calm e a d2 := by
    unfold d2
    split
    · exact h1
    · exact Device.count_calm h1
  split
  · exact ⟨h, fun x hx => hx⟩
  · refine ⟨?_, fun y hy => Device.deliver_calm hy⟩
    show Calm e a (if r.gaps = 0 then d2 else _)
    split
    · exact h2
    · exact Device.setPac_calm (Device.raiseSec_calm h2)
theorem Device.runSso_calm {e : Eff} {a d : Device} {t : Task} (h : Calm e a d) (e_u14 : Lets (e.unit 14) := by first | assumption | exact ⟨rfl⟩) :
    Calm e a (d.runSso t).dev ∧ ∀ x, Calm e a x → Calm e a ((d.runSso t).after x) := by
  unfold Device.runSso
  extract_lets i ie n p r d1 d2
  refine ⟨?_, fun x hx => hx⟩
  show Calm e a d2
  unfold d2
  split
  · exact Device.count_calm h
  · exact Device.setOsm_calm (Device.raiseSec_calm (Device.countN_calm (Device.count_calm h)))
theorem Device.runIsldet_calm {e : Eff} {a d : Device} {t : Task} (h : Calm e a d) (e_dd : Lets e.dd := by first | assumption | exact ⟨rfl⟩) (e_jnl : Lets e.jnl := by first | assumption | exact ⟨rfl⟩) (e_u6 : Lets (e.unit 6) := by first | assumption | exact ⟨rfl⟩) (e_u8 : Lets (e.unit 8) := by first | assumption | exact ⟨rfl⟩) (e_u10 : Lets (e.unit 10) := by first | assumption | exact ⟨rfl⟩) (e_u12 : Lets (e.unit 12) := by first | assumption | exact ⟨rfl⟩) (e_u14 : Lets (e.unit 14) := by first | assumption | exact ⟨rfl⟩) (e_u15 : Lets (e.unit 15) := by first | assumption | exact ⟨rfl⟩) (e_u16 : Lets (e.unit 16) := by first | assumption | exact ⟨rfl⟩) (e_u17 : Lets (e.unit 17) := by first | assumption | exact ⟨rfl⟩) (e_u20 : Lets (e.unit 20) := by first | assumption | exact ⟨rfl⟩) (e_u21 : Lets (e.unit 21) := by first | assumption | exact ⟨rfl⟩) (e_u23 : Lets (e.unit 23) := by first | assumption | exact ⟨rfl⟩) (e_u24 : Lets (e.unit 24) := by first | assumption | exact ⟨rfl⟩) (e_u26 : Lets (e.unit 26) := by first | assumption | exact ⟨rfl⟩) :
    Calm e a (d.runIsldet t).dev ∧ ∀ x, Calm e a x → Calm e a ((d.runIsldet t).after x) := by
  unfold Device.runIsldet
  extract_lets i r
  split
  · refine ⟨?_, fun x hx => hx⟩
    dsimp only
    split
    · exact Device.swapAtRun_calm h
    · exact h
  · refine ⟨Device.isldetCommit_calm h, fun x hx => ?_⟩
    dsimp only
    split
    · exact Device.sendPart_calm hx
    · exact hx
theorem Device.runCombine_calm {e : Eff} {a d : Device} {t : Task} (h : Calm e a d) (e_u21 : Lets (e.unit 21) := by first | assumption | exact ⟨rfl⟩) :
    Calm e a (d.runCombine t).dev ∧ ∀ x, Calm e a x → Calm e a ((d.runCombine t).after x) := by
  unfold Device.runCombine
  extract_lets i ie p h1 ps m es v
  split
  · exact ⟨h, fun x hx => hx⟩
  · exact ⟨Device.countN_calm h, fun x hx => hx⟩
theorem Device.contribute_calm {e : Eff} {a : Device} {d : Device} {p1 : ℕ} {p2 : ℕ} (h : Calm e a d) (e_u10 : Lets (e.unit 10) := by first | assumption | exact ⟨rfl⟩) : Calm e a (Device.contribute d p1 p2) := by
  unfold Device.contribute
  apply calm_foldl
  · intro v1
    intro v2
    intro v3
    apply calm_foldl
    · intro v4
      intro v5
      intro v6
      extract_lets x7
      clear_value x7
      apply calm_foldl
      · intro v8
        intro v9
        intro v10
        refine Device.operand_calm ?_
        assumption
      · assumption
    · assumption
  · assumption
theorem Device.runTask_calm {e : Eff} {a d : Device} {t : Task} (h : Calm e a d) (e_dd : Lets e.dd := by first | assumption | exact ⟨rfl⟩) (e_jnl : Lets e.jnl := by first | assumption | exact ⟨rfl⟩) (e_u6 : Lets (e.unit 6) := by first | assumption | exact ⟨rfl⟩) (e_u8 : Lets (e.unit 8) := by first | assumption | exact ⟨rfl⟩) (e_u10 : Lets (e.unit 10) := by first | assumption | exact ⟨rfl⟩) (e_u12 : Lets (e.unit 12) := by first | assumption | exact ⟨rfl⟩) (e_u14 : Lets (e.unit 14) := by first | assumption | exact ⟨rfl⟩) (e_u15 : Lets (e.unit 15) := by first | assumption | exact ⟨rfl⟩) (e_u16 : Lets (e.unit 16) := by first | assumption | exact ⟨rfl⟩) (e_u17 : Lets (e.unit 17) := by first | assumption | exact ⟨rfl⟩) (e_u20 : Lets (e.unit 20) := by first | assumption | exact ⟨rfl⟩) (e_u21 : Lets (e.unit 21) := by first | assumption | exact ⟨rfl⟩) (e_u23 : Lets (e.unit 23) := by first | assumption | exact ⟨rfl⟩) (e_u24 : Lets (e.unit 24) := by first | assumption | exact ⟨rfl⟩) (e_u26 : Lets (e.unit 26) := by first | assumption | exact ⟨rfl⟩) :
    Calm e a (d.runTask t).dev ∧ ∀ x, Calm e a x → Calm e a ((d.runTask t).after x) := by
  unfold Device.runTask
  extract_lets i k
  split
  · exact Device.runCombine_calm h
  split
  · exact ⟨Device.sendPart_calm h, fun x hx => hx⟩
  split
  · exact Device.runOscdec_calm h
  split
  · exact Device.runOsm_calm h
  split
  · exact Device.runPmu_calm h
  split
  · exact Device.runSso_calm h
  split
  · exact ⟨Device.islinCommit_calm h, fun x hx => Device.storeCheck_calm (Device.contribute_calm hx)⟩
  split
  · exact Device.runIsldet_calm h
  · exact ⟨h, fun x hx => hx⟩
theorem Device.commitNow_calm {e : Eff} {a d : Device} {t : Task} (h : Calm e a d) (e_u26 : Lets (e.unit 26) := by first | assumption | exact ⟨rfl⟩) (e_dd : Lets e.dd := by first | assumption | exact ⟨rfl⟩) (e_jnl : Lets e.jnl := by first | assumption | exact ⟨rfl⟩) (e_u6 : Lets (e.unit 6) := by first | assumption | exact ⟨rfl⟩) (e_u8 : Lets (e.unit 8) := by first | assumption | exact ⟨rfl⟩) (e_u10 : Lets (e.unit 10) := by first | assumption | exact ⟨rfl⟩) (e_u12 : Lets (e.unit 12) := by first | assumption | exact ⟨rfl⟩) (e_u14 : Lets (e.unit 14) := by first | assumption | exact ⟨rfl⟩) (e_u15 : Lets (e.unit 15) := by first | assumption | exact ⟨rfl⟩) (e_u16 : Lets (e.unit 16) := by first | assumption | exact ⟨rfl⟩) (e_u17 : Lets (e.unit 17) := by first | assumption | exact ⟨rfl⟩) (e_u20 : Lets (e.unit 20) := by first | assumption | exact ⟨rfl⟩) (e_u21 : Lets (e.unit 21) := by first | assumption | exact ⟨rfl⟩) (e_u23 : Lets (e.unit 23) := by first | assumption | exact ⟨rfl⟩) (e_u24 : Lets (e.unit 24) := by first | assumption | exact ⟨rfl⟩) : Calm e a (d.commitNow t) := by
  unfold Device.commitNow
  extract_lets i hh d0 d1 d2 r d3
  have h0 : Calm e a d0 := Device.count_calm (Device.dropTask_calm h)
  have h1 : Calm e a d1 := by
    unfold d1
    split
    · exact Device.count_calm h0
    · exact h0
  have h2 : Calm e a d2 := by
    unfold d2
    split
    · exact Device.raise_calm (Device.count_calm h1)
    · exact h1
  have h3 := Device.runTask_calm (t := t) h2
  exact Device.reissueWaiting_calm (Device.passState_calm (h3.2 d3 (Device.commitBlock_calm h3.1)))
theorem Device.commitHold_calm {e : Eff} {a : Device} {d : Device} {p1 : Task} (h : Calm e a d) (e_u10 : Lets (e.unit 10) := by first | assumption | exact ⟨rfl⟩) : Calm e a (Device.commitHold d p1) := by
  unfold Device.commitHold
  refine Device.count_calm ?_
  refine Device.setSrt_calm ?_
  refine Device.putTask_calm ?_
  assumption
theorem commitChain_calm {e : Eff} {a : Device} {p0 : ℕ} {d : Device} {p2 : Task} (h : Calm e a d) (e_dd : Lets e.dd := by first | assumption | exact ⟨rfl⟩) (e_jnl : Lets e.jnl := by first | assumption | exact ⟨rfl⟩) (e_u6 : Lets (e.unit 6) := by first | assumption | exact ⟨rfl⟩) (e_u8 : Lets (e.unit 8) := by first | assumption | exact ⟨rfl⟩) (e_u10 : Lets (e.unit 10) := by first | assumption | exact ⟨rfl⟩) (e_u12 : Lets (e.unit 12) := by first | assumption | exact ⟨rfl⟩) (e_u14 : Lets (e.unit 14) := by first | assumption | exact ⟨rfl⟩) (e_u15 : Lets (e.unit 15) := by first | assumption | exact ⟨rfl⟩) (e_u16 : Lets (e.unit 16) := by first | assumption | exact ⟨rfl⟩) (e_u17 : Lets (e.unit 17) := by first | assumption | exact ⟨rfl⟩) (e_u20 : Lets (e.unit 20) := by first | assumption | exact ⟨rfl⟩) (e_u21 : Lets (e.unit 21) := by first | assumption | exact ⟨rfl⟩) (e_u23 : Lets (e.unit 23) := by first | assumption | exact ⟨rfl⟩) (e_u24 : Lets (e.unit 24) := by first | assumption | exact ⟨rfl⟩) (e_u26 : Lets (e.unit 26) := by first | assumption | exact ⟨rfl⟩) : Calm e a (commitChain p0 d p2) := by
  induction p0 generalizing d p2
  · unfold commitChain
    assumption
  · rename_i n ih
    unfold commitChain
    split
    · refine Device.count_calm ?_
      refine Device.putTask_calm ?_
      assumption
    · split
      · refine Device.commitHold_calm ?_
        assumption
      · extract_lets x1
        have hx1 : Calm e a x1 := by
          unfold x1
          refine Device.commitNow_calm ?_
          assumption
        clear_value x1
        split
        · apply ih
          assumption
        · assumption
theorem Device.finishTask_calm {e : Eff} {a : Device} {d : Device} {p1 : Task} (h : Calm e a d) (e_dd : Lets e.dd := by first | assumption | exact ⟨rfl⟩) (e_jnl : Lets e.jnl := by first | assumption | exact ⟨rfl⟩) (e_u6 : Lets (e.unit 6) := by first | assumption | exact ⟨rfl⟩) (e_u8 : Lets (e.unit 8) := by first | assumption | exact ⟨rfl⟩) (e_u10 : Lets (e.unit 10) := by first | assumption | exact ⟨rfl⟩) (e_u12 : Lets (e.unit 12) := by first | assumption | exact ⟨rfl⟩) (e_u14 : Lets (e.unit 14) := by first | assumption | exact ⟨rfl⟩) (e_u15 : Lets (e.unit 15) := by first | assumption | exact ⟨rfl⟩) (e_u16 : Lets (e.unit 16) := by first | assumption | exact ⟨rfl⟩) (e_u17 : Lets (e.unit 17) := by first | assumption | exact ⟨rfl⟩) (e_u20 : Lets (e.unit 20) := by first | assumption | exact ⟨rfl⟩) (e_u21 : Lets (e.unit 21) := by first | assumption | exact ⟨rfl⟩) (e_u23 : Lets (e.unit 23) := by first | assumption | exact ⟨rfl⟩) (e_u24 : Lets (e.unit 24) := by first | assumption | exact ⟨rfl⟩) (e_u26 : Lets (e.unit 26) := by first | assumption | exact ⟨rfl⟩) : Calm e a (Device.finishTask d p1) := by
  unfold Device.finishTask
  refine Device.gatherCheck_calm ?_
  refine commitChain_calm ?_
  assumption
theorem Device.setEng_calm {e : Eff} {a : Device} {d : Device} {p1 : ℕ} {p2 : Eng} (h : Calm e a d) (e_u12 : Lets (e.unit 12) := by first | assumption | exact ⟨rfl⟩) : Calm e a (Device.setEng d p1 p2) := by
  unfold Device.setEng
  refine Device.setPac_calm ?_
  assumption
theorem Device.engShow_calm {e : Eff} {a : Device} {d : Device} {p1 : ℕ} (h : Calm e a d) (e_u10 : Lets (e.unit 10) := by first | assumption | exact ⟨rfl⟩) (e_u12 : Lets (e.unit 12) := by first | assumption | exact ⟨rfl⟩) : Calm e a (Device.engShow d p1) := by
  unfold Device.engShow
  extract_lets x6000 x6001
  clear_value x6000
  have hx6001 : Calm e a x6001 := by
    unfold x6001
    refine Device.wr_calm ?_
    assumption
  clear_value x6001
  refine Device.engRefresh_calm ?_
  refine Device.wr_calm ?_
  assumption
theorem Device.engMismatch_calm {e : Eff} {a : Device} {d : Device} {p1 : ℕ} (h : Calm e a d) (e_u10 : Lets (e.unit 10) := by first | assumption | exact ⟨rfl⟩) (e_u12 : Lets (e.unit 12) := by first | assumption | exact ⟨rfl⟩) : Calm e a (Device.engMismatch d p1) := by
  unfold Device.engMismatch
  extract_lets x6000 x6001 x6002 x6003 x6004
  clear_value x6000
  clear_value x6001
  clear_value x6002
  have hx6003 : Calm e a x6003 := by
    unfold x6003
    refine Device.wr_calm ?_
    refine Device.setEng_calm ?_
    assumption
  clear_value x6003
  have hx6004 : Calm e a x6004 := by
    unfold x6004
    split
    · refine Device.raise_calm ?_
      refine Device.count_calm ?_
      assumption
    · assumption
  clear_value x6004
  refine Device.engShow_calm ?_
  assumption
theorem Device.retryTask_calm {e : Eff} {a : Device} {d : Device} {p1 : Task} (h : Calm e a d) (e_u10 : Lets (e.unit 10) := by first | assumption | exact ⟨rfl⟩) (e_u12 : Lets (e.unit 12) := by first | assumption | exact ⟨rfl⟩) : Calm e a (Device.retryTask d p1) := by
  unfold Device.retryTask
  refine Device.queueHead_calm ?_
  refine Device.count_calm ?_
  refine Device.dropTask_calm ?_
  assumption
theorem Device.moveTask_calm {e : Eff} {a : Device} {d : Device} {p1 : Task} (h : Calm e a d) (e_u10 : Lets (e.unit 10) := by first | assumption | exact ⟨rfl⟩) (e_u12 : Lets (e.unit 12) := by first | assumption | exact ⟨rfl⟩) : Calm e a (Device.moveTask d p1) := by
  unfold Device.moveTask
  split
  · refine Device.retryTask_calm ?_
    assumption
  · refine Device.queueHead_calm ?_
    refine Device.dropTask_calm ?_
    assumption
theorem Device.moveFailed_calm {e : Eff} {a : Device} {d : Device} (h : Calm e a d) (e_u10 : Lets (e.unit 10) := by first | assumption | exact ⟨rfl⟩) (e_u12 : Lets (e.unit 12) := by first | assumption | exact ⟨rfl⟩) : Calm e a (Device.moveFailed d) := by
  unfold Device.moveFailed
  apply calm_foldl
  · intro v59
    intro v58
    intro w57
    refine Device.moveTask_calm ?_
    assumption
  · assumption
theorem Device.abortTask_calm {e : Eff} {a : Device} {d : Device} {p1 : Task} (h : Calm e a d) (e_dd : Lets e.dd := by first | assumption | exact ⟨rfl⟩) (e_jnl : Lets e.jnl := by first | assumption | exact ⟨rfl⟩) (e_u6 : Lets (e.unit 6) := by first | assumption | exact ⟨rfl⟩) (e_u8 : Lets (e.unit 8) := by first | assumption | exact ⟨rfl⟩) (e_u10 : Lets (e.unit 10) := by first | assumption | exact ⟨rfl⟩) (e_u12 : Lets (e.unit 12) := by first | assumption | exact ⟨rfl⟩) (e_u14 : Lets (e.unit 14) := by first | assumption | exact ⟨rfl⟩) (e_u15 : Lets (e.unit 15) := by first | assumption | exact ⟨rfl⟩) (e_u16 : Lets (e.unit 16) := by first | assumption | exact ⟨rfl⟩) (e_u17 : Lets (e.unit 17) := by first | assumption | exact ⟨rfl⟩) (e_u20 : Lets (e.unit 20) := by first | assumption | exact ⟨rfl⟩) (e_u21 : Lets (e.unit 21) := by first | assumption | exact ⟨rfl⟩) (e_u23 : Lets (e.unit 23) := by first | assumption | exact ⟨rfl⟩) (e_u24 : Lets (e.unit 24) := by first | assumption | exact ⟨rfl⟩) (e_u26 : Lets (e.unit 26) := by first | assumption | exact ⟨rfl⟩) : Calm e a (Device.abortTask d p1) := by
  unfold Device.abortTask
  split
  · extract_lets x1
    clear_value x1
    refine Device.finishTask_calm ?_
    refine Device.putTask_calm ?_
    assumption
  · refine Device.retryTask_calm ?_
    assumption
theorem residueMismatch_calm {e : Eff} {a : Device} {p0 : ℕ} {p1 : ℕ} {p2 : ℕ} {p3 : ℕ} {p4 : Bool} {d : Device} (h : Calm e a d) (e_dd : Lets e.dd := by first | assumption | exact ⟨rfl⟩) (e_jnl : Lets e.jnl := by first | assumption | exact ⟨rfl⟩) (e_u6 : Lets (e.unit 6) := by first | assumption | exact ⟨rfl⟩) (e_u8 : Lets (e.unit 8) := by first | assumption | exact ⟨rfl⟩) (e_u10 : Lets (e.unit 10) := by first | assumption | exact ⟨rfl⟩) (e_u12 : Lets (e.unit 12) := by first | assumption | exact ⟨rfl⟩) (e_u14 : Lets (e.unit 14) := by first | assumption | exact ⟨rfl⟩) (e_u15 : Lets (e.unit 15) := by first | assumption | exact ⟨rfl⟩) (e_u16 : Lets (e.unit 16) := by first | assumption | exact ⟨rfl⟩) (e_u17 : Lets (e.unit 17) := by first | assumption | exact ⟨rfl⟩) (e_u20 : Lets (e.unit 20) := by first | assumption | exact ⟨rfl⟩) (e_u21 : Lets (e.unit 21) := by first | assumption | exact ⟨rfl⟩) (e_u23 : Lets (e.unit 23) := by first | assumption | exact ⟨rfl⟩) (e_u24 : Lets (e.unit 24) := by first | assumption | exact ⟨rfl⟩) (e_u26 : Lets (e.unit 26) := by first | assumption | exact ⟨rfl⟩) : Calm e a (residueMismatch p0 p1 p2 p3 p4 d) := by
  unfold residueMismatch
  split
  · assumption
  · extract_lets x1 x2 x3 x4 x5
    clear_value x1
    have hx2 : Calm e a x2 := by
      unfold x2
      split
      · refine Device.count_calm ?_
        assumption
      · refine Device.count_calm ?_
        assumption
    clear_value x2
    have hx3 : Calm e a x3 := by
      unfold x3
      refine Device.raise_calm ?_
      assumption
    clear_value x3
    have hx4 : Calm e a x4 := by
      unfold x4
      split
      · refine Device.count_calm ?_
        refine Device.setf_calm ?_
        assumption
      · assumption
    clear_value x4
    have hx5 : Calm e a x5 := by
      unfold x5
      split
      · assumption
      · refine Device.engMismatch_calm ?_
        assumption
    clear_value x5
    split
    · assumption
    · refine Device.moveFailed_calm ?_
      refine Device.abortTask_calm ?_
      assumption
theorem Device.lmError_calm {e : Eff} {a : Device} {d : Device} {p1 : Task} {p2 : ℕ} {p3 : Bool} (h : Calm e a d) (e_dd : Lets e.dd := by first | assumption | exact ⟨rfl⟩) (e_jnl : Lets e.jnl := by first | assumption | exact ⟨rfl⟩) (e_u6 : Lets (e.unit 6) := by first | assumption | exact ⟨rfl⟩) (e_u8 : Lets (e.unit 8) := by first | assumption | exact ⟨rfl⟩) (e_u10 : Lets (e.unit 10) := by first | assumption | exact ⟨rfl⟩) (e_u12 : Lets (e.unit 12) := by first | assumption | exact ⟨rfl⟩) (e_u14 : Lets (e.unit 14) := by first | assumption | exact ⟨rfl⟩) (e_u15 : Lets (e.unit 15) := by first | assumption | exact ⟨rfl⟩) (e_u16 : Lets (e.unit 16) := by first | assumption | exact ⟨rfl⟩) (e_u17 : Lets (e.unit 17) := by first | assumption | exact ⟨rfl⟩) (e_u20 : Lets (e.unit 20) := by first | assumption | exact ⟨rfl⟩) (e_u21 : Lets (e.unit 21) := by first | assumption | exact ⟨rfl⟩) (e_u23 : Lets (e.unit 23) := by first | assumption | exact ⟨rfl⟩) (e_u24 : Lets (e.unit 24) := by first | assumption | exact ⟨rfl⟩) (e_u26 : Lets (e.unit 26) := by first | assumption | exact ⟨rfl⟩) : Calm e a (Device.lmError d p1 p2 p3) := by
  unfold Device.lmError
  extract_lets x6000
  have hx6000 : Calm e a x6000 := by
    unfold x6000
    refine Device.memUe_calm ?_
    assumption
  clear_value x6000
  refine Device.moveFailed_calm ?_
  refine Device.abortTask_calm ?_
  split
  · assumption
  · refine Device.engMismatch_calm ?_
    assumption
theorem taskGatherDone_calm {e : Eff} {a : Device} {p0 : ℕ} {p1 : ℕ} {p2 : ℕ} {p3 : List ℕ} {p4 : Bool} {d : Device} (h : Calm e a d) (e_dd : Lets e.dd := by first | assumption | exact ⟨rfl⟩) (e_jnl : Lets e.jnl := by first | assumption | exact ⟨rfl⟩) (e_u6 : Lets (e.unit 6) := by first | assumption | exact ⟨rfl⟩) (e_u8 : Lets (e.unit 8) := by first | assumption | exact ⟨rfl⟩) (e_u10 : Lets (e.unit 10) := by first | assumption | exact ⟨rfl⟩) (e_u12 : Lets (e.unit 12) := by first | assumption | exact ⟨rfl⟩) (e_u14 : Lets (e.unit 14) := by first | assumption | exact ⟨rfl⟩) (e_u15 : Lets (e.unit 15) := by first | assumption | exact ⟨rfl⟩) (e_u16 : Lets (e.unit 16) := by first | assumption | exact ⟨rfl⟩) (e_u17 : Lets (e.unit 17) := by first | assumption | exact ⟨rfl⟩) (e_u20 : Lets (e.unit 20) := by first | assumption | exact ⟨rfl⟩) (e_u21 : Lets (e.unit 21) := by first | assumption | exact ⟨rfl⟩) (e_u23 : Lets (e.unit 23) := by first | assumption | exact ⟨rfl⟩) (e_u24 : Lets (e.unit 24) := by first | assumption | exact ⟨rfl⟩) (e_u26 : Lets (e.unit 26) := by first | assumption | exact ⟨rfl⟩) : Calm e a (taskGatherDone p0 p1 p2 p3 p4 d) := by
  unfold taskGatherDone
  split
  · assumption
  · split
    · assumption
    · split
      · extract_lets x1
        clear_value x1
        split
        · refine Device.lmError_calm ?_
          refine Device.memClean_calm ?_
          assumption
        · refine Device.putTask_calm ?_
          split
          · refine Device.memClean_calm ?_
            refine Device.memRead_calm ?_
            assumption
          · assumption
      · extract_lets x2 x3
        have hx2 : Calm e a x2.2 := by
          unfold x2
          refine Device.gatherLanes_calm ?_
          assumption
        clear_value x2
        clear_value x3
        refine Device.gatherCheck_calm ?_
        refine Device.memClean_calm ?_
        refine Device.putTask_calm ?_
        assumption
theorem taskCommit_calm {e : Eff} {a : Device} {p0 : ℕ} {p1 : ℕ} {p2 : ℕ} {p3 : Bool} {d : Device} (h : Calm e a d) (e_dd : Lets e.dd := by first | assumption | exact ⟨rfl⟩) (e_jnl : Lets e.jnl := by first | assumption | exact ⟨rfl⟩) (e_u6 : Lets (e.unit 6) := by first | assumption | exact ⟨rfl⟩) (e_u8 : Lets (e.unit 8) := by first | assumption | exact ⟨rfl⟩) (e_u10 : Lets (e.unit 10) := by first | assumption | exact ⟨rfl⟩) (e_u12 : Lets (e.unit 12) := by first | assumption | exact ⟨rfl⟩) (e_u14 : Lets (e.unit 14) := by first | assumption | exact ⟨rfl⟩) (e_u15 : Lets (e.unit 15) := by first | assumption | exact ⟨rfl⟩) (e_u16 : Lets (e.unit 16) := by first | assumption | exact ⟨rfl⟩) (e_u17 : Lets (e.unit 17) := by first | assumption | exact ⟨rfl⟩) (e_u20 : Lets (e.unit 20) := by first | assumption | exact ⟨rfl⟩) (e_u21 : Lets (e.unit 21) := by first | assumption | exact ⟨rfl⟩) (e_u23 : Lets (e.unit 23) := by first | assumption | exact ⟨rfl⟩) (e_u24 : Lets (e.unit 24) := by first | assumption | exact ⟨rfl⟩) (e_u26 : Lets (e.unit 26) := by first | assumption | exact ⟨rfl⟩) : Calm e a (taskCommit p0 p1 p2 p3 d) := by
  unfold taskCommit
  split
  · assumption
  · split
    · assumption
    · extract_lets x1 x2 x3
      clear_value x1
      clear_value x2
      clear_value x3
      split
      · refine Device.lmError_calm ?_
        refine Device.memMark_calm ?_
        assumption
      · refine Device.moveFailed_calm ?_
        refine Device.finishTask_calm ?_
        refine Device.memRead_calm ?_
        assumption
theorem engineSuspectExpiry_calm {e : Eff} {a : Device} {p0 : ℕ} {d : Device} (h : Calm e a d) (e_u10 : Lets (e.unit 10) := by first | assumption | exact ⟨rfl⟩) (e_u12 : Lets (e.unit 12) := by first | assumption | exact ⟨rfl⟩) : Calm e a (engineSuspectExpiry p0 d) := by
  unfold engineSuspectExpiry
  extract_lets x6000
  clear_value x6000
  split
  · assumption
  · refine Device.engShow_calm ?_
    refine Device.setEng_calm ?_
    assumption
theorem Device.strideSubmit_calm {e : Eff} {a : Device} {d : Device} {p1 : ℕ} (h : Calm e a d) (e_u10 : Lets (e.unit 10) := by first | assumption | exact ⟨rfl⟩) : Calm e a (Device.strideSubmit d p1) := by
  unfold Device.strideSubmit
  split
  · refine Device.count_calm ?_
    refine Device.setSrt_calm ?_
    assumption
  · refine Device.operand_calm ?_
    assumption
theorem pacEngClr_calm {e : Eff} {a : Device} {p0 : Word} {d : Device} (h : Calm e a d) (e_u10 : Lets (e.unit 10) := by first | assumption | exact ⟨rfl⟩) (e_u12 : Lets (e.unit 12) := by first | assumption | exact ⟨rfl⟩) : Calm e a (pacEngClr p0 d) := by
  unfold pacEngClr
  extract_lets x1 x2
  clear_value x1
  clear_value x2
  split
  · assumption
  · split
    · refine Device.setf_calm ?_
      assumption
    · refine Device.strideSubmit_calm ?_
      refine Device.setf_calm ?_
      refine Device.setf_calm ?_
      refine Device.setPac_calm ?_
      assumption
theorem Device.strideEnd_calm {e : Eff} {a : Device} {d : Device} {p1 : ℕ} (h : Calm e a d) (e_u10 : Lets (e.unit 10) := by first | assumption | exact ⟨rfl⟩) : Calm e a (Device.strideEnd d p1) := by
  unfold Device.strideEnd
  extract_lets x1 x2 x3
  clear_value x1
  have hx2 : Calm e a x2 := by
    unfold x2
    refine Device.storeShow_calm ?_
    refine Device.setSrt_calm ?_
    assumption
  clear_value x2
  have hx3 : Calm e a x3 := by
    unfold x3
    refine Device.setQueue_calm ?_
    assumption
  clear_value x3
  refine queueFill_calm ?_
  refine Device.setFlight_calm ?_
  assumption
theorem selfTestDone_calm {e : Eff} {a : Device} {p0 : Bool} {d : Device} (h : Calm e a d) (e_dd : Lets e.dd := by first | assumption | exact ⟨rfl⟩) (e_jnl : Lets e.jnl := by first | assumption | exact ⟨rfl⟩) (e_u8 : Lets (e.unit 8) := by first | assumption | exact ⟨rfl⟩) (e_u10 : Lets (e.unit 10) := by first | assumption | exact ⟨rfl⟩) (e_u12 : Lets (e.unit 12) := by first | assumption | exact ⟨rfl⟩) (e_u16 : Lets (e.unit 16) := by first | assumption | exact ⟨rfl⟩) (e_u17 : Lets (e.unit 17) := by first | assumption | exact ⟨rfl⟩) (e_u20 : Lets (e.unit 20) := by first | assumption | exact ⟨rfl⟩) (e_u23 : Lets (e.unit 23) := by first | assumption | exact ⟨rfl⟩) (e_u24 : Lets (e.unit 24) := by first | assumption | exact ⟨rfl⟩) (e_u26 : Lets (e.unit 26) := by first | assumption | exact ⟨rfl⟩) : Calm e a (selfTestDone p0 d) := by
  unfold selfTestDone
  split
  · assumption
  · extract_lets x1 x2 x3 x4
    clear_value x1
    have hx2 : Calm e a x2 := by
      unfold x2
      refine Device.strideEnd_calm ?_
      refine Device.setf_calm ?_
      refine Device.setf_calm ?_
      refine Device.setPac_calm ?_
      assumption
    clear_value x2
    clear_value x3
    have hx4 : Calm e a x4 := by
      unfold x4
      split
      · refine Device.engShow_calm ?_
        refine Device.setEng_calm ?_
        assumption
      · assumption
    clear_value x4
    refine Device.reoffer_calm ?_
    refine Device.raise_calm ?_
    assumption
theorem resInjWrite_calm {e : Eff} {a : Device} {p0 : Word} {d : Device} (h : Calm e a d) (e_u12 : Lets (e.unit 12) := by first | assumption | exact ⟨rfl⟩) : Calm e a (resInjWrite p0 d) := by
  unfold resInjWrite
  split
  · assumption
  · extract_lets x5900
    clear_value x5900
    refine Device.wr_calm ?_
    assumption
theorem Device.timerToken_calm {e : Eff} {a : Device} {d : Device} {p1 : Timer} {p2 : ℕ} (h : Calm e a d) (e_u10 : Lets (e.unit 10) := by first | assumption | exact ⟨rfl⟩) : Calm e a (Device.timerToken d p1 p2) := by
  unfold Device.timerToken
  extract_lets x6000 x6001
  clear_value x6000
  clear_value x6001
  apply calm_foldl
  · intro v58
    intro v57
    intro w56
    refine Device.operand_calm ?_
    assumption
  · assumption
theorem instanceTimerExpiry_calm {e : Eff} {a : Device} {p0 : ℕ} {p1 : ℕ} {p2 : ℕ} {d : Device} (h : Calm e a d) (e_u8 : Lets (e.unit 8) := by first | assumption | exact ⟨rfl⟩) (e_u10 : Lets (e.unit 10) := by first | assumption | exact ⟨rfl⟩) : Calm e a (instanceTimerExpiry p0 p1 p2 d) := by
  unfold instanceTimerExpiry
  split
  · assumption
  · split
    · assumption
    · extract_lets x5800 x5801
      have hx5800 : Calm e a x5800 := by
        unfold x5800
        refine Device.timerFire_calm ?_
        assumption
      clear_value x5800
      clear_value x5801
      split
      · refine Device.dropTimer_calm ?_
        refine Device.timerToken_calm ?_
        assumption
      · refine Device.count_calm ?_
        refine Device.setSrt_calm ?_
        assumption
theorem Device.resumeTimer_calm {e : Eff} {a : Device} {d : Device} {p1 : Timer} (h : Calm e a d) (e_u8 : Lets (e.unit 8) := by first | assumption | exact ⟨rfl⟩) (e_u10 : Lets (e.unit 10) := by first | assumption | exact ⟨rfl⟩) : Calm e a (Device.resumeTimer d p1) := by
  unfold Device.resumeTimer
  split
  · split
    · refine Device.dropTimer_calm ?_
      refine Device.timerToken_calm ?_
      assumption
    · assumption
  · assumption
theorem Device.resumeCommit_calm {e : Eff} {a : Device} {d : Device} {p1 : ℕ} {p2 : ℕ} {p3 : ℕ} (h : Calm e a d) (e_dd : Lets e.dd := by first | assumption | exact ⟨rfl⟩) (e_jnl : Lets e.jnl := by first | assumption | exact ⟨rfl⟩) (e_u6 : Lets (e.unit 6) := by first | assumption | exact ⟨rfl⟩) (e_u8 : Lets (e.unit 8) := by first | assumption | exact ⟨rfl⟩) (e_u10 : Lets (e.unit 10) := by first | assumption | exact ⟨rfl⟩) (e_u12 : Lets (e.unit 12) := by first | assumption | exact ⟨rfl⟩) (e_u14 : Lets (e.unit 14) := by first | assumption | exact ⟨rfl⟩) (e_u15 : Lets (e.unit 15) := by first | assumption | exact ⟨rfl⟩) (e_u16 : Lets (e.unit 16) := by first | assumption | exact ⟨rfl⟩) (e_u17 : Lets (e.unit 17) := by first | assumption | exact ⟨rfl⟩) (e_u20 : Lets (e.unit 20) := by first | assumption | exact ⟨rfl⟩) (e_u21 : Lets (e.unit 21) := by first | assumption | exact ⟨rfl⟩) (e_u23 : Lets (e.unit 23) := by first | assumption | exact ⟨rfl⟩) (e_u24 : Lets (e.unit 24) := by first | assumption | exact ⟨rfl⟩) (e_u26 : Lets (e.unit 26) := by first | assumption | exact ⟨rfl⟩) : Calm e a (Device.resumeCommit d p1 p2 p3) := by
  unfold Device.resumeCommit
  split
  · split
    · refine Device.moveFailed_calm ?_
      refine Device.finishTask_calm ?_
      assumption
    · assumption
  · assumption
theorem Device.resumeCombine_calm {e : Eff} {a : Device} {d : Device} {p1 : ℕ} {p2 : ℕ} (h : Calm e a d) (e_dd : Lets e.dd := by first | assumption | exact ⟨rfl⟩) (e_jnl : Lets e.jnl := by first | assumption | exact ⟨rfl⟩) (e_u10 : Lets (e.unit 10) := by first | assumption | exact ⟨rfl⟩) (e_u21 : Lets (e.unit 21) := by first | assumption | exact ⟨rfl⟩) : Calm e a (Device.resumeCombine d p1 p2) := by
  unfold Device.resumeCombine
  split
  · assumption
  · refine Device.combCheck_calm ?_
    refine Device.setSrt_calm ?_
    assumption
theorem srtCfgWrite_calm {e : Eff} {a : Device} {p0 : Word} {d : Device} (h : Calm e a d) (e_dd : Lets e.dd := by first | assumption | exact ⟨rfl⟩) (e_jnl : Lets e.jnl := by first | assumption | exact ⟨rfl⟩) (e_u8 : Lets (e.unit 8) := by first | assumption | exact ⟨rfl⟩) (e_u10 : Lets (e.unit 10) := by first | assumption | exact ⟨rfl⟩) (e_u12 : Lets (e.unit 12) := by first | assumption | exact ⟨rfl⟩) (e_u16 : Lets (e.unit 16) := by first | assumption | exact ⟨rfl⟩) (e_u17 : Lets (e.unit 17) := by first | assumption | exact ⟨rfl⟩) (e_u20 : Lets (e.unit 20) := by first | assumption | exact ⟨rfl⟩) (e_u23 : Lets (e.unit 23) := by first | assumption | exact ⟨rfl⟩) (e_u24 : Lets (e.unit 24) := by first | assumption | exact ⟨rfl⟩) (e_u26 : Lets (e.unit 26) := by first | assumption | exact ⟨rfl⟩) : Calm e a (srtCfgWrite p0 d) := by
  unfold srtCfgWrite
  extract_lets x1
  clear_value x1
  split
  · assumption
  · split
    · refine Device.setf_calm ?_
      assumption
    · refine Device.reoffer_calm ?_
      refine Device.setf_calm ?_
      assumption
theorem srtPinWrite_calm {e : Eff} {a : Device} {p0 : Word} {d : Device} (h : Calm e a d) (e_u10 : Lets (e.unit 10) := by first | assumption | exact ⟨rfl⟩) : Calm e a (srtPinWrite p0 d) := by
  unfold srtPinWrite
  split
  · refine Device.setf_calm ?_
    assumption
  · refine Device.wr_calm ?_
    assumption
theorem Device.portQuiet_calm {e : Eff} {a : Device} {d : Device} {p1 : ℕ} (h : Calm e a d) (e_u17 : Lets (e.unit 17) := by first | assumption | exact ⟨rfl⟩) : Calm e a (Device.portQuiet d p1) := by
  unfold Device.portQuiet
  split
  · assumption
  · extract_lets x1 x2 x3 x4 x5
    clear_value x1
    clear_value x2
    clear_value x3
    have hx4 : Calm e a x4 := by
      unfold x4
      refine Device.setPtx_calm ?_
      assumption
    clear_value x4
    clear_value x5
    refine Calm.upd_egr ?_
    assumption
theorem srtUnitWrite_calm {e : Eff} {a : Device} {p0 : Word} {d : Device} (h : Calm e a d) (e_u10 : Lets (e.unit 10) := by first | assumption | exact ⟨rfl⟩) (e_u17 : Lets (e.unit 17) := by first | assumption | exact ⟨rfl⟩) (e_u21 : Lets (e.unit 21) := by first | assumption | exact ⟨rfl⟩) : Calm e a (srtUnitWrite p0 d) := by
  unfold srtUnitWrite
  extract_lets x1 x2 x3 x4
  clear_value x1
  clear_value x2
  clear_value x3
  have hx4 : Calm e a x4 := by
    unfold x4
    refine Device.unitRefresh_calm ?_
    refine Device.setSrt_calm ?_
    assumption
  clear_value x4
  split
  · assumption
  · split
    · refine Device.setf_calm ?_
      assumption
    · split
      · refine Device.linksRefresh_calm ?_
        refine Device.portQuiet_calm ?_
        assumption
      · split
        · refine Device.linksRefresh_calm ?_
          assumption
        · assumption
theorem lapOpenAll_calm {e : Eff} {a : Device} {p0 : ℕ} {p1 : ℕ} {d : Device} (h : Calm e a d) (e_dd : Lets e.dd := by first | assumption | exact ⟨rfl⟩) (e_jnl : Lets e.jnl := by first | assumption | exact ⟨rfl⟩) (e_u8 : Lets (e.unit 8) := by first | assumption | exact ⟨rfl⟩) (e_u10 : Lets (e.unit 10) := by first | assumption | exact ⟨rfl⟩) (e_u12 : Lets (e.unit 12) := by first | assumption | exact ⟨rfl⟩) (e_u16 : Lets (e.unit 16) := by first | assumption | exact ⟨rfl⟩) (e_u17 : Lets (e.unit 17) := by first | assumption | exact ⟨rfl⟩) (e_u20 : Lets (e.unit 20) := by first | assumption | exact ⟨rfl⟩) (e_u21 : Lets (e.unit 21) := by first | assumption | exact ⟨rfl⟩) (e_u23 : Lets (e.unit 23) := by first | assumption | exact ⟨rfl⟩) (e_u24 : Lets (e.unit 24) := by first | assumption | exact ⟨rfl⟩) (e_u26 : Lets (e.unit 26) := by first | assumption | exact ⟨rfl⟩) : Calm e a (lapOpenAll p0 p1 d) := by
  unfold lapOpenAll
  split
  · assumption
  · split
    · refine lapOpen_calm ?_
      refine Device.partPrune_calm ?_
      refine Device.spanOpen_calm ?_
      refine Device.anchorLook_calm ?_
      assumption
    · refine lapOpen_calm ?_
      assumption
theorem Device.hurdleFinish_calm {e : Eff} {a : Device} {d : Device} {p1 : ℕ} (h : Calm e a d) (e_dd : Lets e.dd := by first | assumption | exact ⟨rfl⟩) (e_jnl : Lets e.jnl := by first | assumption | exact ⟨rfl⟩) (e_u16 : Lets (e.unit 16) := by first | assumption | exact ⟨rfl⟩) (e_u17 : Lets (e.unit 17) := by first | assumption | exact ⟨rfl⟩) (e_u23 : Lets (e.unit 23) := by first | assumption | exact ⟨rfl⟩) (e_u24 : Lets (e.unit 24) := by first | assumption | exact ⟨rfl⟩) : Calm e a (Device.hurdleFinish d p1) := by
  unfold Device.hurdleFinish
  split
  · refine Device.hurdleSkip_calm ?_
    assumption
  · assumption
theorem finishLineAll_calm {e : Eff} {a : Device} {p0 : ℕ} {p1 : ℕ} {d : Device} (h : Calm e a d) (e_dd : Lets e.dd := by first | assumption | exact ⟨rfl⟩) (e_jnl : Lets e.jnl := by first | assumption | exact ⟨rfl⟩) (e_u8 : Lets (e.unit 8) := by first | assumption | exact ⟨rfl⟩) (e_u10 : Lets (e.unit 10) := by first | assumption | exact ⟨rfl⟩) (e_u12 : Lets (e.unit 12) := by first | assumption | exact ⟨rfl⟩) (e_u16 : Lets (e.unit 16) := by first | assumption | exact ⟨rfl⟩) (e_u17 : Lets (e.unit 17) := by first | assumption | exact ⟨rfl⟩) (e_u21 : Lets (e.unit 21) := by first | assumption | exact ⟨rfl⟩) (e_u23 : Lets (e.unit 23) := by first | assumption | exact ⟨rfl⟩) (e_u24 : Lets (e.unit 24) := by first | assumption | exact ⟨rfl⟩) (e_u26 : Lets (e.unit 26) := by first | assumption | exact ⟨rfl⟩) : Calm e a (finishLineAll p0 p1 d) := by
  unfold finishLineAll
  split
  · refine Device.hurdleFinish_calm ?_
    refine Device.combFinish_calm ?_
    refine finishLineExpiry_calm ?_
    assumption
  · assumption
theorem Device.heatOff_calm {e : Eff} {a : Device} {d : Device} {p1 : ℕ} (h : Calm e a d) (e_dd : Lets e.dd := by first | assumption | exact ⟨rfl⟩) (e_jnl : Lets e.jnl := by first | assumption | exact ⟨rfl⟩) (e_u8 : Lets (e.unit 8) := by first | assumption | exact ⟨rfl⟩) (e_u10 : Lets (e.unit 10) := by first | assumption | exact ⟨rfl⟩) (e_u12 : Lets (e.unit 12) := by first | assumption | exact ⟨rfl⟩) (e_u14 : Lets (e.unit 14) := by first | assumption | exact ⟨rfl⟩) (e_u16 : Lets (e.unit 16) := by first | assumption | exact ⟨rfl⟩) (e_u17 : Lets (e.unit 17) := by first | assumption | exact ⟨rfl⟩) (e_u20 : Lets (e.unit 20) := by first | assumption | exact ⟨rfl⟩) (e_u23 : Lets (e.unit 23) := by first | assumption | exact ⟨rfl⟩) (e_u24 : Lets (e.unit 24) := by first | assumption | exact ⟨rfl⟩) (e_u26 : Lets (e.unit 26) := by first | assumption | exact ⟨rfl⟩) : Calm e a (Device.heatOff d p1) := by
  unfold Device.heatOff
  refine Device.storeCheck_calm ?_
  refine Device.osmHeatEnd_calm ?_
  refine Device.heatStop_calm ?_
  assumption
end Sys2Proof.Machine
end

