-- ==== Sys2Proof/Laws/CalmInputs.lean ====
section
/-!
SUPPORT. One lemma per operation of ports, capture, parsing and local measurement (Machine/Ports, Acq, Parser, Lmf): what the
operation may touch, in the terms of Calm.
-/
namespace Sys2Proof.Machine
set_option Elab.async false
/-! Ports. -/
theorem Device.setPrx_calm {e : Eff} {a : Device} {d : Device} {p1 : ℕ} {p2 : PortRx} (h : Calm e a d) (e_u4 : Lets (e.unit 4) := by first | assumption | exact ⟨rfl⟩) : Calm e a (Device.setPrx d p1 p2) := by
  unfold Device.setPrx
  refine Calm.upd_ing ?_
  assumption
theorem Device.fifoShow_calm {e : Eff} {a : Device} {d : Device} {p1 : ℕ} (h : Calm e a d) (e_u4 : Lets (e.unit 4) := by first | assumption | exact ⟨rfl⟩) : Calm e a (Device.fifoShow d p1) := by
  unfold Device.fifoShow
  extract_lets x6000
  clear_value x6000
  refine Device.hwm_calm ?_
  refine Device.setf_calm ?_
  assumption
theorem Device.rxOctets_calm {e : Eff} {a : Device} {d : Device} {p1 : ℕ} {p2 : ℕ} (h : Calm e a d) (e_u4 : Lets (e.unit 4) := by first | assumption | exact ⟨rfl⟩) : Calm e a (Device.rxOctets d p1 p2) := by
  unfold Device.rxOctets
  extract_lets x6000 x6001 x6002
  have hx6002 : Calm e a x6002 := by
    unfold x6002
    refine Device.setPrx_calm ?_
    assumption
  clear_value x6002
  split
  · assumption
  · refine Device.raise_calm ?_
    refine Device.irqRefresh_calm ?_
    refine Device.setf_calm ?_
    assumption
theorem Device.fifoWrite_calm {e : Eff} {a : Device} {d : Device} {p1 : ℕ} {p2 : ℕ} {p3 : List Byte} (h : Calm e a d) (e_u4 : Lets (e.unit 4) := by first | assumption | exact ⟨rfl⟩) : Calm e a (Device.fifoWrite d p1 p2 p3) := by
  unfold Device.fifoWrite
  extract_lets x6000 x6001 x6002
  clear_value x6000
  clear_value x6001
  have hx6002 : Calm e a x6002 := by
    unfold x6002
    refine Device.setPrx_calm ?_
    refine Device.count_calm ?_
    assumption
  clear_value x6002
  split
  · refine Device.count_calm ?_
    assumption
  · split
    · split
      · assumption
      · refine Device.raise_calm ?_
        assumption
    · refine Device.fifoShow_calm ?_
      refine Device.rxOctets_calm ?_
      refine Device.count_calm ?_
      refine Device.setPrx_calm ?_
      assumption
theorem Device.fifoTake_calm {e : Eff} {a : Device} {d : Device} {p1 : ℕ} (h : Calm e a d) (e_u4 : Lets (e.unit 4) := by first | assumption | exact ⟨rfl⟩) : Calm e a (Device.fifoTake d p1) := by
  unfold Device.fifoTake
  extract_lets x6000 x6001
  clear_value x6000
  clear_value x6001
  refine Device.fifoShow_calm ?_
  refine Device.setPrx_calm ?_
  assumption
theorem Device.prpStep_calm {e : Eff} {a : Device} {d : Device} {p1 : ℕ} {p2 : List Byte} (h : Calm e a d) (e_u4 : Lets (e.unit 4) := by first | assumption | exact ⟨rfl⟩) : Calm e a (Device.prpStep d p1 p2).2 := by
  unfold Device.prpStep
  split
  · dsimp only
    assumption
  · split
    · dsimp only
      refine Device.count_calm ?_
      assumption
    · extract_lets x5800 x5801 x5802
      clear_value x5800
      clear_value x5801
      have hx5802 : Calm e a x5802 := by
        unfold x5802
        refine Calm.upd_ing ?_
        assumption
      clear_value x5802
      split
      · dsimp only
        refine Device.count_calm ?_
        assumption
      · split
        · dsimp only
          assumption
        · dsimp only
          refine Device.count_calm ?_
          assumption
theorem ethFrame_calm {e : Eff} {a : Device} {p0 : ℕ} {p1 : List Byte} {p2 : Bool} {d : Device} (h : Calm e a d) (e_u4 : Lets (e.unit 4) := by first | assumption | exact ⟨rfl⟩) : Calm e a (ethFrame p0 p1 p2 d) := by
  unfold ethFrame
  split
  · assumption
  · split
    · refine Device.count_calm ?_
      assumption
    · split
      · refine Device.count_calm ?_
        assumption
      · split
        · refine Device.count_calm ?_
          assumption
        · split
          · refine Device.count_calm ?_
            assumption
          · split
            · refine Device.count_calm ?_
              assumption
            · extract_lets x5400 x5401
              clear_value x5400
              clear_value x5401
              split
              · refine Device.count_calm ?_
                assumption
              · split
                · refine Device.count_calm ?_
                  assumption
                · split
                  · refine calm_snd (by assumption) ?_
                    refine Device.prpStep_calm ?_
                    assumption
                  · refine Device.fifoWrite_calm ?_
                    refine calm_snd (by assumption) ?_
                    refine Device.prpStep_calm ?_
                    assumption
theorem Device.prpShow_calm {e : Eff} {a : Device} {d : Device} {p1 : ℕ} (h : Calm e a d) (e_u4 : Lets (e.unit 4) := by first | assumption | exact ⟨rfl⟩) : Calm e a (Device.prpShow d p1) := by
  unfold Device.prpShow
  extract_lets x6000 x6001
  clear_value x6000
  clear_value x6001
  refine Device.setf_calm ?_
  refine Device.setf_calm ?_
  assumption
theorem Device.linkSet_calm {e : Eff} {a : Device} {d : Device} {p1 : ℕ} {p2 : Bool} (h : Calm e a d) (e_u4 : Lets (e.unit 4) := by first | assumption | exact ⟨rfl⟩) (e_u10 : Lets (e.unit 10) := by first | assumption | exact ⟨rfl⟩) (e_u17 : Lets (e.unit 17) := by first | assumption | exact ⟨rfl⟩) (e_u21 : Lets (e.unit 21) := by first | assumption | exact ⟨rfl⟩) : Calm e a (Device.linkSet d p1 p2) := by
  unfold Device.linkSet
  split
  · assumption
  · refine Device.linksRefresh_calm ?_
    refine Device.portQuiet_calm ?_
    refine Device.unitRefresh_calm ?_
    refine Device.raise_calm ?_
    refine Device.setf_calm ?_
    assumption
theorem ethCfgWrite_calm {e : Eff} {a : Device} {p0 : ℕ} {p1 : Word} {d : Device} (h : Calm e a d) (e_u4 : Lets (e.unit 4) := by first | assumption | exact ⟨rfl⟩) (e_u10 : Lets (e.unit 10) := by first | assumption | exact ⟨rfl⟩) (e_u17 : Lets (e.unit 17) := by first | assumption | exact ⟨rfl⟩) (e_u21 : Lets (e.unit 21) := by first | assumption | exact ⟨rfl⟩) : Calm e a (ethCfgWrite p0 p1 d) := by
  unfold ethCfgWrite
  split
  · assumption
  · split
    · refine Device.setf_calm ?_
      assumption
    · extract_lets x1 x2 x3
      clear_value x1
      have hx3 : Calm e a x3 := by
        unfold x3
        refine Device.prpShow_calm ?_
        refine Device.wr_calm ?_
        assumption
      clear_value x3
      split
      · refine Device.linkSet_calm ?_
        refine Device.setf_calm ?_
        refine Device.setf_calm ?_
        refine Device.setf_calm ?_
        assumption
      · assumption
theorem ethLinkChange_calm {e : Eff} {a : Device} {p0 : ℕ} {p1 : Bool} {p2 : Bool} {p3 : Bool} {p4 : Bool} {p5 : Bool} {d : Device} (h : Calm e a d) (e_u4 : Lets (e.unit 4) := by first | assumption | exact ⟨rfl⟩) (e_u10 : Lets (e.unit 10) := by first | assumption | exact ⟨rfl⟩) (e_u17 : Lets (e.unit 17) := by first | assumption | exact ⟨rfl⟩) (e_u21 : Lets (e.unit 21) := by first | assumption | exact ⟨rfl⟩) : Calm e a (ethLinkChange p0 p1 p2 p3 p4 p5 d) := by
  unfold ethLinkChange
  split
  · assumption
  · extract_lets x1 x2 x3 x4 x5
    clear_value x1
    clear_value x2
    clear_value x3
    clear_value x4
    have hx5 : Calm e a x5 := by
      unfold x5
      refine Device.setf_calm ?_
      refine Device.setf_calm ?_
      refine Device.setf_calm ?_
      assumption
    clear_value x5
    refine Device.linkSet_calm ?_
    assumption
/-! Acq. -/
theorem Device.setAcq_calm {e : Eff} {a : Device} {d : Device} {p1 : Acq} (h : Calm e a d) (e_u19 : Lets (e.unit 19) := by first | assumption | exact ⟨rfl⟩) : Calm e a (Device.setAcq d p1) := by
  unfold Device.setAcq
  refine Calm.upd_acq ?_
  assumption
theorem Device.setGrp_calm {e : Eff} {a : Device} {d : Device} {p1 : ℕ} {p2 : CapGrp} (h : Calm e a d) (e_u19 : Lets (e.unit 19) := by first | assumption | exact ⟨rfl⟩) : Calm e a (Device.setGrp d p1 p2) := by
  unfold Device.setGrp
  refine Device.setf_calm ?_
  refine Device.setf_calm ?_
  refine Device.setf_calm ?_
  refine Device.setf_calm ?_
  refine Device.setAcq_calm ?_
  assumption
theorem acqErr_calm {e : Eff} {a : Device} {p0 : ℕ} {d : Device} (h : Calm e a d) (e_u19 : Lets (e.unit 19) := by first | assumption | exact ⟨rfl⟩) : Calm e a (acqErr p0 d) := by
  unfold acqErr
  refine Device.err_calm ?_
  assumption
theorem acqWrite_calm {e : Eff} {a : Device} {p0 : ℕ} {p1 : List Byte} {d : Device} (h : Calm e a d) (e_dd : Lets e.dd := by first | assumption | exact ⟨rfl⟩) (e_u19 : Lets (e.unit 19) := by first | assumption | exact ⟨rfl⟩) : Calm e a (acqWrite p0 p1 d) := by
  unfold acqWrite
  extract_lets x6000 x6001 x6002
  have hx6000 : Calm e a x6000 := by
    unfold x6000
    refine Device.ddrWrite_calm ?_
    assumption
  clear_value x6000
  clear_value x6001
  have hx6002 : Calm e a x6002 := by
    unfold x6002
    refine Device.setAcq_calm ?_
    assumption
  clear_value x6002
  refine Device.hwm_calm ?_
  assumption
theorem recFinish_calm {e : Eff} {a : Device} {p0 : ℕ} {p1 : Bool} {p2 : Bool} {d : Device} (h : Calm e a d) (e_dd : Lets e.dd := by first | assumption | exact ⟨rfl⟩) (e_u19 : Lets (e.unit 19) := by first | assumption | exact ⟨rfl⟩) (e_u23 : Lets (e.unit 23) := by first | assumption | exact ⟨rfl⟩) : Calm e a (recFinish p0 p1 p2 d) := by
  unfold recFinish
  extract_lets x6000 x6001 x6002 x6003 x6004 x6005 x6006 x6007
  clear_value x6000
  clear_value x6001
  have hx6002 : Calm e a x6002 := by
    unfold x6002
    refine acqWrite_calm ?_
    assumption
  clear_value x6002
  have hx6003 : Calm e a x6003 := by
    unfold x6003
    refine Device.count_calm ?_
    refine Device.setGrp_calm ?_
    assumption
  clear_value x6003
  have hx6004 : Calm e a x6004 := by
    unfold x6004
    split
    · refine Device.count_calm ?_
      assumption
    · assumption
  clear_value x6004
  have hx6005 : Calm e a x6005 := by
    unfold x6005
    refine Device.raise_calm ?_
    assumption
  clear_value x6005
  clear_value x6006
  have hx6007 : Calm e a x6007 := by
    unfold x6007
    refine Device.setAcq_calm ?_
    assumption
  clear_value x6007
  split
  · refine Device.sfPush_calm ?_ (by assumption)
    assumption
  · refine Device.count_calm ?_
    assumption
theorem capArm_calm {e : Eff} {a : Device} {p0 : ℕ} {p1 : ℕ} {d : Device} (h : Calm e a d) (e_u19 : Lets (e.unit 19) := by first | assumption | exact ⟨rfl⟩) : Calm e a (capArm p0 p1 d) := by
  unfold capArm
  refine Device.setGrp_calm ?_
  assumption
theorem capNext_calm {e : Eff} {a : Device} {p0 : ℕ} {d : Device} (h : Calm e a d) (e_u19 : Lets (e.unit 19) := by first | assumption | exact ⟨rfl⟩) : Calm e a (capNext p0 d) := by
  unfold capNext
  split
  · split
    · refine capArm_calm ?_
      assumption
    · refine Device.setGrp_calm ?_
      assumption
  · refine Device.setGrp_calm ?_
    assumption
theorem capTruncate_calm {e : Eff} {a : Device} {p0 : ℕ} {d : Device} (h : Calm e a d) (e_dd : Lets e.dd := by first | assumption | exact ⟨rfl⟩) (e_u19 : Lets (e.unit 19) := by first | assumption | exact ⟨rfl⟩) (e_u23 : Lets (e.unit 23) := by first | assumption | exact ⟨rfl⟩) : Calm e a (capTruncate p0 d) := by
  unfold capTruncate
  extract_lets x6000 x6001 x6002
  clear_value x6000
  have hx6001 : Calm e a x6001 := by
    unfold x6001
    refine Device.count_calm ?_
    refine recFinish_calm ?_
    assumption
  clear_value x6001
  clear_value x6002
  split
  · refine Device.setGrp_calm ?_
    assumption
  · refine capNext_calm ?_
    assumption
theorem capPut_calm {e : Eff} {a : Device} {p0 : ℕ} {p1 : ℕ} {p2 : List CapS} {d : Device} (h : Calm e a d) (e_dd : Lets e.dd := by first | assumption | exact ⟨rfl⟩) (e_u19 : Lets (e.unit 19) := by first | assumption | exact ⟨rfl⟩) (e_u23 : Lets (e.unit 23) := by first | assumption | exact ⟨rfl⟩) : Calm e a (capPut p0 p1 p2 d) := by
  unfold capPut
  extract_lets x1 x2 x3 x4 x5 x6 x7 x8 x9
  clear_value x1
  have hx2 : Calm e a x2 := by
    unfold x2
    apply calm_foldl
    · intro v10
      intro v11
      intro v12
      refine Device.noteRead_calm ?_
      assumption
    · assumption
  clear_value x2
  clear_value x3
  have hx4 : Calm e a x4 := by
    unfold x4
    split
    · refine capTruncate_calm ?_
      assumption
    · assumption
  clear_value x4
  clear_value x5
  have hx6 : Calm e a x6 := by
    unfold x6
    refine acqWrite_calm ?_
    assumption
  clear_value x6
  clear_value x7
  clear_value x8
  have hx9 : Calm e a x9 := by
    unfold x9
    refine Device.count_calm ?_
    refine Device.setGrp_calm ?_
    assumption
  clear_value x9
  split
  · split
    · refine Device.count_calm ?_
      assumption
    · assumption
  · assumption
theorem capFlush_calm {e : Eff} {a : Device} {p0 : ℕ} {p1 : ℕ} {d : Device} (h : Calm e a d) (e_dd : Lets e.dd := by first | assumption | exact ⟨rfl⟩) (e_u19 : Lets (e.unit 19) := by first | assumption | exact ⟨rfl⟩) (e_u23 : Lets (e.unit 23) := by first | assumption | exact ⟨rfl⟩) : Calm e a (capFlush p0 p1 d) := by
  unfold capFlush
  split
  · assumption
  · refine capPut_calm ?_
    refine Device.setGrp_calm ?_
    assumption
theorem capFlushAll_calm {e : Eff} {a : Device} {p0 : ℕ} {d : Device} (h : Calm e a d) (e_dd : Lets e.dd := by first | assumption | exact ⟨rfl⟩) (e_u19 : Lets (e.unit 19) := by first | assumption | exact ⟨rfl⟩) (e_u23 : Lets (e.unit 23) := by first | assumption | exact ⟨rfl⟩) : Calm e a (capFlushAll p0 d) := by
  unfold capFlushAll
  apply calm_foldl
  · intro v59
    intro v58
    intro w57
    refine capFlush_calm ?_
    assumption
  · assumption
theorem capSample_calm {e : Eff} {a : Device} {p0 : ℕ} {p1 : ℕ} {p2 : CapS} {d : Device} (h : Calm e a d) (e_dd : Lets e.dd := by first | assumption | exact ⟨rfl⟩) (e_u19 : Lets (e.unit 19) := by first | assumption | exact ⟨rfl⟩) (e_u23 : Lets (e.unit 23) := by first | assumption | exact ⟨rfl⟩) : Calm e a (capSample p0 p1 p2 d) := by
  unfold capSample
  extract_lets x6000 x6001 x6002 x6003
  have hx6000 : Calm e a x6000 := by
    unfold x6000
    split
    · refine capFlush_calm ?_
      assumption
    · assumption
  clear_value x6000
  clear_value x6001
  clear_value x6002
  have hx6003 : Calm e a x6003 := by
    unfold x6003
    refine Device.setGrp_calm ?_
    assumption
  clear_value x6003
  split
  · assumption
  · split
    · refine capFlush_calm ?_
      assumption
    · assumption
theorem capStart_calm {e : Eff} {a : Device} {p0 : ℕ} {p1 : Time} {p2 : Time} {p3 : GrpState} {p4 : ℕ} {p5 : Bool} {d : Device} (h : Calm e a d) (e_u19 : Lets (e.unit 19) := by first | assumption | exact ⟨rfl⟩) : Calm e a (capStart p0 p1 p2 p3 p4 p5 d) := by
  unfold capStart
  extract_lets x6000 x6001 x6002
  clear_value x6000
  clear_value x6001
  clear_value x6002
  refine Device.setGrp_calm ?_
  assumption
theorem capTrigger_calm {e : Eff} {a : Device} {p0 : ℕ} {p1 : Time} {p2 : ℕ} {d : Device} (h : Calm e a d) (e_u19 : Lets (e.unit 19) := by first | assumption | exact ⟨rfl⟩) : Calm e a (capTrigger p0 p1 p2 d) := by
  unfold capTrigger
  extract_lets x6000 x6001 x6002 x6003
  clear_value x6000
  clear_value x6001
  have hx6002 : Calm e a x6002 := by
    unfold x6002
    refine Device.raiseSec_calm ?_
    refine Device.count_calm ?_
    assumption
  clear_value x6002
  clear_value x6003
  split
  · assumption
  · assumption
  · refine Device.setGrp_calm ?_
    assumption
  · refine Device.count_calm ?_
    refine capStart_calm ?_
    assumption
  · refine Device.count_calm ?_
    refine Device.setGrp_calm ?_
    assumption
theorem capViolate_calm {e : Eff} {a : Device} {p0 : ℕ} {p1 : Time} {p2 : ℕ} {d : Device} (h : Calm e a d) (e_u19 : Lets (e.unit 19) := by first | assumption | exact ⟨rfl⟩) : Calm e a (capViolate p0 p1 p2 d) := by
  unfold capViolate
  extract_lets x6000 x6001
  clear_value x6000
  clear_value x6001
  split
  · refine Device.count_calm ?_
    refine capStart_calm ?_
    assumption
  · refine Device.count_calm ?_
    refine Device.setGrp_calm ?_
    assumption
  · assumption
theorem trigEval_calm {e : Eff} {a : Device} {p0 : ℕ} {p1 : Time} {p2 : Bool} {d : Device} (h : Calm e a d) (e_u19 : Lets (e.unit 19) := by first | assumption | exact ⟨rfl⟩) : Calm e a (trigEval p0 p1 p2 d) := by
  unfold trigEval
  extract_lets x6000 x6001 x6002 x6003 x6004
  clear_value x6000
  clear_value x6001
  clear_value x6002
  clear_value x6003
  have hx6004 : Calm e a x6004 := by
    unfold x6004
    refine Device.setAcq_calm ?_
    assumption
  clear_value x6004
  split
  · apply calm_foldl
    · intro v57
      intro v56
      intro w55
      refine capTrigger_calm ?_
      assumption
    · assumption
  · assumption
theorem maskEval_calm {e : Eff} {a : Device} {p0 : ℕ} {d : Device} (h : Calm e a d) (e_u19 : Lets (e.unit 19) := by first | assumption | exact ⟨rfl⟩) : Calm e a (maskEval p0 d) := by
  unfold maskEval
  extract_lets x1 x2 x3 x4 x5
  clear_value x1
  clear_value x2
  clear_value x3
  clear_value x4
  clear_value x5
  split
  · assumption
  · extract_lets x6 x7 x8 x9 x10 x11
    clear_value x6
    clear_value x7
    clear_value x8
    clear_value x9
    clear_value x10
    have hx11 : Calm e a x11 := by
      unfold x11
      refine Device.setAcq_calm ?_
      assumption
    clear_value x11
    split
    · apply calm_foldl
      · intro v12
        intro v13
        intro v14
        refine capViolate_calm ?_
        assumption
      · assumption
    · assumption
theorem acqSample_calm {e : Eff} {a : Device} {p0 : ℕ} {p1 : Time} {p2 : Word} {p3 : Bool} {p4 : Bool} {p5 : Bool} {d : Device} (h : Calm e a d) (e_dd : Lets e.dd := by first | assumption | exact ⟨rfl⟩) (e_u19 : Lets (e.unit 19) := by first | assumption | exact ⟨rfl⟩) (e_u23 : Lets (e.unit 23) := by first | assumption | exact ⟨rfl⟩) : Calm e a (acqSample p0 p1 p2 p3 p4 p5 d) := by
  unfold acqSample
  extract_lets x6000 x6001 x6002 x6003 x6004 x6005 x6006 x6007
  clear_value x6000
  clear_value x6001
  clear_value x6002
  clear_value x6003
  clear_value x6004
  have hx6005 : Calm e a x6005 := by
    unfold x6005
    refine Device.setAcq_calm ?_
    assumption
  clear_value x6005
  have hx6006 : Calm e a x6006 := by
    unfold x6006
    apply calm_foldl
    · intro v58
      intro v57
      intro w56
      split
      · split
        · assumption
        · refine capSample_calm ?_
          assumption
      · assumption
    · assumption
  clear_value x6006
  have hx6007 : Calm e a x6007 := by
    unfold x6007
    apply calm_foldl
    · intro v58
      intro v57
      intro w56
      split
      · refine trigEval_calm ?_
        assumption
      · assumption
    · assumption
  clear_value x6007
  apply calm_foldl
  · intro v58
    intro v57
    intro w56
    split
    · refine maskEval_calm ?_
      assumption
    · assumption
  · assumption
theorem acqLocal_calm {e : Eff} {a : Device} {p0 : ℕ} {p1 : Time} {p2 : Word} {p3 : Bool} {p4 : Bool} {p5 : Bool} {d : Device} (h : Calm e a d) (e_dd : Lets e.dd := by first | assumption | exact ⟨rfl⟩) (e_u19 : Lets (e.unit 19) := by first | assumption | exact ⟨rfl⟩) (e_u23 : Lets (e.unit 23) := by first | assumption | exact ⟨rfl⟩) : Calm e a (acqLocal p0 p1 p2 p3 p4 p5 d) := by
  unfold acqLocal
  apply calm_foldl
  · intro v59
    intro v58
    intro w57
    refine acqSample_calm ?_
    assumption
  · assumption
theorem acqStream_calm {e : Eff} {a : Device} {p0 : ℕ} {p1 : Sample} {d : Device} (h : Calm e a d) (e_dd : Lets e.dd := by first | assumption | exact ⟨rfl⟩) (e_u19 : Lets (e.unit 19) := by first | assumption | exact ⟨rfl⟩) (e_u23 : Lets (e.unit 23) := by first | assumption | exact ⟨rfl⟩) : Calm e a (acqStream p0 p1 d) := by
  unfold acqStream
  apply calm_foldl
  · intro v59
    intro v58
    intro w57
    apply calm_foldl
    · intro v55
      intro v54
      intro w53
      refine acqSample_calm ?_
      assumption
    · assumption
  · assumption
theorem triggerEvalInstant_calm {e : Eff} {a : Device} {p0 : Bool} {d : Device} (h : Calm e a d) (e_u19 : Lets (e.unit 19) := by first | assumption | exact ⟨rfl⟩) : Calm e a (triggerEvalInstant p0 d) := by
  unfold triggerEvalInstant
  extract_lets x6000 x6001 x6002
  clear_value x6000
  clear_value x6001
  clear_value x6002
  split
  · assumption
  · apply calm_foldl
    · intro v57
      intro v56
      intro w55
      split
      · refine trigEval_calm ?_
        assumption
      · assumption
    · refine Device.setAcq_calm ?_
      assumption
theorem acqArm_calm {e : Eff} {a : Device} {p0 : ℕ} {d : Device} (h : Calm e a d) (e_u19 : Lets (e.unit 19) := by first | assumption | exact ⟨rfl⟩) : Calm e a (acqArm p0 d) := by
  unfold acqArm
  extract_lets x6000 x6001 x6002 x6003
  clear_value x6000
  clear_value x6001
  have hx6002 : Calm e a x6002 := by
    unfold x6002
    refine Device.setGrp_calm ?_
    refine Device.setf_calm ?_
    assumption
  clear_value x6002
  clear_value x6003
  split
  · assumption
  · split
    · refine acqErr_calm ?_
      assumption
    · split
      · refine acqErr_calm ?_
        assumption
      · split
        · refine acqErr_calm ?_
          assumption
        · split
          · refine acqErr_calm ?_
            assumption
          · split
            · refine capArm_calm ?_
              assumption
            · refine Device.setGrp_calm ?_
              assumption
theorem acqDisarm_calm {e : Eff} {a : Device} {p0 : ℕ} {d : Device} (h : Calm e a d) (e_dd : Lets e.dd := by first | assumption | exact ⟨rfl⟩) (e_u19 : Lets (e.unit 19) := by first | assumption | exact ⟨rfl⟩) (e_u23 : Lets (e.unit 23) := by first | assumption | exact ⟨rfl⟩) : Calm e a (acqDisarm p0 d) := by
  unfold acqDisarm
  extract_lets x6000 x6001 x6002
  have hx6000 : Calm e a x6000 := by
    unfold x6000
    refine capFlushAll_calm ?_
    assumption
  clear_value x6000
  have hx6001 : Calm e a x6001 := by
    unfold x6001
    split
    · split
      · refine recFinish_calm ?_
        assumption
      · assumption
    · assumption
  clear_value x6001
  clear_value x6002
  split
  · assumption
  · refine Device.setGrp_calm ?_
    assumption
theorem acqForce_calm {e : Eff} {a : Device} {p0 : ℕ} {d : Device} (h : Calm e a d) (e_u19 : Lets (e.unit 19) := by first | assumption | exact ⟨rfl⟩) : Calm e a (acqForce p0 d) := by
  unfold acqForce
  refine capTrigger_calm ?_
  assumption
theorem captureRecordEnd_calm {e : Eff} {a : Device} {p0 : ℕ} {d : Device} (h : Calm e a d) (e_dd : Lets e.dd := by first | assumption | exact ⟨rfl⟩) (e_u19 : Lets (e.unit 19) := by first | assumption | exact ⟨rfl⟩) (e_u23 : Lets (e.unit 23) := by first | assumption | exact ⟨rfl⟩) : Calm e a (captureRecordEnd p0 d) := by
  unfold captureRecordEnd
  split
  · extract_lets x5900
    have hx5900 : Calm e a x5900 := by
      unfold x5900
      refine capFlushAll_calm ?_
      assumption
    clear_value x5900
    split
    · refine capNext_calm ?_
      refine recFinish_calm ?_
      assumption
    · assumption
  · assumption
theorem acqSlotRelease_calm {e : Eff} {a : Device} {p0 : Word} {d : Device} (h : Calm e a d) (e_u19 : Lets (e.unit 19) := by first | assumption | exact ⟨rfl⟩) : Calm e a (acqSlotRelease p0 d) := by
  unfold acqSlotRelease
  extract_lets x6000 x6001 x6002 x6003
  clear_value x6000
  clear_value x6001
  clear_value x6002
  have hx6003 : Calm e a x6003 := by
    unfold x6003
    refine Device.setGrp_calm ?_
    assumption
  clear_value x6003
  split
  · assumption
  · split
    · split
      · refine capArm_calm ?_
        assumption
      · assumption
    · refine acqErr_calm ?_
      assumption
theorem acqDdrWrite_calm {e : Eff} {a : Device} {p0 : Word} {d : Device} (h : Calm e a d) (e_u19 : Lets (e.unit 19) := by first | assumption | exact ⟨rfl⟩) : Calm e a (acqDdrWrite p0 d) := by
  unfold acqDdrWrite
  extract_lets x6000
  clear_value x6000
  split
  · refine acqErr_calm ?_
    assumption
  · refine Device.wr_calm ?_
    assumption
theorem acqCtlWrite_calm {e : Eff} {a : Device} {p0 : ℕ} {p1 : Word} {d : Device} (h : Calm e a d) (e_dd : Lets e.dd := by first | assumption | exact ⟨rfl⟩) (e_u19 : Lets (e.unit 19) := by first | assumption | exact ⟨rfl⟩) (e_u23 : Lets (e.unit 23) := by first | assumption | exact ⟨rfl⟩) : Calm e a (acqCtlWrite p0 p1 d) := by
  unfold acqCtlWrite
  extract_lets x6000 x6001 x6002
  have hx6000 : Calm e a x6000 := by
    unfold x6000
    refine Device.setf_calm ?_
    assumption
  clear_value x6000
  have hx6001 : Calm e a x6001 := by
    unfold x6001
    split
    · refine acqArm_calm ?_
      assumption
    · assumption
  clear_value x6001
  have hx6002 : Calm e a x6002 := by
    unfold x6002
    split
    · refine acqDisarm_calm ?_
      assumption
    · assumption
  clear_value x6002
  split
  · refine acqForce_calm ?_
    assumption
  · assumption
/-! Parser. -/
theorem Device.countJ_calm {e : Eff} {a : Device} {d : Device} {p1 : Option JFrame} {p2 : Ctr} {p3 : optParam ℕ 1} (h : Calm e a d)
    (m_p2 : e.may (p2.base / 65536) := by first | assumption | exact Or.inl (by assumption) | exact Or.inr rfl | exact Or.inl ⟨rfl⟩ | (split <;> exact Or.inl (by assumption)) | exact Or.inl (‹∀ b, Lets (e.unit b)› _)) : Calm e a (Device.countJ d p1 p2 p3) := by
  unfold Device.countJ
  split
  · assumption
  · refine Device.countN_calm ?_
    assumption
theorem Device.strideIcmp_calm {e : Eff} {a : Device} {d : Device} {p1 : ℕ} {p2 : List Byte} {p3 : IpPkt} (h : Calm e a d) (e_u17 : Lets (e.unit 17) := by first | assumption | exact ⟨rfl⟩) : Calm e a (Device.strideIcmp d p1 p2 p3) := by
  unfold Device.strideIcmp
  extract_lets x6000 x6001
  have hx6000 : Calm e a x6000 := by
    unfold x6000
    refine Device.emit_calm ?_
    assumption
  clear_value x6000
  clear_value x6001
  split
  · assumption
  · split
    · assumption
    · refine Device.txPush_calm ?_
      assumption
theorem Device.journalFrame_calm {e : Eff} {a : Device} {d : Device} {p1 : ℕ} {p2 : Bool} {p3 : Bool} {p4 : List ℕ} {p5 : Time} {p6 : List Byte} (h : Calm e a d) (e_dd : Lets e.dd := by first | assumption | exact ⟨rfl⟩) (e_jnl : Lets e.jnl := by first | assumption | exact ⟨rfl⟩) : Calm e a (Device.journalFrame d p1 p2 p3 p4 p5 p6) := by
  unfold Device.journalFrame
  refine Device.journal_calm ?_
  assumption
theorem Device.setStrm_calm {e : Eff} {a : Device} {d : Device} {p1 : ℕ} {p2 : StreamSt} (h : Calm e a d) (e_u4 : Lets (e.unit 4) := by first | assumption | exact ⟨rfl⟩) : Calm e a (Device.setStrm d p1 p2) := by
  unfold Device.setStrm
  refine Calm.upd_ing ?_
  assumption
theorem Device.setTcp_calm {e : Eff} {a : Device} {d : Device} {p1 : ℕ} {p2 : TcpRx} (h : Calm e a d) (e_u4 : Lets (e.unit 4) := by first | assumption | exact ⟨rfl⟩) : Calm e a (Device.setTcp d p1 p2) := by
  unfold Device.setTcp
  refine Calm.upd_ing ?_
  assumption
theorem Device.tcpSay_calm {e : Eff} {a : Device} {d : Device} {p1 : ℕ} {p2 : List Byte} (h : Calm e a d) (e_u4 : Lets (e.unit 4) := by first | assumption | exact ⟨rfl⟩) : Calm e a (Device.tcpSay d p1 p2) := by
  unfold Device.tcpSay
  extract_lets x1
  clear_value x1
  split
  · refine Device.emit_calm ?_
    refine Device.setTcp_calm ?_
    assumption
  · assumption
theorem Device.tcpAsk_calm {e : Eff} {a : Device} {d : Device} {p1 : ℕ} (h : Calm e a d) (e_u4 : Lets (e.unit 4) := by first | assumption | exact ⟨rfl⟩) : Calm e a (Device.tcpAsk d p1) := by
  unfold Device.tcpAsk
  extract_lets x6000
  clear_value x6000
  refine Device.tcpSay_calm ?_
  refine Device.tcpSay_calm ?_
  assumption
theorem Device.askCfg_calm {e : Eff} {a : Device} {d : Device} {p1 : ℕ} {p2 : List Word} {p3 : Option ℕ} {p4 : List Byte} (h : Calm e a d) (e_u4 : Lets (e.unit 4) := by first | assumption | exact ⟨rfl⟩) : Calm e a (Device.askCfg d p1 p2 p3 p4) := by
  unfold Device.askCfg
  split
  · assumption
  · extract_lets x1
    clear_value x1
    split
    · assumption
    · refine Device.tcpAsk_calm ?_
      refine Device.setStrm_calm ?_
      assumption
theorem Device.cfgCheck_calm {e : Eff} {a : Device} {d : Device} {p1 : ℕ} {p2 : List Word} {p3 : List Byte} (h : Calm e a d) (e_u4 : Lets (e.unit 4) := by first | assumption | exact ⟨rfl⟩) (e_u6 : Lets (e.unit 6) := by first | assumption | exact ⟨rfl⟩) : Calm e a (Device.cfgCheck d p1 p2 p3) := by
  unfold Device.cfgCheck
  extract_lets x6000 x6001 x6002
  clear_value x6000
  clear_value x6001
  have hx6002 : Calm e a x6002 := by
    unfold x6002
    refine Device.setStrm_calm ?_
    assumption
  clear_value x6002
  split
  · assumption
  · refine Device.raise_calm ?_
    refine Device.setf_calm ?_
    refine Device.setf_calm ?_
    assumption
theorem Device.cfg3Frame_calm {e : Eff} {a : Device} {d : Device} {p1 : ℕ} {p2 : List Word} {p3 : List Byte} (h : Calm e a d) (e_u4 : Lets (e.unit 4) := by first | assumption | exact ⟨rfl⟩) (e_u6 : Lets (e.unit 6) := by first | assumption | exact ⟨rfl⟩) : Calm e a (Device.cfg3Frame d p1 p2 p3) := by
  unfold Device.cfg3Frame
  extract_lets x6000 x6001
  clear_value x6000
  clear_value x6001
  split
  · refine Device.cfgCheck_calm ?_
    assumption
  · split
    · refine Device.setStrm_calm ?_
      assumption
    · split
      · refine Device.setStrm_calm ?_
        assumption
      · split
        · refine Device.cfgCheck_calm ?_
          refine Device.setStrm_calm ?_
          assumption
        · refine Device.setStrm_calm ?_
          assumption
theorem Device.cfgFrame_calm {e : Eff} {a : Device} {d : Device} {p1 : ℕ} {p2 : Option ℕ} {p3 : ℕ} {p4 : List Word} {p5 : ℕ} {p6 : Time} {p7 : List Byte} {p8 : List Byte} {p9 : Option JFrame} (h : Calm e a d) (e_dd : Lets e.dd := by first | assumption | exact ⟨rfl⟩) (e_jnl : Lets e.jnl := by first | assumption | exact ⟨rfl⟩) (e_u4 : Lets (e.unit 4) := by first | assumption | exact ⟨rfl⟩) (e_u6 : Lets (e.unit 6) := by first | assumption | exact ⟨rfl⟩) : Calm e a (Device.cfgFrame d p1 p2 p3 p4 p5 p6 p7 p8 p9) := by
  unfold Device.cfgFrame
  split
  · assumption
  · extract_lets x5900
    have hx5900 : Calm e a x5900 := by
      unfold x5900
      refine Device.journalFrame_calm ?_
      refine Device.count_calm ?_
      assumption
    clear_value x5900
    split
    · refine Device.cfgCheck_calm ?_
      assumption
    · split
      · refine Device.cfg3Frame_calm ?_
        assumption
      · assumption
theorem Device.deliverJ_calm {e : Eff} {a : Device} {d : Device} {p1 : Option JFrame} {p2 : List Arrival} (h : Calm e a d) (e_dd : Lets e.dd := by first | assumption | exact ⟨rfl⟩) (e_jnl : Lets e.jnl := by first | assumption | exact ⟨rfl⟩) (e_u6 : Lets (e.unit 6) := by first | assumption | exact ⟨rfl⟩) (e_u8 : Lets (e.unit 8) := by first | assumption | exact ⟨rfl⟩) (e_u10 : Lets (e.unit 10) := by first | assumption | exact ⟨rfl⟩) (e_u12 : Lets (e.unit 12) := by first | assumption | exact ⟨rfl⟩) (e_u16 : Lets (e.unit 16) := by first | assumption | exact ⟨rfl⟩) (e_u17 : Lets (e.unit 17) := by first | assumption | exact ⟨rfl⟩) (e_u20 : Lets (e.unit 20) := by first | assumption | exact ⟨rfl⟩) (e_u21 : Lets (e.unit 21) := by first | assumption | exact ⟨rfl⟩) (e_u23 : Lets (e.unit 23) := by first | assumption | exact ⟨rfl⟩) (e_u24 : Lets (e.unit 24) := by first | assumption | exact ⟨rfl⟩) (e_u26 : Lets (e.unit 26) := by first | assumption | exact ⟨rfl⟩) : Calm e a (Device.deliverJ d p1 p2).2 := by
  unfold Device.deliverJ
  split
  · refine Device.deliver_calm ?_
    assumption
  · dsimp only
    apply calm_foldl
    · intro v1
      intro v2
      intro v3
      split
      · assumption
      · refine Device.pfaArrive_calm ?_
        refine Device.count_calm ?_
        assumption
    · assumption
theorem Device.dataFrame_calm {e : Eff} {a : Device} {d : Device} {p1 : ℕ} {p2 : Option ℕ} {p3 : ℕ} {p4 : List Word} {p5 : Time} {p6 : List Byte} {p7 : List Byte} {p8 : Option JFrame} (h : Calm e a d) (e_dd : Lets e.dd := by first | assumption | exact ⟨rfl⟩) (e_jnl : Lets e.jnl := by first | assumption | exact ⟨rfl⟩) (e_u6 : Lets (e.unit 6) := by first | assumption | exact ⟨rfl⟩) (e_u8 : Lets (e.unit 8) := by first | assumption | exact ⟨rfl⟩) (e_u10 : Lets (e.unit 10) := by first | assumption | exact ⟨rfl⟩) (e_u12 : Lets (e.unit 12) := by first | assumption | exact ⟨rfl⟩) (e_u16 : Lets (e.unit 16) := by first | assumption | exact ⟨rfl⟩) (e_u17 : Lets (e.unit 17) := by first | assumption | exact ⟨rfl⟩) (e_u20 : Lets (e.unit 20) := by first | assumption | exact ⟨rfl⟩) (e_u21 : Lets (e.unit 21) := by first | assumption | exact ⟨rfl⟩) (e_u23 : Lets (e.unit 23) := by first | assumption | exact ⟨rfl⟩) (e_u24 : Lets (e.unit 24) := by first | assumption | exact ⟨rfl⟩) (e_u26 : Lets (e.unit 26) := by first | assumption | exact ⟨rfl⟩) : Calm e a (Device.dataFrame d p1 p2 p3 p4 p5 p6 p7 p8) := by
  unfold Device.dataFrame
  extract_lets x1 x2 x3 x4 x5 x6 x7 x8 x9 x10
  clear_value x1
  clear_value x2
  clear_value x3
  clear_value x4
  clear_value x5
  clear_value x6
  have hx7 : Calm e a x7 := by
    unfold x7
    refine Device.countJ_calm ?_
    assumption
  clear_value x7
  clear_value x8
  have hx9 : Calm e a x9 := by
    unfold x9
    refine Device.countJ_calm ?_
    assumption
  clear_value x9
  have hx10 : Calm e a x10.2 := by
    unfold x10
    refine Device.deliverJ_calm ?_
    assumption
  clear_value x10
  split
  · assumption
  · split
    · assumption
    · refine Device.journalFrame_calm ?_
      assumption
theorem c37Check_blk {udp : Bool} {b : List Byte} {c : Ctr} (h : c37Check udp b = some c) : c.base / 65536 = 6 := by
  unfold c37Check at h
  extract_lets size ver typ at h
  split at h
  · cases h; rfl
  · split at h
    · cases h; rfl
    · split at h
      · cases h; rfl
      · cases h
theorem Device.c37Frame_calm {e : Eff} {a d : Device} {p : Nat} {tcp : Option Nat} {arr : Time} {raw f : List Byte} {js : Option JFrame} (h : Calm e a d) (e_u26 : Lets (e.unit 26) := by first | assumption | exact ⟨rfl⟩) (e_dd : Lets e.dd := by first | assumption | exact ⟨rfl⟩) (e_jnl : Lets e.jnl := by first | assumption | exact ⟨rfl⟩) (e_u4 : Lets (e.unit 4) := by first | assumption | exact ⟨rfl⟩) (e_u6 : Lets (e.unit 6) := by first | assumption | exact ⟨rfl⟩) (e_u8 : Lets (e.unit 8) := by first | assumption | exact ⟨rfl⟩) (e_u10 : Lets (e.unit 10) := by first | assumption | exact ⟨rfl⟩) (e_u12 : Lets (e.unit 12) := by first | assumption | exact ⟨rfl⟩) (e_u16 : Lets (e.unit 16) := by first | assumption | exact ⟨rfl⟩) (e_u17 : Lets (e.unit 17) := by first | assumption | exact ⟨rfl⟩) (e_u20 : Lets (e.unit 20) := by first | assumption | exact ⟨rfl⟩) (e_u21 : Lets (e.unit 21) := by first | assumption | exact ⟨rfl⟩) (e_u23 : Lets (e.unit 23) := by first | assumption | exact ⟨rfl⟩) (e_u24 : Lets (e.unit 24) := by first | assumption | exact ⟨rfl⟩) : Calm e a (d.c37Frame p tcp arr raw f js) := by
  unfold Device.c37Frame
  split
  · rename_i hc
    have hu : Lets (e.unit 6) := by assumption
    exact Device.countJ_calm h (Or.inl (c37Check_blk hc ▸ hu))
  · extract_lets id mine typ b
    split
    · exact Device.countJ_calm h
    · extract_lets d1
      have h1 : Calm e a d1 := by
        unfold d1
        split
        · exact Device.countJ_calm h
        · exact Device.dataFrame_calm h
      split
      · exact Device.cfgFrame_calm h
      · split
        · exact h1
        · exact Device.askCfg_calm h1
theorem Device.gooseApdu_calm {e : Eff} {a d : Device} {st pos : Nat} {p : GooseApdu} {arr : Time} {ok : Bool} {js : Option JFrame}
    (h : Calm e a d) (e_u4 : Lets (e.unit 4) := by first | assumption | exact ⟨rfl⟩) (e_u6 : Lets (e.unit 6) := by first | assumption | exact ⟨rfl⟩) : Calm e a (d.gooseApdu st pos p arr ok js).2 := by
  have hp : ∀ x, Calm e a (d.setStrm st x) := fun x => Device.setStrm_calm h
  unfold Device.gooseApdu
  extract_lets x m put
  split
  · exact hp _
  · split
    · exact hp _
    · split
      · exact Device.countJ_calm h
      · split
        · exact hp _
        · exact h
theorem Device.goosePdus_calm {e : Eff} {a : Device} {d : Device} {p1 : ℕ} {p2 : List Word} {p3 : Spdu} {p4 : Time} {p5 : Bool} {p6 : Option JFrame} (h : Calm e a d) (e_u4 : Lets (e.unit 4) := by first | assumption | exact ⟨rfl⟩) (e_u6 : Lets (e.unit 6) := by first | assumption | exact ⟨rfl⟩) : Calm e a (Device.goosePdus d p1 p2 p3 p4 p5 p6).2 := by
  unfold Device.goosePdus
  apply calm_foldl2
  · intro v1
    intro v2
    intro v3
    split
    · split
      · extract_lets x4
        have hx4 : Calm e a x4.2 := by
          unfold x4
          refine Device.gooseApdu_calm ?_
          assumption
        clear_value x4
        dsimp only
        assumption
      · assumption
    · assumption
  · dsimp only
    assumption
theorem Device.svWrite_calm {e : Eff} {a : Device} {d : Device} {p1 : ℕ} {p2 : Sample} (h : Calm e a d) (e_dd : Lets e.dd := by first | assumption | exact ⟨rfl⟩) (e_u4 : Lets (e.unit 4) := by first | assumption | exact ⟨rfl⟩) (e_u19 : Lets (e.unit 19) := by first | assumption | exact ⟨rfl⟩) (e_u23 : Lets (e.unit 23) := by first | assumption | exact ⟨rfl⟩) : Calm e a (Device.svWrite d p1 p2) := by
  unfold Device.svWrite
  extract_lets x6000 x6001
  clear_value x6000
  clear_value x6001
  refine acqStream_calm ?_
  refine Calm.upd_ing ?_
  assumption
theorem Device.journalSv_calm {e : Eff} {a : Device} {d : Device} {p1 : ℕ} {p2 : Sample} (h : Calm e a d) (e_dd : Lets e.dd := by first | assumption | exact ⟨rfl⟩) (e_jnl : Lets e.jnl := by first | assumption | exact ⟨rfl⟩) : Calm e a (Device.journalSv d p1 p2) := by
  unfold Device.journalSv
  refine Device.journalW_calm ?_
  assumption
theorem Device.svAsdu_calm {e : Eff} {a : Device} {d : Device} {p1 : ℕ} {p2 : Time} {p3 : Bool} {p4 : Asdu} (h : Calm e a d) (e_dd : Lets e.dd := by first | assumption | exact ⟨rfl⟩) (e_jnl : Lets e.jnl := by first | assumption | exact ⟨rfl⟩) (e_u4 : Lets (e.unit 4) := by first | assumption | exact ⟨rfl⟩) (e_u6 : Lets (e.unit 6) := by first | assumption | exact ⟨rfl⟩) (e_u19 : Lets (e.unit 19) := by first | assumption | exact ⟨rfl⟩) (e_u23 : Lets (e.unit 23) := by first | assumption | exact ⟨rfl⟩) : Calm e a (Device.svAsdu d p1 p2 p3 p4) := by
  unfold Device.svAsdu
  split
  · assumption
  · split
    · refine Device.count_calm ?_
      assumption
    · extract_lets x1 x2
      clear_value x1
      clear_value x2
      refine Device.journalSv_calm ?_
      refine Device.svWrite_calm ?_
      refine Device.setStrm_calm ?_
      assumption
theorem Device.svLost_calm {e : Eff} {a : Device} {d : Device} {p1 : List (Option Asdu)} (h : Calm e a d) (e_u6 : Lets (e.unit 6) := by first | assumption | exact ⟨rfl⟩) : Calm e a (Device.svLost d p1) := by
  unfold Device.svLost
  extract_lets x1
  have hx1 : Calm e a x1 := by
    unfold x1
    refine Device.countN_calm ?_
    assumption
  clear_value x1
  split
  · assumption
  · refine Device.count_calm ?_
    assumption
theorem Device.svAsdus_calm {e : Eff} {a : Device} {d : Device} {p1 : ℕ} {p2 : ℕ} {p3 : List Word} {p4 : Time} {p5 : Bool} {p6 : List (Option Asdu)} (h : Calm e a d) (e_dd : Lets e.dd := by first | assumption | exact ⟨rfl⟩) (e_jnl : Lets e.jnl := by first | assumption | exact ⟨rfl⟩) (e_u4 : Lets (e.unit 4) := by first | assumption | exact ⟨rfl⟩) (e_u6 : Lets (e.unit 6) := by first | assumption | exact ⟨rfl⟩) (e_u19 : Lets (e.unit 19) := by first | assumption | exact ⟨rfl⟩) (e_u23 : Lets (e.unit 23) := by first | assumption | exact ⟨rfl⟩) : Calm e a (Device.svAsdus d p1 p2 p3 p4 p5 p6) := by
  unfold Device.svAsdus
  extract_lets x1 x2
  clear_value x1
  have hx2 : Calm e a x2 := by
    unfold x2
    refine Device.countN_calm ?_
    assumption
  clear_value x2
  split
  · apply calm_foldl
    · intro v3
      intro v4
      intro v5
      refine Device.svAsdu_calm ?_
      assumption
    · assumption
  · split
    · assumption
    · refine Device.count_calm ?_
      assumption
theorem Device.svFrame_calm {e : Eff} {a : Device} {d : Device} {p1 : ℕ} {p2 : Time} {p3 : List Byte} (h : Calm e a d) (e_dd : Lets e.dd := by first | assumption | exact ⟨rfl⟩) (e_jnl : Lets e.jnl := by first | assumption | exact ⟨rfl⟩) (e_u4 : Lets (e.unit 4) := by first | assumption | exact ⟨rfl⟩) (e_u6 : Lets (e.unit 6) := by first | assumption | exact ⟨rfl⟩) (e_u19 : Lets (e.unit 19) := by first | assumption | exact ⟨rfl⟩) (e_u23 : Lets (e.unit 23) := by first | assumption | exact ⟨rfl⟩) : Calm e a (Device.svFrame d p1 p2 p3) := by
  unfold Device.svFrame
  extract_lets x1 x2
  clear_value x1
  clear_value x2
  split
  · refine Device.count_calm ?_
    assumption
  · split
    · split
      · refine Device.countN_calm ?_
        assumption
      · refine Device.svLost_calm ?_
        assumption
    · refine Device.svAsdus_calm ?_
      assumption
theorem Device.a905Stream_calm {e : Eff} {a : Device} {d : Device} {p1 : ℕ} {p2 : ℕ} {p3 : List Word} {p4 : Time} {p5 : List Byte} {p6 : Spdu} {p7 : Option JFrame} (h : Calm e a d) (e_dd : Lets e.dd := by first | assumption | exact ⟨rfl⟩) (e_jnl : Lets e.jnl := by first | assumption | exact ⟨rfl⟩) (e_u4 : Lets (e.unit 4) := by first | assumption | exact ⟨rfl⟩) (e_u6 : Lets (e.unit 6) := by first | assumption | exact ⟨rfl⟩) (e_u19 : Lets (e.unit 19) := by first | assumption | exact ⟨rfl⟩) (e_u23 : Lets (e.unit 23) := by first | assumption | exact ⟨rfl⟩) : Calm e a (Device.a905Stream d p1 p2 p3 p4 p5 p6 p7) := by
  unfold Device.a905Stream
  extract_lets x1 x2 x3 x4 x5 x6 x7 x8
  clear_value x1
  have hx2 : Calm e a x2 := by
    unfold x2
    split
    · refine Device.noteRead_calm ?_
      assumption
    · assumption
  clear_value x2
  clear_value x3
  have hx4 : Calm e a x4 := by
    unfold x4
    split
    · refine Device.setStrm_calm ?_
      refine Device.raiseSec_calm ?_
      refine Device.count_calm ?_
      assumption
    · assumption
  clear_value x4
  clear_value x5
  clear_value x6
  have hx7 : Calm e a x7 := by
    unfold x7
    split
    · refine Device.setStrm_calm ?_
      assumption
    · assumption
  clear_value x7
  have hx8 : Calm e a x8.2 := by
    unfold x8
    refine Device.goosePdus_calm ?_
    assumption
  clear_value x8
  split
  · refine Device.count_calm ?_
    assumption
  · split
    · assumption
    · split
      · split
        · assumption
        · refine Device.svAsdus_calm ?_
          assumption
      · split
        · refine Device.countJ_calm ?_
          assumption
        · split
          · assumption
          · split
            · refine Device.journalFrame_calm ?_
              assumption
            · assumption
theorem Device.a905Frame_calm {e : Eff} {a : Device} {d : Device} {p1 : ℕ} {p2 : Time} {p3 : List Byte} {p4 : List Byte} {p5 : Option JFrame} (h : Calm e a d) (e_dd : Lets e.dd := by first | assumption | exact ⟨rfl⟩) (e_jnl : Lets e.jnl := by first | assumption | exact ⟨rfl⟩) (e_u4 : Lets (e.unit 4) := by first | assumption | exact ⟨rfl⟩) (e_u6 : Lets (e.unit 6) := by first | assumption | exact ⟨rfl⟩) (e_u19 : Lets (e.unit 19) := by first | assumption | exact ⟨rfl⟩) (e_u23 : Lets (e.unit 23) := by first | assumption | exact ⟨rfl⟩) : Calm e a (Device.a905Frame d p1 p2 p3 p4 p5) := by
  unfold Device.a905Frame
  split
  · refine Device.countJ_calm ?_
    assumption
  · split
    · refine Device.countJ_calm ?_
      assumption
    · split
      · assumption
      · split
        · split
          · refine Device.countJ_calm ?_
            assumption
          · refine Device.a905Stream_calm ?_
            assumption
        · split
          · refine Device.countJ_calm ?_
            assumption
          · split
            · split
              · assumption
              · refine Device.svLost_calm ?_
                assumption
            · refine Device.a905Stream_calm ?_
              assumption
theorem Device.parse_calm {e : Eff} {a : Device} {d : Device} {p1 : ℕ} {p2 : RxFrame} (h : Calm e a d) (e_u26 : Lets (e.unit 26) := by first | assumption | exact ⟨rfl⟩) (e_dd : Lets e.dd := by first | assumption | exact ⟨rfl⟩) (e_jnl : Lets e.jnl := by first | assumption | exact ⟨rfl⟩) (e_u4 : Lets (e.unit 4) := by first | assumption | exact ⟨rfl⟩) (e_u6 : Lets (e.unit 6) := by first | assumption | exact ⟨rfl⟩) (e_u8 : Lets (e.unit 8) := by first | assumption | exact ⟨rfl⟩) (e_u10 : Lets (e.unit 10) := by first | assumption | exact ⟨rfl⟩) (e_u12 : Lets (e.unit 12) := by first | assumption | exact ⟨rfl⟩) (e_u16 : Lets (e.unit 16) := by first | assumption | exact ⟨rfl⟩) (e_u17 : Lets (e.unit 17) := by first | assumption | exact ⟨rfl⟩) (e_u19 : Lets (e.unit 19) := by first | assumption | exact ⟨rfl⟩) (e_u20 : Lets (e.unit 20) := by first | assumption | exact ⟨rfl⟩) (e_u21 : Lets (e.unit 21) := by first | assumption | exact ⟨rfl⟩) (e_u23 : Lets (e.unit 23) := by first | assumption | exact ⟨rfl⟩) (e_u24 : Lets (e.unit 24) := by first | assumption | exact ⟨rfl⟩) (e_all : ∀ b, Lets (e.unit b) := by first | assumption | exact ⟨rfl⟩) : Calm e a (Device.parse d p1 p2) := by
  unfold Device.parse
  split
  · refine Device.count_calm ?_
    assumption
  · refine Device.emit_calm ?_
    assumption
  · refine Device.strideIcmp_calm ?_
    assumption
  · refine Calm.upd_ing ?_
    assumption
  · refine Calm.upd_ing ?_
    assumption
  · refine Calm.upd_ing ?_
    assumption
  · refine Device.c37Frame_calm ?_
    assumption
  · refine Device.a905Frame_calm ?_
    assumption
  · refine Device.svFrame_calm ?_
    assumption
theorem Device.applyFrame_calm {e : Eff} {a : Device} {d : Device} {p1 : ℕ} {p2 : Bool} {p3 : Bool} {p4 : List ℕ} {p5 : Time} {p6 : List Byte} (h : Calm e a d) (e_dd : Lets e.dd := by first | assumption | exact ⟨rfl⟩) (e_jnl : Lets e.jnl := by first | assumption | exact ⟨rfl⟩) (e_u4 : Lets (e.unit 4) := by first | assumption | exact ⟨rfl⟩) (e_u6 : Lets (e.unit 6) := by first | assumption | exact ⟨rfl⟩) (e_u8 : Lets (e.unit 8) := by first | assumption | exact ⟨rfl⟩) (e_u10 : Lets (e.unit 10) := by first | assumption | exact ⟨rfl⟩) (e_u12 : Lets (e.unit 12) := by first | assumption | exact ⟨rfl⟩) (e_u16 : Lets (e.unit 16) := by first | assumption | exact ⟨rfl⟩) (e_u17 : Lets (e.unit 17) := by first | assumption | exact ⟨rfl⟩) (e_u19 : Lets (e.unit 19) := by first | assumption | exact ⟨rfl⟩) (e_u20 : Lets (e.unit 20) := by first | assumption | exact ⟨rfl⟩) (e_u21 : Lets (e.unit 21) := by first | assumption | exact ⟨rfl⟩) (e_u23 : Lets (e.unit 23) := by first | assumption | exact ⟨rfl⟩) (e_u24 : Lets (e.unit 24) := by first | assumption | exact ⟨rfl⟩) (e_u26 : Lets (e.unit 26) := by first | assumption | exact ⟨rfl⟩) : Calm e a (Device.applyFrame d p1 p2 p3 p4 p5 p6) := by
  unfold Device.applyFrame
  extract_lets x1
  clear_value x1
  split
  · refine Device.c37Frame_calm ?_
    assumption
  · split
    · refine Device.c37Frame_calm ?_
      assumption
    · refine Device.a905Frame_calm ?_
      assumption
    · assumption
theorem Device.fifoRead_calm {e : Eff} {a : Device} {d : Device} {p1 : ℕ} {p2 : RxFrame} {p3 : Bool} (h : Calm e a d) (e_u10 : Lets (e.unit 10) := by first | assumption | exact ⟨rfl⟩) (e_u26 : Lets (e.unit 26) := by first | assumption | exact ⟨rfl⟩) : Calm e a (Device.fifoRead d p1 p2 p3).2 := by
  unfold Device.fifoRead
  extract_lets x6000 x6001 x6002
  clear_value x6000
  clear_value x6001
  have hx6002 : Calm e a x6002 := by
    unfold x6002
    split
    · refine Device.memUe_calm ?_
      assumption
    · refine Device.memRead_calm ?_
      assumption
  clear_value x6002
  dsimp only
  refine Device.memClean_calm ?_
  assumption
theorem parserTurn_calm {e : Eff} {a : Device} {p0 : Bool} {d : Device} (h : Calm e a d) (e_dd : Lets e.dd := by first | assumption | exact ⟨rfl⟩) (e_jnl : Lets e.jnl := by first | assumption | exact ⟨rfl⟩) (e_u4 : Lets (e.unit 4) := by first | assumption | exact ⟨rfl⟩) (e_u6 : Lets (e.unit 6) := by first | assumption | exact ⟨rfl⟩) (e_u8 : Lets (e.unit 8) := by first | assumption | exact ⟨rfl⟩) (e_u10 : Lets (e.unit 10) := by first | assumption | exact ⟨rfl⟩) (e_u12 : Lets (e.unit 12) := by first | assumption | exact ⟨rfl⟩) (e_u16 : Lets (e.unit 16) := by first | assumption | exact ⟨rfl⟩) (e_u17 : Lets (e.unit 17) := by first | assumption | exact ⟨rfl⟩) (e_u19 : Lets (e.unit 19) := by first | assumption | exact ⟨rfl⟩) (e_u20 : Lets (e.unit 20) := by first | assumption | exact ⟨rfl⟩) (e_u21 : Lets (e.unit 21) := by first | assumption | exact ⟨rfl⟩) (e_u23 : Lets (e.unit 23) := by first | assumption | exact ⟨rfl⟩) (e_u24 : Lets (e.unit 24) := by first | assumption | exact ⟨rfl⟩) (e_u26 : Lets (e.unit 26) := by first | assumption | exact ⟨rfl⟩) (e_all : ∀ b, Lets (e.unit b) := by first | assumption | exact ⟨rfl⟩) : Calm e a (parserTurn p0 d) := by
  unfold parserTurn
  split
  · assumption
  · split
    · assumption
    · extract_lets x5800 x5801 x5802
      have hx5800 : Calm e a x5800 := by
        unfold x5800
        refine Device.fifoTake_calm ?_
        assumption
      clear_value x5800
      clear_value x5801
      have hx5802 : Calm e a x5802.2 := by
        unfold x5802
        refine Device.fifoRead_calm ?_
        refine Calm.upd_ing ?_
        assumption
      clear_value x5802
      split
      · refine Device.parse_calm ?_
        refine Device.count_calm ?_
        assumption
      · assumption
theorem Device.tcpOpened_calm {e : Eff} {a : Device} {d : Device} {p1 : ℕ} {p2 : ℕ} (h : Calm e a d) (e_u4 : Lets (e.unit 4) := by first | assumption | exact ⟨rfl⟩) : Calm e a (Device.tcpOpened d p1 p2) := by
  unfold Device.tcpOpened
  extract_lets x1 x2
  clear_value x1
  have hx2 : Calm e a x2 := by
    unfold x2
    refine Device.setTcp_calm ?_
    assumption
  clear_value x2
  refine Device.tcpAsk_calm ?_
  refine Device.raise_calm ?_
  refine Calm.upd_free ?_
  assumption
theorem tcpConnectionOpen_calm {e : Eff} {a : Device} {p0 : ℕ} {p1 : ℕ} {d : Device} (h : Calm e a d) (e_u4 : Lets (e.unit 4) := by first | assumption | exact ⟨rfl⟩) : Calm e a (tcpConnectionOpen p0 p1 d) := by
  unfold tcpConnectionOpen
  split
  · refine Device.tcpOpened_calm ?_
    assumption
  · assumption
theorem tcpReconnectExpiry_calm {e : Eff} {a : Device} {p0 : ℕ} {p1 : Bool} {p2 : ℕ} {d : Device} (h : Calm e a d) (e_u4 : Lets (e.unit 4) := by first | assumption | exact ⟨rfl⟩) : Calm e a (tcpReconnectExpiry p0 p1 p2 d) := by
  unfold tcpReconnectExpiry
  extract_lets x6000 x6001
  clear_value x6000
  clear_value x6001
  split
  · assumption
  · split
    · assumption
    · split
      · refine Device.tcpOpened_calm ?_
        assumption
      · refine Device.setTcp_calm ?_
        assumption
theorem Device.tcpLost_calm {e : Eff} {a : Device} {d : Device} {p1 : ℕ} (h : Calm e a d) (e_u4 : Lets (e.unit 4) := by first | assumption | exact ⟨rfl⟩) : Calm e a (Device.tcpLost d p1) := by
  unfold Device.tcpLost
  refine Device.raise_calm ?_
  refine Device.setTcp_calm ?_
  assumption
theorem Device.tcpEnd_calm {e : Eff} {a : Device} {d : Device} {p1 : ℕ} (h : Calm e a d) (e_u4 : Lets (e.unit 4) := by first | assumption | exact ⟨rfl⟩) : Calm e a (Device.tcpEnd d p1) := by
  unfold Device.tcpEnd
  split
  · refine Device.raise_calm ?_
    refine Device.setTcp_calm ?_
    assumption
  · refine Device.setTcp_calm ?_
    assumption
theorem Device.tcpEndAll_calm {e : Eff} {a : Device} {d : Device} (h : Calm e a d) (e_u4 : Lets (e.unit 4) := by first | assumption | exact ⟨rfl⟩) : Calm e a (Device.tcpEndAll d) := by
  unfold Device.tcpEndAll
  apply calm_foldl
  · intro v59
    intro v58
    intro w57
    refine Device.tcpEnd_calm ?_
    assumption
  · assumption
theorem Device.tcpAckNow_calm {e : Eff} {a : Device} {d : Device} {p1 : ℕ} (h : Calm e a d) : Calm e a (Device.tcpAckNow d p1) := by
  unfold Device.tcpAckNow
  extract_lets x1
  clear_value x1
  split
  · refine Device.emit_calm ?_
    assumption
  · assumption
theorem Device.tcpSegment_calm {e : Eff} {a : Device} {d : Device} {p1 : ℕ} {p2 : ℕ} {p3 : Time} {p4 : List Byte} (h : Calm e a d) (e_dd : Lets e.dd := by first | assumption | exact ⟨rfl⟩) (e_jnl : Lets e.jnl := by first | assumption | exact ⟨rfl⟩) (e_u4 : Lets (e.unit 4) := by first | assumption | exact ⟨rfl⟩) (e_u6 : Lets (e.unit 6) := by first | assumption | exact ⟨rfl⟩) (e_u8 : Lets (e.unit 8) := by first | assumption | exact ⟨rfl⟩) (e_u10 : Lets (e.unit 10) := by first | assumption | exact ⟨rfl⟩) (e_u12 : Lets (e.unit 12) := by first | assumption | exact ⟨rfl⟩) (e_u16 : Lets (e.unit 16) := by first | assumption | exact ⟨rfl⟩) (e_u17 : Lets (e.unit 17) := by first | assumption | exact ⟨rfl⟩) (e_u20 : Lets (e.unit 20) := by first | assumption | exact ⟨rfl⟩) (e_u21 : Lets (e.unit 21) := by first | assumption | exact ⟨rfl⟩) (e_u23 : Lets (e.unit 23) := by first | assumption | exact ⟨rfl⟩) (e_u24 : Lets (e.unit 24) := by first | assumption | exact ⟨rfl⟩) (e_u26 : Lets (e.unit 26) := by first | assumption | exact ⟨rfl⟩) : Calm e a (Device.tcpSegment d p1 p2 p3 p4) := by
  unfold Device.tcpSegment
  extract_lets x1 x2 x3 x4 x5 x6 x7 x8
  clear_value x1
  clear_value x2
  clear_value x3
  clear_value x4
  clear_value x5
  clear_value x6
  have hx7 : Calm e a x7 := by
    unfold x7
    refine Device.tcpAckNow_calm ?_
    refine Device.setTcp_calm ?_
    assumption
  clear_value x7
  have hx8 : Calm e a x8 := by
    unfold x8
    split
    · refine Device.setTcp_calm ?_
      assumption
    · split
      · refine Device.tcpAckNow_calm ?_
        refine Device.count_calm ?_
        refine Device.setTcp_calm ?_
        assumption
      · apply calm_foldl
        · intro v10
          intro v11
          intro v12
          refine Device.c37Frame_calm ?_
          assumption
        · assumption
  clear_value x8
  split
  · refine Device.tcpLost_calm ?_
    assumption
  · split
    · refine Device.tcpLost_calm ?_
      assumption
    · assumption
theorem tcpSegmentReceived_calm {e : Eff} {a : Device} {d : Device} (h : Calm e a d) (e_dd : Lets e.dd := by first | assumption | exact ⟨rfl⟩) (e_jnl : Lets e.jnl := by first | assumption | exact ⟨rfl⟩) (e_u4 : Lets (e.unit 4) := by first | assumption | exact ⟨rfl⟩) (e_u6 : Lets (e.unit 6) := by first | assumption | exact ⟨rfl⟩) (e_u8 : Lets (e.unit 8) := by first | assumption | exact ⟨rfl⟩) (e_u10 : Lets (e.unit 10) := by first | assumption | exact ⟨rfl⟩) (e_u12 : Lets (e.unit 12) := by first | assumption | exact ⟨rfl⟩) (e_u16 : Lets (e.unit 16) := by first | assumption | exact ⟨rfl⟩) (e_u17 : Lets (e.unit 17) := by first | assumption | exact ⟨rfl⟩) (e_u20 : Lets (e.unit 20) := by first | assumption | exact ⟨rfl⟩) (e_u21 : Lets (e.unit 21) := by first | assumption | exact ⟨rfl⟩) (e_u23 : Lets (e.unit 23) := by first | assumption | exact ⟨rfl⟩) (e_u24 : Lets (e.unit 24) := by first | assumption | exact ⟨rfl⟩) (e_u26 : Lets (e.unit 26) := by first | assumption | exact ⟨rfl⟩) : Calm e a (tcpSegmentReceived d) := by
  unfold tcpSegmentReceived
  split
  · assumption
  · extract_lets x1 x2
    clear_value x1
    have hx2 : Calm e a x2 := by
      unfold x2
      refine Calm.upd_ing ?_
      assumption
    clear_value x2
    split
    · split
      · assumption
      · split
        · refine Device.tcpSegment_calm ?_
          assumption
        · refine Device.emit_calm ?_
          assumption
    · assumption
theorem Device.gooseLaneWrite_calm {e : Eff} {a : Device} {d : Device} {p1 : ℕ} {p2 : ℕ} (h : Calm e a d) (e_dd : Lets e.dd := by first | assumption | exact ⟨rfl⟩) (e_jnl : Lets e.jnl := by first | assumption | exact ⟨rfl⟩) (e_u4 : Lets (e.unit 4) := by first | assumption | exact ⟨rfl⟩) (e_u6 : Lets (e.unit 6) := by first | assumption | exact ⟨rfl⟩) (e_u8 : Lets (e.unit 8) := by first | assumption | exact ⟨rfl⟩) (e_u10 : Lets (e.unit 10) := by first | assumption | exact ⟨rfl⟩) (e_u12 : Lets (e.unit 12) := by first | assumption | exact ⟨rfl⟩) (e_u16 : Lets (e.unit 16) := by first | assumption | exact ⟨rfl⟩) (e_u17 : Lets (e.unit 17) := by first | assumption | exact ⟨rfl⟩) (e_u20 : Lets (e.unit 20) := by first | assumption | exact ⟨rfl⟩) (e_u21 : Lets (e.unit 21) := by first | assumption | exact ⟨rfl⟩) (e_u23 : Lets (e.unit 23) := by first | assumption | exact ⟨rfl⟩) (e_u24 : Lets (e.unit 24) := by first | assumption | exact ⟨rfl⟩) (e_u26 : Lets (e.unit 26) := by first | assumption | exact ⟨rfl⟩) : Calm e a (Device.gooseLaneWrite d p1 p2) := by
  unfold Device.gooseLaneWrite
  extract_lets x1 x2 x3 x4 x5
  clear_value x1
  clear_value x2
  clear_value x3
  clear_value x4
  have hx5 : Calm e a x5 := by
    unfold x5
    refine Calm.upd_ing ?_
    assumption
  clear_value x5
  split
  · assumption
  · extract_lets x6
    clear_value x6
    split
    · refine Device.count_calm ?_
      assumption
    · refine Device.deliver_calm ?_
      assumption
theorem rgooseLaneWrite_calm {e : Eff} {a : Device} {p0 : ℕ} {p1 : ℕ} {d : Device} (h : Calm e a d) (e_dd : Lets e.dd := by first | assumption | exact ⟨rfl⟩) (e_jnl : Lets e.jnl := by first | assumption | exact ⟨rfl⟩) (e_u4 : Lets (e.unit 4) := by first | assumption | exact ⟨rfl⟩) (e_u6 : Lets (e.unit 6) := by first | assumption | exact ⟨rfl⟩) (e_u8 : Lets (e.unit 8) := by first | assumption | exact ⟨rfl⟩) (e_u10 : Lets (e.unit 10) := by first | assumption | exact ⟨rfl⟩) (e_u12 : Lets (e.unit 12) := by first | assumption | exact ⟨rfl⟩) (e_u16 : Lets (e.unit 16) := by first | assumption | exact ⟨rfl⟩) (e_u17 : Lets (e.unit 17) := by first | assumption | exact ⟨rfl⟩) (e_u20 : Lets (e.unit 20) := by first | assumption | exact ⟨rfl⟩) (e_u21 : Lets (e.unit 21) := by first | assumption | exact ⟨rfl⟩) (e_u23 : Lets (e.unit 23) := by first | assumption | exact ⟨rfl⟩) (e_u24 : Lets (e.unit 24) := by first | assumption | exact ⟨rfl⟩) (e_u26 : Lets (e.unit 26) := by first | assumption | exact ⟨rfl⟩) : Calm e a (rgooseLaneWrite p0 p1 d) := by
  unfold rgooseLaneWrite
  extract_lets x1 x2
  clear_value x1
  clear_value x2
  split
  · refine Device.gooseLaneWrite_calm ?_
    assumption
  · assumption
/-! Lmf. -/
theorem Device.setChan_calm {e : Eff} {a : Device} {d : Device} {p1 : ℕ} {p2 : LmfChan} (h : Calm e a d) (e_u18 : Lets (e.unit 18) := by first | assumption | exact ⟨rfl⟩) : Calm e a (Device.setChan d p1 p2) := by
  unfold Device.setChan
  refine Calm.upd_lmf ?_
  assumption
theorem lmfBits_calm {e : Eff} {a : Device} {p0 : List ℕ} {d : Device} (h : Calm e a d) (e_u18 : Lets (e.unit 18) := by first | assumption | exact ⟨rfl⟩) : Calm e a (lmfBits p0 d) := by
  unfold lmfBits
  extract_lets x6000 x6001
  clear_value x6001
  refine Calm.upd_lmf ?_
  assumption
theorem channelFault_calm {e : Eff} {a : Device} {p0 : ℕ} {d : Device} (h : Calm e a d) (e_u18 : Lets (e.unit 18) := by first | assumption | exact ⟨rfl⟩) : Calm e a (channelFault p0 d) := by
  unfold channelFault
  split
  · refine Device.raise_calm ?_
    refine Device.count_calm ?_
    refine Device.setf_calm ?_
    assumption
  · assumption
theorem channelFaultClear_calm {e : Eff} {a : Device} {p0 : ℕ} {d : Device} (h : Calm e a d) (e_u18 : Lets (e.unit 18) := by first | assumption | exact ⟨rfl⟩) : Calm e a (channelFaultClear p0 d) := by
  unfold channelFaultClear
  split
  · refine Device.raise_calm ?_
    refine Device.setf_calm ?_
    assumption
  · assumption
theorem lmfErr_calm {e : Eff} {a : Device} {p0 : ℕ} {p1 : ℕ} {d : Device} (h : Calm e a d) (e_u18 : Lets (e.unit 18) := by first | assumption | exact ⟨rfl⟩) : Calm e a (lmfErr p0 p1 d) := by
  unfold lmfErr
  refine Device.count_calm ?_
  refine Device.err_calm ?_
  assumption
theorem chainStop_calm {e : Eff} {a : Device} {p0 : ℕ} {d : Device} (h : Calm e a d) (e_u18 : Lets (e.unit 18) := by first | assumption | exact ⟨rfl⟩) : Calm e a (chainStop p0 d) := by
  unfold chainStop
  extract_lets x6000 x6001
  clear_value x6000
  have hx6001 : Calm e a x6001 := by
    unfold x6001
    refine Device.setChan_calm ?_
    assumption
  clear_value x6001
  refine Device.setf_calm ?_
  refine Device.setf_calm ?_
  refine Device.setf_calm ?_
  refine Device.setf_calm ?_
  refine Device.setf_calm ?_
  assumption
theorem chainStart_calm {e : Eff} {a : Device} {p0 : ℕ} {p1 : ℕ} {d : Device} (h : Calm e a d) (e_u18 : Lets (e.unit 18) := by first | assumption | exact ⟨rfl⟩) : Calm e a (chainStart p0 p1 d) := by
  unfold chainStart
  split
  · refine lmfErr_calm ?_
    refine Device.setChan_calm ?_
    assumption
  · extract_lets x5900 x5901
    clear_value x5900
    have hx5901 : Calm e a x5901 := by
      unfold x5901
      refine Device.setChan_calm ?_
      assumption
    clear_value x5901
    refine Device.setf_calm ?_
    refine Device.setf_calm ?_
    refine Device.setf_calm ?_
    assumption
theorem fadeStart_calm {e : Eff} {a : Device} {p0 : ℕ} {p1 : ℕ} {p2 : Time} {d : Device} (h : Calm e a d) (e_dd : Lets e.dd := by first | assumption | exact ⟨rfl⟩) (e_jnl : Lets e.jnl := by first | assumption | exact ⟨rfl⟩) (e_u18 : Lets (e.unit 18) := by first | assumption | exact ⟨rfl⟩) : Calm e a (fadeStart p0 p1 p2 d) := by
  unfold fadeStart
  extract_lets x6000 x6001 x6002 x6003 x6004 x6005 x6006
  clear_value x6000
  clear_value x6001
  have hx6002 : Calm e a x6002 := by
    unfold x6002
    refine Device.setChan_calm ?_
    assumption
  clear_value x6002
  clear_value x6003
  have hx6004 : Calm e a x6004 := by
    unfold x6004
    refine Device.setChan_calm ?_
    assumption
  clear_value x6004
  have hx6005 : Calm e a x6005 := by
    unfold x6005
    refine Device.count_calm ?_
    refine Device.setf_calm ?_
    refine Device.setf_calm ?_
    refine Device.setf_calm ?_
    assumption
  clear_value x6005
  have hx6006 : Calm e a x6006 := by
    unfold x6006
    refine Device.raise_calm ?_
    assumption
  clear_value x6006
  split
  · refine lmfErr_calm ?_
    assumption
  · split
    · refine Device.journalW_calm ?_
      assumption
    · assumption
theorem chainApply_calm {e : Eff} {a : Device} {p0 : ℕ} {p1 : Time} {d : Device} (h : Calm e a d) (e_dd : Lets e.dd := by first | assumption | exact ⟨rfl⟩) (e_jnl : Lets e.jnl := by first | assumption | exact ⟨rfl⟩) (e_u18 : Lets (e.unit 18) := by first | assumption | exact ⟨rfl⟩) : Calm e a (chainApply p0 p1 d) := by
  unfold chainApply
  extract_lets x6000 x6001
  have hx6000 : Calm e a x6000 := by
    unfold x6000
    split
    · refine chainStop_calm ?_
      assumption
    · assumption
  clear_value x6000
  have hx6001 : Calm e a x6001 := by
    unfold x6001
    split
    · split
      · refine chainStart_calm ?_
        assumption
      · assumption
    · assumption
  clear_value x6001
  split
  · split
    · refine fadeStart_calm ?_
      assumption
    · assumption
  · assumption
theorem ovrMark_calm {e : Eff} {a : Device} {p0 : ℕ} {d : Device} (h : Calm e a d) (e_u18 : Lets (e.unit 18) := by first | assumption | exact ⟨rfl⟩) : Calm e a (ovrMark p0 d) := by
  unfold ovrMark
  extract_lets x6000 x6001
  have hx6000 : Calm e a x6000 := by
    unfold x6000
    refine Device.raiseSec_calm ?_
    refine Device.count_calm ?_
    assumption
  clear_value x6000
  clear_value x6001
  refine Device.setChan_calm ?_
  assumption
theorem capOutput_calm {e : Eff} {a : Device} {p0 : ℕ} {p1 : Time} {d : Device} (h : Calm e a d) (e_dd : Lets e.dd := by first | assumption | exact ⟨rfl⟩) (e_u18 : Lets (e.unit 18) := by first | assumption | exact ⟨rfl⟩) (e_u19 : Lets (e.unit 19) := by first | assumption | exact ⟨rfl⟩) (e_u23 : Lets (e.unit 23) := by first | assumption | exact ⟨rfl⟩) : Calm e a (capOutput p0 p1 d) := by
  unfold capOutput
  extract_lets x6000 x6001 x6002 x6003 x6004 x6005 x6006 x6007
  clear_value x6000
  clear_value x6001
  clear_value x6002
  clear_value x6003
  clear_value x6004
  have hx6005 : Calm e a x6005 := by
    unfold x6005
    refine Device.setChan_calm ?_
    assumption
  clear_value x6005
  have hx6006 : Calm e a x6006 := by
    unfold x6006
    refine Device.count_calm ?_
    assumption
  clear_value x6006
  have hx6007 : Calm e a x6007 := by
    unfold x6007
    split
    · refine ovrMark_calm ?_
      assumption
    · assumption
  clear_value x6007
  refine acqLocal_calm ?_
  assumption
theorem Device.ssoFeed_calm {e : Eff} {a : Device} {d : Device} {p1 : ℕ} (h : Calm e a d) (e_u4 : Lets (e.unit 4) := by first | assumption | exact ⟨rfl⟩) : Calm e a (Device.ssoFeed d p1) := by
  unfold Device.ssoFeed
  extract_lets x1 x2 x3
  clear_value x1
  clear_value x2
  clear_value x3
  split
  · extract_lets x4 x5
    clear_value x4
    clear_value x5
    split
    · refine Calm.upd_ing ?_
      assumption
    · assumption
  · assumption
theorem ringPut_calm {e : Eff} {a : Device} {p0 : ℕ} {p1 : Sample} {d : Device} (h : Calm e a d) (e_u4 : Lets (e.unit 4) := by first | assumption | exact ⟨rfl⟩) : Calm e a (ringPut p0 p1 d) := by
  unfold ringPut
  extract_lets x1 x2
  clear_value x1
  clear_value x2
  refine Device.ssoFeed_calm ?_
  refine Calm.upd_ing ?_
  assumption
theorem fadeEnd_calm {e : Eff} {a : Device} {p0 : ℕ} {d : Device} (h : Calm e a d) (e_u18 : Lets (e.unit 18) := by first | assumption | exact ⟨rfl⟩) : Calm e a (fadeEnd p0 d) := by
  unfold fadeEnd
  extract_lets x6000 x6001 x6002
  clear_value x6000
  clear_value x6001
  have hx6002 : Calm e a x6002 := by
    unfold x6002
    refine Device.setChan_calm ?_
    assumption
  clear_value x6002
  refine Device.setf_calm ?_
  refine Device.setf_calm ?_
  refine Device.setf_calm ?_
  assumption
theorem phOutput_calm {e : Eff} {a : Device} {p0 : ℕ} {p1 : Time} {d : Device} (h : Calm e a d) (e_u4 : Lets (e.unit 4) := by first | assumption | exact ⟨rfl⟩) (e_u18 : Lets (e.unit 18) := by first | assumption | exact ⟨rfl⟩) : Calm e a (phOutput p0 p1 d).2 := by
  unfold phOutput
  extract_lets x6000 x6001 x6002 x6003 x6004 x6005 x6006 x6007 x6008 x6009
  clear_value x6000
  clear_value x6001
  clear_value x6002
  clear_value x6003
  clear_value x6004
  clear_value x6005
  have hx6006 : Calm e a x6006 := by
    unfold x6006
    refine Device.setChan_calm ?_
    assumption
  clear_value x6006
  have hx6007 : Calm e a x6007 := by
    unfold x6007
    refine Device.count_calm ?_
    refine Device.setf_calm ?_
    assumption
  clear_value x6007
  have hx6008 : Calm e a x6008 := by
    unfold x6008
    split
    · refine ovrMark_calm ?_
      assumption
    · assumption
  clear_value x6008
  have hx6009 : Calm e a x6009 := by
    unfold x6009
    split
    · split
      · refine fadeEnd_calm ?_
        assumption
      · assumption
    · split
      · refine fadeEnd_calm ?_
        assumption
      · assumption
  clear_value x6009
  split
  · dsimp only
    refine ringPut_calm ?_
    assumption
  · dsimp only
    assumption
theorem capOutputs_calm {e : Eff} {a : Device} {p0 : Time} {d : Device} (h : Calm e a d) (e_dd : Lets e.dd := by first | assumption | exact ⟨rfl⟩) (e_u18 : Lets (e.unit 18) := by first | assumption | exact ⟨rfl⟩) (e_u19 : Lets (e.unit 19) := by first | assumption | exact ⟨rfl⟩) (e_u23 : Lets (e.unit 23) := by first | assumption | exact ⟨rfl⟩) : Calm e a (capOutputs p0 d) := by
  unfold capOutputs
  apply calm_foldl
  · intro v59
    intro v58
    intro w57
    refine capOutput_calm ?_
    assumption
  · assumption
theorem phOutputs_calm {e : Eff} {a : Device} {p0 : Time} {d : Device} (h : Calm e a d) (e_dd : Lets e.dd := by first | assumption | exact ⟨rfl⟩) (e_jnl : Lets e.jnl := by first | assumption | exact ⟨rfl⟩) (e_u4 : Lets (e.unit 4) := by first | assumption | exact ⟨rfl⟩) (e_u18 : Lets (e.unit 18) := by first | assumption | exact ⟨rfl⟩) : Calm e a (phOutputs p0 d) := by
  unfold phOutputs
  extract_lets x6000 x6001
  clear_value x6000
  have hx6001 : Calm e a x6001.2 := by
    unfold x6001
    apply calm_foldl2
    · intro v58
      intro v57
      intro w56
      extract_lets x5500
      have hx5500 : Calm e a x5500.2 := by
        unfold x5500
        refine phOutput_calm ?_
        assumption
      clear_value x5500
      dsimp only
      assumption
    · dsimp only
      assumption
  clear_value x6001
  split
  · refine Device.journalW_calm ?_
    assumption
  · assumption
theorem captureStrobe_calm {e : Eff} {a : Device} {p0 : Bool} {p1 : List ℕ} {d : Device} (h : Calm e a d) (e_dd : Lets e.dd := by first | assumption | exact ⟨rfl⟩) (e_u18 : Lets (e.unit 18) := by first | assumption | exact ⟨rfl⟩) (e_u19 : Lets (e.unit 19) := by first | assumption | exact ⟨rfl⟩) (e_u23 : Lets (e.unit 23) := by first | assumption | exact ⟨rfl⟩) : Calm e a (captureStrobe p0 p1 d) := by
  unfold captureStrobe
  split
  · assumption
  · extract_lets x5900 x5901
    have hx5900 : Calm e a x5900 := by
      unfold x5900
      refine lmfBits_calm ?_
      assumption
    clear_value x5900
    clear_value x5901
    refine capOutputs_calm ?_
    refine Calm.upd_lmf ?_
    assumption
theorem phasorStrobe_calm {e : Eff} {a : Device} {p0 : Bool} {p1 : List ℕ} {d : Device} (h : Calm e a d) (e_dd : Lets e.dd := by first | assumption | exact ⟨rfl⟩) (e_jnl : Lets e.jnl := by first | assumption | exact ⟨rfl⟩) (e_u4 : Lets (e.unit 4) := by first | assumption | exact ⟨rfl⟩) (e_u18 : Lets (e.unit 18) := by first | assumption | exact ⟨rfl⟩) (e_u19 : Lets (e.unit 19) := by first | assumption | exact ⟨rfl⟩) (e_u23 : Lets (e.unit 23) := by first | assumption | exact ⟨rfl⟩) : Calm e a (phasorStrobe p0 p1 d) := by
  unfold phasorStrobe
  split
  · assumption
  · extract_lets x5900 x5901 x5902 x5903
    clear_value x5900
    have hx5901 : Calm e a x5901 := by
      unfold x5901
      refine lmfBits_calm ?_
      assumption
    clear_value x5901
    clear_value x5902
    have hx5903 : Calm e a x5903 := by
      unfold x5903
      apply calm_foldl
      · intro v57
        intro v56
        intro w55
        refine chainApply_calm ?_
        assumption
      · refine Calm.upd_lmf ?_
        assumption
    clear_value x5903
    refine phOutputs_calm ?_
    refine capOutputs_calm ?_
    assumption
theorem lmfGrpWrite_calm {e : Eff} {a : Device} {p0 : ℕ} {p1 : Word} {d : Device} (h : Calm e a d) (e_u18 : Lets (e.unit 18) := by first | assumption | exact ⟨rfl⟩) : Calm e a (lmfGrpWrite p0 p1 d) := by
  unfold lmfGrpWrite
  extract_lets x6000 x6001 x6002
  clear_value x6000
  clear_value x6001
  have hx6002 : Calm e a x6002 := by
    unfold x6002
    refine Device.wr_calm ?_
    assumption
  clear_value x6002
  split
  · refine Device.setf_calm ?_
    assumption
  · split
    · assumption
    · refine Device.emit_calm ?_
      assumption
theorem lmfRunStop_calm {e : Eff} {a : Device} {p0 : ℕ} {p1 : Word} {d : Device} (h : Calm e a d) (e_u18 : Lets (e.unit 18) := by first | assumption | exact ⟨rfl⟩) : Calm e a (lmfRunStop p0 p1 d) := by
  unfold lmfRunStop
  extract_lets x6000 x6001
  have hx6000 : Calm e a x6000 := by
    unfold x6000
    refine Device.wr_calm ?_
    assumption
  clear_value x6000
  clear_value x6001
  refine Device.setChan_calm ?_
  assumption
theorem lmfRunStart_calm {e : Eff} {a : Device} {p0 : ℕ} {p1 : Word} {d : Device} (h : Calm e a d) (e_u18 : Lets (e.unit 18) := by first | assumption | exact ⟨rfl⟩) : Calm e a (lmfRunStart p0 p1 d) := by
  unfold lmfRunStart
  extract_lets x6000 x6001 x6002
  clear_value x6000
  have hx6001 : Calm e a x6001 := by
    unfold x6001
    refine Device.wr_calm ?_
    assumption
  clear_value x6001
  clear_value x6002
  split
  · refine lmfErr_calm ?_
    assumption
  · split
    · refine lmfErr_calm ?_
      assumption
    · split
      · refine lmfErr_calm ?_
        assumption
      · refine Device.setChan_calm ?_
        assumption
theorem lmfSwitch_calm {e : Eff} {a : Device} {p0 : ℕ} {p1 : Word} {d : Device} (h : Calm e a d) (e_u18 : Lets (e.unit 18) := by first | assumption | exact ⟨rfl⟩) : Calm e a (lmfSwitch p0 p1 d) := by
  unfold lmfSwitch
  extract_lets x6000 x6001 x6002
  clear_value x6000
  clear_value x6001
  have hx6002 : Calm e a x6002 := by
    unfold x6002
    refine Device.setChan_calm ?_
    refine Device.wr_calm ?_
    assumption
  clear_value x6002
  split
  · refine lmfErr_calm ?_
    assumption
  · split
    · refine Device.count_calm ?_
      refine Device.setf_calm ?_
      refine Device.setf_calm ?_
      assumption
    · split
      · refine Device.wr_calm ?_
        assumption
      · split
        · refine lmfErr_calm ?_
          assumption
        · refine Device.setChan_calm ?_
          refine Device.wr_calm ?_
          assumption
theorem lmfCtlWrite_calm {e : Eff} {a : Device} {p0 : ℕ} {p1 : Word} {d : Device} (h : Calm e a d) (e_u18 : Lets (e.unit 18) := by first | assumption | exact ⟨rfl⟩) : Calm e a (lmfCtlWrite p0 p1 d) := by
  unfold lmfCtlWrite
  split
  · refine lmfRunStop_calm ?_
    assumption
  · split
    · refine lmfSwitch_calm ?_
      assumption
    · refine lmfRunStart_calm ?_
      assumption
theorem lmfSetWrite_calm {e : Eff} {a : Device} {p0 : RegDef} {p1 : ℕ} {p2 : Word} {d : Device} (h : Calm e a d)
    (m_p0 : e.may (p0.base / 65536) := by first | assumption | exact Or.inl (by assumption) | exact Or.inr rfl | exact Or.inl ⟨rfl⟩ | (split <;> exact Or.inl (by assumption)) | exact Or.inl (‹∀ b, Lets (e.unit b)› _)) (e_u18 : Lets (e.unit 18) := by first | assumption | exact ⟨rfl⟩) : Calm e a (lmfSetWrite p0 p1 p2 d) := by
  unfold lmfSetWrite
  split
  · refine lmfErr_calm ?_
    assumption
  · refine Device.wr_calm ?_
    assumption
theorem ramLoad_calm {e : Eff} {a : Device} {p0 : ℕ} {p1 : List Word} {d : Device} (h : Calm e a d) (e_tab : Lets e.tab := by first | assumption | exact ⟨rfl⟩) (e_u18 : Lets (e.unit 18) := by first | assumption | exact ⟨rfl⟩) : Calm e a (ramLoad p0 p1 d).2 := by
  unfold ramLoad
  split
  · dsimp only
    refine lmfErr_calm ?_
    assumption
  · split
    · dsimp only
      refine Device.setf_calm ?_
      refine Device.setEnt_calm ?_
      assumption
    · dsimp only
      refine lmfErr_calm ?_
      refine Device.setf_calm ?_
      assumption
end Sys2Proof.Machine
end

