-- ==== Sys2Proof/Laws/CalmPair.lean ====
section
/-!
SUPPORT. One lemma per operation of tables, the journal as a follower applies it, the relay and links (Machine/TableUnit, JApply, Snap, Relay, RxlRecv): what the
operation may touch, in the terms of Calm.
-/
namespace Sys2Proof.Machine
set_option Elab.async false
/-! TableUnit. -/
theorem Device.gooseStart_calm {e : Eff} {a : Device} {d : Device} {p1 : ℕ} (h : Calm e a d) (e_dd : Lets e.dd := by first | assumption | exact ⟨rfl⟩) (e_jnl : Lets e.jnl := by first | assumption | exact ⟨rfl⟩) (e_u17 : Lets (e.unit 17) := by first | assumption | exact ⟨rfl⟩) (e_u24 : Lets (e.unit 24) := by first | assumption | exact ⟨rfl⟩) : Calm e a (Device.gooseStart d p1) := by
  unfold Device.gooseStart
  extract_lets x6000 x6001 x6002
  clear_value x6000
  clear_value x6001
  have hx6002 : Calm e a x6002 := by
    unfold x6002
    refine Device.setGoose_calm ?_
    assumption
  clear_value x6002
  split
  · refine Device.gooseGo_calm ?_
    refine Device.gooseNew_calm ?_
    assumption
  · assumption
theorem Device.signalStored_calm {e : Eff} {a : Device} {d : Device} {p1 : ℕ} {p2 : List Word} {p3 : List Word} (h : Calm e a d) (e_u4 : Lets (e.unit 4) := by first | assumption | exact ⟨rfl⟩) : Calm e a (Device.signalStored d p1 p2 p3) := by
  unfold Device.signalStored
  split
  · refine Device.setStrm_calm ?_
    assumption
  · assumption
theorem Device.clientsChanged_calm {e : Eff} {a : Device} {d : Device} {p1 : List Word → Bool} (h : Calm e a d) (e_u17 : Lets (e.unit 17) := by first | assumption | exact ⟨rfl⟩) : Calm e a (Device.clientsChanged d p1) := by
  unfold Device.clientsChanged
  apply calm_foldl
  · intro v1
    intro v2
    intro v3
    split
    · refine Device.setClient_calm ?_
      assumption
    · assumption
  · assumption
theorem Device.entryStored_calm {e : Eff} {a : Device} {d : Device} {p1 : ℕ} {p2 : ℕ} {p3 : List Word} (h : Calm e a d) (e_dd : Lets e.dd := by first | assumption | exact ⟨rfl⟩) (e_jnl : Lets e.jnl := by first | assumption | exact ⟨rfl⟩) (e_u4 : Lets (e.unit 4) := by first | assumption | exact ⟨rfl⟩) (e_u10 : Lets (e.unit 10) := by first | assumption | exact ⟨rfl⟩) (e_u16 : Lets (e.unit 16) := by first | assumption | exact ⟨rfl⟩) (e_u17 : Lets (e.unit 17) := by first | assumption | exact ⟨rfl⟩) (e_u20 : Lets (e.unit 20) := by first | assumption | exact ⟨rfl⟩) (e_u21 : Lets (e.unit 21) := by first | assumption | exact ⟨rfl⟩) (e_u23 : Lets (e.unit 23) := by first | assumption | exact ⟨rfl⟩) (e_u24 : Lets (e.unit 24) := by first | assumption | exact ⟨rfl⟩) : Calm e a (Device.entryStored d p1 p2 p3) := by
  unfold Device.entryStored
  split
  · split
    · assumption
    · refine Device.clientsChanged_calm ?_
      assumption
  · refine Device.signalStored_calm ?_
    assumption
  · refine Device.tcpEnd_calm ?_
    assumption
  · refine Device.setHome_calm ?_
    assumption
  · refine Device.levels_calm ?_
    refine Device.hurRestart_calm ?_
    assumption
  · refine Device.gooseStart_calm ?_
    assumption
  · refine Device.clientLoaded_calm ?_
    assumption
  · split
    · assumption
    · refine Device.clientsChanged_calm ?_
      assumption
  · split
    · assumption
    · refine Device.clientsChanged_calm ?_
      assumption
  · refine Device.pointLoaded_calm ?_
    assumption
  · refine Device.linkRefresh_calm ?_
    assumption
  · assumption
theorem Device.storeEntry_calm {e : Eff} {a : Device} {d : Device} {p1 : ℕ} {p2 : ℕ} {p3 : List Word} {p4 : ℕ} (h : Calm e a d) (e_tab : Lets e.tab := by first | assumption | exact ⟨rfl⟩) (e_dd : Lets e.dd := by first | assumption | exact ⟨rfl⟩) (e_jnl : Lets e.jnl := by first | assumption | exact ⟨rfl⟩) (e_u4 : Lets (e.unit 4) := by first | assumption | exact ⟨rfl⟩) (e_u10 : Lets (e.unit 10) := by first | assumption | exact ⟨rfl⟩) (e_u16 : Lets (e.unit 16) := by first | assumption | exact ⟨rfl⟩) (e_u17 : Lets (e.unit 17) := by first | assumption | exact ⟨rfl⟩) (e_u20 : Lets (e.unit 20) := by first | assumption | exact ⟨rfl⟩) (e_u21 : Lets (e.unit 21) := by first | assumption | exact ⟨rfl⟩) (e_u23 : Lets (e.unit 23) := by first | assumption | exact ⟨rfl⟩) (e_u24 : Lets (e.unit 24) := by first | assumption | exact ⟨rfl⟩) : Calm e a (Device.storeEntry d p1 p2 p3 p4) := by
  unfold Device.storeEntry
  refine Device.entryStored_calm ?_
  refine Device.setEnt_calm ?_
  assumption
theorem loadFrom_calm {e : Eff} {a : Device} {p0 : ℕ} {p1 : ℕ} {p2 : ℕ} {p3 : List (List Word)} {d : Device} (h : Calm e a d) (e_tab : Lets e.tab := by first | assumption | exact ⟨rfl⟩) (e_dd : Lets e.dd := by first | assumption | exact ⟨rfl⟩) (e_jnl : Lets e.jnl := by first | assumption | exact ⟨rfl⟩) (e_u4 : Lets (e.unit 4) := by first | assumption | exact ⟨rfl⟩) (e_u10 : Lets (e.unit 10) := by first | assumption | exact ⟨rfl⟩) (e_u16 : Lets (e.unit 16) := by first | assumption | exact ⟨rfl⟩) (e_u17 : Lets (e.unit 17) := by first | assumption | exact ⟨rfl⟩) (e_u20 : Lets (e.unit 20) := by first | assumption | exact ⟨rfl⟩) (e_u21 : Lets (e.unit 21) := by first | assumption | exact ⟨rfl⟩) (e_u23 : Lets (e.unit 23) := by first | assumption | exact ⟨rfl⟩) (e_u24 : Lets (e.unit 24) := by first | assumption | exact ⟨rfl⟩) : Calm e a (loadFrom p0 p1 p2 p3 d).2 := by
  induction p3 generalizing p0 p1 p2 d
  · unfold loadFrom
    dsimp only
    assumption
  · rename_i hd tl ih
    unfold loadFrom
    split
    · apply ih
      refine Device.storeEntry_calm ?_
      assumption
    · dsimp only
      assumption
theorem Device.storeAll_calm {e : Eff} {a : Device} {d : Device} {p1 : ℕ} {p2 : ℕ} {p3 : ℕ} {p4 : List (List Word)} (h : Calm e a d) (e_tab : Lets e.tab := by first | assumption | exact ⟨rfl⟩) (e_dd : Lets e.dd := by first | assumption | exact ⟨rfl⟩) (e_jnl : Lets e.jnl := by first | assumption | exact ⟨rfl⟩) (e_u4 : Lets (e.unit 4) := by first | assumption | exact ⟨rfl⟩) (e_u10 : Lets (e.unit 10) := by first | assumption | exact ⟨rfl⟩) (e_u16 : Lets (e.unit 16) := by first | assumption | exact ⟨rfl⟩) (e_u17 : Lets (e.unit 17) := by first | assumption | exact ⟨rfl⟩) (e_u20 : Lets (e.unit 20) := by first | assumption | exact ⟨rfl⟩) (e_u21 : Lets (e.unit 21) := by first | assumption | exact ⟨rfl⟩) (e_u23 : Lets (e.unit 23) := by first | assumption | exact ⟨rfl⟩) (e_u24 : Lets (e.unit 24) := by first | assumption | exact ⟨rfl⟩) : Calm e a (Device.storeAll d p1 p2 p3 p4) := by
  unfold Device.storeAll
  apply calm_foldl
  · intro v59
    intro v58
    intro w57
    refine Device.storeEntry_calm ?_
    assumption
  · assumption
theorem Device.capLoad_calm {e : Eff} {a : Device} {d : Device} {p1 : ℕ} {p2 : ℕ} {p3 : List (List Word)} (h : Calm e a d) (e_tab : Lets e.tab := by first | assumption | exact ⟨rfl⟩) (e_dd : Lets e.dd := by first | assumption | exact ⟨rfl⟩) (e_jnl : Lets e.jnl := by first | assumption | exact ⟨rfl⟩) (e_u4 : Lets (e.unit 4) := by first | assumption | exact ⟨rfl⟩) (e_u10 : Lets (e.unit 10) := by first | assumption | exact ⟨rfl⟩) (e_u16 : Lets (e.unit 16) := by first | assumption | exact ⟨rfl⟩) (e_u17 : Lets (e.unit 17) := by first | assumption | exact ⟨rfl⟩) (e_u20 : Lets (e.unit 20) := by first | assumption | exact ⟨rfl⟩) (e_u21 : Lets (e.unit 21) := by first | assumption | exact ⟨rfl⟩) (e_u23 : Lets (e.unit 23) := by first | assumption | exact ⟨rfl⟩) (e_u24 : Lets (e.unit 24) := by first | assumption | exact ⟨rfl⟩) : Calm e a (Device.capLoad d p1 p2 p3).2 := by
  unfold Device.capLoad
  extract_lets x6000 x6001
  clear_value x6000
  have hx6001 : Calm e a x6001 := by
    unfold x6001
    refine Device.storeAll_calm ?_
    assumption
  clear_value x6001
  split
  · dsimp only
    assumption
  · split
    · dsimp only
      assumption
    · dsimp only
      assumption
theorem Device.portLoad_calm {e : Eff} {a : Device} {d : Device} {p1 : ℕ} {p2 : List (List Word)} (h : Calm e a d) (e_tab : Lets e.tab := by first | assumption | exact ⟨rfl⟩) (e_dd : Lets e.dd := by first | assumption | exact ⟨rfl⟩) (e_jnl : Lets e.jnl := by first | assumption | exact ⟨rfl⟩) (e_u4 : Lets (e.unit 4) := by first | assumption | exact ⟨rfl⟩) (e_u10 : Lets (e.unit 10) := by first | assumption | exact ⟨rfl⟩) (e_u16 : Lets (e.unit 16) := by first | assumption | exact ⟨rfl⟩) (e_u17 : Lets (e.unit 17) := by first | assumption | exact ⟨rfl⟩) (e_u20 : Lets (e.unit 20) := by first | assumption | exact ⟨rfl⟩) (e_u21 : Lets (e.unit 21) := by first | assumption | exact ⟨rfl⟩) (e_u23 : Lets (e.unit 23) := by first | assumption | exact ⟨rfl⟩) (e_u24 : Lets (e.unit 24) := by first | assumption | exact ⟨rfl⟩) : Calm e a (Device.portLoad d p1 p2).2 := by
  unfold Device.portLoad
  extract_lets x6000
  clear_value x6000
  split
  · dsimp only
    refine Device.storeAll_calm ?_
    assumption
  · dsimp only
    assumption
theorem Device.imageLoad_calm {e : Eff} {a : Device} {d : Device} {p1 : ℕ} {p2 : List Word} (h : Calm e a d) (e_u20 : Lets (e.unit 20) := by first | assumption | exact ⟨rfl⟩) : Calm e a (Device.imageLoad d p1 p2).2 := by
  unfold Device.imageLoad
  split
  · dsimp only
    assumption
  · split
    · dsimp only
      assumption
    · dsimp only
      refine Device.pointPreset_calm ?_
      assumption
theorem Device.loadEntries_calm {e : Eff} {a d : Device} {t idx first : Nat} {es : List (List Word)} 
    (h : Calm e a d) (e_tab : Lets e.tab := by first | assumption | exact ⟨rfl⟩) (e_dd : Lets e.dd := by first | assumption | exact ⟨rfl⟩) (e_jnl : Lets e.jnl := by first | assumption | exact ⟨rfl⟩) (e_u4 : Lets (e.unit 4) := by first | assumption | exact ⟨rfl⟩) (e_u10 : Lets (e.unit 10) := by first | assumption | exact ⟨rfl⟩) (e_u15 : Lets (e.unit 15) := by first | assumption | exact ⟨rfl⟩) (e_u16 : Lets (e.unit 16) := by first | assumption | exact ⟨rfl⟩) (e_u17 : Lets (e.unit 17) := by first | assumption | exact ⟨rfl⟩) (e_u18 : Lets (e.unit 18) := by first | assumption | exact ⟨rfl⟩) (e_u20 : Lets (e.unit 20) := by first | assumption | exact ⟨rfl⟩) (e_u21 : Lets (e.unit 21) := by first | assumption | exact ⟨rfl⟩) (e_u23 : Lets (e.unit 23) := by first | assumption | exact ⟨rfl⟩) (e_u24 : Lets (e.unit 24) := by first | assumption | exact ⟨rfl⟩) : Calm e a (d.loadEntries t idx first es).2 := by
  unfold Device.loadEntries
  split
  · exact Device.portLoad_calm h
  · exact Device.graphLoad_calm h
  · exact ramLoad_calm (d := d) h
  · exact Device.capLoad_calm h
  · exact Device.capLoad_calm h
  · exact Device.capLoad_calm h
  · exact Device.capLoad_calm h
  · exact Device.capLoad_calm h
  · exact Device.imageLoad_calm h
  · exact loadFrom_calm h
theorem Device.tableLoad_calm {e : Eff} {a : Device} {d : Device} {p1 : Word} {p2 : Word} {p3 : Word} {p4 : List (List Word)} (h : Calm e a d) (e_tab : Lets e.tab := by first | assumption | exact ⟨rfl⟩) (e_dd : Lets e.dd := by first | assumption | exact ⟨rfl⟩) (e_jnl : Lets e.jnl := by first | assumption | exact ⟨rfl⟩) (e_u4 : Lets (e.unit 4) := by first | assumption | exact ⟨rfl⟩) (e_u10 : Lets (e.unit 10) := by first | assumption | exact ⟨rfl⟩) (e_u15 : Lets (e.unit 15) := by first | assumption | exact ⟨rfl⟩) (e_u16 : Lets (e.unit 16) := by first | assumption | exact ⟨rfl⟩) (e_u17 : Lets (e.unit 17) := by first | assumption | exact ⟨rfl⟩) (e_u18 : Lets (e.unit 18) := by first | assumption | exact ⟨rfl⟩) (e_u20 : Lets (e.unit 20) := by first | assumption | exact ⟨rfl⟩) (e_u21 : Lets (e.unit 21) := by first | assumption | exact ⟨rfl⟩) (e_u23 : Lets (e.unit 23) := by first | assumption | exact ⟨rfl⟩) (e_u24 : Lets (e.unit 24) := by first | assumption | exact ⟨rfl⟩) : Calm e a (Device.tableLoad d p1 p2 p3 p4).2 := by
  unfold Device.tableLoad
  extract_lets x6000 x6001 x6002
  clear_value x6000
  have hx6001 : Calm e a x6001.2 := by
    unfold x6001
    refine Device.loadEntries_calm ?_
    assumption
  clear_value x6001
  clear_value x6002
  split
  · assumption
  · dsimp only
    refine Device.journal_calm ?_
    assumption
theorem Device.estStart_calm {e : Eff} {a : Device} {d : Device} {p1 : ℕ} (h : Calm e a d) (e_u8 : Lets (e.unit 8) := by first | assumption | exact ⟨rfl⟩) : Calm e a (Device.estStart d p1) := by
  unfold Device.estStart
  extract_lets x6000 x6001
  clear_value x6000
  clear_value x6001
  apply calm_foldl
  · intro v58
    intro v57
    intro w56
    refine Device.setPfa_calm ?_
    assumption
  · assumption
theorem Device.journalHeat_calm {e : Eff} {a : Device} {d : Device} {p1 : ℕ} {p2 : ℕ} (h : Calm e a d) (e_dd : Lets e.dd := by first | assumption | exact ⟨rfl⟩) (e_jnl : Lets e.jnl := by first | assumption | exact ⟨rfl⟩) : Calm e a (Device.journalHeat d p1 p2) := by
  unfold Device.journalHeat
  split
  · refine Device.journalW_calm ?_
    assumption
  · assumption
theorem Device.heatTake_calm {e : Eff} {a : Device} {d : Device} {p1 : ℕ} (h : Calm e a d) (e_u8 : Lets (e.unit 8) := by first | assumption | exact ⟨rfl⟩) (e_u10 : Lets (e.unit 10) := by first | assumption | exact ⟨rfl⟩) : Calm e a (Device.heatTake d p1) := by
  unfold Device.heatTake
  extract_lets x1 x2 x3 x4 x5 x6 x7
  clear_value x1
  clear_value x2
  clear_value x3
  clear_value x4
  clear_value x5
  clear_value x6
  have hx7 : Calm e a x7 := by
    unfold x7
    refine Device.setRun_calm ?_
    refine Device.setPfa_calm ?_
    assumption
  clear_value x7
  refine Device.estStart_calm ?_
  refine Device.setf_calm ?_
  assumption
theorem Device.quorumCheck_calm {e : Eff} {a : Device} {d : Device} {p1 : ℕ} (h : Calm e a d) : Calm e a (Device.quorumCheck d p1) := by
  unfold Device.quorumCheck
  extract_lets x6000 x6001
  clear_value x6000
  clear_value x6001
  split
  · refine Device.raise_calm ?_
    assumption
  · assumption
theorem Device.heatEnable_calm {e : Eff} {a : Device} {d : Device} {p1 : ℕ} (h : Calm e a d) (e_dd : Lets e.dd := by first | assumption | exact ⟨rfl⟩) (e_jnl : Lets e.jnl := by first | assumption | exact ⟨rfl⟩) (e_u8 : Lets (e.unit 8) := by first | assumption | exact ⟨rfl⟩) (e_u10 : Lets (e.unit 10) := by first | assumption | exact ⟨rfl⟩) (e_u16 : Lets (e.unit 16) := by first | assumption | exact ⟨rfl⟩) (e_u17 : Lets (e.unit 17) := by first | assumption | exact ⟨rfl⟩) (e_u24 : Lets (e.unit 24) := by first | assumption | exact ⟨rfl⟩) : Calm e a (Device.heatEnable d p1).2 := by
  unfold Device.heatEnable
  split
  · dsimp only
    assumption
  · extract_lets x5900 x5901
    clear_value x5900
    have hx5901 : Calm e a x5901 := by
      unfold x5901
      refine Device.journalHeat_calm ?_
      refine Device.quorumCheck_calm ?_
      refine Device.heatTake_calm ?_
      assumption
    clear_value x5901
    split
    · dsimp only
      assumption
    · split
      · dsimp only
        refine Device.heatStart_calm ?_
        assumption
      · dsimp only
        assumption
theorem Device.heatDisable_calm {e : Eff} {a : Device} {d : Device} {p1 : ℕ} (h : Calm e a d) (e_dd : Lets e.dd := by first | assumption | exact ⟨rfl⟩) (e_jnl : Lets e.jnl := by first | assumption | exact ⟨rfl⟩) (e_u8 : Lets (e.unit 8) := by first | assumption | exact ⟨rfl⟩) (e_u10 : Lets (e.unit 10) := by first | assumption | exact ⟨rfl⟩) (e_u12 : Lets (e.unit 12) := by first | assumption | exact ⟨rfl⟩) (e_u14 : Lets (e.unit 14) := by first | assumption | exact ⟨rfl⟩) (e_u16 : Lets (e.unit 16) := by first | assumption | exact ⟨rfl⟩) (e_u17 : Lets (e.unit 17) := by first | assumption | exact ⟨rfl⟩) (e_u20 : Lets (e.unit 20) := by first | assumption | exact ⟨rfl⟩) (e_u23 : Lets (e.unit 23) := by first | assumption | exact ⟨rfl⟩) (e_u24 : Lets (e.unit 24) := by first | assumption | exact ⟨rfl⟩) (e_u26 : Lets (e.unit 26) := by first | assumption | exact ⟨rfl⟩) : Calm e a (Device.heatDisable d p1) := by
  unfold Device.heatDisable
  split
  · refine Device.journalHeat_calm ?_
    refine Device.heatOff_calm ?_
    assumption
  · assumption
/-! JApply. -/
theorem Device.remoteLane_calm {e : Eff} {a : Device} {d : Device} {p1 : Time} {p2 : List (List Word)} (h : Calm e a d) (e_dd : Lets e.dd := by first | assumption | exact ⟨rfl⟩) (e_jnl : Lets e.jnl := by first | assumption | exact ⟨rfl⟩) (e_u6 : Lets (e.unit 6) := by first | assumption | exact ⟨rfl⟩) (e_u8 : Lets (e.unit 8) := by first | assumption | exact ⟨rfl⟩) (e_u10 : Lets (e.unit 10) := by first | assumption | exact ⟨rfl⟩) (e_u12 : Lets (e.unit 12) := by first | assumption | exact ⟨rfl⟩) (e_u16 : Lets (e.unit 16) := by first | assumption | exact ⟨rfl⟩) (e_u17 : Lets (e.unit 17) := by first | assumption | exact ⟨rfl⟩) (e_u20 : Lets (e.unit 20) := by first | assumption | exact ⟨rfl⟩) (e_u21 : Lets (e.unit 21) := by first | assumption | exact ⟨rfl⟩) (e_u23 : Lets (e.unit 23) := by first | assumption | exact ⟨rfl⟩) (e_u24 : Lets (e.unit 24) := by first | assumption | exact ⟨rfl⟩) (e_u26 : Lets (e.unit 26) := by first | assumption | exact ⟨rfl⟩) : Calm e a (Device.remoteLane d p1 p2) := by
  unfold Device.remoteLane
  extract_lets x1 x2 x3
  clear_value x1
  clear_value x2
  clear_value x3
  split
  · refine Device.countN_calm ?_
    assumption
  · extract_lets x4 x5 x6 x7
    clear_value x4
    clear_value x5
    clear_value x6
    clear_value x7
    split
    · refine Device.countN_calm ?_
      assumption
    · split
      · refine Device.count_calm ?_
        assumption
      · split
        · split
          · refine Device.followArrive_calm ?_
            assumption
          · assumption
        · split
          · split
            · refine Device.pfaArrive_calm ?_
              assumption
            · assumption
          · refine Device.deliver_calm ?_
            assumption
theorem Device.remoteRecs_calm {e : Eff} {a : Device} {d : Device} {p1 : Time} {p2 : List Byte} (h : Calm e a d) (e_dd : Lets e.dd := by first | assumption | exact ⟨rfl⟩) (e_jnl : Lets e.jnl := by first | assumption | exact ⟨rfl⟩) (e_u6 : Lets (e.unit 6) := by first | assumption | exact ⟨rfl⟩) (e_u8 : Lets (e.unit 8) := by first | assumption | exact ⟨rfl⟩) (e_u10 : Lets (e.unit 10) := by first | assumption | exact ⟨rfl⟩) (e_u12 : Lets (e.unit 12) := by first | assumption | exact ⟨rfl⟩) (e_u16 : Lets (e.unit 16) := by first | assumption | exact ⟨rfl⟩) (e_u17 : Lets (e.unit 17) := by first | assumption | exact ⟨rfl⟩) (e_u20 : Lets (e.unit 20) := by first | assumption | exact ⟨rfl⟩) (e_u21 : Lets (e.unit 21) := by first | assumption | exact ⟨rfl⟩) (e_u23 : Lets (e.unit 23) := by first | assumption | exact ⟨rfl⟩) (e_u24 : Lets (e.unit 24) := by first | assumption | exact ⟨rfl⟩) (e_u26 : Lets (e.unit 26) := by first | assumption | exact ⟨rfl⟩) : Calm e a (Device.remoteRecs d p1 p2) := by
  unfold Device.remoteRecs
  apply calm_foldl
  · intro v1
    intro v2
    intro v3
    refine Device.remoteLane_calm ?_
    assumption
  · assumption
theorem Device.partIn_calm {e : Eff} {a : Device} {d : Device} {p1 : List Byte} (h : Calm e a d) (e_dd : Lets e.dd := by first | assumption | exact ⟨rfl⟩) (e_jnl : Lets e.jnl := by first | assumption | exact ⟨rfl⟩) (e_u10 : Lets (e.unit 10) := by first | assumption | exact ⟨rfl⟩) (e_u21 : Lets (e.unit 21) := by first | assumption | exact ⟨rfl⟩) : Calm e a (Device.partIn d p1) := by
  unfold Device.partIn
  extract_lets x6000 x6001 x6002 x6003 x6004 x6005 x6006 x6007
  clear_value x6000
  clear_value x6001
  clear_value x6002
  clear_value x6003
  clear_value x6004
  clear_value x6005
  clear_value x6006
  clear_value x6007
  split
  · refine Device.count_calm ?_
    assumption
  · refine Device.partArrive_calm ?_
    assumption
theorem Device.controlIn_calm {e : Eff} {a : Device} {d : Device} {p1 : List Byte} (h : Calm e a d) (e_dd : Lets e.dd := by first | assumption | exact ⟨rfl⟩) (e_jnl : Lets e.jnl := by first | assumption | exact ⟨rfl⟩) (e_u8 : Lets (e.unit 8) := by first | assumption | exact ⟨rfl⟩) (e_u21 : Lets (e.unit 21) := by first | assumption | exact ⟨rfl⟩) : Calm e a (Device.controlIn d p1) := by
  unfold Device.controlIn
  extract_lets x6000 x6001
  clear_value x6000
  clear_value x6001
  split
  · refine Device.count_calm ?_
    assumption
  · split
    · refine Device.count_calm ?_
      assumption
    · refine Device.passTaken_calm ?_
      assumption
theorem Device.openUpTo_calm {e : Eff} {a : Device} {d : Device} {p1 : ℕ} {p2 : ℕ} {p3 : Time} (h : Calm e a d) (e_dd : Lets e.dd := by first | assumption | exact ⟨rfl⟩) (e_jnl : Lets e.jnl := by first | assumption | exact ⟨rfl⟩) (e_u8 : Lets (e.unit 8) := by first | assumption | exact ⟨rfl⟩) (e_u10 : Lets (e.unit 10) := by first | assumption | exact ⟨rfl⟩) (e_u12 : Lets (e.unit 12) := by first | assumption | exact ⟨rfl⟩) (e_u16 : Lets (e.unit 16) := by first | assumption | exact ⟨rfl⟩) (e_u17 : Lets (e.unit 17) := by first | assumption | exact ⟨rfl⟩) (e_u20 : Lets (e.unit 20) := by first | assumption | exact ⟨rfl⟩) (e_u23 : Lets (e.unit 23) := by first | assumption | exact ⟨rfl⟩) (e_u24 : Lets (e.unit 24) := by first | assumption | exact ⟨rfl⟩) (e_u26 : Lets (e.unit 26) := by first | assumption | exact ⟨rfl⟩) : Calm e a (Device.openUpTo d p1 p2 p3) := by
  unfold Device.openUpTo
  split
  · assumption
  · split
    · assumption
    · apply calm_foldl
      · intro v1
        intro v2
        intro v3
        split
        · split
          · refine Device.openNext_calm ?_
            assumption
          · assumption
        · assumption
      · assumption
theorem Device.gooseBefore_calm {e : Eff} {a : Device} {d : Device} {p1 : ℕ} {p2 : Time} (h : Calm e a d) (e_dd : Lets e.dd := by first | assumption | exact ⟨rfl⟩) (e_jnl : Lets e.jnl := by first | assumption | exact ⟨rfl⟩) (e_u4 : Lets (e.unit 4) := by first | assumption | exact ⟨rfl⟩) (e_u6 : Lets (e.unit 6) := by first | assumption | exact ⟨rfl⟩) (e_u8 : Lets (e.unit 8) := by first | assumption | exact ⟨rfl⟩) (e_u10 : Lets (e.unit 10) := by first | assumption | exact ⟨rfl⟩) (e_u12 : Lets (e.unit 12) := by first | assumption | exact ⟨rfl⟩) (e_u16 : Lets (e.unit 16) := by first | assumption | exact ⟨rfl⟩) (e_u17 : Lets (e.unit 17) := by first | assumption | exact ⟨rfl⟩) (e_u20 : Lets (e.unit 20) := by first | assumption | exact ⟨rfl⟩) (e_u21 : Lets (e.unit 21) := by first | assumption | exact ⟨rfl⟩) (e_u23 : Lets (e.unit 23) := by first | assumption | exact ⟨rfl⟩) (e_u24 : Lets (e.unit 24) := by first | assumption | exact ⟨rfl⟩) (e_u26 : Lets (e.unit 26) := by first | assumption | exact ⟨rfl⟩) : Calm e a (Device.gooseBefore d p1 p2) := by
  unfold Device.gooseBefore
  extract_lets x1
  clear_value x1
  apply calm_foldl
  · intro v2
    intro v3
    intro v4
    split
    · apply calm_foldl
      · intro v5
        intro v6
        intro v7
        extract_lets x8 x9
        clear_value x8
        clear_value x9
        split
        · refine Device.gooseLaneWrite_calm ?_
          assumption
        · assumption
      · assumption
    · assumption
  · assumption
theorem Device.jFrame_calm {e : Eff} {a : Device} {d : Device} {p1 : JEntry} (h : Calm e a d) (e_dd : Lets e.dd := by first | assumption | exact ⟨rfl⟩) (e_jnl : Lets e.jnl := by first | assumption | exact ⟨rfl⟩) (e_u4 : Lets (e.unit 4) := by first | assumption | exact ⟨rfl⟩) (e_u6 : Lets (e.unit 6) := by first | assumption | exact ⟨rfl⟩) (e_u8 : Lets (e.unit 8) := by first | assumption | exact ⟨rfl⟩) (e_u10 : Lets (e.unit 10) := by first | assumption | exact ⟨rfl⟩) (e_u12 : Lets (e.unit 12) := by first | assumption | exact ⟨rfl⟩) (e_u16 : Lets (e.unit 16) := by first | assumption | exact ⟨rfl⟩) (e_u17 : Lets (e.unit 17) := by first | assumption | exact ⟨rfl⟩) (e_u19 : Lets (e.unit 19) := by first | assumption | exact ⟨rfl⟩) (e_u20 : Lets (e.unit 20) := by first | assumption | exact ⟨rfl⟩) (e_u21 : Lets (e.unit 21) := by first | assumption | exact ⟨rfl⟩) (e_u23 : Lets (e.unit 23) := by first | assumption | exact ⟨rfl⟩) (e_u24 : Lets (e.unit 24) := by first | assumption | exact ⟨rfl⟩) (e_u26 : Lets (e.unit 26) := by first | assumption | exact ⟨rfl⟩) : Calm e a (Device.jFrame d p1) := by
  unfold Device.jFrame
  extract_lets x1 x2 x3 x4
  clear_value x1
  clear_value x2
  clear_value x3
  clear_value x4
  refine Device.applyFrame_calm ?_
  assumption
theorem Device.jSv_calm {e : Eff} {a : Device} {d : Device} {p1 : JEntry} {p2 : List Word} (h : Calm e a d) (e_dd : Lets e.dd := by first | assumption | exact ⟨rfl⟩) (e_u4 : Lets (e.unit 4) := by first | assumption | exact ⟨rfl⟩) (e_u19 : Lets (e.unit 19) := by first | assumption | exact ⟨rfl⟩) (e_u23 : Lets (e.unit 23) := by first | assumption | exact ⟨rfl⟩) : Calm e a (Device.jSv d p1 p2) := by
  unfold Device.jSv
  extract_lets x6000 x6001
  clear_value x6000
  clear_value x6001
  refine Device.svWrite_calm ?_
  assumption
theorem Device.jLocal_calm {e : Eff} {a : Device} {d : Device} {p1 : JEntry} {p2 : List Word} (h : Calm e a d) (e_u4 : Lets (e.unit 4) := by first | assumption | exact ⟨rfl⟩) : Calm e a (Device.jLocal d p1 p2) := by
  unfold Device.jLocal
  extract_lets x6000 x6001
  clear_value x6000
  clear_value x6001
  apply calm_foldl
  · intro v58
    intro v57
    intro w56
    extract_lets x5500 x5501 x5502
    clear_value x5500
    clear_value x5501
    clear_value x5502
    refine ringPut_calm ?_
    assumption
  · assumption
theorem Device.jDecision_calm {e : Eff} {a : Device} {d : Device} {p1 : JEntry} {p2 : List Word} (h : Calm e a d) (e_dd : Lets e.dd := by first | assumption | exact ⟨rfl⟩) (e_jnl : Lets e.jnl := by first | assumption | exact ⟨rfl⟩) (e_u4 : Lets (e.unit 4) := by first | assumption | exact ⟨rfl⟩) (e_u6 : Lets (e.unit 6) := by first | assumption | exact ⟨rfl⟩) (e_u8 : Lets (e.unit 8) := by first | assumption | exact ⟨rfl⟩) (e_u10 : Lets (e.unit 10) := by first | assumption | exact ⟨rfl⟩) (e_u12 : Lets (e.unit 12) := by first | assumption | exact ⟨rfl⟩) (e_u16 : Lets (e.unit 16) := by first | assumption | exact ⟨rfl⟩) (e_u17 : Lets (e.unit 17) := by first | assumption | exact ⟨rfl⟩) (e_u20 : Lets (e.unit 20) := by first | assumption | exact ⟨rfl⟩) (e_u21 : Lets (e.unit 21) := by first | assumption | exact ⟨rfl⟩) (e_u22 : Lets (e.unit 22) := by first | assumption | exact ⟨rfl⟩) (e_u23 : Lets (e.unit 23) := by first | assumption | exact ⟨rfl⟩) (e_u24 : Lets (e.unit 24) := by first | assumption | exact ⟨rfl⟩) (e_u26 : Lets (e.unit 26) := by first | assumption | exact ⟨rfl⟩) : Calm e a (Device.jDecision d p1 p2) := by
  unfold Device.jDecision
  extract_lets x1 x2 x3 x4 x5 x6
  clear_value x1
  clear_value x2
  clear_value x3
  have hx4 : Calm e a x4 := by
    unfold x4
    refine Device.gooseBefore_calm ?_
    refine Device.openUpTo_calm ?_
    assumption
  clear_value x4
  have hx5 : Calm e a x5 := by
    unfold x5
    refine Device.applyDecision_calm ?_
    assumption
  clear_value x5
  clear_value x6
  split
  · refine Calm.upd_rly ?_
    assumption
  · assumption
theorem Device.jCombine_calm {e : Eff} {a : Device} {d : Device} {p1 : JEntry} {p2 : List Word} (h : Calm e a d) (e_u10 : Lets (e.unit 10) := by first | assumption | exact ⟨rfl⟩) (e_u21 : Lets (e.unit 21) := by first | assumption | exact ⟨rfl⟩) : Calm e a (Device.jCombine d p1 p2) := by
  unfold Device.jCombine
  extract_lets x6000 x6001
  clear_value x6000
  clear_value x6001
  refine Device.applyCombine_calm ?_
  assumption
theorem Device.jPass_calm {e : Eff} {a : Device} {d : Device} {p1 : List Word} (h : Calm e a d) (e_u8 : Lets (e.unit 8) := by first | assumption | exact ⟨rfl⟩) (e_u21 : Lets (e.unit 21) := by first | assumption | exact ⟨rfl⟩) : Calm e a (Device.jPass d p1) := by
  unfold Device.jPass
  split
  · refine Device.applyPass_calm ?_
    assumption
  · assumption
theorem Device.jHeat_calm {e : Eff} {a : Device} {d : Device} {p1 : JEntry} {p2 : List Word} (h : Calm e a d) (e_dd : Lets e.dd := by first | assumption | exact ⟨rfl⟩) (e_jnl : Lets e.jnl := by first | assumption | exact ⟨rfl⟩) (e_u8 : Lets (e.unit 8) := by first | assumption | exact ⟨rfl⟩) (e_u10 : Lets (e.unit 10) := by first | assumption | exact ⟨rfl⟩) (e_u12 : Lets (e.unit 12) := by first | assumption | exact ⟨rfl⟩) (e_u14 : Lets (e.unit 14) := by first | assumption | exact ⟨rfl⟩) (e_u16 : Lets (e.unit 16) := by first | assumption | exact ⟨rfl⟩) (e_u17 : Lets (e.unit 17) := by first | assumption | exact ⟨rfl⟩) (e_u20 : Lets (e.unit 20) := by first | assumption | exact ⟨rfl⟩) (e_u23 : Lets (e.unit 23) := by first | assumption | exact ⟨rfl⟩) (e_u24 : Lets (e.unit 24) := by first | assumption | exact ⟨rfl⟩) (e_u26 : Lets (e.unit 26) := by first | assumption | exact ⟨rfl⟩) : Calm e a (Device.jHeat d p1 p2) := by
  unfold Device.jHeat
  extract_lets x1 x2 x3 x4 x5
  clear_value x1
  have hx2 : Calm e a x2 := by
    unfold x2
    refine Device.heatEnable_calm ?_
    assumption
  clear_value x2
  clear_value x3
  have hx4 : Calm e a x4 := by
    unfold x4
    apply calm_foldl
    · intro v6
      intro v7
      intro v8
      refine Device.delLap_calm ?_
      refine Device.stageDrop_calm ?_
      assumption
    · assumption
  clear_value x4
  have hx5 : Calm e a x5 := by
    unfold x5
    split
    · refine Device.setRun_calm ?_
      assumption
    · assumption
  clear_value x5
  split
  · split
    · refine Device.heatStartAt_calm ?_
      assumption
    · assumption
  · refine Device.heatDisable_calm ?_
    assumption
theorem Device.jConfig_calm {e : Eff} {a : Device} {d : Device} {p1 : JEntry} {p2 : List Word} (h : Calm e a d) (e_tab : Lets e.tab := by first | assumption | exact ⟨rfl⟩) (e_dd : Lets e.dd := by first | assumption | exact ⟨rfl⟩) (e_jnl : Lets e.jnl := by first | assumption | exact ⟨rfl⟩) (e_u4 : Lets (e.unit 4) := by first | assumption | exact ⟨rfl⟩) (e_u10 : Lets (e.unit 10) := by first | assumption | exact ⟨rfl⟩) (e_u15 : Lets (e.unit 15) := by first | assumption | exact ⟨rfl⟩) (e_u16 : Lets (e.unit 16) := by first | assumption | exact ⟨rfl⟩) (e_u17 : Lets (e.unit 17) := by first | assumption | exact ⟨rfl⟩) (e_u18 : Lets (e.unit 18) := by first | assumption | exact ⟨rfl⟩) (e_u20 : Lets (e.unit 20) := by first | assumption | exact ⟨rfl⟩) (e_u21 : Lets (e.unit 21) := by first | assumption | exact ⟨rfl⟩) (e_u23 : Lets (e.unit 23) := by first | assumption | exact ⟨rfl⟩) (e_u24 : Lets (e.unit 24) := by first | assumption | exact ⟨rfl⟩) : Calm e a (Device.jConfig d p1 p2) := by
  unfold Device.jConfig
  extract_lets x6000
  clear_value x6000
  refine Device.loadEntries_calm ?_
  assumption
theorem Device.jGraph_calm {e : Eff} {a : Device} {d : Device} {p1 : List Word} (h : Calm e a d) (e_u15 : Lets (e.unit 15) := by first | assumption | exact ⟨rfl⟩) : Calm e a (Device.jGraph d p1) := by
  unfold Device.jGraph
  refine Device.setIsl_calm ?_
  assumption
theorem Device.jMonitor_calm {e : Eff} {a : Device} {d : Device} {p1 : JEntry} {p2 : List Word} (h : Calm e a d) (e_dd : Lets e.dd := by first | assumption | exact ⟨rfl⟩) (e_jnl : Lets e.jnl := by first | assumption | exact ⟨rfl⟩) (e_u8 : Lets (e.unit 8) := by first | assumption | exact ⟨rfl⟩) (e_u10 : Lets (e.unit 10) := by first | assumption | exact ⟨rfl⟩) (e_u12 : Lets (e.unit 12) := by first | assumption | exact ⟨rfl⟩) (e_u14 : Lets (e.unit 14) := by first | assumption | exact ⟨rfl⟩) (e_u16 : Lets (e.unit 16) := by first | assumption | exact ⟨rfl⟩) (e_u17 : Lets (e.unit 17) := by first | assumption | exact ⟨rfl⟩) (e_u20 : Lets (e.unit 20) := by first | assumption | exact ⟨rfl⟩) (e_u23 : Lets (e.unit 23) := by first | assumption | exact ⟨rfl⟩) (e_u24 : Lets (e.unit 24) := by first | assumption | exact ⟨rfl⟩) (e_u26 : Lets (e.unit 26) := by first | assumption | exact ⟨rfl⟩) : Calm e a (Device.jMonitor d p1 p2) := by
  unfold Device.jMonitor
  extract_lets x1
  clear_value x1
  split
  · refine Device.osmStartAt_calm ?_
    refine Device.setf_calm ?_
    assumption
  · refine Device.osmStopJ_calm ?_
    refine Device.setf_calm ?_
    assumption
theorem Device.jGoose_calm {e : Eff} {a : Device} {d : Device} {p1 : List Word} (h : Calm e a d) (e_u17 : Lets (e.unit 17) := by first | assumption | exact ⟨rfl⟩) : Calm e a (Device.jGoose d p1) := by
  unfold Device.jGoose
  extract_lets x6000 x6001
  clear_value x6000
  clear_value x6001
  refine Device.setGoose_calm ?_
  assumption
theorem Device.applyEntry_calm {e : Eff} {a : Device} {d : Device} {p1 : JEntry} (h : Calm e a d) (e_tab : Lets e.tab := by first | assumption | exact ⟨rfl⟩) (e_dd : Lets e.dd := by first | assumption | exact ⟨rfl⟩) (e_jnl : Lets e.jnl := by first | assumption | exact ⟨rfl⟩) (e_u4 : Lets (e.unit 4) := by first | assumption | exact ⟨rfl⟩) (e_u6 : Lets (e.unit 6) := by first | assumption | exact ⟨rfl⟩) (e_u8 : Lets (e.unit 8) := by first | assumption | exact ⟨rfl⟩) (e_u10 : Lets (e.unit 10) := by first | assumption | exact ⟨rfl⟩) (e_u12 : Lets (e.unit 12) := by first | assumption | exact ⟨rfl⟩) (e_u14 : Lets (e.unit 14) := by first | assumption | exact ⟨rfl⟩) (e_u15 : Lets (e.unit 15) := by first | assumption | exact ⟨rfl⟩) (e_u16 : Lets (e.unit 16) := by first | assumption | exact ⟨rfl⟩) (e_u17 : Lets (e.unit 17) := by first | assumption | exact ⟨rfl⟩) (e_u18 : Lets (e.unit 18) := by first | assumption | exact ⟨rfl⟩) (e_u19 : Lets (e.unit 19) := by first | assumption | exact ⟨rfl⟩) (e_u20 : Lets (e.unit 20) := by first | assumption | exact ⟨rfl⟩) (e_u21 : Lets (e.unit 21) := by first | assumption | exact ⟨rfl⟩) (e_u22 : Lets (e.unit 22) := by first | assumption | exact ⟨rfl⟩) (e_u23 : Lets (e.unit 23) := by first | assumption | exact ⟨rfl⟩) (e_u24 : Lets (e.unit 24) := by first | assumption | exact ⟨rfl⟩) (e_u26 : Lets (e.unit 26) := by first | assumption | exact ⟨rfl⟩) : Calm e a (Device.applyEntry d p1) := by
  unfold Device.applyEntry
  extract_lets x1
  clear_value x1
  split
  · refine Device.jFrame_calm ?_
    assumption
  · refine Device.jSv_calm ?_
    assumption
  · refine Device.jLocal_calm ?_
    assumption
  · refine Device.plsiPulse_calm ?_
    assumption
  · refine Device.remoteRecs_calm ?_
    assumption
  · refine Device.partIn_calm ?_
    assumption
  · refine Device.jDecision_calm ?_
    assumption
  · refine Device.jCombine_calm ?_
    assumption
  · refine Device.jPass_calm ?_
    assumption
  · refine Device.jHeat_calm ?_
    assumption
  · refine Device.jConfig_calm ?_
    assumption
  · refine Device.count_calm ?_
    refine Device.thrSet_calm ?_
    assumption
  · refine Device.jGraph_calm ?_
    assumption
  · refine Device.jMonitor_calm ?_
    assumption
  · refine Device.jGoose_calm ?_
    assumption
  · assumption
theorem Device.openWaiting_calm {e : Eff} {a : Device} {d : Device} (h : Calm e a d) (e_dd : Lets e.dd := by first | assumption | exact ⟨rfl⟩) (e_jnl : Lets e.jnl := by first | assumption | exact ⟨rfl⟩) (e_u8 : Lets (e.unit 8) := by first | assumption | exact ⟨rfl⟩) (e_u10 : Lets (e.unit 10) := by first | assumption | exact ⟨rfl⟩) (e_u12 : Lets (e.unit 12) := by first | assumption | exact ⟨rfl⟩) (e_u16 : Lets (e.unit 16) := by first | assumption | exact ⟨rfl⟩) (e_u17 : Lets (e.unit 17) := by first | assumption | exact ⟨rfl⟩) (e_u20 : Lets (e.unit 20) := by first | assumption | exact ⟨rfl⟩) (e_u21 : Lets (e.unit 21) := by first | assumption | exact ⟨rfl⟩) (e_u23 : Lets (e.unit 23) := by first | assumption | exact ⟨rfl⟩) (e_u24 : Lets (e.unit 24) := by first | assumption | exact ⟨rfl⟩) (e_u26 : Lets (e.unit 26) := by first | assumption | exact ⟨rfl⟩) : Calm e a (Device.openWaiting d) := by
  unfold Device.openWaiting
  apply calm_foldl
  · intro v1
    intro v2
    intro v3
    split
    · refine lapOpenAll_calm ?_
      assumption
    · assumption
  · assumption
theorem Device.runTimer_calm {e : Eff} {a : Device} {d : Device} (h : Calm e a d) (e_dd : Lets e.dd := by first | assumption | exact ⟨rfl⟩) (e_jnl : Lets e.jnl := by first | assumption | exact ⟨rfl⟩) (e_u8 : Lets (e.unit 8) := by first | assumption | exact ⟨rfl⟩) (e_u10 : Lets (e.unit 10) := by first | assumption | exact ⟨rfl⟩) (e_u12 : Lets (e.unit 12) := by first | assumption | exact ⟨rfl⟩) (e_u16 : Lets (e.unit 16) := by first | assumption | exact ⟨rfl⟩) (e_u17 : Lets (e.unit 17) := by first | assumption | exact ⟨rfl⟩) (e_u21 : Lets (e.unit 21) := by first | assumption | exact ⟨rfl⟩) (e_u23 : Lets (e.unit 23) := by first | assumption | exact ⟨rfl⟩) (e_u24 : Lets (e.unit 24) := by first | assumption | exact ⟨rfl⟩) (e_u26 : Lets (e.unit 26) := by first | assumption | exact ⟨rfl⟩) : Calm e a (Device.runTimer d) := by
  unfold Device.runTimer
  split
  · assumption
  · split
    · assumption
    · refine finishLineAll_calm ?_
      assumption
    · refine instanceTimerExpiry_calm ?_
      assumption
theorem Device.rrAt_calm {e : Eff} {a : Device} {d : Device} {p1 : Time} (h : Calm e a d) (e_jnl : Lets e.jnl := by first | assumption | exact ⟨rfl⟩) (e_u10 : Lets (e.unit 10) := by first | assumption | exact ⟨rfl⟩) : Calm e a (Device.rrAt d p1) := by
  unfold Device.rrAt
  refine Calm.upd (d := d) ?_
  assumption
theorem rrAdvance_calm {e : Eff} {a : Device} {p0 : ℕ} {p1 : Time} {d : Device} (h : Calm e a d) (e_dd : Lets e.dd := by first | assumption | exact ⟨rfl⟩) (e_jnl : Lets e.jnl := by first | assumption | exact ⟨rfl⟩) (e_u8 : Lets (e.unit 8) := by first | assumption | exact ⟨rfl⟩) (e_u10 : Lets (e.unit 10) := by first | assumption | exact ⟨rfl⟩) (e_u12 : Lets (e.unit 12) := by first | assumption | exact ⟨rfl⟩) (e_u16 : Lets (e.unit 16) := by first | assumption | exact ⟨rfl⟩) (e_u17 : Lets (e.unit 17) := by first | assumption | exact ⟨rfl⟩) (e_u20 : Lets (e.unit 20) := by first | assumption | exact ⟨rfl⟩) (e_u21 : Lets (e.unit 21) := by first | assumption | exact ⟨rfl⟩) (e_u23 : Lets (e.unit 23) := by first | assumption | exact ⟨rfl⟩) (e_u24 : Lets (e.unit 24) := by first | assumption | exact ⟨rfl⟩) (e_u26 : Lets (e.unit 26) := by first | assumption | exact ⟨rfl⟩) : Calm e a (rrAdvance p0 p1 d) := by
  induction p0 generalizing p1 d
  · unfold rrAdvance
    assumption
  · rename_i n ih
    unfold rrAdvance
    extract_lets x1 x2 x3
    clear_value x1
    clear_value x2
    clear_value x3
    split
    · assumption
    · split
      · assumption
      · extract_lets x4 x5
        have hx4 : Calm e a x4 := by
          unfold x4
          refine Device.rrAt_calm ?_
          assumption
        clear_value x4
        have hx5 : Calm e a x5 := by
          unfold x5
          split
          · split
            · refine lapOpenAll_calm ?_
              assumption
            · assumption
          · refine Device.runTimer_calm ?_
            assumption
        clear_value x5
        apply ih
        refine Device.openWaiting_calm ?_
        assumption
/-! Snap. -/
theorem Device.showLevels_calm {e : Eff} {a : Device} {d : Device} (h : Calm e a d) (e_u8 : Lets (e.unit 8) := by first | assumption | exact ⟨rfl⟩) (e_u10 : Lets (e.unit 10) := by first | assumption | exact ⟨rfl⟩) : Calm e a (Device.showLevels d) := by
  unfold Device.showLevels
  extract_lets x6000
  have hx6000 : Calm e a x6000 := by
    unfold x6000
    refine Device.inFlight_calm ?_
    refine Device.storeShow_calm ?_
    refine Device.pendShow_calm ?_
    refine Device.stageShow_calm ?_
    assumption
  clear_value x6000
  apply calm_foldl
  · intro v58
    intro v57
    intro w56
    refine Device.listUsed_calm ?_
    refine Device.setf_calm ?_
    assumption
  · assumption
theorem Device.restore_calm {e : Eff} {a : Device} {d : Device} {p1 : Snap} {p2 : Bool} (h : Calm e a d) (e_dd : Lets e.dd := by first | assumption | exact ⟨rfl⟩) (e_tab : Lets e.tab := by first | assumption | exact ⟨rfl⟩) (e_u4 : Lets (e.unit 4) := by first | assumption | exact ⟨rfl⟩) (e_u8 : Lets (e.unit 8) := by first | assumption | exact ⟨rfl⟩) (e_u10 : Lets (e.unit 10) := by first | assumption | exact ⟨rfl⟩) (e_u12 : Lets (e.unit 12) := by first | assumption | exact ⟨rfl⟩) (e_u14 : Lets (e.unit 14) := by first | assumption | exact ⟨rfl⟩) (e_u15 : Lets (e.unit 15) := by first | assumption | exact ⟨rfl⟩) (e_u16 : Lets (e.unit 16) := by first | assumption | exact ⟨rfl⟩) (e_u17 : Lets (e.unit 17) := by first | assumption | exact ⟨rfl⟩) (e_u20 : Lets (e.unit 20) := by first | assumption | exact ⟨rfl⟩) (e_u21 : Lets (e.unit 21) := by first | assumption | exact ⟨rfl⟩) (e_all : ∀ b, Lets (e.unit b) := by first | assumption | exact ⟨rfl⟩) : Calm e a (Device.restore d p1 p2) := by
  unfold Device.restore
  extract_lets drv s1 s2 s3 s4 s5 s6 d1 d2
  have h1 : Calm e a d1 := by
    unfold d1
    refine Calm.upd (d := d) h rfl rfl (.inl e_all) (k6 := .inr ?_) (k11 := .inl (e_all _))
    split <;> rfl
  clear_value d1
  have h2 : Calm e a d2 := by
    unfold d2
    split
    · exact Device.ddrCells_calm (Device.ddrClear_calm h1)
    · exact Device.setf_calm (Device.setf_calm (Device.osmState_calm h1))
  exact Device.showLevels_calm (Device.setf_calm (Device.setf_calm h2))
/-! Relay. -/
theorem Device.setRly_calm {e : Eff} {a : Device} {d : Device} {p1 : Rly} (h : Calm e a d) (e_u22 : Lets (e.unit 22) := by first | assumption | exact ⟨rfl⟩) : Calm e a (Device.setRly d p1) := by
  unfold Device.setRly
  refine Calm.upd_rly ?_
  assumption
theorem Device.setJnl_calm {e : Eff} {a : Device} {d : Device} {p1 : Jnl} (h : Calm e a d) (e_jnl : Lets e.jnl := by first | assumption | exact ⟨rfl⟩) : Calm e a (Device.setJnl d p1) := by
  unfold Device.setJnl
  refine Calm.upd_jnl ?_
  assumption
theorem Device.lapsDiscard_calm {e : Eff} {a : Device} {d : Device} (h : Calm e a d) (e_u4 : Lets (e.unit 4) := by first | assumption | exact ⟨rfl⟩) (e_u8 : Lets (e.unit 8) := by first | assumption | exact ⟨rfl⟩) (e_u10 : Lets (e.unit 10) := by first | assumption | exact ⟨rfl⟩) (e_u12 : Lets (e.unit 12) := by first | assumption | exact ⟨rfl⟩) (e_u14 : Lets (e.unit 14) := by first | assumption | exact ⟨rfl⟩) (e_u15 : Lets (e.unit 15) := by first | assumption | exact ⟨rfl⟩) (e_u21 : Lets (e.unit 21) := by first | assumption | exact ⟨rfl⟩) : Calm e a (Device.lapsDiscard d) := by
  unfold Device.lapsDiscard
  extract_lets x6000 x6001 x6002 x6003 x6004 x6005 x6006 x6007 x6008
  clear_value x6001
  clear_value x6002
  clear_value x6003
  clear_value x6004
  clear_value x6005
  clear_value x6006
  have hx6007 : Calm e a x6007 := by
    unfold x6007
    refine Calm.upd (d := d) ?_
    assumption
  clear_value x6007
  have hx6008 : Calm e a x6008 := by
    unfold x6008
    refine Device.showLevels_calm ?_
    refine Device.setf_calm ?_
    refine Device.setf_calm ?_
    refine Device.osmState_calm ?_
    assumption
  clear_value x6008
  apply calm_foldl
  · intro v58
    intro v57
    intro w56
    refine Device.timersGone_calm ?_
    refine Device.heatDrain_calm ?_
    assumption
  · assumption
theorem Device.stepLoss_calm {e : Eff} {a : Device} {d : Device} {p1 : ℕ} (h : Calm e a d) (e_u4 : Lets (e.unit 4) := by first | assumption | exact ⟨rfl⟩) (e_u8 : Lets (e.unit 8) := by first | assumption | exact ⟨rfl⟩) (e_u10 : Lets (e.unit 10) := by first | assumption | exact ⟨rfl⟩) (e_u12 : Lets (e.unit 12) := by first | assumption | exact ⟨rfl⟩) (e_u14 : Lets (e.unit 14) := by first | assumption | exact ⟨rfl⟩) (e_u15 : Lets (e.unit 15) := by first | assumption | exact ⟨rfl⟩) (e_u21 : Lets (e.unit 21) := by first | assumption | exact ⟨rfl⟩) (e_u22 : Lets (e.unit 22) := by first | assumption | exact ⟨rfl⟩) : Calm e a (Device.stepLoss d p1) := by
  unfold Device.stepLoss
  split
  · assumption
  · extract_lets x1 x2
    have hx1 : Calm e a x1 := by
      unfold x1
      refine Device.raise_calm ?_
      refine Device.count_calm ?_
      refine Device.setf_calm ?_
      assumption
    clear_value x1
    clear_value x2
    refine Device.lapsDiscard_calm ?_
    refine Device.setRly_calm ?_
    assumption
theorem Device.lagCheck_calm {e : Eff} {a : Device} {d : Device} {p1 : Time} (h : Calm e a d) (e_u4 : Lets (e.unit 4) := by first | assumption | exact ⟨rfl⟩) (e_u8 : Lets (e.unit 8) := by first | assumption | exact ⟨rfl⟩) (e_u10 : Lets (e.unit 10) := by first | assumption | exact ⟨rfl⟩) (e_u12 : Lets (e.unit 12) := by first | assumption | exact ⟨rfl⟩) (e_u14 : Lets (e.unit 14) := by first | assumption | exact ⟨rfl⟩) (e_u15 : Lets (e.unit 15) := by first | assumption | exact ⟨rfl⟩) (e_u21 : Lets (e.unit 21) := by first | assumption | exact ⟨rfl⟩) (e_u22 : Lets (e.unit 22) := by first | assumption | exact ⟨rfl⟩) : Calm e a (Device.lagCheck d p1) := by
  unfold Device.lagCheck
  extract_lets x6000 x6001
  clear_value x6000
  have hx6001 : Calm e a x6001 := by
    unfold x6001
    refine Device.hwm_calm ?_
    refine Device.setf_calm ?_
    assumption
  clear_value x6001
  split
  · refine Device.stepLoss_calm ?_
    assumption
  · assumption
theorem Device.follow_calm {e : Eff} {a : Device} {d : Device} {p1 : JEntry} (h : Calm e a d) (e_tab : Lets e.tab := by first | assumption | exact ⟨rfl⟩) (e_dd : Lets e.dd := by first | assumption | exact ⟨rfl⟩) (e_jnl : Lets e.jnl := by first | assumption | exact ⟨rfl⟩) (e_u4 : Lets (e.unit 4) := by first | assumption | exact ⟨rfl⟩) (e_u6 : Lets (e.unit 6) := by first | assumption | exact ⟨rfl⟩) (e_u8 : Lets (e.unit 8) := by first | assumption | exact ⟨rfl⟩) (e_u10 : Lets (e.unit 10) := by first | assumption | exact ⟨rfl⟩) (e_u12 : Lets (e.unit 12) := by first | assumption | exact ⟨rfl⟩) (e_u14 : Lets (e.unit 14) := by first | assumption | exact ⟨rfl⟩) (e_u15 : Lets (e.unit 15) := by first | assumption | exact ⟨rfl⟩) (e_u16 : Lets (e.unit 16) := by first | assumption | exact ⟨rfl⟩) (e_u17 : Lets (e.unit 17) := by first | assumption | exact ⟨rfl⟩) (e_u18 : Lets (e.unit 18) := by first | assumption | exact ⟨rfl⟩) (e_u19 : Lets (e.unit 19) := by first | assumption | exact ⟨rfl⟩) (e_u20 : Lets (e.unit 20) := by first | assumption | exact ⟨rfl⟩) (e_u21 : Lets (e.unit 21) := by first | assumption | exact ⟨rfl⟩) (e_u22 : Lets (e.unit 22) := by first | assumption | exact ⟨rfl⟩) (e_u23 : Lets (e.unit 23) := by first | assumption | exact ⟨rfl⟩) (e_u24 : Lets (e.unit 24) := by first | assumption | exact ⟨rfl⟩) (e_u26 : Lets (e.unit 26) := by first | assumption | exact ⟨rfl⟩) : Calm e a (Device.follow d p1) := by
  unfold Device.follow
  extract_lets x1
  have hx1 : Calm e a x1 := by
    unfold x1
    refine Device.applyEntry_calm ?_
    assumption
  clear_value x1
  split
  · refine Device.lagCheck_calm ?_
    assumption
  · assumption
theorem Device.followEntry_calm {e : Eff} {a : Device} {d : Device} {p1 : JEntry} (h : Calm e a d) (e_tab : Lets e.tab := by first | assumption | exact ⟨rfl⟩) (e_dd : Lets e.dd := by first | assumption | exact ⟨rfl⟩) (e_jnl : Lets e.jnl := by first | assumption | exact ⟨rfl⟩) (e_u4 : Lets (e.unit 4) := by first | assumption | exact ⟨rfl⟩) (e_u6 : Lets (e.unit 6) := by first | assumption | exact ⟨rfl⟩) (e_u8 : Lets (e.unit 8) := by first | assumption | exact ⟨rfl⟩) (e_u10 : Lets (e.unit 10) := by first | assumption | exact ⟨rfl⟩) (e_u12 : Lets (e.unit 12) := by first | assumption | exact ⟨rfl⟩) (e_u14 : Lets (e.unit 14) := by first | assumption | exact ⟨rfl⟩) (e_u15 : Lets (e.unit 15) := by first | assumption | exact ⟨rfl⟩) (e_u16 : Lets (e.unit 16) := by first | assumption | exact ⟨rfl⟩) (e_u17 : Lets (e.unit 17) := by first | assumption | exact ⟨rfl⟩) (e_u18 : Lets (e.unit 18) := by first | assumption | exact ⟨rfl⟩) (e_u19 : Lets (e.unit 19) := by first | assumption | exact ⟨rfl⟩) (e_u20 : Lets (e.unit 20) := by first | assumption | exact ⟨rfl⟩) (e_u21 : Lets (e.unit 21) := by first | assumption | exact ⟨rfl⟩) (e_u22 : Lets (e.unit 22) := by first | assumption | exact ⟨rfl⟩) (e_u23 : Lets (e.unit 23) := by first | assumption | exact ⟨rfl⟩) (e_u24 : Lets (e.unit 24) := by first | assumption | exact ⟨rfl⟩) (e_u26 : Lets (e.unit 26) := by first | assumption | exact ⟨rfl⟩) : Calm e a (Device.followEntry d p1) := by
  unfold Device.followEntry
  split
  · refine Device.setRly_calm ?_
    assumption
  · split
    · assumption
    · refine Device.setRly_calm ?_
      assumption
  · split
    · assumption
    · refine Device.setRly_calm ?_
      assumption
  · split
    · refine Device.follow_calm ?_
      assumption
    · split
      · assumption
      · refine Device.setRly_calm ?_
        assumption
theorem Device.laneGap_calm {e : Eff} {a : Device} {d : Device} (h : Calm e a d) (e_u4 : Lets (e.unit 4) := by first | assumption | exact ⟨rfl⟩) (e_u8 : Lets (e.unit 8) := by first | assumption | exact ⟨rfl⟩) (e_u10 : Lets (e.unit 10) := by first | assumption | exact ⟨rfl⟩) (e_u12 : Lets (e.unit 12) := by first | assumption | exact ⟨rfl⟩) (e_u14 : Lets (e.unit 14) := by first | assumption | exact ⟨rfl⟩) (e_u15 : Lets (e.unit 15) := by first | assumption | exact ⟨rfl⟩) (e_u21 : Lets (e.unit 21) := by first | assumption | exact ⟨rfl⟩) (e_u22 : Lets (e.unit 22) := by first | assumption | exact ⟨rfl⟩) : Calm e a (Device.laneGap d) := by
  unfold Device.laneGap
  refine Device.stepLoss_calm ?_
  refine Device.setRly_calm ?_
  assumption
theorem Device.ckptRequest_calm {e : Eff} {a : Device} {d : Device} (h : Calm e a d) (e_jnl : Lets e.jnl := by first | assumption | exact ⟨rfl⟩) : Calm e a (Device.ckptRequest d) := by
  unfold Device.ckptRequest
  refine Calm.upd_jnl ?_
  assumption
theorem Device.journalIn_calm {e : Eff} {a : Device} {d : Device} {p1 : List Byte} (h : Calm e a d) (e_tab : Lets e.tab := by first | assumption | exact ⟨rfl⟩) (e_dd : Lets e.dd := by first | assumption | exact ⟨rfl⟩) (e_jnl : Lets e.jnl := by first | assumption | exact ⟨rfl⟩) (e_u4 : Lets (e.unit 4) := by first | assumption | exact ⟨rfl⟩) (e_u6 : Lets (e.unit 6) := by first | assumption | exact ⟨rfl⟩) (e_u8 : Lets (e.unit 8) := by first | assumption | exact ⟨rfl⟩) (e_u10 : Lets (e.unit 10) := by first | assumption | exact ⟨rfl⟩) (e_u12 : Lets (e.unit 12) := by first | assumption | exact ⟨rfl⟩) (e_u14 : Lets (e.unit 14) := by first | assumption | exact ⟨rfl⟩) (e_u15 : Lets (e.unit 15) := by first | assumption | exact ⟨rfl⟩) (e_u16 : Lets (e.unit 16) := by first | assumption | exact ⟨rfl⟩) (e_u17 : Lets (e.unit 17) := by first | assumption | exact ⟨rfl⟩) (e_u18 : Lets (e.unit 18) := by first | assumption | exact ⟨rfl⟩) (e_u19 : Lets (e.unit 19) := by first | assumption | exact ⟨rfl⟩) (e_u20 : Lets (e.unit 20) := by first | assumption | exact ⟨rfl⟩) (e_u21 : Lets (e.unit 21) := by first | assumption | exact ⟨rfl⟩) (e_u22 : Lets (e.unit 22) := by first | assumption | exact ⟨rfl⟩) (e_u23 : Lets (e.unit 23) := by first | assumption | exact ⟨rfl⟩) (e_u24 : Lets (e.unit 24) := by first | assumption | exact ⟨rfl⟩) (e_u26 : Lets (e.unit 26) := by first | assumption | exact ⟨rfl⟩) : Calm e a (Device.journalIn d p1) := by
  unfold Device.journalIn
  extract_lets x1 x2 x3 x4 x5 x6
  clear_value x1
  clear_value x2
  clear_value x3
  clear_value x4
  have hx5 : Calm e a x5 := by
    unfold x5
    split
    · refine Device.laneGap_calm ?_
      assumption
    · assumption
  clear_value x5
  clear_value x6
  split
  · split
    · refine Device.ckptRequest_calm ?_
      assumption
    · assumption
  · split
    · assumption
    · split
      · refine Device.laneGap_calm ?_
        refine Device.setRly_calm ?_
        assumption
      · split
        · refine Device.setRly_calm ?_
          assumption
        · extract_lets x7
          have hx7 : Calm e a x7 := by
            unfold x7
            refine Device.setRly_calm ?_
            assumption
          clear_value x7
          split
          · refine Device.followEntry_calm ?_
            assumption
          · refine Device.laneGap_calm ?_
            assumption
theorem checkpointLoad_calm {e : Eff} {a : Device} {d : Device} (h : Calm e a d) (e_u26 : Lets (e.unit 26) := by first | assumption | exact ⟨rfl⟩) (e_tab : Lets e.tab := by first | assumption | exact ⟨rfl⟩) (e_dd : Lets e.dd := by first | assumption | exact ⟨rfl⟩) (e_jnl : Lets e.jnl := by first | assumption | exact ⟨rfl⟩) (e_u4 : Lets (e.unit 4) := by first | assumption | exact ⟨rfl⟩) (e_u6 : Lets (e.unit 6) := by first | assumption | exact ⟨rfl⟩) (e_u8 : Lets (e.unit 8) := by first | assumption | exact ⟨rfl⟩) (e_u10 : Lets (e.unit 10) := by first | assumption | exact ⟨rfl⟩) (e_u12 : Lets (e.unit 12) := by first | assumption | exact ⟨rfl⟩) (e_u14 : Lets (e.unit 14) := by first | assumption | exact ⟨rfl⟩) (e_u15 : Lets (e.unit 15) := by first | assumption | exact ⟨rfl⟩) (e_u16 : Lets (e.unit 16) := by first | assumption | exact ⟨rfl⟩) (e_u17 : Lets (e.unit 17) := by first | assumption | exact ⟨rfl⟩) (e_u18 : Lets (e.unit 18) := by first | assumption | exact ⟨rfl⟩) (e_u19 : Lets (e.unit 19) := by first | assumption | exact ⟨rfl⟩) (e_u20 : Lets (e.unit 20) := by first | assumption | exact ⟨rfl⟩) (e_u21 : Lets (e.unit 21) := by first | assumption | exact ⟨rfl⟩) (e_u22 : Lets (e.unit 22) := by first | assumption | exact ⟨rfl⟩) (e_u23 : Lets (e.unit 23) := by first | assumption | exact ⟨rfl⟩) (e_u24 : Lets (e.unit 24) := by first | assumption | exact ⟨rfl⟩) (e_all : ∀ b, Lets (e.unit b) := by first | assumption | exact ⟨rfl⟩) : Calm e a (checkpointLoad d) := by
  unfold checkpointLoad
  extract_lets x6000 x6001 x6002 x6003
  clear_value x6000
  clear_value x6001
  clear_value x6002
  have hx6003 : Calm e a x6003 := by
    unfold x6003
    refine Device.setRly_calm ?_
    assumption
  clear_value x6003
  split
  · assumption
  · split
    · assumption
    · extract_lets x5700 x5701
      clear_value x5700
      have hx5701 : Calm e a x5701 := by
        unfold x5701
        refine Device.count_calm ?_
        refine Device.setf_calm ?_
        refine Device.restore_calm ?_
        assumption
      clear_value x5701
      split
      · refine Device.stepLoss_calm ?_
        refine Device.raise_calm ?_
        refine Device.count_calm ?_
        assumption
      · split
        · assumption
        · apply calm_foldl
          · intro v53
            intro v52
            intro w51
            split
            · refine Device.follow_calm ?_
              assumption
            · assumption
          · assumption
theorem pumpF_calm {e : Eff} {a : Device} {p0 : ℕ} {d : Device} (h : Calm e a d) (e_u17 : Lets (e.unit 17) := by first | assumption | exact ⟨rfl⟩) (e_u21 : Lets (e.unit 21) := by first | assumption | exact ⟨rfl⟩) (e_u22 : Lets (e.unit 22) := by first | assumption | exact ⟨rfl⟩) (e_u24 : Lets (e.unit 24) := by first | assumption | exact ⟨rfl⟩) : Calm e a (pumpF p0 d) := by
  induction p0 generalizing d
  · unfold pumpF
    assumption
  · rename_i n ih
    unfold pumpF
    split
    · refine Device.setRly_calm ?_
      assumption
    · extract_lets x1 x2 x3 x4 x5 x6 x7
      clear_value x1
      clear_value x2
      clear_value x3
      clear_value x4
      have hx5 : Calm e a x5 := by
        unfold x5
        refine Device.setRly_calm ?_
        assumption
      clear_value x5
      clear_value x6
      have hx7 : Calm e a x7 := by
        unfold x7
        split
        · refine Device.count_calm ?_
          assumption
        · assumption
      clear_value x7
      split
      · refine Device.setRly_calm ?_
        assumption
      · apply ih
        refine Device.rxlSend_calm ?_
        assumption
theorem Device.forwardFrom_calm {e : Eff} {a : Device} {d : Device} (h : Calm e a d) (e_u22 : Lets (e.unit 22) := by first | assumption | exact ⟨rfl⟩) : Calm e a (Device.forwardFrom d) := by
  unfold Device.forwardFrom
  refine Device.setRly_calm ?_
  assumption
theorem Device.askCheckpoint_calm {e : Eff} {a : Device} {d : Device} (h : Calm e a d) (e_u17 : Lets (e.unit 17) := by first | assumption | exact ⟨rfl⟩) (e_u21 : Lets (e.unit 21) := by first | assumption | exact ⟨rfl⟩) (e_u22 : Lets (e.unit 22) := by first | assumption | exact ⟨rfl⟩) (e_u24 : Lets (e.unit 24) := by first | assumption | exact ⟨rfl⟩) : Calm e a (Device.askCheckpoint d) := by
  unfold Device.askCheckpoint
  split
  · refine Device.rxlSend_calm ?_
    refine Device.count_calm ?_
    refine Device.setf_calm ?_
    assumption
  · assumption
theorem Device.pump_calm {e : Eff} {a : Device} {d : Device} (h : Calm e a d) (e_u17 : Lets (e.unit 17) := by first | assumption | exact ⟨rfl⟩) (e_u21 : Lets (e.unit 21) := by first | assumption | exact ⟨rfl⟩) (e_u22 : Lets (e.unit 22) := by first | assumption | exact ⟨rfl⟩) (e_u24 : Lets (e.unit 24) := by first | assumption | exact ⟨rfl⟩) : Calm e a (Device.pump d) := by
  unfold Device.pump
  split
  · assumption
  · split
    · split
      · refine pumpF_calm ?_
        assumption
      · refine Device.forwardFrom_calm ?_
        assumption
    · split
      · refine Device.askCheckpoint_calm ?_
        assumption
      · assumption
theorem Device.batonLevel_calm {e : Eff} {a : Device} {d : Device} {p1 : Bool} (h : Calm e a d) (e_u22 : Lets (e.unit 22) := by first | assumption | exact ⟨rfl⟩) : Calm e a (Device.batonLevel d p1) := by
  unfold Device.batonLevel
  split
  · assumption
  · refine Device.emit_calm ?_
    refine Device.setRly_calm ?_
    assumption
theorem Device.driversOn_calm {e : Eff} {a : Device} {d : Device} (h : Calm e a d) (e_u16 : Lets (e.unit 16) := by first | assumption | exact ⟨rfl⟩) (e_u22 : Lets (e.unit 22) := by first | assumption | exact ⟨rfl⟩) : Calm e a (Device.driversOn d) := by
  unfold Device.driversOn
  extract_lets x6000 x6001 x6002
  clear_value x6000
  have hx6001 : Calm e a x6001 := by
    unfold x6001
    refine Device.setRly_calm ?_
    refine Device.setf_calm ?_
    refine Device.setf_calm ?_
    assumption
  clear_value x6001
  have hx6002 : Calm e a x6002 := by
    unfold x6002
    apply calm_foldl
    · intro v58
      intro v57
      intro w56
      refine Device.aoutDrive_calm ?_
      assumption
    · assumption
  clear_value x6002
  apply calm_foldl
  · intro v58
    intro v57
    intro w56
    split
    · refine Device.poDrive_calm ?_
      assumption
    · assumption
  · assumption
theorem Device.driversOff_calm {e : Eff} {a : Device} {d : Device} (h : Calm e a d) (e_u16 : Lets (e.unit 16) := by first | assumption | exact ⟨rfl⟩) (e_u22 : Lets (e.unit 22) := by first | assumption | exact ⟨rfl⟩) : Calm e a (Device.driversOff d) := by
  unfold Device.driversOff
  refine Device.setRly_calm ?_
  refine Device.setf_calm ?_
  refine Device.setf_calm ?_
  assumption
theorem Device.takeBaton_calm {e : Eff} {a : Device} {d : Device} (h : Calm e a d) (e_u22 : Lets (e.unit 22) := by first | assumption | exact ⟨rfl⟩) : Calm e a (Device.takeBaton d) := by
  unfold Device.takeBaton
  extract_lets x6000 x6001
  have hx6000 : Calm e a x6000 := by
    unfold x6000
    refine Device.batonLevel_calm ?_
    assumption
  clear_value x6000
  clear_value x6001
  refine Device.setf_calm ?_
  refine Device.setRly_calm ?_
  assumption
theorem batonToggle_calm {e : Eff} {a : Device} {d : Device} (h : Calm e a d) (e_u22 : Lets (e.unit 22) := by first | assumption | exact ⟨rfl⟩) : Calm e a (batonToggle d) := by
  unfold batonToggle
  split
  · refine Device.batonLevel_calm ?_
    assumption
  · assumption
theorem driverEnable_calm {e : Eff} {a : Device} {d : Device} (h : Calm e a d) (e_u16 : Lets (e.unit 16) := by first | assumption | exact ⟨rfl⟩) (e_u22 : Lets (e.unit 22) := by first | assumption | exact ⟨rfl⟩) : Calm e a (driverEnable d) := by
  unfold driverEnable
  split
  · split
    · refine Device.driversOn_calm ?_
      assumption
    · assumption
  · assumption
theorem heartbeatMissing_calm {e : Eff} {a : Device} {d : Device} (h : Calm e a d) (e_u22 : Lets (e.unit 22) := by first | assumption | exact ⟨rfl⟩) : Calm e a (heartbeatMissing d) := by
  unfold heartbeatMissing
  split
  · refine Device.stopToggle_calm ?_
    assumption
  · assumption
theorem Device.enterFollow_calm {e : Eff} {a d : Device} (hm : Moves d.pwr.mode .follow) (h : Calm e a d) (e_mode : Lets e.mode := by first | assumption | exact ⟨rfl⟩) (e_u1 : Lets (e.unit 1) := by first | assumption | exact ⟨rfl⟩) (e_u22 : Lets (e.unit 22) := by first | assumption | exact ⟨rfl⟩) :
    Calm e a d.enterFollow := by
  unfold Device.enterFollow
  exact Device.setRly_calm (Calm.upd (d := (d.setMode .follow).setf RLY_STAT.IN_STEP 0) (Device.setf_calm (Device.setMode_calm hm h)))
theorem Device.sensLost_calm {e : Eff} {a : Device} {d : Device} {p1 : ℕ} (h : Calm e a d) (e_u27 : Lets (e.unit 27) := by first | assumption | exact ⟨rfl⟩) : Calm e a (Device.sensLost d p1) := by
  unfold Device.sensLost
  refine Device.raise_calm ?_
  refine Device.count_calm ?_
  assumption
theorem Device.sensorsLost_calm {e : Eff} {a : Device} {d : Device} (h : Calm e a d) (e_u27 : Lets (e.unit 27) := by first | assumption | exact ⟨rfl⟩) : Calm e a (Device.sensorsLost d) := by
  unfold Device.sensorsLost
  extract_lets x1 x2 x3 x4
  clear_value x1
  clear_value x2
  clear_value x3
  have hx4 : Calm e a x4 := by
    unfold x4
    refine Calm.upd_xcr ?_
    assumption
  clear_value x4
  apply calm_foldl
  · intro v5
    intro v6
    intro v7
    refine Device.sensLost_calm ?_
    assumption
  · assumption
theorem Device.pubsStart_calm {e : Eff} {a : Device} {d : Device} {p1 : Bool} (h : Calm e a d) (e_dd : Lets e.dd := by first | assumption | exact ⟨rfl⟩) (e_jnl : Lets e.jnl := by first | assumption | exact ⟨rfl⟩) (e_u17 : Lets (e.unit 17) := by first | assumption | exact ⟨rfl⟩) (e_u24 : Lets (e.unit 24) := by first | assumption | exact ⟨rfl⟩) : Calm e a (Device.pubsStart d p1) := by
  unfold Device.pubsStart
  refine Device.gooseGo_calm ?_
  apply calm_foldl
  · intro v1
    intro v2
    intro v3
    split
    · assumption
    · split
      · extract_lets x4
        clear_value x4
        refine Device.gooseNew_calm ?_
        refine Device.count_calm ?_
        refine Device.setGoose_calm ?_
        assumption
      · refine Device.gooseStart_calm ?_
        assumption
  · assumption
theorem Device.raceBegin_calm {e : Eff} {a : Device} {d : Device} (h : Calm e a d) (e_tab : Lets e.tab := by first | assumption | exact ⟨rfl⟩) (e_dd : Lets e.dd := by first | assumption | exact ⟨rfl⟩) (e_jnl : Lets e.jnl := by first | assumption | exact ⟨rfl⟩) (e_u1 : Lets (e.unit 1) := by first | assumption | exact ⟨rfl⟩) (e_u8 : Lets (e.unit 8) := by first | assumption | exact ⟨rfl⟩) (e_u16 : Lets (e.unit 16) := by first | assumption | exact ⟨rfl⟩) (e_u17 : Lets (e.unit 17) := by first | assumption | exact ⟨rfl⟩) (e_u20 : Lets (e.unit 20) := by first | assumption | exact ⟨rfl⟩) (e_u22 : Lets (e.unit 22) := by first | assumption | exact ⟨rfl⟩) (e_u23 : Lets (e.unit 23) := by first | assumption | exact ⟨rfl⟩) (e_u24 : Lets (e.unit 24) := by first | assumption | exact ⟨rfl⟩) (e_u27 : Lets (e.unit 27) := by first | assumption | exact ⟨rfl⟩) : Calm e a (Device.raceBegin d) := by
  unfold Device.raceBegin
  extract_lets x1 x2 x3 x4
  have hx2 : Calm e a x2 := by
    unfold x2
    unfold Device.setPwr
    refine Calm.upd_pwr ?_
    assumption
  clear_value x2
  have hx3 : Calm e a x3 := by
    unfold x3
    split
    · split
      · refine Device.energyRestore_calm ?_
        assumption
      · refine Device.energyRestoreFail_calm ?_
        assumption
    · refine Device.setf_calm ?_
      assumption
  clear_value x3
  have hx4 : Calm e a x4 := by
    unfold x4
    apply calm_foldl
    · intro v5
      intro v6
      intro v7
      split
      · split
        · refine Device.heatStart_calm ?_
          assumption
        · assumption
      · assumption
    · assumption
  clear_value x4
  refine Device.forwardFrom_calm ?_
  refine Device.sensorsLost_calm ?_
  assumption
theorem Device.enterRace_calm {e : Eff} {a d : Device} (hm : Moves d.pwr.mode .race) (h : Calm e a d) (e_mode : Lets e.mode := by first | assumption | exact ⟨rfl⟩) (e_tab : Lets e.tab := by first | assumption | exact ⟨rfl⟩) (e_dd : Lets e.dd := by first | assumption | exact ⟨rfl⟩) (e_jnl : Lets e.jnl := by first | assumption | exact ⟨rfl⟩) (e_u1 : Lets (e.unit 1) := by first | assumption | exact ⟨rfl⟩) (e_u8 : Lets (e.unit 8) := by first | assumption | exact ⟨rfl⟩) (e_u16 : Lets (e.unit 16) := by first | assumption | exact ⟨rfl⟩) (e_u17 : Lets (e.unit 17) := by first | assumption | exact ⟨rfl⟩) (e_u20 : Lets (e.unit 20) := by first | assumption | exact ⟨rfl⟩) (e_u22 : Lets (e.unit 22) := by first | assumption | exact ⟨rfl⟩) (e_u23 : Lets (e.unit 23) := by first | assumption | exact ⟨rfl⟩) (e_u24 : Lets (e.unit 24) := by first | assumption | exact ⟨rfl⟩) (e_u27 : Lets (e.unit 27) := by first | assumption | exact ⟨rfl⟩) :
    Calm e a d.enterRace := by
  unfold Device.enterRace
  extract_lets d1
  have h1 : Calm e a d1 := Device.setMode_calm hm h
  have h2 : Calm e a (d1.setPwr { d1.pwr with watchAt := none }) := h1.upd
  exact Device.clientsStart_calm (Device.pubsStart_calm (Device.raceBegin_calm h2))
theorem Device.goRace_calm {e : Eff} {a d : Device} (hm : d.pwr.mode = .warmup) (h : Calm e a d) (e_mode : Lets e.mode := by first | assumption | exact ⟨rfl⟩) (e_tab : Lets e.tab := by first | assumption | exact ⟨rfl⟩) (e_dd : Lets e.dd := by first | assumption | exact ⟨rfl⟩) (e_jnl : Lets e.jnl := by first | assumption | exact ⟨rfl⟩) (e_u1 : Lets (e.unit 1) := by first | assumption | exact ⟨rfl⟩) (e_u8 : Lets (e.unit 8) := by first | assumption | exact ⟨rfl⟩) (e_u16 : Lets (e.unit 16) := by first | assumption | exact ⟨rfl⟩) (e_u17 : Lets (e.unit 17) := by first | assumption | exact ⟨rfl⟩) (e_u20 : Lets (e.unit 20) := by first | assumption | exact ⟨rfl⟩) (e_u22 : Lets (e.unit 22) := by first | assumption | exact ⟨rfl⟩) (e_u23 : Lets (e.unit 23) := by first | assumption | exact ⟨rfl⟩) (e_u24 : Lets (e.unit 24) := by first | assumption | exact ⟨rfl⟩) (e_u27 : Lets (e.unit 27) := by first | assumption | exact ⟨rfl⟩) :
    Calm e a d.goRace := by
  unfold Device.goRace
  have h1 : Calm e a (d.setf RLY_STAT.HOLDER 1) := Device.setf_calm h
  have k1 : (d.setf RLY_STAT.HOLDER 1).pwr.mode = d.pwr.mode := (Device.setf_calm (Calm.refl Eff.still d)).mode_eq
  split
  · refine Device.driversOn_calm (Device.enterRace_calm ?_ h1)
    rw [k1, hm]; trivial
  · split
    · refine Device.enterFollow_calm ?_ h
      rw [hm]; trivial
    · exact h.upd
theorem batonWatchEnd_calm {e : Eff} {a d : Device} (h : Calm e a d) (e_mode : Lets e.mode := by first | assumption | exact ⟨rfl⟩) (e_tab : Lets e.tab := by first | assumption | exact ⟨rfl⟩) (e_dd : Lets e.dd := by first | assumption | exact ⟨rfl⟩) (e_jnl : Lets e.jnl := by first | assumption | exact ⟨rfl⟩) (e_u1 : Lets (e.unit 1) := by first | assumption | exact ⟨rfl⟩) (e_u8 : Lets (e.unit 8) := by first | assumption | exact ⟨rfl⟩) (e_u16 : Lets (e.unit 16) := by first | assumption | exact ⟨rfl⟩) (e_u17 : Lets (e.unit 17) := by first | assumption | exact ⟨rfl⟩) (e_u20 : Lets (e.unit 20) := by first | assumption | exact ⟨rfl⟩) (e_u21 : Lets (e.unit 21) := by first | assumption | exact ⟨rfl⟩) (e_u22 : Lets (e.unit 22) := by first | assumption | exact ⟨rfl⟩) (e_u23 : Lets (e.unit 23) := by first | assumption | exact ⟨rfl⟩) (e_u24 : Lets (e.unit 24) := by first | assumption | exact ⟨rfl⟩) (e_u27 : Lets (e.unit 27) := by first | assumption | exact ⟨rfl⟩) : Calm e a (batonWatchEnd d) := by
  unfold batonWatchEnd
  split
  · exact h
  · split
    · exact h
    · rename_i hn
      have hm : d.pwr.mode = .warmup := by
        by_contra hx
        exact hn (.inl hx)
      refine calm_ite _ ?_ ?_
      · refine Device.askCheckpoint_calm (Device.setf_calm (Device.enterFollow_calm ?_ h))
        rw [hm]; trivial
      · refine Device.enterRace_calm ?_ (Device.takeBaton_calm h)
        rw [(Device.takeBaton_calm (Calm.refl Eff.still d)).mode_eq, hm]; trivial
theorem Device.linksStop_calm {e : Eff} {a : Device} {d : Device} (h : Calm e a d) (e_u21 : Lets (e.unit 21) := by first | assumption | exact ⟨rfl⟩) : Calm e a (Device.linksStop d) := by
  unfold Device.linksStop
  refine Device.setRxl_calm ?_
  assumption
theorem Device.batonRelease_calm {e : Eff} {a d : Device} (h : Calm e a d) (e_mode : Lets e.mode := by first | assumption | exact ⟨rfl⟩) (e_u1 : Lets (e.unit 1) := by first | assumption | exact ⟨rfl⟩) (e_u4 : Lets (e.unit 4) := by first | assumption | exact ⟨rfl⟩) (e_u8 : Lets (e.unit 8) := by first | assumption | exact ⟨rfl⟩) (e_u10 : Lets (e.unit 10) := by first | assumption | exact ⟨rfl⟩) (e_u12 : Lets (e.unit 12) := by first | assumption | exact ⟨rfl⟩) (e_u14 : Lets (e.unit 14) := by first | assumption | exact ⟨rfl⟩) (e_u15 : Lets (e.unit 15) := by first | assumption | exact ⟨rfl⟩) (e_u16 : Lets (e.unit 16) := by first | assumption | exact ⟨rfl⟩) (e_u17 : Lets (e.unit 17) := by first | assumption | exact ⟨rfl⟩) (e_u21 : Lets (e.unit 21) := by first | assumption | exact ⟨rfl⟩) (e_u22 : Lets (e.unit 22) := by first | assumption | exact ⟨rfl⟩) : Calm e a d.batonRelease := by
  unfold Device.batonRelease
  extract_lets src d1 d2 d3
  have h1 : Calm e a d1 := by
    unfold d1
    exact Device.setf_calm (Device.setRly_calm (Device.batonLevel_calm (Device.driversOff_calm h)))
  have h2 : Calm e a d2 := Device.linksStop_calm (Device.clientsStop_calm (Device.tcpEndAll_calm (Device.txStopAll_calm h1)))
  have h3 : Calm e a d3 := Device.raise_calm (Device.count_calm (Device.setf_calm h2))
  clear_value d3
  split
  · rename_i hr
    refine Device.lapsDiscard_calm (Device.enterFollow_calm ?_ h3)
    have hm : d3.pwr.mode = .race := by
      simp only [Device.racing, decide_eq_true_eq] at hr
      exact hr
    rw [hm]; trivial
  · exact h3
theorem batonEdge_calm {e : Eff} {a : Device} {d : Device} (h : Calm e a d) (e_mode : Lets e.mode := by first | assumption | exact ⟨rfl⟩) (e_u1 : Lets (e.unit 1) := by first | assumption | exact ⟨rfl⟩) (e_u4 : Lets (e.unit 4) := by first | assumption | exact ⟨rfl⟩) (e_u8 : Lets (e.unit 8) := by first | assumption | exact ⟨rfl⟩) (e_u10 : Lets (e.unit 10) := by first | assumption | exact ⟨rfl⟩) (e_u12 : Lets (e.unit 12) := by first | assumption | exact ⟨rfl⟩) (e_u14 : Lets (e.unit 14) := by first | assumption | exact ⟨rfl⟩) (e_u15 : Lets (e.unit 15) := by first | assumption | exact ⟨rfl⟩) (e_u16 : Lets (e.unit 16) := by first | assumption | exact ⟨rfl⟩) (e_u17 : Lets (e.unit 17) := by first | assumption | exact ⟨rfl⟩) (e_u21 : Lets (e.unit 21) := by first | assumption | exact ⟨rfl⟩) (e_u22 : Lets (e.unit 22) := by first | assumption | exact ⟨rfl⟩) : Calm e a (batonEdge d) := by
  unfold batonEdge
  split
  · assumption
  · extract_lets x5900 x5901
    clear_value x5900
    have hx5901 : Calm e a x5901 := by
      unfold x5901
      refine Device.setRly_calm ?_
      assumption
    clear_value x5901
    split
    · refine Device.batonRelease_calm ?_
      assumption
    · assumption
theorem Device.takeLap_calm {e : Eff} {a : Device} {d : Device} {p1 : ℕ} {p2 : ℕ} (h : Calm e a d) (e_dd : Lets e.dd := by first | assumption | exact ⟨rfl⟩) (e_jnl : Lets e.jnl := by first | assumption | exact ⟨rfl⟩) (e_u8 : Lets (e.unit 8) := by first | assumption | exact ⟨rfl⟩) (e_u10 : Lets (e.unit 10) := by first | assumption | exact ⟨rfl⟩) (e_u12 : Lets (e.unit 12) := by first | assumption | exact ⟨rfl⟩) (e_u16 : Lets (e.unit 16) := by first | assumption | exact ⟨rfl⟩) (e_u17 : Lets (e.unit 17) := by first | assumption | exact ⟨rfl⟩) (e_u20 : Lets (e.unit 20) := by first | assumption | exact ⟨rfl⟩) (e_u23 : Lets (e.unit 23) := by first | assumption | exact ⟨rfl⟩) (e_u24 : Lets (e.unit 24) := by first | assumption | exact ⟨rfl⟩) (e_u26 : Lets (e.unit 26) := by first | assumption | exact ⟨rfl⟩) : Calm e a (Device.takeLap d p1 p2) := by
  unfold Device.takeLap
  extract_lets x1
  have hx1 : Calm e a x1 := by
    unfold x1
    refine Device.deferredIn_calm ?_
    assumption
  clear_value x1
  split
  · assumption
  · split
    · split
      · refine Device.decideLap_calm ?_
        assumption
      · split
        · refine Device.decideLap_calm ?_
          assumption
        · split
          · refine Device.decideLap_calm ?_
            assumption
          · refine Device.addTimer_calm ?_
            assumption
    · refine Device.lapNext_calm ?_
      assumption
theorem Device.announce_calm {e : Eff} {a : Device} {d : Device} {p1 : ℕ} {p2 : List Byte} (h : Calm e a d) (e_u17 : Lets (e.unit 17) := by first | assumption | exact ⟨rfl⟩) : Calm e a (Device.announce d p1 p2) := by
  unfold Device.announce
  extract_lets x6000 x6001 x6002 x6003
  clear_value x6000
  clear_value x6001
  clear_value x6003
  split
  · refine Device.txPush_calm ?_
    assumption
  · refine Device.txPush_calm ?_
    assumption
theorem Device.announceAll_calm {e : Eff} {a : Device} {d : Device} (h : Calm e a d) (e_u17 : Lets (e.unit 17) := by first | assumption | exact ⟨rfl⟩) : Calm e a (Device.announceAll d) := by
  unfold Device.announceAll
  apply calm_foldl
  · intro v59
    intro v58
    intro w57
    split
    · assumption
    · apply calm_foldl
      · intro v54
        intro v53
        intro w52
        refine Device.announce_calm ?_
        assumption
      · assumption
  · assumption
theorem Device.takeOver_calm {e : Eff} {a d : Device} (hm : d.pwr.mode = .follow) (h : Calm e a d) (e_u26 : Lets (e.unit 26) := by first | assumption | exact ⟨rfl⟩) (e_mode : Lets e.mode := by first | assumption | exact ⟨rfl⟩) (e_tab : Lets e.tab := by first | assumption | exact ⟨rfl⟩) (e_dd : Lets e.dd := by first | assumption | exact ⟨rfl⟩) (e_jnl : Lets e.jnl := by first | assumption | exact ⟨rfl⟩) (e_u1 : Lets (e.unit 1) := by first | assumption | exact ⟨rfl⟩) (e_u8 : Lets (e.unit 8) := by first | assumption | exact ⟨rfl⟩) (e_u10 : Lets (e.unit 10) := by first | assumption | exact ⟨rfl⟩) (e_u12 : Lets (e.unit 12) := by first | assumption | exact ⟨rfl⟩) (e_u16 : Lets (e.unit 16) := by first | assumption | exact ⟨rfl⟩) (e_u17 : Lets (e.unit 17) := by first | assumption | exact ⟨rfl⟩) (e_u20 : Lets (e.unit 20) := by first | assumption | exact ⟨rfl⟩) (e_u21 : Lets (e.unit 21) := by first | assumption | exact ⟨rfl⟩) (e_u22 : Lets (e.unit 22) := by first | assumption | exact ⟨rfl⟩) (e_u23 : Lets (e.unit 23) := by first | assumption | exact ⟨rfl⟩) (e_u24 : Lets (e.unit 24) := by first | assumption | exact ⟨rfl⟩) (e_u27 : Lets (e.unit 27) := by first | assumption | exact ⟨rfl⟩) (e_all : ∀ b, Lets (e.unit b) := by first | assumption | exact ⟨rfl⟩) :
    Calm e a d.takeOver := by
  have e4 := e_all 4
  have e6 := e_all 6
  have e14 := e_all 14
  have e15 := e_all 15
  have e18 := e_all 18
  have e19 := e_all 19
  unfold Device.takeOver
  extract_lets d0 step lap d1 src1 src2 d2 d3 d4
  have h0 : Calm e a d0 := checkpointLoad_calm (Device.takeBaton_calm h)
  have h1 : Calm e a d1 := by
    refine Device.setf_calm (Device.setMode_calm ?_ h0)
    have k : Calm Eff.still d d0 := checkpointLoad_calm (Device.takeBaton_calm (Calm.refl _ _)) (e_all := fun _ => ⟨rfl⟩)
    rw [k.mode_eq, hm]; trivial
  have h2 : Calm e a d2 := by
    refine Device.raceBegin_calm ?_
    have k : Calm e a (d1.setRly { d1.rly with queue := [], ckpt := [], noTake := false }) := Device.setRly_calm h1
    exact k.upd
  have h3 : Calm e a d3 := Device.openWaiting_calm (calm_foldl _ _ (fun y b hy => Device.takeLap_calm hy) h2)
  exact Device.raise_calm (Device.count_calm (Device.clientsStart_calm (Device.pubsStart_calm (Device.announceAll_calm h3))))
theorem batonSilence_calm {e : Eff} {a d : Device} (h : Calm e a d) (e_u26 : Lets (e.unit 26) := by first | assumption | exact ⟨rfl⟩) (e_mode : Lets e.mode := by first | assumption | exact ⟨rfl⟩) (e_tab : Lets e.tab := by first | assumption | exact ⟨rfl⟩) (e_dd : Lets e.dd := by first | assumption | exact ⟨rfl⟩) (e_jnl : Lets e.jnl := by first | assumption | exact ⟨rfl⟩) (e_u1 : Lets (e.unit 1) := by first | assumption | exact ⟨rfl⟩) (e_u8 : Lets (e.unit 8) := by first | assumption | exact ⟨rfl⟩) (e_u10 : Lets (e.unit 10) := by first | assumption | exact ⟨rfl⟩) (e_u12 : Lets (e.unit 12) := by first | assumption | exact ⟨rfl⟩) (e_u16 : Lets (e.unit 16) := by first | assumption | exact ⟨rfl⟩) (e_u17 : Lets (e.unit 17) := by first | assumption | exact ⟨rfl⟩) (e_u20 : Lets (e.unit 20) := by first | assumption | exact ⟨rfl⟩) (e_u21 : Lets (e.unit 21) := by first | assumption | exact ⟨rfl⟩) (e_u22 : Lets (e.unit 22) := by first | assumption | exact ⟨rfl⟩) (e_u23 : Lets (e.unit 23) := by first | assumption | exact ⟨rfl⟩) (e_u24 : Lets (e.unit 24) := by first | assumption | exact ⟨rfl⟩) (e_u27 : Lets (e.unit 27) := by first | assumption | exact ⟨rfl⟩) (e_all : ∀ b, Lets (e.unit b) := by first | assumption | exact ⟨rfl⟩) : Calm e a (batonSilence d) := by
  unfold batonSilence
  split
  · exact h
  · rename_i hn
    have hm : d.pwr.mode = .follow := by
      by_contra hx
      exact hn (.inl hx)
    split
    · exact Device.takeOver_calm hm h
    · split
      · exact h
      · exact Device.raise_calm (Device.setRly_calm h)
theorem Device.rlyErr_calm {e : Eff} {a : Device} {d : Device} {p1 : ℕ} (h : Calm e a d) (e_u22 : Lets (e.unit 22) := by first | assumption | exact ⟨rfl⟩) : Calm e a (Device.rlyErr d p1) := by
  unfold Device.rlyErr
  refine Device.err_calm ?_
  assumption
theorem handoverRequest_calm {e : Eff} {a : Device} {d : Device} (h : Calm e a d) (e_u22 : Lets (e.unit 22) := by first | assumption | exact ⟨rfl⟩) : Calm e a (handoverRequest d) := by
  unfold handoverRequest
  split
  · assumption
  · split
    · refine Device.rlyErr_calm ?_
      assumption
    · refine Device.setf_calm ?_
      refine Device.setRly_calm ?_
      assumption
theorem handoverRelease_calm {e : Eff} {a : Device} {d : Device} (h : Calm e a d) (e_u22 : Lets (e.unit 22) := by first | assumption | exact ⟨rfl⟩) : Calm e a (handoverRelease d) := by
  unfold handoverRelease
  split
  · refine Device.stopToggle_calm ?_
    refine Device.setf_calm ?_
    refine Device.setRly_calm ?_
    assumption
  · assumption
theorem resyncRequest_calm {e : Eff} {a : Device} {d : Device} (h : Calm e a d) (e_u17 : Lets (e.unit 17) := by first | assumption | exact ⟨rfl⟩) (e_u21 : Lets (e.unit 21) := by first | assumption | exact ⟨rfl⟩) (e_u22 : Lets (e.unit 22) := by first | assumption | exact ⟨rfl⟩) (e_u24 : Lets (e.unit 24) := by first | assumption | exact ⟨rfl⟩) : Calm e a (resyncRequest d) := by
  unfold resyncRequest
  split
  · refine Device.askCheckpoint_calm ?_
    refine Device.setf_calm ?_
    assumption
  · assumption
theorem rlyCfgWrite_calm {e : Eff} {a : Device} {p0 : Word} {d : Device} (h : Calm e a d) (e_u22 : Lets (e.unit 22) := by first | assumption | exact ⟨rfl⟩) : Calm e a (rlyCfgWrite p0 d) := by
  unfold rlyCfgWrite
  split
  · refine Device.setf_calm ?_
    refine Device.setf_calm ?_
    refine Device.setf_calm ?_
    refine Device.setf_calm ?_
    refine Device.setf_calm ?_
    assumption
  · refine Device.rlyErr_calm ?_
    assumption
theorem rlyCtlWrite_calm {e : Eff} {a : Device} {p0 : Word} {d : Device} (h : Calm e a d) (e_u17 : Lets (e.unit 17) := by first | assumption | exact ⟨rfl⟩) (e_u21 : Lets (e.unit 21) := by first | assumption | exact ⟨rfl⟩) (e_u22 : Lets (e.unit 22) := by first | assumption | exact ⟨rfl⟩) (e_u24 : Lets (e.unit 24) := by first | assumption | exact ⟨rfl⟩) : Calm e a (rlyCtlWrite p0 d) := by
  unfold rlyCtlWrite
  extract_lets x6000
  have hx6000 : Calm e a x6000 := by
    unfold x6000
    split
    · refine handoverRequest_calm ?_
      assumption
    · assumption
  clear_value x6000
  split
  · refine resyncRequest_calm ?_
    assumption
  · assumption
/-! RxlRecv. -/
theorem Device.rxlForward_calm {e : Eff} {a : Device} {d : Device} {p1 : RxlMsg} (h : Calm e a d) (e_u17 : Lets (e.unit 17) := by first | assumption | exact ⟨rfl⟩) (e_u21 : Lets (e.unit 21) := by first | assumption | exact ⟨rfl⟩) (e_u24 : Lets (e.unit 24) := by first | assumption | exact ⟨rfl⟩) : Calm e a (Device.rxlForward d p1) := by
  unfold Device.rxlForward
  split
  · refine Device.count_calm ?_
    assumption
  · split
    · refine Device.count_calm ?_
      assumption
    · apply calm_foldl
      · intro v1
        intro v2
        intro v3
        extract_lets x4
        clear_value x4
        refine Device.rxlSend_calm ?_
        split
        · refine Device.count_calm ?_
          assumption
        · assumption
      · assumption
theorem Device.rxlDeliver_calm {e : Eff} {a : Device} {d : Device} {p1 : ℕ} {p2 : RxlMsg} {p3 : Time} (h : Calm e a d) (e_tab : Lets e.tab := by first | assumption | exact ⟨rfl⟩) (e_dd : Lets e.dd := by first | assumption | exact ⟨rfl⟩) (e_jnl : Lets e.jnl := by first | assumption | exact ⟨rfl⟩) (e_u4 : Lets (e.unit 4) := by first | assumption | exact ⟨rfl⟩) (e_u6 : Lets (e.unit 6) := by first | assumption | exact ⟨rfl⟩) (e_u8 : Lets (e.unit 8) := by first | assumption | exact ⟨rfl⟩) (e_u10 : Lets (e.unit 10) := by first | assumption | exact ⟨rfl⟩) (e_u12 : Lets (e.unit 12) := by first | assumption | exact ⟨rfl⟩) (e_u14 : Lets (e.unit 14) := by first | assumption | exact ⟨rfl⟩) (e_u15 : Lets (e.unit 15) := by first | assumption | exact ⟨rfl⟩) (e_u16 : Lets (e.unit 16) := by first | assumption | exact ⟨rfl⟩) (e_u17 : Lets (e.unit 17) := by first | assumption | exact ⟨rfl⟩) (e_u18 : Lets (e.unit 18) := by first | assumption | exact ⟨rfl⟩) (e_u19 : Lets (e.unit 19) := by first | assumption | exact ⟨rfl⟩) (e_u20 : Lets (e.unit 20) := by first | assumption | exact ⟨rfl⟩) (e_u21 : Lets (e.unit 21) := by first | assumption | exact ⟨rfl⟩) (e_u22 : Lets (e.unit 22) := by first | assumption | exact ⟨rfl⟩) (e_u23 : Lets (e.unit 23) := by first | assumption | exact ⟨rfl⟩) (e_u24 : Lets (e.unit 24) := by first | assumption | exact ⟨rfl⟩) (e_u26 : Lets (e.unit 26) := by first | assumption | exact ⟨rfl⟩) : Calm e a (Device.rxlDeliver d p1 p2 p3) := by
  unfold Device.rxlDeliver
  split
  · refine Device.rxlForward_calm ?_
    assumption
  · split
    · split
      · refine Device.remoteRecs_calm ?_
        refine Device.journal_calm ?_
        assumption
      · assumption
    · split
      · refine Device.controlIn_calm ?_
        assumption
      · assumption
    · split
      · refine Device.partIn_calm ?_
        refine Device.journal_calm ?_
        assumption
      · assumption
    · split
      · refine Device.journalIn_calm ?_
        refine Device.count_calm ?_
        assumption
      · assumption
    · assumption
theorem windowRun_calm {e : Eff} {a : Device} {p0 : ℕ} {p1 : ℕ} {p2 : ℕ} {d : Device} (h : Calm e a d) (e_tab : Lets e.tab := by first | assumption | exact ⟨rfl⟩) (e_dd : Lets e.dd := by first | assumption | exact ⟨rfl⟩) (e_jnl : Lets e.jnl := by first | assumption | exact ⟨rfl⟩) (e_u4 : Lets (e.unit 4) := by first | assumption | exact ⟨rfl⟩) (e_u6 : Lets (e.unit 6) := by first | assumption | exact ⟨rfl⟩) (e_u8 : Lets (e.unit 8) := by first | assumption | exact ⟨rfl⟩) (e_u10 : Lets (e.unit 10) := by first | assumption | exact ⟨rfl⟩) (e_u12 : Lets (e.unit 12) := by first | assumption | exact ⟨rfl⟩) (e_u14 : Lets (e.unit 14) := by first | assumption | exact ⟨rfl⟩) (e_u15 : Lets (e.unit 15) := by first | assumption | exact ⟨rfl⟩) (e_u16 : Lets (e.unit 16) := by first | assumption | exact ⟨rfl⟩) (e_u17 : Lets (e.unit 17) := by first | assumption | exact ⟨rfl⟩) (e_u18 : Lets (e.unit 18) := by first | assumption | exact ⟨rfl⟩) (e_u19 : Lets (e.unit 19) := by first | assumption | exact ⟨rfl⟩) (e_u20 : Lets (e.unit 20) := by first | assumption | exact ⟨rfl⟩) (e_u21 : Lets (e.unit 21) := by first | assumption | exact ⟨rfl⟩) (e_u22 : Lets (e.unit 22) := by first | assumption | exact ⟨rfl⟩) (e_u23 : Lets (e.unit 23) := by first | assumption | exact ⟨rfl⟩) (e_u24 : Lets (e.unit 24) := by first | assumption | exact ⟨rfl⟩) (e_u26 : Lets (e.unit 26) := by first | assumption | exact ⟨rfl⟩) : Calm e a (windowRun p0 p1 p2 d) := by
  induction p0 generalizing p1 p2 d
  · unfold windowRun
    assumption
  · rename_i n ih
    unfold windowRun
    extract_lets x1 x2 x3 x4
    clear_value x1
    clear_value x2
    clear_value x3
    have hx4 : Calm e a x4 := by
      unfold x4
      refine Device.setLink_calm ?_
      assumption
    clear_value x4
    split
    · assumption
    · split
      · split
        · assumption
        · refine Device.count_calm ?_
          refine Device.setSrt_calm ?_
          assumption
      · apply ih
        refine Device.rxlDeliver_calm ?_
        assumption
theorem Device.rxlSequence_calm {e : Eff} {a : Device} {d : Device} {p1 : ℕ} {p2 : RxlHdr} {p3 : RxlMsg} (h : Calm e a d) (e_tab : Lets e.tab := by first | assumption | exact ⟨rfl⟩) (e_dd : Lets e.dd := by first | assumption | exact ⟨rfl⟩) (e_jnl : Lets e.jnl := by first | assumption | exact ⟨rfl⟩) (e_u4 : Lets (e.unit 4) := by first | assumption | exact ⟨rfl⟩) (e_u6 : Lets (e.unit 6) := by first | assumption | exact ⟨rfl⟩) (e_u8 : Lets (e.unit 8) := by first | assumption | exact ⟨rfl⟩) (e_u10 : Lets (e.unit 10) := by first | assumption | exact ⟨rfl⟩) (e_u12 : Lets (e.unit 12) := by first | assumption | exact ⟨rfl⟩) (e_u14 : Lets (e.unit 14) := by first | assumption | exact ⟨rfl⟩) (e_u15 : Lets (e.unit 15) := by first | assumption | exact ⟨rfl⟩) (e_u16 : Lets (e.unit 16) := by first | assumption | exact ⟨rfl⟩) (e_u17 : Lets (e.unit 17) := by first | assumption | exact ⟨rfl⟩) (e_u18 : Lets (e.unit 18) := by first | assumption | exact ⟨rfl⟩) (e_u19 : Lets (e.unit 19) := by first | assumption | exact ⟨rfl⟩) (e_u20 : Lets (e.unit 20) := by first | assumption | exact ⟨rfl⟩) (e_u21 : Lets (e.unit 21) := by first | assumption | exact ⟨rfl⟩) (e_u22 : Lets (e.unit 22) := by first | assumption | exact ⟨rfl⟩) (e_u23 : Lets (e.unit 23) := by first | assumption | exact ⟨rfl⟩) (e_u24 : Lets (e.unit 24) := by first | assumption | exact ⟨rfl⟩) (e_u26 : Lets (e.unit 26) := by first | assumption | exact ⟨rfl⟩) : Calm e a (Device.rxlSequence d p1 p2 p3) := by
  unfold Device.rxlSequence
  extract_lets x1 x2 x3 x4
  clear_value x1
  clear_value x2
  clear_value x3
  clear_value x4
  split
  · refine windowRun_calm ?_
    refine Device.count_calm ?_
    refine Device.setLink_calm ?_
    assumption
  · split
    · refine Device.rxlAck_calm ?_
      refine Device.count_calm ?_
      assumption
    · refine Device.rxlAck_calm ?_
      refine Device.count_calm ?_
      assumption
theorem Device.cadenceIn_calm {e : Eff} {a : Device} {d : Device} {p1 : ℕ} {p2 : RxlHdr} {p3 : RxlMsg} (h : Calm e a d) (e_u10 : Lets (e.unit 10) := by first | assumption | exact ⟨rfl⟩) (e_u17 : Lets (e.unit 17) := by first | assumption | exact ⟨rfl⟩) (e_u21 : Lets (e.unit 21) := by first | assumption | exact ⟨rfl⟩) (e_u24 : Lets (e.unit 24) := by first | assumption | exact ⟨rfl⟩) : Calm e a (Device.cadenceIn d p1 p2 p3) := by
  unfold Device.cadenceIn
  split
  · refine Device.rxlForward_calm ?_
    assumption
  · extract_lets x1 x2 x3
    clear_value x1
    have hx2 : Calm e a x2 := by
      unfold x2
      refine Device.peerCadence_calm ?_
      assumption
    clear_value x2
    clear_value x3
    split
    · refine Device.linkCadence_calm ?_
      refine Device.setLink_calm ?_
      assumption
    · assumption
theorem Device.rxlFrame_calm {e : Eff} {a : Device} {d : Device} {p1 : ℕ} {p2 : List Byte} (h : Calm e a d) (e_u26 : Lets (e.unit 26) := by first | assumption | exact ⟨rfl⟩) (e_tab : Lets e.tab := by first | assumption | exact ⟨rfl⟩) (e_dd : Lets e.dd := by first | assumption | exact ⟨rfl⟩) (e_jnl : Lets e.jnl := by first | assumption | exact ⟨rfl⟩) (e_u4 : Lets (e.unit 4) := by first | assumption | exact ⟨rfl⟩) (e_u6 : Lets (e.unit 6) := by first | assumption | exact ⟨rfl⟩) (e_u8 : Lets (e.unit 8) := by first | assumption | exact ⟨rfl⟩) (e_u10 : Lets (e.unit 10) := by first | assumption | exact ⟨rfl⟩) (e_u12 : Lets (e.unit 12) := by first | assumption | exact ⟨rfl⟩) (e_u14 : Lets (e.unit 14) := by first | assumption | exact ⟨rfl⟩) (e_u15 : Lets (e.unit 15) := by first | assumption | exact ⟨rfl⟩) (e_u16 : Lets (e.unit 16) := by first | assumption | exact ⟨rfl⟩) (e_u17 : Lets (e.unit 17) := by first | assumption | exact ⟨rfl⟩) (e_u18 : Lets (e.unit 18) := by first | assumption | exact ⟨rfl⟩) (e_u19 : Lets (e.unit 19) := by first | assumption | exact ⟨rfl⟩) (e_u20 : Lets (e.unit 20) := by first | assumption | exact ⟨rfl⟩) (e_u21 : Lets (e.unit 21) := by first | assumption | exact ⟨rfl⟩) (e_u22 : Lets (e.unit 22) := by first | assumption | exact ⟨rfl⟩) (e_u23 : Lets (e.unit 23) := by first | assumption | exact ⟨rfl⟩) (e_u24 : Lets (e.unit 24) := by first | assumption | exact ⟨rfl⟩) (e_all : ∀ b, Lets (e.unit b) := by first | assumption | exact ⟨rfl⟩) : Calm e a (Device.rxlFrame d p1 p2) := by
  unfold Device.rxlFrame
  extract_lets xd y0 y1 y2 y3
  have hd : Calm e a xd := by
    unfold xd
    split
    · exact Device.noteRead_calm h
    · exact h
  have hy : Calm e a y3 := Device.setLink_calm hd
  clear_value y3
  split
  · exact Device.count_calm hd
  · split
    · exact Device.count_calm hy
    · exact Device.cadenceIn_calm (Device.count_calm hy)
    · exact Device.rxlSequence_calm hy
theorem Device.rxlDatagram_calm {e : Eff} {a : Device} {d : Device} {p1 : List Byte} (h : Calm e a d) (e_u26 : Lets (e.unit 26) := by first | assumption | exact ⟨rfl⟩) (e_tab : Lets e.tab := by first | assumption | exact ⟨rfl⟩) (e_dd : Lets e.dd := by first | assumption | exact ⟨rfl⟩) (e_jnl : Lets e.jnl := by first | assumption | exact ⟨rfl⟩) (e_u4 : Lets (e.unit 4) := by first | assumption | exact ⟨rfl⟩) (e_u6 : Lets (e.unit 6) := by first | assumption | exact ⟨rfl⟩) (e_u8 : Lets (e.unit 8) := by first | assumption | exact ⟨rfl⟩) (e_u10 : Lets (e.unit 10) := by first | assumption | exact ⟨rfl⟩) (e_u12 : Lets (e.unit 12) := by first | assumption | exact ⟨rfl⟩) (e_u14 : Lets (e.unit 14) := by first | assumption | exact ⟨rfl⟩) (e_u15 : Lets (e.unit 15) := by first | assumption | exact ⟨rfl⟩) (e_u16 : Lets (e.unit 16) := by first | assumption | exact ⟨rfl⟩) (e_u17 : Lets (e.unit 17) := by first | assumption | exact ⟨rfl⟩) (e_u18 : Lets (e.unit 18) := by first | assumption | exact ⟨rfl⟩) (e_u19 : Lets (e.unit 19) := by first | assumption | exact ⟨rfl⟩) (e_u20 : Lets (e.unit 20) := by first | assumption | exact ⟨rfl⟩) (e_u21 : Lets (e.unit 21) := by first | assumption | exact ⟨rfl⟩) (e_u22 : Lets (e.unit 22) := by first | assumption | exact ⟨rfl⟩) (e_u23 : Lets (e.unit 23) := by first | assumption | exact ⟨rfl⟩) (e_u24 : Lets (e.unit 24) := by first | assumption | exact ⟨rfl⟩) (e_all : ∀ b, Lets (e.unit b) := by first | assumption | exact ⟨rfl⟩) : Calm e a (Device.rxlDatagram d p1) := by
  unfold Device.rxlDatagram
  extract_lets x6000
  clear_value x6000
  split
  · assumption
  · split
    · refine Device.count_calm ?_
      assumption
    · refine Device.rxlFrame_calm ?_
      assumption
theorem rxlFrameReceived_calm {e : Eff} {a : Device} {p0 : ℕ} {p1 : List Byte} {d : Device} (h : Calm e a d) (e_u26 : Lets (e.unit 26) := by first | assumption | exact ⟨rfl⟩) (e_tab : Lets e.tab := by first | assumption | exact ⟨rfl⟩) (e_dd : Lets e.dd := by first | assumption | exact ⟨rfl⟩) (e_jnl : Lets e.jnl := by first | assumption | exact ⟨rfl⟩) (e_u4 : Lets (e.unit 4) := by first | assumption | exact ⟨rfl⟩) (e_u6 : Lets (e.unit 6) := by first | assumption | exact ⟨rfl⟩) (e_u8 : Lets (e.unit 8) := by first | assumption | exact ⟨rfl⟩) (e_u10 : Lets (e.unit 10) := by first | assumption | exact ⟨rfl⟩) (e_u12 : Lets (e.unit 12) := by first | assumption | exact ⟨rfl⟩) (e_u14 : Lets (e.unit 14) := by first | assumption | exact ⟨rfl⟩) (e_u15 : Lets (e.unit 15) := by first | assumption | exact ⟨rfl⟩) (e_u16 : Lets (e.unit 16) := by first | assumption | exact ⟨rfl⟩) (e_u17 : Lets (e.unit 17) := by first | assumption | exact ⟨rfl⟩) (e_u18 : Lets (e.unit 18) := by first | assumption | exact ⟨rfl⟩) (e_u19 : Lets (e.unit 19) := by first | assumption | exact ⟨rfl⟩) (e_u20 : Lets (e.unit 20) := by first | assumption | exact ⟨rfl⟩) (e_u21 : Lets (e.unit 21) := by first | assumption | exact ⟨rfl⟩) (e_u22 : Lets (e.unit 22) := by first | assumption | exact ⟨rfl⟩) (e_u23 : Lets (e.unit 23) := by first | assumption | exact ⟨rfl⟩) (e_u24 : Lets (e.unit 24) := by first | assumption | exact ⟨rfl⟩) (e_all : ∀ b, Lets (e.unit b) := by first | assumption | exact ⟨rfl⟩) : Calm e a (rxlFrameReceived p0 p1 d) := by
  unfold rxlFrameReceived
  split
  · split
    · assumption
    · refine Device.rxlFrame_calm ?_
      assumption
  · split
    · assumption
    · extract_lets x5800 x5801
      clear_value x5800
      have hx5801 : Calm e a x5801 := by
        unfold x5801
        refine Calm.upd_ing ?_
        assumption
      clear_value x5801
      split
      · refine Device.rxlDatagram_calm ?_
        assumption
      · assumption
theorem Device.resumeSample_calm {e : Eff} {a : Device} {d : Device} {p1 : ℕ} {p2 : ℕ} (h : Calm e a d) (e_u10 : Lets (e.unit 10) := by first | assumption | exact ⟨rfl⟩) : Calm e a (Device.resumeSample d p1 p2) := by
  unfold Device.resumeSample
  extract_lets x1 x2
  clear_value x1
  have hx2 : Calm e a x2 := by
    unfold x2
    refine Device.setSrt_calm ?_
    assumption
  clear_value x2
  split
  · assumption
  · extract_lets x3
    have hx3 : Calm e a x3 := by
      unfold x3
      refine Device.osmOperand_calm ?_
      assumption
    clear_value x3
    split
    · assumption
    · assumption
theorem heldResume_calm {e : Eff} {a : Device} {p0 : ℕ} {d : Device} (h : Calm e a d) (e_tab : Lets e.tab := by first | assumption | exact ⟨rfl⟩) (e_dd : Lets e.dd := by first | assumption | exact ⟨rfl⟩) (e_jnl : Lets e.jnl := by first | assumption | exact ⟨rfl⟩) (e_u4 : Lets (e.unit 4) := by first | assumption | exact ⟨rfl⟩) (e_u6 : Lets (e.unit 6) := by first | assumption | exact ⟨rfl⟩) (e_u8 : Lets (e.unit 8) := by first | assumption | exact ⟨rfl⟩) (e_u10 : Lets (e.unit 10) := by first | assumption | exact ⟨rfl⟩) (e_u12 : Lets (e.unit 12) := by first | assumption | exact ⟨rfl⟩) (e_u14 : Lets (e.unit 14) := by first | assumption | exact ⟨rfl⟩) (e_u15 : Lets (e.unit 15) := by first | assumption | exact ⟨rfl⟩) (e_u16 : Lets (e.unit 16) := by first | assumption | exact ⟨rfl⟩) (e_u17 : Lets (e.unit 17) := by first | assumption | exact ⟨rfl⟩) (e_u18 : Lets (e.unit 18) := by first | assumption | exact ⟨rfl⟩) (e_u19 : Lets (e.unit 19) := by first | assumption | exact ⟨rfl⟩) (e_u20 : Lets (e.unit 20) := by first | assumption | exact ⟨rfl⟩) (e_u21 : Lets (e.unit 21) := by first | assumption | exact ⟨rfl⟩) (e_u22 : Lets (e.unit 22) := by first | assumption | exact ⟨rfl⟩) (e_u23 : Lets (e.unit 23) := by first | assumption | exact ⟨rfl⟩) (e_u24 : Lets (e.unit 24) := by first | assumption | exact ⟨rfl⟩) (e_u26 : Lets (e.unit 26) := by first | assumption | exact ⟨rfl⟩) : Calm e a (heldResume p0 d) := by
  unfold heldResume
  split
  · assumption
  · split
    · refine Device.resumeCommit_calm ?_
      assumption
    · refine Device.resumeCombine_calm ?_
      assumption
    · refine Device.resumeSample_calm ?_
      assumption
    · split
      · assumption
      · refine Device.strideSubmit_calm ?_
        refine Device.setSrt_calm ?_
        assumption
    · extract_lets x1 x2
      clear_value x1
      clear_value x2
      split
      · split
        · assumption
        · refine windowRun_calm ?_
          refine Device.setSrt_calm ?_
          assumption
      · split
        · assumption
        · refine windowRun_calm ?_
          refine Device.setSrt_calm ?_
          assumption
    · split
      · refine Device.resumeTimer_calm ?_
        assumption
      · assumption
end Sys2Proof.Machine
end

