-- ==== Sys2Proof/Laws/CalmHost.lean ====
section
/-!
SUPPORT. One lemma per operation of the journal, merging and the host interface (Machine/Journal, Merge, Host): what the
operation may touch, in the terms of Calm.
-/
namespace Sys2Proof.Machine
set_option Elab.async false
/-! Journal. -/
theorem Device.setScb_calm {e : Eff} {a : Device} {d : Device} {p1 : Scb} (h : Calm e a d) : Calm e a (Device.setScb d p1) := by
  unfold Device.setScb
  refine Calm.upd_scb ?_
  assumption
theorem Device.scbAhead_calm {e : Eff} {a : Device} {d : Device} (h : Calm e a d) : Calm e a (Device.scbAhead d) := by
  unfold Device.scbAhead
  extract_lets x1 x2
  clear_value x1
  clear_value x2
  split
  · refine Device.count_calm ?_
    refine Device.setScb_calm ?_
    assumption
  · assumption
theorem Device.scbGoTo_calm {e : Eff} {a : Device} {d : Device} {p1 : ℕ} (h : Calm e a d) : Calm e a (Device.scbGoTo d p1) := by
  unfold Device.scbGoTo
  extract_lets x1 x2
  clear_value x1
  clear_value x2
  split
  · refine Device.setScb_calm ?_
    assumption
  · refine Device.setScb_calm ?_
    assumption
theorem Device.scbProgram_calm {e : Eff} {a : Device} {d : Device} {p1 : ScbRec} (h : Calm e a d) : Calm e a (Device.scbProgram d p1) := by
  unfold Device.scbProgram
  extract_lets x1 x2 x3
  have hx1 : Calm e a x1 := by
    unfold x1
    refine Device.scbAhead_calm ?_
    assumption
  clear_value x1
  clear_value x2
  clear_value x3
  refine Device.scbGoTo_calm ?_
  refine Device.setScb_calm ?_
  assumption
theorem Device.scbStart_calm {e : Eff} {a : Device} {d : Device} (h : Calm e a d) : Calm e a (Device.scbStart d) := by
  unfold Device.scbStart
  refine scbFlush_calm ?_ ?_
  · intro v59
    intro w58
    refine Device.count_calm ?_
    assumption
  · assumption
theorem scbFlushWrite_calm {e : Eff} {a : Device} {d : Device} (h : Calm e a d) : Calm e a (scbFlushWrite d) := by
  unfold scbFlushWrite
  split
  · assumption
  · extract_lets x5900
    have hx5900 : Calm e a x5900 := by
      unfold x5900
      refine Device.scbStart_calm ?_
      assumption
    clear_value x5900
    split
    · refine Device.setf_calm ?_
      assumption
    · assumption
theorem Device.scbLost_calm {e : Eff} {a : Device} {d : Device} (h : Calm e a d) : Calm e a (Device.scbLost d) := by
  unfold Device.scbLost
  split
  · assumption
  · extract_lets x5900 x5901
    have hx5900 : Calm e a x5900 := by
      unfold x5900
      refine Device.count_calm ?_
      refine scbPush_calm ?_
      assumption
    clear_value x5900
    clear_value x5901
    refine Device.scbStart_calm ?_
    refine Device.setScb_calm ?_
    assumption
theorem Device.scbOut_calm {e : Eff} {a : Device} {d : Device} {p1 : ℕ} (h : Calm e a d) (e_u10 : Lets (e.unit 10) := by first | assumption | exact ⟨rfl⟩) (e_u26 : Lets (e.unit 26) := by first | assumption | exact ⟨rfl⟩) : Calm e a (Device.scbOut d p1) := by
  unfold Device.scbOut
  extract_lets x1 x2 x3 x4 x5
  clear_value x1
  clear_value x2
  have hx3 : Calm e a x3 := by
    unfold x3
    apply calm_foldl
    · intro v6
      intro v7
      intro v8
      split
      · refine Device.memRead_calm ?_
        assumption
      · refine Device.scbProgram_calm ?_
        refine Device.memRead_calm ?_
        assumption
    · assumption
  clear_value x3
  clear_value x4
  have hx5 : Calm e a x5 := by
    unfold x5
    refine Device.setScb_calm ?_
    assumption
  clear_value x5
  refine Device.scbLost_calm ?_
  refine Device.countN_calm ?_
  assumption
theorem Device.scbSkip_calm {e : Eff} {a : Device} {d : Device} {p1 : Bool} (h : Calm e a d) : Calm e a (Device.scbSkip d p1) := by
  unfold Device.scbSkip
  extract_lets x1 x2 x3 x4
  have hx1 : Calm e a x1 := by
    unfold x1
    refine Device.scbAhead_calm ?_
    assumption
  clear_value x1
  clear_value x2
  clear_value x3
  have hx4 : Calm e a x4 := by
    unfold x4
    split
    · refine Device.count_calm ?_
      refine Device.setScb_calm ?_
      assumption
    · refine Device.scbGoTo_calm ?_
      assumption
  clear_value x4
  refine Device.raise_calm ?_
  refine Device.setf_calm ?_
  assumption
theorem scbFlushDone_calm {e : Eff} {a : Device} {p0 : Bool} {d : Device} (h : Calm e a d) (e_u10 : Lets (e.unit 10) := by first | assumption | exact ⟨rfl⟩) (e_u26 : Lets (e.unit 26) := by first | assumption | exact ⟨rfl⟩) : Calm e a (scbFlushDone p0 d) := by
  unfold scbFlushDone
  extract_lets x1 x2 x3 x4 x5 x6 x7 x8
  clear_value x1
  clear_value x2
  have hx3 : Calm e a x3 := by
    unfold x3
    refine Device.scbOut_calm ?_
    assumption
  clear_value x3
  have hx4 : Calm e a x4 := by
    unfold x4
    refine Calm.upd_free ?_
    assumption
  clear_value x4
  have hx5 : Calm e a x5 := by
    unfold x5
    refine Device.scbOut_calm ?_
    assumption
  clear_value x5
  clear_value x6
  have hx7 : Calm e a x7 := by
    unfold x7
    refine Device.setScb_calm ?_
    assumption
  clear_value x7
  have hx8 : Calm e a x8 := by
    unfold x8
    split
    · refine Device.scbStart_calm ?_
      assumption
    · assumption
  clear_value x8
  split
  · assumption
  · split
    · refine Device.scbSkip_calm ?_
      assumption
    · split
      · refine Device.setf_calm ?_
        assumption
      · assumption
theorem scbLookup_calm {e : Eff} {a : Device} {p0 : Word} {d : Device} (h : Calm e a d) : Calm e a (scbLookup p0 d) := by
  unfold scbLookup
  split
  · assumption
  · refine Device.setf_calm ?_
    refine Device.setf_calm ?_
    refine Device.wr_calm ?_
    refine Device.setScb_calm ?_
    assumption
theorem Device.scbTouch_calm {e : Eff} {a : Device} {d : Device} {p1 : ℕ} (h : Calm e a d) (e_u10 : Lets (e.unit 10) := by first | assumption | exact ⟨rfl⟩) (e_u26 : Lets (e.unit 26) := by first | assumption | exact ⟨rfl⟩) : Calm e a (Device.scbTouch d p1) := by
  unfold Device.scbTouch
  split
  · assumption
  · extract_lets x1 x2
    have hx1 : Calm e a x1 := by
      unfold x1
      refine Device.memRead_calm ?_
      assumption
    clear_value x1
    clear_value x2
    split
    · refine Device.scbLost_calm ?_
      refine Device.count_calm ?_
      refine Device.setScb_calm ?_
      assumption
    · assumption
theorem scbLookupDone_calm {e : Eff} {a : Device} {d : Device} (h : Calm e a d) (e_u10 : Lets (e.unit 10) := by first | assumption | exact ⟨rfl⟩) (e_u26 : Lets (e.unit 26) := by first | assumption | exact ⟨rfl⟩) : Calm e a (scbLookupDone d) := by
  unfold scbLookupDone
  split
  · assumption
  · extract_lets x1 x2 x3 x4
    clear_value x1
    have hx2 : Calm e a x2 := by
      unfold x2
      refine Device.scbTouch_calm ?_
      assumption
    clear_value x2
    clear_value x3
    clear_value x4
    refine Device.setf_calm ?_
    refine Device.setf_calm ?_
    refine Device.setScb_calm ?_
    assumption
theorem Device.ddrCheck_calm {e : Eff} {a : Device} {d : Device} {p1 : ℕ} {p2 : ℕ} (h : Calm e a d) (e_u10 : Lets (e.unit 10) := by first | assumption | exact ⟨rfl⟩) (e_u26 : Lets (e.unit 26) := by first | assumption | exact ⟨rfl⟩) : Calm e a (Device.ddrCheck d p1 p2).2 := by
  unfold Device.ddrCheck
  split
  · dsimp only
    assumption
  · extract_lets x5900
    clear_value x5900
    dsimp only
    apply calm_foldl
    · intro v56
      intro v55
      intro w54
      refine Device.memRead_calm ?_
      assumption
    · assumption
theorem Device.ddrUe_calm {e : Eff} {a : Device} {d : Device} {p1 : ℕ} (h : Calm e a d) (e_u10 : Lets (e.unit 10) := by first | assumption | exact ⟨rfl⟩) (e_u26 : Lets (e.unit 26) := by first | assumption | exact ⟨rfl⟩) : Calm e a (Device.ddrUe d p1) := by
  unfold Device.ddrUe
  refine Device.burstUe_calm ?_
  assumption
theorem Device.drainGap_calm {e : Eff} {a : Device} {d : Device} (h : Calm e a d) (e_jnl : Lets e.jnl := by first | assumption | exact ⟨rfl⟩) (e_u23 : Lets (e.unit 23) := by first | assumption | exact ⟨rfl⟩) : Calm e a (Device.drainGap d) := by
  unfold Device.drainGap
  split
  · assumption
  · split
    · assumption
    · refine Device.setJnl_calm ?_
      refine Device.sfPush_calm ?_ (by assumption)
      assumption
theorem journalDrain_calm {e : Eff} {a : Device} {p0 : Bool} {d : Device} (h : Calm e a d) (e_jnl : Lets e.jnl := by first | assumption | exact ⟨rfl⟩) (e_u10 : Lets (e.unit 10) := by first | assumption | exact ⟨rfl⟩) (e_u23 : Lets (e.unit 23) := by first | assumption | exact ⟨rfl⟩) (e_u26 : Lets (e.unit 26) := by first | assumption | exact ⟨rfl⟩) : Calm e a (journalDrain p0 d) := by
  unfold journalDrain
  split
  · assumption
  · split
    · refine Device.drainGap_calm ?_
      assumption
    · split
      · assumption
      · extract_lets x5700 x5701 x5702 x5703 x5704 x5705
        clear_value x5700
        have hx5701 : Calm e a x5701.2 := by
          unfold x5701
          refine Device.ddrCheck_calm ?_
          assumption
        clear_value x5701
        have hx5703 : Calm e a x5703 := by
          unfold x5703
          split
          · assumption
          · refine Device.ddrUe_calm ?_
            assumption
        clear_value x5703
        clear_value x5704
        clear_value x5705
        split
        · refine Device.drainGap_calm ?_
          refine Device.setJnl_calm ?_
          assumption
        · split
          · assumption
          · split
            · refine Device.setJnl_calm ?_
              refine Device.sfPush_calm ?_ (by assumption)
              assumption
            · refine Device.setJnl_calm ?_
              refine Device.sfPush_calm ?_ (by assumption)
              assumption
theorem checkpointEnd_calm {e : Eff} {a : Device} {d : Device} (h : Calm e a d) (e_dd : Lets e.dd := by first | assumption | exact ⟨rfl⟩) (e_jnl : Lets e.jnl := by first | assumption | exact ⟨rfl⟩) : Calm e a (checkpointEnd d) := by
  unfold checkpointEnd
  split
  · assumption
  · split
    · refine Device.setJnl_calm ?_
      assumption
    · extract_lets x1 x2 x3 x4 x5
      clear_value x1
      have hx2 : Calm e a x2 := by
        unfold x2
        apply calm_foldl
        · intro v6
          intro v7
          intro v8
          refine Device.journal_calm ?_
          assumption
        · assumption
      clear_value x2
      have hx3 : Calm e a x3 := by
        unfold x3
        refine Device.journalW_calm ?_
        assumption
      clear_value x3
      clear_value x4
      have hx5 : Calm e a x5 := by
        unfold x5
        refine Device.wr_calm ?_
        refine Device.setJnl_calm ?_
        assumption
      clear_value x5
      refine Device.raise_calm ?_
      refine Device.count_calm ?_
      assumption
theorem checkpointStart_calm {e : Eff} {a : Device} {d : Device} (h : Calm e a d) (e_dd : Lets e.dd := by first | assumption | exact ⟨rfl⟩) (e_jnl : Lets e.jnl := by first | assumption | exact ⟨rfl⟩) : Calm e a (checkpointStart d) := by
  unfold checkpointStart
  split
  · assumption
  · split
    · assumption
    · extract_lets x1 x2 x3 x4 x5 x6
      have hx1 : Calm e a x1 := by
        unfold x1
        refine checkpointEnd_calm ?_
        assumption
      clear_value x1
      clear_value x2
      clear_value x3
      clear_value x4
      have hx5 : Calm e a x5 := by
        unfold x5
        refine Device.setf_calm ?_
        refine Device.journalW_calm ?_
        assumption
      clear_value x5
      clear_value x6
      refine Device.setJnl_calm ?_
      assumption
theorem jnlCkptWrite_calm {e : Eff} {a : Device} {d : Device} (h : Calm e a d) (e_jnl : Lets e.jnl := by first | assumption | exact ⟨rfl⟩) : Calm e a (jnlCkptWrite d) := by
  unfold jnlCkptWrite
  split
  · refine Device.setf_calm ?_
    refine Device.setJnl_calm ?_
    assumption
  · assumption
theorem jnlDdrWrite_calm {e : Eff} {a : Device} {p0 : Word} {d : Device} (h : Calm e a d) (e_jnl : Lets e.jnl := by first | assumption | exact ⟨rfl⟩) : Calm e a (jnlDdrWrite p0 d) := by
  unfold jnlDdrWrite
  split
  · refine Device.err_calm ?_
    assumption
  · refine Device.wr_calm ?_
    refine Device.setJnl_calm ?_
    assumption
theorem Device.rrStop_calm {e : Eff} {a : Device} {d : Device} {p1 : ℕ} (h : Calm e a d) : Calm e a (Device.rrStop d p1) := by
  unfold Device.rrStop
  extract_lets x6000 x6001
  have hx6000 : Calm e a x6000 := by
    unfold x6000
    refine Device.setf_calm ?_
    assumption
  clear_value x6000
  have hx6001 : Calm e a x6001 := by
    unfold x6001
    split
    · assumption
    · refine Device.err_calm ?_
      assumption
  clear_value x6001
  refine Device.raise_calm ?_
  assumption
theorem rerunGo_calm {e : Eff} {a : Device} {d : Device} (h : Calm e a d) (e_jnl : Lets e.jnl := by first | assumption | exact ⟨rfl⟩) : Calm e a (rerunGo d) := by
  unfold rerunGo
  split
  · assumption
  · refine Device.setf_calm ?_
    refine Device.setJnl_calm ?_
    assumption
theorem rerunStop_calm {e : Eff} {a : Device} {d : Device} (h : Calm e a d) : Calm e a (rerunStop d) := by
  unfold rerunStop
  split
  · refine Device.rrStop_calm ?_
    assumption
  · assumption
theorem Device.rrPacket_calm {e : Eff} {a : Device} {d : Device} {p1 : Packet} (h : Calm e a d) (e_jnl : Lets e.jnl := by first | assumption | exact ⟨rfl⟩) : Calm e a (Device.rrPacket d p1) := by
  unfold Device.rrPacket
  extract_lets x6000 x6001 x6002
  clear_value x6000
  clear_value x6001
  clear_value x6002
  split
  · refine Device.setJnl_calm ?_
    assumption
  · split
    · refine Device.setJnl_calm ?_
      assumption
    · refine Device.setJnl_calm ?_
      assumption
theorem rerunInput_calm {e : Eff} {a : Device} {p0 : Word} {d : Device} (h : Calm e a d) (e_jnl : Lets e.jnl := by first | assumption | exact ⟨rfl⟩) : Calm e a (rerunInput p0 d) := by
  unfold rerunInput
  split
  · assumption
  · extract_lets x5900 x5901 x5902 x5903 x5904
    clear_value x5900
    clear_value x5901
    clear_value x5902
    clear_value x5903
    have hx5904 : Calm e a x5904 := by
      unfold x5904
      split
      · refine Device.setJnl_calm ?_
        assumption
      · split
        · refine Device.setJnl_calm ?_
          assumption
        · refine Device.rrPacket_calm ?_
          assumption
    clear_value x5904
    split
    · refine Device.setf_calm ?_
      assumption
    · assumption
theorem Device.rrPass_calm {e : Eff} {a : Device} {d : Device} {p1 : JEntry} (h : Calm e a d) (e_jnl : Lets e.jnl := by first | assumption | exact ⟨rfl⟩) : Calm e a (Device.rrPass d p1) := by
  unfold Device.rrPass
  extract_lets x6000 x6001
  clear_value x6000
  clear_value x6001
  refine Device.count_calm ?_
  refine Device.wr_calm ?_
  refine Device.setJnl_calm ?_
  assumption
theorem Device.rrRead_calm {e : Eff} {a : Device} {d : Device} {p1 : List JEntry} (h : Calm e a d) (e_u10 : Lets (e.unit 10) := by first | assumption | exact ⟨rfl⟩) (e_u26 : Lets (e.unit 26) := by first | assumption | exact ⟨rfl⟩) : Calm e a (Device.rrRead d p1).2 := by
  unfold Device.rrRead
  split
  · dsimp only
    assumption
  · apply calm_foldl2
    · intro v1
      intro v2
      intro v3
      extract_lets x4
      have hx4 : Calm e a x4.2 := by
        unfold x4
        refine Device.ddrCheck_calm ?_
        assumption
      clear_value x4
      dsimp only
      assumption
    · dsimp only
      assumption
theorem Device.rrLoad_calm {e : Eff} {a : Device} {d : Device} {p1 : JEntry} {p2 : List JEntry} (h : Calm e a d) (e_u26 : Lets (e.unit 26) := by first | assumption | exact ⟨rfl⟩) (e_dd : Lets e.dd := by first | assumption | exact ⟨rfl⟩) (e_tab : Lets e.tab := by first | assumption | exact ⟨rfl⟩) (e_jnl : Lets e.jnl := by first | assumption | exact ⟨rfl⟩) (e_u4 : Lets (e.unit 4) := by first | assumption | exact ⟨rfl⟩) (e_u8 : Lets (e.unit 8) := by first | assumption | exact ⟨rfl⟩) (e_u10 : Lets (e.unit 10) := by first | assumption | exact ⟨rfl⟩) (e_u12 : Lets (e.unit 12) := by first | assumption | exact ⟨rfl⟩) (e_u14 : Lets (e.unit 14) := by first | assumption | exact ⟨rfl⟩) (e_u15 : Lets (e.unit 15) := by first | assumption | exact ⟨rfl⟩) (e_u16 : Lets (e.unit 16) := by first | assumption | exact ⟨rfl⟩) (e_u17 : Lets (e.unit 17) := by first | assumption | exact ⟨rfl⟩) (e_u20 : Lets (e.unit 20) := by first | assumption | exact ⟨rfl⟩) (e_u21 : Lets (e.unit 21) := by first | assumption | exact ⟨rfl⟩) (e_all : ∀ b, Lets (e.unit b) := by first | assumption | exact ⟨rfl⟩) : Calm e a (Device.rrLoad d p1 p2) := by
  unfold Device.rrLoad
  extract_lets ck r d1 src d2
  have h1 : Calm e a d1 := by
    unfold d1 r
    exact Device.rrRead_calm h
  have h2 : Calm e a d2 := Device.setJnl_calm h1
  clear_value r d1 d2
  split
  · exact Device.rrStop_calm h1
  · split
    · exact Device.rrStop_calm h1
    · split
      · exact Device.rrStop_calm h1
      · split
        · exact Device.rrStop_calm h1
        · split
          · exact Device.setf_calm h1
          · split
            · exact Device.rrStop_calm h1
            · exact Device.setf_calm (Device.rrPass_calm (Device.restore_calm h2))
theorem Device.rrLater_calm {e : Eff} {a : Device} {d : Device} {p1 : JEntry} (h : Calm e a d) (e_jnl : Lets e.jnl := by first | assumption | exact ⟨rfl⟩) : Calm e a (Device.rrLater d p1).2 := by
  unfold Device.rrLater
  extract_lets x1 x2
  clear_value x1
  clear_value x2
  split
  · dsimp only
    refine Device.setJnl_calm ?_
    assumption
  · dsimp only
    split
    · assumption
    · refine Device.setJnl_calm ?_
      assumption
  · dsimp only
    refine Device.setJnl_calm ?_
    assumption
  · dsimp only
    assumption
theorem Device.rrUe_calm {e : Eff} {a : Device} {d : Device} {p1 : JEntry} (h : Calm e a d) (e_u10 : Lets (e.unit 10) := by first | assumption | exact ⟨rfl⟩) (e_u26 : Lets (e.unit 26) := by first | assumption | exact ⟨rfl⟩) : Calm e a (Device.rrUe d p1) := by
  unfold Device.rrUe
  split
  · refine Device.ddrUe_calm ?_
    assumption
  · assumption
theorem rerunApply_calm {e : Eff} {a : Device} {p0 : Bool} {d : Device} (h : Calm e a d) (e_u26 : Lets (e.unit 26) := by first | assumption | exact ⟨rfl⟩) (e_tab : Lets e.tab := by first | assumption | exact ⟨rfl⟩) (e_dd : Lets e.dd := by first | assumption | exact ⟨rfl⟩) (e_jnl : Lets e.jnl := by first | assumption | exact ⟨rfl⟩) (e_u4 : Lets (e.unit 4) := by first | assumption | exact ⟨rfl⟩) (e_u6 : Lets (e.unit 6) := by first | assumption | exact ⟨rfl⟩) (e_u8 : Lets (e.unit 8) := by first | assumption | exact ⟨rfl⟩) (e_u10 : Lets (e.unit 10) := by first | assumption | exact ⟨rfl⟩) (e_u12 : Lets (e.unit 12) := by first | assumption | exact ⟨rfl⟩) (e_u14 : Lets (e.unit 14) := by first | assumption | exact ⟨rfl⟩) (e_u15 : Lets (e.unit 15) := by first | assumption | exact ⟨rfl⟩) (e_u16 : Lets (e.unit 16) := by first | assumption | exact ⟨rfl⟩) (e_u17 : Lets (e.unit 17) := by first | assumption | exact ⟨rfl⟩) (e_u18 : Lets (e.unit 18) := by first | assumption | exact ⟨rfl⟩) (e_u19 : Lets (e.unit 19) := by first | assumption | exact ⟨rfl⟩) (e_u20 : Lets (e.unit 20) := by first | assumption | exact ⟨rfl⟩) (e_u21 : Lets (e.unit 21) := by first | assumption | exact ⟨rfl⟩) (e_u22 : Lets (e.unit 22) := by first | assumption | exact ⟨rfl⟩) (e_u23 : Lets (e.unit 23) := by first | assumption | exact ⟨rfl⟩) (e_u24 : Lets (e.unit 24) := by first | assumption | exact ⟨rfl⟩) (e_all : ∀ b, Lets (e.unit b) := by first | assumption | exact ⟨rfl⟩) : Calm e a (rerunApply p0 d) := by
  unfold rerunApply
  split
  · exact h
  · split
    · exact Device.rrStop_calm h
    · split
      · exact Device.setf_calm h
      · split
        · exact Device.rrStop_calm h
        · split
          · exact Device.rrStop_calm h
          · split
            · exact Device.rrStop_calm (Device.rrUe_calm h)
            · split
              · split
                · exact Device.rrLoad_calm h
                · split
                  · exact Device.setJnl_calm h
                  · exact Device.rrStop_calm h
              · split
                · exact Device.rrStop_calm h
                · extract_lets rd ck x t d1 d2
                  have hr : Calm e a rd.2 := Device.rrRead_calm h
                  have hc : Calm e a ck.2 := Device.rrLater_calm hr
                  have h1 : Calm e a d1 := Device.rrAt_calm (rrAdvance_calm hc)
                  have h2 : Calm e a d2 := Device.rrPass_calm (Device.applyEntry_calm h1)
                  clear_value rd ck d1 d2
                  split
                  · exact Device.rrStop_calm hr
                  · split
                    · exact Device.rrStop_calm hc
                    · split
                      · exact Device.setf_calm h2
                      · exact h2
/-! Merge. -/
theorem Device.setMerge_calm {e : Eff} {a : Device} {d : Device} {p1 : List MergeEnt} (h : Calm e a d) (e_u26 : Lets (e.unit 26) := by first | assumption | exact ⟨rfl⟩) : Calm e a (Device.setMerge d p1) := by
  unfold Device.setMerge
  refine Device.setMem_calm ?_
  assumption
theorem Device.mergeOut_calm {e : Eff} {a : Device} {d : Device} {p1 : MergeEnt} {p2 : ℕ} (h : Calm e a d) (e_u26 : Lets (e.unit 26) := by first | assumption | exact ⟨rfl⟩) : Calm e a (Device.mergeOut d p1 p2) := by
  unfold Device.mergeOut
  extract_lets x1
  have hx1 : Calm e a x1 := by
    unfold x1
    refine Device.setMerge_calm ?_
    assumption
  clear_value x1
  refine Calm.upd_noted ?_
  assumption
theorem Device.mergeFlush_calm {e : Eff} {a : Device} {d : Device} {p1 : MergeEnt} (h : Calm e a d) (e_u10 : Lets (e.unit 10) := by first | assumption | exact ⟨rfl⟩) (e_u26 : Lets (e.unit 26) := by first | assumption | exact ⟨rfl⟩) : Calm e a (Device.mergeFlush d p1) := by
  unfold Device.mergeFlush
  extract_lets x1
  clear_value x1
  refine Device.memRead_calm ?_
  refine Device.count_calm ?_
  refine Device.mergeOut_calm ?_
  assumption
theorem Device.mergeWrite_calm {e : Eff} {a : Device} {d : Device} {p1 : ℕ} {p2 : ℕ} {p3 : ℕ} (h : Calm e a d) (e_u10 : Lets (e.unit 10) := by first | assumption | exact ⟨rfl⟩) (e_u26 : Lets (e.unit 26) := by first | assumption | exact ⟨rfl⟩) : Calm e a (Device.mergeWrite d p1 p2 p3) := by
  unfold Device.mergeWrite
  split
  · extract_lets x1
    clear_value x1
    split
    · refine Device.count_calm ?_
      refine Device.mergeOut_calm ?_
      assumption
    · refine Device.setMerge_calm ?_
      assumption
  · extract_lets x2 x3
    clear_value x2
    have hx3 : Calm e a x3 := by
      unfold x3
      split
      · split
        · refine Device.mergeFlush_calm ?_
          assumption
        · assumption
      · assumption
    clear_value x3
    refine Device.setMerge_calm ?_
    assumption
theorem Device.mergeLoad_calm {e : Eff} {a : Device} {d : Device} {p1 : ℕ} {p2 : ℕ} {p3 : ℕ} (h : Calm e a d) (e_u10 : Lets (e.unit 10) := by first | assumption | exact ⟨rfl⟩) (e_u26 : Lets (e.unit 26) := by first | assumption | exact ⟨rfl⟩) : Calm e a (Device.mergeLoad d p1 p2 p3) := by
  unfold Device.mergeLoad
  split
  · assumption
  · extract_lets x1
    clear_value x1
    apply calm_foldl
    · intro v2
      intro v3
      intro v4
      extract_lets x5
      clear_value x5
      refine Device.mergeWrite_calm ?_
      assumption
    · assumption
theorem Device.mergeReadT_calm {e : Eff} {a : Device} {d : Device} {p1 : ℕ} {p2 : ℕ} {p3 : ℕ} (h : Calm e a d) (e_u10 : Lets (e.unit 10) := by first | assumption | exact ⟨rfl⟩) (e_u26 : Lets (e.unit 26) := by first | assumption | exact ⟨rfl⟩) : Calm e a (Device.mergeReadT d p1 p2 p3) := by
  unfold Device.mergeReadT
  extract_lets x1
  clear_value x1
  apply calm_foldl
  · intro v2
    intro v3
    intro v4
    refine Device.mergeFlush_calm ?_
    assumption
  · assumption
/-! Host. -/
theorem Device.setHif_calm {e : Eff} {a : Device} {d : Device} {p1 : Hif} (h : Calm e a d) (e_u23 : Lets (e.unit 23) := by first | assumption | exact ⟨rfl⟩) : Calm e a (Device.setHif d p1) := by
  unfold Device.setHif
  refine Calm.upd_hif ?_
  assumption
theorem Device.setDch_calm {e : Eff} {a : Device} {d : Device} {p1 : ℕ} {p2 : Chan} (h : Calm e a d) (e_u23 : Lets (e.unit 23) := by first | assumption | exact ⟨rfl⟩) : Calm e a (Device.setDch d p1 p2) := by
  unfold Device.setDch
  refine Device.setHif_calm ?_
  assumption
theorem Device.setSf_calm {e : Eff} {a : Device} {d : Device} {p1 : ℕ} {p2 : List Packet} (h : Calm e a d) (e_u23 : Lets (e.unit 23) := by first | assumption | exact ⟨rfl⟩) : Calm e a (Device.setSf d p1 p2) := by
  unfold Device.setSf
  refine Device.setHif_calm ?_
  assumption
theorem Device.cfgErr_calm {e : Eff} {a : Device} {d : Device} (h : Calm e a d) (e_u23 : Lets (e.unit 23) := by first | assumption | exact ⟨rfl⟩) : Calm e a (Device.cfgErr d) := by
  unfold Device.cfgErr
  refine Device.setf_calm ?_
  assumption
theorem Device.dbBad_calm {e : Eff} {a : Device} {d : Device} {p1 : ℕ} {p2 : Word} (h : Calm e a d) (e_u23 : Lets (e.unit 23) := by first | assumption | exact ⟨rfl⟩) : Calm e a (Device.dbBad d p1 p2) := by
  unfold Device.dbBad
  extract_lets x6000 x6001 x6002
  have hx6000 : Calm e a x6000 := by
    unfold x6000
    refine Device.count_calm ?_
    refine Device.setf_calm ?_
    assumption
  clear_value x6000
  have hx6001 : Calm e a x6001 := by
    unfold x6001
    refine Device.raiseSec_calm ?_
    assumption
  clear_value x6001
  clear_value x6002
  refine Device.setHif_calm ?_
  assumption
theorem sqDoorbell_calm {e : Eff} {a : Device} {p0 : ℕ} {p1 : Word} {d : Device} (h : Calm e a d) (e_u23 : Lets (e.unit 23) := by first | assumption | exact ⟨rfl⟩) : Calm e a (sqDoorbell p0 p1 d) := by
  unfold sqDoorbell
  extract_lets x6000 x6001 x6002
  clear_value x6000
  clear_value x6001
  clear_value x6002
  split
  · refine Device.dbBad_calm ?_
    assumption
  · refine Device.setHif_calm ?_
    assumption
theorem cqDoorbell_calm {e : Eff} {a : Device} {p0 : ℕ} {p1 : Word} {d : Device} (h : Calm e a d) (e_u23 : Lets (e.unit 23) := by first | assumption | exact ⟨rfl⟩) : Calm e a (cqDoorbell p0 p1 d) := by
  unfold cqDoorbell
  extract_lets x6000 x6001 x6002 x6003
  clear_value x6000
  clear_value x6001
  clear_value x6002
  clear_value x6003
  split
  · refine Device.dbBad_calm ?_
    assumption
  · refine Device.setHif_calm ?_
    assumption
theorem sqCfgWrite_calm {e : Eff} {a : Device} {p0 : Word} {d : Device} (h : Calm e a d) (e_u23 : Lets (e.unit 23) := by first | assumption | exact ⟨rfl⟩) : Calm e a (sqCfgWrite p0 d) := by
  unfold sqCfgWrite
  extract_lets x6000 x6001 x6002
  clear_value x6000
  have hx6001 : Calm e a x6001 := by
    unfold x6001
    refine Device.wr_calm ?_
    assumption
  clear_value x6001
  clear_value x6002
  split
  · split
    · refine Device.cfgErr_calm ?_
      assumption
    · refine Device.setf_calm ?_
      assumption
  · split
    · refine Device.cfgErr_calm ?_
      assumption
    · split
      · refine Device.setHif_calm ?_
        assumption
      · assumption
theorem cqCfgWrite_calm {e : Eff} {a : Device} {p0 : Word} {d : Device} (h : Calm e a d) (e_u23 : Lets (e.unit 23) := by first | assumption | exact ⟨rfl⟩) : Calm e a (cqCfgWrite p0 d) := by
  unfold cqCfgWrite
  extract_lets x6000 x6001 x6002
  clear_value x6000
  have hx6001 : Calm e a x6001 := by
    unfold x6001
    refine Device.wr_calm ?_
    assumption
  clear_value x6001
  clear_value x6002
  split
  · split
    · refine Device.cfgErr_calm ?_
      assumption
    · refine Device.setf_calm ?_
      assumption
  · split
    · refine Device.cfgErr_calm ?_
      assumption
    · split
      · refine Device.setHif_calm ?_
        assumption
      · assumption
theorem ringAddrWrite_calm {e : Eff} {a : Device} {p0 : Bool} {p1 : RegDef} {p2 : ℕ} {p3 : Word} {d : Device} (h : Calm e a d)
    (m_p1 : e.may (p1.base / 65536) := by first | assumption | exact Or.inl (by assumption) | exact Or.inr rfl | exact Or.inl ⟨rfl⟩ | (split <;> exact Or.inl (by assumption)) | exact Or.inl (‹∀ b, Lets (e.unit b)› _)) (e_u23 : Lets (e.unit 23) := by first | assumption | exact ⟨rfl⟩) : Calm e a (ringAddrWrite p0 p1 p2 p3 d) := by
  unfold ringAddrWrite
  extract_lets x6000 x6001
  clear_value x6000
  clear_value x6001
  split
  · refine Device.cfgErr_calm ?_
    assumption
  · refine Device.wr_calm ?_
    assumption
theorem ringEnable_calm {e : Eff} {a : Device} {p0 : Bool} {p1 : Word} {d : Device} (h : Calm e a d) (e_u23 : Lets (e.unit 23) := by first | assumption | exact ⟨rfl⟩) : Calm e a (ringEnable p0 p1 d) := by
  unfold ringEnable
  split
  · refine cqCfgWrite_calm ?_
    assumption
  · refine sqCfgWrite_calm ?_
    assumption
theorem ringDisable_calm {e : Eff} {a : Device} {p0 : Bool} {d : Device} (h : Calm e a d) (e_u23 : Lets (e.unit 23) := by first | assumption | exact ⟨rfl⟩) : Calm e a (ringDisable p0 d) := by
  unfold ringDisable
  split
  · refine cqCfgWrite_calm ?_
    assumption
  · refine sqCfgWrite_calm ?_
    assumption
theorem coalesceTimeout_calm {e : Eff} {a : Device} {p0 : ℕ} {d : Device} (h : Calm e a d) (e_u23 : Lets (e.unit 23) := by first | assumption | exact ⟨rfl⟩) : Calm e a (coalesceTimeout p0 d) := by
  unfold coalesceTimeout
  extract_lets x6000 x6001
  clear_value x6000
  clear_value x6001
  split
  · split
    · refine Device.cqVector_calm ?_
      assumption
    · assumption
  · assumption
theorem Device.dmaStop_calm {e : Eff} {a : Device} {d : Device} {p1 : ℕ} (h : Calm e a d) (e_u23 : Lets (e.unit 23) := by first | assumption | exact ⟨rfl⟩) : Calm e a (Device.dmaStop d p1) := by
  unfold Device.dmaStop
  extract_lets x6000 x6001 x6002
  clear_value x6000
  clear_value x6001
  have hx6002 : Calm e a x6002 := by
    unfold x6002
    refine Device.count_calm ?_
    refine Device.setDch_calm ?_
    assumption
  clear_value x6002
  refine Device.raise_calm ?_
  refine Device.setf_calm ?_
  assumption
theorem Device.dmaFree_calm {e : Eff} {a : Device} {d : Device} {p1 : ℕ} (h : Calm e a d) (e_u23 : Lets (e.unit 23) := by first | assumption | exact ⟨rfl⟩) : Calm e a (Device.dmaFree d p1) := by
  unfold Device.dmaFree
  split
  · refine Device.dmaStop_calm ?_
    refine Device.setDch_calm ?_
    assumption
  · refine Device.setDch_calm ?_
    assumption
theorem Device.finish_calm {e : Eff} {a : Device} {d : Device} {p1 : ℕ} {p2 : ℕ} {p3 : ℕ} {p4 : ℕ} (h : Calm e a d) (e_u23 : Lets (e.unit 23) := by first | assumption | exact ⟨rfl⟩) : Calm e a (Device.finish d p1 p2 p3 p4) := by
  unfold Device.finish
  split
  · assumption
  · extract_lets x5900 x5901 x5902 x5903
    clear_value x5900
    clear_value x5901
    have hx5902 : Calm e a x5902 := by
      unfold x5902
      split
      · refine Device.count_calm ?_
        refine Device.cqPost_calm ?_
        assumption
      · assumption
    clear_value x5902
    have hx5903 : Calm e a x5903 := by
      unfold x5903
      split
      · refine Device.count_calm ?_
        assumption
      · assumption
    clear_value x5903
    refine Device.dmaFree_calm ?_
    assumption
theorem descriptorFetch_calm {e : Eff} {a : Device} {p0 : ℕ} {p1 : List Word} {p2 : List Word} {d : Device} (h : Calm e a d) (e_u23 : Lets (e.unit 23) := by first | assumption | exact ⟨rfl⟩) : Calm e a (descriptorFetch p0 p1 p2 d) := by
  unfold descriptorFetch
  extract_lets x6000 x6001 x6002 x6003
  clear_value x6000
  clear_value x6001
  clear_value x6002
  clear_value x6003
  split
  · assumption
  · split
    · assumption
    · extract_lets x5700 x5701 x5702 x5703 x5704
      clear_value x5700
      have hx5701 : Calm e a x5701 := by
        unfold x5701
        refine Device.setHif_calm ?_
        assumption
      clear_value x5701
      clear_value x5702
      clear_value x5703
      have hx5704 : Calm e a x5704 := by
        unfold x5704
        refine Device.setDch_calm ?_
        assumption
      clear_value x5704
      split
      · assumption
      · split
        · refine Device.finish_calm ?_
          assumption
        · assumption
theorem Device.hostPut_calm {e : Eff} {a : Device} {d : Device} {p1 : List (ℕ × ℕ)} {p2 : List Byte} (h : Calm e a d) : Calm e a (Device.hostPut d p1 p2) := by
  induction p1 generalizing d p2
  · unfold Device.hostPut
    assumption
  · rename_i hd tl ih
    unfold Device.hostPut
    split
    · assumption
    · apply ih
      refine Device.toHost_calm ?_
      assumption
theorem opNop_calm {e : Eff} {a : Device} {p0 : ℕ} {d : Device} (h : Calm e a d) (e_u23 : Lets (e.unit 23) := by first | assumption | exact ⟨rfl⟩) : Calm e a (opNop p0 d) := by
  unfold opNop
  split
  · assumption
  · refine Device.finish_calm ?_
    assumption
theorem opUndefined_calm {e : Eff} {a : Device} {p0 : ℕ} {d : Device} (h : Calm e a d) (e_u23 : Lets (e.unit 23) := by first | assumption | exact ⟨rfl⟩) : Calm e a (opUndefined p0 d) := by
  unfold opUndefined
  split
  · split
    · refine Device.finish_calm ?_
      assumption
    · assumption
  · assumption
theorem Device.loadNow_calm {e : Eff} {a : Device} {d : Device} {p1 : Xfer} {p2 : List (List Word)} (h : Calm e a d) (e_tab : Lets e.tab := by first | assumption | exact ⟨rfl⟩) (e_dd : Lets e.dd := by first | assumption | exact ⟨rfl⟩) (e_jnl : Lets e.jnl := by first | assumption | exact ⟨rfl⟩) (e_u4 : Lets (e.unit 4) := by first | assumption | exact ⟨rfl⟩) (e_u10 : Lets (e.unit 10) := by first | assumption | exact ⟨rfl⟩) (e_u15 : Lets (e.unit 15) := by first | assumption | exact ⟨rfl⟩) (e_u16 : Lets (e.unit 16) := by first | assumption | exact ⟨rfl⟩) (e_u17 : Lets (e.unit 17) := by first | assumption | exact ⟨rfl⟩) (e_u18 : Lets (e.unit 18) := by first | assumption | exact ⟨rfl⟩) (e_u20 : Lets (e.unit 20) := by first | assumption | exact ⟨rfl⟩) (e_u21 : Lets (e.unit 21) := by first | assumption | exact ⟨rfl⟩) (e_u23 : Lets (e.unit 23) := by first | assumption | exact ⟨rfl⟩) (e_u24 : Lets (e.unit 24) := by first | assumption | exact ⟨rfl⟩) (e_u26 : Lets (e.unit 26) := by first | assumption | exact ⟨rfl⟩) : Calm e a (Device.loadNow d p1 p2).2 := by
  unfold Device.loadNow
  extract_lets x6000 x6001
  clear_value x6000
  have hx6001 : Calm e a x6001.2 := by
    unfold x6001
    refine Device.tableLoad_calm ?_
    assumption
  clear_value x6001
  split
  · dsimp only
    assumption
  · dsimp only
    refine Device.mergeLoad_calm ?_
    assumption
theorem opTableLoad_calm {e : Eff} {a : Device} {p0 : ℕ} {d : Device} (h : Calm e a d) (e_tab : Lets e.tab := by first | assumption | exact ⟨rfl⟩) (e_dd : Lets e.dd := by first | assumption | exact ⟨rfl⟩) (e_jnl : Lets e.jnl := by first | assumption | exact ⟨rfl⟩) (e_u4 : Lets (e.unit 4) := by first | assumption | exact ⟨rfl⟩) (e_u10 : Lets (e.unit 10) := by first | assumption | exact ⟨rfl⟩) (e_u15 : Lets (e.unit 15) := by first | assumption | exact ⟨rfl⟩) (e_u16 : Lets (e.unit 16) := by first | assumption | exact ⟨rfl⟩) (e_u17 : Lets (e.unit 17) := by first | assumption | exact ⟨rfl⟩) (e_u18 : Lets (e.unit 18) := by first | assumption | exact ⟨rfl⟩) (e_u20 : Lets (e.unit 20) := by first | assumption | exact ⟨rfl⟩) (e_u21 : Lets (e.unit 21) := by first | assumption | exact ⟨rfl⟩) (e_u23 : Lets (e.unit 23) := by first | assumption | exact ⟨rfl⟩) (e_u24 : Lets (e.unit 24) := by first | assumption | exact ⟨rfl⟩) (e_u26 : Lets (e.unit 26) := by first | assumption | exact ⟨rfl⟩) : Calm e a (opTableLoad p0 d) := by
  unfold opTableLoad
  extract_lets x6000
  clear_value x6000
  split
  · assumption
  · split
    · assumption
    · extract_lets x5700 x5701
      clear_value x5700
      have hx5701 : Calm e a x5701.2 := by
        unfold x5701
        refine Device.loadNow_calm ?_
        assumption
      clear_value x5701
      split
      · refine Device.finish_calm ?_
        assumption
      · refine Device.finish_calm ?_
        assumption
theorem Device.barrier_calm {e : Eff} {a : Device} {d : Device} {p1 : Xfer} {p2 : ℕ} (h : Calm e a d) : Calm e a (Device.barrier d p1 p2) := by
  unfold Device.barrier
  split
  · split
    · refine Device.toHost_calm ?_
      assumption
    · assumption
  · assumption
theorem Device.dataPut_calm {e : Eff} {a : Device} {d : Device} {p1 : Xfer} {p2 : List Byte} (h : Calm e a d) : Calm e a (Device.dataPut d p1 p2) := by
  unfold Device.dataPut
  refine Device.barrier_calm ?_
  refine Device.hostPut_calm ?_
  assumption
theorem opTableRead_calm {e : Eff} {a : Device} {p0 : ℕ} {d : Device} (h : Calm e a d) (e_u10 : Lets (e.unit 10) := by first | assumption | exact ⟨rfl⟩) (e_u23 : Lets (e.unit 23) := by first | assumption | exact ⟨rfl⟩) (e_u26 : Lets (e.unit 26) := by first | assumption | exact ⟨rfl⟩) : Calm e a (opTableRead p0 d) := by
  unfold opTableRead
  extract_lets x1
  clear_value x1
  split
  · assumption
  · extract_lets x2 x3 x4
    clear_value x2
    clear_value x3
    clear_value x4
    split
    · refine Device.finish_calm ?_
      assumption
    · refine Device.finish_calm ?_
      refine Device.dataPut_calm ?_
      refine Device.mergeReadT_calm ?_
      assumption
theorem opHeatEnable_calm {e : Eff} {a : Device} {p0 : ℕ} {d : Device} (h : Calm e a d) (e_dd : Lets e.dd := by first | assumption | exact ⟨rfl⟩) (e_jnl : Lets e.jnl := by first | assumption | exact ⟨rfl⟩) (e_u8 : Lets (e.unit 8) := by first | assumption | exact ⟨rfl⟩) (e_u10 : Lets (e.unit 10) := by first | assumption | exact ⟨rfl⟩) (e_u16 : Lets (e.unit 16) := by first | assumption | exact ⟨rfl⟩) (e_u17 : Lets (e.unit 17) := by first | assumption | exact ⟨rfl⟩) (e_u23 : Lets (e.unit 23) := by first | assumption | exact ⟨rfl⟩) (e_u24 : Lets (e.unit 24) := by first | assumption | exact ⟨rfl⟩) : Calm e a (opHeatEnable p0 d) := by
  unfold opHeatEnable
  extract_lets x6000
  clear_value x6000
  split
  · assumption
  · split
    · assumption
    · extract_lets x5700
      have hx5700 : Calm e a x5700.2 := by
        unfold x5700
        refine Device.heatEnable_calm ?_
        assumption
      clear_value x5700
      refine Device.finish_calm ?_
      assumption
theorem opHeatDisable_calm {e : Eff} {a : Device} {p0 : ℕ} {d : Device} (h : Calm e a d) (e_dd : Lets e.dd := by first | assumption | exact ⟨rfl⟩) (e_jnl : Lets e.jnl := by first | assumption | exact ⟨rfl⟩) (e_u8 : Lets (e.unit 8) := by first | assumption | exact ⟨rfl⟩) (e_u10 : Lets (e.unit 10) := by first | assumption | exact ⟨rfl⟩) (e_u12 : Lets (e.unit 12) := by first | assumption | exact ⟨rfl⟩) (e_u14 : Lets (e.unit 14) := by first | assumption | exact ⟨rfl⟩) (e_u16 : Lets (e.unit 16) := by first | assumption | exact ⟨rfl⟩) (e_u17 : Lets (e.unit 17) := by first | assumption | exact ⟨rfl⟩) (e_u20 : Lets (e.unit 20) := by first | assumption | exact ⟨rfl⟩) (e_u23 : Lets (e.unit 23) := by first | assumption | exact ⟨rfl⟩) (e_u24 : Lets (e.unit 24) := by first | assumption | exact ⟨rfl⟩) (e_u26 : Lets (e.unit 26) := by first | assumption | exact ⟨rfl⟩) : Calm e a (opHeatDisable p0 d) := by
  unfold opHeatDisable
  extract_lets x1
  clear_value x1
  split
  · assumption
  · split
    · assumption
    · refine Device.finish_calm ?_
      refine Device.heatDisable_calm ?_
      assumption
theorem Device.dmaError_calm {e : Eff} {a : Device} {d : Device} {p1 : ℕ} {p2 : ℕ} {p3 : ℕ} {p4 : ℕ} (h : Calm e a d) (e_u23 : Lets (e.unit 23) := by first | assumption | exact ⟨rfl⟩) : Calm e a (Device.dmaError d p1 p2 p3 p4) := by
  unfold Device.dmaError
  split
  · assumption
  · extract_lets x5900 x5901
    have hx5900 : Calm e a x5900 := by
      unfold x5900
      refine Device.count_calm ?_
      assumption
    clear_value x5900
    have hx5901 : Calm e a x5901 := by
      unfold x5901
      split
      · refine Device.count_calm ?_
        assumption
      · assumption
    clear_value x5901
    refine Device.finish_calm ?_
    refine Device.raise_calm ?_
    assumption
theorem Device.osmHit_calm {e : Eff} {a : Device} {d : Device} {p1 : List ℕ} (h : Calm e a d) (e_dd : Lets e.dd := by first | assumption | exact ⟨rfl⟩) (e_jnl : Lets e.jnl := by first | assumption | exact ⟨rfl⟩) (e_u8 : Lets (e.unit 8) := by first | assumption | exact ⟨rfl⟩) (e_u10 : Lets (e.unit 10) := by first | assumption | exact ⟨rfl⟩) (e_u12 : Lets (e.unit 12) := by first | assumption | exact ⟨rfl⟩) (e_u14 : Lets (e.unit 14) := by first | assumption | exact ⟨rfl⟩) (e_u16 : Lets (e.unit 16) := by first | assumption | exact ⟨rfl⟩) (e_u17 : Lets (e.unit 17) := by first | assumption | exact ⟨rfl⟩) (e_u20 : Lets (e.unit 20) := by first | assumption | exact ⟨rfl⟩) (e_u23 : Lets (e.unit 23) := by first | assumption | exact ⟨rfl⟩) (e_u24 : Lets (e.unit 24) := by first | assumption | exact ⟨rfl⟩) (e_u26 : Lets (e.unit 26) := by first | assumption | exact ⟨rfl⟩) : Calm e a (Device.osmHit d p1) := by
  unfold Device.osmHit
  split
  · refine Device.osmStop_calm ?_
    assumption
  · assumption
theorem opMemRead_calm {e : Eff} {a : Device} {p0 : ℕ} {p1 : Option ℕ} {d : Device} (h : Calm e a d) (e_dd : Lets e.dd := by first | assumption | exact ⟨rfl⟩) (e_jnl : Lets e.jnl := by first | assumption | exact ⟨rfl⟩) (e_u8 : Lets (e.unit 8) := by first | assumption | exact ⟨rfl⟩) (e_u10 : Lets (e.unit 10) := by first | assumption | exact ⟨rfl⟩) (e_u12 : Lets (e.unit 12) := by first | assumption | exact ⟨rfl⟩) (e_u14 : Lets (e.unit 14) := by first | assumption | exact ⟨rfl⟩) (e_u16 : Lets (e.unit 16) := by first | assumption | exact ⟨rfl⟩) (e_u17 : Lets (e.unit 17) := by first | assumption | exact ⟨rfl⟩) (e_u20 : Lets (e.unit 20) := by first | assumption | exact ⟨rfl⟩) (e_u23 : Lets (e.unit 23) := by first | assumption | exact ⟨rfl⟩) (e_u24 : Lets (e.unit 24) := by first | assumption | exact ⟨rfl⟩) (e_u26 : Lets (e.unit 26) := by first | assumption | exact ⟨rfl⟩) : Calm e a (opMemRead p0 p1 d) := by
  unfold opMemRead
  extract_lets x1 x2
  clear_value x1
  clear_value x2
  split
  · assumption
  · extract_lets x3 x4 x5 x6 x7 x8 x9
    clear_value x3
    clear_value x4
    clear_value x5
    have hx6 : Calm e a x6.2 := by
      unfold x6
      refine Device.ddrCheck_calm ?_
      assumption
    clear_value x6
    have hx7 : Calm e a x7.2 := by
      unfold x7
      dsimp only
      refine Device.osmHit_calm ?_
      assumption
    clear_value x7
    clear_value x8
    clear_value x9
    split
    · refine Device.finish_calm ?_
      assumption
    · split
      · refine Device.finish_calm ?_
        refine Device.dataPut_calm ?_
        assumption
      · extract_lets x10 x11 x12
        have hx10 : Calm e a x10 := by
          unfold x10
          split
          · refine Device.ddrUe_calm ?_
            assumption
          · assumption
        clear_value x10
        clear_value x11
        have hx12 : Calm e a x12 := by
          unfold x12
          refine Device.dataPut_calm ?_
          assumption
        clear_value x12
        split
        · refine Device.dmaError_calm ?_
          assumption
        · refine Device.dmaError_calm ?_
          assumption
theorem dmaReadCompletion_calm {e : Eff} {a : Device} {p0 : ℕ} {p1 : List Byte} {p2 : Bool} {d : Device} (h : Calm e a d) (e_tab : Lets e.tab := by first | assumption | exact ⟨rfl⟩) (e_dd : Lets e.dd := by first | assumption | exact ⟨rfl⟩) (e_jnl : Lets e.jnl := by first | assumption | exact ⟨rfl⟩) (e_u4 : Lets (e.unit 4) := by first | assumption | exact ⟨rfl⟩) (e_u10 : Lets (e.unit 10) := by first | assumption | exact ⟨rfl⟩) (e_u15 : Lets (e.unit 15) := by first | assumption | exact ⟨rfl⟩) (e_u16 : Lets (e.unit 16) := by first | assumption | exact ⟨rfl⟩) (e_u17 : Lets (e.unit 17) := by first | assumption | exact ⟨rfl⟩) (e_u18 : Lets (e.unit 18) := by first | assumption | exact ⟨rfl⟩) (e_u20 : Lets (e.unit 20) := by first | assumption | exact ⟨rfl⟩) (e_u21 : Lets (e.unit 21) := by first | assumption | exact ⟨rfl⟩) (e_u23 : Lets (e.unit 23) := by first | assumption | exact ⟨rfl⟩) (e_u24 : Lets (e.unit 24) := by first | assumption | exact ⟨rfl⟩) (e_u26 : Lets (e.unit 26) := by first | assumption | exact ⟨rfl⟩) : Calm e a (dmaReadCompletion p0 p1 p2 d) := by
  unfold dmaReadCompletion
  extract_lets x6000 x6001 x6002 x6003
  clear_value x6000
  clear_value x6001
  clear_value x6002
  clear_value x6003
  split
  · assumption
  · split
    · assumption
    · split
      · refine Device.setDch_calm ?_
        assumption
      · extract_lets x5600 x5601
        clear_value x5600
        have hx5601 : Calm e a x5601.2 := by
          unfold x5601
          refine Device.loadNow_calm ?_
          assumption
        clear_value x5601
        split
        · refine Device.finish_calm ?_
          refine Device.setDch_calm ?_
          assumption
        · split
          · refine Device.dmaError_calm ?_
            assumption
          · refine Device.dmaError_calm ?_
            assumption
theorem dmaChStop_calm {e : Eff} {a : Device} {p0 : ℕ} {d : Device} (h : Calm e a d) (e_tab : Lets e.tab := by first | assumption | exact ⟨rfl⟩) (e_dd : Lets e.dd := by first | assumption | exact ⟨rfl⟩) (e_jnl : Lets e.jnl := by first | assumption | exact ⟨rfl⟩) (e_u4 : Lets (e.unit 4) := by first | assumption | exact ⟨rfl⟩) (e_u10 : Lets (e.unit 10) := by first | assumption | exact ⟨rfl⟩) (e_u15 : Lets (e.unit 15) := by first | assumption | exact ⟨rfl⟩) (e_u16 : Lets (e.unit 16) := by first | assumption | exact ⟨rfl⟩) (e_u17 : Lets (e.unit 17) := by first | assumption | exact ⟨rfl⟩) (e_u18 : Lets (e.unit 18) := by first | assumption | exact ⟨rfl⟩) (e_u20 : Lets (e.unit 20) := by first | assumption | exact ⟨rfl⟩) (e_u21 : Lets (e.unit 21) := by first | assumption | exact ⟨rfl⟩) (e_u23 : Lets (e.unit 23) := by first | assumption | exact ⟨rfl⟩) (e_u24 : Lets (e.unit 24) := by first | assumption | exact ⟨rfl⟩) (e_u26 : Lets (e.unit 26) := by first | assumption | exact ⟨rfl⟩) : Calm e a (dmaChStop p0 d) := by
  unfold dmaChStop
  extract_lets x6000 x6001 x6002 x6003 x6004
  clear_value x6000
  clear_value x6001
  have hx6002 : Calm e a x6002 := by
    unfold x6002
    split
    · assumption
    · split
      · extract_lets x5700 x5701
        clear_value x5700
        clear_value x5701
        refine Device.loadNow_calm ?_
        assumption
      · assumption
  clear_value x6002
  have hx6003 : Calm e a x6003 := by
    unfold x6003
    refine Calm.upd_free ?_
    assumption
  clear_value x6003
  clear_value x6004
  split
  · assumption
  · refine Device.dmaStop_calm ?_
    assumption
  · split
    · refine Device.setf_calm ?_
      refine Device.setDch_calm ?_
      assumption
    · refine Device.dmaStop_calm ?_
      refine Device.setDch_calm ?_
      assumption
theorem dmaAbortDone_calm {e : Eff} {a : Device} {p0 : ℕ} {d : Device} (h : Calm e a d) (e_tab : Lets e.tab := by first | assumption | exact ⟨rfl⟩) (e_dd : Lets e.dd := by first | assumption | exact ⟨rfl⟩) (e_jnl : Lets e.jnl := by first | assumption | exact ⟨rfl⟩) (e_u4 : Lets (e.unit 4) := by first | assumption | exact ⟨rfl⟩) (e_u8 : Lets (e.unit 8) := by first | assumption | exact ⟨rfl⟩) (e_u10 : Lets (e.unit 10) := by first | assumption | exact ⟨rfl⟩) (e_u12 : Lets (e.unit 12) := by first | assumption | exact ⟨rfl⟩) (e_u14 : Lets (e.unit 14) := by first | assumption | exact ⟨rfl⟩) (e_u15 : Lets (e.unit 15) := by first | assumption | exact ⟨rfl⟩) (e_u16 : Lets (e.unit 16) := by first | assumption | exact ⟨rfl⟩) (e_u17 : Lets (e.unit 17) := by first | assumption | exact ⟨rfl⟩) (e_u18 : Lets (e.unit 18) := by first | assumption | exact ⟨rfl⟩) (e_u20 : Lets (e.unit 20) := by first | assumption | exact ⟨rfl⟩) (e_u21 : Lets (e.unit 21) := by first | assumption | exact ⟨rfl⟩) (e_u23 : Lets (e.unit 23) := by first | assumption | exact ⟨rfl⟩) (e_u24 : Lets (e.unit 24) := by first | assumption | exact ⟨rfl⟩) (e_u26 : Lets (e.unit 26) := by first | assumption | exact ⟨rfl⟩) : Calm e a (dmaAbortDone p0 d) := by
  unfold dmaAbortDone
  extract_lets x1 x2
  clear_value x1
  clear_value x2
  split
  · assumption
  · split
    · assumption
    · split
      · refine opNop_calm ?_
        assumption
      · split
        · refine opTableLoad_calm ?_
          assumption
        · extract_lets x3
          have hx3 : Calm e a x3.2 := by
            unfold x3
            refine Device.loadNow_calm ?_
            assumption
          clear_value x3
          refine Device.finish_calm ?_
          assumption
      · refine Device.finish_calm ?_
        refine Device.barrier_calm ?_
        assumption
      · refine Device.finish_calm ?_
        refine Device.barrier_calm ?_
        assumption
      · refine Device.finish_calm ?_
        refine Device.barrier_calm ?_
        assumption
      · split
        · refine opHeatEnable_calm ?_
          assumption
        · refine opHeatDisable_calm ?_
          assumption
      · refine opUndefined_calm ?_
        assumption
theorem dmaChStart_calm {e : Eff} {a : Device} {p0 : ℕ} {d : Device} (h : Calm e a d) (e_u23 : Lets (e.unit 23) := by first | assumption | exact ⟨rfl⟩) : Calm e a (dmaChStart p0 d) := by
  unfold dmaChStart
  extract_lets x6000 x6001
  clear_value x6000
  clear_value x6001
  split
  · refine Device.setDch_calm ?_
    assumption
  · assumption
theorem dmaCtlWrite_calm {e : Eff} {a : Device} {p0 : ℕ} {p1 : Word} {d : Device} (h : Calm e a d) (e_tab : Lets e.tab := by first | assumption | exact ⟨rfl⟩) (e_dd : Lets e.dd := by first | assumption | exact ⟨rfl⟩) (e_jnl : Lets e.jnl := by first | assumption | exact ⟨rfl⟩) (e_u4 : Lets (e.unit 4) := by first | assumption | exact ⟨rfl⟩) (e_u10 : Lets (e.unit 10) := by first | assumption | exact ⟨rfl⟩) (e_u15 : Lets (e.unit 15) := by first | assumption | exact ⟨rfl⟩) (e_u16 : Lets (e.unit 16) := by first | assumption | exact ⟨rfl⟩) (e_u17 : Lets (e.unit 17) := by first | assumption | exact ⟨rfl⟩) (e_u18 : Lets (e.unit 18) := by first | assumption | exact ⟨rfl⟩) (e_u20 : Lets (e.unit 20) := by first | assumption | exact ⟨rfl⟩) (e_u21 : Lets (e.unit 21) := by first | assumption | exact ⟨rfl⟩) (e_u23 : Lets (e.unit 23) := by first | assumption | exact ⟨rfl⟩) (e_u24 : Lets (e.unit 24) := by first | assumption | exact ⟨rfl⟩) (e_u26 : Lets (e.unit 26) := by first | assumption | exact ⟨rfl⟩) : Calm e a (dmaCtlWrite p0 p1 d) := by
  unfold dmaCtlWrite
  extract_lets x6000
  have hx6000 : Calm e a x6000 := by
    unfold x6000
    split
    · refine dmaChStop_calm ?_
      assumption
    · assumption
  clear_value x6000
  split
  · refine dmaChStart_calm ?_
    assumption
  · assumption
theorem dmaCfgWrite_calm {e : Eff} {a : Device} {p0 : ℕ} {p1 : Word} {d : Device} (h : Calm e a d) (e_u23 : Lets (e.unit 23) := by first | assumption | exact ⟨rfl⟩) : Calm e a (dmaCfgWrite p0 p1 d) := by
  unfold dmaCfgWrite
  split
  · refine Device.cfgErr_calm ?_
    assumption
  · refine Device.setf_calm ?_
    assumption
theorem Device.sfTake_calm {e : Eff} {a : Device} {d : Device} {p1 : ℕ} {p2 : Packet} (h : Calm e a d) (e_u10 : Lets (e.unit 10) := by first | assumption | exact ⟨rfl⟩) (e_u19 : Lets (e.unit 19) := by first | assumption | exact ⟨rfl⟩) (e_u23 : Lets (e.unit 23) := by first | assumption | exact ⟨rfl⟩) (e_u26 : Lets (e.unit 26) := by first | assumption | exact ⟨rfl⟩) : Calm e a (Device.sfTake d p1 p2).2 := by
  unfold Device.sfTake
  extract_lets x6000 x6001 x6002
  clear_value x6000
  have hx6001 : Calm e a x6001 := by
    unfold x6001
    refine Device.memUe_calm ?_
    assumption
  clear_value x6001
  clear_value x6002
  split
  · dsimp only
    assumption
  · split
    · dsimp only
      refine Device.memCe_calm ?_
      assumption
    · split
      · dsimp only
        refine Calm.upd_free ?_
        assumption
      · split
        · dsimp only
          refine Device.count_calm ?_
          assumption
        · dsimp only
          refine Device.count_calm ?_
          assumption
theorem Device.sfCopy_calm {e : Eff} {a : Device} {d : Device} {p1 : ℕ} {p2 : ℕ} {p3 : ℕ} {p4 : ℕ} {p5 : ℕ} (h : Calm e a d) (e_u10 : Lets (e.unit 10) := by first | assumption | exact ⟨rfl⟩) (e_u19 : Lets (e.unit 19) := by first | assumption | exact ⟨rfl⟩) (e_u23 : Lets (e.unit 23) := by first | assumption | exact ⟨rfl⟩) (e_u26 : Lets (e.unit 26) := by first | assumption | exact ⟨rfl⟩) : Calm e a (Device.sfCopy d p1 p2 p3 p4 p5) := by
  induction p5 generalizing d p1 p2 p3 p4
  · unfold Device.sfCopy
    assumption
  · rename_i n ih
    unfold Device.sfCopy
    extract_lets x6000 x6001
    clear_value x6000
    clear_value x6001
    split
    · assumption
    · extract_lets x5800
      have hx5800 : Calm e a x5800.2 := by
        unfold x5800
        refine Device.sfTake_calm ?_
        assumption
      clear_value x5800
      split
      · apply ih
        refine Device.setSf_calm ?_
        assumption
      · extract_lets x5600 x5601
        clear_value x5600
        have hx5601 : Calm e a x5601 := by
          unfold x5601
          refine Device.toHost_calm ?_
          refine Device.toHost_calm ?_
          refine Device.setSf_calm ?_
          assumption
        clear_value x5601
        split
        · assumption
        · apply ih
          refine Device.setDch_calm ?_
          assumption
theorem Device.dataWrite_calm {e : Eff} {a : Device} {d : Device} {p1 : ℕ} {p2 : List Byte} (h : Calm e a d) : Calm e a (Device.dataWrite d p1 p2) := by
  unfold Device.dataWrite
  refine Device.toHost_calm ?_
  assumption
theorem Device.streamDone_calm {e : Eff} {a : Device} {d : Device} {p1 : ℕ} {p2 : Xfer} {p3 : ℕ} (h : Calm e a d) (e_u23 : Lets (e.unit 23) := by first | assumption | exact ⟨rfl⟩) : Calm e a (Device.streamDone d p1 p2 p3) := by
  unfold Device.streamDone
  extract_lets x1 x2
  clear_value x1
  have hx2 : Calm e a x2 := by
    unfold x2
    split
    · refine Device.barrier_calm ?_
      refine Device.dataWrite_calm ?_
      assumption
    · refine Device.barrier_calm ?_
      assumption
  clear_value x2
  refine Device.finish_calm ?_
  assumption
theorem opStreamRead_calm {e : Eff} {a : Device} {p0 : ℕ} {d : Device} (h : Calm e a d) (e_u10 : Lets (e.unit 10) := by first | assumption | exact ⟨rfl⟩) (e_u19 : Lets (e.unit 19) := by first | assumption | exact ⟨rfl⟩) (e_u23 : Lets (e.unit 23) := by first | assumption | exact ⟨rfl⟩) (e_u26 : Lets (e.unit 26) := by first | assumption | exact ⟨rfl⟩) : Calm e a (opStreamRead p0 d) := by
  unfold opStreamRead
  extract_lets x6000
  clear_value x6000
  split
  · assumption
  · extract_lets x5800 x5801
    clear_value x5800
    have hx5801 : Calm e a x5801 := by
      unfold x5801
      refine Device.sfCopy_calm ?_
      assumption
    clear_value x5801
    split
    · refine Device.streamDone_calm ?_
      assumption
    · assumption
theorem streamIdle_calm {e : Eff} {a : Device} {p0 : ℕ} {d : Device} (h : Calm e a d) (e_u23 : Lets (e.unit 23) := by first | assumption | exact ⟨rfl⟩) : Calm e a (streamIdle p0 d) := by
  unfold streamIdle
  extract_lets x6000
  clear_value x6000
  split
  · extract_lets x5800
    clear_value x5800
    split
    · refine Device.streamDone_calm ?_
      assumption
    · assumption
  · assumption
theorem streamFlush_calm {e : Eff} {a : Device} {p0 : ℕ} {d : Device} (h : Calm e a d) (e_u23 : Lets (e.unit 23) := by first | assumption | exact ⟨rfl⟩) : Calm e a (streamFlush p0 d) := by
  unfold streamFlush
  split
  · assumption
  · extract_lets x1
    have hx1 : Calm e a x1 := by
      unfold x1
      refine Device.setf_calm ?_
      refine Device.count_calm ?_
      refine Device.setSf_calm ?_
      assumption
    clear_value x1
    split
    · refine Device.finish_calm ?_
      refine Device.barrier_calm ?_
      assumption
    · assumption
theorem Device.hifReset_calm {e : Eff} {a d : Device} (h : Calm e a d) (e_u23 : Lets (e.unit 23) := by first | assumption | exact ⟨rfl⟩) : Calm e a d.hifReset := by
  unfold Device.hifReset
  have h1 : Calm e a { d with regs := mset d.regs 0x17 (hifRegsReset (d.blkRegs 0x17)) } := Calm.setBlk h
  exact Device.irqRefresh_calm h1.upd
theorem pcieLinkDown_calm {e : Eff} {a : Device} {p0 : Bool} {p1 : ℕ} {p2 : ℕ} {d : Device} (h : Calm e a d) (e_u23 : Lets (e.unit 23) := by first | assumption | exact ⟨rfl⟩) : Calm e a (pcieLinkDown p0 p1 p2 d) := by
  unfold pcieLinkDown
  extract_lets x6000 x6001
  clear_value x6000
  have hx6001 : Calm e a x6001 := by
    unfold x6001
    refine Device.hifReset_calm ?_
    assumption
  clear_value x6001
  split
  · refine Device.setf_calm ?_
    assumption
  · refine Device.raise_calm ?_
    refine Device.count_calm ?_
    assumption
theorem pcieLinkUp_calm {e : Eff} {a : Device} {p0 : ℕ} {p1 : ℕ} {d : Device} (h : Calm e a d) (e_u23 : Lets (e.unit 23) := by first | assumption | exact ⟨rfl⟩) : Calm e a (pcieLinkUp p0 p1 d) := by
  unfold pcieLinkUp
  split
  · assumption
  · refine Device.raise_calm ?_
    refine Device.setf_calm ?_
    assumption
end Sys2Proof.Machine
end

