-- ==== Sys2Proof/Laws/CalmModes.lean ====
section
/-!
SUPPORT. One lemma per operation of modes, the radio, memory integrity and register writes (Machine/Power, Radio, Memory, Registers, Command): what the
operation may touch, in the terms of Calm.
-/
namespace Sys2Proof.Machine
set_option Elab.async false
/-! Power. -/
theorem Device.saveCut_calm {e : Eff} {a : Device} {d : Device} (h : Calm e a d) (e_u1 : Lets (e.unit 1) := by first | assumption | exact ⟨rfl⟩) : Calm e a (Device.saveCut d) := by
  unfold Device.saveCut
  split
  · extract_lets x1 x2
    clear_value x1
    refine Device.count_calm ?_
    refine Device.setf_calm ?_
    unfold Device.setPwr
    refine Calm.upd_pwr ?_
    assumption
  · assumption
theorem Device.pinsLow_calm {e : Eff} {a : Device} {d : Device} (h : Calm e a d) : Calm e a (Device.pinsLow d) := by
  unfold Device.pinsLow
  extract_lets x6000
  have hx6000 : Calm e a x6000 := by
    unfold x6000
    refine Device.emit_calm ?_
    assumption
  clear_value x6000
  apply calm_foldl
  · intro v58
    intro v57
    intro w56
    refine Device.emit_calm ?_
    assumption
  · assumption
theorem Device.batonOff_calm {e : Eff} {a : Device} {d : Device} (h : Calm e a d) (e_u22 : Lets (e.unit 22) := by first | assumption | exact ⟨rfl⟩) : Calm e a (Device.batonOff d) := by
  unfold Device.batonOff
  refine Device.emit_calm ?_
  refine Calm.upd_rly ?_
  assumption
theorem Device.pinsOff_calm {e : Eff} {a : Device} {d : Device} (h : Calm e a d) : Calm e a (Device.pinsOff d) := by
  unfold Device.pinsOff
  extract_lets x1
  have hx1 : Calm e a x1 := by
    unfold x1
    refine Device.emit_calm ?_
    assumption
  clear_value x1
  apply calm_foldl
  · intro v2
    intro v3
    intro v4
    refine Device.emit_calm ?_
    assumption
  · assumption
theorem Device.intoReset_calm {e : Eff} {a d : Device} {pins : Device → Device}
    (hp : ∀ {e : Eff} {a x : Device}, Calm e a x → Calm e a (pins x)) (h : Calm e a d) (e_mode : Lets e.mode := by first | assumption | exact ⟨rfl⟩) (e_u1 : Lets (e.unit 1) := by first | assumption | exact ⟨rfl⟩) (e_u16 : Lets (e.unit 16) := by first | assumption | exact ⟨rfl⟩) (e_u17 : Lets (e.unit 17) := by first | assumption | exact ⟨rfl⟩) (e_u22 : Lets (e.unit 22) := by first | assumption | exact ⟨rfl⟩) (e_u23 : Lets (e.unit 23) := by first | assumption | exact ⟨rfl⟩) :
    Calm e a (d.intoReset pins) := by
  unfold Device.intoReset
  split
  · exact h
  · rename_i hd
    extract_lets d1 d2
    have k1 : Calm e a d2 := Device.hifReset_calm (Device.setf_calm (hp (Device.batonOff_calm (Device.txStopAll_calm (Device.driversOff_calm
      (Device.stopToggle_calm (Device.saveCut_calm h)))))))
    have k2 : Calm Eff.still d d2 := Device.hifReset_calm (Device.setf_calm (hp (Device.batonOff_calm (Device.txStopAll_calm (Device.driversOff_calm
      (Device.stopToggle_calm (Device.saveCut_calm (Calm.refl _ _))))))))
    refine Device.setMode_calm ?_ k1
    rw [k2.mode_eq]
    revert hd
    cases d.pwr.mode <;> simp [Moves]
theorem Device.toReset_calm {e : Eff} {a d : Device} (h : Calm e a d) (e_mode : Lets e.mode := by first | assumption | exact ⟨rfl⟩) (e_u1 : Lets (e.unit 1) := by first | assumption | exact ⟨rfl⟩) (e_u16 : Lets (e.unit 16) := by first | assumption | exact ⟨rfl⟩) (e_u17 : Lets (e.unit 17) := by first | assumption | exact ⟨rfl⟩) (e_u22 : Lets (e.unit 22) := by first | assumption | exact ⟨rfl⟩) (e_u23 : Lets (e.unit 23) := by first | assumption | exact ⟨rfl⟩) : Calm e a d.toReset := by
  unfold Device.toReset
  exact Device.intoReset_calm Device.pinsLow_calm h
theorem resetAssert_calm {e : Eff} {a : Device} {d : Device} (h : Calm e a d) (e_mode : Lets e.mode := by first | assumption | exact ⟨rfl⟩) (e_u1 : Lets (e.unit 1) := by first | assumption | exact ⟨rfl⟩) (e_u16 : Lets (e.unit 16) := by first | assumption | exact ⟨rfl⟩) (e_u17 : Lets (e.unit 17) := by first | assumption | exact ⟨rfl⟩) (e_u22 : Lets (e.unit 22) := by first | assumption | exact ⟨rfl⟩) (e_u23 : Lets (e.unit 23) := by first | assumption | exact ⟨rfl⟩) : Calm e a (resetAssert d) := by
  unfold resetAssert
  split
  · unfold Device.setPwr
    refine Calm.upd_pwr ?_
    assumption
  · extract_lets x5900 x5901
    have hx5900 : Calm e a x5900 := by
      unfold x5900
      refine Device.toReset_calm ?_
      assumption
    clear_value x5900
    unfold Device.setPwr
    refine Calm.upd_pwr ?_
    assumption
theorem Device.fresh_calm {e : Eff} {a d : Device} (h : Calm e a d) (e_tab : Lets e.tab := by first | assumption | exact ⟨rfl⟩) (e_grp : Lets e.grp := by first | assumption | exact ⟨rfl⟩) (e_bd : Lets e.bd := by first | assumption | exact ⟨rfl⟩) (e_now : Lets e.now := by first | assumption | exact ⟨rfl⟩) (e_dd : Lets e.dd := by first | assumption | exact ⟨rfl⟩) (e_jnl : Lets e.jnl := by first | assumption | exact ⟨rfl⟩) (e_rd : Lets e.rd := by first | assumption | exact ⟨rfl⟩) (e_u1 : Lets (e.unit 1) := by first | assumption | exact ⟨rfl⟩) (e_u2 : Lets (e.unit 2) := by first | assumption | exact ⟨rfl⟩) (e_u4 : Lets (e.unit 4) := by first | assumption | exact ⟨rfl⟩) (e_u8 : Lets (e.unit 8) := by first | assumption | exact ⟨rfl⟩) (e_u10 : Lets (e.unit 10) := by first | assumption | exact ⟨rfl⟩) (e_u12 : Lets (e.unit 12) := by first | assumption | exact ⟨rfl⟩) (e_u14 : Lets (e.unit 14) := by first | assumption | exact ⟨rfl⟩) (e_u15 : Lets (e.unit 15) := by first | assumption | exact ⟨rfl⟩) (e_u16 : Lets (e.unit 16) := by first | assumption | exact ⟨rfl⟩) (e_u17 : Lets (e.unit 17) := by first | assumption | exact ⟨rfl⟩) (e_u18 : Lets (e.unit 18) := by first | assumption | exact ⟨rfl⟩) (e_u19 : Lets (e.unit 19) := by first | assumption | exact ⟨rfl⟩) (e_u20 : Lets (e.unit 20) := by first | assumption | exact ⟨rfl⟩) (e_u21 : Lets (e.unit 21) := by first | assumption | exact ⟨rfl⟩) (e_u22 : Lets (e.unit 22) := by first | assumption | exact ⟨rfl⟩) (e_u23 : Lets (e.unit 23) := by first | assumption | exact ⟨rfl⟩) (e_u24 : Lets (e.unit 24) := by first | assumption | exact ⟨rfl⟩) (e_u26 : Lets (e.unit 26) := by first | assumption | exact ⟨rfl⟩) (e_u27 : Lets (e.unit 27) := by first | assumption | exact ⟨rfl⟩) (e_all : ∀ b, Lets (e.unit b) := by first | assumption | exact ⟨rfl⟩) : Calm e a d.fresh := by
  have k : ∀ y : Device, y.ddr = [] → y.pwr.mode = d.pwr.mode → y.pwr.powered = d.pwr.powered → y.key.slots = d.key.slots →
      y.key.tampered = d.key.tampered → Calm e a y := by
    intro y h1 h2 h3 h4 h5
    have h6 : Calm e a { y with ddr := d.ddr } := h.upd rfl h2 (.inl (by assumption)) (.inr h3) (k2 := .inr h4) (k4 := .inr h5)
    exact { h6 with ddr := fun _ => by rw [h1]; rfl, cells := .inl (by assumption) }
  unfold Device.fresh
  exact Device.setf_calm (Device.setf_calm (Device.setf_calm (Device.setf_calm (k _ rfl rfl rfl rfl rfl))))
theorem Device.railThr_calm {e : Eff} {a : Device} {d : Device} (h : Calm e a d) (e_u1 : Lets (e.unit 1) := by first | assumption | exact ⟨rfl⟩) : Calm e a (Device.railThr d) := by
  unfold Device.railThr
  extract_lets x6000
  have hx6000 : Calm e a x6000 := by
    unfold x6000
    apply calm_foldl
    · intro v58
      intro v57
      intro w56
      split
      · refine Device.wr_calm ?_
        assumption
      · refine Device.wr_calm ?_
        assumption
    · assumption
  clear_value x6000
  refine Calm.upd_free ?_
  assumption
theorem Device.saveTake_calm {e : Eff} {a : Device} {d : Device} (h : Calm e a d) (e_u1 : Lets (e.unit 1) := by first | assumption | exact ⟨rfl⟩) : Calm e a (Device.saveTake d) := by
  unfold Device.saveTake
  split
  · refine Device.raise_calm ?_
    refine Device.setf_calm ?_
    assumption
  · extract_lets x1 x2 x3 x4 x5 x6
    clear_value x1
    clear_value x2
    have hx3 : Calm e a x3 := by
      unfold x3
      apply calm_foldl
      · intro v7
        intro v8
        intro v9
        refine Device.scbProgram_calm ?_
        assumption
      · assumption
    clear_value x3
    have hx6 : Calm e a x6 := by
      unfold x6
      refine Device.setf_calm ?_
      unfold Device.setPwr
      refine Calm.upd_pwr ?_
      assumption
    clear_value x6
    split
    · refine Device.raise_calm ?_
      refine Device.setf_calm ?_
      assumption
    · split
      · refine Device.raise_calm ?_
        refine Device.setf_calm ?_
        unfold Device.setPwr
        refine Calm.upd_pwr ?_
        assumption
      · refine Device.raise_calm ?_
        refine Device.raise_calm ?_
        assumption
theorem warmupComplete_calm {e : Eff} {a : Device} {p0 : ℕ} {p1 : Word} {p2 : ℕ} {d : Device} (h : Calm e a d) (e_hold : Lets e.hold := by first | assumption | exact ⟨rfl⟩) (e_key : Lets e.key := by first | assumption | exact ⟨rfl⟩) (e_grp : Lets e.grp := by first | assumption | exact ⟨rfl⟩) (e_u1 : Lets (e.unit 1) := by first | assumption | exact ⟨rfl⟩) (e_u12 : Lets (e.unit 12) := by first | assumption | exact ⟨rfl⟩) (e_u17 : Lets (e.unit 17) := by first | assumption | exact ⟨rfl⟩) (e_u22 : Lets (e.unit 22) := by first | assumption | exact ⟨rfl⟩) (e_u24 : Lets (e.unit 24) := by first | assumption | exact ⟨rfl⟩) : Calm e a (warmupComplete p0 p1 p2 d) := by
  unfold warmupComplete
  split
  · assumption
  · split
    · refine Device.fatalError_calm ?_
      assumption
    · extract_lets x1 x2 x3 x4
      have hx1 : Calm e a x1 := by
        unfold x1
        refine Device.saveTake_calm ?_
        refine Device.railThr_calm ?_
        refine Device.setf_calm ?_
        refine Device.wr_calm ?_
        assumption
      clear_value x1
      have hx3 : Calm e a x3 := by
        unfold x3
        unfold Device.setKey
        refine Calm.upd_key ?_
        assumption
      clear_value x3
      refine Device.setf_calm ?_
      unfold Device.setPwr
      refine Calm.upd_pwr ?_
      assumption
theorem Device.pwrErr_calm {e : Eff} {a : Device} {d : Device} {p1 : ℕ} (h : Calm e a d) (e_u1 : Lets (e.unit 1) := by first | assumption | exact ⟨rfl⟩) : Calm e a (Device.pwrErr d p1) := by
  unfold Device.pwrErr
  refine Device.err_calm ?_
  assumption
theorem pwrGoRace_calm {e : Eff} {a d : Device} (h : Calm e a d) (e_mode : Lets e.mode := by first | assumption | exact ⟨rfl⟩) (e_tab : Lets e.tab := by first | assumption | exact ⟨rfl⟩) (e_dd : Lets e.dd := by first | assumption | exact ⟨rfl⟩) (e_jnl : Lets e.jnl := by first | assumption | exact ⟨rfl⟩) (e_u1 : Lets (e.unit 1) := by first | assumption | exact ⟨rfl⟩) (e_u8 : Lets (e.unit 8) := by first | assumption | exact ⟨rfl⟩) (e_u16 : Lets (e.unit 16) := by first | assumption | exact ⟨rfl⟩) (e_u17 : Lets (e.unit 17) := by first | assumption | exact ⟨rfl⟩) (e_u20 : Lets (e.unit 20) := by first | assumption | exact ⟨rfl⟩) (e_u22 : Lets (e.unit 22) := by first | assumption | exact ⟨rfl⟩) (e_u23 : Lets (e.unit 23) := by first | assumption | exact ⟨rfl⟩) (e_u24 : Lets (e.unit 24) := by first | assumption | exact ⟨rfl⟩) (e_u27 : Lets (e.unit 27) := by first | assumption | exact ⟨rfl⟩) : Calm e a (pwrGoRace d) := by
  unfold pwrGoRace
  split
  · rename_i hg
    refine Device.goRace_calm ?_ (Device.setf_calm h)
    rw [(Device.setf_calm (Calm.refl Eff.still d)).mode_eq]
    simp only [Device.goOk, Bool.and_eq_true, decide_eq_true_eq] at hg
    exact hg.1
  · exact Device.pwrErr_calm h
theorem pwrGoRerun_calm {e : Eff} {a d : Device} (h : Calm e a d) (e_mode : Lets e.mode := by first | assumption | exact ⟨rfl⟩) (e_u1 : Lets (e.unit 1) := by first | assumption | exact ⟨rfl⟩) : Calm e a (pwrGoRerun d) := by
  unfold pwrGoRerun
  split
  · rename_i hg
    have k1 : Calm e a (d.setPwr { d.pwr with waiting := none, watchAt := none }) := h.upd
    have k2 : Calm Eff.still d (d.setPwr { d.pwr with waiting := none, watchAt := none }) := (Calm.refl _ _).upd
    refine Device.setMode_calm ?_ (Device.setf_calm k1)
    rw [(Device.setf_calm k2).mode_eq]
    simp only [Device.goOk, Bool.and_eq_true, decide_eq_true_eq] at hg
    rw [hg.1]; trivial
  · exact Device.pwrErr_calm h
theorem pwrResetKey_calm {e : Eff} {a : Device} {p0 : ℕ} {d : Device} (h : Calm e a d) (e_mode : Lets e.mode := by first | assumption | exact ⟨rfl⟩) (e_u1 : Lets (e.unit 1) := by first | assumption | exact ⟨rfl⟩) (e_u16 : Lets (e.unit 16) := by first | assumption | exact ⟨rfl⟩) (e_u17 : Lets (e.unit 17) := by first | assumption | exact ⟨rfl⟩) (e_u22 : Lets (e.unit 22) := by first | assumption | exact ⟨rfl⟩) (e_u23 : Lets (e.unit 23) := by first | assumption | exact ⟨rfl⟩) : Calm e a (pwrResetKey p0 d) := by
  unfold pwrResetKey
  split
  · split
    · assumption
    · extract_lets x1 x2
      have hx1 : Calm e a x1 := by
        unfold x1
        refine Device.toReset_calm ?_
        assumption
      clear_value x1
      unfold Device.setPwr
      refine Calm.upd_pwr ?_
      assumption
  · split
    · assumption
    · refine Device.pwrErr_calm ?_
      assumption
theorem pwrCtlWrite_calm {e : Eff} {a : Device} {p0 : Word} {d : Device} (h : Calm e a d) (e_mode : Lets e.mode := by first | assumption | exact ⟨rfl⟩) (e_tab : Lets e.tab := by first | assumption | exact ⟨rfl⟩) (e_dd : Lets e.dd := by first | assumption | exact ⟨rfl⟩) (e_jnl : Lets e.jnl := by first | assumption | exact ⟨rfl⟩) (e_u1 : Lets (e.unit 1) := by first | assumption | exact ⟨rfl⟩) (e_u8 : Lets (e.unit 8) := by first | assumption | exact ⟨rfl⟩) (e_u16 : Lets (e.unit 16) := by first | assumption | exact ⟨rfl⟩) (e_u17 : Lets (e.unit 17) := by first | assumption | exact ⟨rfl⟩) (e_u20 : Lets (e.unit 20) := by first | assumption | exact ⟨rfl⟩) (e_u22 : Lets (e.unit 22) := by first | assumption | exact ⟨rfl⟩) (e_u23 : Lets (e.unit 23) := by first | assumption | exact ⟨rfl⟩) (e_u24 : Lets (e.unit 24) := by first | assumption | exact ⟨rfl⟩) (e_u27 : Lets (e.unit 27) := by first | assumption | exact ⟨rfl⟩) : Calm e a (pwrCtlWrite p0 d) := by
  unfold pwrCtlWrite
  extract_lets x1
  have hx1 : Calm e a x1 := by
    unfold x1
    refine Device.setf_calm ?_
    assumption
  clear_value x1
  split
  · refine pwrResetKey_calm ?_
    assumption
  · split
    · split
      · refine pwrGoRerun_calm ?_
        assumption
      · refine pwrGoRace_calm ?_
        assumption
    · assumption
theorem pfwFall_calm {e : Eff} {a : Device} {d : Device} (h : Calm e a d) (e_hold : Lets e.hold := by first | assumption | exact ⟨rfl⟩) (e_key : Lets e.key := by first | assumption | exact ⟨rfl⟩) (e_grp : Lets e.grp := by first | assumption | exact ⟨rfl⟩) (e_u1 : Lets (e.unit 1) := by first | assumption | exact ⟨rfl⟩) (e_u17 : Lets (e.unit 17) := by first | assumption | exact ⟨rfl⟩) (e_u22 : Lets (e.unit 22) := by first | assumption | exact ⟨rfl⟩) (e_u24 : Lets (e.unit 24) := by first | assumption | exact ⟨rfl⟩) : Calm e a (pfwFall d) := by
  unfold pfwFall
  extract_lets x1 x2
  have hx2 : Calm e a x2 := by
    unfold x2
    unfold Device.setPwr
    refine Calm.upd_pwr ?_
    assumption
  clear_value x2
  split
  · refine Device.enterHold_calm ?_
    assumption
  · assumption
theorem saveDone_calm {e : Eff} {a : Device} {p0 : Bool} {p1 : ℕ} {d : Device} (h : Calm e a d) (e_u1 : Lets (e.unit 1) := by first | assumption | exact ⟨rfl⟩) : Calm e a (saveDone p0 p1 d) := by
  unfold saveDone
  split
  · assumption
  · extract_lets x5900 x5901 x5902 x5903 x5904
    clear_value x5900
    clear_value x5901
    clear_value x5902
    have hx5904 : Calm e a x5904 := by
      unfold x5904
      refine Device.setf_calm ?_
      refine Device.setf_calm ?_
      unfold Device.setPwr
      refine Calm.upd_pwr ?_
      assumption
    clear_value x5904
    split
    · assumption
    · refine Device.count_calm ?_
      assumption
theorem holdEnd_calm {e : Eff} {a : Device} {d : Device} (h : Calm e a d) (e_mode : Lets e.mode := by first | assumption | exact ⟨rfl⟩) (e_u1 : Lets (e.unit 1) := by first | assumption | exact ⟨rfl⟩) (e_u16 : Lets (e.unit 16) := by first | assumption | exact ⟨rfl⟩) (e_u17 : Lets (e.unit 17) := by first | assumption | exact ⟨rfl⟩) (e_u22 : Lets (e.unit 22) := by first | assumption | exact ⟨rfl⟩) (e_u23 : Lets (e.unit 23) := by first | assumption | exact ⟨rfl⟩) : Calm e a (holdEnd d) := by
  unfold holdEnd
  split
  · assumption
  · split
    · assumption
    · extract_lets x1 x2
      have hx1 : Calm e a x1 := by
        unfold x1
        refine Device.toReset_calm ?_
        assumption
      clear_value x1
      unfold Device.setPwr
      refine Calm.upd_pwr ?_
      assumption
theorem watchdogExpiry_calm {e : Eff} {a : Device} {d : Device} (h : Calm e a d) (e_hold : Lets e.hold := by first | assumption | exact ⟨rfl⟩) (e_key : Lets e.key := by first | assumption | exact ⟨rfl⟩) (e_grp : Lets e.grp := by first | assumption | exact ⟨rfl⟩) (e_u1 : Lets (e.unit 1) := by first | assumption | exact ⟨rfl⟩) (e_u17 : Lets (e.unit 17) := by first | assumption | exact ⟨rfl⟩) (e_u22 : Lets (e.unit 22) := by first | assumption | exact ⟨rfl⟩) (e_u24 : Lets (e.unit 24) := by first | assumption | exact ⟨rfl⟩) : Calm e a (watchdogExpiry d) := by
  unfold watchdogExpiry
  refine Device.fatalError_calm ?_
  assumption
theorem clockLoss_calm {e : Eff} {a : Device} {d : Device} (h : Calm e a d) (e_hold : Lets e.hold := by first | assumption | exact ⟨rfl⟩) (e_key : Lets e.key := by first | assumption | exact ⟨rfl⟩) (e_grp : Lets e.grp := by first | assumption | exact ⟨rfl⟩) (e_u1 : Lets (e.unit 1) := by first | assumption | exact ⟨rfl⟩) (e_u17 : Lets (e.unit 17) := by first | assumption | exact ⟨rfl⟩) (e_u22 : Lets (e.unit 22) := by first | assumption | exact ⟨rfl⟩) (e_u24 : Lets (e.unit 24) := by first | assumption | exact ⟨rfl⟩) : Calm e a (clockLoss d) := by
  unfold clockLoss
  refine Device.fatalError_calm ?_
  assumption
theorem powerLoss_calm {e : Eff} {a d : Device} (h : Calm e a d) (e_mode : Lets e.mode := by first | assumption | exact ⟨rfl⟩) (e_pow : Lets e.pow := by first | assumption | exact ⟨rfl⟩) (e_key : Lets e.key := by first | assumption | exact ⟨rfl⟩) (e_u1 : Lets (e.unit 1) := by first | assumption | exact ⟨rfl⟩) (e_u16 : Lets (e.unit 16) := by first | assumption | exact ⟨rfl⟩) (e_u17 : Lets (e.unit 17) := by first | assumption | exact ⟨rfl⟩) (e_u22 : Lets (e.unit 22) := by first | assumption | exact ⟨rfl⟩) (e_u23 : Lets (e.unit 23) := by first | assumption | exact ⟨rfl⟩) (e_u24 : Lets (e.unit 24) := by first | assumption | exact ⟨rfl⟩) :
    Calm e a (powerLoss d) := by
  unfold powerLoss
  split
  · exact h
  · extract_lets cut slots keep d1
    have h1 : Calm e a d1 := by
      unfold d1
      split
      · exact Device.pinsOff_calm h
      · exact Device.intoReset_calm Device.pinsOff_calm h
    clear_value d1
    unfold Device.setPwr Device.setKey
    exact { h1 with pow := .inl (by assumption), slots := .inl (by assumption), tampered := .inl (by assumption), pwr := .inl (by assumption),
                    keys := .inl (by assumption) }
theorem powerUp_calm {e : Eff} {a d : Device}
    (h : Calm e a d) (e_mode : Lets e.mode := by first | assumption | exact ⟨rfl⟩) (e_pow : Lets e.pow := by first | assumption | exact ⟨rfl⟩) (e_tab : Lets e.tab := by first | assumption | exact ⟨rfl⟩) (e_grp : Lets e.grp := by first | assumption | exact ⟨rfl⟩) (e_bd : Lets e.bd := by first | assumption | exact ⟨rfl⟩) (e_now : Lets e.now := by first | assumption | exact ⟨rfl⟩) (e_dd : Lets e.dd := by first | assumption | exact ⟨rfl⟩) (e_jnl : Lets e.jnl := by first | assumption | exact ⟨rfl⟩) (e_rd : Lets e.rd := by first | assumption | exact ⟨rfl⟩) (e_u1 : Lets (e.unit 1) := by first | assumption | exact ⟨rfl⟩) (e_u2 : Lets (e.unit 2) := by first | assumption | exact ⟨rfl⟩) (e_u4 : Lets (e.unit 4) := by first | assumption | exact ⟨rfl⟩) (e_u8 : Lets (e.unit 8) := by first | assumption | exact ⟨rfl⟩) (e_u10 : Lets (e.unit 10) := by first | assumption | exact ⟨rfl⟩) (e_u12 : Lets (e.unit 12) := by first | assumption | exact ⟨rfl⟩) (e_u14 : Lets (e.unit 14) := by first | assumption | exact ⟨rfl⟩) (e_u15 : Lets (e.unit 15) := by first | assumption | exact ⟨rfl⟩) (e_u16 : Lets (e.unit 16) := by first | assumption | exact ⟨rfl⟩) (e_u17 : Lets (e.unit 17) := by first | assumption | exact ⟨rfl⟩) (e_u18 : Lets (e.unit 18) := by first | assumption | exact ⟨rfl⟩) (e_u19 : Lets (e.unit 19) := by first | assumption | exact ⟨rfl⟩) (e_u20 : Lets (e.unit 20) := by first | assumption | exact ⟨rfl⟩) (e_u21 : Lets (e.unit 21) := by first | assumption | exact ⟨rfl⟩) (e_u22 : Lets (e.unit 22) := by first | assumption | exact ⟨rfl⟩) (e_u23 : Lets (e.unit 23) := by first | assumption | exact ⟨rfl⟩) (e_u24 : Lets (e.unit 24) := by first | assumption | exact ⟨rfl⟩) (e_u26 : Lets (e.unit 26) := by first | assumption | exact ⟨rfl⟩) (e_u27 : Lets (e.unit 27) := by first | assumption | exact ⟨rfl⟩) (e_all : ∀ b, Lets (e.unit b) := by first | assumption | exact ⟨rfl⟩) : Calm e a (powerUp d) := by
  have k : ∀ (y : Device) (m : NMap (NMap Word)) (p : Pwr), Calm e a y → p.mode = .reset → Calm e a ({ y with regs := m }.setPwr p) := by
    intro y m p hy hp
    have h1 : Calm e a { y with regs := m } := hy.upd
    refine { h1 with mode := ?_, pow := .inl (by assumption), pwr := .inl (by assumption) }
    show p.mode = a.pwr.mode ∨ _ ∨ (_ ∧ Moves a.pwr.mode p.mode)
    rw [hp]
    by_cases hr : a.pwr.mode = .reset
    · exact .inl hr.symm
    · refine .inr (.inr ⟨by assumption, ?_⟩)
      revert hr
      cases a.pwr.mode <;> simp [Moves]
  unfold powerUp
  split
  · exact h
  · exact Device.pinsLow_calm (k _ _ _ (Device.fresh_calm h) rfl)
theorem Device.monSample_calm {e : Eff} {a : Device} {d : Device} {p1 : ℕ} {p2 : ℕ} (h : Calm e a d) (e_u1 : Lets (e.unit 1) := by first | assumption | exact ⟨rfl⟩) : Calm e a (Device.monSample d p1 p2) := by
  unfold Device.monSample
  extract_lets x6000 x6001 x6002 x6003 x6004 x6005 x6006 x6007
  clear_value x6000
  clear_value x6001
  clear_value x6002
  clear_value x6003
  clear_value x6004
  clear_value x6005
  have hx6007 : Calm e a x6007 := by
    unfold x6007
    unfold Device.setPwr
    refine Calm.upd_pwr ?_
    assumption
  clear_value x6007
  split
  · refine Device.count_calm ?_
    refine Device.raise_calm ?_
    assumption
  · assumption
theorem healthSample_calm {e : Eff} {a : Device} {p0 : List ℕ} {d : Device} (h : Calm e a d) (e_hold : Lets e.hold := by first | assumption | exact ⟨rfl⟩) (e_key : Lets e.key := by first | assumption | exact ⟨rfl⟩) (e_grp : Lets e.grp := by first | assumption | exact ⟨rfl⟩) (e_u1 : Lets (e.unit 1) := by first | assumption | exact ⟨rfl⟩) (e_u17 : Lets (e.unit 17) := by first | assumption | exact ⟨rfl⟩) (e_u22 : Lets (e.unit 22) := by first | assumption | exact ⟨rfl⟩) (e_u24 : Lets (e.unit 24) := by first | assumption | exact ⟨rfl⟩) : Calm e a (healthSample p0 d) := by
  unfold healthSample
  extract_lets x1 x2
  have hx1 : Calm e a x1 := by
    unfold x1
    apply calm_foldl
    · intro v3
      intro v4
      intro v5
      refine Device.monSample_calm ?_
      assumption
    · assumption
  clear_value x1
  clear_value x2
  split
  · refine Device.fatalError_calm ?_
    apply calm_foldl
    · intro v6
      intro v7
      intro v8
      refine Device.raise_calm ?_
      assumption
    · assumption
  · assumption
theorem snapRequest_calm {e : Eff} {a : Device} {d : Device} (h : Calm e a d) (e_u1 : Lets (e.unit 1) := by first | assumption | exact ⟨rfl⟩) : Calm e a (snapRequest d) := by
  unfold snapRequest
  split
  · unfold Device.setPwr
    refine Calm.upd_pwr ?_
    assumption
  · refine Device.pwrErr_calm ?_
    assumption
theorem snapReady_calm {e : Eff} {a : Device} {d : Device} (h : Calm e a d) (e_u1 : Lets (e.unit 1) := by first | assumption | exact ⟨rfl⟩) : Calm e a (snapReady d) := by
  unfold snapReady
  split
  · unfold Device.setPwr
    refine Calm.upd_pwr ?_
    assumption
  · assumption
theorem snapRelease_calm {e : Eff} {a : Device} {p0 : Word} {d : Device} (h : Calm e a d) (e_u1 : Lets (e.unit 1) := by first | assumption | exact ⟨rfl⟩) (e_u23 : Lets (e.unit 23) := by first | assumption | exact ⟨rfl⟩) : Calm e a (snapRelease p0 d) := by
  unfold snapRelease
  split
  · unfold Device.setPwr
    refine Calm.upd_pwr ?_
    assumption
  · refine Device.count_calm ?_
    assumption
/-! Radio. -/
theorem Device.setXcr_calm {e : Eff} {a : Device} {d : Device} {p1 : Xcr} (h : Calm e a d) (e_u27 : Lets (e.unit 27) := by first | assumption | exact ⟨rfl⟩) : Calm e a (Device.setXcr d p1) := by
  unfold Device.setXcr
  refine Calm.upd_xcr ?_
  assumption
theorem Device.xcrErr_calm {e : Eff} {a : Device} {d : Device} {p1 : ℕ} (h : Calm e a d) (e_u27 : Lets (e.unit 27) := by first | assumption | exact ⟨rfl⟩) : Calm e a (Device.xcrErr d p1) := by
  unfold Device.xcrErr
  refine Device.err_calm ?_
  assumption
theorem Device.airAdd_calm {e : Eff} {a : Device} {d : Device} {p1 : ℕ} {p2 : Time} {p3 : Time} (h : Calm e a d) (e_u27 : Lets (e.unit 27) := by first | assumption | exact ⟨rfl⟩) : Calm e a (Device.airAdd d p1 p2 p3) := by
  unfold Device.airAdd
  extract_lets x6000 x6001
  clear_value x6000
  clear_value x6001
  refine Device.setXcr_calm ?_
  assumption
theorem Device.defer_calm {e : Eff} {a : Device} {d : Device} {p1 : ℕ} (h : Calm e a d) (e_u27 : Lets (e.unit 27) := by first | assumption | exact ⟨rfl⟩) : Calm e a (Device.defer d p1) := by
  unfold Device.defer
  extract_lets x6000 x6001
  have hx6000 : Calm e a x6000 := by
    unfold x6000
    refine Device.raiseSec_calm ?_
    refine Device.count_calm ?_
    assumption
  clear_value x6000
  clear_value x6001
  refine Device.setXcr_calm ?_
  assumption
theorem Device.tune_calm {e : Eff} {a : Device} {d : Device} {p1 : ℕ} (h : Calm e a d) (e_u27 : Lets (e.unit 27) := by first | assumption | exact ⟨rfl⟩) : Calm e a (Device.tune d p1) := by
  unfold Device.tune
  split
  · assumption
  · refine Device.emit_calm ?_
    refine Device.setXcr_calm ?_
    assumption
theorem Device.onAir_calm {e : Eff} {a : Device} {d : Device} {p1 : ℕ} {p2 : List Byte} (h : Calm e a d) (e_u27 : Lets (e.unit 27) := by first | assumption | exact ⟨rfl⟩) : Calm e a (Device.onAir d p1 p2) := by
  unfold Device.onAir
  refine Device.emit_calm ?_
  refine Device.tune_calm ?_
  assumption
theorem Device.xmit_calm {e : Eff} {a : Device} {d : Device} {p1 : ℕ} {p2 : Time} {p3 : List Byte} (h : Calm e a d) (e_u27 : Lets (e.unit 27) := by first | assumption | exact ⟨rfl⟩) : Calm e a (Device.xmit d p1 p2 p3) := by
  unfold Device.xmit
  refine Device.onAir_calm ?_
  refine Device.count_calm ?_
  refine Device.airAdd_calm ?_
  assumption
theorem Device.nextSeq_calm {e : Eff} {a : Device} {d : Device} (h : Calm e a d) (e_u27 : Lets (e.unit 27) := by first | assumption | exact ⟨rfl⟩) : Calm e a (Device.nextSeq d).2 := by
  unfold Device.nextSeq
  dsimp only
  refine Device.setXcr_calm ?_
  assumption
theorem Device.beaconTry_calm {e : Eff} {a : Device} {d : Device} {p1 : ℕ} {p2 : Bool} (h : Calm e a d) (e_u27 : Lets (e.unit 27) := by first | assumption | exact ⟨rfl⟩) : Calm e a (Device.beaconTry d p1 p2) := by
  unfold Device.beaconTry
  extract_lets x6000 x6001 x6002 x6003 x6004 x6005 x6006 x6007
  clear_value x6000
  have hx6001 : Calm e a x6001.2 := by
    unfold x6001
    refine Device.nextSeq_calm ?_
    assumption
  clear_value x6001
  clear_value x6002
  clear_value x6003
  have hx6004 : Calm e a x6004 := by
    unfold x6004
    refine Device.count_calm ?_
    refine Device.xmit_calm ?_
    assumption
  clear_value x6004
  clear_value x6005
  have hx6006 : Calm e a x6006 := by
    unfold x6006
    split
    · refine Device.defer_calm ?_
      assumption
    · assumption
  clear_value x6006
  clear_value x6007
  split
  · refine Device.setXcr_calm ?_
    assumption
  · refine Device.setXcr_calm ?_
    assumption
theorem Device.beaconDrop_calm {e : Eff} {a : Device} {d : Device} {p1 : ℕ} (h : Calm e a d) (e_u27 : Lets (e.unit 27) := by first | assumption | exact ⟨rfl⟩) : Calm e a (Device.beaconDrop d p1) := by
  unfold Device.beaconDrop
  split
  · refine Device.count_calm ?_
    refine Device.setXcr_calm ?_
    assumption
  · assumption
theorem beaconInstant_calm {e : Eff} {a : Device} {d : Device} (h : Calm e a d) (e_u27 : Lets (e.unit 27) := by first | assumption | exact ⟨rfl⟩) : Calm e a (beaconInstant d) := by
  unfold beaconInstant
  extract_lets x6000 x6001 x6002 x6003
  clear_value x6000
  clear_value x6001
  have hx6002 : Calm e a x6002 := by
    unfold x6002
    split
    · refine Device.count_calm ?_
      refine Device.setXcr_calm ?_
      assumption
    · assumption
  clear_value x6002
  clear_value x6003
  split
  · assumption
  · refine Device.beaconTry_calm ?_
    refine Device.setXcr_calm ?_
    assumption
theorem Device.setSens_calm {e : Eff} {a : Device} {d : Device} {p1 : ℕ} {p2 : XSensor} (h : Calm e a d) (e_u27 : Lets (e.unit 27) := by first | assumption | exact ⟨rfl⟩) : Calm e a (Device.setSens d p1 p2) := by
  unfold Device.setSens
  refine Device.setXcr_calm ?_
  assumption
theorem Device.reqEnd_calm {e : Eff} {a : Device} {d : Device} {p1 : ℕ} (h : Calm e a d) (e_u27 : Lets (e.unit 27) := by first | assumption | exact ⟨rfl⟩) : Calm e a (Device.reqEnd d p1) := by
  unfold Device.reqEnd
  refine Device.setf_calm ?_
  refine Device.setf_calm ?_
  refine Device.setf_calm ?_
  refine Device.setXcr_calm ?_
  assumption
theorem Device.setReq_calm {e : Eff} {a : Device} {d : Device} {p1 : XReq} (h : Calm e a d) (e_u27 : Lets (e.unit 27) := by first | assumption | exact ⟨rfl⟩) : Calm e a (Device.setReq d p1) := by
  unfold Device.setReq
  refine Device.setXcr_calm ?_
  assumption
theorem Device.reqPlan_calm {e : Eff} {a : Device} {d : Device} {p1 : XReq} (h : Calm e a d) (e_u27 : Lets (e.unit 27) := by first | assumption | exact ⟨rfl⟩) : Calm e a (Device.reqPlan d p1) := by
  unfold Device.reqPlan
  split
  · split
    · refine Device.reqEnd_calm ?_
      assumption
    · refine Device.setReq_calm ?_
      assumption
  · refine Device.setReq_calm ?_
    assumption
theorem Device.reqSent_calm {e : Eff} {a : Device} {d : Device} {p1 : XReq} {p2 : Time} (h : Calm e a d) (e_u27 : Lets (e.unit 27) := by first | assumption | exact ⟨rfl⟩) : Calm e a (Device.reqSent d p1 p2) := by
  unfold Device.reqSent
  split
  · refine Device.setReq_calm ?_
    assumption
  · refine Device.reqEnd_calm ?_
    assumption
theorem Device.ccaFail_calm {e : Eff} {a : Device} {d : Device} (h : Calm e a d) (e_u27 : Lets (e.unit 27) := by first | assumption | exact ⟨rfl⟩) : Calm e a (Device.ccaFail d) := by
  unfold Device.ccaFail
  extract_lets x6000 x6001
  clear_value x6000
  have hx6001 : Calm e a x6001 := by
    unfold x6001
    refine Device.reqEnd_calm ?_
    refine Device.count_calm ?_
    assumption
  clear_value x6001
  refine Calm.upd_free ?_
  assumption
theorem Device.tuneBack_calm {e : Eff} {a : Device} {d : Device} (h : Calm e a d) (e_u27 : Lets (e.unit 27) := by first | assumption | exact ⟨rfl⟩) : Calm e a (Device.tuneBack d) := by
  unfold Device.tuneBack
  refine Device.tune_calm ?_
  assumption
theorem Device.guardedSend_calm {e : Eff} {a : Device} {d : Device} {p1 : ℕ} {p2 : Time} {p3 : Time} {p4 : List Byte} (h : Calm e a d) (e_u27 : Lets (e.unit 27) := by first | assumption | exact ⟨rfl⟩) : Calm e a (Device.guardedSend d p1 p2 p3 p4) := by
  unfold Device.guardedSend
  extract_lets x1
  clear_value x1
  refine Device.tuneBack_calm ?_
  refine Device.xmit_calm ?_
  refine Device.onAir_calm ?_
  refine Device.airAdd_calm ?_
  assumption
theorem txRequest_calm {e : Eff} {a : Device} {p0 : Word} {d : Device} (h : Calm e a d) (e_u27 : Lets (e.unit 27) := by first | assumption | exact ⟨rfl⟩) : Calm e a (txRequest p0 d) := by
  unfold txRequest
  extract_lets x6000 x6001 x6002 x6003 x6004 x6005 x6006 x6007
  clear_value x6000
  clear_value x6001
  clear_value x6002
  have hx6003 : Calm e a x6003.2 := by
    unfold x6003
    refine Device.nextSeq_calm ?_
    assumption
  clear_value x6003
  clear_value x6004
  have hx6005 : Calm e a x6005 := by
    unfold x6005
    refine Device.setf_calm ?_
    refine Device.setf_calm ?_
    assumption
  clear_value x6005
  clear_value x6006
  clear_value x6007
  split
  · refine Device.xcrErr_calm ?_
    assumption
  · split
    · refine Device.xcrErr_calm ?_
      assumption
    · split
      · refine Device.reqEnd_calm ?_
        assumption
      · split
        · refine Device.reqPlan_calm ?_
          assumption
        · split
          · refine Device.reqEnd_calm ?_
            assumption
          · refine Device.setReq_calm ?_
            assumption
theorem txCmdWrite_calm {e : Eff} {a : Device} {p0 : Word} {d : Device} (h : Calm e a d) (e_u27 : Lets (e.unit 27) := by first | assumption | exact ⟨rfl⟩) : Calm e a (txCmdWrite p0 d) := by
  unfold txCmdWrite
  split
  · refine Device.xcrErr_calm ?_
    assumption
  · extract_lets x5900
    have hx5900 : Calm e a x5900 := by
      unfold x5900
      refine Device.wr_calm ?_
      assumption
    clear_value x5900
    split
    · refine txRequest_calm ?_
      assumption
    · assumption
theorem Device.listenTry_calm {e : Eff} {a : Device} {d : Device} {p1 : XReq} {p2 : ℕ} {p3 : Time} {p4 : Time} {p5 : ℕ} {p6 : Device → Time → Device} {p7 : Device → Device} (gp6 : ∀ (y0 : Device) (y1 : Time), Sys2Proof.Machine.Calm e a y0 → Sys2Proof.Machine.Calm e a (p6 y0 y1)) (gp7 : ∀ (y0 : Device), Sys2Proof.Machine.Calm e a y0 → Sys2Proof.Machine.Calm e a (p7 y0)) (h : Calm e a d) (e_u27 : Lets (e.unit 27) := by first | assumption | exact ⟨rfl⟩) : Calm e a (Device.listenTry d p1 p2 p3 p4 p5 p6 p7) := by
  unfold Device.listenTry
  extract_lets x6000 x6001
  clear_value x6000
  clear_value x6001
  split
  · assumption
  · split
    · apply gp7
      assumption
    · split
      · apply gp7
        split
        · assumption
        · refine Device.defer_calm ?_
          assumption
      · split
        · refine Device.ccaFail_calm ?_
          assumption
        · apply gp6
          refine Device.guardedSend_calm ?_
          assumption
theorem listenSend_calm {e : Eff} {a : Device} {p0 : ℕ} {d : Device} (h : Calm e a d) (e_u27 : Lets (e.unit 27) := by first | assumption | exact ⟨rfl⟩) : Calm e a (listenSend p0 d) := by
  unfold listenSend
  split
  · assumption
  · split
    · assumption
    · split
      · split
        · refine Device.reqPlan_calm ?_
          assumption
        · refine Device.listenTry_calm ?_ ?_ ?_
          · intro v1
            intro v2
            intro v3
            refine Device.reqSent_calm ?_
            assumption
          · intro v4
            intro v5
            refine Device.reqPlan_calm ?_
            assumption
          · assumption
      · extract_lets x6 x7
        clear_value x6
        have hx7 : ∀ q0, Calm e a q0 → Calm e a (x7 q0) := by
          intro v8 v9
          unfold x7
          split
          · refine Device.reqEnd_calm ?_
            assumption
          · refine Device.setReq_calm ?_
            assumption
        clear_value x7
        refine Device.listenTry_calm ?_ ?_ ?_
        · intro v10
          intro v11
          intro v12
          refine hx7 _ ?_
          assumption
        · intro v13
          intro v14
          refine Device.setReq_calm ?_
          assumption
        · assumption
      · assumption
theorem Device.wakeFrames_calm {e : Eff} {a : Device} {d : Device} {p1 : ℕ} {p2 : ℕ} {p3 : Time} {p4 : ℕ} {p5 : Time} (h : Calm e a d) (e_u27 : Lets (e.unit 27) := by first | assumption | exact ⟨rfl⟩) : Calm e a (Device.wakeFrames d p1 p2 p3 p4 p5) := by
  induction p4 generalizing d p1 p2 p3 p5
  · unfold Device.wakeFrames
    assumption
  · rename_i n ih
    unfold Device.wakeFrames
    extract_lets x1 x2 x3
    have hx1 : Calm e a x1.2 := by
      unfold x1
      refine Device.nextSeq_calm ?_
      assumption
    clear_value x1
    clear_value x2
    clear_value x3
    apply ih
    refine Device.onAir_calm ?_
    refine Device.count_calm ?_
    assumption
theorem Device.wakePiece_calm {e : Eff} {a : Device} {d : Device} {p1 : Bool} {p2 : ℕ} {p3 : Time} {p4 : Time} (h : Calm e a d) (e_u27 : Lets (e.unit 27) := by first | assumption | exact ⟨rfl⟩) : Calm e a (Device.wakePiece d p1 p2 p3 p4) := by
  unfold Device.wakePiece
  extract_lets x1 x2 x3
  clear_value x1
  clear_value x2
  have hx3 : Calm e a x3 := by
    unfold x3
    refine Device.airAdd_calm ?_
    assumption
  clear_value x3
  split
  · refine Device.wakeFrames_calm ?_
    assumption
  · refine Device.onAir_calm ?_
    assumption
theorem Device.wakeData_calm {e : Eff} {a : Device} {d : Device} {p1 : XReq} {p2 : Time} (h : Calm e a d) (e_u27 : Lets (e.unit 27) := by first | assumption | exact ⟨rfl⟩) : Calm e a (Device.wakeData d p1 p2) := by
  unfold Device.wakeData
  extract_lets x1 x2
  clear_value x1
  clear_value x2
  split
  · refine Device.reqSent_calm ?_
    refine Device.tuneBack_calm ?_
    refine Device.xmit_calm ?_
    assumption
  · refine Device.tuneBack_calm ?_
    refine Device.setReq_calm ?_
    split
    · assumption
    · refine Device.defer_calm ?_
      assumption
theorem wakeSequence_calm {e : Eff} {a : Device} {p0 : ℕ} {d : Device} (h : Calm e a d) (e_u27 : Lets (e.unit 27) := by first | assumption | exact ⟨rfl⟩) : Calm e a (wakeSequence p0 d) := by
  unfold wakeSequence
  split
  · assumption
  · split
    · assumption
    · split
      · assumption
      · extract_lets x1 x2 x3 x4 x5 x6 x7
        clear_value x1
        clear_value x2
        clear_value x3
        clear_value x4
        clear_value x5
        clear_value x6
        have hx7 : Calm e a x7 := by
          unfold x7
          apply calm_foldl
          · intro v8
            intro v9
            intro v10
            refine Device.wakePiece_calm ?_
            assumption
          · assumption
        clear_value x7
        split
        · split
          · assumption
          · refine Device.setReq_calm ?_
            refine Device.defer_calm ?_
            assumption
        · split
          · assumption
          · split
            · refine Device.ccaFail_calm ?_
              assumption
            · refine Device.wakeData_calm ?_
              refine Device.count_calm ?_
              assumption
theorem xcrAckTimeout_calm {e : Eff} {a : Device} {d : Device} (h : Calm e a d) (e_u27 : Lets (e.unit 27) := by first | assumption | exact ⟨rfl⟩) : Calm e a (xcrAckTimeout d) := by
  unfold xcrAckTimeout
  split
  · assumption
  · split
    · split
      · assumption
      · split
        · refine Device.reqPlan_calm ?_
          refine Device.count_calm ?_
          assumption
        · refine Device.reqEnd_calm ?_
          assumption
    · assumption
theorem Device.ackTry_calm {e : Eff} {a : Device} {d : Device} {p1 : XAck} (h : Calm e a d) (e_u27 : Lets (e.unit 27) := by first | assumption | exact ⟨rfl⟩) : Calm e a (Device.ackTry d p1) := by
  unfold Device.ackTry
  extract_lets x6000 x6001 x6002 x6003 x6004 x6005
  clear_value x6000
  clear_value x6001
  clear_value x6002
  clear_value x6003
  have hx6004 : Calm e a x6004 := by
    unfold x6004
    split
    · assumption
    · refine Device.defer_calm ?_
      assumption
  clear_value x6004
  clear_value x6005
  split
  · refine Device.setXcr_calm ?_
    assumption
  · split
    · refine Device.xmit_calm ?_
      refine Device.setXcr_calm ?_
      assumption
    · refine Device.setXcr_calm ?_
      assumption
theorem xcrAckSend_calm {e : Eff} {a : Device} {d : Device} (h : Calm e a d) (e_u27 : Lets (e.unit 27) := by first | assumption | exact ⟨rfl⟩) : Calm e a (xcrAckSend d) := by
  unfold xcrAckSend
  split
  · assumption
  · split
    · refine Device.ackTry_calm ?_
      assumption
    · assumption
theorem deferredSend_calm {e : Eff} {a : Device} {p0 : ℕ} {d : Device} (h : Calm e a d) (e_u27 : Lets (e.unit 27) := by first | assumption | exact ⟨rfl⟩) : Calm e a (deferredSend p0 d) := by
  unfold deferredSend
  split
  · assumption
  · split
    · extract_lets x1
      have hx1 : Calm e a x1 := by
        unfold x1
        refine Device.beaconDrop_calm ?_
        assumption
      clear_value x1
      split
      · assumption
      · refine Device.beaconTry_calm ?_
        assumption
    · refine Device.ackTry_calm ?_
      assumption
    · split
      · assumption
      · split
        · refine wakeSequence_calm ?_
          assumption
        · refine listenSend_calm ?_
          assumption
        · refine listenSend_calm ?_
          assumption
        · split
          · assumption
          · split
            · refine Device.ccaFail_calm ?_
              assumption
            · refine Device.wakeData_calm ?_
              assumption
        · assumption
    · assumption
theorem Device.rxqPush_calm {e : Eff} {a : Device} {d : Device} {p1 : List Word} (h : Calm e a d) (e_u27 : Lets (e.unit 27) := by first | assumption | exact ⟨rfl⟩) : Calm e a (Device.rxqPush d p1) := by
  unfold Device.rxqPush
  split
  · extract_lets x5900 x5901
    have hx5900 : Calm e a x5900 := by
      unfold x5900
      refine Device.count_calm ?_
      assumption
    clear_value x5900
    clear_value x5901
    split
    · assumption
    · refine Device.raise_calm ?_
      refine Device.setXcr_calm ?_
      assumption
  · refine Device.hwm_calm ?_
    refine Device.setXcr_calm ?_
    assumption
theorem Device.ackOwe_calm {e : Eff} {a : Device} {d : Device} {p1 : Bool} {p2 : ℕ} {p3 : ℕ} (h : Calm e a d) (e_u27 : Lets (e.unit 27) := by first | assumption | exact ⟨rfl⟩) : Calm e a (Device.ackOwe d p1 p2 p3) := by
  unfold Device.ackOwe
  split
  · refine Device.setXcr_calm ?_
    assumption
  · assumption
theorem Device.replan_calm {e : Eff} {a : Device} {d : Device} {p1 : ℕ} (h : Calm e a d) (e_u27 : Lets (e.unit 27) := by first | assumption | exact ⟨rfl⟩) : Calm e a (Device.replan d p1) := by
  unfold Device.replan
  split
  · assumption
  · split
    · assumption
    · split
      · refine Device.reqPlan_calm ?_
        assumption
      · refine Device.reqPlan_calm ?_
        assumption
      · assumption
theorem Device.sensHeard_calm {e : Eff} {a : Device} {d : Device} {p1 : ℕ} {p2 : ℕ} {p3 : Time} (h : Calm e a d) (e_u27 : Lets (e.unit 27) := by first | assumption | exact ⟨rfl⟩) : Calm e a (Device.sensHeard d p1 p2 p3) := by
  unfold Device.sensHeard
  extract_lets x1 x2
  clear_value x1
  have hx2 : Calm e a x2 := by
    unfold x2
    refine Device.wr_calm ?_
    refine Device.setSens_calm ?_
    assumption
  clear_value x2
  split
  · assumption
  · refine Device.replan_calm ?_
    refine Device.raise_calm ?_
    assumption
theorem Device.ackHeard_calm {e : Eff} {a : Device} {d : Device} {p1 : ℕ} {p2 : ℕ} (h : Calm e a d) (e_u27 : Lets (e.unit 27) := by first | assumption | exact ⟨rfl⟩) : Calm e a (Device.ackHeard d p1 p2) := by
  unfold Device.ackHeard
  split
  · split
    · split
      · refine Device.reqEnd_calm ?_
        assumption
      · assumption
    · assumption
  · assumption
theorem Device.xcrAccept_calm {e : Eff} {a : Device} {d : Device} {p1 : List Byte} {p2 : ℕ} {p3 : Time} (h : Calm e a d) (e_u27 : Lets (e.unit 27) := by first | assumption | exact ⟨rfl⟩) : Calm e a (Device.xcrAccept d p1 p2 p3) := by
  unfold Device.xcrAccept
  extract_lets x6000 x6001 x6002 x6003 x6004 x6005 x6006 x6007 x6008 x6009 x6010
  clear_value x6001
  clear_value x6002
  clear_value x6003
  clear_value x6004
  clear_value x6005
  clear_value x6006
  clear_value x6007
  clear_value x6008
  have hx6009 : Calm e a x6009 := by
    unfold x6009
    refine Device.ackOwe_calm ?_
    refine Device.sensHeard_calm ?_
    refine Device.count_calm ?_
    assumption
  clear_value x6009
  have hx6010 : Calm e a x6010 := by
    unfold x6010
    split
    · refine Device.ackHeard_calm ?_
      assumption
    · assumption
  clear_value x6010
  split
  · refine Device.count_calm ?_
    assumption
  · split
    · refine Device.ackOwe_calm ?_
      refine Device.count_calm ?_
      assumption
    · split
      · refine Device.rxqPush_calm ?_
        assumption
      · assumption
theorem xcrFrameReceived_calm {e : Eff} {a : Device} {p0 : ℕ} {p1 : List Byte} {d : Device} (h : Calm e a d) (e_u27 : Lets (e.unit 27) := by first | assumption | exact ⟨rfl⟩) : Calm e a (xcrFrameReceived p0 p1 d) := by
  unfold xcrFrameReceived
  split
  · assumption
  · split
    · refine Device.count_calm ?_
      assumption
    · extract_lets x5800 x5801 x5802
      clear_value x5800
      clear_value x5801
      clear_value x5802
      split
      · refine Device.count_calm ?_
        assumption
      · split
        · refine Device.count_calm ?_
          assumption
        · refine Device.xcrAccept_calm ?_
          assumption
theorem rxqPop_calm {e : Eff} {a : Device} {d : Device} (h : Calm e a d) (e_u27 : Lets (e.unit 27) := by first | assumption | exact ⟨rfl⟩) : Calm e a (rxqPop d) := by
  unfold rxqPop
  extract_lets x6000 x6001
  clear_value x6000
  clear_value x6001
  refine Device.setXcr_calm ?_
  assumption
theorem checkinMissed_calm {e : Eff} {a : Device} {p0 : ℕ} {d : Device} (h : Calm e a d) (e_u27 : Lets (e.unit 27) := by first | assumption | exact ⟨rfl⟩) : Calm e a (checkinMissed p0 d) := by
  unfold checkinMissed
  extract_lets x1 x2
  split
  · assumption
  · split
    · refine Device.replan_calm ?_
      refine Device.sensLost_calm ?_
      refine Device.setSens_calm ?_
      assumption
    · refine Device.setSens_calm ?_
      assumption
theorem xcvrReadback_calm {e : Eff} {a : Device} {p0 : Bool} {d : Device} (h : Calm e a d) (e_u27 : Lets (e.unit 27) := by first | assumption | exact ⟨rfl⟩) : Calm e a (xcvrReadback p0 d) := by
  unfold xcvrReadback
  split
  · assumption
  · refine Device.raise_calm ?_
    refine Device.setf_calm ?_
    assumption
theorem xcrCfgWrite_calm {e : Eff} {a : Device} {p0 : RegDef} {p1 : ℕ} {p2 : Word} {p3 : Word} {d : Device} (h : Calm e a d)
    (m_p0 : e.may (p0.base / 65536) := by first | assumption | exact Or.inl (by assumption) | exact Or.inr rfl | exact Or.inl ⟨rfl⟩ | (split <;> exact Or.inl (by assumption)) | exact Or.inl (‹∀ b, Lets (e.unit b)› _)) (e_u27 : Lets (e.unit 27) := by first | assumption | exact ⟨rfl⟩) : Calm e a (xcrCfgWrite p0 p1 p2 p3 d) := by
  unfold xcrCfgWrite
  split
  · refine Device.xcrErr_calm ?_
    assumption
  · refine Device.setXcr_calm ?_
    refine Device.wr_calm ?_
    assumption
theorem sensCfgWrite_calm {e : Eff} {a : Device} {p0 : Word} {d : Device} (h : Calm e a d) (e_u27 : Lets (e.unit 27) := by first | assumption | exact ⟨rfl⟩) : Calm e a (sensCfgWrite p0 d) := by
  unfold sensCfgWrite
  extract_lets x1 x2 x3 x4
  clear_value x1
  clear_value x2
  have hx3 : Calm e a x3 := by
    unfold x3
    refine Device.setXcr_calm ?_
    refine Device.setf_calm ?_
    assumption
  clear_value x3
  have hx4 : Calm e a x4 := by
    unfold x4
    refine Device.wr_calm ?_
    assumption
  clear_value x4
  split
  · split
    · refine Device.xcrErr_calm ?_
      assumption
    · split
      · split
        · refine Device.reqEnd_calm ?_
          assumption
        · assumption
      · assumption
  · split
    · refine Device.sensLost_calm ?_
      refine Device.setSens_calm ?_
      assumption
    · assumption
/-! Memory. -/
theorem Device.sampleKill_calm {e : Eff} {a : Device} {d : Device} {p1 : ℕ} (h : Calm e a d) (e_u4 : Lets (e.unit 4) := by first | assumption | exact ⟨rfl⟩) : Calm e a (Device.sampleKill d p1) := by
  unfold Device.sampleKill
  extract_lets x6000 x6001
  clear_value x6001
  refine Calm.upd_ing ?_
  assumption
theorem Device.packetMark_calm {e : Eff} {a : Device} {d : Device} {p1 : ℕ} {p2 : ℕ} (h : Calm e a d) (e_u23 : Lets (e.unit 23) := by first | assumption | exact ⟨rfl⟩) : Calm e a (Device.packetMark d p1 p2) := by
  unfold Device.packetMark
  split
  · refine Device.setSf_calm ?_
    assumption
  · assumption
theorem Device.plant_calm {e : Eff} {a : Device} {d : Device} {p1 : ℕ} {p2 : ℕ} {p3 : ℕ} {p4 : Bool} (h : Calm e a d) (e_u4 : Lets (e.unit 4) := by first | assumption | exact ⟨rfl⟩) (e_u23 : Lets (e.unit 23) := by first | assumption | exact ⟨rfl⟩) (e_u26 : Lets (e.unit 26) := by first | assumption | exact ⟨rfl⟩) : Calm e a (Device.plant d p1 p2 p3 p4) := by
  unfold Device.plant
  split
  · extract_lets x1
    have hx1 : Calm e a x1 := by
      unfold x1
      refine Device.memMark_calm ?_
      assumption
    clear_value x1
    split
    · refine Device.sampleKill_calm ?_
      assumption
    · assumption
  · refine Device.packetMark_calm ?_
    assumption
  · refine Device.memMark_calm ?_
    assumption
theorem Device.injectAt_calm {e : Eff} {a : Device} {d : Device} {p1 : ℕ} {p2 : ℕ} {p3 : ℕ} {p4 : Bool} (h : Calm e a d) (e_hold : Lets e.hold := by first | assumption | exact ⟨rfl⟩) (e_key : Lets e.key := by first | assumption | exact ⟨rfl⟩) (e_grp : Lets e.grp := by first | assumption | exact ⟨rfl⟩) (e_u1 : Lets (e.unit 1) := by first | assumption | exact ⟨rfl⟩) (e_u4 : Lets (e.unit 4) := by first | assumption | exact ⟨rfl⟩) (e_u10 : Lets (e.unit 10) := by first | assumption | exact ⟨rfl⟩) (e_u17 : Lets (e.unit 17) := by first | assumption | exact ⟨rfl⟩) (e_u22 : Lets (e.unit 22) := by first | assumption | exact ⟨rfl⟩) (e_u23 : Lets (e.unit 23) := by first | assumption | exact ⟨rfl⟩) (e_u24 : Lets (e.unit 24) := by first | assumption | exact ⟨rfl⟩) (e_u26 : Lets (e.unit 26) := by first | assumption | exact ⟨rfl⟩) : Calm e a (Device.injectAt d p1 p2 p3 p4) := by
  unfold Device.injectAt
  split
  · assumption
  · split
    · refine Device.memFatal_calm ?_
      refine Device.memUe_calm ?_
      refine Device.plant_calm ?_
      assumption
    · refine Device.plant_calm ?_
      assumption
theorem Device.preCommit_calm {e : Eff} {a : Device} {d : Device} {p1 : ℕ} (h : Calm e a d) (e_dd : Lets e.dd := by first | assumption | exact ⟨rfl⟩) (e_jnl : Lets e.jnl := by first | assumption | exact ⟨rfl⟩) (e_u8 : Lets (e.unit 8) := by first | assumption | exact ⟨rfl⟩) (e_u10 : Lets (e.unit 10) := by first | assumption | exact ⟨rfl⟩) (e_u12 : Lets (e.unit 12) := by first | assumption | exact ⟨rfl⟩) (e_u14 : Lets (e.unit 14) := by first | assumption | exact ⟨rfl⟩) (e_u16 : Lets (e.unit 16) := by first | assumption | exact ⟨rfl⟩) (e_u17 : Lets (e.unit 17) := by first | assumption | exact ⟨rfl⟩) (e_u20 : Lets (e.unit 20) := by first | assumption | exact ⟨rfl⟩) (e_u23 : Lets (e.unit 23) := by first | assumption | exact ⟨rfl⟩) (e_u24 : Lets (e.unit 24) := by first | assumption | exact ⟨rfl⟩) (e_u26 : Lets (e.unit 26) := by first | assumption | exact ⟨rfl⟩) : Calm e a (Device.preCommit d p1) := by
  unfold Device.preCommit
  split
  · assumption
  · extract_lets x1 x2
    clear_value x1
    clear_value x2
    split
    · apply calm_foldl
      · intro v3
        intro v4
        intro v5
        refine Device.memRead_calm ?_
        assumption
      · assumption
    · split
      · refine Device.osmHit_calm ?_
        apply calm_foldl
        · intro v6
          intro v7
          intro v8
          refine Device.memRead_calm ?_
          assumption
        · assumption
      · assumption
theorem Device.preAlarm_calm {e : Eff} {a : Device} {d : Device} (h : Calm e a d) (e_u10 : Lets (e.unit 10) := by first | assumption | exact ⟨rfl⟩) (e_u16 : Lets (e.unit 16) := by first | assumption | exact ⟨rfl⟩) (e_u23 : Lets (e.unit 23) := by first | assumption | exact ⟨rfl⟩) (e_u26 : Lets (e.unit 26) := by first | assumption | exact ⟨rfl⟩) : Calm e a (Device.preAlarm d) := by
  unfold Device.preAlarm
  split
  · assumption
  · extract_lets x1 x2 x3 x4 x5 x6 x7
    clear_value x1
    clear_value x2
    have hx3 : Calm e a x3 := by
      unfold x3
      apply calm_foldl
      · intro v8
        intro v9
        intro v10
        refine Device.memRead_calm ?_
        assumption
      · assumption
    clear_value x3
    have hx4 : ∀ q0 q1, Calm e a q0 → Calm e a (x4 q0 q1) := by
      intro v11 v12 v13
      unfold x4
      split
      · refine Device.almDrop_calm ?_
        assumption
      · extract_lets x14 x15
        have hx14 : Calm e a x14 := by
          unfold x14
          refine Device.almLoss_calm ?_
          assumption
        clear_value x14
        clear_value x15
        refine Device.setAlm_calm ?_
        assumption
    clear_value x4
    clear_value x5
    have hx6 : Calm e a x6 := by
      unfold x6
      apply calm_foldl
      · intro v16
        intro v17
        intro v18
        refine hx4 _ _ ?_
        assumption
      · refine Device.setAlm_calm ?_
        assumption
    clear_value x6
    clear_value x7
    split
    · assumption
    · refine Device.almLevel_calm ?_
      refine Device.almLoss_calm ?_
      refine Device.setAlm_calm ?_
      assumption
theorem Device.preInterval_calm {e : Eff} {a : Device} {d : Device} (h : Calm e a d) (e_u10 : Lets (e.unit 10) := by first | assumption | exact ⟨rfl⟩) (e_u20 : Lets (e.unit 20) := by first | assumption | exact ⟨rfl⟩) (e_u26 : Lets (e.unit 26) := by first | assumption | exact ⟨rfl⟩) : Calm e a (Device.preInterval d) := by
  unfold Device.preInterval
  split
  · assumption
  · extract_lets x1 x2 x3
    clear_value x1
    have hx2 : Calm e a x2 := by
      unfold x2
      apply calm_foldl
      · intro v4
        intro v5
        intro v6
        refine Device.memRead_calm ?_
        assumption
      · assumption
    clear_value x2
    clear_value x3
    apply calm_foldl
    · intro v7
      intro v8
      intro v9
      refine Device.ivDrop_calm ?_
      assumption
    · refine Device.setNrg_calm ?_
      assumption
theorem Device.preTableRead_calm {e : Eff} {a : Device} {d : Device} {p1 : ℕ} (h : Calm e a d) (e_hold : Lets e.hold := by first | assumption | exact ⟨rfl⟩) (e_key : Lets e.key := by first | assumption | exact ⟨rfl⟩) (e_grp : Lets e.grp := by first | assumption | exact ⟨rfl⟩) (e_u1 : Lets (e.unit 1) := by first | assumption | exact ⟨rfl⟩) (e_u10 : Lets (e.unit 10) := by first | assumption | exact ⟨rfl⟩) (e_u17 : Lets (e.unit 17) := by first | assumption | exact ⟨rfl⟩) (e_u22 : Lets (e.unit 22) := by first | assumption | exact ⟨rfl⟩) (e_u24 : Lets (e.unit 24) := by first | assumption | exact ⟨rfl⟩) (e_u26 : Lets (e.unit 26) := by first | assumption | exact ⟨rfl⟩) : Calm e a (Device.preTableRead d p1) := by
  unfold Device.preTableRead
  split
  · assumption
  · split
    · assumption
    · extract_lets x1 x2 x3 x4 x5 x6
      clear_value x1
      clear_value x2
      clear_value x3
      clear_value x4
      clear_value x5
      have hx6 : Calm e a x6 := by
        unfold x6
        apply calm_foldl
        · intro v7
          intro v8
          intro v9
          refine Device.memRead_calm ?_
          assumption
        · assumption
      clear_value x6
      split
      · refine Device.memFatal_calm ?_
        refine Device.memRead_calm ?_
        assumption
      · assumption
theorem capBurst_calm {e : Eff} {a : Device} {p0 : ℕ} {d : Device} (h : Calm e a d) (e_dd : Lets e.dd := by first | assumption | exact ⟨rfl⟩) : Calm e a (capBurst p0 d) := by
  unfold capBurst
  apply calm_foldl
  · intro v1
    intro v2
    intro v3
    apply calm_foldl
    · intro v4
      intro v5
      intro v6
      split
      · refine Device.ddrWrite_calm ?_
        refine Device.ddrWrite_calm ?_
        assumption
      · assumption
    · assumption
  · assumption
theorem scrubRead_calm {e : Eff} {a : Device} {p0 : ℕ} {p1 : ℕ} {p2 : Word} {p3 : ℕ} {p4 : ℕ} {d : Device} (h : Calm e a d) (e_dd : Lets e.dd := by first | assumption | exact ⟨rfl⟩) (e_jnl : Lets e.jnl := by first | assumption | exact ⟨rfl⟩) (e_u4 : Lets (e.unit 4) := by first | assumption | exact ⟨rfl⟩) (e_u8 : Lets (e.unit 8) := by first | assumption | exact ⟨rfl⟩) (e_u10 : Lets (e.unit 10) := by first | assumption | exact ⟨rfl⟩) (e_u12 : Lets (e.unit 12) := by first | assumption | exact ⟨rfl⟩) (e_u14 : Lets (e.unit 14) := by first | assumption | exact ⟨rfl⟩) (e_u16 : Lets (e.unit 16) := by first | assumption | exact ⟨rfl⟩) (e_u17 : Lets (e.unit 17) := by first | assumption | exact ⟨rfl⟩) (e_u20 : Lets (e.unit 20) := by first | assumption | exact ⟨rfl⟩) (e_u23 : Lets (e.unit 23) := by first | assumption | exact ⟨rfl⟩) (e_u24 : Lets (e.unit 24) := by first | assumption | exact ⟨rfl⟩) (e_u26 : Lets (e.unit 26) := by first | assumption | exact ⟨rfl⟩) : Calm e a (scrubRead p0 p1 p2 p3 p4 d) := by
  unfold scrubRead
  split
  · assumption
  · extract_lets x1 x2 x3 x4 x5
    clear_value x1
    have hx2 : Calm e a x2 := by
      unfold x2
      refine Device.setMem_calm ?_
      assumption
    clear_value x2
    clear_value x3
    clear_value x4
    have hx5 : Calm e a x5 := by
      unfold x5
      refine Device.memMark_calm ?_
      refine Device.burstUe_calm ?_
      assumption
    clear_value x5
    split
    · assumption
    · split
      · refine Device.memCe_calm ?_
        refine Device.memClean_calm ?_
        assumption
      · split
        · refine Device.plant_calm ?_
          refine Device.memUe_calm ?_
          assumption
        · split
          · refine Device.osmHit_calm ?_
            assumption
          · refine capBurst_calm ?_
            assumption
theorem scrubPeriodEnd_calm {e : Eff} {a : Device} {p0 : Bool} {p1 : ℕ} {d : Device} (h : Calm e a d) (e_u26 : Lets (e.unit 26) := by first | assumption | exact ⟨rfl⟩) : Calm e a (scrubPeriodEnd p0 p1 d) := by
  unfold scrubPeriodEnd
  split
  · assumption
  · extract_lets x1 x2
    clear_value x1
    have hx2 : Calm e a x2 := by
      unfold x2
      refine Device.setMem_calm ?_
      assumption
    clear_value x2
    split
    · refine Device.count_calm ?_
      assumption
    · refine Device.raise_calm ?_
      refine Device.count_calm ?_
      assumption
theorem mergeTimeout_calm {e : Eff} {a : Device} {p0 : Bool} {d : Device} (h : Calm e a d) (e_u10 : Lets (e.unit 10) := by first | assumption | exact ⟨rfl⟩) (e_u26 : Lets (e.unit 26) := by first | assumption | exact ⟨rfl⟩) : Calm e a (mergeTimeout p0 d) := by
  unfold mergeTimeout
  split
  · assumption
  · split
    · assumption
    · extract_lets x5800 x5801
      have hx5800 : Calm e a x5800 := by
        unfold x5800
        refine Device.mergeFlush_calm ?_
        assumption
      clear_value x5800
      clear_value x5801
      split
      · refine Device.memMark_calm ?_
        refine Device.memUe_calm ?_
        assumption
      · assumption
theorem memInjWrite_calm {e : Eff} {a : Device} {p0 : Word} {d : Device} (h : Calm e a d) (e_u26 : Lets (e.unit 26) := by first | assumption | exact ⟨rfl⟩) : Calm e a (memInjWrite p0 d) := by
  unfold memInjWrite
  extract_lets x6000
  clear_value x6000
  refine Device.wr_calm ?_
  assumption
theorem memGrpClear_calm {e : Eff} {a : Device} {p0 : Word} {d : Device} (h : Calm e a d) (e_u10 : Lets (e.unit 10) := by first | assumption | exact ⟨rfl⟩) (e_u26 : Lets (e.unit 26) := by first | assumption | exact ⟨rfl⟩) : Calm e a (memGrpClear p0 d) := by
  unfold memGrpClear
  extract_lets x6000 x6001 x6002
  clear_value x6000
  clear_value x6001
  have hx6002 : Calm e a x6002 := by
    unfold x6002
    refine Device.setMem_calm ?_
    assumption
  clear_value x6002
  split
  · assumption
  · split
    · refine Device.err_calm ?_
      assumption
    · refine Device.clusterRefresh_calm ?_
      refine Device.wr_calm ?_
      assumption
/-! Registers. -/
theorem Calm.upd_lastRead {e : Eff} {a d : Device} {x : Word} (h : Calm e a d) (hr : Lets e.rd := by first | assumption | exact ⟨rfl⟩) : Calm e a { d with lastRead := x } := h.upd
theorem Calm.upd_readHi {e : Eff} {a d : Device} {x : Word} (h : Calm e a d) : Calm e a { d with readHi := x } := h.upd
theorem Device.bar0Refuse_calm {e : Eff} {a : Device} {d : Device} {p1 : Bool} (h : Calm e a d) (e_rd : Lets e.rd := by first | assumption | exact ⟨rfl⟩) (e_u23 : Lets (e.unit 23) := by first | assumption | exact ⟨rfl⟩) : Calm e a (Device.bar0Refuse d p1) := by
  unfold Device.bar0Refuse
  extract_lets x1
  have hx1 : Calm e a x1 := by
    unfold x1
    refine Device.count_calm ?_
    assumption
  clear_value x1
  split
  · assumption
  · refine Calm.upd_lastRead ?_
    assumption
theorem octetsLatch_calm {e : Eff} {a : Device} {p0 : ℕ} {d : Device} (h : Calm e a d) (e_rd : Lets e.rd := by first | assumption | exact ⟨rfl⟩) (e_u4 : Lets (e.unit 4) := by first | assumption | exact ⟨rfl⟩) : Calm e a (octetsLatch p0 d) := by
  unfold octetsLatch
  extract_lets x6000 x6001
  clear_value x6000
  have hx6001 : Calm e a x6001 := by
    unfold x6001
    refine Device.setPrx_calm ?_
    assumption
  clear_value x6001
  refine Calm.upd (d := x6001) ?_
  assumption
theorem counterLoRead_calm {e : Eff} {a : Device} {p0 : ℕ} {d : Device} (h : Calm e a d) (e_rd : Lets e.rd := by first | assumption | exact ⟨rfl⟩) (e_u4 : Lets (e.unit 4) := by first | assumption | exact ⟨rfl⟩) : Calm e a (counterLoRead p0 d) := by
  unfold counterLoRead
  refine octetsLatch_calm ?_
  assumption
theorem Device.rcClear_calm {e : Eff} {a : Device} {d : Device} {p1 : RegDef} {p2 : ℕ} (h : Calm e a d)
    (m_p1 : e.may (p1.base / 65536) := by first | assumption | exact Or.inl (by assumption) | exact Or.inr rfl | exact Or.inl ⟨rfl⟩ | (split <;> exact Or.inl (by assumption)) | exact Or.inl (‹∀ b, Lets (e.unit b)› _)) (e_u8 : Lets (e.unit 8) := by first | assumption | exact ⟨rfl⟩) : Calm e a (Device.rcClear d p1 p2) := by
  unfold Device.rcClear
  split
  · split
    · refine Device.setRun_calm ?_
      assumption
    · assumption
  · split
    · refine Device.wr_calm ?_
      assumption
    · assumption
theorem Device.hiLatch_calm {e : Eff} {a : Device} {d : Device} {p1 : ℕ} (h : Calm e a d) (e_u14 : Lets (e.unit 14) := by first | assumption | exact ⟨rfl⟩) (e_u15 : Lets (e.unit 15) := by first | assumption | exact ⟨rfl⟩) : Calm e a (Device.hiLatch d p1) := by
  unfold Device.hiLatch
  split
  · refine Device.setOsm_calm ?_
    assumption
  · refine Device.setOsm_calm ?_
    assumption
  · refine Device.setIsl_calm ?_
    assumption
  · refine Device.setIsl_calm ?_
    assumption
  · assumption
theorem busRead_calm {e : Eff} {a : Device} {p0 : ℕ} {d : Device} (h : Calm e a d) (e_rd : Lets e.rd := by first | assumption | exact ⟨rfl⟩) (e_u2 : Lets (e.unit 2) := by first | assumption | exact ⟨rfl⟩) (e_u4 : Lets (e.unit 4) := by first | assumption | exact ⟨rfl⟩) (e_u8 : Lets (e.unit 8) := by first | assumption | exact ⟨rfl⟩) (e_u23 : Lets (e.unit 23) := by first | assumption | exact ⟨rfl⟩) (e_all : ∀ b, Lets (e.unit b) := by first | assumption | exact ⟨rfl⟩) : Calm e a (busRead p0 d) := by
  unfold busRead
  split
  · refine Device.bar0Refuse_calm ?_
    assumption
  · split
    · refine octetsLatch_calm ?_
      assumption
    · split
      · refine Calm.upd (d := d) ?_
        assumption
      · extract_lets n
        have e2 := e_all 14
        have e3 := e_all 15
        split
        · exact tkNowRead_calm h
        · exact txtsIdRead_calm h
        · exact Calm.upd (Device.hiLatch_calm (Device.rcClear_calm h))
theorem busReadPair_calm {e : Eff} {a : Device} {p0 : ℕ} {d : Device} (h : Calm e a d) (e_rd : Lets e.rd := by first | assumption | exact ⟨rfl⟩) (e_u2 : Lets (e.unit 2) := by first | assumption | exact ⟨rfl⟩) (e_u4 : Lets (e.unit 4) := by first | assumption | exact ⟨rfl⟩) (e_u8 : Lets (e.unit 8) := by first | assumption | exact ⟨rfl⟩) (e_u23 : Lets (e.unit 23) := by first | assumption | exact ⟨rfl⟩) (e_all : ∀ b, Lets (e.unit b) := by first | assumption | exact ⟨rfl⟩) : Calm e a (busReadPair p0 d) := by
  have hx := busRead_calm (p0 := p0 + 4) (busRead_calm (p0 := p0) h e_rd e_u2 e_u4 e_u8 e_u23 e_all) e_rd e_u2 e_u4 e_u8 e_u23 e_all
  unfold busReadPair
  extract_lets x1 x2
  have hy : Calm e a x2 := hx
  clear_value x2 x1
  exact hy.upd
theorem bar0Bad_calm {e : Eff} {a : Device} {p0 : Bool} {p1 p2 : ℕ} {d : Device} (h : Calm e a d) (e_rd : Lets e.rd := by first | assumption | exact ⟨rfl⟩) (e_u2 : Lets (e.unit 2) := by first | assumption | exact ⟨rfl⟩) (e_u4 : Lets (e.unit 4) := by first | assumption | exact ⟨rfl⟩) (e_u8 : Lets (e.unit 8) := by first | assumption | exact ⟨rfl⟩) (e_u23 : Lets (e.unit 23) := by first | assumption | exact ⟨rfl⟩) (e_all : ∀ b, Lets (e.unit b) := by first | assumption | exact ⟨rfl⟩) : Calm e a (bar0Bad p0 p1 p2 d) := by
  unfold bar0Bad
  split
  · exact busReadPair_calm h
  split
  · exact Device.bar0Refuse_calm h
  · exact h
theorem Device.plainWrite_calm {e : Eff} {a : Device} {d : Device} {p1 : RegDef} {p2 : ℕ} {p3 : Word} (h : Calm e a d)
    (m_p1 : e.may (p1.base / 65536) := by first | assumption | exact Or.inl (by assumption) | exact Or.inr rfl | exact Or.inl ⟨rfl⟩ | (split <;> exact Or.inl (by assumption)) | exact Or.inl (‹∀ b, Lets (e.unit b)› _)) : Calm e a (Device.plainWrite d p1 p2 p3) := by
  unfold Device.plainWrite
  refine Device.wr_calm ?_
  assumption
theorem attestRelease_calm {e : Eff} {a : Device} {p0 : Word} {d : Device} (h : Calm e a d) (e_u23 : Lets (e.unit 23) := by first | assumption | exact ⟨rfl⟩) (e_u24 : Lets (e.unit 24) := by first | assumption | exact ⟨rfl⟩) : Calm e a (attestRelease p0 d) := by
  unfold attestRelease
  split
  · unfold Device.setKey
    refine Calm.upd_key ?_
    assumption
  · refine Device.count_calm ?_
    assumption
theorem rxlDevWrite_calm {e : Eff} {a : Device} {p0 : Word} {d : Device} (h : Calm e a d) (e_u21 : Lets (e.unit 21) := by first | assumption | exact ⟨rfl⟩) : Calm e a (rxlDevWrite p0 d) := by
  unfold rxlDevWrite
  split
  · refine Device.err_calm ?_
    assumption
  · refine Device.wr_calm ?_
    assumption
theorem rxlSelWrite_calm {e : Eff} {a : Device} {p0 : Word} {d : Device} (h : Calm e a d) (e_u21 : Lets (e.unit 21) := by first | assumption | exact ⟨rfl⟩) : Calm e a (rxlSelWrite p0 d) := by
  unfold rxlSelWrite
  split
  · refine Device.err_calm ?_
    assumption
  · refine Device.wr_calm ?_
    assumption
theorem tkIncIntWrite_calm {e : Eff} {a : Device} {p0 : Word} {d : Device} (h : Calm e a d) (e_u2 : Lets (e.unit 2) := by first | assumption | exact ⟨rfl⟩) : Calm e a (tkIncIntWrite p0 d) := by
  unfold tkIncIntWrite
  unfold Device.setTk
  refine Calm.upd_tk ?_
  refine Device.wr_calm ?_
  assumption
theorem jnlCtlWrite_calm {e : Eff} {a : Device} {p0 : Word} {d : Device} (h : Calm e a d) (e_jnl : Lets e.jnl := by first | assumption | exact ⟨rfl⟩) : Calm e a (jnlCtlWrite p0 d) := by
  unfold jnlCtlWrite
  extract_lets x6000 x6001
  have hx6000 : Calm e a x6000 := by
    unfold x6000
    split
    · refine jnlCkptWrite_calm ?_
      assumption
    · assumption
  clear_value x6000
  have hx6001 : Calm e a x6001 := by
    unfold x6001
    split
    · refine rerunGo_calm ?_
      assumption
    · assumption
  clear_value x6001
  split
  · refine rerunStop_calm ?_
    assumption
  · assumption
theorem wrPwr_calm {e : Eff} {a d : Device} {b i : Nat} {v : Word} (h : Calm e a d) {x : Device} (hx : wrPwr b i v d = some x) (e_mode : Lets e.mode := by first | assumption | exact ⟨rfl⟩) (e_tab : Lets e.tab := by first | assumption | exact ⟨rfl⟩) (e_dd : Lets e.dd := by first | assumption | exact ⟨rfl⟩) (e_jnl : Lets e.jnl := by first | assumption | exact ⟨rfl⟩) (e_u1 : Lets (e.unit 1) := by first | assumption | exact ⟨rfl⟩) (e_u2 : Lets (e.unit 2) := by first | assumption | exact ⟨rfl⟩) (e_u4 : Lets (e.unit 4) := by first | assumption | exact ⟨rfl⟩) (e_u8 : Lets (e.unit 8) := by first | assumption | exact ⟨rfl⟩) (e_u10 : Lets (e.unit 10) := by first | assumption | exact ⟨rfl⟩) (e_u16 : Lets (e.unit 16) := by first | assumption | exact ⟨rfl⟩) (e_u17 : Lets (e.unit 17) := by first | assumption | exact ⟨rfl⟩) (e_u20 : Lets (e.unit 20) := by first | assumption | exact ⟨rfl⟩) (e_u21 : Lets (e.unit 21) := by first | assumption | exact ⟨rfl⟩) (e_u22 : Lets (e.unit 22) := by first | assumption | exact ⟨rfl⟩) (e_u23 : Lets (e.unit 23) := by first | assumption | exact ⟨rfl⟩) (e_u24 : Lets (e.unit 24) := by first | assumption | exact ⟨rfl⟩) (e_u27 : Lets (e.unit 27) := by first | assumption | exact ⟨rfl⟩) : Calm e a x := by
  unfold wrPwr at hx
  split at hx
  · cases hx
    exact pwrCtlWrite_calm h
  · split at hx
    · cases hx
      exact h
    · cases hx
  · cases hx
    exact calm_ite _ (snapRequest_calm h) h
  · cases hx
    exact snapRelease_calm h
  · cases hx
    exact tkCtlWrite_calm h
  · cases hx
    exact tkIncIntWrite_calm h
  · cases hx
    exact tkIncFracWrite_calm h
  · cases hx
    exact tkCmdWrite_calm h
  · cases hx
    exact tkUtcWrite_calm h
  · cases hx
    exact tkPtpWrite_calm h
  · cases hx
    exact ethCfgWrite_calm h
  · cases hx
    exact ethPtpCfgWrite_calm h
  · cases hx
    exact txtsPop_calm h
  · cases hx
theorem wrPfa_calm {e : Eff} {a d : Device} {b i : Nat} {v : Word} (h : Calm e a d) {x : Device} (hx : wrPfa b i v d = some x) (e_u26 : Lets (e.unit 26) := by first | assumption | exact ⟨rfl⟩) (e_tab : Lets e.tab := by first | assumption | exact ⟨rfl⟩) (e_dd : Lets e.dd := by first | assumption | exact ⟨rfl⟩) (e_jnl : Lets e.jnl := by first | assumption | exact ⟨rfl⟩) (e_u8 : Lets (e.unit 8) := by first | assumption | exact ⟨rfl⟩) (e_u10 : Lets (e.unit 10) := by first | assumption | exact ⟨rfl⟩) (e_u12 : Lets (e.unit 12) := by first | assumption | exact ⟨rfl⟩) (e_u14 : Lets (e.unit 14) := by first | assumption | exact ⟨rfl⟩) (e_u15 : Lets (e.unit 15) := by first | assumption | exact ⟨rfl⟩) (e_u16 : Lets (e.unit 16) := by first | assumption | exact ⟨rfl⟩) (e_u17 : Lets (e.unit 17) := by first | assumption | exact ⟨rfl⟩) (e_u20 : Lets (e.unit 20) := by first | assumption | exact ⟨rfl⟩) (e_u21 : Lets (e.unit 21) := by first | assumption | exact ⟨rfl⟩) (e_u23 : Lets (e.unit 23) := by first | assumption | exact ⟨rfl⟩) (e_u24 : Lets (e.unit 24) := by first | assumption | exact ⟨rfl⟩) : Calm e a x := by
  unfold wrPfa at hx
  split at hx
  · cases hx
    exact winCmd_calm h
  · cases hx
    exact srtCfgWrite_calm h
  · cases hx
    exact srtPinWrite_calm h
  · cases hx
    exact srtUnitWrite_calm h
  · split at hx
    · cases hx
      exact h
    · cases hx
  · cases hx
    exact pacEngClr_calm h
  · cases hx
    exact resInjWrite_calm h
  · cases hx
    exact osmCtlWrite_calm h
  · cases hx
    exact osmDdrWrite_calm h
  · cases hx
    exact calm_ite _ (islSwapRequest_calm h) h
  · cases hx
    exact almThrCmdWrite_calm h
  · cases hx
    exact aoutCfgWrite_calm h
  · cases hx
    exact aoutClr_calm h
  · cases hx
theorem wrLmf_calm {e : Eff} {a d : Device} {b i : Nat} {v : Word} (h : Calm e a d) {x : Device} (hx : wrLmf b i v d = some x) (e_dd : Lets e.dd := by first | assumption | exact ⟨rfl⟩) (e_u10 : Lets (e.unit 10) := by first | assumption | exact ⟨rfl⟩) (e_u17 : Lets (e.unit 17) := by first | assumption | exact ⟨rfl⟩) (e_u18 : Lets (e.unit 18) := by first | assumption | exact ⟨rfl⟩) (e_u19 : Lets (e.unit 19) := by first | assumption | exact ⟨rfl⟩) (e_u20 : Lets (e.unit 20) := by first | assumption | exact ⟨rfl⟩) (e_u21 : Lets (e.unit 21) := by first | assumption | exact ⟨rfl⟩) (e_u22 : Lets (e.unit 22) := by first | assumption | exact ⟨rfl⟩) (e_u23 : Lets (e.unit 23) := by first | assumption | exact ⟨rfl⟩) (e_u24 : Lets (e.unit 24) := by first | assumption | exact ⟨rfl⟩) : Calm e a x := by
  unfold wrLmf at hx
  split at hx
  · cases hx
    exact lmfGrpWrite_calm h
  · cases hx
    exact lmfCtlWrite_calm h
  · cases hx
    exact lmfSetWrite_calm h
  · cases hx
    exact lmfSetWrite_calm h
  · cases hx
    exact lmfSetWrite_calm h
  · cases hx
    exact acqDdrWrite_calm h
  · cases hx
    exact acqSlotRelease_calm h
  · cases hx
    exact acqCtlWrite_calm h
  · cases hx
    exact calm_ite _ (nrgSnapRequest_calm h) h
  · cases hx
    exact nrgSnapRelease_calm h
  · cases hx
    exact piCfgWrite_calm h
  · cases hx
    exact poCfgWrite_calm h
  · cases hx
    exact poQWrite_calm h
  · cases hx
    exact rxlDevWrite_calm h
  · cases hx
    exact rxlPortWrite_calm h
  · cases hx
    exact rxlSelWrite_calm h
  · cases hx
    exact rlyCfgWrite_calm h
  · cases hx
    exact rlyCtlWrite_calm h
  · cases hx
theorem wrHif_calm {e : Eff} {a d : Device} {b i : Nat} {v : Word} (h : Calm e a d) {x : Device} (hx : wrHif b i v d = some x) (e_tab : Lets e.tab := by first | assumption | exact ⟨rfl⟩) (e_key : Lets e.key := by first | assumption | exact ⟨rfl⟩) (e_grp : Lets e.grp := by first | assumption | exact ⟨rfl⟩) (e_dd : Lets e.dd := by first | assumption | exact ⟨rfl⟩) (e_jnl : Lets e.jnl := by first | assumption | exact ⟨rfl⟩) (e_u4 : Lets (e.unit 4) := by first | assumption | exact ⟨rfl⟩) (e_u10 : Lets (e.unit 10) := by first | assumption | exact ⟨rfl⟩) (e_u15 : Lets (e.unit 15) := by first | assumption | exact ⟨rfl⟩) (e_u16 : Lets (e.unit 16) := by first | assumption | exact ⟨rfl⟩) (e_u17 : Lets (e.unit 17) := by first | assumption | exact ⟨rfl⟩) (e_u18 : Lets (e.unit 18) := by first | assumption | exact ⟨rfl⟩) (e_u20 : Lets (e.unit 20) := by first | assumption | exact ⟨rfl⟩) (e_u21 : Lets (e.unit 21) := by first | assumption | exact ⟨rfl⟩) (e_u23 : Lets (e.unit 23) := by first | assumption | exact ⟨rfl⟩) (e_u24 : Lets (e.unit 24) := by first | assumption | exact ⟨rfl⟩) (e_u26 : Lets (e.unit 26) := by first | assumption | exact ⟨rfl⟩) : Calm e a x := by
  unfold wrHif at hx
  split at hx
  · cases hx
    exact ringAddrWrite_calm h
  · cases hx
    exact ringAddrWrite_calm h
  · cases hx
    exact sqCfgWrite_calm h
  · cases hx
    exact ringAddrWrite_calm h
  · cases hx
    exact ringAddrWrite_calm h
  · cases hx
    exact ringAddrWrite_calm h
  · cases hx
    exact ringAddrWrite_calm h
  · cases hx
    exact cqCfgWrite_calm h
  · split at hx
    · cases hx
      exact Device.cfgErr_calm h
    · cases hx
  · cases hx
    exact calm_ite _ (streamFlush_calm h) h
  · cases hx
    exact dmaCfgWrite_calm h
  · cases hx
    exact dmaCtlWrite_calm h
  · cases hx
    exact keyStatWrite_calm h
  · cases hx
    exact keyCmd_calm h
  · cases hx
    exact keyUnlock_calm h
  · cases hx
    exact Device.wr_calm h
  · cases hx
    exact keyAttCfgWrite_calm h
  · cases hx
    exact calm_ite _ (attestRequest_calm h) h
  · cases hx
    exact attestRelease_calm h
  · cases hx
theorem wrScb_calm {e : Eff} {a d : Device} {b i : Nat} {v : Word} (h : Calm e a d) {x : Device} (hx : wrScb b i v d = some x) (e_jnl : Lets e.jnl := by first | assumption | exact ⟨rfl⟩) (e_u10 : Lets (e.unit 10) := by first | assumption | exact ⟨rfl⟩) (e_u26 : Lets (e.unit 26) := by first | assumption | exact ⟨rfl⟩) (e_u27 : Lets (e.unit 27) := by first | assumption | exact ⟨rfl⟩) : Calm e a x := by
  unfold wrScb at hx
  split at hx
  · cases hx
    exact calm_ite _ (scbFlushWrite_calm h) h
  · cases hx
    exact scbLookup_calm h
  · cases hx
    exact jnlDdrWrite_calm h
  · cases hx
    exact jnlCtlWrite_calm h
  · cases hx
    exact rerunInput_calm h
  · cases hx
    exact memInjWrite_calm h
  · cases hx
    exact memGrpClear_calm h
  · cases hx
    exact xcrCfgWrite_calm h
  · cases hx
    exact xcrCfgWrite_calm h
  · cases hx
    exact xcrCfgWrite_calm h
  · cases hx
    exact xcrCfgWrite_calm h
  · cases hx
    exact xcrCfgWrite_calm h
  · cases hx
    exact xcrCfgWrite_calm h
  · cases hx
    exact sensCfgWrite_calm h
  · cases hx
    exact txCmdWrite_calm h
  · cases hx
    exact calm_ite _ (rxqPop_calm h) h
  · cases hx
theorem specialWrite_calm {e : Eff} {a d : Device} {b i : Nat} {v : Word} (h : Calm e a d) {x : Device} (hx : specialWrite b i v d = some x) (e_mode : Lets e.mode := by first | assumption | exact ⟨rfl⟩) (e_tab : Lets e.tab := by first | assumption | exact ⟨rfl⟩) (e_key : Lets e.key := by first | assumption | exact ⟨rfl⟩) (e_grp : Lets e.grp := by first | assumption | exact ⟨rfl⟩) (e_dd : Lets e.dd := by first | assumption | exact ⟨rfl⟩) (e_jnl : Lets e.jnl := by first | assumption | exact ⟨rfl⟩) (e_u1 : Lets (e.unit 1) := by first | assumption | exact ⟨rfl⟩) (e_u2 : Lets (e.unit 2) := by first | assumption | exact ⟨rfl⟩) (e_u4 : Lets (e.unit 4) := by first | assumption | exact ⟨rfl⟩) (e_u8 : Lets (e.unit 8) := by first | assumption | exact ⟨rfl⟩) (e_u10 : Lets (e.unit 10) := by first | assumption | exact ⟨rfl⟩) (e_u12 : Lets (e.unit 12) := by first | assumption | exact ⟨rfl⟩) (e_u14 : Lets (e.unit 14) := by first | assumption | exact ⟨rfl⟩) (e_u15 : Lets (e.unit 15) := by first | assumption | exact ⟨rfl⟩) (e_u16 : Lets (e.unit 16) := by first | assumption | exact ⟨rfl⟩) (e_u17 : Lets (e.unit 17) := by first | assumption | exact ⟨rfl⟩) (e_u18 : Lets (e.unit 18) := by first | assumption | exact ⟨rfl⟩) (e_u19 : Lets (e.unit 19) := by first | assumption | exact ⟨rfl⟩) (e_u20 : Lets (e.unit 20) := by first | assumption | exact ⟨rfl⟩) (e_u21 : Lets (e.unit 21) := by first | assumption | exact ⟨rfl⟩) (e_u22 : Lets (e.unit 22) := by first | assumption | exact ⟨rfl⟩) (e_u23 : Lets (e.unit 23) := by first | assumption | exact ⟨rfl⟩) (e_u24 : Lets (e.unit 24) := by first | assumption | exact ⟨rfl⟩) (e_u26 : Lets (e.unit 26) := by first | assumption | exact ⟨rfl⟩) (e_u27 : Lets (e.unit 27) := by first | assumption | exact ⟨rfl⟩) : Calm e a x := by
  unfold specialWrite at hx
  extract_lets k at hx
  split at hx
  · first | exact wrPwr_calm h hx
  split at hx
  · first | exact wrPfa_calm h hx
  split at hx
  · first | exact wrLmf_calm  h hx
  split at hx
  · first | exact wrHif_calm h hx
  · first | exact wrScb_calm  h hx
theorem busWrite_calm {e : Eff} {a d : Device} {o : Nat} {v : Word} (h : Calm e a d) (e_mode : Lets e.mode := by first | assumption | exact ⟨rfl⟩) (e_tab : Lets e.tab := by first | assumption | exact ⟨rfl⟩) (e_key : Lets e.key := by first | assumption | exact ⟨rfl⟩) (e_grp : Lets e.grp := by first | assumption | exact ⟨rfl⟩) (e_dd : Lets e.dd := by first | assumption | exact ⟨rfl⟩) (e_jnl : Lets e.jnl := by first | assumption | exact ⟨rfl⟩) (e_rd : Lets e.rd := by first | assumption | exact ⟨rfl⟩) (e_u1 : Lets (e.unit 1) := by first | assumption | exact ⟨rfl⟩) (e_u2 : Lets (e.unit 2) := by first | assumption | exact ⟨rfl⟩) (e_u4 : Lets (e.unit 4) := by first | assumption | exact ⟨rfl⟩) (e_u8 : Lets (e.unit 8) := by first | assumption | exact ⟨rfl⟩) (e_u10 : Lets (e.unit 10) := by first | assumption | exact ⟨rfl⟩) (e_u12 : Lets (e.unit 12) := by first | assumption | exact ⟨rfl⟩) (e_u14 : Lets (e.unit 14) := by first | assumption | exact ⟨rfl⟩) (e_u15 : Lets (e.unit 15) := by first | assumption | exact ⟨rfl⟩) (e_u16 : Lets (e.unit 16) := by first | assumption | exact ⟨rfl⟩) (e_u17 : Lets (e.unit 17) := by first | assumption | exact ⟨rfl⟩) (e_u18 : Lets (e.unit 18) := by first | assumption | exact ⟨rfl⟩) (e_u19 : Lets (e.unit 19) := by first | assumption | exact ⟨rfl⟩) (e_u20 : Lets (e.unit 20) := by first | assumption | exact ⟨rfl⟩) (e_u21 : Lets (e.unit 21) := by first | assumption | exact ⟨rfl⟩) (e_u22 : Lets (e.unit 22) := by first | assumption | exact ⟨rfl⟩) (e_u23 : Lets (e.unit 23) := by first | assumption | exact ⟨rfl⟩) (e_u24 : Lets (e.unit 24) := by first | assumption | exact ⟨rfl⟩) (e_u26 : Lets (e.unit 26) := by first | assumption | exact ⟨rfl⟩) (e_u27 : Lets (e.unit 27) := by first | assumption | exact ⟨rfl⟩) (e_all : ∀ b, Lets (e.unit b) := by first | assumption | exact ⟨rfl⟩) : Calm e a (busWrite o v d) := by
  unfold busWrite
  split
  · exact Device.bar0Refuse_calm h
  split
  · exact h
  extract_lets n
  split
  · rename_i hx
    exact specialWrite_calm h hx
  · exact Device.irqRefresh_calm (Device.plainWrite_calm h)
/-! Command. -/
theorem placed_calm {e : Eff} {a : Device} {p0 : Bool} {p1 : Device → Device} {d : Device} (gp1 : ∀ (y0 : Device), Sys2Proof.Machine.Calm e a y0 → Sys2Proof.Machine.Calm e a (p1 y0)) (h : Calm e a d) : Calm e a (placed p0 p1 d) := by
  unfold placed
  split
  · apply gp1
    assumption
  · assumption
theorem c37CmdOther_calm {e : Eff} {a : Device} {p0 : ℕ} {p1 : Bool} {p2 : ℕ} {p3 : ℕ} {d : Device} (h : Calm e a d) (e_u17 : Lets (e.unit 17) := by first | assumption | exact ⟨rfl⟩) : Calm e a (c37CmdOther p0 p1 p2 p3 d) := by
  unfold c37CmdOther
  refine c37Cmd_calm ?_
  assumption
theorem cadenceSend_calm {e : Eff} {a : Device} {p0 : Bool} {p1 : ℕ} {d : Device} (h : Calm e a d) (e_u17 : Lets (e.unit 17) := by first | assumption | exact ⟨rfl⟩) (e_u21 : Lets (e.unit 21) := by first | assumption | exact ⟨rfl⟩) (e_u24 : Lets (e.unit 24) := by first | assumption | exact ⟨rfl⟩) : Calm e a (cadenceSend p0 p1 d) := by
  unfold cadenceSend
  split
  · refine cadencePeer_calm ?_
    assumption
  · refine placed_calm ?_ ?_
    · intro v58
      intro w57
      refine cadenceLink_calm ?_
      assumption
    · assumption
theorem keyGated_calm {e : Eff} {a : Device} {p0 : Bool} {p1 : Device → Device} {d : Device} (gp1 : ∀ (y0 : Device), Sys2Proof.Machine.Calm e a y0 → Sys2Proof.Machine.Calm e a (p1 y0)) (h : Calm e a d) (e_u24 : Lets (e.unit 24) := by first | assumption | exact ⟨rfl⟩) : Calm e a (keyGated p0 p1 d) := by
  unfold keyGated
  refine Device.keyGate_calm ?_ ?_
  · intro v59
    intro w58
    apply gp1
    assumption
  · assumption
theorem tkTickAll_calm {e : Eff} {a : Device} {d : Device} (h : Calm e a d) (e_now : Lets e.now := by first | assumption | exact ⟨rfl⟩) (e_dd : Lets e.dd := by first | assumption | exact ⟨rfl⟩) (e_jnl : Lets e.jnl := by first | assumption | exact ⟨rfl⟩) (e_u2 : Lets (e.unit 2) := by first | assumption | exact ⟨rfl⟩) (e_u10 : Lets (e.unit 10) := by first | assumption | exact ⟨rfl⟩) (e_u17 : Lets (e.unit 17) := by first | assumption | exact ⟨rfl⟩) : Calm e a (tkTickAll d) := by
  unfold tkTickAll
  extract_lets x6000
  have hx6000 : Calm e a x6000 := by
    unfold x6000
    split
    · split
      · refine Device.timerCarry_calm ?_
        assumption
      · assumption
    · assumption
  clear_value x6000
  refine Device.gooseSecond_calm ?_
  refine clkTkTick_calm ?_
  assumption
end Sys2Proof.Machine
end

