-- ==== Sys2Proof/Laws/CalmPost.lean ====
section
/-!
SUPPORT. What follows every command (Machine/Command), in the terms of Calm, and the way from RESET to WARMUP, which Calm leaves out.
-/
namespace Sys2Proof.Machine
set_option Elab.async false
theorem Device.stepWatch_calm {e : Eff} {a old d : Device} (h : Calm e a d) (e_all : ∀ b, Lets (e.unit b)) :
    Calm e a (Device.stepWatch old d) := by
  have e4 := e_all 4
  have e8 := e_all 8
  have e10 := e_all 10
  have e12 := e_all 12
  have e14 := e_all 14
  have e15 := e_all 15
  have e21 := e_all 21
  have e22 := e_all 22
  unfold Device.stepWatch
  split
  · exact h
  · split
    · exact Device.stepLoss_calm h
    · split
      · exact Device.stepLoss_calm h
      · exact h
theorem Device.warmupExit_calm {e : Eff} {a old d : Device} (h : Calm e a d) (e_u24 : Lets (e.unit 24) := by first | assumption | exact ⟨rfl⟩) :
    Calm e a (d.warmupExit old) := by
  unfold Device.warmupExit
  split
  · exact Device.setf_calm h
  · exact h
theorem Device.memRewritten_calm {e : Eff} {a old d : Device} (h : Calm e a d) (e_u26 : Lets (e.unit 26) := by first | assumption | exact ⟨rfl⟩) :
    Calm e a (d.memRewritten old) := by
  unfold Device.memRewritten
  exact Device.setMem_calm h
theorem Device.inject_calm {e : Eff} {a old d : Device} (h : Calm e a d) (e_hold : Lets e.hold) (e_key : Lets e.key) (e_grp : Lets e.grp)
    (e_all : ∀ b, Lets (e.unit b)) : Calm e a (d.inject old) := by
  have e1 := e_all 1
  have e4 := e_all 4
  have e10 := e_all 10
  have e12 := e_all 12
  have e17 := e_all 17
  have e19 := e_all 19
  have e22 := e_all 22
  have e23 := e_all 23
  have e24 := e_all 24
  have e26 := e_all 26
  unfold Device.inject
  extract_lets arr
  split
  · exact h
  · dsimp only
    exact Device.injectAt_calm (Calm.upd_free (Device.wr_calm (Device.wr_calm (Device.count_calm (Device.setf_calm h)))))
theorem Device.keyLost_calm {e : Eff} {a d : Device} {loc : Nat} (h : Calm e a d) (e_key : Lets e.key) (e_grp : Lets e.grp) (e_all : ∀ b, Lets (e.unit b)) :
    Calm e a (d.keyLost loc) := by
  have e24 := e_all 24
  have e26 := e_all 26
  unfold Device.keyLost
  refine Device.memClean_calm ?_
  by_cases hc : keyLoc 0 ≤ loc
  · rw [if_pos hc]
    exact Calm.upd_key h
  · rw [if_neg hc]
    exact Calm.upd_key h
theorem Device.memMet_calm {e : Eff} {a old d : Device} {k : Nat} (h : Calm e a d) (e_key : Lets e.key) (e_grp : Lets e.grp)
    (e_dd : Lets e.dd) (e_jnl : Lets e.jnl) (e_all : ∀ b, Lets (e.unit b)) : Calm e a (d.memMet old k) := by
  have e8 := e_all 8
  have e10 := e_all 10
  have e12 := e_all 12
  have e14 := e_all 14
  have e16 := e_all 16
  have e17 := e_all 17
  have e20 := e_all 20
  have e23 := e_all 23
  have e24 := e_all 24
  have e26 := e_all 26
  unfold Device.memMet
  extract_lets arr loc lost d1
  have h1 : Calm e a d1 := by
    unfold d1
    exact Device.memRead_calm h
  clear_value d1
  split
  · exact Device.keyLost_calm h1 e_key e_grp e_all
  split
  · exact Device.osmHit_calm h1
  · exact h1
theorem Device.memUse_calm {e : Eff} {a d : Device} {k : Nat} (h : Calm e a d) (e_hold : Lets e.hold) (e_key : Lets e.key) (e_grp : Lets e.grp)
    (e_all : ∀ b, Lets (e.unit b)) : Calm e a (d.memUse k) := by
  have e1 := e_all 1
  have e10 := e_all 10
  have e17 := e_all 17
  have e22 := e_all 22
  have e24 := e_all 24
  have e26 := e_all 26
  unfold Device.memUse
  extract_lets arr loc lost d1 c1
  have h1 : Calm e a d1 := by
    unfold d1
    exact Device.memRead_calm h
  clear_value d1
  split
  · exact h
  split
  · exact h1
  split
  · exact Calm.upd_free (Device.memClean_calm h1)
  · exact Device.memFatal_calm h1
theorem Device.memPost_calm {e : Eff} {a old d : Device} (h : Calm e a d) (e_hold : Lets e.hold) (e_key : Lets e.key) (e_grp : Lets e.grp)
    (e_dd : Lets e.dd) (e_jnl : Lets e.jnl) (e_all : ∀ b, Lets (e.unit b)) : Calm e a (d.memPost old) := by
  have e26 := e_all 26
  unfold Device.memPost
  extract_lets x y d1 d2
  have hx : Calm e a x := by
    unfold x
    exact calm_foldl _ _ (fun _ _ h => Device.memMet_calm h e_key e_grp e_dd e_jnl e_all) h
  clear_value x
  have hy : Calm e a y := by
    unfold y
    exact calm_foldl _ _ (fun _ _ h => Device.memUse_calm h e_hold e_key e_grp e_all) hx
  clear_value y
  have h1 : Calm e a d1 := by
    unfold d1
    split
    · exact h
    · exact Device.memRewritten_calm hy
  clear_value d1
  have h2 : Calm e a d2 := by
    unfold d2
    split
    · exact Device.inject_calm h1 e_hold e_key e_grp e_all
    · exact h1
  split
  · exact h2
  · exact Calm.upd_noted h2
/-- What follows a command may touch what an injected memory error touches, and any unit. -/
theorem Device.post_calm {e : Eff} {a old d : Device} (h : Calm e a d) (e_hold : Lets e.hold) (e_key : Lets e.key) (e_grp : Lets e.grp)
    (e_dd : Lets e.dd) (e_jnl : Lets e.jnl) (e_all : ∀ b, Lets (e.unit b)) : Calm e a (Device.post old d) := by
  have e10 := e_all 10
  have e12 := e_all 12
  have e17 := e_all 17
  have e21 := e_all 21
  have e22 := e_all 22
  have e24 := e_all 24
  unfold Device.post
  split
  · exact Device.pump_calm (Device.moveFailed_calm (Device.stepWatch_calm (Device.memPost_calm (Device.warmupExit_calm h) e_hold e_key e_grp e_dd e_jnl e_all) e_all))
  · exact h
/-- With no injection armed and no word marked, memory integrity adds nothing. -/
theorem Device.memPost_quiet {old d : Device} (hi : old.injArmed = false) (hb : d.mem.bad = []) (hn : d.noted = []) : d.memPost old = d := by
  unfold Device.memPost
  simp [hi, hb, hn]
theorem Device.memPost_calm_quiet {e : Eff} {a old d : Device} (h : Calm e a d) (hi : old.injArmed = false) (hb : d.mem.bad = []) :
    Calm e a (d.memPost old) := by
  unfold Device.memPost
  extract_lets x y d1 d2
  have h1 : d1 = d := by
    unfold d1
    simp [hb]
  have h2 : d2 = d := by
    unfold d2
    simp [hi, h1]
  rw [h2]
  split
  · exact h
  · exact Calm.upd_noted h
theorem Device.memPost_mode_quiet {old d : Device} (hi : old.injArmed = false) (hb : d.mem.bad = []) : (d.memPost old).pwr = d.pwr :=
  ((Device.memPost_calm_quiet (e := Eff.none) (Calm.refl Eff.none d) hi hb).pwr).resolve_left (fun x => by cases x with | intro h => cases h)
/-- What follows a command while no injection is armed and no word of the arrays is marked. -/
theorem Device.post_calm_quiet {e : Eff} {a old d : Device} (h : Calm e a d) (hi : old.injArmed = false) (hb : d.mem.bad = [])
    (hr : d.pwr.mode ≠ .follow) (e10 : Lets (e.unit 10)) (e12 : Lets (e.unit 12)) (e17 : Lets (e.unit 17)) (e21 : Lets (e.unit 21)) (e22 : Lets (e.unit 22))
    (e24 : Lets (e.unit 24)) : Calm e a (Device.post old d) := by
  unfold Device.post
  have hw : (d.warmupExit old).mem.bad = [] := by
    unfold Device.warmupExit
    split
    · exact hb
    · exact hb
  have hm : (d.warmupExit old).pwr.mode ≠ .follow := by
    unfold Device.warmupExit
    split
    · exact hr
    · exact hr
  have h2 : Device.stepWatch old ((d.warmupExit old).memPost old) = (d.warmupExit old).memPost old := by
    unfold Device.stepWatch
    rw [Device.memPost_mode_quiet hi hw, if_pos (.inl hm)]
  rw [h2]
  split
  · exact Device.pump_calm (Device.moveFailed_calm (Device.memPost_calm_quiet (Device.warmupExit_calm h) hi hw))
  · exact h
/-- A device that is not paired, has no task in flight and does not leave WARMUP: nothing follows a command. -/
theorem Device.post_quiet {old d : Device} (hi : old.injArmed = false) (hb : d.mem.bad = []) (hn : d.noted = []) (hp : d.paired = false)
    (hf : d.srt.flight = []) (hw : old.pwr.mode = d.pwr.mode) (hr : d.pwr.mode ≠ .follow) : Device.post old d = d := by
  have h1 : d.warmupExit old = d := by
    unfold Device.warmupExit
    rw [hw]
    split
    · rename_i h
      exact absurd h.1 h.2.1
    · rfl
  have h2 : Device.stepWatch old d = d := by
    unfold Device.stepWatch
    rw [if_pos (.inl hr)]
  have h3 : d.moveFailed = d := by
    unfold Device.moveFailed
    rw [hf]
    rfl
  have h4 : d.pump = d := by
    unfold Device.pump
    simp [hp]
  unfold Device.post
  rw [h1, Device.memPost_quiet hi hb hn, h2, h3, h4]
  simp
/-- Reporting a zeroisation touches no unit but the key store's own mark. -/
theorem Device.tamperReport_fields (d : Device) : d.tamperReport.pwr = d.pwr ∧ d.tamperReport.ddr = d.ddr ∧ d.tamperReport.tables = d.tables ∧
    d.tamperReport.key = { d.key with tamperOff := none } := by
  unfold Device.tamperReport
  split
  · rename_i p _
    have h : Calm Eff.none _ _ := Device.raise_calm (e := Eff.none) (p1 := EV_KEY_TAMPER) (p2 := [p])
      (Calm.refl Eff.none (d.setKey { d.key with tamperOff := none }))
    refine ⟨?_, ?_, ?_, ?_⟩
    · exact h.pwr.resolve_left (fun x => by cases x with | intro h => cases h)
    · exact h.cells.resolve_left (fun x => by cases x with | intro h => cases h)
    · exact h.tables.resolve_left (fun x => by cases x with | intro h => cases h)
    · exact h.keys.resolve_left (fun x => by cases x with | intro h => cases h)
  · rename_i h
    refine ⟨rfl, rfl, rfl, ?_⟩
    rw [← h]
theorem Device.toWarmup_mode (d : Device) : d.toWarmup.pwr.mode = .warmup := by
  unfold Device.toWarmup
  show ((d.fresh.setMode .warmup).tamperReport).pwr.mode = .warmup
  rw [(Device.tamperReport_fields _).1]
  unfold Device.setMode
  split
  · rename_i h
    exact h.symm
  · exact Calm.mode_eq (a := { d.fresh with pwr := { d.fresh.pwr with mode := .warmup } }) (Device.raise_calm (Calm.refl _ _))
theorem Device.fresh_ddr (d : Device) : d.fresh.ddr = [] := rfl
theorem Device.toWarmup_ddr (d : Device) : Memory.wf d.toWarmup.ddr = true := by
  unfold Device.toWarmup
  show Memory.wf ((d.fresh.setMode .warmup).tamperReport).ddr = true
  rw [(Device.tamperReport_fields _).2.1]
  unfold Device.setMode
  split
  · rw [Device.fresh_ddr]; rfl
  · exact (Device.raise_calm (Calm.refl Eff.none { d.fresh with pwr := { d.fresh.pwr with mode := .warmup } })).ddr rfl
end Sys2Proof.Machine
end

