-- ==== Sys2Proof/Laws/State.lean ====
section
/-!
SUPPORT. What each plain update of the device holds and what it leaves: one theorem per update, with one equation per field, all by definition,
so that no later proof unfolds an update.
-/
namespace Sys2Proof.Machine

set_option Elab.async false

@[simp] theorem Device.setAcq_fields (d : Device) (x : Acq) :
   (d.setAcq x).acq = x ∧ (d.setAcq x).regs = d.regs ∧ (d.setAcq x).tables = d.tables ∧ (d.setAcq x).ddr = d.ddr ∧
    (d.setAcq x).tk = d.tk ∧ (d.setAcq x).pwr = d.pwr ∧ (d.setAcq x).scb = d.scb ∧ (d.setAcq x).jnl = d.jnl ∧ (d.setAcq x).hif = d.hif ∧
    (d.setAcq x).ing = d.ing ∧ (d.setAcq x).pfa = d.pfa ∧ (d.setAcq x).srt = d.srt ∧ (d.setAcq x).pac = d.pac ∧
    (d.setAcq x).osm = d.osm ∧ (d.setAcq x).isl = d.isl ∧ (d.setAcq x).alm = d.alm ∧ (d.setAcq x).egr = d.egr ∧
    (d.setAcq x).lmf = d.lmf ∧ (d.setAcq x).nrg = d.nrg ∧ (d.setAcq x).rxl = d.rxl ∧ (d.setAcq x).rly = d.rly ∧
    (d.setAcq x).key = d.key ∧ (d.setAcq x).mem = d.mem ∧ (d.setAcq x).xcr = d.xcr ∧ (d.setAcq x).out = d.out ∧
    (d.setAcq x).readHi = d.readHi ∧ (d.setAcq x).pba = d.pba ∧ (d.setAcq x).noted = d.noted ∧
    (d.setAcq x).lastRead = d.lastRead ∧ (d.setAcq x).free = d.free ∧ (∀ r j, (d.setAcq x).rg r j = d.rg r j) ∧
    (∀ y j, (d.setAcq x).f y j = d.f y j) ∧ (∀ y j, (d.setAcq x).fb y j = d.fb y j) ∧ (∀ q, (d.setAcq x).blkRegs q = d.blkRegs q) := by
  and_intros <;> intros <;> rfl
@[simp] theorem Device.setEgr_fields (d : Device) (x : Egr) :
   (d.setEgr x).egr = x ∧ (d.setEgr x).regs = d.regs ∧ (d.setEgr x).tables = d.tables ∧ (d.setEgr x).ddr = d.ddr ∧
    (d.setEgr x).tk = d.tk ∧ (d.setEgr x).pwr = d.pwr ∧ (d.setEgr x).scb = d.scb ∧ (d.setEgr x).jnl = d.jnl ∧ (d.setEgr x).hif = d.hif ∧
    (d.setEgr x).ing = d.ing ∧ (d.setEgr x).pfa = d.pfa ∧ (d.setEgr x).srt = d.srt ∧ (d.setEgr x).pac = d.pac ∧
    (d.setEgr x).osm = d.osm ∧ (d.setEgr x).isl = d.isl ∧ (d.setEgr x).alm = d.alm ∧ (d.setEgr x).lmf = d.lmf ∧
    (d.setEgr x).acq = d.acq ∧ (d.setEgr x).nrg = d.nrg ∧ (d.setEgr x).rxl = d.rxl ∧ (d.setEgr x).rly = d.rly ∧
    (d.setEgr x).key = d.key ∧ (d.setEgr x).mem = d.mem ∧ (d.setEgr x).xcr = d.xcr ∧ (d.setEgr x).out = d.out ∧
    (d.setEgr x).readHi = d.readHi ∧ (d.setEgr x).pba = d.pba ∧ (d.setEgr x).noted = d.noted ∧
    (d.setEgr x).lastRead = d.lastRead ∧ (d.setEgr x).free = d.free ∧ (∀ r j, (d.setEgr x).rg r j = d.rg r j) ∧
    (∀ y j, (d.setEgr x).f y j = d.f y j) ∧ (∀ y j, (d.setEgr x).fb y j = d.fb y j) ∧ (∀ q, (d.setEgr x).blkRegs q = d.blkRegs q) := by
  and_intros <;> intros <;> rfl
@[simp] theorem Device.setClient_fields (d : Device) (c : Nat) (x : ClientSt) :
   (d.setClient c x).regs = d.regs ∧ (d.setClient c x).tables = d.tables ∧ (d.setClient c x).ddr = d.ddr ∧ (d.setClient c x).tk = d.tk ∧
    (d.setClient c x).pwr = d.pwr ∧ (d.setClient c x).scb = d.scb ∧ (d.setClient c x).jnl = d.jnl ∧ (d.setClient c x).hif = d.hif ∧
    (d.setClient c x).ing = d.ing ∧ (d.setClient c x).pfa = d.pfa ∧ (d.setClient c x).srt = d.srt ∧ (d.setClient c x).pac = d.pac ∧
    (d.setClient c x).osm = d.osm ∧ (d.setClient c x).isl = d.isl ∧ (d.setClient c x).alm = d.alm ∧ (d.setClient c x).lmf = d.lmf ∧
    (d.setClient c x).acq = d.acq ∧ (d.setClient c x).nrg = d.nrg ∧ (d.setClient c x).rxl = d.rxl ∧ (d.setClient c x).rly = d.rly ∧
    (d.setClient c x).key = d.key ∧ (d.setClient c x).mem = d.mem ∧ (d.setClient c x).xcr = d.xcr ∧ (d.setClient c x).out = d.out ∧
    (d.setClient c x).readHi = d.readHi ∧ (d.setClient c x).pba = d.pba ∧ (d.setClient c x).noted = d.noted ∧
    (d.setClient c x).lastRead = d.lastRead ∧ (d.setClient c x).free = d.free ∧ (∀ r j, (d.setClient c x).rg r j = d.rg r j) ∧
    (∀ y j, (d.setClient c x).f y j = d.f y j) ∧ (∀ y j, (d.setClient c x).fb y j = d.fb y j) ∧
    (∀ q, (d.setClient c x).blkRegs q = d.blkRegs q) := by
  and_intros <;> intros <;> rfl
@[simp] theorem Device.setConn_fields (d : Device) (n : Nat) (x : EgrConn) :
   (d.setConn n x).regs = d.regs ∧ (d.setConn n x).tables = d.tables ∧ (d.setConn n x).ddr = d.ddr ∧ (d.setConn n x).tk = d.tk ∧
    (d.setConn n x).pwr = d.pwr ∧ (d.setConn n x).scb = d.scb ∧ (d.setConn n x).jnl = d.jnl ∧ (d.setConn n x).hif = d.hif ∧
    (d.setConn n x).ing = d.ing ∧ (d.setConn n x).pfa = d.pfa ∧ (d.setConn n x).srt = d.srt ∧ (d.setConn n x).pac = d.pac ∧
    (d.setConn n x).osm = d.osm ∧ (d.setConn n x).isl = d.isl ∧ (d.setConn n x).alm = d.alm ∧ (d.setConn n x).lmf = d.lmf ∧
    (d.setConn n x).acq = d.acq ∧ (d.setConn n x).nrg = d.nrg ∧ (d.setConn n x).rxl = d.rxl ∧ (d.setConn n x).rly = d.rly ∧
    (d.setConn n x).key = d.key ∧ (d.setConn n x).mem = d.mem ∧ (d.setConn n x).xcr = d.xcr ∧ (d.setConn n x).out = d.out ∧
    (d.setConn n x).readHi = d.readHi ∧ (d.setConn n x).pba = d.pba ∧ (d.setConn n x).noted = d.noted ∧
    (d.setConn n x).lastRead = d.lastRead ∧ (d.setConn n x).free = d.free ∧ (∀ r j, (d.setConn n x).rg r j = d.rg r j) ∧
    (∀ y j, (d.setConn n x).f y j = d.f y j) ∧ (∀ y j, (d.setConn n x).fb y j = d.fb y j) ∧
    (∀ q, (d.setConn n x).blkRegs q = d.blkRegs q) := by
  and_intros <;> intros <;> rfl
@[simp] theorem Device.setNrg_fields (d : Device) (x : Nrg) :
   (d.setNrg x).nrg = x ∧ (d.setNrg x).regs = d.regs ∧ (d.setNrg x).tables = d.tables ∧ (d.setNrg x).ddr = d.ddr ∧
    (d.setNrg x).tk = d.tk ∧ (d.setNrg x).pwr = d.pwr ∧ (d.setNrg x).scb = d.scb ∧ (d.setNrg x).jnl = d.jnl ∧ (d.setNrg x).hif = d.hif ∧
    (d.setNrg x).ing = d.ing ∧ (d.setNrg x).pfa = d.pfa ∧ (d.setNrg x).srt = d.srt ∧ (d.setNrg x).pac = d.pac ∧
    (d.setNrg x).osm = d.osm ∧ (d.setNrg x).isl = d.isl ∧ (d.setNrg x).alm = d.alm ∧ (d.setNrg x).egr = d.egr ∧
    (d.setNrg x).lmf = d.lmf ∧ (d.setNrg x).acq = d.acq ∧ (d.setNrg x).rxl = d.rxl ∧ (d.setNrg x).rly = d.rly ∧
    (d.setNrg x).key = d.key ∧ (d.setNrg x).mem = d.mem ∧ (d.setNrg x).xcr = d.xcr ∧ (d.setNrg x).out = d.out ∧
    (d.setNrg x).readHi = d.readHi ∧ (d.setNrg x).pba = d.pba ∧ (d.setNrg x).noted = d.noted ∧
    (d.setNrg x).lastRead = d.lastRead ∧ (d.setNrg x).free = d.free ∧ (∀ r j, (d.setNrg x).rg r j = d.rg r j) ∧
    (∀ y j, (d.setNrg x).f y j = d.f y j) ∧ (∀ y j, (d.setNrg x).fb y j = d.fb y j) ∧ (∀ q, (d.setNrg x).blkRegs q = d.blkRegs q) := by
  and_intros <;> intros <;> rfl
@[simp] theorem Device.setPoint_fields (d : Device) (i : Nat) (x : PointSt) :
   (d.setPoint i x).regs = d.regs ∧ (d.setPoint i x).tables = d.tables ∧ (d.setPoint i x).ddr = d.ddr ∧ (d.setPoint i x).tk = d.tk ∧
    (d.setPoint i x).pwr = d.pwr ∧ (d.setPoint i x).scb = d.scb ∧ (d.setPoint i x).jnl = d.jnl ∧ (d.setPoint i x).hif = d.hif ∧
    (d.setPoint i x).ing = d.ing ∧ (d.setPoint i x).pfa = d.pfa ∧ (d.setPoint i x).srt = d.srt ∧ (d.setPoint i x).pac = d.pac ∧
    (d.setPoint i x).osm = d.osm ∧ (d.setPoint i x).isl = d.isl ∧ (d.setPoint i x).alm = d.alm ∧ (d.setPoint i x).egr = d.egr ∧
    (d.setPoint i x).lmf = d.lmf ∧ (d.setPoint i x).acq = d.acq ∧ (d.setPoint i x).rxl = d.rxl ∧ (d.setPoint i x).rly = d.rly ∧
    (d.setPoint i x).key = d.key ∧ (d.setPoint i x).mem = d.mem ∧ (d.setPoint i x).xcr = d.xcr ∧ (d.setPoint i x).out = d.out ∧
    (d.setPoint i x).readHi = d.readHi ∧ (d.setPoint i x).pba = d.pba ∧ (d.setPoint i x).noted = d.noted ∧
    (d.setPoint i x).lastRead = d.lastRead ∧ (d.setPoint i x).free = d.free ∧ (∀ r j, (d.setPoint i x).rg r j = d.rg r j) ∧
    (∀ y j, (d.setPoint i x).f y j = d.f y j) ∧ (∀ y j, (d.setPoint i x).fb y j = d.fb y j) ∧
    (∀ q, (d.setPoint i x).blkRegs q = d.blkRegs q) := by
  and_intros <;> intros <;> rfl
@[simp] theorem Device.setPulse_fields (d : Device) (k : Nat) (x : PulseSt) :
   (d.setPulse k x).regs = d.regs ∧ (d.setPulse k x).tables = d.tables ∧ (d.setPulse k x).ddr = d.ddr ∧ (d.setPulse k x).tk = d.tk ∧
    (d.setPulse k x).pwr = d.pwr ∧ (d.setPulse k x).scb = d.scb ∧ (d.setPulse k x).jnl = d.jnl ∧ (d.setPulse k x).hif = d.hif ∧
    (d.setPulse k x).ing = d.ing ∧ (d.setPulse k x).pfa = d.pfa ∧ (d.setPulse k x).srt = d.srt ∧ (d.setPulse k x).pac = d.pac ∧
    (d.setPulse k x).osm = d.osm ∧ (d.setPulse k x).isl = d.isl ∧ (d.setPulse k x).alm = d.alm ∧ (d.setPulse k x).egr = d.egr ∧
    (d.setPulse k x).lmf = d.lmf ∧ (d.setPulse k x).acq = d.acq ∧ (d.setPulse k x).rxl = d.rxl ∧ (d.setPulse k x).rly = d.rly ∧
    (d.setPulse k x).key = d.key ∧ (d.setPulse k x).mem = d.mem ∧ (d.setPulse k x).xcr = d.xcr ∧ (d.setPulse k x).out = d.out ∧
    (d.setPulse k x).readHi = d.readHi ∧ (d.setPulse k x).pba = d.pba ∧ (d.setPulse k x).noted = d.noted ∧
    (d.setPulse k x).lastRead = d.lastRead ∧ (d.setPulse k x).free = d.free ∧ (∀ r j, (d.setPulse k x).rg r j = d.rg r j) ∧
    (∀ y j, (d.setPulse k x).f y j = d.f y j) ∧ (∀ y j, (d.setPulse k x).fb y j = d.fb y j) ∧
    (∀ q, (d.setPulse k x).blkRegs q = d.blkRegs q) := by
  and_intros <;> intros <;> rfl
@[simp] theorem Device.setPlsi_fields (d : Device) (i : Nat) (x : PulseIn) :
   (d.setPlsi i x).regs = d.regs ∧ (d.setPlsi i x).tables = d.tables ∧ (d.setPlsi i x).ddr = d.ddr ∧ (d.setPlsi i x).tk = d.tk ∧
    (d.setPlsi i x).pwr = d.pwr ∧ (d.setPlsi i x).scb = d.scb ∧ (d.setPlsi i x).jnl = d.jnl ∧ (d.setPlsi i x).hif = d.hif ∧
    (d.setPlsi i x).ing = d.ing ∧ (d.setPlsi i x).pfa = d.pfa ∧ (d.setPlsi i x).srt = d.srt ∧ (d.setPlsi i x).pac = d.pac ∧
    (d.setPlsi i x).osm = d.osm ∧ (d.setPlsi i x).isl = d.isl ∧ (d.setPlsi i x).alm = d.alm ∧ (d.setPlsi i x).egr = d.egr ∧
    (d.setPlsi i x).lmf = d.lmf ∧ (d.setPlsi i x).acq = d.acq ∧ (d.setPlsi i x).rxl = d.rxl ∧ (d.setPlsi i x).rly = d.rly ∧
    (d.setPlsi i x).key = d.key ∧ (d.setPlsi i x).mem = d.mem ∧ (d.setPlsi i x).xcr = d.xcr ∧ (d.setPlsi i x).out = d.out ∧
    (d.setPlsi i x).readHi = d.readHi ∧ (d.setPlsi i x).pba = d.pba ∧ (d.setPlsi i x).noted = d.noted ∧
    (d.setPlsi i x).lastRead = d.lastRead ∧ (d.setPlsi i x).free = d.free ∧ (∀ r j, (d.setPlsi i x).rg r j = d.rg r j) ∧
    (∀ y j, (d.setPlsi i x).f y j = d.f y j) ∧ (∀ y j, (d.setPlsi i x).fb y j = d.fb y j) ∧
    (∀ q, (d.setPlsi i x).blkRegs q = d.blkRegs q) := by
  and_intros <;> intros <;> rfl
@[simp] theorem Device.setEng_fields (d : Device) (e : Nat) (x : Eng) :
   (d.setEng e x).regs = d.regs ∧ (d.setEng e x).tables = d.tables ∧ (d.setEng e x).ddr = d.ddr ∧ (d.setEng e x).tk = d.tk ∧
    (d.setEng e x).pwr = d.pwr ∧ (d.setEng e x).scb = d.scb ∧ (d.setEng e x).jnl = d.jnl ∧ (d.setEng e x).hif = d.hif ∧
    (d.setEng e x).ing = d.ing ∧ (d.setEng e x).pfa = d.pfa ∧ (d.setEng e x).srt = d.srt ∧ (d.setEng e x).osm = d.osm ∧
    (d.setEng e x).isl = d.isl ∧ (d.setEng e x).alm = d.alm ∧ (d.setEng e x).egr = d.egr ∧ (d.setEng e x).lmf = d.lmf ∧
    (d.setEng e x).acq = d.acq ∧ (d.setEng e x).nrg = d.nrg ∧ (d.setEng e x).rxl = d.rxl ∧ (d.setEng e x).rly = d.rly ∧
    (d.setEng e x).key = d.key ∧ (d.setEng e x).mem = d.mem ∧ (d.setEng e x).xcr = d.xcr ∧ (d.setEng e x).out = d.out ∧
    (d.setEng e x).readHi = d.readHi ∧ (d.setEng e x).pba = d.pba ∧ (d.setEng e x).noted = d.noted ∧
    (d.setEng e x).lastRead = d.lastRead ∧ (d.setEng e x).free = d.free ∧ (∀ r j, (d.setEng e x).rg r j = d.rg r j) ∧
    (∀ y j, (d.setEng e x).f y j = d.f y j) ∧ (∀ y j, (d.setEng e x).fb y j = d.fb y j) ∧ (∀ q, (d.setEng e x).blkRegs q = d.blkRegs q) := by
  and_intros <;> intros <;> rfl
@[simp] theorem Device.setGoose_fields (d : Device) (n : Nat) (x : GooseSt) :
   (d.setGoose n x).regs = d.regs ∧ (d.setGoose n x).tables = d.tables ∧ (d.setGoose n x).ddr = d.ddr ∧ (d.setGoose n x).tk = d.tk ∧
    (d.setGoose n x).pwr = d.pwr ∧ (d.setGoose n x).scb = d.scb ∧ (d.setGoose n x).jnl = d.jnl ∧ (d.setGoose n x).hif = d.hif ∧
    (d.setGoose n x).ing = d.ing ∧ (d.setGoose n x).pfa = d.pfa ∧ (d.setGoose n x).srt = d.srt ∧ (d.setGoose n x).pac = d.pac ∧
    (d.setGoose n x).osm = d.osm ∧ (d.setGoose n x).isl = d.isl ∧ (d.setGoose n x).alm = d.alm ∧ (d.setGoose n x).lmf = d.lmf ∧
    (d.setGoose n x).acq = d.acq ∧ (d.setGoose n x).nrg = d.nrg ∧ (d.setGoose n x).rxl = d.rxl ∧ (d.setGoose n x).rly = d.rly ∧
    (d.setGoose n x).key = d.key ∧ (d.setGoose n x).mem = d.mem ∧ (d.setGoose n x).xcr = d.xcr ∧ (d.setGoose n x).out = d.out ∧
    (d.setGoose n x).readHi = d.readHi ∧ (d.setGoose n x).pba = d.pba ∧ (d.setGoose n x).noted = d.noted ∧
    (d.setGoose n x).lastRead = d.lastRead ∧ (d.setGoose n x).free = d.free ∧ (∀ r j, (d.setGoose n x).rg r j = d.rg r j) ∧
    (∀ y j, (d.setGoose n x).f y j = d.f y j) ∧ (∀ y j, (d.setGoose n x).fb y j = d.fb y j) ∧
    (∀ q, (d.setGoose n x).blkRegs q = d.blkRegs q) := by
  and_intros <;> intros <;> rfl
@[simp] theorem Device.setPfa_fields (d : Device) (x : Pfa) :
   (d.setPfa x).pfa = x ∧ (d.setPfa x).regs = d.regs ∧ (d.setPfa x).tables = d.tables ∧ (d.setPfa x).ddr = d.ddr ∧
    (d.setPfa x).tk = d.tk ∧ (d.setPfa x).pwr = d.pwr ∧ (d.setPfa x).scb = d.scb ∧ (d.setPfa x).jnl = d.jnl ∧ (d.setPfa x).hif = d.hif ∧
    (d.setPfa x).ing = d.ing ∧ (d.setPfa x).srt = d.srt ∧ (d.setPfa x).pac = d.pac ∧ (d.setPfa x).osm = d.osm ∧
    (d.setPfa x).isl = d.isl ∧ (d.setPfa x).alm = d.alm ∧ (d.setPfa x).egr = d.egr ∧ (d.setPfa x).lmf = d.lmf ∧
    (d.setPfa x).acq = d.acq ∧ (d.setPfa x).nrg = d.nrg ∧ (d.setPfa x).rxl = d.rxl ∧ (d.setPfa x).rly = d.rly ∧
    (d.setPfa x).key = d.key ∧ (d.setPfa x).mem = d.mem ∧ (d.setPfa x).xcr = d.xcr ∧ (d.setPfa x).out = d.out ∧
    (d.setPfa x).readHi = d.readHi ∧ (d.setPfa x).pba = d.pba ∧ (d.setPfa x).noted = d.noted ∧
    (d.setPfa x).lastRead = d.lastRead ∧ (d.setPfa x).free = d.free ∧ (∀ r j, (d.setPfa x).rg r j = d.rg r j) ∧
    (∀ y j, (d.setPfa x).f y j = d.f y j) ∧ (∀ y j, (d.setPfa x).fb y j = d.fb y j) ∧ (∀ q, (d.setPfa x).blkRegs q = d.blkRegs q) := by
  and_intros <;> intros <;> rfl
@[simp] theorem Device.setLap_fields (d : Device) (x : Lap) :
   (d.setLap x).regs = d.regs ∧ (d.setLap x).tables = d.tables ∧ (d.setLap x).ddr = d.ddr ∧ (d.setLap x).tk = d.tk ∧
    (d.setLap x).pwr = d.pwr ∧ (d.setLap x).scb = d.scb ∧ (d.setLap x).jnl = d.jnl ∧ (d.setLap x).hif = d.hif ∧
    (d.setLap x).ing = d.ing ∧ (d.setLap x).srt = d.srt ∧ (d.setLap x).pac = d.pac ∧ (d.setLap x).osm = d.osm ∧
    (d.setLap x).isl = d.isl ∧ (d.setLap x).alm = d.alm ∧ (d.setLap x).egr = d.egr ∧ (d.setLap x).lmf = d.lmf ∧
    (d.setLap x).acq = d.acq ∧ (d.setLap x).nrg = d.nrg ∧ (d.setLap x).rxl = d.rxl ∧ (d.setLap x).rly = d.rly ∧
    (d.setLap x).key = d.key ∧ (d.setLap x).mem = d.mem ∧ (d.setLap x).xcr = d.xcr ∧ (d.setLap x).out = d.out ∧
    (d.setLap x).readHi = d.readHi ∧ (d.setLap x).pba = d.pba ∧ (d.setLap x).noted = d.noted ∧
    (d.setLap x).lastRead = d.lastRead ∧ (d.setLap x).free = d.free ∧ (∀ r j, (d.setLap x).rg r j = d.rg r j) ∧
    (∀ y j, (d.setLap x).f y j = d.f y j) ∧ (∀ y j, (d.setLap x).fb y j = d.fb y j) ∧ (∀ q, (d.setLap x).blkRegs q = d.blkRegs q) := by
  and_intros <;> intros <;> rfl
@[simp] theorem Device.setRun_fields (d : Device) (h : Nat) (x : HeatRun) :
   (d.setRun h x).regs = d.regs ∧ (d.setRun h x).tables = d.tables ∧ (d.setRun h x).ddr = d.ddr ∧ (d.setRun h x).tk = d.tk ∧
    (d.setRun h x).pwr = d.pwr ∧ (d.setRun h x).scb = d.scb ∧ (d.setRun h x).jnl = d.jnl ∧ (d.setRun h x).hif = d.hif ∧
    (d.setRun h x).ing = d.ing ∧ (d.setRun h x).srt = d.srt ∧ (d.setRun h x).pac = d.pac ∧ (d.setRun h x).osm = d.osm ∧
    (d.setRun h x).isl = d.isl ∧ (d.setRun h x).alm = d.alm ∧ (d.setRun h x).egr = d.egr ∧ (d.setRun h x).lmf = d.lmf ∧
    (d.setRun h x).acq = d.acq ∧ (d.setRun h x).nrg = d.nrg ∧ (d.setRun h x).rxl = d.rxl ∧ (d.setRun h x).rly = d.rly ∧
    (d.setRun h x).key = d.key ∧ (d.setRun h x).mem = d.mem ∧ (d.setRun h x).xcr = d.xcr ∧ (d.setRun h x).out = d.out ∧
    (d.setRun h x).readHi = d.readHi ∧ (d.setRun h x).pba = d.pba ∧ (d.setRun h x).noted = d.noted ∧
    (d.setRun h x).lastRead = d.lastRead ∧ (d.setRun h x).free = d.free ∧ (∀ r j, (d.setRun h x).rg r j = d.rg r j) ∧
    (∀ y j, (d.setRun h x).f y j = d.f y j) ∧ (∀ y j, (d.setRun h x).fb y j = d.fb y j) ∧ (∀ q, (d.setRun h x).blkRegs q = d.blkRegs q) := by
  and_intros <;> intros <;> rfl
@[simp] theorem Device.setHif_fields (d : Device) (x : Hif) :
   (d.setHif x).hif = x ∧ (d.setHif x).regs = d.regs ∧ (d.setHif x).tables = d.tables ∧ (d.setHif x).ddr = d.ddr ∧
    (d.setHif x).tk = d.tk ∧ (d.setHif x).pwr = d.pwr ∧ (d.setHif x).scb = d.scb ∧ (d.setHif x).jnl = d.jnl ∧ (d.setHif x).ing = d.ing ∧
    (d.setHif x).pfa = d.pfa ∧ (d.setHif x).srt = d.srt ∧ (d.setHif x).pac = d.pac ∧ (d.setHif x).osm = d.osm ∧
    (d.setHif x).isl = d.isl ∧ (d.setHif x).alm = d.alm ∧ (d.setHif x).egr = d.egr ∧ (d.setHif x).lmf = d.lmf ∧
    (d.setHif x).acq = d.acq ∧ (d.setHif x).nrg = d.nrg ∧ (d.setHif x).rxl = d.rxl ∧ (d.setHif x).rly = d.rly ∧
    (d.setHif x).key = d.key ∧ (d.setHif x).mem = d.mem ∧ (d.setHif x).xcr = d.xcr ∧ (d.setHif x).out = d.out ∧
    (d.setHif x).readHi = d.readHi ∧ (d.setHif x).pba = d.pba ∧ (d.setHif x).noted = d.noted ∧
    (d.setHif x).lastRead = d.lastRead ∧ (d.setHif x).free = d.free ∧ (∀ r j, (d.setHif x).rg r j = d.rg r j) ∧
    (∀ y j, (d.setHif x).f y j = d.f y j) ∧ (∀ y j, (d.setHif x).fb y j = d.fb y j) ∧ (∀ q, (d.setHif x).blkRegs q = d.blkRegs q) := by
  and_intros <;> intros <;> rfl
@[simp] theorem Device.setDch_fields (d : Device) (c : Nat) (x : Chan) :
   (d.setDch c x).regs = d.regs ∧ (d.setDch c x).tables = d.tables ∧ (d.setDch c x).ddr = d.ddr ∧ (d.setDch c x).tk = d.tk ∧
    (d.setDch c x).pwr = d.pwr ∧ (d.setDch c x).scb = d.scb ∧ (d.setDch c x).jnl = d.jnl ∧ (d.setDch c x).ing = d.ing ∧
    (d.setDch c x).pfa = d.pfa ∧ (d.setDch c x).srt = d.srt ∧ (d.setDch c x).pac = d.pac ∧ (d.setDch c x).osm = d.osm ∧
    (d.setDch c x).isl = d.isl ∧ (d.setDch c x).alm = d.alm ∧ (d.setDch c x).egr = d.egr ∧ (d.setDch c x).lmf = d.lmf ∧
    (d.setDch c x).acq = d.acq ∧ (d.setDch c x).nrg = d.nrg ∧ (d.setDch c x).rxl = d.rxl ∧ (d.setDch c x).rly = d.rly ∧
    (d.setDch c x).key = d.key ∧ (d.setDch c x).mem = d.mem ∧ (d.setDch c x).xcr = d.xcr ∧ (d.setDch c x).out = d.out ∧
    (d.setDch c x).readHi = d.readHi ∧ (d.setDch c x).pba = d.pba ∧ (d.setDch c x).noted = d.noted ∧
    (d.setDch c x).lastRead = d.lastRead ∧ (d.setDch c x).free = d.free ∧ (∀ r j, (d.setDch c x).rg r j = d.rg r j) ∧
    (∀ y j, (d.setDch c x).f y j = d.f y j) ∧ (∀ y j, (d.setDch c x).fb y j = d.fb y j) ∧ (∀ q, (d.setDch c x).blkRegs q = d.blkRegs q) := by
  and_intros <;> intros <;> rfl
@[simp] theorem Device.setSf_fields (d : Device) (n : Nat) (x : List Packet) :
   (d.setSf n x).regs = d.regs ∧ (d.setSf n x).tables = d.tables ∧ (d.setSf n x).ddr = d.ddr ∧ (d.setSf n x).tk = d.tk ∧
    (d.setSf n x).pwr = d.pwr ∧ (d.setSf n x).scb = d.scb ∧ (d.setSf n x).jnl = d.jnl ∧ (d.setSf n x).ing = d.ing ∧
    (d.setSf n x).pfa = d.pfa ∧ (d.setSf n x).srt = d.srt ∧ (d.setSf n x).pac = d.pac ∧ (d.setSf n x).osm = d.osm ∧
    (d.setSf n x).isl = d.isl ∧ (d.setSf n x).alm = d.alm ∧ (d.setSf n x).egr = d.egr ∧ (d.setSf n x).lmf = d.lmf ∧
    (d.setSf n x).acq = d.acq ∧ (d.setSf n x).nrg = d.nrg ∧ (d.setSf n x).rxl = d.rxl ∧ (d.setSf n x).rly = d.rly ∧
    (d.setSf n x).key = d.key ∧ (d.setSf n x).mem = d.mem ∧ (d.setSf n x).xcr = d.xcr ∧ (d.setSf n x).out = d.out ∧
    (d.setSf n x).readHi = d.readHi ∧ (d.setSf n x).pba = d.pba ∧ (d.setSf n x).noted = d.noted ∧
    (d.setSf n x).lastRead = d.lastRead ∧ (d.setSf n x).free = d.free ∧ (∀ r j, (d.setSf n x).rg r j = d.rg r j) ∧
    (∀ y j, (d.setSf n x).f y j = d.f y j) ∧ (∀ y j, (d.setSf n x).fb y j = d.fb y j) ∧ (∀ q, (d.setSf n x).blkRegs q = d.blkRegs q) := by
  and_intros <;> intros <;> rfl
@[simp] theorem Device.setHur_fields (d : Device) (h : Nat) (x : HurSt) :
   (d.setHur h x).regs = d.regs ∧ (d.setHur h x).tables = d.tables ∧ (d.setHur h x).ddr = d.ddr ∧ (d.setHur h x).tk = d.tk ∧
    (d.setHur h x).pwr = d.pwr ∧ (d.setHur h x).scb = d.scb ∧ (d.setHur h x).jnl = d.jnl ∧ (d.setHur h x).hif = d.hif ∧
    (d.setHur h x).ing = d.ing ∧ (d.setHur h x).pfa = d.pfa ∧ (d.setHur h x).srt = d.srt ∧ (d.setHur h x).pac = d.pac ∧
    (d.setHur h x).osm = d.osm ∧ (d.setHur h x).isl = d.isl ∧ (d.setHur h x).egr = d.egr ∧ (d.setHur h x).lmf = d.lmf ∧
    (d.setHur h x).acq = d.acq ∧ (d.setHur h x).nrg = d.nrg ∧ (d.setHur h x).rxl = d.rxl ∧ (d.setHur h x).rly = d.rly ∧
    (d.setHur h x).key = d.key ∧ (d.setHur h x).mem = d.mem ∧ (d.setHur h x).xcr = d.xcr ∧ (d.setHur h x).out = d.out ∧
    (d.setHur h x).readHi = d.readHi ∧ (d.setHur h x).pba = d.pba ∧ (d.setHur h x).noted = d.noted ∧
    (d.setHur h x).lastRead = d.lastRead ∧ (d.setHur h x).free = d.free ∧ (∀ r j, (d.setHur h x).rg r j = d.rg r j) ∧
    (∀ y j, (d.setHur h x).f y j = d.f y j) ∧ (∀ y j, (d.setHur h x).fb y j = d.fb y j) ∧ (∀ q, (d.setHur h x).blkRegs q = d.blkRegs q) := by
  and_intros <;> intros <;> rfl
@[simp] theorem Device.setAlm_fields (d : Device) (x : Alm) :
   (d.setAlm x).alm = x ∧ (d.setAlm x).regs = d.regs ∧ (d.setAlm x).tables = d.tables ∧ (d.setAlm x).ddr = d.ddr ∧
    (d.setAlm x).tk = d.tk ∧ (d.setAlm x).pwr = d.pwr ∧ (d.setAlm x).scb = d.scb ∧ (d.setAlm x).jnl = d.jnl ∧ (d.setAlm x).hif = d.hif ∧
    (d.setAlm x).ing = d.ing ∧ (d.setAlm x).pfa = d.pfa ∧ (d.setAlm x).srt = d.srt ∧ (d.setAlm x).pac = d.pac ∧
    (d.setAlm x).osm = d.osm ∧ (d.setAlm x).isl = d.isl ∧ (d.setAlm x).egr = d.egr ∧ (d.setAlm x).lmf = d.lmf ∧
    (d.setAlm x).acq = d.acq ∧ (d.setAlm x).nrg = d.nrg ∧ (d.setAlm x).rxl = d.rxl ∧ (d.setAlm x).rly = d.rly ∧
    (d.setAlm x).key = d.key ∧ (d.setAlm x).mem = d.mem ∧ (d.setAlm x).xcr = d.xcr ∧ (d.setAlm x).out = d.out ∧
    (d.setAlm x).readHi = d.readHi ∧ (d.setAlm x).pba = d.pba ∧ (d.setAlm x).noted = d.noted ∧
    (d.setAlm x).lastRead = d.lastRead ∧ (d.setAlm x).free = d.free ∧ (∀ r j, (d.setAlm x).rg r j = d.rg r j) ∧
    (∀ y j, (d.setAlm x).f y j = d.f y j) ∧ (∀ y j, (d.setAlm x).fb y j = d.fb y j) ∧ (∀ q, (d.setAlm x).blkRegs q = d.blkRegs q) := by
  and_intros <;> intros <;> rfl
@[simp] theorem Device.setScb_fields (d : Device) (x : Scb) :
   (d.setScb x).scb = x ∧ (d.setScb x).regs = d.regs ∧ (d.setScb x).tables = d.tables ∧ (d.setScb x).ddr = d.ddr ∧
    (d.setScb x).tk = d.tk ∧ (d.setScb x).pwr = d.pwr ∧ (d.setScb x).jnl = d.jnl ∧ (d.setScb x).hif = d.hif ∧ (d.setScb x).ing = d.ing ∧
    (d.setScb x).pfa = d.pfa ∧ (d.setScb x).srt = d.srt ∧ (d.setScb x).pac = d.pac ∧ (d.setScb x).osm = d.osm ∧
    (d.setScb x).isl = d.isl ∧ (d.setScb x).alm = d.alm ∧ (d.setScb x).egr = d.egr ∧ (d.setScb x).lmf = d.lmf ∧
    (d.setScb x).acq = d.acq ∧ (d.setScb x).nrg = d.nrg ∧ (d.setScb x).rxl = d.rxl ∧ (d.setScb x).rly = d.rly ∧
    (d.setScb x).key = d.key ∧ (d.setScb x).mem = d.mem ∧ (d.setScb x).xcr = d.xcr ∧ (d.setScb x).out = d.out ∧
    (d.setScb x).readHi = d.readHi ∧ (d.setScb x).pba = d.pba ∧ (d.setScb x).noted = d.noted ∧
    (d.setScb x).lastRead = d.lastRead ∧ (d.setScb x).free = d.free ∧ (∀ r j, (d.setScb x).rg r j = d.rg r j) ∧
    (∀ y j, (d.setScb x).f y j = d.f y j) ∧ (∀ y j, (d.setScb x).fb y j = d.fb y j) ∧ (∀ q, (d.setScb x).blkRegs q = d.blkRegs q) := by
  and_intros <;> intros <;> rfl
@[simp] theorem Device.setKey_fields (d : Device) (x : Key) :
   (d.setKey x).key = x ∧ (d.setKey x).regs = d.regs ∧ (d.setKey x).tables = d.tables ∧ (d.setKey x).ddr = d.ddr ∧
    (d.setKey x).tk = d.tk ∧ (d.setKey x).pwr = d.pwr ∧ (d.setKey x).scb = d.scb ∧ (d.setKey x).jnl = d.jnl ∧ (d.setKey x).hif = d.hif ∧
    (d.setKey x).ing = d.ing ∧ (d.setKey x).pfa = d.pfa ∧ (d.setKey x).srt = d.srt ∧ (d.setKey x).pac = d.pac ∧
    (d.setKey x).osm = d.osm ∧ (d.setKey x).isl = d.isl ∧ (d.setKey x).alm = d.alm ∧ (d.setKey x).egr = d.egr ∧
    (d.setKey x).lmf = d.lmf ∧ (d.setKey x).acq = d.acq ∧ (d.setKey x).nrg = d.nrg ∧ (d.setKey x).rxl = d.rxl ∧
    (d.setKey x).rly = d.rly ∧ (d.setKey x).mem = d.mem ∧ (d.setKey x).xcr = d.xcr ∧ (d.setKey x).out = d.out ∧
    (d.setKey x).readHi = d.readHi ∧ (d.setKey x).pba = d.pba ∧ (d.setKey x).noted = d.noted ∧
    (d.setKey x).lastRead = d.lastRead ∧ (d.setKey x).free = d.free ∧ (∀ r j, (d.setKey x).rg r j = d.rg r j) ∧
    (∀ y j, (d.setKey x).f y j = d.f y j) ∧ (∀ y j, (d.setKey x).fb y j = d.fb y j) ∧ (∀ q, (d.setKey x).blkRegs q = d.blkRegs q) := by
  and_intros <;> intros <;> rfl
@[simp] theorem Device.setChan_fields (d : Device) (c : Nat) (x : LmfChan) :
   (d.setChan c x).regs = d.regs ∧ (d.setChan c x).tables = d.tables ∧ (d.setChan c x).ddr = d.ddr ∧ (d.setChan c x).tk = d.tk ∧
    (d.setChan c x).pwr = d.pwr ∧ (d.setChan c x).scb = d.scb ∧ (d.setChan c x).jnl = d.jnl ∧ (d.setChan c x).hif = d.hif ∧
    (d.setChan c x).ing = d.ing ∧ (d.setChan c x).pfa = d.pfa ∧ (d.setChan c x).srt = d.srt ∧ (d.setChan c x).pac = d.pac ∧
    (d.setChan c x).osm = d.osm ∧ (d.setChan c x).isl = d.isl ∧ (d.setChan c x).alm = d.alm ∧ (d.setChan c x).egr = d.egr ∧
    (d.setChan c x).acq = d.acq ∧ (d.setChan c x).nrg = d.nrg ∧ (d.setChan c x).rxl = d.rxl ∧ (d.setChan c x).rly = d.rly ∧
    (d.setChan c x).key = d.key ∧ (d.setChan c x).mem = d.mem ∧ (d.setChan c x).xcr = d.xcr ∧ (d.setChan c x).out = d.out ∧
    (d.setChan c x).readHi = d.readHi ∧ (d.setChan c x).pba = d.pba ∧ (d.setChan c x).noted = d.noted ∧
    (d.setChan c x).lastRead = d.lastRead ∧ (d.setChan c x).free = d.free ∧ (∀ r j, (d.setChan c x).rg r j = d.rg r j) ∧
    (∀ y j, (d.setChan c x).f y j = d.f y j) ∧ (∀ y j, (d.setChan c x).fb y j = d.fb y j) ∧
    (∀ q, (d.setChan c x).blkRegs q = d.blkRegs q) := by
  and_intros <;> intros <;> rfl
@[simp] theorem Device.setMem_fields (d : Device) (x : Mem) :
   (d.setMem x).mem = x ∧ (d.setMem x).regs = d.regs ∧ (d.setMem x).tables = d.tables ∧ (d.setMem x).ddr = d.ddr ∧
    (d.setMem x).tk = d.tk ∧ (d.setMem x).pwr = d.pwr ∧ (d.setMem x).scb = d.scb ∧ (d.setMem x).jnl = d.jnl ∧ (d.setMem x).hif = d.hif ∧
    (d.setMem x).ing = d.ing ∧ (d.setMem x).pfa = d.pfa ∧ (d.setMem x).srt = d.srt ∧ (d.setMem x).pac = d.pac ∧
    (d.setMem x).osm = d.osm ∧ (d.setMem x).isl = d.isl ∧ (d.setMem x).alm = d.alm ∧ (d.setMem x).egr = d.egr ∧
    (d.setMem x).lmf = d.lmf ∧ (d.setMem x).acq = d.acq ∧ (d.setMem x).nrg = d.nrg ∧ (d.setMem x).rxl = d.rxl ∧
    (d.setMem x).rly = d.rly ∧ (d.setMem x).key = d.key ∧ (d.setMem x).xcr = d.xcr ∧ (d.setMem x).out = d.out ∧
    (d.setMem x).readHi = d.readHi ∧ (d.setMem x).pba = d.pba ∧ (d.setMem x).noted = d.noted ∧
    (d.setMem x).lastRead = d.lastRead ∧ (d.setMem x).free = d.free ∧ (∀ r j, (d.setMem x).rg r j = d.rg r j) ∧
    (∀ y j, (d.setMem x).f y j = d.f y j) ∧ (∀ y j, (d.setMem x).fb y j = d.fb y j) ∧ (∀ q, (d.setMem x).blkRegs q = d.blkRegs q) := by
  and_intros <;> intros <;> rfl
@[simp] theorem Device.setMerge_fields (d : Device) (x : List MergeEnt) :
   (d.setMerge x).regs = d.regs ∧ (d.setMerge x).tables = d.tables ∧ (d.setMerge x).ddr = d.ddr ∧ (d.setMerge x).tk = d.tk ∧
    (d.setMerge x).pwr = d.pwr ∧ (d.setMerge x).scb = d.scb ∧ (d.setMerge x).jnl = d.jnl ∧ (d.setMerge x).hif = d.hif ∧
    (d.setMerge x).ing = d.ing ∧ (d.setMerge x).pfa = d.pfa ∧ (d.setMerge x).srt = d.srt ∧ (d.setMerge x).pac = d.pac ∧
    (d.setMerge x).osm = d.osm ∧ (d.setMerge x).isl = d.isl ∧ (d.setMerge x).alm = d.alm ∧ (d.setMerge x).egr = d.egr ∧
    (d.setMerge x).lmf = d.lmf ∧ (d.setMerge x).acq = d.acq ∧ (d.setMerge x).nrg = d.nrg ∧ (d.setMerge x).rxl = d.rxl ∧
    (d.setMerge x).rly = d.rly ∧ (d.setMerge x).key = d.key ∧ (d.setMerge x).xcr = d.xcr ∧ (d.setMerge x).out = d.out ∧
    (d.setMerge x).readHi = d.readHi ∧ (d.setMerge x).pba = d.pba ∧ (d.setMerge x).noted = d.noted ∧
    (d.setMerge x).lastRead = d.lastRead ∧ (d.setMerge x).free = d.free ∧ (∀ r j, (d.setMerge x).rg r j = d.rg r j) ∧
    (∀ y j, (d.setMerge x).f y j = d.f y j) ∧ (∀ y j, (d.setMerge x).fb y j = d.fb y j) ∧ (∀ q, (d.setMerge x).blkRegs q = d.blkRegs q) := by
  and_intros <;> intros <;> rfl
@[simp] theorem Device.setEnt_fields (d : Device) (t pos : Nat) (x : List Word) (i : Nat) :
   (d.setEnt t pos x i).regs = d.regs ∧ (d.setEnt t pos x i).ddr = d.ddr ∧ (d.setEnt t pos x i).tk = d.tk ∧
    (d.setEnt t pos x i).pwr = d.pwr ∧ (d.setEnt t pos x i).scb = d.scb ∧ (d.setEnt t pos x i).jnl = d.jnl ∧
    (d.setEnt t pos x i).hif = d.hif ∧ (d.setEnt t pos x i).ing = d.ing ∧ (d.setEnt t pos x i).pfa = d.pfa ∧
    (d.setEnt t pos x i).srt = d.srt ∧ (d.setEnt t pos x i).pac = d.pac ∧ (d.setEnt t pos x i).osm = d.osm ∧
    (d.setEnt t pos x i).isl = d.isl ∧ (d.setEnt t pos x i).alm = d.alm ∧ (d.setEnt t pos x i).egr = d.egr ∧
    (d.setEnt t pos x i).lmf = d.lmf ∧ (d.setEnt t pos x i).acq = d.acq ∧ (d.setEnt t pos x i).nrg = d.nrg ∧
    (d.setEnt t pos x i).rxl = d.rxl ∧ (d.setEnt t pos x i).rly = d.rly ∧ (d.setEnt t pos x i).key = d.key ∧
    (d.setEnt t pos x i).mem = d.mem ∧ (d.setEnt t pos x i).xcr = d.xcr ∧ (d.setEnt t pos x i).out = d.out ∧
    (d.setEnt t pos x i).readHi = d.readHi ∧ (d.setEnt t pos x i).pba = d.pba ∧
    (d.setEnt t pos x i).lastRead = d.lastRead ∧ (d.setEnt t pos x i).free = d.free ∧ (∀ r j, (d.setEnt t pos x i).rg r j = d.rg r j) ∧
    (∀ y j, (d.setEnt t pos x i).f y j = d.f y j) ∧ (∀ y j, (d.setEnt t pos x i).fb y j = d.fb y j) ∧
    (∀ q, (d.setEnt t pos x i).blkRegs q = d.blkRegs q) := by
  and_intros <;> intros <;> rfl
@[simp] theorem Device.setStrm_fields (d : Device) (s : Nat) (x : StreamSt) :
   (d.setStrm s x).regs = d.regs ∧ (d.setStrm s x).tables = d.tables ∧ (d.setStrm s x).ddr = d.ddr ∧ (d.setStrm s x).tk = d.tk ∧
    (d.setStrm s x).pwr = d.pwr ∧ (d.setStrm s x).scb = d.scb ∧ (d.setStrm s x).jnl = d.jnl ∧ (d.setStrm s x).hif = d.hif ∧
    (d.setStrm s x).pfa = d.pfa ∧ (d.setStrm s x).srt = d.srt ∧ (d.setStrm s x).pac = d.pac ∧ (d.setStrm s x).osm = d.osm ∧
    (d.setStrm s x).isl = d.isl ∧ (d.setStrm s x).alm = d.alm ∧ (d.setStrm s x).egr = d.egr ∧ (d.setStrm s x).lmf = d.lmf ∧
    (d.setStrm s x).acq = d.acq ∧ (d.setStrm s x).nrg = d.nrg ∧ (d.setStrm s x).rxl = d.rxl ∧ (d.setStrm s x).rly = d.rly ∧
    (d.setStrm s x).key = d.key ∧ (d.setStrm s x).mem = d.mem ∧ (d.setStrm s x).xcr = d.xcr ∧ (d.setStrm s x).out = d.out ∧
    (d.setStrm s x).readHi = d.readHi ∧ (d.setStrm s x).pba = d.pba ∧ (d.setStrm s x).noted = d.noted ∧
    (d.setStrm s x).lastRead = d.lastRead ∧ (d.setStrm s x).free = d.free ∧ (∀ r j, (d.setStrm s x).rg r j = d.rg r j) ∧
    (∀ y j, (d.setStrm s x).f y j = d.f y j) ∧ (∀ y j, (d.setStrm s x).fb y j = d.fb y j) ∧
    (∀ q, (d.setStrm s x).blkRegs q = d.blkRegs q) := by
  and_intros <;> intros <;> rfl
@[simp] theorem Device.setTcp_fields (d : Device) (c : Nat) (x : TcpRx) :
   (d.setTcp c x).regs = d.regs ∧ (d.setTcp c x).tables = d.tables ∧ (d.setTcp c x).ddr = d.ddr ∧ (d.setTcp c x).tk = d.tk ∧
    (d.setTcp c x).pwr = d.pwr ∧ (d.setTcp c x).scb = d.scb ∧ (d.setTcp c x).jnl = d.jnl ∧ (d.setTcp c x).hif = d.hif ∧
    (d.setTcp c x).pfa = d.pfa ∧ (d.setTcp c x).srt = d.srt ∧ (d.setTcp c x).pac = d.pac ∧ (d.setTcp c x).osm = d.osm ∧
    (d.setTcp c x).isl = d.isl ∧ (d.setTcp c x).alm = d.alm ∧ (d.setTcp c x).egr = d.egr ∧ (d.setTcp c x).lmf = d.lmf ∧
    (d.setTcp c x).acq = d.acq ∧ (d.setTcp c x).nrg = d.nrg ∧ (d.setTcp c x).rxl = d.rxl ∧ (d.setTcp c x).rly = d.rly ∧
    (d.setTcp c x).key = d.key ∧ (d.setTcp c x).mem = d.mem ∧ (d.setTcp c x).xcr = d.xcr ∧ (d.setTcp c x).out = d.out ∧
    (d.setTcp c x).readHi = d.readHi ∧ (d.setTcp c x).pba = d.pba ∧ (d.setTcp c x).noted = d.noted ∧
    (d.setTcp c x).lastRead = d.lastRead ∧ (d.setTcp c x).free = d.free ∧ (∀ r j, (d.setTcp c x).rg r j = d.rg r j) ∧
    (∀ y j, (d.setTcp c x).f y j = d.f y j) ∧ (∀ y j, (d.setTcp c x).fb y j = d.fb y j) ∧ (∀ q, (d.setTcp c x).blkRegs q = d.blkRegs q) := by
  and_intros <;> intros <;> rfl
@[simp] theorem Device.setPrx_fields (d : Device) (p : Nat) (x : PortRx) :
   (d.setPrx p x).regs = d.regs ∧ (d.setPrx p x).tables = d.tables ∧ (d.setPrx p x).ddr = d.ddr ∧ (d.setPrx p x).tk = d.tk ∧
    (d.setPrx p x).pwr = d.pwr ∧ (d.setPrx p x).scb = d.scb ∧ (d.setPrx p x).jnl = d.jnl ∧ (d.setPrx p x).hif = d.hif ∧
    (d.setPrx p x).pfa = d.pfa ∧ (d.setPrx p x).srt = d.srt ∧ (d.setPrx p x).pac = d.pac ∧ (d.setPrx p x).osm = d.osm ∧
    (d.setPrx p x).isl = d.isl ∧ (d.setPrx p x).alm = d.alm ∧ (d.setPrx p x).egr = d.egr ∧ (d.setPrx p x).lmf = d.lmf ∧
    (d.setPrx p x).acq = d.acq ∧ (d.setPrx p x).nrg = d.nrg ∧ (d.setPrx p x).rxl = d.rxl ∧ (d.setPrx p x).rly = d.rly ∧
    (d.setPrx p x).key = d.key ∧ (d.setPrx p x).mem = d.mem ∧ (d.setPrx p x).xcr = d.xcr ∧ (d.setPrx p x).out = d.out ∧
    (d.setPrx p x).readHi = d.readHi ∧ (d.setPrx p x).pba = d.pba ∧ (d.setPrx p x).noted = d.noted ∧
    (d.setPrx p x).lastRead = d.lastRead ∧ (d.setPrx p x).free = d.free ∧ (∀ r j, (d.setPrx p x).rg r j = d.rg r j) ∧
    (∀ y j, (d.setPrx p x).f y j = d.f y j) ∧ (∀ y j, (d.setPrx p x).fb y j = d.fb y j) ∧ (∀ q, (d.setPrx p x).blkRegs q = d.blkRegs q) := by
  and_intros <;> intros <;> rfl
@[simp] theorem Device.setXcr_fields (d : Device) (x : Xcr) :
   (d.setXcr x).xcr = x ∧ (d.setXcr x).regs = d.regs ∧ (d.setXcr x).tables = d.tables ∧ (d.setXcr x).ddr = d.ddr ∧
    (d.setXcr x).tk = d.tk ∧ (d.setXcr x).pwr = d.pwr ∧ (d.setXcr x).scb = d.scb ∧ (d.setXcr x).jnl = d.jnl ∧ (d.setXcr x).hif = d.hif ∧
    (d.setXcr x).ing = d.ing ∧ (d.setXcr x).pfa = d.pfa ∧ (d.setXcr x).srt = d.srt ∧ (d.setXcr x).pac = d.pac ∧
    (d.setXcr x).osm = d.osm ∧ (d.setXcr x).isl = d.isl ∧ (d.setXcr x).alm = d.alm ∧ (d.setXcr x).egr = d.egr ∧
    (d.setXcr x).lmf = d.lmf ∧ (d.setXcr x).acq = d.acq ∧ (d.setXcr x).nrg = d.nrg ∧ (d.setXcr x).rxl = d.rxl ∧
    (d.setXcr x).rly = d.rly ∧ (d.setXcr x).key = d.key ∧ (d.setXcr x).mem = d.mem ∧ (d.setXcr x).out = d.out ∧
    (d.setXcr x).readHi = d.readHi ∧ (d.setXcr x).pba = d.pba ∧ (d.setXcr x).noted = d.noted ∧
    (d.setXcr x).lastRead = d.lastRead ∧ (d.setXcr x).free = d.free ∧ (∀ r j, (d.setXcr x).rg r j = d.rg r j) ∧
    (∀ y j, (d.setXcr x).f y j = d.f y j) ∧ (∀ y j, (d.setXcr x).fb y j = d.fb y j) ∧ (∀ q, (d.setXcr x).blkRegs q = d.blkRegs q) := by
  and_intros <;> intros <;> rfl
@[simp] theorem Device.setSens_fields (d : Device) (s : Nat) (x : XSensor) :
   (d.setSens s x).regs = d.regs ∧ (d.setSens s x).tables = d.tables ∧ (d.setSens s x).ddr = d.ddr ∧ (d.setSens s x).tk = d.tk ∧
    (d.setSens s x).pwr = d.pwr ∧ (d.setSens s x).scb = d.scb ∧ (d.setSens s x).jnl = d.jnl ∧ (d.setSens s x).hif = d.hif ∧
    (d.setSens s x).ing = d.ing ∧ (d.setSens s x).pfa = d.pfa ∧ (d.setSens s x).srt = d.srt ∧ (d.setSens s x).pac = d.pac ∧
    (d.setSens s x).osm = d.osm ∧ (d.setSens s x).isl = d.isl ∧ (d.setSens s x).alm = d.alm ∧ (d.setSens s x).egr = d.egr ∧
    (d.setSens s x).lmf = d.lmf ∧ (d.setSens s x).acq = d.acq ∧ (d.setSens s x).nrg = d.nrg ∧ (d.setSens s x).rxl = d.rxl ∧
    (d.setSens s x).rly = d.rly ∧ (d.setSens s x).key = d.key ∧ (d.setSens s x).mem = d.mem ∧ (d.setSens s x).out = d.out ∧
    (d.setSens s x).readHi = d.readHi ∧ (d.setSens s x).pba = d.pba ∧ (d.setSens s x).noted = d.noted ∧
    (d.setSens s x).lastRead = d.lastRead ∧ (d.setSens s x).free = d.free ∧ (∀ r j, (d.setSens s x).rg r j = d.rg r j) ∧
    (∀ y j, (d.setSens s x).f y j = d.f y j) ∧ (∀ y j, (d.setSens s x).fb y j = d.fb y j) ∧
    (∀ q, (d.setSens s x).blkRegs q = d.blkRegs q) := by
  and_intros <;> intros <;> rfl
@[simp] theorem Device.setReq_fields (d : Device) (x : XReq) :
   (d.setReq x).regs = d.regs ∧ (d.setReq x).tables = d.tables ∧ (d.setReq x).ddr = d.ddr ∧ (d.setReq x).tk = d.tk ∧
    (d.setReq x).pwr = d.pwr ∧ (d.setReq x).scb = d.scb ∧ (d.setReq x).jnl = d.jnl ∧ (d.setReq x).hif = d.hif ∧
    (d.setReq x).ing = d.ing ∧ (d.setReq x).pfa = d.pfa ∧ (d.setReq x).srt = d.srt ∧ (d.setReq x).pac = d.pac ∧
    (d.setReq x).osm = d.osm ∧ (d.setReq x).isl = d.isl ∧ (d.setReq x).alm = d.alm ∧ (d.setReq x).egr = d.egr ∧
    (d.setReq x).lmf = d.lmf ∧ (d.setReq x).acq = d.acq ∧ (d.setReq x).nrg = d.nrg ∧ (d.setReq x).rxl = d.rxl ∧
    (d.setReq x).rly = d.rly ∧ (d.setReq x).key = d.key ∧ (d.setReq x).mem = d.mem ∧ (d.setReq x).out = d.out ∧
    (d.setReq x).readHi = d.readHi ∧ (d.setReq x).pba = d.pba ∧ (d.setReq x).noted = d.noted ∧
    (d.setReq x).lastRead = d.lastRead ∧ (d.setReq x).free = d.free ∧ (∀ r j, (d.setReq x).rg r j = d.rg r j) ∧
    (∀ y j, (d.setReq x).f y j = d.f y j) ∧ (∀ y j, (d.setReq x).fb y j = d.fb y j) ∧ (∀ q, (d.setReq x).blkRegs q = d.blkRegs q) := by
  and_intros <;> intros <;> rfl
@[simp] theorem Device.setRly_fields (d : Device) (x : Rly) :
   (d.setRly x).rly = x ∧ (d.setRly x).regs = d.regs ∧ (d.setRly x).tables = d.tables ∧ (d.setRly x).ddr = d.ddr ∧
    (d.setRly x).tk = d.tk ∧ (d.setRly x).pwr = d.pwr ∧ (d.setRly x).scb = d.scb ∧ (d.setRly x).jnl = d.jnl ∧ (d.setRly x).hif = d.hif ∧
    (d.setRly x).ing = d.ing ∧ (d.setRly x).pfa = d.pfa ∧ (d.setRly x).srt = d.srt ∧ (d.setRly x).pac = d.pac ∧
    (d.setRly x).osm = d.osm ∧ (d.setRly x).isl = d.isl ∧ (d.setRly x).alm = d.alm ∧ (d.setRly x).egr = d.egr ∧
    (d.setRly x).lmf = d.lmf ∧ (d.setRly x).acq = d.acq ∧ (d.setRly x).nrg = d.nrg ∧ (d.setRly x).rxl = d.rxl ∧
    (d.setRly x).key = d.key ∧ (d.setRly x).mem = d.mem ∧ (d.setRly x).xcr = d.xcr ∧ (d.setRly x).out = d.out ∧
    (d.setRly x).readHi = d.readHi ∧ (d.setRly x).pba = d.pba ∧ (d.setRly x).noted = d.noted ∧
    (d.setRly x).lastRead = d.lastRead ∧ (d.setRly x).free = d.free ∧ (∀ r j, (d.setRly x).rg r j = d.rg r j) ∧
    (∀ y j, (d.setRly x).f y j = d.f y j) ∧ (∀ y j, (d.setRly x).fb y j = d.fb y j) ∧ (∀ q, (d.setRly x).blkRegs q = d.blkRegs q) := by
  and_intros <;> intros <;> rfl
@[simp] theorem Device.setPwr_fields (d : Device) (x : Pwr) :
   (d.setPwr x).pwr = x ∧ (d.setPwr x).regs = d.regs ∧ (d.setPwr x).tables = d.tables ∧ (d.setPwr x).ddr = d.ddr ∧
    (d.setPwr x).tk = d.tk ∧ (d.setPwr x).scb = d.scb ∧ (d.setPwr x).jnl = d.jnl ∧ (d.setPwr x).hif = d.hif ∧ (d.setPwr x).ing = d.ing ∧
    (d.setPwr x).pfa = d.pfa ∧ (d.setPwr x).srt = d.srt ∧ (d.setPwr x).pac = d.pac ∧ (d.setPwr x).osm = d.osm ∧
    (d.setPwr x).isl = d.isl ∧ (d.setPwr x).alm = d.alm ∧ (d.setPwr x).egr = d.egr ∧ (d.setPwr x).lmf = d.lmf ∧
    (d.setPwr x).acq = d.acq ∧ (d.setPwr x).nrg = d.nrg ∧ (d.setPwr x).rxl = d.rxl ∧ (d.setPwr x).rly = d.rly ∧
    (d.setPwr x).key = d.key ∧ (d.setPwr x).mem = d.mem ∧ (d.setPwr x).xcr = d.xcr ∧ (d.setPwr x).out = d.out ∧
    (d.setPwr x).readHi = d.readHi ∧ (d.setPwr x).pba = d.pba ∧ (d.setPwr x).noted = d.noted ∧
    (d.setPwr x).lastRead = d.lastRead ∧ (d.setPwr x).free = d.free ∧ (∀ r j, (d.setPwr x).rg r j = d.rg r j) ∧
    (∀ y j, (d.setPwr x).f y j = d.f y j) ∧ (∀ y j, (d.setPwr x).fb y j = d.fb y j) ∧ (∀ q, (d.setPwr x).blkRegs q = d.blkRegs q) := by
  and_intros <;> intros <;> rfl
@[simp] theorem Device.setJnl_fields (d : Device) (x : Jnl) :
   (d.setJnl x).jnl = x ∧ (d.setJnl x).regs = d.regs ∧ (d.setJnl x).tables = d.tables ∧ (d.setJnl x).ddr = d.ddr ∧
    (d.setJnl x).tk = d.tk ∧ (d.setJnl x).pwr = d.pwr ∧ (d.setJnl x).scb = d.scb ∧ (d.setJnl x).hif = d.hif ∧ (d.setJnl x).ing = d.ing ∧
    (d.setJnl x).pfa = d.pfa ∧ (d.setJnl x).srt = d.srt ∧ (d.setJnl x).pac = d.pac ∧ (d.setJnl x).osm = d.osm ∧
    (d.setJnl x).isl = d.isl ∧ (d.setJnl x).alm = d.alm ∧ (d.setJnl x).egr = d.egr ∧ (d.setJnl x).lmf = d.lmf ∧
    (d.setJnl x).acq = d.acq ∧ (d.setJnl x).nrg = d.nrg ∧ (d.setJnl x).rxl = d.rxl ∧ (d.setJnl x).rly = d.rly ∧
    (d.setJnl x).key = d.key ∧ (d.setJnl x).mem = d.mem ∧ (d.setJnl x).xcr = d.xcr ∧ (d.setJnl x).out = d.out ∧
    (d.setJnl x).readHi = d.readHi ∧ (d.setJnl x).pba = d.pba ∧ (d.setJnl x).noted = d.noted ∧
    (d.setJnl x).lastRead = d.lastRead ∧ (d.setJnl x).free = d.free ∧ (∀ r j, (d.setJnl x).rg r j = d.rg r j) ∧
    (∀ y j, (d.setJnl x).f y j = d.f y j) ∧ (∀ y j, (d.setJnl x).fb y j = d.fb y j) ∧ (∀ q, (d.setJnl x).blkRegs q = d.blkRegs q) := by
  and_intros <;> intros <;> rfl
@[simp] theorem Device.setRxl_fields (d : Device) (x : Rxl) :
   (d.setRxl x).rxl = x ∧ (d.setRxl x).regs = d.regs ∧ (d.setRxl x).tables = d.tables ∧ (d.setRxl x).ddr = d.ddr ∧
    (d.setRxl x).tk = d.tk ∧ (d.setRxl x).pwr = d.pwr ∧ (d.setRxl x).scb = d.scb ∧ (d.setRxl x).jnl = d.jnl ∧ (d.setRxl x).hif = d.hif ∧
    (d.setRxl x).ing = d.ing ∧ (d.setRxl x).pfa = d.pfa ∧ (d.setRxl x).srt = d.srt ∧ (d.setRxl x).pac = d.pac ∧
    (d.setRxl x).osm = d.osm ∧ (d.setRxl x).isl = d.isl ∧ (d.setRxl x).alm = d.alm ∧ (d.setRxl x).egr = d.egr ∧
    (d.setRxl x).lmf = d.lmf ∧ (d.setRxl x).acq = d.acq ∧ (d.setRxl x).nrg = d.nrg ∧ (d.setRxl x).rly = d.rly ∧
    (d.setRxl x).key = d.key ∧ (d.setRxl x).mem = d.mem ∧ (d.setRxl x).xcr = d.xcr ∧ (d.setRxl x).out = d.out ∧
    (d.setRxl x).readHi = d.readHi ∧ (d.setRxl x).pba = d.pba ∧ (d.setRxl x).noted = d.noted ∧
    (d.setRxl x).lastRead = d.lastRead ∧ (d.setRxl x).free = d.free ∧ (∀ r j, (d.setRxl x).rg r j = d.rg r j) ∧
    (∀ y j, (d.setRxl x).f y j = d.f y j) ∧ (∀ y j, (d.setRxl x).fb y j = d.fb y j) ∧ (∀ q, (d.setRxl x).blkRegs q = d.blkRegs q) := by
  and_intros <;> intros <;> rfl
@[simp] theorem Device.setLink_fields (d : Device) (l : Nat) (x : LinkSt) :
   (d.setLink l x).regs = d.regs ∧ (d.setLink l x).tables = d.tables ∧ (d.setLink l x).ddr = d.ddr ∧ (d.setLink l x).tk = d.tk ∧
    (d.setLink l x).pwr = d.pwr ∧ (d.setLink l x).scb = d.scb ∧ (d.setLink l x).jnl = d.jnl ∧ (d.setLink l x).hif = d.hif ∧
    (d.setLink l x).ing = d.ing ∧ (d.setLink l x).pfa = d.pfa ∧ (d.setLink l x).srt = d.srt ∧ (d.setLink l x).pac = d.pac ∧
    (d.setLink l x).osm = d.osm ∧ (d.setLink l x).isl = d.isl ∧ (d.setLink l x).alm = d.alm ∧ (d.setLink l x).egr = d.egr ∧
    (d.setLink l x).lmf = d.lmf ∧ (d.setLink l x).acq = d.acq ∧ (d.setLink l x).nrg = d.nrg ∧ (d.setLink l x).rly = d.rly ∧
    (d.setLink l x).key = d.key ∧ (d.setLink l x).mem = d.mem ∧ (d.setLink l x).xcr = d.xcr ∧ (d.setLink l x).out = d.out ∧
    (d.setLink l x).readHi = d.readHi ∧ (d.setLink l x).pba = d.pba ∧ (d.setLink l x).noted = d.noted ∧
    (d.setLink l x).lastRead = d.lastRead ∧ (d.setLink l x).free = d.free ∧ (∀ r j, (d.setLink l x).rg r j = d.rg r j) ∧
    (∀ y j, (d.setLink l x).f y j = d.f y j) ∧ (∀ y j, (d.setLink l x).fb y j = d.fb y j) ∧
    (∀ q, (d.setLink l x).blkRegs q = d.blkRegs q) := by
  and_intros <;> intros <;> rfl
@[simp] theorem Device.setPeer_fields (d : Device) (i : Nat) (x : PeerSt) :
   (d.setPeer i x).regs = d.regs ∧ (d.setPeer i x).tables = d.tables ∧ (d.setPeer i x).ddr = d.ddr ∧ (d.setPeer i x).tk = d.tk ∧
    (d.setPeer i x).pwr = d.pwr ∧ (d.setPeer i x).scb = d.scb ∧ (d.setPeer i x).jnl = d.jnl ∧ (d.setPeer i x).hif = d.hif ∧
    (d.setPeer i x).ing = d.ing ∧ (d.setPeer i x).pfa = d.pfa ∧ (d.setPeer i x).srt = d.srt ∧ (d.setPeer i x).pac = d.pac ∧
    (d.setPeer i x).osm = d.osm ∧ (d.setPeer i x).isl = d.isl ∧ (d.setPeer i x).alm = d.alm ∧ (d.setPeer i x).egr = d.egr ∧
    (d.setPeer i x).lmf = d.lmf ∧ (d.setPeer i x).acq = d.acq ∧ (d.setPeer i x).nrg = d.nrg ∧ (d.setPeer i x).rly = d.rly ∧
    (d.setPeer i x).key = d.key ∧ (d.setPeer i x).mem = d.mem ∧ (d.setPeer i x).xcr = d.xcr ∧ (d.setPeer i x).out = d.out ∧
    (d.setPeer i x).readHi = d.readHi ∧ (d.setPeer i x).pba = d.pba ∧ (d.setPeer i x).noted = d.noted ∧
    (d.setPeer i x).lastRead = d.lastRead ∧ (d.setPeer i x).free = d.free ∧ (∀ r j, (d.setPeer i x).rg r j = d.rg r j) ∧
    (∀ y j, (d.setPeer i x).f y j = d.f y j) ∧ (∀ y j, (d.setPeer i x).fb y j = d.fb y j) ∧
    (∀ q, (d.setPeer i x).blkRegs q = d.blkRegs q) := by
  and_intros <;> intros <;> rfl
@[simp] theorem Device.setHold_fields (d : Device) (l : Nat) (x : HoldSt) :
   (d.setHold l x).regs = d.regs ∧ (d.setHold l x).tables = d.tables ∧ (d.setHold l x).ddr = d.ddr ∧ (d.setHold l x).tk = d.tk ∧
    (d.setHold l x).pwr = d.pwr ∧ (d.setHold l x).scb = d.scb ∧ (d.setHold l x).jnl = d.jnl ∧ (d.setHold l x).hif = d.hif ∧
    (d.setHold l x).ing = d.ing ∧ (d.setHold l x).pfa = d.pfa ∧ (d.setHold l x).srt = d.srt ∧ (d.setHold l x).pac = d.pac ∧
    (d.setHold l x).osm = d.osm ∧ (d.setHold l x).isl = d.isl ∧ (d.setHold l x).alm = d.alm ∧ (d.setHold l x).egr = d.egr ∧
    (d.setHold l x).lmf = d.lmf ∧ (d.setHold l x).acq = d.acq ∧ (d.setHold l x).nrg = d.nrg ∧ (d.setHold l x).rly = d.rly ∧
    (d.setHold l x).key = d.key ∧ (d.setHold l x).mem = d.mem ∧ (d.setHold l x).xcr = d.xcr ∧ (d.setHold l x).out = d.out ∧
    (d.setHold l x).readHi = d.readHi ∧ (d.setHold l x).pba = d.pba ∧ (d.setHold l x).noted = d.noted ∧
    (d.setHold l x).lastRead = d.lastRead ∧ (d.setHold l x).free = d.free ∧ (∀ r j, (d.setHold l x).rg r j = d.rg r j) ∧
    (∀ y j, (d.setHold l x).f y j = d.f y j) ∧ (∀ y j, (d.setHold l x).fb y j = d.fb y j) ∧
    (∀ q, (d.setHold l x).blkRegs q = d.blkRegs q) := by
  and_intros <;> intros <;> rfl
@[simp] theorem Device.setSrt_fields (d : Device) (x : Srt) :
   (d.setSrt x).srt = x ∧ (d.setSrt x).regs = d.regs ∧ (d.setSrt x).tables = d.tables ∧ (d.setSrt x).ddr = d.ddr ∧
    (d.setSrt x).tk = d.tk ∧ (d.setSrt x).pwr = d.pwr ∧ (d.setSrt x).scb = d.scb ∧ (d.setSrt x).jnl = d.jnl ∧ (d.setSrt x).hif = d.hif ∧
    (d.setSrt x).ing = d.ing ∧ (d.setSrt x).pfa = d.pfa ∧ (d.setSrt x).pac = d.pac ∧ (d.setSrt x).osm = d.osm ∧
    (d.setSrt x).isl = d.isl ∧ (d.setSrt x).alm = d.alm ∧ (d.setSrt x).egr = d.egr ∧ (d.setSrt x).lmf = d.lmf ∧
    (d.setSrt x).acq = d.acq ∧ (d.setSrt x).nrg = d.nrg ∧ (d.setSrt x).rxl = d.rxl ∧ (d.setSrt x).rly = d.rly ∧
    (d.setSrt x).key = d.key ∧ (d.setSrt x).mem = d.mem ∧ (d.setSrt x).xcr = d.xcr ∧ (d.setSrt x).out = d.out ∧
    (d.setSrt x).readHi = d.readHi ∧ (d.setSrt x).pba = d.pba ∧ (d.setSrt x).noted = d.noted ∧
    (d.setSrt x).lastRead = d.lastRead ∧ (d.setSrt x).free = d.free ∧ (∀ r j, (d.setSrt x).rg r j = d.rg r j) ∧
    (∀ y j, (d.setSrt x).f y j = d.f y j) ∧ (∀ y j, (d.setSrt x).fb y j = d.fb y j) ∧ (∀ q, (d.setSrt x).blkRegs q = d.blkRegs q) := by
  and_intros <;> intros <;> rfl
@[simp] theorem Device.setPac_fields (d : Device) (x : Pac) :
   (d.setPac x).pac = x ∧ (d.setPac x).regs = d.regs ∧ (d.setPac x).tables = d.tables ∧ (d.setPac x).ddr = d.ddr ∧
    (d.setPac x).tk = d.tk ∧ (d.setPac x).pwr = d.pwr ∧ (d.setPac x).scb = d.scb ∧ (d.setPac x).jnl = d.jnl ∧ (d.setPac x).hif = d.hif ∧
    (d.setPac x).ing = d.ing ∧ (d.setPac x).pfa = d.pfa ∧ (d.setPac x).srt = d.srt ∧ (d.setPac x).osm = d.osm ∧
    (d.setPac x).isl = d.isl ∧ (d.setPac x).alm = d.alm ∧ (d.setPac x).egr = d.egr ∧ (d.setPac x).lmf = d.lmf ∧
    (d.setPac x).acq = d.acq ∧ (d.setPac x).nrg = d.nrg ∧ (d.setPac x).rxl = d.rxl ∧ (d.setPac x).rly = d.rly ∧
    (d.setPac x).key = d.key ∧ (d.setPac x).mem = d.mem ∧ (d.setPac x).xcr = d.xcr ∧ (d.setPac x).out = d.out ∧
    (d.setPac x).readHi = d.readHi ∧ (d.setPac x).pba = d.pba ∧ (d.setPac x).noted = d.noted ∧
    (d.setPac x).lastRead = d.lastRead ∧ (d.setPac x).free = d.free ∧ (∀ r j, (d.setPac x).rg r j = d.rg r j) ∧
    (∀ y j, (d.setPac x).f y j = d.f y j) ∧ (∀ y j, (d.setPac x).fb y j = d.fb y j) ∧ (∀ q, (d.setPac x).blkRegs q = d.blkRegs q) := by
  and_intros <;> intros <;> rfl
@[simp] theorem Device.setOsm_fields (d : Device) (x : Osm) :
   (d.setOsm x).osm = x ∧ (d.setOsm x).regs = d.regs ∧ (d.setOsm x).tables = d.tables ∧ (d.setOsm x).ddr = d.ddr ∧
    (d.setOsm x).tk = d.tk ∧ (d.setOsm x).pwr = d.pwr ∧ (d.setOsm x).scb = d.scb ∧ (d.setOsm x).jnl = d.jnl ∧ (d.setOsm x).hif = d.hif ∧
    (d.setOsm x).ing = d.ing ∧ (d.setOsm x).pfa = d.pfa ∧ (d.setOsm x).srt = d.srt ∧ (d.setOsm x).pac = d.pac ∧
    (d.setOsm x).isl = d.isl ∧ (d.setOsm x).alm = d.alm ∧ (d.setOsm x).egr = d.egr ∧ (d.setOsm x).lmf = d.lmf ∧
    (d.setOsm x).acq = d.acq ∧ (d.setOsm x).nrg = d.nrg ∧ (d.setOsm x).rxl = d.rxl ∧ (d.setOsm x).rly = d.rly ∧
    (d.setOsm x).key = d.key ∧ (d.setOsm x).mem = d.mem ∧ (d.setOsm x).xcr = d.xcr ∧ (d.setOsm x).out = d.out ∧
    (d.setOsm x).readHi = d.readHi ∧ (d.setOsm x).pba = d.pba ∧ (d.setOsm x).noted = d.noted ∧
    (d.setOsm x).lastRead = d.lastRead ∧ (d.setOsm x).free = d.free ∧ (∀ r j, (d.setOsm x).rg r j = d.rg r j) ∧
    (∀ y j, (d.setOsm x).f y j = d.f y j) ∧ (∀ y j, (d.setOsm x).fb y j = d.fb y j) ∧ (∀ q, (d.setOsm x).blkRegs q = d.blkRegs q) := by
  and_intros <;> intros <;> rfl
@[simp] theorem Device.setIsl_fields (d : Device) (x : Isl) :
   (d.setIsl x).isl = x ∧ (d.setIsl x).regs = d.regs ∧ (d.setIsl x).tables = d.tables ∧ (d.setIsl x).ddr = d.ddr ∧
    (d.setIsl x).tk = d.tk ∧ (d.setIsl x).pwr = d.pwr ∧ (d.setIsl x).scb = d.scb ∧ (d.setIsl x).jnl = d.jnl ∧ (d.setIsl x).hif = d.hif ∧
    (d.setIsl x).ing = d.ing ∧ (d.setIsl x).pfa = d.pfa ∧ (d.setIsl x).srt = d.srt ∧ (d.setIsl x).pac = d.pac ∧
    (d.setIsl x).osm = d.osm ∧ (d.setIsl x).alm = d.alm ∧ (d.setIsl x).egr = d.egr ∧ (d.setIsl x).lmf = d.lmf ∧
    (d.setIsl x).acq = d.acq ∧ (d.setIsl x).nrg = d.nrg ∧ (d.setIsl x).rxl = d.rxl ∧ (d.setIsl x).rly = d.rly ∧
    (d.setIsl x).key = d.key ∧ (d.setIsl x).mem = d.mem ∧ (d.setIsl x).xcr = d.xcr ∧ (d.setIsl x).out = d.out ∧
    (d.setIsl x).readHi = d.readHi ∧ (d.setIsl x).pba = d.pba ∧ (d.setIsl x).noted = d.noted ∧
    (d.setIsl x).lastRead = d.lastRead ∧ (d.setIsl x).free = d.free ∧ (∀ r j, (d.setIsl x).rg r j = d.rg r j) ∧
    (∀ y j, (d.setIsl x).f y j = d.f y j) ∧ (∀ y j, (d.setIsl x).fb y j = d.fb y j) ∧ (∀ q, (d.setIsl x).blkRegs q = d.blkRegs q) := by
  and_intros <;> intros <;> rfl
@[simp] theorem Device.setTk_fields (d : Device) (x : Tk) :
   (d.setTk x).tk = x ∧ (d.setTk x).regs = d.regs ∧ (d.setTk x).tables = d.tables ∧ (d.setTk x).ddr = d.ddr ∧ (d.setTk x).pwr = d.pwr ∧
    (d.setTk x).scb = d.scb ∧ (d.setTk x).jnl = d.jnl ∧ (d.setTk x).hif = d.hif ∧ (d.setTk x).ing = d.ing ∧ (d.setTk x).pfa = d.pfa ∧
    (d.setTk x).srt = d.srt ∧ (d.setTk x).pac = d.pac ∧ (d.setTk x).osm = d.osm ∧ (d.setTk x).isl = d.isl ∧ (d.setTk x).alm = d.alm ∧
    (d.setTk x).egr = d.egr ∧ (d.setTk x).lmf = d.lmf ∧ (d.setTk x).acq = d.acq ∧ (d.setTk x).nrg = d.nrg ∧ (d.setTk x).rxl = d.rxl ∧
    (d.setTk x).rly = d.rly ∧ (d.setTk x).key = d.key ∧ (d.setTk x).mem = d.mem ∧ (d.setTk x).xcr = d.xcr ∧ (d.setTk x).out = d.out ∧
    (d.setTk x).readHi = d.readHi ∧ (d.setTk x).pba = d.pba ∧ (d.setTk x).noted = d.noted ∧
    (d.setTk x).lastRead = d.lastRead ∧ (d.setTk x).free = d.free ∧ (∀ r j, (d.setTk x).rg r j = d.rg r j) ∧
    (∀ y j, (d.setTk x).f y j = d.f y j) ∧ (∀ y j, (d.setTk x).fb y j = d.fb y j) ∧ (∀ q, (d.setTk x).blkRegs q = d.blkRegs q) := by
  and_intros <;> intros <;> rfl
@[simp] theorem Device.setSrc_fields (d : Device) (k : Nat) (x : TkSrc) :
   (d.setSrc k x).regs = d.regs ∧ (d.setSrc k x).tables = d.tables ∧ (d.setSrc k x).ddr = d.ddr ∧ (d.setSrc k x).pwr = d.pwr ∧
    (d.setSrc k x).scb = d.scb ∧ (d.setSrc k x).jnl = d.jnl ∧ (d.setSrc k x).hif = d.hif ∧ (d.setSrc k x).ing = d.ing ∧
    (d.setSrc k x).pfa = d.pfa ∧ (d.setSrc k x).srt = d.srt ∧ (d.setSrc k x).pac = d.pac ∧ (d.setSrc k x).osm = d.osm ∧
    (d.setSrc k x).isl = d.isl ∧ (d.setSrc k x).alm = d.alm ∧ (d.setSrc k x).egr = d.egr ∧ (d.setSrc k x).lmf = d.lmf ∧
    (d.setSrc k x).acq = d.acq ∧ (d.setSrc k x).nrg = d.nrg ∧ (d.setSrc k x).rxl = d.rxl ∧ (d.setSrc k x).rly = d.rly ∧
    (d.setSrc k x).key = d.key ∧ (d.setSrc k x).mem = d.mem ∧ (d.setSrc k x).xcr = d.xcr ∧ (d.setSrc k x).out = d.out ∧
    (d.setSrc k x).readHi = d.readHi ∧ (d.setSrc k x).pba = d.pba ∧ (d.setSrc k x).noted = d.noted ∧
    (d.setSrc k x).lastRead = d.lastRead ∧ (d.setSrc k x).free = d.free ∧ (∀ r j, (d.setSrc k x).rg r j = d.rg r j) ∧
    (∀ y j, (d.setSrc k x).f y j = d.f y j) ∧ (∀ y j, (d.setSrc k x).fb y j = d.fb y j) ∧ (∀ q, (d.setSrc k x).blkRegs q = d.blkRegs q) := by
  and_intros <;> intros <;> rfl
@[simp] theorem Device.setPtp_fields (d : Device) (p : Nat) (x : PtpPort) :
   (d.setPtp p x).regs = d.regs ∧ (d.setPtp p x).tables = d.tables ∧ (d.setPtp p x).ddr = d.ddr ∧ (d.setPtp p x).pwr = d.pwr ∧
    (d.setPtp p x).scb = d.scb ∧ (d.setPtp p x).jnl = d.jnl ∧ (d.setPtp p x).hif = d.hif ∧ (d.setPtp p x).ing = d.ing ∧
    (d.setPtp p x).pfa = d.pfa ∧ (d.setPtp p x).srt = d.srt ∧ (d.setPtp p x).pac = d.pac ∧ (d.setPtp p x).osm = d.osm ∧
    (d.setPtp p x).isl = d.isl ∧ (d.setPtp p x).alm = d.alm ∧ (d.setPtp p x).egr = d.egr ∧ (d.setPtp p x).lmf = d.lmf ∧
    (d.setPtp p x).acq = d.acq ∧ (d.setPtp p x).nrg = d.nrg ∧ (d.setPtp p x).rxl = d.rxl ∧ (d.setPtp p x).rly = d.rly ∧
    (d.setPtp p x).key = d.key ∧ (d.setPtp p x).mem = d.mem ∧ (d.setPtp p x).xcr = d.xcr ∧ (d.setPtp p x).out = d.out ∧
    (d.setPtp p x).readHi = d.readHi ∧ (d.setPtp p x).pba = d.pba ∧ (d.setPtp p x).noted = d.noted ∧
    (d.setPtp p x).lastRead = d.lastRead ∧ (d.setPtp p x).free = d.free ∧ (∀ r j, (d.setPtp p x).rg r j = d.rg r j) ∧
    (∀ y j, (d.setPtp p x).f y j = d.f y j) ∧ (∀ y j, (d.setPtp p x).fb y j = d.fb y j) ∧ (∀ q, (d.setPtp p x).blkRegs q = d.blkRegs q) := by
  and_intros <;> intros <;> rfl
@[simp] theorem Device.setPtx_fields (d : Device) (p : Nat) (x : PortTx) :
   (d.setPtx p x).regs = d.regs ∧ (d.setPtx p x).tables = d.tables ∧ (d.setPtx p x).ddr = d.ddr ∧ (d.setPtx p x).tk = d.tk ∧
    (d.setPtx p x).pwr = d.pwr ∧ (d.setPtx p x).scb = d.scb ∧ (d.setPtx p x).jnl = d.jnl ∧ (d.setPtx p x).hif = d.hif ∧
    (d.setPtx p x).ing = d.ing ∧ (d.setPtx p x).pfa = d.pfa ∧ (d.setPtx p x).srt = d.srt ∧ (d.setPtx p x).pac = d.pac ∧
    (d.setPtx p x).osm = d.osm ∧ (d.setPtx p x).isl = d.isl ∧ (d.setPtx p x).alm = d.alm ∧ (d.setPtx p x).lmf = d.lmf ∧
    (d.setPtx p x).acq = d.acq ∧ (d.setPtx p x).nrg = d.nrg ∧ (d.setPtx p x).rxl = d.rxl ∧ (d.setPtx p x).rly = d.rly ∧
    (d.setPtx p x).key = d.key ∧ (d.setPtx p x).mem = d.mem ∧ (d.setPtx p x).xcr = d.xcr ∧ (d.setPtx p x).out = d.out ∧
    (d.setPtx p x).readHi = d.readHi ∧ (d.setPtx p x).pba = d.pba ∧ (d.setPtx p x).noted = d.noted ∧
    (d.setPtx p x).lastRead = d.lastRead ∧ (d.setPtx p x).free = d.free ∧ (∀ r j, (d.setPtx p x).rg r j = d.rg r j) ∧
    (∀ y j, (d.setPtx p x).f y j = d.f y j) ∧ (∀ y j, (d.setPtx p x).fb y j = d.fb y j) ∧ (∀ q, (d.setPtx p x).blkRegs q = d.blkRegs q) := by
  and_intros <;> intros <;> rfl
@[simp] theorem Device.putReg_fields (d : Device) (b k : Nat) (v : Word) :
   (d.putReg b k v).tables = d.tables ∧ (d.putReg b k v).ddr = d.ddr ∧ (d.putReg b k v).tk = d.tk ∧ (d.putReg b k v).pwr = d.pwr ∧
    (d.putReg b k v).scb = d.scb ∧ (d.putReg b k v).jnl = d.jnl ∧ (d.putReg b k v).hif = d.hif ∧ (d.putReg b k v).ing = d.ing ∧
    (d.putReg b k v).pfa = d.pfa ∧ (d.putReg b k v).srt = d.srt ∧ (d.putReg b k v).pac = d.pac ∧ (d.putReg b k v).osm = d.osm ∧
    (d.putReg b k v).isl = d.isl ∧ (d.putReg b k v).alm = d.alm ∧ (d.putReg b k v).egr = d.egr ∧ (d.putReg b k v).lmf = d.lmf ∧
    (d.putReg b k v).acq = d.acq ∧ (d.putReg b k v).nrg = d.nrg ∧ (d.putReg b k v).rxl = d.rxl ∧ (d.putReg b k v).rly = d.rly ∧
    (d.putReg b k v).key = d.key ∧ (d.putReg b k v).mem = d.mem ∧ (d.putReg b k v).xcr = d.xcr ∧ (d.putReg b k v).out = d.out ∧
    (d.putReg b k v).readHi = d.readHi ∧ (d.putReg b k v).pba = d.pba ∧ (d.putReg b k v).noted = d.noted ∧
    (d.putReg b k v).lastRead = d.lastRead ∧ (d.putReg b k v).free = d.free := by
  and_intros <;> intros <;> rfl
@[simp] theorem Device.wr_fields (d : Device) (r : RegDef) (i : Nat) (v : Word) :
   (d.wr r i v).tables = d.tables ∧ (d.wr r i v).ddr = d.ddr ∧ (d.wr r i v).tk = d.tk ∧ (d.wr r i v).pwr = d.pwr ∧
    (d.wr r i v).scb = d.scb ∧ (d.wr r i v).jnl = d.jnl ∧ (d.wr r i v).hif = d.hif ∧ (d.wr r i v).ing = d.ing ∧
    (d.wr r i v).pfa = d.pfa ∧ (d.wr r i v).srt = d.srt ∧ (d.wr r i v).pac = d.pac ∧ (d.wr r i v).osm = d.osm ∧
    (d.wr r i v).isl = d.isl ∧ (d.wr r i v).alm = d.alm ∧ (d.wr r i v).egr = d.egr ∧ (d.wr r i v).lmf = d.lmf ∧
    (d.wr r i v).acq = d.acq ∧ (d.wr r i v).nrg = d.nrg ∧ (d.wr r i v).rxl = d.rxl ∧ (d.wr r i v).rly = d.rly ∧
    (d.wr r i v).key = d.key ∧ (d.wr r i v).mem = d.mem ∧ (d.wr r i v).xcr = d.xcr ∧ (d.wr r i v).out = d.out ∧
    (d.wr r i v).readHi = d.readHi ∧ (d.wr r i v).pba = d.pba ∧ (d.wr r i v).noted = d.noted ∧
    (d.wr r i v).lastRead = d.lastRead ∧ (d.wr r i v).free = d.free := by
  and_intros <;> intros <;> rfl
@[simp] theorem Device.setf_fields (d : Device) (x : RF) (v i : Nat) :
   (d.setf x v i).tables = d.tables ∧ (d.setf x v i).ddr = d.ddr ∧ (d.setf x v i).tk = d.tk ∧ (d.setf x v i).pwr = d.pwr ∧
    (d.setf x v i).scb = d.scb ∧ (d.setf x v i).jnl = d.jnl ∧ (d.setf x v i).hif = d.hif ∧ (d.setf x v i).ing = d.ing ∧
    (d.setf x v i).pfa = d.pfa ∧ (d.setf x v i).srt = d.srt ∧ (d.setf x v i).pac = d.pac ∧ (d.setf x v i).osm = d.osm ∧
    (d.setf x v i).isl = d.isl ∧ (d.setf x v i).alm = d.alm ∧ (d.setf x v i).egr = d.egr ∧ (d.setf x v i).lmf = d.lmf ∧
    (d.setf x v i).acq = d.acq ∧ (d.setf x v i).nrg = d.nrg ∧ (d.setf x v i).rxl = d.rxl ∧ (d.setf x v i).rly = d.rly ∧
    (d.setf x v i).key = d.key ∧ (d.setf x v i).mem = d.mem ∧ (d.setf x v i).xcr = d.xcr ∧ (d.setf x v i).out = d.out ∧
    (d.setf x v i).readHi = d.readHi ∧ (d.setf x v i).pba = d.pba ∧ (d.setf x v i).noted = d.noted ∧
    (d.setf x v i).lastRead = d.lastRead ∧ (d.setf x v i).free = d.free := by
  and_intros <;> intros <;> rfl
@[simp] theorem Device.err_fields (d : Device) (x y : RF) (v i : Nat) :
   (d.err x y v i).tables = d.tables ∧ (d.err x y v i).ddr = d.ddr ∧ (d.err x y v i).tk = d.tk ∧ (d.err x y v i).pwr = d.pwr ∧
    (d.err x y v i).scb = d.scb ∧ (d.err x y v i).jnl = d.jnl ∧ (d.err x y v i).hif = d.hif ∧ (d.err x y v i).ing = d.ing ∧
    (d.err x y v i).pfa = d.pfa ∧ (d.err x y v i).srt = d.srt ∧ (d.err x y v i).pac = d.pac ∧ (d.err x y v i).osm = d.osm ∧
    (d.err x y v i).isl = d.isl ∧ (d.err x y v i).alm = d.alm ∧ (d.err x y v i).egr = d.egr ∧ (d.err x y v i).lmf = d.lmf ∧
    (d.err x y v i).acq = d.acq ∧ (d.err x y v i).nrg = d.nrg ∧ (d.err x y v i).rxl = d.rxl ∧ (d.err x y v i).rly = d.rly ∧
    (d.err x y v i).key = d.key ∧ (d.err x y v i).mem = d.mem ∧ (d.err x y v i).xcr = d.xcr ∧ (d.err x y v i).out = d.out ∧
    (d.err x y v i).readHi = d.readHi ∧ (d.err x y v i).pba = d.pba ∧ (d.err x y v i).noted = d.noted ∧
    (d.err x y v i).lastRead = d.lastRead ∧ (d.err x y v i).free = d.free := by
  and_intros <;> intros <;> rfl
@[simp] theorem Device.emit_fields (d : Device) (x : Output) :
   (d.emit x).regs = d.regs ∧ (d.emit x).tables = d.tables ∧ (d.emit x).ddr = d.ddr ∧ (d.emit x).tk = d.tk ∧ (d.emit x).pwr = d.pwr ∧
    (d.emit x).scb = d.scb ∧ (d.emit x).jnl = d.jnl ∧ (d.emit x).hif = d.hif ∧ (d.emit x).ing = d.ing ∧ (d.emit x).pfa = d.pfa ∧
    (d.emit x).srt = d.srt ∧ (d.emit x).pac = d.pac ∧ (d.emit x).osm = d.osm ∧ (d.emit x).isl = d.isl ∧ (d.emit x).alm = d.alm ∧
    (d.emit x).egr = d.egr ∧ (d.emit x).lmf = d.lmf ∧ (d.emit x).acq = d.acq ∧ (d.emit x).nrg = d.nrg ∧ (d.emit x).rxl = d.rxl ∧
    (d.emit x).rly = d.rly ∧ (d.emit x).key = d.key ∧ (d.emit x).mem = d.mem ∧ (d.emit x).xcr = d.xcr ∧
    (d.emit x).readHi = d.readHi ∧ (d.emit x).pba = d.pba ∧ (d.emit x).noted = d.noted ∧
    (d.emit x).lastRead = d.lastRead ∧ (d.emit x).free = d.free ∧ (∀ r j, (d.emit x).rg r j = d.rg r j) ∧
    (∀ y j, (d.emit x).f y j = d.f y j) ∧ (∀ y j, (d.emit x).fb y j = d.fb y j) ∧ (∀ q, (d.emit x).blkRegs q = d.blkRegs q) := by
  and_intros <;> intros <;> rfl
/-- While no injection is armed and no word is marked, nothing is noted. -/
theorem Device.note_quiet {d : Device} (hi : d.injArmed = false) (hb : d.mem.bad = []) :
    (∀ arr locs, d.noteWrite arr locs = d.noted) ∧ (∀ a n, d.noteBursts a n = d.noted) ∧ (∀ arr loc, d.noteRead arr loc = d) := by
  have hw : d.watched = false := by simp [Device.watched, hi, hb]
  refine ⟨fun _ _ => ?_, fun _ _ => ?_, fun _ _ => ?_⟩
  · simp [Device.noteWrite, hw]
  · simp [Device.noteBursts, hw]
  · simp [Device.noteRead, hb]
theorem Device.ddrWrite_noted {d : Device} (hi : d.injArmed = false) (hb : d.mem.bad = []) (a : Nat) (b : List Byte) :
    (d.ddrWrite a b).noted = d.noted := (Device.note_quiet hi hb).2.1 a b.length
theorem Device.setEnt_noted {d : Device} (hi : d.injArmed = false) (hb : d.mem.bad = []) (t pos : Nat) (x : List Word) (i : Nat) :
    (d.setEnt t pos x i).noted = d.noted := by
  show (if narrowTab t then d.noted else d.noteWrite 12 _) = d.noted
  rw [(Device.note_quiet hi hb).1]
  exact ite_self _
@[simp] theorem Device.ddrWrite_fields (d : Device) (a : Nat) (b : List Byte) :
   (d.ddrWrite a b).regs = d.regs ∧ (d.ddrWrite a b).tables = d.tables ∧ (d.ddrWrite a b).tk = d.tk ∧ (d.ddrWrite a b).pwr = d.pwr ∧
    (d.ddrWrite a b).scb = d.scb ∧ (d.ddrWrite a b).jnl = d.jnl ∧ (d.ddrWrite a b).hif = d.hif ∧ (d.ddrWrite a b).ing = d.ing ∧
    (d.ddrWrite a b).pfa = d.pfa ∧ (d.ddrWrite a b).srt = d.srt ∧ (d.ddrWrite a b).pac = d.pac ∧ (d.ddrWrite a b).osm = d.osm ∧
    (d.ddrWrite a b).isl = d.isl ∧ (d.ddrWrite a b).alm = d.alm ∧ (d.ddrWrite a b).egr = d.egr ∧ (d.ddrWrite a b).lmf = d.lmf ∧
    (d.ddrWrite a b).acq = d.acq ∧ (d.ddrWrite a b).nrg = d.nrg ∧ (d.ddrWrite a b).rxl = d.rxl ∧ (d.ddrWrite a b).rly = d.rly ∧
    (d.ddrWrite a b).key = d.key ∧ (d.ddrWrite a b).mem = d.mem ∧ (d.ddrWrite a b).xcr = d.xcr ∧ (d.ddrWrite a b).out = d.out ∧
    (d.ddrWrite a b).readHi = d.readHi ∧ (d.ddrWrite a b).pba = d.pba ∧
    (d.ddrWrite a b).lastRead = d.lastRead ∧ (d.ddrWrite a b).free = d.free ∧ (∀ r j, (d.ddrWrite a b).rg r j = d.rg r j) ∧
    (∀ y j, (d.ddrWrite a b).f y j = d.f y j) ∧ (∀ y j, (d.ddrWrite a b).fb y j = d.fb y j) ∧
    (∀ q, (d.ddrWrite a b).blkRegs q = d.blkRegs q) := by
  and_intros <;> intros <;> rfl

end Sys2Proof.Machine
end

