-- ==== Sys2Proof/Laws/Registers.lean ====
section
/-!
SUPPORT. Reading registers, fields and counters after they have been written, what an event and a count leave alone, and the gates of a command.
-/
namespace Sys2Proof.Machine

set_option Elab.async false

/-! Fields of a word. -/

theorem testBit_bx (w : Word) (hi lo j : Nat) : (bx w hi lo).testBit j = (decide (j < hi - lo + 1) && w.getLsbD (lo + j)) := by
  simp [bx, Nat.testBit_mod_two_pow, Nat.testBit_div_two_pow, BitVec.getLsbD, Nat.add_comm]

theorem getLsbD_bset (w : Word) (hi lo v i : Nat) (hi32 : i < 32) :
    (bset w hi lo v).getLsbD i = if lo ≤ i ∧ i < lo + (hi - lo + 1) then v.testBit (i - lo) else w.getLsbD i := by
  have hm : (BitVec.ofNat 32 ((2 ^ (hi - lo + 1) - 1) * 2 ^ lo)).getLsbD i = (decide (lo ≤ i) && decide (i - lo < hi - lo + 1)) := by
    rw [BitVec.getLsbD_ofNat, Nat.testBit_mul_two_pow, Nat.testBit_two_pow_sub_one]
    simp [hi32]
  have hv : (BitVec.ofNat 32 (v % 2 ^ (hi - lo + 1) * 2 ^ lo)).getLsbD i = (decide (lo ≤ i) && (decide (i - lo < hi - lo + 1) && v.testBit (i - lo))) := by
    rw [BitVec.getLsbD_ofNat, Nat.testBit_mul_two_pow, Nat.testBit_mod_two_pow]
    simp [hi32]
  unfold bset
  simp only [BitVec.getLsbD_or, BitVec.getLsbD_and, BitVec.getLsbD_not, hm, hv, hi32, decide_true, Bool.true_and]
  by_cases h1 : lo ≤ i
  · by_cases h2 : i - lo < hi - lo + 1
    · rw [if_pos ⟨h1, by omega⟩]
      simp [h1, h2]
    · rw [if_neg (by omega)]
      simp [h2]
  · rw [if_neg (by omega)]
    simp [h1]

theorem bx_bset_self (w : Word) (hi lo v : Nat) (h : lo ≤ hi) (h32 : hi < 32) : bx (bset w hi lo v) hi lo = v % 2 ^ (hi - lo + 1) := by
  apply Nat.eq_of_testBit_eq
  intro j
  rw [testBit_bx, Nat.testBit_mod_two_pow]
  by_cases hj : j < hi - lo + 1
  · rw [getLsbD_bset _ _ _ _ _ (by omega), if_pos (by omega), Nat.add_sub_cancel_left]
  · simp [hj]

theorem bx_bset_other (w : Word) (hi lo v hj lj : Nat) (h32 : hj < 32) (hl : lj ≤ hj) (hlo : lo ≤ hi) (h : hj < lo ∨ hi < lj) :
    bx (bset w hi lo v) hj lj = bx w hj lj := by
  apply Nat.eq_of_testBit_eq
  intro j
  rw [testBit_bx, testBit_bx]
  by_cases hjj : j < hj - lj + 1
  · rw [getLsbD_bset _ _ _ _ _ (by omega), if_neg (by omega)]
  · simp [hjj]

/-! Registers. -/

@[simp] theorem Device.rg_wr_self (d : Device) (r : RegDef) (i : Nat) (v : Word) : (d.wr r i v).rg r i = v := by
  simp [Device.rg, Device.wr, Device.putReg, Device.blkRegs]

theorem Device.rg_putReg_block (d : Device) (r : RegDef) (i b k : Nat) (v : Word) (h : r.base / 65536 ≠ b) : (d.putReg b k v).rg r i = d.rg r i := by
  unfold Device.rg Device.putReg Device.blkRegs
  rw [mgetD_mset_other _ _ _ _ _ h]

theorem Device.rg_putReg_key (d : Device) (r : RegDef) (i b k : Nat) (v : Word) (h : r.key i ≠ k) : (d.putReg b k v).rg r i = d.rg r i := by
  by_cases hb : r.base / 65536 = b
  · subst hb
    unfold Device.rg Device.putReg Device.blkRegs
    rw [mgetD_mset_self, mgetD_mset_other _ _ _ _ _ h]
  · exact Device.rg_putReg_block d r i b k v hb

/-- Another register, or another instance, keeps its value. -/
theorem Device.rg_wr_other (d : Device) (r q : RegDef) (i j : Nat) (v : Word) (h : q.key j ≠ r.key i) : (d.wr r i v).rg q j = d.rg q j :=
  Device.rg_putReg_key d q j _ _ v h

/-- A field reads as it was stored, in its width. -/
theorem Device.f_setf_self (d : Device) (x : RF) (v i : Nat) (h : x.lo ≤ x.hi) (h32 : x.hi < 32) :
    (d.setf x v i).f x i = v % 2 ^ (x.hi - x.lo + 1) := by
  unfold Device.f Device.setf
  rw [Device.rg_wr_self, bx_bset_self _ _ _ _ h h32]

/-- Another field of the same register keeps its value. -/
theorem Device.f_setf_field (d : Device) (x y : RF) (v i : Nat) (hr : y.reg = x.reg) (h32 : y.hi < 32) (hl : y.lo ≤ y.hi) (hx : x.lo ≤ x.hi)
    (h : y.hi < x.lo ∨ x.hi < y.lo) : (d.setf x v i).f y i = d.f y i := by
  unfold Device.f Device.setf
  rw [hr, Device.rg_wr_self, bx_bset_other _ _ _ _ _ _ h32 hl hx h]

/-- A field of another register, or instance, keeps its value. -/
theorem Device.f_setf_other (d : Device) (x y : RF) (v i j : Nat) (h : y.reg.key j ≠ x.reg.key i) : (d.setf x v i).f y j = d.f y j := by
  unfold Device.f Device.setf
  rw [Device.rg_wr_other _ _ _ _ _ _ h]

/-! Events and counts. -/

theorem not_lets : ¬ Lets false := fun h => by
  cases h with
  | intro h => cases h

/-- An effect that is not allowed leaves its field. -/
theorem eq_of_none {p : Prop} (h : Lets false ∨ p) : p := by
  rcases h with h | h
  · exact absurd h not_lets
  · exact h

/-- Registers of a range that is neither the host interface's nor the Scorebook's are left alone by whatever touches no unit. -/
theorem Calm.rg_eq {a d : Device} (h : Calm Eff.none a d) (r : RegDef) (i : Nat) (h1 : r.base / 65536 ≠ 0x17) (h2 : r.base / 65536 ≠ 0x19) :
    d.rg r i = a.rg r i := by
  unfold Device.rg
  rcases h.blks (r.base / 65536) with hx | hx | hx | hx
  · exact absurd hx not_lets
  · exact absurd hx h1
  · exact absurd hx h2
  · rw [hx]

/-- So are those of a range whose unit may not be touched. -/
theorem Calm.f_keep {e : Eff} {a d : Device} (h : Calm e a d) (x : RF) (i : Nat) (hb : ¬ Lets (e.unit (x.reg.base / 65536)))
    (h1 : x.reg.base / 65536 ≠ 0x17) (h2 : x.reg.base / 65536 ≠ 0x19) : d.f x i = a.f x i := by
  unfold Device.f Device.rg
  rcases h.blks (x.reg.base / 65536) with hx | hx | hx | hx
  · exact absurd hx hb
  · exact absurd hx h1
  · exact absurd hx h2
  · rw [hx]

theorem Calm.ctr_eq {a d : Device} (h : Calm Eff.none a d) (c : Ctr) (i : Nat) (h1 : c.base / 65536 ≠ 0x17) (h2 : c.base / 65536 ≠ 0x19) :
    d.ctr c i = a.ctr c i := by
  unfold Device.ctr
  rcases h.blks (c.base / 65536) with hx | hx | hx | hx
  · exact absurd hx not_lets
  · exact absurd hx h1
  · exact absurd hx h2
  · rw [hx]

/-- What touches no unit leaves every component but the Scorebook, the outputs and the free values. -/
theorem Calm.none_fields {a d : Device} (h : Calm Eff.none a d) :
    d.tables = a.tables ∧ d.ddr = a.ddr ∧ d.tk = a.tk ∧ d.pwr = a.pwr ∧ d.jnl = a.jnl ∧ d.hif = a.hif ∧ d.ing = a.ing ∧ d.pfa = a.pfa ∧
    d.srt = a.srt ∧ d.pac = a.pac ∧ d.osm = a.osm ∧ d.isl = a.isl ∧ d.alm = a.alm ∧ d.egr = a.egr ∧ d.lmf = a.lmf ∧ d.acq = a.acq ∧
    d.nrg = a.nrg ∧ d.rxl = a.rxl ∧ d.rly = a.rly ∧ d.key = a.key ∧ d.mem = a.mem ∧ d.xcr = a.xcr ∧ d.lastRead = a.lastRead :=
  ⟨eq_of_none h.tables, eq_of_none h.cells, eq_of_none h.tk, eq_of_none h.pwr, eq_of_none h.jnl, eq_of_none h.hif, eq_of_none h.ing,
   eq_of_none h.pfa, eq_of_none h.srt, eq_of_none h.pac, eq_of_none h.osm, eq_of_none h.isl, eq_of_none h.alm, eq_of_none h.egr, eq_of_none h.lmf,
   eq_of_none h.acq, eq_of_none h.nrg, eq_of_none h.rxl, eq_of_none h.rly, eq_of_none h.keys, eq_of_none h.mem, eq_of_none h.xcr, eq_of_none h.rd⟩

/-- An event touches the Scorebook, its registers, the interrupt bits and the outputs. -/
theorem Device.raise_none (d : Device) (e : EvId) (l : List Nat) : Calm Eff.none d (d.raise e l) := Device.raise_calm (Calm.refl _ _)
@[simp] theorem Device.raise_fields (d : Device) (e : EvId) (l : List Nat) :
    (d.raise e l).tables = d.tables ∧ (d.raise e l).ddr = d.ddr ∧ (d.raise e l).tk = d.tk ∧ (d.raise e l).pwr = d.pwr ∧ (d.raise e l).jnl = d.jnl ∧
    (d.raise e l).hif = d.hif ∧ (d.raise e l).ing = d.ing ∧ (d.raise e l).pfa = d.pfa ∧ (d.raise e l).srt = d.srt ∧ (d.raise e l).pac = d.pac ∧
    (d.raise e l).osm = d.osm ∧ (d.raise e l).isl = d.isl ∧ (d.raise e l).alm = d.alm ∧ (d.raise e l).egr = d.egr ∧ (d.raise e l).lmf = d.lmf ∧
    (d.raise e l).acq = d.acq ∧ (d.raise e l).nrg = d.nrg ∧ (d.raise e l).rxl = d.rxl ∧ (d.raise e l).rly = d.rly ∧ (d.raise e l).key = d.key ∧
    (d.raise e l).mem = d.mem ∧ (d.raise e l).xcr = d.xcr ∧ (d.raise e l).lastRead = d.lastRead := (Device.raise_none d e l).none_fields
theorem Device.rg_raise (d : Device) (e : EvId) (l : List Nat) (r : RegDef) (i : Nat) (h1 : r.base / 65536 ≠ 0x17) (h2 : r.base / 65536 ≠ 0x19) :
    (d.raise e l).rg r i = d.rg r i := (Device.raise_none d e l).rg_eq r i h1 h2
theorem Device.ctr_raise (d : Device) (e : EvId) (l : List Nat) (c : Ctr) (i : Nat) (h1 : c.base / 65536 ≠ 0x17) (h2 : c.base / 65536 ≠ 0x19) :
    (d.raise e l).ctr c i = d.ctr c i := (Device.raise_none d e l).ctr_eq c i h1 h2

/-- A count leaves every component. -/
@[simp] theorem Device.countN_fields (d : Device) (c : Ctr) (n i : Nat) :
    (d.countN c n i).tables = d.tables ∧ (d.countN c n i).ddr = d.ddr ∧ (d.countN c n i).tk = d.tk ∧ (d.countN c n i).pwr = d.pwr ∧
    (d.countN c n i).jnl = d.jnl ∧ (d.countN c n i).hif = d.hif ∧ (d.countN c n i).ing = d.ing ∧ (d.countN c n i).pfa = d.pfa ∧
    (d.countN c n i).srt = d.srt ∧ (d.countN c n i).pac = d.pac ∧ (d.countN c n i).osm = d.osm ∧ (d.countN c n i).isl = d.isl ∧
    (d.countN c n i).alm = d.alm ∧ (d.countN c n i).egr = d.egr ∧ (d.countN c n i).lmf = d.lmf ∧ (d.countN c n i).acq = d.acq ∧
    (d.countN c n i).nrg = d.nrg ∧ (d.countN c n i).rxl = d.rxl ∧ (d.countN c n i).rly = d.rly ∧ (d.countN c n i).key = d.key ∧
    (d.countN c n i).mem = d.mem ∧ (d.countN c n i).xcr = d.xcr ∧ (d.countN c n i).lastRead = d.lastRead := by
  unfold Device.countN
  split
  · simp
  · unfold countWith
    extract_lets a old new d1
    have k : Calm Eff.none _ _ := Calm.refl Eff.none d1
    split
    · exact k.none_fields
    · split
      · exact k.none_fields
      · rename_i b _ _
        exact (raiseF_calm (Device.irqRefresh_calm (Calm.refl Eff.none (d1.putReg (c.base / 65536) (c.half + i * c.stride)
          (bset (mgetD (d1.blkRegs (c.base / 65536)) (c.half + i * c.stride) 0#32) b b 1))))).none_fields
theorem Device.count_eq_countN (d : Device) (c : Ctr) (i : Nat) : d.count c i = d.countN c 1 i := rfl
@[simp] theorem Device.count_fields (d : Device) (c : Ctr) (i : Nat) :
    (d.count c i).tables = d.tables ∧ (d.count c i).ddr = d.ddr ∧ (d.count c i).tk = d.tk ∧ (d.count c i).pwr = d.pwr ∧
    (d.count c i).jnl = d.jnl ∧ (d.count c i).hif = d.hif ∧ (d.count c i).ing = d.ing ∧ (d.count c i).pfa = d.pfa ∧
    (d.count c i).srt = d.srt ∧ (d.count c i).pac = d.pac ∧ (d.count c i).osm = d.osm ∧ (d.count c i).isl = d.isl ∧
    (d.count c i).alm = d.alm ∧ (d.count c i).egr = d.egr ∧ (d.count c i).lmf = d.lmf ∧ (d.count c i).acq = d.acq ∧
    (d.count c i).nrg = d.nrg ∧ (d.count c i).rxl = d.rxl ∧ (d.count c i).rly = d.rly ∧ (d.count c i).key = d.key ∧
    (d.count c i).mem = d.mem ∧ (d.count c i).xcr = d.xcr ∧ (d.count c i).lastRead = d.lastRead := Device.countN_fields d c 1 i

/-- A count leaves every register but the counter, its half bits, the Scorebook's and the interrupt bits. -/
theorem Device.rg_count (d : Device) (c : Ctr) (i : Nat) (r : RegDef) (j : Nat) (h1 : r.base / 65536 ≠ 0x17) (h2 : r.base / 65536 ≠ 0x19)
    (h3 : r.key j ≠ c.base + i * c.stride) (h4 : r.key j ≠ c.half + i * c.stride) : (d.count c i).rg r j = d.rg r j := by
  unfold Device.count countWith
  extract_lets a old new d1
  have e1 : d1.rg r j = d.rg r j := Device.rg_putReg_key _ _ _ _ _ _ h3
  split
  · exact e1
  · split
    · exact e1
    · rw [Calm.rg_eq (raiseF_calm (Device.irqRefresh_calm (Calm.refl Eff.none _))) r j h1 h2, Device.rg_putReg_key _ _ _ _ _ _ h4]
      exact e1

/-- A count: the counter rises by one modulo 2^32. -/
theorem Device.ctr_count_self (d : Device) (c : Ctr) (i : Nat) (h1 : c.base / 65536 ≠ 0x17) (h2 : c.base / 65536 ≠ 0x19)
    (hk : c.base + i * c.stride ≠ c.half + i * c.stride) : (d.count c i).ctr c i = (d.ctr c i + 1) % 4294967296 := by
  have hself : ∀ x : Device, ∀ v : Word, (x.putReg (c.base / 65536) (c.base + i * c.stride) v).ctr c i = v.toNat := by
    intro x v
    simp [Device.ctr, Device.putReg, Device.blkRegs]
  have hother : ∀ x : Device, ∀ v : Word, (x.putReg (c.base / 65536) (c.half + i * c.stride) v).ctr c i = x.ctr c i := by
    intro x v
    unfold Device.ctr Device.putReg Device.blkRegs
    rw [mgetD_mset_self, mgetD_mset_other _ _ _ _ _ hk]
  have hv : (w32 ((d.ctr c i + 1) % 4294967296)).toNat = (d.ctr c i + 1) % 4294967296 := by
    simp [w32]
  unfold Device.count countWith
  extract_lets a old new d1
  have e1 : d1.ctr c i = (d.ctr c i + 1) % 4294967296 := (hself _ _).trans hv
  split
  · exact e1
  · split
    · exact e1
    · rw [Calm.ctr_eq (raiseF_calm (Device.irqRefresh_calm (Calm.refl Eff.none _))) c i h1 h2]
      exact (hother _ _).trans e1

/-! Gates. -/

/-- A command's effect on a quiet device that stays so is the whole effect. -/
theorem onAny_quiet {f : Device → Device} {s : State} (hq : s.dev.Quiet) (h : (f s.dev).Quiet) (hm : (f s.dev).pwr.mode = s.dev.pwr.mode) :
    onAny f s = .next { s with dev := f s.dev } := by
  unfold onAny
  rw [Device.post_quiet hq.unarmed h.clean h.unnoted h.alone h.idle hm.symm h.leads]
theorem onAlive_quiet {f : Device → Device} {s : State} (ha : s.dev.alive = true) (hq : s.dev.Quiet) (h : (f s.dev).Quiet)
    (hm : (f s.dev).pwr.mode = s.dev.pwr.mode) : onAlive f s = .next { s with dev := f s.dev } := by
  unfold onAlive
  rw [if_pos ha, onAny_quiet hq h hm]
theorem onAwake_quiet {f : Device → Device} {s : State} (ha : s.dev.awake = true) (hq : s.dev.Quiet) (h : (f s.dev).Quiet)
    (hm : (f s.dev).pwr.mode = s.dev.pwr.mode) : onAwake f s = .next { s with dev := f s.dev } := by
  unfold onAwake
  rw [if_pos ha, onAny_quiet hq h hm]

end Sys2Proof.Machine
end

