-- ==== Sys2Proof/Laws/Effects.lean ====
section
/-!
SUPPORT. From the gate of a command to its effect and its frame, and what a frame says of one register, counter or component.
-/
namespace Sys2Proof.Machine

set_option Elab.async false

/-! Gates. -/

theorem effect_any {c : Instr} {s : State} {p : Device → Prop} {f : Device → Device} (h : exec c s = onAny f s) (hp : p (f s.dev)) : Effect c s p :=
  ⟨f s.dev, h, hp⟩
theorem effect_alive {c : Instr} {s : State} {p : Device → Prop} {f : Device → Device} (h : exec c s = onAlive f s) (ha : s.dev.alive = true)
    (hp : p (f s.dev)) : Effect c s p := ⟨f s.dev, by rw [h, onAlive, if_pos ha, onAny], hp⟩
theorem effect_awake {c : Instr} {s : State} {p : Device → Prop} {f : Device → Device} (h : exec c s = onAwake f s) (ha : s.dev.awake = true)
    (hp : p (f s.dev)) : Effect c s p := ⟨f s.dev, by rw [h, onAwake, if_pos ha, onAny], hp⟩
/-- A device out of RESET and HOLD is out of RESET. -/
theorem Device.alive_of_awake {d : Device} (h : d.awake = true) : d.alive = true := by
  unfold Device.awake at h
  simp at h
  exact h.1

theorem any_touches {c : Instr} {f : Device → Device} {l : List Touch} {u : List Nat} (h : ∀ s, exec c s = onAny f s)
    (hf : ∀ d, Calm (Eff.of l u) d (f d)) : Touches c l u := by
  intro s t ht
  rw [h s, onAny] at ht
  cases ht
  exact .inr ⟨_, rfl, hf _⟩
theorem alive_touches {c : Instr} {f : Device → Device} {l : List Touch} {u : List Nat} (h : ∀ s, exec c s = onAlive f s)
    (hf : ∀ d, Calm (Eff.of l u) d (f d)) : Touches c l u := by
  intro s t ht
  rw [h s, onAlive] at ht
  split at ht
  · rw [onAny] at ht
    cases ht
    exact .inr ⟨_, rfl, hf _⟩
  · cases ht
    exact .inl rfl
theorem awake_touches {c : Instr} {f : Device → Device} {l : List Touch} {u : List Nat} (h : ∀ s, exec c s = onAwake f s)
    (hf : ∀ d, Calm (Eff.of l u) d (f d)) : Touches c l u := by
  intro s t ht
  rw [h s, onAwake] at ht
  split at ht
  · rw [onAny] at ht
    cases ht
    exact .inr ⟨_, rfl, hf _⟩
  · cases ht
    exact .inl rfl
theorem any_units {c : Instr} {f : Device → Device} {l : List Touch} (h : ∀ s, exec c s = onAny f s)
    (hf : ∀ d, Calm { Eff.of l [] with unit := fun _ => true } d (f d)) : TouchesUnits c l := by
  intro s t ht
  rw [h s, onAny] at ht
  cases ht
  exact .inr ⟨_, rfl, hf _⟩
theorem alive_units {c : Instr} {f : Device → Device} {l : List Touch} (h : ∀ s, exec c s = onAlive f s)
    (hf : ∀ d, Calm { Eff.of l [] with unit := fun _ => true } d (f d)) : TouchesUnits c l := by
  intro s t ht
  rw [h s, onAlive] at ht
  split at ht
  · rw [onAny] at ht
    cases ht
    exact .inr ⟨_, rfl, hf _⟩
  · cases ht
    exact .inl rfl
theorem awake_units {c : Instr} {f : Device → Device} {l : List Touch} (h : ∀ s, exec c s = onAwake f s)
    (hf : ∀ d, Calm { Eff.of l [] with unit := fun _ => true } d (f d)) : TouchesUnits c l := by
  intro s t ht
  rw [h s, onAwake] at ht
  split at ht
  · rw [onAny] at ht
    cases ht
    exact .inr ⟨_, rfl, hf _⟩
  · cases ht
    exact .inl rfl

/-! One register, counter or component of a frame. -/

theorem left_alone {b : Bool} {p : Prop} (h : Lets b ∨ p) (hb : b = false) : p := by
  subst hb
  exact eq_of_none h

theorem Calm.rg_of {a d : Device} {l : List Touch} {u : List Nat} (h : Calm (Eff.of l u) a d) (r : RegDef) (i : Nat)
    (hu : u.contains (r.base / 65536) = false) (h1 : r.base / 65536 ≠ 0x17) (h2 : r.base / 65536 ≠ 0x19) : d.rg r i = a.rg r i := by
  unfold Device.rg
  rcases h.blks (r.base / 65536) with hx | hx | hx | hx
  · change Lets (u.contains _) at hx
    rw [hu] at hx
    exact absurd hx not_lets
  · exact absurd hx h1
  · exact absurd hx h2
  · rw [hx]
theorem Calm.f_of {a d : Device} {l : List Touch} {u : List Nat} (h : Calm (Eff.of l u) a d) (x : RF) (i : Nat)
    (hu : u.contains (x.reg.base / 65536) = false) (h1 : x.reg.base / 65536 ≠ 0x17) (h2 : x.reg.base / 65536 ≠ 0x19) : d.f x i = a.f x i := by
  unfold Device.f
  rw [h.rg_of x.reg i hu h1 h2]
theorem Calm.ctr_of {a d : Device} {l : List Touch} {u : List Nat} (h : Calm (Eff.of l u) a d) (c : Ctr) (i : Nat)
    (hu : u.contains (c.base / 65536) = false) (h1 : c.base / 65536 ≠ 0x17) (h2 : c.base / 65536 ≠ 0x19) : d.ctr c i = a.ctr c i := by
  unfold Device.ctr
  rcases h.blks (c.base / 65536) with hx | hx | hx | hx
  · change Lets (u.contains _) at hx
    rw [hu] at hx
    exact absurd hx not_lets
  · exact absurd hx h1
  · exact absurd hx h2
  · rw [hx]

/-! Counters and registers. -/

theorem Device.ctr_putReg_key (d : Device) (c : Ctr) (i b k : Nat) (v : Word) (h : c.base + i * c.stride ≠ k) : (d.putReg b k v).ctr c i = d.ctr c i := by
  unfold Device.ctr Device.putReg Device.blkRegs
  by_cases hb : c.base / 65536 = b
  · subst hb
    rw [mgetD_mset_self, mgetD_mset_other _ _ _ _ _ h]
  · rw [mgetD_mset_other _ _ _ _ _ hb]
/-- Writing a register leaves a counter. -/
theorem Device.ctr_wr (d : Device) (c : Ctr) (i : Nat) (r : RegDef) (j : Nat) (v : Word) (h : c.base + i * c.stride ≠ r.key j) :
    (d.wr r j v).ctr c i = d.ctr c i := Device.ctr_putReg_key d c i _ _ v h
theorem Device.ctr_setf (d : Device) (c : Ctr) (i : Nat) (x : RF) (v j : Nat) (h : c.base + i * c.stride ≠ x.reg.key j) :
    (d.setf x v j).ctr c i = d.ctr c i := Device.ctr_wr d c i _ j _ h
theorem Device.ctr_hwm (d : Device) (c : Ctr) (i : Nat) (x : RF) (v j : Nat) (h : c.base + i * c.stride ≠ x.reg.key j) :
    (d.hwm x v j).ctr c i = d.ctr c i := by
  unfold Device.hwm
  split
  · exact Device.ctr_setf d c i x v j h
  · rfl
/-- A count leaves a field of another register. -/
theorem Device.f_count (d : Device) (c : Ctr) (i : Nat) (x : RF) (j : Nat) (h1 : x.reg.base / 65536 ≠ 0x17) (h2 : x.reg.base / 65536 ≠ 0x19)
    (h3 : x.reg.key j ≠ c.base + i * c.stride) (h4 : x.reg.key j ≠ c.half + i * c.stride) : (d.count c i).f x j = d.f x j := by
  unfold Device.f
  rw [Device.rg_count d c i x.reg j h1 h2 h3 h4]
theorem Device.f_raise (d : Device) (e : EvId) (l : List Nat) (x : RF) (j : Nat) (h1 : x.reg.base / 65536 ≠ 0x17) (h2 : x.reg.base / 65536 ≠ 0x19) :
    (d.raise e l).f x j = d.f x j := by
  unfold Device.f
  rw [Device.rg_raise d e l x.reg j h1 h2]

end Sys2Proof.Machine
end

