-- ==== Sys2Proof/Laws/Outcomes.lean ====
section
/-!
SUPPORT. What shared operations leave in the state: error bits with their codes, changes of mode, entry to HOLD and RESET, and a device that begins anew.
-/
namespace Sys2Proof.Machine

set_option Elab.async false

/-- What enters neither HOLD nor another mode keeps the mode. -/
theorem Calm.mode_of {a d : Device} {l : List Touch} {u : List Nat} (h : Calm (Eff.of l u) a d) (h1 : l.contains .hold = false)
    (h2 : l.contains .mode = false) : d.pwr.mode = a.pwr.mode := by
  rcases h.mode with hx | ⟨hx, _⟩ | ⟨hx, _⟩
  · exact hx
  · change Lets (l.contains _) at hx
    rw [h1] at hx
    exact absurd hx not_lets
  · change Lets (l.contains _) at hx
    rw [h2] at hx
    exact absurd hx not_lets

/-- An ERR bit and its ECODE, in two fields of one register, read as set. -/
theorem Device.err_reads (d : Device) (e c : RF) (code : Nat) (i : Nat) (hr : e.reg = c.reg) (h1 : e.lo = e.hi) (h2 : e.hi < 32) (h3 : c.lo ≤ c.hi)
    (h4 : c.hi < 32) (h5 : e.hi < c.lo ∨ c.hi < e.lo) (h6 : code < 2 ^ (c.hi - c.lo + 1)) :
    (d.err e c code i).f e i = 1 ∧ (d.err e c code i).f c i = code := by
  unfold Device.err
  refine ⟨?_, ?_⟩
  · rw [Device.f_setf_field _ c e _ _ hr h2 (by omega) h3 h5, Device.f_setf_self _ _ _ _ (by omega) h2, h1]
    simp
  · rw [Device.f_setf_self _ _ _ _ h3 h4]
    exact Nat.mod_eq_of_lt h6
/-- A change of mode changes the mode alone of the power unit. -/
theorem Device.setMode_pwr (d : Device) (m : Mode) : (d.setMode m).pwr = { d.pwr with mode := m } := by
  unfold Device.setMode
  split
  · rename_i h; subst h; rfl
  · simp
theorem Device.setMode_others (d : Device) (m : Mode) : (d.setMode m).tables = d.tables ∧ (d.setMode m).key = d.key ∧ (d.setMode m).tk = d.tk ∧
    (d.setMode m).rly = d.rly := by
  unfold Device.setMode
  split <;> simp
theorem Device.setMode_f (d : Device) (m : Mode) (x : RF) (i : Nat) (h1 : x.reg.base / 65536 ≠ 0x17) (h2 : x.reg.base / 65536 ≠ 0x19) :
    (d.setMode m).f x i = d.f x i := by
  unfold Device.setMode
  split
  · rfl
  · rw [Device.f_raise _ _ _ _ _ h1 h2]
    rfl

/-- RESET is reached from every mode. -/
theorem Device.toReset_mode (d : Device) : d.toReset.pwr.mode = .reset := by
  unfold Device.toReset Device.intoReset
  split
  · assumption
  · simp [Device.setMode_pwr]

/-- WARMUP finds the power unit as at power-up, but for the pins and the save area. -/
theorem Device.toWarmup_pwr (d : Device) : d.toWarmup.pwr =
    { pwrInit with mode := .warmup, powered := d.pwr.powered, resetN := d.pwr.resetN, pfw := d.pwr.pfw, save := d.pwr.save } := by
  unfold Device.toWarmup
  change ((d.fresh.setMode .warmup).tamperReport).pwr = _
  rw [(Device.tamperReport_fields _).1, Device.setMode_pwr]
  rfl
/-- WARMUP finds no table and no key group; root slots and TAMPERED are kept. -/
theorem Device.toWarmup_stores (d : Device) : d.toWarmup.tables = [] ∧
    d.toWarmup.key = { keyInit with slots := d.key.slots, tampered := d.key.tampered, vbat := d.key.vbat } := by
  unfold Device.toWarmup
  change ((d.fresh.setMode .warmup).tamperReport).tables = [] ∧ ((d.fresh.setMode .warmup).tamperReport).key = _
  rw [(Device.tamperReport_fields _).2.2.1, (Device.tamperReport_fields _).2.2.2, (Device.setMode_others _ _).1, (Device.setMode_others _ _).2.1]
  exact ⟨rfl, rfl⟩

/-- A key store command in progress that HOLD completes (R418) leaves the other units alone. -/
theorem Device.holdStop_calm (d : Device) : Calm (Eff.of [.key, .grp] [0x11, 0x16, 0x18]) d (((keyComplete (d.stopToggle 4)).txStopAll).privClose) :=
  Device.privClose_calm (Device.txStopAll_calm (keyComplete_calm (Device.stopToggle_calm (Calm.refl _ d))))
theorem keyComplete_rly (d : Device) : (keyComplete d).rly = d.rly :=
  ((keyComplete_calm (e := Eff.of [.key, .grp] [0x18]) (Calm.refl _ d)).rly).resolve_left (fun x => by cases x with | intro h => cases h)
/-- HOLD from any other mode out of RESET. -/
theorem Device.enterHold_pwr (d : Device) (f : Bool) (h1 : d.pwr.mode ≠ .reset) (h2 : d.pwr.mode ≠ .hold) :
    (d.enterHold f).pwr = { d.pwr with mode := .hold, holdAt := some d.tk.now, holdFatal := f, saveEnded := none } ∧
    (d.enterHold f).rly.toggling = false ∧ (d.enterHold f).key.openedAt = none := by
  unfold Device.enterHold
  rw [if_neg (by simp [h1, h2])]
  extract_lets d0 d1 s1 s2 d2
  have hp : d0.pwr = d.pwr := (Device.holdStop_calm d).pwr.resolve_left (fun x => by cases x with | intro h => cases h)
  have ht : d0.rly.toggling = false := by
    change (keyComplete (d.stopToggle 4)).rly.toggling = false
    rw [keyComplete_rly]
    unfold Device.stopToggle
    split
    · rfl
    · rename_i h
      simpa using h
  have hk : d0.key.openedAt = none := rfl
  have e1 : d1.pwr = d0.pwr ∧ d1.rly.toggling = d0.rly.toggling ∧ d1.key = d0.key := by
    unfold d1
    split
    · exact ⟨rfl, rfl, rfl⟩
    · exact ⟨rfl, rfl, rfl⟩
  have e2 : d2.pwr = { d.pwr with holdAt := some d.tk.now, holdFatal := f, saveEnded := none } ∧ d2.rly = d1.rly ∧ d2.key = d1.key := by
    refine ⟨?_, rfl, rfl⟩
    change { d1.pwr with holdAt := some d.tk.now, holdFatal := f, saveEnded := none } = _
    rw [e1.1, hp]
  clear_value d2 s1 s2 d1 d0
  simp only [Device.raise_fields, Device.setMode_pwr, Device.setMode_others, Device.count_fields]
  rw [e2.1, e2.2.1, e2.2.2, e1.2.1, e1.2.2]
  exact ⟨rfl, ht, hk⟩
theorem Device.enterHold_f (d : Device) (b : Bool) (x : RF) (h : x.reg = PWR_STAT) : (d.enterHold b).f x = d.f x := by
  unfold Device.enterHold
  split
  · rfl
  · extract_lets d0 d1 d2
    rw [Device.f_raise _ _ _ _ _ (by rw [h]; decide) (by rw [h]; decide), Device.setMode_f _ _ _ _ (by rw [h]; decide) (by rw [h]; decide),
      Device.f_count _ _ _ _ _ (by rw [h]; decide) (by rw [h]; decide) (by rw [h]; decide) (by rw [h]; decide)]
    have h0 : d0.f x = d.f x := (Device.holdStop_calm d).f_keep x 0 (by rw [h]; exact not_lets) (by rw [h]; decide) (by rw [h]; decide)
    have h1 : d1.f x = d0.f x := by
      unfold d1
      split
      · rfl
      · exact Device.f_setf_other _ _ _ _ _ _ (by rw [h]; decide)
    change d1.f x = _
    rw [h1, h0]
/-- A fatal error enters HOLD with its cause. -/
theorem Device.fatalError_holds (d : Device) (c x : Nat) (hc : c < 8) (h1 : d.pwr.mode ≠ .reset) (h2 : d.pwr.mode ≠ .hold) :
    (d.fatalError c x).pwr = { d.pwr with mode := .hold, holdAt := some d.tk.now, holdFatal := true, saveEnded := none } ∧
    (d.fatalError c x).f PWR_STAT.FATAL = 1 ∧ (d.fatalError c x).f PWR_STAT.FCAUSE = c := by
  unfold Device.fatalError
  rw [if_neg h1]
  extract_lets d1
  have hf := Device.err_reads d PWR_STAT.FATAL PWR_STAT.FCAUSE c 0 rfl rfl (by decide) (by decide) (by decide) (by decide) hc
  refine ⟨?_, ?_, ?_⟩
  · rw [(Device.enterHold_pwr _ _ (by simp [d1, Device.setf, Device.wr, Device.putReg, h1]) (by simp [d1, Device.setf, Device.wr, Device.putReg, h2])).1]
    simp [d1, Device.setf, Device.wr, Device.putReg]
    exact ⟨rfl, rfl, rfl, rfl, rfl, rfl, rfl, rfl, rfl, rfl, rfl⟩
  · rw [Device.enterHold_f _ _ _ rfl, Device.f_raise _ _ _ _ _ (by decide) (by decide), Device.f_count _ _ _ _ _ (by decide) (by decide) (by decide) (by decide)]
    exact hf.1
  · rw [Device.enterHold_f _ _ _ rfl, Device.f_raise _ _ _ _ _ (by decide) (by decide), Device.f_count _ _ _ _ _ (by decide) (by decide) (by decide) (by decide)]
    exact hf.2

/-- RACE is entered, and nothing its entry does leaves it. -/
theorem Device.enterRace_mode (d : Device) : d.enterRace.pwr.mode = .race := by
  unfold Device.enterRace
  extract_lets d1
  refine ((Device.clientsStart_calm (Device.pubsStart_calm (Device.raceBegin_calm (Calm.refl Eff.still _)))).mode_eq).trans ?_
  exact congrArg Pwr.mode (Device.setMode_pwr d .race)
/-- FOLLOW is entered out of step. -/
theorem Device.enterFollow_mode (d : Device) : d.enterFollow.pwr.mode = .follow ∧ d.enterFollow.f RLY_STAT.IN_STEP = 0 := by
  unfold Device.enterFollow
  refine ⟨by simp [Device.setMode_pwr], ?_⟩
  change ((d.setMode .follow).setf RLY_STAT.IN_STEP 0).f RLY_STAT.IN_STEP = 0
  rw [Device.f_setf_self _ _ _ _ (by decide) (by decide)]
  rfl

end Sys2Proof.Machine
end

