-- ==== Sys2Proof/WellFormed.lean ====
section
/-!
DEFINITION. The operands a command may have: the places the block has and the widths of what it is given. A command outside them stands for no
event of this hardware; exec answers it too, with no effect or as the register write it is (log entry 61).
-/
namespace Sys2Proof

def Instr.wf (i : Instr) : Bool :=
  match i with
  | .ethFrameReceived port _ _ => decide (port < 8)
  | .parserTurn _ => true
  | .ethCfgWrite port _ => decide (port < 8)
  | .ethLinkChange port _ _ _ _ _ => decide (port < 8)
  | .tcpSegmentReceived => true
  | .tcpConnectionOpen conn next => decide (conn < 2048 ∧ next < 2 ^ 32)
  | .tcpReconnectExpiry conn _ next => decide (conn < 2048 ∧ next < 2 ^ 32)
  | .rgooseLaneWrite lane _ => decide (lane < 16384)
  | .lapOpen heat _ => decide (heat < 1024)
  | .lapSkip heat _ => decide (heat < 1024)
  | .deadlineExpiry heat _ => decide (heat < 1024)
  | .finishLineExpiry heat _ => decide (heat < 1024)
  | .releasePortGrant => true
  | .fenceClear heat _ => decide (heat < 1024)
  | .winCmdFixed v => decide (v < 2 ^ 24)
  | .winCmdAdaptive => true
  | .winCmdSetWmin v => decide (v < 2 ^ 24)
  | .winCmdSetWmax v => decide (v < 2 ^ 24)
  | .taskPlace => true
  | .taskGatherDone inst _ _ bad _ => decide (inst < 4096 ∧ bad.all (· < 16384))
  | .taskCommit inst _ _ _ => decide (inst < 4096)
  | .residueMismatch inst _ _ unit _ => decide (inst < 4096 ∧ unit < 6)
  | .engineSuspectExpiry engine => decide (engine < 96)
  | .pacEngClrGo _ => true
  | .selfTestDone _ => true
  | .resInjArm _ => true
  | .instanceTimerExpiry heat _ _ => decide (heat < 1024)
  | .heldProducerResume _ => true
  | .srtCfgRsvWrite _ => true
  | .srtUnitAdminWrite _ => true
  | .osmRunStart => true
  | .osmStartSample => true
  | .osmRunStop => true
  | .islSwapRequest => true
  | .almThrCmdThrA => true
  | .almThrCmdHysA => true
  | .almThrCmdThrB => true
  | .alarmRecordDrain => true
  | .aoutLatchClear _ => true
  | .aoutForceWrite k _ => decide (k < 16)
  | .aoutMinOnExpiry k => decide (k < 16)
  | .gooseRetransmit pub => decide (pub < 64)
  | .c37CfgPeriodic client => decide (client < 64)
  | .egressTcpAccept _ port _ _ peerPort mss iss rcv => decide (port < 8 ∧ peerPort < 2 ^ 16 ∧ mss < 2 ^ 16 ∧ iss < 2 ^ 32 ∧ rcv < 2 ^ 32)
  | .c37CmdTxOff _ _ idcode => decide (idcode < 2 ^ 16)
  | .c37CmdTxOn _ _ idcode => decide (idcode < 2 ^ 16)
  | .c37CmdSendHdr _ _ idcode => decide (idcode < 2 ^ 16)
  | .c37CmdSendCfg1 _ _ idcode => decide (idcode < 2 ^ 16)
  | .c37CmdSendCfg2 _ _ idcode => decide (idcode < 2 ^ 16)
  | .c37CmdSendCfg3 _ _ idcode => decide (idcode < 2 ^ 16)
  | .c37CmdOther cmd _ _ idcode => decide (idcode < 2 ^ 16 ∧ cmd < 2 ^ 16 ∧ (cmd = 0 ∨ 6 < cmd))
  | .egressTcpAckReceived _ ack => decide (ack < 2 ^ 32)
  | .egressTcpRto _ => true
  | .txFrameComplete port _ firmware => decide (port < 8 ∧ (firmware = 0 ∨ 32768 ≤ firmware) ∧ firmware < 65536)
  | .lmfGrpWrite group _ => decide (group < 8)
  | .channelFault ch => decide (ch < 64)
  | .channelFaultClear ch => decide (ch < 64)
  | .captureStrobe _ bits => decide (bits.length = 64 ∧ bits.all (· < 2 ^ 128))
  | .phasorStrobe _ bits => decide (bits.length = 64 ∧ bits.all (· < 2 ^ 128))
  | .lmfChRunStart ch _ => decide (ch < 64)
  | .lmfChRunStop ch _ => decide (ch < 64)
  | .lmfSwitchRequest ch _ => decide (ch < 64)
  | .triggerEvalInstant _ => true
  | .acqArm group => decide (group < 8)
  | .acqDisarm group => decide (group < 8)
  | .acqForce group => decide (group < 8)
  | .captureRecordEnd group => decide (group < 8)
  | .acqSlotRelease _ => true
  | .plsiLevelChange input _ => decide (input < 32)
  | .pulseAccept input => decide (input < 32)
  | .nrgSnapshotRequest point => decide (point < 512)
  | .nrgSnapshotComplete => true
  | .nrgSnapshotRelease _ => true
  | .intervalClose point => decide (point < 512)
  | .intervalRecordDrain => true
  | .pulseOutputEnable k _ => decide (k < 32)
  | .pulseOutputDisable k _ => decide (k < 32)
  | .pulseOutputPhaseEnd k => decide (k < 32)
  | .ptpMessageReceived _ => true
  | .ptpAnnounceTimeout port => decide (port < 8)
  | .ptpTransmitTimer port kind => decide (port < 8 ∧ kind < 3)
  | .irigFrameReceived form symbols _ => decide (form < 8 ∧ symbols.length = 100 ∧ symbols.all (· < 3))
  | .irigFrameMissing => true
  | .ppsInEdge _ _ => true
  | .ppsWindowMissed => true
  | .sourceQualified source => decide (1 ≤ source ∧ source ≤ 3)
  | .syncLimitCrossing => true
  | .unlockIntervalExpiry => true
  | .tkIncFracWrite _ => true
  | .tkCmdStep _ => true
  | .leapApply => true
  | .ppsOutPulse => true
  | .mgtFrameReceived dated _ => decide (dated ≤ 40000)
  | .ethTxtsPop port _ => decide (port < 8)
  | .ethTxtsIdRead port => decide (port < 8)
  | .tkNowNsRead => true
  | .counterLoRead port => decide (port < 8)
  | .rcRegisterRead addr => decide (addr < 2 ^ 22)
  | .rxlFrameReceived lane _ => decide (lane ≤ 4)
  | .rxlAckDelayExpiry link => decide (link < 64)
  | .rxlRetransmitTimeout link cls => decide (link < 64 ∧ cls < 2)
  | .cadenceSend peer n => decide (n < (if peer then 4096 else 64))
  | .peerLossTimeout dev => decide (dev < 4096)
  | .rxlCadenceTimeout link => decide (link < 64)
  | .rxlLockChange lane _ => decide (lane < 4)
  | .rxlPortEnable lane _ => decide (lane < 4)
  | .rxlTrainingDone lane => decide (lane < 4)
  | .partWaitExpiry heat _ => decide (heat < 1024)
  | .batonToggle => true
  | .batonEdgeSeen => true
  | .batonSilenceTimeout => true
  | .batonWatchEnd => true
  | .driverEnableDelay => true
  | .heartbeatMissing => true
  | .handoverRequest => true
  | .handoverRelease => true
  | .resyncRequest => true
  | .checkpointLoad => true
  | .bar0BadAccess _ addr _ => decide (addr < 2 ^ 22)
  | .registerWrite addr _ => decide (addr < 2 ^ 22)
  | .sqTailDoorbell ring _ => decide (ring < 64)
  | .cqHeadDoorbell ring _ => decide (ring < 64)
  | .ringEnable _ _ => true
  | .ringDisable _ => true
  | .descriptorFetch ch words _ => decide (ch < 32 ∧ words.length = 8)
  | .opNop ch => decide (ch < 32)
  | .opTableLoad ch => decide (ch < 32)
  | .opTableRead ch => decide (ch < 32)
  | .opHeatEnable ch => decide (ch < 32)
  | .opHeatDisable ch => decide (ch < 32)
  | .opMemRead ch _ => decide (ch < 32)
  | .opStreamRead ch => decide (ch < 32)
  | .opUndefined ch => decide (ch < 32)
  | .dmaReadCompletion ch _ _ => decide (ch < 32)
  | .cqCoalesceTimeout ring => decide (ring < 64)
  | .dmaChStop ch => decide (ch < 32)
  | .dmaAbortDone ch => decide (ch < 32)
  | .dmaChStart ch => decide (ch < 32)
  | .streamReadIdleTimeout ch => decide (ch < 32)
  | .streamFifoFlush fifo => decide (fifo < 3)
  | .pcieLinkDown _ _ _ => true
  | .keyCmdWrite _ slot mask => decide (slot < 64 ∧ mask < 256)
  | .keyCmdErase _ slot => decide (slot < 64)
  | .keyCmdSetNext _ group => decide (group < 1024)
  | .keyCmdRoll _ group => decide (group < 1024)
  | .keyCmdClear _ group => decide (group < 1024)
  | .keyCmdCloseWindow _ => true
  | .keyUnlock _ => true
  | .privWindowExpiry => true
  | .attestRequest => true
  | .attestReady => true
  | .attestRelease _ => true
  | .tamperZeroise => true
  | .bootDigestExtend bd _ => decide (bd < 8)
  | .scbFlushWrite => true
  | .scorebookFlushDone _ => true
  | .scorebookLookup _ => true
  | .scorebookLookupDone => true
  | .journalDrain _ => true
  | .checkpointStart => true
  | .jnlCkptWrite => true
  | .checkpointEnd => true
  | .rerunGo => true
  | .rerunStop => true
  | .rerunInputWord _ => true
  | .rerunApplyEntry _ => true
  | .scrubRead array _ _ kind _ => decide (array ≤ 17 ∧ ¬(13 ≤ array ∧ array ≤ 15) ∧ kind < 3)
  | .scrubPeriodEnd _ array => decide (array ≤ 17 ∧ ¬(13 ≤ array ∧ array ≤ 15))
  | .mergeEntryTimeout _ => true
  | .memInjectArm _ => true
  | .memGroupClear _ => true
  | .beaconInstant => true
  | .xcrFrameReceived phr _ => decide (phr < 2048)
  | .xcrAckSend => true
  | .xcrAckTimeout => true
  | .xcrTxRequest _ => true
  | .xcrListenSend _ => true
  | .xcrWakeSequence _ => true
  | .xcrDeferredSend _ => true
  | .xcrCheckinMissed sensor => decide (sensor < 1024)
  | .xcvrReadbackTimeout _ => true
  | .xcrRxqPop => true
  | .resetNAssert => true
  | .warmupEntry => true
  | .warmupComplete fail _ _ => decide (fail = 0 ∨ fail = 1 ∨ fail = 3 ∨ fail = 4)
  | .pwrGoRace => true
  | .pwrGoRerun => true
  | .pwrResetKey key => decide (key < 65536)
  | .pfwNFall => true
  | .saveWriteDone _ _ => true
  | .holdEnd => true
  | .autoRestartExpiry => true
  | .watchdogExpiry => true
  | .clockLoss => true
  | .healthSample readings => decide (readings.length = 48 ∧ readings.all (· < 65536))
  | .healthSnapshotRequest => true
  | .healthSnapshotReady => true
  | .healthSnapshotRelease _ => true
  | .clkTkTick => true
  | .pcieLinkUp _ _ => true
  | .mainPowerLoss => true
  | .mainPowerUp => true
  | .vbatLoss => true
  | .keyCmdComplete => true
  | .winCmdComplete => true

end Sys2Proof
end

