-- ==== Sys2Proof/Tests/Slice0.lean ====
section
/-!
SUPPORT. The author's own tests: ill-formed commands are refused; check values of the algorithms that standards give; and for every statement
with hypotheses a theorem `witness_<statement>` that shows, clause by clause, a state and operands that meet them together.
-/
namespace Sys2Proof.Tests
set_option Elab.async false
open Sys2Proof Sys2Proof.Machine

/-! Commands as syntax. -/

theorem test_wf_refuses_1 : [(.ethFrameReceived (8) [] false : Instr), .ethCfgWrite (8) 0#32, .ethLinkChange (8) false false false false false,
  .tcpConnectionOpen (2048) 0, .tcpConnectionOpen 0 (2 ^ 32), .tcpReconnectExpiry (2048) false 0, .tcpReconnectExpiry 0 false (2 ^ 32), .rgooseLaneWrite (16384) 0,
  .lapOpen (1024) 0, .lapSkip (1024) 0, .deadlineExpiry (1024) 0, .finishLineExpiry (1024) 0, .fenceClear (1024) 0, .winCmdFixed (2 ^ 24), .winCmdSetWmin (2 ^ 24),
  .winCmdSetWmax (2 ^ 24), .taskGatherDone 0 0 0 [16384] false, .taskGatherDone (4096) 0 0 [] false, .taskCommit (4096) 0 0 false, .residueMismatch (4096) 0 0 0 false,
  .residueMismatch 0 0 0 (6) false, .engineSuspectExpiry (96), .instanceTimerExpiry (1024) 0 0, .aoutForceWrite (16) 0#32, .aoutMinOnExpiry (16), .gooseRetransmit (64),
  .c37CfgPeriodic (64), .egressTcpAccept 0 (8) false 0 0 0 0 0, .egressTcpAccept 0 0 false 0 (2 ^ 16) 0 0 0, .egressTcpAccept 0 0 false 0 0 (2 ^ 16) 0 0,
  .egressTcpAccept 0 0 false 0 0 0 (2 ^ 32) 0, .egressTcpAccept 0 0 false 0 0 0 0 (2 ^ 32), .c37CmdTxOff false 0 (2 ^ 16), .c37CmdTxOn false 0 (2 ^ 16),
  .c37CmdSendHdr false 0 (2 ^ 16), .c37CmdSendCfg1 false 0 (2 ^ 16), .c37CmdSendCfg2 false 0 (2 ^ 16), .c37CmdSendCfg3 false 0 (2 ^ 16), .c37CmdOther 6 false 0 0,
  .c37CmdOther 7 false 0 (2 ^ 16), .c37CmdOther (2 ^ 16) false 0 0, .egressTcpAckReceived 0 (2 ^ 32), .txFrameComplete 0 0 32767, .txFrameComplete (8) 0 0,
  .txFrameComplete 0 0 (65536)].all (fun i => !i.wf) = true := by decide

theorem test_wf_refuses_2 : [(.lmfGrpWrite (8) 0#32 : Instr), .channelFault (64), .channelFaultClear (64), .captureStrobe false [],
  .captureStrobe false (List.replicate 64 (2 ^ 128)), .phasorStrobe false [], .phasorStrobe false (List.replicate 64 (2 ^ 128)), .lmfChRunStart (64) 0#32,
  .lmfChRunStop (64) 0#32, .lmfSwitchRequest (64) 0#32, .acqArm (8), .acqDisarm (8), .acqForce (8), .captureRecordEnd (8), .plsiLevelChange (32) false, .pulseAccept (32),
  .nrgSnapshotRequest (512), .intervalClose (512), .pulseOutputEnable (32) 0#32, .pulseOutputDisable (32) 0#32, .pulseOutputPhaseEnd (32), .ptpAnnounceTimeout (8),
  .ptpTransmitTimer (8) 0, .ptpTransmitTimer 0 (3), .irigFrameReceived 0 [] 0, .irigFrameReceived 0 (List.replicate 100 (3)) 0,
  .irigFrameReceived (8) (List.replicate 100 0) 0, .sourceQualified 0, .sourceQualified 4, .mgtFrameReceived 40001 [], .ethTxtsPop (8) 0#32, .ethTxtsIdRead (8),
  .counterLoRead (8), .rcRegisterRead (2 ^ 22), .rxlFrameReceived 5 [], .rxlAckDelayExpiry (64), .rxlRetransmitTimeout (64) 0, .rxlRetransmitTimeout 0 (2),
  .cadenceSend false 64, .cadenceSend true 4096, .peerLossTimeout (4096), .rxlCadenceTimeout (64), .rxlLockChange (4) false, .rxlPortEnable (4) 0#32,
  .rxlTrainingDone (4)].all (fun i => !i.wf) = true := by decide

theorem test_wf_refuses_3 : [(.partWaitExpiry (1024) 0 : Instr), .bar0BadAccess false (2 ^ 22) 0, .registerWrite (2 ^ 22) 0#32, .sqTailDoorbell (64) 0#32,
  .cqHeadDoorbell (64) 0#32, .descriptorFetch 0 [] [], .descriptorFetch (32) (List.replicate 8 0#32) [], .opNop (32), .opTableLoad (32), .opTableRead (32),
  .opHeatEnable (32), .opHeatDisable (32), .opMemRead (32) none, .opStreamRead (32), .opUndefined (32), .dmaReadCompletion (32) [] false, .cqCoalesceTimeout (64),
  .dmaChStop (32), .dmaAbortDone (32), .dmaChStart (32), .streamReadIdleTimeout (32), .streamFifoFlush (3), .keyCmdWrite false (64) 0, .keyCmdWrite false 0 (256),
  .keyCmdErase false (64), .keyCmdSetNext false (1024), .keyCmdRoll false (1024), .keyCmdClear false (1024), .bootDigestExtend (8) [], .scrubRead 13 0 0#32 0 0,
  .scrubRead 0 0 0#32 (3) 0, .scrubRead 18 0 0#32 0 0, .scrubPeriodEnd false 13, .scrubPeriodEnd false 18, .xcrFrameReceived (2048) [], .xcrCheckinMissed (1024),
  .warmupComplete 2 0#32 0, .pwrResetKey (65536), .healthSample [], .healthSample (List.replicate 48 (65536))].all (fun i => !i.wf) = true := by decide

theorem test_wf_admits_1 : [(.ethFrameReceived 0 [] false : Instr), .ethCfgWrite 0 0#32, .ethLinkChange 0 false false false false false, .tcpConnectionOpen 0 0,
  .tcpReconnectExpiry 0 false 0, .rgooseLaneWrite 0 0, .lapOpen 0 0, .lapSkip 0 0, .deadlineExpiry 0 0, .finishLineExpiry 0 0, .fenceClear 0 0, .winCmdFixed 0,
  .winCmdSetWmin 0, .winCmdSetWmax 0, .taskGatherDone 0 0 0 [] false, .taskCommit 0 0 0 false, .residueMismatch 0 0 0 0 false, .engineSuspectExpiry 0,
  .instanceTimerExpiry 0 0 0, .aoutForceWrite 0 0#32, .aoutMinOnExpiry 0, .gooseRetransmit 0, .c37CfgPeriodic 0, .egressTcpAccept 0 0 false 0 0 0 0 0,
  .c37CmdTxOff false 0 0, .c37CmdTxOn false 0 0, .c37CmdSendHdr false 0 0, .c37CmdSendCfg1 false 0 0, .c37CmdSendCfg2 false 0 0, .c37CmdSendCfg3 false 0 0,
  .c37CmdOther 7 false 0 0, .egressTcpAckReceived 0 0, .txFrameComplete 0 0 0, .lmfGrpWrite 0 0#32, .channelFault 0, .channelFaultClear 0,
  .captureStrobe false (List.replicate 64 0), .phasorStrobe false (List.replicate 64 0), .lmfChRunStart 0 0#32, .lmfChRunStop 0 0#32, .lmfSwitchRequest 0 0#32, .acqArm 0,
  .acqDisarm 0, .acqForce 0, .captureRecordEnd 0, .plsiLevelChange 0 false, .pulseAccept 0, .nrgSnapshotRequest 0, .intervalClose 0, .pulseOutputEnable 0 0#32,
  .pulseOutputDisable 0 0#32, .pulseOutputPhaseEnd 0, .ptpAnnounceTimeout 0, .ptpTransmitTimer 0 0, .irigFrameReceived 0 (List.replicate 100 0) 0, .sourceQualified 1,
  .mgtFrameReceived 0 [], .ethTxtsPop 0 0#32, .ethTxtsIdRead 0, .counterLoRead 0].all (fun i => i.wf) = true := by decide

theorem test_wf_admits_2 : [(.rcRegisterRead 0 : Instr), .rxlFrameReceived 0 [], .rxlAckDelayExpiry 0, .rxlRetransmitTimeout 0 0, .cadenceSend false 0,
  .peerLossTimeout 0, .rxlCadenceTimeout 0, .rxlLockChange 0 false, .rxlPortEnable 0 0#32, .rxlTrainingDone 0, .partWaitExpiry 0 0, .bar0BadAccess false 0 0,
  .registerWrite 0 0#32, .sqTailDoorbell 0 0#32, .cqHeadDoorbell 0 0#32, .descriptorFetch 0 (List.replicate 8 0#32) [], .opNop 0, .opTableLoad 0, .opTableRead 0,
  .opHeatEnable 0, .opHeatDisable 0, .opMemRead 0 none, .opStreamRead 0, .opUndefined 0, .dmaReadCompletion 0 [] false, .cqCoalesceTimeout 0, .dmaChStop 0,
  .dmaAbortDone 0, .dmaChStart 0, .streamReadIdleTimeout 0, .streamFifoFlush 0, .keyCmdWrite false 0 0, .keyCmdErase false 0, .keyCmdSetNext false 0, .keyCmdRoll false 0,
  .keyCmdClear false 0, .bootDigestExtend 0 [], .scrubRead 0 0 0#32 0 0, .scrubPeriodEnd false 0, .xcrFrameReceived 0 [], .xcrCheckinMissed 0, .warmupComplete 0 0#32 0,
  .pwrResetKey 0, .healthSample (List.replicate 48 0)].all (fun i => i.wf) = true := by decide

/-- No row of the table has bits. -/
theorem test_decode_none : decodeTableWord 16 0x1234 = none := rfl

/-! Check values of standards: IEEE 802.3, C37.118 (the CCITT CRC of "123456789"), FIPS 180-4 ("abc") and RFC 4231 (case 2). -/

abbrev digits : List Byte := [0x31#8, 0x32#8, 0x33#8, 0x34#8, 0x35#8, 0x36#8, 0x37#8, 0x38#8, 0x39#8]
theorem test_crc32 : crc32 digits = 0xCBF43926 := by decide +kernel
theorem test_crc_ccitt : crcCcitt digits = 0x29B1 := by decide +kernel
theorem test_sha256 : beNat (sha256 [0x61#8, 0x62#8, 0x63#8]) = 0xba7816bf8f01cfea414140de5dae2223b00361a396177a9cb410ff61f20015ad := by decide +kernel
theorem test_hmac : beNat (hmacSha256 [0x4A#8, 0x65#8, 0x66#8, 0x65#8] (([0x77, 0x68, 0x61, 0x74, 0x20, 0x64, 0x6F, 0x20, 0x79, 0x61, 0x20, 0x77, 0x61,
    0x6E, 0x74, 0x20, 0x66, 0x6F, 0x72, 0x20, 0x6E, 0x6F, 0x74, 0x68, 0x69, 0x6E, 0x67, 0x3F] : List Nat).map (BitVec.ofNat 8))) =
    0x5bdcc146bf60754e6a042426089575c75a003f089d2739839dec58b964ec3843 := by decide +kernel

/-! States and devices of the witnesses. -/

/-- A state with nothing waiting. -/
def st (d : Device) : State := ⟨d, []⟩
/-- The device after reset, in a mode. -/
def md (m : Mode) : Device := { Device.reset with pwr := { Device.reset.pwr with mode := m } }
/-- A device at an instant of device time. -/
def tn (d : Device) (t : Time) : Device := { d with tk := { d.tk with now := t } }
/-- A device without power. -/
def unpowered : Device := { Device.reset with pwr := { Device.reset.pwr with powered := false, mode := .reset } }
/-- The device after reset. -/
abbrev B : Device := Device.reset
/-- The device after reset, in RACE, FOLLOW and RERUN. -/
abbrev R : Device := md .race
abbrev F : Device := md .follow
abbrev U : Device := md .rerun
/-- WARMUP complete. -/
abbrev warm : Device := { B with pwr := { B.pwr with wuDone := true } }
/-- A DMA channel that runs a descriptor, with its link up and completion ring 5 enabled. -/
def runs (c : Nat) (x : Xfer) : Device :=
  { ((R.setf HIF_STAT.LINK_UP 1).setf HIF_CQ_CFG.EN 1 5).setf HIF_CQ_CFG.SIZE_LOG2 6 5 with
    hif := { R.hif with ch := [(c, ⟨.running, some x, 0, [], 0, false, 0, none⟩)] } }
/-- A device whose channel 31 has a descriptor to fetch on ring 63. -/
abbrev fetched : Device :=
  { (((R.setf HIF_STAT.LINK_UP 1).setf HIF_CQ_CFG.EN 1 5).setf HIF_SQ_CFG.EN 1 63).setf HIF_SQ_CFG.CHAN 31 63 |>.setf HIF_SQ_CFG.CQ 5 63 with
    hif := { R.hif with sq := [(63, ⟨63, 0⟩)] } }
/-- A committed bank. -/
abbrev keyBank : Bank := ⟨1, 255, List.replicate 32 7#8, bankCrc ⟨1, 255, List.replicate 32 7#8, 0#32⟩⟩
/-- A device whose root slot 0 holds a key. -/
abbrev rooted : Device := { R with key := { R.key with slots := [(0, ⟨keyBank, ⟨0, 0, List.replicate 32 0#8, 0#32⟩⟩)] } }
/-- A device whose journal is on. -/
abbrev jon (d : Device) : Device := ((d.setf JNL_CFG.EN 1).setf JNL_DDR.VALID 1).setf HIF_SF_CFG.EN 1 0
/-- A device whose radio runs, with a wide dwell limit. -/
abbrev rad : Device := (R.setf XCR_CFG.EN 1).setf XCR_DWELL.DWELL_MS 65535
/-- A request of the radio, in a phase. -/
abbrev xrq (p : XPhase) (retries : Nat) : XReq := ⟨2, true, 5, 9, [1#8], retries, p, false⟩
/-- The airtime of a frame stays within the limit whatever the length of the head. -/
theorem fits_air (d : Device) (ch t a n : Nat) (h : d.airUsed ch t + a + (65535 + n) * d.octetT ≤ d.f XCR_DWELL.DWELL_MS * Time.msU) :
    d.fits ch t (a + d.airtime n) = true := by
  unfold Device.fits Device.airtime
  have hx : Config.xcrHead.toNat + n ≤ 65535 + n := Nat.add_le_add_right (Nat.le_of_lt_succ Config.xcrHead.isLt) n
  rw [← Nat.add_assoc]
  exact decide_eq_true (Nat.le_trans (Nat.add_le_add_left (Nat.mul_le_mul_right _ hx) _) h)
/-- The airtime already used is over the limit. -/
theorem full_air (d : Device) (ch t n : Nat) (h : d.f XCR_DWELL.DWELL_MS * Time.msU < d.airUsed ch t) : d.fits ch t n = false := by
  exact decide_eq_false (Nat.not_le.mpr (Nat.lt_of_lt_of_le h (Nat.le_add_right _ _)))
/-- A device whose timekeeper is as given. -/
abbrev tkd (f : Tk → Tk) (d : Device) : Device := { d with tk := f d.tk }
/-- A frame of IRIG-B symbols: the position marks, all else zero. -/
abbrev marks : List Nat := (List.range 100).map (fun i => if i = 0 ∨ i % 10 = 9 then 2 else 0)
/-- An Announce of another clock. -/
abbrev annMsg : List Byte := [0x0B#8, 0x02#8, 0#8, 64#8] ++ List.replicate 60 0#8
/-- A device whose local channel 63 has the given state. -/
abbrev chd (f : LmfChan → LmfChan) (d : Device) : Device := { d with lmf := { d.lmf with chans := [(63, f chanInit)] } }
/-- A device with the given entries of one table. -/
abbrev tabd (t : Nat) (es : List (Nat × List Word)) (d : Device) : Device := { d with tables := es.map (fun e => (tabKey t 0 e.1, e.2)) }
/-- A device whose capture group 7 is in a state. -/
abbrev grpd (x : CapGrp) (d : Device) : Device := { d with acq := { d.acq with grps := [(7, x)] } }
/-- A device whose trigger 9 is true of group 7, on capture channel 5. -/
abbrev trigd : Device :=
  { grpd { grpInit with st := .armed } R with
    tables := [(tabKey tCapGroup 0 7, [0x80000001#32, 0#32, 0#32, 0#32, 0#32, 0#32, 0#32, 0#32]), (tabKey tCapList 0 0, [5#32]),
      (tabKey tTrigger 0 9, [0xA0800100#32, 5#32, 0#32, 0x3F800000#32])]
    acq := { (grpd { grpInit with st := .armed } R).acq with hist := [(5, [⟨990 * Time.msU, 0#32, false, false, false⟩])] }
    tk := { R.tk with now := Time.secU } }
/-- A UDP client that asks for CFG-3, entry 63, and its TCP twin. -/
abbrev udpE : List Word := [0x0A000001#32, 0#32, 0#32, 0#32, 0#32, 0x84000007#32, 0x00800000#32, 0#32]
abbrev tcpE : List Word := [0x0A000001#32, 0#32, 0#32, 0#32, 0#32, 0xC4000007#32, 0x00800000#32, 0#32]
abbrev cl (x : ClientSt) : Device := { tabd tClient [(63, udpE)] R with egr := { R.egr with clients := [(63, x)] } }
/-- A device with one TCP connection of the egress. -/
abbrev tcpc (x : EgrConn) : Device := { R with egr := { R.egr with conns := [(5, x)] } }
abbrev conn0 : EgrConn := ⟨[10#8, 0#8, 0#8, 1#8], 4712, 7, 1460, 9, none, 100, 50, 0, [(50, [1#8])], [], false, false, 0⟩
/-- A task of instance 0 at lap 1. -/
abbrev tsk (seq : Nat) (p : Phase) (g : Option (List (Nat × List (List Word)))) : Task :=
  ⟨⟨0, 1, seq, none, 0, none, [], none, false⟩, 3, p, 95, g, false, false, false, 0, false⟩
abbrev fly (l : List Task) (d : Device) : Device := { d with srt := { d.srt with flight := l } }
/-- A device whose port 7 is ACTIVE. -/
abbrev linked : Device := { R.setf ETH_STATUS.LINK 1 7 with srt := { R.srt with admin := [(8199, true)] } }
/-- A heat in run, a lap of it, and a timer of that lap. -/
abbrev hrun : HeatRun := ⟨true, 0, 1, 2, [], [0], 0, 0, [], 0, 0, false, false, false, 0, 0, none⟩
abbrev heated (ls : List Lap) (ts : List Timer) : Device :=
  { R with pfa := { R.pfa with heats := [(1023, hrun)], laps := ls.map (fun l => (lapKey l.heat l.lap, l)) }, srt := { R.srt with timers := ts }, tk := { R.tk with now := Time.secU } }
abbrev lapx (n : Nat) (x : LapState) : Lap := { lapNew_ 1023 n 0 with st := x }
abbrev tmr (k : TimerKind) : Timer := ⟨7, 0, k, 1023, 2, 5, false⟩
/-- Instance 0 of heat 1023, by its trigger. -/
abbrev inst0 (trig : Word) : List Word := [0x80000101#32, 0xFFC00000#32, 0#32, 0#32, trig, 0#32, 0#32, 0#32]
/-- A matching store that is full. -/
abbrev crowded (d : Device) : Device := { d with srt := { d.srt with reserved := 4096 } }
/-- A frame with its check sequence. -/
abbrev fcs (b : List Byte) : List Byte := b ++ le32 (w32 (crc32 b))
abbrev bcast : List Byte := fcs (List.replicate 6 0xFF#8 ++ List.replicate 54 0#8)
/-- A frame of the federation. -/
abbrev rxf (w0 w1 : Word) (n : Nat) : List Byte := fcs (leBytes [w0, w1, 0#32, 0x00700000#32] ++ List.replicate n 0#8)
/-- A device whose RXL port 3 is locked, with its link in use. -/
abbrev fed : Device :=
  { tabd tLink [(3, [0#32, 0#32, 0#32, 0#32, 0x80000000#32, 7#32, 0#32, 0#32])] (R.setf RXL_PORT.LOCK 1 3) with
    rxl := { R.rxl with links := [(3, { linkInit with up := true })] } }
/-- An IPv6 frame from :: to ::, and a segment of one octet to TCP port 0. -/
abbrev ip6 (nh : Byte) (b : List Byte) : List Byte :=
  List.replicate 12 0#8 ++ [0x86#8, 0xDD#8, 0x60#8, 0#8, 0#8, 0#8, 0#8, BitVec.ofNat 8 b.length, nh, 0#8] ++ List.replicate 32 0#8 ++ b
abbrev seg (fl ck : Byte) : List Byte :=
  [0x12#8, 0x68#8, 0#8, 0#8, 0#8, 0#8, 0#8, 0#8, 0#8, 0#8, 0#8, 0#8, 0x50#8, fl, 0#8, 0#8, 0x9C#8, ck, 0#8, 0#8, 1#8]
abbrev zeros16 : List Byte := List.replicate 16 0#8
/-- A device with a PMU connection open on port 7 and a segment waiting. -/
abbrev tcpd (fl ck : Byte) (next : Nat) : Device :=
  { linked with
    tables := [(tabKey tPort 7 0, [0#32, 0#32, 0#32, 0#32, 0xA0000000#32]), (tabKey tTcp 0 63, [0#32, 0#32, 0#32, 0#32, 0#32, 0xC0000000#32, 0x80#32, 0#32])]
    ing := { R.ing with conns := [(63, { tcpInit with isOpen := true, next := next })], tcpq := [(7, ⟨ip6 6#8 (seg fl ck), 0, 79⟩)] } }
/-- A device with an R-GOOSE stream that feeds lane 16383 of heat 1023. -/
abbrev goosed (st : List Staged) : Device :=
  { heated [] [] with
    tables := [(tabKey tLane 0 16383, [0x80000000#32, 0xFFC00000#32, 0#32, 0#32]), (tabKey tSignal 0 5, [0xF301BFFF#32, 0x100#32, 0#32, 0#32])]
    pfa := { (heated [] []).pfa with stage := st } }
/-- A device whose link 3 is as given. -/
abbrev lnk (x : LinkSt) : Device := { R with rxl := { R.rxl with links := [(3, x)] } }
/-- A frame in a send buffer. -/
abbrev snt (times : Nat) : RxlSent := ⟨9, ⟨3, 8, 0, 7, List.replicate 16 0#8⟩, times, 0⟩
/-- A device that combines instance 0 of the spanning heat 1023. -/
abbrev spanned : Device :=
  { heated [] [] with
    tables := [(tabKey tHeat 0 1023, [0x00080000#32, 4#32, 0#32, 0#32, 0#32, 0#32, 0#32, 0#32]), (tabKey tInst 0 0, [0x80000303#32, 0xFFC00000#32, 0#32, 0#32, 0#32, 0#32, 0#32, 0#32]),
      (tabKey tSpan 0 1023, [0x80000001#32, 0#32, 1#32, 0#32, 0#32])] }


/-! Witnesses, in the order of the statements. -/

theorem witness_StepRunsTheFrontCommand :
  (∃ (s : State) (c : Instr) (rest : List Instr), s.pending = c :: rest) ∧
  (∃ (s : State), s.pending = []) :=
  ⟨⟨⟨B, [.rerunGo]⟩, .rerunGo, [], by decide +kernel⟩,
  ⟨st B, by decide +kernel⟩⟩

theorem witness_ResetHoldsTheStatedValues :
  (∃ (r : RegDef) (f : Fld) (i : Nat), r ∈ regMap ∧ f ∈ r.fields ∧ i < r.count ∧ r.base ≠ 0x010108) ∧
  (∃ (i : Nat), i < 32) :=
  ⟨⟨PWR_STAT, (PWR_STAT.fields.headD ⟨"", 0, 0, .ro, 0⟩), 0, by decide +kernel⟩,
  ⟨31, by decide +kernel⟩⟩

theorem witness_StepKeepsMemoryCanonical :
  ∃ (s : State) (t : State), Memory.wf s.dev.ddr = true ∧ step s = .next t :=
  ⟨State.reset, State.reset, by decide +kernel, rfl⟩

theorem witness_StepMovesModeByTheTable :
  ∃ (s : State) (t : State), step s = .next t :=
  ⟨State.reset, State.reset, rfl⟩

theorem witness_OnlyKeyCommandsChangeKeys :
  ∃ (c : Instr) (s : State) (t : State), reachesKeys c = false ∧ exec c s = .next t :=
  ⟨.rerunGo, st (md .reset), st (md .reset), by decide +kernel, rfl⟩

theorem witness_TimeMovesOnlyAtATick :
  ∃ (c : Instr) (s : State) (t : State), exec c s = .next t ∧ c ≠ .clkTkTick ∧ c ≠ .mainPowerUp ∧ c ≠ .warmupEntry ∧ c ≠ .autoRestartExpiry :=
  ⟨.rerunGo, st (md .reset), st (md .reset), rfl, by decide +kernel⟩

theorem witness_DeadDeviceTakesNoCommand :
  ∃ (c : Instr) (s : State), s.dev.alive = false ∧ reachesDead c = false :=
  ⟨.rerunGo, st (md .reset), by decide +kernel⟩

theorem witness_ResetKeyActs :
  (∃ (s : State) (key : Nat), s.dev.alive = true ∧ key % 65536 = 0xA5C3) ∧
  (∃ (s : State) (key : Nat), s.dev.alive = true ∧ key % 65536 ≠ 0xA5C3 ∧ key % 65536 ≠ 0) ∧
  (∃ (s : State) (v : Word), s.dev.alive = true ∧ bx v 15 0 = 0xA5C3) ∧
  (∃ (s : State) (v : Word), s.dev.alive = true ∧ bx v 15 0 ≠ 0xA5C3 ∧ bx v 15 0 ≠ 0) :=
  ⟨⟨st (R), 0xA5C3, by decide +kernel⟩,
  ⟨st (md .hold), 0xA5C4, by decide +kernel⟩,
  ⟨st (R), 0xA5C3#32, by decide +kernel⟩,
  ⟨st (R), 0xA5C4#32, by decide +kernel⟩⟩

theorem witness_MaximumLengthWritesAct :
  (∃ (s : State) (p : Nat) (v : Word), s.dev.alive = true ∧ p < 8 ∧ (bx v 29 16 < 1518 ∨ 9216 < bx v 29 16)) ∧
  (∃ (s : State) (p : Nat) (v : Word), s.dev.alive = true ∧ p < 8 ∧ 1518 ≤ bx v 29 16 ∧ bx v 29 16 ≤ 9216 ∧ bx v 2 0 = 0 ∧ bx v 9 8 = 0) ∧
  (∃ (p : Nat), p < 8) :=
  ⟨⟨st (R), 7, 0x05ED0000#32, by decide +kernel⟩,
  ⟨st (R), 7, 0x24000000#32, by decide +kernel⟩,
  ⟨7, by decide +kernel⟩⟩

theorem witness_ResetAndPowerCommandsAct :
  (∃ (s : State), s.dev.pwr.powered = true ∧ s.dev.pwr.mode ≠ .reset) ∧
  (∃ (s : State), s.dev.pwr.powered = true ∧ s.dev.pwr.mode = .reset ∧ s.dev.pwr.holdFatal = false) ∧
  (∃ (s : State) (t : Nat), s.dev.pwr.powered = true ∧ s.dev.pwr.mode = .reset ∧ s.dev.pwr.restartAt = some t ∧ s.dev.pwr.resetN = true ∧ s.dev.pwr.pfw = true) ∧
  (∃ (s : State) (t : Nat), s.dev.pwr.powered = true ∧ s.dev.pwr.mode = .reset ∧ s.dev.pwr.restartAt = some t ∧ (s.dev.pwr.resetN = false ∨ s.dev.pwr.pfw = false)) ∧
  (∃ (s : State), s.dev.pwr.powered = true) ∧
  (∃ (s : State), s.dev.pwr.powered = false) :=
  ⟨⟨st (R), by decide +kernel⟩,
  ⟨st (md .reset), by decide +kernel⟩,
  ⟨st ({ md .reset with pwr := { (md .reset).pwr with restartAt := some 5, resetN := true, pfw := true, holdFatal := true } }), 5, by decide +kernel⟩,
  ⟨st ({ md .reset with pwr := { (md .reset).pwr with restartAt := some 5, resetN := false, pfw := true, holdFatal := true } }), 5, by decide +kernel⟩,
  ⟨st (R), by decide +kernel⟩,
  ⟨st (unpowered), by decide +kernel⟩⟩

theorem witness_WarmupAndGoCommandsAct :
  (∃ (s : State), s.dev.alive = true ∧ s.dev.pwr.mode = .warmup ∧ s.dev.pwr.wuDone = false) ∧
  (∃ (s : State) (fail : Nat), s.dev.alive = true ∧ s.dev.pwr.mode = .warmup ∧ s.dev.pwr.wuDone = false ∧ (fail = 1 ∨ fail = 3 ∨ fail = 4)) ∧
  (∃ (s : State), s.dev.alive = true ∧ s.dev.pwr.mode = .warmup ∧ s.dev.pwr.wuDone = true ∧ s.dev.fb RLY_CFG.EN = false) ∧
  (∃ (s : State), s.dev.alive = true ∧ s.dev.pwr.mode = .warmup ∧ s.dev.pwr.wuDone = true ∧ s.dev.fb RLY_CFG.EN = true ∧ s.dev.fb RLY_CFG.ROLE = true) ∧
  (∃ (s : State), s.dev.alive = true ∧ s.dev.pwr.mode = .warmup ∧ s.dev.pwr.wuDone = true) ∧
  (∃ (s : State) (c : Instr), s.dev.alive = true ∧ (s.dev.pwr.mode ≠ .warmup ∨ s.dev.pwr.wuDone = false) ∧ (c = .pwrGoRace ∨ c = .pwrGoRerun)) :=
  ⟨⟨st (B), by decide +kernel⟩,
  ⟨st (B), 4, by decide +kernel⟩,
  ⟨st (warm), by decide +kernel⟩,
  ⟨st (((warm).setf RLY_CFG.EN 1).setf RLY_CFG.ROLE 1), by decide +kernel⟩,
  ⟨st (warm), by decide +kernel⟩,
  ⟨st (R), Instr.pwrGoRerun, by decide +kernel⟩⟩

theorem witness_HoldCommandsAct :
  (∃ (s : State), s.dev.alive = true ∧ s.dev.pwr.mode ≠ .hold) ∧
  (∃ (s : State), s.dev.alive = true ∧ s.dev.pwr.mode = .hold ∧ s.dev.pwr.saveEnded = none) ∧
  (∃ (s : State) (t : Nat), s.dev.alive = true ∧ s.dev.pwr.mode = .hold ∧ s.dev.pwr.saveEnded = some t ∧ t + 10 * Time.msU ≤ s.dev.tk.now) :=
  ⟨⟨st (R), by decide +kernel⟩,
  ⟨st (md .hold), by decide +kernel⟩,
  ⟨st ({ md .hold with pwr := { (md .hold).pwr with saveEnded := some 0 }, tk := { B.tk with now := 10 * Time.msU } }), 0, by decide +kernel⟩⟩

theorem witness_HealthCommandsAct :
  (∃ (s : State) (r : List Nat), s.dev.alive = true ∧ r.length = 48) ∧
  (∃ (s : State), s.dev.alive = true ∧ s.dev.pwr.slot.st = .free) ∧
  (∃ (s : State), s.dev.alive = true ∧ s.dev.pwr.slot.st ≠ .free) ∧
  (∃ (s : State), s.dev.alive = true ∧ s.dev.pwr.slot.st = .busy) ∧
  (∃ (s : State) (v : Word), s.dev.alive = true ∧ s.dev.pwr.slot.st = .held ∧ bx v 15 0 = s.dev.pwr.slot.seq) :=
  ⟨⟨st (R), List.replicate 48 20000, by decide +kernel⟩,
  ⟨st (R), by decide +kernel⟩,
  ⟨st ({ R with pwr := { R.pwr with slot := ⟨.held, 3, []⟩ } }), by decide +kernel⟩,
  ⟨st ({ R with pwr := { R.pwr with slot := ⟨.busy, 3, []⟩ } }), by decide +kernel⟩,
  ⟨st ({ R with pwr := { R.pwr with slot := ⟨.held, 3, [1#32]⟩ } }), 3#32, by decide +kernel⟩⟩

theorem witness_RegisterAccessesAct :
  (∃ (s : State) (port : Nat), s.dev.alive = true ∧ port < 8) ∧
  (∃ (s : State) (addr : Nat) (r : _) (i : Nat), s.dev.alive = true ∧ badAccess addr 4 = false ∧ (¬(addr / 65536 = 4 ∧ addr % 0x2000 = 0x180)) ∧
    findReg addr = some (r, i) ∧ r.base ≠ 0x020020 ∧ r.base ≠ 0x041014) ∧
  (∃ (s : State) (w : Bool) (addr : Nat) (size : Nat), s.dev.alive = true ∧ badAccess addr size = true ∧ (¬(w = false ∧ size = 8 ∧ addr % 4 = 0))) ∧
  (∃ (s : State) (addr : Nat), s.dev.alive = true ∧ addr % 4 = 0) ∧
  (∃ (s : State) (addr : Nat) (v : Word) (r : _) (i : Nat), s.dev.alive = true ∧ badAccess addr 4 = false ∧ findReg addr = some (r, i) ∧
    specialWrite r.base (s.dev.instOf r i) v s.dev = none ∧ r.key (s.dev.instOf r i) ≠ HIF_BLK_IRQ.key 0) :=
  ⟨⟨st (R), 7, by decide +kernel⟩,
  ⟨st (R), 0x010000, PWR_STAT, 0, by decide +kernel⟩,
  ⟨st (R), true, 2, 4, by decide +kernel⟩,
  ⟨st (R), 0x03FFFC, by decide +kernel⟩,
  ⟨st (R), 0x150008, 0x1234#32, RXL_UDP, 0, by decide +kernel⟩⟩

theorem witness_WritesFollowAccessCodes :
  (∃ (f : Fld), f.lo ≤ f.hi ∧ f.hi < 32 ∧ (f.acc = .rw ∨ f.acc = .wo)) ∧
  (∃ (f : Fld) (j : Nat), f.lo ≤ f.hi ∧ f.hi < 32 ∧ f.acc = .w1c ∧ f.lo ≤ j ∧ j ≤ f.hi) ∧
  (∃ (f : Fld) (j : Nat), f.lo ≤ f.hi ∧ f.hi < 32 ∧ f.acc = .w1s ∧ f.lo ≤ j ∧ j ≤ f.hi) ∧
  (∃ (f : Fld), f.lo ≤ f.hi ∧ f.hi < 32 ∧ (f.acc = .ro ∨ f.acc = .rc)) ∧
  (∃ (f : Fld) (hi : Nat) (lo : Nat), f.lo ≤ f.hi ∧ f.hi < 32 ∧ lo ≤ hi ∧ hi < 32 ∧ (hi < f.lo ∨ f.hi < lo)) :=
  ⟨⟨⟨"F", 31, 0, .rw, 0⟩, by decide +kernel⟩,
  ⟨⟨"F", 31, 31, .w1c, 0⟩, 31, by decide +kernel⟩,
  ⟨⟨"F", 31, 31, .w1s, 0⟩, 31, by decide +kernel⟩,
  ⟨⟨"F", 31, 0, .rc, 0⟩, by decide +kernel⟩,
  ⟨⟨"F", 30, 1, .rw, 0⟩, 31, 31, by decide +kernel⟩⟩

theorem witness_RingCommandsAct :
  (∃ (s : State) (q : Nat) (v : Word), s.dev.alive = true ∧ q < 64 ∧ s.dev.fb HIF_SQ_CFG.EN q = true ∧ bx v 15 0 < s.dev.sqSize q) ∧
  (∃ (s : State) (q : Nat) (v : Word), s.dev.alive = true ∧ q < 64 ∧ (s.dev.fb HIF_SQ_CFG.EN q = false ∨ s.dev.sqSize q ≤ bx v 15 0)) ∧
  (∃ (s : State) (q : Nat) (v : Word), s.dev.alive = true ∧ q < 64 ∧ s.dev.fb HIF_CQ_CFG.EN q = true ∧ bx v 15 0 < s.dev.cqSize q ∧
    (bx v 15 0 + s.dev.cqSize q - (s.dev.cqSt q).head) % s.dev.cqSize q ≤ ((s.dev.cqSt q).tail + s.dev.cqSize q - (s.dev.cqSt q).head) % s.dev.cqSize q) ∧
  (∃ (s : State) (v : Word), s.dev.alive = true ∧ s.dev.fb HIF_SQ_CFG.EN (s.dev.f HIF_SQ_SEL.RING) = false ∧ sizeOk v 20 16 = true) ∧
  (∃ (s : State) (v : Word), s.dev.alive = true ∧ s.dev.fb HIF_CQ_CFG.EN (s.dev.f HIF_CQ_SEL.RING) = false ∧ sizeOk v 28 24 = true ∧ bx v 30 29 ≠ 3) ∧
  (∃ (s : State), s.dev.alive = true ∧ s.dev.fb HIF_SQ_CFG.EN (s.dev.f HIF_SQ_SEL.RING) = true) ∧
  (∃ (s : State), s.dev.alive = true ∧ s.dev.fb HIF_CQ_CFG.EN (s.dev.f HIF_CQ_SEL.RING) = true) ∧
  (∃ (s : State) (q : Nat) (t : Nat), s.dev.alive = true ∧ q < 64 ∧ s.dev.awake = true ∧ s.dev.fb HIF_STAT.LINK_UP = true ∧ s.dev.fb HIF_CQ_CFG.EN q = true ∧
    s.dev.f HIF_CQ_CFG.COAL_US q ≠ 0 ∧ (s.dev.cqSt q).first = some t ∧ t + s.dev.f HIF_CQ_CFG.COAL_US q * Time.usU ≤ s.dev.now) ∧
  (∃ (s : State), s.dev.alive = true) ∧
  (∃ (s : State), s.dev.alive = true ∧ s.dev.fb HIF_STAT.LINK_UP = false) :=
  ⟨⟨st ((R.setf HIF_SQ_CFG.EN 1 63).setf HIF_SQ_CFG.SIZE_LOG2 6 63), 63, 63#32, by decide +kernel⟩,
  ⟨st (R), 63, 0#32, by decide +kernel⟩,
  ⟨st ({ ((R.setf HIF_CQ_CFG.EN 1 63).setf HIF_CQ_CFG.SIZE_LOG2 6 63) with hif := { R.hif with cq := [(63, ⟨60, 2, 0, none⟩)] } }), 63, 2#32, by decide +kernel⟩,
  ⟨st (R), 0x80060000#32, by decide +kernel⟩,
  ⟨st (R), 0x86000000#32, by decide +kernel⟩,
  ⟨st (R.setf HIF_SQ_CFG.EN 1), by decide +kernel⟩,
  ⟨st (R.setf HIF_CQ_CFG.EN 1), by decide +kernel⟩,
  ⟨st ({ (((R.setf HIF_STAT.LINK_UP 1).setf HIF_CQ_CFG.EN 1 63).setf HIF_CQ_CFG.COAL_US 1 63) with hif := { R.hif with cq := [(63, ⟨0, 1, 1, some 0⟩)] }, tk := { R.tk with now := Time.usU } }),
    63, 0, by decide +kernel⟩,
  ⟨st (R), by decide +kernel⟩,
  ⟨st (R), by decide +kernel⟩⟩

theorem witness_CompletionsReachTheHost :
  ∃ (d : Device) (c : Nat) (x : Xfer), (d.dch c).cur = some x ∧ d.fb HIF_CQ_CFG.EN x.cq = true ∧ d.fb HIF_STAT.LINK_UP = true :=
  ⟨runs 0 ⟨3, 5, [0#32], []⟩, 0, ⟨3, 5, [0#32], []⟩, by decide +kernel⟩

theorem witness_DescriptorCommandsAct :
  (∃ (s : State) (ch : Nat) (q : Nat) (words : List Word) (list : List Word), s.dev.awake = true ∧ ch < 32 ∧ s.dev.fb HIF_STAT.LINK_UP = true ∧ (s.dev.dch ch).st = .idle ∧
    s.dev.nextSq ch = some q ∧ words.length = 8 ∧ dOp words ≤ 5 ∧ dBad words list = none) ∧
  (∃ (s : State) (ch : Nat) (x : Xfer), s.dev.awake = true ∧ ch < 32 ∧ s.dev.xfer ch 0 = some x) ∧
  (∃ (s : State) (ch : Nat) (x : Xfer), s.dev.awake = true ∧ ch < 32 ∧ (s.dev.dch ch).cur = some x ∧ (s.dev.dch ch).st = .running ∧ 5 < dOp x.words) ∧
  (∃ (s : State) (ch : Nat) (x : Xfer), s.dev.awake = true ∧ ch < 32 ∧ s.dev.xfer ch 1 = some x ∧ (s.dev.dch ch).left = 0 ∧ dTable x.words ≠ tGraph) ∧
  (∃ (s : State) (ch : Nat) (x : Xfer), s.dev.awake = true ∧ ch < 32 ∧ s.dev.xfer ch 2 = some x ∧ s.dev.mem.bad = [] ∧ dTable x.words ≠ tGraph) ∧
  (∃ (s : State) (ch : Nat) (x : Xfer), s.dev.awake = true ∧ ch < 32 ∧ s.dev.xfer ch 3 = some x ∧ bx (wd x.words 1) 31 30 = 1) ∧
  (∃ (s : State) (ch : Nat) (x : Xfer), s.dev.awake = true ∧ ch < 32 ∧ s.dev.xfer ch 3 = some x ∧ bx (wd x.words 1) 31 30 = 2) ∧
  (∃ (s : State) (ch : Nat) (x : Xfer), s.dev.awake = true ∧ ch < 32 ∧ s.dev.xfer ch 4 = some x ∧ s.dev.mem.bad = []) ∧
  (∃ (s : State) (ch : Nat) (x : Xfer) (p : Packet), s.dev.awake = true ∧ ch < 32 ∧ s.dev.xfer ch 5 = some x ∧ s.dev.fb HIF_STAT.LINK_UP = true ∧
    s.dev.sfSt (bx (wd x.words 1) 1 0) = [p] ∧ p.kind < 16 ∧ (s.dev.dch ch).copied = 0 ∧ 4 + (pad4 p.payload).length ≤ dLen x.words) :=
  ⟨⟨st (fetched), 31, 63, [5#32, 0#32, 0#32, 0#32, 0#32, 0#32, 0#32, 0#32], [], by decide +kernel⟩,
  ⟨st (runs 31 ⟨3, 5, [0#32], []⟩), 31, ⟨3, 5, [0#32], []⟩, by decide +kernel⟩,
  ⟨st (runs 31 ⟨3, 5, [0x06000000#32], []⟩), 31, ⟨3, 5, [0x06000000#32], []⟩, by decide +kernel⟩,
  ⟨st (runs 31 ⟨3, 5, [0x01000000#32, 0x02000000#32, 0#32, 0#32], []⟩), 31, ⟨3, 5, [0x01000000#32, 0x02000000#32, 0#32, 0#32], []⟩, by decide +kernel⟩,
  ⟨st (runs 31 ⟨3, 5, [0x02000000#32, 0x02000000#32, 0#32, 1#32], [(4096, 32)]⟩), 31, ⟨3, 5, [0x02000000#32, 0x02000000#32, 0#32, 1#32], [(4096, 32)]⟩, by decide +kernel⟩,
  ⟨st (runs 31 ⟨3, 5, [0x03000000#32, 0x40000005#32], []⟩), 31, ⟨3, 5, [0x03000000#32, 0x40000005#32], []⟩, by decide +kernel⟩,
  ⟨st (runs 31 ⟨3, 5, [0x03000000#32, 0x80000005#32], []⟩), 31, ⟨3, 5, [0x03000000#32, 0x80000005#32], []⟩, by decide +kernel⟩,
  ⟨st (runs 31 ⟨3, 5, [0x04000000#32], []⟩), 31, ⟨3, 5, [0x04000000#32], []⟩, by decide +kernel⟩,
  ⟨st ({ runs 31 ⟨3, 5, [0x05000000#32, 2#32, 0#32, 0#32, 4096#32, 0#32, 16384#32], []⟩ with hif := { (runs 31 ⟨3, 5, [0x05000000#32, 2#32, 0#32, 0#32, 4096#32, 0#32, 16384#32], []⟩).hif with sf := [(2, ⟨[⟨false, 3, [7#8]⟩]⟩)] } }),
    31, ⟨3, 5, [0x05000000#32, 2#32, 0#32, 0#32, 4096#32, 0#32, 16384#32], []⟩, ⟨false, 3, [7#8]⟩, by decide +kernel⟩⟩

theorem witness_DmaChannelCommandsAct :
  (∃ (s : State) (ch : Nat) (x : Xfer) (data : List Byte), s.dev.awake = true ∧ ch < 32 ∧ s.dev.xfer ch 1 = some x ∧ data ≠ [] ∧ data.length ≤ (s.dev.dch ch).left) ∧
  (∃ (s : State) (ch : Nat), s.dev.awake = true ∧ ch < 32 ∧ (s.dev.dch ch).st = .idle) ∧
  (∃ (s : State) (ch : Nat), s.dev.awake = true ∧ ch < 32 ∧ (s.dev.dch ch).st = .running ∧ s.dev.fb DMA_CH_CFG.STOP_MODE ch = true) ∧
  (∃ (s : State) (ch : Nat) (x : Xfer), s.dev.awake = true ∧ ch < 32 ∧ (s.dev.dch ch).cur = some x ∧ (s.dev.dch ch).aborting = true ∧
    (dOp x.words = 2 ∨ dOp x.words = 4 ∨ dOp x.words = 5)) ∧
  (∃ (s : State) (ch : Nat), s.dev.awake = true ∧ ch < 32 ∧ (s.dev.dch ch).st = .stopped) ∧
  (∃ (s : State) (ch : Nat) (x : Xfer) (t : Nat), s.dev.awake = true ∧ ch < 32 ∧ s.dev.xfer ch 5 = some x ∧ (s.dev.dch ch).lastCopy = some t ∧
    s.dev.sfSt (bx (wd x.words 1) 1 0) = [] ∧ t + max 1 (s.dev.f HIF_SF_CFG.IDLE_US (bx (wd x.words 1) 1 0)) * Time.usU ≤ s.dev.now) ∧
  (∃ (s : State) (n : Nat), s.dev.awake = true ∧ n < 3 ∧ s.dev.streamReader n = none) :=
  ⟨⟨st ({ R with hif := { R.hif with ch := [(31, ⟨.running, some ⟨3, 5, [0x01000000#32], []⟩, 2, [], 0, false, 0, none⟩)] } }), 31, ⟨3, 5, [0x01000000#32], []⟩, [1#8, 2#8], by decide +kernel⟩,

  ⟨st (R), 31, by decide +kernel⟩,
  ⟨st (runs 31 ⟨3, 5, [0x02000000#32], []⟩), 31, by decide +kernel⟩,
  ⟨st ({ runs 31 ⟨3, 5, [0x04000000#32], []⟩ with hif := { R.hif with ch := [(31, ⟨.running, some ⟨3, 5, [0x04000000#32], []⟩, 2, [], 0, true, 0, none⟩)] } }), 31,
    ⟨3, 5, [0x04000000#32], []⟩, by decide +kernel⟩,
  ⟨st ({ R with hif := { R.hif with ch := [(31, ⟨.stopped, none, 0, [], 0, false, 0, none⟩)] } }), 31, by decide +kernel⟩,
  ⟨st ({ tn (runs 31 ⟨3, 5, [0x05000000#32, 2#32], []⟩) (1000 * Time.usU) with hif := { R.hif with ch := [(31, ⟨.running, some ⟨3, 5, [0x05000000#32, 2#32], []⟩, 0, [], 0, false, 4, some 0⟩)] } }),
    31, ⟨3, 5, [0x05000000#32, 2#32], []⟩, 0, by decide +kernel⟩,
  ⟨st (R), 2, by decide +kernel⟩⟩

theorem witness_TableLoadsStopAtTheFirstRefusal :
  (∃ (t : Nat) (first : Nat) (k : Nat) (a : List (List Word)) (e : List Word) (d : Device) (d1 : Device) (n : Nat), loadFrom t first k a d = (⟨0, 0⟩, d1) ∧
    d1.entryStatus t (first + k + a.length) e = n + 1) ∧
  (∃ (d : Device) (t : Nat) (pos : Nat) (e : List Word), d.entryLocked t pos e = true) ∧
  (∃ (d : Device) (t : Nat) (pos : Nat) (e : List Word), d.entryLocked t pos e = false ∧ entryClear t pos e = false) ∧
  (∃ (d : Device) (t : Nat) (pos : Nat) (e : List Word), d.entryLocked t pos e = false ∧ entryClear t pos e = true) :=
  ⟨⟨2, 0, 0, [], [0xFFFFFFFF#32], R, R, 2, by decide +kernel⟩,
  ⟨{ R with pfa := { R.pfa with heats := [(5, ⟨true, 0, 0, 0, [], [], 0, 0, [], 0, 0, false, false, false, 0, 0, none⟩)] } }, 2, 5, [0#32], by decide +kernel⟩,
  ⟨R, 2, 5, List.replicate 8 0xFFFFFFFF#32, by decide +kernel⟩,
  ⟨R, 2, 5, List.replicate 8 0#32, by decide +kernel⟩⟩

theorem witness_RootSlotCommandsAct :
  (∃ (s : State) (host : Bool) (slot : Nat), slot < 64 ∧ s.dev.keyReady host ∧ s.dev.mem.bad = [] ∧ s.dev.slotInUse slot = false) ∧
  (∃ (s : State) (host : Bool) (slot : Nat) (mask : Nat) (c : Instr), slot < 64 ∧ s.dev.keyReady host ∧ s.dev.slotInUse slot = true ∧
    (c = .keyCmdWrite host slot mask ∨ c = .keyCmdErase host slot)) :=
  ⟨⟨st (R), false, 63, by decide +kernel, by unfold Device.keyReady; decide +kernel, by decide +kernel⟩,
  ⟨st ((R.setf KEY_ATT_CFG.EN 1).setf KEY_ATT_CFG.SLOT 63), false, 63, 255, Instr.keyCmdErase false 63, by decide +kernel, by unfold Device.keyReady; decide +kernel,
    by decide +kernel⟩⟩

theorem witness_KeyCommandGate :
  (∃ (s : State) (host : Bool) (slot : Nat) (mask : Nat) (group : Nat) (c : Instr), s.dev.alive = true ∧
    (c = .keyCmdWrite host slot mask ∨ c = .keyCmdErase host slot ∨ c = .keyCmdSetNext host group ∨ c = .keyCmdRoll host group ∨ c = .keyCmdClear host group ∨ c = .keyCmdCloseWindow host) ∧
    (s.dev.pwr.mode = .hold ∨ s.dev.pwr.pfw = false)) ∧
  (∃ (s : State) (host : Bool) (slot : Nat) (mask : Nat) (group : Nat) (c : Instr), s.dev.alive = true ∧
    (c = .keyCmdWrite host slot mask ∨ c = .keyCmdErase host slot ∨ c = .keyCmdSetNext host group ∨ c = .keyCmdRoll host group ∨ c = .keyCmdClear host group ∨ c = .keyCmdCloseWindow host) ∧
    host = true ∧ s.dev.fb KEY_STAT.PRIV = false ∧ s.dev.pwr.mode ≠ .hold ∧ s.dev.pwr.pfw = true) ∧
  (∃ (s : State) (host : Bool) (slot : Nat) (mask : Nat) (group : Nat) (c : Instr), s.dev.alive = true ∧
    (c = .keyCmdWrite host slot mask ∨ c = .keyCmdErase host slot ∨ c = .keyCmdSetNext host group ∨ c = .keyCmdRoll host group ∨ c = .keyCmdClear host group ∨ c = .keyCmdCloseWindow host) ∧
    (host = false ∨ s.dev.fb KEY_STAT.PRIV = true) ∧ s.dev.pwr.mode ≠ .hold ∧ s.dev.pwr.pfw = true ∧ s.dev.fb KEY_STAT.BUSY = true) :=
  ⟨⟨st (md .hold), true, 0, 0, 0, Instr.keyCmdCloseWindow true, by decide +kernel⟩,
  ⟨st (R), true, 0, 0, 0, Instr.keyCmdSetNext true 0, by decide +kernel⟩,
  ⟨st (R.setf KEY_STAT.BUSY 1), false, 0, 0, 0, Instr.keyCmdClear false 0, by decide +kernel⟩⟩

theorem witness_KeyCommandsComplete :
  (∃ (s : State) (slot : Nat), s.dev.alive = true ∧ s.dev.mem.bad = [] ∧ s.dev.key.op = some (.write slot false)) ∧
  (∃ (s : State) (slot : Nat), s.dev.alive = true ∧ s.dev.mem.bad = [] ∧ s.dev.key.op = some (.write slot true)) ∧
  (∃ (s : State) (g : Nat) (e : KeyEntry), s.dev.alive = true ∧ s.dev.mem.bad = [] ∧ s.dev.key.op = some (.setNext g e)) ∧
  (∃ (d : Device) (slot : Nat), slot < 64 ∧ d.mem.bad = [] ∧ d.slotInUse slot = false) :=
  ⟨⟨st ({ R with key := { R.key with op := some (.write 63 false) } }), 63, by decide +kernel⟩,
  ⟨st ({ R with key := { R.key with op := some (.write 63 true) } }), 63, by decide +kernel⟩,
  ⟨st ({ R with key := { R.key with op := some (.setNext 1023 ⟨1, [], 0#32, []⟩) } }), 1023, ⟨1, [], 0#32, []⟩, by decide +kernel⟩,
  ⟨R, 63, by decide +kernel⟩⟩

theorem witness_KeyGroupCommandsAct :
  (∃ (s : State) (host : Bool) (g : Nat) (o : Bool × Bank), g < 1024 ∧ s.dev.keyReady host ∧ inForce (s.dev.root (s.dev.f KEY_PATH_ROOT.ROOT)) = some o ∧
    s.dev.f KEY_PATH_ROOT.DEPTH ≤ 6 ∧ (s.dev.rg KEY_PATH_ROOT 0 &&& 0xC0F8FFFF#32) = 0#32) ∧
  (∃ (s : State) (host : Bool) (g : Nat), g < 1024 ∧ s.dev.keyReady host ∧
    (inForce (s.dev.root (s.dev.f KEY_PATH_ROOT.ROOT)) = none ∨ s.dev.f KEY_PATH_ROOT.DEPTH = 7 ∨ (s.dev.rg KEY_PATH_ROOT 0 &&& 0xC0F8FFFF#32) ≠ 0#32)) ∧
  (∃ (s : State) (host : Bool) (g : Nat) (e : KeyEntry), g < 1024 ∧ s.dev.keyReady host ∧ (s.dev.grp g).next = some e) ∧
  (∃ (s : State) (host : Bool) (g : Nat), g < 1024 ∧ s.dev.keyReady host ∧ (s.dev.grp g).next = none) ∧
  (∃ (s : State) (host : Bool) (g : Nat), g < 1024 ∧ s.dev.keyReady host ∧ mwf s.dev.key.groups = true) :=
  ⟨⟨st (rooted), false, 1023, (false, keyBank), by decide +kernel, by unfold Device.keyReady; decide +kernel, by decide +kernel⟩,
  ⟨st (R), false, 1023, by decide +kernel, by unfold Device.keyReady; decide +kernel, by decide +kernel⟩,
  ⟨st ({ R with key := { R.key with groups := [(1023, ⟨none, some ⟨1, [], 0#32, []⟩⟩)] } }), false, 1023, ⟨1, [], 0#32, []⟩, by decide +kernel,
    by unfold Device.keyReady; decide +kernel, by decide +kernel⟩,
  ⟨st (R), false, 1023, by decide +kernel, by unfold Device.keyReady; decide +kernel, by decide +kernel⟩,
  ⟨st ({ R with key := { R.key with groups := [(1023, ⟨none, some ⟨1, [], 0#32, []⟩⟩)] } }), false, 1023, by decide +kernel, by unfold Device.keyReady; decide +kernel,
    by decide +kernel⟩⟩

theorem witness_KeyGroupsStayCanonical :
  ∃ (s : State) (t : State), mwf s.dev.key.groups = true ∧ step s = .next t :=
  ⟨State.reset, State.reset, by decide +kernel, rfl⟩

theorem witness_WindowAndAttestationCommandsAct :
  (∃ (s : State) (lo : Word), s.dev.alive = true ∧ s.dev.fb KEY_STAT.LOCKOUT = false ∧ s.dev.key.token = some ((s.dev.rg KEY_UNLOCK_HI 0).toNat * 2 ^ 32 + lo.toNat)) ∧
  (∃ (s : State) (lo : Word), s.dev.alive = true ∧ (s.dev.fb KEY_STAT.LOCKOUT = true ∨ s.dev.key.token ≠ some ((s.dev.rg KEY_UNLOCK_HI 0).toNat * 2 ^ 32 + lo.toNat))) ∧
  (∃ (s : State) (host : Bool), s.dev.alive = true ∧ s.dev.keyReady host) ∧
  (∃ (s : State) (t : Nat), s.dev.alive = true ∧ s.dev.key.openedAt = some t ∧ t + 1280000000 ≤ s.dev.tk.ticks) ∧
  (∃ (s : State) (o : Bool × Bank), s.dev.alive = true ∧ s.dev.key.slot.st = .free ∧ s.dev.fb KEY_ATT_CFG.EN = true ∧ s.dev.fb KEY_STAT.BD_LOCK = true ∧
    inForce (s.dev.root (s.dev.f KEY_ATT_CFG.SLOT)) = some o) ∧
  (∃ (s : State), s.dev.alive = true ∧ s.dev.key.slot.st ≠ .free) ∧
  (∃ (s : State), s.dev.alive = true ∧ s.dev.key.slot.st = .free ∧
    (s.dev.fb KEY_ATT_CFG.EN = false ∨ s.dev.fb KEY_STAT.BD_LOCK = false ∨ inForce (s.dev.root (s.dev.f KEY_ATT_CFG.SLOT)) = none)) ∧
  (∃ (s : State), s.dev.alive = true ∧ s.dev.key.slot.st = .busy) ∧
  (∃ (s : State) (v : Word), s.dev.alive = true ∧ bx v 15 0 = s.dev.key.slot.seq) ∧
  (∃ (s : State) (v : Word), s.dev.alive = true ∧ bx v 15 0 ≠ s.dev.key.slot.seq) :=
  ⟨⟨st ({ R.wr KEY_UNLOCK_HI 0 1#32 with key := { R.key with token := some (2 ^ 32 + 2) } }), 2#32, by decide +kernel⟩,
  ⟨st ({ R with key := { R.key with fails := 2 } }), 2#32, by decide +kernel⟩,
  ⟨st (R), false, by decide +kernel, by unfold Device.keyReady; decide +kernel⟩,
  ⟨st ({ R with key := { R.key with openedAt := some 0 }, tk := { R.tk with ticks := 1280000000 } }), 0, by decide +kernel⟩,
  ⟨st ((rooted.setf KEY_ATT_CFG.EN 1).setf KEY_STAT.BD_LOCK 1), (false, keyBank), by decide +kernel⟩,
  ⟨st ({ R with key := { R.key with slot := ⟨.held, 3, []⟩ } }), by decide +kernel⟩,
  ⟨st (R), by decide +kernel⟩,
  ⟨st ({ R with key := { R.key with slot := ⟨.busy, 3, []⟩ } }), by decide +kernel⟩,
  ⟨st ({ R with key := { R.key with slot := ⟨.held, 3, []⟩ } }), 3#32, by decide +kernel⟩,
  ⟨st ({ R with key := { R.key with slot := ⟨.held, 3, []⟩ } }), 4#32, by decide +kernel⟩⟩

theorem witness_ZeroisationAndDigestsAct :
  (∃ (s : State), s.dev.pwr.powered = true) ∧
  (∃ (s : State), s.dev.pwr.powered = false) ∧
  (∃ (s : State) (n : Nat), s.dev.alive = true ∧ s.dev.pwr.mode = .warmup ∧ s.dev.fb KEY_STAT.BD_LOCK = false ∧ n < 8) ∧
  (∃ (s : State), s.dev.alive = true ∧ (s.dev.pwr.mode ≠ .warmup ∨ s.dev.fb KEY_STAT.BD_LOCK = true)) :=
  ⟨⟨st (R), by decide +kernel⟩,
  ⟨st (unpowered), by decide +kernel⟩,
  ⟨st (B), 7, by decide +kernel⟩,
  ⟨st (R), by decide +kernel⟩⟩

theorem witness_EventsAreRecordedOrFoldedOrLost :
  (∃ (d : Device) (e : EvId) (dat : List Nat) (r : _), d.muted e = false ∧ d.scb.buf.getLast? = some r ∧ foldsInto r e dat d.tk.now = true ∧ d.countsQuietly SCB_FOLDED ∧
    d.countsQuietly SCB_FLUSHES) ∧
  (∃ (d : Device) (e : EvId) (dat : List Nat) (r : _), d.muted e = false ∧ d.scb.buf.getLast? = some r ∧ foldsInto r e dat d.tk.now = true ∧ d.countsQuietly SCB_FOLDED ∧
    d.countsQuietly SCB_FLUSHES ∧ d.pwr.mode ≠ .hold ∧ (isFaultEvent e dat = true ∨ 1536 ≤ d.scb.buf.length)) ∧
  (∃ (d : Device) (e : EvId) (dat : List Nat) (r : _), d.muted e = false ∧ d.scb.buf.getLast? = some r ∧ foldsInto r e dat d.tk.now = true ∧ d.countsQuietly SCB_FOLDED ∧
    d.countsQuietly SCB_FLUSHES ∧ isFaultEvent e dat = false ∧ d.scb.buf.length < 1536) ∧
  (∃ (d : Device) (e : EvId) (dat : List Nat), d.muted e = false ∧ ((∀ r, d.scb.buf.getLast? = some r → foldsInto r e dat d.tk.now = false)) ∧ d.scb.buf.length < 2048 ∧
    d.countsQuietly SCB_RECORDS ∧ d.countsQuietly SCB_FLUSHES) ∧
  (∃ (d : Device) (e : EvId) (dat : List Nat), d.muted e = false ∧ ((∀ r, d.scb.buf.getLast? = some r → foldsInto r e dat d.tk.now = false)) ∧ d.scb.buf.length < 2048 ∧
    d.countsQuietly SCB_RECORDS ∧ d.countsQuietly SCB_FLUSHES ∧ d.pwr.mode ≠ .hold ∧ (isFaultEvent e dat = true ∨ 1535 ≤ d.scb.buf.length)) ∧
  (∃ (d : Device) (e : EvId) (dat : List Nat), d.muted e = false ∧ ((∀ r, d.scb.buf.getLast? = some r → foldsInto r e dat d.tk.now = false)) ∧ d.scb.buf.length < 2048 ∧
    d.countsQuietly SCB_RECORDS ∧ d.countsQuietly SCB_FLUSHES ∧ isFaultEvent e dat = false ∧ d.scb.buf.length < 1535) ∧
  (∃ (d : Device) (e : EvId) (dat : List Nat), d.muted e = false ∧ ((∀ r, d.scb.buf.getLast? = some r → foldsInto r e dat d.tk.now = false)) ∧ 2048 ≤ d.scb.buf.length ∧
    d.countsQuietly SCB_LOST ∧ d.countsQuietly SCB_FLUSHES) ∧
  (∃ (d : Device) (e : EvId) (dat : List Nat), d.muted e = false ∧ ((∀ r, d.scb.buf.getLast? = some r → foldsInto r e dat d.tk.now = false)) ∧ 2048 ≤ d.scb.buf.length ∧
    d.countsQuietly SCB_LOST ∧ d.countsQuietly SCB_FLUSHES ∧ d.pwr.mode ≠ .hold) :=
  ⟨⟨{ R with scb := { R.scb with buf := [⟨1, 2, 65534, 7, 0, false, false, 0, 5, 0, 0⟩] } }, ⟨1, 2⟩, [5], ⟨1, 2, 65534, 7, 0, false, false, 0, 5, 0, 0⟩, by decide +kernel, by decide +kernel, by decide +kernel, by unfold Device.countsQuietly; decide +kernel, by unfold Device.countsQuietly; decide +kernel⟩,

  ⟨{ R with scb := { R.scb with buf := List.replicate 1536 ⟨1, 2, 65534, 7, 0, false, false, 0, 5, 0, 0⟩ } }, ⟨1, 2⟩, [5], ⟨1, 2, 65534, 7, 0, false, false, 0, 5, 0, 0⟩,
    by decide +kernel, by decide +kernel, by decide +kernel, by unfold Device.countsQuietly; decide +kernel, by unfold Device.countsQuietly; decide +kernel,
    by decide +kernel⟩,
  ⟨{ R with scb := { R.scb with buf := [⟨18, 0, 65534, 7, 0, false, false, 0, 5, 0, 0⟩] } }, ⟨18, 0⟩, [5], ⟨18, 0, 65534, 7, 0, false, false, 0, 5, 0, 0⟩,
    by decide +kernel, by decide +kernel, by decide +kernel, by unfold Device.countsQuietly; decide +kernel, by unfold Device.countsQuietly; decide +kernel,
    by decide +kernel⟩,
  ⟨R, ⟨1, 2⟩, [5], by decide +kernel, fun r h => by simp [md, Device.reset, scbInit] at h, by decide +kernel, by unfold Device.countsQuietly; decide +kernel,
    by unfold Device.countsQuietly; decide +kernel⟩,
  ⟨{ R with scb := { R.scb with buf := List.replicate 1535 ⟨1, 2, 0, 7, 0, false, false, 0, 6, 0, 0⟩ } }, ⟨1, 2⟩, [5], by decide +kernel,
    fun r h => by rw [show (List.replicate 1535 (ScbRec.mk 1 2 0 7 0 false false 0 6 0 0)).getLast? = some (ScbRec.mk 1 2 0 7 0 false false 0 6 0 0) from by decide +kernel] at h; cases h; decide,
    by decide +kernel, by unfold Device.countsQuietly; decide +kernel, by unfold Device.countsQuietly; decide +kernel, by decide +kernel⟩,
  ⟨R, ⟨18, 0⟩, [5], by decide +kernel, fun r h => by simp [md, Device.reset, scbInit] at h, by decide +kernel, by unfold Device.countsQuietly; decide +kernel,
    by unfold Device.countsQuietly; decide +kernel, by decide +kernel⟩,
  ⟨{ R with scb := { R.scb with buf := List.replicate 2048 ⟨1, 2, 0, 7, 0, false, false, 0, 6, 0, 0⟩ } }, ⟨1, 2⟩, [5], by decide +kernel,
    fun r h => by rw [show (List.replicate 2048 (ScbRec.mk 1 2 0 7 0 false false 0 6 0 0)).getLast? = some (ScbRec.mk 1 2 0 7 0 false false 0 6 0 0) from by decide +kernel] at h; cases h; decide,
    by decide +kernel, by unfold Device.countsQuietly; decide +kernel, by unfold Device.countsQuietly; decide +kernel⟩,
  ⟨{ R with scb := { R.scb with buf := List.replicate 2048 ⟨1, 2, 0, 7, 0, false, false, 0, 6, 0, 0⟩ } }, ⟨1, 2⟩, [5], by decide +kernel,
    fun r h => by rw [show (List.replicate 2048 (ScbRec.mk 1 2 0 7 0 false false 0 6 0 0)).getLast? = some (ScbRec.mk 1 2 0 7 0 false false 0 6 0 0) from by decide +kernel] at h; cases h; decide,
    by decide +kernel, by unfold Device.countsQuietly; decide +kernel, by unfold Device.countsQuietly; decide +kernel, by decide +kernel⟩⟩

theorem witness_ScorebookCommandsAct :
  (∃ (s : State), s.dev.alive = true ∧ s.dev.pwr.mode ≠ .hold ∧ s.dev.scb.buf ≠ [] ∧ s.dev.scb.flushing = 0) ∧
  (∃ (s : State), s.dev.alive = true ∧ s.dev.pwr.mode = .hold ∧ s.dev.scb.flushing = 0) ∧
  (∃ (s : State), s.dev.alive = true ∧ s.dev.scb.flushing ≠ 0 ∧ s.dev.scb.flushing ≤ 2048 ∧ s.dev.scb.wpos < 1048576 ∧ s.dev.mem.bad = [] ∧ s.dev.scb.lost = 0 ∧
    s.dev.scb.flushAgain = false ∧ s.dev.scb.skip = none ∧ s.dev.scb.buf.length < s.dev.scb.flushing + 1536 ∧ (s.dev.pwr.mode ≠ .warmup ∨ s.dev.pwr.wuDone = true) ∧
    s.dev.ctr SCB_ERASES + 2048 < 2147483648) ∧
  (∃ (s : State), s.dev.alive = true ∧ s.dev.scb.flushing ≠ 0 ∧ s.dev.scb.flushing ≤ s.dev.scb.buf.length ∧ s.dev.scb.flushing ≤ 2048 ∧ s.dev.scb.wpos < 1048576 ∧
    s.dev.mem.bad = [] ∧ s.dev.scb.lost = 0 ∧ s.dev.scb.skip = none ∧ (s.dev.pwr.mode ≠ .warmup ∨ s.dev.pwr.wuDone = true) ∧ s.dev.ctr SCB_ERASES + 2048 < 2147483648) ∧
  (∃ (s : State), s.dev.alive = true ∧ s.dev.pwr.mode = .warmup ∧ s.dev.pwr.wuDone = false) ∧
  (∃ (s : State), s.dev.alive = true) ∧
  (∃ (s : State), s.dev.alive = true ∧ s.dev.scb.looking = true) :=
  ⟨⟨st ({ R with scb := { R.scb with buf := [⟨1, 2, 0, 7, 0, false, false, 0, 5, 0, 0⟩] } }), by decide +kernel⟩,
  ⟨st (md .hold), by decide +kernel⟩,
  ⟨st ({ R with scb := { R.scb with buf := [⟨1, 2, 0, 7, 0, false, false, 0, 5, 0, 0⟩], flushing := 1, wpos := 1048575 } }), by decide +kernel⟩,
  ⟨st ({ R with scb := { R.scb with buf := [⟨1, 2, 0, 7, 0, false, false, 0, 5, 0, 0⟩], flushing := 1, wpos := 1048575 } }), by decide +kernel⟩,
  ⟨st (B), by decide +kernel⟩,
  ⟨st (R), by decide +kernel⟩,
  ⟨st ({ R.wr SCB_RD_SEQ 0 7#32 with scb := { R.scb with looking := true, flash := [(3, ⟨1, 2, 0, 7, 0, false, false, 0, 5, 0, 0⟩)] } }), by decide +kernel⟩⟩

theorem witness_JournalEntriesStandInTheRing :
  (∃ (d : Device), d.fb JNL_CFG.EN = true ∧ d.fb JNL_DDR.VALID = true ∧ d.journals = true) ∧
  (∃ (d : Device) (a : Nat), d.fb JNL_CFG.EN = true ∧ d.fb JNL_DDR.VALID = true ∧ d.journals = true ∧ (a < d.jBase ∨ d.jBase + max 1 d.jSize ≤ a)) ∧
  (∃ (d : Device) (typ : Nat) (aux : Nat) (inst : Time) (payload : List Byte) (i : Nat) (b : _), d.fb JNL_CFG.EN = true ∧ d.fb JNL_DDR.VALID = true ∧ d.journals = true ∧
    Memory.wf d.ddr = true ∧ ((jChain ⟨typ, aux, d.jnl.next, inst, payload⟩).flatMap packetBytes).length ≤ d.jSize ∧
    ((jChain ⟨typ, aux, d.jnl.next, inst, payload⟩).flatMap packetBytes)[i]? = some b) :=
  ⟨⟨jon R, by decide +kernel⟩,
  ⟨jon R, 1073741824, by decide +kernel⟩,
  ⟨jon R, 5, 0, 9, [1#8, 2#8], 24, 1#8, by decide +kernel⟩⟩

theorem witness_JournalCommandsAct :
  (∃ (s : State) (p : JPlace) (k : Packet), s.dev.awake = true ∧ s.dev.draining = true ∧ s.dev.jnl.gap = none ∧ s.dev.drainNext = some p ∧ s.dev.mem.bad = [] ∧
    s.dev.jnl.drainAt = 0 ∧ jChain p.entry = [k] ∧ s.dev.fb HIF_SF_CFG.EN 0 = true ∧ sfLevel (s.dev.sfSt 0 ++ [k]) ≤ sfCap 0) ∧
  (∃ (s : State) (a : Nat) (n : Nat), s.dev.awake = true ∧ s.dev.draining = true ∧ s.dev.jnl.gap = some (a, n) ∧ s.dev.fb HIF_SF_CFG.EN 0 = true ∧
    sfLevel (s.dev.sfSt 0 ++ [gapPacket a n]) ≤ sfCap 0) ∧
  (∃ (s : State), s.dev.awake = true ∧ s.dev.journaling = true) ∧
  (∃ (s : State) (t : _) (x : _), s.dev.awake = true ∧ s.dev.journaling = true ∧ x = checkpointEnd s.dev ∧
    ((s.dev.sec % 60 = 0 ∧ Time.nsOf s.dev.now < 1000 ∧ s.dev.jnl.lineAt ≠ some s.dev.sec ∧ t = s.dev.sec * Time.secU) ∨ ((s.dev.sec % 60 = 0 → 1000 ≤ Time.nsOf s.dev.now ∨ s.dev.jnl.lineAt = some s.dev.sec) ∧ s.dev.jnl.ckptAsk = some t ∧ t ≤ s.dev.now))) ∧

  (∃ (s : State) (j : Nat) (sn : _), s.dev.awake = true ∧ s.dev.journaling = true ∧ s.dev.jnl.ckpt = some (j, sn)) :=
  ⟨⟨st ({ jon R with jnl := { R.jnl with places := [⟨⟨5, 0, 0, 0, []⟩, 0, 24⟩] } }), ⟨⟨5, 0, 0, 0, []⟩, 0, 24⟩, ⟨false, 0, jHeader ⟨5, 0, 0, 0, []⟩⟩, by decide +kernel⟩,
  ⟨st ({ jon R with jnl := { R.jnl with gap := some (3, 4) } }), 3, 4, by decide +kernel⟩,
  ⟨st (jon R), by decide +kernel⟩,
  ⟨st (tn (jon R) (60 * Time.secU + 999 * Time.nsU)), 60 * Time.secU, checkpointEnd (tn (jon R) (60 * Time.secU + 999 * Time.nsU)), by decide +kernel⟩,
  ⟨st ({ jon R with jnl := { R.jnl with ckpt := some (3, R.takeSnap) } }), 3, R.takeSnap, by decide +kernel⟩⟩

theorem witness_RerunCommandsAct :
  (∃ (s : State), s.dev.alive = true ∧ s.dev.pwr.mode = .rerun) ∧
  (∃ (s : State), s.dev.alive = true ∧ s.dev.pwr.mode = .rerun ∧ (s.dev.f JNL_STAT.RR_STATE = 1 ∨ s.dev.f JNL_STAT.RR_STATE = 2)) ∧
  (∃ (s : State) (v : Word), s.dev.alive = true ∧ s.dev.pwr.mode = .rerun ∧ s.dev.fb JNL_CFG.RR_SRC = true ∧ s.dev.f JNL_STAT.RR_STATE ≠ 2 ∧
    bit (wd (s.dev.jnl.inWords ++ [v]) 0) 31 = true ∧ 1 ≤ bx (wd (s.dev.jnl.inWords ++ [v]) 0) 23 0 ∧ bx (wd (s.dev.jnl.inWords ++ [v]) 0) 23 0 ≤ 16380 ∧
    (s.dev.jnl.inWords ++ [v]).length < 1 + (bx (wd (s.dev.jnl.inWords ++ [v]) 0) 23 0 + 3) / 4) ∧
  (∃ (s : State) (v : Word), s.dev.alive = true ∧ s.dev.pwr.mode = .rerun ∧ s.dev.fb JNL_CFG.RR_SRC = true ∧ s.dev.f JNL_STAT.RR_STATE ≠ 2 ∧
    bit (wd (s.dev.jnl.inWords ++ [v]) 0) 31 = true ∧ 1 ≤ bx (wd (s.dev.jnl.inWords ++ [v]) 0) 23 0 ∧ bx (wd (s.dev.jnl.inWords ++ [v]) 0) 23 0 ≤ 16380 ∧
    bit (wd (s.dev.jnl.inWords ++ [v]) 0) 30 = false ∧ bx (wd (s.dev.jnl.inWords ++ [v]) 0) 27 24 ≠ 15 ∧
    (s.dev.jnl.inWords ++ [v]).length = 1 + (bx (wd (s.dev.jnl.inWords ++ [v]) 0) 23 0 + 3) / 4) ∧
  (∃ (s : State), s.dev.alive = true ∧ s.dev.pwr.mode = .rerun ∧ s.dev.f JNL_STAT.RR_STATE = 1 ∧ s.dev.jnl.rrNext ≠ (s.dev.rg JNL_RR_UNTIL 0).toNat ∧
    s.dev.rrEntries = []) ∧
  (∃ (s : State), s.dev.alive = true ∧ s.dev.pwr.mode = .rerun ∧ s.dev.f JNL_STAT.RR_STATE = 1 ∧ s.dev.jnl.rrNext = (s.dev.rg JNL_RR_UNTIL 0).toNat) ∧
  (∃ (s : State) (e : JEntry) (r : List JEntry), s.dev.alive = true ∧ s.dev.pwr.mode = .rerun ∧ s.dev.f JNL_STAT.RR_STATE = 1 ∧
    s.dev.jnl.rrNext ≠ (s.dev.rg JNL_RR_UNTIL 0).toNat ∧ s.dev.rrEntries = e :: r ∧ e.typ < 256 ∧ s.dev.mem.bad = [] ∧ s.dev.jnl.rrLoaded = true ∧
    e.jseq = s.dev.jnl.rrNext ∧ (s.dev.rrLater e).1 = none) ∧
  (∃ (s : State) (e : JEntry) (r : List JEntry) (c : Nat), s.dev.alive = true ∧ s.dev.pwr.mode = .rerun ∧ s.dev.f JNL_STAT.RR_STATE = 1 ∧
    s.dev.jnl.rrNext ≠ (s.dev.rg JNL_RR_UNTIL 0).toNat ∧ s.dev.rrEntries = e :: r ∧ e.typ < 256 ∧ s.dev.mem.bad = [] ∧ s.dev.jnl.rrLoaded = true ∧
    e.jseq = s.dev.jnl.rrNext ∧ (s.dev.rrLater e).1 = some c) ∧
  (∃ (s : State) (e : JEntry) (r : List JEntry), s.dev.alive = true ∧ s.dev.pwr.mode = .rerun ∧ s.dev.f JNL_STAT.RR_STATE = 1 ∧
    s.dev.jnl.rrNext ≠ (s.dev.rg JNL_RR_UNTIL 0).toNat ∧ s.dev.rrEntries = e :: r ∧ e.typ < 256 ∧ s.dev.jnl.rrLoaded = true ∧ e.jseq ≠ s.dev.jnl.rrNext) :=
  ⟨⟨st (U), by decide +kernel⟩,
  ⟨st (U.setf JNL_STAT.RR_STATE 1), by decide +kernel⟩,
  ⟨st (U.setf JNL_CFG.RR_SRC 1), 0x80000001#32, by decide +kernel⟩,
  ⟨st ({ U.setf JNL_CFG.RR_SRC 1 with jnl := { U.jnl with inWords := [0x80000018#32, 0#32, 0#32, 0#32, 0#32, 0#32] } }), 0#32, by decide +kernel⟩,
  ⟨st ((U.setf JNL_STAT.RR_STATE 1).wr JNL_RR_UNTIL 0 9#32), by decide +kernel⟩,
  ⟨st (U.setf JNL_STAT.RR_STATE 1), by decide +kernel⟩,
  ⟨st ({ (U.setf JNL_STAT.RR_STATE 1).wr JNL_RR_UNTIL 0 9#32 with jnl := { U.jnl with rrLoaded := true, places := [⟨⟨0x23, 0, 0, 0, []⟩, 0, 24⟩] } }), ⟨0x23, 0, 0, 0, []⟩,
    [], by decide +kernel⟩,
  ⟨st ({ (U.setf JNL_STAT.RR_STATE 1).wr JNL_RR_UNTIL 0 9#32 with jnl := { U.jnl with rrLoaded := true, places := [⟨⟨0x20, 0, 0, 0, []⟩, 0, 24⟩] } }), ⟨0x20, 0, 0, 0, []⟩,
    [], 2, by decide +kernel⟩,
  ⟨st ({ (U.setf JNL_STAT.RR_STATE 1).wr JNL_RR_UNTIL 0 9#32 with jnl := { U.jnl with rrLoaded := true, places := [⟨⟨0x23, 0, 1, 0, []⟩, 0, 24⟩] } }), ⟨0x23, 0, 1, 0, []⟩,
    [], by decide +kernel⟩⟩

theorem witness_IntegrityCommandsAct :
  (∃ (s : State) (arr : Nat) (bank : Nat) (idx : Nat) (loc : Nat), s.dev.alive = true ∧ s.dev.awake = true ∧ s.dev.fb MEM_CFG.SCRUB_EN = true ∧
    (arr ≤ 12 ∨ arr = 16 ∨ arr = 17) ∧ s.dev.badAt arr loc = 0 ∧ mgetD s.dev.mem.sweepPos arr 0 ≤ sweepPlace bank idx) ∧
  (∃ (s : State) (arr : Nat) (bank : Nat) (idx : Word), s.dev.alive = true ∧ s.dev.awake = true ∧ sweepPlace bank idx < mgetD s.dev.mem.sweepPos arr 0) ∧
  (∃ (s : State) (arr : Nat) (bank : Nat) (idx : Nat) (loc : Nat), s.dev.alive = true ∧ s.dev.awake = true ∧ s.dev.fb MEM_CFG.SCRUB_EN = true ∧ arr ≤ 12 ∧
    s.dev.badAt arr loc ≤ 1 ∧ mgetD s.dev.mem.sweepPos arr 0 ≤ sweepPlace bank idx) ∧
  (∃ (s : State) (arr : Nat) (bank : Nat) (idx : Nat), s.dev.alive = true ∧ s.dev.awake = true ∧ s.dev.fb MEM_CFG.SCRUB_EN = true ∧ arr ≤ 12 ∧
    mgetD s.dev.mem.sweepPos arr 0 ≤ sweepPlace bank idx) ∧
  (∃ (s : State) (p : _), s.dev.alive = true ∧ s.dev.awake = true ∧ s.dev.fb MEM_CFG.SCRUB_EN = true ∧ p = max 1 (s.dev.f MEM_CFG.PERIOD_H) * 3600 * tkPerSec ∧
    s.dev.mem.sweepAt + p ≤ s.dev.tk.ticks) ∧
  (∃ (s : State), s.dev.alive = true ∧ s.dev.awake = true ∧ s.dev.tk.ticks < s.dev.mem.sweepAt + max 1 (s.dev.f MEM_CFG.PERIOD_H) * 3600 * tkPerSec) ∧
  (∃ (s : State) (e : MergeEnt), s.dev.alive = true ∧ s.dev.mem.merge.head? = some e ∧ e.since + 16 ≤ s.dev.tk.ticks ∧ s.dev.mem.bad = []) ∧
  (∃ (s : State) (v : Word), s.dev.alive = true ∧ bit v 31 = true) ∧
  (∃ (s : State) (v : Word), s.dev.alive = true ∧ bit v 31 = true ∧ bx v 3 0 < 12 ∧ s.dev.grpFailed (bx v 3 0) = true) ∧
  (∃ (s : State) (v : Word), s.dev.alive = true ∧ bit v 31 = true ∧ (12 ≤ bx v 3 0 ∨ s.dev.grpFailed (bx v 3 0) = false)) :=
  ⟨⟨st ({ R.setf MEM_CFG.SCRUB_EN 1 with mem := { R.mem with sweepPos := [(17, sweepPlace 0 0)] } }), 17, 0, 0, 5, by decide +kernel⟩,
  ⟨st ({ R.setf MEM_CFG.SCRUB_EN 1 with mem := { R.mem with sweepPos := [(3, sweepPlace 1 0)] } }), 3, 0, 9#32, by decide +kernel⟩,
  ⟨st ({ R.setf MEM_CFG.SCRUB_EN 1 with mem := { R.mem with bad := [(badKey 12 5, ⟨1, false⟩)] } }), 12, 0, 0, 5, by decide +kernel⟩,
  ⟨st ({ R.setf MEM_CFG.SCRUB_EN 1 with mem := { R.mem with bad := [(badKey 12 5, ⟨1, false⟩)] } }), 12, 0, 0, by decide +kernel⟩,
  ⟨st ({ (R.setf MEM_CFG.SCRUB_EN 1).setf MEM_CFG.PERIOD_H 2 with tk := { R.tk with ticks := 2 * 3600 * tkPerSec } }), 2 * 3600 * tkPerSec, by decide +kernel⟩,
  ⟨st ({ (R.setf MEM_CFG.SCRUB_EN 1).setf MEM_CFG.PERIOD_H 2 with tk := { R.tk with ticks := 2 * 3600 * tkPerSec - 1 } }), by decide +kernel⟩,
  ⟨st ({ R with mem := { R.mem with merge := [⟨14, 0, 5, 255, 0⟩] }, tk := { R.tk with ticks := 16 } }), (⟨14, 0, 5, 255, 0⟩ : MergeEnt), by decide +kernel⟩,
  ⟨st (R), 0x80000000#32, by decide +kernel⟩,
  ⟨st (R.wr MEM_STAT 0 0x800#32), 0x8000000B#32, by decide +kernel⟩,
  ⟨st (R), 0x8000000C#32, by decide +kernel⟩⟩

theorem witness_MemoryErrorsHaveTheirEffect :
  (∃ (d : Device) (g : Nat), g < 12 ∧ d.grpFailed g = false) ∧
  (∃ (old : Device) (d : Device), old.injArmed = true ∧ d.injArmed = true ∧ d.mem.bad = [] ∧ written old d (d.f MEM_INJ.ARRAY) = []) ∧
  (∃ (old : Device) (d : Device) (loc : Nat) (l : List Nat), old.injArmed = true ∧ d.injArmed = true ∧ d.mem.bad = [] ∧ written old d (d.f MEM_INJ.ARRAY) = loc :: l) :=
  ⟨⟨R, 11, by decide +kernel⟩,
  ⟨R.setf MEM_INJ.ARM 1, R.setf MEM_INJ.ARM 1, by decide +kernel⟩,
  ⟨(R.setf MEM_INJ.ARM 1).setf MEM_INJ.ARRAY 2, (R.setf MEM_INJ.ARM 1).setf MEM_INJ.ARRAY 2, 0, ([] : List Nat), by decide +kernel⟩⟩

theorem witness_RadioTransmissionsAct :
  (∃ (s : State) (k : Nat) (ch : Nat), s.dev.awake = true ∧ s.dev.radioOn = true ∧ k = s.dev.now / s.dev.bcnT ∧ ch = k % 65536 % s.dev.nch ∧ s.dev.xcr.bcn ≠ some k ∧
    s.dev.now < k * s.dev.bcnT + s.dev.tk.inc ∧ s.dev.xcr.bcnDue = none ∧ s.dev.fits ch s.dev.now (s.dev.airtime 24) = true) ∧
  (∃ (s : State), s.dev.awake = true ∧ s.dev.radioOn = true ∧ s.dev.now / s.dev.bcnT * s.dev.bcnT + s.dev.tk.inc ≤ s.dev.now) ∧
  (∃ (s : State) (k : Nat), s.dev.awake = true ∧ s.dev.radioOn = true ∧ k = s.dev.now / s.dev.bcnT ∧ s.dev.xcr.bcn ≠ some k ∧ s.dev.now < k * s.dev.bcnT + s.dev.tk.inc ∧
    s.dev.xcr.bcnDue = none ∧ s.dev.fits (k % 65536 % s.dev.nch) s.dev.now (s.dev.airtime 24) = false) ∧
  (∃ (s : State) (k : Nat), s.dev.awake = true ∧ s.dev.radioOn = true ∧ s.dev.xcr.bcnDue = some k ∧ k * s.dev.bcnT + s.dev.guardBase < s.dev.now) ∧
  (∃ (s : State) (k : Nat) (ch : Nat), s.dev.awake = true ∧ s.dev.radioOn = true ∧ s.dev.xcr.bcnDue = some k ∧ s.dev.now ≤ k * s.dev.bcnT + s.dev.guardBase ∧
    ch = k % 65536 % s.dev.nch ∧ s.dev.fits ch s.dev.now (s.dev.airtime 24) = true) ∧
  (∃ (s : State) (a : XAck), s.dev.awake = true ∧ s.dev.radioOn = true ∧ s.dev.beaconFirst = false ∧ s.dev.xcr.acks.find? (fun a => decide (a.due ≤ s.dev.now)) = some a ∧
    s.dev.now ≤ a.due + 2 * Time.msU ∧ s.dev.fits s.dev.xcr.chan s.dev.now (s.dev.airtime 12) = true) ∧
  (∃ (s : State) (c : Instr) (busy : Nat), s.dev.awake = true ∧ s.dev.radioOn = true ∧ s.dev.beaconFirst = true ∧
    (c = .xcrAckSend ∨ c = .xcrListenSend busy ∨ c = .xcrWakeSequence busy)) ∧
  (∃ (s : State) (r : XReq) (n : Nat) (tL : _), s.dev.awake = true ∧ s.dev.radioOn = true ∧ s.dev.ackFirst = false ∧ s.dev.xcr.req = some r ∧ r.phase = .listen n tL ∧
    (s.dev.sens r.dst).st ≠ .synced ∧ s.dev.pieceT ≤ s.dev.f XCR_DWELL.DWELL_MS * Time.msU) ∧
  (∃ (s : State) (r : XReq) (n : Nat) (tL : _) (busy : Nat), s.dev.awake = true ∧ s.dev.radioOn = true ∧ s.dev.ackFirst = false ∧ s.dev.xcr.req = some r ∧
    r.phase = .listen n tL ∧ (s.dev.sens r.dst).st = .synced ∧ s.dev.now ≤ tL ∧ tL ≤ s.dev.now + s.dev.guardAt r.dst tL ∧
    s.dev.fits (n % s.dev.nch) s.dev.now (2 * s.dev.guardAt r.dst tL + s.dev.airtime (s.dev.reqFrame r).length) = true ∧ busy < 8) ∧
  (∃ (s : State) (r : XReq) (busy : Nat), s.dev.awake = true ∧ s.dev.radioOn = true ∧ s.dev.ackFirst = false ∧ s.dev.xcr.req = some r ∧ r.phase = .wake ∧ busy < 8 ∧
    s.dev.now + s.dev.nch * s.dev.pieceT + s.dev.guardBase < (s.dev.now / s.dev.bcnT + 1) * s.dev.bcnT ∧
    ((∀ i, i < s.dev.nch → s.dev.fits i (s.dev.now + i * s.dev.pieceT) (s.dev.pieceT + s.dev.airtime (s.dev.reqFrame r).length) = true))) ∧
  (∃ (s : State) (r : XReq) (t : Nat), s.dev.awake = true ∧ s.dev.radioOn = true ∧ s.dev.xcr.req = some r ∧ r.phase = .ack t ∧ t ≤ s.dev.now ∧ 3 ≤ r.retries) ∧
  (∃ (s : State) (r : XReq) (t : Nat), s.dev.awake = true ∧ s.dev.radioOn = true ∧ s.dev.xcr.req = some r ∧ r.phase = .ack t ∧ t ≤ s.dev.now ∧ r.retries < 3 ∧
    s.dev.pieceT ≤ s.dev.f XCR_DWELL.DWELL_MS * Time.msU) ∧
  (∃ (s : State) (v : Word), s.dev.alive = true ∧ s.dev.fb XCR_TX_STAT.BUSY = false ∧ (bx v 30 28 = 2 ∨ bx v 30 28 = 4) ∧ 1 ≤ bx v 6 0 ∧ bx v 6 0 ≤ 115 ∧
    bx v 26 16 < 1024 ∧ s.dev.sensEn (bx v 26 16) = true ∧ (s.dev.sens (bx v 26 16)).st ≠ .synced ∧ s.dev.pieceT ≤ s.dev.f XCR_DWELL.DWELL_MS * Time.msU) ∧
  (∃ (s : State), s.dev.alive = true ∧ s.dev.fb XCR_TX_STAT.BUSY = true) ∧
  (∃ (s : State) (v : Word), s.dev.alive = true ∧ s.dev.fb XCR_TX_STAT.BUSY = false ∧ ((bx v 30 28 ≠ 2 ∧ bx v 30 28 ≠ 4) ∨ bx v 6 0 = 0 ∨ 115 < bx v 6 0)) ∧
  (∃ (s : State) (v : Word), s.dev.alive = true ∧ s.dev.fb XCR_TX_STAT.BUSY = false ∧ (bx v 30 28 = 2 ∨ bx v 30 28 = 4) ∧ 1 ≤ bx v 6 0 ∧ bx v 6 0 ≤ 115 ∧
    bx v 26 16 < 1024 ∧ s.dev.sensEn (bx v 26 16) = false) ∧
  (∃ (s : State), s.dev.alive = true) :=
  ⟨⟨st (rad), 0, 0, by decide +kernel, by decide +kernel, by decide +kernel, by decide +kernel, by decide +kernel, by decide +kernel, by decide +kernel, by have h := fits_air rad 0 0 0 24 (by decide +kernel); rwa [Nat.zero_add] at h⟩,

  ⟨st (tn rad rad.tk.inc), by decide +kernel⟩,
  ⟨st ({ rad.setf XCR_DWELL.DWELL_MS 0 with xcr := { rad.xcr with air := [(0, [(0, 1)])] } }), 0, by decide +kernel, by decide +kernel, by decide +kernel,
    by decide +kernel, by decide +kernel, by decide +kernel, full_air _ 0 0 _ (by decide +kernel)⟩,
  ⟨st (tn { rad with xcr := { rad.xcr with bcnDue := some 0 } } (2001 * Time.usU)), 0, by decide +kernel⟩,
  ⟨st (tn { rad with xcr := { rad.xcr with bcnDue := some 0 } } (2000 * Time.usU)), 0, 0, by decide +kernel, by decide +kernel, by decide +kernel, by decide +kernel,
    by decide +kernel,
    by have h := fits_air (tn { rad with xcr := { rad.xcr with bcnDue := some 0 } } (2000 * Time.usU)) 0 (2000 * Time.usU) 0 24 (by decide +kernel); rwa [Nat.zero_add] at h⟩,

  ⟨st (tn { rad with xcr := { rad.xcr with acks := [⟨5, 9, Time.msU, false⟩] } } (3 * Time.msU)), ⟨5, 9, Time.msU, false⟩, by decide +kernel, by decide +kernel,
    by decide +kernel, by decide +kernel, by decide +kernel,
    by have h := fits_air (tn { rad with xcr := { rad.xcr with acks := [⟨5, 9, Time.msU, false⟩] } } (3 * Time.msU)) 0 (3 * Time.msU) 0 12 (by decide +kernel); rwa [Nat.zero_add] at h⟩,

  ⟨st (rad), Instr.xcrListenSend 0, 0, by decide +kernel⟩,
  ⟨st ({ tn rad Time.msU with xcr := { rad.xcr with req := some (xrq (.listen 1 Time.secU) 0) } }), xrq (.listen 1 Time.secU) 0, 1, Time.secU, by decide +kernel⟩,
  ⟨st ({ tn rad Time.msU with xcr := { rad.xcr with req := some (xrq (.listen 1 (Time.msU + Time.usU)) 0), sens := [(5, ⟨.synced, some 0, none, 0, 0⟩)] } }),
    xrq (.listen 1 (Time.msU + Time.usU)) 0, 1, Time.msU + Time.usU, 7, by decide +kernel, by decide +kernel, by decide +kernel, by decide +kernel, by decide +kernel,
    by decide +kernel, by decide +kernel, by decide +kernel, fits_air _ _ _ _ _ (by decide +kernel), by decide +kernel⟩,
  ⟨st ({ tn rad Time.msU with xcr := { rad.xcr with req := some (xrq .wake 0) } }), xrq .wake 0, 7, by decide +kernel, by decide +kernel, by decide +kernel,
    by decide +kernel, by decide +kernel, by decide +kernel, by decide +kernel,
    fun i hi => by have h0 : i = 0 := Nat.lt_one_iff.mp hi; subst h0; exact fits_air _ _ _ _ _ (by decide +kernel)⟩,
  ⟨st ({ rad with xcr := { rad.xcr with req := some (xrq (.ack 0) 3) } }), xrq (.ack 0) 3, 0, by decide +kernel⟩,
  ⟨st ({ rad with xcr := { rad.xcr with req := some (xrq (.ack 0) 2) } }), xrq (.ack 0) 2, 0, by decide +kernel⟩,
  ⟨st ((rad.setf XCR_SENS_CFG.EN 1 1023)), 0x23FF0073#32, by decide +kernel⟩,
  ⟨st (rad.setf XCR_TX_STAT.BUSY 1), by decide +kernel⟩,
  ⟨st (rad), 0x20050074#32, by decide +kernel⟩,
  ⟨st (rad), 0x20050001#32, by decide +kernel⟩,
  ⟨st ({ rad with xcr := { rad.xcr with rxq := [[1#32], [2#32]] } }), by decide +kernel⟩⟩

theorem witness_RadioReceptionActs :
  (∃ (s : State) (phr : Nat), s.dev.awake = true ∧ s.dev.radioOn = true ∧ (phr < 12 ∨ 127 < phr)) ∧
  (∃ (s : State) (b : List Byte), s.dev.awake = true ∧ s.dev.radioOn = true ∧ 12 ≤ b.length ∧ b.length ≤ 127 ∧
    b.drop (b.length - 4) ≠ le32 (w32 (crc32 (b.take (b.length - 4))))) ∧
  (∃ (s : State) (b : List Byte) (src : Nat), s.dev.awake = true ∧ s.dev.radioOn = true ∧ 12 ≤ b.length ∧ b.length ≤ 127 ∧
    b.drop (b.length - 4) = le32 (w32 (crc32 (b.take (b.length - 4)))) ∧ s.dev.xHeadOk b (b.length - 12) = true ∧
    src = (b.getD 4 0#8).toNat + 256 * (b.getD 5 0#8).toNat ∧ src < 1024 ∧ s.dev.sensEn src = true ∧ (b.getD 2 0#8).toNat + 256 * (b.getD 3 0#8).toNat = 0x7FF ∧
    ((b.getD 0 0#8).toNat / 16 = 1 ∨ (b.getD 0 0#8).toNat / 16 = 2) ∧ (s.dev.sens src).lastSeq ≠ some (b.getD 1 0#8).toNat ∧ s.dev.xcr.rxq.length < 512) ∧
  (∃ (s : State) (k : Nat), s.dev.awake = true ∧ s.dev.radioOn = true ∧ k < 1024 ∧ s.dev.sensEn k = true ∧ (s.dev.sens k).missAt + s.dev.chkT ≤ s.dev.now ∧
    (s.dev.sens k).missed < 2) ∧
  (∃ (s : State) (k : Nat), s.dev.awake = true ∧ s.dev.radioOn = true ∧ k < 1024 ∧ s.dev.sensEn k = true ∧ (s.dev.sens k).missAt + s.dev.chkT ≤ s.dev.now ∧
    (s.dev.sens k).missed = 2 ∧ (s.dev.sens k).st = .synced) ∧
  (∃ (s : State) (ok : Bool), s.dev.awake = true ∧ s.dev.radioOn = true ∧ s.dev.fb XCR_STAT.XCVR_OK ≠ ok) :=
  ⟨⟨st (rad), 11, by decide +kernel⟩,
  ⟨st (rad), List.replicate 12 0#8, by decide +kernel⟩,
  ⟨st (rad.setf XCR_SENS_CFG.EN 1 1023), (let b : List Byte := [0x14#8, 9#8, 0xFF#8, 7#8, 0xFF#8, 3#8, 0#8, 0#8]; b ++ le32 (w32 (crc32 b))), 1023, by decide +kernel⟩,
  ⟨st (rad.setf XCR_SENS_CFG.EN 1 1023 |> fun d => { d with xcr := { d.xcr with sens := [(1023, ⟨.synced, none, none, 1, 0⟩)] }, tk := { d.tk with now := 60 * Time.secU } }),
    1023, by decide +kernel⟩,
  ⟨st (rad.setf XCR_SENS_CFG.EN 1 1023 |> fun d => { d with xcr := { d.xcr with sens := [(1023, ⟨.synced, none, none, 2, 0⟩)] }, tk := { d.tk with now := 60 * Time.secU } }),
    1023, by decide +kernel⟩,
  ⟨st (rad), true, by decide +kernel⟩⟩

theorem witness_PulseCommandsAct :
  (∃ (s : State) (i : Nat) (lvl : Bool), s.dev.alive = true ∧ i < 32 ∧ s.dev.fb NRG_PI_CFG.EN i = true ∧ (s.dev.plsi i).raw ≠ lvl ∧ (s.dev.plsi i).level ≠ lvl) ∧
  (∃ (s : State) (i : Nat) (lvl : Bool), s.dev.alive = true ∧ i < 32 ∧ s.dev.fb NRG_PI_CFG.EN i = true ∧ (s.dev.plsi i).raw ≠ lvl ∧ (s.dev.plsi i).level = lvl ∧
    (s.dev.plsi i).edge.isSome = true) ∧
  (∃ (s : State) (i : Nat) (lvl : Bool), s.dev.alive = true ∧ i < 32 ∧ s.dev.fb NRG_PI_CFG.EN i = false ∧ (s.dev.plsi i).raw ≠ lvl) ∧
  (∃ (s : State) (i : Nat) (t0 : Nat), s.dev.alive = true ∧ i < 32 ∧ s.dev.fb NRG_PI_CFG.EN i = true ∧ (s.dev.plsi i).edge = some t0 ∧
    t0 + s.dev.f NRG_PI_CFG.DEB_US i * Time.usU ≤ s.dev.now) ∧
  (∃ (s : State) (k : Nat) (v : Word), s.dev.alive = true ∧ k < 32 ∧ s.dev.fb NRG_PO_CFG.EN k = false ∧ bx v 23 16 ≠ 0) ∧
  (∃ (s : State) (k : Nat), s.dev.alive = true ∧ k < 32 ∧ s.dev.fb NRG_PO_CFG.EN k = true) ∧
  (∃ (s : State) (k : Nat) (t : Nat), s.dev.alive = true ∧ k < 32 ∧ s.dev.awake = true ∧ (s.dev.pulse k).phase = .active t ∧ t ≤ s.dev.now) ∧
  (∃ (s : State) (k : Nat) (t : Nat), s.dev.alive = true ∧ k < 32 ∧ s.dev.awake = true ∧ (s.dev.pulse k).phase = .inactive t ∧ t ≤ s.dev.now ∧ 0 < (s.dev.pulse k).pend) ∧
  (∃ (s : State) (k : Nat) (t : Nat), s.dev.alive = true ∧ k < 32 ∧ s.dev.awake = true ∧ (s.dev.pulse k).phase = .inactive t ∧ t ≤ s.dev.now ∧ (s.dev.pulse k).pend = 0) :=
  ⟨⟨st (R.setf NRG_PI_CFG.EN 1 31), 31, true, by decide +kernel⟩,
  ⟨st ({ R.setf NRG_PI_CFG.EN 1 31 with nrg := { R.nrg with inputs := [(31, ⟨true, some 0, false⟩)] } }), 31, false, by decide +kernel⟩,
  ⟨st (R), 31, true, by decide +kernel⟩,
  ⟨st (tn { R.setf NRG_PI_CFG.EN 1 31 with nrg := { R.nrg with inputs := [(31, ⟨true, some 0, false⟩)] } } Time.secU), 31, 0, by decide +kernel⟩,
  ⟨st (R), 31, 0x80FF0000#32, by decide +kernel⟩,
  ⟨st (R.setf NRG_PO_CFG.EN 1 31), 31, by decide +kernel⟩,
  ⟨st ({ R with nrg := { R.nrg with outputs := [(31, ⟨0, 2, .active 0⟩)] } }), 31, 0, by decide +kernel⟩,
  ⟨st ({ R with nrg := { R.nrg with outputs := [(31, ⟨0, 2, .inactive 0⟩)] } }), 31, 0, by decide +kernel⟩,
  ⟨st ({ R with nrg := { R.nrg with outputs := [(31, ⟨0, 0, .inactive 0⟩)] } }), 31, 0, by decide +kernel⟩⟩

theorem witness_MeteringCommandsAct :
  (∃ (s : State) (i : Nat), s.dev.alive = true ∧ i < 512 ∧ s.dev.nrg.slot.st = .free) ∧
  (∃ (s : State), s.dev.alive = true ∧ s.dev.nrg.slot.st ≠ .free) ∧
  (∃ (s : State), s.dev.alive = true ∧ s.dev.nrg.slot.st = .busy) ∧
  (∃ (s : State) (v : Word), s.dev.alive = true ∧ s.dev.nrg.slot.st ≠ .free ∧ bx v 15 0 = s.dev.nrg.slot.seq) ∧
  (∃ (s : State) (i : Nat) (iv : Interval) (rest : List Interval), s.dev.alive = true ∧ s.dev.awake = true ∧ i < 512 ∧ (s.dev.point i).ivs = iv :: rest ∧
    peEn (s.dev.ent tPoint i) = true ∧ s.dev.ivStop iv ≤ s.dev.now ∧
    (peKind (s.dev.ent tPoint i) = 3 ∨ s.dev.ivSettled (s.dev.pointHeat (s.dev.ent tPoint i)) iv.start (s.dev.ivStop iv) = true)) ∧
  (∃ (s : State), s.dev.alive = true ∧ s.dev.awake = true ∧ s.dev.mem.bad = [] ∧ s.dev.pwr.mode = .follow) ∧
  (∃ (s : State) (r : List Word) (q : Nat), s.dev.alive = true ∧ s.dev.awake = true ∧ s.dev.mem.bad = [] ∧ s.dev.pwr.mode ≠ .follow ∧ s.dev.nrg.buf = [r] ∧ r.length = 16 ∧
    s.dev.fb NRG_CFG.EN = true ∧ q = s.dev.f NRG_CFG.RING ∧ s.dev.fb HIF_CQ_CFG.EN q = true ∧ s.dev.f HIF_CQ_CFG.CONTENT q = 2 ∧ 4 ≤ s.dev.cqFree q) :=
  ⟨⟨st (R), 511, by decide +kernel⟩,
  ⟨st ({ R with nrg := { R.nrg with slot := ⟨.busy, 3, []⟩ } }), by decide +kernel⟩,
  ⟨st ({ R with nrg := { R.nrg with slot := ⟨.busy, 3, []⟩ } }), by decide +kernel⟩,
  ⟨st ({ R with nrg := { R.nrg with slot := ⟨.held, 3, []⟩ } }), 3#32, by decide +kernel⟩,
  ⟨st (tn { R with tables := [(tabKey tPoint 0 511, [0xE0000000#32])], nrg := { R.nrg with points := [(511, { pointInit with ivs := [⟨0, 60, zero6, false, false, 0, 0, none, false, false, 0, 0, 0⟩, ⟨0, 120, zero6, false, false, 0, 0, none, false, false, 0, 0, 0⟩] })] } } (100 * Time.secU)),
    511, ⟨0, 60, zero6, false, false, 0, 0, none, false, false, 0, 0, 0⟩, [⟨0, 120, zero6, false, false, 0, 0, none, false, false, 0, 0, 0⟩], by decide +kernel⟩,
  ⟨st (F), by decide +kernel⟩,
  ⟨st ({ ((R.setf NRG_CFG.EN 1).setf HIF_CQ_CFG.EN 1 0).setf HIF_CQ_CFG.CONTENT 2 0 with nrg := { R.nrg with buf := [List.replicate 16 7#32] } }), List.replicate 16 7#32,
    0, by decide +kernel⟩⟩

theorem witness_EnergyIsBookedExactly :
  (∃ (d : Device) (i : Nat) (q : Nat) (x : Nat) (dv : Nat), 0 < dv ∧ q < 6 ∧ (d.point i).acc.length = 6 ∧ (d.point i).rem.length = 6 ∧
    (d.point i).acc.getD q 0 + ((d.point i).rem.getD q 0 + x) / dv < 2 ^ 64) ∧
  (∃ (d : Device) (i : Nat) (q : Nat) (x : Nat) (dv : Nat) (j : Nat), 0 < dv ∧ q < 6 ∧ (d.point i).acc.length = 6 ∧ (d.point i).rem.length = 6 ∧
    (d.point i).acc.getD q 0 + ((d.point i).rem.getD q 0 + x) / dv < 2 ^ 64 ∧ j ≠ q) ∧
  (∃ (d : Device) (i : Nat) (q : Nat) (x : Nat) (dv : Nat) (j : Nat), 0 < dv ∧ q < 6 ∧ (d.point i).acc.length = 6 ∧ (d.point i).rem.length = 6 ∧
    (d.point i).acc.getD q 0 + ((d.point i).rem.getD q 0 + x) / dv < 2 ^ 64 ∧ j ≠ i) :=
  ⟨⟨R, 511, 5, 7, 3, by decide +kernel⟩,
  ⟨R, 511, 5, 7, 3, 4, by decide +kernel⟩,
  ⟨R, 511, 5, 7, 3, 510, by decide +kernel⟩⟩

theorem witness_DeviceTimeCommandsAct :
  (∃ (s : State), s.dev.alive = true ∧ s.dev.tk.step = none) ∧
  (∃ (s : State) (v : _) (c : Nat), s.dev.alive = true ∧ s.dev.tk.step = some (v, c)) ∧
  (∃ (s : State), s.dev.alive = true) ∧
  (∃ (s : State) (v : Word), s.dev.alive = true ∧ s.dev.fb TK_CTL.MANUAL = true ∧ s.dev.tk.intW = 7 ∧ 0xCE000000 ≤ v.toNat ∧ v.toNat ≤ 0xD2000000) ∧
  (∃ (s : State) (v : Word), s.dev.alive = true ∧ (s.dev.fb TK_CTL.MANUAL = false ∨ s.dev.tk.intW ≠ 7 ∨ v.toNat < 0xCE000000 ∨ 0xD2000000 < v.toNat)) ∧
  (∃ (s : State) (v : Word) (dv : Int), s.dev.alive = true ∧ bx v 31 28 = 1 ∧ (s.dev.tkState = stFREERUN ∨ s.dev.tkState = stHOLDOVER) ∧
    (s32 (s.dev.rg TK_STEP_NS 0)).natAbs ≤ 999999999 ∧ dv = s32 (s.dev.rg TK_STEP_SEC 0) * (Time.secU : Int) + s32 (s.dev.rg TK_STEP_NS 0) * (Time.nsU : Int) ∧
    0 ≤ ((s.dev.tk.now + s.dev.tk.inc : Nat) : Int) + dv ∧ ((s.dev.tk.now + s.dev.tk.inc : Nat) : Int) + dv < (2 ^ 48 * Time.secU : Nat)) ∧
  (∃ (s : State) (v : Word), s.dev.alive = true ∧ bx v 31 28 = 1 ∧
    (s.dev.tkState = stACQUIRING ∨ s.dev.tkState = stLOCKED ∨ 999999999 < (s32 (s.dev.rg TK_STEP_NS 0)).natAbs)) ∧
  (∃ (s : State) (v : Word), s.dev.alive = true ∧ bx v 31 28 ≠ 1) ∧
  (∃ (s : State) (e : Nat), s.dev.alive = true ∧ s.dev.tk.leapDay = some e ∧ s.dev.utcLeap.1 = 1 ∧ (e : Int) + s.dev.utcOffset.1 + 1 ≤ (Time.secOf s.dev.tk.now : Int)) ∧
  (∃ (s : State), s.dev.alive = true ∧ s.dev.fb TK_PPS.OUT_EN = true ∧ s.dev.tkState ≠ stFREERUN ∧ s.dev.tk.ppsOut = false ∧
    (s.dev.tk.now + s.dev.f TK_DLY.PPS_OUT_ADV_NS * Time.nsU) % Time.secU < s.dev.f TK_PPS.OUT_W_MS * Time.msU) ∧
  (∃ (s : State), s.dev.alive = true ∧ s.dev.tk.ppsOut = true ∧ s.dev.f TK_PPS.OUT_W_MS * Time.msU ≤ (s.dev.tk.now + s.dev.f TK_DLY.PPS_OUT_ADV_NS * Time.nsU) % Time.secU) :=
  ⟨⟨st (R), by decide +kernel⟩,
  ⟨st (tkd (fun t => { t with step := some (-5, 1) }) R), -5, 1, by decide +kernel⟩,
  ⟨st (R), by decide +kernel⟩,
  ⟨st (tkd (fun t => { t with intW := 7 }) (R.setf TK_CTL.MANUAL 1)), 0xD2000000#32, by decide +kernel⟩,
  ⟨st (tkd (fun t => { t with intW := 7 }) (R.setf TK_CTL.MANUAL 1)), 0xD2000001#32, by decide +kernel⟩,
  ⟨st (R.wr TK_STEP_NS 0 999999999#32), 0x10000000#32, (999999999 * (Time.nsU : Int)), by decide +kernel⟩,
  ⟨st (R.setf TK_STAT.STATE 2), 0x10000000#32, by decide +kernel⟩,
  ⟨st (R), 0x20000000#32, by decide +kernel⟩,
  ⟨st (tkd (fun t => { t with leapDay := some 86400, now := 86500 * Time.secU }) (R.setf TK_UTC.LEAP 1)), 86400, by decide +kernel⟩,
  ⟨st (((R.setf TK_PPS.OUT_EN 1).setf TK_STAT.STATE 2).setf TK_PPS.OUT_W_MS 100), by decide +kernel⟩,
  ⟨st (tkd (fun t => { t with ppsOut := true, now := 100 * Time.msU }) (R.setf TK_PPS.OUT_W_MS 100)), by decide +kernel⟩⟩

theorem witness_TimeSourceCommandsAct :
  (∃ (s : State) (k : Nat) (t : Nat), s.dev.alive = true ∧ 1 ≤ k ∧ k ≤ 3 ∧ (s.dev.tkSrc k).since = some t ∧ (s.dev.tkSrc k).qual = false ∧
    s.dev.f TK_SERVO.QUAL_S * tkPerSec ≤ s.dev.tk.ticks - t) ∧
  (∃ (s : State), s.dev.alive = true ∧ (s.dev.fb TK_IRIG.EN = true ∨ (s.dev.tkSrc srcIRIG).last.isSome = true) ∧ (s.dev.tkSrc srcIRIG).miss < 2) ∧
  (∃ (s : State), s.dev.alive = true ∧ (s.dev.fb TK_IRIG.EN = true ∨ (s.dev.tkSrc srcIRIG).last.isSome = true) ∧ 2 ≤ (s.dev.tkSrc srcIRIG).miss) ∧
  (∃ (s : State) (syms : List Nat), s.dev.alive = true ∧ s.dev.fb TK_IRIG.EN = true ∧ irigOk syms (s.dev.fb TK_IRIG.IEEE1344) = false ∧ (s.dev.tkSrc srcIRIG).miss < 2) ∧
  (∃ (s : State) (form : Nat) (syms : List Nat) (c : Bool) (l : _), s.dev.alive = true ∧ s.dev.fb TK_IRIG.EN = true ∧ c = s.dev.fb TK_IRIG.IEEE1344 ∧ irigOk syms c = true ∧
    l = irigLabel (irigUtc form syms c (utcSec (Time.secOf s.dev.tk.now) s.dev.utcOffset.1)) syms ∧
    ((s.dev.tkSrc srcIRIG).last = none ∨ (s.dev.tkSrc srcIRIG).last.map s.dev.irigNext = some l) ∧ c = true ∧ irigField syms [(71, 1), (72, 2), (73, 4), (74, 8)] ≠ 15) ∧
  (∃ (s : State) (form : Nat) (syms : List Nat) (c : Bool) (l : _), s.dev.alive = true ∧ s.dev.fb TK_IRIG.EN = true ∧ c = s.dev.fb TK_IRIG.IEEE1344 ∧ irigOk syms c = true ∧
    l = irigLabel (irigUtc form syms c (utcSec (Time.secOf s.dev.tk.now) s.dev.utcOffset.1)) syms ∧
    ((s.dev.tkSrc srcIRIG).last = none ∨ (s.dev.tkSrc srcIRIG).last.map s.dev.irigNext = some l) ∧ c = false) ∧
  (∃ (s : State) (form : Nat) (syms : List Nat) (c : Bool) (l : _), s.dev.alive = true ∧ s.dev.fb TK_IRIG.EN = true ∧ c = s.dev.fb TK_IRIG.IEEE1344 ∧ irigOk syms c = true ∧
    l = irigLabel (irigUtc form syms c (utcSec (Time.secOf s.dev.tk.now) s.dev.utcOffset.1)) syms ∧
    ((s.dev.tkSrc srcIRIG).last = none ∨ (s.dev.tkSrc srcIRIG).last.map s.dev.irigNext = some l) ∧ c = true ∧ irigField syms [(71, 1), (72, 2), (73, 4), (74, 8)] = 15) ∧
  (∃ (s : State) (form : Nat) (syms : List Nat) (c : Bool) (l : _), s.dev.alive = true ∧ s.dev.fb TK_IRIG.EN = true ∧ c = s.dev.fb TK_IRIG.IEEE1344 ∧ irigOk syms c = true ∧
    l = irigLabel (irigUtc form syms c (utcSec (Time.secOf s.dev.tk.now) s.dev.utcOffset.1)) syms ∧ (s.dev.tkSrc srcIRIG).last.isSome = true ∧
    (s.dev.tkSrc srcIRIG).last.map s.dev.irigNext ≠ some l ∧ (s.dev.tkSrc srcIRIG).miss < 2) ∧
  (∃ (s : State) (up : Bool), s.dev.alive = true ∧ s.dev.fb TK_PPS.IN_EN = true ∧ s.dev.fb TK_PPS.IN_EDGE = !up ∧ (s.dev.tkSrc srcPPS).last = none) ∧
  (∃ (s : State) (up : Bool) (edge : _) (l : Nat), s.dev.alive = true ∧ s.dev.fb TK_PPS.IN_EN = true ∧ s.dev.fb TK_PPS.IN_EDGE = !up ∧ (s.dev.tkSrc srcPPS).last = some l ∧
    ppsInWindow l edge = true) ∧
  (∃ (s : State) (up : Bool) (edge : _) (l : Nat), s.dev.alive = true ∧ s.dev.fb TK_PPS.IN_EN = true ∧ s.dev.fb TK_PPS.IN_EDGE = !up ∧ (s.dev.tkSrc srcPPS).last = some l ∧
    ppsInWindow l edge = false) ∧
  (∃ (s : State) (up : Bool), s.dev.alive = true ∧ (s.dev.fb TK_PPS.IN_EN = false ∨ s.dev.fb TK_PPS.IN_EDGE = up)) ∧
  (∃ (s : State) (l : Nat), s.dev.alive = true ∧ (s.dev.tkSrc srcPPS).last = some l ∧ (s.dev.tkSrc srcPPS).miss < 2) ∧
  (∃ (s : State) (l : Nat), s.dev.alive = true ∧ (s.dev.tkSrc srcPPS).last = some l ∧ 2 ≤ (s.dev.tkSrc srcPPS).miss) ∧
  (∃ (s : State), s.dev.alive = true) :=
  ⟨⟨st (tkd (fun t => { t with srcs := [(3, ⟨some 0, false, 0, none⟩)], ticks := 10 * tkPerSec }) (R.setf TK_SERVO.QUAL_S 10)), 3, 0, by decide +kernel⟩,
  ⟨st (tkd (fun t => { t with srcs := [(2, ⟨some 0, true, 1, none⟩)] }) (R.setf TK_IRIG.EN 1)), by decide +kernel⟩,
  ⟨st (tkd (fun t => { t with srcs := [(2, ⟨some 0, true, 2, none⟩)] }) (R.setf TK_IRIG.EN 1)), by decide +kernel⟩,
  ⟨st (tkd (fun t => { t with srcs := [(2, ⟨some 0, true, 1, none⟩)] }) (R.setf TK_IRIG.EN 1)), [], by decide +kernel⟩,
  ⟨st ((R.setf TK_IRIG.EN 1).setf TK_IRIG.IEEE1344 1), 4, (marks.set 75 1), true, irigLabel (irigUtc 4 (marks.set 75 1) true 0) (marks.set 75 1), by decide +kernel⟩,
  ⟨st (tkd (fun t => { t with srcs := [(2, ⟨some 0, true, 1, some (irigLabel (irigUtc 4 marks false 0) marks - 2)⟩)] }) ((R.setf TK_IRIG.EN 1).setf TK_IRIG.IEEE1344 0)), 4,
    marks, false, irigLabel (irigUtc 4 marks false 0) marks, by decide +kernel⟩,
  ⟨st ((R.setf TK_IRIG.EN 1).setf TK_IRIG.IEEE1344 1), 4, (((((marks.set 71 1).set 72 1).set 73 1).set 74 1).set 75 1), true,
    irigLabel (irigUtc 4 (((((marks.set 71 1).set 72 1).set 73 1).set 74 1).set 75 1) true 0) (((((marks.set 71 1).set 72 1).set 73 1).set 74 1).set 75 1),
    by decide +kernel⟩,
  ⟨st (tkd (fun t => { t with srcs := [(2, ⟨some 0, true, 1, some 0⟩)] }) ((R.setf TK_IRIG.EN 1).setf TK_IRIG.IEEE1344 0)), 4, marks, false,
    irigLabel (irigUtc 4 marks false 0) marks, by decide +kernel⟩,
  ⟨st (R.setf TK_PPS.IN_EN 1), true, by decide +kernel⟩,
  ⟨st (tkd (fun t => { t with srcs := [(3, ⟨some 0, true, 1, some 0⟩)] }) (R.setf TK_PPS.IN_EN 1)), true, Time.secU + 10 * Time.usU, 0, by decide +kernel⟩,
  ⟨st (tkd (fun t => { t with srcs := [(3, ⟨some 0, true, 1, some 0⟩)] }) (R.setf TK_PPS.IN_EN 1)), true, Time.secU + 10 * Time.usU + 1, 0, by decide +kernel⟩,
  ⟨st (R), true, by decide +kernel⟩,
  ⟨st (tkd (fun t => { t with srcs := [(3, ⟨some 0, true, 1, some 0⟩)] }) (R.setf TK_PPS.IN_EN 1)), 0, by decide +kernel⟩,
  ⟨st (tkd (fun t => { t with srcs := [(3, ⟨some 0, true, 2, some 0⟩)] }) (R.setf TK_PPS.IN_EN 1)), 0, by decide +kernel⟩,
  ⟨st (tkd (fun t => { t with leftAt := some 0, ticks := 1000 * tkPerSec }) R), by decide +kernel⟩⟩

theorem witness_PtpCommandsAct :
  (∃ (s : State) (r : PtpRx) (rest : List PtpRx), s.dev.awake = true ∧ s.dev.ing.ptpq = r :: rest ∧ s.dev.ptpSupported r.port r.transport r.msg = false) ∧
  (∃ (s : State) (r : PtpRx) (rest : List PtpRx), s.dev.awake = true ∧ s.dev.ing.ptpq = r :: rest ∧ s.dev.ptpSupported r.port r.transport r.msg = true ∧
    beNat (slice r.msg 4 1) ≠ s.dev.f TK_PTP.DOMAIN) ∧
  (∃ (s : State) (r : PtpRx) (rest : List PtpRx), s.dev.awake = true ∧ s.dev.ing.ptpq = r :: rest ∧ s.dev.ptpSupported r.port r.transport r.msg = true ∧
    beNat (slice r.msg 4 1) = s.dev.f TK_PTP.DOMAIN ∧ beNat (slice r.msg 0 1) % 16 = 11 ∧ beNat (slice r.msg 20 10) / 65536 ≠ s.dev.clockId) ∧
  (∃ (s : State) (r : PtpRx) (rest : List PtpRx) (a : Announce), s.dev.awake = true ∧ s.dev.ing.ptpq = r :: rest ∧ s.dev.ptpSupported r.port r.transport r.msg = true ∧
    beNat (slice r.msg 4 1) = s.dev.f TK_PTP.DOMAIN ∧ beNat (slice r.msg 0 1) % 16 = 0 ∧ beNat (slice r.msg 6 2) / 512 % 2 = 1 ∧ s.dev.tk.parent = some (r.port, a) ∧
    a.sender = beNat (slice r.msg 20 10)) ∧
  (∃ (s : State) (p : Nat), s.dev.awake = true ∧ p < 8 ∧ s.dev.fb ETH_PTP_CFG.EN p = true ∧
    ((∀ f ∈ (s.dev.ptp p).foreign, 3 * s.dev.annTicks p ≤ s.dev.tk.ticks - f.ann.rxAt))) ∧
  (∃ (s : State) (p : Nat) (f : Foreign), s.dev.awake = true ∧ p < 8 ∧ f ∈ (s.dev.ptp p).foreign ∧ s.dev.tk.ticks - f.ann.rxAt < 3 * s.dev.annTicks p ∧
    ((∀ q a, s.dev.tk.parent = some (q, a) → q = p → ∃ g ∈ (s.dev.ptp p).foreign, s.dev.tk.ticks - g.ann.rxAt < 3 * s.dev.annTicks p ∧ g.ann.sender = a.sender))) ∧
  (∃ (s : State) (p : Nat) (a : Announce), s.dev.awake = true ∧ p < 8 ∧ s.dev.fb ETH_PTP_CFG.EN p = true ∧ s.dev.tk.parent = some (p, a) ∧
    ((∀ g ∈ (s.dev.ptp p).foreign, g.ann.sender = a.sender → 3 * s.dev.annTicks p ≤ s.dev.tk.ticks - g.ann.rxAt))) ∧
  (∃ (s : State) (p : Nat), s.dev.awake = true ∧ p < 8 ∧ s.dev.mayPtp = true ∧ s.dev.fb ETH_PTP_CFG.EN p = true ∧ s.dev.pstate p = psMASTER) ∧
  (∃ (s : State) (p : Nat) (k : Nat), s.dev.awake = true ∧ p < 8 ∧ k < 2 ∧ s.dev.pstate p ≠ psMASTER) ∧
  (∃ (s : State) (p : Nat), s.dev.awake = true ∧ p < 8 ∧ s.dev.mayPtp = true ∧ s.dev.fb ETH_PTP_CFG.EN p = true ∧ s.dev.fb ETH_PTP_CFG.P2P p = true) ∧
  (∃ (s : State) (p : Nat), s.dev.awake = true ∧ p < 8 ∧ s.dev.mayPtp = true ∧ s.dev.fb ETH_PTP_CFG.EN p = true ∧ s.dev.fb ETH_PTP_CFG.P2P p = false ∧
    (s.dev.pstate p = psSLAVE ∨ s.dev.pstate p = psUNCAL)) ∧
  (∃ (s : State) (bytes : List Byte), s.dev.awake = true ∧ framePtp bytes = true) ∧
  (∃ (s : State) (bytes : List Byte), s.dev.awake = true ∧ framePtp bytes = false) ∧
  (∃ (s : State) (p : Nat) (v : Word), s.dev.awake = true ∧ p < 8 ∧ bit v 31 = true ∧ s.dev.fb ETH_PTP_CFG.EN p = false) ∧
  (∃ (s : State) (p : Nat) (v : Word), s.dev.awake = true ∧ p < 8 ∧ (bit v 31 = false ∨ s.dev.fb ETH_PTP_CFG.EN p = true)) ∧
  (∃ (s : State) (p : Nat) (e : TxStamp) (rest : List TxStamp), s.dev.awake = true ∧ p < 8 ∧ (s.dev.ptp p).txq = e :: rest) ∧
  (∃ (s : State) (p : Nat), s.dev.awake = true ∧ p < 8 ∧ (s.dev.ptp p).txq = []) :=
  ⟨⟨st ({ R with ing := { R.ing with ptpq := [⟨7, 0, []⟩] } }), ⟨7, 0, []⟩, ([] : List PtpRx), by decide +kernel⟩,
  ⟨st ({ (R.setf ETH_PTP_CFG.EN 1 7).setf TK_PTP.DOMAIN 5 with ing := { R.ing with ptpq := [⟨7, 0, annMsg⟩] } }), ⟨7, 0, annMsg⟩, ([] : List PtpRx), by decide +kernel⟩,
  ⟨st ({ R.setf ETH_PTP_CFG.EN 1 7 with ing := { R.ing with ptpq := [⟨7, 0, annMsg⟩] } }), ⟨7, 0, annMsg⟩, ([] : List PtpRx), by decide +kernel⟩,
  ⟨st ({ tkd (fun t => { t with parent := some (7, ⟨0, 128, 6, 33, 0, 128, 1, 0, 37, true, 0, 16, none, 0⟩) }) (R.setf ETH_PTP_CFG.EN 1 7) with ing := { R.ing with ptpq := [⟨7, 0, ([0#8, 2#8, 0#8, 44#8, 0#8, 0#8, 2#8] ++ List.replicate 37 0#8)⟩] } }),
    ⟨7, 0, ([0#8, 2#8, 0#8, 44#8, 0#8, 0#8, 2#8] ++ List.replicate 37 0#8)⟩, ([] : List PtpRx), ⟨0, 128, 6, 33, 0, 128, 1, 0, 37, true, 0, 16, none, 0⟩,
    by decide +kernel⟩,
  ⟨st (tkd (fun t => { t with ports := [(7, { tkPortInit with foreign := [⟨⟨1, 128, 6, 33, 0, 128, 1, 0, 37, true, 0, 16, none, 0⟩, none⟩] })], ticks := 3 * tkPerSec * 256 }) (R.setf ETH_PTP_CFG.EN 1 7)),
    7, by decide +kernel⟩,
  ⟨st (tkd (fun t => { t with ports := [(7, { tkPortInit with foreign := [⟨⟨1, 128, 6, 33, 0, 128, 1, 0, 37, true, 0, 16, none, 0⟩, none⟩] })] }) R), 7,
    ⟨⟨1, 128, 6, 33, 0, 128, 1, 0, 37, true, 0, 16, none, 0⟩, none⟩, by decide +kernel, by decide +kernel, by decide +kernel, by decide +kernel, fun q a h => by cases h⟩,

  ⟨st (tkd (fun t => { t with parent := some (7, ⟨1, 128, 6, 33, 0, 128, 1, 0, 37, true, 0, 16, none, 0⟩), ports := [(7, { tkPortInit with foreign := [⟨⟨1, 128, 6, 33, 0, 128, 1, 0, 37, true, 0, 16, none, 0⟩, none⟩, ⟨⟨2, 128, 6, 33, 0, 128, 1, 0, 37, true, 0, 16, none, 768000⟩, none⟩] })], ticks := 3 * tkPerSec * 256 }) (R.setf ETH_PTP_CFG.EN 1 7)),
    7, ⟨1, 128, 6, 33, 0, 128, 1, 0, 37, true, 0, 16, none, 0⟩, by decide +kernel⟩,
  ⟨st ((R.setf ETH_PTP_CFG.EN 1 7).setf ETH_PTP_STAT.PSTATE 2 7), 7, by decide +kernel⟩,
  ⟨st (R), 7, 1, by decide +kernel⟩,
  ⟨st ((R.setf ETH_PTP_CFG.EN 1 7).setf ETH_PTP_CFG.P2P 1 7), 7, by decide +kernel⟩,
  ⟨st (((R.setf ETH_PTP_CFG.EN 1 7).setf ETH_PTP_CFG.P2P 0 7).setf ETH_PTP_STAT.PSTATE psSLAVE 7), 7, by decide +kernel⟩,
  ⟨st (R), List.replicate 12 0#8 ++ [0x88#8, 0xF7#8], by decide +kernel⟩,
  ⟨st (R), [], by decide +kernel⟩,
  ⟨st (tkd (fun t => { t with ports := [(7, { tkPortInit with txq := [⟨3, 9⟩] })] }) R), 7, 0x80000000#32, by decide +kernel⟩,
  ⟨st (R), 7, 0#32, by decide +kernel⟩,
  ⟨st (tkd (fun t => { t with ports := [(7, { tkPortInit with txq := [⟨3, 9⟩] })] }) R), 7, ⟨3, 9⟩, ([] : List TxStamp), by decide +kernel⟩,
  ⟨st (R), 7, by decide +kernel⟩⟩

theorem witness_FilterCommandsAct :
  (∃ (s : State) (g : Nat) (v : Word), s.dev.alive = true ∧ g < 8 ∧
    ((∀ i, i < 8 → s.dev.running (8 * g + i) = false) ∨ ((s.dev.fb LMF_GRP.EN g = true → bit v 31 = true) ∧ bx v 30 30 = s.dev.f LMF_GRP.EDGE g))) ∧
  (∃ (s : State) (g : Nat) (v : Word) (i : Nat), s.dev.alive = true ∧ g < 8 ∧ i < 8 ∧ s.dev.running (8 * g + i) = true ∧
    ((s.dev.fb LMF_GRP.EN g = true ∧ bit v 31 = false) ∨ bx v 30 30 ≠ s.dev.f LMF_GRP.EDGE g)) ∧
  (∃ (s : State) (c : Nat), s.dev.alive = true ∧ c < 64 ∧ (s.dev.chan c).stuck = true ∧ s.dev.fb LMF_CH_STAT.FAULT c = false) ∧
  (∃ (s : State) (c : Nat), s.dev.alive = true ∧ c < 64 ∧ (s.dev.chan c).stuck = false ∧ s.dev.fb LMF_CH_STAT.FAULT c = true) ∧
  (∃ (s : State), s.dev.alive = true ∧ s.dev.measuring = true ∧ s.dev.lmf.phase < 7) ∧
  (∃ (s : State), s.dev.alive = true ∧ s.dev.measuring = true ∧ s.dev.lmf.phase = 7) ∧
  (∃ (s : State) (half : Bool) (c : Nat) (code : Nat) (t : Nat), s.dev.alive = true ∧ s.dev.measuring = true ∧ s.dev.lmf.phase = 7 ∧ c < 64 ∧ code < 16 ∧
    (s.dev.chan c).stop = false ∧ (s.dev.chan c).start = some (code, t) ∧ lmfDue t (s.dev.edgeTime half) = true ∧ s.dev.fb LMF_GRP.EN (c / 8) = true ∧
    (code ≠ 15 ∨ s.dev.fb LMF_CH_STAT.RAM_OK c = true)) ∧
  (∃ (s : State) (c : Nat), s.dev.alive = true ∧ s.dev.measuring = true ∧ s.dev.lmf.phase = 7 ∧ c < 64 ∧ (s.dev.chan c).stop = true ∧ (s.dev.chan c).start = none) ∧
  (∃ (s : State) (c : Nat) (v : Word), s.dev.alive = true ∧ c < 64 ∧ (s.dev.running c = false ∨ (s.dev.chan c).stop = true) ∧ (¬ (12 ≤ bx v 3 0 ∧ bx v 3 0 ≤ 14)) ∧
    s.dev.fb LMF_GRP.EN (c / 8) = true ∧ (bx v 3 0 ≠ 15 ∨ s.dev.fb LMF_CH_STAT.RAM_OK c = true)) ∧
  (∃ (s : State) (c : Nat) (v : Word), s.dev.alive = true ∧ c < 64 ∧ (s.dev.running c = false ∨ (s.dev.chan c).stop = true) ∧ (¬ (12 ≤ bx v 3 0 ∧ bx v 3 0 ≤ 14)) ∧
    s.dev.fb LMF_GRP.EN (c / 8) = false) ∧
  (∃ (s : State) (c : Nat) (v : Word), s.dev.alive = true ∧ c < 64 ∧ (s.dev.running c = false ∨ (s.dev.chan c).stop = true) ∧ (¬ (12 ≤ bx v 3 0 ∧ bx v 3 0 ≤ 14)) ∧
    s.dev.fb LMF_GRP.EN (c / 8) = true ∧ bx v 3 0 = 15 ∧ s.dev.fb LMF_CH_STAT.RAM_OK c = false) ∧
  (∃ (s : State) (c : Nat) (v : Word) (i : Instr), s.dev.alive = true ∧ c < 64 ∧ 12 ≤ bx v 3 0 ∧ bx v 3 0 ≤ 14 ∧
    (i = Instr.lmfChRunStart c v ∨ i = Instr.lmfSwitchRequest c v)) ∧
  (∃ (s : State) (c : Nat), s.dev.alive = true ∧ c < 64) ∧
  (∃ (s : State) (c : Nat) (v : Word), s.dev.alive = true ∧ c < 64 ∧ s.dev.running c = true ∧ (s.dev.chan c).stop = false ∧ (¬ (12 ≤ bx v 3 0 ∧ bx v 3 0 ≤ 14)) ∧
    s.dev.fb LMF_CH_STAT.FADING c = false ∧ bx v 3 0 ≠ s.dev.f LMF_CH_STAT.ACTIVE c ∧ (bx v 3 0 ≠ 15 ∨ s.dev.fb LMF_CH_STAT.RAM_OK c = true)) ∧
  (∃ (s : State) (c : Nat) (v : Word), s.dev.alive = true ∧ c < 64 ∧ s.dev.running c = true ∧ (s.dev.chan c).stop = false ∧ (¬ (12 ≤ bx v 3 0 ∧ bx v 3 0 ≤ 14)) ∧
    s.dev.fb LMF_CH_STAT.FADING c = false ∧ bx v 3 0 = s.dev.f LMF_CH_STAT.ACTIVE c) ∧
  (∃ (s : State) (c : Nat) (v : Word), s.dev.alive = true ∧ c < 64 ∧ s.dev.running c = true ∧ (s.dev.chan c).stop = false ∧ (¬ (12 ≤ bx v 3 0 ∧ bx v 3 0 ≤ 14)) ∧
    s.dev.fb LMF_CH_STAT.FADING c = false ∧ bx v 3 0 ≠ s.dev.f LMF_CH_STAT.ACTIVE c ∧ bx v 3 0 = 15 ∧ s.dev.fb LMF_CH_STAT.RAM_OK c = false) ∧
  (∃ (s : State) (c : Nat) (v : Word), s.dev.alive = true ∧ c < 64 ∧ s.dev.running c = true ∧ (s.dev.chan c).stop = false ∧ (¬ (12 ≤ bx v 3 0 ∧ bx v 3 0 ≤ 14)) ∧
    s.dev.fb LMF_CH_STAT.FADING c = true) :=
  ⟨⟨st (R), 7, 0x80000000#32, by decide +kernel⟩,
  ⟨st ((R.setf LMF_CH_STAT.RUNNING 1 63).setf LMF_GRP.EN 1 7), 7, 0#32, 7, by decide +kernel⟩,
  ⟨st (chd (fun x => { x with stuck := true }) R), 63, by decide +kernel⟩,
  ⟨st (R.setf LMF_CH_STAT.FAULT 1 63), 63, by decide +kernel⟩,
  ⟨st ({ R with lmf := { R.lmf with phase := 6 } }), by decide +kernel⟩,
  ⟨st ({ R with lmf := { R.lmf with phase := 7 } }), by decide +kernel⟩,
  ⟨st ({ chd (fun x => { x with start := some (15, 0) }) ((R.setf LMF_GRP.EN 1 7).setf LMF_CH_STAT.RAM_OK 1 63) with lmf := { (chd (fun x => { x with start := some (15, 0) }) R).lmf with phase := 7 }, tk := { R.tk with now := 2 * Time.usU } }),
    false, 63, 15, 0, by decide +kernel⟩,
  ⟨st ({ R with lmf := { (chd (fun x => { x with stop := true }) R).lmf with phase := 7 } }), 63, by decide +kernel⟩,
  ⟨st ((R.setf LMF_GRP.EN 1 7).setf LMF_CH_STAT.RAM_OK 1 63), 63, 0x8000000F#32, by decide +kernel⟩,
  ⟨st (R), 63, 0x80000001#32, by decide +kernel⟩,
  ⟨st (R.setf LMF_GRP.EN 1 7), 63, 0x8000000F#32, by decide +kernel⟩,
  ⟨st (R), 63, 0x8000000E#32, Instr.lmfSwitchRequest 63 0x8000000E#32, by decide +kernel⟩,
  ⟨st (R), 63, by decide +kernel⟩,
  ⟨st ((R.setf LMF_CH_STAT.RUNNING 1 63).setf LMF_CH_STAT.RAM_OK 1 63), 63, 0x8000000F#32, by decide +kernel⟩,
  ⟨st (R.setf LMF_CH_STAT.RUNNING 1 63), 63, 0x80000000#32, by decide +kernel⟩,
  ⟨st (R.setf LMF_CH_STAT.RUNNING 1 63), 63, 0x8000000F#32, by decide +kernel⟩,
  ⟨st (((R.setf LMF_CH_STAT.RUNNING 1 63).setf LMF_CH_STAT.FADING 1 63)), 63, 0x80000001#32, by decide +kernel⟩⟩

theorem witness_CaptureCommandsAct :
  (∃ (s : State) (g : Nat) (t : Nat) (rest : _), s.dev.alive = true ∧ g < 8 ∧ (s.dev.capGrp g).st = .idle ∧ s.dev.fb ACQ_DDR.VALID = true ∧ geEn (s.dev.gE g) = true ∧
    (gePre (s.dev.gE g) + geMaxPost (s.dev.gE g)) / Time.msU ≤ s.dev.grpCap g ∧ s.dev.areaBad g = false ∧ s.dev.grpFree g = t :: rest) ∧
  (∃ (s : State) (g : Nat), s.dev.alive = true ∧ g < 8 ∧ (s.dev.capGrp g).st = .idle ∧ s.dev.fb ACQ_DDR.VALID = false) ∧
  (∃ (s : State) (g : Nat), s.dev.alive = true ∧ g < 8 ∧ (s.dev.capGrp g).st = .idle ∧ s.dev.fb ACQ_DDR.VALID = true ∧ geEn (s.dev.gE g) = false) ∧
  (∃ (s : State) (g : Nat), s.dev.alive = true ∧ g < 8 ∧ (s.dev.capGrp g).st = .idle ∧ s.dev.fb ACQ_DDR.VALID = true ∧ geEn (s.dev.gE g) = true ∧
    s.dev.grpCap g < (gePre (s.dev.gE g) + geMaxPost (s.dev.gE g)) / Time.msU) ∧
  (∃ (s : State) (g : Nat), s.dev.alive = true ∧ g < 8 ∧ (s.dev.capGrp g).st = .idle ∧ s.dev.fb ACQ_DDR.VALID = true ∧ geEn (s.dev.gE g) = true ∧
    (gePre (s.dev.gE g) + geMaxPost (s.dev.gE g)) / Time.msU ≤ s.dev.grpCap g ∧ s.dev.areaBad g = true) ∧
  (∃ (s : State) (g : Nat), s.dev.alive = true ∧ g < 8 ∧ (s.dev.capGrp g).st = .idle ∧ s.dev.fb ACQ_DDR.VALID = true ∧ geEn (s.dev.gE g) = true ∧
    (gePre (s.dev.gE g) + geMaxPost (s.dev.gE g)) / Time.msU ≤ s.dev.grpCap g ∧ s.dev.areaBad g = false ∧ s.dev.grpFree g = []) ∧
  (∃ (s : State) (g : Nat), s.dev.alive = true ∧ g < 8 ∧ (s.dev.capGrp g).st ≠ .idle) ∧
  (∃ (s : State) (g : Nat), s.dev.alive = true ∧ g < 8 ∧ (s.dev.capGrp g).st = .idle) ∧
  (∃ (s : State) (g : Nat), s.dev.alive = true ∧ g < 8 ∧ (s.dev.capGrp g).st = .armed) ∧
  (∃ (s : State) (g : Nat), s.dev.alive = true ∧ g < 8 ∧ (s.dev.capGrp g).st.recording = true ∧ (s.dev.capGrp g).cur = []) ∧
  (∃ (s : State) (g : Nat), s.dev.alive = true ∧ g < 8 ∧ (s.dev.capGrp g).st = .triggered) ∧
  (∃ (s : State) (g : Nat), s.dev.alive = true ∧ g < 8 ∧ (s.dev.capGrp g).st = .full) ∧
  (∃ (s : State) (g : Nat), s.dev.alive = true ∧ g < 8 ∧ s.dev.awake = true ∧ s.dev.measuring = true ∧ (s.dev.capGrp g).st.recording = true ∧
    (s.dev.capGrp g).stop ≤ s.dev.tk.now ∧ (s.dev.capGrp g).cur = []) ∧
  (∃ (s : State) (g : Nat) (v : Word), s.dev.alive = true ∧ g < 8 ∧ bit v 31 = true ∧ bx v 10 8 = g ∧ (s.dev.capGrp g).done.contains (bx v 3 0) = true) ∧
  (∃ (s : State) (g : Nat) (v : Word), s.dev.alive = true ∧ g < 8 ∧ bit v 31 = true ∧ bx v 10 8 = g ∧ (s.dev.capGrp g).done.contains (bx v 3 0) = false) ∧
  (∃ (s : State) (g : Nat) (nom : Bool) (t : Nat) (n : Nat) (at_ : _), s.dev.alive = true ∧ g < 8 ∧ s.dev.awake = true ∧ s.dev.measuring = true ∧
    n = s.dev.tk.now * (8 * (if nom then 60 else 50)) / Time.secU ∧ at_ = n * Time.secU / (8 * (if nom then 60 else 50)) ∧ mget s.dev.acq.evalAt (b2n nom) ≠ some n ∧
    s.dev.ents tTrigger = [(t, s.dev.ent tTrigger t)] ∧ trEn (s.dev.ent tTrigger t) = true ∧ trKind (s.dev.ent tTrigger t) ≠ 0 ∧ trKind (s.dev.ent tTrigger t) ≠ 3 ∧
    tr60 (s.dev.ent tTrigger t) = nom ∧ s.dev.cycleTrue (s.dev.ent tTrigger t) at_ = true ∧
    s.dev.grpsOf (trMask (s.dev.ent tTrigger t)) (trChans (s.dev.ent tTrigger t)) = [g] ∧ (s.dev.capGrp g).st = .armed ∧
    mgetD s.dev.acq.trig t 0 + 1 = trPersist (s.dev.ent tTrigger t)) ∧
  (∃ (s : State) (g : Nat) (nom : Bool) (n : Nat), s.dev.alive = true ∧ g < 8 ∧ s.dev.awake = true ∧ s.dev.measuring = true ∧
    n = s.dev.tk.now * (8 * (if nom then 60 else 50)) / Time.secU ∧ mget s.dev.acq.evalAt (b2n nom) ≠ some n ∧ ((∀ e ∈ s.dev.ents tTrigger, trEn e.2 = false))) ∧
  (∃ (s : State) (g : Nat) (v : Word), s.dev.alive = true ∧ g < 8 ∧ bit v 31 = false) :=
  ⟨⟨st (tabd tCapGroup [(7, [0x80000000#32, 0#32, 0#32, 0x00004002#32, 0#32, 0#32, 0#32, 0#32])] ((R.setf ACQ_DDR.VALID 1).setf ACQ_DDR.SIZE 1)), 7, 0, [1], by decide +kernel⟩,

  ⟨st (R), 7, by decide +kernel⟩,
  ⟨st (R.setf ACQ_DDR.VALID 1), 7, by decide +kernel⟩,
  ⟨st (tabd tCapGroup [(7, [0x80000000#32, 0x00010000#32, 0#32, 2#32, 0#32, 0#32, 0#32, 0#32])] ((R.setf ACQ_DDR.VALID 1).setf ACQ_DDR.SIZE 1)), 7, by decide +kernel⟩,
  ⟨st (tabd tCapGroup [(7, [0x80000000#32, 0#32, 0#32, 0x00004002#32, 0#32, 0#32, 0#32, 0#32])] ((R.setf ACQ_DDR.VALID 1).setf ACQ_DDR.SIZE 0)), 7, by decide +kernel⟩,
  ⟨st (tabd tCapGroup [(7, [0x80000000#32, 0#32, 0#32, 0x00004000#32, 0#32, 0#32, 0#32, 0#32])] ((R.setf ACQ_DDR.VALID 1).setf ACQ_DDR.SIZE 1)), 7, by decide +kernel⟩,
  ⟨st (grpd { grpInit with st := .armed } R), 7, by decide +kernel⟩,
  ⟨st (R), 7, by decide +kernel⟩,
  ⟨st (grpd { grpInit with st := .armed } R), 7, by decide +kernel⟩,
  ⟨st (grpd { grpInit with st := .triggered } R), 7, by decide +kernel⟩,
  ⟨st (grpd { grpInit with st := .triggered } R), 7, by decide +kernel⟩,
  ⟨st (grpd { grpInit with st := .full } R), 7, by decide +kernel⟩,
  ⟨st (grpd { grpInit with st := .stopping } R), 7, by decide +kernel⟩,
  ⟨st (grpd { grpInit with done := [15, 2] } R), 7, 0x8000070F#32, by decide +kernel⟩,
  ⟨st (grpd { grpInit with done := [2] } R), 7, 0x8000070F#32, by decide +kernel⟩,
  ⟨st (trigd), 7, false, 9, 400, Time.secU, by decide +kernel⟩,
  ⟨st (R), 7, false, 0, by decide +kernel⟩,
  ⟨st (R), 7, 0#32, by decide +kernel⟩⟩

theorem witness_AlarmCommandsAct :
  (∃ (s : State) (op : Nat) (c : Instr) (h : Nat) (e : List Word) (v : Word) (first : Nat), s.dev.alive = true ∧
    (op, c) ∈ [(1, Instr.almThrCmdThrA), (2, Instr.almThrCmdHysA), (3, Instr.almThrCmdThrB)] ∧ h = s.dev.f ALM_HSEL.HURDLE ∧ e = s.dev.ent tHurdle h ∧
    v = s.dev.rg ALM_THR_VAL 0 ∧ first = s.dev.firstUnopened (ieHeat (s.dev.instE (huInst e))) ∧ huEn e = false) ∧
  (∃ (s : State) (op : Nat) (c : Instr) (h : Nat) (e : List Word) (v : Word) (first : Nat), s.dev.alive = true ∧
    (op, c) ∈ [(1, Instr.almThrCmdThrA), (2, Instr.almThrCmdHysA), (3, Instr.almThrCmdThrB)] ∧ h = s.dev.f ALM_HSEL.HURDLE ∧ e = s.dev.ent tHurdle h ∧
    v = s.dev.rg ALM_THR_VAL 0 ∧ first = s.dev.firstUnopened (ieHeat (s.dev.instE (huInst e))) ∧ huEn e = true ∧ fFinite v = false) ∧
  (∃ (s : State) (op : Nat) (c : Instr) (h : Nat) (e : List Word) (v : Word) (first : Nat), s.dev.alive = true ∧
    (op, c) ∈ [(1, Instr.almThrCmdThrA), (2, Instr.almThrCmdHysA), (3, Instr.almThrCmdThrB)] ∧ h = s.dev.f ALM_HSEL.HURDLE ∧ e = s.dev.ent tHurdle h ∧
    v = s.dev.rg ALM_THR_VAL 0 ∧ first = s.dev.firstUnopened (ieHeat (s.dev.instE (huInst e))) ∧ huEn e = true ∧ fFinite v = true ∧ op = 2 ∧
    (fLt v 0#32 = true ∨ (fIsZero v = false ∧ (huOpA e = 3 ∨ huOpA e = 4)))) ∧
  (∃ (s : State) (op : Nat) (c : Instr) (h : Nat) (e : List Word) (v : Word) (first : Nat), s.dev.alive = true ∧
    (op, c) ∈ [(1, Instr.almThrCmdThrA), (2, Instr.almThrCmdHysA), (3, Instr.almThrCmdThrB)] ∧ h = s.dev.f ALM_HSEL.HURDLE ∧ e = s.dev.ent tHurdle h ∧
    v = s.dev.rg ALM_THR_VAL 0 ∧ first = s.dev.firstUnopened (ieHeat (s.dev.instE (huInst e))) ∧ huEn e = true ∧ fFinite v = true ∧
    ((op = 2 → fLt v 0#32 = false ∧ (fIsZero v = true ∨ (huOpA e ≠ 3 ∧ huOpA e ≠ 4))))) ∧
  (∃ (s : State), s.dev.alive = true ∧ s.dev.awake = true ∧ s.dev.mem.bad = [] ∧ s.dev.pwr.mode = .follow) ∧
  (∃ (s : State) (r : List Word) (q : Nat), s.dev.alive = true ∧ s.dev.awake = true ∧ s.dev.mem.bad = [] ∧ s.dev.pwr.mode ≠ .follow ∧ s.dev.alm.buf = [r] ∧ r.length = 16 ∧
    s.dev.fb ALM_CFG.EN = true ∧ q = s.dev.f ALM_CFG.RING ∧ s.dev.fb HIF_CQ_CFG.EN q = true ∧ s.dev.f HIF_CQ_CFG.CONTENT q = 1 ∧ 4 ≤ s.dev.cqFree q) ∧
  (∃ (s : State) (v : Word) (k : Nat), s.dev.alive = true ∧ s.dev.pwr.mode ≠ .hold ∧ k < 16 ∧ bit v k = true ∧ (s.dev.aoutSt k).act = true ∧
    s.dev.fb ALM_AOUT_CFG.LATCH k = true ∧ s.dev.aoutLevel k = false ∧ (s.dev.aoutSt k).minUntil ≤ s.dev.now) ∧
  (∃ (s : State) (k : Nat) (v : Word), s.dev.alive = true ∧ s.dev.pwr.mode ≠ .hold ∧ k < 16 ∧ (bx v 31 30 = 1 ∨ bx v 31 30 = 2)) ∧
  (∃ (s : State) (k : Nat) (v : Word), s.dev.alive = true ∧ k < 16 ∧ bx v 31 30 = 3) ∧
  (∃ (s : State) (k : Nat), s.dev.alive = true ∧ s.dev.awake = true ∧ k < 16 ∧ (s.dev.aoutSt k).act = true ∧ s.dev.aoutLevel k = false ∧
    s.dev.fb ALM_AOUT_CFG.LATCH k = false ∧ (s.dev.aoutSt k).minUntil ≤ s.dev.now) :=
  ⟨⟨st (R), 1, Instr.almThrCmdThrA, 0, R.ent tHurdle 0, 0#32, 0, by decide +kernel⟩,
  ⟨st ((tabd tHurdle [(0, [0x80000000#32, 0#32, 0#32, 0#32, 0#32, 0#32, 0#32, 0#32])] R).wr ALM_THR_VAL 0 0x7F800000#32), 3, Instr.almThrCmdThrB, 0,
    [0x80000000#32, 0#32, 0#32, 0#32, 0#32, 0#32, 0#32, 0#32], 0x7F800000#32, 0, by decide +kernel⟩,
  ⟨st ((tabd tHurdle [(0, [0xB0000000#32, 0#32, 0#32, 0#32, 0#32, 0#32, 0#32, 0#32])] R).wr ALM_THR_VAL 0 0xBF800000#32), 2, Instr.almThrCmdHysA, 0,
    [0xB0000000#32, 0#32, 0#32, 0#32, 0#32, 0#32, 0#32, 0#32], 0xBF800000#32, 0, by decide +kernel⟩,
  ⟨st (tabd tHurdle [(0, [0xB0000000#32, 0#32, 0#32, 0#32, 0#32, 0#32, 0#32, 0#32])] R), 2, Instr.almThrCmdHysA, 0,
    [0xB0000000#32, 0#32, 0#32, 0#32, 0#32, 0#32, 0#32, 0#32], 0#32, 0, by decide +kernel⟩,
  ⟨st (F), by decide +kernel⟩,
  ⟨st ({ ((R.setf ALM_CFG.EN 1).setf HIF_CQ_CFG.EN 1 0).setf HIF_CQ_CFG.CONTENT 1 0 with alm := { R.alm with buf := [List.replicate 16 7#32] } }), List.replicate 16 7#32,
    0, by decide +kernel⟩,
  ⟨st ({ R.setf ALM_AOUT_CFG.LATCH 1 15 with alm := { R.alm with aout := [(15, ⟨true, false, 0, true⟩)] } }), 0x8000#32, 15, by decide +kernel⟩,
  ⟨st (R), 15, 0x80000000#32, by decide +kernel⟩,
  ⟨st (R), 15, 0xC0000000#32, by decide +kernel⟩,
  ⟨st ({ R with alm := { R.alm with aout := [(15, ⟨true, false, 0, true⟩)] } }), 15, by decide +kernel⟩⟩

theorem witness_ClientCommandsAct :
  (∃ (s : State) (tcp : Bool) (from_ : Nat) (id : Nat) (c : Nat) (d1 : Device), s.dev.awake = true ∧ s.dev.pwr.mode = .race ∧ s.dev.cmdClient tcp from_ id = (some c, d1) ∧
    (s.dev.client c).on = true) ∧
  (∃ (s : State) (tcp : Bool) (from_ : Nat) (id : Nat) (c : Nat) (d1 : Device), s.dev.awake = true ∧ s.dev.pwr.mode = .race ∧ s.dev.cmdClient tcp from_ id = (some c, d1) ∧
    (s.dev.client c).on = false) ∧
  (∃ (s : State) (from_ : Nat) (id : Nat) (c : Nat) (d1 : Device) (i : Instr), s.dev.awake = true ∧ s.dev.pwr.mode = .race ∧ s.dev.cmdClient false from_ id = (some c, d1) ∧
    i ∈ [Instr.c37CmdSendHdr false from_ id, .c37CmdSendCfg1 false from_ id, .c37CmdSendCfg2 false from_ id, .c37CmdSendCfg3 false from_ id] ∧
    clTcp (s.dev.clientE c) = false ∧ ((i = .c37CmdSendCfg3 false from_ id → clCfg3 (s.dev.clientE c) = true))) ∧
  (∃ (s : State) (tcp : Bool) (from_ : Nat) (id : Nat) (i : Instr), s.dev.awake = true ∧ s.dev.pwr.mode = .race ∧ (s.dev.cmdClient tcp from_ id).1 = none ∧
    i ∈ [Instr.c37CmdTxOff tcp from_ id, .c37CmdTxOn tcp from_ id, .c37CmdSendHdr tcp from_ id, .c37CmdSendCfg1 tcp from_ id, .c37CmdSendCfg2 tcp from_ id, .c37CmdSendCfg3 tcp from_ id]) ∧

  (∃ (s : State), s.dev.awake = true ∧ s.dev.pwr.mode = .race) ∧
  (∃ (s : State) (c : Nat) (t : Nat), s.dev.awake = true ∧ s.dev.pwr.mode = .race ∧ (s.dev.client c).cfgAt = some t ∧ t ≤ s.dev.tk.now ∧ clEn (s.dev.clientE c) = true ∧
    clTcp (s.dev.clientE c) = false) :=
  ⟨⟨st (cl ⟨true, none, none, none⟩), false, 0x0A000001, 7, 63, cl ⟨true, none, none, none⟩, by decide +kernel⟩,
  ⟨st (cl ⟨false, none, none, none⟩), false, 0x0A000001, 7, 63, cl ⟨false, none, none, none⟩, by decide +kernel⟩,
  ⟨st (cl ⟨false, none, none, none⟩), 0x0A000001, 7, 63, cl ⟨false, none, none, none⟩, Instr.c37CmdSendCfg3 false 0x0A000001 7, by decide +kernel⟩,
  ⟨st (R), true, 5, 7, Instr.c37CmdTxOn true 5 7, by decide +kernel⟩,
  ⟨st (R), by decide +kernel⟩,
  ⟨st (cl ⟨false, some 0, none, none⟩), 63, 0, by decide +kernel⟩⟩

theorem witness_TransmissionCommandsAct :
  (∃ (s : State) (n : Nat) (t : Nat), s.dev.awake = true ∧ s.dev.pwr.mode = .race ∧ pubEn (s.dev.ent tPub n) = true ∧ (s.dev.gooseSt n).nextAt = some t ∧ t ≤ s.dev.tk.now ∧
    s.dev.goosePending n = false) ∧
  (∃ (s : State) (n : Nat) (t : Nat), s.dev.awake = true ∧ s.dev.pwr.mode = .race ∧ pubEn (s.dev.ent tPub n) = true ∧ (s.dev.gooseSt n).nextAt = some t ∧ t ≤ s.dev.tk.now ∧
    s.dev.goosePending n = true) ∧
  (∃ (s : State) (conn : Nat) (port : Nat) (v6 : Bool) (addr : Nat) (pport : Nat) (e : Nat × List Word), s.dev.awake = true ∧ s.dev.pwr.mode = .race ∧
    s.dev.active uPORT port = true ∧ mget s.dev.egr.conns conn = none ∧ e ∈ s.dev.ents tClient ∧ clEn e.2 = true ∧ clTcp e.2 = true ∧ clPeer e.2 = peerBytes v6 addr ∧
    (clPort e.2 = 0 ∨ clPort e.2 = pport) ∧ (clPorts e.2).testBit port = true) ∧
  (∃ (s : State) (conn : Nat) (ack : Nat) (x : _) (adv : Nat), s.dev.awake = true ∧ mget s.dev.egr.conns conn = some x ∧ adv = (ack + 4294967296 - x.una) % 4294967296 ∧
    0 < adv ∧ adv ≤ (x.sndNxt + 4294967296 - x.una) % 4294967296) ∧
  (∃ (s : State) (conn : Nat) (x : _) (b : Nat × List Byte) (rest : List (Nat × List Byte)) (c : Instr) (p : Nat), s.dev.awake = true ∧ s.dev.pwr.mode = .race ∧
    mget s.dev.egr.conns conn = some x ∧ x.sent = b :: rest ∧
    (c = .egressTcpAckReceived conn x.una ∧ x.dup = 2 ∧ x.una < 4294967296 ∨ c = .egressTcpRto conn ∧ x.lastTx + 200 * Time.msU ≤ s.dev.tk.now) ∧ x.queued = false ∧
    s.dev.connPort x = some p) ∧
  (∃ (s : State) (conn : Nat) (x : _) (b : Nat × List Byte) (rest : List (Nat × List Byte)) (c : Instr), s.dev.awake = true ∧ s.dev.pwr.mode = .race ∧
    mget s.dev.egr.conns conn = some x ∧ x.sent = b :: rest ∧
    (c = .egressTcpAckReceived conn x.una ∧ x.dup = 2 ∧ x.una < 4294967296 ∨ c = .egressTcpRto conn ∧ x.lastTx + 200 * Time.msU ≤ s.dev.tk.now) ∧
    (x.queued = true ∨ s.dev.connPort x = none)) ∧
  (∃ (s : State) (p : Nat) (x : TxItem) (alarm : Bool), s.dev.awake = true ∧ p < 8 ∧ (s.dev.ptx p).cur = some (x, alarm)) ∧
  (∃ (s : State) (p : Nat) (fw : Nat), s.dev.awake = true ∧ p < 8 ∧ (s.dev.ptx p).cur = none ∧ 32768 ≤ fw ∧ fw ≤ 65535 ∧ s.dev.active uPORT p = true ∧
    (s.dev.ptp p).txq.length < 16) :=
  ⟨⟨st ({ tabd tPub [(63, [0x80000000#32, 0#32, 0#32, 0#32, 0#32, 0#32, 0#32, 0#32])] R with egr := { R.egr with goose := [(63, ⟨1, 0, [], 0, some 0, 1000, 0, 0⟩)] } }), 63, 0, by decide +kernel⟩,

  ⟨st ({ tabd tPub [(63, [0x80000000#32, 0#32, 0#32, 0#32, 0#32, 0#32, 0#32, 0#32])] R with egr := { R.egr with goose := [(63, ⟨1, 0, [], 0, some 0, 1000, 0, 0⟩)], tx := [(7, ⟨none, [goosePlace 63 false], []⟩)] } }),
    63, 0, by decide +kernel⟩,
  ⟨st (tabd tClient [(63, tcpE)] linked), 5, 7, false, 0x0A000001, 4712, (63, tcpE), by decide +kernel⟩,
  ⟨st (tcpc conn0), 5, 100, conn0, 50, by decide +kernel⟩,
  ⟨st ({ tabd tClient [(63, tcpE)] linked with egr := { R.egr with conns := [(5, { conn0 with client := some 63 })] }, tk := { R.tk with now := 200 * Time.msU } }), 5,
    { conn0 with client := some 63 }, (50, [1#8]), ([] : List (Nat × List Byte)), Instr.egressTcpRto 5, 7, by decide +kernel⟩,
  ⟨st (tcpc { conn0 with dup := 2 }), 5, { conn0 with dup := 2 }, (50, [1#8]), ([] : List (Nat × List Byte)), Instr.egressTcpAckReceived 5 50, by decide +kernel⟩,
  ⟨st ({ R with egr := { R.egr with tx := [(7, ⟨some (txPlain [1#8], true), [], []⟩)] } }), 7, (txPlain [1#8] : TxItem), true, by decide +kernel⟩,
  ⟨st (linked), 7, 65535, by decide +kernel⟩⟩

theorem witness_MonitorCommandsAct :
  (∃ (s : State), s.dev.alive = true ∧ s.dev.osm.st = .stopped ∧ s.dev.osm.runAt = none ∧ s.dev.osmCheck (s.dev.f OSM_CTL.INST) = 0) ∧
  (∃ (s : State), s.dev.alive = true ∧ s.dev.osm.st = .stopped ∧ s.dev.osm.runAt = none ∧ s.dev.osmCheck (s.dev.f OSM_CTL.INST) ≠ 0) ∧
  (∃ (s : State) (k : Nat), s.dev.alive = true ∧ s.dev.awake = true ∧ s.dev.lapsRun = true ∧ s.dev.osmFirst = some k) ∧
  (∃ (s : State), s.dev.alive = true ∧ s.dev.osmOn = true ∧ ((∀ t ∈ s.dev.srt.flight, ieCode (s.dev.instE t.e.inst) ≠ kOSCMON))) ∧
  (∃ (s : State) (t : Task), t ∈ s.dev.srt.flight ∧ s.dev.alive = true ∧ s.dev.osmOn = true ∧ ieCode (s.dev.instE t.e.inst) = kOSCMON) ∧
  (∃ (s : State), s.dev.alive = true ∧ s.dev.osmOn = false) ∧
  (∃ (s : State), s.dev.alive = true ∧ s.dev.fb ISL_GRAPH.SWAP = false ∧ s.dev.swapCheck.1 = 0) ∧
  (∃ (s : State), s.dev.alive = true ∧ s.dev.fb ISL_GRAPH.SWAP = false ∧ s.dev.swapCheck.1 ≠ 0) :=
  ⟨⟨st (tabd tInst [(0, [0x80000202#32, 0#32, 0#32, 0#32, 0#32, 0#32, 0#32, 0#32])] (R.setf OSM_DDR.VALID 1)), by decide +kernel⟩,
  ⟨st (R), by decide +kernel⟩,
  ⟨st ({ R with osm := { R.osm with runAt := some 0, inbuf := [⟨0, 56, [], [], [], [], false, 0⟩] } }), 56, by decide +kernel⟩,
  ⟨st ({ R with osm := { R.osm with st := .running } }), by decide +kernel⟩,
  ⟨st (fly [tsk 0 .gather none] { tabd tInst [(0, [0x80000202#32, 0#32, 0#32, 0#32, 0#32, 0#32, 0#32, 0#32])] R with osm := { R.osm with st := .priming } }),
    tsk 0 .gather none, by decide +kernel⟩,
  ⟨st (R), by decide +kernel⟩,
  ⟨st ({ tabd tInst [(0, [0x80000302#32, 0#32, 0#32, 0#32, 0#32, 0#32, 0#32, 0#32])] R with isl := { R.isl with banks := [graphInit, { graphInit with valid := true }] } }),
    by decide +kernel⟩,
  ⟨st (R), by decide +kernel⟩⟩

theorem witness_TaskCommandsAct :
  (∃ (s : State) (k : Nat) (t : Task) (rest : List Task) (c : Nat) (e : Nat), s.dev.awake = true ∧ s.dev.lapsRun = true ∧ k < 8 ∧
    ((∀ j, k < j → j < 8 → s.dev.queue j = [])) ∧ s.dev.queue k = t :: rest ∧ s.dev.choose t = some (c, e)) ∧
  (∃ (s : State) (i : Nat) (n : Nat) (q : Nat) (t : Task), s.dev.awake = true ∧ s.dev.lapsRun = true ∧ s.dev.task? i n q = some t ∧ t.phase = .gather ∧
    s.dev.samplesSettled t = true ∧ t.gathered.isSome = true ∧ t.retry = false) ∧
  (∃ (s : State) (i : Nat) (n : Nat) (q : Nat) (t : Task), s.dev.awake = true ∧ s.dev.lapsRun = true ∧ s.dev.task? i n q = some t ∧ t.phase = .gather ∧
    s.dev.samplesSettled t = true ∧ t.gathered = none ∧ s.dev.mem.bad = []) ∧
  (∃ (s : State) (i : Nat) (n : Nat) (q : Nat) (t : Task), s.dev.awake = true ∧ s.dev.lapsRun = true ∧ s.dev.task? i n q = some t ∧ t.phase = .compute ∧
    s.dev.mem.bad = [] ∧ s.dev.lowerLive t.e = true ∧ ((∀ k, t.e.trig = some k → k.kind = .timer)) ∧ ((∀ u ∈ s.dev.srt.flight, s.dev.unitUsable uENGINE u.eng = true)) ∧
    s.dev.unitUsable uENGINE t.eng = true) ∧
  (∃ (s : State) (i : Nat) (n : Nat) (q : Nat) (t : Task), s.dev.awake = true ∧ s.dev.lapsRun = true ∧ s.dev.task? i n q = some t ∧ t.phase = .compute ∧
    s.dev.mem.bad = [] ∧ s.dev.lowerLive t.e = false ∧ s.dev.commitFits t = true ∧ ((∀ u ∈ (s.dev.commitNow t).srt.flight, u.phase ≠ .commitWait))) ∧
  (∃ (s : State) (i : Nat) (n : Nat) (q : Nat) (t : Task) (unit : Nat) (inj : Bool), s.dev.awake = true ∧ s.dev.lapsRun = true ∧ s.dev.task? i n q = some t ∧
    (t.phase = .gather ∨ t.phase = .compute) ∧ t.retry = false ∧ t.eng < 96 ∧ unit < 6 ∧
    ((inj = true → s.dev.fb PAC_RES_INJ.ARM = true ∧ s.dev.f PAC_RES_INJ.ENG = t.eng ∧ s.dev.f PAC_RES_INJ.UNIT = unit ∧ s.dev.fb PAC_RES_INJ.NOQ = false))) ∧
  (∃ (r : Ran) (vs : _), r.vals = some vs) ∧
  (∃ (t : Task) (r : Ran) (vs : _), r.vals = some vs ∧ t.fault = true) ∧
  (∃ (t : Task) (r : Ran) (vs : _), r.vals = some vs ∧ t.fault = false) ∧
  (∃ (r : Ran), r.vals = none) :=
  ⟨⟨st ({ R with srt := { R.srt with queues := [(7, [taskNew (tsk 0 .gather none).e 7])] } }), 7, taskNew (tsk 0 .gather none).e 7, ([] : List Task), 0, 0, by decide +kernel, by decide +kernel, by decide +kernel, fun j h1 h2 => absurd h1 (by omega), by decide +kernel⟩,

  ⟨st (fly [tsk 0 .gather (some [])] R), 0, 1, 0, tsk 0 .gather (some []), by decide +kernel⟩,
  ⟨st (fly [tsk 0 .gather none] R), 0, 1, 0, tsk 0 .gather none, by decide +kernel⟩,
  ⟨st (fly [tsk 1 .compute (some []), tsk 0 .gather none] R), 0, 1, 1, tsk 1 .compute (some []), by decide +kernel, by decide +kernel, by decide +kernel, by decide +kernel,
    by decide +kernel, by decide +kernel, (fun k h => by cases h), by decide +kernel⟩,
  ⟨st (fly [tsk 0 .compute (some [])] R), 0, 1, 0, tsk 0 .compute (some []), by decide +kernel⟩,
  ⟨st (fly [tsk 0 .compute (some [])] ((((R.setf PAC_RES_INJ.ARM 1).setf PAC_RES_INJ.NOQ 0).setf PAC_RES_INJ.ENG 95).setf PAC_RES_INJ.UNIT 3)), 0, 1, 0,
    tsk 0 .compute (some []), 3, true, by decide +kernel⟩,
  ⟨⟨some [5#32], 0, false, none, R, id⟩, [5#32], rfl⟩,
  ⟨{ tsk 0 .compute (some []) with fault := true }, ⟨some [5#32], 0, false, none, R, id⟩, [5#32], rfl, rfl⟩,
  ⟨tsk 0 .compute (some []), ⟨some [5#32], 0, false, none, R, id⟩, [5#32], rfl, rfl⟩,
  ⟨⟨none, 0, false, none, R, id⟩, rfl⟩⟩

theorem witness_EngineAndStarterCommandsAct :
  (∃ (s : State) (e : Nat), s.dev.alive = true ∧ s.dev.awake = true ∧ e < 96 ∧ (s.dev.eng e).suspect = true ∧ (s.dev.eng e).quar = false ∧ s.dev.recentMism e = []) ∧
  (∃ (s : State) (v : Word), s.dev.alive = true ∧ bit v 31 = true ∧ bx v 7 0 < 96 ∧ (s.dev.eng (bx v 7 0)).quar = true ∧ s.dev.fb PAC_CLR_STAT.BUSY = false) ∧
  (∃ (s : State) (v : Word), s.dev.alive = true ∧ bit v 31 = true ∧ (96 ≤ bx v 7 0 ∨ (s.dev.eng (bx v 7 0)).quar = false ∨ s.dev.fb PAC_CLR_STAT.BUSY = true)) ∧
  (∃ (s : State) (e : Nat), s.dev.alive = true ∧ s.dev.awake = true ∧ s.dev.pac.testing = some e ∧ e < 96) ∧
  (∃ (s : State) (e : Nat), s.dev.alive = true ∧ s.dev.awake = true ∧ s.dev.pac.testing = some e) ∧
  (∃ (s : State), s.dev.alive = true) ∧
  (∃ (s : State) (h : Nat) (n : Nat) (off : Nat) (t : _), s.dev.alive = true ∧ s.dev.awake = true ∧ s.dev.lapsRun = true ∧ s.dev.dueIs h n (.inst off) = some t ∧
    s.dev.timerNeed t off ≤ s.dev.storeFree) ∧
  (∃ (s : State) (h : Nat) (n : Nat) (off : Nat) (t : _), s.dev.alive = true ∧ s.dev.awake = true ∧ s.dev.lapsRun = true ∧ s.dev.dueIs h n (.inst off) = some t ∧
    s.dev.storeFree < s.dev.timerNeed t off) ∧
  (∃ (s : State) (k : Nat) (t : _) (off : Nat), s.dev.alive = true ∧ s.dev.awake = true ∧ s.dev.lapsRun = true ∧ s.dev.srt.held = [] ∧
    (s.dev.srt.timers.filter (·.held))[k]? = some t ∧ t.kind = .inst off ∧ s.dev.timerNeed t off ≤ s.dev.storeFree) ∧
  (∃ (s : State) (k : Nat) (i : Nat) (n : Nat) (q : Nat) (t : _), s.dev.alive = true ∧ s.dev.awake = true ∧ s.dev.lapsRun = true ∧
    s.dev.srt.held[k]? = some (.commit i n q) ∧ s.dev.task? i n q = some t ∧ t.phase = .commitHeld ∧ s.dev.commitFits t = true) ∧
  (∃ (s : State) (v : Word), s.dev.alive = true ∧ s.dev.rsvBad (bx v 11 0) = true) ∧
  (∃ (s : State) (v : Word), s.dev.alive = true ∧ s.dev.rsvBad (bx v 11 0) = false) ∧
  (∃ (s : State) (t : Nat) (i : Nat), s.dev.alive = true ∧ t = s.dev.f SRT_UNIT_SEL.TYPE ∧ i = s.dev.f SRT_UNIT_SEL.INDEX ∧ i < unitCount t) ∧
  (∃ (s : State), s.dev.alive = true ∧ unitCount (s.dev.f SRT_UNIT_SEL.TYPE) ≤ s.dev.f SRT_UNIT_SEL.INDEX) :=
  ⟨⟨st ({ R with pac := { R.pac with eng := [(95, ⟨[], false, 0, true⟩)] } }), 95, by decide +kernel⟩,
  ⟨st ({ R with pac := { R.pac with eng := [(95, ⟨[], true, 0, true⟩)] } }), 0x8000005F#32, by decide +kernel⟩,
  ⟨st (R), 0x80000060#32, by decide +kernel⟩,
  ⟨st ({ R with pac := { R.pac with eng := [(95, ⟨[], true, 0, true⟩)], testing := some 95 } }), 95, by decide +kernel⟩,
  ⟨st ({ R with pac := { R.pac with eng := [(95, ⟨[], true, 0, true⟩)], testing := some 95 } }), 95, by decide +kernel⟩,
  ⟨st (R), by decide +kernel⟩,
  ⟨st (heated [] [tmr (.inst 7)]), 1023, 2, 7, tmr (.inst 7), by decide +kernel⟩,
  ⟨st (crowded (tabd tInst [(0, inst0 0x40000007#32)] (heated [] [tmr (.inst 7)]))), 1023, 2, 7, tmr (.inst 7), by decide +kernel⟩,
  ⟨st (heated [] [{ tmr (.inst 7) with held := true }]), 0, { tmr (.inst 7) with held := true }, 7, by decide +kernel⟩,
  ⟨st ({ R with srt := { R.srt with flight := [tsk 0 .commitHeld (some [])], held := [.commit 0 1 0] } }), 0, 0, 1, 0, tsk 0 .commitHeld (some []), by decide +kernel⟩,
  ⟨st (R), 0x801#32, by decide +kernel⟩,
  ⟨st (R), 0x800#32, by decide +kernel⟩,
  ⟨st ((R.setf SRT_UNIT_SEL.TYPE 4).setf SRT_UNIT_SEL.INDEX 4095), 4, 4095, by decide +kernel⟩,
  ⟨st ((R.setf SRT_UNIT_SEL.TYPE 3).setf SRT_UNIT_SEL.INDEX 4), by decide +kernel⟩⟩

theorem witness_AlignerCommandsAct :
  (∃ (s : State) (h : Nat) (n : Nat) (r : HeatRun), s.dev.awake = true ∧ s.dev.lapsRun = true ∧ s.dev.mem.bad = [] ∧ s.dev.spans h = false ∧ s.dev.run? h = some r ∧
    r.enabled = true ∧ r.firstLap ≠ 0 ∧ n = r.nextLap ∧ s.dev.lap? h n = none ∧ s.dev.openT h n ≤ s.dev.now ∧ s.dev.posFree h n = true ∧
    ((∀ x ∈ s.dev.pfa.stage, stagedOf h n true x = false))) ∧
  (∃ (s : State) (h : Nat) (n : Nat) (r : HeatRun), s.dev.awake = true ∧ s.dev.lapsRun = true ∧ s.dev.mem.bad = [] ∧ s.dev.spans h = false ∧ s.dev.run? h = some r ∧
    r.enabled = true ∧ r.firstLap ≠ 0 ∧ n = r.nextLap ∧ s.dev.lap? h n = none ∧ s.dev.openT h n ≤ s.dev.now ∧ s.dev.posFree h n = false) ∧
  (∃ (s : State) (h : Nat) (n : Nat) (l : Lap) (r : HeatRun), s.dev.awake = true ∧ s.dev.racing = true ∧ s.dev.run? h = some r ∧ s.dev.lap? h n = some l ∧ l.heat = h ∧
    l.lap = n ∧ l.st = .waiting ∧ s.dev.lapT h n ≤ s.dev.tk.now) ∧
  (∃ (s : State) (h : Nat) (n : Nat) (t : _) (l : Lap), s.dev.awake = true ∧ s.dev.racing = true ∧ s.dev.dueIs h n .deadline = some t ∧ t.list < 8 ∧ s.dev.heatOn h = true ∧
    s.dev.lap? h n = some l ∧ l.heat = h ∧ l.lap = n ∧ l.st = .gathering ∧ s.dev.pfa.pendq = [] ∧ s.dev.pfa.heldq = [] ∧
    s.dev.grantable (s.dev.tokNeed h .release) = true) ∧
  (∃ (s : State) (h : Nat) (n : Nat) (t : _) (l : Lap), s.dev.awake = true ∧ s.dev.racing = true ∧ s.dev.dueIs h n .deadline = some t ∧ t.list < 8 ∧ s.dev.heatOn h = true ∧
    s.dev.lap? h n = some l ∧ l.heat = h ∧ l.lap = n ∧ l.st = .gathering ∧ s.dev.pfa.pendq = [] ∧ s.dev.pfa.heldq = [] ∧
    s.dev.grantable (s.dev.tokNeed h .release) = false) ∧
  (∃ (s : State) (h : Nat) (n : Nat) (t : _) (l : Lap), s.dev.awake = true ∧ s.dev.lapsRun = true ∧ s.dev.dueIs h n .finish = some t ∧ s.dev.lap? h n = some l ∧
    l.heat = h ∧ l.lap = n ∧ l.st = .gathering) ∧
  (∃ (s : State) (h : Nat) (n : Nat) (t : _) (l : Lap), s.dev.awake = true ∧ s.dev.lapsRun = true ∧ s.dev.dueIs h n .finish = some t ∧ s.dev.lap? h n = some l ∧
    l.heat = h ∧ l.lap = n ∧ l.st = .released ∧ l.final = true ∧ l.fencing = none ∧ l.offered = none) ∧
  (∃ (s : State) (h : Nat) (n : Nat) (l : Lap), s.dev.awake = true ∧ s.dev.racing = true ∧ s.dev.pfa.heldq = [] ∧ s.dev.pfa.pendq = [(h, n, .release)] ∧
    s.dev.grantable (s.dev.tokNeed h .release) = true ∧ s.dev.lap? h n = some l ∧ l.heat = h ∧ l.lap = n ∧ l.cause ≠ 0) ∧
  (∃ (s : State) (h : Nat) (n : Nat) (l : Lap) (tok : Tok) (fi : Nat), s.dev.awake = true ∧ s.dev.racing = true ∧ s.dev.mem.bad = [] ∧ s.dev.lap? h n = some l ∧
    l.heat = h ∧ l.lap = n ∧ l.fencing = some (tok, fi) ∧ tok.kind = .release ∧ tok.heat = h ∧ tok.lap = n ∧ s.dev.marksPast h fi = true) ∧
  (∃ (s : State) (op : Nat) (v : Nat) (c : Instr), s.dev.alive = true ∧
    (op, c) ∈ [(1, Instr.winCmdFixed v), (2, .winCmdAdaptive), (3, .winCmdSetWmin v), (4, .winCmdSetWmax v)] ∧ s.dev.pfa.busy = false ∧
    s.dev.heatOn (s.dev.f PFA_HEAT_SEL.HEAT) = true ∧
    heWmin (winEntry (s.dev.heatE (s.dev.f PFA_HEAT_SEL.HEAT)) op (if op = 2 then 0 else v)) ≤ heWmax (winEntry (s.dev.heatE (s.dev.f PFA_HEAT_SEL.HEAT)) op (if op = 2 then 0 else v)) ∧
    heWmax (winEntry (s.dev.heatE (s.dev.f PFA_HEAT_SEL.HEAT)) op (if op = 2 then 0 else v)) < heFinish (winEntry (s.dev.heatE (s.dev.f PFA_HEAT_SEL.HEAT)) op (if op = 2 then 0 else v)) ∧
    heWfix (winEntry (s.dev.heatE (s.dev.f PFA_HEAT_SEL.HEAT)) op (if op = 2 then 0 else v)) < heFinish (winEntry (s.dev.heatE (s.dev.f PFA_HEAT_SEL.HEAT)) op (if op = 2 then 0 else v))) ∧

  (∃ (s : State) (op : Nat) (v : Nat) (c : Instr), s.dev.alive = true ∧
    (op, c) ∈ [(1, Instr.winCmdFixed v), (2, .winCmdAdaptive), (3, .winCmdSetWmin v), (4, .winCmdSetWmax v)] ∧ s.dev.pfa.busy = true) ∧
  (∃ (s : State) (op : Nat) (v : Nat) (c : Instr), s.dev.alive = true ∧
    (op, c) ∈ [(1, Instr.winCmdFixed v), (2, .winCmdAdaptive), (3, .winCmdSetWmin v), (4, .winCmdSetWmax v)] ∧ s.dev.pfa.busy = false ∧
    s.dev.heatOn (s.dev.f PFA_HEAT_SEL.HEAT) = false) ∧
  (∃ (s : State) (op : Nat) (v : Nat) (c : Instr), s.dev.alive = true ∧
    (op, c) ∈ [(1, Instr.winCmdFixed v), (2, .winCmdAdaptive), (3, .winCmdSetWmin v), (4, .winCmdSetWmax v)]) :=
  ⟨⟨st (heated [] []), 1023, 2, hrun, by decide +kernel⟩,
  ⟨st (tabd tHeat [(1023, [0#32, 4#32, 0#32, 0#32, 0#32, 0#32, 0#32, 0#32])] (heated [lapx 6 .gathering] [])), 1023, 2, hrun, by decide +kernel⟩,
  ⟨st (heated [lapx 2 .waiting] []), 1023, 2, lapx 2 .waiting, hrun, by decide +kernel⟩,
  ⟨st (heated [lapx 2 .gathering] [tmr .deadline]), 1023, 2, tmr .deadline, lapx 2 .gathering, by decide +kernel⟩,
  ⟨st (crowded (tabd tInst [(0, inst0 0#32)] (heated [lapx 2 .gathering] [tmr .deadline]))), 1023, 2, tmr .deadline, lapx 2 .gathering, by decide +kernel⟩,
  ⟨st (heated [lapx 2 .gathering] [tmr .finish]), 1023, 2, tmr .finish, lapx 2 .gathering, by decide +kernel⟩,
  ⟨st (heated [{ lapx 2 .released with final := true }] [tmr .finish]), 1023, 2, tmr .finish, { lapx 2 .released with final := true }, by decide +kernel⟩,
  ⟨st ({ heated [{ lapx 2 .due with cause := 2 }] [] with pfa := { (heated [{ lapx 2 .due with cause := 2 }] []).pfa with pendq := [(1023, 2, .release)] } }), 1023, 2,
    { lapx 2 .due with cause := 2 }, by decide +kernel⟩,
  ⟨st (heated [{ lapx 2 .fencing with fencing := some ({ tokNone with kind := .release, heat := 1023, lap := 2 }, 0) }] []), 1023, 2,
    { lapx 2 .fencing with fencing := some ({ tokNone with kind := .release, heat := 1023, lap := 2 }, 0) }, { tokNone with kind := .release, heat := 1023, lap := 2 }, 0,
    by decide +kernel⟩,
  ⟨st (tabd tHeat [(1023, [0#32, 4#32, 0#32, 0#32, 0#32, 100#32, 0#32, 0#32])] ((heated [] []).setf PFA_HEAT_SEL.HEAT 1023)), 4, 99, Instr.winCmdSetWmax 99,
    by decide +kernel⟩,
  ⟨st ({ R with pfa := { R.pfa with busy := true } }), 3, 99, Instr.winCmdSetWmin 99, by decide +kernel⟩,
  ⟨st (R), 2, 99, Instr.winCmdAdaptive, by decide +kernel⟩,
  ⟨st ({ R with pfa := { R.pfa with busy := true } }), 1, 99, Instr.winCmdFixed 99, by decide +kernel⟩⟩

theorem witness_PortCommandsAct :
  (∃ (s : State) (p : Nat) (b : List Byte) (code : Bool), s.dev.alive = true ∧ p < 8 ∧ s.dev.awake = true ∧ s.dev.listens = true ∧ s.dev.fb ETH_STATUS.LINK p = true ∧
    b ≠ [] ∧ code = true) ∧
  (∃ (s : State) (p : Nat) (b : List Byte) (code : Bool), s.dev.alive = true ∧ p < 8 ∧ s.dev.awake = true ∧ s.dev.listens = true ∧ s.dev.fb ETH_STATUS.LINK p = true ∧
    b ≠ [] ∧ code = false ∧ b.length < 64) ∧
  (∃ (s : State) (p : Nat) (b : List Byte) (code : Bool), s.dev.alive = true ∧ p < 8 ∧ s.dev.awake = true ∧ s.dev.listens = true ∧ s.dev.fb ETH_STATUS.LINK p = true ∧
    b ≠ [] ∧ code = false ∧ 64 ≤ b.length ∧ s.dev.f ETH_CFG.MAXLEN p < b.length) ∧
  (∃ (s : State) (p : Nat) (b : List Byte) (code : Bool), s.dev.alive = true ∧ p < 8 ∧ s.dev.awake = true ∧ s.dev.listens = true ∧ s.dev.fb ETH_STATUS.LINK p = true ∧
    b ≠ [] ∧ code = false ∧ 64 ≤ b.length ∧ b.length ≤ s.dev.f ETH_CFG.MAXLEN p ∧ fcsGood b = false) ∧
  (∃ (s : State) (p : Nat) (b : List Byte) (code : Bool), s.dev.alive = true ∧ p < 8 ∧ s.dev.awake = true ∧ s.dev.listens = true ∧ s.dev.fb ETH_STATUS.LINK p = true ∧
    b ≠ [] ∧ code = false ∧ 64 ≤ b.length ∧ b.length ≤ s.dev.f ETH_CFG.MAXLEN p ∧ fcsGood b = true ∧ isPause b = false ∧
    s.dev.vlanPass p (ethParse (b.take (b.length - 4))) = true ∧ s.dev.addrPass p (ethParse (b.take (b.length - 4))).dst = true ∧ s.dev.prpRuns p = false ∧
    (s.dev.prx p).lastIn = none ∧ fifoBytes (s.dev.prx p) + (b.take (b.length - 4)).length + 16 ≤ fifoCap) ∧
  (∃ (s : State) (p : Nat) (v : Word), s.dev.alive = true ∧ p < 8 ∧ ethCfgOk v = true) ∧
  (∃ (s : State) (p : Nat) (v : Word), s.dev.alive = true ∧ p < 8 ∧ ethCfgOk v = false) ∧
  (∃ (s : State) (p : Nat), s.dev.alive = true ∧ p < 8) :=
  ⟨⟨st (R.setf ETH_STATUS.LINK 1 7), 7, [1#8], true, by decide +kernel⟩,
  ⟨st (R.setf ETH_STATUS.LINK 1 7), 7, List.replicate 63 0#8, false, by decide +kernel⟩,
  ⟨st (R.setf ETH_STATUS.LINK 1 7), 7, List.replicate 1523 0#8, false, by decide +kernel⟩,
  ⟨st (R.setf ETH_STATUS.LINK 1 7), 7, List.replicate 64 1#8, false, by decide +kernel⟩,
  ⟨st (R.setf ETH_STATUS.LINK 1 7), 7, bcast, false, by decide +kernel⟩,
  ⟨st (R), 7, 0x05EE0004#32, by decide +kernel⟩,
  ⟨st (R), 7, 0x05ED0004#32, by decide +kernel⟩,
  ⟨st (R), 7, by decide +kernel⟩⟩

theorem witness_StreamCommandsAct :
  (∃ (s : State) (p : Nat) (f : RxFrame), s.dev.awake = true ∧ s.dev.listens = true ∧ s.dev.nextFrame = some (p, f) ∧ s.dev.mem.bad = []) ∧
  (∃ (s : State) (p : Nat) (f : RxFrame) (rest : List (Nat × RxFrame)) (k : IpPkt) (c : Nat), s.dev.awake = true ∧ s.dev.ing.tcpq = (p, f) :: rest ∧
    s.dev.classify p f.bytes = .tcp k ∧ fold16 (pseudoSum k.src k.dst 6 k.body.length + octSum k.body) = 65535 ∧ s.dev.connFor p k = some c ∧
    (beNat (slice k.body 13 1)).testBit 2 = true) ∧
  (∃ (s : State) (p : Nat) (f : RxFrame) (rest : List (Nat × RxFrame)) (k : IpPkt) (c : Nat) (b : List Byte) (x : TcpRx) (y : TcpRx) (tail : List Byte) (q : Nat),
    s.dev.awake = true ∧ s.dev.ing.tcpq = (p, f) :: rest ∧ s.dev.classify p f.bytes = .tcp k ∧ fold16 (pseudoSum k.src k.dst 6 k.body.length + octSum k.body) = 65535 ∧
    s.dev.connFor p k = some c ∧ s.dev.tcpPortOf c = some q ∧ x = segEcho (s.dev.tcpConn c) k.body ∧ (beNat (slice k.body 13 1)).testBit 2 = false ∧
    (beNat (slice k.body 13 1)).testBit 0 = false ∧ b = k.body.drop (beNat (slice k.body 12 1) / 16 * 4) ∧ b ≠ [] ∧
    segSeen x (beNat (slice k.body 4 4)) b.length = false ∧ y = tcpTake x (beNat (slice k.body 4 4)) b ∧
    c37Cut (y.partialFrame.length / 4 + 2) y.partialFrame = ([], tail)) ∧
  (∃ (s : State) (p : Nat) (f : RxFrame) (rest : List (Nat × RxFrame)) (k : IpPkt) (c : Nat) (b : List Byte) (x : TcpRx) (q : Nat), s.dev.awake = true ∧
    s.dev.ing.tcpq = (p, f) :: rest ∧ s.dev.classify p f.bytes = .tcp k ∧ fold16 (pseudoSum k.src k.dst 6 k.body.length + octSum k.body) = 65535 ∧
    s.dev.connFor p k = some c ∧ s.dev.tcpPortOf c = some q ∧ x = segEcho (s.dev.tcpConn c) k.body ∧ (beNat (slice k.body 13 1)).testBit 2 = false ∧
    (beNat (slice k.body 13 1)).testBit 0 = false ∧ b = k.body.drop (beNat (slice k.body 12 1) / 16 * 4) ∧ b ≠ [] ∧
    segSeen x (beNat (slice k.body 4 4)) b.length = true) ∧
  (∃ (s : State) (c : Nat), s.dev.awake = true ∧ s.dev.tcpMay c = true ∧ (s.dev.tcpConn c).retryAt = none) ∧
  (∃ (s : State) (c : Nat) (t : Nat), s.dev.awake = true ∧ (s.dev.tcpConn c).retryAt = some t ∧ t ≤ s.dev.tk.now ∧ s.dev.tcpMay c = true) ∧
  (∃ (s : State) (c : Nat) (t : Nat), s.dev.awake = true ∧ (s.dev.tcpConn c).retryAt = some t ∧ t ≤ s.dev.tk.now ∧ s.dev.racing = true ∧ tcEn (s.dev.ent tTcp c) = true) ∧
  (∃ (s : State) (lane : Nat) (n : Nat) (st : Nat) (e : List Word), s.dev.awake = true ∧ s.dev.racing = true ∧ s.dev.gooseDue lane n = true ∧
    s.dev.laneStream lane = some (st, e) ∧ ((∀ p, p < 8 → stPort e p = true → s.dev.lapT (leHeat (s.dev.laneE lane)) n ≤ s.dev.mark p)) ∧
    s.dev.laneArrived (leHeat (s.dev.laneE lane)) n lane = true) ∧
  (∃ (s : State) (lane : Nat) (n : Nat) (st : Nat) (e : List Word), s.dev.awake = true ∧ s.dev.racing = true ∧ s.dev.gooseDue lane n = true ∧
    s.dev.laneStream lane = some (st, e) ∧ ((∀ p, p < 8 → stPort e p = true → s.dev.lapT (leHeat (s.dev.laneE lane)) n ≤ s.dev.mark p)) ∧
    s.dev.laneArrived (leHeat (s.dev.laneE lane)) n lane = false ∧ s.dev.spans (leHeat (s.dev.laneE lane)) = false) :=
  ⟨⟨st ({ R with ing := { R.ing with ports := [(7, { portRxInit with fifo := [⟨[1#8], 0, 5⟩] })] } }), 7, ⟨[1#8], 0, 5⟩, by decide +kernel⟩,
  ⟨st (tcpd 0x14#8 0x68#8 0), 7, ⟨ip6 6#8 (seg 0x14#8 0x68#8), 0, 79⟩, ([] : List (Nat × RxFrame)), ⟨zeros16, zeros16, 6, seg 0x14#8 0x68#8⟩, 63, by decide +kernel,
    by decide +kernel, (by set_option maxRecDepth 40000 in rfl), by decide +kernel⟩,
  ⟨st (tcpd 0x10#8 0x6C#8 0), 7, ⟨ip6 6#8 (seg 0x10#8 0x6C#8), 0, 79⟩, ([] : List (Nat × RxFrame)), ⟨zeros16, zeros16, 6, seg 0x10#8 0x6C#8⟩, 63, [1#8],
    { tcpInit with isOpen := true, next := 0 }, { tcpInit with isOpen := true, next := 1, partialFrame := [1#8] }, [1#8], 7, by decide +kernel, by decide +kernel,
    (by set_option maxRecDepth 40000 in rfl), by decide +kernel⟩,
  ⟨st (tcpd 0x10#8 0x6C#8 1), 7, ⟨ip6 6#8 (seg 0x10#8 0x6C#8), 0, 79⟩, ([] : List (Nat × RxFrame)), ⟨zeros16, zeros16, 6, seg 0x10#8 0x6C#8⟩, 63, [1#8],
    { tcpInit with isOpen := true, next := 1 }, 7, by decide +kernel, by decide +kernel, (by set_option maxRecDepth 40000 in rfl), by decide +kernel⟩,
  ⟨st ({ linked with tables := (tcpd 0#8 0#8 0).tables }), 63, by decide +kernel⟩,
  ⟨st ({ linked with tables := (tcpd 0#8 0#8 0).tables, ing := { R.ing with conns := [(63, { tcpInit with retryAt := some 0 })] } }), 63, 0, by decide +kernel⟩,
  ⟨st ({ linked with tables := (tcpd 0#8 0#8 0).tables, ing := { R.ing with conns := [(63, { tcpInit with retryAt := some 0 })] } }), 63, 0, by decide +kernel⟩,
  ⟨st (goosed [⟨1023, 1, 16383, 0, true, [], false⟩]), 16383, 1, 5, [0xF301BFFF#32, 0x100#32, 0#32, 0#32], by decide +kernel⟩,
  ⟨st (goosed []), 16383, 1, 5, [0xF301BFFF#32, 0x100#32, 0#32, 0#32], by decide +kernel⟩⟩

theorem witness_FramesOfFederationAct :
  (∃ (s : State) (lane : Nat) (b : List Byte) (c : Ctr), s.dev.awake = true ∧ s.dev.listens = true ∧ lane < 4 ∧ s.dev.fb RXL_PORT.LOCK lane = true ∧
    lkEn (s.dev.linkE lane) = true ∧ s.dev.rxlCheck lane (b.take 8232) = some c) ∧
  (∃ (s : State) (lane : Nat) (b : List Byte), s.dev.awake = true ∧ s.dev.listens = true ∧ lane < 4 ∧ s.dev.fb RXL_PORT.LOCK lane = true ∧ lkEn (s.dev.linkE lane) = true ∧
    s.dev.rxlCheck lane (b.take 8232) = none ∧ (rxlHdrOf (b.take 8232)).typ = 0) ∧
  (∃ (s : State) (lane : Nat) (b : List Byte), s.dev.awake = true ∧ s.dev.listens = true ∧ lane < 4 ∧ s.dev.fb RXL_PORT.LOCK lane = true ∧ lkEn (s.dev.linkE lane) = true ∧
    s.dev.rxlCheck lane (b.take 8232) = none ∧ (rxlHdrOf (b.take 8232)).typ = 1 ∧ (rxlHdrOf (b.take 8232)).dst = s.dev.self ∧
    (rxlHdrOf (b.take 8232)).src = lkPeer (s.dev.linkE lane) ∧ 8 ≤ (rxlHdrOf (b.take 8232)).hops) ∧
  (∃ (s : State) (lane : Nat) (b : List Byte) (ahead : Nat), s.dev.awake = true ∧ s.dev.listens = true ∧ lane < 4 ∧ s.dev.fb RXL_PORT.LOCK lane = true ∧
    lkEn (s.dev.linkE lane) = true ∧ s.dev.rxlCheck lane (b.take 8232) = none ∧ 2 ≤ (rxlHdrOf (b.take 8232)).typ ∧
    ahead = ((rxlHdrOf (b.take 8232)).seq + 65536 - (getCls (s.dev.link lane) (rxlHdrOf (b.take 8232)).cls).next) % 65536 ∧ 0 < ahead ∧ ahead < 256 ∧
    mget (getCls (s.dev.link lane) (rxlHdrOf (b.take 8232)).cls).win (getCls (s.dev.link lane) (rxlHdrOf (b.take 8232)).cls).next = none) ∧
  (∃ (s : State) (lane : Nat) (b : List Byte) (ahead : Nat), s.dev.awake = true ∧ s.dev.listens = true ∧ lane < 4 ∧ s.dev.fb RXL_PORT.LOCK lane = true ∧
    lkEn (s.dev.linkE lane) = true ∧ s.dev.rxlCheck lane (b.take 8232) = none ∧ 2 ≤ (rxlHdrOf (b.take 8232)).typ ∧
    ahead = ((rxlHdrOf (b.take 8232)).seq + 65536 - (getCls (s.dev.link lane) (rxlHdrOf (b.take 8232)).cls).next) % 65536 ∧ 32768 ≤ ahead) ∧
  (∃ (s : State) (lane : Nat) (b : List Byte) (ahead : Nat), s.dev.awake = true ∧ s.dev.listens = true ∧ lane < 4 ∧ s.dev.fb RXL_PORT.LOCK lane = true ∧
    lkEn (s.dev.linkE lane) = true ∧ s.dev.rxlCheck lane (b.take 8232) = none ∧ 2 ≤ (rxlHdrOf (b.take 8232)).typ ∧
    ahead = ((rxlHdrOf (b.take 8232)).seq + 65536 - (getCls (s.dev.link lane) (rxlHdrOf (b.take 8232)).cls).next) % 65536 ∧ 256 ≤ ahead ∧ ahead < 32768) ∧
  (∃ (s : State) (lane : Nat) (f : Nat × RxFrame) (r : List (Nat × RxFrame)) (k : IpPkt), s.dev.awake = true ∧ s.dev.listens = true ∧ 4 ≤ lane ∧ s.dev.ing.rxlq = f :: r ∧
    ipParse (ethParse f.2.bytes).etype (f.2.bytes.drop (ethParse f.2.bytes).body) = .ok k ∧ s.dev.udpLink k.src (beNat (slice k.body 0 2)) = none) :=
  ⟨⟨st (fed), 3, [], (RXL_RX_SIZE : Ctr), by decide +kernel⟩,
  ⟨st (fed), 3, rxf 0x10000014#32 0#32 0, by decide +kernel⟩,
  ⟨st (fed), 3, rxf 0x11000034#32 0x8000#32 32, by decide +kernel⟩,
  ⟨st (fed), 3, rxf 0x13000024#32 0x00FF0000#32 16, 255, by decide +kernel⟩,
  ⟨st (fed), 3, rxf 0x13000024#32 0x80000000#32 16, 32768, by decide +kernel⟩,
  ⟨st (fed), 3, rxf 0x13000024#32 0x7FFF0000#32 16, 32767, by decide +kernel⟩,
  ⟨st ({ R with ing := { R.ing with rxlq := [(7, ⟨ip6 17#8 (List.replicate 8 0#8), 0, 66⟩)] } }), 4, (7, ⟨ip6 17#8 (List.replicate 8 0#8), 0, 66⟩),
    ([] : List (Nat × RxFrame)), ⟨zeros16, zeros16, 17, List.replicate 8 0#8⟩, by decide +kernel, by decide +kernel, by decide +kernel, by decide +kernel,
    (by set_option maxRecDepth 40000 in rfl), by decide +kernel⟩⟩

theorem witness_LinkCommandsAct :
  (∃ (s : State) (l : Nat) (t : Nat), s.dev.alive = true ∧ l < 64 ∧ s.dev.awake = true ∧ ((s.dev.link l).c0.owed = some t ∨ (s.dev.link l).c1.owed = some t) ∧
    t + (if l < 4 then 2 * Time.usU else 500 * Time.usU) ≤ s.dev.now ∧ s.dev.rxlMay l 0 = true ∧ lkAuth (s.dev.linkE l) = false ∧
    (l < 4 ∨ (s.dev.lowestPort (lkPorts (s.dev.linkE l))).isSome = true)) ∧
  (∃ (s : State) (l : Nat) (c : Nat) (f : RxlSent) (r : List RxlSent), s.dev.alive = true ∧ l < 64 ∧ s.dev.awake = true ∧ (getCls (s.dev.link l) c).buf = f :: r ∧
    f.last + s.dev.rto l ≤ s.dev.now ∧ f.times < max 1 (s.dev.f RXL_TIMING.RETX_MAX) + 1) ∧
  (∃ (s : State) (l : Nat) (c : Nat) (f : RxlSent) (r : List RxlSent), s.dev.alive = true ∧ l < 64 ∧ s.dev.awake = true ∧ (getCls (s.dev.link l) c).buf = f :: r ∧
    f.last + s.dev.rto l ≤ s.dev.now ∧ max 1 (s.dev.f RXL_TIMING.RETX_MAX) + 1 ≤ f.times) ∧
  (∃ (s : State) (l : Nat), s.dev.alive = true ∧ l < 64 ∧ s.dev.awake = true ∧ lkEn (s.dev.linkE l) = true ∧ (s.dev.link l).cadTx + cadMs l * Time.msU ≤ s.dev.now ∧
    (4 ≤ l ∨ s.dev.fb RXL_PORT.LOCK l = true)) ∧
  (∃ (s : State) (l : Nat) (dev : Nat), s.dev.alive = true ∧ l < 64 ∧ s.dev.awake = true ∧ s.dev.routeTo dev = some l ∧ s.dev.spanPeers.contains dev = true ∧
    (s.dev.peer dev).cadTx + cadMs l * Time.msU ≤ s.dev.now) ∧
  (∃ (s : State) (l : Nat) (t : Nat), s.dev.alive = true ∧ l < 64 ∧ s.dev.awake = true ∧ (s.dev.link l).cadAt = some t ∧ t + 3 * cadMs l * Time.msU ≤ s.dev.now) ∧
  (∃ (s : State) (l : Nat) (dev : Nat) (t : Nat), s.dev.alive = true ∧ l < 64 ∧ s.dev.awake = true ∧ (s.dev.peer dev).cadAt = some t ∧ (s.dev.peer dev).lost = false ∧
    t + 3 * (s.dev.peer dev).interval * Time.msU ≤ s.dev.now) ∧
  (∃ (s : State) (l : Nat) (v : Word), s.dev.alive = true ∧ l < 4 ∧ bit v 31 ≠ s.dev.fb RXL_PORT.EN l) ∧
  (∃ (s : State) (l : Nat) (v : Word), s.dev.alive = true ∧ l < 4 ∧ bit v 31 = s.dev.fb RXL_PORT.EN l) ∧
  (∃ (s : State) (l : Nat), s.dev.alive = true ∧ l < 4 ∧ s.dev.fb RXL_PORT.EN l = true) ∧
  (∃ (s : State) (l : Nat), s.dev.alive = true ∧ l < 4 ∧ s.dev.fb RXL_PORT.EN l = true ∧ s.dev.fb RXL_PORT.LOCK l = false) ∧
  (∃ (s : State) (l : Nat), s.dev.alive = true ∧ l < 4 ∧ s.dev.fb RXL_PORT.EN l = true ∧ s.dev.fb RXL_PORT.LOCK l = true) ∧
  (∃ (s : State) (h : Nat) (n : Nat) (i : Nat) (r : HeatRun), s.dev.awake = true ∧ s.dev.racing = true ∧ s.dev.spans h = true ∧ s.dev.heatOn h = true ∧
    s.dev.combHere h i n = true ∧ s.dev.lapT h n + seWait (s.dev.spanE h) * Time.usU ≤ s.dev.now ∧ s.dev.run? h = some r ∧ r.firstLap ≤ n ∧ r.skipped.contains n = false ∧
    s.dev.combInsts h = [i] ∧ (s.dev.comb i n).seq = 0 ∧ s.dev.storeFree ≠ 0) ∧
  (∃ (s : State) (h : Nat) (n : Nat) (i : Nat) (r : HeatRun), s.dev.awake = true ∧ s.dev.racing = true ∧ s.dev.spans h = true ∧ s.dev.heatOn h = true ∧
    s.dev.combHere h i n = true ∧ s.dev.lapT h n + seWait (s.dev.spanE h) * Time.usU ≤ s.dev.now ∧ s.dev.run? h = some r ∧ r.firstLap ≤ n ∧ r.skipped.contains n = false ∧
    s.dev.combInsts h = [i] ∧ (s.dev.comb i n).seq = 0 ∧ s.dev.storeFree = 0 ∧ s.dev.entry? i n 256 = none ∧ s.dev.srt.held.contains (.combineIn i n) = false) :=
  ⟨⟨st (tn (lnk { linkInit with up := true, c1 := { clsInit with owed := some 0 } }) (2 * Time.usU)), 3, 0, by decide +kernel⟩,
  ⟨st (tn (lnk { linkInit with up := true, c1 := { clsInit with buf := [snt 1] } }) (R.rto 3)), 3, 1, snt 1, ([] : List RxlSent), by decide +kernel⟩,
  ⟨st (tn (lnk { linkInit with up := true, c0 := { clsInit with buf := [snt 256] } }) (R.rto 3)), 3, 0, snt 256, ([] : List RxlSent), by decide +kernel⟩,
  ⟨st (tn (tabd tLink [(3, [0#32, 0#32, 0#32, 0#32, 0x80000000#32, 7#32, 0#32, 0#32])] (R.setf RXL_PORT.LOCK 1 3)) Time.msU), 3, by decide +kernel⟩,
  ⟨st (tn { lnk { linkInit with up := true } with tables := [(tabKey tRoute 0 7, [0x8003#32]), (tabKey tSpan 0 0, [0x80000002#32, 0#32, 0#32, 0#32, 0x00070000#32])] } Time.msU),
    3, 7, by decide +kernel⟩,
  ⟨st (tn (lnk { linkInit with up := true, usable := true, cadAt := some 0 }) (3 * Time.msU)), 3, 0, by decide +kernel⟩,
  ⟨st (tn { R with rxl := { R.rxl with peers := [(4095, { peerInit with lost := false, cadAt := some 0, interval := 10 })] } } (30 * Time.msU)), 63, 4095, 0,
    by decide +kernel⟩,
  ⟨st (R), 3, 0x80000000#32, by decide +kernel⟩,
  ⟨st (R), 3, 0#32, by decide +kernel⟩,
  ⟨st (R.setf RXL_PORT.EN 1 3), 3, by decide +kernel⟩,
  ⟨st (R.setf RXL_PORT.EN 1 3), 3, by decide +kernel⟩,
  ⟨st ((R.setf RXL_PORT.EN 1 3).setf RXL_PORT.LOCK 1 3), 3, by decide +kernel⟩,
  ⟨st (spanned), 1023, 2, 0, hrun, by decide +kernel⟩,
  ⟨st (crowded spanned), 1023, 2, 0, hrun, by decide +kernel⟩⟩

theorem witness_PairCommandsAct :
  (∃ (s : State), s.dev.alive = true ∧ s.dev.rly.toggling = true) ∧
  (∃ (s : State), s.dev.alive = true ∧ s.dev.rly.toggling = false) ∧
  (∃ (s : State), s.dev.alive = true ∧ s.dev.paired = true ∧ s.dev.holder = false) ∧
  (∃ (s : State), s.dev.alive = true ∧ s.dev.paired = true ∧ s.dev.holder = true) ∧
  (∃ (s : State), s.dev.alive = true ∧ s.dev.pwr.mode = .follow ∧ s.dev.paired = true ∧ s.dev.silent = true ∧ (s.dev.inStep = true ∨ s.dev.fb RLY_CFG.TAKE_UNSYNC = true) ∧
    s.dev.pwr.waiting = none ∧ s.dev.rly.ckpt.any (fun e => decide (e.typ = 0x22)) = false ∧ s.dev.pfa.heats = [] ∧ s.dev.pfa.laps = []) ∧
  (∃ (s : State), s.dev.alive = true ∧ s.dev.pwr.mode = .follow ∧ s.dev.paired = true ∧ s.dev.silent = true ∧ s.dev.inStep = false ∧ s.dev.fb RLY_CFG.TAKE_UNSYNC = false) ∧

  (∃ (s : State) (t : Nat), s.dev.alive = true ∧ s.dev.pwr.mode = .warmup ∧ s.dev.pwr.watchAt = some t ∧ t + 384000 ≤ s.dev.tk.ticks ∧
    ((∃ e, s.dev.rly.lastIn = some e ∧ t ≤ e))) ∧
  (∃ (s : State) (t : Nat), s.dev.alive = true ∧ s.dev.pwr.mode = .warmup ∧ s.dev.pwr.watchAt = some t ∧ t + 384000 ≤ s.dev.tk.ticks ∧
    ((∀ e, s.dev.rly.lastIn = some e → e < t)) ∧ s.dev.pwr.waiting = none ∧ s.dev.pfa.heats = []) ∧
  (∃ (s : State) (t : Nat), s.dev.alive = true ∧ s.dev.awake = true ∧ s.dev.holder = true ∧ s.dev.rly.toggling = true ∧ s.dev.rly.driveAt = some t ∧ t ≤ s.dev.tk.ticks) ∧
  (∃ (s : State), s.dev.alive = true ∧ s.dev.awake = true ∧ s.dev.holder = true ∧ s.dev.rly.toggling = false) ∧
  (∃ (s : State), s.dev.alive = true ∧ s.dev.holder = true ∧ s.dev.paired = true ∧ s.dev.linkUp s.dev.lane = true ∧ (s.dev.link s.dev.lane).mode = modeCode .follow) ∧
  (∃ (s : State), s.dev.alive = true ∧ (s.dev.holder = false ∨ s.dev.paired = false ∨ s.dev.linkUp s.dev.lane = false ∨ (s.dev.link s.dev.lane).mode ≠ modeCode .follow)) ∧
  (∃ (s : State), s.dev.alive = true ∧ s.dev.rly.handover = true ∧ s.dev.rly.toggling = true ∧ (s.dev.link s.dev.lane).c0.buf = [] ∧ s.dev.nextForward = none) ∧
  (∃ (s : State), s.dev.alive = true ∧ s.dev.pwr.mode = .follow ∧ (s.dev.linkUp s.dev.lane = false ∨ s.dev.linkRoom s.dev.lane 0 1 = false)) ∧
  (∃ (s : State), s.dev.alive = true ∧ s.dev.pwr.mode = .follow ∧ s.dev.linkUp s.dev.lane = true ∧ s.dev.linkRoom s.dev.lane 0 1 = true) ∧
  (∃ (s : State), s.dev.alive = true ∧ s.dev.pwr.mode = .follow ∧ s.dev.rly.ckpt.any (fun e => decide (e.typ = 0x22)) = true ∧ ckptOk s.dev.rly.ckpt = false) ∧
  (∃ (s : State), s.dev.alive = true ∧ s.dev.pwr.mode = .follow ∧ s.dev.rly.ckpt.any (fun e => decide (e.typ = 0x22)) = true ∧ ckptOk s.dev.rly.ckpt = true ∧
    s.dev.inStep = false ∧ s.dev.rly.queue = []) :=
  ⟨⟨st ({ R with rly := { R.rly with toggling := true } }), by decide +kernel⟩,
  ⟨st (R), by decide +kernel⟩,
  ⟨st (F.setf RLY_CFG.EN 1), by decide +kernel⟩,
  ⟨st ((R.setf RLY_CFG.EN 1).setf RLY_STAT.HOLDER 1), by decide +kernel⟩,
  ⟨st ({ (F.setf RLY_CFG.EN 1).setf RLY_CFG.TAKE_UNSYNC 1 with rly := { F.rly with lastIn := some 0 }, tk := { F.tk with ticks := 384001 } }), by decide +kernel⟩,
  ⟨st ({ F.setf RLY_CFG.EN 1 with rly := { F.rly with lastIn := some 0 }, tk := { F.tk with ticks := 384001 } }), by decide +kernel⟩,
  ⟨st ({ B with pwr := { B.pwr with watchAt := some 1 }, rly := { B.rly with lastIn := some 1 }, tk := { B.tk with ticks := 384001 } }), 1, by decide +kernel,
    by decide +kernel, by decide +kernel, by decide +kernel, ⟨1, by decide +kernel⟩⟩,
  ⟨st ({ B with pwr := { B.pwr with watchAt := some 1 }, rly := { B.rly with lastIn := some 0 }, tk := { B.tk with ticks := 384001 } }), 1, by decide +kernel,
    by decide +kernel, by decide +kernel, by decide +kernel, (fun e h => by cases h; decide), by decide +kernel⟩,
  ⟨st ({ R.setf RLY_STAT.HOLDER 1 with rly := { R.rly with driveAt := some 6400, toggling := true }, tk := { R.tk with ticks := 6400 } }), 6400, by decide +kernel⟩,
  ⟨st (R.setf RLY_STAT.HOLDER 1), by decide +kernel⟩,
  ⟨st ({ (R.setf RLY_CFG.EN 1).setf RLY_STAT.HOLDER 1 with rxl := { R.rxl with links := [(0, { linkInit with up := true, mode := modeCode .follow })] } }),
    by decide +kernel⟩,
  ⟨st ({ (R.setf RLY_CFG.EN 1).setf RLY_STAT.HOLDER 1 with rxl := { R.rxl with links := [(0, { linkInit with up := true, mode := modeCode .race })] } }),
    by decide +kernel⟩,
  ⟨st ({ R with rly := { R.rly with handover := true, toggling := true } }), by decide +kernel⟩,
  ⟨st (F), by decide +kernel⟩,
  ⟨st ({ F with rxl := { F.rxl with links := [(0, { linkInit with up := true })] } }), by decide +kernel⟩,
  ⟨st ({ F with rly := { F.rly with ckpt := [⟨0x22, 0, 1, 0, [1#8]⟩] } }), by decide +kernel⟩,
  ⟨st ({ F with rly := { F.rly with ckpt := [⟨0x22, 0, 1, 0, []⟩] } }), by decide +kernel⟩⟩

/-- Every command goes on at every state; one of each family. -/
theorem witness_FieldCommandsLeaveTheRest :
  (∃ s t, exec (.ethFrameReceived 7 [1#8] true) s = .next t) ∧ (∃ s t, exec (.lmfGrpWrite 7 0#32) s = .next t) ∧ (∃ s t, exec (.nrgSnapshotComplete) s = .next t) ∧ (∃ s t, exec (.tkNowNsRead) s = .next t) :=
  ⟨⟨st R, _, rfl⟩, ⟨st R, _, rfl⟩, ⟨st R, _, rfl⟩, ⟨st R, _, rfl⟩⟩

/-- Every command goes on at every state; one of each family. -/
theorem witness_LapCommandsLeaveTheRest :
  (∃ s t, exec (.lapOpen 1023 2) s = .next t) ∧ (∃ s t, exec (.taskPlace) s = .next t) ∧ (∃ s t, exec (.osmRunStop) s = .next t) ∧ (∃ s t, exec (.scbFlushWrite) s = .next t) ∧ (∃ s t, exec (.memInjectArm 0x80000000#32) s = .next t) :=
  ⟨⟨st R, _, rfl⟩, ⟨st R, _, rfl⟩, ⟨st R, _, rfl⟩, ⟨st R, _, rfl⟩, ⟨st R, _, rfl⟩⟩

/-- Every command goes on at every state; one of each family. -/
theorem witness_OutputCommandsLeaveTheRest :
  (∃ s t, exec (.almThrCmdThrA) s = .next t) ∧ (∃ s t, exec (.beaconInstant) s = .next t) ∧ (∃ s t, exec (.batonToggle) s = .next t) :=
  ⟨⟨st R, _, rfl⟩, ⟨st R, _, rfl⟩, ⟨st R, _, rfl⟩⟩

/-- Every command goes on at every state; one of each family. -/
theorem witness_HostCommandsLeaveTheRest :
  (∃ s t, exec (.privWindowExpiry) s = .next t) ∧ (∃ s t, exec (.resetNAssert) s = .next t) :=
  ⟨⟨st R, _, rfl⟩, ⟨st R, _, rfl⟩⟩

end Sys2Proof.Tests
end

section
/-!
How a write changes one field of a word (Table 0.4, R5): the bits of a field replaced, and the access codes.
-/
namespace Sys2Proof.Machine

theorem sub_land_eq_ldiff (m n : Nat) : m - (m &&& n) = Nat.ldiff m n := by
  induction m using Nat.binaryRec generalizing n with
  | zero => exact Nat.eq_of_testBit_eq fun k => by simp [Nat.testBit_ldiff]
  | bit a m ih =>
    rw [← Nat.bit_bodd_div2 n, Nat.land_bit, Nat.ldiff_bit, ← ih]
    have hle : m &&& n.div2 ≤ m := Nat.and_le_left
    cases a <;> cases n.bodd <;> simp [Nat.bit_val] <;> omega

theorem bit_eq_getLsbD (w : Word) (j : Nat) : bit w j = w.getLsbD j := by
  rw [bit, bx, Nat.sub_self, Nat.zero_add, Nat.pow_one, BitVec.getLsbD, Nat.testBit_eq_decide_div_mod_eq]

theorem bx_lt (w : Word) (hi lo : Nat) : bx w hi lo < 2 ^ (hi - lo + 1) := Nat.mod_lt _ (Nat.two_pow_pos _)

/-- A bit of a field that has been replaced. -/
theorem bit_bset_inside (w : Word) {hi lo j : Nat} (v : Nat) (hl : lo ≤ j) (hj : j ≤ hi) (h32 : hi < 32) : bit (bset w hi lo v) j = v.testBit (j - lo) := by
  rw [bit_eq_getLsbD, getLsbD_bset _ _ _ _ _ (by omega), if_pos (by omega)]

/-- A bit of a field, counted from the field's lowest. -/
theorem testBit_bx_inside (w : Word) {hi lo j : Nat} (hl : lo ≤ j) (hj : j ≤ hi) : (bx w hi lo).testBit (j - lo) = bit w j := by
  rw [testBit_bx, bit_eq_getLsbD, Nat.add_sub_cancel' hl, decide_eq_true (by omega), Bool.true_and]

/-! One equation per access code. -/

theorem accWrite_plain {f : Fld} (old v : Word) (h : f.acc = .rw ∨ f.acc = .wo) : accWrite f old v = bset old f.hi f.lo (bx v f.hi f.lo) := by
  rcases h with h | h <;> simp only [accWrite, h]
theorem accWrite_w1c {f : Fld} (old v : Word) (h : f.acc = .w1c) :
    accWrite f old v = bset old f.hi f.lo (Nat.ldiff (bx old f.hi f.lo) (bx v f.hi f.lo)) := by
  simp only [accWrite, h, sub_land_eq_ldiff]
theorem accWrite_w1s {f : Fld} (old v : Word) (h : f.acc = .w1s) : accWrite f old v = bset old f.hi f.lo (bx old f.hi f.lo ||| bx v f.hi f.lo) := by
  simp only [accWrite, h]
theorem accWrite_readOnly {f : Fld} (old v : Word) (h : f.acc = .ro ∨ f.acc = .rc) : accWrite f old v = old := by
  rcases h with h | h <;> simp only [accWrite, h]

/-- Whatever the code, a write replaces at most the bits of its own field. -/
theorem accWrite_bset_or_keeps (f : Fld) (old v : Word) : (∃ n, accWrite f old v = bset old f.hi f.lo n) ∨ accWrite f old v = old := by
  cases h : f.acc with
  | rw => exact .inl ⟨_, accWrite_plain old v (.inl h)⟩
  | wo => exact .inl ⟨_, accWrite_plain old v (.inr h)⟩
  | w1c => exact .inl ⟨_, accWrite_w1c old v h⟩
  | w1s => exact .inl ⟨_, accWrite_w1s old v h⟩
  | ro => exact .inr (accWrite_readOnly old v (.inl h))
  | rc => exact .inr (accWrite_readOnly old v (.inr h))

/-- Settles O15: one equation per access code, read bit by bit. -/
theorem writesFollowAccessCodes : Obligations.WritesFollowAccessCodes := by
  intro f old v hlo h32
  refine ⟨fun h => ?plain, fun h j hl hj => ?w1c, fun h j hl hj => ?w1s, accWrite_readOnly old v, fun hi lo hle hi32 hdis => ?others⟩
  case plain =>
    rw [accWrite_plain old v h, bx_bset_self _ _ _ _ hlo h32, Nat.mod_eq_of_lt (bx_lt v f.hi f.lo)]
  case w1c =>
    rw [accWrite_w1c old v h, bit_bset_inside old _ hl hj h32, Nat.testBit_ldiff, testBit_bx_inside old hl hj, testBit_bx_inside v hl hj]
  case w1s =>
    rw [accWrite_w1s old v h, bit_bset_inside old _ hl hj h32, Nat.testBit_or, testBit_bx_inside old hl hj, testBit_bx_inside v hl hj]
  case others =>
    rcases accWrite_bset_or_keeps f old v with ⟨n, hn⟩ | hn
    · rw [hn, bx_bset_other _ _ _ _ _ _ hi32 hle hlo hdis]
    · rw [hn]

end Sys2Proof.Machine
end

section
/-!
The register file on leaving RESET (R4): it lists HLT_THR of the voltage and process monitors alone, so that every other register reads its reset value.
-/
namespace Sys2Proof.Machine

/-- What the register file lists at reset lies beyond BAR0, where the rows of selected registers are kept. -/
theorem hltThrInit_keys_beyond_bar0 : ∀ x ∈ mgetD hltThrInit 1 [], selStride ≤ x.1 := by decide +kernel

theorem Device.reset_blkRegs_other {b : Nat} (h : b ≠ 1) : Device.reset.blkRegs b = [] :=
  congrArg (Option.getD · []) (mget_none (m := hltThrInit) (by simpa [hltThrInit] using h.symm))

theorem Device.reset_blkRegs_mget {b k : Nat} (h : b = 1 → k < selStride) : mget (Device.reset.blkRegs b) k = none := by
  by_cases hb : b = 1
  · subst hb
    exact mget_none fun x hx hk => absurd (hltThrInit_keys_beyond_bar0 x hx) (by rw [hk]; exact Nat.not_le.mpr (h rfl))
  · rw [Device.reset_blkRegs_other hb]
    rfl

/-- A register kept within BAR0 reads its reset value. -/
theorem Device.reset_rg {r : RegDef} {i : Nat} (h : r.key i < selStride) : Device.reset.rg r i = r.reset := by
  unfold Device.rg mgetD
  rw [Device.reset_blkRegs_mget (fun _ => h)]
  rfl

/-- A counter outside the power unit's range, or a single one within BAR0, reads 0. -/
theorem Device.reset_ctr {c : Ctr} (i : Nat) (h : c.base / 65536 = 1 → c.stride = 0 ∧ c.base < selStride) : Device.reset.ctr c i = 0 := by
  unfold Device.ctr mgetD
  rw [Device.reset_blkRegs_mget (fun hb => ?_)]
  · rfl
  · obtain ⟨hs, hk⟩ := h hb
    rw [hs, Nat.mul_zero]
    exact hk

theorem RegDef.key_mono (r : RegDef) {i j : Nat} (h : i ≤ j) : r.key i ≤ r.key j := by
  unfold RegDef.key
  split
  · exact Nat.add_le_add_left (Nat.mul_le_mul_right _ h) _
  · exact Nat.add_le_add_left (Nat.mul_le_mul_right _ h) _

/-- Every register of the map, to the last of its row, is kept within BAR0. -/
theorem regMap_last_key_lt : ∀ r ∈ regMap, r.key (r.count - 1) < selStride := by decide +kernel

/-- No two fields of a register of the map meet: each reads back its own Reset column. -/
theorem regMap_reset_fields : ∀ r ∈ regMap, ∀ f ∈ r.fields, bx r.reset f.hi f.lo = f.reset := by decide +kernel

/-- HLT_THR of the voltage and process monitors (Table 19.9). -/
theorem Device.reset_rg_hltThr : ∀ i, i < 32 → Device.reset.rg HLT_THR (256 + i) = 0xFFFF0000#32 ∧ Device.reset.rg HLT_THR (512 + i) = 0xFFFF0000#32 := by
  decide +kernel

/-- Settles O2: but for HLT_THR nothing is listed at reset, and the register map's fields do not meet. -/
theorem resetHoldsTheStatedValues : Obligations.ResetHoldsTheStatedValues := by
  refine ⟨fun r hr f hf i hi _ => ?fields, Device.reset_rg_hltThr, fun c hc i => ?counters, rfl, rfl, rfl, rfl, rfl, rfl⟩
  case fields =>
    have hkey : r.key i < selStride := (r.key_mono (Nat.le_sub_one_of_lt hi)).trans_lt (regMap_last_key_lt r hr)
    exact (congrArg (bx · f.hi f.lo) (Device.reset_rg hkey)).trans (regMap_reset_fields r hr f hf)
  case counters =>
    refine Device.reset_ctr i ?_
    revert c
    decide +kernel

end Sys2Proof.Machine
end

section
/-!
Frames of the commands of ingress, local inputs, interchange energy and the Timekeeper: each is its gate over an operation whose own lemma says
what the operation may touch.
-/
namespace Sys2Proof.Machine

/-- A command for a place touches what its operation touches. -/
theorem Calm.placed {e : Eff} {b : Bool} {f : Device → Device} (d : Device) (hf : ∀ x, Calm e d x → Calm e d (f x)) : Calm e d (placed b f d) :=
  placed_calm hf (Calm.refl e d)

/-- Settles O57: every command is a gate over one operation, and the operation's lemma lists what it touches. -/
theorem fieldCommandsLeaveTheRest : Obligations.FieldCommandsLeaveTheRest := by
  refine ⟨⟨?ethFrameReceived, ?parserTurn, ?ethCfgWrite, ?ethLinkChange, ?tcpSegmentReceived, ?tcpConnectionOpen, ?tcpReconnectExpiry, ?rgooseLaneWrite⟩,
    ⟨?lmfGrpWrite, ?channelFault, ?channelFaultClear, ?captureStrobe, ?phasorStrobe, ?lmfChRunStart, ?lmfChRunStop, ?lmfSwitchRequest,
      ?triggerEvalInstant, ?acqArm, ?acqDisarm, ?acqForce, ?captureRecordEnd, ?acqSlotRelease⟩,
    ⟨?plsiLevelChange, ?pulseAccept, ?nrgSnapshotRequest, ?nrgSnapshotComplete, ?nrgSnapshotRelease, ?intervalClose, ?intervalRecordDrain,
      ?pulseOutputEnable, ?pulseOutputDisable, ?pulseOutputPhaseEnd⟩,
    ⟨?ptpMessageReceived, ?ptpAnnounceTimeout, ?ptpTransmitTimer, ?irigFrameReceived, ?irigFrameMissing, ?ppsInEdge, ?ppsWindowMissed,
      ?sourceQualified, ?syncLimitCrossing, ?unlockIntervalExpiry, ?tkIncFracWrite, ?tkCmdStep, ?leapApply, ?ppsOutPulse, ?mgtFrameReceived,
      ?ethTxtsPop, ?ethTxtsIdRead, ?tkNowNsRead, ?clkTkTick⟩⟩
  case ethFrameReceived => exact fun _ _ _ => awake_touches (fun _ => rfl) fun d => ethFrame_calm (Calm.refl _ d)
  case parserTurn => exact fun _ => awake_units (fun _ => rfl) fun d => parserTurn_calm (Calm.refl _ d) (e_all := fun _ => ⟨rfl⟩)
  case ethCfgWrite => exact fun _ _ => alive_touches (fun _ => rfl) fun d => ethCfgWrite_calm (Calm.refl _ d)
  case ethLinkChange => exact fun _ _ _ _ _ _ => alive_touches (fun _ => rfl) fun d => ethLinkChange_calm (Calm.refl _ d)
  case tcpSegmentReceived => exact awake_touches (fun _ => rfl) fun d => tcpSegmentReceived_calm (Calm.refl _ d)
  case tcpConnectionOpen => exact fun _ _ => awake_touches (fun _ => rfl) fun d => tcpConnectionOpen_calm (Calm.refl _ d)
  case tcpReconnectExpiry => exact fun _ _ _ => awake_touches (fun _ => rfl) fun d => tcpReconnectExpiry_calm (Calm.refl _ d)
  case rgooseLaneWrite => exact fun _ _ => awake_touches (fun _ => rfl) fun d => rgooseLaneWrite_calm (Calm.refl _ d)
  case lmfGrpWrite => exact fun _ _ => alive_touches (fun _ => rfl) fun d => Calm.placed d fun _ h => lmfGrpWrite_calm h
  case channelFault => exact fun _ => alive_touches (fun _ => rfl) fun d => channelFault_calm (Calm.refl _ d)
  case channelFaultClear => exact fun _ => alive_touches (fun _ => rfl) fun d => Calm.placed d fun _ h => channelFaultClear_calm h
  case captureStrobe => exact fun _ _ => awake_touches (fun _ => rfl) fun d => captureStrobe_calm (Calm.refl _ d)
  case phasorStrobe => exact fun _ _ => awake_touches (fun _ => rfl) fun d => phasorStrobe_calm (Calm.refl _ d)
  case lmfChRunStart => exact fun _ _ => alive_touches (fun _ => rfl) fun d => Calm.placed d fun _ h => lmfCtlWrite_calm h
  case lmfChRunStop => exact fun _ _ => alive_touches (fun _ => rfl) fun d => Calm.placed d fun _ h => lmfCtlWrite_calm h
  case lmfSwitchRequest => exact fun _ _ => alive_touches (fun _ => rfl) fun d => Calm.placed d fun _ h => lmfCtlWrite_calm h
  case triggerEvalInstant => exact fun _ => awake_touches (fun _ => rfl) fun d => triggerEvalInstant_calm (Calm.refl _ d)
  case acqArm => exact fun _ => alive_touches (fun _ => rfl) fun d => acqArm_calm (Calm.refl _ d)
  case acqDisarm => exact fun _ => alive_touches (fun _ => rfl) fun d => Calm.placed d fun _ h => acqDisarm_calm h
  case acqForce => exact fun _ => alive_touches (fun _ => rfl) fun d => Calm.placed d fun _ h => acqForce_calm h
  case captureRecordEnd => exact fun _ => awake_touches (fun _ => rfl) fun d => Calm.placed d fun _ h => captureRecordEnd_calm h
  case acqSlotRelease => exact fun _ => alive_touches (fun _ => rfl) fun d => acqSlotRelease_calm (Calm.refl _ d)
  case plsiLevelChange => exact fun _ _ => alive_touches (fun _ => rfl) fun d => plsiLevel_calm (Calm.refl _ d)
  case pulseAccept => exact fun _ => alive_touches (fun _ => rfl) fun d => Calm.placed d fun _ h => pulseAccept_calm h
  case nrgSnapshotRequest => exact fun _ => alive_touches (fun _ => rfl) fun d => nrgSnapRequest_calm (Calm.refl _ d)
  case nrgSnapshotComplete => exact alive_touches (fun _ => rfl) fun d => nrgSnapComplete_calm (Calm.refl _ d)
  case nrgSnapshotRelease => exact fun _ => alive_touches (fun _ => rfl) fun d => nrgSnapRelease_calm (Calm.refl _ d)
  case intervalClose => exact fun _ => awake_touches (fun _ => rfl) fun d => Calm.placed d fun _ h => intervalClose_calm h
  case intervalRecordDrain => exact awake_touches (fun _ => rfl) fun d => intervalRecordDrain_calm (Device.preInterval_calm (Calm.refl _ d))
  case pulseOutputEnable => exact fun _ _ => alive_touches (fun _ => rfl) fun d => Calm.placed d fun _ h => poCfgWrite_calm h
  case pulseOutputDisable => exact fun _ _ => alive_touches (fun _ => rfl) fun d => Calm.placed d fun _ h => poCfgWrite_calm h
  case pulseOutputPhaseEnd => exact fun _ => awake_touches (fun _ => rfl) fun d => Calm.placed d fun _ h => pulsePhaseEnd_calm h
  case ptpMessageReceived => exact fun _ => awake_touches (fun _ => rfl) fun d => ptpMessageReceived_calm (Calm.refl _ d)
  case ptpAnnounceTimeout => exact fun _ => awake_touches (fun _ => rfl) fun d => Calm.placed d fun _ h => ptpAnnounceTimeout_calm h
  case ptpTransmitTimer => exact fun _ _ => awake_touches (fun _ => rfl) fun d => Calm.placed d fun _ h => ptpTransmit_calm h
  case irigFrameReceived => exact fun _ _ _ => alive_touches (fun _ => rfl) fun d => irigFrame_calm (Calm.refl _ d)
  case irigFrameMissing => exact alive_touches (fun _ => rfl) fun d => irigMissing_calm (Calm.refl _ d)
  case ppsInEdge => exact fun _ _ => alive_touches (fun _ => rfl) fun d => ppsEdge_calm (Calm.refl _ d)
  case ppsWindowMissed => exact alive_touches (fun _ => rfl) fun d => ppsMissed_calm (Calm.refl _ d)
  case sourceQualified => exact fun _ => alive_touches (fun _ => rfl) fun d => Calm.placed d fun _ h => sourceQualified_calm h
  case syncLimitCrossing => exact alive_touches (fun _ => rfl) fun d => syncLimit_calm (Calm.refl _ d)
  case unlockIntervalExpiry => exact alive_touches (fun _ => rfl) fun d => unlockExpiry_calm (Calm.refl _ d)
  case tkIncFracWrite => exact fun _ => alive_touches (fun _ => rfl) fun d => tkIncFracWrite_calm (Calm.refl _ d)
  case tkCmdStep => exact fun _ => alive_touches (fun _ => rfl) fun d => tkCmdWrite_calm (Calm.refl _ d)
  case leapApply => exact alive_touches (fun _ => rfl) fun d => leapApply_calm (Calm.refl _ d)
  case ppsOutPulse => exact alive_touches (fun _ => rfl) fun d => ppsOut_calm (Calm.refl _ d)
  case mgtFrameReceived => exact fun _ _ => awake_touches (fun _ => rfl) fun d => mgtFrame_calm (Calm.refl _ d)
  case ethTxtsPop => exact fun _ _ => alive_touches (fun _ => rfl) fun d => Calm.placed d fun _ h => txtsPop_calm h
  case ethTxtsIdRead => exact fun _ => alive_touches (fun _ => rfl) fun d => Calm.placed d fun _ h => txtsIdRead_calm h
  case tkNowNsRead => exact alive_touches (fun _ => rfl) fun d => tkNowRead_calm (Calm.refl _ d)
  case clkTkTick => exact alive_touches (fun _ => rfl) fun d => tkTickAll_calm (Calm.refl _ d)

end Sys2Proof.Machine
end

section
/-!
What a write of an Ethernet port's registers leaves (R37 to R43): ETH_CFG with its legal values, and LINK with all that follows it.
-/
namespace Sys2Proof.Machine

/-- A field that shares no bit with the one stored keeps its value, in whatever register of the row. -/
theorem Device.f_setf_disjoint (d : Device) {x y : RF} (v i j : Nat) (hr : y.reg = x.reg) (h32 : y.hi < 32) (hy : y.lo ≤ y.hi) (hx : x.lo ≤ x.hi)
    (h : y.hi < x.lo ∨ x.hi < y.lo) : (d.setf x v i).f y j = d.f y j := by
  by_cases hk : y.reg.key j = x.reg.key i
  · have hrg (z : Device) : z.rg y.reg j = z.rg y.reg i := by
      unfold Device.rg
      rw [hk, hr]
    have hf (z : Device) : z.f y j = z.f y i := congrArg (bx · y.hi y.lo) (hrg z)
    rw [hf, hf, Device.f_setf_field d x y v i hr h32 hy hx h]
  · exact Device.f_setf_other d x y v i j hk

/-- A field all of whose bits a mask keeps. -/
theorem bx_land_kept (v m : Word) (hi lo : Nat) (h : ∀ j, j < hi - lo + 1 → m.getLsbD (lo + j) = true) : bx (v &&& m) hi lo = bx v hi lo := by
  apply Nat.eq_of_testBit_eq
  intro j
  rw [testBit_bx, testBit_bx, BitVec.getLsbD_and]
  by_cases hj : j < hi - lo + 1
  · rw [h j hj, Bool.and_true]
  · rw [decide_eq_false hj, Bool.false_and, Bool.false_and]

theorem ETH_CFG_key_ne_ETH_STATUS (i p : Nat) : ETH_CFG.key i ≠ ETH_STATUS.key p := by
  simp only [RegDef.key, ETH_CFG, ETH_STATUS]
  simp
  omega

/-- A field of ETH_STATUS stored leaves ETH_CFG. -/
theorem Device.rg_setf_status_cfg (d : Device) {x : RF} (v p i : Nat) (hr : x.reg = ETH_STATUS) : (d.setf x v p).rg ETH_CFG i = d.rg ETH_CFG i := by
  unfold Device.setf
  rw [hr, Device.rg_wr_other _ _ _ _ _ _ (ETH_CFG_key_ne_ETH_STATUS i p)]

/-! LINK. -/

/-- LINK changes with unit states, transmit queues and Rharix links behind it (R229, R230, R353), or stays and nothing happens. -/
theorem Device.linkSet_cases (d : Device) (p : Nat) (up : Bool) : (d.fb ETH_STATUS.LINK p = up ∧ d.linkSet p up = d) ∨
    Calm (Eff.of [] [0x0A, 0x11, 0x15]) (d.setf ETH_STATUS.LINK (b2n up) p) (d.linkSet p up) := by
  unfold Device.linkSet
  split
  case isTrue h => exact .inl ⟨by simpa using h, rfl⟩
  case isFalse h =>
    exact .inr (Device.linksRefresh_calm (Device.portQuiet_calm (Device.unitRefresh_calm (Device.raise_calm (Calm.refl _ _)))))

/-- A one-bit field reads back what was stored. -/
theorem Device.fb_setf_self (d : Device) (x : RF) (b : Bool) (i : Nat) (h : x.lo = x.hi) (h32 : x.hi < 32) : (d.setf x (b2n b) i).fb x i = b := by
  unfold Device.fb
  rw [Device.f_setf_self d x _ i h.le h32, h]
  cases b <;> simp [b2n]

theorem Device.fb_linkSet (d : Device) (p : Nat) (up : Bool) : (d.linkSet p up).fb ETH_STATUS.LINK p = up := by
  rcases d.linkSet_cases p up with ⟨hl, he⟩ | hc
  · rw [he, hl]
  · rw [Device.fb, hc.f_of _ _ (by decide) (by decide) (by decide)]
    exact Device.fb_setf_self d ETH_STATUS.LINK up p rfl (by decide)
/-- Every other field of ETH_STATUS stays. -/
theorem Device.f_linkSet_status (d : Device) (p : Nat) (up : Bool) {x : RF} (i : Nat) (hr : x.reg = ETH_STATUS) (h32 : x.hi < 32) (hx : x.lo ≤ x.hi)
    (h : 0 < x.lo) : (d.linkSet p up).f x i = d.f x i := by
  rcases d.linkSet_cases p up with ⟨-, he⟩ | hc
  · rw [he]
  · rw [hc.f_of _ _ (by rw [hr]; decide) (by rw [hr]; decide) (by rw [hr]; decide)]
    exact Device.f_setf_disjoint d _ p i hr h32 hx (by decide) (.inr h)
/-- ETH_CFG stays. -/
theorem Device.rg_linkSet_cfg (d : Device) (p : Nat) (up : Bool) (i : Nat) : (d.linkSet p up).rg ETH_CFG i = d.rg ETH_CFG i := by
  rcases d.linkSet_cases p up with ⟨-, he⟩ | hc
  · rw [he]
  · rw [hc.rg_of _ _ (by decide) (by decide) (by decide)]
    exact Device.rg_setf_status_cfg d _ _ _ rfl

/-! PRP_MIS. -/

theorem Device.rg_prpShow_cfg (d : Device) (p i : Nat) : (d.prpShow p).rg ETH_CFG i = d.rg ETH_CFG i := by
  exact (Device.rg_setf_status_cfg _ _ _ _ rfl).trans (Device.rg_setf_status_cfg _ _ _ _ rfl)
theorem Device.f_prpShow_status (d : Device) (p : Nat) {x : RF} (i : Nat) (hr : x.reg = ETH_STATUS) (hx : x.lo ≤ x.hi) (h : x.hi < 30) :
    (d.prpShow p).f x i = d.f x i := by
  unfold Device.prpShow
  rw [Device.f_setf_disjoint _ _ _ _ hr (by omega) hx (by decide) (.inl h), Device.f_setf_disjoint _ _ _ _ hr (by omega) hx (by decide) (.inl h)]

/-! ETH_CFG_WRITE. -/

/-- The bits of ETH_CFG that are stored. -/
theorem bx_ethCfg_stored (v : Word) : bx (v &&& 0x3FFF1F07#32) 29 16 = bx v 29 16 ∧ bx (v &&& 0x3FFF1F07#32) 2 0 = bx v 2 0 ∧
    bx (v &&& 0x3FFF1F07#32) 9 8 = bx v 9 8 :=
  ⟨bx_land_kept _ _ _ _ (by decide), bx_land_kept _ _ _ _ (by decide), bx_land_kept _ _ _ _ (by decide)⟩

theorem ethCfgOk_eq_maxlen {v : Word} (hm : bx v 2 0 = 0) (hf : bx v 9 8 = 0) : ethCfgOk v = decide (1518 ≤ bx v 29 16 ∧ bx v 29 16 ≤ 9216) := by
  simp [ethCfgOk, hm, hf]
theorem ethCfgOk_range {v : Word} (h : bx v 29 16 < 1518 ∨ 9216 < bx v 29 16) : ethCfgOk v = false := by
  have hd : decide (1518 ≤ bx v 29 16 ∧ bx v 29 16 ≤ 9216) = false := decide_eq_false (by omega)
  simp only [ethCfgOk, hd, Bool.false_and]

theorem ethCfgWrite_refused {p : Nat} {v : Word} {d : Device} (hp : p < 8) (ha : d.alive = true) (h : ethCfgOk v = false) :
    ethCfgWrite p v d = d.setf ETH_STATUS.CFG_ERR 1 p := by
  unfold ethCfgWrite
  rw [if_neg (by simp [ha, hp]), if_pos (by simp [h])]
/-- A legal write that keeps MODE and FEC. -/
theorem ethCfgWrite_kept {p : Nat} {v : Word} {d : Device} (hp : p < 8) (ha : d.alive = true) (h : ethCfgOk v = true)
    (hm : bx v 2 0 = d.f ETH_CFG.MODE p) (hf : bx v 9 8 = d.f ETH_CFG.FEC p) : ethCfgWrite p v d = (d.wr ETH_CFG p (v &&& 0x3FFF1F07#32)).prpShow p := by
  obtain ⟨-, h2, h3⟩ := bx_ethCfg_stored v
  unfold ethCfgWrite
  rw [if_neg (by simp [ha, hp]), if_neg (by simp [h])]
  exact if_neg (by rw [h2, h3]; simp [hm, hf])
/-- A legal write that changes MODE or FEC: the link starts anew (R39). -/
theorem ethCfgWrite_restarts {p : Nat} {v : Word} {d : Device} (hp : p < 8) (ha : d.alive = true) (h : ethCfgOk v = true)
    (hmf : bx v 2 0 ≠ d.f ETH_CFG.MODE p ∨ bx v 9 8 ≠ d.f ETH_CFG.FEC p) : ethCfgWrite p v d =
    (((((d.wr ETH_CFG p (v &&& 0x3FFF1F07#32)).prpShow p).setf ETH_STATUS.FEC_LOCK 0 p).setf ETH_STATUS.BLOCK_LOCK 0 p).setf ETH_STATUS.AN_DONE 0 p).linkSet p false := by
  obtain ⟨-, h2, h3⟩ := bx_ethCfg_stored v
  unfold ethCfgWrite
  rw [if_neg (by simp [ha, hp]), if_neg (by simp [h])]
  exact if_pos (by rw [h2, h3]; exact hmf)
/-- A legal value is stored. -/
theorem rg_ethCfgWrite {p : Nat} {v : Word} {d : Device} (hp : p < 8) (ha : d.alive = true) (h : ethCfgOk v = true) :
    (ethCfgWrite p v d).rg ETH_CFG p = v &&& 0x3FFF1F07#32 := by
  by_cases hmf : bx v 2 0 = d.f ETH_CFG.MODE p ∧ bx v 9 8 = d.f ETH_CFG.FEC p
  · rw [ethCfgWrite_kept hp ha h hmf.1 hmf.2, Device.rg_prpShow_cfg, Device.rg_wr_self]
  · rw [ethCfgWrite_restarts hp ha h (not_and_or.mp hmf), Device.rg_linkSet_cfg]
    rw [Device.rg_setf_status_cfg _ _ _ _ rfl, Device.rg_setf_status_cfg _ _ _ _ rfl, Device.rg_setf_status_cfg _ _ _ _ rfl, Device.rg_prpShow_cfg,
      Device.rg_wr_self]

/-- Settles O9: the range decides whether a write is legal, and a legal one is stored. -/
theorem maximumLengthWritesAct : Obligations.MaximumLengthWritesAct := by
  refine ⟨fun s p v ha hp => ⟨fun hr => ?refused, fun hlo hhi hm hf => ?stored⟩, fun p hp => ?reset⟩
  case refused => exact effect_alive rfl ha (ethCfgWrite_refused hp ha (ethCfgOk_range hr))
  case stored =>
    refine effect_alive rfl ha ?_
    have hok : ethCfgOk v = true := (ethCfgOk_eq_maxlen hm hf).trans (decide_eq_true ⟨hlo, hhi⟩)
    rw [Device.f, show ETH_CFG.MAXLEN.reg = ETH_CFG from rfl, rg_ethCfgWrite hp ha hok]
    exact (bx_ethCfg_stored v).1
  case reset =>
    have hkey : ETH_CFG.key p < selStride := (ETH_CFG.key_mono (Nat.le_of_lt_succ hp)).trans_lt (by decide)
    exact congrArg (bx · 29 16) (Device.reset_rg hkey)

end Sys2Proof.Machine
end

section
/-!
What an Ethernet port receives (R42 to R54, Tables 2.1 and 2.2), and its link.
-/
namespace Sys2Proof.Machine

/-! The receive side of a port. -/

theorem Device.prx_congr {d a : Device} (h : d.ing = a.ing) (q : Nat) : d.prx q = a.prx q := by
  unfold Device.prx
  rw [h]
@[simp] theorem Device.prx_setPrx_self (d : Device) (p : Nat) (x : PortRx) : (d.setPrx p x).prx p = x := mgetD_mset_self _ _ _ _
theorem Device.prx_setPrx_other (d : Device) {p q : Nat} (x : PortRx) (h : q ≠ p) : (d.setPrx p x).prx q = d.prx q := mgetD_mset_other _ _ _ _ _ h

theorem Device.raise_ing (d : Device) (e : EvId) (l : List Nat) : (d.raise e l).ing = d.ing := by simp
theorem Device.count_ing (d : Device) (c : Ctr) (i : Nat) : (d.count c i).ing = d.ing := by simp
theorem Device.irqRefresh_none (d : Device) (k : Nat) : Calm Eff.none d (d.irqRefresh k) := Device.irqRefresh_calm (Calm.refl _ _)
theorem Device.irqRefresh_ing (d : Device) (k : Nat) : (d.irqRefresh k).ing = d.ing := eq_of_none (d.irqRefresh_none k).ing
theorem Device.hwm_ing (d : Device) (x : RF) (v i : Nat) : (d.hwm x v i).ing = d.ing := by
  unfold Device.hwm
  split
  · simp
  · rfl
theorem Device.fifoShow_ing (d : Device) (p : Nat) : (d.fifoShow p).ing = d.ing := (Device.hwm_ing _ _ _ _).trans (by simp)
/-- The fill level shown leaves the counters. -/
theorem Device.ctr_fifoShow (d : Device) (p : Nat) (c : Ctr) (i : Nat) (h : c.base + i * c.stride ≠ ETH_FIFO.key p) : (d.fifoShow p).ctr c i = d.ctr c i :=
  (Device.ctr_hwm _ c i ETH_FIFO.HWM _ p h).trans (Device.ctr_setf d c i ETH_FIFO.LEVEL _ p h)

/-- Octets are counted in 48 bits beside the counters (R81). -/
theorem Device.rxOctets_ing (d : Device) (p l : Nat) :
    (d.rxOctets p l).ing = (d.setPrx p { d.prx p with octets := ((d.prx p).octets + l) % 2 ^ 48 }).ing := by
  unfold Device.rxOctets
  extract_lets x n d1
  split
  · rfl
  · rw [Device.raise_ing, Device.irqRefresh_ing]
    rfl
theorem Device.ctr_rxOctets (d : Device) (p l : Nat) (c : Ctr) (i : Nat) (h1 : c.base / 65536 ≠ 0x17) (h2 : c.base / 65536 ≠ 0x19)
    (h : c.base + i * c.stride ≠ ETH_HALF.key p) : (d.rxOctets p l).ctr c i = d.ctr c i := by
  unfold Device.rxOctets
  extract_lets x n d1
  split
  · rfl
  · rw [Device.ctr_raise _ _ _ c i h1 h2, (Device.irqRefresh_none _ _).ctr_eq c i h1 h2]
    exact Device.ctr_setf d1 c i ETH_HALF.OCTETS 1 p h

/-- A frame that finds room, the first since RESET, is stored. -/
theorem Device.fifoWrite_room {d : Device} {p l : Nat} {b : List Byte} (hl : (d.prx p).lastIn = none) (hc : fifoBytes (d.prx p) + b.length + 16 ≤ fifoCap) :
    d.fifoWrite p l b = (((d.setPrx p { d.prx p with fifo := (d.prx p).fifo ++ [⟨b, d.now, l⟩], lastIn := some d.now }).count RX_FRAMES_OK p).rxOctets p l).fifoShow p := by
  unfold Device.fifoWrite
  simp only [hl]
  rw [if_neg (by simp), if_neg (by omega)]

/-- What a stored frame leaves: the frame and its octets in its own port, and one count. -/
theorem Device.fifoWrite_stores {d : Device} {p l : Nat} {b : List Byte} (hl : (d.prx p).lastIn = none) (hc : fifoBytes (d.prx p) + b.length + 16 ≤ fifoCap) :
    ((d.fifoWrite p l b).prx p).fifo = (d.prx p).fifo ++ [⟨b, d.now, l⟩] ∧ ((d.fifoWrite p l b).prx p).octets = ((d.prx p).octets + l) % 2 ^ 48 ∧
    (d.fifoWrite p l b).ctr RX_FRAMES_OK p = (d.ctr RX_FRAMES_OK p + 1) % 2 ^ 32 ∧ ∀ q, q ≠ p → (d.fifoWrite p l b).prx q = d.prx q := by
  rw [Device.fifoWrite_room hl hc]
  generalize hx : ({ d.prx p with fifo := (d.prx p).fifo ++ [⟨b, d.now, l⟩], lastIn := some d.now } : PortRx) = x
  have hcount (q : Nat) : ((d.setPrx p x).count RX_FRAMES_OK p).prx q = (d.setPrx p x).prx q := Device.prx_congr (Device.count_ing _ _ _) q
  have hall (q : Nat) := (Device.prx_congr (Device.fifoShow_ing (((d.setPrx p x).count RX_FRAMES_OK p).rxOctets p l) p) q).trans
    (Device.prx_congr (Device.rxOctets_ing _ p l) q)
  refine ⟨?_, ?_, ?_, fun q hq => ?_⟩
  · rw [hall, Device.prx_setPrx_self, hcount, Device.prx_setPrx_self, ← hx]
  · rw [hall, Device.prx_setPrx_self, hcount, Device.prx_setPrx_self, ← hx]
  · rw [Device.ctr_fifoShow _ _ _ _ (by simp [RX_FRAMES_OK, RegDef.key, ETH_FIFO]),
      Device.ctr_rxOctets _ _ _ _ _ (by decide) (by decide) (by simp [RX_FRAMES_OK, RegDef.key, ETH_HALF]),
      Device.ctr_count_self _ _ _ (by decide) (by decide) (by simp [RX_FRAMES_OK])]
    rfl
  · rw [hall, Device.prx_setPrx_other _ _ hq, hcount, Device.prx_setPrx_other _ _ hq]

/-! ETH_FRAME_RECEIVED: one equation per outcome. -/

section
variable {d : Device} {p : Nat} {b : List Byte} {code : Bool}

/-- The port takes frames: it has link, in a mode that listens, and the frame has octets. -/
def Device.takesFrame (d : Device) (p : Nat) (b : List Byte) : Prop := p < 8 ∧ d.listens = true ∧ d.fb ETH_STATUS.LINK p = true ∧ b ≠ []

theorem Device.takesFrame.gate (h : d.takesFrame p b) : ¬(p ≥ 8 ∨ (!d.listens) = true ∨ (!d.fb ETH_STATUS.LINK p) = true ∨ b.isEmpty = true) := by
  obtain ⟨h1, h2, h3, h4⟩ := h
  simp [h1, h2, h3, h4]

theorem ethFrame_codeErr (h : d.takesFrame p b) (hc : code = true) : ethFrame p b code d = d.count RX_CODE_ERR p := by
  rw [ethFrame, if_neg h.gate, if_pos hc]
theorem ethFrame_runt (h : d.takesFrame p b) (hc : code = false) (hl : b.length < 64) : ethFrame p b code d = d.count RX_RUNT p := by
  rw [ethFrame, if_neg h.gate, if_neg (by simp [hc]), if_pos hl]
theorem ethFrame_oversize (h : d.takesFrame p b) (hc : code = false) (hl : 64 ≤ b.length) (hm : d.f ETH_CFG.MAXLEN p < b.length) :
    ethFrame p b code d = d.count RX_OVERSIZE p := by
  rw [ethFrame, if_neg h.gate, if_neg (by simp [hc]), if_neg (Nat.not_lt.mpr hl), if_pos hm]
theorem ethFrame_badFcs (h : d.takesFrame p b) (hc : code = false) (hl : 64 ≤ b.length) (hm : b.length ≤ d.f ETH_CFG.MAXLEN p) (hf : fcsGood b = false) :
    ethFrame p b code d = d.count RX_FCS_ERR p := by
  rw [ethFrame, if_neg h.gate, if_neg (by simp [hc]), if_neg (Nat.not_lt.mpr hl), if_neg (Nat.not_lt.mpr hm), if_pos (by simp [hf])]
/-- A good frame that passes the filters of Table 2.2 on a port without PRP goes to the FIFO without its FCS. -/
theorem ethFrame_passed (h : d.takesFrame p b) (hc : code = false) (hl : 64 ≤ b.length) (hm : b.length ≤ d.f ETH_CFG.MAXLEN p) (hf : fcsGood b = true)
    (hpause : isPause b = false) (hv : d.vlanPass p (ethParse (b.take (b.length - 4))) = true)
    (ha : d.addrPass p (ethParse (b.take (b.length - 4))).dst = true) (hprp : d.prpRuns p = false) :
    ethFrame p b code d = d.fifoWrite p b.length (b.take (b.length - 4)) := by
  rw [ethFrame, if_neg h.gate, if_neg (by simp [hc]), if_neg (Nat.not_lt.mpr hl), if_neg (Nat.not_lt.mpr hm), if_neg (by simp [hf]),
    if_neg (by simp [hpause])]
  simp only [hv, ha, Device.prpStep, hprp, Bool.not_true, Bool.not_false, Bool.false_eq_true, if_false, if_true]

end

/-- A frame that is dropped is counted, and nothing of it is kept. -/
theorem Device.count_drop (d : Device) (c : Ctr) (p : Nat) (hb : c.base / 65536 = 4) (hh : c.base ≠ c.half) :
    (d.count c p).ing = d.ing ∧ (d.count c p).ctr c p = (d.ctr c p + 1) % 2 ^ 32 :=
  ⟨d.count_ing c p, Device.ctr_count_self d c p (by omega) (by omega) (by omega)⟩

/-! The link. -/

theorem Device.now_of_listens {d : Device} (h : d.listens = true) : d.now = d.tk.now := by
  unfold Device.now
  refine if_neg fun hm => ?_
  simp [Device.listens, hm] at h

/-- ETH_LINK_CHANGE shows the link by the port's mode, and BLOCK_LOCK in every mode but 0 (R37). -/
theorem ethLinkChange_shows {d : Device} {p : Nat} (hp : p < 8) (ha : d.alive = true) (up an bl fl slow : Bool) :
    (ethLinkChange p up an bl fl slow d).fb ETH_STATUS.LINK p = (up && decide (d.f ETH_CFG.MODE p ≠ 0) && !(decide (d.f ETH_CFG.MODE p = 2) && slow)) ∧
    (ethLinkChange p up an bl fl slow d).fb ETH_STATUS.BLOCK_LOCK p = (decide (d.f ETH_CFG.MODE p ≠ 0) && bl) := by
  unfold ethLinkChange
  rw [if_neg (by simp [hp, ha])]
  refine ⟨Device.fb_linkSet _ _ _, ?_⟩
  rw [Device.fb, Device.f_linkSet_status _ _ _ _ rfl (by decide) (by decide) (by decide),
    Device.f_setf_disjoint _ (x := ETH_STATUS.FEC_LOCK) (y := ETH_STATUS.BLOCK_LOCK) _ _ _ rfl (by decide) (by decide) (by decide) (by decide)]
  exact Device.fb_setf_self _ ETH_STATUS.BLOCK_LOCK _ p rfl (by decide)

/-- A legal ETH_CFG keeps the link with MODE and FEC, and drops it and AN_DONE with a change of either (R39). -/
theorem ethCfgWrite_link {p : Nat} {v : Word} {d : Device} (hp : p < 8) (ha : d.alive = true) (h : ethCfgOk v = true) :
    (bx v 2 0 = d.f ETH_CFG.MODE p → bx v 9 8 = d.f ETH_CFG.FEC p → (ethCfgWrite p v d).fb ETH_STATUS.LINK p = d.fb ETH_STATUS.LINK p) ∧
    (bx v 2 0 ≠ d.f ETH_CFG.MODE p ∨ bx v 9 8 ≠ d.f ETH_CFG.FEC p →
      (ethCfgWrite p v d).fb ETH_STATUS.LINK p = false ∧ (ethCfgWrite p v d).fb ETH_STATUS.AN_DONE p = false) := by
  refine ⟨fun hm hf => ?_, fun hmf => ?_⟩
  · rw [ethCfgWrite_kept hp ha h hm hf, Device.fb, Device.f_prpShow_status _ _ _ rfl (by decide) (by decide), Device.f,
      show ETH_STATUS.LINK.reg = ETH_STATUS from rfl, Device.rg_wr_other _ _ _ _ _ _ (ETH_CFG_key_ne_ETH_STATUS p p).symm]
    rfl
  · rw [ethCfgWrite_restarts hp ha h hmf]
    refine ⟨Device.fb_linkSet _ _ _, ?_⟩
    rw [Device.fb, Device.f_linkSet_status _ _ _ _ rfl (by decide) (by decide) (by decide)]
    exact Device.fb_setf_self _ ETH_STATUS.AN_DONE false p rfl (by decide)

/-- Settles O52: the frame's outcome of Tables 2.1 and 2.2, then what the port's registers show. -/
theorem portCommandsAct : Obligations.PortCommandsAct := by
  intro s p ha hp
  refine ⟨fun b code haw hli hlk hne => ?frames, fun v hv => ?legal, fun v hv => ?illegal, fun up an bl fl slow => ?link⟩
  case frames =>
    have ht : s.dev.takesFrame p b := ⟨hp, hli, hlk, hne⟩
    refine ⟨fun hc => ?codeErr, fun hc hl => ?runt, fun hc hl hm => ?oversize, fun hc hl hm hf => ?badFcs,
      fun hc hl hm hf hpause hv had hprp hlast hroom => ?stored⟩
    case codeErr => exact effect_awake rfl haw (by rw [ethFrame_codeErr ht hc]; exact Device.count_drop _ _ _ (by decide) (by decide))
    case runt => exact effect_awake rfl haw (by rw [ethFrame_runt ht hc hl]; exact Device.count_drop _ _ _ (by decide) (by decide))
    case oversize => exact effect_awake rfl haw (by rw [ethFrame_oversize ht hc hl hm]; exact Device.count_drop _ _ _ (by decide) (by decide))
    case badFcs => exact effect_awake rfl haw (by rw [ethFrame_badFcs ht hc hl hm hf]; exact Device.count_drop _ _ _ (by decide) (by decide))
    case stored =>
      refine effect_awake rfl haw ?_
      rw [ethFrame_passed ht hc hl hm hf hpause hv had hprp, ← Device.now_of_listens hli]
      exact Device.fifoWrite_stores hlast hroom
  case legal => exact effect_alive rfl ha ⟨rg_ethCfgWrite hp ha hv, ethCfgWrite_link hp ha hv⟩
  case illegal =>
    refine effect_alive rfl ha ?_
    rw [ethCfgWrite_refused hp ha hv]
    exact ⟨Device.f_setf_self _ ETH_STATUS.CFG_ERR 1 p (by decide) (by decide), Device.rg_setf_status_cfg _ _ _ _ rfl⟩
  case link => exact effect_alive rfl ha (ethLinkChange_shows hp ha up an bl fl slow)

end Sys2Proof.Machine
end

section
/-!
Accesses of BAR0 (R5, R6, R81, R389): what a read returns, clears and latches, what a refused access counts, and what a plain write leaves.
-/
namespace Sys2Proof.Machine

/-! Counters of the host interface, whose range also holds the interrupt bits of the blocks. -/

theorem Device.ctr_congr {d a : Device} (h : d.regs = a.regs) (c : Ctr) (i : Nat) : d.ctr c i = a.ctr c i := by
  unfold Device.ctr Device.blkRegs
  rw [h]
theorem Device.ctr_putReg_self (d : Device) (c : Ctr) (i : Nat) (v : Word) : (d.putReg (c.base / 65536) (c.base + i * c.stride) v).ctr c i = v.toNat := by
  simp [Device.ctr, Device.putReg, Device.blkRegs]

/-- A count stores the counter, and then at most its half bit with an event behind it (R81). -/
theorem Device.count_cases (d : Device) (c : Ctr) (i : Nat) :
    d.count c i = d.putReg (c.base / 65536) (c.base + i * c.stride) (w32 ((d.ctr c i + 1) % 4294967296)) ∨
    ∃ v, Calm Eff.none ((d.putReg (c.base / 65536) (c.base + i * c.stride) (w32 ((d.ctr c i + 1) % 4294967296))).putReg (c.base / 65536) (c.half + i * c.stride) v)
      (d.count c i) := by
  unfold Device.count countWith
  extract_lets a old new d1
  split
  · exact .inl rfl
  · split
    · exact .inl rfl
    · exact .inr ⟨_, raiseF_calm (Device.irqRefresh_calm (Calm.refl _ _))⟩

/-- A counter of the host interface is not among the interrupt bits. -/
theorem Calm.ctr_hif {a d : Device} (h : Calm Eff.none a d) (c : Ctr) (i : Nat) (hb : c.base / 65536 = 0x17) (hk : c.base + i * c.stride ≠ HIF_BLK_IRQ.base) :
    d.ctr c i = a.ctr c i := by
  unfold Device.ctr mgetD
  rw [hb, eq_of_none h.hifRegs _ hk]

theorem Device.ctr_badAccess (d : Device) : (d.count HIF_BAD_ACCESS).ctr HIF_BAD_ACCESS = (d.ctr HIF_BAD_ACCESS + 1) % 2 ^ 32 := by
  have hv : (w32 ((d.ctr HIF_BAD_ACCESS + 1) % 4294967296)).toNat = (d.ctr HIF_BAD_ACCESS + 1) % 2 ^ 32 := by simp [w32]
  rcases d.count_cases HIF_BAD_ACCESS 0 with he | ⟨v, hc⟩
  · rw [he, Device.ctr_putReg_self, hv]
  · rw [hc.ctr_hif HIF_BAD_ACCESS 0 (by decide) (by decide), Device.ctr_putReg_key _ _ _ _ _ _ (by decide), Device.ctr_putReg_self, hv]

theorem Device.count_lastRead (d : Device) (c : Ctr) (i : Nat) : (d.count c i).lastRead = d.lastRead := by simp
/-- A refused access is counted; a read of it returns 0 (R389). -/
theorem Device.bar0Refuse_counts (d : Device) (w : Bool) : (d.bar0Refuse w).ctr HIF_BAD_ACCESS = (d.ctr HIF_BAD_ACCESS + 1) % 2 ^ 32 ∧
    (w = false → (d.bar0Refuse w).lastRead = 0#32) ∧ (w = true → (d.bar0Refuse w).lastRead = d.lastRead) := by
  cases w with
  | false => exact ⟨d.ctr_badAccess, fun _ => rfl, fun h => absurd h (by decide)⟩
  | true => exact ⟨d.ctr_badAccess, fun h => absurd h (by decide), fun _ => d.count_lastRead HIF_BAD_ACCESS 0⟩

/-! Reads. -/

theorem busRead_refused {a : Nat} {d : Device} (h : badAccess a 4 = true) : busRead a d = d.bar0Refuse false := by
  rw [busRead, if_pos h]
/-- Two refused halves of a 64-bit read are counted one by one. -/
theorem busReadPair_refused {a : Nat} {d : Device} (h1 : badAccess a 4 = true) (h2 : badAccess (a + 4) 4 = true) :
    (busReadPair a d).lastRead = 0#32 ∧ (busReadPair a d).readHi = 0#32 ∧ (busReadPair a d).ctr HIF_BAD_ACCESS = (d.ctr HIF_BAD_ACCESS + 2) % 2 ^ 32 := by
  obtain ⟨hc1, hz1, -⟩ := d.bar0Refuse_counts false
  obtain ⟨hc2, hz2, -⟩ := (d.bar0Refuse false).bar0Refuse_counts false
  have hregs : (busReadPair a d).regs = ((d.bar0Refuse false).bar0Refuse false).regs := by
    simp only [busReadPair, busRead_refused h1, busRead_refused h2]
  refine ⟨?_, ?_, ?_⟩
  · simp only [busReadPair, busRead_refused h1, hz1 rfl]
  · simp only [busReadPair, busRead_refused h1, busRead_refused h2, hz2 rfl]
  · rw [Device.ctr_congr hregs, hc2, hc1]
    omega
/-- A read of a register other than TK_NOW_NS and the time-stamp FIFO's. -/
theorem busRead_register {a i : Nat} {r : RegDef} {d : Device} (h : badAccess a 4 = false) (ho : ¬(a / 65536 = 4 ∧ a % 0x2000 = 0x180))
    (hf : findReg a = some (r, i)) (h1 : r.base ≠ 0x020020) (h2 : r.base ≠ 0x041014) :
    busRead a d = { ((d.rcClear r (d.instOf r i)).hiLatch r.base) with lastRead := d.readNow a } := by
  rw [busRead, if_neg (by simp [h]), if_neg ho]
  simp only [hf]

/-- Registers with neither a clearing nor a latching read. -/
theorem Device.hiLatch_other {d : Device} {b : Nat} (h1 : b ≠ 0x0E0010) (h2 : b ≠ 0x0E0018) (h3 : b ≠ 0x0F0010) (h4 : b ≠ 0x0F0018) : d.hiLatch b = d := by
  unfold Device.hiLatch
  split
  · exact absurd rfl h1
  · exact absurd rfl h2
  · exact absurd rfl h3
  · exact absurd rfl h4
  · rfl
theorem Device.rg_hiLatch (d : Device) (b : Nat) (q : RegDef) (j : Nat) : (d.hiLatch b).rg q j = d.rg q j := by
  unfold Device.hiLatch
  split <;> rfl

theorem Device.rcClear_none {d : Device} {r : RegDef} (i : Nat) (hb : r.base ≠ 0x08002C) (h : ∀ f ∈ r.fields, f.acc ≠ .rc) : d.rcClear r i = d := by
  have hnone : r.fields.find? (fun f => decide (f.acc = .rc)) = none := List.find?_eq_none.mpr fun f hf => by simp [h f hf]
  simp only [Device.rcClear, if_neg hb, hnone]
theorem Device.rcClear_field {d : Device} {r : RegDef} {f : Fld} (i : Nat) (hb : r.base ≠ 0x08002C)
    (h : r.fields.find? (fun f => decide (f.acc = .rc)) = some f) : d.rcClear r i = d.wr r i (bset (d.rg r i) f.hi f.lo 0) := by
  simp only [Device.rcClear, if_neg hb, h]
/-- MAX_SHORT of a heat is kept with its run (R5). -/
theorem Device.rcClear_maxShort {d : Device} {r : RegDef} {x : HeatRun} (i : Nat) (hb : r.base = 0x08002C) (h : d.run? i = some x) :
    d.rcClear r i = d.setRun i { x with maxShort := 0 } := by
  simp only [Device.rcClear, if_pos hb, h]
/-- A clearing read leaves the sample and lap numbers whose high words another read latches. -/
theorem Device.rcClear_latches (d : Device) (r : RegDef) (i : Nat) : (d.rcClear r i).osm = d.osm ∧ (d.rcClear r i).isl = d.isl := by
  unfold Device.rcClear
  split
  · split <;> simp
  · split <;> simp

/-! Writes. -/

theorem busWrite_plain {a i : Nat} {v : Word} {r : RegDef} {d : Device} (h : badAccess a 4 = false) (hf : findReg a = some (r, i))
    (hs : specialWrite r.base (d.instOf r i) v d = none) : busWrite a v d = (d.plainWrite r (d.instOf r i) v).irqRefresh ((blockOf a).getD 0) := by
  rw [busWrite, if_neg (by simp [h])]
  simp only [hf, hs]

theorem Device.rg_vector (d : Device) (v : Nat) (q : RegDef) (j : Nat) : (d.vector v).rg q j = d.rg q j := by
  unfold Device.vector Device.toHost
  split
  · rfl
  · split <;> rfl
/-- Interrupt bits brought up to date leave every other register. -/
theorem Device.rg_irqRefresh (d : Device) (k : Nat) (q : RegDef) (j : Nat) (h : q.key j ≠ HIF_BLK_IRQ.key 0) : (d.irqRefresh k).rg q j = d.rg q j := by
  unfold Device.irqRefresh
  extract_lets r p d1
  have hw : d1.rg q j = d.rg q j := Device.rg_wr_other d HIF_BLK_IRQ q 0 j _ h
  split
  · rfl
  · split
    · rw [Device.rg_vector, hw]
    · exact hw

/-- Settles O14: each access by the equation of its case. -/
theorem registerAccessesAct : Obligations.RegisterAccessesAct := by
  intro s ha
  refine ⟨fun port hp => ?octets, fun a r i hb ho hf h1 h2 => ?read, fun w a size hb h8 => ?bad, fun a h4 => ?pair, fun a v r i hb hf hs hk => ?write⟩
  case octets =>
    refine effect_alive rfl ha ?_
    rw [counterLoRead, Nat.mod_eq_of_lt hp]
    exact ⟨rfl, congrArg PortRx.octLatch (Device.prx_setPrx_self s.dev port _)⟩
  case read =>
    refine effect_alive rfl ha ?_
    obtain ⟨hosm, hisl⟩ := s.dev.rcClear_latches r (s.dev.instOf r i)
    rw [busRead_register hb ho hf h1 h2]
    refine ⟨rfl, fun hn hrc => ?plain, fun f hms hfind => ?clears, fun x hms hx => ?maxShort, fun hx => ?sample, fun hx => ?start, fun hx => ?graph,
      fun hx => ?map⟩
    case plain =>
      simp only [List.mem_cons, List.not_mem_nil, or_false, not_or] at hn
      obtain ⟨n1, n2, n3, n4, n5⟩ := hn
      rw [Device.rcClear_none _ n1 hrc, Device.hiLatch_other n2 n3 n4 n5]
    case clears =>
      rw [Device.rcClear_field _ hms hfind]
      exact (Device.rg_hiLatch _ _ _ _).trans (Device.rg_wr_self _ _ _ _)
    case maxShort =>
      rw [Device.rcClear_maxShort _ hms hx, hms]
      exact ⟨{ x with maxShort := 0 }, mget_mset_self _ _ _, rfl⟩
    case sample =>
      rw [hx, ← hosm]
      rfl
    case start =>
      rw [hx, ← hosm]
      rfl
    case graph =>
      rw [hx, ← hisl]
      rfl
    case map =>
      rw [hx, ← hisl]
      rfl
  case bad =>
    refine effect_alive rfl ha ?_
    have hpair : ¬(!w && decide (size = 8 ∧ a % 4 = 0)) = true := by simpa using h8
    rw [bar0Bad, if_neg hpair, if_pos hb]
    exact s.dev.bar0Refuse_counts w
  case pair =>
    refine effect_alive rfl ha ?_
    rw [bar0Bad, if_pos (by simp [h4])]
    refine ⟨rfl, rfl, fun hb1 hb2 => ?_⟩
    exact busReadPair_refused hb1 hb2
  case write =>
    refine effect_alive rfl ha ?_
    rw [busWrite_plain hb hf hs]
    refine ⟨?_, fun q j hq hqi => ?_⟩
    · rw [Device.rg_irqRefresh _ _ _ _ hk]
      exact Device.rg_wr_self _ _ _ _
    · rw [Device.rg_irqRefresh _ _ _ _ hqi]
      exact Device.rg_wr_other _ _ _ _ _ _ hq

end Sys2Proof.Machine
end

section
/-!
The parser's turn (R55): what taking a frame leaves, and that it does not change the frame's class.
-/
namespace Sys2Proof.Machine

theorem Device.now_of_racing {d : Device} (h : d.racing = true) : d.now = d.tk.now := by
  refine Device.now_of_listens ?_
  simp only [Device.racing, decide_eq_true_eq] at h
  simp [Device.listens, h]

/-- The fill level shown leaves every other register. -/
theorem Device.rg_fifoShow (d : Device) (p : Nat) (q : RegDef) (j : Nat) (h : q.key j ≠ ETH_FIFO.key p) : (d.fifoShow p).rg q j = d.rg q j := by
  unfold Device.fifoShow Device.hwm
  extract_lets k
  have hs (x : Device) (y : RF) (v : Nat) (hy : y.reg = ETH_FIFO) : (x.setf y v p).rg q j = x.rg q j := by
    unfold Device.setf
    rw [hy, Device.rg_wr_other _ _ _ _ _ _ h]
  split
  · rw [hs _ _ _ rfl, hs _ _ _ rfl]
  · rw [hs _ _ _ rfl]

/-- Steps 1 to 4 go by the tables and three fields of the configuration (Table 2.5). -/
theorem Device.classify_congr {d a : Device} {p : Nat} (b : List Byte) (ht : d.tables = a.tables) (hs : d.fb ETH_CFG.STATION p = a.fb ETH_CFG.STATION p)
    (hc : d.f ING_L4PORT.UDP_C37 = a.f ING_L4PORT.UDP_C37) (hr : d.f RXL_UDP.PORT = a.f RXL_UDP.PORT) : d.classify p b = a.classify p b := by
  have hp : d.portAddrs p = a.portAddrs p := by
    unfold Device.portAddrs Device.ents
    rw [ht]
  have hl (k : IpPkt) : d.l4Parse p k = a.l4Parse p k := by
    unfold Device.l4Parse Device.ipMine
    rw [hp, hc, hr]
  unfold Device.classify
  simp only [hs, hl]

/-- With no word marked, a frame is read from the FIFO array as it was written (R460). -/
theorem Device.fifoRead_clean {d : Device} (h : d.mem.bad = []) (p : Nat) (f : RxFrame) : d.fifoRead p f false = (true, d) := by
  have hclean (loc : Nat) : d.memClean 3 loc = d := by
    have hm : mdel d.mem.bad (badKey 3 loc) = d.mem.bad := by
      rw [h]
      rfl
    unfold Device.memClean
    rw [hm]
    rfl
  have hbad (loc : Nat) : d.badAt 3 loc = 0 := by
    unfold Device.badAt
    rw [h]
    rfl
  have hread (loc : Nat) : d.memRead 3 loc p = d := by
    unfold Device.memRead
    rw [h]
    rfl
  simp only [Device.fifoRead, hbad, hread]
  simp [hclean]

/-- The device as the parser starts on the frame it has taken: the frame counted and the next port first in turn. -/
def Device.turned (d : Device) (p : Nat) : Device :=
  { d.fifoTake p with ing := { (d.fifoTake p).ing with rr := (p + 1) % 8 } }.count ING_FRAMES_IN

theorem parserTurn_parses {d : Device} {p : Nat} {f : RxFrame} (hl : d.listens = true) (hn : d.nextFrame = some (p, f)) (hb : d.mem.bad = []) :
    parserTurn false d = (d.turned p).parse p f := by
  have hm : (d.fifoTake p).mem = d.mem := left_alone (Device.fifoTake_calm (e := Eff.of [] [4]) (Calm.refl _ d)).mem rfl
  unfold parserTurn
  rw [if_neg (by simp [hl])]
  simp only [hn]
  rw [Device.fifoRead_clean (by rw [← hb, ← hm])]
  rfl

theorem Device.fifoTake_fifo (d : Device) (p : Nat) : ((d.fifoTake p).prx p).fifo = (d.prx p).fifo.drop 1 := by
  unfold Device.fifoTake
  rw [Device.prx_congr (Device.fifoShow_ing _ p), Device.prx_setPrx_self]
theorem Device.fifoTake_queues (d : Device) (p : Nat) : (d.fifoTake p).ing.ptpq = d.ing.ptpq ∧ (d.fifoTake p).ing.tcpq = d.ing.tcpq := by
  unfold Device.fifoTake
  rw [Device.fifoShow_ing]
  exact ⟨rfl, rfl⟩

theorem Device.count_tables (d : Device) (c : Ctr) (i : Nat) : (d.count c i).tables = d.tables := by simp
theorem Device.count_pfa (d : Device) (c : Ctr) (i : Nat) : (d.count c i).pfa = d.pfa := by simp
/-- What a turn has done before the frame's class is known. -/
theorem Device.turned_fields (d : Device) (p : Nat) : ((d.turned p).prx p).fifo = (d.prx p).fifo.drop 1 ∧ (d.turned p).ing.rr = (p + 1) % 8 ∧
    (d.turned p).ctr ING_FRAMES_IN = (d.ctr ING_FRAMES_IN + 1) % 2 ^ 32 ∧ (d.turned p).tables = d.tables ∧ (d.turned p).pfa = d.pfa ∧
    (d.turned p).ing.ptpq = d.ing.ptpq ∧ (d.turned p).ing.tcpq = d.ing.tcpq := by
  have hc : Calm (Eff.of [] [4]) d (d.fifoTake p) := Device.fifoTake_calm (Calm.refl _ d)
  have hi : (d.turned p).ing = { (d.fifoTake p).ing with rr := (p + 1) % 8 } := Device.count_ing _ _ _
  obtain ⟨hq1, hq2⟩ := d.fifoTake_queues p
  refine ⟨?_, by rw [hi], ?_, ?_, ?_, by rw [hi, ← hq1], by rw [hi, ← hq2]⟩
  · rw [← d.fifoTake_fifo p, Device.prx, hi]
    rfl
  · rw [Device.turned, Device.ctr_count_self _ _ _ (by decide) (by decide) (by decide), ← hc.ctr_of ING_FRAMES_IN 0 (by decide) (by decide) (by decide)]
    rfl
  · exact (Device.count_tables _ _ _).trans (left_alone hc.tables rfl)
  · exact (Device.count_pfa _ _ _).trans (left_alone hc.pfa rfl)
/-- Taking a frame leaves what steps 1 to 4 go by. -/
theorem Device.classify_turned (d : Device) (p : Nat) (b : List Byte) : (d.turned p).classify p b = d.classify p b := by
  obtain ⟨-, -, -, ht, -⟩ := d.turned_fields p
  have htake : Calm (Eff.of [] [4]) d (d.fifoTake p) := Device.fifoTake_calm (Calm.refl _ d)
  have hcount : Calm (Eff.of [] [6]) { d.fifoTake p with ing := { (d.fifoTake p).ing with rr := (p + 1) % 8 } } (d.turned p) :=
    Device.count_calm (Calm.refl _ _)
  refine Device.classify_congr b ht ?_ ?_ ?_
  · have hs : (d.fifoTake p).f ETH_CFG.STATION p = d.f ETH_CFG.STATION p :=
      congrArg (bx · 11 11) (Device.rg_fifoShow _ p ETH_CFG p (by simp [RegDef.key, ETH_CFG, ETH_FIFO]))
    unfold Device.fb
    rw [(hcount.f_of ETH_CFG.STATION p (by decide) (by decide) (by decide)).trans hs]
  · exact (Device.f_count _ _ _ _ _ (by decide) (by decide) (by decide) (by decide)).trans
      (htake.f_of ING_L4PORT.UDP_C37 0 (by decide) (by decide) (by decide))
  · exact (hcount.f_of _ _ (by decide) (by decide) (by decide)).trans (htake.f_of RXL_UDP.PORT 0 (by decide) (by decide) (by decide))

end Sys2Proof.Machine
end

section
/-!
The TCP receiver and the connections of PMU streams (R69, R71, R72), and the lanes of R-GOOSE (R76).
-/
namespace Sys2Proof.Machine

/-! The TCP receiver. -/

@[simp] theorem Device.tcpConn_setTcp_self (d : Device) (c : Nat) (x : TcpRx) : (d.setTcp c x).tcpConn c = x := mgetD_mset_self _ _ _ _
theorem Device.tcpConn_congr {d a : Device} (h : d.ing = a.ing) (c : Nat) : d.tcpConn c = a.tcpConn c := by
  unfold Device.tcpConn
  rw [h]

/-- The port a connection uses goes by its entry and the state of the ports, which no count of stream ingress touches (R72). -/
theorem Device.tcpPortOf_count (d : Device) {x : Ctr} (hx : x.base / 65536 = 6) (i c : Nat) : (d.count x i).tcpPortOf c = d.tcpPortOf c := by
  have hk : Calm (Eff.of [] [6]) d (d.count x i) := Device.count_calm (Calm.refl _ d) (.inl ⟨by rw [hx]; rfl⟩)
  have ha (p : Nat) : (d.count x i).active uPORT p = d.active uPORT p := by
    have hl : (d.count x i).fb ETH_STATUS.LINK p = d.fb ETH_STATUS.LINK p := by
      rw [Device.fb, hk.f_of _ _ (by decide) (by decide) (by decide)]
      rfl
    have hs : (d.count x i).srt = d.srt := left_alone hk.srt rfl
    change (mgetD (d.count x i).srt.admin _ _ && (d.count x i).fb ETH_STATUS.LINK p) = _
    rw [hl, hs]
    rfl
  have ht : (d.count x i).ent tTcp c = d.ent tTcp c := by
    unfold Device.ent
    rw [left_alone hk.tables rfl]
  unfold Device.tcpPortOf Device.lowestPort
  simp only [ha, ht]

theorem Device.tcpAckNow_port {d : Device} {c q : Nat} (h : d.tcpPortOf c = some q) :
    d.tcpAckNow c = d.emit (.tcpAck c q (d.tcpConn c).next (d.tcpConn c).tsRecent) := by
  simp only [Device.tcpAckNow, h]
theorem Device.mem_emit_out (d : Device) (o : Output) : o ∈ (d.emit o).out := List.mem_append_right _ (List.mem_singleton_self o)

/-- Octets seen again are counted and acknowledged, and change nothing of stream ingress. -/
theorem Device.repeat_acked {d : Device} {c q : Nat} (h : d.tcpPortOf c = some q) : ((d.count ING_REPEAT).tcpAckNow c).ing = d.ing ∧
    .tcpAck c q (d.tcpConn c).next (d.tcpConn c).tsRecent ∈ ((d.count ING_REPEAT).tcpAckNow c).out ∧
    ((d.count ING_REPEAT).tcpAckNow c).ctr ING_REPEAT = (d.ctr ING_REPEAT + 1) % 2 ^ 32 := by
  have hp : (d.count ING_REPEAT).tcpPortOf c = some q := (Device.tcpPortOf_count d (by decide) 0 c).trans h
  rw [Device.tcpAckNow_port hp, Device.tcpConn_congr (Device.count_ing _ _ _)]
  exact ⟨Device.count_ing _ _ _, Device.mem_emit_out _ _, Device.ctr_count_self d ING_REPEAT 0 (by decide) (by decide) (by decide)⟩

/-- The device once the oldest segment has left the receiver's queue. -/
def Device.dequeued (d : Device) (rest : List (Nat × RxFrame)) : Device := { d with ing := { d.ing with tcpq := rest } }

/-- A good segment of an open connection is the receiver's own. -/
theorem tcpSegmentReceived_own {d : Device} {p c : Nat} {f : RxFrame} {rest : List (Nat × RxFrame)} {k : IpPkt} (hq : d.ing.tcpq = (p, f) :: rest)
    (hk : d.classify p f.bytes = .tcp k) (hs : fold16 (pseudoSum k.src k.dst 6 k.body.length + octSum k.body) = 65535) (hc : d.connFor p k = some c) :
    tcpSegmentReceived d = (d.dequeued rest).tcpSegment p c f.arr k.body := by
  have hk' : (d.dequeued rest).classify p f.bytes = .tcp k := hk
  have hc' : (d.dequeued rest).connFor p k = some c := hc
  unfold Device.dequeued at hk' hc'
  simp only [tcpSegmentReceived, hq, hk', hs, hc']
  rfl

section
variable {d : Device} {p c : Nat} {arr : Time} {seg : List Byte}

theorem Device.tcpSegment_reset (h : (beNat (slice seg 13 1)).testBit 2 = true) : d.tcpSegment p c arr seg = d.tcpLost c := by
  simp only [Device.tcpSegment, h, if_true]
/-- Octets all received before: counted, and acknowledged again. -/
theorem Device.tcpSegment_repeated {b : List Byte} (hr : (beNat (slice seg 13 1)).testBit 2 = false) (hf : (beNat (slice seg 13 1)).testBit 0 = false)
    (hb : b = seg.drop (beNat (slice seg 12 1) / 16 * 4)) (hne : b ≠ [])
    (hs : segSeen (segEcho (d.tcpConn c) seg) (beNat (slice seg 4 4)) b.length = true) :
    d.tcpSegment p c arr seg = ((d.setTcp c (segEcho (d.tcpConn c) seg)).count ING_REPEAT).tcpAckNow c := by
  have he : b.isEmpty = false := by simpa using hne
  subst hb
  simp only [Device.tcpSegment, hr, hf, he, hs, Bool.false_eq_true, if_false, if_true]
/-- New octets that complete no frame: taken into the stream, and acknowledged. -/
theorem Device.tcpSegment_taken {b tail : List Byte} {y : TcpRx} (hr : (beNat (slice seg 13 1)).testBit 2 = false)
    (hf : (beNat (slice seg 13 1)).testBit 0 = false) (hb : b = seg.drop (beNat (slice seg 12 1) / 16 * 4)) (hne : b ≠ [])
    (hs : segSeen (segEcho (d.tcpConn c) seg) (beNat (slice seg 4 4)) b.length = false)
    (hy : y = tcpTake (segEcho (d.tcpConn c) seg) (beNat (slice seg 4 4)) b) (hcut : c37Cut (y.partialFrame.length / 4 + 2) y.partialFrame = ([], tail)) :
    d.tcpSegment p c arr seg = (d.setTcp c { y with partialFrame := tail }).tcpAckNow c := by
  have he : b.isEmpty = false := by simpa using hne
  subst hb hy
  simp only [Device.tcpSegment, hr, hf, he, hs, hcut, Bool.false_eq_true, if_false, List.foldl_nil]

end

/-- A lost connection waits a second before the first new attempt (R71). -/
theorem Device.tcpLost_fields (d : Device) (c : Nat) : (d.tcpLost c).ing.tcpq = d.ing.tcpq ∧
    (d.tcpLost c).tcpConn c = { tcpInit with retryAt := some (d.now + Time.secU) } := by
  have hi : (d.tcpLost c).ing = (d.setTcp c { tcpInit with retryAt := some (d.now + Time.secU) }).ing := Device.raise_ing _ _ _
  exact ⟨by rw [hi]; rfl, by rw [Device.tcpConn_congr hi, Device.tcpConn_setTcp_self]⟩

/-! Connections (R69, R71). -/

/-- What the firmware sends on a connection moves its send count alone. -/
theorem Device.tcpSay_conn (d : Device) (c : Nat) (b : List Byte) : ∃ n, (d.tcpSay c b).tcpConn c = { d.tcpConn c with sent := n } := by
  unfold Device.tcpSay
  extract_lets x
  split
  · exact ⟨x.sent + b.length, Device.tcpConn_setTcp_self d c _⟩
  · exact ⟨x.sent, rfl⟩
theorem Device.tcpAsk_conn (d : Device) (c : Nat) : ∃ n, (d.tcpAsk c).tcpConn c = { d.tcpConn c with sent := n } := by
  unfold Device.tcpAsk
  extract_lets e
  obtain ⟨n, hn⟩ := d.tcpSay_conn c (d.c37Command e (if stCfg3 e then 6 else 5))
  obtain ⟨m, hm⟩ := (d.tcpSay c (d.c37Command e (if stCfg3 e then 6 else 5))).tcpSay_conn c (d.c37Command e 2)
  exact ⟨m, hm.trans (by rw [hn])⟩
/-- A connection opens at the peer's number, with nothing received, held or due. -/
theorem Device.tcpOpened_conn (d : Device) (c next : Nat) : ∃ n, (d.tcpOpened c next).tcpConn c =
    { tcpInit with isOpen := true, next := next % 4294967296, local_ := d.tcpLocalPort c, sent := n } := by
  unfold Device.tcpOpened
  extract_lets x d1
  obtain ⟨n, hn⟩ := ({ d1 with free := d1.free + 1 }.raise EV_ING_TCP [c, (Config.connCode 0).toNat]).tcpAsk_conn c
  have hd : ({ d1 with free := d1.free + 1 }.raise EV_ING_TCP [c, (Config.connCode 0).toNat]).tcpConn c = _ :=
    (Device.tcpConn_congr (Device.raise_ing _ _ _) c).trans (Device.tcpConn_setTcp_self d c _)
  exact ⟨n, by rw [hn, hd]⟩

theorem Device.racing_of_tcpMay {d : Device} {c : Nat} (h : d.tcpMay c = true) : d.racing = true ∧ tcEn (d.ent tTcp c) = true := by
  simp only [Device.tcpMay, Bool.and_eq_true] at h
  obtain ⟨⟨⟨hr, he⟩, -⟩, -⟩ := h
  exact ⟨hr, he⟩

theorem tcpReconnectExpiry_opens {d : Device} {c next : Nat} {t : Time} (hr : (d.tcpConn c).retryAt = some t) (ht : t ≤ d.tk.now) (hm : d.tcpMay c = true) :
    tcpReconnectExpiry c true next d = d.tcpOpened c next := by
  obtain ⟨hrace, hen⟩ := Device.racing_of_tcpMay hm
  simp only [tcpReconnectExpiry, hr]
  rw [if_neg (by simp [Device.now_of_racing hrace, ht, hrace, hen]), if_pos (by simp [hm])]
theorem tcpReconnectExpiry_delays {d : Device} {c next : Nat} {t : Time} (hr : (d.tcpConn c).retryAt = some t) (ht : t ≤ d.tk.now) (hrace : d.racing = true)
    (hen : tcEn (d.ent tTcp c) = true) : tcpReconnectExpiry c false next d = d.setTcp c { d.tcpConn c with
      delay := min 32 (2 * (d.tcpConn c).delay), retryAt := some (d.tk.now + min 32 (2 * (d.tcpConn c).delay) * Time.secU) } := by
  simp only [tcpReconnectExpiry, hr]
  rw [if_neg (by simp [Device.now_of_racing hrace, ht, hrace, hen]), if_neg (by simp), Device.now_of_racing hrace]

/-! R-GOOSE lanes (R76). -/

/-- The marks of the stream's ports have passed the lap time: the lane's record is written. -/
theorem rgooseLaneWrite_due {d : Device} {lane n st : Nat} {e : List Word} (hr : d.racing = true) (hd : d.gooseDue lane n = true)
    (hl : d.laneStream lane = some (st, e)) (hm : ∀ p, p < 8 → stPort e p = true → d.lapT (leHeat (d.laneE lane)) n ≤ d.mark p) :
    rgooseLaneWrite lane n d = d.gooseLaneWrite lane n := by
  have hall : (List.range 8).all (fun p => !stPort e p || decide (d.lapT (leHeat (d.laneE lane)) n ≤ d.mark p)) = true := by
    simp only [List.all_eq_true, List.mem_range, Bool.or_eq_true, Bool.not_eq_true', decide_eq_true_eq]
    intro p hp
    cases hs : stPort e p with
    | false => exact .inl rfl
    | true => exact .inr (hm p hp hs)
  simp only [rgooseLaneWrite, hl, hr, hd, hall, Bool.and_self, if_true]

/-- The device once a lap of a lane is noted as written. -/
def Device.gooseNoted (d : Device) (lane n : Nat) : Device := { d with ing := { d.ing with gooseLap := mset d.ing.gooseLap lane n } }

theorem Device.gooseLaneWrite_arrived {d : Device} {lane n st : Nat} {e : List Word} (hl : d.laneStream lane = some (st, e))
    (ha : d.laneArrived (leHeat (d.laneE lane)) n lane = true) : d.gooseLaneWrite lane n = (d.gooseNoted lane n).count ING_DUP_LAP := by
  have hl' : (d.gooseNoted lane n).laneStream lane = some (st, e) := hl
  have ha' : (d.gooseNoted lane n).laneArrived (leHeat (d.laneE lane)) n lane = true := ha
  unfold Device.gooseNoted at hl' ha'
  simp only [Device.gooseLaneWrite, hl', ha', if_true]
  rfl
/-- The latest message accepted before the lap time gives the record. -/
theorem Device.gooseLaneWrite_delivers {d : Device} {lane n st : Nat} {e : List Word} (hl : d.laneStream lane = some (st, e))
    (ha : d.laneArrived (leHeat (d.laneE lane)) n lane = false) : d.gooseLaneWrite lane n = ((d.gooseNoted lane n).deliver true
      [⟨lane, n, d.lapT (leHeat (d.laneE lane)) n, d.gooseLane lane n ((d.strm st).goose.find? (fun g =>
        decide (g.pos = lane - stFirst e ∧ g.arr < d.lapT (leHeat (d.laneE lane)) n) && (g.auth || decide (leAuth (d.laneE lane) = 1))))⟩]).2 := by
  have hl' : (d.gooseNoted lane n).laneStream lane = some (st, e) := hl
  have ha' : (d.gooseNoted lane n).laneArrived (leHeat (d.laneE lane)) n lane = false := ha
  unfold Device.gooseNoted at hl' ha'
  simp only [Device.gooseLaneWrite, hl', ha', Bool.false_eq_true, if_false]
  rfl

/-- An arrival of a heat that does not span goes to this device's PFA alone (R358). -/
theorem Device.deliver_unspanned {d : Device} {a : Arrival} (h : d.spans (leHeat (d.laneE a.lane)) = false) :
    (d.deliver true [a]).2 = ((d.count ING_LANES_WRITTEN).pfaArrive a.lane a.lap a.arr a.recs none).2 := by
  have hto : d.arrivalTo a = none := by simp [Device.arrivalTo, h]
  simp [Device.deliver, hto, h]

/-- Settles O53: each command by the equation of its case. -/
theorem streamCommandsAct : Obligations.StreamCommandsAct := by
  intro s haw
  refine ⟨fun p f hl hn hb => ?turn, fun p f rest k c hq hk hsum hc => ?segment, fun c next hm hr => ?opens, fun c next t hr ht hm => ?reopens,
    fun c next t hr ht hrace hen => ?delays, fun lane n st e hr hd hl hm ha => ?arrived, fun lane n st e hr hd hl hm ha hsp => ?written⟩
  case turn =>
    obtain ⟨h1, h2, h3, h4, h5, h6, h7⟩ := s.dev.turned_fields p
    have hcl := s.dev.classify_turned p f.bytes
    refine effect_awake rfl haw ⟨s.dev.turned p, parserTurn_parses hl hn hb, h1, h2, h3, h4, h5, fun x hx => ?_, fun t m hx => ?_, fun k hx => ?_⟩
    · rw [parserTurn_parses hl hn hb, Device.parse, hcl, hx]
    · rw [parserTurn_parses hl hn hb, Device.parse, hcl, hx, ← h6]
    · rw [parserTurn_parses hl hn hb, Device.parse, hcl, hx, ← h7]
  case segment =>
    have hown := tcpSegmentReceived_own hq hk hsum hc
    refine ⟨fun hrst => ?reset, fun b x y tail q hport hx hrst hfin hb hne hseen hy hcut => ?taken, fun b x q hport hx hrst hfin hb hne hseen => ?repeated⟩
    case reset =>
      refine effect_awake rfl haw ?_
      rw [hown, Device.tcpSegment_reset hrst]
      exact (s.dev.dequeued rest).tcpLost_fields c
    case taken =>
      subst hx
      refine effect_awake rfl haw ?_
      rw [hown, Device.tcpSegment_taken (d := s.dev.dequeued rest) hrst hfin hb hne hseen hy hcut,
        Device.tcpAckNow_port (d := (s.dev.dequeued rest).setTcp c { y with partialFrame := tail }) hport, Device.tcpConn_setTcp_self]
      exact ⟨rfl, Device.tcpConn_setTcp_self _ _ _, Device.mem_emit_out _ _⟩
    case repeated =>
      subst hx
      refine effect_awake rfl haw ?_
      obtain ⟨hi, hack, hctr⟩ := Device.repeat_acked
        (d := (s.dev.dequeued rest).setTcp c (segEcho ((s.dev.dequeued rest).tcpConn c) k.body)) hport
      rw [Device.tcpConn_setTcp_self] at hack
      rw [hown, Device.tcpSegment_repeated (d := s.dev.dequeued rest) hrst hfin hb hne hseen]
      exact ⟨congrArg Ing.tcpq hi, (Device.tcpConn_congr hi c).trans (Device.tcpConn_setTcp_self _ _ _), hack, hctr⟩
  case opens =>
    refine effect_awake rfl haw ?_
    obtain ⟨m, hconn⟩ := s.dev.tcpOpened_conn c next
    rw [tcpConnectionOpen, if_pos (by simp [hm, hr]), hconn]
    exact ⟨rfl, rfl, rfl, rfl⟩
  case reopens =>
    refine effect_awake rfl haw ?_
    obtain ⟨m, hconn⟩ := s.dev.tcpOpened_conn c next
    rw [tcpReconnectExpiry_opens hr ht hm, hconn]
    exact ⟨rfl, rfl, rfl⟩
  case delays =>
    refine effect_awake rfl haw ?_
    rw [tcpReconnectExpiry_delays hr ht hrace hen, Device.tcpConn_setTcp_self]
  case arrived =>
    refine effect_awake rfl haw ?_
    rw [rgooseLaneWrite_due hr hd hl hm, Device.gooseLaneWrite_arrived hl ha]
    refine ⟨?_, by simp [Device.gooseNoted], Device.ctr_count_self _ ING_DUP_LAP 0 (by decide) (by decide) (by decide)⟩
    rw [Device.count_ing]
    exact mget_mset_self _ _ _
  case written =>
    refine effect_awake rfl haw ?_
    rw [rgooseLaneWrite_due hr hd hl hm, Device.gooseLaneWrite_delivers hl ha]
    refine ⟨(s.dev.gooseNoted lane n).count ING_LANES_WRITTEN, _, rfl, Device.deliver_unspanned hsp, ?_, by simp [Device.gooseNoted],
      Device.ctr_count_self _ ING_LANES_WRITTEN 0 (by decide) (by decide) (by decide)⟩
    rw [Device.count_ing]
    exact mget_mset_self _ _ _

end Sys2Proof.Machine
end

section
/-!
Frames of the commands of the Aligner, Pacer, Starter, monitor, islands, Scorebook, journal, Rerun and memory integrity: each is its gate over an
operation whose own lemma says what the operation may touch.
-/
namespace Sys2Proof.Machine

/-- Settles O58: every command is a gate over one operation, and the operation's lemma lists what it touches. -/
theorem lapCommandsLeaveTheRest : Obligations.LapCommandsLeaveTheRest := by
  refine ⟨⟨?lapOpen, ?lapSkip, ?deadlineExpiry, ?finishLineExpiry, ?releasePortGrant, ?fenceClear, ?winCmdFixed, ?winCmdAdaptive, ?winCmdSetWmin,
      ?winCmdSetWmax, ?winCmdComplete⟩,
    ⟨?taskPlace, ?taskGatherDone, ?taskCommit, ?residueMismatch, ?engineSuspectExpiry, ?pacEngClrGo, ?selfTestDone, ?resInjArm,
      ?instanceTimerExpiry, ?heldProducerResume, ?srtCfgRsvWrite, ?srtUnitAdminWrite⟩,
    ⟨?osmRunStart, ?osmStartSample, ?osmRunStop, ?islSwapRequest⟩,
    ⟨?scbFlushWrite, ?scorebookFlushDone, ?scorebookLookup, ?scorebookLookupDone, ?journalDrain, ?checkpointStart, ?jnlCkptWrite, ?checkpointEnd,
      ?rerunGo, ?rerunStop, ?rerunInputWord, ?rerunApplyEntry⟩,
    ⟨?scrubRead, ?scrubPeriodEnd, ?mergeEntryTimeout, ?memInjectArm, ?memGroupClear⟩⟩
  case lapOpen => exact fun _ _ => awake_touches (fun _ => rfl) fun d => lapOpenAll_calm (Device.stageRead_calm (Calm.refl _ d))
  case lapSkip => exact fun _ _ => awake_touches (fun _ => rfl) fun d => lapSkip_calm (Calm.refl _ d)
  case deadlineExpiry => exact fun _ _ => awake_touches (fun _ => rfl) fun d => deadlineExpiry_calm (Calm.refl _ d)
  case finishLineExpiry => exact fun _ _ => awake_touches (fun _ => rfl) fun d => finishLineAll_calm (Calm.refl _ d)
  case releasePortGrant => exact awake_touches (fun _ => rfl) fun d => releasePortGrant_calm (Calm.refl _ d)
  case fenceClear => exact fun _ _ => awake_touches (fun _ => rfl) fun d => fenceClear_calm (Calm.refl _ d)
  case winCmdFixed => exact fun _ => alive_touches (fun _ => rfl) fun d => winCmd_calm (Calm.refl _ d)
  case winCmdAdaptive => exact alive_touches (fun _ => rfl) fun d => winCmd_calm (Calm.refl _ d)
  case winCmdSetWmin => exact fun _ => alive_touches (fun _ => rfl) fun d => winCmd_calm (Calm.refl _ d)
  case winCmdSetWmax => exact fun _ => alive_touches (fun _ => rfl) fun d => winCmd_calm (Calm.refl _ d)
  case winCmdComplete => exact alive_touches (fun _ => rfl) fun d => winCmdComplete_calm (Calm.refl _ d)
  case taskPlace => exact awake_touches (fun _ => rfl) fun d => taskPlace_calm (Calm.refl _ d)
  case taskGatherDone => exact fun _ _ _ _ _ => awake_touches (fun _ => rfl) fun d => taskGatherDone_calm (Calm.refl _ d)
  case taskCommit => exact fun _ _ _ _ => awake_touches (fun _ => rfl) fun d => taskCommit_calm (Device.preCommit_calm (Calm.refl _ d))
  case residueMismatch => exact fun _ _ _ _ _ => awake_touches (fun _ => rfl) fun d => residueMismatch_calm (Calm.refl _ d)
  case engineSuspectExpiry => exact fun _ => awake_touches (fun _ => rfl) fun d => engineSuspectExpiry_calm (Calm.refl _ d)
  case pacEngClrGo => exact fun _ => alive_touches (fun _ => rfl) fun d => pacEngClr_calm (Calm.refl _ d)
  case selfTestDone => exact fun _ => awake_touches (fun _ => rfl) fun d => selfTestDone_calm (Calm.refl _ d)
  case resInjArm => exact fun _ => alive_touches (fun _ => rfl) fun d => resInjWrite_calm (Calm.refl _ d)
  case instanceTimerExpiry => exact fun _ _ _ => awake_touches (fun _ => rfl) fun d => instanceTimerExpiry_calm (Calm.refl _ d)
  case heldProducerResume => exact fun _ => awake_touches (fun _ => rfl) fun d => heldResume_calm (Calm.refl _ d)
  case srtCfgRsvWrite => exact fun _ => alive_touches (fun _ => rfl) fun d => srtCfgWrite_calm (Calm.refl _ d)
  case srtUnitAdminWrite => exact fun _ => alive_touches (fun _ => rfl) fun d => srtUnitWrite_calm (Calm.refl _ d)
  case osmRunStart => exact alive_touches (fun _ => rfl) fun d => osmRunStart_calm (Calm.refl _ d)
  case osmStartSample => exact awake_touches (fun _ => rfl) fun d => osmStartSample_calm (Calm.refl _ d)
  case osmRunStop => exact alive_touches (fun _ => rfl) fun d => osmRunStop_calm (Calm.refl _ d)
  case islSwapRequest => exact alive_touches (fun _ => rfl) fun d => islSwapRequest_calm (Calm.refl _ d)
  case scbFlushWrite => exact alive_touches (fun _ => rfl) fun d => scbFlushWrite_calm (Calm.refl _ d)
  case scorebookFlushDone => exact fun _ => alive_touches (fun _ => rfl) fun d => scbFlushDone_calm (Calm.refl _ d)
  case scorebookLookup => exact fun _ => alive_touches (fun _ => rfl) fun d => scbLookup_calm (Calm.refl _ d)
  case scorebookLookupDone => exact alive_touches (fun _ => rfl) fun d => scbLookupDone_calm (Calm.refl _ d)
  case journalDrain => exact fun _ => awake_touches (fun _ => rfl) fun d => journalDrain_calm (Calm.refl _ d)
  case checkpointStart => exact awake_touches (fun _ => rfl) fun d => checkpointStart_calm (Calm.refl _ d)
  case jnlCkptWrite => exact alive_touches (fun _ => rfl) fun d => jnlCkptWrite_calm (Calm.refl _ d)
  case checkpointEnd => exact awake_touches (fun _ => rfl) fun d => checkpointEnd_calm (Calm.refl _ d)
  case rerunGo => exact alive_touches (fun _ => rfl) fun d => rerunGo_calm (Calm.refl _ d)
  case rerunStop => exact alive_touches (fun _ => rfl) fun d => rerunStop_calm (Calm.refl _ d)
  case rerunInputWord => exact fun _ => alive_touches (fun _ => rfl) fun d => rerunInput_calm (Calm.refl _ d)
  case rerunApplyEntry => exact fun _ => awake_units (fun _ => rfl) fun d => rerunApply_calm (Calm.refl _ d) (e_all := fun _ => ⟨rfl⟩)
  case scrubRead => exact fun _ _ _ _ _ => awake_touches (fun _ => rfl) fun d => scrubRead_calm (Calm.refl _ d)
  case scrubPeriodEnd => exact fun _ _ => awake_touches (fun _ => rfl) fun d => scrubPeriodEnd_calm (Calm.refl _ d)
  case mergeEntryTimeout => exact fun _ => alive_touches (fun _ => rfl) fun d => mergeTimeout_calm (Calm.refl _ d)
  case memInjectArm => exact fun _ => alive_touches (fun _ => rfl) fun d => memInjWrite_calm (Calm.refl _ d)
  case memGroupClear => exact fun _ => alive_touches (fun _ => rfl) fun d => memGrpClear_calm (Calm.refl _ d)

end Sys2Proof.Machine
end

section
/-!
What follows a command leaves the Aligner alone in RACE, where no injection was armed and no word marked before it: the laps that a command is shown
to leave stand in whatever device its next state is described by.
-/
namespace Sys2Proof.Machine

/-- Memory integrity reads only words that were marked before the command. -/
theorem Device.memPost_calm_of_old_clean {e : Eff} {a old d : Device} (h : Calm e a d) (hi : old.injArmed = false) (hb : old.mem.bad = [])
    (e26 : Lets (e.unit 26)) : Calm e a (d.memPost old) := by
  have hreads : d.memReads old = [] := by simp [Device.memReads, hb, mget]
  have hd1 : Calm e a (if d.mem.bad.isEmpty then d else d.memRewritten old) := calm_ite _ h (Device.memRewritten_calm h)
  unfold Device.memPost
  simp only [hreads, hb, hi, mget, List.foldl_nil, Option.isSome_none, List.filter_false, Bool.false_and, Bool.false_eq_true, if_false]
  exact calm_ite _ hd1 (Calm.upd_noted hd1)

/-- A device that is in RACE after what follows its command was so before. -/
theorem Device.mode_of_post_race {old d : Device} (h : (Device.post old d).pwr.mode = .race) : d.pwr.mode = .race := by
  have hc : Calm { Eff.still with hold := true } d (Device.post old d) :=
    Device.post_calm (Calm.refl _ d) ⟨rfl⟩ ⟨rfl⟩ ⟨rfl⟩ ⟨rfl⟩ ⟨rfl⟩ fun _ => ⟨rfl⟩
  rcases hc.mode with hm | ⟨-, -, hm⟩ | ⟨hl, -⟩
  · exact hm.symm.trans h
  · exact absurd (hm.symm.trans h) (by decide)
  · exact absurd hl not_lets

/-- In RACE what follows a command touches neither the mode nor the Aligner. -/
theorem Device.post_calm_of_race {old d : Device} (hi : old.injArmed = false) (hb : old.mem.bad = []) (hr : d.pwr.mode = .race) :
    Calm (Eff.of [] [0x0A, 0x0C, 0x11, 0x15, 0x16, 0x17, 0x18, 0x1A]) d (Device.post old d) := by
  have hm : Calm (Eff.of [] [0x0A, 0x0C, 0x11, 0x15, 0x16, 0x17, 0x18, 0x1A]) d ((d.warmupExit old).memPost old) :=
    Device.memPost_calm_of_old_clean (Device.warmupExit_calm (Calm.refl _ d)) hi hb ⟨rfl⟩
  have hrace : ((d.warmupExit old).memPost old).pwr.mode = .race := (hm.mode_of rfl rfl).trans hr
  have hw : Device.stepWatch old ((d.warmupExit old).memPost old) = (d.warmupExit old).memPost old := by
    unfold Device.stepWatch
    exact if_pos (.inl (by rw [hrace]; decide))
  unfold Device.post
  rw [hw]
  exact calm_ite _ (Device.pump_calm (Device.moveFailed_calm hm)) (Calm.refl _ d)

/-- The device that a clause about a command speaks of has the Aligner that the command's own operation leaves. -/
theorem Effect.exists_pfa_eq {c : Instr} {s : State} {p : Device → Prop} {f : Device → Device} (he : Effect c s p) (h : exec c s = onAwake f s)
    (ha : s.dev.awake = true) (hi : s.dev.injArmed = false) (hb : s.dev.mem.bad = []) (hr : (f s.dev).pwr.mode = .race) :
    ∃ d, d.pfa = (f s.dev).pfa ∧ p d := by
  obtain ⟨d, hd, hp⟩ := he
  rw [h, onAwake, if_pos ha, onAny] at hd
  have heq : Device.post s.dev (f s.dev) = Device.post s.dev d := by
    injection hd with hs
    exact congrArg State.dev hs
  have hf := Device.post_calm_of_race (old := s.dev) hi hb hr
  have hd := Device.post_calm_of_race hi hb (Device.mode_of_post_race (heq ▸ (hf.mode_of rfl rfl).trans hr))
  refine ⟨d, ?_, hp⟩
  calc d.pfa = (Device.post s.dev d).pfa := (left_alone hd.pfa rfl).symm
    _ = (Device.post s.dev (f s.dev)).pfa := by rw [heq]
    _ = (f s.dev).pfa := left_alone hf.pfa rfl

end Sys2Proof.Machine
end

section
/-!
A lap that the statement of the Aligner's commands takes to be WAITING, and that is opened at once. LAP_OPEN on a heat that does not span drops store
entries of partials that no combine came to (R363); the entries it frees make the port grant the queue's tokens again (R213), and a SETTLE at its head
closes the lap that held the ring position (R104).
-/
namespace Sys2Proof.Machine
namespace SettledOpening

/-- Heat 0 at 10 laps a second, DEPTH 4, FINISH_US 200,000; it does not span. -/
def heatEntry : List Word := [0#32, 4#32, 0#32, 0#32, 0#32, 200000#32, 0#32, 0#32]
/-- The heat in run: lap 28 is its next. -/
def run : HeatRun :=
  { enabled := true, enableAt := 0, firstLap := 22, nextLap := 28, skipped := [], ports := [0], dlist := 0, dresv := 0, oldRes := [], eh := 0, win := 0,
    clampHi := false, clampLo := false, lateRisk := false, riskLaps := 0, maxShort := 0, lostSec := none }
/-- Lap 24, in lap 28's ring position: released, its finish line past at 2.6 s, its SETTLE offered. -/
def settling : Lap :=
  { lapNew_ 0 24 (2600 * Time.msU) with st := .released, gathered := true, past := true, offered := some .settle }
/-- A store entry of a combine of lap 1, which no trigger came to: of an earlier enable, when the heat spanned. -/
def stray : Entry := entNew 0 1 256
/-- The device at 3 s in RACE. RELEASE_PORT_GRANT, which grants one token, has left the SETTLE of lap 24 at the head of the queue. -/
def device : Device :=
  { Device.reset with
    pwr := { Device.reset.pwr with mode := .race }
    tk := { Device.reset.tk with now := 3 * Time.secU }
    tables := [(tabKey tHeat 0 0, heatEntry)]
    pfa := { Device.reset.pfa with heats := [(0, run)], laps := [(lapKey 0 24, settling)], pendq := [(0, 24, .settle)] }
    srt := { Device.reset.srt with store := [stray] } }

def state : State := ⟨device, []⟩

/-- The operation of LAP_OPEN of lap 28. -/
def opening (d : Device) : Device := lapOpenAll 0 28 (d.stageRead 0 28)

theorem awake : state.dev.awake = true := by decide +kernel
theorem position_taken : state.dev.posFree 0 28 = false := by decide +kernel
theorem opening_gathers : ((opening state.dev).lap? 0 28).map (·.st) = some .gathering ∧ (opening state.dev).pwr.mode = .race := by decide +kernel

end SettledOpening

/-- Refutes O51: a lap whose ring position is taken need not wait. The opening itself drops a stray store entry, the port grants again, and the SETTLE
at the head of the queue closes the lap in the position, so that LAP_OPEN opens the lap. -/
theorem not_alignerCommandsAct : ¬ Obligations.AlignerCommandsAct := by
  unfold Obligations.AlignerCommandsAct
  rintro ⟨hlaps, -⟩
  obtain ⟨-, hwaits, -⟩ := hlaps SettledOpening.state 0 28 SettledOpening.awake
  have he := hwaits SettledOpening.run (by decide +kernel) (by decide +kernel) (by decide +kernel) (by decide +kernel) (by decide +kernel)
    (by decide +kernel) (by decide +kernel) (by decide +kernel) (by decide +kernel) SettledOpening.position_taken
  obtain ⟨hgathers, hrace⟩ := SettledOpening.opening_gathers
  obtain ⟨d, hpfa, l, hl, hst, -⟩ := he.exists_pfa_eq (f := SettledOpening.opening) rfl SettledOpening.awake (by decide +kernel) (by decide +kernel) hrace
  have hopened : (SettledOpening.opening SettledOpening.state.dev).lap? 0 28 = some l := by
    unfold Device.lap? at hl ⊢
    rw [← hpfa, hl]
  rw [hopened, Option.map_some, hst] at hgathers
  exact absurd hgathers (by decide)

end Sys2Proof.Machine
end

section
/-!
What an operand leaves in the matching store (R212, R215): the entry it fills, every other entry, and the rest of the Starter.
-/
namespace Sys2Proof.Machine

/-! Entries. -/

theorem Device.entry?_congr {d a : Device} (h : d.srt.store = a.srt.store) (i n q : Nat) : d.entry? i n q = a.entry? i n q := by
  unfold Device.entry?
  rw [h]
theorem Device.entry?_key {d : Device} {i n q : Nat} {e : Entry} (h : d.entry? i n q = some e) : e.inst = i ∧ e.lap = n ∧ e.seq = q := by
  have hk := List.find?_some h
  simpa [entIs] using hk
/-- The entry of a key, or a new one, has the key. -/
theorem Device.entry?_getD_key (d : Device) (i n q : Nat) : ((d.entry? i n q).getD (entNew i n q)).inst = i ∧
    ((d.entry? i n q).getD (entNew i n q)).lap = n ∧ ((d.entry? i n q).getD (entNew i n q)).seq = q := by
  cases h : d.entry? i n q with
  | none => exact ⟨rfl, rfl, rfl⟩
  | some e => exact Device.entry?_key h

theorem sameKey_iff (a b : Entry) : sameKey a b = true ↔ a.inst = b.inst ∧ a.lap = b.lap ∧ a.seq = b.seq := by
  simp [sameKey, entIs]

/-- An entry that is put is found under its key. -/
theorem Device.entry?_putEntry_self (d : Device) (e : Entry) : (d.putEntry e).entry? e.inst e.lap e.seq = some e := by
  have hself : entIs e.inst e.lap e.seq e = true := by simp [entIs]
  have hkey (x : Entry) : entIs e.inst e.lap e.seq x = sameKey e x := by simp [entIs, sameKey, eq_comm]
  unfold Device.putEntry Device.entry?
  split
  next hany =>
    change List.find? _ (d.srt.store.map fun x => if sameKey e x then e else x) = some e
    rw [List.find?_map]
    have hcomp : (entIs e.inst e.lap e.seq ∘ fun x => if sameKey e x then e else x) = sameKey e := by
      funext x
      by_cases hx : sameKey e x = true
      · simp [hx, hself]
      · simp [hx, hkey]
    rw [hcomp]
    obtain ⟨x, hx⟩ := Option.isSome_iff_exists.mp (List.find?_isSome.mpr (List.any_eq_true.mp hany))
    rw [hx, Option.map_some, if_pos (List.find?_some hx)]
  next hnone =>
    have hno : List.find? (entIs e.inst e.lap e.seq) d.srt.store = none := by
      refine List.find?_eq_none.mpr fun x hx hk => hnone (List.any_eq_true.mpr ⟨x, hx, ?_⟩)
      rwa [← hkey]
    change List.find? _ (d.srt.store ++ [e]) = some e
    rw [List.find?_append, hno, Option.none_or, List.find?_singleton, if_pos hself]

/-- Under every other key it changes nothing. -/
theorem Device.entry?_putEntry_other (d : Device) {e : Entry} {i n q : Nat} (h : entIs i n q e = false) : (d.putEntry e).entry? i n q = d.entry? i n q := by
  unfold Device.putEntry Device.entry?
  split
  next hany =>
    change List.find? _ (d.srt.store.map fun x => if sameKey e x then e else x) = _
    rw [List.find?_map]
    have hkey (x : Entry) (hx : sameKey e x = true) : entIs i n q x = false := by
      obtain ⟨h1, h2, h3⟩ := (sameKey_iff e x).mp hx
      rw [← h]
      simp only [entIs, h1, h2, h3]
    have hcomp : (entIs i n q ∘ fun x => if sameKey e x then e else x) = entIs i n q := by
      funext x
      by_cases hx : sameKey e x = true
      · simp [hx, h, hkey x hx]
      · simp [hx]
    rw [hcomp]
    cases hf : List.find? (entIs i n q) d.srt.store with
    | none => rfl
    | some x =>
      have hx : ¬ sameKey e x = true := fun hs => by
        have := List.find?_some hf
        rw [hkey x hs] at this
        exact absurd this (by decide)
      rw [Option.map_some, if_neg hx]
  next =>
    change List.find? _ (d.srt.store ++ [e]) = _
    rw [List.find?_append, List.find?_singleton, h]
    simp

/-! What else of the Starter the operations on the store touch. -/

theorem Device.hwm_srt (d : Device) (x : RF) (v i : Nat) : (d.hwm x v i).srt = d.srt := by
  unfold Device.hwm
  split
  · simp
  · rfl
theorem Device.count_srt (d : Device) (c : Ctr) (i : Nat) : (d.count c i).srt = d.srt := by simp
theorem Device.raise_srt (d : Device) (e : EvId) (l : List Nat) : (d.raise e l).srt = d.srt := by simp

/-- The level shown has its episode alone. -/
theorem Device.storeShow_srt (d : Device) (p : Nat) : ∃ b, (d.storeShow p).srt = { d.srt with fullEp := b } := by
  unfold Device.storeShow
  extract_lets u d1
  have h1 : d1.srt = d.srt := (Device.hwm_srt _ _ _ _).trans (by simp)
  clear_value d1
  split
  · exact ⟨true, (Device.raise_srt _ _ _).trans (congrArg (fun s : Srt => { s with fullEp := true }) h1)⟩
  · split
    · exact ⟨false, congrArg (fun s : Srt => { s with fullEp := false }) h1⟩
    · exact ⟨d.srt.fullEp, h1⟩
theorem Device.setQueue_srt (d : Device) (l : Nat) (q : List Task) : (d.setQueue l q).srt = { d.srt with queues := mset d.srt.queues l q } :=
  (Device.hwm_srt _ _ _ _).trans (by simp)
theorem Device.queueJoin_srt (d : Device) (e : Entry) : ∃ q, (d.queueJoin e).srt = { d.srt with queues := q } := by
  unfold Device.queueJoin
  extract_lets l
  split
  · exact ⟨d.srt.queues, Device.count_srt _ _ _⟩
  · exact ⟨_, Device.setQueue_srt _ _ _⟩
theorem Device.putEntry_srt (d : Device) (e : Entry) : ∃ l, (d.putEntry e).srt = { d.srt with store := l } := by
  unfold Device.putEntry
  split
  · exact ⟨_, rfl⟩
  · exact ⟨_, rfl⟩

/-- A task that becomes ready stays in its entry and joins its queue. -/
theorem Device.entryCheck_cases (d : Device) (e : Entry) : d.entryCheck e = d ∨
    ∃ r q, (d.entryCheck e).srt = { (d.putEntry { e with ready := r }).srt with queues := q } := by
  unfold Device.entryCheck
  split
  · exact .inl rfl
  · refine .inr ⟨some d.now, ?_⟩
    obtain ⟨q, hq⟩ := ((d.putEntry { e with ready := some d.now }).count SRT_TASKS_READY).queueJoin_srt { e with ready := some d.now }
    exact ⟨q, by rw [hq, Device.count_srt]⟩

section
variable (d : Device) (i n q p : Nat) (f : Entry → Entry)

/-- The device between the filling of an entry and the look whether it is ready. -/
def Device.operandPut : Device := ((d.count SRT_TOKENS_IN).putEntry (f ((d.entry? i n q).getD (entNew i n q)))).storeShow p

theorem Device.operand_eq : d.operand i n q p f = (d.operandPut i n q p f).entryCheck (f ((d.entry? i n q).getD (entNew i n q))) := by
  unfold Device.operand Device.entryFill Device.operandPut
  rw [Device.entry?_congr (congrArg Srt.store (d.count_srt SRT_TOKENS_IN 0))]

theorem Device.operandPut_entry? (j m k : Nat) : (d.operandPut i n q p f).entry? j m k =
    ((d.count SRT_TOKENS_IN).putEntry (f ((d.entry? i n q).getD (entNew i n q)))).entry? j m k := by
  obtain ⟨b, hb⟩ := ((d.count SRT_TOKENS_IN).putEntry (f ((d.entry? i n q).getD (entNew i n q)))).storeShow_srt p
  exact Device.entry?_congr (by rw [Device.operandPut, hb]) j m k

/-- An operand touches the store, the queues and the episode of a full store. -/
theorem Device.operand_srt : ∃ l b t, (d.operand i n q p f).srt = { d.srt with store := l, fullEp := b, queues := t } := by
  rw [Device.operand_eq]
  obtain ⟨l, hl⟩ := (d.count SRT_TOKENS_IN).putEntry_srt (f ((d.entry? i n q).getD (entNew i n q)))
  obtain ⟨b, hb⟩ := ((d.count SRT_TOKENS_IN).putEntry (f ((d.entry? i n q).getD (entNew i n q)))).storeShow_srt p
  have hput : (d.operandPut i n q p f).srt = { d.srt with store := l, fullEp := b } := by
    rw [Device.operandPut, hb, hl, Device.count_srt]
  rcases (d.operandPut i n q p f).entryCheck_cases (f ((d.entry? i n q).getD (entNew i n q))) with he | ⟨r, t, ht⟩
  · exact ⟨l, b, d.srt.queues, by rw [he, hput]⟩
  · obtain ⟨l2, hl2⟩ := (d.operandPut i n q p f).putEntry_srt { f ((d.entry? i n q).getD (entNew i n q)) with ready := r }
    exact ⟨l2, b, t, by rw [ht, hl2, hput]⟩

/-- The entry an operand has filled is found under its key, ready or not. -/
theorem Device.operand_entry?_self (hf : ∀ e, (f e).inst = e.inst ∧ (f e).lap = e.lap ∧ (f e).seq = e.seq) :
    ∃ r, (d.operand i n q p f).entry? i n q = some { f ((d.entry? i n q).getD (entNew i n q)) with ready := r } := by
  rw [Device.operand_eq]
  have hput := d.operandPut_entry? i n q p f i n q
  obtain ⟨h1, h2, h3⟩ := d.entry?_getD_key i n q
  obtain ⟨k1, k2, k3⟩ := hf ((d.entry? i n q).getD (entNew i n q))
  generalize f ((d.entry? i n q).getD (entNew i n q)) = e at hput k1 k2 k3 ⊢
  obtain ⟨hi, hn, hq⟩ : e.inst = i ∧ e.lap = n ∧ e.seq = q := ⟨k1.trans h1, k2.trans h2, k3.trans h3⟩
  have hfound (x : Device) (y : Entry) (hy : y.inst = i ∧ y.lap = n ∧ y.seq = q) : (x.putEntry y).entry? i n q = some y := by
    obtain ⟨rfl, rfl, rfl⟩ := hy
    exact x.entry?_putEntry_self y
  rcases (d.operandPut i n q p f).entryCheck_cases e with he | ⟨r, t, ht⟩
  · exact ⟨e.ready, by rw [he, hput, hfound _ _ ⟨hi, hn, hq⟩]⟩
  · exact ⟨r, (Device.entry?_congr (by rw [ht]) i n q).trans (hfound _ { e with ready := r } ⟨hi, hn, hq⟩)⟩

/-- Every other entry stays as it is. -/
theorem Device.operand_entry?_other (hf : ∀ e, (f e).inst = e.inst ∧ (f e).lap = e.lap ∧ (f e).seq = e.seq) {j m k : Nat}
    (hne : ¬ (i = j ∧ n = m ∧ q = k)) : (d.operand i n q p f).entry? j m k = d.entry? j m k := by
  rw [Device.operand_eq]
  have hput := d.operandPut_entry? i n q p f j m k
  obtain ⟨h1, h2, h3⟩ := d.entry?_getD_key i n q
  obtain ⟨k1, k2, k3⟩ := hf ((d.entry? i n q).getD (entNew i n q))
  generalize f ((d.entry? i n q).getD (entNew i n q)) = e at hput k1 k2 k3 ⊢
  have hkey (r : Option Time) : entIs j m k { e with ready := r } = false := by
    simp only [entIs, k1, k2, k3, h1, h2, h3]
    exact decide_eq_false hne
  rw [Device.entry?_putEntry_other _ (hkey e.ready), Device.entry?_congr (congrArg Srt.store (d.count_srt SRT_TOKENS_IN 0))] at hput
  rcases (d.operandPut i n q p f).entryCheck_cases e with he | ⟨r, t, ht⟩
  · rw [he, hput]
  · rw [← hput, ← Device.entry?_putEntry_other (d.operandPut i n q p f) (hkey r)]
    exact Device.entry?_congr (by rw [ht]) j m k

end

end Sys2Proof.Machine
end

section
/-!
The engines' records, self-tests and PAC_RES_INJ (R132, R133, R151).
-/
namespace Sys2Proof.Machine

theorem Device.eng_congr {d a : Device} (h : d.pac = a.pac) (e : Nat) : d.eng e = a.eng e := by
  unfold Device.eng
  rw [h]
@[simp] theorem Device.eng_setEng_self (d : Device) (e : Nat) (x : Eng) : (d.setEng e x).eng e = x := mgetD_mset_self _ _ _ _
theorem Device.eng_setEng_other (d : Device) {e j : Nat} (x : Eng) (h : j ≠ e) : (d.setEng e x).eng j = d.eng j := mgetD_mset_other _ _ _ _ _ h
theorem Device.testing_setEng (d : Device) (e : Nat) (y : Eng) : (d.setEng e y).pac.testing = d.pac.testing := rfl
theorem Device.fb_setEng (d : Device) (e : Nat) (y : Eng) (x : RF) (i : Nat) : (d.setEng e y).fb x i = d.fb x i := rfl

/-! PAC_SUSPECT, PAC_QUAR and the unit states of an engine. -/

theorem Device.engRefresh_units (d : Device) (e : Nat) : Calm (Eff.of [] [0x0A]) d (d.engRefresh e) := Device.engRefresh_calm (Calm.refl _ d)
theorem Device.engShow_pac (d : Device) (e : Nat) : (d.engShow e).pac = d.pac := left_alone (Device.engRefresh_units _ e).pac rfl
theorem Device.engShow_eng (d : Device) (e j : Nat) : (d.engShow e).eng j = d.eng j := Device.eng_congr (d.engShow_pac e) j
/-- PAC_SUSPECT shows a suspect engine that is not in quarantine. -/
theorem Device.bit_engShow_suspect (d : Device) (e : Nat) :
    bit ((d.engShow e).rg PAC_SUSPECT (e / 32)) (e % 32) = ((d.eng e).suspect && !(d.eng e).quar) := by
  unfold Device.engShow
  extract_lets x d1
  rw [(Device.engRefresh_units _ e).rg_of _ _ (by decide) (by decide) (by decide), Device.rg_wr_other _ _ _ _ _ _ (by simp [RegDef.key, PAC_SUSPECT, PAC_QUAR]),
    Device.rg_wr_self, bit_bset_inside _ _ le_rfl le_rfl (Nat.mod_lt _ (by decide)), Nat.sub_self]
  change (b2n ((d.eng e).suspect && !(d.eng e).quar)).testBit 0 = _
  cases (d.eng e).suspect && !(d.eng e).quar <;> rfl
/-- PAC_CLR_STAT stays. -/
theorem Device.fb_engShow_clrStat (d : Device) (e : Nat) {x : RF} (h : x.reg = PAC_CLR_STAT) : (d.engShow e).fb x = d.fb x := by
  unfold Device.engShow Device.fb Device.f
  extract_lets y d1
  rw [h, (Device.engRefresh_units _ e).rg_of _ _ (by decide) (by decide) (by decide),
    Device.rg_wr_other _ _ _ _ _ _ (by simp [RegDef.key, PAC_CLR_STAT, PAC_QUAR]; omega),
    Device.rg_wr_other _ _ _ _ _ _ (by simp [RegDef.key, PAC_CLR_STAT, PAC_SUSPECT]; omega)]

/-! ENGINE_SUSPECT_EXPIRY. -/

theorem engineSuspectExpiry_clears {d : Device} {e : Nat} (he : e < 96) (hs : (d.eng e).suspect = true) (hq : (d.eng e).quar = false)
    (hm : d.recentMism e = []) : engineSuspectExpiry e d = (d.setEng e { d.eng e with suspect := false, mism := [] }).engShow e := by
  rw [engineSuspectExpiry, if_neg (by simp [he, hs, hq, hm])]

/-! The Stride cores' task (R215, log entry 74). -/

theorem Device.strideSubmit_held {d : Device} {i : Nat} (h : d.storeFree = 0) :
    .stride i ∈ (d.strideSubmit i).srt.held ∧ (d.strideSubmit i).ctr SRT_STRIDE_HELD = (d.ctr SRT_STRIDE_HELD + 1) % 2 ^ 32 := by
  rw [Device.strideSubmit, if_pos h, Device.count_srt, Device.ctr_count_self _ _ _ (by decide) (by decide) (by decide)]
  exact ⟨List.mem_append_right _ (List.mem_singleton_self _), rfl⟩
theorem Device.strideSubmit_enters {d : Device} {i : Nat} (h : d.storeFree ≠ 0) :
    ∃ e, (d.strideSubmit i).entry? i 0 0 = some e ∧ e.data = [.firmware] := by
  rw [Device.strideSubmit, if_neg h]
  obtain ⟨r, hr⟩ := d.operand_entry?_self i 0 0 4 (fun e => { e with data := [.firmware] }) fun _ => ⟨rfl, rfl, rfl⟩
  exact ⟨_, hr, rfl⟩

/-! PAC_ENG_CLR and the self-test. -/

/-- The device as a self-test starts, before its task is submitted. -/
def Device.testStarted (d : Device) (e : Nat) : Device :=
  ((d.setPac { d.pac with testing := some e }).setf PAC_CLR_STAT.BUSY 1).setf PAC_CLR_STAT.ENG e

theorem pacEngClr_starts {d : Device} {v : Word} (ha : d.alive = true) (hv : bit v 31 = true) (he : bx v 7 0 < 96) (hq : (d.eng (bx v 7 0)).quar = true)
    (hb : d.fb PAC_CLR_STAT.BUSY = false) : pacEngClr v d = (d.testStarted (bx v 7 0)).strideSubmit (4096 + bx v 7 0) := by
  rw [pacEngClr, if_neg (by simp [ha, hv]), if_neg (by simp [he, hq, hb])]
  rfl
theorem pacEngClr_refused {d : Device} {v : Word} (ha : d.alive = true) (hv : bit v 31 = true)
    (h : 96 ≤ bx v 7 0 ∨ (d.eng (bx v 7 0)).quar = false ∨ d.fb PAC_CLR_STAT.BUSY = true) : pacEngClr v d = d.setf PAC_CLR_STAT.ERR 1 := by
  rw [pacEngClr, if_neg (by simp [ha, hv]), if_pos (by simpa using h)]

theorem Device.testStarted_fields (d : Device) (e : Nat) : (d.testStarted e).pac = { d.pac with testing := some e } ∧ (d.testStarted e).srt = d.srt ∧
    (d.testStarted e).fb PAC_CLR_STAT.BUSY = true ∧ (d.testStarted e).ctr SRT_STRIDE_HELD = d.ctr SRT_STRIDE_HELD := by
  refine ⟨rfl, rfl, ?_, ?_⟩
  · rw [Device.testStarted, Device.fb, Device.f_setf_disjoint _ (x := PAC_CLR_STAT.ENG) (y := PAC_CLR_STAT.BUSY) _ _ _ rfl (by decide) (by decide)
      (by decide) (by decide)]
    exact Device.fb_setf_self _ PAC_CLR_STAT.BUSY true 0 rfl (by decide)
  · rw [Device.testStarted, Device.ctr_setf _ _ _ _ _ _ (by decide), Device.ctr_setf _ _ _ _ _ _ (by decide)]
    rfl

theorem Device.strideSubmit_units (d : Device) (i : Nat) : Calm (Eff.of [] [0x0A]) d (d.strideSubmit i) := Device.strideSubmit_calm (Calm.refl _ d)

/-- The device as a self-test's task is over, before its result acts on the engine. -/
def Device.tested (d : Device) (e : Nat) (pass : Bool) : Device :=
  (((d.setPac { d.pac with testing := none }).setf PAC_CLR_STAT.BUSY 0).setf PAC_CLR_STAT.PASS (b2n pass)).strideEnd (4096 + e)

theorem Device.tested_fields (d : Device) (e : Nat) (pass : Bool) : (d.tested e pass).pac = { d.pac with testing := none } ∧
    (d.tested e pass).fb PAC_CLR_STAT.BUSY = false ∧ (d.tested e pass).fb PAC_CLR_STAT.PASS = pass := by
  have hc : Calm (Eff.of [] [0x0A]) (((d.setPac { d.pac with testing := none }).setf PAC_CLR_STAT.BUSY 0).setf PAC_CLR_STAT.PASS (b2n pass))
      (d.tested e pass) := Device.strideEnd_calm (Calm.refl _ _)
  refine ⟨left_alone hc.pac rfl, ?_, ?_⟩
  · rw [Device.fb, hc.f_of _ _ (by decide) (by decide) (by decide),
      Device.f_setf_disjoint _ (x := PAC_CLR_STAT.PASS) (y := PAC_CLR_STAT.BUSY) _ _ _ rfl (by decide) (by decide) (by decide) (by decide)]
    exact Device.fb_setf_self _ PAC_CLR_STAT.BUSY false 0 rfl (by decide)
  · rw [Device.fb, hc.f_of _ _ (by decide) (by decide) (by decide)]
    exact Device.fb_setf_self _ PAC_CLR_STAT.PASS pass 0 rfl (by decide)

/-- The device after a passed self-test, its engine cleared. -/
def Device.cleared (d : Device) (e : Nat) : Device :=
  ((d.tested e true).setEng e { (d.tested e true).eng e with mism := [], quar := false, suspect := false }).engShow e

theorem Device.cleared_fields (d : Device) (e : Nat) : (d.cleared e).pac.testing = none ∧ ((d.cleared e).eng e).quar = false ∧
    ((d.cleared e).eng e).suspect = false ∧ ((d.cleared e).eng e).mism = [] ∧ (d.cleared e).fb PAC_CLR_STAT.BUSY = false ∧
    (d.cleared e).fb PAC_CLR_STAT.PASS = true := by
  obtain ⟨hpac, hbusy, hpass⟩ := d.tested_fields e true
  have heng : (d.cleared e).eng e = { (d.tested e true).eng e with mism := [], quar := false, suspect := false } :=
    (Device.engShow_eng _ e e).trans (Device.eng_setEng_self _ _ _)
  refine ⟨?_, by rw [heng], by rw [heng], by rw [heng], ?_, ?_⟩
  · rw [Device.cleared, Device.engShow_pac, Device.testing_setEng, hpac]
  · rw [Device.cleared, Device.fb_engShow_clrStat _ _ rfl, Device.fb_setEng, hbusy]
  · rw [Device.cleared, Device.fb_engShow_clrStat _ _ rfl, Device.fb_setEng, hpass]

theorem selfTestDone_passed {d : Device} {e : Nat} (h : d.pac.testing = some e) :
    selfTestDone true d = ((d.cleared e).raise EV_PAC_CLR_DONE [e, b2n true]).reoffer := by
  simp only [selfTestDone, h, if_true, Device.cleared, Device.tested]
theorem selfTestDone_failed {d : Device} {e : Nat} (h : d.pac.testing = some e) :
    selfTestDone false d = ((d.tested e false).raise EV_PAC_CLR_DONE [e, b2n false]).reoffer := by
  simp only [selfTestDone, h, Bool.false_eq_true, if_false, Device.tested]
/-- The event leaves the engines and PAC_CLR_STAT. -/
theorem Device.raise_clrStat (d : Device) (ev : EvId) (l : List Nat) {x : RF} (h : x.reg = PAC_CLR_STAT) :
    (d.raise ev l).fb x = d.fb x ∧ (d.raise ev l).pac = d.pac := by
  refine ⟨?_, by simp⟩
  rw [Device.fb, Device.f_raise _ _ _ _ _ (by rw [h]; decide) (by rw [h]; decide)]
  rfl

/-! PAC_RES_INJ. -/

theorem resInjWrite_stores {d : Device} (v : Word) (ha : d.alive = true) :
    (resInjWrite v d).fb PAC_RES_INJ.ARM = (bit v 31 || d.fb PAC_RES_INJ.ARM) ∧ (resInjWrite v d).f PAC_RES_INJ.UNIT = bx v 29 28 ∧
    (resInjWrite v d).f PAC_RES_INJ.ENG = bx v 7 0 ∧ (resInjWrite v d).pac = d.pac := by
  have hw : resInjWrite v d = d.wr PAC_RES_INJ 0 (bset (v &&& 0x700000FF#32) 31 31 (b2n (bit v 31 || d.fb PAC_RES_INJ.ARM))) := by
    rw [resInjWrite, if_neg (by simp [ha])]
  have hf (x : RF) (hx : x.reg = PAC_RES_INJ) : (resInjWrite v d).f x =
      bx (bset (v &&& 0x700000FF#32) 31 31 (b2n (bit v 31 || d.fb PAC_RES_INJ.ARM))) x.hi x.lo := by
    rw [hw, Device.f, hx, Device.rg_wr_self]
  refine ⟨?_, ?_, ?_, by rw [hw]; simp⟩
  · rw [Device.fb, hf _ rfl]
    change decide (bx (bset _ 31 31 _) 31 31 = 1) = _
    rw [bx_bset_self _ _ _ _ (by decide) (by decide)]
    cases bit v 31 || d.fb PAC_RES_INJ.ARM <;> rfl
  · rw [hf _ rfl]
    exact (bx_bset_other _ _ _ _ _ _ (by decide) (by decide) (by decide) (by decide)).trans (bx_land_kept _ _ _ _ (by decide))
  · rw [hf _ rfl]
    exact (bx_bset_other _ _ _ _ _ _ (by decide) (by decide) (by decide) (by decide)).trans (bx_land_kept _ _ _ _ (by decide))

end Sys2Proof.Machine
end

section
/-!
The Starter's timers and held producers (R217, R227), its reserve (R214) and its units (R229).
-/
namespace Sys2Proof.Machine

/-! Timers. -/

theorem Device.timerFire_srt (d : Device) : d.timerFire.srt = { d.srt with spent := d.srt.spent + 1 } := Device.count_srt _ _ _
theorem Device.timerFire_store (d : Device) : d.timerFire.srt.store = d.srt.store := by rw [Device.timerFire_srt]
theorem Device.timersGone_srt (d : Device) (h : Nat) : (d.timersGone h).srt = d.srt := by
  unfold Device.timersGone
  split
  · rfl
  · extract_lets mine done off d1
    have h1 : d1.srt = d.srt :=
      List.foldlRecOn (motive := fun x : Device => x.srt = d.srt) _ _ rfl fun x hx _ _ => hx
    split
    · exact h1
    · exact h1
theorem Device.dropTimer_srt (d : Device) (t : Timer) :
    (d.dropTimer t).srt = { d.srt with timers := d.srt.timers.filter (fun x => decide (x.order ≠ t.order)) } := Device.timersGone_srt _ _
/-- The timer that has been dropped is in no list, and the entries stay. -/
theorem Device.dropTimer_drops (d : Device) (t : Timer) : (∀ x ∈ (d.dropTimer t).srt.timers, x.order ≠ t.order) ∧
    (d.dropTimer t).srt.spent = d.srt.spent ∧ ∀ i n q, (d.dropTimer t).entry? i n q = d.entry? i n q := by
  rw [Device.dropTimer_srt]
  refine ⟨fun x hx => ?_, rfl, Device.entry?_congr (by rw [Device.dropTimer_srt])⟩
  simpa using (List.mem_filter.mp hx).2

/-- A kernel's entry for a lap has its trigger. -/
def Device.triggered (d : Device) (n i : Nat) : Prop := ∃ e, d.entry? i n 0 = some e ∧ e.trig.isSome = true

/-- The trigger that a timer's token writes into an entry. -/
def timerTrigger (t : Timer) (at_ : Time) (e : Entry) : Entry := { e with trig := some { tokNone with heat := t.heat, lap := t.lap }, tAt := at_ }

theorem Device.triggered_operand (d : Device) (i p : Nat) (t : Timer) (at_ : Time) : (d.operand i t.lap 0 p (timerTrigger t at_)).triggered t.lap i := by
  obtain ⟨r, hr⟩ := d.operand_entry?_self i t.lap 0 p (timerTrigger t at_) fun _ => ⟨rfl, rfl, rfl⟩
  exact ⟨_, hr, rfl⟩
/-- A trigger once there stays, whichever entry the next operand fills. -/
theorem Device.triggered.operand {d : Device} {t : Timer} {j : Nat} (h : d.triggered t.lap j) (i p : Nat) (at_ : Time) :
    (d.operand i t.lap 0 p (timerTrigger t at_)).triggered t.lap j := by
  by_cases hij : i = j
  · rw [← hij]
    exact d.triggered_operand i p t at_
  · unfold Device.triggered
    rw [d.operand_entry?_other i t.lap 0 p (timerTrigger t at_) (fun _ => ⟨rfl, rfl, rfl⟩) fun hk => hij hk.1]
    exact h

theorem Device.timerToken_eq (d : Device) (t : Timer) (off : Nat) : d.timerToken t off =
    (d.timerInsts t.heat off).foldl (fun x i => x.operand i t.lap 0 2 (timerTrigger t (d.lapT t.heat t.lap + off * Time.usU))) d := rfl
/-- The token triggers every kernel that the timer runs (R217). -/
theorem Device.timerToken_triggers (d : Device) (t : Timer) (off : Nat) : ∀ i ∈ d.timerInsts t.heat off, (d.timerToken t off).triggered t.lap i := by
  intro i hi
  obtain ⟨before, after, hl⟩ := List.append_of_mem hi
  rw [Device.timerToken_eq, hl, List.foldl_append, List.foldl_cons]
  exact List.foldlRecOn (motive := fun x : Device => x.triggered t.lap i) after _ (Device.triggered_operand _ i 2 t _) fun x hx j _ => hx.operand j 2 _
theorem Device.timerToken_spent (d : Device) (t : Timer) (off : Nat) : (d.timerToken t off).srt.spent = d.srt.spent := by
  rw [Device.timerToken_eq]
  refine List.foldlRecOn (motive := fun x : Device => x.srt.spent = d.srt.spent) _ _ rfl fun x hx i _ => ?_
  obtain ⟨l, b, q, h⟩ := x.operand_srt i t.lap 0 2 (timerTrigger t (d.lapT t.heat t.lap + off * Time.usU))
  rw [h]
  exact hx

/-- A timer that has made its tasks. -/
theorem Device.timerToken_dropTimer (d : Device) (t : Timer) (off : Nat) :
    (∀ x ∈ ((d.timerToken t off).dropTimer t).srt.timers, x.order ≠ t.order) ∧ ((d.timerToken t off).dropTimer t).srt.spent = d.srt.spent ∧
    ∀ i ∈ d.timerInsts t.heat off, ∃ e, ((d.timerToken t off).dropTimer t).entry? i t.lap 0 = some e ∧ e.trig.isSome = true := by
  obtain ⟨hgone, hspent, hentry⟩ := (d.timerToken t off).dropTimer_drops t
  refine ⟨hgone, hspent.trans (d.timerToken_spent t off), fun i hi => ?_⟩
  rw [hentry]
  exact d.timerToken_triggers t off i hi

/-! The timer's expiry is counted before its instances are looked up, and leaves them. -/

theorem Device.timerInsts_congr {d a : Device} (ht : d.tables = a.tables) (hs : d.self = a.self) (h off : Nat) : d.timerInsts h off = a.timerInsts h off := by
  have hent (t pos : Nat) : d.ent t pos = a.ent t pos := by
    unfold Device.ent
    rw [ht]
  have hrun (k : Nat) : d.runsHere h k = a.runsHere h k := by
    unfold Device.runsHere Device.mirrors Device.spans Device.selfPos Device.spanE Device.heatE
    rw [hent, hent, hs]
  unfold Device.timerInsts Device.insts Device.ents
  simp only [hrun, ht]
theorem Device.timerNeed_congr {d a : Device} (ht : d.tables = a.tables) (hs : d.self = a.self) (hl : d.srt.store = a.srt.store) (t : Timer) (off : Nat) :
    d.timerNeed t off = a.timerNeed t off := by
  unfold Device.timerNeed
  rw [Device.timerInsts_congr ht hs]
  simp only [Device.entry?_congr hl]
theorem Device.storeFree_congr {d a : Device} (h : d.srt.store = a.srt.store) (hr : d.srt.reserved = a.srt.reserved) : d.storeFree = a.storeFree := by
  unfold Device.storeFree Device.storeUsed
  rw [h, hr]

theorem Device.timerFire_units (d : Device) : Calm (Eff.of [] [0x0A]) d d.timerFire := Device.timerFire_calm (Calm.refl _ d)
theorem Device.timerFire_timerInsts (d : Device) (h off : Nat) : d.timerFire.timerInsts h off = d.timerInsts h off :=
  Device.timerInsts_congr (left_alone d.timerFire_units.tables rfl) (d.timerFire_units.f_of _ _ (by decide) (by decide) (by decide)) h off
theorem Device.timerFire_timerNeed (d : Device) (t : Timer) (off : Nat) : d.timerFire.timerNeed t off = d.timerNeed t off :=
  Device.timerNeed_congr (left_alone d.timerFire_units.tables rfl) (d.timerFire_units.f_of _ _ (by decide) (by decide) (by decide))
    d.timerFire_store t off
theorem Device.timerFire_storeFree (d : Device) : d.timerFire.storeFree = d.storeFree :=
  Device.storeFree_congr d.timerFire_store (by rw [Device.timerFire_srt])

/-! INSTANCE_TIMER_EXPIRY. -/

section
variable {d : Device} {h n off : Nat} {t : Timer}

theorem instanceTimerExpiry_room (hl : d.lapsRun = true) (hd : d.dueIs h n (.inst off) = some t) (hr : d.timerNeed t off ≤ d.storeFree) :
    instanceTimerExpiry h n off d = (d.timerFire.timerToken t off).dropTimer t := by
  rw [instanceTimerExpiry, if_neg (by simp [hl])]
  simp only [hd]
  rw [if_pos (by rwa [Device.timerFire_timerNeed, Device.timerFire_storeFree])]
/-- The delay lists as a timer's expiry is held. -/
def heldTimers (t : Timer) (l : List Timer) : List Timer := l.map (fun x => if x.order = t.order then { x with held := true } else x)

theorem instanceTimerExpiry_full (hl : d.lapsRun = true) (hd : d.dueIs h n (.inst off) = some t) (hr : d.storeFree < d.timerNeed t off) :
    instanceTimerExpiry h n off d =
      (d.timerFire.setSrt { d.timerFire.srt with timers := heldTimers t d.timerFire.srt.timers }).count SRT_TIMER_HELD := by
  rw [instanceTimerExpiry, if_neg (by simp [hl])]
  simp only [hd]
  rw [if_neg (by rw [Device.timerFire_timerNeed, Device.timerFire_storeFree]; exact Nat.not_le.mpr hr)]
  rfl

end

theorem heldTimers_held {t x : Timer} {l : List Timer} (hx : x ∈ heldTimers t l) (ho : x.order = t.order) : x.held = true := by
  obtain ⟨y, -, hy⟩ := List.mem_map.mp hx
  split at hy
  next =>
    rw [← hy]
  next hne => exact absurd (hy ▸ ho) hne

/-- A count leaves every other counter, and the half bits are no counter. -/
theorem Device.ctr_count_other (d : Device) {c x : Ctr} (i j : Nat) (h1 : x.base / 65536 ≠ 0x17) (h2 : x.base / 65536 ≠ 0x19)
    (h3 : x.base + j * x.stride ≠ c.base + i * c.stride) (h4 : x.base + j * x.stride ≠ c.half + i * c.stride) : (d.count c i).ctr x j = d.ctr x j := by
  rcases d.count_cases c i with he | ⟨v, hc⟩
  · rw [he, Device.ctr_putReg_key _ _ _ _ _ _ h3]
  · rw [hc.ctr_eq x j h1 h2, Device.ctr_putReg_key _ _ _ _ _ _ h4, Device.ctr_putReg_key _ _ _ _ _ _ h3]

/-! HELD_PRODUCER_RESUME. -/

theorem heldResume_timer {d : Device} {k off : Nat} {t : Timer} (hl : d.lapsRun = true) (hh : d.srt.held = [])
    (hk : (d.srt.timers.filter (·.held))[k]? = some t) (ht : t.kind = .inst off) (hr : d.timerNeed t off ≤ d.storeFree) :
    heldResume k d = (d.timerToken t off).dropTimer t := by
  rw [heldResume, if_neg (by simp [hl])]
  simp only [hh, List.getElem?_nil, List.length_nil, Nat.sub_zero, hk, Device.resumeTimer, ht]
  exact if_pos hr
theorem heldResume_commit {d : Device} {k i n q : Nat} {t : Task} (hl : d.lapsRun = true) (hk : d.srt.held[k]? = some (.commit i n q))
    (ht : d.task? i n q = some t) (hp : t.phase = .commitHeld) (hf : d.commitFits t = true) : heldResume k d = (d.finishTask t).moveFailed := by
  rw [heldResume, if_neg (by simp [hl])]
  simp only [hk, Device.resumeCommit, ht]
  exact if_pos ⟨hp, hf⟩

/-! SRT_CFG_RSV_WRITE and SRT_UNIT_ADMIN_WRITE. -/

theorem srtCfgWrite_refused {d : Device} {v : Word} (ha : d.alive = true) (h : d.rsvBad (bx v 11 0) = true) :
    srtCfgWrite v d = d.setf SRT_STAT.CFG_ERR 1 := by
  rw [srtCfgWrite, if_neg (by simp [ha])]
  exact if_pos h
theorem srtCfgWrite_stores {d : Device} {v : Word} (ha : d.alive = true) (h : d.rsvBad (bx v 11 0) = false) :
    srtCfgWrite v d = (d.setf SRT_CFG.RSV (bx v 11 0)).reoffer := by
  rw [srtCfgWrite, if_neg (by simp [ha])]
  exact if_neg (by simp [h])

theorem srtUnitWrite_refused {d : Device} {v : Word} (ha : d.alive = true) (h : unitCount (d.f SRT_UNIT_SEL.TYPE) ≤ d.f SRT_UNIT_SEL.INDEX) :
    srtUnitWrite v d = d.setf SRT_STAT.CFG_ERR 1 := by
  rw [srtUnitWrite, if_neg (by simp [ha])]
  exact if_pos h

/-- STATE shown is all of the Starter that a refresh changes. -/
theorem Device.unitRefresh_srt (d : Device) (t i : Nat) : ∃ u, (d.unitRefresh t i).srt = { d.srt with ustate := u } := by
  unfold Device.unitRefresh
  extract_lets k old new _ d1 d2
  split
  · exact ⟨_, rfl⟩
  · refine ⟨mset d.srt.ustate k new, (Device.raise_srt _ _ _).trans ?_⟩
    unfold d2
    split
    · rw [Device.raise_srt, Device.count_srt]
    · rfl
theorem Device.portQuiet_srt (d : Device) (p : Nat) : (d.portQuiet p).srt = d.srt :=
  left_alone (Device.portQuiet_calm (e := Eff.of [] [0x11]) (Calm.refl _ d)).srt rfl
theorem Device.linksRefresh_srt (d : Device) : d.linksRefresh.srt = d.srt :=
  left_alone (Device.linksRefresh_calm (e := Eff.of [] [0x15]) (Calm.refl _ d)).srt rfl
/-- A unit's administrative state is stored; transmit queues and links that follow it are elsewhere. -/
theorem srtUnitWrite_admin {d : Device} (v : Word) (ha : d.alive = true) (h : d.f SRT_UNIT_SEL.INDEX < unitCount (d.f SRT_UNIT_SEL.TYPE)) :
    (srtUnitWrite v d).srt.admin = mset d.srt.admin (d.f SRT_UNIT_SEL.TYPE * 4096 + d.f SRT_UNIT_SEL.INDEX) (bit v 31) := by
  unfold srtUnitWrite
  extract_lets t i _ d1
  rw [if_neg (by simp [ha]), if_neg (Nat.not_le.mpr h)]
  have h1 : d1.srt.admin = mset d.srt.admin (t * 4096 + i) (bit v 31) := by
    obtain ⟨u, hu⟩ := (d.setSrt { d.srt with admin := mset d.srt.admin (t * 4096 + i) (bit v 31) }).unitRefresh_srt t i
    unfold d1
    rw [hu]
    rfl
  split
  · rw [Device.linksRefresh_srt, Device.portQuiet_srt, h1]
  · split
    · rw [Device.linksRefresh_srt, h1]
    · exact h1
theorem Device.unitAdmin_of_admin {d a : Device} {t i : Nat} {b : Bool} (h : d.srt.admin = mset a.srt.admin (t * 4096 + i) b) :
    d.unitAdmin t i = b ∧ ∀ u j, u * 4096 + j ≠ t * 4096 + i → d.unitAdmin u j = a.unitAdmin u j := by
  unfold Device.unitAdmin
  rw [h]
  exact ⟨mgetD_mset_self _ _ _ _, fun u j hne => mgetD_mset_other _ _ _ _ _ hne⟩

/-- Settles O50: the equation of each command's case, then what the operations behind it leave. -/
theorem engineAndStarterCommandsAct : Obligations.EngineAndStarterCommandsAct := by
  refine ⟨fun s ha => ⟨fun e haw he hs hq hm => ?suspect, fun v hv he hq hb => ?testStarts, fun v hv href => ?testRefused,
      fun e haw ht he => ?passed, fun e haw ht => ?failed, fun v => effect_alive rfl ha (resInjWrite_stores v ha)⟩,
    fun s ha => ⟨fun h n off t haw hl hd hr => ?timer, fun h n off t haw hl hd hr => ?timerHeld, fun k t off haw hl hh hk ht hr => ?timerResumes,
      fun k i n q t haw hl hk ht hp hf => effect_awake rfl haw (heldResume_commit hl hk ht hp hf), fun v hbad => ?reserveRefused, fun v hok => ?reserve,
      fun v t i ht hi hu => ?unit, fun v hu => ?noUnit⟩⟩
  case suspect =>
    refine effect_awake rfl haw ?_
    rw [engineSuspectExpiry_clears he hs hq hm, Device.bit_engShow_suspect, Device.engShow_eng, Device.eng_setEng_self]
    exact ⟨rfl, rfl, rfl, fun j hj => (Device.engShow_eng _ e j).trans (Device.eng_setEng_other _ _ hj)⟩
  case testStarts =>
    refine effect_alive rfl ha ?_
    rw [pacEngClr_starts ha hv he hq hb]
    obtain ⟨hpac, hsrt, hbusy, hctr⟩ := s.dev.testStarted_fields (bx v 7 0)
    have hfree : (s.dev.testStarted (bx v 7 0)).storeFree = s.dev.storeFree := Device.storeFree_congr (by rw [hsrt]) (by rw [hsrt])
    have hunits := (s.dev.testStarted (bx v 7 0)).strideSubmit_units (4096 + bx v 7 0)
    have hpac' := (left_alone hunits.pac rfl).trans hpac
    refine ⟨by rw [hpac'], ?_, fun j => ?_, fun h0 => ?_, fun h0 => Device.strideSubmit_enters (by rwa [hfree])⟩
    · rw [Device.fb, hunits.f_of _ _ (by decide) (by decide) (by decide)]
      exact hbusy
    · unfold Device.eng
      rw [hpac']
    · rw [← hctr]
      exact Device.strideSubmit_held (hfree.trans h0)
  case testRefused =>
    refine effect_alive rfl ha ?_
    rw [pacEngClr_refused ha hv href]
    exact ⟨rfl, Device.f_setf_self _ PAC_CLR_STAT.ERR 1 0 (by decide) (by decide)⟩
  case passed =>
    refine effect_awake rfl haw ⟨_, selfTestDone_passed ht, ?_⟩
    obtain ⟨hbusy, hpac⟩ := (s.dev.cleared e).raise_clrStat EV_PAC_CLR_DONE [e, b2n true] (x := PAC_CLR_STAT.BUSY) rfl
    obtain ⟨hpass, -⟩ := (s.dev.cleared e).raise_clrStat EV_PAC_CLR_DONE [e, b2n true] (x := PAC_CLR_STAT.PASS) rfl
    rw [hpac, Device.eng_congr hpac, hbusy, hpass]
    exact s.dev.cleared_fields e
  case failed =>
    refine effect_awake rfl haw ⟨_, selfTestDone_failed ht, ?_⟩
    obtain ⟨hbusy, hpac⟩ := (s.dev.tested e false).raise_clrStat EV_PAC_CLR_DONE [e, b2n false] (x := PAC_CLR_STAT.BUSY) rfl
    obtain ⟨hpass, -⟩ := (s.dev.tested e false).raise_clrStat EV_PAC_CLR_DONE [e, b2n false] (x := PAC_CLR_STAT.PASS) rfl
    rw [hpac, hbusy, hpass]
    exact s.dev.tested_fields e false
  case timer =>
    refine effect_awake rfl haw ?_
    rw [instanceTimerExpiry_room hl hd hr, ← Device.timerFire_timerInsts]
    obtain ⟨hgone, hspent, hentry⟩ := s.dev.timerFire.timerToken_dropTimer t off
    exact ⟨hgone, hspent.trans (by rw [Device.timerFire_srt]), hentry⟩
  case timerHeld =>
    refine effect_awake rfl haw ?_
    rw [instanceTimerExpiry_full hl hd hr, Device.count_srt, Device.ctr_count_self _ _ _ (by decide) (by decide) (by decide)]
    refine ⟨s.dev.timerFire_store, fun _ => heldTimers_held, ?_⟩
    change (s.dev.timerFire.ctr SRT_TIMER_HELD + 1) % 2 ^ 32 = _
    rw [Device.timerFire, Device.ctr_count_other _ _ _ (by decide) (by decide) (by decide) (by decide)]
    rfl
  case timerResumes =>
    refine effect_awake rfl haw ?_
    rw [heldResume_timer hl hh hk ht hr]
    obtain ⟨hgone, -, hentry⟩ := s.dev.timerToken_dropTimer t off
    exact ⟨hgone, hentry⟩
  case reserveRefused =>
    refine effect_alive rfl ha ?_
    rw [srtCfgWrite_refused ha hbad]
    exact ⟨Device.f_setf_self _ SRT_STAT.CFG_ERR 1 0 (by decide) (by decide), Device.f_setf_other _ _ _ _ _ _ (by decide), rfl⟩
  case reserve =>
    refine effect_alive rfl ha ⟨_, srtCfgWrite_stores ha hok, ?_, rfl, rfl⟩
    rw [Device.f_setf_self _ SRT_CFG.RSV _ 0 (by decide) (by decide)]
    exact Nat.mod_eq_of_lt (bx_lt v 11 0)
  case unit =>
    subst ht hi
    exact effect_alive rfl ha (Device.unitAdmin_of_admin (srtUnitWrite_admin v ha hu))
  case noUnit =>
    refine effect_alive rfl ha ?_
    rw [srtUnitWrite_refused ha hu]
    exact ⟨rfl, Device.f_setf_self _ SRT_STAT.CFG_ERR 1 0 (by decide) (by decide)⟩

end Sys2Proof.Machine
end

section
/-!
The commands of the oscillation monitor and of the islands' graph (R160, R161, R207, R208): what arming, priming and stopping leave of the monitor and
of its registers, and how a swap is asked for.
-/
namespace Sys2Proof.Machine

/-! A check's code. -/

/-- ERR is set and ECODE holds the code that a check refuses with. -/
theorem Device.err_shows (d : Device) {e c : RF} {n : Nat} (hr : e.reg = c.reg) (he : e.lo = e.hi) (he32 : e.hi < 32) (hc : c.lo ≤ c.hi) (hc32 : c.hi < 32)
    (hd : e.hi < c.lo ∨ c.hi < e.lo) (hn : n < 2 ^ (c.hi - c.lo + 1)) : (d.err e c n).f e = 1 ∧ (d.err e c n).f c = n := by
  unfold Device.err
  constructor
  · rw [Device.f_setf_disjoint _ _ _ _ hr he32 he.le hc hd, Device.f_setf_self _ _ _ _ he.le he32, he, Nat.sub_self]
    rfl
  · rw [Device.f_setf_self _ _ _ _ hc hc32, Nat.mod_eq_of_lt hn]

theorem Device.osmCheck_lt (d : Device) (i : Nat) : d.osmCheck i < 8 := by
  unfold Device.osmCheck
  extract_lets
  split_ifs <;> decide

theorem Device.swapCheck_code_lt (d : Device) : d.swapCheck.1 < 8 := by
  unfold Device.swapCheck
  extract_lets
  split_ifs
  · decide
  · decide
  · split <;> norm_num

/-! Registers of the monitor. -/

/-- A single field of the monitor's registers, where the monitor is left alone. -/
theorem Calm.f_monitor {a d : Device} {l : List Touch} {u : List Nat} (h : Calm (Eff.of l u) a d) (hu : u.contains 0x0E = false) {x : RF}
    (hx : x.reg.base / 65536 = 0x0E) : d.f x = a.f x :=
  h.f_of x 0 (by rwa [hx]) (by rw [hx]; decide) (by rw [hx]; decide)

theorem Device.setf_osm (d : Device) (x : RF) (v i : Nat) : (d.setf x v i).osm = d.osm := rfl
theorem Device.f_setOsm (d : Device) (o : Osm) (x : RF) (i : Nat) : (d.setOsm o).f x i = d.f x i := rfl
theorem Device.osmState_osm (d : Device) (t : OsmState) : (d.osmState t).osm = { d.osm with st := t } := Device.setf_osm _ _ _ _
theorem Device.f_osmState_state (d : Device) (t : OsmState) : (d.osmState t).f OSM_STAT.STATE = osmStCode t := by
  rw [Device.osmState, Device.f_setf_self _ OSM_STAT.STATE _ _ (by decide) (by decide)]
  cases t <;> rfl
theorem Device.f_osmState_run (d : Device) (t : OsmState) : (d.osmState t).f OSM_CTL.RUN = d.f OSM_CTL.RUN :=
  Device.f_setf_other _ _ _ _ _ _ (by decide)

theorem Device.raise_osm (d : Device) (e : EvId) (l : List Nat) : (d.raise e l).osm = d.osm := by simp
theorem Device.raise_isl (d : Device) (e : EvId) (l : List Nat) : (d.raise e l).isl = d.isl := by simp

/-- The level and its high-water mark are shown in OSM_INBUF alone. -/
theorem Device.osmLevel_osm (d : Device) : d.osmLevel.osm = d.osm := by
  unfold Device.osmLevel Device.hwm
  split <;> rfl
theorem Device.f_osmLevel (d : Device) {x : RF} (hx : x.reg.key 0 ≠ OSM_INBUF.key 0) : d.osmLevel.f x = d.f x := by
  unfold Device.osmLevel Device.hwm
  split
  · rw [Device.f_setf_other _ _ _ _ _ _ hx, Device.f_setf_other _ _ _ _ _ _ hx]
  · rw [Device.f_setf_other _ _ _ _ _ _ hx]

/-! OSM_RUN_START. -/

section
variable {d : Device} (ha : d.alive = true) (hs : d.osm.st = .stopped) (hr : d.osm.runAt = none)
include ha hs hr

theorem osmRunStart_arms (hc : d.osmCheck (d.f OSM_CTL.INST) = 0) :
    osmRunStart d = (d.setf OSM_CTL.RUN 1).setOsm { d.osm with runAt := some d.now, inbuf := [] } := by
  rw [osmRunStart, if_neg (by simp [ha, hs, hr])]
  exact if_neg (not_not_intro hc)
theorem osmRunStart_refused (hc : d.osmCheck (d.f OSM_CTL.INST) ≠ 0) : osmRunStart d = d.osmErr (d.osmCheck (d.f OSM_CTL.INST)) := by
  rw [osmRunStart, if_neg (by simp [ha, hs, hr])]
  exact if_pos hc

end

/-! OSM_START_SAMPLE. -/

theorem Device.putW_osm (d : Device) : d.putW.osm = d.osm := left_alone (Device.putW_calm (e := Eff.of [.dd] []) (Calm.refl _ d)).osm rfl
theorem Device.putSample_osm (d : Device) (s : OscSample) : (d.putSample s).osm = d.osm :=
  left_alone (Device.putSample_calm (e := Eff.of [.dd] []) (Calm.refl _ d)).osm rfl

/-- A start's clear: the monitor stands at its first sample, with no covariance and no tracks. -/
theorem Device.osmClear_osm (d : Device) (k : Nat) : (d.osmClear k).osm.startK = k ∧ (d.osmClear k).osm.next = k ∧ (d.osmClear k).osm.runAt = none ∧
    (d.osmClear k).osm.cov = List.replicate (24 * monPc d.monP) (List.replicate (24 * monPc d.monP) fZero) ∧
    (d.osmClear k).osm.tracks = List.replicate 64 trackNew := by
  unfold Device.osmClear
  extract_lets p n o d1
  have hsamples : (d1.osm.inbuf.foldl (fun x s => x.putSample s) d1).osm = d1.osm :=
    List.foldlRecOn (motive := fun x : Device => x.osm = d1.osm) _ _ rfl fun x hx s _ => (x.putSample_osm s).trans hx
  rw [hsamples]
  unfold d1
  rw [Device.putW_osm]
  exact ⟨rfl, rfl, rfl, rfl, rfl⟩

/-- The samples that wait are offered to the Starter, which leaves the monitor as the clear and the state have set it. -/
theorem Device.osmStartAt_primes (d : Device) (k : Nat) : (d.osmStartAt k).osm = { (d.osmClear k).osm with st := .priming } ∧
    (d.osmStartAt k).f OSM_STAT.STATE = 1 := by
  unfold Device.osmStartAt
  extract_lets d1 d2
  have hlog : Calm (Eff.of [.dd, .jnl] []) d1 ((d1.osmJournal 0 k 0).raise EV_OSM_START [k]) :=
    Device.raise_calm (Device.osmJournal_calm (Calm.refl _ d1))
  have hoffer : Calm (Eff.of [] [0x0A]) d2 (d2.osm.inbuf.foldl (fun x s => x.osmOffer s) d2) :=
    List.foldlRecOn (motive := fun x : Device => Calm (Eff.of [] [0x0A]) d2 x) _ _ (Calm.refl _ d2) fun _ hx _ _ => Device.osmOffer_calm hx
  constructor
  · calc (d2.osm.inbuf.foldl (fun x s => x.osmOffer s) d2).osm = d2.osm := left_alone hoffer.osm rfl
      _ = ((d1.osmJournal 0 k 0).raise EV_OSM_START [k]).osm := Device.osmLevel_osm _
      _ = d1.osm := left_alone hlog.osm rfl
  · calc (d2.osm.inbuf.foldl (fun x s => x.osmOffer s) d2).f OSM_STAT.STATE = d2.f OSM_STAT.STATE := hoffer.f_monitor rfl rfl
      _ = ((d1.osmJournal 0 k 0).raise EV_OSM_START [k]).f OSM_STAT.STATE := Device.f_osmLevel _ (by decide)
      _ = d1.f OSM_STAT.STATE := hlog.f_monitor rfl rfl
      _ = ((d.osmClear k).osmState .priming).f OSM_STAT.STATE := by
        rw [Device.f_setf_other _ _ _ _ _ _ (by decide), Device.f_setf_other _ _ _ _ _ _ (by decide)]
      _ = 1 := Device.f_osmState_state _ _

theorem osmStartSample_starts {d : Device} {k : Nat} (hl : d.lapsRun = true) (hk : d.osmFirst = some k) : osmStartSample d = d.osmStartAt k := by
  simp only [osmStartSample, hk, if_pos hl]

/-! OSM_RUN_STOP. -/

/-- A task of OSCMON is in an engine. -/
def Device.osmBusy (d : Device) : Bool := d.srt.flight.any (fun t => decide (ieCode (d.instE t.e.inst) = kOSCMON))

/-- The monitor that stops for a reason, before the sample in progress is looked for. -/
def Device.osmStopping (d : Device) (reason : Nat) : Device := (d.setOsm { d.osm with reason := reason }).osmState .stopping

theorem Device.osmStop_off {d : Device} (h : d.osmOn = false) (reason : Nat) : d.osmStop reason = d.setOsm { d.osm with runAt := none } := by
  rw [Device.osmStop, h]
  rfl
theorem Device.osmStop_on {d : Device} (h : d.osmOn = true) (reason : Nat) :
    d.osmStop reason = if d.osmBusy = true then d.osmStopping reason else (d.osmStopping reason).osmStopped := by
  rw [Device.osmStop, h]
  rfl

/-- The stop as it is journaled and shown, before the monitor's tasks and samples are dropped. -/
def Device.osmStopShown (d : Device) : Device :=
  ((d.osmJournal 1 (d.osm.next - 1) d.osm.reason).osmState .stopped).setf OSM_STAT.REASON d.osm.reason

theorem Device.osmStopShown_shows (d : Device) : d.osmStopShown.osm.st = .stopped ∧ d.osmStopShown.f OSM_STAT.STATE = 0 ∧
    d.osmStopShown.f OSM_STAT.REASON = d.osm.reason % 8 ∧ d.osmStopShown.f OSM_CTL.RUN = d.f OSM_CTL.RUN := by
  have hlog : Calm (Eff.of [.dd, .jnl] []) d (d.osmJournal 1 (d.osm.next - 1) d.osm.reason) := Device.osmJournal_calm (Calm.refl _ d)
  refine ⟨?st, ?state, ?reason, ?run⟩
  case st =>
    rw [Device.osmStopShown, Device.setf_osm, Device.osmState_osm]
  case reason =>
    rw [Device.osmStopShown, Device.f_setf_self _ OSM_STAT.REASON _ _ (by decide) (by decide)]
    rfl
  case state =>
    rw [Device.osmStopShown, Device.f_setf_disjoint _ (x := OSM_STAT.REASON) (y := OSM_STAT.STATE) _ _ _ rfl (by decide) (by decide) (by decide)
      (by decide)]
    exact Device.f_osmState_state _ _
  case run =>
    calc d.osmStopShown.f OSM_CTL.RUN = ((d.osmJournal 1 (d.osm.next - 1) d.osm.reason).osmState .stopped).f OSM_CTL.RUN :=
          Device.f_setf_other _ _ _ _ _ _ (by decide)
      _ = (d.osmJournal 1 (d.osm.next - 1) d.osm.reason).f OSM_CTL.RUN := Device.f_osmState_run _ _
      _ = d.f OSM_CTL.RUN := hlog.f_monitor rfl rfl

/-- After the drop nothing but the input buffer is emptied, and the event raised. -/
theorem Device.osmStopped_eq (d : Device) : ∃ o : Osm, o.st = d.osmStopShown.osmDrop.osm.st ∧
    d.osmStopped = ((d.osmStopShown.osmDrop.setOsm o).setf OSM_INBUF.LEVEL 0).raise EV_OSM_STOP [d.osm.reason, d.osm.next - 1] := by
  unfold Device.osmStopped
  extract_lets last d1 live
  have hd1 : d.osmStopShown = d1 := rfl
  rw [hd1]
  refine ⟨_, ?_, rfl⟩
  dsimp only

/-- What is dropped is of the Starter; the state, its reason and RUN stay as the stop has shown them. -/
theorem Device.osmStopped_leaves (d : Device) : d.osmStopped.osm.st = d.osmStopShown.osm.st ∧
    ∀ x : RF, x.reg.base / 65536 = 0x0E → x.reg.key 0 ≠ OSM_INBUF.key 0 → d.osmStopped.f x = d.osmStopShown.f x := by
  have hdrop : Calm (Eff.of [.dd, .jnl] [0x08, 0x0A, 0x0C, 0x10, 0x11, 0x14, 0x17, 0x18, 0x1A]) d.osmStopShown d.osmStopShown.osmDrop :=
    Device.osmDrop_calm (Calm.refl _ _)
  obtain ⟨o, ho, heq⟩ := d.osmStopped_eq
  rw [heq]
  refine ⟨?_, fun x hx hk => ?_⟩
  · rw [Device.raise_osm, Device.setf_osm, Device.setOsm, ho, left_alone hdrop.osm rfl]
  · rw [Device.f_raise _ _ _ _ _ (by rw [hx]; decide) (by rw [hx]; decide), Device.f_setf_other _ _ _ _ _ _ hk, Device.f_setOsm,
      hdrop.f_monitor rfl hx]

theorem Device.osmStopped_shows (d : Device) : d.osmStopped.osm.st = .stopped ∧ d.osmStopped.f OSM_STAT.STATE = 0 ∧
    d.osmStopped.f OSM_STAT.REASON = d.osm.reason % 8 ∧ d.osmStopped.f OSM_CTL.RUN = d.f OSM_CTL.RUN := by
  obtain ⟨hst, hf⟩ := d.osmStopped_leaves
  rw [hst, hf OSM_STAT.STATE rfl (by decide), hf OSM_STAT.REASON rfl (by decide), hf OSM_CTL.RUN rfl (by decide)]
  exact d.osmStopShown_shows

theorem osmRunStop_stops {d : Device} (ha : d.alive = true) : osmRunStop d = (d.setf OSM_CTL.RUN 0).osmStop 0 := if_pos ha

theorem Device.fb_run_cleared (d : Device) : (d.setf OSM_CTL.RUN 0).fb OSM_CTL.RUN = false :=
  Device.fb_setf_self d OSM_CTL.RUN false 0 rfl (by decide)

/-! ISL_SWAP_REQUEST. -/

/-- A swap's checks read the tables, ISL_CTL and the graph's bank, none of which SWAP is part of. -/
theorem Device.swapCheck_setf_swap (d : Device) (v : Nat) : (d.setf ISL_GRAPH.SWAP v).swapCheck = d.swapCheck := by
  have hinst : (d.setf ISL_GRAPH.SWAP v).f ISL_CTL.INST = d.f ISL_CTL.INST := Device.f_setf_other _ _ _ _ _ _ (by decide)
  unfold Device.swapCheck
  rw [hinst]
  rfl

section
variable {d : Device} (ha : d.alive = true) (hs : d.fb ISL_GRAPH.SWAP = false)
include ha hs

theorem islSwapRequest_arms (hc : d.swapCheck.1 = 0) :
    islSwapRequest d = (d.setf ISL_GRAPH.SWAP 1).setIsl { d.isl with swapAt := some d.now } := by
  rw [islSwapRequest, if_neg (by simp [ha, hs])]
  refine if_neg (not_not_intro ?_)
  rwa [Device.swapCheck_setf_swap]
theorem islSwapRequest_refused (hc : d.swapCheck.1 ≠ 0) : islSwapRequest d = (d.setf ISL_GRAPH.SWAP 1).swapBad d.swapCheck := by
  rw [islSwapRequest, if_neg (by simp [ha, hs])]
  simp only [Device.swapCheck_setf_swap]
  exact if_pos hc

end

theorem Device.swapRefuse_shows (d : Device) {n : Nat} (hn : n < 8) : (d.swapRefuse n).isl = { d.isl with swapAt := none } ∧
    (d.swapRefuse n).fb ISL_GRAPH.SWAP = false ∧ (d.swapRefuse n).f ISL_STAT.ERR = 1 ∧ (d.swapRefuse n).f ISL_STAT.ECODE = n := by
  unfold Device.swapRefuse Device.fb
  extract_lets b
  rw [Device.f_raise _ _ _ _ _ (by decide) (by decide), Device.f_raise _ _ _ _ _ (by decide) (by decide), Device.f_raise _ _ _ _ _ (by decide) (by decide)]
  refine ⟨Device.raise_isl _ _ _, ?_, Device.err_shows _ rfl rfl (by decide) (by decide) (by decide) (by decide) hn⟩
  unfold Device.err
  rw [Device.f_setf_other _ _ _ _ _ _ (by decide), Device.f_setf_other _ _ _ _ _ _ (by decide)]
  exact Device.fb_setf_self _ ISL_GRAPH.SWAP false 0 rfl (by decide)

/-- The offending entry, where there is one, is shown in ISL_GRAPH_BAD. -/
theorem Device.swapBad_eq (d : Device) (r : Nat × Option (Bool × Nat)) : ∃ x : Device, x.isl = d.isl ∧ d.swapBad r = x.swapRefuse r.1 := by
  refine ⟨_, ?_, rfl⟩
  split <;> rfl

/-- Settles O48: the equation of each command's case, then what it leaves of the monitor, of the graph and of their registers. -/
theorem monitorCommandsAct : Obligations.MonitorCommandsAct := by
  refine fun s ha => ⟨fun hs hr hc => ?arms, fun hs hr hc => ?refused, fun k haw hl hk => ?primes, fun hon hidle => ?stops, fun t ht hon hcode => ?waits,
    fun hoff => ?unarms, fun hs hc => ?swapArms, fun hs hc => ?swapRefused⟩
  case arms =>
    refine effect_alive rfl ha ?_
    rw [osmRunStart_arms ha hs hr hc]
    exact ⟨Device.fb_setf_self s.dev OSM_CTL.RUN true 0 rfl (by decide), rfl, rfl⟩
  case refused =>
    refine effect_alive rfl ha ?_
    rw [osmRunStart_refused ha hs hr hc]
    exact ⟨rfl, Device.err_shows _ rfl rfl (by decide) (by decide) (by decide) (by decide) (s.dev.osmCheck_lt _)⟩
  case primes =>
    refine effect_awake rfl haw ?_
    rw [osmStartSample_starts hl hk]
    obtain ⟨hosm, hstate⟩ := s.dev.osmStartAt_primes k
    rw [hosm]
    obtain ⟨hstart, hnext, hrun, hcov, htracks⟩ := s.dev.osmClear_osm k
    exact ⟨rfl, hstart, hnext, hrun, hcov, htracks, hstate⟩
  case stops =>
    have hbusy : (s.dev.setf OSM_CTL.RUN 0).osmBusy = false := List.any_eq_false.mpr fun t ht h => hidle t ht (of_decide_eq_true h)
    refine effect_alive rfl ha ?_
    rw [osmRunStop_stops ha, Device.osmStop_on (d := s.dev.setf OSM_CTL.RUN 0) hon, hbusy, if_neg (by decide)]
    obtain ⟨hst, hstate, hreason, hrun⟩ := ((s.dev.setf OSM_CTL.RUN 0).osmStopping 0).osmStopped_shows
    refine ⟨hst, hstate, hreason, ?_⟩
    rw [Device.fb, hrun, Device.osmStopping, Device.f_osmState_run]
    exact s.dev.fb_run_cleared
  case waits =>
    have hbusy : (s.dev.setf OSM_CTL.RUN 0).osmBusy = true := List.any_eq_true.mpr ⟨t, ht, decide_eq_true hcode⟩
    refine effect_alive rfl ha ?_
    rw [osmRunStop_stops ha, Device.osmStop_on (d := s.dev.setf OSM_CTL.RUN 0) hon, if_pos hbusy]
    refine ⟨rfl, Device.f_osmState_state _ _, ?_⟩
    rw [Device.fb, Device.osmStopping, Device.f_osmState_run]
    exact s.dev.fb_run_cleared
  case unarms =>
    refine effect_alive rfl ha ?_
    rw [osmRunStop_stops ha, Device.osmStop_off (d := s.dev.setf OSM_CTL.RUN 0) hoff]
    exact ⟨rfl, s.dev.fb_run_cleared⟩
  case swapArms =>
    refine effect_alive rfl ha ?_
    rw [islSwapRequest_arms ha hs hc]
    exact ⟨Device.fb_setf_self s.dev ISL_GRAPH.SWAP true 0 rfl (by decide), rfl⟩
  case swapRefused =>
    refine effect_alive rfl ha ?_
    rw [islSwapRequest_refused ha hs hc]
    obtain ⟨x, hx, hbad⟩ := (s.dev.setf ISL_GRAPH.SWAP 1).swapBad_eq s.dev.swapCheck
    obtain ⟨hisl, hswap, hcode⟩ := x.swapRefuse_shows s.dev.swapCheck_code_lt
    rw [hbad]
    exact ⟨hswap, hisl.trans (by rw [hx]; rfl), hcode⟩

end Sys2Proof.Machine
end

section
/-!
Placement (R220, R222): the levels above the first task that an engine takes, and what the task it takes leaves of the Starter.
-/
namespace Sys2Proof.Machine

theorem Device.countN_srt (d : Device) (c : Ctr) (n i : Nat) : (d.countN c n i).srt = d.srt := by simp
/-- A count of several leaves every other counter, as a count of one does. -/
theorem Device.ctr_countN_other (d : Device) {c x : Ctr} (n i j : Nat) (h1 : x.base / 65536 ≠ 0x17) (h2 : x.base / 65536 ≠ 0x19)
    (h3 : x.base + j * x.stride ≠ c.base + i * c.stride) (h4 : x.base + j * x.stride ≠ c.half + i * c.stride) :
    (d.countN c n i).ctr x j = d.ctr x j := by
  unfold Device.countN
  split
  · rfl
  · unfold countWith
    extract_lets a old new d1
    have hd1 : d1.ctr x j = d.ctr x j := Device.ctr_putReg_key _ _ _ _ _ _ h3
    split
    · exact hd1
    · split
      · exact hd1
      · rw [Calm.ctr_eq (raiseF_calm (Device.irqRefresh_calm (Calm.refl Eff.none _))) x j h1 h2, Device.ctr_putReg_key _ _ _ _ _ _ h4]
        exact hd1

/-! Levels without a task. -/

/-- A level that holds no task is passed over: its queue is stored as it was. -/
theorem placeLevels_empty {d : Device} {k : Nat} (h : d.queue k = []) :
    placeLevels (k + 1) d = placeLevels k (d.setSrt { d.srt with queues := mset d.srt.queues k [] }) := by
  have hmark : d.markOver k [] = d.setSrt { d.srt with queues := mset d.srt.queues k [] } := by
    unfold Device.markOver Device.countN
    rw [h]
    rfl
  conv_lhs => unfold placeLevels
  simp only [h, List.findIdx?_nil, hmark]
/-- So are all levels above one; every queue reads as before. -/
theorem placeLevels_above {d : Device} {k n : Nat} (h : ∀ j, k < j → j < k + 1 + n → d.queue j = []) :
    ∃ m, (∀ l, mgetD m l [] = d.queue l) ∧ placeLevels (k + 1 + n) d = placeLevels (k + 1) (d.setSrt { d.srt with queues := m }) := by
  induction n generalizing d with
  | zero => exact ⟨d.srt.queues, fun _ => rfl, rfl⟩
  | succ n ih =>
    have hempty := h (k + 1 + n) (by omega) (by omega)
    have hread (l : Nat) : mgetD (mset d.srt.queues (k + 1 + n) []) l [] = d.queue l := by
      rcases eq_or_ne l (k + 1 + n) with rfl | hl
      · rw [mgetD_mset_self, hempty]
      · exact mgetD_mset_other _ _ _ _ _ hl
    obtain ⟨m, hm, hp⟩ := ih (d := d.setSrt { d.srt with queues := mset d.srt.queues (k + 1 + n) [] }) fun j h1 h2 =>
      (hread j).trans (h j h1 (by omega))
    exact ⟨m, fun l => (hm l).trans (hread l), (placeLevels_empty hempty).trans hp⟩
/-- The first task of a level is placed where an engine fits it. -/
theorem placeLevels_head {d : Device} {k : Nat} {t : Task} {rest : List Task} {x : Nat × Nat} (hq : d.queue k = t :: rest)
    (hc : d.choose t = some x) : placeLevels (k + 1) d = (d.markOver k [t]).putOn k t x.1 x.2 := by
  have hi : (t :: rest).findIdx? (fun u => (d.choose u).isSome) = some 0 := by rw [List.findIdx?_cons, hc]; rfl
  unfold placeLevels
  simp only [hq, hi, List.getElem?_cons_zero, hc, Nat.zero_add, List.take_succ_cons, List.take_zero]

/-! What placement does beside the task it puts on an engine. -/

/-- The tasks on engines and the count of placements are those of `a`. -/
def Device.PlacesNone (a d : Device) : Prop :=
  d.srt.flight = a.srt.flight ∧ d.ctr SRT_TASKS_PLACED = a.ctr SRT_TASKS_PLACED

namespace Device.PlacesNone
variable {a d : Device}

theorem flight (h : PlacesNone a d) : d.srt.flight = a.srt.flight := h.1
theorem placed (h : PlacesNone a d) : d.ctr SRT_TASKS_PLACED = a.ctr SRT_TASKS_PLACED := h.2
theorem trans {b : Device} (h : PlacesNone a b) (g : PlacesNone b d) : PlacesNone a d := ⟨g.flight.trans h.flight, g.placed.trans h.placed⟩
theorem setf (d : Device) (x : RF) (v i : Nat) (hx : SRT_TASKS_PLACED.base ≠ x.reg.key i) : PlacesNone d (d.setf x v i) :=
  ⟨rfl, Device.ctr_setf _ _ _ _ _ _ hx⟩
theorem hwm (d : Device) (x : RF) (v i : Nat) (hx : SRT_TASKS_PLACED.base ≠ x.reg.key i) : PlacesNone d (d.hwm x v i) :=
  ⟨by rw [Device.hwm_srt], Device.ctr_hwm _ _ _ _ _ _ hx⟩
theorem count (d : Device) (c : Ctr) (h1 : SRT_TASKS_PLACED.base ≠ c.base) (h2 : SRT_TASKS_PLACED.base ≠ c.half) : PlacesNone d (d.count c) :=
  ⟨by rw [Device.count_srt], Device.ctr_count_other _ _ _ (by decide) (by decide) (by simpa using h1) (by simpa using h2)⟩
theorem raise (d : Device) (e : EvId) (l : List Nat) : PlacesNone d (d.raise e l) :=
  ⟨by rw [Device.raise_srt], Device.ctr_raise _ _ _ _ _ (by decide) (by decide)⟩
theorem raiseSec (d : Device) (last : Option Nat) (e : EvId) (l : List Nat) : PlacesNone d (d.raiseSec last e l) := by
  unfold Device.raiseSec
  split
  · exact ⟨rfl, rfl⟩
  · exact raise d e l

theorem fullEp (d : Device) (b : Bool) : PlacesNone d (d.setSrt { d.srt with fullEp := b }) := ⟨rfl, rfl⟩
theorem storeShow (d : Device) (p : Nat) : PlacesNone d (d.storeShow p) := by
  unfold Device.storeShow
  extract_lets u d1
  have h1 : PlacesNone d d1 := (setf d SRT_STORE.LEVEL u 0 (by decide)).trans (hwm _ SRT_STORE.HWM u 0 (by decide))
  clear_value d1
  split
  · exact h1.trans ((fullEp d1 true).trans ((setf _ SRT_STAT.STORE_FULL 1 0 (by decide)).trans (raise _ _ _)))
  · split
    · exact h1.trans ((fullEp d1 false).trans (setf _ SRT_STAT.STORE_FULL 0 0 (by decide)))
    · exact h1
theorem setQueue (d : Device) {l : Nat} (hl : l < 8) (q : List Task) : PlacesNone d (d.setQueue l q) := by
  have hkey (x : RF) (hx : x.reg = SRT_RDYQ) : SRT_TASKS_PLACED.base ≠ x.reg.key l := by
    rw [hx]
    change 0x0A0108 ≠ 0x0A0010 + l * 4
    omega
  have hstored : PlacesNone d (d.setSrt { d.srt with queues := mset d.srt.queues l q }) := ⟨rfl, rfl⟩
  exact hstored.trans ((setf _ SRT_RDYQ.LEVEL _ _ (hkey _ rfl)).trans (hwm _ SRT_RDYQ.HWM _ _ (hkey _ rfl)))
theorem queueFill (n : Nat) {l : Nat} (hl : l < 8) (d : Device) : PlacesNone d (queueFill n l d) := by
  induction n generalizing d with
  | zero => exact ⟨rfl, rfl⟩
  | succ n ih =>
    unfold Machine.queueFill
    split
    · exact ⟨rfl, rfl⟩
    · split
      · exact ⟨rfl, rfl⟩
      · exact (setQueue d hl _).trans (ih _)
theorem markOver (d : Device) (l : Nat) (seen : List Task) : PlacesNone d (d.markOver l seen) := by
  unfold Device.markOver
  extract_lets hit n
  exact ⟨by rw [Device.countN_srt]; rfl,
    Device.ctr_countN_other _ (c := SRT_PIN_OVERRIDE) (x := SRT_TASKS_PLACED) n 0 0 (by decide) (by decide) (by decide) (by decide)⟩

end Device.PlacesNone

/-! The task on its engine. -/

theorem Device.setFlight_srt (d : Device) (l : List Task) : (d.setFlight l).srt = { d.srt with flight := l } := by
  unfold Device.setFlight Device.inFlight
  rw [Device.hwm_srt]
  rfl
theorem Device.ctr_setFlight (d : Device) (l : List Task) (c : Ctr) (h : c.base + 0 * c.stride ≠ SRT_INFLIGHT.key 0) : (d.setFlight l).ctr c = d.ctr c := by
  unfold Device.setFlight Device.inFlight
  rw [Device.ctr_hwm _ _ _ _ _ _ h, Device.ctr_setf _ _ _ _ _ _ h]
  rfl

/-- A task put on an engine is the last of the tasks on engines, and is counted; then the aligner's tokens are offered again. -/
theorem Device.putOn_places (d : Device) {l : Nat} (hl : l < 8) (t : Task) (c e : Nat) : ∃ (x : Device) (u : Task), d.putOn l t c e = x.reoffer ∧
    x.srt.flight = d.srt.flight ++ [u] ∧ u.e = t.e ∧ u.eng = e ∧ u.phase = .gather ∧ u.gathered = t.gathered ∧
    x.ctr SRT_TASKS_PLACED = (d.ctr SRT_TASKS_PLACED + 1) % 2 ^ 32 := by
  unfold Device.putOn
  extract_lets d1 d2 d3 d4 d5 k x y d6
  have h1 : d.PlacesNone d1 := ⟨rfl, rfl⟩
  have h2 : d.PlacesNone (Machine.queueFill 512 l d2) := h1.trans <|
    (PlacesNone.setQueue d1 hl _).trans ((PlacesNone.storeShow _ 1).trans (PlacesNone.queueFill 512 hl d2))
  have h3 : d3.srt.flight = d.srt.flight ∧ d3.ctr SRT_TASKS_PLACED = (d.ctr SRT_TASKS_PLACED + 1) % 2 ^ 32 :=
    ⟨by rw [Device.count_srt, h2.flight], by rw [Device.ctr_count_self _ _ _ (by decide) (by decide) (by decide), h2.placed]; rfl⟩
  have h4 : d3.PlacesNone d4 := by
    unfold d4
    split
    · exact .count _ _ (by decide) (by decide)
    · exact ⟨rfl, rfl⟩
  have h5 : d4.PlacesNone d5 := by
    unfold d5
    split
    · split
      · exact .count _ _ (by decide) (by decide)
      · exact ⟨rfl, rfl⟩
    · exact ⟨rfl, rfl⟩
  have h6 : d5.PlacesNone d6 := by
    unfold d6
    split
    · have hx : d5.PlacesNone x := .raiseSec _ _ _ _
      clear_value x
      exact ⟨hx.flight, hx.placed⟩
    · exact ⟨rfl, rfl⟩
  have h := h4.trans (h5.trans h6)
  refine ⟨_, { t with phase := .gather, eng := e, overridden := t.overridden || (d.pinEn t && !d.pinHolds t) }, rfl, ?_, rfl, rfl, rfl, rfl, ?_⟩
  · rw [Device.setFlight_srt, h.flight, h3.1]
  · rw [Device.ctr_setFlight _ _ _ (by decide), h.placed, h3.2]

/-- TASK_PLACE takes the first task of the highest level that holds one. -/
theorem taskPlace_places {d : Device} {k : Nat} {t : Task} {rest : List Task} {c e : Nat} (hl : d.lapsRun = true) (hk : k < 8)
    (habove : ∀ j, k < j → j < 8 → d.queue j = []) (hq : d.queue k = t :: rest) (hc : d.choose t = some (c, e)) :
    ∃ a : Device, d.PlacesNone a ∧ taskPlace d = a.putOn k t c e := by
  obtain ⟨n, hn⟩ : ∃ n, 8 = k + 1 + n := ⟨7 - k, by omega⟩
  obtain ⟨m, hm, hp⟩ := placeLevels_above (d := d) (k := k) (n := n) fun j h1 h2 => habove j h1 (by omega)
  have hread : d.PlacesNone (d.setSrt { d.srt with queues := m }) := ⟨rfl, rfl⟩
  refine ⟨(d.setSrt { d.srt with queues := m }).markOver k [t], hread.trans (.markOver _ k [t]), ?_⟩
  unfold taskPlace
  rw [if_pos hl, hn, hp]
  exact placeLevels_head (x := (c, e)) ((hm k).trans hq) hc

end Sys2Proof.Machine
end

section
/-!
Gather (R124): while every protected word is clean, a task copies the records that its lanes hold for the lap, and nothing else changes.
-/
namespace Sys2Proof.Machine

theorem Device.gsTouch_clean {d : Device} (hb : d.mem.bad = []) (h n lane : Nat) (ws : List (Nat × Nat)) : d.gsTouch h n lane ws = d := by
  unfold Device.gsTouch
  rw [hb]
  rfl
theorem Device.gsLost_clean {d : Device} (hb : d.mem.bad = []) (h n lane : Nat) (ws : List (Nat × Nat)) : d.gsLost h n lane ws = false := by
  unfold Device.gsLost
  rw [hb]
  rfl

/-- A fold that adds what each element gives, and leaves the state beside it alone. -/
theorem foldl_collects {α β σ : Type} {f : List β × σ → α → List β × σ} {g : α → Option β} {s : σ}
    (hf : ∀ got a, f (got, s) a = (got ++ (g a).toList, s)) (l : List α) (got : List β) : l.foldl f (got, s) = (got ++ l.filterMap g, s) := by
  induction l generalizing got with
  | nil => simp
  | cons a l ih =>
    rw [List.foldl_cons, hf, ih, List.filterMap_cons]
    cases g a <;> simp

/-- The copy of one lane, with the lane's number, where it holds records of the lap. -/
def Device.laneCopy (d : Device) (h n : Nat) (ws : List (Nat × Nat × Nat)) (lane : Nat) : Option (Nat × List (List Word)) :=
  (d.lapRecs h n lane).map (fun r => (lane, keepWords (laneWords ws lane) r))

/-- Clean lanes are copied one after another. -/
theorem Device.gatherLanes_clean {d : Device} (hb : d.mem.bad = []) (h n : Nat) (ws : List (Nat × Nat × Nat)) :
    d.gatherLanes h n [] ws = ((ws.map (·.1)).eraseDups.filterMap (d.laneCopy h n ws), d) := by
  refine foldl_collects (fun got lane => ?_) _ []
  simp only [Device.gsTouch_clean hb, Device.gsLost_clean hb, List.contains_nil, Bool.false_eq_true, if_false]
  unfold Device.laneCopy
  cases d.lapRecs h n lane with
  | none => simp
  | some recs => simp

/-- What a task of kernel `i` copies for lap `n`. -/
def Device.lanesCopied (d : Device) (i n : Nat) (t : Task) : Gathered :=
  ((d.taskWords t).map (·.1)).eraseDups.filterMap (d.laneCopy (ieHeat (d.instE i)) n (d.taskWords t))

section
variable {d : Device} {i n q : Nat} {t : Task}

/-- A task that has gathered before, and is no retry, goes on to compute with what it gathered. -/
theorem taskGatherDone_gathered (hl : d.lapsRun = true) (ht : d.task? i n q = some t) (hp : t.phase = .gather) (hs : d.samplesSettled t = true)
    (hg : t.gathered.isSome = true) (hr : t.retry = false) (bad : List Nat) (ue : Bool) :
    taskGatherDone i n q bad ue d = d.putTask { t with phase := .compute } := by
  obtain ⟨g, hg⟩ := Option.isSome_iff_exists.mp hg
  unfold taskGatherDone
  simp [ht, hp, hl, hs, hg, hr]
/-- A task that has not copies its lanes, and what follows its gather is looked at. -/
theorem taskGatherDone_gathers (hl : d.lapsRun = true) (ht : d.task? i n q = some t) (hp : t.phase = .gather) (hs : d.samplesSettled t = true)
    (hg : t.gathered = none) (hb : d.mem.bad = []) : taskGatherDone i n q [] false d =
      ((d.putTask { t with phase := .compute, gathered := some (d.lanesCopied i n t) }).memClean 1 (lmLoc t)).gatherCheck
        { t with phase := .compute, gathered := some (d.lanesCopied i n t) } := by
  unfold taskGatherDone Device.lanesCopied
  simp [ht, hp, hl, hs, hg, Device.gatherLanes_clean hb]

end

end Sys2Proof.Machine
end

section
/-!
Commits (R139, R224): a task that waits behind a lower sequence, one that commits, and the block that is published.
-/
namespace Sys2Proof.Machine

/-! What a clean memory and usable engines leave out. -/

theorem Device.memRead_clean {d : Device} (hb : d.mem.bad = []) (arr loc bank : Nat) : d.memRead arr loc bank = d := by
  unfold Device.memRead
  rw [hb]
  rfl
theorem Device.preCommit_clean {d : Device} (hb : d.mem.bad = []) (i : Nat) : d.preCommit i = d := by
  unfold Device.preCommit
  rw [hb]
  rfl
/-- No task is moved while every engine that has one is usable (R230). -/
theorem Device.moveFailed_usable {d : Device} (h : ∀ u ∈ d.srt.flight, d.unitUsable uENGINE u.eng = true) : d.moveFailed = d := by
  have hnone : d.srt.flight.reverse.filter (fun t => !d.unitUsable uENGINE t.eng && !isFw t.e.inst) = [] :=
    List.filter_eq_nil_iff.mpr fun t ht => by simp [h t (List.mem_reverse.mp ht)]
  unfold Device.moveFailed
  rw [hnone]
  rfl
/-- Nothing follows the gather of a timer's task. -/
theorem Device.gatherCheck_timer (d : Device) {t : Task} (h : ∀ k, t.e.trig = some k → k.kind = .timer) : d.gatherCheck t = d := by
  unfold Device.gatherCheck
  split
  · rfl
  next k hk => simp [h k hk]

/-! TASK_COMMIT. -/

section
variable {d : Device} {i n q : Nat} {t : Task}

theorem taskCommit_finishes (hl : d.lapsRun = true) (ht : d.task? i n q = some t) (hp : t.phase = .compute) (hb : d.mem.bad = []) :
    taskCommit i n q false (d.preCommit i) = (d.finishTask t).moveFailed := by
  unfold taskCommit
  simp [Device.preCommit_clean hb, ht, hp, hl, hb, mget, Device.memRead_clean hb]

/-- Behind a lower sequence a commit waits. -/
theorem Device.finishTask_waits (h : d.lowerLive t.e = true) :
    d.finishTask t = ((d.putTask { t with phase := .commitWait }).count SRT_COMMIT_HOLD).gatherCheck t := by
  unfold Device.finishTask commitChain
  rw [if_pos h]
/-- A commit that nothing waited for is the only one. -/
theorem Device.finishTask_commits (h : d.lowerLive t.e = false) (hf : d.commitFits t = true)
    (hw : ∀ u ∈ (d.commitNow t).srt.flight, u.phase ≠ .commitWait) : d.finishTask t = (d.commitNow t).gatherCheck t := by
  have hnone : (d.commitNow t).srt.flight.find? (fun x => decide (x.phase = .commitWait ∧ x.e.inst = t.e.inst ∧ x.e.lap = t.e.lap) &&
      !(d.commitNow t).lowerLive x.e) = none := List.find?_eq_none.mpr fun u hu => by simp [hw u hu]
  unfold Device.finishTask commitChain
  rw [if_neg (by simp [h]), if_neg (by simp [hf])]
  simp only [hnone]

end

theorem Device.count_pac (d : Device) (c : Ctr) (i : Nat) : (d.count c i).pac = d.pac := by simp
/-- A task that waits leaves every engine as usable as it was. -/
theorem Device.unitUsable_waits (d : Device) (t : Task) (e : Nat) :
    ((d.putTask t).count SRT_COMMIT_HOLD).unitUsable uENGINE e = d.unitUsable uENGINE e := by
  have hpac : ((d.putTask t).count SRT_COMMIT_HOLD).pac = d.pac := Device.count_pac _ _ _
  change (!(Device.eng _ e).quar && !Device.grpFailed _ (e / 8)) = (!(d.eng e).quar && !d.grpFailed (e / 8))
  rw [Device.eng_congr hpac]
  unfold Device.grpFailed
  rw [Device.rg_count _ _ _ _ _ (by decide) (by decide) (by decide) (by decide)]
  rfl

/-! The block of a commit. -/

theorem Device.publish_leaves (d : Device) (b : Block) : (d.publish b).pac.latest = mset d.pac.latest b.inst b ∧
    ∀ c : Ctr, c.base / 65536 = 0x0C → (d.publish b).ctr c = d.ctr c := by
  unfold Device.publish
  extract_lets keep x d1
  have hc : Calm (Eff.of [.dd, .jnl] [0x10, 0x11, 0x17, 0x18]) (d1.outPut (d.outWord b.inst) (blockHeader b ++ b.vals)) _ :=
    Device.hurdleBlock_calm (p1 := b) (Calm.refl _ _) ⟨rfl⟩ ⟨rfl⟩ ⟨rfl⟩ ⟨rfl⟩ ⟨rfl⟩ ⟨rfl⟩
  refine ⟨congrArg Pac.latest (left_alone hc.pac rfl), fun c h => ?_⟩
  exact (hc.ctr_of c 0 (by rw [h]; decide) (by rw [h]; decide) (by rw [h]; decide)).trans (Device.ctr_congr rfl c 0)

theorem Device.commitBlock_publishes (d : Device) (t : Task) {r : Ran} {vs : List Word} (h : r.vals = some vs) :
    mget (d.commitBlock t r).pac.latest t.e.inst = some (d.blockOf t r vs) ∧
    (d.commitBlock t r).ctr PAC_TASKS_DONE = (d.ctr PAC_TASKS_DONE + 1) % 2 ^ 32 := by
  have hc : d.commitBlock t r = ((d.count PAC_TASKS_DONE).countN PAC_OUT_NAN ((d.blockOf t r vs).vals.filter fIsNaN).length).publish (d.blockOf t r vs) := by
    unfold Device.commitBlock
    rw [h]
  obtain ⟨hlatest, hctr⟩ := ((d.count PAC_TASKS_DONE).countN PAC_OUT_NAN ((d.blockOf t r vs).vals.filter fIsNaN).length).publish_leaves (d.blockOf t r vs)
  rw [hc, hlatest, hctr _ rfl, Device.ctr_countN_other _ _ _ _ (by decide) (by decide) (by decide) (by decide),
    Device.ctr_count_self _ _ _ (by decide) (by decide) (by decide)]
  exact ⟨mget_mset_self _ _ _, rfl⟩

end Sys2Proof.Machine
end

section
/-!
Residue mismatches (R129 to R132, R151): the task goes back to the head of its level as a retry, and what the mismatch leaves of its engine and its
counters outlasts the moves of tasks behind it.
-/
namespace Sys2Proof.Machine

/-! The head of a level. -/

theorem Device.queue_setQueue (d : Device) (l : Nat) (q : List Task) : (d.setQueue l q).queue l = q :=
  (congrArg (fun s : Srt => mgetD s.queues l []) (d.setQueue_srt l q)).trans (mgetD_mset_self _ _ _ _)
theorem Device.queue_setQueue_other (d : Device) {l j : Nat} (q : List Task) (h : j ≠ l) : (d.setQueue l q).queue j = d.queue j :=
  (congrArg (fun s : Srt => mgetD s.queues j []) (d.setQueue_srt l q)).trans (mgetD_mset_other _ _ _ _ _ h)
theorem Device.queue_congr {d a : Device} (h : d.srt.queues = a.srt.queues) (l : Nat) : d.queue l = a.queue l :=
  congrArg (fun m => mgetD m l []) h

/-- A list without its last element that fails a test keeps what passes the test. -/
theorem mem_drop_last_failing {α : Type} {p : α → Bool} {l rest : List α} {x u : α}
    (h : l.reverse.drop (l.reverse.takeWhile p).length = x :: rest) (hu : u ∈ l) (hp : p u = true) :
    u ∈ rest.reverse ++ (l.reverse.takeWhile p).reverse := by
  have hsplit : l.reverse.takeWhile p ++ x :: rest = l.reverse := by
    rw [← h]
    exact (List.prefix_append_drop (List.takeWhile_prefix p)).symm
  have hdrop : l.reverse.dropWhile p = x :: rest :=
    List.append_cancel_left ((List.takeWhile_append_dropWhile).trans hsplit.symm)
  have hx : p x = false := by
    have hhead := List.head_dropWhile_not p (l := l.reverse) (by simp [hdrop])
    simpa [hdrop] using hhead
  have hmem : u ∈ l.reverse.takeWhile p ++ x :: rest := by rw [hsplit]; exact List.mem_reverse.mpr hu
  have hne : u ≠ x := fun he => by simp [he, hx] at hp
  simpa [hne, or_comm] using hmem

/-- A retry that enters a level, or waits in it, is there when a task has joined at the head (R219). -/
theorem Device.retry_mem_queueHead {d : Device} {t u : Task} {l : Nat} (hr : u.retry = true) (h : u ∈ d.queue l ∨ u = t ∧ l = t.prio) :
    u ∈ (d.queueHead t).queue l := by
  by_cases hl : l = t.prio
  case neg =>
    have hu : u ∈ d.queue l := h.resolve_right fun hu => hl hu.2
    unfold Device.queueHead
    extract_lets q r keep
    split
    · rwa [Device.queue_setQueue_other _ _ hl]
    · split
      · rwa [Device.queue_setQueue_other _ _ hl]
      · extract_lets d1
        rwa [Device.queue_congr (congrArg Srt.queues (Device.count_srt _ _ _)), Device.queue_setQueue_other _ _ hl]
  case pos =>
    subst hl
    have hu : u ∈ t :: d.queue t.prio := List.mem_cons.mpr (h.symm.imp_left And.left)
    unfold Device.queueHead
    extract_lets q r keep
    split
    · rwa [Device.queue_setQueue]
    · split
      · rwa [Device.queue_setQueue]
      next x rest hdrop =>
        extract_lets d1
        rw [Device.queue_congr (congrArg Srt.queues (Device.count_srt _ _ _)), Device.queue_setQueue]
        exact mem_drop_last_failing hdrop hu (by simp [hr])

/-! PAC_RES_INJ and the counters of a mismatch. -/

/-- The Pacer's words that a mismatch writes and its consequences do not. -/
def residueWords : List Nat := [PAC_RES_INJ.base, PAC_RES_MISMATCH.base, PAC_SHIFT_PARITY.base, PAC_INJ_HITS.base]
/-- They hold what they hold in `a`. -/
def Device.ResidueKept (a d : Device) : Prop := ∀ k ∈ residueWords, mget (d.blkRegs 0x0C) k = mget (a.blkRegs 0x0C) k

namespace Device.ResidueKept
variable {a b d : Device}

theorem refl (d : Device) : ResidueKept d d := fun _ _ => rfl
theorem trans (h : ResidueKept a b) (g : ResidueKept b d) : ResidueKept a d := fun k hk => (g k hk).trans (h k hk)
theorem fb_arm (h : ResidueKept a d) : d.fb PAC_RES_INJ.ARM = a.fb PAC_RES_INJ.ARM := by
  have hw : mget (d.blkRegs (PAC_RES_INJ.base / 65536)) (PAC_RES_INJ.key 0) = mget (a.blkRegs (PAC_RES_INJ.base / 65536)) (PAC_RES_INJ.key 0) :=
    h _ (by decide)
  unfold Device.fb Device.f Device.rg mgetD
  rw [show PAC_RES_INJ.ARM.reg = PAC_RES_INJ from rfl, hw]
theorem ctr (h : ResidueKept a d) (c : Ctr) (hb : c.base / 65536 = 0x0C) (hk : c.base + 0 * c.stride ∈ residueWords) : d.ctr c = a.ctr c := by
  unfold Device.ctr mgetD
  rw [hb, h _ hk]
theorem of_starter (h : Calm (Eff.of [] [0x0A]) a d) : ResidueKept a d := by
  intro k _
  rcases h.blks 0x0C with hl | h17 | h19 | hblk
  · exact absurd hl not_lets
  · exact absurd h17 (by decide)
  · exact absurd h19 (by decide)
  · rw [hblk]
theorem putReg (d : Device) (r k : Nat) (v : Word) (hk : k ∉ residueWords) : ResidueKept d (d.putReg r k v) := by
  intro j hj
  have hne : j ≠ k := fun he => hk (he ▸ hj)
  unfold Device.putReg Device.blkRegs
  by_cases hr : 0x0C = r
  · rw [← hr, mgetD_mset_self, mget_mset_other _ _ _ _ hne]
  · rw [mgetD_mset_other _ _ _ _ _ hr]
theorem raise (d : Device) (e : EvId) (l : List Nat) : ResidueKept d (d.raise e l) := of_starter (Device.raise_calm (Calm.refl _ d))
theorem count (d : Device) (c : Ctr) (h1 : c.base + 0 * c.stride ∉ residueWords) (h2 : c.half + 0 * c.stride ∉ residueWords) :
    ResidueKept d (d.count c) := by
  rcases d.count_cases c 0 with he | ⟨v, hc⟩
  · rw [he]
    exact putReg d _ _ _ h1
  · refine (putReg d (c.base / 65536) _ (w32 ((d.ctr c + 1) % 4294967296)) h1).trans ((putReg _ (c.base / 65536) _ v h2).trans fun k _ => ?_)
    rcases hc.blks 0x0C with hl | h17 | h19 | hblk
    · exact absurd hl not_lets
    · exact absurd h17 (by decide)
    · exact absurd h19 (by decide)
    · rw [hblk]
/-- PAC_SUSPECT and PAC_QUAR are other words. -/
theorem engShow (d : Device) {e : Nat} (he : e < 96) : ResidueKept d (d.engShow e) := by
  have hmap : ∀ w < 3, PAC_SUSPECT.key w ∉ residueWords ∧ PAC_QUAR.key w ∉ residueWords := by decide
  obtain ⟨hsuspect, hquar⟩ := hmap (e / 32) (by omega)
  exact (putReg d _ _ _ hsuspect).trans ((putReg _ _ _ _ hquar).trans (of_starter (Device.engRefresh_units _ e)))
/-- So are PAC_ENG_LAST and the count of quarantines. -/
theorem engMismatch (d : Device) {e : Nat} (he : e < 96) : ResidueKept d (d.engMismatch e) := by
  have hlast : ∀ i < 96, PAC_ENG_LAST.key i ∉ residueWords := by decide
  unfold Device.engMismatch
  extract_lets ms x quar d1 d2
  have h1 : ResidueKept d d1 := putReg (d.setEng e _) _ _ _ (hlast e he)
  have h2 : ResidueKept d1 d2 := by
    unfold d2
    split
    · exact (count d1 _ (by decide) (by decide)).trans (raise _ _ _)
    · exact refl d1
  exact h1.trans (h2.trans (engShow d2 he))

end Device.ResidueKept

/-! What outlasts the moves of tasks. -/

/-- Retries that wait in a level are still there; the engines' records and the words of a mismatch are those of `a`. -/
def Device.MismatchKept (a d : Device) : Prop :=
  (∀ u : Task, u.retry = true → ∀ l, u ∈ a.queue l → u ∈ d.queue l) ∧ d.pac = a.pac ∧ a.ResidueKept d

namespace Device.MismatchKept
variable {a b d : Device}

theorem retries (h : MismatchKept a d) : ∀ u : Task, u.retry = true → ∀ l, u ∈ a.queue l → u ∈ d.queue l := h.1
theorem pac (h : MismatchKept a d) : d.pac = a.pac := h.2.1
theorem words (h : MismatchKept a d) : a.ResidueKept d := h.2.2
theorem refl (d : Device) : MismatchKept d d := ⟨fun _ _ _ => id, rfl, .refl d⟩
theorem trans (h : MismatchKept a b) (g : MismatchKept b d) : MismatchKept a d :=
  ⟨fun u hr l hu => g.retries u hr l (h.retries u hr l hu), g.pac.trans h.pac, h.words.trans g.words⟩
/-- What touches the Starter alone, and keeps the retries of its levels. -/
theorem of_starter (h : Calm (Eff.of [] [0x0A]) a d) (hr : ∀ u : Task, u.retry = true → ∀ l, u ∈ a.queue l → u ∈ d.queue l) : MismatchKept a d :=
  ⟨hr, left_alone h.pac rfl, .of_starter h⟩
theorem queueHead (d : Device) (t : Task) : MismatchKept d (d.queueHead t) :=
  of_starter (Device.queueHead_calm (Calm.refl _ d) ⟨rfl⟩) fun _ hr _ hu => Device.retry_mem_queueHead hr (.inl hu)
theorem dropTask (d : Device) (t : Task) : MismatchKept d (d.dropTask t) := by
  refine of_starter (Device.dropTask_calm (Calm.refl _ d) ⟨rfl⟩) fun u _ l hu => ?_
  have hqueues : (d.dropTask t).srt.queues = d.srt.queues := by
    unfold Device.dropTask
    rw [Device.setFlight_srt]
    rfl
  rwa [Device.queue_congr hqueues]
theorem count_retries (d : Device) : MismatchKept d (d.count PAC_RETRIES) := by
  refine ⟨fun u _ l hu => ?_, Device.count_pac _ _ _, .count d _ (by decide) (by decide)⟩
  rwa [Device.queue_congr (congrArg Srt.queues (Device.count_srt _ _ _))]
theorem retryTask (d : Device) (t : Task) : MismatchKept d (d.retryTask t) :=
  (dropTask d t).trans ((count_retries _).trans (queueHead _ _))
theorem moveTask (d : Device) (t : Task) : MismatchKept d (d.moveTask t) := by
  unfold Device.moveTask
  split
  · exact retryTask d t
  · exact (dropTask d t).trans (queueHead _ _)
/-- Tasks moved off failed engines change nothing of it. -/
theorem moveFailed (d : Device) : MismatchKept d d.moveFailed :=
  List.foldlRecOn (motive := fun x : Device => MismatchKept d x) _ _ (refl d) fun x hx t _ => hx.trans (moveTask x t)

end Device.MismatchKept

/-- The task a mismatch aborts, as it waits for its retry. -/
def Task.retried (t : Task) : Task := { t with phase := .queued, retry := true, failedEng := t.eng }

/-- A task that is retried waits in its level. -/
theorem Device.retried_mem_retryTask (d : Device) (t : Task) : t.retried ∈ (d.retryTask t).queue t.prio :=
  Device.retry_mem_queueHead (t := t.retried) rfl (.inr ⟨rfl, rfl⟩)

/-! The engine and the counters. -/

theorem Device.engMismatch_eng (d : Device) (e : Nat) : ((d.engMismatch e).eng e).mism = d.recentMism e ++ [d.tk.now] ∧
    (2 ≤ (d.recentMism e).length → ((d.engMismatch e).eng e).quar = true) := by
  unfold Device.engMismatch
  extract_lets ms x quar d1 d2
  have h2 : d2.pac = d1.pac := by
    unfold d2
    split
    · simp
    · rfl
  have heng : (d2.engShow e).eng e = { x with mism := ms, quar := quar, suspect := true, lastSec := Time.secOf d.tk.now } := by
    rw [Device.engShow_eng, Device.eng_congr h2]
    exact Device.eng_setEng_self _ _ _
  rw [heng]
  refine ⟨rfl, fun h => ?_⟩
  simp [quar, ms, h]

/-- A mismatch has been counted and told (R129), and one that was injected has disarmed PAC_RES_INJ (R151). -/
def Device.mismatchTold (d : Device) (unit : Nat) (inj : Bool) (dat : List Nat) : Device :=
  let x := (if unit = 3 then d.count PAC_SHIFT_PARITY else d.count PAC_RES_MISMATCH).raise EV_PAC_MISMATCH dat
  if inj then (x.setf PAC_RES_INJ.ARM 0).count PAC_INJ_HITS else x

theorem Device.mismatchTold_fields (d : Device) (unit : Nat) (inj : Bool) (dat : List Nat) :
    (d.mismatchTold unit inj dat).pac = d.pac ∧ (d.mismatchTold unit inj dat).tk = d.tk := by
  unfold Device.mismatchTold
  split <;> split <;> simp
theorem Device.mismatchTold_counts (d : Device) (unit : Nat) (inj : Bool) (dat : List Nat) :
    (unit ≠ 3 → (d.mismatchTold unit inj dat).ctr PAC_RES_MISMATCH = (d.ctr PAC_RES_MISMATCH + 1) % 2 ^ 32) ∧
    (unit = 3 → (d.mismatchTold unit inj dat).ctr PAC_SHIFT_PARITY = (d.ctr PAC_SHIFT_PARITY + 1) % 2 ^ 32) := by
  have hctr : ∀ c ∈ [PAC_RES_MISMATCH, PAC_SHIFT_PARITY], (d.mismatchTold unit inj dat).ctr c =
      (if unit = 3 then d.count PAC_SHIFT_PARITY else d.count PAC_RES_MISMATCH).ctr c := by
    intro c hc
    have hother : c.base / 65536 ≠ 0x17 ∧ c.base / 65536 ≠ 0x19 ∧ c.base + 0 * c.stride ≠ PAC_INJ_HITS.base + 0 * PAC_INJ_HITS.stride ∧
        c.base + 0 * c.stride ≠ PAC_INJ_HITS.half + 0 * PAC_INJ_HITS.stride ∧ c.base + 0 * c.stride ≠ PAC_RES_INJ.key 0 := by
      revert c
      decide
    obtain ⟨h17, h19, hhits, hhalf, harm⟩ := hother
    unfold Device.mismatchTold
    extract_lets x
    split
    · rw [Device.ctr_count_other _ _ _ h17 h19 hhits hhalf, Device.ctr_setf _ _ _ _ _ _ harm]
      exact Device.ctr_raise _ _ _ _ _ h17 h19
    · exact Device.ctr_raise _ _ _ _ _ h17 h19
  refine ⟨fun h => ?_, fun h => ?_⟩
  · rw [hctr _ (by simp), if_neg h, Device.ctr_count_self _ _ _ (by decide) (by decide) (by decide)]
    rfl
  · rw [hctr _ (by simp), if_pos h, Device.ctr_count_self _ _ _ (by decide) (by decide) (by decide)]
    rfl
theorem Device.mismatchTold_disarms (d : Device) (unit : Nat) (dat : List Nat) :
    (d.mismatchTold unit true dat).fb PAC_RES_INJ.ARM = false ∧
    (d.mismatchTold unit true dat).ctr PAC_INJ_HITS = (d.ctr PAC_INJ_HITS + 1) % 2 ^ 32 := by
  unfold Device.mismatchTold
  extract_lets x
  have hx : x.ctr PAC_INJ_HITS = d.ctr PAC_INJ_HITS := by
    refine (Device.ctr_raise _ _ _ _ _ (by decide) (by decide)).trans ?_
    split
    · exact Device.ctr_count_other _ _ _ (by decide) (by decide) (by decide) (by decide)
    · exact Device.ctr_count_other _ _ _ (by decide) (by decide) (by decide) (by decide)
  rw [if_pos rfl]
  constructor
  · rw [Device.fb, Device.f_count _ _ _ _ _ (by decide) (by decide) (by decide) (by decide)]
    exact Device.fb_setf_self x PAC_RES_INJ.ARM false 0 rfl (by decide)
  · rw [Device.ctr_count_self _ _ _ (by decide) (by decide) (by decide), Device.ctr_setf _ _ _ _ _ _ (by decide), hx]
    rfl

/-- A first mismatch of a task is told, recorded against its engine, and sends the task back as a retry. -/
theorem residueMismatch_retries {d : Device} {i n q unit : Nat} {t : Task} {inj : Bool} (ht : d.task? i n q = some t)
    (hp : t.phase = .gather ∨ t.phase = .compute) (hr : t.retry = false) (hu : unit < 6)
    (hinj : inj = true → d.fb PAC_RES_INJ.ARM = true ∧ d.f PAC_RES_INJ.ENG = t.eng ∧ d.f PAC_RES_INJ.UNIT = unit ∧ d.fb PAC_RES_INJ.NOQ = false) :
    ∃ dat, residueMismatch i n q unit inj d = (((d.mismatchTold unit inj dat).engMismatch t.eng).retryTask t).moveFailed := by
  refine ⟨[t.eng, unitDatum unit, i, ieHeat (d.instE i), n], ?_⟩
  have hunit : ¬ unit > 5 := by omega
  have hretry (x : Device) : x.abortTask t = x.retryTask t := by
    unfold Device.abortTask
    rw [hr, if_neg Bool.false_ne_true]
  unfold residueMismatch
  simp only [ht]
  rw [if_neg ?runs, if_neg ?recorded, hretry]
  · rfl
  case runs =>
    cases inj with
    | false => simp [hp, hunit]
    | true =>
      obtain ⟨harm, heng, hun, -⟩ := hinj rfl
      simp [hp, hunit, harm, heng, hun]
  case recorded =>
    cases inj with
    | false => simp
    | true =>
      obtain ⟨-, -, -, hnoq⟩ := hinj rfl
      simp [hnoq]

end Sys2Proof.Machine
end

section
/-!
TASK_PLACE, TASK_GATHER_DONE, TASK_COMMIT and RESIDUE_MISMATCH (R124, R129, R222, R224).
-/
namespace Sys2Proof.Machine

/-- Settles O49: the equation of each command's case, then what the operations behind it leave. -/
theorem taskCommandsAct : Obligations.TaskCommandsAct := by
  refine ⟨fun s haw hl => ⟨fun k t rest c e hk habove hq hc => ?place, fun i n q t bad ue ht hp hs hg hr => ?gathered,
      fun i n q t ht hp hs hg hb => ?gathers,
      fun i n q t ht hp hb hlow htimer hfl heng => ?waits, fun i n q t ht hp hb hlow hf hw => ?commits,
      fun i n q t unit inj ht hp hr he hu hinj => ?mismatch⟩,
    fun d t r => ⟨fun vs hv => ?block, fun hv => ?noBlock⟩⟩
  case place =>
    refine effect_awake rfl haw ?_
    obtain ⟨a, ha, hplace⟩ := taskPlace_places hl hk habove hq hc
    rw [hplace, ← ha.flight, ← ha.placed]
    exact a.putOn_places hk t c e
  case gathered =>
    refine effect_awake rfl haw ?_
    rw [taskGatherDone_gathered hl ht hp hs hg hr]
    rfl
  case gathers =>
    refine effect_awake rfl haw ?_
    exact ⟨_, _, taskGatherDone_gathers hl ht hp hs hg hb, rfl, rfl, rfl, rfl, rfl⟩
  case waits =>
    refine effect_awake rfl haw ?_
    have husable : ∀ u ∈ ((s.dev.putTask { t with phase := .commitWait }).count SRT_COMMIT_HOLD).srt.flight,
        ((s.dev.putTask { t with phase := .commitWait }).count SRT_COMMIT_HOLD).unitUsable uENGINE u.eng = true := by
      intro u hu
      rw [Device.count_srt] at hu
      rw [Device.unitUsable_waits]
      obtain ⟨x, hx, rfl⟩ := List.mem_map.mp hu
      split
      · exact heng
      · exact hfl x hx
    rw [taskCommit_finishes hl ht hp hb, Device.finishTask_waits hlow, Device.gatherCheck_timer _ htimer, Device.moveFailed_usable husable,
      Device.count_srt, Device.ctr_count_self _ _ _ (by decide) (by decide) (by decide)]
    exact ⟨rfl, rfl⟩
  case commits =>
    refine effect_awake rfl haw ?_
    rw [taskCommit_finishes hl ht hp hb, Device.finishTask_commits hlow hf hw]
  case mismatch =>
    refine effect_awake rfl haw ?_
    obtain ⟨dat, heq⟩ := residueMismatch_retries ht hp hr hu hinj
    obtain ⟨hpac, htk⟩ := s.dev.mismatchTold_fields unit inj dat
    obtain ⟨hres, hpar⟩ := s.dev.mismatchTold_counts unit inj dat
    obtain ⟨hmism, hquar⟩ := (s.dev.mismatchTold unit inj dat).engMismatch_eng t.eng
    have hrecent : (s.dev.mismatchTold unit inj dat).recentMism t.eng = s.dev.recentMism t.eng := by
      rw [Device.recentMism, Device.eng_congr hpac, htk]
      rfl
    rw [hrecent] at hmism hquar
    have hmoved := Device.MismatchKept.moveFailed (((s.dev.mismatchTold unit inj dat).engMismatch t.eng).retryTask t)
    have hkept := (Device.MismatchKept.retryTask ((s.dev.mismatchTold unit inj dat).engMismatch t.eng) t).trans hmoved
    have hwords := (Device.ResidueKept.engMismatch (s.dev.mismatchTold unit inj dat) he).trans hkept.words
    rw [heq, Device.eng_congr hkept.pac, hwords.fb_arm, hwords.ctr PAC_RES_MISMATCH rfl (by decide), hwords.ctr PAC_SHIFT_PARITY rfl (by decide),
      hwords.ctr PAC_INJ_HITS rfl (by decide)]
    refine ⟨⟨t.retried, hmoved.retries _ rfl _ (Device.retried_mem_retryTask _ t), rfl, rfl, rfl, rfl⟩, by rw [hmism, htk], hquar, hres, hpar, ?_⟩
    rintro rfl
    exact s.dev.mismatchTold_disarms unit dat
  case block =>
    obtain ⟨hlatest, hdone⟩ := d.commitBlock_publishes t hv
    exact ⟨hlatest, hdone, fun hf => by simp [Device.blockOf, hf], fun hf => by simp [Device.blockOf, hf]⟩
  case noBlock =>
    unfold Device.commitBlock
    rw [hv]

end Sys2Proof.Machine
end

section
/-!
C37.118 client commands (R256): the client a command is for, what its data and its frames change, and the periodic configuration.
-/
namespace Sys2Proof.Machine
-- Proofs are elaborated in turn: side by side they wait for one another, each on a thread with a stack of its own.
set_option deprecated.oldSectionVars true

theorem Device.now_of_race {d : Device} (h : d.pwr.mode = .race) : d.now = d.tk.now := Device.now_of_racing (by simp [Device.racing, h])
theorem Device.mayTx_of_race {d : Device} (h : d.pwr.mode = .race) : d.mayTx = true := by simp [Device.mayTx, h]

/-! The port a frame leaves on. -/

/-- What leaves the ports' links and the unit states leaves the choice of a port. -/
theorem Calm.lowestPort {a d : Device} {l : List Touch} {u : List Nat} (h : Calm (Eff.of l u) a d) (h4 : u.contains 4 = false) (h10 : u.contains 0x0A = false)
    (m : Nat) : d.lowestPort m = a.lowestPort m := by
  have hact (p : Nat) : d.active uPORT p = a.active uPORT p := by
    change (mgetD d.srt.admin _ _ && d.fb ETH_STATUS.LINK p) = (mgetD a.srt.admin _ _ && a.fb ETH_STATUS.LINK p)
    rw [left_alone h.srt h10, Device.fb, Device.fb, h.f_of ETH_STATUS.LINK p h4 (by decide) (by decide)]
  unfold Device.lowestPort
  simp only [hact]
/-- A frame is queued or not, and that is all. -/
theorem Device.txPush_cases (d : Device) (p : Nat) (alarm : Bool) (x : TxItem) : d.txPush p alarm x = d ∨ ∃ t, d.txPush p alarm x = d.setPtx p t := by
  unfold Device.txPush
  extract_lets t
  split
  · exact .inl rfl
  · split
    · exact .inr ⟨_, rfl⟩
    · exact .inr ⟨_, rfl⟩
theorem Device.txPush_regs (d : Device) (p : Nat) (alarm : Bool) (x : TxItem) : (d.txPush p alarm x).regs = d.regs := by
  rcases d.txPush_cases p alarm x with h | ⟨t, h⟩
  · rw [h]
  · rw [h]
    rfl
theorem Device.txPush_egr (d : Device) (p : Nat) (alarm : Bool) (x : TxItem) : ∃ t, (d.txPush p alarm x).egr = { d.egr with tx := t } := by
  rcases d.txPush_cases p alarm x with h | ⟨t, h⟩
  · exact ⟨d.egr.tx, by rw [h]⟩
  · exact ⟨mset d.egr.tx p t, by rw [h]; rfl⟩

theorem Device.count_egr (d : Device) (c : Ctr) (i : Nat) : (d.count c i).egr = d.egr := by simp
theorem Device.raise_egr (d : Device) (e : EvId) (l : List Nat) : (d.raise e l).egr = d.egr := by simp

/-! Frames to a UDP client. -/

section
variable {d : Device} {c : Nat}

theorem Device.clientSend_noPort (hu : clTcp (d.clientE c) = false) (hp : d.lowestPort (clPorts (d.clientE c)) = none) (n : Nat) (k : Ctr) (b : List Byte) :
    d.clientSend c n k b = d := by
  unfold Device.clientSend
  rw [if_neg (by simp [hu]), hp]
theorem Device.clientSend_port {p : Nat} (hu : clTcp (d.clientE c) = false) (hp : d.lowestPort (clPorts (d.clientE c)) = some p) (n : Nat) (k : Ctr)
    (b : List Byte) : ∃ x, d.clientSend c n k b = (d.txPush p false x).count k := by
  unfold Device.clientSend
  rw [if_neg (by simp [hu]), hp]
  exact ⟨_, rfl⟩
/-- A configuration or header frame to a UDP client is counted where a port sends it. -/
theorem Device.clientCfg_udp (hu : clTcp (d.clientE c) = false) (k : Nat) : (d.clientCfg c k).egr.clients = d.egr.clients ∧
    (d.clientCfg c k).ctr EGR_C37_CMD = d.ctr EGR_C37_CMD ∧
    (∀ p, d.lowestPort (clPorts (d.clientE c)) = some p → (d.clientCfg c k).ctr EGR_CFG_SENT = (d.ctr EGR_CFG_SENT + 1) % 2 ^ 32) ∧
    (d.lowestPort (clPorts (d.clientE c)) = none → (d.clientCfg c k).ctr EGR_CFG_SENT = d.ctr EGR_CFG_SENT) := by
  unfold Device.clientCfg
  cases hp : d.lowestPort (clPorts (d.clientE c)) with
  | none =>
    rw [Device.clientSend_noPort hu hp]
    exact ⟨rfl, rfl, fun p h => (Option.some_ne_none p h.symm).elim, fun _ => rfl⟩
  | some p =>
    obtain ⟨x, hx⟩ := Device.clientSend_port hu hp 0 EGR_CFG_SENT (d.c37Cfg c k)
    obtain ⟨t, ht⟩ := d.txPush_egr p false x
    have hctr (i : Ctr) : (d.txPush p false x).ctr i = d.ctr i := Device.ctr_congr (d.txPush_regs p false x) i 0
    rw [hx]
    refine ⟨?_, ?_, fun _ _ => ?_, fun h => (Option.some_ne_none p h).elim⟩
    · rw [Device.count_egr, ht]
    · rw [Device.ctr_count_other _ 0 0 (by decide) (by decide) (by decide) (by decide), hctr]
    · rw [← hctr]
      exact Device.ctr_count_self _ EGR_CFG_SENT 0 (by decide) (by decide) (by decide)

end

theorem Device.client_congr {a d : Device} (h : d.egr.clients = a.egr.clients) (c : Nat) : d.client c = a.client c := by
  unfold Device.client
  rw [h]
@[simp] theorem Device.client_setClient_self (d : Device) (c : Nat) (x : ClientSt) : (d.setClient c x).client c = x := mgetD_mset_self _ _ _ _

/-! C37_CFG_PERIODIC. -/

theorem c37CfgPeriodic_sends {c : Nat} {t : Time} {d : Device} (hm : d.pwr.mode = .race) (hc : (d.client c).cfgAt = some t) (ht : t ≤ d.tk.now)
    (hen : clEn (d.clientE c) = true) (hu : clTcp (d.clientE c) = false) : c37CfgPeriodic c d =
    (d.setClient c { d.client c with cfgAt := some (d.tk.now + 60 * Time.secU) }).clientCfg c (if clCfg3 (d.clientE c) then 6 else 5) := by
  have hnow := Device.now_of_race hm
  unfold c37CfgPeriodic
  rw [hc]
  dsimp only
  rw [if_neg (by simp [Device.mayTx_of_race hm, hen, hu, hnow, ht]), Device.clientOwnCfg, hnow]

/-! The client a command is for. -/

/-- A binding changes one connection and tells of it. -/
theorem Device.cmdClient_cases (d : Device) (tcp : Bool) (sender id : Nat) : (d.cmdClient tcp sender id).2 = d ∨
    ∃ x c, (d.cmdClient tcp sender id).1 = some c ∧ (d.cmdClient tcp sender id).2 = (d.setConn sender x).connEvent c 0 := by
  unfold Device.cmdClient
  split
  · split
    · exact .inl rfl
    · split
      · split
        · exact .inl rfl
        · exact .inl rfl
      · split
        · exact .inr ⟨_, _, rfl, rfl⟩
        · exact .inl rfl
  · exact .inl rfl
theorem Device.cmdClient_none {d : Device} {tcp : Bool} {sender id : Nat} (h : (d.cmdClient tcp sender id).1 = none) :
    d.cmdClient tcp sender id = (none, d) := by
  rcases d.cmdClient_cases tcp sender id with he | ⟨x, c, hc, -⟩
  · exact Prod.ext h he
  · exact absurd (h.symm.trans hc) (Option.some_ne_none c).symm
theorem Device.cmdClient_leaves {d d1 : Device} {tcp : Bool} {sender id : Nat} {o : Option Nat} (h : d.cmdClient tcp sender id = (o, d1)) :
    d1.egr.clients = d.egr.clients ∧ d1.tables = d.tables ∧ d1.ctr EGR_C37_CMD = d.ctr EGR_C37_CMD := by
  have h1 : (d.cmdClient tcp sender id).2 = d1 := congrArg Prod.snd h
  rcases d.cmdClient_cases tcp sender id with he | ⟨x, c, -, he⟩
  · rw [← h1, he]
    exact ⟨rfl, rfl, rfl⟩
  · rw [← h1, he, Device.connEvent]
    have hegr := Device.raise_egr (d.setConn sender x) EV_EGR_C37_CONN [c, (Config.connCode 0).toNat]
    exact ⟨by rw [hegr]; rfl, by simp, Device.ctr_raise _ _ _ _ _ (by decide) (by decide)⟩

/-! A client transmits or stops. -/

theorem Device.clientOn_sets (d : Device) (c : Nat) (on : Bool) : ((d.clientOn c on).client c).on = on ∧
    (d.clientOn c on).ctr EGR_C37_CMD = d.ctr EGR_C37_CMD := by
  unfold Device.clientOn
  extract_lets src d1
  have h1 : (d1.client c).on = on := congrArg ClientSt.on (d.client_setClient_self c _)
  split
  · exact ⟨h1, Device.ctr_wr _ _ _ _ _ _ (by decide)⟩
  · exact ⟨h1, Device.ctr_wr _ _ _ _ _ _ (by decide)⟩
/-- The count of a command, the client's new state and the event of it. -/
theorem Device.clientOn_told (d : Device) (c : Nat) (on : Bool) (what : Nat) :
    ((((d.count EGR_C37_CMD).clientOn c on).connEvent c what).client c).on = on ∧
    (((d.count EGR_C37_CMD).clientOn c on).connEvent c what).ctr EGR_C37_CMD = (d.ctr EGR_C37_CMD + 1) % 2 ^ 32 := by
  obtain ⟨hon, hctr⟩ := (d.count EGR_C37_CMD).clientOn_sets c on
  unfold Device.connEvent
  refine ⟨?_, ?_⟩
  · rw [Device.client_congr (a := (d.count EGR_C37_CMD).clientOn c on) (by simp) c, hon]
  · rw [Device.ctr_raise _ _ _ _ _ (by decide) (by decide), hctr]
    exact Device.ctr_count_self _ EGR_C37_CMD 0 (by decide) (by decide) (by decide)

/-! Commands: one equation per outcome. -/

section
variable {d d1 : Device} {tcp : Bool} {sender id c : Nat}

theorem c37Cmd_otherCode {cmd : Nat} (hm : d.mayTx = true) (h : cmd = 0 ∨ cmd > 6) : c37Cmd cmd tcp sender id d = d.count EGR_C37_CMD_BAD := by
  unfold c37Cmd
  rw [if_neg (by simp [hm]), if_pos h]
theorem c37Cmd_unknown {cmd : Nat} (hm : d.mayTx = true) (h : 1 ≤ cmd ∧ cmd ≤ 6) (hc : (d.cmdClient tcp sender id).1 = none) :
    c37Cmd cmd tcp sender id d = d.count EGR_C37_CMD_BAD := by
  unfold c37Cmd
  rw [if_neg (by simp [hm]), if_neg (by omega), Device.cmdClient_none hc]
theorem Device.count_client (d : Device) (k : Ctr) (c : Nat) : (d.count k).client c = d.client c := Device.client_congr (by simp) c
theorem c37Cmd_off (hm : d.mayTx = true) (hc : d.cmdClient tcp sender id = (some c, d1)) (hon : (d1.client c).on = true) :
    c37Cmd 1 tcp sender id d = ((d1.count EGR_C37_CMD).clientOn c false).connEvent c 3 := by
  unfold c37Cmd
  rw [if_neg (by simp [hm]), if_neg (by decide), hc]
  dsimp only
  rw [if_neg (by simp), Device.count_client]
  exact if_pos hon
theorem c37Cmd_on (hm : d.mayTx = true) (hc : d.cmdClient tcp sender id = (some c, d1)) (hon : (d1.client c).on = false) :
    c37Cmd 2 tcp sender id d = ((d1.count EGR_C37_CMD).clientOn c true).connEvent c 2 := by
  unfold c37Cmd
  rw [if_neg (by simp [hm]), if_neg (by decide), hc]
  dsimp only
  rw [if_neg (by simp), Device.count_client]
  exact if_neg (by simp [hon])
/-- A request for a header or a configuration. -/
theorem c37Cmd_send {k : Nat} (hm : d.mayTx = true) (hk : k = 3 ∨ k = 4 ∨ k = 5 ∨ k = 6) (hc : d.cmdClient tcp sender id = (some c, d1))
    (h6 : k = 6 → clCfg3 (d1.clientE c) = true) : c37Cmd k tcp sender id d = (d1.count EGR_C37_CMD).clientCfg c k := by
  unfold c37Cmd
  rw [if_neg (by simp [hm]), if_neg (by omega), hc]
  dsimp only
  rw [if_neg (by simpa using h6)]
  rcases hk with rfl | rfl | rfl | rfl
  · rfl
  · rfl
  · rfl
  · rfl

end

theorem Device.cmdClient_udp (d : Device) (sender id : Nat) : (d.cmdClient false sender id).2 = d := rfl
theorem Device.badCommand_counts (d : Device) : (d.count EGR_C37_CMD_BAD).ctr EGR_C37_CMD_BAD = (d.ctr EGR_C37_CMD_BAD + 1) % 2 ^ 32 ∧
    (d.count EGR_C37_CMD_BAD).egr = d.egr :=
  ⟨Device.ctr_count_self _ EGR_C37_CMD_BAD 0 (by decide) (by decide) (by decide), by simp⟩

/-- Settles O46: each command is one of the outcomes of c37Cmd, or the periodic frame. -/
theorem clientCommandsAct : Obligations.ClientCommandsAct := by
  intro s haw hm
  have hmay := Device.mayTx_of_race hm
  refine ⟨?off, ?on, ?send, ?unknown, ?other, ?periodic⟩
  case off =>
    intro tcp sender id c d1 hc hon
    obtain ⟨hcl, -, hctr⟩ := Device.cmdClient_leaves hc
    refine effect_awake rfl haw ?_
    rw [c37Cmd_off hmay hc (by rw [Device.client_congr hcl]; exact hon), ← hctr]
    exact d1.clientOn_told c false 3
  case on =>
    intro tcp sender id c d1 hc hon
    obtain ⟨hcl, -, hctr⟩ := Device.cmdClient_leaves hc
    refine effect_awake rfl haw ?_
    rw [c37Cmd_on hmay hc (by rw [Device.client_congr hcl]; exact hon), ← hctr]
    exact d1.clientOn_told c true 2
  case send =>
    intro sender id c d1 i hc hi hu h3
    obtain rfl : s.dev = d1 := congrArg Prod.snd hc
    obtain ⟨k, hk, hx, h6⟩ : ∃ k, (k = 3 ∨ k = 4 ∨ k = 5 ∨ k = 6) ∧ (∀ t, exec i t = onAwake (c37Cmd k false sender id) t) ∧
        (k = 6 → i = .c37CmdSendCfg3 false sender id) := by
      simp only [List.mem_cons, List.not_mem_nil, or_false] at hi
      rcases hi with rfl | rfl | rfl | rfl
      · exact ⟨3, by decide, fun _ => rfl, fun h => absurd h (by decide)⟩
      · exact ⟨4, by decide, fun _ => rfl, fun h => absurd h (by decide)⟩
      · exact ⟨5, by decide, fun _ => rfl, fun h => absurd h (by decide)⟩
      · exact ⟨6, by decide, fun _ => rfl, fun _ => rfl⟩
    have hcount : Calm (Eff.of [] [0x11]) s.dev (s.dev.count EGR_C37_CMD) := Device.count_calm (Calm.refl _ _) (.inl ⟨rfl⟩)
    have hent : (s.dev.count EGR_C37_CMD).clientE c = s.dev.clientE c := by
      unfold Device.clientE Device.ent
      rw [left_alone hcount.tables rfl]
    obtain ⟨-, hcmd, hsent, hnone⟩ := Device.clientCfg_udp (d := s.dev.count EGR_C37_CMD) (c := c) (by rw [hent]; exact hu) k
    rw [Device.ctr_count_other _ 0 0 (by decide) (by decide) (by decide) (by decide), hent, hcount.lowestPort rfl rfl] at hsent hnone
    refine effect_awake (hx s) haw ?_
    rw [c37Cmd_send hmay hk hc fun h => h3 (h6 h)]
    exact ⟨hcmd.trans (Device.ctr_count_self _ EGR_C37_CMD 0 (by decide) (by decide) (by decide)), hsent, hnone⟩
  case unknown =>
    intro tcp sender id i hc hi
    obtain ⟨k, hk, hx⟩ : ∃ k, (1 ≤ k ∧ k ≤ 6) ∧ ∀ t, exec i t = onAwake (c37Cmd k tcp sender id) t := by
      simp only [List.mem_cons, List.not_mem_nil, or_false] at hi
      rcases hi with rfl | rfl | rfl | rfl | rfl | rfl
      · exact ⟨1, by decide, fun _ => rfl⟩
      · exact ⟨2, by decide, fun _ => rfl⟩
      · exact ⟨3, by decide, fun _ => rfl⟩
      · exact ⟨4, by decide, fun _ => rfl⟩
      · exact ⟨5, by decide, fun _ => rfl⟩
      · exact ⟨6, by decide, fun _ => rfl⟩
    refine effect_awake (hx s) haw ?_
    rw [c37Cmd_unknown hmay hk hc]
    exact s.dev.badCommand_counts
  case other =>
    intro cmd tcp sender id
    refine effect_awake rfl haw ?_
    rw [c37CmdOther, c37Cmd_otherCode hmay (by split <;> omega)]
    exact s.dev.badCommand_counts
  case periodic =>
    intro c t hc ht hen hu
    obtain ⟨hcl, -, hsent, hnone⟩ := Device.clientCfg_udp
      (d := s.dev.setClient c { s.dev.client c with cfgAt := some (s.dev.tk.now + 60 * Time.secU) }) (c := c) hu (if clCfg3 (s.dev.clientE c) then 6 else 5)
    refine effect_awake rfl haw ?_
    rw [c37CfgPeriodic_sends hm hc ht hen hu]
    exact ⟨by rw [Device.client_congr hcl, Device.client_setClient_self], hsent, hnone⟩

end Sys2Proof.Machine
end

section
/-!
What transmission leaves: everything the device has sent stays sent, and building a message changes of a publication its SPDU number alone.
-/
namespace Sys2Proof.Machine
-- Proofs are elaborated in turn: side by side they wait for one another, each on a thread with a stack of its own.
set_option deprecated.oldSectionVars true

/-! What has been sent stays sent. -/

section
variable {l : List Output} {d : Device}

theorem Device.out_emit (h : l ⊆ d.out) (o : Output) : l ⊆ (d.emit o).out :=
  List.Subset.trans h (List.subset_append_left _ _)
theorem Device.out_toHost (h : l ⊆ d.out) (o : Output) : l ⊆ (d.toHost o).out := by
  unfold Device.toHost
  split
  · exact Device.out_emit h o
  · exact h
theorem Device.out_vector (h : l ⊆ d.out) (v : Nat) : l ⊆ (d.vector v).out := by
  unfold Device.vector
  split
  · exact h
  · exact Device.out_toHost h _
theorem Device.out_irqRefresh (h : l ⊆ d.out) (k : Nat) : l ⊆ (d.irqRefresh k).out := by
  unfold Device.irqRefresh
  extract_lets r p d1
  split
  · exact h
  · split
    · exact Device.out_vector (d := d1) h _
    · exact h
theorem out_countWith {rep : EvId → List Nat → Device → Device} (hr : ∀ e dat x, l ⊆ x.out → l ⊆ (rep e dat x).out) (h : l ⊆ d.out) (c : Ctr) (i n : Nat) :
    l ⊆ (countWith rep c i n d).out := by
  unfold countWith
  extract_lets a old new d1
  split
  · exact h
  · split
    · exact h
    · refine hr _ _ _ (Device.out_irqRefresh ?_ _)
      exact h
theorem out_scbFlush {cnt : Device → Device} (hc : ∀ x, l ⊆ x.out → l ⊆ (cnt x).out) (h : l ⊆ d.out) : l ⊆ (scbFlush cnt d).out := by
  unfold scbFlush
  split
  · exact h
  · split
    · exact h
    · split
      · exact h
      · exact hc _ h
theorem out_raiseF (fuel : Nat) (e : EvId) (dat : List Nat) (h : l ⊆ d.out) : l ⊆ (raiseF fuel e dat d).out := by
  induction fuel generalizing e dat d with
  | zero => exact h
  | succ n ih =>
    have hcount (c : Ctr) (x : Device) (hx : l ⊆ x.out) : l ⊆ (countWith (raiseF n) c 0 1 x).out := out_countWith (fun _ _ _ hy => ih _ _ hy) hx c 0 1
    unfold raiseF
    split
    · exact h
    · extract_lets flush fold
      have hflush (x : Device) (hx : l ⊆ x.out) : l ⊆ (flush x).out := by
        unfold flush
        split
        · exact out_scbFlush (hcount _) hx
        · exact hx
      clear_value flush fold
      split
      · exact hflush _ (hcount _ _ h)
      · split
        · exact hflush _ (hcount _ _ h)
        · exact hflush _ (hcount _ _ h)
theorem Device.out_raise (h : l ⊆ d.out) (e : EvId) (dat : List Nat) : l ⊆ (d.raise e dat).out := out_raiseF 4 e dat h
theorem Device.out_count (h : l ⊆ d.out) (c : Ctr) (i : Nat) : l ⊆ (d.count c i).out := out_countWith (fun _ _ _ hx => out_raiseF 4 _ _ hx) h c i 1

end

/-! Transmission. -/

/-- From `a` to `d` nothing that was sent is taken back, and of a publication's state the SPDU number alone may differ. -/
abbrev Device.Sends (a d : Device) : Prop := a.out ⊆ d.out ∧ ∀ n, ∃ u, d.gooseSt n = { a.gooseSt n with spdu := u }

namespace Device.Sends
variable {a b d : Device}

theorem out (h : Sends a d) : a.out ⊆ d.out := h.1
theorem goose (h : Sends a d) (n : Nat) : ∃ u, d.gooseSt n = { a.gooseSt n with spdu := u } := h.2 n
theorem refl (d : Device) : Sends d d := ⟨List.Subset.refl _, fun n => ⟨(d.gooseSt n).spdu, rfl⟩⟩
theorem trans (h : Sends a b) (g : Sends b d) : Sends a d := by
  refine ⟨List.Subset.trans h.out g.out, fun n => ?_⟩
  obtain ⟨u, hu⟩ := h.goose n
  obtain ⟨w, hw⟩ := g.goose n
  exact ⟨w, by rw [hw, hu]⟩
/-- An operation that leaves the publications and takes nothing back. -/
theorem of_goose (h : Sends a b) (ho : b.out ⊆ d.out) (hg : d.egr.goose = b.egr.goose) : Sends a d :=
  h.trans ⟨ho, fun n => ⟨(b.gooseSt n).spdu, by rw [Device.gooseSt, hg]; rfl⟩⟩
theorem emit (h : Sends a d) (o : Output) : Sends a (d.emit o) := h.of_goose (Device.out_emit (List.Subset.refl _) o) rfl
theorem count (h : Sends a d) (c : Ctr) (i : Nat) : Sends a (d.count c i) :=
  h.of_goose (Device.out_count (List.Subset.refl _) c i) (congrArg Egr.goose (Device.count_egr d c i))
theorem raise (h : Sends a d) (e : EvId) (dat : List Nat) : Sends a (d.raise e dat) :=
  h.of_goose (Device.out_raise (List.Subset.refl _) e dat) (congrArg Egr.goose (Device.raise_egr d e dat))
theorem raiseSec (h : Sends a d) (last : Option Nat) (e : EvId) (dat : List Nat) : Sends a (d.raiseSec last e dat) := by
  unfold Device.raiseSec
  split
  · exact h
  · exact h.raise e dat
theorem noteRead (h : Sends a d) (arr loc : Nat) : Sends a (d.noteRead arr loc) := by
  unfold Device.noteRead
  split
  · exact h
  · exact h.of_goose (List.Subset.refl _) rfl
theorem setPtx (h : Sends a d) (p : Nat) (t : PortTx) : Sends a (d.setPtx p t) := h.of_goose (List.Subset.refl _) rfl
theorem setPtp (h : Sends a d) (p : Nat) (x : PtpPort) : Sends a (d.setPtp p x) := h.of_goose (List.Subset.refl _) rfl
theorem setf (h : Sends a d) (x : RF) (v i : Nat) : Sends a (d.setf x v i) := h.of_goose (List.Subset.refl _) rfl
theorem setConn (h : Sends a d) (n : Nat) (x : EgrConn) : Sends a (d.setConn n x) := h.of_goose (List.Subset.refl _) rfl
theorem txPush (h : Sends a d) (p : Nat) (alarm : Bool) (x : TxItem) : Sends a (d.txPush p alarm x) := by
  rcases d.txPush_cases p alarm x with he | ⟨t, he⟩
  · rw [he]
    exact h
  · rw [he]
    exact h.setPtx p t
theorem foldl {α : Type} {f : Device → α → Device} (hf : ∀ x b, Sends x (f x b)) (l : List α) (d : Device) : Sends d (l.foldl f d) := by
  induction l generalizing d with
  | nil => exact .refl d
  | cons b l ih => exact (hf d b).trans (ih (f d b))
/-- Storing a publication's state anew where it differs in the SPDU number alone. -/
theorem setGoose (h : Sends a d) {n : Nat} {g : GooseSt} (hg : ∃ u, g = { a.gooseSt n with spdu := u }) : Sends a (d.setGoose n g) := by
  refine ⟨h.out, fun m => ?_⟩
  by_cases hm : m = n
  · subst hm
    rw [show (d.setGoose m g).gooseSt m = g from mgetD_mset_self _ _ _ _]
    exact hg
  · rw [show (d.setGoose n g).gooseSt m = d.gooseSt m from mgetD_mset_other _ _ _ _ _ hm]
    exact h.goose m

/-! A publication's message. -/

theorem sendKey {g user : Nat} {o : Option KeyEntry} (h : a.sendKey g user = (o, d)) : Sends a d := by
  have hread := (refl a).noteRead 10 (keyLoc g)
  obtain rfl : (a.sendKey g user).2 = d := congrArg Prod.snd h
  unfold Device.sendKey
  split
  · exact hread
  · exact ((hread.count KEY_NOKEY 0).raiseSec _ _ _).of_goose (List.Subset.refl _) rfl
theorem gooseFill (h : Sends a d) (n : Nat) (e : List Word) (pdu : Option (List Byte)) : Sends a (d.gooseFill n e pdu) :=
  h.trans (foldl (fun x _ => (refl x).setPtx _ _) _ d)
theorem goosePduRouted {n : Nat} {e : List Word} {o : Option (List Byte)} (h : a.goosePduRouted n e = (o, d)) : Sends a d := by
  have hnum : ∃ u, ({ a.gooseSt n with spdu := ((a.gooseSt n).spdu + 1) % 4294967296 } : GooseSt) = { a.gooseSt n with spdu := u } := ⟨_, rfl⟩
  have h1 := (refl a).setGoose hnum
  obtain rfl : (a.goosePduRouted n e).2 = d := congrArg Prod.snd h
  unfold Device.goosePduRouted
  extract_lets g sec enc elems d1 wrap
  split
  · exact h1
  · split
    case h_1 d2 hk => exact sendKey hk
    case h_2 k d2 hk =>
      have h3 := ((sendKey hk).setGoose (h1.goose n)).count EGR_RGOOSE_SEC 0
      extract_lets hdr nonce d3 ct
      split
      · exact h3
      · exact h3
theorem gooseBuild (h : Sends a d) (n : Nat) : Sends a (d.gooseBuild n) := by
  refine h.trans ?_
  unfold Device.gooseBuild
  extract_lets e x
  have hx : Sends d x := foldl (fun y _ => (refl y).noteRead _ _) _ d
  split
  · split
    case h_1 d1 hp => exact (hx.trans (goosePduRouted hp)).gooseFill _ _ _
    case h_2 b d1 hp => exact ((hx.trans (goosePduRouted hp)).gooseFill _ _ _).count _ _
  · exact (hx.gooseFill _ _ _).count _ _
theorem txStartF (fuel p : Nat) (d : Device) : Sends d (txStartF fuel p d) := by
  induction fuel generalizing d with
  | zero => exact .refl d
  | succ n ih =>
    unfold Machine.txStartF
    extract_lets t
    split
    · exact .refl d
    · split
      · split
        · exact .refl d
        · exact (refl d).setPtx _ _
      · split
        · exact ((refl d).gooseBuild _).trans (ih _)
        · exact (refl d).setPtx _ _
theorem txStart (h : Sends a d) (p : Nat) : Sends a (d.txStart p) := h.trans (txStartF _ p d)
theorem gooseGo (h : Sends a d) : Sends a d.gooseGo := h.trans (foldl (fun x p => (refl x).txStart p) _ d)
theorem gooseQueue (h : Sends a d) (n : Nat) (e : List Word) (new : Bool) : Sends a (d.gooseQueue n e new) := by
  refine h.trans (foldl (fun x p => ?_) _ d)
  split
  · extract_lets t
    split
    · exact (refl x).setPtx _ _
    · exact (refl x).txPush _ _ _
  · exact .refl x

/-! Time-stamps and segments. -/

theorem ptpSend (h : Sends a d) (p : Nat) (m : List Byte) (ident : Option Nat) (fix : Nat) (rx : Time) : Sends a (d.ptpSend p m ident fix rx) := by
  unfold Device.ptpSend
  split
  · exact h
  · extract_lets typ peer item dst port d1
    have h1 : Sends a d1 := by
      unfold d1
      split
      · exact h.txPush _ _ _
      · exact h.txPush _ _ _
    exact h1.count _ _
theorem txPtpTake (h : Sends a d) (p : Nat) (e : TxStamp) : Sends a (d.txPtpTake p e) := by
  unfold Device.txPtpTake
  extract_lets x d1 y
  split
  · exact h
  · have h1 : Sends a d1 := h.setPtp _ _
    split
    · exact h1.ptpSend _ _ _ _ _
    · exact h1.ptpSend _ _ _ _ _
    · split
      · split
        · exact h1.setPtp _ _
        · exact h1
      · exact h1
    · split
      · split
        · exact h1.setPtp _ _
        · exact h1
      · exact h1
theorem txStamp (h : Sends a d) (p ident : Nat) (stamp : Time) : Sends a (d.txStamp p ident stamp) := by
  unfold Device.txStamp
  extract_lets x e d1 d2 y d3
  have h3 : Sends a d3 := (((h.setf _ _ _).count _ _).raiseSec _ _ _).setPtp _ _
  split
  · split
    · exact h3.count _ _
    · exact h3.count _ _
    · exact h3
  · split
    · exact h.txPtpTake p e
    · exact h.setPtp _ _
theorem segSend (h : Sends a d) (n p : Nat) (x : EgrConn) (seq : Nat) (b : List Byte) : Sends a (d.segSend n p x seq b) := by
  unfold Device.segSend
  extract_lets src tcp fr egr d1
  have h1 : Sends a d1 := h.of_goose (List.Subset.refl _) rfl
  exact ((h1.txPush _ _ _).count _ _).emit _
theorem segNext (h : Sends a d) (n : Nat) : Sends a (d.segNext n) := by
  unfold Device.segNext
  split
  · exact h
  · split
    · exact h
    · split
      · exact h
      · split
        · exact ((h.setConn _ _).segSend _ _ _ _ _).count _ _
        · exact h
        · exact (h.setConn _ _).segSend _ _ _ _ _

end Device.Sends

end Sys2Proof.Machine
end

section
/-!
Retransmission of GOOSE messages (R251), the clients' TCP connections (R256, R257) and the end of a frame (R258, R329).
-/
namespace Sys2Proof.Machine
-- Proofs are elaborated in turn: side by side they wait for one another, each on a thread with a stack of its own.
set_option deprecated.oldSectionVars true

/-! GOOSE_RETRANSMIT. -/

/-- The next interval of a publication in ms: twice as long, up to MAX_RT_MS. -/
def Device.nextInterval (d : Device) (n : Nat) : Nat := min (2 * (d.gooseSt n).interval) (bx (wd (d.ent tPub n) 2) 15 0)

section
variable {d : Device} {n : Nat} {t : Time}

theorem gooseRetransmit_sends (hm : d.pwr.mode = .race) (hen : pubEn (d.ent tPub n) = true) (hn : (d.gooseSt n).nextAt = some t) (ht : t ≤ d.tk.now)
    (hp : d.goosePending n = false) : gooseRetransmit n d = ((d.setGoose n { d.gooseSt n with
      sqNum := ((d.gooseSt n).sqNum + 1) % 4294967296, interval := d.nextInterval n,
      nextAt := some (d.tk.now + d.nextInterval n * Time.msU) }).gooseQueue n (d.ent tPub n) false).gooseGo := by
  have hnow := Device.now_of_race hm
  unfold gooseRetransmit
  dsimp only
  rw [hn]
  dsimp only
  rw [if_neg (by simp [Device.mayTx_of_race hm, hen, hnow, ht]), hp, hnow]
  rfl
theorem gooseRetransmit_waits (hm : d.pwr.mode = .race) (hen : pubEn (d.ent tPub n) = true) (hn : (d.gooseSt n).nextAt = some t) (ht : t ≤ d.tk.now)
    (hp : d.goosePending n = true) : gooseRetransmit n d = d.setGoose n { d.gooseSt n with
      interval := d.nextInterval n, nextAt := some (d.tk.now + d.nextInterval n * Time.msU) } := by
  have hnow := Device.now_of_race hm
  unfold gooseRetransmit
  dsimp only
  rw [hn]
  dsimp only
  rw [if_neg (by simp [Device.mayTx_of_race hm, hen, hnow, ht]), hp, hnow]
  rfl

end

@[simp] theorem Device.gooseSt_setGoose_self (d : Device) (n : Nat) (g : GooseSt) : (d.setGoose n g).gooseSt n = g := mgetD_mset_self _ _ _ _

/-! Connections. -/

theorem Device.conn_setConn_self (d : Device) (n : Nat) (x : EgrConn) : mget (d.setConn n x).egr.conns n = some x := mget_mset_self _ _ _
theorem egressTcpAccept_opens {n port addr pport mss iss rcv : Nat} {v6 : Bool} {d : Device} {e : Nat × List Word} (hm : d.mayTx = true)
    (ha : d.active uPORT port = true) (hn : mget d.egr.conns n = none) (he : e ∈ d.ents tClient) (hen : clEn e.2 = true) (htcp : clTcp e.2 = true)
    (hpeer : clPeer e.2 = peerBytes v6 addr) (hport : clPort e.2 = 0 ∨ clPort e.2 = pport) (hbit : (clPorts e.2).testBit port = true) :
    egressTcpAccept n port v6 addr pport mss iss rcv d = d.setConn n ⟨peerBytes v6 addr, pport, port, mss, rcv, none, iss % 4294967296,
      iss % 4294967296, 0, [], [], false, false, d.now⟩ := by
  unfold egressTcpAccept
  extract_lets ip known
  have hknown : known = true := List.any_eq_true.2 ⟨e, he, by simpa [hen, htcp, hpeer, hbit, ip] using hport⟩
  exact if_neg (by simp [hm, ha, hn, hknown])

theorem Device.ctr_emit (d : Device) (o : Output) (c : Ctr) (i : Nat) : (d.emit o).ctr c i = d.ctr c i := rfl
/-- A segment is sent from its port and counted; the connections stay. -/
theorem Device.segSend_leaves (d : Device) (n p : Nat) (x : EgrConn) (seq : Nat) (b : List Byte) :
    (d.segSend n p x seq b).egr.conns = d.egr.conns ∧ Output.tcpSent true n p seq b ∈ (d.segSend n p x seq b).out ∧
    (d.segSend n p x seq b).ctr EGR_TCP_RETX = d.ctr EGR_TCP_RETX := by
  unfold Device.segSend
  extract_lets src tcp fr egr d1
  obtain ⟨t, ht⟩ := d1.txPush_egr p false { txPlain fr with seg := some n }
  refine ⟨?conns, Device.mem_emit_out _ _, ?retx⟩
  case conns =>
    change ((d1.txPush p false { txPlain fr with seg := some n }).count EGR_C37_SEGS).egr.conns = _
    rw [Device.count_egr, ht]
    rfl
  case retx =>
    rw [Device.ctr_emit, Device.ctr_count_other _ 0 0 (by decide) (by decide) (by decide) (by decide), Device.ctr_congr (d1.txPush_regs _ _ _)]
    rfl

section
variable {d : Device} {n : Nat} {x : EgrConn}

theorem Device.segNext_stays (hx : mget d.egr.conns n = some x) (h : x.queued = true ∨ d.connPort x = none) : d.segNext n = d := by
  unfold Device.segNext
  rw [hx]
  dsimp only
  rcases h with h | h
  · split
    · rfl
    · exact if_pos (by simp [h])
  · rw [h]
theorem Device.segNext_again {p : Nat} {s : Nat × List Byte} {r : List (Nat × List Byte)} (hx : mget d.egr.conns n = some x) (hm : d.mayTx = true)
    (hp : d.connPort x = some p) (hq : x.queued = false) (ha : x.again = true) (hs : x.sent = s :: r) :
    d.segNext n = ((d.setConn n { x with again := false, queued := true, lastTx := d.now }).segSend n p x s.1 s.2).count EGR_TCP_RETX := by
  unfold Device.segNext
  rw [hx]
  dsimp only
  rw [hp]
  dsimp only
  rw [if_neg (by simp [hq, hm]), ha, hs]
/-- The next segment acknowledges nothing. -/
theorem Device.segNext_una (hx : mget d.egr.conns n = some x) : ∃ y, mget (d.segNext n).egr.conns n = some y ∧ y.una = x.una ∧ y.dup = x.dup := by
  have hsent (y : EgrConn) (p seq : Nat) (b : List Byte) : mget ((d.setConn n y).segSend n p x seq b).egr.conns n = some y := by
    rw [((d.setConn n y).segSend_leaves n p x seq b).1]
    exact d.conn_setConn_self n y
  unfold Device.segNext
  rw [hx]
  dsimp only
  split
  · exact ⟨x, hx, rfl, rfl⟩
  · split
    · exact ⟨x, hx, rfl, rfl⟩
    · split
      · refine ⟨{ x with again := false, queued := true, lastTx := d.now }, ?_, rfl, rfl⟩
        rw [Device.count_egr]
        exact hsent _ _ _ _
      · exact ⟨x, hx, rfl, rfl⟩
      · exact ⟨_, hsent _ _ _ _, rfl, rfl⟩

/-- A connection whose oldest segment is to be sent again: it is, where a port is there and no segment of it waits. -/
theorem Device.segNext_retransmits {y : EgrConn} {p : Nat} {s : Nat × List Byte} {r : List (Nat × List Byte)} (hm : d.mayTx = true)
    (hp : d.connPort y = some p) (hq : y.queued = false) (ha : y.again = true) (hs : y.sent = s :: r) :
    Output.tcpSent true n p s.1 s.2 ∈ ((d.setConn n y).segNext n).out ∧
    ((d.setConn n y).segNext n).ctr EGR_TCP_RETX = (d.ctr EGR_TCP_RETX + 1) % 2 ^ 32 := by
  rw [Device.segNext_again (d := d.setConn n y) (d.conn_setConn_self n y) hm hp hq ha hs]
  obtain ⟨-, hout, hctr⟩ := Device.segSend_leaves ((d.setConn n y).setConn n { y with again := false, queued := true, lastTx := d.now }) n p y s.1 s.2
  exact ⟨Device.out_count (List.Subset.refl _) _ _ hout,
    (Device.ctr_count_self _ EGR_TCP_RETX 0 (by decide) (by decide) (by decide)).trans (congrArg (fun k => (k + 1) % 4294967296) hctr)⟩
theorem Device.segNext_defers {y : EgrConn} (h : y.queued = true ∨ d.connPort y = none) :
    mget ((d.setConn n y).segNext n).egr.conns n = some y ∧ ((d.setConn n y).segNext n).ctr EGR_TCP_RETX = d.ctr EGR_TCP_RETX := by
  rw [Device.segNext_stays (d := d.setConn n y) (d.conn_setConn_self n y) h]
  exact ⟨d.conn_setConn_self n y, rfl⟩

/-! Acknowledgements and the retransmission timeout. -/

theorem egressTcpAck_moves {ack : Nat} (hx : mget d.egr.conns n = some x) (h0 : 0 < (ack + 4294967296 - x.una) % 4294967296)
    (h1 : (ack + 4294967296 - x.una) % 4294967296 ≤ (x.sndNxt + 4294967296 - x.una) % 4294967296) :
    ∃ y, y.una = ack % 4294967296 ∧ y.dup = 0 ∧ egressTcpAck n ack d = (d.setConn n y).segNext n := by
  unfold egressTcpAck
  rw [hx]
  dsimp only
  rw [if_neg (by omega), if_pos h1]
  exact ⟨_, rfl, rfl, rfl⟩
/-- The third duplicate acknowledgement. -/
theorem egressTcpAck_third (hx : mget d.egr.conns n = some x) (hs : x.sent ≠ []) (hd : x.dup = 2) :
    egressTcpAck n x.una d = ((d.setConn n { x with dup := 3 }).setConn n { x with dup := 3, again := true }).segNext n := by
  unfold egressTcpAck
  rw [hx]
  dsimp only
  rw [if_pos (by rw [Nat.add_sub_cancel_left]), if_neg (by simpa using hs), hd, if_pos rfl, Device.connRetx, Device.conn_setConn_self]
theorem egressTcpRto_expired (hx : mget d.egr.conns n = some x) (hm : d.pwr.mode = .race) (hs : x.sent ≠ []) (ht : x.lastTx + 200 * Time.msU ≤ d.tk.now) :
    egressTcpRto n d = (d.setConn n { x with again := true }).segNext n := by
  unfold egressTcpRto
  rw [hx]
  dsimp only
  rw [if_neg (by simp [Device.mayTx_of_race hm, Device.now_of_race hm, hs, ht]), Device.connRetx, hx]

end

/-! TX_FRAME_COMPLETE. -/

/-- After a frame of port `p` has been counted: it stays counted once, and sent. -/
abbrev Device.FrameKept (p : Nat) (a d : Device) : Prop := a.out ⊆ d.out ∧ d.ctr TX_FRAMES_OK p = a.ctr TX_FRAMES_OK p

namespace Device.FrameKept
variable {p : Nat} {a b d : Device}

theorem out (h : FrameKept p a d) : a.out ⊆ d.out := h.1
theorem ctr (h : FrameKept p a d) : d.ctr TX_FRAMES_OK p = a.ctr TX_FRAMES_OK p := h.2
theorem refl (d : Device) : FrameKept p d d := ⟨List.Subset.refl _, rfl⟩
theorem trans (h : FrameKept p a b) (g : FrameKept p b d) : FrameKept p a d := ⟨List.Subset.trans h.out g.out, g.ctr.trans h.ctr⟩
/-- What sends and does not touch the ports' registers. -/
theorem of_calm {u : List Nat} (hs : Sends a d) (hc : Calm (Eff.of [] u) a d) (hu : u.contains 4 = false) : FrameKept p a d :=
  ⟨hs.out, hc.ctr_of TX_FRAMES_OK p hu (by decide) (by decide)⟩
/-- A count in another counter. -/
theorem count (d : Device) {c : Ctr} (hb : TX_FRAMES_OK.base + p * TX_FRAMES_OK.stride ≠ c.base + p * c.stride)
    (hh : TX_FRAMES_OK.base + p * TX_FRAMES_OK.stride ≠ c.half + p * c.stride) : FrameKept p d (d.count c p) :=
  ⟨Device.out_count (List.Subset.refl _) c p, Device.ctr_count_other d p p (by decide) (by decide) hb hh⟩
/-- A time-stamp writes of the port's registers only its queue's overflow bit. -/
theorem txStamp (d : Device) (i : Nat) (stamp : Time) : FrameKept p d (d.txStamp p i stamp) := by
  refine ⟨((Sends.refl d).txStamp p i stamp).out, ?_⟩
  have hovf : (d.setf ETH_TXTS_STAT.OVF 1 p).ctr TX_FRAMES_OK p = d.ctr TX_FRAMES_OK p := by
    refine Device.ctr_setf _ _ _ _ _ _ ?_
    simp only [TX_FRAMES_OK, ETH_TXTS_STAT.OVF, ETH_TXTS_STAT, RegDef.key]
    simp
  have hcalm : Calm (Eff.of [] [0x02, 0x11]) d (d.txStamp p i stamp) ∨
      Calm (Eff.of [] [0x02, 0x11]) (d.setf ETH_TXTS_STAT.OVF 1 p) (d.txStamp p i stamp) := by
    unfold Device.txStamp
    extract_lets x e d1 d2 y d3
    split
    · have h3 : Calm (Eff.of [] [0x02, 0x11]) (d.setf ETH_TXTS_STAT.OVF 1 p) d3 :=
        Device.setPtp_calm (Device.raiseSec_calm (Device.count_calm (Calm.refl _ _) (.inl ⟨rfl⟩))) ⟨rfl⟩
      split
      · exact .inr (Device.count_calm h3 (.inl ⟨rfl⟩))
      · exact .inr (Device.count_calm h3 (.inl ⟨rfl⟩))
      · exact .inr h3
    · split
      · exact .inl (Device.txPtpTake_calm (Calm.refl _ d) ⟨rfl⟩ ⟨rfl⟩)
      · exact .inl (Device.setPtp_calm (Calm.refl _ d) ⟨rfl⟩)
  rcases hcalm with hc | hc
  · exact hc.ctr_of TX_FRAMES_OK p rfl (by decide) (by decide)
  · exact (hc.ctr_of TX_FRAMES_OK p rfl (by decide) (by decide)).trans hovf

end Device.FrameKept

/-- The frame in transmission has gone, and is counted with its queue. -/
def Device.frameSent (d : Device) (p : Nat) (x : TxItem) (alarm : Bool) (stamp : Time) : Device :=
  (((d.setPtx p { d.ptx p with cur := none }).emit (.ethFrame p alarm (txFix x (d.txAdjust p stamp)))).count TX_FRAMES_OK p).count
    (if alarm then TX_ALARM_Q else TX_STREAM_Q) p
theorem Device.frameSent_counts (d : Device) (p : Nat) (x : TxItem) (alarm : Bool) (stamp : Time) :
    Output.ethFrame p alarm (txFix x (d.txAdjust p stamp)) ∈ (d.frameSent p x alarm stamp).out ∧
    (d.frameSent p x alarm stamp).ctr TX_FRAMES_OK p = (d.ctr TX_FRAMES_OK p + 1) % 2 ^ 32 := by
  unfold Device.frameSent
  extract_lets src
  have hkept (y : Device) : y.FrameKept p (y.count (if alarm then TX_ALARM_Q else TX_STREAM_Q) p) := by
    cases alarm with
    | true => exact .count y (by simp [TX_FRAMES_OK, TX_ALARM_Q]) (by simp [TX_FRAMES_OK, TX_ALARM_Q])
    | false => exact .count y (by simp [TX_FRAMES_OK, TX_STREAM_Q]) (by simp [TX_FRAMES_OK, TX_STREAM_Q])
  refine ⟨(hkept _).out (Device.out_count (List.Subset.refl _) _ _ (Device.mem_emit_out _ _)), ?_⟩
  rw [(hkept _).ctr]
  exact Device.ctr_count_self _ TX_FRAMES_OK p (by decide) (by decide) (by simp [TX_FRAMES_OK])
/-- What follows: the next frame starts, the time-stamp goes its way, and a connection's next segment queues. -/
theorem txFrameComplete_kept {p stamp fw : Nat} {d : Device} {x : TxItem} {alarm : Bool} (ha : d.alive = true) (hp : p < 8)
    (hc : (d.ptx p).cur = some (x, alarm)) : (d.frameSent p x alarm stamp).FrameKept p (txFrameComplete p stamp fw d) := by
  unfold txFrameComplete
  rw [if_neg (by simp [ha, hp])]
  split
  case h_1 hnone => exact absurd (hc.symm.trans hnone) (Option.some_ne_none _)
  case h_2 x' alarm' hsome =>
    obtain ⟨rfl, rfl⟩ : x = x' ∧ alarm = alarm' := by simpa using hc.symm.trans hsome
    extract_lets src d1 d2 d3 d4 d5
    have h3 : d2.FrameKept p d3 := .of_calm (u := [0x11, 0x18]) ((Device.Sends.refl d2).txStart p) (Device.txStart_calm (Calm.refl _ d2) ⟨rfl⟩ ⟨rfl⟩) rfl
    have h4 : d2.FrameKept p d4 := by
      unfold d4
      split
      · exact h3.trans (.txStamp d3 _ _)
      · exact h3
    have h5 : d2.FrameKept p d5 := h4.trans (.count d4 (by simp [TX_FRAMES_OK, TX_SEGMENTS]) (by simp [TX_FRAMES_OK, TX_SEGMENTS]))
    split
    · exact h4
    · split
      · exact h5.trans (.of_calm (u := [0x11]) (((Device.Sends.refl d5).setConn _ _).segNext _) (Device.segNext_calm (Device.setConn_calm (Calm.refl _ d5) ⟨rfl⟩) ⟨rfl⟩) rfl)
      · exact h5
theorem txFrameComplete_firmware {p stamp fw : Nat} {d : Device} (ha : d.alive = true) (hp : p < 8) (hc : (d.ptx p).cur = none) (hl : 32768 ≤ fw)
    (hu : fw ≤ 65535) (hact : d.active uPORT p = true) :
    txFrameComplete p stamp fw d = ((d.count TX_FRAMES_OK p).count TX_STREAM_Q p).txStamp p fw stamp := by
  unfold txFrameComplete
  rw [if_neg (by simp [ha, hp]), hc]
  exact if_neg (by simp [hact]; omega)
@[simp] theorem Device.ptp_count (d : Device) (c : Ctr) (i p : Nat) : (d.count c i).ptp p = d.ptp p := by
  unfold Device.ptp
  simp
theorem Device.ctr_setPtp (d : Device) (p : Nat) (x : PtpPort) (c : Ctr) (i : Nat) : (d.setPtp p x).ctr c i = d.ctr c i := rfl
/-- A count of the port in another register leaves the correction of its time-stamps. -/
theorem Device.txAdjust_count (d : Device) {c : Ctr} {p : Nat} (stamp : Time)
    (hb : ETH_PTP_LAT.base + p * ETH_PTP_LAT.stride ≠ c.base + p * c.stride)
    (hh : ETH_PTP_LAT.base + p * ETH_PTP_LAT.stride ≠ c.half + p * c.stride) : (d.count c p).txAdjust p stamp = d.txAdjust p stamp := by
  unfold Device.txAdjust
  rw [Device.f_count d c p ETH_PTP_LAT.TX_ADJ p (by decide) (by decide) hb hh]
/-- A firmware frame's time-stamp enters the queue that has room for it. -/
theorem Device.txStamp_firmware {d : Device} {p fw : Nat} (stamp : Time) (hl : 32768 ≤ fw) (hq : (d.ptp p).txq.length < 16) :
    d.txStamp p fw stamp = d.setPtp p { d.ptp p with txq := (d.ptp p).txq ++ [⟨fw, d.txAdjust p stamp⟩] } := by
  unfold Device.txStamp
  rw [if_neg (by omega), if_neg (by omega)]

/-- Settles O47: publications by what a message changes of them, connections by what a segment changes of them, frames by what follows their count. -/
theorem transmissionCommandsAct : Obligations.TransmissionCommandsAct := by
  intro s haw
  have ha := Device.alive_of_awake haw
  refine ⟨?sends, ?waits, ?accept, ?acknowledged, ?retransmits, ?frame, ?firmware⟩
  case sends =>
    intro n t hm hen hn ht hp
    refine effect_awake rfl haw ?_
    rw [gooseRetransmit_sends hm hen hn ht hp]
    obtain ⟨u, hu⟩ := (((Device.Sends.refl _).gooseQueue n (s.dev.ent tPub n) false).gooseGo).goose n
    rw [hu, Device.gooseSt_setGoose_self]
    exact ⟨rfl, rfl, rfl, rfl⟩
  case waits =>
    intro n t hm hen hn ht hp
    refine effect_awake rfl haw ?_
    rw [gooseRetransmit_waits hm hen hn ht hp, Device.gooseSt_setGoose_self]
    rfl
  case accept =>
    intro conn port v6 addr pport mss iss rcv e hm hact hconn he hen htcp hpeer hport hbit
    refine effect_awake rfl haw ?_
    rw [egressTcpAccept_opens (Device.mayTx_of_race hm) hact hconn he hen htcp hpeer hport hbit]
    exact ⟨_, Device.conn_setConn_self _ _ _, rfl, rfl, rfl, rfl, rfl, rfl, rfl⟩
  case acknowledged =>
    rintro conn ack x adv hx rfl h0 h1
    obtain ⟨y, hu, hd, heq⟩ := egressTcpAck_moves hx h0 h1
    refine effect_awake rfl haw ?_
    obtain ⟨z, hz, hzu, hzd⟩ := Device.segNext_una (s.dev.conn_setConn_self conn y)
    rw [heq]
    exact ⟨z, hz, hzu.trans hu, hzd.trans hd⟩
  case retransmits =>
    intro conn x b rest c hm hx hs hc
    have hmay := Device.mayTx_of_race hm
    have hne : x.sent ≠ [] := by rw [hs]; exact List.cons_ne_nil _ _
    obtain ⟨f, d, y, hexec, heq, ⟨hport, hctr, hd⟩, ⟨hq, hag, hsent⟩⟩ : ∃ (f : Device → Device) (d : Device) (y : EgrConn),
        (∀ t, exec c t = onAwake f t) ∧ f s.dev = (d.setConn conn y).segNext conn ∧
        (d.connPort y = s.dev.connPort x ∧ d.ctr EGR_TCP_RETX = s.dev.ctr EGR_TCP_RETX ∧ d.mayTx = true) ∧
        (y.queued = x.queued ∧ y.again = true ∧ y.sent = x.sent) := by
      rcases hc with ⟨rfl, hdup, -⟩ | ⟨rfl, ht⟩
      · exact ⟨_, s.dev.setConn conn { x with dup := 3 }, _, fun _ => rfl, egressTcpAck_third hx hne hdup, ⟨rfl, rfl, hmay⟩, rfl, rfl, rfl⟩
      · exact ⟨_, s.dev, _, fun _ => rfl, egressTcpRto_expired hx hm hne ht, ⟨rfl, rfl, hmay⟩, rfl, rfl, rfl⟩
    refine ⟨fun p hxq hp => effect_awake (hexec s) haw ?_, fun h => effect_awake (hexec s) haw ?_⟩
    · rw [heq, ← hctr]
      exact Device.segNext_retransmits hd (hport.trans hp) (hq.trans hxq) hag (hsent.trans hs)
    · obtain ⟨hy, hyc⟩ := Device.segNext_defers (d := d) (n := conn) (y := y) (by rw [hq, hport]; exact h)
      rw [heq]
      exact ⟨y, hy, hag, hsent, hyc.trans hctr⟩
  case frame =>
    intro p stamp fw x alarm hp hc
    obtain ⟨hout, hctr⟩ := s.dev.frameSent_counts p x alarm stamp
    have hkept := txFrameComplete_kept (stamp := stamp) (fw := fw) ha hp hc
    exact effect_awake rfl haw ⟨hkept.out hout, hkept.ctr.trans hctr⟩
  case firmware =>
    intro p stamp fw hp hc hl hu hact hq
    have hadj : ((s.dev.count TX_FRAMES_OK p).count TX_STREAM_Q p).txAdjust p stamp = s.dev.txAdjust p stamp :=
      (Device.txAdjust_count _ stamp (by simp [ETH_PTP_LAT, TX_STREAM_Q]) (by simp [ETH_PTP_LAT, TX_STREAM_Q])).trans
        (Device.txAdjust_count _ stamp (by simp [ETH_PTP_LAT, TX_FRAMES_OK]) (by simp [ETH_PTP_LAT, TX_FRAMES_OK]))
    refine effect_awake rfl haw ?_
    rw [txFrameComplete_firmware ha hp hc hl hu hact, Device.txStamp_firmware stamp hl (by simpa using hq), hadj, Device.ptp_count, Device.ptp_count]
    refine ⟨?_, congrArg PtpPort.txq (mgetD_mset_self _ _ _ _)⟩
    rw [Device.ctr_setPtp, (Device.FrameKept.count _ (by simp [TX_FRAMES_OK, TX_STREAM_Q]) (by simp [TX_FRAMES_OK, TX_STREAM_Q])).ctr]
    exact Device.ctr_count_self _ TX_FRAMES_OK p (by decide) (by decide) (by simp [TX_FRAMES_OK])

end Sys2Proof.Machine
end

section
/-!
The hardwired outputs (R247): what one output becomes, what its recomputation leaves, and the three commands.
-/
namespace Sys2Proof.Machine
-- Proofs are elaborated in turn: side by side they wait for one another, each on a thread with a stack of its own.
set_option deprecated.oldSectionVars true

/-! What the shape of an output depends on. -/

/-- All that an output's next state depends on beside its present one is left: time, mode, hurdles and the outputs' configuration. -/
abbrev Device.AoutKept (a d : Device) : Prop :=
  d.pwr = a.pwr ∧ d.tk = a.tk ∧ d.jnl = a.jnl ∧ d.tables = a.tables ∧ d.alm.hur = a.alm.hur ∧ ∀ j, j < 16 → d.rg ALM_AOUT_CFG j = a.rg ALM_AOUT_CFG j

namespace Device.AoutKept
variable {a b d : Device} {j : Nat}

theorem refl (d : Device) : AoutKept d d := ⟨rfl, rfl, rfl, rfl, rfl, fun _ _ => rfl⟩
theorem trans (h : AoutKept a b) (g : AoutKept b d) : AoutKept a d := by
  obtain ⟨hpwr, htk, hjnl, htab, hhur, hcfg⟩ := h
  obtain ⟨gpwr, gtk, gjnl, gtab, ghur, gcfg⟩ := g
  exact ⟨gpwr.trans hpwr, gtk.trans htk, gjnl.trans hjnl, gtab.trans htab, ghur.trans hhur, fun j hj => (gcfg j hj).trans (hcfg j hj)⟩
theorem pwr (h : AoutKept a d) : d.pwr = a.pwr := h.1
theorem cfg (h : AoutKept a d) (hj : j < 16) : d.rg ALM_AOUT_CFG j = a.rg ALM_AOUT_CFG j := by
  obtain ⟨-, -, -, -, -, hcfg⟩ := h
  exact hcfg j hj
theorem now (h : AoutKept a d) : d.now = a.now := by
  obtain ⟨hpwr, htk, hjnl, -⟩ := h
  unfold Device.now
  rw [hpwr, htk, hjnl]
theorem f (h : AoutKept a d) (hj : j < 16) {x : RF} (hx : x.reg = ALM_AOUT_CFG) : d.f x j = a.f x j := by
  unfold Device.f
  rw [hx, h.cfg hj]
theorem fb (h : AoutKept a d) (hj : j < 16) {x : RF} (hx : x.reg = ALM_AOUT_CFG) : d.fb x j = a.fb x j := by
  unfold Device.fb
  rw [h.f hj hx]
theorem aoutLevel (h : AoutKept a d) (hj : j < 16) : d.aoutLevel j = a.aoutLevel j := by
  obtain ⟨-, -, -, htab, hhur, -⟩ := id h
  unfold Device.aoutLevel Device.ents Device.hurConf Device.hurProv Device.hur
  rw [htab, hhur, h.fb hj rfl]

end Device.AoutKept

theorem Device.aoutSt_congr {a d : Device} (h : d.alm = a.alm) (k : Nat) : d.aoutSt k = a.aoutSt k := by
  unfold Device.aoutSt
  rw [h]

/-! One output. -/

/-- What an output becomes: its shape after LATCH and MIN_ON_MS, and the level after FORCE. -/
def Device.aoutNext (d : Device) (k : Nat) : AoutSt :=
  let a := aoutShape (d.aoutLevel k) (d.fb ALM_AOUT_CFG.LATCH k) (d.f ALM_AOUT_CFG.MIN_ON_MS k) d.now (d.aoutSt k)
  { a with level := aoutForced (d.f ALM_AOUT_CFG.FORCE k) a.act }

/-- Driving an output is an output of the device and nothing else. -/
theorem Device.aoutDrive_leaves (d : Device) (k : Nat) : d.AoutKept (d.aoutDrive k) ∧ (d.aoutDrive k).alm = d.alm := by
  unfold Device.aoutDrive
  split
  · exact ⟨⟨rfl, rfl, rfl, rfl, rfl, fun _ _ => rfl⟩, rfl⟩
  · exact ⟨.refl d, rfl⟩
/-- Out of HOLD, recomputing an output stores what it becomes and leaves the others. -/
theorem Device.aoutOne_leaves {d : Device} (hm : d.pwr.mode ≠ .hold) (k : Nat) :
    d.AoutKept (d.aoutOne k) ∧ (d.aoutOne k).alm = { d.alm with aout := mset d.alm.aout k (d.aoutNext k) } := by
  have hcfg : ∀ j, j < 16 → ALM_AOUT_CFG.key j ≠ ALM_AOUT.key 0 := by decide
  unfold Device.aoutOne
  extract_lets a v src d1
  rw [if_neg hm]
  split
  case isTrue => exact ⟨⟨rfl, rfl, rfl, rfl, rfl, fun _ _ => rfl⟩, rfl⟩
  case isFalse =>
    have hshown : d.AoutKept (d1.wr ALM_AOUT 0 (bset (d1.rg ALM_AOUT 0) k k (b2n v))) :=
      ⟨rfl, rfl, rfl, rfl, rfl, fun j hj => Device.rg_wr_other d1 ALM_AOUT ALM_AOUT_CFG 0 j _ (hcfg j hj)⟩
    obtain ⟨hk, ha⟩ := Device.aoutDrive_leaves (d1.wr ALM_AOUT 0 (bset (d1.rg ALM_AOUT 0) k k (b2n v))) k
    exact ⟨hshown.trans hk, ha⟩
theorem Device.aoutSt_aoutOne_self {d : Device} (hm : d.pwr.mode ≠ .hold) (k : Nat) : (d.aoutOne k).aoutSt k = d.aoutNext k := by
  unfold Device.aoutSt
  rw [(Device.aoutOne_leaves hm k).2]
  exact mgetD_mset_self _ _ _ _
theorem Device.aoutSt_aoutOne_other {d : Device} (hm : d.pwr.mode ≠ .hold) {j k : Nat} (h : j ≠ k) : (d.aoutOne k).aoutSt j = d.aoutSt j := by
  unfold Device.aoutSt
  rw [(Device.aoutOne_leaves hm k).2]
  exact mgetD_mset_other _ _ _ _ _ h

/-- An active output whose hurdles are quiet goes off, where its time is over and no latch keeps it. -/
theorem aoutShape_off {latch : Bool} {minOn : Nat} {now : Time} {a : AoutSt} (ha : a.act = true) (hl : latch = false ∨ a.cleared = true)
    (ht : a.minUntil ≤ now) : aoutShape false latch minOn now a = { a with act := false, cleared := false } := by
  have hcl : (!latch || a.cleared) = true := by
    rcases hl with hl | hl
    · simp [hl]
    · simp [hl]
  simp [aoutShape, ha, hcl, ht]
theorem Device.aoutNext_off {d : Device} {k : Nat} (ha : (d.aoutSt k).act = true) (hv : d.aoutLevel k = false)
    (hl : d.fb ALM_AOUT_CFG.LATCH k = false ∨ (d.aoutSt k).cleared = true) (ht : (d.aoutSt k).minUntil ≤ d.now) :
    (d.aoutNext k).act = false ∧ (d.aoutNext k).level = aoutForced (d.f ALM_AOUT_CFG.FORCE k) false := by
  unfold Device.aoutNext
  rw [hv, aoutShape_off ha hl ht]
  exact ⟨rfl, rfl⟩
theorem aoutForced_inactive (n : Nat) : aoutForced n false = (n == 2) := by
  match n with
  | 0 | 1 | 2 | _ + 3 => rfl

/-! AOUT_LATCH_CLEAR. -/

/-- An output is cleared: LATCH no longer keeps it. -/
def Device.latchCleared (d : Device) (k : Nat) : Device :=
  d.setAlm { d.alm with aout := mset d.alm.aout k { d.aoutSt k with cleared := true } }
/-- What a write to ALM_AOUT_CLR does for one output. -/
def Device.clearOne (v : Word) (d : Device) (k : Nat) : Device :=
  if bit v k && (d.aoutSt k).act && d.fb ALM_AOUT_CFG.LATCH k then (d.latchCleared k).aoutOne k else d
theorem aoutClr_eq (v : Word) (d : Device) : aoutClr v d = (List.range 16).foldl (Device.clearOne v) d := rfl

theorem Device.aoutSt_latchCleared_self (d : Device) (k : Nat) : (d.latchCleared k).aoutSt k = { d.aoutSt k with cleared := true } :=
  mgetD_mset_self _ _ _ _
theorem Device.aoutSt_latchCleared_other (d : Device) {j k : Nat} (h : j ≠ k) : (d.latchCleared k).aoutSt j = d.aoutSt j :=
  mgetD_mset_other _ _ _ _ _ h
theorem Device.latchCleared_kept (d : Device) (k : Nat) : d.AoutKept (d.latchCleared k) := ⟨rfl, rfl, rfl, rfl, rfl, fun _ _ => rfl⟩

theorem Device.clearOne_leaves {d : Device} (hm : d.pwr.mode ≠ .hold) (v : Word) (k : Nat) :
    d.AoutKept (d.clearOne v k) ∧ ∀ j, j ≠ k ∨ bit v j = false → (d.clearOne v k).aoutSt j = d.aoutSt j := by
  unfold Device.clearOne
  split
  case isTrue h =>
    refine ⟨(d.latchCleared_kept k).trans (Device.aoutOne_leaves (d := d.latchCleared k) hm k).1, fun j hj => ?_⟩
    have hjk : j ≠ k := by
      rcases hj with hj | hj
      · exact hj
      · rintro rfl
        simp [hj] at h
    rw [Device.aoutSt_aoutOne_other (d := d.latchCleared k) hm hjk, Device.aoutSt_latchCleared_other d hjk]
  case isFalse => exact ⟨.refl d, fun _ _ => rfl⟩
/-- The writes for outputs of a list leave every output that is not of it or not asked for. -/
theorem foldl_clearOne_leaves {d : Device} (hm : d.pwr.mode ≠ .hold) (v : Word) (l : List Nat) :
    d.AoutKept (l.foldl (Device.clearOne v) d) ∧ ∀ j, j ∉ l ∨ bit v j = false → (l.foldl (Device.clearOne v) d).aoutSt j = d.aoutSt j := by
  induction l generalizing d with
  | nil => exact ⟨.refl d, fun _ _ => rfl⟩
  | cons k l ih =>
    obtain ⟨hk, hs⟩ := Device.clearOne_leaves hm v k
    obtain ⟨hk', hs'⟩ := ih (d := d.clearOne v k) (by rw [hk.pwr]; exact hm)
    refine ⟨hk.trans hk', fun j hj => ?_⟩
    rw [List.mem_cons, not_or] at hj
    exact (hs' j (hj.imp_left (·.2))).trans (hs j (hj.imp_left (·.1)))
/-- An output that LATCH alone keeps active goes off, to the level FORCE gives it. -/
theorem Device.clearOne_clears {d : Device} (hm : d.pwr.mode ≠ .hold) {v : Word} {k : Nat} (hk : k < 16) (hb : bit v k = true)
    (ha : (d.aoutSt k).act = true) (hl : d.fb ALM_AOUT_CFG.LATCH k = true) (hv : d.aoutLevel k = false) (ht : (d.aoutSt k).minUntil ≤ d.now) :
    ((d.clearOne v k).aoutSt k).act = false ∧ ((d.clearOne v k).aoutSt k).level = (d.f ALM_AOUT_CFG.FORCE k == 2) := by
  have hkept := d.latchCleared_kept k
  have hself := d.aoutSt_latchCleared_self k
  rw [Device.clearOne, if_pos (by simp [hb, ha, hl]), Device.aoutSt_aoutOne_self (d := d.latchCleared k) hm]
  obtain ⟨hact, hlev⟩ := Device.aoutNext_off (d := d.latchCleared k) (by rw [hself]; exact ha) (by rw [hkept.aoutLevel hk]; exact hv)
    (.inr (by rw [hself])) (by rw [hself, hkept.now]; exact ht)
  exact ⟨hact, by rw [hlev, hkept.f hk rfl, aoutForced_inactive]⟩
theorem aoutClr_clears {d : Device} (hm : d.pwr.mode ≠ .hold) {v : Word} {k : Nat} (hk : k < 16) (hb : bit v k = true)
    (ha : (d.aoutSt k).act = true) (hl : d.fb ALM_AOUT_CFG.LATCH k = true) (hv : d.aoutLevel k = false) (ht : (d.aoutSt k).minUntil ≤ d.now) :
    ((aoutClr v d).aoutSt k).act = false ∧ ((aoutClr v d).aoutSt k).level = (d.f ALM_AOUT_CFG.FORCE k == 2) := by
  obtain ⟨l, r, hlr⟩ := List.append_of_mem (List.mem_range.2 hk)
  obtain ⟨hnl, hnr⟩ : k ∉ l ∧ k ∉ r := by
    have hnd := hlr ▸ List.nodup_range (n := 16)
    rw [List.nodup_append'] at hnd
    exact ⟨fun h => hnd.2.2 h (List.mem_cons_self ..), (List.nodup_cons.1 hnd.2.1).1⟩
  rw [aoutClr_eq, hlr, List.foldl_append, List.foldl_cons]
  obtain ⟨hkept, hst⟩ := foldl_clearOne_leaves hm v l
  have hs := hst k (.inl hnl)
  generalize l.foldl (Device.clearOne v) d = x at hkept hs
  have hmx : x.pwr.mode ≠ .hold := by rw [hkept.pwr]; exact hm
  have hafter := (foldl_clearOne_leaves (d := x.clearOne v k) (by rw [(Device.clearOne_leaves hmx v k).1.pwr]; exact hmx) v r).2 k (.inl hnr)
  rw [hafter, ← hkept.f hk rfl]
  exact Device.clearOne_clears hmx hk hb (by rw [hs]; exact ha) (by rw [hkept.fb hk rfl]; exact hl) (by rw [hkept.aoutLevel hk]; exact hv)
    (by rw [hs, hkept.now]; exact ht)

/-! AOUT_FORCE_WRITE. -/

/-- The configuration of an output is stored, and a new FORCE is told. -/
def Device.aoutCfgStored (d : Device) (k : Nat) (v : Word) : Device :=
  if bx v 31 30 = d.f ALM_AOUT_CFG.FORCE k then d.wr ALM_AOUT_CFG k (v &&& 0xF800FFFF#32)
  else (d.wr ALM_AOUT_CFG k (v &&& 0xF800FFFF#32)).raise EV_ALM_AOUT_FORCE [k, d.f ALM_AOUT_CFG.FORCE k, bx v 31 30]
theorem Device.aoutCfgStored_stores (d : Device) (k : Nat) (v : Word) : (d.aoutCfgStored k v).rg ALM_AOUT_CFG k = v &&& 0xF800FFFF#32 ∧
    (d.aoutCfgStored k v).alm = d.alm ∧ (d.aoutCfgStored k v).pwr = d.pwr := by
  unfold Device.aoutCfgStored
  split
  · exact ⟨Device.rg_wr_self _ _ _ _, rfl, rfl⟩
  · exact ⟨(Device.rg_raise _ _ _ _ _ (by decide) (by decide)).trans (Device.rg_wr_self _ _ _ _), by simp, by simp⟩
theorem aoutCfgWrite_ignored {k : Nat} {v : Word} (d : Device) (h : bx v 31 30 = 3) : aoutCfgWrite k v d = d := if_pos h
/-- A write with another FORCE recomputes the output, and may drive it. -/
theorem aoutCfgWrite_cases {k : Nat} {v : Word} {d : Device} (h : bx v 31 30 ≠ 3) : aoutCfgWrite k v d = (d.aoutCfgStored k v).aoutOne k ∨
    aoutCfgWrite k v d = ((d.aoutCfgStored k v).aoutOne k).aoutDrive k := by
  unfold aoutCfgWrite
  rw [if_neg h]
  exact (ite_eq_or_eq _ _ _).symm
theorem aoutForced_set {n : Nat} (h : n = 1 ∨ n = 2) (b : Bool) : aoutForced n b = (n == 2) := by
  rcases h with rfl | rfl
  · rfl
  · rfl
theorem aoutCfgWrite_forces {k : Nat} {v : Word} {d : Device} (hm : d.pwr.mode ≠ .hold) (hk : k < 16) (hv : bx v 31 30 = 1 ∨ bx v 31 30 = 2) :
    ((aoutCfgWrite k v d).aoutSt k).level = (bx v 31 30 == 2) ∧ (aoutCfgWrite k v d).rg ALM_AOUT_CFG k = v &&& 0xF800FFFF#32 ∧
    ∀ j, j ≠ k → (aoutCfgWrite k v d).aoutSt j = d.aoutSt j := by
  obtain ⟨hrg, halm, hpwr⟩ := d.aoutCfgStored_stores k v
  have hm' : (d.aoutCfgStored k v).pwr.mode ≠ .hold := by rw [hpwr]; exact hm
  have hforce : (d.aoutCfgStored k v).f ALM_AOUT_CFG.FORCE k = bx v 31 30 := (congrArg (bx · 31 30) hrg).trans (bx_land_kept _ _ _ _ (by decide))
  have hone : (((d.aoutCfgStored k v).aoutOne k).aoutSt k).level = (bx v 31 30 == 2) ∧
      ((d.aoutCfgStored k v).aoutOne k).rg ALM_AOUT_CFG k = v &&& 0xF800FFFF#32 ∧
      ∀ j, j ≠ k → ((d.aoutCfgStored k v).aoutOne k).aoutSt j = d.aoutSt j := by
    refine ⟨?level, ((Device.aoutOne_leaves hm' k).1.cfg hk).trans hrg, fun j hj => ?others⟩
    case level =>
      rw [Device.aoutSt_aoutOne_self hm', Device.aoutNext, hforce]
      exact aoutForced_set hv _
    case others => rw [Device.aoutSt_aoutOne_other hm' hj, Device.aoutSt_congr halm]
  rcases aoutCfgWrite_cases (k := k) (v := v) (d := d) (by omega) with he | he
  · rw [he]
    exact hone
  · obtain ⟨hkept, hdrive⟩ := ((d.aoutCfgStored k v).aoutOne k).aoutDrive_leaves k
    rw [he, hkept.cfg hk, Device.aoutSt_congr hdrive]
    exact ⟨hone.1, hone.2.1, fun j hj => (Device.aoutSt_congr hdrive j).trans (hone.2.2 j hj)⟩

/-! AOUT_MIN_ON_EXPIRY. -/

theorem aoutMinOnExpiry_recomputes {k : Nat} {d : Device} (ha : d.alive = true) (hk : k < 16) : aoutMinOnExpiry k d = d.aoutOne k :=
  if_pos (by simp [ha, hk])

end Sys2Proof.Machine
end

section
/-!
Threshold commands (R244) and the drain of alarm records (R246).
-/
namespace Sys2Proof.Machine

/-! ALM_THR_CMD: one equation per outcome. -/

section
variable {op : Nat} {d : Device}

theorem almThr_disabled (he : huEn (d.ent tHurdle (d.f ALM_HSEL.HURDLE)) = false) : almThr op d = d.almErr 1 := if_pos (by simp [he])
theorem almThr_notFinite (he : huEn (d.ent tHurdle (d.f ALM_HSEL.HURDLE)) = true) (ho : op = 1 ∨ op = 2 ∨ op = 3)
    (hf : fFinite (d.rg ALM_THR_VAL 0) = false) : almThr op d = d.almErr 3 := by
  unfold almThr
  rw [if_neg (by simp [he]), if_neg (by omega), if_pos (by simp [hf])]
/-- A hysteresis that is negative, or not 0 where OP_A has none. -/
def hysBad (e : List Word) (v : Word) : Prop := fLt v 0#32 = true ∨ (fIsZero v = false ∧ (huOpA e = 3 ∨ huOpA e = 4))
theorem almThr_badHys (he : huEn (d.ent tHurdle (d.f ALM_HSEL.HURDLE)) = true) (hf : fFinite (d.rg ALM_THR_VAL 0) = true)
    (hb : hysBad (d.ent tHurdle (d.f ALM_HSEL.HURDLE)) (d.rg ALM_THR_VAL 0)) : almThr 2 d = d.almErr 4 := by
  unfold almThr
  rw [if_neg (by simp [he]), if_neg (by decide), if_neg (by simp [hf]), if_pos ⟨rfl, by simpa [hysBad] using hb⟩]
theorem almThr_takes (he : huEn (d.ent tHurdle (d.f ALM_HSEL.HURDLE)) = true) (ho : op = 1 ∨ op = 2 ∨ op = 3)
    (hf : fFinite (d.rg ALM_THR_VAL 0) = true) (hb : ¬(op = 2 ∧ hysBad (d.ent tHurdle (d.f ALM_HSEL.HURDLE)) (d.rg ALM_THR_VAL 0))) :
    ∃ t ws, almThr op d = ((d.thrSet (d.f ALM_HSEL.HURDLE) op (d.rg ALM_THR_VAL 0)
      (d.firstUnopened (ieHeat (d.instE (huInst (d.ent tHurdle (d.f ALM_HSEL.HURDLE))))))).count ALM_THR_CMDS).journalW 0x15 0 t ws := by
  unfold almThr
  rw [if_neg (by simp [he]), if_neg (by omega), if_neg (by simp [hf]), if_neg (by simpa [hysBad] using hb)]
  exact ⟨_, _, rfl⟩

end

theorem Device.almErr_shows (d : Device) {c : Nat} (hc : c < 8) : (d.almErr c).alm = d.alm ∧ (d.almErr c).tables = d.tables ∧
    (d.almErr c).f ALM_STAT.ERR = 1 ∧ (d.almErr c).f ALM_STAT.ECODE = c := by
  have h := d.err_reads ALM_STAT.ERR ALM_STAT.ECODE c 0 rfl rfl (by decide) (by decide) (by decide) (by decide) hc
  exact ⟨rfl, rfl, h⟩

/-! A threshold's laps. -/

theorem Device.ent_thrSet (d : Device) {h op : Nat} (ho : op = 1 ∨ op = 2 ∨ op = 3) (v : Word) (first : Nat) :
    (d.thrSet h op v first).ent tHurdle h = lset (d.ent tHurdle h) (op + 1) v := by
  have hi : (if op = 1 then 2 else if op = 2 then 3 else 4) = op + 1 := by
    rcases ho with rfl | rfl | rfl
    · rfl
    · rfl
    · rfl
  rw [← hi]
  exact mgetD_mset_self _ _ _ _
/-- The entry that holds the thresholds from now on, and the laps it is for. -/
theorem Device.hur_thrSet (d : Device) {h op : Nat} (ho : op = 1 ∨ op = 2 ∨ op = 3) (v : Word) (first : Nat) :
    ((d.thrSet h op v first).hur h).thr = (first, wd (lset (d.ent tHurdle h) (op + 1) v) 2, wd (lset (d.ent tHurdle h) (op + 1) v) 3,
      wd (lset (d.ent tHurdle h) (op + 1) v) 4) ::
      (if (d.hur h).thr.isEmpty then [(0, wd (d.ent tHurdle h) 2, wd (d.ent tHurdle h) 3, wd (d.ent tHurdle h) 4)] else (d.hur h).thr) := by
  rcases ho with rfl | rfl | rfl
  · exact congrArg HurSt.thr (mgetD_mset_self _ _ _ _)
  · exact congrArg HurSt.thr (mgetD_mset_self _ _ _ _)
  · exact congrArg HurSt.thr (mgetD_mset_self _ _ _ _)
theorem thrAt_from {e : List Word} {x : HurSt} {n lap : Nat} {t : Word × Word × Word} {l : List (Nat × Word × Word × Word)}
    (h : x.thr = (n, t) :: l) (hl : n ≤ lap) : thrAt e x lap = t := by
  rw [thrAt, h, List.find?_cons_of_pos (by simpa using hl)]
/-- Laps before the first keep the thresholds they had: where none stood apart, those of the entry as it was. -/
theorem thrAt_before {e : List Word} {x y : HurSt} {n lap : Nat} {t : Word × Word × Word}
    (h : x.thr = (n, t) :: (if y.thr.isEmpty then [(0, wd e 2, wd e 3, wd e 4)] else y.thr)) (hl : lap < n) : thrAt e x lap = thrAt e y lap := by
  rw [thrAt, h, List.find?_cons_of_neg (by simpa using hl)]
  by_cases hy : y.thr.isEmpty = true
  · rw [if_pos hy, thrAt, List.isEmpty_iff.1 hy]
    rfl
  · rw [if_neg hy, thrAt]

/-- A threshold that is stored, counted and journaled. -/
theorem Device.thrSet_told (d : Device) {h op : Nat} (ho : op = 1 ∨ op = 2 ∨ op = 3) (v : Word) (first : Nat) (t : Time) (ws : List Word) :
    let x := ((d.thrSet h op v first).count ALM_THR_CMDS).journalW 0x15 0 t ws
    x.ent tHurdle h = lset (d.ent tHurdle h) (op + 1) v ∧ x.ctr ALM_THR_CMDS = (d.ctr ALM_THR_CMDS + 1) % 2 ^ 32 ∧
    (∀ lap, lap < first → thrAt (d.ent tHurdle h) (x.hur h) lap = thrAt (d.ent tHurdle h) (d.hur h) lap) ∧
    ∀ lap, first ≤ lap → thrAt (d.ent tHurdle h) (x.hur h) lap = (wd (lset (d.ent tHurdle h) (op + 1) v) 2,
      wd (lset (d.ent tHurdle h) (op + 1) v) 3, wd (lset (d.ent tHurdle h) (op + 1) v) 4) := by
  intro x
  have hj : Calm (Eff.of [.dd, .jnl] []) ((d.thrSet h op v first).count ALM_THR_CMDS) x := Device.journalW_calm (Calm.refl _ _) ⟨rfl⟩ ⟨rfl⟩
  have hent : x.ent tHurdle h = (d.thrSet h op v first).ent tHurdle h := by
    unfold Device.ent
    rw [left_alone hj.tables rfl, ((d.thrSet h op v first).count_fields ALM_THR_CMDS 0).1]
  have hhur : x.hur h = (d.thrSet h op v first).hur h := by
    unfold Device.hur
    rw [left_alone hj.alm rfl]
    simp
  refine ⟨hent.trans (d.ent_thrSet ho v first), ?_, fun lap hl => ?_, fun lap hl => ?_⟩
  · rw [hj.ctr_of ALM_THR_CMDS 0 rfl (by decide) (by decide)]
    exact Device.ctr_count_self _ ALM_THR_CMDS 0 (by decide) (by decide) (by decide)
  · rw [hhur]
    exact thrAt_before (d.hur_thrSet ho v first) hl
  · rw [hhur]
    exact thrAt_from (d.hur_thrSet ho v first) hl

/-! Records that wait. -/

theorem Device.almLevel_leaves (d : Device) : d.almLevel.alm = d.alm ∧ d.almLevel.hif = d.hif := by
  unfold Device.almLevel Device.hwm
  split
  · exact ⟨rfl, rfl⟩
  · exact ⟨rfl, rfl⟩
theorem Device.cqRecord_alm {d x : Device} {q content : Nat} {ws : List Word} (h : d.cqRecord q content ws = some x) : x.alm = d.alm :=
  left_alone (Device.cqRecord_calm (e := Eff.of [] [0x17]) (Calm.refl _ d) h ⟨rfl⟩).alm rfl
theorem Device.almLoss_none {d : Device} (h : d.alm.lost = 0) : d.almLoss = d := if_pos h
/-- Where records were dropped, the LOSS record takes a number and waits, and none is missing any more. -/
theorem Device.almLoss_tells {d : Device} (h : d.alm.lost ≠ 0) : d.almLoss.alm.lost = 0 ∧ d.almLoss.alm.recSeq = (d.alm.recSeq + 1) % 4294967296 := by
  unfold Device.almLoss
  rw [if_neg h]
  refine ⟨rfl, ?_⟩
  have hc : (d.almCopy (lossRecord d.now d.alm.recSeq d.alm.lost)).alm = d.alm :=
    left_alone (Device.almCopy_calm (e := Eff.of [] [0x17]) (Calm.refl _ d) ⟨rfl⟩).alm rfl
  exact congrArg (fun a => (a.recSeq + 1) % 4294967296) hc

/-- A drain with nothing dropped takes no number. -/
theorem almDrainF_lossless (fuel : Nat) {d : Device} (h : d.alm.lost = 0) :
    (almDrainF fuel d).alm.lost = 0 ∧ (almDrainF fuel d).alm.recSeq = d.alm.recSeq := by
  induction fuel generalizing d with
  | zero => exact ⟨h, rfl⟩
  | succ n ih =>
    unfold almDrainF
    split
    case h_1 => exact ⟨h, rfl⟩
    case h_2 r rest hb =>
      split
      · exact ⟨h, rfl⟩
      · split
        case h_1 => exact ⟨h, rfl⟩
        case h_2 x hx =>
          have ha := Device.cqRecord_alm hx
          have hl : (x.setAlm { x.alm with buf := rest }).alm.lost = 0 := by rw [← h, ← ha]; rfl
          rw [Device.almLoss_none hl]
          have hv := (x.setAlm { x.alm with buf := rest }).almLevel_leaves.1
          obtain ⟨h1, h2⟩ := ih (d := (x.setAlm { x.alm with buf := rest }).almLevel) (by rw [hv]; exact hl)
          exact ⟨h1, by rw [h2, hv, ← ha]; rfl⟩
/-- The one record that waits is taken by its ring. -/
theorem almDrainF_one {n : Nat} {d x : Device} {r : List Word} (hb : d.alm.buf = [r]) (hen : d.fb ALM_CFG.EN = true) (hm : d.pwr.mode ≠ .follow)
    (hx : d.cqRecord (d.f ALM_CFG.RING) 1 r = some x) : almDrainF (n + 1) d = almDrainF n (x.setAlm { x.alm with buf := [] }).almLoss.almLevel := by
  rw [almDrainF, hb]
  dsimp only
  rw [if_neg (by simp [hen, hm]), hx]
theorem almDrainF_nothing (n : Nat) {d : Device} (hb : d.alm.buf = []) : almDrainF n d = d := by
  cases n with
  | zero => rfl
  | succ n => rw [almDrainF, hb]
theorem almDrainF_follow (n : Nat) {d : Device} (hm : d.pwr.mode = .follow) : almDrainF n d = d := by
  cases n with
  | zero => rfl
  | succ n =>
    unfold almDrainF
    split
    · rfl
    · exact if_pos (by simp [hm])

/-- What the drain leaves once the last record has gone: nothing, or the LOSS record of those dropped, waiting or sent. -/
theorem almDrained_last {d a : Device} (h : d.alm = { a.alm with buf := [] }) (n : Nat) :
    (almDrainF n d.almLoss.almLevel).alm.lost = 0 ∧
    (a.alm.lost = 0 → (almDrainF n d.almLoss.almLevel).alm.buf = [] ∧ (almDrainF n d.almLoss.almLevel).alm.recSeq = a.alm.recSeq ∧
      (almDrainF n d.almLoss.almLevel).hif = d.hif) ∧
    (a.alm.lost ≠ 0 → (almDrainF n d.almLoss.almLevel).alm.recSeq = (a.alm.recSeq + 1) % 4294967296) := by
  have hlost : d.alm.lost = a.alm.lost := by rw [h]
  have hseq : d.alm.recSeq = a.alm.recSeq := by rw [h]
  obtain ⟨hlev, hhif⟩ := d.almLoss.almLevel_leaves
  by_cases hz : a.alm.lost = 0
  · rw [Device.almLoss_none (hlost.trans hz)] at hlev hhif ⊢
    rw [almDrainF_nothing n (d := d.almLevel) (by rw [hlev, h]), hlev, hhif]
    exact ⟨hlost.trans hz, fun _ => ⟨by rw [h], hseq, rfl⟩, fun hnz => absurd hz hnz⟩
  · obtain ⟨htl, hts⟩ := Device.almLoss_tells (d := d) (by rw [hlost]; exact hz)
    obtain ⟨h1, h2⟩ := almDrainF_lossless n (d := d.almLoss.almLevel) (by rw [hlev]; exact htl)
    exact ⟨h1, fun hnz => absurd hnz hz, fun _ => by rw [h2, hlev, hts, hseq]⟩

/-! A record in its ring. -/

theorem foldl_toHost_hif {α : Type} (g : α → Output) (l : List α) (d : Device) : (l.foldl (fun x e => x.toHost (g e)) d).hif = d.hif := by
  induction l generalizing d with
  | nil => rfl
  | cons e l ih => exact (ih (d.toHost (g e))).trans (left_alone (Device.toHost_calm (e := Eff.of [] []) (Calm.refl _ d)).hif rfl)
theorem Device.vector_hif (d : Device) (v : Nat) : (d.vector v).hif = d.hif := left_alone (Device.vector_calm (e := Eff.of [] []) (Calm.refl _ d)).hif rfl
theorem Device.cqSt_congr {a d : Device} (h : d.hif = a.hif) (q : Nat) : d.cqSt q = a.cqSt q := by
  unfold Device.cqSt
  rw [h]
theorem Device.cqSt_storeCq (d : Device) (q : Nat) (c : CqSt) : ({ d with hif := { d.hif with cq := mset d.hif.cq q c } } : Device).cqSt q = c :=
  mgetD_mset_self _ _ _ _
theorem Device.cqVector_tail (d : Device) (q : Nat) : ((d.cqVector q).cqSt q).tail = (d.cqSt q).tail := by
  unfold Device.cqVector
  rw [Device.cqSt_congr (Device.vector_hif _ _) q]
  have h := congrArg CqSt.tail (d.cqSt_storeCq q { d.cqSt q with since := 0, first := none })
  exact h
/-- Entries move the tail of a ring by their number. -/
theorem Device.cqPost_tail (d : Device) (q : Nat) (es : List (List Word)) (force : Bool) :
    ((d.cqPost q es force).cqSt q).tail = ((d.cqSt q).tail + es.length) % d.cqSize q := by
  unfold Device.cqPost
  extract_lets base t s d1 t' c src d2 d3 n
  have h3 : (d3.cqSt q).tail = t' := by
    have hif : d3.hif = d2.hif := left_alone (Device.toHost_calm (e := Eff.of [] []) (Calm.refl _ d2)).hif rfl
    rw [Device.cqSt_congr hif q]
    exact congrArg CqSt.tail (mgetD_mset_self _ _ _ _)
  split
  · exact (d3.cqVector_tail q).trans h3
  · exact h3
theorem length_chunks {α : Type} {n : Nat} (hn : 0 < n) (k fuel : Nat) (hf : k ≤ fuel) (l : List α) (hl : l.length = n * k) :
    (chunks n fuel l).length = k := by
  induction k generalizing fuel l with
  | zero =>
    rw [List.length_eq_zero_iff.1 hl]
    cases fuel with
    | zero => rfl
    | succ _ => rfl
  | succ k ih =>
    obtain ⟨f, rfl⟩ : ∃ f, fuel = f + 1 := ⟨fuel - 1, by omega⟩
    rw [Nat.mul_succ] at hl
    cases l with
    | nil =>
      rw [List.length_nil] at hl
      omega
    | cons a l => exact congrArg (· + 1) (ih f (by omega) ((a :: l).drop n) (by rw [List.length_drop]; omega))
theorem Device.cqRecord_fits {d : Device} {q content : Nat} (ws : List Word) (hen : d.fb HIF_CQ_CFG.EN q = true) (hc : d.f HIF_CQ_CFG.CONTENT q = content)
    (hf : 4 ≤ d.cqFree q) : d.cqRecord q content ws = some (d.cqPost q (chunks 4 5 ws) false) := if_pos (by simp [hen, hc, hf])

theorem Device.preAlarm_clean {d : Device} (h : d.mem.bad = []) : d.preAlarm = d := if_pos (by simp [h])

/-- Settles O45: each command is one operation of the hurdle unit, whose own lemma says what it stores. -/
theorem alarmCommandsAct : Obligations.AlarmCommandsAct := by
  intro s ha
  refine ⟨?threshold, ?follow, ?drain, ?clear, ?force, ?ignored, ?expiry⟩
  case threshold =>
    rintro op c h e v first hc rfl rfl rfl rfl
    obtain ⟨ho, hx⟩ : (op = 1 ∨ op = 2 ∨ op = 3) ∧ ∀ t, exec c t = onAlive (almThr op) t := by
      simp only [List.mem_cons, Prod.mk.injEq, List.not_mem_nil, or_false] at hc
      rcases hc with ⟨rfl, rfl⟩ | ⟨rfl, rfl⟩ | ⟨rfl, rfl⟩
      · exact ⟨.inl rfl, fun _ => rfl⟩
      · exact ⟨.inr (.inl rfl), fun _ => rfl⟩
      · exact ⟨.inr (.inr rfl), fun _ => rfl⟩
    refine ⟨fun he => ?disabled, fun he hf => ?notFinite, fun he hf h2 hb => ?badHys, fun he hf hb => ?takes⟩
    case disabled =>
      refine effect_alive (hx s) ha ?_
      rw [almThr_disabled he]
      exact s.dev.almErr_shows (by decide)
    case notFinite =>
      refine effect_alive (hx s) ha ?_
      rw [almThr_notFinite he ho hf]
      exact s.dev.almErr_shows (by decide)
    case badHys =>
      subst h2
      refine effect_alive (hx s) ha ?_
      rw [almThr_badHys he hf hb]
      exact s.dev.almErr_shows (by decide)
    case takes =>
      obtain ⟨t, ws, heq⟩ := almThr_takes he ho hf (by
        rintro ⟨rfl, hbad⟩
        obtain ⟨hlt, hz⟩ := hb rfl
        simp_all [hysBad])
      refine effect_alive (hx s) ha ?_
      rw [heq]
      exact Device.thrSet_told s.dev ho _ _ t ws
  case follow =>
    intro haw hb hm
    refine effect_awake rfl haw ?_
    rw [Device.preAlarm_clean hb]
    exact almDrainF_follow _ hm
  case drain =>
    intro r q haw hb hm hbuf hlen hen hq hqen hqc hfree
    subst hq
    have hx := Device.cqRecord_fits r hqen hqc hfree
    have hxa := Device.cqRecord_alm hx
    have htail := s.dev.cqPost_tail (s.dev.f ALM_CFG.RING) (chunks 4 5 r) false
    rw [length_chunks (by decide) 4 5 (by decide) r hlen] at htail
    refine effect_awake rfl haw ?_
    rw [Device.preAlarm_clean hb, alarmRecordDrain, almDrainF_one hbuf hen hm hx]
    generalize s.dev.cqPost (s.dev.f ALM_CFG.RING) (chunks 4 5 r) false = x at hxa htail
    have htaken : (x.setAlm { x.alm with buf := [] }).alm = { s.dev.alm with buf := [] } := by rw [← hxa]; rfl
    obtain ⟨hl, hnone, hsome⟩ := almDrained_last htaken (s.dev.alm.buf.length + 1)
    refine ⟨hl, fun hz => ?_, hsome⟩
    obtain ⟨hempty, hseq, hhif⟩ := hnone hz
    exact ⟨hempty, hseq, (congrArg CqSt.tail (Device.cqSt_congr hhif _)).trans htail⟩
  case clear =>
    intro v k hm hk hb hact hl hv ht
    exact effect_alive rfl ha ⟨(aoutClr_clears hm hk hb hact hl hv ht).1, (aoutClr_clears hm hk hb hact hl hv ht).2,
      fun j hj => (foldl_clearOne_leaves hm v _).2 j (.inr hj)⟩
  case force =>
    intro k v hm hk hv
    refine effect_alive rfl ha ?_
    rw [placed, if_pos (by simp [hk])]
    exact aoutCfgWrite_forces hm hk hv
  case ignored =>
    intro k v hk hv
    refine effect_alive rfl ha ?_
    rw [placed, if_pos (by simp [hk])]
    exact aoutCfgWrite_ignored _ hv
  case expiry =>
    intro k haw hk hact hv hl ht
    have hm : s.dev.pwr.mode ≠ .hold := by
      simp [Device.awake] at haw
      exact haw.2
    refine effect_awake rfl haw ?_
    rw [aoutMinOnExpiry_recomputes ha hk]
    exact ⟨by rw [Device.aoutSt_aoutOne_self hm]; exact (Device.aoutNext_off hact hv (.inl hl) ht).1, fun j hj => Device.aoutSt_aoutOne_other hm hj⟩

end Sys2Proof.Machine
end

section
/-!
Frames of the commands of alarms, egress, the radio, Rharix federation and the relay pair: each is its gate over an operation whose own lemma says
what the operation may touch.
-/
namespace Sys2Proof.Machine
-- Proofs are elaborated in turn: side by side they wait for one another, each on a thread with a stack of its own.
set_option deprecated.oldSectionVars true

/-- Settles O59: every command is a gate over one operation, and the operation's lemma lists what it touches: one `⟨rfl⟩` for each part that the effect
lets it touch. -/
theorem outputCommandsLeaveTheRest : Obligations.OutputCommandsLeaveTheRest := by
  refine ⟨⟨?almThrCmdThrA, ?almThrCmdHysA, ?almThrCmdThrB, ?alarmRecordDrain, ?aoutLatchClear, ?aoutForceWrite, ?aoutMinOnExpiry,
      ?gooseRetransmit, ?c37CfgPeriodic, ?egressTcpAccept, ?c37CmdTxOff, ?c37CmdTxOn, ?c37CmdSendHdr, ?c37CmdSendCfg1, ?c37CmdSendCfg2,
      ?c37CmdSendCfg3, ?c37CmdOther, ?egressTcpAckReceived, ?egressTcpRto, ?txFrameComplete⟩,
    ⟨?beaconInstant, ?xcrFrameReceived, ?xcrAckSend, ?xcrAckTimeout, ?xcrTxRequest, ?xcrListenSend, ?xcrWakeSequence, ?xcrDeferredSend,
      ?xcrCheckinMissed, ?xcvrReadbackTimeout, ?xcrRxqPop⟩,
    ⟨?rxlFrameReceived, ?rxlAckDelayExpiry, ?rxlRetransmitTimeout, ?cadenceSend, ?peerLossTimeout, ?rxlCadenceTimeout, ?rxlLockChange,
      ?rxlPortEnable, ?rxlTrainingDone, ?partWaitExpiry⟩,
    ⟨?batonToggle, ?batonEdgeSeen, ?batonSilenceTimeout, ?batonWatchEnd, ?driverEnableDelay, ?heartbeatMissing, ?handoverRequest,
      ?handoverRelease, ?resyncRequest, ?checkpointLoad⟩⟩
  case almThrCmdThrA => exact alive_touches (fun _ => rfl) fun d => almThr_calm (Calm.refl _ d) ⟨rfl⟩ ⟨rfl⟩ ⟨rfl⟩ ⟨rfl⟩
  case almThrCmdHysA => exact alive_touches (fun _ => rfl) fun d => almThr_calm (Calm.refl _ d) ⟨rfl⟩ ⟨rfl⟩ ⟨rfl⟩ ⟨rfl⟩
  case almThrCmdThrB => exact alive_touches (fun _ => rfl) fun d => almThr_calm (Calm.refl _ d) ⟨rfl⟩ ⟨rfl⟩ ⟨rfl⟩ ⟨rfl⟩
  case alarmRecordDrain =>
    exact awake_touches (fun _ => rfl) fun d =>
      alarmRecordDrain_calm (Device.preAlarm_calm (Calm.refl _ d) ⟨rfl⟩ ⟨rfl⟩ ⟨rfl⟩ ⟨rfl⟩) ⟨rfl⟩ ⟨rfl⟩
  case aoutLatchClear => exact fun _ => alive_touches (fun _ => rfl) fun d => aoutClr_calm (Calm.refl _ d) ⟨rfl⟩
  case aoutForceWrite => exact fun _ _ => alive_touches (fun _ => rfl) fun d => Calm.placed d fun _ h => aoutCfgWrite_calm h ⟨rfl⟩
  case aoutMinOnExpiry => exact fun _ => awake_touches (fun _ => rfl) fun d => aoutMinOnExpiry_calm (Calm.refl _ d) ⟨rfl⟩
  case gooseRetransmit => exact fun _ => awake_touches (fun _ => rfl) fun d => gooseRetransmit_calm (Calm.refl _ d) ⟨rfl⟩ ⟨rfl⟩
  case c37CfgPeriodic => exact fun _ => awake_touches (fun _ => rfl) fun d => c37CfgPeriodic_calm (Calm.refl _ d) ⟨rfl⟩
  case egressTcpAccept => exact fun _ _ _ _ _ _ _ _ => awake_touches (fun _ => rfl) fun d => egressTcpAccept_calm (Calm.refl _ d) ⟨rfl⟩
  case c37CmdTxOff => exact fun _ _ _ => awake_touches (fun _ => rfl) fun d => c37Cmd_calm (Calm.refl _ d) ⟨rfl⟩
  case c37CmdTxOn => exact fun _ _ _ => awake_touches (fun _ => rfl) fun d => c37Cmd_calm (Calm.refl _ d) ⟨rfl⟩
  case c37CmdSendHdr => exact fun _ _ _ => awake_touches (fun _ => rfl) fun d => c37Cmd_calm (Calm.refl _ d) ⟨rfl⟩
  case c37CmdSendCfg1 => exact fun _ _ _ => awake_touches (fun _ => rfl) fun d => c37Cmd_calm (Calm.refl _ d) ⟨rfl⟩
  case c37CmdSendCfg2 => exact fun _ _ _ => awake_touches (fun _ => rfl) fun d => c37Cmd_calm (Calm.refl _ d) ⟨rfl⟩
  case c37CmdSendCfg3 => exact fun _ _ _ => awake_touches (fun _ => rfl) fun d => c37Cmd_calm (Calm.refl _ d) ⟨rfl⟩
  case c37CmdOther => exact fun _ _ _ _ => awake_touches (fun _ => rfl) fun d => c37CmdOther_calm (Calm.refl _ d) ⟨rfl⟩
  case egressTcpAckReceived => exact fun _ _ => awake_touches (fun _ => rfl) fun d => egressTcpAck_calm (Calm.refl _ d) ⟨rfl⟩
  case egressTcpRto => exact fun _ => awake_touches (fun _ => rfl) fun d => egressTcpRto_calm (Calm.refl _ d) ⟨rfl⟩
  case txFrameComplete => exact fun _ _ _ => awake_touches (fun _ => rfl) fun d => txFrameComplete_calm (Calm.refl _ d) ⟨rfl⟩ ⟨rfl⟩ ⟨rfl⟩ ⟨rfl⟩
  case beaconInstant => exact awake_touches (fun _ => rfl) fun d => beaconInstant_calm (Calm.refl _ d) ⟨rfl⟩
  case xcrFrameReceived => exact fun _ _ => awake_touches (fun _ => rfl) fun d => xcrFrameReceived_calm (Calm.refl _ d) ⟨rfl⟩
  case xcrAckSend => exact awake_touches (fun _ => rfl) fun d => xcrAckSend_calm (Calm.refl _ d) ⟨rfl⟩
  case xcrAckTimeout => exact awake_touches (fun _ => rfl) fun d => xcrAckTimeout_calm (Calm.refl _ d) ⟨rfl⟩
  case xcrTxRequest => exact fun _ => alive_touches (fun _ => rfl) fun d => txCmdWrite_calm (Calm.refl _ d) ⟨rfl⟩
  case xcrListenSend => exact fun _ => awake_touches (fun _ => rfl) fun d => listenSend_calm (Calm.refl _ d) ⟨rfl⟩
  case xcrWakeSequence => exact fun _ => awake_touches (fun _ => rfl) fun d => wakeSequence_calm (Calm.refl _ d) ⟨rfl⟩
  case xcrDeferredSend => exact fun _ => awake_touches (fun _ => rfl) fun d => deferredSend_calm (Calm.refl _ d) ⟨rfl⟩
  case xcrCheckinMissed => exact fun _ => awake_touches (fun _ => rfl) fun d => checkinMissed_calm (Calm.refl _ d) ⟨rfl⟩
  case xcvrReadbackTimeout => exact fun _ => alive_touches (fun _ => rfl) fun d => xcvrReadback_calm (Calm.refl _ d) ⟨rfl⟩
  case xcrRxqPop => exact alive_touches (fun _ => rfl) fun d => rxqPop_calm (Calm.refl _ d) ⟨rfl⟩
  case rxlFrameReceived =>
    exact fun _ _ => awake_units (fun _ => rfl) fun d =>
      rxlFrameReceived_calm (Calm.refl _ d) ⟨rfl⟩ ⟨rfl⟩ ⟨rfl⟩ ⟨rfl⟩ ⟨rfl⟩ ⟨rfl⟩ ⟨rfl⟩ ⟨rfl⟩ ⟨rfl⟩ ⟨rfl⟩ ⟨rfl⟩ ⟨rfl⟩ ⟨rfl⟩ ⟨rfl⟩ ⟨rfl⟩ ⟨rfl⟩ ⟨rfl⟩ ⟨rfl⟩ ⟨rfl⟩ ⟨rfl⟩ (fun _ => ⟨rfl⟩)
  case rxlAckDelayExpiry => exact fun _ => awake_touches (fun _ => rfl) fun d => Calm.placed d fun _ h => rxlAckDelay_calm h ⟨rfl⟩ ⟨rfl⟩ ⟨rfl⟩
  case rxlRetransmitTimeout => exact fun _ _ => awake_touches (fun _ => rfl) fun d => Calm.placed d fun _ h => rxlRetransmit_calm h ⟨rfl⟩ ⟨rfl⟩ ⟨rfl⟩ ⟨rfl⟩
  case cadenceSend => exact fun _ _ => awake_touches (fun _ => rfl) fun d => cadenceSend_calm (Calm.refl _ d) ⟨rfl⟩ ⟨rfl⟩ ⟨rfl⟩
  case peerLossTimeout => exact fun _ => awake_touches (fun _ => rfl) fun d => peerLost_calm (Calm.refl _ d) ⟨rfl⟩ ⟨rfl⟩
  case rxlCadenceTimeout => exact fun _ => awake_touches (fun _ => rfl) fun d => Calm.placed d fun _ h => rxlCadTimeout_calm h ⟨rfl⟩ ⟨rfl⟩
  case rxlLockChange => exact fun _ _ => alive_touches (fun _ => rfl) fun d => Calm.placed d fun _ h => rxlLock_calm h ⟨rfl⟩ ⟨rfl⟩
  case rxlPortEnable => exact fun _ _ => alive_touches (fun _ => rfl) fun d => Calm.placed d fun _ h => rxlPortWrite_calm h ⟨rfl⟩ ⟨rfl⟩
  case rxlTrainingDone => exact fun _ => alive_touches (fun _ => rfl) fun d => Calm.placed d fun _ h => rxlTrained_calm h ⟨rfl⟩
  case partWaitExpiry => exact fun _ _ => awake_touches (fun _ => rfl) fun d => partWaitExpiry_calm (Calm.refl _ d) ⟨rfl⟩ ⟨rfl⟩ ⟨rfl⟩ ⟨rfl⟩
  case batonToggle => exact alive_touches (fun _ => rfl) fun d => batonToggle_calm (Calm.refl _ d) ⟨rfl⟩
  case batonEdgeSeen =>
    exact alive_touches (fun _ => rfl) fun d =>
      batonEdge_calm (Calm.refl _ d) ⟨rfl⟩ ⟨rfl⟩ ⟨rfl⟩ ⟨rfl⟩ ⟨rfl⟩ ⟨rfl⟩ ⟨rfl⟩ ⟨rfl⟩ ⟨rfl⟩ ⟨rfl⟩ ⟨rfl⟩ ⟨rfl⟩
  case batonSilenceTimeout =>
    exact alive_units (fun _ => rfl) fun d =>
      batonSilence_calm (Calm.refl _ d) ⟨rfl⟩ ⟨rfl⟩ ⟨rfl⟩ ⟨rfl⟩ ⟨rfl⟩ ⟨rfl⟩ ⟨rfl⟩ ⟨rfl⟩ ⟨rfl⟩ ⟨rfl⟩ ⟨rfl⟩ ⟨rfl⟩ ⟨rfl⟩ ⟨rfl⟩ ⟨rfl⟩ ⟨rfl⟩ ⟨rfl⟩ (fun _ => ⟨rfl⟩)
  case batonWatchEnd =>
    exact alive_touches (fun _ => rfl) fun d =>
      batonWatchEnd_calm (Calm.refl _ d) ⟨rfl⟩ ⟨rfl⟩ ⟨rfl⟩ ⟨rfl⟩ ⟨rfl⟩ ⟨rfl⟩ ⟨rfl⟩ ⟨rfl⟩ ⟨rfl⟩ ⟨rfl⟩ ⟨rfl⟩ ⟨rfl⟩ ⟨rfl⟩ ⟨rfl⟩
  case driverEnableDelay => exact awake_touches (fun _ => rfl) fun d => driverEnable_calm (Calm.refl _ d) ⟨rfl⟩ ⟨rfl⟩
  case heartbeatMissing => exact alive_touches (fun _ => rfl) fun d => heartbeatMissing_calm (Calm.refl _ d) ⟨rfl⟩
  case handoverRequest => exact alive_touches (fun _ => rfl) fun d => handoverRequest_calm (Calm.refl _ d) ⟨rfl⟩
  case handoverRelease => exact alive_touches (fun _ => rfl) fun d => handoverRelease_calm (Calm.refl _ d) ⟨rfl⟩
  case resyncRequest => exact alive_touches (fun _ => rfl) fun d => resyncRequest_calm (Calm.refl _ d) ⟨rfl⟩ ⟨rfl⟩ ⟨rfl⟩ ⟨rfl⟩
  case checkpointLoad =>
    exact awake_units (fun _ => rfl) fun d =>
      checkpointLoad_calm (Calm.refl _ d) ⟨rfl⟩ ⟨rfl⟩ ⟨rfl⟩ ⟨rfl⟩ ⟨rfl⟩ ⟨rfl⟩ ⟨rfl⟩ ⟨rfl⟩ ⟨rfl⟩ ⟨rfl⟩ ⟨rfl⟩ ⟨rfl⟩ ⟨rfl⟩ ⟨rfl⟩ ⟨rfl⟩ ⟨rfl⟩ ⟨rfl⟩ ⟨rfl⟩ ⟨rfl⟩ ⟨rfl⟩ (fun _ => ⟨rfl⟩)

end Sys2Proof.Machine
end

section
/-!
Writes of the modulator groups' and the filter chains' registers (R264, R272 to R276, R279), and the fault of an input (R265).
-/
namespace Sys2Proof.Machine
-- Proofs are elaborated in turn: side by side they wait for one another, each on a thread with a stack of its own.
set_option deprecated.oldSectionVars true

/-! Bits a mask sets. -/

/-- A field none of whose bits a mask has. -/
theorem bx_lor_outside (v m : Word) (hi lo : Nat) (h : ∀ j, j < hi - lo + 1 → m.getLsbD (lo + j) = false) : bx (v ||| m) hi lo = bx v hi lo := by
  apply Nat.eq_of_testBit_eq
  intro j
  rw [testBit_bx, testBit_bx, BitVec.getLsbD_or]
  by_cases hj : j < hi - lo + 1
  · rw [h j hj, Bool.or_false]
  · rw [decide_eq_false hj, Bool.false_and, Bool.false_and]
theorem bit_lor_run (v : Word) : bit (v ||| 0x80000000#32) 31 = true := by
  rw [bit_eq_getLsbD, BitVec.getLsbD_or]
  exact Bool.or_true _
theorem bit_land_run (v : Word) : bit (v &&& 0x7FFFFFFF#32) 31 = false := by
  rw [bit_eq_getLsbD, BitVec.getLsbD_and]
  exact Bool.and_false _
theorem bx_lor_run (v : Word) : bx (v ||| 0x80000000#32) 3 0 = bx v 3 0 := bx_lor_outside _ _ _ _ (by decide)

/-! Registers of the unit. -/

theorem LMF_CH_STAT_key_inj {c j : Nat} (h : c ≠ j) : LMF_CH_STAT.key c ≠ LMF_CH_STAT.key j := by
  simp [RegDef.key, LMF_CH_STAT]
  omega
theorem LMF_GRP_key_ne_LMF_CH_STAT {c j : Nat} (h : c < 64) : LMF_GRP.key (c / 8) ≠ LMF_CH_STAT.key j := by
  simp [RegDef.key, LMF_GRP, LMF_CH_STAT]
  omega
theorem LMF_CH_STAT_key_ne_LMF_CH_CTL (c j : Nat) : LMF_CH_STAT.key c ≠ LMF_CH_CTL.key j := by
  simp [RegDef.key, LMF_CH_CTL, LMF_CH_STAT]
  omega
/-- The registers of the chains stand below the unit's half bits and counters. -/
theorem LMF_CH_STAT_key_lt {c : Nat} (h : c < 64) : LMF_CH_STAT.key c < LMF_HALF.base := by
  simp [RegDef.key, LMF_CH_STAT, LMF_HALF]
  omega
theorem LMF_GRP_key_lt {c : Nat} (h : c < 64) : LMF_GRP.key (c / 8) < LMF_HALF.base := by
  simp [RegDef.key, LMF_GRP, LMF_HALF]
  omega

/-- A counter of the unit and its half bits. -/
abbrev Ctr.ofLmf (k : Ctr) : Prop := LMF_HALF.base ≤ k.base ∧ LMF_HALF.base ≤ k.half ∧ k.stride = 0

theorem Device.rg_count_lmf (d : Device) {k : Ctr} (hk : k.ofLmf) (r : RegDef) (i : Nat) (h1 : r.base / 65536 ≠ 0x17) (h2 : r.base / 65536 ≠ 0x19)
    (h : r.key i < LMF_HALF.base) : (d.count k).rg r i = d.rg r i := by
  obtain ⟨hb, hh, hs⟩ := hk
  exact d.rg_count k 0 r i h1 h2 (by omega) (by omega)
theorem Device.rg_stat_count (d : Device) {k : Ctr} (hk : k.ofLmf) {c : Nat} (hc : c < 64) : (d.count k).rg LMF_CH_STAT c = d.rg LMF_CH_STAT c :=
  d.rg_count_lmf hk _ _ (by decide) (by decide) (LMF_CH_STAT_key_lt hc)
theorem Device.f_stat_count (d : Device) {k : Ctr} (hk : k.ofLmf) {c : Nat} (hc : c < 64) {x : RF} (hx : x.reg = LMF_CH_STAT) :
    (d.count k).f x c = d.f x c := by
  rw [Device.f, Device.f, hx, d.rg_stat_count hk hc]
theorem Device.ctr_setf_stat (d : Device) {k : Ctr} (hk : k.ofLmf) {x : RF} (hx : x.reg = LMF_CH_STAT) (v : Nat) {c : Nat} (hc : c < 64) :
    (d.setf x v c).ctr k = d.ctr k := by
  obtain ⟨hb, -, hs⟩ := hk
  have hlt := LMF_CH_STAT_key_lt hc
  exact d.ctr_setf k 0 x v c (by rw [hx]; omega)
theorem Device.ctr_count_lmf (d : Device) {k : Ctr} (hk : k.base / 65536 = 0x12) (hh : k.base ≠ k.half) : (d.count k).ctr k = (d.ctr k + 1) % 2 ^ 32 :=
  d.ctr_count_self k 0 (by omega) (by omega) (by omega)
theorem Device.count_lmf (d : Device) (k : Ctr) : (d.count k).lmf = d.lmf := by simp

/-! Channels. -/

theorem Device.chan_congr {a d : Device} (h : d.lmf = a.lmf) (c : Nat) : d.chan c = a.chan c := by
  unfold Device.chan
  rw [h]
@[simp] theorem Device.chan_setChan_self (d : Device) (c : Nat) (x : LmfChan) : (d.setChan c x).chan c = x := mgetD_mset_self _ _ _ _
theorem Device.chan_setChan_other (d : Device) {c j : Nat} (x : LmfChan) (h : c ≠ j) : (d.setChan j x).chan c = d.chan c := mgetD_mset_other _ _ _ _ _ h

/-! LMF_GRP_WRITE. -/

section
variable {g : Nat} {v : Word} {d : Device}

theorem lmfGrpWrite_stores (h : (∀ i, i < 8 → d.running (8 * g + i) = false) ∨
    ((d.fb LMF_GRP.EN g = true → bit v 31 = true) ∧ bx v 30 30 = d.f LMF_GRP.EDGE g)) :
    lmfGrpWrite g v d = if d.fb LMF_GRP.EN g = bit v 31 then d.wr LMF_GRP g (v &&& 0xC0000000#32)
      else (d.wr LMF_GRP g (v &&& 0xC0000000#32)).emit (.pin 4 g (bit v 31)) := by
  refine if_neg ?_
  rcases h with h | ⟨hen, hedge⟩
  · simp +contextual [h]
  · simp +contextual [hen, hedge]
theorem lmfGrpWrite_refused {i : Nat} (hi : i < 8) (hr : d.running (8 * g + i) = true)
    (h : (d.fb LMF_GRP.EN g = true ∧ bit v 31 = false) ∨ bx v 30 30 ≠ d.f LMF_GRP.EDGE g) : lmfGrpWrite g v d = d.setf LMF_GSTAT.CFG_ERR 1 := by
  refine if_pos ?_
  have hany : (List.range 8).any (fun i => d.running (8 * g + i)) = true := List.any_eq_true.2 ⟨i, List.mem_range.2 hi, hr⟩
  rw [hany, Bool.and_true]
  rcases h with ⟨hen, hb⟩ | hedge
  · simp [hen, hb]
  · simp [hedge]
/-- What a group write that takes effect leaves. -/
theorem lmfGrpWrite_shows (h : (∀ i, i < 8 → d.running (8 * g + i) = false) ∨
    ((d.fb LMF_GRP.EN g = true → bit v 31 = true) ∧ bx v 30 30 = d.f LMF_GRP.EDGE g)) :
    (lmfGrpWrite g v d).rg LMF_GRP g = v &&& 0xC0000000#32 ∧ (lmfGrpWrite g v d).lmf = d.lmf ∧
    (d.fb LMF_GRP.EN g ≠ bit v 31 → .pin 4 g (bit v 31) ∈ (lmfGrpWrite g v d).out) := by
  rw [lmfGrpWrite_stores h]
  split
  case isTrue he => exact ⟨Device.rg_wr_self _ _ _ _, rfl, fun hne => absurd he hne⟩
  case isFalse => exact ⟨Device.rg_wr_self _ _ _ _, rfl, fun _ => Device.mem_emit_out _ _⟩

end

/-! CHANNEL_FAULT and CHANNEL_FAULT_CLEAR. -/

theorem channelFault_shows {c : Nat} {d : Device} (hc : c < 64) (hs : (d.chan c).stuck = true) (hf : d.fb LMF_CH_STAT.FAULT c = false) :
    (channelFault c d).fb LMF_CH_STAT.FAULT c = true ∧ (channelFault c d).ctr LMF_FAULTS = (d.ctr LMF_FAULTS + 1) % 2 ^ 32 := by
  rw [channelFault, if_pos (by simp [hs, hf, hc])]
  refine ⟨?_, ?_⟩
  · rw [Device.fb, Device.f_raise _ _ _ _ _ (by decide) (by decide), Device.f_stat_count _ (by decide) hc rfl]
    exact Device.fb_setf_self d LMF_CH_STAT.FAULT true c rfl (by decide)
  · rw [Device.ctr_raise _ _ _ _ _ (by decide) (by decide), Device.ctr_count_lmf _ (by decide) (by decide), Device.ctr_setf_stat _ (by decide) rfl _ hc]
theorem channelFaultClear_shows {c : Nat} {d : Device} (hc : c < 64) (hs : (d.chan c).stuck = false) (hf : d.fb LMF_CH_STAT.FAULT c = true) :
    (channelFaultClear c d).fb LMF_CH_STAT.FAULT c = false ∧ (channelFaultClear c d).ctr LMF_FAULTS = d.ctr LMF_FAULTS := by
  rw [channelFaultClear, if_pos (by simp [hs, hf])]
  refine ⟨?_, ?_⟩
  · rw [Device.fb, Device.f_raise _ _ _ _ _ (by decide) (by decide)]
    exact Device.fb_setf_self d LMF_CH_STAT.FAULT false c rfl (by decide)
  · rw [Device.ctr_raise _ _ _ _ _ (by decide) (by decide), Device.ctr_setf_stat _ (by decide) rfl _ hc]

/-! Requests (R272, R274, R276). -/

/-- A rejected request shows its code and is counted. -/
theorem lmfErr_shows {c code : Nat} (d : Device) (hc : c < 64) (hcode : code < 8) : (lmfErr c code d).lmf = d.lmf ∧
    (lmfErr c code d).f LMF_CH_STAT.ERR c = 1 ∧ (lmfErr c code d).f LMF_CH_STAT.ECODE c = code ∧
    (lmfErr c code d).ctr LMF_REJECTS = (d.ctr LMF_REJECTS + 1) % 2 ^ 32 := by
  obtain ⟨he, hecode⟩ := d.err_reads LMF_CH_STAT.ERR LMF_CH_STAT.ECODE code c rfl rfl (by decide) (by decide) (by decide) (by decide) hcode
  unfold lmfErr
  refine ⟨Device.count_lmf _ _, ?_, ?_, ?_⟩
  · rw [Device.f_stat_count _ (by decide) hc rfl, he]
  · rw [Device.f_stat_count _ (by decide) hc rfl, hecode]
  · rw [Device.ctr_count_lmf _ (by decide) (by decide), Device.err, Device.ctr_setf_stat _ (by decide) rfl _ hc, Device.ctr_setf_stat _ (by decide) rfl _ hc]

/-! LMF_CH_CTL. -/

/-- The instant of a channel's start request: one that already waits keeps its own. -/
def Device.askedAt (d : Device) (c : Nat) : Time := match (d.chan c).start with | some q => q.2 | none => d.tk.now

section
variable {c : Nat} {v : Word} {d : Device}

/-- A write with RUN set that does not meet a running chain asks for a start. -/
theorem lmfCtlWrite_start (h : d.running c = false ∨ (d.chan c).stop = true) :
    lmfCtlWrite c (v ||| 0x80000000#32) d = lmfRunStart c (v ||| 0x80000000#32) d := by
  rw [lmfCtlWrite, if_neg (by rw [bit_lor_run]; decide), if_neg ?_]
  rcases h with h | h
  · simp [h]
  · simp [h]
/-- One that meets a running chain asks for another response. -/
theorem lmfCtlWrite_switch (h : d.running c = true) (hs : (d.chan c).stop = false) :
    lmfCtlWrite c (v ||| 0x80000000#32) d = lmfSwitch c (v ||| 0x80000000#32) d := by
  rw [lmfCtlWrite, if_neg (by rw [bit_lor_run]; decide), if_pos (by simp [h, hs])]
theorem lmfCtlWrite_stop : lmfCtlWrite c (v &&& 0x7FFFFFFF#32) d = lmfRunStop c (v &&& 0x7FFFFFFF#32) d := by
  rw [lmfCtlWrite, if_pos (by rw [bit_land_run]; rfl)]
/-- A reserved response is rejected, whatever the chain does. -/
theorem lmfCtlWrite_reserved (h1 : 12 ≤ bx v 3 0) (h2 : bx v 3 0 ≤ 14) : lmfCtlWrite c (v ||| 0x80000000#32) d = lmfErr c 6 d := by
  have hres : 12 ≤ bx (v ||| 0x80000000#32) 3 0 ∧ bx (v ||| 0x80000000#32) 3 0 ≤ 14 := by
    rw [bx_lor_run]
    exact ⟨h1, h2⟩
  by_cases hr : d.running c = true ∧ (d.chan c).stop = false
  · rw [lmfCtlWrite_switch hr.1 hr.2]
    exact if_pos hres
  · rw [lmfCtlWrite_start (by simpa [imp_iff_not_or] using hr)]
    exact if_pos hres

section
variable (hr : ¬(12 ≤ bx v 3 0 ∧ bx v 3 0 ≤ 14))
include hr

theorem lmfRunStart_off (he : d.fb LMF_GRP.EN (c / 8) = false) : lmfRunStart c (v ||| 0x80000000#32) d = lmfErr c 4 d := by
  unfold lmfRunStart
  rw [bx_lor_run, if_neg hr, if_pos (by simp [he])]
theorem lmfRunStart_noRam (he : d.fb LMF_GRP.EN (c / 8) = true) (h15 : bx v 3 0 = 15) (hram : d.fb LMF_CH_STAT.RAM_OK c = false) :
    lmfRunStart c (v ||| 0x80000000#32) d = lmfErr c 3 d := by
  unfold lmfRunStart
  rw [bx_lor_run, if_neg hr, if_neg (by simp [he]), if_pos (by simp [h15, hram])]
theorem lmfRunStart_asks (he : d.fb LMF_GRP.EN (c / 8) = true) (hram : bx v 3 0 ≠ 15 ∨ d.fb LMF_CH_STAT.RAM_OK c = true) :
    lmfRunStart c (v ||| 0x80000000#32) d = (d.wr LMF_CH_CTL c ((v ||| 0x80000000#32) &&& 0x8000000F#32)).setChan c { d.chan c with
      start := some (bx v 3 0, d.askedAt c) } := by
  have hat : (match (d.chan c).start with | some (_, t) => t | none => d.tk.now) = d.askedAt c := by
    unfold Device.askedAt
    cases (d.chan c).start with
    | none => rfl
    | some q => rfl
  unfold lmfRunStart
  rw [bx_lor_run, if_neg hr, if_neg (by simp [he]), if_neg (by simpa [imp_iff_not_or] using hram)]
  rw [← hat]
  rfl

theorem lmfSwitch_queues (hf : d.fb LMF_CH_STAT.FADING c = true) : lmfSwitch c (v ||| 0x80000000#32) d =
    ((((d.wr LMF_CH_CTL c ((v ||| 0x80000000#32) &&& 0x8000000F#32)).setChan c { d.chan c with queued := some (bx v 3 0) }).setf
      LMF_CH_STAT.QUEUED 1 c).setf LMF_CH_STAT.QSEL (bx v 3 0) c).count (if (d.chan c).queued.isSome then LMF_REPLACED else LMF_QUEUED) := by
  unfold lmfSwitch
  rw [bx_lor_run, if_neg hr, if_pos hf]
theorem lmfSwitch_same (hf : d.fb LMF_CH_STAT.FADING c = false) (ha : bx v 3 0 = d.f LMF_CH_STAT.ACTIVE c) :
    lmfSwitch c (v ||| 0x80000000#32) d = d.wr LMF_CH_CTL c ((v ||| 0x80000000#32) &&& 0x8000000F#32) := by
  unfold lmfSwitch
  rw [bx_lor_run, if_neg hr, if_neg (by simp [hf]), if_pos ha]
theorem lmfSwitch_noRam (hf : d.fb LMF_CH_STAT.FADING c = false) (ha : bx v 3 0 ≠ d.f LMF_CH_STAT.ACTIVE c) (h15 : bx v 3 0 = 15)
    (hram : d.fb LMF_CH_STAT.RAM_OK c = false) : lmfSwitch c (v ||| 0x80000000#32) d = lmfErr c 3 d := by
  unfold lmfSwitch
  rw [bx_lor_run, if_neg hr, if_neg (by simp [hf]), if_neg ha, if_pos (by simp [h15, hram])]
theorem lmfSwitch_asks (hf : d.fb LMF_CH_STAT.FADING c = false) (ha : bx v 3 0 ≠ d.f LMF_CH_STAT.ACTIVE c)
    (hram : bx v 3 0 ≠ 15 ∨ d.fb LMF_CH_STAT.RAM_OK c = true) : lmfSwitch c (v ||| 0x80000000#32) d =
      (d.wr LMF_CH_CTL c ((v ||| 0x80000000#32) &&& 0x8000000F#32)).setChan c { d.chan c with switch := some (bx v 3 0, d.tk.now) } := by
  unfold lmfSwitch
  rw [bx_lor_run, if_neg hr, if_neg (by simp [hf]), if_neg ha, if_neg (by simpa [imp_iff_not_or] using hram)]

end

/-- LMF_CH_CTL as a write with RUN set stores it. -/
theorem Device.wr_run_shows : (d.wr LMF_CH_CTL c ((v ||| 0x80000000#32) &&& 0x8000000F#32)).f LMF_CH_CTL.SEL c = bx v 3 0 ∧
    (d.wr LMF_CH_CTL c ((v ||| 0x80000000#32) &&& 0x8000000F#32)).fb LMF_CH_CTL.RUN c = true := by
  have hself := d.rg_wr_self LMF_CH_CTL c ((v ||| 0x80000000#32) &&& 0x8000000F#32)
  refine ⟨(congrArg (bx · 3 0) hself).trans ((bx_land_kept _ _ _ _ (by decide)).trans (bx_lor_run v)), ?_⟩
  refine (congrArg (bit · 31) hself).trans ?_
  exact (congrArg (fun n => decide (n = 1)) (bx_land_kept _ 0x8000000F#32 31 31 (by decide))).trans (bit_lor_run v)
/-- A write with RUN clear takes a start back and, of a running chain, asks for a stop. -/
theorem lmfRunStop_shows : (lmfRunStop c (v &&& 0x7FFFFFFF#32) d).chan c = { d.chan c with start := none, stop := d.running c } ∧
    (lmfRunStop c (v &&& 0x7FFFFFFF#32) d).fb LMF_CH_CTL.RUN c = false ∧ (lmfRunStop c (v &&& 0x7FFFFFFF#32) d).running c = d.running c ∧
    ∀ j, j ≠ c → (lmfRunStop c (v &&& 0x7FFFFFFF#32) d).chan j = d.chan j := by
  refine ⟨Device.chan_setChan_self _ _ _, ?_, ?_, fun j hj => Device.chan_setChan_other _ _ hj⟩
  · refine (congrArg (bit · 31) (d.rg_wr_self LMF_CH_CTL c ((v &&& 0x7FFFFFFF#32) &&& 0x0000000F#32))).trans ?_
    rw [bit_eq_getLsbD, BitVec.getLsbD_and]
    exact Bool.and_false _
  · have hrg := d.rg_wr_other LMF_CH_CTL LMF_CH_STAT c c ((v &&& 0x7FFFFFFF#32) &&& 0x0000000F#32) (LMF_CH_STAT_key_ne_LMF_CH_CTL c c)
    exact congrArg (bit · 31) hrg
/-- A request that meets a cross-fade waits in the queue. -/
theorem lmfSwitch_queued (hc : c < 64) (hr : ¬(12 ≤ bx v 3 0 ∧ bx v 3 0 ≤ 14)) (hf : d.fb LMF_CH_STAT.FADING c = true) :
    (lmfSwitch c (v ||| 0x80000000#32) d).chan c = { d.chan c with queued := some (bx v 3 0) } ∧
    (lmfSwitch c (v ||| 0x80000000#32) d).fb LMF_CH_STAT.QUEUED c = true ∧ (lmfSwitch c (v ||| 0x80000000#32) d).f LMF_CH_STAT.QSEL c = bx v 3 0 := by
  have hk : (if (d.chan c).queued.isSome then LMF_REPLACED else LMF_QUEUED).ofLmf := by
    split
    · decide
    · decide
  rw [lmfSwitch_queues hr hf]
  refine ⟨(Device.chan_congr (Device.count_lmf _ _) c).trans (Device.chan_setChan_self _ _ _), ?_, ?_⟩
  · rw [Device.fb, Device.f_stat_count _ hk hc rfl, Device.f_setf_field _ LMF_CH_STAT.QSEL LMF_CH_STAT.QUEUED _ _ rfl (by decide) (by decide) (by decide) (by decide)]
    exact Device.fb_setf_self _ LMF_CH_STAT.QUEUED true c rfl (by decide)
  · rw [Device.f_stat_count _ hk hc rfl, Device.f_setf_self _ LMF_CH_STAT.QSEL _ _ (by decide) (by decide)]
    exact Nat.mod_eq_of_lt (bx_lt v 3 0)

end

end Sys2Proof.Machine
end

section
/-!
What the strobes do to one filter chain and leave to the others (R265, R267, R272, R276): each operation on a chain keeps the other chains, so that
what an operation over all chains leaves at one of them is what its own one leaves.
-/
namespace Sys2Proof.Machine
-- Proofs are elaborated in turn: side by side they wait for one another, each on a thread with a stack of its own.
set_option deprecated.oldSectionVars true

/-! Folds of operations on places of their own. -/

/-- What no operation of a list changes stays. -/
theorem foldl_leaves {σ α β : Type} {view : σ → β} {op : σ → α → σ} {l : List α} (h : ∀ x, ∀ j ∈ l, view (op x j) = view x) (x : σ) :
    view (l.foldl op x) = view x := by
  induction l generalizing x with
  | nil => rfl
  | cons j l ih => exact (ih (fun y i hi => h y i (List.mem_cons_of_mem j hi)) (op x j)).trans (h x j (List.mem_cons_self ..))
/-- Where the others leave the place `c`, the operation on `c` alone decides what stands there. -/
theorem foldl_acts {σ β : Type} {view : σ → β} {op : σ → Nat → σ} {l : List Nat} {c : Nat} (h : ∀ x, ∀ j ∈ l, j ≠ c → view (op x j) = view x)
    (hl : l.Nodup) (hc : c ∈ l) (x : σ) : ∃ y, view y = view x ∧ view (l.foldl op x) = view (op y c) := by
  induction l generalizing x with
  | nil => exact absurd hc List.not_mem_nil
  | cons j l ih =>
    obtain ⟨hj, hn⟩ := List.nodup_cons.1 hl
    have hrest : ∀ y, ∀ i ∈ l, i ≠ c → view (op y i) = view y := fun y i hi => h y i (List.mem_cons_of_mem j hi)
    rcases List.mem_cons.1 hc with rfl | hcl
    · exact ⟨x, rfl, foldl_leaves (fun y i hi => hrest y i hi fun he => hj (he ▸ hi)) (op x c)⟩
    · obtain ⟨y, hy, hfold⟩ := ih hrest hn hcl (op x j)
      exact ⟨y, hy.trans (h x j (List.mem_cons_self ..) fun he => hj (he ▸ hcl)), hfold⟩

/-! Operations on one chain. -/

/-- All that what happens at a chain's strobe depends on: the channel, its status, its group and the filter banks. -/
def Device.strand (d : Device) (c : Nat) : LmfChan × Word × Word × NMap (List Word) :=
  (d.chan c, d.rg LMF_CH_STAT c, d.rg LMF_GRP (c / 8), d.tables)

theorem Device.strand_eq_iff {a d : Device} {c : Nat} : d.strand c = a.strand c ↔
    d.chan c = a.chan c ∧ d.rg LMF_CH_STAT c = a.rg LMF_CH_STAT c ∧ d.rg LMF_GRP (c / 8) = a.rg LMF_GRP (c / 8) ∧ d.tables = a.tables := by
  simp [Device.strand]

/-- Nothing of the strobe's count, of the inputs and of the other chains is touched. -/
structure Device.OnChain (j : Nat) (a d : Device) : Prop where
  phase : d.lmf.phase = a.lmf.phase
  level : ∀ c, (d.chan c).level = (a.chan c).level
  others : ∀ c, c < 64 → c ≠ j → d.strand c = a.strand c

namespace Device.OnChain
variable {a b d : Device} {j : Nat}

theorem refl (d : Device) : OnChain j d d := ⟨rfl, fun _ => rfl, fun _ _ _ => rfl⟩
theorem trans (h : OnChain j a b) (g : OnChain j b d) : OnChain j a d :=
  ⟨g.phase.trans h.phase, fun c => (g.level c).trans (h.level c), fun c hc hn => (g.others c hc hn).trans (h.others c hc hn)⟩
theorem setChan (h : OnChain j a d) {x : LmfChan} (hx : x.level = (d.chan j).level := by rfl) : OnChain j a (d.setChan j x) := by
  refine h.trans ⟨rfl, fun c => ?level, fun c _ hn => ?others⟩
  case level =>
    by_cases hn : c = j
    · subst hn
      rw [Device.chan_setChan_self, hx]
    · rw [Device.chan_setChan_other _ _ hn]
  case others => exact Device.strand_eq_iff.2 ⟨Device.chan_setChan_other _ _ hn, rfl, rfl, rfl⟩
theorem setf (h : OnChain j a d) {x : RF} {v : Nat} (hx : x.reg = LMF_CH_STAT := by rfl) : OnChain j a (d.setf x v j) := by
  refine h.trans ⟨rfl, fun _ => rfl, fun c hc hn => Device.strand_eq_iff.2 ⟨rfl, ?_, ?_, rfl⟩⟩
  · exact Device.rg_wr_other _ _ _ _ _ _ (by rw [hx]; exact LMF_CH_STAT_key_inj hn)
  · exact Device.rg_wr_other _ _ _ _ _ _ (by rw [hx]; exact LMF_GRP_key_ne_LMF_CH_STAT hc)
theorem ite {x y : Device} {p : Prop} [Decidable p] (hx : OnChain j a x) (hy : OnChain j a y) : OnChain j a (if p then x else y) :=
  iteInduction (fun _ => hx) (fun _ => hy)
theorem of_lmf (h : OnChain j a b) (hl : d.lmf = b.lmf) (ht : d.tables = b.tables)
    (hr : ∀ c, c < 64 → d.rg LMF_CH_STAT c = b.rg LMF_CH_STAT c ∧ d.rg LMF_GRP (c / 8) = b.rg LMF_GRP (c / 8)) : OnChain j a d := by
  refine h.trans ⟨congrArg Lmf.phase hl, fun c => congrArg LmfChan.level (Device.chan_congr hl c), fun c hc _ => ?_⟩
  exact Device.strand_eq_iff.2 ⟨Device.chan_congr hl c, (hr c hc).1, (hr c hc).2, ht⟩
theorem count (h : OnChain j a d) {k : Ctr} (hk : k.ofLmf := by decide) : OnChain j a (d.count k) :=
  h.of_lmf (by simp) (by simp) fun _ hc =>
    ⟨d.rg_stat_count hk hc, d.rg_count_lmf hk _ _ (by decide) (by decide) (LMF_GRP_key_lt hc)⟩
theorem calm {l : List Touch} {u : List Nat} (h : OnChain j a b) (hc : Calm (Eff.of l u) b d) (hl : l.contains .tab = false := by rfl)
    (hu : u.contains 0x12 = false := by rfl) : OnChain j a d :=
  h.of_lmf (left_alone hc.lmf hu) (left_alone hc.tables hl) fun _ _ =>
    ⟨hc.rg_of _ _ hu (by decide) (by decide), hc.rg_of _ _ hu (by decide) (by decide)⟩
theorem raise (h : OnChain j a d) {e : EvId} {l : List Nat} : OnChain j a (d.raise e l) :=
  h.calm (Device.raise_calm (e := Eff.of [] []) (Calm.refl _ d))
theorem raiseSec (h : OnChain j a d) {last : Option Nat} {e : EvId} {l : List Nat} : OnChain j a (d.raiseSec last e l) :=
  h.calm (Device.raiseSec_calm (e := Eff.of [] []) (Calm.refl _ d))

/-! What takes effect at a strobe. -/

theorem lmfErr (h : OnChain j a d) (code : Nat) : OnChain j a (lmfErr j code d) := h.setf.setf.count
theorem chainStop (h : OnChain j a d) : OnChain j a (chainStop j d) :=
  h.setChan.setf.setf.setf.setf.setf
theorem chainStart (h : OnChain j a d) (code : Nat) : OnChain j a (chainStart j code d) :=
  .ite (h.setChan.lmfErr 3) h.setChan.setf.setf.setf
theorem fadeStart (h : OnChain j a d) (code : Nat) (edge : Time) : OnChain j a (fadeStart j code edge d) := by
  have h0 := h.setChan (x := { d.chan j with switch := none })
  unfold Machine.fadeStart
  extract_lets old x0 d0 x1 d1 d2 d3
  have h3 : OnChain j a d3 := h0.setChan.setf.setf.setf.count.raise
  exact .ite (h0.lmfErr 3) (.ite (h3.calm (Device.journalW_calm (e := Eff.of [.dd, .jnl] []) (Calm.refl _ _) ⟨rfl⟩ ⟨rfl⟩)) h3)
theorem chainApply (h : OnChain j a d) (edge : Time) : OnChain j a (chainApply j edge d) := by
  unfold Machine.chainApply
  extract_lets d1 d2
  have h1 : OnChain j a d1 := .ite h.chainStop h
  have h2 : OnChain j a d2 := by
    unfold d2
    split
    · exact .ite (h1.chainStart _) h1
    · exact h1
  split
  · exact .ite (h2.fadeStart _ edge) h2
  · exact h2

/-! Outputs. -/

theorem ovrMark (h : OnChain j a d) : OnChain j a (ovrMark j d) := h.count.raiseSec.setChan
theorem capOutput (h : OnChain j a d) (edge : Time) : OnChain j a (capOutput j edge d) := by
  unfold Machine.capOutput
  extract_lets x fk o dc tag d1 d2 d3
  have h2 : OnChain j a d2 := h.setChan.count
  have h3 : OnChain j a d3 := .ite h2.ovrMark h2
  exact h3.calm (acqLocal_calm (e := Eff.of [.dd] [0x13, 0x17]) (Calm.refl _ _) ⟨rfl⟩ ⟨rfl⟩ ⟨rfl⟩)
theorem fadeEnd (h : OnChain j a d) : OnChain j a (fadeEnd j d) := h.setChan.setf.setf.setf
theorem phOutput (h : OnChain j a d) (edge : Time) : OnChain j a (phOutput j edge d).2 := by
  unfold Machine.phOutput
  extract_lets x fk o act tag s d1 d2 d3 d4
  have h2 : OnChain j a d2 := h.setChan.setf.count
  have h3 : OnChain j a d3 := .ite h2.ovrMark h2
  have h4 : OnChain j a d4 := .ite h3.fadeEnd h3
  exact .ite (h4.calm (ringPut_calm (e := Eff.of [] [4]) (Calm.refl _ _) ⟨rfl⟩)) h4

end Device.OnChain

end Sys2Proof.Machine
end

section
/-!
One strobe at one filter chain (R264, R267, R270 to R276): the bits it takes, what takes effect, and its outputs.
-/
namespace Sys2Proof.Machine
-- Proofs are elaborated in turn: side by side they wait for one another, each on a thread with a stack of its own.
set_option deprecated.oldSectionVars true

/-! Operations over the chains. -/

section
variable {op : Device → Nat → Device} (hop : ∀ (d : Device) j, d.OnChain j (op d j)) {l : List Nat} {c : Nat} (d : Device)
include hop

theorem foldl_onChain_phase : (l.foldl op d).lmf.phase = d.lmf.phase := foldl_leaves (view := fun x : Device => x.lmf.phase) (fun x j _ => (hop x j).phase) d
theorem foldl_onChain_level : ((l.foldl op d).chan c).level = (d.chan c).level :=
  foldl_leaves (view := fun x : Device => (x.chan c).level) (fun x j _ => (hop x j).level c) d
theorem foldl_onChain_other (hc : c < 64) (hn : c ∉ l) : (l.foldl op d).strand c = d.strand c :=
  foldl_leaves (view := fun x : Device => x.strand c) (fun x j hj => (hop x j).others c hc fun he => hn (he ▸ hj)) d
theorem foldl_onChain_acts (hl : l.Nodup) (hc : c < 64) (hm : c ∈ l) : ∃ y, y.strand c = d.strand c ∧ (l.foldl op d).strand c = (op y c).strand c :=
  foldl_acts (view := fun x : Device => x.strand c) (fun x j _ hj => (hop x j).others c hc (Ne.symm hj)) hl hm d

end

theorem Device.nodup_runningChans (d : Device) : d.runningChans.Nodup := List.nodup_range.filter _
theorem Device.mem_runningChans {d : Device} {c : Nat} (hc : c < 64) : c ∈ d.runningChans ↔ d.running c = true := by
  simp [Device.runningChans, hc]
theorem Calm.strand {a d : Device} {l : List Touch} {u : List Nat} (h : Calm (Eff.of l u) a d) (hl : l.contains .tab = false)
    (hu : u.contains 0x12 = false) (c : Nat) : d.strand c = a.strand c :=
  Device.strand_eq_iff.2 ⟨Device.chan_congr (left_alone h.lmf hu) c, h.rg_of _ _ hu (by decide) (by decide), h.rg_of _ _ hu (by decide) (by decide),
    left_alone h.tables hl⟩

theorem Device.f_of_stat {a d : Device} {c : Nat} (h : d.rg LMF_CH_STAT c = a.rg LMF_CH_STAT c) {x : RF} (hx : x.reg = LMF_CH_STAT) :
    d.f x c = a.f x c := by
  rw [Device.f, Device.f, hx, h]
theorem Device.running_of_stat {a d : Device} {c : Nat} (h : d.rg LMF_CH_STAT c = a.rg LMF_CH_STAT c) : d.running c = a.running c := by
  rw [Device.running, Device.running, Device.fb, Device.fb, Device.f_of_stat h rfl]

section
variable {a d : Device} {c : Nat} (h : d.strand c = a.strand c)
include h

theorem Device.chan_of_strand : d.chan c = a.chan c := (Device.strand_eq_iff.1 h).1
theorem Device.f_of_strand {x : RF} (hx : x.reg = LMF_CH_STAT) : d.f x c = a.f x c :=
  Device.f_of_stat (Device.strand_eq_iff.1 h).2.1 hx
theorem Device.fb_of_strand {x : RF} (hx : x.reg = LMF_CH_STAT) : d.fb x c = a.fb x c := by
  rw [Device.fb, Device.fb, Device.f_of_strand h hx]
theorem Device.running_of_strand : d.running c = a.running c := Device.fb_of_strand h rfl
theorem Device.enabled_of_strand : d.fb LMF_GRP.EN (c / 8) = a.fb LMF_GRP.EN (c / 8) :=
  congrArg (bit · 31) (Device.strand_eq_iff.1 h).2.2.1
theorem Device.nPh_of_strand (code : Nat) : d.nPh c code = a.nPh c code := by
  unfold Device.nPh Device.dPh Device.ramBank Device.ent
  rw [(Device.strand_eq_iff.1 h).2.2.2]

end

/-! The bits of a strobe. -/

/-- A channel differs in its input and in the samples made of it alone. -/
def LmfChan.Fed (x y : LmfChan) : Prop :=
  ∃ level run good stuck bits hist, y = { x with level := level, run := run, good := good, stuck := stuck, bits := bits, hist := hist }

theorem LmfChan.Fed.refl (x : LmfChan) : x.Fed x := ⟨x.level, x.run, x.good, x.stuck, x.bits, x.hist, rfl⟩
theorem LmfChan.Fed.trans {x y z : LmfChan} (h : x.Fed y) (g : y.Fed z) : x.Fed z := by
  obtain ⟨_, _, _, _, _, _, rfl⟩ := h
  obtain ⟨l, r, gd, s, b, hs, rfl⟩ := g
  exact ⟨l, r, gd, s, b, hs, rfl⟩
theorem chanBit_fed (r : Bool) (x : LmfChan) (b : Bool) : x.Fed (chanBit r x b) := ⟨_, _, _, _, _, _, rfl⟩
theorem chanBits_fed (r : Bool) (w : Nat) (x : LmfChan) : x.Fed (chanBits r w x) := by
  have hfold : ∀ l : List Nat, x.Fed (l.foldl (fun a i => chanBit r a (w.testBit i)) x) := fun l =>
    List.foldlRecOn l _ (LmfChan.Fed.refl x) fun y hy i _ => hy.trans (chanBit_fed r y _)
  unfold chanBits
  extract_lets y
  split
  · exact (hfold _).trans ⟨y.level, y.run, y.good, y.stuck, y.bits, _, rfl⟩
  · exact hfold _
/-- The input stands at the last bit taken. -/
theorem chanBits_level (r : Bool) (w : Nat) (x : LmfChan) : (chanBits r w x).level = w.testBit 63 := by
  have hlast : ((List.range 64).foldl (fun a i => chanBit r a (w.testBit i)) x).level = w.testBit 63 := by
    rw [List.range_succ, List.foldl_append]
    rfl
  unfold chanBits
  extract_lets y
  split
  · exact hlast
  · exact hlast

/-- The bits of one channel in a strobe. -/
def Device.bitsTaken (ws : List Nat) (d : Device) (m : NMap LmfChan) (c : Nat) : NMap LmfChan :=
  if d.fb LMF_GRP.EN (c / 8) then
    mset m c (chanBits (d.running c) (ws.getD c 0 / 2 ^ 64) (chanBits (d.running c) (ws.getD c 0 % 2 ^ 64) (mgetD m c chanInit)))
  else m
theorem lmfBits_eq (ws : List Nat) (d : Device) :
    lmfBits ws d = { d with lmf := { d.lmf with chans := (List.range 64).foldl (d.bitsTaken ws) d.lmf.chans } } := rfl
theorem Device.bitsTaken_other (ws : List Nat) (d : Device) (m : NMap LmfChan) {c j : Nat} (h : c ≠ j) :
    mgetD (d.bitsTaken ws m j) c chanInit = mgetD m c chanInit := by
  unfold Device.bitsTaken
  split
  · exact mgetD_mset_other _ _ _ _ _ h
  · rfl
theorem Device.bitsTaken_self (ws : List Nat) (d : Device) (m : NMap LmfChan) (c : Nat) :
    (mgetD m c chanInit).Fed (mgetD (d.bitsTaken ws m c) c chanInit) ∧
    (d.fb LMF_GRP.EN (c / 8) = true → (mgetD (d.bitsTaken ws m c) c chanInit).level = (ws.getD c 0).testBit 127) := by
  unfold Device.bitsTaken
  split
  case isTrue =>
    rw [mgetD_mset_self]
    refine ⟨(chanBits_fed _ _ _).trans (chanBits_fed _ _ _), fun _ => ?_⟩
    rw [chanBits_level, Nat.testBit_div_two_pow]
  case isFalse hen => exact ⟨.refl _, fun h => absurd h hen⟩

/-- The device with the bits of a strobe, which is the `n`th since the last phasor strobe. -/
def Device.strobed (ws : List Nat) (n : Nat) (d : Device) : Device := { lmfBits ws d with lmf := { (lmfBits ws d).lmf with phase := n } }

theorem Device.strobed_chan (ws : List Nat) (n : Nat) (d : Device) {c : Nat} (hc : c < 64) : (d.chan c).Fed ((d.strobed ws n).chan c) ∧
    (d.fb LMF_GRP.EN (c / 8) = true → ((d.strobed ws n).chan c).level = (ws.getD c 0).testBit 127) := by
  obtain ⟨m, hm, hfold⟩ := foldl_acts (view := fun m : NMap LmfChan => mgetD m c chanInit) (op := d.bitsTaken ws)
    (fun m j _ hj => d.bitsTaken_other ws m (Ne.symm hj)) List.nodup_range (List.mem_range.2 hc) d.lmf.chans
  have hchan : (d.strobed ws n).chan c = mgetD (d.bitsTaken ws m c) c chanInit :=
    (congrArg (fun x : Device => x.chan c) (lmfBits_eq ws d)).trans hfold
  have hself := d.bitsTaken_self ws m c
  rw [hm] at hself
  rw [hchan]
  exact hself

/-! What takes effect. -/

/-- A start that is due clears the chain and sets it running. -/
theorem chainStart_shows (d : Device) (c : Nat) {code : Nat} (hcode : code < 16) (hram : code ≠ 15 ∨ d.fb LMF_CH_STAT.RAM_OK c = true) :
    ((chainStart c code d).chan c).start = none ∧ ((chainStart c code d).chan c).switch = none ∧ ((chainStart c code d).chan c).fade = none ∧
    ((chainStart c code d).chan c).unsetPh = d.nPh c code ∧ (chainStart c code d).running c = true ∧
    (chainStart c code d).f LMF_CH_STAT.ACTIVE c = code := by
  rw [chainStart, if_neg (by simpa [imp_iff_not_or] using hram)]
  extract_lets x d1
  have hchan := d.chan_setChan_self c { x with
    start := none, bits := [], hist := [], fade := none, switch := none, queued := none, unsetPh := d.nPh c code, unsetCap := d.nCap c code, lastD := none }
  refine ⟨congrArg LmfChan.start hchan, congrArg LmfChan.switch hchan, congrArg LmfChan.fade hchan, congrArg LmfChan.unsetPh hchan, ?_, ?_⟩
  · simp (disch := decide) only [Device.running, Device.fb, Device.f_setf_field, Device.f_setf_self]
    rfl
  · simp (disch := decide) only [Device.f_setf_field, Device.f_setf_self]
    exact Nat.mod_eq_of_lt hcode
theorem chainApply_starts {c code : Nat} {t edge : Time} {d : Device} (hs : (d.chan c).stop = false) (hst : (d.chan c).start = some (code, t))
    (hdue : lmfDue t edge = true) (hen : d.fb LMF_GRP.EN (c / 8) = true) (hcode : code < 16) (hram : code ≠ 15 ∨ d.fb LMF_CH_STAT.RAM_OK c = true) :
    chainApply c edge d = chainStart c code d := by
  obtain ⟨-, hsw, -⟩ := chainStart_shows d c hcode hram
  unfold chainApply
  simp [hs, hst, hdue, hen, hsw]
/-- A stop takes effect at once, and nothing else of that chain. -/
theorem chainApply_stops {c : Nat} {edge : Time} {d : Device} (hs : (d.chan c).stop = true) (hst : (d.chan c).start = none) :
    chainApply c edge d = chainStop c d := by
  have hchan : (chainStop c d).chan c = { d.chan c with stop := false, switch := none, queued := none, fade := none, unsetPh := 0, unsetCap := 0 } :=
    d.chan_setChan_self c _
  unfold chainApply
  simp [hs, hst, hchan]
theorem chainStop_shows (d : Device) (c : Nat) : (chainStop c d).running c = false ∧ ((chainStop c d).chan c).stop = false ∧
    (chainStop c d).fb LMF_CH_STAT.FADING c = false := by
  refine ⟨?_, congrArg LmfChan.stop (d.chan_setChan_self c _), ?_⟩
  · simp (disch := decide) only [chainStop, Device.running, Device.fb, Device.f_setf_field, Device.f_setf_self]
    rfl
  · simp (disch := decide) only [chainStop, Device.fb, Device.f_setf_field, Device.f_setf_self]
    rfl

/-! Outputs. -/

theorem ovrMark_leaves (d : Device) {c : Nat} (hc : c < 64) : (∃ o, (ovrMark c d).chan c = { d.chan c with ovrSec := o }) ∧
    (ovrMark c d).rg LMF_CH_STAT c = d.rg LMF_CH_STAT c ∧ (ovrMark c d).ctr LMF_CAP_OUT = d.ctr LMF_CAP_OUT := by
  have hr : Calm (Eff.of [] []) (d.count LMF_OVR) ((d.count LMF_OVR).raiseSec (d.chan c).ovrSec EV_LMF_OVR [c]) := Device.raiseSec_calm (Calm.refl _ _)
  unfold ovrMark
  extract_lets d1 x
  have hx : x = d.chan c := Device.chan_congr ((left_alone hr.lmf rfl).trans (Device.count_lmf d LMF_OVR)) c
  refine ⟨⟨some d.sec, ?_⟩, ?_, ?_⟩
  · rw [Device.chan_setChan_self, hx]
  · exact (hr.rg_of _ _ rfl (by decide) (by decide)).trans (d.rg_stat_count (by decide) hc)
  · exact (hr.ctr_of _ _ rfl (by decide) (by decide)).trans (d.ctr_count_other 0 0 (by decide) (by decide) (by decide) (by decide))
/-- A capture output: one output fewer is UNSETTLED, and the output is counted. -/
theorem capOutput_leaves (edge : Time) (d : Device) {c : Nat} (hc : c < 64) :
    (∃ f l o, (capOutput c edge d).chan c = { d.chan c with fade := f, unsetCap := (d.chan c).unsetCap - 1, lastD := l, ovrSec := o } ∧
      ((d.chan c).fade = none → f = none)) ∧
    (capOutput c edge d).rg LMF_CH_STAT c = d.rg LMF_CH_STAT c ∧
    (capOutput c edge d).ctr LMF_CAP_OUT = (d.ctr LMF_CAP_OUT + 1) % 2 ^ 32 := by
  unfold capOutput
  extract_lets x fk o dc tag d1 d2 d3
  have hq : Calm (Eff.of [.dd] [0x13, 0x17]) d3 (acqLocal c tag o.val (decide (x.unsetCap > 0)) (o.bad || o.ovr) (decide (x.lastD ≠ some dc)) d3) :=
    acqLocal_calm (Calm.refl _ _) ⟨rfl⟩ ⟨rfl⟩ ⟨rfl⟩
  have h2 : d2.chan c = { x with fade := x.fade.map (fun f => (f.1, f.2.1 + 1, f.2.2)), unsetCap := x.unsetCap - 1, lastD := some dc } :=
    (Device.chan_congr (Device.count_lmf d1 LMF_CAP_OUT) c).trans (d.chan_setChan_self c _)
  have h3 : (∃ o, d3.chan c = { d2.chan c with ovrSec := o }) ∧ d3.rg LMF_CH_STAT c = d2.rg LMF_CH_STAT c ∧ d3.ctr LMF_CAP_OUT = d2.ctr LMF_CAP_OUT := by
    unfold d3
    split
    · exact ovrMark_leaves d2 hc
    · exact ⟨⟨(d2.chan c).ovrSec, rfl⟩, rfl, rfl⟩
  obtain ⟨⟨s, hchan⟩, hstat, hctr⟩ := h3
  refine ⟨⟨x.fade.map (fun f => (f.1, f.2.1 + 1, f.2.2)), some dc, s, ?_, fun hf => ?_⟩, ?_, ?_⟩
  · rw [Device.chan_congr (left_alone hq.lmf rfl), hchan, h2]
  · rw [show x.fade = none from hf]
    rfl
  · exact ((hq.rg_of _ _ rfl (by decide) (by decide)).trans hstat).trans (d1.rg_stat_count (by decide) hc)
  · rw [hq.ctr_of _ _ rfl (by decide) (by decide), hctr]
    exact d1.ctr_count_lmf (by decide) (by decide)
/-- A phasor output of a chain that is not in a cross-fade: one output fewer is UNSETTLED. -/
theorem phOutput_leaves (edge : Time) (d : Device) {c : Nat} (hc : c < 64) (hf : (d.chan c).fade = none) :
    ((phOutput c edge d).2.chan c).start = (d.chan c).start ∧ ((phOutput c edge d).2.chan c).unsetPh = (d.chan c).unsetPh - 1 ∧
    (phOutput c edge d).2.running c = d.running c ∧ (phOutput c edge d).2.f LMF_CH_STAT.ACTIVE c = d.f LMF_CH_STAT.ACTIVE c := by
  unfold phOutput
  extract_lets x fk o act tag s d1 d2 d3 d4
  have hfk : fk = none := by
    unfold fk x
    rw [hf]
  have h4 : d4 = d3 := by
    unfold d4
    rw [hfk]
    exact if_neg (by decide)
  have h2 : d2.chan c = { x with fade := x.fade.map (fun f => (f.1, f.2.1, f.2.2 + 1)), unsetPh := x.unsetPh - 1 } :=
    (Device.chan_congr (Device.count_lmf _ LMF_PH_OUT) c).trans (d.chan_setChan_self c _)
  have h3 : (∃ o, d3.chan c = { d2.chan c with ovrSec := o }) ∧ d3.rg LMF_CH_STAT c = d2.rg LMF_CH_STAT c := by
    unfold d3
    split
    · exact ⟨(ovrMark_leaves d2 hc).1, (ovrMark_leaves d2 hc).2.1⟩
    · exact ⟨⟨(d2.chan c).ovrSec, rfl⟩, rfl⟩
  obtain ⟨⟨os, hchan⟩, hstat⟩ := h3
  have hput : (if d4.racing then ringPut c s d4 else d4).strand c = d3.strand c := by
    rw [← h4]
    split
    · exact (ringPut_calm (e := Eff.of [] [4]) (Calm.refl _ d4) ⟨rfl⟩).strand rfl rfl c
    · rfl
  have hreg (y : RF) (hy : y.reg = LMF_CH_STAT) (hlo : 8 < y.lo) (hhi : y.hi < 32) (hle : y.lo ≤ y.hi) :
      (if d4.racing then ringPut c s d4 else d4).f y c = d.f y c := by
    rw [Device.f_of_strand hput hy, Device.f_of_stat hstat hy]
    exact (Device.f_stat_count _ (by decide) hc hy).trans (Device.f_setf_field d1 LMF_CH_STAT.UNSET y _ c hy hhi hle (by decide) (.inr hlo))
  dsimp only
  rw [Device.chan_of_strand hput, hchan, h2]
  exact ⟨rfl, rfl, congrArg (fun n => decide (n = 1)) (hreg LMF_CH_STAT.RUNNING rfl (by decide) (by decide) (by decide)),
    hreg LMF_CH_STAT.ACTIVE rfl (by decide) (by decide) (by decide)⟩

end Sys2Proof.Machine
end

section
/-!
The strobes over all chains (R267), and the commands of modulator groups and filter chains.
-/
namespace Sys2Proof.Machine
-- Proofs are elaborated in turn: side by side they wait for one another, each on a thread with a stack of its own.
set_option deprecated.oldSectionVars true

theorem Device.awake_of_measuring {d : Device} (ha : d.alive = true) (hm : d.measuring = true) : d.awake = true := by
  rw [Device.awake, ha]
  refine decide_eq_true fun hh => ?_
  rw [Device.measuring, hh] at hm
  exact absurd hm (by decide)

/-! Capture outputs. -/

theorem capOutputs_leaves (edge : Time) (d : Device) : (capOutputs edge d).lmf.phase = d.lmf.phase ∧
    ∀ c, ((capOutputs edge d).chan c).level = (d.chan c).level :=
  ⟨foldl_onChain_phase (fun x _ => (Device.OnChain.refl x).capOutput edge) d,
    fun _ => foldl_onChain_level (fun x _ => (Device.OnChain.refl x).capOutput edge) d⟩
theorem capOutputs_strand_other (edge : Time) {d : Device} {c : Nat} (hc : c < 64) (hr : d.running c = false) :
    (capOutputs edge d).strand c = d.strand c :=
  foldl_onChain_other (fun x _ => (Device.OnChain.refl x).capOutput edge) d hc fun hm => by
    rw [(Device.mem_runningChans hc).1 hm] at hr
    cases hr
/-- A running chain has one capture output, and its status stays. -/
theorem capOutputs_running (edge : Time) {d : Device} {c : Nat} (hc : c < 64) (hr : d.running c = true) :
    (∃ f l o, (capOutputs edge d).chan c = { d.chan c with fade := f, unsetCap := (d.chan c).unsetCap - 1, lastD := l, ovrSec := o } ∧
      ((d.chan c).fade = none → f = none)) ∧
    (capOutputs edge d).rg LMF_CH_STAT c = d.rg LMF_CH_STAT c := by
  obtain ⟨y, hy, hfold⟩ := foldl_onChain_acts (fun x _ => (Device.OnChain.refl x).capOutput edge) d d.nodup_runningChans hc
    ((Device.mem_runningChans hc).2 hr)
  obtain ⟨hchan, hstat, -⟩ := capOutput_leaves edge y hc
  rw [Device.strand_eq_iff] at hy hfold
  rw [hy.1, ← hfold.1] at hchan
  exact ⟨hchan, (hfold.2.1.trans hstat).trans hy.2.1⟩
theorem foldl_capOutput_counts (edge : Time) {l : List Nat} (hl : ∀ c ∈ l, c < 64) (d : Device) :
    (l.foldl (fun x c => capOutput c edge x) d).ctr LMF_CAP_OUT = (d.ctr LMF_CAP_OUT + l.length) % 2 ^ 32 := by
  induction l generalizing d with
  | nil => exact (Nat.mod_eq_of_lt (BitVec.isLt _)).symm
  | cons c l ih =>
    rw [List.foldl_cons, ih (fun j hj => hl j (List.mem_cons_of_mem c hj)), (capOutput_leaves edge d (hl c (List.mem_cons_self ..))).2.2,
      List.length_cons]
    omega
theorem capOutputs_counts (edge : Time) (d : Device) : (capOutputs edge d).ctr LMF_CAP_OUT = (d.ctr LMF_CAP_OUT + d.runningChans.length) % 2 ^ 32 :=
  foldl_capOutput_counts edge (fun _ hc => List.mem_range.1 (List.mem_of_mem_filter hc)) d

/-! Phasor outputs. -/

/-- The phasor outputs of the running chains, before their journal entry. -/
def Device.phasorsMade (d : Device) (edge : Time) : Device := d.runningChans.foldl (fun x c => (phOutput c edge x).2) d

theorem foldl_phOutput_snd (edge : Time) (l : List Nat) (z : List Word × Device) :
    (l.foldl (fun (a : List Word × Device) c => let o := phOutput c edge a.2; (a.1 ++ localEntry o.1, o.2)) z).2 =
      l.foldl (fun x c => (phOutput c edge x).2) z.2 := by
  induction l generalizing z with
  | nil => rfl
  | cons c l ih => exact ih _
theorem phOutputs_journals (edge : Time) (d : Device) : Calm (Eff.of [.dd, .jnl] []) (d.phasorsMade edge) (phOutputs edge d) := by
  unfold phOutputs
  extract_lets cs r
  have hr : r.2 = d.phasorsMade edge := foldl_phOutput_snd edge cs ([], d)
  rw [hr]
  split
  · exact Device.journalW_calm (Calm.refl _ _) ⟨rfl⟩ ⟨rfl⟩
  · exact Calm.refl _ _
theorem phOutputs_leaves (edge : Time) (d : Device) : (phOutputs edge d).lmf.phase = d.lmf.phase ∧
    ∀ c, ((phOutputs edge d).chan c).level = (d.chan c).level := by
  have hl : (phOutputs edge d).lmf = (d.phasorsMade edge).lmf := left_alone (phOutputs_journals edge d).lmf rfl
  refine ⟨(congrArg Lmf.phase hl).trans ?_, fun c => (congrArg LmfChan.level (Device.chan_congr hl c)).trans ?_⟩
  · exact foldl_onChain_phase (fun x _ => (Device.OnChain.refl x).phOutput edge) d
  · exact foldl_onChain_level (fun x _ => (Device.OnChain.refl x).phOutput edge) d
theorem phOutputs_strand_other (edge : Time) {d : Device} {c : Nat} (hc : c < 64) (hr : d.running c = false) :
    (phOutputs edge d).strand c = d.strand c := by
  refine ((phOutputs_journals edge d).strand rfl rfl c).trans ?_
  exact foldl_onChain_other (fun x _ => (Device.OnChain.refl x).phOutput edge) d hc fun hm => by
    rw [(Device.mem_runningChans hc).1 hm] at hr
    cases hr
/-- A running chain that is not in a cross-fade has one phasor output, and goes on. -/
theorem phOutputs_running (edge : Time) {d : Device} {c : Nat} (hc : c < 64) (hr : d.running c = true) (hf : (d.chan c).fade = none) :
    ((phOutputs edge d).chan c).start = (d.chan c).start ∧ ((phOutputs edge d).chan c).unsetPh = (d.chan c).unsetPh - 1 ∧
    (phOutputs edge d).running c = true ∧ (phOutputs edge d).f LMF_CH_STAT.ACTIVE c = d.f LMF_CH_STAT.ACTIVE c := by
  obtain ⟨y, hy, hfold⟩ := foldl_onChain_acts (fun x _ => (Device.OnChain.refl x).phOutput edge) d d.nodup_runningChans hc
    ((Device.mem_runningChans hc).2 hr)
  have hall := ((phOutputs_journals edge d).strand rfl rfl c).trans hfold
  have hyc := Device.chan_of_strand hy
  obtain ⟨hstart, hunset, hrun, hact⟩ := phOutput_leaves edge y hc (by rw [hyc]; exact hf)
  rw [Device.chan_of_strand hall, Device.running_of_strand hall, Device.f_of_strand hall (x := LMF_CH_STAT.ACTIVE) rfl, hstart, hunset, hrun, hact, hyc]
  exact ⟨rfl, rfl, (Device.running_of_strand hy).trans hr, Device.f_of_strand hy rfl⟩

/-! CAPTURE_STROBE. -/

theorem captureStrobe_takes {half : Bool} {ws : List Nat} {d : Device} (hm : d.measuring = true) (hp : d.lmf.phase < 7) :
    captureStrobe half ws d = capOutputs (d.edgeTime half) (d.strobed ws (d.lmf.phase + 1)) := if_neg (by simp [hm, hp])
theorem captureStrobe_shows {half : Bool} {ws : List Nat} {d : Device} (hm : d.measuring = true) (hp : d.lmf.phase < 7) :
    (captureStrobe half ws d).lmf.phase = d.lmf.phase + 1 ∧
    (captureStrobe half ws d).ctr LMF_CAP_OUT = (d.ctr LMF_CAP_OUT + d.runningChans.length) % 2 ^ 32 ∧
    (∀ c, c < 64 → d.running c = true → ((captureStrobe half ws d).chan c).unsetCap = (d.chan c).unsetCap - 1) ∧
    ∀ c, c < 64 → d.fb LMF_GRP.EN (c / 8) = true → ((captureStrobe half ws d).chan c).level = (ws.getD c 0).testBit 127 := by
  rw [captureStrobe_takes hm hp]
  obtain ⟨hphase, hlevel⟩ := capOutputs_leaves (d.edgeTime half) (d.strobed ws (d.lmf.phase + 1))
  refine ⟨hphase, capOutputs_counts _ _, fun c hc hr => ?unset, fun c hc hen => ?level⟩
  case unset =>
    obtain ⟨⟨f, l, o, hchan, -⟩, -⟩ := capOutputs_running (d.edgeTime half) (d := d.strobed ws (d.lmf.phase + 1)) hc hr
    obtain ⟨_, _, _, _, _, _, hfed⟩ := (d.strobed_chan ws (d.lmf.phase + 1) hc).1
    rw [hchan, hfed]
  case level => exact (hlevel c).trans ((d.strobed_chan ws _ hc).2 hen)

/-! PHASOR_STROBE. -/

/-- The device at a phasor strobe when all that is due has taken effect. -/
def Device.applied (ws : List Nat) (edge : Time) (d : Device) : Device := (List.range 64).foldl (fun x c => chainApply c edge x) (d.strobed ws 0)

section
variable {half : Bool} {ws : List Nat} {d : Device} (hm : d.measuring = true) (hp : d.lmf.phase = 7)
include hm hp

theorem phasorStrobe_takes : phasorStrobe half ws d = phOutputs (d.edgeTime half) (capOutputs (d.edgeTime half) (d.applied ws (d.edgeTime half))) :=
  if_neg (by simp [hm, hp])
theorem phasorStrobe_shows : (phasorStrobe half ws d).lmf.phase = 0 ∧
    ∀ c, c < 64 → d.fb LMF_GRP.EN (c / 8) = true → ((phasorStrobe half ws d).chan c).level = (ws.getD c 0).testBit 127 := by
  rw [phasorStrobe_takes hm hp]
  obtain ⟨hph, hphl⟩ := phOutputs_leaves (d.edgeTime half) (capOutputs (d.edgeTime half) (d.applied ws (d.edgeTime half)))
  obtain ⟨hcap, hcapl⟩ := capOutputs_leaves (d.edgeTime half) (d.applied ws (d.edgeTime half))
  have hop : ∀ (x : Device) j, x.OnChain j (chainApply j (d.edgeTime half) x) := fun x _ => (Device.OnChain.refl x).chainApply _
  have happ : (d.applied ws (d.edgeTime half)).lmf.phase = 0 := by
    rw [Device.applied, foldl_onChain_phase hop]
    rfl
  refine ⟨(hph.trans hcap).trans happ, fun c hc hen => ?_⟩
  calc ((phOutputs (d.edgeTime half) (capOutputs (d.edgeTime half) (d.applied ws (d.edgeTime half)))).chan c).level
    _ = ((d.applied ws (d.edgeTime half)).chan c).level := (hphl c).trans (hcapl c)
    _ = ((d.strobed ws 0).chan c).level := foldl_onChain_level hop (d.strobed ws 0)
    _ = (ws.getD c 0).testBit 127 := (d.strobed_chan ws 0 hc).2 hen

end

/-- What takes effect at one chain is decided by that chain alone. -/
theorem Device.applied_acts (ws : List Nat) (edge : Time) (d : Device) {c : Nat} (hc : c < 64) :
    ∃ y, y.strand c = (d.strobed ws 0).strand c ∧ (d.applied ws edge).strand c = (chainApply c edge y).strand c :=
  foldl_onChain_acts (fun x _ => (Device.OnChain.refl x).chainApply edge) _ List.nodup_range hc (List.mem_range.2 hc)

section
variable {half : Bool} {ws : List Nat} {d : Device} {c : Nat} (hm : d.measuring = true) (hp : d.lmf.phase = 7) (hc : c < 64)
include hm hp hc

/-- A start that is due takes effect, and the strobe is its first. -/
theorem phasorStrobe_starts {code : Nat} {t : Time} (hcode : code < 16) (hs : (d.chan c).stop = false) (hst : (d.chan c).start = some (code, t))
    (hdue : lmfDue t (d.edgeTime half) = true) (hen : d.fb LMF_GRP.EN (c / 8) = true) (hram : code ≠ 15 ∨ d.fb LMF_CH_STAT.RAM_OK c = true) :
    ((phasorStrobe half ws d).chan c).start = none ∧ (phasorStrobe half ws d).running c = true ∧
    (phasorStrobe half ws d).f LMF_CH_STAT.ACTIVE c = code ∧ ((phasorStrobe half ws d).chan c).unsetPh = d.nPh c code - 1 := by
  obtain ⟨_, _, _, _, _, _, hfed⟩ := (d.strobed_chan ws 0 hc).1
  obtain ⟨y, hy, happ⟩ := d.applied_acts ws (d.edgeTime half) hc
  have hyc := (Device.chan_of_strand hy).trans hfed
  have hyram : code ≠ 15 ∨ y.fb LMF_CH_STAT.RAM_OK c = true := hram.imp_right ((Device.fb_of_strand hy rfl).trans ·)
  rw [chainApply_starts (by rw [hyc]; exact hs) (by rw [hyc]; exact hst) hdue ((Device.enabled_of_strand hy).trans hen) hcode hyram] at happ
  obtain ⟨hnone, -, hfade, hunset, hrun, hact⟩ := chainStart_shows y c hcode hyram
  rw [Device.nPh_of_strand hy] at hunset
  rw [← Device.chan_of_strand happ] at hnone hfade hunset
  rw [← Device.running_of_strand happ] at hrun
  rw [← Device.f_of_strand happ rfl] at hact
  obtain ⟨⟨f, l, o, hchan, hf⟩, hstat⟩ := capOutputs_running (d.edgeTime half) hc hrun
  have hrun' : (capOutputs (d.edgeTime half) (d.applied ws (d.edgeTime half))).running c = true := (Device.running_of_stat hstat).trans hrun
  obtain ⟨h1, h2, h3, h4⟩ := phOutputs_running (d.edgeTime half) hc hrun' (by rw [hchan]; exact hf hfade)
  rw [hchan] at h1 h2
  dsimp only at h1 h2
  rw [phasorStrobe_takes hm hp, h1, h2, h4, Device.f_of_stat hstat (x := LMF_CH_STAT.ACTIVE) rfl, hnone, hunset, hact]
  exact ⟨rfl, h3, rfl, rfl⟩
/-- A stop takes effect before the outputs. -/
theorem phasorStrobe_stops (hs : (d.chan c).stop = true) (hst : (d.chan c).start = none) : (phasorStrobe half ws d).running c = false ∧
    ((phasorStrobe half ws d).chan c).stop = false ∧ (phasorStrobe half ws d).fb LMF_CH_STAT.FADING c = false := by
  obtain ⟨_, _, _, _, _, _, hfed⟩ := (d.strobed_chan ws 0 hc).1
  obtain ⟨y, hy, happ⟩ := d.applied_acts ws (d.edgeTime half) hc
  have hyc := (Device.chan_of_strand hy).trans hfed
  rw [chainApply_stops (by rw [hyc]; exact hs) (by rw [hyc]; exact hst)] at happ
  obtain ⟨hrun, hstop, hfade⟩ := chainStop_shows y c
  have hoff : (d.applied ws (d.edgeTime half)).running c = false := (Device.running_of_strand happ).trans hrun
  have hcap := capOutputs_strand_other (d.edgeTime half) hc hoff
  have hall := (phOutputs_strand_other (d.edgeTime half) hc ((Device.running_of_strand hcap).trans hoff)).trans (hcap.trans happ)
  rw [phasorStrobe_takes hm hp, Device.running_of_strand hall, Device.chan_of_strand hall, Device.fb_of_strand hall (x := LMF_CH_STAT.FADING) rfl]
  exact ⟨hrun, hstop, hfade⟩

end

/-- Settles O43: each command is one operation of the filter unit, whose own lemma says what it leaves. -/
theorem filterCommandsAct : Obligations.FilterCommandsAct := by
  intro s ha
  refine ⟨?groupWrite, ?groupRefused, ?fault, ?faultClear, ?capture, ?phasor, ?starts, ?stops, ?runStart, ?reserved, ?runStop, ?switch, ?queued⟩
  case groupWrite =>
    intro g v hg h
    refine effect_alive rfl ha ?_
    rw [placed, if_pos (by simp [hg])]
    exact lmfGrpWrite_shows h
  case groupRefused =>
    intro g v i hg hi hr h
    refine effect_alive rfl ha ?_
    rw [placed, if_pos (by simp [hg]), lmfGrpWrite_refused hi hr h]
    refine ⟨Device.f_setf_self _ LMF_GSTAT.CFG_ERR 1 0 (by decide) (by decide), Device.rg_wr_other _ _ _ _ _ _ ?_, rfl⟩
    simp [RegDef.key, LMF_GRP, LMF_GSTAT, LMF_GSTAT.CFG_ERR]
    omega
  case fault => exact fun c hc hs hf => effect_alive rfl ha (channelFault_shows hc hs hf)
  case faultClear =>
    intro c hc hs hf
    refine effect_alive rfl ha ?_
    rw [placed, if_pos (by simp [hc])]
    exact channelFaultClear_shows hc hs hf
  case capture => exact fun half ws hm hp => effect_awake rfl (Device.awake_of_measuring ha hm) (captureStrobe_shows hm hp)
  case phasor => exact fun half ws hm hp => effect_awake rfl (Device.awake_of_measuring ha hm) (phasorStrobe_shows hm hp)
  case starts =>
    intro half ws c code t hm hp hc hcode hs hst hdue hen hram
    exact effect_awake rfl (Device.awake_of_measuring ha hm)
      ⟨(phasorStrobe_shows hm hp).1, phasorStrobe_starts hm hp hc hcode hs hst hdue hen hram⟩
  case stops =>
    intro half ws c hm hp hc hs hst
    exact effect_awake rfl (Device.awake_of_measuring ha hm) ⟨(phasorStrobe_shows hm hp).1, phasorStrobe_stops hm hp hc hs hst⟩
  case runStart =>
    intro c v hc hoff hr
    refine ⟨fun hen hram => ?asks, fun hen => ?groupOff, fun hen h15 hram => ?noRam⟩
    case asks =>
      refine effect_alive rfl ha ?_
      rw [placed, if_pos (by simp [hc]), lmfCtlWrite_start hoff, lmfRunStart_asks hr hen hram]
      exact ⟨Device.chan_setChan_self _ _ _, s.dev.wr_run_shows.2, s.dev.wr_run_shows.1, fun j hj => Device.chan_setChan_other _ _ hj⟩
    case groupOff =>
      refine effect_alive rfl ha ?_
      rw [placed, if_pos (by simp [hc]), lmfCtlWrite_start hoff, lmfRunStart_off hr hen]
      exact lmfErr_shows s.dev hc (by decide)
    case noRam =>
      refine effect_alive rfl ha ?_
      rw [placed, if_pos (by simp [hc]), lmfCtlWrite_start hoff, lmfRunStart_noRam hr hen h15 hram]
      exact lmfErr_shows s.dev hc (by decide)
  case reserved =>
    intro c v hc h1 h2 i hi
    have hx : exec i s = onAlive (placed (c < 64) (lmfCtlWrite c (v ||| 0x80000000#32))) s := by
      rcases hi with rfl | rfl
      · rfl
      · rfl
    refine effect_alive hx ha ?_
    rw [placed, if_pos (by simp [hc]), lmfCtlWrite_reserved h1 h2]
    exact lmfErr_shows s.dev hc (by decide)
  case runStop =>
    intro c v hc
    refine effect_alive rfl ha ?_
    rw [placed, if_pos (by simp [hc]), lmfCtlWrite_stop]
    exact lmfRunStop_shows
  case switch =>
    intro c v hc hrun hs hr hf
    refine ⟨fun hne hram => ?asks, fun he => ?same, fun hne h15 hram => ?noRam⟩
    case asks =>
      refine effect_alive rfl ha ?_
      rw [placed, if_pos (by simp [hc]), lmfCtlWrite_switch hrun hs, lmfSwitch_asks hr hf hne hram]
      exact ⟨Device.chan_setChan_self _ _ _, s.dev.wr_run_shows.1⟩
    case same =>
      refine effect_alive rfl ha ?_
      rw [placed, if_pos (by simp [hc]), lmfCtlWrite_switch hrun hs, lmfSwitch_same hr hf he]
      exact ⟨rfl, s.dev.wr_run_shows.1⟩
    case noRam =>
      refine effect_alive rfl ha ?_
      rw [placed, if_pos (by simp [hc]), lmfCtlWrite_switch hrun hs, lmfSwitch_noRam hr hf hne h15 hram]
      exact lmfErr_shows s.dev hc (by decide)
  case queued =>
    intro c v hc hrun hs hr hf
    refine effect_alive rfl ha ?_
    rw [placed, if_pos (by simp [hc]), lmfCtlWrite_switch hrun hs]
    exact lmfSwitch_queued hc hr hf

end Sys2Proof.Machine
end

section
/-!
Capture groups (R283 to R287, R290): arming, triggers, the end of a record and the release of its slot.
-/
namespace Sys2Proof.Machine
-- Proofs are elaborated in turn: side by side they wait for one another, each on a thread with a stack of its own.
set_option deprecated.oldSectionVars true

/-! A group and its registers. -/

theorem Device.capGrp_congr {a d : Device} (h : d.acq.grps = a.acq.grps) (g : Nat) : d.capGrp g = a.capGrp g := by
  unfold Device.capGrp
  rw [h]
@[simp] theorem Device.capGrp_setGrp_self (d : Device) (g : Nat) (x : CapGrp) : (d.setGrp g x).capGrp g = x := mgetD_mset_self _ _ _ _
theorem Device.count_acq (d : Device) (k : Ctr) : (d.count k).acq = d.acq := by simp

/-- A counter of the unit, which stands above the groups' registers and the half bits. -/
abbrev Ctr.ofAcq (k : Ctr) : Prop := ACQ_RECORDS.base ≤ k.base ∧ k.half = ACQ_HALF.base ∧ k.stride = 0 ∧ k.base / 65536 = 0x13

section
variable {g : Nat} (hg : g < 8)
include hg

theorem ACQ_GRP_keys_lt : ACQ_GRP_CTL.key g < ACQ_RECORDS.base ∧ ACQ_GRP_STAT.key g < ACQ_RECORDS.base ∧ ACQ_HALF.base < ACQ_GRP_CTL.key g := by
  simp [RegDef.key, ACQ_GRP_CTL, ACQ_GRP_STAT, ACQ_RECORDS, ACQ_HALF]
  omega
/-- Showing a group's state leaves AUTO and the counters. -/
theorem Device.setGrp_leaves (d : Device) (x : CapGrp) : (d.setGrp g x).fb ACQ_GRP_CTL.AUTO g = d.fb ACQ_GRP_CTL.AUTO g ∧
    ∀ k : Ctr, k.ofAcq → (d.setGrp g x).ctr k = d.ctr k := by
  have hne : ACQ_GRP_CTL.key g ≠ ACQ_GRP_STAT.key g := by simp [RegDef.key, ACQ_GRP_CTL, ACQ_GRP_STAT]
  obtain ⟨hctl, hstat, -⟩ := ACQ_GRP_keys_lt hg
  unfold Device.setGrp
  refine ⟨?auto, fun k hk => ?ctr⟩
  case auto =>
    rw [Device.fb, Device.f_setf_disjoint _ (x := ACQ_GRP_CTL.ARM) (y := ACQ_GRP_CTL.AUTO) _ _ _ rfl (by decide) (by decide) (by decide) (by decide),
      Device.f_setf_other _ ACQ_GRP_STAT.DONE ACQ_GRP_CTL.AUTO _ _ _ hne, Device.f_setf_other _ ACQ_GRP_STAT.CUR_SLOT ACQ_GRP_CTL.AUTO _ _ _ hne,
      Device.f_setf_other _ ACQ_GRP_STAT.STATE ACQ_GRP_CTL.AUTO _ _ _ hne]
    rfl
  case ctr =>
    obtain ⟨hb, -, hs, -⟩ := hk
    have hc : k.base + 0 * k.stride ≠ ACQ_GRP_CTL.key g := by omega
    have ht : k.base + 0 * k.stride ≠ ACQ_GRP_STAT.key g := by omega
    rw [Device.ctr_setf _ k 0 ACQ_GRP_CTL.ARM _ _ hc, Device.ctr_setf _ k 0 ACQ_GRP_STAT.DONE _ _ ht, Device.ctr_setf _ k 0 ACQ_GRP_STAT.CUR_SLOT _ _ ht,
      Device.ctr_setf _ k 0 ACQ_GRP_STAT.STATE _ _ ht]
    rfl

theorem Device.auto_count (d : Device) {k : Ctr} (hk : k.ofAcq) : (d.count k).fb ACQ_GRP_CTL.AUTO g = d.fb ACQ_GRP_CTL.AUTO g := by
  obtain ⟨hb, hh, hs, -⟩ := hk
  obtain ⟨hlt, -, hgt⟩ := ACQ_GRP_keys_lt hg
  exact congrArg (bit · 28) (d.rg_count k 0 ACQ_GRP_CTL g (by decide) (by decide) (by omega) (by omega))

end

theorem Device.ctr_count_acq (d : Device) {k : Ctr} (hk : k.ofAcq) : (d.count k).ctr k = (d.ctr k + 1) % 2 ^ 32 := by
  obtain ⟨hb, hh, hs, hr⟩ := hk
  have hlt : ACQ_HALF.base < ACQ_RECORDS.base := by decide
  exact d.ctr_count_self k 0 (by omega) (by omega) (by omega)

/-- An ignored write shows its code. -/
theorem acqErr_shows (d : Device) {code : Nat} (h : code < 8) : (acqErr code d).acq = d.acq ∧ (acqErr code d).f ACQ_STAT.ERR = 1 ∧
    (acqErr code d).f ACQ_STAT.ECODE = code :=
  ⟨rfl, d.err_reads ACQ_STAT.ERR ACQ_STAT.ECODE code 0 rfl rfl (by decide) (by decide) (by decide) (by decide) h⟩

/-! ACQ_ARM: one equation per outcome of R283. -/

section
variable {g : Nat} {d : Device}

/-- The longest record of a group, in ms. -/
abbrev Device.recordMs (d : Device) (g : Nat) : Nat := (gePre (d.gE g) + geMaxPost (d.gE g)) / Time.msU
/-- The group that has passed the checks, before it takes a slot. -/
def Device.armChecked (d : Device) (g : Nat) : Device :=
  (d.setf ACQ_GRP_CAP.CAP_MS (d.grpCap g) g).setGrp g { d.capGrp g with since := d.tk.now }

theorem Device.armChecked_capGrp : (d.armChecked g).capGrp g = { d.capGrp g with since := d.tk.now } := Device.capGrp_setGrp_self _ _ _
/-- The checks leave the free slots. -/
theorem Device.armChecked_grpFree : (d.armChecked g).grpFree g = d.grpFree g := by
  have hgrp := Device.armChecked_capGrp (g := g) (d := d)
  unfold Device.grpFree
  rw [hgrp]
  rfl

theorem acqArm_busy (h : (d.capGrp g).st ≠ .idle) : acqArm g d = d := if_pos (.inl h)

section
variable (hg : g < 8) (hst : (d.capGrp g).st = .idle)
include hg hst

theorem acqArm_noRegion (hv : d.fb ACQ_DDR.VALID = false) : acqArm g d = acqErr 2 d := by
  unfold acqArm
  rw [if_neg (by simp [hst, hg]), if_pos (by simp [hv])]

section
variable (hv : d.fb ACQ_DDR.VALID = true)
include hv

theorem acqArm_off (hen : geEn (d.gE g) = false) : acqArm g d = acqErr 3 d := by
  unfold acqArm
  rw [if_neg (by simp [hst, hg]), if_neg (by simp [hv]), if_pos (by simp [hen])]

section
variable (hen : geEn (d.gE g) = true)
include hen

theorem acqArm_tooLong (hcap : d.grpCap g < d.recordMs g) : acqArm g d = acqErr 5 d := by
  unfold acqArm
  rw [if_neg (by simp [hst, hg]), if_neg (by simp [hv]), if_neg (by simp [hen]), if_pos hcap]
theorem acqArm_badArea (hcap : d.recordMs g ≤ d.grpCap g) (hbad : d.areaBad g = true) : acqArm g d = acqErr 6 d := by
  unfold acqArm
  rw [if_neg (by simp [hst, hg]), if_neg (by simp [hv]), if_neg (by simp [hen]), if_neg (Nat.not_lt.2 hcap), if_pos hbad]
theorem acqArm_checked (hcap : d.recordMs g ≤ d.grpCap g) (hbad : d.areaBad g = false) : acqArm g d =
    match ((d.armChecked g).grpFree g).head? with
    | some s => capArm g s (d.armChecked g)
    | none => (d.armChecked g).setGrp g { (d.armChecked g).capGrp g with st := .full, blocks := [], cur := [] } := by
  unfold acqArm
  rw [if_neg (by simp [hst, hg]), if_neg (by simp [hv]), if_neg (by simp [hen]), if_neg (Nat.not_lt.2 hcap), if_neg (by simp [hbad])]
  rfl
theorem acqArm_takes (hcap : d.recordMs g ≤ d.grpCap g) (hbad : d.areaBad g = false) {t : Nat} {rest : List Nat} (hf : d.grpFree g = t :: rest) :
    acqArm g d = capArm g t (d.armChecked g) := by
  rw [acqArm_checked hg hst hv hen hcap hbad, Device.armChecked_grpFree, hf]
  rfl
theorem acqArm_full (hcap : d.recordMs g ≤ d.grpCap g) (hbad : d.areaBad g = false) (hf : d.grpFree g = []) :
    acqArm g d = (d.armChecked g).setGrp g { (d.armChecked g).capGrp g with st := .full, blocks := [], cur := [] } := by
  rw [acqArm_checked hg hst hv hen hcap hbad, Device.armChecked_grpFree, hf]
  rfl

end
end
end
end

/-- A group armed into a slot starts with an empty ring and keeps its DONE slots. -/
theorem capArm_capGrp (g slot : Nat) (d : Device) : (capArm g slot d).capGrp g =
    { d.capGrp g with st := .armed, slot := slot, wpos := 0, blocks := [], cur := [], short := false, cont := false, maskStop := false, retrig := 0 } :=
  Device.capGrp_setGrp_self _ _ _

/-! The end of a record. -/

/-- The groups, the group's AUTO and the count of records are left. -/
structure Device.RecKept (g : Nat) (a d : Device) : Prop where
  grps : d.acq.grps = a.acq.grps
  auto : d.fb ACQ_GRP_CTL.AUTO g = a.fb ACQ_GRP_CTL.AUTO g
  records : d.ctr ACQ_RECORDS = a.ctr ACQ_RECORDS

namespace Device.RecKept
variable {g : Nat} {a b d : Device}

theorem refl (d : Device) : RecKept g d d := ⟨rfl, rfl, rfl⟩
theorem trans (h : RecKept g a b) (k : RecKept g b d) : RecKept g a d := ⟨k.grps.trans h.grps, k.auto.trans h.auto, k.records.trans h.records⟩
theorem calm {l : List Touch} {u : List Nat} (h : RecKept g a b) (hc : Calm (Eff.of l u) b d) (hu : u.contains 0x13 = false := by rfl) : RecKept g a d :=
  h.trans ⟨congrArg Acq.grps (left_alone hc.acq hu), congrArg (fun n => decide (n = 1)) (hc.f_of ACQ_GRP_CTL.AUTO g hu (by decide) (by decide)),
    hc.ctr_of ACQ_RECORDS 0 hu (by decide) (by decide)⟩
theorem setAcq (h : RecKept g a d) {x : Acq} (hx : x.grps = d.acq.grps) : RecKept g a (d.setAcq x) := h.trans ⟨hx, rfl, rfl⟩
theorem count (h : RecKept g a d) (hg : g < 8) {k : Ctr} (hk : k.ofAcq) (hne : k.base ≠ ACQ_RECORDS.base) : RecKept g a (d.count k) := by
  refine h.trans ⟨by rw [Device.count_acq], Device.auto_count hg d hk, ?_⟩
  obtain ⟨-, hh, hs, -⟩ := hk
  refine d.ctr_count_other 0 0 (by decide) (by decide) ?_ ?_
  · rw [hs]
    exact hne.symm
  · rw [hs, hh]
    decide
theorem hwm (h : RecKept g a d) (hg : g < 8) (v : Nat) : RecKept g a (d.hwm ACQ_BW.HWM v) := by
  unfold Device.hwm
  split
  · refine h.trans ⟨rfl, ?_, d.ctr_setf ACQ_RECORDS 0 ACQ_BW.HWM v 0 (by decide)⟩
    refine congrArg (fun n => decide (n = 1)) (d.f_setf_other ACQ_BW.HWM ACQ_GRP_CTL.AUTO v 0 g ?_)
    simp [RegDef.key, ACQ_BW.HWM, ACQ_GRP_CTL.AUTO, ACQ_BW, ACQ_GRP_CTL]
    omega
  · exact h
theorem acqWrite (h : RecKept g a d) (hg : g < 8) (n : Nat) (l : List Byte) : RecKept g a (acqWrite n l d) := by
  unfold Machine.acqWrite
  extract_lets d1 x d2
  have h1 : RecKept g a d1 := h.trans ⟨rfl, rfl, rfl⟩
  have h2 : RecKept g a d2 := h1.setAcq rfl
  exact h2.hwm hg _

end Device.RecKept

/-- A record that completes adds its slot to DONE and is counted. -/
theorem recFinish_records {g : Nat} (hg : g < 8) (trunc abort : Bool) (d : Device) :
    (recFinish g trunc abort d).capGrp g = { d.capGrp g with done := (d.capGrp g).slot :: (d.capGrp g).done } ∧
    (recFinish g trunc abort d).fb ACQ_GRP_CTL.AUTO g = d.fb ACQ_GRP_CTL.AUTO g ∧
    (recFinish g trunc abort d).ctr ACQ_RECORDS = (d.ctr ACQ_RECORDS + 1) % 2 ^ 32 := by
  unfold recFinish
  extract_lets x hdr d1 d2 d3 d4 y d5
  have h1 : Device.RecKept g d d1 := (Device.RecKept.refl d).acqWrite hg _ _
  have h2 : d2.capGrp g = { x with done := x.slot :: x.done } ∧ d2.fb ACQ_GRP_CTL.AUTO g = d1.fb ACQ_GRP_CTL.AUTO g ∧
      d2.ctr ACQ_RECORDS = (d1.ctr ACQ_RECORDS + 1) % 2 ^ 32 := by
    obtain ⟨hauto, hctr⟩ := Device.setGrp_leaves hg d1 { x with done := x.slot :: x.done }
    refine ⟨(Device.capGrp_congr (congrArg Acq.grps (Device.count_acq _ _)) g).trans (Device.capGrp_setGrp_self _ _ _),
      (Device.auto_count hg _ (by decide)).trans hauto, ?_⟩
    rw [Device.ctr_count_acq _ (by decide), hctr _ (by decide)]
  have h3 : Device.RecKept g d2 d3 := by
    unfold d3
    split
    · exact (Device.RecKept.refl d2).count hg (by decide) (by decide)
    · exact .refl d2
  have h5 : Device.RecKept g d2 d5 := (h3.calm (Device.raise_calm (e := Eff.of [] []) (Calm.refl _ d3))).setAcq rfl
  have hend (r : Device) (h : Device.RecKept g d2 r) : r.capGrp g = { x with done := x.slot :: x.done } ∧
      r.fb ACQ_GRP_CTL.AUTO g = d.fb ACQ_GRP_CTL.AUTO g ∧ r.ctr ACQ_RECORDS = (d.ctr ACQ_RECORDS + 1) % 2 ^ 32 := by
    obtain ⟨hgrp, hauto, hctr⟩ := h2
    rw [h1.records] at hctr
    exact ⟨(Device.capGrp_congr h.grps g).trans hgrp, (h.auto.trans hauto).trans h1.auto, h.records.trans hctr⟩
  split
  case h_1 r hr => exact hend r (h5.calm (Device.sfPush_calm (e := Eff.of [] [0x17]) (Calm.refl _ d5) hr ⟨rfl⟩))
  case h_2 => exact hend _ (h5.count hg (by decide) (by decide))

theorem capFlushAll_none {g : Nat} {d : Device} (h : (d.capGrp g).cur = []) : capFlushAll g d = d := by
  unfold capFlushAll
  rw [h]
  rfl

/-- After a record the group stops, or with AUTO waits for the next trigger or for a free slot (R284). -/
theorem capNext_shows {g : Nat} (hg : g < 8) (d : Device) : ((capNext g d).capGrp g).done = (d.capGrp g).done ∧
    (capNext g d).ctr ACQ_RECORDS = d.ctr ACQ_RECORDS ∧ (d.fb ACQ_GRP_CTL.AUTO g = false → ((capNext g d).capGrp g).st = .idle) ∧
    (d.fb ACQ_GRP_CTL.AUTO g = true → ((capNext g d).capGrp g).st = .armed ∨ ((capNext g d).capGrp g).st = .full) := by
  have hset (x : CapGrp) (hx : x.done = (d.capGrp g).done) : ((d.setGrp g x).capGrp g).done = (d.capGrp g).done ∧
      (d.setGrp g x).ctr ACQ_RECORDS = d.ctr ACQ_RECORDS ∧ ((d.setGrp g x).capGrp g).st = x.st := by
    rw [Device.capGrp_setGrp_self]
    exact ⟨hx, (Device.setGrp_leaves hg d x).2 _ (by decide), rfl⟩
  unfold capNext
  split
  case isTrue ht =>
    split
    case h_1 s _ =>
      obtain ⟨hdone, hctr, hst⟩ := hset { d.capGrp g with
        st := .armed, slot := s, wpos := 0, blocks := [], cur := [], short := false, cont := false, maskStop := false, retrig := 0 } rfl
      exact ⟨hdone, hctr, fun hf => absurd ht (by simp [hf]), fun _ => .inl hst⟩
    case h_2 =>
      obtain ⟨hdone, hctr, hst⟩ := hset { d.capGrp g with st := .full, blocks := [], cur := [] } rfl
      exact ⟨hdone, hctr, fun hf => absurd ht (by simp [hf]), fun _ => .inr hst⟩
  case isFalse hf =>
    obtain ⟨hdone, hctr, hst⟩ := hset { d.capGrp g with st := .idle, blocks := [], cur := [] } rfl
    exact ⟨hdone, hctr, fun _ => hst, fun ht => absurd ht hf⟩

/-- CAPTURE_RECORD_END with no block open. -/
theorem captureRecordEnd_ends {g : Nat} {d : Device} (hm : d.measuring = true) (hr : (d.capGrp g).st.recording = true)
    (ht : (d.capGrp g).stop ≤ d.tk.now) (hc : (d.capGrp g).cur = []) : captureRecordEnd g d = capNext g (recFinish g false false d) := by
  unfold captureRecordEnd
  rw [if_pos (by simp [hm, hr, ht]), capFlushAll_none hc]
  exact if_pos hr

/-! ACQ_DISARM. -/

theorem acqDisarm_idle {g : Nat} {d : Device} (h : (d.capGrp g).st = .idle) : acqDisarm g d = d := if_pos h
theorem acqDisarm_armed {g : Nat} {d : Device} (h : (d.capGrp g).st = .armed) :
    acqDisarm g d = d.setGrp g { d.capGrp g with st := .idle, blocks := [], cur := [] } := by
  unfold acqDisarm
  rw [if_neg (by simp [h]), if_neg (by rw [h]; decide)]
theorem acqDisarm_recording {g : Nat} {d : Device} (h : (d.capGrp g).st.recording = true) (hc : (d.capGrp g).cur = []) : acqDisarm g d =
    (recFinish g false true d).setGrp g { (recFinish g false true d).capGrp g with st := .idle, blocks := [], cur := [] } := by
  have hne : (d.capGrp g).st ≠ .idle := fun hi => by
    rw [hi] at h
    exact absurd h (by decide)
  unfold acqDisarm
  rw [if_neg hne, if_pos h, capFlushAll_none hc]
  exact congrArg (fun x : Device => x.setGrp g { x.capGrp g with st := .idle, blocks := [], cur := [] }) (if_pos h)

/-! Triggers (R284, R285, R287). -/

section
variable {g cause : Nat} {t : Time} {d : Device}

theorem capTrigger_armed (h : (d.capGrp g).st = .armed) :
    capTrigger g t cause d = (capStart g t (t + gePost (d.gE g)) .triggered cause false d).count ACQ_TRIGGERS := by
  unfold capTrigger
  simp only [h]
theorem capTrigger_triggered (h : (d.capGrp g).st = .triggered) : capTrigger g t cause d = (d.setGrp g { d.capGrp g with
    stop := min (max (d.capGrp g).stop (t + gePost (d.gE g))) ((d.capGrp g).trigAt + geMaxPost (d.gE g)), retrig := (d.capGrp g).retrig + 1 }).count
      ACQ_RETRIG := by
  unfold capTrigger
  simp only [h]
theorem capTrigger_full (h : (d.capGrp g).st = .full) : capTrigger g t cause d =
    let d1 := (d.count ACQ_TRIG_LOST).raiseSec (d.capGrp g).lostSec EV_ACQ_TRIG_LOST [g, cause]
    d1.setGrp g { d1.capGrp g with lostSec := some d.sec } := by
  unfold capTrigger
  simp only [h]

theorem Device.capGrp_count (d : Device) (k : Ctr) (g : Nat) : (d.count k).capGrp g = d.capGrp g :=
  Device.capGrp_congr (congrArg Acq.grps (d.count_acq k)) g

/-- An armed group starts its record. -/
theorem capTrigger_starts (hg : g < 8) (h : (d.capGrp g).st = .armed) : ((capTrigger g t cause d).capGrp g).st = .triggered ∧
    ((capTrigger g t cause d).capGrp g).trigAt = t ∧ ((capTrigger g t cause d).capGrp g).stop = t + gePost (d.gE g) ∧
    ((capTrigger g t cause d).capGrp g).cause = cause ∧ (capTrigger g t cause d).ctr ACQ_TRIGGERS = (d.ctr ACQ_TRIGGERS + 1) % 2 ^ 32 := by
  rw [capTrigger_armed h, Device.capGrp_count, Device.ctr_count_acq _ (by decide), capStart, Device.capGrp_setGrp_self,
    (Device.setGrp_leaves hg d _).2 _ (by decide)]
  exact ⟨rfl, rfl, rfl, rfl, rfl⟩
/-- A triggered group's record goes on, up to its longest. -/
theorem capTrigger_again (hg : g < 8) (h : (d.capGrp g).st = .triggered) : ((capTrigger g t cause d).capGrp g).st = .triggered ∧
    ((capTrigger g t cause d).capGrp g).retrig = (d.capGrp g).retrig + 1 ∧
    ((capTrigger g t cause d).capGrp g).stop =
      min (max (d.capGrp g).stop (t + gePost (d.gE g))) ((d.capGrp g).trigAt + geMaxPost (d.gE g)) ∧
    (capTrigger g t cause d).ctr ACQ_RETRIG = (d.ctr ACQ_RETRIG + 1) % 2 ^ 32 := by
  rw [capTrigger_triggered h, Device.capGrp_count, Device.ctr_count_acq _ (by decide), Device.capGrp_setGrp_self,
    (Device.setGrp_leaves hg d _).2 _ (by decide)]
  exact ⟨h, rfl, rfl, rfl⟩
/-- A group that waits for a free slot loses the trigger. -/
theorem capTrigger_lost (hg : g < 8) (h : (d.capGrp g).st = .full) : ((capTrigger g t cause d).capGrp g).st = .full ∧
    (capTrigger g t cause d).ctr ACQ_TRIG_LOST = (d.ctr ACQ_TRIG_LOST + 1) % 2 ^ 32 := by
  have hr : Calm (Eff.of [] []) (d.count ACQ_TRIG_LOST) ((d.count ACQ_TRIG_LOST).raiseSec (d.capGrp g).lostSec EV_ACQ_TRIG_LOST [g, cause]) :=
    Device.raiseSec_calm (Calm.refl _ _)
  rw [capTrigger_full h]
  extract_lets d1 x
  refine ⟨?_, ?_⟩
  · rw [Device.capGrp_setGrp_self]
    exact congrArg CapGrp.st ((Device.capGrp_congr (congrArg Acq.grps (left_alone hr.acq rfl)) g).trans (d.capGrp_count _ g)) |>.trans h
  · rw [(Device.setGrp_leaves hg d1 _).2 _ (by decide), hr.ctr_of ACQ_TRIG_LOST 0 rfl (by decide) (by decide), Device.ctr_count_acq _ (by decide)]

end

/-! TRIGGER_EVAL_INSTANT. -/

/-- The device with an instant of an evaluation grid taken. -/
def Device.instantTaken (d : Device) (nom : Bool) (n : Nat) : Device := d.setAcq { d.acq with evalAt := mset d.acq.evalAt (b2n nom) n }
/-- One trigger at an instant. -/
def Device.instantEval (nom : Bool) (at_ : Time) (d : Device) (e : Nat × List Word) : Device :=
  if trEn e.2 && trKind e.2 != 0 && trKind e.2 != 3 && (tr60 e.2 == nom) then trigEval e.1 at_ (d.cycleTrue e.2 at_) d else d

theorem triggerEvalInstant_takes {nom : Bool} {n : Nat} {d : Device} (hm : d.measuring = true)
    (hn : n = d.tk.now * (8 * (if nom then 60 else 50)) / Time.secU) (hnew : mget d.acq.evalAt (b2n nom) ≠ some n) :
    triggerEvalInstant nom d =
      (d.ents tTrigger).foldl (Device.instantEval nom (n * Time.secU / (8 * (if nom then 60 else 50)))) (d.instantTaken nom n) := by
  subst hn
  refine if_neg ?_
  rw [hm, decide_eq_false hnew]
  decide

/-- A trigger that holds and meets its persistence triggers the one group it is for. -/
theorem trigEval_fires {t g : Nat} {at_ : Time} {d : Device} (hgs : d.grpsOf (trMask (d.ent tTrigger t)) (trChans (d.ent tTrigger t)) = [g])
    (hp : mgetD d.acq.trig t 0 + 1 = trPersist (d.ent tTrigger t)) :
    ∃ k, trigEval t at_ true d = capTrigger g at_ t (d.setAcq { d.acq with trig := mset d.acq.trig t k }) := by
  unfold trigEval
  simp only [hgs, persist, hp, List.isEmpty_cons, Bool.not_false, Bool.and_self, if_true, decide_true, List.foldl_cons, List.foldl_nil]
  exact ⟨_, rfl⟩

/-- The one trigger of its kind and grid is evaluated. -/
theorem Device.instantEval_meets {nom : Bool} {at_ : Time} {t : Nat} {e : List Word} {d : Device} (hen : trEn e = true) (h0 : trKind e ≠ 0)
    (h3 : trKind e ≠ 3) (hgrid : tr60 e = nom) : d.instantEval nom at_ (t, e) = trigEval t at_ (d.cycleTrue e at_) d := if_pos (by simp [hen, h0, h3, hgrid])
theorem Device.instantEval_off {nom : Bool} {at_ : Time} {e : Nat × List Word} {d : Device} (h : trEn e.2 = false) : d.instantEval nom at_ e = d :=
  if_neg (by simp [h])
/-- The instant taken changes nothing that a trigger's condition or its groups are made of. -/
theorem Device.cycleTrue_instantTaken (d : Device) (nom : Bool) (n : Nat) (e : List Word) (at_ : Time) :
    (d.instantTaken nom n).cycleTrue e at_ = d.cycleTrue e at_ := rfl

/-! ACQ_SLOT_RELEASE. -/

section
variable {v : Word} {d : Device} (hv : bit v 31 = true)
include hv

theorem acqSlotRelease_refused (h : (d.capGrp (bx v 10 8)).done.contains (bx v 3 0) = false) : acqSlotRelease v d = acqErr 4 d := by
  unfold acqSlotRelease
  rw [if_neg (by simp [hv]), if_neg (ne_true_of_eq_false h)]
theorem acqSlotRelease_frees (h : (d.capGrp (bx v 10 8)).done.contains (bx v 3 0) = true) :
    ((acqSlotRelease v d).capGrp (bx v 10 8)).done = (d.capGrp (bx v 10 8)).done.filter (· ≠ bx v 3 0) ∧
    ((d.capGrp (bx v 10 8)).st = .full →
      ((acqSlotRelease v d).capGrp (bx v 10 8)).st = .armed ∧ ((acqSlotRelease v d).capGrp (bx v 10 8)).slot = bx v 3 0) ∧
    ((d.capGrp (bx v 10 8)).st ≠ .full → ((acqSlotRelease v d).capGrp (bx v 10 8)).st = (d.capGrp (bx v 10 8)).st) := by
  unfold acqSlotRelease
  extract_lets g s x d1
  have h1 : d1.capGrp g = { x with done := x.done.filter (· ≠ s) } := Device.capGrp_setGrp_self _ _ _
  rw [if_neg (by simp [hv]), if_pos h]
  split
  case isTrue hf =>
    rw [capArm_capGrp, h1]
    exact ⟨rfl, fun _ => ⟨rfl, rfl⟩, fun hne => absurd hf hne⟩
  case isFalse hf =>
    rw [h1]
    exact ⟨rfl, fun hfull => absurd hfull hf, fun _ => rfl⟩

end

/-- Settles O44: each command is one operation of the capture unit, whose own lemma says what it leaves. -/
theorem captureCommandsAct : Obligations.CaptureCommandsAct := by
  intro s g ha hg
  refine ⟨?arms, ?noRegion, ?off, ?checks, ?busy, ?disarmIdle, ?disarmArmed, ?disarmRecording, ?forceArmed, ?forceTriggered, ?forceFull, ?recordEnd,
    ?release, ?releaseRefused, ?fires, ?quiet, ?noGo⟩
  case arms =>
    intro t rest hst hv hen hcap hbad hf
    refine effect_alive rfl ha ?_
    rw [acqArm_takes hg hst hv hen hcap hbad hf, capArm_capGrp, Device.armChecked_capGrp]
    exact ⟨rfl, rfl, rfl, rfl⟩
  case noRegion =>
    intro hst hv
    refine effect_alive rfl ha ?_
    rw [acqArm_noRegion hg hst hv]
    exact acqErr_shows s.dev (by decide)
  case off =>
    intro hst hv hen
    refine effect_alive rfl ha ?_
    rw [acqArm_off hg hst hv hen]
    exact acqErr_shows s.dev (by decide)
  case checks =>
    intro hst hv hen
    refine ⟨fun hcap => ?tooLong, fun hcap hbad => ?badArea, fun hcap hbad hf => ?full⟩
    case tooLong =>
      refine effect_alive rfl ha ?_
      rw [acqArm_tooLong hg hst hv hen hcap]
      exact acqErr_shows s.dev (by decide)
    case badArea =>
      refine effect_alive rfl ha ?_
      rw [acqArm_badArea hg hst hv hen hcap hbad]
      exact acqErr_shows s.dev (by decide)
    case full =>
      refine effect_alive rfl ha ?_
      rw [acqArm_full hg hst hv hen hcap hbad hf, Device.capGrp_setGrp_self, Device.armChecked_capGrp]
      exact ⟨rfl, rfl⟩
  case busy => exact fun hst => effect_alive rfl ha (acqArm_busy hst)
  case disarmIdle =>
    intro hst
    refine effect_alive rfl ha ?_
    rw [placed, if_pos (by simp [hg]), acqDisarm_idle hst]
  case disarmArmed =>
    intro hst
    refine effect_alive rfl ha ?_
    rw [placed, if_pos (by simp [hg]), acqDisarm_armed hst, Device.capGrp_setGrp_self]
    exact ⟨rfl, rfl⟩
  case disarmRecording =>
    intro hr hc
    obtain ⟨hgrp, -, hctr⟩ := recFinish_records hg false true s.dev
    refine effect_alive rfl ha ?_
    rw [placed, if_pos (by simp [hg]), acqDisarm_recording hr hc, Device.capGrp_setGrp_self, hgrp, (Device.setGrp_leaves hg _ _).2 _ (by decide), hctr]
    exact ⟨rfl, rfl, rfl⟩
  case forceArmed =>
    intro hst
    refine effect_alive rfl ha ?_
    rw [placed, if_pos (by simp [hg])]
    exact capTrigger_starts hg hst
  case forceTriggered =>
    intro hst
    refine effect_alive rfl ha ?_
    rw [placed, if_pos (by simp [hg])]
    exact capTrigger_again hg hst
  case forceFull =>
    intro hst
    refine effect_alive rfl ha ?_
    rw [placed, if_pos (by simp [hg])]
    exact capTrigger_lost hg hst
  case recordEnd =>
    intro haw hm hr ht hc
    obtain ⟨hgrp, hauto, hctr⟩ := recFinish_records hg false false s.dev
    obtain ⟨hdone, hrec, hidle, hnext⟩ := capNext_shows hg (recFinish g false false s.dev)
    refine effect_awake rfl haw ?_
    rw [placed, if_pos (by simp [hg]), captureRecordEnd_ends hm hr ht hc, hdone, hgrp, hrec, hctr, ← hauto]
    exact ⟨rfl, rfl, hidle, hnext⟩
  case release =>
    rintro v hv rfl h
    exact effect_alive rfl ha (acqSlotRelease_frees hv h)
  case releaseRefused =>
    rintro v hv rfl h
    refine effect_alive rfl ha ?_
    rw [acqSlotRelease_refused hv h]
    exact acqErr_shows s.dev (by decide)
  case fires =>
    intro nom t n at_ haw hm hn hat hnew hents hen h0 h3 hgrid hv hgs hst hp
    subst hat
    obtain ⟨k, hk⟩ := trigEval_fires (d := s.dev.instantTaken nom n) (at_ := n * Time.secU / (8 * (if nom then 60 else 50))) hgs hp
    obtain ⟨h1, h2, hstop, hcause, -⟩ := capTrigger_starts (t := n * Time.secU / (8 * (if nom then 60 else 50))) (cause := t)
      (d := (s.dev.instantTaken nom n).setAcq { (s.dev.instantTaken nom n).acq with trig := mset (s.dev.instantTaken nom n).acq.trig t k }) hg hst
    refine effect_awake rfl haw ?_
    rw [triggerEvalInstant_takes hm hn hnew, hents, List.foldl_cons, List.foldl_nil, Device.instantEval_meets hen h0 h3 hgrid,
      Device.cycleTrue_instantTaken, hv, hk]
    exact ⟨h1, h2, hcause, hstop⟩
  case quiet =>
    intro nom n haw hm hn hnew hoff
    refine effect_awake rfl haw ?_
    rw [triggerEvalInstant_takes hm hn hnew]
    exact congrArg Device.acq (foldl_leaves (view := id) (fun x e he => Device.instantEval_off (hoff e he)) (s.dev.instantTaken nom n))
  case noGo => exact fun v hv => effect_alive rfl ha (if_pos (by simp [hv]))

end Sys2Proof.Machine
end

section
/-!
What a booking leaves (R299 to R301, R310): one element of a list replaced, the points and inputs that pulse outputs do not touch, and the point that an
addition leaves.
-/
namespace Sys2Proof.Machine
-- Proofs are elaborated in turn: side by side they wait for one another, each on a thread with a stack of its own.
set_option deprecated.oldSectionVars true

/-! One element of a list. -/

theorem lset_eq_set {α : Type} (l : List α) (i : Nat) (v : α) : lset l i v = l.set i v := by
  induction l generalizing i with
  | nil => rfl
  | cons a l ih =>
    cases i with
    | zero => rfl
    | succ i => exact congrArg (a :: ·) (ih i)
theorem length_lset {α : Type} (l : List α) (i : Nat) (v : α) : (lset l i v).length = l.length := by
  rw [lset_eq_set, List.length_set]
theorem getD_lset_self {α : Type} {l : List α} {i : Nat} (h : i < l.length) (v z : α) : (lset l i v).getD i z = v := by
  rw [lset_eq_set, List.getD_eq_getElem?_getD, List.getElem?_set_self h, Option.getD_some]
theorem getD_lset_other {α : Type} (l : List α) {i j : Nat} (h : j ≠ i) (v z : α) : (lset l i v).getD j z = l.getD j z := by
  rw [lset_eq_set, List.getD_eq_getElem?_getD, List.getElem?_set_ne h.symm, ← List.getD_eq_getElem?_getD]
/-- An element written back leaves the list. -/
theorem lset_getD_self {α : Type} {l : List α} {i : Nat} (h : i < l.length) (z : α) : lset l i (l.getD i z) = l := by
  rw [lset_eq_set, List.getD_eq_getElem _ _ h, List.set_getElem_self]

/-! Points, pulse inputs and pulse outputs. -/

@[simp] theorem Device.point_setPoint_self (d : Device) (i : Nat) (p : PointSt) : (d.setPoint i p).point i = p := mgetD_mset_self _ _ _ _
theorem Device.point_setPoint_other (d : Device) {i j : Nat} (p : PointSt) (h : j ≠ i) : (d.setPoint i p).point j = d.point j := mgetD_mset_other _ _ _ _ _ h
@[simp] theorem Device.plsi_setPlsi_self (d : Device) (i : Nat) (x : PulseIn) : (d.setPlsi i x).plsi i = x := mgetD_mset_self _ _ _ _
theorem Device.plsi_setPlsi_other (d : Device) {i j : Nat} (x : PulseIn) (h : j ≠ i) : (d.setPlsi i x).plsi j = d.plsi j := mgetD_mset_other _ _ _ _ _ h
@[simp] theorem Device.pulse_setPulse_self (d : Device) (k : Nat) (x : PulseSt) : (d.setPulse k x).pulse k = x := mgetD_mset_self _ _ _ _
theorem Device.pulse_congr {a d : Device} (h : d.nrg = a.nrg) (k : Nat) : d.pulse k = a.pulse k := by
  unfold Device.pulse
  rw [h]

theorem Device.countN_nrg (d : Device) (c : Ctr) (n : Nat) : (d.countN c n).nrg = d.nrg := by simp
/-- A count of several leaves every other register, as a count of one does. -/
theorem Device.rg_countN (d : Device) (c : Ctr) (n i : Nat) (r : RegDef) (j : Nat) (h1 : r.base / 65536 ≠ 0x17) (h2 : r.base / 65536 ≠ 0x19)
    (h3 : r.key j ≠ c.base + i * c.stride) (h4 : r.key j ≠ c.half + i * c.stride) : (d.countN c n i).rg r j = d.rg r j := by
  unfold Device.countN
  split
  · rfl
  · unfold countWith
    extract_lets a old new d1
    have hd1 : d1.rg r j = d.rg r j := Device.rg_putReg_key _ _ _ _ _ _ h3
    split
    · exact hd1
    · split
      · exact hd1
      · rw [Calm.rg_eq (raiseF_calm (Device.irqRefresh_calm (Calm.refl Eff.none _))) r j h1 h2, Device.rg_putReg_key _ _ _ _ _ _ h4]
        exact hd1

/-! Showing and driving an output. -/

theorem Device.poShow_nrg (d : Device) (k : Nat) : (d.poShow k).nrg = d.nrg := by
  unfold Device.poShow Device.hwm
  split
  · rfl
  · rfl
theorem Device.poShow_now (d : Device) (k : Nat) : (d.poShow k).now = d.now := by
  unfold Device.poShow Device.hwm
  split
  · rfl
  · rfl
theorem Device.rg_poShow (d : Device) (k : Nat) (r : RegDef) (j : Nat) (h : r.key j ≠ NRG_PO_PEND.key k) : (d.poShow k).rg r j = d.rg r j := by
  unfold Device.poShow Device.hwm
  split
  · exact (Device.rg_wr_other _ _ _ _ _ _ h).trans (Device.rg_wr_other _ _ _ _ _ _ h)
  · exact Device.rg_wr_other _ _ _ _ _ _ h
theorem Device.poDrive_leaves (d : Device) (k : Nat) (on : Bool) : (d.poDrive k on).nrg = d.nrg ∧ (d.poDrive k on).regs = d.regs := by
  unfold Device.poDrive
  split
  · exact ⟨rfl, rfl⟩
  · exact ⟨rfl, rfl⟩
theorem Device.rg_poDrive (d : Device) (k : Nat) (on : Bool) (r : RegDef) (j : Nat) : (d.poDrive k on).rg r j = d.rg r j := by
  unfold Device.rg Device.blkRegs
  rw [(d.poDrive_leaves k on).2]
theorem Device.ctr_poDrive (d : Device) (k : Nat) (on : Bool) (c : Ctr) (i : Nat) : (d.poDrive k on).ctr c i = d.ctr c i := by
  unfold Device.ctr Device.blkRegs
  rw [(d.poDrive_leaves k on).2]

/-- A pulse output after the start of the next pulse: one that is idle and has a pulse pending is active until `t`. -/
def PulseSt.started (x : PulseSt) (t : Time) : PulseSt := if x.phase = .idle ∧ x.pend > 0 then { x with pend := x.pend - 1, phase := .active t } else x

theorem PulseSt.started_base (x : PulseSt) (t : Time) : (x.started t).base = x.base := by
  unfold PulseSt.started
  split
  · rfl
  · rfl
theorem PulseSt.started_idle {x : PulseSt} (hi : x.phase = .idle) (hp : 0 < x.pend) (t : Time) :
    x.started t = { x with pend := x.pend - 1, phase := .active t } := if_pos ⟨hi, hp⟩
theorem PulseSt.started_waits {x : PulseSt} (h : x.phase ≠ .idle ∨ x.pend = 0) (t : Time) : x.started t = x := by
  refine if_neg ?_
  rintro ⟨hi, hp⟩
  rcases h with h | h
  · exact h hi
  · exact absurd h hp.ne'

theorem Device.pulse_poStart (d : Device) (k : Nat) : (d.poStart k).pulse k = (d.pulse k).started (d.now + d.f NRG_PO_CFG.PW_MS k * Time.msU) := by
  unfold Device.poStart PulseSt.started
  extract_lets x
  split
  · rw [Device.pulse_congr (Device.poDrive_leaves _ _ _).1, Device.pulse_congr (Device.poShow_nrg _ _), Device.pulse_setPulse_self]
  · rfl
theorem Device.rg_poStart (d : Device) (k : Nat) (r : RegDef) (j : Nat) (h : r.key j ≠ NRG_PO_PEND.key k) : (d.poStart k).rg r j = d.rg r j := by
  unfold Device.poStart
  extract_lets x
  split
  · rw [Device.rg_poDrive, Device.rg_poShow _ _ _ _ h]
    rfl
  · rfl

/-! What no pulse output touches. -/

/-- The points, the pulse inputs and the shown levels of the inputs. -/
def Device.meters (d : Device) : NMap PointSt × NMap PulseIn × Word := (d.nrg.points, d.nrg.inputs, d.rg NRG_PI_LEVEL 0)

theorem Device.meters_congr {a d : Device} (hn : d.nrg = a.nrg) (hr : d.rg NRG_PI_LEVEL 0 = a.rg NRG_PI_LEVEL 0) : d.meters = a.meters := by
  unfold Device.meters
  rw [hn, hr]
theorem Device.point_of_meters {a d : Device} (h : d.meters = a.meters) (i : Nat) : d.point i = a.point i :=
  congrArg (fun m : NMap PointSt × NMap PulseIn × Word => mgetD m.1 i pointInit) h
theorem Device.meters_poShow (d : Device) (k : Nat) : (d.poShow k).meters = d.meters :=
  Device.meters_congr (d.poShow_nrg k) (d.rg_poShow k _ _ (by simp [RegDef.key, NRG_PI_LEVEL, NRG_PO_PEND]; omega))
theorem Device.meters_poDrive (d : Device) (k : Nat) (on : Bool) : (d.poDrive k on).meters = d.meters :=
  Device.meters_congr (d.poDrive_leaves k on).1 (d.rg_poDrive k on _ _)
theorem Device.meters_poStart (d : Device) (k : Nat) : (d.poStart k).meters = d.meters := by
  unfold Device.poStart
  extract_lets x
  split
  · rw [Device.meters_poDrive, Device.meters_poShow]
    rfl
  · rfl
theorem Device.meters_raiseSec (d : Device) (last : Option Nat) (e : EvId) (l : List Nat) : (d.raiseSec last e l).meters = d.meters := by
  unfold Device.raiseSec
  split
  · rfl
  · exact Device.meters_congr (by simp) (d.rg_raise e l _ _ (by decide) (by decide))
/-- A counter of the unit stands apart from the shown levels. -/
theorem Device.meters_countN (d : Device) {c : Ctr} (hs : c.stride = 0) (hb : c.base ≠ NRG_PI_LEVEL.base) (hh : c.half ≠ NRG_PI_LEVEL.base) (n : Nat) :
    (d.countN c n).meters = d.meters :=
  Device.meters_congr (d.countN_nrg c n) (d.rg_countN c n 0 _ _ (by decide) (by decide) (by rw [hs]; exact hb.symm) (by rw [hs]; exact hh.symm))
theorem Device.meters_poFeed (d : Device) (point qty k : Nat) : (d.poFeed point qty k).meters = d.meters := by
  unfold Device.poFeed
  extract_lets pq x q n pend dropped d1 d3 nrg d2
  split
  · rfl
  · have h1 : d1.meters = d.meters := Device.meters_poShow _ _
    rw [Device.meters_poStart]
    unfold d2
    split
    · exact h1
    · calc d3.meters
        _ = (d1.countN NRG_PLSO_OVF dropped).meters := Device.meters_raiseSec _ _ _ _
        _ = d1.meters := d1.meters_countN rfl (by decide) (by decide) _
        _ = d.meters := h1

/-! An addition to an accumulator (R301). -/

/-- A point whose accumulator and interval have grown by `n`. -/
def PointSt.added (p : PointSt) (iv q n : Nat) : PointSt :=
  let x := p.ivs.getD iv ivNone
  { p with acc := lset p.acc q ((p.acc.getD q 0 + n) % 2 ^ 64), ivs := lset p.ivs iv { x with adds := lset x.adds q ((x.adds.getD q 0 + n) % 2 ^ 64) } }

section
variable (d : Device) (i iv q : Nat)

theorem Device.nrgAdd_zero : d.nrgAdd i iv q 0 = d := if_pos rfl
/-- An addition changes its point; what follows are pulse outputs. -/
theorem Device.meters_nrgAdd {n : Nat} (hn : n ≠ 0) : (d.nrgAdd i iv q n).meters = (d.setPoint i ((d.point i).added iv q n)).meters := by
  unfold Device.nrgAdd
  rw [if_neg hn]
  exact foldl_leaves (fun x k _ => x.meters_poFeed i q k) _
theorem Device.point_nrgAdd_self {n : Nat} (hn : n ≠ 0) : (d.nrgAdd i iv q n).point i = (d.point i).added iv q n := by
  rw [Device.point_of_meters (d.meters_nrgAdd i iv q hn), Device.point_setPoint_self]
theorem Device.point_nrgAdd_other (n : Nat) {j : Nat} (h : j ≠ i) : (d.nrgAdd i iv q n).point j = d.point j := by
  by_cases hn : n = 0
  · rw [hn, Device.nrgAdd_zero]
  · rw [Device.point_of_meters (d.meters_nrgAdd i iv q hn), Device.point_setPoint_other _ _ h]
theorem Device.inputs_nrgAdd (n : Nat) : (d.nrgAdd i iv q n).meters.2 = d.meters.2 := by
  by_cases hn : n = 0
  · rw [hn, Device.nrgAdd_zero]
  · rw [d.meters_nrgAdd i iv q hn]
    rfl
theorem Device.rem_nrgAdd (n : Nat) : ((d.nrgAdd i iv q n).point i).rem = (d.point i).rem := by
  by_cases hn : n = 0
  · rw [hn, Device.nrgAdd_zero]
  · rw [d.point_nrgAdd_self i iv q hn]
    rfl
/-- Below the wrap an accumulator grows by what is added, be it nothing. -/
theorem Device.acc_nrgAdd {n : Nat} (hq : q < (d.point i).acc.length) (h : (d.point i).acc.getD q 0 + n < 2 ^ 64) :
    ((d.nrgAdd i iv q n).point i).acc = lset (d.point i).acc q ((d.point i).acc.getD q 0 + n) := by
  by_cases hn : n = 0
  · rw [hn, Device.nrgAdd_zero, Nat.add_zero, lset_getD_self hq]
  · rw [d.point_nrgAdd_self i iv q hn, PointSt.added, Nat.mod_eq_of_lt h]

/-- A sample's energy: the whole units go to the register, what is left of them to the remainder (R301). -/
theorem Device.nrgAddPower_books (x dv : Nat) (hq : q < (d.point i).acc.length)
    (h : (d.point i).acc.getD q 0 + ((d.point i).rem.getD q 0 + x) / dv < 2 ^ 64) :
    ((d.nrgAddPower i iv q x dv).point i).acc = lset (d.point i).acc q ((d.point i).acc.getD q 0 + ((d.point i).rem.getD q 0 + x) / dv) ∧
    ((d.nrgAddPower i iv q x dv).point i).rem = lset (d.point i).rem q (((d.point i).rem.getD q 0 + x) % dv) := by
  unfold Device.nrgAddPower
  refine ⟨?acc, ?rem⟩
  case acc =>
    rw [Device.acc_nrgAdd _ _ _ _ (by rw [Device.point_setPoint_self]; exact hq) (by rw [Device.point_setPoint_self]; exact h), Device.point_setPoint_self]
  case rem => rw [Device.rem_nrgAdd, Device.point_setPoint_self]
theorem Device.point_nrgAddPower_other (x dv : Nat) {j : Nat} (h : j ≠ i) : (d.nrgAddPower i iv q x dv).point j = d.point j := by
  unfold Device.nrgAddPower
  rw [Device.point_nrgAdd_other _ _ _ _ _ h, Device.point_setPoint_other _ _ h]

end

/-- Settles O39: the quotient that the register gains and the remainder make up what was there and the sample. -/
theorem energyIsBookedExactly : Obligations.EnergyIsBookedExactly := by
  intro d i iv q x dv hdv hq hacc hrem hlt
  have hqa : q < (d.point i).acc.length := hacc ▸ hq
  have hqr : q < (d.point i).rem.length := hrem ▸ hq
  obtain ⟨ha, hr⟩ := d.nrgAddPower_books i iv q x dv hqa hlt
  rw [ha, hr, getD_lset_self hqa, getD_lset_self hqr]
  refine ⟨?sum, Nat.mod_lt _ hdv, fun j hj => ⟨getD_lset_other _ hj _ _, getD_lset_other _ hj _ _⟩, fun j hj => d.point_nrgAddPower_other i iv q x dv hj⟩
  case sum => rw [Nat.add_mul, Nat.add_assoc, Nat.div_add_mod', Nat.add_assoc]

end Sys2Proof.Machine
end

section
/-!
Pulse inputs and outputs (R303, R310, R311): an equation for each outcome of a command, and what it leaves.
-/
namespace Sys2Proof.Machine
-- Proofs are elaborated in turn: side by side they wait for one another, each on a thread with a stack of its own.
set_option deprecated.oldSectionVars true

/-- A counter of the unit counts one. -/
abbrev Ctr.ofNrg (c : Ctr) : Prop := c.stride = 0 ∧ c.half = NRG_HALF.base ∧ NRG_HALF.base < c.base ∧ c.base / 65536 = 0x14

theorem Device.ctr_count_nrg (d : Device) {c : Ctr} (hc : c.ofNrg) : (d.count c).ctr c = (d.ctr c + 1) % 2 ^ 32 := by
  obtain ⟨hs, hh, hb, hr⟩ := hc
  exact d.ctr_count_self c 0 (by omega) (by omega) (by omega)
theorem Device.count_nrg (d : Device) (c : Ctr) : (d.count c).nrg = d.nrg := by simp
/-- A refused command shows its code. -/
theorem Device.nrgErr_shows (d : Device) {code : Nat} (h : code < 8) : (d.nrgErr code).nrg = d.nrg ∧ (d.nrgErr code).f NRG_STAT.ERR = 1 ∧
    (d.nrgErr code).f NRG_STAT.ECODE = code :=
  ⟨rfl, d.err_reads NRG_STAT.ERR NRG_STAT.ECODE code 0 rfl rfl (by decide) (by decide) (by decide) (by decide) h⟩

/-! PLSI_LEVEL_CHANGE. -/

section
variable {i : Nat} {lvl : Bool} {d : Device} (ha : d.alive = true) (hi : i < 32) (hr : (d.plsi i).raw ≠ lvl)
include ha hi hr

theorem plsiLevel_off (hen : d.fb NRG_PI_CFG.EN i = false) : plsiLevel i lvl d = d.setPlsi i { d.plsi i with raw := lvl } := by
  unfold plsiLevel
  rw [if_neg (by simp [ha, hi, hr]), if_pos (by simp [hen])]
theorem plsiLevel_debounces (hen : d.fb NRG_PI_CFG.EN i = true) (hl : (d.plsi i).level ≠ lvl) :
    plsiLevel i lvl d = d.setPlsi i { d.plsi i with raw := lvl, edge := some d.now } := by
  unfold plsiLevel
  rw [if_neg (by simp [ha, hi, hr]), if_neg (by simp [hen]), if_neg hl.symm]
theorem plsiLevel_glitch (hen : d.fb NRG_PI_CFG.EN i = true) (hl : (d.plsi i).level = lvl) (he : (d.plsi i).edge.isSome = true) :
    plsiLevel i lvl d = (d.setPlsi i { d.plsi i with raw := lvl, edge := none }).count NRG_PLSI_GLITCH := by
  unfold plsiLevel
  rw [if_neg (by simp [ha, hi, hr]), if_neg (by simp [hen]), if_pos hl.symm]
  exact if_pos he

end

/-! PULSE_ACCEPT. -/

/-- The device that has taken an input's level, before the pulse counts. -/
def Device.levelTaken (d : Device) (i : Nat) : Device :=
  (d.setPlsi i { d.plsi i with level := (d.plsi i).raw, edge := none }).wr NRG_PI_LEVEL 0 (bset (d.rg NRG_PI_LEVEL 0) i i (b2n (d.plsi i).raw))

theorem Device.plsi_of_inputs {a d : Device} (h : d.meters.2 = a.meters.2) (i : Nat) : d.plsi i = a.plsi i :=
  congrArg (fun m : NMap PulseIn × Word => mgetD m.1 i plsiInit) h
theorem Device.plsi_congr {a d : Device} (h : d.nrg = a.nrg) (i : Nat) : d.plsi i = a.plsi i := by
  unfold Device.plsi
  rw [h]
theorem Device.plsi_levelTaken (d : Device) (i : Nat) : (d.levelTaken i).plsi i = { d.plsi i with level := (d.plsi i).raw, edge := none } :=
  Device.plsi_setPlsi_self _ _ _
theorem Device.level_levelTaken (d : Device) {i : Nat} (hi : i < 32) : bit ((d.levelTaken i).rg NRG_PI_LEVEL 0) i = (d.plsi i).raw := by
  unfold Device.levelTaken
  rw [Device.rg_wr_self, bit_bset_inside _ _ (Nat.le_refl i) (Nat.le_refl i) hi, Nat.sub_self]
  cases (d.plsi i).raw with
  | false => rfl
  | true => rfl

theorem Device.journal_kept (d : Device) (typ aux : Nat) (t : Time) (l : List Byte) :
    (d.journal typ aux t l).meters = d.meters ∧ (d.journal typ aux t l).tables = d.tables := by
  have h : Calm (Eff.of [.dd, .jnl] []) d (d.journal typ aux t l) := Device.journal_calm (Calm.refl _ d) ⟨rfl⟩ ⟨rfl⟩
  exact ⟨Device.meters_congr (left_alone h.nrg rfl) (h.rg_of _ _ rfl (by decide) (by decide)), left_alone h.tables rfl⟩
theorem Device.ents_congr {a d : Device} (h : d.tables = a.tables) (t idx : Nat) : d.ents t idx = a.ents t idx := by
  unfold Device.ents
  rw [h]

/-- The pulse point that an input feeds, with its entry. -/
def Device.pulsePoint (d : Device) (i : Nat) : Option (Nat × List Word) :=
  (d.ents tPoint).find? (fun e => peEn e.2 && decide (peKind e.2 = 3) && decide (pePlsi e.2 = i))

theorem Device.inputs_plsiPulse (d : Device) (i : Nat) (t : Time) : (d.plsiPulse i t).meters.2 = d.meters.2 := by
  unfold Device.plsiPulse
  split
  case h_1 => rfl
  case h_2 n e he =>
    extract_lets p k
    rw [Device.count_eq_countN, Device.meters_countN _ rfl (by decide) (by decide), Device.inputs_nrgAdd]
    rfl
theorem PointSt.added_acc (p : PointSt) (iv q n : Nat) : (p.added iv q n).acc = lset p.acc q ((p.acc.getD q 0 + n) % 2 ^ 64) := rfl
/-- Intervals that are opened are all that changes of the point. -/
theorem Device.ivsTo_opens (d : Device) (e : List Word) (t : Time) (p : PointSt) : ∃ l, d.ivsTo e t p = { p with ivs := l } := ⟨_, rfl⟩
/-- A counted pulse adds its point's quantity. -/
theorem Device.acc_plsiPulse {d : Device} {i n : Nat} {e : List Word} (t : Time) (hp : d.pulsePoint i = some (n, e)) (hw : wd e 2 ≠ 0#32) :
    ((d.plsiPulse i t).point n).acc = lset (d.point n).acc (peQty e) (((d.point n).acc.getD (peQty e) 0 + (wd e 2).toNat) % 2 ^ 64) := by
  have hn : (wd e 2).toNat ≠ 0 := fun h => hw (BitVec.eq_of_toNat_eq h)
  obtain ⟨l, hl⟩ := d.ivsTo_opens e t (d.point n)
  unfold Device.pulsePoint at hp
  unfold Device.plsiPulse
  rw [hp]
  dsimp only
  rw [Device.count_eq_countN, Device.point_of_meters (Device.meters_countN _ rfl (by decide) (by decide) _), Device.point_nrgAdd_self _ _ _ _ hn,
    Device.point_setPoint_self, PointSt.added_acc, hl]

theorem pulseAccept_takes {i : Nat} {d : Device} {t0 : Time} (ha : d.alive = true) (hen : d.fb NRG_PI_CFG.EN i = true) (he : (d.plsi i).edge = some t0)
    (ht : t0 + d.f NRG_PI_CFG.DEB_US i * Time.usU ≤ d.now) : pulseAccept i d =
      if (d.plsi i).raw ≠ d.fb NRG_PI_CFG.EDGE i && d.racing
      then ((d.levelTaken i).journal 0x04 i (t0 + d.f NRG_PI_CFG.DEB_US i * Time.usU) []).plsiPulse i (t0 + d.f NRG_PI_CFG.DEB_US i * Time.usU)
      else d.levelTaken i := by
  unfold pulseAccept
  extract_lets x
  have hx : x.edge = some t0 := he
  rw [hx]
  dsimp only
  rw [if_neg (by simp [ha, hen, ht])]
  rfl
theorem pulseAccept_inputs {i : Nat} {d : Device} {t0 : Time} (ha : d.alive = true) (hen : d.fb NRG_PI_CFG.EN i = true) (he : (d.plsi i).edge = some t0)
    (ht : t0 + d.f NRG_PI_CFG.DEB_US i * Time.usU ≤ d.now) : (pulseAccept i d).meters.2 = (d.levelTaken i).meters.2 := by
  rw [pulseAccept_takes ha hen he ht]
  split
  · rw [Device.inputs_plsiPulse, (Device.journal_kept _ _ _ _ _).1]
  · rfl
/-- On the edge that counts the input's point is booked. -/
theorem pulseAccept_books {i n : Nat} {d : Device} {t0 : Time} {e : List Word} (ha : d.alive = true) (hen : d.fb NRG_PI_CFG.EN i = true)
    (he : (d.plsi i).edge = some t0) (ht : t0 + d.f NRG_PI_CFG.DEB_US i * Time.usU ≤ d.now) (hr : d.racing = true)
    (hedge : (d.plsi i).raw ≠ d.fb NRG_PI_CFG.EDGE i) (hp : d.pulsePoint i = some (n, e)) (hw : wd e 2 ≠ 0#32) :
    ((pulseAccept i d).point n).acc = lset (d.point n).acc (peQty e) (((d.point n).acc.getD (peQty e) 0 + (wd e 2).toNat) % 2 ^ 64) := by
  rw [pulseAccept_takes ha hen he ht, if_pos (by simp [hr, hedge])]
  obtain ⟨hm, htab⟩ := (d.levelTaken i).journal_kept 0x04 i (t0 + d.f NRG_PI_CFG.DEB_US i * Time.usU) []
  have hpt : ((d.levelTaken i).journal 0x04 i (t0 + d.f NRG_PI_CFG.DEB_US i * Time.usU) []).pulsePoint i = some (n, e) := by
    unfold Device.pulsePoint
    rw [Device.ents_congr (a := d) htab]
    exact hp
  rw [Device.acc_plsiPulse _ hpt hw, Device.point_of_meters hm]
  rfl

/-! PULSE_OUTPUT_ENABLE and PULSE_OUTPUT_DISABLE. -/

/-- The configuration that is stored: the bits of the fields. -/
def poCfgStored (v : Word) : Word := (v ||| 0x80000000#32) &&& 0xF0FF01FF#32

theorem bx_poCfgStored (v : Word) : bit (poCfgStored v) 31 = true ∧ bx (poCfgStored v) 8 0 = bx v 8 0 ∧ bx (poCfgStored v) 30 28 = bx v 30 28 ∧
    bx (poCfgStored v) 23 16 = bx v 23 16 := by
  have h (hi lo : Nat) (hk : ∀ j, j < hi - lo + 1 → (0xF0FF01FF#32).getLsbD (lo + j) = true)
      (ho : ∀ j, j < hi - lo + 1 → (0x80000000#32).getLsbD (lo + j) = false) : bx (poCfgStored v) hi lo = bx v hi lo :=
    (bx_land_kept _ _ hi lo hk).trans (bx_lor_outside _ _ hi lo ho)
  refine ⟨?en, h 8 0 (by decide) (by decide), h 30 28 (by decide) (by decide), h 23 16 (by decide) (by decide)⟩
  case en => exact (congrArg (fun n => decide (n = 1)) (bx_land_kept _ _ 31 31 (by decide))).trans (bit_lor_run v)

theorem Device.pend_poShow (d : Device) (k : Nat) : (d.poShow k).f NRG_PO_PEND.PEND k = (d.pulse k).pend % 2 ^ 16 := by
  unfold Device.poShow Device.hwm
  split
  · exact (Device.f_setf_field _ NRG_PO_PEND.HWM NRG_PO_PEND.PEND _ _ rfl (by decide) (by decide) (by decide) (by decide)).trans
      (Device.f_setf_self d NRG_PO_PEND.PEND _ k (by decide) (by decide))
  · exact Device.f_setf_self d NRG_PO_PEND.PEND _ k (by decide) (by decide)

/-- The output as enabled, before it starts a pulse. -/
def Device.poEnabled (d : Device) (k : Nat) (v : Word) : Device := ((d.wr NRG_PO_CFG k (poCfgStored v)).poBase k).poShow k

section
variable {k : Nat} {v : Word} {d : Device}

theorem poCfgWrite_enables (hen : d.fb NRG_PO_CFG.EN k = false) (hw : bx v 23 16 ≠ 0) :
    poCfgWrite k (v ||| 0x80000000#32) d = (d.poEnabled k v).poStart k := by
  have hpw : bx (v ||| 0x80000000#32) 23 16 = bx v 23 16 := bx_lor_outside _ _ _ _ (by decide)
  unfold poCfgWrite
  rw [if_neg (by simp [hen]), if_neg (by rw [hpw]; exact hw)]
  exact if_pos (bit_lor_run v)
theorem poCfgWrite_refused (hen : d.fb NRG_PO_CFG.EN k = true) : poCfgWrite k (v ||| 0x80000000#32) d = d.nrgErr 2 := by
  unfold poCfgWrite
  rw [if_pos hen, if_pos (bit_lor_run v)]
theorem poCfgWrite_disables (hen : d.fb NRG_PO_CFG.EN k = true) :
    poCfgWrite k (v &&& 0x7FFFFFFF#32) d = ((d.setf NRG_PO_CFG.EN 0 k).setPulse k { d.pulse k with pend := 0 }).poShow k := by
  unfold poCfgWrite
  rw [if_pos hen, if_neg (by simp [bit_land_run])]

/-- The base is the count that the named register stands at. -/
theorem Device.pulse_poEnabled : ((d.poEnabled k v).pulse k).base =
      (if (d.rg NRG_PO_Q k).toNat = 0 then 0 else (d.point (bx v 8 0)).acc.getD (bx v 30 28) 0 / (d.rg NRG_PO_Q k).toNat) ∧
    ((d.poEnabled k v).pulse k).pend = (d.pulse k).pend ∧ ((d.poEnabled k v).pulse k).phase = (d.pulse k).phase := by
  obtain ⟨-, hpoint, hqty, -⟩ := bx_poCfgStored v
  have hq : (d.wr NRG_PO_CFG k (poCfgStored v)).rg NRG_PO_Q k = d.rg NRG_PO_Q k :=
    Device.rg_wr_other _ _ _ _ _ _ (by simp [RegDef.key, NRG_PO_CFG, NRG_PO_Q])
  have hf (x : RF) (hx : x.reg = NRG_PO_CFG) : (d.wr NRG_PO_CFG k (poCfgStored v)).f x k = bx (poCfgStored v) x.hi x.lo := by
    rw [Device.f, hx, Device.rg_wr_self]
  unfold Device.poEnabled
  rw [Device.pulse_congr (Device.poShow_nrg _ _), Device.poBase, Device.pulse_setPulse_self, hq, hf NRG_PO_CFG.POINT rfl, hf NRG_PO_CFG.QTY rfl, ← hpoint,
    ← hqty]
  exact ⟨rfl, rfl, rfl⟩

section
variable (hk : k < 32)
include hk

theorem NRG_PO_CFG_key_ne_NRG_PO_PEND (j : Nat) : NRG_PO_CFG.key k ≠ NRG_PO_PEND.key j := by
  simp [RegDef.key, NRG_PO_CFG, NRG_PO_PEND]
  omega

/-- An enabled output holds its configuration, and starts a pulse of its width if one waits. -/
theorem Device.poStart_poEnabled : ((d.poEnabled k v).poStart k).rg NRG_PO_CFG k = poCfgStored v ∧
    ((d.poEnabled k v).poStart k).pulse k = ((d.poEnabled k v).pulse k).started (d.now + bx v 23 16 * Time.msU) := by
  have hkey := NRG_PO_CFG_key_ne_NRG_PO_PEND hk k
  have hrg : (d.poEnabled k v).rg NRG_PO_CFG k = poCfgStored v := (Device.rg_poShow _ _ _ _ hkey).trans (Device.rg_wr_self _ _ _ _)
  have hpw : (d.poEnabled k v).f NRG_PO_CFG.PW_MS k = bx v 23 16 := (congrArg (bx · 23 16) hrg).trans (bx_poCfgStored v).2.2.2
  have hnow : (d.poEnabled k v).now = d.now := Device.poShow_now _ _
  refine ⟨(Device.rg_poStart _ _ _ _ hkey).trans hrg, ?_⟩
  rw [Device.pulse_poStart, hpw, hnow]

/-- A disabled output has no pulse pending; the one in progress goes on. -/
theorem poCfgWrite_disabled (hen : d.fb NRG_PO_CFG.EN k = true) : (poCfgWrite k (v &&& 0x7FFFFFFF#32) d).fb NRG_PO_CFG.EN k = false ∧
    (poCfgWrite k (v &&& 0x7FFFFFFF#32) d).pulse k = { d.pulse k with pend := 0 } ∧
    (poCfgWrite k (v &&& 0x7FFFFFFF#32) d).f NRG_PO_PEND.PEND k = 0 := by
  rw [poCfgWrite_disables hen]
  refine ⟨?en, ?pulse, ?pend⟩
  case en =>
    refine (congrArg (fun w => bit w 31) (Device.rg_poShow _ _ NRG_PO_CFG k (NRG_PO_CFG_key_ne_NRG_PO_PEND hk k))).trans ?_
    exact d.fb_setf_self NRG_PO_CFG.EN false k rfl (by decide)
  case pulse => rw [Device.pulse_congr (Device.poShow_nrg _ _), Device.pulse_setPulse_self]
  case pend =>
    rw [Device.pend_poShow, Device.pulse_setPulse_self]
    rfl

end

/-! PULSE_OUTPUT_PHASE_END. -/

theorem pulsePhaseEnd_active {t : Time} (hp : (d.pulse k).phase = .active t) (ht : t ≤ d.now) : pulsePhaseEnd k d =
    ((d.setPulse k { d.pulse k with phase := .inactive (t + d.f NRG_PO_CFG.PW_MS k * Time.msU) }).count NRG_PLSO_PULSES).poDrive k false := by
  unfold pulsePhaseEnd
  extract_lets x
  have hx : x.phase = .active t := hp
  rw [hx]
  exact if_neg (Nat.not_lt.2 ht)
theorem pulsePhaseEnd_inactive {t : Time} (hp : (d.pulse k).phase = .inactive t) (ht : t ≤ d.now) :
    pulsePhaseEnd k d = (d.setPulse k { d.pulse k with phase := .idle }).poStart k := by
  unfold pulsePhaseEnd
  extract_lets x
  have hx : x.phase = .inactive t := hp
  rw [hx]
  exact if_neg (Nat.not_lt.2 ht)
theorem pulsePhaseEnd_inactive_pulse {t : Time} (hp : (d.pulse k).phase = .inactive t) (ht : t ≤ d.now) : (pulsePhaseEnd k d).pulse k =
    { d.pulse k with phase := .idle }.started (d.now + d.f NRG_PO_CFG.PW_MS k * Time.msU) := by
  rw [pulsePhaseEnd_inactive hp ht, Device.pulse_poStart, Device.pulse_setPulse_self]
  rfl

end

/-- Settles O37: each command by the equation of its case, then what an output or input is after it. -/
theorem pulseCommandsAct : Obligations.PulseCommandsAct := by
  refine ⟨fun s ha => ⟨?debounce, ?glitch, ?noted, ?accept⟩, fun s k ha hk => ⟨?enable, ?refused, ?disable, ?active, ?next, ?idle⟩⟩
  case debounce =>
    intro i lvl hi hen hr hl
    refine effect_alive rfl ha ?_
    rw [plsiLevel_debounces ha hi hr hen hl]
    exact ⟨Device.plsi_setPlsi_self _ _ _, fun j hj => Device.plsi_setPlsi_other _ _ hj⟩
  case glitch =>
    intro i lvl hi hen hr hl he
    refine effect_alive rfl ha ?_
    rw [plsiLevel_glitch ha hi hr hen hl he]
    refine ⟨?_, Device.ctr_count_nrg _ (by decide)⟩
    rw [Device.plsi_congr (Device.count_nrg _ _), Device.plsi_setPlsi_self]
  case noted =>
    intro i lvl hi hen hr
    refine effect_alive rfl ha ?_
    rw [plsiLevel_off ha hi hr hen]
    exact ⟨Device.plsi_setPlsi_self _ _ _, fun j hj => Device.plsi_setPlsi_other _ _ hj⟩
  case accept =>
    intro i t0 hi hen he ht
    have hin := pulseAccept_inputs ha hen he ht
    have hplsi := (Device.plsi_of_inputs hin i).trans (s.dev.plsi_levelTaken i)
    have hlevel := congrArg Prod.snd hin
    refine effect_alive rfl ha ?_
    rw [placed, if_pos (by simp [hi])]
    refine ⟨congrArg PulseIn.level hplsi, congrArg PulseIn.edge hplsi, (congrArg (bit · i) hlevel).trans (s.dev.level_levelTaken hi), ?_⟩
    exact fun hr hedge n e hp _ _ hw => pulseAccept_books ha hen he ht hr hedge hp hw
  case enable =>
    intro v hen hw
    obtain ⟨hrg, hpulse⟩ := Device.poStart_poEnabled (d := s.dev) (v := v) hk
    obtain ⟨hbase, hpend, hphase⟩ := Device.pulse_poEnabled (d := s.dev) (k := k) (v := v)
    obtain ⟨hb31, hpoint, hqty, hpw⟩ := bx_poCfgStored v
    refine effect_alive rfl ha ?_
    rw [placed, if_pos (by simp [hk]), poCfgWrite_enables hen hw, hpulse]
    refine ⟨(congrArg (bit · 31) hrg).trans hb31, (congrArg (bx · 8 0) hrg).trans hpoint, (congrArg (bx · 30 28) hrg).trans hqty,
      (congrArg (bx · 23 16) hrg).trans hpw, ?base, fun h => ?waits, fun hi hp => ?starts⟩
    case base => exact (PulseSt.started_base _ _).trans hbase
    case waits =>
      rw [PulseSt.started_waits (by rw [hphase, hpend]; exact h)]
      exact ⟨hpend, hphase⟩
    case starts =>
      rw [PulseSt.started_idle (hphase.trans hi) (by rw [hpend]; exact hp)]
      exact ⟨congrArg (· - 1) hpend, rfl⟩
  case refused =>
    intro v hen
    refine effect_alive rfl ha ?_
    rw [placed, if_pos (by simp [hk]), poCfgWrite_refused hen]
    exact s.dev.nrgErr_shows (by decide)
  case disable =>
    intro v hen
    obtain ⟨hoff, hpulse, hpend⟩ := poCfgWrite_disabled (v := v) hk hen
    refine effect_alive rfl ha ?_
    rw [placed, if_pos (by simp [hk]), hpulse]
    exact ⟨hoff, rfl, rfl, hpend⟩
  case active =>
    intro t haw hp ht
    refine effect_awake rfl haw ?_
    rw [placed, if_pos (by simp [hk]), pulsePhaseEnd_active hp ht, Device.ctr_poDrive, Device.ctr_count_nrg _ (by decide),
      Device.pulse_congr (Device.poDrive_leaves _ _ _).1, Device.pulse_congr (Device.count_nrg _ _), Device.pulse_setPulse_self]
    exact ⟨rfl, rfl⟩
  case next =>
    intro t haw hp ht hpend
    refine effect_awake rfl haw ?_
    rw [placed, if_pos (by simp [hk]), pulsePhaseEnd_inactive_pulse hp ht]
    exact PulseSt.started_idle (x := { s.dev.pulse k with phase := .idle }) rfl hpend _
  case idle =>
    intro t haw hp ht hpend
    refine effect_awake rfl haw ?_
    rw [placed, if_pos (by simp [hk]), pulsePhaseEnd_inactive_pulse hp ht]
    exact PulseSt.started_waits (x := { s.dev.pulse k with phase := .idle }) (.inr hpend) _

end Sys2Proof.Machine
end

section
/-!
Snapshots, the close of an interval and the drain of a record (R305, R308, R309, R409).
-/
namespace Sys2Proof.Machine
-- Proofs are elaborated in turn: side by side they wait for one another, each on a thread with a stack of its own.
set_option deprecated.oldSectionVars true

/-! The snapshot slot. -/

/-- A slot that is not HELD shows no data. -/
theorem slotWord_unheld {x : Slot} (h : x.st ≠ .held) (n : Nat) : slotWord x n = 0#32 := if_neg h
theorem slotWord_ready (x : Slot) (data : List Word) (n : Nat) : slotWord (slotReady x data) n = wd data n := if_pos rfl

section
variable {d : Device}

theorem nrgSnapRequest_takes {i : Nat} (hi : i < 512) (h : d.nrg.slot.st = .free) :
    nrgSnapRequest i d = d.setNrg { d.nrg with slot := ⟨.busy, (d.nrg.slot.seq + 1) % 65536, d.nrgSnap i⟩ } := by
  unfold nrgSnapRequest slotRequest
  rw [if_pos h, Nat.mod_eq_of_lt hi]
theorem nrgSnapRequest_refused (i : Nat) (h : d.nrg.slot.st ≠ .free) : nrgSnapRequest i d = d.nrgErr 1 := by
  unfold nrgSnapRequest slotRequest
  rw [if_neg h]
theorem nrgSnapComplete_shows (h : d.nrg.slot.st = .busy) :
    nrgSnapComplete d = (d.setNrg { d.nrg with slot := slotReady d.nrg.slot d.nrg.slot.data }).count NRG_SNAPS := if_pos h
theorem nrgSnapRelease_frees {v : Word} (h : bx v 15 0 = d.nrg.slot.seq) :
    nrgSnapRelease v d = d.setNrg { d.nrg with slot := ⟨.free, d.nrg.slot.seq, []⟩ } := by
  unfold nrgSnapRelease slotRelease
  rw [if_pos h]

end

/-! Records to their ring, or to the buffer. -/

theorem Device.cqRecord_kept {d x : Device} {q content : Nat} {ws : List Word} (h : d.cqRecord q content ws = some x) :
    x.nrg = d.nrg ∧ ∀ c : Ctr, c.ofNrg → x.ctr c = d.ctr c := by
  have hc : Calm (Eff.of [] [0x17]) d x := Device.cqRecord_calm (Calm.refl _ d) h ⟨rfl⟩
  refine ⟨left_alone hc.nrg rfl, fun c hr => ?_⟩
  obtain ⟨-, -, -, hblk⟩ := hr
  exact hc.ctr_of c 0 (by rw [hblk]; rfl) (by rw [hblk]; decide) (by rw [hblk]; decide)

/-- A record as it is written: LOST_BEFORE marks records dropped before it. -/
def Device.ivMarked (d : Device) (ws : List Word) : List Word := if d.nrg.lostBefore then lset ws 0 (bset (wd ws 0) 14 14 1) else ws

theorem Device.length_ivMarked (d : Device) (ws : List Word) : (d.ivMarked ws).length = ws.length := by
  unfold Device.ivMarked
  split
  · exact length_lset _ _ _
  · rfl

section
variable {d : Device} {ws : List Word}

/-- A record that its ring has taken. -/
theorem Device.ivWrite_takes {x : Device} (h : d.cqRecord (d.f NRG_CFG.RING) 2 (d.ivMarked ws) = some x) :
    d.ivWrite ws = some ((x.setNrg { x.nrg with lostBefore := false, dropEp := false }).count NRG_INTERVALS) := by
  unfold Device.ivWrite
  extract_lets w
  have hw : d.cqRecord (d.f NRG_CFG.RING) 2 w = some x := h
  rw [hw]
theorem Device.ivWrite_points {x : Device} (h : d.ivWrite ws = some x) : x.nrg.points = d.nrg.points := by
  unfold Device.ivWrite at h
  extract_lets w at h
  split at h
  · cases h
  · next y hy =>
    cases h
    have hkept : y.nrg.points = d.nrg.points := congrArg Nrg.points (Device.cqRecord_kept hy).1
    rw [Device.count_nrg]
    exact hkept
theorem Device.ivDrop_points (d : Device) (point : Nat) : (d.ivDrop point).nrg.points = d.nrg.points := by
  unfold Device.ivDrop
  extract_lets nrg d1
  have h1 : d1.nrg.points = d.nrg.points := by
    unfold d1
    rw [Device.count_nrg]
    rfl
  split
  · exact h1
  · simpa using h1
theorem Device.ivDeliver_points (d : Device) (point : Nat) (ws : List Word) : (d.ivDeliver point ws).nrg.points = d.nrg.points := by
  unfold Device.ivDeliver
  extract_lets nrg wait
  have hw : wait.nrg.points = d.nrg.points := by
    unfold wait
    split
    · exact d.ivDrop_points point
    · rfl
  split
  · rfl
  · split
    · exact hw
    · split
      · next x hx => exact Device.ivWrite_points hx
      · exact hw
/-- Behind records that wait a record waits too. -/
theorem Device.ivDeliver_waits (point : Nat) (hen : d.fb NRG_CFG.EN = true) (hm : d.pwr.mode ≠ .follow) (hb : d.nrg.buf ≠ [])
    (hl : d.nrg.buf.length < 4096) : d.ivDeliver point ws = d.setNrg { d.nrg with buf := d.nrg.buf ++ [ws] } := by
  unfold Device.ivDeliver
  extract_lets nrg wait
  rw [if_neg (by simp [hen, hm]), if_pos (by simp [hb])]
  exact if_neg (Nat.not_le.2 hl)

end

/-! INTERVAL_CLOSE. -/

section
variable (d : Device) (i : Nat) (iv : Interval) (stop : Time) (outage isPartial : Bool)

theorem Device.ivEnd_points : (d.ivEnd i iv stop outage isPartial).nrg.points = d.nrg.points := by
  unfold Device.ivEnd
  rw [Device.ivDeliver_points, Device.countN_nrg]
/-- The record of an interval that ends waits behind those that wait. -/
theorem Device.ivEnd_waits (hen : d.fb NRG_CFG.EN = true) (hm : d.pwr.mode ≠ .follow) (hb : d.nrg.buf ≠ []) (hl : d.nrg.buf.length < 4096) :
    (d.ivEnd i iv stop outage isPartial).nrg.buf = d.nrg.buf ++ [ivRecord i iv (ivMissing iv stop) outage isPartial] := by
  unfold Device.ivEnd
  extract_lets m
  have hnrg := d.countN_nrg NRG_MISSING (m - iv.missed)
  have hcfg : (d.countN NRG_MISSING (m - iv.missed)).fb NRG_CFG.EN = true :=
    (congrArg (bit · 31) (d.rg_countN NRG_MISSING _ 0 NRG_CFG 0 (by decide) (by decide) (by decide) (by decide))).trans hen
  have hmode : (d.countN NRG_MISSING (m - iv.missed)).pwr.mode ≠ .follow := by
    simpa using hm
  rw [Device.ivDeliver_waits i hcfg hmode (by rw [hnrg]; exact hb) (by rw [hnrg]; exact hl), hnrg]
  rfl

end

/-- The intervals of a point whose oldest has closed: those that were open, or the one after it. -/
def Device.ivsLeft (d : Device) (i : Nat) (iv : Interval) (rest : List Interval) : List Interval :=
  if rest.isEmpty then [d.ivAfter (d.ent tPoint i) iv] else rest

theorem intervalClose_closes {d : Device} {i : Nat} {iv : Interval} {rest : List Interval} (hivs : (d.point i).ivs = iv :: rest)
    (hen : peEn (d.ent tPoint i) = true) (ht : d.ivStop iv ≤ d.now)
    (hs : peKind (d.ent tPoint i) = 3 ∨ d.ivSettled (d.pointHeat (d.ent tPoint i)) iv.start (d.ivStop iv) = true) :
    intervalClose i d = (d.setPoint i { d.point i with ivs := d.ivsLeft i iv rest }).ivEnd i iv (d.ivStop iv) false false := by
  have hwait : (!peEn (d.ent tPoint i) || decide (d.now < d.ivStop iv) ||
      (decide (peKind (d.ent tPoint i) ≠ 3) && !d.ivSettled (d.pointHeat (d.ent tPoint i)) iv.start (d.ivStop iv))) = false := by
    rcases hs with hs | hs
    · simp [hen, ht, hs]
    · simp [hen, ht, hs]
  unfold intervalClose
  extract_lets e p
  have hp : p.ivs = iv :: rest := hivs
  rw [hp]
  exact if_neg (ne_true_of_eq_false hwait)

/-! INTERVAL_RECORD_DRAIN. -/

theorem Device.preInterval_clean {d : Device} (h : d.mem.bad = []) : d.preInterval = d := if_pos (by simp [h])
theorem nrgDrainF_follow (n : Nat) {d : Device} (hm : d.pwr.mode = .follow) : nrgDrainF n d = d := by
  cases n with
  | zero => rfl
  | succ n =>
    unfold nrgDrainF
    split
    · rfl
    · exact if_pos (by simp [hm])
/-- The one record that waits is taken by its ring. -/
theorem intervalRecordDrain_one {d x : Device} {r : List Word} (hb : d.nrg.buf = [r]) (hen : d.fb NRG_CFG.EN = true) (hm : d.pwr.mode ≠ .follow)
    (hx : d.ivWrite r = some x) : intervalRecordDrain d = x.setNrg { x.nrg with buf := [] } := by
  unfold intervalRecordDrain
  rw [hb, List.length_singleton, nrgDrainF, hb]
  dsimp only
  rw [if_neg (by simp [hen, hm]), hx]
  rfl

/-- Settles O38: each command by the equation of its case, then what the slot, the point or the buffer is after it. -/
theorem meteringCommandsAct : Obligations.MeteringCommandsAct := by
  intro s ha
  refine ⟨?request, ?refused, ?complete, ?release, ?close, ?follow, ?drain⟩
  case request =>
    intro i hi hst
    refine effect_alive rfl ha ?_
    rw [nrgSnapRequest_takes hi hst]
    exact ⟨rfl, rfl, rfl, slotWord_unheld nofun⟩
  case refused =>
    intro i hst
    refine effect_alive rfl ha ?_
    rw [nrgSnapRequest_refused i hst]
    exact s.dev.nrgErr_shows (by decide)
  case complete =>
    intro hst
    refine effect_alive rfl ha ?_
    rw [nrgSnapComplete_shows hst, Device.count_nrg, Device.ctr_count_nrg _ (by decide)]
    exact ⟨rfl, rfl, slotWord_ready _ _, rfl⟩
  case release =>
    intro v _ hseq
    refine effect_alive rfl ha ?_
    rw [nrgSnapRelease_frees hseq]
    exact ⟨rfl, slotWord_unheld nofun⟩
  case close =>
    intro i iv rest haw hi hivs hen ht hs
    refine effect_awake rfl haw ?_
    rw [placed, if_pos (by simp [hi]), intervalClose_closes hivs hen ht hs]
    have hpoint : ((s.dev.setPoint i { s.dev.point i with ivs := s.dev.ivsLeft i iv rest }).ivEnd i iv (s.dev.ivStop iv) false false).point i =
        { s.dev.point i with ivs := s.dev.ivsLeft i iv rest } :=
      (congrArg (mgetD · i pointInit) (Device.ivEnd_points _ i iv _ false false)).trans (Device.point_setPoint_self _ _ _)
    rw [hpoint]
    refine ⟨fun hr => if_neg (by simp [hr]), fun hr => if_pos (by simp [hr]), rfl, fun hcfg hm hb hl => ?_⟩
    exact Device.ivEnd_waits (s.dev.setPoint i _) i iv _ false false hcfg hm hb hl
  case follow =>
    intro haw hb hm
    refine effect_awake rfl haw ?_
    rw [Device.preInterval_clean hb]
    exact nrgDrainF_follow _ hm
  case drain =>
    rintro r q haw hb hm hbuf hlen hen rfl hqen hqc hfree
    have hx := Device.cqRecord_fits (s.dev.ivMarked r) hqen hqc hfree
    have htail := s.dev.cqPost_tail (s.dev.f NRG_CFG.RING) (chunks 4 5 (s.dev.ivMarked r)) false
    rw [length_chunks (by decide) 4 5 (by decide) _ ((s.dev.length_ivMarked r).trans hlen)] at htail
    obtain ⟨-, hctr⟩ := Device.cqRecord_kept hx
    refine effect_awake rfl haw ?_
    rw [Device.preInterval_clean hb, intervalRecordDrain_one hbuf hen hm (Device.ivWrite_takes hx)]
    generalize s.dev.cqPost (s.dev.f NRG_CFG.RING) (chunks 4 5 (s.dev.ivMarked r)) false = x at htail hctr
    refine ⟨rfl, congrArg Nrg.lostBefore (Device.count_nrg _ _), ?counted, ?moved⟩
    case counted => exact (Device.ctr_count_nrg _ (by decide)).trans (congrArg (fun n => (n + 1) % 2 ^ 32) (hctr NRG_INTERVALS (by decide)))
    case moved => exact (congrArg CqSt.tail (Device.cqSt_congr (a := x) (by simp) _)).trans htail

end Sys2Proof.Machine
end

section
/-!
The Rharix unit's counters, ports, links and peers: what counts, events and changes of other units leave of them, and a link's use (R81, R342, R353).
-/
namespace Sys2Proof.Machine
-- Proofs are elaborated in turn: side by side they wait for one another, each on a thread with a stack of its own.
set_option deprecated.oldSectionVars true

/-! Counters and ports. -/

/-- A counter of the unit counts one. -/
abbrev Ctr.ofRxl (c : Ctr) : Prop := c.stride = 0 ∧ c.half = RXL_HALF.base ∧ RXL_HALF.base < c.base ∧ c.base / 65536 = 0x15

theorem Device.ctr_lt (d : Device) (c : Ctr) (i : Nat) : d.ctr c i < 2 ^ 32 := BitVec.isLt _
theorem Device.ctr_count_rxl (d : Device) {c : Ctr} (hc : c.ofRxl) : (d.count c).ctr c = (d.ctr c + 1) % 2 ^ 32 := by
  obtain ⟨hs, hh, hb, hr⟩ := hc
  exact d.ctr_count_self c 0 (by omega) (by omega) (by omega)
theorem Device.ctr_countN_rxl_other (d : Device) {c x : Ctr} (n : Nat) (hc : c.ofRxl) (hx : x.ofRxl) (h : x.base ≠ c.base) :
    (d.countN c n).ctr x = d.ctr x := by
  obtain ⟨-, hh, -, -⟩ := hc
  obtain ⟨hs, -, hb, hr⟩ := hx
  exact d.ctr_countN_other n 0 0 (by omega) (by omega) (by omega) (by omega)
theorem Device.ctr_count_rxl_other (d : Device) {c x : Ctr} (hc : c.ofRxl) (hx : x.ofRxl) (h : x.base ≠ c.base) : (d.count c).ctr x = d.ctr x :=
  d.ctr_countN_rxl_other 1 hc hx h
theorem Device.count_rxl (d : Device) (c : Ctr) : (d.count c).rxl = d.rxl := by simp
theorem RXL_PORT_key {i : Nat} (h : i < 4) : RXL_PORT.key i < RXL_HALF.base := by
  change 0x150010 + i * 4 < 0x150050
  omega
theorem Device.ctr_setPort (d : Device) {x : RF} (hx : x.reg = RXL_PORT) (v : Nat) {i : Nat} (hi : i < 4) {c : Ctr} (hc : c.ofRxl) :
    (d.setf x v i).ctr c = d.ctr c := by
  obtain ⟨hs, -, hb, -⟩ := hc
  have hk := RXL_PORT_key hi
  refine d.ctr_setf c 0 x v i ?_
  rw [hx]
  omega
theorem Device.port_countN (d : Device) {c : Ctr} (n : Nat) (hc : c.ofRxl) {x : RF} (hx : x.reg = RXL_PORT) {i : Nat} (hi : i < 4) :
    (d.countN c n).f x i = d.f x i := by
  obtain ⟨hs, hh, hb, -⟩ := hc
  have hk := RXL_PORT_key hi
  unfold Device.f
  rw [hx, Device.rg_countN d c n 0 RXL_PORT i (by decide) (by decide) (by omega) (by omega)]

theorem Calm.ctr_rxl {a d : Device} {l : List Touch} {u : List Nat} (h : Calm (Eff.of l u) a d) (hu : u.contains 0x15 = false) {c : Ctr} (hc : c.ofRxl) :
    d.ctr c = a.ctr c := by
  obtain ⟨-, -, -, hr⟩ := hc
  exact h.ctr_of c 0 (hr ▸ hu) (by omega) (by omega)
theorem Calm.port {a d : Device} {l : List Touch} {u : List Nat} (h : Calm (Eff.of l u) a d) (hu : u.contains 0x15 = false) {x : RF} (hx : x.reg = RXL_PORT)
    (i : Nat) : d.f x i = a.f x i :=
  h.f_of x i (by rw [hx]; exact hu) (by rw [hx]; decide) (by rw [hx]; decide)

/-! Links and peers. -/

theorem Device.link_congr {a d : Device} (h : d.rxl = a.rxl) (l : Nat) : d.link l = a.link l := by
  unfold Device.link
  rw [h]
theorem Device.peer_congr {a d : Device} (h : d.rxl.peers = a.rxl.peers) (i : Nat) : d.peer i = a.peer i := by
  unfold Device.peer
  rw [h]
@[simp] theorem Device.link_setLink_self (d : Device) (l : Nat) (x : LinkSt) : (d.setLink l x).link l = x := mgetD_mset_self _ _ _ _
@[simp] theorem Device.peer_setPeer_self (d : Device) (i : Nat) (x : PeerSt) : (d.setPeer i x).peer i = x := mgetD_mset_self _ _ _ _
theorem getCls_setCls_self (x : LinkSt) (c : Nat) (y : RxlClass) : getCls (setCls x c y) c = y := by
  unfold getCls setCls
  split <;> rfl

/-- From `a` to `d` the unit may differ in its links and in the counter `k` alone: the peers, the other counters and what the ports show stay. -/
structure Device.LinksOnly (k : Ctr) (a d : Device) : Prop where
  peers : d.rxl.peers = a.rxl.peers
  ctr : ∀ c : Ctr, c.ofRxl → c.base ≠ k.base → d.ctr c = a.ctr c
  port : ∀ x : RF, x.reg = RXL_PORT → ∀ i, i < 4 → d.f x i = a.f x i

namespace Device.LinksOnly
variable {k : Ctr} {a b d : Device}

theorem refl (k : Ctr) (d : Device) : LinksOnly k d d := ⟨rfl, fun _ _ _ => rfl, fun _ _ _ _ => rfl⟩
theorem trans (h : LinksOnly k a b) (g : LinksOnly k b d) : LinksOnly k a d :=
  ⟨g.peers.trans h.peers, fun c hc hk => (g.ctr c hc hk).trans (h.ctr c hc hk), fun x hx i hi => (g.port x hx i hi).trans (h.port x hx i hi)⟩
/-- What leaves the unit alone. -/
theorem calm {l : List Touch} {u : List Nat} (h : LinksOnly k a b) (hc : Calm (Eff.of l u) b d) (hu : u.contains 0x15 = false := by rfl) : LinksOnly k a d :=
  h.trans ⟨congrArg Rxl.peers (left_alone hc.rxl hu), fun _ hx _ => hc.ctr_rxl hu hx, fun _ hx i _ => hc.port hu hx i⟩
theorem setLink (h : LinksOnly k a d) (l : Nat) (x : LinkSt) : LinksOnly k a (d.setLink l x) := h.trans ⟨rfl, fun _ _ _ => rfl, fun _ _ _ _ => rfl⟩
theorem countN (h : LinksOnly k a d) (hk : k.ofRxl) (n : Nat) : LinksOnly k a (d.countN k n) :=
  h.trans ⟨by simp, fun _ hc hb => d.ctr_countN_rxl_other n hk hc hb, fun _ hx _ hi => d.port_countN n hk hx hi⟩
theorem count (h : LinksOnly k a d) (hk : k.ofRxl) : LinksOnly k a (d.count k) := h.countN hk 1

theorem peer (h : LinksOnly k a d) (i : Nat) : d.peer i = a.peer i := Device.peer_congr h.peers i
theorem portBit (h : LinksOnly k a d) {x : RF} (hx : x.reg = RXL_PORT) {i : Nat} (hi : i < 4) : d.fb x i = a.fb x i := by
  unfold Device.fb
  rw [h.port x hx i hi]

end Device.LinksOnly

/-! A link's use (R353). -/

/-- A link that is not usable is not wanted. -/
theorem Device.linkWant_unusable {d : Device} {l : Nat} (h : (d.link l).usable = false) : d.linkWant l = false := by
  simp [Device.linkWant, h]

theorem Device.raise_rxl (d : Device) (e : EvId) (l : List Nat) : (d.raise e l).rxl = d.rxl := by simp
theorem Device.countN_rxl (d : Device) (c : Ctr) (n : Nat) : (d.countN c n).rxl = d.rxl := by simp
theorem Device.raise_calmNone (d : Device) (e : EvId) (l : List Nat) : Calm (Eff.of [] []) d (d.raise e l) := Device.raise_calm (Calm.refl _ d)

theorem Device.linkRefresh_linksOnly (d : Device) (l cause : Nat) : LinksOnly RXL_TX_ABANDON d (d.linkRefresh l cause) := by
  have h := LinksOnly.refl RXL_TX_ABANDON d
  unfold Device.linkRefresh
  extract_lets x new
  split
  · exact h
  · split
    · exact (h.setLink l _).calm (Device.raise_calmNone _ _ _)
    · exact ((h.setLink l _).countN (by decide) _).calm (Device.raise_calmNone _ _ _)
/-- Use follows what the link's unit, entry and usability give; epoch and classes may begin anew. -/
theorem Device.link_linkRefresh (d : Device) (l cause : Nat) :
    ∃ e x y, (d.linkRefresh l cause).link l = { d.link l with up := d.linkWant l, epoch := e, c0 := x, c1 := y } := by
  unfold Device.linkRefresh
  extract_lets x new
  split
  case isTrue h =>
    have hw : d.linkWant l = x.up := h
    rw [hw]
    exact ⟨x.epoch, x.c0, x.c1, rfl⟩
  case isFalse h =>
    split
    case isTrue hn =>
      have hw : d.linkWant l = true := hn
      rw [hw]
      exact ⟨_, _, _, (Device.link_congr (Device.raise_rxl _ _ _) l).trans (d.link_setLink_self l _)⟩
    case isFalse hn =>
      have hw : d.linkWant l = false := Bool.eq_false_of_not_eq_true hn
      rw [hw]
      exact ⟨_, _, _, (Device.link_congr ((Device.raise_rxl _ _ _).trans (Device.countN_rxl _ _ _)) l).trans (d.link_setLink_self l _)⟩

/-- The unit of an RXL port follows its link's usability. -/
def Device.laneRefresh (d : Device) (l : Nat) : Device := if l < 4 then d.unitRefresh uLANE l else d
theorem Device.laneRefresh_starter (d : Device) (l : Nat) : Calm (Eff.of [] [0x0A]) d (d.laneRefresh l) := by
  unfold Device.laneRefresh
  split
  · exact Device.unitRefresh_calm (Calm.refl _ d)
  · exact Calm.refl _ d
theorem Device.linkHealth_eq (d : Device) (l : Nat) (ok : Bool) (cause : Nat) :
    d.linkHealth l ok cause = ((d.setLink l { d.link l with usable := ok }).laneRefresh l).linkRefresh l cause := rfl
theorem Device.linkHealth_linksOnly (d : Device) (l : Nat) (ok : Bool) (cause : Nat) : LinksOnly RXL_TX_ABANDON d (d.linkHealth l ok cause) :=
  (((LinksOnly.refl _ d).setLink l _).calm (Device.laneRefresh_starter _ l)).trans (Device.linkRefresh_linksOnly _ l cause)
theorem Device.link_linkHealth (d : Device) (l : Nat) (ok : Bool) (cause : Nat) : ∃ u e x y,
    (d.linkHealth l ok cause).link l = { d.link l with usable := ok, up := u, epoch := e, c0 := x, c1 := y } ∧ (ok = false → u = false) := by
  have hlink : ((d.setLink l { d.link l with usable := ok }).laneRefresh l).link l = { d.link l with usable := ok } :=
    (Device.link_congr (left_alone (Device.laneRefresh_starter _ l).rxl rfl) l).trans (d.link_setLink_self l _)
  obtain ⟨e, x, y, h⟩ := ((d.setLink l { d.link l with usable := ok }).laneRefresh l).link_linkRefresh l cause
  refine ⟨_, e, x, y, ?_, fun hok => Device.linkWant_unusable (l := l) (by rw [hlink]; exact hok)⟩
  rw [d.linkHealth_eq, h, hlink]
/-- A link that fails is neither usable nor in use. -/
theorem Device.linkHealth_fails (d : Device) (l cause : Nat) : ((d.linkHealth l false cause).link l).usable = false ∧
    ((d.linkHealth l false cause).link l).up = false ∧ ((d.linkHealth l false cause).link l).onTime = (d.link l).onTime ∧
    ((d.linkHealth l false cause).link l).cadAt = (d.link l).cadAt ∧ ((d.linkHealth l false cause).link l).failed = (d.link l).failed := by
  obtain ⟨u, e, x, y, h, hu⟩ := d.link_linkHealth l false cause
  rw [h]
  exact ⟨rfl, hu rfl, rfl, rfl, rfl⟩

end Sys2Proof.Machine
end

section
/-!
Frames on a Rharix link: sending and sending again, acknowledgements, CADENCE and its loss (R350, R351, R353).
-/
namespace Sys2Proof.Machine
-- Proofs are elaborated in turn: side by side they wait for one another, each on a thread with a stack of its own.
set_option deprecated.oldSectionVars true

/-! Sending. -/

/-- A link that owes no acknowledgement. -/
def LinkSt.acked (x : LinkSt) : LinkSt := { x with c0 := { x.c0 with owed := none }, c1 := { x.c1 with owed := none } }

theorem LinkSt.acked_buf (x : LinkSt) (c : Nat) : (getCls x.acked c).buf = (getCls x c).buf := by
  unfold getCls
  split <;> rfl

/-- A frame that its link sends: what is owed is acknowledged with it, and it is counted. -/
def Device.framed (d : Device) (l : Nat) : Device := (d.setLink l (d.link l).acked).count RXL_TX_FRAMES

theorem Device.link_framed (d : Device) (l : Nat) : (d.framed l).link l = (d.link l).acked :=
  (Device.link_congr (Device.count_rxl _ _) l).trans (d.link_setLink_self l _)
theorem Device.framed_linksOnly (d : Device) (l : Nat) : LinksOnly RXL_TX_FRAMES d (d.framed l) := ((LinksOnly.refl _ d).setLink l _).count (by decide)
theorem Device.ctr_framed (d : Device) (l : Nat) : (d.framed l).ctr RXL_TX_FRAMES = (d.ctr RXL_TX_FRAMES + 1) % 2 ^ 32 :=
  (d.setLink l _).ctr_count_rxl (by decide)
theorem Device.rxlPut_calmEgress (d : Device) (l : Nat) (b : List Byte) : Calm (Eff.of [] [0x11]) d (d.rxlPut l b) := Device.rxlPut_calm (Calm.refl _ d)

/-- A frame is not sent, at most with its missing key reported, or it is sent. -/
theorem Device.rxlEmit_cases (d : Device) (l seq : Nat) (m : RxlMsg) : Calm (Eff.of [] [0x18]) d (d.rxlEmit l seq m) ∨
    ∃ x, Calm (Eff.of [] [0x18]) d x ∧ Calm (Eff.of [] [0x11]) (x.framed l) (d.rxlEmit l seq m) := by
  unfold Device.rxlEmit
  have hkey : Calm (Eff.of [] [0x18]) d (d.rxlBytes l seq m).2 := Device.rxlBytes_calm (Calm.refl _ d)
  split
  · exact .inl (Calm.refl _ d)
  · split
    case h_1 d1 he => exact .inl (calm_snd he hkey)
    case h_2 b d1 he =>
      split
      · exact .inl (calm_snd he hkey)
      · exact .inr ⟨d1, calm_snd he hkey, Device.rxlPut_calmEgress _ l b⟩
theorem Device.rxlEmit_linksOnly (d : Device) (l seq : Nat) (m : RxlMsg) : LinksOnly RXL_TX_FRAMES d (d.rxlEmit l seq m) := by
  have h := LinksOnly.refl RXL_TX_FRAMES d
  rcases d.rxlEmit_cases l seq m with hc | ⟨x, hx, hc⟩
  · exact h.calm hc
  · exact ((h.calm hx).trans (x.framed_linksOnly l)).calm hc
/-- Of its link a frame changes at most what is owed. -/
theorem Device.link_rxlEmit (d : Device) (l seq : Nat) (m : RxlMsg) :
    (d.rxlEmit l seq m).link l = d.link l ∨ (d.rxlEmit l seq m).link l = (d.link l).acked := by
  rcases d.rxlEmit_cases l seq m with hc | ⟨x, hx, hc⟩
  · exact .inl (Device.link_congr (left_alone hc.rxl rfl) l)
  · refine .inr ((Device.link_congr (left_alone hc.rxl rfl) l).trans ((x.link_framed l).trans ?_))
    rw [Device.link_congr (left_alone hx.rxl rfl) l]

theorem Device.cadTx_rxlEmit (d : Device) (l seq : Nat) (m : RxlMsg) : ((d.rxlEmit l seq m).link l).cadTx = (d.link l).cadTx := by
  rcases d.link_rxlEmit l seq m with h | h
  · rw [h]
  · rw [h]
    rfl

/-- A link has somewhere to put its frames: an RXL port, or an ACTIVE port for its datagrams. -/
def Device.linkSends (d : Device) (l : Nat) : Bool := decide (l < 4) || (d.lowestPort (lkPorts (d.linkE l))).isSome

section
variable {d : Device} {l : Nat} {m : RxlMsg}

/-- Where no tag is asked for, only the port decides whether a frame is sent. -/
theorem Device.rxlEmit_sends (hm : d.rxlMay l m.typ = true) (ha : lkAuth (d.linkE l) = false) (hs : d.linkSends l = true) (seq : Nat) :
    Calm (Eff.of [] [0x11]) (d.framed l) (d.rxlEmit l seq m) := by
  have hport : ¬(4 ≤ l ∧ (d.lowestPort (lkPorts (d.linkE l))).isNone = true) := by
    rintro ⟨hl, hn⟩
    rw [Option.isNone_iff_eq_none] at hn
    simp [Device.linkSends, hn] at hs
    omega
  unfold Device.rxlEmit
  rw [if_neg (by simp [hm]), Device.rxlBytes]
  simp only [ha, Bool.false_eq_true, if_false]
  rw [if_neg hport]
  exact Device.rxlPut_calmEgress _ l _
theorem Device.rxlEmit_portless (hm : d.rxlMay l m.typ = true) (ha : lkAuth (d.linkE l) = false) (hs : d.linkSends l = false) (seq : Nat) :
    d.rxlEmit l seq m = d := by
  have hport : 4 ≤ l ∧ (d.lowestPort (lkPorts (d.linkE l))).isNone = true := by
    simpa [Device.linkSends] using hs
  unfold Device.rxlEmit
  rw [if_neg (by simp [hm]), Device.rxlBytes]
  simp only [ha, Bool.false_eq_true, if_false]
  rw [if_pos hport]
theorem Device.ctr_rxlEmit (hm : d.rxlMay l m.typ = true) (ha : lkAuth (d.linkE l) = false) (seq : Nat) :
    (d.rxlEmit l seq m).ctr RXL_TX_FRAMES = (d.ctr RXL_TX_FRAMES + b2n (d.linkSends l)) % 2 ^ 32 := by
  cases hs : d.linkSends l with
  | false =>
    rw [Device.rxlEmit_portless hm ha hs]
    exact (Nat.mod_eq_of_lt (d.ctr_lt _ 0)).symm
  | true => exact ((Device.rxlEmit_sends hm ha hs seq).ctr_rxl rfl (by decide)).trans (d.ctr_framed l)

end

/-- The unit's own state has no part in what a link may send and where. -/
theorem Device.linkSends_setRxl (d : Device) (x : Rxl) (l : Nat) : (d.setRxl x).linkSends l = d.linkSends l := by
  have hc : Calm (Eff.of [] [0x15]) d (d.setRxl x) := Device.setRxl_calm (Calm.refl _ d)
  exact congrArg (fun o => decide (l < 4) || Option.isSome o) (hc.lowestPort rfl rfl _)

theorem Device.ctr_rxlEmit_setRxl {d : Device} {l : Nat} {m : RxlMsg} (hm : d.rxlMay l m.typ = true) (ha : lkAuth (d.linkE l) = false) (x : Rxl)
    (seq : Nat) : ((d.setRxl x).rxlEmit l seq m).ctr RXL_TX_FRAMES = (d.ctr RXL_TX_FRAMES + b2n (d.linkSends l)) % 2 ^ 32 := by
  rw [← d.linkSends_setRxl x l]
  exact Device.ctr_rxlEmit (d := d.setRxl x) hm ha seq

/-! RXL_ACK_DELAY_EXPIRY and RXL_RETRANSMIT_TIMEOUT (R350). -/

section
variable {d : Device} {l : Nat}

theorem rxlAckDelay_sends {t : Time} (ho : (d.link l).c0.owed = some t ∨ (d.link l).c1.owed = some t)
    (ht : t + (if l < 4 then 2 * Time.usU else 500 * Time.usU) ≤ d.now) : rxlAckDelay l d = d.rxlAck l := by
  refine if_pos (List.any_eq_true.2 ⟨some t, ?_, decide_eq_true ht⟩)
  rcases ho with ho | ho
  · simp [ho]
  · simp [ho]
theorem Device.rxlAck_shows (hm : d.rxlMay l 0 = true) (ha : lkAuth (d.linkE l) = false) (hs : d.linkSends l = true) :
    (d.rxlAck l).link l = (d.link l).acked ∧ (d.rxlAck l).ctr RXL_TX_FRAMES = (d.ctr RXL_TX_FRAMES + 1) % 2 ^ 32 := by
  have hc : Calm (Eff.of [] [0x11]) (d.framed l) (d.rxlAck l) := Device.rxlEmit_sends hm ha hs 0
  exact ⟨(Device.link_congr (left_alone hc.rxl rfl) l).trans (d.link_framed l), (hc.ctr_rxl rfl (by decide)).trans (d.ctr_framed l)⟩

/-- A frame of a send buffer that is sent once more at `t`. -/
def RxlSent.again (f : RxlSent) (t : Time) : RxlSent := { f with times := f.times + 1, last := t }
/-- The unacknowledged frames of a class are sent again. -/
def Device.resent (d : Device) (l c : Nat) : Device :=
  d.setLink l (setCls (d.link l) c { getCls (d.link l) c with buf := (getCls (d.link l) c).buf.map (fun f => f.again d.now) })
def Device.resend (l : Nat) (d : Device) (f : RxlSent) : Device := (d.count RXL_RETX).rxlEmit l f.seq f.msg

theorem rxlRetransmit_resends {c : Nat} {f : RxlSent} {r : List RxlSent} (hb : (getCls (d.link l) c).buf = f :: r) (ht : f.last + d.rto l ≤ d.now)
    (hn : f.times < max 1 (d.f RXL_TIMING.RETX_MAX) + 1) : rxlRetransmit l c d = (f :: r).foldl (Device.resend l) (d.resent l c) := by
  unfold rxlRetransmit
  rw [hb]
  dsimp only
  rw [if_neg (Nat.not_lt.2 ht), if_neg (Nat.not_le.2 hn), ← hb]
  rfl
theorem rxlRetransmit_fails {c : Nat} {f : RxlSent} {r : List RxlSent} (hb : (getCls (d.link l) c).buf = f :: r) (ht : f.last + d.rto l ≤ d.now)
    (hn : max 1 (d.f RXL_TIMING.RETX_MAX) + 1 ≤ f.times) :
    rxlRetransmit l c d = (d.setLink l { d.link l with failed := true, onTime := 0 }).linkHealth l false 3 := by
  unfold rxlRetransmit
  rw [hb]
  dsimp only
  rw [if_neg (Nat.not_lt.2 ht), if_pos hn]

end

theorem Device.resend_shows (d : Device) (l : Nat) (f : RxlSent) (c : Nat) : (Device.resend l d f).ctr RXL_RETX = (d.ctr RXL_RETX + 1) % 2 ^ 32 ∧
    (getCls ((Device.resend l d f).link l) c).buf = (getCls (d.link l) c).buf := by
  refine ⟨((Device.rxlEmit_linksOnly _ l f.seq f.msg).ctr RXL_RETX (by decide) (by decide)).trans (d.ctr_count_rxl (by decide)), ?_⟩
  have hlink : (d.count RXL_RETX).link l = d.link l := Device.link_congr (d.count_rxl _) l
  unfold Device.resend
  rcases (d.count RXL_RETX).link_rxlEmit l f.seq f.msg with h | h
  · rw [h, hlink]
  · rw [h, hlink, LinkSt.acked_buf]
theorem Device.foldl_resend_shows (l c : Nat) (bs : List RxlSent) (d : Device) :
    (bs.foldl (Device.resend l) d).ctr RXL_RETX = (d.ctr RXL_RETX + bs.length) % 2 ^ 32 ∧
    (getCls ((bs.foldl (Device.resend l) d).link l) c).buf = (getCls (d.link l) c).buf := by
  induction bs generalizing d with
  | nil => exact ⟨(Nat.mod_eq_of_lt (d.ctr_lt _ 0)).symm, rfl⟩
  | cons f bs ih =>
    obtain ⟨hctr, hbuf⟩ := ih (Device.resend l d f)
    obtain ⟨hone, hkeep⟩ := d.resend_shows l f c
    refine ⟨?_, hbuf.trans hkeep⟩
    rw [List.foldl_cons, hctr, hone, List.length_cons]
    omega
theorem Device.resent_shows (d : Device) (l c : Nat) : (d.resent l c).ctr RXL_RETX = d.ctr RXL_RETX ∧
    (getCls ((d.resent l c).link l) c).buf = (getCls (d.link l) c).buf.map (fun f => f.again d.now) := by
  refine ⟨rfl, ?_⟩
  unfold Device.resent
  rw [Device.link_setLink_self, getCls_setCls_self]

theorem rxlRetransmit_shows {d : Device} {l c : Nat} {f : RxlSent} {r : List RxlSent} (hb : (getCls (d.link l) c).buf = f :: r)
    (ht : f.last + d.rto l ≤ d.now) (hn : f.times < max 1 (d.f RXL_TIMING.RETX_MAX) + 1) :
    (rxlRetransmit l c d).ctr RXL_RETX = (d.ctr RXL_RETX + (f :: r).length) % 2 ^ 32 ∧
    (getCls ((rxlRetransmit l c d).link l) c).buf = (f :: r).map (fun g => g.again d.now) := by
  obtain ⟨hctr, hbuf⟩ := Device.foldl_resend_shows l c (f :: r) (d.resent l c)
  obtain ⟨hctr', hbuf'⟩ := d.resent_shows l c
  rw [rxlRetransmit_resends hb ht hn, hctr, hctr', hbuf, hbuf', hb]
  exact ⟨rfl, rfl⟩

/-! CADENCE (R351, R353). -/

section
variable {d : Device} {l : Nat}

theorem cadenceLink_sends (hen : lkEn (d.linkE l) = true) (ht : (d.link l).cadTx + cadMs l * Time.msU ≤ d.now) (hk : 4 ≤ l ∨ d.fb RXL_PORT.LOCK l = true) :
    cadenceLink l d = (d.setLink l { d.link l with cadTx := d.now }).rxlEmit l 0 ⟨1, 8, d.self, lkPeer (d.linkE l), d.cadPayload l⟩ := by
  refine if_neg ?_
  rcases hk with hk | hk
  · simp [hen, ht, hk]
  · simp [hen, ht, hk]
theorem Device.routeTo_setPeer (dev i : Nat) (x : PeerSt) : (d.setPeer i x).routeTo dev = d.routeTo dev := rfl
theorem cadencePeer_sends {dev : Nat} (hr : d.routeTo dev = some l) (hp : d.spanPeers.contains dev = true)
    (ht : (d.peer dev).cadTx + cadMs l * Time.msU ≤ d.now) :
    cadencePeer dev d = (d.setPeer dev { d.peer dev with cadTx := d.now }).rxlEmit l 0 ⟨1, 8, d.self, dev, d.cadPayload l⟩ := by
  unfold cadencePeer
  rw [hr]
  dsimp only
  rw [if_neg (by simpa [ht] using hp), Device.rxlOwn, Device.rxlRoute, Device.routeTo_setPeer, hr]
  rfl
theorem cadenceLink_shows (hen : lkEn (d.linkE l) = true) (ht : (d.link l).cadTx + cadMs l * Time.msU ≤ d.now) (hk : 4 ≤ l ∨ d.fb RXL_PORT.LOCK l = true) :
    ((cadenceLink l d).link l).cadTx = d.now ∧ (d.rxlMay l 1 = true → lkAuth (d.linkE l) = false →
      (cadenceLink l d).ctr RXL_TX_FRAMES = (d.ctr RXL_TX_FRAMES + b2n (d.linkSends l)) % 2 ^ 32) := by
  rw [cadenceLink_sends hen ht hk]
  refine ⟨?_, fun hm ha => Device.ctr_rxlEmit_setRxl (m := ⟨1, 8, d.self, lkPeer (d.linkE l), d.cadPayload l⟩) hm ha _ 0⟩
  rw [Device.cadTx_rxlEmit, Device.link_setLink_self]
theorem cadencePeer_shows {dev : Nat} (hr : d.routeTo dev = some l) (hp : d.spanPeers.contains dev = true)
    (ht : (d.peer dev).cadTx + cadMs l * Time.msU ≤ d.now) : ((cadencePeer dev d).peer dev).cadTx = d.now ∧
    (d.rxlMay l 1 = true → lkAuth (d.linkE l) = false →
      (cadencePeer dev d).ctr RXL_TX_FRAMES = (d.ctr RXL_TX_FRAMES + b2n (d.linkSends l)) % 2 ^ 32) := by
  rw [cadencePeer_sends hr hp ht]
  refine ⟨?_, fun hm ha => Device.ctr_rxlEmit_setRxl (m := ⟨1, 8, d.self, dev, d.cadPayload l⟩) hm ha _ 0⟩
  rw [(Device.rxlEmit_linksOnly _ l 0 _).peer dev, Device.peer_setPeer_self]
/-- A link that has heard no CADENCE for too long, its peer no longer seen on an RXL port. -/
def Device.cadLost (d : Device) (l : Nat) : Device :=
  ((if l < 4 then d.setf RXL_PORT.PEER_OK 0 l else d).setLink l { d.link l with onTime := 0, cadAt := none }).linkHealth l false 2
theorem rxlCadTimeout_loses {t : Time} (hc : (d.link l).cadAt = some t) (ht : t + 3 * cadMs l * Time.msU ≤ d.now) : rxlCadTimeout l d = d.cadLost l := by
  unfold rxlCadTimeout
  dsimp only
  rw [hc]
  exact if_neg (Nat.not_lt.2 ht)
/-- A peer that is lost. -/
def Device.peerGone (d : Device) (dev : Nat) : Device :=
  ((d.setPeer dev { d.peer dev with lost := true, onTime := 0 }).count RXL_PEER_LOST).peerEvent dev
theorem peerLost_loses {dev : Nat} {t : Time} (hc : (d.peer dev).cadAt = some t) (hl : (d.peer dev).lost = false)
    (ht : t + 3 * (d.peer dev).interval * Time.msU ≤ d.now) : peerLost dev d = d.peerGone dev := by
  have hgate : ¬((d.peer dev).lost || decide (d.now < t + 3 * (d.peer dev).interval * Time.msU)) = true := by simp [hl, ht]
  unfold peerLost
  dsimp only
  split
  case h_1 hn => exact (Option.some_ne_none t (hc.symm.trans hn)).elim
  case h_2 t' hs =>
    obtain rfl : t = t' := Option.some.inj (hc.symm.trans hs)
    exact if_neg hgate
theorem Device.peerEvent_starter (d : Device) (dev : Nat) : Calm (Eff.of [] [0x0A]) d (d.peerEvent dev) :=
  Device.unitRefresh_calm (Device.raise_calm (Calm.refl _ d))

end

end Sys2Proof.Machine
end

section
/-!
Receiving a Rharix frame (R348 to R351): an equation for each outcome of the checks, of the window and of a CADENCE, and what each leaves.
-/
namespace Sys2Proof.Machine
-- Proofs are elaborated in turn: side by side they wait for one another, each on a thread with a stack of its own.
set_option deprecated.oldSectionVars true

/-! The checks (Table 12.4). -/

theorem Device.rxlCheck_counter {d : Device} {l : Nat} {b : List Byte} {c : Ctr} (h : d.rxlCheck l b = some c) : c.ofRxl := by
  unfold Device.rxlCheck at h
  dsimp only at h
  split at h
  · cases h; decide
  split at h
  · cases h; decide
  split at h
  · cases h; decide
  split at h
  · cases h; decide
  split at h
  · cases h; decide
  · cases h

/-- The read of the link's key is noted. -/
def Device.keyNoted (d : Device) (l : Nat) : Device := if lkAuth (d.linkE l) then d.noteRead 10 (keyLoc (lkKey (d.linkE l))) else d
theorem Device.keyNoted_eq (d : Device) (l : Nat) : ∃ n, d.keyNoted l = { d with noted := n } := by
  unfold Device.keyNoted Device.noteRead
  split
  · split
    · exact ⟨d.noted, rfl⟩
    · exact ⟨_, rfl⟩
  · exact ⟨d.noted, rfl⟩

/-- A link whose frames a header's acknowledgements have released. -/
def LinkSt.ackedBy (x : LinkSt) (h : RxlHdr) : LinkSt := { x with c0 := ackCls x.c0 h.ack0, c1 := ackCls x.c1 h.ack1 }
theorem LinkSt.ackedBy_window (x : LinkSt) (h : RxlHdr) (c : Nat) : (getCls (x.ackedBy h) c).next = (getCls x c).next ∧
    (getCls (x.ackedBy h) c).win = (getCls x c).win := by
  unfold getCls
  split <;> exact ⟨rfl, rfl⟩

/-- A frame has passed the checks, and its acknowledgements have been taken. -/
def Device.frameTaken (d : Device) (l : Nat) (h : RxlHdr) : Device := (d.keyNoted l).setLink l (((d.keyNoted l).link l).ackedBy h)
theorem Device.frameTaken_eq (d : Device) (l : Nat) (h : RxlHdr) :
    ∃ n, d.frameTaken l h = ({ d with noted := n } : Device).setLink l ((d.link l).ackedBy h) := by
  obtain ⟨n, hn⟩ := d.keyNoted_eq l
  exact ⟨n, by rw [Device.frameTaken, hn]; rfl⟩
theorem Device.link_frameTaken (d : Device) (l : Nat) (h : RxlHdr) : (d.frameTaken l h).link l = (d.link l).ackedBy h := by
  obtain ⟨n, hn⟩ := d.frameTaken_eq l h
  rw [hn, Device.link_setLink_self]
theorem Device.frameTaken_kept (d : Device) (l : Nat) (h : RxlHdr) : (d.frameTaken l h).regs = d.regs ∧ (d.frameTaken l h).tables = d.tables ∧
    (d.frameTaken l h).now = d.now := by
  obtain ⟨n, hn⟩ := d.frameTaken_eq l h
  rw [hn]
  exact ⟨rfl, rfl, rfl⟩
theorem Device.ctr_frameTaken (d : Device) (l : Nat) (h : RxlHdr) (c : Ctr) : (d.frameTaken l h).ctr c = d.ctr c :=
  Device.ctr_congr (d.frameTaken_kept l h).1 c 0

theorem Device.self_frameTaken (d : Device) (l : Nat) (h : RxlHdr) : (d.frameTaken l h).self = d.self := by
  unfold Device.self Device.f Device.rg Device.blkRegs
  rw [(d.frameTaken_kept l h).1]
theorem Device.self_count_rxl (d : Device) {c : Ctr} (hc : c.ofRxl) : (d.count c).self = d.self := by
  obtain ⟨hs, hh, hb, -⟩ := hc
  have hdev : RXL_DEV.key 0 < RXL_HALF.base := by decide
  refine d.f_count c 0 RXL_DEV.DEV 0 (by decide) (by decide) ?_ ?_
  · change RXL_DEV.key 0 ≠ _
    omega
  · change RXL_DEV.key 0 ≠ _
    omega
theorem Device.linkE_congr {a d : Device} (h : d.tables = a.tables) (l : Nat) : d.linkE l = a.linkE l := by
  unfold Device.linkE Device.ent
  rw [h]
theorem Device.now_count (d : Device) (c : Ctr) (i : Nat) : (d.count c i).now = d.now := by simp [Device.now]

/-- What a frame carries. -/
def rxlMsgOf (b : List Byte) : RxlMsg :=
  ⟨(rxlHdrOf b).typ, (rxlHdrOf b).hops, (rxlHdrOf b).src, (rxlHdrOf b).dst, slice b 16 (payLen (rxlHdrOf b) b.length)⟩

section
variable {d : Device} {l : Nat} {b : List Byte}

theorem Device.rxlFrame_refused {c : Ctr} (hc : d.rxlCheck l b = some c) : d.rxlFrame l b = (d.keyNoted l).count c := by
  unfold Device.rxlFrame
  rw [hc]
  rfl
theorem Device.rxlFrame_ack (hc : d.rxlCheck l b = none) (ht : (rxlHdrOf b).typ = 0) :
    d.rxlFrame l b = (d.frameTaken l (rxlHdrOf b)).count RXL_RX_FRAMES := by
  unfold Device.rxlFrame
  rw [hc]
  dsimp only
  rw [ht]
  rfl
theorem Device.rxlFrame_cadence (hc : d.rxlCheck l b = none) (ht : (rxlHdrOf b).typ = 1) :
    d.rxlFrame l b = ((d.frameTaken l (rxlHdrOf b)).count RXL_RX_FRAMES).cadenceIn l (rxlHdrOf b) (rxlMsgOf b) := by
  unfold Device.rxlFrame rxlMsgOf
  rw [hc]
  dsimp only
  rw [ht]
  rfl
theorem Device.rxlFrame_sequenced (hc : d.rxlCheck l b = none) (ht : 2 ≤ (rxlHdrOf b).typ) :
    d.rxlFrame l b = (d.frameTaken l (rxlHdrOf b)).rxlSequence l (rxlHdrOf b) (rxlMsgOf b) := by
  unfold Device.rxlFrame
  rw [hc]
  dsimp only
  split
  case h_1 h0 => omega
  case h_2 h1 => omega
  case h_3 => rfl

end

/-! The window (R349). -/

/-- A frame is held in a window, and its acknowledgement is owed from `t` or since before. -/
def RxlClass.hold (y : RxlClass) (seq : Nat) (m : RxlMsg) (t : Time) : RxlClass :=
  { y with win := if (mget y.win seq).isSome then y.win else mset y.win seq (m, t), owed := some (y.owed.getD t) }

theorem RxlClass.hold_holds (y : RxlClass) (seq : Nat) (m : RxlMsg) (t : Time) : (mget (y.hold seq m t).win seq).isSome = true := by
  unfold RxlClass.hold
  dsimp only
  split
  case isTrue h => exact h
  case isFalse h => rw [mget_mset_self]; rfl
theorem RxlClass.hold_other (y : RxlClass) {seq j : Nat} (m : RxlMsg) (t : Time) (h : j ≠ seq) : mget (y.hold seq m t).win j = mget y.win j := by
  unfold RxlClass.hold
  dsimp only
  split
  · rfl
  · exact mget_mset_other _ _ _ _ h

/-- How far a sequence number lies ahead of the next one expected, modulo 2^16. -/
def RxlClass.ahead (y : RxlClass) (seq : Nat) : Nat := (seq + 65536 - y.next) % 65536
theorem RxlClass.ahead_next (y : RxlClass) : y.ahead y.next = 0 := by
  unfold RxlClass.ahead
  omega

theorem windowRun_waits {d : Device} {l c : Nat} (h : mget (getCls (d.link l) c).win (getCls (d.link l) c).next = none) (n : Nat) :
    windowRun (n + 1) l c d = d := by
  unfold windowRun
  dsimp only
  rw [h]

section
variable {d : Device} {l : Nat} {h : RxlHdr}

/-- A frame ahead of sequence stands in the window, where nothing is next. -/
theorem Device.rxlSequence_holds (m : RxlMsg) (h0 : 0 < (getCls (d.link l) h.cls).ahead h.seq) (h1 : (getCls (d.link l) h.cls).ahead h.seq < 256)
    (hw : mget (getCls (d.link l) h.cls).win (getCls (d.link l) h.cls).next = none) : d.rxlSequence l h m =
    (d.setLink l (setCls (d.link l) h.cls ((getCls (d.link l) h.cls).hold h.seq m d.now))).count RXL_RX_FRAMES := by
  have hne : (getCls (d.link l) h.cls).next ≠ h.seq := by
    intro he
    rw [← he, RxlClass.ahead_next] at h0
    omega
  refine (if_pos h1).trans (windowRun_waits ?_ 256)
  rw [Device.link_congr (Device.count_rxl _ _) l, Device.link_setLink_self, getCls_setCls_self]
  exact (RxlClass.hold_other _ m d.now hne).trans hw
theorem Device.rxlSequence_behind (m : RxlMsg) (h1 : 32768 ≤ (getCls (d.link l) h.cls).ahead h.seq) :
    d.rxlSequence l h m = (d.count RXL_RX_DUP).rxlAck l :=
  (if_neg (Nat.not_lt.2 (Nat.le_trans (by decide) h1))).trans (if_pos h1)
theorem Device.rxlSequence_beyond (m : RxlMsg) (h1 : 256 ≤ (getCls (d.link l) h.cls).ahead h.seq) (h2 : (getCls (d.link l) h.cls).ahead h.seq < 32768) :
    d.rxlSequence l h m = (d.count RXL_RX_OOW).rxlAck l :=
  (if_neg (Nat.not_lt.2 h1)).trans (if_neg (Nat.not_le.2 h2))

end

/-- An acknowledgement counts nothing that was received. -/
theorem Device.ctr_rxlAck (d : Device) (l : Nat) {c : Ctr} (hc : c.ofRxl) (h : c.base ≠ RXL_TX_FRAMES.base) : (d.rxlAck l).ctr c = d.ctr c :=
  (d.rxlEmit_linksOnly l 0 _).ctr c hc h

/-! CADENCE (R351, R353). -/

theorem Calm.now_eq {a d : Device} {l : List Touch} {u : List Nat} (h : Calm (Eff.of l u) a d) (h1 : u.contains 0x01 = false) (h2 : u.contains 0x02 = false)
    (hj : l.contains .jnl = false) : d.now = a.now := by
  unfold Device.now
  rw [left_alone h.pwr h1, left_alone h.tk h2, left_alone h.jnl hj]

theorem Device.peerCadence_notes (d : Device) (dev credits interval mode : Nat) :
    ∃ x, x.cadAt = some d.now ∧ Calm (Eff.of [] [0x0A]) (d.setPeer dev x) (d.peerCadence dev credits interval mode) := by
  unfold Device.peerCadence
  extract_lets x ok n back d1
  refine ⟨{ x with lost := x.lost && !back, cadAt := some d.now, interval := interval, onTime := n, credits := credits, mode := mode }, rfl, ?_⟩
  split
  · exact d1.peerEvent_starter dev
  · exact Calm.refl _ d1

/-- A link CADENCE shows the peer on its RXL port. -/
def Device.peerSeen (d : Device) (l : Nat) : Device := if l < 4 then d.setf RXL_PORT.PEER_OK 1 l else d
theorem Device.linkCadence_notes (d : Device) (l epoch : Nat) : LinksOnly RXL_TX_ABANDON (d.peerSeen l) (d.linkCadence l epoch) ∧
    ((d.linkCadence l epoch).link l).cadAt = some d.now ∧ ((d.linkCadence l epoch).link l).rxEpoch = epoch := by
  unfold Device.linkCadence
  extract_lets x ok n y _ _ y1 d1
  have hy : y1.cadAt = some d.now ∧ y1.rxEpoch = epoch := by
    unfold y1
    split <;> exact ⟨rfl, rfl⟩
  have h1 : LinksOnly RXL_TX_ABANDON (d.peerSeen l) d1 := (LinksOnly.refl _ _).setLink l y1
  have hlink : d1.link l = y1 := Device.link_setLink_self _ l y1
  split
  · obtain ⟨u, e, p, q, hk, -⟩ := d1.link_linkHealth l true 0
    refine ⟨h1.trans (d1.linkHealth_linksOnly l true 0), ?_⟩
    rw [hk, hlink]
    exact hy
  · rw [hlink]
    exact ⟨h1, hy⟩

theorem Device.cadenceIn_peer {d : Device} {l : Nat} {h : RxlHdr} {m : RxlMsg} (hd : m.dst = d.self) (hh : 8 ≤ h.hops) (hs : m.src = lkPeer (d.linkE l)) :
    ∃ credits interval mode, d.cadenceIn l h m = ((d.peerCadence m.src credits interval mode).setLink l
      { (d.peerCadence m.src credits interval mode).link l with mode := mode }).linkCadence l h.epoch := by
  unfold Device.cadenceIn
  rw [if_neg (not_not.2 hd)]
  exact ⟨_, _, _, if_pos ⟨hh, hs⟩⟩
/-- A CADENCE of an RXL port's own peer is noted on the link, on the port and at the peer. -/
theorem Device.cadenceIn_notes {d : Device} {l : Nat} {h : RxlHdr} {m : RxlMsg} (hl : l < 4) (hd : m.dst = d.self) (hh : 8 ≤ h.hops)
    (hs : m.src = lkPeer (d.linkE l)) : (d.cadenceIn l h m).ctr RXL_RX_FRAMES = d.ctr RXL_RX_FRAMES ∧
    ((d.cadenceIn l h m).link l).cadAt = some d.now ∧ ((d.cadenceIn l h m).link l).rxEpoch = h.epoch ∧ (d.cadenceIn l h m).fb RXL_PORT.PEER_OK l = true ∧
    ((d.cadenceIn l h m).peer m.src).cadAt = some d.now := by
  obtain ⟨credits, interval, mode, he⟩ := Device.cadenceIn_peer hd hh hs
  obtain ⟨x, hx, hp⟩ := d.peerCadence_notes m.src credits interval mode
  rw [he]
  generalize d.peerCadence m.src credits interval mode = p at hp
  obtain ⟨hk, hat, hep⟩ := (p.setLink l { p.link l with mode := mode }).linkCadence_notes l h.epoch
  have hnow : p.now = d.now := hp.now_eq rfl rfl rfl
  have hseen (y : LinkSt) : (p.setLink l y).peerSeen l = (p.setLink l y).setf RXL_PORT.PEER_OK 1 l := if_pos hl
  rw [hseen] at hk
  refine ⟨?frames, hat.trans (congrArg some hnow), hep, ?port, ?peer⟩
  case frames =>
    exact ((hk.ctr RXL_RX_FRAMES (by decide) (by decide)).trans (Device.ctr_setPort _ rfl 1 hl (by decide))).trans (hp.ctr_rxl rfl (by decide))
  case port => exact (hk.portBit rfl hl).trans (Device.fb_setf_self _ RXL_PORT.PEER_OK true l rfl (by decide))
  case peer =>
    have hpeer : p.peer m.src = x := (Device.peer_congr (congrArg Rxl.peers (left_alone hp.rxl rfl)) m.src).trans (d.peer_setPeer_self m.src x)
    rw [hk.peer m.src]
    exact (congrArg PeerSt.cadAt hpeer).trans hx

/-! The outcomes of a frame that passes the checks. -/

section
variable {d : Device} {l : Nat} {b : List Byte}

theorem Device.rxlFrame_releases (hc : d.rxlCheck l b = none) (ht : (rxlHdrOf b).typ = 0) :
    (d.rxlFrame l b).ctr RXL_RX_FRAMES = (d.ctr RXL_RX_FRAMES + 1) % 2 ^ 32 ∧ (d.rxlFrame l b).link l = (d.link l).ackedBy (rxlHdrOf b) := by
  rw [Device.rxlFrame_ack hc ht]
  refine ⟨?_, (Device.link_congr (Device.count_rxl _ _) l).trans (d.link_frameTaken l _)⟩
  rw [Device.ctr_count_rxl _ (by decide), Device.ctr_frameTaken]
theorem Device.rxlFrame_notes (hl : l < 4) (hc : d.rxlCheck l b = none) (ht : (rxlHdrOf b).typ = 1) (hd : (rxlHdrOf b).dst = d.self)
    (hs : (rxlHdrOf b).src = lkPeer (d.linkE l)) (hh : 8 ≤ (rxlHdrOf b).hops) :
    (d.rxlFrame l b).ctr RXL_RX_FRAMES = (d.ctr RXL_RX_FRAMES + 1) % 2 ^ 32 ∧ ((d.rxlFrame l b).link l).cadAt = some d.now ∧
    ((d.rxlFrame l b).link l).rxEpoch = (rxlHdrOf b).epoch ∧ (d.rxlFrame l b).fb RXL_PORT.PEER_OK l = true ∧
    ((d.rxlFrame l b).peer (rxlHdrOf b).src).cadAt = some d.now := by
  obtain ⟨-, htab, hnow⟩ := d.frameTaken_kept l (rxlHdrOf b)
  have hself : ((d.frameTaken l (rxlHdrOf b)).count RXL_RX_FRAMES).self = d.self :=
    (Device.self_count_rxl _ (by decide)).trans (d.self_frameTaken l _)
  have hentry : ((d.frameTaken l (rxlHdrOf b)).count RXL_RX_FRAMES).linkE l = d.linkE l := Device.linkE_congr ((Device.count_tables _ _ _).trans htab) l
  obtain ⟨hctr, hat, hep, hport, hpeer⟩ := Device.cadenceIn_notes (m := rxlMsgOf b) hl (hd.trans hself.symm) hh (hs.trans (congrArg lkPeer hentry).symm)
  rw [Device.now_count, hnow] at hat hpeer
  rw [Device.rxlFrame_cadence hc ht]
  refine ⟨hctr.trans ?_, hat, hep, hport, hpeer⟩
  rw [Device.ctr_count_rxl _ (by decide), Device.ctr_frameTaken]

/-- The class of a link that a frame belongs to. -/
def Device.clsOf (d : Device) (l : Nat) (h : RxlHdr) : RxlClass := getCls (d.link l) h.cls
theorem Device.clsOf_frameTaken (d : Device) (l : Nat) (h : RxlHdr) : ((d.frameTaken l h).clsOf l h).next = (d.clsOf l h).next ∧
    ((d.frameTaken l h).clsOf l h).win = (d.clsOf l h).win := by
  unfold Device.clsOf
  rw [Device.link_frameTaken]
  exact LinkSt.ackedBy_window _ h h.cls
theorem Device.ahead_frameTaken (d : Device) (l : Nat) (h : RxlHdr) (seq : Nat) : ((d.frameTaken l h).clsOf l h).ahead seq = (d.clsOf l h).ahead seq :=
  congrArg (fun n => (seq + 65536 - n) % 65536) (d.clsOf_frameTaken l h).1

theorem Device.rxlFrame_holds (hc : d.rxlCheck l b = none) (ht : 2 ≤ (rxlHdrOf b).typ) (h0 : 0 < (d.clsOf l (rxlHdrOf b)).ahead (rxlHdrOf b).seq)
    (h1 : (d.clsOf l (rxlHdrOf b)).ahead (rxlHdrOf b).seq < 256)
    (hw : mget (d.clsOf l (rxlHdrOf b)).win (d.clsOf l (rxlHdrOf b)).next = none) :
    (d.rxlFrame l b).ctr RXL_RX_FRAMES = (d.ctr RXL_RX_FRAMES + 1) % 2 ^ 32 ∧
    (mget ((d.rxlFrame l b).clsOf l (rxlHdrOf b)).win (rxlHdrOf b).seq).isSome = true ∧ ((d.rxlFrame l b).clsOf l (rxlHdrOf b)).owed.isSome = true ∧
    ((d.rxlFrame l b).clsOf l (rxlHdrOf b)).next = (d.clsOf l (rxlHdrOf b)).next := by
  obtain ⟨hnext, hwin⟩ := d.clsOf_frameTaken l (rxlHdrOf b)
  rw [← d.ahead_frameTaken] at h0 h1
  rw [← hnext, ← hwin] at hw
  have hctr := d.ctr_frameTaken l (rxlHdrOf b) RXL_RX_FRAMES
  rw [Device.rxlFrame_sequenced hc ht, Device.rxlSequence_holds _ h0 h1 hw, ← hnext, ← hctr, Device.ctr_count_rxl _ (by decide)]
  generalize d.frameTaken l (rxlHdrOf b) = x
  unfold Device.clsOf
  rw [Device.link_congr (Device.count_rxl _ _) l, Device.link_setLink_self, getCls_setCls_self]
  exact ⟨rfl, RxlClass.hold_holds _ _ _ _, rfl, rfl⟩
/-- A frame that is dropped is counted, acknowledged and counted nowhere else. -/
theorem Device.ctr_dropped (d : Device) (l : Nat) (h : RxlHdr) {c : Ctr} (hc : c.ofRxl) (ht : c.base ≠ RXL_TX_FRAMES.base)
    (hr : RXL_RX_FRAMES.base ≠ c.base) : (((d.frameTaken l h).count c).rxlAck l).ctr c = (d.ctr c + 1) % 2 ^ 32 ∧
    (((d.frameTaken l h).count c).rxlAck l).ctr RXL_RX_FRAMES = d.ctr RXL_RX_FRAMES := by
  rw [Device.ctr_rxlAck _ _ hc ht, Device.ctr_rxlAck _ _ (by decide) (by decide), Device.ctr_count_rxl _ hc,
    Device.ctr_count_rxl_other _ hc (by decide) hr, Device.ctr_frameTaken, Device.ctr_frameTaken]
  exact ⟨rfl, rfl⟩
theorem Device.rxlFrame_behind (hc : d.rxlCheck l b = none) (ht : 2 ≤ (rxlHdrOf b).typ) (h1 : 32768 ≤ (d.clsOf l (rxlHdrOf b)).ahead (rxlHdrOf b).seq) :
    (d.rxlFrame l b).ctr RXL_RX_DUP = (d.ctr RXL_RX_DUP + 1) % 2 ^ 32 ∧ (d.rxlFrame l b).ctr RXL_RX_FRAMES = d.ctr RXL_RX_FRAMES := by
  rw [← d.ahead_frameTaken] at h1
  rw [Device.rxlFrame_sequenced hc ht, Device.rxlSequence_behind _ h1]
  exact d.ctr_dropped l _ (by decide) (by decide) (by decide)
theorem Device.rxlFrame_beyond (hc : d.rxlCheck l b = none) (ht : 2 ≤ (rxlHdrOf b).typ) (h1 : 256 ≤ (d.clsOf l (rxlHdrOf b)).ahead (rxlHdrOf b).seq)
    (h2 : (d.clsOf l (rxlHdrOf b)).ahead (rxlHdrOf b).seq < 32768) :
    (d.rxlFrame l b).ctr RXL_RX_OOW = (d.ctr RXL_RX_OOW + 1) % 2 ^ 32 ∧ (d.rxlFrame l b).ctr RXL_RX_FRAMES = d.ctr RXL_RX_FRAMES := by
  rw [← d.ahead_frameTaken] at h1 h2
  rw [Device.rxlFrame_sequenced hc ht, Device.rxlSequence_beyond _ h1 h2]
  exact d.ctr_dropped l _ (by decide) (by decide) (by decide)

end

/-! RXL_FRAME_RECEIVED (R348). -/

/-- A frame that a locked port takes from an enabled link. -/
theorem effect_rxlFrame {s : State} {lane : Nat} {b : List Byte} {p : Device → Prop} (haw : s.dev.awake = true) (hli : s.dev.listens = true) (hl : lane < 4)
    (hk : s.dev.fb RXL_PORT.LOCK lane = true) (he : lkEn (s.dev.linkE lane) = true) (hp : p (s.dev.rxlFrame lane (b.take 8232))) :
    Effect (.rxlFrameReceived lane b) s p := by
  refine effect_awake rfl haw ?_
  unfold rxlFrameReceived
  rw [if_pos hl, if_neg (by simp [hli, hk, he])]
  exact hp
theorem rxlFrameReceived_unknown {d : Device} {lane : Nat} {b : List Byte} {f : Nat × RxFrame} {r : List (Nat × RxFrame)} {k : IpPkt} (hl : 4 ≤ lane)
    (hli : d.listens = true) (hq : d.ing.rxlq = f :: r)
    (hip : ipParse (ethParse f.2.bytes).etype (f.2.bytes.drop (ethParse f.2.bytes).body) = .ok k)
    (hu : d.udpLink k.src (beNat (slice k.body 0 2)) = none) :
    rxlFrameReceived lane b d = ({ d with ing := { d.ing with rxlq := r } } : Device).count RXL_RX_NOLINK := by
  unfold rxlFrameReceived
  rw [if_neg (Nat.not_lt.2 hl), hq]
  refine (if_pos hli).trans ?_
  unfold Device.rxlDatagram
  dsimp only
  rw [hip]
  dsimp only
  rw [show Device.udpLink { d with ing := { d.ing with rxlq := r } } k.src (beNat (slice k.body 0 2)) = none from hu]

/-- Settles O54: the outcome of a frame on a link, or of a datagram that belongs to none. -/
theorem framesOfFederationAct : Obligations.FramesOfFederationAct := by
  intro s lane b haw hli
  refine ⟨fun c hl hk he hc => ?refused, fun hl hk he hc ht => ?ack, fun hl hk he hc ht hd hs hh => ?cadence,
    fun ahead hl hk he hc ht ha => ?sequenced, fun f r k hl hq hip hu => ?unknown⟩
  case refused =>
    refine effect_rxlFrame haw hli hl hk he ?_
    obtain ⟨n, hn⟩ := s.dev.keyNoted_eq lane
    rw [Device.rxlFrame_refused hc, hn]
    exact ⟨Device.count_rxl _ _, Device.ctr_count_rxl _ (Device.rxlCheck_counter hc)⟩
  case ack => exact effect_rxlFrame haw hli hl hk he (Device.rxlFrame_releases hc ht)
  case cadence => exact effect_rxlFrame haw hli hl hk he (Device.rxlFrame_notes hl hc ht hd hs hh)
  case sequenced =>
    subst ha
    exact ⟨fun h0 h1 hw => effect_rxlFrame haw hli hl hk he (Device.rxlFrame_holds hc ht h0 h1 hw),
      fun h1 => effect_rxlFrame haw hli hl hk he (Device.rxlFrame_behind hc ht h1),
      fun h1 h2 => effect_rxlFrame haw hli hl hk he (Device.rxlFrame_beyond hc ht h1 h2)⟩
  case unknown =>
    refine effect_awake rfl haw ?_
    rw [rxlFrameReceived_unknown hl hli hq hip hu]
    exact ⟨Device.count_ing _ _ _, Device.count_rxl _ _, Device.ctr_count_rxl _ (by decide)⟩

end Sys2Proof.Machine
end

section
/-!
Rharix ports (R342, R353) and combines that wait no longer (R363): an equation for each outcome, and what it leaves.
-/
namespace Sys2Proof.Machine
-- Proofs are elaborated in turn: side by side they wait for one another, each on a thread with a stack of its own.
set_option deprecated.oldSectionVars true

/-! RXL_PORT_ENABLE, RXL_TRAINING_DONE and RXL_LOCK_CHANGE. -/

/-- A bit that is cleared. -/
theorem Device.fb_cleared (d : Device) (x : RF) (i : Nat) (hx : x.lo = x.hi := by rfl) (h32 : x.hi < 32 := by decide) : (d.setf x 0 i).fb x i = false :=
  d.fb_setf_self x false i hx h32
/-- Storing one bit of a port leaves its other bits. -/
theorem Device.fb_beside {d : Device} {x y : RF} {b : Bool} {v i : Nat} (h : d.fb y i = b) (hr : y.reg = x.reg := by rfl) (hx : x.lo = x.hi := by rfl)
    (hy : y.lo = y.hi := by rfl) (h32 : y.hi < 32 := by decide) (hne : y.hi ≠ x.hi := by decide) : (d.setf x v i).fb y i = b := by
  unfold Device.fb at h ⊢
  rw [Device.f_setf_field d x y v i hr h32 hy.le hx.le (by omega), h]

/-- An RXL port's link fails with its lock. -/
def Device.laneDown (d : Device) (l : Nat) : Device := (d.setLink l { d.link l with onTime := 0 }).linkHealth l false 1
theorem Device.laneDown_shows (d : Device) (l : Nat) : ((d.laneDown l).link l).usable = false ∧ ((d.laneDown l).link l).up = false ∧
    ((d.laneDown l).link l).onTime = 0 := by
  obtain ⟨husable, hup, hon, -, -⟩ := (d.setLink l { d.link l with onTime := 0 }).linkHealth_fails l 1
  exact ⟨husable, hup, by rw [Device.laneDown, hon, Device.link_setLink_self]⟩
theorem Device.fb_laneDown (d : Device) {l : Nat} (hl : l < 4) {x : RF} (hx : x.reg = RXL_PORT) : (d.laneDown l).fb x l = d.fb x l :=
  (((LinksOnly.refl _ d).setLink l _).trans (Device.linkHealth_linksOnly _ l false 1)).portBit hx hl

/-- A port that EN has just changed has neither lock nor peer. -/
def Device.portBegun (d : Device) (l : Nat) (on : Bool) : Device :=
  ((((d.setf RXL_PORT.EN (b2n on) l).setf RXL_PORT.TRAINED 0 l).setf RXL_PORT.FEC_LOCK 0 l).setf RXL_PORT.LOCK 0 l).setf RXL_PORT.PEER_OK 0 l
theorem Device.portBegun_shows (d : Device) (l : Nat) (on : Bool) : (d.portBegun l on).fb RXL_PORT.EN l = on ∧
    (d.portBegun l on).fb RXL_PORT.TRAINED l = false ∧ (d.portBegun l on).fb RXL_PORT.FEC_LOCK l = false ∧
    (d.portBegun l on).fb RXL_PORT.LOCK l = false ∧ (d.portBegun l on).fb RXL_PORT.PEER_OK l = false := by
  have hen : (d.setf RXL_PORT.EN (b2n on) l).fb RXL_PORT.EN l = on := Device.fb_setf_self d RXL_PORT.EN on l rfl (by decide)
  exact ⟨Device.fb_beside (Device.fb_beside (Device.fb_beside (Device.fb_beside hen))),
    Device.fb_beside (Device.fb_beside (Device.fb_beside (Device.fb_cleared _ _ _))), Device.fb_beside (Device.fb_beside (Device.fb_cleared _ _ _)),
    Device.fb_beside (Device.fb_cleared _ _ _), Device.fb_cleared _ _ _⟩

theorem rxlPortWrite_keeps {d : Device} {l : Nat} {v : Word} (h : bit v 31 = d.fb RXL_PORT.EN l) :
    rxlPortWrite l v d = d.setf RXL_PORT.EN (b2n (bit v 31)) l := if_pos h
theorem rxlPortWrite_enables {d : Device} {l : Nat} {v : Word} (h : bit v 31 ≠ d.fb RXL_PORT.EN l) (hv : bit v 31 = true) :
    rxlPortWrite l v d = d.portBegun l (bit v 31) := (if_neg h).trans (if_pos hv)
theorem rxlPortWrite_disables {d : Device} {l : Nat} {v : Word} (h : bit v 31 ≠ d.fb RXL_PORT.EN l) (hv : bit v 31 = false) :
    rxlPortWrite l v d = (d.portBegun l (bit v 31)).laneDown l := (if_neg h).trans (if_neg (by simp [hv]))

/-- A port whose lock is gone trains again. -/
def Device.lockLost (d : Device) (l : Nat) : Device := ((d.setf RXL_PORT.LOCK 0 l).setf RXL_PORT.FEC_LOCK 0 l).setf RXL_PORT.TRAINED 0 l
theorem Device.lockLost_shows (d : Device) (l : Nat) : (d.lockLost l).fb RXL_PORT.LOCK l = false ∧ (d.lockLost l).fb RXL_PORT.FEC_LOCK l = false ∧
    (d.lockLost l).fb RXL_PORT.TRAINED l = false :=
  ⟨Device.fb_beside (Device.fb_beside (Device.fb_cleared _ _ _)), Device.fb_beside (Device.fb_cleared _ _ _), Device.fb_cleared _ _ _⟩
theorem rxlLock_gains {d : Device} {l : Nat} (he : d.fb RXL_PORT.EN l = true) (hk : d.fb RXL_PORT.LOCK l = false) :
    rxlLock l true d = (d.setf RXL_PORT.LOCK 1 l).setf RXL_PORT.FEC_LOCK 1 l := (if_neg (by simp [he, hk])).trans (if_pos rfl)
theorem rxlLock_loses {d : Device} {l : Nat} (he : d.fb RXL_PORT.EN l = true) (hk : d.fb RXL_PORT.LOCK l = true) :
    rxlLock l false d = (d.lockLost l).laneDown l := (if_neg (by simp [he, hk])).trans (if_neg (by decide))

theorem rxlLock_drops {d : Device} {l : Nat} (hl : l < 4) (he : d.fb RXL_PORT.EN l = true) (hk : d.fb RXL_PORT.LOCK l = true) :
    (rxlLock l false d).fb RXL_PORT.LOCK l = false ∧ (rxlLock l false d).fb RXL_PORT.FEC_LOCK l = false ∧
    (rxlLock l false d).fb RXL_PORT.TRAINED l = false ∧ ((rxlLock l false d).link l).usable = false ∧ ((rxlLock l false d).link l).up = false ∧
    ((rxlLock l false d).link l).onTime = 0 := by
  obtain ⟨hlock, hfec, htrained⟩ := d.lockLost_shows l
  rw [rxlLock_loses he hk]
  exact ⟨(Device.fb_laneDown _ hl rfl).trans hlock, (Device.fb_laneDown _ hl rfl).trans hfec, (Device.fb_laneDown _ hl rfl).trans htrained,
    Device.laneDown_shows _ l⟩
/-- A write that changes EN begins the port anew, and a port that is off has no link. -/
theorem rxlPortWrite_begins {d : Device} {l : Nat} {v : Word} (hl : l < 4) (h : bit v 31 ≠ d.fb RXL_PORT.EN l) :
    (rxlPortWrite l v d).fb RXL_PORT.EN l = bit v 31 ∧ (rxlPortWrite l v d).fb RXL_PORT.TRAINED l = false ∧
    (rxlPortWrite l v d).fb RXL_PORT.FEC_LOCK l = false ∧ (rxlPortWrite l v d).fb RXL_PORT.LOCK l = false ∧
    (rxlPortWrite l v d).fb RXL_PORT.PEER_OK l = false ∧ (bit v 31 = false → ((rxlPortWrite l v d).link l).usable = false) := by
  obtain ⟨hen, htrained, hfec, hlock, hpeer⟩ := d.portBegun_shows l (bit v 31)
  cases hv : bit v 31 with
  | true =>
    rw [rxlPortWrite_enables h hv]
    exact ⟨hen.trans hv, htrained, hfec, hlock, hpeer, nofun⟩
  | false =>
    rw [rxlPortWrite_disables h hv]
    exact ⟨(Device.fb_laneDown _ hl rfl).trans (hen.trans hv), (Device.fb_laneDown _ hl rfl).trans htrained, (Device.fb_laneDown _ hl rfl).trans hfec,
      (Device.fb_laneDown _ hl rfl).trans hlock, (Device.fb_laneDown _ hl rfl).trans hpeer, fun _ => (Device.laneDown_shows _ l).1⟩

/-! RXL_CADENCE_TIMEOUT and PEER_LOSS_TIMEOUT. -/

theorem Device.cadLost_shows (d : Device) (l : Nat) : ((d.cadLost l).link l).cadAt = none ∧ ((d.cadLost l).link l).onTime = 0 ∧
    ((d.cadLost l).link l).usable = false ∧ ((d.cadLost l).link l).up = false ∧ (l < 4 → (d.cadLost l).fb RXL_PORT.PEER_OK l = false) := by
  unfold Device.cadLost
  generalize hx : (if l < 4 then d.setf RXL_PORT.PEER_OK 0 l else d) = x
  obtain ⟨husable, hup, hon, hat, -⟩ := (x.setLink l { d.link l with onTime := 0, cadAt := none }).linkHealth_fails l 2
  rw [Device.link_setLink_self] at hon hat
  refine ⟨hat, hon, husable, hup, fun hl => ?_⟩
  rw [if_pos hl] at hx
  rw [(((LinksOnly.refl _ x).setLink l _).trans (Device.linkHealth_linksOnly _ l false 2)).portBit rfl hl, ← hx]
  exact Device.fb_cleared d RXL_PORT.PEER_OK l
theorem Device.peerGone_shows (d : Device) (dev : Nat) : ((d.peerGone dev).peer dev).lost = true ∧ ((d.peerGone dev).peer dev).onTime = 0 ∧
    (d.peerGone dev).ctr RXL_PEER_LOST = (d.ctr RXL_PEER_LOST + 1) % 2 ^ 32 := by
  have hc : Calm (Eff.of [] [0x0A]) _ (d.peerGone dev) := Device.peerEvent_starter _ dev
  have hpeer : (d.peerGone dev).peer dev = { d.peer dev with lost := true, onTime := 0 } :=
    (Device.peer_congr (congrArg Rxl.peers ((left_alone hc.rxl rfl).trans (Device.count_rxl _ _))) dev).trans (d.peer_setPeer_self dev _)
  rw [hpeer]
  exact ⟨rfl, rfl, (hc.ctr_rxl rfl (by decide)).trans (Device.ctr_count_rxl _ (by decide))⟩

/-! PART_WAIT_EXPIRY. -/

theorem Device.ctr_countN_rxl (d : Device) {c : Ctr} (hc : c.ofRxl) (n : Nat) : (d.countN c n).ctr c = (d.ctr c + n) % 2 ^ 32 := by
  obtain ⟨hs, hh, hb, hr⟩ := hc
  unfold Device.countN
  split
  case isTrue h0 =>
    rw [h0]
    exact (Nat.mod_eq_of_lt (d.ctr_lt c 0)).symm
  case isFalse =>
    unfold countWith
    extract_lets a old new d1
    have h1 : d1.ctr c = (d.ctr c + n) % 2 ^ 32 := (d.ctr_putReg_self c 0 _).trans (by simp [w32, new, old, a, Device.ctr])
    split
    · exact h1
    · split
      · exact h1
      · rw [Calm.ctr_eq (raiseF_calm (Device.irqRefresh_calm (Calm.refl Eff.none _))) c 0 (by omega) (by omega),
          Device.ctr_putReg_key _ _ _ _ _ _ (by omega)]
        exact h1

theorem Device.comb_congr {a d : Device} (h : d.rxl = a.rxl) (i n : Nat) : d.comb i n = a.comb i n := by
  unfold Device.comb
  rw [h]
@[simp] theorem Device.comb_setComb_self (d : Device) (i n : Nat) (c : CombSt) : (d.setComb i n c).comb i n = c := mgetD_mset_self _ _ _ _

/-- A combine is entered with the versions it uses, and counted with the partials it misses. -/
def Device.combEntered (d : Device) (h i n : Nat) (ps : NMap Part) : Device :=
  ((d.setComb i n ⟨(d.comb i n).seq + 1, ps.map (fun p => (p.1, p.2.version)), true, false⟩).countN RXL_PART_MISSING
    (seNmem (d.spanE h) - ps.length)).count RXL_COMBINES
theorem Device.combEntered_shows (d : Device) (h i n : Nat) (ps : NMap Part) :
    (d.combEntered h i n ps).comb i n = ⟨(d.comb i n).seq + 1, ps.map (fun p => (p.1, p.2.version)), true, false⟩ ∧
    (d.combEntered h i n ps).ctr RXL_COMBINES = (d.ctr RXL_COMBINES + 1) % 2 ^ 32 ∧
    (d.combEntered h i n ps).ctr RXL_PART_MISSING = (d.ctr RXL_PART_MISSING + (seNmem (d.spanE h) - ps.length)) % 2 ^ 32 := by
  unfold Device.combEntered
  refine ⟨?_, ?_, ?_⟩
  · rw [Device.comb_congr ((Device.count_rxl _ _).trans (Device.countN_rxl _ _ _)), Device.comb_setComb_self]
  · rw [Device.ctr_count_rxl _ (by decide), Device.ctr_countN_rxl_other _ _ (by decide) (by decide) (by decide)]
    rfl
  · rw [Device.ctr_count_rxl_other _ (by decide) (by decide) (by decide), Device.ctr_countN_rxl _ (by decide)]
    rfl
/-- Its journal entry and its task are no part of the Rharix unit. -/
theorem Device.combMake_enters (d : Device) (h i n : Nat) (ps : NMap Part) (fin : Bool) :
    Calm (Eff.of [.dd, .jnl] [0x0A]) (d.combEntered h i n ps) (d.combMake h i n ps fin) := by
  unfold Device.combMake
  extract_lets c all any missing t d1 d2 mask d3 data
  have h2 : Calm (Eff.of [.dd, .jnl] [0x0A]) (d.combEntered h i n ps) d2 := Calm.refl _ d2
  exact Device.entryFill_calm (Device.journalW_calm h2)

section
variable {d : Device} {h n i : Nat}

theorem Device.combCheck_makes (hr : d.racing = true) (hs : (d.comb i n).seq = 0) (hf : d.storeFree ≠ 0) :
    ∃ fin, d.combCheck h i n true = d.combMake h i n (d.newestParts i n) fin := by
  unfold Device.combCheck
  extract_lets c ps here fin newer want
  have hw : want = true := by
    have hc : c.seq = 0 := hs
    simp [want, hc]
  rw [if_neg (by simp [hr, hw]), if_neg (by simp [hf])]
  exact ⟨fin, rfl⟩
theorem Device.combCheck_shows (h : Nat) (hr : d.racing = true) (hs : (d.comb i n).seq = 0) (hf : d.storeFree ≠ 0) :
    ((d.combCheck h i n true).comb i n).seq = 1 ∧ ((d.combCheck h i n true).comb i n).busy = true ∧ ((d.combCheck h i n true).comb i n).due = false ∧
    ((d.combCheck h i n true).comb i n).used = (d.newestParts i n).map (fun p => (p.1, p.2.version)) ∧
    (d.combCheck h i n true).ctr RXL_COMBINES = (d.ctr RXL_COMBINES + 1) % 2 ^ 32 ∧
    (d.combCheck h i n true).ctr RXL_PART_MISSING = (d.ctr RXL_PART_MISSING + (seNmem (d.spanE h) - (d.newestParts i n).length)) % 2 ^ 32 := by
  obtain ⟨fin, hmake⟩ := Device.combCheck_makes (h := h) hr hs hf
  obtain ⟨hcomb, hctr, hmiss⟩ := d.combEntered_shows h i n (d.newestParts i n)
  have hc := d.combMake_enters h i n (d.newestParts i n) fin
  rw [hmake, Device.comb_congr (left_alone hc.rxl rfl), hcomb, hs]
  exact ⟨rfl, rfl, rfl, rfl, (hc.ctr_rxl rfl (by decide)).trans hctr, (hc.ctr_rxl rfl (by decide)).trans hmiss⟩
theorem Device.combCheck_waits (hr : d.racing = true) (hs : (d.comb i n).seq = 0) (hf : d.storeFree = 0) (he : d.entry? i n 256 = none)
    (hh : d.srt.held.contains (.combineIn i n) = false) :
    d.combCheck h i n true = (d.setSrt { d.srt with held := d.srt.held ++ [.combineIn i n] }).count SRT_PARTIAL_HELD := by
  unfold Device.combCheck
  extract_lets c ps here fin newer want
  have hc : c.seq = 0 := hs
  have hw : want = true := by simp [want, hc]
  rw [if_neg (by simp [hr, hw]), if_pos (by simp [hf, hc, he]), if_neg (by simpa using hh)]
theorem partWaitExpiry_checks {r : HeatRun} (hr : d.racing = true) (hsp : d.spans h = true) (hon : d.heatOn h = true) (hh : d.combHere h i n = true)
    (ht : d.lapT h n + seWait (d.spanE h) * Time.usU ≤ d.now) (hrun : d.run? h = some r) (hf : r.firstLap ≤ n) (hsk : r.skipped.contains n = false)
    (hi : d.combInsts h = [i]) (hs : (d.comb i n).seq = 0) : partWaitExpiry h n d = d.combCheck h i n true := by
  have hin : n ∉ r.skipped := by simpa using hsk
  unfold partWaitExpiry
  rw [if_neg (by simp [hr, hsp, hon, ht, hrun, hf, hin]), hi, List.foldl_cons, List.foldl_nil, if_pos (by simp [hh, hs])]

end

/-- A command of a place that the unit has, on a device that takes it. -/
theorem effect_awakeAt {c : Instr} {s : State} {p : Device → Prop} {b : Bool} {f : Device → Device} (h : exec c s = onAwake (placed b f) s)
    (haw : s.dev.awake = true) (hb : b = true) (hp : p (f s.dev)) : Effect c s p :=
  effect_awake h haw (by rw [placed, if_pos hb]; exact hp)
theorem effect_aliveAt {c : Instr} {s : State} {p : Device → Prop} {b : Bool} {f : Device → Device} (h : exec c s = onAlive (placed b f) s)
    (ha : s.dev.alive = true) (hb : b = true) (hp : p (f s.dev)) : Effect c s p :=
  effect_alive h ha (by rw [placed, if_pos hb]; exact hp)

/-- Settles O55: each command by the equation of its case, then what its operation leaves of the link, the peer, the port or the combine. -/
theorem linkCommandsAct : Obligations.LinkCommandsAct := by
  refine ⟨fun s l ha hl => ⟨fun t haw ho ht hm hau hs => ?ack, fun c f r haw hb ht hn => ?resend, fun c f r haw hb ht hn => ?fail,
    fun haw hen ht hk => ?cadence, fun dev haw hr hp ht => ?endToEnd, fun t haw hc ht => ?silent, fun dev t haw hc hlost ht => ?peer⟩,
    fun s l ha hl => ⟨fun v hv => ?enable, fun v hv => ?same, fun he => ?trained, fun he hk => ?gain, fun he hk => ?lose⟩,
    fun s h n i r haw hr hsp hon hh ht hrun hf hsk hi hseq => ⟨fun hfree => ?combine, fun hfull he hheld => ?held⟩⟩
  case ack =>
    refine effect_awakeAt rfl haw (decide_eq_true hl) ?_
    obtain ⟨hlink, hctr⟩ := Device.rxlAck_shows hm hau (by simpa [Device.linkSends] using hs)
    rw [rxlAckDelay_sends ho ht, hlink]
    exact ⟨rfl, rfl, hctr⟩
  case resend => exact effect_awakeAt rfl haw (decide_eq_true hl) (rxlRetransmit_shows hb ht hn)
  case fail =>
    refine effect_awakeAt rfl haw (decide_eq_true hl) ?_
    obtain ⟨husable, hup, -, -, hfailed⟩ := (s.dev.setLink l { s.dev.link l with failed := true, onTime := 0 }).linkHealth_fails l 3
    rw [rxlRetransmit_fails hb ht hn]
    exact ⟨hfailed.trans (by rw [Device.link_setLink_self]), husable, hup⟩
  case cadence =>
    refine effect_awake rfl haw ?_
    rw [cadenceSend, if_neg Bool.false_ne_true, placed, if_pos (decide_eq_true hl)]
    exact cadenceLink_shows hen ht hk
  case endToEnd => exact effect_awake rfl haw (cadencePeer_shows hr hp ht)
  case silent => exact effect_awakeAt rfl haw (decide_eq_true hl) (rxlCadTimeout_loses hc ht ▸ Device.cadLost_shows _ l)
  case peer => exact effect_awake rfl haw (peerLost_loses hc hlost ht ▸ s.dev.peerGone_shows dev)
  case enable => exact effect_aliveAt rfl ha (decide_eq_true hl) (rxlPortWrite_begins hl hv)
  case same =>
    refine effect_aliveAt rfl ha (decide_eq_true hl) ?_
    rw [rxlPortWrite_keeps hv]
    exact ⟨Device.fb_setf_self _ RXL_PORT.EN _ l rfl (by decide), Device.fb_beside rfl, rfl⟩
  case trained =>
    refine effect_aliveAt rfl ha (decide_eq_true hl) ?_
    rw [rxlTrained, if_pos he]
    exact ⟨Device.fb_setf_self _ RXL_PORT.TRAINED true l rfl (by decide), rfl⟩
  case gain =>
    refine effect_aliveAt rfl ha (decide_eq_true hl) ?_
    rw [rxlLock_gains he hk]
    exact ⟨Device.fb_beside (Device.fb_setf_self _ RXL_PORT.LOCK true l rfl (by decide)), Device.fb_setf_self _ RXL_PORT.FEC_LOCK true l rfl (by decide), rfl⟩
  case lose => exact effect_aliveAt rfl ha (decide_eq_true hl) (rxlLock_drops hl he hk)
  case combine =>
    refine effect_awake rfl haw ?_
    rw [partWaitExpiry_checks hr hsp hon hh ht hrun hf hsk hi hseq]
    exact Device.combCheck_shows h hr hseq hfree
  case held =>
    refine effect_awake rfl haw ?_
    rw [partWaitExpiry_checks hr hsp hon hh ht hrun hf hsk hi hseq, Device.combCheck_waits hr hseq hfull he hheld]
    exact ⟨congrArg Srt.held (Device.count_srt _ _ _), Device.count_rxl _ _, Device.ctr_count_self _ SRT_PARTIAL_HELD 0 (by decide) (by decide) (by decide)⟩

end Sys2Proof.Machine
end
